-- ==== Sys2Proof/Word.lean ====
section
/-!
DEFINITION. Word.lean: the byte, and the sparse tables in which the model keeps everything the device numbers.
-/
namespace Sys2Proof

/-- A byte of a structure, a page or a buffer. -/
abbrev Byte := BitVec 8

/-- A sparse table keyed by number (a handle, an index, an address): keys strictly rising. -/
abbrev Table (α : Type) := List (Nat × α)

end Sys2Proof
end

