-- ==== Sys2Proof/Syntax.lean ====
section
/-!
DEFINITION. Syntax.lean: the commands that act on the SV8, one per row of spec/opcode_table.json, and the
plain data they carry. A host command carries its submission entry's operands (12 R385, 16 R525); an event
carries what the outside supplies with it (which port, which wheel, which bytes arrived).
-/
namespace Sys2Proof

/-- Where a host command came from: a submission queue of a function (12 R382) or the I3C port (16 R524).
Function 0 is the management function; function n + 1 is the function of partition n (12 R378). -/
inductive Origin where
  | queue (fn sq cid : Nat)
  | i3c
deriving DecidableEq, Repr

/-- A host command as fetched: ARGS, FENCE, the data buffer's place and length, and the bytes that a
bus-address buffer holds (12 R385). With DWIN the buffer is in the partition's T1 direct window and `data` is unused. `rsv` is what an entry that
came over I3C (16 R524) holds in its reserved bytes and FLAGS bits, as one number; a fetched entry is tested at its fetch. -/
structure Cmd where
  origin : Origin
  args : List Byte
  fence : Bool := false
  dwin : Bool := false
  dptr : Nat := 0
  dlen : Nat := 0
  data : List Byte := []
  rsv : Nat := 0
deriving DecidableEq, Repr

/-- What a host read of a window line asks for (12 R396): the data alone (Invalid), or a Shared or an Exclusive copy. -/
inductive LineGrant where
  | invalid
  | shared
  | exclusive
deriving DecidableEq, Repr

/-- A malformed or unsupported CXL.io request (14 R459): its header of four words as received, and whether PCIe defines Completer Abort for it. -/
structure IoRequest where
  header : List Byte
  abort : Bool
deriving DecidableEq, Repr

/-- An entry of the on-chip table or the cold index (R214, R236); `tagHi` is the wide tag that a width pair's odd member
holds (R243). -/
structure PmeEntry where
  tag : Nat
  column : Nat
  page : Nat
  part : Nat
  hits : Nat := 0
  home : Nat := 0
  priv : Bool := false
  tagHi : Nat := 0
  /-- the anchor of its segment (R213), which travels with it (log 75) -/
  anchor : Nat := 0
deriving DecidableEq, Repr

/-- A verified hit (R226): depth, column and GEN, the cascade position and the node that hold it, and the tier. -/
structure PrefixHit where
  depth : Nat
  column : Nat
  gen : Nat
  home : Nat
  node : Nat
  tier : Nat
  fwd : Nat := 0
deriving DecidableEq, Repr

/-- A column as another member of the sled reads it from its HOME device to verify an entry (07 R224, R241), with that device's node. -/
structure RemoteColumn where
  tag : Nat
  parentTag : Nat
  tagHi : Nat := 0
  gen : Nat
  page : Nat
  part : Nat
  owner : Nat := 0
  dead : Bool := false
  bad : Bool := false
  shadow : List Nat
  node : Nat
  tier : Nat
deriving DecidableEq, Repr

/-- What a flit of the cascade brings to a member's set (07 R240, R243): an entry to be inserted (`mirror`: the mate of a width pair has
inserted it; `by_`: the partition whose insertion made it move), the removal of the entries that name a column, of a mate's entry, a hit
that the mate counted, the mate's way-match vector for a segment that an origin looks up, and the word to a HOME device that an entry that
named its column is gone. -/
inductive EntryMove where
  | put (e : PmeEntry) (mirror : Bool) (by_ : Nat)
  | drop (home column : Nat)
  | mateDrop (home column : Nat)
  | mateHit (home column : Nat)
  | wayMatch (origin id segment : Nat) (ways : BitVec 128)
  | gone (column : Nat)
  | lost (column : Nat)
deriving DecidableEq, Repr

/-- What an import reads from the holding device (07 R231, R232): the CONTENT of each column, shallowest first, the publisher's session
handle, the FINAL of its capsule that published the deepest page, and the page bytes, by page index and layer. -/
structure ImportData where
  contents : List Nat
  publisher : Nat
  final : List Byte
  pages : List (List Byte)
  /-- a column on the way was found DEAD (07 R230) -/
  dead : Bool := false
deriving DecidableEq, Repr

/-- A node value of a chain's tree as it comes from the member before (05 R178): record of the layer part, query head, level and
index of the node, and its fp32 codes m, l and A. -/
structure NodeVal where
  record : Nat
  head : Nat
  level : Nat
  idx : Nat
  m : Nat
  l : Nat
  a : List Nat
deriving DecidableEq, Repr

/-- The traffic of 09 R292 that meets an instance of memory or an expander, row by row of its table: reads of the current layer or tail
with appends and seals; shaft-due sets and revive fetches within the lead; recovery reads that a pending set names; revive fetches beyond
the lead, relief, ladder moves, promotions and clean-ahead; other recovery, direct-window commands, coherent window traffic, imports,
forwarding and other fabric traffic; heat sweeps, event-log and capsule writes, self-test and firmware. -/
inductive Traffic where
  | stepRead | shaftDue | dueRecovery | movement | other | system
deriving DecidableEq, Repr

/-- An operation that reaches an instance (09 R290, R292): its traffic, the partition it works for, its bytes. -/
structure Arrival where
  traffic : Traffic
  part : Nat
  bytes : Nat
deriving DecidableEq, Repr

/-- What the next instruction of a tending core's program does (01 R23, 11 R373): changes of its thread's own registers and the pc that
follows; the mapping of a 1 GiB aperture to a connection, a key with its generation, and an offset; a load or a store of 1, 2, 4 or 8
bytes; a FENCE. -/
inductive CoreAct where
  | inner (x f : List (Nat × Nat)) (v : List (Nat × List Byte)) (csr : List (Nat × Nat)) (pc : Nat)
  | aperture (base conn key gen offset : Nat)
  | load (rd addr size : Nat) (signed : Bool)
  | store (addr size value : Nat)
  | fence
deriving DecidableEq, Repr

/-- An instruction that a halted core steps (13 R439): the core, the instruction's length in bytes, and what it does. -/
structure CoreStep where
  core : Nat
  len : Nat
  act : CoreAct
deriving DecidableEq, Repr

/-- What the other end of a link says of itself (10 R308, R310): its generation, and the credits of each class that it grants. -/
structure LinkPeer where
  gen : Nat
  credits : List Nat
deriving DecidableEq, Repr

/-- What a transfer between tiers brings (08 R261, R269): a page, the weights of a layer for a wheel, an adapter's terms of a layer, the
penalty overflow of a turn's session, or what a direct-window command reads or writes in a 4 KiB unit of a tier. -/
inductive Transfer where
  | page (handle : Nat)
  | weights (wheel step layer : Nat)
  | adapter (wheel step layer id ver : Nat)
  | overflow (wheel step session : Nat)
  | direct (tier unit : Nat)
deriving DecidableEq, Repr

/-- How a transfer failed (08 R280, R282, R288, 14 R459): the source tier returned an error, or poison, or a malformed response of a tray's
port with its header, or timed out; or the write to the destination failed. -/
inductive ReadFail where
  | error
  | poison
  | malformed (port : Nat) (header : List Byte)
  | timeout
  | write
deriving DecidableEq, Repr


/-- What an error that a block detects is about (14 R448). -/
inductive ErrSource where
  /-- corrected somewhere else than in a row of T0 or T1 -/
  | corrected
  /-- corrected in a row of T0 or T1, at a 4 KiB unit -/
  | correctedRow (tier unit : Nat)
  /-- an uncorrectable error on the read of a page, by the stream of a dealt gang (wheel, part, gang) or by another read -/
  | pageRead (handle : Nat) (gang : Option (Nat × Nat × Nat))
  /-- a sealed 512-byte unit of a tier whose tag no longer matches -/
  | tampered (tier unit : Nat)
  | sessionDescriptor (index : Nat)
  /-- the residue check of the array that runs an item -/
  | arrayResidue (wheel stamp item : Nat)
  /-- a tending core, and the wheels whose layer work it held -/
  | core (core : Nat) (wheels : List Nat)
  | prefixEntry (set way : Nat)
  | coldBucket (part home chain : Nat)
  | column (index : Nat)
  /-- a page record or session map of a partition, in a row given by tier and 4 KiB unit, or its bank -/
  | partitionRecord (part : Nat) (row : Option (Nat × Nat))
  /-- a reference or pin count of a page would fall below zero -/
  | refUnderflow (handle : Nat)
  /-- SEC-private memory, a hub core, the hub crossbar or a die bridge -/
  | hub
  /-- a block's error log, its write path or its event path -/
  | logPath
deriving DecidableEq, Repr

/-- A drive as NVC finds it on a root port (08 R287): major NVMe version, whether it has the NVM command set, the LBA format of
namespace 1 (LBA and metadata bytes, end-to-end protection), MDTS in KiB, capacity in 4 KiB units. -/
structure DriveFound where
  port : Nat
  nvme : Nat
  nvm : Bool
  lbaBytes : Nat
  metaBytes : Nat
  protection : Bool
  mdtsKib : Nat
  units : Nat
deriving DecidableEq, Repr

/-- What the firmware sets before the blocks report ready (00 R15, 15 R499), where no rule fixes it: the directory, the cold index and
the column pool, the expanders' credits, the staging area, the window, the size of T2 in 4 KiB units; and what the root ports
find: trays as (port, lanes, hot list), and drives. -/
structure FwValues where
  dirBase : Nat
  dirRecords : Nat
  coldBase : Nat
  coldBuckets : Nat
  coldFree : Nat
  columnPool : Nat
  credits : Nat
  stagingMib : Nat
  windowSize : Nat
  t2Units : Nat
  trays : List (Nat × Nat × Bool)
  drives : List DriveFound
deriving DecidableEq, Repr

/-- The commands of the block: one constructor per row of the opcode table, in the table's order.
Each constructor's docstring names the rule that governs it. -/
inductive Instr where
  /-- R384: Admin command that creates a submission or completion queue of the calling function -/
  | queueCreate (c : Cmd)
  /-- R384: Admin command that deletes a queue of the calling function and leaves ERROR for its pair -/
  | queueDelete (c : Cmd)
  /-- R526: Opens a session descriptor, optionally forking another session, and returns its handle and seed -/
  | sessionOpen (c : Cmd)
  /-- R44: Closes a session at its commit point, cancelling any turn and freeing the descriptor -/
  | sessionClose (c : Cmd)
  /-- R44: Moves a waiting or parked session to a deeper rung of its park ladder -/
  | sessionPark (c : Cmd)
  /-- R75: Rebinds a session to another model binding or adapter version and drops its KV -/
  | sessionRebind (c : Cmd)
  /-- R529: Writes the tail parameters, host context, lifetimes or record flag selected by MASK -/
  | sessionSet (c : Cmd)
  /-- R525: Returns the session descriptor and its history and KV lengths -/
  | sessionRead (c : Cmd)
  /-- R525: Copies a range of a session's history tokens to the data buffer -/
  | historyRead (c : Cmd)
  /-- R527: Appends input tokens and queues a turn at the Weir, held until the turn ends -/
  | turnSubmit (c : Cmd)
  /-- R60: Cancels the session's queued, reviving or running turn at the commit point -/
  | turnCancel (c : Cmd)
  /-- R531: Configures a session as a member of a chain of devices along the sequence -/
  | sessionShard (c : Cmd)
  /-- R531: Adds a member after the last one of a session's chain at the next step boundary -/
  | chainExtend (c : Cmd)
  /-- R148: Checks and registers a model binding record and verifies its weight image hash -/
  | modelBind (c : Cmd)
  /-- R71: Unregisters a model binding not referenced by any session or wheel -/
  | modelUnbind (c : Cmd)
  /-- R184: Checks and registers a tail binding record and verifies its weight image hash -/
  | tailBind (c : Cmd)
  /-- R184: Unregisters a tail binding that no attached wheel names -/
  | tailUnbind (c : Cmd)
  /-- R73: Registers a new LIVE version of an adapter for a model binding -/
  | adapterLoad (c : Cmd)
  /-- R73: Marks a LIVE adapter version RETIRED -/
  | adapterRetire (c : Cmd)
  /-- R150: Attaches a wheel, registers its exchange regions and places its weights and tail image -/
  | wheelAttach (c : Cmd)
  /-- R530: Detaches an idle wheel and releases its regions, window and tail image -/
  | wheelDetach (c : Cmd)
  /-- R222: Hashes a token sequence, gathers candidates and verifies the deepest published prefix -/
  | prefixLookup (c : Cmd)
  /-- R227: Verifies and returns the next candidate of a lookup cursor -/
  | nextMatch (c : Cmd)
  /-- R229: Applies a cursor's hit to a fresh session, naming the column pages in its map -/
  | prefixAttach (c : Cmd)
  /-- R226: Releases the lookup slot named by a cursor -/
  | prefixRelease (c : Cmd)
  /-- R233: Publishes every sealed page index of a session up to the one named -/
  | prefixPublish (c : Cmd)
  /-- R246: Marks a column and its descendants DEAD and drops their entries -/
  | prefixRevoke (c : Cmd)
  /-- R252: Reads a range of a partition's direct window into the data buffer -/
  | tierRead (c : Cmd)
  /-- R252: Writes the data buffer into a range of a partition's direct window -/
  | tierWrite (c : Cmd)
  /-- R525: Copies a range between direct windows as though through a buffer -/
  | tierCopy (c : Cmd)
  /-- R410: Compares and swaps an object's version word in the state window and recalls its lines -/
  | windowPublish (c : Cmd)
  /-- R325: Opens a Xebrilink connection to a remote partition by sending CONNECT -/
  | connOpen (c : Cmd)
  /-- R325: Closes or frees a connection, draining its unacknowledged messages first -/
  | connClose (c : Cmd)
  /-- R364: Registers a memory, exact or trigger region and returns its key -/
  | regionRegister (c : Cmd)
  /-- R370: Advances a region's generation and drains its in-flight packets, optionally freeing it -/
  | regionRevoke (c : Cmd)
  /-- R356: Writes the members of a multicast group -/
  | groupSet (c : Cmd)
  /-- R363: Starts a fabric work request at once -/
  | wrSubmit (c : Cmd)
  /-- R363: Posts a fabric work request to a trigger region's list -/
  | wrPost (c : Cmd)
  /-- R403: Assigns a state-window extent to a partition and its hosts -/
  | extentAssign (c : Cmd)
  /-- R403: Grants further hosts access to an active extent -/
  | extentAddHosts (c : Cmd)
  /-- R405: Removes hosts from an extent, recalling and poisoning their lines as needed -/
  | extentRemove (c : Cmd)
  /-- R415: Makes an unconfigured partition's banks writable -/
  | partitionConfigure (c : Cmd)
  /-- R415: Returns a configured partition's banks to reset values -/
  | partitionRelease (c : Cmd)
  /-- R414: Checks and freezes a partition's configuration and computes CONFIG_MEAS -/
  | partitionLock (c : Cmd)
  /-- R415: Admits a locked partition to the data plane -/
  | partitionStart (c : Cmd)
  /-- R416: Moves an active partition to DRAINING and ends its turns -/
  | partitionDrain (c : Cmd)
  /-- R445: Starts the partition wipe of a locked, draining or replay partition -/
  | partitionWipe (c : Cmd)
  /-- R472: Moves a locked partition to REPLAY -/
  | replayBegin (c : Cmd)
  /-- R470: Copies sealed capsules to the data buffer -/
  | capsuleRead (c : Cmd)
  /-- R473: Checks and re-executes capsule chains, reporting the first divergence -/
  | replayRun (c : Cmd) (supply : List (List Byte))
  /-- R438: Raises the fused minimum firmware security version to the running one -/
  | fwCommitSvn (c : Cmd)
  /-- R442: Advances the fused lifecycle from PROVISIONED to OPERATIONAL at next reset -/
  | lifecycleAdvance (c : Cmd)
  /-- R442: Moves the fused lifecycle to DECOMMISSIONED at next reset -/
  | lifecycleDecommission (c : Cmd)
  /-- R422: SPDM request answered by SEC with its supported versions -/
  | spdmGetVersion (transport : Nat)
  /-- R422: SPDM request answered by SEC with its capabilities -/
  | spdmGetCapabilities (transport : Nat)
  /-- R422: SPDM request that negotiates algorithms with SEC -/
  | spdmNegotiateAlgorithms (transport : Nat) (offered : Nat)
  /-- R422: SPDM request answered with certificate chain digests -/
  | spdmGetDigests (transport : Nat)
  /-- R421: SPDM request answered with the device certificate chain in slot 0 -/
  | spdmGetCertificate (transport : Nat) (slot : Nat) (offset : Nat) (length : Nat)
  /-- R422: Any other SPDM request, answered with SPDM ERROR UnsupportedRequest -/
  | spdmUnsupportedRequest (transport : Nat)
  /-- R423: Vendor-defined request for a signed device or partition report -/
  | attestationReport (transport : Nat) (part : Nat) (nonce : List Byte)
  /-- R425: Tenant starts key delivery and receives KEY_OFFER with a report and encapsulation key -/
  | keyInit (transport : Nat) (part : Nat) (nonce : List Byte)
  /-- R425: Tenant sends ciphertext, key and signature; device verifies and derives session keys -/
  | keyExch (transport : Nat) (part : Nat) (ct : List Byte) (pk : List Byte) (sig : List Byte)
  /-- R425: Tenant delivers one wrapped key slot, answered by KEY_DONE -/
  | keyDeliver (transport : Nat) (part : Nat) (slot : Nat) (wrapped : List Byte) (tag : List Byte)
  /-- R426: Ten seconds since KEY_OFFER pass and the exchange ends with ST_KEY_STATE -/
  | keyExchangeTimeout (part : Nat)
  /-- R441: Operator halts a tending core through the debug surface -/
  | debugHalt (core : Nat)
  /-- R441: Operator resumes a halted tending core -/
  | debugResume (core : Nat)
  /-- R439: Operator single-steps a halted tending core -/
  | debugStep (step : CoreStep)
  /-- R441: Operator reads memory, hoppers or stores through the debug surface -/
  | debugMemoryRead (space : Nat) (addr : Nat) (len : Nat)
  /-- R383: Write to an admin queue control register that enables or deletes the admin pair -/
  | aqCtrlWrite (from_ : Nat) (fn : Nat) (sqSize : Nat) (cqSize : Nat) (en : Nat)
  /-- R388: Host writes an SQ tail doorbell, or puts the pair in ERROR if invalid -/
  | sqTailDoorbell (fn : Nat) (q : Nat) (value : Nat)
  /-- R388: Host writes a CQ head doorbell, or puts the pair in ERROR if invalid -/
  | cqHeadDoorbell (fn : Nat) (q : Nat) (value : Nat)
  /-- R387: Device fetches and starts the next command of an SQ once a completion entry can be reserved -/
  | commandFetch (fn : Nat) (q : Nat) (entry : List Byte)
  /-- R391: A completion queue's coalescing delay expires -/
  | cqDelayExpiry (fn : Nat) (q : Nat)
  /-- R57: Operator writes SSQ.TICK, advancing the host tick or being discarded -/
  | tickWrite (from_ : Nat) (value : Nat)
  /-- R44: A session's rung dwell expires and it moves one rung down its park ladder -/
  | ladderMove (session : Nat)
  /-- R44: A session's EXPIRY_TICK falls due and its KV is released -/
  | sessionExpiry (session : Nat)
  /-- R44: A session's RETAIN_TICK falls due and it is closed -/
  | sessionRetirement (session : Nat)
  /-- R53: Expert write to SSQ.WHEEL, including a lead change pending to the next step boundary -/
  | wheelExpertWrite (from_ : Nat) (wheel : Nat) (reg : Nat) (value : Nat)
  /-- R143: Expert page operation that reads a page record -/
  | tmgReadRecord (from_ : Nat) (handle : Nat)
  /-- R143: Expert page operation that reads a page header -/
  | tmgReadHeader (from_ : Nat) (handle : Nat)
  /-- R143: Expert page operation that passes a page to recovery -/
  | markRecovery (from_ : Nat) (handle : Nat)
  /-- R143: Expert page operation that reads a session map entry -/
  | readMap (from_ : Nat) (session : Nat) (layer : Nat) (page : Nat)
  /-- R517: Expert set operation that reads a prefix table entry -/
  | pmeReadEntry (from_ : Nat) (set : Nat) (way : Nat)
  /-- R212: Expert set operation that drops a prefix table entry without cold insertion -/
  | dropEntry (from_ : Nat) (set : Nat) (way : Nat)
  /-- R453: Expert set operation that tests a PME bank -/
  | bankTest (from_ : Nat) (set : Nat)
  /-- R225: Expert set operation that maps a PME bank out -/
  | mapOutBank (from_ : Nat) (set : Nat)
  /-- R239: Expert set operation that starts a column sweep of a partition -/
  | sweepColumns (from_ : Nat) (part : Nat)
  /-- R317: Expert route operation that reads a node's port mask -/
  | routeRead (from_ : Nat) (first : Nat)
  /-- R317: Expert route operation that writes port masks for a node range -/
  | routeWrite (from_ : Nat) (first : Nat) (last : Nat) (mask : Nat)
  /-- R345: Expert connection operation that reads a connection record -/
  | connReadRecord (from_ : Nat) (conn : Nat)
  /-- R325: Expert connection operation that forces a connection to FAILED -/
  | connFail (from_ : Nat) (conn : Nat)
  /-- R364: Expert region operation that reads a region entry -/
  | regionOpReadEntry (from_ : Nat) (index : Nat)
  /-- R370: Expert region operation that revokes a region -/
  | regionOpRevoke (from_ : Nat) (index : Nat)
  /-- R370: Expert region operation that revokes a region and retires it -/
  | revokeAndFree (from_ : Nat) (index : Nat)
  /-- R314: Write to XFE.NODE that sets static node mode and announces on every UP port -/
  | nodeStaticWrite (from_ : Nat) (static_ : Nat) (staticNode : Nat)
  /-- R308: Write to a port's EN that enables detection or drops the link -/
  | portEnWrite (from_ : Nat) (port : Nat) (en : Nat)
  /-- R467: Write to FRC.CAPSULE that lays out or removes the capsule area and its labels -/
  | capsuleAreaWrite (from_ : Nat) (units : Nat)
  /-- R436: Write of GO to SEC.FW_LOAD_CTRL that reads and checks a firmware image -/
  | fwLoadGo (from_ : Nat) (len4k : Nat) (image : Option (List Byte))
  /-- R483: Write of GO to MGC.PWR_CTRL that requests a power state change -/
  | pwrCtrlGo (from_ : Nat) (target : Nat)
  /-- R483: A requested power state change completes -/
  | powerTransitionDone
  /-- R495: Write to MGC.RESET_CTRL with the key that causes a warm reset -/
  | resetCtrlWrite (from_ : Nat) (key : Nat) (warm : Nat)
  /-- R516: Keyed write that opens or closes a page's expert window -/
  | blkExpertUnlockWrite (from_ : Nat) (slot : Nat) (maskPart : Nat) (maskOper : Nat) (key : Nat)
  /-- R519: Write of INJECT that arms a corrected or uncorrected error in the block -/
  | blkInject (from_ : Nat) (slot : Nat) (value : Nat)
  /-- R455: Write of GO to BLK_SELFTEST that starts a test of the named resource -/
  | blkSelftestGo (from_ : Nat) (slot : Nat) (resource : Nat) (kind : Nat)
  /-- R13: Write to any register without behaviour of its own, taken or discarded by its field rules -/
  | registerWrite (from_ : Nat) (offset : Nat) (size : Nat) (value : Nat)
  /-- R449: A block detects an error, takes its immediate action and starts its handler -/
  | errorDetected (slot : Nat) (inst : Nat) (source : ErrSource)
  /-- R453: A targeted self-test ends transient or lasting and the handler logs its result -/
  | selftestDone (slot : Nat) (kind : Nat) (num : Nat) (passed : Bool) (units : List Nat)
  /-- R361: A TRIGGER packet is received and awaits its fence -/
  | trigger (port : Nat) (raw : List Byte) (fill : Nat)
  /-- R361: A trigger becomes consumable, adds to COUNT and is handed to its consumer -/
  | triggerConsume (region : Nat) (elapsedNs : Nat)
  /-- R54: A filtered BEAT_IN pulse advances a wheel's anticipated layer -/
  | beatIn
  /-- R169: The TCCs deal the next fitting gang to free unfenced arrays and pin its pages -/
  | gangDeal (part : Nat)
  /-- R124: An expander checks and decodes a delivered page into hoppers against credits -/
  | expanderDecode (wheel : Nat) (stamp : Nat) (gang : Nat)
  /-- R142: A recovery read completes and the page is repointed or marked LOST -/
  | recoveryReadDone (handle : Nat) (failed : Bool)
  /-- R167: An array finishes a work item and its results leave the array -/
  | itemDone (wheel : Nat) (stamp : Nat) (item : Nat) (nodes : List NodeVal)
  /-- R49: A step commits for a session at its commit point once its records are reserved -/
  | stepCommit (session : Nat) (late : Bool)
  /-- R119: A commit's T0 slot reservation is still waiting at HRC.LATE and the step is rolled back -/
  | commitReserveTimeout (session : Nat)
  /-- R151: The roster of the next step is written and ROSTER_CTR advanced -/
  | rosterWrite (wheel : Nat)
  /-- R70: A revive layer becomes resident in T0 and the join test is retaken -/
  | reviveLayerResident (session : Nat)
  /-- R261: A fetch or tier move completes and the page record is repointed -/
  | tierTransferDone (what : Transfer)
  /-- R280: A lower tier returns an error or poison and the affected turns end -/
  | tierReadFailed (what : Transfer) (how : ReadFail)
  /-- R279: A shaft-due page is not resident at HRC.LATE and needing turns end -/
  | pageLate (wheel : Nat) (layer : Nat) (what : Transfer)
  /-- R55: A wheel with running turns accepts no exchange for the stall timeout -/
  | wheelStall (wheel : Nat)
  /-- R179: A chain member's node values are late and the sharded turns end -/
  | chainTimeout (wheel : Nat) (member : Nat)
  /-- R257: Occupancy above HI_WATER starts relief of eligible pages to the next tier -/
  | spillwayRelief (part : Nat) (tier : Nat) (columns : List Nat)
  /-- R263: The Spillway writes a T1 lower copy of a sealed T0 page -/
  | cleanAhead (part : Nat)
  /-- R267: A page whose heat reaches its threshold is promoted -/
  | heatPromotion (handle : Nat)
  /-- R266: The pin count reaches PERIOD and every HEAT is halved -/
  | heatSweep (hot : List (Nat × List (Nat × Nat)))
  /-- R219: A bank's lookup count reaches AGE.LOOKUPS and its HITS are halved -/
  | hitsAgeing (bank : Nat)
  /-- R233: After a commit, sealed page indices are published under the partition policy -/
  | prefixPublication (session : Nat)
  /-- R217: Entries are moved across group boundaries until every group holds a hole -/
  | holeMaintenance (set : Nat)
  /-- R239: The partition's columns are reinserted or freed after errors -/
  | columnSweep (part : Nat)
  /-- R226: A lookup slot unused for SLOT_TIMEOUT is released -/
  | lookupSlotTimeout (slot : Nat)
  /-- R231: An attach by import has placed every page and completes -/
  | importDone (id : Nat) (what : Option ImportData)
  /-- R241: A member receives a sled lookup's header and tag flits and compares its set -/
  | cascadeLookup (origin : Nat) (id : Nat) (segment : Nat) (part : Nat) (session : Nat) (hashes : List Nat) (wides : List Nat) (tokens : List Nat)
  /-- R241: A RESOLVE flit reaches a member and member 0 schedules a match frame -/
  | resolve (origin : Nat) (id : Nat) (segment : Nat)
  /-- R241: A match frame passes the match lines and the winning member verifies -/
  | matchFrame (origin : Nat) (id : Nat) (segment : Nat) (hitIn : Bool) (column : Option RemoteColumn)
  /-- R241: A RESULT flit reaches the origin and ends the segment lookup -/
  | cascadeResult (id : Nat) (segment : Nat) (hit : Option PrefixHit) (multi : Bool)
  /-- R241: A REJECT flit reaches the origin, which sends a new RESOLVE -/
  | cascadeReject (id : Nat) (segment : Nat)
  /-- R240: A hole-maintenance move across the cascade port updates a member's set -/
  | cascadeMove (set : Nat) (what : EntryMove)
  /-- R508: MATCH_IN stays asserted 1 µs and the member isolates itself -/
  | matchInStuck
  /-- R494: The cascade port fails to lock within 10 ms and the member isolates itself -/
  | cascadeLockTimeout
  /-- R244: A forwarded lookup message is received and run in the parent's sled -/
  | fwdLookup (node : Nat) (id : Nat) (part : Nat) (hops : Nat) (depth : Nat) (hashes : List Nat) (wides : List Nat) (tokens : List Nat)
  /-- R245: A forwarding answer arrives and may replace the local result -/
  | fwdAnswer (id : Nat) (hit : Option PrefixHit)
  /-- R245: No forwarding answer arrives in time and the local result is returned -/
  | fwdTimeout (id : Nat)
  /-- R294: A Sluice instance decides its next grant -/
  | sluiceDecide (inst : Nat) (arrivals : List Arrival) (credits : List Nat)
  /-- R297: An urgent request at its head aborts a preemptible grant -/
  | sluicePreempt (inst : Nat) (arrivals : List Arrival) (credits : List Nat)
  /-- R299: A grant reaches HOLD_MAX hold cycles and its requester is quarantined -/
  | sluiceHogCutoff (inst : Nat) (addr : Nat)
  /-- R293: A Sluice window ends and credits are refilled -/
  | sluiceWindowBoundary (inst : Nat)
  /-- R308: Signal is detected on a port's lanes and equalisation starts -/
  | linkDetect (port : Nat) (lanes : Nat)
  /-- R308: A port's lanes lock and LINK_CAP is exchanged -/
  | linkTrained (port : Nat)
  /-- R308: A port fails to lock within 50 ms and returns to DETECT -/
  | linkTrainTimeout (port : Nat)
  /-- R309: LINK_CAP is agreed and the port enters UP -/
  | linkCap (port : Nat) (peer : LinkPeer)
  /-- R308: A port loses lock or exceeds its FEC error count and leaves UP -/
  | linkDown (port : Nat) (fec : Nat)
  /-- R313: An ASSIGN from the fabric manager sets the node number or is ignored -/
  | assign (port : Nat) (node : Nat) (fmNode : Nat) (epoch : Nat)
  /-- R316: A DEPART fails every connection to the named node -/
  | depart (port : Nat) (node : Nat) (uid : Nat)
  /-- R316: A JOIN is logged -/
  | join (port : Nat) (node : Nat) (uid : Nat)
  /-- R317: A ROUTE message sets port masks for a node range -/
  | route (port : Nat) (first : Nat) (last : Nat) (mask : Nat) (epoch : Nat)
  /-- R324: A CONNECT is received and accepted or refused -/
  | connect (port : Nat) (raw : List Byte) (fill : Nat)
  /-- R325: An ACCEPT opens an OPENING connection -/
  | accept (port : Nat) (raw : List Byte) (fill : Nat)
  /-- R325: A CLOSE is received, answered with CLOSE_ACK, and the id freed -/
  | close (port : Nat) (raw : List Byte) (fill : Nat)
  /-- R325: A CLOSE_ACK completes a closing connection -/
  | closeAck (port : Nat) (raw : List Byte) (fill : Nat)
  /-- R325: An OPENING connection reaches DEAD_TIMEOUT and completes unreachable -/
  | connectTimeout (conn : Nat)
  /-- R325: A CLOSING connection reaches DEAD_TIMEOUT after CLOSE and is freed -/
  | closeTimeout (conn : Nat)
  /-- R329: A WRITE packet is checked, placed and tracked toward its message's completion -/
  | write (port : Nat) (raw : List Byte) (fill : Nat)
  /-- R356: A multicast write packet is placed at a member -/
  | mcastWrite (port : Nat) (raw : List Byte) (fill : Nat)
  /-- R358: A REDUCE packet adds its elements to a region -/
  | reduce (port : Nat) (raw : List Byte) (fill : Nat)
  /-- R352: A READ_REQ is served with a READ_RESP message -/
  | readReq (port : Nat) (raw : List Byte) (fill : Nat)
  /-- R352: A READ_RESP is placed at the requester and may complete the read -/
  | readResp (port : Nat) (raw : List Byte) (fill : Nat)
  /-- R353: An ATOMIC add is performed and answered -/
  | atomic (port : Nat) (raw : List Byte) (fill : Nat)
  /-- R353: An ATOMIC_RESP completes an atomic at the requester -/
  | atomicResp (port : Nat) (raw : List Byte) (fill : Nat)
  /-- R354: A compare-and-swap is performed and answered -/
  | cas (port : Nat) (raw : List Byte) (fill : Nat)
  /-- R354: A CAS_RESP completes a compare-and-swap at the requester -/
  | casResp (port : Nat) (raw : List Byte) (fill : Nat)
  /-- R355: A FLUSH is answered once earlier messages are retired and visible -/
  | flush (port : Nat) (raw : List Byte) (fill : Nat)
  /-- R355: A FLUSH_RESP completes a flush at the sender -/
  | flushResp (port : Nat) (raw : List Byte) (fill : Nat)
  /-- R331: An ACK acknowledges packets and adjusts the window -/
  | ack (port : Nat) (raw : List Byte) (fill : Nat)
  /-- R346: A NAK ends a message or connection at the sender -/
  | nak (port : Nat) (raw : List Byte) (fill : Nat)
  /-- R332: ACK DELAY_NS passes and a SACK is sent -/
  | ackDelayExpiry (conn : Nat) (seq : Nat)
  /-- R333: A packet's RTO expires and it is resent with RETX -/
  | retransmitTimeout (conn : Nat) (seq : Nat) (index : Nat)
  /-- R334: A packet unacknowledged for DEAD_TIMEOUT fails its connection -/
  | connectionDeadTimeout (conn : Nat)
  /-- R372: A read, atomic, CAS or flush without response completes ST_FABRIC_DEAD -/
  | deadTarget (req : Nat)
  /-- R344: A spilled connection record returns from host memory or fails -/
  | spillFetchDone (conn : Nat) (record : Option (List Byte))
  /-- R370: A draining region's INFLIGHT reaches 0 and its revoke completes -/
  | revokeDrained (index : Nat)
  /-- R371: A RETIRING region becomes FREE 100 ms later -/
  | regionRetireExpiry (index : Nat)
  /-- R396: A host CXL.mem read of a window line is served or denied -/
  | hostMemRead (ld : Nat) (line : Nat) (grant : LineGrant)
  /-- R396: A host CXL.mem write to a window line is served or discarded -/
  | hostMemWrite (ld : Nat) (line : Nat) (mask : Nat) (bytes : List Byte)
  /-- R398: A host answers a recall and the waiting line operation proceeds -/
  | bisnpResponse (host : Nat) (line : Nat) (data : Option (List Byte))
  /-- R407: A recall unanswered for the timeout declares its host dead -/
  | recallTimeout (host : Nat) (line : Nat)
  /-- R405: An extent removal's drain bound passes and held lines are poisoned -/
  | extentDrainBound (extent : Nat)
  /-- R406: An extent wipe ends and the extent becomes FREE -/
  | extentWipeDone (extent : Nat)
  /-- R459: A malformed or unsupported CXL.io request is answered by error completion -/
  | hostIoRequest (ld : Nat) (req : IoRequest)
  /-- R393: A function-level reset deletes the function's queues -/
  | functionLevelReset (fn : Nat)
  /-- R377: A reset or unbind of an LD ends its binding and deletes its queues -/
  | ldReset (ld : Nat)
  /-- R377: An LD is bound to a host and presents its functions -/
  | ldBind (ld : Nat)
  /-- R393: The upstream link is lost, deleting queues and declaring hosts dead -/
  | hostLinkDown
  /-- R284: A CXD port loses its link and the other port takes both halves -/
  | cxdPortDown (port : Nat)
  /-- R284: A trained CXD port returns to service at a step boundary of all wheels -/
  | cxdPortReturn (port : Nat) (lanes : Nat)
  /-- R288: An NVMe command times out and is aborted and retried or failed -/
  | nvcCommandTimeout (drive : Nat) (retried : Bool) (what : Option Transfer)
  /-- R288: A drive reports fatal status and is taken out of service -/
  | nvcDriveFatal (drive : Nat)
  /-- R506: A filtered drive present line changes state -/
  | nvcPrsntChange (drive : Nat) (present : Bool)
  /-- R466: A sealed capsule is written from staging into the capsule area ring -/
  | capsuleWrite
  /-- R497: PERST_N is asserted, causing a warm reset or an upstream port reset -/
  | perstN (soon : Bool)
  /-- R506: A discrete input stays asserted past its timeout and is masked -/
  | pinStuckTimeout (pin : Nat)
  /-- R506: A masked input stays deasserted long enough and is unmasked -/
  | pinUnmask (pin : Nat)
  /-- R495: VIN rises through 38.5 V and the device starts with a power-on reset -/
  | powerOnReset (pos : Nat) (perstScope : Nat) (i3cSa : Nat)
  /-- R480: VIN leaves the lockout limits for 10 µs and every supply stops -/
  | powerRemoval
  /-- R479: VIN enters or leaves the excursion range between operating and lockout limits -/
  | vinExcursion (vinMv : Nat)
  /-- R485: A 100 µs power measurement period ends and s_cap is adjusted -/
  | powerPeriod (vinMv : Nat) (iinMa : Nat) (pinMw : Nat)
  /-- R489: The MGC reads the sensors and adjusts s_therm -/
  | thermalSample (temps : List (Option Nat))
  /-- R490: A sensor at its trip threshold for 1 ms raises FATAL and enters MGMT -/
  | thermalTrip (sensor : Nat) (reading : Nat)
  /-- R499: HBM training completes and the T0 wipe starts -/
  | hbmTrained
  /-- R249: DIMM training completes, the population is checked and the T1 wipe starts -/
  | dimmTrained (modules : List (Option Nat))
  /-- R444: The T0 wipe at boot ends -/
  | t0WipeDone
  /-- R444: The T1 wipe at boot ends and the data plane may become ready -/
  | t1WipeDone
  /-- R499: Every block reports ready and the boot stage advances -/
  | fwInitDone (fw : FwValues)
  /-- R445: A partition wipe ends and the partition becomes UNCONFIGURED -/
  | partitionWipeDone (part : Nat)
  /-- R506: PERST_N is released after an accepted assertion, ending the held reset and starting host link training -/
  | perstNDeasserted
  /-- R499: The upstream host link completes training and reaches L0, setting HIF.LINK.UP -/
  | hostLinkUp (width : Nat) (mld : Bool)
  /-- R349: The last packet of a fabric message leaves its port and the message completes at the sender, updating the local arrival counter and the work request -/
  | messageLeftPort (conn : Nat) (seq : Nat)
  /-- R508: MATCH_IN shows a start bit when no frame is due, no start bit when one is due, or three asserted cycles, and 16 violations within 2^20 cycles isolate the member -/
  | matchInViolation (recent : Nat)
  /-- R242: The link to a member's ring neighbour on the cascade port fails and the member isolates itself -/
  | cascadeNeighbourLinkFail
  /-- R506: A discrete input pulse shorter than its minimum width, or beyond its rate, is ignored and counted, with EV_MGC_PIN_GLITCH logged at most once per second -/
  | pinGlitch (pin : Nat) (dropped : Bool) (quiet : Bool)
  /-- R459: A drive posts a completion with an unknown identifier, wrong queue or malformed field, which is dropped and counted toward DRIVE_LIMIT -/
  | driveProtocolViolation (drive : Nat) (header : List Byte)
  /-- R283: Firmware polls the trays' event records and logs media errors as EV_CXD_MEDIA -/
  | trayEventPoll (port : Nat) (errors : List (List Nat))
deriving DecidableEq, Repr

end Sys2Proof
end

