-- ==== Sys2Proof/WellFormed.lean ====
section
/-!
DEFINITION. WellFormed.lean: which commands the outside can send: every number within the width or the range that the spec gives
what it names. The meanings themselves are total and do not rest on this.
-/
namespace Sys2Proof

/-- Where a host command can come from: a queue of a function, function 0 having four (12 R382). -/
def Origin.wf : Origin → Bool
  | .queue fn sq cid => decide (fn < 17) && decide (sq < if fn = 0 then 4 else 64) && decide (cid < 2 ^ 16)
  | .i3c => true

/-- A submission entry's operands in their widths (12 R385): 32 bytes of ARGS, 8-byte DPTR and DLEN, and no more buffer bytes than DLEN. -/
def Cmd.wf (c : Cmd) : Bool :=
  c.origin.wf && c.args.length == 32 && decide (c.dptr < 2 ^ 64) && decide (c.dlen < 2 ^ 64) && decide (c.data.length ≤ c.dlen)

/-- Function 0 to 16, or 17 for I3C (12 R378, 16 R512). -/
def okSender (x : Nat) : Bool := decide (x < 18)
/-- A function of the host link (12 R378). -/
def okFn (x : Nat) : Bool := decide (x < 17)
/-- A queue number (12 R382). -/
def okQueue (x : Nat) : Bool := decide (x < 64)
/-- A Xebrilink port (10 R306). -/
def okPort (x : Nat) : Bool := decide (x < 8)
/-- A CXL root port (08 R283). -/
def okTray (x : Nat) : Bool := decide (x < 2)
/-- An NVMe root port (08 R287). -/
def okDrive (x : Nat) : Bool := decide (x < 8)
/-- A wheel number (05 R150). -/
def okWheel (x : Nat) : Bool := decide (x < 256)
/-- A connection number (10 R321). -/
def okConn (x : Nat) : Bool := decide (x < 2 ^ 20)
/-- A region index (11 R364). -/
def okRegion (x : Nat) : Bool := decide (x < 2 ^ 16)
/-- A page handle (04 R127). -/
def okHandle (x : Nat) : Bool := decide (1 ≤ x) && decide (x < 2 ^ 31)
/-- A session descriptor index (02 R40). -/
def okSession (x : Nat) : Bool := decide (x < 2 ^ 22)
/-- A partition (13 R415). -/
def okPart (x : Nat) : Bool := decide (x < 16)
/-- A tier (08 R248). -/
def okTier (x : Nat) : Bool := decide (x < 4)
/-- A bank of the prefix engine (07 R213). -/
def okBank (x : Nat) : Bool := decide (x < 16)
/-- A set of the prefix engine (07 R213). -/
def okSet (x : Nat) : Bool := decide (x < 2 ^ 14)
/-- A way of a set (07 R213). -/
def okWay (x : Nat) : Bool := decide (x < 128)
/-- A tending core. -/
def okCore (x : Nat) : Bool := decide (x < 72)

/-- Register numbers, values of 64 bits, and the sizes of R373. -/
def okAct (a : CoreAct) : Bool :=
  match a with
  | .inner x f v csr pc => (x ++ f).all (fun e => decide (e.1 < 32 ∧ e.2 < 2 ^ 64)) && v.all (fun e => decide (e.1 < 32)) &&
      csr.all (fun e => decide (e.1 < 4096 ∧ e.2 < 2 ^ 64)) && decide (pc < 2 ^ 64)
  | .aperture base conn key gen offset => decide (base < 2 ^ 64 ∧ conn < 2 ^ 20 ∧ key < 2 ^ 32 ∧ gen < 256 ∧ offset < 2 ^ 47)
  | .load rd addr size _ => decide (rd < 32 ∧ addr < 2 ^ 64) && [1, 2, 4, 8].contains size
  | .store addr size value => decide (addr < 2 ^ 64 ∧ value < 2 ^ 64) && [1, 2, 4, 8].contains size
  | .fence => true
/-- A page slot that holds a block page (16 R510). -/
def okPage (x : Nat) : Bool := decide (x < 22) || (decide (24 ≤ x) && decide (x < 40))
/-- A Sluice instance (16 R510). -/
def okSluice (x : Nat) : Bool := decide (x < 61)
/-- An extent of the state window (12 R394). -/
def okExtent (x : Nat) : Bool := decide (x < 64)
/-- A logical device (12 R376). -/
def okLd (x : Nat) : Bool := decide (x < 16)
/-- A line of the state window (12 R394, R396). -/
def okLine (x : Nat) : Bool := decide (x < 2 ^ 32)
/-- A discrete input (15 MGC.PIN). -/
def okPin (x : Nat) : Bool := decide (x < 11)
/-- A temperature sensor (15 R488). -/
def okSensor (x : Nat) : Bool := decide (x < 13)
/-- An SPDM transport: I3C, function 0, or the function of a partition (13 R422). -/
def okTransport (x : Nat) : Bool := decide (x < 18)
/-- A 64-bit register value. -/
def okWord64 (x : Nat) : Bool := decide (x < 2 ^ 64)
/-- A 32-bit register value. -/
def okWord32 (x : Nat) : Bool := decide (x < 2 ^ 32)
/-- A 16-bit register value. -/
def okWord16 (x : Nat) : Bool := decide (x < 2 ^ 16)
/-- A one-bit register value. -/
def okBit (x : Nat) : Bool := decide (x < 2)
/-- An offset in BAR0 (12 R380). -/
def okBar (x : Nat) : Bool := decide (x < 2 ^ 26)
/-- The POS straps (15 R504). -/
def okPos (x : Nat) : Bool := decide (x < 8)
/-- The I3C_SA straps (15 R504). -/
def okSa (x : Nat) : Bool := decide (x < 4)
/-- A word of SSQ.WHEEL that expert writes change (02 R53). -/
def okWheelReg (x : Nat) : Bool := decide (x < 3)
/-- The bytes of a line (12 R396). -/
def okLineBytes (x : List Byte) : Bool := x.length == 64
/-- A submission entry (12 R385). -/
def okEntry (x : List Byte) : Bool := x.length == 64
/-- A packet with its header (10 R319). -/
def okPacket (x : List Byte) : Bool := decide (32 ≤ x.length)
/-- The sixteen channels (08 R249). -/
def okModules (x : List (Option Nat)) : Bool := x.length == 16
/-- The thirteen sensors (15 R488). -/
def okTemps (x : List (Option Nat)) : Bool := x.length == 13

/-- A well-formed command. -/
def Instr.wf (i : Instr) : Bool :=
  match i with
  | .queueCreate c => c.wf
  | .queueDelete c => c.wf
  | .sessionOpen c => c.wf
  | .sessionClose c => c.wf
  | .sessionPark c => c.wf
  | .sessionRebind c => c.wf
  | .sessionSet c => c.wf
  | .sessionRead c => c.wf
  | .historyRead c => c.wf
  | .turnSubmit c => c.wf
  | .turnCancel c => c.wf
  | .sessionShard c => c.wf
  | .chainExtend c => c.wf
  | .modelBind c => c.wf
  | .modelUnbind c => c.wf
  | .tailBind c => c.wf
  | .tailUnbind c => c.wf
  | .adapterLoad c => c.wf
  | .adapterRetire c => c.wf
  | .wheelAttach c => c.wf
  | .wheelDetach c => c.wf
  | .prefixLookup c => c.wf
  | .nextMatch c => c.wf
  | .prefixAttach c => c.wf
  | .prefixRelease c => c.wf
  | .prefixPublish c => c.wf
  | .prefixRevoke c => c.wf
  | .tierRead c => c.wf
  | .tierWrite c => c.wf
  | .tierCopy c => c.wf
  | .windowPublish c => c.wf
  | .connOpen c => c.wf
  | .connClose c => c.wf
  | .regionRegister c => c.wf
  | .regionRevoke c => c.wf
  | .groupSet c => c.wf
  | .wrSubmit c => c.wf
  | .wrPost c => c.wf
  | .extentAssign c => c.wf
  | .extentAddHosts c => c.wf
  | .extentRemove c => c.wf
  | .partitionConfigure c => c.wf
  | .partitionRelease c => c.wf
  | .partitionLock c => c.wf
  | .partitionStart c => c.wf
  | .partitionDrain c => c.wf
  | .partitionWipe c => c.wf
  | .replayBegin c => c.wf
  | .capsuleRead c => c.wf
  | .replayRun c _ => c.wf
  | .fwCommitSvn c => c.wf
  | .lifecycleAdvance c => c.wf
  | .lifecycleDecommission c => c.wf
  | .spdmGetVersion transport => okTransport transport
  | .spdmGetCapabilities transport => okTransport transport
  | .spdmNegotiateAlgorithms transport _ => okTransport transport
  | .spdmGetDigests transport => okTransport transport
  | .spdmGetCertificate transport _ _ _ => okTransport transport
  | .spdmUnsupportedRequest transport => okTransport transport
  | .attestationReport transport part _ => okTransport transport && okPart part
  | .keyInit transport part _ => okTransport transport && okPart part
  | .keyExch transport part _ _ _ => okTransport transport && okPart part
  | .keyDeliver transport part _ _ _ => okTransport transport && okPart part
  | .keyExchangeTimeout part => okPart part
  | .debugHalt core => okCore core
  | .debugResume core => okCore core
  | .debugStep i => okCore i.core && (i.len == 2 || i.len == 4) && okAct i.act
  | .debugMemoryRead _ _ _ => true
  | .aqCtrlWrite from_ fn sqSize cqSize _ => okSender from_ && okFn fn && okWord16 sqSize && okWord16 cqSize
  | .sqTailDoorbell fn q value => okFn fn && okQueue q && okWord32 value
  | .cqHeadDoorbell fn q value => okFn fn && okQueue q && okWord32 value
  | .commandFetch fn q entry => okFn fn && okQueue q && okEntry entry
  | .cqDelayExpiry fn q => okFn fn && okQueue q
  | .tickWrite from_ value => okSender from_ && okWord64 value
  | .ladderMove session => okSession session
  | .sessionExpiry session => okSession session
  | .sessionRetirement session => okSession session
  | .wheelExpertWrite from_ wheel reg value => okSender from_ && okWheel wheel && okWheelReg reg && okWord64 value
  | .tmgReadRecord from_ handle => okSender from_ && okHandle handle
  | .tmgReadHeader from_ handle => okSender from_ && okHandle handle
  | .markRecovery from_ handle => okSender from_ && okHandle handle
  | .readMap from_ session _ _ => okSender from_ && okSession session
  | .pmeReadEntry from_ set way => okSender from_ && okSet set && okWay way
  | .dropEntry from_ set way => okSender from_ && okSet set && okWay way
  | .bankTest from_ set => okSender from_ && okSet set
  | .mapOutBank from_ set => okSender from_ && okSet set
  | .sweepColumns from_ part => okSender from_ && okPart part
  | .routeRead from_ _ => okSender from_
  | .routeWrite from_ _ _ _ => okSender from_
  | .connReadRecord from_ conn => okSender from_ && okConn conn
  | .connFail from_ conn => okSender from_ && okConn conn
  | .regionOpReadEntry from_ index => okSender from_ && okRegion index
  | .regionOpRevoke from_ index => okSender from_ && okRegion index
  | .revokeAndFree from_ index => okSender from_ && okRegion index
  | .nodeStaticWrite from_ _ _ => okSender from_
  | .portEnWrite from_ port _ => okSender from_ && okPort port
  | .capsuleAreaWrite from_ _ => okSender from_
  | .fwLoadGo from_ len4k _ => okSender from_ && okWord32 len4k
  | .pwrCtrlGo from_ _ => okSender from_
  | .powerTransitionDone => true
  | .resetCtrlWrite from_ key warm => okSender from_ && okWord16 key && okBit warm
  | .blkExpertUnlockWrite from_ slot maskPart maskOper key => okSender from_ && okPage slot && okWord16 maskPart && okBit maskOper && okWord16 key
  | .blkInject from_ slot _ => okSender from_ && okPage slot
  | .blkSelftestGo from_ slot _ _ => okSender from_ && okPage slot
  | .registerWrite from_ offset _ value => okSender from_ && okBar offset && okWord64 value
  | .errorDetected slot _ _ => okPage slot
  | .selftestDone slot _ _ _ _ => okPage slot
  | .trigger port raw _ => okPort port && okPacket raw
  | .triggerConsume region _ => okRegion region
  | .beatIn => true
  | .gangDeal part => okPart part
  | .expanderDecode wheel _ _ => okWheel wheel
  | .recoveryReadDone handle _ => okHandle handle
  | .itemDone wheel _ _ _ => okWheel wheel
  | .stepCommit session _ => okSession session
  | .commitReserveTimeout session => okSession session
  | .rosterWrite wheel => okWheel wheel
  | .reviveLayerResident session => okSession session
  | .tierTransferDone _ => true
  | .tierReadFailed _ _ => true
  | .pageLate wheel _ _ => okWheel wheel
  | .wheelStall wheel => okWheel wheel
  | .chainTimeout wheel _ => okWheel wheel
  | .spillwayRelief part tier _ => okPart part && okTier tier
  | .cleanAhead part => okPart part
  | .heatPromotion handle => okHandle handle
  | .heatSweep _ => true
  | .hitsAgeing bank => okBank bank
  | .prefixPublication _ => true
  | .holeMaintenance set => okSet set
  | .columnSweep part => okPart part
  | .lookupSlotTimeout _ => true
  | .importDone _ _ => true
  | .cascadeLookup _ _ _ part _ _ _ _ => okPart part
  | .resolve _ _ _ => true
  | .matchFrame _ _ _ _ _ => true
  | .cascadeResult _ _ _ _ => true
  | .cascadeReject _ _ => true
  | .cascadeMove set _ => okSet set
  | .matchInStuck => true
  | .cascadeLockTimeout => true
  | .fwdLookup _ _ part _ _ _ _ _ => okPart part
  | .fwdAnswer _ _ => true
  | .fwdTimeout _ => true
  | .sluiceDecide inst arrivals _ => okSluice inst && arrivals.all fun a => okPart a.part
  | .sluicePreempt inst arrivals _ => okSluice inst && arrivals.all fun a => okPart a.part
  | .sluiceHogCutoff inst _ => okSluice inst
  | .sluiceWindowBoundary inst => okSluice inst
  | .linkDetect port _ => okPort port
  | .linkTrained port => okPort port
  | .linkTrainTimeout port => okPort port
  | .linkCap port peer => okPort port && decide (peer.credits.length = 4)
  | .linkDown port _ => okPort port
  | .assign port _ _ _ => okPort port
  | .depart port _ _ => okPort port
  | .join port _ _ => okPort port
  | .route port _ _ _ _ => okPort port
  | .connect port raw _ => okPort port && okPacket raw
  | .accept port raw _ => okPort port && okPacket raw
  | .close port raw _ => okPort port && okPacket raw
  | .closeAck port raw _ => okPort port && okPacket raw
  | .connectTimeout conn => okConn conn
  | .closeTimeout conn => okConn conn
  | .write port raw _ => okPort port && okPacket raw
  | .mcastWrite port raw _ => okPort port && okPacket raw
  | .reduce port raw _ => okPort port && okPacket raw
  | .readReq port raw _ => okPort port && okPacket raw
  | .readResp port raw _ => okPort port && okPacket raw
  | .atomic port raw _ => okPort port && okPacket raw
  | .atomicResp port raw _ => okPort port && okPacket raw
  | .cas port raw _ => okPort port && okPacket raw
  | .casResp port raw _ => okPort port && okPacket raw
  | .flush port raw _ => okPort port && okPacket raw
  | .flushResp port raw _ => okPort port && okPacket raw
  | .ack port raw _ => okPort port && okPacket raw
  | .nak port raw _ => okPort port && okPacket raw
  | .ackDelayExpiry conn _ => okConn conn
  | .retransmitTimeout conn _ _ => okConn conn
  | .connectionDeadTimeout conn => okConn conn
  | .deadTarget _ => true
  | .spillFetchDone conn _ => okConn conn
  | .revokeDrained index => okRegion index
  | .regionRetireExpiry index => okRegion index
  | .hostMemRead ld line _ => okLd ld && okLine line
  | .hostMemWrite ld line mask bytes => okLd ld && okLine line && okWord64 mask && okLineBytes bytes
  | .bisnpResponse host line _ => okLd host && okLine line
  | .recallTimeout host line => okLd host && okLine line
  | .extentDrainBound extent => okExtent extent
  | .extentWipeDone extent => okExtent extent
  | .hostIoRequest ld _ => okLd ld
  | .functionLevelReset fn => okFn fn
  | .ldReset ld => okLd ld
  | .ldBind ld => okLd ld
  | .hostLinkDown => true
  | .cxdPortDown port => okTray port
  | .cxdPortReturn port _ => okTray port
  | .nvcCommandTimeout drive _ _ => okDrive drive
  | .nvcDriveFatal drive => okDrive drive
  | .nvcPrsntChange drive _ => okDrive drive
  | .capsuleWrite => true
  | .perstN _ => true
  | .pinStuckTimeout pin => okPin pin
  | .pinUnmask pin => okPin pin
  | .powerOnReset pos perstScope i3cSa => okPos pos && okBit perstScope && okSa i3cSa
  | .powerRemoval => true
  | .vinExcursion _ => true
  | .powerPeriod _ _ _ => true
  | .thermalSample temps => okTemps temps
  | .thermalTrip sensor _ => okSensor sensor
  | .hbmTrained => true
  | .dimmTrained modules => okModules modules
  | .t0WipeDone => true
  | .t1WipeDone => true
  | .fwInitDone _ => true
  | .partitionWipeDone part => okPart part
  | .perstNDeasserted => true
  | .hostLinkUp _ _ => true
  | .messageLeftPort conn _ => okConn conn
  | .matchInViolation _ => true
  | .cascadeNeighbourLinkFail => true
  | .pinGlitch pin _ _ => okPin pin
  | .driveProtocolViolation drive _ => okDrive drive
  | .trayEventPoll port _ => okTray port

end Sys2Proof
end

