-- ==== Sys2Proof/Config.lean ====
section
/-!
DEFINITION. Config.lean: what the spec leaves to an implementation or to a published standard whose arithmetic it does
not restate. Every constant is opaque and has no body: nothing can evaluate it or prove a value of it (log 4, log 8).
-/
namespace Sys2Proof.Config

open Sys2Proof

/-- Free value number `i`: used where the spec leaves a number open; the state's counter `free` numbers the uses (log 4). -/
opaque freeNat : Nat → Nat

/-- Byte `j` of the random or open byte string number `i` (13 R434 media keys, 06 R206 seeds, fresh nonces). -/
opaque freeByte : Nat → Nat → Byte

/-- What the n-th read of a column on another member of the sled brings, none for no column there (log 75). -/
opaque remoteColumn : Nat → Option RemoteColumn

/-- How many groups beyond the own set's last one the nearest group of a sled's set with two invalid ways lies, 0 for none, as the n-th hole
maintenance finds it (log 75). -/
opaque holesBeyond : Nat → Nat

/-- Where a device keeps what belongs to a session handle, as the number of a 512-byte unit of T1: 0 the history (HISTORY_PTR), 2 the penalty
table (PENALTY_PTR) (02 R42; log 4). The same handle gives the same places, so that a replayed COMMIT can equal the recorded one (14 R471,
R476). -/
opaque sessionPtr : Nat → Nat → Nat

/-- Where a device keeps other objects of its own, as the number of a 512-byte unit (log 45): of T1, 0 the descriptor of a session INDEX, 1 a
folded column, 2 the debug trace buffer; of T0, 3 a column of the pool, 4 the count table of a turn slot. -/
opaque objectUnit : Nat → Nat → Nat

/-- EUI-64 of namespace 1 of the drive at a root port (14 R467). -/
opaque driveEui : Nat → Nat

/-- The 32-byte fused unique device secret (13 R420). -/
opaque uds : Nat → Byte

/-- ML-DSA-65 public key generated from a seed (FIPS 204; 13 R420). -/
opaque mlDsaPublic : List Byte → List Byte

/-- ML-DSA-65 signature under the device identity of a message and context (FIPS 204; 13 R423, 14 R462). -/
opaque mlDsaSign : List Byte → List Byte → List Byte

/-- ML-DSA-65 verification: public key, message, context, signature (FIPS 204; 13 R425, R436). -/
opaque mlDsaVerify : List Byte → List Byte → List Byte → List Byte → Bool

/-- The ML-KEM-768 encapsulation key of the key pair drawn as free value `i` (FIPS 203; 13 R425). -/
opaque mlKemPublic : Nat → List Byte

/-- ML-KEM-768 decapsulation with the key pair drawn as free value `i` (FIPS 203; 13 R425). -/
opaque mlKemDecap : Nat → List Byte → Option (List Byte)

/-- AES-256-XTS encryption: key, 16-byte tweak, data (13 R429, 14 R464). -/
opaque aesXts : List Byte → List Byte → List Byte → List Byte

/-- AES-256-XTS decryption (13 R436). -/
opaque aesXtsInv : List Byte → List Byte → List Byte → List Byte

/-- The fused firmware key (13 R436). -/
opaque fwKey : List Byte

/-- SHAKE256 of the DER certificate chain, and the chain's bytes (13 R421). -/
opaque certChain : List Byte

/-- Whether a DER chain leads to the Golvos root, and the UID and public key its device certificate binds (14 R473). -/
opaque certCheck : List Byte → Option (Nat × List Byte)

/-- The four signer hashes of the boot ROM (13 R436), and the hash of the boot ROM itself (13 R423). -/
opaque romSigner : Nat → List Byte
opaque romMeas : Nat → Nat

/-- Whether a bank still has a spare row for a row under test (14 R453). -/
opaque spareRow : Nat → Nat → Bool

/-- What comes of a record whose inlet slot the wheel has reused too early (05 R157): byte `j` as reader `r` (0 the output, 1 the node
values, 2 + 2q query q, 3 + 2v the hidden state of the item that begins at vector v) finds it for record `k` of part number `i` (log 39). -/
opaque reusedInlet : Nat → Nat → Nat → Nat → Byte

/-- Where a device places an exchange buffer in T0 that no command places (11 R364): kind 0 the chain buffer of a session handle, 1 the import
buffer of an import; its address and length (log 76). -/
opaque bufferBase : Nat → Nat → Nat
opaque bufferLength : Nat → Nat → Nat

/-- What a chain member knows of the next one's chain buffer for a session handle (05 R178): 0 its key, 1 + n the offset at which the node
values of layer part number n go (log 76). -/
opaque chainSpot : Nat → Nat → Nat

/-- The compute-die core that has the work of part number `i` in hand (01 R23; log 44). -/
opaque tendingCore : Nat → Nat

end Sys2Proof.Config
end

