-- ==== Sys2Proof/Machine/Hash.lean ====
section
/-!
DEFINITION. Machine/Hash.lean: SHAKE128, SHAKE256 and KMAC256 (FIPS 202, SP 800-185), which the spec uses for prefix
hashes (07 R208), draws (03 R101), measurements and tags (13, 14). Lanes are numbers below 2^64.
-/
namespace Sys2Proof.Machine

open Sys2Proof

/-- Little-endian number of a byte list (00 R6). -/
def leNat : List Byte → Nat
  | [] => 0
  | b :: bs => b.toNat + 256 * leNat bs

/-- The `n` low bytes of a number, least significant first (00 R6). -/
def leBytes : Nat → Nat → List Byte
  | 0, _ => []
  | n + 1, v => BitVec.ofNat 8 v :: leBytes n (v / 256)

/-- `n` zero bytes. -/
def zeros (n : Nat) : List Byte := List.replicate n 0

/-- The bytes of an ASCII string. -/
def ascii (t : String) : List Byte := t.toList.map fun c => BitVec.ofNat 8 c.toNat

namespace Keccak

def m64 : Nat := 2 ^ 64

/-- Lane `x + 5y` of a state of 25 lanes. -/
def lane (a : List Nat) (i : Nat) : Nat := a.getD i 0

/-- Rotate a 64-bit lane left: its product with a power of two, what passes 2^64 carried round. -/
def turn (v k : Nat) : Nat := let p := v * 2 ^ (k % 64); p % m64 + p / m64

/-- Theta: each lane takes the parity of the column before it and, turned by one, of the column behind it. -/
def theta (a : List Nat) : List Nat :=
  let parity := fun (x : Nat) => (List.range 5).foldl (fun p y => p ^^^ lane a (x % 5 + 5 * y)) 0
  let d := (List.range 5).map fun x => parity (x + 4) ^^^ turn (parity (x + 1)) 1
  a.zipIdx.map fun e => e.1 ^^^ lane d (e.2 % 5)

/-- The lanes in the order in which pi moves each to the place of the next, from (1, 0): (x, y) to (y, 2x + 3y). -/
def walk : Nat → Nat × Nat → List (Nat × Nat)
  | 0, _ => []
  | n + 1, p => p :: walk n (p.2, (2 * p.1 + 3 * p.2) % 5)

/-- Rho and pi: lane number t of the walk moves on, turned by the triangular number (t + 1)(t + 2) / 2. -/
def rhoPi (a : List Nat) : List Nat :=
  (walk 24 (1, 0)).zipIdx.foldl (fun b e =>
    let (x, y) := e.1
    b.set (y + 5 * ((2 * x + 3 * y) % 5)) (turn (lane a (x + 5 * y)) ((e.2 + 1) * (e.2 + 2) / 2))) a

/-- Chi: each lane takes the next of its row where the one between has a zero. -/
def chi (a : List Nat) : List Nat :=
  a.zipIdx.map fun e =>
    let at_ := fun (k : Nat) => lane a ((e.2 + k) % 5 + e.2 / 5 * 5)
    e.1 ^^^ (at_ 2 ^^^ (at_ 1 &&& at_ 2))

/-- A step of iota's shift register, over x^8 + x^6 + x^5 + x^4 + 1. -/
def shift (r : Nat) : Nat := r * 2 % 256 ^^^ r / 128 * 0x71

/-- The constant of a round, its bits at the places 2^j - 1, with the register behind it. -/
def iota (r : Nat) : Nat × Nat :=
  (List.range 7).foldl (fun c j => let r := shift c.2; (c.1 + r / 2 % 2 * 2 ^ (2 ^ j - 1), r)) (0, r)

/-- One round, with the register of iota before it. -/
def round (s : List Nat × Nat) : List Nat × Nat :=
  let (k, r) := iota s.2
  ((chi (rhoPi (theta s.1))).modifyHead (· ^^^ k), r)

/-- The permutation Keccak-f[1600]: 24 rounds. -/
def perm (a : List Nat) : List Nat := ((List.range 24).foldl (fun s _ => round s) (a, 1)).1

/-- XOR a block of bytes into the first lanes. -/
def absorbBlock (a : List Nat) (blk : List Byte) : List Nat :=
  (List.range 25).map fun i => lane a i ^^^ leNat ((blk.drop (8 * i)).take 8)

/-- Absorb a padded message, `rate` bytes a block; `n` blocks. -/
def absorb (rate : Nat) : Nat → List Nat → List Byte → List Nat
  | 0, a, _ => a
  | n + 1, a, m => absorb rate n (perm (absorbBlock a (m.take rate))) (m.drop rate)

/-- Squeeze `n` blocks of `rate` bytes. -/
def squeeze (rate : Nat) : Nat → List Nat → List Byte
  | 0, _ => []
  | n + 1, a => ((a.map (leBytes 8)).flatten).take rate ++ squeeze rate n (perm a)

/-- Message padding: the suffix byte, zeros, and 0x80 on the block's last byte. -/
def pad (rate sfx : Nat) (m : List Byte) : List Byte :=
  let q := rate - m.length % rate
  if q = 1 then m ++ [BitVec.ofNat 8 (sfx + 0x80)]
  else m ++ [BitVec.ofNat 8 sfx] ++ zeros (q - 2) ++ [0x80]

/-- The sponge: `len` bytes of output. -/
def sponge (rate sfx : Nat) (m : List Byte) (len : Nat) : List Byte :=
  let p := pad rate sfx m
  (squeeze rate ((len + rate - 1) / rate) (absorb rate (p.length / rate) (List.replicate 25 0) p)).take len

end Keccak

/-- SHAKE128: `len` bytes of output. -/
def shake128 (m : List Byte) (len : Nat) : List Byte := Keccak.sponge 168 0x1F m len

/-- SHAKE256: `len` bytes of output. -/
def shake256 (m : List Byte) (len : Nat) : List Byte := Keccak.sponge 136 0x1F m len

/-- left_encode and right_encode of SP 800-185, for numbers below 2^32. -/
def encBytes (v : Nat) : List Byte :=
  let n := if v < 256 then 1 else if v < 65536 then 2 else if v < 16777216 then 3 else 4
  (leBytes n v).reverse
def leftEnc (v : Nat) : List Byte := BitVec.ofNat 8 (encBytes v).length :: encBytes v
def rightEnc (v : Nat) : List Byte := encBytes v ++ [BitVec.ofNat 8 (encBytes v).length]
def encStr (m : List Byte) : List Byte := leftEnc (8 * m.length) ++ m

/-- Pad to a multiple of the rate, the rate encoded in front. -/
def bytepad (rate : Nat) (m : List Byte) : List Byte :=
  let t := leftEnc rate ++ m
  t ++ zeros ((rate - t.length % rate) % rate)

/-- KMAC256 (key, message, output bits, customisation), SP 800-185. -/
def kmac256 (key m : List Byte) (bits : Nat) (custom : String) : List Byte :=
  Keccak.sponge 136 0x04
    (bytepad 136 (encStr (ascii "KMAC") ++ encStr (ascii custom)) ++ bytepad 136 (encStr key) ++ m ++ rightEnc bits)
    (bits / 8)

end Sys2Proof.Machine
end

