-- ==== Sys2Proof/Machine/Flags.lean ====
section
/-!
DEFINITION. Machine/Flags.lean: the status codes a command can complete with (16 R522), the events the device
logs (16 R520), and the error classes (14 R447), as names and as the codes that stand in entries and records.
-/
set_option cleanup.letToHave false
namespace Sys2Proof.Machine

open Sys2Proof

/-- The completion statuses of R522, ST_ prefix dropped. -/
inductive Status where
  | ok
  | invalidField
  | deviceNotReady
  | partitionState
  | lifecycle
  | budget
  | queueInvalid
  | staleHandle
  | noDescriptor
  | sessionBusy
  | sessionState
  | sessionExpired
  | sessionCorrupt
  | seqLimit
  | cancelled
  | turnEnded
  | wheelTimeout
  | noWheel
  | weirT0
  | weirArray
  | weirStepTime
  | weirTtft
  | weirQueueFull
  | partitionDrain
  | nonfinite
  | noBinding
  | bindingInUse
  | bindingMismatch
  | noAdapterSlot
  | adapterVersion
  | adapterRetired
  | contractVersion
  | shape
  | profileInvalid
  | profileProtected
  | format
  | weightMismatch
  | chainPeer
  | pageCorrupt
  | noPageRecord
  | shareLimit
  | tierLate
  | tierFailed
  | windowRange
  | integrity
  | pmeBusy
  | prefixNoMore
  | prefixStale
  | noConnection
  | fabricRefused
  | fabricUnreachable
  | fabricLost
  | fabricAccess
  | fabricProtocol
  | fabricOpcode
  | fabricPoison
  | fabricDead
  | noRegion
  | noWr
  | windowPoison
  | extentState
  | publishConflict
  | resourceOverlap
  | keyState
  | keyAuth
  | recorderFull
  | replayCapsule
  | replayBinding
  | replayInput
  | replayDiverged
deriving DecidableEq, Repr

/-- The 16-bit code of a status (R522). -/
def Status.code : Status → Nat
  | .ok => 0x0000
  | .invalidField => 0x0001
  | .deviceNotReady => 0x0002
  | .partitionState => 0x0003
  | .lifecycle => 0x0004
  | .budget => 0x0005
  | .queueInvalid => 0x0006
  | .staleHandle => 0x0101
  | .noDescriptor => 0x0102
  | .sessionBusy => 0x0103
  | .sessionState => 0x0104
  | .sessionExpired => 0x0105
  | .sessionCorrupt => 0x0106
  | .seqLimit => 0x0107
  | .cancelled => 0x0108
  | .turnEnded => 0x0109
  | .wheelTimeout => 0x010A
  | .noWheel => 0x010B
  | .weirT0 => 0x010C
  | .weirArray => 0x010D
  | .weirStepTime => 0x010E
  | .weirTtft => 0x010F
  | .weirQueueFull => 0x0110
  | .partitionDrain => 0x0111
  | .nonfinite => 0x0112
  | .noBinding => 0x0201
  | .bindingInUse => 0x0202
  | .bindingMismatch => 0x0203
  | .noAdapterSlot => 0x0204
  | .adapterVersion => 0x0205
  | .adapterRetired => 0x0206
  | .contractVersion => 0x0207
  | .shape => 0x0208
  | .profileInvalid => 0x0209
  | .profileProtected => 0x020A
  | .format => 0x020B
  | .weightMismatch => 0x020C
  | .chainPeer => 0x020D
  | .pageCorrupt => 0x0301
  | .noPageRecord => 0x0302
  | .shareLimit => 0x0303
  | .tierLate => 0x0304
  | .tierFailed => 0x0305
  | .windowRange => 0x0306
  | .integrity => 0x0307
  | .pmeBusy => 0x0401
  | .prefixNoMore => 0x0402
  | .prefixStale => 0x0403
  | .noConnection => 0x0501
  | .fabricRefused => 0x0502
  | .fabricUnreachable => 0x0503
  | .fabricLost => 0x0504
  | .fabricAccess => 0x0505
  | .fabricProtocol => 0x0506
  | .fabricOpcode => 0x0507
  | .fabricPoison => 0x0508
  | .fabricDead => 0x0509
  | .noRegion => 0x050A
  | .noWr => 0x050B
  | .windowPoison => 0x0601
  | .extentState => 0x0602
  | .publishConflict => 0x0603
  | .resourceOverlap => 0x0701
  | .keyState => 0x0702
  | .keyAuth => 0x0703
  | .recorderFull => 0x0801
  | .replayCapsule => 0x0802
  | .replayBinding => 0x0803
  | .replayInput => 0x0804
  | .replayDiverged => 0x0805

-- Every status, in the order of their codes.
def Status.list0 : List Status := [.ok, .invalidField, .deviceNotReady, .partitionState, .lifecycle, .budget, .queueInvalid, .staleHandle, .noDescriptor, .sessionBusy, .sessionState, .sessionExpired, .sessionCorrupt, .seqLimit, .cancelled, .turnEnded, .wheelTimeout, .noWheel]
def Status.list1 : List Status := [.weirT0, .weirArray, .weirStepTime, .weirTtft, .weirQueueFull, .partitionDrain, .nonfinite, .noBinding, .bindingInUse, .bindingMismatch, .noAdapterSlot, .adapterVersion, .adapterRetired, .contractVersion, .shape, .profileInvalid, .profileProtected, .format]
def Status.list2 : List Status := [.weightMismatch, .chainPeer, .pageCorrupt, .noPageRecord, .shareLimit, .tierLate, .tierFailed, .windowRange, .integrity, .pmeBusy, .prefixNoMore, .prefixStale, .noConnection, .fabricRefused, .fabricUnreachable, .fabricLost, .fabricAccess, .fabricProtocol]
def Status.list3 : List Status := [.fabricOpcode, .fabricPoison, .fabricDead, .noRegion, .noWr, .windowPoison, .extentState, .publishConflict, .resourceOverlap, .keyState, .keyAuth, .recorderFull, .replayCapsule, .replayBinding, .replayInput, .replayDiverged]

/-- Every status, in the order of their codes. -/
def Status.all : List Status := Status.list0 ++ Status.list1 ++ Status.list2 ++ Status.list3

/-- The status of a code. -/
def Status.ofCode? (c : Nat) : Option Status := Status.all.find? fun s => s.code == c

/-- The events of R520, named EV_BLOCK_NAME there. The five numbers common to every group carry the group. -/
inductive Ev where
  | corrected (group : Nat)
  | uncorrected (group : Nat)
  | errlogFault (group : Nat)
  | injected (group : Nat)
  | selftest (group : Nat)
  | hifQueueError
  | hifProtocol
  | hifLdIsolated
  | ssqSessionRetired
  | ssqShaftOrder
  | ssqBeatResync
  | ssqWheelStall
  | ssqTickBackward
  | ssqTickJump
  | ssqAdapterFreed
  | hrcLeadShort
  | hrcAdapterOverflow
  | hrcLate
  | hrcReadFailed
  | tmgRefFault
  | tmgPageLost
  | tmgAllocWait
  | tmgMoveFailed
  | pmeFalseHit
  | pmeBankMappedOut
  | pmeColdCorrupt
  | pmeDivergentPublish
  | pmeCascadeIsolated
  | pmeFwdTimeout
  | xfeLinkTrainFail
  | xfeLinkDown
  | xfeNodeAssigned
  | xfeNodeConflict
  | xfePeerLost
  | xfePeerJoined
  | xfeConnFailed
  | xfeSpillFailed
  | xfeProtocol
  | xfePortCutoff
  | xfeAccessViolation
  | xfeWrFailed
  | xfeDeadTarget
  | cwpAccess
  | cwpPoisonRead
  | cwpRecallTimeout
  | cwpHostDead
  | ddcPopulation
  | cxdMedia
  | cxdPortDown
  | cxdProtocol
  | nvcDriveFailed
  | nvcTimeout
  | nvcProtocol
  | secKeyAuth
  | secKeysLoaded
  | secTagFail
  | secDebug
  | mgcPartitionState
  | mgcVinRange
  | mgcThermalThrottle
  | mgcThermalTrip
  | mgcReady
  | mgcPinMasked
  | mgcPinUnmasked
  | mgcPinGlitch
  | mgcExpertUnlock
  | frcRetired
  | frcOverflow
  | frcDivergence
  | frcAreaLost
  | sluHog
  | mxgNonfinite
  | mxgExchangeInvalid
  | mxgFormat
  | mxgChainTimeout
  | mxgResidue
  | expCorrupt
deriving DecidableEq, Repr

/-- The 16-bit code of an event: group in [15:8], number in [7:0] (R520). -/
def Ev.code : Ev → Nat
  | .corrected g => g * 256 + 1
  | .uncorrected g => g * 256 + 2
  | .errlogFault g => g * 256 + 3
  | .injected g => g * 256 + 4
  | .selftest g => g * 256 + 5
  | .hifQueueError => 0x0110
  | .hifProtocol => 0x0111
  | .hifLdIsolated => 0x0112
  | .ssqSessionRetired => 0x0210
  | .ssqShaftOrder => 0x0211
  | .ssqBeatResync => 0x0212
  | .ssqWheelStall => 0x0213
  | .ssqTickBackward => 0x0214
  | .ssqTickJump => 0x0215
  | .ssqAdapterFreed => 0x0216
  | .hrcLeadShort => 0x0310
  | .hrcAdapterOverflow => 0x0311
  | .hrcLate => 0x0312
  | .hrcReadFailed => 0x0313
  | .tmgRefFault => 0x0410
  | .tmgPageLost => 0x0411
  | .tmgAllocWait => 0x0412
  | .tmgMoveFailed => 0x0413
  | .pmeFalseHit => 0x0510
  | .pmeBankMappedOut => 0x0511
  | .pmeColdCorrupt => 0x0512
  | .pmeDivergentPublish => 0x0513
  | .pmeCascadeIsolated => 0x0514
  | .pmeFwdTimeout => 0x0515
  | .xfeLinkTrainFail => 0x0610
  | .xfeLinkDown => 0x0611
  | .xfeNodeAssigned => 0x0612
  | .xfeNodeConflict => 0x0613
  | .xfePeerLost => 0x0614
  | .xfePeerJoined => 0x0615
  | .xfeConnFailed => 0x0616
  | .xfeSpillFailed => 0x0617
  | .xfeProtocol => 0x0618
  | .xfePortCutoff => 0x0619
  | .xfeAccessViolation => 0x061A
  | .xfeWrFailed => 0x061B
  | .xfeDeadTarget => 0x061C
  | .cwpAccess => 0x0710
  | .cwpPoisonRead => 0x0711
  | .cwpRecallTimeout => 0x0712
  | .cwpHostDead => 0x0713
  | .ddcPopulation => 0x0810
  | .cxdMedia => 0x0910
  | .cxdPortDown => 0x0911
  | .cxdProtocol => 0x0912
  | .nvcDriveFailed => 0x0A10
  | .nvcTimeout => 0x0A11
  | .nvcProtocol => 0x0A12
  | .secKeyAuth => 0x0B10
  | .secKeysLoaded => 0x0B11
  | .secTagFail => 0x0B12
  | .secDebug => 0x0B13
  | .mgcPartitionState => 0x0C10
  | .mgcVinRange => 0x0C11
  | .mgcThermalThrottle => 0x0C12
  | .mgcThermalTrip => 0x0C13
  | .mgcReady => 0x0C14
  | .mgcPinMasked => 0x0C15
  | .mgcPinUnmasked => 0x0C16
  | .mgcPinGlitch => 0x0C17
  | .mgcExpertUnlock => 0x0C18
  | .frcRetired => 0x0D10
  | .frcOverflow => 0x0D11
  | .frcDivergence => 0x0D12
  | .frcAreaLost => 0x0D13
  | .sluHog => 0x0E10
  | .mxgNonfinite => 0x1010
  | .mxgExchangeInvalid => 0x1011
  | .mxgFormat => 0x1012
  | .mxgChainTimeout => 0x1013
  | .mxgResidue => 0x1014
  | .expCorrupt => 0x1F30

/-- The classes of R447, in order of code. -/
inductive ErrClass where
  | corrected | contained | partition | fatal
deriving DecidableEq, Repr

/-- The class code of R447. -/
def ErrClass.code : ErrClass → Nat
  | .corrected => 0
  | .contained => 1
  | .partition => 2
  | .fatal => 3

/-- The class that a class code names; an unlisted code names none. -/
def ErrClass.ofCode? : Nat → Option ErrClass
  | 0 => some .corrected
  | 1 => some .contained
  | 2 => some .partition
  | 3 => some .fatal
  | _ => none

end Sys2Proof.Machine
end

