-- ==== Sys2Proof/Machine/Nc1.lean ====
section
/-!
DEFINITION. Machine/Nc1.lean: the numeric contract NC-1 (03): the formats, the one rounding, exact grouped sums, the
fixed functions, attention partials and their merge. A finite value is an exact dyadic number; nothing is rounded but
where a rule rounds.
-/
namespace Sys2Proof.Machine

open Sys2Proof

/-- A value of NC-1: NaN, an infinity, or the exact number m × 2^e. Zero has one sign (R81). -/
inductive Fp where
  | nan
  | inf (neg : Bool)
  | fin (m : Int) (e : Int)
deriving DecidableEq, Repr

namespace Fp

def zero : Fp := .fin 0 0
def one : Fp := .fin 1 0

/-- Number of binary digits of a natural number. -/
def bitLen (n : Nat) : Nat := if n = 0 then 0 else Nat.log2 n + 1

/-- n / 2^k rounded to nearest, ties to even (R79, R84). -/
def shiftRne (n k : Nat) : Nat :=
  let q := n / 2 ^ k
  let r := n % 2 ^ k
  if 2 * r < 2 ^ k then q else if 2 ^ k < 2 * r then q + 1 else q + q % 2

/-- Sign times a natural number. -/
def sgn (neg : Bool) (n : Nat) : Int := if neg then -(n : Int) else n

/-- The shape of a rounding target: significant bits, exponent of the least bit, and the largest finite value as
a significand at its own exponent. -/
structure Fmt where
  prec : Nat
  minExp : Int
  maxExp : Int      -- exponent of the least bit of the largest binade
  maxSig : Nat      -- largest significand in that binade
  saturate : Bool   -- saturates in place of overflowing to an infinity (R83)

/-- fp32 and bf16 (R80). -/
def fp32 : Fmt := ⟨24, -149, 104, 2 ^ 24 - 1, false⟩
def bf16 : Fmt := ⟨8, -133, 120, 2 ^ 8 - 1, false⟩
/-- fp8 E4M3 and fp4 E2M1 (R80, R83). -/
def e4m3 : Fmt := ⟨4, -9, 5, 14, true⟩
def e2m1 : Fmt := ⟨2, -1, 1, 3, true⟩

/-- Rounding to nearest even in a format (R84), with overflow by R83; a result of zero is +0 (R81). -/
def rnd (f : Fmt) : Fp → Fp
  | .nan => .nan
  | .inf s => .inf s
  | .fin m e =>
    let a := m.natAbs
    let neg := decide (m < 0)
    if a = 0 then zero
    else
      let q := max (e + (bitLen a : Int) - f.prec) f.minExp
      let v := if q ≤ e then a * 2 ^ (e - q).toNat else shiftRne a (q - e).toNat
      -- a carry out of the significand moves up one binade
      let (v, q) := if v = 2 ^ f.prec then (2 ^ (f.prec - 1), q + 1) else (v, q)
      if v = 0 then zero
      else if q > f.maxExp ∨ (q = f.maxExp ∧ f.maxSig < v) then
        if f.saturate then .fin (sgn neg f.maxSig) f.maxExp else .inf neg
      else .fin (sgn neg v) q

def rnd32 : Fp → Fp := rnd fp32
def rnd16 : Fp → Fp := rnd bf16

/-- The value num/den × 2^e rounded to fp32, exact quotient (R104). `num`, `den` positive; a sticky bit stands for the
remainder. -/
def rndQuot (neg : Bool) (num den : Nat) (e : Int) : Fp :=
  let k := bitLen den + 64
  let q := num * 2 ^ k / den
  let r := num * 2 ^ k % den
  rnd32 (.fin (sgn neg (2 * q + if r = 0 then 0 else 1)) (e - k - 1))

def isNan : Fp → Bool
  | .nan => true
  | _ => false

def isInf : Fp → Bool
  | .inf _ => true
  | _ => false

/-- Negation; zero stays +0. -/
def neg : Fp → Fp
  | .nan => .nan
  | .inf s => .inf (!s)
  | .fin m e => .fin (-m) e

/-- Exact sum of finite numbers. -/
def addFin (m e n f : Int) : Fp :=
  let g := min e f
  let v := m * 2 ^ (e - g).toNat + n * 2 ^ (f - g).toNat
  if v = 0 then zero else .fin v g

/-- Exact sum (R81: NaN propagates, opposite infinities give NaN). -/
def add : Fp → Fp → Fp
  | .nan, _ => .nan
  | _, .nan => .nan
  | .inf a, .inf b => if a = b then .inf a else .nan
  | .inf a, .fin _ _ => .inf a
  | .fin _ _, .inf b => .inf b
  | .fin m e, .fin n f => addFin m e n f

def sub (a b : Fp) : Fp := add a (neg b)

/-- Exact product (R81: infinity times zero gives NaN). -/
def mul : Fp → Fp → Fp
  | .nan, _ => .nan
  | _, .nan => .nan
  | .inf a, .inf b => .inf (a != b)
  | .inf a, .fin n _ => if n = 0 then .nan else .inf (a != decide (n < 0))
  | .fin m _, .inf b => if m = 0 then .nan else .inf (b != decide (m < 0))
  | .fin m e, .fin n f => if m * n = 0 then zero else .fin (m * n) (e + f)

/-- Strict order of numbers; NaN is below nothing and nothing is below NaN. -/
def lt : Fp → Fp → Bool
  | .nan, _ => false
  | _, .nan => false
  | .inf a, .inf b => a && !b
  | .inf a, .fin _ _ => a
  | .fin _ _, .inf b => !b
  | .fin m e, .fin n f =>
    let g := min e f
    decide (m * 2 ^ (e - g).toNat < n * 2 ^ (f - g).toNat)

def le (a b : Fp) : Bool := !a.isNan && !b.isNan && !lt b a

/-- Equality of numbers. -/
def eq (a b : Fp) : Bool := le a b && le b a

def isZero : Fp → Bool
  | .fin m _ => m == 0
  | _ => false

/-- The larger of two numbers that are not NaN. -/
def max2 (a b : Fp) : Fp := if lt a b then b else a

/-- A number scaled by a power of two. -/
def scale (k : Int) : Fp → Fp
  | .fin m e => .fin m (e + k)
  | x => x

-- Codes (R80)

/-- The value of a code with `w` exponent bits, `p` mantissa bits and a bias; no code is special. -/
def ofCode (w p bias code : Nat) : Fp :=
  let neg := code / 2 ^ (w + p) % 2 == 1
  let ex := code / 2 ^ p % 2 ^ w
  let man := code % 2 ^ p
  if ex = 0 then (if man = 0 then zero else .fin (sgn neg man) (1 - (bias : Int) - p))
  else .fin (sgn neg (2 ^ p + man)) ((ex : Int) - bias - p)

/-- fp32 code. -/
def of32 (c : Nat) : Fp :=
  if c / 2 ^ 23 % 256 = 255 then (if c % 2 ^ 23 = 0 then .inf (c / 2 ^ 31 % 2 == 1) else .nan) else ofCode 8 23 127 c

/-- bf16 code. -/
def of16 (c : Nat) : Fp :=
  if c / 2 ^ 7 % 256 = 255 then (if c % 2 ^ 7 = 0 then .inf (c / 2 ^ 15 % 2 == 1) else .nan) else ofCode 8 7 127 c

/-- fp8 E4M3 code. -/
def ofE4m3 (c : Nat) : Fp := if c % 128 = 127 then .nan else ofCode 4 3 7 c

/-- fp8 E5M2 code, a weight format only (R83). -/
def ofE5m2 (c : Nat) : Fp :=
  if c / 4 % 32 = 31 then (if c % 4 = 0 then .inf (c / 128 % 2 == 1) else .nan) else ofCode 5 2 15 c

/-- fp4 E2M1 code. -/
def ofE2m1 (c : Nat) : Fp := ofCode 2 1 1 c

/-- An element under an E8M0 scale: 0xFF makes it NaN (R80). -/
def scaled (x : Fp) (sc : Nat) : Fp := if sc = 255 then .nan else scale ((sc : Int) - 127) x

/-- Significand and exponent of the least bit of a finite value that a format represents. -/
def normal (f : Fmt) (m e : Int) : Nat × Int :=
  let a := m.natAbs
  let q := max (e + (bitLen a : Int) - f.prec) f.minExp
  (if q ≤ e then a * 2 ^ (e - q).toNat else a / 2 ^ (q - e).toNat, q)

/-- The code of a value of a format with `w` exponent bits and `p` mantissa bits; NaN is canonical (R81). -/
def toCode (f : Fmt) (w p bias : Nat) : Fp → Nat
  | .nan => (2 ^ w - 1) * 2 ^ p + 2 ^ (p - 1)
  | .inf s => (if s then 2 ^ (w + p) else 0) + (2 ^ w - 1) * 2 ^ p
  | .fin m e =>
    if m = 0 then 0
    else
      let (a, q) := normal f m e
      (if m < 0 then 2 ^ (w + p) else 0) +
        (if a < 2 ^ p then a else (q + (p : Int) + bias).toNat * 2 ^ p + (a - 2 ^ p))

def to32 (x : Fp) : Nat := toCode fp32 8 23 127 (rnd32 x)
def to16 (x : Fp) : Nat := toCode bf16 8 7 127 (rnd16 x)
def toE4m3 (x : Fp) : Nat := toCode e4m3 4 3 7 (rnd e4m3 x)
def toE2m1 (x : Fp) : Nat := toCode e2m1 2 1 1 (rnd e2m1 x)

end Fp

open Fp

-- Exact grouped sums (R85, R86)

/-- One level of the canonical tree. -/
def treeLevel {α : Type} (op : α → α → α) : List α → List α
  | a :: b :: l => op a b :: treeLevel op l
  | l => l

/-- The canonical tree over a list (R86), `fuel` at least its length. -/
def treeFuel {α : Type} (op : α → α → α) : Nat → List α → Option α
  | _, [] => none
  | _, [a] => some a
  | 0, a :: _ => some a
  | n + 1, l => treeFuel op n (treeLevel op l)

def tree {α : Type} (op : α → α → α) (l : List α) : Option α := treeFuel op l.length l

/-- Cut a list into groups of 64 (R85), at most `fuel` of them. -/
def groups64 {α : Type} : Nat → List α → List (List α)
  | 0, _ => []
  | n + 1, l => if l.isEmpty then [] else l.take 64 :: groups64 n (l.drop 64)

/-- The exact sum of one group's products, rounded once; an absent term contributes nothing. -/
def groupSum (g : List (Option (Fp × Fp))) : Fp :=
  rnd32 (g.foldl (fun acc t => match t with
    | some (a, b) => add acc (mul a b)
    | none => acc) zero)

/-- A dot product (R85): groups of 64 indices, each summed exactly and rounded once, combined by the canonical tree with
rnd32 at each addition. -/
def dot (terms : List (Option (Fp × Fp))) : Fp :=
  (tree (fun a b => rnd32 (add a b)) ((groups64 (terms.length / 64 + 1) terms).map groupSum)).getD zero

/-- A dot product with every term present. -/
def dotAll (a b : List Fp) : Fp := dot ((a.zip b).map some)

-- Fixed functions

/-- Floor square root by Newton's iteration from above. -/
def isqrtFuel : Nat → Nat → Nat → Nat
  | 0, _, x => x
  | k + 1, n, x => let y := (x + n / x) / 2; if y < x then isqrtFuel k n y else x

def isqrt (n : Nat) : Nat := if n = 0 then 0 else isqrtFuel (bitLen n + 2) n (2 ^ ((bitLen n + 1) / 2))

/-- x nearest integer of a dyadic number, ties to even (R79). -/
def rndI (m e : Int) : Int := if 0 ≤ e then m * 2 ^ e.toNat else sgn (decide (m < 0)) (shiftRne m.natAbs (-e).toNat)

/-- T[i] = rndI(2^30 × 2^(i/1024)) (R90): the 1,024th root by ten floor square roots of 2^(31·1024 + i), halved. -/
def exp2Tab (i : Nat) : Nat := ((List.range 10).foldl (fun n _ => isqrt n) (2 ^ (31744 + i)) + 1) / 2

/-- EXP2 (R90). -/
def exp2 : Fp → Fp
  | .nan => .nan
  | .inf s => if s then zero else .inf false
  | .fin m e =>
    let x := max (-(2 ^ 32 : Int)) (min (2 ^ 32 - 1) (rndI m (e + 24)))
    let n := Int.fdiv x (2 ^ 24)
    let f := (x - n * 2 ^ 24).toNat
    let i := f / 2 ^ 14
    let g := f % 2 ^ 14
    let u := g * 2977044472 / 2 ^ 16
    let pe := 2 ^ 40 + u + u * u / 2 ^ 41
    rnd32 (.fin ((exp2Tab i * pe / 2 ^ 40 : Nat) : Int) (n - 30))

/-- Y[i] = rndI(2^44 / (8,193 + 2i)) (R91). -/
def rcpTab (i : Nat) : Nat := let d := 8193 + 2 * i; (2 * 2 ^ 44 + d) / (2 * d)

/-- RCP of a positive finite number m × 2^e with m of 24 bits at least. -/
def rcpPos (a : Nat) (e : Int) : Fp :=
  let b : Int := bitLen a
  -- a = Mx × 2^(b − 24), so x = Mx × 2^((e + b − 1) − 23)
  let mx : Nat := if b ≤ 24 then a * 2 ^ (24 - b).toNat else a / 2 ^ (b - 24).toNat
  let ex := e + b - 1
  let i := mx / 2 ^ 11 - 4096
  let t := mx * 2 ^ 8 * rcpTab i / 2 ^ 31
  let y : Nat := rcpTab i * (2 ^ 32 - t) / 2 ^ 31
  rnd32 (.fin (y : Int) (-ex - 31))

/-- RCP (R91). -/
def rcp : Fp → Fp
  | .nan => .nan
  | .inf _ => zero
  | .fin m e => if m = 0 then .inf false else if m < 0 then neg (rcpPos m.natAbs e) else rcpPos m.natAbs e

/-- LOG2E is fp32 0x3FB8_AA3B (R92). -/
def log2e : Fp := of32 0x3FB8AA3B

/-- SILU (R92). -/
def silu (x : Fp) : Fp := rnd32 (mul x (rcp (rnd32 (add one (exp2 (rnd32 (mul (neg x) log2e)))))))

-- Rotary encoding (R89)

/-- pi × 2^200, truncated. -/
def pi200 : Int := 0x3243f6a8885a308d313198a2e03707344a4093822299f31d008

/-- Terms of the cosine (from 1) or sine (from x) series in Q200: each term is the last times −x² / ((k+1)(k+2)). -/
def trigSeries : Nat → Nat → Int → Int → Int → Int
  | 0, _, _, _, acc => acc
  | n + 1, k, x2, t, acc =>
    let t' := -(t * x2 / 2 ^ 200) / ((k + 1) * (k + 2))
    trigSeries n (k + 2) x2 t' (acc + t')

/-- Round a Q200 number to Q30. -/
def q200to30 (v : Int) : Int := Int.fdiv (v + 2 ^ 169) (2 ^ 170)

/-- The angle 2πj / 16,384 in Q200, in the first quadrant. -/
def quad (j : Nat) : Int := pi200 * 2 * j / 16384
def cosQ (j : Nat) : Int := let x := quad j; q200to30 (trigSeries 40 0 (x * x / 2 ^ 200) (2 ^ 200) (2 ^ 200))
def sinQ (j : Nat) : Int := let x := quad j; q200to30 (trigSeries 40 1 (x * x / 2 ^ 200) x x)

/-- C[j] and S[j] of R89 by quadrants of 4,096. -/
def cosTab (j : Nat) : Int :=
  let r := j % 4096
  match j / 4096 % 4 with
  | 0 => cosQ r
  | 1 => -sinQ r
  | 2 => -cosQ r
  | _ => sinQ r
def sinTab (j : Nat) : Int :=
  let r := j % 4096
  match j / 4096 % 4 with
  | 0 => sinQ r
  | 1 => cosQ r
  | 2 => -sinQ r
  | _ => -cosQ r

/-- The turnRotation (c, s) in Q30 of turn fraction F at position p (R89). -/
def turnRotation (p f : Nat) : Int × Int :=
  let a := p * f % 2 ^ 64
  let j := a / 2 ^ 50
  let r := a % 2 ^ 50
  let d : Int := ((r * 0xC90FDAA22168C235 / 2 ^ 85 : Nat) : Int)
  let d2 := Int.fdiv (d * d) (2 ^ 41)
  let cj := cosTab j
  let sj := sinTab j
  (cj - Int.fdiv (sj * d) (2 ^ 40) - Int.fdiv (cj * d2) (2 ^ 40),
   sj + Int.fdiv (cj * d) (2 ^ 40) - Int.fdiv (sj * d2) (2 ^ 40))

/-- Rotate one pair (R89). -/
def rotPair (p f : Nat) (x y : Fp) : Fp × Fp :=
  let (c, s) := turnRotation p f
  let cv : Fp := if c = 0 then zero else .fin c (-30)
  let sv : Fp := if s = 0 then zero else .fin s (-30)
  (rnd32 (sub (mul x cv) (mul y sv)), rnd32 (add (mul x sv) (mul y cv)))

/-- Rotary-encode a key vector at position p: ADJACENT pairs (2i, 2i + 1), HALF pairs (i, i + D_r/2) (R89). -/
def rotate (half : Bool) (fr : List Nat) (p : Nat) (v : List Fp) : List Fp :=
  let hr := fr.length
  (List.range v.length).map fun k =>
    let x := v.getD k zero
    if k < 2 * hr then
      if half then
        if k < hr then (rotPair p (fr.getD k 0) x (v.getD (k + hr) zero)).1
        else (rotPair p (fr.getD (k - hr) 0) (v.getD (k - hr) zero) x).2
      else if k % 2 = 0 then (rotPair p (fr.getD (k / 2) 0) x (v.getD (k + 1) zero)).1
      else (rotPair p (fr.getD (k / 2) 0) (v.getD (k - 1) zero) x).2
    else x

-- Attention partials (R93-R96)

/-- A partial (m, l, a). -/
structure Partial where
  m : Fp
  l : Fp
  a : List Fp
deriving DecidableEq, Repr

/-- The empty partial of R93. -/
def emptyPartial (dv : Nat) : Partial := ⟨.inf true, zero, List.replicate dv zero⟩

/-- The partial of a stretch (R93): one entry per position, absent where masked: the score dot product and the value. -/
def stretchPartial (alpha : Fp) (dv : Nat) (pos : List (Option (Fp × List Fp))) : Partial :=
  let ts : List (Option (Fp × List Fp)) := pos.map fun o => o.map fun (s, v) => (rnd32 (mul s alpha), v)
  let present := ts.filterMap id
  if present.isEmpty then emptyPartial dv
  else if present.any (·.1.isNan) then ⟨.nan, .nan, List.replicate dv .nan⟩
  else
    let m := present.foldl (fun m t => max2 m t.1) (.inf true)
    let ps : List (Option (Fp × List Fp)) := ts.map fun o => o.map fun (t, v) => (rnd16 (exp2 (rnd32 (sub t m))), v)
    { m := m
      l := dot (ps.map fun o => o.map fun (p, _) => (p, one))
      a := (List.range dv).map fun k => dot (ps.map fun o => o.map fun (p, v) => (p, v.getD k zero)) }

/-- The merge of two partials (R94). -/
def mergePartial (x y : Partial) : Partial :=
  let m := if x.m.isNan || y.m.isNan then .nan else max2 x.m y.m
  if m = .inf true then emptyPartial x.a.length
  else
    let bx := exp2 (rnd32 (sub x.m m))
    let bY := exp2 (rnd32 (sub y.m m))
    { m := m
      l := rnd32 (add (mul bx x.l) (mul bY y.l))
      a := (x.a.zip y.a).map fun (p, q) => rnd32 (add (mul bx p) (mul bY q)) }

/-- Merge with a sink logit: root ⊕ (σ, 1.0, +0 …) (R95). -/
def mergeSink (x : Partial) (sink : Fp) : Partial := mergePartial x ⟨sink, one, x.a.map fun _ => zero⟩

/-- The output elements (R96), as bf16 values. A root whose m is −∞ and whose l is NaN is a NaN partial here (log 70). -/
def outputOf (p : Partial) : List Fp :=
  if p.m.isNan || p.l.isNan then p.a.map fun _ => .nan
  else if p.m = .inf true then p.a.map fun _ => zero
  else let r := rcp p.l; p.a.map fun a => rnd16 (rnd32 (mul a r))

-- Selection (R104-R108)

/-- Penalties (R104, stages 1 and 2). -/
def penalise (rho phi pi : Fp) (c : Nat) (z : Fp) : Fp :=
  if c = 0 then z
  else
    let z1 :=
      if lt zero z then
        match z, rho with
        | .fin m e, .fin n f => if n = 0 then .inf false else rndQuot false m.natAbs n.natAbs (e - f)
        | z, _ => z
      else rnd32 (mul z rho)
    rnd32 (sub (sub z1 (mul (.fin c 0) phi)) pi)

/-- z2 / τ rounded once (R104, stage 3); τ is positive and finite. -/
def overTemp (tau z : Fp) : Fp :=
  match z, tau with
  | .fin m e, .fin n f => if m = 0 then zero else rndQuot (decide (m < 0)) m.natAbs n.natAbs (e - f)
  | z, _ => z

/-- A token and its logit, ranked descending, ties by the lower token (R105): whether x ranks before y. -/
def ranksBefore (x y : Nat × Fp) : Bool := lt y.2 x.2 || (!lt x.2 y.2 && decide (x.1 < y.1))

/-- Insert into a ranked list. -/
def rankInsert (x : Nat × Fp) : List (Nat × Fp) → List (Nat × Fp)
  | [] => [x]
  | y :: l => if ranksBefore x y then x :: y :: l else y :: rankInsert x l

def rankAll (l : List (Nat × Fp)) : List (Nat × Fp) := l.foldl (fun acc x => rankInsert x acc) []

/-- The integer weight W = w × 2^149 of an fp32 weight (R105). -/
def weight149 : Fp → Nat
  | .fin m e => (rndI m (e + 149)).toNat
  | _ => 0

/-- The shortest prefix whose weights reach top-p of the whole, compared exactly; top-p is num/2^den. -/
def topPrefix (p : Fp) (total : Nat) : Nat → List (Nat × Nat) → List (Nat × Nat)
  | _, [] => []
  | acc, (t, w) :: l =>
    if le (mul p (.fin total 0)) (.fin ((acc + w : Nat) : Int) 0) then [(t, w)] else (t, w) :: topPrefix p total (acc + w) l

/-- The token of the smallest rank whose cumulative weight times 2^64 exceeds U × S (R106). -/
def drawToken (us : Nat) : Nat → List (Nat × Nat) → Option Nat
  | _, [] => none
  | acc, (t, w) :: l => if us < 2 ^ 64 * (acc + w) then some t else drawToken us (acc + w) l

/-- Choose a token (R104-R106): the penalised logits z2 in token order; none when R108 ends the turn. -/
def chooseToken (tau topP : Fp) (topK u : Nat) (z2 : List Fp) : Option Nat :=
  if tau.isZero then
    if z2.any fun z => z.isNan || z == .inf false then none
    else
      match rankAll ((List.range z2.length).zip z2) with
      | [] => none
      | (t, z) :: _ => if z = .inf true then none else some t
  else
    let z3 := z2.map (overTemp tau)
    if z3.any fun z => z.isNan || z == .inf false then none
    else
      let ranked := rankAll ((List.range z3.length).zip z3)
      match ranked with
      | [] => none
      | (_, m) :: _ =>
        if m = .inf true then none
        else
          let kept := if topK = 0 then ranked else ranked.take topK
          let ws := kept.map fun (t, z) => (t, weight149 (exp2 (rnd32 (mul (rnd32 (sub z m)) log2e))))
          let total := (ws.map (·.2)).foldl (· + ·) 0
          let ws := if eq topP one then ws else topPrefix topP total 0 ws
          drawToken (u * (ws.map (·.2)).foldl (· + ·) 0) 0 ws

/-- The 64-bit variate (R107): SHAKE128 of SEED, TURN, absolute position and draw index. -/
def variate (seed : List Byte) (turn pos draw : Nat) : Nat :=
  leNat (shake128 (seed ++ leBytes 4 turn ++ leBytes 8 pos ++ leBytes 8 draw) 8)

end Sys2Proof.Machine
end

