-- ==== Sys2Proof/Machine/State.lean ====
section
/-!
DEFINITION. Machine/State.lean: everything the spec gives the device, as plain data, and the device right after a
power-on reset. Register fields stand in one sparse store (`regs`), counters in another (`ctrs`); what the blocks
keep beside their registers stands in one structure per block.
-/
namespace Sys2Proof.Machine

open Sys2Proof

/-- Why the machine stops with a fault. -/
inductive Fault where
  /-- Never raised by a command of this model: every error of the device is one the spec answers (14 R448), so it is a
  next state. Safe. -/
  | none
deriving DecidableEq, Repr

/-- Why a command has no outcome. -/
inductive Refusal where
  /-- Raised by the dispatcher for a command that has no meaning yet. Safe. -/
  | notModelled (mnemonic : String)
deriving DecidableEq, Repr

/-- A register field: BAR0 offset of its 8-byte word, lowest bit in that word, width, and value at reset. -/
structure Fld where
  off : Nat
  lo : Nat
  width : Nat
  rst : Nat
deriving DecidableEq, Repr

-- HIF: queues (12 R382-R391)

/-- A submission queue: ring size and base, the CQ it completes into, the next entry to fetch and the tail (R382, R388). -/
structure Sq where
  size : Nat
  base : Nat
  cqid : Nat
  head : Nat := 0
  tail : Nat := 0
deriving DecidableEq, Repr

/-- A completion queue: ring, vector and coalescing (R384), the host's head, the device's tail and phase (R386),
the entries reserved for commands in flight (R389) and those posted since the last signal (R391). -/
structure Cq where
  size : Nat
  base : Nat
  vector : Nat
  thresh : Nat := 1
  delayUs : Nat := 0
  head : Nat := 0
  tail : Nat := 0
  phase : Bool := true
  reserved : Nat := 0
  sinceSignal : Nat := 0
deriving DecidableEq, Repr

/-- A command fetched and not completed (R387), or held (R390). `live` is false once its queues are deleted (R393), `started` true once
it has started and has not ended with its start. -/
structure Inflight where
  fn : Nat
  sq : Nat
  cid : Nat
  cq : Nat
  sqHead : Nat
  held : Bool := false
  live : Bool := true
  started : Bool := false
  /-- the command that has started -/
  cmd : Option Cmd := none
deriving DecidableEq, Repr

/-- An MSI-X vector of a function's table in BAR4 (R380): message address and data, the mask bit, and its bit of the pending bit array.
A vector stands masked after a reset, as the MSI-X capability of PCIe has it (R391). -/
structure MsixVec where
  addr : Nat := 0
  data : Nat := 0
  masked : Bool := true
  pending : Bool := false
deriving DecidableEq, Repr

/-- An HDM decoder of an LD (R378, R394): base and size of the host range, and its control word, in bytes as CXL 3.1 numbers them. -/
structure HdmDecoder where
  base : Nat := 0
  size : Nat := 0
  ctrl : Nat := 0
deriving DecidableEq, Repr

/-- The CXL component and device registers of an LD (R378): the global control of its HDM decoders, the four decoders by number, the words of
its RAS capability by byte offset, and its mailbox. -/
structure LdRegs where
  hdmCtrl : Nat := 0
  decoders : Table HdmDecoder := []
  ras : Table Nat := []
  /-- the mailbox of the CXL device registers: its command word, return code, and payload registers (log 65) -/
  mboxCmd : Nat := 0
  mboxReturn : Nat := 0
  mboxPayload : List Byte := []
deriving DecidableEq, Repr

/-- The fields of a completion entry (R386); `slot` is its place in the CQ. -/
structure Completion where
  origin : Origin
  cq : Nat := 0
  slot : Nat := 0
  phase : Bool := false
  sqHead : Nat := 0
  status : Status
  result0 : Nat := 0
  result1 : Nat := 0
  seq : Nat := 0
  data : Bool := false
deriving DecidableEq, Repr

structure Hif where
  sqs : Table Sq := []
  cqs : Table Cq := []
  /-- queue pairs in ERROR, by fn * 64 + queue (R388) -/
  qErr : List Nat := []
  inflight : List Inflight := []
  /-- LDs isolated by the cut-off of R460 -/
  isolated : List Nat := []
  /-- functions presented, as (LD, function) pairs fixed at the LD's binding (R379) -/
  presented : List (Nat × Nat) := []
  /-- the queue id at which the round of a function's fetches goes on (R387) -/
  rounds : Table Nat := []
  /-- MSI-X vectors that differ from their reset state, by fn * 128 + vector (R380) -/
  msix : Table MsixVec := []
  /-- MSI-X Message Control of a function: bit 15 MSI-X Enable, bit 14 Function Mask, both 0 after a reset (R391) -/
  msixCtl : Table Nat := []
  /-- CXL component registers of each LD (R378) -/
  ldRegs : Table LdRegs := []
deriving DecidableEq, Repr

-- FRC: events, error machines, self-test, recorder (14)

/-- The fields of an event record (R456), DETAIL as its numbers. -/
structure EvRec where
  seq : Nat
  code : Nat
  block : Nat
  inst : Nat
  part : Nat
  severity : Nat
  tick : Nat
  commitSeq : Nat
  detail : List Nat
deriving DecidableEq, Repr

/-- A resource unit of R453: 1 row, 2 array, 3 core, 4 expander, 5 PME bank, 6 Xebrilink lane, in the page that owns it. -/
structure Resource where
  slot : Nat
  kind : Nat
  num : Nat
deriving DecidableEq, Repr

/-- An error log entry (R452), with the event that reports it (16 R521) and the unit that its handler tests. -/
structure ErrEntry where
  seq : Nat := 0
  ev : Ev
  unit : Option Resource := none
  cls : ErrClass
  nested : Bool := false
  result : Nat := 0
  retired : Bool := false
  part : Nat := 0xFF
  inst : Nat := 0
  resource : Nat := 0
  session : Nat := 0xFFFFFFFF
  wheel : Nat := 0xFFFF
  layer : Nat := 0xFFFF
  tick : Nat := 0
  detail : List Nat := []
  /-- the step's index within the turn of its session (R463) -/
  step : Nat := 0
  /-- the item (wheel, part, item) whose re-run completes the classification (R448, R450), and whether it waits for the self-test of the array
  that failed it, its partition owning no other -/
  rerun : Option (Nat × Nat × Nat) := none
  alone : Bool := false
  /-- what it counts against for R465 once it is of class CONTAINED -/
  against : List (Nat × Nat) := []
deriving DecidableEq, Repr

/-- The states of a block instance's error machine (R449). -/
inductive ErrState where
  | normal | handling | fenced
deriving DecidableEq, Repr

/-- The error machine of one block instance (R449): its state, the entry whose handler runs and the entries queued. -/
structure ErrMachine where
  state : ErrState := .normal
  current : Option Nat := none
  queued : List Nat := []
deriving DecidableEq, Repr

/-- The 64-entry error log of one block page (R452): entries by index, those not free, and the next index to be written. -/
structure ErrLog where
  entries : Table ErrEntry := []
  busy : List Nat := []
  head : Nat := 0
deriving DecidableEq, Repr

/-- A targeted self-test in progress (R453): the unit, the log entry it answers (none when the operator started it) in the log of page `log`,
of instance `inst`. -/
structure SelfTest where
  unit : Resource
  log : Nat := 0
  inst : Nat := 0
  entry : Option Nat := none
  failed : Bool := false
deriving DecidableEq, Repr

/-- One record of a capsule (R463). -/
structure CapRec where
  type : Nat
  void : Bool := false
  step : Nat := 0
  layer : Nat := 0xFFFF
  index : Nat := 0
  payload : List Byte := []
deriving DecidableEq, Repr

/-- A capsule, open in staging or sealed (R461-R466). `header` is its 512-byte header (R462). -/
structure Capsule where
  session : Nat
  turn : Nat
  part : Nat
  full : Bool := false
  header : List Byte := []
  records : List CapRec := []
  errorAffected : Bool := false
  /-- what its committed steps used, and what errors of class CONTAINED or above named meanwhile (R465): (0, page handle),
  (2, array), (3, core), (4, expander) -/
  used : List (Nat × Nat) := []
  errs : List (Nat × Nat) := []
  /-- what the step in progress has used so far, of `used` once it commits -/
  noted : List (Nat × Nat) := []
  incomplete : Bool := false
  sealed : Bool := false
  sealTick : Nat := 0
  final : List Byte := []
  bytes : List Byte := []
deriving DecidableEq, Repr

/-- The label of the capsule area on a drive (R467). -/
structure CapLabel where
  members : Nat
  position : Nat
  units : Nat
  euis : List Nat
deriving DecidableEq, Repr

/-- A host event ring's device side (R457): its phase and whether records were dropped before the next one. -/
structure EvRing where
  phase : Bool := true
  lost : Bool := false
deriving DecidableEq, Repr

/-- Violations and accesses of one partner in the running window of 2^20 (R459). -/
structure Partner where
  bad : Nat := 0
  seen : Nat := 0
deriving DecidableEq, Repr

structure Frc where
  seq : Nat := 1
  ring : List EvRec := []
  rings : Table EvRing := []
  machines : Table ErrMachine := []
  logs : Table ErrLog := []
  tests : List SelfTest := []
  transients : List (Resource × Nat) := []
  retired : List Resource := []
  /-- arrays that take no item until their self-test ends (R448) -/
  held : List Nat := []
  /-- injections armed and not yet met by a read, by page slot: 1 corrected, 2 uncorrected (R519) -/
  injected : Table Nat := []
  /-- units withdrawn, by tier and 4 KiB unit (R454) -/
  withdrawn : List (Nat × Nat) := []
  staging : List Capsule := []
  ring4k : List Capsule := []
  /-- the unit of the capsule area at which the next capsule begins (R466) -/
  areaNext : Nat := 0
  /-- what the wheels of REPLAY_RUN commands that wait for their buffers' lines supply (R474) -/
  supplies : List (Cmd × List (List Byte)) := []
  labels : Table CapLabel := []
  hosts : Table Partner := []
  trays : Table Partner := []
  drives : Table Partner := []
  /-- FINAL of each session's last sealed capsule (R462, PREV) -/
  finals : Table (List Byte) := []
deriving DecidableEq, Repr

-- SEC (13)

/-- A key exchange of one partition (R425): the key pair's number, the report sent, and the session keys once derived. -/
structure Exchange where
  transport : Nat
  kem : Nat
  report : List Byte
  kEnc : List Byte := []
  kMac : List Byte := []
deriving DecidableEq, Repr

/-- What the fuses hold; nothing else survives power removal (13 R442, R446). The lifecycle starts at PROVISIONED
(DESIGN CHOICE, log 48); `next` is the lifecycle state that the next reset brings. -/
structure Fuses where
  lifecycle : Nat := 1
  next : Option Nat := none
  svnMin : Nat := 0
  revoked : Nat := 0
deriving DecidableEq, Repr

/-- A record of the debug trace buffer (R439): an event, or an instruction that a thread of a tending core ran, its bytes open (log 45). -/
inductive TraceRec where
  | event (r : EvRec)
  | insn (core thread : Nat) (bytes : List Byte)
deriving DecidableEq, Repr

structure Sec where
  fuses : Fuses := {}
  /-- key slots by partition: the 64-byte XTS key and the 32-byte KMAC key (R425) -/
  memKeys : Table (List Byte) := []
  fabKeys : Table (List Byte) := []
  /-- media keys of partitions that are not protected (R434) -/
  mediaKeys : Table (List Byte) := []
  exchanges : Table Exchange := []
  /-- SPDM algorithms negotiated, by transport: 0 I3C, 1 function 0, n + 2 the function of partition n (R422) -/
  spdm : Table Nat := []
  /-- the debug trace buffer (R439): its records, newest first, and the place of the next one -/
  trace : List TraceRec := []
  traceNext : Nat := 0
  /-- open and current generation of each session (R429) -/
  gens : Table (Nat × Nat) := []
  /-- sealed 512-byte units whose tag will fail, by tier and unit number (R431) -/
  badUnits : List (Nat × Nat) := []
deriving DecidableEq, Repr

-- MGC (15)

/-- What a hardware thread waits for (11 R373): nothing, a load into a register from an address, or the flushes of a fence that are still to
end; with the length of the instruction. -/
inductive HartWait where
  | none
  | load (rd addr size : Nat) (signed : Bool) (len : Nat)
  | fence (left len : Nat)
deriving DecidableEq, Repr

/-- A hardware thread of a tending core (01 R23): RV64GCV registers, those that are not zero, CSRs by number, the privilege mode; and the
connections it has stored to since its last fence (11 R373). -/
structure Hart where
  pc : Nat := 0
  x : Table Nat := []
  f : Table Nat := []
  v : Table (List Byte) := []
  csr : Table Nat := []
  priv : Nat := 3
  wait : HartWait := .none
  stored : List Nat := []
deriving DecidableEq, Repr

/-- A 1 GiB aperture of a core's address space (11 R373). -/
structure Aperture where
  base : Nat
  conn : Nat
  key : Nat
  gen : Nat
  offset : Nat
deriving DecidableEq, Repr

/-- A tending core: the thread that runs, its four threads, its apertures. -/
structure Core where
  current : Nat := 0
  harts : Table Hart := []
  apertures : List Aperture := []
deriving DecidableEq, Repr

structure Mgc where
  fatal : Bool := false
  tripped : Bool := false
  sCap : Nat := 0
  sTherm : Nat := 0
  /-- consecutive periods below 0.95 of the limit, at most 10 (R485) -/
  lowPeriods : Nat := 0
  /-- periods of 100 us since the last whole millisecond of MS_SINCE_RESET, 0 to 9 (R485, R499) -/
  periods : Nat := 0
  /-- input energy not yet counted in ENERGY_MJ, in units of 0.1 uJ (15 MGC counters) -/
  energy : Nat := 0
  /-- a rise of the thermal excursion in progress has been logged; 100 us samples hot since the last rise, and cool since the last
  fall (R489) -/
  hot : Bool := false
  hotSamples : Nat := 0
  coolSamples : Nat := 0
  /-- the change that PWR_CTRL asked for and that is not done (R483) -/
  target : Option Nat := none
  /-- PERST_N held after an accepted assertion (R506) -/
  perstHeld : Bool := false
  /-- output pins FAULT_N, THERMTRIP_N, VIN_LOW_N asserted (R505, R479) -/
  faultN : Bool := false
  thermtripN : Bool := false
  vinLowN : Bool := false
  /-- device without power (R480) -/
  off : Bool := false
  /-- tending cores halted through the debug surface (R441), stopped by an error, and retired (14 R448, R453) -/
  coresHalted : List Nat := []
  coresStopped : List Nat := []
  coresRetired : List Nat := []
  /-- the cores that differ from their reset state, by number (01 R23) -/
  cores : Table Core := []
  /-- PARTITION_DRAIN and PARTITION_WIPE commands that complete when their partition has drained or been wiped (16 R525) -/
  drains : Table Cmd := []
  wipes : Table Cmd := []
deriving DecidableEq, Repr

-- CWP (12)

/-- A host directory entry: its way in the set, the sharers' mask, the owner (R396, R397). -/
structure DirEntry where
  way : Nat
  sharers : Nat := 0
  owner : Option Nat := none
deriving DecidableEq, Repr

/-- A recall that a host has not answered: the line, the host, and whether it is BISnpInv (R398). -/
structure Recall where
  line : Nat
  host : Nat
  inv : Bool
deriving DecidableEq, Repr

/-- An operation that waits for recalls of its lines (R399): a host request, a host command by its opcode, a fabric
packet that a port received, a work request that starts, a fetch that reads T1, or the answer of a command that has waited and writes its DWIN buffer. -/
inductive WinOp where
  | hostRead (ld line : Nat) (grant : LineGrant)
  | hostWrite (ld line mask : Nat) (bytes : List Byte)
  | command (op : Nat) (c : Cmd)
  | fabric (port : Nat) (packet : List Byte)
  | work (id : Nat)
  | transfer (t : Transfer)
  | answer (c : Cmd) (status : Status) (result0 result1 seq off : Nat) (data : List Byte)
deriving DecidableEq, Repr

/-- A waiting operation and the window lines it needs. -/
structure WinWait where
  op : WinOp
  lines : List Nat
  /-- how far a publish is (R410): 0 not yet accepted, 1 accepted, 2 its version word written -/
  stage : Nat := 0
deriving DecidableEq, Repr

/-- An extent removal in progress (R405): the hosts removed, the command to complete, lines poisoned, and whether step 5
is past and the wipe runs. -/
structure Removal where
  mask : Nat
  cmd : Option Cmd
  poisoned : Nat := 0
  wiping : Bool := false
deriving DecidableEq, Repr

structure Cwp where
  dir : Table DirEntry := []
  recalls : List Recall := []
  waiting : List WinWait := []
  /-- poisoned lines by T1 line (device address / 64); true once a read of it has been logged (R401) -/
  poison : Table Bool := []
  pageCounts : Table Nat := []
  removals : Table Removal := []
  /-- denials per LD since the last EV_CWP_ACCESS (R395) -/
  denials : Table Nat := []
deriving DecidableEq, Repr

-- SSQ, TMG and the engine (02, 04, 05, 06)

/-- What a page's geometry depends on (04 R111): KV heads, head dimension, latent mode. -/
structure Geom where
  heads : Nat
  dim : Nat
  latent : Bool
deriving DecidableEq, Repr

/-- A layer entry of a model binding (05 R145). -/
structure LayerCfg where
  window : Nat
  keepFirst : Nat
  sink : Bool
  wOff : Nat
  biasOff : Nat
deriving DecidableEq, Repr

/-- A registered model binding (05 R144): its record's fields. `slot` is its slot in the partition. -/
structure Model where
  part : Nat
  slot : Nat
  id : Nat
  contract : Nat
  layers : Nat
  geom : Geom
  group : Nat
  hidden : Nat
  strict : Bool
  rotHalf : Bool
  bias : Bool
  keyFormat : Nat
  weightFmt : Nat
  qrows : Nat
  latV : Nat
  rankMax : Nat
  alpha : Nat
  vocab : Nat
  weightBase : Nat
  tailId : Nat
  profile : List (Nat × Nat)
  profileId : Nat
  cfg : List LayerCfg
  rot : List Nat
  sinks : List Nat
deriving DecidableEq, Repr

/-- A registered tail binding (06 R181). -/
structure Tail where
  part : Nat
  slot : Nat
  id : Nat
  contract : Nat
  vocab : Nat
  hidden : Nat
  outFmt : Nat
  heads : Nat
  width : Nat
  tree : List (Nat × Nat)
  draft : List Nat
  eos : Nat
  weightBase : Nat
deriving DecidableEq, Repr

/-- LIVE, RETIRED and freed versions of an adapter (02 R73). -/
inductive AdState where
  | live | retired | freed
deriving DecidableEq, Repr

/-- One version of an adapter in a partition's adapter history (02 R73): the binding it was loaded for and its image. -/
structure Adapter where
  part : Nat
  id : Nat
  ver : Nat
  state : AdState
  binding : Nat
  rank : Nat
  image : List Byte
deriving DecidableEq, Repr

/-- Session states (02 R42, R44); a FREE descriptor has no entry. -/
inductive SState where
  | opened | active | waiting
  | parked (tier : Nat)
  | expired
deriving DecidableEq, Repr

/-- Members of a chain (05 R177): node and first stretch of each, and the device's own position. -/
structure Chain where
  members : List (Nat × Nat)
  own : Nat
  /-- the SYSTEM region over the chain buffer, on a member that has one before it (11 R364) -/
  region : Option Nat := none
deriving DecidableEq, Repr

/-- A page record (04 R129). `layer`, `page` and `geom` are what the map and the binding tell the expander (R124). -/
structure PageRec where
  base : Nat
  tier : Nat
  cls : Nat
  sealed : Bool := false
  forced : Bool := false
  dirty : Bool := true
  recovery : Bool := false
  lost : Bool := false
  slot4k : Nat
  lowerBase : Nat := 0
  lowerTier : Nat := 0
  lowerValid : Bool := false
  ref : Nat := 0
  pin : Nat := 0
  part : Nat
  heat : Nat := 0
  gen : Nat
  layer : Nat
  page : Nat
  geom : Geom
deriving DecidableEq, Repr

/-- A session descriptor (02 R42) with what it points to: the history, the page map (key layer * 65536 + page index), and,
when folded, the tier of the cold map and the records folded into it (04 R131). -/
structure Session where
  handle : Nat
  part : Nat
  state : SState
  rung : Nat := 0
  turnPending : Bool := false
  prefillRequired : Bool := false
  record : Bool := false
  turn : Nat := 0
  model : Nat
  adapter : Nat := 0
  adapterVer : Nat := 0
  profileId : Nat
  contract : Nat
  relaxed : Bool := false
  history : List Nat := []
  kvLen : Nat := 0
  historyPtr : Nat := 0
  penaltyPtr : Nat := 0
  seed : List Byte
  drawCount : Nat := 0
  expiryTick : Nat := 0
  retainTick : Nat := 0
  rungTick : Nat := 0
  ttlTicks : Nat := 0
  retainTicks : Nat := 0
  commitSeq : Nat := 0
  tailParams : List Byte
  hostCtx : List Byte
  map : Table Nat := []
  /-- the 4 KiB units of T0 that hold the pieces of a resident map (04 R128): 0 the root, 1 + l / 8 the chunk tables of layer l,
  64 + 64 * l + (k >> 10) the chunk of page index k -/
  mapAt : Table Nat := []
  foldTier : Nat := 0
  folded : List PageRec := []
  /-- base and 4 KiB units of the cold map in tier foldTier (04 R131) -/
  coldAt : Nat × Nat := (0, 0)
  /-- the penalty table at PENALTY_PTR as the last turn's end wrote it (06 R200) -/
  penalty : Table Nat := []
  chain : Option Chain := none
  chainNext : Option Chain := none
  /-- the tier into which the map is folded once the rung's moves are done (04 R131); 0: none due -/
  foldDue : Nat := 0
  /-- a page it names was lost, and the transition of R142 waits for its next commit-point event -/
  lostPage : Bool := false
  /-- its penalty overflow failed to read, and the counts are rebuilt at its next turn (08 R282) -/
  countsLost : Bool := false
deriving DecidableEq, Repr

/-- The states of a turn (02 R47); a DONE turn has no entry. -/
inductive TState where
  | queued | reviving | running
deriving DecidableEq, Repr

/-- A turn (02 R47), with the command it holds (12 R390). -/
structure Turn where
  session : Nat
  part : Nat
  wheel : Nat
  state : TState
  cmd : Cmd
  /-- COMMIT_SEQ of its submission's event (16 R527) -/
  submitSeq : Nat := 0
  /-- device-wide turn slot (05 R151), given at admission -/
  slot : Nat := 0
  maxNew : Nat := 0
  nodes : Nat := 1
  /-- wheel steps since it was queued (02 R65) -/
  heldSteps : Nat := 0
  /-- hold H of its revive, in layers (02 R70), and layers resident -/
  hold : Nat := 0
  resident : Nat := 0
  /-- tier and order of its revive stream, and handles of its pages, by layer (02 R61, R69) -/
  reviveTier : Nat := 0
  /-- tokens committed so far, and at which history length the turn ended its submission -/
  committed : Nat := 0
  /-- parameters of the step in progress (01 R32): TAIL_PARAMS at its start -/
  params : List Byte := []
  /-- END_REASON (06 R202), and the tail record of the last selected node (06 R192) -/
  endReason : Nat := 0
  lastNode : Nat := 0
  /-- TREE_NODES that governs the next step: that of the last commit, 1 before a turn's first (06 R192) -/
  nextNodes : Nat := 1
  /-- draft tokens for the next step, best first, by head 1, 2, ... (06 R192) -/
  drafts : List (List Nat) := []
  /-- the session's committed counts: the table of 4,096 entries in T0, and what overflows to PENALTY_PTR in T1 (06 R200) -/
  counts : Table Nat := []
  spill : Table Nat := []
  /-- waiting at the commit for a T0 slot (04 R119) -/
  commitWaits : Bool := false
  /-- KV_LEN before the turn's last commit, and whether its wheel has accepted an exchange since (08 R278) -/
  prevKv : Nat := 0
  spPassed : Bool := true
  /-- what the Weir charged at admission (02 R61): the largest extent X, the pages shared with turns of the partition and of the
  wheel admitted before it -/
  extent : Nat := 0
  sharedPart : Nat := 0
  sharedWheel : Nat := 0
  /-- the index of the step in progress within the turn (14 R463) -/
  steps : Nat := 0
  /-- ends at the boundary of the step in progress: a drain (13 R416) -/
  drain : Bool := false
deriving DecidableEq, Repr

/-- A roster entry (05 R151). -/
structure RosterEntry where
  slot : Nat
  kind : Nat
  cand : Nat
  parent : Nat
  depth : Nat
  pos : Nat
  prov : Nat
  token : Nat
  session : Nat
deriving DecidableEq, Repr

/-- What a work item computes: projected values, one attention item (05 R163), logits of tail records (06 R190), the
speculative heads of a turn (06 R191). -/
inductive ItemKind where
  | project (firstRec count firstVec vecs : Nat)
  | attend (turn hg stretch qset : Nat)
  | logits (firstRec count : Nat)
  | heads (turn : Nat)
deriving DecidableEq, Repr

/-- A work item: its gang, whether it has been dealt and to which array, whether it is done, the array on which it failed a residue
check (14 R448). -/
structure Item where
  kind : ItemKind
  gang : Nat
  array : Option Nat := none
  done : Bool := false
  failedOn : Option Nat := none
deriving DecidableEq, Repr

/-- A gang (05 R166): its members are the items that name it; the pages still to be read for it; how often it was passed
over (R169). -/
structure Gang where
  toRead : List Nat := []
  dealt : Bool := false
  passed : Nat := 0
deriving DecidableEq, Repr

/-- Stretch partials of the queries of a record: query head, stretch, partial, in order of completion. -/
structure PartialRec where
  record : Nat
  head : Nat
  stretch : Nat
  val : Partial
  /-- formed at the relaxed rate (03 R109) -/
  relaxed : Bool := false
deriving DecidableEq, Repr

/-- A tree node of a chain (05 R178): record, query head, level above the leaves, index in its level, value. -/
structure ChainNode where
  record : Nat
  head : Nat
  level : Nat
  idx : Nat
  val : Partial
  /-- partials of this device's items that the part held when it came (03 R109) -/
  after : Nat := 0
deriving DecidableEq, Repr

/-- A layer part, or a tail part, that the SSQ accepted (05 R155, 06 R189). -/
structure LayerPart where
  layer : Nat
  tail : Bool := false
  part : Nat
  first : Nat
  count : Nat
  slot : Nat
  last : Bool
  /-- order of acceptance in the device (05 R169) -/
  stamp : Nat := 0
  items : List Item := []
  gangs : List Gang := []
  partials : List PartialRec := []
  /-- node values received from the chain member before this one (05 R178) -/
  nodes : List ChainNode := []
  logits : List (Nat × List Fp) := []
  /-- the records' inlet slots as they stood when the part came (R154) -/
  inlet : List (List Byte) := []
  /-- records whose slots the wheel had reused when the outlet was written (R157) -/
  reused : List Nat := []
  written : Bool := false
deriving DecidableEq, Repr

/-- A tail block entry (06 R203): what a turn of the roster has come to in the step. -/
structure TailEntry where
  slot : Nat
  session : Nat
  status : Status
  ended : Bool
  late : Bool := false
  endReason : Nat := 0
  firstPos : Nat := 0
  toks : List Nat := []
  /-- the step's index within the turn (14 R463) -/
  step : Nat := 0
deriving DecidableEq, Repr

/-- A wheel (05 R150, 02 R50-R55): the descriptor it keeps, its shaft position, and the step in progress. -/
structure Wheel where
  part : Nat
  model : Nat
  accels : List Nat
  lead : Nat := 2
  pendingLead : Option Nat := none
  stepBase : Nat
  inletBase : Nat
  inletSlots : Nat
  outletSlots : Nat
  node : Nat
  outletKey : Nat
  outletAddr : Nat
  rosterAddr : Nat
  rosterSlots : Nat
  triggerTag : Nat
  outletCtr : Nat
  rosterCtr : Nat
  triggerKey : Nat := 0
  inletKey : Nat := 0
  lastStep : Nat
  lastLayer : Nat
  spValid : Bool := false
  /-- c of R51 -/
  committed : Nat
  /-- the anticipated SP (02 R54) -/
  antStep : Nat := 0
  antLayer : Nat := 0
  rosterSeq : Nat := 0
  /-- the roster written and not yet committed or rolled back -/
  roster : Option (List RosterEntry) := none
  rosterStep : Nat := 0
  /-- the roster's step has been rolled back and not begun again (13 R416) -/
  rolledBack : Bool := false
  /-- an exchange of the roster's step has been accepted -/
  parts : List LayerPart := []
  /-- next part number and next record of the layer being delivered; whether its LAST_PART came -/
  nextPart : Nat := 0
  nextRec : Nat := 0
  layerDone : Bool := true
  tailDone : Bool := false
  tailBegun : Bool := false
  blockWritten : Bool := false
  /-- the flush behind the tail block is outstanding (06 R203) -/
  flushing : Bool := false
  /-- what turns of the roster have come to -/
  results : List TailEntry := []
  /-- pages on which the wheel holds its pin of this step (04 R133) -/
  pins : List Nat := []
  /-- records counted on OUTLET_CTR and rosters counted on ROSTER_CTR so far -/
  outletCount : Nat := 0
  rosterCount : Nat := 0
deriving DecidableEq, Repr

structure Ssq where
  sessions : Table Session := []
  /-- INCARNATION of each descriptor index that has been freed (02 R40); an unlisted index is at its first -/
  incarn : Table Nat := []
  corrupt : List Nat := []
  models : List Model := []
  tails : List Tail := []
  adapters : List Adapter := []
  wheels : Table Wheel := []
  /-- parts accepted so far -/
  partSeq : Nat := 0
  /-- turns: queued ones in queue order (02 R64), then admitted ones in order of admission -/
  turns : List Turn := []
deriving DecidableEq, Repr

/-- Why a page is moved (08). -/
inductive MoveWhy where
  | revive | fetch | promote | relief | ladder | cleanAhead | withdraw
deriving DecidableEq, Repr

/-- A tier move in progress (08 R261): the slot it fills, whether it is done and waits for pins (04 R136). -/
structure Move where
  handle : Nat
  tier : Nat
  base : Nat
  slot4k : Nat
  why : MoveWhy
  done : Bool := false
  /-- onto the lower copy, without a transfer, once no other pin is held (04 R136) -/
  onto : Bool := false
deriving DecidableEq, Repr

/-- What holds T0 beside page slots (06 R183, 08 R271, R272). -/
inductive AreaOwner where
  | window (wheel : Nat)
  | tailImage (tail : Nat)
  | resident (model : Nat)
  /-- adapter terms of a layer beyond a wheel's adapter area (08 R273) -/
  | excess (wheel step layer : Nat)
deriving DecidableEq, Repr

/-- An area of the page part of a partition's T0 extent, in 4 KiB units. -/
structure Area where
  owner : AreaOwner
  part : Nat
  units : Nat
  /-- the weights it holds, for an image or resident weights -/
  bytes : List Byte := []
deriving DecidableEq, Repr

structure Tmg where
  records : Table PageRec := []
  moves : List Move := []
  areas : List Area := []
  /-- pages in recovery that wait for a slot (04 R142) -/
  recWaits : List Nat := []
  /-- reads that wait for a T0 slot (08 R259): the handle and what it is for -/
  allocWaits : List (Nat × MoveWhy) := []
  /-- moves that wait for the page's move in flight to complete (08 R264): handle, tier, why -/
  deferred : List (Nat × Nat × MoveWhy) := []
  /-- pins granted since the last heat sweep (08 R266) -/
  pinCount : Nat := 0
  /-- 4 KiB units, as (tier, unit), whose next access by a direct-window command fails, and whether it must be a write (08 R282) -/
  badAccess : List (Nat × Nat × Bool) := []
  /-- commands in a row that timed out, by drive (08 R288) -/
  timeouts : Table Nat := []
  /-- the drives in service when NVC completed its bring-up at boot, in ascending port order (08 R253) -/
  t3Drives : List Nat := []
deriving DecidableEq, Repr

-- HRC (08)

/-- What a shaft-due fetch brings (08 R269). -/
inductive FetchKind where
  | page (handle : Nat)
  | weights
  | adapter (id ver : Nat)
  | overflow (turn : Nat)
deriving DecidableEq, Repr

/-- A shaft-due fetch in progress: its wheel, step and layer (layer N is the token tail), source tier and bytes. -/
structure Fetch where
  wheel : Nat
  step : Nat
  layer : Nat
  kind : FetchKind
  tier : Nat
  bytes : Nat
  /-- the wheel whose slot it shares while that one's fetch is in flight (08 R271) -/
  sharing : Option Nat := none
  /-- the matrix and bias that a filled slot of the weight window holds -/
  data : List Byte := []
deriving DecidableEq, Repr

/-- A wheel's measured layer time, the bytes of its largest shaft-due set of the step by tier, and whether LEAD_SHORT has
been logged for the step (08 R270). -/
structure LeadMeas where
  layerNs : Nat := 0
  /-- bytes from T1, T2 and T3 of the shaft-due sets of each step begun, by step * 2^16 + layer, and the largest of the last step -/
  bytes : Table (List Nat) := []
  last : List Nat := [0, 0, 0]
deriving DecidableEq, Repr

structure Hrc where
  fetches : List Fetch := []
  /-- shaft-due fetches that are done and whose layer still needs what they brought (08 R269, R271) -/
  filled : List Fetch := []
  lead : Table LeadMeas := []
  /-- revive streams: sessions of admitted turns with pages below T0, by partition and tier, in admission order (08 R274) -/
  revive : List (Nat × Nat × Nat) := []
deriving DecidableEq, Repr

-- PME (07)

/-- A column (R210). `owner` is its OWNER field; `bad` says that its CHECK fails; a folded column
holds the records of its pages in `folded` (R239). -/
structure Column where
  tag : Nat
  parentTag : Nat
  tagHi : Nat := 0
  content : Nat
  gen : Nat
  parentCol : Nat := 0
  page : Nat
  part : Nat
  priv : Bool := false
  dead : Bool := false
  owner : Nat := 0
  holders : Nat := 0
  bad : Bool := false
  /-- its entry went to another member of the sled (R240) -/
  away : Bool := false
  shadow : List Nat
  handles : List Nat
  folded : List PageRec := []
  /-- identity of its chain, for R246: MODEL_BINDING_ID, ADAPTER_ID, ADAPTER_VER -/
  binding : Nat
  adapter : Nat := 0
  adapterVer : Nat := 0
  /-- who published it, and in which turn, for ATTACH records (14 R463) -/
  publisher : Nat := 0
  pubTurn : Nat := 0
deriving DecidableEq, Repr

/-- A bucket of the cold index (R236): its entries in order, whether its CHECK fails, and for a bucket of the overflow pool
the partition that took it (16 for a home bucket). -/
structure Bucket where
  part : Nat := 16
  entries : List PmeEntry := []
  bad : Bool := false
  /-- its place in the overflow pool -/
  slot : Nat := 0
deriving DecidableEq, Repr

/-- Where an entry stands: a set and way, or a home bucket, the bucket's place in its chain and the entry's in it. -/
inductive Place where
  | way (set way : Nat)
  | cold (home chain idx : Nat)
deriving DecidableEq, Repr

/-- A candidate of a lookup (R223, R227): its place and the entry it held. -/
structure Cand where
  place : Place
  entry : PmeEntry
deriving DecidableEq, Repr

/-- The identity fields of a chain hash (R207). -/
structure PrefixId where
  binding : Nat
  adapter : Nat
  adapterVer : Nat
  profile : Nat
  contract : Nat
deriving DecidableEq, Repr

/-- A lookup slot (R226): its query, the candidates that remain to be verified, and the last hit returned. -/
structure Slot where
  part : Nat
  session : Nat := 0
  ident : PrefixId
  tokens : List Nat
  hashes : List Nat
  wides : List Nat
  cands : List Cand
  hit : Option PrefixHit := none
  /-- the candidate that named the last hit, if this device holds its entry -/
  named : Option Cand := none
  /-- a hit of the sled that was met and not yet returned (R241) -/
  spare : Option PrefixHit := none
deriving DecidableEq, Repr

/-- A lookup that another device forwarded to this one (R244): the node it came from and its number there. -/
structure FwdIn where
  node : Nat
  id : Nat
deriving DecidableEq, Repr

/-- A lookup whose sled segments are outstanding (R241), or whose forwarded message is (R244): the command or forwarding that it
answers, its number, its query, the segments still to be resolved, deepest first, the best hit so far, and the hops made. -/
structure Pending where
  id : Nat
  cmd : Option Cmd := none
  from_ : Option FwdIn := none
  q : Slot
  next : Bool := false
  segments : List Nat := []
  /-- segments whose LOOKUP flits have come back round the ring (R241) -/
  returned : List Nat := []
  best : Option PrefixHit := none
  multi : Bool := false
  hops : Nat := 0
  forwarded : Bool := false
  /-- the number of its forwarded message (R245) -/
  fwdId : Nat := 0
deriving DecidableEq, Repr

/-- A segment of a sled lookup that this member compared for an origin (R241): its query, with the candidates that it has not
yet verified. -/
structure SledQuery where
  origin : Nat
  id : Nat
  segment : Nat
  q : Slot
deriving DecidableEq, Repr

/-- An attach by import in progress (R231). -/
structure Import where
  cmd : Cmd
  slot : Nat
  session : Nat
  tokens : List Nat
  node : Nat
  /-- the identity fields of its lookup (R229) -/
  ident : PrefixId
  /-- the SYSTEM region over its import buffer (11 R364) -/
  region : Nat
deriving DecidableEq, Repr

structure Pme where
  /-- valid ways, by set * 128 + way -/
  entries : Table PmeEntry := []
  columns : Table Column := []
  /-- bucket chains by home bucket (R236) -/
  cold : Table (List Bucket) := []
  slots : Table Slot := []
  /-- use counts of lookup slots (R226) -/
  uses : Table Nat := []
  pendings : List Pending := []
  sled : List SledQuery := []
  /-- RESOLVE flits that reached member 0 and wait for their frame: (origin, id, segment) -/
  frames : List (Nat × Nat × Nat) := []
  /-- the number of the next lookup that holds no slot (R244), or of the next import -/
  nextId : Nat := 1024
  /-- imports in progress, by number -/
  imports : Table Import := []
  /-- repoints of R234 that wait for a session's next commit-point event: (session handle, page index, column, its GEN) -/
  repoints : List (Nat × Nat × Nat × Nat) := []
  /-- publication runs that a commit left to be made (R233): (session handle, last page index) -/
  toPublish : List (Nat × Nat) := []
  /-- lookups per bank since its HITS were last halved (R219) -/
  probes : Table Nat := []
  /-- partitions whose column sweep is due (R239) -/
  sweeps : List Nat := []
deriving DecidableEq, Repr

-- XFE (10, 11)

/-- The states of a connection (10 R325); a CLOSED id has no entry. -/
inductive CState where
  | opening | opened | closing | failed
deriving DecidableEq, Repr

/-- The fields of a packet's header (10 R318); the last, HCRC, is computed from them. -/
structure PktHdr where
  version : Nat := 2
  op : Nat
  flags : Nat := 0
  route : Nat := 0
  dst : Nat
  src : Nat
  conn : Nat := 0
  seq : Nat := 0
  index : Nat := 0
  pktsM1 : Nat := 0
  len : Nat := 0
  addr : Nat := 0
  rkey : Nat := 0
  rgen : Nat := 0
  ptag : Nat := 0
  cgen : Nat := 0
  arg : List Byte := []
  psn : Nat := 0
deriving DecidableEq, Repr

/-- A control packet (ACK, NAK or connection packet) at a port or, on a compatibility connection, sent and not yet covered (10 R310,
R341): its connection where that numbers it by PSN, the partition whose keys seal it, header and payload. -/
structure CtlPkt where
  conn : Option Nat := none
  sealPart : Option Nat := none
  hdr : PktHdr
  payload : List Byte := []
  psn : Option Nat := none
  /-- the port it last left by (10 R311) -/
  port : Nat := 0
deriving DecidableEq, Repr

/-- One packet of a message on the sending side: the path and port it was last given, in compatibility mode the PSN it got when it first
left, whether it waits at a port, has left one, is acknowledged, and goes with RETX. -/
structure TxPkt where
  index : Nat
  path : Nat
  port : Nat
  psn : Option Nat := none
  queued : Bool := true
  left : Bool := false
  acked : Bool := false
  retx : Bool := false
deriving DecidableEq, Repr

/-- A message to be sent or not yet acknowledged (10 R328): header fields, its bytes, the packets that carry POISON, and
what completes with it: a work request, and the status it ended with. -/
structure TxMsg where
  seq : Nat
  op : Nat
  cls : Nat
  addr : Nat := 0
  rkey : Nat := 0
  rgen : Nat := 0
  arg : List Byte := []
  data : List Byte := []
  poison : Nat := 0
  /-- the ports, as a mask, of the path set that the message began with (10 R311) -/
  ports : Option Nat := none
  pkts : List TxPkt := []
  /-- every packet acknowledged, or the message ended by a NAK -/
  acked : Bool := false
  /-- completed at the sender (11 R349) -/
  completed : Bool := false
  work : Option Nat := none
  /-- the REQ_ID of the request that its response answers -/
  req : Option Nat := none
  ended : Option Status := none
deriving DecidableEq, Repr

/-- A receive tracker (10 R330): packets accepted, placed, and arrived since the last ACK of the message; the port on
which the last one arrived. -/
structure Tracker where
  pktsM1 : Nat
  got : Nat := 0
  placed : Nat := 0
  sinceAck : Nat := 0
  /-- port on which its last packet arrived (10 R332) -/
  port : Nat := 0
deriving DecidableEq, Repr

/-- A message retired as failed, with the NAK that its later packets draw (10 R347). -/
structure RxFail where
  seq : Nat
  reason : Nat
  sub : Nat
deriving DecidableEq, Repr

/-- A TRIGGER that waits for its fence, and a FLUSH that waits to be answered (11 R361, R355). -/
structure RxHeld where
  seq : Nat
  op : Nat
  header : List Byte
  payload : List Byte
  port : Nat
deriving DecidableEq, Repr

/-- A connection record (10 R323-R345). -/
structure Conn where
  part : Nat
  node : Nat
  rpart : Nat
  state : CState
  native : Bool := true
  peerConn : Nat := 0
  peerCgen : Nat := 0
  peerUid : Nat := 0
  /-- KIND TRUST, and RIGHTS, of the governing entry at opening (11 R366) -/
  trust : Bool := false
  rights : Nat := 0
  paths : Nat := 1
  window : Nat := 0
  ceil : Nat := 0
  ackSum : Nat := 0
  /-- packets acknowledged since the window was last halved (R335) -/
  sinceCut : Option Nat := none
  txNext : Nat := 0
  psnNext : Nat := 0
  tx : List TxMsg := []
  /-- control packets of a compatibility connection whose PSN no SACK has covered (10 R341, R343) -/
  ctlSent : List CtlPkt := []
  /-- paths to skip, and for how many more packets (R328) -/
  skip : List (Nat × Nat) := []
  rtoUs : Nat := 0
  /-- B, the messages retired in [B, B + 255], and those retired as failed (R337) -/
  rxBase : Nat := 0
  retired : List Nat := []
  failed : List RxFail := []
  /-- E, and the PSNs received in [E, E + 255] (R342) -/
  psnBase : Nat := 0
  psnGot : List Nat := []
  trackers : Table Tracker := []
  held : List RxHeld := []
  marks : Nat := 0
  violations : Nat := 0
  /-- MSG_SEQ of the TRIGGERs judged so far, whatever their outcome (11 R361) -/
  triggers : List Nat := []
  /-- the earliest NAK of a completed message since the last flush (11 R350) -/
  nakStatus : Option Status := none
  /-- the CONN_OPEN or CONN_CLOSE that completes with it -/
  cmd : Option Cmd := none
  closeSent : Bool := false
  spilled : Bool := false
  /-- order of last use (R344) -/
  used : Nat := 0
deriving DecidableEq, Repr

/-- A work request (11 R363). -/
structure Wreq where
  op : Nat
  type : Nat
  fetch : Bool
  target : Nat
  localAddr : Nat
  localTier : Nat
  remote : Nat
  length : Nat
  rkey : Nat
  rgen : Nat
  ctrInc : Nat
  remoteCtr : Nat
  localCtr : Nat
  thresh : Nat
deriving DecidableEq, Repr

/-- A running work request: its partition, the WR_SUBMIT it answers (none when triggered), the messages still to complete,
and for a multicast the status its skipped members give (11 R356). -/
structure Work where
  wr : Wreq
  part : Nat
  cmd : Option Cmd := none
  started : Bool := false
  left : Nat := 0
  status : Status := .ok
  /-- the members of its group as it read them when it started: connection, key, generation, offset (11 R356) -/
  members : Option (List (Nat × Nat × Nat × Nat)) := none
deriving DecidableEq, Repr

/-- Whose request waits for a response: a work request's, the flush behind a wheel's tail block (06 R203), a core thread's load or a flush of
its fence (11 R373). -/
inductive ReqFor where
  | work (id : Nat)
  | tailFlush (wheel : Nat)
  | remoteLoad (core thread : Nat)
  | coreFence (core thread : Nat)
deriving DecidableEq, Repr

/-- What waits for a response (11 R352-R355), by REQ_ID: the connection, the request's opcode, whose it is, and for a read
the tier, the direct-window address and the length of its destination and whether a packet came with POISON; for a thread's load the
value that came. -/
structure Request where
  conn : Nat
  op : Nat
  what : ReqFor
  tier : Nat := 0
  addr : Nat := 0
  len : Nat := 0
  poison : Bool := false
  value : Nat := 0
deriving DecidableEq, Repr

/-- A trigger that has become consumable (11 R361). -/
structure Trig where
  conn : Nat
  inc : Nat
  payload : List Byte
deriving DecidableEq, Repr

/-- The states of a region entry (11 R364); a FREE index has no entry. -/
inductive RState where
  | valid | draining | retiring
deriving DecidableEq, Repr

/-- A region entry (11 R364) with its trigger COUNT and lists (R361, R362) and the REGION_REVOKE that drains it. -/
structure Region where
  tag : Nat
  gen : Nat := 1
  state : RState := .valid
  part : Nat
  system : Bool := false
  kind : Nat
  rights : Nat
  etype : Nat := 0
  base : Nat := 0
  tier : Nat := 0
  length : Nat := 0
  source : Nat
  inflight : Nat := 0
  count : Nat := 0
  /-- the posted list, each request with its slot -/
  posted : List (Nat × Wreq) := []
  queue : List Trig := []
  wheel : Option Nat := none
  free : Bool := false
  revoke : Option Cmd := none
  expert : Bool := false
deriving DecidableEq, Repr

/-- A message of the prefix store to a node: an import, a forwarded lookup or its answer (07 R231, R244, R245). -/
structure OwnMsg where
  node : Nat
  part : Nat
  kind : String
  words : List Nat
  bytes : List Byte := []
deriving DecidableEq, Repr

/-- A packet of a connection in the queue of an egress port, or a message of the prefix store. -/
structure EgressPkt where
  conn : Nat
  seq : Nat
  index : Nat
  own : Option OwnMsg := none
deriving DecidableEq, Repr

structure Xfe where
  conns : Table Conn := []
  /-- CGEN of ids that have been freed (10 R327) -/
  cgen : Table Nat := []
  /-- port masks of nodes that differ from 0xFF (10 R317) -/
  routes : Table Nat := []
  regions : Table Region := []
  /-- the last TAG of each index (11 R364) -/
  tags : Table Nat := []
  /-- multicast groups: 16-byte members (11 R356) -/
  groups : Table (List (List Byte)) := []
  works : Table Work := []
  requests : Table Request := []
  nextReq : Nat := 0
  /-- queues of the egress ports, by port * 33 + requester (09 R291, 10 R310) -/
  egress : Table (List EgressPkt) := []
  /-- violations by port in the running window of 2^20 packets (10 R346) -/
  portBad : Table Partner := []
  /-- failed training attempts by port since it last came up (10 R308) -/
  attempts : Table Nat := []
  /-- LINK_CAP widths agreed, by port: lanes locked at training -/
  lanes : Table Nat := []
  /-- packets that wait for a spilled record, as (connection, port, marked, bytes), and messages to send likewise (10 R344) -/
  holding : List (Nat × Nat × Bool × List Byte) := []
  holdingMsgs : List (Nat × TxMsg) := []
  /-- records being fetched, and records to fetch once one of those on chip is idle -/
  fetching : List Nat := []
  roomless : List Nat := []
  /-- control packets that wait at a port, and the link credits held, by port * 4 + class (10 R310) -/
  ctl : Table (List CtlPkt) := []
  credits : Table Nat := []
  stamp : Nat := 0
deriving DecidableEq, Repr

-- SLU (09)

/-- A transfer that waits at a Sluice instance: its bytes; at an egress port the packet it is, and at an expander the wheel, part and
gang whose next page it is, or (2^32, handle, 0) for a recovery read. -/
structure SluReq where
  bytes : Nat
  pkt : Option EgressPkt := none
  page : Option (Nat × Nat × Nat) := none
deriving DecidableEq, Repr

/-- A grant in progress (09 R294). -/
structure Grant where
  requester : Nat
  req : SluReq
  preemptible : Bool
deriving DecidableEq, Repr

/-- A Sluice instance (09 R293, R294, R299-R301): credits and wait counters by requester, the run of urgent grants, queues
of transfers at a memory or expander instance, the grant in progress, windows of quarantine left, and the CTRL values in
force (none: the register's, before any write). -/
structure SluInst where
  credits : Table Int := []
  waits : Table Nat := []
  run : Nat := 0
  queues : Table (List SluReq) := []
  current : Option Grant := none
  quar : Table Nat := []
  ctrl : Option (Nat × Nat × Nat × Nat × Nat) := none
deriving DecidableEq, Repr

-- MXG (05)

/-- What an array holds beside its fixed wiring (01 R21): the areas of its hopper (05 R167), for queries of `qPass` a pass and values of
`dv` elements, and its accumulation and query store. `scores` holds fp32 scores, query by query, 4,096 positions each; `values` by page
slot of the stretch the value codes and head scales; `stream` the 4 KiB credits in use, oldest first; `store` the queries and then the
partials of the item. -/
structure ArrayMem where
  qPass : Nat := 64
  dv : Nat := 0
  scores : List Nat := []
  values : Table (List Byte) := []
  stream : List (List Byte) := []
  store : List Byte := []
deriving DecidableEq, Repr

-- What leaves the device

/-- What the device sends or writes outside itself, newest first in `State.out`. -/
inductive Out where
  /-- a command has completed: its entry, whose bytes a `hostWrite` puts into the CQ ring, or the answer over I3C (12 R386, 16 R524) -/
  | completion (c : Completion)
  /-- bytes written to a bus address of a function: data buffers (12 R385), completion entries (R386), event records (14 R457) -/
  | hostWrite (fn addr : Nat) (bytes : List Byte)
  /-- a read of bytes at a bus address of a function: a spilled connection record (10 R344) -/
  | hostFetch (fn addr len : Nat)
  /-- data of a command that came over I3C (16 R524) -/
  | i3cData (bytes : List Byte)
  /-- an MSI-X vector of a function (12 R391) -/
  | msix (fn vector : Nat)
  /-- a record written to a host ring, its bytes the `hostWrite` beside it (14 R457) -/
  | eventRecord (fn slot : Nat) (r : EvRec) (lost phase : Bool)
  /-- a fabric packet handed to a port (10 R319) -/
  | packet (port : Nat) (bytes : List Byte)
  /-- a link-local or management message: ANNOUNCE and the rest of 10 R312 -/
  | linkMessage (port kind : Nat) (words : List Nat)
  /-- an answer to a host CXL.mem request: the line's bytes, poison, completion of a write (12 R395) -/
  | memData (ld line : Nat) (bytes : List Byte) (grant : LineGrant)
  | memPoison (ld line : Nat)
  | memDone (ld line : Nat)
  /-- a recall sent to a host (12 R398) -/
  | bisnp (host line : Nat) (inv : Bool)
  /-- Unsupported Request or Completer Abort (14 R459) -/
  | ioError (ld : Nat) (abort : Bool)
  /-- an SPDM answer (13 R422) by transport: a name and its bytes -/
  | spdm (transport : Nat) (kind : String) (bytes : List Byte)
  /-- bytes read through the debug surface (13 R439) -/
  | debugData (bytes : List Byte)
  /-- a read, write or deallocate of a drive's blocks outside the striped space (14 R466, R467; 13 R443) -/
  | driveWrite (drive lba : Nat) (bytes : List Byte)
  | driveDealloc (drive lba count : Nat)
  /-- a request to a drive or tray: abort, tray heat read (08 R286, R288) -/
  | deviceOp (slot : Nat) (kind : String) (words : List Nat)
  /-- a cascade flit and the match line (07 R241) -/
  | flit (kind : String) (words : List Nat) (bytes : List Byte)
  | matchOut (words : List Nat)
deriving DecidableEq, Repr

/-- The device. -/
structure State where
  /-- commands waiting, first in, first out -/
  pending : List Instr := []
  /-- register fields that differ from their reset value, by bit address (BAR0 offset * 8 + bit) -/
  regs : Table Nat := []
  /-- counters that are not 0, by BAR0 offset (16 R518) -/
  ctrs : Table Nat := []
  /-- what has left the device, newest first -/
  out : List Out := []
  /-- THE MODEL'S OWN: how many free values have been used (log 4) -/
  free : Nat := 0
  /-- the four tiers' memories (08 R248) -/
  t0 : List Host.Cell := []
  t1 : List Host.Cell := []
  t2 : List Host.Cell := []
  t3 : List Host.Cell := []
  hif : Hif := {}
  frc : Frc := {}
  sec : Sec := {}
  mgc : Mgc := {}
  cwp : Cwp := {}
  ssq : Ssq := {}
  tmg : Tmg := {}
  hrc : Hrc := {}
  pme : Pme := {}
  xfe : Xfe := {}
  /-- Sluice instances that differ from their reset state, by number (09 R289) -/
  slu : Table SluInst := []
  /-- what the arrays' hoppers and stores hold, by array (01 R21) -/
  mxg : Table ArrayMem := []
deriving DecidableEq, Repr

/-- The device right after a power-on reset: stage ROM, every register at its reset value, every table empty
(15 R495-R499, 13 R415). -/
def State.reset : State := {}

end Sys2Proof.Machine
end

