-- ==== Sys2Proof/Machine/Regs.lean ====
section
/-!
DEFINITION. Machine/Regs.lean: every register field of the device, each with its BAR0 word offset, its lowest bit in
the 8-byte word, its width and its reset value, as the register tables of the chapters give them; and the offsets of
the free-running counters. `n` is a partition bank, `i` an array index, `k` the instance of a block with several
pages, `p` a page slot (16 R510), `pg` the offset of an expander's registers. A reset value the tables give as "fw"
stands as 0 here (log 7).
-/
set_option cleanup.letToHave false
namespace Sys2Proof.Machine.Reg

open Sys2Proof Sys2Proof.Machine

def ssqTickValue : Fld := ⟨0x10100, 0, 64, 0⟩
def ssqTickCtrlMaxJump : Fld := ⟨0x10108, 0, 32, 86400⟩
def ssqStallTimeoutValueUs : Fld := ⟨0x10110, 0, 32, 2000000⟩
def ssqWheelPartition (i : Nat) : Fld := ⟨0x11000 + i * 32, 0, 4, 0⟩
def ssqWheelValid (i : Nat) : Fld := ⟨0x11000 + i * 32, 4, 1, 0⟩
def ssqWheelLead (i : Nat) : Fld := ⟨0x11000 + i * 32, 8, 4, 2⟩
def ssqWheelLayersM1 (i : Nat) : Fld := ⟨0x11000 + i * 32, 16, 8, 0⟩
def ssqWheelBinding (i : Nat) : Fld := ⟨0x11000 + i * 32, 24, 4, 0⟩
def ssqWheelSpStep (i : Nat) : Fld := ⟨0x11008 + i * 32, 0, 32, 0⟩
def ssqWheelSpLayer (i : Nat) : Fld := ⟨0x11008 + i * 32, 32, 8, 0⟩
def ssqWheelSpValid (i : Nat) : Fld := ⟨0x11008 + i * 32, 40, 1, 0⟩
def ssqWheelAntLayer (i : Nat) : Fld := ⟨0x11010 + i * 32, 0, 8, 0⟩
def ssqWheelBeatEn (i : Nat) : Fld := ⟨0x11010 + i * 32, 8, 1, 0⟩
def ssqWheelCommittedStep (i : Nat) : Fld := ⟨0x11018 + i * 32, 0, 32, 0⟩
def ssqWheelRunning (i : Nat) : Fld := ⟨0x11018 + i * 32, 32, 16, 0⟩
def ssqPbWeirT0Pages (n : Nat) : Fld := ⟨0x1C000 + n * 0x400, 0, 32, 0⟩
def ssqPbWeirArrayUs (n : Nat) : Fld := ⟨0x1C000 + n * 0x400, 32, 32, 0⟩
def ssqPbWeirStepUs (n : Nat) : Fld := ⟨0x1C008 + n * 0x400, 0, 32, 0⟩
def ssqPbWeirTtftUs (n : Nat) : Fld := ⟨0x1C008 + n * 0x400, 32, 32, 0⟩
def ssqPbWeirRateT1 (n : Nat) : Fld := ⟨0x1C010 + n * 0x400, 0, 16, 1070⟩
def ssqPbWeirRateT2 (n : Nat) : Fld := ⟨0x1C010 + n * 0x400, 32, 16, 230⟩
def ssqPbWeirRateT3 (n : Nat) : Fld := ⟨0x1C018 + n * 0x400, 0, 16, 200⟩
def ssqPbWeirQueueDepth (n : Nat) : Fld := ⟨0x1C018 + n * 0x400, 32, 16, 1024⟩
def ssqPbWeirQueueMinBatch (n : Nat) : Fld := ⟨0x1C018 + n * 0x400, 48, 8, 0⟩
def ssqPbWeirQueueHoldSteps (n : Nat) : Fld := ⟨0x1C018 + n * 0x400, 56, 8, 0⟩
def ssqPbWeirStatQueued (n : Nat) : Fld := ⟨0x1C020 + n * 0x400, 0, 16, 0⟩
def ssqPbWeirStatAdmitted (n : Nat) : Fld := ⟨0x1C020 + n * 0x400, 16, 16, 0⟩
def ssqPbTtlDefault (n : Nat) : Fld := ⟨0x1C020 + n * 0x400, 32, 32, 86400⟩
def ssqPbRetainDefault (n : Nat) : Fld := ⟨0x1C028 + n * 0x400, 0, 32, 2592000⟩
def ssqPbLadderTier (n : Nat) (i : Nat) : Fld := ⟨0x1C030 + n * 0x400 + i * 8, 0, 2, 0⟩
def ssqPbLadderValid (n : Nat) (i : Nat) : Fld := ⟨0x1C030 + n * 0x400 + i * 8, 2, 1, (if i = 0 then 1 else 0)⟩
def ssqPbLadderDwell (n : Nat) (i : Nat) : Fld := ⟨0x1C030 + n * 0x400 + i * 8, 32, 32, 4294967295⟩
def tmgDirBaseAddr : Fld := ⟨0x30100, 0, 52, 0⟩
def tmgDirCapRecords : Fld := ⟨0x30108, 0, 32, 0⟩
def tmgDirCapFree : Fld := ⟨0x30108, 32, 32, 0⟩
def tmgGenNextValue : Fld := ⟨0x30110, 0, 64, 1⟩
def tmgPbDirQuota (n : Nat) : Fld := ⟨0x3C000 + n * 0x400, 0, 32, 0⟩
def tmgPbDirUsed (n : Nat) : Fld := ⟨0x3C008 + n * 0x400, 0, 32, 0⟩
def tmgPageOpHandle : Fld := ⟨0x31000, 0, 32, 0⟩
def tmgPageOpOp : Fld := ⟨0x31000, 32, 4, 0⟩
def tmgPageOpGo : Fld := ⟨0x31000, 63, 1, 0⟩
def tmgPageOpStatBusy : Fld := ⟨0x31008, 0, 1, 0⟩
def tmgPageOpStatStatus : Fld := ⟨0x31008, 8, 8, 0⟩
def tmgMapArgSession : Fld := ⟨0x31010, 0, 22, 0⟩
def tmgMapArgLayer : Fld := ⟨0x31010, 32, 8, 0⟩
def tmgMapArgPage : Fld := ⟨0x31010, 40, 16, 0⟩
def tmgPageRecData (i : Nat) : Fld := ⟨0x31020 + i * 8, 0, 64, 0⟩
def tmgPageHdrData (i : Nat) : Fld := ⟨0x31040 + i * 8, 0, 64, 0⟩
def expBusy (pg : Nat) : Fld := ⟨pg, 0, 1, 0⟩
def expCorruptSeen (pg : Nat) : Fld := ⟨pg, 1, 1, 0⟩
def expCredits (pg : Nat) : Fld := ⟨pg, 8, 8, 0⟩
def expLastHandle (pg : Nat) : Fld := ⟨0x8 + pg, 0, 32, 0⟩
def expLastBlock (pg : Nat) : Fld := ⟨0x8 + pg, 32, 8, 0⟩
def expLastReason (pg : Nat) : Fld := ⟨0x8 + pg, 40, 4, 0⟩
def mxgArrayPartition (k : Nat) (i : Nat) : Fld := ⟨0x180100 + k * 0x10000 + i * 8, 0, 4, 0⟩
def mxgArrayOwned (k : Nat) (i : Nat) : Fld := ⟨0x180100 + k * 0x10000 + i * 8, 4, 1, 0⟩
def mxgArrayFenced (k : Nat) (i : Nat) : Fld := ⟨0x180100 + k * 0x10000 + i * 8, 5, 1, 0⟩
def mxgArrayBusy (k : Nat) (i : Nat) : Fld := ⟨0x180100 + k * 0x10000 + i * 8, 6, 1, 0⟩
def mxgArrayGang (k : Nat) (i : Nat) : Fld := ⟨0x180100 + k * 0x10000 + i * 8, 7, 1, 0⟩
def mxgArrayWheel (k : Nat) (i : Nat) : Fld := ⟨0x180100 + k * 0x10000 + i * 8, 8, 8, 0⟩
def mxgChainTimeoutValueUs (k : Nat) : Fld := ⟨0x180200 + k * 0x10000, 0, 32, 500⟩
def mxgPbGangGangMax (k : Nat) (n : Nat) : Fld := ⟨0x18C000 + k * 0x10000 + n * 0x400, 0, 7, 64⟩
def mxgPbGangConflEn (k : Nat) (n : Nat) : Fld := ⟨0x18C000 + k * 0x10000 + n * 0x400, 8, 1, 1⟩
def mxgPbTailStatTailBindings (k : Nat) (n : Nat) : Fld := ⟨0x18C008 + k * 0x10000 + n * 0x400, 0, 16, 0⟩
def mxgPbTailStatResidentMib (k : Nat) (n : Nat) : Fld := ⟨0x18C008 + k * 0x10000 + n * 0x400, 16, 32, 0⟩
def mxgPbTailStatSpilledTurns (k : Nat) (n : Nat) : Fld := ⟨0x18C008 + k * 0x10000 + n * 0x400, 48, 16, 0⟩
def pmeGeomSets : Fld := ⟨0x40100, 0, 16, 16384⟩
def pmeGeomWays : Fld := ⟨0x40100, 16, 8, 128⟩
def pmeGeomBanksOk : Fld := ⟨0x40100, 24, 16, 0⟩
def pmeCascadeMode : Fld := ⟨0x40108, 0, 2, 0⟩
def pmeCascadePosition : Fld := ⟨0x40108, 2, 3, 0⟩
def pmeCascadeMembers : Fld := ⟨0x40108, 5, 4, 1⟩
def pmeCascadeIsolated : Fld := ⟨0x40108, 9, 1, 0⟩
def pmeColdBase : Fld := ⟨0x40110, 0, 52, 0⟩
def pmeColdCapBuckets : Fld := ⟨0x40118, 0, 32, 0⟩
def pmeColdCapFree : Fld := ⟨0x40118, 32, 32, 0⟩
def pmeColumnPoolCap : Fld := ⟨0x40120, 0, 32, 0⟩
def pmeColumnPoolFree : Fld := ⟨0x40120, 32, 32, 0⟩
def pmeFwdParentNode : Fld := ⟨0x40128, 0, 17, 0⟩
def pmeFwdFwdValid : Fld := ⟨0x40128, 17, 1, 0⟩
def pmeFwdMaxHops : Fld := ⟨0x40128, 18, 3, 2⟩
def pmeFwdMinGain : Fld := ⟨0x40128, 32, 16, 1⟩
def pmeFwdTimeoutValueUs : Fld := ⟨0x40130, 0, 32, 200⟩
def pmeAgeLookups : Fld := ⟨0x40138, 0, 32, 65536⟩
def pmeSlotTimeoutValueUs : Fld := ⟨0x40140, 0, 32, 1000000⟩
def pmePbPolicyPublish (n : Nat) : Fld := ⟨0x4C000 + n * 0x400, 0, 2, 0⟩
def pmePbPolicyColdEn (n : Nat) : Fld := ⟨0x4C000 + n * 0x400, 2, 1, 1⟩
def pmePbPolicyFwdEn (n : Nat) : Fld := ⟨0x4C000 + n * 0x400, 3, 1, 0⟩
def pmePbQuotaEntries (n : Nat) : Fld := ⟨0x4C008 + n * 0x400, 0, 32, 0⟩
def pmePbQuotaColdBuckets (n : Nat) : Fld := ⟨0x4C008 + n * 0x400, 32, 32, 0⟩
def pmePbUsedEntries (n : Nat) : Fld := ⟨0x4C010 + n * 0x400, 0, 32, 0⟩
def pmePbUsedColdEntries (n : Nat) : Fld := ⟨0x4C010 + n * 0x400, 32, 32, 0⟩
def pmePbSaltLo (n : Nat) : Fld := ⟨0x4C018 + n * 0x400, 0, 64, 0⟩
def pmePbSaltHi (n : Nat) : Fld := ⟨0x4C020 + n * 0x400, 0, 64, 0⟩
def pmeSetOpSet : Fld := ⟨0x41000, 0, 14, 0⟩
def pmeSetOpWay : Fld := ⟨0x41000, 14, 7, 0⟩
def pmeSetOpOp : Fld := ⟨0x41000, 21, 3, 0⟩
def pmeSetOpPartition : Fld := ⟨0x41000, 24, 4, 0⟩
def pmeSetOpGo : Fld := ⟨0x41000, 63, 1, 0⟩
def pmeSetOpStatBusy : Fld := ⟨0x41008, 0, 1, 0⟩
def pmeSetOpStatStatus : Fld := ⟨0x41008, 8, 8, 0⟩
def pmeEntryData (i : Nat) : Fld := ⟨0x41010 + i * 8, 0, 64, 0⟩
def hrcLateValueUs : Fld := ⟨0x20100, 0, 32, 10000⟩
def hrcLatencyT1Ns : Fld := ⟨0x20108, 0, 16, 3200⟩
def hrcLatencyT2Us : Fld := ⟨0x20108, 16, 16, 20⟩
def hrcLatencyT3Us : Fld := ⟨0x20108, 32, 16, 150⟩
def hrcLeadStatLeadNeed (i : Nat) : Fld := ⟨0x21000 + i * 8, 0, 5, 0⟩
def hrcLeadStatLayerNs (i : Nat) : Fld := ⟨0x21000 + i * 8, 8, 32, 0⟩
def hrcPbWeightResident (n : Nat) : Fld := ⟨0x2C000 + n * 0x400, 0, 1, 0⟩
def hrcPbAdapterAreaMib (n : Nat) : Fld := ⟨0x2C000 + n * 0x400, 16, 16, 4⟩
def hrcPbWindowMib (n : Nat) : Fld := ⟨0x2C000 + n * 0x400, 32, 32, 0⟩
def hrcPbReviveQT1 (n : Nat) : Fld := ⟨0x2C008 + n * 0x400, 0, 16, 0⟩
def hrcPbReviveQT2 (n : Nat) : Fld := ⟨0x2C008 + n * 0x400, 16, 16, 0⟩
def hrcPbReviveQT3 (n : Nat) : Fld := ⟨0x2C008 + n * 0x400, 32, 16, 0⟩
def tmgHeatCtrlPeriod : Fld := ⟨0x30118, 0, 32, 1048576⟩
def tmgHeatCtrlSweeping : Fld := ⟨0x30118, 32, 1, 0⟩
def tmgMigratePromoteT0 : Fld := ⟨0x30120, 0, 8, 48⟩
def tmgMigratePromoteT1 : Fld := ⟨0x30120, 8, 8, 16⟩
def tmgMigrateHiWater : Fld := ⟨0x30120, 16, 8, 92⟩
def tmgMigrateLoWater : Fld := ⟨0x30120, 24, 8, 88⟩
def tmgMigrateCleanAhead : Fld := ⟨0x30120, 32, 1, 1⟩
def tmgTierCapSize4k (i : Nat) : Fld := ⟨0x30140 + i * 8, 0, 40, 0⟩
def tmgTierCapPresent (i : Nat) : Fld := ⟨0x30140 + i * 8, 40, 1, 0⟩
def tmgTierCapDegraded (i : Nat) : Fld := ⟨0x30140 + i * 8, 41, 1, 0⟩
def tmgPbQuotaTk (n : Nat) (i : Nat) : Fld := ⟨0x3C010 + n * 0x400 + i * 8, 0, 32, 0⟩
def tmgPbUsedTk (n : Nat) (i : Nat) : Fld := ⟨0x3C010 + n * 0x400 + i * 8, 32, 32, 0⟩
def tmgPbPage4k (n : Nat) (i : Nat) : Fld := ⟨0x3C030 + n * 0x400 + i * 8, 0, 40, 0⟩
def tmgPbDirect4k (n : Nat) (i : Nat) : Fld := ⟨0x3C050 + n * 0x400 + i * 8, 0, 40, 0⟩
def ddcChanModuleGib (i : Nat) : Fld := ⟨0x70100 + i * 8, 0, 16, 0⟩
def ddcChanTrained (i : Nat) : Fld := ⟨0x70100 + i * 8, 16, 1, 0⟩
def ddcChanSpeedMts (i : Nat) : Fld := ⟨0x70100 + i * 8, 32, 16, 0⟩
def cxdPortLinkUp (k : Nat) : Fld := ⟨0x80100 + k * 0x10000, 0, 1, 0⟩
def cxdPortWidth (k : Nat) : Fld := ⟨0x80100 + k * 0x10000, 1, 5, 0⟩
def cxdPortSingle (k : Nat) : Fld := ⟨0x80100 + k * 0x10000, 6, 1, 0⟩
def cxdPortTrayHeat (k : Nat) : Fld := ⟨0x80100 + k * 0x10000, 7, 1, 0⟩
def nvcDrivePresent (k : Nat) : Fld := ⟨0xA0100 + k * 0x10000, 0, 1, 0⟩
def nvcDriveReady (k : Nat) : Fld := ⟨0xA0100 + k * 0x10000, 1, 1, 0⟩
def nvcDriveFailed (k : Nat) : Fld := ⟨0xA0100 + k * 0x10000, 2, 1, 0⟩
def nvcDriveQueues (k : Nat) : Fld := ⟨0xA0100 + k * 0x10000, 8, 8, 0⟩
def nvcDriveUnits4k (k : Nat) : Fld := ⟨0xA0100 + k * 0x10000, 16, 48, 0⟩
def nvcTimeoutValueUs (k : Nat) : Fld := ⟨0xA0108 + k * 0x10000, 0, 32, 500000⟩
def sluInfoInstances : Fld := ⟨0x150100, 0, 8, 61⟩
def sluInfoRequesters : Fld := ⟨0x150100, 8, 8, 33⟩
def sluHogSummaryHog : Fld := ⟨0x150108, 0, 61, 0⟩
def sluInstCtrlWindow (i : Nat) : Fld := ⟨0x151000 + i * 16, 0, 16, 4096⟩
def sluInstCtrlHoldMax (i : Nat) : Fld := ⟨0x151000 + i * 16, 16, 16, 64⟩
def sluInstCtrlQuarantine (i : Nat) : Fld := ⟨0x151000 + i * 16, 32, 8, 4⟩
def sluInstCtrlBulkEvery (i : Nat) : Fld := ⟨0x151000 + i * 16, 40, 8, 0⟩
def sluInstCtrlSysWeight (i : Nat) : Fld := ⟨0x151000 + i * 16, 48, 16, 256⟩
def sluInstStatHog (i : Nat) : Fld := ⟨0x151008 + i * 16, 0, 33, 0⟩
def sluInstQuarQuarantined (i : Nat) : Fld := ⟨0x151800 + i * 8, 0, 33, 0⟩
def sluPbWeightUrgent (n : Nat) (i : Nat) : Fld := ⟨0x15C000 + n * 0x400 + i * 8, 0, 16, 1024⟩
def sluPbWeightBulk (n : Nat) (i : Nat) : Fld := ⟨0x15C000 + n * 0x400 + i * 8, 16, 16, 256⟩
def sluPbWeightWaitU (n : Nat) (i : Nat) : Fld := ⟨0x15C000 + n * 0x400 + i * 8, 32, 16, 1⟩
def sluPbWeightWaitB (n : Nat) (i : Nat) : Fld := ⟨0x15C000 + n * 0x400 + i * 8, 48, 16, 64⟩
def xfePortEn (i : Nat) : Fld := ⟨0x50100 + i * 8, 0, 1, 1⟩
def xfePortState (i : Nat) : Fld := ⟨0x50100 + i * 8, 1, 3, 0⟩
def xfePortWidth (i : Nat) : Fld := ⟨0x50100 + i * 8, 4, 2, 0⟩
def xfePortGen (i : Nat) : Fld := ⟨0x50100 + i * 8, 6, 2, 0⟩
def xfePortRetrains (i : Nat) : Fld := ⟨0x50100 + i * 8, 8, 8, 0⟩
def xfePortCutoff (i : Nat) : Fld := ⟨0x50100 + i * 8, 16, 1, 0⟩
def xfeNodeAssigned : Fld := ⟨0x50140, 0, 17, 0⟩
def xfeNodeValid : Fld := ⟨0x50140, 17, 1, 0⟩
def xfeNodeStatic : Fld := ⟨0x50140, 18, 1, 0⟩
def xfeNodeStaticNode : Fld := ⟨0x50140, 36, 17, 0⟩
def xfeFmFmNode : Fld := ⟨0x50148, 0, 17, 0⟩
def xfeFmEpoch : Fld := ⟨0x50148, 32, 32, 0⟩
def xfeUid : Fld := ⟨0x50150, 0, 64, 0⟩
def xfeRtoInitUs : Fld := ⟨0x50158, 0, 16, 8⟩
def xfeRtoMaxUs : Fld := ⟨0x50158, 16, 16, 1000⟩
def xfeDeadTimeoutValueUs : Fld := ⟨0x50160, 0, 32, 100⟩
def xfeCcWInit : Fld := ⟨0x50168, 0, 9, 64⟩
def xfeCcWMin : Fld := ⟨0x50168, 9, 9, 4⟩
def xfeCcMarkThresh : Fld := ⟨0x50168, 24, 8, 50⟩
def xfeCcPaths : Fld := ⟨0x50168, 32, 5, 16⟩
def xfeAckCoalesce : Fld := ⟨0x50170, 0, 8, 16⟩
def xfeAckDelayNs : Fld := ⟨0x50170, 16, 16, 1000⟩
def xfeViolConnLimit : Fld := ⟨0x50178, 0, 16, 16⟩
def xfeViolPortLimit : Fld := ⟨0x50178, 16, 16, 256⟩
def xfeSpillEn : Fld := ⟨0x50180, 0, 1, 0⟩
def xfeSpillBase : Fld := ⟨0x50180, 12, 52, 0⟩
def xfeConnCacheEntries : Fld := ⟨0x50188, 0, 16, 16384⟩
def xfeConnCacheResident : Fld := ⟨0x50188, 16, 16, 0⟩
def xfeConnCachePinned : Fld := ⟨0x50188, 32, 16, 0⟩
def xfePbConnBase (n : Nat) : Fld := ⟨0x5C000 + n * 0x400, 0, 20, 0⟩
def xfePbConnCount (n : Nat) : Fld := ⟨0x5C000 + n * 0x400, 20, 21, 0⟩
def xfePbConnOpen (n : Nat) : Fld := ⟨0x5C008 + n * 0x400, 0, 21, 0⟩
def xfeRouteOpFirst : Fld := ⟨0x51000, 0, 17, 0⟩
def xfeRouteOpLast : Fld := ⟨0x51000, 17, 17, 0⟩
def xfeRouteOpMask : Fld := ⟨0x51000, 34, 8, 0⟩
def xfeRouteOpOp : Fld := ⟨0x51000, 42, 2, 0⟩
def xfeRouteOpGo : Fld := ⟨0x51000, 63, 1, 0⟩
def xfeRouteStatBusy : Fld := ⟨0x51008, 0, 1, 0⟩
def xfeRouteStatMask : Fld := ⟨0x51008, 8, 8, 0⟩
def xfeConnOpConn : Fld := ⟨0x51010, 0, 20, 0⟩
def xfeConnOpOp : Fld := ⟨0x51010, 20, 4, 0⟩
def xfeConnOpGo : Fld := ⟨0x51010, 63, 1, 0⟩
def xfeConnRecData (i : Nat) : Fld := ⟨0x51018 + i * 8, 0, 64, 0⟩
def xfePbRegionBase (n : Nat) : Fld := ⟨0x5C010 + n * 0x400, 0, 16, 0⟩
def xfePbRegionCount (n : Nat) : Fld := ⟨0x5C010 + n * 0x400, 16, 17, 0⟩
def xfePbGroupBase (n : Nat) : Fld := ⟨0x5C018 + n * 0x400, 0, 12, 0⟩
def xfePbGroupCount (n : Nat) : Fld := ⟨0x5C018 + n * 0x400, 12, 13, 0⟩
def xfePbWrQuota (n : Nat) : Fld := ⟨0x5C020 + n * 0x400, 0, 16, 0⟩
def xfePbWrUsed (n : Nat) : Fld := ⟨0x5C020 + n * 0x400, 16, 16, 0⟩
def xfePbRegionsUsed (n : Nat) : Fld := ⟨0x5C020 + n * 0x400, 32, 16, 0⟩
def xfeRegionOpIndex : Fld := ⟨0x51060, 0, 16, 0⟩
def xfeRegionOpOp : Fld := ⟨0x51060, 16, 4, 0⟩
def xfeRegionOpGo : Fld := ⟨0x51060, 63, 1, 0⟩
def xfeRegionStatBusy : Fld := ⟨0x51068, 0, 1, 0⟩
def xfeRegionStatStatus : Fld := ⟨0x51068, 8, 8, 0⟩
def xfeRegionRecData (i : Nat) : Fld := ⟨0x51070 + i * 8, 0, 64, 0⟩
def hifLinkUp : Fld := ⟨0x100, 0, 1, 0⟩
def hifLinkWidth : Fld := ⟨0x100, 1, 4, 0⟩
def hifLinkMld : Fld := ⟨0x100, 5, 1, 0⟩
def hifLinkBound : Fld := ⟨0x100, 16, 16, 0⟩
def hifMgmtLd : Fld := ⟨0x108, 0, 4, 0⟩
def hifPbFuncBindLd (n : Nat) : Fld := ⟨0xC000 + n * 0x400, 0, 4, 0⟩
def hifPbFuncPresent (n : Nat) : Fld := ⟨0xC000 + n * 0x400, 4, 1, 0⟩
def hifPbAqSqBase (n : Nat) : Fld := ⟨0xC008 + n * 0x400, 12, 52, 0⟩
def hifPbAqCqBase (n : Nat) : Fld := ⟨0xC010 + n * 0x400, 12, 52, 0⟩
def hifPbAqCtrlSqSize (n : Nat) : Fld := ⟨0xC018 + n * 0x400, 0, 16, 0⟩
def hifPbAqCtrlCqSize (n : Nat) : Fld := ⟨0xC018 + n * 0x400, 16, 16, 0⟩
def hifPbAqCtrlEn (n : Nat) : Fld := ⟨0xC018 + n * 0x400, 32, 1, 0⟩
def hifPbQActive (n : Nat) : Fld := ⟨0xC020 + n * 0x400, 0, 64, 0⟩
def hifPbQError (n : Nat) : Fld := ⟨0xC028 + n * 0x400, 0, 64, 0⟩
def hifPbInflight (n : Nat) : Fld := ⟨0xC030 + n * 0x400, 0, 13, 0⟩
def hifPbHeld (n : Nat) : Fld := ⟨0xC030 + n * 0x400, 32, 16, 0⟩
def cwpWindowSize : Fld := ⟨0x60100, 0, 11, 0⟩
def cwpDirEntries : Fld := ⟨0x60108, 0, 23, 4194304⟩
def cwpDirUsed : Fld := ⟨0x60108, 32, 23, 0⟩
def cwpRecallTimeoutUs : Fld := ⟨0x60110, 0, 32, 10000⟩
def cwpDrainBoundUs : Fld := ⟨0x60118, 0, 32, 1000⟩
def cwpHostsHolding : Fld := ⟨0x60120, 0, 16, 0⟩
def cwpHostsDead : Fld := ⟨0x60120, 16, 16, 0⟩
def cwpExtentWbase (i : Nat) : Fld := ⟨0x61000 + i * 16, 0, 10, 0⟩
def cwpExtentSize (i : Nat) : Fld := ⟨0x61000 + i * 16, 10, 11, 0⟩
def cwpExtentPartition (i : Nat) : Fld := ⟨0x61000 + i * 16, 21, 4, 0⟩
def cwpExtentState (i : Nat) : Fld := ⟨0x61000 + i * 16, 25, 3, 0⟩
def cwpExtentHosts (i : Nat) : Fld := ⟨0x61000 + i * 16, 28, 16, 0⟩
def cwpExtentOrphans (i : Nat) : Fld := ⟨0x61000 + i * 16, 44, 16, 0⟩
def cwpExtentTbase (i : Nat) : Fld := ⟨0x61008 + i * 16, 0, 14, 0⟩
def cwpPbExtent256m (n : Nat) : Fld := ⟨0x6C000 + n * 0x400, 0, 11, 0⟩
def cwpPbPoisonedLines (n : Nat) : Fld := ⟨0x6C008 + n * 0x400, 0, 32, 0⟩
def mgcPbCtrlState (n : Nat) : Fld := ⟨0x13C000 + n * 0x400, 0, 3, 0⟩
def mgcPbCtrlProtected (n : Nat) : Fld := ⟨0x13C000 + n * 0x400, 3, 1, 0⟩
def mgcPbCtrlDrained (n : Nat) : Fld := ⟨0x13C000 + n * 0x400, 4, 1, 0⟩
def mgcPbArrays0 (n : Nat) : Fld := ⟨0x13C008 + n * 0x400, 0, 64, 0⟩
def mgcPbArrays1 (n : Nat) : Fld := ⟨0x13C010 + n * 0x400, 0, 16, 0⟩
def mgcPbSessionsBase (n : Nat) : Fld := ⟨0x13C018 + n * 0x400, 0, 22, 0⟩
def mgcPbSessionsCount (n : Nat) : Fld := ⟨0x13C018 + n * 0x400, 22, 23, 0⟩
def mgcPbExtentBase4k (n : Nat) (i : Nat) : Fld := ⟨0x13C020 + n * 0x400 + i * 24, 0, 40, 0⟩
def mgcPbExtentPage4k (n : Nat) (i : Nat) : Fld := ⟨0x13C028 + n * 0x400 + i * 24, 0, 40, 0⟩
def mgcPbExtentDirect4k (n : Nat) (i : Nat) : Fld := ⟨0x13C030 + n * 0x400 + i * 24, 0, 40, 0⟩
def mgcPbConnBase (n : Nat) : Fld := ⟨0x13C080 + n * 0x400, 0, 20, 0⟩
def mgcPbConnCount (n : Nat) : Fld := ⟨0x13C080 + n * 0x400, 20, 21, 0⟩
def mgcPbRegionBase (n : Nat) : Fld := ⟨0x13C088 + n * 0x400, 0, 16, 0⟩
def mgcPbRegionCount (n : Nat) : Fld := ⟨0x13C088 + n * 0x400, 16, 17, 0⟩
def mgcPbGroupBase (n : Nat) : Fld := ⟨0x13C090 + n * 0x400, 0, 12, 0⟩
def mgcPbGroupCount (n : Nat) : Fld := ⟨0x13C090 + n * 0x400, 12, 13, 0⟩
def mgcPbWrQuota (n : Nat) : Fld := ⟨0x13C098 + n * 0x400, 0, 16, 0⟩
def mgcPbTenantKeyHash (n : Nat) (i : Nat) : Fld := ⟨0x13C0A0 + n * 0x400 + i * 8, 0, 64, 0⟩
def mgcPbPeer (n : Nat) (i : Nat) : Fld := ⟨0x13C200 + n * 0x400 + i * 8, 0, 64, 0⟩
def secLifecycleState : Fld := ⟨0x120100, 0, 2, 0⟩
def secLifecycleStepping : Fld := ⟨0x120100, 8, 8, 161⟩
def secFwVersion : Fld := ⟨0x120108, 0, 32, 0⟩
def secFwSvn : Fld := ⟨0x120108, 32, 32, 0⟩
def secFwMinSvnMin : Fld := ⟨0x120110, 0, 7, 0⟩
def secFwMinSignerRevoked : Fld := ⟨0x120110, 8, 4, 0⟩
def secFwLoadBase : Fld := ⟨0x120118, 12, 52, 0⟩
def secFwLoadCtrlLen4k : Fld := ⟨0x120120, 0, 32, 0⟩
def secFwLoadCtrlGo : Fld := ⟨0x120120, 63, 1, 0⟩
def secFwStatBusy : Fld := ⟨0x120128, 0, 1, 0⟩
def secFwStatResult : Fld := ⟨0x120128, 8, 8, 0⟩
def secRomMeasData (i : Nat) : Fld := ⟨0x120140 + i * 8, 0, 64, 0⟩
def secFwMeasData (i : Nat) : Fld := ⟨0x120180 + i * 8, 0, 64, 0⟩
def secDebugEvents : Fld := ⟨0x1201C0, 0, 64, 0⟩
def secPbKeysMemory (n : Nat) : Fld := ⟨0x12C000 + n * 0x400, 0, 1, 0⟩
def secPbKeysFabric (n : Nat) : Fld := ⟨0x12C000 + n * 0x400, 1, 1, 0⟩
def secPbKeysExchange (n : Nat) : Fld := ⟨0x12C000 + n * 0x400, 2, 1, 0⟩
def secPbConfigMeas (n : Nat) (i : Nat) : Fld := ⟨0x12C008 + n * 0x400 + i * 8, 0, 64, 0⟩
def frcCapsuleUnits4k : Fld := ⟨0x140100, 0, 40, 0⟩
def frcCapsuleStatFree4k : Fld := ⟨0x140108, 0, 40, 0⟩
def frcCapsuleStatArea : Fld := ⟨0x140108, 40, 1, 0⟩
def frcStagingSizeMib : Fld := ⟨0x140110, 0, 16, 0⟩
def frcStagingUsedMib : Fld := ⟨0x140110, 16, 16, 0⟩
def frcSelftestCtrlTransientLimit : Fld := ⟨0x140118, 0, 8, 3⟩
def frcPartnerHostLimit : Fld := ⟨0x140120, 0, 16, 4096⟩
def frcPartnerTrayLimit : Fld := ⟨0x140120, 16, 16, 64⟩
def frcPartnerDriveLimit : Fld := ⟨0x140120, 32, 16, 16⟩
def frcPbCtrlEn (n : Nat) : Fld := ⟨0x14C000 + n * 0x400, 0, 1, 0⟩
def frcPbRetainTicks (n : Nat) : Fld := ⟨0x14C000 + n * 0x400, 32, 32, 220752000⟩
def frcPbEvringBase (n : Nat) : Fld := ⟨0x14C008 + n * 0x400, 12, 52, 0⟩
def frcPbEvringEntries (n : Nat) : Fld := ⟨0x14C010 + n * 0x400, 0, 16, 0⟩
def frcPbEvringTail (n : Nat) : Fld := ⟨0x14C010 + n * 0x400, 16, 16, 0⟩
def frcPbEvringHead (n : Nat) : Fld := ⟨0x14C010 + n * 0x400, 32, 16, 0⟩
def frcPbCapsulesOpen (n : Nat) : Fld := ⟨0x14C018 + n * 0x400, 0, 32, 0⟩
def frcPbDropped (n : Nat) : Fld := ⟨0x14C018 + n * 0x400, 32, 32, 0⟩
def mgcPwrStatState : Fld := ⟨0x130100, 0, 3, 0⟩
def mgcPwrStatStep : Fld := ⟨0x130100, 4, 4, 0⟩
def mgcPwrStatCapLimiting : Fld := ⟨0x130100, 8, 1, 0⟩
def mgcPwrStatThermLimiting : Fld := ⟨0x130100, 9, 1, 0⟩
def mgcPwrStatVinLimiting : Fld := ⟨0x130100, 10, 1, 0⟩
def mgcPwrStatVinExcursion : Fld := ⟨0x130100, 11, 1, 0⟩
def mgcPwrStatAclkMhz : Fld := ⟨0x130100, 16, 16, 1500⟩
def mgcPwrMeasVinMv : Fld := ⟨0x130108, 0, 16, 0⟩
def mgcPwrMeasIinMa : Fld := ⟨0x130108, 16, 16, 0⟩
def mgcPwrMeasPinW : Fld := ⟨0x130108, 32, 16, 0⟩
def mgcPwrCapWatts : Fld := ⟨0x130110, 0, 16, 1050⟩
def mgcPwrCtrlTarget : Fld := ⟨0x130118, 0, 3, 0⟩
def mgcPwrCtrlStatus : Fld := ⟨0x130118, 8, 8, 0⟩
def mgcPwrCtrlGo : Fld := ⟨0x130118, 63, 1, 0⟩
def mgcThermDieThrottleC : Fld := ⟨0x130120, 0, 8, 100⟩
def mgcThermHbmThrottleC : Fld := ⟨0x130120, 8, 8, 95⟩
def mgcResetCtrlKey : Fld := ⟨0x130128, 0, 16, 0⟩
def mgcResetCtrlWarm : Fld := ⟨0x130128, 16, 1, 0⟩
def mgcResetCtrlLastCause : Fld := ⟨0x130128, 17, 2, 0⟩
def mgcBootStage : Fld := ⟨0x130130, 0, 4, 0⟩
def mgcBootHbmTrained : Fld := ⟨0x130130, 4, 1, 0⟩
def mgcBootT0Wiped : Fld := ⟨0x130130, 5, 1, 0⟩
def mgcBootDimmTrained : Fld := ⟨0x130130, 6, 1, 0⟩
def mgcBootT1Wiped : Fld := ⟨0x130130, 7, 1, 0⟩
def mgcBootFwRunning : Fld := ⟨0x130130, 8, 1, 0⟩
def mgcBootDataReady : Fld := ⟨0x130130, 9, 1, 0⟩
def mgcBootMsSinceReset : Fld := ⟨0x130130, 32, 32, 0⟩
def mgcStrapPos : Fld := ⟨0x130138, 0, 3, 0⟩
def mgcStrapPerstScope : Fld := ⟨0x130138, 3, 1, 0⟩
def mgcStrapI3cSa : Fld := ⟨0x130138, 4, 2, 0⟩
def mgcTempCelsiusX8 (i : Nat) : Fld := ⟨0x130140 + i * 8, 0, 16, 0⟩
def mgcTempValid (i : Nat) : Fld := ⟨0x130140 + i * 8, 16, 1, 0⟩
def mgcPinLevel (i : Nat) : Fld := ⟨0x1301C0 + i * 8, 0, 1, 0⟩
def mgcPinMasked (i : Nat) : Fld := ⟨0x1301C0 + i * 8, 1, 1, 0⟩
def mgcPinGlitches (i : Nat) : Fld := ⟨0x1301C0 + i * 8, 8, 16, 0⟩
def mgcPinDropped (i : Nat) : Fld := ⟨0x1301C0 + i * 8, 24, 16, 0⟩
def mgcPinStuck (i : Nat) : Fld := ⟨0x1301C0 + i * 8, 40, 8, 0⟩
/-- BLK_ID.TYPE, BLK_ID.INSTANCE and the number of instances of the page in a slot (16 R510); 0 in a reserved slot. -/
def slotType (p : Nat) : Nat :=
  if p < 8 then p + 1 else if p < 10 then 9 else if p < 18 then 0xA else if p < 22 then p - 7
  else if p < 24 then 0 else if p < 28 then 0x10 else if p < 32 then 0x11 else if p < 40 then 0x12 else 0
def slotInstance (p : Nat) : Nat :=
  if p < 8 then 0 else if p < 10 then p - 8 else if p < 18 then p - 10 else if p < 24 then 0 else if p < 28 then p - 24
  else if p < 32 then p - 28 else if p < 40 then p - 32 else 0
def slotBanks (p : Nat) : Nat := if p < 7 ∨ (18 ≤ p ∧ p < 22) ∨ p = 24 then 1 else 0
def slotTests (p : Nat) : Nat := if p = 4 ∨ p = 5 ∨ (7 ≤ p ∧ p < 18) ∨ (24 ≤ p ∧ p < 40) then 1 else 0
def slotInstances (p : Nat) : Nat := if p = 7 then 16 else if p = 21 then 61 else 1
def blkIdType (p : Nat) : Fld := ⟨p * 0x10000, 0, 8, slotType p⟩
def blkIdInstance (p : Nat) : Fld := ⟨p * 0x10000, 8, 8, slotInstance p⟩
def blkIdMagic (p : Nat) : Fld := ⟨p * 0x10000, 16, 16, 19266⟩
def blkVerLayout (p : Nat) : Fld := ⟨0x8 + p * 0x10000, 0, 16, 1⟩
def blkVerStepping (p : Nat) : Fld := ⟨0x8 + p * 0x10000, 16, 8, 161⟩
def blkCapExpert (p : Nat) : Fld := ⟨0x10 + p * 0x10000, 0, 1, 1⟩
def blkCapBanks (p : Nat) : Fld := ⟨0x10 + p * 0x10000, 1, 1, slotBanks p⟩
def blkCapSelftest (p : Nat) : Fld := ⟨0x10 + p * 0x10000, 2, 1, slotTests p⟩
def blkCapInstances (p : Nat) : Fld := ⟨0x10 + p * 0x10000, 8, 8, slotInstances p⟩
def blkCtrlTraceEn (p : Nat) : Fld := ⟨0x18 + p * 0x10000, 0, 1, 0⟩
def blkCtrlInject (p : Nat) : Fld := ⟨0x18 + p * 0x10000, 1, 2, 0⟩
def blkStatReady (p : Nat) : Fld := ⟨0x20 + p * 0x10000, 0, 1, 0⟩
def blkStatFenced (p : Nat) : Fld := ⟨0x20 + p * 0x10000, 1, 1, 0⟩
def blkStatExpertOpen (p : Nat) : Fld := ⟨0x20 + p * 0x10000, 2, 1, 0⟩
def blkExpertUnlockMaskPart (p : Nat) : Fld := ⟨0x28 + p * 0x10000, 0, 16, 0⟩
def blkExpertUnlockMaskOper (p : Nat) : Fld := ⟨0x28 + p * 0x10000, 16, 1, 0⟩
def blkExpertUnlockKey (p : Nat) : Fld := ⟨0x28 + p * 0x10000, 48, 16, 0⟩
def blkErrlogHeadIndex (p : Nat) : Fld := ⟨0x30 + p * 0x10000, 0, 6, 0⟩
def blkErrlogTailIndex (p : Nat) : Fld := ⟨0x38 + p * 0x10000, 0, 6, 0⟩
def blkErrstateState (p : Nat) : Fld := ⟨0x40 + p * 0x10000, 0, 2, 0⟩
def blkErrstateSecondary (p : Nat) : Fld := ⟨0x40 + p * 0x10000, 2, 1, 0⟩
def blkErrstateInstance (p : Nat) : Fld := ⟨0x40 + p * 0x10000, 8, 8, 0⟩
def blkErrstateOverflow (p : Nat) : Fld := ⟨0x40 + p * 0x10000, 16, 16, 0⟩
def blkErrstateUsed (p : Nat) : Fld := ⟨0x40 + p * 0x10000, 32, 7, 0⟩
def blkEvMaskMask (p : Nat) : Fld := ⟨0x48 + p * 0x10000, 0, 64, 0⟩
def blkEvPendPend (p : Nat) : Fld := ⟨0x50 + p * 0x10000, 0, 64, 0⟩
def blkSelftestResource (p : Nat) : Fld := ⟨0x58 + p * 0x10000, 0, 40, 0⟩
def blkSelftestKind (p : Nat) : Fld := ⟨0x58 + p * 0x10000, 40, 4, 0⟩
def blkSelftestResult (p : Nat) : Fld := ⟨0x58 + p * 0x10000, 48, 2, 0⟩
def blkSelftestBusy (p : Nat) : Fld := ⟨0x58 + p * 0x10000, 50, 1, 0⟩
def blkSelftestGo (p : Nat) : Fld := ⟨0x58 + p * 0x10000, 63, 1, 0⟩

/-- Function 0's admin pair: the registers of R383 at 0x0110 to 0x0127. -/
def hif0AqSqBase : Fld := ⟨0x110, 12, 52, 0⟩
def hif0AqCqBase : Fld := ⟨0x118, 12, 52, 0⟩
def hif0AqCtrlSqSize : Fld := ⟨0x120, 0, 16, 0⟩
def hif0AqCtrlCqSize : Fld := ⟨0x120, 16, 16, 0⟩
def hif0AqCtrlEn : Fld := ⟨0x120, 32, 1, 0⟩

/-- The device-level host ring (14, FRC registers): the bank layout at 0x0128 to 0x0138. -/
def frcDevEvringBase : Fld := ⟨0x140128, 12, 52, 0⟩
def frcDevEvringEntries : Fld := ⟨0x140130, 0, 16, 0⟩
def frcDevEvringTail : Fld := ⟨0x140130, 16, 16, 0⟩
def frcDevEvringHead : Fld := ⟨0x140130, 32, 16, 0⟩
def frcDevDropped : Fld := ⟨0x140138, 0, 32, 0⟩

end Sys2Proof.Machine.Reg

namespace Sys2Proof.Machine.Ctr

def ssqTurnsAdmitted : Nat := 0x18000
def ssqTurnsQueued : Nat := 0x18008
def ssqTurnsRefused : Nat := 0x18010
def ssqTurnsCancelled : Nat := 0x18018
def ssqLateCancels : Nat := 0x18020
def ssqRevives : Nat := 0x18028
def ssqReviveHoldLayers : Nat := 0x18030
def ssqShaftOrderErrors : Nat := 0x18038
def ssqBeatResyncs : Nat := 0x18040
def ssqWheelStalls : Nat := 0x18048
def ssqSessionsExpired : Nat := 0x18050
def ssqSessionsRetired : Nat := 0x18058
def tmgPagesSealed : Nat := 0x38000
def tmgPagesForcedFr1 : Nat := 0x38008
def tmgBlocksEscaped : Nat := 0x38010
def tmgCopyOnWrite : Nat := 0x38018
def tmgPagesRolledBack : Nat := 0x38020
def tmgPagesFolded : Nat := 0x38028
def tmgRecoveriesOk : Nat := 0x38030
def tmgPagesLost : Nat := 0x38038
def expBlocksFr1 (pg : Nat) : Nat := pg + 0x0
def expBlocksFr2 (pg : Nat) : Nat := pg + 0x8
def expBlocksFr4 (pg : Nat) : Nat := pg + 0x10
def expEscapeRecords (pg : Nat) : Nat := pg + 0x18
def expPagesCorrupt (pg : Nat) : Nat := pg + 0x20
def expCreditStallCycles (pg : Nat) : Nat := pg + 0x28
def mxgItemsRun (k : Nat) : Nat := 0x188000 + k * 0x10000
def mxgProjectionItemsRun (k : Nat) : Nat := 0x188008 + k * 0x10000
def mxgGangsDealt (k : Nat) : Nat := 0x188010 + k * 0x10000
def mxgPageReadsShared (k : Nat) : Nat := 0x188018 + k * 0x10000
def mxgLatentRereads (k : Nat) : Nat := 0x188020 + k * 0x10000
def mxgCreditStallCycles (k : Nat) : Nat := 0x188028 + k * 0x10000
def mxgFormatRefusals (k : Nat) : Nat := 0x188030 + k * 0x10000
def mxgNonfiniteEvents (k : Nat) : Nat := 0x188038 + k * 0x10000
def mxgExchangeInvalid (k : Nat) : Nat := 0x188040 + k * 0x10000
def mxgChainTimeouts (k : Nat) : Nat := 0x188048 + k * 0x10000
def mxgTailSteps : Nat := 0x188100
def mxgLogitRecords : Nat := 0x188108
def mxgSelections : Nat := 0x188110
def mxgCandidatesOffered : Nat := 0x188118
def mxgCandidatesAccepted : Nat := 0x188120
def mxgPenaltySpillEntries : Nat := 0x188128
def mxgCountRebuilds : Nat := 0x188130
def mxgTurnsEndedEosOrStop : Nat := 0x188138
def mxgTurnsEndedMaxNew : Nat := 0x188140
def mxgTailExchangeInvalid : Nat := 0x188148
def pmeLookups : Nat := 0x48000
def pmeHits : Nat := 0x48008
def pmeFalseHits : Nat := 0x48010
def pmeColdProbes : Nat := 0x48018
def pmeColdHits : Nat := 0x48020
def pmeInsertions : Nat := 0x48028
def pmeEvictions : Nat := 0x48030
def pmeHoleMoves : Nat := 0x48038
def pmeDedupRepoints : Nat := 0x48040
def pmeDivergentPublishes : Nat := 0x48048
def pmeAttaches : Nat := 0x48050
def pmeImports : Nat := 0x48058
def pmeCascadeFrames : Nat := 0x48060
def pmeFwdLookups : Nat := 0x48068
def pmeFwdTimeouts : Nat := 0x48070
def pmeEntryEccCorrected : Nat := 0x48078
def pmeColdDrops : Nat := 0x48080
def hrcUrgentBytes : Nat := 0x28000
def hrcBulkBytes : Nat := 0x28008
def hrcWeightBytes : Nat := 0x28010
def hrcRevivePages : Nat := 0x28018
def hrcLatePages : Nat := 0x28020
def hrcFailedReads : Nat := 0x28028
def hrcLeadShortEvents : Nat := 0x28030
def hrcAdapterOverflows : Nat := 0x28038
def tmgPromotions : Nat := 0x38040
def tmgReliefMoves : Nat := 0x38048
def tmgReliefRepoints : Nat := 0x38050
def tmgLadderMoves : Nat := 0x38058
def tmgCleanAheadCopies : Nat := 0x38060
def tmgDeadPageMoves : Nat := 0x38068
def tmgHeatSweeps : Nat := 0x38070
def tmgMoveFailures : Nat := 0x38078
def tmgAllocWaits : Nat := 0x38080
def ddcCeChannel (j : Nat) : Nat := 0x78000 + j * 8
def ddcUeChannel (j : Nat) : Nat := 0x78080 + j * 8
def cxdReadUnits (k : Nat) : Nat := 0x88000 + k * 0x10000
def cxdWriteUnits (k : Nat) : Nat := 0x88008 + k * 0x10000
def cxdPoisonReads (k : Nat) : Nat := 0x88010 + k * 0x10000
def cxdLinkDowns (k : Nat) : Nat := 0x88018 + k * 0x10000
def cxdHotlistRecords (k : Nat) : Nat := 0x88020 + k * 0x10000
def nvcReadUnits (k : Nat) : Nat := 0xA8000 + k * 0x10000
def nvcWriteUnits (k : Nat) : Nat := 0xA8008 + k * 0x10000
def nvcDeallocatedUnits (k : Nat) : Nat := 0xA8010 + k * 0x10000
def nvcTimeouts (k : Nat) : Nat := 0xA8018 + k * 0x10000
def nvcMediaErrors (k : Nat) : Nat := 0xA8020 + k * 0x10000
def sluUrgentGrants (i : Nat) : Nat := 0x158000 + i * 0x40
def sluBulkGrants (i : Nat) : Nat := 0x158008 + i * 0x40
def sluForcedWins (i : Nat) : Nat := 0x158010 + i * 0x40
def sluPreemptions (i : Nat) : Nat := 0x158018 + i * 0x40
def sluHogCutoffs (i : Nat) : Nat := 0x158020 + i * 0x40
def sluReservedBulkGrants (i : Nat) : Nat := 0x158028 + i * 0x40
def xfeTxPackets (j : Nat) : Nat := 0x58000 + j * 8
def xfeRxPackets (j : Nat) : Nat := 0x58040 + j * 8
def xfeFecUncorrected (j : Nat) : Nat := 0x58080 + j * 8
def xfeRetransmissions : Nat := 0x580C0
def xfeDuplicates : Nat := 0x580C8
def xfeStale : Nat := 0x580D0
def xfeHeaderCheck : Nat := 0x580D8
def xfeNotAssigned : Nat := 0x580E0
def xfeMisrouted : Nat := 0x580E8
def xfeTrackerExhausted : Nat := 0x580F0
def xfeMarksReceived : Nat := 0x580F8
def xfeWindowDecreases : Nat := 0x58100
def xfeNaksSent : Nat := 0x58108
def xfeNaksReceived : Nat := 0x58110
def xfeProtocolViolations : Nat := 0x58118
def xfeConnFailed : Nat := 0x58120
def xfeSpillEvictions : Nat := 0x58128
def xfeSpillFetches : Nat := 0x58130
def xfeSpillDrops : Nat := 0x58138
def xfeWritesPlaced : Nat := 0x58200
def xfeReadsServed : Nat := 0x58208
def xfeAtomics : Nat := 0x58210
def xfeCasNotSwapped : Nat := 0x58218
def xfeReduceElements : Nat := 0x58220
def xfeExactInvalid : Nat := 0x58228
def xfeFlushes : Nat := 0x58230
def xfeMcastCopies : Nat := 0x58238
def xfeTriggersConsumed : Nat := 0x58240
def xfeWrFired : Nat := 0x58248
def xfeAccessNaksSent : Nat := 0x58250
def xfeAccessNaksReceived : Nat := 0x58258
def xfeSenderRefusals : Nat := 0x58260
def xfeRevocations : Nat := 0x58268
def xfeDeadTargetOps : Nat := 0x58270
def xfeLateResponses : Nat := 0x58278
def xfeRemoteLoads : Nat := 0x58280
def hifCommandsFetched : Nat := 0x8000
def hifCompletionsPosted : Nat := 0x8008
def hifCompletionsDiscarded : Nat := 0x8010
def hifDoorbellErrors : Nat := 0x8018
def hifMsixSent : Nat := 0x8020
def hifLinkDowns : Nat := 0x8028
def hifLdResets : Nat := 0x8030
def cwpHostReads : Nat := 0x68000
def cwpHostWrites : Nat := 0x68008
def cwpRecallsInv : Nat := 0x68010
def cwpRecallsData : Nat := 0x68018
def cwpDirEvictions : Nat := 0x68020
def cwpRecallTimeouts : Nat := 0x68028
def cwpHostsDead : Nat := 0x68030
def cwpLinesPoisoned : Nat := 0x68038
def cwpPoisonReads : Nat := 0x68040
def cwpAccessDenied : Nat := 0x68048
def cwpPublishes : Nat := 0x68050
def cwpPublishConflicts : Nat := 0x68058
def cwpExtentsWiped : Nat := 0x68060
def secReportsSigned : Nat := 0x128000
def secKeyExchanges : Nat := 0x128008
def secKeyAuthFailures : Nat := 0x128010
def secMemTagFailures : Nat := 0x128018
def secFabricTagFailures : Nat := 0x128020
def secDebugHalts : Nat := 0x128028
def secDebugReads : Nat := 0x128030
def secPartitionWipes : Nat := 0x128038
def frcEventsLogged : Nat := 0x148000
def frcEventsDroppedHost : Nat := 0x148008
def frcCapsulesSealed : Nat := 0x148010
def frcCapsuleBytes : Nat := 0x148018
def frcCapsulesOverwritten : Nat := 0x148020
def frcCapsulesIncomplete : Nat := 0x148028
def frcRecorderWaits : Nat := 0x148030
def frcSelftestsRun : Nat := 0x148038
def frcSelftestTransient : Nat := 0x148040
def frcSelftestLasting : Nat := 0x148048
def frcUnitsWithdrawn : Nat := 0x148050
def frcReplaysRun : Nat := 0x148058
def frcReplayDivergences : Nat := 0x148060
def frcPartnerCutoffs : Nat := 0x148068
def mgcEnergyMj : Nat := 0x138000
def mgcThrottledPeriods : Nat := 0x138008
def mgcCapStepRises : Nat := 0x138010
def mgcThermalStepRises : Nat := 0x138018
def mgcVinExcursions : Nat := 0x138020
def mgcPinGlitches : Nat := 0x138028
def mgcPowerStateChanges : Nat := 0x138030

end Sys2Proof.Machine.Ctr
end

