-- ==== Sys2Proof/Machine/Ops.lean ====
section
/-!
DEFINITION. Machine/Ops.lean: the operations every block uses: sparse tables, tier memories, register fields, counters,
free values, outputs and the event log (14 R456, R457).
-/
set_option cleanup.letToHave false
namespace Sys2Proof.Machine

open Sys2Proof

-- Sparse tables

/-- The entry of a key. -/
def tget {α : Type} : Table α → Nat → Option α
  | [], _ => none
  | (k, v) :: t, i => if k = i then some v else tget t i

/-- Write an entry, keys kept rising. -/
def tset {α : Type} : Table α → Nat → α → Table α
  | [], i, v => [(i, v)]
  | (k, u) :: t, i, v => if i < k then (i, v) :: (k, u) :: t else if i = k then (i, v) :: t else (k, u) :: tset t i v

/-- Remove an entry. -/
def tdel {α : Type} : Table α → Nat → Table α
  | [], _ => []
  | (k, u) :: t, i => if k = i then t else (k, u) :: tdel t i

/-- Change an entry if there is one. -/
def tmod {α : Type} (t : Table α) (i : Nat) (f : α → α) : Table α :=
  match tget t i with
  | some v => tset t i (f v)
  | none => t

/-- The entry of a key, or a given value. -/
def tgetD {α : Type} (t : Table α) (i : Nat) (d : α) : α := (tget t i).getD d

/-- A table of counts, 0 entries removed. -/
def tcount (t : Table Nat) (i v : Nat) : Table Nat := if v = 0 then tdel t i else tset t i v

def tkeys {α : Type} (t : Table α) : List Nat := t.map (·.1)
def tvals {α : Type} (t : Table α) : List α := t.map (·.2)

/-- Keys strictly rising. -/
def Table.wf {α : Type} : Table α → Bool
  | [] => true
  | [_] => true
  | (k, _) :: (l, v) :: t => decide (k < l) && Table.wf ((l, v) :: t)

-- Bits and bytes

/-- Bits [lo + w - 1 : lo] of a number. -/
def bits (v lo w : Nat) : Nat := v / 2 ^ lo % 2 ^ w

/-- Bit `i` of a mask. -/
def bit (v i : Nat) : Bool := v / 2 ^ i % 2 == 1

/-- Set or clear bit `i` of a mask. -/
def setBit (v i : Nat) : Nat := if bit v i then v else v + 2 ^ i
def clrBit (v i : Nat) : Nat := if bit v i then v - 2 ^ i else v

/-- Positions below `n` of the set bits of a mask. -/
def maskBits (n v : Nat) : List Nat := (List.range n).filter (bit v)

/-- `n` bytes at an offset, zeros beyond the end. -/
def slice (m : List Byte) (off n : Nat) : List Byte :=
  let t := (m.drop off).take n
  t ++ zeros (n - t.length)

/-- The little-endian number of `n` bytes at an offset (00 R6). -/
def fieldAt (m : List Byte) (off n : Nat) : Nat := leNat (slice m off n)

/-- Overwrite bytes at an offset. -/
def patch (m : List Byte) (off : Nat) (b : List Byte) : List Byte := m.take off ++ b ++ m.drop (off + b.length)

/-- Division rounding up. -/
def cdiv (a b : Nat) : Nat := (a + b - 1) / b

/-- Two's-complement reading of a `w`-bit number. -/
def sext (w v : Nat) : Int := if v < 2 ^ (w - 1) then (v : Int) else (v : Int) - 2 ^ w

-- Tier memories: address and byte pairs, addresses rising, no zero byte listed (an unlisted address reads 0, log 1)

/-- Read one byte of a memory. -/
def memGet : List Host.Cell → Nat → Byte
  | [], _ => 0
  | (a, b) :: m, i => if a = i then b else memGet m i

/-- Insert a nonzero byte. -/
def memPut : List Host.Cell → Nat → Byte → List Host.Cell
  | [], i, v => [(i, v)]
  | (a, b) :: m, i, v => if i < a then (i, v) :: (a, b) :: m else if i = a then (i, v) :: m else (a, b) :: memPut m i v

/-- Remove a byte. -/
def memDel : List Host.Cell → Nat → List Host.Cell
  | [], _ => []
  | (a, b) :: m, i => if a = i then m else (a, b) :: memDel m i

/-- Write one byte of a memory. -/
def memSet (m : List Host.Cell) (i : Nat) (v : Byte) : List Host.Cell := if v = 0 then memDel m i else memPut m i v

/-- Read `n` bytes. -/
def memRead (m : List Host.Cell) (a n : Nat) : List Byte := (List.range n).map fun i => memGet m (a + i)

/-- Write bytes from an address upward. -/
def memWrite : List Host.Cell → Nat → List Byte → List Host.Cell
  | m, _, [] => m
  | m, a, b :: bs => memWrite (memSet m a b) (a + 1) bs

/-- Overwrite a range with zeros (13 R443). -/
def memZero (m : List Host.Cell) (a n : Nat) : List Host.Cell := m.filter fun c => decide (c.1 < a) || decide (a + n ≤ c.1)

/-- The canonical form: addresses strictly rising, no zero byte listed. -/
def memWf : List Host.Cell → Bool
  | [] => true
  | [(_, b)] => b != 0
  | (a, b) :: (c, d) :: m => decide (a < c) && b != 0 && memWf ((c, d) :: m)

/-- One tier's memory. -/
def State.tier (s : State) : Nat → List Host.Cell
  | 0 => s.t0
  | 1 => s.t1
  | 2 => s.t2
  | _ => s.t3

def State.setTier (s : State) (k : Nat) (m : List Host.Cell) : State :=
  match k with
  | 0 => { s with t0 := m }
  | 1 => { s with t1 := m }
  | 2 => { s with t2 := m }
  | _ => { s with t3 := m }

-- Register fields

/-- The bit address that keys a field. -/
def Fld.key (f : Fld) : Nat := f.off * 8 + f.lo

/-- A field's current value. -/
def State.getF (s : State) (f : Fld) : Nat := (tget s.regs f.key).getD f.rst

/-- Write a field: the value modulo its width; a field at its reset value is not listed. -/
def State.setF (s : State) (f : Fld) (v : Nat) : State :=
  let w := v % 2 ^ f.width
  { s with regs := if w = f.rst then tdel s.regs f.key else tset s.regs f.key w }

/-- Write a flag. -/
def State.setFlag (s : State) (f : Fld) (b : Bool) : State := s.setF f (if b then 1 else 0)

/-- A one-bit field as a truth value. -/
def State.flag (s : State) (f : Fld) : Bool := s.getF f == 1

/-- Add to a field that saturates at its width. -/
def State.satAdd (s : State) (f : Fld) (n : Nat) : State := s.setF f (min (s.getF f + n) (2 ^ f.width - 1))

/-- A W1C field: each bit written 1 is cleared (00 R11). -/
def State.w1c (s : State) (f : Fld) (v : Nat) : State := s.setF f ((s.getF f) &&& (2 ^ f.width - 1 - v % 2 ^ f.width))

-- Counters (16 R518)

/-- A counter's value. -/
def State.ctr (s : State) (off : Nat) : Nat := (tget s.ctrs off).getD 0

/-- Add to a counter, modulo 2^64. -/
def State.bumpBy (s : State) (off n : Nat) : State := { s with ctrs := tcount s.ctrs off ((s.ctr off + n) % 2 ^ 64) }

/-- Add 1 to a counter. -/
def State.bump (s : State) (off : Nat) : State := s.bumpBy off 1

-- Outputs and free values

/-- Send something out of the device. -/
def State.emit (s : State) (o : Out) : State := { s with out := o :: s.out }

/-- Send several things, the first first. -/
def State.emits (s : State) (l : List Out) : State := { s with out := l.reverse ++ s.out }

/-- Take a free number (log 4). -/
def State.fresh (s : State) : Nat × State := (Config.freeNat s.free, { s with free := s.free + 1 })

/-- Take `n` free bytes (log 4). -/
def State.freshBytes (s : State) (n : Nat) : List Byte × State :=
  ((List.range n).map (Config.freeByte s.free), { s with free := s.free + 1 })

/-- The key of a vector of a function's MSI-X table. -/
def msixKey (fn vector : Nat) : Nat := fn * 128 + vector

/-- A vector of a function's MSI-X table (12 R380). -/
def State.msixVec (s : State) (fn vector : Nat) : MsixVec := tgetD s.hif.msix (msixKey fn vector) {}

/-- Write a vector; one at its reset state is not listed. -/
def putMsix (fn vector : Nat) (v : MsixVec) (s : State) : State :=
  { s with hif := { s.hif with msix := if v = {} then tdel s.hif.msix (msixKey fn vector) else tset s.hif.msix (msixKey fn vector) v } }

/-- Whether a function sends MSI-X messages: MSI-X Enable set and Function Mask clear in its Message Control (12 R391, log 65). -/
def State.msixOn (s : State) (fn : Nat) : Bool := bits (tgetD s.hif.msixCtl fn 0) 14 2 == 2

/-- Signal an MSI-X vector (12 R391): its message is sent, or, while the vector is masked or the function sends none, its pending bit is set. -/
def State.signal (s : State) (fn vector : Nat) : State :=
  let v := s.msixVec fn vector
  if v.masked || !s.msixOn fn then putMsix fn vector { v with pending := true } s
  else (s.emit (.msix fn vector)).bump Ctr.hifMsixSent

-- The tick (02 R56)

def State.tick (s : State) : Nat := s.getF Reg.ssqTickValue

-- Power (15 R480)

/-- The power states, as PWR_STAT numbers them (R482). -/
def pwrBoot : Nat := 0
def pwrRun : Nat := 1
def pwrQuiesce : Nat := 2
def pwrMgmt : Nat := 3
def pwrHalted : Nat := 4

def State.pwr (s : State) : Nat := s.getF Reg.mgcPwrStatState

/-- The data plane and the control plane run: power, no FATAL (01 R35), not in MGMT (R482). -/
def State.running (s : State) : Bool := !s.mgc.off && !s.mgc.fatal && s.pwr != pwrMgmt

/-- What happens only while the device has power. -/
def powered (f : State → State) (s : State) : State := if s.mgc.off then s else f s

-- The page map (16 R510)

/-- Page slots (16 R510). -/
def pHif : Nat := 0
def pSsq : Nat := 1
def pHrc : Nat := 2
def pTmg : Nat := 3
def pPme : Nat := 4
def pXfe : Nat := 5
def pCwp : Nat := 6
def pDdc : Nat := 7
def pCxd : Nat := 8
def pNvc : Nat := 10
def pSec : Nat := 18
def pMgc : Nat := 19
def pFrc : Nat := 20
def pSlu : Nat := 21
def pMxg : Nat := 24
def pTcc : Nat := 28
def pHbc : Nat := 32

/-- The pages of R510: slot, TYPE, INSTANCE, instances served, banks present, self-test kinds. -/
structure PageRow where
  slot : Nat
  type : Nat
  inst : Nat
  insts : Nat
  banks : Bool
  tests : List Nat

/-- The page map (R510). -/
def pageMap : List PageRow :=
  [⟨0, 1, 0, 1, true, []⟩, ⟨1, 2, 0, 1, true, []⟩, ⟨2, 3, 0, 1, true, []⟩, ⟨3, 4, 0, 1, true, []⟩,
   ⟨4, 5, 0, 1, true, [5]⟩, ⟨5, 6, 0, 1, true, [6]⟩, ⟨6, 7, 0, 1, true, []⟩, ⟨7, 8, 0, 16, false, [1, 4]⟩] ++
  ((List.range 2).map fun k => ⟨8 + k, 9, k, 1, false, [4]⟩) ++
  ((List.range 8).map fun k => ⟨10 + k, 0xA, k, 1, false, [4]⟩) ++
  [⟨18, 0xB, 0, 1, true, []⟩, ⟨19, 0xC, 0, 1, true, []⟩, ⟨20, 0xD, 0, 1, true, []⟩, ⟨21, 0xE, 0, 61, true, []⟩] ++
  ((List.range 4).map fun k => ⟨24 + k, 0x10, k, 1, k == 0, [2]⟩) ++
  ((List.range 4).map fun k => ⟨28 + k, 0x11, k, 1, false, [3]⟩) ++
  ((List.range 8).map fun k => ⟨32 + k, 0x12, k, 1, false, [1, 4]⟩)

/-- The page in a slot, if the slot is not reserved. -/
def page? (slot : Nat) : Option PageRow := pageMap.find? (·.slot == slot)

-- Events (14 R456, R457)

/-- The host ring's fields: of partition n, or of function 0 for device-level records. -/
def ringBase (part : Nat) : Fld := if part < 16 then Reg.frcPbEvringBase part else Reg.frcDevEvringBase
def ringEntries (part : Nat) : Fld := if part < 16 then Reg.frcPbEvringEntries part else Reg.frcDevEvringEntries
def ringTail (part : Nat) : Fld := if part < 16 then Reg.frcPbEvringTail part else Reg.frcDevEvringTail
def ringHead (part : Nat) : Fld := if part < 16 then Reg.frcPbEvringHead part else Reg.frcDevEvringHead
def ringDropped (part : Nat) : Fld := if part < 16 then Reg.frcPbDropped part else Reg.frcDevDropped

/-- The function through which a ring is written (R457): n + 1 for partition n, 0 for device-level records. -/
def ringFn (part : Nat) : Nat := if part < 16 then part + 1 else 0

/-- The 32 DETAIL bytes of a record: its numbers in their order, 8 bytes each (log 23); an error's four are bytes 0x08 to 0x27 of its log
entry (R456). -/
def EvRec.detailBytes (r : EvRec) : List Byte := slice (r.detail.map (leBytes 8)).flatten 0 32

/-- The 64 bytes of an event record (R456) with the flags of the ring that takes it. -/
def EvRec.bytes (r : EvRec) (lost phase : Bool) : List Byte :=
  leBytes 8 r.seq ++ leBytes 2 r.code ++ leBytes 1 r.block ++ leBytes 1 r.inst ++ leBytes 1 r.part ++ leBytes 1 r.severity ++
    leBytes 1 ((if lost then 1 else 0) + (if phase then 2 else 0)) ++ zeros 1 ++ leBytes 8 r.tick ++ leBytes 8 r.commitSeq ++ r.detailBytes

/-- Offer a record to a host ring (R457): taken if EVRING.TAIL shows a free entry, else dropped and counted, the next
record taken carrying LOST; PHASE inverts at each wrap; vector 0 signals each record written. -/
def hostRing (r : EvRec) (s : State) : State :=
  let n := s.getF (ringEntries r.part)
  let h := s.getF (ringHead r.part)
  let fn := ringFn r.part
  if n = 0 then s
  else if (h + 1) % n = s.getF (ringTail r.part) % n then
    let s := (s.satAdd (ringDropped r.part) 1).bump Ctr.frcEventsDroppedHost
    { s with frc := { s.frc with rings := tset s.frc.rings fn { tgetD s.frc.rings fn {} with lost := true } } }
  else
    let e := tgetD s.frc.rings fn {}
    let s := s.setF (ringHead r.part) ((h + 1) % n)
    let e' : EvRing := { phase := if h + 1 = n then !e.phase else e.phase, lost := false }
    let s := { s with frc := { s.frc with rings := tset s.frc.rings fn e' } }
    let s := s.emit (.hostWrite fn (s.getF (ringBase r.part) * 4096 + 64 * h) (r.bytes e.lost e.phase))
    (s.emit (.eventRecord fn h r e.lost e.phase)).signal fn 0

/-- The block page whose BLK_EV_MASK bit masks an event number (R457, R520). -/
def eventMasked (s : State) (slot code : Nat) : Bool := bit (s.getF (Reg.blkEvMaskMask slot)) (code % 64)

/-- Append to the debug trace buffer (13 R439): 64 MiB of records of 64 bytes, of which the newest stay (log 45). -/
def traceRecord (r : TraceRec) (s : State) : State :=
  { s with sec := { s.sec with trace := (r :: s.sec.trace).take (2 ^ 20), traceNext := (s.sec.traceNext + 1) % 2 ^ 20 } }

/-- Log an event (R456, R457): SEQ rises by one per record; the device ring keeps the newest 4,096; the host ring takes it
unless the source block masks it, and a masked event sets its PEND bit. With TRACE_EN the record also goes to the debug
trace buffer (16 R515). `slot` is the page that reports it, `part` 0xFF for a device-level event. -/
def logFull (e : Ev) (slot inst part sev cseq : Nat) (detail : List Nat) (s : State) : State :=
  let r : EvRec := { seq := s.frc.seq, code := e.code, block := ((page? slot).map (·.type)).getD 0, inst := inst, part := part,
                     severity := sev, tick := s.tick, commitSeq := cseq, detail := detail }
  let s := { s with frc := { s.frc with seq := s.frc.seq + 1, ring := (r :: s.frc.ring).take 4096 } }
  let s := s.bump Ctr.frcEventsLogged
  let s := if s.flag (Reg.blkCtrlTraceEn slot) then traceRecord (.event r) s else s
  if eventMasked s slot e.code then
    s.setF (Reg.blkEvPendPend slot) (setBit (s.getF (Reg.blkEvPendPend slot)) (e.code % 64))
  else hostRing r s

/-- Numbers of `size` bytes each as DETAIL holds them: 32 bytes of them, 8 to a number. -/
def packDetail (size : Nat) (l : List Nat) : List Nat := (List.range 4).map fun i => fieldAt (l.map (leBytes size)).flatten (8 * i) 8

/-- An informational event of instance 0 of a page. -/
def logEv (e : Ev) (slot part : Nat) (detail : List Nat) (s : State) : State := logFull e slot 0 part 0 0 detail s

end Sys2Proof.Machine
end

