-- ==== Sys2Proof/Machine/Operands.lean ====
section
/-!
DEFINITION. Machine/Operands.lean: the operand forms of host commands: the fields of ARGS (16 R525), the bytes that must
be zero (00 R14), the functions a command is accepted on (16 R523), and the direct windows that DWIN buffers and tier
commands name (08 R250-R255).
-/
set_option cleanup.letToHave false
namespace Sys2Proof

open Sys2Proof.Machine

/-- A field of ARGS: `n` bytes at an offset. -/
def Cmd.arg (c : Cmd) (off n : Nat) : Nat := fieldAt c.args off n

/-- Whether every byte of ARGS outside the listed (offset, size) fields is zero (00 R14, 16 R525). -/
def Cmd.argsOk (c : Cmd) (fields : List (Nat × Nat)) : Bool :=
  (List.range 32).all fun i => (fields.any fun f => decide (f.1 ≤ i) && decide (i < f.1 + f.2)) || (fieldAt c.args i 1 == 0)

/-- The function a command came through: I3C commands act as on function 0 (16 R524). -/
def Cmd.fn (c : Cmd) : Nat :=
  match c.origin with
  | .queue fn _ _ => fn
  | .i3c => 0

/-- The partition whose function the command came through (12 R378). -/
def Cmd.part (c : Cmd) : Nat := c.fn - 1

end Sys2Proof

namespace Sys2Proof.Machine

open Sys2Proof

-- Partition states (13 R415)

/-- CTRL.STATE of a partition. -/
def State.pstate (s : State) (n : Nat) : Nat := s.getF (Reg.mgcPbCtrlState n)
def psUnconfigured : Nat := 0
def psConfigured : Nat := 1
def psLocked : Nat := 2
def psActive : Nat := 3
def psDraining : Nat := 4
def psWiping : Nat := 5
def psReplay : Nat := 6

/-- A protected partition (13 R428). -/
def State.isProtected (s : State) (n : Nat) : Bool := s.flag (Reg.mgcPbCtrlProtected n)

-- Extents and direct windows (08 R250-R255)

def gib : Nat := 2 ^ 30

/-- 4 KiB units of one stack (08 R255). -/
def stackUnits : Nat := 48 * 2 ^ 18

/-- Whether a 4 KiB unit of a tier lies in the page part, or in the direct part, of a partition's extent (R250, R255). -/
def inPart (s : State) (n k unit : Nat) (direct : Bool) : Bool :=
  let u := if k = 0 then unit % stackUnits else unit
  let page := s.getF (Reg.mgcPbExtentBase4k n k) + s.getF (Reg.mgcPbExtentPage4k n k)
  if direct then decide (page ≤ u) && decide (u < page + s.getF (Reg.mgcPbExtentDirect4k n k))
  else decide (s.getF (Reg.mgcPbExtentBase4k n k) ≤ u) && decide (u < page)

/-- Units withdrawn from a part of an extent (14 R454). -/
def withdrawnOf (s : State) (n k : Nat) (direct : Bool) : Nat := (s.frc.withdrawn.filter fun u => u.1 == k && inPart s n k u.2 direct).length

/-- Bytes of the direct window of a partition in tier k: eight parts for T0 (08 R255), less the units withdrawn (14 R454). -/
def State.directSize (s : State) (n k : Nat) : Nat :=
  (s.getF (Reg.mgcPbExtentDirect4k n k) * (if k = 0 then 8 else 1) - withdrawnOf s n k true) * 4096

/-- Device address of the first byte of the direct part (of the first of the eight for T0). -/
def State.directBase (s : State) (n k : Nat) : Nat :=
  (s.getF (Reg.mgcPbExtentBase4k n k) + s.getF (Reg.mgcPbExtentPage4k n k)) * 4096

/-- Device address of a direct-window address: unit u of T0 lies in part u mod 8 at unit u div 8 (08 R255). It names the data; the row in
which a unit stands is `directRows`'s. -/
def State.directAddr (s : State) (n k a : Nat) : Nat :=
  if k = 0 then
    let u := a / 4096
    (u % 8) * (48 * gib) + s.directBase n 0 + (u / 8) * 4096 + a % 4096
  else s.directBase n k + a

/-- A range that lies wholly within the direct window (08 R252). -/
def State.inDirect (s : State) (n k a len : Nat) : Bool := decide (a + len ≤ s.directSize n k)

/-- Bytes of a direct window as stored. -/
def State.directRead (s : State) (n k a len : Nat) : List Byte :=
  (List.range len).map fun i => memGet (s.tier k) (s.directAddr n k (a + i))

/-- The key of a 64-byte line of a tier in the table of poisoned lines: a T1 line by its device line number, a line of
another tier (a fabric read's destination, 11 R352) above all of those. -/
def poisonKey (k line : Nat) : Nat := if k = 1 then line else (k + 1) * 2 ^ 56 + line

/-- Whether a line is poisoned (12 R401). -/
def State.poisonedIn (s : State) (k line : Nat) : Bool := (tget s.cwp.poison (poisonKey k line)).isSome
def State.poisoned (s : State) (line : Nat) : Bool := s.poisonedIn 1 line

/-- Lines that a device range touches. -/
def linesOf (a len : Nat) : List Nat := if len = 0 then [] else (List.range ((a + len - 1) / 64 + 1 - a / 64)).map (a / 64 + ·)

/-- Write a range of a tier whose byte `i` lies at device address `at_ i`, as far as poison allows: a line written whole
loses its poison, a partial write to a poisoned line is discarded (12 R401). -/
def State.writeAt (s : State) (k : Nat) (at_ : Nat → Nat) (b : List Byte) : State :=
  let n := b.length
  let starts := (List.range n).filter fun i => at_ i % 64 == 0
  let whole := (starts.filter fun i => decide (i + 64 ≤ n)).map fun i => at_ i / 64
  let keep := fun i => !(s.poisonedIn k (at_ i / 64)) || whole.contains (at_ i / 64)
  let put := fun (m : List Host.Cell) i => if keep i then memSet m (at_ i) (b.getD i 0) else m
  let s' := s.setTier k ((List.range n).foldl put (s.tier k))
  { s' with cwp := { s.cwp with poison := whole.foldl (fun p l => tdel p (poisonKey k l)) s.cwp.poison } }

/-- Write to T1 at a device address. -/
def State.t1Write (s : State) (a : Nat) (b : List Byte) : State := s.writeAt 1 (a + ·) b

/-- Write bytes into a direct window. -/
def State.directWrite (s : State) (n k a : Nat) (b : List Byte) : State := s.writeAt k (fun i => s.directAddr n k (a + i)) b

/-- The poisoned lines of a direct range. -/
def State.directPoisoned (s : State) (n k a len : Nat) : List Nat :=
  (((List.range len).filter fun i => i == 0 || (s.directAddr n k (a + i)) % 64 == 0).map fun i => s.directAddr n k (a + i) / 64).filter
    (s.poisonedIn k)

end Sys2Proof.Machine

namespace Sys2Proof

open Sys2Proof.Machine

/-- The bytes of a command's data buffer: from the direct window with DWIN, else as the host holds them. -/
def Cmd.buffer (c : Cmd) (s : State) : List Byte :=
  if c.dwin then s.directRead c.part 1 c.dptr c.dlen else slice c.data 0 c.dlen

end Sys2Proof

namespace Sys2Proof.Machine

open Sys2Proof

-- Trays and drives (08 R253, R284)

/-- Drives in service, in root port order (R253). -/
def drives (s : State) : List Nat := (List.range 8).filter fun k => s.flag (Reg.nvcDriveReady k)

/-- The CXD port of a T2 unit, and the drive of a T3 unit. -/
def cxdOf (s : State) (unit : Nat) : Nat :=
  if s.flag (Reg.cxdPortSingle 0) then 0 else if s.flag (Reg.cxdPortSingle 1) then 1 else unit % 2
def driveOf (s : State) (unit : Nat) : Nat := let d := s.tmg.t3Drives; d.getD (unit % max 1 d.length) 0

/-- Whether a tier answers reads (08 R284, R288). -/
def State.tierUp (s : State) (k : Nat) : Bool :=
  if k = 2 then s.flag (Reg.cxdPortLinkUp 0) || s.flag (Reg.cxdPortLinkUp 1)
  else if k = 3 then !s.flag (Reg.tmgTierCapDegraded 3)
  else true

/-- A window of 2^20 answers of a partner, `n` of them more and perhaps one bad (14 R459). -/
def Partner.count (p : Partner) (n : Nat) (bad : Bool) : Partner × Nat :=
  let q : Partner := { bad := p.bad + (if bad then 1 else 0), seen := p.seen + n }
  (if 2 ^ 20 ≤ q.seen then {} else q, q.bad)

/-- Well-formed answers of the tier that a slot lies in: its partners' windows advance, and a drive's run of timeouts ends. -/
def tierAnswers (tier base units : Nat) (s : State) : State :=
  if tier = 2 then
    (List.range units).foldl (fun s j =>
      let p := cxdOf s (base + j)
      { s with frc := { s.frc with trays := tset s.frc.trays p ((tgetD s.frc.trays p {}).count 1 false).1 } }) s
  else if tier = 3 then
    (List.range units).foldl (fun s j =>
      let d := driveOf s (base + j)
      { s with frc := { s.frc with drives := tset s.frc.drives d ((tgetD s.frc.drives d {}).count 1 false).1 },
               tmg := { s.tmg with timeouts := tdel s.tmg.timeouts d } }) s
  else s

/-- Count 4 KiB units of T2 or T3 that are read or written. -/
def countUnits (k base units : Nat) (write : Bool) (s : State) : State :=
  if k < 2 then s
  else (List.range units).foldl (fun s j =>
    if k = 2 then let p := cxdOf s (base + j); s.bump (if write then Ctr.cxdWriteUnits p else Ctr.cxdReadUnits p)
    else let d := driveOf s (base + j); s.bump (if write then Ctr.nvcWriteUnits d else Ctr.nvcReadUnits d)) s

/-- 4 KiB units that a device range touches, as (first, count). -/
def unitsOf (a len : Nat) : Nat × Nat := if len = 0 then (0, 0) else (a / 4096, (a + len - 1) / 4096 + 1 - a / 4096)

-- Opcodes (16 R525)

/-- Which functions a command is accepted on (16 R523). -/
structure FnSet where
  p : Bool
  zero : Bool
  i3c : Bool
deriving DecidableEq, Repr

/-- The functions of an opcode; none for an unlisted opcode (16 R523, R525). -/
def opFns (op : Nat) : Option FnSet :=
  if op = 0x0001 ∨ op = 0x0002 then some ⟨true, true, false⟩
  else if (0x0101 ≤ op ∧ op ≤ 0x010B) ∨ (0x0201 ≤ op ∧ op ≤ 0x0208) ∨ (0x0301 ≤ op ∧ op ≤ 0x0306) ∨
      (0x0401 ≤ op ∧ op ≤ 0x0404) ∨ (0x0501 ≤ op ∧ op ≤ 0x0507) ∨ op = 0x0802 then some ⟨true, false, false⟩
  else if (0x0601 ≤ op ∧ op ≤ 0x0603) ∨ (0x0701 ≤ op ∧ op ≤ 0x0707) ∨ op = 0x0901 then some ⟨false, true, true⟩
  else if op = 0x0801 then some ⟨true, true, false⟩
  else if op = 0x0902 ∨ op = 0x0903 then some ⟨false, false, true⟩
  else none

/-- Whether an origin may send an opcode. -/
def opAllowed (op : Nat) (o : Origin) : Bool :=
  match opFns op, o with
  | some f, .queue 0 _ _ => f.zero
  | some f, .queue _ _ _ => f.p
  | some f, .i3c => f.i3c
  | none, _ => false

/-- The bytes of ARGS that an opcode's table lists, as (offset, size) (12 R384, 16 R525). -/
def opFields (op : Nat) : List (Nat × Nat) :=
  if op ≤ 0x0002 then [(0, 7), (8, 2), (0x10, 8)]
  else if op = 0x0101 then [(0, 8), (8, 4), (0x0C, 4), (0x10, 4), (0x14, 4), (0x18, 8)]
  else if op = 0x0103 then [(0, 8), (8, 1)]
  else if op = 0x0104 then [(0, 8), (8, 8), (0x10, 4), (0x14, 4)]
  else if op = 0x0105 then [(0, 8), (8, 1), (9, 1), (0x0C, 4), (0x10, 4)]
  else if op = 0x0107 then [(0, 8), (8, 8), (0x10, 4)]
  else if op = 0x0108 then [(0, 8), (8, 2), (0x0A, 1), (0x0C, 4)]
  else if op = 0x010A ∨ op = 0x010B ∨ op = 0x0207 then [(0, 8), (8, 1), (9, 1)]
  else if op = 0x0102 ∨ op = 0x0106 ∨ op = 0x0109 ∨ op = 0x0202 ∨ op = 0x0204 ∨ op = 0x0902 ∨ op = 0x0903 then [(0, 8)]
  else if op = 0x0205 then [(0, 8), (8, 4), (0x0C, 4)]
  else if op = 0x0206 then [(8, 4), (0x0C, 4)]
  else if op = 0x0208 ∨ op = 0x0802 then [(0, 2)]
  else if op = 0x0301 then [(0, 1), (8, 8), (0x10, 4), (0x14, 4)]
  else if op = 0x0303 ∨ op = 0x0305 then [(0, 8), (8, 4)]
  else if op = 0x0302 ∨ op = 0x0304 ∨ op = 0x0306 ∨ op = 0x0502 ∨ op = 0x0507 then [(0, 4)]
  else if op = 0x0401 ∨ op = 0x0402 then [(0, 1), (8, 8)]
  else if op = 0x0403 then [(0, 2), (8, 24)]
  else if op = 0x0404 then [(0, 12), (0x10, 16)]
  else if op = 0x0501 ∨ op = 0x0504 then [(0, 5)]
  else if op = 0x0503 then [(0, 3), (4, 4), (8, 8), (0x10, 8)]
  else if op = 0x0505 then [(0, 3)]
  else if op = 0x0601 then [(0, 16)]
  else if op = 0x0602 ∨ op = 0x0603 then [(0, 1), (2, 2)]
  else if 0x0701 ≤ op ∧ op ≤ 0x0707 then [(0, 1)]
  else if op = 0x0801 then [(0, 8), (8, 4), (0x0C, 4), (0x10, 1)]
  else []

/-- Queue pairs of a function: 64, or 4 for function 0 (12 R382). -/
def queuesOf (fn : Nat) : Nat := if fn = 0 then 4 else 64

/-- The ARGS of both queue commands are valid encodings (12 R384, R14): KIND 0 or 1, QID in 1 to 63 (1 to 3 for function 0), the unused bytes
zero, and, for a CQ that is created, VECTOR in 1 to 64 and a coalescing count of at least 1. -/
def queueArgsOk (c : Cmd) (create : Bool) : Bool :=
  let kind := c.arg 0 1
  let qid := c.arg 1 1
  c.argsOk [(0, 7), (8, 2), (0x10, 8)] && decide (kind ≤ 1) && decide (1 ≤ qid ∧ qid < queuesOf c.fn) && decide (c.dlen = 0) &&
    (!create || kind == 0 || (decide (1 ≤ c.arg 5 1 ∧ c.arg 5 1 ≤ 64) && decide (1 ≤ c.arg 6 1)))

/-- Whether the listed fields of ARGS hold listed encodings (16 R525 and the rules it names). -/
def opEncodings (op : Nat) (c : Cmd) : Bool :=
  if op ≤ 0x0002 then queueArgsOk c (op == 1)
  else if op = 0x0103 then decide (c.arg 8 1 ≤ 3)
  else if op = 0x0105 then decide (c.arg 8 1 < 16) && decide (c.arg 9 1 ≤ 1)
  else if op = 0x0108 then decide (c.arg 0x0A 1 ≤ 1)
  else if op = 0x010A ∨ op = 0x010B then decide (2 ≤ c.arg 8 1 ∧ c.arg 8 1 ≤ 64)
  else if op = 0x0205 then c.arg 8 4 != 0
  else if op = 0x0207 then bits (c.arg 8 1) 4 3 == 0 && decide (1 ≤ c.arg 9 1 ∧ c.arg 9 1 ≤ 64)
  else if op = 0x0301 then decide (c.arg 0 1 ≤ 1)
  else if op = 0x0401 ∨ op = 0x0402 then decide (c.arg 0 1 < 4)
  else if op = 0x0403 then decide (c.arg 0 1 < 4) && decide (c.arg 1 1 < 4)
  else if op = 0x0404 then c.arg 0 8 % 64 == 0 && c.arg 8 4 % 64 == 0 && decide (64 ≤ c.arg 8 4 ∧ c.arg 8 4 ≤ 16 * 2 ^ 20)
  else if op = 0x0501 then decide (c.arg 0 4 < 2 ^ 17) && decide (c.arg 4 1 < 16)
  else if op = 0x0502 then decide (c.arg 0 4 < 2 ^ 20)
  else if op = 0x0503 then
    let kind := c.arg 0 1
    decide (kind ≤ 2) && decide (c.arg 1 1 < 32) && (if kind = 1 then c.arg 2 1 == 3 || c.arg 2 1 == 4 else c.arg 2 1 == 0) &&
      decide (c.arg 4 4 % 2 ^ 31 < 2 ^ 17)
  else if op = 0x0504 then decide (c.arg 4 1 ≤ 1)
  else if op = 0x0505 then decide (c.arg 2 1 ≤ 64)
  else if op = 0x0601 then decide (c.arg 0 1 < 64) && decide (c.arg 1 1 < 16) && decide (1 ≤ c.arg 8 4)
  else if op = 0x0602 ∨ op = 0x0603 then decide (c.arg 0 1 < 64)
  else if 0x0701 ≤ op ∧ op ≤ 0x0707 then decide (c.arg 0 1 < 16)
  else if op = 0x0801 then decide (c.arg 0x10 1 ≤ 1)
  else true

/-- Whether a submission entry's reserved bits are zero and its ARGS hold listed encodings and zeros elsewhere (00 R14, 12 R385). -/
def descOk (op : Nat) (c : Cmd) : Bool := c.rsv == 0 && c.argsOk (opFields op) && opEncodings op c

/-- Commands that R500 lets run before DATA_READY: queue setup, the lifecycle commands and PARTITION_CONFIGURE. -/
def opBeforeReady (op : Nat) : Bool := op == 1 || op == 2 || op == 0x0701 || op == 0x0902 || op == 0x0903

/-- Commands that a partition function accepts in a partition state (13 R416, R417, 14 R472; log 10). -/
def opInState (op st : Nat) : Bool :=
  op == 1 || op == 2 ||
  (if st = psActive then op != 0x0802
   else if st = psDraining then
     [0x0102, 0x0106, 0x0107, 0x0208, 0x0401, 0x0402, 0x0403, 0x0801].contains op
   else if st = psReplay then
     [0x0201, 0x0203, 0x0205, 0x0207, 0x0208, 0x0401, 0x0402, 0x0403, 0x0802].contains op
   else false)

end Sys2Proof.Machine
end

