-- ==== Sys2Proof/Machine/Faults.lean ====
section
/-!
DEFINITION. Machine/Faults.lean: FATAL (01 R35), the error machine of every block instance (14 R449-R452), the start of a
targeted self-test (14 R453-R455), and the records that an open capsule collects (14 R461, R463). What ends a self-test is
in FaultRows.lean.
-/
set_option cleanup.letToHave false
namespace Sys2Proof.Machine

open Sys2Proof

def State.setFrc (s : State) (f : Frc) : State := { s with frc := f }

/-- Raise FATAL (01 R35, 15 R483, R505): the planes stop, FAULT_N is asserted, RUN or QUIESCE becomes HALTED. -/
def goFatal (s : State) : State :=
  let s := { s with mgc := { s.mgc with fatal := true, faultN := true } }
  let p := s.getF Reg.mgcPwrStatState
  if p = 1 ∨ p = 2 then (s.setF Reg.mgcPwrStatState 4).bump Ctr.mgcPowerStateChanges else s

-- Units under test (R453)

/-- The row of a 4 KiB unit of T0 or T1, as a self-test's unit; the other tiers have no row test. -/
def rowUnit (tier unit : Nat) : Resource := if tier = 0 then ⟨pHbc + unit / stackUnits % 8, 1, unit⟩ else ⟨pDdc, 1, unit⟩
def rowUnit? (tier unit : Nat) : Option Resource := if tier < 2 then some (rowUnit tier unit) else none

-- Records of an open capsule (R461, R463)

/-- Change the open capsule of a session. -/
def modCapsule (session : Nat) (f : Capsule → Capsule) (s : State) : State :=
  s.setFrc { s.frc with staging := s.frc.staging.map fun c => if c.session = session ∧ c.sealed = false then f c else c }

def openCapsule (s : State) (session : Nat) : Option Capsule := s.frc.staging.find? fun c => c.session == session && !c.sealed

/-- Append a record. -/
def capRecord (session : Nat) (r : CapRec) (s : State) : State :=
  modCapsule session (fun c => { c with records := c.records ++ [r] }) s

/-- First 32 bytes of SHAKE256 (R463). -/
def hash32 (b : List Byte) : List Byte := shake256 b 32

/-- The index of the step in progress within the turn of a session, by its INDEX: 0 without a turn. -/
def turnStep (s : State) (i : Nat) : Nat := ((s.ssq.turns.find? fun t => t.session == i && t.state != .queued).map (·.steps)).getD 0

/-- INDEX of a session handle (02 R40). -/
def handleIndex (h : Nat) : Nat := h % 2 ^ 22

/-- The record of a commit-point event (R463): COMMIT_SEQ, kind, tick, status. -/
def capEvent (session kind seq : Nat) (st : Status) (s : State) : State :=
  capRecord session { type := 2, step := turnStep s (handleIndex session), payload := leBytes 8 seq ++ leBytes 8 kind ++ leBytes 8 s.tick ++ leBytes 8 st.code } s

/-- The record of a command (R463): its submission entry and its buffer, or the buffer's hash in hash mode. -/
def capCommand (session op : Nat) (c : Cmd) (s : State) : State :=
  match openCapsule s session with
  | none => s
  | some k =>
    let cid := match c.origin with
      | .queue _ _ cid => cid
      | .i3c => 0
    let entry := leBytes 2 op ++ leBytes 1 ((if c.fence then 1 else 0) + (if c.dwin then 2 else 0)) ++ leBytes 1 0 ++ leBytes 2 cid ++ leBytes 2 0 ++
      slice c.args 0 32 ++ leBytes 8 c.dptr ++ leBytes 8 c.dlen ++ leBytes 8 0
    let b := c.buffer s
    capRecord session { type := 1, step := turnStep s (handleIndex session), payload := entry ++ (if k.full then b else hash32 b) } s

-- The error log (R452)

def errClassPart : Nat := 0xFF

/-- The 64 bytes of a log entry (R452); the numbers of its code-specific DETAIL are 8 bytes each (log 58). -/
def errBytes (e : ErrEntry) : List Byte :=
  leBytes 8 e.seq ++ leBytes 2 e.ev.code ++ leBytes 1 e.cls.code ++
    leBytes 1 ((if e.nested then 1 else 0) + 2 * e.result + (if e.retired then 8 else 0)) ++ leBytes 1 e.part ++ leBytes 1 e.inst ++ leBytes 2 0 ++
    leBytes 8 e.resource ++ leBytes 4 e.session ++ leBytes 2 e.wheel ++ leBytes 2 e.layer ++ leBytes 8 e.tick ++ slice (e.detail.map (leBytes 8)).flatten 0 24

/-- DETAIL of an error's event record (R456): bytes 0x08 to 0x27 of its log entry, as numbers of 8 bytes. -/
def errDetail (e : ErrEntry) : List Nat := (List.range 4).map fun i => fieldAt (errBytes e) (8 + 8 * i) 8

/-- The error machine of an instance, by page slot * 256 + instance. -/
def machKey (slot inst : Nat) : Nat := slot * 256 + inst

def State.mach (s : State) (k : Nat) : ErrMachine := tgetD s.frc.machines k {}
def State.elog (s : State) (slot : Nat) : ErrLog := tgetD s.frc.logs slot {}
def setMach (k : Nat) (m : ErrMachine) (s : State) : State := s.setFrc { s.frc with machines := tset s.frc.machines k m }
def setElog (slot : Nat) (l : ErrLog) (s : State) : State := s.setFrc { s.frc with logs := tset s.frc.logs slot l }
def modEntry (slot idx : Nat) (f : ErrEntry → ErrEntry) (s : State) : State :=
  let l := s.elog slot
  setElog slot { l with entries := tmod l.entries idx f } s

/-- Transient results of a unit since reset, whether it is retired, whether it is under test (R453, R455). -/
def transientsOf (s : State) (u : Resource) : Nat := ((s.frc.transients.find? fun t => t.1 == u).map (·.2)).getD 0
def isRetired (s : State) (u : Resource) : Bool := s.frc.retired.contains u
def underTest (s : State) (u : Resource) : Bool := s.frc.tests.any fun t => t.unit == u

/-- A block is FENCED (R451). -/
def isFenced (s : State) (slot inst : Nat) : Bool := (s.mach (machKey slot inst)).state == .fenced

/-- Write the result of a log entry, log its record, free it, and add it to the capsule of the session it names (R450, R461). -/
def finishEntry (slot idx result : Nat) (retired : Bool) (s : State) : State :=
  match tget (s.elog slot).entries idx with
  | none => s
  | some e =>
    let e := { e with result := result, retired := retired, seq := s.frc.seq }
    let s := setElog slot { s.elog slot with entries := tset (s.elog slot).entries idx e, busy := (s.elog slot).busy.filter (· != idx) } s
    let s := logFull e.ev slot e.inst e.part (e.cls.code + 1) 0 (errDetail e) s
    match s.ssq.sessions.find? fun x => x.1 == e.session with
    | some x => capRecord x.2.handle { type := 7, step := e.step, layer := e.layer, payload := errBytes e } s
    | none => s

/-- The unit that an entry's self-test runs on, if one applies. -/
def testUnit (s : State) (e : ErrEntry) : Option Resource :=
  match e.unit with
  | some u => if isRetired s u || underTest s u then none else some u
  | none => none

/-- Start the handler of a log entry (R450, R453): wait for the re-run that completes its classification, unless that re-run waits for the
test; start its unit's self-test; or, where no test applies, finish the entry as not tested and go on with the oldest queued one (R449). The
first argument bounds the queue. -/
def startHandler : Nat → Nat → Nat → Nat → State → State
  | 0, _, _, _, s => s
  | n + 1, slot, inst, idx, s =>
    let key := machKey slot inst
    match tget (s.elog slot).entries idx with
    | none => s
    | some e =>
      if e.rerun.isSome && (!e.alone || (testUnit s e).isNone) then setMach key { s.mach key with state := .handling, current := some idx } s
      else
      match testUnit s e with
      | some u =>
        let t : SelfTest := { unit := u, log := slot, inst := inst, entry := some idx, failed := decide (s.getF Reg.frcSelftestCtrlTransientLimit ≤ transientsOf s u) }
        let s := s.setFrc { s.frc with tests := s.frc.tests ++ [t] }
        (setMach key { s.mach key with state := .handling, current := some idx } s).bump Ctr.frcSelftestsRun
      | none =>
        let s := finishEntry slot idx 3 false s
        match (s.mach key).queued with
        | [] => setMach key { state := .normal } s
        | i :: q => startHandler n slot inst i (setMach key { state := .handling, current := some i, queued := q } s)

/-- The work that met an error: a session, by its INDEX, and a wheel. -/
structure Met where
  session : Nat := 0xFFFFFFFF
  wheel : Nat := 0xFFFF
deriving DecidableEq, Repr

/-- Work of several sessions: the first stands for them. -/
def metBy (sessions : List Nat) (wheel : Nat) : Met := { session := (sessions.head?).getD 0xFFFFFFFF, wheel := wheel }

/-- What is known of an error when it is met. -/
structure ErrIn where
  slot : Nat
  inst : Nat := 0
  ev : Ev
  cls : ErrClass
  part : Nat := 0xFF
  resource : Nat := 0
  session : Nat := 0xFFFFFFFF
  wheel : Nat := 0xFFFF
  layer : Nat := 0xFFFF
  unit : Option Resource := none
  /-- what it counts against for R465, as in `Capsule.used` -/
  against : List (Nat × Nat) := []
  /-- the numbers of the log entry's DETAIL -/
  detail : List Nat := []
  rerun : Option (Nat × Nat × Nat) := none
  alone : Bool := false
deriving DecidableEq, Repr

/-- Count a logged error of class CONTAINED or above against what the capsules in staging use (R465). -/
def countAgainst (l : List (Nat × Nat)) (s : State) : State :=
  s.setFrc { s.frc with staging := s.frc.staging.map fun c => if c.sealed then c else { c with errs := c.errs ++ l } }

/-- The next free index of a log, from its head. -/
def nextIndex (l : ErrLog) : Nat := (((List.range 64).map fun i => (l.head + i) % 64).find? fun i => !l.busy.contains i).getD l.head

/-- Meet an error (R449): beside its immediate action, which the caller takes, a log entry and its handler; with the log full
only SECONDARY and the overflow count. An error of a unit under test makes that test's result lasting (R455). -/
def raiseErr (x : ErrIn) (s : State) : State :=
  let key := machKey x.slot x.inst
  let m := s.mach key
  if m.state = .fenced then s
  else
    let testing := match x.unit with
      | some u => underTest s u
      | none => false
    let s := if testing then s.setFrc { s.frc with tests := s.frc.tests.map fun t => if x.unit = some t.unit then { t with failed := true } else t } else s
    let l := s.elog x.slot
    if 64 ≤ l.busy.length then
      (s.setF (Reg.blkErrstateSecondary x.slot) 1).satAdd (Reg.blkErrstateOverflow x.slot) 1
    else
      let s := if x.cls = .corrected then s else countAgainst x.against s
      let i := nextIndex l
      let busyMach := m.state == .handling
      let e : ErrEntry := { ev := x.ev, unit := if testing then none else x.unit, cls := x.cls, nested := busyMach, part := x.part, inst := x.inst,
                            resource := x.resource, session := x.session, wheel := x.wheel, layer := x.layer, tick := s.tick, detail := x.detail,
                            step := turnStep s x.session, rerun := x.rerun, alone := x.alone, against := x.against }
      let s := setElog x.slot { entries := tset l.entries i e, busy := l.busy ++ [i], head := (i + 1) % 64 } s
      if busyMach then setMach key { m with queued := m.queued ++ [i] } s
      else startHandler 65 x.slot x.inst i (setMach key { m with state := .handling, current := some i } s)

/-- Go on with the oldest queued entry of an instance, or NORMAL (R449). -/
def nextHandler (slot inst : Nat) (s : State) : State :=
  let k := machKey slot inst
  let m := s.mach k
  if m.state = .fenced then s
  else match m.queued with
    | [] => setMach k {} s
    | i :: q => startHandler 65 slot inst i (setMach k { m with current := some i, queued := q } s)

/-- The re-run that an entry waits for has passed or not (R448): its classification is complete, and its handler goes on (R450): with the
self-test, or with the record if the test is over. -/
def settleEntry (slot idx : Nat) (passed : Bool) (s : State) : State :=
  match tget (s.elog slot).entries idx with
  | none => s
  | some e =>
    let s := modEntry slot idx (fun e => { e with rerun := none, cls := if passed then .corrected else .contained }) s
    let s := if passed then s else countAgainst e.against s
    if e.result ≠ 0 then nextHandler slot e.inst (finishEntry slot idx e.result e.retired s)
    else if (s.mach (machKey slot e.inst)).current = some idx ∧ !(s.frc.tests.any fun t => t.log == slot && t.entry == some idx) then
      startHandler 65 slot e.inst idx s
    else s

/-- Settle the entries of the arrays' pages whose re-run `which` picks. -/
def settleWhere (which : Nat × Nat × Nat → Bool) (passed : Bool) (s : State) : State :=
  (List.range 4).foldl (fun s a =>
    ((s.elog (pMxg + a)).busy.filter fun i => (((tget (s.elog (pMxg + a)).entries i).bind (·.rerun)).map which).getD false).foldl
      (fun s i => settleEntry (pMxg + a) i passed s) s) s

/-- An uncorrectable error in a block's log or event path (R449): the block is fenced and FATAL is raised. -/
def fenceBlock (slot inst : Nat) (s : State) : State :=
  let s := setMach (machKey slot inst) { s.mach (machKey slot inst) with state := .fenced } s
  goFatal (s.setF (Reg.blkStatFenced slot) 1)

/-- Change a partition's state; each change is logged (R415). -/
def setPstate (n st : Nat) (s : State) : State :=
  let old := s.pstate n
  logEv .mgcPartitionState pMgc n [old, st] (s.setF (Reg.mgcPbCtrlState n) st)

/-- The log index of a page's oldest entry that is not free (R452). -/
def elogTail (s : State) (slot : Nat) : Nat := ((s.elog slot).busy.head?).getD (s.elog slot).head

end Sys2Proof.Machine
end

