-- ==== Sys2Proof/Machine/Coherence.lean ====
section
/-!
DEFINITION. Machine/Coherence.lean: extents and lines of the state window, poison, the host directory and its recalls, and
device-side access (12 R394-R401). Operations that wait for recalls stand in `cwp.waiting`; what ends a wait is in
WindowRows.lean.
-/
set_option cleanup.letToHave false
namespace Sys2Proof.Machine

open Sys2Proof

def State.setCwp (s : State) (c : Cwp) : State := { s with cwp := c }

-- Extents (R394)

/-- 64-byte lines of 256 MiB. -/
def linesPer256M : Nat := 2 ^ 22

def extFree : Nat := 0
def extActive : Nat := 1
def extRemoving : Nat := 2
def extOrphaned : Nat := 3
def extWiping : Nat := 4

def State.extState (s : State) (e : Nat) : Nat := s.getF (Reg.cwpExtentState e)

/-- First window line of an extent, and its number of lines. -/
def State.extFirst (s : State) (e : Nat) : Nat := s.getF (Reg.cwpExtentWbase e) * linesPer256M
def State.extLines (s : State) (e : Nat) : Nat := s.getF (Reg.cwpExtentSize e) * linesPer256M

/-- Whether a window line lies in an extent that is not FREE. -/
def State.inExtent (s : State) (e line : Nat) : Bool :=
  s.extState e != extFree && decide (s.extFirst e ≤ line) && decide (line < s.extFirst e + s.extLines e)

/-- The extent that holds a window line. -/
def State.extentOf (s : State) (line : Nat) : Option Nat := (List.range 64).find? (s.inExtent · line)

/-- First T1 device line of an extent (R394): TBASE within the direct window of its partition. -/
def State.extDevice (s : State) (e : Nat) : Nat :=
  s.directBase (s.getF (Reg.cwpExtentPartition e)) 1 / 64 + s.getF (Reg.cwpExtentTbase e) * linesPer256M

/-- The T1 device line behind a window line of an extent. -/
def State.devLine (s : State) (e line : Nat) : Nat := s.extDevice e + (line - s.extFirst e)

/-- The window lines behind a T1 device line: one for each extent that maps it. -/
def State.windowLinesAt (s : State) (dev : Nat) : List Nat :=
  ((List.range 64).filter fun e => s.extState e != extFree && decide (s.extDevice e ≤ dev) &&
      decide (dev < s.extDevice e + s.extLines e)).map fun e => s.extFirst e + (dev - s.extDevice e)

/-- The window lines that a T1 device range touches. -/
def State.windowLines (s : State) (a len : Nat) : List Nat := ((linesOf a len).map s.windowLinesAt).flatten

-- Poison (R401)

/-- The 64-byte record of a poisoned line. -/
def poisonRecord (cause host seq : Nat) : List Byte :=
  leBytes 4 0x50574C4E ++ leBytes 1 cause ++ leBytes 1 host ++ leBytes 2 0 ++ leBytes 8 seq ++ zeros 48

/-- Mark a line of a tier poisoned, its bytes as they stand (11 R352). -/
def markPoison (k line : Nat) (s : State) : State :=
  { s with cwp := { s.cwp with poison := tset s.cwp.poison (poisonKey k line) false } }

/-- Poison a T1 line: its record, its marking, the counts. EVENT_SEQ is the next event's (the event that reports the loss
is the next record logged). -/
def poisonLine (dev cause host : Nat) (s : State) : State :=
  let s := { s with t1 := memWrite s.t1 (dev * 64) (poisonRecord cause host s.frc.seq),
                    cwp := { s.cwp with poison := tset s.cwp.poison dev false } }
  s.bump Ctr.cwpLinesPoisoned

/-- A read of a poisoned line: counted; the first of each line logs EV_CWP_POISON_READ (R401). -/
def poisonRead (part dev : Nat) (s : State) : State :=
  let s := s.bump Ctr.cwpPoisonReads
  match tget s.cwp.poison dev with
  | some false =>
    let rec' := memRead s.t1 (dev * 64) 64
    let s := { s with cwp := { s.cwp with poison := tset s.cwp.poison dev true } }
    logEv .cwpPoisonRead pCwp part [dev, fieldAt rec' 4 1, fieldAt rec' 5 1] s
  | _ => s

-- The directory and recalls (R396-R399)

/-- Whether a recall of a line is outstanding. -/
def State.recalled (s : State) (line : Nat) : Bool := s.cwp.recalls.any (·.line == line)

/-- Hosts that hold a line. -/
def DirEntry.holders (d : DirEntry) : List Nat :=
  (maskBits 16 d.sharers) ++ (match d.owner with | some o => [o] | none => [])

/-- Send a recall of a line to a host (R398). -/
def sendRecall (line host : Nat) (inv : Bool) (s : State) : State :=
  if s.cwp.recalls.any fun r => r.line == line && r.host == host then s
  else
    let s := { s with cwp := { s.cwp with recalls := s.cwp.recalls ++ [({ line := line, host := host, inv := inv } : Recall)] } }
    (s.bump (if inv then Ctr.cwpRecallsInv else Ctr.cwpRecallsData)).emit (.bisnp host line inv)

/-- Whether a host holds a line. -/
def State.heldBy (s : State) (line host : Nat) : Bool := ((tget s.cwp.dir line).map fun d => d.holders.contains host).getD false

/-- Step 3 of a removal (R405): a line that a host of the mask holds while its extent is REMOVING is recalled with BISnpInv, also one granted to a
request accepted before, and one that an earlier recall has left Shared. -/
def removalRecall (line host : Nat) (s : State) : State :=
  match s.extentOf line with
  | some e =>
    if s.extState e = extRemoving ∧ bit (((tget s.cwp.removals e).map (·.mask)).getD 0) host ∧ s.heldBy line host then sendRecall line host true s else s
  | none => s

/-- Invalidate a line at every holder that `keep` does not exempt. -/
def recallAll (line : Nat) (keep : Nat → Bool) (s : State) : State :=
  match tget s.cwp.dir line with
  | some d => (d.holders.filter fun h => !keep h).foldl (fun s h => sendRecall line h true s) s
  | none => s

/-- Recall a line from its Exclusive owner with BISnpData. -/
def recallData (line : Nat) (s : State) : State :=
  match (tget s.cwp.dir line).bind (·.owner) with
  | some o => sendRecall line o false s
  | none => s

/-- Whether a device-side access needs a recall of a line (R398): a read, of its Exclusive owner; a write, of any holder. -/
def State.needsRecall (s : State) (write : Bool) (line : Nat) : Bool :=
  match tget s.cwp.dir line with
  | some d => if write then !d.holders.isEmpty else d.owner.isSome
  | none => false

/-- Whether a line lies in a WIPING extent, where a device-side access waits (R406). -/
def State.wiping (s : State) (line : Nat) : Bool :=
  match s.extentOf line with
  | some e => s.extState e == extWiping
  | none => false

/-- Whether an operation that waits already holds one of the lines (R399). -/
def State.lineQueued (s : State) (lines : List Nat) : Bool := s.cwp.waiting.any fun w => w.lines.any lines.contains

/-- A line that a device-side access may use at once. -/
def State.lineReady (s : State) (write : Bool) (line : Nat) : Bool :=
  !s.recalled line && !s.needsRecall write line && !s.wiping line

/-- Put an operation in the line of those that wait. -/
def enqueueWait (w : WinWait) (s : State) : State := { s with cwp := { s.cwp with waiting := s.cwp.waiting ++ [w] } }

/-- Begin a device-side access to T1 device ranges (R398): none if every line is ready, else the state in which the recalls
are sent and the operation waits. -/
def beginAccess (op : WinOp) (lines : List Nat) (write : Bool) (s : State) : Option State :=
  if lines.all (s.lineReady write) && !s.lineQueued lines then none
  else
    let s := lines.foldl (fun s l => if s.needsRecall write l then (if write then recallAll l (fun _ => false) s else recallData l s) else s) s
    some (enqueueWait { op := op, lines := lines } s)

-- Direct ranges that a command reads or writes

/-- Window lines of a direct range of T1; none for the other tiers. -/
def State.directLines (s : State) (n k a len : Nat) : List Nat := if k = 1 then s.windowLines (s.directAddr n 1 a) len else []

/-- The 512-byte units of a direct range whose integrity tag fails (13 R431), in a protected partition. -/
def State.badUnits (s : State) (n k a len : Nat) : List Nat :=
  if k = 0 ∨ s.isProtected n = false then []
  else
    let base := s.directAddr n k a
    (s.sec.badUnits.filter fun u => u.1 == k && decide (base < (u.2 + 1) * 512) && decide (u.2 * 512 < base + len)).map (·.2)

/-- Report the tag failures of a read (13 R431): the memory row involved is tested (14 R453). `who` met them, and `against` is what they count against (14 R465). -/
def tagErrors (who : Met) (against : List (Nat × Nat)) (n k kind : Nat) (units : List Nat) (s : State) : State :=
  units.foldl (fun s u => raiseErr { slot := pSec, ev := .secTagFail, cls := .contained, part := n, resource := kind * 2 ^ 56 + k * 2 ^ 52 + u * 512,
                                     unit := rowUnit? k (u / 8), session := who.session, wheel := who.wheel, against := against } (s.bump Ctr.secMemTagFailures)) s

def tagFailures (n k kind : Nat) (units : List Nat) (s : State) : State := tagErrors {} [] n k kind units s

end Sys2Proof.Machine
end

