-- ==== Sys2Proof/Machine/Host.lean ====
section
/-!
DEFINITION. Machine/Host.lean: command queues, doorbells, fetch and completion (12 R382-R393), the checks every host command
passes before its own (16 R523-R525, 15 R500, 13 R415-R417), and the queue commands.
-/
set_option cleanup.letToHave false
namespace Sys2Proof.Machine

open Sys2Proof

/-- The key of a queue of a function. -/
def qKey (fn q : Nat) : Nat := fn * 64 + q

/-- MSI-X vectors of a function: 65, or 5 for function 0 (R392). -/
def vectorsOf (fn : Nat) : Nat := if fn = 0 then 5 else 65

def State.setHif (s : State) (h : Hif) : State := { s with hif := h }

/-- Entries of a CQ that are posted and not consumed. -/
def Cq.used (q : Cq) : Nat := (q.tail + q.size - q.head) % q.size

/-- Entries of a CQ that are neither in use nor reserved; a ring keeps one entry empty (log 11). -/
def Cq.free (q : Cq) : Nat := q.size - 1 - q.used - q.reserved

-- Completion (R386, R391)

/-- What a command answers with: its status, its results, the COMMIT_SEQ of a commit-point event, and the bytes it writes
at an offset of its data buffer. -/
structure Reply where
  status : Status := .ok
  result0 : Nat := 0
  result1 : Nat := 0
  seq : Nat := 0
  data : Option (Nat × List Byte) := none
deriving DecidableEq, Repr

/-- Where a command stands after its start: ended, or still to end. -/
inductive Res where
  | fail (st : Status)
  | done (s : State) (r : Reply)
  | wait (s : State)

/-- Write a command's results at its data buffer: the direct window, the bus address, or the I3C answer (R385, 16 R524). -/
def writeBuffer (c : Cmd) (off : Nat) (b : List Byte) (s : State) : State :=
  match c.origin with
  | .i3c => s.emit (.i3cData b)
  | .queue fn _ _ => if c.dwin then s.directWrite (fn - 1) 1 (c.dptr + off) b else s.emit (.hostWrite fn (c.dptr + off) b)

/-- The 32 bytes of a completion entry (R386). -/
def Completion.bytes (e : Completion) : List Byte :=
  let (sq, cid) := match e.origin with
    | .queue _ sq cid => (sq, cid)
    | .i3c => (0, 0)
  leBytes 8 e.result0 ++ leBytes 8 e.result1 ++ leBytes 2 e.sqHead ++ leBytes 2 sq ++ leBytes 2 cid ++ leBytes 2 e.status.code ++ leBytes 4 e.seq ++
    leBytes 1 ((if e.phase then 1 else 0) + (if e.data then 2 else 0)) ++ zeros 3

/-- Post a completion entry in a CQ (R386, R389, R391): the reserved entry at the tail, PHASE inverted at each wrap, and
the vector signalled when THRESH entries have been posted since its last signal. -/
def postCq (fn cq : Nat) (e : Completion) (s : State) : State :=
  match tget s.hif.cqs (qKey fn cq) with
  | none => s.bump Ctr.hifCompletionsDiscarded
  | some q =>
    if s.hif.qErr.contains (qKey fn cq) then s.bump Ctr.hifCompletionsDiscarded
    else
      let e := { e with cq := cq, slot := q.tail, phase := q.phase }
      let wrap := q.tail + 1 = q.size
      let fire := q.thresh ≤ q.sinceSignal + 1
      let q' := { q with tail := if wrap then 0 else q.tail + 1, phase := if wrap then !q.phase else q.phase,
                         reserved := q.reserved - 1, sinceSignal := if fire then 0 else q.sinceSignal + 1 }
      let s := { s with hif := { s.hif with cqs := tset s.hif.cqs (qKey fn cq) q' } }
      let s := ((s.emit (.hostWrite fn (q.base + 32 * q.tail) e.bytes)).emit (.completion e)).bump Ctr.hifCompletionsPosted
      if fire then s.signal fn q.vector else s

/-- The record of a command in flight: of one that has started, the record that holds it; else the first of its SQ and CID that has yet to
start, since an SQ's commands start in the order of their fetch (R387). -/
def findInflight (s : State) (c : Cmd) : Option Inflight :=
  (s.hif.inflight.find? fun i => i.cmd == some c).or
    (match c.origin with
      | .queue fn sq cid => s.hif.inflight.find? fun i => i.fn == fn && i.sq == sq && i.cid == cid && !i.started
      | .i3c => none)

/-- Remove the first record that matches. -/
def dropInflight (i : Inflight) : List Inflight → List Inflight
  | [] => []
  | j :: l => if i = j then l else j :: dropInflight i l

/-- Complete a command (R386): its data first, then its entry. A command whose queues were deleted takes full effect on the device, a DWIN
buffer included, and completes without an entry, and is counted (R393). A command that was not fetched through a modelled queue answers
directly. -/
def completeNow (c : Cmd) (r : Reply) (s : State) : State :=
  let e : Completion := { origin := c.origin, status := r.status, result0 := r.result0, result1 := r.result1,
                          seq := r.seq % 2 ^ 32, data := r.data.isSome }
  let put := fun s => match r.data with
    | some (off, b) => writeBuffer c off b s
    | none => s
  match c.origin with
  | .i3c => (put s).emit (.completion e)
  | .queue fn _ _ =>
    match findInflight s c with
    | none => (put s).emit (.completion e)
    | some i =>
      let s := { s with hif := { s.hif with inflight := dropInflight i s.hif.inflight } }
      if i.live then postCq fn i.cq { e with sqHead := i.sqHead } (put s)
      else (if c.dwin then put s else s).bump Ctr.hifCompletionsDiscarded

/-- What the write of a reply's data at a DWIN buffer of window lines must wait for (R398): none if the lines are ready. -/
def replyWaits (c : Cmd) (r : Reply) (s : State) : Option State :=
  match r.data with
  | some (off, b) =>
    if c.dwin then
      beginAccess (.answer c r.status r.result0 r.result1 r.seq off b) (s.directLines c.part 1 (c.dptr + off) b.length) true s
    else none
  | none => none

/-- Complete a command; the data of a DWIN buffer waits for the recalls that its lines need. -/
def completeOne (c : Cmd) (r : Reply) (s : State) : State := (replyWaits c r s).getD (completeNow c r s)

/-- A draining partition has drained (13 R416): no turn of it exists, and every command fetched from its queues has completed. -/
def drainedNow (s : State) (n : Nat) : Bool :=
  s.pstate n == psDraining && !(s.ssq.turns.any fun t => t.part == n) && !(s.hif.inflight.any fun i => i.fn == n + 1)

/-- Complete a PARTITION_DRAIN whose partition has drained (16 R525). -/
def settleDrain (n : Nat) (s : State) : State :=
  match tget s.mgc.drains n with
  | none => s
  | some d => if drainedNow s n then completeOne d {} { s with mgc := { s.mgc with drains := tdel s.mgc.drains n } } else s

/-- Complete a command, and the drain that waited for it. -/
def complete (c : Cmd) (r : Reply) (s : State) : State := settleDrain c.part (completeOne c r s)

/-- Mark a command in flight that has started and not ended (R387). -/
def markStarted (c : Cmd) (s : State) : State :=
  match c.origin, findInflight s c with
  | .queue _ _ _, some i => { s with hif := { s.hif with inflight := s.hif.inflight.map fun j => if j = i then { j with started := true, cmd := some c } else j } }
  | _, _ => s

/-- Whether a command starts in the order in which its SQ's commands were fetched (R387): no command of the SQ that was fetched before it
has yet to start. A command that stands in no SQ of the model starts as it comes (log 3). -/
def startsInTurn (s : State) (o : Origin) : Bool :=
  match o with
  | .queue fn sq cid =>
    !(s.hif.inflight.any fun i => i.fn == fn && i.sq == sq && i.cid == cid && !i.started) ||
      ((s.hif.inflight.find? fun i => i.fn == fn && i.sq == sq && !i.held && !i.started).map (·.cid)) == some cid
  | .i3c => true

/-- Mark a command in flight as held (R390). -/
def holdCommand (c : Cmd) (s : State) : State :=
  match c.origin, findInflight s c with
  | .queue _ _ _, some i =>
    { s with hif := { s.hif with inflight := dropInflight i s.hif.inflight ++ [{ i with held := true, started := true, cmd := some c }] } }
  | _, _ => s

-- The checks every command passes

/-- What the common checks conclude: not accepted at all, ended with a status, or started. -/
inductive Gate where
  | ignore
  | fail (st : Status)
  | pass
deriving DecidableEq, Repr

/-- The data buffer's own rules (12 R385, 16 R524). -/
def bufferCheck (c : Cmd) (s : State) : Option Status :=
  match c.origin with
  | .i3c => if c.dwin || decide (65536 < c.dlen) then some .invalidField else none
  | .queue fn _ _ =>
    if c.dwin then
      if fn = 0 then some .invalidField
      else if s.inDirect (fn - 1) 1 c.dptr c.dlen then none else some .windowRange
    else if 16 * 2 ^ 20 < c.dlen then some .invalidField else none

/-- The range that TIER_WRITE names lies in its direct window (08 R252), which is known before its data is read. -/
def tierRangeOk (op : Nat) (c : Cmd) (s : State) : Bool := op != 0x0402 || s.inDirect c.part (c.arg 0 1) (c.arg 8 8) c.dlen

/-- The common checks, in the order of log 6: FATAL (01 R35), a FENCED HIF, which takes no queue's work (14 R451), the order of starts
(12 R387), the entry's encodings (00 R14) and function (16 R523), buffer (12 R385), DATA_READY (15 R500), partition state (13 R415-R417),
and the range that TIER_WRITE names (08 R252). -/
def gate (op : Nat) (c : Cmd) (s : State) : Gate :=
  if s.mgc.off then .ignore
  else if s.mgc.fatal && decide (c.fn ≠ 0) then .ignore
  else if isFenced s pHif 0 && c.origin != .i3c then .ignore
  else if !startsInTurn s c.origin then .ignore
  else if !opAllowed op c.origin || !descOk op c then .fail .invalidField
  else
    match bufferCheck c s with
    | some st => .fail st
    | none =>
      if !s.flag Reg.mgcBootDataReady && (!opBeforeReady op || (op == 0x0701 && s.pwr == pwrMgmt)) then .fail .deviceNotReady
      else if decide (c.fn ≠ 0) && !opInState op (s.pstate c.part) then .fail .partitionState
      else if !tierRangeOk op c s then .fail .windowRange
      else .pass

/-- Commands that read their data buffer, and commands that write it (16 R525). -/
def readsBuffer (op : Nat) : Bool :=
  [0x0101, 0x0105, 0x0108, 0x010A, 0x010B, 0x0201, 0x0203, 0x0205, 0x0207, 0x0301, 0x0402, 0x0505, 0x0506, 0x0507, 0x0802].contains op
def writesBuffer (op : Nat) : Bool := [0x0101, 0x0106, 0x0107, 0x0301, 0x0302, 0x0401, 0x0801, 0x0802].contains op

/-- What a DWIN buffer's lines draw before the command's own body (12 R398, R401, 13 R431): a wait for recalls, a status, or nothing. -/
def bufferAccess (op : Nat) (c : Cmd) (s : State) : Option (State × Option Status) :=
  if !c.dwin || (!readsBuffer op && !writesBuffer op) then none
  else
    match beginAccess (.command op c) (s.directLines c.part 1 c.dptr c.dlen) (writesBuffer op) s with
    | some s => some (s, none)
    | none =>
      if !readsBuffer op then none
      else
        let bad := s.badUnits c.part 1 c.dptr c.dlen
        if !bad.isEmpty then some (tagFailures c.part 1 6 bad s, some .integrity)
        else
          match s.directPoisoned c.part 1 c.dptr c.dlen with
          | [] => none
          | l => some (l.foldl (fun s l => poisonRead c.part l s) s, some .windowPoison)

/-- Run a body and complete its command if it has ended; else it has started (R387). -/
def runBody (c : Cmd) (body : State → Res) (s : State) : State :=
  match body s with
  | .fail st => complete c { status := st } s
  | .done s' r => complete c r s'
  | .wait s' => markStarted c s'

/-- A body refuses its command. -/
def Res.refused : Res → Bool
  | .fail _ => true
  | .done _ _ => false
  | .wait _ => false

/-- Run a command past the common checks: its buffer's lines, then its body. A refusal that rests on nothing the buffer holds comes before
any access to it (00 R14, 08 R252). -/
def startBody (op : Nat) (c : Cmd) (body : State → Res) (s : State) : State :=
  if !readsBuffer op && (body s).refused then runBody c body s
  else
    match bufferAccess op c s with
    | some (s', some st) => complete c { status := st } s'
    | some (s', none) => markStarted c s'
    | none => runBody c body s

/-- Run a host command: the common checks, then its own body. -/
def hostCmd (op : Nat) (c : Cmd) (body : State → Res) (s : State) : State :=
  match gate op c s with
  | .ignore => s
  | .fail st => complete c { status := st } s
  | .pass => startBody op c body s

/-- End a body with a status unless a condition holds. -/
def need (b : Bool) (st : Status) (k : Res) : Res := if b then k else .fail st

-- QUEUE_CREATE, QUEUE_DELETE (R384)

/-- Whether the command stands on its function's admin SQ. -/
def onAdmin (c : Cmd) : Bool :=
  match c.origin with
  | .queue _ sq _ => sq == 0
  | .i3c => false

/-- Create a queue (R384). -/
def queueCreate (c : Cmd) (s : State) : Res :=
  let fn := c.fn
  let kind := c.arg 0 1
  let qid := c.arg 1 1
  let size := c.arg 2 2
  let cqid := c.arg 4 1
  let vec := c.arg 5 1
  let base := c.arg 0x10 8
  need (onAdmin c) .queueInvalid <|
  need (queueArgsOk c true) .invalidField <|
  need (decide (2 ≤ size ∧ size ≤ 4096) && base % 4096 == 0) .queueInvalid <|
  if kind = 0 then
    need ((tget s.hif.sqs (qKey fn qid)).isNone && (tget s.hif.cqs (qKey fn cqid)).isSome && decide (cqid < queuesOf fn)) .queueInvalid <|
    .done { s with hif := { s.hif with sqs := tset s.hif.sqs (qKey fn qid) { size := size, base := base, cqid := cqid } } } {}
  else
    need ((tget s.hif.cqs (qKey fn qid)).isNone && decide (vec < vectorsOf fn)) .queueInvalid <|
    let q : Cq := { size := size, base := base, vector := vec, thresh := c.arg 6 1, delayUs := c.arg 8 2 }
    .done { s with hif := { s.hif with cqs := tset s.hif.cqs (qKey fn qid) q } } {}

def execQueueCreate (c : Cmd) (s : State) : Host.Outcome State Fault Refusal :=
  .next (hostCmd 0x0001 c (queueCreate c) s)

/-- Whether some SQ of the function names a CQ. -/
def cqNamed (s : State) (fn qid : Nat) : Bool :=
  s.hif.sqs.any fun q => q.1 / 64 == fn && q.2.cqid == qid

/-- Take a pair out of ERROR (R388). -/
def clearErr (k : Nat) (s : State) : State :=
  { s with hif := { s.hif with qErr := s.hif.qErr.filter (· != k) } }

/-- Delete a queue (R384): the pair leaves ERROR (R388); commands in flight into a deleted CQ lose their entry. -/
def queueDelete (c : Cmd) (s : State) : Res :=
  let fn := c.fn
  let kind := c.arg 0 1
  let qid := c.arg 1 1
  let k := qKey fn qid
  need (onAdmin c) .queueInvalid <|
  need (queueArgsOk c false) .invalidField <|
  if kind = 0 then
    need (tget s.hif.sqs k).isSome .queueInvalid <|
    .done (clearErr k { s with hif := { s.hif with sqs := tdel s.hif.sqs k } }) {}
  else
    need ((tget s.hif.cqs k).isSome && !cqNamed s fn qid) .queueInvalid <|
    let inf := s.hif.inflight.map fun i => if i.fn = fn ∧ i.cq = qid then { i with live := false } else i
    .done (clearErr k { s with hif := { s.hif with cqs := tdel s.hif.cqs k, inflight := inf } }) {}

def execQueueDelete (c : Cmd) (s : State) : Host.Outcome State Fault Refusal :=
  .next (hostCmd 0x0002 c (queueDelete c) s)

-- Queue loss (R393)

/-- A function that the host reaches: function 0, or a partition's function while its LD presents it (R379); on an isolated LD every request
receives Unsupported Request (14 R460). -/
def State.fnShown (s : State) (fn : Nat) : Bool :=
  (fn == 0 || (decide (fn ≤ 16) && s.hif.presented.any fun p => p.2 == fn)) &&
    !s.hif.presented.any fun p => p.2 == fn && s.hif.isolated.contains p.1

/-- A function that answers: one that the host reaches, while there is power; a partition's function not in FATAL (01 R35). -/
def State.fnLive (s : State) (fn : Nat) : Bool := !s.mgc.off && s.fnShown fn && (fn == 0 || !s.mgc.fatal)

/-- Whether a row's sender is function 0, reached by the host: the sender of the registers that only function 0 writes (16 R513). -/
def State.operator (s : State) (from_ : Nat) : Bool := from_ == 0 && s.fnShown 0

/-- A CXL.io request through a function that PCIe and this manual take as they find it: one more request of its LD (14 R459). -/
def countIo (fn : Nat) (s : State) : State :=
  match (s.hif.presented.find? fun p => p.2 == fn && !s.hif.isolated.contains p.1).map (·.1) with
  | some ld => s.setFrc { s.frc with hosts := tset s.frc.hosts ld ((tgetD s.frc.hosts ld {}).count 1 false).1 }
  | none => s

/-- Delete every queue of a function; commands already fetched run on, and their completions are discarded (R393). -/
def dropQueues (fn : Nat) (s : State) : State :=
  { s with hif := { s.hif with
      sqs := s.hif.sqs.filter fun q => q.1 / 64 != fn
      cqs := s.hif.cqs.filter fun q => q.1 / 64 != fn
      qErr := s.hif.qErr.filter fun k => k / 64 != fn
      inflight := s.hif.inflight.map fun i => if i.fn = fn then { i with live := false } else i } }

/-- AQ_CTRL.EN of a function. -/
def aqEn (fn : Nat) : Fld := if fn = 0 then Reg.hif0AqCtrlEn else Reg.hifPbAqCtrlEn (fn - 1)
def aqSqSize (fn : Nat) : Fld := if fn = 0 then Reg.hif0AqCtrlSqSize else Reg.hifPbAqCtrlSqSize (fn - 1)
def aqCqSize (fn : Nat) : Fld := if fn = 0 then Reg.hif0AqCtrlCqSize else Reg.hifPbAqCtrlCqSize (fn - 1)
def aqSqBase (fn : Nat) : Fld := if fn = 0 then Reg.hif0AqSqBase else Reg.hifPbAqSqBase (fn - 1)
def aqCqBase (fn : Nat) : Fld := if fn = 0 then Reg.hif0AqCqBase else Reg.hifPbAqCqBase (fn - 1)

/-- Delete the queues of a function and clear its AQ_CTRL.EN (R383, R393). -/
def loseQueues (fn : Nat) (s : State) : State := (dropQueues fn s).setF (aqEn fn) 0

/-- Write AQ_CTRL of the function `fn` through the function `from_` (R383): the sizes, then EN. A function that is not presented cannot set
its pair. -/
def aqCtrlWrite (from_ fn sqSize cqSize en : Nat) (s : State) : State :=
  if from_ ≠ fn ∨ s.fnLive fn = false ∨ 1 < en then s
  else
    let sizesOk := decide (2 ≤ sqSize ∧ sqSize ≤ 4096 ∧ 2 ≤ cqSize ∧ cqSize ≤ 4096)
    if en = 1 then
      if s.flag (aqEn fn) then
        s
      else if !sizesOk then s
      else
        let s := (((s.setF (aqSqSize fn) sqSize).setF (aqCqSize fn) cqSize).setF (aqEn fn) 1)
        { s with hif := { s.hif with
            sqs := tset s.hif.sqs (qKey fn 0) { size := sqSize, base := s.getF (aqSqBase fn) * 4096, cqid := 0 }
            cqs := tset s.hif.cqs (qKey fn 0) { size := cqSize, base := s.getF (aqCqBase fn) * 4096, vector := 1 } } }
    else
      let s := if 2 ≤ sqSize ∧ sqSize ≤ 4096 then s.setF (aqSqSize fn) sqSize else s
      let s := if 2 ≤ cqSize ∧ cqSize ≤ 4096 then s.setF (aqCqSize fn) cqSize else s
      loseQueues fn s

/-- AQ_CTRL_WRITE: a write of the admin queue control register of function `fn`, through function `from_`. -/
def execAqCtrlWrite (from_ fn sqSize cqSize en : Nat) (s : State) : Host.Outcome State Fault Refusal :=
  .next (countIo from_ (powered (aqCtrlWrite from_ fn sqSize cqSize en) s))

-- Doorbells (R388)

/-- An invalid doorbell write: the pair enters ERROR. -/
def doorbellError (fn q value : Nat) (s : State) : State :=
  let k := qKey fn q
  let s := { s with hif := { s.hif with qErr := if s.hif.qErr.contains k then s.hif.qErr else k :: s.hif.qErr } }
  logEv .hifQueueError pHif (if fn = 0 then 0xFF else fn - 1) [fn, q, value] (s.bump Ctr.hifDoorbellErrors)

/-- Write an SQ tail doorbell. The outstanding entries are those from head to the new tail; fewer than those already
told would pass the ring, so the value is read modulo the ring (R388). -/
def sqTail (fn q value : Nat) (s : State) : State :=
  match tget s.hif.sqs (qKey fn q) with
  | none => doorbellError fn q value s
  | some r =>
    let old := (r.tail + r.size - r.head) % r.size
    let new := (value + r.size - r.tail) % r.size
    if r.size ≤ value ∨ r.size - 1 < old + new then doorbellError fn q value s
    else { s with hif := { s.hif with sqs := tset s.hif.sqs (qKey fn q) { r with tail := value } } }

/-- SQ_TAIL_DOORBELL. A page that the function's BAR2 does not have is no address of it, and a function that is not presented has no BAR2: a
write there reaches nothing. -/
def sqDoorbell (fn q value : Nat) (s : State) : State := if s.fnShown fn = false ∨ queuesOf fn ≤ q then s else sqTail fn q value s

def execSqTailDoorbell (fn q value : Nat) (s : State) : Host.Outcome State Fault Refusal := .next (countIo fn (powered (sqDoorbell fn q value) s))

/-- Write a CQ head doorbell: it may not pass the last entry the device has posted (R388). -/
def cqHead (fn q value : Nat) (s : State) : State :=
  match tget s.hif.cqs (qKey fn q) with
  | none => doorbellError fn q value s
  | some r =>
    if r.size ≤ value ∨ r.used < (value + r.size - r.head) % r.size then doorbellError fn q value s
    else { s with hif := { s.hif with cqs := tset s.hif.cqs (qKey fn q) { r with head := value } } }

/-- CQ_HEAD_DOORBELL, as SQ_TAIL_DOORBELL. -/
def cqDoorbell (fn q value : Nat) (s : State) : State := if s.fnShown fn = false ∨ queuesOf fn ≤ q then s else cqHead fn q value s

def execCqHeadDoorbell (fn q value : Nat) (s : State) : Host.Outcome State Fault Refusal := .next (countIo fn (powered (cqDoorbell fn q value) s))

-- Fetch (R387, R389, R390)

/-- Commands of a function fetched and not completed, held commands left out (R387). -/
def inflightOf (s : State) (fn : Nat) : Nat := (s.hif.inflight.filter fun i => i.fn == fn && !i.held).length

/-- SQs of a function that complete into a CQ. -/
def sqsInto (s : State) (fn cq : Nat) : Nat := (s.hif.sqs.filter fun q => q.1 / 64 == fn && q.2.cqid == cq).length

/-- A submission entry's general encoding (R385): reserved bytes and flag bits zero, a listed opcode of the function. -/
def entryOk (fn : Nat) (e : List Byte) : Bool :=
  decide (fieldAt e 2 1 < 4) && fieldAt e 3 1 == 0 && fieldAt e 6 2 == 0 && fieldAt e 0x38 8 == 0 &&
    opAllowed (fieldAt e 0 2) (.queue fn 0 0)

/-- The command that a fetched entry starts, its buffer's bytes as the host holds them. -/
def cmdOfEntry (fn q : Nat) (e data : List Byte) : Cmd :=
  { origin := .queue fn q (fieldAt e 4 2), args := slice e 8 32, fence := bit (fieldAt e 2 1) 0, dwin := bit (fieldAt e 2 1) 1,
    dptr := fieldAt e 0x28 8, dlen := fieldAt e 0x30 8, data := data }

/-- Whether an SQ has entries that the device may fetch: the pair is not in ERROR and its CQ has an entry to reserve (R387-R389). -/
def sqWaits (s : State) (fn q : Nat) : Bool :=
  match tget s.hif.sqs (qKey fn q) with
  | none => false
  | some r => !s.hif.qErr.contains (qKey fn q) && decide (r.head ≠ r.tail) && decide (0 < ((tget s.hif.cqs (qKey fn r.cqid)).map Cq.free).getD 0)

/-- The SQ of a function at which its round stands (R387): the next in ascending id from the last one that had its turn, then from 0. -/
def roundNext (s : State) (fn : Nat) : Option Nat :=
  let l := (List.range (queuesOf fn)).filter (sqWaits s fn)
  (l.find? fun q => decide (tgetD s.hif.rounds fn 0 ≤ q)).or l.head?

/-- An SQ has had its turn of the round. -/
def roundPast (fn q : Nat) (s : State) : State := { s with hif := { s.hif with rounds := tcount s.hif.rounds fn (q + 1) } }

/-- Whether the device may fetch the entry at the head of an SQ now: the pair runs, an entry waits, the function is below
its limit, FENCE has nothing before it, and the CQ has an entry to reserve; a TURN_SUBMIT must leave one for each SQ. -/
def mayFetch (fn q : Nat) (e : List Byte) (r : Sq) (cq : Cq) (s : State) : Bool :=
  !(s.mgc.fatal && decide (fn ≠ 0)) && !s.hif.qErr.contains (qKey fn q) && decide (r.head ≠ r.tail) &&
  decide (inflightOf s fn < if fn = 0 then 64 else 4096) &&
  (!bit (fieldAt e 2 1) 0 || !s.hif.inflight.any fun i => i.fn == fn && i.sq == q) &&
  (if fieldAt e 0 2 = 0x0108 then decide (sqsInto s fn r.cqid < cq.free) else decide (0 < cq.free))

/-- Fetch the next entry of an SQ, if the round stands there (R387): its head advances, its completion entry is reserved, and the command is
in flight. An SQ whose entry may not be fetched yet, for its FENCE, its TURN_SUBMIT or the function's limit, has had its turn. An entry whose general encoding is wrong completes at once with ST_INVALID_FIELD (00 R14). The command's own row then gives
its effect. -/
def commandFetch (fn q : Nat) (e : List Byte) (s : State) : State :=
  match tget s.hif.sqs (qKey fn q) with
  | none => s
  | some r =>
    match tget s.hif.cqs (qKey fn r.cqid) with
    | none => s
    | some cq =>
      if roundNext s fn ≠ some q then s
      else if !mayFetch fn q e r cq s then roundPast fn q s
      else
        let head := (r.head + 1) % r.size
        let i : Inflight := { fn := fn, sq := q, cid := fieldAt e 4 2, cq := r.cqid, sqHead := head }
        let s := { s with hif := { s.hif with
                     sqs := tset s.hif.sqs (qKey fn q) { r with head := head }
                     cqs := tset s.hif.cqs (qKey fn r.cqid) { cq with reserved := cq.reserved + 1 }
                     inflight := s.hif.inflight ++ [i] } }
        let s := (roundPast fn q s).bump Ctr.hifCommandsFetched
        if entryOk fn e then s else complete (cmdOfEntry fn q e []) { status := .invalidField } s

def execCommandFetch (fn q : Nat) (entry : List Byte) (s : State) : Host.Outcome State Fault Refusal :=
  .next (powered (fun s => if isFenced s pHif 0 then s else commandFetch fn q entry s) s)

/-- The coalescing delay of a CQ passes: its vector is signalled if entries wait (R391). -/
def cqDelayExpiry (fn q : Nat) (s : State) : State :=
  match tget s.hif.cqs (qKey fn q) with
  | some r =>
    if r.sinceSignal = 0 then s
    else ({ s with hif := { s.hif with cqs := tset s.hif.cqs (qKey fn q) { r with sinceSignal := 0 } } }).signal fn r.vector
  | none => s

def execCqDelayExpiry (fn q : Nat) (s : State) : Host.Outcome State Fault Refusal := .next (powered (cqDelayExpiry fn q) s)

/-- A function's MSI-X vectors as a reset of the function leaves them (R391). -/
def resetMsix (fn : Nat) (s : State) : State :=
  { s with hif := { s.hif with msix := s.hif.msix.filter fun v => v.1 / 128 != fn, msixCtl := tdel s.hif.msixCtl fn } }

/-- A function-level reset deletes the function's queues (R393). -/
def functionLevelReset (fn : Nat) (s : State) : State := resetMsix fn (loseQueues fn s)

/-- FUNCTION_LEVEL_RESET, of a function that the host reaches. -/
def execFunctionLevelReset (fn : Nat) (s : State) : Host.Outcome State Fault Refusal :=
  .next (countIo fn (powered (fun s => if s.fnShown fn then functionLevelReset fn s else s) s))

-- BAR4 and the component registers of an LD (R378, R380)

/-- The vectors of a function whose pending bits lie in a 64-bit word of its pending bit array (R380). -/
def pbaWord (s : State) (fn w : Nat) : Nat :=
  ((List.range 64).filter fun i => decide (64 * w + i < vectorsOf fn) && (s.msixVec fn (64 * w + i)).pending).foldl setBit 0

/-- Send what is pending at the vectors of a function that are not masked, once the function sends messages (R391). -/
def sendPending (fn : Nat) (s : State) : State :=
  if !s.msixOn fn then s
  else (List.range (vectorsOf fn)).foldl (fun s v =>
    let e := s.msixVec fn v
    if e.pending && !e.masked then (putMsix fn v { e with pending := false } s).signal fn v else s) s

/-- Write Message Control of a function's MSI-X capability: MSI-X Enable and Function Mask (R391). -/
def msixControl (fn v : Nat) (s : State) : State :=
  sendPending fn { s with hif := { s.hif with msixCtl := tcount s.hif.msixCtl fn (bits v 14 2 * 2 ^ 14) } }

/-- Write a 32-bit word of a function's MSI-X table (R380): address, data and the mask bit of a 16-byte entry. A vector that is unmasked with
its pending bit set sends its message (R391). -/
def msixWrite (fn vector word v : Nat) (s : State) : State :=
  if vectorsOf fn ≤ vector then s
  else
    let e := s.msixVec fn vector
    match word with
    | 0 => putMsix fn vector { e with addr := e.addr / 2 ^ 32 * 2 ^ 32 + v % 2 ^ 32 / 4 * 4 } s
    | 1 => putMsix fn vector { e with addr := e.addr % 2 ^ 32 + v % 2 ^ 32 * 2 ^ 32 } s
    | 2 => putMsix fn vector { e with data := v % 2 ^ 32 } s
    | _ =>
      sendPending fn (putMsix fn vector { e with masked := v % 2 == 1 } s)

/-- Where the model's offsets place Message Control, which the capability has in configuration space (log 65). -/
def msixCtlAt : Nat := 0x3000

/-- Read a 32-bit word of a function's BAR4 (R380): the table at 0x0000, the pending bit array at 0x2000; and Message Control, with the table's
size less 1 in its bits [10:0]. -/
def bar4Read (s : State) (fn off : Nat) : Nat :=
  if off / 4 * 4 = msixCtlAt then tgetD s.hif.msixCtl fn 0 + (vectorsOf fn - 1)
  else if 0x2000 ≤ off then bits (pbaWord s fn ((off - 0x2000) / 8)) (off % 8 * 8) 32
  else
    let e := s.msixVec fn (off / 16)
    if vectorsOf fn ≤ off / 16 then 0
    else match off % 16 / 4 with
      | 0 => e.addr % 2 ^ 32
      | 1 => e.addr / 2 ^ 32
      | 2 => e.data
      | _ => if e.masked then 1 else 0

/-- Write a function's BAR4 in words of 32 bits; the pending bit array is read-only. -/
def bar4Write (fn off size v : Nat) (s : State) : State :=
  if off = msixCtlAt then msixControl fn (v % 2 ^ 16) s
  else if 0x2000 ≤ off then s
  else
    let s := msixWrite fn (off / 16) (off % 16 / 4) (v % 2 ^ 32) s
    if size = 8 then msixWrite fn (off / 16) (off % 16 / 4 + 1) (v / 2 ^ 32) s else s

/-- The component registers of an LD that a 32-bit word at an offset writes (log 65): the global HDM control at 0x00, decoder i at
0x10 + 0x20 i with base, size and control, the RAS capability from 0x100. Base and size have 256 MiB granularity (R394). A decoder that is
committed keeps its range until it is uncommitted, as CXL 3.1 has it. -/
def ldRegWrite (ld off v : Nat) (s : State) : State :=
  let r := tgetD s.hif.ldRegs ld {}
  let put := fun (r : LdRegs) => { s with hif := { s.hif with ldRegs := tset s.hif.ldRegs ld r } }
  let i := (off - 0x10) / 0x20
  let d := tgetD r.decoders i {}
  let low := fun (old : Nat) => old / 2 ^ 32 * 2 ^ 32 + v / 2 ^ 28 * 2 ^ 28
  let high := fun (old : Nat) => old % 2 ^ 32 + v * 2 ^ 32
  let dec := fun (d : HdmDecoder) => put { r with decoders := tset r.decoders i d }
  if off = 0 then put { r with hdmCtrl := v % 4 }
  else if off < 0x10 then s
  else if i < 4 then
    match (off - 0x10) % 0x20 with
    | 0x00 => if bit d.ctrl 10 then s else dec { d with base := low d.base }
    | 0x04 => if bit d.ctrl 10 then s else dec { d with base := high d.base }
    | 0x08 => if bit d.ctrl 10 then s else dec { d with size := low d.size }
    | 0x0C => if bit d.ctrl 10 then s else dec { d with size := high d.size }
    | 0x10 => dec { d with ctrl := v % 2 ^ 10 + (if bit v 9 then 2 ^ 10 else 0) }
    | _ => s
  else
    match off with
    | 0x100 => put { r with ras := tcount r.ras 0x00 (tgetD r.ras 0x00 0 &&& (2 ^ 32 - 1 - v)) }
    | 0x104 => put { r with ras := tset r.ras 0x04 v }
    | 0x108 => put { r with ras := tset r.ras 0x08 v }
    | 0x10C => put { r with ras := tcount r.ras 0x0C (tgetD r.ras 0x0C 0 &&& (2 ^ 32 - 1 - v)) }
    | 0x110 => put { r with ras := tset r.ras 0x10 v }
    | 0x114 => put { r with ras := tset r.ras 0x14 v }
    | _ => s

/-- The device physical address space that every LD reports: the whole window range (R394). -/
def State.dpaBytes (s : State) : Nat := s.getF Reg.cwpWindowSize * 2 ^ 28

/-- Where an LD's CXL device registers begin in its 64 KiB of the model's offsets, and in them the device status, the mailbox, its 256-byte
payload registers and the memory device status (log 65). -/
def devRegsAt : Nat := 0x1000
def devStatusAt : Nat := 0x80
def mboxAt : Nat := 0x100
def mboxPayloadAt : Nat := 0x120
def memStatusAt : Nat := 0x280

/-- The answer to Identify Memory Device: the whole window as volatile capacity, in units of 256 MiB (R394, log 65). -/
def identifyBytes (s : State) : List Byte :=
  zeros 16 ++ leBytes 8 (s.dpaBytes / 2 ^ 28) ++ leBytes 8 (s.dpaBytes / 2 ^ 28) ++ zeros 35

/-- A mailbox command of an LD, started by its doorbell, ends at once (log 65): Identify Memory Device is answered, any other is unsupported. -/
def mboxRun (r : LdRegs) (s : State) : LdRegs :=
  if r.mboxCmd % 2 ^ 16 = 0x4000 then
    if bits r.mboxCmd 16 21 = 0 then
      { r with mboxCmd := 0x4000 + (identifyBytes s).length * 2 ^ 16, mboxReturn := 0, mboxPayload := identifyBytes s }
    else { r with mboxReturn := 2 }
  else { r with mboxReturn := 3 }

/-- A 32-bit word of the CXL device registers of an LD (R378, log 65): the capabilities array with its three headers, the status of the device,
the mailbox, and the status of the memory device, which shows FATAL. -/
def devRegRead (s : State) (r : LdRegs) (off : Nat) : Nat :=
  let head := fun (id at_ len : Nat) => leBytes 2 id ++ leBytes 2 1 ++ leBytes 4 at_ ++ leBytes 4 len ++ zeros 4
  if off < 0x40 then
    fieldAt (leBytes 4 (1 * 2 ^ 16 + 1 * 2 ^ 24) ++ leBytes 4 3 ++ zeros 8 ++ head 1 devStatusAt 8 ++ head 2 mboxAt 0x120 ++ head 0x4000 memStatusAt 8) off 4
  else if off = mboxAt then 8
  else if off = mboxAt + 8 then r.mboxCmd % 2 ^ 32
  else if off = mboxAt + 12 then r.mboxCmd / 2 ^ 32
  else if off = mboxAt + 20 then r.mboxReturn
  else if mboxPayloadAt ≤ off ∧ off < mboxPayloadAt + 256 then fieldAt r.mboxPayload (off - mboxPayloadAt) 4
  else if off = memStatusAt then (if s.mgc.fatal then 1 else 0) + (if s.flag Reg.mgcBootDataReady then 4 else 0) + 16
  else 0

/-- A write of a 32-bit word of the CXL device registers of an LD: the mailbox's command, payload and doorbell. -/
def devRegWrite (ld off v : Nat) (s : State) : State :=
  let r := tgetD s.hif.ldRegs ld {}
  let put := fun (r : LdRegs) => { s with hif := { s.hif with ldRegs := tset s.hif.ldRegs ld r } }
  if off = mboxAt + 4 then (if v % 2 = 1 then put (mboxRun r s) else s)
  else if off = mboxAt + 8 then put { r with mboxCmd := r.mboxCmd / 2 ^ 32 * 2 ^ 32 + v }
  else if off = mboxAt + 12 then put { r with mboxCmd := r.mboxCmd % 2 ^ 32 + v % 2 ^ 5 * 2 ^ 32 }
  else if mboxPayloadAt ≤ off ∧ off < mboxPayloadAt + 256 then
    let i := off - mboxPayloadAt
    put { r with mboxPayload := slice r.mboxPayload 0 i ++ leBytes 4 v ++ slice r.mboxPayload (i + 4) (256 - i - 4) }
  else s

/-- A write of 4 or 8 bytes to the component or device registers of an LD. -/
def componentWrite (ld off size v : Nat) (s : State) : State :=
  let put := fun (o v : Nat) (s : State) => if devRegsAt ≤ o then devRegWrite ld (o - devRegsAt) v s else ldRegWrite ld o v s
  let s := put off (v % 2 ^ 32) s
  if size = 8 then put (off + 4) (v / 2 ^ 32) s else s

end Sys2Proof.Machine
end

