-- ==== Sys2Proof/Machine/Expert.lean ====
section
/-!
DEFINITION. Machine/Expert.lean: who may write registers, and the expert windows (16 R512-R517).
-/
set_option cleanup.letToHave false
namespace Sys2Proof.Machine

open Sys2Proof

/-- Whether a page's expert window is open to a function (R516). -/
def State.expertOpen (s : State) (slot fn : Nat) : Bool :=
  s.fnLive fn && (if fn = 0 then s.flag (Reg.blkExpertUnlockMaskOper slot) else bit (s.getF (Reg.blkExpertUnlockMaskPart slot)) (fn - 1))

/-- Whether an expert operation may act on an object of a partition (R517). -/
def State.expertObject (s : State) (slot fn part : Nat) : Bool :=
  bit (s.getF (Reg.blkExpertUnlockMaskPart slot)) part && (fn == 0 || fn == part + 1)

/-- An expert register that names no partition is written through function 0 only (R517). -/
def State.expertDevice (s : State) (slot fn : Nat) : Bool := fn == 0 && s.expertOpen slot 0

/-- What happens while they run. -/
def live (f : State → State) (s : State) : State := if s.running then f s else s

/-- What the arrays and the tending cores do: nothing while their clocks are stopped in QUIESCE (15 R482). -/
def clocked (f : State → State) (s : State) : State := live (fun s => if s.pwr = pwrQuiesce then s else f s) s

/-- The 64-bit word `i` of a byte string, for a run of data registers. -/
def regWord (b : List Byte) (i : Nat) : Nat := fieldAt b (8 * i) 8

/-- Write a byte string into a run of `n` 64-bit data registers. -/
def showBytes (f : Nat → Fld) (n : Nat) (b : List Byte) (s : State) : State :=
  (List.range n).foldl (fun s i => s.setF (f i) (regWord b i)) s

end Sys2Proof.Machine
end

