-- ==== Sys2Proof/Machine/Sluice.lean ====
section
/-!
DEFINITION. Machine/Sluice.lean: Sluice arbitration (09 R289-R301). The 61 instances: 0-7 the HBM stacks, 8 the DIMM group,
9-10 the CXD paths, 11-18 the NVC paths, 19-52 the expanders, 53-60 the egress of the Xebrilink ports. At instances 0-52 the
operations that reach a queue are given with the decision that meets them (log 21); at the expanders EXPANDER_DECODE presents the pages of
the attention's gangs; at 53-60 the transfers are the packets that the connections have queued.
-/
set_option cleanup.letToHave false
namespace Sys2Proof.Machine

open Sys2Proof

def sluInsts : Nat := 61
def sluRequesters : Nat := 33
def firstExpander : Nat := 19
def firstEgress : Nat := 53

/-- The largest transfer of a grant at a memory path (R289). -/
def maxTransfer : Nat := 68 * 1024

def State.slu? (s : State) (i : Nat) : SluInst := tgetD s.slu i {}
def State.setSlu (s : State) (i : Nat) (v : SluInst) : State := { s with slu := tset s.slu i v }

/-- WINDOW, HOLD_MAX, QUARANTINE, BULK_EVERY, SYS_WEIGHT as the register holds them (R301). -/
def sluCtrlReg (s : State) (i : Nat) : Nat × Nat × Nat × Nat × Nat :=
  (s.getF (Reg.sluInstCtrlWindow i), s.getF (Reg.sluInstCtrlHoldMax i), s.getF (Reg.sluInstCtrlQuarantine i),
   s.getF (Reg.sluInstCtrlBulkEvery i), s.getF (Reg.sluInstCtrlSysWeight i))

/-- The same in force: those of the last window boundary, the reset values before the first (R301). -/
def sluCtrl (s : State) (i : Nat) : Nat × Nat × Nat × Nat × Nat := ((s.slu? i).ctrl).getD (4096, 64, 4, 0, 256)

/-- Weight and wait limit of a requester (R293). -/
def sluWeight (s : State) (i r : Nat) : Nat :=
  if r < 16 then s.getF (Reg.sluPbWeightUrgent r i)
  else if r < 32 then s.getF (Reg.sluPbWeightBulk (r - 16) i)
  else (sluCtrl s i).2.2.2.2
def sluLimit (s : State) (i r : Nat) : Nat :=
  if r < 16 then s.getF (Reg.sluPbWeightWaitU r i) else if r < 32 then s.getF (Reg.sluPbWeightWaitB (r - 16) i) else 64

/-- Packet bytes on the link, and the class of the packet at the head of an egress queue (10 R319, R310). -/
def findTx (s : State) (p : EgressPkt) : Option (Conn × TxMsg) :=
  (tget s.xfe.conns p.conn).bind fun c => (c.tx.find? (·.seq == p.seq)).map fun m => (c, m)

/-- Payload bytes of packet `j` of a message. -/
def TxMsg.payload (m : TxMsg) (j : Nat) : List Byte := (m.data.drop (4096 * j)).take 4096

/-- Bytes a packet occupies on the link (10 R319, 13 R432). -/
def packetBytes (isSealed : Bool) (len : Nat) : Nat := 72 + len + (if isSealed then 8 * max 1 (cdiv len 512) else 0)

/-- Bytes that a message of the prefix store is charged: the spec gives it no layout (log 76). -/
def OwnMsg.size (m : OwnMsg) : Nat := packetBytes false (8 * m.words.length + m.bytes.length)

/-- Link credits that a port holds of a class (10 R310). -/
def State.linkCredit (s : State) (port cls : Nat) : Nat := tgetD s.xfe.credits (port * 4 + cls) 0

/-- The head transfer of a requester at an instance, if it holds one; at an egress port only a packet whose class the port
holds a link credit for takes part (10 R310). -/
def sluHead (s : State) (i r : Nat) : Option SluReq :=
  if i < firstEgress then (tgetD (s.slu? i).queues r []).head?
  else
    match (tgetD s.xfe.egress ((i - firstEgress) * sluRequesters + r) []).head? with
    | none => none
    | some p =>
      match p.own with
      | some m => if 0 < s.linkCredit (i - firstEgress) 1 then some { bytes := m.size, pkt := some p } else none
      | none =>
      match findTx s p with
      | none => some { bytes := 72, pkt := some p }
      | some (c, m) =>
        if 0 < s.linkCredit (i - firstEgress) m.cls then some { bytes := packetBytes (s.isProtected c.part) (m.payload p.index).length, pkt := some p } else none

/-- Take the head off a requester's queue. -/
def sluPop (i r : Nat) (s : State) : State :=
  if i < firstEgress then
    let v := s.slu? i
    s.setSlu i { v with queues := tset v.queues r ((tgetD v.queues r []).drop 1) }
  else
    let k := (i - firstEgress) * sluRequesters + r
    { s with xfe := { s.xfe with egress := tset s.xfe.egress k ((tgetD s.xfe.egress k []).drop 1) } }

/-- Put a preempted transfer back at the head of its queue (R297). -/
def sluPush (i r : Nat) (q : SluReq) (s : State) : State :=
  if i < firstEgress then
    let v := s.slu? i
    s.setSlu i { v with queues := tset v.queues r (q :: tgetD v.queues r []) }
  else
    let k := (i - firstEgress) * sluRequesters + r
    match q.pkt with
    | some p => { s with xfe := { s.xfe with egress := tset s.xfe.egress k (p :: tgetD s.xfe.egress k []) } }
    | none => s

/-- The requester that an operation is charged to (R291, R292). -/
def arrivalRequester (a : Arrival) : Nat :=
  match a.traffic with
  | .stepRead | .shaftDue | .dueRecovery => a.part % 16
  | .movement | .other => 16 + a.part % 16
  | .system => 32

/-- Put requests at the end of a requester's queue. -/
def sluQueue (i r : Nat) (l : List SluReq) (s : State) : State :=
  let v := s.slu? i
  s.setSlu i { v with queues := tset v.queues r (tgetD v.queues r [] ++ l) }

/-- The transfers of an operation (R290): at a memory path at most 68 KiB each, in address order; at an expander the page is one. -/
def sluTransfers (i n : Nat) : List SluReq :=
  if firstExpander ≤ i then [{ bytes := n }]
  else List.replicate (n / maxTransfer) { bytes := maxTransfer } ++ (if n % maxTransfer = 0 then [] else [{ bytes := n % maxTransfer }])

/-- The operations that reach a memory or expander instance join the queues of their requesters. -/
def sluArrive (i : Nat) (arrivals : List Arrival) (s : State) : State :=
  if firstEgress ≤ i then s else arrivals.foldl (fun s a => sluQueue i (arrivalRequester a) (sluTransfers i a.bytes) s) s

-- Pages that wait for decode (R290)

/-- A recovery read of a page, as the key of its request at an expander (04 R142). -/
def recoveryKey (h : Nat) : Nat × Nat × Nat := (2 ^ 32, h, 0)

/-- The gang of a page that waits at an expander still reads, or the page whose recovery waits there is still in recovery. -/
def pageWaits (s : State) (k : Nat × Nat × Nat) : Bool :=
  if k.1 = 2 ^ 32 then ((tget s.tmg.records k.2.1).map (·.recovery)).getD false
  else match (tget s.ssq.wheels k.1).bind fun x => x.parts.find? (·.stamp == k.2.1) with
  | some p => !((((p.gangs[k.2.2]?).map (·.toRead)).getD []).isEmpty)
  | none => false

/-- A request at an expander that no gang waits for any more. -/
def SluReq.stale (s : State) (q : SluReq) : Bool := !((q.page.map (pageWaits s)).getD true)

/-- Pages whose gangs are gone leave an instance. -/
def sluPurge (i : Nat) (s : State) : State :=
  let v := s.slu? i
  s.setSlu i { v with queues := (v.queues.map fun q => (q.1, q.2.filter fun r => !r.stale s)).filter fun q => !q.2.isEmpty,
                      current := v.current.filter fun g => !g.req.stale s }

/-- The grant in progress is the decode of a page that a gang, or a recovery, waits for: EXPANDER_DECODE or RECOVERY_READ_DONE ends it. -/
def sluDecoding (i : Nat) (s : State) : Bool := ((s.slu? i).current.map fun g => g.req.page.isSome && !g.req.stale s).getD false

/-- Units that a transfer is charged (R293). -/
def sluUnits (bytes : Nat) : Int := (cdiv bytes 256 : Nat)

/-- Requester credits and wait counters. -/
def SluInst.credit (v : SluInst) (r : Nat) : Int := tgetD v.credits r 0
def SluInst.wait (v : SluInst) (r : Nat) : Nat := tgetD v.waits r 0

/-- The largest by a measure, the lowest index on ties. -/
def argMax (f : Nat → Int) : List Nat → Option Nat
  | [] => none
  | r :: l => some (l.foldl (fun m x => if f m < f x then x else m) r)

/-- Finish the grant in progress; `leave` sends the packet of an egress grant. -/
def sluFinish (leave : Nat → EgressPkt → State → State) (i : Nat) (s : State) : State :=
  let v := s.slu? i
  match v.current with
  | none => s
  | some g =>
    let s := s.setSlu i { v with current := none }
    match g.req.pkt with
    | some p => leave (i - firstEgress) p s
    | none => s

/-- Decide the next grant (R294). -/
def sluDecide (i : Nat) (s : State) : State :=
  let v := s.slu? i
  let live := (List.range sluRequesters).filter fun r => (sluHead s i r).isSome && (tget v.quar r).isNone
  let u := live.filter fun r => decide (r < 16)
  let b := live.filter fun r => decide (16 ≤ r)
  let every := (sluCtrl s i).2.2.2.1
  let reserved := decide (0 < every ∧ every ≤ v.run) && !b.isEmpty
  let c := if reserved then b else if !u.isEmpty then u else b
  let f := c.filter fun r => decide (sluLimit s i r ≤ v.wait r)
  let pick := if f.isEmpty then argMax v.credit c else argMax (fun r => (v.wait r : Int)) f
  match pick with
  | none => s
  | some w =>
    match sluHead s i w with
    | none => s
    | some q =>
      let s := sluPop i w s
      let v := s.slu? i
      let waits := c.foldl (fun t r => tset t r (if r = w then 0 else min (v.wait r + 1) 65535)) v.waits
      let credit := max (v.credit w - sluUnits q.bytes) (-2 ^ 31)
      let urgent := decide (w < 16)
      let v' := { v with waits := waits, credits := tset v.credits w credit, run := if urgent && !b.isEmpty then v.run + 1 else 0,
                         current := some { requester := w, req := q, preemptible := !urgent && !reserved } : SluInst }
      let s := (s.setSlu i v').bump (if urgent then Ctr.sluUrgentGrants i else Ctr.sluBulkGrants i)
      let s := if f.isEmpty then s else s.bump (Ctr.sluForcedWins i)
      if reserved then s.bump (Ctr.sluReservedBulkGrants i) else s

/-- Abort the grant in progress (R297): back to the head, charge refunded, wait counter at the limit. -/
def sluAbort (i : Nat) (s : State) : State :=
  let v := s.slu? i
  match v.current with
  | none => s
  | some g =>
    let r := g.requester
    let v' := { v with current := none, credits := tset v.credits r (v.credit r + sluUnits g.req.bytes),
                       waits := tset v.waits r (sluLimit s i r) }
    sluPush i r g.req (s.setSlu i v')

/-- An urgent request at its head aborts a preemptible grant, and the next decision follows (R297). -/
def sluPreempt (i : Nat) (s : State) : State :=
  let v := s.slu? i
  let urgent := (List.range 16).any fun r => (sluHead s i r).isSome && (tget v.quar r).isNone
  match v.current with
  | some g => if g.preemptible && urgent then sluDecide i ((sluAbort i s).bump (Ctr.sluPreemptions i)) else s
  | none => s

/-- QUAR of an instance follows the windows left. -/
def sluShowQuar (i : Nat) (s : State) : State :=
  s.setF (Reg.sluInstQuarQuarantined i) ((tkeys (s.slu? i).quar).foldl (fun m r => m + 2 ^ r) 0)

/-- Cut off a hog (R299): preempted, its bit set, logged and quarantined. -/
def sluHog (i addr : Nat) (s : State) : State :=
  match (s.slu? i).current with
  | none => s
  | some g =>
    let r := g.requester
    let s := sluAbort i s
    let s := s.setF (Reg.sluInstStatHog i) (setBit (s.getF (Reg.sluInstStatHog i)) r)
    let s := logFull .sluHog pSlu i (if r < 32 then r % 16 else 0xFF) 0 0 [i, r, addr] (s.bump (Ctr.sluHogCutoffs i))
    let n := (sluCtrl s i).2.2.1
    if n = 0 then s
    else
      let v := s.slu? i
      sluShowQuar i (s.setSlu i { v with quar := tset v.quar r n })

/-- A window ends (R293, R300, R301): CTRL taken, credits refilled up to twice the weight, quarantines shortened. The window in which a
requester is cut off counts as the first of its QUARANTINE windows, of which R300 says nothing (DESIGN CHOICE, log 21). -/
def sluWindow (i : Nat) (s : State) : State :=
  let s := s.setSlu i { s.slu? i with ctrl := some (sluCtrlReg s i) }
  let v := s.slu? i
  let refill := (List.range sluRequesters).foldl (fun (t : Table Int) r =>
    let w : Int := sluWeight s i r
    tset t r (min (v.credit r + w) (2 * w))) v.credits
  let quar := (v.quar.map fun q => (q.1, q.2 - 1)).filter (·.2 != 0)
  sluShowQuar i (s.setSlu i { v with credits := refill, quar := quar })

/-- SLUICE_HOG_CUTOFF: instance and the address of the granted transfer. -/
def execSluiceHogCutoff (inst addr : Nat) (s : State) : Host.Outcome State Fault Refusal :=
  .next (powered (fun s => if inst < sluInsts then sluHog inst addr s else s) s)

/-- SLUICE_WINDOW_BOUNDARY. -/
def execSluiceWindowBoundary (inst : Nat) (s : State) : Host.Outcome State Fault Refusal :=
  .next (powered (fun s => if inst < sluInsts then sluWindow inst s else s) s)

end Sys2Proof.Machine
end

