-- ==== Sys2Proof/Machine/Cores.lean ====
section
/-!
DEFINITION. Machine/Cores.lean: the tending cores' threads (01 R23) as far as the manual gives them an effect: which thread runs, what a
remote load and a fence leave it in, and how they end (11 R373). What the firmware computes comes with DEBUG_STEP (log 44).
-/
set_option cleanup.letToHave false
namespace Sys2Proof.Machine

open Sys2Proof

def State.core (s : State) (c : Nat) : Core := tgetD s.mgc.cores c {}
def Core.hart (k : Core) (t : Nat) : Hart := tgetD k.harts t {}
def putCore (c : Nat) (k : Core) (s : State) : State := { s with mgc := { s.mgc with cores := tset s.mgc.cores c k } }
def putHart (c t : Nat) (h : Hart) (s : State) : State := putCore c { s.core c with harts := tset (s.core c).harts t h } s

/-- Threads of a core. -/
def coreThreads : Nat := 4

/-- The thread that runs next: the current one, or the next that waits for nothing. -/
def Core.ready (k : Core) : Option Nat :=
  ((List.range coreThreads).map fun i => (k.current + i) % coreThreads).find? fun t => (k.hart t).wait == .none

/-- Write an integer register; x0 stays zero. -/
def Hart.setX (rd v : Nat) (h : Hart) : Hart := if rd = 0 then h else { h with x := tset h.x rd (v % 2 ^ 64) }

/-- The register value of a load of `size` bytes. -/
def loadValue (size : Nat) (signed : Bool) (v : Nat) : Nat :=
  if signed then (sext (8 * size) (v % 2 ^ (8 * size)) % (2 ^ 64 : Int)).toNat else v % 2 ^ (8 * size)

/-- A remote load has its value: the thread is ready again behind it. -/
def loadDone (c t v : Nat) (s : State) : State :=
  let h := (s.core c).hart t
  match h.wait with
  | .load rd _ size signed len => putHart c t { h.setX rd (loadValue size signed v) with pc := (h.pc + len) % 2 ^ 64, wait := .none } s
  | _ => s

/-- A load access fault is taken at a load (R373): RISC-V machine mode (log 44): mepc, mcause 5, mtval, mstatus, the handler of mtvec. -/
def Hart.loadFault (addr : Nat) (h : Hart) : Hart :=
  let st := tgetD h.csr 0x300 0
  let st' := bits st 0 3 + bits st 4 3 * 2 ^ 4 + bits st 3 1 * 2 ^ 7 + bits st 8 3 * 2 ^ 8 + h.priv * 2 ^ 11 + st / 2 ^ 13 * 2 ^ 13
  { h with csr := tset (tset (tset (tset h.csr 0x341 h.pc) 0x342 5) 0x343 addr) 0x300 st', priv := 3, pc := tgetD h.csr 0x305 0 / 4 * 4, wait := .none }

/-- A remote load ends with a dead target (R372, R373): all-ones, and the fault precisely at it. -/
def loadDead (c t : Nat) (s : State) : State :=
  let h := (s.core c).hart t
  match h.wait with
  | .load rd addr _ _ _ => putHart c t ((h.setX rd (2 ^ 64 - 1)).loadFault addr) s
  | _ => s

/-- One of the flushes of a fence has ended. -/
def fenceDone (c t : Nat) (s : State) : State :=
  let h := (s.core c).hart t
  match h.wait with
  | .fence left len =>
    putHart c t (if left ≤ 1 then { h with pc := (h.pc + len) % 2 ^ 64, wait := .none } else { h with wait := .fence (left - 1) len }) s
  | _ => s

/-- A thread's request ends without a response and without the fault of R373: what the load gives is open (log 44). -/
def hartEnds (what : ReqFor) (s : State) : State :=
  match what with
  | .remoteLoad c t => let (v, s) := s.fresh; loadDone c t v s
  | .coreFence c t => fenceDone c t s
  | .work _ => s
  | .tailFlush _ => s

end Sys2Proof.Machine
end

