-- ==== Sys2Proof/Machine/Window.lean ====
section
/-!
DEFINITION. Machine/Window.lean: the coherent state window (12 R394-R412): host requests, host death, extent removal, the
direct-window commands and WINDOW_PUBLISH. What ends a wait for recalls is in WindowRows.lean.
-/
set_option cleanup.letToHave false
namespace Sys2Proof.Machine

open Sys2Proof

/-- Drop an entry that no host holds; keep it otherwise. -/
def putEntry (line : Nat) (d : DirEntry) (s : State) : State :=
  { s with cwp := { s.cwp with dir := if d.holders.isEmpty then tdel s.cwp.dir line else tset s.cwp.dir line d } }

/-- Take a host off a line. -/
def dropHolder (line host : Nat) (s : State) : State :=
  match tget s.cwp.dir line with
  | some d => putEntry line { d with sharers := clrBit d.sharers host, owner := if d.owner = some host then none else d.owner } s
  | none => s

/-- Make a host's Exclusive hold of a line Shared (BISnpData, R398). -/
def shareHolder (line host : Nat) (s : State) : State :=
  match tget s.cwp.dir line with
  | some d => if d.owner = some host then putEntry line { d with owner := none, sharers := setBit d.sharers host } s else s
  | none => s

-- Host requests (R395-R397)

/-- Whether a host may use a line (R395, R404): its extent is ACTIVE, or REMOVING with the host outside the removal. -/
def State.hostAllowed (s : State) (ld line : Nat) : Bool :=
  match s.extentOf line with
  | none => false
  | some e =>
    !s.hif.isolated.contains ld && bit (s.getF (Reg.cwpExtentHosts e)) ld &&
      (s.extState e == extActive ||
        (s.extState e == extRemoving && !bit ((tget s.cwp.removals e).map (·.mask)|>.getD 0) ld))

/-- Count a denial to an LD (R395): EV_CWP_ACCESS for the first of every 1,024. -/
def deny (ld line : Nat) (s : State) : State :=
  let k := tgetD s.cwp.denials ld 0
  let s := { s with cwp := { s.cwp with denials := tset s.cwp.denials ld ((k + 1) % 1024) } }
  let s := s.bump Ctr.cwpAccessDenied
  if k = 0 then logEv .cwpAccess pCwp 0xFF [ld, line * 64] s else s

/-- The set of a line (R397), and the ways its lines use. -/
def setOfLine (line : Nat) : Nat := line % 2 ^ 18
def State.setEntries (s : State) (line : Nat) : List (Nat × DirEntry) :=
  s.cwp.dir.filter fun e => setOfLine e.1 == setOfLine line

/-- Lowest free way of a line's set. -/
def State.freeWay (s : State) (line : Nat) : Option Nat :=
  (List.range 16).find? fun w => !(s.setEntries line).any fun e => e.2.way == w

/-- The victim of a full set (R397): the line of the 4 KiB page with the lowest access count, then of the lowest way. -/
def State.victim (s : State) (line : Nat) : Option Nat :=
  let better := fun (a b : Nat × DirEntry) =>
    let ca := tgetD s.cwp.pageCounts (a.1 / 64) 0
    let cb := tgetD s.cwp.pageCounts (b.1 / 64) 0
    ca < cb || (ca == cb && a.2.way < b.2.way)
  match s.setEntries line with
  | [] => none
  | e :: l => some (l.foldl (fun m x => if better x m then x else m) e).1

/-- Grant a line to a host (R396): Exclusive, or Shared beside the sharers; a host that is granted Invalid holds no copy. -/
def grantLine (ld line : Nat) (grant : LineGrant) (d : DirEntry) (s : State) : State :=
  match grant with
  | .exclusive => putEntry line { d with owner := some ld, sharers := 0 } s
  | .shared => putEntry line { d with owner := none, sharers := setBit d.sharers ld } s
  | .invalid => putEntry line { d with owner := if d.owner = some ld then none else d.owner, sharers := clrBit d.sharers ld } s

/-- What a host read of a line still needs before it can be served: recalls sent, and the lines it waits for; none once it
can be served. -/
def hostReadNeeds (ld line : Nat) (grant : LineGrant) (s : State) : Option (State × List Nat) :=
  if s.recalled line then some (s, [line])
  else
    match tget s.cwp.dir line with
    | some d =>
      if grant = .exclusive then
        if d.holders.any (· != ld) then some (recallAll line (· == ld) s, [line]) else none
      else match d.owner with
        | some o => if o = ld then none else some (sendRecall line o false s, [line])
        | none => none
    | none =>
      match if grant = .invalid then some 0 else s.freeWay line with
      | some _ => none
      | none =>
        match s.victim line with
        | some v =>
          if s.recalled v then some (s, [line, v])
          else some (recallAll v (fun _ => false) (s.bump Ctr.cwpDirEvictions), [line, v])
        | none => none

/-- Serve a host read that needs nothing more (R396, R397, R400, R401); a line of a unit whose tag fails answers poison
(13 R431). -/
def hostReadServe (ld line : Nat) (grant : LineGrant) (e : Nat) (s : State) : State :=
  let dev := s.devLine e line
  let part := s.getF (Reg.cwpExtentPartition e)
  let sealedBad := s.isProtected part && s.sec.badUnits.contains (1, dev / 8)
  if s.poisoned dev then (poisonRead part dev s).emit (.memPoison ld line)
  else if sealedBad then (tagFailures part 1 6 [dev / 8] s).emit (.memPoison ld line)
  else
    let data := memRead s.t1 (dev * 64) 64
    let s := match tget s.cwp.dir line with
      | some d => grantLine ld line grant d s
      | none =>
        if grant = LineGrant.invalid then s
        else
          let s := grantLine ld line grant { way := (s.freeWay line).getD 0 } s
          let c := tgetD s.cwp.pageCounts (line / 64) 0
          { s with cwp := { s.cwp with pageCounts := tset s.cwp.pageCounts (line / 64) (min (c + 1) 255) } }
    removalRecall line ld (s.emit (.memData ld line data grant))

/-- A host read that R395 has accepted, at its turn at the line (R396-R399); a victim's recall makes it a new request (R412). -/
def hostReadGo (ld line : Nat) (grant : LineGrant) (s : State) : State :=
  match s.extentOf line with
  | none => s.emit (.memPoison ld line)
  | some e =>
    match hostReadNeeds ld line grant s with
    | some (s, lines) => enqueueWait { op := .hostRead ld line grant, lines := lines } s
    | none => hostReadServe ld line grant e s

/-- A host write that R395 has accepted, at its turn at the line: the copies of other hosts are invalidated first (R396); a whole
line clears poison, a partial write to a poisoned line is discarded (R401). `mask` names the bytes written. -/
def hostWriteGo (ld line mask : Nat) (b : List Byte) (s : State) : State :=
  match s.extentOf line with
  | none => s.emit (.memDone ld line)
  | some e =>
    let others := match tget s.cwp.dir line with
      | some d => d.holders.any (· != ld)
      | none => false
    if s.recalled line || others then
      enqueueWait { op := .hostWrite ld line mask b, lines := [line] } (recallAll line (· == ld) s)
    else
      let dev := s.devLine e line
      let put := if mask % 2 ^ 64 = 2 ^ 64 - 1 then s.t1Write (dev * 64) (slice b 0 64)
        else if s.poisoned dev then s
        else { s with t1 := (maskBits 64 mask).foldl (fun m i => memSet m (dev * 64 + i) (b.getD i 0)) s.t1 }
      put.emit (.memDone ld line)

/-- A host read as it arrives: denied, or accepted and served in its order at the line (R395, R399). -/
def hostRead (ld line : Nat) (grant : LineGrant) (s : State) : State :=
  if !s.hostAllowed ld line then (deny ld line s).emit (.memPoison ld line)
  else
    let s := s.bump Ctr.cwpHostReads
    if s.lineQueued [line] then enqueueWait { op := .hostRead ld line grant, lines := [line] } s else hostReadGo ld line grant s

/-- A host write as it arrives: denied and discarded, or accepted and applied in its order at the line. -/
def hostWrite (ld line mask : Nat) (b : List Byte) (s : State) : State :=
  if !s.hostAllowed ld line then (deny ld line s).emit (.memDone ld line)
  else
    let s := s.bump Ctr.cwpHostWrites
    if s.lineQueued [line] then enqueueWait { op := .hostWrite ld line mask b, lines := [line] } s else hostWriteGo ld line mask b s

-- Host death (R407, R408)

/-- Lines a host holds Exclusive. -/
def State.exclusiveOf (s : State) (ld : Nat) : List Nat := (s.cwp.dir.filter fun e => e.2.owner == some ld).map (·.1)

/-- Whether an operation is a host's own request. -/
def WinOp.ofHost (ld : Nat) : WinOp → Bool
  | .hostRead l _ _ => l == ld
  | .hostWrite l _ _ _ => l == ld
  | .command _ _ => false
  | .fabric _ _ => false
  | .work _ => false
  | .transfer _ => false
  | .answer _ _ _ _ _ _ _ => false

/-- Move a host from HOSTS to ORPHANS in one extent (R408, R404). -/
def orphanHost (ld e : Nat) (s : State) : State :=
  let h := s.getF (Reg.cwpExtentHosts e)
  if s.extState e = extFree ∨ bit h ld = false then s
  else
    let s := (s.setF (Reg.cwpExtentHosts e) (clrBit h ld)).setF (Reg.cwpExtentOrphans e) (setBit (s.getF (Reg.cwpExtentOrphans e)) ld)
    if s.extState e = extActive ∧ s.getF (Reg.cwpExtentHosts e) = 0 then s.setF (Reg.cwpExtentState e) extOrphaned else s

/-- Poison every line that a host holds Exclusive, within a set of window lines (R405, R408). -/
def poisonExclusive (ld cause : Nat) (within : Nat → Bool) (s : State) : State :=
  (s.exclusiveOf ld).foldl (fun s l => if within l then
      match s.extentOf l with
      | some e => dropHolder l ld (poisonLine (s.devLine e l) cause ld s)
      | none => dropHolder l ld s
    else s) s

/-- Drop what remains of a host in the directory and the recalls, within a set of window lines. -/
def forgetHost (ld : Nat) (within : Nat → Bool) (s : State) : State :=
  let s := (tkeys s.cwp.dir).foldl (fun s l => if within l then dropHolder l ld s else s) s
  { s with cwp := { s.cwp with recalls := s.cwp.recalls.filter fun r => !(r.host == ld && within r.line) } }

/-- The functions that an LD presents (R378): those fixed at its binding. -/
def State.functionsOf (s : State) (ld : Nat) : List Nat := (s.hif.presented.filter (·.1 == ld)).map (·.2)

/-- Declare a host dead (R408). The waits that this ends are settled by the row that calls it. -/
def hostDead (ld cause : Nat) (s : State) : State :=
  let n := (s.exclusiveOf ld).length
  let s := poisonExclusive ld cause (fun _ => true) s
  let s := forgetHost ld (fun _ => true) s
  let s := { s with cwp := { s.cwp with waiting := s.cwp.waiting.filter fun w => !w.op.ofHost ld } }
  let s := (List.range 64).foldl (fun s e => orphanHost ld e s) s
  let s := s.setF Reg.cwpHostsDead (setBit (s.getF Reg.cwpHostsDead) ld)
  let s := logEv .cwpHostDead pCwp 0xFF [ld, cause, n] (s.bump Ctr.cwpHostsDead)
  (s.functionsOf ld).foldl (fun s fn => loseQueues fn s) s

/-- Count one request of an LD and whether it was denied or malformed, in a window of 2^20 requests; at
FRC.PARTNER.HOST_LIMIT the LD is isolated and its host declared dead (14 R459, R460). -/
def hostPartner (ld : Nat) (bad : Bool) (s : State) : State :=
  let (keep, denials) := (tgetD s.frc.hosts ld {}).count 1 bad
  let limit := s.getF Reg.frcPartnerHostLimit
  let s := { s with frc := { s.frc with hosts := tset s.frc.hosts ld keep } }
  if bad ∧ limit ≠ 0 ∧ limit ≤ denials ∧ s.hif.isolated.contains ld = false then
    let s := { s with hif := { s.hif with isolated := ld :: s.hif.isolated } }
    let s := (logEv .hifLdIsolated pHif 0xFF [ld] s).bump Ctr.frcPartnerCutoffs
    hostDead ld 1 s
  else s

-- Extents: assignment, removal, wipe (R403-R406)

/-- Two ranges of 256 MiB units overlap. -/
def overlaps (a n b m : Nat) : Bool := decide (a < b + m) && decide (b < a + n)

/-- The next state of an extent after a removal's step 5 (R404), and the wipe's start. -/
def removalNext (e : Nat) (s : State) : State :=
  let h := s.getF (Reg.cwpExtentHosts e)
  let o := s.getF (Reg.cwpExtentOrphans e)
  s.setF (Reg.cwpExtentState e) (if h ≠ 0 then extActive else if o ≠ 0 then extOrphaned else extWiping)

/-- Steps 2 and 4 of a removal at its bound, and step 5 (R405): requests of the removed hosts are discarded, their
Exclusive lines poisoned with CAUSE 2, their Shared holds dropped; then the mask leaves HOSTS and ORPHANS. -/
def removalFinish (e : Nat) (s : State) : State :=
  match tget s.cwp.removals e with
  | none => s
  | some r =>
    if r.wiping then s
    else
      let within := fun l => s.inExtent e l
      let discard := fun (s : State) (w : WinWait) => match w.op with
        | .hostRead ld l _ => s.emit (.memPoison ld l)
        | .hostWrite ld l _ _ => s.emit (.memDone ld l)
        | .command _ c => complete c { status := .windowPoison } s
        | .fabric _ _ => s
        | .work _ => s
        | .transfer _ => s
        | .answer _ _ _ _ _ _ _ => s
      let ends := fun (w : WinWait) => w.lines.any within && (match w.op with
        | .hostRead ld _ _ => bit r.mask ld
        | .hostWrite ld _ _ _ => bit r.mask ld
        | .command op c => op == 0x0404 && bit r.mask (s.getF (Reg.hifPbFuncBindLd c.part))
        | .fabric _ _ => false
        | .work _ => false
        | .transfer _ => false
        | .answer _ _ _ _ _ _ _ => false)
      let gone := s.cwp.waiting.filter ends
      let s := { s with cwp := { s.cwp with waiting := s.cwp.waiting.filter fun w => !ends w } }
      let s := gone.foldl discard s
      let hosts := maskBits 16 r.mask
      let n := (hosts.map fun h => ((s.exclusiveOf h).filter within).length).sum
      let s := hosts.foldl (fun s h => forgetHost h within (poisonExclusive h 2 within s)) s
      let s := (s.setF (Reg.cwpExtentHosts e) (hosts.foldl clrBit (s.getF (Reg.cwpExtentHosts e)))).setF (Reg.cwpExtentOrphans e)
        (hosts.foldl clrBit (s.getF (Reg.cwpExtentOrphans e)))
      let s := removalNext e s
      if s.extState e = extWiping then
        { s with cwp := { s.cwp with removals := tset s.cwp.removals e { r with poisoned := n, wiping := true } } }
      else
        let s := { s with cwp := { s.cwp with removals := tdel s.cwp.removals e } }
        match r.cmd with
        | some c => complete c { result0 := n } s
        | none => s

/-- Whether any line of an extent awaits a host's answer for a device's access. -/
def State.extLinesHeld (s : State) (e host : Nat) : List Nat :=
  (s.cwp.dir.filter fun d => s.inExtent e d.1 && d.2.holders.contains host).map (·.1)

/-- EXTENT_ASSIGN (R403): the window range free and at most the window, the T1 range within the direct part. -/
def extentAssign (c : Cmd) (s : State) : Res :=
  let e := c.arg 0 1
  let p := c.arg 1 1
  let hosts := c.arg 2 2
  let wbase := c.arg 4 4
  let size := c.arg 8 4
  let tbase := c.arg 0xC 4
  need (c.argsOk [(0, 16)] && decide (c.dlen = 0) && decide (e < 64) && decide (p < 16) && decide (1 ≤ size)) .invalidField <|
  need (s.extState e == extFree) .extentState <|
  need (decide (wbase + size ≤ s.getF Reg.cwpWindowSize) && decide ((tbase + size) * 2 ^ 28 ≤ s.directSize p 1) &&
    !(List.range 64).any fun x => s.extState x != extFree && overlaps wbase size (s.getF (Reg.cwpExtentWbase x)) (s.getF (Reg.cwpExtentSize x)))
    .windowRange <|
  let s := (((s.setF (Reg.cwpExtentWbase e) wbase).setF (Reg.cwpExtentSize e) size).setF (Reg.cwpExtentPartition e) p)
  let s := (((s.setF (Reg.cwpExtentHosts e) hosts).setF (Reg.cwpExtentOrphans e) 0).setF (Reg.cwpExtentTbase e) tbase)
  .done (s.setF (Reg.cwpExtentState e) extActive) {}

/-- EXTENT_ADD_HOSTS (R403): bits in ORPHANS are left out. -/
def extentAddHosts (c : Cmd) (s : State) : Res :=
  let e := c.arg 0 1
  need (c.argsOk [(0, 1), (2, 2)] && decide (c.dlen = 0) && decide (e < 64)) .invalidField <|
  need (s.extState e == extActive) .extentState <|
  let o := s.getF (Reg.cwpExtentOrphans e)
  let h := (maskBits 16 (c.arg 2 2)).foldl (fun h b => if bit o b then h else setBit h b) (s.getF (Reg.cwpExtentHosts e))
  .done (s.setF (Reg.cwpExtentHosts e) h) {}

/-- EXTENT_REMOVE (R403, R405): step 1, and step 3's recalls; with no live host in the mask, the whole removal. -/
def extentRemove (c : Cmd) (s : State) : Res :=
  let e := c.arg 0 1
  let mask := c.arg 2 2
  let h := s.getF (Reg.cwpExtentHosts e)
  let o := s.getF (Reg.cwpExtentOrphans e)
  need (c.argsOk [(0, 1), (2, 2)] && decide (c.dlen = 0) && decide (e < 64)) .invalidField <|
  need (s.extState e == extActive || s.extState e == extOrphaned) .extentState <|
  need ((maskBits 16 mask).all fun b => bit h b || bit o b) .extentState <|
  let s := { s with cwp := { s.cwp with removals := tset s.cwp.removals e { mask := mask, cmd := some c } } }
  let s := s.setF (Reg.cwpExtentState e) extRemoving
  if (maskBits 16 mask).any (bit h) then
    .wait ((maskBits 16 mask).foldl (fun s host => (s.extLinesHeld e host).foldl (fun s l => sendRecall l host true s) s) s)
  else .wait (removalFinish e s)

def execExtentAssign (c : Cmd) (s : State) : Host.Outcome State Fault Refusal := .next (hostCmd 0x0601 c (extentAssign c) s)
def execExtentAddHosts (c : Cmd) (s : State) : Host.Outcome State Fault Refusal := .next (hostCmd 0x0602 c (extentAddHosts c) s)
def execExtentRemove (c : Cmd) (s : State) : Host.Outcome State Fault Refusal := .next (hostCmd 0x0603 c (extentRemove c) s)

-- Direct-window commands (08 R252, 16 R525)

/-- 4 KiB units of a range whose next access fails (R282, R288). -/
def failedUnits (k u units : Nat) (write : Bool) (s : State) : List Nat :=
  ((List.range units).map (u + ·)).filter fun v => s.tmg.badAccess.any fun b => b.1 == k && b.2.1 == v && (write || !b.2.2)
def accessFails (k u units : Nat) (write : Bool) (s : State) : Bool := !(failedUnits k u units write s).isEmpty

/-- The failed access has been met. -/
def accessMet (k u units : Nat) (write : Bool) (s : State) : State :=
  let bad := failedUnits k u units write s
  { s with tmg := { s.tmg with badAccess := s.tmg.badAccess.filter fun b => !(b.1 == k && bad.contains b.2.1) } }

/-- Read a direct range for a command: its bytes, or the status with which the command ends (R401, 13 R431). -/
def directFetch (n k a len : Nat) (s : State) : State × (Status ⊕ List Byte) :=
  let (u, units) := unitsOf (s.directAddr n k a) len
  if !s.tierUp k then (s, .inl .tierFailed)
  else if accessFails k u units false s then (accessMet k u units false s, .inl .tierFailed)
  else
    let s := tierAnswers k u units s
    let s := countUnits k (unitsOf (s.directAddr n k a) len).1 (unitsOf (s.directAddr n k a) len).2 false s
    let bad := s.badUnits n k a len
    if !bad.isEmpty then (tagFailures n k 6 bad s, .inl .integrity)
    else
      let lines := s.directPoisoned n k a len
      if !lines.isEmpty then ((if k = 1 then lines.foldl (fun s l => poisonRead n l s) s else s), .inl .windowPoison)
      else (s, .inr (s.directRead n k a len))

/-- Write a direct range: rewritten units carry good tags again. -/
def directStore (n k a : Nat) (b : List Byte) (s : State) : State :=
  let base := s.directAddr n k a
  let s := countUnits k (unitsOf base b.length).1 (unitsOf base b.length).2 true (s.directWrite n k a b)
  if k = 0 then s
  else { s with sec := { s.sec with badUnits := s.sec.badUnits.filter fun u =>
      !(u.1 == k && decide (base ≤ u.2 * 512) && decide (u.2 * 512 + 512 ≤ base + b.length)) } }

/-- Write a direct range for a command: the status with which a failed write ends it; then only the units that failed may have changed
(R282), and what they hold is open. -/
def directPut (n k a : Nat) (b : List Byte) (s : State) : State × Option Status :=
  let (u, units) := unitsOf (s.directAddr n k a) b.length
  if !s.tierUp k then (s, some .tierFailed)
  else if accessFails k u units true s then
    let bad := failedUnits k u units true s
    let s := bad.foldl (fun s v => let (x, s) := s.freshBytes 4096; s.setTier k (memWrite (s.tier k) (v * 4096) x)) s
    (accessMet k u units true s, some .tierFailed)
  else (directStore n k a b (tierAnswers k u units s), none)


/-- TIER_READ (R252). -/
def tierRead (c : Cmd) (s : State) : Res :=
  let k := c.arg 0 1
  let a := c.arg 8 8
  let n := c.part
  need (c.argsOk [(0, 1), (8, 8)] && decide (k < 4)) .invalidField <|
  need (s.inDirect n k a c.dlen) .windowRange <|
  match beginAccess (.command 0x0401 c) (s.directLines n k a c.dlen) false s with
  | some s => .wait s
  | none =>
    match directFetch n k a c.dlen s with
    | (s, .inl st) => .done s { status := st }
    | (s, .inr b) => .done s { data := some (0, b) }

/-- TIER_WRITE (R252). -/
def tierWrite (c : Cmd) (s : State) : Res :=
  let k := c.arg 0 1
  let a := c.arg 8 8
  let n := c.part
  need (c.argsOk [(0, 1), (8, 8)] && decide (k < 4)) .invalidField <|
  need (s.inDirect n k a c.dlen) .windowRange <|
  match beginAccess (.command 0x0402 c) (s.directLines n k a c.dlen) true s with
  | some s => .wait s
  | none =>
    match directPut n k a (c.buffer s) s with
    | (s, none) => .done s {}
    | (s, some st) => .done s { status := st }

/-- TIER_COPY, as though through an intermediate buffer (16 R525). -/
def tierCopy (c : Cmd) (s : State) : Res :=
  let k := c.arg 0 1
  let j := c.arg 1 1
  let a := c.arg 8 8
  let b := c.arg 0x10 8
  let len := c.arg 0x18 8
  let n := c.part
  need (c.argsOk [(0, 2), (8, 24)] && decide (k < 4) && decide (j < 4) && decide (c.dlen = 0)) .invalidField <|
  need (s.inDirect n k a len && s.inDirect n j b len) .windowRange <|
  match beginAccess (.command 0x0403 c) (s.directLines n k a len) false s with
  | some s => .wait s
  | none =>
    match beginAccess (.command 0x0403 c) (s.directLines n j b len) true s with
    | some s => .wait s
    | none =>
      match directFetch n k a len s with
      | (s, .inl st) => .done s { status := st }
      | (s, .inr bytes) =>
        match directPut n j b bytes s with
        | (s, none) => .done s {}
        | (s, some st) => .done s { status := st }

/-- The lines of a publish's range beyond the version line that still need a recall (R410 step 4): an Exclusive owner, or
a Shared copy of a host other than the function's own. -/
def publishNeeds (own line : Nat) (s : State) : Bool :=
  match tget s.cwp.dir line with
  | some d => d.owner.isSome || (maskBits 16 d.sharers).any (· != own)
  | none => false

/-- Send the recalls of step 4 of a publish for one line. -/
def publishRecall (own line : Nat) (s : State) : State :=
  match tget s.cwp.dir line with
  | some d =>
    match d.owner with
    | some o => sendRecall line o false s
    | none => (maskBits 16 d.sharers).foldl (fun s h => if h = own then s else sendRecall line h true s) s
  | none => s

/-- The end of a publish: ST_WINDOW_POISON if a line of its range is poisoned (R412), else ST_OK with the new version. -/
def publishEnd (c : Cmd) (devs : List Nat) (s : State) : Res :=
  if devs.any s.poisoned then .done s { status := .windowPoison }
  else .done (s.bump Ctr.cwpPublishes) { result0 := c.arg 0x18 8 }

/-- A publish once its version word is written (R410): it waits for the recalls of its other lines, or ends. While it waits it keeps every line of
its range (R399). -/
def publishRest (c : Cmd) (own : Nat) (lines devs : List Nat) (s : State) : Res :=
  if (lines.drop 1).any fun l => publishNeeds own l s || s.recalled l then
    .wait (enqueueWait { op := .command 0x0404 c, lines := lines, stage := 2 } ((lines.drop 1).foldl (fun s l => publishRecall own l s) s))
  else publishEnd c devs s

/-- Steps 1 to 4 of an accepted publish at its turn at the lines of its range (R410). -/
def publishGo (c : Cmd) (e own : Nat) (lines : List Nat) (s : State) : Res :=
  let first := c.arg 0 8 / 64
  if s.needsRecall true first || lines.any fun l => s.recalled l || s.wiping l then
    .wait (enqueueWait { op := .command 0x0404 c, lines := lines, stage := 1 } (if s.needsRecall true first then recallAll first (fun _ => false) s else s))
  else
    let dev := s.devLine e first
    if s.poisoned dev then .done (poisonRead c.part dev s) { status := .windowPoison }
    else
      let v := leNat (memRead s.t1 (dev * 64) 8)
      if v ≠ c.arg 0x10 8 then .done (s.bump Ctr.cwpPublishConflicts) { status := .publishConflict, result0 := v }
      else publishRest c own lines (lines.map (s.devLine e)) (s.t1Write (dev * 64) (leBytes 8 (c.arg 0x18 8)))

/-- WINDOW_PUBLISH (R410), one operation at the directory entries of its range (R399). Once accepted, at `stage` 1 or later, it asks no more for
the extent to be ACTIVE (R412). -/
def windowPublish (stage : Nat) (c : Cmd) (s : State) : Res :=
  let a := c.arg 0 8
  let len := c.arg 8 4
  need (c.argsOk [(0, 12), (0x10, 16)] && a % 64 == 0 && len % 64 == 0 && decide (64 ≤ len ∧ len ≤ 16 * 2 ^ 20) && decide (c.dlen = 0)) .invalidField <|
  match s.extentOf (a / 64) with
  | none => .fail .windowRange
  | some e =>
    let first := a / 64
    let lines := (List.range (len / 64)).map (first + ·)
    let own := s.getF (Reg.hifPbFuncBindLd c.part)
    need (lines.all (s.inExtent e) && s.getF (Reg.cwpExtentPartition e) == c.part) .windowRange <|
    need (stage != 0 || (s.extState e == extActive && bit (s.getF (Reg.cwpExtentHosts e)) own)) .extentState <|
    if stage = 2 then publishRest c own lines (lines.map (s.devLine e)) s
    else if stage = 0 && s.lineQueued lines then .wait (enqueueWait { op := .command 0x0404 c, lines := lines, stage := 1 } s)
    else publishGo c e own lines s

def execTierRead (c : Cmd) (s : State) : Host.Outcome State Fault Refusal := .next (hostCmd 0x0401 c (tierRead c) s)
def execTierWrite (c : Cmd) (s : State) : Host.Outcome State Fault Refusal := .next (hostCmd 0x0402 c (tierWrite c) s)
def execTierCopy (c : Cmd) (s : State) : Host.Outcome State Fault Refusal := .next (hostCmd 0x0403 c (tierCopy c) s)
def execWindowPublish (c : Cmd) (s : State) : Host.Outcome State Fault Refusal := .next (hostCmd 0x0404 c (windowPublish 0 c) s)

end Sys2Proof.Machine
end

