-- ==== Sys2Proof/Machine/Fabric.lean ====
section
/-!
DEFINITION. Machine/Fabric.lean: Xebrilink transport (10 R306-R347): packets and their checks, connections, sending, windows
and acknowledgements, duplicates, failure, spill; and the sealing of packets (13 R432).
-/
set_option cleanup.letToHave false
namespace Sys2Proof.Machine

open Sys2Proof

-- CRC-32C

def crcByte (crc : Nat) (b : Byte) : Nat :=
  (List.range 8).foldl (fun c _ => if c % 2 = 1 then (c / 2) ^^^ 0x82F63B78 else c / 2) (crc ^^^ b.toNat)

def crc32c (m : List Byte) : Nat := (m.foldl crcByte 0xFFFFFFFF) ^^^ 0xFFFFFFFF

-- The packet header (R318, R319)

def flLast : Nat := 0
def flRetx : Nat := 1
def flCm : Nat := 2
def flPoison : Nat := 3
def flLocal : Nat := 4
def flSealed : Nat := 5

/-- The 64 header bytes, HCRC last. -/
def PktHdr.bytes (h : PktHdr) : List Byte :=
  let b := leBytes 1 h.version ++ leBytes 1 h.op ++ leBytes 1 h.flags ++ leBytes 1 h.route ++ leBytes 4 h.dst ++ leBytes 4 h.src ++
    leBytes 4 h.conn ++ leBytes 4 h.seq ++ leBytes 1 h.index ++ leBytes 1 h.pktsM1 ++ leBytes 2 h.len ++ leBytes 8 h.addr ++
    leBytes 4 h.rkey ++ leBytes 1 h.rgen ++ leBytes 1 h.ptag ++ leBytes 2 h.cgen ++ slice h.arg 0 16 ++ leBytes 4 h.psn
  b ++ leBytes 4 (crc32c b)

/-- Read a header. -/
def PktHdr.parse (p : List Byte) : PktHdr :=
  { version := fieldAt p 0 1, op := fieldAt p 1 1, flags := fieldAt p 2 1, route := fieldAt p 3 1, dst := fieldAt p 4 4,
    src := fieldAt p 8 4, conn := fieldAt p 0xC 4, seq := fieldAt p 0x10 4, index := fieldAt p 0x14 1, pktsM1 := fieldAt p 0x15 1,
    len := fieldAt p 0x16 2, addr := fieldAt p 0x18 8, rkey := fieldAt p 0x20 4, rgen := fieldAt p 0x24 1, ptag := fieldAt p 0x25 1,
    cgen := fieldAt p 0x26 2, arg := slice p 0x28 16, psn := fieldAt p 0x38 4 }

def PktHdr.isSealed (h : PktHdr) : Bool := bit h.flags flSealed
def PktHdr.argAt (h : PktHdr) (off n : Nat) : Nat := fieldAt h.arg off n

-- Sealing (13 R432)

/-- The 16-byte tweak of unit `i` of a packet. -/
def fabTweak (h : PktHdr) (i : Nat) : List Byte :=
  leBytes 4 h.seq ++ leBytes 4 h.conn ++ leBytes 2 h.cgen ++ leBytes 1 h.index ++ leBytes 1 i ++ leBytes 1 0x10 ++ leBytes 1 h.ptag ++ zeros 2

def xorBytes (a b : List Byte) : List Byte := (a.zip b).map fun x => x.1 ^^^ x.2

/-- 512-byte units of a payload; one empty unit for an empty payload's tag. -/
def units512 (p : List Byte) : List (List Byte) :=
  if p.isEmpty then [[]] else (List.range (cdiv p.length 512)).map fun i => (p.drop (512 * i)).take 512

/-- Encrypt or decrypt one unit; a unit below 16 bytes is XORed with the encryption of 16 zero bytes. -/
def fabCrypt (enc : Bool) (key : List Byte) (h : PktHdr) (i : Nat) (u : List Byte) : List Byte :=
  if u.isEmpty then []
  else if u.length < 16 then xorBytes u (Config.aesXts key (fabTweak h i) (zeros 16))
  else if enc then Config.aesXts key (fabTweak h i) u else Config.aesXtsInv key (fabTweak h i) u

/-- The tag of a unit: over its tweak, header bytes 0x01 and 0x04-0x37, and its ciphertext. -/
def fabTag (mac : List Byte) (h : PktHdr) (i : Nat) (ct : List Byte) : List Byte :=
  let hb := h.bytes
  kmac256 mac (fabTweak h i ++ slice hb 1 1 ++ slice hb 4 0x34 ++ ct) 64 "SV8-FAB"

/-- A partition's FABRIC keys: 64-byte XTS key, 32-byte MAC key (13 R425). -/
def fabKeys (s : State) (part : Nat) : List Byte × List Byte :=
  let k := tgetD s.sec.fabKeys part []
  (slice k 0 64, slice k 64 32)

/-- The whole packet (R319): header, payload, trailer; sealed for a protected partition's connection. -/
def buildPacket (s : State) (sealPart : Option Nat) (h : PktHdr) (payload : List Byte) : List Byte :=
  match sealPart with
  | none =>
    let h := { h with len := payload.length }
    h.bytes ++ payload ++ leBytes 4 (if payload.isEmpty then 0 else crc32c payload) ++ zeros 4
  | some n =>
    let h := { h with len := payload.length, flags := setBit h.flags flSealed }
    let keys := fabKeys s n
    let us := units512 payload
    let ct := (List.range us.length).map fun i => fabCrypt true keys.1 h i (us.getD i [])
    let tags := ((List.range us.length).map fun i => fabTag keys.2 h i (ct.getD i [])).flatten
    let body := ct.flatten ++ tags
    h.bytes ++ body ++ leBytes 4 (crc32c body) ++ zeros 4

/-- The partition under whose keys a connection's packets are sealed. -/
def sealOf (s : State) (part : Nat) : Option Nat := if s.isProtected part then some part else none

/-- The bytes between header and trailer. -/
def pktBody (h : PktHdr) (p : List Byte) : List Byte := slice p 64 (packetBytes h.isSealed h.len - 72)

/-- Check 9: the trailer's CRC. -/
def crcOk (h : PktHdr) (p : List Byte) : Bool :=
  let body := pktBody h p
  let t := fieldAt p (64 + body.length) 4
  if h.len = 0 ∧ h.isSealed = false then t == 0 else t == crc32c body

/-- Open a packet's payload: none if a tag fails (13 R433). -/
def openPayload (s : State) (part : Nat) (h : PktHdr) (p : List Byte) : Option (List Byte) :=
  let body := pktBody h p
  if h.isSealed then
    let keys := fabKeys s part
    let us := units512 (body.take h.len)
    let tags := body.drop h.len
    if (List.range us.length).all fun i => slice tags (8 * i) 8 == fabTag keys.2 h i (us.getD i []) then
      some ((List.range us.length).map fun i => fabCrypt false keys.1 h i (us.getD i [])).flatten
    else none
  else some body

-- Node, ports, routes (R308-R317)

def portUp : Nat := 4
def State.upPort (s : State) (p : Nat) : Bool := s.getF (Reg.xfePortState p) == portUp
def State.node (s : State) : Nat := s.getF Reg.xfeNodeAssigned
def State.nodeValid (s : State) : Bool := s.flag Reg.xfeNodeValid

/-- The port mask of a node (R317), and the UP ports in it. -/
def State.routeMask (s : State) (n : Nat) : Nat := tgetD s.xfe.routes n 0xFF
def State.upPorts (s : State) (n : Nat) : List Nat := (List.range 8).filter fun p => bit (s.routeMask n) p && s.upPort p

/-- The device's ML-DSA-65 public key and UID (13 R420, R312). -/
def devicePublic : List Byte := Config.mlDsaPublic (shake256 (ascii "SV8-ID" ++ (List.range 32).map Config.uds) 32)
def deviceUid : Nat := leNat (shake256 devicePublic 8)

def State.setXfe (s : State) (x : Xfe) : State := { s with xfe := x }
def putConn (id : Nat) (c : Conn) (s : State) : State := { s with xfe := { s.xfe with conns := tset s.xfe.conns id c } }

/-- Mark a connection used (R344). -/
def touchConn (id : Nat) (s : State) : State :=
  match tget s.xfe.conns id with
  | some c => { s with xfe := { s.xfe with conns := tset s.xfe.conns id { c with used := s.xfe.stamp }, stamp := s.xfe.stamp + 1 } }
  | none => s

/-- CGEN of an id (R327). -/
def State.cgenOf (s : State) (id : Nat) : Nat := tgetD s.xfe.cgen id 0

/-- The header that a connection's packet starts from. -/
def connHdr (s : State) (c : Conn) (op : Nat) : PktHdr :=
  { version := if c.native then 2 else 1, op := op, dst := c.node, src := s.node, conn := c.peerConn, cgen := c.peerCgen, ptag := c.part }

/-- Signed distance of sequence numbers modulo 2^w. -/
def seqDist (w a b : Nat) : Int := sext w ((a + 2 ^ w - b % 2 ^ w) % 2 ^ w)

/-- A packet of a class leaves a port on one of the link credits that the port holds (R310). -/
def takeCredit (port cls : Nat) (s : State) : State :=
  { s with xfe := { s.xfe with credits := tset s.xfe.credits (port * 4 + cls) (s.linkCredit port cls - 1) } }

/-- The other end of a port's link grants credits, by class (R308, R310). -/
def grantCredits (port : Nat) (given : List Nat) (s : State) : State :=
  let held := (List.range 4).foldl (fun t k => tset t (port * 4 + k) (tgetD t (port * 4 + k) 0 + given.getD k 0)) s.xfe.credits
  { s with xfe := { s.xfe with credits := held } }

/-- The lowest PSN of a connection that no SACK has covered (R343). -/
def Conn.psnOldest (c : Conn) : Nat :=
  ((c.tx.map fun m => m.pkts.filterMap fun p => if p.acked || m.acked then none else p.psn).flatten ++ c.ctlSent.filterMap (·.psn)).foldl
    (fun a p => if seqDist 24 p a < 0 then p else a) c.psnNext

/-- The connection whose PSNs a control packet takes as it leaves (R341). -/
def CtlPkt.numbered (k : CtlPkt) (s : State) : Option (Nat × Conn) :=
  (k.conn.bind fun id => (tget s.xfe.conns id).map fun c => (id, c)).filter fun x => !x.2.native && k.psn.isNone

/-- A control packet that is sent again leaves by another port (R311). -/
def notePort (k : CtlPkt) (s : State) : State :=
  let id := k.conn.getD 0
  match (tget s.xfe.conns id).filter fun _ => k.conn.isSome with
  | some c => putConn id { c with ctlSent := c.ctlSent.map fun q => if q.psn = k.psn then { q with port := k.port } else q } s
  | none => s

/-- A control packet of a compatibility connection takes the connection's next PSN as it first leaves (R341). -/
def numberCtl (k : CtlPkt) (s : State) : CtlPkt × State :=
  match k.numbered s with
  | some (id, c) =>
    let k := { k with psn := some c.psnNext, hdr := { k.hdr with psn := c.psnNext } }
    (k, putConn id { c with psnNext := (c.psnNext + 1) % 2 ^ 24, ctlSent := c.ctlSent ++ [k] } s)
  | none => (k, notePort k s)

/-- A control packet whose PSN would lie 256 or more above one not covered stays (R338, R343). -/
def CtlPkt.within (k : CtlPkt) (s : State) : Bool :=
  ((k.numbered s).map fun x => decide (seqDist 24 x.2.psnNext x.2.psnOldest < 256)).getD true

/-- Put a control packet at the end of a port's queue. -/
def pushCtl (port : Nat) (k : CtlPkt) (s : State) : State :=
  { s with xfe := { s.xfe with ctl := tset s.xfe.ctl port (tgetD s.xfe.ctl port [] ++ [k]) } }

/-- A control packet leaves a port, if the route mask of its node holds the port; else it takes another (R317). -/
def leaveCtl (port : Nat) (k : CtlPkt) (s : State) : State :=
  if (s.upPorts k.hdr.dst).contains port then
    let (k, s) := numberCtl { k with port := port } s
    ((takeCredit port 2 s).emit (.packet port (buildPacket s k.sealPart k.hdr k.payload))).bump (Ctr.xfeTxPackets port)
  else match (s.upPorts k.hdr.dst).head? with
    | some p => pushCtl p k s
    | none => s

/-- The next control packet of a port that may leave does, on a class-2 credit (R310). -/
def ctlNext (port : Nat) (s : State) : State :=
  let l := tgetD s.xfe.ctl port []
  match l.find? (·.within s) with
  | none => s
  | some k => if s.linkCredit port 2 = 0 then s else leaveCtl port k { s with xfe := { s.xfe with ctl := tset s.xfe.ctl port (l.erase k) } }

/-- No granted packet holds a port: its control packets leave as the credits allow (R310). -/
def ctlIdle (port : Nat) (s : State) : State :=
  if ((s.slu? (firstEgress + port)).current).isSome then s else (tgetD s.xfe.ctl port []).foldl (fun s _ => ctlNext port s) s

/-- Give a control packet to a port. -/
def queueCtl (port : Nat) (k : CtlPkt) (s : State) : State := ctlIdle port (pushCtl port k s)

/-- Control packets that waited for PSNs leave the ports that no granted packet holds (R343). -/
def ctlAgain (s : State) : State := (List.range 8).foldl (fun s p => ctlIdle p s) s

/-- One control packet of those that wait at a port: of the id that ends it takes its PSN now, and belongs to no connection from then on. -/
def settleOne (id : Nat) (l : List CtlPkt) (k : CtlPkt) (s : State) : List CtlPkt × State :=
  if k.conn = some id then (l ++ [{ (numberCtl k s).1 with conn := none }], (numberCtl k s).2) else (l ++ [k], s)

/-- The control packets of an id that wait at a port as it ends. -/
def settlePort (id port : Nat) (s : State) : State :=
  let l := (tgetD s.xfe.ctl port []).foldl (fun a k => settleOne id a.1 k a.2) ([], s)
  { l.2 with xfe := { l.2.xfe with ctl := tset l.2.xfe.ctl port l.1 } }

/-- The control packets of an id that ends take their PSNs before its record goes (R341). -/
def settleCtl (id : Nat) (s : State) : State := (tkeys s.xfe.ctl).foldl (fun s port => settlePort id port s) s

/-- Hand a control packet (ACK, NAK, connection packets) to a port (R310): they are not arbitrated, and go in class 2. `conn` names the
connection it belongs to. -/
def sendCtl (port : Nat) (conn sealPart : Option Nat) (h : PktHdr) (payload : List Byte) (s : State) : State :=
  queueCtl port { conn := conn, sealPart := sealPart, payload := payload,
                  hdr := { h with flags := setBit h.flags flLast, route := h.route % 16 + 2 * 16 } } s

/-- Free an id: its CGEN rises (R327). -/
def freeConn (id : Nat) (s : State) : State :=
  let s := settleCtl id s
  { s with xfe := { s.xfe with conns := tdel s.xfe.conns id, cgen := tset s.xfe.cgen id ((s.cgenOf id + 1) % 65536) } }

/-- The port of an answer (R332): the one it arrived on if UP, else the first UP port of the route mask; R317 keeps it, too, to the ports
of the mask (DEDUCED, log 54). -/
def answerPort (s : State) (port node : Nat) : Option Nat := if (s.upPorts node).contains port then some port else (s.upPorts node).head?

/-- Send a control packet to a node on its first UP port. -/
def sendCtlTo (node : Nat) (conn sealPart : Option Nat) (h : PktHdr) (payload : List Byte) (s : State) : State :=
  match (s.upPorts node).head? with
  | some p => sendCtl p conn sealPart h payload s
  | none => s

-- Sending (R328, R335, R338, R341)

/-- Packets of a message. -/
def TxMsg.count (m : TxMsg) : Nat := max 1 (cdiv m.data.length 4096)

/-- Packets given to a port and not acknowledged. -/
def Conn.unacked (c : Conn) : Nat := (c.tx.map fun m => if m.acked then 0 else (m.pkts.filter fun p => !p.acked).length).sum

/-- S: the first message not acknowledged (R338). -/
def Conn.base (c : Conn) : Nat := ((c.tx.find? fun m => !m.acked).map (·.seq)).getD c.txNext

/-- The requester of a packet at its egress port (R291, R292). -/
def requesterOf (cls part : Nat) : Nat := if cls = 0 then part else if cls = 1 then 16 + part else 32

/-- Path and port of packet j of message s (R328, R341). -/
def choosePath (id : Nat) (c : Conn) (seq j : Nat) (ups : List Nat) : Nat × Nat :=
  let u := max 1 ups.length
  if c.native then
    let start := (seq + j) % c.paths
    let order := (List.range c.paths).map fun k => (start + k) % c.paths
    let p := (order.find? fun p => !c.skip.any fun x => x.1 == p && x.2 != 0).getD start
    (p, ups.getD (p % u) 0)
  else (0, ups.getD (id % u) 0)

/-- The ports of a message's path set that it may leave by: those that were UP as it began, are UP now and stand in the node's route mask
(R311, R317, R328). -/
def msgPorts (s : State) (c : Conn) (m : TxMsg) : List Nat := (s.upPorts c.node).filter fun p => (m.ports.map (bit · p)).getD true

/-- Packets of a connection that have yet to take a PSN. -/
def Conn.unnumbered (c : Conn) : Nat := (c.tx.map fun m => (m.pkts.filter fun p => p.psn.isNone && !p.acked && !m.acked).length).sum

/-- S + 256 is out of reach (R338); in compatibility mode the same of PSNs (R343). -/
def beyondWindow (c : Conn) (m : TxMsg) : Bool :=
  if c.native then decide (256 ≤ seqDist 32 m.seq c.base) else decide (256 ≤ seqDist 24 c.psnNext c.psnOldest + c.unnumbered)

/-- Change a message of a connection. -/
def modTx (id seq : Nat) (f : TxMsg → TxMsg) (s : State) : State :=
  match tget s.xfe.conns id with
  | some c => putConn id { c with tx := c.tx.map fun m => if m.seq = seq then f m else m } s
  | none => s

/-- Change a packet of a message. -/
def modPkt (id seq index : Nat) (f : TxPkt → TxPkt) (s : State) : State :=
  modTx id seq (fun m => { m with pkts := m.pkts.map fun p => if p.index = index then f p else p }) s

/-- Queue a packet at its port. -/
def queuePkt (part cls port : Nat) (p : EgressPkt) (s : State) : State :=
  let k := port * sluRequesters + requesterOf cls part
  { s with xfe := { s.xfe with egress := tset s.xfe.egress k (tgetD s.xfe.egress k [] ++ [p]) } }

/-- Packets may be given to ports for a connection. -/
def Conn.sends (c : Conn) (s : State) : Bool := (c.state == .opened || c.state == .closing) && !c.spilled && s.nodeValid

/-- Give one more packet of a connection to a port, if the window, S + 256, the ports and the connection's state allow. -/
def pumpOne (id : Nat) (s : State) : Option State :=
  match tget s.xfe.conns id with
  | none => none
  | some c =>
    match c.tx.find? fun m => !m.acked && decide (m.pkts.length < m.count) with
    | none => none
    | some m =>
      let ups := msgPorts s c m
      if !c.sends s || ups.isEmpty || decide (c.window ≤ c.unacked) || beyondWindow c m then none
      else
        let j := m.pkts.length
        let (path, port) := choosePath id c m.seq j ups
        let m' := { m with pkts := m.pkts ++ [{ index := j, path := path, port := port }], ports := some (m.ports.getD (ups.foldl setBit 0)) }
        let c' := { c with tx := c.tx.map fun x => if x.seq = m.seq then m' else x
                           skip := (c.skip.map fun x => (x.1, x.2 - 1)).filter fun x => x.2 != 0 }
        some (queuePkt c.part m.cls port { conn := id, seq := m.seq, index := j } (putConn id c' s))

/-- Send a packet again (R311, R333, R343): with RETX if it has left before, on a path of its message's ports. One that still waits at a
port it may leave by is not queued twice; without a port it waits for one. -/
def resendPkt (id seq index : Nat) (s : State) : State :=
  match findTx s { conn := id, seq := seq, index := index } with
  | none => s
  | some (c, m) =>
    match m.pkts.find? (·.index == index) with
    | none => s
    | some p =>
      let ups := msgPorts s c m
      if p.acked || m.acked || (p.queued && ups.contains p.port) then s
      else if ups.isEmpty || !c.sends s then modPkt id seq index (fun q => { q with queued := false }) s
      else
        let (path, port) := choosePath id c seq index ups
        queuePkt c.part m.cls port { conn := id, seq := seq, index := index }
          (modPkt id seq index (fun q => { q with path := path, port := port, retx := q.retx || q.left, queued := true }) s)

/-- Packets of a connection that never left and wait at no port. -/
def Conn.stranded (c : Conn) : List (Nat × Nat) :=
  (c.tx.map fun m => (m.pkts.filter fun p => !p.queued && !p.left && !p.acked && !m.acked).map fun p => (m.seq, p.index)).flatten

/-- Give packets to the ports as far as the window allows. -/
def pump (id : Nat) : Nat → State → State
  | 0, s => s
  | n + 1, s =>
    match pumpOne id s with
    | some s' => pump id n s'
    | none => s

def pumpAll (id : Nat) (s : State) : State :=
  let lost := ((tget s.xfe.conns id).map Conn.stranded).getD []
  pump id 256 (lost.foldl (fun s x => resendPkt id x.1 x.2 s) s)

-- Record layout (R345)

/-- The 64 bytes of a connection record. R345 gives STATE for the records that it spills; READ_RECORD shows 1 for OPENING and 4 for FAILED
(DESIGN CHOICE, log 54). -/
def connRecord (s : State) (id : Nat) (c : Conn) : List Byte :=
  let st := match c.state with
    | .opening => 1
    | .opened => 2
    | .closing => 3
    | .failed => 4
  let b := leBytes 1 st ++ leBytes 1 (if c.native then 2 else 1) ++ leBytes 2 (s.cgenOf id) ++
    leBytes 4 (c.node + c.rpart * 2 ^ 17) ++ leBytes 4 (c.peerConn + (c.peerCgen % 4096) * 2 ^ 20) ++ leBytes 2 c.peerCgen ++
    leBytes 1 c.part ++ leBytes 1 c.paths ++ leBytes 2 c.window ++ leBytes 2 c.ceil ++
    leBytes 4 (if c.native then c.txNext else c.psnNext) ++ leBytes 4 (if c.native then c.rxBase else c.psnBase) ++
    leBytes 4 c.rtoUs ++ leBytes 8 c.peerUid ++ leBytes 4 c.violations ++ zeros 16
  b ++ shake256 b 4

/-- Take the fields of a record that came back (R344). -/
def connOfRecord (c : Conn) (b : List Byte) : Conn :=
  { c with state := if fieldAt b 0 1 = 3 then .closing else .opened, native := fieldAt b 1 1 == 2, node := fieldAt b 4 4 % 2 ^ 17,
           rpart := fieldAt b 4 4 / 2 ^ 17 % 16, peerConn := fieldAt b 8 4 % 2 ^ 20, peerCgen := fieldAt b 0xC 2,
           part := fieldAt b 0xE 1 % 16, paths := fieldAt b 0xF 1, window := fieldAt b 0x10 2, ceil := fieldAt b 0x12 2,
           txNext := if c.native then fieldAt b 0x14 4 else c.txNext, psnNext := if c.native then c.psnNext else fieldAt b 0x14 4,
           rxBase := if c.native then fieldAt b 0x18 4 else c.rxBase, psnBase := if c.native then c.psnBase else fieldAt b 0x18 4,
           rtoUs := fieldAt b 0x1C 4, peerUid := fieldAt b 0x20 8, violations := fieldAt b 0x28 4, spilled := false }

/-- On-chip connection records (R344). -/
def onChip : Nat := 16384
def State.resident (s : State) : Nat :=
  (s.xfe.conns.filter fun c => !c.2.spilled).length +
    (s.xfe.fetching.filter fun id => ((tget s.xfe.conns id).map (·.spilled)).getD false).length

/-- An idle record: no unacknowledged sent packet and no tracker (R344). Only OPEN and CLOSING records are spilled (R345). -/
def Conn.idle (c : Conn) : Bool :=
  (c.state == .opened || c.state == .closing) && c.tx.isEmpty && c.trackers.isEmpty && c.held.isEmpty

/-- Evict the least recently used idle record of a partition that is not protected, if the on-chip records are full (R344). -/
def makeRoom (s : State) : State :=
  if s.resident < onChip ∨ s.flag Reg.xfeSpillEn = false then s
  else
    let cand := s.xfe.conns.filter fun c => !c.2.spilled && c.2.idle && !s.isProtected c.2.part
    match cand with
    | [] => s
    | e :: l =>
      let v := l.foldl (fun m x => if x.2.used < m.2.used then x else m) e
      let s := putConn v.1 { v.2 with spilled := true, ctlSent := [] } s
      (s.emit (.hostWrite 0 (s.getF Reg.xfeSpillBase * 4096 + v.1 * 64) (connRecord s v.1 v.2))).bump Ctr.xfeSpillEvictions

/-- Ask for a spilled record (R344). -/
def fetchRecord (id : Nat) (s : State) : State :=
  if s.xfe.fetching.contains id then s
  else
    let s := makeRoom s
    if onChip ≤ s.resident then
      { s with xfe := { s.xfe with roomless := if s.xfe.roomless.contains id then s.xfe.roomless else s.xfe.roomless ++ [id] } }
    else
      let s := { s with xfe := { s.xfe with fetching := s.xfe.fetching ++ [id], roomless := s.xfe.roomless.filter (· != id) } }
      (s.emit (.hostFetch 0 (s.getF Reg.xfeSpillBase * 4096 + id * 64) 64)).bump Ctr.xfeSpillFetches

/-- Records that waited for room are fetched once a record on chip is idle or gone (R344). -/
def fetchWaiting (s : State) : State := s.xfe.roomless.foldl (fun s id => if (tget s.xfe.conns id).isSome then fetchRecord id s else
  { s with xfe := { s.xfe with roomless := s.xfe.roomless.filter (· != id) } }) s

/-- Append a message to a connection (R328); its MSG_SEQ is the connection's next. -/
def sendMsg (id : Nat) (m : TxMsg) (s : State) : State :=
  match tget s.xfe.conns id with
  | none => s
  | some c =>
    if c.spilled then fetchRecord id { s with xfe := { s.xfe with holdingMsgs := s.xfe.holdingMsgs ++ [(id, m)] } }
    else
    let m := { m with seq := c.txNext }
    let c' := { c with tx := c.tx ++ [m], txNext := (c.txNext + 1) % 2 ^ 32, used := s.xfe.stamp }
    pumpAll id ({ putConn id c' s with xfe := { (putConn id c' s).xfe with stamp := s.xfe.stamp + 1 } })

/-- The header of packet j of a message. -/
def txHdr (s : State) (c : Conn) (m : TxMsg) (p : TxPkt) : PktHdr :=
  { connHdr s c m.op with
    flags := (if p.index + 1 = m.count then 1 else 0) + (if p.retx then 2 else 0) + (if bit m.poison p.index then 8 else 0)
    route := p.path + m.cls * 16, seq := m.seq, index := p.index, pktsM1 := m.count - 1, addr := m.addr + 4096 * p.index
    rkey := m.rkey, rgen := m.rgen, arg := m.arg, psn := p.psn.getD 0 }

/-- A message of the prefix store goes as bulk traffic of its partition by the first UP port of its node's mask (09 R292, R315, R317); with
no node number and with no such port nothing is sent. -/
def sendOwn (m : OwnMsg) (s : State) : State :=
  if !s.nodeValid then s
  else match (s.upPorts m.node).head? with
    | some p => queuePkt m.part 1 p { conn := 0, seq := 0, index := 0, own := some m } s
    | none => s

/-- A granted message of the prefix store leaves its port on a link credit. -/
def leaveOwn (port : Nat) (m : OwnMsg) (s : State) : State :=
  if (s.upPorts m.node).contains port then
    takeCredit port 1 ((s.emit (.flit m.kind m.words m.bytes)).bump (Ctr.xfeTxPackets port))
  else sendOwn m s

/-- A granted packet leaves its port on a link credit (R310, R328), in compatibility mode with the next PSN if it is its first sending
(R341). A packet acknowledged or dropped in the meantime is not sent (R338); one whose port is no more in the route mask of its node takes
another (R317). -/
def leavePort (port : Nat) (e : EgressPkt) (s : State) : State :=
  match e.own with
  | some m => leaveOwn port m s
  | none =>
  match findTx s e with
  | none => s
  | some (c, m) =>
    match m.pkts.find? (·.index == e.index) with
    | none => s
    | some p =>
      if p.acked || m.acked || p.port != port || !p.queued then s
      else if !(s.upPorts c.node).contains port then resendPkt e.conn e.seq e.index s
      else
        let p := { p with psn := if c.native then none else some (p.psn.getD c.psnNext) }
        let c' := if c.native || (p.psn != some c.psnNext) then c else { c with psnNext := (c.psnNext + 1) % 2 ^ 24 }
        let pkt := buildPacket s (sealOf s c.part) (txHdr s c m p) (m.payload p.index)
        let s := takeCredit port m.cls ((s.emit (.packet port pkt)).bump (Ctr.xfeTxPackets port))
        let s := if p.retx then s.bump Ctr.xfeRetransmissions else s
        modPkt e.conn e.seq e.index (fun q => { q with left := true, queued := false, psn := p.psn }) (putConn e.conn c' s)

/-- The packet of a finished grant leaves, and then one control packet of the port (R310). -/
def sendGranted (port : Nat) (e : EgressPkt) (s : State) : State := ctlNext port (leavePort port e s)

-- Completion of work requests (11 R360, R363)

/-- Add 1 to a local arrival counter; bit 63 is set by a status other than ST_OK. -/
def localCounter (part addr : Nat) (st : Status) (s : State) : State :=
  if addr = 0 ∨ s.inDirect part 0 addr 8 = false then s
  else
    let v := leNat (s.directRead part 0 addr 8)
    let n := (v % 2 ^ 63 + 1) % 2 ^ 63 + (if 2 ^ 63 ≤ v ∨ st ≠ .ok then 2 ^ 63 else 0)
    s.directWrite part 0 addr (leBytes 8 n)

/-- End a work request: its local counter, then its command, or EV_XFE_WR_FAILED for a triggered one. -/
def finishWork (id : Nat) (st : Status) (result : Nat) (s : State) : State :=
  match tget s.xfe.works id with
  | none => s
  | some w =>
    let s := { s with xfe := { s.xfe with works := tdel s.xfe.works id } }
    let s := localCounter w.part w.wr.localCtr st s
    match w.cmd with
    | some c => complete c { status := st, result0 := result } s
    | none => if st = .ok then s else logEv .xfeWrFailed pXfe w.part [w.wr.op, st.code] s

/-- One message of a work request has left or ended: when none is outstanding, the request ends. -/
def workStep (id : Nat) (st : Status) (s : State) : State :=
  match tget s.xfe.works id with
  | none => s
  | some w =>
    let w' := { w with left := w.left - 1, status := if w.status = .ok then st else w.status }
    let s := { s with xfe := { s.xfe with works := tset s.xfe.works id w' } }
    if w'.left = 0 then finishWork id w'.status 0 s else s

/-- The opcodes whose operation completes when the last packet leaves (11 R349). -/
def opLeaves (op : Nat) : Bool := [1, 8, 9, 12].contains op

/-- A message ends at the sender before it completed: its work request takes the status. -/
def endMsg (m : TxMsg) (st : Status) (s : State) : State :=
  match m.work with
  | some id => if opLeaves m.op then workStep id st s else finishWork id st 0 s
  | none => s

-- Failure (R325)

/-- End a message at the sender with the request that it carries (R325, R350). -/
def endSent (m : TxMsg) (st : Status) (s : State) : State :=
  endMsg m st (match m.req.bind fun r => (tget s.xfe.requests r).map fun q => (r, q) with
    | some (r, q) => hartEnds q.what { s with xfe := { s.xfe with requests := tdel s.xfe.requests r } }
    | none => s)

def keyIndex (k : Nat) : Nat := k % 65536
def keyTag (k : Nat) : Nat := k / 65536
def modRegion (i : Nat) (f : Region → Region) (s : State) : State := { s with xfe := { s.xfe with regions := tmod s.xfe.regions i f } }

/-- A packet that passed the region's checks is finished (11 R365). -/
def flightEnds (rkey : Nat) (s : State) : State := modRegion (keyIndex rkey) (fun r => { r with inflight := r.inflight - 1 }) s

/-- The TRIGGERs that a connection holds end with it: their packets are finished (11 R365). -/
def releaseHeld (c : Conn) (s : State) : State :=
  (c.held.filter fun x => x.op == 0x0C).foldl (fun s x => flightEnds (PktHdr.parse x.header).rkey s) s

/-- Messages that wait for a connection's record end ST_FABRIC_LOST with it (R325, R344). -/
def loseHolding (id : Nat) (s : State) : State :=
  let lost := s.xfe.holdingMsgs.filter (·.1 == id)
  lost.foldl (fun s m => endSent m.2 .fabricLost s) { s with xfe := { s.xfe with holdingMsgs := s.xfe.holdingMsgs.filter (·.1 != id) } }

/-- Put a connection into FAILED (R325): every message neither acknowledged nor completed ends ST_FABRIC_LOST, trackers are
freed, EV_XFE_CONN_FAILED is logged. A record that was spilled comes back on chip where there is room (R344). -/
def failConn (id : Nat) (s : State) : State :=
  match tget s.xfe.conns id with
  | none => s
  | some c =>
    if c.state ≠ .opened ∧ c.state ≠ .closing then s
    else
      let lost := c.tx.filter fun m => !m.acked && !m.completed
      let s := if c.spilled && !s.xfe.fetching.contains id then makeRoom s else s
      let away := c.spilled && !s.xfe.fetching.contains id && decide (onChip ≤ s.resident)
      let c' := { c with state := .failed, tx := [], ctlSent := [], trackers := [], held := [], spilled := away, cmd := none }
      let s := releaseHeld c (putConn id c' s)
      let s := loseHolding id (lost.foldl (fun s m => endSent m .fabricLost s) s)
      let s := logEv .xfeConnFailed pXfe c.part [id, c.node, c.rpart] (s.bump Ctr.xfeConnFailed)
      match c.cmd with
      | some k => complete k { status := .fabricLost } s
      | none => s

/-- Complete a closing connection's CLOSE: send it once every sent message is acknowledged (R325). -/
def tryClose (id : Nat) (s : State) : State :=
  match tget s.xfe.conns id with
  | some c =>
    if c.state = .closing ∧ c.closeSent = false ∧ c.tx.all (·.acked) ∧ c.spilled = false then
      sendCtlTo c.node (some id) (sealOf s c.part) (connHdr s c 0x74) [] (putConn id { c with closeSent := true } s)
    else s
  | none => s

/-- Drop from a connection the messages that are both acknowledged and completed. -/
def pruneTx (id : Nat) (s : State) : State :=
  match tget s.xfe.conns id with
  | some c => putConn id { c with tx := c.tx.filter fun m => !(m.acked && (m.completed || !opLeaves m.op)) } s
  | none => s

-- Violations (R346)

/-- Count a violation against the connection, or the port if none applies, and log it (R346). -/
def violate (conn : Option Nat) (port part : Nat) (hdr : List Byte) (s : State) : State :=
  let s := logEv .xfeProtocol pXfe part [port, leNat (slice hdr 0 8), leNat (slice hdr 8 8), leNat (slice hdr 16 8)]
    (s.bump Ctr.xfeProtocolViolations)
  match conn with
  | some id =>
    match tget s.xfe.conns id with
    | some c =>
      let n := c.violations + 1
      let s := putConn id { c with violations := n } s
      let limit := s.getF Reg.xfeViolConnLimit
      if limit ≠ 0 ∧ limit ≤ n then failConn id s else s
    | none => s
  | none =>
    let p := tgetD s.xfe.portBad port {}
    { s with xfe := { s.xfe with portBad := tset s.xfe.portBad port { p with bad := p.bad + 1 } } }

/-- A control packet goes again, with RETX, on a port of its node's mask (R311, R343). -/
def resendCtl (k : CtlPkt) (s : State) : State :=
  match (s.upPorts k.hdr.dst).head? with
  | some p => queueCtl p { k with hdr := { k.hdr with flags := setBit k.hdr.flags flRetx } } s
  | none => s

/-- A port leaves the path set of a message that has begun (R311). -/
def TxMsg.without (m : TxMsg) (port : Nat) : TxMsg := { m with ports := m.ports.map fun v => clrBit v port }

/-- Send again at once every unacknowledged packet that went out on a port that left UP, and queue elsewhere those that waited there; the
port joins the path set of a message only from the next one on (R311). `waiting` and `own`: what waited at the port. -/
def portLeft (port : Nat) (waiting : List CtlPkt) (own : List OwnMsg) (s : State) : State :=
  let s := waiting.foldl (fun s k => match (s.upPorts k.hdr.dst).head? with
    | some p => queueCtl p k s
    | none => s) s
  let s := own.foldl (fun s m => sendOwn m s) s
  (tkeys s.xfe.conns).foldl (fun s id =>
    match tget s.xfe.conns id with
    | some c =>
      let c : Conn := { c with tx := c.tx.map (·.without port) }
      let s := (c.ctlSent.filter (·.port == port)).foldl (fun s k => resendCtl k s) (putConn id c s)
      let lost := (c.tx.map fun m => if m.acked then [] else
        (m.pkts.filter fun p => p.port == port && !p.acked).map fun p => (m.seq, p.index)).flatten
      lost.foldl (fun s x => resendPkt id x.1 x.2 s) s
    | none => s) s

/-- Where the ANNOUNCEs of a port wait, beside its other control packets: they are of class 3 (R310). -/
def announcing (port : Nat) : Nat := 8 + port

/-- Drop what is queued at a port, and its link credits. -/
def clearPort (port : Nat) (s : State) : State :=
  { s with xfe := { s.xfe with egress := s.xfe.egress.filter (fun e => e.1 / sluRequesters != port),
                               ctl := tdel (tdel s.xfe.ctl port) (announcing port),
                               credits := s.xfe.credits.filter fun e => e.1 / 4 != port } }

/-- The prefix store's messages that wait at a port. -/
def ownAt (port : Nat) (s : State) : List OwnMsg :=
  (s.xfe.egress.filter fun e => e.1 / sluRequesters == port).flatMap fun e => e.2.filterMap (·.own)

/-- Take a port out of UP or training into a state (R308). -/
def dropPort (port state : Nat) (s : State) : State :=
  let was := s.upPort port
  let s := (((s.setF (Reg.xfePortState port) state).setF (Reg.xfePortWidth port) 0).setF (Reg.xfePortGen port) 0)
  let s := { s with xfe := { s.xfe with attempts := tdel s.xfe.attempts port, lanes := tdel s.xfe.lanes port } }
  if was then portLeft port (tgetD s.xfe.ctl port []) (ownAt port s) (clearPort port s) else s

/-- ANNOUNCE of a port (R312): UID, generation, port, mask of ports UP and role, in a payload of 12 bytes, of which the spec gives no layout
(DESIGN CHOICE, log 54). It is link-local, of class 3. -/
def announcePkt (port : Nat) (s : State) : CtlPkt :=
  let mask := (List.range 8).foldl (fun m p => if s.upPort p then m + 2 ^ p else m) 0
  { hdr := { version := 2, op := 0x78, flags := 1 + 16, route := 3 * 16, dst := 0, src := s.node, conn := 0, cgen := 0, ptag := 0 },
    payload := leBytes 8 deviceUid ++ leBytes 1 2 ++ leBytes 1 port ++ leBytes 1 mask ++ leBytes 1 0x53 }

/-- The ANNOUNCEs of a port leave as far as its class-3 credits go (R310). -/
def announceIdle (port : Nat) (s : State) : State :=
  (tgetD s.xfe.ctl (announcing port) []).foldl (fun s k =>
    if s.linkCredit port 3 = 0 then s
    else
      let s := { s with xfe := { s.xfe with ctl := tset s.xfe.ctl (announcing port) ((tgetD s.xfe.ctl (announcing port) []).drop 1) } }
      ((takeCredit port 3 s).emit (.packet port (buildPacket s none k.hdr k.payload))).bump (Ctr.xfeTxPackets port)) s

/-- Send ANNOUNCE on a port (R312). -/
def announce (port : Nat) (s : State) : State := announceIdle port (pushCtl (announcing port) (announcePkt port s) s)

def announceAll (s : State) : State := ((List.range 8).filter s.upPort).foldl (fun s p => announce p s) s

/-- A port whose count of violations has reached the limit is cut off (R346). -/
def portCutoff (port : Nat) (s : State) : State :=
  let p := tgetD s.xfe.portBad port {}
  let limit := s.getF Reg.xfeViolPortLimit
  if limit ≠ 0 ∧ limit ≤ p.bad ∧ s.upPort port then
    let s := { s with xfe := { s.xfe with portBad := tdel s.xfe.portBad port } }
    let s := ((dropPort port 0 s).setF (Reg.xfePortEn port) 0).setF (Reg.xfePortCutoff port) 1
    let s := (logEv .xfePortCutoff pXfe 0xFF [port] s).bump Ctr.frcPartnerCutoffs
    announceAll s
  else s

/-- Count a packet received on a port in the running window of 2^20 (R346). -/
def portSeen (port : Nat) (s : State) : State :=
  let p := tgetD s.xfe.portBad port {}
  let keep : Partner := if p.seen + 1 = 2 ^ 20 then {} else { p with seen := p.seen + 1 }
  { s with xfe := { s.xfe with portBad := tset s.xfe.portBad port keep } }

-- Answers (R331, R332, R346)

/-- The receive bitmap of a message, or of the PSNs in [E, E + 255] in compatibility mode, as 32 bytes. -/
def ackBitmap (c : Conn) (seq : Nat) (full : Option Nat) : List Byte :=
  let m :=
    if c.native then
      match full with
      | some pktsM1 => 2 ^ (pktsM1 + 1) - 1
      | none => ((tget c.trackers seq).map (·.got)).getD 0
    else c.psnGot.foldl (fun m p => setBit m ((p + 2 ^ 24 - c.psnBase) % 2 ^ 24)) 0
  leBytes 32 m

/-- Send an ACK of a kind (R331): 0 SACK, 1 COMPLETE, 2 DUP. The connection's mark count is taken. R331 gives an ACK no PATH: it is that of
the packet it answers, and 0 at the expiry of ACK_DELAY and for a TRIGGER (DESIGN CHOICE, log 54). -/
def sendAck (id port seq kind : Nat) (full : Option Nat) (path : Nat) (s : State) : State :=
  match tget s.xfe.conns id with
  | none => s
  | some c =>
    let pay := ackBitmap c seq full ++ leBytes 4 (if c.native then c.rxBase else c.psnBase) ++ leBytes 1 (min c.marks 255) ++
      leBytes 1 kind ++ zeros 2
    match answerPort s port c.node with
    | none => s
    | some p =>
      let trackers := tmod c.trackers seq fun t => { t with sinceAck := 0 }
      sendCtl p (some id) (sealOf s c.part) { connHdr s c 0x70 with seq := seq, route := path } pay
        (putConn id { c with marks := 0, trackers := trackers } s)

/-- Send a NAK (R346): reason, subreason, the offending header. `toConn`, `toCgen`: the sender's id and CGEN, where known. A NAK draws no
NAK, and without a node number nothing is sent (R315; log 54). -/
def sendNak (port : Nat) (h : PktHdr) (raw : List Byte) (conn : Option Nat) (toConn toCgen reason sub : Nat) (s : State) : State :=
  if h.op = 0x71 ∨ s.nodeValid = false then s
  else
    let pay := leBytes 1 reason ++ leBytes 1 sub ++ zeros 6 ++ slice raw 0 64
    match answerPort s port h.src with
    | none => s
    | some p =>
      let c := conn.bind (tget s.xfe.conns)
      let part := c.map (·.part)
      let nh : PktHdr := { version := if (c.map (·.native)).getD true then 2 else 1, op := 0x71, dst := h.src, src := s.node, conn := toConn,
                           cgen := toCgen, seq := h.seq, ptag := part.getD 0 }
      sendCtl p conn (part.bind (sealOf s)) nh pay (s.bump Ctr.xfeNaksSent)

/-- Send a NAK on a connection. -/
def nakConn (id port : Nat) (h : PktHdr) (raw : List Byte) (reason sub : Nat) (s : State) : State :=
  match tget s.xfe.conns id with
  | some c => sendNak port h raw (some id) c.peerConn c.peerCgen reason sub s
  | none => s

-- Retirement at the receiver (R337, R347)

/-- Move B over every retired message at its head. -/
def advanceBase : Nat → Conn → Conn
  | 0, c => c
  | n + 1, c =>
    if c.retired.contains c.rxBase then
      advanceBase n { c with retired := c.retired.filter (· != c.rxBase), rxBase := (c.rxBase + 1) % 2 ^ 32 }
    else c

/-- Retire a message, complete or failed with a NAK's reason (R337, R347); a TRIGGER that failed counts as a previous TRIGGER
for the fence of those that follow (11 R361). -/
def retireRx (id seq op : Nat) (fail : Option (Nat × Nat)) (s : State) : State :=
  match tget s.xfe.conns id with
  | none => s
  | some c =>
    let c := { c with retired := if c.retired.contains seq then c.retired else seq :: c.retired, trackers := tdel c.trackers seq
                      triggers := if op = 0x0C then seq :: c.triggers else c.triggers }
    let c := match fail with
      | some (r, sub) => { c with failed := { seq := seq, reason := r, sub := sub } :: c.failed }
      | none => c
    putConn id (advanceBase 257 c) s

/-- Whether a message is retired (R337): below B, or recorded in [B, B + 255]. -/
def Conn.isRetired (c : Conn) (seq : Nat) : Bool := decide (seqDist 32 seq c.rxBase < 0) || c.retired.contains seq

/-- Fail a message at the receiver: NAK, then retired as failed (R347). -/
def failRx (id port : Nat) (h : PktHdr) (raw : List Byte) (reason sub : Nat) (s : State) : State :=
  retireRx id h.seq h.op (some (reason, sub)) (nakConn id port h raw reason sub s)

end Sys2Proof.Machine
end

