-- ==== Sys2Proof/Machine/FabricOps.lean ====
section
/-!
DEFINITION. Machine/FabricOps.lean: what fabric packets and work requests do (11 R348-R375), and how a received packet is
checked, placed, tracked and answered (10 R329-R347).
-/
set_option cleanup.letToHave false
namespace Sys2Proof.Machine

open Sys2Proof Fp

-- Peer list and rights (R366, R367)

/-- The governing entry of a pair: the first VALID one whose nodes hold the node and whose REMOTE_PART is the partition. -/
def governing (s : State) (n node rpart : Nat) : Option Nat :=
  ((List.range 64).map fun i => s.getF (Reg.mgcPbPeer n i)).find? fun v =>
    bit v 63 && decide (bits v 0 17 ≤ node ∧ node ≤ bits v 17 17) && bits v 34 4 == rpart

def entryKind (v : Nat) : Nat := bits v 38 2
def entryRights (v : Nat) : Nat := bits v 40 5

/-- The right that an opcode needs: READ 0, WRITE 1, ATOMIC 2, REDUCE 3, TRIGGER 4; none for FLUSH and responses. -/
def rightOf (op : Nat) : Option Nat :=
  if op = 1 ∨ op = 8 then some 1
  else if op = 2 then some 0
  else if op = 4 ∨ op = 6 then some 2
  else if op = 9 then some 3
  else if op = 0x0C then some 4
  else none

-- Elements (R353, R357, R358)

/-- Bytes of a TYPE. -/
def typeSize (t : Nat) : Nat := if t = 2 then 8 else if t = 4 then 2 else 4

/-- Add an operand to a word of a TYPE (R353). -/
def typeAdd (t old x : Nat) : Nat :=
  if t = 1 then (old + x) % 2 ^ 32
  else if t = 2 then (old + x) % 2 ^ 64
  else if t = 3 then to32 (add (of32 old) (of32 (x % 2 ^ 32)))
  else to16 (add (of16 old) (of16 (x % 2 ^ 16)))

/-- The value of an element of fp32 or bf16. -/
def elemVal (t code : Nat) : Fp := if t = 3 then of32 code else of16 code

/-- Accumulator, count and INVALID of an exact element (R358): 24, 4 and, in bit 31 of the count's word, one bit. -/
structure Exact where
  a : Nat
  c : Nat
  invalid : Bool
deriving DecidableEq, Repr

def Exact.parse (b : List Byte) : Exact := { a := fieldAt b 0 24, c := fieldAt b 24 4 % 2 ^ 31, invalid := bit (fieldAt b 24 4) 31 }
def Exact.bytes (e : Exact) : List Byte := leBytes 24 e.a ++ leBytes 4 (e.c % 2 ^ 31 + if e.invalid then 2 ^ 31 else 0) ++ zeros 4

/-- Step 1 and 2 of R358: q, or none where INVALID is set. -/
def exactQ (x : Fp) : Option Int :=
  if le (.fin 1 64) x || le x (.fin (-1) 64) then none
  else match x with
    | .fin m e => some (rndI m (e + 96))
    | _ => none

/-- An integer modulo 2^192. -/
def wrap192 (v : Int) : Nat := (v % (2 ^ 192 : Int)).toNat

/-- REDUCE into an exact element (R358 step 3). -/
def Exact.reduce (e : Exact) (x : Fp) : Exact :=
  match exactQ x with
  | none => { e with invalid := true }
  | some q => { a := wrap192 (e.a + q), c := (e.c + 1) % 2 ^ 31, invalid := e.invalid || decide (e.c + 1 = 2 ^ 31) }

/-- WRITE of an exact element (R358 step 4). -/
def Exact.write (x : Fp) (e : Exact) : Exact :=
  match exactQ x with
  | none => { e with c := 0, invalid := true }
  | some q => { a := wrap192 q, c := 0, invalid := false }

/-- READ of an exact element. -/
def Exact.value (t : Nat) (e : Exact) : Nat :=
  let v : Fp := if e.invalid then .nan else .fin (sext 192 e.a) (-96)
  if t = 3 then to32 v else to16 v

-- Regions (R364)

def putRegion (i : Nat) (r : Region) (s : State) : State := { s with xfe := { s.xfe with regions := tset s.xfe.regions i r } }

/-- Bytes of the elements of an exact region in T0. -/
def Region.exactBytes (r : Region) : Nat := r.length / typeSize r.etype * 32

/-- Direct-window address of a counter offset: within the region, or in the counter block of an exact one (R359, R360). -/
def Region.ctrAddr (r : Region) (off : Nat) : Nat := if r.kind = 1 then r.base + r.exactBytes + off else r.base + off

/-- The lowest free index of a partition's range. -/
def freeRegion (s : State) (part : Nat) : Option Nat :=
  ((List.range (s.getF (Reg.mgcPbRegionCount part))).map (s.getF (Reg.mgcPbRegionBase part) + ·)).find? fun i =>
    decide (i < 65536) && (tget s.xfe.regions i).isNone

/-- Enter a region under a fresh TAG that differs from the index's previous one (R364). -/
def addRegion (i : Nat) (r : Region) (s : State) : State × Nat :=
  let (v, s) := s.fresh
  let tag := match tget s.xfe.tags i with
    | some p => let u := v % 65535; if p ≤ u then u + 1 else u
    | none => v % 65536
  ({ s with xfe := { s.xfe with regions := tset s.xfe.regions i { r with tag := tag, gen := 1, state := .valid }, tags := tset s.xfe.tags i tag } },
   i + tag * 65536)

/-- The drained region is VALID again or RETIRING; the revoke completes (R370). -/
def revokeDone (i : Nat) (s : State) : State :=
  match tget s.xfe.regions i with
  | none => s
  | some r =>
    let retire := r.free || decide (r.gen = 0)
    let s := putRegion i { r with state := if retire then .retiring else .valid, revoke := none, free := false, expert := false } s
    let s := if r.expert then (s.setF Reg.xfeRegionStatBusy 0).setF Reg.xfeRegionStatStatus 0 else s
    match r.revoke with
    | some c => complete c {} s
    | none => s

/-- The step at the region entry (R370): GEN rises, DRAINING. GEN 256 stands as 0 and retires the index. -/
def revokeStep (i : Nat) (free expert : Bool) (cmd : Option Cmd) (s : State) : State :=
  match tget s.xfe.regions i with
  | none => s
  | some r =>
    let s := putRegion i { r with gen := (r.gen + 1) % 256, state := .draining, free := free, expert := expert, revoke := cmd } s
    let s := s.bump Ctr.xfeRevocations
    if r.inflight = 0 then revokeDone i s else s

/-- Register a SYSTEM region over an exchange buffer of the device (R364), written by the partition's connections; none without a free
index. -/
def systemRegion (part base length : Nat) (s : State) : Option (Nat × State) :=
  (freeRegion s part).map fun i =>
    (i, (addRegion i { tag := 0, part := part, system := true, kind := 0, rights := 2, base := base, length := length, source := 2 ^ 31 } s).1)

/-- A SYSTEM region ends with what it serves. -/
def endSystem (i : Nat) (s : State) : State := revokeStep i true false none (modRegion i (fun r => { r with wheel := none }) s)

/-- The state code of an entry (R364). -/
def RState.code : RState → Nat
  | .valid => 1
  | .draining => 2
  | .retiring => 3

/-- The 32 bytes of a region entry (R364); all zero for a FREE index except its last TAG. -/
def regionBytes (s : State) (i : Nat) : List Byte :=
  match tget s.xfe.regions i with
  | none => leBytes 2 (tgetD s.xfe.tags i 0) ++ zeros 30
  | some r =>
    leBytes 2 r.tag ++ leBytes 1 r.gen ++ leBytes 1 r.state.code ++ leBytes 1 (r.part + if r.system then 16 else 0) ++ leBytes 1 r.kind ++
      leBytes 1 r.rights ++ leBytes 1 r.etype ++ leBytes 8 (r.base + r.tier * 2 ^ 52) ++ leBytes 8 r.length ++ leBytes 4 r.source ++
      leBytes 2 r.inflight ++ zeros 2

/-- Whether a check of R365 past the partition's ones holds for a packet of a size. -/
def rangeOk (r : Region) (h : PktHdr) : Bool :=
  let n := if h.op = 2 then h.argAt 8 4 else if h.op = 4 then typeSize (h.argAt 0 1) else if h.op = 6 then h.argAt 12 1 else h.len
  let ctrEn := (h.op == 1 || h.op == 8 || h.op == 9) && bit (h.argAt 0 8) 63
  let ctr := h.argAt 0 8 % 2 ^ 47
  if h.op = 0x0C then h.argAt 0 4 == r.base % 2 ^ 32
  else decide (h.addr + n ≤ r.length) && (!ctrEn || decide (ctr + 8 ≤ if r.kind = 1 then 4096 else r.length))

/-- Natural alignment (check 10), and whole elements in an exact region. -/
def alignOk (r : Region) (h : PktHdr) : Bool :=
  let ctrEn := (h.op == 1 || h.op == 8 || h.op == 9) && bit (h.argAt 0 8) 63
  (if h.op = 4 then h.addr % typeSize (h.argAt 0 1) == 0 else if h.op = 6 then h.addr % h.argAt 12 1 == 0 else true) &&
  (!ctrEn || h.argAt 0 8 % 8 == 0) &&
  (r.kind != 1 || (h.addr % typeSize r.etype == 0 && (if h.op = 2 then h.argAt 8 4 else h.len) % typeSize r.etype == 0))

/-- Whether a KIND allows an operation, and TYPE matches (check 8). -/
def kindOk (r : Region) (h : PktHdr) : Bool :=
  if r.kind = 0 then h.op != 0x0C
  else if r.kind = 1 then h.op == 1 || h.op == 2 || (h.op == 9 && h.argAt 12 1 == r.etype)
  else h.op == 0x0C

/-- Checks 1 to 10 of R365: the subreason of the first failure. -/
def regionCheck (s : State) (c : Conn) (h : PktHdr) : Option Nat :=
  match tget s.xfe.regions (keyIndex h.rkey) with
  | none => some 1
  | some r =>
    if r.state = .retiring then some 1
    else if keyTag h.rkey ≠ r.tag then some 2
    else if h.rgen ≠ r.gen then some 3
    else if r.state ≠ .valid then some 4
    else if h.ptag ≠ c.rpart ∨ r.part ≠ c.part ∨ (c.trust ∧ h.ptag ≠ r.part) then some 5
    else if !bit r.source 31 && decide (r.source % 2 ^ 17 ≠ h.src) then some 6
    else
      let right := (rightOf h.op).getD 0
      if !bit r.rights right || (!c.trust && !bit c.rights right) then some 7
      else if !kindOk r h then some 8
      else if !rangeOk r h then some 9
      else if !alignOk r h then some 10
      else none

/-- Whether an opcode acts on a region. -/
def opOnRegion (op : Nat) : Bool := [1, 2, 4, 6, 8, 9, 0x0C].contains op

-- Layout of ARG and payload (R348)

/-- CTR: a counter offset, zeros, CTR_EN. -/
def ctrOk (h : PktHdr) : Bool := h.argAt 0 8 / 2 ^ 47 % 2 ^ 16 == 0

/-- The zero fields of ARG and the payload's form, by opcode (R348). -/
def argOk (h : PktHdr) : Bool :=
  let one := h.pktsM1 == 0
  if h.op = 1 then ctrOk h && h.argAt 12 4 == 0
  else if h.op = 8 then ctrOk h && h.argAt 14 2 == 0
  else if h.op = 2 then one && h.argAt 4 4 == 0 && h.argAt 12 4 == 0 && h.len == 0 && decide (1 ≤ h.argAt 8 4 ∧ h.argAt 8 4 ≤ 2 ^ 20)
  else if h.op = 3 then h.argAt 4 4 == 0 && h.argAt 8 8 == 0
  else if h.op = 4 then one && decide (1 ≤ h.argAt 0 1 ∧ h.argAt 0 1 ≤ 4) && decide (h.argAt 1 1 ≤ 1) && h.argAt 2 6 == 0 &&
    h.argAt 12 4 == 0 && h.len == 8
  else if h.op = 5 then one && h.argAt 12 4 == 0 && h.len == 0
  else if h.op = 6 then one && (h.argAt 12 1 == 4 || h.argAt 12 1 == 8) && h.argAt 13 3 == 0 && h.len == 8
  else if h.op = 7 then one && decide (h.argAt 12 1 ≤ 1) && h.argAt 13 3 == 0 && h.len == 0
  else if h.op = 9 then ctrOk h && decide (1 ≤ h.argAt 12 1 ∧ h.argAt 12 1 ≤ 4) && h.argAt 13 3 == 0 && h.len % typeSize (h.argAt 12 1) == 0
  else if h.op = 0x0A then one && h.argAt 0 8 == 0 && h.argAt 12 4 == 0 && h.len == 0
  else if h.op = 0x0B then one && h.argAt 0 8 == 0 && decide (h.argAt 12 1 ≤ 1) && h.argAt 13 3 == 0 && h.len == 0
  else if h.op = 0x0C then one && decide (1 ≤ h.argAt 4 4) && h.argAt 8 8 == 0 && decide (h.len ≤ 64)
  else if h.op = 0x70 then h.argAt 0 16 == 0 && h.len == 40
  else if h.op = 0x71 then h.argAt 0 16 == 0 && h.len == 72
  else if h.op = 0x72 ∨ h.op = 0x73 then h.argAt 0 16 == 0 && h.len == 64
  else if 0x78 ≤ h.op then h.argAt 0 16 == 0
  else h.argAt 0 16 == 0 && h.len == 0

/-- Check 7 of R346, the tracker's part apart. -/
def fieldsOk (h : PktHdr) (sealAllowed native : Bool) : Bool :=
  decide (h.len ≤ 4096) && decide (h.index ≤ h.pktsM1) && decide (h.addr + h.len ≤ 2 ^ 47) &&
  (!bit h.flags flLast || h.index == h.pktsM1) && decide (h.flags < (if sealAllowed then 64 else 32)) &&
  decide (h.route < 64 ∧ h.dst < 2 ^ 17 ∧ h.src < 2 ^ 17 ∧ h.conn < 2 ^ 20 ∧ h.ptag < 16 ∧ h.psn < 2 ^ 24) &&
  (!native || h.psn == 0) && bit h.flags flLocal == decide (0x78 ≤ h.op) && argOk h

-- Work requests (R363)

/-- Read a work request. -/
def Wreq.parse (b : List Byte) : Wreq :=
  { op := fieldAt b 0 1, type := fieldAt b 1 1, fetch := bit (fieldAt b 2 1) 0, target := fieldAt b 4 4,
    localAddr := fieldAt b 8 8 % 2 ^ 52, localTier := bits (fieldAt b 8 8) 52 2, remote := fieldAt b 0x10 8, length := fieldAt b 0x18 4,
    rkey := fieldAt b 0x1C 4, rgen := fieldAt b 0x20 1, ctrInc := fieldAt b 0x24 4, remoteCtr := fieldAt b 0x28 8,
    localCtr := fieldAt b 0x30 8, thresh := fieldAt b 0x38 4 }

/-- Its encoding is valid: listed codes, zero bytes zero, lengths in range (R363, 00 R14). -/
def wreqOk (b : List Byte) : Bool :=
  let w := Wreq.parse b
  [1, 2, 4, 6, 8, 9, 0x0A, 0x0C].contains w.op &&
  (if w.op = 4 ∨ w.op = 9 then decide (1 ≤ w.type ∧ w.type ≤ 4) else if w.op = 6 then w.type == 1 || w.type == 2 else w.type == 0) &&
  decide (fieldAt b 2 1 ≤ 1) && fieldAt b 3 1 == 0 && decide (w.target < if w.op = 8 then 2 ^ 12 else 2 ^ 20) &&
  decide (fieldAt b 8 8 < 2 ^ 54) && decide (w.remote < 2 ^ 47) && fieldAt b 0x21 3 == 0 && w.remoteCtr / 2 ^ 47 % 2 ^ 16 == 0 &&
  fieldAt b 0x3C 4 == 0 && w.localCtr % 8 == 0 &&
  (if w.op = 0x0C then decide (w.length ≤ 64) && decide (1 ≤ w.ctrInc) && decide (w.remote < 2 ^ 32)
   else if w.op = 2 then decide (1 ≤ w.length ∧ w.length ≤ 2 ^ 20)
   else decide (w.length ≤ 2 ^ 20)) && (w.op != 9 || w.length % typeSize w.type == 0)

/-- Bytes of the LOCAL area of a request. -/
def Wreq.localLen (w : Wreq) : Nat := if w.op = 4 ∨ w.op = 6 then 24 else if w.op = 0x0A then 0 else w.length

/-- Its LOCAL addresses lie within the partition's direct windows (R363, 08 R252). -/
def wreqRange (s : State) (part : Nat) (w : Wreq) : Bool :=
  (w.localLen == 0 || s.inDirect part w.localTier w.localAddr w.localLen) && (w.localCtr == 0 || s.inDirect part 0 w.localCtr 8)

/-- Work request slots a partition holds: running and posted. -/
def wrUsed (s : State) (part : Nat) : Nat :=
  (s.xfe.works.filter fun w => w.2.part == part).length +
    ((s.xfe.regions.filter fun r => r.2.part == part).map fun r => r.2.posted.length).sum

/-- The slots in use. -/
def wrSlots (s : State) : List Nat := tkeys s.xfe.works ++ (s.xfe.regions.map fun r => r.2.posted.map (·.1)).flatten

/-- The lowest free work request slot within the quota. -/
def freeWr (s : State) (part : Nat) : Option Nat :=
  if s.getF (Reg.mgcPbWrQuota part) ≤ wrUsed s part then none
  else
    let used := wrSlots s
    (List.range (min 32768 (used.length + 1))).find? fun i => !used.contains i

def putWork (id : Nat) (w : Work) (s : State) : State := { s with xfe := { s.xfe with works := tset s.xfe.works id w } }

/-- The members of a group: connection, key, generation, offset, for those that are VALID (R356). -/
def groupMembers (s : State) (g : Nat) : List (Nat × Nat × Nat × Nat) :=
  ((tgetD s.xfe.groups g []).filter fun m => bit (fieldAt m 0 4) 31).map fun m =>
    (fieldAt m 0 4 % 2 ^ 20, fieldAt m 4 4, bits (fieldAt m 8 8) 48 8, fieldAt m 8 8 % 2 ^ 47)

/-- Whether a connection of a partition is OPEN. -/
def connOpen (s : State) (part id : Nat) : Bool :=
  match tget s.xfe.conns id with
  | some c => c.part == part && c.state == .opened
  | none => false

/-- The governing entry of a connection's pair lacks the right that an opcode needs (R367). -/
def lacksRight (s : State) (c : Conn) (op : Nat) : Bool :=
  match rightOf op, governing s c.part c.node c.rpart with
  | none, _ => false
  | some r, some v => !bit (entryRights v) r
  | some _, none => true

/-- What stops a request before it starts (R356, R367): no connection of the partition, a failed one, a missing right. -/
def wreqStop (s : State) (part : Nat) (w : Wreq) (members : List (Nat × Nat × Nat × Nat)) : Option Status :=
  if w.op = 8 then
    let base := s.getF (Reg.mgcPbGroupBase part)
    if w.target < base ∨ base + s.getF (Reg.mgcPbGroupCount part) ≤ w.target then some .invalidField
    else if members.any fun m => match tget s.xfe.conns m.1 with
        | some c => c.part == part && c.state == .opened && lacksRight s c 8
        | none => false then some .fabricAccess
    else none
  else
    match tget s.xfe.conns w.target with
    | none => some .noConnection
    | some c =>
      if c.part ≠ part then some .noConnection
      else if c.state = .failed then some .fabricLost
      else if c.state ≠ .opened then some .noConnection
      else if lacksRight s c w.op then some .fabricAccess
      else none

/-- Report a right missing at the sender (R367): the connection or group, and the opcode. -/
def senderRefusal (part target op : Nat) (s : State) : State :=
  logEv .xfeAccessViolation pXfe part [target, op, 7] (s.bump Ctr.xfeSenderRefusals)

/-- A fresh REQ_ID for a request (R352-R355). -/
def newRequest (r : Request) (s : State) : State × Nat :=
  let id := s.xfe.nextReq
  ({ s with xfe := { s.xfe with requests := tset s.xfe.requests id r, nextReq := (id + 1) % 2 ^ 32 } }, id)

/-- Send the messages of a started request, its source bytes read. -/
def sendWork (id : Nat) (w : Work) (src : List Byte) (s : State) : State :=
  let q := w.wr
  let ctr := leBytes 8 q.remoteCtr ++ leBytes 4 q.ctrInc
  let m : TxMsg := { seq := 0, op := q.op, cls := 1, addr := q.remote, rkey := q.rkey, rgen := q.rgen, data := src, work := some id }
  if q.op = 8 then
    let all := w.members.getD []
    let go := all.filter fun x => connOpen s w.part x.1
    let st := if go.length = all.length then Status.ok else .fabricLost
    if go.isEmpty then finishWork id st 0 s
    else
      let s := putWork id { w with started := true, left := go.length, status := st } s
      go.foldl (fun s x => (sendMsg x.1 { m with addr := x.2.2.2 + q.remote, rkey := x.2.1, rgen := x.2.2.1, arg := ctr ++ leBytes 2 q.target } s).bump
        Ctr.xfeMcastCopies) s
  else if opLeaves q.op then
    let s := putWork id { w with started := true, left := 1 } s
    let arg := if q.op = 0x0C then leBytes 4 (q.remote % 2 ^ 32) ++ leBytes 4 q.ctrInc
      else if q.op = 9 then ctr ++ leBytes 1 q.type else ctr
    sendMsg q.target { m with arg := arg, addr := if q.op = 0x0C then 0 else q.remote } s
  else
    let s := putWork id { w with started := true, left := 1 } s
    let (s, rid) := newRequest { conn := q.target, op := q.op, what := .work id, tier := q.localTier, addr := q.localAddr,
                                 len := q.length } s
    let arg := if q.op = 2 then leBytes 4 rid ++ zeros 4 ++ leBytes 4 q.length
      else if q.op = 4 then leBytes 1 q.type ++ leBytes 1 (if q.fetch then 1 else 0) ++ zeros 6 ++ leBytes 4 rid
      else if q.op = 6 then slice src 8 8 ++ leBytes 4 rid ++ leBytes 1 (if q.type = 1 then 4 else 8)
      else zeros 8 ++ leBytes 4 rid
    let data := if q.op = 4 then slice src 0 (typeSize q.type) ++ zeros (8 - typeSize q.type) else if q.op = 6 then slice src 0 8 else []
    sendMsg q.target { m with arg := arg, data := data, req := some rid, addr := if q.op = 0x0A then 0 else q.remote,
                              rkey := if q.op = 0x0A then 0 else q.rkey, rgen := if q.op = 0x0A then 0 else q.rgen } s

/-- The window lines of a request's LOCAL area; only what it reads before it is sent. -/
def workLines (s : State) (w : Work) : List Nat :=
  if w.wr.op = 2 ∨ w.wr.op = 0x0A ∨ w.wr.localLen = 0 then [] else s.directLines w.part w.wr.localTier w.wr.localAddr w.wr.localLen

/-- Start a request (R363, R367): stopped by a connection or a right, else its source read and its messages sent. Its group is read once
(R356). -/
def startWork (id : Nat) (s : State) : State :=
  match tget s.xfe.works id with
  | none => s
  | some w =>
    let w := { w with members := some (w.members.getD (groupMembers s w.wr.target)) }
    let s := putWork id w s
    match wreqStop s w.part w.wr (w.members.getD []) with
    | some st => finishWork id st 0 (if st = .fabricAccess then senderRefusal w.part w.wr.target w.wr.op s else s)
    | none =>
      match beginAccess (.work id) (workLines s w) false s with
      | some s => s
      | none =>
        if w.wr.op = 2 ∨ w.wr.op = 0x0A ∨ w.wr.localLen = 0 then sendWork id w [] s
        else match directFetch w.part w.wr.localTier w.wr.localAddr w.wr.localLen s with
          | (s, .inl st) => finishWork id st 0 s
          | (s, .inr b) => sendWork id w b s

/-- Fill the destination of a dead request (R372): a READ's with 0xFF and poison, the old value of an ATOMIC or CAS with
all ones; then the request ends. -/
def deadFill (id : Nat) (s : State) : State :=
  match tget s.xfe.works id with
  | none => s
  | some w =>
    let off := if w.wr.op = 2 then 0 else 16
    let len := if w.wr.op = 2 then w.wr.length else if w.wr.op = 0x0A then 0 else 8
    let lines := if len = 0 then [] else s.directLines w.part w.wr.localTier (w.wr.localAddr + off) len
    match beginAccess (.work id) lines true s with
    | some s => s
    | none =>
      let a := w.wr.localAddr + off
      let s := if len = 0 then s else directStore w.part w.wr.localTier a (List.replicate len 0xFF) s
      let touched := (List.range len).map fun i => s.directAddr w.part w.wr.localTier (a + i) / 64
      let s := if w.wr.op = 2 then touched.eraseDups.foldl (fun s l => markPoison w.wr.localTier l s) s else s
      finishWork id .fabricDead (if w.wr.op = 4 ∨ w.wr.op = 6 then 2 ^ 64 - 1 else 0) s

/-- Run a request again when the lines it waited for are ready. -/
def resumeWork (id : Nat) (s : State) : State :=
  match tget s.xfe.works id with
  | some w => if w.status = .fabricDead then deadFill id s else startWork id s
  | none => s

-- Placement (R352-R360)

/-- The TYPE of a REDUCE's elements, and of an exact region's. -/
def elemsOf (t : Nat) (b : List Byte) : List Nat := (List.range (b.length / typeSize t)).map fun i => fieldAt b (i * typeSize t) (typeSize t)

/-- Change the elements of an exact region from ADDR onward. -/
def exactUpdate (r : Region) (addr : Nat) (codes : List Nat) (f : Fp → Exact → Exact) (s : State) : State :=
  let k := addr / typeSize r.etype
  (List.range codes.length).foldl (fun s i =>
    let a := r.base + (k + i) * 32
    let old := Exact.parse (s.directRead r.part 0 a 32)
    let new := f (elemVal r.etype (codes.getD i 0)) old
    let s := if new.invalid && !old.invalid then s.bump Ctr.xfeExactInvalid else s
    s.directWrite r.part 0 a new.bytes) s

/-- Add elements to memory one by one, each as R353; one that `bad` names keeps what it holds. -/
def reduceInto (r : Region) (addr t : Nat) (codes : List Nat) (bad : Nat → Bool) (s : State) : State :=
  let z := typeSize t
  (List.range codes.length).foldl (fun s i =>
    let a := r.base + addr + i * z
    if bad a then s else
    s.directWrite r.part r.tier a (leBytes z (typeAdd t (leNat (s.directRead r.part r.tier a z)) (codes.getD i 0)))) s

/-- The pieces of a range between boundaries of 4 KiB, by which the direct window of T0 is striped (08 R255): address and length. -/
def pieces4k (addr n : Nat) : List (Nat × Nat) :=
  (List.range (cdiv (addr % 4096 + n) 4096)).map fun j =>
    let a := max addr ((addr / 4096 + j) * 4096)
    (a, min (addr + n) ((addr / 4096 + j + 1) * 4096) - a)

/-- The tier fails on a range of a direct window as it is read next (R352, 08 R282). -/
def State.partFails (s : State) (part tier addr n : Nat) : Bool :=
  (pieces4k addr n).any fun p =>
    let (u, k) := unitsOf (s.directAddr part tier p.1) p.2
    accessFails tier u k false s

/-- The failures of that range have been met. -/
def State.partMet (s : State) (part tier addr n : Nat) : State :=
  (pieces4k addr n).foldl (fun s p =>
    let (u, k) := unitsOf (s.directAddr part tier p.1) p.2
    accessMet tier u k false s) s

/-- The bytes that a READ of a region returns, with the mask of packets that carry POISON. -/
def regionRead (r : Region) (addr n : Nat) (s : State) : List Byte × Nat :=
  if r.kind = 1 then
    let z := typeSize r.etype
    let bad := fun j =>
      let a := r.base + (addr + 4096 * j) / z * 32
      let len := min 4096 (n - 4096 * j) / z * 32
      !(s.directPoisoned r.part 0 a len).isEmpty || s.partFails r.part 0 a len
    (((List.range (n / z)).map fun i => leBytes z ((Exact.parse (s.directRead r.part 0 (r.base + (addr / z + i) * 32) 32)).value r.etype)).flatten,
      (List.range (cdiv n 4096)).foldl (fun m j => if bad j then m + 2 ^ j else m) 0)
  else
    let bad := fun j =>
      let a := r.base + addr + 4096 * j
      let len := min 4096 (n - 4096 * j)
      !(s.directPoisoned r.part r.tier a len).isEmpty || !(s.badUnits r.part r.tier a len).isEmpty || s.partFails r.part r.tier a len
    (s.directRead r.part r.tier (r.base + addr) n, (List.range (cdiv n 4096)).foldl (fun m j => if bad j then m + 2 ^ j else m) 0)

/-- What a READ finds in the region it reads: the poisoned window lines (12 R401) and the units whose tag fails (13 R431). -/
def readMeets (r : Region) (addr n : Nat) (s : State) : State :=
  let (a, len) := if r.kind = 1 then (r.base + addr / typeSize r.etype * 32, n / typeSize r.etype * 32) else (r.base + addr, n)
  let s := s.partMet r.part r.tier a len
  if r.kind = 1 then s
  else
    let lines := if r.tier = 1 then s.directPoisoned r.part 1 (r.base + addr) n else []
    tagFailures r.part r.tier 6 (s.badUnits r.part r.tier (r.base + addr) n) (lines.foldl (fun s l => poisonRead r.part l s) s)

/-- A request is a thread's load: its destination is a register (R373). -/
def Request.ofLoad (q : Request) : Bool :=
  match q.what with
  | .remoteLoad _ _ => true
  | _ => false

def putRequest (id : Nat) (q : Request) (s : State) : State := { s with xfe := { s.xfe with requests := tset s.xfe.requests id q } }

/-- The window lines that a packet's placement touches, and whether it writes them. -/
def placeLines (s : State) (c : Conn) (h : PktHdr) : List Nat × Bool :=
  if h.op = 3 ∨ h.op = 5 ∨ h.op = 7 then
    match tget s.xfe.requests (if h.op = 3 then h.argAt 0 4 else h.argAt 8 4) with
    | some q => if q.ofLoad then ([], true) else (s.directLines c.part q.tier (q.addr + if h.op = 3 then h.addr else 16) (if h.op = 3 then h.len else 8), true)
    | none => ([], true)
  else if !opOnRegion h.op || h.op = 0x0C then ([], false)
  else match tget s.xfe.regions (keyIndex h.rkey) with
    | none => ([], false)
    | some r =>
      if r.tier ≠ 1 then ([], false)
      else
        let n := if h.op = 2 then h.argAt 8 4 else if h.op = 4 ∨ h.op = 6 then 8 else h.len
        let ctr := if (h.op = 1 ∨ h.op = 8 ∨ h.op = 9) ∧ bit (h.argAt 0 8) 63 then s.directLines r.part 1 (r.base + h.argAt 0 8 % 2 ^ 47) 8 else []
        (s.directLines r.part 1 (r.base + h.addr) n ++ ctr, h.op != 2)

/-- A word that an operation would read and change cannot be read: its tier fails, its line is poisoned or its unit's tag fails (R352, 12
R401, 13 R431). -/
def wordBad (r : Region) (n : Nat) (s : State) (a : Nat) : Bool :=
  !(s.directPoisoned r.part r.tier a n).isEmpty || !(s.badUnits r.part r.tier a n).isEmpty || s.partFails r.part r.tier a n

/-- The answer of an ATOMIC or CAS on such a word: nothing is written, the response carries POISON, and the old value in it is open
(DESIGN CHOICE, log 45). -/
def wordRefused (id op req : Nat) (r : Region) (addr n : Nat) (s : State) : State :=
  let (v, s) := (readMeets r addr n s).fresh
  sendMsg id { seq := 0, op := op, cls := 1, arg := leBytes 8 (v % 2 ^ 64) ++ leBytes 4 req, poison := 1 } s

/-- Apply a packet to its region or request (R352-R358). -/
def applyPacket (id : Nat) (c : Conn) (port : Nat) (h : PktHdr) (payload : List Byte) (s : State) : State :=
  let region := tget s.xfe.regions (keyIndex h.rkey)
  if h.op = 3 then
    match tget s.xfe.requests (h.argAt 0 4) with
    | some q =>
      if q.conn = id ∧ q.op = 2 ∧ h.addr + h.len ≤ q.len then
        let bad := bit h.flags flPoison
        if q.ofLoad then putRequest (h.argAt 0 4) { q with value := if bad then 2 ^ (8 * q.len) - 1 else leNat (payload.take q.len), poison := bad } s
        else
        let s := directStore c.part q.tier (q.addr + h.addr) (if bad then List.replicate h.len 0xFF else payload) s
        if bad then
          let touched := ((List.range h.len).map fun i => s.directAddr c.part q.tier (q.addr + h.addr + i) / 64).eraseDups
          let s := touched.foldl (fun s l => markPoison q.tier l s) s
          putRequest (h.argAt 0 4) { q with poison := true } s
        else s
      else s
    | none => s
  else if h.op = 0x0A ∨ h.op = 0x0C then
    let x : RxHeld := { seq := h.seq, op := h.op, header := h.bytes, payload := payload, port := port }
    match tget s.xfe.conns id with
    | some c => putConn id { c with held := c.held ++ [x] } s
    | none => s
  else match region with
    | none => s
    | some r =>
      if h.op = 1 ∨ h.op = 8 then
        if r.kind = 1 then exactUpdate r h.addr (elemsOf r.etype payload) Exact.write s
        else directStore r.part r.tier (r.base + h.addr) payload s
      else if h.op = 9 then
        let codes := elemsOf (h.argAt 12 1) payload
        let s := s.bumpBy Ctr.xfeReduceElements codes.length
        if r.kind = 1 then exactUpdate r h.addr codes (fun x e => e.reduce x) s
        else
          let bad := wordBad r (typeSize (h.argAt 12 1)) s
          let s := if (List.range codes.length).any fun i => bad (r.base + h.addr + i * typeSize (h.argAt 12 1)) then readMeets r h.addr payload.length s else s
          reduceInto r h.addr (h.argAt 12 1) codes bad s
      else if h.op = 2 then
        let (b, mask) := regionRead r h.addr (h.argAt 8 4) s
        sendMsg id { seq := 0, op := 3, cls := 1, arg := leBytes 4 (h.argAt 0 4), data := b, poison := mask }
          (readMeets r h.addr (h.argAt 8 4) (s.bump Ctr.xfeReadsServed))
      else if h.op = 4 then
        let t := h.argAt 0 1
        let z := typeSize t
        if wordBad r z s (r.base + h.addr) then wordRefused id 5 (h.argAt 8 4) r h.addr z (s.bump Ctr.xfeAtomics) else
        let old := leNat (s.directRead r.part r.tier (r.base + h.addr) z)
        let s := directStore r.part r.tier (r.base + h.addr) (leBytes z (typeAdd t old (fieldAt payload 0 z))) (s.bump Ctr.xfeAtomics)
        sendMsg id { seq := 0, op := 5, cls := 1, arg := leBytes 8 (if h.argAt 1 1 = 1 then old else 0) ++ leBytes 4 (h.argAt 8 4) } s
      else if h.op = 6 then
        let z := h.argAt 12 1
        if wordBad r z s (r.base + h.addr) then wordRefused id 7 (h.argAt 8 4) r h.addr z s else
        let old := leNat (s.directRead r.part r.tier (r.base + h.addr) z)
        let eq := old == h.argAt 0 8 % 2 ^ (8 * z)
        let s := if eq then directStore r.part r.tier (r.base + h.addr) (slice payload 0 z) s else s.bump Ctr.xfeCasNotSwapped
        sendMsg id { seq := 0, op := 7, cls := 1, arg := leBytes 8 old ++ leBytes 4 (h.argAt 8 4) ++ leBytes 1 (if eq then 1 else 0) } s
      else s

/-- The message of a request that has ended is completed and completes nothing any more (R349). -/
def dropSender (conn req : Nat) (s : State) : State :=
  match tget s.xfe.conns conn with
  | some c =>
    putConn conn { c with tx := c.tx.map fun m => if m.req = some req then { m with req := none, work := none, completed := true } else m } s
  | none => s

/-- End the request that a response answers (R349): its status and its old value. -/
def endRequest (rid : Nat) (st : Status) (result : Nat) (s : State) : State :=
  match tget s.xfe.requests rid with
  | none => s
  | some q =>
    let s := dropSender q.conn rid { s with xfe := { s.xfe with requests := tdel s.xfe.requests rid } }
    match q.what with
    | .work id => finishWork id st result s
    | .tailFlush w => if st = .ok then { s with ssq := { s.ssq with wheels := tmod s.ssq.wheels w fun x => { x with flushing := false } } } else s
    | .remoteLoad c t => loadDone c t q.value s
    | .coreFence c t => fenceDone c t s

/-- A response message is complete (R349, R350, R352-R355). -/
def responseDone (id : Nat) (h : PktHdr) (s : State) : State :=
  let rid := if h.op = 3 then h.argAt 0 4 else h.argAt 8 4
  match tget s.xfe.requests rid with
  | none => s.bump Ctr.xfeLateResponses
  | some q =>
    if q.conn ≠ id ∨ q.op + 1 ≠ h.op then s.bump Ctr.xfeLateResponses
    else if h.op = 3 then endRequest rid (if q.poison then .fabricPoison else .ok) 0 s
    else if h.op = 0x0B then
      match tget s.xfe.conns id with
      | some c => endRequest rid (c.nakStatus.getD .ok) 0 (putConn id { c with nakStatus := none } s)
      | none => s
    else
      let part := ((tget s.xfe.conns id).map (·.part)).getD 0
      endRequest rid (if bit h.flags flPoison then .fabricPoison else .ok) (h.argAt 0 8) (directStore part q.tier (q.addr + 16) (leBytes 8 (h.argAt 0 8)) s)

/-- The counter add of a complete message (R360): modulo 2^63, ERROR kept. -/
def counterAdd (h : PktHdr) (s : State) : State :=
  if (h.op = 1 ∨ h.op = 8 ∨ h.op = 9) ∧ bit (h.argAt 0 8) 63 then
    match tget s.xfe.regions (keyIndex h.rkey) with
    | some r =>
      let a := r.ctrAddr (h.argAt 0 8 % 2 ^ 47)
      let v := leNat (s.directRead r.part r.tier a 8)
      directStore r.part r.tier a (leBytes 8 ((v % 2 ^ 63 + h.argAt 8 4) % 2 ^ 63 + v / 2 ^ 63 * 2 ^ 63)) s
    | none => s
  else s

-- Triggers and flushes that wait (R355, R361)

/-- A NAK of reason 6 counts towards the connection's limit, but for subreasons 3 and 4 (R369). -/
def countAccess (id sub : Nat) (s : State) : State :=
  if sub = 3 ∨ sub = 4 then s
  else match tget s.xfe.conns id with
    | some c =>
      let s := putConn id { c with violations := c.violations + 1 } s
      let limit := s.getF Reg.xfeViolConnLimit
      if limit ≠ 0 ∧ limit ≤ c.violations + 1 then failConn id s else s
    | none => s

/-- The end of a violation of access (R369): event, NAK, and the count towards the limit but for subreasons 3 and 4. -/
def accessFail (id port : Nat) (h : PktHdr) (raw : List Byte) (sub : Nat) (s : State) : State :=
  let part := ((tget s.xfe.conns id).map (·.part)).getD 0xFF
  let s := logEv .xfeAccessViolation pXfe part [leNat (slice raw 0 8), leNat (slice raw 8 8), leNat (slice raw 16 8), sub + port * 2 ^ 8]
    (s.bump Ctr.xfeAccessNaksSent)
  countAccess id sub (failRx id port h raw 6 sub s)

/-- The fence of R361: a message above the connection's previous TRIGGER and below this one was retired as failed. -/
def fenced (c : Conn) (seq : Nat) : Bool :=
  c.failed.any fun f => decide (seqDist 32 f.seq seq < 0) &&
    !c.triggers.any fun t => decide (seqDist 32 t seq < 0) && decide (seqDist 32 f.seq t ≤ 0)

/-- Judge the held messages of a connection whose predecessors are all retired: a FLUSH is answered, a TRIGGER passes its
fence and waits to be consumed, or fails. -/
def drainHeld (id : Nat) : Nat → State → State
  | 0, s => s
  | n + 1, s =>
    match tget s.xfe.conns id with
    | none => s
    | some c =>
      let ready := fun (x : RxHeld) => if x.op = 0x0A then decide (0 < seqDist 32 c.rxBase x.seq) else c.rxBase == x.seq
      match c.held.find? ready with
      | none => s
      | some x =>
        let h := PktHdr.parse x.header
        let s := putConn id { c with held := c.held.filter fun y => y.seq != x.seq } s
        if x.op = 0x0A then
          let failed := c.failed.any fun f => decide (seqDist 32 f.seq x.seq < 0)
          let s := sendMsg id { seq := 0, op := 0x0B, cls := 1,
                                arg := zeros 8 ++ leBytes 4 (h.argAt 8 4) ++ leBytes 1 (if failed then 1 else 0) } (s.bump Ctr.xfeFlushes)
          drainHeld id n s
        else if fenced c x.seq then
          let s := flightEnds h.rkey s
          drainHeld id n (accessFail id x.port h x.header 11 s)
        else
          let t : Trig := { conn := id, inc := h.argAt 4 4, payload := x.payload }
          let s := modRegion (keyIndex h.rkey) (fun r => { r with queue := r.queue ++ [t] }) s
          drainHeld id n (sendAck id x.port x.seq (if c.native then 1 else 0) (some 0) 0 (retireRx id x.seq x.op none s))

/-- A packet's placement is finished (R329, R332, R365): INFLIGHT falls, its bit is set, and a complete message adds its
counter, is retired and acknowledged; an incomplete one is acknowledged every COALESCE packets. -/
def finishPacket (id port : Nat) (h : PktHdr) (s : State) : State :=
  match (tget s.xfe.conns id).bind fun c => (tget c.trackers h.seq).map fun t => (c, t) with
  | none => if opOnRegion h.op && h.op != 0x0C then flightEnds h.rkey s else s
  | some (c, t) =>
    let t := { t with placed := setBit t.placed h.index, sinceAck := t.sinceAck + 1, port := port }
    let full := t.placed == 2 ^ (t.pktsM1 + 1) - 1
    let s := putConn id { c with trackers := tset c.trackers h.seq t } s
    let s := if full then counterAdd h s else s
    let s := if opOnRegion h.op && h.op != 0x0C then flightEnds h.rkey s else s
    if full && h.op != 0x0C then
      let s := if h.op = 1 ∨ h.op = 8 then s.bump Ctr.xfeWritesPlaced else s
      let s := if [3, 5, 7, 0x0B].contains h.op then responseDone id h s else s
      let s := retireRx id h.seq h.op none s
      let s := sendAck id port h.seq (if c.native then 1 else 0) (some h.pktsM1) (h.route % 16) s
      drainHeld id 256 s
    else
      let s := if s.getF Reg.xfeAckCoalesce ≤ t.sinceAck then sendAck id port h.seq 0 none (h.route % 16) s else s
      drainHeld id 256 s

/-- Place an accepted packet, once the window lines it touches are ready. One whose connection has ended while it waited is finished
unplaced. -/
def placePacket (port : Nat) (raw : List Byte) (s : State) : State :=
  let h := PktHdr.parse raw
  let gone := if opOnRegion h.op then flightEnds h.rkey s else s
  match tget s.xfe.conns h.conn with
  | none => gone
  | some c =>
    if s.cgenOf h.conn ≠ h.cgen ∨ (c.state ≠ .opened ∧ c.state ≠ .closing) then gone
    else
      let (lines, write) := placeLines s c h
      match beginAccess (.fabric port raw) lines write s with
      | some s => s
      | none => finishPacket h.conn port h (applyPacket h.conn c port h ((openPayload s c.part h raw).getD []) s)

-- Duplicates and windows (R337, R342)

/-- Record a PSN as received, and move E over those at its head. -/
def takePsn (psn : Nat) (c : Conn) : Conn :=
  let d := seqDist 24 psn c.psnBase
  if c.native || decide (d < 0) || decide (256 ≤ d) then c
  else
    let got := if c.psnGot.contains psn then c.psnGot else psn :: c.psnGot
    (List.range 257).foldl (fun c _ => if c.psnGot.contains c.psnBase then
      { c with psnGot := c.psnGot.filter (· != c.psnBase), psnBase := (c.psnBase + 1) % 2 ^ 24 } else c) { c with psnGot := got }

/-- What check 8 says of a packet: new, a duplicate packet, a duplicate of a retired message, or out of the window. -/
inductive RxWindow where
  | new
  | again
  | retired
  | outside
deriving DecidableEq, Repr

/-- Check 8 in native mode (R337). -/
def rxNative (c : Conn) (h : PktHdr) : RxWindow :=
  if 256 ≤ seqDist 32 h.seq c.rxBase then .outside
  else if c.isRetired h.seq then .retired
  else if ((tget c.trackers h.seq).map fun t => bit t.got h.index).getD false then .again
  else .new

/-- Check 8 in compatibility mode (R342): PSNs decide; packets of a message retired as failed draw its NAK (R347), and one that its message
has already received is not placed twice. -/
def rxCompat (c : Conn) (h : PktHdr) : RxWindow :=
  let d := seqDist 24 h.psn c.psnBase
  if 256 ≤ d then .outside
  else if c.failed.any (·.seq == h.seq) then .retired
  else if d < 0 ∨ c.psnGot.contains h.psn ∨ c.isRetired h.seq ∨ ((tget c.trackers h.seq).map fun t => bit t.got h.index).getD false then .again
  else .new

def rxWindow (c : Conn) (h : PktHdr) : RxWindow := if c.native then rxNative c h else rxCompat c h

/-- Receive trackers in use (R330). -/
def trackersUsed (s : State) : Nat := (s.xfe.conns.map fun c => c.2.trackers.length).sum

/-- Answer a packet by a NAK that marks its message as failed (R347), count a violation where R346 says so, and take its
PSN; reason 3 leaves the PSN to be sent again. -/
def rejectRx (id port : Nat) (h : PktHdr) (raw : List Byte) (reason : Nat) (violation : Bool) (s : State) : State :=
  let s := match tget s.xfe.conns id with
    | some c => if c.isRetired h.seq then nakConn id port h raw reason 0 s else failRx id port h raw reason 0 s
    | none => s
  let s := match tget s.xfe.conns id with
    | some c => if reason = 3 then s else putConn id (takePsn h.psn c) s
    | none => s
  let s := if violation then violate (some id) port (((tget s.xfe.conns id).map (·.part)).getD 0xFF) raw s else s
  drainHeld id 256 s

/-- A duplicate of an incomplete message has arrived: its message's next SACK answers it (R332, R337). -/
def arrived (id port : Nat) (h : PktHdr) (s : State) : State :=
  match (tget s.xfe.conns id).bind fun c => (tget c.trackers h.seq).map fun t => (c, t) with
  | none => s
  | some (c, t) =>
    let t := { t with sinceAck := t.sinceAck + 1, port := port }
    let s := putConn id { c with trackers := tset c.trackers h.seq t } s
    if s.getF Reg.xfeAckCoalesce ≤ t.sinceAck then sendAck id port h.seq 0 none (h.route % 16) s else s

/-- Checks 7 to 10 and acceptance of a data packet of an open connection (R346, R365, R330, R329). -/
def receiveData (id port : Nat) (h : PktHdr) (raw : List Byte) (s : State) : State :=
  match tget s.xfe.conns id with
  | none => s
  | some c =>
    let sealed_ := s.isProtected c.part
    let trackerOk := ((tget c.trackers h.seq).map fun t => t.pktsM1 == h.pktsM1).getD true
    if !fieldsOk h sealed_ c.native || h.isSealed != sealed_ || !trackerOk then rejectRx id port h raw 4 true s
    else match rxWindow c h with
    | .outside => violate (some id) port c.part raw (nakConn id port h raw 1 0 s)
    | .retired =>
      let s := s.bump Ctr.xfeDuplicates
      match c.failed.find? (·.seq == h.seq) with
      | some f =>
        let s := nakConn id port h raw f.reason f.sub (putConn id (takePsn h.psn c) s)
        if f.reason = 6 then countAccess id f.sub (s.bump Ctr.xfeAccessNaksSent) else s
      | none => sendAck id port h.seq 2 (some h.pktsM1) (h.route % 16) s
    | .again =>
      let s := s.bump Ctr.xfeDuplicates
      if c.native then arrived id port h s else sendAck id port h.seq 0 none (h.route % 16) (putConn id (takePsn h.psn c) s)
    | .new =>
      if !crcOk h raw then rejectRx id port h raw 3 false s
      else match openPayload s c.part h raw with
      | none =>
        rejectRx id port h raw 3 false (logFull .secTagFail pSec 0 c.part 2 0 [id, h.src, h.op] (s.bump Ctr.secFabricTagFailures))
      | some _ =>
        match (if opOnRegion h.op then regionCheck s c h else none) with
        | some sub => drainHeld id 256 (accessFail id port h raw sub (putConn id (takePsn h.psn c) s))
        | none =>
          if (tget c.trackers h.seq).isNone ∧ 32768 ≤ trackersUsed s then
            putConn id { c with marks := c.marks + 1 } (s.bump Ctr.xfeTrackerExhausted)
          else
            let t := tgetD c.trackers h.seq { pktsM1 := h.pktsM1 }
            let c := takePsn h.psn { c with trackers := tset c.trackers h.seq { t with got := setBit t.got h.index } }
            let s := putConn id c s
            let s := if opOnRegion h.op then modRegion (keyIndex h.rkey) (fun r => { r with inflight := r.inflight + 1 }) s else s
            placePacket port raw s

-- Acknowledgements at the sender (R331, R333, R335, R338, R343)

/-- A SACK of compatibility mode covers a PSN. -/
def psnCovered (psn cum bitmap : Nat) : Bool :=
  let d := seqDist 24 psn cum
  decide (d < 0) || (decide (d < 256) && bit bitmap d.toNat)

/-- A SACK shows three PSNs above one that it does not cover (R343). -/
def psnMissed (psn cum bitmap : Nat) : Bool :=
  !psnCovered psn cum bitmap && decide (3 ≤ ((List.range 256).filter fun i => bit bitmap i && decide (0 < seqDist 24 ((cum + i) % 2 ^ 24) psn)).length)

/-- Whether the packet of a message is acknowledged by an ACK. -/
def ackCovers (c : Conn) (h : PktHdr) (bitmap cum kind : Nat) (m : TxMsg) (p : TxPkt) : Bool :=
  if c.native then
    decide (seqDist 32 m.seq cum < 0) || (m.seq == h.seq && (kind != 0 || bit bitmap p.index))
  else
    (p.psn.map fun n => psnCovered n cum bitmap).getD false

/-- The window after an ACK (R335): `n` packets newly acknowledged, `marks` its CM_COUNT. -/
def ackWindow (wMin n marks : Nat) (c : Conn) : Conn × Bool :=
  if !c.native then (c, false)
  else
    let cut := c.sinceCut.map (· + n)
    if marks = 0 then
      let sum := c.ackSum + n
      if c.window ≤ sum then ({ c with window := min (c.window + 1) c.ceil, ackSum := 0, sinceCut := cut }, false)
      else ({ c with ackSum := sum, sinceCut := cut }, false)
    else
      let may := match cut with
        | some k => decide (c.window ≤ k)
        | none => true
      if may then ({ c with window := min c.ceil (max wMin (cdiv c.window 2)), sinceCut := some 0 }, true) else ({ c with sinceCut := cut }, false)

/-- Take an ACK. `marked`: it came with CM set, by a switch or by this device (R328, R336). -/
def takeAck (id : Nat) (h : PktHdr) (p : List Byte) (marked : Bool) (s : State) : State :=
  match tget s.xfe.conns id with
  | none => s
  | some c =>
    let bitmap := fieldAt p 0 32
    let cum := fieldAt p 0x20 4
    let marks := fieldAt p 0x24 1
    let kind := fieldAt p 0x25 1
    let covers := ackCovers c h bitmap cum kind
    let n := (c.tx.map fun m => (m.pkts.filter fun q => !q.acked && !m.acked && covers m q).length).sum
    let tx := c.tx.map fun m =>
      let pkts := m.pkts.map fun q => if covers m q then { q with acked := true } else q
      { m with pkts := pkts, acked := m.acked || (decide (pkts.length = m.count) && pkts.all (·.acked)) }
    let c := { c with tx := tx, ctlSent := c.ctlSent.filter fun k => !(k.psn.map fun n => psnCovered n cum bitmap).getD true
                      rtoUs := if n = 0 then c.rtoUs else s.getF Reg.xfeRtoInitUs
                      skip := if c.native && marked then (h.route % 16, 16) :: c.skip.filter (·.1 != h.route % 16) else c.skip }
    let (c, cut) := ackWindow (s.getF Reg.xfeCcWMin) n marks c
    let s := if cut then s.bump Ctr.xfeWindowDecreases else s
    let s := pruneTx id (putConn id c s)
    -- three higher PSNs received and one missing (R343)
    let miss := if c.native then [] else (c.tx.map fun m => (m.pkts.filter fun q => !q.acked && !m.acked &&
      (q.psn.map fun n => psnMissed n cum bitmap).getD false).map fun q => (m.seq, q.index)).flatten
    let s := miss.foldl (fun s x => resendPkt id x.1 x.2 s) s
    let again := c.ctlSent.filter fun k => (k.psn.map fun n => psnMissed n cum bitmap).getD false
    tryClose id (ctlAgain (pumpAll id (again.foldl (fun s k => resendCtl k s) s)))

/-- The status with which a NAK ends a message (R375). -/
def nakStatusOf (reason : Nat) : Status :=
  if reason = 6 then .fabricAccess else if reason = 5 then .fabricOpcode else .fabricProtocol

/-- Take a NAK of reason 1, 4, 5, 6 or 9: its event, and the message it ends (R346, R350, R369). -/
def nakMessage (id reason sub : Nat) (off : List Byte) (s : State) : State :=
  match tget s.xfe.conns id with
  | none => s
  | some c =>
    let st := nakStatusOf reason
    let oh := PktHdr.parse off
    let detail := [leNat (slice off 0 8), leNat (slice off 8 8), leNat (slice off 16 8), sub]
    let s := if reason = 6 then logEv .xfeAccessViolation pXfe c.part detail (s.bump Ctr.xfeAccessNaksReceived)
      else logEv .xfeProtocol pXfe c.part detail s
    let late := putConn id { c with nakStatus := some (c.nakStatus.getD st) } s
    let s := match c.tx.find? (·.seq == oh.seq) with
      | none => late
      | some m =>
        if m.completed then modTx id m.seq (fun m => { m with acked := true }) late
        else endSent m st (modTx id m.seq (fun m => { m with acked := true, completed := true }) s)
    tryClose id (pumpAll id (pruneTx id s))

-- Opening (R321-R326)

def findPair (s : State) (part node rpart : Nat) : Option (Nat × Conn) :=
  s.xfe.conns.find? fun c => c.2.part == part && c.2.node == node && c.2.rpart == rpart

/-- The lowest free id of a partition. -/
def freeConnId (s : State) (part : Nat) : Option Nat :=
  let base := s.getF (Reg.mgcPbConnBase part)
  let used := (tkeys s.xfe.conns).filter fun i => decide (base ≤ i)
  ((List.range (min (s.getF (Reg.mgcPbConnCount part)) (used.length + 1))).map (base + ·)).find? fun i => !used.contains i

/-- The 64-byte payload of CONNECT and ACCEPT (R323). -/
def connPayload (s : State) (id : Nat) (c : Conn) : List Byte :=
  leBytes 8 deviceUid ++ leBytes 4 id ++ leBytes 2 (s.cgenOf id) ++ leBytes 1 2 ++ leBytes 1 (c.part + c.rpart * 16) ++
    leBytes 1 (s.getF Reg.xfeCcPaths) ++ leBytes 2 256 ++ zeros 45

/-- The payload's values are legal. -/
def connPayloadOk (p : List Byte) : Bool :=
  decide (fieldAt p 8 4 < 2 ^ 20) && (fieldAt p 0xE 1 == 1 || fieldAt p 0xE 1 == 2) && decide (1 ≤ fieldAt p 0x10 1 ∧ fieldAt p 0x10 1 ≤ 16) &&
    decide (1 ≤ fieldAt p 0x11 2 ∧ fieldAt p 0x11 2 ≤ 256) && fieldAt p 0x13 45 == 0

/-- Send CONNECT (R325). Its VERSION, before the mode is known, is 2, as in a NAK that names no connection (DESIGN CHOICE, log 54). -/
def sendConnect (id : Nat) (s : State) : State :=
  match tget s.xfe.conns id with
  | some c => if s.nodeValid then
      sendCtlTo c.node none (sealOf s c.part) { connHdr s c 0x72 with version := 2, conn := 0, cgen := 0 } (connPayload s id c) s else s
  | none => s

/-- Send ACCEPT; its header echoes the opener's id and CGEN. It is the first packet of its connection, in the mode that it makes (R324,
R341). -/
def sendAccept (id port : Nat) (s : State) : State :=
  match tget s.xfe.conns id with
  | some c =>
    match answerPort s port c.node with
    | some p => sendCtl p (some id) (sealOf s c.part) (connHdr s c 0x73) (connPayload s id c) s
    | none => s
  | none => s

/-- The state of a connection once the peer's payload is known (R324, R335). -/
def peerTaken (s : State) (c : Conn) (p : List Byte) : Conn :=
  let native := fieldAt p 0xE 1 == 2
  let ceil := min (fieldAt p 0x11 2) 256
  { c with state := .opened, native := native, peerConn := fieldAt p 8 4, peerCgen := fieldAt p 0xC 2, peerUid := fieldAt p 0 8,
           paths := if native then min (fieldAt p 0x10 1) (s.getF Reg.xfeCcPaths) else 1, ceil := ceil,
           window := min (s.getF Reg.xfeCcWInit) ceil, rtoUs := s.getF Reg.xfeRtoInitUs }

/-- Connections to a node that carries another UID than they recorded enter FAILED (R316). -/
def uidChange (node uid : Nat) (s : State) : State :=
  (s.xfe.conns.filter fun c => c.2.node == node && c.2.peerUid != uid && (c.2.state == .opened || c.2.state == .closing)).foldl
    (fun s c => failConn c.1 s) s

/-- A new connection record of a pair. -/
def newConn (s : State) (part node rpart v : Nat) (st : CState) : Conn :=
  { part := part, node := node, rpart := rpart, state := st, trust := entryKind v == 1, rights := entryRights v,
    rtoUs := s.getF Reg.xfeRtoInitUs, used := s.xfe.stamp }

/-- Open a CONNECT (13 R433): a sealed one under the FABRIC key of the partition that its payload then asks for. -/
def openConnect (s : State) (h : PktHdr) (raw : List Byte) : Option (List Byte) :=
  if h.isSealed then
    (List.range 16).findSome? fun n => if s.isProtected n then (openPayload s n h raw).filter fun p => fieldAt p 0xF 1 / 16 == n else none
  else openPayload s 0 h raw

/-- Take a CONNECT (R324-R326, 13 R433). A pair whose record is CLOSING, FAILED, or OPEN to another id or generation gets NAK REFUSED: the
spec gives no answer there (DESIGN CHOICE, log 54). -/
def takeConnect (port : Nat) (h : PktHdr) (raw : List Byte) (s : State) : State :=
  if !fieldsOk { h with psn := 0 } true true || decide (h.len ≠ 64) then
    violate none port 0xFF raw (sendNak port h raw none 0 0 4 0 s)
  else if !crcOk h raw then sendNak port h raw none 0 0 3 0 s
  else match openConnect s h raw with
  | none => sendNak port h raw none 0 0 8 0 (logFull .secTagFail pSec 0 0xFF 2 0 [0, h.src, h.op] (s.bump Ctr.secFabricTagFailures))
  | some p =>
    let part := fieldAt p 0xF 1 / 16
    let rpart := fieldAt p 0xF 1 % 16
    let nak := fun r (s : State) => sendNak port h raw none (fieldAt p 8 4) (fieldAt p 0xC 2) r 0 s
    if !connPayloadOk p then violate none port 0xFF raw (nak 4 s)
    else if s.isProtected part && !h.isSealed then violate none port 0xFF raw (nak 4 s)
    else
      let s := uidChange h.src (fieldAt p 0 8) s
      match findPair s part h.src rpart with
      | some (id, c) =>
        if c.state = .opening then
          if s.node < h.src then nak 7 s
          else
            let s := sendAccept id port (putConn id (peerTaken s { c with cmd := none } p) s)
            match c.cmd with
            | some k => complete k { result0 := id } s
            | none => s
        else if c.state = .opened ∧ c.peerConn = fieldAt p 8 4 ∧ c.peerCgen = fieldAt p 0xC 2 then sendAccept id port s
        else nak 8 s
      | none =>
        match governing s part h.src rpart, freeConnId s part with
        | some v, some id =>
          let s := makeRoom s
          if s.pstate part ≠ psActive ∨ onChip ≤ s.resident then nak 8 s
          else
            sendAccept id port (putConn id (peerTaken s (newConn s part h.src rpart v .opened) p) s)
        | _, _ => nak 8 s

/-- Take an ACCEPT (R325), checked as R346 states; its answers know no id of the sender yet. The mode is the one it makes. -/
def takeAccept (id port : Nat) (c : Conn) (h : PktHdr) (raw : List Byte) (s : State) : State :=
  let nak := fun (reason : Nat) (s : State) => sendNak port h raw none 0 0 reason 0 s
  if !fieldsOk h (s.isProtected c.part) (h.version == 2) then violate none port c.part raw (nak 4 s)
  else if !crcOk h raw then nak 3 s
  else match openPayload s c.part h raw with
  | none => nak 3 (logFull .secTagFail pSec 0 c.part 2 0 [id, h.src, h.op] (s.bump Ctr.secFabricTagFailures))
  | some p =>
    if !connPayloadOk p || (s.isProtected c.part && !h.isSealed) then violate none port c.part raw (nak 4 s)
    else if h.version ≠ (if fieldAt p 0xE 1 = 2 then 2 else 1) then violate none port c.part raw (nak 9 s)
    else
      let s := uidChange h.src (fieldAt p 0 8) s
      let s := putConn id (takePsn h.psn (peerTaken s { c with cmd := none } p)) s
      match c.cmd with
      | some k => complete k { result0 := id } s
      | none => s

/-- Free an id whose record ends; messages still on it end ST_FABRIC_LOST. -/
def endConn (id : Nat) (s : State) : State :=
  match tget s.xfe.conns id with
  | none => s
  | some c => (c.tx.filter fun m => !m.completed).foldl (fun s m => endSent m .fabricLost s) (releaseHeld c (freeConn id s))

/-- Complete the command that a connection holds. -/
def connCmd (c : Conn) (st : Status) (s : State) : State :=
  match c.cmd with
  | some k => complete k { status := st } s
  | none => s

/-- Send CLOSE (R325). -/
def sendClose (id : Nat) (s : State) : State :=
  match tget s.xfe.conns id with
  | some c => sendCtlTo c.node (some id) (sealOf s c.part) (connHdr s c 0x74) [] s
  | none => s

/-- The connection that a CONNECT which drew a NAK was to open. -/
def openingOf (s : State) (node : Nat) (oh : PktHdr) : Option Nat :=
  (s.xfe.conns.find? fun c => c.2.state == .opening && c.2.node == node && c.2.part == oh.ptag).map (·.1)

/-- A packet whose payload failed its check is sent again at once (R346): a data packet, a connection packet, or an ACK of its message. -/
def resendNaked (id port : Nat) (oh : PktHdr) (s : State) : State :=
  match tget s.xfe.conns id with
  | none => s
  | some c =>
    if oh.op = 0x73 then sendAccept id port s
    else if oh.op = 0x74 then (if c.closeSent then sendClose id s else s)
    else if oh.op = 0x70 then sendAck id port oh.seq (if c.isRetired oh.seq then 2 else 0) (if c.isRetired oh.seq then some 255 else none) (oh.route % 16) s
    else resendPkt id oh.seq oh.index s

/-- Take a NAK (R346): 7 and 8 answer a CONNECT; the others name by the offending header what was sent on an open or closing connection. -/
def takeNak (port : Nat) (h : PktHdr) (p : List Byte) (s : State) : State :=
  let reason := fieldAt p 0 1
  let sub := fieldAt p 1 1
  let off := slice p 8 64
  let oh := PktHdr.parse off
  let s := s.bump Ctr.xfeNaksReceived
  let opening := match tget s.xfe.conns h.conn with
    | some c => if c.node = h.src ∧ s.cgenOf h.conn = h.cgen then some (h.conn, c) else none
    | none => none
  let sent := s.xfe.conns.find? fun c => c.2.node == h.src && c.2.peerConn == oh.conn && c.2.peerCgen == oh.cgen &&
    (c.2.state == .opened || c.2.state == .closing)
  if reason = 8 then
    match opening with
    | some (id, c) => if c.state = .opening then connCmd c .fabricRefused (freeConn id s) else s
    | none => s
  else if reason = 7 then s
  else if reason = 3 ∧ oh.op = 0x72 then
    match openingOf s h.src oh with
    | some id => sendConnect id s
    | none => s
  else match sent with
    | none => s
    | some (id, c) =>
      if reason = 2 then failConn id s
      else if reason = 3 then resendNaked id port oh s
      else if 0x70 ≤ oh.op then logEv .xfeProtocol pXfe c.part [leNat (slice off 0 8), leNat (slice off 8 8), leNat (slice off 16 8), sub] s
      else nakMessage id reason sub off s

-- Reception (R346)

/-- Opcodes that R320 lists. -/
def opListed (op : Nat) : Bool := decide (1 ≤ op ∧ op ≤ 0x0C) || decide (0x70 ≤ op ∧ op ≤ 0x75) || decide (0x78 ≤ op ∧ op ≤ 0x7C)

/-- Bytes that wait in the ingress holding buffer (R344). -/
def holdingBytes (s : State) : Nat := (s.xfe.holding.map fun x => x.2.2.2.length).sum

/-- A packet waits for its connection's spilled record, if the holding buffer has room (R344). -/
def holdPacket (id port : Nat) (marked : Bool) (raw : List Byte) (s : State) : State :=
  if 512 * 1024 < holdingBytes s + raw.length then s.bump Ctr.xfeSpillDrops
  else fetchRecord id { s with xfe := { s.xfe with holding := s.xfe.holding ++ [(id, port, marked, raw)] } }

/-- The connection that CONN[19:0] of a packet names, if its peer is SRC[16:0] and its state is one of those asked for; the bits above are
zero fields of check 7 (R318, R346). -/
def namedConn (s : State) (h : PktHdr) (ok : CState → Bool) : Option (Nat × Conn) :=
  match tget s.xfe.conns (h.conn % 2 ^ 20) with
  | some c => if c.node = h.src % 2 ^ 17 ∧ ok c.state then some (h.conn % 2 ^ 20, c) else none
  | none => none

def CState.live (st : CState) : Bool := st == .opened || st == .closing

/-- VERSION of a connection's mode (R341). -/
def Conn.version (c : Conn) : Nat := if c.native then 2 else 1

/-- A control packet fails a check (R346): answered and counted; it marks no message, since the one it may name is of the other direction
(R331). -/
def rejectCtl (id port part : Nat) (h : PktHdr) (raw : List Byte) (reason : Nat) (s : State) : State :=
  violate (some id) port part raw (nakConn id port h raw reason 0 s)

/-- Count a mark for a connection (R336). -/
def noteMark (id : Nat) (marked : Bool) (s : State) : State :=
  match tget s.xfe.conns id with
  | some c => if marked then putConn id { c with marks := c.marks + 1 } (s.bump Ctr.xfeMarksReceived) else s
  | none => s

/-- Check 8 of a control packet (R342): in compatibility mode PSNs decide, as of data. -/
def ctlWindow (c : Conn) (h : PktHdr) : RxWindow :=
  let d := seqDist 24 h.psn c.psnBase
  if c.native then .new else if 256 ≤ d then .outside else if d < 0 ∨ c.psnGot.contains h.psn then .again else .new

/-- Checks 7 to 10 of a control packet of an established connection that has passed checks 4 to 6: the payload of one that passes. -/
def checkedCtl (id port : Nat) (c : Conn) (h : PktHdr) (raw : List Byte) (s : State) : State × Option (List Byte) :=
  if !fieldsOk h (s.isProtected c.part) c.native || h.isSealed != s.isProtected c.part then (rejectCtl id port c.part h raw 4 s, none)
  else if ctlWindow c h = .outside then (rejectCtl id port c.part h raw 1 s, none)
  else if ctlWindow c h = .again then (sendAck id port h.seq 0 none (h.route % 16) (s.bump Ctr.xfeDuplicates), none)
  else if !crcOk h raw then (nakConn id port h raw 3 0 s, none)
  else match openPayload s c.part h raw with
  | none => (nakConn id port h raw 3 0 (logFull .secTagFail pSec 0 c.part 2 0 [id, h.src, h.op] (s.bump Ctr.secFabricTagFailures)), none)
  | some p => (putConn id (takePsn h.psn c) s, some p)

/-- An ACK, CLOSE or CLOSE_ACK that has passed checks 4 to 6. -/
def receiveCtl (id port : Nat) (c : Conn) (h : PktHdr) (raw : List Byte) (marked : Bool) (s : State) : State :=
  match checkedCtl id port c h raw s with
  | (s, none) => s
  | (s, some p) =>
    if h.op = 0x70 then takeAck id h p marked s
    else if h.op = 0x74 then
      if c.state = .opened then
        endConn id (match answerPort s port c.node with
          | some q => sendCtl q (some id) (sealOf s c.part) (connHdr s c 0x75) [] s
          | none => s)
      else s
    else if c.state = .closing ∧ c.closeSent then connCmd c .ok (endConn id s)
    else s

/-- Checks 4 to 6 of a packet of an established connection, then its effect (R336, R344, R346). -/
def receiveConn (port : Nat) (h : PktHdr) (raw : List Byte) (marked : Bool) (s : State) : State :=
  match namedConn s h CState.live with
  | none => sendNak port h raw none 0 0 2 0 s
  | some (id, c) =>
    if c.spilled then holdPacket id port marked raw s
    else if s.cgenOf id ≠ h.cgen then s.bump Ctr.xfeStale
    else
      let s := noteMark id marked (touchConn id s)
      let c := ((tget s.xfe.conns id)).getD c
      let ctl := h.op == 0x70 || h.op == 0x74 || h.op == 0x75
      if h.version ≠ c.version then (if ctl then rejectCtl id port c.part h raw 9 s else rejectRx id port h raw 9 true s)
      else if ctl then receiveCtl id port c h raw marked s
      else receiveData id port h raw s

/-- Check 3: an opcode that R320 does not list. Its connection's message fails, where it names one (R347). -/
def receiveUnlisted (port : Nat) (h : PktHdr) (raw : List Byte) (marked : Bool) (s : State) : State :=
  let stray := fun (s : State) => portCutoff port (violate none port 0xFF raw (sendNak port h raw none 0 0 5 0 s))
  match namedConn s h CState.live with
  | some (id, c) =>
    if c.spilled then holdPacket id port marked raw s
    else if s.cgenOf id = h.cgen then rejectRx id port h raw 5 true (noteMark id marked s) else stray s
  | none => stray s

/-- An ACCEPT: for a connection that opens; a copy of one already taken passes its checks and has no effect (R325). -/
def receiveAccept (port : Nat) (h : PktHdr) (raw : List Byte) (marked : Bool) (s : State) : State :=
  match namedConn s h fun st => st != .failed with
  | none => sendNak port h raw none 0 0 2 0 s
  | some (id, c) =>
    if c.spilled then holdPacket id port marked raw s
    else if s.cgenOf id ≠ h.cgen then s.bump Ctr.xfeStale
    else
      let s := noteMark id marked s
      let c := ((tget s.xfe.conns id)).getD c
      if c.state = .opening then portCutoff port (takeAccept id port c h raw s)
      else if h.version ≠ c.version then rejectCtl id port c.part h raw 9 s
      else (checkedCtl id port c h raw s).1

/-- A NAK of a live connection (R346): in silence, as a NAK draws none, but for a duplicate, which a SACK answers (R342). -/
def nakOnConn (id port : Nat) (c : Conn) (h : PktHdr) (raw : List Byte) (marked : Bool) (s : State) : State :=
  let s := noteMark id marked s
  let c := ((tget s.xfe.conns id)).getD c
  if h.version ≠ c.version || !fieldsOk h (s.isProtected c.part) c.native || h.isSealed != s.isProtected c.part || ctlWindow c h == .outside then
    violate (some id) port c.part raw s
  else if ctlWindow c h = .again then sendAck id port h.seq 0 none (h.route % 16) (s.bump Ctr.xfeDuplicates)
  else if !crcOk h raw then s
  else match openPayload s c.part h raw with
  | some p => takeNak port h p (putConn id (takePsn h.psn c) s)
  | none => logFull .secTagFail pSec 0 c.part 2 0 [id, h.src, h.op] (s.bump Ctr.secFabricTagFailures)

/-- A NAK that names no connection carries CONN and CGEN 0 (log 54), one that answers a CONNECT the opener's id and CGEN. -/
def nakOffConn (port : Nat) (h : PktHdr) (raw : List Byte) (s : State) : State :=
  if !fieldsOk h true (h.version == 2) then portCutoff port (violate none port 0xFF raw s)
  else if !crcOk h raw ∨ h.isSealed then s
  else takeNak port h (pktBody h raw) s

/-- A NAK: dropped in silence where it fails a check, but counted as a violation (R346). -/
def receiveNak (port : Nat) (h : PktHdr) (raw : List Byte) (marked : Bool) (s : State) : State :=
  let nameless := h.conn == 0 && h.cgen == 0
  match namedConn s h fun st => st != .failed with
  | some (id, c) =>
    if c.spilled then holdPacket id port marked raw s
    else if s.cgenOf id ≠ h.cgen then (if nameless then nakOffConn port h raw s else s.bump Ctr.xfeStale)
    else if c.state.live then nakOnConn id port c h raw marked s
    else nakOffConn port h raw s
  | none => if nameless then nakOffConn port h raw s else s

/-- A link-local packet (R312-R317) passes checks 7 and 9; what an intact one does is its own row's. -/
def receiveLocal (port : Nat) (h : PktHdr) (raw : List Byte) (s : State) : State :=
  if !fieldsOk h false true then portCutoff port (violate none port 0xFF raw (sendNak port h raw none 0 0 4 0 s))
  else if !crcOk h raw then sendNak port h raw none 0 0 3 0 s
  else s

/-- A packet that has passed check 2 (R346); packets held for a record come here again (R344). -/
def receiveChecked (port : Nat) (h : PktHdr) (raw : List Byte) (marked : Bool) (s : State) : State :=
  if !opListed h.op then receiveUnlisted port h raw marked s
  else if h.op = 0x72 then portCutoff port (takeConnect port h raw s)
  else if h.op = 0x73 then receiveAccept port h raw marked s
  else if h.op = 0x71 then receiveNak port h raw marked s
  else if 0x78 ≤ h.op ∧ bit h.flags flLocal then receiveLocal port h raw s
  else receiveConn port h raw marked s

/-- A packet arrives at a port (R346), whose ingress buffer is `fill` percent full: above MARK_THRESH the device marks it (R336). -/
def receive (port : Nat) (raw : List Byte) (fill : Nat) (s : State) : State :=
  if !s.running || !s.upPort port then s
  else
    let s := portSeen port (s.bump (Ctr.xfeRxPackets port))
    let h := PktHdr.parse raw
    let marked := bit h.flags flCm || decide (s.getF Reg.xfeCcMarkThresh < fill)
    if raw.length < 64 ∨ fieldAt raw 0x3C 4 ≠ crc32c (raw.take 60) then s.bump Ctr.xfeHeaderCheck
    else if !bit h.flags flLocal && !s.nodeValid then s.bump Ctr.xfeNotAssigned
    else if !bit h.flags flLocal && h.dst % 2 ^ 17 != s.node then s.bump Ctr.xfeMisrouted
    else fetchWaiting (receiveChecked port h raw marked s)

/-- A row of one opcode: the packet is received if it carries that opcode; an unlisted opcode may come through any row. -/
def receiveOp (op port : Nat) (raw : List Byte) (fill : Nat) (s : State) : State :=
  let o := fieldAt raw 1 1
  if o = op ∨ !opListed o ∨ raw.length < 64 ∨ fieldAt raw 0x3C 4 ≠ crc32c (raw.take 60) then receive port raw fill s else s

-- Messages that the device sends for itself

/-- Cut bytes into messages of at most 1 MiB. -/
def chunks (n : Nat) : Nat → List Byte → List (List Byte)
  | 0, _ => []
  | _, [] => []
  | k + 1, b => if b.length ≤ n then [b] else b.take n :: chunks n k (b.drop n)

/-- The OPEN connection of a partition to a node's accelerator, partition 0 of its node (R321). -/
def accelConn (s : State) (part node : Nat) : Option Nat :=
  (findPair s part node 0).bind fun c => if c.2.state = .opened then some c.1 else none

/-- The OPEN connection of a partition to a node. -/
def connTo (s : State) (n node : Nat) : Option Nat :=
  (s.xfe.conns.find? fun c => c.2.part == n && c.2.node == node && c.2.state == .opened).map (·.1)

/-- Send a FLUSH (R355) for the device itself. -/
def ownFlush (id cls : Nat) (what : ReqFor) (s : State) : State :=
  let (s, rid) := newRequest { conn := id, op := 0x0A, what := what } s
  sendMsg id { seq := 0, op := 0x0A, cls := cls, arg := zeros 8 ++ leBytes 4 rid, req := some rid } s

/-- Write bytes for the device itself over a connection, urgent (09 R292), the last message with the given CTR and CTR_INC; nothing leaves
where the governing entry lacks the right (R367). -/
def ownWrite (id key addr : Nat) (ctr : List Byte) (b : List Byte) (s : State) : State :=
  match tget s.xfe.conns id with
  | none => s
  | some c =>
    if lacksRight s c 1 then senderRefusal c.part id 1 s
    else
      let parts := chunks (2 ^ 20) (b.length + 1) b
      (List.range parts.length).foldl (fun s i =>
        sendMsg id { seq := 0, op := 1, cls := 0, addr := addr + i * 2 ^ 20, rkey := key, rgen := 1,
                     arg := if i + 1 = parts.length then ctr else [], data := parts.getD i [] } s) s

/-- Write bytes to an address under a key of a wheel's node, adding `inc` to a counter with the last message (05 R150, 06 R203). -/
def wheelWrite (part node key addr ctr inc : Nat) (b : List Byte) (s : State) : State :=
  match accelConn s part node with
  | none => s
  | some id => ownWrite id key addr (leBytes 8 (ctr % 2 ^ 47 + 2 ^ 63) ++ leBytes 4 inc) b s

/-- Send node values to the next member of a session's chain, over the partition's OPEN connection to it (05 R178, 09 R292). -/
def nodeWrite (part node handle spot : Nat) (b : List Byte) (s : State) : State :=
  match connTo s part node with
  | none => s
  | some id => ownWrite id (Config.chainSpot handle 0) (Config.chainSpot handle (1 + spot) % 2 ^ 47) [] b s

/-- Send the flush that confirms a tail block (06 R203). -/
def wheelFlush (part node wheel : Nat) (s : State) : State :=
  match accelConn s part node with
  | none => s
  | some id => ownFlush id 0 (.tailFlush wheel) s

end Sys2Proof.Machine
end

