-- ==== Sys2Proof/Machine/FabricRows.lean ====
section
/-!
DEFINITION. Machine/FabricRows.lean: the fabric's commands and events (10, 11): connection, region, group and work-request
commands, the expert operations, links, link-local messages, packets by opcode, and timers.
-/
set_option cleanup.letToHave false
namespace Sys2Proof.Machine

open Sys2Proof

-- Commands (16 R525)

/-- CONN_OPEN (10 R321, R322, R325, 11 R366). -/
def connOpenCmd (c : Cmd) (s : State) : Res :=
  let node := c.arg 0 4
  let rpart := c.arg 4 1
  let n := c.part
  need (c.argsOk [(0, 5)] && decide (c.dlen = 0) && decide (node < 2 ^ 17) && decide (rpart < 16)) .invalidField <|
  match governing s n node rpart with
  | none => .fail .fabricRefused
  | some v =>
    match findPair s n node rpart with
    | some (id, k) => if k.state = .opened then .done s { result0 := id } else .fail .noConnection
    | none =>
      match freeConnId s n with
      | none => .fail .noConnection
      | some id =>
        let s := makeRoom s
        need (decide (s.resident < onChip)) .noConnection <|
        .wait (sendConnect id (putConn id { newConn s n node rpart v .opening with cmd := some c } s))

/-- CONN_CLOSE (10 R325). -/
def connCloseCmd (c : Cmd) (s : State) : Res :=
  let id := c.arg 0 4
  need (c.argsOk [(0, 4)] && decide (c.dlen = 0) && decide (id < 2 ^ 20)) .invalidField <|
  match tget s.xfe.conns id with
  | none => .fail .noConnection
  | some k =>
    if k.part ≠ c.part then .fail .noConnection
    else if k.state = .failed then .done (fetchWaiting (freeConn id s)) {}
    else if k.state ≠ .opened then .fail .noConnection
    else
      let s := putConn id { k with state := .closing, cmd := some c } s
      .wait (if k.spilled then fetchRecord id s else tryClose id s)

/-- REGION_REGISTER (11 R359, R364). -/
def regionRegister (c : Cmd) (s : State) : Res :=
  let kind := c.arg 0 1
  let rights := c.arg 1 1
  let etype := c.arg 2 1
  let source := c.arg 4 4
  let base := c.arg 8 8
  let length := c.arg 0x10 8
  let n := c.part
  let a := base % 2 ^ 52
  let tier := bits base 52 2
  need (c.argsOk [(0, 3), (4, 4), (8, 8), (0x10, 8)] && decide (c.dlen = 0) && decide (kind ≤ 2) && decide (rights < 32) &&
    (if kind = 1 then etype == 3 || etype == 4 else etype == 0) && decide (source % 2 ^ 31 < 2 ^ 17) &&
    (if kind = 2 then decide (base < 2 ^ 32) && length == 0 else decide (base < 2 ^ 54) && decide (length < 2 ^ 47)) &&
    (kind != 1 || length % typeSize etype == 0)) .invalidField <|
  let r : Region := { tag := 0, part := n, kind := kind, rights := rights, etype := etype, base := if kind = 2 then base else a,
                      tier := if kind = 2 then 0 else tier, length := length, source := source }
  need (kind == 2 || (if kind = 1 then tier == 0 && s.inDirect n 0 a (r.exactBytes + 4096) else decide (tier ≤ 1) && s.inDirect n tier a length))
    .windowRange <|
  match freeRegion s n with
  | none => .fail .noRegion
  | some i =>
    let (s, key) := addRegion i r s
    .done s { result0 := key + 2 ^ 32 }

/-- A region of a partition that a key names and software may revoke. -/
def ownRegion (s : State) (part key : Nat) : Option Region :=
  match tget s.xfe.regions (keyIndex key) with
  | some r => if r.part = part ∧ r.tag = keyTag key ∧ r.state = .valid ∧ r.system = false then some r else none
  | none => none

/-- REGION_REVOKE (R370). -/
def regionRevoke (c : Cmd) (s : State) : Res :=
  let key := c.arg 0 4
  need (c.argsOk [(0, 5)] && decide (c.arg 4 1 ≤ 1) && decide (c.dlen = 0)) .invalidField <|
  match ownRegion s c.part key with
  | none => .fail .noRegion
  | some _ => .wait (revokeStep (keyIndex key) (c.arg 4 1 == 1) false (some c) s)

/-- A 16-byte group member is well formed (R356). -/
def memberOk (m : List Byte) : Bool :=
  decide (fieldAt m 0 4 % 2 ^ 31 < 2 ^ 20) && fieldAt m 8 8 / 2 ^ 56 == 0 && bits (fieldAt m 8 8) 47 1 == 0

/-- GROUP_SET (R356). -/
def groupSet (c : Cmd) (s : State) : Res :=
  let g := c.arg 0 2
  let m := c.arg 2 1
  let base := s.getF (Reg.mgcPbGroupBase c.part)
  let b := c.buffer s
  let members := (List.range m).map fun i => slice b (16 * i) 16
  need (c.argsOk [(0, 3)] && decide (m ≤ 64) && decide (c.dlen = 16 * m) &&
    decide (base ≤ g ∧ g < base + s.getF (Reg.mgcPbGroupCount c.part)) && members.all memberOk) .invalidField <|
  .done { s with xfe := { s.xfe with groups := tset s.xfe.groups g members } } {}

/-- WR_SUBMIT (R363, R367). -/
def wrSubmit (c : Cmd) (s : State) : Res :=
  let b := c.buffer s
  let w := Wreq.parse b
  need (c.argsOk [] && decide (c.dlen = 64) && wreqOk b) .invalidField <|
  need (wreqRange s c.part w) .windowRange <|
  match freeWr s c.part with
  | none => .fail .noWr
  | some id => .wait (startWork id (putWork id { wr := w, part := c.part, cmd := some c } s))

/-- WR_POST (R362, R363). -/
def wrPost (c : Cmd) (s : State) : Res :=
  let b := c.buffer s
  let w := Wreq.parse b
  let key := c.arg 0 4
  need (c.argsOk [(0, 4)] && decide (c.dlen = 64) && wreqOk b) .invalidField <|
  need (wreqRange s c.part w) .windowRange <|
  match ownRegion s c.part key with
  | none => .fail .noRegion
  | some r =>
    need (r.kind == 2) .noRegion <|
    match freeWr s c.part with
    | none => .fail .noWr
    | some id => .done (putRegion (keyIndex key) { r with posted := r.posted ++ [(id, w)] } s) { result0 := id }

def execConnOpen (c : Cmd) (s : State) : Host.Outcome State Fault Refusal := .next (hostCmd 0x0501 c (connOpenCmd c) s)
def execConnClose (c : Cmd) (s : State) : Host.Outcome State Fault Refusal := .next (hostCmd 0x0502 c (connCloseCmd c) s)
def execRegionRegister (c : Cmd) (s : State) : Host.Outcome State Fault Refusal := .next (hostCmd 0x0503 c (regionRegister c) s)
def execRegionRevoke (c : Cmd) (s : State) : Host.Outcome State Fault Refusal := .next (hostCmd 0x0504 c (regionRevoke c) s)
def execGroupSet (c : Cmd) (s : State) : Host.Outcome State Fault Refusal := .next (hostCmd 0x0505 c (groupSet c) s)
def execWrSubmit (c : Cmd) (s : State) : Host.Outcome State Fault Refusal := .next (hostCmd 0x0506 c (wrSubmit c) s)
def execWrPost (c : Cmd) (s : State) : Host.Outcome State Fault Refusal := .next (hostCmd 0x0507 c (wrPost c) s)

-- Triggers consumed (R361, R362)

/-- Start the requests at the head of a posted list whose THRESH is met. -/
def firePosted (i : Nat) : Nat → State → State
  | 0, s => s
  | n + 1, s =>
    match tget s.xfe.regions i with
    | none => s
    | some r =>
      match r.posted with
      | [] => s
      | (id, w) :: rest =>
        if 0 ≤ seqDist 32 r.count w.thresh then
          let s := (putRegion i { r with posted := rest } s).bump Ctr.xfeWrFired
          firePosted i n (startWork id (putWork id { wr := w, part := r.part } s))
        else s

/-- Consume the next trigger of a region: INC is added to COUNT; a work-request consumer starts its requests, a system
consumer is handed the wheel and the payload. -/
def consumeTrigger (i : Nat) (s : State) : State × Option (Nat × Trig) :=
  match tget s.xfe.regions i with
  | none => (s, none)
  | some r =>
    match r.queue with
    | [] => (s, none)
    | t :: rest =>
      let s := putRegion i { r with queue := rest, count := (r.count + t.inc) % 2 ^ 32, inflight := r.inflight - 1 } s
      let s := s.bump Ctr.xfeTriggersConsumed
      match r.wheel with
      | some w => (s, some (w, t))
      | none => (firePosted i (r.posted.length + 1) s, none)

-- Timers of the transport

/-- MESSAGE_LEFT_PORT (R333, R349): the last packet of a message has left; the message completes at the sender. -/
def messageLeft (conn seq : Nat) (s : State) : State :=
  match tget s.xfe.conns conn with
  | none => s
  | some c =>
    match c.tx.find? (·.seq == seq) with
    | none => s
    | some m =>
      if m.completed || decide (m.pkts.length < m.count) || !(m.pkts.all fun p => p.left || p.acked) || !opLeaves m.op then s
      else
        let s := modTx conn seq (fun m => { m with completed := true }) s
        let s := match m.work with
          | some id => workStep id .ok s
          | none => s
        tryClose conn (pruneTx conn s)

def execMessageLeftPort (conn seq : Nat) (s : State) : Host.Outcome State Fault Refusal := .next (live (messageLeft conn seq) s)

/-- ACK_DELAY_EXPIRY (R332). -/
def execAckDelayExpiry (conn seq : Nat) (s : State) : Host.Outcome State Fault Refusal :=
  .next (live (fun s => match (tget s.xfe.conns conn).bind fun c => (tget c.trackers seq).map fun t => (c, t) with
    | some (_, t) => if t.sinceAck = 0 then s else sendAck conn t.port seq 0 none 0 s
    | none => s) s)

/-- A retransmission timeout: CONNECT again while OPENING (R325), else one packet that has left, with RETX; the RTO doubles as a packet is
sent again (R333), which needs a port. In compatibility mode a control packet is named by its PSN in the place of MSG_SEQ (R343). -/
def retransmit (conn seq index : Nat) (s : State) : State :=
  match tget s.xfe.conns conn with
  | none => s
  | some c =>
    let slower := fun (s : State) => putConn conn { c with rtoUs := min (2 * c.rtoUs) (s.getF Reg.xfeRtoMaxUs) } s
    if c.state = .opening then
      if s.nodeValid && !(s.upPorts c.node).isEmpty then sendConnect conn (slower s) else s
    else if c.tx.any fun m => m.seq == seq && !m.acked && !(msgPorts s c m).isEmpty && c.sends s &&
        m.pkts.any fun p => p.index == index && p.left && !p.queued && !p.acked then
      resendPkt conn seq index (slower s)
    else match c.ctlSent.find? (·.psn == some seq) with
      | some k => if c.sends s && !(s.upPorts c.node).isEmpty && !(tkeys s.xfe.ctl).any (fun p => (tgetD s.xfe.ctl p []).any fun q => q.conn == k.conn && q.psn == k.psn) then
          resendCtl k (slower s) else s
      | none => s

def execRetransmitTimeout (conn seq index : Nat) (s : State) : Host.Outcome State Fault Refusal :=
  .next (live (retransmit conn seq index) s)

/-- CONNECTION_DEAD_TIMEOUT (R334): a packet has been unacknowledged for DEAD_TIMEOUT. -/
def execConnectionDeadTimeout (conn : Nat) (s : State) : Host.Outcome State Fault Refusal :=
  .next (live (fun s => match tget s.xfe.conns conn with
    | some c => if c.tx.all (·.acked) then s else fetchWaiting (failConn conn s)
    | none => s) s)

/-- CONNECT_TIMEOUT (R325). -/
def execConnectTimeout (conn : Nat) (s : State) : Host.Outcome State Fault Refusal :=
  .next (live (fun s => match tget s.xfe.conns conn with
    | some c => if c.state = .opening then fetchWaiting (connCmd c .fabricUnreachable (freeConn conn s)) else s
    | none => s) s)

/-- CLOSE_TIMEOUT (R325): DEAD_TIMEOUT after CLOSE. -/
def execCloseTimeout (conn : Nat) (s : State) : Host.Outcome State Fault Refusal :=
  .next (live (fun s => match tget s.xfe.conns conn with
    | some c => if c.state = .closing ∧ c.closeSent then fetchWaiting (connCmd c .ok (endConn conn s)) else s
    | none => s) s)

/-- DEAD_TARGET (R372): a request without a complete response in DEAD_TIMEOUT. -/
def deadTarget (req : Nat) (s : State) : State :=
  match tget s.xfe.requests req with
  | none => s
  | some q =>
    let part := ((tget s.xfe.conns q.conn).map (·.part)).getD 0xFF
    let s := dropSender q.conn req { s with xfe := { s.xfe with requests := tdel s.xfe.requests req } }
    let s := logEv .xfeDeadTarget pXfe part [q.conn, q.op, req] (s.bump Ctr.xfeDeadTargetOps)
    match q.what with
    | .work id => deadFill id { s with xfe := { s.xfe with works := tmod s.xfe.works id fun w => { w with status := .fabricDead } } }
    | .tailFlush _ => s
    | .remoteLoad c t => loadDead c t s
    | .coreFence c t => fenceDone c t s

def execDeadTarget (req : Nat) (s : State) : Host.Outcome State Fault Refusal := .next (live (deadTarget req) s)

/-- Packets and messages that waited for a record go on (R344). -/
def afterFetch (id : Nat) (s : State) : State :=
  let pkts := s.xfe.holding.filter (·.1 == id)
  let msgs := s.xfe.holdingMsgs.filter (·.1 == id)
  let s := { s with xfe := { s.xfe with holding := s.xfe.holding.filter (·.1 != id), holdingMsgs := s.xfe.holdingMsgs.filter (·.1 != id) } }
  let s := msgs.foldl (fun s m => match tget s.xfe.conns id with
    | some c => if c.state = .failed then endSent m.2 .fabricLost s else sendMsg id m.2 s
    | none => endSent m.2 .fabricLost s) s
  fetchWaiting (tryClose id (pkts.foldl (fun s p => receiveChecked p.2.1 (PktHdr.parse p.2.2.2) p.2.2.2 p.2.2.1 s) s))

/-- SPILL_FETCH_DONE (R344): the 64 bytes, or none for poison or a host link that is down. What waited for the record of a connection that
has failed or gone meanwhile is answered as such. -/
def spillFetched (id : Nat) (bytes : Option (List Byte)) (s : State) : State :=
  if !s.xfe.fetching.contains id then s
  else
    let s := { s with xfe := { s.xfe with fetching := s.xfe.fetching.filter (· != id) } }
    match (tget s.xfe.conns id).filter (·.spilled) with
    | none => afterFetch id s
    | some c =>
      let good := match bytes with
        | some b => if b.length = 64 ∧ slice b 0x3C 4 = shake256 (b.take 0x3C) 4 then some b else none
        | none => none
      let home := putConn id { c with spilled := false } s
      if c.state = .failed then afterFetch id home
      else match good with
      | some b => afterFetch id (putConn id { connOfRecord c b with state := c.state } s)
      | none => afterFetch id (logEv .xfeSpillFailed pXfe c.part [id] (failConn id home))

def execSpillFetchDone (conn : Nat) (record : Option (List Byte)) (s : State) : Host.Outcome State Fault Refusal :=
  .next (live (spillFetched conn record) s)

/-- REVOKE_DRAINED (R370). -/
def execRevokeDrained (index : Nat) (s : State) : Host.Outcome State Fault Refusal :=
  .next (live (fun s => match tget s.xfe.regions index with
    | some r => if r.state = .draining ∧ r.inflight = 0 then revokeDone index s else s
    | none => s) s)

/-- REGION_RETIRE_EXPIRY (R371): 100 ms after RETIRING the index is FREE. -/
def execRegionRetireExpiry (index : Nat) (s : State) : Host.Outcome State Fault Refusal :=
  .next (live (fun s => match tget s.xfe.regions index with
    | some r => if r.state = .retiring then { s with xfe := { s.xfe with regions := tdel s.xfe.regions index } } else s
    | none => s) s)

-- Packets by opcode

def execWrite (port : Nat) (raw : List Byte) (fill : Nat) (s : State) : Host.Outcome State Fault Refusal := .next (receiveOp 0x01 port raw fill s)
def execReadReq (port : Nat) (raw : List Byte) (fill : Nat) (s : State) : Host.Outcome State Fault Refusal := .next (receiveOp 0x02 port raw fill s)
def execReadResp (port : Nat) (raw : List Byte) (fill : Nat) (s : State) : Host.Outcome State Fault Refusal := .next (receiveOp 0x03 port raw fill s)
def execAtomic (port : Nat) (raw : List Byte) (fill : Nat) (s : State) : Host.Outcome State Fault Refusal := .next (receiveOp 0x04 port raw fill s)
def execAtomicResp (port : Nat) (raw : List Byte) (fill : Nat) (s : State) : Host.Outcome State Fault Refusal := .next (receiveOp 0x05 port raw fill s)
def execCas (port : Nat) (raw : List Byte) (fill : Nat) (s : State) : Host.Outcome State Fault Refusal := .next (receiveOp 0x06 port raw fill s)
def execCasResp (port : Nat) (raw : List Byte) (fill : Nat) (s : State) : Host.Outcome State Fault Refusal := .next (receiveOp 0x07 port raw fill s)
def execMcastWrite (port : Nat) (raw : List Byte) (fill : Nat) (s : State) : Host.Outcome State Fault Refusal := .next (receiveOp 0x08 port raw fill s)
def execReduce (port : Nat) (raw : List Byte) (fill : Nat) (s : State) : Host.Outcome State Fault Refusal := .next (receiveOp 0x09 port raw fill s)
def execFlush (port : Nat) (raw : List Byte) (fill : Nat) (s : State) : Host.Outcome State Fault Refusal := .next (receiveOp 0x0A port raw fill s)
def execFlushResp (port : Nat) (raw : List Byte) (fill : Nat) (s : State) : Host.Outcome State Fault Refusal := .next (receiveOp 0x0B port raw fill s)
def execTrigger (port : Nat) (raw : List Byte) (fill : Nat) (s : State) : Host.Outcome State Fault Refusal := .next (receiveOp 0x0C port raw fill s)
def execAck (port : Nat) (raw : List Byte) (fill : Nat) (s : State) : Host.Outcome State Fault Refusal := .next (receiveOp 0x70 port raw fill s)
def execNak (port : Nat) (raw : List Byte) (fill : Nat) (s : State) : Host.Outcome State Fault Refusal := .next (receiveOp 0x71 port raw fill s)
def execConnect (port : Nat) (raw : List Byte) (fill : Nat) (s : State) : Host.Outcome State Fault Refusal := .next (receiveOp 0x72 port raw fill s)
def execAccept (port : Nat) (raw : List Byte) (fill : Nat) (s : State) : Host.Outcome State Fault Refusal := .next (receiveOp 0x73 port raw fill s)
def execClose (port : Nat) (raw : List Byte) (fill : Nat) (s : State) : Host.Outcome State Fault Refusal := .next (receiveOp 0x74 port raw fill s)
def execCloseAck (port : Nat) (raw : List Byte) (fill : Nat) (s : State) : Host.Outcome State Fault Refusal := .next (receiveOp 0x75 port raw fill s)

-- Links (R308, R309)

def portDetect : Nat := 1
def portTrain : Nat := 2
def portConfig : Nat := 3

/-- A lane of the port is retired: it trains at x4 on its passing half (14 R453). -/
def halfPort (s : State) (port : Nat) : Bool := s.frc.retired.any fun u => u.slot == pXfe && u.kind == 6 && u.num / 8 == port

/-- LINK_DETECT: signal on lanes 0-7 (8), or on one half (4). -/
def execLinkDetect (port lanes : Nat) (s : State) : Host.Outcome State Fault Refusal :=
  .next (live (fun s => if port < 8 ∧ s.getF (Reg.xfePortState port) = portDetect ∧ ((lanes = 8 ∧ halfPort s port = false) ∨ lanes = 4) then
      let s := s.setF (Reg.xfePortState port) portTrain
      { s with xfe := { s.xfe with lanes := tset s.xfe.lanes port lanes } }
    else s) s)

/-- LINK_TRAINED: every detected lane is locked. -/
def execLinkTrained (port : Nat) (s : State) : Host.Outcome State Fault Refusal :=
  .next (live (fun s => if port < 8 ∧ s.getF (Reg.xfePortState port) = portTrain then
      (s.setF (Reg.xfePortState port) portConfig).emit (.linkMessage port 0 [2, tgetD s.xfe.lanes port 8])
    else s) s)

/-- LINK_TRAIN_TIMEOUT: not locked within 50 ms. -/
def execLinkTrainTimeout (port : Nat) (s : State) : Host.Outcome State Fault Refusal :=
  .next (live (fun s => if port < 8 ∧ s.getF (Reg.xfePortState port) = portTrain then
      let n := tgetD s.xfe.attempts port 0 + 1
      let s := (s.satAdd (Reg.xfePortRetrains port) 1).setF (Reg.xfePortState port) portDetect
      let s := { s with xfe := { s.xfe with attempts := tset s.xfe.attempts port (n % 4), lanes := tdel s.xfe.lanes port } }
      if n = 4 then logEv .xfeLinkTrainFail pXfe 0xFF [port] s else s
    else s) s)

/-- LINK_CAP: the peer's generation is known, the link credits are those the other end grants, and the port is UP. -/
def execLinkCap (port : Nat) (peer : LinkPeer) (s : State) : Host.Outcome State Fault Refusal :=
  .next (live (fun s => if port < 8 ∧ s.getF (Reg.xfePortState port) = portConfig ∧ (peer.gen = 1 ∨ peer.gen = 2) then
      let s := grantCredits port peer.credits (clearPort port (s.setF (Reg.xfePortState port) portUp))
      let s := (s.setF (Reg.xfePortWidth port) (if tgetD s.xfe.lanes port 8 = 8 then 2 else 1)).setF (Reg.xfePortGen port) (min 2 peer.gen)
      let s := { s with xfe := { s.xfe with attempts := tdel s.xfe.attempts port } }
      let s := announceAll s
      (tkeys s.xfe.conns).foldl (fun s id => pumpAll id s) s
    else s) s)

/-- LINK_DOWN: lock lost, or too many uncorrectable FEC codewords, `fec` of them counted. -/
def execLinkDown (port fec : Nat) (s : State) : Host.Outcome State Fault Refusal :=
  .next (live (fun s => if port < 8 ∧ s.upPort port then
      let s := dropPort port portDetect (s.bumpBy (Ctr.xfeFecUncorrected port) fec)
      announceAll (logEv .xfeLinkDown pXfe 0xFF [port] s)
    else s) s)

/-- PORT_EN_WRITE through a function: EN 0 drops the link; EN 1 starts detection from DISABLED. -/
def execPortEnWrite (from_ port en : Nat) (s : State) : Host.Outcome State Fault Refusal :=
  .next (countIo from_ (if s.operator from_ = false ∨ 8 ≤ port ∨ 1 < en ∨ s.mgc.off then s
    else
      let s := s.setF (Reg.xfePortEn port) en
      if en = 0 then
        let was := s.upPort port
        let s := dropPort port 0 s
        if was then announceAll s else s
      else if s.getF (Reg.xfePortState port) = 0 ∧ 1 ≤ s.getF Reg.mgcBootStage ∧ s.running then s.setF (Reg.xfePortState port) portDetect
      else s))

-- Node numbers (R313-R317)

/-- Every connection enters FAILED (R315). -/
def failAll (s : State) : State := (tkeys s.xfe.conns).foldl (fun s id => failConn id s) s

/-- Take a node number in use. -/
def takeNode (node : Nat) (s : State) : State :=
  let changed := s.nodeValid && decide (s.node ≠ node)
  let s := (s.setF Reg.xfeNodeAssigned node).setF Reg.xfeNodeValid 1
  if changed then failAll s else (tkeys s.xfe.conns).foldl (fun s id => pumpAll id s) s

/-- Whether a link-local message from the FM on a port is heard. -/
def fmHeard (s : State) (port : Nat) : Bool := s.running && s.upPort port && !s.flag Reg.xfeNodeStatic

/-- ASSIGN (R313). -/
def assign (port node fmNode epoch : Nat) (s : State) : State :=
  if !fmHeard s port || decide (2 ^ 17 ≤ node) || decide (2 ^ 32 ≤ epoch) then s
  else
    let held := s.getF Reg.xfeFmEpoch
    if held < epoch then
      let s := takeNode node ((s.setF Reg.xfeFmEpoch epoch).setF Reg.xfeFmFmNode fmNode)
      logEv .xfeNodeAssigned pXfe 0xFF [node, fmNode, epoch] s
    else if epoch = held ∧ node ≠ s.node then logEv .xfeNodeConflict pXfe 0xFF [node, fmNode, epoch] s
    else s

def execAssign (port node fmNode epoch : Nat) (s : State) : Host.Outcome State Fault Refusal := .next (assign port node fmNode epoch s)

/-- DEPART (R316). -/
def execDepart (port node uid : Nat) (s : State) : Host.Outcome State Fault Refusal :=
  .next (if !fmHeard s port then s
    else
      let s := (s.xfe.conns.filter fun c => c.2.node == node).foldl (fun s c => failConn c.1 s) s
      logEv .xfePeerLost pXfe 0xFF [node, uid] s)

/-- JOIN (R316). -/
def execJoin (port node uid : Nat) (s : State) : Host.Outcome State Fault Refusal :=
  .next (if !fmHeard s port then s else logEv .xfePeerJoined pXfe 0xFF [node, uid] s)

/-- Set the port mask of a node range; entries of 0xFF are not listed (R317). -/
def setRoutes (first last mask : Nat) (s : State) : State :=
  let rest := s.xfe.routes.filter fun r => decide (r.1 < first) || decide (last < r.1)
  let new := if mask = 0xFF then [] else (List.range (last + 1 - first)).map fun i => (first + i, mask)
  { s with xfe := { s.xfe with routes := (rest.filter fun r => decide (r.1 < first)) ++ new ++ rest.filter fun r => decide (last < r.1) } }

/-- ROUTE (R317): taken from the current FM epoch. -/
def execRoute (port first last mask epoch : Nat) (s : State) : Host.Outcome State Fault Refusal :=
  .next (if !fmHeard s port || decide (epoch ≠ s.getF Reg.xfeFmEpoch) || decide (last < first) || decide (2 ^ 17 ≤ last) || decide (256 ≤ mask) then s
    else setRoutes first last mask s)

/-- NODE_STATIC_WRITE (R314). -/
def execNodeStaticWrite (from_ static_ staticNode : Nat) (s : State) : Host.Outcome State Fault Refusal :=
  .next (countIo from_ (if s.operator from_ = false ∨ s.mgc.off ∨ s.nodeValid ∨ 1 < static_ ∨ 2 ^ 17 ≤ staticNode then s
    else
      let s := (s.setF Reg.xfeNodeStatic static_).setF Reg.xfeNodeStaticNode staticNode
      if static_ = 1 then announceAll (takeNode staticNode s) else s))

-- Expert operations (16 R516, R517)

/-- ROUTE_READ: FIRST's mask. -/
def execRouteRead (from_ first : Nat) (s : State) : Host.Outcome State Fault Refusal :=
  .next (countIo from_ (if !s.expertDevice pXfe from_ || s.flag Reg.xfeRouteStatBusy || decide (2 ^ 17 ≤ first) then s
    else ((s.setF Reg.xfeRouteOpFirst first).setF Reg.xfeRouteOpOp 1).setF Reg.xfeRouteStatMask (s.routeMask first)))

/-- ROUTE_WRITE: the mask of a node range. -/
def execRouteWrite (from_ first last mask : Nat) (s : State) : Host.Outcome State Fault Refusal :=
  .next (countIo from_ (if !s.expertDevice pXfe from_ || s.flag Reg.xfeRouteStatBusy || decide (last < first) || decide (2 ^ 17 ≤ last) || decide (256 ≤ mask) then s
    else setRoutes first last mask
      ((((s.setF Reg.xfeRouteOpFirst first).setF Reg.xfeRouteOpLast last).setF Reg.xfeRouteOpMask mask).setF Reg.xfeRouteOpOp 2)))

/-- The partition that owns a connection id (R321). -/
def connOwner (s : State) (id : Nat) : Option Nat :=
  (List.range 16).find? fun n => decide (s.getF (Reg.mgcPbConnBase n) ≤ id) &&
    decide (id < s.getF (Reg.mgcPbConnBase n) + s.getF (Reg.mgcPbConnCount n))

/-- Whether a function may act on a connection id through the expert window. -/
def connExpert (s : State) (from_ id : Nat) : Bool :=
  s.expertOpen pXfe from_ && decide (id < 2 ^ 20) && ((connOwner s id).map (s.expertObject pXfe from_)).getD (from_ == 0)

/-- CONN_READ_RECORD (R345): zero bytes for a CLOSED id. -/
def execConnReadRecord (from_ conn : Nat) (s : State) : Host.Outcome State Fault Refusal :=
  .next (countIo from_ (if !connExpert s from_ conn then s
    else
      let b := match tget s.xfe.conns conn with
        | some c => connRecord s conn c
        | none => zeros 64
      showBytes Reg.xfeConnRecData 8 b ((s.setF Reg.xfeConnOpConn conn).setF Reg.xfeConnOpOp 1)))

/-- CONN_FAIL (R325). -/
def execConnFail (from_ conn : Nat) (s : State) : Host.Outcome State Fault Refusal :=
  .next (countIo from_ (if !connExpert s from_ conn then s else failConn conn ((s.setF Reg.xfeConnOpConn conn).setF Reg.xfeConnOpOp 2)))

/-- A region operation of the expert window: STATUS 1 for an index that is FREE or RETIRING, 2 for a partition that is not
unlocked, else the operation. -/
def regionOp (op from_ index : Nat) (act : Region → State → State) (s : State) : State :=
  if !s.expertOpen pXfe from_ || s.flag Reg.xfeRegionStatBusy || decide (65536 ≤ index) then s
  else
    let s := (s.setF Reg.xfeRegionOpIndex index).setF Reg.xfeRegionOpOp op
    match tget s.xfe.regions index with
    | none => s.setF Reg.xfeRegionStatStatus 1
    | some r =>
      if !s.expertObject pXfe from_ r.part then s.setF Reg.xfeRegionStatStatus 2
      else if r.state = .retiring then s.setF Reg.xfeRegionStatStatus 1
      else act r (s.setF Reg.xfeRegionStatStatus 0)

/-- REGION_OP_READ_ENTRY (R364). -/
def execRegionOpReadEntry (from_ index : Nat) (s : State) : Host.Outcome State Fault Refusal :=
  .next (countIo from_ (regionOp 1 from_ index (fun _ s => showBytes Reg.xfeRegionRecData 4 (regionBytes s index) s) s))

/-- Revoke through the expert window: SYSTEM regions draw STATUS 3; BUSY while draining. -/
def regionOpRevoke (op from_ index : Nat) (free : Bool) (s : State) : State :=
  regionOp op from_ index (fun r s =>
    if r.system then s.setF Reg.xfeRegionStatStatus 3
    else if r.state ≠ .valid then s
    else revokeStep index free true none (s.setF Reg.xfeRegionStatBusy 1)) s

def execRegionOpRevoke (from_ index : Nat) (s : State) : Host.Outcome State Fault Refusal := .next (countIo from_ (regionOpRevoke 2 from_ index false s))
def execRevokeAndFree (from_ index : Nat) (s : State) : Host.Outcome State Fault Refusal := .next (countIo from_ (regionOpRevoke 3 from_ index true s))

-- Sluice decisions, with the packets that leave (09 R294, R297)

/-- At an egress port the other end of the link has returned credits (10 R310). -/
def sluReturn (i : Nat) (credits : List Nat) (s : State) : State :=
  if i < firstEgress then s else announceIdle (i - firstEgress) (grantCredits (i - firstEgress) credits s)

/-- Transfers reach the queues, the grant in progress is finished and the next one decided; a page in decode keeps its grant until
EXPANDER_DECODE. -/
def sluNext (i : Nat) (arrivals : List Arrival) (credits : List Nat) (s : State) : State :=
  let s := sluArrive i arrivals s
  if sluDecoding i s then s
  else if i < firstEgress then sluDecide i (sluFinish sendGranted i (sluPurge i s))
  else ctlIdle (i - firstEgress) (sluDecide i (sluFinish sendGranted i (sluReturn i credits s)))

/-- SLUICE_DECIDE. -/
def execSluiceDecide (inst : Nat) (arrivals : List Arrival) (credits : List Nat) (s : State) : Host.Outcome State Fault Refusal :=
  .next (live (fun s => if inst < sluInsts then sluNext inst arrivals credits s else s) s)

/-- SLUICE_PREEMPT: an urgent request reaches its head and aborts a preemptible grant. -/
def execSluicePreempt (inst : Nat) (arrivals : List Arrival) (credits : List Nat) (s : State) : Host.Outcome State Fault Refusal :=
  .next (live (fun s => if inst < sluInsts then sluPreempt inst (sluReturn inst credits (sluArrive inst arrivals s)) else s) s)

end Sys2Proof.Machine
end

