-- ==== Sys2Proof/Machine/Codec.lean ====
section
/-!
DEFINITION. Machine/Codec.lean: the storage classes and the page format: geometry and layout (04 R111-R117), the encoders
FR1, FR2 and FR4 (03 R97-R102), sealing a page (04 R119) and the expander's checks and decode (04 R124, 03 R103).
-/
namespace Sys2Proof.Machine

open Sys2Proof Fp

namespace Geom

/-- Head vectors V, elements E, coding blocks B, scale bytes Z, escape records X (R111, R113). -/
def vecs (g : Geom) : Nat := if g.latent then 32 else 64 * g.heads
def elems (g : Geom) : Nat := g.vecs * g.dim
def blocks (g : Geom) : Nat := cdiv g.elems 4096
def scales (g : Geom) : Nat := cdiv g.vecs 64 * 64
def escapes (g : Geom) : Nat := g.blocks / 16

/-- Offset of the data region for a class code 1, 2 or 4 (R113). -/
def dataOff (g : Geom) (cls : Nat) : Nat := 192 + g.scales + (if cls = 1 then 0 else g.escapes * 4104)

/-- Size of one encoded block (03 R100). -/
def blockSize (cls : Nat) : Nat := if cls = 2 then 2184 else 1160

/-- The page's end offset with all escape records present (R117). -/
def pageEnd (g : Geom) (cls : Nat) : Nat := g.dataOff cls + (if cls = 1 then g.elems else g.blocks * blockSize cls)

/-- Slot size in 4 KiB units (R117). -/
def slot4k (g : Geom) (cls : Nat) : Nat := cdiv (g.pageEnd cls) 4096

/-- Head vector index and element index of component c, head h, position t, element i (R112). -/
def vecIdx (g : Geom) (c h t : Nat) : Nat := if g.latent then t else (c * g.heads + h) * 32 + t
def elemIdx (g : Geom) (c h t i : Nat) : Nat := g.vecIdx c h t * g.dim + i

end Geom

-- Encoders

/-- Exponent e and whether μ is at most `num`/4, of a nonzero finite value μ × 2^e with μ in [1, 2). -/
def magExp (x : Fp) : Int :=
  match x with
  | .fin m e => e + (bitLen m.natAbs : Int) - 1
  | _ => 0
def magAtMost (quarters : Nat) (x : Fp) : Bool :=
  match x with
  | .fin m _ => decide (4 * m.natAbs ≤ quarters * 2 ^ (bitLen m.natAbs - 1))
  | _ => false

/-- Magnitude. -/
def absFp : Fp → Fp
  | .fin m e => .fin m.natAbs e
  | .inf _ => .inf false
  | .nan => .nan

/-- The element of largest magnitude. -/
def largest (v : List Fp) : Fp := v.foldl (fun m x => max2 m (absFp x)) zero

/-- FR1 of a head vector (03 R97): the head scale and the element codes. -/
def encFr1 (v : List Fp) : Nat × List Nat :=
  if v.any fun x => x.isNan || x.isInf then (255, v.map fun _ => 0)
  else
    let m := largest v
    if m.isZero then (127, v.map fun _ => 0)
    else
      let eh := (magExp m + if magAtMost 7 m then 119 else 120).toNat
      (eh, v.map fun x => toE4m3 (scale (127 - (eh : Int)) x))

/-- The value of an FR1 code under a head scale. -/
def fr1Val (eh code : Nat) : Fp := scaled (ofE4m3 code) eh

/-- FR2 of a group of FR1 values under head scale E_h (03 R98). -/
def encFr2 (eh : Nat) (v : List Fp) : Nat × List Nat :=
  let m := largest v
  if m.isZero then (eh - 11, v.map fun _ => 0)
  else
    let eg := (magExp m + if magAtMost 6 m then 125 else 126).toNat
    (eg, v.map fun x => toE2m1 (scale (127 - (eg : Int)) x))

/-- FR4 of a group (03 R99). -/
def encFr4 (v : List Fp) : Nat × List Nat :=
  let m := largest v
  if m.isZero then (255, v.map fun _ => 0)
  else
    let eg := min (magExp m + 127).toNat 254
    (eg, v.map fun x =>
      let y := scale (127 - (eg : Int)) x
      (if lt one (absFp y) then 1 else 0) + (if lt y zero then 2 else 0))

/-- Decoded value of a group code of class 2 or 4 (03 R98, R99). -/
def groupVal (cls eg code : Nat) : Fp :=
  if cls = 2 then (if eg = 255 then .nan else scale ((eg : Int) - 127) (ofE2m1 code))
  else if eg = 255 then zero
  else scale ((eg : Int) - 127) (.fin (sgn (code / 2 % 2 == 1) (1 + 2 * (code % 2))) (-1))

/-- Valid E_g for a head scale (03 R98, R99). -/
def egValid (cls eh eg : Nat) : Bool :=
  if cls = 2 then decide (eh - 11 ≤ eg ∧ eg ≤ eh + 7)
  else eg == 255 || decide (eh - 9 ≤ eg ∧ eg ≤ min 254 (eh + 8))

-- Reading an FR1 page

/-- Head scale byte of a head vector, and FR1 code of an element. -/
def headScale (p : List Byte) (v : Nat) : Nat := fieldAt p (192 + v) 1
def fr1Code (g : Geom) (p : List Byte) (e : Nat) : Nat := fieldAt p (g.dataOff 1 + e) 1

/-- FR1 value and head scale of element e; a padding element of the last block has code 0 and scale 127 (03 R100). -/
def fr1At (g : Geom) (p : List Byte) (e : Nat) : Fp × Nat :=
  if e < g.elems then let eh := headScale p (e / g.dim); (fr1Val eh (fr1Code g p e), eh) else (zero, 127)

/-- One coding block of class 2 or 4 of an FR1 page, without its check: group exponents then packed codes (03 R100). -/
def encBlock (g : Geom) (p : List Byte) (cls b : Nat) : List Byte :=
  let groups := (List.range 128).map fun k =>
    let xs := (List.range 32).map fun i => fr1At g p (4096 * b + 32 * k + i)
    let vals := xs.map (·.1)
    if cls = 2 then encFr2 ((xs.head?.map (·.2)).getD 127) vals else encFr4 vals
  let codes := (groups.map (·.2)).flatten
  let width := if cls = 2 then 4 else 2
  let per := 8 / width
  groups.map (fun q => BitVec.ofNat 8 q.1) ++
    (List.range (4096 / per)).map fun i =>
      BitVec.ofNat 8 ((List.range per).foldl (fun acc j => acc + codes.getD (i * per + j) 0 * 2 ^ (width * j)) 0)

/-- The check of a block (03 R101). -/
def blockCheck (cls b : Nat) (body : List Byte) : List Byte := shake256 (BitVec.ofNat 8 cls :: leBytes 2 b ++ body) 8

/-- Code of element e of an encoded block. -/
def blockCode (cls : Nat) (blk : List Byte) (e : Nat) : Nat :=
  if cls = 2 then fieldAt blk (128 + e / 2) 1 / 2 ^ (4 * (e % 2)) % 16
  else fieldAt blk (128 + e / 4) 1 / 2 ^ (2 * (e % 4)) % 4

/-- The value that element e of an encoded block decodes to. -/
def blockVal (cls : Nat) (blk : List Byte) (e : Nat) : Fp := groupVal cls (fieldAt blk (e / 32) 1) (blockCode cls blk e)

/-- Whether a block of class 2 or 4 passes the error test (03 R102): D × 2^k ≤ S. -/
def blockPasses (g : Geom) (p : List Byte) (cls b : Nat) (blk : List Byte) : Bool :=
  let n := min 4096 (g.elems - 4096 * b)
  let xs := (List.range n).map fun i => fr1At g p (4096 * b + i)
  if xs.any fun x => x.2 == 255 then false
  else
    let acc := ((List.range n).zip xs).foldl (fun (a : Fp × Fp) ix =>
      let d := sub (blockVal cls blk ix.1) ix.2.1
      (add a.1 (mul d d), add a.2 (mul ix.2.1 ix.2.1))) (zero, zero)
    le (scale (if cls = 2 then 5 else 2) acc.1) acc.2

-- The header (R114)

/-- The fields of a page header. -/
structure Hdr where
  cls : Nat
  fill : Nat
  escapes : Nat := 0
  sealed : Bool := false
  latent : Bool := false
  forced : Bool := false
  headsM1 : Nat
  layer : Nat
  dim : Nat
  page : Nat
  chain : Nat := 0
  blocks : Nat
  escapeMap : Nat := 0
deriving DecidableEq, Repr

/-- The 64 bytes of a header, HDR_CHECK over all but itself (R114). -/
def hdrBytes (h : Hdr) : List Byte :=
  let a := leBytes 2 0x5356 ++ leBytes 1 1 ++ leBytes 1 h.cls ++ leBytes 1 h.fill ++ leBytes 1 h.escapes ++
    leBytes 1 ((if h.sealed then 1 else 0) + (if h.latent then 2 else 0) + (if h.forced then 4 else 0)) ++
    leBytes 1 h.headsM1 ++ leBytes 2 h.layer ++ leBytes 2 h.dim ++ leBytes 4 h.page ++ leBytes 8 h.chain ++
    leBytes 2 h.blocks ++ leBytes 2 0
  let m := leBytes 32 h.escapeMap
  a ++ shake256 (a ++ m) 4 ++ m

/-- A fresh tail page: header, empty shadow, zero scales (R115, R118). -/
def freshHdr (g : Geom) (layer page fill : Nat) : Hdr :=
  { cls := 1, fill := fill, latent := g.latent, headsM1 := g.heads - 1, layer := layer, dim := g.dim, page := page, blocks := g.blocks }

/-- The token shadow of a page, and one with an entry replaced (R115). -/
def shadowAt (p : List Byte) (t : Nat) : Nat := fieldAt p (64 + 4 * t) 4
def emptyShadow : List Byte := List.replicate 128 0xFF

-- Sealing (R119)

/-- What sealing makes of a page. -/
structure Sealed where
  bytes : List Byte
  cls : Nat
  forced : Bool
  escapes : Nat

/-- Escape record of a block (R116): its 4,096 FR1 codes, padding 0, and the check with class code 1. -/
def escapeRecord (g : Geom) (p : List Byte) (b : Nat) : List Byte :=
  let body := (List.range 4096).map fun i =>
    if 4096 * b + i < g.elems then BitVec.ofNat 8 (fr1Code g p (4096 * b + i)) else 0
  body ++ blockCheck 1 b body

/-- Seal an FR1 page of 32 positions to its target class (R119): in place for FR1, or where more than floor(B/16) blocks
fail; otherwise encoded, failing blocks escaped (R116). -/
def sealPage (g : Geom) (p : List Byte) (layer page target chain : Nat) : Sealed :=
  let h : Hdr := { freshHdr g layer page 32 with sealed := true, chain := chain }
  let inPlace := fun forced => patch p 0 (hdrBytes { h with forced := forced })
  if target = 1 then ⟨inPlace false, 1, false, 0⟩
  else
    let enc := (List.range g.blocks).map fun b => encBlock g p target b
    let fails := (List.range g.blocks).filter fun b => !blockPasses g p target b (enc.getD b [])
    if g.escapes < fails.length then ⟨inPlace true, 1, true, 0⟩
    else
      let eoff := 192 + g.scales
      let map := fails.foldl (fun m b => m + 2 ^ b) 0
      let hdr := hdrBytes { h with cls := target, escapes := fails.length, escapeMap := map }
      let recs := (fails.map (escapeRecord g p)).flatten
      let data := (List.range g.blocks).map fun b =>
        match fails.idxOf? b with
        | some j => leBytes 4 (eoff + 4104 * j) ++ leBytes 2 b ++ zeros (Geom.blockSize target - 6)
        | none => let blk := enc.getD b []; blk ++ blockCheck target b blk
      ⟨hdr ++ slice p 64 (128 + g.scales) ++ recs ++ zeros (g.escapes * 4104 - recs.length) ++ data.flatten, target, false, fails.length⟩

-- The expander (R124)

/-- What the directory record says of a page, beside its geometry: layer, page index, target class, SEALED, FORCED_FR1,
slot size. -/
structure PageFacts where
  layer : Nat
  page : Nat
  target : Nat
  sealed : Bool
  forced : Bool
  slot4k : Nat
deriving DecidableEq, Repr

/-- An encoded block's slot in the data region, with its check. -/
def blockSlot (g : Geom) (p : List Byte) (cls b : Nat) : List Byte :=
  slice p (g.dataOff cls + b * Geom.blockSize cls) (Geom.blockSize cls)

/-- The record offset of the j-th escaped block. -/
def escapeOff (g : Geom) (j : Nat) : Nat := 192 + g.scales + 4104 * j

/-- The checks of an expander (R124): the reason code of R125 and the block index (0xFF at header level) of the first that fails. R125 gives no
precedence among checks that fail together: the checks at header level come first, then block by block the escape slot, the block check and
the range of E_g (DESIGN CHOICE, log 45). -/
def expanderCheck (g : Geom) (f : PageFacts) (p : List Byte) : Option (Nat × Nat) :=
  let cls := fieldAt p 3 1
  let flags := fieldAt p 6 1
  let map := fieldAt p 0x20 32
  let esc := fieldAt p 5 1
  let escaped := maskBits g.blocks map
  if fieldAt p 0 2 ≠ 0x5356 ∨ fieldAt p 2 1 ≠ 1 ∨ slice p 0x1C 4 ≠ shake256 (slice p 0 0x1C ++ slice p 0x20 32) 4 then some (1, 0xFF)
  else if fieldAt p 8 2 ≠ f.layer ∨ fieldAt p 0x0C 4 ≠ f.page ∨ fieldAt p 7 1 ≠ g.heads - 1 ∨ fieldAt p 0x0A 2 ≠ g.dim ∨
      fieldAt p 0x18 2 ≠ g.blocks ∨ bit flags 1 ≠ g.latent then some (2, 0xFF)
  else if bit flags 0 ≠ f.sealed ∨ bit flags 2 ≠ f.forced ∨
      (f.sealed = false ∧ (cls ≠ 1 ∨ f.forced = true)) ∨
      (f.sealed = true ∧ f.forced = true ∧ (cls ≠ 1 ∨ f.target = 1)) ∨
      (f.sealed = true ∧ f.forced = false ∧ cls ≠ f.target) ∨ f.slot4k * 4096 < g.pageEnd cls then some (3, 0xFF)
  else if esc ≠ (maskBits 256 map).length ∨ g.escapes < esc ∨ map / 2 ^ g.blocks ≠ 0 then some (4, 0xFF)
  else if cls = 1 then none
  else
    let perBlock := (List.range g.blocks).findSome? fun b =>
      let slot := blockSlot g p cls b
      match escaped.idxOf? b with
      | some j =>
        if slot ≠ leBytes 4 (escapeOff g j) ++ leBytes 2 b ++ zeros (Geom.blockSize cls - 6) then some (5, b)
        else
          let body := slice p (escapeOff g j) 4096
          if slice p (escapeOff g j + 4096) 8 ≠ blockCheck 1 b body then some (6, b) else none
      | none =>
        let body := slot.take (Geom.blockSize cls - 8)
        if slot.drop (Geom.blockSize cls - 8) ≠ blockCheck cls b body then some (6, b)
        else
          (List.range 128).findSome? fun k =>
            let e := 4096 * b + 32 * k
            let eh := if e < g.elems then headScale p (e / g.dim) else 127
            if egValid cls eh (fieldAt body k 1) then none else some (7, b)
    perBlock

/-- The value of element e of a page as an expander decodes it (03 R103, 04 R116). -/
def pageVal (g : Geom) (p : List Byte) (e : Nat) : Fp :=
  let cls := fieldAt p 3 1
  if cls = 1 then (fr1At g p e).1
  else
    let b := e / 4096
    let map := fieldAt p 0x20 32
    match (maskBits g.blocks map).idxOf? b with
    | some j => fr1Val (headScale p (e / g.dim)) (fieldAt p (escapeOff g j + e % 4096) 1)
    | none => blockVal cls (blockSlot g p cls b) (e % 4096)

/-- The values of a head vector: component c, head h, position t of the page. -/
def headVec (g : Geom) (p : List Byte) (c h t : Nat) : List Fp :=
  (List.range g.dim).map fun i => pageVal g p (g.elemIdx c h t i)

end Sys2Proof.Machine
end

