-- ==== Sys2Proof/Machine/Pages.lean ====
section
/-!
DEFINITION. Machine/Pages.lean: the page directory (04 R127-R137): records, references and pins, slots and quotas (08
R253-R256), tier moves (08 R261-R264, 04 R136), session maps and folding (04 R128, R131).
-/
set_option cleanup.letToHave false
namespace Sys2Proof.Machine

open Sys2Proof

def State.setTmg (s : State) (t : Tmg) : State := { s with tmg := t }

/-- The record of a handle. -/
def State.rec? (s : State) (h : Nat) : Option PageRec := tget s.tmg.records h

def putRec (h : Nat) (r : PageRec) (s : State) : State := { s with tmg := { s.tmg with records := tset s.tmg.records h r } }
def modRec (h : Nat) (f : PageRec → PageRec) (s : State) : State := { s with tmg := { s.tmg with records := tmod s.tmg.records h f } }

/-- The class code of a record's CLASS field (R129). -/
def classBits (cls : Nat) : Nat := if cls = 1 then 0 else if cls = 2 then 1 else 2

/-- The 32 bytes of a record (R129). -/
def recBytes (r : PageRec) : List Byte :=
  let f := fun (b : Bool) (i : Nat) => if b then 2 ^ i else 0
  leBytes 8 (r.base + r.tier * 2 ^ 40 + classBits r.cls * 2 ^ 42 + f r.sealed 44 + f r.forced 45 + f r.dirty 46 + f r.recovery 47 +
      f r.lost 48 + r.slot4k * 2 ^ 49) ++
    leBytes 8 (r.lowerBase + r.lowerTier * 2 ^ 40 + f r.lowerValid 42) ++
    leBytes 4 r.ref ++ leBytes 2 r.pin ++ leBytes 1 r.part ++ leBytes 1 r.heat ++ leBytes 8 r.gen

-- Session page maps (R127, R128)

def mapKey (layer page : Nat) : Nat := layer * 65536 + page
def keyLayer (k : Nat) : Nat := k / 65536
def keyPage (k : Nat) : Nat := k % 65536

/-- Whether a map entry is a folded reference (R127). -/
def foldedRef (h : Nat) : Bool := decide (2 ^ 31 ≤ h)

/-- Pieces of 4 KiB that a map takes (R128): the root, the units of its chunk tables, eight to a unit, and its chunks. A map that names
no page takes none (log 71). -/
def Session.pieces (x : Session) : List Nat :=
  if x.map.isEmpty then []
  else tkeys (x.map.foldl (fun (t : Table Nat) e => tset (tset t (1 + keyLayer e.1 / 8) 0) (64 + 64 * keyLayer e.1 + keyPage e.1 / 1024) 0) [(0, 0)])

/-- Layers in which a map names a page. -/
def Session.mapLayers (x : Session) : List Nat := tkeys (x.map.foldl (fun (t : Table Nat) e => tset t (keyLayer e.1) 0) [])

/-- 4 KiB units of a cold map (R131): root, chunk tables and chunks, then `n` records. -/
def Session.coldUnits (x : Session) (n : Nat) : Nat :=
  cdiv (4096 + 512 * x.mapLayers.length + 4096 * (x.pieces.filter fun p => decide (64 ≤ p)).length + 32 * n) 4096

/-- PAGE_ROOT (R128): the address of the root, and the tier of the map; 0 where there is no map (log 4). -/
def Session.pageRoot (x : Session) : Nat :=
  if x.foldTier = 0 then 4096 * (tget x.mapAt 0).getD 0 else 4096 * x.coldAt.1 + x.foldTier * 2 ^ 52

/-- Byte addresses of a map's chunk table and of a chunk, 0 where it has none: in T0 the pieces' own, in a cold map behind the root, tables
first, each in layer order (log 71). -/
def Session.tableAt (x : Session) (layer : Nat) : Nat :=
  if x.foldTier = 0 then ((tget x.mapAt (1 + layer / 8)).map fun u => 4096 * u + 512 * (layer % 8)).getD 0
  else 4096 * x.coldAt.1 + 4096 + 512 * (x.mapLayers.idxOf layer)
def Session.chunkAt (x : Session) (layer c : Nat) : Nat :=
  let chunks := x.pieces.filter fun p => decide (64 ≤ p)
  if !chunks.contains (64 + 64 * layer + c) then 0
  else if x.foldTier = 0 then 4096 * (tget x.mapAt (64 + 64 * layer + c)).getD 0
  else 4096 * x.coldAt.1 + 4096 + 512 * x.mapLayers.length + 4096 * chunks.idxOf (64 + 64 * layer + c)

/-- The bytes of a map's root, of a chunk table and of a chunk (R128). -/
def Session.rootBytes (x : Session) : List Byte :=
  ((List.range 256).map fun l =>
    let n := (x.map.filter fun e => keyLayer e.1 == l).length
    leBytes 8 (if n = 0 then 0 else x.tableAt l) ++ leBytes 4 n ++ zeros 4).flatten
def Session.tableBytes (x : Session) (layer : Nat) : List Byte := ((List.range 64).map fun c => leBytes 8 (x.chunkAt layer c)).flatten
def Session.chunkBytes (x : Session) (layer c : Nat) : List Byte :=
  ((List.range 1024).map fun j => leBytes 4 ((tget x.map (mapKey layer (1024 * c + j))).getD 0)).flatten

/-- The bytes of a resident map's piece. -/
def Session.pieceBytes (x : Session) (p : Nat) : List Byte :=
  if p = 0 then x.rootBytes
  else if p < 64 then ((List.range 8).map fun l =>
    if x.mapLayers.contains (8 * (p - 1) + l) then x.tableBytes (8 * (p - 1) + l) else zeros 512).flatten
  else x.chunkBytes ((p - 64) / 64) ((p - 64) % 64)

/-- The bytes of a cold map (R131): the map, then the records in the order of their index. -/
def Session.coldBytes (x : Session) : List Byte :=
  x.rootBytes ++ (x.mapLayers.map x.tableBytes).flatten ++
    ((x.pieces.filter fun p => decide (64 ≤ p)).map fun p => x.chunkBytes ((p - 64) / 64) ((p - 64) % 64)).flatten ++
    (x.folded.map recBytes).flatten

-- Slots (08 R253-R256)

/-- Slots, as (base, units), that a record holds in a tier. -/
def PageRec.slotsIn (r : PageRec) (k : Nat) : List (Nat × Nat) :=
  (if r.tier = k then [(r.base, r.slot4k)] else []) ++ (if r.lowerValid && r.lowerTier == k then [(r.lowerBase, r.slot4k)] else [])

/-- The slots that a partition holds in a tier: of records, of records folded into sessions and columns, and the
destinations of moves in progress. -/
def slotsOf (s : State) (n k : Nat) : List (Nat × Nat) :=
  let own := fun (l : List PageRec) => (l.filter fun r => r.part == n).map fun r => r.slotsIn k
  (own (tvals s.tmg.records)).flatten ++ ((tvals s.ssq.sessions).map fun x => (own x.folded).flatten).flatten ++
    ((tvals s.pme.columns).map fun x => (own x.folded).flatten).flatten ++
    (s.tmg.moves.filter fun m => m.tier == k && !m.onto && ((s.rec? m.handle).map (·.part)) == some n).map fun m => (m.base, m.slot4k)

/-- What session maps, cold maps and the cold index hold in a tier (R128, R131, 07 R236), as (base, units). -/
def mapSlots (s : State) (n k : Nat) : List (Nat × Nat) :=
  ((tvals s.ssq.sessions).map fun x =>
    if x.part ≠ n then [] else if x.foldTier = 0 then (if k = 0 then (tvals x.mapAt).map fun u => (u, 1) else [])
    else if x.foldTier = k then [x.coldAt] else []).flatten ++
  (if k = 1 ∧ s.getF Reg.pmeColdCapBuckets ≠ 0 then
    [(s.getF Reg.pmeColdBase / 4096, cdiv (256 * (s.getF Reg.pmeColdCapBuckets + s.getF Reg.pmeColdCapFree)) 4096)] else [])

/-- Bytes of a column (07 R210). -/
def Column.size (c : Column) : Nat := 64 * cdiv (192 + 4 * c.handles.length) 64

/-- Units that the columns of a partition take in T0, or folded in T1 (08 R250; log 71). -/
def columnUnits (s : State) (n k : Nat) : Nat :=
  if 1 < k then 0
  else cdiv ((s.pme.columns.filter fun c => c.2.part == n && (decide (2 ^ 31 ≤ c.1) == (k == 1))).map (·.2.size)).sum 4096

/-- Units withdrawn from a tier (14 R454), which no slot takes. -/
def withdrawnIn (s : State) (k : Nat) : List (Nat × Nat) := (s.frc.withdrawn.filter (·.1 == k)).map fun u => (u.2, 1)

/-- USED_Tk (R256). -/
def usedSlots (s : State) (n k : Nat) : Nat := (slotsOf s n k).length

/-- Insert by base. -/
def slotInsert (x : Nat × Nat) : List (Nat × Nat) → List (Nat × Nat)
  | [] => [x]
  | y :: l => if x.1 ≤ y.1 then x :: y :: l else y :: slotInsert x l

/-- The lowest gap of a size in [at_, top), slots in order of base. -/
def gapFrom (units top : Nat) : Nat → List (Nat × Nat) → Option Nat
  | at_, [] => if at_ + units ≤ top then some at_ else none
  | at_, (b, n) :: l => if b < at_ then gapFrom units top (max at_ (b + n)) l
      else if at_ + units ≤ b then (if at_ + units ≤ top then some at_ else none) else gapFrom units top (b + n) l

def gapIn (slots : List (Nat × Nat)) (lo top units : Nat) : Option Nat :=
  gapFrom units top lo ((slots.filter fun x => decide (lo ≤ x.1) && decide (x.1 < top)).foldl (fun l x => slotInsert x l) [])

/-- 4 KiB units of the page part of a partition's tier-k extent, over the eight parts for T0 (R255), less those withdrawn (14 R454). -/
def pagePart (s : State) (n k : Nat) : Nat := s.getF (Reg.tmgPbPage4k n k)

/-- The areas that R260 sums: weight windows and tail images. -/
def Area.inCheck (a : Area) : Bool := match a.owner with
  | .window _ => true
  | .tailImage _ => true
  | .resident _ => false
  | .excess _ _ _ => false

/-- Units of T0 that a partition's weight windows and tail images hold (06 R183, 08 R260), and with resident weights and the adapters' excess
(R272, R273). -/
def areaUnits (s : State) (n : Nat) : Nat := ((s.tmg.areas.filter fun a => a.part == n && a.inCheck).map (·.units)).sum
def allAreas (s : State) (n : Nat) : Nat := ((s.tmg.areas.filter fun a => a.part == n).map (·.units)).sum

/-- Units of a tier's page part that a partition has allocated: slots, maps, columns, areas (06 R185, 08 R250). -/
def takenUnits (s : State) (n k : Nat) : Nat :=
  ((slotsOf s n k ++ (mapSlots s n k).filter fun m => inPart s n k m.1 false).map (·.2)).sum + columnUnits s n k + (if k = 0 then allAreas s n else 0)

/-- Free units in a row in the page part of partition n's tier k (R250). T0 takes the first stack from `start` that holds them. -/
def allocUnits (s : State) (n k units start : Nat) : Option Nat :=
  if k = 3 ∧ s.flag (Reg.tmgTierCapDegraded 3) then none
  else if pagePart s n k < takenUnits s n k + units then none
  else
    let base := s.getF (Reg.mgcPbExtentBase4k n k)
    let size := s.getF (Reg.mgcPbExtentPage4k n k)
    let held := slotsOf s n k ++ mapSlots s n k ++ withdrawnIn s k
    if k = 0 then ((List.range 8).map fun i => (start + i) % 8).findSome? fun st =>
      gapIn held (st * stackUnits + base) (st * stackUnits + base + size) units
    else gapIn held base (base + size) units

/-- A slot for partition n in tier k (R253, R256): none if the quota or the page part does not allow it. -/
def allocSlot (s : State) (n k units start : Nat) : Option Nat :=
  let quota := s.getF (Reg.tmgPbQuotaTk n k)
  if quota ≠ 0 ∧ quota ≤ usedSlots s n k then none else allocUnits s n k units start

/-- R_c: LBAs of every drive that belong to the capsule area (14 R467). -/
def capsuleRc (s : State) : Nat :=
  let u := s.getF Reg.frcCapsuleUnits4k
  if u = 0 then 0 else 1 + cdiv u (max 1 s.frc.labels.length)

/-- Deallocate the units of a T3 slot (R253, R287). -/
def t3Release (base units : Nat) (s : State) : State :=
  let d := s.tmg.t3Drives
  let rc := capsuleRc s
  if d.isEmpty then s
  else (List.range d.length).foldl (fun s i =>
    let mine := (List.range units).filter fun j => (base + j) % d.length == i
    match mine with
    | [] => s
    | j :: _ =>
      let drive := d.getD i 0
      if s.flag (Reg.nvcDriveReady drive) = false then s
      else (s.emit (.driveDealloc drive (rc + (base + j) / d.length) mine.length)).bumpBy (Ctr.nvcDeallocatedUnits drive) mine.length) s

/-- What releasing a slot does beside making it free. -/
def releaseSlot (tier base units : Nat) (s : State) : State := if tier = 3 then t3Release base units s else s

-- The expander of a page (01 R26, 08 R253)

/-- The expander that decodes a slot: the page slot of its controller, the BAR0 offset of its registers, of its counters,
and its instance. -/
def expanderOf (s : State) (tier base : Nat) : Nat × Nat × Nat × Nat :=
  if tier = 0 then
    let k := base / stackUnits % 8
    ((pHbc + k), (pHbc + k) * 0x10000 + 0x0F00, (pHbc + k) * 0x10000 + 0xBF00, k)
  else if tier = 1 then
    let c := base % 16
    (pDdc, pDdc * 0x10000 + 0x0E00 + c * 0x10, pDdc * 0x10000 + 0xBC00 + c * 0x40, c)
  else if tier = 2 then
    let i := if s.flag (Reg.cxdPortSingle 0) then 0 else if s.flag (Reg.cxdPortSingle 1) then 1 else base % 2
    (pCxd + i, (pCxd + i) * 0x10000 + 0x0F00, (pCxd + i) * 0x10000 + 0xBF00, i)
  else
    let k := driveOf s base
    (pNvc + k, (pNvc + k) * 0x10000 + 0x0F00, (pNvc + k) * 0x10000 + 0xBF00, k)

-- Records (R127, R130, R132)

/-- Records that a partition holds. -/
def dirUsed (s : State) (n : Nat) : Nat := (s.tmg.records.filter fun r => r.2.part == n).length

/-- Records of the table that are free. -/
def dirFree (s : State) : Nat := s.getF Reg.tmgDirCapRecords - s.tmg.records.length

/-- A partition may take `m` more records (R132). -/
def recordsAllowed (s : State) (n m : Nat) : Bool :=
  let quota := s.getF (Reg.tmgPbDirQuota n)
  decide (m ≤ dirFree s) && (quota == 0 || decide (dirUsed s n + m ≤ quota))

/-- The handle that a new record takes: the lowest free one (DESIGN CHOICE, log 5; the spec names no order). -/
def freeHandle (s : State) : Nat :=
  ((List.range (s.tmg.records.length + 1)).find? fun i => (s.rec? (i + 1)).isNone).getD 0 + 1

/-- Take the next generation (R130). -/
def takeGen (s : State) : Nat × State :=
  let g := s.getF Reg.tmgGenNextValue
  (g, s.setF Reg.tmgGenNextValue (g + 1))

/-- Enter a record under a new handle. -/
def addRec (r : PageRec) (s : State) : Nat × State := let h := freeHandle s; (h, putRec h r s)

/-- Bytes of a slot, and writing them. -/
def slotBytes (s : State) (tier base units : Nat) : List Byte := memRead (s.tier tier) (base * 4096) (units * 4096)
def pageBytes (s : State) (r : PageRec) : List Byte := slotBytes s r.tier r.base r.slot4k
def putSlot (tier base : Nat) (b : List Byte) (s : State) : State := s.setTier tier (memWrite (s.tier tier) (base * 4096) b)

/-- The 512-byte units of a slot whose tag will fail, in a protected partition (13 R431). -/
def slotBad (s : State) (n k base units : Nat) : List Nat :=
  if k = 0 ∨ s.isProtected n = false then []
  else (s.sec.badUnits.filter fun u => u.1 == k && decide (base * 8 ≤ u.2) && decide (u.2 < (base + units) * 8)).map (·.2)

/-- New contents of a slot bring their own tags: those that `bad` gives, as units within the slot, will fail. -/
def setTags (k base units : Nat) (bad : List Nat) (s : State) : State :=
  { s with sec := { s.sec with badUnits := (s.sec.badUnits.filter fun u => !(u.1 == k && decide (base * 8 ≤ u.2) && decide (u.2 < (base + units) * 8))) ++
      (bad.map fun j => (k, base * 8 + j)) } }
def writeSlot (tier base : Nat) (b : List Byte) (s : State) : State := setTags tier base (cdiv b.length 4096) [] (putSlot tier base b s)

/-- Copy a slot raw, with its tags where it stays below T0 (R261, 13 R429). -/
def copySlot (t0 b0 t1 b1 units : Nat) (s : State) : State :=
  let bad := if t0 = 0 ∨ t1 = 0 then []
    else ((s.sec.badUnits.filter fun u => u.1 == t0 && decide (b0 * 8 ≤ u.2) && decide (u.2 < (b0 + units) * 8)).map fun u => u.2 - b0 * 8)
  setTags t1 b1 units bad (putSlot t1 b1 (slotBytes s t0 b0 units) s)

-- Moves (08 R261, R264, 04 R136)

/-- The move of a page in flight, if any. -/
def moveOf (s : State) (h : Nat) : Option Move := s.tmg.moves.find? (·.handle == h)

def dropMove (h : Nat) (s : State) : State := { s with tmg := { s.tmg with moves := s.tmg.moves.filter fun m => m.handle != h } }

/-- Repoint a page onto its lower copy, the old slot released (R261); a page that has changed meanwhile has none (R262) and stays. -/
def repointOnto (m : Move) (r : PageRec) (s : State) : State :=
  let s := dropMove m.handle s
  if r.lowerValid && r.lowerTier == m.tier && r.lowerBase == m.base then
    putRec m.handle { r with pin := r.pin - 1, base := r.lowerBase, tier := r.lowerTier, lowerValid := false, lowerBase := 0, lowerTier := 0 }
      (releaseSlot r.tier r.base r.slot4k s)
  else putRec m.handle { r with pin := r.pin - 1 } s

/-- Repoint a page to a move's slot, its own pin released (R261). -/
def repoint (m : Move) (r : PageRec) (s : State) : State :=
  if m.onto then repointOnto m r s
  else
    let s := dropMove m.handle (copySlot r.tier r.base m.tier m.base r.slot4k s)
    let r' := { r with pin := r.pin - 1, base := m.base, tier := m.tier }
    if m.why = .cleanAhead then
      putRec m.handle { r with pin := r.pin - 1, lowerBase := m.base, lowerTier := m.tier, lowerValid := true, dirty := false } s
    else if m.tier < r.tier then
      if r.sealed && !r.dirty then
        let s := if r.lowerValid then releaseSlot r.lowerTier r.lowerBase r.slot4k s else s
        putRec m.handle { r' with lowerBase := r.base, lowerTier := r.tier, lowerValid := true } s
      else putRec m.handle r' (releaseSlot r.tier r.base r.slot4k s)
    else
      let s := releaseSlot r.tier r.base r.slot4k s
      if r.lowerValid && decide (m.tier < r.lowerTier) then putRec m.handle r' s
      else
        let s := if r.lowerValid then releaseSlot r.lowerTier r.lowerBase r.slot4k s else s
        putRec m.handle { r' with lowerValid := false, lowerBase := 0, lowerTier := 0, dirty := r.dirty && !r.sealed } s

/-- The session INDEX that R253 uses for a page: the lowest session whose map names it, else the handle. -/
def stackIndex (s : State) (h : Nat) : Nat :=
  ((s.ssq.sessions.find? fun x => x.2.map.any fun e => e.2 == h).map (·.1)).getD h

/-- Hand a slot that is given up to the targeted self-test of its row (R142, 14 R453); tiers without row tests are skipped. -/
def handToTest (tier base : Nat) (s : State) : State :=
  let slot := (expanderOf s tier base).1
  if 2 ≤ tier then s
  else
    let u : Resource := ⟨slot, 1, base⟩
    if underTest s u || isRetired s u then s
    else (s.setFrc { s.frc with tests := s.frc.tests ++ [({ unit := u } : SelfTest)] }).bump Ctr.frcSelftestsRun

/-- Write a verified copy into a slot, repoint BASE, clear RECOVERY, and hand the old slot to self-test (R142). -/
def recoverInto (h : Nat) (r : PageRec) (b : List Byte) (tier base : Nat) (s : State) : State :=
  let s := writeSlot tier base b (handToTest r.tier r.base (releaseSlot r.tier r.base r.slot4k s))
  let s := { s with tmg := { s.tmg with recWaits := s.tmg.recWaits.filter (· != h) } }
  (putRec h { r with base := base, tier := tier, recovery := false } s).bump Ctr.tmgRecoveriesOk

/-- The page's tier, or the next deeper one, that has a slot for a page in recovery (R142, 08 R277). -/
def recoverySlot (s : State) (h : Nat) (r : PageRec) : Option (Nat × Nat) :=
  ((List.range 4).filter fun k => decide (r.tier ≤ k)).findSome? fun k =>
    (allocSlot s r.part k r.slot4k ((r.layer + r.page + stackIndex s h) % 8)).map fun b => (k, b)

/-- The pages of a partition that wait in recovery with a verified copy try for a slot, one after another. -/
def retryOnce (n : Nat) (s : State) : State :=
  s.tmg.recWaits.foldl (fun s h =>
    match s.rec? h with
    | none => s
    | some r =>
      if r.part ≠ n ∨ !r.recovery then s
      else match recoverySlot s h r with
        | some (k, x) => recoverInto h r (slotBytes s r.tier r.base r.slot4k) k x s
        | none => s) s

/-- As long as one found a slot, which released its old one. -/
def retryFuel (n : Nat) : Nat → State → State
  | 0, s => s
  | k + 1, s => let t := retryOnce n s; if t.tmg.recWaits = s.tmg.recWaits then t else retryFuel n k t

/-- A slot of a partition has been released: its pages that wait in recovery with a verified copy try again (R142). -/
def retryRecovery (n : Nat) (s : State) : State := retryFuel n (s.tmg.recWaits.length) s

/-- Release a record (R134): slot, lower copy and handle. -/
def freeRec (h : Nat) (r : PageRec) (s : State) : State :=
  let s := releaseSlot r.tier r.base r.slot4k s
  let s := if r.lowerValid then releaseSlot r.lowerTier r.lowerBase r.slot4k s else s
  retryRecovery r.part { s with tmg := { s.tmg with records := tdel s.tmg.records h, recWaits := s.tmg.recWaits.filter (· != h) } }

/-- Release a record that neither a reference nor a pin holds (R134); else repoint it if its move waits for its own pin alone (R136). -/
def settleRec (h : Nat) (s : State) : State :=
  match s.rec? h with
  | none => s
  | some r =>
    if r.ref = 0 ∧ r.pin = 0 then freeRec h r s
    else
      match moveOf s h with
      | some m => if m.done && decide (r.pin = 1) then
          let s := repoint m r s
          match s.rec? h with
          | some r => if r.ref = 0 ∧ r.pin = 0 then freeRec h r s else retryRecovery r.part s
          | none => s
        else s
      | none => s

/-- A count would pass below zero (R135): the record stays, and the partition has an error of class PARTITION; its turns end as a drain ends
them (log 73). -/
def refFault (h : Nat) (r : PageRec) (s : State) : State :=
  let s := raiseErr { slot := pTmg, ev := .tmgRefFault, cls := .partition, part := r.part, resource := h } s
  let s := if s.pstate r.part = psActive then setPstate r.part psDraining s else s
  { s with ssq := { s.ssq with turns := s.ssq.turns.map fun t => if t.part = r.part then { t with drain := true } else t } }

/-- Drop a reference. -/
def dropRef (h : Nat) (s : State) : State :=
  match s.rec? h with
  | none => s
  | some r => if r.ref = 0 then refFault h r s else settleRec h (putRec h { r with ref := r.ref - 1 } s)

/-- Take a reference; none at the limit of R135. -/
def addRef (h : Nat) (s : State) : Option State :=
  match s.rec? h with
  | some r => if 2 ^ 32 - 1 ≤ r.ref then none else some (putRec h { r with ref := r.ref + 1 } s)
  | none => none

/-- Grant a pin (R133, R142, 08 R265): none while the page is in recovery or lost, and at the limit. -/
def addPin (h : Nat) (s : State) : Option State :=
  match s.rec? h with
  | some r =>
    if r.recovery ∨ r.lost ∨ 65535 ≤ r.pin then none
    else some { (putRec h { r with pin := r.pin + 1, heat := min 255 (r.heat + 1) } s) with
                tmg := { (putRec h { r with pin := r.pin + 1, heat := min 255 (r.heat + 1) } s).tmg with pinCount := s.tmg.pinCount + 1 } }
  | none => none

/-- Release a pin. -/
def dropPin (h : Nat) (s : State) : State :=
  match s.rec? h with
  | none => s
  | some r => if r.pin = 0 then refFault h r s else settleRec h (putRec h { r with pin := r.pin - 1 } s)

/-- A move of a page that meets another in flight waits for it (R264), unless that one brings the page itself to the same tier, which a
clean-ahead copy does not. -/
def deferMove (h tier : Nat) (why : MoveWhy) (s : State) : State :=
  if s.tmg.deferred.contains (h, tier, why) || (why != .withdraw && (moveOf s h).any fun m => m.tier == tier && m.why != .cleanAhead) then s
  else s.setTmg { s.tmg with deferred := s.tmg.deferred ++ [(h, tier, why)] }

/-- Enter a move, its own pin granted (R133). -/
def enterMove (m : Move) (s : State) : State :=
  match addPin m.handle s with
  | none => s
  | some s => s.setTmg { s.tmg with moves := s.tmg.moves ++ [m] }

/-- Start a move of a page to a tier (R261, R264; for a withdrawal of units also within its tier). A move onto the lower copy needs no
transfer: it repoints at once, or, while pins are held, at the first release that leaves its own pin alone (R136). none: no slot. A page
that is in recovery or lost is left alone. -/
def startMove (h tier : Nat) (why : MoveWhy) (s : State) : Option State :=
  match s.rec? h with
  | none => some s
  | some r =>
    if r.recovery ∨ r.lost then some s
    else if (moveOf s h).isSome then some (deferMove h tier why s)
    else if r.tier = tier ∧ why ≠ .withdraw then some s
    else if why ≠ .cleanAhead ∧ r.tier < tier ∧ r.lowerValid ∧ r.lowerTier = tier then
      some (settleRec h (enterMove { handle := h, tier := tier, base := r.lowerBase, slot4k := r.slot4k, why := why, done := true, onto := true } s))
    else
      (allocSlot s r.part tier r.slot4k ((r.layer + r.page + stackIndex s h) % 8)).map fun b =>
        enterMove { handle := h, tier := tier, base := b, slot4k := r.slot4k, why := why } s

/-- A transfer is done (R136): repoint once the move's pin is the only one. -/
def moveDone (h : Nat) (s : State) : State :=
  settleRec h { s with tmg := { s.tmg with moves := s.tmg.moves.map fun m => if m.handle = h then { m with done := true } else m } }

/-- Abandon a move (R282): its slot is released, its pin dropped. -/
def abandonMove (h : Nat) (s : State) : State :=
  match moveOf s h with
  | none => s
  | some m =>
    let s := dropPin h (dropMove h (if m.onto then s else releaseSlot m.tier m.base m.slot4k s))
    ((s.rec? h).map fun r => retryRecovery r.part s).getD s

-- Writes to a page (R118, 08 R262)

/-- A page's bytes change (R262): DIRTY, and any lower copy is released. -/
def pageChanged (h : Nat) (s : State) : State :=
  match s.rec? h with
  | none => s
  | some r =>
    if r.lowerValid then
      retryRecovery r.part (putRec h { r with dirty := true, lowerValid := false, lowerBase := 0, lowerTier := 0 } (releaseSlot r.lowerTier r.lowerBase r.slot4k s))
    else putRec h { r with dirty := true, lowerValid := false, lowerBase := 0, lowerTier := 0 } s

/-- A page receives a new generation, at an append commit and at a seal (R130). -/
def newGen (h : Nat) (s : State) : State := let (g, s) := takeGen s; modRec h (fun r => { r with gen := g }) s

/-- Overwrite bytes of a page's slot. -/
def writePage (h off : Nat) (b : List Byte) (s : State) : State :=
  match s.rec? h with
  | some r => s.setTier r.tier (memWrite (s.tier r.tier) (r.base * 4096 + off) b)
  | none => s

-- Session maps (R128)

/-- The page handle of a session's page. -/
def Session.page (x : Session) (layer page : Nat) : Option Nat := tget x.map (mapKey layer page)

/-- The handles of a session's resident pages. -/
def Session.handles (x : Session) : List Nat := (tvals x.map).filter fun h => !foldedRef h

def putSession (i : Nat) (x : Session) (s : State) : State := { s with ssq := { s.ssq with sessions := tset s.ssq.sessions i x } }
def modSession (i : Nat) (f : Session → Session) (s : State) : State := { s with ssq := { s.ssq with sessions := tmod s.ssq.sessions i f } }

/-- Bring the pieces of a resident map in T0 in step with what it names (R128): pieces without a page are released, new ones placed. One
for which the page part has no room is placed at the map's next change (log 71). -/
def placeMap (i : Nat) (s : State) : State :=
  match tget s.ssq.sessions i with
  | none => s
  | some x =>
    if x.foldTier ≠ 0 then s
    else
      let need := x.pieces
      let kept := x.mapAt.filter fun p => need.contains p.1
      (need.filter fun p => (tget kept p).isNone).foldl (fun s p =>
        match allocUnits s x.part 0 1 (i % 8) with
        | some u => modSession i (fun y => { y with mapAt := tset y.mapAt p u }) s
        | none => s) (putSession i { x with mapAt := kept } s)

/-- Drop a session's page references and its folded pages: the KV is released (02 R44), and with it the map; PAGE_ROOT reads 0 until pages
are named again (log 4). -/
def releaseKv (i : Nat) (s : State) : State :=
  match tget s.ssq.sessions i with
  | none => s
  | some x =>
    let s := if x.foldTier = 0 then s else releaseSlot x.foldTier x.coldAt.1 x.coldAt.2 s
    let s := putSession i { x with map := [], mapAt := [], folded := [], foldTier := 0, coldAt := (0, 0) } s
    let s := x.folded.foldl (fun s r =>
      let s := releaseSlot r.tier r.base r.slot4k s
      if r.lowerValid then releaseSlot r.lowerTier r.lowerBase r.slot4k s else s) s
    retryRecovery x.part (x.handles.foldl (fun s h => dropRef h s) s)

/-- The entries of a map that folding takes: every page with REF 1, which this session holds (R131). -/
def foldable (s : State) (x : Session) : List (Nat × Nat) :=
  x.map.filter fun e => !foldedRef e.2 && ((s.rec? e.2).map fun r => r.ref == 1).getD false

/-- The tier, from `tier` on, that has room for a cold map, and its place (R131, 08 R277). -/
def coldPlace (s : State) (n tier units : Nat) : Option (Nat × Nat) :=
  ((List.range 4).filter fun k => decide (tier ≤ k)).findSome? fun k => (allocUnits s n k units 0).map fun b => (k, b)

/-- Fold a session into a cold map in a tier (R131): the handles of its own pages are freed, and the resident map's pieces. Without room
for the cold map in the tier or below it the map stays (log 71). -/
def foldSession (i tier : Nat) (s : State) : State :=
  match tget s.ssq.sessions i with
  | none => s
  | some x =>
    let take := foldable s x
    let recs := take.filterMap fun e => s.rec? e.2
    let units := x.coldUnits (x.folded.length + recs.length)
    match coldPlace s x.part tier units with
    | none => s
    | some (k, b) =>
      let n := x.folded.length
      let map := take.zipIdx.foldl (fun m e => tset m e.1.1 (2 ^ 31 + n + e.2)) x.map
      let s := { s with tmg := { s.tmg with records := take.foldl (fun (t : Table PageRec) (e : Nat × Nat) => tdel t e.2) s.tmg.records } }
      putSession i { x with map := map, mapAt := [], folded := x.folded ++ recs, foldTier := k, coldAt := (b, units) } (s.bumpBy Ctr.tmgPagesFolded recs.length)

/-- The tier of a session's cold map cannot be read (08 R284, R288). -/
def coldMapDown (s : State) (x : Session) : Bool := x.foldTier != 0 && !s.tierUp x.foldTier

/-- Unfold a session's map into new handles (R131); none where the records do not suffice (R132), or its tier is down. -/
def unfoldSession (i : Nat) (s : State) : Option State :=
  match tget s.ssq.sessions i with
  | none => some s
  | some x =>
    if x.foldTier = 0 then some s
    else if !recordsAllowed s x.part x.folded.length || coldMapDown s x then none
    else
      let folded := x.map.filter fun e => foldedRef e.2
      let (s, map) := folded.foldl (fun (a : State × Table Nat) e =>
        match x.folded[e.2 - 2 ^ 31]? with
        | some r =>
          let (h, s) := addRec r a.1
          (if r.recovery then s.setTmg { s.tmg with recWaits := s.tmg.recWaits ++ [h] } else s, tset a.2 e.1 h)
        | none => a) (s, x.map)
      let s := releaseSlot x.foldTier x.coldAt.1 x.coldAt.2 s
      some (retryRecovery x.part (placeMap i (putSession i { x with map := map, folded := [], foldTier := 0, coldAt := (0, 0) } s)))

-- Fresh tail pages and copy-on-write (R118, R137, R139)

/-- The target class that a profile gives a page index (R122). -/
def profileClass (profile : List (Nat × Nat)) (k : Nat) : Nat :=
  ((profile.filter fun e => decide (e.1 ≤ k)).getLast?.map (·.2)).getD 1

/-- Why an allocation failed: no record, or no slot in T0 now. -/
inductive AllocFail where
  | noRecord
  | noSlot
deriving DecidableEq, Repr

/-- Allocate a tail page in T0: FR1 layout, empty shadow, one reference (R118). -/
def newTail (n layer page target : Nat) (g : Geom) (index : Nat) (s : State) : AllocFail ⊕ (Nat × State) :=
  if !recordsAllowed s n 1 then .inl .noRecord
  else match allocSlot s n 0 (g.slot4k 1) ((layer + page + index) % 8) with
  | none => .inl .noSlot
  | some b =>
    let (gen, s) := takeGen s
    let (h, s) := addRec { base := b, tier := 0, cls := target, slot4k := g.slot4k 1, ref := 1, part := n, gen := gen, layer := layer,
                           page := page, geom := g } s
    .inr (h, writePage h 0 (hdrBytes (freshHdr g layer page 0) ++ emptyShadow ++ zeros g.scales) s)

/-- Copy a shared tail page for an append (R137): the copy, named by the appender alone. -/
def copyOnWrite (h index : Nat) (s : State) : AllocFail ⊕ (Nat × State) :=
  match s.rec? h with
  | none => .inl .noRecord
  | some r =>
    if !recordsAllowed s r.part 1 then .inl .noRecord
    else match allocSlot s r.part 0 r.slot4k ((r.layer + r.page + index) % 8) with
    | none => .inl .noSlot
    | some b =>
      let s := copySlot r.tier r.base 0 b r.slot4k s
      let (gen, s) := takeGen s
      let (h', s) := addRec { r with base := b, tier := 0, ref := 1, pin := 0, gen := gen, heat := 0, lowerValid := false, lowerBase := 0,
                                     lowerTier := 0, dirty := true, recovery := false, lost := false } s
      .inr (h', (dropRef h s).bump Ctr.tmgCopyOnWrite)

-- The expanders' checks (R124, R125)

def PageRec.facts (r : PageRec) : PageFacts :=
  { layer := r.layer, page := r.page, target := r.cls, sealed := r.sealed, forced := r.forced, slot4k := r.slot4k }

/-- Decode a copy of a page at an expander (R124, R125) for the work `who`: its counters, and on failure CORRUPT_SEEN, the event and false. Units whose tags
fail count as a failed check (13 R431); the spec gives no reason code for that, and 1 with block 0xFF is the model's (DESIGN CHOICE, log 45). -/
def expanderRead (who : Met) (h : Nat) (r : PageRec) (tier base : Nat) (s : State) : State × Bool :=
  let b := slotBytes s tier base r.slot4k
  let (slot, pg, ctr, inst) := expanderOf s tier base
  let bad := slotBad s r.part tier base r.slot4k
  let badUnit := !bad.isEmpty
  match (if badUnit then some (1, 0xFF) else expanderCheck r.geom r.facts b) with
  | some (reason, block) =>
    let s := (((s.setF (Reg.expCorruptSeen pg) 1).setF (Reg.expLastHandle pg) h).setF (Reg.expLastBlock pg) block).setF (Reg.expLastReason pg) reason
    let s := s.bump (Ctr.expPagesCorrupt ctr)
    let s := tagErrors who [(0, h)] r.part tier 1 bad s
    (raiseErr { slot := slot, inst := inst, ev := .expCorrupt, cls := .contained, part := r.part, resource := h, layer := r.layer,
                session := who.session, wheel := who.wheel, detail := [block, reason], against := [(0, h), (4, slot * 16 + inst)],
                unit := if badUnit then none else some ⟨slot, 4, if slot = pDdc then inst else 0⟩ } s, false)
  | none =>
    let cls := fieldAt b 3 1
    let n := r.geom.blocks
    let esc := fieldAt b 5 1
    let s := if cls = 1 then s.bumpBy (Ctr.expBlocksFr1 ctr) n
      else if cls = 2 then s.bumpBy (Ctr.expBlocksFr2 ctr) (n - esc) else s.bumpBy (Ctr.expBlocksFr4 ctr) (n - esc)
    ((s.bumpBy (Ctr.expEscapeRecords ctr) esc), true)

-- Folding once pages are at rest (R131)

/-- A page of a session that folding takes is at rest: no move, none that waits, no pin, not in recovery. A page that others hold too stays
resident (04 R131), and is waited for only while it moves. -/
def atRest (s : State) (h : Nat) : Bool :=
  (moveOf s h).isNone && !(s.tmg.deferred.any (·.1 == h)) && ((s.rec? h).map fun r => 1 < r.ref || (r.pin == 0 && !r.recovery)).getD true

/-- Fold a session's map once its rung's moves are done, and no page that folding takes is pinned or in recovery (04 R131; DESIGN CHOICE, log
72: the spec does not say when, against the moves, a map folds). -/
def tryFold (i : Nat) (s : State) : State :=
  match tget s.ssq.sessions i with
  | none => s
  | some x =>
    if x.foldDue = 0 ∨ x.foldTier ≠ 0 ∨ !(x.handles.all (atRest s)) then s
    else
      let s := foldSession i x.foldDue s
      modSession i (fun y => if y.foldTier = 0 then y else { y with foldDue := 0 }) s

/-- Maps whose rung's moves are all done, and whose pages no pin holds any more, fold (04 R131). -/
def foldReady (s : State) : State := (tkeys s.ssq.sessions).foldl (fun s i => tryFold i s) s

end Sys2Proof.Machine
end

