-- ==== Sys2Proof/Machine/Pme.lean ====
section
/-!
DEFINITION. Machine/Pme.lean: the prefix match engine (07): chain hashes, columns, the on-chip table with its holes and
evictions, the cold index, candidates and their verification, publication, and what happens to entries when pages and
bindings change. Commands and events over them are in PrefixRows.lean.
-/
set_option cleanup.letToHave false
namespace Sys2Proof.Machine

open Sys2Proof

def modPme (f : Pme → Pme) (s : State) : State := { s with pme := f s.pme }

-- Chain hash (R207-R209)

/-- SHAKE256 of a page's message: chain hash and wide tag. `lo` and `hi` are the partition's salt. -/
def pageHash (prev : Nat) (toks : List Nat) (d : PrefixId) (lo hi : Nat) : Nat × Nat :=
  let h := shake256 (leBytes 8 prev ++ ((toks.map (leBytes 4)).flatten) ++ leBytes 8 d.binding ++ leBytes 4 d.adapter ++ leBytes 4 d.adapterVer ++
    leBytes 4 d.profile ++ leBytes 2 d.contract ++ leBytes 8 lo ++ leBytes 8 hi) 16
  (if fieldAt h 0 8 = 0 then 1 else fieldAt h 0 8, fieldAt h 8 8)

/-- Chain hashes and wide tags of the first `n` pages. -/
def chainHashes (d : PrefixId) (lo hi : Nat) : Nat → Nat → List Nat → List (Nat × Nat)
  | 0, _, _ => []
  | n + 1, prev, toks =>
    let h := pageHash prev (toks.take 32) d lo hi
    h :: chainHashes d lo hi n h.1 (toks.drop 32)

/-- The hashes of a token sequence of a partition. -/
def hashesOf (s : State) (n : Nat) (d : PrefixId) (toks : List Nat) : List (Nat × Nat) :=
  chainHashes d (s.getF (Reg.pmePbSaltLo n)) (s.getF (Reg.pmePbSaltHi n)) (toks.length / 32) 0 toks

/-- The identity fields of a session (R207). -/
def Session.ident (x : Session) : PrefixId :=
  { binding := x.model, adapter := x.adapter, adapterVer := if x.adapter = 0 then 0 else x.adapterVer, profile := x.profileId, contract := x.contract }

/-- OWNER of a column for a session handle (R210): INDEX, and INCARNATION bits [9:0]. -/
def ownerWord (h : Nat) : Nat := h % 2 ^ 22 + h / 2 ^ 26 % 1024 * 2 ^ 22

/-- An OWNER that names a live session. -/
def liveOwner (s : State) (o : Nat) : Bool := ((tget s.ssq.sessions (o % 2 ^ 22)).map fun x => ownerWord x.handle) == some o

-- Table geometry (R213, R215)

/-- The set of an anchor, and the bank of a set. -/
def setOfAnchor (a : Nat) : Nat := a % 16384
def bankOfSet (set : Nat) : Nat := set / 1024

/-- This device's HOME: its cascade position, 0 outside a cascade (R214). -/
def ownHome (s : State) : Nat := if s.getF Reg.pmeCascadeMode = 0 then 0 else s.getF Reg.pmeCascadePosition

/-- A sled lookup goes to the members only while the device is one of several and not isolated (R242). -/
def inSled (s : State) : Bool :=
  s.getF Reg.pmeCascadeMode != 0 && decide (1 < s.getF Reg.pmeCascadeMembers) && !s.flag Reg.pmeCascadeIsolated

/-- A bank in service (R225). -/
def bankOk (s : State) (set : Nat) : Bool := bit (s.getF Reg.pmeGeomBanksOk) (bankOfSet set)

end Sys2Proof.Machine

namespace Sys2Proof

/-- The sort order of R215. -/
def PmeEntry.before (a b : PmeEntry) : Bool :=
  decide (b.page < a.page) || (a.page == b.page && (decide (a.home < b.home) || (a.home == b.home && decide (a.column < b.column))))

end Sys2Proof

namespace Sys2Proof.Machine

open Sys2Proof

/-- The 128 ways of a set, and writing them. -/
def readSet (s : State) (set : Nat) : List (Option PmeEntry) := (List.range 128).map fun w => tget s.pme.entries (set * 128 + w)
def writeSet (set : Nat) (l : List (Option PmeEntry)) (s : State) : State :=
  modPme (fun p => { p with entries := (List.range 128).foldl (fun t w =>
    match l.getD w none with
    | some e => tset t (set * 128 + w) e
    | none => tdel t (set * 128 + w)) p.entries }) s

/-- Ways that satisfy a test, in order. -/
def waysWhere (p : Option PmeEntry → Bool) (l : List (Option PmeEntry)) : List Nat := (List.range l.length).filter fun w => p (l.getD w none)

/-- Insert into one group of ways (R216 steps 3 and 4): entries between the insertion point and the nearest hole move one way
toward the hole. Of several holes the nearest is taken, upward on a tie (DESIGN CHOICE, log 75: the spec says "the group's hole"). A group
without a hole stays as it is. -/
def groupInsert (e : PmeEntry) (g : List (Option PmeEntry)) : List (Option PmeEntry) :=
  let n := g.length
  let p := ((waysWhere (fun x => (x.map e.before).getD false) g).head?).getD n
  let holes := waysWhere (·.isNone) g
  let up := (holes.filter fun h => decide (p ≤ h)).head?
  let down := (holes.filter fun h => decide (h < p)).getLast?
  let goUp := fun h => (List.range n).map fun w => if w < p ∨ h < w then g.getD w none else if w = p then some e else g.getD (w - 1) none
  let goDown := fun h => (List.range n).map fun w => if w < h ∨ p ≤ w then g.getD w none else if w + 1 = p then some e else g.getD (w + 1) none
  match up, down with
  | some h, some k => if p - 1 - k < h - p then goDown k else goUp h
  | some h, none => goUp h
  | none, some k => goDown k
  | none, none => g

/-- The target group (R216 step 2). -/
def targetGroup (e : PmeEntry) (l : List (Option PmeEntry)) : Nat :=
  match (waysWhere (fun x => (x.map e.before).getD false) l).head? with
  | some w => w / 8
  | none => (((waysWhere (·.isSome) l).getLast?).map (· / 8)).getD 0

/-- Group `j` of a set, and replacing it. -/
def groupOf (l : List (Option PmeEntry)) (j : Nat) : List (Option PmeEntry) := (l.drop (8 * j)).take 8
def putGroup (l : List (Option PmeEntry)) (j : Nat) (g : List (Option PmeEntry)) : List (Option PmeEntry) := l.take (8 * j) ++ g ++ l.drop (8 * j + 8)
def holesIn (g : List (Option PmeEntry)) : Nat := (waysWhere (·.isNone) g).length

def setInsert (e : PmeEntry) (l : List (Option PmeEntry)) : List (Option PmeEntry) :=
  let t := targetGroup e l
  putGroup l t (groupInsert e (groupOf l t))

/-- One move of hole maintenance (R217): from the group without a hole toward the nearest group with two, forward on ties. -/
def holeMove (l : List (Option PmeEntry)) : Option (List (Option PmeEntry)) :=
  match (List.range 16).find? fun j => holesIn (groupOf l j) == 0 with
  | none => none
  | some g =>
    let fwd := (List.range 16).find? fun j => decide (g < j) && decide (2 ≤ holesIn (groupOf l j))
    let bwd := ((List.range 16).filter fun j => decide (j < g) && decide (2 ≤ holesIn (groupOf l j))).getLast?
    let forward := match fwd, bwd with
      | some f, some b => some (decide (f - g ≤ g - b))
      | some _, none => some true
      | none, some _ => some false
      | none, none => none
    let src := groupOf l g
    match forward with
    | none => none
    | some true =>
      ((waysWhere (·.isSome) src).getLast?).bind fun w => (src.getD w none).map fun e =>
        let l := putGroup l g (src.set w none)
        putGroup l (g + 1) (groupInsert e (groupOf l (g + 1)))
    | some false =>
      ((waysWhere (·.isSome) src).head?).bind fun w => (src.getD w none).map fun e =>
        let l := putGroup l g (src.set w none)
        putGroup l (g - 1) (groupInsert e (groupOf l (g - 1)))

/-- Hole maintenance to its end: the set and the moves made. A move shortens the way to the target, so 16 suffice. -/
def holeMaintain : Nat → List (Option PmeEntry) → List (Option PmeEntry) × Nat
  | 0, l => (l, 0)
  | n + 1, l =>
    match holeMove l with
    | none => (l, 0)
    | some l' => let r := holeMaintain n l'; (r.1, r.2 + 1)

/-- Moves across the boundary to the next member (R240): from group `j` on, the last entry of each group becomes the first of the next one,
and that of group 15 leaves. The set, the entry that leaves, and the moves made. -/
def crossMoves : Nat → Nat → Option PmeEntry → List (Option PmeEntry) → List (Option PmeEntry) × Option PmeEntry × Nat
  | 0, _, carry, l => (l, carry, 0)
  | n + 1, j, carry, l =>
    let src := groupOf l j
    match ((waysWhere (·.isSome) src).getLast?).bind fun w => (src.getD w none).map fun e => (w, e) with
    | none => (l, carry, 0)
    | some (w, e) =>
      let kept := src.set w none
      let r := crossMoves n (j + 1) (some e) (putGroup l j ((carry.map (groupInsert · kept)).getD kept))
      (r.1, r.2.1, r.2.2 + 1)

/-- The group without a hole from which hole maintenance goes forward across the boundary (R217, R240): the nearest group with two holes
lies `d` groups beyond the own set's last one, 0 for none. -/
def crossFrom (d : Nat) (l : List (Option PmeEntry)) : Option Nat :=
  ((List.range 16).find? fun j => holesIn (groupOf l j) == 0).filter fun g =>
    decide (0 < d) && (List.range 16).all fun j => holesIn (groupOf l j) < 2 || decide (15 - g + d < if g < j then j - g else g - j + 1)

-- Columns (R210-R212)

/-- The bytes of a column (R210): `i` is its index. A column whose CHECK fails is one that an error named; its bytes are those written. -/
def Column.bytes (i : Nat) (c : Column) : List Byte :=
  let head := leBytes 8 c.tag ++ leBytes 8 c.parentTag ++ leBytes 8 c.tagHi ++ leBytes 8 c.content ++ leBytes 8 c.gen ++ leBytes 4 c.parentCol ++
    leBytes 2 c.page ++ leBytes 2 c.handles.length ++ leBytes 1 c.part ++
    leBytes 1 ((if c.priv then 1 else 0) + (if c.dead then 2 else 0) + (if 2 ^ 31 ≤ i then 4 else 0)) ++ zeros 2 ++ leBytes 4 c.owner ++ leBytes 4 c.holders
  let body := (c.shadow.map (leBytes 4)).flatten ++ (c.handles.map (leBytes 4)).flatten
  let tail := body ++ zeros (c.size - 64 - body.length)
  head ++ shake256 (head ++ tail) 4 ++ tail

/-- Drop the pages of a column: its references, and the slots of its folded pages. -/
def dropColumnPages (c : Column) (s : State) : State :=
  let s := (c.handles.filter fun h => !foldedRef h).foldl (fun s h => dropRef h s) s
  retryRecovery c.part (c.folded.foldl (fun s r =>
    let s := releaseSlot r.tier r.base r.slot4k s
    if r.lowerValid then releaseSlot r.lowerTier r.lowerBase r.slot4k s else s) s)

/-- Take one HOLDERS count from a column (R212): at 0 it is freed, its references dropped, and its parent loses one. -/
def unholdFuel : Nat → Nat → State → State
  | 0, _, s => s
  | n + 1, i, s =>
    match tget s.pme.columns i with
    | none => s
    | some c =>
      if c.holders ≤ 1 then
        let s := dropColumnPages c (modPme (fun p => { p with columns := tdel p.columns i }) s)
        if c.parentCol = 0 then s else unholdFuel n c.parentCol s
      else modPme (fun p => { p with columns := tset p.columns i { c with holders := c.holders - 1 } }) s

def unhold (i : Nat) (s : State) : State := unholdFuel (s.pme.columns.length + 1) i s

/-- Free a column whatever its count (R239). -/
def freeColumn (i : Nat) (s : State) : State :=
  unhold i (modPme (fun p => { p with columns := tmod p.columns i fun c => { c with holders := 1 } }) s)

/-- The column of page `64σ` of a column's segment: its TAG is the anchor (R213). -/
def anchorFuel (s : State) : Nat → Nat → Option Nat
  | 0, _ => none
  | n + 1, i =>
    match tget s.pme.columns i with
    | none => none
    | some c => if c.page % 64 = 0 then some c.tag else anchorFuel s n c.parentCol

def anchorOf (s : State) (i : Nat) : Option Nat := anchorFuel s 65 i

/-- Say of a column of this device whether its entry is on another member of the sled. -/
def markAway (e : PmeEntry) (out : Bool) (s : State) : State :=
  if e.home = ownHome s then modPme (fun p => { p with columns := tmod p.columns e.column fun c => { c with away := out } }) s else s

/-- What an entry that is gone leaves to its column: one HOLDERS count, on the device that holds the column. -/
def entryGone (e : PmeEntry) (s : State) : State :=
  if e.home = ownHome s then unhold e.column s else s.emit (.flit "GONE" [e.home, e.column] [])

/-- A width pair's update that takes an entry out is made in its mate too (R243). -/
def mateDrop (e : PmeEntry) (s : State) : State :=
  if s.getF Reg.pmeCascadeMode = 2 ∧ inSled s then s.emit (.flit "MATE_DROP" [e.home, e.column] []) else s

-- The cold index (R236-R238)

def homeBucket (s : State) (anchor : Nat) : Nat := anchor / 16384 % max 1 (s.getF Reg.pmeColdCapBuckets)
def coldChain (s : State) (h : Nat) : List Bucket := tgetD s.pme.cold h [{}]
def putChain (h : Nat) (l : List Bucket) (s : State) : State :=
  modPme (fun p => { p with cold := if l == [{}] || l == [] then tdel p.cold h else tset p.cold h l }) s

/-- Overflow buckets that a partition has taken (R238). -/
def overflowOf (s : State) (n : Nat) : Nat := ((tvals s.pme.cold).map fun l => (l.filter (·.part == n)).length).sum

/-- Give empty overflow buckets at the end of a chain back to the pool. -/
def trimChain : List Bucket → List Bucket × Nat
  | [] => ([], 0)
  | b :: l =>
    let (l, n) := trimChain l
    if l.isEmpty && b.part != 16 && b.entries.isEmpty then ([], n + 1) else (b :: l, n)

def settleChain (h : Nat) (l : List Bucket) (s : State) : State :=
  let (l, n) := trimChain l
  (putChain h l s).setF Reg.pmeColdCapFree (s.getF Reg.pmeColdCapFree + n)

/-- The lowest free place of the overflow pool (log 75). -/
def freeBucket (s : State) : Nat :=
  let used := ((tvals s.pme.cold).map fun l => (l.filter (·.part != 16)).map (·.slot)).flatten
  ((List.range (used.length + 1)).find? fun i => !used.contains i).getD 0

/-- T1 addresses of a home bucket and of an overflow bucket (R236): the pool follows the home buckets (log 75). -/
def bucketAt (s : State) (h : Nat) (b : Bucket) : Nat :=
  s.getF Reg.pmeColdBase + 256 * (if b.part = 16 then h else s.getF Reg.pmeColdCapBuckets + b.slot)

/-- The 256 bytes of bucket `c` of a chain (R236). -/
def bucketBytes (s : State) (h c : Nat) : List Byte :=
  let l := coldChain s h
  let b := l.getD c {}
  let head := leBytes 8 (((l[c + 1]?).map (bucketAt s h)).getD 0) ++ leBytes 1 b.entries.length ++ zeros 3
  let body := slice ((b.entries.map fun e => leBytes 8 e.tag ++ leBytes 4 e.column ++ leBytes 2 e.page ++
    leBytes 1 (e.part + (if e.priv then 16 else 0) + e.home * 32) ++ zeros 1).flatten) 0 240
  head ++ shake256 (head ++ body) 4 ++ body

/-- Put an entry into the first bucket with room, or into a new overflow bucket (R238): false if it is dropped. -/
def coldInsert (anchor : Nat) (e : PmeEntry) (s : State) : State × Bool :=
  let h := homeBucket s anchor
  let l := coldChain s h
  match (List.range l.length).find? fun i => decide ((l.getD i {}).entries.length < 15) with
  | some i => (putChain h (l.set i { l.getD i {} with entries := (l.getD i {}).entries ++ [{ e with hits := 0 }] }) s, true)
  | none =>
    let quota := s.getF (Reg.pmePbQuotaColdBuckets e.part)
    if l.length < 8 ∧ 0 < s.getF Reg.pmeColdCapFree ∧ (quota = 0 ∨ overflowOf s e.part < quota) then
      ((putChain h (l ++ [{ part := e.part, entries := [{ e with hits := 0 }], slot := freeBucket s }]) s).setF Reg.pmeColdCapFree (s.getF Reg.pmeColdCapFree - 1), true)
    else (s.bump Ctr.pmeColdDrops, false)

/-- Move an entry, whatever its HOME, to the cold index of this device if its partition uses it, else drop it (R218, R238): the state and
whether it was kept. -/
def toCold (e : PmeEntry) (s : State) : State × Bool :=
  if s.flag (Reg.pmePbPolicyColdEn e.part) then
    match coldInsert e.anchor e s with
    | (s, true) => (s, true)
    | (s, false) => (entryGone e s, false)
  else (entryGone e s, false)

-- Places

def entryAt (s : State) : Place → Option PmeEntry
  | .way set way => tget s.pme.entries (set * 128 + way)
  | .cold h c i => ((coldChain s h)[c]?).bind fun b => b.entries[i]?

/-- Remove the entry at a place; later entries of a bucket move up (R236: packed from entry 0). -/
def removeAt : Place → State → State
  | .way set way, s => modPme (fun p => { p with entries := tdel p.entries (set * 128 + way) }) s
  | .cold h c i, s =>
    let l := coldChain s h
    match l[c]? with
    | some b => settleChain h (l.set c { b with entries := b.entries.eraseIdx i }) s
    | none => s

/-- How a place reads after the entry at another has been removed. -/
def Place.after (gone : Place) : Place → Place
  | .cold h c i => match gone with
    | .cold h' c' i' => if h = h' ∧ c = c' ∧ i' < i then .cold h c (i - 1) else .cold h c i
    | .way _ _ => .cold h c i
  | p => p

/-- Drop the entry at a place (R212). -/
def dropAt (p : Place) (s : State) : State :=
  match entryAt s p with
  | some e => mateDrop e (entryGone e (removeAt p s))
  | none => s

/-- Add to HITS of the entry at a place (R219). -/
def hitAt (p : Place) (s : State) : State :=
  match p with
  | .way set way => modPme (fun q => { q with entries := tmod q.entries (set * 128 + way) fun e => { e with hits := min 15 (e.hits + 1) } }) s
  | .cold _ _ _ => s

-- Insertion and eviction (R216, R218)

/-- Entries of a partition on chip (R238, USED.ENTRIES), and in the cold index. -/
def usedEntries (s : State) (n : Nat) : Nat := (s.pme.entries.filter fun e => e.2.part == n).length
def usedCold (s : State) (n : Nat) : Nat :=
  ((tvals s.pme.cold).map fun l => (l.map fun b => (b.entries.filter fun e => e.part == n).length).sum).sum

/-- The victim's way (R218): of the inserting partition if it holds entries, the lowest HITS, the later one on ties. -/
def victimWay (n : Nat) (l : List (Option PmeEntry)) : Option Nat :=
  let own := waysWhere (fun x => (x.map (·.part)) == some n) l
  let from_ := if own.isEmpty then waysWhere (·.isSome) l else own
  let hits := fun w => ((l.getD w none).map (·.hits)).getD 0
  match from_ with
  | [] => none
  | w :: ws => some (ws.foldl (fun m x => if hits x ≤ hits m then x else m) w)

/-- What a flit that carries an entry holds, with the partition whose insertion sends it. -/
def entryWords (set by_ : Nat) (e : PmeEntry) : List Nat :=
  [set, e.tag, e.column, e.page, e.part, e.hits, e.home, if e.priv then 1 else 0, e.tagHi, e.anchor, by_]

/-- Position and number of the parts that hold a sled's set, in sort order: members in depth mode, pairs in width mode (R240, R243). -/
def sledPart (s : State) : Nat × Nat :=
  let d := if s.getF Reg.pmeCascadeMode = 2 then 2 else 1
  (s.getF Reg.pmeCascadePosition / d, s.getF Reg.pmeCascadeMembers / d)

/-- The holes that R217 counts from the next member of a depth-mode sled on (R240): a free value, since only that member knows its set; 0
where no member follows (log 75). -/
def beyondHoles (s : State) : Nat × State :=
  if inSled s && s.getF Reg.pmeCascadeMode == 1 && decide ((sledPart s).1 + 1 < (sledPart s).2) then
    (Config.holesBeyond s.free, { s with free := s.free + 1 })
  else (0, s)

/-- Maintain the holes of a set (R217). In depth mode a member below the highest moves an entry on to the next one where the nearest group
with two invalid ways lies there (R240); how far that one is, only the next members know (log 75). -/
def maintainSet (set : Nat) (s : State) : State :=
  let l := readSet s set
  let r := holeMaintain 16 l
  if r.2 = 0 then s
  else
    let (d, s) := beyondHoles s
    match crossFrom d l with
    | none => (writeSet set r.1 s).bumpBy Ctr.pmeHoleMoves r.2
    | some g =>
      let (l, out, n) := crossMoves (16 - g) g none l
      let s := (writeSet set l s).bumpBy Ctr.pmeHoleMoves n
      match out with
      | some e => (markAway e true s).emit (.flit "MOVE" (entryWords set e.part e) [])
      | none => s

/-- Make room in a full set: a part of the sled below the highest passes its last entry on over the cascade port (R240), else R218
evicts. The mate of a width pair only takes the same entry out. -/
def pmeMakeRoom (n set : Nat) (mirror : Bool) (s : State) : State :=
  let l := readSet s set
  let valid := waysWhere (·.isSome) l
  let pass := inSled s && decide ((sledPart s).1 + 1 < (sledPart s).2)
  if valid.length < 112 then s
  else
    match (if pass then valid.getLast? else victimWay n l) with
    | none => s
    | some w =>
      match l.getD w none with
      | none => s
      | some e =>
        let s := removeAt (.way set w) s
        if mirror then s else if pass then (markAway e true s).emit (.flit "MOVE" (entryWords set n e) []) else (toCold e (s.bump Ctr.pmeEvictions)).1

/-- Insert an entry into its set on chip (R216). Maintenance that an earlier insertion left comes first (R217). In width mode the mate
does the same (R243). `n` is the inserting partition, for R218. -/
def chipInsert (n set : Nat) (e : PmeEntry) (mirror : Bool) (s : State) : State :=
  let s := pmeMakeRoom n set mirror (maintainSet set s)
  let s := (writeSet set (setInsert e (readSet s set)) s).bump Ctr.pmeInsertions
  if s.getF Reg.pmeCascadeMode = 2 ∧ inSled s ∧ !mirror then s.emit (.flit "MIRROR" (entryWords set n e) []) else s

/-- Whether R216's target group for an entry lies in this member of a sled: its set holds entries on both sides, or it stands at that
end of the sled (R240). -/
def ownTarget (set : Nat) (e : PmeEntry) (s : State) : Bool :=
  let l := (readSet s set).filterMap id
  (l.any (PmeEntry.before · e) || (sledPart s).1 == 0) && (l.any e.before || (sledPart s).1 + 1 == (sledPart s).2)

/-- Insert an entry of a segment (R216, R238): on chip, or in the cold index where the bank is mapped out or the quota
reached. False if it was dropped; its column then has lost the count. -/
def insertEntry (anchor : Nat) (e : PmeEntry) (s : State) : State × Bool :=
  let set := setOfAnchor anchor
  let quota := s.getF (Reg.pmePbQuotaEntries e.part)
  if bankOk s set = false ∨ (quota ≠ 0 ∧ quota ≤ usedEntries s e.part) then toCold e s
  else if inSled s && !ownTarget set e s then ((markAway e true s).emit (.flit "INSERT" (entryWords set e.part e) []), true)
  else (chipInsert e.part set e false s, true)

-- Dropping entries and columns (R246, R235)

/-- Drop every entry that satisfies a test, on chip and in the cold index. -/
def dropWhere (p : PmeEntry → Bool) (s : State) : State :=
  let chip := (tvals s.pme.entries).filter p
  let cold := (((tvals s.pme.cold).map fun l => (l.map fun b => b.entries.filter p).flatten).flatten)
  let s := modPme (fun q => { q with entries := q.entries.filter fun e => !p e.2 }) s
  let s := s.pme.cold.foldl (fun s c => settleChain c.1 (c.2.map fun b => { b with entries := b.entries.filter fun e => !p e }) s) s
  (chip ++ cold).foldl (fun s e => entryGone e s) (chip.foldl (fun s e => mateDrop e s) s)

/-- Drop the entries of columns that this device holds, here and on the other members of the sled. -/
def dropColumnsEntries (cols : List Nat) (s : State) : State :=
  let h := ownHome s
  let s := dropWhere (fun e => e.home == h && cols.contains e.column) s
  if inSled s then cols.foldl (fun s i => s.emit (.flit "DROP" [h, i] [])) s else s

/-- Mark columns DEAD and drop their entries (R246). -/
def killColumns (cols : List Nat) (s : State) : State :=
  dropColumnsEntries cols (modPme (fun p => { p with columns := p.columns.map fun c => if cols.contains c.1 then (c.1, { c.2 with dead := true }) else c }) s)

/-- A column and all its descendants: `n` rounds of taking the children of what is taken. -/
def withDescendants (s : State) : Nat → List Nat → List Nat
  | 0, l => l
  | n + 1, l => withDescendants s n (l ++ ((s.pme.columns.filter fun c => l.contains c.2.parentCol && !l.contains c.1).map (·.1)))

/-- A page is LOST (R246): its columns are DEAD and their entries dropped. -/
def pmePageLost (h : Nat) (s : State) : State :=
  killColumns ((s.pme.columns.filter fun c => c.2.handles.contains h).map (·.1)) s

/-- Drop the entries of columns that carry a version of an adapter, or a binding (R246). -/
def pmeDropAdapter (part id ver : Nat) (s : State) : State :=
  dropColumnsEntries ((s.pme.columns.filter fun c => c.2.part == part && c.2.adapter == id && c.2.adapterVer == ver).map (·.1)) s
def pmeDropBinding (part id : Nat) (s : State) : State :=
  dropColumnsEntries ((s.pme.columns.filter fun c => c.2.part == part && c.2.binding == id).map (·.1)) s

/-- A partition enters WIPING (R246): entries, cold entries, columns, lookup slots. -/
def pmeDropPartition (n : Nat) (s : State) : State :=
  let s := dropColumnsEntries ((s.pme.columns.filter fun c => c.2.part == n).map (·.1)) (dropWhere (fun e => e.part == n) s)
  let s := ((s.pme.columns.filter fun c => c.2.part == n).map (·.1)).foldl (fun s i => freeColumn i s) s
  modPme (fun p => { p with slots := p.slots.filter fun x => x.2.part != n, sled := p.sled.filter fun x => x.q.part != n,
                            sweeps := p.sweeps.filter (· != n), pendings := p.pendings.filter fun x => x.q.part != n,
                            imports := p.imports.filter fun x => x.2.cmd.part != n }) s

/-- Whether the owner of a private entry still lives (R235). -/
def ownerLive (s : State) (e : PmeEntry) : Bool :=
  !e.priv || e.home != ownHome s || ((tget s.pme.columns e.column).map fun c => liveOwner s c.owner).getD false

-- Candidates (R223, R237)

/-- Pages of a query. -/
def Slot.pages (q : Slot) : Nat := q.tokens.length / 32

/-- Whether an entry is a candidate in a segment. -/
def isCand (s : State) (q : Slot) (seg : Nat) (e : PmeEntry) : Bool :=
  e.part == q.part && e.page / 64 == seg && decide (e.page < q.pages) && e.tag == q.hashes.getD e.page 0 &&
    (s.getF Reg.pmeCascadeMode != 2 || e.tagHi == q.wides.getD e.page 0) &&
    (!e.priv || (e.home == ownHome s && ((tget s.pme.columns e.column).map (·.owner)) == some (ownerWord q.session) && q.session != 0))

/-- The cold walk of a segment (R237): a bucket whose CHECK fails ends it, is an error, and leaves the chain with those behind it. A sweep is
due in each partition whose columns they named (R239); of an entry from another HOME the HOME device is told, whose sweep then recovers it. -/
def coldWalk (h : Nat) (part : Nat) (s : State) : State × List Bucket :=
  let l := coldChain s h
  let s := s.bump Ctr.pmeColdProbes
  let good := l.takeWhile fun b => !b.bad
  if good.length = l.length then (s, l)
  else
    let s := settleChain h (if good.isEmpty then [{}] else good) s
    let s := s.setF Reg.pmeColdCapFree (s.getF Reg.pmeColdCapFree + ((l.drop good.length).filter (·.part != 16)).length)
    let lost := ((l.drop good.length).map (·.entries)).flatten
    let due := (part :: (lost.filter fun e => e.home == ownHome s).map (·.part)).eraseDups
    let s := modPme (fun p => { p with sweeps := p.sweeps ++ due.filter fun n => !p.sweeps.contains n }) s
    let s := (lost.filter fun e => e.home != ownHome s).foldl (fun s e => s.emit (.flit "LOST" [e.home, e.column] [])) s
    (raiseErr { slot := pPme, ev := .pmeColdCorrupt, cls := .corrected, part := part, resource := h * 8 + good.length } s, good)

/-- Places of a set or of a bucket chain with what they hold. -/
def setPlaces (s : State) (set : Nat) : List Cand :=
  (List.range 128).filterMap fun w => (tget s.pme.entries (set * 128 + w)).map fun e => { place := .way set w, entry := e }
def chainPlaces (h : Nat) (l : List Bucket) : List Cand :=
  ((l.zipIdx.map fun b => b.1.entries.zipIdx.map fun e => ({ place := .cold h b.2 e.2, entry := e.1 } : Cand))).flatten

/-- Entries of a segment's set or chain whose owner is gone are dropped when a lookup meets them (R235). -/
def dropOrphans (q : Slot) (seg : Nat) (s : State) : State :=
  dropWhere (fun e => e.part == q.part && e.page / 64 == seg && e.priv && e.tag == q.hashes.getD e.page 0 && !ownerLive s e) s

/-- Insert a candidate in the order of R223; entries that name one column count once (R221). -/
def candInsert (x : Cand) : List Cand → List Cand
  | [] => [x]
  | y :: l =>
    if x.entry.home == y.entry.home && x.entry.column == y.entry.column then y :: l
    else if x.entry.before y.entry then x :: y :: l
    else y :: candInsert x l

/-- Candidates of one segment in the on-chip set. The probe counts for ageing (R219), also one that a publication's tag comparison makes
(R234): R219 does not say whether that is a lookup that reaches the bank (DESIGN CHOICE, log 75). -/
def chipCands (q : Slot) (seg : Nat) (ok : PmeEntry → Bool) (s : State) : State × List Cand :=
  let set := setOfAnchor (q.hashes.getD (64 * seg) 0)
  if bankOk s set then
    (modPme (fun p => { p with probes := tset p.probes (bankOfSet set) (tgetD p.probes (bankOfSet set) 0 + 1) }) s, (setPlaces s set).filter fun c => ok c.entry)
  else (s, [])

/-- Candidates of one segment in the cold index, where the partition uses it (R223, R237). -/
def coldCands (q : Slot) (seg : Nat) (s : State) : State × List Cand :=
  if s.flag (Reg.pmePbPolicyColdEn q.part) then
    let h := homeBucket s (q.hashes.getD (64 * seg) 0)
    let (s, l) := coldWalk h q.part s
    (s, (chainPlaces h l).filter fun c => isCand s q seg c.entry)
  else (s, [])

/-- Candidates in the order of R223. -/
def candSort (l : List Cand) : List Cand := l.foldl (fun l c => candInsert c l) []

/-- Candidates of one segment. -/
def segmentCands (q : Slot) (seg : Nat) (s : State) : State × List Cand :=
  let s := dropOrphans q seg s
  let (s, chip) := chipCands q seg (isCand s q seg) s
  let (s, cold) := coldCands q seg s
  (s, candSort (chip ++ cold))

/-- Candidates of a query, deepest first. -/
def allCands (q : Slot) (s : State) : State × List Cand :=
  let segs := (List.range (cdiv q.pages 64)).reverse
  segs.foldl (fun a seg => let (s, l) := segmentCands q seg a.1; (s, a.2 ++ l)) (s, [])

-- Verification (R224, R225)

/-- The first check of R224 that a column fails for a candidate, by its number; 0 none. -/
def columnCheck (s : State) (q : Slot) (e : PmeEntry) (c : Column) : Nat :=
  if c.bad then 1
  else if c.tag ≠ e.tag ∨ c.page ≠ e.page then 2
  else if c.part ≠ q.part then 3
  else if c.parentTag ≠ (if e.page = 0 then 0 else q.hashes.getD (e.page - 1) 0) then 4
  else if c.shadow ≠ (q.tokens.drop (32 * e.page)).take 32 then 5
  else if s.getF Reg.pmeCascadeMode = 2 ∧ c.tagHi ≠ q.wides.getD e.page 0 then 6
  else 0

/-- A false hit (R225): counted, logged, its entry invalidated, its bank tested. -/
def falseHit (p : Place) (e : PmeEntry) (check : Nat) (s : State) : State :=
  let s := dropAt p (s.bump Ctr.pmeFalseHits)
  match p with
  | .way set way =>
    raiseErr { slot := pPme, ev := .pmeFalseHit, cls := .corrected, part := e.part, resource := check * 2 ^ 32 + set * 128 + way, detail := [e.tag],
               unit := some ⟨pPme, 5, bankOfSet set⟩ } s
  | .cold h c i => raiseErr { slot := pPme, ev := .pmeFalseHit, cls := .corrected, part := e.part, resource := check * 2 ^ 60 + 2 ^ 59 + (h * 8 + c) * 16 + i,
                              detail := [e.tag] } s

/-- Tier of a hit (R226). -/
def columnTier (s : State) (i : Nat) (c : Column) : Nat :=
  if 2 ^ 31 ≤ i then 4 else (((c.handles.head?).bind s.rec?).map (·.tier)).getD 0

/-- The first check of R224 that a column on another device fails. -/
def remoteCheck (s : State) (q : Slot) (e : PmeEntry) (c : RemoteColumn) : Nat :=
  if c.bad then 1
  else if c.tag ≠ e.tag ∨ c.page ≠ e.page then 2
  else if c.part ≠ q.part then 3
  else if c.parentTag ≠ (if e.page = 0 then 0 else q.hashes.getD (e.page - 1) 0) then 4
  else if c.shadow ≠ (q.tokens.drop (32 * e.page)).take 32 then 5
  else if s.getF Reg.pmeCascadeMode = 2 ∧ c.tagHi ≠ q.wides.getD e.page 0 then 6
  else 0

/-- Verify a candidate whose column its HOME device holds. -/
def verifyRemote (q : Slot) (c : Cand) (column : Option RemoteColumn) (s : State) : State × Option PrefixHit :=
  match column with
  | none => (falseHit c.place c.entry 1 s, none)
  | some k =>
    if k.dead && !k.bad then (dropAt c.place s, none)
    else if c.entry.priv && k.owner != ownerWord q.session then (s, none)
    else
      let f := remoteCheck s q c.entry k
      if f = 0 then (s, some { depth := k.page + 1, column := c.entry.column, gen := k.gen, home := c.entry.home, node := k.node, tier := k.tier })
      else (falseHit c.place c.entry f s, none)

/-- Verify one candidate: the state, and the hit if it passes. What another HOME device holds is a free value (log 75). A private entry
without a live owner is absent and dropped (R235). -/
def verifyCand (q : Slot) (c : Cand) (s : State) : State × Option PrefixHit :=
  if c.entry.home ≠ ownHome s then verifyRemote q c (Config.remoteColumn s.free) { s with free := s.free + 1 } else
  match tget s.pme.columns c.entry.column with
  | none => (falseHit c.place c.entry 1 s, none)
  | some k =>
    if (k.dead && !k.bad) || (c.entry.priv && !liveOwner s k.owner) then (dropAt c.place s, none)
    else
      let f := columnCheck s q c.entry k
      if f = 0 then
        (s, some { depth := k.page + 1, column := c.entry.column, gen := k.gen, home := c.entry.home, node := s.node, tier := columnTier s c.entry.column k })
      else (falseHit c.place c.entry f s, none)

/-- Whether a candidate's entry still holds its place with its TAG and COLUMN (R227). -/
def candHolds (s : State) (c : Cand) : Bool :=
  match entryAt s c.place with
  | some e => e.tag == c.entry.tag && e.column == c.entry.column && e.home == c.entry.home
  | none => false

/-- Count a hit that a lookup returns (R219), in the entry if it still holds its place, and in its mate's (R243). -/
def countHit (c : Cand) (s : State) : State :=
  let s := s.bump Ctr.pmeHits
  let s := if candHolds s c then hitAt c.place s else s
  let s := if candHolds s c && s.getF Reg.pmeCascadeMode == 2 && inSled s then s.emit (.flit "MATE_HIT" [c.entry.home, c.entry.column] []) else s
  match c.place with
  | .cold _ _ _ => s.bump Ctr.pmeColdHits
  | .way _ _ => s

/-- Verify until one passes, shifting the places of candidates that follow a removed cold entry, so that each still names its
entry within one run. The first argument bounds the run. -/
def runCands : Nat → Slot → List Cand → State → State × Option (PrefixHit × Cand) × List Cand
  | 0, _, l, s => (s, none, l)
  | _ + 1, _, [], s => (s, none, [])
  | n + 1, q, c :: l, s =>
    if !candHolds s c then runCands n q l s
    else
      match verifyCand q c s with
      | (s, some h) => (s, some (h, c), l)
      | (s, none) => runCands n q (l.map fun d => { d with place := Place.after c.place d.place }) s

-- Publication (R233, R234, R534)

/-- The content hash of pages (R211). -/
def contentHash (s : State) (hs : List Nat) : Nat :=
  fieldAt (shake256 ((hs.map fun h =>
    match s.rec? h with
    | some r => let b := pageBytes s r; (b.take (r.geom.pageEnd (fieldAt b 3 1))).drop 64
    | none => []).flatten) 8) 0 8

/-- Handles of a session's page index in layer order; none if one is missing. -/
def indexHandles (x : Session) (layers k : Nat) : Option (List Nat) :=
  let l := (List.range layers).filterMap fun y => x.page y k
  if l.length = layers ∧ !l.any foldedRef then some l else none

/-- A page index that is sealed in every layer. -/
def indexSealed (s : State) (x : Session) (layers k : Nat) : Bool :=
  match indexHandles x layers k with
  | some l => l.all fun h => ((s.rec? h).map (·.sealed)).getD false
  | none => false

/-- The candidates of a list that verify, places shifted as in `runCands`. -/
def verifyAll : Nat → Slot → List Cand → State → State × List Cand
  | 0, _, _, s => (s, [])
  | _ + 1, _, [], s => (s, [])
  | n + 1, q, c :: l, s =>
    if !candHolds s c then verifyAll n q l s
    else
      match verifyCand q c s with
      | (s, some _) => let (s, r) := verifyAll n q l s; (s, c :: r)
      | (s, none) => verifyAll n q (l.map fun d => { d with place := Place.after c.place d.place }) s

/-- Columns of this device for page index `k` of a query whose entries stand on other members of the sled and verify (R234, R240). -/
def awayColumns (q : Slot) (k : Nat) (s : State) : List Nat :=
  (s.pme.columns.filter fun c => c.2.away && !c.2.dead && c.2.page == k &&
    columnCheck s q { tag := q.hashes.getD k 0, column := c.1, page := k, part := q.part } c.2 == 0 &&
    (!c.2.priv || (q.session != 0 && c.2.owner == ownerWord q.session))).map (·.1)

/-- Insert a number in ascending order, once. -/
def natInsert (x : Nat) : List Nat → List Nat
  | [] => [x]
  | y :: l => if x < y then x :: y :: l else if x = y then y :: l else y :: natInsert x l

/-- The columns whose entries of equal tag count for a publication and verify (R234), in order: those that this device holds, wherever in the
sled their entries stand, since no map of this device can name another's pages (log 75). -/
def equalTag (q : Slot) (k : Nat) (s : State) : State × List Nat :=
  let (s, l) := segmentCands q (k / 64) s
  let l := l.filter fun c => c.entry.page == k && c.entry.home == ownHome s
  let (s, l) := verifyAll (l.length + 1) q l s
  (s, (l.map (·.entry.column) ++ awayColumns q k s).foldl (fun l x => natInsert x l) [])

/-- The index that a new column takes: the lowest free one of the pool in T0 (R210; DESIGN CHOICE, log 5: the spec names no order). -/
def freeColumnIndex (s : State) : Option Nat :=
  let used := (s.pme.columns.filter fun c => decide (c.1 < 2 ^ 31)).length
  if s.getF Reg.pmeColumnPoolCap ≤ used then none
  else ((List.range (used + 1)).find? fun i => (tget s.pme.columns (i + 1)).isNone).map (· + 1)

/-- Create a column and insert its entry (R234): false if it cannot be created or its entry is not kept (R534). -/
def createColumn (q : Slot) (k parent content : Nat) (hs shadow : List Nat) (priv : Bool) (s : State) : State × Bool :=
  match freeColumnIndex s with
  | none => (s, false)
  | some i =>
    if !(hs.all fun h => ((s.rec? h).map fun r => decide (r.ref < 2 ^ 32 - 1)).getD false) then (s, false)
    else
      let s := hs.foldl (fun s h => (addRef h s).getD s) s
      let (g, s) := takeGen s
      let c : Column := { tag := q.hashes.getD k 0, parentTag := if k = 0 then 0 else q.hashes.getD (k - 1) 0,
                          tagHi := if s.getF Reg.pmeCascadeMode = 2 then q.wides.getD k 0 else 0, content := content, gen := g, parentCol := parent,
                          page := k, part := q.part, priv := priv, owner := if priv then ownerWord q.session else 0, holders := 1, shadow := shadow, handles := hs,
                          binding := q.ident.binding, adapter := q.ident.adapter, adapterVer := q.ident.adapterVer,
                          publisher := q.session, pubTurn := ((tget s.ssq.sessions (q.session % 2 ^ 22)).map (·.turn)).getD 0 }
      let s := modPme (fun p => { p with columns := tset (tmod p.columns parent fun y => { y with holders := y.holders + 1 }) i c }) s
      let e : PmeEntry := { tag := c.tag, column := i, page := k, part := q.part, home := ownHome s, priv := priv, tagHi := c.tagHi,
                            anchor := q.hashes.getD (k / 64 * 64) 0 }
      insertEntry (q.hashes.getD (k / 64 * 64) 0) e s

/-- Publish one page index: the state, and whether it was published. -/
def publishIndex (q : Slot) (k : Nat) (hs : List Nat) (s : State) : State × Bool :=
  let (s, parents) := if k = 0 then (s, []) else equalTag q (k - 1) s
  match (if k = 0 then some 0 else parents.head?) with
  | none => (s, false)
  | some parent =>
    let content := contentHash s hs
    let (s, l) := equalTag q k s
    let of_ := fun c => ((tget s.pme.columns c).map (·.content)).getD 0
    match l.find? fun c => of_ c == content with
    | some c =>
      let g := ((tget s.pme.columns c).map (·.gen)).getD 0
      (modPme (fun p => { p with repoints := p.repoints ++ [(q.session, k, c, g)] }) s, true)
    | none =>
      let shadow := (q.tokens.drop (32 * k)).take 32
      match l.head? with
      | none => createColumn q k parent content hs shadow false s
      | some c =>
        let (t, kept) := createColumn q k parent content hs shadow true s
        (logEv .pmeDivergentPublish pPme q.part [q.hashes.getD k 0, of_ c, content, q.session % 2 ^ 22] (t.bump Ctr.pmeDivergentPublishes), kept)

/-- The query of a session's history (R222). -/
def sessionSlot (s : State) (x : Session) (toks : List Nat) : Slot :=
  let d := x.ident
  let h := hashesOf s x.part d toks
  { part := x.part, session := x.handle, ident := d, tokens := toks, hashes := h.map (·.1), wides := h.map (·.2), cands := [] }

/-- The publication run of a session up to page index `last` (R233, R534): indices from `k`, `n` left; `skip` while the pages
are those of verified columns already; the number published. -/
def publishFrom (q : Slot) (x : Session) (layers : Nat) : Nat → Nat → Bool → Nat → State → State × Nat
  | 0, _, _, done, s => (s, done)
  | n + 1, k, skip, done, s =>
    if !indexSealed s x layers k then (s, done)
    else
      match indexHandles x layers k with
      | none => (s, done)
      | some hs =>
        let (s, same) := if skip then
            let (s, l) := equalTag q k s
            (s, l.any fun c => ((tget s.pme.columns c).map (·.handles)) == some hs)
          else (s, false)
        if same then publishFrom q x layers n (k + 1) true done s
        else
          match publishIndex q k hs s with
          | (s, true) => publishFrom q x layers n (k + 1) false (done + 1) s
          | (s, false) => (s, done)

/-- Layers of a session's model binding. -/
def layersOf (s : State) (x : Session) : Nat := ((s.ssq.models.find? fun m => m.part == x.part && m.id == x.model).map (·.layers)).getD 0

/-- Publish the sealed indices of a session up to `last`: the state and how many were published. -/
def publishSession (i last : Nat) (s : State) : State × Nat :=
  match unfoldSession i s with
  | none => (s, 0)
  | some s =>
    match tget s.ssq.sessions i with
    | none => (s, 0)
    | some x =>
      if x.relaxed then (s, 0)
      else publishFrom (sessionSlot s x (x.history.take (32 * (last + 1)))) x (layersOf s x) (last + 1) 0 true 0 s

/-- Name a column by its folded index everywhere. -/
def renameColumn (i j : Nat) (s : State) : State :=
  let fix := fun (e : PmeEntry) => if e.column = i ∧ e.home = ownHome s then { e with column := j } else e
  modPme (fun p => { p with
    entries := p.entries.map fun e => (e.1, fix e.2)
    cold := p.cold.map fun h => (h.1, h.2.map fun b => { b with entries := b.entries.map fix })
    columns := (match tget p.columns i with
        | some c => tset (tdel p.columns i) j c
        | none => p.columns).map fun (c : Nat × Column) => (c.1, { c.2 with parentCol := if c.2.parentCol = i then j else c.2.parentCol }) }) s

/-- Unfold a column into new handles; none where the records or the column pool do not suffice (R132). -/
def unfoldColumn (i : Nat) (s : State) : Option (Nat × State) :=
  if i < 2 ^ 31 then some (i, s)
  else
    match tget s.pme.columns i with
    | none => none
    | some c =>
      if !recordsAllowed s c.part c.folded.length then none
      else
        let (s, hs) := c.folded.foldl (fun (a : State × List Nat) r => let (h, s) := addRec r a.1; (s, a.2 ++ [h])) (s, [])
        let s := modPme (fun p => { p with columns := tset p.columns i { c with folded := [], handles := hs } }) s
        (freeColumnIndex s).map fun j => (j, renameColumn i j s)

/-- The column `i`, brought back from its folded form, and what it names. -/
def unfoldedColumn (i : Nat) (s : State) : Option (Column × State) :=
  match unfoldColumn i s with
  | none => none
  | some (j, s) =>
    match tget s.pme.columns j with
    | none => none
    | some c => some (c, s)

/-- The column that a repoint names by index and GEN, unfolded where it has been folded since; none where it is gone. -/
def repointColumn (i gen : Nat) (s : State) : Option (Column × State) :=
  match (tget s.pme.columns i).filter (·.gen == gen) with
  | some c => if i < 2 ^ 31 then some (c, s) else unfoldedColumn i s
  | none =>
    match s.pme.columns.find? fun c => c.2.gen == gen with
    | some (j, _) => unfoldedColumn j s
    | none => none

/-- The repoints of R234 that wait for this session's commit-point event: its map takes the column's pages and its own are
released. -/
def applyRepoints (i : Nat) (s : State) : State :=
  match tget s.ssq.sessions i with
  | none => s
  | some x =>
    let mine := s.pme.repoints.filter fun r => r.1 == x.handle
    let s := modPme (fun p => { p with repoints := p.repoints.filter fun r => r.1 != x.handle }) s
    mine.foldl (fun s r =>
      match repointColumn r.2.2.1 r.2.2.2 s, tget s.ssq.sessions i with
      | some (c, s), some x =>
        let own := c.handles.zipIdx.map fun (h : Nat × Nat) => x.page h.2 r.2.1
        let room := c.handles.all fun h => ((s.rec? h).map fun y => decide (y.ref < 2 ^ 32 - 1)).getD false
        if !c.dead && own.all (fun o => (o.map foldedRef) == some false) && !c.handles.any foldedRef && room then
          let s := c.handles.foldl (fun s h => (addRef h s).getD s) s
          let s := putSession i { x with map := c.handles.zipIdx.foldl (fun m h => tset m (mapKey h.2 r.2.1) h.1) x.map } s
          (own.filterMap id).foldl (fun s h => dropRef h s) (placeMap i (s.bump Ctr.pmeDedupRepoints))
        else s
      | _, _ => s) s

-- The column sweep (R239)

/-- Whether an entry or a child column names a column, on this device or, in a sled, on the member that its entry went to. -/
def columnNamed (s : State) (i : Nat) : Bool :=
  let h := ownHome s
  let names := fun (e : PmeEntry) => e.home == h && e.column == i
  s.pme.entries.any (fun e => names e.2) || (tvals s.pme.cold).any (fun l => l.any fun b => b.entries.any names) ||
    s.pme.columns.any (fun c => c.2.parentCol == i) || (inSled s && ((tget s.pme.columns i).map (·.away)).getD false)

/-- Sweep one column. -/
def sweepColumn (i : Nat) (s : State) : State :=
  match tget s.pme.columns i with
  | none => s
  | some c =>
    if columnNamed s i then s
    else if c.holders = 0 ∨ c.dead ∨ c.bad then freeColumn i s
    else
      let e : PmeEntry := { tag := c.tag, column := i, page := c.page, part := c.part, home := ownHome s, priv := c.priv, tagHi := c.tagHi }
      match anchorOf s i with
      | some a =>
        match coldInsert a { e with anchor := a } s with
        | (s, true) => s
        | (s, false) => freeColumn i s
      | none => freeColumn i s

/-- Sweep a partition's columns, the deepest first; private entries without a live owner go (R235), also those that stand on other members of
the sled. -/
def columnSweep (n : Nat) (s : State) : State :=
  let s := dropWhere (fun e => e.part == n && e.priv && !ownerLive s e) s
  let s := dropColumnsEntries ((s.pme.columns.filter fun c => c.2.part == n && c.2.away && c.2.priv && !liveOwner s c.2.owner).map (·.1)) s
  let cols := s.pme.columns.filter fun c => c.2.part == n
  let deepest := (cols.map (·.2.page)).foldl max 0
  (List.range (deepest + 1)).reverse.foldl (fun s k => (cols.filter fun c => c.2.page == k).foldl (fun s c => sweepColumn c.1 s) s) s

end Sys2Proof.Machine
end

