-- ==== Sys2Proof/Machine/Recovery.lean ====
section
/-!
DEFINITION. Machine/Recovery.lean: pages that pass to recovery, recovery's verified read, and pages that are lost (04 R142,
08 R281).
-/
set_option cleanup.letToHave false
namespace Sys2Proof.Machine

open Sys2Proof

/-- Whether a session's map, folded or not, names a page. -/
def namesPage (x : Session) (h : Nat) : Bool := x.map.any fun e => e.2 == h

/-- Recovery failed (R142): LOST, the event, the prefix entry gone, and each session that names the page marked for the
transition that its next commit-point event makes. -/
def markLost (h : Nat) (s : State) : State :=
  match s.rec? h with
  | none => s
  | some r =>
    let s := putRec h { r with recovery := false, lost := true } s
    let s := logEv .tmgPageLost pTmg r.part [h] (s.bump Ctr.tmgPagesLost)
    let s := { s with ssq := { s.ssq with sessions := s.ssq.sessions.map fun x => if namesPage x.2 h then (x.1, { x.2 with lostPage := true }) else x },
                      tmg := { s.tmg with recWaits := s.tmg.recWaits.filter (· != h) } }
    pmePageLost h s

/-- A page passes to recovery (R142, R281): its move, if one is in flight, is abandoned. Without a lower copy, and with BASE
in T0, no copy is left to read and the page is lost at once. -/
def startRecovery (h : Nat) (s : State) : State :=
  match (abandonMove h s).rec? h with
  | none => abandonMove h s
  | some r =>
    let s := abandonMove h s
    if r.recovery ∨ r.lost then s
    else if r.lowerValid = false ∧ r.tier = 0 then markLost h s
    else putRec h { r with recovery := true } s

/-- A recovery read of a page is done (R142, R281): `failed` says that the tier could not return the copy. A page that stays
in recovery for want of a slot is tried again at each slot that its partition releases. -/
def recoveryRead (h : Nat) (failed : Bool) (s : State) : State :=
  match s.rec? h with
  | none => s
  | some r =>
    if !r.recovery then s
    else
      let tier := if r.lowerValid then r.lowerTier else r.tier
      let base := if r.lowerValid then r.lowerBase else r.base
      let dead := failed || !s.tierUp tier
      match (if dead then (s, false) else expanderRead {} h r tier base s) with
      | (s, false) => markLost h s
      | (s, true) =>
        let b := slotBytes s tier base r.slot4k
        match allocSlot s r.part r.tier r.slot4k ((r.layer + r.page + stackIndex s h) % 8) with
        | some x => retryRecovery r.part (recoverInto h r b r.tier x s)
        | none =>
          if r.lowerValid then
            let s := handToTest r.tier r.base (releaseSlot r.tier r.base r.slot4k s)
            retryRecovery r.part ((putRec h { r with base := r.lowerBase, tier := r.lowerTier, lowerValid := false, lowerBase := 0, lowerTier := 0,
                                                      recovery := false } s).bump Ctr.tmgRecoveriesOk)
          else
            match recoverySlot s h r with
            | some (k, x) => retryRecovery r.part (recoverInto h r b k x s)
            | none => { s with tmg := { s.tmg with recWaits := if s.tmg.recWaits.contains h then s.tmg.recWaits else s.tmg.recWaits ++ [h] } }

end Sys2Proof.Machine
end

