-- ==== Sys2Proof/Machine/Engine.lean ====
section
/-!
DEFINITION. Machine/Engine.lean: a wheel's step as the engine sees it: rosters and records (05 R151-R154), masks and stretches
(05 R161, R164), the merge and the outlet records of a part (05 R172-R174, R178), the tail block (06 R203), and the rollback
of a step's page effects (04 R141).
-/
set_option cleanup.letToHave false
namespace Sys2Proof.Machine

open Sys2Proof Fp

def putWheel (w : Nat) (x : Wheel) (s : State) : State := { s with ssq := { s.ssq with wheels := tset s.ssq.wheels w x } }
def modWheel (w : Nat) (f : Wheel → Wheel) (s : State) : State := { s with ssq := { s.ssq with wheels := tmod s.ssq.wheels w f } }
def State.wheel? (s : State) (w : Nat) : Option Wheel := tget s.ssq.wheels w

def State.setHrc (s : State) (h : Hrc) : State := { s with hrc := h }

/-- A binding by its id in a partition (02 R71), and its tail binding (06 R181). -/
def State.model? (s : State) (part id : Nat) : Option Model := s.ssq.models.find? fun m => m.part == part && m.id == id
def State.tail? (s : State) (part id : Nat) : Option Tail := s.ssq.tails.find? fun t => t.part == part && t.id == id

/-- Value width of a binding, and its query heads. -/
def Model.dv (m : Model) : Nat := if m.geom.latent then m.latV else m.geom.dim
def Model.qheads (m : Model) : Nat := m.geom.heads * m.group

-- Roster and records

def Wheel.entries (w : Wheel) : List RosterEntry := w.roster.getD []

/-- Turn slots of the roster, in order (R152). -/
def Wheel.rosterSlots' (w : Wheel) : List Nat := w.entries.foldl (fun l e => if l.contains e.slot then l else l ++ [e.slot]) []

/-- Entries of a turn, in roster order. -/
def Wheel.entriesOf (w : Wheel) (slot : Nat) : List RosterEntry := w.entries.filter (·.slot == slot)

/-- A turn of the roster that has ended the step, one way or another. -/
def Wheel.resolved (w : Wheel) (slot : Nat) : Bool := w.results.any (·.slot == slot)

/-- The tail records of a step (06 R188): every decode candidate, and the last prefill entry of each turn. -/
def Wheel.tailRecords (w : Wheel) : List RosterEntry :=
  let rec go : List RosterEntry → List RosterEntry
    | [] => []
    | [e] => [e]
    | e :: f :: l => if e.kind = 1 ∧ f.slot = e.slot ∧ f.kind = 1 then go (f :: l) else e :: go (f :: l)
  go w.entries

/-- Records of the layer or tail being delivered. -/
def Wheel.recordsOf (w : Wheel) (tail : Bool) : List RosterEntry := if tail then w.tailRecords else w.entries

/-- The running turn that holds a slot. -/
def turnOfSlot (s : State) (slot : Nat) : Option Turn := s.ssq.turns.find? fun t => t.state != .queued && t.slot == slot

/-- Strides (R154, R173). -/
def Model.qRegion (m : Model) : Nat := if m.geom.latent then m.qrows * 16384 else m.qheads * m.geom.dim * 2
def Model.inletStride (m : Model) : Nat := cdiv (m.qRegion + m.hidden * 2) 4096 * 4096
def Model.outletStride (m : Model) : Nat := cdiv (m.qheads * m.dv * 2) 256 * 256

/-- Offset of a query head's elements in the Q region (R154). -/
def Model.qOff (m : Model) (q : Nat) : Nat := if m.geom.latent then q / 14 * 16384 + q % 14 * 1152 else q * m.geom.dim * 2

/-- Direct-window address of the inlet slot of a part's record (R154). -/
def inletAddr (w : Wheel) (m : Model) (p : LayerPart) (rec' : Nat) : Nat :=
  w.inletBase + (p.slot + rec' - p.first) % max 1 w.inletSlots * m.inletStride

/-- The bytes that stand in a record's inlet slot. -/
def inletBytes (s : State) (w : Wheel) (m : Model) (p : LayerPart) (rec' : Nat) : List Byte :=
  s.directRead w.part 0 (inletAddr w m p rec') (m.qRegion + 2 * m.hidden)

/-- A record's slot still holds what it held when the part came (R157). A tail record has no outlet record, and is read as it came. -/
def inletIntact (s : State) (w : Wheel) (m : Model) (p : LayerPart) (rec' : Nat) : Bool :=
  p.tail || inletBytes s w m p rec' == p.inlet.getD (rec' - p.first) []

/-- bf16 elements of a record's inlet slot; open where the wheel has reused the slot (R157, log 39). -/
def readInlet (s : State) (w : Wheel) (m : Model) (p : LayerPart) (rec' off n reader : Nat) : List Fp :=
  let b := if inletIntact s w m p rec' then slice (p.inlet.getD (rec' - p.first) []) off (2 * n)
    else (List.range (2 * n)).map (Config.reusedInlet p.stamp rec' reader)
  (List.range n).map fun i => of16 (fieldAt b (2 * i) 2)

/-- Query vector and hidden state of a record (R154). -/
def queryOf (s : State) (w : Wheel) (m : Model) (p : LayerPart) (rec' q : Nat) : List Fp :=
  readInlet s w m p rec' (m.qOff q) m.geom.dim (2 + 2 * q)
def hiddenOf (s : State) (w : Wheel) (m : Model) (p : LayerPart) (rec' v0 : Nat) : List Fp :=
  readInlet s w m p rec' m.qRegion m.hidden (3 + 2 * v0)

-- Masks (R161) and stretches (R164)

/-- An entry's ancestors in its tree, itself first; `n` bounds the depth. -/
def ancestors (es : List RosterEntry) : Nat → RosterEntry → List RosterEntry
  | 0, e => [e]
  | n + 1, e =>
    if e.kind = 1 ∨ e.parent = 0xFF then [e]
    else match es.find? fun f => f.kind == 0 && f.cand == e.parent with
      | some f => e :: ancestors es n f
      | none => [e]

/-- Whether position j takes part in a record's sums (R161). `kv` is the committed KV_LEN. -/
def admits (cfg : LayerCfg) (kv : Nat) (es : List RosterEntry) (e : RosterEntry) (j : Nat) : Bool :=
  let own := (ancestors es 32 e).find? fun f => f.prov == j
  let takes := if e.kind = 1 then decide (j ≤ e.pos) else decide (j < kv) || own.isSome
  let a := if e.kind = 1 ∨ j < kv then j else (own.map fun f => kv + f.depth).getD j
  takes && (cfg.window == 0 || decide (e.pos < a + cfg.window) || decide (a < cfg.keepFirst))

/-- One more than the last position a turn's records can attend. -/
def lastPos (kv : Nat) (es : List RosterEntry) : Nat := es.foldl (fun m e => max m (e.prov + 1)) kv

/-- Page indices of a stretch that some of the records `es` of a turn attend (R164, R166). `all` are the turn's entries, among which a
record's ancestors are, also where an earlier part brought them (R160). -/
def attendedPages (cfg : LayerCfg) (kv : Nat) (all es : List RosterEntry) (stretch : Nat) : List Nat :=
  ((List.range 128).map (128 * stretch + ·)).filter fun k =>
    (List.range 32).any fun i => es.any fun e => decide (32 * k + i < lastPos kv all) && admits cfg kv all e (32 * k + i)

/-- Stretches that records of a turn attend, ascending. -/
def attendedStretches (cfg : LayerCfg) (kv : Nat) (all es : List RosterEntry) : List Nat :=
  (List.range (cdiv (lastPos kv all) 4096)).filter fun st => !(attendedPages cfg kv all es st).isEmpty

/-- The last stretch that a turn attends in its step. -/
def lastStretch (cfg : LayerCfg) (kv : Nat) (es : List RosterEntry) : Option Nat := (attendedStretches cfg kv es es).getLast?

-- Chains (R177, R178)

/-- The stretches of a chain that a member holds, from and to (none: to the end). -/
def Chain.span (c : Chain) (k : Nat) : Nat × Option Nat := (((c.members[k]?).map (·.2)).getD 0, (c.members[k + 1]?).map (·.2))

/-- This device is the last member, or the session is not sharded. -/
def lastMember (x : Session) : Bool :=
  match x.chain with
  | none => true
  | some c => c.own + 1 == c.members.length

/-- A stretch that this device holds of a session. -/
def holdsStretch (x : Session) (st : Nat) : Bool :=
  match x.chain with
  | none => true
  | some c => let (a, b) := c.span c.own; decide (a ≤ st) && ((b.map fun e => decide (st < e)).getD true)

-- Merge (R172, R178)

/-- One level of the canonical tree with nodes received from a chain member in place (R86, R178). -/
def mergeLevel (given : Nat → Option Partial) : Nat → List (Option Partial) → List (Option Partial)
  | i, a :: b :: l =>
    (match given i with
     | some v => some v
     | none => match a, b with
       | some a, some b => some (mergePartial a b)
       | _, _ => none) :: mergeLevel given (i + 1) l
  | i, [a] => [match given i with | some v => some v | none => a]
  | _, [] => []

/-- Every level of the tree above the leaves; `n` bounds the levels. -/
def mergeLevels (given : Nat → Nat → Option Partial) : Nat → Nat → List (Option Partial) → List (List (Option Partial))
  | 0, _, l => [l]
  | n + 1, lvl, l => if l.length ≤ 1 then [l] else l :: mergeLevels given n (lvl + 1) (mergeLevel (given (lvl + 1)) 0 l)

/-- The leaves of a query: partials of attended stretches that this device holds, empty partials for those it holds and the turn
does not attend, none for those of other members, received nodes of level 0 in place. -/
def leavesOf (x : Session) (dv last : Nat) (p : LayerPart) (rec' head : Nat) : List (Option Partial) :=
  (List.range (last + 1)).map fun st =>
    match p.nodes.find? fun n => n.record == rec' && n.head == head && n.level == 0 && n.idx == st with
    | some n => some n.val
    | none =>
      if holdsStretch x st then
        some (((p.partials.find? fun q => q.record == rec' && q.head == head && q.stretch == st).map (·.val)).getD (emptyPartial dv))
      else none

/-- All levels of a query's tree. -/
def treeOf (x : Session) (dv last : Nat) (p : LayerPart) (rec' head : Nat) : List (List (Option Partial)) :=
  mergeLevels (fun l i => (p.nodes.find? fun n => n.record == rec' && n.head == head && n.level == l && n.idx == i).map (·.val)) 16 0
    (leavesOf x dv last p rec' head)

/-- A query had an item of this device at the relaxed rate. -/
def relaxedQuery (p : LayerPart) (rec' q : Nat) : Bool := p.partials.any fun a => a.record == rec' && a.head == q && a.relaxed

/-- What the device has of a query, in the order in which its items finished and node values came (03 R109). -/
def finished (p : LayerPart) (rec' q : Nat) : List Partial :=
  let node := fun (k : Nat) => (p.nodes.filter fun a => a.record == rec' && a.head == q && a.after == k).map (·.val)
  (p.partials.zipIdx.map fun a => node a.2 ++ (if a.1.record = rec' ∧ a.1.head = q then [a.1.val] else [])).flatten ++
    (p.nodes.filter fun a => a.record == rec' && a.head == q && decide (p.partials.length ≤ a.after)).map (·.val)

/-- The merged partial of a query (R172): the root of its tree, or with a relaxed item what the device has of it in order of completion
(03 R109). -/
def rootOf (x : Session) (dv last : Nat) (p : LayerPart) (rec' q : Nat) : Option Partial :=
  if relaxedQuery p rec' q then
    match finished p rec' q with
    | [] => none
    | a :: l => some (l.foldl mergePartial a)
  else ((treeOf x dv last p rec' q).getLast?).bind fun l => (l.head?).bind id

/-- The output elements of a record by query head (R172); none for a turn that has ended the step (R174), or for a record that this
device does not merge; open for a record whose inlet slot was reused (R157). -/
def outputHeads (s : State) (w : Wheel) (m : Model) (p : LayerPart) (rec' : Nat) : Option (List (List Fp)) :=
  match w.entries[rec']? with
  | none => none
  | some e =>
    if w.resolved e.slot then none
    else
      match tget s.ssq.sessions e.session, m.cfg[p.layer]? with
      | some x, some cfg =>
        match (if lastMember x then lastStretch cfg x.kvLen (w.entriesOf e.slot) else none) with
        | none => none
        | some last => some ((List.range m.qheads).map fun q =>
            if p.reused.contains rec' then
              (List.range m.dv).map fun i => of16 (fieldAt ((List.range 2).map fun j => Config.reusedInlet p.stamp rec' 0 (2 * (q * m.dv + i) + j)) 0 2)
            else match rootOf x m.dv last p rec' q with
            | some r => outputOf (if cfg.sink then mergeSink r (of32 (m.sinks.getD (p.layer * m.qheads + q) 0)) else r)
            | none => List.replicate m.dv zero)
      | _, _ => none

/-- bf16 bytes. -/
def bf16Bytes (l : List Fp) : List Byte := (l.map fun v => leBytes 2 (to16 v)).flatten

/-- The bytes of a record's output, padded to the outlet stride (R173, R174). -/
def outputBytes (s : State) (w : Wheel) (m : Model) (p : LayerPart) (rec' : Nat) : List Byte :=
  match outputHeads s w m p rec' with
  | some h => slice (h.map bf16Bytes).flatten 0 m.outletStride
  | none => zeros m.outletStride

/-- Queries of a part that have an element that is NaN (03 R96), as (record, query head). -/
def nanQueries (s : State) (w : Wheel) (m : Model) (p : LayerPart) : List (Nat × Nat) :=
  ((List.range p.count).map fun k => match outputHeads s w m p (p.first + k) with
    | some h => (h.zipIdx.filter fun e => e.1.any (·.isNan)).map fun e => (p.first + k, e.2)
    | none => []).flatten

/-- The nodes of a tree over `n` leaves that have a value and whose parent has none, as (level, index, value), in ascending leaf order. -/
def topNodes (t : List (List (Option Partial))) (n : Nat) : List (Nat × Nat × Partial) :=
  let top := (t.zipIdx.map fun lv => lv.1.zipIdx.filterMap fun nd =>
    match nd.1, ((t[lv.2 + 1]?).bind fun up => up[nd.2 / 2]?) with
    | some _, some (some _) => none
    | some v, _ => some (lv.2, nd.2, v)
    | none, _ => none).flatten
  (List.range n).flatMap fun leaf => top.filter fun e => e.2.1 * 2 ^ e.1 == leaf

/-- Node values that a chain member has received of a query, as (level, index, value), in ascending leaf order. -/
def nodesGiven (p : LayerPart) (rec' q last : Nat) : List (Nat × Nat × Partial) :=
  let l := (p.nodes.filter fun n => n.record == rec' && n.head == q).map fun n => (n.level, n.idx, n.val)
  (List.range (last + 1)).flatMap fun leaf => l.filter fun e => e.2.1 * 2 ^ e.1 == leaf

/-- Node values of its own that a chain member has of a query: those whose leaves all lie in its span and whose parent's do not; of a query
with a relaxed item its stretch partials, which no node above them merges (03 R109, log 68). -/
def nodesMade (x : Session) (dv last : Nat) (p : LayerPart) (rec' q : Nat) : List (Nat × Nat × Partial) :=
  let p := { p with nodes := [] }
  if relaxedQuery p rec' q then (leavesOf x dv last p rec' q).zipIdx.filterMap fun l => l.1.map fun v => (0, l.2, v)
  else topNodes (treeOf x dv last p rec' q) (last + 1)

/-- Node values that a chain member sends on (R178): for each query, those received together with its own, in ascending leaf order, as m, l
and a in fp32. -/
def chainNodes (s : State) (w : Wheel) (m : Model) (p : LayerPart) (rec' : Nat) : List Byte :=
  match w.entries[rec']? with
  | none => []
  | some e =>
    match tget s.ssq.sessions e.session, m.cfg[p.layer]? with
    | some x, some cfg =>
      let last := (lastStretch cfg x.kvLen (w.entriesOf e.slot)).getD 0
      let open_ := fun (q level node : Nat) (b : List Byte) =>
        if p.reused.contains rec' then (List.range b.length).map fun j => Config.reusedInlet p.stamp rec' 1 (((q * 64 + level) * 2 ^ 32 + node) * 2 ^ 16 + j) else b
      ((List.range m.qheads).map fun q => ((nodesGiven p rec' q last ++ nodesMade x m.dv last p rec' q).map fun (lvl, idx, v) =>
        leBytes 4 rec' ++ leBytes 2 q ++ leBytes 1 lvl ++ leBytes 1 0 ++ leBytes 4 idx ++
          open_ q lvl idx (leBytes 4 (to32 v.m) ++ leBytes 4 (to32 v.l) ++ (v.a.map fun a => leBytes 4 (to32 a)).flatten)).flatten).flatten
    | _, _ => []

-- Outlet records of a part (R172, R173)

/-- Cut the records of a range that are written here into messages: at most 1 MiB each, none across the end of the outlet ring. -/
def outletRuns (slots per : Nat) (mine : Nat → Bool) : Nat → Nat → Nat → List (Nat × Nat)
  | 0, _, _ => []
  | n + 1, first, count =>
    if count = 0 then []
    else
      let k := ((List.range (max 1 (min (min count per) (slots - first % slots)))).takeWhile fun i => mine (first + i)).length
      if k = 0 then outletRuns slots per mine n (first + 1) (count - 1)
      else (first, k) :: outletRuns slots per mine n (first + k) (count - k)

/-- This device writes the outlet of a record: it is the last member of the session's chain, or the session is not sharded (R177). -/
def writesRecord (s : State) (x : Wheel) (rec' : Nat) : Bool :=
  (((x.entries[rec']?).bind fun e => tget s.ssq.sessions e.session).map lastMember).getD true

/-- Write the outlet records of a part (R173). On a chain member that is not the last, the node values of the sharded turns go to
the next member instead (R178). -/
def writeOutlet (w : Nat) (p : LayerPart) (s : State) : State :=
  match s.wheel? w with
  | none => s
  | some x =>
    match s.model? x.part x.model with
    | none => s
    | some m =>
      let stride := m.outletStride
      let slots := max 1 x.outletSlots
      let runs := outletRuns slots (2 ^ 20 / max 1 stride) (writesRecord s x) p.count p.first p.count
      let s := runs.foldl (fun s r =>
        wheelWrite x.part x.node x.outletKey (x.outletAddr + r.1 % slots * stride) x.outletCtr r.2
          (((List.range r.2).map fun i => outputBytes s x m p (r.1 + i)).flatten) s) s
      let shard := ((List.range p.count).map (p.first + ·)).filterMap fun r => (x.entries[r]?).bind fun e =>
        (tget s.ssq.sessions e.session).bind fun y => if lastMember y || x.resolved e.slot then none else y.chain.map fun c => (r, y.handle, c)
      let s := shard.foldl (fun s rc =>
        nodeWrite x.part (((rc.2.2.members[rc.2.2.own + 1]?).map (·.1)).getD 0) rc.2.1 (p.stamp * 65536 + rc.1) (chainNodes s x m p rc.1) s) s
      let s := (nanQueries s x m p).foldl (fun s rq =>
        logEv .mxgNonfinite pMxg x.part [((x.entries[rq.1]?).map (·.session)).getD 0, p.layer, rq.1, rq.2] (s.bump (Ctr.mxgNonfiniteEvents 0))) s
      modWheel w (fun x => { x with outletCount := x.outletCount + (runs.map (·.2)).sum }) s

def Item.isAttend : Item → Bool
  | ⟨.attend _ _ _ _, _, _, _, _⟩ => true
  | _ => false

/-- Records of a part that belong to a turn, in roster order. -/
def partRecords (x : Wheel) (p : LayerPart) (slot : Nat) : List Nat :=
  ((List.range p.count).map (p.first + ·)).filter fun r => ((x.entries[r]?).map (·.slot)) == some slot

/-- The pages that a turn names in a stretch of a part's layer, as (page index, handle): those that one of the part's records attends. -/
def namedPages (s : State) (x : Wheel) (m : Model) (p : LayerPart) (slot stretch : Nat) : List (Nat × Nat) :=
  let es := (partRecords x p slot).filterMap fun r => x.entries[r]?
  match es.head?.bind fun e => tget s.ssq.sessions e.session, m.cfg[p.layer]? with
  | some y, some cfg => (attendedPages cfg y.kvLen (x.entriesOf slot) es stretch).filterMap fun k => (y.page p.layer k).map fun h => (k, h)
  | _, _ => []

/-- Pages that the attention items of a layer still to run read. -/
def layerReads (s : State) (x : Wheel) (m : Model) (layer : Nat) : List Nat :=
  ((x.parts.filter fun p => !p.tail && p.layer == layer).map fun p => ((p.items.filter fun i => !i.done).map fun i =>
    match i.kind with
    | .attend t _ st _ => (namedPages s x m p t st).map (·.2)
    | _ => []).flatten).flatten

/-- Drop the wheel's pins on the pages of a layer that no item of the step still reads (04 R133), once the layer's last part has come. -/
def releasePins (w layer : Nat) (s : State) : State :=
  match s.wheel? w with
  | none => s
  | some x =>
    let reads := ((s.model? x.part x.model).map fun m => layerReads s x m layer).getD []
    let mine := x.pins.filter fun h => ((s.rec? h).map (·.layer)) == some layer && !reads.contains h
    let s := modWheel w (fun y => { y with pins := y.pins.filter fun h => !mine.contains h }) s
    foldReady (mine.foldl (fun s h => dropPin h s) s)

/-- All parts of a layer have come. -/
def layerWhole (x : Wheel) (layer : Nat) : Bool := (x.parts.filter fun p => !p.tail && p.layer == layer).any (·.last)

/-- All parts of a layer have come and all their items are done. -/
def layerFinished (x : Wheel) (layer : Nat) : Bool :=
  let ps := x.parts.filter fun p => !p.tail && p.layer == layer
  ps.any (·.last) && ps.all fun p => p.written

def Item.isProject : Item → Bool
  | ⟨.project _ _ _ _, _, _, _, _⟩ => true
  | _ => false

/-- All parts of a layer have come and all their projection items have left their arrays (08 R271). -/
def projected (x : Wheel) (layer : Nat) : Bool :=
  let ps := x.parts.filter fun p => !p.tail && p.layer == layer
  ps.any (·.last) && ps.all fun p => p.items.all fun i => i.done || !i.isProject

-- What the flight recorder keeps of a layer (14 R461, R463, R471)

/-- The index of the step in progress within a turn. -/
def stepIndex (s : State) (slot : Nat) : Nat := ((turnOfSlot s slot).map (·.steps)).getD 0

/-- A RESULT record of a turn's session. -/
def recordResult (e : RosterEntry) (layer code : Nat) (b : List Byte) (s : State) : State :=
  match tget s.ssq.sessions e.session with
  | none => s
  | some y =>
    if (openCapsule s y.handle).isNone || !lastMember y then s
    else capRecord y.handle { type := 4, step := stepIndex s e.slot, layer := layer, payload := leBytes 1 code ++ zeros 7 ++ hash32 b } s

/-- What a record's projection wrote in a layer (R159, 14 R471): FR1 codes and head scales in the order of their head vectors, and the
shadow entry. -/
def projectedBytes (s : State) (y : Session) (layer prov : Nat) : List Byte :=
  match (y.page layer (prov / 32)).bind s.rec? with
  | none => []
  | some r =>
    let b := pageBytes s r
    let g := r.geom
    let t := prov % 32
    let vecs := if g.latent then [t] else (List.range (2 * g.heads)).map fun v => v * 32 + t
    (vecs.map fun v => slice b (g.dataOff 1 + v * g.dim) g.dim).flatten ++ (vecs.map fun v => slice b (192 + v) 1).flatten ++ slice b (64 + 4 * t) 4

/-- The RESULT records PROJECT and ATTEND of the turns of a finished layer. -/
def layerResults (w layer : Nat) (s : State) : State :=
  match s.wheel? w with
  | none => s
  | some x =>
    match s.model? x.part x.model with
    | none => s
    | some m =>
      (x.rosterSlots'.filter fun t => !x.resolved t).foldl (fun s slot =>
        let es := x.entries.zipIdx.filter fun e => e.1.slot == slot
        match es, (es.head?).bind fun e => tget s.ssq.sessions e.1.session with
        | e :: _, some y =>
          if (openCapsule s y.handle).isNone then s
          else
            let kv := (es.map fun f => projectedBytes s y layer f.1.prov).flatten
            let out := (es.map fun f => match x.parts.find? fun p => !p.tail && p.layer == layer && decide (p.first ≤ f.2) && decide (f.2 < p.first + p.count) with
              | some p => outputBytes s x m p f.2
              | none => []).flatten
            recordResult e.1 layer 2 out (recordResult e.1 layer 1 kv s)
        | _, _ => s) s

/-- A record of a part waits for node values of the chain member before this one (R178): those received do not cover, for every query
head, the leaves before this member's span. -/
def recordAwaits (s : State) (x : Wheel) (p : LayerPart) (rec' : Nat) : Bool :=
  match x.entries[rec']?, s.model? x.part x.model with
  | some e, some m =>
    match tget s.ssq.sessions e.session, m.cfg[p.layer]? with
    | some y, some cfg =>
      match y.chain, lastStretch cfg y.kvLen (x.entriesOf e.slot) with
      | some c, some last =>
        let here := p.nodes.filter (·.record == rec')
        !x.resolved e.slot && (List.range m.qheads).any fun q => (List.range (min (c.span c.own).1 (last + 1))).any fun st =>
          !(here.any fun n => n.head == q && n.idx == st / 2 ^ n.level)
      | _, _ => false
    | _, _ => false
  | _, _ => false

/-- A part waits for node values of the chain member before this one. -/
def awaitsNodes (s : State) (x : Wheel) (p : LayerPart) : Bool := (List.range p.count).any fun k => recordAwaits s x p (p.first + k)

/-- The tending core that has a part's work in hand is halted (01 R23, 13 R440): which one that is, is the device's own (log 44). -/
def coreHeld (s : State) (p : LayerPart) : Bool := s.mgc.coresHalted.contains (Config.tendingCore p.stamp % 64)

/-- Records of a part whose inlet slots no longer hold what they held (R157). -/
def reusedRecords (s : State) (x : Wheel) (p : LayerPart) : List Nat :=
  match s.model? x.part x.model with
  | some m => ((List.range p.count).map (p.first + ·)).filter fun r => !inletIntact s x m p r
  | none => []

/-- What a part's last item leaves to do (R172): its outlet records, the release of the layer's pins, and of its weight window
slot once its projection items are done (08 R271). -/
def settleParts (w : Nat) (s : State) : State :=
  match s.wheel? w with
  | none => s
  | some x =>
    let ready := x.parts.filter fun p => !p.tail && !p.written && p.items.all (·.done) && !awaitsNodes s x p && !coreHeld s p
    let finish := fun (p : LayerPart) => { p with written := true, reused := reusedRecords s x p }
    let s := ready.foldl (fun s p => writeOutlet w (finish p) s) s
    let s := modWheel w (fun y => { y with parts := y.parts.map fun p => if ready.contains p then finish p else p }) s
    match s.wheel? w with
    | none => s
    | some x =>
      let all := (x.parts.map (·.layer)).eraseDups
      let s := (all.filter fun l => ready.any (·.layer == l) && layerFinished x l).foldl (fun s l => layerResults w l s) s
      let s := (all.filter (layerWhole x)).foldl (fun s l => releasePins w l s) s
      let free := all.filter (projected x)
      let s := s.setTmg { s.tmg with areas := s.tmg.areas.filter fun a => match a.owner with
        | .excess v st l => !(v == w && st == x.rosterStep && free.contains l)
        | _ => true }
      s.setHrc { s.hrc with filled := s.hrc.filled.filter fun f => !(f.wheel == w && f.step == x.rosterStep && free.contains f.layer) }

/-- The items of a turn that has ended the step are discarded, and their arrays freed (R174). -/
def dropTurnItems (w slot : Nat) (s : State) : State :=
  let ends := fun (p : LayerPart) (x : Wheel) (i : Item) =>
    match i.kind with
    | .attend t _ _ _ => t == slot
    | .heads t => t == slot
    | .project f c _ _ => (List.range c).all fun k => ((x.entries[f + k]?).map fun e => x.resolved e.slot).getD true
    | .logits f c => (List.range c).all fun k => ((x.tailRecords[f + k]?).map fun e => x.resolved e.slot).getD (p.count == 0)
  let drop := fun (x : Wheel) (p : LayerPart) => { p with items := p.items.map fun i =>
      if (ends p x i : Bool) then { i with done := true, array := none } else i }
  modWheel w (fun x => { x with parts := x.parts.map (drop x) }) s

-- The tail block (06 R203)

/-- The 64 bytes of a tail block entry. -/
def tailEntryBytes (e : TailEntry) : List Byte :=
  leBytes 2 e.slot ++ leBytes 2 e.status.code ++ leBytes 1 e.toks.length ++
    leBytes 1 ((if e.ended then 1 else 0) + (if e.late then 2 else 0) + 4 * e.endReason) ++ leBytes 2 0 ++ leBytes 4 e.session ++ leBytes 4 0 ++
    leBytes 8 e.firstPos ++ ((List.range 5).map fun i => leBytes 4 (e.toks.getD i 0xFFFFFFFF)).flatten ++ zeros 20

/-- The 64-byte header of a tail block. -/
def tailHeader (step seq turns : Nat) : List Byte :=
  leBytes 2 0x5452 ++ leBytes 1 1 ++ leBytes 1 0 ++ leBytes 4 step ++ leBytes 4 seq ++ leBytes 2 turns ++ zeros 50

/-- The TAIL record of an entry (14 R461, R463): of a turn that runs on when the block is written, of one that ends with its end. -/
def recordTail (e : TailEntry) (s : State) : State :=
  match tget s.ssq.sessions e.session with
  | none => s
  | some y => if lastMember y then capRecord y.handle { type := 5, step := e.step, layer := 0xFFFF, payload := tailEntryBytes e } s else s

/-- Write the tail block (R203) in messages of at most 1 MiB, each adding its entries to OUTLET_CTR, and the flush behind it. -/
def writeTailBlock (w : Nat) (s : State) : State :=
  match s.wheel? w with
  | none => s
  | some x =>
    let es := x.rosterSlots'.map fun slot => ((x.results.find? (·.slot == slot)).getD { slot := slot, session := 0, status := .ok, ended := false })
    let recs := es.map tailEntryBytes
    let s := wheelWrite x.part x.node x.outletKey x.outletAddr x.outletCtr (min recs.length 16383)
      (tailHeader x.rosterStep x.rosterSeq recs.length ++ (recs.take 16383).flatten) s
    let s := if recs.length ≤ 16383 then s
      else wheelWrite x.part x.node x.outletKey (x.outletAddr + 64 + 64 * 16383) x.outletCtr (recs.length - 16383) (recs.drop 16383).flatten s
    let s := (es.filter fun e => !e.ended).foldl (fun s e => recordTail e s) s
    wheelFlush x.part x.node w (modWheel w (fun x => { x with blockWritten := true, flushing := true, outletCount := x.outletCount + recs.length }) s)

/-- The token tail of some turn of the roster is this device's (R177). -/
def hasTail (s : State) (x : Wheel) : Bool := x.entries.any fun e => ((tget s.ssq.sessions e.session).map lastMember).getD true

/-- The last layer of the step has been delivered and all its parts are written. -/
def layersOver (s : State) (x : Wheel) : Bool :=
  let n := ((s.model? x.part x.model).map (·.layers)).getD 1
  x.lastStep == x.rosterStep && x.lastLayer + 1 == n && x.layerDone && (x.parts.filter fun p => !p.tail).all (·.written)

/-- Whether a wheel's tail is over: its last part came (none comes to a device that has no turn's tail), every turn of the roster is
resolved, and no item is left. -/
def tailOver (s : State) (x : Wheel) : Bool :=
  (if hasTail s x then x.tailDone else layersOver s x) && !x.blockWritten && x.rosterSlots'.all x.resolved && x.parts.all fun p => p.items.all (·.done)

/-- Once the tail is over: the block, the step as the last committed one, and the step boundary's own changes (R51). -/
def finishTail (w : Nat) (s : State) : State :=
  match s.wheel? w with
  | none => s
  | some x =>
    if tailOver s x then
      let s := writeTailBlock w (s.bump Ctr.mxgTailSteps)
      modWheel w (fun y => { y with committed := y.rosterStep }) s
    else s

-- Rollback of a turn's page effects (04 R141)

/-- Overwrite what a position of a page holds with open bytes: its codes and head scales (R141: left undefined). -/
def voidPosition (h t : Nat) (s : State) : State :=
  match s.rec? h with
  | none => s
  | some r =>
    let g := r.geom
    let heads := if g.latent then [(0, 0)] else ((List.range 2).map fun c => (List.range g.heads).map fun y => (c, y)).flatten
    let s := writePage h (64 + 4 * t) (leBytes 4 0xFFFFFFFF) s
    heads.foldl (fun s cy =>
      let v := g.vecIdx cy.1 cy.2 t
      let (b, s) := s.freshBytes (g.dim + 1)
      writePage h (192 + v) (b.take 1) (writePage h (g.dataOff 1 + v * g.dim) (b.drop 1) s)) s

/-- Reject the positions of a session from `kv` up to `top` in every layer (R141): positions of pages that hold accepted ones are
voided, the other pages leave the map. -/
def rejectFrom (i layers kv top : Nat) (s : State) : State :=
  match tget s.ssq.sessions i with
  | none => s
  | some x =>
    let gone := x.map.filter fun e => decide (kv ≤ 32 * keyPage e.1) && !foldedRef e.2
    let s := placeMap i (putSession i { x with map := x.map.filter fun e => !(decide (kv ≤ 32 * keyPage e.1) && !foldedRef e.2) } s)
    let s := gone.foldl (fun s e => dropRef e.2 s) s
    let s := s.bumpBy Ctr.tmgPagesRolledBack gone.length
    if kv % 32 = 0 then s
    else
      (List.range layers).foldl (fun s l =>
        match x.page l (kv / 32) with
        | some h => ((List.range 32).filter fun t => decide (kv % 32 ≤ t) && decide (kv / 32 * 32 + t < top)).foldl (fun s t => voidPosition h t s) s
        | none => s) s

/-- A record of a step that is rolled back is kept and marked VOID (14 R461): its inputs, results, tail entry and errors. Commands, events and
attaches are the session's and not a step's: a replay runs them (14 R474, log 47). -/
def voidRecord (step : Nat) (r : CapRec) : CapRec := if r.step = step ∧ [3, 4, 5, 7].contains r.type then { r with void := true } else r

/-- Roll back the step of one turn (R141): what it wrote beyond KV_LEN is rejected. -/
def rollbackTurn (w slot : Nat) (s : State) : State :=
  match s.wheel? w with
  | none => s
  | some x =>
    match x.entriesOf slot with
    | [] => s
    | e :: es =>
      match tget s.ssq.sessions e.session, s.model? x.part x.model with
      | some y, some m =>
        if x.resolved slot ∨ x.parts.isEmpty then s
        else rejectFrom e.session m.layers y.kvLen (lastPos y.kvLen (e :: es))
          (modCapsule y.handle (fun c => { c with noted := [], records := c.records.map (voidRecord (stepIndex s slot)) }) s)
      | _, _ => s

/-- Entries that wait for the re-run of an item of a wheel which is no longer to come: it did not pass (14 R448). -/
def settleGone (w : Nat) (s : State) : State :=
  let waits := fun (k : Nat × Nat × Nat) => ((s.wheel? w).bind fun x => (x.parts.find? (·.stamp == k.2.1)).bind fun p => p.items[k.2.2]?).any (!·.done)
  settleWhere (fun k => k.1 == w && !waits k) false s

/-- Roll back a wheel's step for every turn in it (02 R51, 05 R156): the turns stay RUNNING, the roster stays, and the step starts
again at (c + 1, 0). -/
def rollbackWheel (w : Nat) (s : State) : State :=
  match s.wheel? w with
  | none => s
  | some x =>
    let n := ((s.model? x.part x.model).map (·.layers)).getD 1
    let s := x.rosterSlots'.foldl (fun s slot => rollbackTurn w slot s) s
    let s := foldReady (x.pins.foldl (fun s h => dropPin h s) s)
    let s := modWheel w (fun y => { y with parts := [], nextPart := 0, nextRec := 0, layerDone := true, tailDone := false, tailBegun := false, pins := [],
                                           lastStep := y.committed, lastLayer := n - 1, rolledBack := y.roster.isSome }) s
    settleGone w s

end Sys2Proof.Machine
end

