-- ==== Sys2Proof/Machine/Recorder.lean ====
section
/-!
DEFINITION. Machine/Recorder.lean: the bytes of a session descriptor (02 R42) and of a token tail parameter block (06 R186),
the flight recorder's capsules (14 R461-R469), and the commit point of a session (02 R59).
-/
set_option cleanup.letToHave false
namespace Sys2Proof.Machine

open Sys2Proof

-- Session descriptors (R42)

def SState.code : SState → Nat
  | .opened => 1
  | .active => 2
  | .waiting => 3
  | .parked k => 3 + k
  | .expired => 7

/-- Descriptor bytes 0x000 to 0x1F7. -/
def descBody (x : Session) : List Byte :=
  leBytes 8 x.handle ++ leBytes 1 x.state.code ++ leBytes 1 x.rung ++
    leBytes 2 ((if x.turnPending then 1 else 0) + (if x.prefillRequired then 2 else 0) + (if x.record then 4 else 0)) ++ leBytes 4 x.turn ++
    leBytes 8 x.model ++ leBytes 4 x.adapter ++ leBytes 4 x.adapterVer ++ leBytes 4 x.profileId ++ leBytes 2 x.contract ++
    leBytes 1 (if x.relaxed then 1 else 0) ++ leBytes 1 0 ++ leBytes 8 x.history.length ++ leBytes 8 x.kvLen ++ leBytes 8 x.historyPtr ++
    leBytes 8 x.pageRoot ++ leBytes 8 x.penaltyPtr ++ slice x.seed 0 32 ++ leBytes 8 x.drawCount ++ leBytes 8 x.expiryTick ++
    leBytes 8 x.retainTick ++ leBytes 8 x.rungTick ++ leBytes 4 x.ttlTicks ++ leBytes 4 x.retainTicks ++ leBytes 8 x.commitSeq ++
    slice x.tailParams 0 96 ++ slice x.hostCtx 0 128 ++ zeros 120

/-- The 512 bytes of a descriptor, CHECK included. -/
def descBytes (x : Session) : List Byte := descBody x ++ shake256 (descBody x) 8

-- Objects below the registers (13 R429, R440)

/-- An object that the device keeps in a tier for a partition, not in a page slot: its first 512-byte unit, KIND and GEN of its tweak and the
UNIT there of its first unit (13 R429), and its bytes. -/
structure Stored where
  part : Nat
  unit : Nat
  kind : Nat
  gen : Nat
  first : Nat := 0
  bytes : List Byte
deriving DecidableEq, Repr

/-- Whether an object holds a unit, and the 512 bytes there. -/
def Stored.has (o : Stored) (u : Nat) : Bool := decide (o.unit ≤ u) && decide (u < o.unit + cdiv o.bytes.length 512)
def Stored.at_ (o : Stored) (u : Nat) : List Byte := slice o.bytes ((u - o.unit) * 512) 512

/-- Open and current generation of a session (13 R429). -/
def sessionGens (s : State) (i : Nat) : Nat × Nat := tgetD s.sec.gens i (0, 0)

/-- Entries of a count table (06 R200): token and count, 8 bytes each (log 61). -/
def countBytes (t : Table Nat) : List Byte := (t.map fun e => leBytes 4 e.1 ++ leBytes 4 e.2).flatten

/-- The descriptor of a session, in SSQ-private T1 (02 R42). -/
def descObject (s : State) (i : Nat) (x : Session) : Stored :=
  { part := x.part, unit := Config.objectUnit 0 i, kind := 3, gen := (sessionGens s i).2, bytes := descBytes x }

/-- The penalty table at PENALTY_PTR: what overflows while a turn holds the counts, else what its end wrote back (06 R200). -/
def penaltyObject (s : State) (i : Nat) (x : Session) : Stored :=
  { part := x.part, unit := x.penaltyPtr / 512, kind := 3, gen := (sessionGens s i).2,
    bytes := countBytes (((s.ssq.turns.find? fun t => t.session == i && t.state != .queued).map (·.spill)).getD x.penalty) }

/-- The history at HISTORY_PTR: its full units, and the one that is still filling (13 R429). -/
def historyObjects (s : State) (i : Nat) (x : Session) : List Stored :=
  let b := (x.history.map (leBytes 4)).flatten
  let full := b.length / 512
  [{ part := x.part, unit := x.historyPtr / 512, kind := 5, gen := (sessionGens s i).1, bytes := b.take (512 * full) },
   { part := x.part, unit := x.historyPtr / 512 + full, kind := 4, gen := (sessionGens s i).2, first := full, bytes := b.drop (512 * full) }]

/-- The cold map of a folded session (04 R131). -/
def coldObject (s : State) (i : Nat) (x : Session) : Stored :=
  { part := x.part, unit := x.coldAt.1 * 8, kind := 3, gen := (sessionGens s i).2, bytes := slice x.coldBytes 0 (x.coldAt.2 * 4096) }

/-- What a session keeps in a tier. -/
def sessionObjects (s : State) (k i : Nat) (x : Session) : List Stored :=
  (if k = 1 then [descObject s i x, penaltyObject s i x] ++ historyObjects s i x else []) ++ (if x.foldTier = k ∧ k ≠ 0 then [coldObject s i x] else [])

/-- KIND and unit of what fails its tag of objects in a tier (13 R431). -/
def objectsBad (s : State) (k : Nat) (l : List Stored) : List (Nat × Nat) :=
  (l.map fun o => if s.isProtected o.part then (s.sec.badUnits.filter fun u => u.1 == k && o.has u.2).map fun u => (o.kind, u.2) else []).flatten

-- Token tail parameters (R186)

/-- Fields of a tail parameter block. -/
def tpNodes (b : List Byte) : Nat := fieldAt b 0x1C 1
def tpMaxNew (b : List Byte) : Nat := fieldAt b 0x20 4
def tpStops (b : List Byte) : List Nat := (List.range (fieldAt b 0x24 1)).map fun i => fieldAt b (0x28 + 4 * i) 4

def Fp.isFinite (x : Fp) : Bool := !x.isNan && !x.isInf

/-- A block obeys R186, TREE_NODES at most `tree` (R187). -/
def tailParamsOk (tree : Nat) (b : List Byte) : Bool :=
  let f := fun o => Fp.of32 (fieldAt b o 4)
  let n := fieldAt b 0x24 1
  b.length == 96 && (f 0).isFinite && Fp.lt .zero (f 0) && (f 4).isFinite && (f 8).isFinite && (f 0x0C).isFinite && !Fp.lt (f 0x0C) .zero &&
    decide (fieldAt b 0x10 4 ≤ 262144) && (f 0x14).isFinite && Fp.lt .zero (f 0x14) && Fp.le (f 0x14) .one && decide (fieldAt b 0x18 4 ≤ 65536) &&
    decide (1 ≤ tpNodes b ∧ tpNodes b ≤ tree) && fieldAt b 0x1D 3 == 0 && decide (1 ≤ tpMaxNew b ∧ tpMaxNew b ≤ 2097152) && decide (n ≤ 8) &&
    fieldAt b 0x25 3 == 0 && fieldAt b (0x28 + 4 * n) (32 - 4 * n) == 0 && fieldAt b 0x48 24 == 0

-- Capsules

/-- The partition records its turns. -/
def recording (s : State) (n : Nat) : Bool := s.flag (Reg.frcPbCtrlEn n)

/-- Records of a session collect in staging from its opening, and from each sealing, on; COMMAND records keep the whole buffer until
the turn's admission fixes the mode (R461). -/
def stageCapsule (h n : Nat) (s : State) : State :=
  if recording s n then s.setFrc { s.frc with staging := s.frc.staging ++ [({ session := h, turn := 0, part := n, full := true } : Capsule)] } else s

/-- A session that another member of its chain records has no capsule here (R461). -/
def dropCapsule (h : Nat) (s : State) : State := s.setFrc { s.frc with staging := s.frc.staging.filter fun c => c.sealed || c.session != h }

/-- A COMMAND record in hash mode: its entry and its buffer's hash. -/
def hashCommand (r : CapRec) : CapRec := if r.type = 1 then { r with payload := r.payload.take 64 ++ hash32 (r.payload.drop 64) } else r

/-- The 512-byte header at a turn's admission (R462); what sealing sets is zero. -/
def capsuleHeader (s : State) (x : Session) (t : Turn) : List Byte :=
  let ad := s.ssq.adapters.find? fun a => a.part == x.part && a.id == x.adapter && a.ver == x.adapterVer
  let tail := ((s.model? x.part x.model).map (·.tailId)).getD 0
  leBytes 4 0x53564350 ++ leBytes 2 1 ++ leBytes 1 (if x.record then 2 else 1) ++ leBytes 1 0 ++ leBytes 8 deviceUid ++ leBytes 8 x.handle ++
    leBytes 4 x.turn ++ leBytes 1 x.part ++ leBytes 1 (if x.relaxed then 1 else 0) ++ leBytes 2 x.contract ++ leBytes 4 (s.getF Reg.secFwVersion) ++
    leBytes 4 (s.getF Reg.secFwSvn) ++ leBytes 8 x.model ++ leBytes 8 tail ++ leBytes 4 x.adapter ++ leBytes 4 x.adapterVer ++
    (match ad with | some a => shake256 a.image 32 | none => zeros 32) ++ slice x.seed 0 32 ++ leBytes 8 x.drawCount ++
    leBytes 8 x.history.length ++ leBytes 8 x.kvLen ++ leBytes 8 t.submitSeq ++ leBytes 8 s.tick ++ zeros 16 ++
    slice (tgetD s.frc.finals x.handle []) 0 64 ++ ((List.range 8).map fun i => leBytes 8 (s.getF (Reg.secFwMeasData i))).flatten ++
    slice x.tailParams 0 96 ++ zeros 104

/-- A turn's admission opens its capsule (R461). -/
def admitCapsule (x : Session) (t : Turn) (s : State) : State :=
  modCapsule x.handle (fun c => { c with turn := x.turn, full := x.record, header := capsuleHeader s x t,
                                         records := if x.record then c.records else c.records.map hashCommand }) s

/-- The bytes of a record (R463). -/
def CapRec.bytes (r : CapRec) : List Byte :=
  leBytes 2 r.type ++ leBytes 1 (if r.void then 1 else 0) ++ leBytes 1 0 ++ leBytes 4 r.payload.length ++ leBytes 4 r.step ++ leBytes 2 r.layer ++
    leBytes 2 r.index ++ r.payload ++ zeros ((8 - r.payload.length % 8) % 8)

/-- Staging in use, in bytes. -/
def stagingBytes (s : State) : Nat := (s.frc.staging.map fun c => if c.sealed then c.bytes.length else 512 + (c.records.map fun r => r.bytes.length).sum).sum

/-- The staging area's size in bytes. -/
def stagingSize (s : State) : Nat := s.getF Reg.frcStagingSizeMib * 2 ^ 20

/-- Records that fit in a number of bytes. -/
def fitRecords : Nat → List CapRec → List CapRec
  | _, [] => []
  | n, r :: l => if r.bytes.length ≤ n then r :: fitRecords (n - r.bytes.length) l else []

/-- Encrypt the body of a capsule of a protected partition in 512-byte units (R464). -/
def capTweak (part gen unit : Nat) : List Byte := leBytes 8 gen ++ leBytes 6 unit ++ leBytes 1 7 ++ leBytes 1 part
def capCipher (key : List Byte) (part gen : Nat) (b : List Byte) : List Byte :=
  ((List.range (cdiv b.length 512)).map fun i => Config.aesXts key (capTweak part gen (i + 1)) ((b.drop (512 * i)).take 512)).flatten

/-- Offsets and lengths of the records in the body. -/
def recSpans : Nat → List CapRec → List (Nat × Nat)
  | _, [] => []
  | o, r :: l => (o, r.bytes.length) :: recSpans (o + r.bytes.length) l

/-- The chain of a capsule over its header and its records as stored (R464). -/
def capChain (header : List Byte) (recs : List (List Byte)) : List Byte :=
  recs.foldl (fun h r => shake256 (h ++ r) 64) (shake256 header 64)

/-- Header, body and chain of a capsule as stored. -/
def capsuleStored (s : State) (c : Capsule) (header : List Byte) (recs : List CapRec) : List Byte × List Byte × List Byte :=
  let body := (recs.map (·.bytes)).flatten
  if s.isProtected c.part then
    let key := (tgetD s.sec.memKeys c.part []).take 64
    let gen := fieldAt header 0x98 8
    let header := patch header 0x60 (Config.aesXts key (capTweak c.part gen 0) (slice header 0x60 32))
    let enc := capCipher key c.part gen body
    (header, enc ++ zeros ((512 - enc.length % 512) % 512), capChain header ((recSpans 0 recs).map fun sp => slice enc sp.1 sp.2))
  else (header, body, capChain header (recs.map (·.bytes)))

/-- Seal the open capsule of a session (R465): its flags, chain, signature and bytes. What staging cannot hold is left out and the
capsule is INCOMPLETE (R468, R469). -/
def sealCapsule (h : Nat) (s : State) : State :=
  match openCapsule s h with
  | none => s
  | some c =>
    let others := stagingBytes { s with frc := { s.frc with staging := s.frc.staging.filter (· != c) } }
    let room := stagingSize s - others
    let total := 512 + (c.records.map fun r => r.bytes.length).sum + 64 + 3309
    let cut := decide (room < total)
    let recs := if cut then fitRecords (room - 512 - 64 - 3309) c.records else c.records
    let affected := c.used.any c.errs.contains
    let flags := (if cut then 1 else 0) + (if affected then 2 else 0) + (if fieldAt c.header 0x1D 1 = 1 then 4 else 0) +
      (if s.isProtected c.part then 8 else 0) + (if recs.any (·.type == 6) then 16 else 0)
    let header := patch (patch c.header 7 (leBytes 1 flags)) 0xA8 (leBytes 8 (recs.map fun r => r.bytes.length).sum ++ leBytes 4 recs.length)
    let (header, body, final) := capsuleStored s c header recs
    let raw := header ++ body ++ final ++ slice (Config.mlDsaSign final (ascii "SV8-CAPSULE")) 0 3309
    let bytes := raw ++ zeros ((4096 - raw.length % 4096) % 4096)
    let done := { c with sealed := true, records := recs, incomplete := cut, errorAffected := affected, header := header, sealTick := s.tick,
                         final := final, bytes := bytes }
    let s := s.setFrc { s.frc with staging := s.frc.staging.map fun k => if k = c then done else k, finals := tset s.frc.finals h final }
    let s := (s.bump Ctr.frcCapsulesSealed).bumpBy Ctr.frcCapsuleBytes bytes.length
    if cut then logEv .frcOverflow pFrc c.part [h, c.turn] (s.bump Ctr.frcCapsulesIncomplete) else s

-- The commit point (02 R59)

/-- Kinds of commit-point events, as EVENT records number them (log 33). -/
inductive Evt where
  | opened | submitted | admitted | committed | ended | cancelled | closed | parked | rebound | written | ladder | expired | retired | attached
  | sharded | extended
deriving DecidableEq, Repr

def Evt.code : Evt → Nat
  | .opened => 1
  | .submitted => 2
  | .admitted => 3
  | .committed => 4
  | .ended => 5
  | .cancelled => 6
  | .closed => 7
  | .parked => 8
  | .rebound => 9
  | .written => 10
  | .ladder => 11
  | .expired => 12
  | .retired => 13
  | .attached => 14
  | .sharded => 15
  | .extended => 16

/-- A session that is neither ACTIVE nor has TURN_PENDING. -/
def Session.idle (x : Session) : Bool := x.state != .active && !x.turnPending

/-- A session as the transition for a lost page leaves it (04 R142): tests of its next event see it so. -/
def Session.healed (x : Session) : Session := if x.lostPage && x.idle then { x with state := .expired, kvLen := 0, prefillRequired := true } else x

/-- Drop a session's KV (02 R44): its page references, KV_LEN, PREFILL_REQUIRED. -/
def dropKv (i : Nat) (s : State) : State :=
  modSession i (fun x => { x with state := .expired, kvLen := 0, prefillRequired := true, lostPage := false, foldDue := 0 }) (releaseKv i s)

/-- An event passes a session's commit point (R59): first the transition of a lost page (04 R142) and the repoints of the prefix store
(07 R234), then the next COMMIT_SEQ, the new generation of a protected session's objects (13 R429), and the EVENT record. -/
def commitEvent (i : Nat) (k : Evt) (st : Status) (s : State) : State :=
  match tget s.ssq.sessions i with
  | none => s
  | some x =>
    let s := if x.lostPage && x.idle then dropKv i s else s
    let s := applyRepoints i s
    let s := modSession i (fun x => { x with commitSeq := x.commitSeq + 1 }) s
    let s := if s.isProtected x.part then
        let (g, s) := takeGen s
        { s with sec := { s.sec with gens := tset s.sec.gens i (((tget s.sec.gens i).map (·.1)).getD g, g) } }
      else s
    capEvent x.handle k.code (x.commitSeq + 1) st s

/-- COMMIT_SEQ of a session. -/
def seqOf (s : State) (i : Nat) : Nat := ((tget s.ssq.sessions i).map (·.commitSeq)).getD 0

end Sys2Proof.Machine
end

