-- ==== Sys2Proof/Machine/Spill.lean ====
section
/-!
DEFINITION. Machine/Spill.lean: the Spillway (08 R257-R267, R276-R278): occupancy, moves down a park ladder, relief, clean-ahead
copies, promotion by heat, and reads that wait for a T0 slot (R259).
-/
set_option cleanup.letToHave false
namespace Sys2Proof.Machine

open Sys2Proof

-- Occupancy (R257)

/-- Whether the occupancy of a partition's tier is above `pct` percent, `out` slots and `outUnits` units not counted. -/
def occupied (s : State) (n k pct out outUnits : Nat) : Bool :=
  let slots := slotsOf s n k
  let quota := s.getF (Reg.tmgPbQuotaTk n k)
  (quota != 0 && decide (pct * quota < 100 * (slots.length - out))) ||
    decide (pct * pagePart s n k < 100 * ((slots.map (·.2)).sum - outUnits))

def hiWater (s : State) : Nat := s.getF Reg.tmgMigrateHiWater
def loWater (s : State) : Nat := s.getF Reg.tmgMigrateLoWater

-- Who holds a page back (R45, R258, R278)

/-- The tier that a session sits on (R45); none for an EXPIRED one, which holds no page back. -/
def seatTier (s : State) (x : Session) : Option Nat :=
  match x.state with
  | .active => some 0
  | .expired => none
  | .opened => some (s.getF (Reg.ssqPbLadderTier x.part 0))
  | _ => some (s.getF (Reg.ssqPbLadderTier x.part x.rung))

/-- Sessions whose map names a page. -/
def sessionsNaming (s : State) (h : Nat) : List (Nat × Session) := s.ssq.sessions.filter fun x => namesPage x.2 h

/-- The Spillway may move a page of a parking session to a tier (R45). -/
def mayLadder (s : State) (h tier : Nat) : Bool :=
  (sessionsNaming s h).all fun x => x.2.idle && ((seatTier s x.2).map fun k => decide (tier ≤ k)).getD true

/-- A page is dead for a RUNNING turn with KV_LEN `kv` (R278). -/
def deadAt (cfg : LayerCfg) (kv page : Nat) : Bool :=
  cfg.window != 0 && decide (cfg.keepFirst ≤ 32 * page) && decide (32 * page + 31 + cfg.window ≤ kv)

/-- A page that relief may take although a session that names it is busy: dead for its RUNNING turn, and the wheel is past its
layer (R278). -/
def deadFor (s : State) (i : Nat) (x : Session) (r : PageRec) : Bool :=
  match s.ssq.turns.find? fun t => t.session == i && t.state == .running, s.model? x.part x.model with
  | some t, some m =>
    match m.cfg[r.layer]? with
    | some cfg => deadAt cfg t.prevKv r.page || (deadAt cfg x.kvLen r.page && (decide (r.layer + 1 < m.layers) || t.spPassed))
    | none => false
  | _, _ => false

/-- A page is relief-eligible (R258). -/
def reliefOk (s : State) (h : Nat) (r : PageRec) : Bool :=
  r.pin == 0 && !r.recovery && !r.lost && (moveOf s h).isNone && (sessionsNaming s h).all fun x => x.2.idle || deadFor s x.1 x.2 r

-- Moves

/-- A destination tier has no slot: counted and logged (R259, R277). -/
def allocWait (n h tier : Nat) (s : State) : State := logEv .tmgAllocWait pTmg n [h, tier] (s.bump Ctr.tmgAllocWaits)

/-- Start a move of a page downward; where its tier has no slot, to the next deeper tier that has one (R277). -/
def spillMove (h tier : Nat) (why : MoveWhy) (s : State) : State :=
  match startMove h tier why s with
  | some s => s
  | none =>
    let s := allocWait (((s.rec? h).map (·.part)).getD 0xFF) h tier s
    (((List.range 4).filter fun k => decide (tier < k)).findSome? fun k => startMove h k why s).getD s

/-- The row that a read of a tier involves: T1's, the only tier below T0 whose rows are tested (14 R453). -/
def dimmRow (tier base : Nat) : Option Resource := if tier = 1 then rowUnit? 1 base else none

/-- The error of a failed or late read (14 R448), with its event. -/
def tierError (ev : Ev) (slot part tier : Nat) (unit : Option Resource) (h : Nat) (who : Met) (layer : Nat) (s : State) : State :=
  raiseErr { slot := slot, ev := ev, cls := .contained, part := part, resource := h, session := who.session, wheel := who.wheel, layer := layer, against := [(0, h)],
             detail := [tier], unit := unit } s

/-- Units of a slot whose next read, or write, fails (R282); and its failure is met. -/
def slotFails (s : State) (k base units : Nat) (write : Bool) : Bool :=
  s.tmg.badAccess.any fun b => b.1 == k && b.2.2 == write && decide (base ≤ b.2.1 ∧ b.2.1 < base + units)
def failMet (k base units : Nat) (write : Bool) (s : State) : State :=
  s.setTmg { s.tmg with badAccess := s.tmg.badAccess.filter fun b => !(b.1 == k && b.2.2 == write && decide (base ≤ b.2.1 ∧ b.2.1 < base + units)) }

/-- A slot in a tier, or where it has none, in the next deeper tier that has one (R277); `units` of it are avoided. -/
def deeperSlot (s : State) (r : PageRec) (tier index : Nat) : Option (Nat × Nat) :=
  ((List.range 4).filter fun k => decide (tier ≤ k)).findSome? fun k => (allocSlot s r.part k r.slot4k ((r.layer + r.page + index) % 8)).map fun b => (k, b)

/-- Recovery of a page without a handle (04 R142, R281): the verified read of its lower copy, else of its own, into a new slot; it is lost if
the read fails. -/
def foldedRecover (r : PageRec) (index : Nat) (s : State) : State × PageRec :=
  let tier := if r.lowerValid then r.lowerTier else r.tier
  let base := if r.lowerValid then r.lowerBase else r.base
  match (if s.tierUp tier && !slotFails s tier base r.slot4k false then expanderRead {} 0 r tier base s else (s, false)) with
  | (s, false) => (logEv .tmgPageLost pTmg r.part [0] (s.bump Ctr.tmgPagesLost), { r with lost := true })
  | (s, true) =>
    let b := slotBytes s tier base r.slot4k
    let old := fun (s : State) => handToTest r.tier r.base (releaseSlot r.tier r.base r.slot4k s)
    match allocSlot s r.part r.tier r.slot4k ((r.layer + r.page + index) % 8) with
    | some x => ((writeSlot r.tier x b (old s)).bump Ctr.tmgRecoveriesOk, { r with base := x })
    | none =>
      if r.lowerValid then
        ((old s).bump Ctr.tmgRecoveriesOk, { r with base := r.lowerBase, tier := r.lowerTier, lowerValid := false, lowerBase := 0, lowerTier := 0 })
      else
        match deeperSlot s r r.tier index with
        | some (k, x) => ((writeSlot k x b (old s)).bump Ctr.tmgRecoveriesOk, { r with base := x, tier := k })
        | none => (s, { r with recovery := true })

/-- The read of a folded page's move fails (R282): no turn ends, and the page passes to recovery. -/
def foldedFails (r : PageRec) (index : Nat) (s : State) : State × PageRec :=
  let s := tierError .tmgMoveFailed pTmg r.part r.tier (dimmRow r.tier r.base) 0 {} r.layer (failMet r.tier r.base r.slot4k false (s.bump Ctr.tmgMoveFailures))
  foldedRecover r index s

/-- The write of a folded page's move to its destination fails (R282): the slot is handed to the self-test, and another is chosen. -/
def foldedDest (r : PageRec) (tier index : Nat) (s : State) : Option (Nat × Nat) × State :=
  match deeperSlot s r tier index with
  | none => (none, s)
  | some (k, b) =>
    if slotFails s k b r.slot4k true then
      let s := handToTest k b (failMet k b r.slot4k true s)
      let avoid := (List.range r.slot4k).map fun j => (k, b + j)
      (deeperSlot (s.setFrc { s.frc with withdrawn := avoid ++ s.frc.withdrawn }) r tier index, s)
    else (some (k, b), s)

/-- Give a page of a folded map or column a slot of a tier, or where it has none, of the next deeper tier that has one (R277); its lower copy
there takes its place without a transfer (R261). -/
def foldedPlace (r : PageRec) (tier index : Nat) (s : State) : State × PageRec :=
  match foldedDest r tier index s with
  | (none, s) =>
    let s := allocWait r.part 0 tier s
    if r.lowerValid ∧ tier ≤ r.lowerTier then
      (releaseSlot r.tier r.base r.slot4k s, { r with base := r.lowerBase, tier := r.lowerTier, lowerValid := false, lowerBase := 0, lowerTier := 0 })
    else (s, r)
  | (some (k, b), s) =>
    let s := if k = tier then s else allocWait r.part 0 tier s
    if r.lowerValid ∧ tier ≤ r.lowerTier ∧ r.lowerTier ≤ k ∧ r.tier < r.lowerTier then
      (releaseSlot r.tier r.base r.slot4k s, { r with base := r.lowerBase, tier := r.lowerTier, lowerValid := false, lowerBase := 0, lowerTier := 0 })
    else if !s.tierUp r.tier || slotFails s r.tier r.base r.slot4k false then foldedFails r index s
    else
      let s := releaseSlot r.tier r.base r.slot4k (copySlot r.tier r.base k b r.slot4k s)
      if r.lowerValid && decide (k < r.lowerTier) then (s, { r with base := b, tier := k })
      else
        let s := if r.lowerValid then releaseSlot r.lowerTier r.lowerBase r.slot4k s else s
        (s, { r with base := b, tier := k, lowerValid := false, lowerBase := 0, lowerTier := 0, dirty := r.dirty && !r.sealed })

/-- Move one page of a folded map or column down (R261), whose record has no handle: at once (log 34). -/
def foldedMove (r : PageRec) (tier index : Nat) (s : State) : State × PageRec :=
  if tier ≤ r.tier ∨ r.recovery ∨ r.lost then (s, r) else foldedPlace r tier index s

/-- Promote one page of a folded map or column (R261, R267): as an upward move does, into the tier named or not at all. -/
def foldedPromote (r : PageRec) (tier index : Nat) (s : State) : State × PageRec :=
  if r.tier ≤ tier ∨ r.recovery ∨ r.lost then (s, r)
  else
    match allocSlot s r.part tier r.slot4k ((r.layer + r.page + index) % 8) with
    | none => (s, r)
    | some b =>
      if !s.tierUp r.tier || slotFails s r.tier r.base r.slot4k false then foldedFails r index s
      else
        let s := (copySlot r.tier r.base tier b r.slot4k s).bump Ctr.tmgPromotions
        let gone := fun (s : State) => if r.lowerValid then releaseSlot r.lowerTier r.lowerBase r.slot4k s else s
        if r.sealed && !r.dirty then (gone s, { r with base := b, tier := tier, lowerBase := r.base, lowerTier := r.tier, lowerValid := true })
        else (releaseSlot r.tier r.base r.slot4k s, { r with base := b, tier := tier })

/-- Change folded page `j` of a session; one that is lost by it marks the session (04 R142). -/
def sessionFolded (f : PageRec → State → State × PageRec) (i j : Nat) (s : State) : State :=
  match tget s.ssq.sessions i with
  | none => s
  | some x =>
    match x.folded[j]? with
    | none => s
    | some r =>
      let (s, r') := f r s
      retryRecovery r.part (modSession i (fun x => { x with folded := x.folded.set j r', lostPage := x.lostPage || (r'.lost && !r.lost) }) s)

/-- Move folded page `j` of a session. -/
def sessionFoldedMove (i j tier : Nat) (s : State) : State := sessionFolded (fun r s => foldedMove r tier i s) i j s

/-- The Spillway moves a session's pages down to a tier, in layer order, and folds its map (R276). -/
def ladderMoves (i tier : Nat) (s : State) : State :=
  match tget s.ssq.sessions i with
  | none => s
  | some x =>
    let s := x.map.foldl (fun s e =>
      if foldedRef e.2 then
        let lower := (x.folded[e.2 - 2 ^ 31]?).any fun r => decide (tier ≤ r.tier)
        if lower then s else sessionFoldedMove i (e.2 - 2 ^ 31) tier (s.bump Ctr.tmgLadderMoves)
      else
        match s.rec? e.2 with
        | none => s
        | some r => if r.tier < tier ∧ mayLadder s e.2 tier then spillMove e.2 tier .ladder (s.bump Ctr.tmgLadderMoves) else s) s
    if tier = 0 then s else tryFold i (modSession i (fun x => { x with foldDue := if x.foldTier = 0 then tier else 0 }) s)

-- Reads that wait for a slot (R259)

/-- Start a read into T0, or let it wait for relief. -/
def readToT0 (h : Nat) (why : MoveWhy) (s : State) : State :=
  match startMove h 0 why s with
  | some s => s
  | none =>
    if s.tmg.allocWaits.any (·.1 == h) then s
    else
      allocWait (((s.rec? h).map (·.part)).getD 0xFF) h 0 (s.setTmg { s.tmg with allocWaits := s.tmg.allocWaits ++ [(h, why)] })

/-- Try the waiting reads again, in the order in which they began to wait. -/
def retryWaits (s : State) : State :=
  s.tmg.allocWaits.foldl (fun s w =>
    match startMove w.1 0 w.2 s with
    | some s => s.setTmg { s.tmg with allocWaits := s.tmg.allocWaits.filter (·.1 != w.1) }
    | none => s) s

-- Relief (R257-R259)

/-- Slots and units that moves in flight are taking out of a tier. -/
def leaving (s : State) (n k : Nat) : Nat × Nat :=
  let l := s.tmg.moves.filterMap fun m => (s.rec? m.handle).bind fun r =>
    if r.part = n ∧ r.tier = k ∧ k < m.tier ∧ m.why ≠ .cleanAhead then some r.slot4k else none
  (l.length, l.sum)

/-- Insert a relief candidate: (heat, key). -/
def heatInsert (x : Nat × Nat) : List (Nat × Nat) → List (Nat × Nat)
  | [] => [x]
  | y :: l => if x.1 < y.1 ∨ (x.1 = y.1 ∧ x.2 < y.2) then x :: y :: l else y :: heatInsert x l

/-- The pages of a folded column (07 R239) are numbered 2^64 * (column index) + place, those of a folded session 2^32 * (INDEX + 1) + place. -/
def foldedKey (s : State) (key : Nat) : Option PageRec :=
  if 2 ^ 64 ≤ key then (tget s.pme.columns (key / 2 ^ 64)).bind fun c => c.folded[key % 2 ^ 64]?
  else (tget s.ssq.sessions (key / 2 ^ 32 - 1)).bind fun x => x.folded[key % 2 ^ 32]?

/-- Change page `j` of a folded column; a column that loses a page loses its entries (04 R142). -/
def columnFolded (f : PageRec → State → State × PageRec) (i j : Nat) (s : State) : State :=
  match (tget s.pme.columns i).bind fun c => c.folded[j]? with
  | none => s
  | some r =>
    let (s, r') := f r s
    let s := { s with pme := { s.pme with columns := tmod s.pme.columns i fun c => { c with folded := c.folded.set j r' } } }
    retryRecovery r.part (if r'.lost && !r.lost then killColumns [i] s else s)

/-- Move page `j` of a folded column. -/
def columnFoldedMove (i j tier : Nat) (s : State) : State := columnFolded (fun r s => foldedMove r tier j s) i j s

/-- Relief candidates of a pass in order of HEAT, then handle: pages with a handle, then those of folded sessions and columns. -/
def reliefPass (s : State) (n k : Nat) (first : Bool) : List Nat :=
  let low := fun (r : PageRec) => (r.lowerValid && r.lowerTier == k + 1) == first
  let own := (s.tmg.records.filter fun e => e.2.part == n && e.2.tier == k && low e.2 && reliefOk s e.1 e.2).map fun e => (e.2.heat, e.1)
  let folded := ((s.ssq.sessions.filter fun x => x.2.part == n && x.2.idle).map fun x =>
    (x.2.folded.zipIdx.filter fun r => r.1.tier == k && low r.1 && !r.1.recovery && !r.1.lost).map fun r => (r.1.heat, 2 ^ 32 * (x.1 + 1) + r.2)).flatten
  let cols := ((s.pme.columns.filter fun c => c.2.part == n).map fun c =>
    (c.2.folded.zipIdx.filter fun r => r.1.tier == k && low r.1 && !r.1.recovery && !r.1.lost).map fun r => (r.1.heat, 2 ^ 64 * c.1 + r.2)).flatten
  ((own ++ folded ++ cols).foldl (fun l x => heatInsert x l) []).map (·.2)

/-- Whether a page left a tier, or a move takes it out of it: relief found it a place. -/
def leftTier (k key : Nat) (s : State) : Bool :=
  if 2 ^ 32 ≤ key then (foldedKey s key).any fun r => r.tier != k
  else (moveOf s key).isSome || (s.rec? key).any fun r => r.tier != k

/-- Relieve one page, and count it if it found a place. -/
def relieveOne (k : Nat) (first : Bool) (key : Nat) (s : State) : State :=
  let dead := decide (key < 2 ^ 32) && (sessionsNaming s key).any fun x => !x.2.idle
  let s := if 2 ^ 64 ≤ key then columnFoldedMove (key / 2 ^ 64) (key % 2 ^ 64) (k + 1) s
    else if 2 ^ 32 ≤ key then sessionFoldedMove (key / 2 ^ 32 - 1) (key % 2 ^ 32) (k + 1) s else spillMove key (k + 1) .relief s
  if !leftTier k key s then s
  else
    let s := s.bump (if first then Ctr.tmgReliefRepoints else Ctr.tmgReliefMoves)
    if dead then s.bump Ctr.tmgDeadPageMoves else s

/-- One pass of relief: candidates in order, while `need` or the occupancy asks for more. -/
def reliefRun (n k : Nat) (first : Bool) (s : State) (need : Bool) : State × Bool :=
  (reliefPass s n k first).foldl (fun a key =>
    let (out, units) := leaving a.1 n k
    if a.2 || occupied a.1 n k (loWater a.1) out units then
      let t := relieveOne k first key a.1
      (t, a.2 && !leftTier k key t)
    else a) (s, need)

/-- Relief of a partition's tier: first-pass pages, then the others, until the occupancy falls to LO_WATER or no page remains. `need`
asks for at least one page (R259). -/
def relieve (n k : Nat) (need : Bool) (s : State) : State :=
  let a := reliefRun n k true s need
  (reliefRun n k false a.1 a.2).1

-- Folded columns (07 R239)

/-- A cold entry names this column. -/
def coldNames (s : State) (i : Nat) : Bool :=
  s.pme.cold.any fun h => h.2.any fun b => b.entries.any fun e => e.column == i && e.home == ownHome s

/-- The lowest free index of the cold pool (07 R210). -/
def freeFolded (s : State) : Nat :=
  let used := (s.pme.columns.filter fun c => decide (2 ^ 31 ≤ c.1)).length
  ((List.range (used + 1)).find? fun i => (tget s.pme.columns (2 ^ 31 + i)).isNone).getD 0 + 2 ^ 31

/-- Fold a column that a cold entry names and whose pages each have REF 1 and are at rest. -/
def foldColumn (n i : Nat) (s : State) : State :=
  match tget s.pme.columns i with
  | none => s
  | some c =>
    let recs := c.handles.filterMap s.rec?
    if c.part ≠ n ∨ 2 ^ 31 ≤ i ∨ c.dead ∨ c.bad ∨ !coldNames s i ∨ recs.length ≠ c.handles.length ∨
        !(c.handles.all fun h => ((s.rec? h).map fun r => r.ref == 1 && r.pin == 0 && !r.recovery && !r.lost).getD false && (moveOf s h).isNone) then s
    else
      let s := s.setTmg { s.tmg with records := c.handles.foldl (fun t h => tdel t h) s.tmg.records }
      let s := modPme (fun p => { p with columns := tset p.columns i { c with folded := recs, handles := (List.range recs.length).map (2 ^ 31 + ·) } }) s
      renameColumn i (freeFolded s) (s.bumpBy Ctr.tmgPagesFolded recs.length)

end Sys2Proof.Machine
end

