-- ==== Sys2Proof/Machine/Turns.lean ====
section
/-!
DEFINITION. Machine/Turns.lean: the Weir (02 R61-R65), admission and revive (02 R44, R47, R69, R70, 08 R274), and the end of a
turn (02 R44, R47, 16 R527).
-/
set_option cleanup.letToHave false
namespace Sys2Proof.Machine

open Sys2Proof

-- Exact fractions; a zero denominator stands for infinity

structure Frac where
  num : Nat
  den : Nat := 1
deriving DecidableEq, Repr

def Frac.add (a b : Frac) : Frac :=
  if a.num = 0 then b else if b.num = 0 then a else if a.den = 0 ∨ b.den = 0 then ⟨1, 0⟩ else ⟨a.num * b.den + b.num * a.den, a.den * b.den⟩
def Frac.times (n : Nat) (a : Frac) : Frac := if n = 0 then ⟨0, 1⟩ else ⟨n * a.num, a.den⟩
def Frac.le (a b : Frac) : Bool :=
  if a.num = 0 then true else if b.num = 0 then false else if a.den = 0 ∨ b.den = 0 then decide (b.den = 0) else decide (a.num * b.den ≤ b.num * a.den)
def Frac.max (a b : Frac) : Frac := if a.le b then b else a
def Frac.sum (l : List Frac) : Frac := l.foldl Frac.add ⟨0, 1⟩

/-- At most a budget in whole units; a budget of 0 disables its test (R62). -/
def Frac.within (a : Frac) (budget : Nat) : Bool := budget == 0 || a.le ⟨budget, 1⟩

-- Turns

def turnOf (s : State) (i : Nat) : Option Turn := s.ssq.turns.find? (·.session == i)
def modTurn (i : Nat) (f : Turn → Turn) (s : State) : State :=
  { s with ssq := { s.ssq with turns := s.ssq.turns.map fun t => if t.session = i then f t else t } }
def dropTurn (i : Nat) (s : State) : State := { s with ssq := { s.ssq with turns := s.ssq.turns.filter (·.session != i) } }

/-- Turns of a partition that the Weir has admitted, in order of admission, and those queued, in queue order. -/
def admittedOf (s : State) (n : Nat) : List Turn := s.ssq.turns.filter fun t => t.part == n && t.state != .queued
def queuedOf (s : State) (n : Nat) : List Turn := s.ssq.turns.filter fun t => t.part == n && t.state == .queued

/-- Turns RUNNING or REVIVING in the device, at most 16,384 (R41). -/
def deviceTurns (s : State) : Nat := (s.ssq.turns.filter fun t => t.state != .queued).length

/-- RUNNING turns of a wheel. -/
def runningOn (s : State) (w : Nat) : List Turn := s.ssq.turns.filter fun t => t.wheel == w && t.state == .running

-- The Weir's quantities (R61, 06 R205); times in microseconds

/-- Arrays of a partition that are not fenced (01 R22). -/
def arraysOf (s : State) (n : Nat) : List Nat :=
  (List.range 80).filter fun i =>
    (if i < 64 then bit (s.getF (Reg.mgcPbArrays0 n)) i else bit (s.getF (Reg.mgcPbArrays1 n)) (i - 64)) && !s.flag (Reg.mxgArrayFenced (i / 20) (i % 20))

/-- R_A in FLOP per microsecond: 983.04 TFLOP/s over 80 arrays. -/
def rateA (s : State) (n : Nat) : Nat := 12288000 * (arraysOf s n).length

/-- The model of a turn's wheel. -/
def turnModel (s : State) (t : Turn) : Option Model := (s.wheel? t.wheel).bind fun w => s.model? w.part w.model

/-- FR1 page end of a binding. -/
def Model.pageEnd (m : Model) : Nat := m.geom.pageEnd 1

/-- P_t. -/
def weirPages (s : State) (t : Turn) : Nat := ((turnModel s t).map fun m => m.layers * cdiv t.extent 32 - t.sharedPart).getD 0

/-- b_t, in bytes per layer. -/
def weirBytes (m : Model) (t : Turn) : Frac := ⟨(m.layers * cdiv t.extent 32 - t.sharedWheel) * m.pageEnd, m.layers⟩

/-- a_t. -/
def weirArray (s : State) (m : Model) (t : Turn) : Frac :=
  ⟨m.geom.heads * m.group * t.nodes * t.extent * 512 + t.nodes * m.hidden * 2 * m.geom.heads * m.geom.dim * 2, rateA s t.part⟩

/-- Bytes of a row of `n` elements in a weight format (05 R146). -/
def rowBytes (fmt n : Nat) : Nat := if fmt = 2 then 2 * n else n + n / 32

/-- Depth of each template node (06 R182). -/
def Tail.depths (t : Tail) : List Nat := t.tree.zipIdx.foldl (fun d p => d ++ [if p.2 = 0 then 0 else d.getD p.1.1 0 + 1]) []

/-- D_n, the heads that a turn of n nodes uses (06 R192). -/
def Tail.headsUsed (t : Tail) (n : Nat) : Nat := (t.depths.take n).foldl max 0

/-- t_tail (06 R205). -/
def tailTime (s : State) (n : Nat) (tb : Tail) (ts : List Turn) : Frac :=
  let records := (ts.map (·.nodes)).sum
  let k := ts.map fun t => tb.headsUsed t.nodes
  let row := rowBytes tb.outFmt tb.hidden
  let compute : Frac := ⟨2 * tb.vocab * tb.hidden * records + (k.map fun k => k * (4 * tb.hidden * tb.width + 2 * tb.draft.length * tb.hidden)).sum, rateA s n⟩
  let read : Frac := ⟨cdiv records (max 1 (786432 / max 1 tb.hidden)) * tb.vocab * row +
    k.foldl max 0 * (tb.width * row + tb.hidden * rowBytes tb.outFmt tb.width + tb.draft.length * row), 15600000⟩
  (Frac.max read compute).add ⟨3, 1⟩

/-- Σ a over a wheel's turns, its layer time L, and T_step. -/
def wheelArray (s : State) (m : Model) (ts : List Turn) : Frac := Frac.sum (ts.map (weirArray s m))
def layerTime (s : State) (m : Model) (ts : List Turn) : Frac :=
  let b := Frac.sum (ts.map (weirBytes m))
  (Frac.max ⟨b.num, b.den * 15600000⟩ (wheelArray s m ts)).add ⟨6, 1⟩
def stepTime (s : State) (m : Model) (ts : List Turn) : Frac :=
  let l := Frac.times m.layers (layerTime s m ts)
  match s.tail? m.part m.tailId with
  | some tb => l.add (tailTime s m.part tb ts)
  | none => l

/-- Tiers below T0 of a session's pages, one entry per page. -/
def belowT0 (s : State) (x : Session) : List Nat :=
  (x.handles.filterMap fun h => (s.rec? h).map (·.tier)).filter (· != 0) ++ (x.folded.map (·.tier)).filter (· != 0)

/-- The rate of a partition's revive stream, in bytes per microsecond. -/
def reviveRate (s : State) (n k : Nat) : Nat :=
  1000 * s.getF (if k = 1 then Reg.ssqPbWeirRateT1 n else if k = 2 then Reg.ssqPbWeirRateT2 n else Reg.ssqPbWeirRateT3 n)

/-- f_t: pages below T0 over N, at the FR1 page end, over the deepest tier's rate. -/
def reviveTime (s : State) (m : Model) (n : Nat) (x : Session) : Frac :=
  let l := belowT0 s x
  ⟨l.length * m.pageEnd, m.layers * reviveRate s n (l.foldl max 0)⟩

/-- The hold H of a revive (R70). -/
def holdOf (m : Model) (l f : Frac) : Nat :=
  max 1 (m.layers - (if f.num = 0 then m.layers else (m.layers - 1) * l.num * f.den / max 1 (l.den * f.num)))

/-- Q_t: what the stream has still to fetch for the turns before: those in it, whatever the tiers of their pages that remain (08 R274), and
the turns taken before t that will enter it. -/
def reviveQueue (s : State) (n k : Nat) (taken : List Turn) : Frac :=
  let below := fun i => ((tget s.ssq.sessions i).map (belowT0 s)).getD []
  let inStream := (s.hrc.revive.filter fun r => r.1 == n && r.2.1 == k).map (·.2.2)
  let ahead := inStream ++ (taken.map (·.session)).filter fun i => (below i).foldl max 0 == k
  let bytes := (ahead.eraseDups.map fun i =>
    (below i).length * (((tget s.ssq.sessions i).bind fun x => s.model? x.part x.model).map (·.pageEnd)).getD 0).sum
  ⟨bytes, reviveRate s n k⟩

/-- Pages that a session's map shares with those of other turns: the same handle at the same layer and page index. -/
def sharedPages (s : State) (x : Session) (others : List Turn) : Nat :=
  (x.map.filter fun e => !foldedRef e.2 && others.any fun t => ((tget s.ssq.sessions t.session).bind fun y => tget y.map e.1) == some e.2).length

/-- What a turn is charged with `before` admitted (R61). -/
def chargeTurn (s : State) (before : List Turn) (t : Turn) : Turn :=
  match tget s.ssq.sessions t.session with
  | none => t
  | some x => { t with extent := x.history.length + t.maxNew + t.nodes - 1, sharedPart := sharedPages s x before,
                       sharedWheel := sharedPages s x (before.filter (·.wheel == t.wheel)) }

/-- The first test of R62 that fails with turn t added to `before`; none if all hold. -/
def weirTest (s : State) (before taken : List Turn) (t : Turn) : Option Status :=
  let n := t.part
  let t := chargeTurn s before t
  let all := before ++ [t]
  let wheels := (s.ssq.wheels.filter fun w => w.2.part == n).filterMap fun w => (s.model? n w.2.model).map fun m => (w.1, m)
  let on := fun w => all.filter (·.wheel == w)
  let steps := wheels.map fun w => (w.1, stepTime s w.2 (on w.1))
  if !(Frac.within ⟨(all.map (weirPages s)).sum, 1⟩ (s.getF (Reg.ssqPbWeirT0Pages n))) then some .weirT0
  else if !(Frac.sum (wheels.map fun w => Frac.times w.2.layers (wheelArray s w.2 (on w.1)))).within (s.getF (Reg.ssqPbWeirArrayUs n)) then some .weirArray
  else if !(steps.all fun w => w.2.within (s.getF (Reg.ssqPbWeirStepUs n))) then some .weirStepTime
  else
    match tget s.ssq.sessions t.session, turnModel s t with
    | some x, some m =>
      let step := ((steps.find? (·.1 == t.wheel)).map (·.2)).getD ⟨0, 1⟩
      let deep := (belowT0 s x).foldl max 0
      let first := if deep = 0 then ⟨0, 1⟩
        else
          let f := reviveTime s m n x
          (reviveQueue s n deep taken).add (Frac.times (holdOf m (layerTime s m (on t.wheel)) f) f)
      if (first.add (Frac.times 2 step)).within (s.getF (Reg.ssqPbWeirTtftUs n)) then none else some .weirTtft
    | _, _ => none

-- Revive (R69, 08 R274)

/-- Layers of a session that are wholly in T0, counted from layer 0. -/
def residentLayers (s : State) (x : Session) (layers : Nat) : Nat :=
  ((List.range layers).find? fun l => x.map.any fun e => keyLayer e.1 == l && (foldedRef e.2 || ((s.rec? e.2).map (·.tier)) != some 0)).getD layers

/-- Start the fetches of the first layer that the head of a revive stream still needs. A head with nothing left makes way for the
next. The last argument bounds the stream. -/
def reviveStart : Nat → Nat → Nat → State → State
  | 0, _, _, s => s
  | fuel + 1, n, k, s =>
    match s.hrc.revive.find? fun r => r.1 == n && r.2.1 == k with
    | none => s
    | some r =>
      match tget s.ssq.sessions r.2.2 with
      | none => reviveStart fuel n k (s.setHrc { s.hrc with revive := s.hrc.revive.filter (· != r) })
      | some x =>
        let low := x.map.filter fun e => !foldedRef e.2 && ((s.rec? e.2).map fun y => y.tier != 0).getD false
        match low with
        | [] => reviveStart fuel n k (s.setHrc { s.hrc with revive := s.hrc.revive.filter (· != r) })
        | e :: _ => (low.filter fun f => keyLayer f.1 == keyLayer e.1).foldl (fun s f => readToT0 f.2 .revive s) s

/-- The lowest turn slot that no turn and no roster in progress uses. -/
def freeTurnSlot (s : State) : Nat :=
  let used := (s.ssq.turns.filter fun t => t.state != .queued).map (·.slot) ++
    ((tvals s.ssq.wheels).map fun w => if w.blockWritten then [] else w.rosterSlots').flatten
  ((List.range (used.length + 1)).find? fun i => !used.contains i).getD 0

/-- Tokens of the penalty window, each with its count (06 R200, R201). -/
def penaltyCounts (x : Session) : Table Nat :=
  let w := fieldAt x.tailParams 0x18 4
  (x.history.drop (x.history.length - w)).foldl (fun t k => tset t k ((tget t k).getD 0 + 1)) []

/-- The table of 4,096 entries, and what overflows (R200). Which tokens the table holds, here those of the lowest numbers, changes time
only. -/
def loadCounts (x : Session) (t : Turn) : Turn := { t with counts := (penaltyCounts x).take 4096, spill := (penaltyCounts x).drop 4096 }

/-- The history of a session has grown: its turn's counts follow (R201). -/
def countHistory (i : Nat) (s : State) : State :=
  match tget s.ssq.sessions i with
  | some x => modTurn i (loadCounts x) s
  | none => s

/-- The counts of a turn's end go to PENALTY_PTR (R200). -/
def storeCounts (i : Nat) (s : State) : State :=
  match turnOf s i with
  | some t => if t.state = .queued then s else modSession i (fun x => { x with penalty := t.counts ++ t.spill }) s
  | none => s

-- End of a turn

/-- The tail block entry of a turn that ends without tokens in it (06 R204); its FIRST_POS is a free value (log 4). -/
def emptyEntry (t : Turn) (st : Status) (reason : Nat) (late : Bool) (step : Nat) (s : State) : TailEntry × State :=
  ({ slot := t.slot, session := t.session, status := st, ended := true, late := late, endReason := reason, firstPos := s.fresh.1 % 2 ^ 64, step := step }, s.fresh.2)

/-- The tail block entry of a turn as its end leaves it: the one that its step's commit made, where the turn ends with that commit or by a
drain, which leaves a committed step's own status and tokens (13 R416); else one with the end's status and without tokens (06 R204). -/
def endEntry (x : Wheel) (t : Turn) (st : Status) (reason : Nat) (late : Bool) (s : State) : TailEntry × State :=
  match x.results.find? (·.slot == t.slot) with
  | some e => if st = .ok ∨ st = .partitionDrain then ({ e with ended := true, late := late, endReason := reason }, s) else emptyEntry t st reason late e.step s
  | none => emptyEntry t st reason late t.steps s

/-- What a turn's end leaves to do in its wheel's step: its entry in the tail block, the rollback of what it wrote, its items. -/
def endInStep (t : Turn) (st : Status) (reason : Nat) (late : Bool) (s : State) : State :=
  match s.wheel? t.wheel with
  | none => s
  | some x =>
    if x.blockWritten || !(x.entries.any fun e => e.slot == t.slot) then s
    else
      let (e, s) := endEntry x t st reason late s
      let s := if x.resolved t.slot then s else rollbackTurn t.wheel t.slot s
      let s := modWheel t.wheel (fun y => { y with results := (y.results.filter (·.slot != t.slot)) ++ [e] }) (recordTail e s)
      finishTail t.wheel (settleParts t.wheel (settleGone t.wheel (dropTurnItems t.wheel t.slot s)))

/-- End a turn with a status (R44, R47, R67): the caller has passed its event through the commit point. -/
def endTurn (i : Nat) (st : Status) (reason : Nat) (late : Bool) (s : State) : State :=
  match turnOf s i, tget s.ssq.sessions i with
  | some t, some x =>
    let reply : Reply := { status := st, result0 := t.committed + reason * 2 ^ 32 + (if late then 2 ^ 35 else 0), result1 := x.history.length, seq := t.submitSeq }
    if t.state = .queued then complete t.cmd reply (modSession i (fun x => { x with turnPending := false }) (dropTurn i s))
    else
      let s := dropTurn i (storeCounts i (endInStep t st reason late s))
      let s := s.setHrc { s.hrc with revive := s.hrc.revive.filter fun r => r.2.2 != i }
      let s := s.setTmg { s.tmg with allocWaits := s.tmg.allocWaits.filter fun w => w.2 != .revive || !x.handles.contains w.1 }
      let tier := s.getF (Reg.ssqPbLadderTier x.part 0)
      let s := modSession i (fun x => { x with
        state := if tier = 0 then .waiting else .parked tier, turnPending := false, rung := 0, rungTick := s.tick,
        expiryTick := s.tick + x.ttlTicks, retainTick := s.tick + x.retainTicks }) s
      let s := if tier = 0 then s else ladderMoves i tier s
      let s := sealCapsule x.handle (complete t.cmd reply s)
      let s := if lastMember x then stageCapsule x.handle x.part s else s
      [1, 2, 3].foldl (fun s k => reviveStart (s.hrc.revive.length + 1) x.part k s) s
  | _, _ => s

-- Admission (R44, R47, R64, R65)

/-- The units of a session's objects that its admission reads and that fail their tags (13 R431): of a tier, with KIND and unit. -/
def admissionBad (s : State) (i : Nat) (x : Session) : List (Nat × Nat × Nat) :=
  (objectsBad s 1 [descObject s i x, penaltyObject s i x]).map (fun u => (1, u)) ++
    (if x.foldTier = 0 then [] else (objectsBad s x.foldTier [coldObject s i x]).map fun u => (x.foldTier, u))

/-- Units of a session's objects fail their tags (13 R431): each failure is logged, and the session is corrupt from then on (R43). -/
def objectError (i : Nat) (bad : List (Nat × Nat × Nat)) (s : State) : State :=
  match tget s.ssq.sessions i with
  | none => s
  | some x =>
    let s := bad.foldl (fun s u => tagErrors { session := i } [] x.part u.1 u.2.1 [u.2.2] s) s
    { s with ssq := { s.ssq with corrupt := if s.ssq.corrupt.contains i then s.ssq.corrupt else s.ssq.corrupt ++ [i] } }

/-- Admit a turn: its charges, its slot, the session ACTIVE, its capsule, and its revive. A map that cannot be unfolded refuses it (04
R132). -/
def admitTurn (t : Turn) (s : State) : State :=
  let i := t.session
  let bad := ((tget s.ssq.sessions i).map (admissionBad s i)).getD []
  if !bad.isEmpty then
    endTurn i .sessionCorrupt 0 false (commitEvent i .ended .sessionCorrupt (objectError i bad (s.bump Ctr.ssqTurnsRefused)))
  else
  if ((tget s.ssq.sessions i).map (coldMapDown s)).getD false then
    endTurn i .tierFailed 0 false (commitEvent i .ended .tierFailed (s.bump Ctr.ssqTurnsRefused))
  else
  match unfoldSession i s with
  | none => endTurn i .noPageRecord 0 false (commitEvent i .ended .noPageRecord (s.bump Ctr.ssqTurnsRefused))
  | some s =>
    let t := chargeTurn s (admittedOf s t.part) t
    let s := commitEvent i .admitted .ok s
    let s := modSession i (fun x => { x with state := .active, turn := x.turn + 1, foldDue := 0 }) s
    match tget s.ssq.sessions i, turnModel s t with
    | some x, some m =>
      let low := belowT0 s x
      let deep := low.foldl max 0
      let all := (admittedOf s t.part).filter (·.wheel == t.wheel) ++ [t]
      let hold := if deep = 0 then 0 else holdOf m (layerTime s m all) (reviveTime s m t.part x)
      let t := { t with state := if deep = 0 then .running else .reviving, slot := freeTurnSlot s, hold := hold, reviveTier := deep, prevKv := x.kvLen }
      let s := { s with ssq := { s.ssq with turns := (s.ssq.turns.filter fun (u : Turn) => u.session != i) ++ [t] } }
      let s := countHistory i s
      let s := s.bumpBy Ctr.mxgPenaltySpillEntries (((turnOf s i).map (·.spill.length)).getD 0)
      let s := if x.countsLost then modSession i (fun x => { x with countsLost := false }) (s.bump Ctr.mxgCountRebuilds) else s
      let s := admitCapsule x t (s.bump Ctr.ssqTurnsAdmitted)
      if deep = 0 then s
      else
        let s := s.setHrc { s.hrc with revive := s.hrc.revive ++ [(t.part, deep, i)] }
        let s := (s.bump Ctr.ssqRevives).bumpBy Ctr.ssqReviveHoldLayers hold
        if (s.hrc.revive.filter fun r => r.1 == t.part && r.2.1 == deep).length = 1 then reviveStart 1 t.part deep s else s
    | _, _ => s

/-- The run of queued turns that fit one after another (R65). -/
def candidateRun (s : State) : List Turn → List Turn → List Turn → List Turn
  | _, taken, [] => taken
  | before, taken, t :: l =>
    if deviceTurns s + taken.length < 16384 ∧ weirTest s before taken t = none then
      candidateRun s (before ++ [chargeTurn s before t]) (taken ++ [t]) l
    else taken

/-- The Weir evaluates the head of an ACTIVE partition's queue (R64, R65; 13 R416) and admits what it may. -/
def weirEvaluate (n : Nat) (s : State) : State :=
  match queuedOf s n with
  | [] => s
  | t :: l =>
    if s.pstate n ≠ psActive then s else
    let run := candidateRun s (admittedOf s n) [] (t :: l)
    let batch := s.getF (Reg.ssqPbWeirQueueMinBatch n)
    if batch ≠ 0 ∧ !(runningOn s t.wheel).isEmpty ∧ (run.filter (·.wheel == t.wheel)).length < batch ∧
        t.heldSteps < s.getF (Reg.ssqPbWeirQueueHoldSteps n) then s
    else run.foldl (fun s t => admitTurn t s) s

/-- End a turn at an event of its own, and let the Weir look at the queue (R64). -/
def endTurnEvent (i : Nat) (k : Evt) (st : Status) (s : State) : State :=
  let n := ((tget s.ssq.sessions i).map (·.part)).getD 0
  weirEvaluate n (endTurn i st 0 false (commitEvent i k st s))

/-- Objects of a session that fail their tags end its turn (R43). -/
def objectCorrupt (i : Nat) (bad : List (Nat × Nat × Nat)) (s : State) : State :=
  let s := objectError i bad s
  if (turnOf s i).isSome then endTurnEvent i .ended .sessionCorrupt s else s

/-- A session descriptor fails its check (R43): the session is corrupt from then on, and its turn ends. -/
def descriptorError (i : Nat) (s : State) : State :=
  match tget s.ssq.sessions i with
  | none => s
  | some y =>
    if s.ssq.corrupt.contains i then s
    else
      let s := { s with ssq := { s.ssq with corrupt := s.ssq.corrupt ++ [i] } }
      let u := Config.objectUnit 0 i / 8
      let s := raiseErr { slot := pSsq, ev := .uncorrected 2, cls := .contained, part := y.part, session := i, resource := i,
                          unit := some (rowUnit 1 u) } s
      if (turnOf s i).isSome then endTurnEvent i .ended .sessionCorrupt s else s

/-- Cancel a session's turn (R60). -/
def cancelTurn (i : Nat) (s : State) : State := endTurnEvent i .cancelled .cancelled (s.bump Ctr.ssqTurnsCancelled)

/-- End several turns of one partition with a status, each at its own commit point, in the order given. -/
def endTurns (l : List Nat) (st : Status) (s : State) : State := l.foldl (fun s i => endTurnEvent i .ended st s) s

end Sys2Proof.Machine
end

