-- ==== Sys2Proof/Machine/Sessions.lean ====
section
/-!
DEFINITION. Machine/Sessions.lean: the session and turn commands (16 R525-R531), and the tick and what falls due with it (02
R56-R58).
-/
set_option cleanup.letToHave false
namespace Sys2Proof.Machine

open Sys2Proof

-- Session handles (R40, R43)

/-- The session that a handle names, or the status of a command that names it: ST_SESSION_CORRUPT for an INDEX found corrupt, else
ST_STALE_HANDLE. -/
def namedSession (n h : Nat) (s : State) : Status ⊕ (Nat × Session) :=
  let i := h % 2 ^ 22
  let base := s.getF (Reg.mgcPbSessionsBase n)
  if i < base ∨ base + s.getF (Reg.mgcPbSessionsCount n) ≤ i ∨ h / 2 ^ 22 % 16 ≠ n then .inl .staleHandle
  else if s.ssq.corrupt.contains i then .inl .sessionCorrupt
  else
    match tget s.ssq.sessions i with
    | some x => if x.handle = h then .inr (i, x) else .inl .staleHandle
    | none => .inl .staleHandle

/-- A command reads stored objects of a session: units whose tags fail make the session corrupt (13 R431). -/
def objectsRead (i : Nat) (bad : List (Nat × Nat)) (s : State) (k : Res) : Res :=
  if bad.isEmpty then k else .done (objectCorrupt i (bad.map fun u => (1, u)) s) { status := .sessionCorrupt }

/-- Run a body on the session that a command names, once its descriptor is read. -/
def onSession (c : Cmd) (s : State) (k : Nat → Session → Res) : Res :=
  match namedSession c.part (c.arg 0 8) s with
  | .inl st => .fail st
  | .inr (i, x) => objectsRead i (objectsBad s 1 [descObject s i x]) s (k i x)

/-- Units of a session's history that hold a range of its tokens and fail their tags. -/
def historyBad (s : State) (i : Nat) (x : Session) (first n : Nat) : List (Nat × Nat) :=
  (objectsBad s 1 (historyObjects s i x)).filter fun u =>
    decide (0 < n) && decide (x.historyPtr / 512 + first / 128 ≤ u.2) && decide (u.2 ≤ x.historyPtr / 512 + (first + n - 1) / 128)

/-- An accepted event of a session completes its command with the event's COMMIT_SEQ (12 R386). -/
def doneAt (i : Nat) (s : State) (r : Reply) : Res := .done s { r with seq := seqOf s i }

-- Adapters (R74) and tail parameters (R187)

/-- The version of an adapter that a command binds (R74), or the status that refuses it. -/
def adapterFor (s : State) (n bid id ver : Nat) : Status ⊕ Nat :=
  if id = 0 then (if ver = 0 then .inr 0 else .inl .invalidField)
  else
    let l := s.ssq.adapters.filter fun a => a.part == n && a.id == id
    let top := (l.map (·.ver)).foldl max 0
    if l.isEmpty ∨ top < ver then .inl .invalidField
    else
      let live := l.filter (·.state == .live)
      let v := if ver = 0 then (live.map (·.ver)).foldl max 0 else ver
      match live.find? (·.ver == v) with
      | none => .inl .adapterRetired
      | some a => if a.binding = bid then .inr v else .inl .bindingMismatch

/-- The rank of a loaded adapter version. -/
def adapterRank (s : State) (n id ver : Nat) : Nat :=
  ((s.ssq.adapters.find? fun a => a.part == n && a.id == id && a.ver == ver).map (·.rank)).getD 0

/-- The largest TREE_NODES of a binding: its tail's TREE_SIZE, 32 while that is not registered. -/
def treeLimit (s : State) (m : Model) : Nat := ((s.tail? m.part m.tailId).map (·.tree.length)).getD 32

/-- A RETIRED adapter version that no session references is freed, and with it its prefix entries (R73, 07 R246). -/
def settleAdapter (n id ver : Nat) (s : State) : State :=
  match s.ssq.adapters.find? fun a => a.part == n && a.id == id && a.ver == ver && a.state == .retired with
  | none => s
  | some _ =>
    if s.ssq.sessions.any fun x => x.2.part == n && x.2.adapter == id && x.2.adapterVer == ver then s
    else
      let s := { s with ssq := { s.ssq with adapters := s.ssq.adapters.map fun a =>
        if a.part = n ∧ a.id = id ∧ a.ver = ver then { a with state := .freed } else a } }
      pmeDropAdapter n id ver (logEv .ssqAdapterFreed pSsq n [id, ver] s)

-- SESSION_OPEN (R526)

/-- The lowest free descriptor index of a partition (R41). -/
def freeIndex (s : State) (n : Nat) : Option Nat :=
  let base := s.getF (Reg.mgcPbSessionsBase n)
  let count := s.getF (Reg.mgcPbSessionsCount n)
  let used := (s.ssq.sessions.filter fun x => decide (base ≤ x.1) && decide (x.1 < base + count)).length
  if count ≤ used then none else ((List.range (used + 1)).find? fun i => (tget s.ssq.sessions (base + i)).isNone).map (base + ·)

/-- The encoding of SESSION_OPEN (R14, R526). -/
def openOk (c : Cmd) (b : List Byte) : Bool :=
  c.argsOk [(0, 8), (8, 4), (0x0C, 4), (0x10, 4), (0x14, 4), (0x18, 8)] && c.dlen == 512 && decide (fieldAt b 0x100 1 < 4) && fieldAt b 0x101 255 == 0 &&
    tailParamsOk 32 (slice b 0x20 96)

/-- The source of a fork (R526): none where the command names none. -/
def forkSource (n h bid id ver : Nat) (s : State) : Status ⊕ Option Session :=
  if h = 0 then .inr none
  else
    match namedSession n h s with
    | .inl st => .inl st
    | .inr (_, x) =>
      if x.state ≠ .opened ∧ x.state ≠ .waiting ∧ x.state ≠ .expired then .inl .sessionState
      else if x.model ≠ bid ∨ x.adapter ≠ id ∨ x.adapterVer ≠ ver then .inl .bindingMismatch
      else .inr (some x)

/-- Take a reference on each of a list of pages; none if one is at its limit (04 R135). -/
def addRefs (l : List Nat) (s : State) : Option State := l.foldl (fun a h => a.bind (addRef h)) (some s)

/-- Write the new descriptor. -/
def sessionOpen (c : Cmd) (s : State) : Res :=
  let b := c.buffer s
  let n := c.part
  let bid := c.arg 0 8
  let id := c.arg 8 4
  need (openOk c b) .invalidField <|
  match s.model? n bid with
  | none => .fail .noBinding
  | some m =>
    need (decide (tpNodes (slice b 0x20 96) ≤ treeLimit s m)) .invalidField <|
    match adapterFor s n bid id (c.arg 0x0C 4) with
    | .inl st => .fail st
    | .inr ver =>
      need (id == 0 || decide (adapterRank s n id ver ≤ m.rankMax)) .shape <|
      match forkSource n (c.arg 0x18 8) bid id ver s with
      | .inl st => .fail st
      | .inr src =>
        objectsRead (c.arg 0x18 8 % 2 ^ 22) ((src.map fun y => objectsBad s 1 [descObject s (c.arg 0x18 8 % 2 ^ 22) y] ++
          historyBad s (c.arg 0x18 8 % 2 ^ 22) y 0 y.history.length).getD []) s <|
        match freeIndex s n with
        | none => .fail .noDescriptor
        | some i =>
          match addRefs ((src.map (·.handles)).getD []) s with
          | none => .fail .shareLimit
          | some s =>
            let given := slice b 0 32
            let (seed, s) := if given = zeros 32 then s.freshBytes 32 else (given, s)
            let ttl := if c.arg 0x10 4 = 0 then s.getF (Reg.ssqPbTtlDefault n) else c.arg 0x10 4
            let keep := if c.arg 0x14 4 = 0 then s.getF (Reg.ssqPbRetainDefault n) else c.arg 0x14 4
            let h := i + n * 2 ^ 22 + tgetD s.ssq.incarn i 1 * 2 ^ 26
            let x : Session := {
              handle := h, part := n, state := .opened, record := bit (fieldAt b 0x100 1) 0, relaxed := bit (fieldAt b 0x100 1) 1, model := bid, adapter := id,
              adapterVer := ver, profileId := m.profileId, contract := m.contract, historyPtr := Config.sessionPtr h 0 * 512 % 2 ^ 64,
              penaltyPtr := Config.sessionPtr h 2 * 512 % 2 ^ 64,
              seed := seed, expiryTick := s.tick + ttl, retainTick := s.tick + keep, ttlTicks := ttl, retainTicks := keep,
              tailParams := slice b 0x20 96, hostCtx := slice b 0x80 128 }
            let x := match src with
              | some y => { x with history := y.history, kvLen := y.kvLen, drawCount := y.drawCount, prefillRequired := y.prefillRequired, lostPage := y.lostPage,
                                   map := y.map.filter fun e => !foldedRef e.2 }
              | none => x
            let s := { s with sec := { s.sec with gens := tdel s.sec.gens i } }
            let s := commitEvent i .opened .ok (capCommand h 0x0101 c (stageCapsule h n (placeMap i (putSession i x s))))
            doneAt i s { result0 := h, data := some (0, seed) }

def execSessionOpen (c : Cmd) (s : State) : Host.Outcome State Fault Refusal := .next (hostCmd 0x0101 c (sessionOpen c) s)

-- Close (R44, R60)

/-- Close a session: its turn first, its references, the closing record, its INCARNATION. -/
def closeSession (i : Nat) (k : Evt) (s : State) : State :=
  let s := if (turnOf s i).isSome then cancelTurn i s else s
  let s := commitEvent i k .ok s
  match tget s.ssq.sessions i with
  | none => s
  | some x =>
    let t : Turn := { session := i, part := x.part, wheel := 0, state := .queued, cmd := { origin := .i3c, args := [] }, submitSeq := x.commitSeq }
    let hdr := capsuleHeader s x t
    let s := modCapsule x.handle (fun c => { c with turn := x.turn, header := hdr }) s
    let s := releaseKv i (sealCapsule x.handle s)
    let s := ((x.chain.bind (·.region)).orElse fun _ => x.chainNext.bind (·.region)).toList.foldl (fun s i => endSystem i s) s
    let s := modPme (fun p => { p with repoints := p.repoints.filter fun r => r.1 != x.handle, toPublish := p.toPublish.filter fun r => r.1 != x.handle }) s
    let s := s.setFrc { s.frc with finals := tdel s.frc.finals x.handle }
    let s := { s with ssq := { s.ssq with sessions := tdel s.ssq.sessions i, incarn := tset s.ssq.incarn i ((x.handle / 2 ^ 26 + 1) % 2 ^ 38) },
                      sec := { s.sec with gens := tdel s.sec.gens i } }
    settleAdapter x.part x.adapter x.adapterVer s

def sessionClose (c : Cmd) (s : State) : Res :=
  need (c.argsOk [(0, 8)] && c.dlen == 0) .invalidField <|
  onSession c s fun i x =>
    let s := capCommand x.handle 0x0102 c s
    let s := if (turnOf s i).isSome then cancelTurn i s else s
    .done (closeSession i .closed s) { seq := seqOf s i + 1 }

def execSessionClose (c : Cmd) (s : State) : Host.Outcome State Fault Refusal := .next (hostCmd 0x0102 c (sessionClose c) s)

-- Park (R44)

/-- Enter a deeper rung: RUNG, RUNG_TICK, the state, and the Spillway's moves. -/
def enterRung (i rung : Nat) (s : State) : State :=
  match tget s.ssq.sessions i with
  | none => s
  | some x =>
    let tier := s.getF (Reg.ssqPbLadderTier x.part rung)
    ladderMoves i tier (modSession i (fun x => { x with rung := rung, rungTick := s.tick, state := if tier = 0 then .waiting else .parked tier }) s)

/-- A session whose state lists parking. -/
def SState.parks : SState → Bool
  | .waiting => true
  | .parked _ => true
  | _ => false

def sessionPark (c : Cmd) (s : State) : Res :=
  let rung := c.arg 8 1
  need (c.argsOk [(0, 8), (8, 1)] && c.dlen == 0 && decide (rung ≤ 3)) .invalidField <|
  onSession c s fun i x =>
    let x := x.healed
    need x.idle .sessionBusy <|
    need x.state.parks .sessionState <|
    need (s.flag (Reg.ssqPbLadderValid x.part rung)) .invalidField <|
    need (decide (x.rung < rung)) .sessionState <|
    let s := commitEvent i .parked .ok (capCommand x.handle 0x0103 c s)
    doneAt i (enterRung i rung s) {}

def execSessionPark (c : Cmd) (s : State) : Host.Outcome State Fault Refusal := .next (hostCmd 0x0103 c (sessionPark c) s)

-- Rebind (R44, R75)

def sessionRebind (c : Cmd) (s : State) : Res :=
  let n := c.part
  let bid := c.arg 8 8
  let id := c.arg 0x10 4
  need (c.argsOk [(0, 8), (8, 8), (0x10, 4), (0x14, 4)] && c.dlen == 0) .invalidField <|
  onSession c s fun i x =>
    need x.idle .sessionBusy <|
    match s.model? n bid with
    | none => .fail .noBinding
    | some m =>
      match adapterFor s n bid id (c.arg 0x14 4) with
      | .inl st => .fail st
      | .inr ver =>
        need (id == 0 || decide (adapterRank s n id ver ≤ m.rankMax)) .shape <|
        let s := dropKv i (commitEvent i .rebound .ok (capCommand x.handle 0x0104 c s))
        let s := modSession i (fun x => { x with model := bid, adapter := id, adapterVer := ver, profileId := m.profileId, contract := m.contract }) s
        doneAt i (settleAdapter n x.adapter x.adapterVer s) {}

def execSessionRebind (c : Cmd) (s : State) : Host.Outcome State Fault Refusal := .next (hostCmd 0x0104 c (sessionRebind c) s)

-- SESSION_SET (R529), SESSION_READ, HISTORY_READ (R525)

def sessionSet (c : Cmd) (s : State) : Res :=
  let b := c.buffer s
  let mask := c.arg 8 1
  need (c.argsOk [(0, 8), (8, 1), (9, 1), (0x0C, 4), (0x10, 4)] && c.dlen == 224 && decide (mask < 16) && decide (c.arg 9 1 ≤ 1)) .invalidField <|
  onSession c s fun i x =>
    let tree := ((s.model? x.part x.model).map (treeLimit s)).getD 32
    need (!bit mask 0 || tailParamsOk tree (slice b 0 96)) .invalidField <|
    let s := commitEvent i .written .ok (capCommand x.handle 0x0105 c s)
    let ttl := if c.arg 0x0C 4 = 0 then s.getF (Reg.ssqPbTtlDefault x.part) else c.arg 0x0C 4
    let keep := if c.arg 0x10 4 = 0 then s.getF (Reg.ssqPbRetainDefault x.part) else c.arg 0x10 4
    let rebuild := bit mask 0 && fieldAt b 0x18 4 != fieldAt x.tailParams 0x18 4
    let s := modSession i (fun x => { x with
      tailParams := if bit mask 0 then slice b 0 96 else x.tailParams, hostCtx := if bit mask 1 then slice b 96 128 else x.hostCtx,
      ttlTicks := if bit mask 2 then ttl else x.ttlTicks, retainTicks := if bit mask 2 then keep else x.retainTicks,
      record := if bit mask 3 then c.arg 9 1 == 1 else x.record }) s
    doneAt i (if rebuild then countHistory i (s.bump Ctr.mxgCountRebuilds) else s) {}

def execSessionSet (c : Cmd) (s : State) : Host.Outcome State Fault Refusal := .next (hostCmd 0x0105 c (sessionSet c) s)

def sessionRead (c : Cmd) (s : State) : Res :=
  need (c.argsOk [(0, 8)] && decide (512 ≤ c.dlen)) .invalidField <|
  onSession c s fun _ x => .done (capCommand x.handle 0x0106 c s) { result0 := x.history.length, result1 := x.kvLen, data := some (0, descBytes x) }

def execSessionRead (c : Cmd) (s : State) : Host.Outcome State Fault Refusal := .next (hostCmd 0x0106 c (sessionRead c) s)

def historyRead (c : Cmd) (s : State) : Res :=
  let first := c.arg 8 8
  let n := c.arg 0x10 4
  need (c.argsOk [(0, 8), (8, 8), (0x10, 4)] && decide (4 * n ≤ c.dlen)) .invalidField <|
  onSession c s fun i x =>
    need (decide (first + n ≤ x.history.length)) .invalidField <|
    objectsRead i (historyBad s i x first n) s <|
    .done (capCommand x.handle 0x0107 c s)
      { result0 := x.history.length, data := if n = 0 then none else some (0, (((x.history.drop first).take n).map (leBytes 4)).flatten) }

def execHistoryRead (c : Cmd) (s : State) : Host.Outcome State Fault Refusal := .next (hostCmd 0x0107 c (historyRead c) s)

-- TURN_SUBMIT, TURN_CANCEL (R46, R60, R63, R72, R527)

/-- A capsule of `need` units can be placed in the ring: free units, and those of the oldest capsules that may be overwritten (14
R468). -/
def ringRoom (s : State) : Nat :=
  let held := s.frc.ring4k.map fun c => (c.bytes.length / 4096, decide (c.sealTick + s.getF (Reg.frcPbRetainTicks c.part) ≤ s.tick))
  s.getF Reg.frcCapsuleUnits4k - (held.map (·.1)).sum + ((held.takeWhile (·.2)).map (·.1)).sum

/-- Submissions of a recording partition are refused for want of recorder space (14 R468, R469): the next capsule is the oldest one
that waits in staging, or one of the smallest size. -/
def recorderFull (s : State) (n : Nat) : Bool :=
  recording s n && (!s.flag Reg.frcCapsuleStatArea ||
    decide (ringRoom s < ((s.frc.staging.find? (·.sealed)).map fun c => c.bytes.length / 4096).getD 1))

/-- The first status that refuses a submission, in the order of log 35; `x` as the session's next event finds it, `h` its HISTORY_LEN
with the input appended. -/
def submitCheck (c : Cmd) (s : State) (x : Session) (params : List Byte) (h : Nat) (prefill : Bool) : Option Status :=
  if !x.idle then some .sessionBusy
  else
    match s.wheel? (c.arg 8 2) with
    | none => some .noWheel
    | some w =>
      if w.part ≠ c.part then some .noWheel
      else if w.model ≠ x.model then some .bindingMismatch
      else if ((s.model? w.part w.model).map (treeLimit s)).getD 32 < tpNodes params then some .invalidField
      else if x.prefillRequired ∧ !prefill then some .sessionExpired
      else if 2097152 < h then some .seqLimit
      else if h = x.kvLen then some .invalidField
      else if recorderFull s c.part then some .recorderFull
      else if w.rosterSlots < h - x.kvLen then some .seqLimit
      else none

def turnSubmit (c : Cmd) (s : State) : Res :=
  let b := c.buffer s
  let n := c.arg 0x0C 4
  let block := slice b 0 96
  let keep := block = zeros 96
  need (c.argsOk [(0, 8), (8, 2), (0x0A, 1), (0x0C, 4)] && decide (c.arg 0x0A 1 ≤ 1) && c.dlen == 96 + 4 * n && (keep || tailParamsOk 32 block)) .invalidField <|
  onSession c s fun i x =>
    let y := x.healed
    let params := if keep then x.tailParams else block
    let toks := (List.range n).map fun k => fieldAt b (96 + 4 * k) 4
    match submitCheck c s y params (x.history.length + n) (c.arg 0x0A 1 == 1) with
    | some st => .fail st
    | none =>
      let t : Turn := { session := i, part := c.part, wheel := c.arg 8 2, state := .queued, cmd := c, maxNew := tpMaxNew params, nodes := tpNodes params }
      let probe := putSession i { x with history := x.history ++ toks } s
      match weirTest (probe.setHrc { probe.hrc with revive := [] }) [] [] t with
      | some st => .done (s.bump Ctr.ssqTurnsRefused) { status := st }
      | none =>
        let rebuild := fieldAt params 0x18 4 != fieldAt x.tailParams 0x18 4
        let u := commitEvent i .submitted .ok (capCommand x.handle 0x0108 c s)
        let u := modSession i (fun x => { x with history := x.history ++ toks, tailParams := params, turnPending := true, foldDue := 0 }) u
        let t := { t with submitSeq := seqOf u i }
        let u := holdCommand c { u with ssq := { u.ssq with turns := (u.ssq.turns.filter (·.state == .queued)) ++ [t] ++ u.ssq.turns.filter (·.state != .queued) } }
        let u := if rebuild then u.bump Ctr.mxgCountRebuilds else u
        let u := if (queuedOf s c.part).isEmpty then weirEvaluate c.part u else u
        if (turnOf u i).map (·.state) ≠ some .queued then .wait u
        else if s.getF (Reg.ssqPbWeirQueueDepth c.part) ≤ (queuedOf s c.part).length then .done (s.bump Ctr.ssqTurnsRefused) { status := .weirQueueFull }
        else .wait (u.bump Ctr.ssqTurnsQueued)

def execTurnSubmit (c : Cmd) (s : State) : Host.Outcome State Fault Refusal := .next (hostCmd 0x0108 c (turnSubmit c) s)

def turnCancel (c : Cmd) (s : State) : Res :=
  need (c.argsOk [(0, 8)] && c.dlen == 0) .invalidField <|
  onSession c s fun i x =>
    match turnOf s i with
    | none => .fail .turnEnded
    | some _ => doneAt i (cancelTurn i (capCommand x.handle 0x0109 c s)) {}

def execTurnCancel (c : Cmd) (s : State) : Host.Outcome State Fault Refusal := .next (hostCmd 0x0109 c (turnCancel c) s)

-- Chains (R531, 05 R177)

/-- The members of a chain command's buffer: node and first stretch. -/
def chainMembers (b : List Byte) (m : Nat) : List (Nat × Nat) := (List.range m).map fun k => (fieldAt b (8 * k) 4, fieldAt b (8 * k + 4) 4)

/-- Strictly ascending. -/
def ascends : List Nat → Bool
  | a :: b :: l => decide (a < b) && ascends (b :: l)
  | _ => true

/-- A connection of the partition to a node is OPEN. -/
def openTo (s : State) (n node : Nat) : Bool := s.xfe.conns.any fun c => c.2.part == n && c.2.node == node && c.2.state == .opened

/-- The SYSTEM region over a session's chain buffer, which a member with another before it needs (11 R364): the one held, or a new one; none
where no index is free. -/
def chainRegion (x : Session) (own : Nat) (s : State) : Option (Option Nat × State) :=
  match x.chain.bind (·.region) with
  | some i => if own = 0 then some (none, endSystem i s) else some (some i, s)
  | none =>
    if own = 0 then some (none, s)
    else (systemRegion x.part (Config.bufferBase 0 x.handle) (Config.bufferLength 0 x.handle) s).map fun (i, s) => (some i, s)

/-- Configure a chain; `extend` adds the last member to the chain held. -/
def shard (extend : Bool) (op : Nat) (c : Cmd) (s : State) : Res :=
  let m := c.arg 8 1
  let own := c.arg 9 1
  let l := chainMembers (c.buffer s) m
  need (c.argsOk [(0, 8), (8, 1), (9, 1)] && decide (2 ≤ m ∧ m ≤ 64) && c.dlen == 8 * m) .invalidField <|
  onSession c s fun i x =>
    let held := match x.chain with
      | some k => k.members == l.take (m - 1) && k.own == own
      | none => own + 1 == m
    need (x.state == .opened && x.history.isEmpty && ((l.head?).map (·.2)) == some 0 && ascends (l.map (·.2)) && decide (own < m) &&
      ((l[own]?).map (·.1)) == some s.node && (!extend || held)) .invalidField <|
    let near := (if own = 0 then [] else [own - 1]) ++ (if own + 1 < m then [own + 1] else [])
    need (near.all fun k => openTo s c.part ((l.getD k (0, 0)).1)) .noConnection <|
    match chainRegion x own s with
    | none => .fail .noRegion
    | some (region, s) =>
    let s := commitEvent i (if extend then .extended else .sharded) .ok (capCommand x.handle op c s)
    let k : Chain := { members := l, own := own, region := region }
    let s := if !extend && decide (own + 1 < m) then dropCapsule x.handle s else s
    doneAt i (modSession i (fun x => if extend then { x with chainNext := some k } else { x with chain := some k }) s) {}

def execSessionShard (c : Cmd) (s : State) : Host.Outcome State Fault Refusal := .next (hostCmd 0x010A c (shard false 0x010A c) s)
def execChainExtend (c : Cmd) (s : State) : Host.Outcome State Fault Refusal := .next (hostCmd 0x010B c (shard true 0x010B c) s)

-- The tick (R56-R58)

/-- TICK_WRITE: a write of SSQ.TICK through a function. -/
def tickWrite (from_ value : Nat) (s : State) : State :=
  if s.operator from_ = false ∨ s.mgc.off ∨ 2 ^ 64 ≤ value then s
  else if value < s.tick then logEv .ssqTickBackward pSsq 0xFF [s.tick, value] s
  else
    let s' := s.setF Reg.ssqTickValue value
    if s.getF Reg.ssqTickCtrlMaxJump < value - s.tick then logEv .ssqTickJump pSsq 0xFF [s.tick, value] s' else s'

def execTickWrite (from_ value : Nat) (s : State) : Host.Outcome State Fault Refusal := .next (countIo from_ (tickWrite from_ value s))

/-- What falls due of a session at a tick (R58): kind 0 retirement, 1 expiry, 2 ladder move, with the tick at which it falls due. -/
def dueOf (s : State) (i : Nat) (x : Session) : List (Nat × Nat × Nat) :=
  if !x.idle ∨ s.ssq.corrupt.contains i then []
  else
    let dwell := s.getF (Reg.ssqPbLadderDwell x.part x.rung)
    let next := x.rung + 1
    (if x.retainTick ≤ s.tick then [(x.retainTick, i, 0)] else []) ++
      (if x.state ≠ .expired ∧ x.expiryTick ≤ s.tick then [(x.expiryTick, i, 1)] else []) ++
      (if x.state.parks ∧ dwell ≠ 0xFFFFFFFF ∧ next ≤ 3 ∧ s.flag (Reg.ssqPbLadderValid x.part next) ∧ x.rungTick + dwell ≤ s.tick then
        [(x.rungTick + dwell, i, 2)] else [])

/-- Order of R58: due tick, then INDEX, then retirement, expiry, ladder move. -/
def dueBefore (a b : Nat × Nat × Nat) : Bool :=
  decide (a.1 < b.1) || (a.1 == b.1 && (decide (a.2.1 < b.2.1) || (a.2.1 == b.2.1 && decide (a.2.2 < b.2.2))))

/-- The event that is taken next. -/
def nextDue (s : State) : Option (Nat × Nat × Nat) :=
  ((s.ssq.sessions.map fun x => dueOf s x.1 x.2).flatten).foldl (fun a d => match a with
    | none => some d
    | some e => if dueBefore d e then some d else some e) none

/-- Run an event if it is the next due (R58). -/
def whenDue (i kind : Nat) (f : State → State) (s : State) : State :=
  match nextDue s with
  | some d => if d.2.1 = i ∧ d.2.2 = kind then f s else s
  | none => s

/-- LADDER_MOVE. -/
def execLadderMove (session : Nat) (s : State) : Host.Outcome State Fault Refusal :=
  .next (live (whenDue session 2 fun s =>
    let s := commitEvent session .ladder .ok s
    match tget s.ssq.sessions session with
    | some x => if x.state.parks then enterRung session (x.rung + 1) s else s
    | none => s) s)

/-- SESSION_EXPIRY. -/
def execSessionExpiry (session : Nat) (s : State) : Host.Outcome State Fault Refusal :=
  .next (live (whenDue session 1 fun s =>
    let lapse := ((tget s.ssq.sessions session).map fun x => x.lostPage && x.idle).getD false
    let s := commitEvent session .expired .ok s
    if lapse then s else dropKv session (s.bump Ctr.ssqSessionsExpired)) s)

/-- SESSION_RETIREMENT. The event carries the COMMIT_SEQ at which the session closes (14 R456). -/
def execSessionRetirement (session : Nat) (s : State) : Host.Outcome State Fault Refusal :=
  .next (live (whenDue session 0 fun s =>
    match tget s.ssq.sessions session with
    | none => s
    | some x => logFull .ssqSessionRetired pSsq 0 x.part 0 (x.commitSeq + 1) [x.handle] (closeSession session .retired (s.bump Ctr.ssqSessionsRetired))) s)

end Sys2Proof.Machine
end

