-- ==== Sys2Proof/Machine/Bindings.lean ====
section
/-!
DEFINITION. Machine/Bindings.lean: model and tail bindings and adapters (02 R71-R74, 05 R144-R149, 06 R181-R184), where their
weights lie, and the attaching and detaching of wheels (05 R150, 06 R185, 08 R260, R271, R272, 16 R530).
-/
set_option cleanup.letToHave false
namespace Sys2Proof.Machine

open Sys2Proof

-- Weights (05 R146, R147)

/-- Projected rows U of a layer. -/
def Model.rows (m : Model) : Nat := if m.geom.latent then 576 else 2 * m.geom.heads * m.geom.dim

/-- Bytes of a layer's matrix, and of its bias. -/
def Model.matrixBytes (m : Model) : Nat := m.rows * rowBytes m.weightFmt m.hidden
def Model.biasBytes (m : Model) : Nat := if m.bias then 4 * m.rows else 0

/-- Length of the weight image. -/
def Model.imageLen (m : Model) : Nat :=
  m.cfg.foldl (fun e l => max e (max (l.wOff + m.matrixBytes) (if m.bias then l.biasOff + 4 * m.rows else 0))) 0

/-- bf16 bytes of one layer's terms of an adapter of rank `r`. -/
def Model.adapterBytes (m : Model) (r : Nat) : Nat := 2 * r * (m.hidden + m.rows)

/-- Offsets and lengths of the tail weight image (06 R183): the output projection, then head k's down and up matrices. -/
def Tail.rowB (t : Tail) : Nat := rowBytes t.outFmt t.hidden
def Tail.upRowB (t : Tail) : Nat := rowBytes t.outFmt t.width
def Tail.downOff (t : Tail) (k : Nat) : Nat := t.vocab * t.rowB + (k - 1) * (t.width * t.rowB)
def Tail.upOff (t : Tail) (k : Nat) : Nat := t.vocab * t.rowB + t.heads * (t.width * t.rowB) + (k - 1) * (t.hidden * t.upRowB)
def Tail.imageLen (t : Tail) : Nat := t.vocab * t.rowB + t.heads * (t.width * t.rowB + t.hidden * t.upRowB)

-- MODEL_BIND (R144-R149)

/-- A precision profile's valid entries, (start page, class); none where R121 finds a fault. -/
def profileOf (b : List Byte) : Option (List (Nat × Nat)) :=
  let e := (List.range 8).map fun i => fieldAt b (8 * i) 8
  let valid := e.takeWhile fun x => bit x 63
  let l := valid.map fun x => (bits x 0 16, bits x 16 8)
  if valid.isEmpty || !((e.drop valid.length).all (· == 0)) || !(valid.all fun x => bits x 24 39 == 0) ||
      !(l.all fun x => x.2 == 1 || x.2 == 2 || x.2 == 4) || ((l.head?).map (·.1)) != some 0 || !ascends (l.map (·.1)) then none
  else some l

/-- A layer entry (R145). -/
def layerCfg (b : List Byte) : LayerCfg :=
  { window := fieldAt b 0 4, keepFirst := fieldAt b 4 4, sink := bit (fieldAt b 8 1) 0, wOff := fieldAt b 0x10 8, biasOff := fieldAt b 0x18 8 }

/-- The fields of a model binding record. -/
def parseModel (b : List Byte) (part slot id : Nat) : Model :=
  let mode := fieldAt b 0x0C 1
  let n := fieldAt b 4 2
  let dr := fieldAt b 0x10 2
  let h := fieldAt b 6 1 + 1
  let g := fieldAt b 7 1 + 1
  { part := part, slot := slot, id := id, contract := fieldAt b 2 2, layers := n, geom := { heads := h, dim := fieldAt b 8 2, latent := bit mode 0 },
    group := g, hidden := fieldAt b 0x0A 2, strict := bit mode 1, rotHalf := bit mode 2, bias := bit mode 3, keyFormat := fieldAt b 0x0D 1,
    weightFmt := fieldAt b 0x0E 1, qrows := fieldAt b 0x0F 1, latV := fieldAt b 0x12 2, rankMax := fieldAt b 0x14 2, alpha := fieldAt b 0x18 4,
    vocab := fieldAt b 0x1C 4, weightBase := fieldAt b 0x40 8, tailId := fieldAt b 0x48 8,
    profile := (profileOf (slice b 0x50 64)).getD [], profileId := leNat (shake256 (slice b 0x50 64) 4),
    cfg := (List.range n).map fun l => layerCfg (slice b (0x100 + 32 * l) 32),
    rot := (List.range (dr / 2)).map fun i => fieldAt b (0x100 + 32 * n + 8 * i) 8,
    sinks := (List.range (n * h * g)).map fun i => fieldAt b (0x100 + 32 * n + 4 * dr + 4 * i) 4 }

/-- The shapes of R149. -/
def shapeOk (m : Model) : Bool :=
  if m.geom.latent then
    m.geom.heads == 1 && m.geom.dim == 576 && decide (1 ≤ m.qrows ∧ m.qrows ≤ 16) && decide (m.group ≤ 14 * m.qrows) && decide (32 ≤ m.latV ∧ m.latV ≤ 576) && m.latV % 32 == 0
  else
    decide (m.geom.heads ≤ 64) && decide (m.group ≤ 128) && (m.geom.dim == 64 || m.geom.dim == 128 || m.geom.dim == 256) &&
      decide (m.geom.heads * m.group * m.geom.dim ≤ 8192) && m.qrows == 1 && m.latV == 0

/-- MAGIC, zero fields, lengths and ranges of a record (R144, R145, R149). -/
def modelRecordOk (b : List Byte) (m : Model) : Bool :=
  let n := m.layers
  let dr := fieldAt b 0x10 2
  let len := 0x100 + 32 * n + 4 * dr + 4 * (n * m.qheads)
  fieldAt b 0 2 == 0x4D42 && decide (1 ≤ n ∧ n ≤ 256) && shapeOk m && m.hidden % 64 == 0 && decide (64 ≤ m.hidden ∧ m.hidden ≤ 16384) &&
    decide (fieldAt b 0x0C 1 < 16) && (m.keyFormat == 1 || m.keyFormat == 2 || m.keyFormat == 4) && decide (m.weightFmt ≤ 2) &&
    dr % 2 == 0 && decide (dr ≤ m.geom.dim) && decide (m.rankMax ≤ 256) && fieldAt b 0x16 2 == 0 && decide (1 ≤ m.vocab ∧ m.vocab ≤ 262144) &&
    fieldAt b 0x90 112 == 0 && b.length == len && decide (len ≤ 2 ^ 20) &&
    (List.range n).all fun l =>
      let e := slice b (0x100 + 32 * l) 32
      let c := layerCfg e
      decide (c.keepFirst ≤ 4096) && (c.window != 0 || c.keepFirst == 0) && decide (fieldAt e 8 1 ≤ 1) && fieldAt e 9 7 == 0 && (m.bias || c.biasOff == 0) &&
        (c.sink || (List.range m.qheads).all fun q => m.sinks.getD (l * m.qheads + q) 0 == 0)

/-- The lowest slot of 16 that none of a list uses. -/
def freeSlot16 (used : List Nat) : Option Nat := (List.range 16).find? fun i => !used.contains i

/-- The checks of R148 before the image, in order: the first failure, or the binding. -/
def modelFields (b : List Byte) (n id : Nat) (s : State) : Status ⊕ Model :=
  let used := (s.ssq.models.filter fun m => m.part == n).map (·.slot)
  let m := parseModel b n ((freeSlot16 used).getD 16) id
  if m.contract ≠ 1 then .inl .contractVersion
  else if !modelRecordOk b m then .inl .shape
  else if (profileOf (slice b 0x50 64)).isNone then .inl .profileInvalid
  else if s.isProtected n ∧ m.profile.any (·.2 != 1) then .inl .profileProtected
  else if m.strict ∧ m.profile.any (fun e => decide (m.keyFormat < e.2)) then .inl .format
  else if !s.inDirect n 1 m.weightBase m.imageLen then .inl .windowRange
  else if 16 ≤ m.slot then .inl .noBinding
  else .inr m

/-- The checks of R148 in order: the first failure, or the binding. -/
def modelCheck (c : Cmd) (b : List Byte) (id : Nat) (s : State) : State × (Status ⊕ Model) :=
  let n := c.part
  match modelFields b n id s with
  | .inl st => (s, .inl st)
  | .inr m =>
    match directFetch n 1 m.weightBase m.imageLen s with
    | (s, .inl st) => (s, .inl st)
    | (s, .inr w) => if shake256 w 32 = slice b 0x20 32 then (s, .inr m) else (s, .inl .weightMismatch)

/-- The window lines of the image that a binding's registration reads (12 R398); none where an earlier check of R148 fails. -/
def modelLines (b : List Byte) (n id : Nat) (s : State) : List Nat :=
  match modelFields b n id s with
  | .inl _ => []
  | .inr m => s.directLines n 1 m.weightBase m.imageLen

def modelBind (c : Cmd) (s : State) : Res :=
  let b := c.buffer s
  let id := leNat (shake256 b 8)
  need (c.argsOk []) .invalidField <|
  match s.model? c.part id, beginAccess (.command 0x0201 c) (modelLines b c.part id s) false s with
  | some _, _ => .done s { result0 := id }
  | none, some s => .wait s
  | none, none =>
    match modelCheck c b id s with
    | (s, .inl st) => .done s { status := st }
    | (s, .inr m) => .done { s with ssq := { s.ssq with models := s.ssq.models ++ [m] } } { result0 := id }

def execModelBind (c : Cmd) (s : State) : Host.Outcome State Fault Refusal := .next (hostCmd 0x0201 c (modelBind c) s)

/-- MODEL_UNBIND (R71). -/
def modelUnbind (c : Cmd) (s : State) : Res :=
  let n := c.part
  let id := c.arg 0 8
  need (c.argsOk [(0, 8)] && c.dlen == 0) .invalidField <|
  need (s.model? n id).isSome .noBinding <|
  need (!(s.ssq.sessions.any fun x => x.2.part == n && x.2.model == id) && !(s.ssq.wheels.any fun w => w.2.part == n && w.2.model == id)) .bindingInUse <|
  .done (pmeDropBinding n id { s with ssq := { s.ssq with models := s.ssq.models.filter fun m => !(m.part == n && m.id == id) } }) {}

def execModelUnbind (c : Cmd) (s : State) : Host.Outcome State Fault Refusal := .next (hostCmd 0x0202 c (modelUnbind c) s)

-- TAIL_BIND (06 R181-R184)

/-- The fields of a tail binding record. -/
def parseTail (b : List Byte) (part slot id : Nat) : Tail :=
  { part := part, slot := slot, id := id, contract := fieldAt b 2 2, vocab := fieldAt b 4 4, hidden := fieldAt b 8 2, outFmt := fieldAt b 0x0A 1,
    heads := fieldAt b 0x0B 1, width := fieldAt b 0x0C 2,
    tree := (List.range (min 32 (fieldAt b 0x0E 1))).map fun i => (bits (fieldAt b (0x40 + 2 * i) 2) 0 5, bits (fieldAt b (0x40 + 2 * i) 2) 5 5),
    draft := (List.range (fieldAt b 0x10 4)).map fun i => fieldAt b (0x80 + 4 * i) 4, eos := fieldAt b 0x14 4, weightBase := fieldAt b 0x18 8 }

/-- No two equal. -/
def distinct : List Nat → Bool
  | [] => true
  | a :: l => !l.contains a && distinct l

/-- A valid template (R182). -/
def templateOk (b : List Byte) (t : Tail) : Bool :=
  fieldAt b 0x40 2 == 0 && fieldAt b (0x40 + 2 * t.tree.length) (64 - 2 * t.tree.length) == 0 &&
    ((List.range t.tree.length).all fun i => decide (fieldAt b (0x40 + 2 * i) 2 < 1024)) &&
    ((t.tree.zipIdx.drop 1).all fun e => decide (e.1.1 < e.2)) && (t.depths.all fun d => decide (d ≤ t.heads)) &&
    distinct ((t.tree.drop 1).map fun e => e.1 * 32 + e.2)

/-- MAGIC, zero fields, length, ranges, template and draft list of a record (R184). -/
def tailRecordOk (b : List Byte) (t : Tail) : Bool :=
  let size := fieldAt b 0x0E 1
  let dv := fieldAt b 0x10 4
  fieldAt b 0 2 == 0x5442 && decide (1 ≤ t.vocab ∧ t.vocab ≤ 262144) && t.hidden % 64 == 0 && decide (64 ≤ t.hidden ∧ t.hidden ≤ 16384) &&
    decide (t.outFmt ≤ 2) && decide (t.heads ≤ 4) && decide (1 ≤ size ∧ size ≤ 32) && fieldAt b 0x0F 1 == 0 && decide (dv ≤ 16384) &&
    (if t.heads = 0 then t.width == 0 && size == 1 && dv == 0
     else t.width % 64 == 0 && decide (64 ≤ t.width ∧ t.width ≤ 4096) && dv % 64 == 0 && decide (64 ≤ dv)) &&
    b.length == 0x80 + 4 * dv && templateOk b t && distinct t.draft && t.draft.all fun k => decide (k < t.vocab)

/-- The checks of R184 before the image, in order. -/
def tailFields (b : List Byte) (n id : Nat) (s : State) : Status ⊕ Tail :=
  if fieldAt b 2 2 ≠ 1 then .inl .contractVersion
  else if 16384 < fieldAt b 0x10 4 then .inl .shape
  else
    let used := (s.ssq.tails.filter fun m => m.part == n).map (·.slot)
    let t := parseTail b n ((freeSlot16 used).getD 16) id
    if !tailRecordOk b t then .inl .shape
    else if !s.inDirect n 1 t.weightBase t.imageLen then .inl .windowRange
    else if 16 ≤ t.slot then .inl .noBinding
    else .inr t

/-- The checks of R184 in order. -/
def tailCheck (c : Cmd) (b : List Byte) (id : Nat) (s : State) : State × (Status ⊕ Tail) :=
  let n := c.part
  match tailFields b n id s with
  | .inl st => (s, .inl st)
  | .inr t =>
    match directFetch n 1 t.weightBase t.imageLen s with
    | (s, .inl st) => (s, .inl st)
    | (s, .inr w) => if shake256 w 32 = slice b 0x20 32 then (s, .inr t) else (s, .inl .weightMismatch)

/-- The window lines of the image that a tail binding's registration reads (12 R398). -/
def tailLines (b : List Byte) (n id : Nat) (s : State) : List Nat :=
  match tailFields b n id s with
  | .inl _ => []
  | .inr t => s.directLines n 1 t.weightBase t.imageLen

def tailBind (c : Cmd) (s : State) : Res :=
  let b := c.buffer s
  let id := leNat (shake256 b 8)
  need (c.argsOk []) .invalidField <|
  match s.tail? c.part id, beginAccess (.command 0x0203 c) (tailLines b c.part id s) false s with
  | some _, _ => .done s { result0 := id }
  | none, some s => .wait s
  | none, none =>
    match tailCheck c b id s with
    | (s, .inl st) => .done s { status := st }
    | (s, .inr t) => .done { s with ssq := { s.ssq with tails := s.ssq.tails ++ [t] } } { result0 := id }

def execTailBind (c : Cmd) (s : State) : Host.Outcome State Fault Refusal := .next (hostCmd 0x0203 c (tailBind c) s)

/-- Attached wheels of a partition whose model binding names a tail binding. -/
def wheelsOnTail (s : State) (n tail : Nat) : List (Nat × Wheel) :=
  s.ssq.wheels.filter fun w => w.2.part == n && ((s.model? n w.2.model).map (·.tailId)) == some tail

/-- TAIL_UNBIND (R184). -/
def tailUnbind (c : Cmd) (s : State) : Res :=
  let n := c.part
  let id := c.arg 0 8
  need (c.argsOk [(0, 8)] && c.dlen == 0) .invalidField <|
  need (s.tail? n id).isSome .noBinding <|
  need (wheelsOnTail s n id).isEmpty .bindingInUse <|
  .done { s with ssq := { s.ssq with tails := s.ssq.tails.filter fun m => !(m.part == n && m.id == id) } } {}

def execTailUnbind (c : Cmd) (s : State) : Host.Outcome State Fault Refusal := .next (hostCmd 0x0204 c (tailUnbind c) s)

-- Adapters (02 R73, 05 R147)

/-- Versions of an adapter in a partition's history. -/
def versionsOf (s : State) (n id : Nat) : List Adapter := s.ssq.adapters.filter fun a => a.part == n && a.id == id

def adapterLoad (c : Cmd) (s : State) : Res :=
  let n := c.part
  let bid := c.arg 0 8
  let id := c.arg 8 4
  let v := c.arg 0x0C 4
  need (c.argsOk [(0, 8), (8, 4), (0x0C, 4)] && id != 0) .invalidField <|
  match s.model? n bid with
  | none => .fail .noBinding
  | some m =>
    let per := m.layers * m.adapterBytes 1
    let r := c.dlen / max 1 per
    let fresh := fun (a : Adapter) => if s.pstate n = psReplay then a.ver != v else decide (a.ver < v)
    need (v != 0 && (versionsOf s n id).all fresh) .adapterVersion <|
    need (decide ((s.ssq.adapters.filter fun a => a.part == n && a.state != .freed).length < 1024)) .noAdapterSlot <|
    need (c.dlen == r * per && decide (1 ≤ r ∧ r ≤ 256)) .invalidField <|
    let a : Adapter := { part := n, id := id, ver := v, state := .live, binding := bid, rank := r, image := c.buffer s }
    .done { s with ssq := { s.ssq with adapters := s.ssq.adapters ++ [a] } } { result0 := r }

def execAdapterLoad (c : Cmd) (s : State) : Host.Outcome State Fault Refusal := .next (hostCmd 0x0205 c (adapterLoad c) s)

def adapterRetire (c : Cmd) (s : State) : Res :=
  let n := c.part
  let id := c.arg 8 4
  let v := c.arg 0x0C 4
  need (c.argsOk [(8, 4), (0x0C, 4)] && c.dlen == 0) .invalidField <|
  let l := versionsOf s n id
  if l.any fun a => a.ver == v && a.state == .live then
    .done (settleAdapter n id v { s with ssq := { s.ssq with adapters := s.ssq.adapters.map fun a =>
      if a.part = n ∧ a.id = id ∧ a.ver = v then { a with state := .retired } else a } }) {}
  else .fail (if l.any fun a => decide (v ≤ a.ver) then .adapterRetired else .invalidField)

def execAdapterRetire (c : Cmd) (s : State) : Host.Outcome State Fault Refusal := .next (hostCmd 0x0206 c (adapterRetire c) s)

-- Wheels (R150, 06 R185, 08 R260, R271, R272)

/-- 4 KiB units of a wheel's weight window (R271), and of a binding's resident weights (R272). -/
def windowUnits (s : State) (m : Model) (lead : Nat) : Nat :=
  cdiv ((lead + 2) * (m.matrixBytes + m.biasBytes + s.getF (Reg.hrcPbAdapterAreaMib m.part) * 2 ^ 20)) 4096
def residentUnits (m : Model) : Nat := cdiv (m.layers * (m.matrixBytes + m.biasBytes)) 4096

def weightResident (s : State) (n : Nat) : Bool := s.flag (Reg.hrcPbWeightResident n)

/-- The areas that a partition's T0 must hold once a wheel of a binding is attached with a lead: those it holds, and the wheel's own. -/
def newAreas (s : State) (m : Model) (tb : Tail) (w lead : Nat) : List Area :=
  let has := fun (o : AreaOwner) => s.tmg.areas.any fun a => a.part == m.part && a.owner == o
  (if weightResident s m.part then
     (if has (.resident m.id) then [] else
       [{ owner := .resident m.id, part := m.part, units := residentUnits m, bytes := s.directRead m.part 1 m.weightBase m.imageLen }])
   else [{ owner := .window w, part := m.part, units := windowUnits s m lead }]) ++
  (if has (.tailImage tb.id) then [] else
    [{ owner := .tailImage tb.id, part := m.part, units := cdiv tb.imageLen 4096, bytes := s.directRead m.part 1 tb.weightBase tb.imageLen }])

/-- The T0 check of R260: the page part holds WEIR_T0_PAGES slots and `units` of areas at once. -/
def t0Fits (s : State) (m : Model) (units : Nat) : Bool :=
  decide (s.getF (Reg.ssqPbWeirT0Pages m.part) * m.geom.slot4k 1 + units ≤ pagePart s m.part 0)

/-- Zero bytes and ranges of an exchange descriptor and the accelerator list (R150). R150 gives INLET_SLOTS no least value: 0, with which no
part could come, is refused like a value out of its range (DESIGN CHOICE, log 36). -/
def attachOk (c : Cmd) (b : List Byte) : Bool :=
  let a := c.arg 9 1
  c.argsOk [(0, 8), (8, 1), (9, 1)] && bits (c.arg 8 1) 4 3 == 0 && decide (1 ≤ a ∧ a ≤ 64) && c.dlen == 128 + 4 * a && fieldAt b 2 2 == 0 &&
    fieldAt b 0x48 56 == 0 && fieldAt b 8 8 % 4096 == 0 && decide (1 ≤ fieldAt b 0x10 4) && decide (fieldAt b 0x18 4 < 2 ^ 17) &&
    (List.range a).all fun i => decide (fieldAt b (128 + 4 * i) 4 < 2 ^ 17)

/-- The lowest free wheel number. -/
def freeWheel (s : State) : Option Nat := (List.range 256).find? fun w => (s.wheel? w).isNone

/-- Clear what the expert window wrote over a wheel's own fields (02 R52, 16 R517). -/
def clearWheelRegs (w : Nat) (s : State) : State :=
  [Reg.ssqWheelPartition w, Reg.ssqWheelValid w, Reg.ssqWheelLayersM1 w, Reg.ssqWheelBinding w].foldl (fun s f => s.setF f f.rst) s

/-- The two SYSTEM region indices of a wheel (11 R364). -/
def twoRegions (s : State) (n : Nat) : Option (Nat × Nat) :=
  match ((List.range (s.getF (Reg.mgcPbRegionCount n))).map (s.getF (Reg.mgcPbRegionBase n) + ·)).filter fun i => decide (i < 65536) && (tget s.xfe.regions i).isNone with
  | a :: b :: _ => some (a, b)
  | _ => none

/-- The status that refuses an attachment, in order: R150, R185, R260, R364. -/
def attachCheck (s : State) (b : List Byte) (m : Model) (lead : Nat) : Option Status :=
  let n := m.part
  let inlet := fieldAt b 0x10 4 * m.inletStride
  if 2 ^ 31 < inlet then some .invalidField
  else if (freeWheel s).isNone then some .noWheel
  else if !s.inDirect n 0 (fieldAt b 8 8) inlet then some .windowRange
  else
    match s.tail? n m.tailId with
    | none => some .noBinding
    | some tb =>
      let units := (newAreas s m tb ((freeWheel s).getD 0) lead).filter fun a => a.owner == .tailImage tb.id
      if tb.vocab ≠ m.vocab ∨ tb.hidden ≠ m.hidden ∨ tb.contract ≠ m.contract then some .shape
      else if fieldAt b 0x14 4 * m.outletStride < 64 + 64 * fieldAt b 0x30 4 then some .shape
      else if !units.isEmpty && decide (pagePart s n 0 < takenUnits s n 0 + (units.map (·.units)).sum) then some .budget
      else if !t0Fits s m (areaUnits s n + (((newAreas s m tb ((freeWheel s).getD 0) lead).filter (·.inCheck)).map (·.units)).sum) then some .budget
      else if (twoRegions s n).isNone then some .noRegion
      else none

/-- The T1 images that an attachment copies into T0, as address and length: resident weights and the tail's image, unless they are there
(R183, R272). -/
def attachImages (s : State) (m : Model) (lead : Nat) : List (Nat × Nat) :=
  match s.tail? m.part m.tailId with
  | none => []
  | some tb => (newAreas s m tb 0 lead).filterMap fun a => match a.owner with
    | .resident _ => some (m.weightBase, m.imageLen)
    | .tailImage _ => some (tb.weightBase, tb.imageLen)
    | _ => none

/-- Read the images, as a bind reads them (12 R401, 13 R431; log 36): the first status that ends the command, or none. -/
def readImages (n : Nat) : List (Nat × Nat) → State → State × Option Status
  | [], s => (s, none)
  | (a, len) :: l, s =>
    match directFetch n 1 a len s with
    | (s, .inl st) => (s, some st)
    | (s, .inr _) => readImages n l s

/-- Attach a wheel. -/
def wheelAttach (c : Cmd) (s : State) : Res :=
  let b := c.buffer s
  let n := c.part
  let lead := if bit (c.arg 8 1) 7 then bits (c.arg 8 1) 0 4 else 2
  need (attachOk c b) .invalidField <|
  match s.model? n (c.arg 0 8) with
  | none => .fail .noBinding
  | some m =>
    let images := attachImages s m lead
    match attachCheck s b m lead, beginAccess (.command 0x0207 c) ((images.map fun i => s.directLines n 1 i.1 i.2).flatten) false s, readImages n images s with
    | some st, _, _ => .fail st
    | none, some s, _ => .wait s
    | none, none, (s, some st) => .done s { status := st }
    | none, none, (s, none) =>
      match freeWheel s, s.tail? n m.tailId, twoRegions s n with
      | some w, some tb, some (ri, rt) =>
        let base := (fieldAt b 4 4 + 2 ^ 32 - 1) % 2 ^ 32
        let (s, ik) := addRegion ri { tag := 0, part := n, system := true, kind := 0, rights := 2, base := fieldAt b 8 8, tier := 0,
                                      length := fieldAt b 0x10 4 * m.inletStride, source := 2 ^ 31 } s
        let (s, tk) := addRegion rt { tag := 0, part := n, system := true, kind := 2, rights := 16, base := fieldAt b 0x34 4, source := 2 ^ 31, wheel := some w } s
        let x : Wheel := {
          part := n, model := m.id, accels := (List.range (c.arg 9 1)).map fun i => fieldAt b (128 + 4 * i) 4, lead := lead, stepBase := fieldAt b 4 4,
          inletBase := fieldAt b 8 8, inletSlots := fieldAt b 0x10 4, outletSlots := fieldAt b 0x14 4, node := fieldAt b 0x18 4, outletKey := fieldAt b 0x1C 4,
          outletAddr := fieldAt b 0x20 8, rosterAddr := fieldAt b 0x28 8, rosterSlots := fieldAt b 0x30 4, triggerTag := fieldAt b 0x34 4,
          outletCtr := fieldAt b 0x38 8, rosterCtr := fieldAt b 0x40 8, triggerKey := tk, inletKey := ik, lastStep := base, lastLayer := m.layers - 1, antStep := base, antLayer := m.layers - 1,
          committed := base }
        let areas := newAreas s m tb w lead
        let s := clearWheelRegs w (putWheel w x (s.setTmg { s.tmg with areas := s.tmg.areas ++ areas }))
        .done s { result0 := tk + ik * 2 ^ 32, result1 := w }
      | _, _, _ => .fail .noWheel

def execWheelAttach (c : Cmd) (s : State) : Host.Outcome State Fault Refusal := .next (hostCmd 0x0207 c (wheelAttach c) s)

/-- Areas that a partition still needs: windows of attached wheels, resident weights of bindings a wheel names, images of tails a wheel
names (R183, R271, R272). -/
def areaNeeded (s : State) (a : Area) : Bool :=
  match a.owner with
  | .window w => (s.wheel? w).isSome
  | .excess w _ _ => (s.wheel? w).isSome
  | .resident m => s.ssq.wheels.any fun w => w.2.part == a.part && w.2.model == m
  | .tailImage t => !(wheelsOnTail s a.part t).isEmpty

/-- The fetches that shared an abandoned one go on as one of their own: the first fetches, and the others share with it (R271). -/
def shareAnew (l : List Fetch) (s : State) : State :=
  match l with
  | [] => s
  | g :: _ => s.setHrc { s.hrc with fetches := s.hrc.fetches.map fun f => if f == g then { f with sharing := none } else if l.contains f then { f with sharing := some g.wheel } else f }

/-- Take a wheel off the device (R530): its regions, what waits for it, its areas. -/
def dropWheel (w : Nat) (s : State) : State :=
  match s.wheel? w with
  | none => s
  | some x =>
    let s := foldReady (x.pins.foldl (fun s h => dropPin h s) s)
    let s := [keyIndex x.triggerKey, keyIndex x.inletKey].foldl (fun s i => endSystem i s) s
    let s := { s with ssq := { s.ssq with wheels := tdel s.ssq.wheels w },
                      xfe := { s.xfe with requests := s.xfe.requests.filter fun r => r.2.what != ReqFor.tailFlush w } }
    let s := s.setHrc { s.hrc with fetches := s.hrc.fetches.filter fun f => f.wheel != w, filled := s.hrc.filled.filter fun f => f.wheel != w,
                                   lead := tdel s.hrc.lead w }
    let left := s.hrc.fetches.filter fun f => f.sharing == some w
    let s := (left.map (·.layer)).eraseDups.foldl (fun s l => shareAnew (left.filter (·.layer == l)) s) s
    clearWheelRegs w (s.setTmg { s.tmg with areas := s.tmg.areas.filter (areaNeeded s) })

/-- WHEEL_DETACH (R530, 02 R72). -/
def wheelDetach (c : Cmd) (s : State) : Res :=
  let w := c.arg 0 2
  need (c.argsOk [(0, 2)] && c.dlen == 0) .invalidField <|
  match s.wheel? w with
  | none => .fail .noWheel
  | some x =>
    need (x.part == c.part) .noWheel <|
    need (!(s.ssq.turns.any fun t => t.wheel == w)) .sessionBusy <|
    .done (dropWheel w s) {}

def execWheelDetach (c : Cmd) (s : State) : Host.Outcome State Fault Refusal := .next (hostCmd 0x0208 c (wheelDetach c) s)

end Sys2Proof.Machine
end

