-- ==== Sys2Proof/Machine/Shaft.lean ====
section
/-!
DEFINITION. Machine/Shaft.lean: the shaft (02 R50-R55), the shaft-due fetches of the Headrace (02 R53, 08 R269-R273), the exchange of
parts (05 R155, R156, 06 R189) and the forming of a part's items and gangs (05 R158, R163-R166, 06 R190).
-/
set_option cleanup.letToHave false
namespace Sys2Proof.Machine

open Sys2Proof Fp

-- Shaft-due sets (08 R269)

/-- The position `k` after layer `l` of step `st`, the tail counting as position N (R269). -/
def posAfter (n st l k : Nat) : Nat × Nat := ((st + (l + k) / (n + 1)) % 2 ^ 32, (l + k) % (n + 1))

/-- Handles of the pages of a layer that a RUNNING turn reads in a step: by its roster entries, or for a step without a roster those
that are not dead (R278). -/
def pagesRead (s : State) (x : Wheel) (m : Model) (t : Turn) (step layer : Nat) : List Nat :=
  match tget s.ssq.sessions t.session, m.cfg[layer]? with
  | some y, some cfg =>
    let es := x.entriesOf t.slot
    let mine := y.map.filter fun e => keyLayer e.1 == layer && !foldedRef e.2
    if step = x.rosterStep ∧ !es.isEmpty ∧ !x.blockWritten then
      let pages := ((attendedStretches cfg y.kvLen es es).map (attendedPages cfg y.kvLen es es)).flatten
      (mine.filter fun e => pages.contains (keyPage e.1)).map (·.2)
    else (mine.filter fun e => !deadAt cfg y.kvLen (keyPage e.1)).map (·.2)
  | _, _ => []

/-- Adapter versions bound to RUNNING turns of a wheel. -/
def adaptersOn (s : State) (w : Nat) : List (Nat × Nat) :=
  (((runningOn s w).filterMap fun t => tget s.ssq.sessions t.session).filterMap fun y => if y.adapter = 0 then none else some (y.adapter, y.adapterVer)).eraseDups

/-- Weight, adapter and overflow fetches of a position. -/
def fetchesAt (s : State) (w : Nat) (x : Wheel) (m : Model) (step layer : Nat) : List Fetch :=
  let mk := fun (k : FetchKind) (b : Nat) => ({ wheel := w, step := step, layer := layer, kind := k, tier := 1, bytes := b } : Fetch)
  if layer = m.layers then
    (runningOn s w).filterMap fun t => if t.spill.isEmpty then none else some (mk (.overflow t.session) (8 * t.spill.length))
  else
    (if weightResident s x.part then [] else [mk .weights (m.matrixBytes + m.biasBytes)]) ++
      (adaptersOn s w).map fun a => mk (.adapter a.1 a.2) (m.adapterBytes (adapterRank s x.part a.1 a.2))

/-- Whether two fetches bring the same thing. -/
def Fetch.same (a b : Fetch) : Bool := a.wheel == b.wheel && a.step == b.step && a.layer == b.layer && a.kind == b.kind

/-- The slot of another wheel of the binding, filled or being filled, which a wheel shares (R271): one at the slot's layer, or at the layer
at which this wheel is, for a slot filled ahead. -/
def sharedSlot (s : State) (x : Wheel) (f : Fetch) : Option Fetch :=
  if f.kind ≠ .weights then none
  else (s.hrc.filled ++ s.hrc.fetches).find? fun g => g.kind == .weights && g.layer == f.layer && g.wheel != f.wheel && g.sharing.isNone &&
    ((s.wheel? g.wheel).map fun y => y.part == x.part && y.model == x.model && (y.lastLayer == f.layer || y.lastLayer == x.lastLayer)).getD false

/-- Slots of a wheel's weight window that are filled or being filled (R271). -/
def slotsFilled (s : State) (w : Nat) : Nat := ((s.hrc.fetches ++ s.hrc.filled).filter fun f => f.wheel == w && f.kind == .weights).length

/-- The adapter fetches of a position, in the order in which they were issued. -/
def adapterFetches (s : State) (w step layer : Nat) : List Fetch :=
  (s.hrc.filled ++ s.hrc.fetches).filter fun f => f.wheel == w && f.step == step && f.layer == layer && (match f.kind with
    | .adapter _ _ => true
    | _ => false)

/-- Bytes of adapter terms of a position beyond the adapter area (R273). -/
def adapterArea (s : State) (x : Wheel) : Nat := s.getF (Reg.hrcPbAdapterAreaMib x.part) * 2 ^ 20
def excessBytes (s : State) (x : Wheel) (w step layer : Nat) : Nat := ((adapterFetches s w step layer).map (·.bytes)).sum - adapterArea s x

/-- A fetch brings part of the excess: the fetches before it and itself pass the area. -/
def inExcess (s : State) (x : Wheel) (f : Fetch) : Bool :=
  decide (adapterArea s x < (((adapterFetches s f.wheel f.step f.layer).takeWhile (· != f)).map (·.bytes)).sum + f.bytes)

/-- Place the excess of a position in free space of the page part; what is not placed is tried again when a fetch ends (R273). -/
def placeExcess (w step layer : Nat) (s : State) : State :=
  match s.wheel? w with
  | none => s
  | some x =>
    let need := cdiv (excessBytes s x w step layer) 4096
    let owner := AreaOwner.excess w step layer
    let have_ := ((s.tmg.areas.filter (·.owner == owner)).map (·.units)).sum
    if need ≤ have_ then s
    else if pagePart s x.part 0 < takenUnits s x.part 0 + (need - have_) then s
    else s.setTmg { s.tmg with areas := (s.tmg.areas.filter (·.owner != owner)) ++ [{ owner := owner, part := x.part, units := need }] }

/-- The excess of a position is placed. -/
def excessPlaced (s : State) (x : Wheel) (w step layer : Nat) : Bool :=
  decide (cdiv (excessBytes s x w step layer) 4096 ≤ ((s.tmg.areas.filter (·.owner == .excess w step layer)).map (·.units)).sum)

/-- Where the measurement of R270 keeps the set of a position. -/
def setKey (step layer : Nat) : Nat := step * 2 ^ 16 + layer

/-- Add the per-tier bytes of an issue of the set of a position into the measurement of R270. -/
def noteLead (w step layer : Nat) (l : List Nat) (s : State) : State :=
  let e := tgetD s.hrc.lead w {}
  let e := { e with bytes := tset e.bytes (setKey step layer) (((tgetD e.bytes (setKey step layer) [0, 0, 0]).zip l).map fun p => p.1 + p.2) }
  s.setHrc { s.hrc with lead := tset s.hrc.lead w e }

/-- Issue what is not yet issued of the shaft-due set of a position. Its weights and adapters wait while the window has no free slot; they
take the slot of another wheel that is at the layer (R271). -/
def issueSet (w step layer : Nat) (s : State) : State :=
  match s.wheel? w with
  | none => s
  | some x =>
    match s.model? x.part x.model with
    | none => s
    | some m =>
      let low := if layer = m.layers then [] else
        ((((runningOn s w).map fun t => pagesRead s x m t step layer).flatten).eraseDups).filter fun h => ((s.rec? h).map fun r => r.tier != 0).getD false
      let new := (fetchesAt s w x m step layer).filter fun f => !(s.hrc.fetches.any f.same) && !(s.hrc.filled.any f.same)
      let new := if new.any (fun f => f.kind == .weights) && decide (x.lead + 2 ≤ slotsFilled s w) then [] else new
      let here := new.filterMap fun f => (sharedSlot s x f).map fun g => (f, g)
      let go := new.filter fun f => (sharedSlot s x f).isNone
      let have_ := here.filter fun e => s.hrc.filled.contains e.2
      let wait := here.filter fun e => !s.hrc.filled.contains e.2
      let first := (tget (tgetD s.hrc.lead w {}).bytes (setKey step layer)).isNone
      let fresh := low.filter fun h => first || (moveOf s h).isNone
      let bytes := [1, 2, 3].map fun k => ((fresh.filterMap s.rec?).filter (·.tier == k)).foldl (fun n r => n + r.slot4k * 4096) (if k = 1 then (go.map (·.bytes)).sum else 0)
      let s := low.foldl (fun s h => readToT0 h .fetch s) (noteLead w step layer bytes s)
      let s := s.setHrc { s.hrc with fetches := s.hrc.fetches ++ go ++ wait.map fun e => { e.1 with sharing := some e.2.wheel },
                                     filled := s.hrc.filled ++ have_.map fun e => { e.1 with data := e.2.data } }
      if !go.isEmpty && decide (0 < excessBytes s x w step layer) then
        placeExcess w step layer (logEv .hrcAdapterOverflow pHrc x.part [w, step, layer] (s.bump Ctr.hrcAdapterOverflows))
      else s

/-- Issue the sets of a position and of the `lead` positions after it. -/
def issueAhead (w step layer : Nat) (s : State) : State :=
  match s.wheel? w with
  | none => s
  | some x =>
    let n := ((s.model? x.part x.model).map (·.layers)).getD 1
    (List.range (x.lead + 1)).foldl (fun s k => let p := posAfter n step layer k; issueSet w p.1 p.2 s) s

/-- Issue what waited for a slot of the weight window, at the positions ahead of the SP (08 R271). -/
def refillWindow (w : Nat) (s : State) : State :=
  match s.wheel? w with
  | none => s
  | some x =>
    if x.roster.isNone then s
    else
      let n := ((s.model? x.part x.model).map (·.layers)).getD 1
      (List.range x.lead).foldl (fun s k => let p := posAfter n x.lastStep x.lastLayer (k + 1); issueSet w p.1 p.2 s) s

-- BEAT_IN (02 R54)

/-- How many layers the anticipated SP is ahead of the fabric SP, steps counted with wrap; negative when it is behind. -/
def beatAhead (n : Nat) (x : Wheel) : Int :=
  let d := (x.antStep * n + x.antLayer + 2 ^ 32 * n - (x.lastStep * n + x.lastLayer) % (2 ^ 32 * n)) % (2 ^ 32 * n)
  if d < 2 ^ 31 * n then (d : Int) else (d : Int) - 2 ^ 32 * n

/-- The anticipated SP follows the fabric SP. -/
def Wheel.followSp (x : Wheel) : Wheel := { x with antStep := x.lastStep, antLayer := x.lastLayer }

/-- Set the anticipated SP to the fabric SP and say so. -/
def beatResync (w : Nat) (x : Wheel) (s : State) : State :=
  logEv .ssqBeatResync pSsq x.part [w, x.antLayer, x.lastLayer] (modWheel w Wheel.followSp (s.bump Ctr.ssqBeatResyncs))

/-- One accepted pulse for a wheel: the anticipated SP advances by a layer (R50), and the Headrace fetches from it unless it is now more
than a layer ahead. -/
def beatWheel (w : Nat) (x : Wheel) (s : State) : State :=
  let n := ((s.model? x.part x.model).map (·.layers)).getD 1
  let x := if x.antLayer + 1 < n then { x with antLayer := x.antLayer + 1 } else { x with antStep := (x.antStep + 1) % 2 ^ 32, antLayer := 0 }
  let s := modWheel w (fun y => { y with antStep := x.antStep, antLayer := x.antLayer }) s
  if 1 < beatAhead n x then beatResync w x s else issueAhead w x.antStep x.antLayer s

/-- BEAT_IN: an accepted pulse. A masked input is not heard (15 R506). -/
def execBeatIn (s : State) : Host.Outcome State Fault Refusal :=
  .next (live (fun s => if s.flag (Reg.mgcPinMasked 1) then s
    else s.ssq.wheels.foldl (fun s w => if s.flag (Reg.ssqWheelBeatEn w.1) then beatWheel w.1 w.2 s else s) s) s)

-- Expert writes of SSQ.WHEEL (02 R53, 16 R517)

/-- The partition whose object a wheel is: its owner, or what the register names while no wheel is attached. -/
def wheelPart (s : State) (w : Nat) : Nat := ((s.wheel? w).map (·.part)).getD (s.getF (Reg.ssqWheelPartition w))

/-- Write the first word (`reg` 0) or the BEAT word (`reg` 2) of SSQ.WHEEL[w]. -/
def wheelExpert (from_ w reg value : Nat) (s : State) : State :=
  if 256 ≤ w ∨ !s.expertOpen pSsq from_ ∨ !s.expertObject pSsq from_ (wheelPart s w) then s
  else if reg = 0 then
    let s := [(Reg.ssqWheelPartition w, bits value 0 4), (Reg.ssqWheelValid w, bits value 4 1), (Reg.ssqWheelLayersM1 w, bits value 16 8),
              (Reg.ssqWheelBinding w, bits value 24 4)].foldl (fun s f => s.setF f.1 f.2) s
    match s.wheel? w with
    | some _ => modWheel w (fun x => { x with pendingLead := some (bits value 8 4) }) s
    | none => s.setF (Reg.ssqWheelLead w) (bits value 8 4)
  else if reg = 2 then s.setF (Reg.ssqWheelBeatEn w) (bits value 8 1)
  else s

def execWheelExpertWrite (from_ wheel reg value : Nat) (s : State) : Host.Outcome State Fault Refusal := .next (countIo from_ (wheelExpert from_ wheel reg value s))

-- Stall (02 R55)

/-- WHEEL_STALL: a wheel with a RUNNING turn accepted no exchange for the stall timeout. -/
def wheelStall (w : Nat) (s : State) : State :=
  match s.wheel? w with
  | none => s
  | some x =>
    if (runningOn s w).isEmpty then s
    else
      let s := rollbackWheel w (s.bump Ctr.ssqWheelStalls)
      let mine := (s.ssq.turns.filter fun t => t.wheel == w && t.state != .queued).map (·.session)
      logEv .ssqWheelStall pSsq x.part [w, x.lastStep, x.lastLayer] (endTurns mine .wheelTimeout s)

def execWheelStall (wheel : Nat) (s : State) : Host.Outcome State Fault Refusal := .next (live (wheelStall wheel) s)

-- Items and gangs (05 R158, R163-R166)

/-- Q_pass (R163). -/
def Model.qPass (m : Model) : Nat := if m.geom.dim = 256 then 32 else 64

/-- Head vectors of a record's projection, and how many of them one item takes (R158): a run of whole ones of up to 512 rows, and the one
vector of latent mode, whose 576 rows no item of 512 could hold whole (log 68). -/
def Model.vectors (m : Model) : Nat := if m.geom.latent then 1 else 2 * m.geom.heads
def Model.vecsPerItem (m : Model) : Nat := max 1 (512 / m.geom.dim)

/-- ⌈log₂ c⌉, and the length bucket of a turn (R165). -/
def clog2 (c : Nat) : Nat := ((List.range 64).find? fun k => decide (c ≤ 2 ^ k)).getD 64
def lengthBucket (kv n : Nat) : Nat := let c := cdiv (kv + n) 32; if c ≤ 1 then 0 else min 15 (clog2 c)

/-- Cut a list into pieces of at most `k`; the first argument bounds the pieces. -/
def cutUp {α : Type} (k : Nat) : Nat → List α → List (List α)
  | 0, _ => []
  | n + 1, l => if l.isEmpty then [] else l.take (max 1 k) :: cutUp k n (l.drop (max 1 k))

/-- Turns of a part that have not ended the step, in roster order. -/
def partTurns (x : Wheel) (p : LayerPart) : List Nat :=
  (((List.range p.count).filterMap fun k => (x.entries[p.first + k]?).map (·.slot)).eraseDups).filter fun t => !x.resolved t

/-- Queries of a turn's head group in a part, as (record, query head), in the order of R163. -/
def groupQueries (x : Wheel) (m : Model) (p : LayerPart) (slot hg : Nat) : List (Nat × Nat) :=
  ((partRecords x p slot).map fun r => (List.range m.group).map fun j => (r, hg * m.group + j)).flatten

/-- A projection is made on this device: the turn runs on, and the device is the session's last chain member (R177). -/
def projects (s : State) (x : Wheel) (rec' : Nat) : Bool :=
  match x.entries[rec']? with
  | none => false
  | some e => !x.resolved e.slot && ((tget s.ssq.sessions e.session).map lastMember).getD false

/-- The projection items of a part (R158): 64 records and a run of whole head vectors each. -/
def projectionItems (s : State) (x : Wheel) (m : Model) (p : LayerPart) : List ItemKind :=
  let runs := (List.range (cdiv m.vectors m.vecsPerItem)).map fun k => (k * m.vecsPerItem, min m.vecsPerItem (m.vectors - k * m.vecsPerItem))
  (((List.range (cdiv p.count 64)).map fun b => (p.first + 64 * b, min 64 (p.count - 64 * b))).map fun b =>
    if (List.range b.2).any fun k => projects s x (b.1 + k) then runs.map fun v => ItemKind.project b.1 b.2 v.1 v.2 else []).flatten

/-- An attention item before ganging: its bucket, its gang key, what it is. -/
structure Formed where
  bucket : Nat
  stretch : Nat
  first : Nat
  turn : Nat
  kind : ItemKind
deriving DecidableEq, Repr

/-- Items in the order of R166, before the sort. A page that is still to be appended has no handle at formation: the model gives it a gang key
of its own, of the session and the page index (DESIGN CHOICE, log 68). -/
def formItems (s : State) (x : Wheel) (m : Model) (p : LayerPart) : List Formed :=
  ((partTurns x p).map fun slot =>
    let es := (partRecords x p slot).filterMap fun r => x.entries[r]?
    match es.head?.bind fun e => (tget s.ssq.sessions e.session).map fun y => (e, y), m.cfg[p.layer]? with
    | some (e, y), some cfg =>
      let b := lengthBucket y.kvLen (x.entriesOf slot).length
      let sts := (attendedStretches cfg y.kvLen (x.entriesOf slot) es).filter (holdsStretch y)
      ((List.range m.geom.heads).map fun hg => (sts.map fun st =>
        let k := ((attendedPages cfg y.kvLen (x.entriesOf slot) es st).head?).getD 0
        let first := (y.page p.layer k).getD (2 ^ 40 + e.session * 65536 + k)
        (List.range (cdiv (groupQueries x m p slot hg).length m.qPass)).map fun q =>
          ({ bucket := b, stretch := st, first := first, turn := slot, kind := .attend slot hg st q } : Formed)).flatten).flatten
    | _, _ => []).flatten

/-- Stable sort by bucket, longest first. -/
def byBucket (l : List Formed) : List Formed := ((List.range 16).reverse.map fun b => l.filter (·.bucket == b)).flatten

/-- Insert a gang by the position of its first member. -/
def gangInsert (g : List (Formed × Nat)) : List (List (Formed × Nat)) → List (List (Formed × Nat))
  | [] => [g]
  | h :: l => if ((g.head?).map (·.2)).getD 0 < ((h.head?).map (·.2)).getD 0 then g :: h :: l else h :: gangInsert g l

/-- The gangs of a part in deal order (R166, R171). -/
def formGangs (s : State) (n : Nat) (items : List Formed) : List (List Formed) :=
  let l := (byBucket items).zipIdx
  let keys := (l.map fun e => (e.1.stretch, e.1.first)).eraseDups
  let size := min (s.getF (Reg.mxgPbGangGangMax 0 n)) (arraysOf s n).length
  let groups := (keys.map fun k =>
    let mine := l.filter fun e => (e.1.stretch, e.1.first) == k
    let pieces := if s.flag (Reg.mxgPbGangConflEn 0 n) then [mine]
      else ((mine.map (·.1.turn)).eraseDups).map fun t => mine.filter fun e => e.1.turn == t
    (pieces.map fun q => cutUp size q.length q).flatten).flatten
  (groups.foldl (fun acc g => gangInsert g acc) []).map fun g => g.map (·.1)

/-- Form the items and gangs of a part of a layer: projection first, each item a gang of its own. -/
def formLayer (s : State) (x : Wheel) (m : Model) (p : LayerPart) : LayerPart :=
  let proj := projectionItems s x m p
  let gangs := formGangs s x.part (formItems s x m p)
  { p with items := (proj.zipIdx.map fun k => ({ kind := k.1, gang := k.2 } : Item)) ++
             (gangs.zipIdx.map fun g => g.1.map fun f => ({ kind := f.kind, gang := proj.length + g.2 } : Item)).flatten,
           gangs := (proj.map fun _ => ({} : Gang)) ++ gangs.map fun _ => ({} : Gang) }

/-- Form the logit batches of a tail part (06 R190): of the records of turns that run on and whose token tail is this device's (R177). -/
def formTail (s : State) (x : Wheel) (m : Model) (p : LayerPart) : LayerPart :=
  let per := max 1 (786432 / max 1 m.hidden)
  let recs := (List.range p.count).map (p.first + ·)
  let live' := recs.filter fun r => ((x.tailRecords[r]?).map fun e =>
    !x.resolved e.slot && ((tget s.ssq.sessions e.session).map lastMember).getD false).getD false
  let items := (cutUp per live'.length live').map fun b => ItemKind.logits (b.head?.getD 0) ((b.getLast?.getD 0) + 1 - b.head?.getD 0)
  { p with items := items.zipIdx.map fun k => { kind := k.1, gang := k.2 }, gangs := items.map fun _ => {} }

/-- Turns of a part that read a page narrower than KEY_FORMAT, each with the first such page (05 R176; one event a turn, log 68). -/
def narrowReads (s : State) (x : Wheel) (m : Model) (p : LayerPart) : List (Nat × Nat) :=
  if m.strict = false then []
  else (partTurns x p).filterMap fun slot =>
    match turnOfSlot s slot with
    | none => none
    | some t => ((pagesRead s x m t x.rosterStep p.layer).find? fun h =>
        ((s.rec? h).map fun r => r.sealed && !r.forced && decide (m.keyFormat < r.cls)).getD false).map fun h => (t.session, h)

-- The exchange (05 R155, R156, 06 R189)

/-- A trigger's payload (R155). -/
structure Exch where
  tail : Bool
  step : Nat
  layer : Nat
  part : Nat
  first : Nat
  count : Nat
  slot : Nat
  seq : Nat
  last : Bool
deriving DecidableEq, Repr

/-- The payload's fields; none where MAGIC, VERSION, a zero field or CHECK is wrong. -/
def parseExch (b : List Byte) : Option Exch :=
  let magic := fieldAt b 0 2
  if (magic ≠ 0x4C58 ∧ magic ≠ 0x5458) ∨ fieldAt b 2 1 ≠ 1 ∨ 1 < fieldAt b 3 1 ∨ fieldAt b 0x0C 4 ≠ 0 ∨ fieldAt b 0x20 24 ≠ 0 ∨
      (magic = 0x5458 ∧ fieldAt b 8 2 ≠ 0xFFFF) ∨ slice b 0x38 8 ≠ shake256 (slice b 0 0x38) 8 then none
  else some { tail := magic == 0x5458, step := fieldAt b 4 4, layer := fieldAt b 8 2, part := fieldAt b 0x0A 2, first := fieldAt b 0x10 4,
              count := fieldAt b 0x14 4, slot := fieldAt b 0x18 4, seq := fieldAt b 0x1C 4, last := fieldAt b 3 1 == 1 }

/-- The successor of a wheel's last SP (02 R50). -/
def Wheel.nextSp (x : Wheel) (n : Nat) : Nat × Nat := if x.lastLayer + 1 < n then (x.lastStep, x.lastLayer + 1) else ((x.lastStep + 1) % 2 ^ 32, 0)

/-- The rules of R156 and R189 on a part. The part with LAST_PART brings the total to the COUNT of the roster; a part that reaches it without
LAST_PART is refused at once, in place of the part that would pass it (DESIGN CHOICE, log 36). -/
def partOk (x : Wheel) (n : Nat) (e : Exch) : Bool :=
  let total := if e.tail then x.tailRecords.length else x.entries.length
  let opening := e.part == 0
  x.roster.isSome && !x.blockWritten && e.seq == x.rosterSeq && decide (1 ≤ e.count ∧ e.count ≤ x.inletSlots) &&
    (if e.tail then
       e.step == x.rosterStep && x.lastStep == x.rosterStep && x.lastLayer + 1 == n && !x.tailDone && (if opening then x.layerDone && !x.tailBegun else x.tailBegun)
     else e.step == x.rosterStep && !x.tailBegun && (if opening then x.layerDone else !x.layerDone && e.step == x.lastStep && e.layer == x.lastLayer)) &&
    (if opening then e.first == 0 else e.part == x.nextPart && e.first == x.nextRec) && decide (e.first + e.count ≤ total) &&
    (e.last == (e.first + e.count == total))

/-- Roll back a wheel's step for every turn in it. Turns that a drain left in the step are then in none, and end at once (13 R416). -/
def rollbackStep (w : Nat) (s : State) : State :=
  let s := rollbackWheel w s
  endTurns ((s.ssq.turns.filter fun t => t.wheel == w && t.drain).map (·.session)) .partitionDrain s

/-- A trigger that breaks a rule of the exchange: the event, and the wheel's step rolled back for every turn (R156). -/
def refuseExchange (w : Nat) (x : Wheel) (payload : List Byte) (s : State) : State :=
  let s := s.bump (Ctr.mxgExchangeInvalid 0)
  let s := if fieldAt payload 0 2 = 0x5458 then s.bump Ctr.mxgTailExchangeInvalid else s
  rollbackStep w (logEv .mxgExchangeInvalid pMxg x.part ((List.range 8).map fun i => fieldAt payload (8 * i) 8) s)

/-- INLET records of a part (14 R463): of turns that run on and are recorded. -/
def recordInlet (w : Nat) (x : Wheel) (m : Model) (p : LayerPart) (s : State) : State :=
  let _ := w
  (List.range p.count).foldl (fun s k =>
    match (x.recordsOf p.tail)[p.first + k]? with
    | none => s
    | some e =>
      match tget s.ssq.sessions e.session with
      | none => s
      | some y =>
        if x.resolved e.slot ∨ !lastMember y then s
        else
          match openCapsule s y.handle with
          | none => s
          | some c =>
            let b := (inletBytes s x m p (p.first + k)).drop (if p.tail then m.qRegion else 0)
            let idx := ((x.recordsOf p.tail).take (p.first + k)).countP fun f => f.slot == e.slot
            capRecord y.handle { type := 3, step := stepIndex s e.slot, layer := if p.tail then 0xFFFF else p.layer, index := idx,
                                 payload := if c.full then b else hash32 b } s) s

/-- Take an accepted part: its records kept, its items formed. -/
def takePart (w : Nat) (m : Model) (e : Exch) (s : State) : State :=
  match s.wheel? w with
  | none => s
  | some x =>
    let p : LayerPart := { layer := if e.tail then m.layers else e.layer, tail := e.tail, part := e.part, first := e.first, count := e.count, slot := e.slot,
                           last := e.last, stamp := s.ssq.partSeq }
    let p := { p with inlet := (List.range p.count).map fun k => inletBytes s x m p (p.first + k) }
    let s := { s with ssq := { s.ssq with partSeq := s.ssq.partSeq + 1 } }
    let s := modWheel w (fun x => { x with nextPart := e.part + 1, nextRec := e.first + e.count, layerDone := if e.tail then x.layerDone else e.last,
                                           tailBegun := x.tailBegun || e.tail, tailDone := if e.tail then e.last else x.tailDone }) s
    let s := if e.tail then s else (narrowReads s x m p).foldl (fun s th =>
      endTurns [th.1] .format (logEv .mxgFormat pMxg x.part [th.2, w, p.layer] (s.bump (Ctr.mxgFormatRefusals 0)))) s
    match s.wheel? w with
    | none => s
    | some x =>
      let s := recordInlet w x m p s
      let p := if e.tail then formTail s x m p else formLayer s x m p
      finishTail w (settleParts w (modWheel w (fun x => { x with parts := x.parts ++ [p] }) s))

/-- What the acceptance of part 0 of a layer does beside (02 R50, R54, 08 R269, R270, R278). While BEAT_EN is 0 the anticipated SP follows
the fabric SP (log 67). -/
def acceptShaft (w : Nat) (e : Exch) (elapsedNs : Nat) (s : State) : State :=
  match s.wheel? w with
  | none => s
  | some x =>
    let n := ((s.model? x.part x.model).map (·.layers)).getD 1
    let lm := tgetD s.hrc.lead w {}
    let s := s.setHrc { s.hrc with lead := tset s.hrc.lead w { lm with layerNs := elapsedNs } }
    let s := modWheel w (fun y => { y with lastStep := e.step, lastLayer := e.layer, spValid := true, rolledBack := false }) s
    let s := { s with ssq := { s.ssq with turns := s.ssq.turns.map fun t => if t.wheel = w then { t with spPassed := true } else t } }
    let x := { x with lastStep := e.step, lastLayer := e.layer }
    let s := if !s.flag (Reg.ssqWheelBeatEn w) then modWheel w Wheel.followSp s
      else if 1 < beatAhead n x ∨ beatAhead n x < 0 then beatResync w x s
      else s
    issueAhead w e.step e.layer s

/-- A trigger of a wheel is consumed (R51, R155, R156, R189). -/
def onTrigger (w : Nat) (payload : List Byte) (elapsedNs : Nat) (s : State) : State :=
  match s.wheel? w with
  | none => s
  | some x =>
    match s.model? x.part x.model with
    | none => s
    | some m =>
      match parseExch payload with
      | none => refuseExchange w x payload s
      | some e =>
        if e.tail = false ∧ e.part = 0 ∧ (e.step, e.layer) ≠ x.nextSp m.layers then
          let (st, l) := x.nextSp m.layers
          rollbackStep w (logEv .ssqShaftOrder pSsq x.part [w, e.step + e.layer * 2 ^ 32, st + l * 2 ^ 32] (s.bump Ctr.ssqShaftOrderErrors))
        else if !partOk x m.layers e then refuseExchange w x payload s
        else if e.tail then takePart w m e (if e.part = 0 then issueAhead w e.step m.layers s else s)
        else takePart w m e (if e.part = 0 then acceptShaft w e elapsedNs s else s)

/-- TRIGGER_CONSUME: the SSQ consumes the oldest trigger of a trigger region (11 R361, R362). `elapsedNs` is the time since the wheel's
last acceptance of a part 0 (08 R270). -/
def execTriggerConsume (region elapsedNs : Nat) (s : State) : Host.Outcome State Fault Refusal :=
  .next (live (fun s => match consumeTrigger region s with
    | (s, some (w, t)) => onTrigger w t.payload elapsedNs s
    | (s, none) => s) s)

end Sys2Proof.Machine
end

