-- ==== Sys2Proof/Machine/Attention.lean ====
section
/-!
DEFINITION. Machine/Attention.lean: the dealing of gangs (05 R166, R169), the delivery of pages through the expanders (04 R124-R126, 05
R168), and what the items compute: projection and append (05 R158, R159), attention (05 R161-R167, 03 R93, R109), logits and speculative
heads (06 R190-R192).
-/
set_option cleanup.letToHave false
namespace Sys2Proof

open Sys2Proof.Machine Fp

/-- Node values that came from the chain member before this one (05 R178). -/
def NodeVal.node (v : NodeVal) : ChainNode :=
  { record := v.record, head := v.head, level := v.level, idx := v.idx, val := ⟨of32 v.m, of32 v.l, v.a.map of32⟩ }

end Sys2Proof

namespace Sys2Proof.Machine

open Sys2Proof Fp

-- Dealing (R169)

/-- Records of a turn's query set, as (record, query head) (R163). -/
def querySet (x : Wheel) (m : Model) (p : LayerPart) (slot hg q : Nat) : List (Nat × Nat) :=
  ((groupQueries x m p slot hg).drop (q * m.qPass)).take m.qPass

/-- Turns of a gang's attention items, and their stretch. -/
def gangTurns (p : LayerPart) (g : Nat) : List (Nat × Nat) :=
  ((p.items.filter fun i => i.gang == g && !i.done).filterMap fun i => match i.kind with
    | .attend t _ st _ => some (t, st)
    | _ => none).eraseDups

/-- A gang's read stream: page slots ascending, each distinct handle once (R166). -/
def gangPages (s : State) (x : Wheel) (m : Model) (p : LayerPart) (g : Nat) : List Nat :=
  let l := ((gangTurns p g).map fun t => namedPages s x m p t.1 t.2).flatten
  let ks := (l.map (·.1)).eraseDups
  (((List.range 128).map fun i => ((ks.filter fun k => k % 128 == i).map fun k => (l.filter fun e => e.1 == k).map (·.2)).flatten).flatten).eraseDups

/-- Items of a gang that are still to run. -/
def gangItems (p : LayerPart) (g : Nat) : List Item := p.items.filter fun i => i.gang == g && !i.done

/-- The weights of a layer, and the adapters of its turns, are in T0. -/
def weightsReady (s : State) (w : Nat) (x : Wheel) (layer : Nat) : Bool :=
  let at_ := fun (f : Fetch) => f.wheel == w && f.step == x.rosterStep && f.layer == layer
  (weightResident s x.part || s.hrc.filled.any fun f => at_ f && f.kind == .weights) && !(s.hrc.fetches.any at_)

/-- The appends of a part and of the parts of its layer before it are written (R160). -/
def appended (x : Wheel) (p : LayerPart) : Bool :=
  (x.parts.filter fun q => !q.tail && q.layer == p.layer && decide (q.part ≤ p.part)).all fun q => q.items.all fun i => i.done || !i.isProject

/-- A gang may be dealt now, arrays permitting: its weights are in T0, or the appends that its records may read are written (R160) and its
pages are in T0 (a page in recovery or lost is met at the dealing). -/
def gangReady (s : State) (w : Nat) (x : Wheel) (m : Model) (p : LayerPart) (g : Nat) : Bool :=
  match (gangItems p g).head? with
  | none => false
  | some i =>
    match i.kind with
    | .project _ _ _ _ => weightsReady s w x p.layer
    | .attend _ _ _ _ => appended x p &&
        (gangPages s x m p g).all fun h => ((s.rec? h).map fun r => r.tier == 0 || r.recovery || r.lost).getD true
    | _ => true

/-- Arrays of a partition that run nothing, are not under test and wait for no test (14 R448). -/
def freeArrays (s : State) (n : Nat) : List Nat :=
  let busy := ((tvals s.ssq.wheels).map fun x => (x.parts.map fun p => p.items.filterMap fun i => if i.done then none else i.array).flatten).flatten
  (arraysOf s n).filter fun a => !busy.contains a && !underTest s ⟨pMxg + a / 20, 2, a⟩ && !s.frc.held.contains a

/-- The free arrays that an item may take: while its partition owns another, not the one that failed it (14 R448). -/
def arraysFor (s : State) (n : Nat) (failed : Option Nat) : List Nat :=
  match failed with
  | some a => if (arraysOf s n).any (· != a) then (freeArrays s n).filter (· != a) else freeArrays s n
  | none => freeArrays s n

/-- A gang of the deal list, with the arrays that are free for it. -/
structure DealRef where
  wheel : Nat
  stamp : Nat
  gang : Nat
  size : Nat
  passed : Nat
  arrays : List Nat
deriving DecidableEq, Repr

/-- Insert by order of acceptance. -/
def dealInsert (d : DealRef) : List DealRef → List DealRef
  | [] => [d]
  | e :: l => if d.stamp < e.stamp then d :: e :: l else e :: dealInsert d l

/-- The gangs of a partition that can be dealt, in deal order: parts in order of acceptance, gangs in the order formed. -/
def dealList (s : State) (n : Nat) : List DealRef :=
  ((s.ssq.wheels.map fun w =>
    match (if w.2.part = n then s.model? n w.2.model else none) with
    | none => []
    | some m => ((w.2.parts.filter fun p => !coreHeld s p).map fun p => (p.gangs.zipIdx.filterMap fun g =>
        if g.1.dealt || !gangReady s w.1 w.2 m p g.2 then none
        else some ({ wheel := w.1, stamp := p.stamp, gang := g.2, size := (gangItems p g.2).length, passed := g.1.passed,
                     arrays := arraysFor s n ((gangItems p g.2).findSome? (·.failedOn)) } : DealRef))).flatten).flatten).foldl
    (fun acc d => dealInsert d acc) []

/-- The gang to deal: the first that fits, but none past a gang passed over 16 times; with the gangs passed over. -/
def pickGang : List DealRef → Option (DealRef × List DealRef)
  | [] => none
  | d :: l => if d.size ≤ d.arrays.length then some (d, [])
      else if 16 ≤ d.passed then none
      else (pickGang l).map fun r => (r.1, d :: r.2)

/-- Change a part of a wheel. -/
def modPart (w stamp : Nat) (f : LayerPart → LayerPart) (s : State) : State :=
  modWheel w (fun x => { x with parts := x.parts.map fun p => if p.stamp = stamp then f p else p }) s

def modGang (g : Nat) (f : Gang → Gang) (p : LayerPart) : LayerPart := { p with gangs := p.gangs.zipIdx.map fun e => if e.2 = g then f e.1 else e.1 }

/-- Give arrays to the items of a gang, in order. -/
def giveArrays (g : Nat) : List Nat → List Item → List Item
  | a :: free, i :: l => if i.gang = g ∧ i.done = false then { i with array := some a } :: giveArrays g free l else i :: giveArrays g (a :: free) l
  | _, l => l

/-- Sessions of turn slots. -/
def sessionsOf (s : State) (slots : List Nat) : List Nat := (slots.filterMap (turnOfSlot s)).map (·.session)

/-- Turns of a gang that name a page. -/
def namersOf (s : State) (x : Wheel) (m : Model) (p : LayerPart) (g h : Nat) : List Nat :=
  (((gangTurns p g).filter fun t => (namedPages s x m p t.1 t.2).any fun e => e.2 == h).map (·.1)).eraseDups

-- Hoppers and stores (01 R21, R167, R168)

/-- bf16 bytes of the queries of an item, head by head. -/
def queryBytes (s : State) (x : Wheel) (m : Model) (p : LayerPart) (i : ItemKind) : List Byte :=
  match i with
  | .attend t hg _ q => ((querySet x m p t hg q).map fun rq => bf16Bytes (queryOf s x m p rq.1 rq.2)).flatten
  | _ => []

/-- What the arrays dealt to a gang's attention items hold at the start: the queries, and empty areas. -/
def loadArrays (x : Wheel) (m : Model) (p : LayerPart) (g : Nat) (s : State) : State :=
  (gangItems p g).foldl (fun s i => match i.array, i.kind with
    | some a, .attend _ _ _ _ => { s with mxg := tset s.mxg a { qPass := m.qPass, dv := m.dv, store := queryBytes s x m p i.kind } }
    | _, _ => s) s

/-- What the expander delivers of a page for one head group (04 R124): code bytes and head scales of its keys, and of its values; open bytes
for the elements of a class whose decoded form the spec does not write in bytes (log 69). In latent mode the one vector is both. -/
def pageVectors (r : PageRec) (hg : Nat) (s : State) : List Byte × List Byte × State :=
  let b := pageBytes s r
  let g := r.geom
  let half := fun (c : Nat) => ((List.range 32).map fun t => let v := g.vecIdx c hg t; slice b (g.dataOff 1 + v * g.dim) g.dim ++ slice b (192 + v) 1).flatten
  if fieldAt b 3 1 = 1 then (half 0, if g.latent then [] else half 1, s)
  else
    let (k, s) := s.freshBytes (32 * (g.dim + 1))
    if g.latent then (k, [], s)
    else let (v, s) := s.freshBytes (32 * (g.dim + 1)); (k, v, s)

/-- Credits of 4 KiB that a page takes in a member's stream area (R167). -/
def pageCredits (g : Geom) : Nat := cdiv ((if g.latent then 1 else 2) * 32 * (g.dim + 1)) 4096

/-- A read waits until every member that takes it holds free credits (R168): a member that lacks them drains its oldest data first, and
the stall is counted for as many cycles as it lasts. -/
def awaitCredits (g : Geom) (arrays : List Nat) (s : State) : State :=
  arrays.foldl (fun s a =>
    let h := tgetD s.mxg a {}
    let excess := h.stream.length + pageCredits g - 64
    if excess = 0 then s
    else
      let (n, s) := s.fresh
      { s with mxg := tset s.mxg a { h with stream := h.stream.drop excess } }.bumpBy (Ctr.mxgCreditStallCycles (a / 20)) n) s

/-- Put a page's data for a head group into a member's hopper: stream area, and outside latent mode value retention. -/
def intoHopper (a hg : Nat) (r : PageRec) (s : State) : State :=
  let (k, v, s) := pageVectors r hg s
  let h := tgetD s.mxg a {}
  { s with mxg := tset s.mxg a { h with stream := h.stream ++ cutUp 4096 (pageCredits r.geom) (k ++ v),
                                        values := if r.geom.latent then h.values else tset h.values (r.page % 128) v } }

/-- Members of a gang that take a page: their arrays and head groups. -/
def takers (p : LayerPart) (g : Nat) (turns : List Nat) : List (Nat × Nat) :=
  (gangItems p g).filterMap fun i => match i.array, i.kind with
    | some a, .attend t hg _ _ => if turns.contains t then some (a, hg) else none
    | _, _ => none

/-- fp32 bytes of a partial. -/
def partialBytes (v : Partial) : List Byte := leBytes 4 (to32 v.m) ++ leBytes 4 (to32 v.l) ++ (v.a.map fun a => leBytes 4 (to32 a)).flatten

/-- An item's array at its end: the stream drained, the scores of its key pass, the partials beside the queries (R167, R169). -/
def closeArray (a : Nat) (scores : List Nat) (parts : List PartialRec) (s : State) : State :=
  let h := tgetD s.mxg a {}
  { s with mxg := tset s.mxg a { h with stream := [], scores := scores, store := h.store ++ (parts.map fun q => partialBytes q.val).flatten } }

/-- Deal the next fitting gang of a partition (R169) and pin its pages (04 R133). A page that grants no pin ends the turns that name it
(04 R135, R142) in place of the dealing. In latent mode the stretch's pages are read twice (R167). -/
def gangDeal (n : Nat) (s : State) : State :=
  match pickGang (dealList s n) with
  | none => s
  | some (d, overfl) =>
    let s := overfl.foldl (fun s e => modPart e.wheel e.stamp (modGang e.gang fun g => { g with passed := g.passed + 1 }) s) s
    match s.wheel? d.wheel with
    | none => s
    | some x =>
      match x.parts.find? (·.stamp == d.stamp), s.model? x.part x.model with
      | some p, some m =>
        let pages := gangPages s x m p d.gang
        let new := pages.filter fun h => !x.pins.contains h
        match new.find? fun h => (addPin h s).isNone with
        | some h =>
          let st := if ((s.rec? h).map fun r => !r.recovery && !r.lost).getD false then Status.shareLimit else .pageCorrupt
          endTurns (sessionsOf s (namersOf s x m p d.gang h)) st s
        | none =>
          let s := new.foldl (fun s h => (addPin h s).getD s) s
          let s := modWheel d.wheel (fun x => { x with pins := x.pins ++ new }) s
          let s := modPart d.wheel d.stamp (fun p => { modGang d.gang (fun g => { g with dealt := true, toRead := if m.geom.latent then pages ++ pages else pages }) p with
            items := giveArrays d.gang d.arrays p.items }) s
          let s := loadArrays x m { p with items := giveArrays d.gang d.arrays p.items } d.gang s
          s.bump (Ctr.mxgGangsDealt ((d.arrays.head?.getD 0) / 20))
      | _, _ => s

def execGangDeal (part : Nat) (s : State) : Host.Outcome State Fault Refusal := .next (clocked (gangDeal part) s)

-- Delivery (R124-R126, R168)

/-- Note what the step in progress of some sessions uses (14 R465). -/
def noteUsed (sessions : List Nat) (used : List (Nat × Nat)) (s : State) : State :=
  sessions.foldl (fun s i => match tget s.ssq.sessions i with
    | none => s
    | some y => modCapsule y.handle (fun c => { c with noted := used.foldl (fun l u => if l.contains u then l else l ++ [u]) c.noted }) s) s

/-- The Sluice instance of the expander that decodes a slot (09 R289). -/
def expanderInst (s : State) (tier base : Nat) : Nat :=
  (if tier = 0 then 19 else if tier = 1 then 27 else if tier = 2 then 43 else 45) + (expanderOf s tier base).2.2.2

/-- Present a page, delivered, at its expander's instance for a requester, where urgent work of a partition preempts bulk; the next grant is
decided if none is in progress (09 R290, R294, R297). True: the grant is this page's, and it is given back as finished. -/
def takeExpander (i bytes requester : Nat) (k : Nat × Nat × Nat) (s : State) : State × Bool :=
  let s := sluPurge i s
  let v := s.slu? i
  let known := (v.current.map (·.req)).any (·.page == some k) || v.queues.any fun q => q.2.any (·.page == some k)
  let s := if known then s else sluQueue i requester [{ bytes := bytes, page := some k }] s
  let s := if (s.slu? i).current.isNone then sluDecide i s else sluPreempt i s
  if ((s.slu? i).current.map (·.req)).any (·.page == some k) then (s.setSlu i { s.slu? i with current := none }, true) else (s, false)

/-- The next page of a dealt gang's stream is checked and decoded into the members' hoppers, once they hold credits. A page that is in
recovery or lost by now is not read (04 R142). -/
def decodePage (w stamp g : Nat) (s : State) : State :=
  match s.wheel? w with
  | none => s
  | some x =>
    match x.parts.find? (·.stamp == stamp), s.model? x.part x.model with
    | some p, some m =>
      match (p.gangs[g]?).map (·.toRead) with
      | some (h :: rest) =>
        match s.rec? h with
        | none => modPart w stamp (modGang g fun k => { k with toRead := rest }) s
        | some r =>
          let turns := namersOf s x m p g h
          let die := (((gangItems p g).head?.bind (·.array)).getD 0) / 20
          let s := modPart w stamp (modGang g fun k => { k with toRead := rest }) s
          if r.recovery ∨ r.lost then endTurns (sessionsOf s turns) .pageCorrupt s else
          let mine := takers p g turns
          let s := awaitCredits r.geom (mine.map (·.1)) s
          let e := expanderOf s r.tier r.base
          let s := noteUsed (sessionsOf s turns) [(0, h), (4, e.1 * 16 + e.2.2.2)] s
          match expanderRead (metBy (sessionsOf s turns) w) h r r.tier r.base s with
          | (s, true) =>
            let s := mine.foldl (fun s t => intoHopper t.1 t.2 r s) s
            let s := if 1 < turns.length then s.bump (Ctr.mxgPageReadsShared die) else s
            if m.geom.latent && !rest.contains h then s.bump (Ctr.mxgLatentRereads die) else s
          | (s, false) => startRecovery h (endTurns (sessionsOf s turns) .pageCorrupt s)
      | _ => s
    | _, _ => s

/-- The unit of R453 that decodes at a place of a tier: an HBC's expander, a DDC channel's, a port's or a drive's. -/
def expanderUnit (s : State) (tier base : Nat) : Resource :=
  let e := expanderOf s tier base
  ⟨e.1, 4, if e.1 = pDdc then e.2.2.2 else 0⟩

/-- EXPANDER_DECODE: the expander of a gang's next page decodes it if the Sluice grants that page (09 R290); else the page waits, and so do
those behind it. While the expander is under test, its reads wait (14 R453). -/
def expanderDecode (w stamp g : Nat) (s : State) : State :=
  match (s.wheel? w).map fun x => (x.part, ((x.parts.find? (·.stamp == stamp)).bind fun p => p.gangs[g]?).bind (·.toRead.head?)) with
  | some (n, some h) =>
    match s.rec? h with
    | some r =>
      if underTest s (expanderUnit s r.tier r.base) then s
      else match takeExpander (expanderInst s r.tier r.base) (r.slot4k * 4096) n (w, stamp, g) s with
      | (s, true) => decodePage w stamp g s
      | (s, false) => s
    | none => decodePage w stamp g s
  | _ => s

def execExpanderDecode (wheel stamp gang : Nat) (s : State) : Host.Outcome State Fault Refusal := .next (clocked (expanderDecode wheel stamp gang) s)

-- Weights

/-- Bytes of an image: from its T0 copy where it has one, else from T1. -/
def imageBytes (s : State) (owner : AreaOwner) (part base off len : Nat) : List Byte :=
  match s.tmg.areas.find? fun a => a.part == part && a.owner == owner with
  | some a => slice a.bytes off len
  | none => s.directRead part 1 (base + off) len

/-- The elements of a weight row (05 R146). -/
def decodeRow (fmt n : Nat) (b : List Byte) : List Fp :=
  if fmt = 2 then (List.range n).map fun i => of16 (fieldAt b (2 * i) 2)
  else (List.range n).map fun i => scaled ((if fmt = 0 then ofE4m3 else ofE5m2) (fieldAt b i 1)) (fieldAt b (n + i / 32) 1)

/-- Matrix and bias of a layer, as a wheel reads them: from its slot of the weight window, else resident in T0 (08 R271, R272). -/
def layerImage (s : State) (w : Nat) (x : Wheel) (m : Model) (layer : Nat) : List Byte :=
  match s.hrc.filled.find? fun f => f.wheel == w && f.step == x.rosterStep && f.layer == layer && f.kind == .weights with
  | some f => f.data
  | none => imageBytes s (.resident m.id) m.part m.weightBase (((m.cfg[layer]?).map (·.wOff)).getD 0) m.matrixBytes ++
      imageBytes s (.resident m.id) m.part m.weightBase (((m.cfg[layer]?).map (·.biasOff)).getD 0) m.biasBytes

/-- A row of a layer's matrix, and its bias. -/
def layerRow (m : Model) (img : List Byte) (u : Nat) : List Fp :=
  let rb := rowBytes m.weightFmt m.hidden
  decodeRow m.weightFmt m.hidden (slice img (u * rb) rb)
def layerBias (m : Model) (img : List Byte) (u : Nat) : Fp := if m.bias then of32 (fieldAt img (m.matrixBytes + 4 * u) 4) else zero

/-- bf16 elements of an adapter image at an element offset. -/
def adapterElems (a : Adapter) (off n : Nat) : List Fp := (List.range n).map fun i => of16 (fieldAt a.image (2 * (off + i)) 2)

/-- rnd16 of the adapter-down results of a hidden state (03 R87, 05 R147). -/
def adapterDown (m : Model) (a : Adapter) (layer : Nat) (h : List Fp) : List Fp :=
  (List.range a.rank).map fun c => rnd16 (dotAll h (adapterElems a (layer * (a.rank * (m.hidden + m.rows)) + c * m.hidden) m.hidden))

/-- The adapter version bound to a session. -/
def adapterOf (s : State) (y : Session) : Option Adapter :=
  if y.adapter = 0 then none else s.ssq.adapters.find? fun a => a.part == y.part && a.id == y.adapter && a.ver == y.adapterVer

-- Projection and append (R158, R159, 03 R88, R89)

/-- The projected values of a head vector: keys rotated at the record's position. -/
def projectVec (s : State) (m : Model) (img : List Byte) (y : Session) (layer v pos : Nat) (h : List Fp) : List Fp :=
  let down := (adapterOf s y).map fun a => (a, adapterDown m a layer h)
  let vals := (List.range m.geom.dim).map fun i =>
    let u := v * m.geom.dim + i
    let up := match down with
      | some (a, d) => dotAll d (adapterElems a (layer * (a.rank * (m.hidden + m.rows)) + a.rank * m.hidden + u * a.rank) a.rank)
      | none => zero
    rnd32 (add (add (dotAll h (layerRow m img u)) up) (layerBias m img u))
  if m.geom.latent || decide (v < m.geom.heads) then rotate m.rotHalf m.rot pos vals else vals

/-- The page of a layer that receives an append, allocated or copied first where it must be (04 R118, R137, R139). -/
def appendPage (i : Nat) (m : Model) (layer k : Nat) (s : State) : AllocFail ⊕ (Nat × State) :=
  match tget s.ssq.sessions i with
  | none => .inl .noRecord
  | some y =>
    let put := fun (r : AllocFail ⊕ (Nat × State)) => match r with
      | .inl f => .inl f
      | .inr (h, s) => .inr (h, placeMap i (modSession i (fun y => { y with map := tset y.map (mapKey layer k) h }) s))
    match y.page layer k with
    | none => put (newTail y.part layer k (profileClass m.profile k) m.geom i s)
    | some h => if ((s.rec? h).map fun r => decide (1 < r.ref)).getD false then put (copyOnWrite h i s) else .inr (h, s)

/-- Write one head vector of a record at its provisional position (R159). A vector that is not finite is logged (03 R97). -/
def appendVec (w : Nat) (m : Model) (layer v : Nat) (e : RosterEntry) (vals : List Fp) (s : State) : State :=
  match (tget s.ssq.sessions e.session).bind fun y => y.page layer (e.prov / 32) with
  | none => s
  | some h =>
    let (eh, codes) := encFr1 vals
    let t := e.prov % 32
    let k := if m.geom.latent then t else v * 32 + t
    let s := if eh = 255 then logEv .mxgNonfinite pMxg m.part [e.session, layer, w, v] (s.bump (Ctr.mxgNonfiniteEvents 0)) else s
    let s := writePage h (m.geom.dataOff 1 + k * m.geom.dim) (codes.map (BitVec.ofNat 8)) (writePage h (192 + k) (leBytes 1 eh) s)
    writePage h (64 + 4 * t) (leBytes 4 e.token) s

/-- Pages for the appends of some records: done, or waiting for a slot; a turn that finds no record ends (04 R132). -/
def appendPages (m : Model) (layer : Nat) : List RosterEntry → State → State × Bool
  | [], s => (s, true)
  | e :: l, s =>
    match appendPage e.session m layer (e.prov / 32) s with
    | .inr (_, s) => appendPages m layer l s
    | .inl .noRecord => appendPages m layer l (endTurns [e.session] .noPageRecord s)
    | .inl .noSlot =>
      let s := logEv .tmgAllocWait pTmg m.part [e.session, 0] (s.bump Ctr.tmgAllocWaits)
      ((appendPages m layer l s).1, false)

/-- What a projection item leaves when it leaves its array; none while an append waits for a T0 slot (08 R259). -/
def projectDone (w : Nat) (x : Wheel) (m : Model) (p : LayerPart) (first count v0 vn : Nat) (s : State) : State × Bool :=
  let recs := ((List.range count).map (first + ·)).filter fun r => projects s x r
  let es := recs.filterMap fun r => x.entries[r]?
  match appendPages m p.layer es s with
  | (s, false) => (s, false)
  | (s, true) =>
    match s.wheel? w with
    | none => (s, true)
    | some x =>
      let live' := recs.filter fun r => projects s x r
      let pages := (live'.filterMap fun r => (x.entries[r]?).bind fun e => (tget s.ssq.sessions e.session).bind fun y => y.page p.layer (e.prov / 32)).eraseDups
      let s := pages.foldl (fun s h => pageChanged h s) s
      (live'.foldl (fun s r =>
        match x.entries[r]? with
        | none => s
        | some e =>
          match tget s.ssq.sessions e.session with
          | none => s
          | some y =>
            let h := hiddenOf s x m p r v0
            let img := layerImage s w x m p.layer
            ((List.range vn).map (v0 + ·)).foldl (fun s v => appendVec w m p.layer v e (projectVec s m img y p.layer v e.pos h) s) s) s, true)

-- Attention (R161, R163, R167, 03 R93, R109)

/-- A query narrowed to E4M3 with one scale per 32 elements (03 R109). -/
def narrowQuery (q : List Fp) : List Fp :=
  (cutUp 32 q.length q).map (fun c => let (eh, codes) := encFr1 c; codes.map (fr1Val eh)) |>.flatten

/-- A dot product with rounding after every 16 products of a group (03 R109). -/
def dot16 (terms : List (Option (Fp × Fp))) : Fp :=
  let group := fun (g : List (Option (Fp × Fp))) => (cutUp 16 g.length g).foldl (fun acc c => rnd32 (c.foldl (fun a t => match t with
    | some (u, v) => add a (mul u v)
    | none => a) acc)) zero
  (tree (fun a b => rnd32 (add a b)) ((groups64 (terms.length / 64 + 1) terms).map group)).getD zero

/-- The partial of a stretch at the relaxed rate. -/
def relaxedPartial (alpha : Fp) (dv : Nat) (pos : List (Option (Fp × List Fp))) : Partial :=
  let ts : List (Option (Fp × List Fp)) := pos.map fun o => o.map fun (u, v) => (rnd32 (mul u alpha), v)
  let present := ts.filterMap id
  if present.isEmpty then emptyPartial dv
  else if present.any (·.1.isNan) then ⟨.nan, .nan, List.replicate dv .nan⟩
  else
    let mx := present.foldl (fun m t => max2 m t.1) (.inf true)
    let ps : List (Option (Fp × List Fp)) := ts.map fun o => o.map fun (t, v) => (rnd16 (exp2 (rnd32 (sub t mx))), v)
    ⟨mx, dot16 (ps.map fun o => o.map fun (p, _) => (p, one)), (List.range dv).map fun k => dot16 (ps.map fun o => o.map fun (p, v) => (p, v.getD k zero))⟩

/-- The pages of a stretch that a turn's map names, as (page index, bytes, geometry). -/
def stretchPages (s : State) (y : Session) (layer stretch : Nat) : List (Nat × List Byte × Geom) :=
  ((List.range 128).map (128 * stretch + ·)).filterMap fun k => ((y.page layer k).bind s.rec?).map fun r => (k, pageBytes s r, r.geom)

/-- The dot product of one query with the key, and the value, at each position of a stretch that it attends (R161): `es` are the turn's
entries, `e` the query's record. -/
def queryDots (m : Model) (cfg : LayerCfg) (y : Session) (es : List RosterEntry) (e : RosterEntry) (hg stretch : Nat)
    (pages : List (Nat × List Byte × Geom)) (q : List Fp) (relaxed : Bool) : List (Option (Fp × List Fp)) :=
  let q := if relaxed then narrowQuery q else q
  (List.range 4096).map fun i =>
    let j := 4096 * stretch + i
    if decide (j < lastPos y.kvLen es) && admits cfg y.kvLen es e j then
      (pages.find? fun p => p.1 == j / 32).map fun p =>
        let key := headVec p.2.2 p.2.1 0 hg (j % 32)
        let val := if m.geom.latent then key.drop (m.geom.dim - m.latV) else headVec p.2.2 p.2.1 1 hg (j % 32)
        ((if relaxed then dot16 ((q.zip key).map some) else dotAll q key), val)
    else none

/-- The partial of one query over one stretch (03 R93, R109). -/
def dotsPartial (m : Model) (relaxed : Bool) (dots : List (Option (Fp × List Fp))) : Partial :=
  if relaxed then relaxedPartial (of32 m.alpha) m.dv dots else stretchPartial (of32 m.alpha) m.dv dots

/-- The fp32 scores of one query (03 R93), 0 at positions it does not attend. -/
def dotsScores (m : Model) (dots : List (Option (Fp × List Fp))) : List Nat :=
  dots.map fun o => (o.map fun d => to32 (rnd32 (mul d.1 (of32 m.alpha)))).getD 0

/-- The queries of an attention item, each with its dot products. An item over a page of a class other than FR1 that it reads runs at the
relaxed rate in a relaxed session (03 R109). -/
def itemDots (x : Wheel) (m : Model) (p : LayerPart) (slot hg stretch q : Nat) (s : State) : List (Nat × Nat × Bool × List (Option (Fp × List Fp))) :=
  match (x.entriesOf slot).head?.bind fun e => tget s.ssq.sessions e.session, m.cfg[p.layer]? with
  | some y, some cfg =>
    let pages := stretchPages s y p.layer stretch
    let read := (namedPages s x m p slot stretch).map (·.1)
    let relaxed := y.relaxed && pages.any fun k => read.contains k.1 && fieldAt k.2.1 3 1 != 1
    (querySet x m p slot hg q).filterMap fun rq => (x.entries[rq.1]?).map fun e =>
      (rq.1, rq.2, relaxed, queryDots m cfg y (x.entriesOf slot) e hg stretch pages (queryOf s x m p rq.1 rq.2) relaxed)
  | _, _ => []

/-- What an attention item leaves: the partials of its queries. -/
def attendDone (x : Wheel) (m : Model) (p : LayerPart) (slot hg stretch q : Nat) (s : State) : List PartialRec :=
  (itemDots x m p slot hg stretch q s).map fun (r, h, relaxed, dots) =>
    { record := r, head := h, stretch := stretch, relaxed := relaxed, val := dotsPartial m relaxed dots }

-- Logits and speculative heads (06 R190-R192)

/-- A row of the output projection, and of head k's matrices. -/
def tailRow (s : State) (t : Tail) (off rb n : Nat) : List Fp := decodeRow t.outFmt n (imageBytes s (.tailImage t.id) t.part t.weightBase off rb)
def outRow (s : State) (t : Tail) (tok : Nat) : List Fp := tailRow s t (tok * t.rowB) t.rowB t.hidden

/-- The logits of a hidden state (R190). -/
def logitsOf (s : State) (t : Tail) (h : List Fp) : List Fp := (List.range t.vocab).map fun k => dotAll h (outRow s t k)

/-- The draft tokens of head k, best first (R191): NaN ranks below −∞, ties go to the lower token. -/
def draftsOf (s : State) (t : Tail) (h : List Fp) (k : Nat) : List Nat :=
  let a := (List.range t.width).map fun i => rnd16 (silu (dotAll (tailRow s t (t.downOff k + i * t.rowB) t.rowB t.hidden) h))
  let y := (List.range t.hidden).map fun j => rnd16 (rnd32 (add (h.getD j zero) (dotAll (tailRow s t (t.upOff k + j * t.upRowB) t.upRowB t.width) a)))
  let l := t.draft.map fun tok => (tok, dotAll (outRow s t tok) y)
  let nums := rankAll (l.filter fun e => !e.2.isNan)
  let nans := rankAll ((l.filter fun e => e.2.isNan).map fun e => (e.1, zero))
  (nums ++ nans).map (·.1)

/-- The tail part that holds a tail record, and the record's final hidden state. -/
def tailHidden (s : State) (x : Wheel) (m : Model) (r : Nat) : List Fp :=
  match x.parts.find? fun p => p.tail && decide (p.first ≤ r) && decide (r < p.first + p.count) with
  | some p => hiddenOf s x m p r 0
  | none => []

/-- The token of template node `i` of a turn whose last committed token is `last` (R192). -/
def nodeToken (t : Tail) (drafts : List (List Nat)) (last i : Nat) : Nat :=
  if i = 0 then last else (drafts.getD (t.depths.getD i 0 - 1) []).getD ((t.tree.getD i (0, 0)).2) 0

/-- The RESULT record DRAFT (14 R471) of the first `n` template nodes. -/
def recordDraft (y : Session) (step : Nat) (t : Tail) (drafts : List (List Nat)) (n : Nat) (s : State) : State :=
  if (openCapsule s y.handle).isNone || !lastMember y then s
  else
    let b := ((List.range n).map fun i =>
      leBytes 1 i ++ leBytes 1 (if i = 0 then 0xFF else (t.tree.getD i (0, 0)).1) ++ leBytes 1 (t.depths.getD i 0) ++
        leBytes 4 (nodeToken t drafts (y.history.getLast?.getD 0) i)).flatten
    capRecord y.handle { type := 4, step := step, layer := 0xFFFF, payload := leBytes 1 4 ++ zeros 7 ++ hash32 b } s

/-- A turn's heads are done: its drafts for the next step. -/
def headsDone (x : Wheel) (m : Model) (slot : Nat) (s : State) : State :=
  match turnOfSlot s slot, s.tail? m.part m.tailId with
  | some t, some tb =>
    match tget s.ssq.sessions t.session with
    | none => s
    | some y =>
      let n := t.nextNodes
      let h := tailHidden s x m t.lastNode
      let drafts := (List.range (tb.headsUsed n)).map fun k => draftsOf s tb h (k + 1)
      recordDraft y (t.steps - 1) tb drafts n (modTurn t.session (fun t => { t with drafts := drafts }) s)
  | _, _ => s

-- ITEM_DONE

/-- Mark an item done: its array is free again. -/
def markDone (w stamp item : Nat) (s : State) : State :=
  modPart w stamp (fun p => { p with items := p.items.zipIdx.map fun e => if e.2 = item then { e.1 with done := true, array := none } else e.1 }) s

/-- Turn slots that an item works for. -/
def itemTurns (x : Wheel) (i : ItemKind) : List Nat :=
  match i with
  | .project f c _ _ => ((List.range c).filterMap fun k => (x.entries[f + k]?).map (·.slot)).eraseDups
  | .attend t _ _ _ => [t]
  | .logits f c => ((List.range c).filterMap fun k => (x.tailRecords[f + k]?).map (·.slot)).eraseDups
  | .heads t => [t]

/-- A dealt item leaves its array: what it computed, and what the part's last item leaves to do. -/
def runItem (w : Nat) (x : Wheel) (m : Model) (p : LayerPart) (idx : Nat) (i : Item) (s : State) : State :=
  match i.array with
  | none => s
  | some a =>
    if i.done || !(((p.gangs[i.gang]?).map (·.toRead.isEmpty)).getD true) then s
    else
      let die := a / 20
      let end_ := fun (s : State) =>
        let s := if i.failedOn.isSome then settleWhere (· == (w, p.stamp, idx)) true s else s
        finishTail w (settleParts w (noteUsed (sessionsOf s (itemTurns x i.kind)) [(2, a), (3, Config.tendingCore p.stamp % 64)]
          ((markDone w p.stamp idx s).bump (Ctr.mxgItemsRun die))))
      match i.kind with
      | .project f c v0 vn =>
        match projectDone w x m p f c v0 vn s with
        | (s, false) => s
        | (s, true) => end_ (s.bump (Ctr.mxgProjectionItemsRun die))
      | .attend t hg st q =>
        let done := attendDone x m p t hg st q s
        let scores := ((itemDots x m p t hg st q s).map fun d => dotsScores m d.2.2.2).flatten
        end_ (modPart w p.stamp (fun p => { p with partials := p.partials ++ done }) (closeArray a scores done s))
      | .logits f c =>
        match s.tail? m.part m.tailId with
        | none => s
        | some tb =>
          let recs := ((List.range c).map (f + ·)).filter fun r => ((x.tailRecords[r]?).map fun e => !x.resolved e.slot).getD false
          end_ ((modPart w p.stamp (fun p => { p with logits := p.logits ++ recs.map fun r => (r, logitsOf s tb (hiddenOf s x m p r 0)) }) s).bumpBy Ctr.mxgLogitRecords recs.length)
      | .heads t => end_ (headsDone x m t s)

/-- ITEM_DONE: an item of a part (named by its order of acceptance) leaves its array; with it, node values received meanwhile from a chain
member. -/
def itemDone (w stamp item : Nat) (nodes : List NodeVal) (s : State) : State :=
  let s := modPart w stamp (fun p => { p with nodes := p.nodes ++ nodes.map fun v => { v.node with after := p.partials.length } }) s
  match s.wheel? w with
  | none => s
  | some x =>
    match x.parts.find? (·.stamp == stamp), s.model? x.part x.model with
    | some p, some m =>
      match p.items[item]? with
      | some i => refillWindow w (runItem w x m p item i s)
      | none => finishTail w (settleParts w s)
    | _, _ => s

def execItemDone (wheel stamp item : Nat) (nodes : List NodeVal) (s : State) : Host.Outcome State Fault Refusal :=
  .next (clocked (itemDone wheel stamp item nodes) s)

end Sys2Proof.Machine
end

