-- ==== Sys2Proof/Machine/Steps.lean ====
section
/-!
DEFINITION. Machine/Steps.lean: the selection and the commit of a step (06 R194-R198, R202, 04 R119, R140, R141, 02 R49), and the step
boundary of a wheel with its roster (05 R151-R153, 06 R192, R193, 02 R64, R70, 08 R270, R271).
-/
set_option cleanup.letToHave false
namespace Sys2Proof.Machine

open Sys2Proof Fp

-- Selection (06 R194-R196, R202)

/-- The token chosen at a node: `hist` and `path` are the tokens up to its position, `draw` the committed DRAW_COUNT. -/
def selectAt (b seed : List Byte) (turn draw : Nat) (hist path : List Nat) (e : RosterEntry) (z : List Fp) : Option Nat :=
  let f := fun o => of32 (fieldAt b o 4)
  let ctx := hist ++ path
  let win := ctx.drop (ctx.length - fieldAt b 0x18 4)
  chooseToken (f 0x0C) (f 0x14) (fieldAt b 0x10 4) (variate seed turn (e.pos + 1) (draw + e.depth))
    (z.zipIdx.map fun v => penalise (f 0) (f 4) (f 8) (win.count v.2) v.1)

/-- END_REASON after a token (R202), 0 if the walk goes on: `done` tokens of the turn are committed with it, the history is `len` long. -/
def endReason (eos : Nat) (b : List Byte) (done len tok : Nat) : Nat :=
  if tok = eos then 2
  else if (tpStops b).contains tok then 1
  else if tpMaxNew b ≤ done then 3
  else if 2097152 ≤ len then 4
  else 0

/-- What a walk keeps: nodes, tokens, END_REASON. -/
structure Walk where
  kept : List RosterEntry := []
  toks : List Nat := []
  reason : Nat := 0
deriving DecidableEq, Repr

/-- The verification walk from a node (R194); none where a selection chooses no token (03 R108). The first argument bounds the path. -/
def walkTree (select : List Nat → RosterEntry → Option Nat) (ends : Nat → Nat → Nat) (es : List RosterEntry) : Nat → List Nat → RosterEntry → Walk → Option Walk
  | 0, _, _, w => some w
  | n + 1, path, e, w =>
    match select path e with
    | none => none
    | some tok =>
      let w : Walk := { kept := w.kept ++ [e], toks := w.toks ++ [tok], reason := ends tok (w.toks.length + 1) }
      if w.reason ≠ 0 then some w
      else
        match es.find? fun f => e.kind == 0 && f.kind == 0 && f.parent == e.cand && f.depth == e.depth + 1 && f.token == tok with
        | some f => walkTree select ends es n (path ++ [tok]) f w
        | none => some w

/-- The logits of a tail record. -/
def logitsAt (x : Wheel) (rec' : Nat) : Option (List Fp) :=
  (x.parts.filter (·.tail)).findSome? fun p => (p.logits.find? (·.1 == rec')).map (·.2)

/-- The tail records of a turn, each with its index. -/
def turnTail (x : Wheel) (slot : Nat) : List (RosterEntry × Nat) := x.tailRecords.zipIdx.filter fun e => e.1.slot == slot

/-- The walk of a turn's step. -/
def turnWalk (x : Wheel) (t : Turn) (y : Session) (tb : Tail) : Option Walk :=
  match turnTail x t.slot with
  | [] => none
  | (e, _) :: _ =>
    let at_ := fun (f : RosterEntry) => (((turnTail x t.slot).find? (·.1 == f)).bind fun r => logitsAt x r.2).getD []
    walkTree (fun path f => selectAt t.params y.seed y.turn y.drawCount y.history path f (at_ f))
      (fun tok k => endReason tb.eos t.params (t.committed + k) (y.history.length + k) tok) (x.entriesOf t.slot) 33 [] e {}

-- The page effects of a commit (04 R119, R140)

/-- Copy a position's codes, scales and shadow entry from one page to another (R140). -/
def copyPosition (h t h' t' : Nat) (s : State) : State :=
  match s.rec? h with
  | none => s
  | some r =>
    let g := r.geom
    let b := pageBytes s r
    let vecs := if g.latent then [(0, 0)] else ((List.range 2).map fun c => (List.range g.heads).map fun y => (c, y)).flatten
    let s := writePage h' (64 + 4 * t') (slice b (64 + 4 * t) 4) s
    vecs.foldl (fun s cy =>
      let v := g.vecIdx cy.1 cy.2 t
      let v' := g.vecIdx cy.1 cy.2 t'
      writePage h' (192 + v') (slice b (192 + v) 1) (writePage h' (g.dataOff 1 + v' * g.dim) (slice b (g.dataOff 1 + v * g.dim) g.dim) s)) s

/-- Bring the accepted candidates to their final positions. -/
def settlePositions (y : Session) (layers : Nat) (kept : List RosterEntry) (s : State) : State :=
  (kept.zipIdx.filter fun e => e.1.kind == 0 && e.1.prov != y.kvLen + e.2).foldl (fun s e =>
    (List.range layers).foldl (fun s l =>
      match y.page l (e.1.prov / 32), y.page l ((y.kvLen + e.2) / 32) with
      | some h, some h' => copyPosition h (e.1.prov % 32) h' ((y.kvLen + e.2) % 32) s
      | _, _ => s) s) s

/-- A page that a commit seals: its handle, what sealing makes of it, and its new slot if it takes one. -/
structure SealPlan where
  handle : Nat
  sealed : Sealed
  base : Option Nat

/-- Seal a page into a slot of T0 that R119 reserves, or in place; none where no slot can be had. The reservations stand in the state as
moves of their own while the plan is made. -/
def planSeal (i h chain : Nat) (s : State) : Option (SealPlan × State) :=
  match s.rec? h with
  | none => none
  | some r =>
    let sealed := sealPage r.geom (pageBytes s r) r.layer r.page r.cls chain
    if sealed.cls = 1 then some ({ handle := h, sealed := sealed, base := none }, s)
    else
      (allocSlot s r.part 0 (r.geom.slot4k sealed.cls) ((r.layer + r.page + i) % 8)).map fun b =>
        ({ handle := h, sealed := sealed, base := some b },
         s.setTmg { s.tmg with moves := s.tmg.moves ++ [({ handle := h, tier := 0, base := b, slot4k := r.geom.slot4k sealed.cls, why := .fetch } : Move)] })

/-- Plans for a list of (handle, chain hash); none where one fails. -/
def planSeals (i : Nat) : List (Nat × Nat) → State → Option (List SealPlan)
  | [], _ => some []
  | e :: l, s =>
    match planSeal i e.1 e.2 s with
    | none => none
    | some (p, s) => (planSeals i l s).map (p :: ·)

/-- Carry out a plan: the record takes the new slot and the FR1 slot is released, or the page is sealed in place. -/
def runSeal (p : SealPlan) (s : State) : State :=
  match s.rec? p.handle with
  | none => s
  | some r =>
    let s := (s.bump Ctr.tmgPagesSealed).bumpBy Ctr.tmgBlocksEscaped p.sealed.escapes
    let s := if p.sealed.forced then s.bump Ctr.tmgPagesForcedFr1 else s
    let s := match p.base with
      | some b =>
        let s := writeSlot 0 b p.sealed.bytes (releaseSlot r.tier r.base r.slot4k s)
        retryRecovery r.part (putRec p.handle { r with base := b, tier := 0, slot4k := r.geom.slot4k p.sealed.cls, sealed := true } s)
      | none => putRec p.handle { r with sealed := true, forced := p.sealed.forced } (writePage p.handle 0 p.sealed.bytes s)
    newGen p.handle (pageChanged p.handle s)

/-- Set FILL of a tail page (R140). -/
def setFill (h n : Nat) (s : State) : State :=
  match s.rec? h with
  | none => s
  | some r => newGen h (pageChanged h (writePage h 0 (hdrBytes (freshHdr r.geom r.layer r.page n)) s))

/-- Handles of a page index in every layer. -/
def indexPages (y : Session) (layers k : Nat) : List Nat := (List.range layers).filterMap fun l => y.page l k

/-- The page effects of a commit that raises KV_LEN to `kv`; none while a seal has no T0 slot (R119). R130 gives no order in which the pages
of one commit take their generations: by page index, then by layer, appends before seals (DESIGN CHOICE, log 72). -/
def commitPages (i : Nat) (y : Session) (layers kv : Nat) (kept : List RosterEntry) (toks : List Nat) (s : State) : Option State :=
  let s := settlePositions y layers kept s
  let full := (List.range (kv / 32 - y.kvLen / 32)).map (y.kvLen / 32 + ·)
  let hashes := hashesOf s y.part y.ident ((y.history ++ toks).take (32 * (kv / 32)))
  let seals := (full.map fun k => (indexPages y layers k).map fun h => (h, ((hashes[k]?).map (·.1)).getD 0)).flatten
  (planSeals i seals s).map fun plans =>
    let s := ((List.range (cdiv kv 32 - y.kvLen / 32)).map (y.kvLen / 32 + ·)).foldl (fun s k =>
      (indexPages y layers k).foldl (fun s h => setFill h (min 32 (kv - 32 * k)) s) s) s
    plans.foldl (fun s p => runSeal p s) s

/-- The RESULT records SEAL of a commit (14 R471). -/
def recordSeals (e : RosterEntry) (y : Session) (layers kv : Nat) (s : State) : State :=
  let full := (List.range (kv / 32 - y.kvLen / 32)).map (y.kvLen / 32 + ·)
  if full.isEmpty then s
  else (List.range layers).foldl (fun s l =>
    recordResult e l 3 (full.map fun k => match (y.page l k).bind s.rec? with
      | some r => let b := pageBytes s r; b.take (r.geom.pageEnd (fieldAt b 3 1))
      | none => []).flatten s) s

-- STEP_COMMIT (02 R49, R59, R60)

/-- Staging is full of capsules that can still be written out: commits of recorded sessions wait (14 R468, R469). -/
def recorderStalls (s : State) (y : Session) : Bool :=
  (openCapsule s y.handle).isSome && s.flag Reg.frcCapsuleStatArea && decide (stagingSize s ≤ stagingBytes s) && s.frc.staging.any (·.sealed)

/-- What a turn's commit waits for: its last layer's items, and where its token tail is this device's (R177) its tail records' logits and
its overflow of penalty counts (06 R200). -/
def tailReady (s : State) (x : Wheel) (t : Turn) : Bool :=
  if ((tget s.ssq.sessions t.session).map lastMember).getD true = false then layersOver s x
  else x.tailDone && (turnTail x t.slot).all (fun r => (logitsAt x r.2).isSome) && (x.parts.filter fun p => !p.tail).all (·.written) &&
    !(s.hrc.fetches.any fun f => f.kind == .overflow t.session)

/-- The heads of a turn that goes on become an item of the tail part that holds its last node (06 R192). -/
def addHeads (w slot last : Nat) (s : State) : State :=
  modWheel w (fun x => { x with parts := x.parts.map fun p =>
    if p.tail ∧ p.first ≤ last ∧ last < p.first + p.count then
      { p with items := p.items ++ [({ kind := .heads slot, gang := p.gangs.length } : Item)], gangs := p.gangs ++ [{}] } else p }) s

/-- What a turn does after its step has committed: end, by an end condition or a drain, or go on with new drafts. -/
def afterCommit (i w last reason : Nat) (late : Bool) (t : Turn) (tb : Tail) (s : State) : State :=
  if reason ≠ 0 then
    let s := if reason ≤ 2 then s.bump Ctr.mxgTurnsEndedEosOrStop else if reason = 3 then s.bump Ctr.mxgTurnsEndedMaxNew else s
    weirEvaluate t.part (endTurn i .ok reason late (if late then s.bump Ctr.ssqLateCancels else s))
  else if t.drain then endTurns [i] .partitionDrain s
  else
    match turnOf s i, tget s.ssq.sessions i with
    | some t, some y => if tb.headsUsed t.nextNodes = 0 then finishTail w (recordDraft y (t.steps - 1) tb [] 1 s) else addHeads w t.slot last s
    | _, _ => s

/-- Commit the walk of a turn. -/
def commitWalk (i : Nat) (late : Bool) (t : Turn) (x : Wheel) (m : Model) (tb : Tail) (y : Session) (e : RosterEntry) (k : Walk) (s : State) : State :=
  let kv := if e.kind = 1 then y.history.length else y.kvLen + k.toks.length
  match commitPages i y m.layers kv k.kept k.toks s with
  | none =>
    if t.commitWaits then s
    else logEv .tmgAllocWait pTmg y.part [i, 0] ((modTurn i (fun t => { t with commitWaits := true }) s).bump Ctr.tmgAllocWaits)
  | some s =>
    let last := (((turnTail x t.slot).find? fun r => some r.1 == k.kept.getLast?).map (·.2)).getD 0
    let s := rejectFrom i m.layers kv (lastPos y.kvLen (x.entriesOf t.slot)) s
    let s := recordResult e 0xFFFF 5 ((k.kept.zip k.toks).map fun p => leBytes 4 p.2 ++ leBytes 8 (y.drawCount + p.1.depth)).flatten (recordSeals e y m.layers kv s)
    let s := commitEvent i .committed .ok s
    let s := modSession i (fun y => { y with history := y.history ++ k.toks, kvLen := kv, drawCount := y.drawCount + k.toks.length, prefillRequired := false }) s
    let s := modCapsule y.handle (fun c => { c with used := c.used ++ c.noted.filter fun u => !c.used.contains u, noted := [] }) (countHistory i s)
    let s := match tget s.ssq.sessions i with
      | some z => recordResult e 0xFFFF 6 ((descBytes z).take 256) s
      | none => s
    let r : TailEntry := { slot := t.slot, session := i, status := .ok, ended := false, firstPos := y.history.length, toks := k.toks, step := t.steps }
    let s := modWheel t.wheel (fun x => { x with results := x.results ++ [r] }) s
    let s := modTurn i (fun t => { t with committed := t.committed + k.toks.length, steps := t.steps + 1, prevKv := y.kvLen, spPassed := false, drafts := [],
                                          commitWaits := false, lastNode := last, nextNodes := min (tpNodes y.tailParams) tb.tree.length }) s
    let s := (s.bumpBy Ctr.mxgSelections k.toks.length).bumpBy Ctr.mxgCandidatesAccepted (k.kept.filter fun e => decide (1 ≤ e.depth)).length
    let publish := s.getF (Reg.pmePbPolicyPublish y.part)
    let s := if y.kvLen / 32 < kv / 32 ∧ !y.relaxed ∧ (publish = 2 ∨ (publish = 1 ∧ e.kind = 1)) then
        modPme (fun p => { p with toPublish := p.toPublish ++ [(y.handle, kv / 32 - 1)] }) s else s
    afterCommit i t.wheel last k.reason late t tb s

/-- A step commits for a turn. `late` says that a cancel reached the commit point with it and was sequenced after (R60). A member of a
chain that is not the last commits nothing (05 R177). -/
def stepCommit (i : Nat) (late : Bool) (s : State) : State :=
  match turnOf s i, tget s.ssq.sessions i with
  | some t, some y =>
    match s.wheel? t.wheel with
    | none => s
    | some x =>
      match (x.entriesOf t.slot).head?, s.model? x.part x.model with
      | some e, some m =>
        match s.tail? x.part m.tailId with
        | none => s
        | some tb =>
          if t.state ≠ .running ∨ x.blockWritten ∨ x.resolved t.slot ∨ !tailReady s x t then s
          else if !lastMember y then
            let r : TailEntry := { slot := t.slot, session := i, status := .ok, ended := false, firstPos := y.history.length, step := t.steps }
            let s := modTurn i (fun t => { t with steps := t.steps + 1 }) (modWheel t.wheel (fun x => { x with results := x.results ++ [r] }) s)
            if t.drain then endTurns [i] .partitionDrain s else finishTail t.wheel s
          else if recorderStalls s y then s.bump Ctr.frcRecorderWaits
          else
            match turnWalk x t y tb with
            | none => endTurns [i] .nonfinite s
            | some k => commitWalk i late t x m tb y e k s
      | _, _ => s
  | _, _ => s

def execStepCommit (session : Nat) (late : Bool) (s : State) : Host.Outcome State Fault Refusal := .next (live (stepCommit session late) s)

/-- COMMIT_RESERVE_TIMEOUT: a commit that still waits for a T0 slot at HRC.LATE (04 R119). -/
def commitTimeout (i : Nat) (s : State) : State :=
  match turnOf s i with
  | some t => if t.commitWaits then endTurns [i] .tierLate s else s
  | none => s

def execCommitReserveTimeout (session : Nat) (s : State) : Host.Outcome State Fault Refusal := .next (live (commitTimeout session) s)

/-- CHAIN_TIMEOUT: node values of a chain member that an accepted part waits for are late: the turns of the wheel that are sharded on that
chain end (05 R179). R179 counts from part 0 and does not say which node values must have come by then: those of records whose part has not
been accepted do not count as missing. Nor does it say when two chains are one: when their member lists and the own position are equal (DESIGN
CHOICE, log 68). -/
def chainTimeout (w member : Nat) (s : State) : State :=
  match s.wheel? w with
  | none => s
  | some x =>
    let chainOf := fun (t : Turn) => (tget s.ssq.sessions t.session).bind (·.chain)
    let waits := fun (t : Turn) => x.parts.any fun p => !p.tail && !p.written && (partRecords x p t.slot).any fun r => recordAwaits s x p r
    let chains := ((runningOn s w).filter waits).filterMap fun t => (chainOf t).filter fun c => member + 1 == c.own
    let late := (runningOn s w).filter fun t => (chainOf t).any fun c => chains.any fun d => d.members == c.members && d.own == c.own
    if late.isEmpty then s
    else endTurns (late.map (·.session)) .chainPeer (logEv .mxgChainTimeout pMxg x.part [w, member] (s.bump (Ctr.mxgChainTimeouts 0)))

def execChainTimeout (wheel member : Nat) (s : State) : Host.Outcome State Fault Refusal := .next (live (chainTimeout wheel member) s)

-- The step boundary (08 R270, R271)

/-- Apply an expert write of the lead if T0 still holds the windows (R53, R271). -/
def applyLead (w : Nat) (s : State) : State :=
  match s.wheel? w with
  | none => s
  | some x =>
    match x.pendingLead, s.model? x.part x.model with
    | some l, some m =>
      let s := modWheel w (fun x => { x with pendingLead := none }) s
      let units := if weightResident s x.part then 0 else windowUnits s m l
      let owner := AreaOwner.window w
      let t := s.setTmg { s.tmg with areas := s.tmg.areas.filter (·.owner != owner) }
      if t0Fits t m (areaUnits t x.part + units) then
        let t := if units = 0 then t else t.setTmg { t.tmg with areas := t.tmg.areas ++ [{ owner := owner, part := x.part, units := units }] }
        modWheel w (fun x => { x with lead := l }) t
      else logEv .hrcLeadShort pHrc x.part [w, l] (s.bump Ctr.hrcLeadShortEvents)
    | _, _ => s

/-- The planning rates of T1, T2 and T3 in bytes per nanosecond (08 R248), and the latencies in nanoseconds. -/
def planRate (k : Nat) : Nat := if k = 1 then 1070 else if k = 2 then 230 else 200
def planLatency (s : State) (k : Nat) : Nat :=
  if k = 1 then s.getF Reg.hrcLatencyT1Ns else 1000 * (if k = 2 then s.getF Reg.hrcLatencyT2Us else s.getF Reg.hrcLatencyT3Us)

/-- LEAD_NEED of a wheel (R270), from bytes per tier; 0 before two layers have been accepted. -/
def leadNeed (s : State) (m : LeadMeas) (bytes : List Nat) : Nat :=
  if m.layerNs = 0 then 0
  else (bytes.zipIdx.map fun b => if b.1 = 0 then 0 else min 16 (cdiv (planLatency s (b.2 + 1) * planRate (b.2 + 1) + b.1) (planRate (b.2 + 1) * m.layerNs))).foldl max 0

/-- The bytes of the largest shaft-due set of a step from each tier (R270). -/
def LeadMeas.largest (m : LeadMeas) (step : Nat) : List Nat :=
  (m.bytes.filter fun e => e.1 / 2 ^ 16 == step).foldl (fun a e => (a.zip e.2).map fun p => max p.1 p.2) [0, 0, 0]

/-- The end of a step for its wheel: the measurement of R270, the lead, the steps that queued turns have waited (02 R65), the step's own
state cleared. -/
def closeStep (w : Nat) (s : State) : State :=
  match s.wheel? w with
  | none => s
  | some x =>
    let lm := tgetD s.hrc.lead w {}
    let b := lm.largest x.rosterStep
    let s := if x.lead < leadNeed s lm b then logEv .hrcLeadShort pHrc x.part [w, leadNeed s lm b] (s.bump Ctr.hrcLeadShortEvents) else s
    let s := s.setHrc { s.hrc with lead := tset s.hrc.lead w { lm with last := b, bytes := lm.bytes.filter fun e => e.1 / 2 ^ 16 != x.rosterStep } }
    let s := { s with ssq := { s.ssq with turns := s.ssq.turns.map fun t => if t.state = .queued ∧ t.wheel = w then { t with heldSteps := t.heldSteps + 1 } else t } }
    let s := modWheel w (fun x => { x with roster := none, rolledBack := false, parts := [], nextPart := 0, nextRec := 0, layerDone := true, tailDone := false,
                                           tailBegun := false, blockWritten := false, results := [] }) s
    applyLead w (settleGone w s)

-- The roster (05 R151-R153, 06 R192, R193, R198)

/-- The template nodes of a decode step, up to the first that R153 or R193 leaves out. -/
def rosterNodes (tb : Tail) (t : Turn) (i : Nat) (y : Session) (g : Nat) : List RosterEntry :=
  let n := max 1 (min t.nextNodes (if t.drafts.isEmpty then 1 else tb.tree.length))
  ((List.range n).map fun c =>
    let d := tb.depths.getD c 0
    ({ slot := t.slot, kind := 0, cand := c, parent := if c = 0 then 0xFF else (tb.tree.getD c (0, 0)).1, depth := d, pos := y.kvLen + d,
       prov := y.kvLen + c, token := nodeToken tb t.drafts (y.history.getLast?.getD 0) c, session := i } : RosterEntry)).takeWhile fun e =>
    decide (e.prov ≤ 2097151) && decide (e.depth + t.committed < g)

/-- The entries of a prefill step. -/
def rosterPrefill (t : Turn) (i : Nat) (y : Session) : List RosterEntry :=
  (List.range (y.history.length - y.kvLen)).map fun k =>
    { slot := t.slot, kind := 1, cand := 0, parent := 0xFF, depth := 0, pos := y.kvLen + k, prov := y.kvLen + k,
      token := y.history.getD (y.kvLen + k) 0, session := i }

/-- The entries of a turn in the next roster. -/
def rosterOf (s : State) (x : Wheel) (t : Turn) : List RosterEntry :=
  match tget s.ssq.sessions t.session, (s.model? x.part x.model).bind fun m => s.tail? x.part m.tailId with
  | some y, some tb => if y.kvLen + 1 < y.history.length then rosterPrefill t t.session y else rosterNodes tb t t.session y (tpMaxNew y.tailParams)
  | _, _ => []

/-- A turn without an entry ends at the roster (R153, R193). -/
def endAtRoster (t : Turn) (s : State) : State :=
  let g := ((tget s.ssq.sessions t.session).map fun y => tpMaxNew y.tailParams).getD 0
  let s := if g ≤ t.committed then endTurn t.session .ok 3 false (commitEvent t.session .ended .ok (s.bump Ctr.mxgTurnsEndedMaxNew))
    else endTurn t.session .seqLimit 0 false (commitEvent t.session .ended .seqLimit s)
  weirEvaluate t.part s

/-- A roster's bytes (R151). -/
def rosterBytes (step seq : Nat) (es : List RosterEntry) : List Byte :=
  let turns := ((es.map (·.slot)).eraseDups).length
  leBytes 4 step ++ leBytes 4 es.length ++ leBytes 4 seq ++ leBytes 2 turns ++ zeros 50 ++
    (es.map fun e => leBytes 2 e.slot ++ leBytes 1 e.kind ++ leBytes 1 e.cand ++ leBytes 1 e.parent ++ leBytes 1 e.depth ++ leBytes 2 0 ++
      leBytes 8 e.pos ++ leBytes 8 e.prov ++ leBytes 4 e.token ++ leBytes 4 e.session).flatten

/-- Insert by turn slot. -/
def slotOrder (t : Turn) : List Turn → List Turn
  | [] => [t]
  | u :: l => if t.slot < u.slot then t :: u :: l else u :: slotOrder t l

/-- Turns that join: REVIVING ones with enough layers in T0 (02 R70). -/
def joinTurns (w : Nat) (s : State) : State :=
  { s with ssq := { s.ssq with turns := s.ssq.turns.map fun t =>
    if t.wheel = w ∧ t.state = .reviving ∧ t.hold ≤ (((tget s.ssq.sessions t.session).map fun y => residentLayers s y (layersOf s y)).getD 0) then
      { t with state := .running } else t } }

/-- The chain that CHAIN_EXTEND configured, as a member takes it at the step boundary (05 R177): the span of the member that was the last ends
at the last stretch that holds a position of the sequence, and the added member's begins behind it, on both of them alike (log 68). -/
def Session.extended (y : Session) (c : Chain) : Chain :=
  if y.history.isEmpty then c
  else { c with members := c.members.zipIdx.map fun e =>
           if e.2 + 1 = c.members.length then (e.1.1, max ((c.span (e.2 - 1)).1 + 1) ((y.history.length - 1) / 4096 + 1)) else e.1 }

/-- A chain that CHAIN_EXTEND has extended governs from the next step boundary on (05 R177). -/
def joinChains (w : Nat) (s : State) : State :=
  (runningOn s w).foldl (fun s t =>
    match (tget s.ssq.sessions t.session).bind fun y => y.chainNext.map fun c => (y, { y with chain := some (y.extended c), chainNext := none }) with
    | some (y, z) => if lastMember z then putSession t.session z s else dropCapsule y.handle (putSession t.session z s)
    | none => s) s

/-- Form and write the roster of step c + 1. -/
def writeRoster (w : Nat) (s : State) : State :=
  match s.wheel? w with
  | none => s
  | some x =>
    let turns := (runningOn s w).foldl (fun l t => slotOrder t l) []
    let none' := turns.filter fun t => (rosterOf s x t).isEmpty
    let s := none'.foldl (fun s t => endAtRoster t s) s
    let es := ((turns.filter fun t => !(rosterOf s x t).isEmpty && (turnOf s t.session).isSome).map (rosterOf s x)).flatten
    if es.isEmpty then s
    else
      let step := (x.committed + 1) % 2 ^ 32
      let seq := (x.rosterSeq + 1) % 2 ^ 32
      let begin_ := fun (t : Turn) =>
        if t.state = .running && es.any fun e => e.slot == t.slot then { t with params := ((tget s.ssq.sessions t.session).map (·.tailParams)).getD [] } else t
      let s := { s with ssq := { s.ssq with turns := s.ssq.turns.map begin_ } }
      let s := s.bumpBy Ctr.mxgCandidatesOffered (es.filter fun e => decide (1 ≤ e.depth)).length
      let s := modWheel w (fun x => { x with roster := some es, rosterStep := step, rosterSeq := seq, rosterCount := x.rosterCount + 1, blockWritten := false, rolledBack := false,
                                             results := [] }) s
      wheelWrite x.part x.node x.outletKey x.rosterAddr x.rosterCtr 1 (rosterBytes step seq es) s

/-- ROSTER_WRITE: the boundary of a wheel's step, once its tail block is confirmed, and the next roster; on a wheel without a step in
progress, the roster of the turns that have become ready (R152). -/
def rosterWrite (w : Nat) (s : State) : State :=
  match s.wheel? w with
  | none => s
  | some x =>
    if x.flushing ∨ (x.roster.isSome ∧ !x.blockWritten) then s
    else
      let s := if x.roster.isSome then weirEvaluate x.part (closeStep w s) else s
      writeRoster w (joinChains w (joinTurns w s))

def execRosterWrite (wheel : Nat) (s : State) : Host.Outcome State Fault Refusal := .next (live (rosterWrite wheel) s)

/-- REVIVE_LAYER_RESIDENT: the layer that a revive stream fetched is in T0, and the stream goes on (02 R69, R70, 08 R274). On a wheel
without a RUNNING turn the join test is made at once (05 R152). -/
def reviveLayer (i : Nat) (s : State) : State :=
  match turnOf s i with
  | none => s
  | some t =>
    let resident := ((tget s.ssq.sessions i).map fun y => residentLayers s y (layersOf s y)).getD 0
    if t.state ≠ .reviving ∧ t.state ≠ .running ∨ resident ≤ t.resident then s
    else
      let s := reviveStart (s.hrc.revive.length + 1) t.part t.reviveTier (modTurn i (fun t => { t with resident := resident }) s)
      if (runningOn s t.wheel).isEmpty then rosterWrite t.wheel s else s

def execReviveLayerResident (session : Nat) (s : State) : Host.Outcome State Fault Refusal := .next (live (reviveLayer session) s)

end Sys2Proof.Machine
end

