-- ==== Sys2Proof/Machine/Tiers.lean ====
section
/-!
DEFINITION. Machine/Tiers.lean: transfers that end, are late or fail (08 R261, R271, R279-R282), relief, clean-ahead copies and heat (08 R257,
R263, R266, R267, R286), trays and drives (08 R283-R288, 14 R459), and the directory's expert operations (04 R143).
-/
set_option cleanup.letToHave false
namespace Sys2Proof.Machine

open Sys2Proof

-- Trays and drives

/-- The capsule area leaves service when a member of its set does (14 R467). -/
def dropMember (drive : Nat) (s : State) : State :=
  if (tget s.frc.labels drive).isSome && s.flag Reg.frcCapsuleStatArea then logEv .frcAreaLost pFrc 0xFF [drive] (s.setF Reg.frcCapsuleStatArea 0) else s

/-- Take a drive out of service (R288). -/
def driveOut (drive : Nat) (s : State) : State :=
  if !s.flag (Reg.nvcDriveReady drive) then s
  else
    let s := (s.setF (Reg.nvcDriveReady drive) 0).setF (Reg.nvcDriveFailed drive) 1
    let s := logEv .nvcDriveFailed (pNvc + drive) 0xFF [drive] s
    dropMember drive (s.setF (Reg.tmgTierCapDegraded 3) 1)

/-- A CXD port loses its link (R284): the other takes both halves. -/
def portOut (port : Nat) (s : State) : State :=
  if !s.flag (Reg.cxdPortLinkUp port) then s
  else
    let other := 1 - port
    let s := ((s.setF (Reg.cxdPortLinkUp port) 0).setF (Reg.cxdPortWidth port) 0).setF (Reg.cxdPortSingle port) 0
    let s := if s.flag (Reg.cxdPortLinkUp other) then s.setF (Reg.cxdPortSingle other) 1 else s
    logEv .cxdPortDown (pCxd + port) 0xFF [port] ((s.setF (Reg.tmgTierCapDegraded 2) 1).bump (Ctr.cxdLinkDowns port))

def execCxdPortDown (port : Nat) (s : State) : Host.Outcome State Fault Refusal := .next (live (fun s => if port < 2 then portOut port s else s) s)

/-- A wheel stands at a step boundary. -/
def Wheel.atBoundary (x : Wheel) : Bool := x.roster.isNone || x.blockWritten

/-- CXD_PORT_RETURN: a trained port returns to service at a step boundary of all wheels (R284). -/
def execCxdPortReturn (port lanes : Nat) (s : State) : Host.Outcome State Fault Refusal :=
  .next (live (fun s =>
    if 2 ≤ port ∨ s.flag (Reg.cxdPortLinkUp port) ∨ !((tvals s.ssq.wheels).all (·.atBoundary)) then s
    else
      let other := 1 - port
      let s := (s.setF (Reg.cxdPortLinkUp port) 1).setF (Reg.cxdPortWidth port) lanes
      if s.flag (Reg.cxdPortLinkUp other) then (s.setF (Reg.cxdPortSingle other) 0).setF (Reg.tmgTierCapDegraded 2) 0
      else s.setF (Reg.cxdPortSingle port) 1) s)

/-- NVC_DRIVE_FATAL: the controller reports a fatal status (R288). -/
def execNvcDriveFatal (drive : Nat) (s : State) : Host.Outcome State Fault Refusal := .next (live (driveOut drive) s)

/-- NVC_PRSNT_CHANGE: a filtered present line changes (R288, 15 R506). -/
def prsntChange (drive : Nat) (present : Bool) (s : State) : State :=
  let s := (s.setFlag (Reg.nvcDrivePresent drive) present).setFlag (Reg.mgcPinLevel (3 + drive)) present
  if present then s else driveOut drive s

def execNvcPrsntChange (drive : Nat) (present : Bool) (s : State) : Host.Outcome State Fault Refusal :=
  .next (live (fun s => if drive < 8 then prsntChange drive present s else s) s)

/-- A completion that breaks NVMe (14 R459): the event holds its 16 bytes, and what came with them. -/
def driveViolation (drive : Nat) (header : List Byte) (s : State) : State :=
  let s := logEv .nvcProtocol (pNvc + drive) 0xFF [drive, fieldAt header 0 8, fieldAt header 8 8, fieldAt header 16 8] s
  let (p, bad) := (tgetD s.frc.drives drive {}).count 1 true
  let s := s.setFrc { s.frc with drives := tset s.frc.drives drive p }
  let limit := s.getF Reg.frcPartnerDriveLimit
  if limit ≠ 0 ∧ limit ≤ bad ∧ s.flag (Reg.nvcDriveReady drive) then driveOut drive (s.bump Ctr.frcPartnerCutoffs) else s

def execDriveProtocolViolation (drive : Nat) (header : List Byte) (s : State) : Host.Outcome State Fault Refusal :=
  .next (live (fun s => if drive < 8 then driveViolation drive header s else s) s)

/-- A tray's malformed response (14 R459): the event holds its header. -/
def trayViolation (port : Nat) (header : List Byte) (s : State) : State :=
  let s := logEv .cxdProtocol (pCxd + port) 0xFF [port, fieldAt header 0 8, fieldAt header 8 8, fieldAt header 16 8] s
  let (p, bad) := (tgetD s.frc.trays port {}).count 1 true
  let s := s.setFrc { s.frc with trays := tset s.frc.trays port p }
  let limit := s.getF Reg.frcPartnerTrayLimit
  if limit ≠ 0 ∧ limit ≤ bad ∧ s.flag (Reg.cxdPortLinkUp port) then portOut port (s.bump Ctr.frcPartnerCutoffs) else s

/-- TRAY_EVENT_POLL: the media errors that a tray's event records report (R283). -/
def execTrayEventPoll (port : Nat) (errors : List (List Nat)) (s : State) : Host.Outcome State Fault Refusal :=
  .next (live (fun s => if port < 2 then errors.foldl (fun s e => logEv .cxdMedia (pCxd + port) 0xFF (port :: e) s) s else s) s)

-- Transfers that are done (R261, R271, R273)

/-- Positions from a wheel's SP to a layer that a turn needs: in the step in progress for one that runs, in the next for one that
revives or whose wheel stands at a step boundary; the tail counts as one (R53, R69). -/
def leadDistance (n : Nat) (x : Wheel) (running : Bool) (layer : Nat) : Nat :=
  if running ∧ x.lastStep ≠ x.committed ∧ x.lastLayer ≤ layer then layer - x.lastLayer else n + 1 - x.lastLayer + layer

/-- The fetch of a revive is urgent within the lead of its turn's wheel, bulk beyond it (R69). -/
def reviveUrgent (s : State) (h : Nat) (r : PageRec) : Bool :=
  s.ssq.turns.any fun t => t.state != .queued && ((tget s.ssq.sessions t.session).map fun y => namesPage y h).getD false &&
    match s.wheel? t.wheel with
    | some x => decide (leadDistance (((s.model? x.part x.model).map (·.layers)).getD 1) x (t.state == .running) r.layer ≤ x.lead)
    | none => false

/-- Counters of a transfer. -/
def countMove (m : Move) (r : PageRec) (s : State) : State :=
  let b := m.slot4k * 4096
  let s := countUnits m.tier m.base m.slot4k true (countUnits r.tier r.base r.slot4k false s)
  let s := tierAnswers m.tier m.base m.slot4k (tierAnswers r.tier r.base r.slot4k s)
  match m.why with
  | .fetch => s.bumpBy Ctr.hrcUrgentBytes b
  | .revive => (s.bump Ctr.hrcRevivePages).bumpBy (if reviveUrgent s m.handle r then Ctr.hrcUrgentBytes else Ctr.hrcBulkBytes) b
  | .promote => s.bump Ctr.tmgPromotions
  | .cleanAhead => s.bump Ctr.tmgCleanAheadCopies
  | _ => s

/-- Maps whose rung's moves are all done fold (04 R131), and reads that wait for a slot start (R259). -/
def afterMoves (s : State) : State := retryWaits (foldReady s)

/-- Sessions of RUNNING turns that read a page in their wheel's step. -/
def stepReaders (s : State) (h : Nat) (r : PageRec) : List Nat :=
  (s.ssq.turns.filter fun t => t.state == .running && match s.wheel? t.wheel with
    | some x => !x.blockWritten && !x.resolved t.slot && match s.model? x.part x.model with
      | some m => (pagesRead s x m t (if x.roster.isSome then x.rosterStep else (x.committed + 1) % 2 ^ 32) r.layer).contains h
      | none => false
    | none => false).map (·.session)

/-- Sessions of REVIVING turns whose map names a page. -/
def reviveReaders (s : State) (h : Nat) : List Nat :=
  (s.ssq.turns.filter fun t => t.state == .reviving && ((tget s.ssq.sessions t.session).map fun y => namesPage y h).getD false).map (·.session)

/-- A revive stream still brings a page: a turn that is not queued has its session in one, and names it (R274). -/
def revives (s : State) (h : Nat) : Bool :=
  s.hrc.revive.any fun r => ((tget s.ssq.sessions r.2.2).map fun y => namesPage y h).getD false

/-- Evaluate the moves that waited for a page's move to complete (R264): drop those that its state no longer calls for. -/
def runDeferred (h : Nat) (s : State) : State :=
  if (moveOf s h).isSome then s
  else
    let mine := s.tmg.deferred.filter (·.1 == h)
    let s := s.setTmg { s.tmg with deferred := s.tmg.deferred.filter (·.1 != h) }
    mine.foldl (fun s d =>
      match s.rec? h with
      | none => s
      | some r =>
        if r.recovery ∨ r.lost then s
        else
          match d.2.2 with
          | .ladder => if r.tier < d.2.1 ∧ mayLadder s h d.2.1 then spillMove h d.2.1 .ladder s else s
          | .revive => if r.tier = 0 ∨ !revives s h then s else readToT0 h .revive s
          | .fetch => if r.tier = 0 ∨ (stepReaders s h r).isEmpty then s else readToT0 h .fetch s
          | .withdraw => if (r.slotsIn r.tier).any fun x => (withdrawnIn s r.tier).any fun u => decide (x.1 ≤ u.1 ∧ u.1 < x.1 + x.2) then
              spillMove h r.tier .withdraw s else s
          | _ => s) s

/-- Units of a page that fail their tags as they arrive in T0 (13 R431): the turns that read it end as for a CORRUPT page (04 R125), and it
passes to recovery. -/
def arrivesBad (m : Move) (r : PageRec) (bad : List Nat) (s : State) : State :=
  let readers := stepReaders s m.handle r ++ (if m.why = .revive then reviveReaders s m.handle else [])
  startRecovery m.handle (endTurns readers .pageCorrupt (tagErrors (metBy readers 0xFFFF) [(0, m.handle)] r.part r.tier 1 bad s))

/-- A page's transfer is done. -/
def pageMoved (h : Nat) (s : State) : State :=
  match moveOf s h, s.rec? h with
  | some m, some r =>
    if m.done ∨ !s.tierUp r.tier ∨ !s.tierUp m.tier then s
    else
      let bad := if m.tier = 0 ∧ !m.onto then slotBad s r.part r.tier r.base r.slot4k else []
      if bad.isEmpty then afterMoves (runDeferred h (moveDone h (countMove m r s)))
      else afterMoves (runDeferred h (arrivesBad m r bad (countMove m r s)))
  | _, _ => s

/-- The fetch in progress that a transfer ends. -/
def fetchOf (s : State) (t : Transfer) : Option Fetch :=
  s.hrc.fetches.find? fun f => match t, f.kind with
    | .weights w st l, .weights => f.wheel == w && f.step == st && f.layer == l && f.sharing.isNone
    | .adapter w st l i v, .adapter j u => f.wheel == w && f.step == st && f.layer == l && i == j && v == u
    | .overflow w st i, .overflow j => f.wheel == w && f.step == st && i == j
    | _, _ => false

def dropFetch (f : Fetch) (s : State) : State := s.setHrc { s.hrc with fetches := s.hrc.fetches.filter (· != f) }

/-- Matrix and bias of a layer as T1 holds them. -/
def layerFromT1 (s : State) (x : Wheel) (layer : Nat) : List Byte :=
  match s.model? x.part x.model with
  | some m => s.directRead m.part 1 (m.weightBase + ((m.cfg[layer]?).map (·.wOff)).getD 0) m.matrixBytes ++
      s.directRead m.part 1 (m.weightBase + ((m.cfg[layer]?).map (·.biasOff)).getD 0) m.biasBytes
  | none => []

/-- Fetches of other wheels that share a slot while it is being filled (R271). -/
def sharers (s : State) (f : Fetch) : List Fetch :=
  s.hrc.fetches.filter fun g => f.kind == .weights && g.kind == .weights && g.layer == f.layer && g.sharing == some f.wheel

/-- A weight, adapter or overflow fetch is done: a slot of the window is filled, for its sharers too. A fetch of the adapters' excess
must find its place first (R273). -/
def fetchDone (f : Fetch) (s : State) : State :=
  match s.wheel? f.wheel with
  | none => s
  | some x =>
    let s := match f.kind with
      | .adapter _ _ => placeExcess f.wheel f.step f.layer s
      | _ => s
    let held := match f.kind with
      | .adapter _ _ => inExcess s x f && !excessPlaced s x f.wheel f.step f.layer
      | _ => false
    if held then s
    else
      let also := sharers s f
      let s := (also.foldl (fun s g => dropFetch g s) (dropFetch f s)).bumpBy Ctr.hrcUrgentBytes f.bytes
      match f.kind with
      | .weights =>
        let data := layerFromT1 s x f.layer
        s.setHrc { s.hrc with filled := s.hrc.filled ++ (f :: also).map fun g => { g with sharing := none, data := data } } |>.bumpBy Ctr.hrcWeightBytes f.bytes
      | .adapter _ _ => s.setHrc { s.hrc with filled := s.hrc.filled ++ [f] }
      | _ => s

-- Late and failed transfers (R279, R280, R282)

/-- Sessions of RUNNING turns of a wheel that a fetch serves. -/
def fetchReaders (s : State) (f : Fetch) : List Nat :=
  ((runningOn s f.wheel).filter fun t => match f.kind, tget s.ssq.sessions t.session with
    | .adapter i v, some y => y.adapter == i && y.adapterVer == v
    | .overflow i, some _ => t.session == i
    | _, _ => true).map (·.session)

/-- Counters of a failed read. A completion with an error is one that did not time out (R288). -/
def countFail (how : ReadFail) (tier base : Nat) (s : State) : State :=
  match how with
  | .poison => if tier = 2 then s.bump (Ctr.cxdPoisonReads (cxdOf s base)) else s
  | .malformed p b => if tier = 2 then trayViolation p b s else s
  | .error =>
    if tier = 3 then (s.setTmg { s.tmg with timeouts := tdel s.tmg.timeouts (driveOf s base) }).bump (Ctr.nvcMediaErrors (driveOf s base)) else s
  | .timeout => s
  | .write => s

/-- Start a move again into another slot (R282): the old one is withdrawn while the new one is chosen. Where its tier has none, a read into T0
waits (R259), a move down goes deeper (R277), and a promotion or a clean-ahead copy is dropped. -/
def moveAgain (m : Move) (s : State) : State :=
  let bad := (List.range m.slot4k).map fun j => (m.tier, m.base + j)
  let old := s.frc.withdrawn
  let s := s.setFrc { s.frc with withdrawn := bad ++ old }
  let s := match m.why with
    | .fetch | .revive => readToT0 m.handle m.why s
    | .promote | .cleanAhead => (startMove m.handle m.tier m.why s).getD s
    | _ => spillMove m.handle m.tier m.why s
  s.setFrc { s.frc with withdrawn := old }

/-- A page's transfer fails. -/
def pageFailed (h : Nat) (how : ReadFail) (s : State) : State :=
  match moveOf s h, s.rec? h with
  | some m, some r =>
    if m.done then s
    else if how = .write then moveAgain m (handToTest m.tier m.base (abandonMove h s))
    else
      let s := countFail how r.tier r.base s
      let wheel := ((s.ssq.turns.find? fun t => (stepReaders s h r).contains t.session).map (·.wheel)).getD 0xFFFF
      match m.why with
      | .fetch | .revive =>
        let readers := stepReaders s h r ++ (if m.why = .revive then reviveReaders s h else [])
        let s := tierError .hrcReadFailed pHrc r.part r.tier (dimmRow r.tier r.base) h (metBy readers wheel) r.layer (s.bump Ctr.hrcFailedReads)
        startRecovery h (endTurns readers .tierFailed s)
      | _ => startRecovery h (tierError .tmgMoveFailed pTmg r.part r.tier (dimmRow r.tier r.base) h {} r.layer (s.bump Ctr.tmgMoveFailures))
  | _, _ => s

/-- The T1 row at which a fetch begins, where the spec gives its place. -/
def fetchRow (s : State) (x : Wheel) (f : Fetch) : Option Resource :=
  match f.kind with
  | .weights => (s.model? x.part x.model).bind fun m => dimmRow f.tier (s.directAddr m.part 1 (m.weightBase + ((m.cfg[f.layer]?).map (·.wOff)).getD 0) / 4096)
  | .overflow i => (tget s.ssq.sessions i).bind fun y => dimmRow f.tier (y.penaltyPtr / 4096)
  | _ => none

/-- A fetch ends without what it was to bring. -/
def fetchEnds (f : Fetch) (late : Bool) (s : State) : State :=
  match s.wheel? f.wheel with
  | none => s
  | some x =>
    let readers := fetchReaders s f
    let s := dropFetch f s
    let unit := fetchRow s x f
    let s := if late then tierError .hrcLate pHrc x.part f.tier unit 0 (metBy readers f.wheel) f.layer s
      else tierError .hrcReadFailed pHrc x.part f.tier unit 0 (metBy readers f.wheel) f.layer (s.bump Ctr.hrcFailedReads)
    let s := match f.kind with
      | .overflow i => if late then s else modSession i (fun y => { y with countsLost := true }) s
      | _ => s
    endTurns readers (if late then .tierLate else .tierFailed) s

/-- Counters of a fetch that fails: weights, adapters and overflow lie in T1, of which no partner answers. -/
def countFetchFail (how : ReadFail) (f : Fetch) (s : State) : State := countFail how f.tier 0 s

/-- The access of a direct-window command to a 4 KiB unit fails (R282, R283): the next command that meets the unit ends so. -/
def directFailed (k u : Nat) (how : ReadFail) (s : State) : State :=
  let s := countFail how k u s
  s.setTmg { s.tmg with badAccess := s.tmg.badAccess ++ [(k, u, how == .write)] }

/-- Part 0 of a layer was accepted in the wheel's step, and the step goes on. -/
def Wheel.inLayer (x : Wheel) (layer : Nat) : Bool := x.roster.isSome && !x.blockWritten && x.parts.any fun p => !p.tail && p.layer == layer

/-- Part 0 of the layer, or of the tail, that needs a fetch was accepted in the fetch's step (R279). -/
def fetchDue (f : Fetch) (s : State) : Bool :=
  match s.wheel? f.wheel with
  | none => false
  | some x => x.rosterStep == f.step && match f.kind with
    | .overflow _ => x.tailBegun
    | _ => x.inLayer f.layer

/-- A weight, adapter or overflow fetch fails: with a wheel's own fetch of a slot fail those of the wheels that share it (R280). -/
def fetchFailed (f : Fetch) (s : State) : State := (f :: sharers s f).foldl (fun s f => fetchEnds f false s) s

/-- The ranges of T1 that a weight fetch reads, as address and length, and the partition. -/
def weightSpans (s : State) (x : Wheel) (layer : Nat) : Option (Nat × List (Nat × Nat)) :=
  (s.model? x.part x.model).map fun m =>
    let l := (m.cfg[layer]?)
    (m.part, [(m.weightBase + (l.map (·.wOff)).getD 0, m.matrixBytes), (m.weightBase + (l.map (·.biasOff)).getD 0, m.biasBytes)])

/-- The ranges that a fetch of a wheel's reads in the direct window of T1. -/
def fetchSpans (s : State) (f : Fetch) : Nat × List (Nat × Nat) :=
  match f.kind, s.wheel? f.wheel with
  | .weights, some x => (weightSpans s x f.layer).getD (0, [])
  | _, _ => (0, [])

/-- The units of the penalty table that an overflow fetch reads and that fail their tags (13 R431). -/
def tableBad (s : State) (f : Fetch) : List (Nat × Nat) :=
  match f.kind with
  | .overflow i => ((tget s.ssq.sessions i).map fun y => objectsBad s 1 [penaltyObject s i y]).getD []
  | _ => []

/-- A weight, adapter or overflow fetch has read its bytes: a unit whose tag fails or a poisoned line fails it (12 R401, 13 R431); that of a
session's penalty table makes the session corrupt. -/
def fetchArrived (f : Fetch) (s : State) : State :=
  let (n, spans) := fetchSpans s f
  let bad := spans.flatMap fun a => s.badUnits n 1 a.1 a.2
  let lines := spans.flatMap fun a => s.directPoisoned n 1 a.1 a.2
  match f.kind, tableBad s f with
  | .overflow i, u :: l => objectCorrupt i ((u :: l).map fun u => (1, u)) (dropFetch f s)
  | _, _ =>
    if bad.isEmpty && lines.isEmpty then fetchDone f s
    else fetchFailed f (lines.foldl (fun s l => poisonRead n l s) (tagErrors (metBy (fetchReaders s f) f.wheel) [] n 1 6 bad s))

/-- TIER_TRANSFER_DONE. A direct-window access is over with its command; a fetch waits for the window lines it reads (12 R398, R399). -/
def transferDone (t : Transfer) (s : State) : State :=
  match t with
  | .page h => pageMoved h s
  | .direct _ _ => s
  | t => match fetchOf s t with
    | some f =>
      let (n, spans) := fetchSpans s f
      match beginAccess (.transfer t) (spans.flatMap fun a => s.directLines n 1 a.1 a.2) false s with
      | some s => s
      | none => fetchArrived f s
    | none => s

def execTierTransferDone (what : Transfer) (s : State) : Host.Outcome State Fault Refusal := .next (live (transferDone what) s)

/-- A weight, adapter or overflow fetch is late and abandoned (R279): for a wheel that shares its slot it is late only if part 0 of the layer
was accepted there. -/
def fetchLate (f : Fetch) (s : State) : State :=
  let also := sharers s f
  let s := (f :: also.filter fun g => fetchDue g s).foldl (fun s f => fetchEnds f true s) s
  shareAnew ((sharers s f).filter fun g => also.contains g) s

/-- TIER_READ_FAILED. -/
def readFailed (t : Transfer) (how : ReadFail) (s : State) : State :=
  match t with
  | .page h => pageFailed h how s
  | .direct k u => directFailed k u how s
  | t => match fetchOf s t with
    | some f => if how = .write then s else fetchFailed f (countFetchFail how f s)
    | none => s

def execTierReadFailed (what : Transfer) (how : ReadFail) (s : State) : Host.Outcome State Fault Refusal := .next (live (readFailed what how) s)

/-- Sessions whose appends in a layer of the wheel's step wait for a T0 slot (R259). -/
def appendsWaiting (s : State) (x : Wheel) (m : Model) (layer : Nat) : List Nat :=
  let items := ((x.parts.filter fun p => !p.tail && p.layer == layer).map fun p => p.items.filter fun i => i.array.isSome && !i.done).flatten
  let recs := (items.map fun i => match i.kind with
    | .project f c _ _ => (List.range c).map (f + ·)
    | _ => []).flatten
  ((recs.filter fun r => projects s x r).filterMap fun r => (x.entries[r]?).bind fun e => match appendPage e.session m layer (e.prov / 32) s with
    | .inl .noSlot => some e.session
    | _ => none).eraseDups

/-- Appends that still wait for a T0 slot at the deadline of their layer (R259, R279): their turns end. -/
def appendsLate (w layer : Nat) (s : State) : State :=
  match s.wheel? w with
  | none => s
  | some x =>
    match s.model? x.part x.model with
    | none => s
    | some m =>
      let late := appendsWaiting s x m layer
      if !x.inLayer layer ∨ late.isEmpty then s
      else endTurns late .tierLate (tierError .hrcLate pHrc x.part 0 none 0 (metBy late w) layer (s.bump Ctr.hrcLatePages))

/-- A page of a wheel's layer is late (R279). -/
def pageLate (w layer h : Nat) (s : State) : State :=
  match s.wheel? w, s.rec? h with
  | some x, some r =>
    let due := x.inLayer layer
    let readers := (stepReaders s h r).filter fun i => ((turnOf s i).map (·.wheel)) == some w
    if !due ∨ r.layer ≠ layer ∨ r.tier = 0 ∨ readers.isEmpty then s
    else
      let s := s.setTmg { s.tmg with allocWaits := s.tmg.allocWaits.filter (·.1 != h) }
      let s := tierError .hrcLate pHrc r.part r.tier (dimmRow r.tier r.base) h (metBy readers w) layer (s.bump Ctr.hrcLatePages)
      startRecovery h (endTurns readers .tierLate s)
  | _, _ => s

/-- PAGE_LATE: what a layer still lacks at HRC.LATE: a page, or a fetch, of its shaft-due set, or (page handle 0, which names no page) the
slots that its appends wait for. -/
def execPageLate (wheel layer : Nat) (what : Transfer) (s : State) : Host.Outcome State Fault Refusal :=
  .next (live (fun s => match what with
    | .page h => if h = 0 then appendsLate wheel layer s else pageLate wheel layer h s
    | t => match fetchOf s t with
      | some f => if f.wheel = wheel ∧ f.layer = layer ∧ fetchDue f s then fetchLate f s else s
      | none => s) s)

/-- What a drive's timed-out command was: the write of a move into T3, else a read. -/
def timedOut (t : Transfer) (s : State) : ReadFail :=
  match t with
  | .page h => if ((moveOf s h).map (·.tier)) = some 3 then .write else .timeout
  | _ => .timeout

/-- NVC_COMMAND_TIMEOUT: a drive's command times out: aborted and retried once, then failed (R288); three in a row take the drive out.
`what` is the transfer that the command was part of, if one. -/
def nvcTimeout (drive : Nat) (retried : Bool) (what : Option Transfer) (s : State) : State :=
  let s := (s.bump (Ctr.nvcTimeouts drive)).emit (.deviceOp (pNvc + drive) "ABORT" [])
  if !retried then s
  else
    let n := tgetD s.tmg.timeouts drive 0 + 1
    let s := logEv .nvcTimeout (pNvc + drive) 0xFF [drive] (s.setTmg { s.tmg with timeouts := tset s.tmg.timeouts drive n })
    let s := if 3 ≤ n then driveOut drive s else s
    match what with
    | some t => readFailed t (timedOut t s) s
    | none => s

def execNvcCommandTimeout (drive : Nat) (retried : Bool) (what : Option Transfer) (s : State) : Host.Outcome State Fault Refusal :=
  .next (live (fun s => if drive < 8 then nvcTimeout drive retried what s else s) s)

-- Relief, clean-ahead copies, heat

/-- SPILLWAY_RELIEF: relief of a partition's tier above HI_WATER, or for operations that wait for a T0 slot (R257, R259). `columns` are the
prefix columns that it folds on the way (07 R239). -/
def spillRelief (n k : Nat) (columns : List Nat) (s : State) : State :=
  let need := k == 0 && (s.tmg.allocWaits.any (fun w => ((s.rec? w.1).map (·.part)) == some n) || s.ssq.turns.any (fun t => t.part == n && t.commitWaits) ||
    s.ssq.wheels.any fun x => x.2.part == n && match s.model? x.2.part x.2.model with
      | some m => ((x.2.parts.map (·.layer)).eraseDups).any fun l => !(appendsWaiting s x.2 m l).isEmpty
      | none => false)
  if 3 ≤ k ∨ (!need ∧ !occupied s n k (hiWater s) 0 0) then s
  else afterMoves (relieve n k need (columns.foldl (fun s i => foldColumn n i s) s))

def execSpillwayRelief (part tier : Nat) (columns : List Nat) (s : State) : Host.Outcome State Fault Refusal := .next (live (spillRelief part tier columns) s)

/-- The occupancy of a partition's tier is below HI_WATER. -/
def belowWater (s : State) (n k : Nat) : Bool :=
  let slots := slotsOf s n k
  let quota := s.getF (Reg.tmgPbQuotaTk n k)
  (quota == 0 || decide (100 * slots.length < hiWater s * quota)) && decide (100 * (slots.map (·.2)).sum < hiWater s * pagePart s n k)

/-- CLEAN_AHEAD: the lowest handle of a sealed T0 page without a lower copy (R263). -/
def cleanAhead (n : Nat) (s : State) : State :=
  if !s.flag Reg.tmgMigrateCleanAhead ∨ !belowWater s n 1 then s
  else
    match s.tmg.records.find? fun e => e.2.part == n && e.2.tier == 0 && e.2.sealed && !e.2.lowerValid && !e.2.recovery && !e.2.lost && (moveOf s e.1).isNone with
    | none => s
    | some e => (startMove e.1 1 .cleanAhead s).getD s

def execCleanAhead (part : Nat) (s : State) : Host.Outcome State Fault Refusal := .next (live (cleanAhead part) s)

/-- HEAT_PROMOTION (R267). A folded page is named as relief names it (log 34). No page that a read into T0 waits for is promoted (R268). -/
def heatPromotion (h : Nat) (s : State) : State :=
  match (if 2 ^ 32 ≤ h then foldedKey s h else s.rec? h) with
  | none => s
  | some r =>
    let dest := if r.tier = 1 then 0 else 1
    let need := if r.tier = 1 then s.getF Reg.tmgMigratePromoteT0 else s.getF Reg.tmgMigratePromoteT1
    if r.tier = 0 ∨ r.heat < need ∨ !belowWater s r.part dest then s
    else if 2 ^ 64 ≤ h then columnFolded (fun r s => foldedPromote r dest (h % 2 ^ 64) s) (h / 2 ^ 64) (h % 2 ^ 64) s
    else if 2 ^ 32 ≤ h then sessionFolded (fun r s => foldedPromote r dest (h / 2 ^ 32 - 1) s) (h / 2 ^ 32 - 1) (h % 2 ^ 32) s
    else if (moveOf s h).isSome ∨ s.tmg.allocWaits.any (·.1 == h) then s
    else (startMove h dest .promote s).getD s

def execHeatPromotion (handle : Nat) (s : State) : Host.Outcome State Fault Refusal := .next (live (heatPromotion handle) s)

/-- Change every page record, with a handle or folded (04 R131). -/
def everyRec (f : PageRec → PageRec) (s : State) : State :=
  let s := s.setTmg { s.tmg with records := s.tmg.records.map fun r => (r.1, f r.2) }
  let s := { s with ssq := { s.ssq with sessions := s.ssq.sessions.map fun (x : Nat × Session) => (x.1, { x.2 with folded := x.2.folded.map f }) } }
  { s with pme := { s.pme with columns := s.pme.columns.map fun (c : Nat × Column) => (c.1, { c.2 with folded := c.2.folded.map f }) } }

/-- Add an access count to the page whose slot in T2 holds a unit, folded or not (R265, R286, 04 R131). -/
def addHeat (unit n : Nat) (s : State) : State :=
  let holds := fun (r : PageRec) => r.tier == 2 && decide (r.base ≤ unit ∧ unit < r.base + r.slot4k)
  let hotter := fun (r : PageRec) => if holds r then { r with heat := min 255 (r.heat + min 255 n) } else r
  everyRec hotter s

/-- Add what a tray's hot list reports of a device physical address of a port's half of T2 (R253, R286, log 78): the half stays the same when the
other port takes it (R284). -/
def trayHeat (port : Nat) (e : Nat × Nat) (s : State) : State :=
  if !s.flag (Reg.cxdPortTrayHeat port) then s else addHeat (2 * (e.1 / 4096) + port) e.2 (s.bump (Ctr.cxdHotlistRecords port))

/-- HEAT_SWEEP: PERIOD pins since the last sweep began (R266): every HEAT and the window's page counts are halved (12 R400), and the trays'
hot lists are read (R286): of each tray, its port and up to 256 addresses with their counts. -/
def heatSweep (hot : List (Nat × List (Nat × Nat))) (s : State) : State :=
  if s.tmg.pinCount < s.getF Reg.tmgHeatCtrlPeriod then s
  else
    let s := everyRec (fun r => { r with heat := r.heat / 2 }) (s.setTmg { s.tmg with pinCount := 0 })
    let s := { s with cwp := { s.cwp with pageCounts := (s.cwp.pageCounts.map fun (e : Nat × Nat) => (e.1, e.2 / 2)).filter fun e => e.2 != 0 } }
    (hot.filter fun t => decide (t.1 < 2)).foldl (fun s t => (t.2.take 256).foldl (fun s e => trayHeat t.1 e s) s) (s.bump Ctr.tmgHeatSweeps)

def execHeatSweep (hot : List (Nat × List (Nat × Nat))) (s : State) : Host.Outcome State Fault Refusal := .next (live (heatSweep hot) s)

-- Recovery (04 R142, 08 R281)

/-- REVIVING turns whose session names a lost page end (R142). -/
def endLost (s : State) : State :=
  endTurns ((s.ssq.turns.filter fun t => t.state == .reviving && ((tget s.ssq.sessions t.session).map fun y =>
    y.handles.any fun h => ((s.rec? h).map (·.lost)).getD false).getD false).map (·.session)) .pageCorrupt s

/-- The revive streams of a partition go on with pages that have left recovery (R274). -/
def reviveAll (n : Nat) (s : State) : State := [1, 2, 3].foldl (fun s k => reviveStart (s.hrc.revive.length + 1) n k s) s

/-- What a recovery read leaves to do once it has been made. -/
def recoveryDone (h : Nat) (failed : Bool) (r : PageRec) (s : State) : State := reviveAll r.part (afterMoves (endLost (recoveryRead h failed s)))

/-- The requester of a recovery read (09 R292): urgent where a shaft-due set of a step names the page. -/
def recoveryRequester (s : State) (h : Nat) (r : PageRec) : Nat := if (stepReaders s h r).isEmpty then 16 + r.part % 16 else r.part % 16

/-- RECOVERY_READ_DONE: the copy is decoded once the Sluice grants its expander (09 R290); while that is under test it waits (14 R453). -/
def recovered (h : Nat) (failed : Bool) (s : State) : State :=
  match s.rec? h with
  | none => s
  | some r =>
    if !r.recovery then s
    else
      let tier := if r.lowerValid then r.lowerTier else r.tier
      let base := if r.lowerValid then r.lowerBase else r.base
      if failed ∨ !s.tierUp tier then recoveryDone h failed r s
      else if underTest s (expanderUnit s tier base) then s
      else match takeExpander (expanderInst s tier base) (r.slot4k * 4096) (recoveryRequester s h r) (recoveryKey h) s with
        | (s, true) => recoveryDone h failed r s
        | (s, false) => s

def execRecoveryReadDone (handle : Nat) (failed : Bool) (s : State) : Host.Outcome State Fault Refusal := .next (live (recovered handle failed) s)

-- The directory's expert operations (04 R143, 16 R517)

/-- An operation on a page handle: STATUS 1 for a handle that names no page, 2 for a partition that is not unlocked. -/
def pageOp (op from_ h : Nat) (act : PageRec → State → State) (s : State) : State :=
  if !s.expertOpen pTmg from_ then s
  else
    let s := (s.setF Reg.tmgPageOpHandle h).setF Reg.tmgPageOpOp op
    match s.rec? h with
    | none => s.setF Reg.tmgPageOpStatStatus 1
    | some r => if !s.expertObject pTmg from_ r.part then s.setF Reg.tmgPageOpStatStatus 2 else act r (s.setF Reg.tmgPageOpStatStatus 0)

def execTmgReadRecord (from_ handle : Nat) (s : State) : Host.Outcome State Fault Refusal :=
  .next (countIo from_ (pageOp 1 from_ handle (fun r s => showBytes Reg.tmgPageRecData 4 (recBytes r) s) s))

/-- READ_HEADER; a page whose tier cannot be read goes to recovery, and no header is shown (08 R284, R288). -/
def execTmgReadHeader (from_ handle : Nat) (s : State) : Host.Outcome State Fault Refusal :=
  .next (countIo from_ (pageOp 2 from_ handle (fun r s =>
    if s.tierUp r.tier then showBytes Reg.tmgPageHdrData 8 ((pageBytes s r).take 64) s else startRecovery handle s) s))

def execMarkRecovery (from_ handle : Nat) (s : State) : Host.Outcome State Fault Refusal :=
  .next (countIo from_ (live (pageOp 3 from_ handle fun _ s => startRecovery handle s) s))

/-- READ_MAP: the handle of a session's page, or STATUS 3. -/
def readMap (from_ session layer page : Nat) (s : State) : State :=
  if !s.expertOpen pTmg from_ then s
  else
    let s := (((s.setF Reg.tmgMapArgSession session).setF Reg.tmgMapArgLayer layer).setF Reg.tmgMapArgPage page).setF Reg.tmgPageOpOp 4
    match tget s.ssq.sessions session with
    | none => s.setF Reg.tmgPageOpStatStatus 3
    | some y =>
      if !s.expertObject pTmg from_ y.part then s.setF Reg.tmgPageOpStatStatus 2
      else
        match y.page layer page with
        | none => s.setF Reg.tmgPageOpStatStatus 3
        | some h => (s.setF Reg.tmgPageOpHandle h).setF Reg.tmgPageOpStatStatus 0

def execReadMap (from_ session layer page : Nat) (s : State) : Host.Outcome State Fault Refusal := .next (countIo from_ (readMap from_ session layer page s))

end Sys2Proof.Machine
end

