-- ==== Sys2Proof/Machine/PrefixRows.lean ====
section
/-!
DEFINITION. Machine/PrefixRows.lean: commands and events of the prefix store (07): lookups with their slots, attach and import,
publication, the sled's frames (R240-R243), forwarding (R244, R245), and the expert set operations.
-/
set_option cleanup.letToHave false
namespace Sys2Proof.Machine

open Sys2Proof

-- Lookup slots and results (R226, 16 R528)

/-- The slot that a cursor names. -/
def cursorSlot (s : State) (part cursor : Nat) : Option (Nat × Slot) :=
  let n := cursor % 1024
  match tget s.pme.slots n with
  | some q => if cursor / 1024 = tgetD s.pme.uses n 0 ∧ q.part = part ∧ !(s.pme.pendings.any fun p => p.id == n && !p.next) then some (n, q) else none
  | none => none

/-- Take the lowest free slot for a query: its number, its use count one higher and never 0. -/
def takeSlot (q : Slot) (s : State) : Option (Nat × State) :=
  if 1024 ≤ s.pme.slots.length ∨ 64 ≤ (s.pme.slots.filter fun x => x.2.part == q.part).length then none
  else
    ((List.range 1024).find? fun n => (tget s.pme.slots n).isNone).map fun n =>
      let u := (tgetD s.pme.uses n 0 + 1) % 2 ^ 22
      (n, modPme (fun p => { p with slots := tset p.slots n q, uses := tset p.uses n (if u = 0 then 1 else u) }) s)

def cursorOf (s : State) (n : Nat) : Nat := n + 1024 * tgetD s.pme.uses n 0

/-- The 32 bytes of a lookup result (R528). -/
def resultBytes (hit : Option PrefixHit) (multi : Bool) (fwd cursor : Nat) : List Byte :=
  match hit with
  | some h => leBytes 1 1 ++ leBytes 1 (if multi then 1 else 0) ++ leBytes 1 fwd ++ leBytes 1 h.tier ++ leBytes 4 h.depth ++ leBytes 4 h.node ++
      leBytes 4 h.column ++ leBytes 8 h.gen ++ leBytes 4 cursor ++ zeros 4
  | none => leBytes 2 0 ++ leBytes 1 fwd ++ zeros 21 ++ leBytes 4 cursor ++ zeros 4

def depthOf (h : Option PrefixHit) : Nat := (h.map (·.depth)).getD 0

/-- Words of a hit in a flit or a forwarded answer. -/
def hitWords (h : Option PrefixHit) : List Nat :=
  match h with
  | some h => [1, h.depth, h.column, h.gen, h.home, h.node, h.tier]
  | none => [0]

def putPending (p : Pending) (s : State) : State := modPme (fun m => { m with pendings := (m.pendings.filter fun x => x.id != p.id) ++ [p] }) s
def dropPending (id : Nat) (s : State) : State := modPme (fun m => { m with pendings := m.pendings.filter fun x => x.id != id }) s

/-- End a lookup or a NEXT_MATCH with its best hit (R226, R227, R245): answer its command, or the device that forwarded it. -/
def answerLookup (p : Pending) (fwd : Nat) (s : State) : State :=
  let s := dropPending p.id s
  let s := match p.q.named, p.best with
    | some c, some _ => countHit c s
    | _, _ => s
  match p.from_, p.cmd with
  | some f, _ => sendOwn { node := f.node, part := p.q.part, kind := "FWD_ANSWER", words := [f.node, f.id] ++ hitWords p.best } s
  | none, none => s
  | none, some c =>
    let q := if p.best.isSome then { p.q with hit := p.best } else p.q
    let s := modPme (fun m => { m with slots := tmod m.slots p.id fun _ => q }) s
    let cursor := cursorOf s p.id
    if p.next && p.best.isNone then complete c { status := .prefixNoMore } s
    else complete c { result0 := depthOf p.best, result1 := cursor, data := some (c.dlen - 32, resultBytes p.best p.multi fwd cursor) } s

/-- The local result of a lookup is known: forward it (R244) or end it. -/
def settleLookup (p : Pending) (s : State) : State :=
  if !p.next && s.flag (Reg.pmePbPolicyFwdEn p.q.part) && s.flag Reg.pmeFwdFwdValid && decide (depthOf p.best < p.q.pages) &&
      decide (p.hops < s.getF Reg.pmeFwdMaxHops) then
    let n := s.pme.nextId
    let s := modPme (fun m => { m with nextId := n + 1 }) (s.bump Ctr.pmeFwdLookups)
    let parent := s.getF Reg.pmeFwdParentNode
    let m : OwnMsg := { node := parent, part := p.q.part, kind := "FORWARD", words := [parent, n, p.q.part, p.hops + 1, depthOf p.best] ++ p.q.hashes
                        bytes := (p.q.tokens.map (leBytes 4)).flatten }
    let s := sendOwn m s
    putPending { p with forwarded := true, fwdId := n } s
  else answerLookup p 0 s

/-- The next of a query's own candidates that verifies (R224, R227). -/
def localNext (p : Pending) (s : State) : Pending × State :=
  match runCands (p.q.cands.length + 1) p.q p.q.cands s with
  | (s, some (h, c), l) =>
    ({ p with q := { p.q with cands := l, named := some c }, best := some h, multi := l.any fun d => d.entry.page + 1 == h.depth }, s)
  | (s, none, _) => ({ p with q := { p.q with cands := [] }, best := none, multi := false }, s)

/-- A lookup in this device's own set and cold index. -/
def localLookup (p : Pending) (s : State) : State :=
  let (s, l) := allCands p.q s
  let l := match p.next, p.q.hit with
    | true, some h => l.filter fun c => decide (c.entry.page + 1 < h.depth) ||
        (c.entry.page + 1 == h.depth && (decide (h.home < c.entry.home) || (c.entry.home == h.home && decide (h.column < c.entry.column))))
    | _, _ => l
  let (p, s) := localNext { p with q := { p.q with cands := l } } s
  settleLookup p s

-- The sled (R240-R243)

def ownPosition (s : State) : Nat := s.getF Reg.pmeCascadePosition
def inCascade (s : State) : Bool := s.getF Reg.pmeCascadeMode != 0 && decide (1 < s.getF Reg.pmeCascadeMembers)

/-- Whether an entry answers a sled lookup of an origin: as R223, a private entry only for the device that holds its column. In width mode
the even member of a pair compares TAG and the odd one the wide tag (R243). -/
def sledCand (s : State) (q : Slot) (seg origin : Nat) (e : PmeEntry) : Bool :=
  e.part == q.part && e.page / 64 == seg && decide (e.page < q.pages) &&
    (if s.getF Reg.pmeCascadeMode = 2 ∧ ownPosition s % 2 = 1 then e.tagHi == q.wides.getD e.page 0 else e.tag == q.hashes.getD e.page 0) &&
    (!e.priv || (e.home == origin && q.session != 0 &&
      (e.home != ownHome s || ((tget s.pme.columns e.column).map (·.owner)) == some (ownerWord q.session))))

/-- The way-match vector of candidates in a set. -/
def wayVector (l : List Cand) : Nat := l.foldl (fun v c => match c.place with
  | .way _ w => setBit v w
  | .cold _ _ _ => v) 0

/-- A member compares a segment in its set (R241 phase 2). In width mode the even member of a pair sends its way-match vector to the odd
one, which alone offers candidates (R243). -/
def memberCompare (origin id seg : Nat) (q : Slot) (s : State) : State :=
  let s := dropOrphans q seg s
  let (s, l) := chipCands q seg (sledCand s q seg origin) s
  let even := s.getF Reg.pmeCascadeMode == 2 && ownPosition s % 2 == 0
  let s := if even then s.emit (.flit "WAYS" [origin, id, seg, wayVector l % 2 ^ 64, wayVector l / 2 ^ 64] []) else s
  let l := if even then [] else candSort l
  let e : SledQuery := { origin := origin, id := id, segment := seg, q := { q with cands := l } }
  modPme (fun m => { m with sled := (m.sled.filter fun x => !(x.origin == origin && x.id == id && x.segment == seg)) ++ [e] }) s

def lookupFlit (origin id seg : Nat) (q : Slot) : Out :=
  .flit "LOOKUP" ([origin, id, seg, q.part, q.session] ++ (q.hashes.drop (64 * seg)).take 64) []
def resolveFlit (origin id seg : Nat) : Out := .flit "RESOLVE" [origin, id, seg] []

/-- Start a sled lookup: its messages for all segments go round the ring, and segments are resolved deepest first. -/
def sledLookup (p : Pending) (s : State) : State :=
  let o := ownPosition s
  let segs := (List.range (cdiv p.q.pages 64)).reverse
  let (s, cold) := segs.foldl (fun (a : State × List Cand) seg => let (s, l) := coldCands p.q seg a.1; (s, a.2 ++ candSort l)) (s, [])
  let p := { p with q := { p.q with cands := cold }, segments := segs }
  putPending p (segs.foldl (fun s seg => (memberCompare o p.id seg p.q s).emit (lookupFlit o p.id seg p.q)) s)

/-- A cold candidate comes before a hit in the order of R223. -/
def candFirst (c : Cand) (h : Option PrefixHit) : Bool :=
  match h with
  | none => true
  | some h => decide (h.depth < c.entry.page + 1) ||
      (c.entry.page + 1 == h.depth && (decide (c.entry.home < h.home) || (c.entry.home == h.home && decide (c.entry.column < h.column))))

/-- What the sled found in the segment that an origin resolves: with the origin's own cold candidates before it, the segment's
result; without one, the next segment follows. -/
def sledResult (id seg : Nat) (hit : Option PrefixHit) (multi : Bool) (s : State) : State :=
  match s.pme.pendings.find? fun p => p.id == id && !p.forwarded && p.segments.head? == some seg with
  | none => s
  | some p =>
    let mine := p.q.cands.filter fun c => c.entry.page / 64 == seg && candFirst c hit
    let rest := p.q.cands.filter fun c => !(c.entry.page / 64 == seg && candFirst c hit)
    match runCands (mine.length + 1) p.q mine s with
    | (s, some (h, c), l) =>
      let more := (l ++ rest).any fun d => d.entry.page + 1 == h.depth
      settleLookup { p with q := { p.q with cands := l ++ rest, named := some c, spare := hit }, best := some h,
                            multi := more || decide (depthOf hit = h.depth) } s
    | (s, none, _) =>
      let p := { p with q := { p.q with cands := rest, named := none, spare := none } }
      match hit, p.segments.tail with
      | some h, _ => settleLookup { p with best := some h, multi := multi || rest.any fun d => d.entry.page + 1 == h.depth } s
      | none, [] => settleLookup { p with best := none, segments := [] } s
      | none, next :: l =>
        let s := putPending { p with segments := next :: l } s
        if p.returned.contains next then s.emit (resolveFlit (ownPosition s) id next) else s

/-- Start a lookup. -/
def startLookup (p : Pending) (s : State) : State := if inSled s then sledLookup p s else localLookup p s

-- PREFIX_LOOKUP, NEXT_MATCH, PREFIX_RELEASE (R222, R226, R227)

/-- Run a query: without a full page it has no hit and holds no slot. -/
def runLookup (c : Cmd) (q : Slot) (s : State) : Res :=
  if q.pages = 0 then .done (s.bump Ctr.pmeLookups) { data := some (c.dlen - 32, resultBytes none false 0 0) }
  else
    match takeSlot q s with
    | none => .fail .pmeBusy
    | some (n, s) => .wait (startLookup { id := n, cmd := some c, q := q } (s.bump Ctr.pmeLookups))

def prefixLookup (c : Cmd) (s : State) : Res :=
  let own := c.arg 0 1 == 1
  need (c.argsOk [(0, 1), (8, 8), (0x10, 4), (0x14, 4)] && decide (c.arg 0 1 ≤ 1) &&
    (if own then c.dlen == 32 else decide (36 ≤ c.dlen) && c.dlen % 4 == 0 && decide (c.dlen ≤ 4 * 2097152 + 32))) .invalidField <|
  if own then
    match namedSession c.part (c.arg 8 8) s with
    | .inl st => .fail st
    | .inr (i, x) =>
      objectsRead i (objectsBad s 1 [descObject s i x] ++ historyBad s i x 0 x.history.length) s <|
      need x.idle .sessionState <|
      runLookup c (sessionSlot s x (x.history.take (x.history.length - 1))) (capCommand x.handle 0x0301 c s)
  else
    match s.model? c.part (c.arg 8 8) with
    | none => .fail .noBinding
    | some m =>
      match adapterFor s c.part m.id (c.arg 0x10 4) (c.arg 0x14 4) with
      | .inl st => .fail st
      | .inr ver =>
        let b := c.buffer s
        let toks := (List.range ((c.dlen - 32) / 4)).map fun k => fieldAt b (4 * k) 4
        let d : PrefixId := { binding := m.id, adapter := c.arg 0x10 4, adapterVer := ver, profile := m.profileId, contract := m.contract }
        let h := hashesOf s c.part d toks
        runLookup c { part := c.part, ident := d, tokens := toks, hashes := h.map (·.1), wides := h.map (·.2), cands := [] } s

def execPrefixLookup (c : Cmd) (s : State) : Host.Outcome State Fault Refusal := .next (hostCmd 0x0301 c (prefixLookup c) s)

def nextMatch (c : Cmd) (s : State) : Res :=
  need (c.argsOk [(0, 4)] && c.dlen == 32) .invalidField <|
  match cursorSlot s c.part (c.arg 0 4) with
  | none => .fail .prefixStale
  | some (n, q) =>
    if s.pme.pendings.any (·.id == n) then .fail .pmeBusy
    else
      let p : Pending := { id := n, cmd := some c, q := { q with named := none, spare := none }, next := true }
      if !inSled s then
        let (p, s) := localNext p s
        .wait (settleLookup p s)
      else
        match q.hit with
        | none => .fail .prefixNoMore
        | some h =>
          let seg := (h.depth - 1) / 64
          let segs := (List.range (seg + 1)).reverse
          let s := putPending { p with segments := segs, returned := segs } s
          .wait (match q.spare with
            | some g =>
              let at_ := (g.depth - 1) / 64
              sledResult n at_ (some g) false (putPending { p with segments := (List.range (at_ + 1)).reverse, returned := segs } s)
            | none => s.emit (resolveFlit (ownPosition s) n seg))

def execNextMatch (c : Cmd) (s : State) : Host.Outcome State Fault Refusal := .next (hostCmd 0x0302 c (nextMatch c) s)

def prefixRelease (c : Cmd) (s : State) : Res :=
  need (c.argsOk [(0, 4)] && c.dlen == 0) .invalidField <|
  match cursorSlot s c.part (c.arg 0 4) with
  | none => .fail .prefixStale
  | some (n, _) => .done (modPme (fun m => { m with slots := tdel m.slots n }) s) {}

def execPrefixRelease (c : Cmd) (s : State) : Host.Outcome State Fault Refusal := .next (hostCmd 0x0304 c (prefixRelease c) s)

/-- LOOKUP_SLOT_TIMEOUT: a slot without a command under way is released (R226). -/
def execLookupSlotTimeout (slot : Nat) (s : State) : Host.Outcome State Fault Refusal :=
  .next (live (fun s => if s.pme.pendings.any (·.id == slot) then s else modPme (fun m => { m with slots := tdel m.slots slot }) s) s)

-- PREFIX_ATTACH and import (R229-R232)

/-- The columns from one up to depth 1. -/
def columnWalk (s : State) : Nat → Nat → List (Nat × Column)
  | 0, _ => []
  | n + 1, i =>
    match tget s.pme.columns i with
    | none => []
    | some c => (i, c) :: (if c.parentCol = 0 then [] else columnWalk s n c.parentCol)

/-- The FINAL of the capsule that published a column: a free value while it is not sealed, or no longer held. -/
def publishedFinal (c : Column) (s : State) : List Byte × State :=
  match (s.frc.ring4k ++ s.frc.staging).find? fun k => k.session == c.publisher && k.turn == c.pubTurn && k.sealed with
  | some k => (k.final, s)
  | none => s.freshBytes 64

/-- The attach itself (R229 steps 3 and 4), once its pages are at hand: `pages` gives map keys and handles that hold the session's
references already. -/
def attachPages (i op : Nat) (c : Cmd) (tokens : List Nat) (pages : List (Nat × Nat)) (publisher : Nat) (final : List Byte) (contents : List Nat)
    (s : State) : State :=
  match tget s.ssq.sessions i with
  | none => s
  | some x =>
    let s := commitEvent i .attached .ok (capCommand x.handle op c s)
    let d := contents.length
    let s := capRecord x.handle { type := 6, payload := leBytes 8 publisher ++ slice final 0 64 ++ leBytes 8 d ++ (contents.map (leBytes 8)).flatten } s
    let s := modSession i (fun x => { x with history := tokens.take (32 * d), kvLen := 32 * d, map := pages.foldl (fun m e => tset m e.1 e.2) x.map }) s
    let s := placeMap i s
    s.bump Ctr.pmeAttaches

/-- Move the entry of a cold hit back on chip (R238). -/
def warmEntry (q : Slot) (s : State) : State :=
  match q.named with
  | some c =>
    match c.place with
    | .cold _ _ _ =>
      let set := setOfAnchor (q.hashes.getD (c.entry.page / 64 * 64) 0)
      let quota := s.getF (Reg.pmePbQuotaEntries c.entry.part)
      if !candHolds s c || !bankOk s set || (quota != 0 && decide (quota ≤ usedEntries s c.entry.part)) then s
      else (insertEntry (q.hashes.getD (c.entry.page / 64 * 64) 0) c.entry (removeAt c.place s)).1
    | .way _ _ => s
  | none => s

/-- A fresh session may attach (R229). -/
def mayAttach (x : Session) : Bool := x.state == .opened && x.turn == 0 && x.kvLen == 0 && x.history.isEmpty

def attachLocal (c : Cmd) (n : Nat) (q : Slot) (h : PrefixHit) (i : Nat) (s : State) : Res :=
  let cols := columnWalk s h.depth h.column
  match cols.head? with
  | none => .fail .prefixStale
  | some (_, top) =>
    if top.gen ≠ h.gen ∨ top.page + 1 ≠ h.depth then .fail .prefixStale
    else if cols.any (·.2.dead) then
      .done (dropColumnsEntries [h.column] s) { status := .prefixStale }
    else if cols.length ≠ h.depth ∨ cols.any (·.2.bad) then .fail .prefixStale
    else
      let run := cols.reverse.foldl (fun (a : Option (State × List Nat)) (k : Nat × Column) =>
        a.bind fun (s, l) => (unfoldColumn k.1 s).map fun (j, s) => (s, l ++ [j])) (some (s, []))
      match run with
      | none => .fail .noPageRecord
      | some (s, ids) =>
        let cs := ids.filterMap fun j => tget s.pme.columns j
        let pages := (cs.map fun k => k.handles.zipIdx.map fun (e : Nat × Nat) => (mapKey e.2 k.page, e.1)).flatten
        match addRefs (pages.map (·.2)) s with
        | none => .fail .shareLimit
        | some s =>
          let s := warmEntry { q with named := q.named.map fun d => { d with entry := { d.entry with column := ids.getLast?.getD h.column } } } s
          let (final, s) := publishedFinal top s
          let s := modPme (fun m => { m with slots := tdel m.slots n }) s
          doneAt i (attachPages i 0x0303 c q.tokens pages top.publisher final (cs.map (·.content)) s) { result0 := h.depth }

/-- A hit on another device is attached by import (R231). What R230 tests of its columns and of the record limits follows with the data. -/
def attachImport (c : Cmd) (n : Nat) (q : Slot) (h : PrefixHit) (x : Session) (s : State) : Res :=
  let id := s.pme.nextId
  match systemRegion x.part (Config.bufferBase 1 id) (Config.bufferLength 1 id) s with
  | none => .fail .noRegion
  | some (r, s) =>
  let m : Import := { cmd := c, slot := n, session := x.handle, tokens := q.tokens.take (32 * h.depth), node := h.node, ident := q.ident, region := r }
  let s := modPme (fun p => { p with imports := tset p.imports id m, nextId := id + 1 }) s
  .wait (sendOwn { node := h.node, part := x.part, kind := "IMPORT", words := [id, h.node, x.part, h.column, h.gen, h.depth] } s)

def prefixAttach (c : Cmd) (s : State) : Res :=
  need (c.argsOk [(0, 8), (8, 4)] && c.dlen == 0) .invalidField <|
  onSession c s fun i x =>
    match cursorSlot s c.part (c.arg 8 4) with
    | none => .fail .prefixStale
    | some (n, q) =>
      match q.hit with
      | none => .fail .prefixNoMore
      | some h =>
        need (mayAttach x) .sessionState <|
        need (x.ident == q.ident) .bindingMismatch <|
        if h.node = s.node then attachLocal c n q h i s else attachImport c n q h x s

def execPrefixAttach (c : Cmd) (s : State) : Host.Outcome State Fault Refusal := .next (hostCmd 0x0303 c (prefixAttach c) s)

/-- Write an imported page into a new local one: the first tier with a slot for it; none without a record or a slot. Its CLASS is the
target class that the profile gives its page index (04 R122, R129), whatever class its header has. -/
def importPage (i layer page cls : Nat) (g : Geom) (part : Nat) (b : List Byte) (s : State) : Option (Nat × State) :=
  if !recordsAllowed s part 1 then none
  else
    let units := b.length / 4096
    (((List.range 4).findSome? fun k => (allocSlot s part k units ((layer + page + i) % 8)).map fun a => (k, a))).map fun (k, a) =>
      let (gen, s) := takeGen s
      let (h, s) := addRec { base := a, tier := k, cls := cls, sealed := true, forced := bit (fieldAt b 6 1) 2, slot4k := units, ref := 1,
                             part := part, gen := gen, layer := layer, page := page, geom := g } s
      (h, writeSlot k a b s)

/-- Place the pages of an import, by page index and layer. -/
def importPages (i layers : Nat) (profile : List (Nat × Nat)) (g : Geom) (part : Nat) (l : List (List Byte)) (s : State) : Option (State × List (Nat × Nat)) :=
  l.zipIdx.foldl (fun (a : Option (State × List (Nat × Nat))) (p : List Byte × Nat) =>
    a.bind fun (s, m) => (importPage i (p.2 % layers) (p.2 / layers) (profileClass profile (p.2 / layers)) g part p.1 s).map fun (h, s) =>
      (s, m ++ [(mapKey (p.2 % layers) (p.2 / layers), h)])) (some (s, []))

/-- The entry that named a hit whose column another device holds, or an ancestor of it, is DEAD (R230): it goes wherever in the sled it stands. A
forwarded hit was named in another sled. -/
def dropNamed (n : Nat) (s : State) : State :=
  match (tget s.pme.slots n).bind (·.hit) with
  | some h =>
    if h.fwd ≠ 0 then s
    else
      let s := dropWhere (fun e => e.home == h.home && e.column == h.column) s
      if inSled s then s.emit (.flit "DROP" [h.home, h.column] []) else s
  | none => s

/-- IMPORT_DONE: every page has been read, or the import failed (R231). -/
def importDone (id : Nat) (what : Option ImportData) (s : State) : State :=
  match tget s.pme.imports id with
  | none => s
  | some m =>
    let s := endSystem m.region (modPme (fun p => { p with imports := tdel p.imports id }) s)
    match namedSession m.cmd.part m.session s with
    | .inl st => complete m.cmd { status := st } s
    | .inr (i, x) =>
      match what, s.model? x.part x.model with
      | some d, some y =>
        let depth := m.tokens.length / 32
        if !mayAttach x then complete m.cmd { status := .sessionState } s
        else if x.ident ≠ m.ident then complete m.cmd { status := .bindingMismatch } s
        else if d.dead then complete m.cmd { status := .prefixStale } (dropNamed m.slot s)
        else if d.contents.length ≠ depth ∨ d.pages.length ≠ depth * y.layers ∨
            !(d.pages.all fun b => b.length == 4096 * y.geom.slot4k (fieldAt b 3 1)) then complete m.cmd { status := .prefixStale } s
        else
          match importPages i y.layers y.profile y.geom x.part d.pages s with
          | none => complete m.cmd { status := .noPageRecord } s
          | some (s, pages) =>
            let s := match cursorSlot s m.cmd.part (m.cmd.arg 8 4) with
              | some (n, _) => modPme (fun p => { p with slots := tdel p.slots n }) s
              | none => s
            let s := (attachPages i 0x0303 m.cmd m.tokens pages d.publisher d.final d.contents s).bump Ctr.pmeImports
            complete m.cmd { result0 := depth, seq := seqOf s i } s
      | _, _ => complete m.cmd { status := .prefixStale } s

def execImportDone (id : Nat) (what : Option ImportData) (s : State) : Host.Outcome State Fault Refusal := .next (live (importDone id what) s)

-- PREFIX_PUBLISH, PREFIX_REVOKE (R233, R246)

def prefixPublish (c : Cmd) (s : State) : Res :=
  need (c.argsOk [(0, 8), (8, 4)] && c.dlen == 0) .invalidField <|
  onSession c s fun i x =>
    need (!x.relaxed) .sessionState <|
    let (s, n) := publishSession i (c.arg 8 4) (capCommand x.handle 0x0305 c s)
    .done s { result0 := n }

def execPrefixPublish (c : Cmd) (s : State) : Host.Outcome State Fault Refusal := .next (hostCmd 0x0305 c (prefixPublish c) s)

def prefixRevoke (c : Cmd) (s : State) : Res :=
  let i := c.arg 0 4
  need (c.argsOk [(0, 4)] && c.dlen == 0) .invalidField <|
  match tget s.pme.columns i with
  | none => .fail .prefixStale
  | some k =>
    need (k.part == c.part) .prefixStale <|
    if k.dead then .done s {} else .done (killColumns (withDescendants s s.pme.columns.length [i]) s) {}

def execPrefixRevoke (c : Cmd) (s : State) : Host.Outcome State Fault Refusal := .next (hostCmd 0x0306 c (prefixRevoke c) s)

/-- PREFIX_PUBLICATION: the oldest run that a commit left for a session (R233). -/
def prefixPublication (session : Nat) (s : State) : State :=
  match tget s.ssq.sessions session with
  | none => s
  | some x =>
    match s.pme.toPublish.find? fun r => r.1 == x.handle with
    | none => s
    | some r => (publishSession session r.2 (modPme (fun p => { p with toPublish := p.toPublish.erase r }) s)).1

def execPrefixPublication (session : Nat) (s : State) : Host.Outcome State Fault Refusal := .next (live (prefixPublication session) s)

-- Upkeep (R217, R219, R239)

def execHoleMaintenance (set : Nat) (s : State) : Host.Outcome State Fault Refusal :=
  .next (live (fun s => if set < 16384 then maintainSet set s else s) s)

/-- HITS_AGEING: a bank that has had AGE.LOOKUPS lookups halves the HITS of its entries. -/
def hitsAgeing (bank : Nat) (s : State) : State :=
  if tgetD s.pme.probes bank 0 < s.getF Reg.pmeAgeLookups then s
  else modPme (fun p => { p with probes := tdel p.probes bank,
                                 entries := p.entries.map fun e => if bankOfSet (e.1 / 128) = bank then (e.1, { e.2 with hits := e.2.hits / 2 }) else e }) s

def execHitsAgeing (bank : Nat) (s : State) : Host.Outcome State Fault Refusal := .next (live (hitsAgeing bank) s)

/-- COLUMN_SWEEP: a sweep that is due; it ends SWEEP_COLUMNS. -/
def sweepDue (part : Nat) (s : State) : State :=
  if !s.pme.sweeps.contains part then s
  else
    let s := columnSweep part (modPme (fun p => { p with sweeps := p.sweeps.filter (· != part) }) s)
    if s.getF Reg.pmeSetOpOp = 5 ∧ s.getF Reg.pmeSetOpPartition = part then s.setF Reg.pmeSetOpStatBusy 0 else s

def execColumnSweep (part : Nat) (s : State) : Host.Outcome State Fault Refusal := .next (live (sweepDue part) s)

-- Members of a sled (R241, R242)

/-- A member leaves the cascade (R242); the lookups that it has in the sled end with its own set and cold index. -/
def isolate (s : State) : State :=
  if !inCascade s || s.flag Reg.pmeCascadeIsolated then s
  else
    let s := logEv .pmeCascadeIsolated pPme 0xFF [ownPosition s] (s.setF Reg.pmeCascadeIsolated 1)
    let open_ := s.pme.pendings.filter fun p => !p.forwarded
    open_.foldl (fun s p => localLookup { p with segments := [] } (dropPending p.id s)) (modPme (fun m => { m with frames := [], sled := [] }) s)

/-- A query as a message from another device carries it. -/
def queryFrom (part session : Nat) (hashes wides tokens : List Nat) : Slot :=
  { part := part, session := session, ident := { binding := 0, adapter := 0, adapterVer := 0, profile := 0, contract := 0 }, tokens := tokens,
    hashes := hashes, wides := wides, cands := [] }

/-- CASCADE_LOOKUP: a segment's message reaches a member, or comes back to its origin, which then resolves. -/
def cascadeLookup (origin id segment part session : Nat) (hashes wides tokens : List Nat) (s : State) : State :=
  if !inCascade s then s
  else if origin = ownPosition s then
    match s.pme.pendings.find? fun p => p.id == id && !p.returned.contains segment with
    | none => s
    | some p =>
      let s := putPending { p with returned := p.returned ++ [segment] } s
      if p.segments.head? = some segment ∧ !p.forwarded ∧ !p.next then s.emit (resolveFlit origin id segment) else s
  else
    let q := queryFrom part session hashes wides tokens
    let s := s.emit (lookupFlit origin id segment q)
    if inSled s then memberCompare origin id segment q s else s

def execCascadeLookup (origin id segment part session : Nat) (hashes wides tokens : List Nat) (s : State) : Host.Outcome State Fault Refusal :=
  .next (live (cascadeLookup origin id segment part session hashes wides tokens) s)

/-- RESOLVE: the flit goes on round the ring; member 0 queues its frame. -/
def resolveRow (origin id segment : Nat) (s : State) : State :=
  if !inCascade s then s
  else
    let s := if origin = ownPosition s then s else s.emit (resolveFlit origin id segment)
    if ownPosition s = 0 ∧ inSled s then modPme (fun m => { m with frames := m.frames ++ [(origin, id, segment)] }) s else s

def execResolve (origin id segment : Nat) (s : State) : Host.Outcome State Fault Refusal := .next (live (resolveRow origin id segment) s)

/-- The winner of a frame verifies its candidate, whose column its HOME device may hold. -/
def verifySled (q : Slot) (c : Cand) (column : Option RemoteColumn) (s : State) : State × Option PrefixHit :=
  if !candHolds s c then (s, none)
  else if c.entry.home = ownHome s then verifyCand q c s
  else verifyRemote q c column s

/-- Send the answer of a frame to its origin, which may be this member. -/
def sledAnswer (origin id segment : Nat) (hit : Option PrefixHit) (multi : Bool) (s : State) : State :=
  if origin = ownPosition s then sledResult id segment hit multi s
  else s.emit (.flit "RESULT" ([origin, id, segment, if multi then 1 else 0] ++ hitWords hit) [])
def sledReject (origin id segment : Nat) (s : State) : State :=
  if origin = ownPosition s then s.emit (resolveFlit origin id segment) else s.emit (.flit "REJECT" [origin, id, segment] [])

/-- MATCH_FRAME: a frame passes this member (R241 phases 5 and 6). The last member answers for a frame that nobody wins. -/
def matchFrame (origin id segment : Nat) (hitIn : Bool) (column : Option RemoteColumn) (s : State) : State :=
  if !inCascade s then s
  else if !inSled s then s.emit (.matchOut [0, 0])
  else if ownPosition s = 0 ∧ s.pme.frames.head? ≠ some (origin, id, segment) then s
  else
    let first := ownPosition s == 0
    let s := if first then modPme (fun m => { m with frames := m.frames.tail }) s else s
    let s := s.bump Ctr.pmeCascadeFrames
    let hitIn := hitIn && !first
    let mine := s.pme.sled.find? fun x => x.origin == origin && x.id == id && x.segment == segment
    match mine.bind fun x => (x.q.cands.head?).map fun c => (x, c) with
    | none =>
      let s := s.emit (.matchOut [1, if hitIn then 1 else 0])
      if !hitIn && ownPosition s + 1 == s.getF Reg.pmeCascadeMembers then sledAnswer origin id segment none false s else s
    | some (x, c) =>
      let s := s.emit (.matchOut [1, 1])
      if hitIn then s
      else
        let rest := x.q.cands.tail
        let s := modPme (fun m => { m with sled := m.sled.map fun y => if y = x then { x with q := { x.q with cands := rest } } else y }) s
        match verifySled x.q c column s with
        | (s, some h) => sledAnswer origin id segment (some h) (rest.any fun d => d.entry.page + 1 == h.depth) (countHit c s)
        | (s, none) => sledReject origin id segment s

def execMatchFrame (origin id segment : Nat) (hitIn : Bool) (column : Option RemoteColumn) (s : State) : Host.Outcome State Fault Refusal :=
  .next (live (matchFrame origin id segment hitIn column) s)

/-- CASCADE_RESULT: a segment's result reaches this origin. -/
def execCascadeResult (id segment : Nat) (hit : Option PrefixHit) (multi : Bool) (s : State) : Host.Outcome State Fault Refusal :=
  .next (live (fun s => if inSled s then sledResult id segment hit multi s else s) s)

/-- CASCADE_REJECT: the origin sends a new RESOLVE. -/
def cascadeReject (id segment : Nat) (s : State) : State :=
  if inSled s && s.pme.pendings.any (fun p => p.id == id && !p.forwarded && p.segments.head? == some segment) then
    s.emit (resolveFlit (ownPosition s) id segment)
  else s

def execCascadeReject (id segment : Nat) (s : State) : Host.Outcome State Fault Refusal := .next (live (cascadeReject id segment) s)

/-- CASCADE_MOVE: what a flit brings to this member's set (R240, R243). An isolated member receives no moves (R242). -/
def cascadeMove (set : Nat) (what : EntryMove) (s : State) : State :=
  if !inSled s ∨ 16384 ≤ set then s
  else
    match what with
    | .put e mirror n =>
      let s := markAway e false s
      if bankOk s set then chipInsert n set e mirror s else if mirror then s else (toCold e s).1
    | .drop home column => dropWhere (fun e => e.home == home && e.column == column) s
    | .mateDrop home column => modPme (fun p => { p with entries := p.entries.filter fun x => !(x.2.home == home && x.2.column == column) }) s
    | .mateHit home column => modPme (fun p => { p with entries := p.entries.map fun x =>
        if x.2.home = home ∧ x.2.column = column then (x.1, { x.2 with hits := min 15 (x.2.hits + 1) }) else x }) s
    | .wayMatch origin id segment ways => modPme (fun p => { p with sled := p.sled.map fun (x : SledQuery) =>
        if x.origin = origin ∧ x.id = id ∧ x.segment = segment then { x with q := { x.q with cands := x.q.cands.filter fun c => match c.place with
          | .way _ w => ways.getLsbD w
          | .cold _ _ _ => false } } else x }) s
    | .lost column =>
      match tget s.pme.columns column with
      | some c => if c.away then modPme (fun p => { p with columns := tset p.columns column { c with away := false }
                                                           sweeps := if p.sweeps.contains c.part then p.sweeps else p.sweeps ++ [c.part] }) s else s
      | none => s
    | .gone column => if ((tget s.pme.columns column).map (·.away)).getD false then unhold column (markAway { tag := 0, column := column, page := 0, part := 0, home := ownHome s } false s) else s

def execCascadeMove (set : Nat) (what : EntryMove) (s : State) : Host.Outcome State Fault Refusal := .next (live (cascadeMove set what) s)

/-- A match line that the filter masks (15 R507, R508). -/
def maskMatchIn (s : State) : State := logEv .mgcPinMasked pMgc 0xFF [2] (s.setF (Reg.mgcPinMasked 2) 1)

/-- MATCH_IN_STUCK: MATCH_IN stays asserted 1,200 cycles (R508). Member 0 ignores the line. -/
def matchInStuck (s : State) : State :=
  if !inSled s || ownPosition s == 0 then s else isolate (maskMatchIn (s.satAdd (Reg.mgcPinStuck 2) 1))

def execMatchInStuck (s : State) : Host.Outcome State Fault Refusal := .next (live matchInStuck s)

/-- MATCH_IN_VIOLATION: one violation of R508, the last of `recent` within 2^20 cycles. -/
def matchInViolation (recent : Nat) (s : State) : State :=
  if !inSled s || ownPosition s == 0 then s
  else
    let s := s.satAdd (Reg.mgcPinDropped 2) 1
    if 16 ≤ recent then isolate (maskMatchIn s) else s

def execMatchInViolation (recent : Nat) (s : State) : Host.Outcome State Fault Refusal := .next (live (matchInViolation recent) s)

/-- CASCADE_NEIGHBOUR_LINK_FAIL and CASCADE_LOCK_TIMEOUT (R242, 15 R494). -/
def execCascadeNeighbourLinkFail (s : State) : Host.Outcome State Fault Refusal := .next (live isolate s)
def execCascadeLockTimeout (s : State) : Host.Outcome State Fault Refusal := .next (live isolate s)

-- Forwarding (R244, R245)

/-- What the fabric brings reaches the prefix store only once the node is assigned (10 R315). -/
def assigned (f : State → State) (s : State) : State := if s.nodeValid then f s else s.bump Ctr.xfeNotAssigned

/-- A forwarded lookup from outside the partition's trust group is a protection violation (R244, 11 R369): the event, and NAK reason 6 with
the subreason of the peer entry's check; its MSG_SEQ is the message's number, and the offending header, of which the row gives no bytes, is
zero (DESIGN CHOICE, log 76). -/
def fwdRefused (node id part : Nat) (s : State) : State :=
  let s := logFull .xfeAccessViolation pXfe 0 part 2 0 [node, id, part, 5] (s.bump Ctr.xfeAccessNaksSent)
  sendCtlTo node none none { op := 0x71, dst := node, src := s.node, seq := id } (leBytes 1 6 ++ leBytes 1 5 ++ zeros 70) (s.bump Ctr.xfeNaksSent)

/-- FWD_LOOKUP: a lookup of partition `part` forwarded by a node reaches this parent, with its hop count. -/
def fwdLookup (node id part hops : Nat) (hashes wides tokens : List Nat) (s : State) : State :=
  if ((governing s part node part).map entryKind) ≠ some 1 then fwdRefused node id part s
  else
    let n := s.pme.nextId
    let s := modPme (fun p => { p with nextId := n + 1 }) (s.bump Ctr.pmeLookups)
    startLookup { id := n, from_ := some { node := node, id := id }, q := queryFrom part 0 hashes wides tokens, hops := hops } s

def execFwdLookup (node id part hops _depth : Nat) (hashes wides tokens : List Nat) (s : State) : Host.Outcome State Fault Refusal :=
  .next (live (assigned (fwdLookup node id part hops hashes wides tokens)) s)

/-- FWD_ANSWER: the answer to the forwarded message of this number replaces the local result if it gains MIN_GAIN pages; a late one, whose
message no lookup waits for any more, is discarded. -/
def fwdAnswer (id : Nat) (hit : Option PrefixHit) (s : State) : State :=
  match s.pme.pendings.find? fun p => p.fwdId == id && p.forwarded with
  | none => s
  | some p =>
    match hit with
    | some h =>
      if depthOf p.best + s.getF Reg.pmeFwdMinGain ≤ h.depth then
        let q := { p.q with cands := p.q.named.toList ++ p.q.cands, named := none, spare := if p.q.named.isNone then p.best else p.q.spare }
        answerLookup { p with q := q, best := some { h with fwd := 1 }, multi := false } 1 s
      else answerLookup p 0 s
    | none => answerLookup p 0 s

def execFwdAnswer (id : Nat) (hit : Option PrefixHit) (s : State) : Host.Outcome State Fault Refusal :=
  .next (live (assigned (fwdAnswer id hit)) s)

/-- FWD_TIMEOUT: the local result is returned. -/
def fwdTimeout (id : Nat) (s : State) : State :=
  match s.pme.pendings.find? fun p => p.fwdId == id && p.forwarded with
  | none => s
  | some p => answerLookup p 2 (logEv .pmeFwdTimeout pPme p.q.part [s.getF Reg.pmeFwdParentNode, depthOf p.best] (s.bump Ctr.pmeFwdTimeouts))

def execFwdTimeout (id : Nat) (s : State) : Host.Outcome State Fault Refusal := .next (live (fwdTimeout id) s)

-- Expert set operations (16 R517)

/-- The two words of an on-chip entry (R214); the odd member of a width pair stores the wide tag (R243). -/
def entryWord (odd : Bool) (e : PmeEntry) (i : Nat) : Nat :=
  if i = 0 then (if odd then e.tagHi else e.tag)
  else e.column + e.page * 2 ^ 32 + e.part * 2 ^ 48 + e.hits * 2 ^ 52 + e.home * 2 ^ 56 + (if e.priv then 2 ^ 59 else 0) + 2 ^ 60

/-- Start an operation through SET_OP unless one is in progress. -/
def setOp (op set way part : Nat) (act : State → State) (s : State) : State :=
  if s.flag Reg.pmeSetOpStatBusy then s
  else act ((((s.setF Reg.pmeSetOpSet set).setF Reg.pmeSetOpWay way).setF Reg.pmeSetOpPartition part).setF Reg.pmeSetOpOp op)

/-- An operation on one way. -/
def wayOp (op from_ set way : Nat) (act : PmeEntry → State → State) (s : State) : State :=
  if !s.expertOpen pPme from_ ∨ 16384 ≤ set ∨ 128 ≤ way then s
  else setOp op set way (s.getF Reg.pmeSetOpPartition) (fun s =>
    if !bankOk s set then s.setF Reg.pmeSetOpStatStatus 3
    else
      match tget s.pme.entries (set * 128 + way) with
      | none => s.setF Reg.pmeSetOpStatStatus 1
      | some e => if !s.expertObject pPme from_ e.part then s.setF Reg.pmeSetOpStatStatus 2 else act e (s.setF Reg.pmeSetOpStatStatus 0)) s

def execPmeReadEntry (from_ set way : Nat) (s : State) : Host.Outcome State Fault Refusal :=
  .next (countIo from_ (wayOp 1 from_ set way (fun e s =>
    let odd := s.getF Reg.pmeCascadeMode == 2 && ownPosition s % 2 == 1
    (s.setF (Reg.pmeEntryData 0) (entryWord odd e 0)).setF (Reg.pmeEntryData 1) (entryWord odd e 1)) s))

def execDropEntry (from_ set way : Nat) (s : State) : Host.Outcome State Fault Refusal :=
  .next (countIo from_ (live (wayOp 2 from_ set way fun _ s => dropAt (.way set way) s) s))

/-- A bank is mapped out (R225): its sets hold no entries. -/
def mapOutBank (bank : Nat) (s : State) : State :=
  let s := s.setF Reg.pmeGeomBanksOk (clrBit (s.getF Reg.pmeGeomBanksOk) bank)
  let mine := (s.pme.entries.filter fun e => bankOfSet (e.1 / 128) == bank).map (·.2)
  let s := modPme (fun p => { p with entries := p.entries.filter fun e => bankOfSet (e.1 / 128) != bank }) s
  logEv .pmeBankMappedOut pPme 0xFF [bank] (mine.foldl (fun s e => mateDrop e (entryGone e s)) s)

/-- An operation on the bank of a set, which names no partition. -/
def bankOp (op from_ set : Nat) (act : Nat → State → State) (s : State) : State :=
  if !s.expertDevice pPme from_ ∨ 16384 ≤ set then s
  else setOp op set (s.getF Reg.pmeSetOpWay) (s.getF Reg.pmeSetOpPartition) (fun s =>
    if !bankOk s set then s.setF Reg.pmeSetOpStatStatus 3 else act (bankOfSet set) (s.setF Reg.pmeSetOpStatStatus 0)) s

/-- The unit of a bank's self-test. -/
def bankUnit (bank : Nat) : Resource := ⟨pPme, 5, bank⟩

/-- BANK_TEST: start the bank's test (14 R455); SELFTEST_DONE ends the operation. -/
def execBankTest (from_ set : Nat) (s : State) : Host.Outcome State Fault Refusal :=
  .next (countIo from_ (live (bankOp 3 from_ set fun b s =>
    if underTest s (bankUnit b) then s
    else
      let t : SelfTest := { unit := bankUnit b }
      ((s.setFrc { s.frc with tests := s.frc.tests ++ [t] }).setF Reg.pmeSetOpStatBusy 1).bump Ctr.frcSelftestsRun) s))

def execMapOutBank (from_ set : Nat) (s : State) : Host.Outcome State Fault Refusal := .next (countIo from_ (live (bankOp 4 from_ set mapOutBank) s))

/-- SWEEP_COLUMNS: a sweep of a partition's columns is due (R239). -/
def execSweepColumns (from_ part : Nat) (s : State) : Host.Outcome State Fault Refusal :=
  .next (countIo from_ (live (fun s =>
    if !s.expertOpen pPme from_ ∨ 16 ≤ part then s
    else setOp 5 (s.getF Reg.pmeSetOpSet) (s.getF Reg.pmeSetOpWay) part (fun s =>
      if !s.expertObject pPme from_ part then s.setF Reg.pmeSetOpStatStatus 2
      else modPme (fun p => { p with sweeps := if p.sweeps.contains part then p.sweeps else p.sweeps ++ [part] })
        ((s.setF Reg.pmeSetOpStatStatus 0).setF Reg.pmeSetOpStatBusy 1)) s) s))

end Sys2Proof.Machine
end

