-- ==== Sys2Proof/Machine/RegMap.lean ====
section
/-!
DEFINITION. Machine/RegMap.lean: the register tables of the chapters as data, the access rules of registers (00 R11-R13,
16 R510-R518, R533, 01 R34), the effect of REGISTER_WRITE, and the bytes of a partition bank that CONFIG_MEAS measures
(13 R421).
-/
set_option cleanup.letToHave false
namespace Sys2Proof.Machine

open Sys2Proof

/-- Who may write a field: nobody; function 0; function 0 or I3C (15, MGC page); I3C alone while every partition is
UNCONFIGURED (12); function 0 while every partition is UNCONFIGURED (07, 10); a function to which the expert window is open,
or function 0 alone (R516, R517); function 0 or I3C while the bank's partition is CONFIGURED (R533), its function and
function 0 at any time, its function alone; a field whose write has a command of its own. -/
inductive Wr where
  | ro | fn0 | mgc | mgmt | unconf | expert | expertDev | bank | bankAny | bankP | own
deriving DecidableEq, Repr

/-- The encodings a field lists (00 R13), where not all of them; the named ones depend on another field of the register. -/
inductive Chk where
  | any
  | range (min max : Nat)
  | members | not1 | rtoMax | wMin | routeLast | evEntries | selftestKind
deriving DecidableEq, Repr

/-- One row of a register table: word offset in BAR0 (of partition 0, or in the page for the common header), lowest bit,
width, reset value, two array dimensions as count and stride, whether it lies in a partition bank, whether its reset value
is "fw", whether it is W1C, who writes it, and what it accepts. -/
structure RegRow where
  base : Nat
  lo : Nat
  width : Nat
  rst : Nat
  c1 : Nat
  s1 : Nat
  c2 : Nat
  s2 : Nat
  bank : Bool
  fw : Bool
  w1c : Bool
  wr : Wr
  chk : Chk
deriving DecidableEq, Repr

def mapHif : List RegRow :=
  [⟨0x100, 0, 1, 0, 1, 0, 1, 0, false, false, false, .ro, .any⟩,
   ⟨0x100, 1, 4, 0, 1, 0, 1, 0, false, false, false, .ro, .any⟩,
   ⟨0x100, 5, 1, 0, 1, 0, 1, 0, false, false, false, .ro, .any⟩,
   ⟨0x100, 16, 16, 0, 1, 0, 1, 0, false, false, false, .ro, .any⟩,
   ⟨0x108, 0, 4, 0, 1, 0, 1, 0, false, false, false, .mgmt, .any⟩,
   ⟨0x110, 12, 52, 0, 1, 0, 1, 0, false, false, false, .fn0, .any⟩,
   ⟨0x118, 12, 52, 0, 1, 0, 1, 0, false, false, false, .fn0, .any⟩,
   ⟨0x120, 0, 16, 0, 1, 0, 1, 0, false, false, false, .own, .any⟩,
   ⟨0x120, 16, 16, 0, 1, 0, 1, 0, false, false, false, .own, .any⟩,
   ⟨0x120, 32, 1, 0, 1, 0, 1, 0, false, false, false, .own, .any⟩,
   ⟨0xC000, 0, 4, 0, 1, 0, 1, 0, true, false, false, .bank, .any⟩,
   ⟨0xC000, 4, 1, 0, 1, 0, 1, 0, true, false, false, .ro, .any⟩,
   ⟨0xC008, 12, 52, 0, 1, 0, 1, 0, true, false, false, .bankP, .any⟩,
   ⟨0xC010, 12, 52, 0, 1, 0, 1, 0, true, false, false, .bankP, .any⟩,
   ⟨0xC018, 0, 16, 0, 1, 0, 1, 0, true, false, false, .own, .range 2 4096⟩,
   ⟨0xC018, 16, 16, 0, 1, 0, 1, 0, true, false, false, .own, .range 2 4096⟩,
   ⟨0xC018, 32, 1, 0, 1, 0, 1, 0, true, false, false, .own, .any⟩,
   ⟨0xC020, 0, 64, 0, 1, 0, 1, 0, true, false, false, .ro, .any⟩,
   ⟨0xC028, 0, 64, 0, 1, 0, 1, 0, true, false, false, .ro, .any⟩,
   ⟨0xC030, 0, 13, 0, 1, 0, 1, 0, true, false, false, .ro, .any⟩,
   ⟨0xC030, 32, 16, 0, 1, 0, 1, 0, true, false, false, .ro, .any⟩]

def mapSsq : List RegRow :=
  [⟨0x10100, 0, 64, 0, 1, 0, 1, 0, false, false, false, .own, .any⟩,
   ⟨0x10108, 0, 32, 86400, 1, 0, 1, 0, false, false, false, .fn0, .any⟩,
   ⟨0x10110, 0, 32, 2000000, 1, 0, 1, 0, false, false, false, .fn0, .range 1000 60000000⟩,
   ⟨0x11000, 0, 4, 0, 256, 32, 1, 0, false, false, false, .own, .any⟩,
   ⟨0x11000, 4, 1, 0, 256, 32, 1, 0, false, false, false, .own, .any⟩,
   ⟨0x11000, 8, 4, 2, 256, 32, 1, 0, false, false, false, .own, .any⟩,
   ⟨0x11000, 16, 8, 0, 256, 32, 1, 0, false, false, false, .own, .any⟩,
   ⟨0x11000, 24, 4, 0, 256, 32, 1, 0, false, false, false, .own, .any⟩,
   ⟨0x11008, 0, 32, 0, 256, 32, 1, 0, false, false, false, .ro, .any⟩,
   ⟨0x11008, 32, 8, 0, 256, 32, 1, 0, false, false, false, .ro, .any⟩,
   ⟨0x11008, 40, 1, 0, 256, 32, 1, 0, false, false, false, .ro, .any⟩,
   ⟨0x11010, 0, 8, 0, 256, 32, 1, 0, false, false, false, .ro, .any⟩,
   ⟨0x11010, 8, 1, 0, 256, 32, 1, 0, false, false, false, .own, .any⟩,
   ⟨0x11018, 0, 32, 0, 256, 32, 1, 0, false, false, false, .ro, .any⟩,
   ⟨0x11018, 32, 16, 0, 256, 32, 1, 0, false, false, false, .ro, .any⟩,
   ⟨0x1C000, 0, 32, 0, 1, 0, 1, 0, true, false, false, .bank, .any⟩,
   ⟨0x1C000, 32, 32, 0, 1, 0, 1, 0, true, false, false, .bank, .any⟩,
   ⟨0x1C008, 0, 32, 0, 1, 0, 1, 0, true, false, false, .bank, .any⟩,
   ⟨0x1C008, 32, 32, 0, 1, 0, 1, 0, true, false, false, .bank, .any⟩,
   ⟨0x1C010, 0, 16, 1070, 1, 0, 1, 0, true, false, false, .bank, .any⟩,
   ⟨0x1C010, 32, 16, 230, 1, 0, 1, 0, true, false, false, .bank, .any⟩,
   ⟨0x1C018, 0, 16, 200, 1, 0, 1, 0, true, false, false, .bank, .any⟩,
   ⟨0x1C018, 32, 16, 1024, 1, 0, 1, 0, true, false, false, .bank, .range 1 4096⟩,
   ⟨0x1C018, 48, 8, 0, 1, 0, 1, 0, true, false, false, .bank, .any⟩,
   ⟨0x1C018, 56, 8, 0, 1, 0, 1, 0, true, false, false, .bank, .any⟩,
   ⟨0x1C020, 0, 16, 0, 1, 0, 1, 0, true, false, false, .ro, .any⟩,
   ⟨0x1C020, 16, 16, 0, 1, 0, 1, 0, true, false, false, .ro, .any⟩,
   ⟨0x1C020, 32, 32, 86400, 1, 0, 1, 0, true, false, false, .bank, .any⟩,
   ⟨0x1C028, 0, 32, 2592000, 1, 0, 1, 0, true, false, false, .bank, .any⟩,
   ⟨0x1C030, 0, 2, 0, 4, 8, 1, 0, true, false, false, .bank, .any⟩,
   ⟨0x1C030, 2, 1, 1, 1, 0, 1, 0, true, false, false, .bank, .any⟩,
   ⟨0x1C038, 2, 1, 0, 3, 8, 1, 0, true, false, false, .bank, .any⟩,
   ⟨0x1C030, 32, 32, 4294967295, 4, 8, 1, 0, true, false, false, .bank, .any⟩]

def mapHrc : List RegRow :=
  [⟨0x20100, 0, 32, 10000, 1, 0, 1, 0, false, false, false, .fn0, .range 100 10000000⟩,
   ⟨0x20108, 0, 16, 3200, 1, 0, 1, 0, false, false, false, .fn0, .any⟩,
   ⟨0x20108, 16, 16, 20, 1, 0, 1, 0, false, false, false, .fn0, .any⟩,
   ⟨0x20108, 32, 16, 150, 1, 0, 1, 0, false, false, false, .fn0, .any⟩,
   ⟨0x21000, 0, 5, 0, 256, 8, 1, 0, false, false, false, .ro, .any⟩,
   ⟨0x21000, 8, 32, 0, 256, 8, 1, 0, false, false, false, .ro, .any⟩,
   ⟨0x2C000, 0, 1, 0, 1, 0, 1, 0, true, false, false, .bank, .any⟩,
   ⟨0x2C000, 16, 16, 4, 1, 0, 1, 0, true, false, false, .bank, .range 0 4096⟩,
   ⟨0x2C000, 32, 32, 0, 1, 0, 1, 0, true, false, false, .ro, .any⟩,
   ⟨0x2C008, 0, 16, 0, 1, 0, 1, 0, true, false, false, .ro, .any⟩,
   ⟨0x2C008, 16, 16, 0, 1, 0, 1, 0, true, false, false, .ro, .any⟩,
   ⟨0x2C008, 32, 16, 0, 1, 0, 1, 0, true, false, false, .ro, .any⟩]

def mapTmg : List RegRow :=
  [⟨0x30100, 0, 52, 0, 1, 0, 1, 0, false, true, false, .ro, .any⟩,
   ⟨0x30108, 0, 32, 0, 1, 0, 1, 0, false, true, false, .ro, .any⟩,
   ⟨0x30108, 32, 32, 0, 1, 0, 1, 0, false, true, false, .ro, .any⟩,
   ⟨0x30110, 0, 64, 1, 1, 0, 1, 0, false, false, false, .ro, .any⟩,
   ⟨0x30118, 0, 32, 1048576, 1, 0, 1, 0, false, false, false, .fn0, .range 1024 4294967295⟩,
   ⟨0x30118, 32, 1, 0, 1, 0, 1, 0, false, false, false, .ro, .any⟩,
   ⟨0x30120, 0, 8, 48, 1, 0, 1, 0, false, false, false, .fn0, .any⟩,
   ⟨0x30120, 8, 8, 16, 1, 0, 1, 0, false, false, false, .fn0, .any⟩,
   ⟨0x30120, 16, 8, 92, 1, 0, 1, 0, false, false, false, .fn0, .any⟩,
   ⟨0x30120, 24, 8, 88, 1, 0, 1, 0, false, false, false, .fn0, .any⟩,
   ⟨0x30120, 32, 1, 1, 1, 0, 1, 0, false, false, false, .fn0, .any⟩,
   ⟨0x30140, 0, 40, 0, 4, 8, 1, 0, false, true, false, .ro, .any⟩,
   ⟨0x30140, 40, 1, 0, 4, 8, 1, 0, false, true, false, .ro, .any⟩,
   ⟨0x30140, 41, 1, 0, 4, 8, 1, 0, false, false, false, .ro, .any⟩,
   ⟨0x31000, 0, 32, 0, 1, 0, 1, 0, false, false, false, .expert, .any⟩,
   ⟨0x31000, 32, 4, 0, 1, 0, 1, 0, false, false, false, .expert, .range 1 4⟩,
   ⟨0x31008, 0, 1, 0, 1, 0, 1, 0, false, false, false, .ro, .any⟩,
   ⟨0x31008, 8, 8, 0, 1, 0, 1, 0, false, false, false, .ro, .any⟩,
   ⟨0x31010, 0, 22, 0, 1, 0, 1, 0, false, false, false, .expert, .any⟩,
   ⟨0x31010, 32, 8, 0, 1, 0, 1, 0, false, false, false, .expert, .any⟩,
   ⟨0x31010, 40, 16, 0, 1, 0, 1, 0, false, false, false, .expert, .any⟩,
   ⟨0x31020, 0, 64, 0, 4, 8, 1, 0, false, false, false, .ro, .any⟩,
   ⟨0x31040, 0, 64, 0, 8, 8, 1, 0, false, false, false, .ro, .any⟩,
   ⟨0x3C000, 0, 32, 0, 1, 0, 1, 0, true, false, false, .bank, .any⟩,
   ⟨0x3C008, 0, 32, 0, 1, 0, 1, 0, true, false, false, .ro, .any⟩,
   ⟨0x3C010, 0, 32, 0, 4, 8, 1, 0, true, false, false, .bank, .any⟩,
   ⟨0x3C010, 32, 32, 0, 4, 8, 1, 0, true, false, false, .ro, .any⟩,
   ⟨0x3C030, 0, 40, 0, 4, 8, 1, 0, true, true, false, .ro, .any⟩,
   ⟨0x3C050, 0, 40, 0, 4, 8, 1, 0, true, true, false, .ro, .any⟩]

def mapPme : List RegRow :=
  [⟨0x40100, 0, 16, 16384, 1, 0, 1, 0, false, false, false, .ro, .any⟩,
   ⟨0x40100, 16, 8, 128, 1, 0, 1, 0, false, false, false, .ro, .any⟩,
   ⟨0x40100, 24, 16, 0, 1, 0, 1, 0, false, true, false, .ro, .any⟩,
   ⟨0x40108, 0, 2, 0, 1, 0, 1, 0, false, false, false, .unconf, .range 0 2⟩,
   ⟨0x40108, 2, 3, 0, 1, 0, 1, 0, false, true, false, .ro, .any⟩,
   ⟨0x40108, 5, 4, 1, 1, 0, 1, 0, false, false, false, .unconf, .members⟩,
   ⟨0x40108, 9, 1, 0, 1, 0, 1, 0, false, false, false, .ro, .any⟩,
   ⟨0x40110, 0, 52, 0, 1, 0, 1, 0, false, true, false, .ro, .any⟩,
   ⟨0x40118, 0, 32, 0, 1, 0, 1, 0, false, true, false, .ro, .any⟩,
   ⟨0x40118, 32, 32, 0, 1, 0, 1, 0, false, true, false, .ro, .any⟩,
   ⟨0x40120, 0, 32, 0, 1, 0, 1, 0, false, true, false, .ro, .any⟩,
   ⟨0x40120, 32, 32, 0, 1, 0, 1, 0, false, true, false, .ro, .any⟩,
   ⟨0x40128, 0, 17, 0, 1, 0, 1, 0, false, false, false, .fn0, .any⟩,
   ⟨0x40128, 17, 1, 0, 1, 0, 1, 0, false, false, false, .fn0, .any⟩,
   ⟨0x40128, 18, 3, 2, 1, 0, 1, 0, false, false, false, .fn0, .range 1 7⟩,
   ⟨0x40128, 32, 16, 1, 1, 0, 1, 0, false, false, false, .fn0, .range 1 65535⟩,
   ⟨0x40130, 0, 32, 200, 1, 0, 1, 0, false, false, false, .fn0, .range 10 100000⟩,
   ⟨0x40138, 0, 32, 65536, 1, 0, 1, 0, false, false, false, .fn0, .range 1024 4294967295⟩,
   ⟨0x40140, 0, 32, 1000000, 1, 0, 1, 0, false, false, false, .fn0, .range 1000 60000000⟩,
   ⟨0x41000, 0, 14, 0, 1, 0, 1, 0, false, false, false, .expert, .any⟩,
   ⟨0x41000, 14, 7, 0, 1, 0, 1, 0, false, false, false, .expert, .any⟩,
   ⟨0x41000, 21, 3, 0, 1, 0, 1, 0, false, false, false, .expert, .range 1 5⟩,
   ⟨0x41000, 24, 4, 0, 1, 0, 1, 0, false, false, false, .expert, .any⟩,
   ⟨0x41008, 0, 1, 0, 1, 0, 1, 0, false, false, false, .ro, .any⟩,
   ⟨0x41008, 8, 8, 0, 1, 0, 1, 0, false, false, false, .ro, .any⟩,
   ⟨0x41010, 0, 64, 0, 2, 8, 1, 0, false, false, false, .ro, .any⟩,
   ⟨0x4C000, 0, 2, 0, 1, 0, 1, 0, true, false, false, .bank, .range 0 2⟩,
   ⟨0x4C000, 2, 1, 1, 1, 0, 1, 0, true, false, false, .bank, .any⟩,
   ⟨0x4C000, 3, 1, 0, 1, 0, 1, 0, true, false, false, .bank, .any⟩,
   ⟨0x4C008, 0, 32, 0, 1, 0, 1, 0, true, false, false, .bank, .any⟩,
   ⟨0x4C008, 32, 32, 0, 1, 0, 1, 0, true, false, false, .bank, .any⟩,
   ⟨0x4C010, 0, 32, 0, 1, 0, 1, 0, true, false, false, .ro, .any⟩,
   ⟨0x4C010, 32, 32, 0, 1, 0, 1, 0, true, false, false, .ro, .any⟩,
   ⟨0x4C018, 0, 64, 0, 1, 0, 1, 0, true, false, false, .bank, .any⟩,
   ⟨0x4C020, 0, 64, 0, 1, 0, 1, 0, true, false, false, .bank, .any⟩]

def mapXfe : List RegRow :=
  [⟨0x50100, 0, 1, 1, 8, 8, 1, 0, false, false, false, .own, .any⟩,
   ⟨0x50100, 1, 3, 0, 8, 8, 1, 0, false, false, false, .ro, .any⟩,
   ⟨0x50100, 4, 2, 0, 8, 8, 1, 0, false, false, false, .ro, .any⟩,
   ⟨0x50100, 6, 2, 0, 8, 8, 1, 0, false, false, false, .ro, .any⟩,
   ⟨0x50100, 8, 8, 0, 8, 8, 1, 0, false, false, false, .ro, .any⟩,
   ⟨0x50100, 16, 1, 0, 8, 8, 1, 0, false, false, true, .fn0, .any⟩,
   ⟨0x50140, 0, 17, 0, 1, 0, 1, 0, false, false, false, .ro, .any⟩,
   ⟨0x50140, 17, 1, 0, 1, 0, 1, 0, false, false, false, .ro, .any⟩,
   ⟨0x50140, 18, 1, 0, 1, 0, 1, 0, false, false, false, .own, .any⟩,
   ⟨0x50140, 36, 17, 0, 1, 0, 1, 0, false, false, false, .own, .any⟩,
   ⟨0x50148, 0, 17, 0, 1, 0, 1, 0, false, false, false, .ro, .any⟩,
   ⟨0x50148, 32, 32, 0, 1, 0, 1, 0, false, false, false, .ro, .any⟩,
   ⟨0x50150, 0, 64, 0, 1, 0, 1, 0, false, true, false, .ro, .any⟩,
   ⟨0x50158, 0, 16, 8, 1, 0, 1, 0, false, false, false, .fn0, .range 1 1000⟩,
   ⟨0x50158, 16, 16, 1000, 1, 0, 1, 0, false, false, false, .fn0, .rtoMax⟩,
   ⟨0x50160, 0, 32, 100, 1, 0, 1, 0, false, false, false, .fn0, .range 2 65000⟩,
   ⟨0x50168, 0, 9, 64, 1, 0, 1, 0, false, false, false, .fn0, .range 4 256⟩,
   ⟨0x50168, 9, 9, 4, 1, 0, 1, 0, false, false, false, .fn0, .wMin⟩,
   ⟨0x50168, 24, 8, 50, 1, 0, 1, 0, false, false, false, .fn0, .range 10 95⟩,
   ⟨0x50168, 32, 5, 16, 1, 0, 1, 0, false, false, false, .fn0, .range 1 16⟩,
   ⟨0x50170, 0, 8, 16, 1, 0, 1, 0, false, false, false, .fn0, .range 1 255⟩,
   ⟨0x50170, 16, 16, 1000, 1, 0, 1, 0, false, false, false, .fn0, .range 100 65535⟩,
   ⟨0x50178, 0, 16, 16, 1, 0, 1, 0, false, false, false, .fn0, .any⟩,
   ⟨0x50178, 16, 16, 256, 1, 0, 1, 0, false, false, false, .fn0, .any⟩,
   ⟨0x50180, 0, 1, 0, 1, 0, 1, 0, false, false, false, .unconf, .any⟩,
   ⟨0x50180, 12, 52, 0, 1, 0, 1, 0, false, false, false, .unconf, .any⟩,
   ⟨0x50188, 0, 16, 16384, 1, 0, 1, 0, false, false, false, .ro, .any⟩,
   ⟨0x50188, 16, 16, 0, 1, 0, 1, 0, false, false, false, .ro, .any⟩,
   ⟨0x50188, 32, 16, 0, 1, 0, 1, 0, false, false, false, .ro, .any⟩,
   ⟨0x51000, 0, 17, 0, 1, 0, 1, 0, false, false, false, .expertDev, .any⟩,
   ⟨0x51000, 17, 17, 0, 1, 0, 1, 0, false, false, false, .expertDev, .routeLast⟩,
   ⟨0x51000, 34, 8, 0, 1, 0, 1, 0, false, false, false, .expertDev, .any⟩,
   ⟨0x51000, 42, 2, 0, 1, 0, 1, 0, false, false, false, .expertDev, .range 1 2⟩,
   ⟨0x51008, 0, 1, 0, 1, 0, 1, 0, false, false, false, .ro, .any⟩,
   ⟨0x51008, 8, 8, 0, 1, 0, 1, 0, false, false, false, .ro, .any⟩,
   ⟨0x51010, 0, 20, 0, 1, 0, 1, 0, false, false, false, .expert, .any⟩,
   ⟨0x51010, 20, 4, 0, 1, 0, 1, 0, false, false, false, .expert, .range 1 2⟩,
   ⟨0x51018, 0, 64, 0, 8, 8, 1, 0, false, false, false, .ro, .any⟩,
   ⟨0x51060, 0, 16, 0, 1, 0, 1, 0, false, false, false, .expert, .any⟩,
   ⟨0x51060, 16, 4, 0, 1, 0, 1, 0, false, false, false, .expert, .range 1 3⟩,
   ⟨0x51068, 0, 1, 0, 1, 0, 1, 0, false, false, false, .ro, .any⟩,
   ⟨0x51068, 8, 8, 0, 1, 0, 1, 0, false, false, false, .ro, .any⟩,
   ⟨0x51070, 0, 64, 0, 4, 8, 1, 0, false, false, false, .ro, .any⟩,
   ⟨0x5C000, 0, 20, 0, 1, 0, 1, 0, true, true, false, .ro, .any⟩,
   ⟨0x5C000, 20, 21, 0, 1, 0, 1, 0, true, true, false, .ro, .any⟩,
   ⟨0x5C008, 0, 21, 0, 1, 0, 1, 0, true, false, false, .ro, .any⟩,
   ⟨0x5C010, 0, 16, 0, 1, 0, 1, 0, true, true, false, .ro, .any⟩,
   ⟨0x5C010, 16, 17, 0, 1, 0, 1, 0, true, true, false, .ro, .any⟩,
   ⟨0x5C018, 0, 12, 0, 1, 0, 1, 0, true, true, false, .ro, .any⟩,
   ⟨0x5C018, 12, 13, 0, 1, 0, 1, 0, true, true, false, .ro, .any⟩,
   ⟨0x5C020, 0, 16, 0, 1, 0, 1, 0, true, true, false, .ro, .any⟩,
   ⟨0x5C020, 16, 16, 0, 1, 0, 1, 0, true, false, false, .ro, .any⟩,
   ⟨0x5C020, 32, 16, 0, 1, 0, 1, 0, true, false, false, .ro, .any⟩]

def mapCwp : List RegRow :=
  [⟨0x60100, 0, 11, 0, 1, 0, 1, 0, false, true, false, .ro, .any⟩,
   ⟨0x60108, 0, 23, 4194304, 1, 0, 1, 0, false, false, false, .ro, .any⟩,
   ⟨0x60108, 32, 23, 0, 1, 0, 1, 0, false, false, false, .ro, .any⟩,
   ⟨0x60110, 0, 32, 10000, 1, 0, 1, 0, false, false, false, .fn0, .range 100 1000000⟩,
   ⟨0x60118, 0, 32, 1000, 1, 0, 1, 0, false, false, false, .fn0, .range 10 1000000⟩,
   ⟨0x60120, 0, 16, 0, 1, 0, 1, 0, false, false, false, .ro, .any⟩,
   ⟨0x60120, 16, 16, 0, 1, 0, 1, 0, false, false, true, .fn0, .any⟩,
   ⟨0x61000, 0, 10, 0, 64, 16, 1, 0, false, false, false, .ro, .any⟩,
   ⟨0x61000, 10, 11, 0, 64, 16, 1, 0, false, false, false, .ro, .any⟩,
   ⟨0x61000, 21, 4, 0, 64, 16, 1, 0, false, false, false, .ro, .any⟩,
   ⟨0x61000, 25, 3, 0, 64, 16, 1, 0, false, false, false, .ro, .any⟩,
   ⟨0x61000, 28, 16, 0, 64, 16, 1, 0, false, false, false, .ro, .any⟩,
   ⟨0x61000, 44, 16, 0, 64, 16, 1, 0, false, false, false, .ro, .any⟩,
   ⟨0x61008, 0, 14, 0, 64, 16, 1, 0, false, false, false, .ro, .any⟩,
   ⟨0x6C000, 0, 11, 0, 1, 0, 1, 0, true, false, false, .ro, .any⟩,
   ⟨0x6C008, 0, 32, 0, 1, 0, 1, 0, true, false, false, .ro, .any⟩]

def mapDdc : List RegRow :=
  [⟨0x70100, 0, 16, 0, 16, 8, 1, 0, false, true, false, .ro, .any⟩,
   ⟨0x70100, 16, 1, 0, 16, 8, 1, 0, false, true, false, .ro, .any⟩,
   ⟨0x70100, 32, 16, 0, 16, 8, 1, 0, false, true, false, .ro, .any⟩,
   ⟨0x70E00, 0, 1, 0, 16, 16, 1, 0, false, false, false, .ro, .any⟩,
   ⟨0x70E00, 1, 1, 0, 16, 16, 1, 0, false, false, true, .fn0, .any⟩,
   ⟨0x70E00, 8, 8, 0, 16, 16, 1, 0, false, true, false, .ro, .any⟩,
   ⟨0x70E08, 0, 32, 0, 16, 16, 1, 0, false, false, false, .ro, .any⟩,
   ⟨0x70E08, 32, 8, 0, 16, 16, 1, 0, false, false, false, .ro, .any⟩,
   ⟨0x70E08, 40, 4, 0, 16, 16, 1, 0, false, false, false, .ro, .any⟩]

def mapCxd : List RegRow :=
  [⟨0x80100, 0, 1, 0, 2, 65536, 1, 0, false, false, false, .ro, .any⟩,
   ⟨0x80100, 1, 5, 0, 2, 65536, 1, 0, false, false, false, .ro, .any⟩,
   ⟨0x80100, 6, 1, 0, 2, 65536, 1, 0, false, false, false, .ro, .any⟩,
   ⟨0x80100, 7, 1, 0, 2, 65536, 1, 0, false, true, false, .ro, .any⟩,
   ⟨0x80F00, 0, 1, 0, 2, 65536, 1, 0, false, false, false, .ro, .any⟩,
   ⟨0x80F00, 1, 1, 0, 2, 65536, 1, 0, false, false, true, .fn0, .any⟩,
   ⟨0x80F00, 8, 8, 0, 2, 65536, 1, 0, false, true, false, .ro, .any⟩,
   ⟨0x80F08, 0, 32, 0, 2, 65536, 1, 0, false, false, false, .ro, .any⟩,
   ⟨0x80F08, 32, 8, 0, 2, 65536, 1, 0, false, false, false, .ro, .any⟩,
   ⟨0x80F08, 40, 4, 0, 2, 65536, 1, 0, false, false, false, .ro, .any⟩]

def mapNvc : List RegRow :=
  [⟨0xA0100, 0, 1, 0, 8, 65536, 1, 0, false, false, false, .ro, .any⟩,
   ⟨0xA0100, 1, 1, 0, 8, 65536, 1, 0, false, false, false, .ro, .any⟩,
   ⟨0xA0100, 2, 1, 0, 8, 65536, 1, 0, false, false, false, .ro, .any⟩,
   ⟨0xA0100, 8, 8, 0, 8, 65536, 1, 0, false, false, false, .ro, .any⟩,
   ⟨0xA0100, 16, 48, 0, 8, 65536, 1, 0, false, false, false, .ro, .any⟩,
   ⟨0xA0108, 0, 32, 500000, 8, 65536, 1, 0, false, false, false, .fn0, .range 10000 30000000⟩,
   ⟨0xA0F00, 0, 1, 0, 8, 65536, 1, 0, false, false, false, .ro, .any⟩,
   ⟨0xA0F00, 1, 1, 0, 8, 65536, 1, 0, false, false, true, .fn0, .any⟩,
   ⟨0xA0F00, 8, 8, 0, 8, 65536, 1, 0, false, true, false, .ro, .any⟩,
   ⟨0xA0F08, 0, 32, 0, 8, 65536, 1, 0, false, false, false, .ro, .any⟩,
   ⟨0xA0F08, 32, 8, 0, 8, 65536, 1, 0, false, false, false, .ro, .any⟩,
   ⟨0xA0F08, 40, 4, 0, 8, 65536, 1, 0, false, false, false, .ro, .any⟩]

def mapSec : List RegRow :=
  [⟨0x120100, 0, 2, 0, 1, 0, 1, 0, false, true, false, .ro, .any⟩,
   ⟨0x120100, 8, 8, 161, 1, 0, 1, 0, false, false, false, .ro, .any⟩,
   ⟨0x120108, 0, 32, 0, 1, 0, 1, 0, false, true, false, .ro, .any⟩,
   ⟨0x120108, 32, 32, 0, 1, 0, 1, 0, false, true, false, .ro, .any⟩,
   ⟨0x120110, 0, 7, 0, 1, 0, 1, 0, false, true, false, .ro, .any⟩,
   ⟨0x120110, 8, 4, 0, 1, 0, 1, 0, false, true, false, .ro, .any⟩,
   ⟨0x120118, 12, 52, 0, 1, 0, 1, 0, false, false, false, .fn0, .any⟩,
   ⟨0x120120, 0, 32, 0, 1, 0, 1, 0, false, false, false, .fn0, .any⟩,
   ⟨0x120128, 0, 1, 0, 1, 0, 1, 0, false, false, false, .ro, .any⟩,
   ⟨0x120128, 8, 8, 0, 1, 0, 1, 0, false, false, false, .ro, .any⟩,
   ⟨0x120140, 0, 64, 0, 8, 8, 1, 0, false, true, false, .ro, .any⟩,
   ⟨0x120180, 0, 64, 0, 8, 8, 1, 0, false, true, false, .ro, .any⟩,
   ⟨0x1201C0, 0, 64, 0, 1, 0, 1, 0, false, false, false, .ro, .any⟩,
   ⟨0x12C000, 0, 1, 0, 1, 0, 1, 0, true, false, false, .ro, .any⟩,
   ⟨0x12C000, 1, 1, 0, 1, 0, 1, 0, true, false, false, .ro, .any⟩,
   ⟨0x12C000, 2, 1, 0, 1, 0, 1, 0, true, false, false, .ro, .any⟩,
   ⟨0x12C008, 0, 64, 0, 8, 8, 1, 0, true, false, false, .ro, .any⟩]

def mapMgc : List RegRow :=
  [⟨0x130100, 0, 3, 0, 1, 0, 1, 0, false, false, false, .ro, .any⟩,
   ⟨0x130100, 4, 4, 0, 1, 0, 1, 0, false, false, false, .ro, .any⟩,
   ⟨0x130100, 8, 1, 0, 1, 0, 1, 0, false, false, false, .ro, .any⟩,
   ⟨0x130100, 9, 1, 0, 1, 0, 1, 0, false, false, false, .ro, .any⟩,
   ⟨0x130100, 10, 1, 0, 1, 0, 1, 0, false, false, false, .ro, .any⟩,
   ⟨0x130100, 11, 1, 0, 1, 0, 1, 0, false, false, false, .ro, .any⟩,
   ⟨0x130100, 16, 16, 1500, 1, 0, 1, 0, false, false, false, .ro, .any⟩,
   ⟨0x130108, 0, 16, 0, 1, 0, 1, 0, false, false, false, .ro, .any⟩,
   ⟨0x130108, 16, 16, 0, 1, 0, 1, 0, false, false, false, .ro, .any⟩,
   ⟨0x130108, 32, 16, 0, 1, 0, 1, 0, false, false, false, .ro, .any⟩,
   ⟨0x130110, 0, 16, 1050, 1, 0, 1, 0, false, false, false, .mgc, .range 700 1050⟩,
   ⟨0x130118, 0, 3, 0, 1, 0, 1, 0, false, false, false, .mgc, .range 1 3⟩,
   ⟨0x130118, 8, 8, 0, 1, 0, 1, 0, false, false, false, .ro, .any⟩,
   ⟨0x130120, 0, 8, 100, 1, 0, 1, 0, false, false, false, .mgc, .range 70 105⟩,
   ⟨0x130120, 8, 8, 95, 1, 0, 1, 0, false, false, false, .mgc, .range 70 100⟩,
   ⟨0x130128, 17, 2, 0, 1, 0, 1, 0, false, true, false, .ro, .any⟩,
   ⟨0x130130, 0, 4, 0, 1, 0, 1, 0, false, false, false, .ro, .any⟩,
   ⟨0x130130, 4, 1, 0, 1, 0, 1, 0, false, false, false, .ro, .any⟩,
   ⟨0x130130, 5, 1, 0, 1, 0, 1, 0, false, false, false, .ro, .any⟩,
   ⟨0x130130, 6, 1, 0, 1, 0, 1, 0, false, false, false, .ro, .any⟩,
   ⟨0x130130, 7, 1, 0, 1, 0, 1, 0, false, false, false, .ro, .any⟩,
   ⟨0x130130, 8, 1, 0, 1, 0, 1, 0, false, false, false, .ro, .any⟩,
   ⟨0x130130, 9, 1, 0, 1, 0, 1, 0, false, false, false, .ro, .any⟩,
   ⟨0x130130, 32, 32, 0, 1, 0, 1, 0, false, false, false, .ro, .any⟩,
   ⟨0x130138, 0, 3, 0, 1, 0, 1, 0, false, true, false, .ro, .any⟩,
   ⟨0x130138, 3, 1, 0, 1, 0, 1, 0, false, true, false, .ro, .any⟩,
   ⟨0x130138, 4, 2, 0, 1, 0, 1, 0, false, true, false, .ro, .any⟩,
   ⟨0x130140, 0, 16, 0, 13, 8, 1, 0, false, false, false, .ro, .any⟩,
   ⟨0x130140, 16, 1, 0, 13, 8, 1, 0, false, false, false, .ro, .any⟩,
   ⟨0x1301C0, 0, 1, 0, 11, 8, 1, 0, false, false, false, .ro, .any⟩,
   ⟨0x1301C0, 1, 1, 0, 11, 8, 1, 0, false, false, false, .ro, .any⟩,
   ⟨0x1301C0, 8, 16, 0, 11, 8, 1, 0, false, false, false, .ro, .any⟩,
   ⟨0x1301C0, 24, 16, 0, 11, 8, 1, 0, false, false, false, .ro, .any⟩,
   ⟨0x1301C0, 40, 8, 0, 11, 8, 1, 0, false, false, false, .ro, .any⟩,
   ⟨0x13C000, 0, 3, 0, 1, 0, 1, 0, true, false, false, .ro, .any⟩,
   ⟨0x13C000, 3, 1, 0, 1, 0, 1, 0, true, false, false, .bank, .any⟩,
   ⟨0x13C000, 4, 1, 0, 1, 0, 1, 0, true, false, false, .ro, .any⟩,
   ⟨0x13C008, 0, 64, 0, 1, 0, 1, 0, true, false, false, .bank, .any⟩,
   ⟨0x13C010, 0, 16, 0, 1, 0, 1, 0, true, false, false, .bank, .any⟩,
   ⟨0x13C018, 0, 22, 0, 1, 0, 1, 0, true, false, false, .bank, .any⟩,
   ⟨0x13C018, 22, 23, 0, 1, 0, 1, 0, true, false, false, .bank, .range 0 4194304⟩,
   ⟨0x13C020, 0, 40, 0, 4, 24, 1, 0, true, false, false, .bank, .any⟩,
   ⟨0x13C028, 0, 40, 0, 4, 24, 1, 0, true, false, false, .bank, .any⟩,
   ⟨0x13C030, 0, 40, 0, 4, 24, 1, 0, true, false, false, .bank, .any⟩,
   ⟨0x13C080, 0, 20, 0, 1, 0, 1, 0, true, false, false, .bank, .any⟩,
   ⟨0x13C080, 20, 21, 0, 1, 0, 1, 0, true, false, false, .bank, .range 0 1048576⟩,
   ⟨0x13C088, 0, 16, 0, 1, 0, 1, 0, true, false, false, .bank, .any⟩,
   ⟨0x13C088, 16, 17, 0, 1, 0, 1, 0, true, false, false, .bank, .range 0 65536⟩,
   ⟨0x13C090, 0, 12, 0, 1, 0, 1, 0, true, false, false, .bank, .any⟩,
   ⟨0x13C090, 12, 13, 0, 1, 0, 1, 0, true, false, false, .bank, .range 0 4096⟩,
   ⟨0x13C098, 0, 16, 0, 1, 0, 1, 0, true, false, false, .bank, .range 0 32768⟩,
   ⟨0x13C0A0, 0, 64, 0, 4, 8, 1, 0, true, false, false, .bank, .any⟩,
   ⟨0x13C200, 0, 64, 0, 64, 8, 1, 0, true, false, false, .bank, .any⟩]

def mapFrc : List RegRow :=
  [⟨0x140100, 0, 40, 0, 1, 0, 1, 0, false, true, false, .own, .any⟩,
   ⟨0x140108, 0, 40, 0, 1, 0, 1, 0, false, false, false, .ro, .any⟩,
   ⟨0x140108, 40, 1, 0, 1, 0, 1, 0, false, false, false, .ro, .any⟩,
   ⟨0x140110, 0, 16, 0, 1, 0, 1, 0, false, true, false, .ro, .any⟩,
   ⟨0x140110, 16, 16, 0, 1, 0, 1, 0, false, false, false, .ro, .any⟩,
   ⟨0x140118, 0, 8, 3, 1, 0, 1, 0, false, false, false, .fn0, .range 1 255⟩,
   ⟨0x140120, 0, 16, 4096, 1, 0, 1, 0, false, false, false, .fn0, .any⟩,
   ⟨0x140120, 16, 16, 64, 1, 0, 1, 0, false, false, false, .fn0, .any⟩,
   ⟨0x140120, 32, 16, 16, 1, 0, 1, 0, false, false, false, .fn0, .any⟩,
   ⟨0x140128, 12, 52, 0, 1, 0, 1, 0, false, false, false, .fn0, .any⟩,
   ⟨0x140130, 0, 16, 0, 1, 0, 1, 0, false, false, false, .fn0, .evEntries⟩,
   ⟨0x140130, 16, 16, 0, 1, 0, 1, 0, false, false, false, .fn0, .any⟩,
   ⟨0x140130, 32, 16, 0, 1, 0, 1, 0, false, false, false, .ro, .any⟩,
   ⟨0x140138, 0, 32, 0, 1, 0, 1, 0, false, false, false, .ro, .any⟩,
   ⟨0x14C000, 0, 1, 0, 1, 0, 1, 0, true, false, false, .bank, .any⟩,
   ⟨0x14C000, 32, 32, 220752000, 1, 0, 1, 0, true, false, false, .bank, .any⟩,
   ⟨0x14C008, 12, 52, 0, 1, 0, 1, 0, true, false, false, .bankAny, .any⟩,
   ⟨0x14C010, 0, 16, 0, 1, 0, 1, 0, true, false, false, .bankAny, .evEntries⟩,
   ⟨0x14C010, 16, 16, 0, 1, 0, 1, 0, true, false, false, .bankAny, .any⟩,
   ⟨0x14C010, 32, 16, 0, 1, 0, 1, 0, true, false, false, .ro, .any⟩,
   ⟨0x14C018, 0, 32, 0, 1, 0, 1, 0, true, false, false, .ro, .any⟩,
   ⟨0x14C018, 32, 32, 0, 1, 0, 1, 0, true, false, false, .ro, .any⟩]

def mapSlu : List RegRow :=
  [⟨0x150100, 0, 8, 61, 1, 0, 1, 0, false, false, false, .ro, .any⟩,
   ⟨0x150100, 8, 8, 33, 1, 0, 1, 0, false, false, false, .ro, .any⟩,
   ⟨0x150108, 0, 61, 0, 1, 0, 1, 0, false, false, false, .ro, .any⟩,
   ⟨0x151000, 0, 16, 4096, 61, 16, 1, 0, false, false, false, .expertDev, .range 256 65535⟩,
   ⟨0x151000, 16, 16, 64, 61, 16, 1, 0, false, false, false, .expertDev, .range 8 65535⟩,
   ⟨0x151000, 32, 8, 4, 61, 16, 1, 0, false, false, false, .expertDev, .any⟩,
   ⟨0x151000, 40, 8, 0, 61, 16, 1, 0, false, false, false, .expertDev, .not1⟩,
   ⟨0x151000, 48, 16, 256, 61, 16, 1, 0, false, false, false, .expertDev, .any⟩,
   ⟨0x151008, 0, 33, 0, 61, 16, 1, 0, false, false, true, .expertDev, .any⟩,
   ⟨0x151800, 0, 33, 0, 61, 8, 1, 0, false, false, false, .ro, .any⟩,
   ⟨0x15C000, 0, 16, 1024, 61, 8, 1, 0, true, false, false, .bank, .any⟩,
   ⟨0x15C000, 16, 16, 256, 61, 8, 1, 0, true, false, false, .bank, .any⟩,
   ⟨0x15C000, 32, 16, 1, 61, 8, 1, 0, true, false, false, .bank, .range 1 65535⟩,
   ⟨0x15C000, 48, 16, 64, 61, 8, 1, 0, true, false, false, .bank, .range 1 65535⟩]

def mapMxg : List RegRow :=
  [⟨0x180100, 0, 4, 0, 4, 65536, 20, 8, false, true, false, .ro, .any⟩,
   ⟨0x180100, 4, 1, 0, 4, 65536, 20, 8, false, true, false, .ro, .any⟩,
   ⟨0x180100, 5, 1, 0, 4, 65536, 20, 8, false, false, false, .ro, .any⟩,
   ⟨0x180100, 6, 1, 0, 4, 65536, 20, 8, false, false, false, .ro, .any⟩,
   ⟨0x180100, 7, 1, 0, 4, 65536, 20, 8, false, false, false, .ro, .any⟩,
   ⟨0x180100, 8, 8, 0, 4, 65536, 20, 8, false, false, false, .ro, .any⟩,
   ⟨0x180200, 0, 32, 500, 1, 0, 1, 0, false, false, false, .fn0, .range 10 100000⟩,
   ⟨0x18C000, 0, 7, 64, 1, 0, 1, 0, true, false, false, .bankAny, .range 1 80⟩,
   ⟨0x18C000, 8, 1, 1, 1, 0, 1, 0, true, false, false, .bankAny, .any⟩,
   ⟨0x18C008, 0, 16, 0, 1, 0, 1, 0, true, false, false, .ro, .any⟩,
   ⟨0x18C008, 16, 32, 0, 1, 0, 1, 0, true, false, false, .ro, .any⟩,
   ⟨0x18C008, 48, 16, 0, 1, 0, 1, 0, true, false, false, .ro, .any⟩]

def mapHbc : List RegRow :=
  [⟨0x200F00, 0, 1, 0, 8, 65536, 1, 0, false, false, false, .ro, .any⟩,
   ⟨0x200F00, 1, 1, 0, 8, 65536, 1, 0, false, false, true, .fn0, .any⟩,
   ⟨0x200F00, 8, 8, 0, 8, 65536, 1, 0, false, true, false, .ro, .any⟩,
   ⟨0x200F08, 0, 32, 0, 8, 65536, 1, 0, false, false, false, .ro, .any⟩,
   ⟨0x200F08, 32, 8, 0, 8, 65536, 1, 0, false, false, false, .ro, .any⟩,
   ⟨0x200F08, 40, 4, 0, 8, 65536, 1, 0, false, false, false, .ro, .any⟩]

/-- The fields of the common header (R515), by their offset in the page. -/
def mapHdr : List RegRow :=
  [⟨0x0, 0, 8, 0, 1, 0, 1, 0, false, false, false, .ro, .any⟩,
   ⟨0x0, 8, 8, 0, 1, 0, 1, 0, false, false, false, .ro, .any⟩,
   ⟨0x0, 16, 16, 19266, 1, 0, 1, 0, false, false, false, .ro, .any⟩,
   ⟨0x8, 0, 16, 1, 1, 0, 1, 0, false, false, false, .ro, .any⟩,
   ⟨0x8, 16, 8, 161, 1, 0, 1, 0, false, false, false, .ro, .any⟩,
   ⟨0x10, 0, 1, 1, 1, 0, 1, 0, false, false, false, .ro, .any⟩,
   ⟨0x10, 1, 1, 0, 1, 0, 1, 0, false, false, false, .ro, .any⟩,
   ⟨0x10, 2, 1, 0, 1, 0, 1, 0, false, false, false, .ro, .any⟩,
   ⟨0x10, 8, 8, 0, 1, 0, 1, 0, false, false, false, .ro, .any⟩,
   ⟨0x18, 0, 1, 0, 1, 0, 1, 0, false, false, false, .fn0, .any⟩,
   ⟨0x20, 0, 1, 0, 1, 0, 1, 0, false, false, false, .ro, .any⟩,
   ⟨0x20, 1, 1, 0, 1, 0, 1, 0, false, false, false, .ro, .any⟩,
   ⟨0x20, 2, 1, 0, 1, 0, 1, 0, false, false, false, .ro, .any⟩,
   ⟨0x28, 0, 16, 0, 1, 0, 1, 0, false, false, false, .own, .any⟩,
   ⟨0x28, 16, 1, 0, 1, 0, 1, 0, false, false, false, .own, .any⟩,
   ⟨0x30, 0, 6, 0, 1, 0, 1, 0, false, false, false, .ro, .any⟩,
   ⟨0x38, 0, 6, 0, 1, 0, 1, 0, false, false, false, .ro, .any⟩,
   ⟨0x40, 0, 2, 0, 1, 0, 1, 0, false, false, false, .ro, .any⟩,
   ⟨0x40, 2, 1, 0, 1, 0, 1, 0, false, false, true, .fn0, .any⟩,
   ⟨0x40, 8, 8, 0, 1, 0, 1, 0, false, false, false, .ro, .any⟩,
   ⟨0x40, 16, 16, 0, 1, 0, 1, 0, false, false, false, .ro, .any⟩,
   ⟨0x40, 32, 7, 0, 1, 0, 1, 0, false, false, false, .ro, .any⟩,
   ⟨0x48, 0, 64, 0, 1, 0, 1, 0, false, false, false, .fn0, .any⟩,
   ⟨0x50, 0, 64, 0, 1, 0, 1, 0, false, false, true, .fn0, .any⟩,
   ⟨0x58, 0, 40, 0, 1, 0, 1, 0, false, false, false, .fn0, .any⟩,
   ⟨0x58, 40, 4, 0, 1, 0, 1, 0, false, false, false, .fn0, .selftestKind⟩,
   ⟨0x58, 48, 2, 0, 1, 0, 1, 0, false, false, false, .ro, .any⟩,
   ⟨0x58, 50, 1, 0, 1, 0, 1, 0, false, false, false, .ro, .any⟩]

/-- Every register field outside the common headers. -/
def regMap : List RegRow :=
  mapHif ++ mapSsq ++ mapHrc ++ mapTmg ++ mapPme ++ mapXfe ++ mapCwp ++ mapDdc ++ mapCxd ++ mapNvc ++ mapSec ++ mapMgc ++ mapFrc ++ mapSlu ++ mapMxg ++ mapHbc

/-- The bank of a BAR0 offset: partition n, or 16 for one outside the banks (R511). -/
def bankOf (o : Nat) : Nat := if 0xC000 ≤ o % 0x10000 then (o % 0x10000 - 0xC000) / 0x400 else 16

/-- Whether a word offset is an element of a row, and its field. -/
def RegRow.fieldAt? (r : RegRow) (o : Nat) : Option Fld :=
  let o' := if r.bank then o - bankOf o * 0x400 else o
  if o' < r.base ∨ (r.bank = true ∧ bankOf o = 16) then none
  else
    let d := o' - r.base
    let i := if r.s1 = 0 then 0 else min (d / r.s1) (r.c1 - 1)
    let e := d - i * r.s1
    let j := if r.s2 = 0 then 0 else min (e / r.s2) (r.c2 - 1)
    if e = j * r.s2 then some ⟨o, r.lo, r.width, r.rst⟩ else none

/-- The reset value of a header field: that of the page map where the header's table says so (R510, R515). -/
def hdrReset (p : Nat) (r : RegRow) : Nat :=
  match r.base, r.lo with
  | 0x00, 0 => Reg.slotType p
  | 0x00, 8 => Reg.slotInstance p
  | 0x10, 1 => Reg.slotBanks p
  | 0x10, 2 => Reg.slotTests p
  | 0x10, 8 => Reg.slotInstances p
  | _, _ => r.rst

/-- The fields of a word with their rows, in the table's order: those of the common header in a page's first 256 bytes. -/
def wordFields (o : Nat) : List (RegRow × Fld) :=
  if (page? (o / 0x10000)).isNone then []
  else if o % 0x10000 < 0x100 then
    (mapHdr.filter fun r => r.base == o % 0x10000).map fun r => (r, ⟨o, r.lo, r.width, hdrReset (o / 0x10000) r⟩)
  else regMap.filterMap fun r => (r.fieldAt? o).map fun f => (r, f)

/-- Whether every partition is UNCONFIGURED. -/
def State.allUnconfigured (s : State) : Bool := (List.range 16).all fun n => s.pstate n == psUnconfigured

/-- Function 0, and the MGC over I3C, as the sender of a register access. -/
def fromI3c : Nat := 17

/-- Whether a sender may write a field of a row at a word now. -/
def State.mayWrite (s : State) (from_ o : Nat) (w : Wr) : Bool :=
  let slot := o / 0x10000
  let oper := from_ == 0 || from_ == fromI3c
  match w with
  | .ro | .own => false
  | .fn0 => from_ == 0
  | .mgc => oper
  | .mgmt => from_ == fromI3c && s.allUnconfigured
  | .unconf => from_ == 0 && s.allUnconfigured
  | .expert => s.expertOpen slot from_
  | .expertDev => s.expertDevice slot from_
  | .bank => oper && s.pstate (bankOf o) == psConfigured
  | .bankAny => from_ == 0 || from_ == bankOf o + 1
  | .bankP => from_ == bankOf o + 1

/-- Whether a value is a listed encoding of a field (00 R13), the register's earlier fields already written. -/
def State.listed (s : State) (o : Nat) (c : Chk) (v : Nat) : Bool :=
  match c with
  | .any => true
  | .range a b => decide (a ≤ v ∧ v ≤ b)
  | .members => decide (1 ≤ v ∧ v ≤ 8) && (s.getF Reg.pmeCascadeMode != 2 || v % 2 == 0)
  | .not1 => v != 1
  | .rtoMax => decide (s.getF Reg.xfeRtoInitUs ≤ v ∧ v ≤ 65000)
  | .wMin => decide (1 ≤ v ∧ v ≤ s.getF Reg.xfeCcWInit)
  | .routeLast => decide (s.getF Reg.xfeRouteOpFirst ≤ v)
  | .evEntries => v == 0 || decide (64 ≤ v)
  | .selftestKind => ((page? (o / 0x10000)).map fun p => p.tests.contains v).getD false

/-- Write one field of a word, if the sender may and the value is listed. Clearing SECONDARY zeroes OVERFLOW (R515). -/
def writeField (from_ : Nat) (r : RegRow) (f : Fld) (v : Nat) (s : State) : State :=
  if !s.mayWrite from_ f.off r.wr then s
  else if r.w1c then
    let s := s.w1c f v
    let p := f.off / 0x10000
    if f = Reg.blkErrstateSecondary p ∧ v % 2 = 1 then s.setF (Reg.blkErrstateOverflow p) 0 else s
  else if s.listed f.off r.chk v then s.setF f v
  else s

/-- The ladder of a partition is legal: rung 0 valid, valid rungs contiguous, their tiers strictly rising (02 R66). -/
def ladderOk (s : State) (n : Nat) : Bool :=
  let v := fun i => s.flag (Reg.ssqPbLadderValid n i)
  let t := fun i => s.getF (Reg.ssqPbLadderTier n i)
  v 0 && (List.range 3).all fun i => !v (i + 1) || (v i && decide (t i < t (i + 1)))

/-- MIGRATE holds listed values (08, TMG registers): LO_WATER below HI_WATER, HI_WATER from 1 to 100. -/
def migrateOk (s : State) : Bool :=
  let hi := s.getF Reg.tmgMigrateHiWater
  decide (s.getF Reg.tmgMigrateLoWater < hi) && decide (1 ≤ hi ∧ hi ≤ 100)

/-- The fields of a word that a write reaches, in the table's order, `take` saying which of them take their values. -/
def writeWord (from_ w lo size v : Nat) (take : Fld → Bool) (s : State) : State :=
  (wordFields w).foldl (fun s x =>
    if lo ≤ x.1.lo ∧ x.1.lo + x.1.width ≤ lo + 8 * size ∧ take x.2 = true then writeField from_ x.1 x.2 (bits v (x.1.lo - lo) x.1.width) s else s) s

/-- A write of `size` bytes at a BAR0 offset through function `from_`, 17 for I3C (R512, R513): each field that lies within the bytes written.
TIER and VALID of a rung that would break the ladder are discarded and its DWELL is taken (02 R66, 00 R13; log 40); a write that would make
MIGRATE illegal is discarded as a whole (08). -/
def barWrite (from_ o size v : Nat) (s : State) : State :=
  let w := o - o % 8
  let lo := 8 * (o % 8)
  let s' := writeWord from_ w lo size v (fun _ => true) s
  let n := bankOf w
  if w / 0x10000 = pSsq ∧ n < 16 ∧ !ladderOk s' n then writeWord from_ w lo size v (fun f => decide (32 ≤ f.lo)) s
  else if w = Reg.tmgMigrateHiWater.off ∧ !migrateOk s' then s
  else s'

/-- Where REGISTER_WRITE's offsets go on behind the 64 MiB of BAR0 (log 65): a function's BAR4, and the component registers of the LDs, 64 KiB
each. -/
def bar4Base : Nat := 0x4000000
def componentBase : Nat := 0x8000000

/-- A register write of `size` bytes through function `from_`, 17 for I3C (R512). -/
def regWrite (from_ o size v : Nat) (s : State) : State :=
  let alive := if from_ = fromI3c then !s.mgc.off else s.fnLive from_
  if !alive || (size != 4 && size != 8) || o % size != 0 then s
  else if o < bar4Base then barWrite from_ o size v s
  else if from_ = fromI3c then s
  else if o < bar4Base + 0x4000 then bar4Write from_ (o - bar4Base) size v s
  else if from_ = 0 ∧ componentBase ≤ o ∧ o < componentBase + 16 * 0x10000 ∧ bit (s.getF Reg.hifLinkBound) ((o - componentBase) / 0x10000) then
    componentWrite ((o - componentBase) / 0x10000) (o % 0x10000) size v s
  else s

/-- REGISTER_WRITE: a write to registers without behaviour of their own. A field whose write has a command of its own, and a
WO field, are left to that command. -/
def execRegisterWrite (from_ offset size value : Nat) (s : State) : Host.Outcome State Fault Refusal :=
  .next (countIo from_ (regWrite from_ offset size value s))

-- Partition banks as a whole

/-- Return bank n of every page to its reset values (13 R415, R443). -/
def resetBanks (n : Nat) (s : State) : State :=
  { s with regs := s.regs.filter fun e => bankOf (e.1 / 8) != n }

/-- Whether a bank field is measured (13 R421): RW, or RO set by firmware; not the admin pair's and the event ring's. -/
def RegRow.measured (r : RegRow) : Bool :=
  r.bank && (r.fw || !(r.wr == .ro)) && !(r.wr == .bankP) && !(r.base / 0x10000 == pHif && decide (0xC008 ≤ r.base % 0x10000 ∧ r.base % 0x10000 < 0xC020)) &&
    !(r.base / 0x10000 == pFrc && r.wr == .bankAny)

/-- The 1,024 bytes of a page's bank n as CONFIG_MEAS measures them (13 R421). -/
def bankBytes (s : State) (slot n : Nat) : List Byte :=
  let rows := regMap.filter fun r => r.measured && r.base / 0x10000 == slot
  ((List.range 128).map fun j =>
    let o := slot * 0x10000 + 0xC000 + n * 0x400 + 8 * j
    leBytes 8 ((rows.filterMap fun r => r.fieldAt? o).foldl (fun a f => a + s.getF f * 2 ^ f.lo) 0)).flatten

end Sys2Proof.Machine
end

