-- ==== Sys2Proof/Machine/Partitions.lean ====
section
/-!
DEFINITION. Machine/Partitions.lean: partition configuration, lock, states and wipe (13 R413-R419, R434, R443-R445).
-/
set_option cleanup.letToHave false
namespace Sys2Proof.Machine

open Sys2Proof

/-- A partition command: its argument, and the state it starts from, ST_PARTITION_STATE otherwise. -/
def onPartition (c : Cmd) (from_ : List Nat) (k : Nat → State → Res) (s : State) : Res :=
  let n := c.arg 0 1
  need (c.argsOk [(0, 1)] && decide (c.dlen = 0) && decide (n < 16)) .invalidField <|
  need (from_.contains (s.pstate n)) .partitionState <| k n s

/-- Leave UNCONFIGURED's traces (R415, 16 R516): banks at reset values, the partition's bit of every expert mask cleared. -/
def clearPartition (n : Nat) (s : State) : State :=
  let s := resetBanks n s
  pageMap.foldl (fun s p =>
    let m := s.getF (Reg.blkExpertUnlockMaskPart p.slot)
    if bit m n then
      let s := s.setF (Reg.blkExpertUnlockMaskPart p.slot) (clrBit m n)
      logEv .mgcExpertUnlock pMgc 0xFF [p.slot, clrBit m n, s.getF (Reg.blkExpertUnlockMaskOper p.slot)] s
    else s) s

def execPartitionConfigure (c : Cmd) (s : State) : Host.Outcome State Fault Refusal :=
  .next (hostCmd 0x0701 c (onPartition c [psUnconfigured] fun n s => .done (setPstate n psConfigured s) {}) s)

def execPartitionRelease (c : Cmd) (s : State) : Host.Outcome State Fault Refusal :=
  .next (hostCmd 0x0702 c (onPartition c [psConfigured] fun n s => .done (clearPartition n (setPstate n psUnconfigured s)) {}) s)

-- PARTITION_LOCK (R414)

/-- Partitions other than n that are LOCKED or in a later state. -/
def lockedOthers (s : State) (n : Nat) : List Nat := (List.range 16).filter fun m => m != n && decide (psLocked ≤ s.pstate m)

/-- Whether array i stands in a partition's ARRAYS. -/
def ownsArray (s : State) (n i : Nat) : Bool :=
  if i < 64 then bit (s.getF (Reg.mgcPbArrays0 n)) i else bit (s.getF (Reg.mgcPbArrays1 n)) (i - 64)

/-- Units of a partition's extent in a tier; for T0 of each of its 8 parts. -/
def extentUnits (s : State) (n k : Nat) : Nat := s.getF (Reg.mgcPbExtentPage4k n k) + s.getF (Reg.mgcPbExtentDirect4k n k)

/-- Units of the tag area behind it (R428). -/
def tagUnits (s : State) (n k : Nat) : Nat := if k = 0 ∨ s.isProtected n = false then 0 else cdiv (extentUnits s n k) 64

/-- First unit and units, tag area included, of a partition's extent. -/
def extentSpan (s : State) (n k : Nat) : Nat × Nat := (s.getF (Reg.mgcPbExtentBase4k n k), extentUnits s n k + tagUnits s n k)

/-- Two spans share a unit. -/
def spansMeet (a b : Nat × Nat) : Bool := decide (0 < a.2) && decide (0 < b.2) && decide (a.1 < b.1 + b.2) && decide (b.1 < a.1 + a.2)

/-- Check 5 for one tier: within the tier's capacity, a T0 part at or below stack offset 47 GiB. -/
def extentFits (s : State) (n k : Nat) : Bool :=
  let e := extentSpan s n k
  let top := e.1 + e.2
  if k = 0 then decide (top ≤ 47 * 2 ^ 18) && decide (7 * stackUnits + top ≤ s.getF (Reg.tmgTierCapSize4k 0))
  else decide (top ≤ s.getF (Reg.tmgTierCapSize4k k))

/-- The ranges of check 6, with the sizes of their tables: sessions, connections, regions, groups. -/
def idRanges (s : State) (n : Nat) : List ((Nat × Nat) × Nat) :=
  [((s.getF (Reg.mgcPbSessionsBase n), s.getF (Reg.mgcPbSessionsCount n)), 4194304), ((s.getF (Reg.mgcPbConnBase n), s.getF (Reg.mgcPbConnCount n)), 1048576),
   ((s.getF (Reg.mgcPbRegionBase n), s.getF (Reg.mgcPbRegionCount n)), 65536), ((s.getF (Reg.mgcPbGroupBase n), s.getF (Reg.mgcPbGroupCount n)), 4096)]

/-- Sum of a field over a list of partitions. -/
def sumOver (s : State) (l : List Nat) (f : Nat → Fld) : Nat := (l.map fun m => s.getF (f m)).sum

/-- Check 7: revive rates (02 R76), connection ranges (10 R321), work-request quotas. -/
def budgetsOk (s : State) (l : List Nat) : Bool :=
  decide (sumOver s l Reg.ssqPbWeirRateT1 ≤ 1070) && decide (sumOver s l Reg.ssqPbWeirRateT2 ≤ 230) && decide (sumOver s l Reg.ssqPbWeirRateT3 ≤ 200) &&
  decide (sumOver s l Reg.mgcPbConnCount ≤ if s.flag Reg.xfeSpillEn then 1048576 else 16384) &&
  decide (sumOver s (l.filter s.isProtected) Reg.mgcPbConnCount ≤ 12288) && decide (sumOver s l Reg.mgcPbWrQuota ≤ 32768)

/-- Check 8 (11 R366): every TRUST entry names the partition's own number. -/
def peersOk (s : State) (n : Nat) : Bool :=
  (List.range 64).all fun i =>
    let v := s.getF (Reg.mgcPbPeer n i)
    !(bit v 63 && entryKind v == 1 && bits v 34 4 != n)

/-- The first check of R414 that fails, from check 2 on. -/
def lockCheck (s : State) (n : Nat) : Option Status :=
  let o := lockedOthers s n
  if s.sec.fuses.lifecycle ≠ 2 then some .lifecycle
  else if (arraysOf s n).isEmpty then some .invalidField
  else if o.any fun m => (List.range 80).any fun i => ownsArray s n i && ownsArray s m i then some .resourceOverlap
  else if !((List.range 4).all fun k => extentFits s n k && o.all fun m => !spansMeet (extentSpan s n k) (extentSpan s m k)) then some .resourceOverlap
  else if !((idRanges s n).all fun r => decide (r.1.1 + r.1.2 ≤ r.2)) then some .resourceOverlap
  else if o.any fun m => ((idRanges s n).zip (idRanges s m)).any fun r => spansMeet r.1.1 r.2.1 then some .resourceOverlap
  else if !budgetsOk s (n :: o) then some .budget
  else if !peersOk s n then some .invalidField
  else if s.flag (Reg.frcPbCtrlEn n) && !s.flag Reg.frcCapsuleStatArea then some .recorderFull
  else none

/-- What other blocks report of a partition's resources (R413). -/
def reportResources (n : Nat) (s : State) : State :=
  let s := (List.range 80).foldl (fun s i =>
    if ownsArray s n i then (s.setF (Reg.mxgArrayPartition (i / 20) (i % 20)) n).setF (Reg.mxgArrayOwned (i / 20) (i % 20)) 1 else s) s
  let s := (List.range 4).foldl (fun s k =>
    let parts := if k = 0 then 8 else 1
    (s.setF (Reg.tmgPbPage4k n k) (parts * s.getF (Reg.mgcPbExtentPage4k n k) - withdrawnOf s n k false)).setF (Reg.tmgPbDirect4k n k)
      (parts * s.getF (Reg.mgcPbExtentDirect4k n k) - withdrawnOf s n k true)) s
  let s := (s.setF (Reg.xfePbConnBase n) (s.getF (Reg.mgcPbConnBase n))).setF (Reg.xfePbConnCount n) (s.getF (Reg.mgcPbConnCount n))
  let s := (s.setF (Reg.xfePbRegionBase n) (s.getF (Reg.mgcPbRegionBase n))).setF (Reg.xfePbRegionCount n) (s.getF (Reg.mgcPbRegionCount n))
  let s := (s.setF (Reg.xfePbGroupBase n) (s.getF (Reg.mgcPbGroupBase n))).setF (Reg.xfePbGroupCount n) (s.getF (Reg.mgcPbGroupCount n))
  s.setF (Reg.xfePbWrQuota n) (s.getF (Reg.mgcPbWrQuota n))

/-- CONFIG_MEAS of a partition (R419); a page without banks gives 1,024 zeros. -/
def configMeas (s : State) (n : Nat) : List Byte :=
  shake256 (leBytes 1 n ++ (pageMap.map fun p => bankBytes s p.slot n).flatten) 64

/-- PARTITION_LOCK: its checks, then CONFIG_MEAS, and a media key for a partition that is not protected (R415, R419, R434). -/
def partitionLock (c : Cmd) (s : State) : Res :=
  onPartition c [psConfigured] (fun n s =>
    match lockCheck s n with
    | some st => .fail st
    | none =>
      let s := reportResources n s
      let s := showBytes (Reg.secPbConfigMeas n) 8 (configMeas s n) s
      let s := if s.isProtected n then s
        else
          let (k, s) := s.freshBytes 64
          { s with sec := { s.sec with mediaKeys := tset s.sec.mediaKeys n k } }
      .done (setPstate n psLocked s) {}) s

def execPartitionLock (c : Cmd) (s : State) : Host.Outcome State Fault Refusal := .next (hostCmd 0x0703 c (partitionLock c) s)

-- Start, replay, drain (R415, R416)

/-- Both key slots of a protected partition are loaded. -/
def keysReady (s : State) (n : Nat) : Bool := !s.isProtected n || (s.flag (Reg.secPbKeysMemory n) && s.flag (Reg.secPbKeysFabric n))

def partitionStart (c : Cmd) (s : State) : Res :=
  onPartition c [psLocked] (fun n s => need (keysReady s n) .keyState (.done (setPstate n psActive s) {})) s

def execPartitionStart (c : Cmd) (s : State) : Host.Outcome State Fault Refusal := .next (hostCmd 0x0704 c (partitionStart c) s)

def replayBegin (c : Cmd) (s : State) : Res :=
  onPartition c [psLocked] (fun n s => need (keysReady s n) .keyState (.done (setPstate n psReplay s) {})) s

def execReplayBegin (c : Cmd) (s : State) : Host.Outcome State Fault Refusal := .next (hostCmd 0x0707 c (replayBegin c) s)

/-- Whether a turn takes part in its wheel's step in progress (R416). -/
def inStep (s : State) (t : Turn) : Bool :=
  t.state == .running && ((s.wheel? t.wheel).map fun x => x.roster.isSome && !x.rolledBack && !x.blockWritten && !(x.entriesOf t.slot).isEmpty && !x.resolved t.slot).getD false

/-- Drain a partition (R416): turns in a step end with it, all others at once. -/
def drainTurns (n : Nat) (s : State) : State :=
  let mine := s.ssq.turns.filter (·.part == n)
  let s := (mine.filter (inStep s)).foldl (fun s t => modTurn t.session (fun t => { t with drain := true }) s) s
  endTurns ((mine.filter fun t => !inStep s t).map (·.session)) .partitionDrain s

/-- PARTITION_DRAIN completes when the partition has drained (16 R525). -/
def partitionDrain (c : Cmd) (s : State) : Res :=
  onPartition c [psActive] (fun n s =>
    let s := setPstate n psDraining s
    let s := { s with mgc := { s.mgc with drains := tset s.mgc.drains n c } }
    .wait (settleDrain n (drainTurns n s))) s

def execPartitionDrain (c : Cmd) (s : State) : Host.Outcome State Fault Refusal := .next (hostCmd 0x0705 c (partitionDrain c) s)

/-- A PARTITION error (R415, R418, 14 R447): every uncommitted step is rolled back and every turn ends at once. -/
def partitionError (n : Nat) (s : State) : State :=
  let p := s.pstate n
  if p ≠ psActive ∧ p ≠ psDraining then s
  else
    let s := if p = psActive then setPstate n psDraining s else s
    settleDrain n (endTurns ((s.ssq.turns.filter (·.part == n)).map (·.session)) .partitionDrain s)

-- Wiping (R443-R445)

/-- Fail a connection for a wipe; one still OPENING ends its CONN_OPEN with ST_FABRIC_LOST (log 41). -/
def wipeConn (id : Nat) (s : State) : State :=
  match tget s.xfe.conns id with
  | none => s
  | some c =>
    if c.state = .opening then
      let s := putConn id { c with state := .failed, cmd := none } s
      match c.cmd with
      | some k => complete k { status := .fabricLost } s
      | none => s
    else failConn id s

/-- Revoke and free a region for a wipe; one already DRAINING is freed when it has drained. -/
def wipeRegion (i : Nat) (s : State) : State :=
  match tget s.xfe.regions i with
  | none => s
  | some r =>
    if r.state = .valid then revokeStep i true false none s
    else if r.state = .draining then modRegion i (fun r => { r with free := true }) s
    else s

/-- Remove an extent from all its hosts (R405); a removal in progress takes in the other hosts. -/
def wipeExtent (e : Nat) (s : State) : State :=
  let h := s.getF (Reg.cwpExtentHosts e)
  let o := s.getF (Reg.cwpExtentOrphans e)
  let st := s.extState e
  if st = extFree ∨ st = extWiping then s
  else
    let r := tgetD s.cwp.removals e { mask := 0, cmd := none }
    let s := { s with cwp := { s.cwp with removals := tset s.cwp.removals e { r with mask := h ||| o } } }
    let s := s.setF (Reg.cwpExtentState e) extRemoving
    if h = 0 then removalFinish e s
    else (maskBits 16 h).foldl (fun s host => (s.extLinesHeld e host).foldl (fun s l => sendRecall l host true s) s) s

/-- Free a session for a wipe, with no commit-point event (log 41). -/
def wipeSession (i : Nat) (s : State) : State :=
  match tget s.ssq.sessions i with
  | none => s
  | some x =>
    let s := modPme (fun p => { p with repoints := p.repoints.filter fun r => r.1 != x.handle, toPublish := p.toPublish.filter fun r => r.1 != x.handle }) (releaseKv i s)
    let s := s.setFrc { s.frc with finals := tdel s.frc.finals x.handle, staging := s.frc.staging.filter fun k => k.sealed || k.session != x.handle }
    { s with ssq := { s.ssq with sessions := tdel s.ssq.sessions i, incarn := tset s.ssq.incarn i ((x.handle / 2 ^ 26 + 1) % 2 ^ 38),
                                 corrupt := s.ssq.corrupt.filter (· != i) },
             sec := { s.sec with gens := tdel s.sec.gens i } }

/-- Release what is left of a partition's records, areas, bindings and adapters. -/
def wipeTables (n : Nat) (s : State) : State :=
  let mine := (s.tmg.records.filter fun r => r.2.part == n).map (·.1)
  let keep := fun h => !mine.contains h
  let s := s.setTmg { s.tmg with
    records := s.tmg.records.filter fun r => r.2.part != n
    moves := s.tmg.moves.filter fun m => keep m.handle
    areas := s.tmg.areas.filter fun a => a.part != n
    recWaits := s.tmg.recWaits.filter keep
    allocWaits := s.tmg.allocWaits.filter fun w => keep w.1
    deferred := s.tmg.deferred.filter fun w => keep w.1 }
  let s := s.setHrc { s.hrc with revive := s.hrc.revive.filter fun r => r.1 != n }
  { s with ssq := { s.ssq with models := s.ssq.models.filter fun m => m.part != n, tails := s.ssq.tails.filter fun t => t.part != n,
                               adapters := s.ssq.adapters.filter fun a => a.part != n } }

/-- Steps 1 to 3 of R445. -/
def wipeObjects (n : Nat) (s : State) : State :=
  let s := ((s.xfe.conns.filter fun c => c.2.part == n).map (·.1)).foldl (fun s i => wipeConn i s) s
  let s := ((s.xfe.regions.filter fun r => r.2.part == n).map (·.1)).foldl (fun s i => wipeRegion i s) s
  let s := ((List.range 64).filter fun e => s.getF (Reg.cwpExtentPartition e) == n).foldl (fun s e => wipeExtent e s) s
  let lookups := (s.pme.pendings.filter fun p => p.q.part == n).filterMap (·.cmd) ++ (s.pme.imports.filter fun i => i.2.cmd.part == n).map (·.2.cmd)
  let s := pmeDropPartition n s
  let s := lookups.foldl (fun s c => complete c { status := .partitionState } s) s
  let s := ((s.ssq.sessions.filter fun x => x.2.part == n).map (·.1)).foldl (fun s i => wipeSession i s) s
  let s := ((s.ssq.wheels.filter fun w => w.2.part == n).map (·.1)).foldl (fun s w => dropWheel w s) s
  wipeTables n s

/-- PARTITION_WIPE: the state WIPING and all that precedes the overwriting of memory (R415, R418, R445). A key exchange is abandoned;
turns that a drain has left end, and a PARTITION_DRAIN that still waits ends with ST_PARTITION_STATE (log 41). -/
def partitionWipe (c : Cmd) (s : State) : Res :=
  onPartition c [psLocked, psDraining, psReplay] (fun n s =>
    let s := settleDrain n (endTurns ((s.ssq.turns.filter (·.part == n)).map (·.session)) .partitionDrain s)
    let s := match tget s.mgc.drains n with
      | some d => completeOne d { status := .partitionState } { s with mgc := { s.mgc with drains := tdel s.mgc.drains n } }
      | none => s
    let s := setPstate n psWiping s
    let s := ({ s with sec := { s.sec with exchanges := tdel s.sec.exchanges n } }).setF (Reg.secPbKeysExchange n) 0
    .wait (wipeObjects n { s with mgc := { s.mgc with wipes := tset s.mgc.wipes n c } })) s

def execPartitionWipe (c : Cmd) (s : State) : Host.Outcome State Fault Refusal := .next (hostCmd 0x0706 c (partitionWipe c) s)

/-- Overwrite a device range of a tier with zeros, its poison and failing tags cleared. -/
def zeroRange (k a len : Nat) (s : State) : State :=
  let s := s.setTier k (memZero (s.tier k) a len)
  let inside := fun l => decide (a ≤ l * 64) && decide (l * 64 < a + len)
  let key0 := if k = 1 then 0 else (k + 1) * 2 ^ 56
  { s with cwp := { s.cwp with poison := s.cwp.poison.filter fun p => !(decide (key0 ≤ p.1) && decide (p.1 < key0 + 2 ^ 56) && inside (p.1 - key0)) },
           sec := { s.sec with badUnits := s.sec.badUnits.filter fun u => !(u.1 == k && decide (a ≤ u.2 * 512) && decide (u.2 * 512 < a + len)) } }

/-- Deallocate the blocks of a T3 range on its drives (R443). -/
def deallocT3 (base units : Nat) (s : State) : State :=
  let d := s.tmg.t3Drives
  d.zipIdx.foldl (fun s x =>
    let first := base + (x.2 + d.length - base % d.length) % d.length
    let count := if base + units ≤ first then 0 else cdiv (base + units - first) d.length
    if count = 0 ∨ s.flag (Reg.nvcDriveReady x.1) = false then s
    else (s.emit (.driveDealloc x.1 (capsuleRc s + first / d.length) count)).bumpBy (Ctr.nvcDeallocatedUnits x.1) count) s

/-- Step 4 of R445: T0 and T1 overwritten, the hoppers and stores of the partition's arrays cleared (R443); T2 and T3 unreadable with
their keys, so that they read as never written (log 1). -/
def wipeMemory (n : Nat) (s : State) : State :=
  let span := fun k => ((extentSpan s n k).1 * 4096, (extentSpan s n k).2 * 4096)
  let s := (List.range 8).foldl (fun s p => zeroRange 0 (p * (48 * gib) + (span 0).1) (span 0).2 s) s
  let s := [1, 2, 3].foldl (fun s k => zeroRange k (span k).1 (span k).2 s) s
  let s := { s with sec := { s.sec with memKeys := tdel s.sec.memKeys n, fabKeys := tdel s.sec.fabKeys n, mediaKeys := tdel s.sec.mediaKeys n },
                    mxg := s.mxg.filter fun h => !ownsArray s n h.1 }
  deallocT3 (extentSpan s n 3).1 (extentSpan s n 3).2 s

/-- What the fabric keeps of a partition whose wipe ends: its ids are freed (10 R327), its groups and idle requests go. -/
def wipeFabric (n : Nat) (s : State) : State :=
  let s := ((s.xfe.conns.filter fun c => c.2.part == n).map (·.1)).foldl (fun s i => freeConn i s) s
  let g := s.getF (Reg.mgcPbGroupBase n)
  { s with xfe := { s.xfe with groups := s.xfe.groups.filter fun m => !(decide (g ≤ m.1) && decide (m.1 < g + s.getF (Reg.mgcPbGroupCount n))) } }

/-- PARTITION_WIPE_DONE: the wipe's overwriting ends, once the partition's extents of the state window are FREE and its regions have
drained (R418, R445); the partition is UNCONFIGURED and its function's queues are gone (log 42). -/
def partitionWipeDone (n : Nat) (s : State) : State :=
  if n ≥ 16 ∨ s.pstate n ≠ psWiping then s
  else if (List.range 64).any fun e => s.getF (Reg.cwpExtentPartition e) == n && s.extState e != extFree then s
  else if s.xfe.regions.any fun r => r.2.part == n && r.2.state == .draining then s
  else
    let s := wipeFabric n (wipeMemory n s)
    let s := (List.range 80).foldl (fun s i =>
      if ownsArray s n i then (s.setF (Reg.mxgArrayPartition (i / 20) (i % 20)) 0).setF (Reg.mxgArrayOwned (i / 20) (i % 20)) 0 else s) s
    let s := loseQueues (n + 1) s
    let s := { s with hif := { s.hif with presented := s.hif.presented.filter fun p => p.2 != n + 1 },
                      frc := { s.frc with rings := tdel s.frc.rings (n + 1) } }
    let s := clearPartition n (setPstate n psUnconfigured (s.bump Ctr.secPartitionWipes))
    match tget s.mgc.wipes n with
    | some c => complete c {} { s with mgc := { s.mgc with wipes := tdel s.mgc.wipes n } }
    | none => s

def execPartitionWipeDone (part : Nat) (s : State) : Host.Outcome State Fault Refusal := .next (live (partitionWipeDone part) s)

end Sys2Proof.Machine
end

