-- ==== Sys2Proof/Machine/Security.lean ====
section
/-!
DEFINITION. Machine/Security.lean: attestation and key delivery (13 R420-R427), the firmware's minimum SVN and the lifecycle
(R438, R442), and the debug surface (R439-R441).
-/
set_option cleanup.letToHave false
namespace Sys2Proof.Machine

open Sys2Proof

-- SPDM (R422)

/-- The partition whose function a transport is: 0 I3C, 1 function 0, n + 2 the function of partition n. -/
def transportPart (t : Nat) : Option Nat := if 2 ≤ t then some (t - 2) else none

/-- Whether a transport is answered: I3C and function 0 while there is power (a function of an isolated LD is not reached, 14 R460), a
partition's function from its lock. -/
def spdmLive (s : State) (t : Nat) : Bool :=
  match transportPart t with
  | none => if t = 0 then !s.mgc.off else s.fnLive 0
  | some n => decide (n < 16) && s.fnLive (n + 1)

/-- The device has an identity: from PROVISIONED, and not DECOMMISSIONED (R442). -/
def hasIdentity (s : State) : Bool := s.sec.fuses.lifecycle == 1 || s.sec.fuses.lifecycle == 2

/-- Answer an SPDM request. -/
def spdmAnswer (t : Nat) (kind : String) (b : List Byte) (s : State) : State := if spdmLive s t then s.emit (.spdm t kind b) else s

/-- An answer that needs the certificate chain; without one, UnsupportedRequest (log 43). -/
def spdmChain (t : Nat) (kind : String) (b : List Byte) (s : State) : State :=
  if hasIdentity s then spdmAnswer t kind b s else spdmAnswer t "ERROR UnsupportedRequest" [] s

/-- SPDM 1.2 (R422; the message's bytes PRESUMED, log 43). -/
def execSpdmGetVersion (transport : Nat) (s : State) : Host.Outcome State Fault Refusal :=
  .next (spdmAnswer transport "VERSION" (leBytes 2 0x1200) s)

/-- The capability flags are an open value (log 4). -/
def execSpdmGetCapabilities (transport : Nat) (s : State) : Host.Outcome State Fault Refusal :=
  let (b, s') := s.freshBytes 4
  .next (if spdmLive s transport then spdmAnswer transport "CAPABILITIES" b s' else s)

/-- Bit 0 of an offer stands for ML-DSA-65 with SHAKE256, the algorithms the manual lists (R420, R421), every other bit for one it does not
list (log 43). -/
def spdmListed (offered : Nat) : Nat := offered % 2

/-- NEGOTIATE_ALGORITHMS: what is offered and listed comes into force on the transport; an offer of none is of unsupported options only
(00 R17). -/
def execSpdmNegotiateAlgorithms (transport offered : Nat) (s : State) : Host.Outcome State Fault Refusal :=
  .next (if !spdmLive s transport then s
    else if spdmListed offered = 0 then spdmAnswer transport "ERROR UnsupportedRequest" [] s
    else spdmAnswer transport "ALGORITHMS" (leBytes 8 (spdmListed offered)) { s with sec := { s.sec with spdm := tset s.sec.spdm transport (spdmListed offered) } })

def execSpdmGetDigests (transport : Nat) (s : State) : Host.Outcome State Fault Refusal :=
  .next (spdmChain transport "DIGESTS" (shake256 Config.certChain 64) s)

/-- Slot 0 holds the chain of R421; no other slot is answered. -/
def execSpdmGetCertificate (transport slot offset length : Nat) (s : State) : Host.Outcome State Fault Refusal :=
  .next (if slot = 0 then spdmChain transport "CERTIFICATE" ((Config.certChain.drop offset).take length) s
    else spdmAnswer transport "ERROR UnsupportedRequest" [] s)

def execSpdmUnsupportedRequest (transport : Nat) (s : State) : Host.Outcome State Fault Refusal :=
  .next (spdmAnswer transport "ERROR UnsupportedRequest" [] s)

-- Reports (R423)

/-- A run of 64-bit registers as bytes. -/
def runBytes (s : State) (f : Nat → Fld) (n : Nat) : List Byte := ((List.range n).map fun i => leBytes 8 (s.getF (f i))).flatten

/-- Whether a partition owns an extent of the state window. -/
def ownsExtent (s : State) (n : Nat) : Bool := (List.range 64).any fun e => s.extState e != extFree && s.getF (Reg.cwpExtentPartition e) == n

/-- Bytes 0x000 to 0x1FF of a report (R423); `part` 0xFF for a device-level one. -/
def reportBody (s : State) (part : Nat) (nonce kemHash : List Byte) : List Byte :=
  let p := part < 16
  let flags := (if s.isProtected part then 1 else 0) + 2 * s.getF (Reg.secPbKeysMemory part) + 4 * s.getF (Reg.secPbKeysFabric part) +
    (if ownsExtent s part then 8 else 0)
  leBytes 2 0x4152 ++ leBytes 2 1 ++ leBytes 4 3821 ++ leBytes 8 deviceUid ++ leBytes 1 s.sec.fuses.lifecycle ++ leBytes 1 0xA1 ++ leBytes 1 1 ++
    leBytes 1 part ++ leBytes 1 (if p then s.pstate part else 0) ++ leBytes 1 (if p then flags else 0) ++ leBytes 2 1 ++ leBytes 16 1 ++
    leBytes 4 (s.getF Reg.secFwSvn) ++ leBytes 4 (s.getF Reg.secFwVersion) ++ leBytes 8 (s.getF Reg.secDebugEvents) ++ zeros 8 ++
    shake256 Config.certChain 64 ++ ((List.range 8).map fun i => leBytes 8 (Config.romMeas i)).flatten ++ runBytes s Reg.secFwMeasData 8 ++
    (if p then runBytes s (Reg.secPbConfigMeas part) 8 else zeros 64) ++ slice nonce 0 32 ++ slice kemHash 0 32 ++
    (if p then runBytes s (Reg.mgcPbTenantKeyHash part) 4 else zeros 32) ++ zeros 96

/-- A signed report. -/
def report (s : State) (part : Nat) (nonce kemHash : List Byte) : List Byte :=
  let b := reportBody s part nonce kemHash
  b ++ slice (Config.mlDsaSign b (ascii "SV8-ATTEST")) 0 3309

/-- Answer a vendor-defined request with a status. -/
def spdmStatus (t : Nat) (st : Status) (s : State) : State := spdmAnswer t "STATUS" (leBytes 2 st.code) s

/-- What every vendor-defined request that names a partition passes (R422): its function's own partition, an identity (log 43). -/
def onTransport (t part : Nat) (k : State → State) (s : State) : State :=
  if !spdmLive s t then s
  else if (match transportPart t with
      | some n => n != part
      | none => false) then spdmStatus t .partitionState s
  else if !hasIdentity s then spdmStatus t .lifecycle s
  else k s

def attestationReport (t part : Nat) (nonce : List Byte) (s : State) : State :=
  onTransport t part (fun s =>
    if part < 16 ∨ part = 0xFF then spdmAnswer t "REPORT" (report s part nonce []) (s.bump Ctr.secReportsSigned)
    else spdmStatus t .invalidField s) s

def execAttestationReport (transport part : Nat) (nonce : List Byte) (s : State) : Host.Outcome State Fault Refusal :=
  .next (attestationReport transport part nonce s)

-- Key delivery (R425-R427)

/-- End an exchange: its decapsulation key and session key are destroyed. -/
def endExchange (n : Nat) (s : State) : State :=
  ({ s with sec := { s.sec with exchanges := tdel s.sec.exchanges n } }).setF (Reg.secPbKeysExchange n) 0

/-- Fail an exchange with a status (R426). -/
def failExchange (t n : Nat) (st : Status) (s : State) : State :=
  let s := endExchange n s
  spdmStatus t st (if st = .keyAuth then logEv .secKeyAuth pSec n [n] (s.bump Ctr.secKeyAuthFailures) else s)

/-- KEY_INIT, answered by KEY_OFFER: a report that names the fresh encapsulation key, and the key. -/
def keyInit (t part : Nat) (nonce : List Byte) (s : State) : State :=
  onTransport t part (fun s =>
    if 16 ≤ part then spdmStatus t .invalidField s
    else if s.pstate part ≠ psLocked ∨ !s.isProtected part ∨ (s.flag (Reg.secPbKeysMemory part) ∧ s.flag (Reg.secPbKeysFabric part)) ∨
        (tget s.sec.exchanges part).isSome then spdmStatus t .keyState s
    else if s.sec.fuses.lifecycle ≠ 2 then spdmStatus t .lifecycle s
    else
      let kem := s.free
      let s := { s with free := s.free + 1 }
      let ek := Config.mlKemPublic kem
      let r := report s part nonce (shake256 ek 32)
      let s := ({ s with sec := { s.sec with exchanges := tset s.sec.exchanges part { transport := t, kem := kem, report := r } } }).setF
        (Reg.secPbKeysExchange part) 1
      spdmAnswer t "KEY_OFFER" (r ++ ek) ((s.bump Ctr.secReportsSigned).bump Ctr.secKeyExchanges)) s

def execKeyInit (transport part : Nat) (nonce : List Byte) (s : State) : Host.Outcome State Fault Refusal :=
  .next (keyInit transport part nonce s)

/-- The exchange that a message goes on with: in progress, on its transport. -/
def exchangeOf (s : State) (t n : Nat) : Option Exchange := (tget s.sec.exchanges n).bind fun x => if x.transport = t then some x else none

/-- KEY_EXCH, answered by KEY_ACK: the three checks of R425, then K. -/
def keyExch (t part : Nat) (c pk sig : List Byte) (s : State) : State :=
  onTransport t part (fun s =>
    match exchangeOf s t part with
    | none => spdmStatus t .keyState s
    | some x =>
      let h := shake256 (x.report ++ c) 64
      if !x.kMac.isEmpty then failExchange t part .keyState s
      else if shake256 pk 32 ≠ runBytes s (Reg.mgcPbTenantKeyHash part) 4 ∨ !Config.mlDsaVerify pk h (ascii "SV8-TENANT") sig then
        failExchange t part .keyAuth s
      else
        match Config.mlKemDecap x.kem c with
        | none => failExchange t part .keyAuth s
        | some ss =>
          let k := shake256 (ss ++ h ++ ascii "SV8-KDF") 64
          let x := { x with kEnc := k.take 32, kMac := k.drop 32 }
          spdmAnswer t "KEY_ACK" (kmac256 x.kMac h 256 "SV8-ACK") { s with sec := { s.sec with exchanges := tset s.sec.exchanges part x } }) s

def execKeyExch (transport part : Nat) (ct pk sig : List Byte) (s : State) : Host.Outcome State Fault Refusal :=
  .next (keyExch transport part ct pk sig s)

/-- Whether a slot's key is loaded. -/
def slotLoaded (s : State) (part slot : Nat) : Bool := s.flag (if slot = 1 then Reg.secPbKeysMemory part else Reg.secPbKeysFabric part)

/-- KEY_DELIVER, answered by KEY_DONE: the tag, then the slot and its material (R425). -/
def keyDeliver (t part slot : Nat) (w tag : List Byte) (s : State) : State :=
  onTransport t part (fun s =>
    match exchangeOf s t part with
    | none => spdmStatus t .keyState s
    | some x =>
      let w := slice w 0 96
      let key := xorBytes w (shake256 (x.kEnc ++ leBytes 1 slot) 96)
      if x.kMac.isEmpty then failExchange t part .keyState s
      else if kmac256 x.kMac (leBytes 1 slot ++ w) 256 "SV8-WRAP" ≠ tag then failExchange t part .keyAuth s
      else if (slot ≠ 1 ∧ slot ≠ 2) ∨ slotLoaded s part slot ∨ key.take 32 = slice key 32 32 then failExchange t part .invalidField s
      else
        let s := if slot = 1 then ({ s with sec := { s.sec with memKeys := tset s.sec.memKeys part key } }).setF (Reg.secPbKeysMemory part) 1
          else ({ s with sec := { s.sec with fabKeys := tset s.sec.fabKeys part key } }).setF (Reg.secPbKeysFabric part) 1
        let s := if s.flag (Reg.secPbKeysMemory part) && s.flag (Reg.secPbKeysFabric part) then
            logEv .secKeysLoaded pSec part [part] (endExchange part s) else s
        spdmAnswer t "KEY_DONE" (leBytes 2 Status.ok.code) s) s

def execKeyDeliver (transport part slot : Nat) (wrapped tag : List Byte) (s : State) : Host.Outcome State Fault Refusal :=
  .next (keyDeliver transport part slot wrapped tag s)

/-- KEY_EXCHANGE_TIMEOUT: the exchange ends with ST_KEY_STATE (R426). -/
def execKeyExchangeTimeout (part : Nat) (s : State) : Host.Outcome State Fault Refusal :=
  .next (match tget s.sec.exchanges part with
    | some x => if s.mgc.off then s else failExchange x.transport part .keyState s
    | none => s)

-- Fuses (R438, R442)

/-- FW_COMMIT_SVN. -/
def fwCommitSvn (c : Cmd) (s : State) : Res :=
  need (c.argsOk [] && decide (c.dlen = 0)) .invalidField <|
  need (s.sec.fuses.lifecycle == 2) .lifecycle <|
  let v := max s.sec.fuses.svnMin (s.getF Reg.secFwSvn)
  .done ({ s with sec := { s.sec with fuses := { s.sec.fuses with svnMin := v } } }.setF Reg.secFwMinSvnMin v) {}

def execFwCommitSvn (c : Cmd) (s : State) : Host.Outcome State Fault Refusal := .next (hostCmd 0x0901 c (fwCommitSvn c) s)

/-- A lifecycle command: the device's UID (16 R525), a state that lists it, every partition UNCONFIGURED; in force at the next reset. Of
two changes before one reset the further one takes effect: a blown fuse stays blown (log 48). -/
def lifecycleTo (c : Cmd) (from_ : List Nat) (next : Nat) (s : State) : Res :=
  need (c.argsOk [(0, 8)] && decide (c.dlen = 0) && c.arg 0 8 == deviceUid) .invalidField <|
  need (from_.contains s.sec.fuses.lifecycle && s.allUnconfigured) .lifecycle <|
  .done { s with sec := { s.sec with fuses := { s.sec.fuses with next := some (max next (s.sec.fuses.next.getD 0)) } } } {}

def execLifecycleAdvance (c : Cmd) (s : State) : Host.Outcome State Fault Refusal := .next (hostCmd 0x0902 c (lifecycleTo c [1] 2) s)
def execLifecycleDecommission (c : Cmd) (s : State) : Host.Outcome State Fault Refusal := .next (hostCmd 0x0903 c (lifecycleTo c [1, 2] 3) s)

-- The debug surface (R439-R441)

/-- Whether the surface is there: power, and a lifecycle state from PROVISIONED onward. -/
def debugLive (s : State) : Bool := !s.mgc.off && decide (1 ≤ s.sec.fuses.lifecycle)

/-- Report a use of the surface (R441): 0 halt, 1 resume, 2 memory read, with core or space, address and length. -/
def debugEvent (facility what addr len : Nat) (s : State) : State :=
  logEv .secDebug pSec 0xFF [facility, what, addr, len] (s.setF Reg.secDebugEvents (s.getF Reg.secDebugEvents + 1))

def debugHalt (core : Nat) (s : State) : State :=
  if !debugLive s || decide (72 ≤ core) || s.mgc.coresHalted.contains core then s
  else debugEvent 0 core 0 0 (({ s with mgc := { s.mgc with coresHalted := s.mgc.coresHalted ++ [core] } }).bump Ctr.secDebugHalts)

def execDebugHalt (core : Nat) (s : State) : Host.Outcome State Fault Refusal := .next (debugHalt core s)

/-- What waited for a core goes on once it is resumed (R440): the merge of the parts whose items are done. -/
def coreFreed (s : State) : State := (tkeys s.ssq.wheels).foldl (fun s w => finishTail w (settleParts w s)) s

def debugResume (core : Nat) (s : State) : State :=
  if !debugLive s || !s.mgc.coresHalted.contains core then s
  else coreFreed (debugEvent 1 core 0 0 { s with mgc := { s.mgc with coresHalted := s.mgc.coresHalted.filter (· != core) } })

def execDebugResume (core : Nat) (s : State) : Host.Outcome State Fault Refusal := .next (debugResume core s)

-- One instruction of a tending core (11 R373)

/-- Entries of a register table written. -/
def tputs {α : Type} (l : List (Nat × α)) (t : Table α) : Table α := l.foldl (fun t e => tset t e.1 e.2) t

/-- The aperture of a core that holds an address. -/
def Core.apertureAt (k : Core) (addr : Nat) : Option Aperture := k.apertures.find? fun a => decide (a.base ≤ addr ∧ addr < a.base + 2 ^ 30)

/-- The OPEN connection of an aperture, with the right that the access needs at this end (R367). -/
def apertureConn (s : State) (a : Aperture) : Option Conn := (tget s.xfe.conns a.conn).filter fun c => c.state == .opened

/-- Map an aperture, of a connection to a node in this device's rack (01 R29); another is refused. -/
def mapAperture (core : Nat) (a : Aperture) (s : State) : State :=
  match tget s.xfe.conns a.conn with
  | some c =>
    if s.nodeValid && decide (c.node / 128 = s.node / 128) && decide (a.base % 2 ^ 30 = 0) then
      putCore core { s.core core with apertures := (s.core core).apertures.filter (fun b => b.base != a.base) ++ [a] } s
    else s
  | none => s

/-- A load: through an aperture it suspends its thread on a READ; what another, or one that cannot be sent, gives is open (log 44). -/
def coreLoad (core t len rd addr size : Nat) (signed : Bool) (s : State) : State :=
  let h := (s.core core).hart t
  let s := putHart core t { h with wait := .load rd addr size signed len } s
  match ((s.core core).apertureAt addr).bind fun a => (apertureConn s a).map fun c => (a, c) with
  | none => hartEnds (.remoteLoad core t) s
  | some (a, c) =>
    if lacksRight s c 2 then hartEnds (.remoteLoad core t) (senderRefusal c.part a.conn 2 s)
    else
      let (s, rid) := newRequest { conn := a.conn, op := 2, what := .remoteLoad core t, len := size } (s.bump Ctr.xfeRemoteLoads)
      sendMsg a.conn { seq := 0, op := 2, cls := 1, addr := (a.offset + (addr - a.base)) % 2 ^ 47, rkey := a.key, rgen := a.gen,
                       arg := leBytes 4 rid ++ zeros 4 ++ leBytes 4 size, req := some rid } s

/-- A store: through an aperture a single-packet WRITE, which the thread's next fence covers. -/
def coreStore (core t addr size value : Nat) (s : State) : State :=
  match ((s.core core).apertureAt addr).bind fun a => (apertureConn s a).map fun c => (a, c) with
  | none => s
  | some (a, c) =>
    if lacksRight s c 1 then senderRefusal c.part a.conn 1 s
    else
      let h := (s.core core).hart t
      let s := putHart core t { h with stored := if h.stored.contains a.conn then h.stored else h.stored ++ [a.conn] } s
      sendMsg a.conn { seq := 0, op := 1, cls := 1, addr := (a.offset + (addr - a.base)) % 2 ^ 47, rkey := a.key, rgen := a.gen,
                       data := leBytes size value } s

/-- A FENCE: a FLUSH on every connection that the thread has stored to since its last one; the thread waits for them. -/
def coreFence (core t len : Nat) (s : State) : State :=
  let h := (s.core core).hart t
  let l := h.stored.filter fun id => ((tget s.xfe.conns id).map (·.state)) == some .opened
  if l.isEmpty then putHart core t { h with pc := (h.pc + len) % 2 ^ 64, stored := [] } s
  else l.foldl (fun s id => ownFlush id 1 (.coreFence core t) s) (putHart core t { h with stored := [], wait := .fence l.length len } s)

/-- The instruction of `len` bytes that a core's next ready thread is at. -/
def coreStep (core len : Nat) (act : CoreAct) (s : State) : State :=
  match (s.core core).ready with
  | none => s
  | some t =>
    let s := putCore core { s.core core with current := t } s
    let on := fun (s : State) => let h := (s.core core).hart t; putHart core t { h with pc := (h.pc + len) % 2 ^ 64 } s
    match act with
    | .inner x f v csr pc =>
      let h := (s.core core).hart t
      putHart core t { h with x := tputs (x.filter fun e => e.1 != 0) h.x, f := tputs f h.f, v := tputs v h.v, csr := tputs csr h.csr, pc := pc } s
    | .aperture base conn key gen offset => on (mapAperture core { base := base, conn := conn, key := key, gen := gen, offset := offset } s)
    | .load rd addr size signed => coreLoad core t len rd addr size signed s
    | .store addr size value => on (coreStore core t addr size value s)
    | .fence => coreFence core t len s

/-- The page of a core: its compute die's, or for a hub core the management controller's (log 44). -/
def corePage (core : Nat) : Nat := if core < 64 then pTcc + core / 16 else pMgc

/-- An instruction of a core goes to the trace buffer while its page's TRACE_EN is set (R439, 16 R515; log 45). -/
def traceStep (core : Nat) (s : State) : State :=
  if s.flag (Reg.blkCtrlTraceEn (corePage core)) then
    let (b, s) := s.freshBytes 64
    traceRecord (.insn core ((s.core core).ready.getD 0) b) s
  else s

/-- DEBUG_STEP: a halted core runs one instruction of its program, which the command brings (log 44); without a clock, in QUIESCE and MGMT, it does not (15 R482). -/
def execDebugStep (step : CoreStep) (s : State) : Host.Outcome State Fault Refusal :=
  .next (if !debugLive s || !s.mgc.coresHalted.contains step.core || s.pwr == pwrQuiesce || s.pwr == pwrMgmt then s
    else coreStep step.core step.len step.act (traceStep step.core s))

/-- The partition whose extent or tag area, first unit and units, holds a 4 KiB unit of T1, T2 or T3. -/
def ownerOf (s : State) (k unit : Nat) : Option Nat :=
  (List.range 16).find? fun n => decide (psLocked ≤ s.pstate n) && spansMeet (extentSpan s n k) (unit, 1)

-- What stands in a tier beside page slots (R429, R440)

/-- A column of the pool in T0, or a folded one in T1 (07 R210). -/
def columnObject (i : Nat) (c : Column) : Stored :=
  { part := c.part, unit := Config.objectUnit (if 2 ^ 31 ≤ i then 1 else 3) i, kind := 2, gen := c.gen, bytes := Column.bytes i c }

/-- The count table of a turn, in T0 (06 R200). -/
def countObject (t : Turn) : Stored := { part := t.part, unit := Config.objectUnit 4 t.slot, kind := 0, gen := 0, bytes := slice (countBytes t.counts) 0 32768 }

/-- The objects that the device keeps in a tier for its partitions. -/
def objectsIn (s : State) (k : Nat) : List Stored :=
  (s.ssq.sessions.map fun x => sessionObjects s k x.1 x.2).flatten ++
    ((s.pme.columns.filter fun c => (decide (2 ^ 31 ≤ c.1) && k == 1) || (decide (c.1 < 2 ^ 31) && k == 0)).map fun c => columnObject c.1 c.2) ++
    (if k = 0 then (s.ssq.turns.filter (·.state != .queued)).map countObject else [])
def objectAt (s : State) (k u : Nat) : Option Stored := (objectsIn s k).find? (·.has u)

-- Withdrawn units of a direct window (14 R454)

/-- The unit of a direct window that a 4 KiB row is the home of. -/
def homeUnit (s : State) (n k row : Nat) : Nat :=
  let d := s.directBase n k / 4096
  if k = 0 then (row % stackUnits - d) * 8 + row / stackUnits else row - d

/-- The row in which a unit of a direct window stands: its home, unless it was copied. -/
def unitRow (s : State) (n k : Nat) (moved : List (Nat × Nat)) (i : Nat) : Nat :=
  ((moved.find? (·.1 == i)).map (·.2)).getD (s.directAddr n k (i * 4096) / 4096)

/-- The units of a direct window after withdrawals: how many there are, and those that stand in another row than their home. Each withdrawal
takes the last unit's row, and what stood in the withdrawn row is copied there (log 77). -/
def directRows (s : State) (n k : Nat) : Nat × List (Nat × Nat) :=
  (s.frc.withdrawn.filter fun u => u.1 == k && inPart s n k u.2 true).foldl (fun (a : Nat × List (Nat × Nat)) u =>
    let last := a.1 - 1
    let row := unitRow s n k a.2 last
    let i := ((a.2.find? (·.2 == u.2)).map (·.1)).getD (homeUnit s n k u.2)
    (last, (a.2.filter fun m => m.1 != last && m.1 != i) ++ if i = last then [] else [(i, row)]))
    (s.getF (Reg.mgcPbExtentDirect4k n k) * (if k = 0 then 8 else 1), [])

/-- The unit of a direct window that stands in a row of it; none for a row withdrawn. -/
def rowHolds (s : State) (n k row : Nat) : Option Nat :=
  let (units, moved) := directRows s n k
  match moved.find? (·.2 == row) with
  | some m => some m.1
  | none => let i := homeUnit s n k row; if i < units ∧ !(moved.any (·.1 == i)) then some i else none

/-- The 512-byte unit whose data stands in a unit's row; none for a row withdrawn. -/
def dataUnit (s : State) (k u : Nat) : Option Nat :=
  if s.frc.withdrawn.isEmpty then some u
  else
    match (List.range 16).find? fun n => decide (psLocked ≤ s.pstate n) && inPart s n k (u / 8) true with
    | some n => (rowHolds s n k (u / 8)).map fun i => s.directAddr n k (i * 4096) / 512 + u % 8
    | none => if s.frc.withdrawn.contains (k, u / 8) then none else some u

/-- GEN, UNIT and KIND of the tweak of R429 for a 512-byte unit of a tier: of a direct part, of a page slot, or of another object of the
partition; none where nothing stands. -/
def unitTweak (s : State) (n k u : Nat) : Option (Nat × Nat × Nat) :=
  let d := s.directBase n k / 512
  if d ≤ u ∧ u < d + s.directSize n k / 512 then some (0, u - d, 6)
  else
    let recs := tvals s.tmg.records ++ ((tvals s.ssq.sessions).map (·.folded)).flatten ++ ((tvals s.pme.columns).map (·.folded)).flatten
    let slot := (recs.filter (·.part == n)).findSome? fun r =>
      (r.slotsIn k).findSome? fun x => if x.1 * 8 ≤ u ∧ u < (x.1 + x.2) * 8 then some (r.gen, u - x.1 * 8, 1) else none
    slot.or (((objectsIn s k).find? fun o => o.part == n && o.has u).map fun o => (o.gen, u - o.unit + o.first, o.kind))

-- The debug trace buffer (R439)

/-- The 64 bytes of a record of the trace buffer; those of an instruction of a core are an open value (log 45). -/
def TraceRec.bytes : TraceRec → List Byte
  | .event r => r.bytes false false
  | .insn _ _ b => slice b 0 64

/-- The 512 bytes at unit `j` of the 64 MiB trace buffer: eight records, each where it was written. -/
def traceUnit (s : State) (j : Nat) : List Byte :=
  ((List.range 8).map fun i =>
    let place := 8 * j + i
    ((s.sec.trace[(s.sec.traceNext + 2 ^ 20 - 1 - place) % 2 ^ 20]?).map TraceRec.bytes).getD (zeros 64)).flatten

/-- Whether a unit of T1 lies in the trace buffer. -/
def inTrace (k u : Nat) : Bool := k == 1 && decide (Config.objectUnit 2 0 ≤ u) && decide (u < Config.objectUnit 2 0 + 2 ^ 17)

/-- The 256 bytes of a bucket of the cold index at a T1 address, a home bucket without entries included (07 R236). -/
def bucketHere (s : State) (a : Nat) : Option (List Byte) :=
  match s.pme.cold.findSome? fun h => (List.range h.2.length).findSome? fun c =>
      if bucketAt s h.1 (h.2.getD c {}) = a then some (bucketBytes s h.1 c) else none with
  | some b => some b
  | none =>
    let base := s.getF Reg.pmeColdBase
    if base ≤ a ∧ a < base + 256 * s.getF Reg.pmeColdCapBuckets ∧ (a - base) % 256 = 0 then some (bucketBytes s ((a - base) / 256) 0) else none

/-- The 512 bytes of a unit of a tier: of a session map (04 R128), of an object of R429, of the cold index (07 R236), else of memory. -/
def plainUnit (s : State) (k u : Nat) : List Byte :=
  let map := if k ≠ 0 then none else (tvals s.ssq.sessions).findSome? fun x =>
    if x.foldTier = 0 then (x.mapAt.find? fun p => p.2 == u / 8).map fun p => slice (x.pieceBytes p.1) (u % 8 * 512) 512 else none
  let bucket := fun (a : Nat) => if k ≠ 1 then none else bucketHere s a
  match map.or ((objectAt s k u).map fun o => o.at_ u) with
  | some b => b
  | none => (bucket (u * 512)).getD (memRead (s.tier k) (u * 512) 256) ++ (bucket (u * 512 + 256)).getD (memRead (s.tier k) (u * 512 + 256) 256)

/-- The 16 bytes of a tweak (R429). -/
def memTweak (n : Nat) (t : Nat × Nat × Nat) : List Byte := leBytes 8 t.1 ++ leBytes 6 t.2.1 ++ leBytes 1 t.2.2 ++ leBytes 1 n

/-- The key under which a tier holds a partition's units: the MEMORY key, or the media key in T2 and T3 (R429, R434). -/
def storeKey (s : State) (n k : Nat) : Option (List Byte) :=
  if s.isProtected n then tget s.sec.memKeys n else if k = 1 then none else tget s.sec.mediaKeys n

/-- Whether a unit of T1 holds a bucket of the cold index (07 R236). -/
def holdsBucket (s : State) (u : Nat) : Bool := (bucketHere s (u * 512)).isSome || (bucketHere s (u * 512 + 256)).isSome

/-- A unit of an object under a partition's key: ciphertext where the partition is protected (R429). -/
def objectCipher (s : State) (o : Stored) (k u : Nat) : List Byte :=
  match (if s.isProtected o.part then storeKey s o.part k else none) with
  | some key => Config.aesXts (key.take 64) (memTweak o.part (o.gen, u - o.unit + o.first, o.kind)) (o.at_ u)
  | none => o.at_ u

/-- A 512-byte unit of T1, T2 or T3 as stored (R440): plain, ciphertext, or open bytes where nothing of a protected partition stands, or where
the device keeps data of its own at a place of its choice (log 45). -/
def storedUnit (k u : Nat) (s : State) : List Byte × State :=
  let plain := plainUnit s k u
  match ownerOf s k (u / 8) with
  | none =>
    if inTrace k u then (traceUnit s (u - Config.objectUnit 2 0), s)
    else match objectAt s k u with
      | some o => (objectCipher s o k u, s)
      | none => if k = 1 ∧ holdsBucket s u = false then s.freshBytes 512 else (plain, s)
  | some n =>
    if k = 1 ∧ s.isProtected n = false then (plain, s)
    else
      let e := extentSpan s n k
      let tags := e.1 * 8 + extentUnits s n k * 8
      match storeKey s n k with
      | none => s.freshBytes 512
      | some key =>
        if tags ≤ u then
          let first := e.1 * 8 + (u - tags) * 64
          (List.range 64).foldl (fun (r : List Byte × State) i =>
            match unitTweak r.2 n k (first + i) with
            | some t =>
              if r.2.sec.badUnits.contains (k, first + i) then let (b, s) := r.2.freshBytes 8; (r.1 ++ b, s)
              else
                let w := memTweak n t
                let c := Config.aesXts (key.take 64) w (plainUnit r.2 k (first + i))
                (r.1 ++ kmac256 (key.drop 64) (w ++ c) 64 "SV8-MEM", r.2)
            | none => let (b, s) := r.2.freshBytes 8; (r.1 ++ b, s)) ([], s)
        else
          match unitTweak s n k u with
          | some t => (Config.aesXts (key.take 64) (memTweak n t) plain, s)
          | none => s.freshBytes 512

/-- Sixteen entries of the page record table (04 R127, R129), from the one of handle `h`. -/
def tableUnit (s : State) (h : Nat) : List Byte := ((List.range 16).map fun i => ((s.rec? (h + i)).map recBytes).getD (zeros 32)).flatten

/-- A 512-byte unit of T0: the page record table, what the device keeps at places of its choice, what it holds in the page part beside slots
and maps, open (08 R255, log 45), else what stands there. -/
def clearUnit (u : Nat) (s : State) : List Byte × State :=
  let dir := s.getF Reg.tmgDirBaseAddr / 512
  if dir ≠ 0 ∧ dir ≤ u ∧ u < dir + cdiv (32 * (s.getF Reg.tmgDirCapRecords + 1)) 512 then (tableUnit s (16 * (u - dir)), s)
  else if (objectAt s 0 u).isSome then (plainUnit s 0 u, s)
  else if 47 * gib ≤ u * 512 % (48 * gib) then s.freshBytes 512
  else
    let held := fun (n : Nat) => decide (psLocked ≤ s.pstate n) && inPart s n 0 (u / 8) false && decide (allAreas s n ≠ 0) &&
      !((slotsOf s n 0 ++ mapSlots s n 0).any fun x => decide (x.1 ≤ u / 8 ∧ u / 8 < x.1 + x.2))
    if (List.range 16).any held then s.freshBytes 512 else (plainUnit s 0 u, s)

/-- Bytes of a tier as the debug surface reads them: T0 in clear, the others as stored (R440); a row withdrawn is open (14 R454). -/
def debugBytes (k addr len : Nat) (s : State) : List Byte × State :=
  let u := addr / 512
  let units := if len = 0 then 0 else (addr + len - 1) / 512 + 1 - u
  let read := fun (v : Nat) (s : State) =>
    match dataUnit s k v with
    | none => s.freshBytes 512
    | some v => if k ≠ 0 then storedUnit k v s else clearUnit v s
  let (b, s) := (List.range units).foldl (fun (r : List Byte × State) i => let (b, s) := read (u + i) r.2; (r.1 ++ b, s)) ([], s)
  ((b.drop (addr % 512)).take len, s)

/-- Byte `i` of an array's hopper (05 R167): the score area, value retention and the stream area in the table's order; what they leave
of the 2 MiB reads 0 (log 69). -/
def ArrayMem.hopperByte (h : ArrayMem) (i : Nat) : Byte :=
  let kept := h.qPass * 16384
  let stream := kept + 4096 * (h.dv + 1)
  if i < kept then (leBytes 4 (h.scores.getD (i / 4) 0)).getD (i % 4) 0
  else if i < stream then let j := i - kept; (tgetD h.values (j / (32 * (h.dv + 1))) []).getD (j % (32 * (h.dv + 1))) 0
  else (h.stream.getD ((i - stream) / 4096) []).getD ((i - stream) % 4096) 0

/-- Bytes of the hoppers (2 MiB each) or of the accumulation and query stores (512 KiB each), array after array (01 R21). -/
def arrayBytes (s : State) (space addr len : Nat) : List Byte :=
  (List.range len).map fun j =>
    let i := addr + j
    if space = 4 then (tgetD s.mxg (i / 2 ^ 21) {}).hopperByte (i % 2 ^ 21) else (tgetD s.mxg (i / 2 ^ 19) {}).store.getD (i % 2 ^ 19) 0

/-- The size of a space that the debug surface reads: a tier, the 160 MiB of hoppers, the 40 MiB of stores (01 R21). -/
def debugSpan (s : State) (space : Nat) : Nat :=
  if space = 4 then 160 * 2 ^ 20 else if space = 5 then 40 * 2 ^ 20 else s.getF (Reg.tmgTierCapSize4k space) * 4096

/-- A register of a thread, as the RISC-V External Debug Support specification numbers them (log 44): CSRs from 0, among them the pc as DPC and
the privilege mode in DCSR, x from 0x1000, f from 0x1020, v from 0xC000. -/
def Hart.register (h : Hart) (r : Nat) : List Byte :=
  if r = 0x7B1 then leBytes 8 h.pc
  else if r = 0x7B0 then leBytes 8 h.priv
  else if r < 0x1000 then leBytes 8 (tgetD h.csr r 0)
  else if r < 0x1020 then leBytes 8 (tgetD h.x (r - 0x1000) 0)
  else if r < 0x1040 then leBytes 8 (tgetD h.f (r - 0x1020) 0)
  else tgetD h.v (r - 0xC000) []

/-- Inspect a register of a halted core (R439): `addr` is 2^16 * (4 * core + thread) + register. -/
def inspectCore (addr : Nat) (s : State) : State :=
  let core := addr / 2 ^ 18
  let r := addr % 2 ^ 16
  if decide (72 ≤ core) || !s.mgc.coresHalted.contains core || !(decide (r < 0x1040) || decide (0xC000 ≤ r ∧ r < 0xC020)) then s
  else s.emit (.debugData (((s.core core).hart (addr / 2 ^ 16 % 4)).register r))

/-- DEBUG_MEMORY_READ: tier 0 to 3, 4 the hoppers, 5 the accumulation and query stores; 6 the registers of halted cores, whose inspection R441
does not report. What reaches beyond the memory or into SEC-private memory is not read. -/
def debugMemoryRead (space addr len : Nat) (s : State) : State :=
  if !debugLive s || decide (7 ≤ space) then s
  else if space = 6 then inspectCore addr s
  else if debugSpan s space < addr + len ∨ (space = 0 ∧ 0x5FC0000000 < addr + len) then s
  else
    let (b, s) := if space < 4 then debugBytes space addr len s else (arrayBytes s space addr len, s)
    (debugEvent 2 space addr len (s.bump Ctr.secDebugReads)).emit (.debugData b)

def execDebugMemoryRead (space addr len : Nat) (s : State) : Host.Outcome State Fault Refusal := .next (debugMemoryRead space addr len s)

end Sys2Proof.Machine
end

