-- ==== Sys2Proof/Machine/FaultRows.lean ====
section
/-!
DEFINITION. Machine/FaultRows.lean: the errors that blocks detect and their immediate actions (14 R447-R449), what ends a targeted
self-test and what it retires (14 R453-R455), withdrawal of units (14 R454), and the header's error, injection, self-test and
expert-window registers (16 R515, R516, R519).
-/
set_option cleanup.letToHave false
namespace Sys2Proof.Machine

open Sys2Proof

-- Errors (R448)

def arrayUnit (a : Nat) : Resource := ⟨pMxg + a / 20, 2, a⟩
def coreUnit (c : Nat) : Resource := ⟨pTcc + c / 16, 3, c⟩
def pageType (slot : Nat) : Nat := ((page? slot).map (·.type)).getD 0
def pageInst (slot : Nat) : Nat := ((page? slot).map (·.inst)).getD 0

/-- The partition that a tier's unit belongs to, 0xFF if none. -/
def unitPart (s : State) (tier unit : Nat) : Nat :=
  ((List.range 16).find? fun n => decide (psLocked ≤ s.pstate n) && (inPart s n tier unit false || inPart s n tier unit true)).getD 0xFF

/-- The layer part, the item and the array of an item that an array runs. -/
def runningItem (s : State) (w stamp item : Nat) : Option (Wheel × LayerPart × Item × Nat) :=
  (s.wheel? w).bind fun x => (x.parts.find? (·.stamp == stamp)).bind fun p => (p.items[item]?).bind fun i =>
    if i.done then none else i.array.map fun a => (x, p, i, a)

/-- Deal an item again: it leaves its array and its gang for a gang of its own (R448). -/
def dealAgain (item : Nat) (p : LayerPart) : LayerPart :=
  { p with gangs := p.gangs ++ [({} : Gang)],
           items := p.items.zipIdx.map fun e => if e.2 = item then { e.1 with gang := p.gangs.length, array := none, failedOn := e.1.array } else e.1 }

/-- The residue check of an array differs (R448): the array takes no further item until its self-test ends, the item is dealt again, and a
second failure of it ends the turns that read it. The re-run completes the classification of the first (R450). -/
def residueError (w stamp item : Nat) (s : State) : State :=
  match runningItem s w stamp item with
  | none => s
  | some (x, p, i, a) =>
    let s := s.setFrc { s.frc with held := if s.frc.held.contains a then s.frc.held else s.frc.held ++ [a] }
    let turns := sessionsOf s (itemTurns x i.kind)
    let err : ErrIn := { slot := pMxg + a / 20, inst := a / 20, ev := .mxgResidue, cls := .corrected, part := x.part, resource := a,
                         session := (metBy turns w).session, wheel := w, layer := p.layer, unit := some (arrayUnit a), against := [(2, a)] }
    if i.failedOn.isSome then
      let s := settleWhere (· == (w, stamp, item)) false s
      finishTail w (settleParts w (markDone w stamp item (endTurns turns .pageCorrupt (raiseErr { err with cls := .contained } s))))
    else
      raiseErr { err with rerun := some (w, stamp, item), alone := (arraysOf s x.part).all (· == a) } (modPart w stamp (dealAgain item) s)

/-- A tending core has an uncorrectable error (R448): it stops, and the wheels whose work it held have their steps rolled back. -/
def coreError (c : Nat) (wheels : List Nat) (s : State) : State :=
  if 64 ≤ c ∨ s.mgc.coresStopped.contains c ∨ s.mgc.coresRetired.contains c then s
  else
    let s := { s with mgc := { s.mgc with coresStopped := s.mgc.coresStopped ++ [c] } }
    let s := raiseErr { slot := pTcc + c / 16, inst := c / 16, ev := .uncorrected 0x11, cls := .contained, resource := c, unit := some (coreUnit c),
                        wheel := (wheels.head?).getD 0xFFFF, against := [(3, c)] } s
    wheels.foldl (fun s w => match s.wheel? w with
      | some x => refuseExchange w x [] s
      | none => s) s

/-- An uncorrectable error on the read of a page (R448, 04 R125, R142): the reading turns end and the page passes to recovery. -/
def pageReadError (h : Nat) (gang : Option (Nat × Nat × Nat)) (s : State) : State :=
  match s.rec? h with
  | none => s
  | some r =>
    let (slot, _, _, inst) := expanderOf s r.tier r.base
    let err := fun (who : Met) => raiseErr
      { slot := slot, inst := inst, ev := .uncorrected (pageType slot), cls := .contained, part := r.part, resource := r.base * 4096,
        session := who.session, wheel := who.wheel, layer := r.layer, unit := rowUnit? r.tier r.base, against := [(0, h)] }
    let s := if r.tier = 1 then s.bump (Ctr.ddcUeChannel inst) else s
    match gang with
    | none =>
      let readers := stepReaders s h r ++ reviveReaders s h
      startRecovery h (endTurns readers .pageCorrupt (err (metBy readers (((readers.findSome? (turnOf s)).map (·.wheel)).getD 0xFFFF)) s))
    | some (w, stamp, g) =>
      match (s.wheel? w).bind fun x => (x.parts.find? (·.stamp == stamp)).bind fun p => (s.model? x.part x.model).map fun m => (x, p, m) with
      | none => s
      | some (x, p, m) =>
        if !(((p.gangs[g]?).map fun k => k.toRead.contains h).getD false) then s
        else
          let turns := sessionsOf s (namersOf s x m p g h)
          let s := modPart w stamp (modGang g fun k => { k with toRead := k.toRead.filter (· != h) }) (err (metBy turns w) s)
          startRecovery h (endTurns turns .pageCorrupt s)

/-- An entry, a bucket or a column of the prefix engine is uncorrectable (R448): it is invalidated and a column sweep is due. -/
def prefixSweep (n : Nat) (s : State) : State := modPme (fun p => { p with sweeps := if p.sweeps.contains n then p.sweeps else p.sweeps ++ [n] }) s

def prefixError (part resource : Nat) (unit : Option Resource) (s : State) : State :=
  raiseErr { slot := pPme, ev := .corrected 5, cls := .corrected, part := part, resource := resource, unit := unit } (prefixSweep part s)

/-- A bucket's CHECK fails: the walk that meets it ends there (07 R237). -/
def bucketError (part home chain : Nat) (s : State) : State :=
  if (tgetD s.pme.cold home []).length ≤ chain then s
  else (coldWalk home part (modPme (fun p => { p with cold := tmod p.cold home fun l => l.zipIdx.map fun b => if b.2 = chain then { b.1 with bad := true } else b.1 }) s)).1

/-- The partition in which a page record, session map or bank is lost, or a count underflowed, drains at once (R448). -/
def partitionFault (ev : Ev) (slot inst part resource : Nat) (unit : Option Resource) (s : State) : State :=
  partitionError part (raiseErr { slot := slot, inst := inst, ev := ev, cls := .partition, part := part, resource := resource, unit := unit } s)

/-- The counter of a page for corrected errors, where it has one (07 PME, 08 DDC counters). -/
def countCorrected (slot inst : Nat) (s : State) : State :=
  if slot = pDdc then s.bump (Ctr.ddcCeChannel inst) else if slot = pPme then s.bump Ctr.pmeEntryEccCorrected else s

/-- The immediate action of an error, its log entry and its handler (R448, R449). -/
def detectError (slot inst : Nat) (source : ErrSource) (s : State) : State :=
  let s := s.setFrc { s.frc with injected := tdel s.frc.injected slot }
  match source with
  | .corrected => raiseErr { slot := slot, inst := inst, ev := .corrected (pageType slot), cls := .corrected } (countCorrected slot inst s)
  | .correctedRow tier unit =>
    if 1 < tier then s
    else
      let r := rowUnit tier unit
      let inst := (expanderOf s tier unit).2.2.2
      raiseErr { slot := r.slot, inst := inst, ev := .corrected (pageType r.slot), cls := .corrected, part := unitPart s tier unit,
                 resource := unit * 4096, unit := some r } (countCorrected r.slot inst s)
  | .pageRead h g => pageReadError h g s
  | .tampered tier unit => { s with sec := { s.sec with badUnits := if s.sec.badUnits.contains (tier, unit) then s.sec.badUnits else s.sec.badUnits ++ [(tier, unit)] } }
  | .sessionDescriptor i => descriptorError i s
  | .arrayResidue w st i => residueError w st i s
  | .core c ws => coreError c ws s
  | .prefixEntry set way =>
    match tget s.pme.entries (set * 128 + way) with
    | none => s
    | some e => prefixError e.part (set * 128 + way) (some (bankUnit (bankOfSet set))) (dropAt (.way set way) s)
  | .coldBucket part home chain => bucketError part home chain s
  | .column i =>
    match tget s.pme.columns i with
    | none => s
    | some c => prefixError c.part i none (dropColumnsEntries [i] (modPme (fun p => { p with columns := tmod p.columns i fun c => { c with bad := true } }) s))
  | .partitionRecord n row => if n < 16 then partitionFault (.uncorrected (pageType slot)) slot inst n 0 (row.bind fun u => rowUnit? u.1 u.2) s else s
  | .refUnderflow h =>
    match s.rec? h with
    | none => s
    | some r => partitionFault .tmgRefFault pTmg 0 r.part h none s
  | .hub => goFatal (raiseErr { slot := slot, inst := inst, ev := .uncorrected (pageType slot), cls := .fatal } s)
  | .logPath => fenceBlock slot inst (logFull (.errlogFault (pageType slot)) slot inst 0xFF 4 0 [slot, inst] s)

/-- ERROR_DETECTED: also in FATAL, in which errors go on being contained and logged (R448). -/
def execErrorDetected (slot inst : Nat) (source : ErrSource) (s : State) : Host.Outcome State Fault Refusal :=
  .next (if (page? slot).isNone ∨ isFenced s slot inst then s else powered (detectError slot inst source) s)

-- Units withdrawn (R454)

/-- A lower copy that touches withdrawn units moves to another slot of its tier, and is given up where there is none. -/
def withdrawLower (tier index : Nat) (r : PageRec) (s : State) : State × PageRec :=
  match allocSlot s r.part tier r.slot4k ((r.layer + r.page + index) % 8) with
  | some b => (releaseSlot tier r.lowerBase r.slot4k (copySlot tier r.lowerBase tier b r.slot4k s), { r with lowerBase := b })
  | none => (releaseSlot tier r.lowerBase r.slot4k s, { r with lowerValid := false, lowerBase := 0, lowerTier := 0, dirty := true })

/-- Move a slot that touches withdrawn units, within its tier if a slot is free there, else to the next deeper tier. -/
def withdrawMoves (tier unit : Nat) (s : State) : State :=
  s.tmg.records.foldl (fun s e =>
    let r := e.2
    let hits := fun (b : Nat) => decide (b ≤ unit) && decide (unit < b + r.slot4k)
    let s := if r.lowerValid && r.lowerTier == tier && hits r.lowerBase then
        let (s, r) := withdrawLower tier (stackIndex s e.1) r s
        putRec e.1 r s
      else s
    if r.tier == tier && hits r.base then spillMove e.1 tier .withdraw s else s) s

/-- The same for a page of a folded map or column, whose record has no handle. -/
def withdrawFolded (tier unit index : Nat) (r : PageRec) (s : State) : State × PageRec :=
  let hits := fun (b : Nat) => decide (b ≤ unit) && decide (unit < b + r.slot4k)
  let (s, r) := if r.lowerValid && r.lowerTier == tier && hits r.lowerBase then withdrawLower tier index r s else (s, r)
  if r.tier == tier && hits r.base then foldedPlace r tier index s else (s, r)

/-- The folded pages, map pieces and cold map of a session give up a withdrawn unit. -/
def withdrawSession (tier unit i : Nat) (s : State) : State :=
  match tget s.ssq.sessions i with
  | none => s
  | some x =>
    let (s, l) := x.folded.foldl (fun (a : State × List PageRec) r => let (s, r) := withdrawFolded tier unit i r a.1; (s, a.2 ++ [r])) (s, [])
    let pieces := if tier = 0 then x.mapAt.filter fun p => p.2 != unit else x.mapAt
    let cold := if x.foldTier = tier ∧ tier ≠ 0 ∧ x.coldAt.1 ≤ unit ∧ unit < x.coldAt.1 + x.coldAt.2 then
        ((allocUnits s x.part tier x.coldAt.2 (i % 8)).map fun b => (b, x.coldAt.2)).getD x.coldAt
      else x.coldAt
    placeMap i (modSession i (fun x => { x with folded := l, mapAt := pieces, coldAt := cold }) s)

/-- The pages of a folded column give up a withdrawn unit. -/
def withdrawColumn (tier unit i : Nat) (s : State) : State :=
  match tget s.pme.columns i with
  | none => s
  | some c =>
    let (s, l) := c.folded.foldl (fun (a : State × List PageRec) r => let (s, r) := withdrawFolded tier unit a.2.length r a.1; (s, a.2 ++ [r])) (s, [])
    { s with pme := { s.pme with columns := tmod s.pme.columns i fun c => { c with folded := l } } }

/-- Withdraw a unit: its slots move, the loss shows in PAGE_4K or DIRECT_4K, and the row to which a direct window's data was copied is logged,
the withdrawn one itself if its data was given up with the window's last unit (log 77). -/
def withdrawUnit (slot tier unit : Nat) (s : State) : State :=
  if s.frc.withdrawn.contains (tier, unit) then s
  else
    let old := s
    let s := (s.setFrc { s.frc with withdrawn := s.frc.withdrawn ++ [(tier, unit)] }).bump Ctr.frcUnitsWithdrawn
    let n := unitPart s tier unit
    if 16 ≤ n then s
    else if inPart s n tier unit true then
      let dest := (rowHolds old n tier unit).map fun i => unitRow s n tier (directRows s n tier).2 i
      logEv .frcRetired pFrc n [slot, 1, unit, dest.getD unit] (s.setF (Reg.tmgPbDirect4k n tier) (s.getF (Reg.tmgPbDirect4k n tier) - 1))
    else
      let s := withdrawMoves tier unit (s.setF (Reg.tmgPbPage4k n tier) (s.getF (Reg.tmgPbPage4k n tier) - 1))
      let s := (tkeys s.ssq.sessions).foldl (fun s i => withdrawSession tier unit i s) s
      (tkeys s.pme.columns).foldl (fun s i => withdrawColumn tier unit i s) s

-- Self-tests that end (R453, R455)

/-- Cut a gang that is not dealt yet to at most `cap` members (05 R166): the members beyond go to gangs of their own. -/
def cutGang (cap g : Nat) (p : LayerPart) : LayerPart :=
  match p.gangs[g]? with
  | none => p
  | some k =>
    let mine := (p.items.zipIdx.filter fun e => e.1.gang == g && !e.1.done).map (·.2)
    if k.dealt ∨ mine.length ≤ cap ∨ cap = 0 then p
    else
      let pieces := cutUp cap mine.length (mine.drop cap)
      { p with gangs := p.gangs ++ pieces.map fun _ => ({} : Gang),
               items := p.items.zipIdx.map fun e => match pieces.findIdx? (·.contains e.2) with
                 | some j => { e.1 with gang := p.gangs.length + j }
                 | none => e.1 }

/-- Cut every gang of a part. -/
def cutPart (cap : Nat) (p : LayerPart) : LayerPart := (List.range p.gangs.length).foldl (fun p g => cutGang cap g p) p

/-- Cut the gangs of a partition that wait to be dealt to the arrays it has left (01 R22). -/
def cutGangs (n : Nat) (s : State) : State :=
  let cap := (arraysOf s n).length
  ((s.ssq.wheels.filter fun x => x.2.part == n).map (·.1)).foldl (fun s w => 
    modWheel w (fun x => { x with parts := x.parts.map (cutPart cap) }) s) s

/-- An array is fenced (01 R22): what waits is cut to the arrays left; a partition that is left without one drains (R448). -/
def fenceArray (a : Nat) (s : State) : State :=
  let s := s.setF (Reg.mxgArrayFenced (a / 20) (a % 20)) 1
  let s := ((List.range 16).filter fun n => ownsArray s n a).foldl (fun s n => cutGangs n s) s
  ((List.range 16).filter fun n => decide (psLocked ≤ s.pstate n) && ownsArray s n a && (arraysOf s n).isEmpty).foldl
    (fun s n => partitionFault (.uncorrected 0x10) (pMxg + a / 20) (a / 20) n a none s) s

/-- The instance of a unit's page that holds it. -/
def unitInst (u : Resource) : Nat := if u.slot = pDdc ∧ u.kind = 4 then u.num else pageInst u.slot

/-- Retire a unit: the lasting outcome of R453. `units` are the 4 KiB units of a row, or the lanes of a port's passing half. -/
def retireUnit (u : Resource) (units : List Nat) (s : State) : State :=
  let inst := unitInst u
  let s := s.setFrc { s.frc with retired := if s.frc.retired.contains u then s.frc.retired else s.frc.retired ++ [u] }
  let s := logFull .frcRetired pFrc 0 0xFF 0 0 [u.slot, u.kind, u.num] s
  match u.kind with
  | 1 => if Config.spareRow u.slot u.num then s else units.foldl (fun s x => withdrawUnit u.slot (if u.slot = pDdc then 1 else 0) x s) s
  | 2 => fenceArray u.num s
  | 3 => { s with mgc := { s.mgc with coresStopped := s.mgc.coresStopped.filter (· != u.num), coresRetired := s.mgc.coresRetired ++ [u.num] } }
  | 4 => if u.slot = pCxd ∨ u.slot = pCxd + 1 then portOut (u.slot - pCxd) s
    else if pNvc ≤ u.slot ∧ u.slot < pNvc + 8 then driveOut (u.slot - pNvc) s
    else goFatal (raiseErr { slot := u.slot, inst := inst, ev := .uncorrected (pageType u.slot), cls := .fatal, resource := u.num } s)
  | 5 => mapOutBank u.num s
  | _ => if units = [] ∨ s.getF (Reg.xfePortEn (u.num / 8)) = 0 then s else s.setF (Reg.xfePortState (u.num / 8)) portDetect

/-- A unit returns to service (R453). -/
def returnUnit (u : Resource) (s : State) : State :=
  match u.kind with
  | 3 => { s with mgc := { s.mgc with coresStopped := s.mgc.coresStopped.filter (· != u.num) } }
  | 6 => if s.getF (Reg.xfePortEn (u.num / 8)) = 1 then s.setF (Reg.xfePortState (u.num / 8)) portDetect else s
  | _ => s

/-- Count a transient result of a unit. -/
def addTransient (u : Resource) (s : State) : State :=
  let n := transientsOf s u
  s.setFrc { s.frc with transients := (s.frc.transients.filter fun t => t.1 != u) ++ [(u, n + 1)] }

/-- Write an operator's test into the log of its page, with its event (R515). -/
def testEntry (slot inst resource result : Nat) (retired : Bool) (s : State) : State :=
  let l := s.elog slot
  if 64 ≤ l.busy.length then (s.setF (Reg.blkErrstateSecondary slot) 1).satAdd (Reg.blkErrstateOverflow slot) 1
  else
    let i := nextIndex l
    let e : ErrEntry := { ev := .selftest (pageType slot), cls := .corrected, inst := inst, resource := resource, tick := s.tick }
    finishEntry slot i result retired (setElog slot { entries := tset l.entries i e, busy := l.busy ++ [i], head := (i + 1) % 64 } s)

/-- Whether the page map lists a self-test kind for a page (R510). -/
def kindListed (slot kind : Nat) : Bool := (((page? slot).map (·.tests)).getD []).contains kind

/-- The unit that a KIND and RESOURCE of BLK_SELFTEST name on a page (R515), if they name one. -/
def namedUnit (s : State) (slot kind resource : Nat) : Option Resource :=
  let p := pageInst slot
  if !kindListed slot kind then none
  else match kind with
    | 1 => if slot = pDdc then some (rowUnit 1 (resource / 4096)) else some ⟨slot, 1, (slot - pHbc) * stackUnits + resource / 4096 % stackUnits⟩
    | 2 => if resource / 20 = p then some (arrayUnit resource) else none
    | 3 => if resource / 16 = p then some (coreUnit resource) else none
    | 4 => if resource < (if slot = pDdc then 16 else 1) then some ⟨slot, 4, resource⟩ else none
    | 5 => if resource < 16 ∧ bit (s.getF Reg.pmeGeomBanksOk) resource then some (bankUnit resource) else none
    | _ => if resource < 64 then some ⟨pXfe, 6, resource⟩ else none

/-- What a test that ends leaves to report: its log entry, the operator's RESULT, the PME's expert operation. -/
def reportTest (t : SelfTest) (result : Nat) (s : State) : State :=
  let slot := t.unit.slot
  let last := result == 2
  let s := match t.entry with
    | some i =>
      if ((tget (s.elog t.log).entries i).bind (·.rerun)).isSome then modEntry t.log i (fun e => { e with result := result, retired := last }) s
      else nextHandler t.log t.inst (finishEntry t.log i result last s)
    | none => s
  let named := namedUnit s slot (s.getF (Reg.blkSelftestKind slot)) (s.getF (Reg.blkSelftestResource slot)) == some t.unit
  let s := if s.flag (Reg.blkSelftestBusy slot) && named then
      testEntry slot (unitInst t.unit) (s.getF (Reg.blkSelftestResource slot)) result last ((s.setF (Reg.blkSelftestBusy slot) 0).setF (Reg.blkSelftestResult slot) result)
    else s
  if t.unit.kind = 5 ∧ s.flag Reg.pmeSetOpStatBusy ∧ s.getF Reg.pmeSetOpOp = 3 ∧ bankOfSet (s.getF Reg.pmeSetOpSet) = t.unit.num then
    s.setF Reg.pmeSetOpStatBusy 0 else s

/-- A test ends (R453): transient if it passed and nothing made it lasting (R455). -/
def testDone (u : Resource) (passed : Bool) (units : List Nat) (s : State) : State :=
  match s.frc.tests.find? (·.unit == u) with
  | none => s
  | some t =>
    let s := s.setFrc { s.frc with tests := s.frc.tests.filter (·.unit != u), held := if u.kind = 2 then s.frc.held.filter (· != u.num) else s.frc.held }
    if passed && !t.failed then reportTest t 1 (returnUnit u (addTransient u (s.bump Ctr.frcSelftestTransient)))
    else reportTest t 2 (retireUnit u units (s.bump Ctr.frcSelftestLasting))

/-- SELFTEST_DONE. -/
def execSelftestDone (slot kind num : Nat) (passed : Bool) (units : List Nat) (s : State) : Host.Outcome State Fault Refusal :=
  .next (powered (testDone ⟨slot, kind, num⟩ passed units) s)

/-- A test that the operator starts (R455): a lane's port leaves its path sets at once. An unlisted KIND leaves the field as it is (R515,
00 R13). -/
def operatorTest (slot resource kind : Nat) (s : State) : State :=
  let kind := if kindListed slot kind then kind else s.getF (Reg.blkSelftestKind slot)
  match namedUnit s slot kind resource with
  | none => s
  | some u =>
    let s := ((s.setF (Reg.blkSelftestResource slot) resource).setF (Reg.blkSelftestKind slot) kind).setF (Reg.blkSelftestResult slot) 0
    let inst := unitInst u
    if isRetired s u ∨ underTest s u then testEntry slot inst resource 3 false (s.setF (Reg.blkSelftestResult slot) 3)
    else
      let t : SelfTest := { unit := u, log := slot, inst := inst }
      let s := (((s.setF (Reg.blkSelftestBusy slot) 1).setFrc { s.frc with tests := s.frc.tests ++ [t] })).bump Ctr.frcSelftestsRun
      if kind = 6 then announceAll (dropPort (resource / 8) 0 s) else s

/-- A write of GO to BLK_SELFTEST, through function 0 only. -/
def execBlkSelftestGo (from_ slot resource kind : Nat) (s : State) : Host.Outcome State Fault Refusal :=
  .next (countIo from_ (if s.operator from_ = false ∨ (page? slot).isNone ∨ s.flag (Reg.blkSelftestBusy slot) then s else live (operatorTest slot resource kind) s))

-- Injection and expert windows (16 R516, R519)

/-- A write of INJECT through a function. -/
def execBlkInject (from_ slot value : Nat) (s : State) : Host.Outcome State Fault Refusal :=
  .next (countIo from_ (live (fun s =>
    if s.operator from_ = false ∨ (page? slot).isNone ∨ (value ≠ 1 ∧ value ≠ 2) ∨ !s.flag (Reg.blkExpertUnlockMaskOper slot) ∨ (tget s.frc.injected slot).isSome then s
    else logFull (.injected (pageType slot)) slot (pageInst slot) 0xFF 0 0 [value] (s.setFrc { s.frc with injected := tset s.frc.injected slot value })) s))

/-- A write of BLK_EXPERT_UNLOCK through a function: with the key, each change of the masks logs EV_MGC_EXPERT_UNLOCK. -/
def execBlkExpertUnlockWrite (from_ slot maskPart maskOper key : Nat) (s : State) : Host.Outcome State Fault Refusal :=
  .next (countIo from_ (if s.operator from_ = false ∨ (page? slot).isNone ∨ s.mgc.off ∨ key ≠ 0xE4E4 ∨ 2 ^ 16 ≤ maskPart ∨ 1 < maskOper then s
    else if s.getF (Reg.blkExpertUnlockMaskPart slot) = maskPart ∧ s.getF (Reg.blkExpertUnlockMaskOper slot) = maskOper then s
    else logEv .mgcExpertUnlock pMgc 0xFF [slot, maskPart, maskOper]
      ((s.setF (Reg.blkExpertUnlockMaskPart slot) maskPart).setF (Reg.blkExpertUnlockMaskOper slot) maskOper)))

end Sys2Proof.Machine
end

