-- ==== Sys2Proof/Machine/Capsules.lean ====
section
/-!
DEFINITION. Machine/Capsules.lean: the capsule area on the drives (14 R466-R469) and CAPSULE_READ (14 R470, 16 R525).
-/
set_option cleanup.letToHave false
namespace Sys2Proof.Machine

open Sys2Proof

-- The area (R466, R467)

/-- The bytes of a label (R467). -/
def CapLabel.bytes (l : CapLabel) : List Byte :=
  let b := leBytes 4 0x5356434C ++ leBytes 2 1 ++ leBytes 1 l.members ++ leBytes 1 l.position ++ leBytes 8 l.units ++ (l.euis.map (leBytes 8)).flatten
  b ++ shake256 b 8 ++ zeros 4008

/-- The striped capacity of T3 (08 R254): D times what the smallest of its drives holds above the capsule area. -/
def t3Capacity (s : State) : State :=
  let d := s.tmg.t3Drives
  let caps := d.map fun k => s.getF (Reg.nvcDriveUnits4k k)
  let least := caps.foldl min (caps.headD 0)
  (s.setF (Reg.tmgTierCapSize4k 3) (d.length * (least - capsuleRc s))).setFlag (Reg.tmgTierCapPresent 3) (!d.isEmpty)

/-- A write of FRC.CAPSULE: while every partition is UNCONFIGURED it lays the area out on the drives in service, or with 0 removes it.
Without a drive in service no area can be laid out (log 46). R_c changes with it, and the striped capacity of T3 with R_c (08 R254). -/
def areaWrite (units : Nat) (s : State) : State :=
  if !s.allUnconfigured ∨ 2 ^ 40 ≤ units then s
  else
    let set := drives s
    let clear := s.setFrc { s.frc with labels := [], ring4k := [], areaNext := 0 }
    if units = 0 then
      t3Capacity (set.foldl (fun s d => (s.emit (.driveDealloc d 0 1)).bump (Ctr.nvcDeallocatedUnits d))
        ((clear.setF Reg.frcCapsuleUnits4k 0).setF Reg.frcCapsuleStatArea 0))
    else if set.isEmpty then s
    else
      let euis := (List.range 8).map fun k => (set[k]?.map Config.driveEui).getD 0
      let label := fun (k : Nat) => ({ members := set.length, position := k, units := units, euis := euis } : CapLabel)
      let labels := set.zipIdx.foldl (fun (t : Table CapLabel) (d : Nat × Nat) => tset t d.1 (label d.2)) []
      let s := set.zipIdx.foldl (fun s d => (s.emit (.driveWrite d.1 0 (label d.2).bytes)).bump (Ctr.nvcWriteUnits d.1)) clear
      t3Capacity (((s.setFrc { s.frc with labels := labels }).setF Reg.frcCapsuleUnits4k units).setF Reg.frcCapsuleStatArea 1)

def execCapsuleAreaWrite (from_ units : Nat) (s : State) : Host.Outcome State Fault Refusal :=
  .next (countIo from_ (if s.operator from_ = false then s else live (areaWrite units) s))

/-- What NVC finds at boot (R467): the area of the labels that it reads, in service if every labelled member is. Labels and ring stay on drives
that are not in service, for a later boot. -/
def areaAtBoot (s : State) : State :=
  match (drives s).findSome? fun d => tget s.frc.labels d with
  | none => (s.setF Reg.frcCapsuleUnits4k 0).setF Reg.frcCapsuleStatArea 0
  | some l =>
    let whole := (tkeys s.frc.labels).all (drives s).contains
    let s := (s.setF Reg.frcCapsuleUnits4k l.units).setFlag Reg.frcCapsuleStatArea whole
    if whole then s else logEv .frcAreaLost pFrc 0xFF [] s

/-- Take overwritable capsules from the front of the ring until a number of units is free (R468). -/
def overwrite : Nat → Nat → State → State
  | 0, _, s => s
  | k + 1, need, s =>
    let used := (s.frc.ring4k.map fun c => c.bytes.length / 4096).sum
    if used + need ≤ s.getF Reg.frcCapsuleUnits4k then s
    else overwrite k need ((s.setFrc { s.frc with ring4k := s.frc.ring4k.drop 1 }).bump Ctr.frcCapsulesOverwritten)

/-- CAPSULE_WRITE: the oldest sealed capsule leaves staging for the ring, if there is room (R466, R468). Unit u of the area lies on member u
mod D_c. -/
def capsuleWrite (s : State) : State :=
  match s.frc.staging.find? (·.sealed) with
  | none => s
  | some c =>
    let need := c.bytes.length / 4096
    if !s.flag Reg.frcCapsuleStatArea ∨ ringRoom s < need then s
    else
      let s := overwrite (s.frc.ring4k.length + 1) need s
      let units := max 1 (s.getF Reg.frcCapsuleUnits4k)
      let at_ := s.frc.areaNext
      let s := s.setFrc { s.frc with staging := s.frc.staging.erase c, ring4k := s.frc.ring4k ++ [c], areaNext := (at_ + need) % units }
      let set := tkeys s.frc.labels
      (List.range need).foldl (fun s j =>
        let u := (at_ + j) % units
        let d := set.getD (u % max 1 set.length) 0
        (s.emit (.driveWrite d (1 + u / max 1 set.length) (slice c.bytes (4096 * j) 4096))).bump (Ctr.nvcWriteUnits d)) s

def execCapsuleWrite (s : State) : Host.Outcome State Fault Refusal := .next (live capsuleWrite s)

-- CAPSULE_READ (R470)

/-- Sealed capsules that can be read, in ring order, those in staging last. -/
def readable (s : State) : List Capsule := (if s.flag Reg.frcCapsuleStatArea then s.frc.ring4k else []) ++ s.frc.staging.filter (·.sealed)

/-- Whole capsules that fit in a buffer. -/
def fitCapsules : Nat → List Capsule → List Capsule
  | _, [] => []
  | n, c :: l => if c.bytes.length ≤ n then c :: fitCapsules (n - c.bytes.length) l else []

/-- Copy sealed capsules to the buffer: a session's from a TURN on, or those from a position on (log 46). -/
def capsuleRead (c : Cmd) (s : State) : Res :=
  let pos := c.arg 0x10 1 == 1
  let mine := fun (k : Capsule) => c.fn == 0 || k.part == c.part
  let l := readable s
  need (c.argsOk [(0, 8), (8, 4), (0x0C, 4), (0x10, 1)] && decide (c.arg 0x10 1 ≤ 1)) .invalidField <|
  need (!pos || ((l[c.arg 0 8]?).map mine).getD false) .invalidField <|
  let named := if pos then (l.drop (c.arg 0 8)).filter mine else l.filter fun k => mine k && k.session == c.arg 0 8 && decide (c.arg 8 4 ≤ k.turn)
  let out := fitCapsules c.dlen (named.take (c.arg 0x0C 4))
  let bytes := (out.map (·.bytes)).flatten
  .done s { result0 := out.length, result1 := bytes.length, data := if bytes.isEmpty then none else some (0, bytes) }

def execCapsuleRead (c : Cmd) (s : State) : Host.Outcome State Fault Refusal := .next (hostCmd 0x0801 c (capsuleRead c) s)

end Sys2Proof.Machine
end

