-- ==== Sys2Proof/Machine/Replay.lean ====
section
/-!
DEFINITION. Machine/Replay.lean: REPLAY_RUN (14 R473-R477): the capsules of its buffer are checked, and each chain is re-executed as one
session of a machine set aside for it, by the same operations that a live session runs; every RESULT is compared.
-/
set_option cleanup.letToHave false
namespace Sys2Proof.Machine

open Sys2Proof

-- Capsules as read from a buffer (R462-R464)

/-- A capsule of the buffer, its header and records in the clear. -/
structure CapIn where
  header : List Byte
  stored : List Byte
  recs : List CapRec
  final : List Byte
  sound : Bool
deriving DecidableEq, Repr

def CapIn.session (c : CapIn) : Nat := fieldAt c.header 0x10 8
def CapIn.full (c : CapIn) : Bool := fieldAt c.header 6 1 == 2
def CapIn.flags (c : CapIn) : Nat := fieldAt c.header 7 1
def CapIn.prev (c : CapIn) : List Byte := slice c.header 0xB8 64
/-- Records that are not VOID. -/
def CapIn.live (c : CapIn) : List CapRec := c.recs.filter (!·.void)

/-- Length of the DER object at the front of a byte string; 0 if no SEQUENCE stands there. -/
def derSpan (b : List Byte) : Nat :=
  let l := fieldAt b 1 1
  if fieldAt b 0 1 ≠ 0x30 then 0
  else if l < 128 then 2 + l
  else 2 + (l - 128) + (slice b 2 (l - 128)).foldl (fun n x => n * 256 + x.toNat) 0

/-- Length of the run of DER objects at the front: the certificate chain (log 47). The first argument bounds the run. -/
def derRun : Nat → List Byte → Nat
  | 0, _ => 0
  | n + 1, b => let k := derSpan b; if k = 0 ∨ b.length < k then 0 else k + derRun n (b.drop k)

/-- The records of a body. -/
def parseRecs : Nat → List Byte → Option (List CapRec)
  | 0, b => if b.isEmpty then some [] else none
  | n + 1, b =>
    let len := fieldAt b 4 4
    let span := 16 + (len + 7) / 8 * 8
    if b.length < span then none
    else (parseRecs n (b.drop span)).map fun l =>
      { type := fieldAt b 0 2, void := bit (fieldAt b 2 1) 0, step := fieldAt b 8 4, layer := fieldAt b 12 2, index := fieldAt b 14 2,
        payload := slice b 16 len } :: l

/-- Decrypt a body in units of 512 bytes (R464). -/
def capPlain (key : List Byte) (part gen : Nat) (b : List Byte) : List Byte :=
  ((List.range (cdiv b.length 512)).map fun i => Config.aesXtsInv key (capTweak part gen (i + 1)) ((b.drop (512 * i)).take 512)).flatten

/-- One capsule at the front, with its length; `pk` is the device's public key (R464, R473). -/
def parseCapsule (key pk b : List Byte) : Option (CapIn × Nat) :=
  let h := slice b 0 512
  let n := fieldAt h 0xA8 8
  let sealed := bit (fieldAt h 7 1) 3
  let body := if sealed then cdiv n 512 * 512 else n
  let raw := 512 + body + 64 + 3309
  if fieldAt h 0 4 ≠ 0x53564350 ∨ fieldAt h 4 2 ≠ 1 ∨ (fieldAt h 6 1 ≠ 1 ∧ fieldAt h 6 1 ≠ 2) ∨ b.length < raw then none
  else
    let part := fieldAt h 0x1C 1
    let gen := fieldAt h 0x98 8
    let enc := slice b 512 n
    let plain := if sealed then capPlain key part gen enc else enc
    let header := if sealed then patch h 0x60 (Config.aesXtsInv key (capTweak part gen 0) (slice h 0x60 32)) else h
    let final := slice b (512 + body) 64
    (parseRecs (fieldAt h 0xB0 4) plain).map fun recs =>
      ({ header := header, stored := h, recs := recs, final := final,
         sound := capChain h ((recSpans 0 recs).map fun sp => slice enc sp.1 sp.2) == final &&
           Config.mlDsaVerify pk final (ascii "SV8-CAPSULE") (slice b (512 + body + 64) 3309) && !bit (fieldAt h 7 1) 0 }, cdiv raw 4096 * 4096)

/-- Every capsule of a buffer; none where something else stands. -/
def parseCapsules (key pk : List Byte) : Nat → List Byte → Option (List CapIn)
  | 0, _ => none
  | n + 1, b =>
    if b.all (· == 0) then some []
    else (parseCapsule key pk b).bind fun r => (parseCapsules key pk n (b.drop r.2)).map fun l => r.1 :: l

/-- The PREV links, and what an attached chain follows (R473). -/
def linked : Option CapIn → List (List Byte) → List CapIn → Bool
  | _, _, [] => true
  | p, seen, c :: l =>
    let first := c.prev == zeros 64
    let joins := match p with
      | some q => first || (c.prev == q.final && c.session == q.session)
      | none => first
    joins && ((c.live.filter (·.type == 6)).all fun r => seen.contains (slice r.payload 8 64)) && linked (some c) (seen ++ [c.final]) l

/-- The adapter that a capsule names is loaded. -/
def adapterLoaded (s : State) (n : Nat) (c : CapIn) : Bool :=
  let id := fieldAt c.header 0x38 4
  id == 0 || s.ssq.adapters.any fun a => a.part == n && a.id == id && a.ver == fieldAt c.header 0x3C 4 && a.state != .freed &&
    shake256 a.image 32 == slice c.header 0x40 32

/-- The first check of R473 that fails. -/
def replayCheck (s : State) (n wheel uid : Nat) (l : List CapIn) : Option Status :=
  if l.isEmpty ∨ !(l.all fun c => fieldAt c.header 8 8 == uid) ∨ !(l.all (·.sound)) ∨ !linked none [] l then some .replayCapsule
  else if !(l.all fun c => fieldAt c.header 0x1E 2 == 1) then some .contractVersion
  else if !(l.all fun c => (s.model? n (fieldAt c.header 0x28 8)).isSome && (s.tail? n (fieldAt c.header 0x30 8)).isSome && adapterLoaded s n c) then
    some .replayBinding
  else if !(l.all fun c => c.full || match s.wheel? wheel with
    | some w => w.part == n && w.model == fieldAt c.header 0x28 8
    | none => false) then some .replayInput
  else none

-- The machine set aside (R474)

/-- A machine for replay: the partition's bindings under the recorded partition number, T0 wholly its own, the recorder on, nothing else
in use. Its placement is its own (R474, R477). -/
def replayMachine (s : State) (n np : Nat) : State :=
  let own := fun (t : State) => (List.range 3).foldl (fun t k =>
    ((t.setF (Reg.mgcPbExtentBase4k np (k + 1)) (s.getF (Reg.mgcPbExtentBase4k n (k + 1)))).setF (Reg.mgcPbExtentPage4k np (k + 1))
      (s.getF (Reg.mgcPbExtentPage4k n (k + 1)))).setF (Reg.mgcPbExtentDirect4k np (k + 1)) (s.getF (Reg.mgcPbExtentDirect4k n (k + 1)))) t
  let t : State := { s with
    ssq := { models := (s.ssq.models.filter (·.part == n)).map fun m => { m with part := np },
             tails := (s.ssq.tails.filter (·.part == n)).map fun m => { m with part := np },
             adapters := (s.ssq.adapters.filter (·.part == n)).map fun m => { m with part := np, state := .live } },
    tmg := { areas := (s.tmg.areas.filter (·.part == n)).map fun a => { a with part := np } },
    hrc := {}, pme := {}, frc := {}, xfe := {}, hif := {}, cwp := {}, mgc := {}, t0 := [], out := [], pending := [] }
  let t := own t
  let t := ((t.setF (Reg.mgcPbExtentBase4k np 0) 0).setF (Reg.mgcPbExtentPage4k np 0) 10000000).setF (Reg.mgcPbExtentDirect4k np 0) 2000000
  let t := ((t.setF (Reg.tmgPbPage4k np 0) 80000000).setF (Reg.tmgPbQuotaTk np 0) 0).setF (Reg.tmgPbDirQuota np) 0
  let t := (t.setF Reg.tmgDirCapRecords (2 ^ 31)).setF (Reg.pmePbPolicyPublish np) 0
  let t := (((t.setF (Reg.ssqPbWeirT0Pages np) 0).setF (Reg.ssqPbWeirArrayUs np) 0).setF (Reg.ssqPbWeirStepUs np) 0).setF (Reg.ssqPbWeirTtftUs np) 0
  let t := ((t.setF (Reg.ssqPbTtlDefault np) (s.getF (Reg.ssqPbTtlDefault n))).setF (Reg.ssqPbRetainDefault np) (s.getF (Reg.ssqPbRetainDefault n))).setF
    (Reg.ssqPbLadderTier np 0) 0
  let t := ((t.setF (Reg.frcPbCtrlEn np) 1).setF Reg.frcCapsuleStatArea 1).setF Reg.frcCapsuleUnits4k (2 ^ 40 - 1)
  ((t.setF Reg.frcStagingSizeMib 65535).setF (Reg.mgcPbCtrlProtected np) 0).setF (Reg.mgcPbCtrlState np) psReplay

/-- A divergence (R475). -/
structure Diverge where
  session : Nat
  turn : Nat
  step : Nat
  layer : Nat
  op : Nat
  index : Nat := 0
  capsule : Nat
  expected : List Byte
  actual : List Byte
deriving DecidableEq, Repr

/-- The report of R475. -/
def Diverge.bytes (d : Diverge) : List Byte :=
  leBytes 8 d.session ++ leBytes 4 d.turn ++ leBytes 4 d.step ++ leBytes 2 d.layer ++ leBytes 1 d.op ++ [0] ++ leBytes 4 d.index ++ leBytes 4 d.capsule ++
    zeros 4 ++ slice d.expected 0 16 ++ slice d.actual 0 16

/-- A replay in progress: the machine, the session's index, the last COMMAND record read, what the wheel still has to supply, the maps of
published capsules by FINAL, the position in the chain, and how it stopped. -/
structure Rp where
  m : State
  sess : Option Nat := none
  cmd : Option (List Byte) := none
  supply : List (List Byte)
  keeps : List (List Byte × Session) := []
  pos : Nat := 0
  bad : Option Diverge := none
  stuck : Bool := false

def Rp.stop (r : Rp) : Rp := { r with stuck := true }
def Rp.over (r : Rp) : Bool := r.stuck || r.bad.isSome

/-- RESULT records that the machine has made of the chain's capsule at a position. -/
def Rp.made (r : Rp) (h : Nat) : List CapRec :=
  (((r.m.frc.staging.filter fun c => c.session == h)[r.pos]?).map fun c => c.records.filter fun k => k.type == 4 && !k.void).getD []

/-- Compare the RESULTs made so far with those recorded (R475): the first that differs; `all` says that the capsule is done. -/
def Rp.compare (r : Rp) (c : CapIn) (all : Bool) : Rp :=
  if r.over then r
  else
    let want := c.live.filter (·.type == 4)
    let made := r.made c.session
    let pairs := (List.range (if all then max want.length made.length else min want.length made.length)).map fun i => (want[i]?, made[i]?)
    match pairs.find? fun p => p.1.map (fun k => (k.step, k.layer, k.payload)) != p.2.map (fun k => (k.step, k.layer, k.payload)) with
    | none => r
    | some (a, b) =>
      let k := (a.orElse fun _ => b).getD { type := 4 }
      { r with bad := some { session := c.session, turn := fieldAt c.header 0x18 4, step := k.step, layer := k.layer, op := fieldAt k.payload 0 1, index := k.index,
                             capsule := r.pos, expected := (a.map fun x => x.payload.drop 8).getD [], actual := (b.map fun x => x.payload.drop 8).getD [] } }

/-- Take an input from the wheel's supply and compare it with its recorded hash (R474, operation INPUT). -/
def Rp.input (r : Rp) (c : CapIn) (k : CapRec) (want : List Byte) : Rp × List Byte :=
  match r.supply with
  | [] => (r.stop, [])
  | b :: rest =>
    let r := { r with supply := rest }
    if hash32 b = want then (r, b)
    else
      let r := r.compare c false
      (if r.over then r else { r with bad := some { session := c.session, turn := fieldAt c.header 0x18 4, step := k.step, layer := k.layer, op := 7, index := k.index,
                                                    capsule := r.pos, expected := want, actual := hash32 b } }, b)

/-- The COMMAND that stands before an event, as the replay session gives it: of the recorded partition, on the replay's wheel, its buffer
recorded or supplied. -/
def Rp.command (r : Rp) (c : CapIn) : Rp × Option Cmd :=
  match r.cmd with
  | none => (r.stop, none)
  | some p =>
    let (r, data) := if c.full ∨ p.length ≤ 64 ∨ fieldAt p 48 8 = 0 then (r, p.drop 64) else r.input c { type := 1 } (slice p 64 32)
    ({ r with cmd := none },
     some { origin := .queue (fieldAt c.header 0x1C 1 + 1) 0 0, args := slice p 8 32, dlen := data.length, data := data })

/-- Run a command's body in the machine; it must be accepted. -/
def Rp.run (r : Rp) (body : State → Res) : Rp :=
  match body r.m with
  | .fail _ => r.stop
  | .done s _ => { r with m := s }
  | .wait s => { r with m := s }

-- A step (05 R155-R172, 06 R188-R203)

/-- Run the items of a part that are left, in order. -/
def runItems (stamp : Nat) (s : State) : State :=
  let n := (((s.wheel? 0).bind fun x => x.parts.find? (·.stamp == stamp)).map (·.items.length)).getD 0
  (List.range n).foldl (fun s k =>
    let s := modPart 0 stamp (fun p => { p with
      gangs := p.gangs.map (fun (g : Gang) => { g with toRead := [], dealt := true }),
      items := p.items.zipIdx.map fun e => if e.2 = k ∧ e.1.done = false then { e.1 with array := some 0 } else e.1 }) s
    itemDone 0 stamp k [] s) s

/-- Deliver the records of a layer, or of the tail, and run their items. -/
def deliver (tail : Bool) (layer : Nat) (inlet : List (List Byte)) (s : State) : State :=
  match (s.wheel? 0).bind fun x => (s.model? x.part x.model).map fun m => (x, m) with
  | none => s
  | some (x, m) =>
    let p : LayerPart := { layer := layer, part := 0, first := 0, count := inlet.length, slot := 0, last := true }
    let s := inlet.zipIdx.foldl (fun s b => s.directWrite x.part 0 (inletAddr x m p b.2 + (if tail then m.qRegion else 0)) b.1) s
    let s := if tail then s else modWheel 0 (fun y => { y with lastStep := x.rosterStep, lastLayer := layer, spValid := true }) s
    let stamp := s.ssq.partSeq
    runItems stamp (takePart 0 m { tail := tail, step := x.rosterStep, layer := layer, part := 0, first := 0, count := inlet.length, slot := 0,
                                   seq := x.rosterSeq, last := true } s)

/-- The inputs of a layer of a step: the recorded ones in full mode, else the wheel's, each compared. -/
def Rp.inlets (r : Rp) (c : CapIn) (step layer : Nat) : Rp × List (List Byte) :=
  let l := c.live.filter fun k => k.type == 3 && k.step == step && k.layer == layer
  if c.full then (r, l.map (·.payload))
  else l.foldl (fun (a : Rp × List (List Byte)) k =>
    if a.1.over then a else let (r, b) := a.1.input c k k.payload; (r, a.2 ++ [b])) (r, [])

/-- Deliver one layer, unless the replay has stopped. -/
def Rp.layer (r : Rp) (c : CapIn) (step layer : Nat) (tail : Bool) (count : Nat) : Rp :=
  if r.over then r
  else
    let (r, l) := r.inlets c step (if tail then 0xFFFF else layer)
    if r.over then r else if l.length ≠ count then r.stop else { r with m := deliver tail layer l r.m }

/-- The turn of a step went on to its heads: its DRAFT is recorded. -/
def CapIn.drafts (c : CapIn) (step : Nat) : Bool := c.live.any fun k => k.type == 4 && k.step == step && fieldAt k.payload 0 1 == 4

/-- A step's TAIL entry says that a cancel came too late (06 R203). -/
def CapIn.late (c : CapIn) (step : Nat) : Bool := c.live.any fun k => k.type == 5 && k.step == step && bit (fieldAt k.payload 5 1) 1

/-- The kind and status of the event that follows an event with a COMMIT_SEQ. -/
def CapIn.nextEvent (c : CapIn) (seq : Nat) : Option (Nat × Nat) :=
  (c.live.find? fun k => k.type == 2 && fieldAt k.payload 0 8 == seq + 1).map fun k => (fieldAt k.payload 8 8, fieldAt k.payload 24 8)

/-- The step that a COMMITTED event ends. A turn that a drain ended at its commit (13 R416), and one cancelled before its heads ran, makes no
drafts; a cancel that came too late is given to the commit again (02 R60). -/
def Rp.step (r : Rp) (c : CapIn) (i seq : Nat) : Rp :=
  let m := rosterWrite 0 (modWheel 0 (fun x => { x with flushing := false }) r.m)
  match m.wheel? 0, turnOf m i with
  | some x, some t =>
    match m.model? x.part x.model with
    | none => r.stop
    | some b =>
      if x.roster.isNone then r.stop
      else
        let r := (List.range b.layers).foldl (fun r l => r.layer c t.steps l false x.entries.length) { r with m := m }
        let r := r.layer c t.steps b.layers true x.tailRecords.length
        if r.over then r
        else
          let drafts := c.drafts t.steps
          let drained := !drafts && c.nextEvent seq == some (Evt.ended.code, Status.partitionDrain.code)
          let s := stepCommit i (c.late t.steps) (if drained then modTurn i (fun t => { t with drain := true }) r.m else r.m)
          if !drafts then { r with m := s }
          else { r with m := ((((s.wheel? 0).map (·.parts)).getD []).filter (·.tail)).foldl (fun s p => runItems p.stamp s) s }
  | _, _ => r.stop

-- Events (R474)

/-- The replay's wheel for a session's binding. -/
def replayWheel (s : State) (i : Nat) : State :=
  match tget s.ssq.sessions i with
  | none => s
  | some y =>
    let n := ((s.model? y.part y.model).map (·.layers)).getD 1
    let x : Wheel := { part := y.part, model := y.model, accels := [], stepBase := 0, inletBase := 0, inletSlots := 2 ^ 20, outletSlots := 1, node := 0, outletKey := 0,
                       outletAddr := 0, rosterAddr := 0, rosterSlots := 2 ^ 22, triggerTag := 0, outletCtr := 0, rosterCtr := 0, lastStep := 0, lastLayer := n - 1,
                       committed := 0 }
    { s with ssq := { s.ssq with wheels := [(0, x)] } }

/-- Open the replay session under the recorded handle, with the recorded seed and adapter version. -/
def Rp.openSession (r : Rp) (c : CapIn) : Rp :=
  let h := c.session
  let np := fieldAt c.header 0x1C 1
  let i := h % 2 ^ 22
  let (r, k) := r.command c
  match k with
  | none => r
  | some k =>
    let k := { k with args := patch k.args 0x0C (leBytes 4 (fieldAt c.header 0x3C 4)), data := slice c.header 0x60 32 ++ k.data.drop 32 }
    let m := { r.m with ssq := { r.m.ssq with sessions := tdel r.m.ssq.sessions i, incarn := tset r.m.ssq.incarn i (h / 2 ^ 26) } }
    let all := fun (s : State) => (s.setF (Reg.mgcPbSessionsBase np) 0).setF (Reg.mgcPbSessionsCount np) (2 ^ 22)
    match forkSource np (k.arg 0x18 8) (k.arg 0 8) (k.arg 8 4) (k.arg 0x0C 4) (all r.m) with
    | .inl _ => r.stop
    | .inr _ =>
      let r := { r with m := all m, sess := some i }
      match sessionOpen k ((r.m.setF (Reg.mgcPbSessionsBase np) i).setF (Reg.mgcPbSessionsCount np) 1) with
      | .done s _ => { r with m := all s }
      | _ => r.stop

/-- A rung is entered: the descriptor's fields only, the moves being placement. -/
def rungOnly (i rung : Nat) (s : State) : State := modSession i (fun x => { x with rung := rung, rungTick := s.tick, state := .waiting }) s

/-- Replay one EVENT record at its tick. -/
def Rp.event (r : Rp) (c : CapIn) (k : CapRec) : Rp :=
  let kind := fieldAt k.payload 8 8
  let st := (Status.ofCode? (fieldAt k.payload 24 8)).getD .ok
  let r := { r with m := r.m.setF Reg.ssqTickValue (fieldAt k.payload 16 8) }
  if kind = Evt.opened.code then r.openSession c
  else
    match r.sess with
    | none => r.stop
    | some i =>
      let body := fun (f : Cmd → State → Res) => let (r, k) := r.command c; match k with
        | some k => if r.over then r else r.run (f k)
        | none => r
      if kind = Evt.submitted.code then
        let (r, k) := r.command c
        match k with
        | some k => if r.over then r else { r with m := replayWheel r.m i }.run (turnSubmit { k with args := patch k.args 8 (leBytes 2 0) })
        | none => r
      else if kind = Evt.admitted.code then
        match turnOf r.m i, tget r.m.ssq.sessions i with
        | some t, some y =>
          let s := if fieldAt c.header 0x90 8 = 0 ∧ y.kvLen ≠ 0 then dropKv i r.m else r.m
          { r with m := admitTurn t s }
        | _, _ => r.stop
      else if kind = Evt.committed.code then r.step c i (fieldAt k.payload 0 8)
      else if kind = Evt.ended.code then if (turnOf r.m i).isNone then r else { r with m := endTurn i st (if st = .ok then 3 else 0) false (commitEvent i .ended st r.m) }
      else if kind = Evt.cancelled.code then { r with m := cancelTurn i r.m }
      else if kind = Evt.closed.code then { r with m := closeSession i .closed r.m, cmd := none }
      else if kind = Evt.retired.code then { r with m := closeSession i .retired r.m }
      else if kind = Evt.parked.code then
        let (r, k) := r.command c
        { r with m := rungOnly i ((k.map fun k => k.arg 8 1).getD 0) (commitEvent i .parked .ok r.m) }
      else if kind = Evt.ladder.code then
        { r with m := rungOnly i (((tget r.m.ssq.sessions i).map fun y => y.rung + 1).getD 0) (commitEvent i .ladder .ok r.m) }
      else if kind = Evt.rebound.code then body sessionRebind
      else if kind = Evt.written.code then body sessionSet
      else if kind = Evt.expired.code then { r with m := dropKv i (commitEvent i .expired .ok r.m) }
      else if kind = Evt.attached.code then { r with m := commitEvent i .attached .ok r.m, cmd := none }
      else if kind = Evt.sharded.code then { r with m := commitEvent i .sharded .ok r.m, cmd := none }
      else { r with m := commitEvent i .extended .ok r.m, cmd := none }

/-- Replay an ATTACH record: the pages of the replayed publisher, each column's CONTENT compared (operation ATTACH). -/
def Rp.attach (r : Rp) (c : CapIn) (k : CapRec) : Rp :=
  match r.sess, r.keeps.find? fun e => e.1 == slice k.payload 8 64 with
  | some i, some (_, y) =>
    let d := fieldAt k.payload 72 8
    let layers := layersOf r.m y
    let cols := (List.range d).map fun j => ((List.range layers).filterMap fun l => y.page l j, fieldAt k.payload (80 + 8 * j) 8, j)
    match cols.find? fun e => contentHash r.m e.1 != e.2.1 with
    | some e =>
      let r := r.compare c false
      if r.over then r
      else { r with bad := some { session := c.session, turn := fieldAt c.header 0x18 4, step := k.step, layer := 0xFFFF, op := 8, index := e.2.2, capsule := r.pos,
                                  expected := leBytes 8 e.2.1, actual := leBytes 8 (contentHash r.m e.1) } }
    | none =>
      let pages := (cols.map fun e => e.1.zipIdx.map fun h => (mapKey h.2 e.2.2, h.1)).flatten
      match addRefs (pages.map (·.2)) r.m with
      | none => r.stop
      | some s =>
        let map := fun (x : Session) => pages.foldl (fun t e => tset t e.1 e.2) x.map
        { r with m := placeMap i (modSession i (fun x => { x with history := y.history.take (32 * d), kvLen := 32 * d, map := map x }) s) }
  | _, _ => r.stop

/-- Replay one record. -/
def Rp.record (r : Rp) (c : CapIn) (k : CapRec) : Rp :=
  if r.over then r
  else if k.type = 1 then { r with cmd := some k.payload }
  else if k.type = 2 then (r.event c k).compare c false
  else if k.type = 6 then r.attach c k
  else r

/-- Replay a capsule: its records in order, then whatever RESULTs are left. Its session's map is kept for chains that attach from it. -/
def Rp.capsule (r : Rp) (c : CapIn) : Rp :=
  let r := if c.prev = zeros 64 then { r with sess := none, cmd := none, pos := 0 } else r
  let r := ((c.live.foldl (fun r k => r.record c k) r)).compare c true
  if r.over then r
  else
    let r := { r with pos := r.pos + 1 }
    match r.sess.bind fun i => tget r.m.ssq.sessions i with
    | none => r
    | some y =>
      match addRefs y.handles r.m with
      | some s => { r with m := s, keeps := (c.final, y) :: r.keeps }
      | none => r

/-- Replay capsules until one stops: the replay, and how many were replayed whole. -/
def Rp.chain : List CapIn → Nat → Rp → Rp × Nat
  | [], n, r => (r, n)
  | c :: l, n, r => let r := r.capsule c; if r.over then (r, n) else Rp.chain l (n + 1) r

-- REPLAY_RUN

/-- What the named wheel gives in the exchanges of a run, in order, for chains in hash mode (R474, log 47). -/
def supplyOf (s : State) (c : Cmd) : List (List Byte) := ((s.frc.supplies.find? fun e => e.1 == c).map (·.2)).getD []

/-- REPLAY_RUN. -/
def replayRun (c : Cmd) (s : State) : Res :=
  let b := c.buffer s
  let n := c.part
  let cert := derRun (b.length + 1) b
  let key := (tgetD s.sec.memKeys n []).take 64
  need (c.argsOk [(0, 2)]) .invalidField <|
  match Config.certCheck (b.take cert) with
  | none => .fail .replayCapsule
  | some (uid, pk) =>
    match parseCapsules key pk (b.length / 4096 + 2) (b.drop cert) with
    | none => .fail .replayCapsule
    | some l =>
      match replayCheck s n (c.arg 0 2) uid l with
      | some st => .fail st
      | none =>
        let np := fieldAt ((l.head?).map (·.header) |>.getD []) 0x1C 1
        let (r, done) := Rp.chain l 0 { m := replayMachine s n np, supply := supplyOf s c }
        let mark := (l.take done).any fun c => bit c.flags 1 || bit c.flags 2
        let s := s.bump Ctr.frcReplaysRun
        let reply : Reply := { result0 := done, result1 := if mark then 1 else 0 }
        match r.bad with
        | some d => .done (logEv .frcDivergence pFrc n [d.session, d.turn + d.step * 2 ^ 32, d.layer + d.op * 2 ^ 16 + d.index * 2 ^ 32, d.capsule] (s.bump Ctr.frcReplayDivergences))
            { reply with status := .replayDiverged, data := some (0, d.bytes) }
        | none => if r.stuck then .done s { reply with status := .replayCapsule } else .done s reply

/-- The supplies of the runs that still wait for their buffer's lines. -/
def trimSupplies (s : State) : State :=
  s.setFrc { s.frc with supplies := s.frc.supplies.filter fun e => s.cwp.waiting.any fun w => w.op == .command 0x0802 e.1 }

def execReplayRun (c : Cmd) (supply : List (List Byte)) (s : State) : Host.Outcome State Fault Refusal :=
  .next (powered (fun s => trimSupplies (hostCmd 0x0802 c (replayRun c) (s.setFrc { s.frc with supplies := s.frc.supplies ++ [(c, supply)] }))) s)

end Sys2Proof.Machine
end

