-- ==== Sys2Proof/Machine/WindowRows.lean ====
section
/-!
DEFINITION. Machine/WindowRows.lean: the state window's events (12 R395-R409): host requests, the answers to recalls and what waits
for them, extent removal and wipe, host death; and the host link (12 R377, R379, R393, 14 R459, R460).
-/
set_option cleanup.letToHave false
namespace Sys2Proof.Machine

open Sys2Proof

-- What waits for recalls (R398, R399)

/-- The body of a host command that can wait for the lines of its buffer or of its range. `stage`: as in `WinWait`. -/
def bodyOf (op : Nat) (c : Cmd) (stage : Nat) : State → Res :=
  match op with
  | 0x0101 => sessionOpen c
  | 0x0105 => sessionSet c
  | 0x0106 => sessionRead c
  | 0x0107 => historyRead c
  | 0x0108 => turnSubmit c
  | 0x010A => shard false 0x010A c
  | 0x010B => shard true 0x010B c
  | 0x0201 => modelBind c
  | 0x0203 => tailBind c
  | 0x0205 => adapterLoad c
  | 0x0207 => wheelAttach c
  | 0x0301 => prefixLookup c
  | 0x0302 => nextMatch c
  | 0x0401 => tierRead c
  | 0x0402 => tierWrite c
  | 0x0403 => tierCopy c
  | 0x0404 => windowPublish stage c
  | 0x0505 => groupSet c
  | 0x0506 => wrSubmit c
  | 0x0507 => wrPost c
  | 0x0801 => capsuleRead c
  | 0x0802 => replayRun c
  | _ => fun _ => .fail .invalidField

/-- Run an operation whose lines are ready. -/
def runWait (w : WinWait) (s : State) : State :=
  match w.op with
  | .hostRead ld line grant => hostReadGo ld line grant s
  | .hostWrite ld line mask b => hostWriteGo ld line mask b s
  | .command op c => if w.stage = 0 then startBody op c (bodyOf op c 0) s else runBody c (bodyOf op c w.stage) s
  | .fabric port raw => placePacket port raw s
  | .work id => resumeWork id s
  | .transfer t => transferDone t s
  | .answer c st r0 r1 seq off b => complete c { status := st, result0 := r0, result1 := r1, seq := seq, data := some (off, b) } s

/-- Whether an operation is one of the device's own, which waits while its extent is wiped (R406). -/
def WinOp.ofDevice : WinOp → Bool
  | .hostRead _ _ _ => false
  | .hostWrite _ _ _ _ => false
  | .command _ _ => true
  | .fabric _ _ => true
  | .work _ => true
  | .transfer _ => true
  | .answer _ _ _ _ _ _ _ => true

/-- An operation may go on: no recall of its lines is outstanding, none is being wiped, and none is held by an earlier one. -/
def waitReady (before : List WinWait) (w : WinWait) (s : State) : Bool :=
  w.lines.all fun l => !s.recalled l && !(w.op.ofDevice && s.wiping l) && !before.any fun v => v.lines.contains l

/-- The first operation that may go on, with those before and after it. -/
def firstReady (s : State) : List WinWait → List WinWait → Option (List WinWait × WinWait × List WinWait)
  | _, [] => none
  | before, w :: l => if waitReady before w s then some (before, w, l) else firstReady s (before ++ [w]) l

/-- Let the operations that wait go on, in their order at each line. The first argument bounds the number that go on. -/
def settleLoop : Nat → State → State
  | 0, s => s
  | n + 1, s =>
    match firstReady s [] s.cwp.waiting with
    | none => s
    | some (before, w, after) =>
      let s := runWait w { s with cwp := { s.cwp with waiting := before } }
      settleLoop n { s with cwp := { s.cwp with waiting := s.cwp.waiting ++ after } }

/-- End every wait that has nothing left to wait for. -/
def settleWaits (s : State) : State := trimSupplies (settleLoop (2 * s.cwp.waiting.length) s)

-- Host requests (R395, R396, R460)

/-- HOST_MEM_READ: a read of a window line by the host of an LD, for its data alone, a Shared or an Exclusive copy. A FENCED CWP takes no
request (14 R451): the read returns poison, and a write is discarded (log 14). -/
def hostMemRead (ld line : Nat) (grant : LineGrant) (s : State) : State :=
  if s.mgc.off ∨ 16 ≤ ld then s
  else if isFenced s pCwp 0 then s.emit (.memPoison ld line)
  else settleWaits (hostPartner ld (!s.hostAllowed ld line) (hostRead ld line grant s))

def execHostMemRead (ld line : Nat) (grant : LineGrant) (s : State) : Host.Outcome State Fault Refusal := .next (hostMemRead ld line grant s)

/-- HOST_MEM_WRITE: a write of the bytes of a window line that `mask` names. -/
def hostMemWrite (ld line mask : Nat) (bytes : List Byte) (s : State) : State :=
  if s.mgc.off ∨ 16 ≤ ld then s
  else if isFenced s pCwp 0 then s.emit (.memDone ld line)
  else settleWaits (hostPartner ld (!s.hostAllowed ld line) (hostWrite ld line mask bytes s))

def execHostMemWrite (ld line mask : Nat) (bytes : List Byte) (s : State) : Host.Outcome State Fault Refusal :=
  .next (hostMemWrite ld line mask bytes s)

/-- HOST_IO_REQUEST: a malformed or unsupported CXL.io request (14 R459), logged with its header. An isolated LD receives Unsupported Request
(R460). -/
def hostIoRequest (ld : Nat) (req : IoRequest) (s : State) : State :=
  if s.mgc.off ∨ 16 ≤ ld then s
  else
    let s := s.emit (.ioError ld (req.abort && !s.hif.isolated.contains ld))
    settleWaits (hostPartner ld true (logEv .hifProtocol pHif 0xFF [ld, fieldAt req.header 0 8, fieldAt req.header 8 8] s))

def execHostIoRequest (ld : Nat) (req : IoRequest) (s : State) : Host.Outcome State Fault Refusal := .next (hostIoRequest ld req s)

-- Recalls (R398, R407)

/-- Whether a host holds a line Exclusive. -/
def State.ownedBy (s : State) (line host : Nat) : Bool := ((tget s.cwp.dir line).bind (·.owner)) == some host

/-- BISNP_RESPONSE: a host answers a recall, writing its line back if it holds it Exclusive and has changed it (R398). -/
def bisnpResponse (host line : Nat) (data : Option (List Byte)) (s : State) : State :=
  match s.cwp.recalls.find? fun r => r.line == line && r.host == host with
  | none => s
  | some r =>
    let back := match data, s.extentOf line with
      | some b, some e => if s.ownedBy line host then s.t1Write (s.devLine e line * 64) (slice b 0 64) else s
      | _, _ => s
    let s := { back with cwp := { back.cwp with recalls := back.cwp.recalls.filter (· != r) } }
    settleWaits (removalRecall line host (if r.inv then dropHolder line host s else shareHolder line host s))

def execBisnpResponse (host line : Nat) (data : Option (List Byte)) (s : State) : Host.Outcome State Fault Refusal :=
  .next (powered (bisnpResponse host line data) s)

/-- RECALL_TIMEOUT: a recall unanswered for CWP.RECALL.TIMEOUT_US declares its host dead with cause 3 (R407, R408). -/
def recallTimeout (host line : Nat) (s : State) : State :=
  if s.cwp.recalls.any fun r => r.line == line && r.host == host then
    settleWaits (hostDead host 3 (logEv .cwpRecallTimeout pCwp 0xFF [host, line * 64] (s.bump Ctr.cwpRecallTimeouts)))
  else s

def execRecallTimeout (host line : Nat) (s : State) : Host.Outcome State Fault Refusal := .next (powered (recallTimeout host line) s)

-- Extents (R405, R406)

/-- EXTENT_DRAIN_BOUND: CWP.DRAIN.BOUND_US has passed since step 1 of an extent's removal (R405). -/
def execExtentDrainBound (extent : Nat) (s : State) : Host.Outcome State Fault Refusal :=
  .next (powered (fun s => settleWaits (removalFinish extent s)) s)

/-- EXTENT_WIPE_DONE: every line of the extent is zero, no poison is left, and the extent is FREE (R406). -/
def extentWipeDone (e : Nat) (s : State) : State :=
  if 64 ≤ e ∨ s.extState e ≠ extWiping then s
  else
    let s := zeroRange 1 (s.extDevice e * 64) (s.extLines e * 64) s
    let s := (s.setF (Reg.cwpExtentState e) extFree).bump Ctr.cwpExtentsWiped
    let r := tgetD s.cwp.removals e { mask := 0, cmd := none }
    let s := { s with cwp := { s.cwp with removals := tdel s.cwp.removals e } }
    settleWaits (match r.cmd with
      | some c => complete c { result0 := r.poisoned } s
      | none => s)

def execExtentWipeDone (extent : Nat) (s : State) : Host.Outcome State Fault Refusal := .next (powered (extentWipeDone extent) s)

-- The host link and its logical devices (R377-R379, R393)

/-- The functions that an LD is to present (R378): a partition's from its lock (13 R415, 16 R533). Function 0 of an LD that is not the management
LD has no BAR of this model and only the LD's component registers, which stand in `ldRegs`. -/
def State.functionsFor (s : State) (ld : Nat) : List Nat :=
  (if s.getF Reg.hifMgmtLd = ld then [0] else []) ++
    ((List.range 16).filter fun n => s.getF (Reg.hifPbFuncBindLd n) == ld && decide (psLocked ≤ s.pstate n)).map (· + 1)

/-- Show in FUNC.PRESENT which partition functions are presented. -/
def showPresent (s : State) : State :=
  (List.range 16).foldl (fun s n => s.setFlag (Reg.hifPbFuncPresent n) (s.hif.presented.any fun p => p.2 == n + 1)) s

/-- The binding of an LD: its functions are fixed (R379), and an isolation ends (R460). -/
def bindLd (ld : Nat) (s : State) : State :=
  let s := s.setF Reg.hifLinkBound (setBit (s.getF Reg.hifLinkBound) ld)
  let fns := (s.functionsFor ld).filter fun f => !s.hif.presented.any fun p => p.2 == f
  showPresent { s with hif := { s.hif with presented := s.hif.presented ++ fns.map fun f => (ld, f), isolated := s.hif.isolated.filter (· != ld) } }

/-- LD_BIND: behind a switch, with the link up, an LD that is not bound is bound to a host. -/
def ldBind (ld : Nat) (s : State) : State :=
  if s.mgc.off ∨ 16 ≤ ld ∨ !s.flag Reg.hifLinkUp ∨ !s.flag Reg.hifLinkMld ∨ bit (s.getF Reg.hifLinkBound) ld then s else bindLd ld s

def execLdBind (ld : Nat) (s : State) : Host.Outcome State Fault Refusal := .next (ldBind ld s)

/-- The end of a binding (R377): its functions and its component registers are reset (R378, R393), an isolation ends (R460). -/
def unbindLd (ld : Nat) (s : State) : State :=
  let s := (s.functionsOf ld).foldl (fun s fn => functionLevelReset fn s) s
  let s := { s with hif := { s.hif with ldRegs := tdel s.hif.ldRegs ld } }
  let s := s.setF Reg.hifLinkBound (clrBit (s.getF Reg.hifLinkBound) ld)
  showPresent { s with hif := { s.hif with presented := s.hif.presented.filter fun p => p.1 != ld, isolated := s.hif.isolated.filter (· != ld) } }

/-- Whether any extent names an LD in HOSTS. -/
def State.inHosts (s : State) (ld : Nat) : Bool := (List.range 64).any fun e => s.extState e != extFree && bit (s.getF (Reg.cwpExtentHosts e)) ld

/-- LD_RESET: a reset or unbind of an LD ends its binding; its host is dead if any extent names it in HOSTS (R377, R407). -/
def ldReset (ld : Nat) (s : State) : State :=
  if s.mgc.off ∨ 16 ≤ ld ∨ bit (s.getF Reg.hifLinkBound) ld = false then s
  else
    let s := s.bump Ctr.hifLdResets
    settleWaits (unbindLd ld (if s.inHosts ld then hostDead ld 1 s else s))

def execLdReset (ld : Nat) (s : State) : Host.Outcome State Fault Refusal := .next (ldReset ld s)

/-- The loss of the upstream link: every queue is deleted (R393), every host with a binding is dead (R407), every binding ends. -/
def linkLost (s : State) : State :=
  if !s.flag Reg.hifLinkUp then s
  else
    let s := ((s.setF Reg.hifLinkUp 0).setF Reg.hifLinkWidth 0).bump Ctr.hifLinkDowns
    let hosts := maskBits 16 (s.getF Reg.hifLinkBound)
    let s := hosts.foldl (fun s ld => unbindLd ld (hostDead ld 1 s)) s
    settleWaits ((List.range 17).foldl (fun s fn => loseQueues fn s) s)

def execHostLinkDown (s : State) : Host.Outcome State Fault Refusal := .next (powered linkLost s)

end Sys2Proof.Machine
end

