-- ==== Sys2Proof/Machine/Power.lean ====
section
/-!
DEFINITION. Machine/Power.lean: power, throttling and heat (15 R479-R490), the reset types and the boot (15 R495-R502, 13 R436, R444),
the discrete inputs (15 R506, R507).
-/
set_option cleanup.letToHave false
namespace Sys2Proof.Machine

open Sys2Proof

def State.setMgc (s : State) (m : Mgc) : State := { s with mgc := m }

-- What survives (13 R443, R446, 15 R480, R496)

/-- The fuses as a reset finds them: a lifecycle change takes effect (13 R442). -/
def Fuses.atReset (f : Fuses) : Fuses := { f with lifecycle := f.next.getD f.lifecycle, next := none }

/-- What outlives both a reset and the removal of power: the fuses, and the capsule area on the drives (13 R443). T2 and T3 are
unreadable with their keys, so that they read as never written (log 1). The queue, what has left the device and the free values used
are the model's own. -/
def survivors (s : State) : State :=
  { pending := s.pending, out := s.out, free := s.free, sec := { fuses := s.sec.fuses },
    frc := { labels := s.frc.labels, ring4k := s.frc.ring4k, areaNext := s.frc.areaNext } }

/-- The survivors with the fuses as a reset finds them. -/
def reborn (s : State) : State := survivors { s with sec := { s.sec with fuses := s.sec.fuses.atReset } }

/-- Copy a register field from a state before. -/
def keepF (old : State) (f : Fld) (s : State) : State := s.setF f (old.getF f)

/-- A warm reset (R495, R496): every register takes its reset value, the filtered level of PERST_N with them (00 R15); the straps stand
(R504), and PERST_N is held or not as before; NVC deallocates the T3 extents of the partitions (13 R443); T0 and T1 hold their bytes until the wipes overwrite them. -/
def warmReset (cause : Nat) (s : State) : State :=
  let s := ((List.range 16).filter fun n => decide (psLocked ≤ s.pstate n)).foldl (fun s n => deallocT3 (extentSpan s n 3).1 (extentSpan s n 3).2 s) s
  let b := ({ reborn s with t0 := s.t0, t1 := s.t1, cwp := { poison := s.cwp.poison } } : State).setMgc { perstHeld := s.mgc.perstHeld }
  [Reg.mgcStrapPos, Reg.mgcStrapPerstScope, Reg.mgcStrapI3cSa].foldl (fun b f => keepF s f b) (b.setF Reg.mgcResetCtrlLastCause cause)

/-- POWER_ON_RESET: VIN rises through 38.5 V after its removal; the straps are sampled (R480, R495, R504). -/
def powerOn (pos scope sa : Nat) (s : State) : State :=
  if !s.mgc.off then s
  else (((reborn s).setF Reg.mgcStrapPos pos).setF Reg.mgcStrapPerstScope scope).setF Reg.mgcStrapI3cSa sa

def execPowerOnReset (pos perstScope i3cSa : Nat) (s : State) : Host.Outcome State Fault Refusal := .next (powerOn pos perstScope i3cSa s)

/-- POWER_REMOVAL: VIN outside the lockout limits for 10 us: every supply stops (R480). -/
def execPowerRemoval (s : State) : Host.Outcome State Fault Refusal :=
  .next (if s.mgc.off then s else (survivors s).setMgc { off := true })

/-- RESET_CTRL_WRITE: with KEY 0xB007 and WARM 1, through function 0 or over I3C (R495). -/
def resetCtrl (from_ key warm : Nat) (s : State) : State :=
  if s.mgc.off ∨ (s.operator from_ = false ∧ from_ ≠ fromI3c) ∨ key ≠ 0xB007 ∨ warm ≠ 1 then s else warmReset (if from_ = 0 then 2 else 3) s

def execResetCtrlWrite (from_ key warm : Nat) (s : State) : Host.Outcome State Fault Refusal := .next (countIo from_ (resetCtrl from_ key warm s))

-- The 48 V input (R479)

/-- VIN_EXCURSION: VIN between its operating and lockout limits, or back within the operating range. -/
def vinExcursion (mv : Nat) (s : State) : State :=
  if s.mgc.off then s
  else
    let s := s.setMgc { s.mgc with vinLowN := decide (mv < 40000) }
    if 40000 ≤ mv ∧ mv ≤ 60000 then s.setF Reg.mgcPwrStatVinExcursion 0
    else if s.flag Reg.mgcPwrStatVinExcursion then s
    else logEv .mgcVinRange pMgc 0xFF [mv] ((s.setF Reg.mgcPwrStatVinExcursion 1).bump Ctr.mgcVinExcursions)

def execVinExcursion (vinMv : Nat) (s : State) : Host.Outcome State Fault Refusal := .next (vinExcursion vinMv s)

-- Capping (R485) and temperature (R488-R490)

/-- Show the ACLK step in force and why (R485). -/
def showStep (s : State) : State :=
  let step := max s.mgc.sCap s.mgc.sTherm
  let s := (s.setF Reg.mgcPwrStatStep step).setF Reg.mgcPwrStatAclkMhz (1500 * (16 - step) / 16)
  (s.setFlag Reg.mgcPwrStatCapLimiting (decide (0 < s.mgc.sCap))).setFlag Reg.mgcPwrStatThermLimiting (decide (0 < s.mgc.sTherm))

/-- The power limit in units of 0.1 mW: min(cap, 26.3 A x VIN) (R485). -/
def powerLimit (capW vinMv : Nat) : Nat := min (capW * 10000) (263 * vinMv)

/-- A period of 100 us ends: ten make a millisecond of MS_SINCE_RESET. -/
def countPeriod (s : State) : State :=
  if s.mgc.periods < 9 then s.setMgc { s.mgc with periods := s.mgc.periods + 1 }
  else (s.setMgc { s.mgc with periods := 0 }).satAdd Reg.mgcBootMsSinceReset 1

/-- POWER_PERIOD: the means of a 100 us period; s_cap rises above the limit, and falls when ten periods in a row lay below 0.95 of it. -/
def powerPeriod (vinMv iinMa pinMw : Nat) (s : State) : State :=
  if s.mgc.off then s
  else
    let cap := s.getF Reg.mgcPwrCapWatts
    let limit := powerLimit cap vinMv
    let above := decide (limit < pinMw * 10)
    let low := if pinMw * 1000 < limit * 95 then min 10 (s.mgc.lowPeriods + 1) else 0
    let old := s.mgc.sCap
    let new := if above then min 8 (old + 1) else if low = 10 then old - 1 else old
    let energy := s.mgc.energy + pinMw
    let s := if 0 < max old s.mgc.sTherm then s.bump Ctr.mgcThrottledPeriods else s
    let s := (s.bumpBy Ctr.mgcCapStepRises (new - old)).bumpBy Ctr.mgcEnergyMj (energy / 10000)
    let s := s.setMgc { s.mgc with sCap := new, lowPeriods := low, energy := energy % 10000 }
    let s := ((s.setF Reg.mgcPwrMeasVinMv (min vinMv 65535)).setF Reg.mgcPwrMeasIinMa (min iinMa 65535)).setF Reg.mgcPwrMeasPinW (min (pinMw / 1000) 65535)
    countPeriod (showStep (s.setFlag Reg.mgcPwrStatVinLimiting (decide (263 * vinMv < cap * 10000))))

def execPowerPeriod (vinMv iinMa pinMw : Nat) (s : State) : Host.Outcome State Fault Refusal := .next (powerPeriod vinMv iinMa pinMw s)

/-- A sensor's throttle threshold (R488). -/
def throttleC (s : State) (i : Nat) : Nat := if i < 5 then s.getF Reg.mgcThermDieThrottleC else s.getF Reg.mgcThermHbmThrottleC

/-- Whether every sensor that is powered reads at least `margin` degrees below its throttle threshold. -/
def coolBy (s : State) (margin : Nat) : Bool :=
  (List.range 13).all fun i => !s.flag (Reg.mgcTempValid i) ||
    decide (sext 16 (s.getF (Reg.mgcTempCelsiusX8 i)) + (margin * 8 : Nat) ≤ (throttleC s i * 8 : Nat))

/-- Whether some sensor reads at or above its throttle threshold. -/
def tooHot (s : State) : Bool :=
  (List.range 13).any fun i => s.flag (Reg.mgcTempValid i) && decide ((throttleC s i * 8 : Nat) ≤ sext 16 (s.getF (Reg.mgcTempCelsiusX8 i)))

/-- THERMAL_SAMPLE: the readings of the thirteen sensors every 100 us, those without power absent. s_therm rises by 1 for each
millisecond hot and falls by 1 for each 10 ms cool (R489). -/
def thermalSample (temps : List (Option Nat)) (s : State) : State :=
  if s.mgc.off then s
  else
    let s := (List.range 13).foldl (fun s i =>
      match (temps[i]?).join with
      | some v => (s.setF (Reg.mgcTempCelsiusX8 i) v).setF (Reg.mgcTempValid i) 1
      | none => s.setF (Reg.mgcTempValid i) 0) s
    let m := s.mgc
    if tooHot s then
      if m.hotSamples < 9 then s.setMgc { m with hotSamples := m.hotSamples + 1, coolSamples := 0 }
      else
        let s := if m.hot ∨ 8 ≤ m.sTherm then s else logEv .mgcThermalThrottle pMgc 0xFF (packDetail 2 (temps.map (·.getD 0))) s
        let s := if m.sTherm < 8 then s.bump Ctr.mgcThermalStepRises else s
        showStep (s.setMgc { s.mgc with sTherm := min 8 (m.sTherm + 1), hot := m.hot || decide (m.sTherm < 8), hotSamples := 0, coolSamples := 0 })
    else if coolBy s 3 then
      if m.coolSamples < 99 then s.setMgc { m with hot := false, hotSamples := 0, coolSamples := m.coolSamples + 1 }
      else showStep (s.setMgc { m with sTherm := m.sTherm - 1, hot := false, hotSamples := 0, coolSamples := 0 })
    else s.setMgc { m with hot := false, hotSamples := 0, coolSamples := 0 }

def execThermalSample (temps : List (Option Nat)) (s : State) : Host.Outcome State Fault Refusal := .next (thermalSample temps s)

-- Power states (R482-R484)

/-- Enter a power state. -/
def setPwr (p : Nat) (s : State) : State := if s.pwr = p then s else (s.setF Reg.mgcPwrStatState p).bump Ctr.mgcPowerStateChanges

/-- What loses power in MGMT: T0 and with it the firmware, the compute dies with the arrays' memories, and the links of the Xebrilink ports,
whose serdes are not among what R482 powers (R482, R484, log 66). -/
def dropT0 (s : State) : State :=
  let s := (List.range 8).foldl (fun s p => dropPort p 0 s) s
  let s := [Reg.mgcBootHbmTrained, Reg.mgcBootT0Wiped, Reg.mgcBootFwRunning, Reg.mgcBootDataReady].foldl (fun s f => s.setF f 0) s
  { s with t0 := [], mxg := [], cwp := { s.cwp with poison := s.cwp.poison.filter fun p => !(decide (2 ^ 56 ≤ p.1) && decide (p.1 < 2 * 2 ^ 56)) } }

/-- No partition ACTIVE, DRAINING, WIPING or REPLAY (R483). -/
def noneBusy (s : State) : Bool := (List.range 16).all fun n => decide (s.pstate n ≤ psLocked)

/-- Whether a power state may be asked for now. -/
def mayGo (s : State) (t : Nat) : Bool :=
  (s.pwr == pwrRun && t == pwrQuiesce && noneBusy s) || ((s.pwr == pwrRun || s.pwr == pwrQuiesce) && t == pwrMgmt && noneBusy s) ||
    ((s.pwr == pwrQuiesce || s.pwr == pwrMgmt) && t == pwrRun)

/-- PWR_CTRL_GO: a request of a power state (R483). An unlisted TARGET leaves the field as it is (00 R13). -/
def pwrCtrl (from_ target : Nat) (s : State) : State :=
  if s.mgc.off ∨ (s.operator from_ = false ∧ from_ ≠ fromI3c) ∨ s.getF Reg.mgcPwrCtrlStatus = 3 then s
  else
    let s := if 1 ≤ target ∧ target ≤ 3 then s.setF Reg.mgcPwrCtrlTarget target else s
    let t := s.getF Reg.mgcPwrCtrlTarget
    if s.pwr = pwrHalted ∨ (s.pwr = pwrMgmt ∧ s.mgc.tripped) then s.setF Reg.mgcPwrCtrlStatus 2
    else if !mayGo s t then s.setF Reg.mgcPwrCtrlStatus 1
    else
      (s.setF Reg.mgcPwrCtrlStatus 3).setMgc { s.mgc with target := some t }

def execPwrCtrlGo (from_ target : Nat) (s : State) : Host.Outcome State Fault Refusal := .next (countIo from_ (pwrCtrl from_ target s))

/-- End the request in progress with a status. -/
def endPwrRequest (st : Nat) (s : State) : State := (s.setF Reg.mgcPwrCtrlStatus st).setMgc { s.mgc with target := none }

/-- POWER_TRANSITION_DONE: the change to QUIESCE, to MGMT, or from QUIESCE to RUN is done. The return from MGMT ends with stage READY
(R484); a FATAL error met meanwhile ends the request (R483). -/
def transitionDone (s : State) : State :=
  if s.mgc.off then s
  else match s.mgc.target with
    | none => s
    | some t =>
      if s.mgc.fatal then endPwrRequest 2 s
      else if t = pwrQuiesce then endPwrRequest 0 (setPwr pwrQuiesce s)
      else if t = pwrMgmt then endPwrRequest 0 (setPwr pwrMgmt (dropT0 s))
      else if s.pwr = pwrQuiesce then endPwrRequest 0 (setPwr pwrRun s)
      else s

def execPowerTransitionDone (s : State) : Host.Outcome State Fault Refusal := .next (transitionDone s)

/-- The trip threshold of a sensor, which is fixed (R488). -/
def tripC (i : Nat) : Nat := if i < 5 then 115 else 105

/-- THERMAL_TRIP: a sensor that reads, in units of 0.125 degrees, at or above its trip threshold for 1 ms (R490): FATAL, MGMT, THERMTRIP_N;
once, until a reset. -/
def thermalTrip (sensor reading : Nat) (s : State) : State :=
  if s.mgc.off ∨ 13 ≤ sensor ∨ s.mgc.tripped ∨ sext 16 (reading % 2 ^ 16) < (tripC sensor * 8 : Nat) then s
  else
    let s := if s.mgc.target.isSome then endPwrRequest 2 s else s
    let s := s.setMgc { s.mgc with fatal := true, faultN := true, tripped := true, thermtripN := true }
    logFull .mgcThermalTrip pMgc 0 0xFF 4 0 [sensor, reading] (setPwr pwrMgmt (dropT0 s))

def execThermalTrip (sensor reading : Nat) (s : State) : Host.Outcome State Fault Refusal := .next (thermalTrip sensor reading s)

-- Boot (R499, R500, 13 R436, R444, 08 R249)

/-- The boot goes on: power, no FATAL, no held reset. -/
def State.booting (s : State) : Bool := !s.mgc.off && !s.mgc.fatal && !(s.mgc.perstHeld && !s.flag Reg.mgcStrapPerstScope)

/-- Each enabled port that is DISABLED starts detection (10 R308). -/
def startPorts (s : State) : State :=
  (List.range 8).foldl (fun s p => if s.getF (Reg.xfePortEn p) = 1 ∧ s.getF (Reg.xfePortState p) = 0 then s.setF (Reg.xfePortState p) portDetect
    else s) s

/-- Stage ROM ends once the hub die's sensor, which is powered then, and every other sensor that is read at least 10 degrees below its
throttle threshold (R490, R499, log 19); each enabled port then starts detection. -/
def leaveRom (s : State) : State :=
  if s.getF Reg.mgcBootStage = 0 ∧ s.flag (Reg.mgcTempValid 4) ∧ coolBy s 10 then startPorts (s.setF Reg.mgcBootStage 1) else s

/-- On the way from MGMT to RUN (R484). -/
def State.returning (s : State) : Bool := s.pwr == pwrMgmt && s.mgc.target == some pwrRun

/-- Whether a medium may train: the ROM stage is past, at a boot or on the return from MGMT (R484, R499). -/
def State.mayTrain (s : State) : Bool :=
  let st := s.getF Reg.mgcBootStage
  (decide (1 ≤ st ∧ st ≤ 3) && s.pwr == pwrBoot) || s.returning

/-- HBM_TRAINED. -/
def hbmTrained (s : State) : State :=
  if !s.booting then s
  else
    let s := leaveRom s
    if s.mayTrain ∧ s.flag Reg.mgcBootHbmTrained = false then s.setF Reg.mgcBootHbmTrained 1 else s

def execHbmTrained (s : State) : Host.Outcome State Fault Refusal := .next (hbmTrained s)

/-- A population of 08 R249: 16 identical modules of 64, 128 or 256 GiB, every channel trained. -/
def populationOk (l : List (Option Nat)) : Bool :=
  l.length == 16 && [64, 128, 256].any fun g => l.all (· == some g)

/-- Blocks report ready. -/
def showReady (slots : List Nat) (s : State) : State := slots.foldl (fun s p => s.setF (Reg.blkStatReady p) 1) s

/-- The channel map of EV_DDC_POPULATION (08 R249): a nibble a channel from bit 0 on, its module in units of 64 GiB, 15 where that is no size
of a nibble (log 58). -/
def channelMap (l : List (Option Nat)) : Nat := ((l.take 16).zipIdx.map fun e => (if e.1.getD 0 % 64 = 0 then min 15 (e.1.getD 0 / 64) else 15) * 16 ^ e.2).sum

/-- DIMM_TRAINED: the module of each channel in GiB, absent if the channel has none or did not train (08 R249). DDC and TMG, whose "fw"
values wait for it, report ready with it if the firmware has initialised the other blocks (00 R15, log 66). -/
def dimmTrained (modules : List (Option Nat)) (s : State) : State :=
  if !s.booting then s
  else
    let s := leaveRom s
    if !s.mayTrain ∨ s.flag Reg.mgcBootDimmTrained then s
    else
      let s := (List.range 16).foldl (fun s i =>
        match (modules[i]?).join with
        | some g => ((s.setF (Reg.ddcChanModuleGib i) g).setF (Reg.ddcChanTrained i) 1).setF (Reg.ddcChanSpeedMts i) 8800
        | none => s) s
      if populationOk modules then
        let g := ((modules[0]?).join).getD 0
        let s := ((s.setF Reg.mgcBootDimmTrained 1).setF (Reg.tmgTierCapSize4k 1) (16 * g * 2 ^ 18)).setF (Reg.tmgTierCapPresent 1) 1
        if s.getF Reg.mgcBootStage = 3 then showReady [pDdc, pTmg] s else s
      else goFatal ((raiseErr { slot := pDdc, ev := .ddcPopulation, cls := .fatal, resource := channelMap modules } s).setF Reg.mgcBootStage 5)

def execDimmTrained (modules : List (Option Nat)) (s : State) : Host.Outcome State Fault Refusal := .next (dimmTrained modules s)

/-- The data plane is ready once the firmware runs and both wipes have ended (13 R444): DATA_READY, EV_MGC_READY, RUN. -/
def tryReady (s : State) : State :=
  if s.getF Reg.mgcBootStage = 3 ∧ s.flag Reg.mgcBootT0Wiped ∧ s.flag Reg.mgcBootT1Wiped then
    let s := (s.setF Reg.mgcBootStage 4).setF Reg.mgcBootDataReady 1
    let s := if s.pwr = pwrMgmt then startPorts (setPwr pwrRun s) else setPwr pwrRun s
    logEv .mgcReady pMgc 0xFF [] (if s.mgc.target.isSome then endPwrRequest 0 s else s)
  else s

/-- Zero a whole tier: its bytes, its poison, its failing tags (13 R443). -/
def wipeTier (k : Nat) (s : State) : State :=
  let lo := if k = 1 then 0 else (k + 1) * 2 ^ 56
  { s.setTier k [] with
    cwp := { s.cwp with poison := s.cwp.poison.filter fun p => !(decide (lo ≤ p.1) && decide (p.1 < lo + 2 ^ 56)) }
    sec := { s.sec with badUnits := s.sec.badUnits.filter fun u => u.1 != k } }

/-- T0_WIPE_DONE. On the return from MGMT the stages from FW_WAIT on follow it (R484). -/
def t0WipeDone (s : State) : State :=
  if !s.booting ∨ s.flag Reg.mgcBootHbmTrained = false ∨ s.flag Reg.mgcBootT0Wiped then s
  else
    let s' := (wipeTier 0 s).setF Reg.mgcBootT0Wiped 1
    if s.returning then s'.setF Reg.mgcBootStage 1 else tryReady s'

def execT0WipeDone (s : State) : Host.Outcome State Fault Refusal := .next (t0WipeDone s)

/-- T1_WIPE_DONE. -/
def t1WipeDone (s : State) : State :=
  if !s.booting ∨ s.flag Reg.mgcBootDimmTrained = false ∨ s.flag Reg.mgcBootT1Wiped then s
  else tryReady ((wipeTier 1 s).setF Reg.mgcBootT1Wiped 1)

def execT1WipeDone (s : State) : Host.Outcome State Fault Refusal := .next (t1WipeDone s)

-- The firmware image (13 R435, R436, R484)

/-- The plaintext of an image: each 512-byte unit under its index (R436). -/
def fwPlain (ct : List Byte) : List Byte :=
  ((List.range (ct.length / 512)).map fun i => Config.aesXtsInv Config.fwKey (leBytes 16 i) (slice ct (512 * i) 512)).flatten

/-- The header's fixed fields and LENGTH (R435): check 2. -/
def fwHeaderOk (b : List Byte) : Bool :=
  fieldAt b 0 4 == 0x53564657 && fieldAt b 4 2 == 1 && fieldAt b 6 1 == 0xA1 && fieldAt b 7 1 == 0 && fieldAt b 0x18 8 == 0 &&
    (slice b 0x60 32).all (· == 0) && (slice b 0x150D 2803).all (· == 0) &&
    fieldAt b 0x10 8 % 512 == 0 && decide (fieldAt b 0x10 8 ≤ 256 * 2 ^ 20) && decide (8192 + fieldAt b 0x10 8 ≤ b.length)

/-- The signer is one of the four of the boot ROM, and its revocation fuse is intact. -/
def fwSignerOk (s : State) (b : List Byte) : Bool :=
  (List.range 4).any fun i => Config.romSigner i == shake256 (slice b 0x80 1952) 64 && !bit s.sec.fuses.revoked i

/-- RESULT of an image (R436): that of the first check that fails, 0 if none does. -/
def fwResult (s : State) (image : Option (List Byte)) : Nat :=
  match image with
  | none => 6
  | some b =>
    let ct := slice b 8192 (fieldAt b 0x10 8)
    let hash := slice b 0x20 64
    if !fwHeaderOk b then 1
    else if !fwSignerOk s b then 2
    else if !Config.mlDsaVerify (slice b 0x80 1952) (slice b 0 0x820 ++ ct) (ascii "SV8-FW") (slice b 0x820 3309) then 3
    else if fieldAt b 0xC 4 < s.sec.fuses.svnMin then 4
    else if shake256 (fwPlain ct) 64 ≠ hash then 5
    else if s.pwr = pwrMgmt ∧ (List.range 8).any (fun i => s.getF (Reg.secFwMeasData i) != fieldAt hash (8 * i) 8) then 7
    else 0

/-- FW_LOAD_GO: the boot ROM reads and checks an image at SEC.FW_LOAD.BASE, `image` being what the host holds there if it can be read.
Function 0 only, in stage FW_WAIT; a decommissioned device loads nothing (R442). -/
def fwLoad (from_ len4k : Nat) (image : Option (List Byte)) (s : State) : State :=
  if s.operator from_ = false ∨ !s.booting ∨ s.sec.fuses.lifecycle = 3 then s
  else
    let s := leaveRom s
    if s.getF Reg.mgcBootStage ≠ 1 then s
    else
      let s := (s.setF Reg.secFwLoadCtrlLen4k len4k).emit (.hostFetch 0 (s.getF Reg.secFwLoadBase * 4096) (len4k * 4096))
      let image := image.map fun b => slice b 0 (len4k * 4096)
      let r := fwResult s image
      let s := s.setF Reg.secFwStatResult r
      if r ≠ 0 then s
      else
        let b := image.getD []
        let s := showBytes Reg.secFwMeasData 8 (slice b 0x20 64) s
        let s := (s.setF Reg.secFwVersion (fieldAt b 8 4)).setF Reg.secFwSvn (fieldAt b 0xC 4)
        (s.setF Reg.mgcBootFwRunning 1).setF Reg.mgcBootStage 2

def execFwLoadGo (from_ len4k : Nat) (image : Option (List Byte)) (s : State) : Host.Outcome State Fault Refusal :=
  .next (countIo from_ (fwLoad from_ len4k image s))

/-- Offsets of the registers of every expander (04 R125, R126). -/
def expPages : List Nat :=
  ((List.range 8).map fun k => (pHbc + k) * 0x10000 + 0x0F00) ++ ((List.range 16).map fun c => pDdc * 0x10000 + 0x0E00 + c * 0x10) ++
  ((List.range 2).map fun k => (pCxd + k) * 0x10000 + 0x0F00) ++ ((List.range 8).map fun k => (pNvc + k) * 0x10000 + 0x0F00)

/-- What a tray and a drive that a root port finds show. -/
def showTray (t : Nat × Nat × Bool) (s : State) : State :=
  if 2 ≤ t.1 then s
  else ((s.setF (Reg.cxdPortLinkUp t.1) 1).setF (Reg.cxdPortWidth t.1) t.2.1).setFlag (Reg.cxdPortTrayHeat t.1) t.2.2

/-- A drive that NVC takes into service (08 R287): an NVMe 2 controller with the NVM command set, 4 KiB LBAs without metadata or
protection, transfers of at least 128 KiB. -/
def driveFits (d : DriveFound) : Bool :=
  decide (2 ≤ d.nvme) && d.nvm && d.lbaBytes == 4096 && d.metaBytes == 0 && !d.protection && decide (128 ≤ d.mdtsKib)

/-- What NVC makes of a drive at its bring-up (08 R287): 16 queue pairs and service, or the event of one that does not meet the
requirements. -/
def showDrive (d : DriveFound) (s : State) : State :=
  if 8 ≤ d.port then s
  else
    let s := ((s.setF (Reg.nvcDrivePresent d.port) 1).setF (Reg.mgcPinLevel (3 + d.port)) 1).setF (Reg.nvcDriveUnits4k d.port) d.units
    if driveFits d then (s.setF (Reg.nvcDriveReady d.port) 1).setF (Reg.nvcDriveQueues d.port) 16
    else logEv .nvcDriveFailed (pNvc + d.port) 0xFF [d.port] s

/-- The "fw" values of every block (00 R15). -/
def fwValues (v : FwValues) (s : State) : State :=
  let s := ((s.setF Reg.tmgDirBaseAddr v.dirBase).setF Reg.tmgDirCapRecords v.dirRecords).setF Reg.pmeColdBase v.coldBase
  let s := ((s.setF Reg.pmeColdCapBuckets v.coldBuckets).setF Reg.pmeColdCapFree v.coldFree).setF Reg.pmeColumnPoolCap v.columnPool
  let s := (s.setF Reg.pmeGeomBanksOk 0xFFFF).setF Reg.pmeCascadePosition (s.getF Reg.mgcStrapPos)
  let s := expPages.foldl (fun s p => s.setF (Reg.expCredits p) v.credits) s
  let s := (s.setF Reg.frcStagingSizeMib v.stagingMib).setF Reg.cwpWindowSize v.windowSize
  let s := (s.setF (Reg.tmgTierCapSize4k 0) (384 * 2 ^ 18)).setF (Reg.tmgTierCapPresent 0) 1
  let s := v.drives.foldl (fun s d => showDrive d s) (v.trays.foldl (fun s t => showTray t s) s)
  let s := (s.setF (Reg.tmgTierCapSize4k 2) v.t2Units).setFlag (Reg.tmgTierCapPresent 2) (!v.trays.isEmpty)
  let up := fun k => s.flag (Reg.cxdPortLinkUp k)
  let s := (s.setFlag (Reg.cxdPortSingle 0) (up 0 && !up 1)).setFlag (Reg.cxdPortSingle 1) (up 1 && !up 0)
  let s := (s.setF Reg.xfeUid deviceUid).setF Reg.secLifecycleState s.sec.fuses.lifecycle
  let s := (s.setF Reg.secFwMinSvnMin s.sec.fuses.svnMin).setF Reg.secFwMinSignerRevoked s.sec.fuses.revoked
  let s := (List.range 8).foldl (fun s i => s.setF (Reg.secRomMeasData i) (Config.romMeas i)) s
  let s := t3Capacity (areaAtBoot (s.setTmg { s.tmg with t3Drives := drives s }))
  let late := if s.flag Reg.mgcBootDimmTrained then [] else [pDdc, pTmg]
  showReady ((pageMap.map (·.slot)).filter fun p => !late.contains p) s

/-- FW_INIT_DONE: every block whose values are set reports ready. On the return from MGMT the registers stand as they were (R484). -/
def fwInitDone (v : FwValues) (s : State) : State :=
  if !s.booting ∨ s.getF Reg.mgcBootStage ≠ 2 then s
  else tryReady ((if s.pwr = pwrBoot then fwValues v s else s).setF Reg.mgcBootStage 3)

def execFwInitDone (fw : FwValues) (s : State) : Host.Outcome State Fault Refusal := .next (fwInitDone fw s)

-- PERST_N and the host link (R495, R497, R502, R506)

/-- PERST_N: an assertion of at least 1 us is accepted. With scope 0 it is a warm reset, or, within 10 ms of the last one accepted
(`soon`), it extends that reset, and LEVEL stands at its reset value while the reset is held (log 66); with scope 1 it resets the
upstream port only, and is ignored in stage ROM. -/
def perst (soon : Bool) (s : State) : State :=
  if s.mgc.off ∨ s.mgc.perstHeld then s
  else
    let hold := fun (s : State) => s.setMgc { s.mgc with perstHeld := true }
    if s.flag Reg.mgcStrapPerstScope then
      if s.getF Reg.mgcBootStage = 0 then s else (hold (linkLost s)).setF (Reg.mgcPinLevel 0) 1
    else hold (if soon then s else warmReset 1 s)

def execPerstN (soon : Bool) (s : State) : Host.Outcome State Fault Refusal := .next (perst soon s)

/-- PERST_N_DEASSERTED. -/
def execPerstNDeasserted (s : State) : Host.Outcome State Fault Refusal :=
  .next (if s.mgc.off ∨ s.mgc.perstHeld = false then s else (s.setMgc { s.mgc with perstHeld := false }).setF (Reg.mgcPinLevel 0) 0)

/-- HOST_LINK_UP: the upstream link reaches L0. Without a switch the host has LD 0 (12 R376). -/
def hostLinkUp (width : Nat) (mld : Bool) (s : State) : State :=
  if s.mgc.off ∨ s.mgc.perstHeld ∨ s.flag Reg.hifLinkUp then s
  else
    let s := ((s.setF Reg.hifLinkUp 1).setF Reg.hifLinkWidth width).setFlag Reg.hifLinkMld mld
    if mld then s else bindLd 0 s

def execHostLinkUp (width : Nat) (mld : Bool) (s : State) : Host.Outcome State Fault Refusal := .next (hostLinkUp width mld s)

-- Discrete inputs (R506, R507)

/-- The filtered inputs: PERST_N, BEAT_IN and NVC_PRSNT_N; MATCH_IN has rules of its own (R508). -/
def filtered (pin : Nat) : Bool := decide (pin ≤ 10) && pin != 2

/-- PIN_GLITCH: a pulse too short, or (`dropped`) an event beyond the rate; the event is logged unless the input has logged one within
the last second (`quiet`). -/
def pinGlitch (pin : Nat) (dropped quiet : Bool) (s : State) : State :=
  if s.mgc.off ∨ !filtered pin then s
  else
    let s := if dropped then s.satAdd (Reg.mgcPinDropped pin) 1 else (s.satAdd (Reg.mgcPinGlitches pin) 1).bump Ctr.mgcPinGlitches
    if quiet then s else logEv .mgcPinGlitch pMgc 0xFF [pin] s

def execPinGlitch (pin : Nat) (dropped quiet : Bool) (s : State) : Host.Outcome State Fault Refusal := .next (pinGlitch pin dropped quiet s)

/-- PIN_STUCK_TIMEOUT: BEAT_IN, the one input with a timeout, is masked; every wheel takes the fabric SP (R506). -/
def pinStuck (pin : Nat) (s : State) : State :=
  if s.mgc.off ∨ pin ≠ 1 ∨ s.flag (Reg.mgcPinMasked 1) then s
  else
    let s := ((s.setF (Reg.mgcPinMasked 1) 1).setF (Reg.mgcPinLevel 1) 1).satAdd (Reg.mgcPinStuck 1) 1
    let s := (tkeys s.ssq.wheels).foldl (fun s w => modWheel w Wheel.followSp s) s
    logEv .mgcPinMasked pMgc 0xFF [pin] s

def execPinStuckTimeout (pin : Nat) (s : State) : Host.Outcome State Fault Refusal := .next (pinStuck pin s)

/-- PIN_UNMASK: BEAT_IN has been deasserted for 10 ms. -/
def pinUnmask (pin : Nat) (s : State) : State :=
  if s.mgc.off ∨ pin ≠ 1 ∨ s.flag (Reg.mgcPinMasked 1) = false then s
  else logEv .mgcPinUnmasked pMgc 0xFF [pin] ((s.setF (Reg.mgcPinMasked 1) 0).setF (Reg.mgcPinLevel 1) 0)

def execPinUnmask (pin : Nat) (s : State) : Host.Outcome State Fault Refusal := .next (pinUnmask pin s)

end Sys2Proof.Machine
end

