-- ==== Sys2Proof/Machine/Dispatch.lean ====
section
/-!
DEFINITION. Machine/Dispatch.lean: `exec`, one arm per command of the block.
-/
namespace Sys2Proof.Machine

open Sys2Proof

def exec (i : Instr) (s : State) : Host.Outcome State Fault Refusal :=
  match i with
  | .queueCreate c => Sys2Proof.Machine.execQueueCreate c s
  | .queueDelete c => Sys2Proof.Machine.execQueueDelete c s
  | .sessionOpen c => Sys2Proof.Machine.execSessionOpen c s
  | .sessionClose c => Sys2Proof.Machine.execSessionClose c s
  | .sessionPark c => Sys2Proof.Machine.execSessionPark c s
  | .sessionRebind c => Sys2Proof.Machine.execSessionRebind c s
  | .sessionSet c => Sys2Proof.Machine.execSessionSet c s
  | .sessionRead c => Sys2Proof.Machine.execSessionRead c s
  | .historyRead c => Sys2Proof.Machine.execHistoryRead c s
  | .turnSubmit c => Sys2Proof.Machine.execTurnSubmit c s
  | .turnCancel c => Sys2Proof.Machine.execTurnCancel c s
  | .sessionShard c => Sys2Proof.Machine.execSessionShard c s
  | .chainExtend c => Sys2Proof.Machine.execChainExtend c s
  | .modelBind c => Sys2Proof.Machine.execModelBind c s
  | .modelUnbind c => Sys2Proof.Machine.execModelUnbind c s
  | .tailBind c => Sys2Proof.Machine.execTailBind c s
  | .tailUnbind c => Sys2Proof.Machine.execTailUnbind c s
  | .adapterLoad c => Sys2Proof.Machine.execAdapterLoad c s
  | .adapterRetire c => Sys2Proof.Machine.execAdapterRetire c s
  | .wheelAttach c => Sys2Proof.Machine.execWheelAttach c s
  | .wheelDetach c => Sys2Proof.Machine.execWheelDetach c s
  | .prefixLookup c => Sys2Proof.Machine.execPrefixLookup c s
  | .nextMatch c => Sys2Proof.Machine.execNextMatch c s
  | .prefixAttach c => Sys2Proof.Machine.execPrefixAttach c s
  | .prefixRelease c => Sys2Proof.Machine.execPrefixRelease c s
  | .prefixPublish c => Sys2Proof.Machine.execPrefixPublish c s
  | .prefixRevoke c => Sys2Proof.Machine.execPrefixRevoke c s
  | .tierRead c => Sys2Proof.Machine.execTierRead c s
  | .tierWrite c => Sys2Proof.Machine.execTierWrite c s
  | .tierCopy c => Sys2Proof.Machine.execTierCopy c s
  | .windowPublish c => Sys2Proof.Machine.execWindowPublish c s
  | .connOpen c => Sys2Proof.Machine.execConnOpen c s
  | .connClose c => Sys2Proof.Machine.execConnClose c s
  | .regionRegister c => Sys2Proof.Machine.execRegionRegister c s
  | .regionRevoke c => Sys2Proof.Machine.execRegionRevoke c s
  | .groupSet c => Sys2Proof.Machine.execGroupSet c s
  | .wrSubmit c => Sys2Proof.Machine.execWrSubmit c s
  | .wrPost c => Sys2Proof.Machine.execWrPost c s
  | .extentAssign c => Sys2Proof.Machine.execExtentAssign c s
  | .extentAddHosts c => Sys2Proof.Machine.execExtentAddHosts c s
  | .extentRemove c => Sys2Proof.Machine.execExtentRemove c s
  | .partitionConfigure c => Sys2Proof.Machine.execPartitionConfigure c s
  | .partitionRelease c => Sys2Proof.Machine.execPartitionRelease c s
  | .partitionLock c => Sys2Proof.Machine.execPartitionLock c s
  | .partitionStart c => Sys2Proof.Machine.execPartitionStart c s
  | .partitionDrain c => Sys2Proof.Machine.execPartitionDrain c s
  | .partitionWipe c => Sys2Proof.Machine.execPartitionWipe c s
  | .replayBegin c => Sys2Proof.Machine.execReplayBegin c s
  | .capsuleRead c => Sys2Proof.Machine.execCapsuleRead c s
  | .replayRun c supply => Sys2Proof.Machine.execReplayRun c supply s
  | .fwCommitSvn c => Sys2Proof.Machine.execFwCommitSvn c s
  | .lifecycleAdvance c => Sys2Proof.Machine.execLifecycleAdvance c s
  | .lifecycleDecommission c => Sys2Proof.Machine.execLifecycleDecommission c s
  | .spdmGetVersion transport => Sys2Proof.Machine.execSpdmGetVersion transport s
  | .spdmGetCapabilities transport => Sys2Proof.Machine.execSpdmGetCapabilities transport s
  | .spdmNegotiateAlgorithms transport offered => Sys2Proof.Machine.execSpdmNegotiateAlgorithms transport offered s
  | .spdmGetDigests transport => Sys2Proof.Machine.execSpdmGetDigests transport s
  | .spdmGetCertificate transport slot offset length => Sys2Proof.Machine.execSpdmGetCertificate transport slot offset length s
  | .spdmUnsupportedRequest transport => Sys2Proof.Machine.execSpdmUnsupportedRequest transport s
  | .attestationReport transport part nonce => Sys2Proof.Machine.execAttestationReport transport part nonce s
  | .keyInit transport part nonce => Sys2Proof.Machine.execKeyInit transport part nonce s
  | .keyExch transport part ct pk sig => Sys2Proof.Machine.execKeyExch transport part ct pk sig s
  | .keyDeliver transport part slot wrapped tag => Sys2Proof.Machine.execKeyDeliver transport part slot wrapped tag s
  | .keyExchangeTimeout part => Sys2Proof.Machine.execKeyExchangeTimeout part s
  | .debugHalt core => Sys2Proof.Machine.execDebugHalt core s
  | .debugResume core => Sys2Proof.Machine.execDebugResume core s
  | .debugStep step => Sys2Proof.Machine.execDebugStep step s
  | .debugMemoryRead space addr len => Sys2Proof.Machine.execDebugMemoryRead space addr len s
  | .aqCtrlWrite from_ fn sqSize cqSize en => Sys2Proof.Machine.execAqCtrlWrite from_ fn sqSize cqSize en s
  | .sqTailDoorbell fn q value => Sys2Proof.Machine.execSqTailDoorbell fn q value s
  | .cqHeadDoorbell fn q value => Sys2Proof.Machine.execCqHeadDoorbell fn q value s
  | .commandFetch fn q entry => Sys2Proof.Machine.execCommandFetch fn q entry s
  | .cqDelayExpiry fn q => Sys2Proof.Machine.execCqDelayExpiry fn q s
  | .tickWrite from_ value => Sys2Proof.Machine.execTickWrite from_ value s
  | .ladderMove session => Sys2Proof.Machine.execLadderMove session s
  | .sessionExpiry session => Sys2Proof.Machine.execSessionExpiry session s
  | .sessionRetirement session => Sys2Proof.Machine.execSessionRetirement session s
  | .wheelExpertWrite from_ wheel reg value => Sys2Proof.Machine.execWheelExpertWrite from_ wheel reg value s
  | .tmgReadRecord from_ handle => Sys2Proof.Machine.execTmgReadRecord from_ handle s
  | .tmgReadHeader from_ handle => Sys2Proof.Machine.execTmgReadHeader from_ handle s
  | .markRecovery from_ handle => Sys2Proof.Machine.execMarkRecovery from_ handle s
  | .readMap from_ session layer page => Sys2Proof.Machine.execReadMap from_ session layer page s
  | .pmeReadEntry from_ set way => Sys2Proof.Machine.execPmeReadEntry from_ set way s
  | .dropEntry from_ set way => Sys2Proof.Machine.execDropEntry from_ set way s
  | .bankTest from_ set => Sys2Proof.Machine.execBankTest from_ set s
  | .mapOutBank from_ set => Sys2Proof.Machine.execMapOutBank from_ set s
  | .sweepColumns from_ part => Sys2Proof.Machine.execSweepColumns from_ part s
  | .routeRead from_ first => Sys2Proof.Machine.execRouteRead from_ first s
  | .routeWrite from_ first last mask => Sys2Proof.Machine.execRouteWrite from_ first last mask s
  | .connReadRecord from_ conn => Sys2Proof.Machine.execConnReadRecord from_ conn s
  | .connFail from_ conn => Sys2Proof.Machine.execConnFail from_ conn s
  | .regionOpReadEntry from_ index => Sys2Proof.Machine.execRegionOpReadEntry from_ index s
  | .regionOpRevoke from_ index => Sys2Proof.Machine.execRegionOpRevoke from_ index s
  | .revokeAndFree from_ index => Sys2Proof.Machine.execRevokeAndFree from_ index s
  | .nodeStaticWrite from_ static_ staticNode => Sys2Proof.Machine.execNodeStaticWrite from_ static_ staticNode s
  | .portEnWrite from_ port en => Sys2Proof.Machine.execPortEnWrite from_ port en s
  | .capsuleAreaWrite from_ units => Sys2Proof.Machine.execCapsuleAreaWrite from_ units s
  | .fwLoadGo from_ len4k image => Sys2Proof.Machine.execFwLoadGo from_ len4k image s
  | .pwrCtrlGo from_ target => Sys2Proof.Machine.execPwrCtrlGo from_ target s
  | .powerTransitionDone => Sys2Proof.Machine.execPowerTransitionDone s
  | .resetCtrlWrite from_ key warm => Sys2Proof.Machine.execResetCtrlWrite from_ key warm s
  | .blkExpertUnlockWrite from_ slot maskPart maskOper key => Sys2Proof.Machine.execBlkExpertUnlockWrite from_ slot maskPart maskOper key s
  | .blkInject from_ slot value => Sys2Proof.Machine.execBlkInject from_ slot value s
  | .blkSelftestGo from_ slot resource kind => Sys2Proof.Machine.execBlkSelftestGo from_ slot resource kind s
  | .registerWrite from_ offset size value => Sys2Proof.Machine.execRegisterWrite from_ offset size value s
  | .errorDetected slot inst source => Sys2Proof.Machine.execErrorDetected slot inst source s
  | .selftestDone slot kind num passed units => Sys2Proof.Machine.execSelftestDone slot kind num passed units s
  | .trigger port raw fill => Sys2Proof.Machine.execTrigger port raw fill s
  | .triggerConsume region elapsedNs => Sys2Proof.Machine.execTriggerConsume region elapsedNs s
  | .beatIn => Sys2Proof.Machine.execBeatIn s
  | .gangDeal part => Sys2Proof.Machine.execGangDeal part s
  | .expanderDecode wheel stamp gang => Sys2Proof.Machine.execExpanderDecode wheel stamp gang s
  | .recoveryReadDone handle failed => Sys2Proof.Machine.execRecoveryReadDone handle failed s
  | .itemDone wheel stamp item nodes => Sys2Proof.Machine.execItemDone wheel stamp item nodes s
  | .stepCommit session late => Sys2Proof.Machine.execStepCommit session late s
  | .commitReserveTimeout session => Sys2Proof.Machine.execCommitReserveTimeout session s
  | .rosterWrite wheel => Sys2Proof.Machine.execRosterWrite wheel s
  | .reviveLayerResident session => Sys2Proof.Machine.execReviveLayerResident session s
  | .tierTransferDone what => Sys2Proof.Machine.execTierTransferDone what s
  | .tierReadFailed what how => Sys2Proof.Machine.execTierReadFailed what how s
  | .pageLate wheel layer what => Sys2Proof.Machine.execPageLate wheel layer what s
  | .wheelStall wheel => Sys2Proof.Machine.execWheelStall wheel s
  | .chainTimeout wheel member => Sys2Proof.Machine.execChainTimeout wheel member s
  | .spillwayRelief part tier columns => Sys2Proof.Machine.execSpillwayRelief part tier columns s
  | .cleanAhead part => Sys2Proof.Machine.execCleanAhead part s
  | .heatPromotion handle => Sys2Proof.Machine.execHeatPromotion handle s
  | .heatSweep hot => Sys2Proof.Machine.execHeatSweep hot s
  | .hitsAgeing bank => Sys2Proof.Machine.execHitsAgeing bank s
  | .prefixPublication session => Sys2Proof.Machine.execPrefixPublication session s
  | .holeMaintenance set => Sys2Proof.Machine.execHoleMaintenance set s
  | .columnSweep part => Sys2Proof.Machine.execColumnSweep part s
  | .lookupSlotTimeout slot => Sys2Proof.Machine.execLookupSlotTimeout slot s
  | .importDone id what => Sys2Proof.Machine.execImportDone id what s
  | .cascadeLookup origin id segment part session hashes wides tokens => Sys2Proof.Machine.execCascadeLookup origin id segment part session hashes wides tokens s
  | .resolve origin id segment => Sys2Proof.Machine.execResolve origin id segment s
  | .matchFrame origin id segment hitIn column => Sys2Proof.Machine.execMatchFrame origin id segment hitIn column s
  | .cascadeResult id segment hit multi => Sys2Proof.Machine.execCascadeResult id segment hit multi s
  | .cascadeReject id segment => Sys2Proof.Machine.execCascadeReject id segment s
  | .cascadeMove set what => Sys2Proof.Machine.execCascadeMove set what s
  | .matchInStuck => Sys2Proof.Machine.execMatchInStuck s
  | .cascadeLockTimeout => Sys2Proof.Machine.execCascadeLockTimeout s
  | .fwdLookup node id part hops depth hashes wides tokens => Sys2Proof.Machine.execFwdLookup node id part hops depth hashes wides tokens s
  | .fwdAnswer id hit => Sys2Proof.Machine.execFwdAnswer id hit s
  | .fwdTimeout id => Sys2Proof.Machine.execFwdTimeout id s
  | .sluiceDecide inst arrivals credits => Sys2Proof.Machine.execSluiceDecide inst arrivals credits s
  | .sluicePreempt inst arrivals credits => Sys2Proof.Machine.execSluicePreempt inst arrivals credits s
  | .sluiceHogCutoff inst addr => Sys2Proof.Machine.execSluiceHogCutoff inst addr s
  | .sluiceWindowBoundary inst => Sys2Proof.Machine.execSluiceWindowBoundary inst s
  | .linkDetect port lanes => Sys2Proof.Machine.execLinkDetect port lanes s
  | .linkTrained port => Sys2Proof.Machine.execLinkTrained port s
  | .linkTrainTimeout port => Sys2Proof.Machine.execLinkTrainTimeout port s
  | .linkCap port peer => Sys2Proof.Machine.execLinkCap port peer s
  | .linkDown port fec => Sys2Proof.Machine.execLinkDown port fec s
  | .assign port node fmNode epoch => Sys2Proof.Machine.execAssign port node fmNode epoch s
  | .depart port node uid => Sys2Proof.Machine.execDepart port node uid s
  | .join port node uid => Sys2Proof.Machine.execJoin port node uid s
  | .route port first last mask epoch => Sys2Proof.Machine.execRoute port first last mask epoch s
  | .connect port raw fill => Sys2Proof.Machine.execConnect port raw fill s
  | .accept port raw fill => Sys2Proof.Machine.execAccept port raw fill s
  | .close port raw fill => Sys2Proof.Machine.execClose port raw fill s
  | .closeAck port raw fill => Sys2Proof.Machine.execCloseAck port raw fill s
  | .connectTimeout conn => Sys2Proof.Machine.execConnectTimeout conn s
  | .closeTimeout conn => Sys2Proof.Machine.execCloseTimeout conn s
  | .write port raw fill => Sys2Proof.Machine.execWrite port raw fill s
  | .mcastWrite port raw fill => Sys2Proof.Machine.execMcastWrite port raw fill s
  | .reduce port raw fill => Sys2Proof.Machine.execReduce port raw fill s
  | .readReq port raw fill => Sys2Proof.Machine.execReadReq port raw fill s
  | .readResp port raw fill => Sys2Proof.Machine.execReadResp port raw fill s
  | .atomic port raw fill => Sys2Proof.Machine.execAtomic port raw fill s
  | .atomicResp port raw fill => Sys2Proof.Machine.execAtomicResp port raw fill s
  | .cas port raw fill => Sys2Proof.Machine.execCas port raw fill s
  | .casResp port raw fill => Sys2Proof.Machine.execCasResp port raw fill s
  | .flush port raw fill => Sys2Proof.Machine.execFlush port raw fill s
  | .flushResp port raw fill => Sys2Proof.Machine.execFlushResp port raw fill s
  | .ack port raw fill => Sys2Proof.Machine.execAck port raw fill s
  | .nak port raw fill => Sys2Proof.Machine.execNak port raw fill s
  | .ackDelayExpiry conn seq => Sys2Proof.Machine.execAckDelayExpiry conn seq s
  | .retransmitTimeout conn seq index => Sys2Proof.Machine.execRetransmitTimeout conn seq index s
  | .connectionDeadTimeout conn => Sys2Proof.Machine.execConnectionDeadTimeout conn s
  | .deadTarget req => Sys2Proof.Machine.execDeadTarget req s
  | .spillFetchDone conn record => Sys2Proof.Machine.execSpillFetchDone conn record s
  | .revokeDrained index => Sys2Proof.Machine.execRevokeDrained index s
  | .regionRetireExpiry index => Sys2Proof.Machine.execRegionRetireExpiry index s
  | .hostMemRead ld line grant => Sys2Proof.Machine.execHostMemRead ld line grant s
  | .hostMemWrite ld line mask bytes => Sys2Proof.Machine.execHostMemWrite ld line mask bytes s
  | .bisnpResponse host line data => Sys2Proof.Machine.execBisnpResponse host line data s
  | .recallTimeout host line => Sys2Proof.Machine.execRecallTimeout host line s
  | .extentDrainBound extent => Sys2Proof.Machine.execExtentDrainBound extent s
  | .extentWipeDone extent => Sys2Proof.Machine.execExtentWipeDone extent s
  | .hostIoRequest ld req => Sys2Proof.Machine.execHostIoRequest ld req s
  | .functionLevelReset fn => Sys2Proof.Machine.execFunctionLevelReset fn s
  | .ldReset ld => Sys2Proof.Machine.execLdReset ld s
  | .ldBind ld => Sys2Proof.Machine.execLdBind ld s
  | .hostLinkDown => Sys2Proof.Machine.execHostLinkDown s
  | .cxdPortDown port => Sys2Proof.Machine.execCxdPortDown port s
  | .cxdPortReturn port lanes => Sys2Proof.Machine.execCxdPortReturn port lanes s
  | .nvcCommandTimeout drive retried what => Sys2Proof.Machine.execNvcCommandTimeout drive retried what s
  | .nvcDriveFatal drive => Sys2Proof.Machine.execNvcDriveFatal drive s
  | .nvcPrsntChange drive present => Sys2Proof.Machine.execNvcPrsntChange drive present s
  | .capsuleWrite => Sys2Proof.Machine.execCapsuleWrite s
  | .perstN soon => Sys2Proof.Machine.execPerstN soon s
  | .pinStuckTimeout pin => Sys2Proof.Machine.execPinStuckTimeout pin s
  | .pinUnmask pin => Sys2Proof.Machine.execPinUnmask pin s
  | .powerOnReset pos perstScope i3cSa => Sys2Proof.Machine.execPowerOnReset pos perstScope i3cSa s
  | .powerRemoval => Sys2Proof.Machine.execPowerRemoval s
  | .vinExcursion vinMv => Sys2Proof.Machine.execVinExcursion vinMv s
  | .powerPeriod vinMv iinMa pinMw => Sys2Proof.Machine.execPowerPeriod vinMv iinMa pinMw s
  | .thermalSample temps => Sys2Proof.Machine.execThermalSample temps s
  | .thermalTrip sensor reading => Sys2Proof.Machine.execThermalTrip sensor reading s
  | .hbmTrained => Sys2Proof.Machine.execHbmTrained s
  | .dimmTrained modules => Sys2Proof.Machine.execDimmTrained modules s
  | .t0WipeDone => Sys2Proof.Machine.execT0WipeDone s
  | .t1WipeDone => Sys2Proof.Machine.execT1WipeDone s
  | .fwInitDone fw => Sys2Proof.Machine.execFwInitDone fw s
  | .partitionWipeDone part => Sys2Proof.Machine.execPartitionWipeDone part s
  | .perstNDeasserted => Sys2Proof.Machine.execPerstNDeasserted s
  | .hostLinkUp width mld => Sys2Proof.Machine.execHostLinkUp width mld s
  | .messageLeftPort conn seq => Sys2Proof.Machine.execMessageLeftPort conn seq s
  | .matchInViolation recent => Sys2Proof.Machine.execMatchInViolation recent s
  | .cascadeNeighbourLinkFail => Sys2Proof.Machine.execCascadeNeighbourLinkFail s
  | .pinGlitch pin dropped quiet => Sys2Proof.Machine.execPinGlitch pin dropped quiet s
  | .driveProtocolViolation drive header => Sys2Proof.Machine.execDriveProtocolViolation drive header s
  | .trayEventPoll port errors => Sys2Proof.Machine.execTrayEventPoll port errors s

end Sys2Proof.Machine
end

