-- ==== Sys2Proof/Safety.lean ====
section
/-!
DEFINITION. Safety.lean: the conditions in which the statements speak: canonical memories, a command that runs, a command that passes
the common checks.
-/
namespace Sys2Proof.Machine

open Sys2Proof

/-- The four tiers' memories are in their canonical form. -/
abbrev memsOk (s : State) : Prop := memWf s.t0 = true ∧ memWf s.t1 = true ∧ memWf s.t2 = true ∧ memWf s.t3 = true

/-- A command runs: its meaning answers a next state. -/
def Runs (c : Instr) (s : State) : Prop := ∃ t, exec c s = .next t

/-- A host command of opcode `op` passes the common checks of every command (01 R35, 12 R385, 13 R415-R417, 15 R500, 16 R523), and the
lines of its data buffer, if it has one in the state window, are ready and unpoisoned (12 R398, R401). -/
abbrev Admitted (op : Nat) (c : Cmd) (s : State) : Prop := gate op c s = .pass ∧ (bufferAccess op c s).isNone = true

/-- A command names session `x`, which stands at descriptor index `i` (02 R40), and whose descriptor is intact (13 R431). -/
abbrev Names (c : Cmd) (s : State) (i : Nat) (x : Session) : Prop :=
  namedSession c.part (c.arg 0 8) s = .inr (i, x) ∧ objectsBad s 1 [descObject s i x] = []

/-- The data plane and the control plane run: the device has power, is not FATAL and is not in MGMT (15 R480, R482, 01 R35). -/
abbrev Live (s : State) : Prop := s.running = true

/-- The clocks of the arrays and of the tending cores run as well: the device is not in QUIESCE (15 R482). -/
abbrev Clocked (s : State) : Prop := s.running = true ∧ s.pwr ≠ pwrQuiesce

/-- The `n` lines of the state window from `first`: no access waits for one, none is in recall or being wiped, and no host holds the first (12
R398, R410). -/
abbrev OpenLines (s : State) (first n : Nat) : Prop :=
  s.lineQueued ((List.range n).map (first + ·)) = false ∧ s.needsRecall true first = false ∧
  (((List.range n).map (first + ·)).any fun l => s.recalled l || s.wiping l) = false

/-- A lifecycle change that waits for the next reset goes forward (13 R442). -/
abbrev FuseOk (f : Fuses) : Prop := f.lifecycle ≤ f.next.getD f.lifecycle

/-- The state in which a packet that a port receives is judged (10 R346): it is counted, and the port's window of violations runs. -/
abbrev heard (port : Nat) (s : State) : State := portSeen port (s.bump (Ctr.xfeRxPackets port))

/-- A packet of an opcode arrives whole at an UP port of a running device that bears the node number it names (10 R346, checks 1 to 3). -/
abbrev Arrives (op port : Nat) (raw : List Byte) (s : State) : Prop :=
  s.running = true ∧ s.upPort port = true ∧ 64 ≤ raw.length ∧ fieldAt raw 0x3C 4 = crc32c (raw.take 60) ∧ (PktHdr.parse raw).op = op ∧
  bit (PktHdr.parse raw).flags flLocal = false ∧ s.nodeValid = true ∧ (PktHdr.parse raw).dst % 2 ^ 17 = s.node

/-- The packet names connection `c` of its sender, which is OPEN or CLOSING, on chip, of the packet's generation and version (10 R346, checks
4 to 6), with no reserved bit of CONN or SRC set, and neither a switch nor the port's fill marked it (10 R336). -/
abbrev OnConn (port : Nat) (raw : List Byte) (fill : Nat) (c : Conn) (s : State) : Prop :=
  tget (heard port s).xfe.conns (PktHdr.parse raw).conn = some c ∧ c.node = (PktHdr.parse raw).src ∧ (c.state = .opened ∨ c.state = .closing) ∧
  c.spilled = false ∧ (heard port s).cgenOf (PktHdr.parse raw).conn = (PktHdr.parse raw).cgen ∧ fill ≤ (heard port s).getF Reg.xfeCcMarkThresh ∧ bit (PktHdr.parse raw).flags flCm = false ∧
  (PktHdr.parse raw).version = (if c.native then 2 else 1) ∧ (PktHdr.parse raw).conn < 2 ^ 20 ∧ (PktHdr.parse raw).src < 2 ^ 17

/-- The state once the packet's connection has been used (10 R344). -/
abbrev touched (port : Nat) (raw : List Byte) (s : State) : State := touchConn (PktHdr.parse raw).conn (heard port s)

/-- A data packet is new, well formed, intact, and may do what it asks of its region, and a tracker is free (10 R329, R330, R346, 11 R365). -/
abbrev Passes (raw p : List Byte) (c : Conn) (u : State) : Prop :=
  tget u.xfe.conns (PktHdr.parse raw).conn = some c ∧ fieldsOk (PktHdr.parse raw) (u.isProtected c.part) c.native = true ∧
  (PktHdr.parse raw).isSealed = u.isProtected c.part ∧
  (tgetD c.trackers (PktHdr.parse raw).seq { pktsM1 := (PktHdr.parse raw).pktsM1 }).pktsM1 = (PktHdr.parse raw).pktsM1 ∧
  rxWindow c (PktHdr.parse raw) = .new ∧ crcOk (PktHdr.parse raw) raw = true ∧ openPayload u c.part (PktHdr.parse raw) raw = some p ∧
  trackersUsed u < 32768 ∧ (opOnRegion (PktHdr.parse raw).op = true → regionCheck u c (PktHdr.parse raw) = none)

/-- A control packet of connection `c` is well formed, sealed as its partition is, in the window of the PSNs of compatibility mode and not
seen before (10 R342), and intact, with payload `p` (10 R346). -/
abbrev CtlPasses (raw p : List Byte) (c : Conn) (u : State) : Prop :=
  tget u.xfe.conns (PktHdr.parse raw).conn = some c ∧ fieldsOk (PktHdr.parse raw) (u.isProtected c.part) c.native = true ∧
  (PktHdr.parse raw).isSealed = u.isProtected c.part ∧ ctlWindow c (PktHdr.parse raw) = .new ∧ crcOk (PktHdr.parse raw) raw = true ∧ openPayload u c.part (PktHdr.parse raw) raw = some p

/-- The state with a control packet's PSN taken (10 R341). -/
abbrev ctlTaken (raw : List Byte) (c : Conn) (u : State) : State := putConn (PktHdr.parse raw).conn (takePsn (PktHdr.parse raw).psn c) u

/-- The state with the packet taken: its tracker, its PSN, and the region's count of packets in flight (10 R329, R342, 11 R365). -/
abbrev taken (raw : List Byte) (c : Conn) (u : State) : State :=
  let h := PktHdr.parse raw
  let t := tgetD c.trackers h.seq { pktsM1 := h.pktsM1 }
  let v := putConn h.conn (takePsn h.psn { c with trackers := tset c.trackers h.seq { t with got := setBit t.got h.index } }) u
  if opOnRegion h.op then modRegion (keyIndex h.rkey) (fun r => { r with inflight := r.inflight + 1 }) v else v

end Sys2Proof.Machine
end

