-- ==== Sys2Proof/Certificates/Slice0/Obligations.lean ====
section
/-!
DEFINITION. Certificates/Slice0/Obligations.lean: the statements about the device, one `def Obligations.<Name> : Prop` each. Each docstring names the rule
of spec/ that it formalises.
-/

open Sys2Proof Sys2Proof.Machine

/-- A step takes the command at the front of the queue and runs it with the queue's rest (95: each row of the table is one whole step). That a step on an empty queue changes nothing is the model's DESIGN CHOICE of log 2; that no command ends in a fault or a refusal is what the spec's giving each an effect comes to. -/
def Obligations.StepTakesFront : Prop :=
  (∀ (c : Instr) (rest : List Instr) (s : State),
    step { s with pending := c :: rest } = exec c { s with pending := rest }) ∧
  (∀ (s : State),
    s.pending = [] →
    step s = .next s) ∧
  (∀ (c : Instr) (s : State),
    ∃ t, exec c s = .next t ∧ t.pending = s.pending)

/-- 12 R384: creating and deleting a queue; a CQ that an SQ names is not deleted (ST_QUEUE_INVALID). 12 R388: deleting a queue takes its pair out of ERROR. 12 R393: commands in flight into a deleted CQ lose their entry. The right-hand sides give the whole next state. 12 R383: AQ_CTRL of a function is written through the function's own BAR0; EN creates the admin pair with vector 1 from the size and base registers; clearing EN deletes the function's queues as R393 says. Completion vector and bases as the registers hold them. -/
def Obligations.QueuesComeAndGo : Prop :=
  (∀ (c : Cmd) (s : State),
    Admitted 1 c s →
    onAdmin c = true →
    queueArgsOk c true = true →
    c.arg 0 1 = 0 →
    2 ≤ c.arg 2 2 ∧ c.arg 2 2 ≤ 4096 →
    c.arg 0x10 8 % 4096 = 0 →
    tget s.hif.sqs (qKey c.fn (c.arg 1 1)) = none →
    (tget s.hif.cqs (qKey c.fn (c.arg 4 1))).isSome = true ∧ c.arg 4 1 < queuesOf c.fn →
    exec (.queueCreate c) s = .next (complete c {} { s with hif := { s.hif with
      sqs := tset s.hif.sqs (qKey c.fn (c.arg 1 1)) { size := c.arg 2 2, base := c.arg 0x10 8, cqid := c.arg 4 1 } } })) ∧
  (∀ (c : Cmd) (s : State),
    Admitted 1 c s →
    onAdmin c = true →
    queueArgsOk c true = true →
    c.arg 0 1 = 1 →
    2 ≤ c.arg 2 2 ∧ c.arg 2 2 ≤ 4096 →
    c.arg 0x10 8 % 4096 = 0 →
    tget s.hif.cqs (qKey c.fn (c.arg 1 1)) = none →
    1 ≤ c.arg 5 1 ∧ c.arg 5 1 < vectorsOf c.fn →
    exec (.queueCreate c) s = .next (complete c {} { s with hif := { s.hif with
      cqs := tset s.hif.cqs (qKey c.fn (c.arg 1 1)) { size := c.arg 2 2, base := c.arg 0x10 8, vector := c.arg 5 1, thresh := c.arg 6 1, delayUs := c.arg 8 2 } } })) ∧
  (∀ (c : Cmd) (s : State),
    Admitted 2 c s →
    onAdmin c = true →
    queueArgsOk c false = true →
    c.arg 0 1 = 0 →
    (tget s.hif.sqs (qKey c.fn (c.arg 1 1))).isSome = true →
    exec (.queueDelete c) s = .next (complete c {} { s with hif := { s.hif with
      sqs := tdel s.hif.sqs (qKey c.fn (c.arg 1 1)), qErr := s.hif.qErr.filter (· != qKey c.fn (c.arg 1 1)) } })) ∧
  (∀ (c : Cmd) (s : State),
    Admitted 2 c s →
    onAdmin c = true →
    queueArgsOk c false = true →
    c.arg 0 1 = 1 →
    (tget s.hif.cqs (qKey c.fn (c.arg 1 1))).isSome = true →
    cqNamed s c.fn (c.arg 1 1) = false →
    exec (.queueDelete c) s = .next (complete c {} { s with hif := { s.hif with
      cqs := tdel s.hif.cqs (qKey c.fn (c.arg 1 1)), qErr := s.hif.qErr.filter (· != qKey c.fn (c.arg 1 1)),
      inflight := s.hif.inflight.map fun (i : Inflight) => if i.fn = c.fn ∧ i.cq = c.arg 1 1 then { i with live := false } else i } })) ∧
  (∀ (c : Cmd) (s : State),
    Admitted 2 c s →
    onAdmin c = true →
    queueArgsOk c false = true →
    c.arg 0 1 = 1 →
    cqNamed s c.fn (c.arg 1 1) = true →
    exec (.queueDelete c) s = .next (complete c { status := .queueInvalid } s)) ∧
  (∀ (fn sq cq : Nat) (s : State),
    s.fnLive fn = true →
    s.flag (aqEn fn) = false →
    2 ≤ sq ∧ sq ≤ 4096 →
    2 ≤ cq ∧ cq ≤ 4096 →
    let s' := ((s.setF (aqSqSize fn) sq).setF (aqCqSize fn) cq).setF (aqEn fn) 1
    exec (.aqCtrlWrite fn fn sq cq 1) s = .next (countIo fn { s' with hif := { s.hif with
      sqs := tset s.hif.sqs (qKey fn 0) { size := sq, base := s'.getF (aqSqBase fn) * 4096, cqid := 0 }
      cqs := tset s.hif.cqs (qKey fn 0) { size := cq, base := s'.getF (aqCqBase fn) * 4096, vector := 1 } } })) ∧
  (∀ (fn sq cq : Nat) (s : State),
    s.fnLive fn = true →
    sq < 2 ∧ cq < 2 →
    exec (.aqCtrlWrite fn fn sq cq 0) s = .next (countIo fn (({ s with hif := { s.hif with
      sqs := s.hif.sqs.filter fun q => q.1 / 64 != fn, cqs := s.hif.cqs.filter fun q => q.1 / 64 != fn,
      qErr := s.hif.qErr.filter fun k => k / 64 != fn,
      inflight := s.hif.inflight.map fun (i : Inflight) => if i.fn = fn then { i with live := false } else i } }).setF (aqEn fn) 0))) ∧
  (∀ (via fn sq cq : Nat) (s : State),
    via ≠ fn ∨ s.fnLive fn = false ∨ sq < 2 ∨ 4096 < sq ∨ cq < 2 ∨ 4096 < cq →
    exec (.aqCtrlWrite via fn sq cq 1) s = .next (countIo via s))

/-- 12 R388: doorbells of SQ tails and CQ heads; an invalid write puts the queue pair in ERROR and logs EV_HIF_QUEUE_ERROR with function, queue and value. A function that the host does not reach (R379, 14 R460) and a page that BAR2 lacks take none: DEDUCED, log 13. -/
def Obligations.DoorbellsMoveTailAndHead : Prop :=
  (∀ (fn q v : Nat) (r : Sq) (s : State),
    s.mgc.off = false →
    s.fnShown fn = true →
    q < queuesOf fn →
    tget s.hif.sqs (qKey fn q) = some r →
    v < r.size →
    (r.tail + r.size - r.head) % r.size + (v + r.size - r.tail) % r.size ≤ r.size - 1 →
    exec (.sqTailDoorbell fn q v) s = .next (countIo fn { s with hif := { s.hif with sqs := tset s.hif.sqs (qKey fn q) { r with tail := v } } })) ∧
  (∀ (fn q v : Nat) (r : Sq) (s : State),
    s.mgc.off = false →
    s.fnShown fn = true →
    q < queuesOf fn →
    tget s.hif.sqs (qKey fn q) = some r →
    r.size ≤ v ∨ r.size - 1 < (r.tail + r.size - r.head) % r.size + (v + r.size - r.tail) % r.size →
    exec (.sqTailDoorbell fn q v) s = .next (countIo fn (doorbellError fn q v s))) ∧
  (∀ (fn q v : Nat) (r : Cq) (s : State),
    s.mgc.off = false →
    s.fnShown fn = true →
    q < queuesOf fn →
    tget s.hif.cqs (qKey fn q) = some r →
    v < r.size →
    (v + r.size - r.head) % r.size ≤ r.used →
    exec (.cqHeadDoorbell fn q v) s = .next (countIo fn { s with hif := { s.hif with cqs := tset s.hif.cqs (qKey fn q) { r with head := v } } })) ∧
  (∀ (fn q v : Nat) (r : Cq) (s : State),
    s.mgc.off = false →
    s.fnShown fn = true →
    q < queuesOf fn →
    tget s.hif.cqs (qKey fn q) = some r →
    r.size ≤ v ∨ r.used < (v + r.size - r.head) % r.size →
    exec (.cqHeadDoorbell fn q v) s = .next (countIo fn (doorbellError fn q v s))) ∧
  (∀ (fn q v : Nat) (s : State),
    s.mgc.off = false →
    s.fnShown fn = true →
    q < queuesOf fn →
    tget s.hif.sqs (qKey fn q) = none ∧ tget s.hif.cqs (qKey fn q) = none →
    exec (.sqTailDoorbell fn q v) s = .next (countIo fn (doorbellError fn q v s)) ∧ exec (.cqHeadDoorbell fn q v) s = .next (countIo fn (doorbellError fn q v s))) ∧
  (∀ (fn q v : Nat) (s : State),
    let t := doorbellError fn q v s
    qKey fn q ∈ t.hif.qErr ∧ t.hif.sqs = s.hif.sqs ∧ t.hif.cqs = s.hif.cqs ∧ t.frc.seq = s.frc.seq + 1 ∧
      (t.frc.ring.head?.map fun r => (r.code, r.detail)) = some (Ev.hifQueueError.code, [fn, q, v])) ∧
  (∀ (fn q v : Nat) (s : State),
    s.fnShown fn = false ∨ queuesOf fn ≤ q →
    exec (.sqTailDoorbell fn q v) s = .next (countIo fn s) ∧ exec (.cqHeadDoorbell fn q v) s = .next (countIo fn s))

/-- 12 R387 and R389: when an entry may be fetched (log 11 for the one entry a CQ ring keeps empty) and what its fetch does; 00 R14 and 12 R385: a malformed entry. 12 R391: coalescing of MSI-X by THRESH and DELAY_US, its masks and its enable (DEDUCED, log 65); 14 R451: a FENCED HIF fetches nothing; 12 R393: function-level reset. -/
def Obligations.FetchAndSignal : Prop :=
  (∀ (fn q : Nat) (e : List Byte) (r : Sq) (cq : Cq) (s : State),
    s.mgc.off = false →
    isFenced s pHif 0 = false →
    tget s.hif.sqs (qKey fn q) = some r →
    tget s.hif.cqs (qKey fn r.cqid) = some cq →
    roundNext s fn = some q →
    mayFetch fn q e r cq s = true →
    let t := (roundPast fn q { s with hif := { s.hif with
        sqs := tset s.hif.sqs (qKey fn q) ({ r with head := (r.head + 1) % r.size } : Sq)
        cqs := tset s.hif.cqs (qKey fn r.cqid) ({ cq with reserved := cq.reserved + 1 } : Cq)
        inflight := s.hif.inflight ++ [({ fn := fn, sq := q, cid := fieldAt e 4 2, cq := r.cqid, sqHead := (r.head + 1) % r.size } : Inflight)] } }).bump Ctr.hifCommandsFetched
    exec (.commandFetch fn q e) s = .next (if entryOk fn e then t else complete (cmdOfEntry fn q e []) { status := .invalidField } t)) ∧
  (∀ (fn q : Nat) (e : List Byte) (r : Sq) (cq : Cq) (s : State),
    tget s.hif.sqs (qKey fn q) = some r →
    s.mgc.off = false →
    isFenced s pHif 0 = false →
    tget s.hif.cqs (qKey fn r.cqid) = some cq →
    roundNext s fn = some q →
    mayFetch fn q e r cq s = false →
    exec (.commandFetch fn q e) s = .next (roundPast fn q s)) ∧
  (∀ (fn q : Nat) (e : List Byte) (s : State),
    roundNext s fn ≠ some q ∨ isFenced s pHif 0 = true →
    exec (.commandFetch fn q e) s = .next s) ∧
  (∀ (fn q k : Nat) (s : State),
    roundNext s fn = some q →
    k < q →
    k < queuesOf fn →
    sqWaits s fn k = true →
    k < tgetD s.hif.rounds fn 0) ∧
  (∀ (fn q : Nat) (r : Cq) (s : State),
    s.mgc.off = false →
    tget s.hif.cqs (qKey fn q) = some r →
    r.sinceSignal ≠ 0 →
    exec (.cqDelayExpiry fn q) s = .next (({ s with hif := { s.hif with cqs := tset s.hif.cqs (qKey fn q) { r with sinceSignal := 0 } } }).signal fn r.vector)) ∧
  (∀ (fn q : Nat) (r : Cq) (s : State),
    tget s.hif.cqs (qKey fn q) = some r →
    r.sinceSignal = 0 →
    exec (.cqDelayExpiry fn q) s = .next s) ∧
  (∀ (fn : Nat) (s : State),
    s.mgc.off = false →
    s.fnShown fn = true →
    exec (.functionLevelReset fn) s = .next (countIo fn (resetMsix fn (({ s with hif := { s.hif with
      sqs := s.hif.sqs.filter fun q => q.1 / 64 != fn, cqs := s.hif.cqs.filter fun q => q.1 / 64 != fn,
      qErr := s.hif.qErr.filter fun k => k / 64 != fn,
      inflight := s.hif.inflight.map fun (i : Inflight) => if i.fn = fn then { i with live := false } else i } }).setF (aqEn fn) 0)))) ∧
  (∀ (fn v : Nat) (s : State),
    (s.msixVec fn v).masked = true ∨ s.msixOn fn = false →
    s.signal fn v = putMsix fn v { s.msixVec fn v with pending := true } s) ∧
  (∀ (fn v : Nat) (s : State),
    (s.msixVec fn v).masked = false →
    s.msixOn fn = true →
    s.signal fn v = (s.emit (.msix fn v)).bump Ctr.hifMsixSent)

/-- 16 R526 and 02 R40-R44: opening a session, alone or as a fork. Reserved fields, expiry, retention and pointers as the rules give them; log 4: the substitute seed and the pointers are free values. -/
def Obligations.SessionOpenWritesDescriptor : Prop :=
  (∀ (c : Cmd) (m : Model) (ver i : Nat) (src : Option Session) (s s₁ : State),
    Admitted 0x0101 c s →
    openOk c (c.buffer s) = true →
    s.model? c.part (c.arg 0 8) = some m →
    tpNodes (slice (c.buffer s) 0x20 96) ≤ treeLimit s m →
    adapterFor s c.part (c.arg 0 8) (c.arg 8 4) (c.arg 0x0C 4) = .inr ver →
    c.arg 8 4 = 0 ∨ adapterRank s c.part (c.arg 8 4) ver ≤ m.rankMax →
    forkSource c.part (c.arg 0x18 8) (c.arg 0 8) (c.arg 8 4) ver s = .inr src →
    (src.map fun y => objectsBad s 1 [descObject s (c.arg 0x18 8 % 2 ^ 22) y] ++ historyBad s (c.arg 0x18 8 % 2 ^ 22) y 0 y.history.length).getD [] = [] →
    freeIndex s c.part = some i →
    addRefs ((src.map (·.handles)).getD []) s = some s₁ →
    ∃ (seed : List Byte) (s₂ : State) (x : Session),
      (seed, s₂) = (if slice (c.buffer s) 0 32 = zeros 32 then s₁.freshBytes 32 else (slice (c.buffer s) 0 32, s₁)) ∧
      x.handle = i + c.part * 2 ^ 22 + tgetD s₂.ssq.incarn i 1 * 2 ^ 26 ∧ x.part = c.part ∧ x.state = .opened ∧ x.model = c.arg 0 8 ∧
      x.adapter = c.arg 8 4 ∧ x.adapterVer = ver ∧ x.profileId = m.profileId ∧ x.contract = m.contract ∧ x.seed = seed ∧
      x.tailParams = slice (c.buffer s) 0x20 96 ∧ x.hostCtx = slice (c.buffer s) 0x80 128 ∧ x.commitSeq = 0 ∧ x.turn = 0 ∧
      x.ttlTicks = (if c.arg 0x10 4 = 0 then s₂.getF (Reg.ssqPbTtlDefault c.part) else c.arg 0x10 4) ∧ x.expiryTick = s₂.tick + x.ttlTicks ∧
      x.retainTicks = (if c.arg 0x14 4 = 0 then s₂.getF (Reg.ssqPbRetainDefault c.part) else c.arg 0x14 4) ∧ x.retainTick = s₂.tick + x.retainTicks ∧
      x.record = bit (fieldAt (c.buffer s) 0x100 1) 0 ∧ x.relaxed = bit (fieldAt (c.buffer s) 0x100 1) 1 ∧
      x.history = (src.map (·.history)).getD [] ∧ x.kvLen = (src.map (·.kvLen)).getD 0 ∧ x.drawCount = (src.map (·.drawCount)).getD 0 ∧ x.prefillRequired = (src.map (·.prefillRequired)).getD false ∧
      x.map = (src.map fun y => y.map.filter fun e => !foldedRef e.2).getD [] ∧
      (let u := commitEvent i .opened .ok (capCommand x.handle 0x0101 c (stageCapsule x.handle c.part
          (placeMap i (putSession i x { s₂ with sec := { s₂.sec with gens := tdel s₂.sec.gens i } }))))
       exec (.sessionOpen c) s = .next (complete c { result0 := x.handle, data := some (0, seed), seq := seqOf u i } u))) ∧
  (∀ (c : Cmd) (s : State),
    Admitted 0x0101 c s →
    openOk c (c.buffer s) = true →
    s.model? c.part (c.arg 0 8) = none →
    exec (.sessionOpen c) s = .next (complete c { status := .noBinding } s)) ∧
  (∀ (c : Cmd) (m : Model) (ver : Nat) (st : Status) (s : State),
    Admitted 0x0101 c s →
    openOk c (c.buffer s) = true →
    s.model? c.part (c.arg 0 8) = some m →
    tpNodes (slice (c.buffer s) 0x20 96) ≤ treeLimit s m →
    adapterFor s c.part (c.arg 0 8) (c.arg 8 4) (c.arg 0x0C 4) = .inr ver →
    c.arg 8 4 = 0 ∨ adapterRank s c.part (c.arg 8 4) ver ≤ m.rankMax →
    forkSource c.part (c.arg 0x18 8) (c.arg 0 8) (c.arg 8 4) ver s = .inl st →
    exec (.sessionOpen c) s = .next (complete c { status := st } s)) ∧
  (∀ (c : Cmd) (m : Model) (ver : Nat) (src : Option Session) (s : State),
    Admitted 0x0101 c s →
    openOk c (c.buffer s) = true →
    s.model? c.part (c.arg 0 8) = some m →
    tpNodes (slice (c.buffer s) 0x20 96) ≤ treeLimit s m →
    adapterFor s c.part (c.arg 0 8) (c.arg 8 4) (c.arg 0x0C 4) = .inr ver →
    c.arg 8 4 = 0 ∨ adapterRank s c.part (c.arg 8 4) ver ≤ m.rankMax →
    forkSource c.part (c.arg 0x18 8) (c.arg 0 8) (c.arg 8 4) ver s = .inr src →
    (src.map fun y => objectsBad s 1 [descObject s (c.arg 0x18 8 % 2 ^ 22) y] ++ historyBad s (c.arg 0x18 8 % 2 ^ 22) y 0 y.history.length).getD [] = [] →
    freeIndex s c.part = none →
    exec (.sessionOpen c) s = .next (complete c { status := .noDescriptor } s))

/-- 02 R44 and R60 (closing, with a turn cancelled first), R40 (handles), R44 and 16 R525 (parking), R75 (rebinding), 13 R431 (a descriptor whose tag fails: ST_SESSION_CORRUPT). The COMMIT_SEQ in the completion is that of the event (12 R386). -/
def Obligations.SessionCloseParkRebind : Prop :=
  (∀ (c : Cmd) (i : Nat) (x : Session) (s : State),
    Admitted 0x0102 c s →
    c.argsOk [(0, 8)] = true →
    c.dlen = 0 →
    Names c s i x →
    let u := capCommand x.handle 0x0102 c s
    let v := if (turnOf u i).isSome then cancelTurn i u else u
    exec (.sessionClose c) s = .next (complete c { seq := seqOf v i + 1 } (closeSession i .closed v))) ∧
  (∀ (c : Cmd) (st : Status) (s : State),
    Admitted 0x0102 c s →
    c.argsOk [(0, 8)] = true →
    c.dlen = 0 →
    namedSession c.part (c.arg 0 8) s = .inl st →
    exec (.sessionClose c) s = .next (complete c { status := st } s)) ∧
  (∀ (c : Cmd) (i : Nat) (x : Session) (s : State),
    Admitted 0x0102 c s →
    c.argsOk [(0, 8)] = true →
    c.dlen = 0 →
    namedSession c.part (c.arg 0 8) s = .inr (i, x) →
    objectsBad s 1 [descObject s i x] ≠ [] →
    exec (.sessionClose c) s = .next (complete c { status := .sessionCorrupt } (objectCorrupt i ((objectsBad s 1 [descObject s i x]).map fun u => (1, u)) s))) ∧
  (∀ (c : Cmd) (i : Nat) (x : Session) (s : State),
    Admitted 0x0103 c s →
    c.argsOk [(0, 8), (8, 1)] = true →
    c.dlen = 0 →
    Names c s i x →
    x.healed.idle = true →
    x.healed.state.parks = true →
    c.arg 8 1 ≤ 3 →
    s.flag (Reg.ssqPbLadderValid x.part (c.arg 8 1)) = true →
    x.healed.rung < c.arg 8 1 →
    let u := enterRung i (c.arg 8 1) (commitEvent i .parked .ok (capCommand x.handle 0x0103 c s))
    exec (.sessionPark c) s = .next (complete c { seq := seqOf u i } u)) ∧
  (∀ (c : Cmd) (i : Nat) (x : Session) (s : State),
    Admitted 0x0103 c s →
    c.argsOk [(0, 8), (8, 1)] = true →
    c.dlen = 0 →
    Names c s i x →
    x.healed.idle = true →
    x.healed.state.parks = true →
    c.arg 8 1 ≤ 3 →
    s.flag (Reg.ssqPbLadderValid x.part (c.arg 8 1)) = true →
    c.arg 8 1 ≤ x.healed.rung →
    exec (.sessionPark c) s = .next (complete c { status := .sessionState } s)) ∧
  (∀ (c : Cmd) (i : Nat) (x : Session) (s : State),
    Admitted 0x0103 c s →
    Admitted 0x0104 c s →
    c.argsOk [(0, 8), (8, 1)] = true →
    c.dlen = 0 →
    Names c s i x →
    x.healed.idle = false →
    x.idle = false →
    c.arg 8 1 ≤ 3 →
    exec (.sessionPark c) s = .next (complete c { status := .sessionBusy } s) ∧
    exec (.sessionRebind c) s = .next (complete c { status := .sessionBusy } s)) ∧
  (∀ (c : Cmd) (i ver : Nat) (x : Session) (m : Model) (s : State),
    Admitted 0x0104 c s →
    c.argsOk [(0, 8), (8, 8), (0x10, 4), (0x14, 4)] = true →
    c.dlen = 0 →
    Names c s i x →
    x.idle = true →
    s.model? c.part (c.arg 8 8) = some m →
    adapterFor s c.part (c.arg 8 8) (c.arg 0x10 4) (c.arg 0x14 4) = .inr ver →
    c.arg 0x10 4 = 0 ∨ adapterRank s c.part (c.arg 0x10 4) ver ≤ m.rankMax →
    let u := dropKv i (commitEvent i .rebound .ok (capCommand x.handle 0x0104 c s))
    let v := settleAdapter c.part x.adapter x.adapterVer (modSession i (fun (x : Session) => { x with
      model := c.arg 8 8, adapter := c.arg 0x10 4, adapterVer := ver, profileId := m.profileId, contract := m.contract }) u)
    exec (.sessionRebind c) s = .next (complete c { seq := seqOf v i } v))

/-- 16 R529 (SESSION_SET), 16 R525 and 02 R42 (SESSION_READ, HISTORY_READ); the status of a read beyond the history is the model's (see the log of host commands). -/
def Obligations.SessionSetAndReads : Prop :=
  (∀ (c : Cmd) (i : Nat) (x : Session) (s : State),
    Admitted 0x0105 c s →
    c.argsOk [(0, 8), (8, 1), (9, 1), (0x0C, 4), (0x10, 4)] = true →
    c.dlen = 224 →
    c.arg 8 1 < 16 →
    c.arg 9 1 ≤ 1 →
    Names c s i x →
    bit (c.arg 8 1) 0 = false ∨ tailParamsOk (((s.model? x.part x.model).map (treeLimit s)).getD 32) (slice (c.buffer s) 0 96) = true →
    let b := c.buffer s
    let mask := c.arg 8 1
    let u := commitEvent i .written .ok (capCommand x.handle 0x0105 c s)
    let v := modSession i (fun (y : Session) => { y with
      tailParams := if bit mask 0 then slice b 0 96 else y.tailParams
      hostCtx := if bit mask 1 then slice b 96 128 else y.hostCtx
      ttlTicks := if bit mask 2 then (if c.arg 0x0C 4 = 0 then u.getF (Reg.ssqPbTtlDefault x.part) else c.arg 0x0C 4) else y.ttlTicks
      retainTicks := if bit mask 2 then (if c.arg 0x10 4 = 0 then u.getF (Reg.ssqPbRetainDefault x.part) else c.arg 0x10 4) else y.retainTicks
      record := if bit mask 3 then c.arg 9 1 == 1 else y.record }) u
    let w := if bit mask 0 && fieldAt b 0x18 4 != fieldAt x.tailParams 0x18 4 then countHistory i (v.bump Ctr.mxgCountRebuilds) else v
    exec (.sessionSet c) s = .next (complete c { seq := seqOf w i } w)) ∧
  (∀ (c : Cmd) (i : Nat) (x : Session) (s : State),
    Admitted 0x0106 c s →
    c.argsOk [(0, 8)] = true →
    512 ≤ c.dlen →
    Names c s i x →
    exec (.sessionRead c) s = .next (complete c { result0 := x.history.length, result1 := x.kvLen, data := some (0, descBytes x) } (capCommand x.handle 0x0106 c s))) ∧
  (∀ (c : Cmd) (i : Nat) (x : Session) (s : State),
    Admitted 0x0106 c s →
    c.argsOk [(0, 8)] = true →
    512 ≤ c.dlen →
    Names c s i x →
    openCapsule s x.handle = none →
    exec (.sessionRead c) s = .next (complete c { result0 := x.history.length, result1 := x.kvLen, data := some (0, descBytes x) } s)) ∧
  (∀ (c : Cmd) (i : Nat) (x : Session) (s : State),
    Admitted 0x0107 c s →
    c.argsOk [(0, 8), (8, 8), (0x10, 4)] = true →
    0 < c.arg 0x10 4 →
    4 * c.arg 0x10 4 ≤ c.dlen →
    Names c s i x →
    c.arg 8 8 + c.arg 0x10 4 ≤ x.history.length →
    historyBad s i x (c.arg 8 8) (c.arg 0x10 4) = [] →
    exec (.historyRead c) s = .next (complete c { result0 := x.history.length, data := some (0, (((x.history.drop (c.arg 8 8)).take (c.arg 0x10 4)).map (leBytes 4)).flatten) } (capCommand x.handle 0x0107 c s))) ∧
  (∀ (c : Cmd) (i : Nat) (x : Session) (s : State),
    Admitted 0x0107 c s →
    c.argsOk [(0, 8), (8, 8), (0x10, 4)] = true →
    4 * c.arg 0x10 4 ≤ c.dlen →
    Names c s i x →
    x.history.length < c.arg 8 8 + c.arg 0x10 4 →
    exec (.historyRead c) s = .next (complete c { status := .invalidField } s))

/-- 02 R46, R63, R64, R72 and 16 R527: submission with the parameters kept (a block of zeros) and what refuses it; 02 R60: cancellation. The order of the checks is log 35. 05 R177 and 16 R531: configuring and extending a chain; the conditions are those of the rule. -/
def Obligations.TurnsAndChains : Prop :=
  (∀ (c : Cmd) (i : Nat) (x : Session) (s : State),
    Admitted 0x0108 c s →
    c.argsOk [(0, 8), (8, 2), (0x0A, 1), (0x0C, 4)] = true →
    c.dlen = 96 + 4 * c.arg 0x0C 4 →
    c.arg 0x0A 1 ≤ 1 →
    slice (c.buffer s) 0 96 = zeros 96 →
    Names c s i x →
    submitCheck c s x.healed x.tailParams (x.history.length + c.arg 0x0C 4) (c.arg 0x0A 1 == 1) = none →
    (let p := putSession i { x with history := x.history ++ (List.range (c.arg 0x0C 4)).map fun k => fieldAt (c.buffer s) (96 + 4 * k) 4 } s
   weirTest (p.setHrc { p.hrc with revive := [] }) [] []
    { session := i, part := c.part, wheel := c.arg 8 2, state := .queued, cmd := c, maxNew := tpMaxNew x.tailParams, nodes := tpNodes x.tailParams } = none) →
    (queuedOf s c.part).length < s.getF (Reg.ssqPbWeirQueueDepth c.part) →
    let toks := (List.range (c.arg 0x0C 4)).map fun k => fieldAt (c.buffer s) (96 + 4 * k) 4
    let u := modSession i (fun (x : Session) => { x with history := x.history ++ toks, tailParams := x.tailParams, turnPending := true, foldDue := 0 })
      (commitEvent i .submitted .ok (capCommand x.handle 0x0108 c s))
    let t : Turn := { session := i, part := c.part, wheel := c.arg 8 2, state := .queued, cmd := c, maxNew := tpMaxNew x.tailParams, nodes := tpNodes x.tailParams, submitSeq := seqOf u i }
    let w := holdCommand c { u with ssq := { u.ssq with
      turns := u.ssq.turns.filter (·.state == .queued) ++ [t] ++ u.ssq.turns.filter (·.state != .queued) } }
    let v := if (queuedOf s c.part).isEmpty then weirEvaluate c.part w else w
    exec (.turnSubmit c) s = .next (markStarted c (if (turnOf v i).map (·.state) = some .queued then v.bump Ctr.ssqTurnsQueued else v))) ∧
  (∀ (c : Cmd) (i : Nat) (x : Session) (s : State),
    Admitted 0x0108 c s →
    c.argsOk [(0, 8), (8, 2), (0x0A, 1), (0x0C, 4)] = true →
    c.dlen = 96 + 4 * c.arg 0x0C 4 →
    c.arg 0x0A 1 ≤ 1 →
    slice (c.buffer s) 0 96 = zeros 96 →
    Names c s i x →
    x.healed.idle = false →
    exec (.turnSubmit c) s = .next (complete c { status := .sessionBusy } s)) ∧
  (∀ (c : Cmd) (i : Nat) (x : Session) (s : State),
    Admitted 0x0108 c s →
    c.argsOk [(0, 8), (8, 2), (0x0A, 1), (0x0C, 4)] = true →
    c.dlen = 96 + 4 * c.arg 0x0C 4 →
    c.arg 0x0A 1 ≤ 1 →
    slice (c.buffer s) 0 96 = zeros 96 →
    Names c s i x →
    submitCheck c s x.healed x.tailParams (x.history.length + c.arg 0x0C 4) (c.arg 0x0A 1 == 1) = none →
    (let p := putSession i { x with history := x.history ++ (List.range (c.arg 0x0C 4)).map fun k => fieldAt (c.buffer s) (96 + 4 * k) 4 } s
   weirTest (p.setHrc { p.hrc with revive := [] }) [] []
    { session := i, part := c.part, wheel := c.arg 8 2, state := .queued, cmd := c, maxNew := tpMaxNew x.tailParams, nodes := tpNodes x.tailParams } = none) →
    queuedOf s c.part ≠ [] →
    s.getF (Reg.ssqPbWeirQueueDepth c.part) ≤ (queuedOf s c.part).length →
    exec (.turnSubmit c) s = .next (complete c { status := .weirQueueFull } (s.bump Ctr.ssqTurnsRefused))) ∧
  (∀ (c : Cmd) (i : Nat) (x : Session) (t : Turn) (s : State),
    Admitted 0x0109 c s →
    c.argsOk [(0, 8)] = true →
    c.dlen = 0 →
    Names c s i x →
    turnOf s i = some t →
    let u := cancelTurn i (capCommand x.handle 0x0109 c s)
    exec (.turnCancel c) s = .next (complete c { seq := seqOf u i } u)) ∧
  (∀ (c : Cmd) (i : Nat) (x : Session) (s : State),
    Admitted 0x0109 c s →
    c.argsOk [(0, 8)] = true →
    c.dlen = 0 →
    Names c s i x →
    turnOf s i = none →
    exec (.turnCancel c) s = .next (complete c { status := .turnEnded } s)) ∧
  (∀ (c : Cmd) (i : Nat) (x : Session) (region : Option Nat) (s s₁ : State),
    Admitted 0x010A c s →
    c.argsOk [(0, 8), (8, 1), (9, 1)] = true →
    c.dlen = 8 * c.arg 8 1 →
    2 ≤ c.arg 8 1 ∧ c.arg 8 1 ≤ 64 →
    Names c s i x →
    x.state = .opened →
    x.history = [] →
    ((chainMembers (c.buffer s) (c.arg 8 1)).head?).map (·.2) = some 0 →
    ascends ((chainMembers (c.buffer s) (c.arg 8 1)).map (·.2)) = true →
    c.arg 9 1 < c.arg 8 1 →
    ((chainMembers (c.buffer s) (c.arg 8 1))[c.arg 9 1]?).map (·.1) = some s.node →
    ((if c.arg 9 1 = 0 then [] else [c.arg 9 1 - 1]) ++ (if c.arg 9 1 + 1 < c.arg 8 1 then [c.arg 9 1 + 1] else [])).all
     (fun k => openTo s c.part ((chainMembers (c.buffer s) (c.arg 8 1)).getD k (0, 0)).1) = true →
    chainRegion x (c.arg 9 1) s = some (region, s₁) →
    let v := commitEvent i .sharded .ok (capCommand x.handle 0x010A c s₁)
    let u := modSession i (fun (x : Session) => { x with chain := some { members := chainMembers (c.buffer s) (c.arg 8 1), own := c.arg 9 1, region := region } })
      (if c.arg 9 1 + 1 < c.arg 8 1 then dropCapsule x.handle v else v)
    exec (.sessionShard c) s = .next (complete c { seq := seqOf u i } u)) ∧
  (∀ (c : Cmd) (i : Nat) (x : Session) (k : Chain) (region : Option Nat) (s s₁ : State),
    Admitted 0x010B c s →
    c.argsOk [(0, 8), (8, 1), (9, 1)] = true →
    c.dlen = 8 * c.arg 8 1 →
    2 ≤ c.arg 8 1 ∧ c.arg 8 1 ≤ 64 →
    Names c s i x →
    x.state = .opened →
    x.history = [] →
    x.chain = some k →
    k.members = (chainMembers (c.buffer s) (c.arg 8 1)).take (c.arg 8 1 - 1) →
    k.own = c.arg 9 1 →
    ((chainMembers (c.buffer s) (c.arg 8 1)).head?).map (·.2) = some 0 →
    ascends ((chainMembers (c.buffer s) (c.arg 8 1)).map (·.2)) = true →
    c.arg 9 1 < c.arg 8 1 →
    ((chainMembers (c.buffer s) (c.arg 8 1))[c.arg 9 1]?).map (·.1) = some s.node →
    ((if c.arg 9 1 = 0 then [] else [c.arg 9 1 - 1]) ++ (if c.arg 9 1 + 1 < c.arg 8 1 then [c.arg 9 1 + 1] else [])).all
     (fun k => openTo s c.part ((chainMembers (c.buffer s) (c.arg 8 1)).getD k (0, 0)).1) = true →
    chainRegion x (c.arg 9 1) s = some (region, s₁) →
    let u := modSession i (fun (x : Session) => { x with chainNext := some { members := chainMembers (c.buffer s) (c.arg 8 1), own := c.arg 9 1, region := region } })
      (commitEvent i .extended .ok (capCommand x.handle 0x010B c s₁))
    exec (.chainExtend c) s = .next (complete c { seq := seqOf u i } u)) ∧
  (∀ (c : Cmd) (i : Nat) (x : Session) (s : State),
    Admitted 0x010A c s →
    c.argsOk [(0, 8), (8, 1), (9, 1)] = true →
    c.dlen = 8 * c.arg 8 1 →
    2 ≤ c.arg 8 1 ∧ c.arg 8 1 ≤ 64 →
    Names c s i x →
    x.state = .opened →
    x.history = [] →
    ((chainMembers (c.buffer s) (c.arg 8 1)).head?).map (·.2) = some 0 →
    ascends ((chainMembers (c.buffer s) (c.arg 8 1)).map (·.2)) = true →
    c.arg 9 1 < c.arg 8 1 →
    ((chainMembers (c.buffer s) (c.arg 8 1))[c.arg 9 1]?).map (·.1) = some s.node →
    s.xfe.conns = [] →
    exec (.sessionShard c) s = .next (complete c { status := .noConnection } s))

/-- 02 R58: expiry, retirement and ladder moves, in order of the tick at which they fall due, of INDEX and of kind. -/
def Obligations.WhatFallsDue : Prop :=
  (∀ (i due : Nat) (x : Session) (s : State),
    Live s →
    nextDue s = some (due, i, 2) →
    tget (commitEvent i .ladder .ok s).ssq.sessions i = some x →
    x.state.parks = true →
    exec (.ladderMove i) s = .next (enterRung i (x.rung + 1) (commitEvent i .ladder .ok s))) ∧
  (∀ (i due : Nat) (x : Session) (s : State),
    Live s →
    nextDue s = some (due, i, 1) →
    tget s.ssq.sessions i = some x →
    x.lostPage = false →
    exec (.sessionExpiry i) s = .next (dropKv i ((commitEvent i .expired .ok s).bump Ctr.ssqSessionsExpired))) ∧
  (∀ (i due : Nat) (x : Session) (s : State),
    Live s →
    nextDue s = some (due, i, 0) →
    tget s.ssq.sessions i = some x →
    exec (.sessionRetirement i) s = .next (logFull .ssqSessionRetired pSsq 0 x.part 0 (x.commitSeq + 1) [x.handle] (closeSession i .retired (s.bump Ctr.ssqSessionsRetired)))) ∧
  (∀ (i : Nat) (s : State),
    (∀ d, nextDue s = some d → d.2.1 ≠ i) →
    exec (.ladderMove i) s = .next s ∧ exec (.sessionExpiry i) s = .next s ∧ exec (.sessionRetirement i) s = .next s) ∧
  (∀ (i : Nat) (t : Turn) (s : State),
    Live s →
    turnOf s i = some t →
    t.commitWaits = true →
    ∃ u, exec (.commitReserveTimeout i) s = .next u ∧ u = endTurns [i] .tierLate s) ∧
  (∀ (w member : Nat) (x : Wheel) (t : Turn) (p : LayerPart) (c : Chain) (s : State),
    Live s →
    s.wheel? w = some x →
    runningOn s w = [t] →
    p ∈ x.parts ∧ p.tail = false ∧ p.written = false →
    (partRecords x p t.slot).any (recordAwaits s x p) = true →
    (tget s.ssq.sessions t.session).bind (·.chain) = some c →
    member + 1 = c.own →
    ∃ u, exec (.chainTimeout w member) s = .next u ∧
      u = endTurns [t.session] .chainPeer (logEv .mxgChainTimeout pMxg x.part [w, member] (s.bump (Ctr.mxgChainTimeouts 0))))

/-- 05 R144-R149 and 06 R181-R184: registering bindings under the hash of their record, with the checks in the rules' order; 02 R71 and 06 R184: removing them. The status of unbinding an unknown binding is the model's (log of the host commands). 02 R73 and R74 and 05 R147: adapter versions, their images and their retirement; 07 R246: the prefix entries of a freed version go. -/
def Obligations.BindingsAndAdapters : Prop :=
  (∀ (c : Cmd) (m : Model) (s : State),
    Admitted 0x0201 c s →
    c.argsOk [] = true →
    s.model? c.part (leNat (shake256 (c.buffer s) 8)) = some m →
    exec (.modelBind c) s = .next (complete c { result0 := leNat (shake256 (c.buffer s) 8) } s)) ∧
  (∀ (c : Cmd) (m : Model) (s s₁ : State),
    Admitted 0x0201 c s →
    c.argsOk [] = true →
    s.model? c.part (leNat (shake256 (c.buffer s) 8)) = none →
    beginAccess (.command 0x0201 c) (modelLines (c.buffer s) c.part (leNat (shake256 (c.buffer s) 8)) s) false s = none →
    modelCheck c (c.buffer s) (leNat (shake256 (c.buffer s) 8)) s = (s₁, .inr m) →
    exec (.modelBind c) s = .next (complete c { result0 := leNat (shake256 (c.buffer s) 8) }
      { s₁ with ssq := { s₁.ssq with models := s₁.ssq.models ++ [m] } })) ∧
  (∀ (c : Cmd) (st : Status) (s s₁ : State),
    Admitted 0x0201 c s →
    c.argsOk [] = true →
    s.model? c.part (leNat (shake256 (c.buffer s) 8)) = none →
    beginAccess (.command 0x0201 c) (modelLines (c.buffer s) c.part (leNat (shake256 (c.buffer s) 8)) s) false s = none →
    modelCheck c (c.buffer s) (leNat (shake256 (c.buffer s) 8)) s = (s₁, .inl st) →
    exec (.modelBind c) s = .next (complete c { status := st } s₁)) ∧
  (∀ (c : Cmd) (s : State),
    Admitted 0x0202 c s →
    c.argsOk [(0, 8)] = true →
    c.dlen = 0 →
    (s.model? c.part (c.arg 0 8)).isSome = true →
    s.ssq.sessions.any (fun x => x.2.part == c.part && x.2.model == c.arg 0 8) = false →
    s.ssq.wheels.any (fun w => w.2.part == c.part && w.2.model == c.arg 0 8) = false →
    exec (.modelUnbind c) s = .next (complete c {} (pmeDropBinding c.part (c.arg 0 8)
      { s with ssq := { s.ssq with models := s.ssq.models.filter fun m => !(m.part == c.part && m.id == c.arg 0 8) } }))) ∧
  (∀ (c : Cmd) (s : State),
    Admitted 0x0202 c s →
    c.argsOk [(0, 8)] = true →
    c.dlen = 0 →
    (s.model? c.part (c.arg 0 8)).isSome = true →
    s.ssq.sessions.any (fun x => x.2.part == c.part && x.2.model == c.arg 0 8) = true ∨ s.ssq.wheels.any (fun w => w.2.part == c.part && w.2.model == c.arg 0 8) = true →
    exec (.modelUnbind c) s = .next (complete c { status := .bindingInUse } s)) ∧
  (∀ (c : Cmd) (t : Tail) (s s₁ : State),
    Admitted 0x0203 c s →
    c.argsOk [] = true →
    s.tail? c.part (leNat (shake256 (c.buffer s) 8)) = none →
    beginAccess (.command 0x0203 c) (tailLines (c.buffer s) c.part (leNat (shake256 (c.buffer s) 8)) s) false s = none →
    tailCheck c (c.buffer s) (leNat (shake256 (c.buffer s) 8)) s = (s₁, .inr t) →
    exec (.tailBind c) s = .next (complete c { result0 := leNat (shake256 (c.buffer s) 8) }
      { s₁ with ssq := { s₁.ssq with tails := s₁.ssq.tails ++ [t] } })) ∧
  (∀ (c : Cmd) (st : Status) (s s₁ : State),
    Admitted 0x0203 c s →
    c.argsOk [] = true →
    s.tail? c.part (leNat (shake256 (c.buffer s) 8)) = none →
    beginAccess (.command 0x0203 c) (tailLines (c.buffer s) c.part (leNat (shake256 (c.buffer s) 8)) s) false s = none →
    tailCheck c (c.buffer s) (leNat (shake256 (c.buffer s) 8)) s = (s₁, .inl st) →
    exec (.tailBind c) s = .next (complete c { status := st } s₁)) ∧
  (∀ (c : Cmd) (s : State),
    Admitted 0x0204 c s →
    c.argsOk [(0, 8)] = true →
    c.dlen = 0 →
    (s.tail? c.part (c.arg 0 8)).isSome = true →
    wheelsOnTail s c.part (c.arg 0 8) = [] →
    exec (.tailUnbind c) s = .next (complete c {} { s with ssq := { s.ssq with tails := s.ssq.tails.filter fun m => !(m.part == c.part && m.id == c.arg 0 8) } })) ∧
  (∀ (c : Cmd) (s : State),
    Admitted 0x0202 c s →
    Admitted 0x0204 c s →
    c.argsOk [(0, 8)] = true →
    c.dlen = 0 →
    s.model? c.part (c.arg 0 8) = none →
    s.tail? c.part (c.arg 0 8) = none →
    exec (.modelUnbind c) s = .next (complete c { status := .noBinding } s) ∧
    exec (.tailUnbind c) s = .next (complete c { status := .noBinding } s)) ∧
  (∀ (c : Cmd) (m : Model) (r : Nat) (s : State),
    Admitted 0x0205 c s →
    c.argsOk [(0, 8), (8, 4), (0x0C, 4)] = true →
    c.arg 8 4 ≠ 0 →
    s.model? c.part (c.arg 0 8) = some m →
    c.arg 0x0C 4 ≠ 0 →
    (if s.pstate c.part = psReplay then (versionsOf s c.part (c.arg 8 4)).all (fun a => a.ver != c.arg 0x0C 4)
      else (versionsOf s c.part (c.arg 8 4)).all (fun a => decide (a.ver < c.arg 0x0C 4))) = true →
    (s.ssq.adapters.filter fun a => a.part == c.part && a.state != .freed).length < 1024 →
    1 ≤ r ∧ r ≤ 256 →
    0 < m.layers * m.adapterBytes 1 →
    c.dlen = r * (m.layers * m.adapterBytes 1) →
    exec (.adapterLoad c) s = .next (complete c { result0 := r } { s with ssq := { s.ssq with adapters := s.ssq.adapters ++
      [{ part := c.part, id := c.arg 8 4, ver := c.arg 0x0C 4, state := .live, binding := c.arg 0 8, rank := r, image := c.buffer s }] } })) ∧
  (∀ (c : Cmd) (m : Model) (s : State),
    Admitted 0x0205 c s →
    c.argsOk [(0, 8), (8, 4), (0x0C, 4)] = true →
    c.arg 8 4 ≠ 0 →
    s.model? c.part (c.arg 0 8) = some m →
    c.arg 0x0C 4 = 0 ∨ (if s.pstate c.part = psReplay then (versionsOf s c.part (c.arg 8 4)).all (fun a => a.ver != c.arg 0x0C 4)
      else (versionsOf s c.part (c.arg 8 4)).all (fun a => decide (a.ver < c.arg 0x0C 4))) = false →
    exec (.adapterLoad c) s = .next (complete c { status := .adapterVersion } s)) ∧
  (∀ (c : Cmd) (s : State),
    Admitted 0x0206 c s →
    c.argsOk [(8, 4), (0x0C, 4)] = true →
    c.dlen = 0 →
    (versionsOf s c.part (c.arg 8 4)).any (fun a => a.ver == c.arg 0x0C 4 && a.state == .live) = true →
    exec (.adapterRetire c) s = .next (complete c {} (settleAdapter c.part (c.arg 8 4) (c.arg 0x0C 4) { s with ssq := { s.ssq with
      adapters := s.ssq.adapters.map fun a => if a.part = c.part ∧ a.id = c.arg 8 4 ∧ a.ver = c.arg 0x0C 4 then { a with state := .retired } else a } }))) ∧
  (∀ (n id ver : Nat) (s : State),
    (s.ssq.adapters.find? fun a => a.part == n && a.id == id && a.ver == ver && a.state == .retired).isSome = true →
    s.ssq.sessions.any (fun x => x.2.part == n && x.2.adapter == id && x.2.adapterVer == ver) = false →
    settleAdapter n id ver s = pmeDropAdapter n id ver (logEv .ssqAdapterFreed pSsq n [id, ver] { s with ssq := { s.ssq with
      adapters := s.ssq.adapters.map fun a => if a.part = n ∧ a.id = id ∧ a.ver = ver then { a with state := .freed } else a } }))

/-- 05 R150 and 06 R185: attaching a wheel; 11 R364: its SYSTEM regions; 08 R271 and R272: its areas; 16 R530: detaching. That the anticipated
position starts at the exchange position is the model's choice (log 67). -/
def Obligations.WheelAttachAndDetach : Prop :=
  (∀ (c : Cmd) (m : Model) (w ri rt : Nat) (tb : Tail) (s u : State),
    Admitted 0x0207 c s →
    attachOk c (c.buffer s) = true →
    s.model? c.part (c.arg 0 8) = some m →
    attachCheck s (c.buffer s) m (if bit (c.arg 8 1) 7 then bits (c.arg 8 1) 0 4 else 2) = none →
    beginAccess (.command 0x0207 c) ((attachImages s m (if bit (c.arg 8 1) 7 then bits (c.arg 8 1) 0 4 else 2)).map fun i => s.directLines c.part 1 i.1 i.2).flatten false s = none →
    readImages c.part (attachImages s m (if bit (c.arg 8 1) 7 then bits (c.arg 8 1) 0 4 else 2)) s = (u, none) →
    freeWheel u = some w →
    u.tail? c.part m.tailId = some tb →
    twoRegions u c.part = some (ri, rt) →
    let b := c.buffer s
    let lead := if bit (c.arg 8 1) 7 then bits (c.arg 8 1) 0 4 else 2
    let base := (fieldAt b 4 4 + 2 ^ 32 - 1) % 2 ^ 32
    let s₁ := addRegion ri { tag := 0, part := c.part, system := true, kind := 0, rights := 2, base := fieldAt b 8 8, tier := 0, length := fieldAt b 0x10 4 * m.inletStride, source := 2 ^ 31 } u
    let s₂ := addRegion rt { tag := 0, part := c.part, system := true, kind := 2, rights := 16, base := fieldAt b 0x34 4, source := 2 ^ 31, wheel := some w } s₁.1
    let x : Wheel := { part := c.part, model := m.id, accels := (List.range (c.arg 9 1)).map fun i => fieldAt b (128 + 4 * i) 4, lead := lead, stepBase := fieldAt b 4 4, inletBase := fieldAt b 8 8, inletSlots := fieldAt b 0x10 4, outletSlots := fieldAt b 0x14 4, node := fieldAt b 0x18 4, outletKey := fieldAt b 0x1C 4, outletAddr := fieldAt b 0x20 8, rosterAddr := fieldAt b 0x28 8, rosterSlots := fieldAt b 0x30 4, triggerTag := fieldAt b 0x34 4, outletCtr := fieldAt b 0x38 8, rosterCtr := fieldAt b 0x40 8, triggerKey := s₂.2, inletKey := s₁.2, lastStep := base, lastLayer := m.layers - 1, antStep := base, antLayer := m.layers - 1, committed := base }
    exec (.wheelAttach c) s = .next (complete c { result0 := s₂.2 + s₁.2 * 2 ^ 32, result1 := w }
      (clearWheelRegs w (putWheel w x (s₂.1.setTmg { s₂.1.tmg with areas := s₂.1.tmg.areas ++ newAreas s₂.1 m tb w lead }))))) ∧
  (∀ (c : Cmd) (m : Model) (st : Status) (s u : State),
    Admitted 0x0207 c s →
    attachOk c (c.buffer s) = true →
    s.model? c.part (c.arg 0 8) = some m →
    attachCheck s (c.buffer s) m (if bit (c.arg 8 1) 7 then bits (c.arg 8 1) 0 4 else 2) = none →
    beginAccess (.command 0x0207 c) ((attachImages s m (if bit (c.arg 8 1) 7 then bits (c.arg 8 1) 0 4 else 2)).map fun i => s.directLines c.part 1 i.1 i.2).flatten false s = none →
    readImages c.part (attachImages s m (if bit (c.arg 8 1) 7 then bits (c.arg 8 1) 0 4 else 2)) s = (u, some st) →
    exec (.wheelAttach c) s = .next (complete c { status := st } u)) ∧
  (∀ (c : Cmd) (m : Model) (st : Status) (s : State),
    Admitted 0x0207 c s →
    attachOk c (c.buffer s) = true →
    s.model? c.part (c.arg 0 8) = some m →
    attachCheck s (c.buffer s) m (if bit (c.arg 8 1) 7 then bits (c.arg 8 1) 0 4 else 2) = some st →
    exec (.wheelAttach c) s = .next (complete c { status := st } s)) ∧
  (∀ (c : Cmd) (x : Wheel) (s : State),
    Admitted 0x0208 c s →
    c.argsOk [(0, 2)] = true →
    c.dlen = 0 →
    s.wheel? (c.arg 0 2) = some x →
    x.part = c.part →
    s.ssq.turns.any (fun t => t.wheel == c.arg 0 2) = false →
    exec (.wheelDetach c) s = .next (complete c {} (dropWheel (c.arg 0 2) s))) ∧
  (∀ (c : Cmd) (x : Wheel) (s : State),
    Admitted 0x0208 c s →
    c.argsOk [(0, 2)] = true →
    c.dlen = 0 →
    s.wheel? (c.arg 0 2) = some x →
    x.part = c.part →
    s.ssq.turns.any (fun t => t.wheel == c.arg 0 2) = true →
    exec (.wheelDetach c) s = .next (complete c { status := .sessionBusy } s)) ∧
  (∀ (c : Cmd) (s : State),
    Admitted 0x0208 c s →
    c.argsOk [(0, 2)] = true →
    c.dlen = 0 →
    s.wheel? (c.arg 0 2) = none →
    exec (.wheelDetach c) s = .next (complete c { status := .noWheel } s))

/-- 08 R250-R255 and 16 R525: the direct windows; 12 R401: poison. The condition on T0 says that an eighth of the window fits a stack (08 R255), which keeps its addresses apart. -/
def Obligations.TierWriteReadCopy : Prop :=
  (∀ (c : Cmd) (s : State),
    memsOk s →
    Admitted 0x0402 c s →
    c.argsOk [(0, 1), (8, 8)] = true →
    c.arg 0 1 < 4 →
    s.inDirect c.part (c.arg 0 1) (c.arg 8 8) c.dlen = true →
    s.tierUp (c.arg 0 1) = true →
    (let r := unitsOf (s.directAddr c.part (c.arg 0 1) (c.arg 8 8)) c.dlen
   accessFails (c.arg 0 1) r.1 r.2 true s = false) →
    beginAccess (.command 0x0402 c) (s.directLines c.part (c.arg 0 1) (c.arg 8 8) c.dlen) true s = none →
    s.directPoisoned c.part (c.arg 0 1) (c.arg 8 8) c.dlen = [] →
    (c.arg 0 1 = 0 → s.getF (Reg.mgcPbExtentDirect4k c.part 0) * 4096 ≤ 48 * gib) →
    ∃ u, exec (.tierWrite c) s = .next (complete c {} u) ∧
      u.directRead c.part (c.arg 0 1) (c.arg 8 8) c.dlen = c.buffer s ∧
      (∀ a, (∀ i < c.dlen, a ≠ s.directAddr c.part (c.arg 0 1) (c.arg 8 8 + i)) → memGet (u.tier (c.arg 0 1)) a = memGet (s.tier (c.arg 0 1)) a) ∧
      (∀ j, j < 4 → j ≠ c.arg 0 1 → u.tier j = s.tier j) ∧ u.regs = s.regs ∧ u.hif = s.hif ∧ u.ssq = s.ssq) ∧
  (∀ (c : Cmd) (s : State),
    Admitted 0x0401 c s →
    c.argsOk [(0, 1), (8, 8)] = true →
    c.arg 0 1 < 4 →
    s.inDirect c.part (c.arg 0 1) (c.arg 8 8) c.dlen = true →
    s.tierUp (c.arg 0 1) = true →
    (let r := unitsOf (s.directAddr c.part (c.arg 0 1) (c.arg 8 8)) c.dlen
   accessFails (c.arg 0 1) r.1 r.2 false s = false) →
    beginAccess (.command 0x0401 c) (s.directLines c.part (c.arg 0 1) (c.arg 8 8) c.dlen) false s = none →
    s.directPoisoned c.part (c.arg 0 1) (c.arg 8 8) c.dlen = [] →
    s.sec.badUnits = [] →
    ∃ u, exec (.tierRead c) s = .next (complete c { data := some (0, s.directRead c.part (c.arg 0 1) (c.arg 8 8) c.dlen) } u) ∧
      (∀ j, u.tier j = s.tier j) ∧ u.regs = s.regs ∧ u.hif = s.hif ∧ u.ssq = s.ssq ∧ u.cwp = s.cwp) ∧
  (∀ (c : Cmd) (s : State),
    memsOk s →
    Admitted 0x0403 c s →
    c.argsOk [(0, 2), (8, 24)] = true →
    c.arg 0 1 < 4 →
    c.arg 1 1 < 4 →
    c.dlen = 0 →
    s.inDirect c.part (c.arg 0 1) (c.arg 8 8) (c.arg 0x18 8) = true →
    s.inDirect c.part (c.arg 1 1) (c.arg 0x10 8) (c.arg 0x18 8) = true →
    s.tierUp (c.arg 0 1) = true →
    s.tierUp (c.arg 1 1) = true →
    s.tmg.badAccess = [] →
    beginAccess (.command 0x0403 c) (s.directLines c.part (c.arg 0 1) (c.arg 8 8) (c.arg 0x18 8)) false s = none →
    beginAccess (.command 0x0403 c) (s.directLines c.part (c.arg 1 1) (c.arg 0x10 8) (c.arg 0x18 8)) true s = none →
    s.directPoisoned c.part (c.arg 0 1) (c.arg 8 8) (c.arg 0x18 8) = [] →
    s.directPoisoned c.part (c.arg 1 1) (c.arg 0x10 8) (c.arg 0x18 8) = [] →
    s.sec.badUnits = [] →
    (c.arg 1 1 = 0 → s.getF (Reg.mgcPbExtentDirect4k c.part 0) * 4096 ≤ 48 * gib) →
    ∃ u, exec (.tierCopy c) s = .next (complete c {} u) ∧
      u.directRead c.part (c.arg 1 1) (c.arg 0x10 8) (c.arg 0x18 8) = s.directRead c.part (c.arg 0 1) (c.arg 8 8) (c.arg 0x18 8) ∧
      (∀ a, (∀ i < c.arg 0x18 8, a ≠ s.directAddr c.part (c.arg 1 1) (c.arg 0x10 8 + i)) → memGet (u.tier (c.arg 1 1)) a = memGet (s.tier (c.arg 1 1)) a) ∧
      (∀ j, j < 4 → j ≠ c.arg 1 1 → u.tier j = s.tier j) ∧ u.regs = s.regs ∧ u.hif = s.hif ∧ u.ssq = s.ssq) ∧
  (∀ (c : Cmd) (s : State),
    Admitted 0x0401 c s →
    c.argsOk [(0, 1), (8, 8)] = true →
    c.arg 0 1 < 4 →
    s.inDirect c.part (c.arg 0 1) (c.arg 8 8) c.dlen = false →
    exec (.tierRead c) s = .next (complete c { status := .windowRange } s)) ∧
  (∀ (c : Cmd) (s : State),
    gate 0x0402 c s = .fail .windowRange →
    exec (.tierWrite c) s = .next (complete c { status := .windowRange } s)) ∧
  (∀ (c : Cmd) (s : State),
    Live s →
    (isFenced s pHif 0 = false ∨ c.origin = .i3c) →
    startsInTurn s c.origin = true →
    opAllowed 0x0402 c.origin = true →
    descOk 0x0402 c = true →
    bufferCheck c s = none →
    s.flag Reg.mgcBootDataReady = true →
    opInState 0x0402 (s.pstate c.part) = true →
    s.inDirect c.part (c.arg 0 1) (c.arg 8 8) c.dlen = false →
    gate 0x0402 c s = .fail .windowRange)

/-- 12 R410: compare and swap of the version word at the head of a range, recalls of the range's lines, and R412: poison. -/
def Obligations.WindowPublishSwapsTheVersion : Prop :=
  (∀ (c : Cmd) (e : Nat) (s : State),
    memsOk s →
    Admitted 0x0404 c s →
    c.argsOk [(0, 12), (0x10, 16)] = true →
    c.arg 0 8 % 64 = 0 →
    c.arg 8 4 % 64 = 0 →
    64 ≤ c.arg 8 4 ∧ c.arg 8 4 ≤ 16 * 2 ^ 20 →
    c.dlen = 0 →
    s.extentOf (c.arg 0 8 / 64) = some e →
    ((List.range (c.arg 8 4 / 64)).map (c.arg 0 8 / 64 + ·)).all (s.inExtent e) = true →
    s.getF (Reg.cwpExtentPartition e) = c.part →
    s.extState e = extActive →
    bit (s.getF (Reg.cwpExtentHosts e)) (s.getF (Reg.hifPbFuncBindLd c.part)) = true →
    OpenLines s (c.arg 0 8 / 64) (c.arg 8 4 / 64) →
    s.cwp.dir = [] ∧ s.cwp.recalls = [] →
    s.cwp.poison = [] →
    leNat (memRead s.t1 (s.devLine e (c.arg 0 8 / 64) * 64) 8) = c.arg 0x10 8 →
    exec (.windowPublish c) s = .next (complete c { result0 := c.arg 0x18 8 }
      ((s.t1Write (s.devLine e (c.arg 0 8 / 64) * 64) (leBytes 8 (c.arg 0x18 8))).bump Ctr.cwpPublishes)) ∧
      leNat (memRead (s.t1Write (s.devLine e (c.arg 0 8 / 64) * 64) (leBytes 8 (c.arg 0x18 8))).t1 (s.devLine e (c.arg 0 8 / 64) * 64) 8) = c.arg 0x18 8) ∧
  (∀ (c : Cmd) (e : Nat) (s : State),
    Admitted 0x0404 c s →
    c.argsOk [(0, 12), (0x10, 16)] = true →
    c.arg 0 8 % 64 = 0 →
    c.arg 8 4 % 64 = 0 →
    64 ≤ c.arg 8 4 ∧ c.arg 8 4 ≤ 16 * 2 ^ 20 →
    c.dlen = 0 →
    s.extentOf (c.arg 0 8 / 64) = some e →
    ((List.range (c.arg 8 4 / 64)).map (c.arg 0 8 / 64 + ·)).all (s.inExtent e) = true →
    s.getF (Reg.cwpExtentPartition e) = c.part →
    s.extState e = extActive →
    bit (s.getF (Reg.cwpExtentHosts e)) (s.getF (Reg.hifPbFuncBindLd c.part)) = true →
    OpenLines s (c.arg 0 8 / 64) (c.arg 8 4 / 64) →
    s.poisoned (s.devLine e (c.arg 0 8 / 64)) = false →
    leNat (memRead s.t1 (s.devLine e (c.arg 0 8 / 64) * 64) 8) ≠ c.arg 0x10 8 →
    exec (.windowPublish c) s = .next (complete c { status := .publishConflict, result0 := leNat (memRead s.t1 (s.devLine e (c.arg 0 8 / 64) * 64) 8) }
      (s.bump Ctr.cwpPublishConflicts))) ∧
  (∀ (c : Cmd) (e : Nat) (s : State),
    Admitted 0x0404 c s →
    c.argsOk [(0, 12), (0x10, 16)] = true →
    c.arg 0 8 % 64 = 0 →
    c.arg 8 4 % 64 = 0 →
    64 ≤ c.arg 8 4 ∧ c.arg 8 4 ≤ 16 * 2 ^ 20 →
    c.dlen = 0 →
    s.extentOf (c.arg 0 8 / 64) = some e →
    ((List.range (c.arg 8 4 / 64)).map (c.arg 0 8 / 64 + ·)).all (s.inExtent e) = true →
    s.getF (Reg.cwpExtentPartition e) = c.part →
    s.extState e = extActive →
    bit (s.getF (Reg.cwpExtentHosts e)) (s.getF (Reg.hifPbFuncBindLd c.part)) = true →
    OpenLines s (c.arg 0 8 / 64) (c.arg 8 4 / 64) →
    s.poisoned (s.devLine e (c.arg 0 8 / 64)) = true →
    exec (.windowPublish c) s = .next (complete c { status := .windowPoison } (poisonRead c.part (s.devLine e (c.arg 0 8 / 64)) s)))

/-- 07 R222-R235 and 16 R528. -/
def Obligations.PrefixCommands : Prop :=
  (∀ (c : Cmd) (m : Model) (ver : Nat) (s : State),
    Admitted 0x0301 c s →
    c.argsOk [(0, 1), (8, 8), (0x10, 4), (0x14, 4)] = true →
    c.arg 0 1 = 0 →
    36 ≤ c.dlen →
    c.dlen % 4 = 0 →
    c.dlen < 32 + 128 →
    s.model? c.part (c.arg 8 8) = some m →
    adapterFor s c.part m.id (c.arg 0x10 4) (c.arg 0x14 4) = .inr ver →
    exec (.prefixLookup c) s = .next (complete c { data := some (c.dlen - 32, resultBytes none false 0 0) } (s.bump Ctr.pmeLookups))) ∧
  (∀ (c : Cmd) (m : Model) (ver n : Nat) (s : State),
    Admitted 0x0301 c s →
    c.argsOk [(0, 1), (8, 8), (0x10, 4), (0x14, 4)] = true →
    c.arg 0 1 = 0 →
    c.dlen % 4 = 0 →
    32 + 128 ≤ c.dlen →
    c.dlen ≤ 4 * 2097152 + 32 →
    s.model? c.part (c.arg 8 8) = some m →
    adapterFor s c.part m.id (c.arg 0x10 4) (c.arg 0x14 4) = .inr ver →
    s.pme.slots.length < 1024 ∧ (s.pme.slots.filter fun x => x.2.part == c.part).length < 64 →
    (n < 1024 ∧ tget s.pme.slots n = none ∧ ∀ k < n, (tget s.pme.slots k).isSome = true) →
    let toks := (List.range ((c.dlen - 32) / 4)).map fun k => fieldAt (c.buffer s) (4 * k) 4
    let d : PrefixId := { binding := m.id, adapter := c.arg 0x10 4, adapterVer := ver, profile := m.profileId, contract := m.contract }
    let h := hashesOf s c.part d toks
    let q : Slot := { part := c.part, ident := d, tokens := toks, hashes := h.map (·.1), wides := h.map (·.2), cands := [] }
    let u := (tgetD s.pme.uses n 0 + 1) % 2 ^ 22
    exec (.prefixLookup c) s = .next (markStarted c (startLookup { id := n, cmd := some c, q := q }
      ((modPme (fun p => { p with slots := tset p.slots n q, uses := tset p.uses n (if u = 0 then 1 else u) }) s).bump Ctr.pmeLookups)))) ∧
  (∀ (c : Cmd) (n : Nat) (q : Slot) (s : State),
    Admitted 0x0302 c s →
    c.argsOk [(0, 4)] = true →
    c.dlen = 32 →
    cursorSlot s c.part (c.arg 0 4) = some (n, q) →
    s.pme.pendings.any (·.id == n) = false →
    inSled s = false →
    let r := localNext { id := n, cmd := some c, q := { q with named := none, spare := none }, next := true } s
    exec (.nextMatch c) s = .next (markStarted c (settleLookup r.1 r.2))) ∧
  (∀ (c : Cmd) (i n : Nat) (x : Session) (q : Slot) (h : PrefixHit) (top : Nat × Column) (cols : List (Nat × Column)) (ids : List Nat) (s s₁ s₂ : State),
    Admitted 0x0303 c s →
    c.argsOk [(0, 8), (8, 4)] = true →
    c.dlen = 0 →
    Names c s i x →
    cursorSlot s c.part (c.arg 8 4) = some (n, q) →
    q.hit = some h →
    mayAttach x = true →
    x.ident = q.ident →
    h.node = s.node →
    columnWalk s h.depth h.column = top :: cols →
    top.2.gen = h.gen ∧ top.2.page + 1 = h.depth →
    cols.length + 1 = h.depth →
    (top :: cols).any (fun k => k.2.dead || k.2.bad) = false →
    (top :: cols).reverse.foldl (fun (a : Option (State × List Nat)) (k : Nat × Column) =>
     a.bind fun (s, l) => (unfoldColumn k.1 s).map fun (j, s) => (s, l ++ [j])) (some (s, [])) = some (s₁, ids) →
    addRefs (((ids.filterMap fun j => tget s₁.pme.columns j).map fun k => k.handles.zipIdx.map fun (e : Nat × Nat) => (mapKey e.2 k.page, e.1)).flatten.map (·.2)) s₁ = some s₂ →
    let cs := ids.filterMap fun j => tget s₁.pme.columns j
    let pages := (cs.map fun k => k.handles.zipIdx.map fun (e : Nat × Nat) => (mapKey e.2 k.page, e.1)).flatten
    let f := publishedFinal top.2 (warmEntry { q with named := q.named.map fun d => { d with entry := { d.entry with column := ids.getLast?.getD h.column } } } s₂)
    let u := attachPages i 0x0303 c q.tokens pages top.2.publisher f.1 (cs.map (·.content)) (modPme (fun m => { m with slots := tdel m.slots n }) f.2)
    exec (.prefixAttach c) s = .next (complete c { result0 := h.depth, seq := seqOf u i } u)) ∧
  (∀ (c : Cmd) (n : Nat) (q : Slot) (s : State),
    Admitted 0x0304 c s →
    c.argsOk [(0, 4)] = true →
    c.dlen = 0 →
    cursorSlot s c.part (c.arg 0 4) = some (n, q) →
    exec (.prefixRelease c) s = .next (complete c {} (modPme (fun m => { m with slots := tdel m.slots n }) s))) ∧
  (∀ (c : Cmd) (i : Nat) (x : Session) (s : State),
    Admitted 0x0305 c s →
    c.argsOk [(0, 8), (8, 4)] = true →
    c.dlen = 0 →
    Names c s i x →
    x.relaxed = false →
    let r := publishSession i (c.arg 8 4) (capCommand x.handle 0x0305 c s)
    exec (.prefixPublish c) s = .next (complete c { result0 := r.2 } r.1)) ∧
  (∀ (c : Cmd) (k : Column) (s : State),
    Admitted 0x0306 c s →
    c.argsOk [(0, 4)] = true →
    c.dlen = 0 →
    tget s.pme.columns (c.arg 0 4) = some k →
    k.part = c.part →
    exec (.prefixRevoke c) s = .next (complete c {} (if k.dead then s else killColumns (withDescendants s s.pme.columns.length [c.arg 0 4]) s))) ∧
  (∀ (c : Cmd) (s : State),
    Admitted 0x0302 c s →
    Admitted 0x0304 c s →
    c.argsOk [(0, 4)] = true →
    c.dlen = 32 ∨ c.dlen = 0 →
    cursorSlot s c.part (c.arg 0 4) = none →
    (c.dlen = 32 → exec (.nextMatch c) s = .next (complete c { status := .prefixStale } s)) ∧
    (c.dlen = 0 → exec (.prefixRelease c) s = .next (complete c { status := .prefixStale } s)))

/-- 10 R321-R325 and 11 R366: opening and closing connections. -/
def Obligations.ConnectionCommands : Prop :=
  (∀ (c : Cmd) (v id : Nat) (s : State),
    Admitted 0x0501 c s →
    c.argsOk [(0, 5)] = true →
    c.dlen = 0 →
    c.arg 0 4 < 2 ^ 17 →
    c.arg 4 1 < 16 →
    governing s c.part (c.arg 0 4) (c.arg 4 1) = some v →
    findPair s c.part (c.arg 0 4) (c.arg 4 1) = none →
    freeConnId s c.part = some id →
    exec (.connOpen c) s = .next (if (makeRoom s).resident < onChip then markStarted c (sendConnect id (putConn id
        { newConn (makeRoom s) c.part (c.arg 0 4) (c.arg 4 1) v .opening with cmd := some c } (makeRoom s)))
      else complete c { status := .noConnection } s)) ∧
  (∀ (c : Cmd) (v id : Nat) (k : Conn) (s : State),
    Admitted 0x0501 c s →
    c.argsOk [(0, 5)] = true →
    c.dlen = 0 →
    c.arg 0 4 < 2 ^ 17 →
    c.arg 4 1 < 16 →
    governing s c.part (c.arg 0 4) (c.arg 4 1) = some v →
    findPair s c.part (c.arg 0 4) (c.arg 4 1) = some (id, k) →
    k.state = .opened →
    exec (.connOpen c) s = .next (complete c { result0 := id } s)) ∧
  (∀ (c : Cmd) (s : State),
    Admitted 0x0501 c s →
    c.argsOk [(0, 5)] = true →
    c.dlen = 0 →
    c.arg 0 4 < 2 ^ 17 →
    c.arg 4 1 < 16 →
    governing s c.part (c.arg 0 4) (c.arg 4 1) = none →
    exec (.connOpen c) s = .next (complete c { status := .fabricRefused } s)) ∧
  (∀ (c : Cmd) (k : Conn) (s : State),
    Admitted 0x0502 c s →
    c.argsOk [(0, 4)] = true →
    c.dlen = 0 →
    c.arg 0 4 < 2 ^ 20 →
    tget s.xfe.conns (c.arg 0 4) = some k →
    k.part = c.part →
    k.state = .opened →
    let u := putConn (c.arg 0 4) { k with state := .closing, cmd := some c } s
    exec (.connClose c) s = .next (markStarted c (if k.spilled then fetchRecord (c.arg 0 4) u else tryClose (c.arg 0 4) u))) ∧
  (∀ (c : Cmd) (k : Conn) (s : State),
    Admitted 0x0502 c s →
    c.argsOk [(0, 4)] = true →
    c.dlen = 0 →
    c.arg 0 4 < 2 ^ 20 →
    tget s.xfe.conns (c.arg 0 4) = some k →
    k.part = c.part →
    k.state = .failed →
    exec (.connClose c) s = .next (complete c {} (fetchWaiting (freeConn (c.arg 0 4) s)))) ∧
  (∀ (c : Cmd) (s : State),
    Admitted 0x0502 c s →
    c.argsOk [(0, 4)] = true →
    c.dlen = 0 →
    c.arg 0 4 < 2 ^ 20 →
    tget s.xfe.conns (c.arg 0 4) = none →
    exec (.connClose c) s = .next (complete c { status := .noConnection } s))

/-- 11 R356-R364 and R370: regions, groups and work requests; the TAG of a new region is a free value different from the index's last one (log 4). -/
def Obligations.RegionGroupAndWorkCommands : Prop :=
  (∀ (c : Cmd) (i : Nat) (s : State),
    Admitted 0x0503 c s →
    c.argsOk [(0, 3), (4, 4), (8, 8), (0x10, 8)] = true →
    c.dlen = 0 →
    c.arg 0 1 = 0 →
    c.arg 1 1 < 32 →
    c.arg 2 1 = 0 →
    c.arg 4 4 % 2 ^ 31 < 2 ^ 17 →
    c.arg 8 8 < 2 ^ 54 →
    c.arg 0x10 8 < 2 ^ 47 →
    bits (c.arg 8 8) 52 2 ≤ 1 →
    s.inDirect c.part (bits (c.arg 8 8) 52 2) (c.arg 8 8 % 2 ^ 52) (c.arg 0x10 8) = true →
    freeRegion s c.part = some i →
    let r : Region := { tag := 0, part := c.part, kind := 0, rights := c.arg 1 1, base := c.arg 8 8 % 2 ^ 52, tier := bits (c.arg 8 8) 52 2, length := c.arg 0x10 8, source := c.arg 4 4 }
    exec (.regionRegister c) s = .next (complete c { result0 := (addRegion i r s).2 + 2 ^ 32 } (addRegion i r s).1)) ∧
  (∀ (i : Nat) (r : Region) (s : State),
    ∃ tag, addRegion i r s = ({ s with free := s.free + 1, xfe := { s.xfe with
        regions := tset s.xfe.regions i { r with tag := tag, gen := 1, state := .valid }, tags := tset s.xfe.tags i tag } }, i + tag * 65536) ∧
      tag < 65536 ∧ (∀ p, tget s.xfe.tags i = some p → tag ≠ p)) ∧
  (∀ (c : Cmd) (r : Region) (s : State),
    Admitted 0x0504 c s →
    c.argsOk [(0, 5)] = true →
    c.dlen = 0 →
    c.arg 4 1 ≤ 1 →
    ownRegion s c.part (c.arg 0 4) = some r →
    exec (.regionRevoke c) s = .next (markStarted c (revokeStep (keyIndex (c.arg 0 4)) (c.arg 4 1 == 1) false (some c) s))) ∧
  (∀ (c : Cmd) (s : State),
    Admitted 0x0504 c s →
    c.argsOk [(0, 5)] = true →
    c.dlen = 0 →
    c.arg 4 1 ≤ 1 →
    ownRegion s c.part (c.arg 0 4) = none →
    exec (.regionRevoke c) s = .next (complete c { status := .noRegion } s)) ∧
  (∀ (c : Cmd) (s : State),
    Admitted 0x0505 c s →
    c.argsOk [(0, 3)] = true →
    c.arg 2 1 ≤ 64 →
    c.dlen = 16 * c.arg 2 1 →
    s.getF (Reg.mgcPbGroupBase c.part) ≤ c.arg 0 2 ∧ c.arg 0 2 < s.getF (Reg.mgcPbGroupBase c.part) + s.getF (Reg.mgcPbGroupCount c.part) →
    ((List.range (c.arg 2 1)).map fun i => slice (c.buffer s) (16 * i) 16).all memberOk = true →
    exec (.groupSet c) s = .next (complete c {} { s with xfe := { s.xfe with
      groups := tset s.xfe.groups (c.arg 0 2) ((List.range (c.arg 2 1)).map fun i => slice (c.buffer s) (16 * i) 16) } })) ∧
  (∀ (c : Cmd) (id : Nat) (s : State),
    Admitted 0x0506 c s →
    c.argsOk [] = true →
    c.dlen = 64 →
    wreqOk (c.buffer s) = true →
    wreqRange s c.part (Wreq.parse (c.buffer s)) = true →
    freeWr s c.part = some id →
    exec (.wrSubmit c) s = .next (markStarted c (startWork id (putWork id { wr := Wreq.parse (c.buffer s), part := c.part, cmd := some c } s)))) ∧
  (∀ (c : Cmd) (s : State),
    Admitted 0x0506 c s →
    c.argsOk [] = true →
    c.dlen = 64 →
    wreqOk (c.buffer s) = true →
    wreqRange s c.part (Wreq.parse (c.buffer s)) = true →
    freeWr s c.part = none →
    exec (.wrSubmit c) s = .next (complete c { status := .noWr } s)) ∧
  (∀ (c : Cmd) (r : Region) (id : Nat) (s : State),
    Admitted 0x0507 c s →
    c.argsOk [(0, 4)] = true →
    c.dlen = 64 →
    wreqOk (c.buffer s) = true →
    wreqRange s c.part (Wreq.parse (c.buffer s)) = true →
    ownRegion s c.part (c.arg 0 4) = some r →
    r.kind = 2 →
    freeWr s c.part = some id →
    exec (.wrPost c) s = .next (complete c { result0 := id } (putRegion (keyIndex (c.arg 0 4)) { r with posted := r.posted ++ [(id, Wreq.parse (c.buffer s))] } s)))

/-- 11 R370 and R371: revocation, drain, retirement; 16 R517: the region operations of the expert window and their STATUS. -/
def Obligations.RegionRevocation : Prop :=
  (∀ (i : Nat) (free expert : Bool) (cmd : Option Cmd) (r : Region) (s : State),
    tget s.xfe.regions i = some r →
    r.inflight ≠ 0 →
    revokeStep i free expert cmd s = (putRegion i { r with gen := (r.gen + 1) % 256, state := .draining, free := free, expert := expert, revoke := cmd } s).bump Ctr.xfeRevocations) ∧
  (∀ (i : Nat) (free expert : Bool) (cmd : Option Cmd) (r : Region) (s : State),
    tget s.xfe.regions i = some r →
    r.inflight = 0 →
    revokeStep i free expert cmd s = revokeDone i ((putRegion i { r with gen := (r.gen + 1) % 256, state := .draining, free := free, expert := expert, revoke := cmd } s).bump Ctr.xfeRevocations)) ∧
  (∀ (i : Nat) (r : Region) (s : State),
    Live s →
    tget s.xfe.regions i = some r →
    r.state = .draining →
    r.inflight = 0 →
    r.revoke = none →
    r.expert = false →
    exec (.revokeDrained i) s = .next (putRegion i { r with state := if r.free || decide (r.gen = 0) then .retiring else .valid, free := false } s)) ∧
  (∀ (i : Nat) (r : Region) (s : State),
    Live s →
    tget s.xfe.regions i = some r →
    r.state = .retiring →
    exec (.regionRetireExpiry i) s = .next { s with xfe := { s.xfe with regions := tdel s.xfe.regions i } }) ∧
  (∀ (via i : Nat) (r : Region) (s : State),
    s.expertOpen pXfe via = true →
    s.flag Reg.xfeRegionStatBusy = false →
    i < 65536 →
    tget s.xfe.regions i = some r →
    s.expertObject pXfe via r.part = true →
    r.state = .valid →
    r.system = false →
    (∃ u, exec (.regionOpRevoke via i) s = .next (countIo via (revokeStep i false true none (u.setF Reg.xfeRegionStatBusy 1))) ∧
        u = ((s.setF Reg.xfeRegionOpIndex i).setF Reg.xfeRegionOpOp 2).setF Reg.xfeRegionStatStatus 0) ∧
    (∃ u, exec (.revokeAndFree via i) s = .next (countIo via (revokeStep i true true none (u.setF Reg.xfeRegionStatBusy 1))) ∧
        u = ((s.setF Reg.xfeRegionOpIndex i).setF Reg.xfeRegionOpOp 3).setF Reg.xfeRegionStatStatus 0) ∧
    (∃ u, exec (.regionOpReadEntry via i) s = .next (countIo via (showBytes Reg.xfeRegionRecData 4 (regionBytes u i) u)) ∧
        u = ((s.setF Reg.xfeRegionOpIndex i).setF Reg.xfeRegionOpOp 1).setF Reg.xfeRegionStatStatus 0)) ∧
  (∀ (via i : Nat) (s : State),
    s.expertOpen pXfe via = true →
    s.flag Reg.xfeRegionStatBusy = false →
    i < 65536 →
    tget s.xfe.regions i = none →
    exec (.regionOpReadEntry via i) s = .next (countIo via (((s.setF Reg.xfeRegionOpIndex i).setF Reg.xfeRegionOpOp 1).setF Reg.xfeRegionStatStatus 1)))

/-- 10 R325-R349: the timers of the transport; 11 R361, R362: consuming a trigger; 11 R372: a dead target. -/
def Obligations.TransportTimers : Prop :=
  (∀ (id : Nat) (k : Conn) (s : State),
    Live s →
    tget s.xfe.conns id = some k →
    k.state = .opening →
    exec (.connectTimeout id) s = .next (fetchWaiting (connCmd k .fabricUnreachable (freeConn id s)))) ∧
  (∀ (id : Nat) (k : Conn) (s : State),
    Live s →
    tget s.xfe.conns id = some k →
    k.state = .closing →
    k.closeSent = true →
    exec (.closeTimeout id) s = .next (fetchWaiting (connCmd k .ok (endConn id s)))) ∧
  (∀ (id : Nat) (k : Conn) (s : State),
    Live s →
    tget s.xfe.conns id = some k →
    k.unacked ≠ 0 →
    exec (.connectionDeadTimeout id) s = .next (fetchWaiting (failConn id s))) ∧
  (∀ (id : Nat) (k : Conn) (s : State),
    tget s.xfe.conns id = some k →
    k.state = .opened →
    k.tx = [] →
    k.cmd = none →
    k.spilled = false →
    failConn id s = logEv .xfeConnFailed pXfe k.part [id, k.node, k.rpart]
      ((loseHolding id (releaseHeld k (putConn id { k with state := .failed, ctlSent := [], trackers := [], held := [] } s))).bump Ctr.xfeConnFailed)) ∧
  (∀ (id seq index : Nat) (k : Conn) (s : State),
    Live s →
    tget s.xfe.conns id = some k →
    k.state = .opening →
    exec (.retransmitTimeout id seq index) s = .next (if s.nodeValid && !(s.upPorts k.node).isEmpty then
      sendConnect id (putConn id { k with rtoUs := min (2 * k.rtoUs) (s.getF Reg.xfeRtoMaxUs) } s) else s)) ∧
  (∀ (id seq index : Nat) (k : Conn) (s : State),
    Live s →
    tget s.xfe.conns id = some k →
    k.state ≠ .opening →
    k.sends s = true →
    k.tx.any (fun m => m.seq == seq && !m.acked && !(msgPorts s k m).isEmpty && m.pkts.any fun p => p.index == index && p.left && !p.queued && !p.acked) = true →
    exec (.retransmitTimeout id seq index) s = .next (resendPkt id seq index (putConn id { k with rtoUs := min (2 * k.rtoUs) (s.getF Reg.xfeRtoMaxUs) } s))) ∧
  (∀ (id seq index : Nat) (k : Conn) (s : State),
    Live s →
    tget s.xfe.conns id = some k →
    k.state ≠ .opening →
    k.sends s = false ∨ (k.tx.all (fun m => m.seq != seq || m.acked || (msgPorts s k m).isEmpty) = true ∧ k.ctlSent.find? (·.psn == some seq) = none) →
    exec (.retransmitTimeout id seq index) s = .next s) ∧
  (∀ (id seq index : Nat) (k : Conn) (q : CtlPkt) (s : State),
    Live s →
    tget s.xfe.conns id = some k →
    k.state ≠ .opening →
    k.tx.all (fun m => m.seq != seq || m.acked) = true →
    k.ctlSent.find? (·.psn == some seq) = some q →
    k.sends s = true →
    (s.upPorts k.node).isEmpty = false →
    ((tkeys s.xfe.ctl).any fun p => (tgetD s.xfe.ctl p []).any fun w => w.conn == q.conn && w.psn == q.psn) = false →
    exec (.retransmitTimeout id seq index) s = .next (resendCtl q (putConn id { k with rtoUs := min (2 * k.rtoUs) (s.getF Reg.xfeRtoMaxUs) } s))) ∧
  (∀ (id seq : Nat) (k : Conn) (t : Tracker) (s : State),
    Live s →
    tget s.xfe.conns id = some k →
    tget k.trackers seq = some t →
    t.sinceAck ≠ 0 →
    exec (.ackDelayExpiry id seq) s = .next (sendAck id t.port seq 0 none 0 s)) ∧
  (∀ (req w : Nat) (q : Request) (s : State),
    Live s →
    tget s.xfe.requests req = some q →
    q.what = .tailFlush w →
    exec (.deadTarget req) s = .next (logEv .xfeDeadTarget pXfe (((tget s.xfe.conns q.conn).map (·.part)).getD 0xFF) [q.conn, q.op, req]
      ((dropSender q.conn req { s with xfe := { s.xfe with requests := tdel s.xfe.requests req } }).bump Ctr.xfeDeadTargetOps))) ∧
  (∀ (id : Nat) (k : Conn) (s : State),
    Live s →
    tget s.xfe.conns id = some k →
    s.xfe.fetching.contains id = true →
    k.spilled = true →
    k.state ≠ .failed →
    exec (.spillFetchDone id none) s = .next (afterFetch id (logEv .xfeSpillFailed pXfe k.part [id] (failConn id
      (putConn id { k with spilled := false } { s with xfe := { s.xfe with fetching := s.xfe.fetching.filter (· != id) } }))))) ∧
  (∀ (id : Nat) (k : Conn) (b : List Byte) (s : State),
    Live s →
    tget s.xfe.conns id = some k →
    s.xfe.fetching.contains id = true →
    k.spilled = true →
    k.state ≠ .failed →
    b.length = 64 →
    slice b 0x3C 4 = shake256 (b.take 0x3C) 4 →
    let u := { s with xfe := { s.xfe with fetching := s.xfe.fetching.filter (· != id) } }
    exec (.spillFetchDone id (some b)) s = .next (afterFetch id (putConn id { connOfRecord k b with state := k.state } u))) ∧
  (∀ (id seq : Nat) (k : Conn) (m : TxMsg) (s : State),
    Live s →
    tget s.xfe.conns id = some k →
    k.tx.find? (·.seq == seq) = some m →
    m.completed = false →
    m.count ≤ m.pkts.length →
    m.pkts.all (fun p => p.left || p.acked) = true →
    opLeaves m.op = true →
    m.work = none →
    exec (.messageLeftPort id seq) s = .next (tryClose id (pruneTx id (modTx id seq (fun m => { m with completed := true }) s)))) ∧
  (∀ (i ns : Nat) (r : Region) (t : Trig) (l : List Trig) (s : State),
    Live s →
    tget s.xfe.regions i = some r →
    r.queue = t :: l →
    r.wheel = none →
    exec (.triggerConsume i ns) s = .next (firePosted i (r.posted.length + 1)
      ((putRegion i { r with queue := l, count := (r.count + t.inc) % 2 ^ 32, inflight := r.inflight - 1 } s).bump Ctr.xfeTriggersConsumed)))

/-- 10 R308, R309, R312: the states of a port and the messages that bring it up. -/
def Obligations.LinkBringUp : Prop :=
  (∀ (port lanes : Nat) (s : State),
    Live s →
    port < 8 →
    s.getF (Reg.xfePortState port) = portDetect →
    (lanes = 8 ∧ halfPort s port = false) ∨ lanes = 4 →
    exec (.linkDetect port lanes) s = .next { s.setF (Reg.xfePortState port) portTrain with xfe := { s.xfe with lanes := tset s.xfe.lanes port lanes } }) ∧
  (∀ (port : Nat) (s : State),
    Live s →
    port < 8 →
    s.getF (Reg.xfePortState port) = portTrain →
    exec (.linkTrained port) s = .next ((s.setF (Reg.xfePortState port) portConfig).emit (.linkMessage port 0 [2, tgetD s.xfe.lanes port 8]))) ∧
  (∀ (port : Nat) (s : State),
    Live s →
    port < 8 →
    s.getF (Reg.xfePortState port) = portTrain →
    let n := tgetD s.xfe.attempts port 0 + 1
    let u := { (s.satAdd (Reg.xfePortRetrains port) 1).setF (Reg.xfePortState port) portDetect with xfe := { s.xfe with attempts := tset s.xfe.attempts port (n % 4), lanes := tdel s.xfe.lanes port } }
    exec (.linkTrainTimeout port) s = .next (if n = 4 then logEv .xfeLinkTrainFail pXfe 0xFF [port] u else u)) ∧
  (∀ (port gen : Nat) (credits : List Nat) (s : State),
    Live s →
    port < 8 →
    s.getF (Reg.xfePortState port) = portConfig →
    gen = 1 ∨ gen = 2 →
    let w := grantCredits port credits (clearPort port (s.setF (Reg.xfePortState port) portUp))
    let u := (w.setF (Reg.xfePortWidth port) (if tgetD w.xfe.lanes port 8 = 8 then 2 else 1)).setF (Reg.xfePortGen port) (min 2 gen)
    let v := announceAll { u with xfe := { u.xfe with attempts := tdel u.xfe.attempts port } }
    exec (.linkCap port { gen := gen, credits := credits }) s = .next ((tkeys v.xfe.conns).foldl (fun s id => pumpAll id s) v)) ∧
  (∀ (port fec : Nat) (s : State),
    Live s →
    port < 8 →
    s.upPort port = true →
    exec (.linkDown port fec) s = .next (announceAll (logEv .xfeLinkDown pXfe 0xFF [port] (dropPort port portDetect (s.bumpBy (Ctr.xfeFecUncorrected port) fec))))) ∧
  (∀ (port : Nat) (s : State),
    s.fnShown 0 = true →
    s.mgc.off = false →
    port < 8 →
    (s.setF (Reg.xfePortEn port) 1).getF (Reg.xfePortState port) = 0 →
    1 ≤ (s.setF (Reg.xfePortEn port) 1).getF Reg.mgcBootStage →
    (s.setF (Reg.xfePortEn port) 1).running = true →
    exec (.portEnWrite 0 port 1) s = .next (countIo 0 ((s.setF (Reg.xfePortEn port) 1).setF (Reg.xfePortState port) portDetect))) ∧
  (∀ (port : Nat) (s : State),
    s.fnShown 0 = true →
    s.mgc.off = false →
    port < 8 →
    let u := s.setF (Reg.xfePortEn port) 0
    exec (.portEnWrite 0 port 0) s = .next (countIo 0 (if u.upPort port then announceAll (dropPort port 0 u) else dropPort port 0 u)))

/-- 10 R313-R317: node numbers, peers and routes; 10 R325, R345 and 16 R517: the expert operations on routes and connections. -/
def Obligations.NodeNumbersAndRoutes : Prop :=
  (∀ (port node fm epoch : Nat) (s : State),
    fmHeard s port = true →
    node < 2 ^ 17 →
    epoch < 2 ^ 32 →
    s.getF Reg.xfeFmEpoch < epoch →
    exec (.assign port node fm epoch) s = .next (logEv .xfeNodeAssigned pXfe 0xFF [node, fm, epoch]
      (takeNode node ((s.setF Reg.xfeFmEpoch epoch).setF Reg.xfeFmFmNode fm)))) ∧
  (∀ (port node fm epoch : Nat) (s : State),
    fmHeard s port = true →
    node < 2 ^ 17 →
    epoch < 2 ^ 32 →
    s.getF Reg.xfeFmEpoch = epoch →
    node ≠ s.node →
    exec (.assign port node fm epoch) s = .next (logEv .xfeNodeConflict pXfe 0xFF [node, fm, epoch] s)) ∧
  (∀ (port node fm epoch : Nat) (s : State),
    epoch < s.getF Reg.xfeFmEpoch ∨ fmHeard s port = false →
    exec (.assign port node fm epoch) s = .next s) ∧
  (∀ (port node uid : Nat) (s : State),
    fmHeard s port = true →
    exec (.join port node uid) s = .next (logEv .xfePeerJoined pXfe 0xFF [node, uid] s)) ∧
  (∀ (port node uid : Nat) (s : State),
    fmHeard s port = true →
    exec (.depart port node uid) s = .next (logEv .xfePeerLost pXfe 0xFF [node, uid]
      ((s.xfe.conns.filter fun c => c.2.node == node).foldl (fun s c => failConn c.1 s) s))) ∧
  (∀ (port first last mask epoch : Nat) (s : State),
    fmHeard s port = true →
    epoch = s.getF Reg.xfeFmEpoch →
    first ≤ last →
    last < 2 ^ 17 →
    mask < 256 →
    ∃ u, exec (.route port first last mask epoch) s = .next u ∧ u = { s with xfe := { s.xfe with routes := u.xfe.routes } } ∧
      ∀ n, u.routeMask n = (if first ≤ n ∧ n ≤ last then mask else s.routeMask n)) ∧
  (∀ (node : Nat) (s : State),
    s.fnShown 0 = true →
    s.mgc.off = false →
    s.nodeValid = false →
    node < 2 ^ 17 →
    exec (.nodeStaticWrite 0 1 node) s = .next (countIo 0 (announceAll (takeNode node ((s.setF Reg.xfeNodeStatic 1).setF Reg.xfeNodeStaticNode node))))) ∧
  (∀ (via st node : Nat) (s : State),
    via ≠ 0 ∨ s.nodeValid = true →
    exec (.nodeStaticWrite via st node) s = .next (countIo via s)) ∧
  (∀ (first : Nat) (s : State),
    s.expertDevice pXfe 0 = true →
    s.flag Reg.xfeRouteStatBusy = false →
    first < 2 ^ 17 →
    exec (.routeRead 0 first) s = .next (countIo 0 (((s.setF Reg.xfeRouteOpFirst first).setF Reg.xfeRouteOpOp 1).setF Reg.xfeRouteStatMask (s.routeMask first)))) ∧
  (∀ (first last mask : Nat) (s : State),
    s.fnShown 0 = true →
    s.expertDevice pXfe 0 = true →
    s.flag Reg.xfeRouteStatBusy = false →
    first ≤ last →
    last < 2 ^ 17 →
    mask < 256 →
    ∃ u, exec (.routeWrite 0 first last mask) s = .next (countIo 0 u) ∧
      u.regs = ((((s.setF Reg.xfeRouteOpFirst first).setF Reg.xfeRouteOpLast last).setF Reg.xfeRouteOpMask mask).setF Reg.xfeRouteOpOp 2).regs ∧
      ∀ n, u.routeMask n = (if first ≤ n ∧ n ≤ last then mask else s.routeMask n)) ∧
  (∀ (via id : Nat) (s : State),
    connExpert s via id = true →
    exec (.connReadRecord via id) s = .next (countIo via (showBytes Reg.xfeConnRecData 8 (match tget s.xfe.conns id with
        | some k => connRecord s id k
        | none => zeros 64) ((s.setF Reg.xfeConnOpConn id).setF Reg.xfeConnOpOp 1)))) ∧
  (∀ (via id : Nat) (s : State),
    connExpert s via id = true →
    exec (.connFail via id) s = .next (countIo via (failConn id ((s.setF Reg.xfeConnOpConn id).setF Reg.xfeConnOpOp 2))))

/-- 10 R346 and 11 R365: the checks on reception, in their order, and what a packet does that passes all of them; one clause for each opcode of R320. What placing does is stated by opcode in PacketEffects. -/
def Obligations.DataPacketsPassTheChecks : Prop :=
  (∀ (port : Nat) (fill : Nat) (raw p : List Byte) (c₁ c : Conn) (s : State),
    Arrives 1 port raw s →
    OnConn port raw fill c₁ s →
    Passes raw p c (touched port raw s) →
    (let v := taken raw c (touched port raw s)
   let c' := tgetD v.xfe.conns (PktHdr.parse raw).conn c
   beginAccess (.fabric port raw) (placeLines v c' (PktHdr.parse raw)).1 (placeLines v c' (PktHdr.parse raw)).2 v = none ∧
   openPayload v c'.part (PktHdr.parse raw) raw = some p) →
    let h := PktHdr.parse raw
    let v := taken raw c (touched port raw s)
    exec (.write port raw fill) s = .next (fetchWaiting (finishPacket h.conn port h (applyPacket h.conn (tgetD v.xfe.conns h.conn c) port h p v)))) ∧
  (∀ (port : Nat) (fill : Nat) (raw p : List Byte) (c₁ c : Conn) (s : State),
    Arrives 2 port raw s →
    OnConn port raw fill c₁ s →
    Passes raw p c (touched port raw s) →
    (let v := taken raw c (touched port raw s)
   let c' := tgetD v.xfe.conns (PktHdr.parse raw).conn c
   beginAccess (.fabric port raw) (placeLines v c' (PktHdr.parse raw)).1 (placeLines v c' (PktHdr.parse raw)).2 v = none ∧
   openPayload v c'.part (PktHdr.parse raw) raw = some p) →
    let h := PktHdr.parse raw
    let v := taken raw c (touched port raw s)
    exec (.readReq port raw fill) s = .next (fetchWaiting (finishPacket h.conn port h (applyPacket h.conn (tgetD v.xfe.conns h.conn c) port h p v)))) ∧
  (∀ (port : Nat) (fill : Nat) (raw p : List Byte) (c₁ c : Conn) (s : State),
    Arrives 3 port raw s →
    OnConn port raw fill c₁ s →
    Passes raw p c (touched port raw s) →
    (let v := taken raw c (touched port raw s)
   let c' := tgetD v.xfe.conns (PktHdr.parse raw).conn c
   beginAccess (.fabric port raw) (placeLines v c' (PktHdr.parse raw)).1 (placeLines v c' (PktHdr.parse raw)).2 v = none ∧
   openPayload v c'.part (PktHdr.parse raw) raw = some p) →
    let h := PktHdr.parse raw
    let v := taken raw c (touched port raw s)
    exec (.readResp port raw fill) s = .next (fetchWaiting (finishPacket h.conn port h (applyPacket h.conn (tgetD v.xfe.conns h.conn c) port h p v)))) ∧
  (∀ (port : Nat) (fill : Nat) (raw p : List Byte) (c₁ c : Conn) (s : State),
    Arrives 4 port raw s →
    OnConn port raw fill c₁ s →
    Passes raw p c (touched port raw s) →
    (let v := taken raw c (touched port raw s)
   let c' := tgetD v.xfe.conns (PktHdr.parse raw).conn c
   beginAccess (.fabric port raw) (placeLines v c' (PktHdr.parse raw)).1 (placeLines v c' (PktHdr.parse raw)).2 v = none ∧
   openPayload v c'.part (PktHdr.parse raw) raw = some p) →
    let h := PktHdr.parse raw
    let v := taken raw c (touched port raw s)
    exec (.atomic port raw fill) s = .next (fetchWaiting (finishPacket h.conn port h (applyPacket h.conn (tgetD v.xfe.conns h.conn c) port h p v)))) ∧
  (∀ (port : Nat) (fill : Nat) (raw p : List Byte) (c₁ c : Conn) (s : State),
    Arrives 5 port raw s →
    OnConn port raw fill c₁ s →
    Passes raw p c (touched port raw s) →
    (let v := taken raw c (touched port raw s)
   let c' := tgetD v.xfe.conns (PktHdr.parse raw).conn c
   beginAccess (.fabric port raw) (placeLines v c' (PktHdr.parse raw)).1 (placeLines v c' (PktHdr.parse raw)).2 v = none ∧
   openPayload v c'.part (PktHdr.parse raw) raw = some p) →
    let h := PktHdr.parse raw
    let v := taken raw c (touched port raw s)
    exec (.atomicResp port raw fill) s = .next (fetchWaiting (finishPacket h.conn port h (applyPacket h.conn (tgetD v.xfe.conns h.conn c) port h p v)))) ∧
  (∀ (port : Nat) (fill : Nat) (raw p : List Byte) (c₁ c : Conn) (s : State),
    Arrives 6 port raw s →
    OnConn port raw fill c₁ s →
    Passes raw p c (touched port raw s) →
    (let v := taken raw c (touched port raw s)
   let c' := tgetD v.xfe.conns (PktHdr.parse raw).conn c
   beginAccess (.fabric port raw) (placeLines v c' (PktHdr.parse raw)).1 (placeLines v c' (PktHdr.parse raw)).2 v = none ∧
   openPayload v c'.part (PktHdr.parse raw) raw = some p) →
    let h := PktHdr.parse raw
    let v := taken raw c (touched port raw s)
    exec (.cas port raw fill) s = .next (fetchWaiting (finishPacket h.conn port h (applyPacket h.conn (tgetD v.xfe.conns h.conn c) port h p v)))) ∧
  (∀ (port : Nat) (fill : Nat) (raw p : List Byte) (c₁ c : Conn) (s : State),
    Arrives 7 port raw s →
    OnConn port raw fill c₁ s →
    Passes raw p c (touched port raw s) →
    (let v := taken raw c (touched port raw s)
   let c' := tgetD v.xfe.conns (PktHdr.parse raw).conn c
   beginAccess (.fabric port raw) (placeLines v c' (PktHdr.parse raw)).1 (placeLines v c' (PktHdr.parse raw)).2 v = none ∧
   openPayload v c'.part (PktHdr.parse raw) raw = some p) →
    let h := PktHdr.parse raw
    let v := taken raw c (touched port raw s)
    exec (.casResp port raw fill) s = .next (fetchWaiting (finishPacket h.conn port h (applyPacket h.conn (tgetD v.xfe.conns h.conn c) port h p v)))) ∧
  (∀ (port : Nat) (fill : Nat) (raw p : List Byte) (c₁ c : Conn) (s : State),
    Arrives 8 port raw s →
    OnConn port raw fill c₁ s →
    Passes raw p c (touched port raw s) →
    (let v := taken raw c (touched port raw s)
   let c' := tgetD v.xfe.conns (PktHdr.parse raw).conn c
   beginAccess (.fabric port raw) (placeLines v c' (PktHdr.parse raw)).1 (placeLines v c' (PktHdr.parse raw)).2 v = none ∧
   openPayload v c'.part (PktHdr.parse raw) raw = some p) →
    let h := PktHdr.parse raw
    let v := taken raw c (touched port raw s)
    exec (.mcastWrite port raw fill) s = .next (fetchWaiting (finishPacket h.conn port h (applyPacket h.conn (tgetD v.xfe.conns h.conn c) port h p v)))) ∧
  (∀ (port : Nat) (fill : Nat) (raw p : List Byte) (c₁ c : Conn) (s : State),
    Arrives 9 port raw s →
    OnConn port raw fill c₁ s →
    Passes raw p c (touched port raw s) →
    (let v := taken raw c (touched port raw s)
   let c' := tgetD v.xfe.conns (PktHdr.parse raw).conn c
   beginAccess (.fabric port raw) (placeLines v c' (PktHdr.parse raw)).1 (placeLines v c' (PktHdr.parse raw)).2 v = none ∧
   openPayload v c'.part (PktHdr.parse raw) raw = some p) →
    let h := PktHdr.parse raw
    let v := taken raw c (touched port raw s)
    exec (.reduce port raw fill) s = .next (fetchWaiting (finishPacket h.conn port h (applyPacket h.conn (tgetD v.xfe.conns h.conn c) port h p v)))) ∧
  (∀ (port : Nat) (fill : Nat) (raw p : List Byte) (c₁ c : Conn) (s : State),
    Arrives 10 port raw s →
    OnConn port raw fill c₁ s →
    Passes raw p c (touched port raw s) →
    (let v := taken raw c (touched port raw s)
   let c' := tgetD v.xfe.conns (PktHdr.parse raw).conn c
   beginAccess (.fabric port raw) (placeLines v c' (PktHdr.parse raw)).1 (placeLines v c' (PktHdr.parse raw)).2 v = none ∧
   openPayload v c'.part (PktHdr.parse raw) raw = some p) →
    let h := PktHdr.parse raw
    let v := taken raw c (touched port raw s)
    exec (.flush port raw fill) s = .next (fetchWaiting (finishPacket h.conn port h (applyPacket h.conn (tgetD v.xfe.conns h.conn c) port h p v)))) ∧
  (∀ (port : Nat) (fill : Nat) (raw p : List Byte) (c₁ c : Conn) (s : State),
    Arrives 11 port raw s →
    OnConn port raw fill c₁ s →
    Passes raw p c (touched port raw s) →
    (let v := taken raw c (touched port raw s)
   let c' := tgetD v.xfe.conns (PktHdr.parse raw).conn c
   beginAccess (.fabric port raw) (placeLines v c' (PktHdr.parse raw)).1 (placeLines v c' (PktHdr.parse raw)).2 v = none ∧
   openPayload v c'.part (PktHdr.parse raw) raw = some p) →
    let h := PktHdr.parse raw
    let v := taken raw c (touched port raw s)
    exec (.flushResp port raw fill) s = .next (fetchWaiting (finishPacket h.conn port h (applyPacket h.conn (tgetD v.xfe.conns h.conn c) port h p v)))) ∧
  (∀ (port : Nat) (fill : Nat) (raw p : List Byte) (c₁ c : Conn) (s : State),
    Arrives 12 port raw s →
    OnConn port raw fill c₁ s →
    Passes raw p c (touched port raw s) →
    (let v := taken raw c (touched port raw s)
   let c' := tgetD v.xfe.conns (PktHdr.parse raw).conn c
   beginAccess (.fabric port raw) (placeLines v c' (PktHdr.parse raw)).1 (placeLines v c' (PktHdr.parse raw)).2 v = none ∧
   openPayload v c'.part (PktHdr.parse raw) raw = some p) →
    let h := PktHdr.parse raw
    let v := taken raw c (touched port raw s)
    exec (.trigger port raw fill) s = .next (fetchWaiting (finishPacket h.conn port h (applyPacket h.conn (tgetD v.xfe.conns h.conn c) port h p v))))

/-- 11 R351-R361: the operations. A response other than READ_RESP places nothing; its message's completion ends the request (11 R349). -/
def Obligations.PacketEffects : Prop :=
  (∀ (id port : Nat) (c : Conn) (h : PktHdr) (p : List Byte) (r : Region) (s : State),
    memsOk s →
    h.op = 1 ∨ h.op = 8 →
    tget s.xfe.regions (keyIndex h.rkey) = some r →
    r.kind = 0 →
    r.tier < 2 →
    s.inDirect r.part r.tier (r.base + h.addr) p.length = true →
    (r.tier = 0 → s.getF (Reg.mgcPbExtentDirect4k r.part 0) * 4096 ≤ 48 * gib) →
    s.directPoisoned r.part r.tier (r.base + h.addr) p.length = [] →
    let u := applyPacket id c port h p s
    u.directRead r.part r.tier (r.base + h.addr) p.length = p ∧
    (∀ a, (∀ i < p.length, a ≠ s.directAddr r.part r.tier (r.base + h.addr + i)) → memGet (u.tier r.tier) a = memGet (s.tier r.tier) a) ∧
    (∀ j, j < 4 → j ≠ r.tier → u.tier j = s.tier j) ∧ u.regs = s.regs ∧ u.hif = s.hif ∧ u.ssq = s.ssq ∧ u.xfe = s.xfe) ∧
  (∀ (id port : Nat) (c : Conn) (h : PktHdr) (p : List Byte) (r : Region) (s : State),
    h.op = 2 →
    tget s.xfe.regions (keyIndex h.rkey) = some r →
    let b := regionRead r h.addr (h.argAt 8 4) s
    applyPacket id c port h p s = sendMsg id { seq := 0, op := 3, cls := 1, arg := leBytes 4 (h.argAt 0 4), data := b.1, poison := b.2 } (readMeets r h.addr (h.argAt 8 4) (s.bump Ctr.xfeReadsServed))) ∧
  (∀ (id port : Nat) (c : Conn) (h : PktHdr) (p : List Byte) (r : Region) (s : State),
    h.op = 4 →
    tget s.xfe.regions (keyIndex h.rkey) = some r →
    wordBad r (typeSize (h.argAt 0 1)) s (r.base + h.addr) = false →
    let z := typeSize (h.argAt 0 1)
    let old := leNat (s.directRead r.part r.tier (r.base + h.addr) z)
    applyPacket id c port h p s = sendMsg id { seq := 0, op := 5, cls := 1, arg := leBytes 8 (if h.argAt 1 1 = 1 then old else 0) ++ leBytes 4 (h.argAt 8 4) }
      (directStore r.part r.tier (r.base + h.addr) (leBytes z (typeAdd (h.argAt 0 1) old (fieldAt p 0 z))) (s.bump Ctr.xfeAtomics))) ∧
  (∀ (id port : Nat) (c : Conn) (h : PktHdr) (p : List Byte) (r : Region) (s : State),
    h.op = 4 →
    tget s.xfe.regions (keyIndex h.rkey) = some r →
    wordBad r (typeSize (h.argAt 0 1)) s (r.base + h.addr) = true →
    applyPacket id c port h p s = wordRefused id 5 (h.argAt 8 4) r h.addr (typeSize (h.argAt 0 1)) (s.bump Ctr.xfeAtomics)) ∧
  (∀ (id port : Nat) (c : Conn) (h : PktHdr) (p : List Byte) (r : Region) (s : State),
    h.op = 6 →
    tget s.xfe.regions (keyIndex h.rkey) = some r →
    wordBad r (h.argAt 12 1) s (r.base + h.addr) = true →
    applyPacket id c port h p s = wordRefused id 7 (h.argAt 8 4) r h.addr (h.argAt 12 1) s) ∧
  (∀ (id port : Nat) (c : Conn) (h : PktHdr) (p : List Byte) (r : Region) (s : State),
    h.op = 6 →
    tget s.xfe.regions (keyIndex h.rkey) = some r →
    wordBad r (h.argAt 12 1) s (r.base + h.addr) = false →
    let z := h.argAt 12 1
    let old := leNat (s.directRead r.part r.tier (r.base + h.addr) z)
    applyPacket id c port h p s = (if old = h.argAt 0 8 % 2 ^ (8 * z)
      then sendMsg id { seq := 0, op := 7, cls := 1, arg := leBytes 8 old ++ leBytes 4 (h.argAt 8 4) ++ leBytes 1 1 } (directStore r.part r.tier (r.base + h.addr) (slice p 0 z) s)
      else sendMsg id { seq := 0, op := 7, cls := 1, arg := leBytes 8 old ++ leBytes 4 (h.argAt 8 4) ++ leBytes 1 0 } (s.bump Ctr.xfeCasNotSwapped))) ∧
  (∀ (id port : Nat) (c k : Conn) (h : PktHdr) (p : List Byte) (s : State),
    h.op = 10 ∨ h.op = 12 →
    tget s.xfe.conns id = some k →
    applyPacket id c port h p s = putConn id { k with held := k.held ++ [{ seq := h.seq, op := h.op, header := h.bytes, payload := p, port := port }] } s) ∧
  (∀ (id port : Nat) (c : Conn) (h : PktHdr) (p : List Byte) (q : Request) (s : State),
    h.op = 3 →
    tget s.xfe.requests (h.argAt 0 4) = some q →
    q.conn = id →
    q.op = 2 →
    q.ofLoad = false →
    h.addr + h.len ≤ q.len →
    bit h.flags flPoison = false →
    applyPacket id c port h p s = directStore c.part q.tier (q.addr + h.addr) p s) ∧
  (∀ (id port : Nat) (c : Conn) (h : PktHdr) (p : List Byte) (q : Request) (s : State),
    h.op = 3 →
    tget s.xfe.requests (h.argAt 0 4) = some q →
    q.conn = id →
    q.op = 2 →
    q.ofLoad = true →
    h.addr + h.len ≤ q.len →
    bit h.flags flPoison = false →
    applyPacket id c port h p s = putRequest (h.argAt 0 4) { q with value := leNat (p.take q.len), poison := false } s) ∧
  (∀ (id port : Nat) (c : Conn) (h : PktHdr) (p : List Byte) (s : State),
    h.op = 5 ∨ h.op = 7 ∨ h.op = 11 →
    applyPacket id c port h p s = s)

/-- 10 R323-R326, R331 and R346: the packets that open and close connections, and those that acknowledge. 10 R346: the checks on a received packet, in their order. -/
def Obligations.ConnectionsAndRefusals : Prop :=
  (∀ (port id v : Nat) (raw p : List Byte) (fill : Nat) (s : State),
    Arrives 0x72 port raw s →
    fieldsOk { PktHdr.parse raw with psn := 0 } true true = true →
    (PktHdr.parse raw).len = 64 →
    (PktHdr.parse raw).isSealed = false →
    crcOk (PktHdr.parse raw) raw = true →
    p = pktBody (PktHdr.parse raw) raw →
    connPayloadOk p = true →
    (heard port s).isProtected (fieldAt p 0xF 1 / 16) = false →
    (let u := uidChange (PktHdr.parse raw).src (fieldAt p 0 8) (heard port s)
   findPair u (fieldAt p 0xF 1 / 16) (PktHdr.parse raw).src (fieldAt p 0xF 1 % 16) = none ∧ governing u (fieldAt p 0xF 1 / 16) (PktHdr.parse raw).src (fieldAt p 0xF 1 % 16) = some v ∧
   freeConnId u (fieldAt p 0xF 1 / 16) = some id ∧ (makeRoom u).pstate (fieldAt p 0xF 1 / 16) = psActive ∧ (makeRoom u).resident < onChip) →
    let h := PktHdr.parse raw
    let u := makeRoom (uidChange h.src (fieldAt p 0 8) (heard port s))
    exec (.connect port raw fill) s = .next (fetchWaiting (portCutoff port (sendAccept id port (putConn id
      (peerTaken u (newConn u (fieldAt p 0xF 1 / 16) h.src (fieldAt p 0xF 1 % 16) v .opened) p) u))))) ∧
  (∀ (port : Nat) (raw p : List Byte) (fill : Nat) (c : Conn) (k : Cmd) (s : State),
    Arrives 0x73 port raw s →
    tget (heard port s).xfe.conns (PktHdr.parse raw).conn = some c →
    c.node = (PktHdr.parse raw).src →
    c.state = .opening →
    c.spilled = false →
    (heard port s).cgenOf (PktHdr.parse raw).conn = (PktHdr.parse raw).cgen →
    fill ≤ (heard port s).getF Reg.xfeCcMarkThresh →
    bit (PktHdr.parse raw).flags flCm = false →
    fieldsOk (PktHdr.parse raw) false ((PktHdr.parse raw).version == 2) = true →
    (heard port s).isProtected c.part = false →
    crcOk (PktHdr.parse raw) raw = true →
    openPayload (heard port s) c.part (PktHdr.parse raw) raw = some p →
    connPayloadOk p = true →
    (PktHdr.parse raw).version = (if fieldAt p 0xE 1 = 2 then 2 else 1) →
    c.cmd = some k →
    let h := PktHdr.parse raw
    let u := uidChange h.src (fieldAt p 0 8) (heard port s)
    exec (.accept port raw fill) s = .next (fetchWaiting (portCutoff port (complete k { result0 := h.conn } (putConn h.conn (takePsn h.psn (peerTaken u { c with cmd := none } p)) u))))) ∧
  (∀ (port q : Nat) (raw p : List Byte) (fill : Nat) (c₁ c : Conn) (s : State),
    Arrives 0x74 port raw s →
    OnConn port raw fill c₁ s →
    c.state = .opened →
    CtlPasses raw p c (touched port raw s) →
    answerPort (ctlTaken raw c (touched port raw s)) port c.node = some q →
    let u := ctlTaken raw c (touched port raw s)
    exec (.close port raw fill) s = .next (fetchWaiting (endConn (PktHdr.parse raw).conn
      (sendCtl q (some (PktHdr.parse raw).conn) (sealOf u c.part) (connHdr u c 0x75) [] u)))) ∧
  (∀ (port : Nat) (raw p : List Byte) (fill : Nat) (c₁ c : Conn) (s : State),
    Arrives 0x75 port raw s →
    OnConn port raw fill c₁ s →
    c.state = .closing →
    c.closeSent = true →
    CtlPasses raw p c (touched port raw s) →
    exec (.closeAck port raw fill) s = .next (fetchWaiting (connCmd c .ok (endConn (PktHdr.parse raw).conn (ctlTaken raw c (touched port raw s)))))) ∧
  (∀ (port : Nat) (raw p : List Byte) (fill : Nat) (c₁ c : Conn) (s : State),
    Arrives 0x70 port raw s →
    OnConn port raw fill c₁ s →
    CtlPasses raw p c (touched port raw s) →
    exec (.ack port raw fill) s = .next (fetchWaiting (takeAck (PktHdr.parse raw).conn (PktHdr.parse raw) p false (ctlTaken raw c (touched port raw s))))) ∧
  (∀ (port : Nat) (raw p : List Byte) (fill : Nat) (c : Conn) (s : State),
    Arrives 0x71 port raw s →
    fieldsOk (PktHdr.parse raw) true ((PktHdr.parse raw).version == 2) = true →
    (PktHdr.parse raw).isSealed = false →
    crcOk (PktHdr.parse raw) raw = true →
    tget (heard port s).xfe.conns (PktHdr.parse raw).conn = some c →
    c.node = (PktHdr.parse raw).src →
    c.state = .opening →
    c.spilled = false →
    (heard port s).cgenOf (PktHdr.parse raw).conn = (PktHdr.parse raw).cgen →
    p = pktBody (PktHdr.parse raw) raw →
    fieldAt p 0 1 = 8 →
    exec (.nak port raw fill) s = .next (fetchWaiting (connCmd c .fabricRefused
      (freeConn (PktHdr.parse raw).conn ((heard port s).bump Ctr.xfeNaksReceived))))) ∧
  (∀ (port : Nat) (raw : List Byte) (fill : Nat) (c₁ c : Conn) (s : State),
    Arrives 0x70 port raw s →
    OnConn port raw fill c₁ s →
    tget (touched port raw s).xfe.conns (PktHdr.parse raw).conn = some c →
    fieldsOk (PktHdr.parse raw) ((touched port raw s).isProtected c.part) c.native = true →
    (PktHdr.parse raw).isSealed = (touched port raw s).isProtected c.part →
    ctlWindow c (PktHdr.parse raw) = .outside →
    exec (.ack port raw fill) s = .next (fetchWaiting (rejectCtl (PktHdr.parse raw).conn port c.part (PktHdr.parse raw) raw 1 (touched port raw s)))) ∧
  (∀ (port : Nat) (raw : List Byte) (fill : Nat) (s : State),
    s.running = true →
    s.upPort port = true →
    raw.length < 64 ∨ fieldAt raw 0x3C 4 ≠ crc32c (raw.take 60) →
    exec (.write port raw fill) s = .next ((heard port s).bump Ctr.xfeHeaderCheck) ∧ exec (.ack port raw fill) s = .next ((heard port s).bump Ctr.xfeHeaderCheck)) ∧
  (∀ (port : Nat) (raw : List Byte) (fill : Nat) (s : State),
    s.running = true →
    s.upPort port = true →
    64 ≤ raw.length →
    fieldAt raw 0x3C 4 = crc32c (raw.take 60) →
    (PktHdr.parse raw).op = 1 →
    bit (PktHdr.parse raw).flags flLocal = false →
    s.nodeValid = true →
    (PktHdr.parse raw).dst % 2 ^ 17 ≠ s.node →
    exec (.write port raw fill) s = .next ((heard port s).bump Ctr.xfeMisrouted)) ∧
  (∀ (port : Nat) (raw : List Byte) (fill : Nat) (s : State),
    s.running = true →
    s.upPort port = true →
    64 ≤ raw.length →
    fieldAt raw 0x3C 4 = crc32c (raw.take 60) →
    (PktHdr.parse raw).op = 1 →
    bit (PktHdr.parse raw).flags flLocal = false →
    s.nodeValid = false →
    exec (.write port raw fill) s = .next ((heard port s).bump Ctr.xfeNotAssigned)) ∧
  (∀ (port : Nat) (raw : List Byte) (fill : Nat) (s : State),
    Arrives 1 port raw s →
    tget (heard port s).xfe.conns ((PktHdr.parse raw).conn % 2 ^ 20) = none →
    exec (.write port raw fill) s = .next (fetchWaiting (sendNak port (PktHdr.parse raw) raw none 0 0 2 0 (heard port s)))) ∧
  (∀ (port : Nat) (raw : List Byte) (fill : Nat) (c : Conn) (s : State),
    Arrives 1 port raw s →
    tget (heard port s).xfe.conns ((PktHdr.parse raw).conn % 2 ^ 20) = some c →
    c.node = (PktHdr.parse raw).src % 2 ^ 17 →
    c.state = .opened →
    c.spilled = false →
    (heard port s).cgenOf ((PktHdr.parse raw).conn % 2 ^ 20) ≠ (PktHdr.parse raw).cgen →
    exec (.write port raw fill) s = .next (fetchWaiting ((heard port s).bump Ctr.xfeStale))) ∧
  (∀ (port : Nat) (raw : List Byte) (fill : Nat) (s : State),
    s.upPort port = false →
    exec (.write port raw fill) s = .next s ∧ exec (.trigger port raw fill) s = .next s ∧ exec (.connect port raw fill) s = .next s)

/-- 12 R403: EXTENT_ASSIGN and EXTENT_ADD_HOSTS; 12 R405: the steps of a removal; 12 R406: the wipe of an extent that no host has any more, and that after it every byte of the extent reads 0. -/
def Obligations.ExtentCommands : Prop :=
  (∀ (c : Cmd) (s : State),
    Admitted 0x0601 c s →
    c.argsOk [(0, 16)] = true →
    c.dlen = 0 →
    c.arg 0 1 < 64 ∧ c.arg 1 1 < 16 →
    1 ≤ c.arg 8 4 →
    s.extState (c.arg 0 1) = extFree →
    c.arg 4 4 + c.arg 8 4 ≤ s.getF Reg.cwpWindowSize →
    (c.arg 0xC 4 + c.arg 8 4) * 2 ^ 28 ≤ s.directSize (c.arg 1 1) 1 →
    (List.range 64).any (fun x => s.extState x != extFree && overlaps (c.arg 4 4) (c.arg 8 4) (s.getF (Reg.cwpExtentWbase x)) (s.getF (Reg.cwpExtentSize x))) = false →
    exec (.extentAssign c) s = .next (complete c {} ([(Reg.cwpExtentWbase (c.arg 0 1), c.arg 4 4), (Reg.cwpExtentSize (c.arg 0 1), c.arg 8 4), (Reg.cwpExtentPartition (c.arg 0 1), c.arg 1 1),
        (Reg.cwpExtentHosts (c.arg 0 1), c.arg 2 2), (Reg.cwpExtentOrphans (c.arg 0 1), 0), (Reg.cwpExtentTbase (c.arg 0 1), c.arg 0xC 4),
        (Reg.cwpExtentState (c.arg 0 1), extActive)].foldl (fun s f => s.setF f.1 f.2) s))) ∧
  (∀ (c : Cmd) (s : State),
    Admitted 0x0601 c s →
    c.argsOk [(0, 16)] = true →
    c.dlen = 0 →
    c.arg 0 1 < 64 ∧ c.arg 1 1 < 16 →
    1 ≤ c.arg 8 4 →
    s.extState (c.arg 0 1) ≠ extFree →
    exec (.extentAssign c) s = .next (complete c { status := .extentState } s)) ∧
  (∀ (c : Cmd) (s : State),
    Admitted 0x0602 c s →
    c.argsOk [(0, 1), (2, 2)] = true →
    c.dlen = 0 →
    c.arg 0 1 < 64 →
    s.extState (c.arg 0 1) = extActive →
    exec (.extentAddHosts c) s = .next (complete c {} (s.setF (Reg.cwpExtentHosts (c.arg 0 1))
      ((maskBits 16 (c.arg 2 2)).foldl (fun h b => if bit (s.getF (Reg.cwpExtentOrphans (c.arg 0 1))) b then h else setBit h b) (s.getF (Reg.cwpExtentHosts (c.arg 0 1))))))) ∧
  (∀ (c : Cmd) (s : State),
    Admitted 0x0603 c s →
    c.argsOk [(0, 1), (2, 2)] = true →
    c.dlen = 0 →
    c.arg 0 1 < 64 →
    s.extState (c.arg 0 1) = extActive ∨ s.extState (c.arg 0 1) = extOrphaned →
    (maskBits 16 (c.arg 2 2)).all (fun b => bit (s.getF (Reg.cwpExtentHosts (c.arg 0 1))) b || bit (s.getF (Reg.cwpExtentOrphans (c.arg 0 1))) b) = true →
    (maskBits 16 (c.arg 2 2)).any (bit (s.getF (Reg.cwpExtentHosts (c.arg 0 1)))) = true →
    exec (.extentRemove c) s = .next (markStarted c ((maskBits 16 (c.arg 2 2)).foldl (fun s host => (s.extLinesHeld (c.arg 0 1) host).foldl (fun s l => sendRecall l host true s) s)
      (({ s with cwp := { s.cwp with removals := tset s.cwp.removals (c.arg 0 1) { mask := c.arg 2 2, cmd := some c } } }).setF (Reg.cwpExtentState (c.arg 0 1)) extRemoving)))) ∧
  (∀ (c : Cmd) (s : State),
    Admitted 0x0603 c s →
    c.argsOk [(0, 1), (2, 2)] = true →
    c.dlen = 0 →
    c.arg 0 1 < 64 →
    (s.extState (c.arg 0 1) ≠ extActive ∧ s.extState (c.arg 0 1) ≠ extOrphaned) ∨ (maskBits 16 (c.arg 2 2)).all (fun b => bit (s.getF (Reg.cwpExtentHosts (c.arg 0 1))) b || bit (s.getF (Reg.cwpExtentOrphans (c.arg 0 1))) b) = false →
    exec (.extentRemove c) s = .next (complete c { status := .extentState } s)) ∧
  (∀ (e : Nat) (r : Removal) (c : Cmd) (s : State),
    s.mgc.off = false →
    tget s.cwp.removals e = some r →
    r.wiping = false →
    r.cmd = some c →
    s.cwp.dir = [] →
    s.cwp.recalls = [] →
    s.cwp.waiting = [] →
    e < 64 →
    s.getF (Reg.cwpExtentHosts e) < 2 ^ 16 ∧ s.getF (Reg.cwpExtentOrphans e) < 2 ^ 16 →
    (maskBits 16 r.mask).foldl clrBit (s.getF (Reg.cwpExtentHosts e)) ≠ 0 →
    exec (.extentDrainBound e) s = .next (settleWaits (complete c { result0 := 0 }
      { ((s.setF (Reg.cwpExtentHosts e) ((maskBits 16 r.mask).foldl clrBit (s.getF (Reg.cwpExtentHosts e)))).setF (Reg.cwpExtentOrphans e)
        ((maskBits 16 r.mask).foldl clrBit (s.getF (Reg.cwpExtentOrphans e)))).setF (Reg.cwpExtentState e) extActive with
        cwp := { s.cwp with removals := tdel s.cwp.removals e } }))) ∧
  (∀ (e : Nat) (s : State),
    s.mgc.off = false →
    e < 64 →
    s.extState e = extWiping →
    s.cwp.waiting = [] →
    exec (.extentWipeDone e) s = .next (settleWaits
      (let u := ((zeroRange 1 (s.extDevice e * 64) (s.extLines e * 64) s).setF (Reg.cwpExtentState e) extFree).bump Ctr.cwpExtentsWiped
       let v := { u with cwp := { u.cwp with removals := tdel u.cwp.removals e } }
       match (tgetD s.cwp.removals e { mask := 0, cmd := none }).cmd with
       | some c => complete c { result0 := (tgetD s.cwp.removals e { mask := 0, cmd := none }).poisoned } v
       | none => v))) ∧
  (∀ (k a n : Nat) (s : State),
    memsOk s →
    k < 4 →
    (∀ x, memGet ((zeroRange k a n s).tier k) x = if a ≤ x ∧ x < a + n then 0 else memGet (s.tier k) x) ∧
    (∀ j, j < 4 → j ≠ k → (zeroRange k a n s).tier j = s.tier j) ∧ (zeroRange k a n s).regs = s.regs ∧ (zeroRange k a n s).ssq = s.ssq)

/-- 12 R395: requests that are accepted and denied; R396 and R397: what a read and a write do, and the directory entry; R398: the recall of an Exclusive copy; R401: poison; 14 R451: a FENCED CWP answers no request (that a read then returns poison is the model's choice, log 14). -/
def Obligations.HostReadsAndWrites : Prop :=
  (∀ (ld line e w : Nat) (grant : LineGrant) (s : State),
    s.mgc.off = false →
    isFenced s pCwp 0 = false →
    ld < 16 →
    grant ≠ .invalid →
    s.hostAllowed ld line = true →
    s.extentOf line = some e →
    s.extState e ≠ extRemoving →
    s.cwp.waiting = [] →
    s.recalled line = false →
    tget s.cwp.dir line = none →
    s.freeWay line = some w →
    s.poisoned (s.devLine e line) = false →
    s.isProtected (s.getF (Reg.cwpExtentPartition e)) = false ∨ s.sec.badUnits.contains (1, s.devLine e line / 8) = false →
    ∃ t, exec (.hostMemRead ld line grant) s = .next t ∧ t.out = .memData ld line (memRead s.t1 (s.devLine e line * 64) 64) grant :: s.out ∧
    tget t.cwp.dir line = some (if grant = .exclusive then { way := w, owner := some ld } else { way := w, sharers := 2 ^ ld }) ∧
    (∀ l, l ≠ line → tget t.cwp.dir l = tget s.cwp.dir l) ∧ t.ctrs = (s.bump Ctr.cwpHostReads).ctrs ∧
    t.t0 = s.t0 ∧ t.t1 = s.t1 ∧ t.t2 = s.t2 ∧ t.t3 = s.t3 ∧ t.regs = s.regs ∧ t.ssq = s.ssq ∧ t.hif = s.hif ∧ t.cwp.poison = s.cwp.poison) ∧
  (∀ (ld line e : Nat) (s : State),
    s.mgc.off = false →
    isFenced s pCwp 0 = false →
    ld < 16 →
    s.hostAllowed ld line = true →
    s.extentOf line = some e →
    s.cwp.waiting = [] →
    s.recalled line = false →
    tget s.cwp.dir line = none →
    s.poisoned (s.devLine e line) = false →
    s.isProtected (s.getF (Reg.cwpExtentPartition e)) = false ∨ s.sec.badUnits.contains (1, s.devLine e line / 8) = false →
    ∃ t, exec (.hostMemRead ld line .invalid) s = .next t ∧ t.out = .memData ld line (memRead s.t1 (s.devLine e line * 64) 64) .invalid :: s.out ∧
    t.cwp = s.cwp ∧ t.ctrs = (s.bump Ctr.cwpHostReads).ctrs ∧
    t.t0 = s.t0 ∧ t.t1 = s.t1 ∧ t.t2 = s.t2 ∧ t.t3 = s.t3 ∧ t.regs = s.regs ∧ t.ssq = s.ssq ∧ t.hif = s.hif) ∧
  (∀ (ld line e o : Nat) (d : DirEntry) (s : State),
    s.mgc.off = false →
    isFenced s pCwp 0 = false →
    ld < 16 →
    s.hostAllowed ld line = true →
    s.extentOf line = some e →
    s.cwp.waiting = [] →
    s.recalled line = false →
    tget s.cwp.dir line = some d →
    d.owner = some o →
    o ≠ ld →
    ∃ t, exec (.hostMemRead ld line .shared) s = .next t ∧ t.out = .bisnp o line false :: s.out ∧ t.cwp.recalls = s.cwp.recalls ++ [{ line := line, host := o, inv := false }] ∧
    t.cwp.waiting = [{ op := .hostRead ld line .shared, lines := [line] }] ∧ t.cwp.dir = s.cwp.dir ∧ t.t1 = s.t1 ∧ t.regs = s.regs) ∧
  (∀ (ld line e : Nat) (b : List Byte) (s : State),
    memsOk s →
    Table.wf s.cwp.poison = true →
    s.mgc.off = false →
    isFenced s pCwp 0 = false →
    ld < 16 →
    s.hostAllowed ld line = true →
    s.extentOf line = some e →
    s.cwp.waiting = [] →
    s.recalled line = false →
    tget s.cwp.dir line = none →
    b.length = 64 →
    ∃ t, exec (.hostMemWrite ld line (2 ^ 64 - 1) b) s = .next t ∧ t.out = .memDone ld line :: s.out ∧
    (∀ i, i < 64 → memGet t.t1 (s.devLine e line * 64 + i) = b.getD i 0) ∧
    (∀ a, a / 64 ≠ s.devLine e line → memGet t.t1 a = memGet s.t1 a) ∧ tget t.cwp.poison (s.devLine e line) = none) ∧
  (∀ (ld line e mask : Nat) (b : List Byte) (s : State),
    s.mgc.off = false →
    isFenced s pCwp 0 = false →
    ld < 16 →
    s.hostAllowed ld line = true →
    s.extentOf line = some e →
    s.cwp.waiting = [] →
    s.recalled line = false →
    tget s.cwp.dir line = none →
    mask % 2 ^ 64 ≠ 2 ^ 64 - 1 →
    s.poisoned (s.devLine e line) = true →
    ∃ t, exec (.hostMemWrite ld line mask b) s = .next t ∧ t.out = .memDone ld line :: s.out ∧ t.t0 = s.t0 ∧ t.t1 = s.t1 ∧ t.t2 = s.t2 ∧ t.t3 = s.t3 ∧ t.cwp.poison = s.cwp.poison ∧ t.regs = s.regs) ∧
  (∀ (ld line mask : Nat) (grant : LineGrant) (b : List Byte) (s : State),
    s.mgc.off = false →
    isFenced s pCwp 0 = true →
    ld < 16 →
    exec (.hostMemRead ld line grant) s = .next (s.emit (.memPoison ld line)) ∧ exec (.hostMemWrite ld line mask b) s = .next (s.emit (.memDone ld line))) ∧
  (∀ (ld line mask : Nat) (grant : LineGrant) (b : List Byte) (s : State),
    s.mgc.off = false →
    isFenced s pCwp 0 = false →
    ld < 16 →
    s.hostAllowed ld line = false →
    s.cwp.waiting = [] →
    s.getF Reg.frcPartnerHostLimit = 0 ∨ (tgetD s.frc.hosts ld {}).bad + 1 < s.getF Reg.frcPartnerHostLimit →
    tgetD s.cwp.denials ld 0 ≠ 0 →
    ∃ t u, exec (.hostMemRead ld line grant) s = .next t ∧ exec (.hostMemWrite ld line mask b) s = .next u ∧
    t.out = .memPoison ld line :: s.out ∧ u.out = .memDone ld line :: s.out ∧
    t.ctrs = (s.bump Ctr.cwpAccessDenied).ctrs ∧ u.ctrs = (s.bump Ctr.cwpAccessDenied).ctrs ∧
    t.t1 = s.t1 ∧ u.t1 = s.t1 ∧ t.cwp.dir = s.cwp.dir ∧ u.cwp.dir = s.cwp.dir ∧ t.regs = s.regs ∧ u.regs = s.regs)

/-- 12 R398 and R407: recalls; R408: what a dead host leaves; R377-R379 and R393: bindings and functions; 14 R459 and R460: requests that count against a host, and the window in which each access of a function counts. That LD 0 of a link without a switch is bound at its link-up is the model's (log 17). -/
def Obligations.RecallsAndDeadHosts : Prop :=
  (∀ (host line : Nat) (r : Recall) (s : State),
    s.mgc.off = false →
    (s.cwp.recalls.find? fun r => r.line == line && r.host == host) = some r →
    r.inv = true →
    exec (.bisnpResponse host line none) s = .next (settleWaits (removalRecall line host (dropHolder line host { s with cwp := { s.cwp with recalls := s.cwp.recalls.filter (· != r) } })))) ∧
  (∀ (host line e : Nat) (b : List Byte) (r : Recall) (s : State),
    s.mgc.off = false →
    (s.cwp.recalls.find? fun r => r.line == line && r.host == host) = some r →
    r.inv = false →
    s.ownedBy line host = true →
    s.extentOf line = some e →
    let u := s.t1Write (s.devLine e line * 64) (slice b 0 64)
    exec (.bisnpResponse host line (some b)) s = .next (settleWaits (removalRecall line host (shareHolder line host { u with cwp := { u.cwp with recalls := s.cwp.recalls.filter (· != r) } })))) ∧
  (∀ (line host e : Nat) (s : State),
    s.extentOf line = some e →
    s.extState e ≠ extRemoving →
    removalRecall line host s = s) ∧
  (∀ (host line : Nat) (data : Option (List Byte)) (s : State),
    (s.cwp.recalls.find? fun r => r.line == line && r.host == host) = none →
    exec (.bisnpResponse host line data) s = .next s ∧ exec (.recallTimeout host line) s = .next s) ∧
  (∀ (host line : Nat) (s : State),
    s.mgc.off = false →
    s.cwp.recalls.any (fun r => r.line == line && r.host == host) = true →
    exec (.recallTimeout host line) s = .next (settleWaits (hostDead host 3 (logEv .cwpRecallTimeout pCwp 0xFF [host, line * 64] (s.bump Ctr.cwpRecallTimeouts))))) ∧
  (∀ (ld cause : Nat) (s : State),
    s.cwp.dir = [] →
    s.cwp.recalls = [] →
    s.cwp.waiting = [] →
    s.functionsOf ld = [] →
    (List.range 64).all (fun e => s.extState e == extFree || !bit (s.getF (Reg.cwpExtentHosts e)) ld) = true →
    hostDead ld cause s = logEv .cwpHostDead pCwp 0xFF [ld, cause, 0] ((s.setF Reg.cwpHostsDead (setBit (s.getF Reg.cwpHostsDead) ld)).bump Ctr.cwpHostsDead)) ∧
  (∀ (ld : Nat) (req : IoRequest) (s : State),
    s.mgc.off = false →
    ld < 16 →
    exec (.hostIoRequest ld req) s = .next (settleWaits (hostPartner ld true (logEv .hifProtocol pHif 0xFF [ld, fieldAt req.header 0 8, fieldAt req.header 8 8]
      (s.emit (.ioError ld (req.abort && !s.hif.isolated.contains ld))))))) ∧
  (∀ (ld : Nat) (bad : Bool) (s : State),
    tgetD s.frc.hosts ld {} = {} →
    bad = false ∨ 1 < s.getF Reg.frcPartnerHostLimit →
    hostPartner ld bad s = { s with frc := { s.frc with hosts := tset s.frc.hosts ld { bad := if bad then 1 else 0, seen := 1 } } }) ∧
  (∀ (ld fn : Nat) (s : State),
    (s.hif.presented.find? fun p => p.2 == fn && !s.hif.isolated.contains p.1) = some (ld, fn) →
    (tgetD s.frc.hosts ld {}).seen + 1 < 2 ^ 20 →
    countIo fn s = { s with frc := { s.frc with hosts := tset s.frc.hosts ld { bad := (tgetD s.frc.hosts ld {}).bad, seen := (tgetD s.frc.hosts ld {}).seen + 1 } } }) ∧
  (∀ (fn : Nat) (s : State),
    s.hif.presented.all (fun p => p.2 != fn || s.hif.isolated.contains p.1) = true →
    countIo fn s = s) ∧
  (∀ (ld : Nat) (s : State),
    s.mgc.off = false →
    ld < 16 →
    s.flag Reg.hifLinkUp = true →
    s.flag Reg.hifLinkMld = true →
    bit (s.getF Reg.hifLinkBound) ld = false →
    exec (.ldBind ld) s = .next (bindLd ld s)) ∧
  (∀ (ld : Nat) (s : State),
    ld < 16 →
    s.hif.presented = [] →
    s.functionsFor ld = [] →
    bindLd ld s = showPresent { s.setF Reg.hifLinkBound (setBit (s.getF Reg.hifLinkBound) ld) with hif := { s.hif with isolated := s.hif.isolated.filter (· != ld) } }) ∧
  (∀ (ld : Nat) (s : State),
    s.mgc.off = false →
    ld < 16 →
    bit (s.getF Reg.hifLinkBound) ld = true →
    exec (.ldReset ld) s = .next (settleWaits (unbindLd ld (if s.inHosts ld then hostDead ld 1 (s.bump Ctr.hifLdResets) else s.bump Ctr.hifLdResets)))) ∧
  (∀ (width : Nat) (mld : Bool) (s : State),
    s.mgc.off = false →
    s.mgc.perstHeld = false →
    s.flag Reg.hifLinkUp = false →
    let u := ((s.setF Reg.hifLinkUp 1).setF Reg.hifLinkWidth width).setFlag Reg.hifLinkMld mld
    exec (.hostLinkUp width mld) s = .next (if mld then u else bindLd 0 u)) ∧
  (∀ (s : State),
    s.mgc.off = false →
    s.flag Reg.hifLinkUp = true →
    s.getF Reg.hifLinkBound = 0 →
    exec .hostLinkDown s = .next (settleWaits ((List.range 17).foldl (fun s fn => loseQueues fn s) (((s.setF Reg.hifLinkUp 0).setF Reg.hifLinkWidth 0).bump Ctr.hifLinkDowns)))) ∧
  (∀ (s : State),
    s.flag Reg.hifLinkUp = false →
    exec .hostLinkDown s = .next s)

/-- 13 R414 and R415: the partition states, PARTITION_LOCK and its checks; R413: the resources reported; R416: the drain; R419 and R434: the configuration measurement and the media key. -/
def Obligations.PartitionLifecycle : Prop :=
  (∀ (c : Cmd) (s : State),
    Admitted 0x0701 c s →
    c.argsOk [(0, 1)] = true →
    c.dlen = 0 →
    c.arg 0 1 < 16 →
    s.pstate (c.arg 0 1) = psUnconfigured →
    exec (.partitionConfigure c) s = .next (complete c {} (logEv .mgcPartitionState pMgc (c.arg 0 1) [0, 1] (s.setF (Reg.mgcPbCtrlState (c.arg 0 1)) psConfigured)))) ∧
  (∀ (c : Cmd) (s : State),
    Admitted 0x0702 c s →
    c.argsOk [(0, 1)] = true →
    c.dlen = 0 →
    c.arg 0 1 < 16 →
    s.pstate (c.arg 0 1) = psConfigured →
    exec (.partitionRelease c) s = .next (complete c {} (clearPartition (c.arg 0 1) (logEv .mgcPartitionState pMgc (c.arg 0 1) [1, 0] (s.setF (Reg.mgcPbCtrlState (c.arg 0 1)) psUnconfigured))))) ∧
  (∀ (c : Cmd) (s : State),
    Admitted 0x0703 c s →
    c.argsOk [(0, 1)] = true →
    c.dlen = 0 →
    c.arg 0 1 < 16 →
    s.pstate (c.arg 0 1) = psConfigured →
    lockCheck s (c.arg 0 1) = none →
    s.isProtected (c.arg 0 1) = false →
    (reportResources (c.arg 0 1) s).isProtected (c.arg 0 1) = false →
    let u := showBytes (Reg.secPbConfigMeas (c.arg 0 1)) 8 (configMeas (reportResources (c.arg 0 1) s) (c.arg 0 1)) (reportResources (c.arg 0 1) s)
    exec (.partitionLock c) s = .next (complete c {} (setPstate (c.arg 0 1) psLocked
      (if u.isProtected (c.arg 0 1) then u else { (u.freshBytes 64).2 with sec := { u.sec with mediaKeys := tset u.sec.mediaKeys (c.arg 0 1) (u.freshBytes 64).1 } })))) ∧
  (∀ (c : Cmd) (st : Status) (s : State),
    Admitted 0x0703 c s →
    c.argsOk [(0, 1)] = true →
    c.dlen = 0 →
    c.arg 0 1 < 16 →
    s.pstate (c.arg 0 1) = psConfigured →
    lockCheck s (c.arg 0 1) = some st →
    exec (.partitionLock c) s = .next (complete c { status := st } s)) ∧
  (∀ (c : Cmd) (s : State),
    Admitted 0x0704 c s →
    c.argsOk [(0, 1)] = true →
    c.dlen = 0 →
    c.arg 0 1 < 16 →
    s.pstate (c.arg 0 1) = psLocked →
    keysReady s (c.arg 0 1) = true →
    exec (.partitionStart c) s = .next (complete c {} (setPstate (c.arg 0 1) psActive s))) ∧
  (∀ (c : Cmd) (s : State),
    Admitted 0x0707 c s →
    c.argsOk [(0, 1)] = true →
    c.dlen = 0 →
    c.arg 0 1 < 16 →
    s.pstate (c.arg 0 1) = psLocked →
    keysReady s (c.arg 0 1) = true →
    exec (.replayBegin c) s = .next (complete c {} (setPstate (c.arg 0 1) psReplay s))) ∧
  (∀ (c : Cmd) (s : State),
    Admitted 0x0704 c s →
    Admitted 0x0707 c s →
    c.argsOk [(0, 1)] = true →
    c.dlen = 0 →
    c.arg 0 1 < 16 →
    s.pstate (c.arg 0 1) = psLocked →
    keysReady s (c.arg 0 1) = false →
    exec (.partitionStart c) s = .next (complete c { status := .keyState } s) ∧ exec (.replayBegin c) s = .next (complete c { status := .keyState } s)) ∧
  (∀ (c : Cmd) (s : State),
    Admitted 0x0705 c s →
    c.argsOk [(0, 1)] = true →
    c.dlen = 0 →
    c.arg 0 1 < 16 →
    s.pstate (c.arg 0 1) = psActive →
    let u := setPstate (c.arg 0 1) psDraining s
    exec (.partitionDrain c) s = .next (markStarted c (settleDrain (c.arg 0 1) (drainTurns (c.arg 0 1) { u with mgc := { u.mgc with drains := tset u.mgc.drains (c.arg 0 1) c } })))) ∧
  (∀ (c : Cmd) (n : Nat) (s : State),
    tget s.mgc.drains n = some c →
    drainedNow s n = true →
    settleDrain n s = completeOne c {} { s with mgc := { s.mgc with drains := tdel s.mgc.drains n } }) ∧
  (∀ (c : Cmd) (s : State),
    Admitted 0x0701 c s →
    Admitted 0x0702 c s →
    Admitted 0x0703 c s →
    Admitted 0x0704 c s →
    Admitted 0x0705 c s →
    Admitted 0x0706 c s →
    Admitted 0x0707 c s →
    c.argsOk [(0, 1)] = true →
    c.dlen = 0 →
    c.arg 0 1 < 16 →
    s.pstate (c.arg 0 1) = psWiping →
    exec (.partitionConfigure c) s = .next (complete c { status := .partitionState } s) ∧ exec (.partitionRelease c) s = .next (complete c { status := .partitionState } s) ∧
    exec (.partitionLock c) s = .next (complete c { status := .partitionState } s) ∧ exec (.partitionStart c) s = .next (complete c { status := .partitionState } s) ∧
    exec (.partitionDrain c) s = .next (complete c { status := .partitionState } s) ∧ exec (.partitionWipe c) s = .next (complete c { status := .partitionState } s) ∧
    exec (.replayBegin c) s = .next (complete c { status := .partitionState } s))

/-- 13 R445: the steps of a wipe; R443: what it overwrites; R418 and R415: the states. That a T2 or T3 byte whose key is destroyed reads 0 is the model's (log 1). -/
def Obligations.PartitionWipe : Prop :=
  (∀ (c : Cmd) (s : State),
    Admitted 0x0706 c s →
    c.argsOk [(0, 1)] = true →
    c.dlen = 0 →
    c.arg 0 1 < 16 →
    s.pstate (c.arg 0 1) = psLocked ∨ s.pstate (c.arg 0 1) = psDraining ∨ s.pstate (c.arg 0 1) = psReplay →
    s.ssq.turns.filter (fun t => t.part == c.arg 0 1) = [] →
    tget s.mgc.drains (c.arg 0 1) = none →
    let u := setPstate (c.arg 0 1) psWiping s
    let v := ({ u with sec := { u.sec with exchanges := tdel u.sec.exchanges (c.arg 0 1) } }).setF (Reg.secPbKeysExchange (c.arg 0 1)) 0
    exec (.partitionWipe c) s = .next (markStarted c (wipeObjects (c.arg 0 1) { v with mgc := { v.mgc with wipes := tset v.mgc.wipes (c.arg 0 1) c } }))) ∧
  (∀ (n k : Nat) (s : State),
    memsOk s →
    1 ≤ k ∧ k < 4 →
    (∀ a, memGet ((wipeMemory n s).tier k) a = if (extentSpan s n k).1 * 4096 ≤ a ∧ a < ((extentSpan s n k).1 + (extentSpan s n k).2) * 4096 then 0 else memGet (s.tier k) a) ∧
    (wipeMemory n s).regs = s.regs ∧ (wipeMemory n s).ssq = s.ssq ∧ (wipeMemory n s).xfe = s.xfe) ∧
  (∀ (n : Nat) (s : State),
    memsOk s →
    ∀ a, memGet ((wipeMemory n s).tier 0) a = if (List.range 8).any (fun p => decide (p * (48 * gib) + (extentSpan s n 0).1 * 4096 ≤ a ∧ a < p * (48 * gib) + ((extentSpan s n 0).1 + (extentSpan s n 0).2) * 4096)) then 0
      else memGet (s.tier 0) a) ∧
  (∀ (n : Nat) (s : State),
    (wipeMemory n s).sec.memKeys = tdel s.sec.memKeys n ∧ (wipeMemory n s).sec.fabKeys = tdel s.sec.fabKeys n ∧ (wipeMemory n s).sec.mediaKeys = tdel s.sec.mediaKeys n ∧ (wipeMemory n s).sec.fuses = s.sec.fuses) ∧
  (∀ (n : Nat) (s : State),
    Live s →
    n < 16 →
    s.pstate n = psWiping →
    (List.range 64).any (fun e => s.getF (Reg.cwpExtentPartition e) == n && s.extState e != extFree) = false →
    s.xfe.regions.any (fun r => r.2.part == n && r.2.state == .draining) = false →
    Table.wf s.regs = true →
    ∃ t, exec (.partitionWipeDone n) s = .next t ∧ t.pstate n = psUnconfigured ∧ t.sec.memKeys = tdel s.sec.memKeys n ∧ t.sec.fabKeys = tdel s.sec.fabKeys n ∧
    t.sec.mediaKeys = tdel s.sec.mediaKeys n ∧ t.sec.fuses = s.sec.fuses ∧ t.ssq = s.ssq ∧ t.tmg = s.tmg ∧ t.pme = s.pme) ∧
  (∀ (n : Nat) (s : State),
    n < 16 →
    s.pstate n ≠ psWiping ∨ s.xfe.regions.any (fun r => r.2.part == n && r.2.state == .draining) = true ∨ (List.range 64).any (fun e => s.getF (Reg.cwpExtentPartition e) == n && s.extState e != extFree) = true →
    exec (.partitionWipeDone n) s = .next s)

/-- 14 R470: CAPSULE_READ and its two selections; R466 and R468: the ring in the area; R467: the area and its labels. How CAPSULE_READ chooses by handle from a TURN on is the model's (log 46). 14 R472-R476 and 16 R525: REPLAY_RUN. What the named wheel supplies is the command's operand (log 47). -/
def Obligations.CapsulesAndReplay : Prop :=
  (∀ (c : Cmd) (s : State),
    Admitted 0x0801 c s →
    c.argsOk [(0, 8), (8, 4), (0x0C, 4), (0x10, 1)] = true →
    c.arg 0x10 1 = 0 →
    ((readable s).filter fun k => (c.fn == 0 || k.part == c.part) && k.session == c.arg 0 8 && decide (c.arg 8 4 ≤ k.turn)) ≠ [] →
    let out := fitCapsules c.dlen (((readable s).filter fun k => (c.fn == 0 || k.part == c.part) && k.session == c.arg 0 8 && decide (c.arg 8 4 ≤ k.turn)).take (c.arg 0x0C 4))
    let bytes := (out.map (·.bytes)).flatten
    exec (.capsuleRead c) s = .next (complete c { result0 := out.length, result1 := bytes.length, data := if bytes.isEmpty then none else some (0, bytes) } s)) ∧
  (∀ (c : Cmd) (s : State),
    Admitted 0x0801 c s →
    c.argsOk [(0, 8), (8, 4), (0x0C, 4), (0x10, 1)] = true →
    c.arg 0x10 1 = 1 →
    ((readable s)[c.arg 0 8]?).isNone = true →
    exec (.capsuleRead c) s = .next (complete c { status := .invalidField } s)) ∧
  (∀ (k : Capsule) (s : State),
    Live s →
    (s.frc.staging.find? (·.sealed)) = some k →
    s.flag Reg.frcCapsuleStatArea = true →
    k.bytes.length / 4096 ≤ ringRoom s →
    (s.frc.ring4k.map fun c => c.bytes.length / 4096).sum + k.bytes.length / 4096 ≤ s.getF Reg.frcCapsuleUnits4k →
    ∃ t, exec .capsuleWrite s = .next t ∧ t.frc = { s.frc with staging := s.frc.staging.erase k, ring4k := s.frc.ring4k ++ [k], areaNext := (s.frc.areaNext + k.bytes.length / 4096) % max 1 (s.getF Reg.frcCapsuleUnits4k) } ∧ t.regs = s.regs ∧ t.ssq = s.ssq ∧ t.t3 = s.t3) ∧
  (∀ (k : Capsule) (s : State),
    (s.frc.staging.find? (·.sealed)) = some k →
    s.flag Reg.frcCapsuleStatArea = false ∨ ringRoom s < k.bytes.length / 4096 →
    exec .capsuleWrite s = .next s) ∧
  (∀ (units : Nat) (s : State),
    s.fnShown 0 = true →
    Live s →
    s.allUnconfigured = true →
    0 < units ∧ units < 2 ^ 40 →
    drives s ≠ [] →
    ∃ t, exec (.capsuleAreaWrite 0 units) s = .next (countIo 0 t) ∧ t.getF Reg.frcCapsuleUnits4k = units ∧ t.flag Reg.frcCapsuleStatArea = true ∧ t.frc.ring4k = [] ∧ t.frc.areaNext = 0 ∧
    tkeys t.frc.labels = drives s ∧ t.ssq = s.ssq ∧ t.hif = s.hif) ∧
  (∀ (s : State),
    s.fnShown 0 = true →
    Live s →
    s.allUnconfigured = true →
    Table.wf s.regs = true →
    ∃ t, exec (.capsuleAreaWrite 0 0) s = .next (countIo 0 t) ∧ t.flag Reg.frcCapsuleStatArea = false ∧ t.frc.labels = [] ∧ t.frc.ring4k = []) ∧
  (∀ (via units : Nat) (s : State),
    via ≠ 0 ∨ s.allUnconfigured = false →
    exec (.capsuleAreaWrite via units) s = .next (countIo via s)) ∧
  (∀ (c : Cmd) (supply : List (List Byte)) (s : State),
    s.mgc.off = false →
    Admitted 0x0802 c (s.setFrc { s.frc with supplies := s.frc.supplies ++ [(c, supply)] }) →
    c.argsOk [(0, 2)] = true →
    let u := s.setFrc { s.frc with supplies := s.frc.supplies ++ [(c, supply)] }
    let b := c.buffer u
    let cert := derRun (b.length + 1) b
    exec (.replayRun c supply) s = .next (trimSupplies (
      match (Config.certCheck (b.take cert)).bind fun k => (parseCapsules ((tgetD s.sec.memKeys c.part []).take 64) k.2 (b.length / 4096 + 2) (b.drop cert)).map fun l => (k.1, l) with
      | none => complete c { status := .replayCapsule } u
      | some (uid, l) =>
        match replayCheck u c.part (c.arg 0 2) uid l with
        | some st => complete c { status := st } u
        | none =>
          let q := Rp.chain l 0 { m := replayMachine u c.part (fieldAt ((l.head?).map (·.header) |>.getD []) 0x1C 1), supply := supplyOf u c }
          let mark := (l.take q.2).any fun c => bit c.flags 1 || bit c.flags 2
          match q.1.bad with
          | some d => complete c { status := .replayDiverged, result0 := q.2, result1 := if mark then 1 else 0, data := some (0, d.bytes) }
              (logEv .frcDivergence pFrc c.part [d.session, d.turn + d.step * 2 ^ 32, d.layer + d.op * 2 ^ 16 + d.index * 2 ^ 32, d.capsule] ((u.bump Ctr.frcReplaysRun).bump Ctr.frcReplayDivergences))
          | none => complete c { status := if q.1.stuck then .replayCapsule else .ok, result0 := q.2, result1 := if mark then 1 else 0 } (u.bump Ctr.frcReplaysRun)))) ∧
  (∀ (c : Cmd) (supply : List (List Byte)) (s : State),
    s.mgc.off = false →
    gate 0x0802 c (s.setFrc { s.frc with supplies := s.frc.supplies ++ [(c, supply)] }) = .fail .partitionState →
    exec (.replayRun c supply) s = .next (trimSupplies (complete c { status := .partitionState } (s.setFrc { s.frc with supplies := s.frc.supplies ++ [(c, supply)] }))))

/-- 13 R438: the minimum SVN; R442: the lifecycle states and who changes them. Of two changes before one reset the further one takes effect: the model's choice (log 48). -/
def Obligations.FusesAndLifecycle : Prop :=
  (∀ (c : Cmd) (s : State),
    Admitted 0x0901 c s →
    c.argsOk [] = true →
    c.dlen = 0 →
    s.sec.fuses.lifecycle = 2 →
    exec (.fwCommitSvn c) s = .next (complete c {} (({ s with sec := { s.sec with fuses := { s.sec.fuses with svnMin := max s.sec.fuses.svnMin (s.getF Reg.secFwSvn) } } }).setF
      Reg.secFwMinSvnMin (max s.sec.fuses.svnMin (s.getF Reg.secFwSvn))))) ∧
  (∀ (c : Cmd) (s : State),
    Admitted 0x0901 c s →
    c.argsOk [] = true →
    c.dlen = 0 →
    s.sec.fuses.lifecycle ≠ 2 →
    exec (.fwCommitSvn c) s = .next (complete c { status := .lifecycle } s)) ∧
  (∀ (c : Cmd) (s : State),
    Admitted 0x0902 c s →
    c.argsOk [(0, 8)] = true →
    c.dlen = 0 →
    c.arg 0 8 = deviceUid →
    s.sec.fuses.lifecycle = 1 →
    s.allUnconfigured = true →
    exec (.lifecycleAdvance c) s = .next (complete c {} { s with sec := { s.sec with fuses := { s.sec.fuses with next := some (max 2 (s.sec.fuses.next.getD 0)) } } })) ∧
  (∀ (c : Cmd) (s : State),
    Admitted 0x0903 c s →
    c.argsOk [(0, 8)] = true →
    c.dlen = 0 →
    c.arg 0 8 = deviceUid →
    s.sec.fuses.lifecycle = 1 ∨ s.sec.fuses.lifecycle = 2 →
    s.allUnconfigured = true →
    exec (.lifecycleDecommission c) s = .next (complete c {} { s with sec := { s.sec with fuses := { s.sec.fuses with next := some (max 3 (s.sec.fuses.next.getD 0)) } } })) ∧
  (∀ (c : Cmd) (s : State),
    Admitted 0x0902 c s →
    Admitted 0x0903 c s →
    c.argsOk [(0, 8)] = true →
    c.dlen = 0 →
    c.arg 0 8 = deviceUid →
    s.allUnconfigured = false →
    exec (.lifecycleAdvance c) s = .next (complete c { status := .lifecycle } s) ∧ exec (.lifecycleDecommission c) s = .next (complete c { status := .lifecycle } s)) ∧
  (∀ (c : Cmd) (s : State),
    Admitted 0x0902 c s →
    Admitted 0x0903 c s →
    c.arg 0 8 ≠ deviceUid →
    exec (.lifecycleAdvance c) s = .next (complete c { status := .invalidField } s) ∧ exec (.lifecycleDecommission c) s = .next (complete c { status := .invalidField } s))

/-- 13 R420-R423: SPDM over the three kinds of transport, the certificate chain, the reports. The payload bytes of the SPDM messages are presumed from SPDM 1.2 (log 43). -/
def Obligations.SpdmAnswers : Prop :=
  (∀ (t : Nat) (s : State),
    spdmLive s t = true →
    exec (.spdmGetVersion t) s = .next (s.emit (.spdm t "VERSION" (leBytes 2 0x1200)))) ∧
  (∀ (t : Nat) (s : State),
    spdmLive s t = true →
    exec (.spdmGetCapabilities t) s = .next ((s.freshBytes 4).2.emit (.spdm t "CAPABILITIES" (s.freshBytes 4).1))) ∧
  (∀ (t offered : Nat) (s : State),
    spdmLive s t = true →
    offered % 2 = 1 →
    exec (.spdmNegotiateAlgorithms t offered) s = .next (({ s with sec := { s.sec with spdm := tset s.sec.spdm t 1 } }).emit (.spdm t "ALGORITHMS" (leBytes 8 1)))) ∧
  (∀ (t offered : Nat) (s : State),
    spdmLive s t = true →
    offered % 2 = 0 →
    exec (.spdmNegotiateAlgorithms t offered) s = .next (s.emit (.spdm t "ERROR UnsupportedRequest" []))) ∧
  (∀ (t off len : Nat) (s : State),
    spdmLive s t = true →
    hasIdentity s = true →
    exec (.spdmGetDigests t) s = .next (s.emit (.spdm t "DIGESTS" (shake256 Config.certChain 64))) ∧
    exec (.spdmGetCertificate t 0 off len) s = .next (s.emit (.spdm t "CERTIFICATE" ((Config.certChain.drop off).take len)))) ∧
  (∀ (t slot off len : Nat) (s : State),
    spdmLive s t = true →
    slot ≠ 0 →
    exec (.spdmUnsupportedRequest t) s = .next (s.emit (.spdm t "ERROR UnsupportedRequest" [])) ∧
    exec (.spdmGetCertificate t slot off len) s = .next (s.emit (.spdm t "ERROR UnsupportedRequest" []))) ∧
  (∀ (t part : Nat) (nonce : List Byte) (s : State),
    spdmLive s t = true →
    transportPart t = none ∨ transportPart t = some part →
    hasIdentity s = true →
    part < 16 ∨ part = 0xFF →
    exec (.attestationReport t part nonce) s = .next ((s.bump Ctr.secReportsSigned).emit (.spdm t "REPORT"
      (reportBody s part nonce [] ++ slice (Config.mlDsaSign (reportBody s part nonce []) (ascii "SV8-ATTEST")) 0 3309)))) ∧
  (∀ (t part n : Nat) (nonce : List Byte) (s : State),
    spdmLive s t = true →
    transportPart t = some n →
    n ≠ part →
    exec (.attestationReport t part nonce) s = .next (s.emit (.spdm t "STATUS" (leBytes 2 3))) ∧ exec (.keyInit t part nonce) s = .next (s.emit (.spdm t "STATUS" (leBytes 2 3)))) ∧
  (∀ (t off part : Nat) (nonce : List Byte) (s : State),
    spdmLive s t = false →
    exec (.spdmGetVersion t) s = .next s ∧ exec (.spdmGetCapabilities t) s = .next s ∧ exec (.spdmNegotiateAlgorithms t off) s = .next s ∧ exec (.spdmGetDigests t) s = .next s ∧
    exec (.spdmUnsupportedRequest t) s = .next s ∧ exec (.attestationReport t part nonce) s = .next s ∧ exec (.keyInit t part nonce) s = .next s)

/-- 13 R425: the exchange, its messages and their checks; R426: what ends it. Whether a signature verifies and what a ciphertext decapsulates to are open (log 8): the clauses state both outcomes. -/
def Obligations.KeyDelivery : Prop :=
  (∀ (t part : Nat) (nonce : List Byte) (s : State),
    spdmLive s t = true →
    transportPart t = none ∨ transportPart t = some part →
    hasIdentity s = true →
    part < 16 →
    s.pstate part = psLocked →
    s.isProtected part = true →
    slotLoaded s part 1 = false ∨ slotLoaded s part 2 = false →
    tget s.sec.exchanges part = none →
    s.sec.fuses.lifecycle = 2 →
    let u := { s with free := s.free + 1 }
    let r := report u part nonce (shake256 (Config.mlKemPublic s.free) 32)
    exec (.keyInit t part nonce) s = .next ((((({ u with sec := { s.sec with exchanges := tset s.sec.exchanges part { transport := t, kem := s.free, report := r } } }).setF
      (Reg.secPbKeysExchange part) 1).bump Ctr.secReportsSigned).bump Ctr.secKeyExchanges).emit (.spdm t "KEY_OFFER" (r ++ Config.mlKemPublic s.free)) )) ∧
  (∀ (t part : Nat) (ct pk sig : List Byte) (x : Exchange) (s : State),
    spdmLive s t = true →
    transportPart t = none ∨ transportPart t = some part →
    hasIdentity s = true →
    exchangeOf s t part = some x →
    x.kMac = [] →
    let h := shake256 (x.report ++ ct) 64
    exec (.keyExch t part ct pk sig) s = .next (
      if shake256 pk 32 ≠ runBytes s (Reg.mgcPbTenantKeyHash part) 4 ∨ !Config.mlDsaVerify pk h (ascii "SV8-TENANT") sig then failExchange t part .keyAuth s
      else match Config.mlKemDecap x.kem ct with
        | none => failExchange t part .keyAuth s
        | some ss =>
          let k := shake256 (ss ++ h ++ ascii "SV8-KDF") 64
          spdmAnswer t "KEY_ACK" (kmac256 (k.drop 32) h 256 "SV8-ACK")
            { s with sec := { s.sec with exchanges := tset s.sec.exchanges part { x with kEnc := k.take 32, kMac := k.drop 32 } } })) ∧
  (∀ (t part slot : Nat) (w tag : List Byte) (x : Exchange) (s : State),
    spdmLive s t = true →
    transportPart t = none ∨ transportPart t = some part →
    hasIdentity s = true →
    exchangeOf s t part = some x →
    x.kMac ≠ [] →
    slot = 1 ∨ slot = 2 →
    slotLoaded s part slot = false →
    let key := xorBytes (slice w 0 96) (shake256 (x.kEnc ++ leBytes 1 slot) 96)
    exec (.keyDeliver t part slot w tag) s = .next (
      if kmac256 x.kMac (leBytes 1 slot ++ slice w 0 96) 256 "SV8-WRAP" ≠ tag then failExchange t part .keyAuth s
      else if key.take 32 = slice key 32 32 then failExchange t part .invalidField s
      else
        let u := if slot = 1 then ({ s with sec := { s.sec with memKeys := tset s.sec.memKeys part key } }).setF (Reg.secPbKeysMemory part) 1
          else ({ s with sec := { s.sec with fabKeys := tset s.sec.fabKeys part key } }).setF (Reg.secPbKeysFabric part) 1
        spdmAnswer t "KEY_DONE" (leBytes 2 0) (if u.flag (Reg.secPbKeysMemory part) && u.flag (Reg.secPbKeysFabric part)
          then logEv .secKeysLoaded pSec part [part] (endExchange part u) else u))) ∧
  (∀ (t part slot : Nat) (w tag : List Byte) (s : State),
    spdmLive s t = true →
    transportPart t = none ∨ transportPart t = some part →
    hasIdentity s = true →
    exchangeOf s t part = none →
    exec (.keyExch t part w w tag) s = .next (s.emit (.spdm t "STATUS" (leBytes 2 0x0702))) ∧ exec (.keyDeliver t part slot w tag) s = .next (s.emit (.spdm t "STATUS" (leBytes 2 0x0702)))) ∧
  (∀ (part : Nat) (x : Exchange) (s : State),
    s.mgc.off = false →
    tget s.sec.exchanges part = some x →
    exec (.keyExchangeTimeout part) s = .next (spdmAnswer x.transport "STATUS" (leBytes 2 0x0702)
      (({ s with sec := { s.sec with exchanges := tdel s.sec.exchanges part } }).setF (Reg.secPbKeysExchange part) 0))) ∧
  (∀ (t n : Nat) (s : State),
    failExchange t n .keyAuth s = spdmAnswer t "STATUS" (leBytes 2 0x0703) (logEv .secKeyAuth pSec n [n]
      ((({ s with sec := { s.sec with exchanges := tdel s.sec.exchanges n } }).setF (Reg.secPbKeysExchange n) 0).bump Ctr.secKeyAuthFailures)))

/-- 13 R439-R441: the debug surface, what it reads of memory, and how each use shows. What a halted core's step computes is the core's own program (log 44). -/
def Obligations.DebugSurface : Prop :=
  (∀ (core : Nat) (s : State),
    debugLive s = true →
    core < 72 →
    s.mgc.coresHalted.contains core = false →
    let u := ({ s with mgc := { s.mgc with coresHalted := s.mgc.coresHalted ++ [core] } }).bump Ctr.secDebugHalts
    exec (.debugHalt core) s = .next (logEv .secDebug pSec 0xFF [0, core, 0, 0] (u.setF Reg.secDebugEvents (s.getF Reg.secDebugEvents + 1)))) ∧
  (∀ (core : Nat) (s : State),
    debugLive s = true →
    s.mgc.coresHalted.contains core = true →
    let u := { s with mgc := { s.mgc with coresHalted := s.mgc.coresHalted.filter (· != core) } }
    exec (.debugResume core) s = .next (coreFreed (logEv .secDebug pSec 0xFF [1, core, 0, 0] (u.setF Reg.secDebugEvents (s.getF Reg.secDebugEvents + 1))))) ∧
  (∀ (core len : Nat) (act : CoreAct) (s : State),
    debugLive s = true →
    s.mgc.coresHalted.contains core = true →
    s.pwr ≠ pwrQuiesce ∧ s.pwr ≠ pwrMgmt →
    exec (.debugStep { core := core, len := len, act := act }) s = .next (coreStep core len act (traceStep core s)) ∧
    (s.flag (Reg.blkCtrlTraceEn (corePage core)) = false → traceStep core s = s)) ∧
  (∀ (core len : Nat) (act : CoreAct) (s : State),
    s.mgc.coresHalted.contains core = false →
    exec (.debugStep { core := core, len := len, act := act }) s = .next s) ∧
  (∀ (core t len pc rd v : Nat) (s : State),
    (s.core core).ready = some t →
    rd ≠ 0 →
    let u := coreStep core len (.inner [(rd, v), (0, v)] [] [] [] pc) s
    let h := (u.core core).hart t
    (u.core core).current = t ∧ h.pc = pc ∧ tgetD h.x rd 0 = v ∧ (∀ r, r ≠ rd → tgetD h.x r 0 = tgetD ((s.core core).hart t).x r 0) ∧
    (∀ k, k ≠ t → (u.core core).hart k = (s.core core).hart k) ∧ (∀ k, k ≠ core → u.core k = s.core k) ∧
    u = { s with mgc := { s.mgc with cores := u.mgc.cores } }) ∧
  (∀ (core len : Nat) (act : CoreAct) (s : State),
    (s.core core).ready = none →
    coreStep core len act s = s) ∧
  (∀ (core t rd addr size len : Nat) (signed : Bool) (s : State),
    ((s.core core).hart t).wait = .load rd addr size signed len →
    rd ≠ 0 →
    let u := loadDead core t s
    let h := (s.core core).hart t
    let k := (u.core core).hart t
    tgetD k.x rd 0 = 2 ^ 64 - 1 ∧ k.wait = .none ∧ tgetD k.csr 0x341 0 = h.pc ∧ tgetD k.csr 0x342 0 = 5 ∧ tgetD k.csr 0x343 0 = addr ∧
    k.pc = tgetD h.csr 0x305 0 / 4 * 4 ∧ k.priv = 3) ∧
  (∀ (a n : Nat) (s : State),
    debugLive s = true →
    a + n ≤ 47 * gib →
    a + n ≤ s.getF (Reg.tmgTierCapSize4k 0) * 4096 →
    s.ssq.sessions = [] →
    s.tmg.areas = [] →
    s.frc.withdrawn = [] →
    s.getF Reg.tmgDirBaseAddr = 0 →
    objectsIn s 0 = [] →
    exec (.debugMemoryRead 0 a n) s = .next ((debugEvent 2 0 a n (s.bump Ctr.secDebugReads)).emit (.debugData (memRead s.t0 a n)))) ∧
  (∀ (space a n : Nat) (s : State),
    debugLive s = true →
    (space = 4 ∧ a + n ≤ 160 * 2 ^ 20) ∨ (space = 5 ∧ a + n ≤ 40 * 2 ^ 20) →
    exec (.debugMemoryRead space a n) s = .next ((debugEvent 2 space a n (s.bump Ctr.secDebugReads)).emit (.debugData (arrayBytes s space a n)))) ∧
  (∀ (space a n : Nat) (s : State),
    (space = 4 ∧ 160 * 2 ^ 20 < a + n) ∨ (space = 5 ∧ 40 * 2 ^ 20 < a + n) →
    exec (.debugMemoryRead space a n) s = .next s) ∧
  (∀ (core len : Nat) (act : CoreAct) (space a n : Nat) (s : State),
    debugLive s = false →
    exec (.debugHalt core) s = .next s ∧ exec (.debugResume core) s = .next s ∧ exec (.debugStep { core := core, len := len, act := act }) s = .next s ∧ exec (.debugMemoryRead space a n) s = .next s)

/-- 04 R143 and 16 R517: the expert operations of the page directory; 04 R142: recovery. That STATUS 3 answers a session or a page that is not mapped follows 16 R517. -/
def Obligations.ExpertPageOperations : Prop :=
  (∀ (via h : Nat) (r : PageRec) (s : State),
    s.expertOpen pTmg via = true →
    s.rec? h = some r →
    (((s.setF Reg.tmgPageOpHandle h).setF Reg.tmgPageOpOp 1).expertObject pTmg via r.part) = true →
    exec (.tmgReadRecord via h) s = .next (countIo via (showBytes Reg.tmgPageRecData 4 (recBytes r) (((s.setF Reg.tmgPageOpHandle h).setF Reg.tmgPageOpOp 1).setF Reg.tmgPageOpStatStatus 0)))) ∧
  (∀ (via h : Nat) (r : PageRec) (s : State),
    s.expertOpen pTmg via = true →
    s.rec? h = some r →
    (((s.setF Reg.tmgPageOpHandle h).setF Reg.tmgPageOpOp 2).expertObject pTmg via r.part) = true →
    ((((s.setF Reg.tmgPageOpHandle h).setF Reg.tmgPageOpOp 2).setF Reg.tmgPageOpStatStatus 0).tierUp r.tier = false →
      exec (.tmgReadHeader via h) s = .next (countIo via (startRecovery h (((s.setF Reg.tmgPageOpHandle h).setF Reg.tmgPageOpOp 2).setF Reg.tmgPageOpStatStatus 0)))) ∧
    ((((s.setF Reg.tmgPageOpHandle h).setF Reg.tmgPageOpOp 2).setF Reg.tmgPageOpStatStatus 0).tierUp r.tier = true →
      exec (.tmgReadHeader via h) s = .next (countIo via (showBytes Reg.tmgPageHdrData 8 ((pageBytes (((s.setF Reg.tmgPageOpHandle h).setF Reg.tmgPageOpOp 2).setF Reg.tmgPageOpStatStatus 0) r).take 64) (((s.setF Reg.tmgPageOpHandle h).setF Reg.tmgPageOpOp 2).setF Reg.tmgPageOpStatStatus 0))))) ∧
  (∀ (via h : Nat) (r : PageRec) (s : State),
    Live s →
    s.expertOpen pTmg via = true →
    s.rec? h = some r →
    (((s.setF Reg.tmgPageOpHandle h).setF Reg.tmgPageOpOp 3).expertObject pTmg via r.part) = true →
    exec (.markRecovery via h) s = .next (countIo via (startRecovery h (((s.setF Reg.tmgPageOpHandle h).setF Reg.tmgPageOpOp 3).setF Reg.tmgPageOpStatStatus 0)))) ∧
  (∀ (via h : Nat) (s : State),
    Live s →
    s.expertOpen pTmg via = true →
    s.rec? h = none →
    exec (.tmgReadRecord via h) s = .next (countIo via (((s.setF Reg.tmgPageOpHandle h).setF Reg.tmgPageOpOp 1).setF Reg.tmgPageOpStatStatus 1)) ∧ exec (.tmgReadHeader via h) s = .next (countIo via (((s.setF Reg.tmgPageOpHandle h).setF Reg.tmgPageOpOp 2).setF Reg.tmgPageOpStatStatus 1)) ∧
    exec (.markRecovery via h) s = .next (countIo via (((s.setF Reg.tmgPageOpHandle h).setF Reg.tmgPageOpOp 3).setF Reg.tmgPageOpStatStatus 1))) ∧
  (∀ (via i layer page h : Nat) (x : Session) (s : State),
    s.expertOpen pTmg via = true →
    tget s.ssq.sessions i = some x →
    x.page layer page = some h →
    ((((s.setF Reg.tmgMapArgSession i).setF Reg.tmgMapArgLayer layer).setF Reg.tmgMapArgPage page).setF Reg.tmgPageOpOp 4).expertObject pTmg via x.part = true →
    exec (.readMap via i layer page) s = .next (countIo via ((((((s.setF Reg.tmgMapArgSession i).setF Reg.tmgMapArgLayer layer).setF Reg.tmgMapArgPage page).setF Reg.tmgPageOpOp 4).setF
      Reg.tmgPageOpHandle h).setF Reg.tmgPageOpStatStatus 0))) ∧
  (∀ (via i layer page : Nat) (s : State),
    s.expertOpen pTmg via = true →
    tget s.ssq.sessions i = none →
    exec (.readMap via i layer page) s = .next (countIo via (((((s.setF Reg.tmgMapArgSession i).setF Reg.tmgMapArgLayer layer).setF Reg.tmgMapArgPage page).setF Reg.tmgPageOpOp 4).setF
      Reg.tmgPageOpStatStatus 3))) ∧
  (∀ (via h i layer page : Nat) (s : State),
    s.expertOpen pTmg via = false →
    exec (.tmgReadRecord via h) s = .next (countIo via s) ∧ exec (.tmgReadHeader via h) s = .next (countIo via s) ∧ exec (.markRecovery via h) s = .next (countIo via s) ∧ exec (.readMap via i layer page) s = .next (countIo via s)) ∧
  (∀ (h : Nat) (r : PageRec) (s : State),
    Live s →
    s.rec? h = some r →
    r.recovery = true →
    exec (.recoveryReadDone h true) s = .next (reviveAll r.part (afterMoves (endLost (markLost h s))))) ∧
  (∀ (h a : Nat) (r : PageRec) (s v u : State),
    Live s →
    s.rec? h = some r →
    r.recovery = true →
    r.lowerValid = true →
    s.tierUp r.lowerTier = true →
    underTest s (expanderUnit s r.lowerTier r.lowerBase) = false →
    takeExpander (expanderInst s r.lowerTier r.lowerBase) (r.slot4k * 4096) (recoveryRequester s h r) (recoveryKey h) s = (v, true) →
    v.rec? h = some r →
    v.tierUp r.lowerTier = true →
    expanderRead {} h r r.lowerTier r.lowerBase v = (u, true) →
    allocSlot u r.part r.tier r.slot4k ((r.layer + r.page + stackIndex u h) % 8) = some a →
    exec (.recoveryReadDone h false) s = .next (reviveAll r.part (afterMoves (endLost (retryRecovery r.part (recoverInto h r (slotBytes u r.lowerTier r.lowerBase r.slot4k) r.tier a u)))))) ∧
  (∀ (h : Nat) (failed : Bool) (r : PageRec) (s : State),
    s.rec? h = some r →
    r.recovery = false →
    exec (.recoveryReadDone h failed) s = .next s)

/-- 16 R517: the expert operations of the prefix engine; 07 R225: a bank that is mapped out; 14 R455: the bank's self-test. -/
def Obligations.ExpertPrefixOperations : Prop :=
  (∀ (via set way : Nat) (e : PmeEntry) (s : State),
    s.expertOpen pPme via = true →
    way < 128 →
    s.flag Reg.pmeSetOpStatBusy = false →
    set < 16384 →
    bankOk s set = true →
    tget s.pme.entries (set * 128 + way) = some e →
    ((((s.setF Reg.pmeSetOpSet (set)).setF Reg.pmeSetOpWay (way)).setF Reg.pmeSetOpPartition (s.getF Reg.pmeSetOpPartition)).setF Reg.pmeSetOpOp 1).expertObject pPme via e.part = true →
    let odd := s.getF Reg.pmeCascadeMode == 2 && ownPosition s % 2 == 1
    exec (.pmeReadEntry via set way) s = .next (countIo via (((((((s.setF Reg.pmeSetOpSet (set)).setF Reg.pmeSetOpWay (way)).setF Reg.pmeSetOpPartition (s.getF Reg.pmeSetOpPartition)).setF Reg.pmeSetOpOp 1).setF Reg.pmeSetOpStatStatus 0).setF (Reg.pmeEntryData 0) (entryWord odd e 0)).setF (Reg.pmeEntryData 1) (entryWord odd e 1)))) ∧
  (∀ (via set way : Nat) (e : PmeEntry) (s : State),
    Live s →
    s.expertOpen pPme via = true →
    way < 128 →
    s.flag Reg.pmeSetOpStatBusy = false →
    set < 16384 →
    bankOk s set = true →
    tget s.pme.entries (set * 128 + way) = some e →
    ((((s.setF Reg.pmeSetOpSet (set)).setF Reg.pmeSetOpWay (way)).setF Reg.pmeSetOpPartition (s.getF Reg.pmeSetOpPartition)).setF Reg.pmeSetOpOp 2).expertObject pPme via e.part = true →
    exec (.dropEntry via set way) s = .next (countIo via (dropAt (.way set way) (((((s.setF Reg.pmeSetOpSet (set)).setF Reg.pmeSetOpWay (way)).setF Reg.pmeSetOpPartition (s.getF Reg.pmeSetOpPartition)).setF Reg.pmeSetOpOp 2).setF Reg.pmeSetOpStatStatus 0)))) ∧
  (∀ (via set way : Nat) (s : State),
    Live s →
    s.expertOpen pPme via = true →
    way < 128 →
    s.flag Reg.pmeSetOpStatBusy = false →
    set < 16384 →
    bankOk s set = true →
    tget s.pme.entries (set * 128 + way) = none →
    exec (.pmeReadEntry via set way) s = .next (countIo via (((((s.setF Reg.pmeSetOpSet (set)).setF Reg.pmeSetOpWay (way)).setF Reg.pmeSetOpPartition (s.getF Reg.pmeSetOpPartition)).setF Reg.pmeSetOpOp 1).setF Reg.pmeSetOpStatStatus 1)) ∧ exec (.dropEntry via set way) s = .next (countIo via (((((s.setF Reg.pmeSetOpSet (set)).setF Reg.pmeSetOpWay (way)).setF Reg.pmeSetOpPartition (s.getF Reg.pmeSetOpPartition)).setF Reg.pmeSetOpOp 2).setF Reg.pmeSetOpStatStatus 1))) ∧
  (∀ (via set : Nat) (s : State),
    Live s →
    s.expertDevice pPme via = true →
    s.flag Reg.pmeSetOpStatBusy = false →
    set < 16384 →
    bankOk s set = true →
    underTest s (bankUnit (bankOfSet set)) = false →
    let u := ((((s.setF Reg.pmeSetOpSet (set)).setF Reg.pmeSetOpWay (s.getF Reg.pmeSetOpWay)).setF Reg.pmeSetOpPartition (s.getF Reg.pmeSetOpPartition)).setF Reg.pmeSetOpOp 3).setF Reg.pmeSetOpStatStatus 0
    exec (.bankTest via set) s = .next (countIo via (((u.setFrc { s.frc with tests := s.frc.tests ++ [{ unit := bankUnit (bankOfSet set) }] }).setF Reg.pmeSetOpStatBusy 1).bump Ctr.frcSelftestsRun))) ∧
  (∀ (via set : Nat) (s : State),
    Live s →
    s.expertDevice pPme via = true →
    s.flag Reg.pmeSetOpStatBusy = false →
    set < 16384 →
    bankOk s set = true →
    exec (.mapOutBank via set) s = .next (countIo via (mapOutBank (bankOfSet set) (((((s.setF Reg.pmeSetOpSet (set)).setF Reg.pmeSetOpWay (s.getF Reg.pmeSetOpWay)).setF Reg.pmeSetOpPartition (s.getF Reg.pmeSetOpPartition)).setF Reg.pmeSetOpOp 4).setF Reg.pmeSetOpStatStatus 0)))) ∧
  (∀ (bank : Nat) (s : State),
    (s.pme.entries.filter fun e => bankOfSet (e.1 / 128) == bank) = [] →
    mapOutBank bank s = logEv .pmeBankMappedOut pPme 0xFF [bank] (modPme (fun p => { p with entries := p.entries.filter fun e => bankOfSet (e.1 / 128) != bank })
      (s.setF Reg.pmeGeomBanksOk (clrBit (s.getF Reg.pmeGeomBanksOk) bank)))) ∧
  (∀ (via set way : Nat) (s : State),
    Live s →
    s.expertDevice pPme via = true →
    way < 128 →
    s.flag Reg.pmeSetOpStatBusy = false →
    set < 16384 →
    bankOk s set = false →
    exec (.pmeReadEntry via set way) s = .next (countIo via (((((s.setF Reg.pmeSetOpSet (set)).setF Reg.pmeSetOpWay (way)).setF Reg.pmeSetOpPartition (s.getF Reg.pmeSetOpPartition)).setF Reg.pmeSetOpOp 1).setF Reg.pmeSetOpStatStatus 3)) ∧ exec (.bankTest via set) s = .next (countIo via (((((s.setF Reg.pmeSetOpSet (set)).setF Reg.pmeSetOpWay (s.getF Reg.pmeSetOpWay)).setF Reg.pmeSetOpPartition (s.getF Reg.pmeSetOpPartition)).setF Reg.pmeSetOpOp 3).setF Reg.pmeSetOpStatStatus 3)) ∧
    exec (.mapOutBank via set) s = .next (countIo via (((((s.setF Reg.pmeSetOpSet (set)).setF Reg.pmeSetOpWay (s.getF Reg.pmeSetOpWay)).setF Reg.pmeSetOpPartition (s.getF Reg.pmeSetOpPartition)).setF Reg.pmeSetOpOp 4).setF Reg.pmeSetOpStatStatus 3))) ∧
  (∀ (via part : Nat) (s : State),
    Live s →
    s.expertOpen pPme via = true →
    part < 16 →
    s.flag Reg.pmeSetOpStatBusy = false →
    ((((s.setF Reg.pmeSetOpSet (s.getF Reg.pmeSetOpSet)).setF Reg.pmeSetOpWay (s.getF Reg.pmeSetOpWay)).setF Reg.pmeSetOpPartition (part)).setF Reg.pmeSetOpOp 5).expertObject pPme via part = true →
    s.pme.sweeps.contains part = false →
    exec (.sweepColumns via part) s = .next (countIo via (modPme (fun p => { p with sweeps := s.pme.sweeps ++ [part] }) ((((((s.setF Reg.pmeSetOpSet (s.getF Reg.pmeSetOpSet)).setF Reg.pmeSetOpWay (s.getF Reg.pmeSetOpWay)).setF Reg.pmeSetOpPartition (part)).setF Reg.pmeSetOpOp 5).setF Reg.pmeSetOpStatStatus 0).setF Reg.pmeSetOpStatBusy 1)))) ∧
  (∀ (via set : Nat) (s : State),
    s.flag Reg.pmeSetOpStatBusy = true →
    exec (.bankTest via set) s = .next (countIo via s) ∧ exec (.mapOutBank via set) s = .next (countIo via s) ∧ exec (.sweepColumns via set) s = .next (countIo via s) ∧ exec (.dropEntry via set 0) s = .next (countIo via s))

/-- 07 R217: holes; R219: ageing; R226: a slot's timeout; R231 and R232: imports; R233: publication at a commit; R239: sweeps. -/
def Obligations.PrefixUpkeep : Prop :=
  (∀ (i last : Nat) (x : Session) (s : State),
    Live s →
    tget s.ssq.sessions i = some x →
    (s.pme.toPublish.find? fun r => r.1 == x.handle) = some (x.handle, last) →
    exec (.prefixPublication i) s = .next (publishSession i last (modPme (fun p => { p with toPublish := p.toPublish.filter fun q => q.1 != x.handle }) s)).1) ∧
  (∀ (i : Nat) (s : State),
    s.pme.toPublish = [] →
    exec (.prefixPublication i) s = .next s) ∧
  (∀ (set : Nat) (s : State),
    Live s →
    set < 16384 →
    (holeMaintain 16 (readSet s set)).2 ≠ 0 →
    inSled s = false ∨ s.getF Reg.pmeCascadeMode ≠ 1 →
    exec (.holeMaintenance set) s = .next ((writeSet set (holeMaintain 16 (readSet s set)).1 s).bumpBy Ctr.pmeHoleMoves (holeMaintain 16 (readSet s set)).2)) ∧
  (∀ (set d : Nat) (s u : State),
    Live s →
    set < 16384 →
    (holeMaintain 16 (readSet s set)).2 ≠ 0 →
    beyondHoles s = (d, u) →
    (crossFrom d (readSet s set) = none →
      exec (.holeMaintenance set) s = .next ((writeSet set (holeMaintain 16 (readSet s set)).1 u).bumpBy Ctr.pmeHoleMoves (holeMaintain 16 (readSet s set)).2)) ∧
    (∀ g n e l, crossFrom d (readSet s set) = some g →
      crossMoves (16 - g) g none (readSet s set) = (l, some e, n) →
      exec (.holeMaintenance set) s = .next ((markAway e true ((writeSet set l u).bumpBy Ctr.pmeHoleMoves n)).emit (.flit "MOVE" (entryWords set e.part e) [])))) ∧
  (∀ (set : Nat) (s : State),
    set < 16384 →
    (holeMaintain 16 (readSet s set)).2 = 0 →
    exec (.holeMaintenance set) s = .next s) ∧
  (∀ (bank : Nat) (s : State),
    Live s →
    s.getF Reg.pmeAgeLookups ≤ tgetD s.pme.probes bank 0 →
    exec (.hitsAgeing bank) s = .next (modPme (fun p => { p with probes := tdel p.probes bank, entries := p.entries.map fun e => if bankOfSet (e.1 / 128) = bank then (e.1, { e.2 with hits := e.2.hits / 2 }) else e }) s)) ∧
  (∀ (bank : Nat) (s : State),
    tgetD s.pme.probes bank 0 < s.getF Reg.pmeAgeLookups →
    exec (.hitsAgeing bank) s = .next s) ∧
  (∀ (part : Nat) (s : State),
    Live s →
    s.pme.sweeps.contains part = true →
    let u := columnSweep part (modPme (fun p => { p with sweeps := p.sweeps.filter (· != part) }) s)
    exec (.columnSweep part) s = .next (if u.getF Reg.pmeSetOpOp = 5 ∧ u.getF Reg.pmeSetOpPartition = part then u.setF Reg.pmeSetOpStatBusy 0 else u)) ∧
  (∀ (part : Nat) (s : State),
    s.pme.sweeps.contains part = false →
    exec (.columnSweep part) s = .next s) ∧
  (∀ (n : Nat) (s : State),
    Live s →
    s.pme.pendings.any (·.id == n) = false →
    exec (.lookupSlotTimeout n) s = .next (modPme (fun m => { m with slots := tdel m.slots n }) s)) ∧
  (∀ (n : Nat) (s : State),
    s.pme.pendings.any (·.id == n) = true →
    exec (.lookupSlotTimeout n) s = .next s) ∧
  (∀ (id i : Nat) (m : Import) (x : Session) (s : State),
    Live s →
    tget s.pme.imports id = some m →
    namedSession m.cmd.part m.session (endSystem m.region (modPme (fun p => { p with imports := tdel p.imports id }) s)) = .inr (i, x) →
    exec (.importDone id none) s = .next (complete m.cmd { status := .prefixStale } (endSystem m.region (modPme (fun p => { p with imports := tdel p.imports id }) s)))) ∧
  (∀ (id i n : Nat) (m : Import) (x : Session) (y : Model) (d : ImportData) (q : Slot) (pages : List (Nat × Nat)) (s u : State),
    Live s →
    tget s.pme.imports id = some m →
    let t := endSystem m.region (modPme (fun p => { p with imports := tdel p.imports id }) s)
    namedSession m.cmd.part m.session t = .inr (i, x) →
    t.model? x.part x.model = some y →
    mayAttach x = true →
    x.ident = m.ident →
    d.dead = false →
    d.contents.length = m.tokens.length / 32 →
    d.pages.length = m.tokens.length / 32 * y.layers →
    d.pages.all (fun b => b.length == 4096 * y.geom.slot4k (fieldAt b 3 1)) = true →
    importPages i y.layers y.profile y.geom x.part d.pages t = some (u, pages) →
    cursorSlot u m.cmd.part (m.cmd.arg 8 4) = some (n, q) →
    let v := (attachPages i 0x0303 m.cmd m.tokens pages d.publisher d.final d.contents (modPme (fun p => { p with slots := tdel p.slots n }) u)).bump Ctr.pmeImports
    exec (.importDone id (some d)) s = .next (complete m.cmd { result0 := m.tokens.length / 32, seq := seqOf v i } v)) ∧
  (∀ (id : Nat) (what : Option ImportData) (s : State),
    tget s.pme.imports id = none →
    exec (.importDone id what) s = .next s)

/-- 07 R240-R243: the cascade, its messages and frames; R242 with 15 R494 and R508: what isolates a member. -/
def Obligations.SledMessages : Prop :=
  (∀ (origin id seg part session : Nat) (hs ws ts : List Nat) (s : State),
    Live s →
    inSled s = true →
    inCascade s = true →
    origin ≠ ownPosition s →
    inSled (s.emit (lookupFlit origin id seg (queryFrom part session hs ws ts))) = true →
    let q := queryFrom part session hs ws ts
    exec (.cascadeLookup origin id seg part session hs ws ts) s = .next (memberCompare origin id seg q (s.emit (lookupFlit origin id seg q)))) ∧
  (∀ (id seg part session : Nat) (hs ws ts : List Nat) (p : Pending) (s : State),
    Live s →
    inCascade s = true →
    (s.pme.pendings.find? fun p => p.id == id && !p.returned.contains seg) = some p →
    p.segments.head? = some seg →
    p.forwarded = false →
    p.next = false →
    exec (.cascadeLookup (ownPosition s) id seg part session hs ws ts) s = .next ((putPending { p with returned := p.returned ++ [seg] } s).emit (resolveFlit (ownPosition s) id seg))) ∧
  (∀ (origin id seg : Nat) (s : State),
    Live s →
    inSled s = true →
    inCascade s = true →
    origin ≠ ownPosition s →
    ownPosition s ≠ 0 →
    exec (.resolve origin id seg) s = .next (s.emit (resolveFlit origin id seg))) ∧
  (∀ (id seg : Nat) (s : State),
    Live s →
    inSled s = true →
    inCascade s = true →
    ownPosition s = 0 →
    exec (.resolve 0 id seg) s = .next (modPme (fun m => { m with frames := m.frames ++ [(0, id, seg)] }) s)) ∧
  (∀ (origin id seg : Nat) (hitIn : Bool) (k : Option RemoteColumn) (s : State),
    Live s →
    inSled s = true →
    inCascade s = true →
    ownPosition s ≠ 0 →
    s.pme.sled = [] →
    hitIn = true ∨ ownPosition s + 1 ≠ s.getF Reg.pmeCascadeMembers →
    exec (.matchFrame origin id seg hitIn k) s = .next ((s.bump Ctr.pmeCascadeFrames).emit (.matchOut [1, if hitIn then 1 else 0]))) ∧
  (∀ (origin id seg : Nat) (k : Option RemoteColumn) (x : SledQuery) (c : Cand) (l : List Cand) (h : PrefixHit) (s u : State),
    Live s →
    inSled s = true →
    inCascade s = true →
    ownPosition s ≠ 0 →
    (s.pme.sled.find? fun x => x.origin == origin && x.id == id && x.segment == seg) = some x →
    x.q.cands = c :: l →
    verifySled x.q c k (modPme (fun m => { m with sled := m.sled.map fun y => if y = x then { x with q := { x.q with cands := l } } else y }) ((s.bump Ctr.pmeCascadeFrames).emit (.matchOut [1, 1]))) = (u, some h) →
    exec (.matchFrame origin id seg false k) s = .next (sledAnswer origin id seg (some h) (l.any fun d => d.entry.page + 1 == h.depth) (countHit c u))) ∧
  (∀ (origin id seg : Nat) (hitIn : Bool) (k : Option RemoteColumn) (s : State),
    Live s →
    inCascade s = true →
    inSled s = false →
    exec (.matchFrame origin id seg hitIn k) s = .next (s.emit (.matchOut [0, 0]))) ∧
  (∀ (id seg : Nat) (hit : Option PrefixHit) (multi : Bool) (s : State),
    Live s →
    inSled s = true →
    exec (.cascadeResult id seg hit multi) s = .next (sledResult id seg hit multi s)) ∧
  (∀ (id seg : Nat) (h : PrefixHit) (multi : Bool) (p : Pending) (s : State),
    (s.pme.pendings.find? fun p => p.id == id && !p.forwarded && p.segments.head? == some seg) = some p →
    p.q.cands = [] →
    sledResult id seg (some h) multi s = settleLookup { p with q := { p.q with cands := [], named := none, spare := none }, best := some h, multi := multi } s) ∧
  (∀ (id seg : Nat) (s : State),
    Live s →
    inSled s = true →
    s.pme.pendings.any (fun p => p.id == id && !p.forwarded && p.segments.head? == some seg) = true →
    exec (.cascadeReject id seg) s = .next (s.emit (resolveFlit (ownPosition s) id seg))) ∧
  (∀ (set home column by_ : Nat) (e : PmeEntry) (mirror : Bool) (s : State),
    Live s →
    inSled s = true →
    set < 16384 →
    bankOk s set = true →
    exec (.cascadeMove set (.put e mirror by_)) s = .next (chipInsert by_ set e mirror (markAway e false s)) ∧
    exec (.cascadeMove set (.drop home column)) s = .next (dropWhere (fun e => e.home == home && e.column == column) s) ∧
    exec (.cascadeMove set (.mateDrop home column)) s = .next (modPme (fun p => { p with entries := p.entries.filter fun x => !(x.2.home == home && x.2.column == column) }) s)) ∧
  (∀ (set n column home origin id seg : Nat) (ways : BitVec 128) (e : PmeEntry) (c : Column) (s : State),
    Live s →
    inSled s = true →
    set < 16384 →
    (tget s.pme.columns column = some c → c.away = true →
      exec (.cascadeMove set (.gone column)) s = .next (unhold column (modPme (fun p => { p with columns := tmod p.columns column fun c => { c with away := false } }) s))) ∧
    (tget s.pme.columns column = some c → c.away = false → exec (.cascadeMove set (.gone column)) s = .next s) ∧
    (tget s.pme.columns column = some c → c.away = true → s.pme.sweeps.contains c.part = false →
      exec (.cascadeMove set (.lost column)) s = .next (modPme (fun p => { p with columns := tset p.columns column { c with away := false }, sweeps := p.sweeps ++ [c.part] }) s)) ∧
    (bankOk s set = false → exec (.cascadeMove set (.put e false n)) s = .next (toCold e (markAway e false s)).1) ∧
    exec (.cascadeMove set (.mateHit home column)) s = .next (modPme (fun p => { p with entries := p.entries.map fun x =>
      if x.2.home = home ∧ x.2.column = column then (x.1, { x.2 with hits := min 15 (x.2.hits + 1) }) else x }) s) ∧
    (s.pme.sled.any (fun q => q.origin == origin && q.id == id && q.segment == seg) = false →
      exec (.cascadeMove set (.wayMatch origin id seg ways)) s = .next s)) ∧
  (∀ (s : State),
    Live s →
    inSled s = true →
    inCascade s = true →
    s.flag Reg.pmeCascadeIsolated = false →
    s.pme.pendings = [] →
    let u := modPme (fun m => { m with frames := [], sled := [] }) (logEv .pmeCascadeIsolated pPme 0xFF [ownPosition s] (s.setF Reg.pmeCascadeIsolated 1))
    exec .cascadeNeighbourLinkFail s = .next u ∧ exec .cascadeLockTimeout s = .next u) ∧
  (∀ (s : State),
    Live s →
    inSled s = true →
    ownPosition s ≠ 0 →
    exec .matchInStuck s = .next (isolate (logEv .mgcPinMasked pMgc 0xFF [2] ((s.satAdd (Reg.mgcPinStuck 2) 1).setF (Reg.mgcPinMasked 2) 1)))) ∧
  (∀ (recent : Nat) (s : State),
    Live s →
    inSled s = true →
    ownPosition s ≠ 0 →
    exec (.matchInViolation recent) s = .next (if 16 ≤ recent then isolate (logEv .mgcPinMasked pMgc 0xFF [2] ((s.satAdd (Reg.mgcPinDropped 2) 1).setF (Reg.mgcPinMasked 2) 1))
      else s.satAdd (Reg.mgcPinDropped 2) 1)) ∧
  (∀ (a b n : Nat) (s : State),
    inCascade s = false →
    exec (.resolve a b n) s = .next s ∧ exec (.cascadeReject a b) s = .next s ∧ exec .matchInStuck s = .next s ∧ exec .cascadeLockTimeout s = .next s ∧ exec (.cascadeMove a (.gone b)) s = .next s)

/-- 07 R244: forwarding and its access; R245: the answer. 07 R226 and 16 R528: what ends the PREFIX_LOOKUP of a lookup. -/
def Obligations.ForwardedLookups : Prop :=
  (∀ (node id part hops depth v : Nat) (hs ws ts : List Nat) (s : State),
    Live s →
    s.nodeValid = true →
    governing s part node part = some v →
    entryKind v = 1 →
    let u := modPme (fun p => { p with nextId := s.pme.nextId + 1 }) (s.bump Ctr.pmeLookups)
    exec (.fwdLookup node id part hops depth hs ws ts) s = .next (startLookup { id := s.pme.nextId, from_ := some { node := node, id := id }, q := queryFrom part 0 hs ws ts, hops := hops } u)) ∧
  (∀ (node id part hops depth : Nat) (hs ws ts : List Nat) (s : State),
    Live s →
    s.nodeValid = true →
    governing s part node part = none →
    exec (.fwdLookup node id part hops depth hs ws ts) s = .next (sendCtlTo node none none { op := 0x71, dst := node, src := s.node, seq := id } (leBytes 1 6 ++ leBytes 1 5 ++ zeros 70)
      ((logFull .xfeAccessViolation pXfe 0 part 2 0 [node, id, part, 5] (s.bump Ctr.xfeAccessNaksSent)).bump Ctr.xfeNaksSent))) ∧
  (∀ (node id part hops depth : Nat) (hs ws ts : List Nat) (hit : Option PrefixHit) (s : State),
    Live s →
    s.nodeValid = false →
    exec (.fwdLookup node id part hops depth hs ws ts) s = .next (s.bump Ctr.xfeNotAssigned) ∧ exec (.fwdAnswer id hit) s = .next (s.bump Ctr.xfeNotAssigned)) ∧
  (∀ (id : Nat) (h : PrefixHit) (p : Pending) (s : State),
    Live s →
    s.nodeValid = true →
    (s.pme.pendings.find? fun p => p.fwdId == id && p.forwarded) = some p →
    p.q.named = none →
    depthOf p.best + s.getF Reg.pmeFwdMinGain ≤ h.depth →
    exec (.fwdAnswer id (some h)) s = .next (answerLookup { p with q := { p.q with cands := p.q.cands, named := none, spare := p.best }, best := some { h with fwd := 1 }, multi := false } 1 s)) ∧
  (∀ (id : Nat) (hit : Option PrefixHit) (p : Pending) (s : State),
    Live s →
    s.nodeValid = true →
    (s.pme.pendings.find? fun p => p.fwdId == id && p.forwarded) = some p →
    hit = none ∨ depthOf hit < depthOf p.best + s.getF Reg.pmeFwdMinGain →
    exec (.fwdAnswer id hit) s = .next (answerLookup p 0 s)) ∧
  (∀ (id : Nat) (p : Pending) (s : State),
    Live s →
    (s.pme.pendings.find? fun p => p.fwdId == id && p.forwarded) = some p →
    exec (.fwdTimeout id) s = .next (answerLookup p 2 (logEv .pmeFwdTimeout pPme p.q.part [s.getF Reg.pmeFwdParentNode, depthOf p.best] (s.bump Ctr.pmeFwdTimeouts)))) ∧
  (∀ (id : Nat) (hit : Option PrefixHit) (s : State),
    s.nodeValid = true →
    (s.pme.pendings.find? fun p => p.fwdId == id && p.forwarded) = none →
    exec (.fwdAnswer id hit) s = .next s ∧ exec (.fwdTimeout id) s = .next s) ∧
  (∀ (p : Pending) (fwd : Nat) (c : Cmd) (s : State),
    p.from_ = none →
    p.cmd = some c →
    p.next = false →
    p.best = none →
    let u := modPme (fun m => { m with slots := tmod m.slots p.id fun _ => p.q }) (dropPending p.id s)
    answerLookup p fwd s = complete c { result0 := 0, result1 := cursorOf u p.id, data := some (c.dlen - 32, resultBytes none p.multi fwd (cursorOf u p.id)) } u)

/-- 16 R512 and R513 and 00 R11-R14: register access, who may write a field and which values; R516: the expert windows and their key; R517: SSQ.WHEEL; R519 and R515: injection and the operator's self-test. -/
def Obligations.RegisterWrites : Prop :=
  (∀ (via o v : Nat) (r : RegRow) (f : Fld) (s : State),
    s.fnLive via = true →
    via ≠ fromI3c →
    o < bar4Base →
    o % 8 = 0 →
    wordFields o = [(r, f)] →
    f.off = o →
    r.lo + r.width ≤ 64 →
    s.mayWrite via o r.wr = true →
    r.w1c = false →
    o / 0x10000 ≠ pSsq →
    exec (.registerWrite via o 8 v) s = .next (countIo via (if s.listed o r.chk (bits v r.lo r.width) then s.setF f (bits v r.lo r.width) else s))) ∧
  (∀ (via o v : Nat) (r : RegRow) (f : Fld) (s : State),
    s.fnLive via = true →
    via ≠ fromI3c →
    o < bar4Base →
    o % 8 = 0 →
    wordFields o = [(r, f)] →
    f.off = o →
    r.lo + r.width ≤ 64 →
    s.mayWrite via o r.wr = true →
    r.w1c = true →
    f ≠ Reg.blkErrstateSecondary (o / 0x10000) →
    o / 0x10000 ≠ pSsq →
    exec (.registerWrite via o 8 v) s = .next (countIo via (s.setF f ((s.getF f) &&& (2 ^ f.width - 1 - bits v r.lo r.width % 2 ^ f.width))))) ∧
  (∀ (via o v : Nat) (s : State),
    via ≠ fromI3c →
    o < bar4Base →
    o % 8 = 0 →
    o / 0x10000 ≠ pSsq →
    (wordFields o).all (fun x => !s.mayWrite via x.2.off x.1.wr) = true →
    exec (.registerWrite via o 8 v) s = .next (countIo via s)) ∧
  (∀ (via o size v : Nat) (s : State),
    (size ≠ 4 ∧ size ≠ 8) ∨ o % size ≠ 0 →
    exec (.registerWrite via o size v) s = .next (countIo via s)) ∧
  (∀ (slot mp mo : Nat) (s : State),
    s.fnShown 0 = true →
    s.mgc.off = false →
    (page? slot).isSome = true →
    mp < 2 ^ 16 ∧ mo ≤ 1 →
    s.getF (Reg.blkExpertUnlockMaskPart slot) ≠ mp ∨ s.getF (Reg.blkExpertUnlockMaskOper slot) ≠ mo →
    exec (.blkExpertUnlockWrite 0 slot mp mo 0xE4E4) s = .next (countIo 0 (logEv .mgcExpertUnlock pMgc 0xFF [slot, mp, mo]
      ((s.setF (Reg.blkExpertUnlockMaskPart slot) mp).setF (Reg.blkExpertUnlockMaskOper slot) mo)))) ∧
  (∀ (via slot mp mo key : Nat) (s : State),
    via ≠ 0 ∨ key ≠ 0xE4E4 ∨ (page? slot).isNone = true →
    exec (.blkExpertUnlockWrite via slot mp mo key) s = .next (countIo via s)) ∧
  (∀ (slot v : Nat) (s : State),
    s.fnShown 0 = true →
    Live s →
    (page? slot).isSome = true →
    v = 1 ∨ v = 2 →
    s.flag (Reg.blkExpertUnlockMaskOper slot) = true →
    tget s.frc.injected slot = none →
    exec (.blkInject 0 slot v) s = .next (countIo 0 (logFull (.injected (pageType slot)) slot (pageInst slot) 0xFF 0 0 [v] (s.setFrc { s.frc with injected := tset s.frc.injected slot v })))) ∧
  (∀ (via slot v : Nat) (s : State),
    via ≠ 0 ∨ s.flag (Reg.blkExpertUnlockMaskOper slot) = false →
    exec (.blkInject via slot v) s = .next (countIo via s)) ∧
  (∀ (slot res kind : Nat) (u : Resource) (s : State),
    s.fnShown 0 = true →
    Live s →
    (page? slot).isSome = true →
    s.flag (Reg.blkSelftestBusy slot) = false →
    namedUnit s slot kind res = some u →
    kind ≠ 6 →
    isRetired s u = false ∧ underTest s u = false →
    let v := ((s.setF (Reg.blkSelftestResource slot) res).setF (Reg.blkSelftestKind slot) kind).setF (Reg.blkSelftestResult slot) 0
    exec (.blkSelftestGo 0 slot res kind) s = .next (countIo 0 (((v.setF (Reg.blkSelftestBusy slot) 1).setFrc { s.frc with tests := s.frc.tests ++ [{ unit := u, log := slot, inst := unitInst u }] }).bump Ctr.frcSelftestsRun))) ∧
  (∀ (via slot res kind : Nat) (s : State),
    via ≠ 0 ∨ (kindListed slot kind = true ∧ namedUnit s slot kind res = none) ∨ s.flag (Reg.blkSelftestBusy slot) = true →
    exec (.blkSelftestGo via slot res kind) s = .next (countIo via s)) ∧
  (∀ (slot res kind : Nat) (s : State),
    kindListed slot kind = false →
    exec (.blkSelftestGo 0 slot res kind) s = exec (.blkSelftestGo 0 slot res (s.getF (Reg.blkSelftestKind slot))) s) ∧
  (∀ (via size v : Nat) (s : State),
    via ≠ fromI3c →
    migrateOk (writeWord via Reg.tmgMigrateHiWater.off 0 size v (fun _ => true) s) = false →
    exec (.registerWrite via Reg.tmgMigrateHiWater.off size v) s = .next (countIo via s)) ∧
  (∀ (via w v : Nat) (s : State),
    w < 256 →
    s.expertOpen pSsq via = true →
    s.expertObject pSsq via (wheelPart s w) = true →
    s.wheel? w = none →
    exec (.wheelExpertWrite via w 0 v) s = .next (countIo via (([(Reg.ssqWheelPartition w, bits v 0 4), (Reg.ssqWheelValid w, bits v 4 1), (Reg.ssqWheelLayersM1 w, bits v 16 8),
      (Reg.ssqWheelBinding w, bits v 24 4)].foldl (fun s f => s.setF f.1 f.2) s).setF (Reg.ssqWheelLead w) (bits v 8 4))) ∧
    exec (.wheelExpertWrite via w 2 v) s = .next (countIo via (s.setF (Reg.ssqWheelBeatEn w) (bits v 8 1)))) ∧
  (∀ (via w reg v : Nat) (s : State),
    s.expertOpen pSsq via = false →
    exec (.wheelExpertWrite via w reg v) s = .next (countIo via s))

/-- 14 R447-R449: classes, immediate actions and the log; R450 and R451: the handler and the fence; R453 and R455: what a self-test concludes. -/
def Obligations.ErrorsAndSelfTests : Prop :=
  (∀ (slot inst : Nat) (s : State),
    Live s →
    (page? slot).isSome = true →
    isFenced s slot inst = false →
    exec (.errorDetected slot inst .corrected) s = .next (raiseErr { slot := slot, inst := inst, ev := .corrected (pageType slot), cls := .corrected }
      (countCorrected slot inst (s.setFrc { s.frc with injected := tdel s.frc.injected slot })))) ∧
  (∀ (x : ErrIn) (s : State),
    (s.mach (machKey x.slot x.inst)).state = .normal →
    x.unit = none →
    x.cls = .corrected →
    (s.elog x.slot).busy.length < 64 →
    let l := s.elog x.slot
    let i := nextIndex l
    let e : ErrEntry := { ev := x.ev, cls := x.cls, nested := false, part := x.part, inst := x.inst, resource := x.resource, session := x.session, wheel := x.wheel, layer := x.layer, tick := s.tick, detail := x.detail,
                          step := turnStep s x.session, rerun := x.rerun, alone := x.alone, against := x.against }
    raiseErr x s = startHandler 65 x.slot x.inst i (setMach (machKey x.slot x.inst) { s.mach (machKey x.slot x.inst) with state := .handling, current := some i }
      (setElog x.slot { entries := tset l.entries i e, busy := l.busy ++ [i], head := (i + 1) % 64 } s))) ∧
  (∀ (slot inst tier unit : Nat) (s : State),
    Live s →
    (page? slot).isSome = true →
    isFenced s slot inst = false →
    s.sec.badUnits.contains (tier, unit) = false →
    exec (.errorDetected slot inst (.tampered tier unit)) s = .next { s with frc := { s.frc with injected := tdel s.frc.injected slot }, sec := { s.sec with badUnits := s.sec.badUnits ++ [(tier, unit)] } }) ∧
  (∀ (slot inst : Nat) (s : State),
    Live s →
    (page? slot).isSome = true →
    isFenced s slot inst = false →
    exec (.errorDetected slot inst .hub) s = .next (goFatal (raiseErr { slot := slot, inst := inst, ev := .uncorrected (pageType slot), cls := .fatal } (s.setFrc { s.frc with injected := tdel s.frc.injected slot })))) ∧
  (∀ (s : State),
    s.getF Reg.mgcPwrStatState = 1 ∨ s.getF Reg.mgcPwrStatState = 2 →
    goFatal s = (({ s with mgc := { s.mgc with fatal := true, faultN := true } }).setF Reg.mgcPwrStatState 4).bump Ctr.mgcPowerStateChanges) ∧
  (∀ (slot inst : Nat) (s : State),
    Live s →
    (page? slot).isSome = true →
    isFenced s slot inst = false →
    let u := logFull (.errlogFault (pageType slot)) slot inst 0xFF 4 0 [slot, inst] (s.setFrc { s.frc with injected := tdel s.frc.injected slot })
    exec (.errorDetected slot inst .logPath) s = .next (goFatal ((setMach (machKey slot inst) { u.mach (machKey slot inst) with state := .fenced } u).setF (Reg.blkStatFenced slot) 1))) ∧
  (∀ (slot inst n : Nat) (s : State),
    Live s →
    (page? slot).isSome = true →
    isFenced s slot inst = false →
    n < 16 →
    exec (.errorDetected slot inst (.partitionRecord n none)) s = .next (partitionError n (raiseErr { slot := slot, inst := inst, ev := .uncorrected (pageType slot), cls := .partition, part := n, resource := 0 }
      (s.setFrc { s.frc with injected := tdel s.frc.injected slot })))) ∧
  (∀ (n : Nat) (s : State),
    s.pstate n = psActive →
    s.ssq.turns.filter (fun t => t.part == n) = [] →
    partitionError n s = settleDrain n (logEv .mgcPartitionState pMgc n [3, 4] (s.setF (Reg.mgcPbCtrlState n) psDraining))) ∧
  (∀ (slot inst : Nat) (e : ErrSource) (s : State),
    isFenced s slot inst = true →
    exec (.errorDetected slot inst e) s = .next s) ∧
  (∀ (slot kind num : Nat) (units : List Nat) (t : SelfTest) (s : State),
    Live s →
    s.frc.tests.find? (·.unit == ⟨slot, kind, num⟩) = some t →
    t.failed = false →
    let u := s.setFrc { s.frc with tests := s.frc.tests.filter (·.unit != ⟨slot, kind, num⟩), held := if kind = 2 then s.frc.held.filter (· != num) else s.frc.held }
    exec (.selftestDone slot kind num true units) s = .next (reportTest t 1 (returnUnit ⟨slot, kind, num⟩ (addTransient ⟨slot, kind, num⟩ (u.bump Ctr.frcSelftestTransient))))) ∧
  (∀ (slot kind num : Nat) (units : List Nat) (t : SelfTest) (s : State),
    Live s →
    s.frc.tests.find? (·.unit == ⟨slot, kind, num⟩) = some t →
    let u := s.setFrc { s.frc with tests := s.frc.tests.filter (·.unit != ⟨slot, kind, num⟩), held := if kind = 2 then s.frc.held.filter (· != num) else s.frc.held }
    exec (.selftestDone slot kind num false units) s = .next (reportTest t 2 (retireUnit ⟨slot, kind, num⟩ units (u.bump Ctr.frcSelftestLasting)))) ∧
  (∀ (slot kind num : Nat) (p : Bool) (units : List Nat) (s : State),
    s.frc.tests = [] →
    exec (.selftestDone slot kind num p units) s = .next s)

/-- 13 R436: the boot ROM's checks of an image; 15 R482-R484: the power states and their requests; 15 R495 and R496: the warm reset and what it leaves. -/
def Obligations.FirmwareAndPowerRequests : Prop :=
  (∀ (len4k : Nat) (image : Option (List Byte)) (s : State),
    s.fnShown 0 = true →
    s.booting = true →
    s.sec.fuses.lifecycle ≠ 3 →
    s.getF Reg.mgcBootStage = 1 →
    let u := (s.setF Reg.secFwLoadCtrlLen4k len4k).emit (.hostFetch 0 (s.getF Reg.secFwLoadBase * 4096) (len4k * 4096))
    let im := image.map fun b => slice b 0 (len4k * 4096)
    let v := u.setF Reg.secFwStatResult (fwResult u im)
    exec (.fwLoadGo 0 len4k image) s = .next (countIo 0 (if fwResult u im ≠ 0 then v else
      ((((showBytes Reg.secFwMeasData 8 (slice (im.getD []) 0x20 64) v).setF Reg.secFwVersion (fieldAt (im.getD []) 8 4)).setF Reg.secFwSvn (fieldAt (im.getD []) 0xC 4)).setF Reg.mgcBootFwRunning 1).setF Reg.mgcBootStage 2))) ∧
  (∀ (via len4k : Nat) (image : Option (List Byte)) (s : State),
    via ≠ 0 ∨ s.booting = false ∨ s.sec.fuses.lifecycle = 3 ∨ 2 ≤ s.getF Reg.mgcBootStage →
    exec (.fwLoadGo via len4k image) s = .next (countIo via s)) ∧
  (∀ (via t : Nat) (s : State),
    Table.wf s.regs = true →
    s.mgc.off = false →
    (via = 0 ∧ s.fnShown 0 = true) ∨ via = fromI3c →
    s.getF Reg.mgcPwrCtrlStatus ≠ 3 →
    1 ≤ t ∧ t ≤ 3 →
    s.pwr = pwrRun →
    t = 2 ∨ t = 3 →
    noneBusy s = true →
    let u := s.setF Reg.mgcPwrCtrlTarget t
    exec (.pwrCtrlGo via t) s = .next (countIo via ((u.setF Reg.mgcPwrCtrlStatus 3).setMgc { s.mgc with target := some t }))) ∧
  (∀ (via t : Nat) (s : State),
    s.mgc.off = false →
    (via = 0 ∧ s.fnShown 0 = true) ∨ via = fromI3c →
    s.getF Reg.mgcPwrCtrlStatus ≠ 3 →
    1 ≤ t ∧ t ≤ 3 →
    s.pwr = pwrRun →
    noneBusy s = false →
    exec (.pwrCtrlGo via t) s = .next (countIo via ((s.setF Reg.mgcPwrCtrlTarget t).setF Reg.mgcPwrCtrlStatus 1))) ∧
  (∀ (via t : Nat) (s : State),
    s.mgc.off = false →
    (via = 0 ∧ s.fnShown 0 = true) ∨ via = fromI3c →
    s.getF Reg.mgcPwrCtrlStatus ≠ 3 →
    1 ≤ t ∧ t ≤ 3 →
    s.pwr = pwrHalted →
    exec (.pwrCtrlGo via t) s = .next (countIo via ((s.setF Reg.mgcPwrCtrlTarget t).setF Reg.mgcPwrCtrlStatus 2))) ∧
  (∀ (s : State),
    Live s →
    s.mgc.target = some pwrQuiesce →
    s.pwr = pwrRun →
    exec .powerTransitionDone s = .next ((((s.setF Reg.mgcPwrStatState pwrQuiesce).bump Ctr.mgcPowerStateChanges).setF Reg.mgcPwrCtrlStatus 0).setMgc { s.mgc with target := none })) ∧
  (∀ (s : State),
    Table.wf s.regs = true →
    Live s →
    s.mgc.target = some pwrMgmt →
    s.pwr = pwrRun ∨ s.pwr = pwrQuiesce →
    ∃ t, exec .powerTransitionDone s = .next t ∧ t.pwr = pwrMgmt ∧ t.t0 = [] ∧ t.flag Reg.mgcBootHbmTrained = false ∧ t.flag Reg.mgcBootFwRunning = false ∧ t.mgc.target = none ∧ t.t1 = s.t1 ∧ t.ssq = s.ssq) ∧
  (∀ (s : State),
    s.mgc.target = none →
    exec .powerTransitionDone s = .next s) ∧
  (∀ (via : Nat) (s : State),
    s.mgc.off = false →
    (via = 0 ∧ s.fnShown 0 = true) ∨ via = fromI3c →
    exec (.resetCtrlWrite via 0xB007 1) s = .next (countIo via (warmReset (if via = 0 then 2 else 3) s))) ∧
  (∀ (via key warm : Nat) (s : State),
    (via ≠ 0 ∧ via ≠ fromI3c) ∨ key ≠ 0xB007 ∨ warm ≠ 1 →
    exec (.resetCtrlWrite via key warm) s = .next (countIo via s)) ∧
  (∀ (cause : Nat) (s : State),
    cause < 4 →
    ∃ t, warmReset cause s = t ∧ t.getF Reg.mgcResetCtrlLastCause = cause ∧ t.getF Reg.mgcStrapPos = s.getF Reg.mgcStrapPos % 2 ^ Reg.mgcStrapPos.width ∧ t.t0 = s.t0 ∧ t.t1 = s.t1 ∧ t.t2 = [] ∧ t.t3 = [] ∧
    t.ssq = {} ∧ t.hif = {} ∧ t.xfe = {} ∧ t.pme = {} ∧ t.tmg = {} ∧ t.mgc = { perstHeld := s.mgc.perstHeld } ∧ t.ctrs = [] ∧ t.sec.memKeys = [] ∧ t.sec.fuses = s.sec.fuses.atReset ∧ t.frc.ring4k = s.frc.ring4k ∧ t.cwp.poison = s.cwp.poison ∧ t.pending = s.pending)

/-- 15 R479, R480, R504: the 48 V input and power-on; R485: the power limit and the cap step; R488-R490: the sensors, the thermal step, the trip. How many samples a millisecond holds follows the 100 us period (DEDUCED, log 20). -/
def Obligations.SupplyAndHeat : Prop :=
  (∀ (s : State),
    s.mgc.off = false →
    exec .powerRemoval s = .next { pending := s.pending, out := s.out, free := s.free, sec := { fuses := s.sec.fuses }, frc := { labels := s.frc.labels, ring4k := s.frc.ring4k, areaNext := s.frc.areaNext }, mgc := { off := true } }) ∧
  (∀ (pos scope sa : Nat) (s : State),
    s.mgc.off = true →
    let u : State := { pending := s.pending, out := s.out, free := s.free, sec := { fuses := s.sec.fuses.atReset }, frc := { labels := s.frc.labels, ring4k := s.frc.ring4k, areaNext := s.frc.areaNext } }
    exec (.powerOnReset pos scope sa) s = .next (((u.setF Reg.mgcStrapPos pos).setF Reg.mgcStrapPerstScope scope).setF Reg.mgcStrapI3cSa sa)) ∧
  (∀ (pos scope sa : Nat) (s : State),
    s.mgc.off = false →
    exec (.powerOnReset pos scope sa) s = .next s) ∧
  (∀ (mv : Nat) (s : State),
    s.mgc.off = false →
    mv < 40000 ∨ 60000 < mv →
    s.flag Reg.mgcPwrStatVinExcursion = false →
    exec (.vinExcursion mv) s = .next (logEv .mgcVinRange pMgc 0xFF [mv] (((s.setMgc { s.mgc with vinLowN := decide (mv < 40000) }).setF Reg.mgcPwrStatVinExcursion 1).bump Ctr.mgcVinExcursions))) ∧
  (∀ (mv : Nat) (s : State),
    s.mgc.off = false →
    40000 ≤ mv ∧ mv ≤ 60000 →
    exec (.vinExcursion mv) s = .next ((s.setMgc { s.mgc with vinLowN := false }).setF Reg.mgcPwrStatVinExcursion 0)) ∧
  (∀ (mv ma mw : Nat) (s : State),
    Table.wf s.regs = true →
    s.mgc.off = false →
    powerLimit (s.getF Reg.mgcPwrCapWatts) mv < mw * 10 →
    s.mgc.sCap < 8 →
    ∃ t, exec (.powerPeriod mv ma mw) s = .next t ∧ t.mgc.sCap = s.mgc.sCap + 1 ∧ t.mgc.sTherm = s.mgc.sTherm ∧ t.getF Reg.mgcPwrStatStep = max (s.mgc.sCap + 1) s.mgc.sTherm % 2 ^ Reg.mgcPwrStatStep.width ∧
    t.mgc.lowPeriods = 0 ∧ t.t0 = s.t0 ∧ t.t1 = s.t1 ∧ t.ssq = s.ssq ∧ t.hif = s.hif) ∧
  (∀ (mv ma mw : Nat) (s : State),
    s.mgc.off = false →
    mw * 1000 < powerLimit (s.getF Reg.mgcPwrCapWatts) mv * 95 →
    9 ≤ s.mgc.lowPeriods →
    ∃ t, exec (.powerPeriod mv ma mw) s = .next t ∧ t.mgc.sCap = s.mgc.sCap - 1 ∧ t.mgc.lowPeriods = 10 ∧ t.t0 = s.t0 ∧ t.ssq = s.ssq) ∧
  (∀ (temps : List (Option Nat)) (s : State),
    s.mgc.off = false →
    s.mgc.hotSamples = 9 →
    s.mgc.sTherm < 8 →
    (temps[0]?).join = some 2047 →
    throttleC s 0 ≤ 255 →
    ∃ t, exec (.thermalSample temps) s = .next t ∧ t.mgc.sTherm = s.mgc.sTherm + 1 ∧ t.mgc.hot = true ∧ t.mgc.hotSamples = 0 ∧ t.mgc.sCap = s.mgc.sCap ∧ t.ssq = s.ssq ∧ t.t0 = s.t0) ∧
  (∀ (s : State),
    Table.wf s.regs = true →
    s.mgc.off = false →
    s.mgc.coolSamples = 99 →
    ∃ t, exec (.thermalSample []) s = .next t ∧ t.mgc.sTherm = s.mgc.sTherm - 1 ∧ t.mgc.hot = false ∧ t.mgc.coolSamples = 0 ∧ t.ssq = s.ssq) ∧
  (∀ (sensor reading : Nat) (s : State),
    s.mgc.off = false →
    sensor < 13 →
    s.pwr = pwrRun →
    s.mgc.target = none →
    s.mgc.tripped = false →
    ((tripC sensor * 8 : Nat) : Int) ≤ sext 16 (reading % 2 ^ 16) →
    exec (.thermalTrip sensor reading) s = .next (logFull .mgcThermalTrip pMgc 0 0xFF 4 0 [sensor, reading] (setPwr pwrMgmt (dropT0
      (s.setMgc { s.mgc with fatal := true, faultN := true, tripped := true, thermtripN := true })))))

/-- 15 R499 and R500: the boot stages; 13 R444: what DATA_READY waits for; 08 R249: the T1 population. That stage ROM is left with the first training event is the model's (log 19). -/
def Obligations.BootSequence : Prop :=
  (∀ (s : State),
    s.booting = true →
    s.getF Reg.mgcBootStage = 1 →
    s.pwr = pwrBoot →
    s.flag Reg.mgcBootHbmTrained = false →
    exec .hbmTrained s = .next (s.setF Reg.mgcBootHbmTrained 1)) ∧
  (∀ (s : State),
    s.booting = true →
    s.getF Reg.mgcBootStage = 0 →
    s.flag (Reg.mgcTempValid 4) = true →
    coolBy s 10 = true →
    s.pwr = pwrBoot →
    s.flag Reg.mgcBootHbmTrained = false →
    exec .hbmTrained s = .next (((List.range 8).foldl (fun s p => if s.getF (Reg.xfePortEn p) = 1 ∧ s.getF (Reg.xfePortState p) = 0 then
      s.setF (Reg.xfePortState p) portDetect else s) (s.setF Reg.mgcBootStage 1)).setF Reg.mgcBootHbmTrained 1)) ∧
  (∀ (g : Nat) (s : State),
    s.booting = true →
    s.getF Reg.mgcBootStage = 1 →
    s.pwr = pwrBoot →
    s.flag Reg.mgcBootDimmTrained = false →
    g = 64 ∨ g = 128 ∨ g = 256 →
    ∃ t, exec (.dimmTrained (List.replicate 16 (some g))) s = .next t ∧ t.flag Reg.mgcBootDimmTrained = true ∧ t.getF (Reg.tmgTierCapSize4k 1) = 16 * g * 2 ^ 18 ∧ t.flag (Reg.tmgTierCapPresent 1) = true ∧
    t.mgc = s.mgc ∧ t.t1 = s.t1) ∧
  (∀ (l : List (Option Nat)) (s : State),
    s.booting = true →
    s.getF Reg.mgcBootStage = 1 →
    s.pwr = pwrBoot →
    s.flag Reg.mgcBootDimmTrained = false →
    populationOk l = false →
    ∃ t, exec (.dimmTrained l) s = .next t ∧ t.mgc.fatal = true ∧ t.mgc.faultN = true ∧ t.getF Reg.mgcBootStage = 5 ∧ t.t1 = s.t1) ∧
  (∀ (s : State),
    s.booting = true →
    s.flag Reg.mgcBootHbmTrained = true →
    s.flag Reg.mgcBootT0Wiped = false →
    (s.returning = false → exec .t0WipeDone s = .next (tryReady ((wipeTier 0 s).setF Reg.mgcBootT0Wiped 1))) ∧
    (s.returning = true → exec .t0WipeDone s = .next (((wipeTier 0 s).setF Reg.mgcBootT0Wiped 1).setF Reg.mgcBootStage 1))) ∧
  (∀ (s : State),
    s.booting = true →
    s.flag Reg.mgcBootDimmTrained = true →
    s.flag Reg.mgcBootT1Wiped = false →
    exec .t1WipeDone s = .next (tryReady ((wipeTier 1 s).setF Reg.mgcBootT1Wiped 1))) ∧
  (∀ (k : Nat) (s : State),
    k < 4 →
    (wipeTier k s).tier k = [] ∧ (∀ j, j < 4 → j ≠ k → (wipeTier k s).tier j = s.tier j) ∧ (wipeTier k s).regs = s.regs ∧ (wipeTier k s).ssq = s.ssq) ∧
  (∀ (v : FwValues) (s : State),
    s.booting = true →
    s.getF Reg.mgcBootStage = 2 →
    s.pwr = pwrBoot →
    exec (.fwInitDone v) s = .next (tryReady ((fwValues v s).setF Reg.mgcBootStage 3))) ∧
  (∀ (v : FwValues) (s : State),
    s.booting = true →
    s.getF Reg.mgcBootStage = 2 →
    s.pwr = pwrMgmt →
    exec (.fwInitDone v) s = .next (tryReady (s.setF Reg.mgcBootStage 3))) ∧
  (∀ (s : State),
    s.getF Reg.mgcBootStage = 3 →
    s.flag Reg.mgcBootT0Wiped = true →
    s.flag Reg.mgcBootT1Wiped = true →
    s.pwr = pwrBoot →
    s.mgc.target = none →
    tryReady s = logEv .mgcReady pMgc 0xFF [] ((((s.setF Reg.mgcBootStage 4).setF Reg.mgcBootDataReady 1).setF Reg.mgcPwrStatState pwrRun).bump Ctr.mgcPowerStateChanges)) ∧
  (∀ (s : State),
    s.getF Reg.mgcBootStage ≠ 3 ∨ s.flag Reg.mgcBootT0Wiped = false ∨ s.flag Reg.mgcBootT1Wiped = false →
    tryReady s = s) ∧
  (∀ (v : FwValues) (l : List (Option Nat)) (s : State),
    s.booting = false →
    exec .hbmTrained s = .next s ∧ exec (.dimmTrained l) s = .next s ∧ exec .t0WipeDone s = .next s ∧ exec .t1WipeDone s = .next s ∧ exec (.fwInitDone v) s = .next s)

/-- 15 R495 and R497: PERST_N and its scopes; 15 R506 and R507: the input filter. That scope 1 takes the link down is the model's reading (log 18). -/
def Obligations.DiscretePins : Prop :=
  (∀ (s : State),
    s.mgc.off = false →
    s.mgc.perstHeld = false →
    s.flag Reg.mgcStrapPerstScope = false →
    exec (.perstN false) s = .next ((warmReset 1 s).setMgc { (warmReset 1 s).mgc with perstHeld := true }) ∧
    exec (.perstN true) s = .next (s.setMgc { s.mgc with perstHeld := true })) ∧
  (∀ (soon : Bool) (s : State),
    s.mgc.off = false →
    s.mgc.perstHeld = false →
    s.flag Reg.mgcStrapPerstScope = true →
    s.getF Reg.mgcBootStage ≠ 0 →
    exec (.perstN soon) s = .next (((linkLost s).setMgc { (linkLost s).mgc with perstHeld := true }).setF (Reg.mgcPinLevel 0) 1)) ∧
  (∀ (soon : Bool) (s : State),
    s.flag Reg.mgcStrapPerstScope = true →
    s.getF Reg.mgcBootStage = 0 →
    exec (.perstN soon) s = .next s) ∧
  (∀ (s : State),
    s.mgc.off = false →
    s.mgc.perstHeld = true →
    exec .perstNDeasserted s = .next ((s.setMgc { s.mgc with perstHeld := false }).setF (Reg.mgcPinLevel 0) 0)) ∧
  (∀ (soon : Bool) (s : State),
    s.mgc.perstHeld = true →
    exec (.perstN soon) s = .next s) ∧
  (∀ (pin : Nat) (s : State),
    s.mgc.off = false →
    filtered pin = true →
    exec (.pinGlitch pin false false) s = .next (logEv .mgcPinGlitch pMgc 0xFF [pin] ((s.satAdd (Reg.mgcPinGlitches pin) 1).bump Ctr.mgcPinGlitches)) ∧
    exec (.pinGlitch pin false true) s = .next ((s.satAdd (Reg.mgcPinGlitches pin) 1).bump Ctr.mgcPinGlitches) ∧ exec (.pinGlitch pin true true) s = .next (s.satAdd (Reg.mgcPinDropped pin) 1)) ∧
  (∀ (pin : Nat) (d q : Bool) (s : State),
    filtered pin = false →
    exec (.pinGlitch pin d q) s = .next s) ∧
  (∀ (s : State),
    s.mgc.off = false →
    s.flag (Reg.mgcPinMasked 1) = false →
    let u := ((s.setF (Reg.mgcPinMasked 1) 1).setF (Reg.mgcPinLevel 1) 1).satAdd (Reg.mgcPinStuck 1) 1
    exec (.pinStuckTimeout 1) s = .next (logEv .mgcPinMasked pMgc 0xFF [1] ((tkeys s.ssq.wheels).foldl (fun s w => modWheel w (fun y => { y with antStep := y.lastStep, antLayer := y.lastLayer }) s) u))) ∧
  (∀ (s : State),
    s.mgc.off = false →
    s.flag (Reg.mgcPinMasked 1) = true →
    exec (.pinUnmask 1) s = .next (logEv .mgcPinUnmasked pMgc 0xFF [1] ((s.setF (Reg.mgcPinMasked 1) 0).setF (Reg.mgcPinLevel 1) 0))) ∧
  (∀ (pin : Nat) (s : State),
    pin ≠ 1 →
    exec (.pinStuckTimeout pin) s = .next s ∧ exec (.pinUnmask pin) s = .next s)

/-- 02 R54: BEAT_IN; 02 R51 and R55: the rollback and the stall; 15 R506: a masked input is not heard. -/
def Obligations.BeatAndStall : Prop :=
  (∀ (s : State),
    s.flag (Reg.mgcPinMasked 1) = true →
    exec .beatIn s = .next s) ∧
  (∀ (s : State),
    (∀ w ∈ s.ssq.wheels, s.flag (Reg.ssqWheelBeatEn w.1) = false) →
    exec .beatIn s = .next s) ∧
  (∀ (w : Nat) (x : Wheel) (m : Model) (s : State),
    Live s →
    s.flag (Reg.mgcPinMasked 1) = false →
    s.ssq.wheels = [(w, x)] →
    s.flag (Reg.ssqWheelBeatEn w) = true →
    s.model? x.part x.model = some m →
    (let y : Wheel := if x.antLayer + 1 < m.layers then { x with antLayer := x.antLayer + 1 } else { x with antStep := (x.antStep + 1) % 2 ^ 32, antLayer := 0 }
   beatAhead m.layers y ≤ 1) →
    let y : Wheel := if x.antLayer + 1 < m.layers then { x with antLayer := x.antLayer + 1 } else { x with antStep := (x.antStep + 1) % 2 ^ 32, antLayer := 0 }
    exec .beatIn s = .next (issueAhead w y.antStep y.antLayer (modWheel w (fun z => { z with antStep := y.antStep, antLayer := y.antLayer }) s))) ∧
  (∀ (w : Nat) (x : Wheel) (m : Model) (s : State),
    Live s →
    s.flag (Reg.mgcPinMasked 1) = false →
    s.ssq.wheels = [(w, x)] →
    s.flag (Reg.ssqWheelBeatEn w) = true →
    s.model? x.part x.model = some m →
    (let y : Wheel := if x.antLayer + 1 < m.layers then { x with antLayer := x.antLayer + 1 } else { x with antStep := (x.antStep + 1) % 2 ^ 32, antLayer := 0 }
   1 < beatAhead m.layers y) →
    ∃ t, exec .beatIn s = .next t ∧ t.wheel? w = some { x with antStep := x.lastStep, antLayer := x.lastLayer } ∧ t.tmg = s.tmg ∧ t.hrc = s.hrc ∧ t.xfe = s.xfe) ∧
  (∀ (n : Nat) (x : Wheel),
    x.antStep < 2 ^ 32 ∧ x.lastStep < 2 ^ 32 →
    x.antLayer < n ∧ x.lastLayer < n →
    (x.antStep = x.lastStep → beatAhead n x = (x.antLayer : Int) - x.lastLayer) ∧
    (x.antStep = (x.lastStep + 1) % 2 ^ 32 → beatAhead n x = (n : Int) + x.antLayer - x.lastLayer)) ∧
  (∀ (w : Nat) (x : Wheel) (s : State),
    Live s →
    s.wheel? w = some x →
    (runningOn s w).isEmpty = false →
    let u := rollbackWheel w (s.bump Ctr.ssqWheelStalls)
    exec (.wheelStall w) s = .next (logEv .ssqWheelStall pSsq x.part [w, x.lastStep, x.lastLayer]
      (endTurns ((u.ssq.turns.filter fun t => t.wheel == w && t.state != .queued).map (·.session)) .wheelTimeout u))) ∧
  (∀ (w : Nat) (x : Wheel) (m : Model) (s : State),
    s.wheel? w = some x →
    s.model? x.part x.model = some m →
    (rollbackWheel w s).wheel? w = some { x with parts := [], nextPart := 0, nextRec := 0, layerDone := true, tailDone := false, tailBegun := false, pins := [], lastStep := x.committed, lastLayer := m.layers - 1, rolledBack := x.roster.isSome }) ∧
  (∀ (w : Nat) (s : State),
    (runningOn s w).isEmpty = true →
    exec (.wheelStall w) s = .next s)

/-- 05 R151-R153: the roster and its boundary; 06 R192 and R193: its decode entries; 02 R64 and R70: who joins. -/
def Obligations.StepBoundary : Prop :=
  (∀ (w : Nat) (x : Wheel) (s : State),
    s.wheel? w = some x →
    x.flushing = true ∨ (x.roster.isSome = true ∧ x.blockWritten = false) →
    exec (.rosterWrite w) s = .next s) ∧
  (∀ (w : Nat) (s : State),
    s.wheel? w = none →
    exec (.rosterWrite w) s = .next s) ∧
  (∀ (w : Nat) (x : Wheel) (s : State),
    Live s →
    s.wheel? w = some x →
    x.flushing = false →
    x.roster = none →
    exec (.rosterWrite w) s = .next (writeRoster w (joinChains w (joinTurns w s)))) ∧
  (∀ (w : Nat) (x : Wheel) (es : List RosterEntry) (s : State),
    Live s →
    s.wheel? w = some x →
    x.flushing = false →
    x.roster = some es →
    x.blockWritten = true →
    exec (.rosterWrite w) s = .next (writeRoster w (joinChains w (joinTurns w (weirEvaluate x.part (closeStep w s)))))) ∧
  (∀ (w : Nat) (x : Wheel) (s : State),
    s.wheel? w = some x →
    ∃ y, (closeStep w s).wheel? w = some y ∧ y.roster = none ∧ y.parts = [] ∧ y.results = [] ∧ y.blockWritten = false ∧ y.layerDone = true ∧ y.tailDone = false ∧ y.committed = x.committed ∧ y.part = x.part) ∧
  (∀ (w : Nat) (s : State),
    runningOn s w = [] →
    writeRoster w s = s) ∧
  (∀ (w : Nat) (x : Wheel) (t : Turn) (s : State),
    s.wheel? w = some x →
    runningOn s w = [t] →
    turnOf s t.session = some t →
    (rosterOf s x t).isEmpty = false →
    ∃ y, (writeRoster w s).wheel? w = some y ∧ y.roster = some (rosterOf s x t) ∧ y.rosterStep = (x.committed + 1) % 2 ^ 32 ∧ y.rosterSeq = (x.rosterSeq + 1) % 2 ^ 32 ∧
    y.blockWritten = false ∧ y.results = [] ∧ y.committed = x.committed) ∧
  (∀ (tb : Tail) (t : Turn) (i g : Nat) (y : Session),
    1 ≤ tb.tree.length →
    (rosterNodes tb t i y g).length ≤ tb.tree.length ∧
    ∀ e ∈ rosterNodes tb t i y g, e.slot = t.slot ∧ e.kind = 0 ∧ e.session = i ∧ e.prov = y.kvLen + e.cand ∧ e.pos = y.kvLen + e.depth ∧ e.prov ≤ 2097151 ∧ e.depth + t.committed < g) ∧
  (∀ (t : Turn) (i : Nat) (y : Session),
    (rosterPrefill t i y).length = y.history.length - y.kvLen ∧ ∀ e ∈ rosterPrefill t i y, e.kind = 1 ∧ y.kvLen ≤ e.pos ∧ e.pos < y.history.length ∧ e.prov = e.pos ∧ e.slot = t.slot) ∧
  (∀ (i n : Nat) (t : Turn) (y : Session) (s : State),
    Live s →
    turnOf s i = some t →
    tget s.ssq.sessions i = some y →
    t.state = .reviving →
    residentLayers s y (layersOf s y) = n →
    t.resident < n →
    let u := reviveStart (s.hrc.revive.length + 1) t.part t.reviveTier (modTurn i (fun t => { t with resident := n }) s)
    exec (.reviveLayerResident i) s = .next (if (runningOn u t.wheel).isEmpty then rosterWrite t.wheel u else u)) ∧
  (∀ (i : Nat) (t : Turn) (y : Session) (s : State),
    turnOf s i = some t →
    tget s.ssq.sessions i = some y →
    residentLayers s y (layersOf s y) ≤ t.resident →
    exec (.reviveLayerResident i) s = .next s) ∧
  (∀ (i : Nat) (late : Bool) (t : Turn) (y : Session) (x : Wheel) (m : Model) (tb : Tail) (e : RosterEntry) (k : Walk) (s : State),
    Live s →
    turnOf s i = some t →
    tget s.ssq.sessions i = some y →
    s.wheel? t.wheel = some x →
    (x.entriesOf t.slot).head? = some e →
    s.model? x.part x.model = some m →
    s.tail? x.part m.tailId = some tb →
    t.state = .running →
    x.blockWritten = false →
    x.resolved t.slot = false →
    tailReady s x t = true →
    (lastMember y = true → recorderStalls s y = false → turnWalk x t y tb = some k →
      (commitPages i y m.layers (if e.kind = 1 then y.history.length else y.kvLen + k.toks.length) k.kept k.toks s).isSome = true →
      ∃ u, exec (.stepCommit i late) s = .next u ∧ u = commitWalk i late t x m tb y e k s) ∧
    (lastMember y = false → t.drain = false →
      ∃ u, exec (.stepCommit i late) s = .next u ∧ u = finishTail t.wheel (modTurn i (fun t => { t with steps := t.steps + 1 })
        (modWheel t.wheel (fun x => { x with results := x.results ++ [{ slot := t.slot, session := i, status := .ok, ended := false, firstPos := y.history.length, step := t.steps }] }) s))))

/-- 05 R166-R169: the dealing of gangs and the delivery of their pages; 04 R133: the pins; 04 R126: a corrupt page; 05 R158, R178 and 06 R190, R191: what the items compute. -/
def Obligations.ItemsAndPages : Prop :=
  (∀ (n : Nat) (s : State),
    pickGang (dealList s n) = none →
    exec (.gangDeal n) s = .next s) ∧
  (∀ (n : Nat) (d : DealRef) (x : Wheel) (m : Model) (p : LayerPart) (s : State),
    Clocked s →
    pickGang (dealList s n) = some (d, []) →
    s.wheel? d.wheel = some x →
    x.parts.find? (·.stamp == d.stamp) = some p →
    s.model? x.part x.model = some m →
    ((gangPages s x m p d.gang).filter fun h => !x.pins.contains h).find? (fun h => (addPin h s).isNone) = none →
    let pages := gangPages s x m p d.gang
    let new := pages.filter fun h => !x.pins.contains h
    let u := new.foldl (fun s h => (addPin h s).getD s) s
    exec (.gangDeal n) s = .next ((loadArrays x m { p with items := giveArrays d.gang d.arrays p.items } d.gang
      (modPart d.wheel d.stamp (fun p => { modGang d.gang (fun g => { g with dealt := true, toRead := if m.geom.latent then pages ++ pages else pages }) p with items := giveArrays d.gang d.arrays p.items })
      (modWheel d.wheel (fun x => { x with pins := x.pins ++ new }) u))).bump (Ctr.mxgGangsDealt ((d.arrays.head?.getD 0) / 20)))) ∧
  (∀ (n h : Nat) (d : DealRef) (x : Wheel) (m : Model) (p : LayerPart) (s : State),
    Clocked s →
    pickGang (dealList s n) = some (d, []) →
    s.wheel? d.wheel = some x →
    x.parts.find? (·.stamp == d.stamp) = some p →
    s.model? x.part x.model = some m →
    ((gangPages s x m p d.gang).filter fun h => !x.pins.contains h).find? (fun h => (addPin h s).isNone) = some h →
    ((s.rec? h).map fun r => !r.recovery && !r.lost).getD false = false →
    exec (.gangDeal n) s = .next (endTurns (sessionsOf s (namersOf s x m p d.gang h)) .pageCorrupt s)) ∧
  (∀ (w st g h : Nat) (x : Wheel) (p : LayerPart) (r : PageRec) (s u : State),
    Clocked s →
    s.wheel? w = some x →
    x.parts.find? (·.stamp == st) = some p →
    (p.gangs[g]?).map (·.toRead.head?) = some (some h) →
    s.rec? h = some r →
    underTest s (expanderUnit s r.tier r.base) = false →
    (takeExpander (expanderInst s r.tier r.base) (r.slot4k * 4096) x.part (w, st, g) s = (u, true) →
      exec (.expanderDecode w st g) s = .next (decodePage w st g u)) ∧
    (takeExpander (expanderInst s r.tier r.base) (r.slot4k * 4096) x.part (w, st, g) s = (u, false) →
      exec (.expanderDecode w st g) s = .next u)) ∧
  (∀ (w st g h : Nat) (x : Wheel) (p : LayerPart) (r : PageRec) (s : State),
    s.wheel? w = some x →
    x.parts.find? (·.stamp == st) = some p →
    (p.gangs[g]?).map (·.toRead.head?) = some (some h) →
    s.rec? h = some r →
    underTest s (expanderUnit s r.tier r.base) = true →
    exec (.expanderDecode w st g) s = .next s) ∧
  (∀ (i bytes part : Nat) (k : Nat × Nat × Nat) (s : State),
    i < 53 →
    part < 16 →
    (s.slu? i).queues = [] →
    (s.slu? i).quar = [] →
    (s.slu? i).current = none →
    (sluCtrl s i).2.2.2.1 = 0 →
    (s.slu? i).wait part < sluLimit s i part →
    (takeExpander i bytes part k s).2 = true ∧ ((takeExpander i bytes part k s).1.slu? i).current = none ∧
      ((takeExpander i bytes part k s).1.slu? i).credit part = max ((s.slu? i).credit part - sluUnits bytes) (-2 ^ 31)) ∧
  (∀ (w st g h : Nat) (rest : List Nat) (x : Wheel) (m : Model) (p : LayerPart) (r : PageRec) (s : State),
    s.wheel? w = some x →
    x.parts.find? (·.stamp == st) = some p →
    s.model? x.part x.model = some m →
    (p.gangs[g]?).map (·.toRead) = some (h :: rest) →
    s.rec? h = some r →
    r.recovery = true ∨ r.lost = true →
    let u := modPart w st (modGang g fun k => { k with toRead := rest }) s
    decodePage w st g s = endTurns (sessionsOf u (namersOf s x m p g h)) .pageCorrupt u) ∧
  (∀ (w st g h : Nat) (rest : List Nat) (x : Wheel) (m : Model) (p : LayerPart) (r : PageRec) (s : State),
    s.wheel? w = some x →
    x.parts.find? (·.stamp == st) = some p →
    s.model? x.part x.model = some m →
    (p.gangs[g]?).map (·.toRead) = some (h :: rest) →
    s.rec? h = some r →
    r.recovery = false ∧ r.lost = false →
    expanderCheck r.geom r.facts (slotBytes s r.tier r.base r.slot4k) ≠ none →
    let turns := namersOf s x m p g h
    let u := awaitCredits r.geom ((takers p g turns).map (·.1)) (modPart w st (modGang g fun k => { k with toRead := rest }) s)
    let e := expanderOf u r.tier r.base
    let z := noteUsed (sessionsOf u turns) [(0, h), (4, e.1 * 16 + e.2.2.2)] u
    let v := expanderRead (metBy (sessionsOf z turns) w) h r r.tier r.base z
    v.2 = false ∧ decodePage w st g s = startRecovery h (endTurns (sessionsOf v.1 turns) .pageCorrupt v.1)) ∧
  (∀ (w st g h : Nat) (rest : List Nat) (x : Wheel) (m : Model) (p : LayerPart) (s : State),
    Clocked s →
    s.wheel? w = some x →
    x.parts.find? (·.stamp == st) = some p →
    s.model? x.part x.model = some m →
    (p.gangs[g]?).map (·.toRead) = some (h :: rest) →
    s.rec? h = none →
    exec (.expanderDecode w st g) s = .next (modPart w st (modGang g fun k => { k with toRead := rest }) s)) ∧
  (∀ (w st g h : Nat) (rest : List Nat) (x : Wheel) (m : Model) (p : LayerPart) (r : PageRec) (s : State),
    Live s →
    s.wheel? w = some x →
    x.parts.find? (·.stamp == st) = some p →
    s.model? x.part x.model = some m →
    (p.gangs[g]?).map (·.toRead) = some (h :: rest) →
    s.rec? h = some r →
    namersOf s x m p g h = [] →
    m.geom.latent = false →
    r.tier = 0 →
    r.recovery = false ∧ r.lost = false →
    expanderCheck r.geom r.facts (slotBytes s 0 r.base r.slot4k) = none →
    let u := modPart w st (modGang g fun k => { k with toRead := rest }) s
    decodePage w st g s = (expanderRead (metBy [] w) h r 0 r.base u).1 ∧ (expanderRead (metBy [] w) h r 0 r.base u).2 = true) ∧
  (∀ (w st g : Nat) (x : Wheel) (p : LayerPart) (s : State),
    s.wheel? w = some x →
    x.parts.find? (·.stamp == st) = some p →
    (p.gangs[g]?).map (·.toRead) = some [] ∨ p.gangs[g]? = none →
    exec (.expanderDecode w st g) s = .next s) ∧
  (∀ (w st k : Nat) (x : Wheel) (m : Model) (p : LayerPart) (i : Item) (nodes : List NodeVal) (s : State),
    Clocked s →
    (modPart w st (fun p => { p with nodes := p.nodes ++ nodes.map fun v => { v.node with after := p.partials.length } }) s).wheel? w = some x →
    x.parts.find? (·.stamp == st) = some p →
    s.model? x.part x.model = some m →
    p.items[k]? = some i →
    i.array = none ∨ i.done = true →
    exec (.itemDone w st k nodes) s = .next (refillWindow w (modPart w st (fun p => { p with nodes := p.nodes ++ nodes.map fun v => { v.node with after := p.partials.length } }) s))) ∧
  (∀ (w st k a f c v0 vn : Nat) (x : Wheel) (m : Model) (p : LayerPart) (i : Item) (s v : State),
    Clocked s →
    (modPart w st (fun p => { p with nodes := p.nodes ++ [] }) s).wheel? w = some x →
    x.parts.find? (·.stamp == st) = some p →
    s.model? x.part x.model = some m →
    p.items[k]? = some i →
    i.array = some a →
    i.done = false →
    i.failedOn = none →
    (p.gangs[i.gang]?).map (·.toRead) = some [] →
    i.kind = .project f c v0 vn →
    projectDone w x m p f c v0 vn (modPart w st (fun p => { p with nodes := p.nodes ++ [] }) s) = (v, true) →
    let z := v.bump (Ctr.mxgProjectionItemsRun (a / 20))
    exec (.itemDone w st k []) s = .next (refillWindow w (finishTail w (settleParts w (noteUsed (sessionsOf z (itemTurns x (.project f c v0 vn))) [(2, a), (3, Config.tendingCore p.stamp % 64)] ((markDone w p.stamp k z).bump (Ctr.mxgItemsRun (a / 20)))))))) ∧
  (∀ (w st k a t hg sc q : Nat) (x : Wheel) (m : Model) (p : LayerPart) (i : Item) (s : State),
    Clocked s →
    (modPart w st (fun p => { p with nodes := p.nodes ++ [] }) s).wheel? w = some x →
    x.parts.find? (·.stamp == st) = some p →
    s.model? x.part x.model = some m →
    p.items[k]? = some i →
    i.array = some a →
    i.done = false →
    i.failedOn = none →
    (p.gangs[i.gang]?).map (·.toRead) = some [] →
    i.kind = .attend t hg sc q →
    let u := modPart w st (fun p => { p with nodes := p.nodes ++ [] }) s
    let scores := ((itemDots x m p t hg sc q u).map fun d => dotsScores m d.2.2.2).flatten
    let z := modPart w p.stamp (fun y => { y with partials := y.partials ++ attendDone x m p t hg sc q u }) (closeArray a scores (attendDone x m p t hg sc q u) u)
    exec (.itemDone w st k []) s = .next (refillWindow w (finishTail w (settleParts w (noteUsed (sessionsOf z [t]) [(2, a), (3, Config.tendingCore p.stamp % 64)] ((markDone w p.stamp k z).bump (Ctr.mxgItemsRun (a / 20)))))))) ∧
  (∀ (w st k a t : Nat) (x : Wheel) (m : Model) (p : LayerPart) (i : Item) (s : State),
    Clocked s →
    (modPart w st (fun p => { p with nodes := p.nodes ++ [] }) s).wheel? w = some x →
    x.parts.find? (·.stamp == st) = some p →
    s.model? x.part x.model = some m →
    p.items[k]? = some i →
    i.array = some a →
    i.done = false →
    i.failedOn = none →
    (p.gangs[i.gang]?).map (·.toRead) = some [] →
    i.kind = .heads t →
    let z := headsDone x m t (modPart w st (fun p => { p with nodes := p.nodes ++ [] }) s)
    exec (.itemDone w st k []) s = .next (refillWindow w (finishTail w (settleParts w (noteUsed (sessionsOf z [t]) [(2, a), (3, Config.tendingCore p.stamp % 64)] ((markDone w p.stamp k z).bump (Ctr.mxgItemsRun (a / 20)))))))) ∧
  (∀ (w st k a f c : Nat) (x : Wheel) (m : Model) (tb : Tail) (p : LayerPart) (i : Item) (s : State),
    Clocked s →
    (modPart w st (fun p => { p with nodes := p.nodes ++ [] }) s).wheel? w = some x →
    x.parts.find? (·.stamp == st) = some p →
    s.model? x.part x.model = some m →
    s.tail? m.part m.tailId = some tb →
    p.items[k]? = some i →
    i.array = some a →
    i.done = false →
    i.failedOn = none →
    (p.gangs[i.gang]?).map (·.toRead) = some [] →
    i.kind = .logits f c →
    let u := modPart w st (fun p => { p with nodes := p.nodes ++ [] }) s
    let recs := ((List.range c).map (f + ·)).filter fun r => ((x.tailRecords[r]?).map fun e => !x.resolved e.slot).getD false
    let z := (modPart w p.stamp (fun y => { y with logits := y.logits ++ recs.map fun r => (r, logitsOf u tb (hiddenOf u x m p r 0)) }) u).bumpBy Ctr.mxgLogitRecords recs.length
    exec (.itemDone w st k []) s = .next (refillWindow w (finishTail w (settleParts w (noteUsed (sessionsOf z (itemTurns x (.logits f c))) [(2, a), (3, Config.tendingCore p.stamp % 64)] ((markDone w p.stamp k z).bump (Ctr.mxgItemsRun (a / 20))))))))

/-- 02 R49 and R60: the commit point; 06 R194 and R202: the walk; 04 R119: the wait for a slot; 05 R177 and R179: chains. -/
def Obligations.StepsCommit : Prop :=
  (∀ (i : Nat) (late : Bool) (s : State),
    turnOf s i = none →
    exec (.stepCommit i late) s = .next s) ∧
  (∀ (i : Nat) (late : Bool) (t : Turn) (x : Wheel) (s : State),
    turnOf s i = some t →
    s.wheel? t.wheel = some x →
    t.state ≠ .running ∨ x.blockWritten = true ∨ x.resolved t.slot = true ∨ tailReady s x t = false →
    exec (.stepCommit i late) s = .next s) ∧
  (∀ (i : Nat) (late : Bool) (t : Turn) (y : Session) (x : Wheel) (m : Model) (tb : Tail) (e : RosterEntry) (k : Walk) (s : State),
    Live s →
    turnOf s i = some t →
    tget s.ssq.sessions i = some y →
    s.wheel? t.wheel = some x →
    (x.entriesOf t.slot).head? = some e →
    s.model? x.part x.model = some m →
    s.tail? x.part m.tailId = some tb →
    t.state = .running →
    x.blockWritten = false →
    x.resolved t.slot = false →
    tailReady s x t = true →
    lastMember y = true →
    recorderStalls s y = false →
    turnWalk x t y tb = some k →
    exec (.stepCommit i late) s = .next (commitWalk i late t x m tb y e k s)) ∧
  (∀ (t : Turn) (y : Session) (x : Wheel) (tb : Tail) (k : Walk),
    turnWalk x t y tb = some k →
    k.kept.length = k.toks.length ∧ 1 ≤ k.toks.length ∧ k.toks.length ≤ 33) ∧
  (∀ (i : Nat) (late : Bool) (t : Turn) (y : Session) (x : Wheel) (m : Model) (tb : Tail) (e : RosterEntry) (s : State),
    Live s →
    turnOf s i = some t →
    tget s.ssq.sessions i = some y →
    s.wheel? t.wheel = some x →
    (x.entriesOf t.slot).head? = some e →
    s.model? x.part x.model = some m →
    s.tail? x.part m.tailId = some tb →
    t.state = .running →
    x.blockWritten = false →
    x.resolved t.slot = false →
    tailReady s x t = true →
    lastMember y = true →
    recorderStalls s y = false →
    turnWalk x t y tb = none →
    exec (.stepCommit i late) s = .next (endTurns [i] .nonfinite s)) ∧
  (∀ (i : Nat) (late : Bool) (t : Turn) (y : Session) (x : Wheel) (m : Model) (tb : Tail) (e : RosterEntry) (s : State),
    Live s →
    turnOf s i = some t →
    tget s.ssq.sessions i = some y →
    s.wheel? t.wheel = some x →
    (x.entriesOf t.slot).head? = some e →
    s.model? x.part x.model = some m →
    s.tail? x.part m.tailId = some tb →
    t.state = .running →
    x.blockWritten = false →
    x.resolved t.slot = false →
    tailReady s x t = true →
    lastMember y = false →
    t.drain = false →
    exec (.stepCommit i late) s = .next (finishTail t.wheel (modTurn i (fun t => { t with steps := t.steps + 1 })
      (modWheel t.wheel (fun x => { x with results := x.results ++ [{ slot := t.slot, session := i, status := .ok, ended := false, firstPos := y.history.length, step := t.steps }] }) s)))) ∧
  (∀ (i : Nat) (late : Bool) (t : Turn) (y : Session) (x : Wheel) (m : Model) (tb : Tail) (e : RosterEntry) (s : State),
    Live s →
    turnOf s i = some t →
    tget s.ssq.sessions i = some y →
    s.wheel? t.wheel = some x →
    (x.entriesOf t.slot).head? = some e →
    s.model? x.part x.model = some m →
    s.tail? x.part m.tailId = some tb →
    t.state = .running →
    x.blockWritten = false →
    x.resolved t.slot = false →
    tailReady s x t = true →
    lastMember y = true →
    recorderStalls s y = true →
    exec (.stepCommit i late) s = .next (s.bump Ctr.frcRecorderWaits)) ∧
  (∀ (i : Nat) (late : Bool) (t : Turn) (x : Wheel) (m : Model) (tb : Tail) (y : Session) (e : RosterEntry) (k : Walk) (s : State),
    e.kind = 0 →
    t.commitWaits = false →
    commitPages i y m.layers (y.kvLen + k.toks.length) k.kept k.toks s = none →
    commitWalk i late t x m tb y e k s = logEv .tmgAllocWait pTmg y.part [i, 0] ((modTurn i (fun t => { t with commitWaits := true }) s).bump Ctr.tmgAllocWaits)) ∧
  (∀ (i : Nat) (t : Turn) (s : State),
    Live s →
    turnOf s i = some t →
    t.commitWaits = true →
    exec (.commitReserveTimeout i) s = .next (endTurns [i] .tierLate s)) ∧
  (∀ (i : Nat) (s : State),
    ((turnOf s i).map (·.commitWaits)).getD false = false →
    exec (.commitReserveTimeout i) s = .next s) ∧
  (∀ (w member : Nat) (x : Wheel) (t : Turn) (p : LayerPart) (c : Chain) (s : State),
    Live s →
    s.wheel? w = some x →
    t ∈ runningOn s w →
    p ∈ x.parts ∧ p.tail = false ∧ p.written = false →
    (partRecords x p t.slot).any (recordAwaits s x p) = true →
    (tget s.ssq.sessions t.session).bind (·.chain) = some c →
    member + 1 = c.own →
    (∀ u ∈ runningOn s w, ∀ d, (tget s.ssq.sessions u.session).bind (·.chain) = some d → d.own = c.own → d.members = c.members) →
    let l := (runningOn s w).filter fun t => ((tget s.ssq.sessions t.session).bind (·.chain)).any fun d => d.members == c.members && d.own == c.own
    exec (.chainTimeout w member) s = .next (endTurns (l.map (·.session)) .chainPeer (logEv .mxgChainTimeout pMxg x.part [w, member] (s.bump (Ctr.mxgChainTimeouts 0))))) ∧
  (∀ (w member : Nat) (s : State),
    (∀ t ∈ runningOn s w, ((tget s.ssq.sessions t.session).bind (·.chain)) = none) →
    exec (.chainTimeout w member) s = .next s) ∧
  (∀ (w member : Nat) (x : Wheel) (s : State),
    s.wheel? w = some x →
    (∀ t ∈ runningOn s w, ∀ p ∈ x.parts, p.tail = false → p.written = false → (partRecords x p t.slot).any (recordAwaits s x p) = false) →
    exec (.chainTimeout w member) s = .next s)

/-- 08 R259, R261, R271, R279-R282: transfers that end, are late, or fail; 08 R288: a drive's timeouts; 14 R448: the error of a read. A late or failed fetch that is no page has resource 0, which is the model's choice (log 51). -/
def Obligations.TransfersEnd : Prop :=
  (∀ (h : Nat) (m : Move) (r : PageRec) (s : State),
    Live s →
    moveOf s h = some m →
    s.rec? h = some r →
    m.done = false →
    s.tierUp r.tier = true →
    s.tierUp m.tier = true →
    m.tier ≠ 0 ∨ m.onto = true ∨ slotBad s r.part r.tier r.base r.slot4k = [] →
    exec (.tierTransferDone (.page h)) s = .next (afterMoves (runDeferred h (moveDone h (countMove m r s))))) ∧
  (∀ (h : Nat) (m : Move) (r : PageRec) (s : State),
    Live s →
    moveOf s h = some m →
    s.rec? h = some r →
    m.done = false →
    s.tierUp r.tier = true →
    s.tierUp m.tier = true →
    m.tier = 0 →
    m.onto = false →
    slotBad s r.part r.tier r.base r.slot4k ≠ [] →
    exec (.tierTransferDone (.page h)) s = .next (afterMoves (runDeferred h (arrivesBad m r (slotBad s r.part r.tier r.base r.slot4k) (countMove m r s))))) ∧
  (∀ (h : Nat) (m : Move) (r : PageRec) (s : State),
    moveOf s h = some m →
    s.rec? h = some r →
    m.done = true ∨ s.tierUp r.tier = false ∨ s.tierUp m.tier = false →
    exec (.tierTransferDone (.page h)) s = .next s) ∧
  (∀ (h : Nat) (s : State),
    moveOf s h = none ∨ s.rec? h = none →
    exec (.tierTransferDone (.page h)) s = .next s ∧ ∀ how, exec (.tierReadFailed (.page h) how) s = .next s) ∧
  (∀ (w st l n : Nat) (spans : List (Nat × Nat)) (f : Fetch) (x : Wheel) (s : State),
    Live s →
    fetchOf s (.weights w st l) = some f →
    s.wheel? f.wheel = some x →
    f.kind = .weights →
    weightSpans s x f.layer = some (n, spans) →
    beginAccess (.transfer (.weights w st l)) (spans.flatMap fun a => s.directLines n 1 a.1 a.2) false s = none →
    spans.flatMap (fun a => s.badUnits n 1 a.1 a.2) = [] →
    spans.flatMap (fun a => s.directPoisoned n 1 a.1 a.2) = [] →
    ∃ t, exec (.tierTransferDone (.weights w st l)) s = .next t ∧ t.hrc.fetches = s.hrc.fetches.filter (fun g => g != f && !(sharers s f).contains g) ∧
    t.hrc.filled = s.hrc.filled ++ (f :: sharers s f).map (fun g => { g with sharing := none, data := layerFromT1 s x f.layer }) ∧
    t.ctrs = ((s.bumpBy Ctr.hrcUrgentBytes f.bytes).bumpBy Ctr.hrcWeightBytes f.bytes).ctrs ∧ t.tmg = s.tmg ∧ t.ssq = s.ssq ∧ t.regs = s.regs ∧ t.t0 = s.t0) ∧
  (∀ (w st l i v : Nat) (f : Fetch) (x : Wheel) (s : State),
    Live s →
    fetchOf s (.adapter w st l i v) = some f →
    s.wheel? f.wheel = some x →
    f.kind = .adapter i v →
    excessBytes s x f.wheel f.step f.layer = 0 →
    ∃ t, exec (.tierTransferDone (.adapter w st l i v)) s = .next t ∧ t.hrc.fetches = s.hrc.fetches.filter (· != f) ∧ t.hrc.filled = s.hrc.filled ++ [f] ∧
    t.ctrs = (s.bumpBy Ctr.hrcUrgentBytes f.bytes).ctrs ∧ t.tmg = s.tmg ∧ t.ssq = s.ssq) ∧
  (∀ (w st i : Nat) (f : Fetch) (x : Wheel) (s : State),
    Live s →
    fetchOf s (.overflow w st i) = some f →
    s.wheel? f.wheel = some x →
    f.kind = .overflow i →
    tableBad s f = [] →
    ∃ t, exec (.tierTransferDone (.overflow w st i)) s = .next t ∧ t.hrc.fetches = s.hrc.fetches.filter (· != f) ∧ t.hrc.filled = s.hrc.filled ∧ t.tmg = s.tmg) ∧
  (∀ (w st l i v : Nat) (s : State),
    s.hrc.fetches = [] →
    exec (.tierTransferDone (.weights w st l)) s = .next s ∧ exec (.tierTransferDone (.adapter w st l i v)) s = .next s ∧ exec (.tierTransferDone (.overflow w st i)) s = .next s ∧
    ∀ how, exec (.tierReadFailed (.weights w st l) how) s = .next s) ∧
  (∀ (h : Nat) (m : Move) (r : PageRec) (s : State),
    Live s →
    moveOf s h = some m →
    s.rec? h = some r →
    m.done = false →
    exec (.tierReadFailed (.page h) .write) s = .next (moveAgain m (handToTest m.tier m.base (abandonMove h s)))) ∧
  (∀ (h : Nat) (how : ReadFail) (m : Move) (r : PageRec) (s : State),
    Live s →
    moveOf s h = some m →
    s.rec? h = some r →
    m.done = false →
    how ≠ .write →
    m.why ≠ .fetch →
    m.why ≠ .revive →
    exec (.tierReadFailed (.page h) how) s = .next (startRecovery h (tierError .tmgMoveFailed pTmg r.part r.tier (dimmRow r.tier r.base) h {} r.layer ((countFail how r.tier r.base s).bump Ctr.tmgMoveFailures)))) ∧
  (∀ (h : Nat) (how : ReadFail) (m : Move) (r : PageRec) (s : State),
    Live s →
    moveOf s h = some m →
    s.rec? h = some r →
    m.done = false →
    how ≠ .write →
    m.why = .revive →
    s.ssq.turns = [] →
    exec (.tierReadFailed (.page h) how) s = .next (startRecovery h (tierError .hrcReadFailed pHrc r.part r.tier (dimmRow r.tier r.base) h (metBy [] 0xFFFF) r.layer ((countFail how r.tier r.base s).bump Ctr.hrcFailedReads)))) ∧
  (∀ (w st l : Nat) (f : Fetch) (x : Wheel) (s : State),
    Live s →
    fetchOf s (.weights w st l) = some f →
    s.wheel? f.wheel = some x →
    f.kind = .weights →
    let v := dropFetch f s
    let u := countFetchFail .error f s
    fetchEnds f false s = endTurns (fetchReaders s f) .tierFailed (tierError .hrcReadFailed pHrc x.part f.tier (fetchRow v x f) 0 (metBy (fetchReaders s f) f.wheel) f.layer (v.bump Ctr.hrcFailedReads)) ∧
    exec (.tierReadFailed (.weights w st l) .error) s = .next ((f :: sharers u f).foldl (fun s g => fetchEnds g false s) u) ∧ exec (.tierReadFailed (.weights w st l) .write) s = .next s) ∧
  (∀ (w st l : Nat) (f : Fetch) (x : Wheel) (s : State),
    Live s →
    fetchOf s (.weights w st l) = some f →
    s.wheel? f.wheel = some x →
    f.kind = .weights →
    f.wheel = w →
    f.layer = l →
    x.rosterStep = f.step →
    x.inLayer l = true →
    let v := dropFetch f s
    let u := (f :: (sharers s f).filter fun g => fetchDue g s).foldl (fun s g => fetchEnds g true s) s
    fetchEnds f true s = endTurns (fetchReaders s f) .tierLate (tierError .hrcLate pHrc x.part f.tier (fetchRow v x f) 0 (metBy (fetchReaders s f) f.wheel) f.layer v) ∧
    exec (.pageLate w l (.weights w st l)) s = .next (shareAnew ((sharers u f).filter fun g => (sharers s f).contains g) u)) ∧
  (∀ (w st l : Nat) (f : Fetch) (x : Wheel) (s : State),
    fetchOf s (.weights w st l) = some f →
    s.wheel? f.wheel = some x →
    f.kind = .weights →
    x.rosterStep ≠ f.step ∨ x.inLayer f.layer = false →
    exec (.pageLate w l (.weights w st l)) s = .next s) ∧
  (∀ (w l h : Nat) (x : Wheel) (r : PageRec) (s : State),
    Live s →
    s.wheel? w = some x →
    s.rec? h = some r →
    h ≠ 0 →
    x.inLayer l = true →
    r.layer = l →
    r.tier ≠ 0 →
    ((stepReaders s h r).filter fun i => ((turnOf s i).map (·.wheel)) == some w) ≠ [] →
    let readers := (stepReaders s h r).filter fun i => ((turnOf s i).map (·.wheel)) == some w
    let u := s.setTmg { s.tmg with allocWaits := s.tmg.allocWaits.filter (·.1 != h) }
    exec (.pageLate w l (.page h)) s = .next (startRecovery h (endTurns readers .tierLate (tierError .hrcLate pHrc r.part r.tier (dimmRow r.tier r.base) h (metBy readers w) l (u.bump Ctr.hrcLatePages))))) ∧
  (∀ (w l : Nat) (x : Wheel) (m : Model) (s : State),
    Live s →
    s.wheel? w = some x →
    s.model? x.part x.model = some m →
    x.inLayer l = true →
    appendsWaiting s x m l ≠ [] →
    exec (.pageLate w l (.page 0)) s = .next (endTurns (appendsWaiting s x m l) .tierLate (tierError .hrcLate pHrc x.part 0 none 0 (metBy (appendsWaiting s x m l) w) l (s.bump Ctr.hrcLatePages)))) ∧
  (∀ (w l h : Nat) (r : PageRec) (s : State),
    s.rec? h = some r →
    h ≠ 0 →
    r.tier = 0 ∨ r.layer ≠ l →
    exec (.pageLate w l (.page h)) s = .next s) ∧
  (∀ (d : Nat) (s : State),
    Live s →
    d < 8 →
    ∀ what, exec (.nvcCommandTimeout d false what) s = .next ((s.bump (Ctr.nvcTimeouts d)).emit (.deviceOp (pNvc + d) "ABORT" []))) ∧
  (∀ (d : Nat) (s : State),
    Live s →
    d < 8 →
    tgetD s.tmg.timeouts d 0 = 2 →
    exec (.nvcCommandTimeout d true none) s = .next (driveOut d (logEv .nvcTimeout (pNvc + d) 0xFF [d]
      (((s.bump (Ctr.nvcTimeouts d)).emit (.deviceOp (pNvc + d) "ABORT" [])).setTmg { s.tmg with timeouts := tset s.tmg.timeouts d 3 })))) ∧
  (∀ (d : Nat) (what : Transfer) (s : State),
    Live s →
    d < 8 →
    tgetD s.tmg.timeouts d 0 = 0 →
    exec (.nvcCommandTimeout d true (some what)) s = .next (readFailed what (timedOut what s) (logEv .nvcTimeout (pNvc + d) 0xFF [d]
      (((s.bump (Ctr.nvcTimeouts d)).emit (.deviceOp (pNvc + d) "ABORT" [])).setTmg { s.tmg with timeouts := tset s.tmg.timeouts d 1 }))))

/-- 08 R257, R259: relief; 08 R263: clean-ahead copies; 08 R266, R267 and 12 R400: heat. -/
def Obligations.ReliefAndHeat : Prop :=
  (∀ (n k : Nat) (s : State),
    Live s →
    k < 3 →
    occupied s n k (hiWater s) 0 0 = true →
    k ≠ 0 →
    exec (.spillwayRelief n k []) s = .next (afterMoves (relieve n k false s))) ∧
  (∀ (n k : Nat) (cols : List Nat) (s : State),
    3 ≤ k ∨ (occupied s n k (hiWater s) 0 0 = false ∧ (k ≠ 0 ∨ (s.tmg.allocWaits = [] ∧ s.ssq.turns = [] ∧ s.ssq.wheels = []))) →
    exec (.spillwayRelief n k cols) s = .next s) ∧
  (∀ (n : Nat) (s : State),
    s.flag Reg.tmgMigrateCleanAhead = false ∨ belowWater s n 1 = false →
    exec (.cleanAhead n) s = .next s) ∧
  (∀ (n h : Nat) (r : PageRec) (s t : State),
    Live s →
    s.flag Reg.tmgMigrateCleanAhead = true →
    belowWater s n 1 = true →
    s.tmg.records.find? (fun e => e.2.part == n && e.2.tier == 0 && e.2.sealed && !e.2.lowerValid && !e.2.recovery && !e.2.lost && (moveOf s e.1).isNone) = some (h, r) →
    startMove h 1 .cleanAhead s = some t →
    exec (.cleanAhead n) s = .next t) ∧
  (∀ (h : Nat) (r : PageRec) (s t : State),
    Live s →
    s.rec? h = some r →
    h < 2 ^ 32 →
    r.tier = 1 →
    s.getF Reg.tmgMigratePromoteT0 ≤ r.heat →
    moveOf s h = none →
    s.tmg.allocWaits.any (·.1 == h) = false →
    belowWater s r.part 0 = true →
    startMove h 0 .promote s = some t →
    exec (.heatPromotion h) s = .next t) ∧
  (∀ (h : Nat) (r : PageRec) (s t : State),
    Live s →
    s.rec? h = some r →
    h < 2 ^ 32 →
    2 ≤ r.tier →
    s.getF Reg.tmgMigratePromoteT1 ≤ r.heat →
    moveOf s h = none →
    s.tmg.allocWaits.any (·.1 == h) = false →
    belowWater s r.part 1 = true →
    startMove h 1 .promote s = some t →
    exec (.heatPromotion h) s = .next t) ∧
  (∀ (h : Nat) (r : PageRec) (s : State),
    s.rec? h = some r →
    h < 2 ^ 32 →
    r.tier = 0 ∨ (moveOf s h).isSome = true ∨ s.tmg.allocWaits.any (·.1 == h) = true ∨ (r.tier = 1 ∧ r.heat < s.getF Reg.tmgMigratePromoteT0) ∨ (r.tier = 1 ∧ belowWater s r.part 0 = false) ∨ (r.tier ≠ 1 ∧ r.heat < s.getF Reg.tmgMigratePromoteT1) ∨ (r.tier ≠ 1 ∧ belowWater s r.part 1 = false) →
    exec (.heatPromotion h) s = .next s) ∧
  (∀ (i j dest : Nat) (x : Session) (r : PageRec) (s : State),
    Live s →
    i < 2 ^ 22 →
    j < 2 ^ 32 →
    tget s.ssq.sessions i = some x →
    x.folded[j]? = some r →
    r.tier ≠ 0 →
    dest = (if r.tier = 1 then 0 else 1) →
    (if r.tier = 1 then s.getF Reg.tmgMigratePromoteT0 else s.getF Reg.tmgMigratePromoteT1) ≤ r.heat →
    belowWater s r.part dest = true →
    exec (.heatPromotion ((i + 1) * 2 ^ 32 + j)) s = .next (sessionFolded (fun r s => foldedPromote r dest i s) i j s)) ∧
  (∀ (hot : List (Nat × List (Nat × Nat))) (s : State),
    s.tmg.pinCount < s.getF Reg.tmgHeatCtrlPeriod →
    exec (.heatSweep hot) s = .next s) ∧
  (∀ (s : State),
    Live s →
    s.getF Reg.tmgHeatCtrlPeriod ≤ s.tmg.pinCount →
    ∃ t, exec (.heatSweep []) s = .next t ∧ t.tmg = { s.tmg with pinCount := 0, records := s.tmg.records.map fun r => (r.1, { r.2 with heat := r.2.heat / 2 }) } ∧
    t.ssq = { s.ssq with sessions := s.ssq.sessions.map fun (y : Nat × Session) => (y.1, { y.2 with folded := y.2.folded.map fun q => { q with heat := q.heat / 2 } }) } ∧
    t.pme = { s.pme with columns := s.pme.columns.map fun (c : Nat × Column) => (c.1, { c.2 with folded := c.2.folded.map fun q => { q with heat := q.heat / 2 } }) } ∧
    t.cwp = { s.cwp with pageCounts := (s.cwp.pageCounts.map fun (e : Nat × Nat) => (e.1, e.2 / 2)).filter fun e => e.2 != 0 } ∧ t.ctrs = (s.bump Ctr.tmgHeatSweeps).ctrs ∧ t.regs = s.regs ∧ t.t0 = s.t0) ∧
  (∀ (port addr n h : Nat) (r : PageRec) (s : State),
    Live s →
    s.getF Reg.tmgHeatCtrlPeriod ≤ s.tmg.pinCount →
    port < 2 →
    s.flag (Reg.cxdPortTrayHeat port) = true →
    s.tmg.records = [(h, r)] →
    r.tier = 2 →
    r.base ≤ 2 * (addr / 4096) + port →
    2 * (addr / 4096) + port < r.base + r.slot4k →
    ∃ t, exec (.heatSweep [(port, [(addr, n)])]) s = .next t ∧ t.tmg.records = [(h, { r with heat := min 255 (r.heat / 2 + min 255 n) })] ∧ t.tmg.pinCount = 0 ∧ t.ssq.turns = s.ssq.turns ∧
    t.ssq.sessions = s.ssq.sessions.map (fun (y : Nat × Session) => (y.1, { y.2 with folded := y.2.folded.map fun q =>
      if q.tier = 2 ∧ q.base ≤ 2 * (addr / 4096) + port ∧ 2 * (addr / 4096) + port < q.base + q.slot4k then { q with heat := min 255 (q.heat / 2 + min 255 n) } else { q with heat := q.heat / 2 } })))

/-- 08 R283, R284 and R288: trays and drives; 14 R459: their misbehaviour; 14 R467: the capsule area. -/
def Obligations.TraysAndDrives : Prop :=
  (∀ (p : Nat) (s : State),
    Live s →
    p < 2 →
    s.flag (Reg.cxdPortLinkUp p) = true →
    s.flag (Reg.cxdPortLinkUp (1 - p)) = true →
    exec (.cxdPortDown p) s = .next (logEv .cxdPortDown (pCxd + p) 0xFF [p]
      (((((((s.setF (Reg.cxdPortLinkUp p) 0).setF (Reg.cxdPortWidth p) 0).setF (Reg.cxdPortSingle p) 0).setF (Reg.cxdPortSingle (1 - p)) 1)).setF (Reg.tmgTierCapDegraded 2) 1).bump (Ctr.cxdLinkDowns p)))) ∧
  (∀ (p : Nat) (s : State),
    2 ≤ p ∨ s.flag (Reg.cxdPortLinkUp p) = false →
    exec (.cxdPortDown p) s = .next s) ∧
  (∀ (p lanes : Nat) (s : State),
    Live s →
    p < 2 →
    s.flag (Reg.cxdPortLinkUp p) = false →
    s.flag (Reg.cxdPortLinkUp (1 - p)) = true →
    (tvals s.ssq.wheels).all (·.atBoundary) = true →
    exec (.cxdPortReturn p lanes) s = .next ((((s.setF (Reg.cxdPortLinkUp p) 1).setF (Reg.cxdPortWidth p) lanes).setF (Reg.cxdPortSingle (1 - p)) 0).setF (Reg.tmgTierCapDegraded 2) 0)) ∧
  (∀ (p lanes : Nat) (s : State),
    (tvals s.ssq.wheels).all (·.atBoundary) = false →
    exec (.cxdPortReturn p lanes) s = .next s) ∧
  (∀ (d : Nat) (s : State),
    Live s →
    s.flag (Reg.nvcDriveReady d) = true →
    tget s.frc.labels d = none →
    ∃ t, exec (.nvcDriveFatal d) s = .next t ∧ exec (.nvcDriveFatal d) s = .next (logEv .nvcDriveFailed (pNvc + d) 0xFF [d] ((s.setF (Reg.nvcDriveReady d) 0).setF (Reg.nvcDriveFailed d) 1) |>.setF (Reg.tmgTierCapDegraded 3) 1) ∧
    t.ssq = s.ssq ∧ t.tmg = s.tmg ∧ t.frc.labels = s.frc.labels) ∧
  (∀ (d : Nat) (s : State),
    s.flag (Reg.nvcDriveReady d) = false →
    exec (.nvcDriveFatal d) s = .next s) ∧
  (∀ (d : Nat) (s : State),
    Live s →
    d < 8 →
    exec (.nvcPrsntChange d true) s = .next ((s.setFlag (Reg.nvcDrivePresent d) true).setFlag (Reg.mgcPinLevel (3 + d)) true) ∧
    exec (.nvcPrsntChange d false) s = .next (driveOut d ((s.setFlag (Reg.nvcDrivePresent d) false).setFlag (Reg.mgcPinLevel (3 + d)) false))) ∧
  (∀ (d : Nat) (s : State),
    (tget s.frc.labels d).isSome = true →
    s.flag Reg.frcCapsuleStatArea = true →
    dropMember d s = logEv .frcAreaLost pFrc 0xFF [d] (s.setF Reg.frcCapsuleStatArea 0)) ∧
  (∀ (d : Nat) (hdr : List Byte) (s : State),
    Live s →
    d < 8 →
    s.getF Reg.frcPartnerDriveLimit = 0 →
    ∃ t, exec (.driveProtocolViolation d hdr) s = .next t ∧ t.frc.drives = tset s.frc.drives d ((tgetD s.frc.drives d {}).count 1 true).1 ∧ t.frc.labels = s.frc.labels ∧ t.ssq = s.ssq ∧ t.tmg = s.tmg) ∧
  (∀ (d : Nat) (hdr : List Byte) (s : State),
    Live s →
    d < 8 →
    s.getF Reg.frcPartnerDriveLimit = 1 →
    s.flag (Reg.nvcDriveReady d) = true →
    let u := logEv .nvcProtocol (pNvc + d) 0xFF [d, fieldAt hdr 0 8, fieldAt hdr 8 8, fieldAt hdr 16 8] s
    exec (.driveProtocolViolation d hdr) s = .next (driveOut d ((u.setFrc { u.frc with drives := tset u.frc.drives d ((tgetD u.frc.drives d {}).count 1 true).1 }).bump Ctr.frcPartnerCutoffs))) ∧
  (∀ (p : Nat) (e : List Nat) (s : State),
    Live s →
    p < 2 →
    exec (.trayEventPoll p []) s = .next s ∧ exec (.trayEventPoll p [e]) s = .next (logEv .cxdMedia (pCxd + p) 0xFF (p :: e) s))

/-- 09 R290-R301: the Sluice. What arrives and the link's credits are operands of the decision (log 21). -/
def Obligations.SluiceArbitration : Prop :=
  (∀ (i : Nat) (arr : List Arrival) (cr : List Nat) (s : State),
    Live s →
    i < 53 →
    sluDecoding i (sluArrive i arr s) = false →
    exec (.sluiceDecide i arr cr) s = .next (sluDecide i (sluFinish sendGranted i (sluPurge i (sluArrive i arr s))))) ∧
  (∀ (i : Nat) (arr : List Arrival) (cr : List Nat) (s : State),
    Live s →
    53 ≤ i ∧ i < 61 →
    sluDecoding i s = false →
    exec (.sluiceDecide i arr cr) s = .next (ctlIdle (i - 53) (sluDecide i (sluFinish sendGranted i (announceIdle (i - 53) (grantCredits (i - 53) cr s)))))) ∧
  (∀ (i : Nat) (arr : List Arrival) (cr : List Nat) (s : State),
    Live s →
    i < 61 →
    sluDecoding i (sluArrive i arr s) = true →
    exec (.sluiceDecide i arr cr) s = .next (sluArrive i arr s)) ∧
  (∀ (i : Nat) (arr : List Arrival) (cr : List Nat) (s : State),
    Live s →
    i < 61 →
    exec (.sluicePreempt i arr cr) s = .next (sluPreempt i (sluReturn i cr (sluArrive i arr s)))) ∧
  (∀ (i addr : Nat) (arr : List Arrival) (cr : List Nat) (s : State),
    61 ≤ i →
    exec (.sluiceDecide i arr cr) s = .next s ∧ exec (.sluicePreempt i arr cr) s = .next s ∧ exec (.sluiceHogCutoff i addr) s = .next s ∧ exec (.sluiceWindowBoundary i) s = .next s) ∧
  (∀ (i : Nat) (s : State),
    (∀ r < 33, sluHead s i r = none ∨ (tget (s.slu? i).quar r).isSome = true) →
    sluDecide i s = s) ∧
  (∀ (i r : Nat) (q : SluReq) (s : State),
    i < 53 →
    r < 33 →
    (∀ k < 33, k ≠ r → sluHead s i k = none) →
    sluHead s i r = some q →
    tget (s.slu? i).quar r = none →
    (sluCtrl s i).2.2.2.1 = 0 →
    (s.slu? i).wait r < sluLimit s i r →
    ∃ t, sluDecide i s = t ∧ (t.slu? i).current = some { requester := r, req := q, preemptible := decide (16 ≤ r) } ∧
    (t.slu? i).credit r = max ((s.slu? i).credit r - sluUnits q.bytes) (-2 ^ 31) ∧ (t.slu? i).wait r = 0 ∧
    tgetD (t.slu? i).queues r [] = (tgetD (s.slu? i).queues r []).drop 1 ∧ (∀ k, k ≠ i → t.slu? k = s.slu? k) ∧ t.regs = s.regs) ∧
  (∀ (i a b : Nat) (g : Grant) (s : State),
    a < 16 →
    16 ≤ b →
    (sluHead s i a).isSome = true →
    (tget (s.slu? i).quar a) = none →
    (sluCtrl s i).2.2.2.1 = 0 →
    (s.slu? i).current = none →
    ((sluDecide i s).slu? i).current = some g →
    g.requester < 16 ∧ g.preemptible = false) ∧
  (∀ (i : Nat) (a : Arrival) (s : State),
    i < 19 →
    ((sluArrive i [a] s).slu? i).queues = tset (s.slu? i).queues (arrivalRequester a) (tgetD (s.slu? i).queues (arrivalRequester a) [] ++
      (List.replicate (a.bytes / 69632) { bytes := 69632 } ++ (if a.bytes % 69632 = 0 then [] else [{ bytes := a.bytes % 69632 }])))) ∧
  (∀ (i : Nat) (a : Arrival) (s : State),
    19 ≤ i ∧ i < 53 →
    ((sluArrive i [a] s).slu? i).queues = tset (s.slu? i).queues (arrivalRequester a) (tgetD (s.slu? i).queues (arrivalRequester a) [] ++ [{ bytes := a.bytes }])) ∧
  (∀ (n : Nat) (a : Arrival),
    n < 16 →
    a.part = n →
    arrivalRequester a = (match a.traffic with
      | .stepRead => n
      | .shaftDue => n
      | .dueRecovery => n
      | .movement => 16 + n
      | .other => 16 + n
      | .system => 32)) ∧
  (∀ (i : Nat) (g : Grant) (s : State),
    i < 53 →
    (s.slu? i).current = some g →
    g.preemptible = true →
    (List.range 16).any (fun r => (sluHead s i r).isSome && (tget (s.slu? i).quar r).isNone) = true →
    ∃ u, sluPreempt i s = sluDecide i u ∧ (u.slu? i).current = none ∧ (u.slu? i).credit g.requester = (s.slu? i).credit g.requester + sluUnits g.req.bytes ∧
    (u.slu? i).wait g.requester = sluLimit s i g.requester ∧ tgetD (u.slu? i).queues g.requester [] = g.req :: tgetD (s.slu? i).queues g.requester [] ∧ u.ctrs = (s.bump (Ctr.sluPreemptions i)).ctrs) ∧
  (∀ (i : Nat) (s : State),
    (∀ g, (s.slu? i).current = some g → g.preemptible = false) →
    sluPreempt i s = s) ∧
  (∀ (i addr : Nat) (g : Grant) (s : State),
    s.mgc.off = false →
    i < 53 →
    (s.slu? i).current = some g →
    (sluCtrl s i).2.2.1 = 4 →
    ∃ t, exec (.sluiceHogCutoff i addr) s = .next t ∧ (t.slu? i).current = none ∧ tget (t.slu? i).quar g.requester = some 4 ∧ (t.slu? i).wait g.requester = sluLimit s i g.requester ∧
    tgetD (t.slu? i).queues g.requester [] = g.req :: tgetD (s.slu? i).queues g.requester [] ∧ t.ssq = s.ssq ∧ t.xfe = s.xfe) ∧
  (∀ (i addr : Nat) (s : State),
    (s.slu? i).current = none →
    exec (.sluiceHogCutoff i addr) s = .next s) ∧
  (∀ (i : Nat) (s : State),
    s.mgc.off = false →
    i < 61 →
    ∃ t, exec (.sluiceWindowBoundary i) s = .next t ∧
    (∀ r < 32, (t.slu? i).credit r = min ((s.slu? i).credit r + (sluWeight s i r : Nat)) (2 * (sluWeight s i r : Nat))) ∧
    (t.slu? i).credit 32 = min ((s.slu? i).credit 32 + (s.getF (Reg.sluInstCtrlSysWeight i) : Nat)) (2 * (s.getF (Reg.sluInstCtrlSysWeight i) : Nat)) ∧
    (t.slu? i).quar = ((s.slu? i).quar.map fun q => (q.1, q.2 - 1)).filter (·.2 != 0) ∧ (t.slu? i).ctrl = some (sluCtrlReg s i) ∧
    (t.slu? i).queues = (s.slu? i).queues ∧ (t.slu? i).current = (s.slu? i).current ∧ (∀ k, k ≠ i → t.slu? k = s.slu? k) ∧ t.ssq = s.ssq ∧ t.xfe = s.xfe)

/-- 02 R57: writes of SSQ.TICK that are smaller, equal, or larger by more than MAX_JUMP; 02 R56: through which function. -/
def Obligations.TickWrites : Prop :=
  (∀ (value : Nat) (s : State),
    s.fnShown 0 = true →
    s.mgc.off = false →
    value < s.tick →
    value < 2 ^ 64 →
    exec (.tickWrite 0 value) s = .next (countIo 0 (logEv .ssqTickBackward pSsq 0xFF [s.tick, value] s)) ∧ (logEv .ssqTickBackward pSsq 0xFF [s.tick, value] s).tick = s.tick) ∧
  (∀ (s : State),
    s.fnShown 0 = true →
    s.tick < 2 ^ 64 →
    Table.wf s.regs = true →
    ∃ t, exec (.tickWrite 0 s.tick) s = .next (countIo 0 t) ∧ t.tick = s.tick ∧ (∀ f : Fld, f.key ≠ Reg.ssqTickValue.key → t.getF f = s.getF f) ∧ t = { s with regs := t.regs }) ∧
  (∀ (value : Nat) (s : State),
    s.fnShown 0 = true →
    s.mgc.off = false →
    s.tick ≤ value →
    value < 2 ^ 64 →
    s.getF Reg.ssqTickCtrlMaxJump < value - s.tick →
    Table.wf s.regs = true →
    ∃ t, exec (.tickWrite 0 value) s = .next (countIo 0 (logEv .ssqTickJump pSsq 0xFF [s.tick, value] t)) ∧ t.tick = value ∧ t = { s with regs := t.regs } ∧
    (logEv .ssqTickJump pSsq 0xFF [s.tick, value] t).tick = value) ∧
  (∀ (value : Nat) (s : State),
    s.fnShown 0 = true →
    s.mgc.off = false →
    s.tick ≤ value →
    value < 2 ^ 64 →
    value - s.tick ≤ s.getF Reg.ssqTickCtrlMaxJump →
    Table.wf s.regs = true →
    ∃ t, exec (.tickWrite 0 value) s = .next (countIo 0 t) ∧ t.tick = value ∧ t = { s with regs := t.regs }) ∧
  (∀ (via value : Nat) (s : State),
    via ≠ 0 →
    exec (.tickWrite via value) s = .next (countIo via s))

/-- 03 R106: the draw of a token by its weights and the variate. -/
def Obligations.TokenDraw : Prop :=
  (∀ (ws : List (Nat × Nat)) (u : Nat),
    u < 2 ^ 64 →
    0 < (ws.map (·.2)).sum →
    ∃ r e, ws[r]? = some e ∧ drawToken (u * (ws.map (·.2)).sum) 0 ws = some e.1 ∧ u * (ws.map (·.2)).sum < 2 ^ 64 * ((ws.take (r + 1)).map (·.2)).sum ∧
    ∀ q, q < r → 2 ^ 64 * ((ws.take (q + 1)).map (·.2)).sum ≤ u * (ws.map (·.2)).sum) ∧
  (∀ (m e : Int),
    weight149 (exp2 (Fp.rnd32 (Fp.mul (Fp.rnd32 (Fp.sub (.fin m e) (.fin m e))) log2e))) = 2 ^ 149) ∧
  (∀ (tau topP z : Fp) (topK u t : Nat) (zs : List Fp),
    tau.isZero = false →
    u < 2 ^ 64 →
    ((zs.map (overTemp tau)).any fun z => z.isNan || z == .inf false) = false →
    (rankAll ((List.range (zs.map (overTemp tau)).length).zip (zs.map (overTemp tau)))).head? = some (t, z) →
    z ≠ .inf true →
    (chooseToken tau topP topK u zs).isSome = true)

/-- 03 R94: the merge of two attention partials. -/
def Obligations.PartialsMerge : Prop :=
  (∀ (x y : Partial),
    x.m.isNan = false →
    y.m.isNan = false →
    (mergePartial x y).m = Fp.max2 x.m y.m) ∧
  (∀ (x y : Partial),
    x.m = .inf true →
    y.m = .inf true →
    mergePartial x y = { m := .inf true, l := Fp.zero, a := List.replicate x.a.length Fp.zero }) ∧
  (∀ (x y : Partial) (m : Fp),
    x.m.isNan = false →
    y.m.isNan = false →
    Fp.max2 x.m y.m = m →
    m ≠ .inf true →
    x.a.length = y.a.length →
    let bx := exp2 (Fp.rnd32 (Fp.sub x.m m))
    let bY := exp2 (Fp.rnd32 (Fp.sub y.m m))
    (mergePartial x y).l = Fp.rnd32 (Fp.add (Fp.mul bx x.l) (Fp.mul bY y.l)) ∧ (mergePartial x y).a.length = x.a.length ∧
    ∀ (k : Nat) (p q : Fp), x.a[k]? = some p → y.a[k]? = some q → (mergePartial x y).a[k]? = some (Fp.rnd32 (Fp.add (Fp.mul bx p) (Fp.mul bY q)))) ∧
  (∀ (x y : Fp),
    x.isNan = false →
    y.isNan = false →
    (Fp.max2 x y = x ∧ Fp.le y x = true) ∨ (Fp.max2 x y = y ∧ Fp.le x y = true))

/-- 15 R495, R496: what a reset leaves; 02 R56: the tick; 13 R413: partitions; 15 R499: the boot stage; 09 R301 and its table: CTRL. That a byte never written reads as 0 is the model's choice (log 1). -/
def Obligations.ResetState : Prop :=
  (State.reset.pending = [] ∧ State.reset.out = [] ∧ Table.wf State.reset.regs = true ∧ memsOk State.reset ∧ FuseOk State.reset.sec.fuses) ∧
  (State.reset.getF Reg.mgcBootStage = 0 ∧ State.reset.flag Reg.mgcBootDataReady = false ∧ State.reset.pwr = pwrBoot ∧ State.reset.tick = 0 ∧ State.reset.mgc = {} ∧ State.reset.mgc.off = false ∧ State.reset.mgc.fatal = false ∧ State.reset.mgc.faultN = false) ∧
  (∀ (n : Nat),
    n < 16 →
    State.reset.pstate n = psUnconfigured ∧ State.reset.getF (Reg.mgcPbArrays0 n) = 0 ∧ State.reset.flag (Reg.mgcPbCtrlProtected n) = false) ∧
  (State.reset.hif.sqs = [] ∧ State.reset.hif.cqs = [] ∧ State.reset.ssq = {} ∧ State.reset.tmg.records = [] ∧ State.reset.pme.columns = [] ∧ State.reset.xfe.conns = [] ∧ State.reset.xfe.regions = [] ∧ State.reset.sec.memKeys = [] ∧ State.reset.sec.exchanges = [] ∧ State.reset.frc.staging = []) ∧
  (∀ (k a : Nat),
    memGet (State.reset.tier k) a = 0) ∧
  (∀ (c : Nat),
    State.reset.ctr c = 0) ∧
  (∀ (i : Nat),
    i < 61 →
    sluCtrlReg State.reset i = (4096, 64, 4, 0, 256) ∧ sluCtrl State.reset i = sluCtrlReg State.reset i)

/-- The canonical form of the memories (the model's own, log 1) holds after every step from every state in which it holds. -/
def Obligations.MemoriesStayCanonical : Prop :=
  (∀ (s t : State),
    memsOk s →
    step s = .next t →
    memsOk t) ∧
  (∀ (cs : List Instr) (s : State),
    memsOk s →
    ∃ t, cs.foldl (fun (o : Option State) c => o.bind fun u => match exec c u with
      | .next v => some v
      | _ => none) (some s) = some t ∧ memsOk t ∧ t.pending = s.pending)

/-- 13 R438: SVN_MIN is raised only; 13 R442: the lifecycle goes forward only, at a reset; 13 R446: what the fuses keep. -/
def Obligations.FusesOnlyRise : Prop :=
  (∀ (s t : State),
    FuseOk s.sec.fuses →
    step s = .next t →
    FuseOk t.sec.fuses ∧ s.sec.fuses.lifecycle ≤ t.sec.fuses.lifecycle ∧ s.sec.fuses.svnMin ≤ t.sec.fuses.svnMin) ∧
  (∀ (cs : List Instr) (s t : State),
    FuseOk s.sec.fuses →
    cs.foldl (fun (o : Option State) c => o.bind fun u => match exec c u with | .next v => some v | _ => none) (some s) = some t →
    s.sec.fuses.lifecycle ≤ t.sec.fuses.lifecycle ∧ s.sec.fuses.svnMin ≤ t.sec.fuses.svnMin)

/-- 15 R480: the removal of power and the power-on reset; 15 R504: the straps; 13 R446: only the fuses survive. That the capsule area on the drives outlives power is read from 13 R443 (log 49). -/
def Obligations.WithoutPower : Prop :=
  (∀ (c : Instr) (s : State),
    s.mgc.off = true →
    (∀ pos scope sa, c ≠ .powerOnReset pos scope sa) →
    exec c s = .next s) ∧
  (∀ (c : Instr) (rest : List Instr) (s : State),
    s.mgc.off = true →
    s.pending = c :: rest →
    (∀ pos scope sa, c ≠ .powerOnReset pos scope sa) →
    step s = .next { s with pending := rest }) ∧
  (∀ (pos scope sa : Nat) (s : State),
    s.mgc.off = true →
    ∃ t, exec (.powerOnReset pos scope sa) s = .next t ∧ t.mgc = {} ∧ t.getF Reg.mgcBootStage = 0 ∧ t.getF Reg.mgcStrapPos = pos % 8 ∧ t.ssq = {} ∧ t.hif = {} ∧ t.tmg = {} ∧ t.ctrs = [] ∧
    t.t0 = [] ∧ t.t1 = [] ∧ t.t2 = [] ∧ t.t3 = [] ∧ t.sec.fuses.lifecycle = s.sec.fuses.next.getD s.sec.fuses.lifecycle ∧ t.sec.fuses.svnMin = s.sec.fuses.svnMin ∧ t.pending = s.pending) ∧
  (∀ (pos scope sa : Nat) (s : State),
    s.mgc.off = false →
    exec (.powerOnReset pos scope sa) s = .next s) ∧
  (∀ (s : State),
    s.mgc.off = false →
    ∃ t, exec .powerRemoval s = .next t ∧ t.mgc.off = true ∧ t.t0 = [] ∧ t.t1 = [] ∧ t.ssq = {} ∧ t.hif = {} ∧ t.regs = [] ∧ t.sec.fuses = s.sec.fuses)

/-- 12 R383, R384: what QUEUE_CREATE, QUEUE_DELETE and AQ_CTRL leave in the queue tables once the command itself has completed; 13 R415, R445: what
PARTITION_WIPE and its end leave. -/
def Obligations.QueuesAndWipesComplete : Prop :=
  (∀ (c : Cmd) (s : State),
    Admitted 1 c s →
    onAdmin c = true →
    queueArgsOk c true = true →
    c.arg 0 1 = 0 →
    2 ≤ c.arg 2 2 ∧ c.arg 2 2 ≤ 4096 →
    c.arg 0x10 8 % 4096 = 0 →
    tget s.hif.sqs (qKey c.fn (c.arg 1 1)) = none →
    (tget s.hif.cqs (qKey c.fn (c.arg 4 1))).isSome = true ∧ c.arg 4 1 < queuesOf c.fn →
    ∃ t, exec (.queueCreate c) s = .next t ∧
    tget t.hif.sqs (qKey c.fn (c.arg 1 1)) = some { size := c.arg 2 2, base := c.arg 0x10 8, cqid := c.arg 4 1 } ∧
    (∀ k, k ≠ qKey c.fn (c.arg 1 1) → tget t.hif.sqs k = tget s.hif.sqs k) ∧ t.regs = s.regs ∧ t.ssq = s.ssq ∧ t.tmg = s.tmg ∧ t.pme = s.pme ∧ t.xfe = s.xfe ∧ t.sec = s.sec) ∧
  (∀ (c : Cmd) (s : State),
    Admitted 1 c s →
    onAdmin c = true →
    queueArgsOk c true = true →
    c.arg 0 1 = 1 →
    2 ≤ c.arg 2 2 ∧ c.arg 2 2 ≤ 4096 →
    c.arg 0x10 8 % 4096 = 0 →
    tget s.hif.cqs (qKey c.fn (c.arg 1 1)) = none →
    1 ≤ c.arg 5 1 ∧ c.arg 5 1 < vectorsOf c.fn →
    ∃ t q, exec (.queueCreate c) s = .next t ∧
    tget t.hif.cqs (qKey c.fn (c.arg 1 1)) = some q ∧ q.size = c.arg 2 2 ∧ q.base = c.arg 0x10 8 ∧ q.vector = c.arg 5 1 ∧ q.thresh = c.arg 6 1 ∧ q.delayUs = c.arg 8 2 ∧
    t.hif.sqs = s.hif.sqs ∧ t.regs = s.regs ∧ t.ssq = s.ssq ∧ t.tmg = s.tmg ∧ t.pme = s.pme ∧ t.xfe = s.xfe ∧ t.sec = s.sec) ∧
  (∀ (c : Cmd) (s : State),
    Admitted 2 c s →
    onAdmin c = true →
    queueArgsOk c false = true →
    c.arg 0 1 = 0 →
    (tget s.hif.sqs (qKey c.fn (c.arg 1 1))).isSome = true →
    ∃ t, exec (.queueDelete c) s = .next t ∧
    t.hif.sqs = tdel s.hif.sqs (qKey c.fn (c.arg 1 1)) ∧ qKey c.fn (c.arg 1 1) ∉ t.hif.qErr ∧ t.regs = s.regs ∧ t.ssq = s.ssq ∧ t.tmg = s.tmg ∧ t.xfe = s.xfe) ∧
  (∀ (c : Cmd) (s : State),
    Admitted 2 c s →
    onAdmin c = true →
    queueArgsOk c false = true →
    c.arg 0 1 = 1 →
    (tget s.hif.cqs (qKey c.fn (c.arg 1 1))).isSome = true →
    cqNamed s c.fn (c.arg 1 1) = false →
    ∃ t, exec (.queueDelete c) s = .next t ∧
    (∀ k, k ≠ qKey c.fn (c.arg 1 1) → (tget t.hif.cqs k).isSome = (tget s.hif.cqs k).isSome) ∧
    (∀ i ∈ t.hif.inflight, i.fn = c.fn → i.cq = c.arg 1 1 → i.live = false) ∧
    t.hif.sqs = s.hif.sqs ∧ qKey c.fn (c.arg 1 1) ∉ t.hif.qErr ∧ t.regs = s.regs ∧ t.ssq = s.ssq ∧ t.tmg = s.tmg ∧ t.xfe = s.xfe) ∧
  (∀ (fn sq cq : Nat) (s : State),
    s.fnLive fn = true →
    s.flag (aqEn fn) = false →
    2 ≤ sq ∧ sq ≤ 4096 →
    2 ≤ cq ∧ cq ≤ 4096 →
    Table.wf s.regs = true →
    ∃ t, exec (.aqCtrlWrite fn fn sq cq 1) s = .next (countIo fn t) ∧ t.flag (aqEn fn) = true ∧
    (tget t.hif.sqs (qKey fn 0)).map (fun q => (q.size, q.cqid)) = some (sq, 0) ∧ (tget t.hif.cqs (qKey fn 0)).map (fun q => (q.size, q.vector)) = some (cq, 1) ∧
    (∀ k, k ≠ qKey fn 0 → tget t.hif.sqs k = tget s.hif.sqs k ∧ tget t.hif.cqs k = tget s.hif.cqs k) ∧ t.ssq = s.ssq ∧ t.tmg = s.tmg ∧ t.xfe = s.xfe) ∧
  (∀ (fn sq cq : Nat) (s : State),
    s.fnLive fn = true →
    s.flag (aqEn fn) = true →
    exec (.aqCtrlWrite fn fn sq cq 1) s = .next (countIo fn s)) ∧
  (∀ (fn sq cq : Nat) (s : State),
    s.fnLive fn = true →
    Table.wf s.regs = true →
    ∃ t, exec (.aqCtrlWrite fn fn sq cq 0) s = .next (countIo fn t) ∧ t.flag (aqEn fn) = false ∧
    (∀ q, q < 64 → tget t.hif.sqs (qKey fn q) = none ∧ tget t.hif.cqs (qKey fn q) = none) ∧
    (∀ i ∈ t.hif.inflight, i.fn = fn → i.live = false) ∧ t.ssq = s.ssq ∧ t.tmg = s.tmg ∧ t.xfe = s.xfe) ∧
  (∀ (c : Cmd) (s : State),
    Admitted 0x0706 c s →
    c.argsOk [(0, 1)] = true →
    c.dlen = 0 →
    c.arg 0 1 < 16 →
    s.pstate (c.arg 0 1) = psLocked ∨ s.pstate (c.arg 0 1) = psDraining ∨ s.pstate (c.arg 0 1) = psReplay →
    ∃ t u, exec (.partitionWipe c) s = .next t ∧ t = markStarted c (wipeObjects (c.arg 0 1) u) ∧ u.pstate (c.arg 0 1) = psWiping ∧
    tget u.mgc.wipes (c.arg 0 1) = some c ∧ t.pending = s.pending ∧ t.slu = s.slu ∧ t.mxg = s.mxg ∧ t.sec.fuses = s.sec.fuses) ∧
  (∀ (c : Cmd) (s : State),
    Admitted 0x0706 c s →
    c.argsOk [(0, 1)] = true →
    c.dlen = 0 →
    c.arg 0 1 < 16 →
    s.pstate (c.arg 0 1) = psUnconfigured ∨ s.pstate (c.arg 0 1) = psConfigured ∨ s.pstate (c.arg 0 1) = psWiping →
    exec (.partitionWipe c) s = .next (complete c { status := .partitionState } s)) ∧
  (∀ (n : Nat) (s : State),
    Live s →
    n < 16 →
    s.pstate n = psWiping →
    (List.range 64).any (fun e => s.getF (Reg.cwpExtentPartition e) == n && s.extState e != extFree) = false →
    s.xfe.regions.any (fun r => r.2.part == n && r.2.state == .draining) = false →
    ∃ t, exec (.partitionWipeDone n) s = .next t ∧
    (∀ q, q < 64 → tget t.hif.sqs (qKey (n + 1) q) = none ∧ tget t.hif.cqs (qKey (n + 1) q) = none) ∧
    t.hif.presented.any (fun p => p.2 == n + 1) = false ∧ (∀ i ∈ t.hif.inflight, i.fn = n + 1 → i.live = false) ∧
    t.ssq = s.ssq ∧ t.pme = s.pme ∧ t.slu = s.slu ∧ t.sec.fuses = s.sec.fuses)
end

