-- ==== Sys2Proof/Laws/Keep.lean ====
section
/-!
SUPPORT. Laws/Keep.lean: what an operation can change. `Keep k s t` says that t differs from s at most in the parts of State whose bits
the mask k has, that the memories stay canonical, and that the fuses do not fall. One lemma per operation (Laws/Keep*.lean) gives its mask;
a frame is read off it: (op_keep s).ssq_turns rfl.
-/
namespace Sys2Proof.Machine

open Sys2Proof

/-- The fuses rise, and a change that waits goes forward, if it did before (13 R438, R442). -/
def FuseLe (a b : Fuses) : Prop := FuseOk a → a.lifecycle ≤ b.lifecycle ∧ a.svnMin ≤ b.svnMin ∧ FuseOk b

theorem FuseLe.rfl {a : Fuses} : FuseLe a a := fun h => ⟨Nat.le_refl _, Nat.le_refl _, h⟩
theorem FuseLe.trans {a b c : Fuses} (h : FuseLe a b) (g : FuseLe b c) : FuseLe a c := fun x =>
  ⟨Nat.le_trans (h x).1 (g (h x).2.2).1, Nat.le_trans (h x).2.1 (g (h x).2.2).2.1, (g (h x).2.2).2.2⟩

/-- t differs from s at most in the parts that the mask names. -/
structure Keep (k : Nat) (s t : State) : Prop where
  pending : k.testBit 0 = false → t.pending = s.pending
  regs : k.testBit 1 = false → t.regs = s.regs
  ctrs : k.testBit 2 = false → t.ctrs = s.ctrs
  out : k.testBit 3 = false → t.out = s.out
  free : k.testBit 4 = false → t.free = s.free
  t0 : k.testBit 5 = false → t.t0 = s.t0
  t1 : k.testBit 6 = false → t.t1 = s.t1
  t2 : k.testBit 7 = false → t.t2 = s.t2
  t3 : k.testBit 8 = false → t.t3 = s.t3
  hif : k.testBit 9 = false → t.hif = s.hif
  frc : k.testBit 10 = false → t.frc = s.frc
  secRest : k.testBit 11 = false → { t.sec with fuses := s.sec.fuses } = s.sec
  fuses : k.testBit 12 = false → t.sec.fuses = s.sec.fuses
  mgcRest : k.testBit 13 = false → { t.mgc with fatal := s.mgc.fatal, off := s.mgc.off } = s.mgc
  fatal : k.testBit 14 = false → t.mgc.fatal = s.mgc.fatal
  off : k.testBit 15 = false → t.mgc.off = s.mgc.off
  cwp : k.testBit 16 = false → t.cwp = s.cwp
  sessions : k.testBit 17 = false → t.ssq.sessions = s.ssq.sessions
  incarn : k.testBit 18 = false → t.ssq.incarn = s.ssq.incarn
  corrupt : k.testBit 19 = false → t.ssq.corrupt = s.ssq.corrupt
  models : k.testBit 20 = false → t.ssq.models = s.ssq.models
  tails : k.testBit 21 = false → t.ssq.tails = s.ssq.tails
  adapters : k.testBit 22 = false → t.ssq.adapters = s.ssq.adapters
  wheels : k.testBit 23 = false → t.ssq.wheels = s.ssq.wheels
  partSeq : k.testBit 24 = false → t.ssq.partSeq = s.ssq.partSeq
  turns : k.testBit 25 = false → t.ssq.turns = s.ssq.turns
  tmg : k.testBit 26 = false → t.tmg = s.tmg
  hrc : k.testBit 27 = false → t.hrc = s.hrc
  pme : k.testBit 28 = false → t.pme = s.pme
  xfe : k.testBit 29 = false → t.xfe = s.xfe
  slu : k.testBit 30 = false → t.slu = s.slu
  mxg : k.testBit 31 = false → t.mxg = s.mxg
  mem : memsOk s → memsOk t
  fuse : FuseLe s.sec.fuses t.sec.fuses

theorem Keep.refl (k : Nat) (s : State) : Keep k s s := by
  constructor <;> first | (intro _; rfl) | exact id | exact FuseLe.rfl

theorem Keep.then {k l m : Nat} {s t u : State} (h : Keep k s t) (g : Keep l t u) (hk : k ||| l ||| m = m) : Keep m s u := by
  have a : ∀ i, m.testBit i = false → k.testBit i = false ∧ l.testBit i = false := by
    intro i hi
    have := congrArg (fun x => Nat.testBit x i) hk
    simp only [Nat.testBit_or, hi, Bool.or_false] at this
    simpa using this
  constructor
  · intro hi; obtain ⟨h1, h2⟩ := a 0 hi; rw [g.pending h2, h.pending h1]
  · intro hi; obtain ⟨h1, h2⟩ := a 1 hi; rw [g.regs h2, h.regs h1]
  · intro hi; obtain ⟨h1, h2⟩ := a 2 hi; rw [g.ctrs h2, h.ctrs h1]
  · intro hi; obtain ⟨h1, h2⟩ := a 3 hi; rw [g.out h2, h.out h1]
  · intro hi; obtain ⟨h1, h2⟩ := a 4 hi; rw [g.free h2, h.free h1]
  · intro hi; obtain ⟨h1, h2⟩ := a 5 hi; rw [g.t0 h2, h.t0 h1]
  · intro hi; obtain ⟨h1, h2⟩ := a 6 hi; rw [g.t1 h2, h.t1 h1]
  · intro hi; obtain ⟨h1, h2⟩ := a 7 hi; rw [g.t2 h2, h.t2 h1]
  · intro hi; obtain ⟨h1, h2⟩ := a 8 hi; rw [g.t3 h2, h.t3 h1]
  · intro hi; obtain ⟨h1, h2⟩ := a 9 hi; rw [g.hif h2, h.hif h1]
  · intro hi; obtain ⟨h1, h2⟩ := a 10 hi; rw [g.frc h2, h.frc h1]
  · intro hi; obtain ⟨h1, h2⟩ := a 11 hi; have e1 := h.secRest h1; have e2 := g.secRest h2; rw [← e1, ← e2]
  · intro hi; obtain ⟨h1, h2⟩ := a 12 hi; rw [g.fuses h2, h.fuses h1]
  · intro hi; obtain ⟨h1, h2⟩ := a 13 hi; have e1 := h.mgcRest h1; have e2 := g.mgcRest h2; rw [← e1, ← e2]
  · intro hi; obtain ⟨h1, h2⟩ := a 14 hi; rw [g.fatal h2, h.fatal h1]
  · intro hi; obtain ⟨h1, h2⟩ := a 15 hi; rw [g.off h2, h.off h1]
  · intro hi; obtain ⟨h1, h2⟩ := a 16 hi; rw [g.cwp h2, h.cwp h1]
  · intro hi; obtain ⟨h1, h2⟩ := a 17 hi; rw [g.sessions h2, h.sessions h1]
  · intro hi; obtain ⟨h1, h2⟩ := a 18 hi; rw [g.incarn h2, h.incarn h1]
  · intro hi; obtain ⟨h1, h2⟩ := a 19 hi; rw [g.corrupt h2, h.corrupt h1]
  · intro hi; obtain ⟨h1, h2⟩ := a 20 hi; rw [g.models h2, h.models h1]
  · intro hi; obtain ⟨h1, h2⟩ := a 21 hi; rw [g.tails h2, h.tails h1]
  · intro hi; obtain ⟨h1, h2⟩ := a 22 hi; rw [g.adapters h2, h.adapters h1]
  · intro hi; obtain ⟨h1, h2⟩ := a 23 hi; rw [g.wheels h2, h.wheels h1]
  · intro hi; obtain ⟨h1, h2⟩ := a 24 hi; rw [g.partSeq h2, h.partSeq h1]
  · intro hi; obtain ⟨h1, h2⟩ := a 25 hi; rw [g.turns h2, h.turns h1]
  · intro hi; obtain ⟨h1, h2⟩ := a 26 hi; rw [g.tmg h2, h.tmg h1]
  · intro hi; obtain ⟨h1, h2⟩ := a 27 hi; rw [g.hrc h2, h.hrc h1]
  · intro hi; obtain ⟨h1, h2⟩ := a 28 hi; rw [g.pme h2, h.pme h1]
  · intro hi; obtain ⟨h1, h2⟩ := a 29 hi; rw [g.xfe h2, h.xfe h1]
  · intro hi; obtain ⟨h1, h2⟩ := a 30 hi; rw [g.slu h2, h.slu h1]
  · intro hi; obtain ⟨h1, h2⟩ := a 31 hi; rw [g.mxg h2, h.mxg h1]
  · exact fun x => g.mem (h.mem x)
  · exact FuseLe.trans h.fuse g.fuse

/-- A step before an operation whose mask is known. -/
theorem Keep.after {k l : Nat} {s t u : State} (g : Keep l t u) (h : Keep k s t) (hk : l ||| k = k) : Keep k s u :=
  h.then g (by rw [Nat.or_assoc, hk, Nat.or_self])

theorem Keep.mono {k l : Nat} {s t : State} (h : Keep l s t) (hk : l ||| k = k) : Keep k s t := h.after (Keep.refl k s) hk

theorem Keep.ite {k : Nat} {s t u : State} {c : Prop} [Decidable c] (h : c → Keep k s t) (g : ¬c → Keep k s u) :
    Keep k s (if c then t else u) := by
  by_cases hc : c
  · rw [if_pos hc]; exact h hc
  · rw [if_neg hc]; exact g hc

theorem Keep.getD {k : Nat} {s u : State} {o : Option State} (h : ∀ t, o = some t → Keep k s t) (g : Keep k s u) : Keep k s (o.getD u) := by
  cases o with
  | none => exact g
  | some t => exact h t rfl

theorem Keep.pairIte {β : Type} {k : Nat} {s t : State} {c : Prop} [Decidable c] {b d : β} {y : State × β}
    (h : (if c then (s, b) else y) = (t, d)) (g : y = (t, d) → Keep k s t) : Keep k s t := by
  split at h
  · rw [← (Prod.mk.inj h).1]; exact Keep.refl _ _
  · exact g h

theorem Keep.pairIteElse {β : Type} {k : Nat} {s t : State} {c : Prop} [Decidable c] {b d : β} {y : State × β}
    (h : (if c then y else (s, b)) = (t, d)) (g : y = (t, d) → Keep k s t) : Keep k s t := by
  split at h
  · exact g h
  · rw [← (Prod.mk.inj h).1]; exact Keep.refl _ _

theorem Keep.findSome {α : Type} {k : Nat} {s t : State} {f : α → Option State} {l : List α} (h : l.findSome? f = some t)
    (g : ∀ x, f x = some t → Keep k s t) : Keep k s t := by
  obtain ⟨x, -, hx⟩ := List.exists_of_findSome?_eq_some h
  exact g x hx

theorem Keep.cut {k : Nat} {s t : State} (x : State) (h : Keep k s x) (g : Keep k s x → Keep k s t) : Keep k s t := g h

theorem Keep.foldlBind {α β : Type} {k : Nat} (f : State × β → α → Option (State × β)) (hf : ∀ a x b, f a x = some b → Keep k a.1 b.1) (l : List α)
    (a b : State × β) (h : l.foldl (fun o x => o.bind fun y => f y x) (some a) = some b) : Keep k a.1 b.1 := by
  induction l generalizing a with
  | nil => cases h; exact Keep.refl _ _
  | cons x l ih =>
    simp only [List.foldl_cons, Option.bind_some] at h
    cases e : f a x with
    | none =>
      rw [e] at h
      have n : ∀ l : List α, l.foldl (fun o x => o.bind fun y => f y x) (none : Option (State × β)) = none := by
        intro l; induction l with
        | nil => rfl
        | cons y l ih => simpa using ih
      rw [n] at h; cases h
    | some c => rw [e] at h; exact (ih c h).after (hf a x c e) (Nat.or_self k)

theorem Keep.foldl {α : Type} {k : Nat} {f : State → α → State} {s t : State} (hf : ∀ u x, Keep k u (f u x)) (h : Keep k s t) (l : List α) :
    Keep k s (l.foldl f t) := by
  induction l generalizing t with
  | nil => exact h
  | cons x l ih => exact ih ((hf t x).after h (Nat.or_self k))

theorem Keep.of_pending (s : State) (x : List Instr) : Keep 1 s { s with pending := x } := by
  constructor <;> first | (intro _; rfl) | (intro h; exact absurd h (by decide)) | exact id | exact FuseLe.rfl

theorem Keep.of_regs (s : State) (x : Table Nat) : Keep 2 s { s with regs := x } := by
  constructor <;> first | (intro _; rfl) | (intro h; exact absurd h (by decide)) | exact id | exact FuseLe.rfl

theorem Keep.of_ctrs (s : State) (x : Table Nat) : Keep 4 s { s with ctrs := x } := by
  constructor <;> first | (intro _; rfl) | (intro h; exact absurd h (by decide)) | exact id | exact FuseLe.rfl

theorem Keep.of_out (s : State) (x : List Out) : Keep 8 s { s with out := x } := by
  constructor <;> first | (intro _; rfl) | (intro h; exact absurd h (by decide)) | exact id | exact FuseLe.rfl

theorem Keep.of_free (s : State) (x : Nat) : Keep 16 s { s with free := x } := by
  constructor <;> first | (intro _; rfl) | (intro h; exact absurd h (by decide)) | exact id | exact FuseLe.rfl

theorem Keep.of_hif (s : State) (x : Hif) : Keep 512 s { s with hif := x } := by
  constructor <;> first | (intro _; rfl) | (intro h; exact absurd h (by decide)) | exact id | exact FuseLe.rfl

theorem Keep.of_frc (s : State) (x : Frc) : Keep 1024 s { s with frc := x } := by
  constructor <;> first | (intro _; rfl) | (intro h; exact absurd h (by decide)) | exact id | exact FuseLe.rfl

theorem Keep.of_cwp (s : State) (x : Cwp) : Keep 65536 s { s with cwp := x } := by
  constructor <;> first | (intro _; rfl) | (intro h; exact absurd h (by decide)) | exact id | exact FuseLe.rfl

theorem Keep.of_tmg (s : State) (x : Tmg) : Keep 67108864 s { s with tmg := x } := by
  constructor <;> first | (intro _; rfl) | (intro h; exact absurd h (by decide)) | exact id | exact FuseLe.rfl

theorem Keep.of_hrc (s : State) (x : Hrc) : Keep 134217728 s { s with hrc := x } := by
  constructor <;> first | (intro _; rfl) | (intro h; exact absurd h (by decide)) | exact id | exact FuseLe.rfl

theorem Keep.of_pme (s : State) (x : Pme) : Keep 268435456 s { s with pme := x } := by
  constructor <;> first | (intro _; rfl) | (intro h; exact absurd h (by decide)) | exact id | exact FuseLe.rfl

theorem Keep.of_xfe (s : State) (x : Xfe) : Keep 536870912 s { s with xfe := x } := by
  constructor <;> first | (intro _; rfl) | (intro h; exact absurd h (by decide)) | exact id | exact FuseLe.rfl

theorem Keep.of_slu (s : State) (x : Table SluInst) : Keep 1073741824 s { s with slu := x } := by
  constructor <;> first | (intro _; rfl) | (intro h; exact absurd h (by decide)) | exact id | exact FuseLe.rfl

theorem Keep.of_mxg (s : State) (x : Table ArrayMem) : Keep 2147483648 s { s with mxg := x } := by
  constructor <;> first | (intro _; rfl) | (intro h; exact absurd h (by decide)) | exact id | exact FuseLe.rfl

theorem Keep.of_sessions (s : State) (x : Table Session) : Keep 131072 s { s with ssq := { s.ssq with sessions := x } } := by
  constructor <;> first | (intro _; rfl) | (intro h; exact absurd h (by decide)) | exact id | exact FuseLe.rfl

theorem Keep.of_incarn (s : State) (x : Table Nat) : Keep 262144 s { s with ssq := { s.ssq with incarn := x } } := by
  constructor <;> first | (intro _; rfl) | (intro h; exact absurd h (by decide)) | exact id | exact FuseLe.rfl

theorem Keep.of_corrupt (s : State) (x : List Nat) : Keep 524288 s { s with ssq := { s.ssq with corrupt := x } } := by
  constructor <;> first | (intro _; rfl) | (intro h; exact absurd h (by decide)) | exact id | exact FuseLe.rfl

theorem Keep.of_models (s : State) (x : List Model) : Keep 1048576 s { s with ssq := { s.ssq with models := x } } := by
  constructor <;> first | (intro _; rfl) | (intro h; exact absurd h (by decide)) | exact id | exact FuseLe.rfl

theorem Keep.of_tails (s : State) (x : List Tail) : Keep 2097152 s { s with ssq := { s.ssq with tails := x } } := by
  constructor <;> first | (intro _; rfl) | (intro h; exact absurd h (by decide)) | exact id | exact FuseLe.rfl

theorem Keep.of_adapters (s : State) (x : List Adapter) : Keep 4194304 s { s with ssq := { s.ssq with adapters := x } } := by
  constructor <;> first | (intro _; rfl) | (intro h; exact absurd h (by decide)) | exact id | exact FuseLe.rfl

theorem Keep.of_wheels (s : State) (x : Table Wheel) : Keep 8388608 s { s with ssq := { s.ssq with wheels := x } } := by
  constructor <;> first | (intro _; rfl) | (intro h; exact absurd h (by decide)) | exact id | exact FuseLe.rfl

theorem Keep.of_partSeq (s : State) (x : Nat) : Keep 16777216 s { s with ssq := { s.ssq with partSeq := x } } := by
  constructor <;> first | (intro _; rfl) | (intro h; exact absurd h (by decide)) | exact id | exact FuseLe.rfl

theorem Keep.of_turns (s : State) (x : List Turn) : Keep 33554432 s { s with ssq := { s.ssq with turns := x } } := by
  constructor <;> first | (intro _; rfl) | (intro h; exact absurd h (by decide)) | exact id | exact FuseLe.rfl

theorem Keep.of_mem0 (s : State) (m : List Host.Cell) (h : memWf s.t0 = true → memWf m = true) : Keep 32 s { s with t0 := m } := by
  constructor <;> first | (intro _; rfl) | (intro h; exact absurd h (by decide)) | exact fun w => ⟨h w.1, w.2⟩ | exact FuseLe.rfl

theorem Keep.of_mem1 (s : State) (m : List Host.Cell) (h : memWf s.t1 = true → memWf m = true) : Keep 64 s { s with t1 := m } := by
  constructor <;> first | (intro _; rfl) | (intro h; exact absurd h (by decide)) | exact fun w => ⟨w.1, h w.2.1, w.2.2⟩ | exact FuseLe.rfl

theorem Keep.of_mem1_cwp (s : State) (m : List Host.Cell) (c : Cwp) (h : memWf s.t1 = true → memWf m = true) :
    Keep 65600 s { s with t1 := m, cwp := c } := by
  constructor <;> first | (intro _; rfl) | (intro h; exact absurd h (by decide)) | exact fun w => ⟨w.1, h w.2.1, w.2.2⟩ | exact FuseLe.rfl

theorem Keep.of_mem2 (s : State) (m : List Host.Cell) (h : memWf s.t2 = true → memWf m = true) : Keep 128 s { s with t2 := m } := by
  constructor <;> first | (intro _; rfl) | (intro h; exact absurd h (by decide)) | exact fun w => ⟨w.1, w.2.1, h w.2.2.1, w.2.2.2⟩ | exact FuseLe.rfl

theorem Keep.of_mem3 (s : State) (m : List Host.Cell) (h : memWf s.t3 = true → memWf m = true) : Keep 256 s { s with t3 := m } := by
  constructor <;> first | (intro _; rfl) | (intro h; exact absurd h (by decide)) | exact fun w => ⟨w.1, w.2.1, w.2.2.1, h w.2.2.2⟩ | exact FuseLe.rfl

theorem Keep.foldlFst {α β : Type} {k : Nat} {f : State × β → α → State × β} {s : State} {a : State × β} (hf : ∀ b x, Keep k b.1 (f b x).1)
    (h : Keep k s a.1) (l : List α) : Keep k s (l.foldl f a).1 := by
  induction l generalizing a with
  | nil => exact h
  | cons x l ih => exact ih ((hf a x).after h (Nat.or_self k))

theorem Keep.foldlSnd {α β : Type} {k : Nat} {f : β × State → α → β × State} {s : State} {a : β × State} (hf : ∀ b x, Keep k b.2 (f b x).2)
    (h : Keep k s a.2) (l : List α) : Keep k s (l.foldl f a).2 := by
  induction l generalizing a with
  | nil => exact h
  | cons x l ih => exact ih ((hf a x).after h (Nat.or_self k))

theorem Keep.of_sec (s : State) (x : Sec) (h : x.fuses = s.sec.fuses) : Keep 2048 s { s with sec := x } := by
  constructor <;> first | (intro _; rfl) | (intro h; exact absurd h (by decide)) | exact id | exact fun _ => h | skip
  show FuseLe s.sec.fuses x.fuses
  rw [h]; exact FuseLe.rfl

theorem Keep.of_mgc (s : State) (x : Mgc) (h : x.fatal = s.mgc.fatal) (g : x.off = s.mgc.off) : Keep 8192 s { s with mgc := x } := by
  constructor <;> first | (intro _; rfl) | (intro h; exact absurd h (by decide)) | exact id | exact FuseLe.rfl | exact fun _ => h | exact fun _ => g

theorem Keep.of_mgcFatal (s : State) (x : Mgc) (g : x.off = s.mgc.off) : Keep 24576 s { s with mgc := x } := by
  constructor <;> first | (intro _; rfl) | (intro h; exact absurd h (by decide)) | exact id | exact FuseLe.rfl | exact fun _ => g

theorem Keep.of_ssq (s : State) (x : Ssq) : Keep 67043328 s { s with ssq := x } := by
  constructor <;> first | (intro _; rfl) | (intro h; exact absurd h (by decide)) | exact id | exact FuseLe.rfl

theorem Keep.of_sessions_tmg (s : State) (x : Table Session) (y : Tmg) :
    Keep 67239936 s { s with ssq := { s.ssq with sessions := x }, tmg := y } := by
  constructor <;> first | (intro _; rfl) | (intro h; exact absurd h (by decide)) | exact id | exact FuseLe.rfl

theorem Keep.of_close (s : State) (x : Table Session) (y : Table Nat) (z : Sec) (h : z.fuses = s.sec.fuses) :
    Keep 395264 s { s with ssq := { s.ssq with sessions := x, incarn := y }, sec := z } := by
  constructor <;> first | (intro _; rfl) | (intro h; exact absurd h (by decide)) | exact id | exact fun _ => h | skip
  show FuseLe s.sec.fuses z.fuses
  rw [h]; exact FuseLe.rfl

theorem Keep.of_ssq_sec (s : State) (x : Ssq) (y : Sec) (h : y.fuses = s.sec.fuses) : Keep 67045376 s { s with ssq := x, sec := y } :=
  (Keep.of_sec { s with ssq := x } y h).after ((Keep.of_ssq s x).mono (by decide)) (by decide)

theorem Keep.of_wheels_xfe (s : State) (x : Table Wheel) (y : Xfe) : Keep 545259520 s { s with ssq := { s.ssq with wheels := x }, xfe := y } := by
  constructor <;> first | (intro _; rfl) | (intro h; exact absurd h (by decide)) | exact id | exact FuseLe.rfl

theorem Keep.of_t0_cwp (s : State) (x : List Host.Cell) (y : Cwp) (h : memWf s.t0 = true → memWf x = true) : Keep 65568 s { s with t0 := x, cwp := y } := by
  constructor <;> first | (intro _; rfl) | (intro h; exact absurd h (by decide)) | exact FuseLe.rfl | exact fun w => ⟨h w.1, w.2⟩

theorem Keep.of_wipe (s : State) (x : Table Session) (y : Table Nat) (z : List Nat) (u : Sec) (h : u.fuses = s.sec.fuses) : Keep 919552 s { s with ssq := { s.ssq with sessions := x, incarn := y, corrupt := z }, sec := u } := by
  constructor <;> first | (intro _; rfl) | (intro h; exact absurd h (by decide)) | exact id | exact fun _ => h | skip
  show FuseLe s.sec.fuses _
  rw [h]; exact FuseLe.rfl

theorem Keep.of_tables (s : State) (x : List Model) (y : List Tail) (z : List Adapter) : Keep 7340032 s { s with ssq := { s.ssq with models := x, tails := y, adapters := z } } := by
  constructor <;> first | (intro _; rfl) | (intro h; exact absurd h (by decide)) | exact id | exact FuseLe.rfl

theorem Keep.of_cwp_sec (s : State) (x : Cwp) (u : Sec) (h : u.fuses = s.sec.fuses) : Keep 67584 s { s with cwp := x, sec := u } := by
  constructor <;> first | (intro _; rfl) | (intro h; exact absurd h (by decide)) | exact id | exact fun _ => h | skip
  show FuseLe s.sec.fuses _
  rw [h]; exact FuseLe.rfl

theorem Keep.of_hif_frc (s : State) (x : Hif) (y : Frc) : Keep 1536 s { s with hif := x, frc := y } := by
  constructor <;> first | (intro _; rfl) | (intro h; exact absurd h (by decide)) | exact id | exact FuseLe.rfl

theorem Keep.of_frc_tmg (s : State) (x : Frc) (y : Tmg) : Keep 67109888 s { s with frc := x, tmg := y } := by
  constructor <;> first | (intro _; rfl) | (intro h; exact absurd h (by decide)) | exact id | exact FuseLe.rfl

theorem Keep.of_sec_mxg (s : State) (u : Sec) (x : Table ArrayMem) (h : u.fuses = s.sec.fuses) : Keep 2147485696 s { s with sec := u, mxg := x } := by
  constructor <;> first | (intro _; rfl) | (intro h; exact absurd h (by decide)) | exact id | exact fun _ => h | skip
  show FuseLe s.sec.fuses _
  rw [h]; exact FuseLe.rfl

theorem Keep.of_t0_cwp_mxg (s : State) (x : List Host.Cell) (y : Cwp) (z : Table ArrayMem) (h : memWf s.t0 = true → memWf x = true) :
    Keep 2147549216 s { s with t0 := x, cwp := y, mxg := z } := by
  constructor <;> first | (intro _; rfl) | (intro h; exact absurd h (by decide)) | exact FuseLe.rfl | exact fun w => ⟨h w.1, w.2⟩

end Sys2Proof.Machine
end

