-- ==== Sys2Proof/Laws/Memory.lean ====
section
/-!
SUPPORT. Laws/Memory.lean: every operation on a tier's memory keeps the canonical form, and a byte that was written is read back while
the others stand. The sparse tables obey the same laws.
-/
namespace Sys2Proof.Machine

open Sys2Proof

/-- The canonical form, as a property of pairs and of entries. -/
theorem memWf_iff (m : List Host.Cell) : memWf m = true ↔ m.Pairwise (fun a b => a.1 < b.1) ∧ ∀ c ∈ m, c.2 ≠ 0 := by
  induction m with
  | nil => simp [memWf]
  | cons x m ih =>
    cases m with
    | nil => obtain ⟨a, b⟩ := x; simp [memWf]
    | cons y m =>
      obtain ⟨a, b⟩ := x; obtain ⟨c, d⟩ := y
      simp only [memWf, Bool.and_eq_true, decide_eq_true_eq, bne_iff_ne, ih, List.pairwise_cons, List.mem_cons]
      constructor
      · rintro ⟨⟨h1, h2⟩, ⟨h3, h4⟩, h5⟩
        refine ⟨⟨?_, h3, h4⟩, ?_⟩
        · rintro z (rfl | hz)
          · exact h1
          · exact Nat.lt_trans h1 (h3 z hz)
        · rintro z (rfl | hz)
          · exact h2
          · exact h5 z hz
      · rintro ⟨⟨h1, h2⟩, h3⟩
        exact ⟨⟨h1 _ (.inl rfl), h3 _ (.inl rfl)⟩, h2, fun z hz => h3 z (.inr hz)⟩

theorem memPut_mem {m : List Host.Cell} {i : Nat} {v : Byte} {c : Host.Cell} (h : c ∈ memPut m i v) : c = (i, v) ∨ c ∈ m := by
  induction m with
  | nil => simpa [memPut] using h
  | cons x m ih =>
    obtain ⟨a, b⟩ := x
    unfold memPut at h
    split at h
    · simpa using h
    · split at h
      · rcases List.mem_cons.1 h with h | h
        · exact .inl h
        · exact .inr (List.mem_cons_of_mem _ h)
      · rcases List.mem_cons.1 h with h | h
        · exact .inr (h ▸ List.mem_cons_self ..)
        · rcases ih h with h | h
          · exact .inl h
          · exact .inr (List.mem_cons_of_mem _ h)

theorem memPut_wf {m : List Host.Cell} (i : Nat) {v : Byte} (hv : v ≠ 0) (h : memWf m = true) : memWf (memPut m i v) = true := by
  rw [memWf_iff] at h ⊢
  refine ⟨?_, fun c hc => ?_⟩
  · obtain ⟨h, -⟩ := h
    induction m with
    | nil => simp [memPut]
    | cons x m ih =>
      obtain ⟨a, b⟩ := x
      rw [List.pairwise_cons] at h
      unfold memPut
      split
      · rename_i hlt
        rw [List.pairwise_cons, List.pairwise_cons]
        refine ⟨fun y hy => ?_, h⟩
        rcases List.mem_cons.1 hy with rfl | hy
        · exact hlt
        · exact Nat.lt_trans hlt (h.1 y hy)
      · split
        · rename_i heq
          rw [List.pairwise_cons]
          exact ⟨fun y hy => heq ▸ h.1 y hy, h.2⟩
        · rw [List.pairwise_cons]
          refine ⟨fun y hy => ?_, ih h.2⟩
          rcases memPut_mem hy with rfl | hy
          · show a < i; omega
          · exact h.1 y hy
  · rcases memPut_mem hc with rfl | hc
    · exact hv
    · exact h.2 c hc

theorem memDel_sublist (m : List Host.Cell) (i : Nat) : (memDel m i).Sublist m := by
  induction m with
  | nil => exact .slnil
  | cons x m ih =>
    obtain ⟨a, b⟩ := x
    unfold memDel
    split
    · exact List.sublist_cons_self ..
    · exact ih.cons_cons _

theorem memWf_sublist {m n : List Host.Cell} (hs : n.Sublist m) (h : memWf m = true) : memWf n = true := by
  rw [memWf_iff] at h ⊢
  exact ⟨h.1.sublist hs, fun c hc => h.2 c (hs.subset hc)⟩

theorem memDel_wf {m : List Host.Cell} (i : Nat) (h : memWf m = true) : memWf (memDel m i) = true := memWf_sublist (memDel_sublist m i) h

/-- Writing a byte keeps the canonical form. -/
theorem memSet_wf {m : List Host.Cell} (i : Nat) (v : Byte) (h : memWf m = true) : memWf (memSet m i v) = true := by
  unfold memSet
  split
  · exact memDel_wf i h
  · rename_i hv; exact memPut_wf i hv h

/-- Writing bytes keeps the canonical form. -/
theorem memWrite_wf {m : List Host.Cell} (a : Nat) (b : List Byte) (h : memWf m = true) : memWf (memWrite m a b) = true := by
  induction b generalizing m a with
  | nil => exact h
  | cons x b ih => exact ih (a + 1) (memSet_wf a x h)

/-- Overwriting a range with zeros keeps the canonical form. -/
theorem memZero_wf {m : List Host.Cell} (a n : Nat) (h : memWf m = true) : memWf (memZero m a n) = true :=
  memWf_sublist List.filter_sublist h

/-- A run of conditional byte writes keeps the canonical form. -/
theorem memFold_wf {m : List Host.Cell} (l : List Nat) (p : Nat → Bool) (at_ : Nat → Nat) (v : Nat → Byte) (h : memWf m = true) :
    memWf (l.foldl (fun m i => if p i then memSet m (at_ i) (v i) else m) m) = true := by
  induction l generalizing m with
  | nil => exact h
  | cons i l ih =>
    apply ih
    dsimp only
    split
    · exact memSet_wf _ _ h
    · exact h

theorem memFoldAll_wf {m : List Host.Cell} (l : List Nat) (at_ : Nat → Nat) (v : Nat → Byte) (h : memWf m = true) :
    memWf (l.foldl (fun m i => memSet m (at_ i) (v i)) m) = true := by
  induction l generalizing m with
  | nil => exact h
  | cons i l ih => exact ih (memSet_wf _ _ h)

-- Reading back

theorem memGet_of_lt {m : List Host.Cell} {i : Nat} (h : ∀ c ∈ m, i < c.1) : memGet m i = 0 := by
  induction m with
  | nil => rfl
  | cons x m ih =>
    obtain ⟨a, b⟩ := x
    have := h (a, b) (List.mem_cons_self ..)
    unfold memGet
    rw [if_neg (by intro e; simp only [e] at this; omega)]
    exact ih fun c hc => h c (List.mem_cons_of_mem _ hc)

theorem memGet_memPut {m : List Host.Cell} (hm : m.Pairwise (fun a b => a.1 < b.1)) (i : Nat) (v : Byte) (j : Nat) :
    memGet (memPut m i v) j = if j = i then v else memGet m j := by
  induction m with
  | nil => simp [memPut, memGet, eq_comm]
  | cons x m ih =>
    obtain ⟨a, b⟩ := x
    rw [List.pairwise_cons] at hm
    unfold memPut
    split
    · simp [memGet, eq_comm]
    · split
      · rename_i e; subst e
        by_cases hj : j = i
        · simp [memGet, hj]
        · simp [memGet, Ne.symm hj, hj]
      · rename_i h1 h2
        by_cases hj : j = i
        · have : a ≠ j := by omega
          rw [memGet, if_neg this, ih hm.2, if_pos hj, if_pos hj]
        · simp [memGet, ih hm.2, hj]

theorem memGet_memDel {m : List Host.Cell} (hm : m.Pairwise (fun a b => a.1 < b.1)) (i j : Nat) :
    memGet (memDel m i) j = if j = i then 0 else memGet m j := by
  induction m with
  | nil => simp [memDel, memGet]
  | cons x m ih =>
    obtain ⟨a, b⟩ := x
    rw [List.pairwise_cons] at hm
    unfold memDel
    split
    · rename_i e; subst e
      by_cases hj : j = a
      · subst hj; rw [if_pos rfl]; exact memGet_of_lt hm.1
      · rw [if_neg hj, memGet, if_neg (Ne.symm hj)]
    · rename_i h
      by_cases hj : j = i
      · have : a ≠ j := by omega
        rw [memGet, if_neg this, ih hm.2, if_pos hj, if_pos hj]
      · simp [memGet, ih hm.2, hj]

/-- A byte that was written is read back, and every other address reads as before. -/
theorem memGet_memSet {m : List Host.Cell} (hm : memWf m = true) (i : Nat) (v : Byte) (j : Nat) :
    memGet (memSet m i v) j = if j = i then v else memGet m j := by
  have h := ((memWf_iff m).1 hm).1
  unfold memSet
  split
  · rename_i e; rw [memGet_memDel h, e]
  · exact memGet_memPut h i v j

-- Sparse tables

theorem tget_tset {α : Type} (t : Table α) (i : Nat) (v : α) : tget (tset t i v) i = some v := by
  induction t with
  | nil => simp [tset, tget]
  | cons x t ih =>
    obtain ⟨k, u⟩ := x
    unfold tset
    split
    · simp [tget]
    · split
      · simp [tget]
      · rename_i h; simp [tget, Ne.symm h, ih]

theorem tget_tset_ne {α : Type} (t : Table α) {i j : Nat} (v : α) (h : j ≠ i) : tget (tset t i v) j = tget t j := by
  induction t with
  | nil => simp [tset, tget, Ne.symm h]
  | cons x t ih =>
    obtain ⟨k, u⟩ := x
    unfold tset
    split
    · simp [tget, Ne.symm h]
    · split
      · rename_i e; subst e; simp [tget, Ne.symm h]
      · simp [tget, ih]

end Sys2Proof.Machine
end

