-- ==== Sys2Proof/Laws/KeepOps.lean ====
section
/-!
SUPPORT. Laws/KeepOps.lean: what each operation of Machine/Ops.lean can change (Laws/Keep.lean).
-/
set_option Elab.async false
set_option linter.all false
namespace Sys2Proof.Machine

open Sys2Proof

theorem setTier_keep (s : State) (k : Nat) (m : List Host.Cell) (h : memWf (s.tier k) = true → memWf m = true) : Keep 480 s (s.setTier k m) := by
  unfold State.setTier
  split
  · exact (Keep.of_mem0 s m h).mono (by decide)
  · exact (Keep.of_mem1 s m h).mono (by decide)
  · exact (Keep.of_mem2 s m h).mono (by decide)
  · refine (Keep.of_mem3 s m ?_).mono (by decide)
    unfold State.tier at h
    split at h <;> first | exact h | contradiction

theorem setTier1_keep (s : State) (m : List Host.Cell) (h : memWf s.t1 = true → memWf m = true) : Keep 64 s (s.setTier 1 m) := Keep.of_mem1 s m h

theorem setF_keep (s : State) (f : Fld) (v : Nat) : Keep 2 s (State.setF s f v) := by
  unfold State.setF
  iterate 30 (all_goals try first
    | with_reducible exact Keep.refl _ _
    | with_reducible assumption
    | (extract_lets +onlyGivenNames zz; refine Keep.cut zz ?_ (fun _ => ?_); (rotate_left; (try clear_value zz); rotate_right; subst zz))
    | (extract_lets +onlyGivenNames zz; subst zz)
    | with_reducible refine Keep.ite (fun _ => ?_) (fun _ => ?_)
    | split
    | with_reducible refine (Keep.of_regs _ _).after ?_ (by decide))

theorem setFlag_keep (s : State) (f : Fld) (b : Bool) : Keep 2 s (State.setFlag s f b) := by
  unfold State.setFlag
  iterate 30 (all_goals try first
    | with_reducible exact Keep.refl _ _
    | with_reducible assumption
    | with_reducible refine (setF_keep ..).after ?_ (by decide)
    | with_reducible refine Keep.ite (fun _ => ?_) (fun _ => ?_)
    | split)

theorem satAdd_keep (s : State) (f : Fld) (n : Nat) : Keep 2 s (State.satAdd s f n) := by
  unfold State.satAdd
  iterate 30 (all_goals try first
    | with_reducible exact Keep.refl _ _
    | with_reducible assumption
    | with_reducible refine (setF_keep ..).after ?_ (by decide)
    | with_reducible refine Keep.ite (fun _ => ?_) (fun _ => ?_)
    | split)

theorem w1c_keep (s : State) (f : Fld) (v : Nat) : Keep 2 s (State.w1c s f v) := by
  unfold State.w1c
  iterate 30 (all_goals try first
    | with_reducible exact Keep.refl _ _
    | with_reducible assumption
    | with_reducible refine (setF_keep ..).after ?_ (by decide)
    | with_reducible refine Keep.ite (fun _ => ?_) (fun _ => ?_)
    | split)

theorem bumpBy_keep (s : State) (off n : Nat) : Keep 4 s (State.bumpBy s off n) := by
  unfold State.bumpBy
  iterate 30 (all_goals try first
    | with_reducible exact Keep.refl _ _
    | with_reducible assumption
    | with_reducible refine Keep.ite (fun _ => ?_) (fun _ => ?_)
    | split
    | with_reducible refine (Keep.of_ctrs _ _).after ?_ (by decide))

theorem bump_keep (s : State) (off : Nat) : Keep 4 s (State.bump s off) := by
  unfold State.bump
  iterate 30 (all_goals try first
    | with_reducible exact Keep.refl _ _
    | with_reducible assumption
    | with_reducible refine (bumpBy_keep ..).after ?_ (by decide)
    | with_reducible refine Keep.ite (fun _ => ?_) (fun _ => ?_)
    | split)

theorem emit_keep (s : State) (o : Out) : Keep 8 s (State.emit s o) := by
  unfold State.emit
  iterate 30 (all_goals try first
    | with_reducible exact Keep.refl _ _
    | with_reducible assumption
    | with_reducible refine Keep.ite (fun _ => ?_) (fun _ => ?_)
    | split
    | with_reducible refine (Keep.of_out _ _).after ?_ (by decide))

theorem emits_keep (s : State) (l : List Out) : Keep 8 s (State.emits s l) := by
  unfold State.emits
  iterate 30 (all_goals try first
    | with_reducible exact Keep.refl _ _
    | with_reducible assumption
    | with_reducible refine Keep.ite (fun _ => ?_) (fun _ => ?_)
    | split
    | with_reducible refine (Keep.of_out _ _).after ?_ (by decide))

theorem fresh_keep {s : State} {x0 : Nat} {t0 : State} (h : State.fresh s = (x0, t0)) : Keep 16 s t0 := by
  unfold State.fresh at h
  try dsimp only at h
  repeat' (first | split at h)
  all_goals try (exact absurd h (by simp only [reduceCtorEq, not_false_eq_true]))
  all_goals try (with_reducible obtain ⟨rfl, rfl⟩ := Prod.mk.inj h)
  iterate 30 (all_goals try first
    | with_reducible exact Keep.refl _ _
    | with_reducible assumption
    | with_reducible refine Keep.pairIte (by assumption) (fun _ => ?_)
    | with_reducible refine Keep.pairIteElse (by assumption) (fun _ => ?_)
    | with_reducible refine Keep.ite (fun _ => ?_) (fun _ => ?_)
    | split
    | with_reducible refine (Keep.of_free _ _).after ?_ (by decide))
theorem fresh_keepP (s : State) : Keep 16 s (State.fresh s).2 := fresh_keep (s := s) rfl

theorem freshBytes_keep {s : State} {n : Nat} {x0 : List Byte} {t0 : State} (h : State.freshBytes s n = (x0, t0)) : Keep 16 s t0 := by
  unfold State.freshBytes at h
  try dsimp only at h
  repeat' (first | split at h)
  all_goals try (exact absurd h (by simp only [reduceCtorEq, not_false_eq_true]))
  all_goals try (with_reducible obtain ⟨rfl, rfl⟩ := Prod.mk.inj h)
  iterate 30 (all_goals try first
    | with_reducible exact Keep.refl _ _
    | with_reducible assumption
    | with_reducible refine Keep.pairIte (by assumption) (fun _ => ?_)
    | with_reducible refine Keep.pairIteElse (by assumption) (fun _ => ?_)
    | with_reducible refine Keep.ite (fun _ => ?_) (fun _ => ?_)
    | split
    | with_reducible refine (Keep.of_free _ _).after ?_ (by decide))
theorem freshBytes_keepP (s : State) (n : Nat) : Keep 16 s (State.freshBytes s n).2 := freshBytes_keep (s := s) (n := n) rfl

theorem putMsix_keep (fn vector : Nat) (v : MsixVec) (s : State) : Keep 512 s (putMsix fn vector v s) := by
  unfold putMsix
  iterate 30 (all_goals try first
    | with_reducible exact Keep.refl _ _
    | with_reducible assumption
    | (extract_lets +onlyGivenNames zz; refine Keep.cut zz ?_ (fun _ => ?_); (rotate_left; (try clear_value zz); rotate_right; subst zz))
    | (extract_lets +onlyGivenNames zz; subst zz)
    | with_reducible refine Keep.ite (fun _ => ?_) (fun _ => ?_)
    | split
    | with_reducible refine (Keep.of_hif _ _).after ?_ (by decide))

theorem signal_keep (s : State) (fn vector : Nat) : Keep 524 s (State.signal s fn vector) := by
  unfold State.signal
  iterate 30 (all_goals try first
    | with_reducible exact Keep.refl _ _
    | with_reducible assumption
    | (extract_lets +onlyGivenNames zz; refine Keep.cut zz ?_ (fun _ => ?_); (rotate_left; (try clear_value zz); rotate_right; subst zz))
    | (extract_lets +onlyGivenNames zz; subst zz)
    | with_reducible refine (putMsix_keep ..).after ?_ (by decide)
    | with_reducible refine (emit_keep ..).after ?_ (by decide)
    | with_reducible refine (bump_keep ..).after ?_ (by decide)
    | with_reducible refine Keep.ite (fun _ => ?_) (fun _ => ?_)
    | split)

theorem powered_keep {k : Nat} (f : State → State) (s : State) (h : ∀ s, Keep k s (f s)) : Keep k s (powered f s) := by
  unfold powered; split
  · exact Keep.refl _ _
  · exact h s

theorem hostRing_keep (r : EvRec) (s : State) : Keep 1550 s (hostRing r s) := by
  unfold hostRing
  iterate 30 (all_goals try first
    | with_reducible exact Keep.refl _ _
    | with_reducible assumption
    | (extract_lets +onlyGivenNames zz; refine Keep.cut zz ?_ (fun _ => ?_); (rotate_left; (try clear_value zz); rotate_right; subst zz))
    | (extract_lets +onlyGivenNames zz; subst zz)
    | with_reducible refine (signal_keep ..).after ?_ (by decide)
    | with_reducible refine (emit_keep ..).after ?_ (by decide)
    | with_reducible refine (bump_keep ..).after ?_ (by decide)
    | with_reducible refine (satAdd_keep ..).after ?_ (by decide)
    | with_reducible refine (setF_keep ..).after ?_ (by decide)
    | with_reducible refine Keep.ite (fun _ => ?_) (fun _ => ?_)
    | split
    | with_reducible refine (Keep.of_frc _ _).after ?_ (by decide))

theorem traceRecord_keep (r : TraceRec) (s : State) : Keep 2048 s (traceRecord r s) := by
  unfold traceRecord
  iterate 30 (all_goals try first
    | with_reducible exact Keep.refl _ _
    | with_reducible assumption
    | (extract_lets +onlyGivenNames zz; refine Keep.cut zz ?_ (fun _ => ?_); (rotate_left; (try clear_value zz); rotate_right; subst zz))
    | (extract_lets +onlyGivenNames zz; subst zz)
    | with_reducible refine Keep.ite (fun _ => ?_) (fun _ => ?_)
    | split
    | with_reducible refine (Keep.of_sec _ _ (by rfl)).after ?_ (by decide))

theorem logFull_keep (e : Ev) (slot y2 part sev cseq : Nat) (detail : List Nat) (s : State) : Keep 3598 s (logFull e slot y2 part sev cseq detail s) := by
  unfold logFull
  iterate 30 (all_goals try first
    | with_reducible exact Keep.refl _ _
    | with_reducible assumption
    | (extract_lets +onlyGivenNames zz; refine Keep.cut zz ?_ (fun _ => ?_); (rotate_left; (try clear_value zz); rotate_right; subst zz))
    | (extract_lets +onlyGivenNames zz; subst zz)
    | with_reducible refine (traceRecord_keep ..).after ?_ (by decide)
    | with_reducible refine (hostRing_keep ..).after ?_ (by decide)
    | with_reducible refine (bump_keep ..).after ?_ (by decide)
    | with_reducible refine (setF_keep ..).after ?_ (by decide)
    | with_reducible refine Keep.getD (fun _ _ => ?_) ?_
    | with_reducible refine Keep.ite (fun _ => ?_) (fun _ => ?_)
    | split
    | with_reducible refine (Keep.of_frc _ _).after ?_ (by decide))

theorem logEv_keep (e : Ev) (slot part : Nat) (detail : List Nat) (s : State) : Keep 3598 s (logEv e slot part detail s) := by
  unfold logEv
  iterate 30 (all_goals try first
    | with_reducible exact Keep.refl _ _
    | with_reducible assumption
    | with_reducible refine (logFull_keep ..).after ?_ (by decide)
    | with_reducible refine Keep.ite (fun _ => ?_) (fun _ => ?_)
    | split)

end Sys2Proof.Machine
end

