-- ==== Sys2Proof/Laws/KeepOperands.lean ====
section
/-!
SUPPORT. Laws/KeepOperands.lean: what each operation of Machine/Operands.lean can change (Laws/Keep.lean).
-/
set_option Elab.async false
set_option linter.all false
namespace Sys2Proof.Machine

open Sys2Proof

theorem writeAt_keep (s : State) (k : Nat) (at_ : Nat → Nat) (b : List Byte) : Keep 66016 s (s.writeAt k at_ b) := by
  unfold State.writeAt
  dsimp only
  with_reducible refine (Keep.of_cwp _ _).after ?_ (by decide)
  refine (setTier_keep _ _ _ fun h => ?_).mono (by decide)
  exact memFold_wf _ _ _ _ h

theorem writeAt1_keep (s : State) (at_ : Nat → Nat) (b : List Byte) : Keep 65600 s (s.writeAt 1 at_ b) := by
  unfold State.writeAt
  dsimp only
  with_reducible refine (Keep.of_cwp _ _).after ?_ (by decide)
  refine (setTier1_keep _ _ fun h => ?_).mono (by decide)
  exact memFold_wf _ _ _ _ h

theorem t1Write_keep (s : State) (a : Nat) (b : List Byte) : Keep 65600 s (s.t1Write a b) := writeAt1_keep ..

theorem directWrite1_keep (s : State) (n a : Nat) (b : List Byte) : Keep 65600 s (s.directWrite n 1 a b) := writeAt1_keep ..

theorem directWrite_keep (s : State) (n k a : Nat) (b : List Byte) : Keep 66016 s (s.directWrite n k a b) := writeAt_keep ..

theorem tierAnswers_keep (tier base units : Nat) (s : State) : Keep 67109888 s (tierAnswers tier base units s) := by
  unfold tierAnswers
  iterate 30 (all_goals try first
    | with_reducible exact Keep.refl _ _
    | with_reducible assumption
    | (extract_lets +onlyGivenNames zz; refine Keep.cut zz ?_ (fun _ => ?_); (rotate_left; (try clear_value zz); rotate_right; subst zz))
    | (extract_lets +onlyGivenNames zz; subst zz)
    | with_reducible refine Keep.foldl (fun _ _ => ?_) ?_ _
    | with_reducible refine Keep.foldlFst (fun _ _ => ?_) ?_ _
    | with_reducible refine Keep.foldlSnd (fun _ _ => ?_) ?_ _
    | with_reducible refine Keep.ite (fun _ => ?_) (fun _ => ?_)
    | split
    | with_reducible refine (Keep.of_frc _ _).after ?_ (by decide)
    | with_reducible refine (Keep.of_frc_tmg _ _ _).after ?_ (by decide))

theorem countUnits_keep (k base units : Nat) (write : Bool) (s : State) : Keep 4 s (countUnits k base units write s) := by
  unfold countUnits
  iterate 30 (all_goals try first
    | with_reducible exact Keep.refl _ _
    | with_reducible assumption
    | (extract_lets +onlyGivenNames zz; refine Keep.cut zz ?_ (fun _ => ?_); (rotate_left; (try clear_value zz); rotate_right; subst zz))
    | (extract_lets +onlyGivenNames zz; subst zz)
    | with_reducible refine (bump_keep ..).after ?_ (by decide)
    | with_reducible refine Keep.foldl (fun _ _ => ?_) ?_ _
    | with_reducible refine Keep.foldlFst (fun _ _ => ?_) ?_ _
    | with_reducible refine Keep.foldlSnd (fun _ _ => ?_) ?_ _
    | with_reducible refine Keep.ite (fun _ => ?_) (fun _ => ?_)
    | split)

end Sys2Proof.Machine
end

