-- ==== Sys2Proof/Laws/KeepFaults.lean ====
section
/-!
SUPPORT. Laws/KeepFaults.lean: what each operation of Machine/Faults.lean can change (Laws/Keep.lean).
-/
set_option Elab.async false
set_option linter.all false
namespace Sys2Proof.Machine

open Sys2Proof

theorem setFrc_keep (s : State) (f : Frc) : Keep 1024 s (State.setFrc s f) := by
  unfold State.setFrc
  iterate 30 (all_goals try first
    | with_reducible exact Keep.refl _ _
    | with_reducible assumption
    | with_reducible refine Keep.ite (fun _ => ?_) (fun _ => ?_)
    | split
    | with_reducible refine (Keep.of_frc _ _).after ?_ (by decide))

theorem goFatal_keep (s : State) : Keep 24582 s (goFatal s) := by
  unfold goFatal
  iterate 30 (all_goals try first
    | with_reducible exact Keep.refl _ _
    | with_reducible assumption
    | (extract_lets +onlyGivenNames zz; refine Keep.cut zz ?_ (fun _ => ?_); (rotate_left; (try clear_value zz); rotate_right; subst zz))
    | (extract_lets +onlyGivenNames zz; subst zz)
    | with_reducible refine (bump_keep ..).after ?_ (by decide)
    | with_reducible refine (setF_keep ..).after ?_ (by decide)
    | with_reducible refine Keep.ite (fun _ => ?_) (fun _ => ?_)
    | split
    | with_reducible refine (Keep.of_mgcFatal _ _ (by rfl)).after ?_ (by decide))

theorem modCapsule_keep (session : Nat) (f : Capsule → Capsule) (s : State) : Keep 1024 s (modCapsule session f s) := by
  unfold modCapsule
  iterate 30 (all_goals try first
    | with_reducible exact Keep.refl _ _
    | with_reducible assumption
    | (extract_lets +onlyGivenNames zz; refine Keep.cut zz ?_ (fun _ => ?_); (rotate_left; (try clear_value zz); rotate_right; subst zz))
    | (extract_lets +onlyGivenNames zz; subst zz)
    | with_reducible refine (setFrc_keep ..).after ?_ (by decide)
    | with_reducible refine Keep.ite (fun _ => ?_) (fun _ => ?_)
    | split)

theorem capRecord_keep (session : Nat) (r : CapRec) (s : State) : Keep 1024 s (capRecord session r s) := by
  unfold capRecord
  iterate 30 (all_goals try first
    | with_reducible exact Keep.refl _ _
    | with_reducible assumption
    | with_reducible refine (modCapsule_keep ..).after ?_ (by decide)
    | with_reducible refine Keep.ite (fun _ => ?_) (fun _ => ?_)
    | split)

theorem capEvent_keep (session kind seq : Nat) (st : Status) (s : State) : Keep 1024 s (capEvent session kind seq st s) := by
  unfold capEvent
  iterate 30 (all_goals try first
    | with_reducible exact Keep.refl _ _
    | with_reducible assumption
    | with_reducible refine (capRecord_keep ..).after ?_ (by decide)
    | with_reducible refine Keep.ite (fun _ => ?_) (fun _ => ?_)
    | split)

theorem capCommand_keep (session op : Nat) (c : Cmd) (s : State) : Keep 1024 s (capCommand session op c s) := by
  unfold capCommand
  iterate 30 (all_goals try first
    | with_reducible exact Keep.refl _ _
    | with_reducible assumption
    | (extract_lets +onlyGivenNames zz; refine Keep.cut zz ?_ (fun _ => ?_); (rotate_left; (try clear_value zz); rotate_right; subst zz))
    | (extract_lets +onlyGivenNames zz; subst zz)
    | with_reducible refine (capRecord_keep ..).after ?_ (by decide)
    | with_reducible refine Keep.ite (fun _ => ?_) (fun _ => ?_)
    | split)

theorem setMach_keep (k : Nat) (m : ErrMachine) (s : State) : Keep 1024 s (setMach k m s) := by
  unfold setMach
  iterate 30 (all_goals try first
    | with_reducible exact Keep.refl _ _
    | with_reducible assumption
    | (extract_lets +onlyGivenNames zz; refine Keep.cut zz ?_ (fun _ => ?_); (rotate_left; (try clear_value zz); rotate_right; subst zz))
    | (extract_lets +onlyGivenNames zz; subst zz)
    | with_reducible refine (setFrc_keep ..).after ?_ (by decide)
    | with_reducible refine Keep.ite (fun _ => ?_) (fun _ => ?_)
    | split)

theorem setElog_keep (slot : Nat) (l : ErrLog) (s : State) : Keep 1024 s (setElog slot l s) := by
  unfold setElog
  iterate 30 (all_goals try first
    | with_reducible exact Keep.refl _ _
    | with_reducible assumption
    | (extract_lets +onlyGivenNames zz; refine Keep.cut zz ?_ (fun _ => ?_); (rotate_left; (try clear_value zz); rotate_right; subst zz))
    | (extract_lets +onlyGivenNames zz; subst zz)
    | with_reducible refine (setFrc_keep ..).after ?_ (by decide)
    | with_reducible refine Keep.ite (fun _ => ?_) (fun _ => ?_)
    | split)

theorem modEntry_keep (slot idx : Nat) (f : ErrEntry → ErrEntry) (s : State) : Keep 1024 s (modEntry slot idx f s) := by
  unfold modEntry
  iterate 30 (all_goals try first
    | with_reducible exact Keep.refl _ _
    | with_reducible assumption
    | (extract_lets +onlyGivenNames zz; refine Keep.cut zz ?_ (fun _ => ?_); (rotate_left; (try clear_value zz); rotate_right; subst zz))
    | (extract_lets +onlyGivenNames zz; subst zz)
    | with_reducible refine (setElog_keep ..).after ?_ (by decide)
    | with_reducible refine Keep.ite (fun _ => ?_) (fun _ => ?_)
    | split)

theorem finishEntry_keep (slot idx result : Nat) (retired : Bool) (s : State) : Keep 3598 s (finishEntry slot idx result retired s) := by
  unfold finishEntry
  iterate 30 (all_goals try first
    | with_reducible exact Keep.refl _ _
    | with_reducible assumption
    | (extract_lets +onlyGivenNames zz; refine Keep.cut zz ?_ (fun _ => ?_); (rotate_left; (try clear_value zz); rotate_right; subst zz))
    | (extract_lets +onlyGivenNames zz; subst zz)
    | with_reducible refine (setElog_keep ..).after ?_ (by decide)
    | with_reducible refine (capRecord_keep ..).after ?_ (by decide)
    | with_reducible refine (logFull_keep ..).after ?_ (by decide)
    | with_reducible refine Keep.ite (fun _ => ?_) (fun _ => ?_)
    | split)

theorem startHandler_keep (n slot inst idx : Nat) (s : State) : Keep 3598 s (startHandler n slot inst idx s) := by
  induction n generalizing idx s with
  | zero => exact Keep.refl _ _
  | succ n ih =>
    unfold startHandler
    dsimp only
    iterate 12 (all_goals try first
      | with_reducible exact Keep.refl _ _
      | with_reducible refine (ih _ _).after ?_ (by decide)
      | with_reducible refine (setFrc_keep ..).after ?_ (by decide)
      | with_reducible refine (setMach_keep ..).after ?_ (by decide)
      | with_reducible refine (bump_keep ..).after ?_ (by decide)
      | with_reducible refine (finishEntry_keep ..).after ?_ (by decide)
      | split)

theorem countAgainst_keep (l : List (Nat × Nat)) (s : State) : Keep 1024 s (countAgainst l s) := by
  unfold countAgainst
  iterate 30 (all_goals try first
    | with_reducible exact Keep.refl _ _
    | with_reducible assumption
    | (extract_lets +onlyGivenNames zz; refine Keep.cut zz ?_ (fun _ => ?_); (rotate_left; (try clear_value zz); rotate_right; subst zz))
    | (extract_lets +onlyGivenNames zz; subst zz)
    | with_reducible refine (setFrc_keep ..).after ?_ (by decide)
    | with_reducible refine Keep.ite (fun _ => ?_) (fun _ => ?_)
    | split)

theorem raiseErr_keep (x : ErrIn) (s : State) : Keep 3598 s (raiseErr x s) := by
  unfold raiseErr
  iterate 30 (all_goals try first
    | with_reducible exact Keep.refl _ _
    | with_reducible assumption
    | (extract_lets +onlyGivenNames zz; refine Keep.cut zz ?_ (fun _ => ?_); (rotate_left; (try clear_value zz); rotate_right; subst zz))
    | (extract_lets +onlyGivenNames zz; subst zz)
    | with_reducible refine (countAgainst_keep ..).after ?_ (by decide)
    | with_reducible refine (startHandler_keep ..).after ?_ (by decide)
    | with_reducible refine (setElog_keep ..).after ?_ (by decide)
    | with_reducible refine (setMach_keep ..).after ?_ (by decide)
    | with_reducible refine (setFrc_keep ..).after ?_ (by decide)
    | with_reducible refine (satAdd_keep ..).after ?_ (by decide)
    | with_reducible refine (setF_keep ..).after ?_ (by decide)
    | with_reducible refine Keep.ite (fun _ => ?_) (fun _ => ?_)
    | split)

theorem nextHandler_keep (slot y1 : Nat) (s : State) : Keep 3598 s (nextHandler slot y1 s) := by
  unfold nextHandler
  iterate 30 (all_goals try first
    | with_reducible exact Keep.refl _ _
    | with_reducible assumption
    | (extract_lets +onlyGivenNames zz; refine Keep.cut zz ?_ (fun _ => ?_); (rotate_left; (try clear_value zz); rotate_right; subst zz))
    | (extract_lets +onlyGivenNames zz; subst zz)
    | with_reducible refine (startHandler_keep ..).after ?_ (by decide)
    | with_reducible refine (setMach_keep ..).after ?_ (by decide)
    | with_reducible refine Keep.ite (fun _ => ?_) (fun _ => ?_)
    | split)

theorem settleEntry_keep (slot idx : Nat) (passed : Bool) (s : State) : Keep 3598 s (settleEntry slot idx passed s) := by
  unfold settleEntry
  iterate 30 (all_goals try first
    | with_reducible exact Keep.refl _ _
    | with_reducible assumption
    | (extract_lets +onlyGivenNames zz; refine Keep.cut zz ?_ (fun _ => ?_); (rotate_left; (try clear_value zz); rotate_right; subst zz))
    | (extract_lets +onlyGivenNames zz; subst zz)
    | with_reducible refine (nextHandler_keep ..).after ?_ (by decide)
    | with_reducible refine (countAgainst_keep ..).after ?_ (by decide)
    | with_reducible refine (startHandler_keep ..).after ?_ (by decide)
    | with_reducible refine (finishEntry_keep ..).after ?_ (by decide)
    | with_reducible refine (modEntry_keep ..).after ?_ (by decide)
    | with_reducible refine Keep.ite (fun _ => ?_) (fun _ => ?_)
    | split)

theorem settleWhere_keep (which : Nat × Nat × Nat → Bool) (passed : Bool) (s : State) : Keep 3598 s (settleWhere which passed s) := by
  unfold settleWhere
  iterate 30 (all_goals try first
    | with_reducible exact Keep.refl _ _
    | with_reducible assumption
    | with_reducible refine (settleEntry_keep ..).after ?_ (by decide)
    | with_reducible refine Keep.getD (fun _ _ => ?_) ?_
    | with_reducible refine Keep.foldl (fun _ _ => ?_) ?_ _
    | with_reducible refine Keep.foldlFst (fun _ _ => ?_) ?_ _
    | with_reducible refine Keep.foldlSnd (fun _ _ => ?_) ?_ _
    | with_reducible refine Keep.ite (fun _ => ?_) (fun _ => ?_)
    | split)

theorem fenceBlock_keep (slot y1 : Nat) (s : State) : Keep 25606 s (fenceBlock slot y1 s) := by
  unfold fenceBlock
  iterate 30 (all_goals try first
    | with_reducible exact Keep.refl _ _
    | with_reducible assumption
    | (extract_lets +onlyGivenNames zz; refine Keep.cut zz ?_ (fun _ => ?_); (rotate_left; (try clear_value zz); rotate_right; subst zz))
    | (extract_lets +onlyGivenNames zz; subst zz)
    | with_reducible refine (setMach_keep ..).after ?_ (by decide)
    | with_reducible refine (goFatal_keep ..).after ?_ (by decide)
    | with_reducible refine (setF_keep ..).after ?_ (by decide)
    | with_reducible refine Keep.ite (fun _ => ?_) (fun _ => ?_)
    | split)

theorem setPstate_keep (n st : Nat) (s : State) : Keep 3598 s (setPstate n st s) := by
  unfold setPstate
  iterate 30 (all_goals try first
    | with_reducible exact Keep.refl _ _
    | with_reducible assumption
    | (extract_lets +onlyGivenNames zz; refine Keep.cut zz ?_ (fun _ => ?_); (rotate_left; (try clear_value zz); rotate_right; subst zz))
    | (extract_lets +onlyGivenNames zz; subst zz)
    | with_reducible refine (logEv_keep ..).after ?_ (by decide)
    | with_reducible refine (setF_keep ..).after ?_ (by decide)
    | with_reducible refine Keep.ite (fun _ => ?_) (fun _ => ?_)
    | split)

end Sys2Proof.Machine
end

