-- ==== Sys2Proof/Laws/KeepCoherence.lean ====
section
/-!
SUPPORT. Laws/KeepCoherence.lean: what each operation of Machine/Coherence.lean can change (Laws/Keep.lean).
-/
set_option Elab.async false
set_option linter.all false
namespace Sys2Proof.Machine

open Sys2Proof

theorem setCwp_keep (s : State) (c : Cwp) : Keep 65536 s (State.setCwp s c) := by
  unfold State.setCwp
  iterate 30 (all_goals try first
    | with_reducible exact Keep.refl _ _
    | with_reducible assumption
    | with_reducible refine Keep.ite (fun _ => ?_) (fun _ => ?_)
    | split
    | with_reducible refine (Keep.of_cwp _ _).after ?_ (by decide))

theorem markPoison_keep (k line : Nat) (s : State) : Keep 65536 s (markPoison k line s) := by
  unfold markPoison
  iterate 30 (all_goals try first
    | with_reducible exact Keep.refl _ _
    | with_reducible assumption
    | (extract_lets +onlyGivenNames zz; refine Keep.cut zz ?_ (fun _ => ?_); (rotate_left; (try clear_value zz); rotate_right; subst zz))
    | (extract_lets +onlyGivenNames zz; subst zz)
    | with_reducible refine Keep.ite (fun _ => ?_) (fun _ => ?_)
    | split
    | with_reducible refine (Keep.of_cwp _ _).after ?_ (by decide))

theorem poisonLine_keep (dev cause host : Nat) (s : State) : Keep 65604 s (poisonLine dev cause host s) := by
  unfold poisonLine
  dsimp only
  refine (bump_keep ..).after ?_ (by decide)
  with_reducible refine (Keep.of_mem1_cwp _ _ _ ?_).after ?_ (by decide)
  · exact fun h => memWrite_wf _ _ h
  · exact Keep.refl _ _

theorem poisonRead_keep (part dev : Nat) (s : State) : Keep 69134 s (poisonRead part dev s) := by
  unfold poisonRead
  iterate 30 (all_goals try first
    | with_reducible exact Keep.refl _ _
    | with_reducible assumption
    | (extract_lets +onlyGivenNames zz; refine Keep.cut zz ?_ (fun _ => ?_); (rotate_left; (try clear_value zz); rotate_right; subst zz))
    | (extract_lets +onlyGivenNames zz; subst zz)
    | with_reducible refine (logEv_keep ..).after ?_ (by decide)
    | with_reducible refine (bump_keep ..).after ?_ (by decide)
    | with_reducible refine Keep.ite (fun _ => ?_) (fun _ => ?_)
    | split
    | with_reducible refine (Keep.of_cwp _ _).after ?_ (by decide))

theorem sendRecall_keep (line host : Nat) (inv : Bool) (s : State) : Keep 65548 s (sendRecall line host inv s) := by
  unfold sendRecall
  iterate 30 (all_goals try first
    | with_reducible exact Keep.refl _ _
    | with_reducible assumption
    | (extract_lets +onlyGivenNames zz; refine Keep.cut zz ?_ (fun _ => ?_); (rotate_left; (try clear_value zz); rotate_right; subst zz))
    | (extract_lets +onlyGivenNames zz; subst zz)
    | with_reducible refine (emit_keep ..).after ?_ (by decide)
    | with_reducible refine (bump_keep ..).after ?_ (by decide)
    | with_reducible refine Keep.ite (fun _ => ?_) (fun _ => ?_)
    | split
    | with_reducible refine (Keep.of_cwp _ _).after ?_ (by decide))

theorem removalRecall_keep (line host : Nat) (s : State) : Keep 65548 s (removalRecall line host s) := by
  unfold removalRecall
  iterate 30 (all_goals try first
    | with_reducible exact Keep.refl _ _
    | with_reducible assumption
    | with_reducible refine (sendRecall_keep ..).after ?_ (by decide)
    | with_reducible refine Keep.getD (fun _ _ => ?_) ?_
    | with_reducible refine Keep.ite (fun _ => ?_) (fun _ => ?_)
    | split)

theorem recallAll_keep (line : Nat) (keep : Nat → Bool) (s : State) : Keep 65548 s (recallAll line keep s) := by
  unfold recallAll
  iterate 30 (all_goals try first
    | with_reducible exact Keep.refl _ _
    | with_reducible assumption
    | with_reducible refine (sendRecall_keep ..).after ?_ (by decide)
    | with_reducible refine Keep.foldl (fun _ _ => ?_) ?_ _
    | with_reducible refine Keep.foldlFst (fun _ _ => ?_) ?_ _
    | with_reducible refine Keep.foldlSnd (fun _ _ => ?_) ?_ _
    | with_reducible refine Keep.ite (fun _ => ?_) (fun _ => ?_)
    | split)

theorem recallData_keep (line : Nat) (s : State) : Keep 65548 s (recallData line s) := by
  unfold recallData
  iterate 30 (all_goals try first
    | with_reducible exact Keep.refl _ _
    | with_reducible assumption
    | with_reducible refine (sendRecall_keep ..).after ?_ (by decide)
    | with_reducible refine Keep.ite (fun _ => ?_) (fun _ => ?_)
    | split)

theorem enqueueWait_keep (w : WinWait) (s : State) : Keep 65536 s (enqueueWait w s) := by
  unfold enqueueWait
  iterate 30 (all_goals try first
    | with_reducible exact Keep.refl _ _
    | with_reducible assumption
    | (extract_lets +onlyGivenNames zz; refine Keep.cut zz ?_ (fun _ => ?_); (rotate_left; (try clear_value zz); rotate_right; subst zz))
    | (extract_lets +onlyGivenNames zz; subst zz)
    | with_reducible refine Keep.ite (fun _ => ?_) (fun _ => ?_)
    | split
    | with_reducible refine (Keep.of_cwp _ _).after ?_ (by decide))

theorem beginAccess_keep {op : WinOp} {lines : List Nat} {write : Bool} {s : State} {t0 : State} (h : beginAccess op lines write s = some t0) : Keep 65548 s t0 := by
  unfold beginAccess at h
  try dsimp only at h
  repeat' (first | split at h)
  all_goals try (exact absurd h (by simp only [reduceCtorEq, not_false_eq_true]))
  all_goals try (with_reducible obtain rfl := Option.some.inj h)
  iterate 30 (all_goals try first
    | with_reducible exact Keep.refl _ _
    | with_reducible assumption
    | (extract_lets +onlyGivenNames zz; refine Keep.cut zz ?_ (fun _ => ?_); (rotate_left; (try clear_value zz); rotate_right; subst zz))
    | (extract_lets +onlyGivenNames zz; subst zz)
    | with_reducible refine (enqueueWait_keep ..).after ?_ (by decide)
    | with_reducible refine (recallData_keep ..).after ?_ (by decide)
    | with_reducible refine (recallAll_keep ..).after ?_ (by decide)
    | with_reducible refine Keep.foldl (fun _ _ => ?_) ?_ _
    | with_reducible refine Keep.foldlFst (fun _ _ => ?_) ?_ _
    | with_reducible refine Keep.foldlSnd (fun _ _ => ?_) ?_ _
    | with_reducible refine Keep.ite (fun _ => ?_) (fun _ => ?_)
    | split)

theorem tagErrors_keep (who : Met) (y1 : List (Nat × Nat)) (n k kind : Nat) (units : List Nat) (s : State) : Keep 3598 s (tagErrors who y1 n k kind units s) := by
  unfold tagErrors
  iterate 30 (all_goals try first
    | with_reducible exact Keep.refl _ _
    | with_reducible assumption
    | with_reducible refine (raiseErr_keep ..).after ?_ (by decide)
    | with_reducible refine (bump_keep ..).after ?_ (by decide)
    | with_reducible refine Keep.foldl (fun _ _ => ?_) ?_ _
    | with_reducible refine Keep.foldlFst (fun _ _ => ?_) ?_ _
    | with_reducible refine Keep.foldlSnd (fun _ _ => ?_) ?_ _
    | with_reducible refine Keep.ite (fun _ => ?_) (fun _ => ?_)
    | split)

theorem tagFailures_keep (n k kind : Nat) (units : List Nat) (s : State) : Keep 3598 s (tagFailures n k kind units s) := by
  unfold tagFailures
  iterate 30 (all_goals try first
    | with_reducible exact Keep.refl _ _
    | with_reducible assumption
    | with_reducible refine (tagErrors_keep ..).after ?_ (by decide)
    | with_reducible refine Keep.ite (fun _ => ?_) (fun _ => ?_)
    | split)

end Sys2Proof.Machine
end

