-- ==== Sys2Proof/Laws/KeepHost.lean ====
section
/-!
SUPPORT. Laws/KeepHost.lean: what each operation of Machine/Host.lean can change (Laws/Keep.lean).
-/
set_option Elab.async false
set_option linter.all false
namespace Sys2Proof.Machine

open Sys2Proof

theorem setHif_keep (s : State) (h : Hif) : Keep 512 s (State.setHif s h) := by
  unfold State.setHif
  iterate 30 (all_goals try first
    | with_reducible exact Keep.refl _ _
    | with_reducible assumption
    | with_reducible refine Keep.ite (fun _ => ?_) (fun _ => ?_)
    | split
    | with_reducible refine (Keep.of_hif _ _).after ?_ (by decide))

theorem writeBuffer_keep (c : Cmd) (off : Nat) (b : List Byte) (s : State) : Keep 65608 s (writeBuffer c off b s) := by
  unfold writeBuffer
  split
  · exact (emit_keep ..).mono (by decide)
  · split
    · exact (directWrite1_keep ..).mono (by decide)
    · exact (emit_keep ..).mono (by decide)

theorem postCq_keep (fn cq : Nat) (e : Completion) (s : State) : Keep 524 s (postCq fn cq e s) := by
  unfold postCq
  iterate 30 (all_goals try first
    | with_reducible exact Keep.refl _ _
    | with_reducible assumption
    | (extract_lets +onlyGivenNames zz; refine Keep.cut zz ?_ (fun _ => ?_); (rotate_left; (try clear_value zz); rotate_right; subst zz))
    | (extract_lets +onlyGivenNames zz; subst zz)
    | with_reducible refine (signal_keep ..).after ?_ (by decide)
    | with_reducible refine (emit_keep ..).after ?_ (by decide)
    | with_reducible refine (bump_keep ..).after ?_ (by decide)
    | with_reducible refine Keep.ite (fun _ => ?_) (fun _ => ?_)
    | split
    | with_reducible refine (Keep.of_hif _ _).after ?_ (by decide))

theorem completeNow_keep (c : Cmd) (r : Reply) (s : State) : Keep 66124 s (completeNow c r s) := by
  unfold completeNow
  iterate 30 (all_goals try first
    | with_reducible exact Keep.refl _ _
    | with_reducible assumption
    | (extract_lets +onlyGivenNames zz; refine Keep.cut zz ?_ (fun _ => ?_); (rotate_left; (try clear_value zz); rotate_right; subst zz))
    | (extract_lets +onlyGivenNames zz; subst zz)
    | with_reducible refine (postCq_keep ..).after ?_ (by decide)
    | with_reducible refine (writeBuffer_keep ..).after ?_ (by decide)
    | with_reducible refine (emit_keep ..).after ?_ (by decide)
    | with_reducible refine (bump_keep ..).after ?_ (by decide)
    | with_reducible refine Keep.ite (fun _ => ?_) (fun _ => ?_)
    | split
    | with_reducible refine (Keep.of_hif _ _).after ?_ (by decide))

theorem replyWaits_keep {c : Cmd} {r : Reply} {s : State} {t0 : State} (h : replyWaits c r s = some t0) : Keep 65548 s t0 := by
  unfold replyWaits at h
  try dsimp only at h
  repeat' (first | split at h)
  all_goals try (exact absurd h (by simp only [reduceCtorEq, not_false_eq_true]))
  all_goals try (with_reducible obtain rfl := Option.some.inj h)
  iterate 30 (all_goals try first
    | with_reducible exact Keep.refl _ _
    | with_reducible assumption
    | with_reducible refine (beginAccess_keep (by assumption)).after ?_ (by decide)
    | with_reducible refine Keep.ite (fun _ => ?_) (fun _ => ?_)
    | split)

theorem completeOne_keep (c : Cmd) (r : Reply) (s : State) : Keep 66124 s (completeOne c r s) := by
  unfold completeOne
  iterate 30 (all_goals try first
    | with_reducible exact Keep.refl _ _
    | with_reducible assumption
    | with_reducible refine (replyWaits_keep (by assumption)).after ?_ (by decide)
    | with_reducible refine (completeNow_keep ..).after ?_ (by decide)
    | with_reducible refine Keep.getD (fun _ _ => ?_) ?_
    | with_reducible refine Keep.ite (fun _ => ?_) (fun _ => ?_)
    | split)

theorem settleDrain_keep (n : Nat) (s : State) : Keep 74316 s (settleDrain n s) := by
  unfold settleDrain
  iterate 30 (all_goals try first
    | with_reducible exact Keep.refl _ _
    | with_reducible assumption
    | (extract_lets +onlyGivenNames zz; refine Keep.cut zz ?_ (fun _ => ?_); (rotate_left; (try clear_value zz); rotate_right; subst zz))
    | (extract_lets +onlyGivenNames zz; subst zz)
    | with_reducible refine (completeOne_keep ..).after ?_ (by decide)
    | with_reducible refine Keep.ite (fun _ => ?_) (fun _ => ?_)
    | split
    | with_reducible refine (Keep.of_mgc _ _ (by rfl) (by rfl)).after ?_ (by decide))

theorem complete_keep (c : Cmd) (r : Reply) (s : State) : Keep 74316 s (complete c r s) := by
  unfold complete
  iterate 30 (all_goals try first
    | with_reducible exact Keep.refl _ _
    | with_reducible assumption
    | with_reducible refine (settleDrain_keep ..).after ?_ (by decide)
    | with_reducible refine (completeOne_keep ..).after ?_ (by decide)
    | with_reducible refine Keep.ite (fun _ => ?_) (fun _ => ?_)
    | split)

theorem markStarted_keep (c : Cmd) (s : State) : Keep 512 s (markStarted c s) := by
  unfold markStarted
  iterate 30 (all_goals try first
    | with_reducible exact Keep.refl _ _
    | with_reducible assumption
    | (extract_lets +onlyGivenNames zz; refine Keep.cut zz ?_ (fun _ => ?_); (rotate_left; (try clear_value zz); rotate_right; subst zz))
    | (extract_lets +onlyGivenNames zz; subst zz)
    | with_reducible refine Keep.ite (fun _ => ?_) (fun _ => ?_)
    | split
    | with_reducible refine (Keep.of_hif _ _).after ?_ (by decide))

theorem holdCommand_keep (c : Cmd) (s : State) : Keep 512 s (holdCommand c s) := by
  unfold holdCommand
  iterate 30 (all_goals try first
    | with_reducible exact Keep.refl _ _
    | with_reducible assumption
    | (extract_lets +onlyGivenNames zz; refine Keep.cut zz ?_ (fun _ => ?_); (rotate_left; (try clear_value zz); rotate_right; subst zz))
    | (extract_lets +onlyGivenNames zz; subst zz)
    | with_reducible refine Keep.ite (fun _ => ?_) (fun _ => ?_)
    | split
    | with_reducible refine (Keep.of_hif _ _).after ?_ (by decide))

theorem bufferAccess_keep {op : Nat} {c : Cmd} {s : State} {t0 : State} {x1 : Option Status} (h : bufferAccess op c s = some (t0, x1)) : Keep 69134 s t0 := by
  unfold bufferAccess at h
  try dsimp only at h
  repeat' (first | split at h)
  all_goals try (exact absurd h (by simp only [reduceCtorEq, not_false_eq_true]))
  all_goals try (with_reducible obtain ⟨rfl, rfl⟩ := Prod.mk.inj (Option.some.inj h))
  iterate 30 (all_goals try first
    | with_reducible exact Keep.refl _ _
    | with_reducible assumption
    | (extract_lets +onlyGivenNames zz; refine Keep.cut zz ?_ (fun _ => ?_); (rotate_left; (try clear_value zz); rotate_right; subst zz))
    | (extract_lets +onlyGivenNames zz; subst zz)
    | with_reducible refine (tagFailures_keep ..).after ?_ (by decide)
    | with_reducible refine (beginAccess_keep (by assumption)).after ?_ (by decide)
    | with_reducible refine (poisonRead_keep ..).after ?_ (by decide)
    | with_reducible refine Keep.foldl (fun _ _ => ?_) ?_ _
    | with_reducible refine Keep.foldlFst (fun _ _ => ?_) ?_ _
    | with_reducible refine Keep.foldlSnd (fun _ _ => ?_) ?_ _
    | with_reducible refine Keep.pairIte (by assumption) (fun _ => ?_)
    | with_reducible refine Keep.pairIteElse (by assumption) (fun _ => ?_)
    | with_reducible refine Keep.ite (fun _ => ?_) (fun _ => ?_)
    | split)

theorem runBody_keep {k : Nat} {c : Cmd} {body : State → Res} {s : State} (hk : 74316 ||| k = k)
    (hD : ∀ {t : State} {r : Reply}, body s = .done t r → Keep k s t) (hW : ∀ {t : State}, body s = .wait t → Keep k s t) :
    Keep k s (runBody c body s) := by
  have hm : 512 ||| k = k := by rw [← hk, ← Nat.or_assoc]; rfl
  have hc : 74316 ||| k = k := by rw [← hk, ← Nat.or_assoc]; rfl
  unfold runBody
  split
  · exact (complete_keep ..).mono hc
  · rename_i h; exact (complete_keep ..).after (hD h) hc
  · rename_i h; exact (markStarted_keep ..).after (hW h) hm

theorem startBody_keep {k : Nat} {op : Nat} {c : Cmd} {body : State → Res} {s : State} (hk : 77390 ||| k = k)
    (hD : ∀ {t : State} {r : Reply}, body s = .done t r → Keep k s t) (hW : ∀ {t : State}, body s = .wait t → Keep k s t) :
    Keep k s (startBody op c body s) := by
  have hr : 74316 ||| k = k := by rw [← hk, ← Nat.or_assoc]; rfl
  have hb : 69134 ||| k = k := by rw [← hk, ← Nat.or_assoc]; rfl
  have hm : 512 ||| k = k := by rw [← hk, ← Nat.or_assoc]; rfl
  have hc : 74316 ||| k = k := by rw [← hk, ← Nat.or_assoc]; rfl
  unfold startBody
  split
  · exact runBody_keep hr hD hW
  · split
    · rename_i h; exact (complete_keep ..).after ((bufferAccess_keep h).mono hb) hc
    · rename_i h; exact (markStarted_keep ..).after ((bufferAccess_keep h).mono hb) hm
    · exact runBody_keep hr hD hW

theorem hostCmd_keep {k : Nat} {op : Nat} {c : Cmd} {body : State → Res} {s : State} (hk : 77390 ||| k = k)
    (hD : ∀ {t : State} {r : Reply}, body s = .done t r → Keep k s t) (hW : ∀ {t : State}, body s = .wait t → Keep k s t) :
    Keep k s (hostCmd op c body s) := by
  have hc : 74316 ||| k = k := by rw [← hk, ← Nat.or_assoc]; rfl
  unfold hostCmd
  split
  · exact Keep.refl _ _
  · exact (complete_keep ..).mono hc
  · exact startBody_keep hk hD hW

theorem need_done {b : Bool} {st : Status} {k : Res} {t : State} {r : Reply} : need b st k = .done t r ↔ b = true ∧ k = .done t r := by
  cases b <;> simp [need]

theorem need_wait {b : Bool} {st : Status} {k : Res} {t : State} : need b st k = .wait t ↔ b = true ∧ k = .wait t := by
  cases b <;> simp [need]

theorem queueCreate_keepD {c : Cmd} {s : State} {t0 : State} {r0 : Reply} (h : queueCreate c s = .done t0 r0) : Keep 512 s t0 := by
  unfold queueCreate at h
  try dsimp only at h
  repeat' (first | (with_reducible rw [need_done] at h; replace h := h.2) | split at h)
  all_goals try (exact absurd h (by simp only [Res.fail, reduceCtorEq, not_false_eq_true]))
  all_goals try (with_reducible obtain ⟨rfl, rfl⟩ := Res.done.inj h)
  iterate 30 (all_goals try first
    | with_reducible exact Keep.refl _ _
    | with_reducible assumption
    | (extract_lets +onlyGivenNames zz; refine Keep.cut zz ?_ (fun _ => ?_); (rotate_left; (try clear_value zz); rotate_right; subst zz))
    | (extract_lets +onlyGivenNames zz; subst zz)
    | with_reducible refine Keep.ite (fun _ => ?_) (fun _ => ?_)
    | split
    | with_reducible refine (Keep.of_hif _ _).after ?_ (by decide))
theorem queueCreate_keepW {c : Cmd} {s : State} {t0 : State} (h : queueCreate c s = .wait t0) : Keep 512 s t0 := by
  unfold queueCreate at h
  try dsimp only at h
  repeat' (first | (with_reducible rw [need_wait] at h; replace h := h.2) | split at h)
  all_goals try (exact absurd h (by simp only [Res.fail, reduceCtorEq, not_false_eq_true]))
  all_goals try (with_reducible obtain rfl := Res.wait.inj h)
  iterate 30 (all_goals try first
    | with_reducible exact Keep.refl _ _
    | with_reducible assumption
    | (extract_lets +onlyGivenNames zz; refine Keep.cut zz ?_ (fun _ => ?_); (rotate_left; (try clear_value zz); rotate_right; subst zz))
    | (extract_lets +onlyGivenNames zz; subst zz)
    | with_reducible refine Keep.ite (fun _ => ?_) (fun _ => ?_)
    | split
    | with_reducible refine (Keep.of_hif _ _).after ?_ (by decide))

theorem clearErr_keep (k : Nat) (s : State) : Keep 512 s (clearErr k s) := by
  unfold clearErr
  iterate 30 (all_goals try first
    | with_reducible exact Keep.refl _ _
    | with_reducible assumption
    | (extract_lets +onlyGivenNames zz; refine Keep.cut zz ?_ (fun _ => ?_); (rotate_left; (try clear_value zz); rotate_right; subst zz))
    | (extract_lets +onlyGivenNames zz; subst zz)
    | with_reducible refine Keep.ite (fun _ => ?_) (fun _ => ?_)
    | split
    | with_reducible refine (Keep.of_hif _ _).after ?_ (by decide))

theorem queueDelete_keepD {c : Cmd} {s : State} {t0 : State} {r0 : Reply} (h : queueDelete c s = .done t0 r0) : Keep 512 s t0 := by
  unfold queueDelete at h
  try dsimp only at h
  repeat' (first | (with_reducible rw [need_done] at h; replace h := h.2) | split at h)
  all_goals try (exact absurd h (by simp only [Res.fail, reduceCtorEq, not_false_eq_true]))
  all_goals try (with_reducible obtain ⟨rfl, rfl⟩ := Res.done.inj h)
  iterate 30 (all_goals try first
    | with_reducible exact Keep.refl _ _
    | with_reducible assumption
    | (extract_lets +onlyGivenNames zz; refine Keep.cut zz ?_ (fun _ => ?_); (rotate_left; (try clear_value zz); rotate_right; subst zz))
    | (extract_lets +onlyGivenNames zz; subst zz)
    | with_reducible refine (clearErr_keep ..).after ?_ (by decide)
    | with_reducible refine Keep.ite (fun _ => ?_) (fun _ => ?_)
    | split
    | with_reducible refine (Keep.of_hif _ _).after ?_ (by decide))
theorem queueDelete_keepW {c : Cmd} {s : State} {t0 : State} (h : queueDelete c s = .wait t0) : Keep 512 s t0 := by
  unfold queueDelete at h
  try dsimp only at h
  repeat' (first | (with_reducible rw [need_wait] at h; replace h := h.2) | split at h)
  all_goals try (exact absurd h (by simp only [Res.fail, reduceCtorEq, not_false_eq_true]))
  all_goals try (with_reducible obtain rfl := Res.wait.inj h)
  iterate 30 (all_goals try first
    | with_reducible exact Keep.refl _ _
    | with_reducible assumption
    | (extract_lets +onlyGivenNames zz; refine Keep.cut zz ?_ (fun _ => ?_); (rotate_left; (try clear_value zz); rotate_right; subst zz))
    | (extract_lets +onlyGivenNames zz; subst zz)
    | with_reducible refine (clearErr_keep ..).after ?_ (by decide)
    | with_reducible refine Keep.ite (fun _ => ?_) (fun _ => ?_)
    | split
    | with_reducible refine (Keep.of_hif _ _).after ?_ (by decide))

theorem countIo_keep (fn : Nat) (s : State) : Keep 1024 s (countIo fn s) := by
  unfold countIo
  iterate 30 (all_goals try first
    | with_reducible exact Keep.refl _ _
    | with_reducible assumption
    | (extract_lets +onlyGivenNames zz; refine Keep.cut zz ?_ (fun _ => ?_); (rotate_left; (try clear_value zz); rotate_right; subst zz))
    | (extract_lets +onlyGivenNames zz; subst zz)
    | with_reducible refine (setFrc_keep ..).after ?_ (by decide)
    | with_reducible refine Keep.ite (fun _ => ?_) (fun _ => ?_)
    | split)

theorem dropQueues_keep (fn : Nat) (s : State) : Keep 512 s (dropQueues fn s) := by
  unfold dropQueues
  iterate 30 (all_goals try first
    | with_reducible exact Keep.refl _ _
    | with_reducible assumption
    | (extract_lets +onlyGivenNames zz; refine Keep.cut zz ?_ (fun _ => ?_); (rotate_left; (try clear_value zz); rotate_right; subst zz))
    | (extract_lets +onlyGivenNames zz; subst zz)
    | with_reducible refine Keep.ite (fun _ => ?_) (fun _ => ?_)
    | split
    | with_reducible refine (Keep.of_hif _ _).after ?_ (by decide))

theorem loseQueues_keep (fn : Nat) (s : State) : Keep 514 s (loseQueues fn s) := by
  unfold loseQueues
  iterate 30 (all_goals try first
    | with_reducible exact Keep.refl _ _
    | with_reducible assumption
    | with_reducible refine (dropQueues_keep ..).after ?_ (by decide)
    | with_reducible refine (setF_keep ..).after ?_ (by decide)
    | with_reducible refine Keep.ite (fun _ => ?_) (fun _ => ?_)
    | split)

theorem aqCtrlWrite_keep (from_ fn sqSize cqSize en : Nat) (s : State) : Keep 514 s (aqCtrlWrite from_ fn sqSize cqSize en s) := by
  unfold aqCtrlWrite
  iterate 30 (all_goals try first
    | with_reducible exact Keep.refl _ _
    | with_reducible assumption
    | (extract_lets +onlyGivenNames zz; refine Keep.cut zz ?_ (fun _ => ?_); (rotate_left; (try clear_value zz); rotate_right; subst zz))
    | (extract_lets +onlyGivenNames zz; subst zz)
    | with_reducible refine (loseQueues_keep ..).after ?_ (by decide)
    | with_reducible refine (setF_keep ..).after ?_ (by decide)
    | with_reducible refine Keep.ite (fun _ => ?_) (fun _ => ?_)
    | split
    | with_reducible refine (Keep.of_hif _ _).after ?_ (by decide))

theorem doorbellError_keep (fn q value : Nat) (s : State) : Keep 3598 s (doorbellError fn q value s) := by
  unfold doorbellError
  iterate 30 (all_goals try first
    | with_reducible exact Keep.refl _ _
    | with_reducible assumption
    | (extract_lets +onlyGivenNames zz; refine Keep.cut zz ?_ (fun _ => ?_); (rotate_left; (try clear_value zz); rotate_right; subst zz))
    | (extract_lets +onlyGivenNames zz; subst zz)
    | with_reducible refine (logEv_keep ..).after ?_ (by decide)
    | with_reducible refine (bump_keep ..).after ?_ (by decide)
    | with_reducible refine Keep.ite (fun _ => ?_) (fun _ => ?_)
    | split
    | with_reducible refine (Keep.of_hif _ _).after ?_ (by decide))

theorem sqTail_keep (fn q value : Nat) (s : State) : Keep 3598 s (sqTail fn q value s) := by
  unfold sqTail
  iterate 30 (all_goals try first
    | with_reducible exact Keep.refl _ _
    | with_reducible assumption
    | (extract_lets +onlyGivenNames zz; refine Keep.cut zz ?_ (fun _ => ?_); (rotate_left; (try clear_value zz); rotate_right; subst zz))
    | (extract_lets +onlyGivenNames zz; subst zz)
    | with_reducible refine (doorbellError_keep ..).after ?_ (by decide)
    | with_reducible refine Keep.ite (fun _ => ?_) (fun _ => ?_)
    | split
    | with_reducible refine (Keep.of_hif _ _).after ?_ (by decide))

theorem sqDoorbell_keep (fn q value : Nat) (s : State) : Keep 3598 s (sqDoorbell fn q value s) := by
  unfold sqDoorbell
  iterate 30 (all_goals try first
    | with_reducible exact Keep.refl _ _
    | with_reducible assumption
    | with_reducible refine (sqTail_keep ..).after ?_ (by decide)
    | with_reducible refine Keep.ite (fun _ => ?_) (fun _ => ?_)
    | split)

theorem cqHead_keep (fn q value : Nat) (s : State) : Keep 3598 s (cqHead fn q value s) := by
  unfold cqHead
  iterate 30 (all_goals try first
    | with_reducible exact Keep.refl _ _
    | with_reducible assumption
    | (extract_lets +onlyGivenNames zz; refine Keep.cut zz ?_ (fun _ => ?_); (rotate_left; (try clear_value zz); rotate_right; subst zz))
    | (extract_lets +onlyGivenNames zz; subst zz)
    | with_reducible refine (doorbellError_keep ..).after ?_ (by decide)
    | with_reducible refine Keep.ite (fun _ => ?_) (fun _ => ?_)
    | split
    | with_reducible refine (Keep.of_hif _ _).after ?_ (by decide))

theorem cqDoorbell_keep (fn q value : Nat) (s : State) : Keep 3598 s (cqDoorbell fn q value s) := by
  unfold cqDoorbell
  iterate 30 (all_goals try first
    | with_reducible exact Keep.refl _ _
    | with_reducible assumption
    | with_reducible refine (cqHead_keep ..).after ?_ (by decide)
    | with_reducible refine Keep.ite (fun _ => ?_) (fun _ => ?_)
    | split)

theorem roundPast_keep (fn q : Nat) (s : State) : Keep 512 s (roundPast fn q s) := by
  unfold roundPast
  iterate 30 (all_goals try first
    | with_reducible exact Keep.refl _ _
    | with_reducible assumption
    | (extract_lets +onlyGivenNames zz; refine Keep.cut zz ?_ (fun _ => ?_); (rotate_left; (try clear_value zz); rotate_right; subst zz))
    | (extract_lets +onlyGivenNames zz; subst zz)
    | with_reducible refine Keep.ite (fun _ => ?_) (fun _ => ?_)
    | split
    | with_reducible refine (Keep.of_hif _ _).after ?_ (by decide))

theorem commandFetch_keep (fn q : Nat) (e : List Byte) (s : State) : Keep 74316 s (commandFetch fn q e s) := by
  unfold commandFetch
  iterate 30 (all_goals try first
    | with_reducible exact Keep.refl _ _
    | with_reducible assumption
    | (extract_lets +onlyGivenNames zz; refine Keep.cut zz ?_ (fun _ => ?_); (rotate_left; (try clear_value zz); rotate_right; subst zz))
    | (extract_lets +onlyGivenNames zz; subst zz)
    | with_reducible refine (roundPast_keep ..).after ?_ (by decide)
    | with_reducible refine (complete_keep ..).after ?_ (by decide)
    | with_reducible refine (bump_keep ..).after ?_ (by decide)
    | with_reducible refine Keep.ite (fun _ => ?_) (fun _ => ?_)
    | split
    | with_reducible refine (Keep.of_hif _ _).after ?_ (by decide))

theorem cqDelayExpiry_keep (fn q : Nat) (s : State) : Keep 524 s (cqDelayExpiry fn q s) := by
  unfold cqDelayExpiry
  iterate 30 (all_goals try first
    | with_reducible exact Keep.refl _ _
    | with_reducible assumption
    | (extract_lets +onlyGivenNames zz; refine Keep.cut zz ?_ (fun _ => ?_); (rotate_left; (try clear_value zz); rotate_right; subst zz))
    | (extract_lets +onlyGivenNames zz; subst zz)
    | with_reducible refine (signal_keep ..).after ?_ (by decide)
    | with_reducible refine Keep.ite (fun _ => ?_) (fun _ => ?_)
    | split
    | with_reducible refine (Keep.of_hif _ _).after ?_ (by decide))

theorem resetMsix_keep (fn : Nat) (s : State) : Keep 512 s (resetMsix fn s) := by
  unfold resetMsix
  iterate 30 (all_goals try first
    | with_reducible exact Keep.refl _ _
    | with_reducible assumption
    | (extract_lets +onlyGivenNames zz; refine Keep.cut zz ?_ (fun _ => ?_); (rotate_left; (try clear_value zz); rotate_right; subst zz))
    | (extract_lets +onlyGivenNames zz; subst zz)
    | with_reducible refine Keep.ite (fun _ => ?_) (fun _ => ?_)
    | split
    | with_reducible refine (Keep.of_hif _ _).after ?_ (by decide))

theorem functionLevelReset_keep (fn : Nat) (s : State) : Keep 514 s (functionLevelReset fn s) := by
  unfold functionLevelReset
  iterate 30 (all_goals try first
    | with_reducible exact Keep.refl _ _
    | with_reducible assumption
    | with_reducible refine (resetMsix_keep ..).after ?_ (by decide)
    | with_reducible refine (loseQueues_keep ..).after ?_ (by decide)
    | with_reducible refine Keep.ite (fun _ => ?_) (fun _ => ?_)
    | split)

theorem sendPending_keep (fn : Nat) (s : State) : Keep 524 s (sendPending fn s) := by
  unfold sendPending
  iterate 30 (all_goals try first
    | with_reducible exact Keep.refl _ _
    | with_reducible assumption
    | (extract_lets +onlyGivenNames zz; refine Keep.cut zz ?_ (fun _ => ?_); (rotate_left; (try clear_value zz); rotate_right; subst zz))
    | (extract_lets +onlyGivenNames zz; subst zz)
    | with_reducible refine (signal_keep ..).after ?_ (by decide)
    | with_reducible refine (putMsix_keep ..).after ?_ (by decide)
    | with_reducible refine Keep.foldl (fun _ _ => ?_) ?_ _
    | with_reducible refine Keep.foldlFst (fun _ _ => ?_) ?_ _
    | with_reducible refine Keep.foldlSnd (fun _ _ => ?_) ?_ _
    | with_reducible refine Keep.ite (fun _ => ?_) (fun _ => ?_)
    | split)

theorem msixControl_keep (fn v : Nat) (s : State) : Keep 524 s (msixControl fn v s) := by
  unfold msixControl
  iterate 30 (all_goals try first
    | with_reducible exact Keep.refl _ _
    | with_reducible assumption
    | (extract_lets +onlyGivenNames zz; refine Keep.cut zz ?_ (fun _ => ?_); (rotate_left; (try clear_value zz); rotate_right; subst zz))
    | (extract_lets +onlyGivenNames zz; subst zz)
    | with_reducible refine (sendPending_keep ..).after ?_ (by decide)
    | with_reducible refine Keep.ite (fun _ => ?_) (fun _ => ?_)
    | split
    | with_reducible refine (Keep.of_hif _ _).after ?_ (by decide))

theorem msixWrite_keep (fn vector word v : Nat) (s : State) : Keep 524 s (msixWrite fn vector word v s) := by
  unfold msixWrite
  iterate 30 (all_goals try first
    | with_reducible exact Keep.refl _ _
    | with_reducible assumption
    | (extract_lets +onlyGivenNames zz; refine Keep.cut zz ?_ (fun _ => ?_); (rotate_left; (try clear_value zz); rotate_right; subst zz))
    | (extract_lets +onlyGivenNames zz; subst zz)
    | with_reducible refine (sendPending_keep ..).after ?_ (by decide)
    | with_reducible refine (putMsix_keep ..).after ?_ (by decide)
    | with_reducible refine Keep.ite (fun _ => ?_) (fun _ => ?_)
    | split)

theorem bar4Write_keep (fn off size v : Nat) (s : State) : Keep 524 s (bar4Write fn off size v s) := by
  unfold bar4Write
  iterate 30 (all_goals try first
    | with_reducible exact Keep.refl _ _
    | with_reducible assumption
    | (extract_lets +onlyGivenNames zz; refine Keep.cut zz ?_ (fun _ => ?_); (rotate_left; (try clear_value zz); rotate_right; subst zz))
    | (extract_lets +onlyGivenNames zz; subst zz)
    | with_reducible refine (msixWrite_keep ..).after ?_ (by decide)
    | with_reducible refine (msixControl_keep ..).after ?_ (by decide)
    | with_reducible refine Keep.ite (fun _ => ?_) (fun _ => ?_)
    | split)

theorem ldRegWrite_keep (ld off v : Nat) (s : State) : Keep 512 s (ldRegWrite ld off v s) := by
  unfold ldRegWrite
  iterate 30 (all_goals try first
    | with_reducible exact Keep.refl _ _
    | with_reducible assumption
    | (extract_lets +onlyGivenNames zz; refine Keep.cut zz ?_ (fun _ => ?_); (rotate_left; (try clear_value zz); rotate_right; subst zz))
    | (extract_lets +onlyGivenNames zz; subst zz)
    | with_reducible refine Keep.ite (fun _ => ?_) (fun _ => ?_)
    | split
    | with_reducible refine (Keep.of_hif _ _).after ?_ (by decide))

theorem devRegWrite_keep (ld off v : Nat) (s : State) : Keep 512 s (devRegWrite ld off v s) := by
  unfold devRegWrite
  iterate 30 (all_goals try first
    | with_reducible exact Keep.refl _ _
    | with_reducible assumption
    | (extract_lets +onlyGivenNames zz; refine Keep.cut zz ?_ (fun _ => ?_); (rotate_left; (try clear_value zz); rotate_right; subst zz))
    | (extract_lets +onlyGivenNames zz; subst zz)
    | with_reducible refine Keep.ite (fun _ => ?_) (fun _ => ?_)
    | split
    | with_reducible refine (Keep.of_hif _ _).after ?_ (by decide))

theorem componentWrite_keep (ld off size v : Nat) (s : State) : Keep 512 s (componentWrite ld off size v s) := by
  unfold componentWrite
  iterate 30 (all_goals try first
    | with_reducible exact Keep.refl _ _
    | with_reducible assumption
    | (extract_lets +onlyGivenNames zz; refine Keep.cut zz ?_ (fun _ => ?_); (rotate_left; (try clear_value zz); rotate_right; subst zz))
    | (extract_lets +onlyGivenNames zz; subst zz)
    | with_reducible refine (devRegWrite_keep ..).after ?_ (by decide)
    | with_reducible refine (ldRegWrite_keep ..).after ?_ (by decide)
    | with_reducible refine Keep.ite (fun _ => ?_) (fun _ => ?_)
    | split)

end Sys2Proof.Machine
end

