-- ==== Sys2Proof/Laws/KeepPages.lean ====
section
/-!
SUPPORT. Laws/KeepPages.lean: what each operation of Machine/Pages.lean can change (Laws/Keep.lean).
-/
set_option Elab.async false
set_option linter.all false
namespace Sys2Proof.Machine

open Sys2Proof

theorem setTmg_keep (s : State) (t : Tmg) : Keep 67108864 s (State.setTmg s t) := by
  unfold State.setTmg
  iterate 30 (all_goals try first
    | with_reducible exact Keep.refl _ _
    | with_reducible assumption
    | with_reducible refine Keep.ite (fun _ => ?_) (fun _ => ?_)
    | split
    | with_reducible refine (Keep.of_tmg _ _).after ?_ (by decide))

theorem putRec_keep (h : Nat) (r : PageRec) (s : State) : Keep 67108864 s (putRec h r s) := by
  unfold putRec
  iterate 30 (all_goals try first
    | with_reducible exact Keep.refl _ _
    | with_reducible assumption
    | (extract_lets +onlyGivenNames zz; refine Keep.cut zz ?_ (fun _ => ?_); (rotate_left; (try clear_value zz); rotate_right; subst zz))
    | (extract_lets +onlyGivenNames zz; subst zz)
    | with_reducible refine Keep.ite (fun _ => ?_) (fun _ => ?_)
    | split
    | with_reducible refine (Keep.of_tmg _ _).after ?_ (by decide))

theorem modRec_keep (h : Nat) (f : PageRec → PageRec) (s : State) : Keep 67108864 s (modRec h f s) := by
  unfold modRec
  iterate 30 (all_goals try first
    | with_reducible exact Keep.refl _ _
    | with_reducible assumption
    | (extract_lets +onlyGivenNames zz; refine Keep.cut zz ?_ (fun _ => ?_); (rotate_left; (try clear_value zz); rotate_right; subst zz))
    | (extract_lets +onlyGivenNames zz; subst zz)
    | with_reducible refine Keep.ite (fun _ => ?_) (fun _ => ?_)
    | split
    | with_reducible refine (Keep.of_tmg _ _).after ?_ (by decide))

theorem t3Release_keep (base units : Nat) (s : State) : Keep 12 s (t3Release base units s) := by
  unfold t3Release
  iterate 30 (all_goals try first
    | with_reducible exact Keep.refl _ _
    | with_reducible assumption
    | (extract_lets +onlyGivenNames zz; refine Keep.cut zz ?_ (fun _ => ?_); (rotate_left; (try clear_value zz); rotate_right; subst zz))
    | (extract_lets +onlyGivenNames zz; subst zz)
    | with_reducible refine (emit_keep ..).after ?_ (by decide)
    | with_reducible refine (bumpBy_keep ..).after ?_ (by decide)
    | with_reducible refine Keep.foldl (fun _ _ => ?_) ?_ _
    | with_reducible refine Keep.foldlFst (fun _ _ => ?_) ?_ _
    | with_reducible refine Keep.foldlSnd (fun _ _ => ?_) ?_ _
    | with_reducible refine Keep.ite (fun _ => ?_) (fun _ => ?_)
    | split)

theorem releaseSlot_keep (tier base units : Nat) (s : State) : Keep 12 s (releaseSlot tier base units s) := by
  unfold releaseSlot
  iterate 30 (all_goals try first
    | with_reducible exact Keep.refl _ _
    | with_reducible assumption
    | with_reducible refine (t3Release_keep ..).after ?_ (by decide)
    | with_reducible refine Keep.ite (fun _ => ?_) (fun _ => ?_)
    | split)

theorem takeGen_keep {s : State} {x0 : Nat} {t0 : State} (h : takeGen s = (x0, t0)) : Keep 2 s t0 := by
  unfold takeGen at h
  try dsimp only at h
  repeat' (first | split at h)
  all_goals try (exact absurd h (by simp only [reduceCtorEq, not_false_eq_true]))
  all_goals try (with_reducible obtain ⟨rfl, rfl⟩ := Prod.mk.inj h)
  iterate 30 (all_goals try first
    | with_reducible exact Keep.refl _ _
    | with_reducible assumption
    | (extract_lets +onlyGivenNames zz; refine Keep.cut zz ?_ (fun _ => ?_); (rotate_left; (try clear_value zz); rotate_right; subst zz))
    | (extract_lets +onlyGivenNames zz; subst zz)
    | with_reducible refine (setF_keep ..).after ?_ (by decide)
    | with_reducible refine Keep.pairIte (by assumption) (fun _ => ?_)
    | with_reducible refine Keep.pairIteElse (by assumption) (fun _ => ?_)
    | with_reducible refine Keep.ite (fun _ => ?_) (fun _ => ?_)
    | split)
theorem takeGen_keepP (s : State) : Keep 2 s (takeGen s).2 := takeGen_keep (s := s) rfl

theorem addRec_keep {r : PageRec} {s : State} {x0 : Nat} {t0 : State} (h : addRec r s = (x0, t0)) : Keep 67108864 s t0 := by
  unfold addRec at h
  try dsimp only at h
  repeat' (first | split at h)
  all_goals try (exact absurd h (by simp only [reduceCtorEq, not_false_eq_true]))
  all_goals try (with_reducible obtain ⟨rfl, rfl⟩ := Prod.mk.inj h)
  iterate 30 (all_goals try first
    | with_reducible exact Keep.refl _ _
    | with_reducible assumption
    | (extract_lets +onlyGivenNames zz; refine Keep.cut zz ?_ (fun _ => ?_); (rotate_left; (try clear_value zz); rotate_right; subst zz))
    | (extract_lets +onlyGivenNames zz; subst zz)
    | with_reducible refine (putRec_keep ..).after ?_ (by decide)
    | with_reducible refine Keep.pairIte (by assumption) (fun _ => ?_)
    | with_reducible refine Keep.pairIteElse (by assumption) (fun _ => ?_)
    | with_reducible refine Keep.ite (fun _ => ?_) (fun _ => ?_)
    | split)
theorem addRec_keepP (r : PageRec) (s : State) : Keep 67108864 s (addRec r s).2 := addRec_keep (r := r) (s := s) rfl

theorem putSlot_keep (tier base : Nat) (b : List Byte) (s : State) : Keep 480 s (putSlot tier base b s) := by
  unfold putSlot
  iterate 30 (all_goals try first
    | with_reducible exact Keep.refl _ _
    | with_reducible assumption
    | with_reducible refine (setTier_keep _ _ _ (fun h => memWrite_wf _ _ h)).after ?_ (by decide)
    | with_reducible refine Keep.ite (fun _ => ?_) (fun _ => ?_)
    | split)

theorem setTags_keep (k base units : Nat) (bad : List Nat) (s : State) : Keep 2048 s (setTags k base units bad s) := by
  unfold setTags
  iterate 30 (all_goals try first
    | with_reducible exact Keep.refl _ _
    | with_reducible assumption
    | (extract_lets +onlyGivenNames zz; refine Keep.cut zz ?_ (fun _ => ?_); (rotate_left; (try clear_value zz); rotate_right; subst zz))
    | (extract_lets +onlyGivenNames zz; subst zz)
    | with_reducible refine Keep.ite (fun _ => ?_) (fun _ => ?_)
    | split
    | with_reducible refine (Keep.of_sec _ _ (by rfl)).after ?_ (by decide))

theorem writeSlot_keep (tier base : Nat) (b : List Byte) (s : State) : Keep 2528 s (writeSlot tier base b s) := by
  unfold writeSlot
  iterate 30 (all_goals try first
    | with_reducible exact Keep.refl _ _
    | with_reducible assumption
    | with_reducible refine (setTags_keep ..).after ?_ (by decide)
    | with_reducible refine (putSlot_keep ..).after ?_ (by decide)
    | with_reducible refine Keep.ite (fun _ => ?_) (fun _ => ?_)
    | split)

theorem copySlot_keep (t0 b0 t1 b1 units : Nat) (s : State) : Keep 2528 s (copySlot t0 b0 t1 b1 units s) := by
  unfold copySlot
  iterate 30 (all_goals try first
    | with_reducible exact Keep.refl _ _
    | with_reducible assumption
    | (extract_lets +onlyGivenNames zz; refine Keep.cut zz ?_ (fun _ => ?_); (rotate_left; (try clear_value zz); rotate_right; subst zz))
    | (extract_lets +onlyGivenNames zz; subst zz)
    | with_reducible refine (setTags_keep ..).after ?_ (by decide)
    | with_reducible refine (putSlot_keep ..).after ?_ (by decide)
    | with_reducible refine Keep.ite (fun _ => ?_) (fun _ => ?_)
    | split)

theorem dropMove_keep (h : Nat) (s : State) : Keep 67108864 s (dropMove h s) := by
  unfold dropMove
  iterate 30 (all_goals try first
    | with_reducible exact Keep.refl _ _
    | with_reducible assumption
    | (extract_lets +onlyGivenNames zz; refine Keep.cut zz ?_ (fun _ => ?_); (rotate_left; (try clear_value zz); rotate_right; subst zz))
    | (extract_lets +onlyGivenNames zz; subst zz)
    | with_reducible refine Keep.ite (fun _ => ?_) (fun _ => ?_)
    | split
    | with_reducible refine (Keep.of_tmg _ _).after ?_ (by decide))

theorem repointOnto_keep (m : Move) (r : PageRec) (s : State) : Keep 67108876 s (repointOnto m r s) := by
  unfold repointOnto
  iterate 30 (all_goals try first
    | with_reducible exact Keep.refl _ _
    | with_reducible assumption
    | (extract_lets +onlyGivenNames zz; refine Keep.cut zz ?_ (fun _ => ?_); (rotate_left; (try clear_value zz); rotate_right; subst zz))
    | (extract_lets +onlyGivenNames zz; subst zz)
    | with_reducible refine (dropMove_keep ..).after ?_ (by decide)
    | with_reducible refine (releaseSlot_keep ..).after ?_ (by decide)
    | with_reducible refine (putRec_keep ..).after ?_ (by decide)
    | with_reducible refine Keep.ite (fun _ => ?_) (fun _ => ?_)
    | split)

theorem repoint_keep (m : Move) (r : PageRec) (s : State) : Keep 67111404 s (repoint m r s) := by
  unfold repoint
  iterate 30 (all_goals try first
    | with_reducible exact Keep.refl _ _
    | with_reducible assumption
    | (extract_lets +onlyGivenNames zz; refine Keep.cut zz ?_ (fun _ => ?_); (rotate_left; (try clear_value zz); rotate_right; subst zz))
    | (extract_lets +onlyGivenNames zz; subst zz)
    | with_reducible refine (repointOnto_keep ..).after ?_ (by decide)
    | with_reducible refine (dropMove_keep ..).after ?_ (by decide)
    | with_reducible refine (copySlot_keep ..).after ?_ (by decide)
    | with_reducible refine (releaseSlot_keep ..).after ?_ (by decide)
    | with_reducible refine (putRec_keep ..).after ?_ (by decide)
    | with_reducible refine Keep.ite (fun _ => ?_) (fun _ => ?_)
    | split)

theorem handToTest_keep (tier base : Nat) (s : State) : Keep 1028 s (handToTest tier base s) := by
  unfold handToTest
  iterate 30 (all_goals try first
    | with_reducible exact Keep.refl _ _
    | with_reducible assumption
    | (extract_lets +onlyGivenNames zz; refine Keep.cut zz ?_ (fun _ => ?_); (rotate_left; (try clear_value zz); rotate_right; subst zz))
    | (extract_lets +onlyGivenNames zz; subst zz)
    | with_reducible refine (setFrc_keep ..).after ?_ (by decide)
    | with_reducible refine (bump_keep ..).after ?_ (by decide)
    | with_reducible refine Keep.ite (fun _ => ?_) (fun _ => ?_)
    | split)

theorem recoverInto_keep (h : Nat) (r : PageRec) (b : List Byte) (tier base : Nat) (s : State) : Keep 67112428 s (recoverInto h r b tier base s) := by
  unfold recoverInto
  iterate 30 (all_goals try first
    | with_reducible exact Keep.refl _ _
    | with_reducible assumption
    | (extract_lets +onlyGivenNames zz; refine Keep.cut zz ?_ (fun _ => ?_); (rotate_left; (try clear_value zz); rotate_right; subst zz))
    | (extract_lets +onlyGivenNames zz; subst zz)
    | with_reducible refine (handToTest_keep ..).after ?_ (by decide)
    | with_reducible refine (writeSlot_keep ..).after ?_ (by decide)
    | with_reducible refine (releaseSlot_keep ..).after ?_ (by decide)
    | with_reducible refine (putRec_keep ..).after ?_ (by decide)
    | with_reducible refine (bump_keep ..).after ?_ (by decide)
    | with_reducible refine Keep.ite (fun _ => ?_) (fun _ => ?_)
    | split
    | with_reducible refine (Keep.of_tmg _ _).after ?_ (by decide))

theorem retryOnce_keep (n : Nat) (s : State) : Keep 67112428 s (retryOnce n s) := by
  unfold retryOnce
  iterate 30 (all_goals try first
    | with_reducible exact Keep.refl _ _
    | with_reducible assumption
    | with_reducible refine (recoverInto_keep ..).after ?_ (by decide)
    | with_reducible refine Keep.foldl (fun _ _ => ?_) ?_ _
    | with_reducible refine Keep.foldlFst (fun _ _ => ?_) ?_ _
    | with_reducible refine Keep.foldlSnd (fun _ _ => ?_) ?_ _
    | with_reducible refine Keep.ite (fun _ => ?_) (fun _ => ?_)
    | split)

theorem retryFuel_keep (n y1 : Nat) (y2 : State) : Keep 67112428 y2 (retryFuel n y1 y2) := by
  induction y1 generalizing n y2 with
  | zero => exact Keep.refl _ _
  | succ n ih =>
    unfold retryFuel
    iterate 30 (all_goals try first
      | with_reducible exact Keep.refl _ _
      | with_reducible assumption
      | (extract_lets +onlyGivenNames zz; refine Keep.cut zz ?_ (fun _ => ?_); (rotate_left; (try clear_value zz); rotate_right; subst zz))
      | (extract_lets +onlyGivenNames zz; subst zz)
      | with_reducible refine (ih ..).after ?_ (by decide)
      | with_reducible refine (retryOnce_keep ..).after ?_ (by decide)
      | with_reducible refine Keep.ite (fun _ => ?_) (fun _ => ?_)
      | split)

theorem retryRecovery_keep (n : Nat) (s : State) : Keep 67112428 s (retryRecovery n s) := by
  unfold retryRecovery
  iterate 30 (all_goals try first
    | with_reducible exact Keep.refl _ _
    | with_reducible assumption
    | with_reducible refine (retryFuel_keep ..).after ?_ (by decide)
    | with_reducible refine Keep.ite (fun _ => ?_) (fun _ => ?_)
    | split)

theorem freeRec_keep (h : Nat) (r : PageRec) (s : State) : Keep 67112428 s (freeRec h r s) := by
  unfold freeRec
  iterate 30 (all_goals try first
    | with_reducible exact Keep.refl _ _
    | with_reducible assumption
    | (extract_lets +onlyGivenNames zz; refine Keep.cut zz ?_ (fun _ => ?_); (rotate_left; (try clear_value zz); rotate_right; subst zz))
    | (extract_lets +onlyGivenNames zz; subst zz)
    | with_reducible refine (retryRecovery_keep ..).after ?_ (by decide)
    | with_reducible refine (releaseSlot_keep ..).after ?_ (by decide)
    | with_reducible refine Keep.ite (fun _ => ?_) (fun _ => ?_)
    | split
    | with_reducible refine (Keep.of_tmg _ _).after ?_ (by decide))

theorem settleRec_keep (h : Nat) (s : State) : Keep 67112428 s (settleRec h s) := by
  unfold settleRec
  iterate 30 (all_goals try first
    | with_reducible exact Keep.refl _ _
    | with_reducible assumption
    | (extract_lets +onlyGivenNames zz; refine Keep.cut zz ?_ (fun _ => ?_); (rotate_left; (try clear_value zz); rotate_right; subst zz))
    | (extract_lets +onlyGivenNames zz; subst zz)
    | with_reducible refine (freeRec_keep ..).after ?_ (by decide)
    | with_reducible refine (retryRecovery_keep ..).after ?_ (by decide)
    | with_reducible refine (repoint_keep ..).after ?_ (by decide)
    | with_reducible refine Keep.ite (fun _ => ?_) (fun _ => ?_)
    | split)

theorem refFault_keep (h : Nat) (r : PageRec) (s : State) : Keep 33558030 s (refFault h r s) := by
  unfold refFault
  iterate 30 (all_goals try first
    | with_reducible exact Keep.refl _ _
    | with_reducible assumption
    | (extract_lets +onlyGivenNames zz; refine Keep.cut zz ?_ (fun _ => ?_); (rotate_left; (try clear_value zz); rotate_right; subst zz))
    | (extract_lets +onlyGivenNames zz; subst zz)
    | with_reducible refine (setPstate_keep ..).after ?_ (by decide)
    | with_reducible refine (raiseErr_keep ..).after ?_ (by decide)
    | with_reducible refine Keep.ite (fun _ => ?_) (fun _ => ?_)
    | split
    | with_reducible refine (Keep.of_turns _ _).after ?_ (by decide))

theorem dropRef_keep (h : Nat) (s : State) : Keep 100667374 s (dropRef h s) := by
  unfold dropRef
  iterate 30 (all_goals try first
    | with_reducible exact Keep.refl _ _
    | with_reducible assumption
    | with_reducible refine (refFault_keep ..).after ?_ (by decide)
    | with_reducible refine (settleRec_keep ..).after ?_ (by decide)
    | with_reducible refine (putRec_keep ..).after ?_ (by decide)
    | with_reducible refine Keep.ite (fun _ => ?_) (fun _ => ?_)
    | split)

theorem addRef_keep {h : Nat} {s : State} {t0 : State} (h0 : addRef h s = some t0) : Keep 67108864 s t0 := by
  unfold addRef at h0
  try dsimp only at h0
  repeat' (first | split at h0)
  all_goals try (exact absurd h0 (by simp only [reduceCtorEq, not_false_eq_true]))
  all_goals try (with_reducible obtain rfl := Option.some.inj h0)
  iterate 30 (all_goals try first
    | with_reducible exact Keep.refl _ _
    | with_reducible assumption
    | with_reducible refine (putRec_keep ..).after ?_ (by decide)
    | with_reducible refine Keep.ite (fun _ => ?_) (fun _ => ?_)
    | split)

theorem addPin_keep {h : Nat} {s : State} {t0 : State} (h0 : addPin h s = some t0) : Keep 67108864 s t0 := by
  unfold addPin at h0
  try dsimp only at h0
  repeat' (first | split at h0)
  all_goals try (exact absurd h0 (by simp only [reduceCtorEq, not_false_eq_true]))
  all_goals try (with_reducible obtain rfl := Option.some.inj h0)
  iterate 30 (all_goals try first
    | with_reducible exact Keep.refl _ _
    | with_reducible assumption
    | (extract_lets +onlyGivenNames zz; refine Keep.cut zz ?_ (fun _ => ?_); (rotate_left; (try clear_value zz); rotate_right; subst zz))
    | (extract_lets +onlyGivenNames zz; subst zz)
    | with_reducible refine (putRec_keep ..).after ?_ (by decide)
    | with_reducible refine Keep.ite (fun _ => ?_) (fun _ => ?_)
    | split
    | with_reducible refine (Keep.of_tmg _ _).after ?_ (by decide))

theorem dropPin_keep (h : Nat) (s : State) : Keep 100667374 s (dropPin h s) := by
  unfold dropPin
  iterate 30 (all_goals try first
    | with_reducible exact Keep.refl _ _
    | with_reducible assumption
    | with_reducible refine (refFault_keep ..).after ?_ (by decide)
    | with_reducible refine (settleRec_keep ..).after ?_ (by decide)
    | with_reducible refine (putRec_keep ..).after ?_ (by decide)
    | with_reducible refine Keep.ite (fun _ => ?_) (fun _ => ?_)
    | split)

theorem deferMove_keep (h tier : Nat) (why : MoveWhy) (s : State) : Keep 67108864 s (deferMove h tier why s) := by
  unfold deferMove
  iterate 30 (all_goals try first
    | with_reducible exact Keep.refl _ _
    | with_reducible assumption
    | (extract_lets +onlyGivenNames zz; refine Keep.cut zz ?_ (fun _ => ?_); (rotate_left; (try clear_value zz); rotate_right; subst zz))
    | (extract_lets +onlyGivenNames zz; subst zz)
    | with_reducible refine (setTmg_keep ..).after ?_ (by decide)
    | with_reducible refine Keep.ite (fun _ => ?_) (fun _ => ?_)
    | split)

theorem enterMove_keep (m : Move) (s : State) : Keep 67108864 s (enterMove m s) := by
  unfold enterMove
  iterate 30 (all_goals try first
    | with_reducible exact Keep.refl _ _
    | with_reducible assumption
    | (extract_lets +onlyGivenNames zz; refine Keep.cut zz ?_ (fun _ => ?_); (rotate_left; (try clear_value zz); rotate_right; subst zz))
    | (extract_lets +onlyGivenNames zz; subst zz)
    | with_reducible refine (addPin_keep (by assumption)).after ?_ (by decide)
    | with_reducible refine (setTmg_keep ..).after ?_ (by decide)
    | with_reducible refine Keep.ite (fun _ => ?_) (fun _ => ?_)
    | split)

theorem startMove_keep {h tier : Nat} {why : MoveWhy} {s : State} {t0 : State} (h0 : startMove h tier why s = some t0) : Keep 67112428 s t0 := by
  unfold startMove at h0
  repeat' (first | split at h0)
  all_goals try (with_reducible obtain rfl := Option.some.inj h0)
  · exact Keep.refl _ _
  · exact Keep.refl _ _
  · exact (deferMove_keep ..).mono (by decide)
  · exact Keep.refl _ _
  · exact (settleRec_keep ..).after ((enterMove_keep ..).mono (by decide)) (by decide)
  · obtain ⟨b, -, rfl⟩ := Option.map_eq_some_iff.1 h0
    exact (enterMove_keep ..).mono (by decide)

theorem moveDone_keep (h : Nat) (s : State) : Keep 67112428 s (moveDone h s) := by
  unfold moveDone
  iterate 30 (all_goals try first
    | with_reducible exact Keep.refl _ _
    | with_reducible assumption
    | (extract_lets +onlyGivenNames zz; refine Keep.cut zz ?_ (fun _ => ?_); (rotate_left; (try clear_value zz); rotate_right; subst zz))
    | (extract_lets +onlyGivenNames zz; subst zz)
    | with_reducible refine (settleRec_keep ..).after ?_ (by decide)
    | with_reducible refine Keep.ite (fun _ => ?_) (fun _ => ?_)
    | split
    | with_reducible refine (Keep.of_tmg _ _).after ?_ (by decide))

theorem abandonMove_keep (h : Nat) (s : State) : Keep 100667374 s (abandonMove h s) := by
  unfold abandonMove
  split
  · exact Keep.refl _ _
  · rename_i m _
    have g : Keep 100667374 s (dropPin h (dropMove h (if m.onto then s else releaseSlot m.tier m.base m.slot4k s))) :=
      (dropPin_keep ..).after ((dropMove_keep ..).after (Keep.ite (fun _ => Keep.refl _ _) (fun _ => (releaseSlot_keep ..).mono (by decide))) (by decide)) (by decide)
    refine Keep.getD (fun t ht => ?_) g
    obtain ⟨r, -, rfl⟩ := Option.map_eq_some_iff.1 ht
    exact (retryRecovery_keep ..).after g (by decide)

theorem pageChanged_keep (h : Nat) (s : State) : Keep 67112428 s (pageChanged h s) := by
  unfold pageChanged
  iterate 30 (all_goals try first
    | with_reducible exact Keep.refl _ _
    | with_reducible assumption
    | with_reducible refine (retryRecovery_keep ..).after ?_ (by decide)
    | with_reducible refine (releaseSlot_keep ..).after ?_ (by decide)
    | with_reducible refine (putRec_keep ..).after ?_ (by decide)
    | with_reducible refine Keep.ite (fun _ => ?_) (fun _ => ?_)
    | split)

theorem newGen_keep (h : Nat) (s : State) : Keep 67108866 s (newGen h s) := by
  unfold newGen
  iterate 30 (all_goals try first
    | with_reducible exact Keep.refl _ _
    | with_reducible assumption
    | with_reducible refine (takeGen_keep (by assumption)).after ?_ (by decide)
    | with_reducible refine (takeGen_keepP ..).after ?_ (by decide)
    | with_reducible refine (modRec_keep ..).after ?_ (by decide)
    | with_reducible refine Keep.ite (fun _ => ?_) (fun _ => ?_)
    | split)

theorem writePage_keep (h off : Nat) (b : List Byte) (s : State) : Keep 480 s (writePage h off b s) := by
  unfold writePage
  iterate 30 (all_goals try first
    | with_reducible exact Keep.refl _ _
    | with_reducible assumption
    | with_reducible refine (setTier_keep _ _ _ (fun h => memWrite_wf _ _ h)).after ?_ (by decide)
    | with_reducible refine Keep.ite (fun _ => ?_) (fun _ => ?_)
    | split)

theorem putSession_keep (i : Nat) (x : Session) (s : State) : Keep 131072 s (putSession i x s) := by
  unfold putSession
  iterate 30 (all_goals try first
    | with_reducible exact Keep.refl _ _
    | with_reducible assumption
    | (extract_lets +onlyGivenNames zz; refine Keep.cut zz ?_ (fun _ => ?_); (rotate_left; (try clear_value zz); rotate_right; subst zz))
    | (extract_lets +onlyGivenNames zz; subst zz)
    | with_reducible refine Keep.ite (fun _ => ?_) (fun _ => ?_)
    | split
    | with_reducible refine (Keep.of_sessions _ _).after ?_ (by decide))

theorem modSession_keep (i : Nat) (f : Session → Session) (s : State) : Keep 131072 s (modSession i f s) := by
  unfold modSession
  iterate 30 (all_goals try first
    | with_reducible exact Keep.refl _ _
    | with_reducible assumption
    | (extract_lets +onlyGivenNames zz; refine Keep.cut zz ?_ (fun _ => ?_); (rotate_left; (try clear_value zz); rotate_right; subst zz))
    | (extract_lets +onlyGivenNames zz; subst zz)
    | with_reducible refine Keep.ite (fun _ => ?_) (fun _ => ?_)
    | split
    | with_reducible refine (Keep.of_sessions _ _).after ?_ (by decide))

theorem placeMap_keep (i : Nat) (s : State) : Keep 131072 s (placeMap i s) := by
  unfold placeMap
  iterate 30 (all_goals try first
    | with_reducible exact Keep.refl _ _
    | with_reducible assumption
    | (extract_lets +onlyGivenNames zz; refine Keep.cut zz ?_ (fun _ => ?_); (rotate_left; (try clear_value zz); rotate_right; subst zz))
    | (extract_lets +onlyGivenNames zz; subst zz)
    | with_reducible refine (modSession_keep ..).after ?_ (by decide)
    | with_reducible refine (putSession_keep ..).after ?_ (by decide)
    | with_reducible refine Keep.foldl (fun _ _ => ?_) ?_ _
    | with_reducible refine Keep.foldlFst (fun _ _ => ?_) ?_ _
    | with_reducible refine Keep.foldlSnd (fun _ _ => ?_) ?_ _
    | with_reducible refine Keep.ite (fun _ => ?_) (fun _ => ?_)
    | split)

theorem releaseKv_keep (i : Nat) (s : State) : Keep 100798446 s (releaseKv i s) := by
  unfold releaseKv
  iterate 30 (all_goals try first
    | with_reducible exact Keep.refl _ _
    | with_reducible assumption
    | (extract_lets +onlyGivenNames zz; refine Keep.cut zz ?_ (fun _ => ?_); (rotate_left; (try clear_value zz); rotate_right; subst zz))
    | (extract_lets +onlyGivenNames zz; subst zz)
    | with_reducible refine (putSession_keep ..).after ?_ (by decide)
    | with_reducible refine (dropRef_keep ..).after ?_ (by decide)
    | with_reducible refine (retryRecovery_keep ..).after ?_ (by decide)
    | with_reducible refine (releaseSlot_keep ..).after ?_ (by decide)
    | with_reducible refine Keep.foldl (fun _ _ => ?_) ?_ _
    | with_reducible refine Keep.foldlFst (fun _ _ => ?_) ?_ _
    | with_reducible refine Keep.foldlSnd (fun _ _ => ?_) ?_ _
    | with_reducible refine Keep.ite (fun _ => ?_) (fun _ => ?_)
    | split)

theorem foldSession_keep (i tier : Nat) (s : State) : Keep 67239940 s (foldSession i tier s) := by
  unfold foldSession
  iterate 30 (all_goals try first
    | with_reducible exact Keep.refl _ _
    | with_reducible assumption
    | (extract_lets +onlyGivenNames zz; refine Keep.cut zz ?_ (fun _ => ?_); (rotate_left; (try clear_value zz); rotate_right; subst zz))
    | (extract_lets +onlyGivenNames zz; subst zz)
    | with_reducible refine (putSession_keep ..).after ?_ (by decide)
    | with_reducible refine (bumpBy_keep ..).after ?_ (by decide)
    | with_reducible refine Keep.foldl (fun _ _ => ?_) ?_ _
    | with_reducible refine Keep.foldlFst (fun _ _ => ?_) ?_ _
    | with_reducible refine Keep.foldlSnd (fun _ _ => ?_) ?_ _
    | with_reducible refine Keep.ite (fun _ => ?_) (fun _ => ?_)
    | split
    | with_reducible refine (Keep.of_tmg _ _).after ?_ (by decide))

theorem unfoldSession_keep {i : Nat} {s : State} {t0 : State} (h : unfoldSession i s = some t0) : Keep 67243500 s t0 := by
  unfold unfoldSession at h
  try dsimp only at h
  repeat' (first | split at h)
  all_goals try (exact absurd h (by simp only [reduceCtorEq, not_false_eq_true]))
  all_goals try (with_reducible obtain rfl := Option.some.inj h)
  iterate 30 (all_goals try first
    | with_reducible exact Keep.refl _ _
    | with_reducible assumption
    | (extract_lets +onlyGivenNames zz; refine Keep.cut zz ?_ (fun _ => ?_); (rotate_left; (try clear_value zz); rotate_right; subst zz))
    | (extract_lets +onlyGivenNames zz; subst zz)
    | with_reducible refine (placeMap_keep ..).after ?_ (by decide)
    | with_reducible refine (putSession_keep ..).after ?_ (by decide)
    | with_reducible refine (retryRecovery_keep ..).after ?_ (by decide)
    | with_reducible refine (addRec_keep (by assumption)).after ?_ (by decide)
    | with_reducible refine (addRec_keepP ..).after ?_ (by decide)
    | with_reducible refine (releaseSlot_keep ..).after ?_ (by decide)
    | with_reducible refine (setTmg_keep ..).after ?_ (by decide)
    | with_reducible refine Keep.foldl (fun _ _ => ?_) ?_ _
    | with_reducible refine Keep.foldlFst (fun _ _ => ?_) ?_ _
    | with_reducible refine Keep.foldlSnd (fun _ _ => ?_) ?_ _
    | with_reducible refine Keep.ite (fun _ => ?_) (fun _ => ?_)
    | split)

theorem newTail_keep {n layer page target : Nat} {g : Geom} {index : Nat} {s : State} {x0 : Nat} {t0 : State} (h : newTail n layer page target g index s = .inr (x0, t0)) : Keep 67109346 s t0 := by
  unfold newTail at h
  try dsimp only at h
  repeat' (first | split at h)
  all_goals try (exact absurd h (by simp only [reduceCtorEq, not_false_eq_true]))
  all_goals try (with_reducible obtain ⟨rfl, rfl⟩ := Prod.mk.inj (Sum.inr.inj h))
  iterate 30 (all_goals try first
    | with_reducible exact Keep.refl _ _
    | with_reducible assumption
    | with_reducible refine (writePage_keep ..).after ?_ (by decide)
    | with_reducible refine (addRec_keep (by assumption)).after ?_ (by decide)
    | with_reducible refine (addRec_keepP ..).after ?_ (by decide)
    | with_reducible refine (takeGen_keep (by assumption)).after ?_ (by decide)
    | with_reducible refine (takeGen_keepP ..).after ?_ (by decide)
    | with_reducible refine Keep.ite (fun _ => ?_) (fun _ => ?_)
    | split)

theorem copyOnWrite_keep {h index : Nat} {s : State} {x0 : Nat} {t0 : State} (h0 : copyOnWrite h index s = .inr (x0, t0)) : Keep 100667374 s t0 := by
  unfold copyOnWrite at h0
  try dsimp only at h0
  repeat' (first | split at h0)
  all_goals try (exact absurd h0 (by simp only [reduceCtorEq, not_false_eq_true]))
  all_goals try (with_reducible obtain ⟨rfl, rfl⟩ := Prod.mk.inj (Sum.inr.inj h0))
  iterate 30 (all_goals try first
    | with_reducible exact Keep.refl _ _
    | with_reducible assumption
    | (extract_lets +onlyGivenNames zz; refine Keep.cut zz ?_ (fun _ => ?_); (rotate_left; (try clear_value zz); rotate_right; subst zz))
    | (extract_lets +onlyGivenNames zz; subst zz)
    | with_reducible refine (dropRef_keep ..).after ?_ (by decide)
    | with_reducible refine (copySlot_keep ..).after ?_ (by decide)
    | with_reducible refine (addRec_keep (by assumption)).after ?_ (by decide)
    | with_reducible refine (addRec_keepP ..).after ?_ (by decide)
    | with_reducible refine (takeGen_keep (by assumption)).after ?_ (by decide)
    | with_reducible refine (takeGen_keepP ..).after ?_ (by decide)
    | with_reducible refine (bump_keep ..).after ?_ (by decide)
    | with_reducible refine Keep.ite (fun _ => ?_) (fun _ => ?_)
    | split)

theorem expanderRead_keep {who : Met} {h : Nat} {r : PageRec} {tier base : Nat} {s : State} {t0 : State} {x1 : Bool} (h0 : expanderRead who h r tier base s = (t0, x1)) : Keep 3598 s t0 := by
  unfold expanderRead at h0
  try dsimp only at h0
  repeat' (first | split at h0)
  all_goals try (exact absurd h0 (by simp only [reduceCtorEq, not_false_eq_true]))
  all_goals try (with_reducible obtain ⟨rfl, rfl⟩ := Prod.mk.inj h0)
  iterate 30 (all_goals try first
    | with_reducible exact Keep.refl _ _
    | with_reducible assumption
    | (extract_lets +onlyGivenNames zz; refine Keep.cut zz ?_ (fun _ => ?_); (rotate_left; (try clear_value zz); rotate_right; subst zz))
    | (extract_lets +onlyGivenNames zz; subst zz)
    | with_reducible refine (tagErrors_keep ..).after ?_ (by decide)
    | with_reducible refine (raiseErr_keep ..).after ?_ (by decide)
    | with_reducible refine (bump_keep ..).after ?_ (by decide)
    | with_reducible refine (bumpBy_keep ..).after ?_ (by decide)
    | with_reducible refine (setF_keep ..).after ?_ (by decide)
    | with_reducible refine Keep.pairIte (by assumption) (fun _ => ?_)
    | with_reducible refine Keep.pairIteElse (by assumption) (fun _ => ?_)
    | with_reducible refine Keep.ite (fun _ => ?_) (fun _ => ?_)
    | split)
theorem expanderRead_keepP (who : Met) (h : Nat) (r : PageRec) (tier base : Nat) (s : State) : Keep 3598 s (expanderRead who h r tier base s).1 := expanderRead_keep (who := who) (h := h) (r := r) (tier := tier) (base := base) (s := s) rfl

theorem tryFold_keep (i : Nat) (s : State) : Keep 67239940 s (tryFold i s) := by
  unfold tryFold
  iterate 30 (all_goals try first
    | with_reducible exact Keep.refl _ _
    | with_reducible assumption
    | (extract_lets +onlyGivenNames zz; refine Keep.cut zz ?_ (fun _ => ?_); (rotate_left; (try clear_value zz); rotate_right; subst zz))
    | (extract_lets +onlyGivenNames zz; subst zz)
    | with_reducible refine (foldSession_keep ..).after ?_ (by decide)
    | with_reducible refine (modSession_keep ..).after ?_ (by decide)
    | with_reducible refine Keep.ite (fun _ => ?_) (fun _ => ?_)
    | split)

theorem foldReady_keep (s : State) : Keep 67239940 s (foldReady s) := by
  unfold foldReady
  iterate 30 (all_goals try first
    | with_reducible exact Keep.refl _ _
    | with_reducible assumption
    | with_reducible refine (tryFold_keep ..).after ?_ (by decide)
    | with_reducible refine Keep.foldl (fun _ _ => ?_) ?_ _
    | with_reducible refine Keep.foldlFst (fun _ _ => ?_) ?_ _
    | with_reducible refine Keep.foldlSnd (fun _ _ => ?_) ?_ _
    | with_reducible refine Keep.ite (fun _ => ?_) (fun _ => ?_)
    | split)

end Sys2Proof.Machine
end

