-- ==== Sys2Proof/Laws/KeepWindow.lean ====
section
/-!
SUPPORT. Laws/KeepWindow.lean: what each operation of Machine/Window.lean can change (Laws/Keep.lean).
-/
set_option Elab.async false
set_option linter.all false
namespace Sys2Proof.Machine

open Sys2Proof

theorem putEntry_keep (line : Nat) (d : DirEntry) (s : State) : Keep 65536 s (putEntry line d s) := by
  unfold putEntry
  iterate 30 (all_goals try first
    | with_reducible exact Keep.refl _ _
    | with_reducible assumption
    | (extract_lets +onlyGivenNames zz; refine Keep.cut zz ?_ (fun _ => ?_); (rotate_left; (try clear_value zz); rotate_right; subst zz))
    | (extract_lets +onlyGivenNames zz; subst zz)
    | with_reducible refine Keep.ite (fun _ => ?_) (fun _ => ?_)
    | split
    | with_reducible refine (Keep.of_cwp _ _).after ?_ (by decide))

theorem dropHolder_keep (line host : Nat) (s : State) : Keep 65536 s (dropHolder line host s) := by
  unfold dropHolder
  iterate 30 (all_goals try first
    | with_reducible exact Keep.refl _ _
    | with_reducible assumption
    | with_reducible refine (putEntry_keep ..).after ?_ (by decide)
    | with_reducible refine Keep.ite (fun _ => ?_) (fun _ => ?_)
    | split)

theorem shareHolder_keep (line host : Nat) (s : State) : Keep 65536 s (shareHolder line host s) := by
  unfold shareHolder
  iterate 30 (all_goals try first
    | with_reducible exact Keep.refl _ _
    | with_reducible assumption
    | with_reducible refine (putEntry_keep ..).after ?_ (by decide)
    | with_reducible refine Keep.ite (fun _ => ?_) (fun _ => ?_)
    | split)

theorem deny_keep (ld line : Nat) (s : State) : Keep 69134 s (deny ld line s) := by
  unfold deny
  iterate 30 (all_goals try first
    | with_reducible exact Keep.refl _ _
    | with_reducible assumption
    | (extract_lets +onlyGivenNames zz; refine Keep.cut zz ?_ (fun _ => ?_); (rotate_left; (try clear_value zz); rotate_right; subst zz))
    | (extract_lets +onlyGivenNames zz; subst zz)
    | with_reducible refine (logEv_keep ..).after ?_ (by decide)
    | with_reducible refine (bump_keep ..).after ?_ (by decide)
    | with_reducible refine Keep.ite (fun _ => ?_) (fun _ => ?_)
    | split
    | with_reducible refine (Keep.of_cwp _ _).after ?_ (by decide))

theorem grantLine_keep (ld line : Nat) (grant : LineGrant) (d : DirEntry) (s : State) : Keep 65536 s (grantLine ld line grant d s) := by
  unfold grantLine
  iterate 30 (all_goals try first
    | with_reducible exact Keep.refl _ _
    | with_reducible assumption
    | with_reducible refine (putEntry_keep ..).after ?_ (by decide)
    | with_reducible refine Keep.ite (fun _ => ?_) (fun _ => ?_)
    | split)

theorem hostReadNeeds_keep {ld line : Nat} {grant : LineGrant} {s : State} {t0 : State} {x1 : List Nat} (h : hostReadNeeds ld line grant s = some (t0, x1)) : Keep 65548 s t0 := by
  unfold hostReadNeeds at h
  try dsimp only at h
  repeat' (first | split at h)
  all_goals try (exact absurd h (by simp only [reduceCtorEq, not_false_eq_true]))
  all_goals try (with_reducible obtain ⟨rfl, rfl⟩ := Prod.mk.inj (Option.some.inj h))
  iterate 30 (all_goals try first
    | with_reducible exact Keep.refl _ _
    | with_reducible assumption
    | with_reducible refine (recallAll_keep ..).after ?_ (by decide)
    | with_reducible refine (sendRecall_keep ..).after ?_ (by decide)
    | with_reducible refine (bump_keep ..).after ?_ (by decide)
    | with_reducible refine Keep.pairIte (by assumption) (fun _ => ?_)
    | with_reducible refine Keep.pairIteElse (by assumption) (fun _ => ?_)
    | with_reducible refine Keep.ite (fun _ => ?_) (fun _ => ?_)
    | split)

theorem hostReadServe_keep (ld line : Nat) (grant : LineGrant) (e : Nat) (s : State) : Keep 69134 s (hostReadServe ld line grant e s) := by
  unfold hostReadServe
  iterate 30 (all_goals try first
    | with_reducible exact Keep.refl _ _
    | with_reducible assumption
    | (extract_lets +onlyGivenNames zz; refine Keep.cut zz ?_ (fun _ => ?_); (rotate_left; (try clear_value zz); rotate_right; subst zz))
    | (extract_lets +onlyGivenNames zz; subst zz)
    | with_reducible refine (grantLine_keep ..).after ?_ (by decide)
    | with_reducible refine (tagFailures_keep ..).after ?_ (by decide)
    | with_reducible refine (removalRecall_keep ..).after ?_ (by decide)
    | with_reducible refine (poisonRead_keep ..).after ?_ (by decide)
    | with_reducible refine (emit_keep ..).after ?_ (by decide)
    | with_reducible refine Keep.getD (fun _ _ => ?_) ?_
    | with_reducible refine Keep.ite (fun _ => ?_) (fun _ => ?_)
    | split
    | with_reducible refine (Keep.of_cwp _ _).after ?_ (by decide))

theorem hostReadGo_keep (ld line : Nat) (grant : LineGrant) (s : State) : Keep 69134 s (hostReadGo ld line grant s) := by
  unfold hostReadGo
  iterate 30 (all_goals try first
    | with_reducible exact Keep.refl _ _
    | with_reducible assumption
    | with_reducible refine (hostReadServe_keep ..).after ?_ (by decide)
    | with_reducible refine (hostReadNeeds_keep (by assumption)).after ?_ (by decide)
    | with_reducible refine (enqueueWait_keep ..).after ?_ (by decide)
    | with_reducible refine (emit_keep ..).after ?_ (by decide)
    | with_reducible refine Keep.ite (fun _ => ?_) (fun _ => ?_)
    | split)

theorem hostWriteGo_keep (ld line mask : Nat) (b : List Byte) (s : State) : Keep 65612 s (hostWriteGo ld line mask b s) := by
  unfold hostWriteGo
  split
  · exact (emit_keep ..).mono (by decide)
  · dsimp only
    with_reducible refine Keep.ite (fun _ => ?_) (fun _ => ?_)
    · with_reducible refine (enqueueWait_keep ..).after ?_ (by decide)
      exact (recallAll_keep ..).mono (by decide)
    · with_reducible refine (emit_keep ..).after ?_ (by decide)
      with_reducible refine Keep.ite (fun _ => ?_) (fun _ => ?_)
      · exact (t1Write_keep ..).mono (by decide)
      · with_reducible refine Keep.ite (fun _ => Keep.refl _ _) (fun _ => ?_)
        exact (Keep.of_mem1 s _ fun h => memFoldAll_wf _ _ _ h).mono (by decide)

theorem hostRead_keep (ld line : Nat) (grant : LineGrant) (s : State) : Keep 69134 s (hostRead ld line grant s) := by
  unfold hostRead
  iterate 30 (all_goals try first
    | with_reducible exact Keep.refl _ _
    | with_reducible assumption
    | (extract_lets +onlyGivenNames zz; refine Keep.cut zz ?_ (fun _ => ?_); (rotate_left; (try clear_value zz); rotate_right; subst zz))
    | (extract_lets +onlyGivenNames zz; subst zz)
    | with_reducible refine (hostReadGo_keep ..).after ?_ (by decide)
    | with_reducible refine (deny_keep ..).after ?_ (by decide)
    | with_reducible refine (enqueueWait_keep ..).after ?_ (by decide)
    | with_reducible refine (emit_keep ..).after ?_ (by decide)
    | with_reducible refine (bump_keep ..).after ?_ (by decide)
    | with_reducible refine Keep.ite (fun _ => ?_) (fun _ => ?_)
    | split)

theorem hostWrite_keep (ld line mask : Nat) (b : List Byte) (s : State) : Keep 69198 s (hostWrite ld line mask b s) := by
  unfold hostWrite
  iterate 30 (all_goals try first
    | with_reducible exact Keep.refl _ _
    | with_reducible assumption
    | (extract_lets +onlyGivenNames zz; refine Keep.cut zz ?_ (fun _ => ?_); (rotate_left; (try clear_value zz); rotate_right; subst zz))
    | (extract_lets +onlyGivenNames zz; subst zz)
    | with_reducible refine (hostWriteGo_keep ..).after ?_ (by decide)
    | with_reducible refine (deny_keep ..).after ?_ (by decide)
    | with_reducible refine (enqueueWait_keep ..).after ?_ (by decide)
    | with_reducible refine (emit_keep ..).after ?_ (by decide)
    | with_reducible refine (bump_keep ..).after ?_ (by decide)
    | with_reducible refine Keep.ite (fun _ => ?_) (fun _ => ?_)
    | split)

theorem orphanHost_keep (ld e : Nat) (s : State) : Keep 2 s (orphanHost ld e s) := by
  unfold orphanHost
  iterate 30 (all_goals try first
    | with_reducible exact Keep.refl _ _
    | with_reducible assumption
    | (extract_lets +onlyGivenNames zz; refine Keep.cut zz ?_ (fun _ => ?_); (rotate_left; (try clear_value zz); rotate_right; subst zz))
    | (extract_lets +onlyGivenNames zz; subst zz)
    | with_reducible refine (setF_keep ..).after ?_ (by decide)
    | with_reducible refine Keep.ite (fun _ => ?_) (fun _ => ?_)
    | split)

theorem poisonExclusive_keep (ld cause : Nat) (within : Nat → Bool) (s : State) : Keep 65604 s (poisonExclusive ld cause within s) := by
  unfold poisonExclusive
  iterate 30 (all_goals try first
    | with_reducible exact Keep.refl _ _
    | with_reducible assumption
    | with_reducible refine (dropHolder_keep ..).after ?_ (by decide)
    | with_reducible refine (poisonLine_keep ..).after ?_ (by decide)
    | with_reducible refine Keep.foldl (fun _ _ => ?_) ?_ _
    | with_reducible refine Keep.foldlFst (fun _ _ => ?_) ?_ _
    | with_reducible refine Keep.foldlSnd (fun _ _ => ?_) ?_ _
    | with_reducible refine Keep.ite (fun _ => ?_) (fun _ => ?_)
    | split)

theorem forgetHost_keep (ld : Nat) (within : Nat → Bool) (s : State) : Keep 65536 s (forgetHost ld within s) := by
  unfold forgetHost
  iterate 30 (all_goals try first
    | with_reducible exact Keep.refl _ _
    | with_reducible assumption
    | (extract_lets +onlyGivenNames zz; refine Keep.cut zz ?_ (fun _ => ?_); (rotate_left; (try clear_value zz); rotate_right; subst zz))
    | (extract_lets +onlyGivenNames zz; subst zz)
    | with_reducible refine (dropHolder_keep ..).after ?_ (by decide)
    | with_reducible refine Keep.foldl (fun _ _ => ?_) ?_ _
    | with_reducible refine Keep.foldlFst (fun _ _ => ?_) ?_ _
    | with_reducible refine Keep.foldlSnd (fun _ _ => ?_) ?_ _
    | with_reducible refine Keep.ite (fun _ => ?_) (fun _ => ?_)
    | split
    | with_reducible refine (Keep.of_cwp _ _).after ?_ (by decide))

theorem hostDead_keep (ld cause : Nat) (s : State) : Keep 69198 s (hostDead ld cause s) := by
  unfold hostDead
  iterate 30 (all_goals try first
    | with_reducible exact Keep.refl _ _
    | with_reducible assumption
    | (extract_lets +onlyGivenNames zz; refine Keep.cut zz ?_ (fun _ => ?_); (rotate_left; (try clear_value zz); rotate_right; subst zz))
    | (extract_lets +onlyGivenNames zz; subst zz)
    | with_reducible refine (forgetHost_keep ..).after ?_ (by decide)
    | with_reducible refine (poisonExclusive_keep ..).after ?_ (by decide)
    | with_reducible refine (orphanHost_keep ..).after ?_ (by decide)
    | with_reducible refine (loseQueues_keep ..).after ?_ (by decide)
    | with_reducible refine (logEv_keep ..).after ?_ (by decide)
    | with_reducible refine (bump_keep ..).after ?_ (by decide)
    | with_reducible refine (setF_keep ..).after ?_ (by decide)
    | with_reducible refine Keep.foldl (fun _ _ => ?_) ?_ _
    | with_reducible refine Keep.foldlFst (fun _ _ => ?_) ?_ _
    | with_reducible refine Keep.foldlSnd (fun _ _ => ?_) ?_ _
    | with_reducible refine Keep.ite (fun _ => ?_) (fun _ => ?_)
    | split
    | with_reducible refine (Keep.of_cwp _ _).after ?_ (by decide))

theorem hostPartner_keep (ld : Nat) (bad : Bool) (s : State) : Keep 69198 s (hostPartner ld bad s) := by
  unfold hostPartner
  iterate 30 (all_goals try first
    | with_reducible exact Keep.refl _ _
    | with_reducible assumption
    | (extract_lets +onlyGivenNames zz; refine Keep.cut zz ?_ (fun _ => ?_); (rotate_left; (try clear_value zz); rotate_right; subst zz))
    | (extract_lets +onlyGivenNames zz; subst zz)
    | with_reducible refine (hostDead_keep ..).after ?_ (by decide)
    | with_reducible refine (logEv_keep ..).after ?_ (by decide)
    | with_reducible refine (bump_keep ..).after ?_ (by decide)
    | with_reducible refine Keep.ite (fun _ => ?_) (fun _ => ?_)
    | split
    | with_reducible refine (Keep.of_frc _ _).after ?_ (by decide)
    | with_reducible refine (Keep.of_hif _ _).after ?_ (by decide))

theorem removalNext_keep (e : Nat) (s : State) : Keep 2 s (removalNext e s) := by
  unfold removalNext
  iterate 30 (all_goals try first
    | with_reducible exact Keep.refl _ _
    | with_reducible assumption
    | (extract_lets +onlyGivenNames zz; refine Keep.cut zz ?_ (fun _ => ?_); (rotate_left; (try clear_value zz); rotate_right; subst zz))
    | (extract_lets +onlyGivenNames zz; subst zz)
    | with_reducible refine (setF_keep ..).after ?_ (by decide)
    | with_reducible refine Keep.ite (fun _ => ?_) (fun _ => ?_)
    | split)

theorem removalFinish_keep (e : Nat) (s : State) : Keep 74318 s (removalFinish e s) := by
  unfold removalFinish
  iterate 30 (all_goals try first
    | with_reducible exact Keep.refl _ _
    | with_reducible assumption
    | (extract_lets +onlyGivenNames zz; refine Keep.cut zz ?_ (fun _ => ?_); (rotate_left; (try clear_value zz); rotate_right; subst zz))
    | (extract_lets +onlyGivenNames zz; subst zz)
    | with_reducible refine (removalNext_keep ..).after ?_ (by decide)
    | with_reducible refine (forgetHost_keep ..).after ?_ (by decide)
    | with_reducible refine (poisonExclusive_keep ..).after ?_ (by decide)
    | with_reducible refine (complete_keep ..).after ?_ (by decide)
    | with_reducible refine (emit_keep ..).after ?_ (by decide)
    | with_reducible refine (setF_keep ..).after ?_ (by decide)
    | with_reducible refine Keep.foldl (fun _ _ => ?_) ?_ _
    | with_reducible refine Keep.foldlFst (fun _ _ => ?_) ?_ _
    | with_reducible refine Keep.foldlSnd (fun _ _ => ?_) ?_ _
    | with_reducible refine Keep.ite (fun _ => ?_) (fun _ => ?_)
    | split
    | with_reducible refine (Keep.of_cwp _ _).after ?_ (by decide))

theorem extentAssign_keepD {c : Cmd} {s : State} {t0 : State} {r0 : Reply} (h : extentAssign c s = .done t0 r0) : Keep 2 s t0 := by
  unfold extentAssign at h
  try dsimp only at h
  repeat' (first | (with_reducible rw [need_done] at h; replace h := h.2) | split at h)
  all_goals try (exact absurd h (by simp only [Res.fail, reduceCtorEq, not_false_eq_true]))
  all_goals try (with_reducible obtain ⟨rfl, rfl⟩ := Res.done.inj h)
  iterate 30 (all_goals try first
    | with_reducible exact Keep.refl _ _
    | with_reducible assumption
    | (extract_lets +onlyGivenNames zz; refine Keep.cut zz ?_ (fun _ => ?_); (rotate_left; (try clear_value zz); rotate_right; subst zz))
    | (extract_lets +onlyGivenNames zz; subst zz)
    | with_reducible refine (setF_keep ..).after ?_ (by decide)
    | with_reducible refine Keep.ite (fun _ => ?_) (fun _ => ?_)
    | split)
theorem extentAssign_keepW {c : Cmd} {s : State} {t0 : State} (h : extentAssign c s = .wait t0) : Keep 2 s t0 := by
  unfold extentAssign at h
  try dsimp only at h
  repeat' (first | (with_reducible rw [need_wait] at h; replace h := h.2) | split at h)
  all_goals try (exact absurd h (by simp only [Res.fail, reduceCtorEq, not_false_eq_true]))
  all_goals try (with_reducible obtain rfl := Res.wait.inj h)
  iterate 30 (all_goals try first
    | with_reducible exact Keep.refl _ _
    | with_reducible assumption
    | (extract_lets +onlyGivenNames zz; refine Keep.cut zz ?_ (fun _ => ?_); (rotate_left; (try clear_value zz); rotate_right; subst zz))
    | (extract_lets +onlyGivenNames zz; subst zz)
    | with_reducible refine (setF_keep ..).after ?_ (by decide)
    | with_reducible refine Keep.ite (fun _ => ?_) (fun _ => ?_)
    | split)

theorem extentAddHosts_keepD {c : Cmd} {s : State} {t0 : State} {r0 : Reply} (h : extentAddHosts c s = .done t0 r0) : Keep 2 s t0 := by
  unfold extentAddHosts at h
  try dsimp only at h
  repeat' (first | (with_reducible rw [need_done] at h; replace h := h.2) | split at h)
  all_goals try (exact absurd h (by simp only [Res.fail, reduceCtorEq, not_false_eq_true]))
  all_goals try (with_reducible obtain ⟨rfl, rfl⟩ := Res.done.inj h)
  iterate 30 (all_goals try first
    | with_reducible exact Keep.refl _ _
    | with_reducible assumption
    | (extract_lets +onlyGivenNames zz; refine Keep.cut zz ?_ (fun _ => ?_); (rotate_left; (try clear_value zz); rotate_right; subst zz))
    | (extract_lets +onlyGivenNames zz; subst zz)
    | with_reducible refine (setF_keep ..).after ?_ (by decide)
    | with_reducible refine Keep.foldl (fun _ _ => ?_) ?_ _
    | with_reducible refine Keep.foldlFst (fun _ _ => ?_) ?_ _
    | with_reducible refine Keep.foldlSnd (fun _ _ => ?_) ?_ _
    | with_reducible refine Keep.ite (fun _ => ?_) (fun _ => ?_)
    | split)
theorem extentAddHosts_keepW {c : Cmd} {s : State} {t0 : State} (h : extentAddHosts c s = .wait t0) : Keep 2 s t0 := by
  unfold extentAddHosts at h
  try dsimp only at h
  repeat' (first | (with_reducible rw [need_wait] at h; replace h := h.2) | split at h)
  all_goals try (exact absurd h (by simp only [Res.fail, reduceCtorEq, not_false_eq_true]))
  all_goals try (with_reducible obtain rfl := Res.wait.inj h)
  iterate 30 (all_goals try first
    | with_reducible exact Keep.refl _ _
    | with_reducible assumption
    | (extract_lets +onlyGivenNames zz; refine Keep.cut zz ?_ (fun _ => ?_); (rotate_left; (try clear_value zz); rotate_right; subst zz))
    | (extract_lets +onlyGivenNames zz; subst zz)
    | with_reducible refine (setF_keep ..).after ?_ (by decide)
    | with_reducible refine Keep.foldl (fun _ _ => ?_) ?_ _
    | with_reducible refine Keep.foldlFst (fun _ _ => ?_) ?_ _
    | with_reducible refine Keep.foldlSnd (fun _ _ => ?_) ?_ _
    | with_reducible refine Keep.ite (fun _ => ?_) (fun _ => ?_)
    | split)

theorem extentRemove_keepD {c : Cmd} {s : State} {t0 : State} {r0 : Reply} (h : extentRemove c s = .done t0 r0) : Keep 74318 s t0 := by
  unfold extentRemove at h
  try dsimp only at h
  repeat' (first | (with_reducible rw [need_done] at h; replace h := h.2) | split at h)
  all_goals try (exact absurd h (by simp only [Res.fail, reduceCtorEq, not_false_eq_true]))
  all_goals try (with_reducible obtain ⟨rfl, rfl⟩ := Res.done.inj h)
  iterate 30 (all_goals try first
    | with_reducible exact Keep.refl _ _
    | with_reducible assumption
    | (extract_lets +onlyGivenNames zz; refine Keep.cut zz ?_ (fun _ => ?_); (rotate_left; (try clear_value zz); rotate_right; subst zz))
    | (extract_lets +onlyGivenNames zz; subst zz)
    | with_reducible refine (removalFinish_keep ..).after ?_ (by decide)
    | with_reducible refine (sendRecall_keep ..).after ?_ (by decide)
    | with_reducible refine (setF_keep ..).after ?_ (by decide)
    | with_reducible refine Keep.foldl (fun _ _ => ?_) ?_ _
    | with_reducible refine Keep.foldlFst (fun _ _ => ?_) ?_ _
    | with_reducible refine Keep.foldlSnd (fun _ _ => ?_) ?_ _
    | with_reducible refine Keep.ite (fun _ => ?_) (fun _ => ?_)
    | split
    | with_reducible refine (Keep.of_cwp _ _).after ?_ (by decide))
theorem extentRemove_keepW {c : Cmd} {s : State} {t0 : State} (h : extentRemove c s = .wait t0) : Keep 74318 s t0 := by
  unfold extentRemove at h
  try dsimp only at h
  repeat' (first | (with_reducible rw [need_wait] at h; replace h := h.2) | split at h)
  all_goals try (exact absurd h (by simp only [Res.fail, reduceCtorEq, not_false_eq_true]))
  all_goals try (with_reducible obtain rfl := Res.wait.inj h)
  iterate 30 (all_goals try first
    | with_reducible exact Keep.refl _ _
    | with_reducible assumption
    | (extract_lets +onlyGivenNames zz; refine Keep.cut zz ?_ (fun _ => ?_); (rotate_left; (try clear_value zz); rotate_right; subst zz))
    | (extract_lets +onlyGivenNames zz; subst zz)
    | with_reducible refine (removalFinish_keep ..).after ?_ (by decide)
    | with_reducible refine (sendRecall_keep ..).after ?_ (by decide)
    | with_reducible refine (setF_keep ..).after ?_ (by decide)
    | with_reducible refine Keep.foldl (fun _ _ => ?_) ?_ _
    | with_reducible refine Keep.foldlFst (fun _ _ => ?_) ?_ _
    | with_reducible refine Keep.foldlSnd (fun _ _ => ?_) ?_ _
    | with_reducible refine Keep.ite (fun _ => ?_) (fun _ => ?_)
    | split
    | with_reducible refine (Keep.of_cwp _ _).after ?_ (by decide))

theorem accessMet_keep (k u units : Nat) (write : Bool) (s : State) : Keep 67108864 s (accessMet k u units write s) := by
  unfold accessMet
  iterate 30 (all_goals try first
    | with_reducible exact Keep.refl _ _
    | with_reducible assumption
    | (extract_lets +onlyGivenNames zz; refine Keep.cut zz ?_ (fun _ => ?_); (rotate_left; (try clear_value zz); rotate_right; subst zz))
    | (extract_lets +onlyGivenNames zz; subst zz)
    | with_reducible refine Keep.ite (fun _ => ?_) (fun _ => ?_)
    | split
    | with_reducible refine (Keep.of_tmg _ _).after ?_ (by decide))

theorem directFetch_keep {n k a len : Nat} {s : State} {t0 : State} {x1 : (Status ⊕ List Byte)} (h : directFetch n k a len s = (t0, x1)) : Keep 67177998 s t0 := by
  unfold directFetch at h
  try dsimp only at h
  repeat' (first | split at h)
  all_goals try (exact absurd h (by simp only [reduceCtorEq, not_false_eq_true]))
  all_goals try (with_reducible obtain ⟨rfl, rfl⟩ := Prod.mk.inj h)
  iterate 30 (all_goals try first
    | with_reducible exact Keep.refl _ _
    | with_reducible assumption
    | (extract_lets +onlyGivenNames zz; refine Keep.cut zz ?_ (fun _ => ?_); (rotate_left; (try clear_value zz); rotate_right; subst zz))
    | (extract_lets +onlyGivenNames zz; subst zz)
    | with_reducible refine (accessMet_keep ..).after ?_ (by decide)
    | with_reducible refine (tagFailures_keep ..).after ?_ (by decide)
    | with_reducible refine (poisonRead_keep ..).after ?_ (by decide)
    | with_reducible refine (countUnits_keep ..).after ?_ (by decide)
    | with_reducible refine (tierAnswers_keep ..).after ?_ (by decide)
    | with_reducible refine Keep.foldl (fun _ _ => ?_) ?_ _
    | with_reducible refine Keep.foldlFst (fun _ _ => ?_) ?_ _
    | with_reducible refine Keep.foldlSnd (fun _ _ => ?_) ?_ _
    | with_reducible refine Keep.pairIte (by assumption) (fun _ => ?_)
    | with_reducible refine Keep.pairIteElse (by assumption) (fun _ => ?_)
    | with_reducible refine Keep.ite (fun _ => ?_) (fun _ => ?_)
    | split)
theorem directFetch_keepP (n k a len : Nat) (s : State) : Keep 67177998 s (directFetch n k a len s).1 := directFetch_keep (n := n) (k := k) (a := a) (len := len) (s := s) rfl

theorem directStore_keep (n k a : Nat) (b : List Byte) (s : State) : Keep 68068 s (directStore n k a b s) := by
  unfold directStore
  iterate 30 (all_goals try first
    | with_reducible exact Keep.refl _ _
    | with_reducible assumption
    | (extract_lets +onlyGivenNames zz; refine Keep.cut zz ?_ (fun _ => ?_); (rotate_left; (try clear_value zz); rotate_right; subst zz))
    | (extract_lets +onlyGivenNames zz; subst zz)
    | with_reducible refine (countUnits_keep ..).after ?_ (by decide)
    | with_reducible refine (directWrite_keep ..).after ?_ (by decide)
    | with_reducible refine Keep.ite (fun _ => ?_) (fun _ => ?_)
    | split
    | with_reducible refine (Keep.of_sec _ _ (by rfl)).after ?_ (by decide))

theorem directPut_keep {n k a : Nat} {b : List Byte} {s : State} {t0 : State} {x1 : Option Status} (h : directPut n k a b s = (t0, x1)) : Keep 67177972 s t0 := by
  unfold directPut at h
  try dsimp only at h
  repeat' (first | split at h)
  all_goals try (exact absurd h (by simp only [reduceCtorEq, not_false_eq_true]))
  all_goals try (with_reducible obtain ⟨rfl, rfl⟩ := Prod.mk.inj h)
  iterate 30 (all_goals try first
    | with_reducible exact Keep.refl _ _
    | with_reducible assumption
    | (extract_lets +onlyGivenNames zz; refine Keep.cut zz ?_ (fun _ => ?_); (rotate_left; (try clear_value zz); rotate_right; subst zz))
    | (extract_lets +onlyGivenNames zz; subst zz)
    | with_reducible refine (directStore_keep ..).after ?_ (by decide)
    | with_reducible refine (accessMet_keep ..).after ?_ (by decide)
    | with_reducible refine (tierAnswers_keep ..).after ?_ (by decide)
    | with_reducible refine (freshBytes_keep (by assumption)).after ?_ (by decide)
    | with_reducible refine (freshBytes_keepP ..).after ?_ (by decide)
    | with_reducible refine (setTier_keep _ _ _ (fun h => memWrite_wf _ _ h)).after ?_ (by decide)
    | with_reducible refine Keep.foldl (fun _ _ => ?_) ?_ _
    | with_reducible refine Keep.foldlFst (fun _ _ => ?_) ?_ _
    | with_reducible refine Keep.foldlSnd (fun _ _ => ?_) ?_ _
    | with_reducible refine Keep.pairIte (by assumption) (fun _ => ?_)
    | with_reducible refine Keep.pairIteElse (by assumption) (fun _ => ?_)
    | with_reducible refine Keep.ite (fun _ => ?_) (fun _ => ?_)
    | split)
theorem directPut_keepP (n k a : Nat) (b : List Byte) (s : State) : Keep 67177972 s (directPut n k a b s).1 := directPut_keep (n := n) (k := k) (a := a) (b := b) (s := s) rfl

theorem tierRead_keepD {c : Cmd} {s : State} {t0 : State} {r0 : Reply} (h : tierRead c s = .done t0 r0) : Keep 67177998 s t0 := by
  unfold tierRead at h
  try dsimp only at h
  repeat' (first | (with_reducible rw [need_done] at h; replace h := h.2) | split at h)
  all_goals try (exact absurd h (by simp only [Res.fail, reduceCtorEq, not_false_eq_true]))
  all_goals try (with_reducible obtain ⟨rfl, rfl⟩ := Res.done.inj h)
  iterate 30 (all_goals try first
    | with_reducible exact Keep.refl _ _
    | with_reducible assumption
    | (extract_lets +onlyGivenNames zz; refine Keep.cut zz ?_ (fun _ => ?_); (rotate_left; (try clear_value zz); rotate_right; subst zz))
    | (extract_lets +onlyGivenNames zz; subst zz)
    | with_reducible refine (directFetch_keep (by assumption)).after ?_ (by decide)
    | with_reducible refine (directFetch_keepP ..).after ?_ (by decide)
    | with_reducible refine (beginAccess_keep (by assumption)).after ?_ (by decide)
    | with_reducible refine Keep.ite (fun _ => ?_) (fun _ => ?_)
    | split)
theorem tierRead_keepW {c : Cmd} {s : State} {t0 : State} (h : tierRead c s = .wait t0) : Keep 67177998 s t0 := by
  unfold tierRead at h
  try dsimp only at h
  repeat' (first | (with_reducible rw [need_wait] at h; replace h := h.2) | split at h)
  all_goals try (exact absurd h (by simp only [Res.fail, reduceCtorEq, not_false_eq_true]))
  all_goals try (with_reducible obtain rfl := Res.wait.inj h)
  iterate 30 (all_goals try first
    | with_reducible exact Keep.refl _ _
    | with_reducible assumption
    | (extract_lets +onlyGivenNames zz; refine Keep.cut zz ?_ (fun _ => ?_); (rotate_left; (try clear_value zz); rotate_right; subst zz))
    | (extract_lets +onlyGivenNames zz; subst zz)
    | with_reducible refine (directFetch_keep (by assumption)).after ?_ (by decide)
    | with_reducible refine (directFetch_keepP ..).after ?_ (by decide)
    | with_reducible refine (beginAccess_keep (by assumption)).after ?_ (by decide)
    | with_reducible refine Keep.ite (fun _ => ?_) (fun _ => ?_)
    | split)

theorem tierWrite_keepD {c : Cmd} {s : State} {t0 : State} {r0 : Reply} (h : tierWrite c s = .done t0 r0) : Keep 67177980 s t0 := by
  unfold tierWrite at h
  try dsimp only at h
  repeat' (first | (with_reducible rw [need_done] at h; replace h := h.2) | split at h)
  all_goals try (exact absurd h (by simp only [Res.fail, reduceCtorEq, not_false_eq_true]))
  all_goals try (with_reducible obtain ⟨rfl, rfl⟩ := Res.done.inj h)
  iterate 30 (all_goals try first
    | with_reducible exact Keep.refl _ _
    | with_reducible assumption
    | (extract_lets +onlyGivenNames zz; refine Keep.cut zz ?_ (fun _ => ?_); (rotate_left; (try clear_value zz); rotate_right; subst zz))
    | (extract_lets +onlyGivenNames zz; subst zz)
    | with_reducible refine (directPut_keep (by assumption)).after ?_ (by decide)
    | with_reducible refine (directPut_keepP ..).after ?_ (by decide)
    | with_reducible refine (beginAccess_keep (by assumption)).after ?_ (by decide)
    | with_reducible refine Keep.ite (fun _ => ?_) (fun _ => ?_)
    | split)
theorem tierWrite_keepW {c : Cmd} {s : State} {t0 : State} (h : tierWrite c s = .wait t0) : Keep 67177980 s t0 := by
  unfold tierWrite at h
  try dsimp only at h
  repeat' (first | (with_reducible rw [need_wait] at h; replace h := h.2) | split at h)
  all_goals try (exact absurd h (by simp only [Res.fail, reduceCtorEq, not_false_eq_true]))
  all_goals try (with_reducible obtain rfl := Res.wait.inj h)
  iterate 30 (all_goals try first
    | with_reducible exact Keep.refl _ _
    | with_reducible assumption
    | (extract_lets +onlyGivenNames zz; refine Keep.cut zz ?_ (fun _ => ?_); (rotate_left; (try clear_value zz); rotate_right; subst zz))
    | (extract_lets +onlyGivenNames zz; subst zz)
    | with_reducible refine (directPut_keep (by assumption)).after ?_ (by decide)
    | with_reducible refine (directPut_keepP ..).after ?_ (by decide)
    | with_reducible refine (beginAccess_keep (by assumption)).after ?_ (by decide)
    | with_reducible refine Keep.ite (fun _ => ?_) (fun _ => ?_)
    | split)

theorem tierCopy_keepD {c : Cmd} {s : State} {t0 : State} {r0 : Reply} (h : tierCopy c s = .done t0 r0) : Keep 67178494 s t0 := by
  unfold tierCopy at h
  try dsimp only at h
  repeat' (first | (with_reducible rw [need_done] at h; replace h := h.2) | split at h)
  all_goals try (exact absurd h (by simp only [Res.fail, reduceCtorEq, not_false_eq_true]))
  all_goals try (with_reducible obtain ⟨rfl, rfl⟩ := Res.done.inj h)
  iterate 30 (all_goals try first
    | with_reducible exact Keep.refl _ _
    | with_reducible assumption
    | (extract_lets +onlyGivenNames zz; refine Keep.cut zz ?_ (fun _ => ?_); (rotate_left; (try clear_value zz); rotate_right; subst zz))
    | (extract_lets +onlyGivenNames zz; subst zz)
    | with_reducible refine (directPut_keep (by assumption)).after ?_ (by decide)
    | with_reducible refine (directPut_keepP ..).after ?_ (by decide)
    | with_reducible refine (directFetch_keep (by assumption)).after ?_ (by decide)
    | with_reducible refine (directFetch_keepP ..).after ?_ (by decide)
    | with_reducible refine (beginAccess_keep (by assumption)).after ?_ (by decide)
    | with_reducible refine Keep.ite (fun _ => ?_) (fun _ => ?_)
    | split)
theorem tierCopy_keepW {c : Cmd} {s : State} {t0 : State} (h : tierCopy c s = .wait t0) : Keep 67178494 s t0 := by
  unfold tierCopy at h
  try dsimp only at h
  repeat' (first | (with_reducible rw [need_wait] at h; replace h := h.2) | split at h)
  all_goals try (exact absurd h (by simp only [Res.fail, reduceCtorEq, not_false_eq_true]))
  all_goals try (with_reducible obtain rfl := Res.wait.inj h)
  iterate 30 (all_goals try first
    | with_reducible exact Keep.refl _ _
    | with_reducible assumption
    | (extract_lets +onlyGivenNames zz; refine Keep.cut zz ?_ (fun _ => ?_); (rotate_left; (try clear_value zz); rotate_right; subst zz))
    | (extract_lets +onlyGivenNames zz; subst zz)
    | with_reducible refine (directPut_keep (by assumption)).after ?_ (by decide)
    | with_reducible refine (directPut_keepP ..).after ?_ (by decide)
    | with_reducible refine (directFetch_keep (by assumption)).after ?_ (by decide)
    | with_reducible refine (directFetch_keepP ..).after ?_ (by decide)
    | with_reducible refine (beginAccess_keep (by assumption)).after ?_ (by decide)
    | with_reducible refine Keep.ite (fun _ => ?_) (fun _ => ?_)
    | split)

theorem publishRecall_keep (own line : Nat) (s : State) : Keep 65548 s (publishRecall own line s) := by
  unfold publishRecall
  iterate 30 (all_goals try first
    | with_reducible exact Keep.refl _ _
    | with_reducible assumption
    | with_reducible refine (sendRecall_keep ..).after ?_ (by decide)
    | with_reducible refine Keep.foldl (fun _ _ => ?_) ?_ _
    | with_reducible refine Keep.foldlFst (fun _ _ => ?_) ?_ _
    | with_reducible refine Keep.foldlSnd (fun _ _ => ?_) ?_ _
    | with_reducible refine Keep.ite (fun _ => ?_) (fun _ => ?_)
    | split)

theorem publishEnd_keepD {c : Cmd} {devs : List Nat} {s : State} {t0 : State} {r0 : Reply} (h : publishEnd c devs s = .done t0 r0) : Keep 4 s t0 := by
  unfold publishEnd at h
  try dsimp only at h
  repeat' (first | split at h)
  all_goals try (exact absurd h (by simp only [Res.fail, reduceCtorEq, not_false_eq_true]))
  all_goals try (with_reducible obtain ⟨rfl, rfl⟩ := Res.done.inj h)
  iterate 30 (all_goals try first
    | with_reducible exact Keep.refl _ _
    | with_reducible assumption
    | with_reducible refine (bump_keep ..).after ?_ (by decide)
    | with_reducible refine Keep.ite (fun _ => ?_) (fun _ => ?_)
    | split)
theorem publishEnd_keepW {c : Cmd} {devs : List Nat} {s : State} {t0 : State} (h : publishEnd c devs s = .wait t0) : Keep 4 s t0 := by
  unfold publishEnd at h
  try dsimp only at h
  repeat' (first | split at h)
  all_goals try (exact absurd h (by simp only [Res.fail, reduceCtorEq, not_false_eq_true]))
  all_goals try (with_reducible obtain rfl := Res.wait.inj h)
  iterate 30 (all_goals try first
    | with_reducible exact Keep.refl _ _
    | with_reducible assumption
    | with_reducible refine (bump_keep ..).after ?_ (by decide)
    | with_reducible refine Keep.ite (fun _ => ?_) (fun _ => ?_)
    | split)

theorem publishRest_keepD {c : Cmd} {own : Nat} {lines devs : List Nat} {s : State} {t0 : State} {r0 : Reply} (h : publishRest c own lines devs s = .done t0 r0) : Keep 65548 s t0 := by
  unfold publishRest at h
  try dsimp only at h
  repeat' (first | (with_reducible refine (publishEnd_keepD h).after ?_ (by decide); clear h) | split at h)
  all_goals try (exact absurd h (by simp only [Res.fail, reduceCtorEq, not_false_eq_true]))
  all_goals try (with_reducible obtain ⟨rfl, rfl⟩ := Res.done.inj h)
  iterate 30 (all_goals try first
    | with_reducible exact Keep.refl _ _
    | with_reducible assumption
    | with_reducible refine (publishEnd_keepD (by assumption)).after ?_ (by decide)
    | with_reducible refine (publishEnd_keepW (by assumption)).after ?_ (by decide)
    | with_reducible refine (publishRecall_keep ..).after ?_ (by decide)
    | with_reducible refine (enqueueWait_keep ..).after ?_ (by decide)
    | with_reducible refine Keep.foldl (fun _ _ => ?_) ?_ _
    | with_reducible refine Keep.foldlFst (fun _ _ => ?_) ?_ _
    | with_reducible refine Keep.foldlSnd (fun _ _ => ?_) ?_ _
    | with_reducible refine Keep.ite (fun _ => ?_) (fun _ => ?_)
    | split)
theorem publishRest_keepW {c : Cmd} {own : Nat} {lines devs : List Nat} {s : State} {t0 : State} (h : publishRest c own lines devs s = .wait t0) : Keep 65548 s t0 := by
  unfold publishRest at h
  try dsimp only at h
  repeat' (first | (with_reducible refine (publishEnd_keepW h).after ?_ (by decide); clear h) | split at h)
  all_goals try (exact absurd h (by simp only [Res.fail, reduceCtorEq, not_false_eq_true]))
  all_goals try (with_reducible obtain rfl := Res.wait.inj h)
  iterate 30 (all_goals try first
    | with_reducible exact Keep.refl _ _
    | with_reducible assumption
    | with_reducible refine (publishEnd_keepD (by assumption)).after ?_ (by decide)
    | with_reducible refine (publishEnd_keepW (by assumption)).after ?_ (by decide)
    | with_reducible refine (publishRecall_keep ..).after ?_ (by decide)
    | with_reducible refine (enqueueWait_keep ..).after ?_ (by decide)
    | with_reducible refine Keep.foldl (fun _ _ => ?_) ?_ _
    | with_reducible refine Keep.foldlFst (fun _ _ => ?_) ?_ _
    | with_reducible refine Keep.foldlSnd (fun _ _ => ?_) ?_ _
    | with_reducible refine Keep.ite (fun _ => ?_) (fun _ => ?_)
    | split)

theorem publishGo_keepD {c : Cmd} {e own : Nat} {lines : List Nat} {s : State} {t0 : State} {r0 : Reply} (h : publishGo c e own lines s = .done t0 r0) : Keep 69198 s t0 := by
  unfold publishGo at h
  try dsimp only at h
  repeat' (first | (with_reducible refine (publishRest_keepD h).after ?_ (by decide); clear h) | split at h)
  all_goals try (exact absurd h (by simp only [Res.fail, reduceCtorEq, not_false_eq_true]))
  all_goals try (with_reducible obtain ⟨rfl, rfl⟩ := Res.done.inj h)
  iterate 30 (all_goals try first
    | with_reducible exact Keep.refl _ _
    | with_reducible assumption
    | (extract_lets +onlyGivenNames zz; refine Keep.cut zz ?_ (fun _ => ?_); (rotate_left; (try clear_value zz); rotate_right; subst zz))
    | (extract_lets +onlyGivenNames zz; subst zz)
    | with_reducible refine (publishRest_keepD (by assumption)).after ?_ (by decide)
    | with_reducible refine (publishRest_keepW (by assumption)).after ?_ (by decide)
    | with_reducible refine (enqueueWait_keep ..).after ?_ (by decide)
    | with_reducible refine (recallAll_keep ..).after ?_ (by decide)
    | with_reducible refine (poisonRead_keep ..).after ?_ (by decide)
    | with_reducible refine (t1Write_keep ..).after ?_ (by decide)
    | with_reducible refine (bump_keep ..).after ?_ (by decide)
    | with_reducible refine Keep.ite (fun _ => ?_) (fun _ => ?_)
    | split)
theorem publishGo_keepW {c : Cmd} {e own : Nat} {lines : List Nat} {s : State} {t0 : State} (h : publishGo c e own lines s = .wait t0) : Keep 69198 s t0 := by
  unfold publishGo at h
  try dsimp only at h
  repeat' (first | (with_reducible refine (publishRest_keepW h).after ?_ (by decide); clear h) | split at h)
  all_goals try (exact absurd h (by simp only [Res.fail, reduceCtorEq, not_false_eq_true]))
  all_goals try (with_reducible obtain rfl := Res.wait.inj h)
  iterate 30 (all_goals try first
    | with_reducible exact Keep.refl _ _
    | with_reducible assumption
    | (extract_lets +onlyGivenNames zz; refine Keep.cut zz ?_ (fun _ => ?_); (rotate_left; (try clear_value zz); rotate_right; subst zz))
    | (extract_lets +onlyGivenNames zz; subst zz)
    | with_reducible refine (publishRest_keepD (by assumption)).after ?_ (by decide)
    | with_reducible refine (publishRest_keepW (by assumption)).after ?_ (by decide)
    | with_reducible refine (enqueueWait_keep ..).after ?_ (by decide)
    | with_reducible refine (recallAll_keep ..).after ?_ (by decide)
    | with_reducible refine (poisonRead_keep ..).after ?_ (by decide)
    | with_reducible refine (t1Write_keep ..).after ?_ (by decide)
    | with_reducible refine (bump_keep ..).after ?_ (by decide)
    | with_reducible refine Keep.ite (fun _ => ?_) (fun _ => ?_)
    | split)

theorem windowPublish_keepD {stage : Nat} {c : Cmd} {s : State} {t0 : State} {r0 : Reply} (h : windowPublish stage c s = .done t0 r0) : Keep 69198 s t0 := by
  unfold windowPublish at h
  try dsimp only at h
  repeat' (first | (with_reducible refine (publishGo_keepD h).after ?_ (by decide); clear h) | (with_reducible refine (publishRest_keepD h).after ?_ (by decide); clear h) | (with_reducible rw [need_done] at h; replace h := h.2) | split at h)
  all_goals try (exact absurd h (by simp only [Res.fail, reduceCtorEq, not_false_eq_true]))
  all_goals try (with_reducible obtain ⟨rfl, rfl⟩ := Res.done.inj h)
  iterate 30 (all_goals try first
    | with_reducible exact Keep.refl _ _
    | with_reducible assumption
    | (extract_lets +onlyGivenNames zz; refine Keep.cut zz ?_ (fun _ => ?_); (rotate_left; (try clear_value zz); rotate_right; subst zz))
    | (extract_lets +onlyGivenNames zz; subst zz)
    | with_reducible refine (publishGo_keepD (by assumption)).after ?_ (by decide)
    | with_reducible refine (publishGo_keepW (by assumption)).after ?_ (by decide)
    | with_reducible refine (publishRest_keepD (by assumption)).after ?_ (by decide)
    | with_reducible refine (publishRest_keepW (by assumption)).after ?_ (by decide)
    | with_reducible refine (enqueueWait_keep ..).after ?_ (by decide)
    | with_reducible refine Keep.ite (fun _ => ?_) (fun _ => ?_)
    | split)
theorem windowPublish_keepW {stage : Nat} {c : Cmd} {s : State} {t0 : State} (h : windowPublish stage c s = .wait t0) : Keep 69198 s t0 := by
  unfold windowPublish at h
  try dsimp only at h
  repeat' (first | (with_reducible refine (publishGo_keepW h).after ?_ (by decide); clear h) | (with_reducible refine (publishRest_keepW h).after ?_ (by decide); clear h) | (with_reducible rw [need_wait] at h; replace h := h.2) | split at h)
  all_goals try (exact absurd h (by simp only [Res.fail, reduceCtorEq, not_false_eq_true]))
  all_goals try (with_reducible obtain rfl := Res.wait.inj h)
  iterate 30 (all_goals try first
    | with_reducible exact Keep.refl _ _
    | with_reducible assumption
    | (extract_lets +onlyGivenNames zz; refine Keep.cut zz ?_ (fun _ => ?_); (rotate_left; (try clear_value zz); rotate_right; subst zz))
    | (extract_lets +onlyGivenNames zz; subst zz)
    | with_reducible refine (publishGo_keepD (by assumption)).after ?_ (by decide)
    | with_reducible refine (publishGo_keepW (by assumption)).after ?_ (by decide)
    | with_reducible refine (publishRest_keepD (by assumption)).after ?_ (by decide)
    | with_reducible refine (publishRest_keepW (by assumption)).after ?_ (by decide)
    | with_reducible refine (enqueueWait_keep ..).after ?_ (by decide)
    | with_reducible refine Keep.ite (fun _ => ?_) (fun _ => ?_)
    | split)

end Sys2Proof.Machine
end

