-- ==== Sys2Proof/Laws/KeepSluice.lean ====
section
/-!
SUPPORT. Laws/KeepSluice.lean: what each operation of Machine/Sluice.lean can change (Laws/Keep.lean).
-/
set_option Elab.async false
set_option linter.all false
namespace Sys2Proof.Machine

open Sys2Proof

theorem setSlu_keep (s : State) (i : Nat) (v : SluInst) : Keep 1073741824 s (State.setSlu s i v) := by
  unfold State.setSlu
  iterate 30 (all_goals try first
    | with_reducible exact Keep.refl _ _
    | with_reducible assumption
    | with_reducible refine Keep.ite (fun _ => ?_) (fun _ => ?_)
    | split
    | with_reducible refine (Keep.of_slu _ _).after ?_ (by decide))

theorem sluPop_keep (i r : Nat) (s : State) : Keep 1610612736 s (sluPop i r s) := by
  unfold sluPop
  iterate 30 (all_goals try first
    | with_reducible exact Keep.refl _ _
    | with_reducible assumption
    | (extract_lets +onlyGivenNames zz; refine Keep.cut zz ?_ (fun _ => ?_); (rotate_left; (try clear_value zz); rotate_right; subst zz))
    | (extract_lets +onlyGivenNames zz; subst zz)
    | with_reducible refine (setSlu_keep ..).after ?_ (by decide)
    | with_reducible refine Keep.ite (fun _ => ?_) (fun _ => ?_)
    | split
    | with_reducible refine (Keep.of_xfe _ _).after ?_ (by decide))

theorem sluPush_keep (i r : Nat) (q : SluReq) (s : State) : Keep 1610612736 s (sluPush i r q s) := by
  unfold sluPush
  iterate 30 (all_goals try first
    | with_reducible exact Keep.refl _ _
    | with_reducible assumption
    | (extract_lets +onlyGivenNames zz; refine Keep.cut zz ?_ (fun _ => ?_); (rotate_left; (try clear_value zz); rotate_right; subst zz))
    | (extract_lets +onlyGivenNames zz; subst zz)
    | with_reducible refine (setSlu_keep ..).after ?_ (by decide)
    | with_reducible refine Keep.ite (fun _ => ?_) (fun _ => ?_)
    | split
    | with_reducible refine (Keep.of_xfe _ _).after ?_ (by decide))

theorem sluQueue_keep (i r : Nat) (l : List SluReq) (s : State) : Keep 1073741824 s (sluQueue i r l s) := by
  unfold sluQueue
  iterate 30 (all_goals try first
    | with_reducible exact Keep.refl _ _
    | with_reducible assumption
    | (extract_lets +onlyGivenNames zz; refine Keep.cut zz ?_ (fun _ => ?_); (rotate_left; (try clear_value zz); rotate_right; subst zz))
    | (extract_lets +onlyGivenNames zz; subst zz)
    | with_reducible refine (setSlu_keep ..).after ?_ (by decide)
    | with_reducible refine Keep.ite (fun _ => ?_) (fun _ => ?_)
    | split)

theorem sluArrive_keep (i : Nat) (arrivals : List Arrival) (s : State) : Keep 1073741824 s (sluArrive i arrivals s) := by
  unfold sluArrive
  iterate 30 (all_goals try first
    | with_reducible exact Keep.refl _ _
    | with_reducible assumption
    | with_reducible refine (sluQueue_keep ..).after ?_ (by decide)
    | with_reducible refine Keep.foldl (fun _ _ => ?_) ?_ _
    | with_reducible refine Keep.foldlFst (fun _ _ => ?_) ?_ _
    | with_reducible refine Keep.foldlSnd (fun _ _ => ?_) ?_ _
    | with_reducible refine Keep.ite (fun _ => ?_) (fun _ => ?_)
    | split)

theorem sluPurge_keep (i : Nat) (s : State) : Keep 1073741824 s (sluPurge i s) := by
  unfold sluPurge
  iterate 30 (all_goals try first
    | with_reducible exact Keep.refl _ _
    | with_reducible assumption
    | (extract_lets +onlyGivenNames zz; refine Keep.cut zz ?_ (fun _ => ?_); (rotate_left; (try clear_value zz); rotate_right; subst zz))
    | (extract_lets +onlyGivenNames zz; subst zz)
    | with_reducible refine (setSlu_keep ..).after ?_ (by decide)
    | with_reducible refine Keep.ite (fun _ => ?_) (fun _ => ?_)
    | split)

theorem sluFinish_keep {k : Nat} (leave : Nat → EgressPkt → State → State) (i : Nat) (s : State) (hk : 1073741824 ||| k = k)
    (h : ∀ n p s, Keep k s (leave n p s)) : Keep k s (sluFinish leave i s) := by
  unfold sluFinish
  dsimp only
  split
  · exact Keep.refl _ _
  · split
    · exact (h _ _ _).after ((setSlu_keep ..).mono hk) (Nat.or_self k)
    · exact (setSlu_keep ..).mono hk

theorem sluDecide_keep (i : Nat) (s : State) : Keep 1610612740 s (sluDecide i s) := by
  unfold sluDecide
  iterate 30 (all_goals try first
    | with_reducible exact Keep.refl _ _
    | with_reducible assumption
    | (extract_lets +onlyGivenNames zz; refine Keep.cut zz ?_ (fun _ => ?_); (rotate_left; (try clear_value zz); rotate_right; subst zz))
    | (extract_lets +onlyGivenNames zz; subst zz)
    | with_reducible refine (sluPop_keep ..).after ?_ (by decide)
    | with_reducible refine (setSlu_keep ..).after ?_ (by decide)
    | with_reducible refine (bump_keep ..).after ?_ (by decide)
    | with_reducible refine Keep.foldl (fun _ _ => ?_) ?_ _
    | with_reducible refine Keep.foldlFst (fun _ _ => ?_) ?_ _
    | with_reducible refine Keep.foldlSnd (fun _ _ => ?_) ?_ _
    | with_reducible refine Keep.ite (fun _ => ?_) (fun _ => ?_)
    | split)

theorem sluAbort_keep (i : Nat) (s : State) : Keep 1610612736 s (sluAbort i s) := by
  unfold sluAbort
  iterate 30 (all_goals try first
    | with_reducible exact Keep.refl _ _
    | with_reducible assumption
    | (extract_lets +onlyGivenNames zz; refine Keep.cut zz ?_ (fun _ => ?_); (rotate_left; (try clear_value zz); rotate_right; subst zz))
    | (extract_lets +onlyGivenNames zz; subst zz)
    | with_reducible refine (sluPush_keep ..).after ?_ (by decide)
    | with_reducible refine (setSlu_keep ..).after ?_ (by decide)
    | with_reducible refine Keep.ite (fun _ => ?_) (fun _ => ?_)
    | split)

theorem sluPreempt_keep (i : Nat) (s : State) : Keep 1610612740 s (sluPreempt i s) := by
  unfold sluPreempt
  iterate 30 (all_goals try first
    | with_reducible exact Keep.refl _ _
    | with_reducible assumption
    | (extract_lets +onlyGivenNames zz; refine Keep.cut zz ?_ (fun _ => ?_); (rotate_left; (try clear_value zz); rotate_right; subst zz))
    | (extract_lets +onlyGivenNames zz; subst zz)
    | with_reducible refine (sluAbort_keep ..).after ?_ (by decide)
    | with_reducible refine (sluDecide_keep ..).after ?_ (by decide)
    | with_reducible refine (bump_keep ..).after ?_ (by decide)
    | with_reducible refine Keep.ite (fun _ => ?_) (fun _ => ?_)
    | split)

theorem sluShowQuar_keep (i : Nat) (s : State) : Keep 2 s (sluShowQuar i s) := by
  unfold sluShowQuar
  iterate 30 (all_goals try first
    | with_reducible exact Keep.refl _ _
    | with_reducible assumption
    | with_reducible refine (setF_keep ..).after ?_ (by decide)
    | with_reducible refine Keep.foldl (fun _ _ => ?_) ?_ _
    | with_reducible refine Keep.foldlFst (fun _ _ => ?_) ?_ _
    | with_reducible refine Keep.foldlSnd (fun _ _ => ?_) ?_ _
    | with_reducible refine Keep.ite (fun _ => ?_) (fun _ => ?_)
    | split)

theorem sluHog_keep (i addr : Nat) (s : State) : Keep 1610616334 s (sluHog i addr s) := by
  unfold sluHog
  iterate 30 (all_goals try first
    | with_reducible exact Keep.refl _ _
    | with_reducible assumption
    | (extract_lets +onlyGivenNames zz; refine Keep.cut zz ?_ (fun _ => ?_); (rotate_left; (try clear_value zz); rotate_right; subst zz))
    | (extract_lets +onlyGivenNames zz; subst zz)
    | with_reducible refine (sluShowQuar_keep ..).after ?_ (by decide)
    | with_reducible refine (sluAbort_keep ..).after ?_ (by decide)
    | with_reducible refine (setSlu_keep ..).after ?_ (by decide)
    | with_reducible refine (logFull_keep ..).after ?_ (by decide)
    | with_reducible refine (bump_keep ..).after ?_ (by decide)
    | with_reducible refine (setF_keep ..).after ?_ (by decide)
    | with_reducible refine Keep.ite (fun _ => ?_) (fun _ => ?_)
    | split)

theorem sluWindow_keep (i : Nat) (s : State) : Keep 1073741826 s (sluWindow i s) := by
  unfold sluWindow
  iterate 30 (all_goals try first
    | with_reducible exact Keep.refl _ _
    | with_reducible assumption
    | (extract_lets +onlyGivenNames zz; refine Keep.cut zz ?_ (fun _ => ?_); (rotate_left; (try clear_value zz); rotate_right; subst zz))
    | (extract_lets +onlyGivenNames zz; subst zz)
    | with_reducible refine (sluShowQuar_keep ..).after ?_ (by decide)
    | with_reducible refine (setSlu_keep ..).after ?_ (by decide)
    | with_reducible refine Keep.foldl (fun _ _ => ?_) ?_ _
    | with_reducible refine Keep.foldlFst (fun _ _ => ?_) ?_ _
    | with_reducible refine Keep.foldlSnd (fun _ _ => ?_) ?_ _
    | with_reducible refine Keep.ite (fun _ => ?_) (fun _ => ?_)
    | split)

end Sys2Proof.Machine
end

