-- ==== Sys2Proof/Laws/KeepFabric.lean ====
section
/-!
SUPPORT. Laws/KeepFabric.lean: what each operation of Machine/Fabric.lean can change (Laws/Keep.lean).
-/
set_option Elab.async false
set_option linter.all false
namespace Sys2Proof.Machine

open Sys2Proof

theorem directWrite0_keep (s : State) (n a : Nat) (b : List Byte) : Keep 65568 s (s.directWrite n 0 a b) := by
  unfold State.directWrite State.writeAt
  dsimp only
  with_reducible refine (Keep.of_cwp _ _).after ?_ (by decide)
  exact (Keep.of_mem0 s _ fun h => memFold_wf _ _ _ _ h).mono (by decide)

theorem setXfe_keep (s : State) (x : Xfe) : Keep 536870912 s (State.setXfe s x) := by
  unfold State.setXfe
  iterate 30 (all_goals try first
    | with_reducible exact Keep.refl _ _
    | with_reducible assumption
    | with_reducible refine Keep.ite (fun _ => ?_) (fun _ => ?_)
    | split
    | with_reducible refine (Keep.of_xfe _ _).after ?_ (by decide))

theorem putConn_keep (id : Nat) (c : Conn) (s : State) : Keep 536870912 s (putConn id c s) := by
  unfold putConn
  iterate 30 (all_goals try first
    | with_reducible exact Keep.refl _ _
    | with_reducible assumption
    | (extract_lets +onlyGivenNames zz; refine Keep.cut zz ?_ (fun _ => ?_); (rotate_left; (try clear_value zz); rotate_right; subst zz))
    | (extract_lets +onlyGivenNames zz; subst zz)
    | with_reducible refine Keep.ite (fun _ => ?_) (fun _ => ?_)
    | split
    | with_reducible refine (Keep.of_xfe _ _).after ?_ (by decide))

theorem touchConn_keep (id : Nat) (s : State) : Keep 536870912 s (touchConn id s) := by
  unfold touchConn
  iterate 30 (all_goals try first
    | with_reducible exact Keep.refl _ _
    | with_reducible assumption
    | (extract_lets +onlyGivenNames zz; refine Keep.cut zz ?_ (fun _ => ?_); (rotate_left; (try clear_value zz); rotate_right; subst zz))
    | (extract_lets +onlyGivenNames zz; subst zz)
    | with_reducible refine Keep.ite (fun _ => ?_) (fun _ => ?_)
    | split
    | with_reducible refine (Keep.of_xfe _ _).after ?_ (by decide))

theorem takeCredit_keep (port cls : Nat) (s : State) : Keep 536870912 s (takeCredit port cls s) := by
  unfold takeCredit
  iterate 30 (all_goals try first
    | with_reducible exact Keep.refl _ _
    | with_reducible assumption
    | (extract_lets +onlyGivenNames zz; refine Keep.cut zz ?_ (fun _ => ?_); (rotate_left; (try clear_value zz); rotate_right; subst zz))
    | (extract_lets +onlyGivenNames zz; subst zz)
    | with_reducible refine Keep.ite (fun _ => ?_) (fun _ => ?_)
    | split
    | with_reducible refine (Keep.of_xfe _ _).after ?_ (by decide))

theorem grantCredits_keep (port : Nat) (given : List Nat) (s : State) : Keep 536870912 s (grantCredits port given s) := by
  unfold grantCredits
  iterate 30 (all_goals try first
    | with_reducible exact Keep.refl _ _
    | with_reducible assumption
    | (extract_lets +onlyGivenNames zz; refine Keep.cut zz ?_ (fun _ => ?_); (rotate_left; (try clear_value zz); rotate_right; subst zz))
    | (extract_lets +onlyGivenNames zz; subst zz)
    | with_reducible refine Keep.foldl (fun _ _ => ?_) ?_ _
    | with_reducible refine Keep.foldlFst (fun _ _ => ?_) ?_ _
    | with_reducible refine Keep.foldlSnd (fun _ _ => ?_) ?_ _
    | with_reducible refine Keep.ite (fun _ => ?_) (fun _ => ?_)
    | split
    | with_reducible refine (Keep.of_xfe _ _).after ?_ (by decide))

theorem notePort_keep (k : CtlPkt) (s : State) : Keep 536870912 s (notePort k s) := by
  unfold notePort
  iterate 30 (all_goals try first
    | with_reducible exact Keep.refl _ _
    | with_reducible assumption
    | (extract_lets +onlyGivenNames zz; refine Keep.cut zz ?_ (fun _ => ?_); (rotate_left; (try clear_value zz); rotate_right; subst zz))
    | (extract_lets +onlyGivenNames zz; subst zz)
    | with_reducible refine (putConn_keep ..).after ?_ (by decide)
    | with_reducible refine Keep.getD (fun _ _ => ?_) ?_
    | with_reducible refine Keep.ite (fun _ => ?_) (fun _ => ?_)
    | split)

theorem numberCtl_keep {k : CtlPkt} {s : State} {x0 : CtlPkt} {t0 : State} (h : numberCtl k s = (x0, t0)) : Keep 536870912 s t0 := by
  unfold numberCtl at h
  try dsimp only at h
  repeat' (first | split at h)
  all_goals try (exact absurd h (by simp only [reduceCtorEq, not_false_eq_true]))
  all_goals try (with_reducible obtain ⟨rfl, rfl⟩ := Prod.mk.inj h)
  iterate 30 (all_goals try first
    | with_reducible exact Keep.refl _ _
    | with_reducible assumption
    | (extract_lets +onlyGivenNames zz; refine Keep.cut zz ?_ (fun _ => ?_); (rotate_left; (try clear_value zz); rotate_right; subst zz))
    | (extract_lets +onlyGivenNames zz; subst zz)
    | with_reducible refine (notePort_keep ..).after ?_ (by decide)
    | with_reducible refine (putConn_keep ..).after ?_ (by decide)
    | with_reducible refine Keep.pairIte (by assumption) (fun _ => ?_)
    | with_reducible refine Keep.pairIteElse (by assumption) (fun _ => ?_)
    | with_reducible refine Keep.ite (fun _ => ?_) (fun _ => ?_)
    | split)
theorem numberCtl_keepP (k : CtlPkt) (s : State) : Keep 536870912 s (numberCtl k s).2 := numberCtl_keep (k := k) (s := s) rfl

theorem pushCtl_keep (port : Nat) (k : CtlPkt) (s : State) : Keep 536870912 s (pushCtl port k s) := by
  unfold pushCtl
  iterate 30 (all_goals try first
    | with_reducible exact Keep.refl _ _
    | with_reducible assumption
    | (extract_lets +onlyGivenNames zz; refine Keep.cut zz ?_ (fun _ => ?_); (rotate_left; (try clear_value zz); rotate_right; subst zz))
    | (extract_lets +onlyGivenNames zz; subst zz)
    | with_reducible refine Keep.ite (fun _ => ?_) (fun _ => ?_)
    | split
    | with_reducible refine (Keep.of_xfe _ _).after ?_ (by decide))

theorem leaveCtl_keep (port : Nat) (k : CtlPkt) (s : State) : Keep 536870924 s (leaveCtl port k s) := by
  unfold leaveCtl
  iterate 30 (all_goals try first
    | with_reducible exact Keep.refl _ _
    | with_reducible assumption
    | with_reducible refine (pushCtl_keep ..).after ?_ (by decide)
    | with_reducible refine (numberCtl_keep (by assumption)).after ?_ (by decide)
    | with_reducible refine (numberCtl_keepP ..).after ?_ (by decide)
    | with_reducible refine (takeCredit_keep ..).after ?_ (by decide)
    | with_reducible refine (emit_keep ..).after ?_ (by decide)
    | with_reducible refine (bump_keep ..).after ?_ (by decide)
    | with_reducible refine Keep.ite (fun _ => ?_) (fun _ => ?_)
    | split)

theorem ctlNext_keep (port : Nat) (s : State) : Keep 536870924 s (ctlNext port s) := by
  unfold ctlNext
  iterate 30 (all_goals try first
    | with_reducible exact Keep.refl _ _
    | with_reducible assumption
    | (extract_lets +onlyGivenNames zz; refine Keep.cut zz ?_ (fun _ => ?_); (rotate_left; (try clear_value zz); rotate_right; subst zz))
    | (extract_lets +onlyGivenNames zz; subst zz)
    | with_reducible refine (leaveCtl_keep ..).after ?_ (by decide)
    | with_reducible refine Keep.ite (fun _ => ?_) (fun _ => ?_)
    | split
    | with_reducible refine (Keep.of_xfe _ _).after ?_ (by decide))

theorem ctlIdle_keep (port : Nat) (s : State) : Keep 536870924 s (ctlIdle port s) := by
  unfold ctlIdle
  iterate 30 (all_goals try first
    | with_reducible exact Keep.refl _ _
    | with_reducible assumption
    | with_reducible refine (ctlNext_keep ..).after ?_ (by decide)
    | with_reducible refine Keep.foldl (fun _ _ => ?_) ?_ _
    | with_reducible refine Keep.foldlFst (fun _ _ => ?_) ?_ _
    | with_reducible refine Keep.foldlSnd (fun _ _ => ?_) ?_ _
    | with_reducible refine Keep.ite (fun _ => ?_) (fun _ => ?_)
    | split)

theorem queueCtl_keep (port : Nat) (k : CtlPkt) (s : State) : Keep 536870924 s (queueCtl port k s) := by
  unfold queueCtl
  iterate 30 (all_goals try first
    | with_reducible exact Keep.refl _ _
    | with_reducible assumption
    | with_reducible refine (ctlIdle_keep ..).after ?_ (by decide)
    | with_reducible refine (pushCtl_keep ..).after ?_ (by decide)
    | with_reducible refine Keep.ite (fun _ => ?_) (fun _ => ?_)
    | split)

theorem ctlAgain_keep (s : State) : Keep 536870924 s (ctlAgain s) := by
  unfold ctlAgain
  iterate 30 (all_goals try first
    | with_reducible exact Keep.refl _ _
    | with_reducible assumption
    | with_reducible refine (ctlIdle_keep ..).after ?_ (by decide)
    | with_reducible refine Keep.foldl (fun _ _ => ?_) ?_ _
    | with_reducible refine Keep.foldlFst (fun _ _ => ?_) ?_ _
    | with_reducible refine Keep.foldlSnd (fun _ _ => ?_) ?_ _
    | with_reducible refine Keep.ite (fun _ => ?_) (fun _ => ?_)
    | split)

theorem settleOne_keep {id : Nat} {l : List CtlPkt} {k : CtlPkt} {s : State} {x0 : List CtlPkt} {t0 : State} (h : settleOne id l k s = (x0, t0)) : Keep 536870912 s t0 := by
  unfold settleOne at h
  try dsimp only at h
  repeat' (first | split at h)
  all_goals try (exact absurd h (by simp only [reduceCtorEq, not_false_eq_true]))
  all_goals try (with_reducible obtain ⟨rfl, rfl⟩ := Prod.mk.inj h)
  iterate 30 (all_goals try first
    | with_reducible exact Keep.refl _ _
    | with_reducible assumption
    | (extract_lets +onlyGivenNames zz; refine Keep.cut zz ?_ (fun _ => ?_); (rotate_left; (try clear_value zz); rotate_right; subst zz))
    | (extract_lets +onlyGivenNames zz; subst zz)
    | with_reducible refine (numberCtl_keep (by assumption)).after ?_ (by decide)
    | with_reducible refine (numberCtl_keepP ..).after ?_ (by decide)
    | with_reducible refine Keep.pairIte (by assumption) (fun _ => ?_)
    | with_reducible refine Keep.pairIteElse (by assumption) (fun _ => ?_)
    | with_reducible refine Keep.ite (fun _ => ?_) (fun _ => ?_)
    | split)
theorem settleOne_keepP (id : Nat) (l : List CtlPkt) (k : CtlPkt) (s : State) : Keep 536870912 s (settleOne id l k s).2 := settleOne_keep (id := id) (l := l) (k := k) (s := s) rfl

theorem settlePort_keep (id port : Nat) (s : State) : Keep 536870912 s (settlePort id port s) := by
  unfold settlePort
  iterate 30 (all_goals try first
    | with_reducible exact Keep.refl _ _
    | with_reducible assumption
    | (extract_lets +onlyGivenNames zz; refine Keep.cut zz ?_ (fun _ => ?_); (rotate_left; (try clear_value zz); rotate_right; subst zz))
    | (extract_lets +onlyGivenNames zz; subst zz)
    | with_reducible refine (settleOne_keep (by assumption)).after ?_ (by decide)
    | with_reducible refine (settleOne_keepP ..).after ?_ (by decide)
    | with_reducible refine Keep.foldl (fun _ _ => ?_) ?_ _
    | with_reducible refine Keep.foldlFst (fun _ _ => ?_) ?_ _
    | with_reducible refine Keep.foldlSnd (fun _ _ => ?_) ?_ _
    | with_reducible refine Keep.ite (fun _ => ?_) (fun _ => ?_)
    | split
    | with_reducible refine (Keep.of_xfe _ _).after ?_ (by decide))

theorem settleCtl_keep (id : Nat) (s : State) : Keep 536870912 s (settleCtl id s) := by
  unfold settleCtl
  iterate 30 (all_goals try first
    | with_reducible exact Keep.refl _ _
    | with_reducible assumption
    | with_reducible refine (settlePort_keep ..).after ?_ (by decide)
    | with_reducible refine Keep.foldl (fun _ _ => ?_) ?_ _
    | with_reducible refine Keep.foldlFst (fun _ _ => ?_) ?_ _
    | with_reducible refine Keep.foldlSnd (fun _ _ => ?_) ?_ _
    | with_reducible refine Keep.ite (fun _ => ?_) (fun _ => ?_)
    | split)

theorem sendCtl_keep (port : Nat) (conn sealPart : Option Nat) (h : PktHdr) (payload : List Byte) (s : State) : Keep 536870924 s (sendCtl port conn sealPart h payload s) := by
  unfold sendCtl
  iterate 30 (all_goals try first
    | with_reducible exact Keep.refl _ _
    | with_reducible assumption
    | with_reducible refine (queueCtl_keep ..).after ?_ (by decide)
    | with_reducible refine Keep.ite (fun _ => ?_) (fun _ => ?_)
    | split)

theorem freeConn_keep (id : Nat) (s : State) : Keep 536870912 s (freeConn id s) := by
  unfold freeConn
  iterate 30 (all_goals try first
    | with_reducible exact Keep.refl _ _
    | with_reducible assumption
    | (extract_lets +onlyGivenNames zz; refine Keep.cut zz ?_ (fun _ => ?_); (rotate_left; (try clear_value zz); rotate_right; subst zz))
    | (extract_lets +onlyGivenNames zz; subst zz)
    | with_reducible refine (settleCtl_keep ..).after ?_ (by decide)
    | with_reducible refine Keep.ite (fun _ => ?_) (fun _ => ?_)
    | split
    | with_reducible refine (Keep.of_xfe _ _).after ?_ (by decide))

theorem sendCtlTo_keep (node : Nat) (conn sealPart : Option Nat) (h : PktHdr) (payload : List Byte) (s : State) : Keep 536870924 s (sendCtlTo node conn sealPart h payload s) := by
  unfold sendCtlTo
  iterate 30 (all_goals try first
    | with_reducible exact Keep.refl _ _
    | with_reducible assumption
    | with_reducible refine (sendCtl_keep ..).after ?_ (by decide)
    | with_reducible refine Keep.ite (fun _ => ?_) (fun _ => ?_)
    | split)

theorem modTx_keep (id seq : Nat) (f : TxMsg → TxMsg) (s : State) : Keep 536870912 s (modTx id seq f s) := by
  unfold modTx
  iterate 30 (all_goals try first
    | with_reducible exact Keep.refl _ _
    | with_reducible assumption
    | with_reducible refine (putConn_keep ..).after ?_ (by decide)
    | with_reducible refine Keep.ite (fun _ => ?_) (fun _ => ?_)
    | split)

theorem modPkt_keep (id seq index : Nat) (f : TxPkt → TxPkt) (s : State) : Keep 536870912 s (modPkt id seq index f s) := by
  unfold modPkt
  iterate 30 (all_goals try first
    | with_reducible exact Keep.refl _ _
    | with_reducible assumption
    | with_reducible refine (modTx_keep ..).after ?_ (by decide)
    | with_reducible refine Keep.ite (fun _ => ?_) (fun _ => ?_)
    | split)

theorem queuePkt_keep (part cls port : Nat) (p : EgressPkt) (s : State) : Keep 536870912 s (queuePkt part cls port p s) := by
  unfold queuePkt
  iterate 30 (all_goals try first
    | with_reducible exact Keep.refl _ _
    | with_reducible assumption
    | (extract_lets +onlyGivenNames zz; refine Keep.cut zz ?_ (fun _ => ?_); (rotate_left; (try clear_value zz); rotate_right; subst zz))
    | (extract_lets +onlyGivenNames zz; subst zz)
    | with_reducible refine Keep.ite (fun _ => ?_) (fun _ => ?_)
    | split
    | with_reducible refine (Keep.of_xfe _ _).after ?_ (by decide))

theorem pumpOne_keep {id : Nat} {s : State} {t0 : State} (h : pumpOne id s = some t0) : Keep 536870912 s t0 := by
  unfold pumpOne at h
  try dsimp only at h
  repeat' (first | split at h)
  all_goals try (exact absurd h (by simp only [reduceCtorEq, not_false_eq_true]))
  all_goals try (with_reducible obtain rfl := Option.some.inj h)
  iterate 30 (all_goals try first
    | with_reducible exact Keep.refl _ _
    | with_reducible assumption
    | (extract_lets +onlyGivenNames zz; refine Keep.cut zz ?_ (fun _ => ?_); (rotate_left; (try clear_value zz); rotate_right; subst zz))
    | (extract_lets +onlyGivenNames zz; subst zz)
    | with_reducible refine (queuePkt_keep ..).after ?_ (by decide)
    | with_reducible refine (putConn_keep ..).after ?_ (by decide)
    | with_reducible refine Keep.getD (fun _ _ => ?_) ?_
    | with_reducible refine Keep.foldl (fun _ _ => ?_) ?_ _
    | with_reducible refine Keep.foldlFst (fun _ _ => ?_) ?_ _
    | with_reducible refine Keep.foldlSnd (fun _ _ => ?_) ?_ _
    | with_reducible refine Keep.ite (fun _ => ?_) (fun _ => ?_)
    | split)

theorem resendPkt_keep (id seq index : Nat) (s : State) : Keep 536870912 s (resendPkt id seq index s) := by
  unfold resendPkt
  iterate 30 (all_goals try first
    | with_reducible exact Keep.refl _ _
    | with_reducible assumption
    | (extract_lets +onlyGivenNames zz; refine Keep.cut zz ?_ (fun _ => ?_); (rotate_left; (try clear_value zz); rotate_right; subst zz))
    | (extract_lets +onlyGivenNames zz; subst zz)
    | with_reducible refine (queuePkt_keep ..).after ?_ (by decide)
    | with_reducible refine (modPkt_keep ..).after ?_ (by decide)
    | with_reducible refine Keep.ite (fun _ => ?_) (fun _ => ?_)
    | split)

theorem pump_keep (id y1 : Nat) (y2 : State) : Keep 536870912 y2 (pump id y1 y2) := by
  induction y1 generalizing id y2 with
  | zero => exact Keep.refl _ _
  | succ n ih =>
    unfold pump
    iterate 30 (all_goals try first
      | with_reducible exact Keep.refl _ _
      | with_reducible assumption
      | with_reducible refine (ih ..).after ?_ (by decide)
      | with_reducible refine (pumpOne_keep (by assumption)).after ?_ (by decide)
      | with_reducible refine Keep.ite (fun _ => ?_) (fun _ => ?_)
      | split)

theorem pumpAll_keep (id : Nat) (s : State) : Keep 536870912 s (pumpAll id s) := by
  unfold pumpAll
  iterate 30 (all_goals try first
    | with_reducible exact Keep.refl _ _
    | with_reducible assumption
    | (extract_lets +onlyGivenNames zz; refine Keep.cut zz ?_ (fun _ => ?_); (rotate_left; (try clear_value zz); rotate_right; subst zz))
    | (extract_lets +onlyGivenNames zz; subst zz)
    | with_reducible refine (pump_keep ..).after ?_ (by decide)
    | with_reducible refine (resendPkt_keep ..).after ?_ (by decide)
    | with_reducible refine Keep.getD (fun _ _ => ?_) ?_
    | with_reducible refine Keep.foldl (fun _ _ => ?_) ?_ _
    | with_reducible refine Keep.foldlFst (fun _ _ => ?_) ?_ _
    | with_reducible refine Keep.foldlSnd (fun _ _ => ?_) ?_ _
    | with_reducible refine Keep.ite (fun _ => ?_) (fun _ => ?_)
    | split)

theorem makeRoom_keep (s : State) : Keep 536870924 s (makeRoom s) := by
  unfold makeRoom
  iterate 30 (all_goals try first
    | with_reducible exact Keep.refl _ _
    | with_reducible assumption
    | (extract_lets +onlyGivenNames zz; refine Keep.cut zz ?_ (fun _ => ?_); (rotate_left; (try clear_value zz); rotate_right; subst zz))
    | (extract_lets +onlyGivenNames zz; subst zz)
    | with_reducible refine (putConn_keep ..).after ?_ (by decide)
    | with_reducible refine (emit_keep ..).after ?_ (by decide)
    | with_reducible refine (bump_keep ..).after ?_ (by decide)
    | with_reducible refine Keep.foldl (fun _ _ => ?_) ?_ _
    | with_reducible refine Keep.foldlFst (fun _ _ => ?_) ?_ _
    | with_reducible refine Keep.foldlSnd (fun _ _ => ?_) ?_ _
    | with_reducible refine Keep.ite (fun _ => ?_) (fun _ => ?_)
    | split)

theorem fetchRecord_keep (id : Nat) (s : State) : Keep 536870924 s (fetchRecord id s) := by
  unfold fetchRecord
  iterate 30 (all_goals try first
    | with_reducible exact Keep.refl _ _
    | with_reducible assumption
    | (extract_lets +onlyGivenNames zz; refine Keep.cut zz ?_ (fun _ => ?_); (rotate_left; (try clear_value zz); rotate_right; subst zz))
    | (extract_lets +onlyGivenNames zz; subst zz)
    | with_reducible refine (makeRoom_keep ..).after ?_ (by decide)
    | with_reducible refine (emit_keep ..).after ?_ (by decide)
    | with_reducible refine (bump_keep ..).after ?_ (by decide)
    | with_reducible refine Keep.ite (fun _ => ?_) (fun _ => ?_)
    | split
    | with_reducible refine (Keep.of_xfe _ _).after ?_ (by decide))

theorem fetchWaiting_keep (s : State) : Keep 536870924 s (fetchWaiting s) := by
  unfold fetchWaiting
  iterate 30 (all_goals try first
    | with_reducible exact Keep.refl _ _
    | with_reducible assumption
    | (extract_lets +onlyGivenNames zz; refine Keep.cut zz ?_ (fun _ => ?_); (rotate_left; (try clear_value zz); rotate_right; subst zz))
    | (extract_lets +onlyGivenNames zz; subst zz)
    | with_reducible refine (fetchRecord_keep ..).after ?_ (by decide)
    | with_reducible refine Keep.foldl (fun _ _ => ?_) ?_ _
    | with_reducible refine Keep.foldlFst (fun _ _ => ?_) ?_ _
    | with_reducible refine Keep.foldlSnd (fun _ _ => ?_) ?_ _
    | with_reducible refine Keep.ite (fun _ => ?_) (fun _ => ?_)
    | split
    | with_reducible refine (Keep.of_xfe _ _).after ?_ (by decide))

theorem sendMsg_keep (id : Nat) (m : TxMsg) (s : State) : Keep 536870924 s (sendMsg id m s) := by
  unfold sendMsg
  iterate 30 (all_goals try first
    | with_reducible exact Keep.refl _ _
    | with_reducible assumption
    | (extract_lets +onlyGivenNames zz; refine Keep.cut zz ?_ (fun _ => ?_); (rotate_left; (try clear_value zz); rotate_right; subst zz))
    | (extract_lets +onlyGivenNames zz; subst zz)
    | with_reducible refine (fetchRecord_keep ..).after ?_ (by decide)
    | with_reducible refine (pumpAll_keep ..).after ?_ (by decide)
    | with_reducible refine (putConn_keep ..).after ?_ (by decide)
    | with_reducible refine Keep.ite (fun _ => ?_) (fun _ => ?_)
    | split
    | with_reducible refine (Keep.of_xfe _ _).after ?_ (by decide))

theorem sendOwn_keep (m : OwnMsg) (s : State) : Keep 536870912 s (sendOwn m s) := by
  unfold sendOwn
  iterate 30 (all_goals try first
    | with_reducible exact Keep.refl _ _
    | with_reducible assumption
    | with_reducible refine (queuePkt_keep ..).after ?_ (by decide)
    | with_reducible refine Keep.ite (fun _ => ?_) (fun _ => ?_)
    | split)

theorem leaveOwn_keep (port : Nat) (m : OwnMsg) (s : State) : Keep 536870924 s (leaveOwn port m s) := by
  unfold leaveOwn
  iterate 30 (all_goals try first
    | with_reducible exact Keep.refl _ _
    | with_reducible assumption
    | with_reducible refine (sendOwn_keep ..).after ?_ (by decide)
    | with_reducible refine (takeCredit_keep ..).after ?_ (by decide)
    | with_reducible refine (emit_keep ..).after ?_ (by decide)
    | with_reducible refine (bump_keep ..).after ?_ (by decide)
    | with_reducible refine Keep.ite (fun _ => ?_) (fun _ => ?_)
    | split)

theorem leavePort_keep (port : Nat) (e : EgressPkt) (s : State) : Keep 536870924 s (leavePort port e s) := by
  unfold leavePort
  iterate 30 (all_goals try first
    | with_reducible exact Keep.refl _ _
    | with_reducible assumption
    | (extract_lets +onlyGivenNames zz; refine Keep.cut zz ?_ (fun _ => ?_); (rotate_left; (try clear_value zz); rotate_right; subst zz))
    | (extract_lets +onlyGivenNames zz; subst zz)
    | with_reducible refine (leaveOwn_keep ..).after ?_ (by decide)
    | with_reducible refine (resendPkt_keep ..).after ?_ (by decide)
    | with_reducible refine (modPkt_keep ..).after ?_ (by decide)
    | with_reducible refine (takeCredit_keep ..).after ?_ (by decide)
    | with_reducible refine (putConn_keep ..).after ?_ (by decide)
    | with_reducible refine (emit_keep ..).after ?_ (by decide)
    | with_reducible refine (bump_keep ..).after ?_ (by decide)
    | with_reducible refine Keep.getD (fun _ _ => ?_) ?_
    | with_reducible refine Keep.ite (fun _ => ?_) (fun _ => ?_)
    | split)

theorem sendGranted_keep (port : Nat) (e : EgressPkt) (s : State) : Keep 536870924 s (sendGranted port e s) := by
  unfold sendGranted
  iterate 30 (all_goals try first
    | with_reducible exact Keep.refl _ _
    | with_reducible assumption
    | with_reducible refine (leavePort_keep ..).after ?_ (by decide)
    | with_reducible refine (ctlNext_keep ..).after ?_ (by decide)
    | with_reducible refine Keep.ite (fun _ => ?_) (fun _ => ?_)
    | split)

theorem localCounter_keep (part addr : Nat) (st : Status) (s : State) : Keep 65568 s (localCounter part addr st s) := by
  unfold localCounter
  iterate 30 (all_goals try first
    | with_reducible exact Keep.refl _ _
    | with_reducible assumption
    | (extract_lets +onlyGivenNames zz; refine Keep.cut zz ?_ (fun _ => ?_); (rotate_left; (try clear_value zz); rotate_right; subst zz))
    | (extract_lets +onlyGivenNames zz; subst zz)
    | with_reducible refine (directWrite0_keep ..).after ?_ (by decide)
    | with_reducible refine Keep.ite (fun _ => ?_) (fun _ => ?_)
    | split)

theorem finishWork_keep (id : Nat) (st : Status) (result : Nat) (s : State) : Keep 536948334 s (finishWork id st result s) := by
  unfold finishWork
  iterate 30 (all_goals try first
    | with_reducible exact Keep.refl _ _
    | with_reducible assumption
    | (extract_lets +onlyGivenNames zz; refine Keep.cut zz ?_ (fun _ => ?_); (rotate_left; (try clear_value zz); rotate_right; subst zz))
    | (extract_lets +onlyGivenNames zz; subst zz)
    | with_reducible refine (localCounter_keep ..).after ?_ (by decide)
    | with_reducible refine (complete_keep ..).after ?_ (by decide)
    | with_reducible refine (logEv_keep ..).after ?_ (by decide)
    | with_reducible refine Keep.ite (fun _ => ?_) (fun _ => ?_)
    | split
    | with_reducible refine (Keep.of_xfe _ _).after ?_ (by decide))

theorem workStep_keep (id : Nat) (st : Status) (s : State) : Keep 536948334 s (workStep id st s) := by
  unfold workStep
  iterate 30 (all_goals try first
    | with_reducible exact Keep.refl _ _
    | with_reducible assumption
    | (extract_lets +onlyGivenNames zz; refine Keep.cut zz ?_ (fun _ => ?_); (rotate_left; (try clear_value zz); rotate_right; subst zz))
    | (extract_lets +onlyGivenNames zz; subst zz)
    | with_reducible refine (finishWork_keep ..).after ?_ (by decide)
    | with_reducible refine Keep.ite (fun _ => ?_) (fun _ => ?_)
    | split
    | with_reducible refine (Keep.of_xfe _ _).after ?_ (by decide))

theorem endMsg_keep (m : TxMsg) (st : Status) (s : State) : Keep 536948334 s (endMsg m st s) := by
  unfold endMsg
  iterate 30 (all_goals try first
    | with_reducible exact Keep.refl _ _
    | with_reducible assumption
    | with_reducible refine (workStep_keep ..).after ?_ (by decide)
    | with_reducible refine (finishWork_keep ..).after ?_ (by decide)
    | with_reducible refine Keep.ite (fun _ => ?_) (fun _ => ?_)
    | split)

theorem endSent_keep (m : TxMsg) (st : Status) (s : State) : Keep 536948350 s (endSent m st s) := by
  unfold endSent
  iterate 30 (all_goals try first
    | with_reducible exact Keep.refl _ _
    | with_reducible assumption
    | (extract_lets +onlyGivenNames zz; refine Keep.cut zz ?_ (fun _ => ?_); (rotate_left; (try clear_value zz); rotate_right; subst zz))
    | (extract_lets +onlyGivenNames zz; subst zz)
    | with_reducible refine (endMsg_keep ..).after ?_ (by decide)
    | with_reducible refine (hartEnds_keep ..).after ?_ (by decide)
    | with_reducible refine Keep.ite (fun _ => ?_) (fun _ => ?_)
    | split
    | with_reducible refine (Keep.of_xfe _ _).after ?_ (by decide))

theorem modRegion_keep (i : Nat) (f : Region → Region) (s : State) : Keep 536870912 s (modRegion i f s) := by
  unfold modRegion
  iterate 30 (all_goals try first
    | with_reducible exact Keep.refl _ _
    | with_reducible assumption
    | (extract_lets +onlyGivenNames zz; refine Keep.cut zz ?_ (fun _ => ?_); (rotate_left; (try clear_value zz); rotate_right; subst zz))
    | (extract_lets +onlyGivenNames zz; subst zz)
    | with_reducible refine Keep.ite (fun _ => ?_) (fun _ => ?_)
    | split
    | with_reducible refine (Keep.of_xfe _ _).after ?_ (by decide))

theorem flightEnds_keep (rkey : Nat) (s : State) : Keep 536870912 s (flightEnds rkey s) := by
  unfold flightEnds
  iterate 30 (all_goals try first
    | with_reducible exact Keep.refl _ _
    | with_reducible assumption
    | with_reducible refine (modRegion_keep ..).after ?_ (by decide)
    | with_reducible refine Keep.ite (fun _ => ?_) (fun _ => ?_)
    | split)

theorem releaseHeld_keep (c : Conn) (s : State) : Keep 536870912 s (releaseHeld c s) := by
  unfold releaseHeld
  iterate 30 (all_goals try first
    | with_reducible exact Keep.refl _ _
    | with_reducible assumption
    | with_reducible refine (flightEnds_keep ..).after ?_ (by decide)
    | with_reducible refine Keep.foldl (fun _ _ => ?_) ?_ _
    | with_reducible refine Keep.foldlFst (fun _ _ => ?_) ?_ _
    | with_reducible refine Keep.foldlSnd (fun _ _ => ?_) ?_ _
    | with_reducible refine Keep.ite (fun _ => ?_) (fun _ => ?_)
    | split)

theorem loseHolding_keep (id : Nat) (s : State) : Keep 536948350 s (loseHolding id s) := by
  unfold loseHolding
  iterate 30 (all_goals try first
    | with_reducible exact Keep.refl _ _
    | with_reducible assumption
    | (extract_lets +onlyGivenNames zz; refine Keep.cut zz ?_ (fun _ => ?_); (rotate_left; (try clear_value zz); rotate_right; subst zz))
    | (extract_lets +onlyGivenNames zz; subst zz)
    | with_reducible refine (endSent_keep ..).after ?_ (by decide)
    | with_reducible refine Keep.foldl (fun _ _ => ?_) ?_ _
    | with_reducible refine Keep.foldlFst (fun _ _ => ?_) ?_ _
    | with_reducible refine Keep.foldlSnd (fun _ _ => ?_) ?_ _
    | with_reducible refine Keep.ite (fun _ => ?_) (fun _ => ?_)
    | split
    | with_reducible refine (Keep.of_xfe _ _).after ?_ (by decide))

theorem failConn_keep (id : Nat) (s : State) : Keep 536948350 s (failConn id s) := by
  unfold failConn
  iterate 30 (all_goals try first
    | with_reducible exact Keep.refl _ _
    | with_reducible assumption
    | (extract_lets +onlyGivenNames zz; refine Keep.cut zz ?_ (fun _ => ?_); (rotate_left; (try clear_value zz); rotate_right; subst zz))
    | (extract_lets +onlyGivenNames zz; subst zz)
    | with_reducible refine (loseHolding_keep ..).after ?_ (by decide)
    | with_reducible refine (releaseHeld_keep ..).after ?_ (by decide)
    | with_reducible refine (endSent_keep ..).after ?_ (by decide)
    | with_reducible refine (makeRoom_keep ..).after ?_ (by decide)
    | with_reducible refine (putConn_keep ..).after ?_ (by decide)
    | with_reducible refine (complete_keep ..).after ?_ (by decide)
    | with_reducible refine (logEv_keep ..).after ?_ (by decide)
    | with_reducible refine (bump_keep ..).after ?_ (by decide)
    | with_reducible refine Keep.foldl (fun _ _ => ?_) ?_ _
    | with_reducible refine Keep.foldlFst (fun _ _ => ?_) ?_ _
    | with_reducible refine Keep.foldlSnd (fun _ _ => ?_) ?_ _
    | with_reducible refine Keep.ite (fun _ => ?_) (fun _ => ?_)
    | split)

theorem tryClose_keep (id : Nat) (s : State) : Keep 536870924 s (tryClose id s) := by
  unfold tryClose
  iterate 30 (all_goals try first
    | with_reducible exact Keep.refl _ _
    | with_reducible assumption
    | with_reducible refine (sendCtlTo_keep ..).after ?_ (by decide)
    | with_reducible refine (putConn_keep ..).after ?_ (by decide)
    | with_reducible refine Keep.ite (fun _ => ?_) (fun _ => ?_)
    | split)

theorem pruneTx_keep (id : Nat) (s : State) : Keep 536870912 s (pruneTx id s) := by
  unfold pruneTx
  iterate 30 (all_goals try first
    | with_reducible exact Keep.refl _ _
    | with_reducible assumption
    | with_reducible refine (putConn_keep ..).after ?_ (by decide)
    | with_reducible refine Keep.ite (fun _ => ?_) (fun _ => ?_)
    | split)

theorem violate_keep (conn : Option Nat) (port part : Nat) (hdr : List Byte) (s : State) : Keep 536948350 s (violate conn port part hdr s) := by
  unfold violate
  iterate 30 (all_goals try first
    | with_reducible exact Keep.refl _ _
    | with_reducible assumption
    | (extract_lets +onlyGivenNames zz; refine Keep.cut zz ?_ (fun _ => ?_); (rotate_left; (try clear_value zz); rotate_right; subst zz))
    | (extract_lets +onlyGivenNames zz; subst zz)
    | with_reducible refine (failConn_keep ..).after ?_ (by decide)
    | with_reducible refine (putConn_keep ..).after ?_ (by decide)
    | with_reducible refine (logEv_keep ..).after ?_ (by decide)
    | with_reducible refine (bump_keep ..).after ?_ (by decide)
    | with_reducible refine Keep.ite (fun _ => ?_) (fun _ => ?_)
    | split
    | with_reducible refine (Keep.of_xfe _ _).after ?_ (by decide))

theorem resendCtl_keep (k : CtlPkt) (s : State) : Keep 536870924 s (resendCtl k s) := by
  unfold resendCtl
  iterate 30 (all_goals try first
    | with_reducible exact Keep.refl _ _
    | with_reducible assumption
    | (extract_lets +onlyGivenNames zz; refine Keep.cut zz ?_ (fun _ => ?_); (rotate_left; (try clear_value zz); rotate_right; subst zz))
    | (extract_lets +onlyGivenNames zz; subst zz)
    | with_reducible refine (queueCtl_keep ..).after ?_ (by decide)
    | with_reducible refine Keep.ite (fun _ => ?_) (fun _ => ?_)
    | split)

theorem portLeft_keep (port : Nat) (waiting : List CtlPkt) (own : List OwnMsg) (s : State) : Keep 536870924 s (portLeft port waiting own s) := by
  unfold portLeft
  iterate 30 (all_goals try first
    | with_reducible exact Keep.refl _ _
    | with_reducible assumption
    | (extract_lets +onlyGivenNames zz; refine Keep.cut zz ?_ (fun _ => ?_); (rotate_left; (try clear_value zz); rotate_right; subst zz))
    | (extract_lets +onlyGivenNames zz; subst zz)
    | with_reducible refine (resendCtl_keep ..).after ?_ (by decide)
    | with_reducible refine (sendOwn_keep ..).after ?_ (by decide)
    | with_reducible refine (resendPkt_keep ..).after ?_ (by decide)
    | with_reducible refine (queueCtl_keep ..).after ?_ (by decide)
    | with_reducible refine (putConn_keep ..).after ?_ (by decide)
    | with_reducible refine Keep.foldl (fun _ _ => ?_) ?_ _
    | with_reducible refine Keep.foldlFst (fun _ _ => ?_) ?_ _
    | with_reducible refine Keep.foldlSnd (fun _ _ => ?_) ?_ _
    | with_reducible refine Keep.ite (fun _ => ?_) (fun _ => ?_)
    | split)

theorem clearPort_keep (port : Nat) (s : State) : Keep 536870912 s (clearPort port s) := by
  unfold clearPort
  iterate 30 (all_goals try first
    | with_reducible exact Keep.refl _ _
    | with_reducible assumption
    | (extract_lets +onlyGivenNames zz; refine Keep.cut zz ?_ (fun _ => ?_); (rotate_left; (try clear_value zz); rotate_right; subst zz))
    | (extract_lets +onlyGivenNames zz; subst zz)
    | with_reducible refine Keep.ite (fun _ => ?_) (fun _ => ?_)
    | split
    | with_reducible refine (Keep.of_xfe _ _).after ?_ (by decide))

theorem dropPort_keep (port state : Nat) (s : State) : Keep 536870926 s (dropPort port state s) := by
  unfold dropPort
  iterate 30 (all_goals try first
    | with_reducible exact Keep.refl _ _
    | with_reducible assumption
    | (extract_lets +onlyGivenNames zz; refine Keep.cut zz ?_ (fun _ => ?_); (rotate_left; (try clear_value zz); rotate_right; subst zz))
    | (extract_lets +onlyGivenNames zz; subst zz)
    | with_reducible refine (clearPort_keep ..).after ?_ (by decide)
    | with_reducible refine (portLeft_keep ..).after ?_ (by decide)
    | with_reducible refine (setF_keep ..).after ?_ (by decide)
    | with_reducible refine Keep.ite (fun _ => ?_) (fun _ => ?_)
    | split
    | with_reducible refine (Keep.of_xfe _ _).after ?_ (by decide))

theorem announceIdle_keep (port : Nat) (s : State) : Keep 536870924 s (announceIdle port s) := by
  unfold announceIdle
  iterate 30 (all_goals try first
    | with_reducible exact Keep.refl _ _
    | with_reducible assumption
    | (extract_lets +onlyGivenNames zz; refine Keep.cut zz ?_ (fun _ => ?_); (rotate_left; (try clear_value zz); rotate_right; subst zz))
    | (extract_lets +onlyGivenNames zz; subst zz)
    | with_reducible refine (takeCredit_keep ..).after ?_ (by decide)
    | with_reducible refine (emit_keep ..).after ?_ (by decide)
    | with_reducible refine (bump_keep ..).after ?_ (by decide)
    | with_reducible refine Keep.foldl (fun _ _ => ?_) ?_ _
    | with_reducible refine Keep.foldlFst (fun _ _ => ?_) ?_ _
    | with_reducible refine Keep.foldlSnd (fun _ _ => ?_) ?_ _
    | with_reducible refine Keep.ite (fun _ => ?_) (fun _ => ?_)
    | split
    | with_reducible refine (Keep.of_xfe _ _).after ?_ (by decide))

theorem announce_keep (port : Nat) (s : State) : Keep 536870924 s (announce port s) := by
  unfold announce
  iterate 30 (all_goals try first
    | with_reducible exact Keep.refl _ _
    | with_reducible assumption
    | with_reducible refine (announceIdle_keep ..).after ?_ (by decide)
    | with_reducible refine (pushCtl_keep ..).after ?_ (by decide)
    | with_reducible refine Keep.ite (fun _ => ?_) (fun _ => ?_)
    | split)

theorem announceAll_keep (s : State) : Keep 536870924 s (announceAll s) := by
  unfold announceAll
  iterate 30 (all_goals try first
    | with_reducible exact Keep.refl _ _
    | with_reducible assumption
    | with_reducible refine (announce_keep ..).after ?_ (by decide)
    | with_reducible refine Keep.foldl (fun _ _ => ?_) ?_ _
    | with_reducible refine Keep.foldlFst (fun _ _ => ?_) ?_ _
    | with_reducible refine Keep.foldlSnd (fun _ _ => ?_) ?_ _
    | with_reducible refine Keep.ite (fun _ => ?_) (fun _ => ?_)
    | split)

theorem portCutoff_keep (port : Nat) (s : State) : Keep 536874510 s (portCutoff port s) := by
  unfold portCutoff
  iterate 30 (all_goals try first
    | with_reducible exact Keep.refl _ _
    | with_reducible assumption
    | (extract_lets +onlyGivenNames zz; refine Keep.cut zz ?_ (fun _ => ?_); (rotate_left; (try clear_value zz); rotate_right; subst zz))
    | (extract_lets +onlyGivenNames zz; subst zz)
    | with_reducible refine (announceAll_keep ..).after ?_ (by decide)
    | with_reducible refine (dropPort_keep ..).after ?_ (by decide)
    | with_reducible refine (logEv_keep ..).after ?_ (by decide)
    | with_reducible refine (bump_keep ..).after ?_ (by decide)
    | with_reducible refine (setF_keep ..).after ?_ (by decide)
    | with_reducible refine Keep.ite (fun _ => ?_) (fun _ => ?_)
    | split
    | with_reducible refine (Keep.of_xfe _ _).after ?_ (by decide))

theorem portSeen_keep (port : Nat) (s : State) : Keep 536870912 s (portSeen port s) := by
  unfold portSeen
  iterate 30 (all_goals try first
    | with_reducible exact Keep.refl _ _
    | with_reducible assumption
    | (extract_lets +onlyGivenNames zz; refine Keep.cut zz ?_ (fun _ => ?_); (rotate_left; (try clear_value zz); rotate_right; subst zz))
    | (extract_lets +onlyGivenNames zz; subst zz)
    | with_reducible refine Keep.ite (fun _ => ?_) (fun _ => ?_)
    | split
    | with_reducible refine (Keep.of_xfe _ _).after ?_ (by decide))

theorem sendAck_keep (id port seq kind : Nat) (full : Option Nat) (path : Nat) (s : State) : Keep 536870924 s (sendAck id port seq kind full path s) := by
  unfold sendAck
  iterate 30 (all_goals try first
    | with_reducible exact Keep.refl _ _
    | with_reducible assumption
    | (extract_lets +onlyGivenNames zz; refine Keep.cut zz ?_ (fun _ => ?_); (rotate_left; (try clear_value zz); rotate_right; subst zz))
    | (extract_lets +onlyGivenNames zz; subst zz)
    | with_reducible refine (sendCtl_keep ..).after ?_ (by decide)
    | with_reducible refine (putConn_keep ..).after ?_ (by decide)
    | with_reducible refine Keep.ite (fun _ => ?_) (fun _ => ?_)
    | split)

theorem sendNak_keep (port : Nat) (h : PktHdr) (raw : List Byte) (conn : Option Nat) (toConn toCgen reason sub : Nat) (s : State) : Keep 536870924 s (sendNak port h raw conn toConn toCgen reason sub s) := by
  unfold sendNak
  iterate 30 (all_goals try first
    | with_reducible exact Keep.refl _ _
    | with_reducible assumption
    | (extract_lets +onlyGivenNames zz; refine Keep.cut zz ?_ (fun _ => ?_); (rotate_left; (try clear_value zz); rotate_right; subst zz))
    | (extract_lets +onlyGivenNames zz; subst zz)
    | with_reducible refine (sendCtl_keep ..).after ?_ (by decide)
    | with_reducible refine (bump_keep ..).after ?_ (by decide)
    | with_reducible refine Keep.getD (fun _ _ => ?_) ?_
    | with_reducible refine Keep.ite (fun _ => ?_) (fun _ => ?_)
    | split)

theorem nakConn_keep (id port : Nat) (h : PktHdr) (raw : List Byte) (reason sub : Nat) (s : State) : Keep 536870924 s (nakConn id port h raw reason sub s) := by
  unfold nakConn
  iterate 30 (all_goals try first
    | with_reducible exact Keep.refl _ _
    | with_reducible assumption
    | with_reducible refine (sendNak_keep ..).after ?_ (by decide)
    | with_reducible refine Keep.ite (fun _ => ?_) (fun _ => ?_)
    | split)

theorem retireRx_keep (id seq op : Nat) (fail : Option (Nat × Nat)) (s : State) : Keep 536870912 s (retireRx id seq op fail s) := by
  unfold retireRx
  iterate 30 (all_goals try first
    | with_reducible exact Keep.refl _ _
    | with_reducible assumption
    | (extract_lets +onlyGivenNames zz; refine Keep.cut zz ?_ (fun _ => ?_); (rotate_left; (try clear_value zz); rotate_right; subst zz))
    | (extract_lets +onlyGivenNames zz; subst zz)
    | with_reducible refine (putConn_keep ..).after ?_ (by decide)
    | with_reducible refine Keep.ite (fun _ => ?_) (fun _ => ?_)
    | split)

theorem failRx_keep (id port : Nat) (h : PktHdr) (raw : List Byte) (reason sub : Nat) (s : State) : Keep 536870924 s (failRx id port h raw reason sub s) := by
  unfold failRx
  iterate 30 (all_goals try first
    | with_reducible exact Keep.refl _ _
    | with_reducible assumption
    | with_reducible refine (retireRx_keep ..).after ?_ (by decide)
    | with_reducible refine (nakConn_keep ..).after ?_ (by decide)
    | with_reducible refine Keep.ite (fun _ => ?_) (fun _ => ?_)
    | split)

end Sys2Proof.Machine
end

