-- ==== Sys2Proof/Laws/KeepFabricOps.lean ====
section
/-!
SUPPORT. Laws/KeepFabricOps.lean: what each operation of Machine/FabricOps.lean can change (Laws/Keep.lean).
-/
set_option Elab.async false
set_option linter.all false
namespace Sys2Proof.Machine

open Sys2Proof

theorem putRegion_keep (i : Nat) (r : Region) (s : State) : Keep 536870912 s (putRegion i r s) := by
  unfold putRegion
  iterate 30 (all_goals try first
    | with_reducible exact Keep.refl _ _
    | with_reducible assumption
    | (extract_lets +onlyGivenNames zz; refine Keep.cut zz ?_ (fun _ => ?_); (rotate_left; (try clear_value zz); rotate_right; subst zz))
    | (extract_lets +onlyGivenNames zz; subst zz)
    | with_reducible refine Keep.ite (fun _ => ?_) (fun _ => ?_)
    | split
    | with_reducible refine (Keep.of_xfe _ _).after ?_ (by decide))

theorem addRegion_keep {i : Nat} {r : Region} {s : State} {t0 : State} {x1 : Nat} (h : addRegion i r s = (t0, x1)) : Keep 536870928 s t0 := by
  unfold addRegion at h
  try dsimp only at h
  repeat' (first | split at h)
  all_goals try (exact absurd h (by simp only [reduceCtorEq, not_false_eq_true]))
  all_goals try (with_reducible obtain ⟨rfl, rfl⟩ := Prod.mk.inj h)
  iterate 30 (all_goals try first
    | with_reducible exact Keep.refl _ _
    | with_reducible assumption
    | (extract_lets +onlyGivenNames zz; refine Keep.cut zz ?_ (fun _ => ?_); (rotate_left; (try clear_value zz); rotate_right; subst zz))
    | (extract_lets +onlyGivenNames zz; subst zz)
    | with_reducible refine (fresh_keep (by assumption)).after ?_ (by decide)
    | with_reducible refine (fresh_keepP ..).after ?_ (by decide)
    | with_reducible refine Keep.pairIte (by assumption) (fun _ => ?_)
    | with_reducible refine Keep.pairIteElse (by assumption) (fun _ => ?_)
    | with_reducible refine Keep.ite (fun _ => ?_) (fun _ => ?_)
    | split
    | with_reducible refine (Keep.of_xfe _ _).after ?_ (by decide))
theorem addRegion_keepP (i : Nat) (r : Region) (s : State) : Keep 536870928 s (addRegion i r s).1 := addRegion_keep (i := i) (r := r) (s := s) rfl

theorem revokeDone_keep (i : Nat) (s : State) : Keep 536945230 s (revokeDone i s) := by
  unfold revokeDone
  iterate 30 (all_goals try first
    | with_reducible exact Keep.refl _ _
    | with_reducible assumption
    | (extract_lets +onlyGivenNames zz; refine Keep.cut zz ?_ (fun _ => ?_); (rotate_left; (try clear_value zz); rotate_right; subst zz))
    | (extract_lets +onlyGivenNames zz; subst zz)
    | with_reducible refine (putRegion_keep ..).after ?_ (by decide)
    | with_reducible refine (complete_keep ..).after ?_ (by decide)
    | with_reducible refine (setF_keep ..).after ?_ (by decide)
    | with_reducible refine Keep.ite (fun _ => ?_) (fun _ => ?_)
    | split)

theorem revokeStep_keep (i : Nat) (free expert : Bool) (cmd : Option Cmd) (s : State) : Keep 536945230 s (revokeStep i free expert cmd s) := by
  unfold revokeStep
  iterate 30 (all_goals try first
    | with_reducible exact Keep.refl _ _
    | with_reducible assumption
    | (extract_lets +onlyGivenNames zz; refine Keep.cut zz ?_ (fun _ => ?_); (rotate_left; (try clear_value zz); rotate_right; subst zz))
    | (extract_lets +onlyGivenNames zz; subst zz)
    | with_reducible refine (revokeDone_keep ..).after ?_ (by decide)
    | with_reducible refine (putRegion_keep ..).after ?_ (by decide)
    | with_reducible refine (bump_keep ..).after ?_ (by decide)
    | with_reducible refine Keep.ite (fun _ => ?_) (fun _ => ?_)
    | split)

theorem systemRegion_keep {part base length : Nat} {s : State} {x0 : Nat} {t0 : State} (h : systemRegion part base length s = some (x0, t0)) : Keep 536870928 s t0 := by
  obtain ⟨i, -, h⟩ := Option.map_eq_some_iff.1 h
  obtain ⟨-, rfl⟩ := Prod.mk.inj h
  exact (addRegion_keepP ..).mono (by decide)

theorem endSystem_keep (i : Nat) (s : State) : Keep 536945230 s (endSystem i s) := by
  unfold endSystem
  iterate 30 (all_goals try first
    | with_reducible exact Keep.refl _ _
    | with_reducible assumption
    | with_reducible refine (revokeStep_keep ..).after ?_ (by decide)
    | with_reducible refine (modRegion_keep ..).after ?_ (by decide)
    | with_reducible refine Keep.ite (fun _ => ?_) (fun _ => ?_)
    | split)

theorem putWork_keep (id : Nat) (w : Work) (s : State) : Keep 536870912 s (putWork id w s) := by
  unfold putWork
  iterate 30 (all_goals try first
    | with_reducible exact Keep.refl _ _
    | with_reducible assumption
    | (extract_lets +onlyGivenNames zz; refine Keep.cut zz ?_ (fun _ => ?_); (rotate_left; (try clear_value zz); rotate_right; subst zz))
    | (extract_lets +onlyGivenNames zz; subst zz)
    | with_reducible refine Keep.ite (fun _ => ?_) (fun _ => ?_)
    | split
    | with_reducible refine (Keep.of_xfe _ _).after ?_ (by decide))

theorem senderRefusal_keep (part target op : Nat) (s : State) : Keep 3598 s (senderRefusal part target op s) := by
  unfold senderRefusal
  iterate 30 (all_goals try first
    | with_reducible exact Keep.refl _ _
    | with_reducible assumption
    | with_reducible refine (logEv_keep ..).after ?_ (by decide)
    | with_reducible refine (bump_keep ..).after ?_ (by decide)
    | with_reducible refine Keep.ite (fun _ => ?_) (fun _ => ?_)
    | split)

theorem newRequest_keep {r : Request} {s : State} {t0 : State} {x1 : Nat} (h : newRequest r s = (t0, x1)) : Keep 536870912 s t0 := by
  unfold newRequest at h
  try dsimp only at h
  repeat' (first | split at h)
  all_goals try (exact absurd h (by simp only [reduceCtorEq, not_false_eq_true]))
  all_goals try (with_reducible obtain ⟨rfl, rfl⟩ := Prod.mk.inj h)
  iterate 30 (all_goals try first
    | with_reducible exact Keep.refl _ _
    | with_reducible assumption
    | (extract_lets +onlyGivenNames zz; refine Keep.cut zz ?_ (fun _ => ?_); (rotate_left; (try clear_value zz); rotate_right; subst zz))
    | (extract_lets +onlyGivenNames zz; subst zz)
    | with_reducible refine Keep.pairIte (by assumption) (fun _ => ?_)
    | with_reducible refine Keep.pairIteElse (by assumption) (fun _ => ?_)
    | with_reducible refine Keep.ite (fun _ => ?_) (fun _ => ?_)
    | split
    | with_reducible refine (Keep.of_xfe _ _).after ?_ (by decide))
theorem newRequest_keepP (r : Request) (s : State) : Keep 536870912 s (newRequest r s).1 := newRequest_keep (r := r) (s := s) rfl

theorem sendWork_keep (id : Nat) (w : Work) (src : List Byte) (s : State) : Keep 536948334 s (sendWork id w src s) := by
  unfold sendWork
  iterate 30 (all_goals try first
    | with_reducible exact Keep.refl _ _
    | with_reducible assumption
    | (extract_lets +onlyGivenNames zz; refine Keep.cut zz ?_ (fun _ => ?_); (rotate_left; (try clear_value zz); rotate_right; subst zz))
    | (extract_lets +onlyGivenNames zz; subst zz)
    | with_reducible refine (newRequest_keep (by assumption)).after ?_ (by decide)
    | with_reducible refine (newRequest_keepP ..).after ?_ (by decide)
    | with_reducible refine (putWork_keep ..).after ?_ (by decide)
    | with_reducible refine (finishWork_keep ..).after ?_ (by decide)
    | with_reducible refine (sendMsg_keep ..).after ?_ (by decide)
    | with_reducible refine (bump_keep ..).after ?_ (by decide)
    | with_reducible refine Keep.getD (fun _ _ => ?_) ?_
    | with_reducible refine Keep.foldl (fun _ _ => ?_) ?_ _
    | with_reducible refine Keep.foldlFst (fun _ _ => ?_) ?_ _
    | with_reducible refine Keep.foldlSnd (fun _ _ => ?_) ?_ _
    | with_reducible refine Keep.ite (fun _ => ?_) (fun _ => ?_)
    | split)

theorem startWork_keep (id : Nat) (s : State) : Keep 604057198 s (startWork id s) := by
  unfold startWork
  iterate 30 (all_goals try first
    | with_reducible exact Keep.refl _ _
    | with_reducible assumption
    | (extract_lets +onlyGivenNames zz; refine Keep.cut zz ?_ (fun _ => ?_); (rotate_left; (try clear_value zz); rotate_right; subst zz))
    | (extract_lets +onlyGivenNames zz; subst zz)
    | with_reducible refine (sendWork_keep ..).after ?_ (by decide)
    | with_reducible refine (senderRefusal_keep ..).after ?_ (by decide)
    | with_reducible refine (putWork_keep ..).after ?_ (by decide)
    | with_reducible refine (finishWork_keep ..).after ?_ (by decide)
    | with_reducible refine (directFetch_keep (by assumption)).after ?_ (by decide)
    | with_reducible refine (directFetch_keepP ..).after ?_ (by decide)
    | with_reducible refine (beginAccess_keep (by assumption)).after ?_ (by decide)
    | with_reducible refine Keep.getD (fun _ _ => ?_) ?_
    | with_reducible refine Keep.ite (fun _ => ?_) (fun _ => ?_)
    | split)

theorem deadFill_keep (id : Nat) (s : State) : Keep 536948718 s (deadFill id s) := by
  unfold deadFill
  iterate 30 (all_goals try first
    | with_reducible exact Keep.refl _ _
    | with_reducible assumption
    | (extract_lets +onlyGivenNames zz; refine Keep.cut zz ?_ (fun _ => ?_); (rotate_left; (try clear_value zz); rotate_right; subst zz))
    | (extract_lets +onlyGivenNames zz; subst zz)
    | with_reducible refine (finishWork_keep ..).after ?_ (by decide)
    | with_reducible refine (directStore_keep ..).after ?_ (by decide)
    | with_reducible refine (beginAccess_keep (by assumption)).after ?_ (by decide)
    | with_reducible refine (markPoison_keep ..).after ?_ (by decide)
    | with_reducible refine Keep.foldl (fun _ _ => ?_) ?_ _
    | with_reducible refine Keep.foldlFst (fun _ _ => ?_) ?_ _
    | with_reducible refine Keep.foldlSnd (fun _ _ => ?_) ?_ _
    | with_reducible refine Keep.ite (fun _ => ?_) (fun _ => ?_)
    | split)

theorem resumeWork_keep (id : Nat) (s : State) : Keep 604057582 s (resumeWork id s) := by
  unfold resumeWork
  iterate 30 (all_goals try first
    | with_reducible exact Keep.refl _ _
    | with_reducible assumption
    | with_reducible refine (deadFill_keep ..).after ?_ (by decide)
    | with_reducible refine (startWork_keep ..).after ?_ (by decide)
    | with_reducible refine Keep.ite (fun _ => ?_) (fun _ => ?_)
    | split)

theorem exactUpdate_keep (r : Region) (addr : Nat) (codes : List Nat) (f : Fp → Exact → Exact) (s : State) : Keep 65572 s (exactUpdate r addr codes f s) := by
  unfold exactUpdate
  iterate 30 (all_goals try first
    | with_reducible exact Keep.refl _ _
    | with_reducible assumption
    | (extract_lets +onlyGivenNames zz; refine Keep.cut zz ?_ (fun _ => ?_); (rotate_left; (try clear_value zz); rotate_right; subst zz))
    | (extract_lets +onlyGivenNames zz; subst zz)
    | with_reducible refine (directWrite0_keep ..).after ?_ (by decide)
    | with_reducible refine (bump_keep ..).after ?_ (by decide)
    | with_reducible refine Keep.foldl (fun _ _ => ?_) ?_ _
    | with_reducible refine Keep.foldlFst (fun _ _ => ?_) ?_ _
    | with_reducible refine Keep.foldlSnd (fun _ _ => ?_) ?_ _
    | with_reducible refine Keep.ite (fun _ => ?_) (fun _ => ?_)
    | split)

theorem reduceInto_keep (r : Region) (addr t : Nat) (codes : List Nat) (bad : Nat → Bool) (s : State) : Keep 66016 s (reduceInto r addr t codes bad s) := by
  unfold reduceInto
  iterate 30 (all_goals try first
    | with_reducible exact Keep.refl _ _
    | with_reducible assumption
    | (extract_lets +onlyGivenNames zz; refine Keep.cut zz ?_ (fun _ => ?_); (rotate_left; (try clear_value zz); rotate_right; subst zz))
    | (extract_lets +onlyGivenNames zz; subst zz)
    | with_reducible refine (directWrite_keep ..).after ?_ (by decide)
    | with_reducible refine Keep.foldl (fun _ _ => ?_) ?_ _
    | with_reducible refine Keep.foldlFst (fun _ _ => ?_) ?_ _
    | with_reducible refine Keep.foldlSnd (fun _ _ => ?_) ?_ _
    | with_reducible refine Keep.ite (fun _ => ?_) (fun _ => ?_)
    | split)

theorem partMet_keep (s : State) (part tier addr n : Nat) : Keep 67108864 s (State.partMet s part tier addr n) := by
  unfold State.partMet
  iterate 30 (all_goals try first
    | with_reducible exact Keep.refl _ _
    | with_reducible assumption
    | with_reducible refine (accessMet_keep ..).after ?_ (by decide)
    | with_reducible refine Keep.foldl (fun _ _ => ?_) ?_ _
    | with_reducible refine Keep.foldlFst (fun _ _ => ?_) ?_ _
    | with_reducible refine Keep.foldlSnd (fun _ _ => ?_) ?_ _
    | with_reducible refine Keep.ite (fun _ => ?_) (fun _ => ?_)
    | split)

theorem readMeets_keep (r : Region) (addr n : Nat) (s : State) : Keep 67177998 s (readMeets r addr n s) := by
  unfold readMeets
  iterate 30 (all_goals try first
    | with_reducible exact Keep.refl _ _
    | with_reducible assumption
    | (extract_lets +onlyGivenNames zz; refine Keep.cut zz ?_ (fun _ => ?_); (rotate_left; (try clear_value zz); rotate_right; subst zz))
    | (extract_lets +onlyGivenNames zz; subst zz)
    | with_reducible refine (partMet_keep ..).after ?_ (by decide)
    | with_reducible refine (tagFailures_keep ..).after ?_ (by decide)
    | with_reducible refine (poisonRead_keep ..).after ?_ (by decide)
    | with_reducible refine Keep.foldl (fun _ _ => ?_) ?_ _
    | with_reducible refine Keep.foldlFst (fun _ _ => ?_) ?_ _
    | with_reducible refine Keep.foldlSnd (fun _ _ => ?_) ?_ _
    | with_reducible refine Keep.ite (fun _ => ?_) (fun _ => ?_)
    | split)

theorem putRequest_keep (id : Nat) (q : Request) (s : State) : Keep 536870912 s (putRequest id q s) := by
  unfold putRequest
  iterate 30 (all_goals try first
    | with_reducible exact Keep.refl _ _
    | with_reducible assumption
    | (extract_lets +onlyGivenNames zz; refine Keep.cut zz ?_ (fun _ => ?_); (rotate_left; (try clear_value zz); rotate_right; subst zz))
    | (extract_lets +onlyGivenNames zz; subst zz)
    | with_reducible refine Keep.ite (fun _ => ?_) (fun _ => ?_)
    | split
    | with_reducible refine (Keep.of_xfe _ _).after ?_ (by decide))

theorem wordRefused_keep (id op req : Nat) (r : Region) (addr n : Nat) (s : State) : Keep 604048926 s (wordRefused id op req r addr n s) := by
  unfold wordRefused
  iterate 30 (all_goals try first
    | with_reducible exact Keep.refl _ _
    | with_reducible assumption
    | with_reducible refine (readMeets_keep ..).after ?_ (by decide)
    | with_reducible refine (sendMsg_keep ..).after ?_ (by decide)
    | with_reducible refine (fresh_keep (by assumption)).after ?_ (by decide)
    | with_reducible refine (fresh_keepP ..).after ?_ (by decide)
    | with_reducible refine Keep.ite (fun _ => ?_) (fun _ => ?_)
    | split)

theorem applyPacket_keep (id : Nat) (c : Conn) (port : Nat) (h : PktHdr) (payload : List Byte) (s : State) : Keep 604049406 s (applyPacket id c port h payload s) := by
  unfold applyPacket
  iterate 30 (all_goals try first
    | with_reducible exact Keep.refl _ _
    | with_reducible assumption
    | (extract_lets +onlyGivenNames zz; refine Keep.cut zz ?_ (fun _ => ?_); (rotate_left; (try clear_value zz); rotate_right; subst zz))
    | (extract_lets +onlyGivenNames zz; subst zz)
    | with_reducible refine (wordRefused_keep ..).after ?_ (by decide)
    | with_reducible refine (putRequest_keep ..).after ?_ (by decide)
    | with_reducible refine (readMeets_keep ..).after ?_ (by decide)
    | with_reducible refine (reduceInto_keep ..).after ?_ (by decide)
    | with_reducible refine (exactUpdate_keep ..).after ?_ (by decide)
    | with_reducible refine (sendMsg_keep ..).after ?_ (by decide)
    | with_reducible refine (putConn_keep ..).after ?_ (by decide)
    | with_reducible refine (directStore_keep ..).after ?_ (by decide)
    | with_reducible refine (markPoison_keep ..).after ?_ (by decide)
    | with_reducible refine (bump_keep ..).after ?_ (by decide)
    | with_reducible refine (bumpBy_keep ..).after ?_ (by decide)
    | with_reducible refine Keep.foldl (fun _ _ => ?_) ?_ _
    | with_reducible refine Keep.foldlFst (fun _ _ => ?_) ?_ _
    | with_reducible refine Keep.foldlSnd (fun _ _ => ?_) ?_ _
    | with_reducible refine Keep.ite (fun _ => ?_) (fun _ => ?_)
    | split)

theorem dropSender_keep (conn req : Nat) (s : State) : Keep 536870912 s (dropSender conn req s) := by
  unfold dropSender
  iterate 30 (all_goals try first
    | with_reducible exact Keep.refl _ _
    | with_reducible assumption
    | with_reducible refine (putConn_keep ..).after ?_ (by decide)
    | with_reducible refine Keep.ite (fun _ => ?_) (fun _ => ?_)
    | split)

theorem endRequest_keep (rid : Nat) (st : Status) (result : Nat) (s : State) : Keep 545336942 s (endRequest rid st result s) := by
  unfold endRequest
  iterate 30 (all_goals try first
    | with_reducible exact Keep.refl _ _
    | with_reducible assumption
    | (extract_lets +onlyGivenNames zz; refine Keep.cut zz ?_ (fun _ => ?_); (rotate_left; (try clear_value zz); rotate_right; subst zz))
    | (extract_lets +onlyGivenNames zz; subst zz)
    | with_reducible refine (dropSender_keep ..).after ?_ (by decide)
    | with_reducible refine (finishWork_keep ..).after ?_ (by decide)
    | with_reducible refine (fenceDone_keep ..).after ?_ (by decide)
    | with_reducible refine (loadDone_keep ..).after ?_ (by decide)
    | with_reducible refine Keep.ite (fun _ => ?_) (fun _ => ?_)
    | split
    | with_reducible refine (Keep.of_xfe _ _).after ?_ (by decide)
    | with_reducible refine (Keep.of_wheels _ _).after ?_ (by decide))

theorem responseDone_keep (id : Nat) (h : PktHdr) (s : State) : Keep 545337326 s (responseDone id h s) := by
  unfold responseDone
  iterate 30 (all_goals try first
    | with_reducible exact Keep.refl _ _
    | with_reducible assumption
    | (extract_lets +onlyGivenNames zz; refine Keep.cut zz ?_ (fun _ => ?_); (rotate_left; (try clear_value zz); rotate_right; subst zz))
    | (extract_lets +onlyGivenNames zz; subst zz)
    | with_reducible refine (endRequest_keep ..).after ?_ (by decide)
    | with_reducible refine (putConn_keep ..).after ?_ (by decide)
    | with_reducible refine (directStore_keep ..).after ?_ (by decide)
    | with_reducible refine (bump_keep ..).after ?_ (by decide)
    | with_reducible refine Keep.getD (fun _ _ => ?_) ?_
    | with_reducible refine Keep.ite (fun _ => ?_) (fun _ => ?_)
    | split)

theorem counterAdd_keep (h : PktHdr) (s : State) : Keep 68068 s (counterAdd h s) := by
  unfold counterAdd
  iterate 30 (all_goals try first
    | with_reducible exact Keep.refl _ _
    | with_reducible assumption
    | (extract_lets +onlyGivenNames zz; refine Keep.cut zz ?_ (fun _ => ?_); (rotate_left; (try clear_value zz); rotate_right; subst zz))
    | (extract_lets +onlyGivenNames zz; subst zz)
    | with_reducible refine (directStore_keep ..).after ?_ (by decide)
    | with_reducible refine Keep.ite (fun _ => ?_) (fun _ => ?_)
    | split)

theorem countAccess_keep (id sub : Nat) (s : State) : Keep 536948350 s (countAccess id sub s) := by
  unfold countAccess
  iterate 30 (all_goals try first
    | with_reducible exact Keep.refl _ _
    | with_reducible assumption
    | (extract_lets +onlyGivenNames zz; refine Keep.cut zz ?_ (fun _ => ?_); (rotate_left; (try clear_value zz); rotate_right; subst zz))
    | (extract_lets +onlyGivenNames zz; subst zz)
    | with_reducible refine (failConn_keep ..).after ?_ (by decide)
    | with_reducible refine (putConn_keep ..).after ?_ (by decide)
    | with_reducible refine Keep.ite (fun _ => ?_) (fun _ => ?_)
    | split)

theorem accessFail_keep (id port : Nat) (h : PktHdr) (raw : List Byte) (sub : Nat) (s : State) : Keep 536948350 s (accessFail id port h raw sub s) := by
  unfold accessFail
  iterate 30 (all_goals try first
    | with_reducible exact Keep.refl _ _
    | with_reducible assumption
    | (extract_lets +onlyGivenNames zz; refine Keep.cut zz ?_ (fun _ => ?_); (rotate_left; (try clear_value zz); rotate_right; subst zz))
    | (extract_lets +onlyGivenNames zz; subst zz)
    | with_reducible refine (countAccess_keep ..).after ?_ (by decide)
    | with_reducible refine (failRx_keep ..).after ?_ (by decide)
    | with_reducible refine (logEv_keep ..).after ?_ (by decide)
    | with_reducible refine (bump_keep ..).after ?_ (by decide)
    | with_reducible refine Keep.getD (fun _ _ => ?_) ?_
    | with_reducible refine Keep.ite (fun _ => ?_) (fun _ => ?_)
    | split)

theorem drainHeld_keep (id y1 : Nat) (y2 : State) : Keep 536948350 y2 (drainHeld id y1 y2) := by
  induction y1 generalizing id y2 with
  | zero => exact Keep.refl _ _
  | succ n ih =>
    unfold drainHeld
    iterate 30 (all_goals try first
      | with_reducible exact Keep.refl _ _
      | with_reducible assumption
      | (extract_lets +onlyGivenNames zz; refine Keep.cut zz ?_ (fun _ => ?_); (rotate_left; (try clear_value zz); rotate_right; subst zz))
      | (extract_lets +onlyGivenNames zz; subst zz)
      | with_reducible refine (ih ..).after ?_ (by decide)
      | with_reducible refine (accessFail_keep ..).after ?_ (by decide)
      | with_reducible refine (retireRx_keep ..).after ?_ (by decide)
      | with_reducible refine (sendAck_keep ..).after ?_ (by decide)
      | with_reducible refine (flightEnds_keep ..).after ?_ (by decide)
      | with_reducible refine (modRegion_keep ..).after ?_ (by decide)
      | with_reducible refine (sendMsg_keep ..).after ?_ (by decide)
      | with_reducible refine (putConn_keep ..).after ?_ (by decide)
      | with_reducible refine (bump_keep ..).after ?_ (by decide)
      | with_reducible refine Keep.ite (fun _ => ?_) (fun _ => ?_)
      | split)

theorem finishPacket_keep (id port : Nat) (h : PktHdr) (s : State) : Keep 545337342 s (finishPacket id port h s) := by
  unfold finishPacket
  iterate 30 (all_goals try first
    | with_reducible exact Keep.refl _ _
    | with_reducible assumption
    | (extract_lets +onlyGivenNames zz; refine Keep.cut zz ?_ (fun _ => ?_); (rotate_left; (try clear_value zz); rotate_right; subst zz))
    | (extract_lets +onlyGivenNames zz; subst zz)
    | with_reducible refine (drainHeld_keep ..).after ?_ (by decide)
    | with_reducible refine (counterAdd_keep ..).after ?_ (by decide)
    | with_reducible refine (responseDone_keep ..).after ?_ (by decide)
    | with_reducible refine (retireRx_keep ..).after ?_ (by decide)
    | with_reducible refine (sendAck_keep ..).after ?_ (by decide)
    | with_reducible refine (flightEnds_keep ..).after ?_ (by decide)
    | with_reducible refine (putConn_keep ..).after ?_ (by decide)
    | with_reducible refine (bump_keep ..).after ?_ (by decide)
    | with_reducible refine Keep.ite (fun _ => ?_) (fun _ => ?_)
    | split)

theorem placePacket_keep (port : Nat) (raw : List Byte) (s : State) : Keep 612446206 s (placePacket port raw s) := by
  unfold placePacket
  iterate 30 (all_goals try first
    | with_reducible exact Keep.refl _ _
    | with_reducible assumption
    | (extract_lets +onlyGivenNames zz; refine Keep.cut zz ?_ (fun _ => ?_); (rotate_left; (try clear_value zz); rotate_right; subst zz))
    | (extract_lets +onlyGivenNames zz; subst zz)
    | with_reducible refine (finishPacket_keep ..).after ?_ (by decide)
    | with_reducible refine (applyPacket_keep ..).after ?_ (by decide)
    | with_reducible refine (flightEnds_keep ..).after ?_ (by decide)
    | with_reducible refine (beginAccess_keep (by assumption)).after ?_ (by decide)
    | with_reducible refine Keep.getD (fun _ _ => ?_) ?_
    | with_reducible refine Keep.ite (fun _ => ?_) (fun _ => ?_)
    | split)

theorem rejectRx_keep (id port : Nat) (h : PktHdr) (raw : List Byte) (reason : Nat) (violation : Bool) (s : State) : Keep 536948350 s (rejectRx id port h raw reason violation s) := by
  unfold rejectRx
  iterate 30 (all_goals try first
    | with_reducible exact Keep.refl _ _
    | with_reducible assumption
    | (extract_lets +onlyGivenNames zz; refine Keep.cut zz ?_ (fun _ => ?_); (rotate_left; (try clear_value zz); rotate_right; subst zz))
    | (extract_lets +onlyGivenNames zz; subst zz)
    | with_reducible refine (drainHeld_keep ..).after ?_ (by decide)
    | with_reducible refine (failRx_keep ..).after ?_ (by decide)
    | with_reducible refine (nakConn_keep ..).after ?_ (by decide)
    | with_reducible refine (violate_keep ..).after ?_ (by decide)
    | with_reducible refine (putConn_keep ..).after ?_ (by decide)
    | with_reducible refine Keep.getD (fun _ _ => ?_) ?_
    | with_reducible refine Keep.ite (fun _ => ?_) (fun _ => ?_)
    | split)

theorem arrived_keep (id port : Nat) (h : PktHdr) (s : State) : Keep 536870924 s (arrived id port h s) := by
  unfold arrived
  iterate 30 (all_goals try first
    | with_reducible exact Keep.refl _ _
    | with_reducible assumption
    | (extract_lets +onlyGivenNames zz; refine Keep.cut zz ?_ (fun _ => ?_); (rotate_left; (try clear_value zz); rotate_right; subst zz))
    | (extract_lets +onlyGivenNames zz; subst zz)
    | with_reducible refine (sendAck_keep ..).after ?_ (by decide)
    | with_reducible refine (putConn_keep ..).after ?_ (by decide)
    | with_reducible refine Keep.ite (fun _ => ?_) (fun _ => ?_)
    | split)

theorem receiveData_keep (id port : Nat) (h : PktHdr) (raw : List Byte) (s : State) : Keep 612446206 s (receiveData id port h raw s) := by
  unfold receiveData
  iterate 30 (all_goals try first
    | with_reducible exact Keep.refl _ _
    | with_reducible assumption
    | (extract_lets +onlyGivenNames zz; refine Keep.cut zz ?_ (fun _ => ?_); (rotate_left; (try clear_value zz); rotate_right; subst zz))
    | (extract_lets +onlyGivenNames zz; subst zz)
    | with_reducible refine (arrived_keep ..).after ?_ (by decide)
    | with_reducible refine (rejectRx_keep ..).after ?_ (by decide)
    | with_reducible refine (placePacket_keep ..).after ?_ (by decide)
    | with_reducible refine (drainHeld_keep ..).after ?_ (by decide)
    | with_reducible refine (accessFail_keep ..).after ?_ (by decide)
    | with_reducible refine (countAccess_keep ..).after ?_ (by decide)
    | with_reducible refine (nakConn_keep ..).after ?_ (by decide)
    | with_reducible refine (sendAck_keep ..).after ?_ (by decide)
    | with_reducible refine (violate_keep ..).after ?_ (by decide)
    | with_reducible refine (modRegion_keep ..).after ?_ (by decide)
    | with_reducible refine (putConn_keep ..).after ?_ (by decide)
    | with_reducible refine (logFull_keep ..).after ?_ (by decide)
    | with_reducible refine (bump_keep ..).after ?_ (by decide)
    | with_reducible refine Keep.getD (fun _ _ => ?_) ?_
    | with_reducible refine Keep.ite (fun _ => ?_) (fun _ => ?_)
    | split)

theorem takeAck_keep (id : Nat) (h : PktHdr) (p : List Byte) (marked : Bool) (s : State) : Keep 536870924 s (takeAck id h p marked s) := by
  unfold takeAck
  iterate 30 (all_goals try first
    | with_reducible exact Keep.refl _ _
    | with_reducible assumption
    | (extract_lets +onlyGivenNames zz; refine Keep.cut zz ?_ (fun _ => ?_); (rotate_left; (try clear_value zz); rotate_right; subst zz))
    | (extract_lets +onlyGivenNames zz; subst zz)
    | with_reducible refine (resendCtl_keep ..).after ?_ (by decide)
    | with_reducible refine (pruneTx_keep ..).after ?_ (by decide)
    | with_reducible refine (tryClose_keep ..).after ?_ (by decide)
    | with_reducible refine (pumpAll_keep ..).after ?_ (by decide)
    | with_reducible refine (resendPkt_keep ..).after ?_ (by decide)
    | with_reducible refine (ctlAgain_keep ..).after ?_ (by decide)
    | with_reducible refine (putConn_keep ..).after ?_ (by decide)
    | with_reducible refine (bump_keep ..).after ?_ (by decide)
    | with_reducible refine Keep.getD (fun _ _ => ?_) ?_
    | with_reducible refine Keep.foldl (fun _ _ => ?_) ?_ _
    | with_reducible refine Keep.foldlFst (fun _ _ => ?_) ?_ _
    | with_reducible refine Keep.foldlSnd (fun _ _ => ?_) ?_ _
    | with_reducible refine Keep.ite (fun _ => ?_) (fun _ => ?_)
    | split)

theorem nakMessage_keep (id reason sub : Nat) (off : List Byte) (s : State) : Keep 536948350 s (nakMessage id reason sub off s) := by
  unfold nakMessage
  iterate 30 (all_goals try first
    | with_reducible exact Keep.refl _ _
    | with_reducible assumption
    | (extract_lets +onlyGivenNames zz; refine Keep.cut zz ?_ (fun _ => ?_); (rotate_left; (try clear_value zz); rotate_right; subst zz))
    | (extract_lets +onlyGivenNames zz; subst zz)
    | with_reducible refine (pruneTx_keep ..).after ?_ (by decide)
    | with_reducible refine (tryClose_keep ..).after ?_ (by decide)
    | with_reducible refine (endSent_keep ..).after ?_ (by decide)
    | with_reducible refine (pumpAll_keep ..).after ?_ (by decide)
    | with_reducible refine (modTx_keep ..).after ?_ (by decide)
    | with_reducible refine (putConn_keep ..).after ?_ (by decide)
    | with_reducible refine (logEv_keep ..).after ?_ (by decide)
    | with_reducible refine (bump_keep ..).after ?_ (by decide)
    | with_reducible refine Keep.getD (fun _ _ => ?_) ?_
    | with_reducible refine Keep.ite (fun _ => ?_) (fun _ => ?_)
    | split)

theorem sendConnect_keep (id : Nat) (s : State) : Keep 536870924 s (sendConnect id s) := by
  unfold sendConnect
  iterate 30 (all_goals try first
    | with_reducible exact Keep.refl _ _
    | with_reducible assumption
    | (extract_lets +onlyGivenNames zz; refine Keep.cut zz ?_ (fun _ => ?_); (rotate_left; (try clear_value zz); rotate_right; subst zz))
    | (extract_lets +onlyGivenNames zz; subst zz)
    | with_reducible refine (sendCtlTo_keep ..).after ?_ (by decide)
    | with_reducible refine Keep.ite (fun _ => ?_) (fun _ => ?_)
    | split)

theorem sendAccept_keep (id port : Nat) (s : State) : Keep 536870924 s (sendAccept id port s) := by
  unfold sendAccept
  iterate 30 (all_goals try first
    | with_reducible exact Keep.refl _ _
    | with_reducible assumption
    | with_reducible refine (sendCtl_keep ..).after ?_ (by decide)
    | with_reducible refine Keep.ite (fun _ => ?_) (fun _ => ?_)
    | split)

theorem uidChange_keep (node uid : Nat) (s : State) : Keep 536948350 s (uidChange node uid s) := by
  unfold uidChange
  iterate 30 (all_goals try first
    | with_reducible exact Keep.refl _ _
    | with_reducible assumption
    | with_reducible refine (failConn_keep ..).after ?_ (by decide)
    | with_reducible refine Keep.foldl (fun _ _ => ?_) ?_ _
    | with_reducible refine Keep.foldlFst (fun _ _ => ?_) ?_ _
    | with_reducible refine Keep.foldlSnd (fun _ _ => ?_) ?_ _
    | with_reducible refine Keep.ite (fun _ => ?_) (fun _ => ?_)
    | split)

theorem takeConnect_keep (port : Nat) (h : PktHdr) (raw : List Byte) (s : State) : Keep 536948350 s (takeConnect port h raw s) := by
  unfold takeConnect
  iterate 30 (all_goals try first
    | with_reducible exact Keep.refl _ _
    | with_reducible assumption
    | (extract_lets +onlyGivenNames zz; refine Keep.cut zz ?_ (fun _ => ?_); (rotate_left; (try clear_value zz); rotate_right; subst zz))
    | (extract_lets +onlyGivenNames zz; subst zz)
    | with_reducible refine (uidChange_keep ..).after ?_ (by decide)
    | with_reducible refine (sendAccept_keep ..).after ?_ (by decide)
    | with_reducible refine (sendNak_keep ..).after ?_ (by decide)
    | with_reducible refine (violate_keep ..).after ?_ (by decide)
    | with_reducible refine (makeRoom_keep ..).after ?_ (by decide)
    | with_reducible refine (putConn_keep ..).after ?_ (by decide)
    | with_reducible refine (complete_keep ..).after ?_ (by decide)
    | with_reducible refine (logFull_keep ..).after ?_ (by decide)
    | with_reducible refine (bump_keep ..).after ?_ (by decide)
    | with_reducible refine Keep.ite (fun _ => ?_) (fun _ => ?_)
    | split)

theorem takeAccept_keep (id port : Nat) (c : Conn) (h : PktHdr) (raw : List Byte) (s : State) : Keep 536948350 s (takeAccept id port c h raw s) := by
  unfold takeAccept
  iterate 30 (all_goals try first
    | with_reducible exact Keep.refl _ _
    | with_reducible assumption
    | (extract_lets +onlyGivenNames zz; refine Keep.cut zz ?_ (fun _ => ?_); (rotate_left; (try clear_value zz); rotate_right; subst zz))
    | (extract_lets +onlyGivenNames zz; subst zz)
    | with_reducible refine (uidChange_keep ..).after ?_ (by decide)
    | with_reducible refine (sendNak_keep ..).after ?_ (by decide)
    | with_reducible refine (violate_keep ..).after ?_ (by decide)
    | with_reducible refine (putConn_keep ..).after ?_ (by decide)
    | with_reducible refine (complete_keep ..).after ?_ (by decide)
    | with_reducible refine (logFull_keep ..).after ?_ (by decide)
    | with_reducible refine (bump_keep ..).after ?_ (by decide)
    | with_reducible refine Keep.ite (fun _ => ?_) (fun _ => ?_)
    | split)

theorem endConn_keep (id : Nat) (s : State) : Keep 536948350 s (endConn id s) := by
  unfold endConn
  iterate 30 (all_goals try first
    | with_reducible exact Keep.refl _ _
    | with_reducible assumption
    | with_reducible refine (releaseHeld_keep ..).after ?_ (by decide)
    | with_reducible refine (endSent_keep ..).after ?_ (by decide)
    | with_reducible refine (freeConn_keep ..).after ?_ (by decide)
    | with_reducible refine Keep.foldl (fun _ _ => ?_) ?_ _
    | with_reducible refine Keep.foldlFst (fun _ _ => ?_) ?_ _
    | with_reducible refine Keep.foldlSnd (fun _ _ => ?_) ?_ _
    | with_reducible refine Keep.ite (fun _ => ?_) (fun _ => ?_)
    | split)

theorem connCmd_keep (c : Conn) (st : Status) (s : State) : Keep 74316 s (connCmd c st s) := by
  unfold connCmd
  iterate 30 (all_goals try first
    | with_reducible exact Keep.refl _ _
    | with_reducible assumption
    | with_reducible refine (complete_keep ..).after ?_ (by decide)
    | with_reducible refine Keep.ite (fun _ => ?_) (fun _ => ?_)
    | split)

theorem sendClose_keep (id : Nat) (s : State) : Keep 536870924 s (sendClose id s) := by
  unfold sendClose
  iterate 30 (all_goals try first
    | with_reducible exact Keep.refl _ _
    | with_reducible assumption
    | with_reducible refine (sendCtlTo_keep ..).after ?_ (by decide)
    | with_reducible refine Keep.ite (fun _ => ?_) (fun _ => ?_)
    | split)

theorem resendNaked_keep (id port : Nat) (oh : PktHdr) (s : State) : Keep 536870924 s (resendNaked id port oh s) := by
  unfold resendNaked
  iterate 30 (all_goals try first
    | with_reducible exact Keep.refl _ _
    | with_reducible assumption
    | with_reducible refine (sendClose_keep ..).after ?_ (by decide)
    | with_reducible refine (sendAccept_keep ..).after ?_ (by decide)
    | with_reducible refine (sendAck_keep ..).after ?_ (by decide)
    | with_reducible refine (resendPkt_keep ..).after ?_ (by decide)
    | with_reducible refine Keep.ite (fun _ => ?_) (fun _ => ?_)
    | split)

theorem takeNak_keep (port : Nat) (h : PktHdr) (p : List Byte) (s : State) : Keep 536948350 s (takeNak port h p s) := by
  unfold takeNak
  iterate 30 (all_goals try first
    | with_reducible exact Keep.refl _ _
    | with_reducible assumption
    | (extract_lets +onlyGivenNames zz; refine Keep.cut zz ?_ (fun _ => ?_); (rotate_left; (try clear_value zz); rotate_right; subst zz))
    | (extract_lets +onlyGivenNames zz; subst zz)
    | with_reducible refine (resendNaked_keep ..).after ?_ (by decide)
    | with_reducible refine (connCmd_keep ..).after ?_ (by decide)
    | with_reducible refine (sendConnect_keep ..).after ?_ (by decide)
    | with_reducible refine (nakMessage_keep ..).after ?_ (by decide)
    | with_reducible refine (failConn_keep ..).after ?_ (by decide)
    | with_reducible refine (freeConn_keep ..).after ?_ (by decide)
    | with_reducible refine (logEv_keep ..).after ?_ (by decide)
    | with_reducible refine (bump_keep ..).after ?_ (by decide)
    | with_reducible refine Keep.ite (fun _ => ?_) (fun _ => ?_)
    | split)

theorem holdPacket_keep (id port : Nat) (marked : Bool) (raw : List Byte) (s : State) : Keep 536870924 s (holdPacket id port marked raw s) := by
  unfold holdPacket
  iterate 30 (all_goals try first
    | with_reducible exact Keep.refl _ _
    | with_reducible assumption
    | (extract_lets +onlyGivenNames zz; refine Keep.cut zz ?_ (fun _ => ?_); (rotate_left; (try clear_value zz); rotate_right; subst zz))
    | (extract_lets +onlyGivenNames zz; subst zz)
    | with_reducible refine (fetchRecord_keep ..).after ?_ (by decide)
    | with_reducible refine (bump_keep ..).after ?_ (by decide)
    | with_reducible refine Keep.ite (fun _ => ?_) (fun _ => ?_)
    | split
    | with_reducible refine (Keep.of_xfe _ _).after ?_ (by decide))

theorem rejectCtl_keep (id port part : Nat) (h : PktHdr) (raw : List Byte) (reason : Nat) (s : State) : Keep 536948350 s (rejectCtl id port part h raw reason s) := by
  unfold rejectCtl
  iterate 30 (all_goals try first
    | with_reducible exact Keep.refl _ _
    | with_reducible assumption
    | with_reducible refine (nakConn_keep ..).after ?_ (by decide)
    | with_reducible refine (violate_keep ..).after ?_ (by decide)
    | with_reducible refine Keep.ite (fun _ => ?_) (fun _ => ?_)
    | split)

theorem noteMark_keep (id : Nat) (marked : Bool) (s : State) : Keep 536870916 s (noteMark id marked s) := by
  unfold noteMark
  iterate 30 (all_goals try first
    | with_reducible exact Keep.refl _ _
    | with_reducible assumption
    | with_reducible refine (putConn_keep ..).after ?_ (by decide)
    | with_reducible refine (bump_keep ..).after ?_ (by decide)
    | with_reducible refine Keep.ite (fun _ => ?_) (fun _ => ?_)
    | split)

theorem checkedCtl_keep {id port : Nat} {c : Conn} {h : PktHdr} {raw : List Byte} {s : State} {t0 : State} {x1 : Option (List Byte)} (h0 : checkedCtl id port c h raw s = (t0, x1)) : Keep 536948350 s t0 := by
  unfold checkedCtl at h0
  try dsimp only at h0
  repeat' (first | split at h0)
  all_goals try (exact absurd h0 (by simp only [reduceCtorEq, not_false_eq_true]))
  all_goals try (with_reducible obtain ⟨rfl, rfl⟩ := Prod.mk.inj h0)
  iterate 30 (all_goals try first
    | with_reducible exact Keep.refl _ _
    | with_reducible assumption
    | with_reducible refine (rejectCtl_keep ..).after ?_ (by decide)
    | with_reducible refine (nakConn_keep ..).after ?_ (by decide)
    | with_reducible refine (sendAck_keep ..).after ?_ (by decide)
    | with_reducible refine (putConn_keep ..).after ?_ (by decide)
    | with_reducible refine (logFull_keep ..).after ?_ (by decide)
    | with_reducible refine (bump_keep ..).after ?_ (by decide)
    | with_reducible refine Keep.pairIte (by assumption) (fun _ => ?_)
    | with_reducible refine Keep.pairIteElse (by assumption) (fun _ => ?_)
    | with_reducible refine Keep.ite (fun _ => ?_) (fun _ => ?_)
    | split)
theorem checkedCtl_keepP (id port : Nat) (c : Conn) (h : PktHdr) (raw : List Byte) (s : State) : Keep 536948350 s (checkedCtl id port c h raw s).1 := checkedCtl_keep (id := id) (port := port) (c := c) (h := h) (raw := raw) (s := s) rfl

theorem receiveCtl_keep (id port : Nat) (c : Conn) (h : PktHdr) (raw : List Byte) (marked : Bool) (s : State) : Keep 536948350 s (receiveCtl id port c h raw marked s) := by
  unfold receiveCtl
  iterate 30 (all_goals try first
    | with_reducible exact Keep.refl _ _
    | with_reducible assumption
    | with_reducible refine (checkedCtl_keep (by assumption)).after ?_ (by decide)
    | with_reducible refine (checkedCtl_keepP ..).after ?_ (by decide)
    | with_reducible refine (connCmd_keep ..).after ?_ (by decide)
    | with_reducible refine (endConn_keep ..).after ?_ (by decide)
    | with_reducible refine (takeAck_keep ..).after ?_ (by decide)
    | with_reducible refine (sendCtl_keep ..).after ?_ (by decide)
    | with_reducible refine Keep.ite (fun _ => ?_) (fun _ => ?_)
    | split)

theorem receiveConn_keep (port : Nat) (h : PktHdr) (raw : List Byte) (marked : Bool) (s : State) : Keep 612446206 s (receiveConn port h raw marked s) := by
  unfold receiveConn
  iterate 30 (all_goals try first
    | with_reducible exact Keep.refl _ _
    | with_reducible assumption
    | (extract_lets +onlyGivenNames zz; refine Keep.cut zz ?_ (fun _ => ?_); (rotate_left; (try clear_value zz); rotate_right; subst zz))
    | (extract_lets +onlyGivenNames zz; subst zz)
    | with_reducible refine (receiveCtl_keep ..).after ?_ (by decide)
    | with_reducible refine (noteMark_keep ..).after ?_ (by decide)
    | with_reducible refine (rejectCtl_keep ..).after ?_ (by decide)
    | with_reducible refine (holdPacket_keep ..).after ?_ (by decide)
    | with_reducible refine (receiveData_keep ..).after ?_ (by decide)
    | with_reducible refine (rejectRx_keep ..).after ?_ (by decide)
    | with_reducible refine (sendNak_keep ..).after ?_ (by decide)
    | with_reducible refine (touchConn_keep ..).after ?_ (by decide)
    | with_reducible refine (bump_keep ..).after ?_ (by decide)
    | with_reducible refine Keep.getD (fun _ _ => ?_) ?_
    | with_reducible refine Keep.ite (fun _ => ?_) (fun _ => ?_)
    | split)

theorem receiveUnlisted_keep (port : Nat) (h : PktHdr) (raw : List Byte) (marked : Bool) (s : State) : Keep 536948350 s (receiveUnlisted port h raw marked s) := by
  unfold receiveUnlisted
  iterate 30 (all_goals try first
    | with_reducible exact Keep.refl _ _
    | with_reducible assumption
    | (extract_lets +onlyGivenNames zz; refine Keep.cut zz ?_ (fun _ => ?_); (rotate_left; (try clear_value zz); rotate_right; subst zz))
    | (extract_lets +onlyGivenNames zz; subst zz)
    | with_reducible refine (noteMark_keep ..).after ?_ (by decide)
    | with_reducible refine (holdPacket_keep ..).after ?_ (by decide)
    | with_reducible refine (rejectRx_keep ..).after ?_ (by decide)
    | with_reducible refine (sendNak_keep ..).after ?_ (by decide)
    | with_reducible refine (portCutoff_keep ..).after ?_ (by decide)
    | with_reducible refine (violate_keep ..).after ?_ (by decide)
    | with_reducible refine Keep.ite (fun _ => ?_) (fun _ => ?_)
    | split)

theorem receiveAccept_keep (port : Nat) (h : PktHdr) (raw : List Byte) (marked : Bool) (s : State) : Keep 536948350 s (receiveAccept port h raw marked s) := by
  unfold receiveAccept
  iterate 30 (all_goals try first
    | with_reducible exact Keep.refl _ _
    | with_reducible assumption
    | (extract_lets +onlyGivenNames zz; refine Keep.cut zz ?_ (fun _ => ?_); (rotate_left; (try clear_value zz); rotate_right; subst zz))
    | (extract_lets +onlyGivenNames zz; subst zz)
    | with_reducible refine (checkedCtl_keep (by assumption)).after ?_ (by decide)
    | with_reducible refine (checkedCtl_keepP ..).after ?_ (by decide)
    | with_reducible refine (noteMark_keep ..).after ?_ (by decide)
    | with_reducible refine (rejectCtl_keep ..).after ?_ (by decide)
    | with_reducible refine (holdPacket_keep ..).after ?_ (by decide)
    | with_reducible refine (takeAccept_keep ..).after ?_ (by decide)
    | with_reducible refine (sendNak_keep ..).after ?_ (by decide)
    | with_reducible refine (portCutoff_keep ..).after ?_ (by decide)
    | with_reducible refine (bump_keep ..).after ?_ (by decide)
    | with_reducible refine Keep.getD (fun _ _ => ?_) ?_
    | with_reducible refine Keep.ite (fun _ => ?_) (fun _ => ?_)
    | split)

theorem nakOnConn_keep (id port : Nat) (c : Conn) (h : PktHdr) (raw : List Byte) (marked : Bool) (s : State) : Keep 536948350 s (nakOnConn id port c h raw marked s) := by
  unfold nakOnConn
  iterate 30 (all_goals try first
    | with_reducible exact Keep.refl _ _
    | with_reducible assumption
    | (extract_lets +onlyGivenNames zz; refine Keep.cut zz ?_ (fun _ => ?_); (rotate_left; (try clear_value zz); rotate_right; subst zz))
    | (extract_lets +onlyGivenNames zz; subst zz)
    | with_reducible refine (noteMark_keep ..).after ?_ (by decide)
    | with_reducible refine (takeNak_keep ..).after ?_ (by decide)
    | with_reducible refine (sendAck_keep ..).after ?_ (by decide)
    | with_reducible refine (violate_keep ..).after ?_ (by decide)
    | with_reducible refine (putConn_keep ..).after ?_ (by decide)
    | with_reducible refine (logFull_keep ..).after ?_ (by decide)
    | with_reducible refine (bump_keep ..).after ?_ (by decide)
    | with_reducible refine Keep.getD (fun _ _ => ?_) ?_
    | with_reducible refine Keep.ite (fun _ => ?_) (fun _ => ?_)
    | split)

theorem nakOffConn_keep (port : Nat) (h : PktHdr) (raw : List Byte) (s : State) : Keep 536948350 s (nakOffConn port h raw s) := by
  unfold nakOffConn
  iterate 30 (all_goals try first
    | with_reducible exact Keep.refl _ _
    | with_reducible assumption
    | with_reducible refine (takeNak_keep ..).after ?_ (by decide)
    | with_reducible refine (portCutoff_keep ..).after ?_ (by decide)
    | with_reducible refine (violate_keep ..).after ?_ (by decide)
    | with_reducible refine Keep.ite (fun _ => ?_) (fun _ => ?_)
    | split)

theorem receiveNak_keep (port : Nat) (h : PktHdr) (raw : List Byte) (marked : Bool) (s : State) : Keep 536948350 s (receiveNak port h raw marked s) := by
  unfold receiveNak
  iterate 30 (all_goals try first
    | with_reducible exact Keep.refl _ _
    | with_reducible assumption
    | (extract_lets +onlyGivenNames zz; refine Keep.cut zz ?_ (fun _ => ?_); (rotate_left; (try clear_value zz); rotate_right; subst zz))
    | (extract_lets +onlyGivenNames zz; subst zz)
    | with_reducible refine (nakOffConn_keep ..).after ?_ (by decide)
    | with_reducible refine (nakOnConn_keep ..).after ?_ (by decide)
    | with_reducible refine (holdPacket_keep ..).after ?_ (by decide)
    | with_reducible refine (bump_keep ..).after ?_ (by decide)
    | with_reducible refine Keep.ite (fun _ => ?_) (fun _ => ?_)
    | split)

theorem receiveLocal_keep (port : Nat) (h : PktHdr) (raw : List Byte) (s : State) : Keep 536948350 s (receiveLocal port h raw s) := by
  unfold receiveLocal
  iterate 30 (all_goals try first
    | with_reducible exact Keep.refl _ _
    | with_reducible assumption
    | with_reducible refine (sendNak_keep ..).after ?_ (by decide)
    | with_reducible refine (portCutoff_keep ..).after ?_ (by decide)
    | with_reducible refine (violate_keep ..).after ?_ (by decide)
    | with_reducible refine Keep.ite (fun _ => ?_) (fun _ => ?_)
    | split)

theorem receiveChecked_keep (port : Nat) (h : PktHdr) (raw : List Byte) (marked : Bool) (s : State) : Keep 612446206 s (receiveChecked port h raw marked s) := by
  unfold receiveChecked
  iterate 30 (all_goals try first
    | with_reducible exact Keep.refl _ _
    | with_reducible assumption
    | with_reducible refine (receiveLocal_keep ..).after ?_ (by decide)
    | with_reducible refine (receiveNak_keep ..).after ?_ (by decide)
    | with_reducible refine (receiveAccept_keep ..).after ?_ (by decide)
    | with_reducible refine (receiveUnlisted_keep ..).after ?_ (by decide)
    | with_reducible refine (receiveConn_keep ..).after ?_ (by decide)
    | with_reducible refine (takeConnect_keep ..).after ?_ (by decide)
    | with_reducible refine (portCutoff_keep ..).after ?_ (by decide)
    | with_reducible refine Keep.ite (fun _ => ?_) (fun _ => ?_)
    | split)

theorem receive_keep (port : Nat) (raw : List Byte) (fill : Nat) (s : State) : Keep 612446206 s (receive port raw fill s) := by
  unfold receive
  iterate 30 (all_goals try first
    | with_reducible exact Keep.refl _ _
    | with_reducible assumption
    | (extract_lets +onlyGivenNames zz; refine Keep.cut zz ?_ (fun _ => ?_); (rotate_left; (try clear_value zz); rotate_right; subst zz))
    | (extract_lets +onlyGivenNames zz; subst zz)
    | with_reducible refine (receiveChecked_keep ..).after ?_ (by decide)
    | with_reducible refine (portSeen_keep ..).after ?_ (by decide)
    | with_reducible refine (fetchWaiting_keep ..).after ?_ (by decide)
    | with_reducible refine (bump_keep ..).after ?_ (by decide)
    | with_reducible refine Keep.ite (fun _ => ?_) (fun _ => ?_)
    | split)

theorem receiveOp_keep (op port : Nat) (raw : List Byte) (fill : Nat) (s : State) : Keep 612446206 s (receiveOp op port raw fill s) := by
  unfold receiveOp
  iterate 30 (all_goals try first
    | with_reducible exact Keep.refl _ _
    | with_reducible assumption
    | (extract_lets +onlyGivenNames zz; refine Keep.cut zz ?_ (fun _ => ?_); (rotate_left; (try clear_value zz); rotate_right; subst zz))
    | (extract_lets +onlyGivenNames zz; subst zz)
    | with_reducible refine (receive_keep ..).after ?_ (by decide)
    | with_reducible refine Keep.ite (fun _ => ?_) (fun _ => ?_)
    | split)

theorem ownFlush_keep (id cls : Nat) (what : ReqFor) (s : State) : Keep 536870924 s (ownFlush id cls what s) := by
  unfold ownFlush
  iterate 30 (all_goals try first
    | with_reducible exact Keep.refl _ _
    | with_reducible assumption
    | with_reducible refine (newRequest_keep (by assumption)).after ?_ (by decide)
    | with_reducible refine (newRequest_keepP ..).after ?_ (by decide)
    | with_reducible refine (sendMsg_keep ..).after ?_ (by decide)
    | with_reducible refine Keep.ite (fun _ => ?_) (fun _ => ?_)
    | split)

theorem ownWrite_keep (id key addr : Nat) (ctr b : List Byte) (s : State) : Keep 536874510 s (ownWrite id key addr ctr b s) := by
  unfold ownWrite
  iterate 30 (all_goals try first
    | with_reducible exact Keep.refl _ _
    | with_reducible assumption
    | (extract_lets +onlyGivenNames zz; refine Keep.cut zz ?_ (fun _ => ?_); (rotate_left; (try clear_value zz); rotate_right; subst zz))
    | (extract_lets +onlyGivenNames zz; subst zz)
    | with_reducible refine (senderRefusal_keep ..).after ?_ (by decide)
    | with_reducible refine (sendMsg_keep ..).after ?_ (by decide)
    | with_reducible refine Keep.foldl (fun _ _ => ?_) ?_ _
    | with_reducible refine Keep.foldlFst (fun _ _ => ?_) ?_ _
    | with_reducible refine Keep.foldlSnd (fun _ _ => ?_) ?_ _
    | with_reducible refine Keep.ite (fun _ => ?_) (fun _ => ?_)
    | split)

theorem wheelWrite_keep (part node key addr ctr inc : Nat) (b : List Byte) (s : State) : Keep 536874510 s (wheelWrite part node key addr ctr inc b s) := by
  unfold wheelWrite
  iterate 30 (all_goals try first
    | with_reducible exact Keep.refl _ _
    | with_reducible assumption
    | with_reducible refine (ownWrite_keep ..).after ?_ (by decide)
    | with_reducible refine Keep.ite (fun _ => ?_) (fun _ => ?_)
    | split)

theorem nodeWrite_keep (part node handle spot : Nat) (b : List Byte) (s : State) : Keep 536874510 s (nodeWrite part node handle spot b s) := by
  unfold nodeWrite
  iterate 30 (all_goals try first
    | with_reducible exact Keep.refl _ _
    | with_reducible assumption
    | with_reducible refine (ownWrite_keep ..).after ?_ (by decide)
    | with_reducible refine Keep.ite (fun _ => ?_) (fun _ => ?_)
    | split)

theorem wheelFlush_keep (part node wheel : Nat) (s : State) : Keep 536870924 s (wheelFlush part node wheel s) := by
  unfold wheelFlush
  iterate 30 (all_goals try first
    | with_reducible exact Keep.refl _ _
    | with_reducible assumption
    | with_reducible refine (ownFlush_keep ..).after ?_ (by decide)
    | with_reducible refine Keep.ite (fun _ => ?_) (fun _ => ?_)
    | split)

end Sys2Proof.Machine
end

