-- ==== Sys2Proof/Laws/KeepPme.lean ====
section
/-!
SUPPORT. Laws/KeepPme.lean: what each operation of Machine/Pme.lean can change (Laws/Keep.lean).
-/
set_option Elab.async false
set_option linter.all false
namespace Sys2Proof.Machine

open Sys2Proof

theorem modPme_keep (f : Pme → Pme) (s : State) : Keep 268435456 s (modPme f s) := by
  unfold modPme
  iterate 30 (all_goals try first
    | with_reducible exact Keep.refl _ _
    | with_reducible assumption
    | with_reducible refine Keep.ite (fun _ => ?_) (fun _ => ?_)
    | split
    | with_reducible refine (Keep.of_pme _ _).after ?_ (by decide))

theorem writeSet_keep (set : Nat) (l : List (Option PmeEntry)) (s : State) : Keep 268435456 s (writeSet set l s) := by
  unfold writeSet
  iterate 30 (all_goals try first
    | with_reducible exact Keep.refl _ _
    | with_reducible assumption
    | with_reducible refine (modPme_keep ..).after ?_ (by decide)
    | with_reducible refine Keep.foldl (fun _ _ => ?_) ?_ _
    | with_reducible refine Keep.foldlFst (fun _ _ => ?_) ?_ _
    | with_reducible refine Keep.foldlSnd (fun _ _ => ?_) ?_ _
    | with_reducible refine Keep.ite (fun _ => ?_) (fun _ => ?_)
    | split)

theorem dropColumnPages_keep (c : Column) (s : State) : Keep 100667374 s (dropColumnPages c s) := by
  unfold dropColumnPages
  iterate 30 (all_goals try first
    | with_reducible exact Keep.refl _ _
    | with_reducible assumption
    | (extract_lets +onlyGivenNames zz; refine Keep.cut zz ?_ (fun _ => ?_); (rotate_left; (try clear_value zz); rotate_right; subst zz))
    | (extract_lets +onlyGivenNames zz; subst zz)
    | with_reducible refine (dropRef_keep ..).after ?_ (by decide)
    | with_reducible refine (retryRecovery_keep ..).after ?_ (by decide)
    | with_reducible refine (releaseSlot_keep ..).after ?_ (by decide)
    | with_reducible refine Keep.foldl (fun _ _ => ?_) ?_ _
    | with_reducible refine Keep.foldlFst (fun _ _ => ?_) ?_ _
    | with_reducible refine Keep.foldlSnd (fun _ _ => ?_) ?_ _
    | with_reducible refine Keep.ite (fun _ => ?_) (fun _ => ?_)
    | split)

theorem unholdFuel_keep (y0 y1 : Nat) (y2 : State) : Keep 369102830 y2 (unholdFuel y0 y1 y2) := by
  induction y0 generalizing y1 y2 with
  | zero => exact Keep.refl _ _
  | succ n ih =>
    unfold unholdFuel
    iterate 30 (all_goals try first
      | with_reducible exact Keep.refl _ _
      | with_reducible assumption
      | (extract_lets +onlyGivenNames zz; refine Keep.cut zz ?_ (fun _ => ?_); (rotate_left; (try clear_value zz); rotate_right; subst zz))
      | (extract_lets +onlyGivenNames zz; subst zz)
      | with_reducible refine (ih ..).after ?_ (by decide)
      | with_reducible refine (dropColumnPages_keep ..).after ?_ (by decide)
      | with_reducible refine (modPme_keep ..).after ?_ (by decide)
      | with_reducible refine Keep.ite (fun _ => ?_) (fun _ => ?_)
      | split)

theorem unhold_keep (i : Nat) (s : State) : Keep 369102830 s (unhold i s) := by
  unfold unhold
  iterate 30 (all_goals try first
    | with_reducible exact Keep.refl _ _
    | with_reducible assumption
    | with_reducible refine (unholdFuel_keep ..).after ?_ (by decide)
    | with_reducible refine Keep.ite (fun _ => ?_) (fun _ => ?_)
    | split)

theorem freeColumn_keep (i : Nat) (s : State) : Keep 369102830 s (freeColumn i s) := by
  unfold freeColumn
  iterate 30 (all_goals try first
    | with_reducible exact Keep.refl _ _
    | with_reducible assumption
    | with_reducible refine (unhold_keep ..).after ?_ (by decide)
    | with_reducible refine (modPme_keep ..).after ?_ (by decide)
    | with_reducible refine Keep.ite (fun _ => ?_) (fun _ => ?_)
    | split)

theorem markAway_keep (e : PmeEntry) (out : Bool) (s : State) : Keep 268435456 s (markAway e out s) := by
  unfold markAway
  iterate 30 (all_goals try first
    | with_reducible exact Keep.refl _ _
    | with_reducible assumption
    | with_reducible refine (modPme_keep ..).after ?_ (by decide)
    | with_reducible refine Keep.ite (fun _ => ?_) (fun _ => ?_)
    | split)

theorem entryGone_keep (e : PmeEntry) (s : State) : Keep 369102830 s (entryGone e s) := by
  unfold entryGone
  iterate 30 (all_goals try first
    | with_reducible exact Keep.refl _ _
    | with_reducible assumption
    | with_reducible refine (unhold_keep ..).after ?_ (by decide)
    | with_reducible refine (emit_keep ..).after ?_ (by decide)
    | with_reducible refine Keep.ite (fun _ => ?_) (fun _ => ?_)
    | split)

theorem mateDrop_keep (e : PmeEntry) (s : State) : Keep 8 s (mateDrop e s) := by
  unfold mateDrop
  iterate 30 (all_goals try first
    | with_reducible exact Keep.refl _ _
    | with_reducible assumption
    | with_reducible refine (emit_keep ..).after ?_ (by decide)
    | with_reducible refine Keep.ite (fun _ => ?_) (fun _ => ?_)
    | split)

theorem putChain_keep (h : Nat) (l : List Bucket) (s : State) : Keep 268435456 s (putChain h l s) := by
  unfold putChain
  iterate 30 (all_goals try first
    | with_reducible exact Keep.refl _ _
    | with_reducible assumption
    | with_reducible refine (modPme_keep ..).after ?_ (by decide)
    | with_reducible refine Keep.ite (fun _ => ?_) (fun _ => ?_)
    | split)

theorem settleChain_keep (h : Nat) (l : List Bucket) (s : State) : Keep 268435458 s (settleChain h l s) := by
  unfold settleChain
  iterate 30 (all_goals try first
    | with_reducible exact Keep.refl _ _
    | with_reducible assumption
    | with_reducible refine (putChain_keep ..).after ?_ (by decide)
    | with_reducible refine (setF_keep ..).after ?_ (by decide)
    | with_reducible refine Keep.ite (fun _ => ?_) (fun _ => ?_)
    | split)

theorem coldInsert_keep {anchor : Nat} {e : PmeEntry} {s : State} {t0 : State} {x1 : Bool} (h : coldInsert anchor e s = (t0, x1)) : Keep 268435462 s t0 := by
  unfold coldInsert at h
  try dsimp only at h
  repeat' (first | split at h)
  all_goals try (exact absurd h (by simp only [reduceCtorEq, not_false_eq_true]))
  all_goals try (with_reducible obtain ⟨rfl, rfl⟩ := Prod.mk.inj h)
  iterate 30 (all_goals try first
    | with_reducible exact Keep.refl _ _
    | with_reducible assumption
    | (extract_lets +onlyGivenNames zz; refine Keep.cut zz ?_ (fun _ => ?_); (rotate_left; (try clear_value zz); rotate_right; subst zz))
    | (extract_lets +onlyGivenNames zz; subst zz)
    | with_reducible refine (putChain_keep ..).after ?_ (by decide)
    | with_reducible refine (bump_keep ..).after ?_ (by decide)
    | with_reducible refine (setF_keep ..).after ?_ (by decide)
    | with_reducible refine Keep.pairIte (by assumption) (fun _ => ?_)
    | with_reducible refine Keep.pairIteElse (by assumption) (fun _ => ?_)
    | with_reducible refine Keep.ite (fun _ => ?_) (fun _ => ?_)
    | split)
theorem coldInsert_keepP (anchor : Nat) (e : PmeEntry) (s : State) : Keep 268435462 s (coldInsert anchor e s).1 := coldInsert_keep (anchor := anchor) (e := e) (s := s) rfl

theorem toCold_keep {e : PmeEntry} {s : State} {t0 : State} {x1 : Bool} (h : toCold e s = (t0, x1)) : Keep 369102830 s t0 := by
  unfold toCold at h
  try dsimp only at h
  repeat' (first | split at h)
  all_goals try (exact absurd h (by simp only [reduceCtorEq, not_false_eq_true]))
  all_goals try (with_reducible obtain ⟨rfl, rfl⟩ := Prod.mk.inj h)
  iterate 30 (all_goals try first
    | with_reducible exact Keep.refl _ _
    | with_reducible assumption
    | with_reducible refine (coldInsert_keep (by assumption)).after ?_ (by decide)
    | with_reducible refine (coldInsert_keepP ..).after ?_ (by decide)
    | with_reducible refine (entryGone_keep ..).after ?_ (by decide)
    | with_reducible refine Keep.pairIte (by assumption) (fun _ => ?_)
    | with_reducible refine Keep.pairIteElse (by assumption) (fun _ => ?_)
    | with_reducible refine Keep.ite (fun _ => ?_) (fun _ => ?_)
    | split)
theorem toCold_keepP (e : PmeEntry) (s : State) : Keep 369102830 s (toCold e s).1 := toCold_keep (e := e) (s := s) rfl

theorem removeAt_keep (y0 : Place) (y1 : State) : Keep 268435458 y1 (removeAt y0 y1) := by
  unfold removeAt
  iterate 30 (all_goals try first
    | with_reducible exact Keep.refl _ _
    | with_reducible assumption
    | (extract_lets +onlyGivenNames zz; refine Keep.cut zz ?_ (fun _ => ?_); (rotate_left; (try clear_value zz); rotate_right; subst zz))
    | (extract_lets +onlyGivenNames zz; subst zz)
    | with_reducible refine (settleChain_keep ..).after ?_ (by decide)
    | with_reducible refine (modPme_keep ..).after ?_ (by decide)
    | with_reducible refine Keep.ite (fun _ => ?_) (fun _ => ?_)
    | split)

theorem dropAt_keep (p : Place) (s : State) : Keep 369102830 s (dropAt p s) := by
  unfold dropAt
  iterate 30 (all_goals try first
    | with_reducible exact Keep.refl _ _
    | with_reducible assumption
    | with_reducible refine (removeAt_keep ..).after ?_ (by decide)
    | with_reducible refine (mateDrop_keep ..).after ?_ (by decide)
    | with_reducible refine (entryGone_keep ..).after ?_ (by decide)
    | with_reducible refine Keep.ite (fun _ => ?_) (fun _ => ?_)
    | split)

theorem hitAt_keep (p : Place) (s : State) : Keep 268435456 s (hitAt p s) := by
  unfold hitAt
  iterate 30 (all_goals try first
    | with_reducible exact Keep.refl _ _
    | with_reducible assumption
    | with_reducible refine (modPme_keep ..).after ?_ (by decide)
    | with_reducible refine Keep.ite (fun _ => ?_) (fun _ => ?_)
    | split)

theorem beyondHoles_keep {s : State} {x0 : Nat} {t0 : State} (h : beyondHoles s = (x0, t0)) : Keep 16 s t0 := by
  unfold beyondHoles at h
  try dsimp only at h
  repeat' (first | split at h)
  all_goals try (exact absurd h (by simp only [reduceCtorEq, not_false_eq_true]))
  all_goals try (with_reducible obtain ⟨rfl, rfl⟩ := Prod.mk.inj h)
  iterate 30 (all_goals try first
    | with_reducible exact Keep.refl _ _
    | with_reducible assumption
    | with_reducible refine Keep.pairIte (by assumption) (fun _ => ?_)
    | with_reducible refine Keep.pairIteElse (by assumption) (fun _ => ?_)
    | with_reducible refine Keep.ite (fun _ => ?_) (fun _ => ?_)
    | split
    | with_reducible refine (Keep.of_free _ _).after ?_ (by decide))
theorem beyondHoles_keepP (s : State) : Keep 16 s (beyondHoles s).2 := beyondHoles_keep (s := s) rfl

theorem maintainSet_keep (set : Nat) (s : State) : Keep 268435484 s (maintainSet set s) := by
  unfold maintainSet
  iterate 30 (all_goals try first
    | with_reducible exact Keep.refl _ _
    | with_reducible assumption
    | (extract_lets +onlyGivenNames zz; refine Keep.cut zz ?_ (fun _ => ?_); (rotate_left; (try clear_value zz); rotate_right; subst zz))
    | (extract_lets +onlyGivenNames zz; subst zz)
    | with_reducible refine (beyondHoles_keep (by assumption)).after ?_ (by decide)
    | with_reducible refine (beyondHoles_keepP ..).after ?_ (by decide)
    | with_reducible refine (markAway_keep ..).after ?_ (by decide)
    | with_reducible refine (writeSet_keep ..).after ?_ (by decide)
    | with_reducible refine (emit_keep ..).after ?_ (by decide)
    | with_reducible refine (bumpBy_keep ..).after ?_ (by decide)
    | with_reducible refine Keep.ite (fun _ => ?_) (fun _ => ?_)
    | split)

theorem pmeMakeRoom_keep (n set : Nat) (mirror : Bool) (s : State) : Keep 369102830 s (pmeMakeRoom n set mirror s) := by
  unfold pmeMakeRoom
  iterate 30 (all_goals try first
    | with_reducible exact Keep.refl _ _
    | with_reducible assumption
    | (extract_lets +onlyGivenNames zz; refine Keep.cut zz ?_ (fun _ => ?_); (rotate_left; (try clear_value zz); rotate_right; subst zz))
    | (extract_lets +onlyGivenNames zz; subst zz)
    | with_reducible refine (removeAt_keep ..).after ?_ (by decide)
    | with_reducible refine (toCold_keep (by assumption)).after ?_ (by decide)
    | with_reducible refine (toCold_keepP ..).after ?_ (by decide)
    | with_reducible refine (markAway_keep ..).after ?_ (by decide)
    | with_reducible refine (emit_keep ..).after ?_ (by decide)
    | with_reducible refine (bump_keep ..).after ?_ (by decide)
    | with_reducible refine Keep.ite (fun _ => ?_) (fun _ => ?_)
    | split)

theorem chipInsert_keep (n set : Nat) (e : PmeEntry) (mirror : Bool) (s : State) : Keep 369102846 s (chipInsert n set e mirror s) := by
  unfold chipInsert
  iterate 30 (all_goals try first
    | with_reducible exact Keep.refl _ _
    | with_reducible assumption
    | (extract_lets +onlyGivenNames zz; refine Keep.cut zz ?_ (fun _ => ?_); (rotate_left; (try clear_value zz); rotate_right; subst zz))
    | (extract_lets +onlyGivenNames zz; subst zz)
    | with_reducible refine (pmeMakeRoom_keep ..).after ?_ (by decide)
    | with_reducible refine (maintainSet_keep ..).after ?_ (by decide)
    | with_reducible refine (writeSet_keep ..).after ?_ (by decide)
    | with_reducible refine (emit_keep ..).after ?_ (by decide)
    | with_reducible refine (bump_keep ..).after ?_ (by decide)
    | with_reducible refine Keep.ite (fun _ => ?_) (fun _ => ?_)
    | split)

theorem insertEntry_keep {anchor : Nat} {e : PmeEntry} {s : State} {t0 : State} {x1 : Bool} (h : insertEntry anchor e s = (t0, x1)) : Keep 369102846 s t0 := by
  unfold insertEntry at h
  try dsimp only at h
  repeat' (first | split at h)
  all_goals try (exact absurd h (by simp only [reduceCtorEq, not_false_eq_true]))
  all_goals try (with_reducible obtain ⟨rfl, rfl⟩ := Prod.mk.inj h)
  iterate 30 (all_goals try first
    | with_reducible exact Keep.refl _ _
    | with_reducible assumption
    | (extract_lets +onlyGivenNames zz; refine Keep.cut zz ?_ (fun _ => ?_); (rotate_left; (try clear_value zz); rotate_right; subst zz))
    | (extract_lets +onlyGivenNames zz; subst zz)
    | with_reducible refine (chipInsert_keep ..).after ?_ (by decide)
    | with_reducible refine (toCold_keep (by assumption)).after ?_ (by decide)
    | with_reducible refine (toCold_keepP ..).after ?_ (by decide)
    | with_reducible refine (markAway_keep ..).after ?_ (by decide)
    | with_reducible refine (emit_keep ..).after ?_ (by decide)
    | with_reducible refine Keep.pairIte (by assumption) (fun _ => ?_)
    | with_reducible refine Keep.pairIteElse (by assumption) (fun _ => ?_)
    | with_reducible refine Keep.ite (fun _ => ?_) (fun _ => ?_)
    | split)
theorem insertEntry_keepP (anchor : Nat) (e : PmeEntry) (s : State) : Keep 369102846 s (insertEntry anchor e s).1 := insertEntry_keep (anchor := anchor) (e := e) (s := s) rfl

theorem dropWhere_keep (p : PmeEntry → Bool) (s : State) : Keep 369102830 s (dropWhere p s) := by
  unfold dropWhere
  iterate 30 (all_goals try first
    | with_reducible exact Keep.refl _ _
    | with_reducible assumption
    | (extract_lets +onlyGivenNames zz; refine Keep.cut zz ?_ (fun _ => ?_); (rotate_left; (try clear_value zz); rotate_right; subst zz))
    | (extract_lets +onlyGivenNames zz; subst zz)
    | with_reducible refine (settleChain_keep ..).after ?_ (by decide)
    | with_reducible refine (mateDrop_keep ..).after ?_ (by decide)
    | with_reducible refine (entryGone_keep ..).after ?_ (by decide)
    | with_reducible refine (modPme_keep ..).after ?_ (by decide)
    | with_reducible refine Keep.foldl (fun _ _ => ?_) ?_ _
    | with_reducible refine Keep.foldlFst (fun _ _ => ?_) ?_ _
    | with_reducible refine Keep.foldlSnd (fun _ _ => ?_) ?_ _
    | with_reducible refine Keep.ite (fun _ => ?_) (fun _ => ?_)
    | split)

theorem dropColumnsEntries_keep (cols : List Nat) (s : State) : Keep 369102830 s (dropColumnsEntries cols s) := by
  unfold dropColumnsEntries
  iterate 30 (all_goals try first
    | with_reducible exact Keep.refl _ _
    | with_reducible assumption
    | (extract_lets +onlyGivenNames zz; refine Keep.cut zz ?_ (fun _ => ?_); (rotate_left; (try clear_value zz); rotate_right; subst zz))
    | (extract_lets +onlyGivenNames zz; subst zz)
    | with_reducible refine (dropWhere_keep ..).after ?_ (by decide)
    | with_reducible refine (emit_keep ..).after ?_ (by decide)
    | with_reducible refine Keep.foldl (fun _ _ => ?_) ?_ _
    | with_reducible refine Keep.foldlFst (fun _ _ => ?_) ?_ _
    | with_reducible refine Keep.foldlSnd (fun _ _ => ?_) ?_ _
    | with_reducible refine Keep.ite (fun _ => ?_) (fun _ => ?_)
    | split)

theorem killColumns_keep (cols : List Nat) (s : State) : Keep 369102830 s (killColumns cols s) := by
  unfold killColumns
  iterate 30 (all_goals try first
    | with_reducible exact Keep.refl _ _
    | with_reducible assumption
    | (extract_lets +onlyGivenNames zz; refine Keep.cut zz ?_ (fun _ => ?_); (rotate_left; (try clear_value zz); rotate_right; subst zz))
    | (extract_lets +onlyGivenNames zz; subst zz)
    | with_reducible refine (dropColumnsEntries_keep ..).after ?_ (by decide)
    | with_reducible refine (modPme_keep ..).after ?_ (by decide)
    | with_reducible refine Keep.ite (fun _ => ?_) (fun _ => ?_)
    | split)

theorem pmePageLost_keep (h : Nat) (s : State) : Keep 369102830 s (pmePageLost h s) := by
  unfold pmePageLost
  iterate 30 (all_goals try first
    | with_reducible exact Keep.refl _ _
    | with_reducible assumption
    | with_reducible refine (killColumns_keep ..).after ?_ (by decide)
    | with_reducible refine Keep.ite (fun _ => ?_) (fun _ => ?_)
    | split)

theorem pmeDropAdapter_keep (part id ver : Nat) (s : State) : Keep 369102830 s (pmeDropAdapter part id ver s) := by
  unfold pmeDropAdapter
  iterate 30 (all_goals try first
    | with_reducible exact Keep.refl _ _
    | with_reducible assumption
    | with_reducible refine (dropColumnsEntries_keep ..).after ?_ (by decide)
    | with_reducible refine Keep.ite (fun _ => ?_) (fun _ => ?_)
    | split)

theorem pmeDropBinding_keep (part id : Nat) (s : State) : Keep 369102830 s (pmeDropBinding part id s) := by
  unfold pmeDropBinding
  iterate 30 (all_goals try first
    | with_reducible exact Keep.refl _ _
    | with_reducible assumption
    | with_reducible refine (dropColumnsEntries_keep ..).after ?_ (by decide)
    | with_reducible refine Keep.ite (fun _ => ?_) (fun _ => ?_)
    | split)

theorem pmeDropPartition_keep (n : Nat) (s : State) : Keep 369102830 s (pmeDropPartition n s) := by
  unfold pmeDropPartition
  iterate 30 (all_goals try first
    | with_reducible exact Keep.refl _ _
    | with_reducible assumption
    | (extract_lets +onlyGivenNames zz; refine Keep.cut zz ?_ (fun _ => ?_); (rotate_left; (try clear_value zz); rotate_right; subst zz))
    | (extract_lets +onlyGivenNames zz; subst zz)
    | with_reducible refine (dropColumnsEntries_keep ..).after ?_ (by decide)
    | with_reducible refine (dropWhere_keep ..).after ?_ (by decide)
    | with_reducible refine (freeColumn_keep ..).after ?_ (by decide)
    | with_reducible refine (modPme_keep ..).after ?_ (by decide)
    | with_reducible refine Keep.foldl (fun _ _ => ?_) ?_ _
    | with_reducible refine Keep.foldlFst (fun _ _ => ?_) ?_ _
    | with_reducible refine Keep.foldlSnd (fun _ _ => ?_) ?_ _
    | with_reducible refine Keep.ite (fun _ => ?_) (fun _ => ?_)
    | split)

theorem coldWalk_keep {h part : Nat} {s : State} {t0 : State} {x1 : List Bucket} (h0 : coldWalk h part s = (t0, x1)) : Keep 268439054 s t0 := by
  unfold coldWalk at h0
  try dsimp only at h0
  repeat' (first | split at h0)
  all_goals try (exact absurd h0 (by simp only [reduceCtorEq, not_false_eq_true]))
  all_goals try (with_reducible obtain ⟨rfl, rfl⟩ := Prod.mk.inj h0)
  iterate 30 (all_goals try first
    | with_reducible exact Keep.refl _ _
    | with_reducible assumption
    | (extract_lets +onlyGivenNames zz; refine Keep.cut zz ?_ (fun _ => ?_); (rotate_left; (try clear_value zz); rotate_right; subst zz))
    | (extract_lets +onlyGivenNames zz; subst zz)
    | with_reducible refine (settleChain_keep ..).after ?_ (by decide)
    | with_reducible refine (modPme_keep ..).after ?_ (by decide)
    | with_reducible refine (raiseErr_keep ..).after ?_ (by decide)
    | with_reducible refine (emit_keep ..).after ?_ (by decide)
    | with_reducible refine (bump_keep ..).after ?_ (by decide)
    | with_reducible refine (setF_keep ..).after ?_ (by decide)
    | with_reducible refine Keep.foldl (fun _ _ => ?_) ?_ _
    | with_reducible refine Keep.foldlFst (fun _ _ => ?_) ?_ _
    | with_reducible refine Keep.foldlSnd (fun _ _ => ?_) ?_ _
    | with_reducible refine Keep.pairIte (by assumption) (fun _ => ?_)
    | with_reducible refine Keep.pairIteElse (by assumption) (fun _ => ?_)
    | with_reducible refine Keep.ite (fun _ => ?_) (fun _ => ?_)
    | split)
theorem coldWalk_keepP (h part : Nat) (s : State) : Keep 268439054 s (coldWalk h part s).1 := coldWalk_keep (h := h) (part := part) (s := s) rfl

theorem dropOrphans_keep (q : Slot) (seg : Nat) (s : State) : Keep 369102830 s (dropOrphans q seg s) := by
  unfold dropOrphans
  iterate 30 (all_goals try first
    | with_reducible exact Keep.refl _ _
    | with_reducible assumption
    | with_reducible refine (dropWhere_keep ..).after ?_ (by decide)
    | with_reducible refine Keep.ite (fun _ => ?_) (fun _ => ?_)
    | split)

theorem chipCands_keep {q : Slot} {seg : Nat} {ok : PmeEntry → Bool} {s : State} {t0 : State} {x1 : List Cand} (h : chipCands q seg ok s = (t0, x1)) : Keep 268435456 s t0 := by
  unfold chipCands at h
  try dsimp only at h
  repeat' (first | split at h)
  all_goals try (exact absurd h (by simp only [reduceCtorEq, not_false_eq_true]))
  all_goals try (with_reducible obtain ⟨rfl, rfl⟩ := Prod.mk.inj h)
  iterate 30 (all_goals try first
    | with_reducible exact Keep.refl _ _
    | with_reducible assumption
    | (extract_lets +onlyGivenNames zz; refine Keep.cut zz ?_ (fun _ => ?_); (rotate_left; (try clear_value zz); rotate_right; subst zz))
    | (extract_lets +onlyGivenNames zz; subst zz)
    | with_reducible refine (modPme_keep ..).after ?_ (by decide)
    | with_reducible refine Keep.pairIte (by assumption) (fun _ => ?_)
    | with_reducible refine Keep.pairIteElse (by assumption) (fun _ => ?_)
    | with_reducible refine Keep.ite (fun _ => ?_) (fun _ => ?_)
    | split)
theorem chipCands_keepP (q : Slot) (seg : Nat) (ok : PmeEntry → Bool) (s : State) : Keep 268435456 s (chipCands q seg ok s).1 := chipCands_keep (q := q) (seg := seg) (ok := ok) (s := s) rfl

theorem coldCands_keep {q : Slot} {seg : Nat} {s : State} {t0 : State} {x1 : List Cand} (h : coldCands q seg s = (t0, x1)) : Keep 268439054 s t0 := by
  unfold coldCands at h
  try dsimp only at h
  repeat' (first | split at h)
  all_goals try (exact absurd h (by simp only [reduceCtorEq, not_false_eq_true]))
  all_goals try (with_reducible obtain ⟨rfl, rfl⟩ := Prod.mk.inj h)
  iterate 30 (all_goals try first
    | with_reducible exact Keep.refl _ _
    | with_reducible assumption
    | (extract_lets +onlyGivenNames zz; refine Keep.cut zz ?_ (fun _ => ?_); (rotate_left; (try clear_value zz); rotate_right; subst zz))
    | (extract_lets +onlyGivenNames zz; subst zz)
    | with_reducible refine (coldWalk_keep (by assumption)).after ?_ (by decide)
    | with_reducible refine (coldWalk_keepP ..).after ?_ (by decide)
    | with_reducible refine Keep.pairIte (by assumption) (fun _ => ?_)
    | with_reducible refine Keep.pairIteElse (by assumption) (fun _ => ?_)
    | with_reducible refine Keep.ite (fun _ => ?_) (fun _ => ?_)
    | split)
theorem coldCands_keepP (q : Slot) (seg : Nat) (s : State) : Keep 268439054 s (coldCands q seg s).1 := coldCands_keep (q := q) (seg := seg) (s := s) rfl

theorem segmentCands_keep {q : Slot} {seg : Nat} {s : State} {t0 : State} {x1 : List Cand} (h : segmentCands q seg s = (t0, x1)) : Keep 369102830 s t0 := by
  unfold segmentCands at h
  try dsimp only at h
  repeat' (first | split at h)
  all_goals try (exact absurd h (by simp only [reduceCtorEq, not_false_eq_true]))
  all_goals try (with_reducible obtain ⟨rfl, rfl⟩ := Prod.mk.inj h)
  iterate 30 (all_goals try first
    | with_reducible exact Keep.refl _ _
    | with_reducible assumption
    | (extract_lets +onlyGivenNames zz; refine Keep.cut zz ?_ (fun _ => ?_); (rotate_left; (try clear_value zz); rotate_right; subst zz))
    | (extract_lets +onlyGivenNames zz; subst zz)
    | with_reducible refine (coldCands_keep (by assumption)).after ?_ (by decide)
    | with_reducible refine (coldCands_keepP ..).after ?_ (by decide)
    | with_reducible refine (chipCands_keep (by assumption)).after ?_ (by decide)
    | with_reducible refine (chipCands_keepP ..).after ?_ (by decide)
    | with_reducible refine (dropOrphans_keep ..).after ?_ (by decide)
    | with_reducible refine Keep.pairIte (by assumption) (fun _ => ?_)
    | with_reducible refine Keep.pairIteElse (by assumption) (fun _ => ?_)
    | with_reducible refine Keep.ite (fun _ => ?_) (fun _ => ?_)
    | split)
theorem segmentCands_keepP (q : Slot) (seg : Nat) (s : State) : Keep 369102830 s (segmentCands q seg s).1 := segmentCands_keep (q := q) (seg := seg) (s := s) rfl

theorem allCands_keep {q : Slot} {s : State} {t0 : State} {x1 : List Cand} (h : allCands q s = (t0, x1)) : Keep 369102830 s t0 := by
  unfold allCands at h
  try dsimp only at h
  repeat' (first | split at h)
  all_goals try (exact absurd h (by simp only [reduceCtorEq, not_false_eq_true]))
  all_goals try (with_reducible obtain ⟨rfl, rfl⟩ := Prod.mk.inj h)
  iterate 30 (all_goals try first
    | with_reducible exact Keep.refl _ _
    | with_reducible assumption
    | (extract_lets +onlyGivenNames zz; refine Keep.cut zz ?_ (fun _ => ?_); (rotate_left; (try clear_value zz); rotate_right; subst zz))
    | (extract_lets +onlyGivenNames zz; subst zz)
    | with_reducible refine (segmentCands_keep (by assumption)).after ?_ (by decide)
    | with_reducible refine (segmentCands_keepP ..).after ?_ (by decide)
    | with_reducible refine Keep.foldl (fun _ _ => ?_) ?_ _
    | with_reducible refine Keep.foldlFst (fun _ _ => ?_) ?_ _
    | with_reducible refine Keep.foldlSnd (fun _ _ => ?_) ?_ _
    | with_reducible refine Keep.pairIte (by assumption) (fun _ => ?_)
    | with_reducible refine Keep.pairIteElse (by assumption) (fun _ => ?_)
    | with_reducible refine Keep.ite (fun _ => ?_) (fun _ => ?_)
    | split)
theorem allCands_keepP (q : Slot) (s : State) : Keep 369102830 s (allCands q s).1 := allCands_keep (q := q) (s := s) rfl

theorem falseHit_keep (p : Place) (e : PmeEntry) (check : Nat) (s : State) : Keep 369102830 s (falseHit p e check s) := by
  unfold falseHit
  iterate 30 (all_goals try first
    | with_reducible exact Keep.refl _ _
    | with_reducible assumption
    | (extract_lets +onlyGivenNames zz; refine Keep.cut zz ?_ (fun _ => ?_); (rotate_left; (try clear_value zz); rotate_right; subst zz))
    | (extract_lets +onlyGivenNames zz; subst zz)
    | with_reducible refine (dropAt_keep ..).after ?_ (by decide)
    | with_reducible refine (raiseErr_keep ..).after ?_ (by decide)
    | with_reducible refine (bump_keep ..).after ?_ (by decide)
    | with_reducible refine Keep.ite (fun _ => ?_) (fun _ => ?_)
    | split)

theorem verifyRemote_keep {q : Slot} {c : Cand} {column : Option RemoteColumn} {s : State} {t0 : State} {x1 : Option PrefixHit} (h : verifyRemote q c column s = (t0, x1)) : Keep 369102830 s t0 := by
  unfold verifyRemote at h
  try dsimp only at h
  repeat' (first | split at h)
  all_goals try (exact absurd h (by simp only [reduceCtorEq, not_false_eq_true]))
  all_goals try (with_reducible obtain ⟨rfl, rfl⟩ := Prod.mk.inj h)
  iterate 30 (all_goals try first
    | with_reducible exact Keep.refl _ _
    | with_reducible assumption
    | (extract_lets +onlyGivenNames zz; refine Keep.cut zz ?_ (fun _ => ?_); (rotate_left; (try clear_value zz); rotate_right; subst zz))
    | (extract_lets +onlyGivenNames zz; subst zz)
    | with_reducible refine (falseHit_keep ..).after ?_ (by decide)
    | with_reducible refine (dropAt_keep ..).after ?_ (by decide)
    | with_reducible refine Keep.pairIte (by assumption) (fun _ => ?_)
    | with_reducible refine Keep.pairIteElse (by assumption) (fun _ => ?_)
    | with_reducible refine Keep.ite (fun _ => ?_) (fun _ => ?_)
    | split)
theorem verifyRemote_keepP (q : Slot) (c : Cand) (column : Option RemoteColumn) (s : State) : Keep 369102830 s (verifyRemote q c column s).1 := verifyRemote_keep (q := q) (c := c) (column := column) (s := s) rfl

theorem verifyCand_keep {q : Slot} {c : Cand} {s : State} {t0 : State} {x1 : Option PrefixHit} (h : verifyCand q c s = (t0, x1)) : Keep 369102846 s t0 := by
  unfold verifyCand at h
  try dsimp only at h
  repeat' (first | split at h)
  all_goals try (exact absurd h (by simp only [reduceCtorEq, not_false_eq_true]))
  all_goals try (with_reducible obtain ⟨rfl, rfl⟩ := Prod.mk.inj h)
  iterate 30 (all_goals try first
    | with_reducible exact Keep.refl _ _
    | with_reducible assumption
    | (extract_lets +onlyGivenNames zz; refine Keep.cut zz ?_ (fun _ => ?_); (rotate_left; (try clear_value zz); rotate_right; subst zz))
    | (extract_lets +onlyGivenNames zz; subst zz)
    | with_reducible refine (verifyRemote_keep (by assumption)).after ?_ (by decide)
    | with_reducible refine (verifyRemote_keepP ..).after ?_ (by decide)
    | with_reducible refine (falseHit_keep ..).after ?_ (by decide)
    | with_reducible refine (dropAt_keep ..).after ?_ (by decide)
    | with_reducible refine Keep.pairIte (by assumption) (fun _ => ?_)
    | with_reducible refine Keep.pairIteElse (by assumption) (fun _ => ?_)
    | with_reducible refine Keep.ite (fun _ => ?_) (fun _ => ?_)
    | split
    | with_reducible refine (Keep.of_free _ _).after ?_ (by decide))
theorem verifyCand_keepP (q : Slot) (c : Cand) (s : State) : Keep 369102846 s (verifyCand q c s).1 := verifyCand_keep (q := q) (c := c) (s := s) rfl

theorem countHit_keep (c : Cand) (s : State) : Keep 268435468 s (countHit c s) := by
  unfold countHit
  iterate 30 (all_goals try first
    | with_reducible exact Keep.refl _ _
    | with_reducible assumption
    | (extract_lets +onlyGivenNames zz; refine Keep.cut zz ?_ (fun _ => ?_); (rotate_left; (try clear_value zz); rotate_right; subst zz))
    | (extract_lets +onlyGivenNames zz; subst zz)
    | with_reducible refine (hitAt_keep ..).after ?_ (by decide)
    | with_reducible refine (emit_keep ..).after ?_ (by decide)
    | with_reducible refine (bump_keep ..).after ?_ (by decide)
    | with_reducible refine Keep.ite (fun _ => ?_) (fun _ => ?_)
    | split)

theorem runCands_keepP (n : Nat) (q : Slot) (l : List Cand) (s : State) : Keep 369102846 s (runCands n q l s).1 := by
  induction n generalizing l s with
  | zero => unfold runCands; exact Keep.refl _ _
  | succ n ih =>
    cases l with
    | nil => unfold runCands; exact Keep.refl _ _
    | cons c l =>
      unfold runCands
      split
      · exact ih _ _
      · split
        · rename_i h; exact (verifyCand_keep h).mono (by decide)
        · rename_i h; exact (ih _ _).after ((verifyCand_keep h).mono (by decide)) (by decide)

theorem runCands_keep {n : Nat} {q : Slot} {l : List Cand} {s : State} {t0 : State} {x} (h : runCands n q l s = (t0, x)) : Keep 369102846 s t0 := by
  have := runCands_keepP n q l s
  rw [h] at this
  exact this

theorem verifyAll_keepP (n : Nat) (q : Slot) (l : List Cand) (s : State) : Keep 369102846 s (verifyAll n q l s).1 := by
  induction n generalizing l s with
  | zero => unfold verifyAll; exact Keep.refl _ _
  | succ n ih =>
    cases l with
    | nil => unfold verifyAll; exact Keep.refl _ _
    | cons c l =>
      unfold verifyAll
      split
      · exact ih _ _
      · split
        · rename_i h; exact (ih _ _).after ((verifyCand_keep h).mono (by decide)) (by decide)
        · rename_i h; exact (ih _ _).after ((verifyCand_keep h).mono (by decide)) (by decide)

theorem verifyAll_keep {n : Nat} {q : Slot} {l : List Cand} {s : State} {t0 : State} {x} (h : verifyAll n q l s = (t0, x)) : Keep 369102846 s t0 := by
  have := verifyAll_keepP n q l s
  rw [h] at this
  exact this

theorem equalTag_keep {q : Slot} {k : Nat} {s : State} {t0 : State} {x1 : List Nat} (h : equalTag q k s = (t0, x1)) : Keep 369102846 s t0 := by
  unfold equalTag at h
  try dsimp only at h
  repeat' (first | split at h)
  all_goals try (exact absurd h (by simp only [reduceCtorEq, not_false_eq_true]))
  all_goals try (with_reducible obtain ⟨rfl, rfl⟩ := Prod.mk.inj h)
  iterate 30 (all_goals try first
    | with_reducible exact Keep.refl _ _
    | with_reducible assumption
    | (extract_lets +onlyGivenNames zz; refine Keep.cut zz ?_ (fun _ => ?_); (rotate_left; (try clear_value zz); rotate_right; subst zz))
    | (extract_lets +onlyGivenNames zz; subst zz)
    | with_reducible refine (verifyAll_keep (by assumption)).after ?_ (by decide)
    | with_reducible refine (verifyAll_keepP ..).after ?_ (by decide)
    | with_reducible refine (segmentCands_keep (by assumption)).after ?_ (by decide)
    | with_reducible refine (segmentCands_keepP ..).after ?_ (by decide)
    | with_reducible refine Keep.foldl (fun _ _ => ?_) ?_ _
    | with_reducible refine Keep.foldlFst (fun _ _ => ?_) ?_ _
    | with_reducible refine Keep.foldlSnd (fun _ _ => ?_) ?_ _
    | with_reducible refine Keep.pairIte (by assumption) (fun _ => ?_)
    | with_reducible refine Keep.pairIteElse (by assumption) (fun _ => ?_)
    | with_reducible refine Keep.ite (fun _ => ?_) (fun _ => ?_)
    | split)
theorem equalTag_keepP (q : Slot) (k : Nat) (s : State) : Keep 369102846 s (equalTag q k s).1 := equalTag_keep (q := q) (k := k) (s := s) rfl

theorem createColumn_keep {q : Slot} {k parent content : Nat} {hs shadow : List Nat} {priv : Bool} {s : State} {t0 : State} {x1 : Bool} (h : createColumn q k parent content hs shadow priv s = (t0, x1)) : Keep 369102846 s t0 := by
  unfold createColumn at h
  try dsimp only at h
  repeat' (first | split at h)
  all_goals try (exact absurd h (by simp only [reduceCtorEq, not_false_eq_true]))
  all_goals try (with_reducible obtain ⟨rfl, rfl⟩ := Prod.mk.inj h)
  iterate 30 (all_goals try first
    | with_reducible exact Keep.refl _ _
    | with_reducible assumption
    | (extract_lets +onlyGivenNames zz; refine Keep.cut zz ?_ (fun _ => ?_); (rotate_left; (try clear_value zz); rotate_right; subst zz))
    | (extract_lets +onlyGivenNames zz; subst zz)
    | with_reducible refine (insertEntry_keep (by assumption)).after ?_ (by decide)
    | with_reducible refine (insertEntry_keepP ..).after ?_ (by decide)
    | with_reducible refine (modPme_keep ..).after ?_ (by decide)
    | with_reducible refine (addRef_keep (by assumption)).after ?_ (by decide)
    | with_reducible refine (takeGen_keep (by assumption)).after ?_ (by decide)
    | with_reducible refine (takeGen_keepP ..).after ?_ (by decide)
    | with_reducible refine Keep.getD (fun _ _ => ?_) ?_
    | with_reducible refine Keep.foldl (fun _ _ => ?_) ?_ _
    | with_reducible refine Keep.foldlFst (fun _ _ => ?_) ?_ _
    | with_reducible refine Keep.foldlSnd (fun _ _ => ?_) ?_ _
    | with_reducible refine Keep.pairIte (by assumption) (fun _ => ?_)
    | with_reducible refine Keep.pairIteElse (by assumption) (fun _ => ?_)
    | with_reducible refine Keep.ite (fun _ => ?_) (fun _ => ?_)
    | split)
theorem createColumn_keepP (q : Slot) (k parent content : Nat) (hs shadow : List Nat) (priv : Bool) (s : State) : Keep 369102846 s (createColumn q k parent content hs shadow priv s).1 := createColumn_keep (q := q) (k := k) (parent := parent) (content := content) (hs := hs) (shadow := shadow) (priv := priv) (s := s) rfl

theorem publishIndex_keepP (q : Slot) (k : Nat) (hs : List Nat) (s : State) : Keep 369102846 s (publishIndex q k hs s).1 := by
  unfold publishIndex
  have h1 : Keep 369102846 s (if k = 0 then (s, []) else equalTag q (k - 1) s).1 := by
    split
    · exact Keep.refl _ _
    · exact (equalTag_keepP ..).mono (by decide)
  generalize (if k = 0 then (s, []) else equalTag q (k - 1) s) = p at h1 ⊢
  obtain ⟨s1, l1⟩ := p
  dsimp only at h1 ⊢
  have h2 := (equalTag_keepP q k s1).after h1 (by decide)
  generalize equalTag q k s1 = p at h2 ⊢
  obtain ⟨s2, l2⟩ := p
  dsimp only at h2 ⊢
  split
  · exact h1
  · split
    · with_reducible refine (modPme_keep ..).after ?_ (by decide)
      exact h2
    · split
      · with_reducible refine (createColumn_keepP ..).after ?_ (by decide)
        exact h2
      · with_reducible refine (logEv_keep ..).after ?_ (by decide)
        with_reducible refine (bump_keep ..).after ?_ (by decide)
        with_reducible refine (createColumn_keepP ..).after ?_ (by decide)
        exact h2

theorem publishIndex_keep {q : Slot} {k : Nat} {hs : List Nat} {s : State} {t0 : State} {x} (h : publishIndex q k hs s = (t0, x)) : Keep 369102846 s t0 := by
  have := publishIndex_keepP q k hs s
  rw [h] at this
  exact this

theorem publishFrom_keepP (q : Slot) (x : Session) (layers n k : Nat) (skip : Bool) (done : Nat) (s : State) :
    Keep 369102846 s (publishFrom q x layers n k skip done s).1 := by
  induction n generalizing k skip done s with
  | zero => unfold publishFrom; exact Keep.refl _ _
  | succ n ih =>
    unfold publishFrom
    split
    · exact Keep.refl _ _
    · split
      · exact Keep.refl _ _
      · rename_i hs _
        have h1 : Keep 369102846 s (if skip = true then
            ((equalTag q k s).1, (equalTag q k s).2.any fun c => ((tget (equalTag q k s).1.pme.columns c).map (·.handles)) == some hs)
            else (s, false)).1 := by
          split
          · exact (equalTag_keepP ..).mono (by decide)
          · exact Keep.refl _ _
        dsimp only
        generalize (if skip = true then _ else _ : State × Bool) = p at h1 ⊢
        obtain ⟨s1, same⟩ := p
        dsimp only at h1 ⊢
        split
        · exact (ih ..).after h1 (by decide)
        · split
          · rename_i h; exact (ih ..).after ((publishIndex_keep h).after h1 (by decide)) (by decide)
          · rename_i h; exact (publishIndex_keep h).after h1 (by decide)

theorem publishFrom_keep {q : Slot} {x : Session} {layers n k : Nat} {skip : Bool} {done : Nat} {s : State} {t0 : State} {y}
    (h : publishFrom q x layers n k skip done s = (t0, y)) : Keep 369102846 s t0 := by
  have := publishFrom_keepP q x layers n k skip done s
  rw [h] at this
  exact this

theorem publishSession_keepP (i last : Nat) (s : State) : Keep 369233918 s (publishSession i last s).1 := by
  unfold publishSession
  split
  · exact Keep.refl _ _
  · rename_i h
    have h1 := unfoldSession_keep h
    split
    · exact h1.mono (by decide)
    · split
      · exact h1.mono (by decide)
      · exact (publishFrom_keepP ..).after (h1.mono (by decide)) (by decide)

theorem publishSession_keep {i last : Nat} {s : State} {t0 : State} {x} (h : publishSession i last s = (t0, x)) : Keep 369233918 s t0 := by
  have := publishSession_keepP i last s
  rw [h] at this
  exact this

theorem renameColumn_keep (i j : Nat) (s : State) : Keep 268435456 s (renameColumn i j s) := by
  unfold renameColumn
  iterate 30 (all_goals try first
    | with_reducible exact Keep.refl _ _
    | with_reducible assumption
    | (extract_lets +onlyGivenNames zz; refine Keep.cut zz ?_ (fun _ => ?_); (rotate_left; (try clear_value zz); rotate_right; subst zz))
    | (extract_lets +onlyGivenNames zz; subst zz)
    | with_reducible refine (modPme_keep ..).after ?_ (by decide)
    | with_reducible refine Keep.ite (fun _ => ?_) (fun _ => ?_)
    | split)

theorem unfoldColumn_keep {i : Nat} {s : State} {x0 : Nat} {t0 : State} (h : (unfoldColumn i s) = some (x0, t0)) : Keep 335544320 s t0 := by
  unfold unfoldColumn at h
  dsimp only at h
  split at h
  · obtain ⟨-, rfl⟩ := Prod.mk.inj (Option.some.inj h); exact Keep.refl _ _
  · split at h
    · exact absurd h (by simp)
    · split at h
      · exact absurd h (by simp)
      · obtain ⟨j, -, hj⟩ := Option.map_eq_some_iff.1 h
        obtain ⟨-, rfl⟩ := Prod.mk.inj hj
        with_reducible refine (renameColumn_keep ..).after ?_ (by decide)
        with_reducible refine (modPme_keep ..).after ?_ (by decide)
        refine Keep.foldlFst (fun _ _ => ?_) ?_ _
        · with_reducible refine (addRec_keepP ..).after ?_ (by decide)
          exact Keep.refl _ _
        · exact Keep.refl _ _

theorem unfoldedColumn_keep {i : Nat} {s : State} {x0 : Column} {t0 : State} (h : unfoldedColumn i s = some (x0, t0)) : Keep 335544320 s t0 := by
  unfold unfoldedColumn at h
  try dsimp only at h
  repeat' (first | split at h)
  all_goals try (exact absurd h (by simp only [reduceCtorEq, not_false_eq_true]))
  all_goals try (with_reducible obtain ⟨rfl, rfl⟩ := Prod.mk.inj (Option.some.inj h))
  iterate 30 (all_goals try first
    | with_reducible exact Keep.refl _ _
    | with_reducible assumption
    | with_reducible refine (unfoldColumn_keep (by assumption)).after ?_ (by decide)
    | with_reducible refine Keep.pairIte (by assumption) (fun _ => ?_)
    | with_reducible refine Keep.pairIteElse (by assumption) (fun _ => ?_)
    | with_reducible refine Keep.ite (fun _ => ?_) (fun _ => ?_)
    | split)

theorem repointColumn_keep {i gen : Nat} {s : State} {x0 : Column} {t0 : State} (h : repointColumn i gen s = some (x0, t0)) : Keep 335544320 s t0 := by
  unfold repointColumn at h
  try dsimp only at h
  repeat' (first | split at h)
  all_goals try (exact absurd h (by simp only [reduceCtorEq, not_false_eq_true]))
  all_goals try (with_reducible obtain ⟨rfl, rfl⟩ := Prod.mk.inj (Option.some.inj h))
  iterate 30 (all_goals try first
    | with_reducible exact Keep.refl _ _
    | with_reducible assumption
    | with_reducible refine (unfoldedColumn_keep (by assumption)).after ?_ (by decide)
    | with_reducible refine Keep.pairIte (by assumption) (fun _ => ?_)
    | with_reducible refine Keep.pairIteElse (by assumption) (fun _ => ?_)
    | with_reducible refine Keep.ite (fun _ => ?_) (fun _ => ?_)
    | split)

theorem applyRepoints_keep (i : Nat) (s : State) : Keep 369233902 s (applyRepoints i s) := by
  unfold applyRepoints
  iterate 30 (all_goals try first
    | with_reducible exact Keep.refl _ _
    | with_reducible assumption
    | (extract_lets +onlyGivenNames zz; refine Keep.cut zz ?_ (fun _ => ?_); (rotate_left; (try clear_value zz); rotate_right; subst zz))
    | (extract_lets +onlyGivenNames zz; subst zz)
    | with_reducible refine (repointColumn_keep (by assumption)).after ?_ (by decide)
    | with_reducible refine (modPme_keep ..).after ?_ (by decide)
    | with_reducible refine (placeMap_keep ..).after ?_ (by decide)
    | with_reducible refine (putSession_keep ..).after ?_ (by decide)
    | with_reducible refine (addRef_keep (by assumption)).after ?_ (by decide)
    | with_reducible refine (dropRef_keep ..).after ?_ (by decide)
    | with_reducible refine (bump_keep ..).after ?_ (by decide)
    | with_reducible refine Keep.getD (fun _ _ => ?_) ?_
    | with_reducible refine Keep.foldl (fun _ _ => ?_) ?_ _
    | with_reducible refine Keep.foldlFst (fun _ _ => ?_) ?_ _
    | with_reducible refine Keep.foldlSnd (fun _ _ => ?_) ?_ _
    | with_reducible refine Keep.ite (fun _ => ?_) (fun _ => ?_)
    | split)

theorem sweepColumn_keep (i : Nat) (s : State) : Keep 369102830 s (sweepColumn i s) := by
  unfold sweepColumn
  iterate 30 (all_goals try first
    | with_reducible exact Keep.refl _ _
    | with_reducible assumption
    | (extract_lets +onlyGivenNames zz; refine Keep.cut zz ?_ (fun _ => ?_); (rotate_left; (try clear_value zz); rotate_right; subst zz))
    | (extract_lets +onlyGivenNames zz; subst zz)
    | with_reducible refine (coldInsert_keep (by assumption)).after ?_ (by decide)
    | with_reducible refine (coldInsert_keepP ..).after ?_ (by decide)
    | with_reducible refine (freeColumn_keep ..).after ?_ (by decide)
    | with_reducible refine Keep.ite (fun _ => ?_) (fun _ => ?_)
    | split)

theorem columnSweep_keep (n : Nat) (s : State) : Keep 369102830 s (columnSweep n s) := by
  unfold columnSweep
  iterate 30 (all_goals try first
    | with_reducible exact Keep.refl _ _
    | with_reducible assumption
    | (extract_lets +onlyGivenNames zz; refine Keep.cut zz ?_ (fun _ => ?_); (rotate_left; (try clear_value zz); rotate_right; subst zz))
    | (extract_lets +onlyGivenNames zz; subst zz)
    | with_reducible refine (sweepColumn_keep ..).after ?_ (by decide)
    | with_reducible refine (dropColumnsEntries_keep ..).after ?_ (by decide)
    | with_reducible refine (dropWhere_keep ..).after ?_ (by decide)
    | with_reducible refine Keep.foldl (fun _ _ => ?_) ?_ _
    | with_reducible refine Keep.foldlFst (fun _ _ => ?_) ?_ _
    | with_reducible refine Keep.foldlSnd (fun _ _ => ?_) ?_ _
    | with_reducible refine Keep.ite (fun _ => ?_) (fun _ => ?_)
    | split)

end Sys2Proof.Machine
end

