-- ==== Sys2Proof/Laws/KeepExpert.lean ====
section
/-!
SUPPORT. Laws/KeepExpert.lean: what each operation of Machine/Expert.lean can change (Laws/Keep.lean).
-/
set_option Elab.async false
set_option linter.all false
namespace Sys2Proof.Machine

open Sys2Proof

theorem live_keep {k : Nat} (f : State → State) (s : State) (h : ∀ s, Keep k s (f s)) : Keep k s (live f s) := by
  unfold live; split
  · exact h s
  · exact Keep.refl _ _

theorem clocked_keep {k : Nat} (f : State → State) (s : State) (h : ∀ s, Keep k s (f s)) : Keep k s (clocked f s) := by
  unfold clocked
  refine live_keep _ _ (fun s => ?_)
  split
  · exact Keep.refl _ _
  · exact h s

theorem showBytes_keep (f : Nat → Fld) (n : Nat) (b : List Byte) (s : State) : Keep 2 s (showBytes f n b s) := by
  unfold showBytes
  iterate 30 (all_goals try first
    | with_reducible exact Keep.refl _ _
    | with_reducible assumption
    | with_reducible refine (setF_keep ..).after ?_ (by decide)
    | with_reducible refine Keep.foldl (fun _ _ => ?_) ?_ _
    | with_reducible refine Keep.foldlFst (fun _ _ => ?_) ?_ _
    | with_reducible refine Keep.foldlSnd (fun _ _ => ?_) ?_ _
    | with_reducible refine Keep.ite (fun _ => ?_) (fun _ => ?_)
    | split)

end Sys2Proof.Machine
end

