-- ==== Sys2Proof/Laws/KeepRecovery.lean ====
section
/-!
SUPPORT. Laws/KeepRecovery.lean: what each operation of Machine/Recovery.lean can change (Laws/Keep.lean).
-/
set_option Elab.async false
set_option linter.all false
namespace Sys2Proof.Machine

open Sys2Proof

theorem markLost_keep (h : Nat) (s : State) : Keep 369233902 s (markLost h s) := by
  unfold markLost
  iterate 30 (all_goals try first
    | with_reducible exact Keep.refl _ _
    | with_reducible assumption
    | (extract_lets +onlyGivenNames zz; refine Keep.cut zz ?_ (fun _ => ?_); (rotate_left; (try clear_value zz); rotate_right; subst zz))
    | (extract_lets +onlyGivenNames zz; subst zz)
    | with_reducible refine (pmePageLost_keep ..).after ?_ (by decide)
    | with_reducible refine (putRec_keep ..).after ?_ (by decide)
    | with_reducible refine (logEv_keep ..).after ?_ (by decide)
    | with_reducible refine (bump_keep ..).after ?_ (by decide)
    | with_reducible refine Keep.ite (fun _ => ?_) (fun _ => ?_)
    | split
    | with_reducible refine (Keep.of_sessions_tmg _ _ _).after ?_ (by decide))

theorem startRecovery_keep (h : Nat) (s : State) : Keep 369233902 s (startRecovery h s) := by
  unfold startRecovery
  iterate 30 (all_goals try first
    | with_reducible exact Keep.refl _ _
    | with_reducible assumption
    | (extract_lets +onlyGivenNames zz; refine Keep.cut zz ?_ (fun _ => ?_); (rotate_left; (try clear_value zz); rotate_right; subst zz))
    | (extract_lets +onlyGivenNames zz; subst zz)
    | with_reducible refine (markLost_keep ..).after ?_ (by decide)
    | with_reducible refine (abandonMove_keep ..).after ?_ (by decide)
    | with_reducible refine (putRec_keep ..).after ?_ (by decide)
    | with_reducible refine Keep.ite (fun _ => ?_) (fun _ => ?_)
    | split)

theorem recoveryRead_keep (h : Nat) (failed : Bool) (s : State) : Keep 369233902 s (recoveryRead h failed s) := by
  unfold recoveryRead
  split
  · exact Keep.refl _ _
  · rename_i r _
    dsimp only
    split
    · exact Keep.refl _ _
    · have g : ∀ {tier base : Nat} {dead : Bool} {t : State} {b : Bool},
          (if dead then (s, false) else expanderRead {} h r tier base s) = (t, b) → Keep 369233902 s t := by
        intro tier base dead t b e
        split at e
        · obtain ⟨rfl, -⟩ := Prod.mk.inj e; exact Keep.refl _ _
        · exact (expanderRead_keep e).mono (by decide)
      split
      · rename_i e; exact (markLost_keep ..).after (g e) (by decide)
      · rename_i e
        have g := g e
        split
        · exact (retryRecovery_keep ..).after ((recoverInto_keep ..).after g (by decide)) (by decide)
        · split
          · exact (retryRecovery_keep ..).after ((bump_keep ..).after ((putRec_keep ..).after ((handToTest_keep ..).after ((releaseSlot_keep ..).after g (by decide)) (by decide)) (by decide)) (by decide)) (by decide)
          · split
            · exact (retryRecovery_keep ..).after ((recoverInto_keep ..).after g (by decide)) (by decide)
            · exact (Keep.of_tmg _ _).after g (by decide)

end Sys2Proof.Machine
end

