-- ==== Sys2Proof/Laws/KeepEngine.lean ====
section
/-!
SUPPORT. Laws/KeepEngine.lean: what each operation of Machine/Engine.lean can change (Laws/Keep.lean).
-/
set_option Elab.async false
set_option linter.all false
namespace Sys2Proof.Machine

open Sys2Proof

theorem putWheel_keep (w : Nat) (x : Wheel) (s : State) : Keep 8388608 s (putWheel w x s) := by
  unfold putWheel
  iterate 30 (all_goals try first
    | with_reducible exact Keep.refl _ _
    | with_reducible assumption
    | (extract_lets +onlyGivenNames zz; refine Keep.cut zz ?_ (fun _ => ?_); (rotate_left; (try clear_value zz); rotate_right; subst zz))
    | (extract_lets +onlyGivenNames zz; subst zz)
    | with_reducible refine Keep.ite (fun _ => ?_) (fun _ => ?_)
    | split
    | with_reducible refine (Keep.of_wheels _ _).after ?_ (by decide))

theorem modWheel_keep (w : Nat) (f : Wheel → Wheel) (s : State) : Keep 8388608 s (modWheel w f s) := by
  unfold modWheel
  iterate 30 (all_goals try first
    | with_reducible exact Keep.refl _ _
    | with_reducible assumption
    | (extract_lets +onlyGivenNames zz; refine Keep.cut zz ?_ (fun _ => ?_); (rotate_left; (try clear_value zz); rotate_right; subst zz))
    | (extract_lets +onlyGivenNames zz; subst zz)
    | with_reducible refine Keep.ite (fun _ => ?_) (fun _ => ?_)
    | split
    | with_reducible refine (Keep.of_wheels _ _).after ?_ (by decide))

theorem setHrc_keep (s : State) (h : Hrc) : Keep 134217728 s (State.setHrc s h) := by
  unfold State.setHrc
  iterate 30 (all_goals try first
    | with_reducible exact Keep.refl _ _
    | with_reducible assumption
    | with_reducible refine Keep.ite (fun _ => ?_) (fun _ => ?_)
    | split
    | with_reducible refine (Keep.of_hrc _ _).after ?_ (by decide))

theorem writeOutlet_keep (w : Nat) (p : LayerPart) (s : State) : Keep 545263118 s (writeOutlet w p s) := by
  unfold writeOutlet
  iterate 30 (all_goals try first
    | with_reducible exact Keep.refl _ _
    | with_reducible assumption
    | (extract_lets +onlyGivenNames zz; refine Keep.cut zz ?_ (fun _ => ?_); (rotate_left; (try clear_value zz); rotate_right; subst zz))
    | (extract_lets +onlyGivenNames zz; subst zz)
    | with_reducible refine (modWheel_keep ..).after ?_ (by decide)
    | with_reducible refine (nodeWrite_keep ..).after ?_ (by decide)
    | with_reducible refine (wheelWrite_keep ..).after ?_ (by decide)
    | with_reducible refine (logEv_keep ..).after ?_ (by decide)
    | with_reducible refine (bump_keep ..).after ?_ (by decide)
    | with_reducible refine Keep.getD (fun _ _ => ?_) ?_
    | with_reducible refine Keep.foldl (fun _ _ => ?_) ?_ _
    | with_reducible refine Keep.foldlFst (fun _ _ => ?_) ?_ _
    | with_reducible refine Keep.foldlSnd (fun _ _ => ?_) ?_ _
    | with_reducible refine Keep.ite (fun _ => ?_) (fun _ => ?_)
    | split)

theorem releasePins_keep (w layer : Nat) (s : State) : Keep 109187054 s (releasePins w layer s) := by
  unfold releasePins
  iterate 30 (all_goals try first
    | with_reducible exact Keep.refl _ _
    | with_reducible assumption
    | (extract_lets +onlyGivenNames zz; refine Keep.cut zz ?_ (fun _ => ?_); (rotate_left; (try clear_value zz); rotate_right; subst zz))
    | (extract_lets +onlyGivenNames zz; subst zz)
    | with_reducible refine (modWheel_keep ..).after ?_ (by decide)
    | with_reducible refine (foldReady_keep ..).after ?_ (by decide)
    | with_reducible refine (dropPin_keep ..).after ?_ (by decide)
    | with_reducible refine Keep.getD (fun _ _ => ?_) ?_
    | with_reducible refine Keep.foldl (fun _ _ => ?_) ?_ _
    | with_reducible refine Keep.foldlFst (fun _ _ => ?_) ?_ _
    | with_reducible refine Keep.foldlSnd (fun _ _ => ?_) ?_ _
    | with_reducible refine Keep.ite (fun _ => ?_) (fun _ => ?_)
    | split)

theorem recordResult_keep (e : RosterEntry) (layer code : Nat) (b : List Byte) (s : State) : Keep 1024 s (recordResult e layer code b s) := by
  unfold recordResult
  iterate 30 (all_goals try first
    | with_reducible exact Keep.refl _ _
    | with_reducible assumption
    | with_reducible refine (capRecord_keep ..).after ?_ (by decide)
    | with_reducible refine Keep.ite (fun _ => ?_) (fun _ => ?_)
    | split)

theorem layerResults_keep (w layer : Nat) (s : State) : Keep 1024 s (layerResults w layer s) := by
  unfold layerResults
  iterate 30 (all_goals try first
    | with_reducible exact Keep.refl _ _
    | with_reducible assumption
    | (extract_lets +onlyGivenNames zz; refine Keep.cut zz ?_ (fun _ => ?_); (rotate_left; (try clear_value zz); rotate_right; subst zz))
    | (extract_lets +onlyGivenNames zz; subst zz)
    | with_reducible refine (recordResult_keep ..).after ?_ (by decide)
    | with_reducible refine Keep.foldl (fun _ _ => ?_) ?_ _
    | with_reducible refine Keep.foldlFst (fun _ _ => ?_) ?_ _
    | with_reducible refine Keep.foldlSnd (fun _ _ => ?_) ?_ _
    | with_reducible refine Keep.ite (fun _ => ?_) (fun _ => ?_)
    | split)

theorem settleParts_keep (w : Nat) (s : State) : Keep 780275694 s (settleParts w s) := by
  unfold settleParts
  iterate 30 (all_goals try first
    | with_reducible exact Keep.refl _ _
    | with_reducible assumption
    | (extract_lets +onlyGivenNames zz; refine Keep.cut zz ?_ (fun _ => ?_); (rotate_left; (try clear_value zz); rotate_right; subst zz))
    | (extract_lets +onlyGivenNames zz; subst zz)
    | with_reducible refine (layerResults_keep ..).after ?_ (by decide)
    | with_reducible refine (releasePins_keep ..).after ?_ (by decide)
    | with_reducible refine (writeOutlet_keep ..).after ?_ (by decide)
    | with_reducible refine (setHrc_keep ..).after ?_ (by decide)
    | with_reducible refine (modWheel_keep ..).after ?_ (by decide)
    | with_reducible refine (setTmg_keep ..).after ?_ (by decide)
    | with_reducible refine Keep.foldl (fun _ _ => ?_) ?_ _
    | with_reducible refine Keep.foldlFst (fun _ _ => ?_) ?_ _
    | with_reducible refine Keep.foldlSnd (fun _ _ => ?_) ?_ _
    | with_reducible refine Keep.ite (fun _ => ?_) (fun _ => ?_)
    | split)

theorem dropTurnItems_keep (w slot : Nat) (s : State) : Keep 8388608 s (dropTurnItems w slot s) := by
  unfold dropTurnItems
  iterate 30 (all_goals try first
    | with_reducible exact Keep.refl _ _
    | with_reducible assumption
    | (extract_lets +onlyGivenNames zz; refine Keep.cut zz ?_ (fun _ => ?_); (rotate_left; (try clear_value zz); rotate_right; subst zz))
    | (extract_lets +onlyGivenNames zz; subst zz)
    | with_reducible refine (modWheel_keep ..).after ?_ (by decide)
    | with_reducible refine Keep.getD (fun _ _ => ?_) ?_
    | with_reducible refine Keep.ite (fun _ => ?_) (fun _ => ?_)
    | split)

theorem recordTail_keep (e : TailEntry) (s : State) : Keep 1024 s (recordTail e s) := by
  unfold recordTail
  iterate 30 (all_goals try first
    | with_reducible exact Keep.refl _ _
    | with_reducible assumption
    | with_reducible refine (capRecord_keep ..).after ?_ (by decide)
    | with_reducible refine Keep.ite (fun _ => ?_) (fun _ => ?_)
    | split)

theorem writeTailBlock_keep (w : Nat) (s : State) : Keep 545263118 s (writeTailBlock w s) := by
  unfold writeTailBlock
  iterate 30 (all_goals try first
    | with_reducible exact Keep.refl _ _
    | with_reducible assumption
    | (extract_lets +onlyGivenNames zz; refine Keep.cut zz ?_ (fun _ => ?_); (rotate_left; (try clear_value zz); rotate_right; subst zz))
    | (extract_lets +onlyGivenNames zz; subst zz)
    | with_reducible refine (recordTail_keep ..).after ?_ (by decide)
    | with_reducible refine (modWheel_keep ..).after ?_ (by decide)
    | with_reducible refine (wheelFlush_keep ..).after ?_ (by decide)
    | with_reducible refine (wheelWrite_keep ..).after ?_ (by decide)
    | with_reducible refine Keep.getD (fun _ _ => ?_) ?_
    | with_reducible refine Keep.foldl (fun _ _ => ?_) ?_ _
    | with_reducible refine Keep.foldlFst (fun _ _ => ?_) ?_ _
    | with_reducible refine Keep.foldlSnd (fun _ _ => ?_) ?_ _
    | with_reducible refine Keep.ite (fun _ => ?_) (fun _ => ?_)
    | split)

theorem finishTail_keep (w : Nat) (s : State) : Keep 545263118 s (finishTail w s) := by
  unfold finishTail
  iterate 30 (all_goals try first
    | with_reducible exact Keep.refl _ _
    | with_reducible assumption
    | (extract_lets +onlyGivenNames zz; refine Keep.cut zz ?_ (fun _ => ?_); (rotate_left; (try clear_value zz); rotate_right; subst zz))
    | (extract_lets +onlyGivenNames zz; subst zz)
    | with_reducible refine (writeTailBlock_keep ..).after ?_ (by decide)
    | with_reducible refine (modWheel_keep ..).after ?_ (by decide)
    | with_reducible refine (bump_keep ..).after ?_ (by decide)
    | with_reducible refine Keep.ite (fun _ => ?_) (fun _ => ?_)
    | split)

theorem voidPosition_keep (h t : Nat) (s : State) : Keep 496 s (voidPosition h t s) := by
  unfold voidPosition
  iterate 30 (all_goals try first
    | with_reducible exact Keep.refl _ _
    | with_reducible assumption
    | (extract_lets +onlyGivenNames zz; refine Keep.cut zz ?_ (fun _ => ?_); (rotate_left; (try clear_value zz); rotate_right; subst zz))
    | (extract_lets +onlyGivenNames zz; subst zz)
    | with_reducible refine (writePage_keep ..).after ?_ (by decide)
    | with_reducible refine (freshBytes_keep (by assumption)).after ?_ (by decide)
    | with_reducible refine (freshBytes_keepP ..).after ?_ (by decide)
    | with_reducible refine Keep.foldl (fun _ _ => ?_) ?_ _
    | with_reducible refine Keep.foldlFst (fun _ _ => ?_) ?_ _
    | with_reducible refine Keep.foldlSnd (fun _ _ => ?_) ?_ _
    | with_reducible refine Keep.ite (fun _ => ?_) (fun _ => ?_)
    | split)

theorem rejectFrom_keep (i layers kv top : Nat) (s : State) : Keep 100798462 s (rejectFrom i layers kv top s) := by
  unfold rejectFrom
  iterate 30 (all_goals try first
    | with_reducible exact Keep.refl _ _
    | with_reducible assumption
    | (extract_lets +onlyGivenNames zz; refine Keep.cut zz ?_ (fun _ => ?_); (rotate_left; (try clear_value zz); rotate_right; subst zz))
    | (extract_lets +onlyGivenNames zz; subst zz)
    | with_reducible refine (voidPosition_keep ..).after ?_ (by decide)
    | with_reducible refine (placeMap_keep ..).after ?_ (by decide)
    | with_reducible refine (putSession_keep ..).after ?_ (by decide)
    | with_reducible refine (dropRef_keep ..).after ?_ (by decide)
    | with_reducible refine (bumpBy_keep ..).after ?_ (by decide)
    | with_reducible refine Keep.foldl (fun _ _ => ?_) ?_ _
    | with_reducible refine Keep.foldlFst (fun _ _ => ?_) ?_ _
    | with_reducible refine Keep.foldlSnd (fun _ _ => ?_) ?_ _
    | with_reducible refine Keep.ite (fun _ => ?_) (fun _ => ?_)
    | split)

theorem rollbackTurn_keep (w slot : Nat) (s : State) : Keep 100798462 s (rollbackTurn w slot s) := by
  unfold rollbackTurn
  iterate 30 (all_goals try first
    | with_reducible exact Keep.refl _ _
    | with_reducible assumption
    | with_reducible refine (rejectFrom_keep ..).after ?_ (by decide)
    | with_reducible refine (modCapsule_keep ..).after ?_ (by decide)
    | with_reducible refine Keep.ite (fun _ => ?_) (fun _ => ?_)
    | split)

theorem settleGone_keep (w : Nat) (s : State) : Keep 3598 s (settleGone w s) := by
  unfold settleGone
  iterate 30 (all_goals try first
    | with_reducible exact Keep.refl _ _
    | with_reducible assumption
    | (extract_lets +onlyGivenNames zz; refine Keep.cut zz ?_ (fun _ => ?_); (rotate_left; (try clear_value zz); rotate_right; subst zz))
    | (extract_lets +onlyGivenNames zz; subst zz)
    | with_reducible refine (settleWhere_keep ..).after ?_ (by decide)
    | with_reducible refine Keep.ite (fun _ => ?_) (fun _ => ?_)
    | split)

theorem rollbackWheel_keep (w : Nat) (s : State) : Keep 109187070 s (rollbackWheel w s) := by
  unfold rollbackWheel
  iterate 30 (all_goals try first
    | with_reducible exact Keep.refl _ _
    | with_reducible assumption
    | (extract_lets +onlyGivenNames zz; refine Keep.cut zz ?_ (fun _ => ?_); (rotate_left; (try clear_value zz); rotate_right; subst zz))
    | (extract_lets +onlyGivenNames zz; subst zz)
    | with_reducible refine (settleGone_keep ..).after ?_ (by decide)
    | with_reducible refine (rollbackTurn_keep ..).after ?_ (by decide)
    | with_reducible refine (modWheel_keep ..).after ?_ (by decide)
    | with_reducible refine (foldReady_keep ..).after ?_ (by decide)
    | with_reducible refine (dropPin_keep ..).after ?_ (by decide)
    | with_reducible refine Keep.getD (fun _ _ => ?_) ?_
    | with_reducible refine Keep.foldl (fun _ _ => ?_) ?_ _
    | with_reducible refine Keep.foldlFst (fun _ _ => ?_) ?_ _
    | with_reducible refine Keep.foldlSnd (fun _ _ => ?_) ?_ _
    | with_reducible refine Keep.ite (fun _ => ?_) (fun _ => ?_)
    | split)

end Sys2Proof.Machine
end

