-- ==== Sys2Proof/Laws/KeepRecorder.lean ====
section
/-!
SUPPORT. Laws/KeepRecorder.lean: what each operation of Machine/Recorder.lean can change (Laws/Keep.lean).
-/
set_option Elab.async false
set_option linter.all false
namespace Sys2Proof.Machine

open Sys2Proof

theorem stageCapsule_keep (h n : Nat) (s : State) : Keep 1024 s (stageCapsule h n s) := by
  unfold stageCapsule
  iterate 30 (all_goals try first
    | with_reducible exact Keep.refl _ _
    | with_reducible assumption
    | (extract_lets +onlyGivenNames zz; refine Keep.cut zz ?_ (fun _ => ?_); (rotate_left; (try clear_value zz); rotate_right; subst zz))
    | (extract_lets +onlyGivenNames zz; subst zz)
    | with_reducible refine (setFrc_keep ..).after ?_ (by decide)
    | with_reducible refine Keep.ite (fun _ => ?_) (fun _ => ?_)
    | split)

theorem dropCapsule_keep (h : Nat) (s : State) : Keep 1024 s (dropCapsule h s) := by
  unfold dropCapsule
  iterate 30 (all_goals try first
    | with_reducible exact Keep.refl _ _
    | with_reducible assumption
    | (extract_lets +onlyGivenNames zz; refine Keep.cut zz ?_ (fun _ => ?_); (rotate_left; (try clear_value zz); rotate_right; subst zz))
    | (extract_lets +onlyGivenNames zz; subst zz)
    | with_reducible refine (setFrc_keep ..).after ?_ (by decide)
    | with_reducible refine Keep.ite (fun _ => ?_) (fun _ => ?_)
    | split)

theorem admitCapsule_keep (x : Session) (t : Turn) (s : State) : Keep 1024 s (admitCapsule x t s) := by
  unfold admitCapsule
  iterate 30 (all_goals try first
    | with_reducible exact Keep.refl _ _
    | with_reducible assumption
    | with_reducible refine (modCapsule_keep ..).after ?_ (by decide)
    | with_reducible refine Keep.ite (fun _ => ?_) (fun _ => ?_)
    | split)

theorem sealCapsule_keep (h : Nat) (s : State) : Keep 3598 s (sealCapsule h s) := by
  unfold sealCapsule
  iterate 30 (all_goals try first
    | with_reducible exact Keep.refl _ _
    | with_reducible assumption
    | (extract_lets +onlyGivenNames zz; refine Keep.cut zz ?_ (fun _ => ?_); (rotate_left; (try clear_value zz); rotate_right; subst zz))
    | (extract_lets +onlyGivenNames zz; subst zz)
    | with_reducible refine (setFrc_keep ..).after ?_ (by decide)
    | with_reducible refine (logEv_keep ..).after ?_ (by decide)
    | with_reducible refine (bump_keep ..).after ?_ (by decide)
    | with_reducible refine (bumpBy_keep ..).after ?_ (by decide)
    | with_reducible refine Keep.ite (fun _ => ?_) (fun _ => ?_)
    | split
    | with_reducible refine (Keep.of_frc _ _).after ?_ (by decide))

theorem dropKv_keep (i : Nat) (s : State) : Keep 100798446 s (dropKv i s) := by
  unfold dropKv
  iterate 30 (all_goals try first
    | with_reducible exact Keep.refl _ _
    | with_reducible assumption
    | with_reducible refine (releaseKv_keep ..).after ?_ (by decide)
    | with_reducible refine (modSession_keep ..).after ?_ (by decide)
    | with_reducible refine Keep.ite (fun _ => ?_) (fun _ => ?_)
    | split)

theorem commitEvent_keep (i : Nat) (k : Evt) (st : Status) (s : State) : Keep 369233902 s (commitEvent i k st s) := by
  unfold commitEvent
  iterate 30 (all_goals try first
    | with_reducible exact Keep.refl _ _
    | with_reducible assumption
    | (extract_lets +onlyGivenNames zz; refine Keep.cut zz ?_ (fun _ => ?_); (rotate_left; (try clear_value zz); rotate_right; subst zz))
    | (extract_lets +onlyGivenNames zz; subst zz)
    | with_reducible refine (dropKv_keep ..).after ?_ (by decide)
    | with_reducible refine (applyRepoints_keep ..).after ?_ (by decide)
    | with_reducible refine (modSession_keep ..).after ?_ (by decide)
    | with_reducible refine (takeGen_keep (by assumption)).after ?_ (by decide)
    | with_reducible refine (takeGen_keepP ..).after ?_ (by decide)
    | with_reducible refine (capEvent_keep ..).after ?_ (by decide)
    | with_reducible refine Keep.getD (fun _ _ => ?_) ?_
    | with_reducible refine Keep.ite (fun _ => ?_) (fun _ => ?_)
    | split
    | with_reducible refine (Keep.of_sec _ _ (by rfl)).after ?_ (by decide))

end Sys2Proof.Machine
end

