-- ==== Sys2Proof/Laws/KeepSpill.lean ====
section
/-!
SUPPORT. Laws/KeepSpill.lean: what each operation of Machine/Spill.lean can change (Laws/Keep.lean).
-/
set_option Elab.async false
set_option linter.all false
namespace Sys2Proof.Machine

open Sys2Proof

theorem allocWait_keep (n h tier : Nat) (s : State) : Keep 3598 s (allocWait n h tier s) := by
  unfold allocWait
  iterate 30 (all_goals try first
    | with_reducible exact Keep.refl _ _
    | with_reducible assumption
    | with_reducible refine (logEv_keep ..).after ?_ (by decide)
    | with_reducible refine (bump_keep ..).after ?_ (by decide)
    | with_reducible refine Keep.ite (fun _ => ?_) (fun _ => ?_)
    | split)

theorem spillMove_keep (h tier : Nat) (why : MoveWhy) (s : State) : Keep 67112942 s (spillMove h tier why s) := by
  unfold spillMove
  iterate 30 (all_goals try first
    | with_reducible exact Keep.refl _ _
    | with_reducible assumption
    | (extract_lets +onlyGivenNames zz; refine Keep.cut zz ?_ (fun _ => ?_); (rotate_left; (try clear_value zz); rotate_right; subst zz))
    | (extract_lets +onlyGivenNames zz; subst zz)
    | with_reducible refine (allocWait_keep ..).after ?_ (by decide)
    | with_reducible refine (startMove_keep (by assumption)).after ?_ (by decide)
    | with_reducible refine Keep.getD (fun _ _ => ?_) ?_
    | with_reducible refine Keep.findSome (by assumption) (fun _ _ => ?_)
    | with_reducible refine Keep.ite (fun _ => ?_) (fun _ => ?_)
    | split)

theorem tierError_keep (ev : Ev) (slot part tier : Nat) (unit : Option Resource) (h : Nat) (who : Met) (layer : Nat) (s : State) : Keep 3598 s (tierError ev slot part tier unit h who layer s) := by
  unfold tierError
  iterate 30 (all_goals try first
    | with_reducible exact Keep.refl _ _
    | with_reducible assumption
    | with_reducible refine (raiseErr_keep ..).after ?_ (by decide)
    | with_reducible refine Keep.ite (fun _ => ?_) (fun _ => ?_)
    | split)

theorem failMet_keep (k base units : Nat) (write : Bool) (s : State) : Keep 67108864 s (failMet k base units write s) := by
  unfold failMet
  iterate 30 (all_goals try first
    | with_reducible exact Keep.refl _ _
    | with_reducible assumption
    | (extract_lets +onlyGivenNames zz; refine Keep.cut zz ?_ (fun _ => ?_); (rotate_left; (try clear_value zz); rotate_right; subst zz))
    | (extract_lets +onlyGivenNames zz; subst zz)
    | with_reducible refine (setTmg_keep ..).after ?_ (by decide)
    | with_reducible refine Keep.ite (fun _ => ?_) (fun _ => ?_)
    | split)

theorem foldedRecover_keep {r : PageRec} {index : Nat} {s : State} {t0 : State} {x1 : PageRec} (h : foldedRecover r index s = (t0, x1)) : Keep 4078 s t0 := by
  unfold foldedRecover at h
  try dsimp only at h
  repeat' (first | split at h)
  all_goals try (exact absurd h (by simp only [reduceCtorEq, not_false_eq_true]))
  all_goals try (with_reducible obtain ⟨rfl, rfl⟩ := Prod.mk.inj h)
  iterate 30 (all_goals try first
    | with_reducible exact Keep.refl _ _
    | with_reducible assumption
    | (extract_lets +onlyGivenNames zz; refine Keep.cut zz ?_ (fun _ => ?_); (rotate_left; (try clear_value zz); rotate_right; subst zz))
    | (extract_lets +onlyGivenNames zz; subst zz)
    | with_reducible refine (expanderRead_keep (by assumption)).after ?_ (by decide)
    | with_reducible refine (expanderRead_keepP ..).after ?_ (by decide)
    | with_reducible refine (handToTest_keep ..).after ?_ (by decide)
    | with_reducible refine (writeSlot_keep ..).after ?_ (by decide)
    | with_reducible refine (releaseSlot_keep ..).after ?_ (by decide)
    | with_reducible refine (logEv_keep ..).after ?_ (by decide)
    | with_reducible refine (bump_keep ..).after ?_ (by decide)
    | with_reducible refine Keep.pairIte (by assumption) (fun _ => ?_)
    | with_reducible refine Keep.pairIteElse (by assumption) (fun _ => ?_)
    | with_reducible refine Keep.ite (fun _ => ?_) (fun _ => ?_)
    | split)
theorem foldedRecover_keepP (r : PageRec) (index : Nat) (s : State) : Keep 4078 s (foldedRecover r index s).1 := foldedRecover_keep (r := r) (index := index) (s := s) rfl

theorem foldedFails_keep {r : PageRec} {index : Nat} {s : State} {t0 : State} {x1 : PageRec} (h : foldedFails r index s = (t0, x1)) : Keep 67112942 s t0 := by
  unfold foldedFails at h
  try dsimp only at h
  repeat' (first | split at h)
  all_goals try (exact absurd h (by simp only [reduceCtorEq, not_false_eq_true]))
  all_goals try (with_reducible obtain ⟨rfl, rfl⟩ := Prod.mk.inj h)
  iterate 30 (all_goals try first
    | with_reducible exact Keep.refl _ _
    | with_reducible assumption
    | (extract_lets +onlyGivenNames zz; refine Keep.cut zz ?_ (fun _ => ?_); (rotate_left; (try clear_value zz); rotate_right; subst zz))
    | (extract_lets +onlyGivenNames zz; subst zz)
    | with_reducible refine (foldedRecover_keep (by assumption)).after ?_ (by decide)
    | with_reducible refine (foldedRecover_keepP ..).after ?_ (by decide)
    | with_reducible refine (failMet_keep ..).after ?_ (by decide)
    | with_reducible refine (tierError_keep ..).after ?_ (by decide)
    | with_reducible refine (bump_keep ..).after ?_ (by decide)
    | with_reducible refine Keep.pairIte (by assumption) (fun _ => ?_)
    | with_reducible refine Keep.pairIteElse (by assumption) (fun _ => ?_)
    | with_reducible refine Keep.ite (fun _ => ?_) (fun _ => ?_)
    | split)
theorem foldedFails_keepP (r : PageRec) (index : Nat) (s : State) : Keep 67112942 s (foldedFails r index s).1 := foldedFails_keep (r := r) (index := index) (s := s) rfl

theorem foldedDest_keep {r : PageRec} {tier index : Nat} {s : State} {x0 : Option (Nat × Nat)} {t0 : State} (h : foldedDest r tier index s = (x0, t0)) : Keep 67109892 s t0 := by
  unfold foldedDest at h
  try dsimp only at h
  repeat' (first | split at h)
  all_goals try (exact absurd h (by simp only [reduceCtorEq, not_false_eq_true]))
  all_goals try (with_reducible obtain ⟨rfl, rfl⟩ := Prod.mk.inj h)
  iterate 30 (all_goals try first
    | with_reducible exact Keep.refl _ _
    | with_reducible assumption
    | (extract_lets +onlyGivenNames zz; refine Keep.cut zz ?_ (fun _ => ?_); (rotate_left; (try clear_value zz); rotate_right; subst zz))
    | (extract_lets +onlyGivenNames zz; subst zz)
    | with_reducible refine (failMet_keep ..).after ?_ (by decide)
    | with_reducible refine (handToTest_keep ..).after ?_ (by decide)
    | with_reducible refine (setFrc_keep ..).after ?_ (by decide)
    | with_reducible refine Keep.pairIte (by assumption) (fun _ => ?_)
    | with_reducible refine Keep.pairIteElse (by assumption) (fun _ => ?_)
    | with_reducible refine Keep.ite (fun _ => ?_) (fun _ => ?_)
    | split)
theorem foldedDest_keepP (r : PageRec) (tier index : Nat) (s : State) : Keep 67109892 s (foldedDest r tier index s).2 := foldedDest_keep (r := r) (tier := tier) (index := index) (s := s) rfl

theorem foldedPlace_keep {r : PageRec} {tier index : Nat} {s : State} {t0 : State} {x1 : PageRec} (h : foldedPlace r tier index s = (t0, x1)) : Keep 67112942 s t0 := by
  unfold foldedPlace at h
  try dsimp only at h
  repeat' (first | split at h)
  all_goals try (exact absurd h (by simp only [reduceCtorEq, not_false_eq_true]))
  all_goals try (with_reducible obtain ⟨rfl, rfl⟩ := Prod.mk.inj h)
  iterate 30 (all_goals try first
    | with_reducible exact Keep.refl _ _
    | with_reducible assumption
    | (extract_lets +onlyGivenNames zz; refine Keep.cut zz ?_ (fun _ => ?_); (rotate_left; (try clear_value zz); rotate_right; subst zz))
    | (extract_lets +onlyGivenNames zz; subst zz)
    | with_reducible refine (foldedDest_keep (by assumption)).after ?_ (by decide)
    | with_reducible refine (foldedDest_keepP ..).after ?_ (by decide)
    | with_reducible refine (foldedFails_keep (by assumption)).after ?_ (by decide)
    | with_reducible refine (foldedFails_keepP ..).after ?_ (by decide)
    | with_reducible refine (allocWait_keep ..).after ?_ (by decide)
    | with_reducible refine (copySlot_keep ..).after ?_ (by decide)
    | with_reducible refine (releaseSlot_keep ..).after ?_ (by decide)
    | with_reducible refine Keep.pairIte (by assumption) (fun _ => ?_)
    | with_reducible refine Keep.pairIteElse (by assumption) (fun _ => ?_)
    | with_reducible refine Keep.ite (fun _ => ?_) (fun _ => ?_)
    | split)
theorem foldedPlace_keepP (r : PageRec) (tier index : Nat) (s : State) : Keep 67112942 s (foldedPlace r tier index s).1 := foldedPlace_keep (r := r) (tier := tier) (index := index) (s := s) rfl

theorem foldedMove_keep {r : PageRec} {tier index : Nat} {s : State} {t0 : State} {x1 : PageRec} (h : foldedMove r tier index s = (t0, x1)) : Keep 67112942 s t0 := by
  unfold foldedMove at h
  try dsimp only at h
  repeat' (first | split at h)
  all_goals try (exact absurd h (by simp only [reduceCtorEq, not_false_eq_true]))
  all_goals try (with_reducible obtain ⟨rfl, rfl⟩ := Prod.mk.inj h)
  iterate 30 (all_goals try first
    | with_reducible exact Keep.refl _ _
    | with_reducible assumption
    | with_reducible refine (foldedPlace_keep (by assumption)).after ?_ (by decide)
    | with_reducible refine (foldedPlace_keepP ..).after ?_ (by decide)
    | with_reducible refine Keep.pairIte (by assumption) (fun _ => ?_)
    | with_reducible refine Keep.pairIteElse (by assumption) (fun _ => ?_)
    | with_reducible refine Keep.ite (fun _ => ?_) (fun _ => ?_)
    | split)
theorem foldedMove_keepP (r : PageRec) (tier index : Nat) (s : State) : Keep 67112942 s (foldedMove r tier index s).1 := foldedMove_keep (r := r) (tier := tier) (index := index) (s := s) rfl

theorem foldedPromote_keep {r : PageRec} {tier index : Nat} {s : State} {t0 : State} {x1 : PageRec} (h : foldedPromote r tier index s = (t0, x1)) : Keep 67112942 s t0 := by
  unfold foldedPromote at h
  try dsimp only at h
  repeat' (first | split at h)
  all_goals try (exact absurd h (by simp only [reduceCtorEq, not_false_eq_true]))
  all_goals try (with_reducible obtain ⟨rfl, rfl⟩ := Prod.mk.inj h)
  iterate 30 (all_goals try first
    | with_reducible exact Keep.refl _ _
    | with_reducible assumption
    | (extract_lets +onlyGivenNames zz; refine Keep.cut zz ?_ (fun _ => ?_); (rotate_left; (try clear_value zz); rotate_right; subst zz))
    | (extract_lets +onlyGivenNames zz; subst zz)
    | with_reducible refine (foldedFails_keep (by assumption)).after ?_ (by decide)
    | with_reducible refine (foldedFails_keepP ..).after ?_ (by decide)
    | with_reducible refine (copySlot_keep ..).after ?_ (by decide)
    | with_reducible refine (releaseSlot_keep ..).after ?_ (by decide)
    | with_reducible refine (bump_keep ..).after ?_ (by decide)
    | with_reducible refine Keep.pairIte (by assumption) (fun _ => ?_)
    | with_reducible refine Keep.pairIteElse (by assumption) (fun _ => ?_)
    | with_reducible refine Keep.ite (fun _ => ?_) (fun _ => ?_)
    | split)
theorem foldedPromote_keepP (r : PageRec) (tier index : Nat) (s : State) : Keep 67112942 s (foldedPromote r tier index s).1 := foldedPromote_keep (r := r) (tier := tier) (index := index) (s := s) rfl

theorem sessionFolded_keep {k : Nat} (f : PageRec → State → State × PageRec) (i j : Nat) (s : State) (hk : 67243500 ||| k = k)
    (hf : ∀ r s, Keep k s (f r s).1) : Keep k s (sessionFolded f i j s) := by
  have hm : 131072 ||| k = k := by rw [← hk, ← Nat.or_assoc]; rfl
  have hr : 67112428 ||| k = k := by rw [← hk, ← Nat.or_assoc]; rfl
  unfold sessionFolded
  split
  · exact Keep.refl _ _
  · split
    · exact Keep.refl _ _
    · exact (retryRecovery_keep ..).after ((modSession_keep ..).after (hf _ _) hm) hr

theorem sessionFoldedMove_keep (i j tier : Nat) (s : State) : Keep 67244014 s (sessionFoldedMove i j tier s) := by
  unfold sessionFoldedMove
  iterate 30 (all_goals try first
    | with_reducible exact Keep.refl _ _
    | with_reducible assumption
    | with_reducible refine sessionFolded_keep _ _ _ _ (by decide) (fun _ _ => ?_)
    | with_reducible refine (foldedMove_keep (by assumption)).after ?_ (by decide)
    | with_reducible refine (foldedMove_keepP ..).after ?_ (by decide)
    | with_reducible refine Keep.ite (fun _ => ?_) (fun _ => ?_)
    | split)

theorem ladderMoves_keep (i tier : Nat) (s : State) : Keep 67244014 s (ladderMoves i tier s) := by
  unfold ladderMoves
  iterate 30 (all_goals try first
    | with_reducible exact Keep.refl _ _
    | with_reducible assumption
    | (extract_lets +onlyGivenNames zz; refine Keep.cut zz ?_ (fun _ => ?_); (rotate_left; (try clear_value zz); rotate_right; subst zz))
    | (extract_lets +onlyGivenNames zz; subst zz)
    | with_reducible refine (sessionFoldedMove_keep ..).after ?_ (by decide)
    | with_reducible refine (spillMove_keep ..).after ?_ (by decide)
    | with_reducible refine (tryFold_keep ..).after ?_ (by decide)
    | with_reducible refine (modSession_keep ..).after ?_ (by decide)
    | with_reducible refine (bump_keep ..).after ?_ (by decide)
    | with_reducible refine Keep.foldl (fun _ _ => ?_) ?_ _
    | with_reducible refine Keep.foldlFst (fun _ _ => ?_) ?_ _
    | with_reducible refine Keep.foldlSnd (fun _ _ => ?_) ?_ _
    | with_reducible refine Keep.ite (fun _ => ?_) (fun _ => ?_)
    | split)

theorem readToT0_keep (h : Nat) (why : MoveWhy) (s : State) : Keep 67112942 s (readToT0 h why s) := by
  unfold readToT0
  iterate 30 (all_goals try first
    | with_reducible exact Keep.refl _ _
    | with_reducible assumption
    | (extract_lets +onlyGivenNames zz; refine Keep.cut zz ?_ (fun _ => ?_); (rotate_left; (try clear_value zz); rotate_right; subst zz))
    | (extract_lets +onlyGivenNames zz; subst zz)
    | with_reducible refine (allocWait_keep ..).after ?_ (by decide)
    | with_reducible refine (startMove_keep (by assumption)).after ?_ (by decide)
    | with_reducible refine (setTmg_keep ..).after ?_ (by decide)
    | with_reducible refine Keep.getD (fun _ _ => ?_) ?_
    | with_reducible refine Keep.ite (fun _ => ?_) (fun _ => ?_)
    | split)

theorem retryWaits_keep (s : State) : Keep 67112428 s (retryWaits s) := by
  unfold retryWaits
  iterate 30 (all_goals try first
    | with_reducible exact Keep.refl _ _
    | with_reducible assumption
    | (extract_lets +onlyGivenNames zz; refine Keep.cut zz ?_ (fun _ => ?_); (rotate_left; (try clear_value zz); rotate_right; subst zz))
    | (extract_lets +onlyGivenNames zz; subst zz)
    | with_reducible refine (startMove_keep (by assumption)).after ?_ (by decide)
    | with_reducible refine (setTmg_keep ..).after ?_ (by decide)
    | with_reducible refine Keep.foldl (fun _ _ => ?_) ?_ _
    | with_reducible refine Keep.foldlFst (fun _ _ => ?_) ?_ _
    | with_reducible refine Keep.foldlSnd (fun _ _ => ?_) ?_ _
    | with_reducible refine Keep.ite (fun _ => ?_) (fun _ => ?_)
    | split)

theorem columnFolded_keep {k : Nat} (f : PageRec → State → State × PageRec) (i j : Nat) (s : State) (hk : 369102830 ||| k = k)
    (hf : ∀ r s, Keep k s (f r s).1) : Keep k s (columnFolded f i j s) := by
  have hc : 369102830 ||| k = k := by rw [← hk, ← Nat.or_assoc]; rfl
  have hr : 67112428 ||| k = k := by rw [← hk, ← Nat.or_assoc]; rfl
  have hp : 268435456 ||| k = k := by rw [← hk, ← Nat.or_assoc]; rfl
  unfold columnFolded
  split
  · exact Keep.refl _ _
  · rename_i r _
    have g := fun p => (Keep.of_pme _ p).after (hf r s) hp
    refine (retryRecovery_keep ..).after ?_ hr
    dsimp only
    split
    · exact (killColumns_keep ..).after (g _) hc
    · exact g _

theorem columnFoldedMove_keep (i j tier : Nat) (s : State) : Keep 369102830 s (columnFoldedMove i j tier s) := by
  unfold columnFoldedMove
  iterate 30 (all_goals try first
    | with_reducible exact Keep.refl _ _
    | with_reducible assumption
    | with_reducible refine columnFolded_keep _ _ _ _ (by decide) (fun _ _ => ?_)
    | with_reducible refine (foldedMove_keep (by assumption)).after ?_ (by decide)
    | with_reducible refine (foldedMove_keepP ..).after ?_ (by decide)
    | with_reducible refine Keep.ite (fun _ => ?_) (fun _ => ?_)
    | split)

theorem relieveOne_keep (k : Nat) (first : Bool) (key : Nat) (s : State) : Keep 369233902 s (relieveOne k first key s) := by
  unfold relieveOne
  iterate 30 (all_goals try first
    | with_reducible exact Keep.refl _ _
    | with_reducible assumption
    | (extract_lets +onlyGivenNames zz; refine Keep.cut zz ?_ (fun _ => ?_); (rotate_left; (try clear_value zz); rotate_right; subst zz))
    | (extract_lets +onlyGivenNames zz; subst zz)
    | with_reducible refine (columnFoldedMove_keep ..).after ?_ (by decide)
    | with_reducible refine (sessionFoldedMove_keep ..).after ?_ (by decide)
    | with_reducible refine (spillMove_keep ..).after ?_ (by decide)
    | with_reducible refine (bump_keep ..).after ?_ (by decide)
    | with_reducible refine Keep.ite (fun _ => ?_) (fun _ => ?_)
    | split)

theorem reliefRun_keep {n k : Nat} {first : Bool} {s : State} {need : Bool} {t0 : State} {x1 : Bool} (h : reliefRun n k first s need = (t0, x1)) : Keep 369233902 s t0 := by
  unfold reliefRun at h
  try dsimp only at h
  repeat' (first | split at h)
  all_goals try (exact absurd h (by simp only [reduceCtorEq, not_false_eq_true]))
  all_goals try (with_reducible obtain ⟨rfl, rfl⟩ := Prod.mk.inj h)
  iterate 30 (all_goals try first
    | with_reducible exact Keep.refl _ _
    | with_reducible assumption
    | (extract_lets +onlyGivenNames zz; refine Keep.cut zz ?_ (fun _ => ?_); (rotate_left; (try clear_value zz); rotate_right; subst zz))
    | (extract_lets +onlyGivenNames zz; subst zz)
    | with_reducible refine (relieveOne_keep ..).after ?_ (by decide)
    | with_reducible refine Keep.foldl (fun _ _ => ?_) ?_ _
    | with_reducible refine Keep.foldlFst (fun _ _ => ?_) ?_ _
    | with_reducible refine Keep.foldlSnd (fun _ _ => ?_) ?_ _
    | with_reducible refine Keep.pairIte (by assumption) (fun _ => ?_)
    | with_reducible refine Keep.pairIteElse (by assumption) (fun _ => ?_)
    | with_reducible refine Keep.ite (fun _ => ?_) (fun _ => ?_)
    | split)
theorem reliefRun_keepP (n k : Nat) (first : Bool) (s : State) (need : Bool) : Keep 369233902 s (reliefRun n k first s need).1 := reliefRun_keep (n := n) (k := k) (first := first) (s := s) (need := need) rfl

theorem relieve_keep (n k : Nat) (need : Bool) (s : State) : Keep 369233902 s (relieve n k need s) := by
  unfold relieve
  iterate 30 (all_goals try first
    | with_reducible exact Keep.refl _ _
    | with_reducible assumption
    | (extract_lets +onlyGivenNames zz; refine Keep.cut zz ?_ (fun _ => ?_); (rotate_left; (try clear_value zz); rotate_right; subst zz))
    | (extract_lets +onlyGivenNames zz; subst zz)
    | with_reducible refine (reliefRun_keep (by assumption)).after ?_ (by decide)
    | with_reducible refine (reliefRun_keepP ..).after ?_ (by decide)
    | with_reducible refine Keep.ite (fun _ => ?_) (fun _ => ?_)
    | split)

theorem foldColumn_keep (n i : Nat) (s : State) : Keep 335544324 s (foldColumn n i s) := by
  unfold foldColumn
  iterate 30 (all_goals try first
    | with_reducible exact Keep.refl _ _
    | with_reducible assumption
    | (extract_lets +onlyGivenNames zz; refine Keep.cut zz ?_ (fun _ => ?_); (rotate_left; (try clear_value zz); rotate_right; subst zz))
    | (extract_lets +onlyGivenNames zz; subst zz)
    | with_reducible refine (renameColumn_keep ..).after ?_ (by decide)
    | with_reducible refine (modPme_keep ..).after ?_ (by decide)
    | with_reducible refine (setTmg_keep ..).after ?_ (by decide)
    | with_reducible refine (bumpBy_keep ..).after ?_ (by decide)
    | with_reducible refine Keep.getD (fun _ _ => ?_) ?_
    | with_reducible refine Keep.foldl (fun _ _ => ?_) ?_ _
    | with_reducible refine Keep.foldlFst (fun _ _ => ?_) ?_ _
    | with_reducible refine Keep.foldlSnd (fun _ _ => ?_) ?_ _
    | with_reducible refine Keep.ite (fun _ => ?_) (fun _ => ?_)
    | split)

end Sys2Proof.Machine
end

