-- ==== Sys2Proof/Laws/KeepTurns.lean ====
section
/-!
SUPPORT. Laws/KeepTurns.lean: what each operation of Machine/Turns.lean can change (Laws/Keep.lean).
-/
set_option Elab.async false
set_option linter.all false
namespace Sys2Proof.Machine

open Sys2Proof

theorem modTurn_keep (i : Nat) (f : Turn → Turn) (s : State) : Keep 33554432 s (modTurn i f s) := by
  unfold modTurn
  iterate 30 (all_goals try first
    | with_reducible exact Keep.refl _ _
    | with_reducible assumption
    | (extract_lets +onlyGivenNames zz; refine Keep.cut zz ?_ (fun _ => ?_); (rotate_left; (try clear_value zz); rotate_right; subst zz))
    | (extract_lets +onlyGivenNames zz; subst zz)
    | with_reducible refine Keep.ite (fun _ => ?_) (fun _ => ?_)
    | split
    | with_reducible refine (Keep.of_turns _ _).after ?_ (by decide))

theorem dropTurn_keep (i : Nat) (s : State) : Keep 33554432 s (dropTurn i s) := by
  unfold dropTurn
  iterate 30 (all_goals try first
    | with_reducible exact Keep.refl _ _
    | with_reducible assumption
    | (extract_lets +onlyGivenNames zz; refine Keep.cut zz ?_ (fun _ => ?_); (rotate_left; (try clear_value zz); rotate_right; subst zz))
    | (extract_lets +onlyGivenNames zz; subst zz)
    | with_reducible refine Keep.ite (fun _ => ?_) (fun _ => ?_)
    | split
    | with_reducible refine (Keep.of_turns _ _).after ?_ (by decide))

theorem reviveStart_keep (y0 y1 y2 : Nat) (y3 : State) : Keep 201330670 y3 (reviveStart y0 y1 y2 y3) := by
  induction y0 generalizing y1 y2 y3 with
  | zero => exact Keep.refl _ _
  | succ n ih =>
    unfold reviveStart
    iterate 30 (all_goals try first
      | with_reducible exact Keep.refl _ _
      | with_reducible assumption
      | (extract_lets +onlyGivenNames zz; refine Keep.cut zz ?_ (fun _ => ?_); (rotate_left; (try clear_value zz); rotate_right; subst zz))
      | (extract_lets +onlyGivenNames zz; subst zz)
      | with_reducible refine (ih ..).after ?_ (by decide)
      | with_reducible refine (readToT0_keep ..).after ?_ (by decide)
      | with_reducible refine (setHrc_keep ..).after ?_ (by decide)
      | with_reducible refine Keep.getD (fun _ _ => ?_) ?_
      | with_reducible refine Keep.foldl (fun _ _ => ?_) ?_ _
      | with_reducible refine Keep.foldlFst (fun _ _ => ?_) ?_ _
      | with_reducible refine Keep.foldlSnd (fun _ _ => ?_) ?_ _
      | with_reducible refine Keep.ite (fun _ => ?_) (fun _ => ?_)
      | split)

theorem countHistory_keep (i : Nat) (s : State) : Keep 33554432 s (countHistory i s) := by
  unfold countHistory
  iterate 30 (all_goals try first
    | with_reducible exact Keep.refl _ _
    | with_reducible assumption
    | with_reducible refine (modTurn_keep ..).after ?_ (by decide)
    | with_reducible refine Keep.ite (fun _ => ?_) (fun _ => ?_)
    | split)

theorem storeCounts_keep (i : Nat) (s : State) : Keep 131072 s (storeCounts i s) := by
  unfold storeCounts
  iterate 30 (all_goals try first
    | with_reducible exact Keep.refl _ _
    | with_reducible assumption
    | with_reducible refine (modSession_keep ..).after ?_ (by decide)
    | with_reducible refine Keep.ite (fun _ => ?_) (fun _ => ?_)
    | split)

theorem emptyEntry_keep {t : Turn} {st : Status} {reason : Nat} {late : Bool} {step : Nat} {s : State} {x0 : TailEntry} {t0 : State} (h : emptyEntry t st reason late step s = (x0, t0)) : Keep 16 s t0 := by
  unfold emptyEntry at h
  try dsimp only at h
  repeat' (first | split at h)
  all_goals try (exact absurd h (by simp only [reduceCtorEq, not_false_eq_true]))
  all_goals try (with_reducible obtain ⟨rfl, rfl⟩ := Prod.mk.inj h)
  iterate 30 (all_goals try first
    | with_reducible exact Keep.refl _ _
    | with_reducible assumption
    | with_reducible refine (fresh_keep (by assumption)).after ?_ (by decide)
    | with_reducible refine (fresh_keepP ..).after ?_ (by decide)
    | with_reducible refine Keep.pairIte (by assumption) (fun _ => ?_)
    | with_reducible refine Keep.pairIteElse (by assumption) (fun _ => ?_)
    | with_reducible refine Keep.ite (fun _ => ?_) (fun _ => ?_)
    | split)
theorem emptyEntry_keepP (t : Turn) (st : Status) (reason : Nat) (late : Bool) (step : Nat) (s : State) : Keep 16 s (emptyEntry t st reason late step s).2 := emptyEntry_keep (t := t) (st := st) (reason := reason) (late := late) (step := step) (s := s) rfl

theorem endEntry_keep {x : Wheel} {t : Turn} {st : Status} {reason : Nat} {late : Bool} {s : State} {x0 : TailEntry} {t0 : State} (h : endEntry x t st reason late s = (x0, t0)) : Keep 16 s t0 := by
  unfold endEntry at h
  try dsimp only at h
  repeat' (first | split at h)
  all_goals try (exact absurd h (by simp only [reduceCtorEq, not_false_eq_true]))
  all_goals try (with_reducible obtain ⟨rfl, rfl⟩ := Prod.mk.inj h)
  iterate 30 (all_goals try first
    | with_reducible exact Keep.refl _ _
    | with_reducible assumption
    | with_reducible refine (emptyEntry_keep (by assumption)).after ?_ (by decide)
    | with_reducible refine (emptyEntry_keepP ..).after ?_ (by decide)
    | with_reducible refine Keep.pairIte (by assumption) (fun _ => ?_)
    | with_reducible refine Keep.pairIteElse (by assumption) (fun _ => ?_)
    | with_reducible refine Keep.ite (fun _ => ?_) (fun _ => ?_)
    | split)
theorem endEntry_keepP (x : Wheel) (t : Turn) (st : Status) (reason : Nat) (late : Bool) (s : State) : Keep 16 s (endEntry x t st reason late s).2 := endEntry_keep (x := x) (t := t) (st := st) (reason := reason) (late := late) (s := s) rfl

theorem endInStep_keep (t : Turn) (st : Status) (reason : Nat) (late : Bool) (s : State) : Keep 780275710 s (endInStep t st reason late s) := by
  unfold endInStep
  iterate 30 (all_goals try first
    | with_reducible exact Keep.refl _ _
    | with_reducible assumption
    | (extract_lets +onlyGivenNames zz; refine Keep.cut zz ?_ (fun _ => ?_); (rotate_left; (try clear_value zz); rotate_right; subst zz))
    | (extract_lets +onlyGivenNames zz; subst zz)
    | with_reducible refine (endEntry_keep (by assumption)).after ?_ (by decide)
    | with_reducible refine (endEntry_keepP ..).after ?_ (by decide)
    | with_reducible refine (settleGone_keep ..).after ?_ (by decide)
    | with_reducible refine (rollbackTurn_keep ..).after ?_ (by decide)
    | with_reducible refine (finishTail_keep ..).after ?_ (by decide)
    | with_reducible refine (recordTail_keep ..).after ?_ (by decide)
    | with_reducible refine (dropTurnItems_keep ..).after ?_ (by decide)
    | with_reducible refine (settleParts_keep ..).after ?_ (by decide)
    | with_reducible refine (modWheel_keep ..).after ?_ (by decide)
    | with_reducible refine Keep.ite (fun _ => ?_) (fun _ => ?_)
    | split)

theorem endTurn_keep (i : Nat) (st : Status) (reason : Nat) (late : Bool) (s : State) : Keep 780349438 s (endTurn i st reason late s) := by
  unfold endTurn
  iterate 30 (all_goals try first
    | with_reducible exact Keep.refl _ _
    | with_reducible assumption
    | (extract_lets +onlyGivenNames zz; refine Keep.cut zz ?_ (fun _ => ?_); (rotate_left; (try clear_value zz); rotate_right; subst zz))
    | (extract_lets +onlyGivenNames zz; subst zz)
    | with_reducible refine (endInStep_keep ..).after ?_ (by decide)
    | with_reducible refine (storeCounts_keep ..).after ?_ (by decide)
    | with_reducible refine (reviveStart_keep ..).after ?_ (by decide)
    | with_reducible refine (dropTurn_keep ..).after ?_ (by decide)
    | with_reducible refine (ladderMoves_keep ..).after ?_ (by decide)
    | with_reducible refine (sealCapsule_keep ..).after ?_ (by decide)
    | with_reducible refine (stageCapsule_keep ..).after ?_ (by decide)
    | with_reducible refine (setHrc_keep ..).after ?_ (by decide)
    | with_reducible refine (modSession_keep ..).after ?_ (by decide)
    | with_reducible refine (setTmg_keep ..).after ?_ (by decide)
    | with_reducible refine (complete_keep ..).after ?_ (by decide)
    | with_reducible refine Keep.foldl (fun _ _ => ?_) ?_ _
    | with_reducible refine Keep.foldlFst (fun _ _ => ?_) ?_ _
    | with_reducible refine Keep.foldlSnd (fun _ _ => ?_) ?_ _
    | with_reducible refine Keep.ite (fun _ => ?_) (fun _ => ?_)
    | split)

theorem objectError_keep (i : Nat) (bad : List (Nat × Nat × Nat)) (s : State) : Keep 527886 s (objectError i bad s) := by
  unfold objectError
  iterate 30 (all_goals try first
    | with_reducible exact Keep.refl _ _
    | with_reducible assumption
    | (extract_lets +onlyGivenNames zz; refine Keep.cut zz ?_ (fun _ => ?_); (rotate_left; (try clear_value zz); rotate_right; subst zz))
    | (extract_lets +onlyGivenNames zz; subst zz)
    | with_reducible refine (tagErrors_keep ..).after ?_ (by decide)
    | with_reducible refine Keep.foldl (fun _ _ => ?_) ?_ _
    | with_reducible refine Keep.foldlFst (fun _ _ => ?_) ?_ _
    | with_reducible refine Keep.foldlSnd (fun _ _ => ?_) ?_ _
    | with_reducible refine Keep.ite (fun _ => ?_) (fun _ => ?_)
    | split
    | with_reducible refine (Keep.of_corrupt _ _).after ?_ (by decide))

theorem admitTurn_keep (t : Turn) (s : State) : Keep 1049309182 s (admitTurn t s) := by
  unfold admitTurn
  iterate 30 (all_goals try first
    | with_reducible exact Keep.refl _ _
    | with_reducible assumption
    | (extract_lets +onlyGivenNames zz; refine Keep.cut zz ?_ (fun _ => ?_); (rotate_left; (try clear_value zz); rotate_right; subst zz))
    | (extract_lets +onlyGivenNames zz; subst zz)
    | with_reducible refine (objectError_keep ..).after ?_ (by decide)
    | with_reducible refine (endTurn_keep ..).after ?_ (by decide)
    | with_reducible refine (countHistory_keep ..).after ?_ (by decide)
    | with_reducible refine (reviveStart_keep ..).after ?_ (by decide)
    | with_reducible refine (commitEvent_keep ..).after ?_ (by decide)
    | with_reducible refine (admitCapsule_keep ..).after ?_ (by decide)
    | with_reducible refine (setHrc_keep ..).after ?_ (by decide)
    | with_reducible refine (unfoldSession_keep (by assumption)).after ?_ (by decide)
    | with_reducible refine (modSession_keep ..).after ?_ (by decide)
    | with_reducible refine (bump_keep ..).after ?_ (by decide)
    | with_reducible refine (bumpBy_keep ..).after ?_ (by decide)
    | with_reducible refine Keep.getD (fun _ _ => ?_) ?_
    | with_reducible refine Keep.foldl (fun _ _ => ?_) ?_ _
    | with_reducible refine Keep.foldlFst (fun _ _ => ?_) ?_ _
    | with_reducible refine Keep.foldlSnd (fun _ _ => ?_) ?_ _
    | with_reducible refine Keep.ite (fun _ => ?_) (fun _ => ?_)
    | split
    | with_reducible refine (Keep.of_turns _ _).after ?_ (by decide))

theorem weirEvaluate_keep (n : Nat) (s : State) : Keep 1049309182 s (weirEvaluate n s) := by
  unfold weirEvaluate
  iterate 30 (all_goals try first
    | with_reducible exact Keep.refl _ _
    | with_reducible assumption
    | (extract_lets +onlyGivenNames zz; refine Keep.cut zz ?_ (fun _ => ?_); (rotate_left; (try clear_value zz); rotate_right; subst zz))
    | (extract_lets +onlyGivenNames zz; subst zz)
    | with_reducible refine (admitTurn_keep ..).after ?_ (by decide)
    | with_reducible refine Keep.foldl (fun _ _ => ?_) ?_ _
    | with_reducible refine Keep.foldlFst (fun _ _ => ?_) ?_ _
    | with_reducible refine Keep.foldlSnd (fun _ _ => ?_) ?_ _
    | with_reducible refine Keep.ite (fun _ => ?_) (fun _ => ?_)
    | split)

theorem endTurnEvent_keep (i : Nat) (k : Evt) (st : Status) (s : State) : Keep 1049309182 s (endTurnEvent i k st s) := by
  unfold endTurnEvent
  iterate 30 (all_goals try first
    | with_reducible exact Keep.refl _ _
    | with_reducible assumption
    | (extract_lets +onlyGivenNames zz; refine Keep.cut zz ?_ (fun _ => ?_); (rotate_left; (try clear_value zz); rotate_right; subst zz))
    | (extract_lets +onlyGivenNames zz; subst zz)
    | with_reducible refine (weirEvaluate_keep ..).after ?_ (by decide)
    | with_reducible refine (endTurn_keep ..).after ?_ (by decide)
    | with_reducible refine (commitEvent_keep ..).after ?_ (by decide)
    | with_reducible refine Keep.getD (fun _ _ => ?_) ?_
    | with_reducible refine Keep.ite (fun _ => ?_) (fun _ => ?_)
    | split)

theorem objectCorrupt_keep (i : Nat) (bad : List (Nat × Nat × Nat)) (s : State) : Keep 1049309182 s (objectCorrupt i bad s) := by
  unfold objectCorrupt
  iterate 30 (all_goals try first
    | with_reducible exact Keep.refl _ _
    | with_reducible assumption
    | (extract_lets +onlyGivenNames zz; refine Keep.cut zz ?_ (fun _ => ?_); (rotate_left; (try clear_value zz); rotate_right; subst zz))
    | (extract_lets +onlyGivenNames zz; subst zz)
    | with_reducible refine (endTurnEvent_keep ..).after ?_ (by decide)
    | with_reducible refine (objectError_keep ..).after ?_ (by decide)
    | with_reducible refine Keep.ite (fun _ => ?_) (fun _ => ?_)
    | split)

theorem descriptorError_keep (i : Nat) (s : State) : Keep 1049309182 s (descriptorError i s) := by
  unfold descriptorError
  iterate 30 (all_goals try first
    | with_reducible exact Keep.refl _ _
    | with_reducible assumption
    | (extract_lets +onlyGivenNames zz; refine Keep.cut zz ?_ (fun _ => ?_); (rotate_left; (try clear_value zz); rotate_right; subst zz))
    | (extract_lets +onlyGivenNames zz; subst zz)
    | with_reducible refine (endTurnEvent_keep ..).after ?_ (by decide)
    | with_reducible refine (raiseErr_keep ..).after ?_ (by decide)
    | with_reducible refine Keep.ite (fun _ => ?_) (fun _ => ?_)
    | split
    | with_reducible refine (Keep.of_corrupt _ _).after ?_ (by decide))

theorem cancelTurn_keep (i : Nat) (s : State) : Keep 1049309182 s (cancelTurn i s) := by
  unfold cancelTurn
  iterate 30 (all_goals try first
    | with_reducible exact Keep.refl _ _
    | with_reducible assumption
    | with_reducible refine (endTurnEvent_keep ..).after ?_ (by decide)
    | with_reducible refine (bump_keep ..).after ?_ (by decide)
    | with_reducible refine Keep.ite (fun _ => ?_) (fun _ => ?_)
    | split)

theorem endTurns_keep (l : List Nat) (st : Status) (s : State) : Keep 1049309182 s (endTurns l st s) := by
  unfold endTurns
  iterate 30 (all_goals try first
    | with_reducible exact Keep.refl _ _
    | with_reducible assumption
    | with_reducible refine (endTurnEvent_keep ..).after ?_ (by decide)
    | with_reducible refine Keep.foldl (fun _ _ => ?_) ?_ _
    | with_reducible refine Keep.foldlFst (fun _ _ => ?_) ?_ _
    | with_reducible refine Keep.foldlSnd (fun _ _ => ?_) ?_ _
    | with_reducible refine Keep.ite (fun _ => ?_) (fun _ => ?_)
    | split)

end Sys2Proof.Machine
end

