-- ==== Sys2Proof/Laws/KeepSessions.lean ====
section
/-!
SUPPORT. Laws/KeepSessions.lean: what each operation of Machine/Sessions.lean can change (Laws/Keep.lean).
-/
set_option Elab.async false
set_option linter.all false
namespace Sys2Proof.Machine

open Sys2Proof

theorem objectsRead_done {i : Nat} {bad : List (Nat × Nat)} {s : State} {k : Res} {t : State} {r : Reply} :
    objectsRead i bad s k = .done t r ↔ (if bad.isEmpty then k else .done (objectCorrupt i (bad.map fun u => (1, u)) s) { status := .sessionCorrupt }) = .done t r := Iff.rfl

theorem objectsRead_wait {i : Nat} {bad : List (Nat × Nat)} {s : State} {k : Res} {t : State} :
    objectsRead i bad s k = .wait t ↔ (if bad.isEmpty then k else .done (objectCorrupt i (bad.map fun u => (1, u)) s) { status := .sessionCorrupt }) = .wait t := Iff.rfl

theorem onSession_done {c : Cmd} {s : State} {k : Nat → Session → Res} {t : State} {r : Reply} :
    onSession c s k = .done t r ↔ ∃ i x, namedSession c.part (c.arg 0 8) s = .inr (i, x) ∧ objectsRead i (objectsBad s 1 [descObject s i x]) s (k i x) = .done t r := by
  unfold onSession
  split
  · rename_i h; simp [h]
  · rename_i h; simp [h]

theorem onSession_wait {c : Cmd} {s : State} {k : Nat → Session → Res} {t : State} :
    onSession c s k = .wait t ↔ ∃ i x, namedSession c.part (c.arg 0 8) s = .inr (i, x) ∧ objectsRead i (objectsBad s 1 [descObject s i x]) s (k i x) = .wait t := by
  unfold onSession
  split
  · rename_i h; simp [h]
  · rename_i h; simp [h]

theorem doneAt_keepD {i : Nat} {s : State} {r : Reply} {t0 : State} {r0 : Reply} (h : doneAt i s r = .done t0 r0) : Keep 0 s t0 := by
  unfold doneAt at h
  try dsimp only at h
  repeat' (first | split at h)
  all_goals try (exact absurd h (by simp only [Res.fail, reduceCtorEq, not_false_eq_true]))
  all_goals try (with_reducible obtain ⟨rfl, rfl⟩ := Res.done.inj h)
  iterate 30 (all_goals try first
    | with_reducible exact Keep.refl _ _
    | with_reducible assumption
    | with_reducible refine Keep.ite (fun _ => ?_) (fun _ => ?_)
    | split)
theorem doneAt_keepW {i : Nat} {s : State} {r : Reply} {t0 : State} (h : doneAt i s r = .wait t0) : Keep 0 s t0 := by
  unfold doneAt at h
  try dsimp only at h
  repeat' (first | split at h)
  all_goals try (exact absurd h (by simp only [Res.fail, reduceCtorEq, not_false_eq_true]))
  all_goals try (with_reducible obtain rfl := Res.wait.inj h)
  iterate 30 (all_goals try first
    | with_reducible exact Keep.refl _ _
    | with_reducible assumption
    | with_reducible refine Keep.ite (fun _ => ?_) (fun _ => ?_)
    | split)

theorem settleAdapter_keep (n id ver : Nat) (s : State) : Keep 373297134 s (settleAdapter n id ver s) := by
  unfold settleAdapter
  iterate 30 (all_goals try first
    | with_reducible exact Keep.refl _ _
    | with_reducible assumption
    | (extract_lets +onlyGivenNames zz; refine Keep.cut zz ?_ (fun _ => ?_); (rotate_left; (try clear_value zz); rotate_right; subst zz))
    | (extract_lets +onlyGivenNames zz; subst zz)
    | with_reducible refine (pmeDropAdapter_keep ..).after ?_ (by decide)
    | with_reducible refine (logEv_keep ..).after ?_ (by decide)
    | with_reducible refine Keep.ite (fun _ => ?_) (fun _ => ?_)
    | split
    | with_reducible refine (Keep.of_adapters _ _).after ?_ (by decide))

theorem addRefs_keep {l : List Nat} {s t0 : State} (h : addRefs l s = some t0) : Keep 67108864 s t0 := by
  have gen : ∀ (l : List Nat) (a : Option State), l.foldl (fun a h => a.bind (addRef h)) a = some t0 → ∃ u, a = some u ∧ Keep 67108864 u t0 := by
    intro l
    induction l with
    | nil => exact fun a ha => ⟨t0, ha, Keep.refl _ _⟩
    | cons x l ih =>
      intro a ha
      obtain ⟨u, hu, ku⟩ := ih _ ha
      obtain ⟨v, hv, hx⟩ := Option.bind_eq_some_iff.1 hu
      exact ⟨v, hv, ku.after ((addRef_keep hx).mono (by decide)) (by decide)⟩
  obtain ⟨u, hu, k⟩ := gen l (some s) h
  cases hu
  exact k

theorem sessionOpen_keepD {c : Cmd} {s : State} {t0 : State} {r0 : Reply} (h : sessionOpen c s = .done t0 r0) : Keep 1049309182 s t0 := by
  unfold sessionOpen at h
  try dsimp only at h
  repeat' (first | (with_reducible refine (doneAt_keepD h).after ?_ (by decide); clear h) | (with_reducible rw [need_done] at h; replace h := h.2) | (with_reducible rw [objectsRead_done] at h) | split at h)
  all_goals try (exact absurd h (by simp only [Res.fail, reduceCtorEq, not_false_eq_true]))
  all_goals try (with_reducible obtain ⟨rfl, rfl⟩ := Res.done.inj h)
  iterate 30 (all_goals try first
    | with_reducible exact Keep.refl _ _
    | with_reducible assumption
    | (extract_lets +onlyGivenNames zz; refine Keep.cut zz ?_ (fun _ => ?_); (rotate_left; (try clear_value zz); rotate_right; subst zz))
    | (extract_lets +onlyGivenNames zz; subst zz)
    | with_reducible refine (addRefs_keep (by assumption)).after ?_ (by decide)
    | with_reducible refine (doneAt_keepD (by assumption)).after ?_ (by decide)
    | with_reducible refine (doneAt_keepW (by assumption)).after ?_ (by decide)
    | with_reducible refine (objectCorrupt_keep ..).after ?_ (by decide)
    | with_reducible refine (commitEvent_keep ..).after ?_ (by decide)
    | with_reducible refine (stageCapsule_keep ..).after ?_ (by decide)
    | with_reducible refine (placeMap_keep ..).after ?_ (by decide)
    | with_reducible refine (putSession_keep ..).after ?_ (by decide)
    | with_reducible refine (capCommand_keep ..).after ?_ (by decide)
    | with_reducible refine (freshBytes_keep (by assumption)).after ?_ (by decide)
    | with_reducible refine (freshBytes_keepP ..).after ?_ (by decide)
    | with_reducible refine Keep.getD (fun _ _ => ?_) ?_
    | with_reducible refine Keep.ite (fun _ => ?_) (fun _ => ?_)
    | split
    | with_reducible refine (Keep.of_sec _ _ (by rfl)).after ?_ (by decide))
theorem sessionOpen_keepW {c : Cmd} {s : State} {t0 : State} (h : sessionOpen c s = .wait t0) : Keep 1049309182 s t0 := by
  unfold sessionOpen at h
  try dsimp only at h
  repeat' (first | (with_reducible refine (doneAt_keepW h).after ?_ (by decide); clear h) | (with_reducible rw [need_wait] at h; replace h := h.2) | (with_reducible rw [objectsRead_wait] at h) | split at h)
  all_goals try (exact absurd h (by simp only [Res.fail, reduceCtorEq, not_false_eq_true]))
  all_goals try (with_reducible obtain rfl := Res.wait.inj h)
  iterate 30 (all_goals try first
    | with_reducible exact Keep.refl _ _
    | with_reducible assumption
    | (extract_lets +onlyGivenNames zz; refine Keep.cut zz ?_ (fun _ => ?_); (rotate_left; (try clear_value zz); rotate_right; subst zz))
    | (extract_lets +onlyGivenNames zz; subst zz)
    | with_reducible refine (addRefs_keep (by assumption)).after ?_ (by decide)
    | with_reducible refine (doneAt_keepD (by assumption)).after ?_ (by decide)
    | with_reducible refine (doneAt_keepW (by assumption)).after ?_ (by decide)
    | with_reducible refine (objectCorrupt_keep ..).after ?_ (by decide)
    | with_reducible refine (commitEvent_keep ..).after ?_ (by decide)
    | with_reducible refine (stageCapsule_keep ..).after ?_ (by decide)
    | with_reducible refine (placeMap_keep ..).after ?_ (by decide)
    | with_reducible refine (putSession_keep ..).after ?_ (by decide)
    | with_reducible refine (capCommand_keep ..).after ?_ (by decide)
    | with_reducible refine (freshBytes_keep (by assumption)).after ?_ (by decide)
    | with_reducible refine (freshBytes_keepP ..).after ?_ (by decide)
    | with_reducible refine Keep.getD (fun _ _ => ?_) ?_
    | with_reducible refine Keep.ite (fun _ => ?_) (fun _ => ?_)
    | split
    | with_reducible refine (Keep.of_sec _ _ (by rfl)).after ?_ (by decide))

theorem closeSession_keep (i : Nat) (k : Evt) (s : State) : Keep 1053765630 s (closeSession i k s) := by
  unfold closeSession
  iterate 30 (all_goals try first
    | with_reducible exact Keep.refl _ _
    | with_reducible assumption
    | (extract_lets +onlyGivenNames zz; refine Keep.cut zz ?_ (fun _ => ?_); (rotate_left; (try clear_value zz); rotate_right; subst zz))
    | (extract_lets +onlyGivenNames zz; subst zz)
    | with_reducible refine (settleAdapter_keep ..).after ?_ (by decide)
    | with_reducible refine (cancelTurn_keep ..).after ?_ (by decide)
    | with_reducible refine (commitEvent_keep ..).after ?_ (by decide)
    | with_reducible refine (sealCapsule_keep ..).after ?_ (by decide)
    | with_reducible refine (modPme_keep ..).after ?_ (by decide)
    | with_reducible refine (endSystem_keep ..).after ?_ (by decide)
    | with_reducible refine (releaseKv_keep ..).after ?_ (by decide)
    | with_reducible refine (modCapsule_keep ..).after ?_ (by decide)
    | with_reducible refine (setFrc_keep ..).after ?_ (by decide)
    | with_reducible refine Keep.foldl (fun _ _ => ?_) ?_ _
    | with_reducible refine Keep.foldlFst (fun _ _ => ?_) ?_ _
    | with_reducible refine Keep.foldlSnd (fun _ _ => ?_) ?_ _
    | with_reducible refine Keep.ite (fun _ => ?_) (fun _ => ?_)
    | split
    | with_reducible refine (Keep.of_close _ _ _ _ (by rfl)).after ?_ (by decide))

theorem sessionClose_keepD {c : Cmd} {s : State} {t0 : State} {r0 : Reply} (h : sessionClose c s = .done t0 r0) : Keep 1053765630 s t0 := by
  unfold sessionClose at h
  try dsimp only at h
  repeat' (first | (with_reducible rw [need_done] at h; replace h := h.2) | (with_reducible rw [onSession_done] at h; obtain ⟨_, _, _, h⟩ := h) | (with_reducible rw [objectsRead_done] at h) | split at h)
  all_goals try (exact absurd h (by simp only [Res.fail, reduceCtorEq, not_false_eq_true]))
  all_goals try (with_reducible obtain ⟨rfl, rfl⟩ := Res.done.inj h)
  iterate 30 (all_goals try first
    | with_reducible exact Keep.refl _ _
    | with_reducible assumption
    | (extract_lets +onlyGivenNames zz; refine Keep.cut zz ?_ (fun _ => ?_); (rotate_left; (try clear_value zz); rotate_right; subst zz))
    | (extract_lets +onlyGivenNames zz; subst zz)
    | with_reducible refine (closeSession_keep ..).after ?_ (by decide)
    | with_reducible refine (objectCorrupt_keep ..).after ?_ (by decide)
    | with_reducible refine (cancelTurn_keep ..).after ?_ (by decide)
    | with_reducible refine (capCommand_keep ..).after ?_ (by decide)
    | with_reducible refine Keep.ite (fun _ => ?_) (fun _ => ?_)
    | split)
theorem sessionClose_keepW {c : Cmd} {s : State} {t0 : State} (h : sessionClose c s = .wait t0) : Keep 1053765630 s t0 := by
  unfold sessionClose at h
  try dsimp only at h
  repeat' (first | (with_reducible rw [need_wait] at h; replace h := h.2) | (with_reducible rw [onSession_wait] at h; obtain ⟨_, _, _, h⟩ := h) | (with_reducible rw [objectsRead_wait] at h) | split at h)
  all_goals try (exact absurd h (by simp only [Res.fail, reduceCtorEq, not_false_eq_true]))
  all_goals try (with_reducible obtain rfl := Res.wait.inj h)
  iterate 30 (all_goals try first
    | with_reducible exact Keep.refl _ _
    | with_reducible assumption
    | (extract_lets +onlyGivenNames zz; refine Keep.cut zz ?_ (fun _ => ?_); (rotate_left; (try clear_value zz); rotate_right; subst zz))
    | (extract_lets +onlyGivenNames zz; subst zz)
    | with_reducible refine (closeSession_keep ..).after ?_ (by decide)
    | with_reducible refine (objectCorrupt_keep ..).after ?_ (by decide)
    | with_reducible refine (cancelTurn_keep ..).after ?_ (by decide)
    | with_reducible refine (capCommand_keep ..).after ?_ (by decide)
    | with_reducible refine Keep.ite (fun _ => ?_) (fun _ => ?_)
    | split)

theorem enterRung_keep (i rung : Nat) (s : State) : Keep 67244014 s (enterRung i rung s) := by
  unfold enterRung
  iterate 30 (all_goals try first
    | with_reducible exact Keep.refl _ _
    | with_reducible assumption
    | (extract_lets +onlyGivenNames zz; refine Keep.cut zz ?_ (fun _ => ?_); (rotate_left; (try clear_value zz); rotate_right; subst zz))
    | (extract_lets +onlyGivenNames zz; subst zz)
    | with_reducible refine (ladderMoves_keep ..).after ?_ (by decide)
    | with_reducible refine (modSession_keep ..).after ?_ (by decide)
    | with_reducible refine Keep.ite (fun _ => ?_) (fun _ => ?_)
    | split)

theorem sessionPark_keepD {c : Cmd} {s : State} {t0 : State} {r0 : Reply} (h : sessionPark c s = .done t0 r0) : Keep 1049309182 s t0 := by
  unfold sessionPark at h
  try dsimp only at h
  repeat' (first | (with_reducible refine (doneAt_keepD h).after ?_ (by decide); clear h) | (with_reducible rw [need_done] at h; replace h := h.2) | (with_reducible rw [onSession_done] at h; obtain ⟨_, _, _, h⟩ := h) | (with_reducible rw [objectsRead_done] at h) | split at h)
  all_goals try (exact absurd h (by simp only [Res.fail, reduceCtorEq, not_false_eq_true]))
  all_goals try (with_reducible obtain ⟨rfl, rfl⟩ := Res.done.inj h)
  iterate 30 (all_goals try first
    | with_reducible exact Keep.refl _ _
    | with_reducible assumption
    | (extract_lets +onlyGivenNames zz; refine Keep.cut zz ?_ (fun _ => ?_); (rotate_left; (try clear_value zz); rotate_right; subst zz))
    | (extract_lets +onlyGivenNames zz; subst zz)
    | with_reducible refine (enterRung_keep ..).after ?_ (by decide)
    | with_reducible refine (doneAt_keepD (by assumption)).after ?_ (by decide)
    | with_reducible refine (doneAt_keepW (by assumption)).after ?_ (by decide)
    | with_reducible refine (objectCorrupt_keep ..).after ?_ (by decide)
    | with_reducible refine (commitEvent_keep ..).after ?_ (by decide)
    | with_reducible refine (capCommand_keep ..).after ?_ (by decide)
    | with_reducible refine Keep.ite (fun _ => ?_) (fun _ => ?_)
    | split)
theorem sessionPark_keepW {c : Cmd} {s : State} {t0 : State} (h : sessionPark c s = .wait t0) : Keep 1049309182 s t0 := by
  unfold sessionPark at h
  try dsimp only at h
  repeat' (first | (with_reducible refine (doneAt_keepW h).after ?_ (by decide); clear h) | (with_reducible rw [need_wait] at h; replace h := h.2) | (with_reducible rw [onSession_wait] at h; obtain ⟨_, _, _, h⟩ := h) | (with_reducible rw [objectsRead_wait] at h) | split at h)
  all_goals try (exact absurd h (by simp only [Res.fail, reduceCtorEq, not_false_eq_true]))
  all_goals try (with_reducible obtain rfl := Res.wait.inj h)
  iterate 30 (all_goals try first
    | with_reducible exact Keep.refl _ _
    | with_reducible assumption
    | (extract_lets +onlyGivenNames zz; refine Keep.cut zz ?_ (fun _ => ?_); (rotate_left; (try clear_value zz); rotate_right; subst zz))
    | (extract_lets +onlyGivenNames zz; subst zz)
    | with_reducible refine (enterRung_keep ..).after ?_ (by decide)
    | with_reducible refine (doneAt_keepD (by assumption)).after ?_ (by decide)
    | with_reducible refine (doneAt_keepW (by assumption)).after ?_ (by decide)
    | with_reducible refine (objectCorrupt_keep ..).after ?_ (by decide)
    | with_reducible refine (commitEvent_keep ..).after ?_ (by decide)
    | with_reducible refine (capCommand_keep ..).after ?_ (by decide)
    | with_reducible refine Keep.ite (fun _ => ?_) (fun _ => ?_)
    | split)

theorem sessionRebind_keepD {c : Cmd} {s : State} {t0 : State} {r0 : Reply} (h : sessionRebind c s = .done t0 r0) : Keep 1053503486 s t0 := by
  unfold sessionRebind at h
  try dsimp only at h
  repeat' (first | (with_reducible refine (doneAt_keepD h).after ?_ (by decide); clear h) | (with_reducible rw [need_done] at h; replace h := h.2) | (with_reducible rw [onSession_done] at h; obtain ⟨_, _, _, h⟩ := h) | (with_reducible rw [objectsRead_done] at h) | split at h)
  all_goals try (exact absurd h (by simp only [Res.fail, reduceCtorEq, not_false_eq_true]))
  all_goals try (with_reducible obtain ⟨rfl, rfl⟩ := Res.done.inj h)
  iterate 30 (all_goals try first
    | with_reducible exact Keep.refl _ _
    | with_reducible assumption
    | (extract_lets +onlyGivenNames zz; refine Keep.cut zz ?_ (fun _ => ?_); (rotate_left; (try clear_value zz); rotate_right; subst zz))
    | (extract_lets +onlyGivenNames zz; subst zz)
    | with_reducible refine (settleAdapter_keep ..).after ?_ (by decide)
    | with_reducible refine (doneAt_keepD (by assumption)).after ?_ (by decide)
    | with_reducible refine (doneAt_keepW (by assumption)).after ?_ (by decide)
    | with_reducible refine (objectCorrupt_keep ..).after ?_ (by decide)
    | with_reducible refine (commitEvent_keep ..).after ?_ (by decide)
    | with_reducible refine (dropKv_keep ..).after ?_ (by decide)
    | with_reducible refine (modSession_keep ..).after ?_ (by decide)
    | with_reducible refine (capCommand_keep ..).after ?_ (by decide)
    | with_reducible refine Keep.ite (fun _ => ?_) (fun _ => ?_)
    | split)
theorem sessionRebind_keepW {c : Cmd} {s : State} {t0 : State} (h : sessionRebind c s = .wait t0) : Keep 1053503486 s t0 := by
  unfold sessionRebind at h
  try dsimp only at h
  repeat' (first | (with_reducible refine (doneAt_keepW h).after ?_ (by decide); clear h) | (with_reducible rw [need_wait] at h; replace h := h.2) | (with_reducible rw [onSession_wait] at h; obtain ⟨_, _, _, h⟩ := h) | (with_reducible rw [objectsRead_wait] at h) | split at h)
  all_goals try (exact absurd h (by simp only [Res.fail, reduceCtorEq, not_false_eq_true]))
  all_goals try (with_reducible obtain rfl := Res.wait.inj h)
  iterate 30 (all_goals try first
    | with_reducible exact Keep.refl _ _
    | with_reducible assumption
    | (extract_lets +onlyGivenNames zz; refine Keep.cut zz ?_ (fun _ => ?_); (rotate_left; (try clear_value zz); rotate_right; subst zz))
    | (extract_lets +onlyGivenNames zz; subst zz)
    | with_reducible refine (settleAdapter_keep ..).after ?_ (by decide)
    | with_reducible refine (doneAt_keepD (by assumption)).after ?_ (by decide)
    | with_reducible refine (doneAt_keepW (by assumption)).after ?_ (by decide)
    | with_reducible refine (objectCorrupt_keep ..).after ?_ (by decide)
    | with_reducible refine (commitEvent_keep ..).after ?_ (by decide)
    | with_reducible refine (dropKv_keep ..).after ?_ (by decide)
    | with_reducible refine (modSession_keep ..).after ?_ (by decide)
    | with_reducible refine (capCommand_keep ..).after ?_ (by decide)
    | with_reducible refine Keep.ite (fun _ => ?_) (fun _ => ?_)
    | split)

theorem sessionSet_keepD {c : Cmd} {s : State} {t0 : State} {r0 : Reply} (h : sessionSet c s = .done t0 r0) : Keep 1049309182 s t0 := by
  unfold sessionSet at h
  try dsimp only at h
  repeat' (first | (with_reducible refine (doneAt_keepD h).after ?_ (by decide); clear h) | (with_reducible rw [need_done] at h; replace h := h.2) | (with_reducible rw [onSession_done] at h; obtain ⟨_, _, _, h⟩ := h) | (with_reducible rw [objectsRead_done] at h) | split at h)
  all_goals try (exact absurd h (by simp only [Res.fail, reduceCtorEq, not_false_eq_true]))
  all_goals try (with_reducible obtain ⟨rfl, rfl⟩ := Res.done.inj h)
  iterate 30 (all_goals try first
    | with_reducible exact Keep.refl _ _
    | with_reducible assumption
    | (extract_lets +onlyGivenNames zz; refine Keep.cut zz ?_ (fun _ => ?_); (rotate_left; (try clear_value zz); rotate_right; subst zz))
    | (extract_lets +onlyGivenNames zz; subst zz)
    | with_reducible refine (doneAt_keepD (by assumption)).after ?_ (by decide)
    | with_reducible refine (doneAt_keepW (by assumption)).after ?_ (by decide)
    | with_reducible refine (objectCorrupt_keep ..).after ?_ (by decide)
    | with_reducible refine (countHistory_keep ..).after ?_ (by decide)
    | with_reducible refine (commitEvent_keep ..).after ?_ (by decide)
    | with_reducible refine (modSession_keep ..).after ?_ (by decide)
    | with_reducible refine (capCommand_keep ..).after ?_ (by decide)
    | with_reducible refine (bump_keep ..).after ?_ (by decide)
    | with_reducible refine Keep.getD (fun _ _ => ?_) ?_
    | with_reducible refine Keep.ite (fun _ => ?_) (fun _ => ?_)
    | split)
theorem sessionSet_keepW {c : Cmd} {s : State} {t0 : State} (h : sessionSet c s = .wait t0) : Keep 1049309182 s t0 := by
  unfold sessionSet at h
  try dsimp only at h
  repeat' (first | (with_reducible refine (doneAt_keepW h).after ?_ (by decide); clear h) | (with_reducible rw [need_wait] at h; replace h := h.2) | (with_reducible rw [onSession_wait] at h; obtain ⟨_, _, _, h⟩ := h) | (with_reducible rw [objectsRead_wait] at h) | split at h)
  all_goals try (exact absurd h (by simp only [Res.fail, reduceCtorEq, not_false_eq_true]))
  all_goals try (with_reducible obtain rfl := Res.wait.inj h)
  iterate 30 (all_goals try first
    | with_reducible exact Keep.refl _ _
    | with_reducible assumption
    | (extract_lets +onlyGivenNames zz; refine Keep.cut zz ?_ (fun _ => ?_); (rotate_left; (try clear_value zz); rotate_right; subst zz))
    | (extract_lets +onlyGivenNames zz; subst zz)
    | with_reducible refine (doneAt_keepD (by assumption)).after ?_ (by decide)
    | with_reducible refine (doneAt_keepW (by assumption)).after ?_ (by decide)
    | with_reducible refine (objectCorrupt_keep ..).after ?_ (by decide)
    | with_reducible refine (countHistory_keep ..).after ?_ (by decide)
    | with_reducible refine (commitEvent_keep ..).after ?_ (by decide)
    | with_reducible refine (modSession_keep ..).after ?_ (by decide)
    | with_reducible refine (capCommand_keep ..).after ?_ (by decide)
    | with_reducible refine (bump_keep ..).after ?_ (by decide)
    | with_reducible refine Keep.getD (fun _ _ => ?_) ?_
    | with_reducible refine Keep.ite (fun _ => ?_) (fun _ => ?_)
    | split)

theorem sessionRead_keepD {c : Cmd} {s : State} {t0 : State} {r0 : Reply} (h : sessionRead c s = .done t0 r0) : Keep 1049309182 s t0 := by
  unfold sessionRead at h
  try dsimp only at h
  repeat' (first | (with_reducible rw [need_done] at h; replace h := h.2) | (with_reducible rw [onSession_done] at h; obtain ⟨_, _, _, h⟩ := h) | (with_reducible rw [objectsRead_done] at h) | split at h)
  all_goals try (exact absurd h (by simp only [Res.fail, reduceCtorEq, not_false_eq_true]))
  all_goals try (with_reducible obtain ⟨rfl, rfl⟩ := Res.done.inj h)
  iterate 30 (all_goals try first
    | with_reducible exact Keep.refl _ _
    | with_reducible assumption
    | with_reducible refine (objectCorrupt_keep ..).after ?_ (by decide)
    | with_reducible refine (capCommand_keep ..).after ?_ (by decide)
    | with_reducible refine Keep.ite (fun _ => ?_) (fun _ => ?_)
    | split)
theorem sessionRead_keepW {c : Cmd} {s : State} {t0 : State} (h : sessionRead c s = .wait t0) : Keep 1049309182 s t0 := by
  unfold sessionRead at h
  try dsimp only at h
  repeat' (first | (with_reducible rw [need_wait] at h; replace h := h.2) | (with_reducible rw [onSession_wait] at h; obtain ⟨_, _, _, h⟩ := h) | (with_reducible rw [objectsRead_wait] at h) | split at h)
  all_goals try (exact absurd h (by simp only [Res.fail, reduceCtorEq, not_false_eq_true]))
  all_goals try (with_reducible obtain rfl := Res.wait.inj h)
  iterate 30 (all_goals try first
    | with_reducible exact Keep.refl _ _
    | with_reducible assumption
    | with_reducible refine (objectCorrupt_keep ..).after ?_ (by decide)
    | with_reducible refine (capCommand_keep ..).after ?_ (by decide)
    | with_reducible refine Keep.ite (fun _ => ?_) (fun _ => ?_)
    | split)

theorem historyRead_keepD {c : Cmd} {s : State} {t0 : State} {r0 : Reply} (h : historyRead c s = .done t0 r0) : Keep 1049309182 s t0 := by
  unfold historyRead at h
  try dsimp only at h
  repeat' (first | (with_reducible rw [need_done] at h; replace h := h.2) | (with_reducible rw [onSession_done] at h; obtain ⟨_, _, _, h⟩ := h) | (with_reducible rw [objectsRead_done] at h) | split at h)
  all_goals try (exact absurd h (by simp only [Res.fail, reduceCtorEq, not_false_eq_true]))
  all_goals try (with_reducible obtain ⟨rfl, rfl⟩ := Res.done.inj h)
  iterate 30 (all_goals try first
    | with_reducible exact Keep.refl _ _
    | with_reducible assumption
    | (extract_lets +onlyGivenNames zz; refine Keep.cut zz ?_ (fun _ => ?_); (rotate_left; (try clear_value zz); rotate_right; subst zz))
    | (extract_lets +onlyGivenNames zz; subst zz)
    | with_reducible refine (objectCorrupt_keep ..).after ?_ (by decide)
    | with_reducible refine (objectCorrupt_keep ..).after ?_ (by decide)
    | with_reducible refine (capCommand_keep ..).after ?_ (by decide)
    | with_reducible refine Keep.ite (fun _ => ?_) (fun _ => ?_)
    | split)
theorem historyRead_keepW {c : Cmd} {s : State} {t0 : State} (h : historyRead c s = .wait t0) : Keep 1049309182 s t0 := by
  unfold historyRead at h
  try dsimp only at h
  repeat' (first | (with_reducible rw [need_wait] at h; replace h := h.2) | (with_reducible rw [onSession_wait] at h; obtain ⟨_, _, _, h⟩ := h) | (with_reducible rw [objectsRead_wait] at h) | split at h)
  all_goals try (exact absurd h (by simp only [Res.fail, reduceCtorEq, not_false_eq_true]))
  all_goals try (with_reducible obtain rfl := Res.wait.inj h)
  iterate 30 (all_goals try first
    | with_reducible exact Keep.refl _ _
    | with_reducible assumption
    | (extract_lets +onlyGivenNames zz; refine Keep.cut zz ?_ (fun _ => ?_); (rotate_left; (try clear_value zz); rotate_right; subst zz))
    | (extract_lets +onlyGivenNames zz; subst zz)
    | with_reducible refine (objectCorrupt_keep ..).after ?_ (by decide)
    | with_reducible refine (objectCorrupt_keep ..).after ?_ (by decide)
    | with_reducible refine (capCommand_keep ..).after ?_ (by decide)
    | with_reducible refine Keep.ite (fun _ => ?_) (fun _ => ?_)
    | split)

theorem turnSubmit_keepD {c : Cmd} {s : State} {t0 : State} {r0 : Reply} (h : turnSubmit c s = .done t0 r0) : Keep 1049309182 s t0 := by
  unfold turnSubmit at h
  try dsimp only at h
  repeat' (first | (with_reducible rw [need_done] at h; replace h := h.2) | (with_reducible rw [onSession_done] at h; obtain ⟨_, _, _, h⟩ := h) | (with_reducible rw [objectsRead_done] at h) | split at h)
  all_goals try (exact absurd h (by simp only [Res.fail, reduceCtorEq, not_false_eq_true]))
  all_goals try (with_reducible obtain ⟨rfl, rfl⟩ := Res.done.inj h)
  iterate 30 (all_goals try first
    | with_reducible exact Keep.refl _ _
    | with_reducible assumption
    | (extract_lets +onlyGivenNames zz; refine Keep.cut zz ?_ (fun _ => ?_); (rotate_left; (try clear_value zz); rotate_right; subst zz))
    | (extract_lets +onlyGivenNames zz; subst zz)
    | with_reducible refine (objectCorrupt_keep ..).after ?_ (by decide)
    | with_reducible refine (weirEvaluate_keep ..).after ?_ (by decide)
    | with_reducible refine (commitEvent_keep ..).after ?_ (by decide)
    | with_reducible refine (setHrc_keep ..).after ?_ (by decide)
    | with_reducible refine (modSession_keep ..).after ?_ (by decide)
    | with_reducible refine (putSession_keep ..).after ?_ (by decide)
    | with_reducible refine (holdCommand_keep ..).after ?_ (by decide)
    | with_reducible refine (capCommand_keep ..).after ?_ (by decide)
    | with_reducible refine (bump_keep ..).after ?_ (by decide)
    | with_reducible refine Keep.ite (fun _ => ?_) (fun _ => ?_)
    | split
    | with_reducible refine (Keep.of_turns _ _).after ?_ (by decide))
theorem turnSubmit_keepW {c : Cmd} {s : State} {t0 : State} (h : turnSubmit c s = .wait t0) : Keep 1049309182 s t0 := by
  unfold turnSubmit at h
  try dsimp only at h
  repeat' (first | (with_reducible rw [need_wait] at h; replace h := h.2) | (with_reducible rw [onSession_wait] at h; obtain ⟨_, _, _, h⟩ := h) | (with_reducible rw [objectsRead_wait] at h) | split at h)
  all_goals try (exact absurd h (by simp only [Res.fail, reduceCtorEq, not_false_eq_true]))
  all_goals try (with_reducible obtain rfl := Res.wait.inj h)
  iterate 30 (all_goals try first
    | with_reducible exact Keep.refl _ _
    | with_reducible assumption
    | (extract_lets +onlyGivenNames zz; refine Keep.cut zz ?_ (fun _ => ?_); (rotate_left; (try clear_value zz); rotate_right; subst zz))
    | (extract_lets +onlyGivenNames zz; subst zz)
    | with_reducible refine (objectCorrupt_keep ..).after ?_ (by decide)
    | with_reducible refine (weirEvaluate_keep ..).after ?_ (by decide)
    | with_reducible refine (commitEvent_keep ..).after ?_ (by decide)
    | with_reducible refine (setHrc_keep ..).after ?_ (by decide)
    | with_reducible refine (modSession_keep ..).after ?_ (by decide)
    | with_reducible refine (putSession_keep ..).after ?_ (by decide)
    | with_reducible refine (holdCommand_keep ..).after ?_ (by decide)
    | with_reducible refine (capCommand_keep ..).after ?_ (by decide)
    | with_reducible refine (bump_keep ..).after ?_ (by decide)
    | with_reducible refine Keep.ite (fun _ => ?_) (fun _ => ?_)
    | split
    | with_reducible refine (Keep.of_turns _ _).after ?_ (by decide))

theorem turnCancel_keepD {c : Cmd} {s : State} {t0 : State} {r0 : Reply} (h : turnCancel c s = .done t0 r0) : Keep 1049309182 s t0 := by
  unfold turnCancel at h
  try dsimp only at h
  repeat' (first | (with_reducible refine (doneAt_keepD h).after ?_ (by decide); clear h) | (with_reducible rw [need_done] at h; replace h := h.2) | (with_reducible rw [onSession_done] at h; obtain ⟨_, _, _, h⟩ := h) | (with_reducible rw [objectsRead_done] at h) | split at h)
  all_goals try (exact absurd h (by simp only [Res.fail, reduceCtorEq, not_false_eq_true]))
  all_goals try (with_reducible obtain ⟨rfl, rfl⟩ := Res.done.inj h)
  iterate 30 (all_goals try first
    | with_reducible exact Keep.refl _ _
    | with_reducible assumption
    | with_reducible refine (doneAt_keepD (by assumption)).after ?_ (by decide)
    | with_reducible refine (doneAt_keepW (by assumption)).after ?_ (by decide)
    | with_reducible refine (objectCorrupt_keep ..).after ?_ (by decide)
    | with_reducible refine (cancelTurn_keep ..).after ?_ (by decide)
    | with_reducible refine (capCommand_keep ..).after ?_ (by decide)
    | with_reducible refine Keep.ite (fun _ => ?_) (fun _ => ?_)
    | split)
theorem turnCancel_keepW {c : Cmd} {s : State} {t0 : State} (h : turnCancel c s = .wait t0) : Keep 1049309182 s t0 := by
  unfold turnCancel at h
  try dsimp only at h
  repeat' (first | (with_reducible refine (doneAt_keepW h).after ?_ (by decide); clear h) | (with_reducible rw [need_wait] at h; replace h := h.2) | (with_reducible rw [onSession_wait] at h; obtain ⟨_, _, _, h⟩ := h) | (with_reducible rw [objectsRead_wait] at h) | split at h)
  all_goals try (exact absurd h (by simp only [Res.fail, reduceCtorEq, not_false_eq_true]))
  all_goals try (with_reducible obtain rfl := Res.wait.inj h)
  iterate 30 (all_goals try first
    | with_reducible exact Keep.refl _ _
    | with_reducible assumption
    | with_reducible refine (doneAt_keepD (by assumption)).after ?_ (by decide)
    | with_reducible refine (doneAt_keepW (by assumption)).after ?_ (by decide)
    | with_reducible refine (objectCorrupt_keep ..).after ?_ (by decide)
    | with_reducible refine (cancelTurn_keep ..).after ?_ (by decide)
    | with_reducible refine (capCommand_keep ..).after ?_ (by decide)
    | with_reducible refine Keep.ite (fun _ => ?_) (fun _ => ?_)
    | split)

theorem chainRegion_keep {x : Session} {own : Nat} {s : State} {x0 : Option Nat} {t0 : State} (h : chainRegion x own s = some (x0, t0)) : Keep 536945246 s t0 := by
  unfold chainRegion at h
  split at h
  · split at h
    · obtain ⟨-, rfl⟩ := Prod.mk.inj (Option.some.inj h); exact (endSystem_keep ..).mono (by decide)
    · obtain ⟨-, rfl⟩ := Prod.mk.inj (Option.some.inj h); exact Keep.refl _ _
  · split at h
    · obtain ⟨-, rfl⟩ := Prod.mk.inj (Option.some.inj h); exact Keep.refl _ _
    · obtain ⟨p, hp, h⟩ := Option.map_eq_some_iff.1 h
      obtain ⟨-, rfl⟩ := Prod.mk.inj h
      exact (systemRegion_keep hp).mono (by decide)

theorem shard_keepD {extend : Bool} {op : Nat} {c : Cmd} {s : State} {t0 : State} {r0 : Reply} (h : shard extend op c s = .done t0 r0) : Keep 1049309182 s t0 := by
  unfold shard at h
  try dsimp only at h
  repeat' (first | (with_reducible refine (doneAt_keepD h).after ?_ (by decide); clear h) | (with_reducible rw [need_done] at h; replace h := h.2) | (with_reducible rw [onSession_done] at h; obtain ⟨_, _, _, h⟩ := h) | (with_reducible rw [objectsRead_done] at h) | split at h)
  all_goals try (exact absurd h (by simp only [Res.fail, reduceCtorEq, not_false_eq_true]))
  all_goals try (with_reducible obtain ⟨rfl, rfl⟩ := Res.done.inj h)
  iterate 30 (all_goals try first
    | with_reducible exact Keep.refl _ _
    | with_reducible assumption
    | (extract_lets +onlyGivenNames zz; refine Keep.cut zz ?_ (fun _ => ?_); (rotate_left; (try clear_value zz); rotate_right; subst zz))
    | (extract_lets +onlyGivenNames zz; subst zz)
    | with_reducible refine (chainRegion_keep (by assumption)).after ?_ (by decide)
    | with_reducible refine (doneAt_keepD (by assumption)).after ?_ (by decide)
    | with_reducible refine (doneAt_keepW (by assumption)).after ?_ (by decide)
    | with_reducible refine (objectCorrupt_keep ..).after ?_ (by decide)
    | with_reducible refine (commitEvent_keep ..).after ?_ (by decide)
    | with_reducible refine (dropCapsule_keep ..).after ?_ (by decide)
    | with_reducible refine (modSession_keep ..).after ?_ (by decide)
    | with_reducible refine (capCommand_keep ..).after ?_ (by decide)
    | with_reducible refine Keep.ite (fun _ => ?_) (fun _ => ?_)
    | split)
theorem shard_keepW {extend : Bool} {op : Nat} {c : Cmd} {s : State} {t0 : State} (h : shard extend op c s = .wait t0) : Keep 1049309182 s t0 := by
  unfold shard at h
  try dsimp only at h
  repeat' (first | (with_reducible refine (doneAt_keepW h).after ?_ (by decide); clear h) | (with_reducible rw [need_wait] at h; replace h := h.2) | (with_reducible rw [onSession_wait] at h; obtain ⟨_, _, _, h⟩ := h) | (with_reducible rw [objectsRead_wait] at h) | split at h)
  all_goals try (exact absurd h (by simp only [Res.fail, reduceCtorEq, not_false_eq_true]))
  all_goals try (with_reducible obtain rfl := Res.wait.inj h)
  iterate 30 (all_goals try first
    | with_reducible exact Keep.refl _ _
    | with_reducible assumption
    | (extract_lets +onlyGivenNames zz; refine Keep.cut zz ?_ (fun _ => ?_); (rotate_left; (try clear_value zz); rotate_right; subst zz))
    | (extract_lets +onlyGivenNames zz; subst zz)
    | with_reducible refine (chainRegion_keep (by assumption)).after ?_ (by decide)
    | with_reducible refine (doneAt_keepD (by assumption)).after ?_ (by decide)
    | with_reducible refine (doneAt_keepW (by assumption)).after ?_ (by decide)
    | with_reducible refine (objectCorrupt_keep ..).after ?_ (by decide)
    | with_reducible refine (commitEvent_keep ..).after ?_ (by decide)
    | with_reducible refine (dropCapsule_keep ..).after ?_ (by decide)
    | with_reducible refine (modSession_keep ..).after ?_ (by decide)
    | with_reducible refine (capCommand_keep ..).after ?_ (by decide)
    | with_reducible refine Keep.ite (fun _ => ?_) (fun _ => ?_)
    | split)

theorem tickWrite_keep (from_ value : Nat) (s : State) : Keep 3598 s (tickWrite from_ value s) := by
  unfold tickWrite
  iterate 30 (all_goals try first
    | with_reducible exact Keep.refl _ _
    | with_reducible assumption
    | (extract_lets +onlyGivenNames zz; refine Keep.cut zz ?_ (fun _ => ?_); (rotate_left; (try clear_value zz); rotate_right; subst zz))
    | (extract_lets +onlyGivenNames zz; subst zz)
    | with_reducible refine (logEv_keep ..).after ?_ (by decide)
    | with_reducible refine (setF_keep ..).after ?_ (by decide)
    | with_reducible refine Keep.ite (fun _ => ?_) (fun _ => ?_)
    | split)

theorem whenDue_keep {k : Nat} (i kind : Nat) (f : State → State) (s : State) (h : ∀ s, Keep k s (f s)) : Keep k s (whenDue i kind f s) := by
  unfold whenDue
  split
  · split
    · exact h s
    · exact Keep.refl _ _
  · exact Keep.refl _ _

end Sys2Proof.Machine
end

