-- ==== Sys2Proof/Laws/KeepFabricRows.lean ====
section
/-!
SUPPORT. Laws/KeepFabricRows.lean: what each operation of Machine/FabricRows.lean can change (Laws/Keep.lean).
-/
set_option Elab.async false
set_option linter.all false
namespace Sys2Proof.Machine

open Sys2Proof

theorem connOpenCmd_keepD {c : Cmd} {s : State} {t0 : State} {r0 : Reply} (h : connOpenCmd c s = .done t0 r0) : Keep 536870924 s t0 := by
  unfold connOpenCmd at h
  try dsimp only at h
  repeat' (first | (with_reducible rw [need_done] at h; replace h := h.2) | split at h)
  all_goals try (exact absurd h (by simp only [Res.fail, reduceCtorEq, not_false_eq_true]))
  all_goals try (with_reducible obtain ⟨rfl, rfl⟩ := Res.done.inj h)
  iterate 30 (all_goals try first
    | with_reducible exact Keep.refl _ _
    | with_reducible assumption
    | (extract_lets +onlyGivenNames zz; refine Keep.cut zz ?_ (fun _ => ?_); (rotate_left; (try clear_value zz); rotate_right; subst zz))
    | (extract_lets +onlyGivenNames zz; subst zz)
    | with_reducible refine (sendConnect_keep ..).after ?_ (by decide)
    | with_reducible refine (makeRoom_keep ..).after ?_ (by decide)
    | with_reducible refine (putConn_keep ..).after ?_ (by decide)
    | with_reducible refine Keep.ite (fun _ => ?_) (fun _ => ?_)
    | split)
theorem connOpenCmd_keepW {c : Cmd} {s : State} {t0 : State} (h : connOpenCmd c s = .wait t0) : Keep 536870924 s t0 := by
  unfold connOpenCmd at h
  try dsimp only at h
  repeat' (first | (with_reducible rw [need_wait] at h; replace h := h.2) | split at h)
  all_goals try (exact absurd h (by simp only [Res.fail, reduceCtorEq, not_false_eq_true]))
  all_goals try (with_reducible obtain rfl := Res.wait.inj h)
  iterate 30 (all_goals try first
    | with_reducible exact Keep.refl _ _
    | with_reducible assumption
    | (extract_lets +onlyGivenNames zz; refine Keep.cut zz ?_ (fun _ => ?_); (rotate_left; (try clear_value zz); rotate_right; subst zz))
    | (extract_lets +onlyGivenNames zz; subst zz)
    | with_reducible refine (sendConnect_keep ..).after ?_ (by decide)
    | with_reducible refine (makeRoom_keep ..).after ?_ (by decide)
    | with_reducible refine (putConn_keep ..).after ?_ (by decide)
    | with_reducible refine Keep.ite (fun _ => ?_) (fun _ => ?_)
    | split)

theorem connCloseCmd_keepD {c : Cmd} {s : State} {t0 : State} {r0 : Reply} (h : connCloseCmd c s = .done t0 r0) : Keep 536870924 s t0 := by
  unfold connCloseCmd at h
  try dsimp only at h
  repeat' (first | (with_reducible rw [need_done] at h; replace h := h.2) | split at h)
  all_goals try (exact absurd h (by simp only [Res.fail, reduceCtorEq, not_false_eq_true]))
  all_goals try (with_reducible obtain ⟨rfl, rfl⟩ := Res.done.inj h)
  iterate 30 (all_goals try first
    | with_reducible exact Keep.refl _ _
    | with_reducible assumption
    | (extract_lets +onlyGivenNames zz; refine Keep.cut zz ?_ (fun _ => ?_); (rotate_left; (try clear_value zz); rotate_right; subst zz))
    | (extract_lets +onlyGivenNames zz; subst zz)
    | with_reducible refine (tryClose_keep ..).after ?_ (by decide)
    | with_reducible refine (fetchWaiting_keep ..).after ?_ (by decide)
    | with_reducible refine (fetchRecord_keep ..).after ?_ (by decide)
    | with_reducible refine (freeConn_keep ..).after ?_ (by decide)
    | with_reducible refine (putConn_keep ..).after ?_ (by decide)
    | with_reducible refine Keep.ite (fun _ => ?_) (fun _ => ?_)
    | split)
theorem connCloseCmd_keepW {c : Cmd} {s : State} {t0 : State} (h : connCloseCmd c s = .wait t0) : Keep 536870924 s t0 := by
  unfold connCloseCmd at h
  try dsimp only at h
  repeat' (first | (with_reducible rw [need_wait] at h; replace h := h.2) | split at h)
  all_goals try (exact absurd h (by simp only [Res.fail, reduceCtorEq, not_false_eq_true]))
  all_goals try (with_reducible obtain rfl := Res.wait.inj h)
  iterate 30 (all_goals try first
    | with_reducible exact Keep.refl _ _
    | with_reducible assumption
    | (extract_lets +onlyGivenNames zz; refine Keep.cut zz ?_ (fun _ => ?_); (rotate_left; (try clear_value zz); rotate_right; subst zz))
    | (extract_lets +onlyGivenNames zz; subst zz)
    | with_reducible refine (tryClose_keep ..).after ?_ (by decide)
    | with_reducible refine (fetchWaiting_keep ..).after ?_ (by decide)
    | with_reducible refine (fetchRecord_keep ..).after ?_ (by decide)
    | with_reducible refine (freeConn_keep ..).after ?_ (by decide)
    | with_reducible refine (putConn_keep ..).after ?_ (by decide)
    | with_reducible refine Keep.ite (fun _ => ?_) (fun _ => ?_)
    | split)

theorem regionRegister_keepD {c : Cmd} {s : State} {t0 : State} {r0 : Reply} (h : regionRegister c s = .done t0 r0) : Keep 536870928 s t0 := by
  unfold regionRegister at h
  try dsimp only at h
  repeat' (first | (with_reducible rw [need_done] at h; replace h := h.2) | split at h)
  all_goals try (exact absurd h (by simp only [Res.fail, reduceCtorEq, not_false_eq_true]))
  all_goals try (with_reducible obtain ⟨rfl, rfl⟩ := Res.done.inj h)
  iterate 30 (all_goals try first
    | with_reducible exact Keep.refl _ _
    | with_reducible assumption
    | (extract_lets +onlyGivenNames zz; refine Keep.cut zz ?_ (fun _ => ?_); (rotate_left; (try clear_value zz); rotate_right; subst zz))
    | (extract_lets +onlyGivenNames zz; subst zz)
    | with_reducible refine (addRegion_keep (by assumption)).after ?_ (by decide)
    | with_reducible refine (addRegion_keepP ..).after ?_ (by decide)
    | with_reducible refine Keep.ite (fun _ => ?_) (fun _ => ?_)
    | split)
theorem regionRegister_keepW {c : Cmd} {s : State} {t0 : State} (h : regionRegister c s = .wait t0) : Keep 536870928 s t0 := by
  unfold regionRegister at h
  try dsimp only at h
  repeat' (first | (with_reducible rw [need_wait] at h; replace h := h.2) | split at h)
  all_goals try (exact absurd h (by simp only [Res.fail, reduceCtorEq, not_false_eq_true]))
  all_goals try (with_reducible obtain rfl := Res.wait.inj h)
  iterate 30 (all_goals try first
    | with_reducible exact Keep.refl _ _
    | with_reducible assumption
    | (extract_lets +onlyGivenNames zz; refine Keep.cut zz ?_ (fun _ => ?_); (rotate_left; (try clear_value zz); rotate_right; subst zz))
    | (extract_lets +onlyGivenNames zz; subst zz)
    | with_reducible refine (addRegion_keep (by assumption)).after ?_ (by decide)
    | with_reducible refine (addRegion_keepP ..).after ?_ (by decide)
    | with_reducible refine Keep.ite (fun _ => ?_) (fun _ => ?_)
    | split)

theorem regionRevoke_keepD {c : Cmd} {s : State} {t0 : State} {r0 : Reply} (h : regionRevoke c s = .done t0 r0) : Keep 536945230 s t0 := by
  unfold regionRevoke at h
  try dsimp only at h
  repeat' (first | (with_reducible rw [need_done] at h; replace h := h.2) | split at h)
  all_goals try (exact absurd h (by simp only [Res.fail, reduceCtorEq, not_false_eq_true]))
  all_goals try (with_reducible obtain ⟨rfl, rfl⟩ := Res.done.inj h)
  iterate 30 (all_goals try first
    | with_reducible exact Keep.refl _ _
    | with_reducible assumption
    | (extract_lets +onlyGivenNames zz; refine Keep.cut zz ?_ (fun _ => ?_); (rotate_left; (try clear_value zz); rotate_right; subst zz))
    | (extract_lets +onlyGivenNames zz; subst zz)
    | with_reducible refine (revokeStep_keep ..).after ?_ (by decide)
    | with_reducible refine Keep.ite (fun _ => ?_) (fun _ => ?_)
    | split)
theorem regionRevoke_keepW {c : Cmd} {s : State} {t0 : State} (h : regionRevoke c s = .wait t0) : Keep 536945230 s t0 := by
  unfold regionRevoke at h
  try dsimp only at h
  repeat' (first | (with_reducible rw [need_wait] at h; replace h := h.2) | split at h)
  all_goals try (exact absurd h (by simp only [Res.fail, reduceCtorEq, not_false_eq_true]))
  all_goals try (with_reducible obtain rfl := Res.wait.inj h)
  iterate 30 (all_goals try first
    | with_reducible exact Keep.refl _ _
    | with_reducible assumption
    | (extract_lets +onlyGivenNames zz; refine Keep.cut zz ?_ (fun _ => ?_); (rotate_left; (try clear_value zz); rotate_right; subst zz))
    | (extract_lets +onlyGivenNames zz; subst zz)
    | with_reducible refine (revokeStep_keep ..).after ?_ (by decide)
    | with_reducible refine Keep.ite (fun _ => ?_) (fun _ => ?_)
    | split)

theorem groupSet_keepD {c : Cmd} {s : State} {t0 : State} {r0 : Reply} (h : groupSet c s = .done t0 r0) : Keep 536870912 s t0 := by
  unfold groupSet at h
  try dsimp only at h
  repeat' (first | (with_reducible rw [need_done] at h; replace h := h.2) | split at h)
  all_goals try (exact absurd h (by simp only [Res.fail, reduceCtorEq, not_false_eq_true]))
  all_goals try (with_reducible obtain ⟨rfl, rfl⟩ := Res.done.inj h)
  iterate 30 (all_goals try first
    | with_reducible exact Keep.refl _ _
    | with_reducible assumption
    | (extract_lets +onlyGivenNames zz; refine Keep.cut zz ?_ (fun _ => ?_); (rotate_left; (try clear_value zz); rotate_right; subst zz))
    | (extract_lets +onlyGivenNames zz; subst zz)
    | with_reducible refine Keep.ite (fun _ => ?_) (fun _ => ?_)
    | split
    | with_reducible refine (Keep.of_xfe _ _).after ?_ (by decide))
theorem groupSet_keepW {c : Cmd} {s : State} {t0 : State} (h : groupSet c s = .wait t0) : Keep 536870912 s t0 := by
  unfold groupSet at h
  try dsimp only at h
  repeat' (first | (with_reducible rw [need_wait] at h; replace h := h.2) | split at h)
  all_goals try (exact absurd h (by simp only [Res.fail, reduceCtorEq, not_false_eq_true]))
  all_goals try (with_reducible obtain rfl := Res.wait.inj h)
  iterate 30 (all_goals try first
    | with_reducible exact Keep.refl _ _
    | with_reducible assumption
    | (extract_lets +onlyGivenNames zz; refine Keep.cut zz ?_ (fun _ => ?_); (rotate_left; (try clear_value zz); rotate_right; subst zz))
    | (extract_lets +onlyGivenNames zz; subst zz)
    | with_reducible refine Keep.ite (fun _ => ?_) (fun _ => ?_)
    | split
    | with_reducible refine (Keep.of_xfe _ _).after ?_ (by decide))

theorem wrSubmit_keepD {c : Cmd} {s : State} {t0 : State} {r0 : Reply} (h : wrSubmit c s = .done t0 r0) : Keep 604057198 s t0 := by
  unfold wrSubmit at h
  try dsimp only at h
  repeat' (first | (with_reducible rw [need_done] at h; replace h := h.2) | split at h)
  all_goals try (exact absurd h (by simp only [Res.fail, reduceCtorEq, not_false_eq_true]))
  all_goals try (with_reducible obtain ⟨rfl, rfl⟩ := Res.done.inj h)
  iterate 30 (all_goals try first
    | with_reducible exact Keep.refl _ _
    | with_reducible assumption
    | (extract_lets +onlyGivenNames zz; refine Keep.cut zz ?_ (fun _ => ?_); (rotate_left; (try clear_value zz); rotate_right; subst zz))
    | (extract_lets +onlyGivenNames zz; subst zz)
    | with_reducible refine (startWork_keep ..).after ?_ (by decide)
    | with_reducible refine (putWork_keep ..).after ?_ (by decide)
    | with_reducible refine Keep.ite (fun _ => ?_) (fun _ => ?_)
    | split)
theorem wrSubmit_keepW {c : Cmd} {s : State} {t0 : State} (h : wrSubmit c s = .wait t0) : Keep 604057198 s t0 := by
  unfold wrSubmit at h
  try dsimp only at h
  repeat' (first | (with_reducible rw [need_wait] at h; replace h := h.2) | split at h)
  all_goals try (exact absurd h (by simp only [Res.fail, reduceCtorEq, not_false_eq_true]))
  all_goals try (with_reducible obtain rfl := Res.wait.inj h)
  iterate 30 (all_goals try first
    | with_reducible exact Keep.refl _ _
    | with_reducible assumption
    | (extract_lets +onlyGivenNames zz; refine Keep.cut zz ?_ (fun _ => ?_); (rotate_left; (try clear_value zz); rotate_right; subst zz))
    | (extract_lets +onlyGivenNames zz; subst zz)
    | with_reducible refine (startWork_keep ..).after ?_ (by decide)
    | with_reducible refine (putWork_keep ..).after ?_ (by decide)
    | with_reducible refine Keep.ite (fun _ => ?_) (fun _ => ?_)
    | split)

theorem wrPost_keepD {c : Cmd} {s : State} {t0 : State} {r0 : Reply} (h : wrPost c s = .done t0 r0) : Keep 536870912 s t0 := by
  unfold wrPost at h
  try dsimp only at h
  repeat' (first | (with_reducible rw [need_done] at h; replace h := h.2) | split at h)
  all_goals try (exact absurd h (by simp only [Res.fail, reduceCtorEq, not_false_eq_true]))
  all_goals try (with_reducible obtain ⟨rfl, rfl⟩ := Res.done.inj h)
  iterate 30 (all_goals try first
    | with_reducible exact Keep.refl _ _
    | with_reducible assumption
    | (extract_lets +onlyGivenNames zz; refine Keep.cut zz ?_ (fun _ => ?_); (rotate_left; (try clear_value zz); rotate_right; subst zz))
    | (extract_lets +onlyGivenNames zz; subst zz)
    | with_reducible refine (putRegion_keep ..).after ?_ (by decide)
    | with_reducible refine Keep.ite (fun _ => ?_) (fun _ => ?_)
    | split)
theorem wrPost_keepW {c : Cmd} {s : State} {t0 : State} (h : wrPost c s = .wait t0) : Keep 536870912 s t0 := by
  unfold wrPost at h
  try dsimp only at h
  repeat' (first | (with_reducible rw [need_wait] at h; replace h := h.2) | split at h)
  all_goals try (exact absurd h (by simp only [Res.fail, reduceCtorEq, not_false_eq_true]))
  all_goals try (with_reducible obtain rfl := Res.wait.inj h)
  iterate 30 (all_goals try first
    | with_reducible exact Keep.refl _ _
    | with_reducible assumption
    | (extract_lets +onlyGivenNames zz; refine Keep.cut zz ?_ (fun _ => ?_); (rotate_left; (try clear_value zz); rotate_right; subst zz))
    | (extract_lets +onlyGivenNames zz; subst zz)
    | with_reducible refine (putRegion_keep ..).after ?_ (by decide)
    | with_reducible refine Keep.ite (fun _ => ?_) (fun _ => ?_)
    | split)

theorem firePosted_keep (i y1 : Nat) (y2 : State) : Keep 604057198 y2 (firePosted i y1 y2) := by
  induction y1 generalizing i y2 with
  | zero => exact Keep.refl _ _
  | succ n ih =>
    unfold firePosted
    iterate 30 (all_goals try first
      | with_reducible exact Keep.refl _ _
      | with_reducible assumption
      | (extract_lets +onlyGivenNames zz; refine Keep.cut zz ?_ (fun _ => ?_); (rotate_left; (try clear_value zz); rotate_right; subst zz))
      | (extract_lets +onlyGivenNames zz; subst zz)
      | with_reducible refine (ih ..).after ?_ (by decide)
      | with_reducible refine (startWork_keep ..).after ?_ (by decide)
      | with_reducible refine (putWork_keep ..).after ?_ (by decide)
      | with_reducible refine (putRegion_keep ..).after ?_ (by decide)
      | with_reducible refine (bump_keep ..).after ?_ (by decide)
      | with_reducible refine Keep.ite (fun _ => ?_) (fun _ => ?_)
      | split)

theorem consumeTrigger_keep {i : Nat} {s : State} {t0 : State} {x1 : Option (Nat × Trig)} (h : consumeTrigger i s = (t0, x1)) : Keep 604057198 s t0 := by
  unfold consumeTrigger at h
  try dsimp only at h
  repeat' (first | split at h)
  all_goals try (exact absurd h (by simp only [reduceCtorEq, not_false_eq_true]))
  all_goals try (with_reducible obtain ⟨rfl, rfl⟩ := Prod.mk.inj h)
  iterate 30 (all_goals try first
    | with_reducible exact Keep.refl _ _
    | with_reducible assumption
    | (extract_lets +onlyGivenNames zz; refine Keep.cut zz ?_ (fun _ => ?_); (rotate_left; (try clear_value zz); rotate_right; subst zz))
    | (extract_lets +onlyGivenNames zz; subst zz)
    | with_reducible refine (firePosted_keep ..).after ?_ (by decide)
    | with_reducible refine (putRegion_keep ..).after ?_ (by decide)
    | with_reducible refine (bump_keep ..).after ?_ (by decide)
    | with_reducible refine Keep.pairIte (by assumption) (fun _ => ?_)
    | with_reducible refine Keep.pairIteElse (by assumption) (fun _ => ?_)
    | with_reducible refine Keep.ite (fun _ => ?_) (fun _ => ?_)
    | split)
theorem consumeTrigger_keepP (i : Nat) (s : State) : Keep 604057198 s (consumeTrigger i s).1 := consumeTrigger_keep (i := i) (s := s) rfl

theorem messageLeft_keep (conn seq : Nat) (s : State) : Keep 536948334 s (messageLeft conn seq s) := by
  unfold messageLeft
  iterate 30 (all_goals try first
    | with_reducible exact Keep.refl _ _
    | with_reducible assumption
    | (extract_lets +onlyGivenNames zz; refine Keep.cut zz ?_ (fun _ => ?_); (rotate_left; (try clear_value zz); rotate_right; subst zz))
    | (extract_lets +onlyGivenNames zz; subst zz)
    | with_reducible refine (pruneTx_keep ..).after ?_ (by decide)
    | with_reducible refine (tryClose_keep ..).after ?_ (by decide)
    | with_reducible refine (workStep_keep ..).after ?_ (by decide)
    | with_reducible refine (modTx_keep ..).after ?_ (by decide)
    | with_reducible refine Keep.ite (fun _ => ?_) (fun _ => ?_)
    | split)

theorem retransmit_keep (conn seq index : Nat) (s : State) : Keep 536870924 s (retransmit conn seq index s) := by
  unfold retransmit
  iterate 30 (all_goals try first
    | with_reducible exact Keep.refl _ _
    | with_reducible assumption
    | (extract_lets +onlyGivenNames zz; refine Keep.cut zz ?_ (fun _ => ?_); (rotate_left; (try clear_value zz); rotate_right; subst zz))
    | (extract_lets +onlyGivenNames zz; subst zz)
    | with_reducible refine (sendConnect_keep ..).after ?_ (by decide)
    | with_reducible refine (resendCtl_keep ..).after ?_ (by decide)
    | with_reducible refine (resendPkt_keep ..).after ?_ (by decide)
    | with_reducible refine (putConn_keep ..).after ?_ (by decide)
    | with_reducible refine Keep.ite (fun _ => ?_) (fun _ => ?_)
    | split)

theorem deadTarget_keep (req : Nat) (s : State) : Keep 536948718 s (deadTarget req s) := by
  unfold deadTarget
  iterate 30 (all_goals try first
    | with_reducible exact Keep.refl _ _
    | with_reducible assumption
    | (extract_lets +onlyGivenNames zz; refine Keep.cut zz ?_ (fun _ => ?_); (rotate_left; (try clear_value zz); rotate_right; subst zz))
    | (extract_lets +onlyGivenNames zz; subst zz)
    | with_reducible refine (dropSender_keep ..).after ?_ (by decide)
    | with_reducible refine (deadFill_keep ..).after ?_ (by decide)
    | with_reducible refine (fenceDone_keep ..).after ?_ (by decide)
    | with_reducible refine (loadDead_keep ..).after ?_ (by decide)
    | with_reducible refine (logEv_keep ..).after ?_ (by decide)
    | with_reducible refine (bump_keep ..).after ?_ (by decide)
    | with_reducible refine Keep.getD (fun _ _ => ?_) ?_
    | with_reducible refine Keep.ite (fun _ => ?_) (fun _ => ?_)
    | split
    | with_reducible refine (Keep.of_xfe _ _).after ?_ (by decide))

theorem afterFetch_keep (id : Nat) (s : State) : Keep 612446206 s (afterFetch id s) := by
  unfold afterFetch
  iterate 30 (all_goals try first
    | with_reducible exact Keep.refl _ _
    | with_reducible assumption
    | (extract_lets +onlyGivenNames zz; refine Keep.cut zz ?_ (fun _ => ?_); (rotate_left; (try clear_value zz); rotate_right; subst zz))
    | (extract_lets +onlyGivenNames zz; subst zz)
    | with_reducible refine (receiveChecked_keep ..).after ?_ (by decide)
    | with_reducible refine (tryClose_keep ..).after ?_ (by decide)
    | with_reducible refine (endSent_keep ..).after ?_ (by decide)
    | with_reducible refine (sendMsg_keep ..).after ?_ (by decide)
    | with_reducible refine (fetchWaiting_keep ..).after ?_ (by decide)
    | with_reducible refine Keep.foldl (fun _ _ => ?_) ?_ _
    | with_reducible refine Keep.foldlFst (fun _ _ => ?_) ?_ _
    | with_reducible refine Keep.foldlSnd (fun _ _ => ?_) ?_ _
    | with_reducible refine Keep.ite (fun _ => ?_) (fun _ => ?_)
    | split
    | with_reducible refine (Keep.of_xfe _ _).after ?_ (by decide))

theorem spillFetched_keep (id : Nat) (bytes : Option (List Byte)) (s : State) : Keep 612446206 s (spillFetched id bytes s) := by
  unfold spillFetched
  iterate 30 (all_goals try first
    | with_reducible exact Keep.refl _ _
    | with_reducible assumption
    | (extract_lets +onlyGivenNames zz; refine Keep.cut zz ?_ (fun _ => ?_); (rotate_left; (try clear_value zz); rotate_right; subst zz))
    | (extract_lets +onlyGivenNames zz; subst zz)
    | with_reducible refine (afterFetch_keep ..).after ?_ (by decide)
    | with_reducible refine (failConn_keep ..).after ?_ (by decide)
    | with_reducible refine (putConn_keep ..).after ?_ (by decide)
    | with_reducible refine (logEv_keep ..).after ?_ (by decide)
    | with_reducible refine Keep.ite (fun _ => ?_) (fun _ => ?_)
    | split
    | with_reducible refine (Keep.of_xfe _ _).after ?_ (by decide))

theorem failAll_keep (s : State) : Keep 536948350 s (failAll s) := by
  unfold failAll
  iterate 30 (all_goals try first
    | with_reducible exact Keep.refl _ _
    | with_reducible assumption
    | with_reducible refine (failConn_keep ..).after ?_ (by decide)
    | with_reducible refine Keep.foldl (fun _ _ => ?_) ?_ _
    | with_reducible refine Keep.foldlFst (fun _ _ => ?_) ?_ _
    | with_reducible refine Keep.foldlSnd (fun _ _ => ?_) ?_ _
    | with_reducible refine Keep.ite (fun _ => ?_) (fun _ => ?_)
    | split)

theorem takeNode_keep (node : Nat) (s : State) : Keep 536948350 s (takeNode node s) := by
  unfold takeNode
  iterate 30 (all_goals try first
    | with_reducible exact Keep.refl _ _
    | with_reducible assumption
    | (extract_lets +onlyGivenNames zz; refine Keep.cut zz ?_ (fun _ => ?_); (rotate_left; (try clear_value zz); rotate_right; subst zz))
    | (extract_lets +onlyGivenNames zz; subst zz)
    | with_reducible refine (failAll_keep ..).after ?_ (by decide)
    | with_reducible refine (pumpAll_keep ..).after ?_ (by decide)
    | with_reducible refine (setF_keep ..).after ?_ (by decide)
    | with_reducible refine Keep.foldl (fun _ _ => ?_) ?_ _
    | with_reducible refine Keep.foldlFst (fun _ _ => ?_) ?_ _
    | with_reducible refine Keep.foldlSnd (fun _ _ => ?_) ?_ _
    | with_reducible refine Keep.ite (fun _ => ?_) (fun _ => ?_)
    | split)

theorem assign_keep (port node fmNode epoch : Nat) (s : State) : Keep 536948350 s (assign port node fmNode epoch s) := by
  unfold assign
  iterate 30 (all_goals try first
    | with_reducible exact Keep.refl _ _
    | with_reducible assumption
    | (extract_lets +onlyGivenNames zz; refine Keep.cut zz ?_ (fun _ => ?_); (rotate_left; (try clear_value zz); rotate_right; subst zz))
    | (extract_lets +onlyGivenNames zz; subst zz)
    | with_reducible refine (takeNode_keep ..).after ?_ (by decide)
    | with_reducible refine (logEv_keep ..).after ?_ (by decide)
    | with_reducible refine (setF_keep ..).after ?_ (by decide)
    | with_reducible refine Keep.ite (fun _ => ?_) (fun _ => ?_)
    | split)

theorem setRoutes_keep (first last mask : Nat) (s : State) : Keep 536870912 s (setRoutes first last mask s) := by
  unfold setRoutes
  iterate 30 (all_goals try first
    | with_reducible exact Keep.refl _ _
    | with_reducible assumption
    | (extract_lets +onlyGivenNames zz; refine Keep.cut zz ?_ (fun _ => ?_); (rotate_left; (try clear_value zz); rotate_right; subst zz))
    | (extract_lets +onlyGivenNames zz; subst zz)
    | with_reducible refine Keep.ite (fun _ => ?_) (fun _ => ?_)
    | split
    | with_reducible refine (Keep.of_xfe _ _).after ?_ (by decide))

theorem regionOp_keep {k : Nat} (op from_ index : Nat) (act : Region → State → State) (s : State) (hk : 2 ||| k = k)
    (h : ∀ r s, Keep k s (act r s)) : Keep k s (regionOp op from_ index act s) := by
  unfold regionOp
  split
  · exact Keep.refl _ _
  · have h1 : Keep k s ((s.setF Reg.xfeRegionOpIndex index).setF Reg.xfeRegionOpOp op) :=
      (setF_keep ..).after ((setF_keep ..).mono hk) hk
    dsimp only
    split
    · exact (setF_keep ..).after h1 hk
    · split
      · exact (setF_keep ..).after h1 hk
      · split
        · exact (setF_keep ..).after h1 hk
        · exact (h _ _).after ((setF_keep ..).after h1 hk) (Nat.or_self k)

theorem regionOpRevoke_keep (op from_ index : Nat) (free : Bool) (s : State) : Keep 536945230 s (regionOpRevoke op from_ index free s) := by
  unfold regionOpRevoke
  iterate 30 (all_goals try first
    | with_reducible exact Keep.refl _ _
    | with_reducible assumption
    | with_reducible refine regionOp_keep _ _ _ _ _ (by decide) (fun _ _ => ?_)
    | with_reducible refine (revokeStep_keep ..).after ?_ (by decide)
    | with_reducible refine (setF_keep ..).after ?_ (by decide)
    | with_reducible refine Keep.ite (fun _ => ?_) (fun _ => ?_)
    | split)

theorem sluReturn_keep (i : Nat) (credits : List Nat) (s : State) : Keep 536870924 s (sluReturn i credits s) := by
  unfold sluReturn
  iterate 30 (all_goals try first
    | with_reducible exact Keep.refl _ _
    | with_reducible assumption
    | with_reducible refine (announceIdle_keep ..).after ?_ (by decide)
    | with_reducible refine (grantCredits_keep ..).after ?_ (by decide)
    | with_reducible refine Keep.ite (fun _ => ?_) (fun _ => ?_)
    | split)

theorem sluNext_keep (i : Nat) (arrivals : List Arrival) (credits : List Nat) (s : State) : Keep 1610612748 s (sluNext i arrivals credits s) := by
  have g : ∀ u, Keep 1610612748 u (sluDecide i (sluFinish sendGranted i u)) := fun u =>
    (sluDecide_keep ..).after (sluFinish_keep _ _ _ (by decide) (fun _ _ _ => (sendGranted_keep ..).mono (by decide))) (by decide)
  unfold sluNext
  dsimp only
  split
  · exact (sluArrive_keep ..).mono (by decide)
  · split
    · exact (g _).after ((sluPurge_keep ..).after ((sluArrive_keep ..).mono (by decide)) (by decide)) (by decide)
    · exact (ctlIdle_keep ..).after ((g _).after ((sluReturn_keep ..).after ((sluArrive_keep ..).mono (by decide)) (by decide)) (by decide)) (by decide)

end Sys2Proof.Machine
end

