-- ==== Sys2Proof/Laws/KeepBindings.lean ====
section
/-!
SUPPORT. Laws/KeepBindings.lean: what each operation of Machine/Bindings.lean can change (Laws/Keep.lean).
-/
set_option Elab.async false
set_option linter.all false
namespace Sys2Proof.Machine

open Sys2Proof

theorem modelCheck_keep {c : Cmd} {b : List Byte} {id : Nat} {s : State} {t0 : State} {x1 : (Status ⊕ Model)} (h : modelCheck c b id s = (t0, x1)) : Keep 67177998 s t0 := by
  unfold modelCheck at h
  try dsimp only at h
  repeat' (first | split at h)
  all_goals try (exact absurd h (by simp only [reduceCtorEq, not_false_eq_true]))
  all_goals try (with_reducible obtain ⟨rfl, rfl⟩ := Prod.mk.inj h)
  iterate 30 (all_goals try first
    | with_reducible exact Keep.refl _ _
    | with_reducible assumption
    | (extract_lets +onlyGivenNames zz; refine Keep.cut zz ?_ (fun _ => ?_); (rotate_left; (try clear_value zz); rotate_right; subst zz))
    | (extract_lets +onlyGivenNames zz; subst zz)
    | with_reducible refine (directFetch_keep (by assumption)).after ?_ (by decide)
    | with_reducible refine (directFetch_keepP ..).after ?_ (by decide)
    | with_reducible refine Keep.pairIte (by assumption) (fun _ => ?_)
    | with_reducible refine Keep.pairIteElse (by assumption) (fun _ => ?_)
    | with_reducible refine Keep.ite (fun _ => ?_) (fun _ => ?_)
    | split)
theorem modelCheck_keepP (c : Cmd) (b : List Byte) (id : Nat) (s : State) : Keep 67177998 s (modelCheck c b id s).1 := modelCheck_keep (c := c) (b := b) (id := id) (s := s) rfl

theorem modelBind_keepD {c : Cmd} {s : State} {t0 : State} {r0 : Reply} (h : modelBind c s = .done t0 r0) : Keep 68226574 s t0 := by
  unfold modelBind at h
  try dsimp only at h
  repeat' (first | (with_reducible rw [need_done] at h; replace h := h.2) | split at h)
  all_goals try (exact absurd h (by simp only [Res.fail, reduceCtorEq, not_false_eq_true]))
  all_goals try (with_reducible obtain ⟨rfl, rfl⟩ := Res.done.inj h)
  iterate 30 (all_goals try first
    | with_reducible exact Keep.refl _ _
    | with_reducible assumption
    | (extract_lets +onlyGivenNames zz; refine Keep.cut zz ?_ (fun _ => ?_); (rotate_left; (try clear_value zz); rotate_right; subst zz))
    | (extract_lets +onlyGivenNames zz; subst zz)
    | with_reducible refine (modelCheck_keep (by assumption)).after ?_ (by decide)
    | with_reducible refine (modelCheck_keepP ..).after ?_ (by decide)
    | with_reducible refine (beginAccess_keep (by assumption)).after ?_ (by decide)
    | with_reducible refine Keep.ite (fun _ => ?_) (fun _ => ?_)
    | split
    | with_reducible refine (Keep.of_models _ _).after ?_ (by decide))
theorem modelBind_keepW {c : Cmd} {s : State} {t0 : State} (h : modelBind c s = .wait t0) : Keep 68226574 s t0 := by
  unfold modelBind at h
  try dsimp only at h
  repeat' (first | (with_reducible rw [need_wait] at h; replace h := h.2) | split at h)
  all_goals try (exact absurd h (by simp only [Res.fail, reduceCtorEq, not_false_eq_true]))
  all_goals try (with_reducible obtain rfl := Res.wait.inj h)
  iterate 30 (all_goals try first
    | with_reducible exact Keep.refl _ _
    | with_reducible assumption
    | (extract_lets +onlyGivenNames zz; refine Keep.cut zz ?_ (fun _ => ?_); (rotate_left; (try clear_value zz); rotate_right; subst zz))
    | (extract_lets +onlyGivenNames zz; subst zz)
    | with_reducible refine (modelCheck_keep (by assumption)).after ?_ (by decide)
    | with_reducible refine (modelCheck_keepP ..).after ?_ (by decide)
    | with_reducible refine (beginAccess_keep (by assumption)).after ?_ (by decide)
    | with_reducible refine Keep.ite (fun _ => ?_) (fun _ => ?_)
    | split
    | with_reducible refine (Keep.of_models _ _).after ?_ (by decide))

theorem modelUnbind_keepD {c : Cmd} {s : State} {t0 : State} {r0 : Reply} (h : modelUnbind c s = .done t0 r0) : Keep 370151406 s t0 := by
  unfold modelUnbind at h
  try dsimp only at h
  repeat' (first | (with_reducible rw [need_done] at h; replace h := h.2) | split at h)
  all_goals try (exact absurd h (by simp only [Res.fail, reduceCtorEq, not_false_eq_true]))
  all_goals try (with_reducible obtain ⟨rfl, rfl⟩ := Res.done.inj h)
  iterate 30 (all_goals try first
    | with_reducible exact Keep.refl _ _
    | with_reducible assumption
    | (extract_lets +onlyGivenNames zz; refine Keep.cut zz ?_ (fun _ => ?_); (rotate_left; (try clear_value zz); rotate_right; subst zz))
    | (extract_lets +onlyGivenNames zz; subst zz)
    | with_reducible refine (pmeDropBinding_keep ..).after ?_ (by decide)
    | with_reducible refine Keep.ite (fun _ => ?_) (fun _ => ?_)
    | split
    | with_reducible refine (Keep.of_models _ _).after ?_ (by decide))
theorem modelUnbind_keepW {c : Cmd} {s : State} {t0 : State} (h : modelUnbind c s = .wait t0) : Keep 370151406 s t0 := by
  unfold modelUnbind at h
  try dsimp only at h
  repeat' (first | (with_reducible rw [need_wait] at h; replace h := h.2) | split at h)
  all_goals try (exact absurd h (by simp only [Res.fail, reduceCtorEq, not_false_eq_true]))
  all_goals try (with_reducible obtain rfl := Res.wait.inj h)
  iterate 30 (all_goals try first
    | with_reducible exact Keep.refl _ _
    | with_reducible assumption
    | (extract_lets +onlyGivenNames zz; refine Keep.cut zz ?_ (fun _ => ?_); (rotate_left; (try clear_value zz); rotate_right; subst zz))
    | (extract_lets +onlyGivenNames zz; subst zz)
    | with_reducible refine (pmeDropBinding_keep ..).after ?_ (by decide)
    | with_reducible refine Keep.ite (fun _ => ?_) (fun _ => ?_)
    | split
    | with_reducible refine (Keep.of_models _ _).after ?_ (by decide))

theorem tailCheck_keep {c : Cmd} {b : List Byte} {id : Nat} {s : State} {t0 : State} {x1 : (Status ⊕ Tail)} (h : tailCheck c b id s = (t0, x1)) : Keep 67177998 s t0 := by
  unfold tailCheck at h
  try dsimp only at h
  repeat' (first | split at h)
  all_goals try (exact absurd h (by simp only [reduceCtorEq, not_false_eq_true]))
  all_goals try (with_reducible obtain ⟨rfl, rfl⟩ := Prod.mk.inj h)
  iterate 30 (all_goals try first
    | with_reducible exact Keep.refl _ _
    | with_reducible assumption
    | (extract_lets +onlyGivenNames zz; refine Keep.cut zz ?_ (fun _ => ?_); (rotate_left; (try clear_value zz); rotate_right; subst zz))
    | (extract_lets +onlyGivenNames zz; subst zz)
    | with_reducible refine (directFetch_keep (by assumption)).after ?_ (by decide)
    | with_reducible refine (directFetch_keepP ..).after ?_ (by decide)
    | with_reducible refine Keep.pairIte (by assumption) (fun _ => ?_)
    | with_reducible refine Keep.pairIteElse (by assumption) (fun _ => ?_)
    | with_reducible refine Keep.ite (fun _ => ?_) (fun _ => ?_)
    | split)
theorem tailCheck_keepP (c : Cmd) (b : List Byte) (id : Nat) (s : State) : Keep 67177998 s (tailCheck c b id s).1 := tailCheck_keep (c := c) (b := b) (id := id) (s := s) rfl

theorem tailBind_keepD {c : Cmd} {s : State} {t0 : State} {r0 : Reply} (h : tailBind c s = .done t0 r0) : Keep 69275150 s t0 := by
  unfold tailBind at h
  try dsimp only at h
  repeat' (first | (with_reducible rw [need_done] at h; replace h := h.2) | split at h)
  all_goals try (exact absurd h (by simp only [Res.fail, reduceCtorEq, not_false_eq_true]))
  all_goals try (with_reducible obtain ⟨rfl, rfl⟩ := Res.done.inj h)
  iterate 30 (all_goals try first
    | with_reducible exact Keep.refl _ _
    | with_reducible assumption
    | (extract_lets +onlyGivenNames zz; refine Keep.cut zz ?_ (fun _ => ?_); (rotate_left; (try clear_value zz); rotate_right; subst zz))
    | (extract_lets +onlyGivenNames zz; subst zz)
    | with_reducible refine (tailCheck_keep (by assumption)).after ?_ (by decide)
    | with_reducible refine (tailCheck_keepP ..).after ?_ (by decide)
    | with_reducible refine (beginAccess_keep (by assumption)).after ?_ (by decide)
    | with_reducible refine Keep.ite (fun _ => ?_) (fun _ => ?_)
    | split
    | with_reducible refine (Keep.of_tails _ _).after ?_ (by decide))
theorem tailBind_keepW {c : Cmd} {s : State} {t0 : State} (h : tailBind c s = .wait t0) : Keep 69275150 s t0 := by
  unfold tailBind at h
  try dsimp only at h
  repeat' (first | (with_reducible rw [need_wait] at h; replace h := h.2) | split at h)
  all_goals try (exact absurd h (by simp only [Res.fail, reduceCtorEq, not_false_eq_true]))
  all_goals try (with_reducible obtain rfl := Res.wait.inj h)
  iterate 30 (all_goals try first
    | with_reducible exact Keep.refl _ _
    | with_reducible assumption
    | (extract_lets +onlyGivenNames zz; refine Keep.cut zz ?_ (fun _ => ?_); (rotate_left; (try clear_value zz); rotate_right; subst zz))
    | (extract_lets +onlyGivenNames zz; subst zz)
    | with_reducible refine (tailCheck_keep (by assumption)).after ?_ (by decide)
    | with_reducible refine (tailCheck_keepP ..).after ?_ (by decide)
    | with_reducible refine (beginAccess_keep (by assumption)).after ?_ (by decide)
    | with_reducible refine Keep.ite (fun _ => ?_) (fun _ => ?_)
    | split
    | with_reducible refine (Keep.of_tails _ _).after ?_ (by decide))

theorem tailUnbind_keepD {c : Cmd} {s : State} {t0 : State} {r0 : Reply} (h : tailUnbind c s = .done t0 r0) : Keep 2097152 s t0 := by
  unfold tailUnbind at h
  try dsimp only at h
  repeat' (first | (with_reducible rw [need_done] at h; replace h := h.2) | split at h)
  all_goals try (exact absurd h (by simp only [Res.fail, reduceCtorEq, not_false_eq_true]))
  all_goals try (with_reducible obtain ⟨rfl, rfl⟩ := Res.done.inj h)
  iterate 30 (all_goals try first
    | with_reducible exact Keep.refl _ _
    | with_reducible assumption
    | (extract_lets +onlyGivenNames zz; refine Keep.cut zz ?_ (fun _ => ?_); (rotate_left; (try clear_value zz); rotate_right; subst zz))
    | (extract_lets +onlyGivenNames zz; subst zz)
    | with_reducible refine Keep.ite (fun _ => ?_) (fun _ => ?_)
    | split
    | with_reducible refine (Keep.of_tails _ _).after ?_ (by decide))
theorem tailUnbind_keepW {c : Cmd} {s : State} {t0 : State} (h : tailUnbind c s = .wait t0) : Keep 2097152 s t0 := by
  unfold tailUnbind at h
  try dsimp only at h
  repeat' (first | (with_reducible rw [need_wait] at h; replace h := h.2) | split at h)
  all_goals try (exact absurd h (by simp only [Res.fail, reduceCtorEq, not_false_eq_true]))
  all_goals try (with_reducible obtain rfl := Res.wait.inj h)
  iterate 30 (all_goals try first
    | with_reducible exact Keep.refl _ _
    | with_reducible assumption
    | (extract_lets +onlyGivenNames zz; refine Keep.cut zz ?_ (fun _ => ?_); (rotate_left; (try clear_value zz); rotate_right; subst zz))
    | (extract_lets +onlyGivenNames zz; subst zz)
    | with_reducible refine Keep.ite (fun _ => ?_) (fun _ => ?_)
    | split
    | with_reducible refine (Keep.of_tails _ _).after ?_ (by decide))

theorem adapterLoad_keepD {c : Cmd} {s : State} {t0 : State} {r0 : Reply} (h : adapterLoad c s = .done t0 r0) : Keep 4194304 s t0 := by
  unfold adapterLoad at h
  try dsimp only at h
  repeat' (first | (with_reducible rw [need_done] at h; replace h := h.2) | split at h)
  all_goals try (exact absurd h (by simp only [Res.fail, reduceCtorEq, not_false_eq_true]))
  all_goals try (with_reducible obtain ⟨rfl, rfl⟩ := Res.done.inj h)
  iterate 30 (all_goals try first
    | with_reducible exact Keep.refl _ _
    | with_reducible assumption
    | (extract_lets +onlyGivenNames zz; refine Keep.cut zz ?_ (fun _ => ?_); (rotate_left; (try clear_value zz); rotate_right; subst zz))
    | (extract_lets +onlyGivenNames zz; subst zz)
    | with_reducible refine Keep.ite (fun _ => ?_) (fun _ => ?_)
    | split
    | with_reducible refine (Keep.of_adapters _ _).after ?_ (by decide))
theorem adapterLoad_keepW {c : Cmd} {s : State} {t0 : State} (h : adapterLoad c s = .wait t0) : Keep 4194304 s t0 := by
  unfold adapterLoad at h
  try dsimp only at h
  repeat' (first | (with_reducible rw [need_wait] at h; replace h := h.2) | split at h)
  all_goals try (exact absurd h (by simp only [Res.fail, reduceCtorEq, not_false_eq_true]))
  all_goals try (with_reducible obtain rfl := Res.wait.inj h)
  iterate 30 (all_goals try first
    | with_reducible exact Keep.refl _ _
    | with_reducible assumption
    | (extract_lets +onlyGivenNames zz; refine Keep.cut zz ?_ (fun _ => ?_); (rotate_left; (try clear_value zz); rotate_right; subst zz))
    | (extract_lets +onlyGivenNames zz; subst zz)
    | with_reducible refine Keep.ite (fun _ => ?_) (fun _ => ?_)
    | split
    | with_reducible refine (Keep.of_adapters _ _).after ?_ (by decide))

theorem adapterRetire_keepD {c : Cmd} {s : State} {t0 : State} {r0 : Reply} (h : adapterRetire c s = .done t0 r0) : Keep 373297134 s t0 := by
  unfold adapterRetire at h
  try dsimp only at h
  repeat' (first | (with_reducible rw [need_done] at h; replace h := h.2) | split at h)
  all_goals try (exact absurd h (by simp only [Res.fail, reduceCtorEq, not_false_eq_true]))
  all_goals try (with_reducible obtain ⟨rfl, rfl⟩ := Res.done.inj h)
  iterate 30 (all_goals try first
    | with_reducible exact Keep.refl _ _
    | with_reducible assumption
    | (extract_lets +onlyGivenNames zz; refine Keep.cut zz ?_ (fun _ => ?_); (rotate_left; (try clear_value zz); rotate_right; subst zz))
    | (extract_lets +onlyGivenNames zz; subst zz)
    | with_reducible refine (settleAdapter_keep ..).after ?_ (by decide)
    | with_reducible refine Keep.ite (fun _ => ?_) (fun _ => ?_)
    | split
    | with_reducible refine (Keep.of_adapters _ _).after ?_ (by decide))
theorem adapterRetire_keepW {c : Cmd} {s : State} {t0 : State} (h : adapterRetire c s = .wait t0) : Keep 373297134 s t0 := by
  unfold adapterRetire at h
  try dsimp only at h
  repeat' (first | (with_reducible rw [need_wait] at h; replace h := h.2) | split at h)
  all_goals try (exact absurd h (by simp only [Res.fail, reduceCtorEq, not_false_eq_true]))
  all_goals try (with_reducible obtain rfl := Res.wait.inj h)
  iterate 30 (all_goals try first
    | with_reducible exact Keep.refl _ _
    | with_reducible assumption
    | (extract_lets +onlyGivenNames zz; refine Keep.cut zz ?_ (fun _ => ?_); (rotate_left; (try clear_value zz); rotate_right; subst zz))
    | (extract_lets +onlyGivenNames zz; subst zz)
    | with_reducible refine (settleAdapter_keep ..).after ?_ (by decide)
    | with_reducible refine Keep.ite (fun _ => ?_) (fun _ => ?_)
    | split
    | with_reducible refine (Keep.of_adapters _ _).after ?_ (by decide))

theorem clearWheelRegs_keep (w : Nat) (s : State) : Keep 2 s (clearWheelRegs w s) := by
  unfold clearWheelRegs
  iterate 30 (all_goals try first
    | with_reducible exact Keep.refl _ _
    | with_reducible assumption
    | with_reducible refine (setF_keep ..).after ?_ (by decide)
    | with_reducible refine Keep.foldl (fun _ _ => ?_) ?_ _
    | with_reducible refine Keep.foldlFst (fun _ _ => ?_) ?_ _
    | with_reducible refine Keep.foldlSnd (fun _ _ => ?_) ?_ _
    | with_reducible refine Keep.ite (fun _ => ?_) (fun _ => ?_)
    | split)

theorem readImages_keepP (n : Nat) (l : List (Nat × Nat)) (s : State) : Keep 67177998 s (readImages n l s).1 := by
  induction l generalizing s with
  | nil => exact Keep.refl _ _
  | cons e l ih =>
    unfold readImages
    split
    · rename_i h; exact (directFetch_keep h).mono (by decide)
    · rename_i h; exact (ih _).after ((directFetch_keep h).mono (by decide)) (by decide)

theorem readImages_keep {n : Nat} {l : List (Nat × Nat)} {s t : State} {x : Option Status} (h : readImages n l s = (t, x)) : Keep 67177998 s t := by
  have g := readImages_keepP n l s
  rw [h] at g
  exact g

theorem wheelAttach_keepD {c : Cmd} {s : State} {t0 : State} {r0 : Reply} (h : wheelAttach c s = .done t0 r0) : Keep 612437534 s t0 := by
  unfold wheelAttach at h
  try dsimp only at h
  repeat' (first | (with_reducible rw [need_done] at h; replace h := h.2) | split at h)
  all_goals try (exact absurd h (by simp only [Res.fail, reduceCtorEq, not_false_eq_true]))
  all_goals try (with_reducible obtain ⟨rfl, rfl⟩ := Res.done.inj h)
  iterate 30 (all_goals try first
    | with_reducible exact Keep.refl _ _
    | with_reducible assumption
    | (extract_lets +onlyGivenNames zz; refine Keep.cut zz ?_ (fun _ => ?_); (rotate_left; (try clear_value zz); rotate_right; subst zz))
    | (extract_lets +onlyGivenNames zz; subst zz)
    | with_reducible refine (readImages_keep (by assumption)).after ?_ (by decide)
    | with_reducible refine (readImages_keepP ..).after ?_ (by decide)
    | with_reducible refine (clearWheelRegs_keep ..).after ?_ (by decide)
    | with_reducible refine (putWheel_keep ..).after ?_ (by decide)
    | with_reducible refine (addRegion_keep (by assumption)).after ?_ (by decide)
    | with_reducible refine (addRegion_keepP ..).after ?_ (by decide)
    | with_reducible refine (setTmg_keep ..).after ?_ (by decide)
    | with_reducible refine (beginAccess_keep (by assumption)).after ?_ (by decide)
    | with_reducible refine Keep.ite (fun _ => ?_) (fun _ => ?_)
    | split)
theorem wheelAttach_keepW {c : Cmd} {s : State} {t0 : State} (h : wheelAttach c s = .wait t0) : Keep 612437534 s t0 := by
  unfold wheelAttach at h
  try dsimp only at h
  repeat' (first | (with_reducible rw [need_wait] at h; replace h := h.2) | split at h)
  all_goals try (exact absurd h (by simp only [Res.fail, reduceCtorEq, not_false_eq_true]))
  all_goals try (with_reducible obtain rfl := Res.wait.inj h)
  iterate 30 (all_goals try first
    | with_reducible exact Keep.refl _ _
    | with_reducible assumption
    | (extract_lets +onlyGivenNames zz; refine Keep.cut zz ?_ (fun _ => ?_); (rotate_left; (try clear_value zz); rotate_right; subst zz))
    | (extract_lets +onlyGivenNames zz; subst zz)
    | with_reducible refine (readImages_keep (by assumption)).after ?_ (by decide)
    | with_reducible refine (readImages_keepP ..).after ?_ (by decide)
    | with_reducible refine (clearWheelRegs_keep ..).after ?_ (by decide)
    | with_reducible refine (putWheel_keep ..).after ?_ (by decide)
    | with_reducible refine (addRegion_keep (by assumption)).after ?_ (by decide)
    | with_reducible refine (addRegion_keepP ..).after ?_ (by decide)
    | with_reducible refine (setTmg_keep ..).after ?_ (by decide)
    | with_reducible refine (beginAccess_keep (by assumption)).after ?_ (by decide)
    | with_reducible refine Keep.ite (fun _ => ?_) (fun _ => ?_)
    | split)

theorem shareAnew_keep (l : List Fetch) (s : State) : Keep 134217728 s (shareAnew l s) := by
  unfold shareAnew
  iterate 30 (all_goals try first
    | with_reducible exact Keep.refl _ _
    | with_reducible assumption
    | (extract_lets +onlyGivenNames zz; refine Keep.cut zz ?_ (fun _ => ?_); (rotate_left; (try clear_value zz); rotate_right; subst zz))
    | (extract_lets +onlyGivenNames zz; subst zz)
    | with_reducible refine (setHrc_keep ..).after ?_ (by decide)
    | with_reducible refine Keep.ite (fun _ => ?_) (fun _ => ?_)
    | split)

theorem dropWheel_keep (w : Nat) (s : State) : Keep 780349422 s (dropWheel w s) := by
  unfold dropWheel
  iterate 30 (all_goals try first
    | with_reducible exact Keep.refl _ _
    | with_reducible assumption
    | (extract_lets +onlyGivenNames zz; refine Keep.cut zz ?_ (fun _ => ?_); (rotate_left; (try clear_value zz); rotate_right; subst zz))
    | (extract_lets +onlyGivenNames zz; subst zz)
    | with_reducible refine (shareAnew_keep ..).after ?_ (by decide)
    | with_reducible refine (clearWheelRegs_keep ..).after ?_ (by decide)
    | with_reducible refine (setHrc_keep ..).after ?_ (by decide)
    | with_reducible refine (endSystem_keep ..).after ?_ (by decide)
    | with_reducible refine (foldReady_keep ..).after ?_ (by decide)
    | with_reducible refine (dropPin_keep ..).after ?_ (by decide)
    | with_reducible refine (setTmg_keep ..).after ?_ (by decide)
    | with_reducible refine Keep.foldl (fun _ _ => ?_) ?_ _
    | with_reducible refine Keep.foldlFst (fun _ _ => ?_) ?_ _
    | with_reducible refine Keep.foldlSnd (fun _ _ => ?_) ?_ _
    | with_reducible refine Keep.ite (fun _ => ?_) (fun _ => ?_)
    | split
    | with_reducible refine (Keep.of_wheels_xfe _ _ _).after ?_ (by decide))

theorem wheelDetach_keepD {c : Cmd} {s : State} {t0 : State} {r0 : Reply} (h : wheelDetach c s = .done t0 r0) : Keep 780349422 s t0 := by
  unfold wheelDetach at h
  try dsimp only at h
  repeat' (first | (with_reducible rw [need_done] at h; replace h := h.2) | split at h)
  all_goals try (exact absurd h (by simp only [Res.fail, reduceCtorEq, not_false_eq_true]))
  all_goals try (with_reducible obtain ⟨rfl, rfl⟩ := Res.done.inj h)
  iterate 30 (all_goals try first
    | with_reducible exact Keep.refl _ _
    | with_reducible assumption
    | (extract_lets +onlyGivenNames zz; refine Keep.cut zz ?_ (fun _ => ?_); (rotate_left; (try clear_value zz); rotate_right; subst zz))
    | (extract_lets +onlyGivenNames zz; subst zz)
    | with_reducible refine (dropWheel_keep ..).after ?_ (by decide)
    | with_reducible refine Keep.ite (fun _ => ?_) (fun _ => ?_)
    | split)
theorem wheelDetach_keepW {c : Cmd} {s : State} {t0 : State} (h : wheelDetach c s = .wait t0) : Keep 780349422 s t0 := by
  unfold wheelDetach at h
  try dsimp only at h
  repeat' (first | (with_reducible rw [need_wait] at h; replace h := h.2) | split at h)
  all_goals try (exact absurd h (by simp only [Res.fail, reduceCtorEq, not_false_eq_true]))
  all_goals try (with_reducible obtain rfl := Res.wait.inj h)
  iterate 30 (all_goals try first
    | with_reducible exact Keep.refl _ _
    | with_reducible assumption
    | (extract_lets +onlyGivenNames zz; refine Keep.cut zz ?_ (fun _ => ?_); (rotate_left; (try clear_value zz); rotate_right; subst zz))
    | (extract_lets +onlyGivenNames zz; subst zz)
    | with_reducible refine (dropWheel_keep ..).after ?_ (by decide)
    | with_reducible refine Keep.ite (fun _ => ?_) (fun _ => ?_)
    | split)

end Sys2Proof.Machine
end

