-- ==== Sys2Proof/Laws/KeepAttention.lean ====
section
/-!
SUPPORT. Laws/KeepAttention.lean: what each operation of Machine/Attention.lean can change (Laws/Keep.lean).
-/
set_option Elab.async false
set_option linter.all false
namespace Sys2Proof.Machine

open Sys2Proof

theorem modPart_keep (w stamp : Nat) (f : LayerPart → LayerPart) (s : State) : Keep 8388608 s (modPart w stamp f s) := by
  unfold modPart
  iterate 30 (all_goals try first
    | with_reducible exact Keep.refl _ _
    | with_reducible assumption
    | with_reducible refine (modWheel_keep ..).after ?_ (by decide)
    | with_reducible refine Keep.ite (fun _ => ?_) (fun _ => ?_)
    | split)

theorem loadArrays_keep (x : Wheel) (m : Model) (p : LayerPart) (g : Nat) (s : State) : Keep 2147483648 s (loadArrays x m p g s) := by
  unfold loadArrays
  iterate 30 (all_goals try first
    | with_reducible exact Keep.refl _ _
    | with_reducible assumption
    | with_reducible refine Keep.foldl (fun _ _ => ?_) ?_ _
    | with_reducible refine Keep.foldlFst (fun _ _ => ?_) ?_ _
    | with_reducible refine Keep.foldlSnd (fun _ _ => ?_) ?_ _
    | with_reducible refine Keep.ite (fun _ => ?_) (fun _ => ?_)
    | split
    | with_reducible refine (Keep.of_mxg _ _).after ?_ (by decide))

theorem pageVectors_keep {r : PageRec} {hg : Nat} {s : State} {x0 : List Byte} {x1 : List Byte} {t0 : State} (h : pageVectors r hg s = (x0, x1, t0)) : Keep 16 s t0 := by
  unfold pageVectors at h
  try dsimp only at h
  repeat' (first | split at h)
  all_goals try (exact absurd h (by simp only [reduceCtorEq, not_false_eq_true]))
  all_goals try (with_reducible obtain ⟨rfl, h2⟩ := Prod.mk.inj h; with_reducible obtain ⟨rfl, rfl⟩ := Prod.mk.inj h2)
  iterate 30 (all_goals try first
    | with_reducible exact Keep.refl _ _
    | with_reducible assumption
    | (extract_lets +onlyGivenNames zz; refine Keep.cut zz ?_ (fun _ => ?_); (rotate_left; (try clear_value zz); rotate_right; subst zz))
    | (extract_lets +onlyGivenNames zz; subst zz)
    | with_reducible refine (freshBytes_keep (by assumption)).after ?_ (by decide)
    | with_reducible refine (freshBytes_keepP ..).after ?_ (by decide)
    | with_reducible refine Keep.pairIte (by assumption) (fun _ => ?_)
    | with_reducible refine Keep.pairIteElse (by assumption) (fun _ => ?_)
    | with_reducible refine Keep.ite (fun _ => ?_) (fun _ => ?_)
    | split)
theorem pageVectors_keepP (r : PageRec) (hg : Nat) (s : State) : Keep 16 s (pageVectors r hg s).2.2 := pageVectors_keep (r := r) (hg := hg) (s := s) rfl

theorem awaitCredits_keep (g : Geom) (arrays : List Nat) (s : State) : Keep 2147483668 s (awaitCredits g arrays s) := by
  unfold awaitCredits
  iterate 30 (all_goals try first
    | with_reducible exact Keep.refl _ _
    | with_reducible assumption
    | (extract_lets +onlyGivenNames zz; refine Keep.cut zz ?_ (fun _ => ?_); (rotate_left; (try clear_value zz); rotate_right; subst zz))
    | (extract_lets +onlyGivenNames zz; subst zz)
    | with_reducible refine (fresh_keep (by assumption)).after ?_ (by decide)
    | with_reducible refine (fresh_keepP ..).after ?_ (by decide)
    | with_reducible refine (bumpBy_keep ..).after ?_ (by decide)
    | with_reducible refine Keep.foldl (fun _ _ => ?_) ?_ _
    | with_reducible refine Keep.foldlFst (fun _ _ => ?_) ?_ _
    | with_reducible refine Keep.foldlSnd (fun _ _ => ?_) ?_ _
    | with_reducible refine Keep.ite (fun _ => ?_) (fun _ => ?_)
    | split
    | with_reducible refine (Keep.of_mxg _ _).after ?_ (by decide))

theorem intoHopper_keep (a hg : Nat) (r : PageRec) (s : State) : Keep 2147483664 s (intoHopper a hg r s) := by
  unfold intoHopper
  iterate 30 (all_goals try first
    | with_reducible exact Keep.refl _ _
    | with_reducible assumption
    | (extract_lets +onlyGivenNames zz; refine Keep.cut zz ?_ (fun _ => ?_); (rotate_left; (try clear_value zz); rotate_right; subst zz))
    | (extract_lets +onlyGivenNames zz; subst zz)
    | with_reducible refine (pageVectors_keep (by assumption)).after ?_ (by decide)
    | with_reducible refine (pageVectors_keepP ..).after ?_ (by decide)
    | with_reducible refine Keep.ite (fun _ => ?_) (fun _ => ?_)
    | split
    | with_reducible refine (Keep.of_mxg _ _).after ?_ (by decide))

theorem closeArray_keep (a : Nat) (scores : List Nat) (parts : List PartialRec) (s : State) : Keep 2147483648 s (closeArray a scores parts s) := by
  unfold closeArray
  iterate 30 (all_goals try first
    | with_reducible exact Keep.refl _ _
    | with_reducible assumption
    | (extract_lets +onlyGivenNames zz; refine Keep.cut zz ?_ (fun _ => ?_); (rotate_left; (try clear_value zz); rotate_right; subst zz))
    | (extract_lets +onlyGivenNames zz; subst zz)
    | with_reducible refine Keep.ite (fun _ => ?_) (fun _ => ?_)
    | split
    | with_reducible refine (Keep.of_mxg _ _).after ?_ (by decide))

theorem gangDeal_keep (n : Nat) (s : State) : Keep 3196792830 s (gangDeal n s) := by
  unfold gangDeal
  iterate 30 (all_goals try first
    | with_reducible exact Keep.refl _ _
    | with_reducible assumption
    | (extract_lets +onlyGivenNames zz; refine Keep.cut zz ?_ (fun _ => ?_); (rotate_left; (try clear_value zz); rotate_right; subst zz))
    | (extract_lets +onlyGivenNames zz; subst zz)
    | with_reducible refine (loadArrays_keep ..).after ?_ (by decide)
    | with_reducible refine (modPart_keep ..).after ?_ (by decide)
    | with_reducible refine (endTurns_keep ..).after ?_ (by decide)
    | with_reducible refine (modWheel_keep ..).after ?_ (by decide)
    | with_reducible refine (addPin_keep (by assumption)).after ?_ (by decide)
    | with_reducible refine (bump_keep ..).after ?_ (by decide)
    | with_reducible refine Keep.getD (fun _ _ => ?_) ?_
    | with_reducible refine Keep.foldl (fun _ _ => ?_) ?_ _
    | with_reducible refine Keep.foldlFst (fun _ _ => ?_) ?_ _
    | with_reducible refine Keep.foldlSnd (fun _ _ => ?_) ?_ _
    | with_reducible refine Keep.ite (fun _ => ?_) (fun _ => ?_)
    | split)

theorem noteUsed_keep (sessions : List Nat) (used : List (Nat × Nat)) (s : State) : Keep 1024 s (noteUsed sessions used s) := by
  unfold noteUsed
  iterate 30 (all_goals try first
    | with_reducible exact Keep.refl _ _
    | with_reducible assumption
    | with_reducible refine (modCapsule_keep ..).after ?_ (by decide)
    | with_reducible refine Keep.foldl (fun _ _ => ?_) ?_ _
    | with_reducible refine Keep.foldlFst (fun _ _ => ?_) ?_ _
    | with_reducible refine Keep.foldlSnd (fun _ _ => ?_) ?_ _
    | with_reducible refine Keep.ite (fun _ => ?_) (fun _ => ?_)
    | split)

theorem takeExpander_keep {i bytes requester : Nat} {k : Nat × Nat × Nat} {s : State} {t0 : State} {x1 : Bool} (h : takeExpander i bytes requester k s = (t0, x1)) : Keep 1610612740 s t0 := by
  unfold takeExpander at h
  try dsimp only at h
  repeat' (first | split at h)
  all_goals try (exact absurd h (by simp only [reduceCtorEq, not_false_eq_true]))
  all_goals try (with_reducible obtain ⟨rfl, rfl⟩ := Prod.mk.inj h)
  iterate 30 (all_goals try first
    | with_reducible exact Keep.refl _ _
    | with_reducible assumption
    | (extract_lets +onlyGivenNames zz; refine Keep.cut zz ?_ (fun _ => ?_); (rotate_left; (try clear_value zz); rotate_right; subst zz))
    | (extract_lets +onlyGivenNames zz; subst zz)
    | with_reducible refine (sluPreempt_keep ..).after ?_ (by decide)
    | with_reducible refine (sluDecide_keep ..).after ?_ (by decide)
    | with_reducible refine (sluPurge_keep ..).after ?_ (by decide)
    | with_reducible refine (sluQueue_keep ..).after ?_ (by decide)
    | with_reducible refine (setSlu_keep ..).after ?_ (by decide)
    | with_reducible refine Keep.pairIte (by assumption) (fun _ => ?_)
    | with_reducible refine Keep.pairIteElse (by assumption) (fun _ => ?_)
    | with_reducible refine Keep.ite (fun _ => ?_) (fun _ => ?_)
    | split)
theorem takeExpander_keepP (i bytes requester : Nat) (k : Nat × Nat × Nat) (s : State) : Keep 1610612740 s (takeExpander i bytes requester k s).1 := takeExpander_keep (i := i) (bytes := bytes) (requester := requester) (k := k) (s := s) rfl

theorem decodePage_keep (w stamp g : Nat) (s : State) : Keep 3196792830 s (decodePage w stamp g s) := by
  unfold decodePage
  iterate 30 (all_goals try first
    | with_reducible exact Keep.refl _ _
    | with_reducible assumption
    | (extract_lets +onlyGivenNames zz; refine Keep.cut zz ?_ (fun _ => ?_); (rotate_left; (try clear_value zz); rotate_right; subst zz))
    | (extract_lets +onlyGivenNames zz; subst zz)
    | with_reducible refine (noteUsed_keep ..).after ?_ (by decide)
    | with_reducible refine (intoHopper_keep ..).after ?_ (by decide)
    | with_reducible refine (awaitCredits_keep ..).after ?_ (by decide)
    | with_reducible refine (modPart_keep ..).after ?_ (by decide)
    | with_reducible refine (endTurns_keep ..).after ?_ (by decide)
    | with_reducible refine (startRecovery_keep ..).after ?_ (by decide)
    | with_reducible refine (expanderRead_keep (by assumption)).after ?_ (by decide)
    | with_reducible refine (expanderRead_keepP ..).after ?_ (by decide)
    | with_reducible refine (bump_keep ..).after ?_ (by decide)
    | with_reducible refine Keep.getD (fun _ _ => ?_) ?_
    | with_reducible refine Keep.foldl (fun _ _ => ?_) ?_ _
    | with_reducible refine Keep.foldlFst (fun _ _ => ?_) ?_ _
    | with_reducible refine Keep.foldlSnd (fun _ _ => ?_) ?_ _
    | with_reducible refine Keep.ite (fun _ => ?_) (fun _ => ?_)
    | split)

theorem expanderDecode_keep (w stamp g : Nat) (s : State) : Keep 4270534654 s (expanderDecode w stamp g s) := by
  unfold expanderDecode
  iterate 30 (all_goals try first
    | with_reducible exact Keep.refl _ _
    | with_reducible assumption
    | with_reducible refine (decodePage_keep ..).after ?_ (by decide)
    | with_reducible refine (takeExpander_keep (by assumption)).after ?_ (by decide)
    | with_reducible refine (takeExpander_keepP ..).after ?_ (by decide)
    | with_reducible refine Keep.ite (fun _ => ?_) (fun _ => ?_)
    | split)

theorem appendPage_keep {i : Nat} {m : Model} {layer k : Nat} {s : State} {x0 : Nat} {t0 : State} (h : appendPage i m layer k s = .inr (x0, t0)) : Keep 100798446 s t0 := by
  unfold appendPage at h
  try dsimp only at h
  repeat' (first | split at h)
  all_goals try (exact absurd h (by simp only [reduceCtorEq, not_false_eq_true]))
  all_goals try (with_reducible obtain ⟨rfl, rfl⟩ := Prod.mk.inj (Sum.inr.inj h))
  iterate 30 (all_goals try first
    | with_reducible exact Keep.refl _ _
    | with_reducible assumption
    | (extract_lets +onlyGivenNames zz; refine Keep.cut zz ?_ (fun _ => ?_); (rotate_left; (try clear_value zz); rotate_right; subst zz))
    | (extract_lets +onlyGivenNames zz; subst zz)
    | with_reducible refine (copyOnWrite_keep (by assumption)).after ?_ (by decide)
    | with_reducible refine (newTail_keep (by assumption)).after ?_ (by decide)
    | with_reducible refine (placeMap_keep ..).after ?_ (by decide)
    | with_reducible refine (modSession_keep ..).after ?_ (by decide)
    | with_reducible refine Keep.getD (fun _ _ => ?_) ?_
    | with_reducible refine Keep.ite (fun _ => ?_) (fun _ => ?_)
    | split)

theorem appendVec_keep (w : Nat) (m : Model) (layer v : Nat) (e : RosterEntry) (vals : List Fp) (s : State) : Keep 4078 s (appendVec w m layer v e vals s) := by
  unfold appendVec
  iterate 30 (all_goals try first
    | with_reducible exact Keep.refl _ _
    | with_reducible assumption
    | (extract_lets +onlyGivenNames zz; refine Keep.cut zz ?_ (fun _ => ?_); (rotate_left; (try clear_value zz); rotate_right; subst zz))
    | (extract_lets +onlyGivenNames zz; subst zz)
    | with_reducible refine (writePage_keep ..).after ?_ (by decide)
    | with_reducible refine (logEv_keep ..).after ?_ (by decide)
    | with_reducible refine (bump_keep ..).after ?_ (by decide)
    | with_reducible refine Keep.ite (fun _ => ?_) (fun _ => ?_)
    | split)

theorem appendPages_keepP (m : Model) (layer : Nat) (l : List RosterEntry) (s : State) : Keep 1049309182 s (appendPages m layer l s).1 := by
  induction l generalizing s with
  | nil => exact Keep.refl _ _
  | cons e l ih =>
    unfold appendPages
    split
    · rename_i h; exact (ih ..).after ((appendPage_keep h).mono (by decide)) (by decide)
    · exact (ih ..).after ((endTurns_keep ..).mono (by decide)) (by decide)
    · exact (ih ..).after ((logEv_keep ..).after ((bump_keep ..).mono (by decide)) (by decide)) (by decide)

theorem appendPages_keep {m : Model} {layer : Nat} {l : List RosterEntry} {s t : State} {b : Bool} (h : appendPages m layer l s = (t, b)) :
    Keep 1049309182 s t := by
  have g := appendPages_keepP m layer l s
  rw [h] at g
  exact g

theorem projectDone_keep {w : Nat} {x : Wheel} {m : Model} {p : LayerPart} {first count v0 vn : Nat} {s : State} {t0 : State} {x1 : Bool} (h : projectDone w x m p first count v0 vn s = (t0, x1)) : Keep 1049309182 s t0 := by
  unfold projectDone at h
  try dsimp only at h
  repeat' (first | split at h)
  all_goals try (exact absurd h (by simp only [reduceCtorEq, not_false_eq_true]))
  all_goals try (with_reducible obtain ⟨rfl, rfl⟩ := Prod.mk.inj h)
  iterate 30 (all_goals try first
    | with_reducible exact Keep.refl _ _
    | with_reducible assumption
    | (extract_lets +onlyGivenNames zz; refine Keep.cut zz ?_ (fun _ => ?_); (rotate_left; (try clear_value zz); rotate_right; subst zz))
    | (extract_lets +onlyGivenNames zz; subst zz)
    | with_reducible refine (appendPages_keep (by assumption)).after ?_ (by decide)
    | with_reducible refine (appendPages_keepP ..).after ?_ (by decide)
    | with_reducible refine (appendVec_keep ..).after ?_ (by decide)
    | with_reducible refine (pageChanged_keep ..).after ?_ (by decide)
    | with_reducible refine Keep.foldl (fun _ _ => ?_) ?_ _
    | with_reducible refine Keep.foldlFst (fun _ _ => ?_) ?_ _
    | with_reducible refine Keep.foldlSnd (fun _ _ => ?_) ?_ _
    | with_reducible refine Keep.pairIte (by assumption) (fun _ => ?_)
    | with_reducible refine Keep.pairIteElse (by assumption) (fun _ => ?_)
    | with_reducible refine Keep.ite (fun _ => ?_) (fun _ => ?_)
    | split)
theorem projectDone_keepP (w : Nat) (x : Wheel) (m : Model) (p : LayerPart) (first count v0 vn : Nat) (s : State) : Keep 1049309182 s (projectDone w x m p first count v0 vn s).1 := projectDone_keep (w := w) (x := x) (m := m) (p := p) (first := first) (count := count) (v0 := v0) (vn := vn) (s := s) rfl

theorem recordDraft_keep (y : Session) (step : Nat) (t : Tail) (drafts : List (List Nat)) (n : Nat) (s : State) : Keep 1024 s (recordDraft y step t drafts n s) := by
  unfold recordDraft
  iterate 30 (all_goals try first
    | with_reducible exact Keep.refl _ _
    | with_reducible assumption
    | (extract_lets +onlyGivenNames zz; refine Keep.cut zz ?_ (fun _ => ?_); (rotate_left; (try clear_value zz); rotate_right; subst zz))
    | (extract_lets +onlyGivenNames zz; subst zz)
    | with_reducible refine (capRecord_keep ..).after ?_ (by decide)
    | with_reducible refine Keep.getD (fun _ _ => ?_) ?_
    | with_reducible refine Keep.ite (fun _ => ?_) (fun _ => ?_)
    | split)

theorem headsDone_keep (x : Wheel) (m : Model) (slot : Nat) (s : State) : Keep 33555456 s (headsDone x m slot s) := by
  unfold headsDone
  iterate 30 (all_goals try first
    | with_reducible exact Keep.refl _ _
    | with_reducible assumption
    | (extract_lets +onlyGivenNames zz; refine Keep.cut zz ?_ (fun _ => ?_); (rotate_left; (try clear_value zz); rotate_right; subst zz))
    | (extract_lets +onlyGivenNames zz; subst zz)
    | with_reducible refine (recordDraft_keep ..).after ?_ (by decide)
    | with_reducible refine (modTurn_keep ..).after ?_ (by decide)
    | with_reducible refine Keep.ite (fun _ => ?_) (fun _ => ?_)
    | split)

theorem markDone_keep (w stamp item : Nat) (s : State) : Keep 8388608 s (markDone w stamp item s) := by
  unfold markDone
  iterate 30 (all_goals try first
    | with_reducible exact Keep.refl _ _
    | with_reducible assumption
    | (extract_lets +onlyGivenNames zz; refine Keep.cut zz ?_ (fun _ => ?_); (rotate_left; (try clear_value zz); rotate_right; subst zz))
    | (extract_lets +onlyGivenNames zz; subst zz)
    | with_reducible refine (modPart_keep ..).after ?_ (by decide)
    | with_reducible refine Keep.ite (fun _ => ?_) (fun _ => ?_)
    | split)

theorem runItem_keep (w : Nat) (x : Wheel) (m : Model) (p : LayerPart) (idx : Nat) (i : Item) (s : State) : Keep 3196792830 s (runItem w x m p idx i s) := by
  unfold runItem
  iterate 30 (all_goals try first
    | with_reducible exact Keep.refl _ _
    | with_reducible assumption
    | (extract_lets +onlyGivenNames zz; refine Keep.cut zz ?_ (fun _ => ?_); (rotate_left; (try clear_value zz); rotate_right; subst zz))
    | (extract_lets +onlyGivenNames zz; subst zz)
    | with_reducible refine (markDone_keep ..).after ?_ (by decide)
    | with_reducible refine (headsDone_keep ..).after ?_ (by decide)
    | with_reducible refine (projectDone_keep (by assumption)).after ?_ (by decide)
    | with_reducible refine (projectDone_keepP ..).after ?_ (by decide)
    | with_reducible refine (noteUsed_keep ..).after ?_ (by decide)
    | with_reducible refine (closeArray_keep ..).after ?_ (by decide)
    | with_reducible refine (modPart_keep ..).after ?_ (by decide)
    | with_reducible refine (finishTail_keep ..).after ?_ (by decide)
    | with_reducible refine (settleParts_keep ..).after ?_ (by decide)
    | with_reducible refine (settleWhere_keep ..).after ?_ (by decide)
    | with_reducible refine (bump_keep ..).after ?_ (by decide)
    | with_reducible refine (bumpBy_keep ..).after ?_ (by decide)
    | with_reducible refine Keep.getD (fun _ _ => ?_) ?_
    | with_reducible refine Keep.ite (fun _ => ?_) (fun _ => ?_)
    | split)

theorem itemDone_keep (w stamp item : Nat) (nodes : List NodeVal) (s : State) : Keep 3196792830 s (itemDone w stamp item nodes s) := by
  unfold itemDone
  iterate 30 (all_goals try first
    | with_reducible exact Keep.refl _ _
    | with_reducible assumption
    | (extract_lets +onlyGivenNames zz; refine Keep.cut zz ?_ (fun _ => ?_); (rotate_left; (try clear_value zz); rotate_right; subst zz))
    | (extract_lets +onlyGivenNames zz; subst zz)
    | with_reducible refine (runItem_keep ..).after ?_ (by decide)
    | with_reducible refine (modPart_keep ..).after ?_ (by decide)
    | with_reducible refine (refillWindow_keep ..).after ?_ (by decide)
    | with_reducible refine (finishTail_keep ..).after ?_ (by decide)
    | with_reducible refine (settleParts_keep ..).after ?_ (by decide)
    | with_reducible refine Keep.ite (fun _ => ?_) (fun _ => ?_)
    | split)

end Sys2Proof.Machine
end

