-- ==== Sys2Proof/Laws/KeepSteps.lean ====
section
/-!
SUPPORT. Laws/KeepSteps.lean: what each operation of Machine/Steps.lean can change (Laws/Keep.lean).
-/
set_option Elab.async false
set_option linter.all false
namespace Sys2Proof.Machine

open Sys2Proof

theorem copyPosition_keep (h t h' t' : Nat) (s : State) : Keep 480 s (copyPosition h t h' t' s) := by
  unfold copyPosition
  iterate 30 (all_goals try first
    | with_reducible exact Keep.refl _ _
    | with_reducible assumption
    | (extract_lets +onlyGivenNames zz; refine Keep.cut zz ?_ (fun _ => ?_); (rotate_left; (try clear_value zz); rotate_right; subst zz))
    | (extract_lets +onlyGivenNames zz; subst zz)
    | with_reducible refine (writePage_keep ..).after ?_ (by decide)
    | with_reducible refine Keep.foldl (fun _ _ => ?_) ?_ _
    | with_reducible refine Keep.foldlFst (fun _ _ => ?_) ?_ _
    | with_reducible refine Keep.foldlSnd (fun _ _ => ?_) ?_ _
    | with_reducible refine Keep.ite (fun _ => ?_) (fun _ => ?_)
    | split)

theorem settlePositions_keep (y : Session) (layers : Nat) (kept : List RosterEntry) (s : State) : Keep 480 s (settlePositions y layers kept s) := by
  unfold settlePositions
  iterate 30 (all_goals try first
    | with_reducible exact Keep.refl _ _
    | with_reducible assumption
    | with_reducible refine (copyPosition_keep ..).after ?_ (by decide)
    | with_reducible refine Keep.foldl (fun _ _ => ?_) ?_ _
    | with_reducible refine Keep.foldlFst (fun _ _ => ?_) ?_ _
    | with_reducible refine Keep.foldlSnd (fun _ _ => ?_) ?_ _
    | with_reducible refine Keep.ite (fun _ => ?_) (fun _ => ?_)
    | split)

theorem planSeal_keep {i h chain : Nat} {s : State} {x0 : SealPlan} {t0 : State} (e : planSeal i h chain s = some (x0, t0)) : Keep 67108864 s t0 := by
  unfold planSeal at e
  dsimp only at e
  split at e
  · exact absurd e (by simp)
  · split at e
    · obtain ⟨-, rfl⟩ := Prod.mk.inj (Option.some.inj e); exact Keep.refl _ _
    · obtain ⟨b, -, hb⟩ := Option.map_eq_some_iff.1 e
      obtain ⟨-, rfl⟩ := Prod.mk.inj hb
      exact (setTmg_keep ..).mono (by decide)

theorem runSeal_keep (p : SealPlan) (s : State) : Keep 67112430 s (runSeal p s) := by
  unfold runSeal
  iterate 30 (all_goals try first
    | with_reducible exact Keep.refl _ _
    | with_reducible assumption
    | (extract_lets +onlyGivenNames zz; refine Keep.cut zz ?_ (fun _ => ?_); (rotate_left; (try clear_value zz); rotate_right; subst zz))
    | (extract_lets +onlyGivenNames zz; subst zz)
    | with_reducible refine (writePage_keep ..).after ?_ (by decide)
    | with_reducible refine (newGen_keep ..).after ?_ (by decide)
    | with_reducible refine (pageChanged_keep ..).after ?_ (by decide)
    | with_reducible refine (retryRecovery_keep ..).after ?_ (by decide)
    | with_reducible refine (writeSlot_keep ..).after ?_ (by decide)
    | with_reducible refine (releaseSlot_keep ..).after ?_ (by decide)
    | with_reducible refine (putRec_keep ..).after ?_ (by decide)
    | with_reducible refine (bump_keep ..).after ?_ (by decide)
    | with_reducible refine (bumpBy_keep ..).after ?_ (by decide)
    | with_reducible refine Keep.ite (fun _ => ?_) (fun _ => ?_)
    | split)

theorem setFill_keep (h n : Nat) (s : State) : Keep 67112430 s (setFill h n s) := by
  unfold setFill
  iterate 30 (all_goals try first
    | with_reducible exact Keep.refl _ _
    | with_reducible assumption
    | with_reducible refine (writePage_keep ..).after ?_ (by decide)
    | with_reducible refine (newGen_keep ..).after ?_ (by decide)
    | with_reducible refine (pageChanged_keep ..).after ?_ (by decide)
    | with_reducible refine Keep.ite (fun _ => ?_) (fun _ => ?_)
    | split)

theorem commitPages_keep {i : Nat} {y : Session} {layers kv : Nat} {kept : List RosterEntry} {toks : List Nat} {s t0 : State}
    (h : commitPages i y layers kv kept toks s = some t0) : Keep 67112430 s t0 := by
  unfold commitPages at h
  dsimp only at h
  obtain ⟨plans, -, rfl⟩ := Option.map_eq_some_iff.1 h
  refine Keep.foldl (fun _ _ => ?_) ?_ _
  · exact (runSeal_keep ..).mono (by decide)
  · refine Keep.foldl (fun _ _ => ?_) ?_ _
    · refine Keep.foldl (fun _ _ => ?_) (Keep.refl _ _) _
      exact (setFill_keep ..).mono (by decide)
    · exact (settlePositions_keep ..).mono (by decide)

theorem recordSeals_keep (e : RosterEntry) (y : Session) (layers kv : Nat) (s : State) : Keep 1024 s (recordSeals e y layers kv s) := by
  unfold recordSeals
  iterate 30 (all_goals try first
    | with_reducible exact Keep.refl _ _
    | with_reducible assumption
    | (extract_lets +onlyGivenNames zz; refine Keep.cut zz ?_ (fun _ => ?_); (rotate_left; (try clear_value zz); rotate_right; subst zz))
    | (extract_lets +onlyGivenNames zz; subst zz)
    | with_reducible refine (recordResult_keep ..).after ?_ (by decide)
    | with_reducible refine Keep.foldl (fun _ _ => ?_) ?_ _
    | with_reducible refine Keep.foldlFst (fun _ _ => ?_) ?_ _
    | with_reducible refine Keep.foldlSnd (fun _ _ => ?_) ?_ _
    | with_reducible refine Keep.ite (fun _ => ?_) (fun _ => ?_)
    | split)

theorem addHeads_keep (w slot last : Nat) (s : State) : Keep 8388608 s (addHeads w slot last s) := by
  unfold addHeads
  iterate 30 (all_goals try first
    | with_reducible exact Keep.refl _ _
    | with_reducible assumption
    | with_reducible refine (modWheel_keep ..).after ?_ (by decide)
    | with_reducible refine Keep.ite (fun _ => ?_) (fun _ => ?_)
    | split)

theorem afterCommit_keep (i w last reason : Nat) (late : Bool) (t : Turn) (tb : Tail) (s : State) : Keep 1049309182 s (afterCommit i w last reason late t tb s) := by
  unfold afterCommit
  iterate 30 (all_goals try first
    | with_reducible exact Keep.refl _ _
    | with_reducible assumption
    | (extract_lets +onlyGivenNames zz; refine Keep.cut zz ?_ (fun _ => ?_); (rotate_left; (try clear_value zz); rotate_right; subst zz))
    | (extract_lets +onlyGivenNames zz; subst zz)
    | with_reducible refine (addHeads_keep ..).after ?_ (by decide)
    | with_reducible refine (recordDraft_keep ..).after ?_ (by decide)
    | with_reducible refine (endTurns_keep ..).after ?_ (by decide)
    | with_reducible refine (weirEvaluate_keep ..).after ?_ (by decide)
    | with_reducible refine (endTurn_keep ..).after ?_ (by decide)
    | with_reducible refine (finishTail_keep ..).after ?_ (by decide)
    | with_reducible refine (bump_keep ..).after ?_ (by decide)
    | with_reducible refine Keep.ite (fun _ => ?_) (fun _ => ?_)
    | split)

theorem commitWalk_keep (i : Nat) (late : Bool) (t : Turn) (x : Wheel) (m : Model) (tb : Tail) (y : Session) (e : RosterEntry) (k : Walk) (s : State) : Keep 1049309182 s (commitWalk i late t x m tb y e k s) := by
  unfold commitWalk
  iterate 30 (all_goals try first
    | with_reducible exact Keep.refl _ _
    | with_reducible assumption
    | (extract_lets +onlyGivenNames zz; refine Keep.cut zz ?_ (fun _ => ?_); (rotate_left; (try clear_value zz); rotate_right; subst zz))
    | (extract_lets +onlyGivenNames zz; subst zz)
    | with_reducible refine (afterCommit_keep ..).after ?_ (by decide)
    | with_reducible refine (recordSeals_keep ..).after ?_ (by decide)
    | with_reducible refine (commitPages_keep (by assumption)).after ?_ (by decide)
    | with_reducible refine (countHistory_keep ..).after ?_ (by decide)
    | with_reducible refine (modTurn_keep ..).after ?_ (by decide)
    | with_reducible refine (commitEvent_keep ..).after ?_ (by decide)
    | with_reducible refine (rejectFrom_keep ..).after ?_ (by decide)
    | with_reducible refine (recordResult_keep ..).after ?_ (by decide)
    | with_reducible refine (modWheel_keep ..).after ?_ (by decide)
    | with_reducible refine (modPme_keep ..).after ?_ (by decide)
    | with_reducible refine (modSession_keep ..).after ?_ (by decide)
    | with_reducible refine (modCapsule_keep ..).after ?_ (by decide)
    | with_reducible refine (logEv_keep ..).after ?_ (by decide)
    | with_reducible refine (bump_keep ..).after ?_ (by decide)
    | with_reducible refine (bumpBy_keep ..).after ?_ (by decide)
    | with_reducible refine Keep.getD (fun _ _ => ?_) ?_
    | with_reducible refine Keep.ite (fun _ => ?_) (fun _ => ?_)
    | split)

theorem stepCommit_keep (i : Nat) (late : Bool) (s : State) : Keep 1049309182 s (stepCommit i late s) := by
  unfold stepCommit
  iterate 30 (all_goals try first
    | with_reducible exact Keep.refl _ _
    | with_reducible assumption
    | (extract_lets +onlyGivenNames zz; refine Keep.cut zz ?_ (fun _ => ?_); (rotate_left; (try clear_value zz); rotate_right; subst zz))
    | (extract_lets +onlyGivenNames zz; subst zz)
    | with_reducible refine (commitWalk_keep ..).after ?_ (by decide)
    | with_reducible refine (endTurns_keep ..).after ?_ (by decide)
    | with_reducible refine (modTurn_keep ..).after ?_ (by decide)
    | with_reducible refine (finishTail_keep ..).after ?_ (by decide)
    | with_reducible refine (modWheel_keep ..).after ?_ (by decide)
    | with_reducible refine (bump_keep ..).after ?_ (by decide)
    | with_reducible refine Keep.ite (fun _ => ?_) (fun _ => ?_)
    | split)

theorem commitTimeout_keep (i : Nat) (s : State) : Keep 1049309182 s (commitTimeout i s) := by
  unfold commitTimeout
  iterate 30 (all_goals try first
    | with_reducible exact Keep.refl _ _
    | with_reducible assumption
    | with_reducible refine (endTurns_keep ..).after ?_ (by decide)
    | with_reducible refine Keep.ite (fun _ => ?_) (fun _ => ?_)
    | split)

theorem chainTimeout_keep (w member : Nat) (s : State) : Keep 1049309182 s (chainTimeout w member s) := by
  unfold chainTimeout
  iterate 30 (all_goals try first
    | with_reducible exact Keep.refl _ _
    | with_reducible assumption
    | (extract_lets +onlyGivenNames zz; refine Keep.cut zz ?_ (fun _ => ?_); (rotate_left; (try clear_value zz); rotate_right; subst zz))
    | (extract_lets +onlyGivenNames zz; subst zz)
    | with_reducible refine (endTurns_keep ..).after ?_ (by decide)
    | with_reducible refine (logEv_keep ..).after ?_ (by decide)
    | with_reducible refine (bump_keep ..).after ?_ (by decide)
    | with_reducible refine Keep.ite (fun _ => ?_) (fun _ => ?_)
    | split)

theorem applyLead_keep (w : Nat) (s : State) : Keep 75501070 s (applyLead w s) := by
  unfold applyLead
  iterate 30 (all_goals try first
    | with_reducible exact Keep.refl _ _
    | with_reducible assumption
    | (extract_lets +onlyGivenNames zz; refine Keep.cut zz ?_ (fun _ => ?_); (rotate_left; (try clear_value zz); rotate_right; subst zz))
    | (extract_lets +onlyGivenNames zz; subst zz)
    | with_reducible refine (modWheel_keep ..).after ?_ (by decide)
    | with_reducible refine (setTmg_keep ..).after ?_ (by decide)
    | with_reducible refine (logEv_keep ..).after ?_ (by decide)
    | with_reducible refine (bump_keep ..).after ?_ (by decide)
    | with_reducible refine Keep.ite (fun _ => ?_) (fun _ => ?_)
    | split)

theorem closeStep_keep (w : Nat) (s : State) : Keep 243273230 s (closeStep w s) := by
  unfold closeStep
  iterate 30 (all_goals try first
    | with_reducible exact Keep.refl _ _
    | with_reducible assumption
    | (extract_lets +onlyGivenNames zz; refine Keep.cut zz ?_ (fun _ => ?_); (rotate_left; (try clear_value zz); rotate_right; subst zz))
    | (extract_lets +onlyGivenNames zz; subst zz)
    | with_reducible refine (applyLead_keep ..).after ?_ (by decide)
    | with_reducible refine (settleGone_keep ..).after ?_ (by decide)
    | with_reducible refine (setHrc_keep ..).after ?_ (by decide)
    | with_reducible refine (modWheel_keep ..).after ?_ (by decide)
    | with_reducible refine (logEv_keep ..).after ?_ (by decide)
    | with_reducible refine (bump_keep ..).after ?_ (by decide)
    | with_reducible refine Keep.ite (fun _ => ?_) (fun _ => ?_)
    | split
    | with_reducible refine (Keep.of_turns _ _).after ?_ (by decide))

theorem endAtRoster_keep (t : Turn) (s : State) : Keep 1049309182 s (endAtRoster t s) := by
  unfold endAtRoster
  iterate 30 (all_goals try first
    | with_reducible exact Keep.refl _ _
    | with_reducible assumption
    | (extract_lets +onlyGivenNames zz; refine Keep.cut zz ?_ (fun _ => ?_); (rotate_left; (try clear_value zz); rotate_right; subst zz))
    | (extract_lets +onlyGivenNames zz; subst zz)
    | with_reducible refine (weirEvaluate_keep ..).after ?_ (by decide)
    | with_reducible refine (endTurn_keep ..).after ?_ (by decide)
    | with_reducible refine (commitEvent_keep ..).after ?_ (by decide)
    | with_reducible refine (bump_keep ..).after ?_ (by decide)
    | with_reducible refine Keep.getD (fun _ _ => ?_) ?_
    | with_reducible refine Keep.ite (fun _ => ?_) (fun _ => ?_)
    | split)

theorem joinTurns_keep (w : Nat) (s : State) : Keep 33554432 s (joinTurns w s) := by
  unfold joinTurns
  iterate 30 (all_goals try first
    | with_reducible exact Keep.refl _ _
    | with_reducible assumption
    | (extract_lets +onlyGivenNames zz; refine Keep.cut zz ?_ (fun _ => ?_); (rotate_left; (try clear_value zz); rotate_right; subst zz))
    | (extract_lets +onlyGivenNames zz; subst zz)
    | with_reducible refine Keep.getD (fun _ _ => ?_) ?_
    | with_reducible refine Keep.ite (fun _ => ?_) (fun _ => ?_)
    | split
    | with_reducible refine (Keep.of_turns _ _).after ?_ (by decide))

theorem joinChains_keep (w : Nat) (s : State) : Keep 132096 s (joinChains w s) := by
  unfold joinChains
  iterate 30 (all_goals try first
    | with_reducible exact Keep.refl _ _
    | with_reducible assumption
    | with_reducible refine (dropCapsule_keep ..).after ?_ (by decide)
    | with_reducible refine (putSession_keep ..).after ?_ (by decide)
    | with_reducible refine Keep.foldl (fun _ _ => ?_) ?_ _
    | with_reducible refine Keep.foldlFst (fun _ _ => ?_) ?_ _
    | with_reducible refine Keep.foldlSnd (fun _ _ => ?_) ?_ _
    | with_reducible refine Keep.ite (fun _ => ?_) (fun _ => ?_)
    | split)

theorem writeRoster_keep (w : Nat) (s : State) : Keep 1049309182 s (writeRoster w s) := by
  unfold writeRoster
  iterate 30 (all_goals try first
    | with_reducible exact Keep.refl _ _
    | with_reducible assumption
    | (extract_lets +onlyGivenNames zz; refine Keep.cut zz ?_ (fun _ => ?_); (rotate_left; (try clear_value zz); rotate_right; subst zz))
    | (extract_lets +onlyGivenNames zz; subst zz)
    | with_reducible refine (endAtRoster_keep ..).after ?_ (by decide)
    | with_reducible refine (modWheel_keep ..).after ?_ (by decide)
    | with_reducible refine (wheelWrite_keep ..).after ?_ (by decide)
    | with_reducible refine (bumpBy_keep ..).after ?_ (by decide)
    | with_reducible refine Keep.getD (fun _ _ => ?_) ?_
    | with_reducible refine Keep.foldl (fun _ _ => ?_) ?_ _
    | with_reducible refine Keep.foldlFst (fun _ _ => ?_) ?_ _
    | with_reducible refine Keep.foldlSnd (fun _ _ => ?_) ?_ _
    | with_reducible refine Keep.ite (fun _ => ?_) (fun _ => ?_)
    | split
    | with_reducible refine (Keep.of_turns _ _).after ?_ (by decide))

theorem rosterWrite_keep (w : Nat) (s : State) : Keep 1049309182 s (rosterWrite w s) := by
  unfold rosterWrite
  iterate 30 (all_goals try first
    | with_reducible exact Keep.refl _ _
    | with_reducible assumption
    | (extract_lets +onlyGivenNames zz; refine Keep.cut zz ?_ (fun _ => ?_); (rotate_left; (try clear_value zz); rotate_right; subst zz))
    | (extract_lets +onlyGivenNames zz; subst zz)
    | with_reducible refine (writeRoster_keep ..).after ?_ (by decide)
    | with_reducible refine (joinChains_keep ..).after ?_ (by decide)
    | with_reducible refine (joinTurns_keep ..).after ?_ (by decide)
    | with_reducible refine (closeStep_keep ..).after ?_ (by decide)
    | with_reducible refine (weirEvaluate_keep ..).after ?_ (by decide)
    | with_reducible refine Keep.ite (fun _ => ?_) (fun _ => ?_)
    | split)

theorem reviveLayer_keep (i : Nat) (s : State) : Keep 1049309182 s (reviveLayer i s) := by
  unfold reviveLayer
  iterate 30 (all_goals try first
    | with_reducible exact Keep.refl _ _
    | with_reducible assumption
    | (extract_lets +onlyGivenNames zz; refine Keep.cut zz ?_ (fun _ => ?_); (rotate_left; (try clear_value zz); rotate_right; subst zz))
    | (extract_lets +onlyGivenNames zz; subst zz)
    | with_reducible refine (rosterWrite_keep ..).after ?_ (by decide)
    | with_reducible refine (reviveStart_keep ..).after ?_ (by decide)
    | with_reducible refine (modTurn_keep ..).after ?_ (by decide)
    | with_reducible refine Keep.getD (fun _ _ => ?_) ?_
    | with_reducible refine Keep.ite (fun _ => ?_) (fun _ => ?_)
    | split)

end Sys2Proof.Machine
end

