-- ==== Sys2Proof/Laws/KeepTiers.lean ====
section
/-!
SUPPORT. Laws/KeepTiers.lean: what each operation of Machine/Tiers.lean can change (Laws/Keep.lean).
-/
set_option Elab.async false
set_option linter.all false
namespace Sys2Proof.Machine

open Sys2Proof

theorem dropMember_keep (drive : Nat) (s : State) : Keep 3598 s (dropMember drive s) := by
  unfold dropMember
  iterate 30 (all_goals try first
    | with_reducible exact Keep.refl _ _
    | with_reducible assumption
    | with_reducible refine (logEv_keep ..).after ?_ (by decide)
    | with_reducible refine (setF_keep ..).after ?_ (by decide)
    | with_reducible refine Keep.ite (fun _ => ?_) (fun _ => ?_)
    | split)

theorem driveOut_keep (drive : Nat) (s : State) : Keep 3598 s (driveOut drive s) := by
  unfold driveOut
  iterate 30 (all_goals try first
    | with_reducible exact Keep.refl _ _
    | with_reducible assumption
    | (extract_lets +onlyGivenNames zz; refine Keep.cut zz ?_ (fun _ => ?_); (rotate_left; (try clear_value zz); rotate_right; subst zz))
    | (extract_lets +onlyGivenNames zz; subst zz)
    | with_reducible refine (dropMember_keep ..).after ?_ (by decide)
    | with_reducible refine (logEv_keep ..).after ?_ (by decide)
    | with_reducible refine (setF_keep ..).after ?_ (by decide)
    | with_reducible refine Keep.ite (fun _ => ?_) (fun _ => ?_)
    | split)

theorem portOut_keep (port : Nat) (s : State) : Keep 3598 s (portOut port s) := by
  unfold portOut
  iterate 30 (all_goals try first
    | with_reducible exact Keep.refl _ _
    | with_reducible assumption
    | (extract_lets +onlyGivenNames zz; refine Keep.cut zz ?_ (fun _ => ?_); (rotate_left; (try clear_value zz); rotate_right; subst zz))
    | (extract_lets +onlyGivenNames zz; subst zz)
    | with_reducible refine (logEv_keep ..).after ?_ (by decide)
    | with_reducible refine (bump_keep ..).after ?_ (by decide)
    | with_reducible refine (setF_keep ..).after ?_ (by decide)
    | with_reducible refine Keep.ite (fun _ => ?_) (fun _ => ?_)
    | split)

theorem prsntChange_keep (drive : Nat) (present : Bool) (s : State) : Keep 3598 s (prsntChange drive present s) := by
  unfold prsntChange
  iterate 30 (all_goals try first
    | with_reducible exact Keep.refl _ _
    | with_reducible assumption
    | (extract_lets +onlyGivenNames zz; refine Keep.cut zz ?_ (fun _ => ?_); (rotate_left; (try clear_value zz); rotate_right; subst zz))
    | (extract_lets +onlyGivenNames zz; subst zz)
    | with_reducible refine (driveOut_keep ..).after ?_ (by decide)
    | with_reducible refine (setFlag_keep ..).after ?_ (by decide)
    | with_reducible refine Keep.ite (fun _ => ?_) (fun _ => ?_)
    | split)

theorem driveViolation_keep (drive : Nat) (header : List Byte) (s : State) : Keep 3598 s (driveViolation drive header s) := by
  unfold driveViolation
  iterate 30 (all_goals try first
    | with_reducible exact Keep.refl _ _
    | with_reducible assumption
    | (extract_lets +onlyGivenNames zz; refine Keep.cut zz ?_ (fun _ => ?_); (rotate_left; (try clear_value zz); rotate_right; subst zz))
    | (extract_lets +onlyGivenNames zz; subst zz)
    | with_reducible refine (driveOut_keep ..).after ?_ (by decide)
    | with_reducible refine (setFrc_keep ..).after ?_ (by decide)
    | with_reducible refine (logEv_keep ..).after ?_ (by decide)
    | with_reducible refine (bump_keep ..).after ?_ (by decide)
    | with_reducible refine Keep.ite (fun _ => ?_) (fun _ => ?_)
    | split)

theorem trayViolation_keep (port : Nat) (header : List Byte) (s : State) : Keep 3598 s (trayViolation port header s) := by
  unfold trayViolation
  iterate 30 (all_goals try first
    | with_reducible exact Keep.refl _ _
    | with_reducible assumption
    | (extract_lets +onlyGivenNames zz; refine Keep.cut zz ?_ (fun _ => ?_); (rotate_left; (try clear_value zz); rotate_right; subst zz))
    | (extract_lets +onlyGivenNames zz; subst zz)
    | with_reducible refine (portOut_keep ..).after ?_ (by decide)
    | with_reducible refine (setFrc_keep ..).after ?_ (by decide)
    | with_reducible refine (logEv_keep ..).after ?_ (by decide)
    | with_reducible refine (bump_keep ..).after ?_ (by decide)
    | with_reducible refine Keep.ite (fun _ => ?_) (fun _ => ?_)
    | split)

theorem countMove_keep (m : Move) (r : PageRec) (s : State) : Keep 67109892 s (countMove m r s) := by
  unfold countMove
  iterate 30 (all_goals try first
    | with_reducible exact Keep.refl _ _
    | with_reducible assumption
    | (extract_lets +onlyGivenNames zz; refine Keep.cut zz ?_ (fun _ => ?_); (rotate_left; (try clear_value zz); rotate_right; subst zz))
    | (extract_lets +onlyGivenNames zz; subst zz)
    | with_reducible refine (countUnits_keep ..).after ?_ (by decide)
    | with_reducible refine (tierAnswers_keep ..).after ?_ (by decide)
    | with_reducible refine (bump_keep ..).after ?_ (by decide)
    | with_reducible refine (bumpBy_keep ..).after ?_ (by decide)
    | with_reducible refine Keep.ite (fun _ => ?_) (fun _ => ?_)
    | split)

theorem afterMoves_keep (s : State) : Keep 67243500 s (afterMoves s) := by
  unfold afterMoves
  iterate 30 (all_goals try first
    | with_reducible exact Keep.refl _ _
    | with_reducible assumption
    | with_reducible refine (retryWaits_keep ..).after ?_ (by decide)
    | with_reducible refine (foldReady_keep ..).after ?_ (by decide)
    | with_reducible refine Keep.ite (fun _ => ?_) (fun _ => ?_)
    | split)

theorem runDeferred_keep (h : Nat) (s : State) : Keep 67112942 s (runDeferred h s) := by
  unfold runDeferred
  iterate 30 (all_goals try first
    | with_reducible exact Keep.refl _ _
    | with_reducible assumption
    | (extract_lets +onlyGivenNames zz; refine Keep.cut zz ?_ (fun _ => ?_); (rotate_left; (try clear_value zz); rotate_right; subst zz))
    | (extract_lets +onlyGivenNames zz; subst zz)
    | with_reducible refine (readToT0_keep ..).after ?_ (by decide)
    | with_reducible refine (spillMove_keep ..).after ?_ (by decide)
    | with_reducible refine (setTmg_keep ..).after ?_ (by decide)
    | with_reducible refine Keep.foldl (fun _ _ => ?_) ?_ _
    | with_reducible refine Keep.foldlFst (fun _ _ => ?_) ?_ _
    | with_reducible refine Keep.foldlSnd (fun _ _ => ?_) ?_ _
    | with_reducible refine Keep.ite (fun _ => ?_) (fun _ => ?_)
    | split)

theorem arrivesBad_keep (m : Move) (r : PageRec) (bad : List Nat) (s : State) : Keep 1049309182 s (arrivesBad m r bad s) := by
  unfold arrivesBad
  iterate 30 (all_goals try first
    | with_reducible exact Keep.refl _ _
    | with_reducible assumption
    | (extract_lets +onlyGivenNames zz; refine Keep.cut zz ?_ (fun _ => ?_); (rotate_left; (try clear_value zz); rotate_right; subst zz))
    | (extract_lets +onlyGivenNames zz; subst zz)
    | with_reducible refine (endTurns_keep ..).after ?_ (by decide)
    | with_reducible refine (startRecovery_keep ..).after ?_ (by decide)
    | with_reducible refine (tagErrors_keep ..).after ?_ (by decide)
    | with_reducible refine Keep.ite (fun _ => ?_) (fun _ => ?_)
    | split)

theorem pageMoved_keep (h : Nat) (s : State) : Keep 1049309182 s (pageMoved h s) := by
  unfold pageMoved
  iterate 30 (all_goals try first
    | with_reducible exact Keep.refl _ _
    | with_reducible assumption
    | (extract_lets +onlyGivenNames zz; refine Keep.cut zz ?_ (fun _ => ?_); (rotate_left; (try clear_value zz); rotate_right; subst zz))
    | (extract_lets +onlyGivenNames zz; subst zz)
    | with_reducible refine (arrivesBad_keep ..).after ?_ (by decide)
    | with_reducible refine (runDeferred_keep ..).after ?_ (by decide)
    | with_reducible refine (afterMoves_keep ..).after ?_ (by decide)
    | with_reducible refine (countMove_keep ..).after ?_ (by decide)
    | with_reducible refine (moveDone_keep ..).after ?_ (by decide)
    | with_reducible refine Keep.ite (fun _ => ?_) (fun _ => ?_)
    | split)

theorem dropFetch_keep (f : Fetch) (s : State) : Keep 134217728 s (dropFetch f s) := by
  unfold dropFetch
  iterate 30 (all_goals try first
    | with_reducible exact Keep.refl _ _
    | with_reducible assumption
    | (extract_lets +onlyGivenNames zz; refine Keep.cut zz ?_ (fun _ => ?_); (rotate_left; (try clear_value zz); rotate_right; subst zz))
    | (extract_lets +onlyGivenNames zz; subst zz)
    | with_reducible refine (setHrc_keep ..).after ?_ (by decide)
    | with_reducible refine Keep.ite (fun _ => ?_) (fun _ => ?_)
    | split)

theorem fetchDone_keep (f : Fetch) (s : State) : Keep 201326596 s (fetchDone f s) := by
  unfold fetchDone
  iterate 30 (all_goals try first
    | with_reducible exact Keep.refl _ _
    | with_reducible assumption
    | (extract_lets +onlyGivenNames zz; refine Keep.cut zz ?_ (fun _ => ?_); (rotate_left; (try clear_value zz); rotate_right; subst zz))
    | (extract_lets +onlyGivenNames zz; subst zz)
    | with_reducible refine (dropFetch_keep ..).after ?_ (by decide)
    | with_reducible refine (placeExcess_keep ..).after ?_ (by decide)
    | with_reducible refine (setHrc_keep ..).after ?_ (by decide)
    | with_reducible refine (bumpBy_keep ..).after ?_ (by decide)
    | with_reducible refine Keep.foldl (fun _ _ => ?_) ?_ _
    | with_reducible refine Keep.foldlFst (fun _ _ => ?_) ?_ _
    | with_reducible refine Keep.foldlSnd (fun _ _ => ?_) ?_ _
    | with_reducible refine Keep.ite (fun _ => ?_) (fun _ => ?_)
    | split)

theorem countFail_keep (how : ReadFail) (tier base : Nat) (s : State) : Keep 67112462 s (countFail how tier base s) := by
  unfold countFail
  iterate 30 (all_goals try first
    | with_reducible exact Keep.refl _ _
    | with_reducible assumption
    | (extract_lets +onlyGivenNames zz; refine Keep.cut zz ?_ (fun _ => ?_); (rotate_left; (try clear_value zz); rotate_right; subst zz))
    | (extract_lets +onlyGivenNames zz; subst zz)
    | with_reducible refine (trayViolation_keep ..).after ?_ (by decide)
    | with_reducible refine (setTmg_keep ..).after ?_ (by decide)
    | with_reducible refine (bump_keep ..).after ?_ (by decide)
    | with_reducible refine Keep.ite (fun _ => ?_) (fun _ => ?_)
    | split)

theorem moveAgain_keep (m : Move) (s : State) : Keep 67112942 s (moveAgain m s) := by
  unfold moveAgain
  iterate 30 (all_goals try first
    | with_reducible exact Keep.refl _ _
    | with_reducible assumption
    | (extract_lets +onlyGivenNames zz; refine Keep.cut zz ?_ (fun _ => ?_); (rotate_left; (try clear_value zz); rotate_right; subst zz))
    | (extract_lets +onlyGivenNames zz; subst zz)
    | with_reducible refine (readToT0_keep ..).after ?_ (by decide)
    | with_reducible refine (spillMove_keep ..).after ?_ (by decide)
    | with_reducible refine (startMove_keep (by assumption)).after ?_ (by decide)
    | with_reducible refine (setFrc_keep ..).after ?_ (by decide)
    | with_reducible refine Keep.getD (fun _ _ => ?_) ?_
    | with_reducible refine Keep.ite (fun _ => ?_) (fun _ => ?_)
    | split)

theorem pageFailed_keep (h : Nat) (how : ReadFail) (s : State) : Keep 1049309182 s (pageFailed h how s) := by
  unfold pageFailed
  iterate 30 (all_goals try first
    | with_reducible exact Keep.refl _ _
    | with_reducible assumption
    | (extract_lets +onlyGivenNames zz; refine Keep.cut zz ?_ (fun _ => ?_); (rotate_left; (try clear_value zz); rotate_right; subst zz))
    | (extract_lets +onlyGivenNames zz; subst zz)
    | with_reducible refine (moveAgain_keep ..).after ?_ (by decide)
    | with_reducible refine (countFail_keep ..).after ?_ (by decide)
    | with_reducible refine (endTurns_keep ..).after ?_ (by decide)
    | with_reducible refine (tierError_keep ..).after ?_ (by decide)
    | with_reducible refine (startRecovery_keep ..).after ?_ (by decide)
    | with_reducible refine (abandonMove_keep ..).after ?_ (by decide)
    | with_reducible refine (handToTest_keep ..).after ?_ (by decide)
    | with_reducible refine (bump_keep ..).after ?_ (by decide)
    | with_reducible refine Keep.getD (fun _ _ => ?_) ?_
    | with_reducible refine Keep.ite (fun _ => ?_) (fun _ => ?_)
    | split)

theorem fetchEnds_keep (f : Fetch) (late : Bool) (s : State) : Keep 1049309182 s (fetchEnds f late s) := by
  unfold fetchEnds
  iterate 30 (all_goals try first
    | with_reducible exact Keep.refl _ _
    | with_reducible assumption
    | (extract_lets +onlyGivenNames zz; refine Keep.cut zz ?_ (fun _ => ?_); (rotate_left; (try clear_value zz); rotate_right; subst zz))
    | (extract_lets +onlyGivenNames zz; subst zz)
    | with_reducible refine (dropFetch_keep ..).after ?_ (by decide)
    | with_reducible refine (endTurns_keep ..).after ?_ (by decide)
    | with_reducible refine (tierError_keep ..).after ?_ (by decide)
    | with_reducible refine (modSession_keep ..).after ?_ (by decide)
    | with_reducible refine (bump_keep ..).after ?_ (by decide)
    | with_reducible refine Keep.ite (fun _ => ?_) (fun _ => ?_)
    | split)

theorem countFetchFail_keep (how : ReadFail) (f : Fetch) (s : State) : Keep 67112462 s (countFetchFail how f s) := by
  unfold countFetchFail
  iterate 30 (all_goals try first
    | with_reducible exact Keep.refl _ _
    | with_reducible assumption
    | with_reducible refine (countFail_keep ..).after ?_ (by decide)
    | with_reducible refine Keep.ite (fun _ => ?_) (fun _ => ?_)
    | split)

theorem directFailed_keep (k u : Nat) (how : ReadFail) (s : State) : Keep 67112462 s (directFailed k u how s) := by
  unfold directFailed
  iterate 30 (all_goals try first
    | with_reducible exact Keep.refl _ _
    | with_reducible assumption
    | (extract_lets +onlyGivenNames zz; refine Keep.cut zz ?_ (fun _ => ?_); (rotate_left; (try clear_value zz); rotate_right; subst zz))
    | (extract_lets +onlyGivenNames zz; subst zz)
    | with_reducible refine (countFail_keep ..).after ?_ (by decide)
    | with_reducible refine (setTmg_keep ..).after ?_ (by decide)
    | with_reducible refine Keep.ite (fun _ => ?_) (fun _ => ?_)
    | split)

theorem fetchFailed_keep (f : Fetch) (s : State) : Keep 1049309182 s (fetchFailed f s) := by
  unfold fetchFailed
  iterate 30 (all_goals try first
    | with_reducible exact Keep.refl _ _
    | with_reducible assumption
    | with_reducible refine (fetchEnds_keep ..).after ?_ (by decide)
    | with_reducible refine Keep.foldl (fun _ _ => ?_) ?_ _
    | with_reducible refine Keep.foldlFst (fun _ _ => ?_) ?_ _
    | with_reducible refine Keep.foldlSnd (fun _ _ => ?_) ?_ _
    | with_reducible refine Keep.ite (fun _ => ?_) (fun _ => ?_)
    | split)

theorem fetchArrived_keep (f : Fetch) (s : State) : Keep 1049309182 s (fetchArrived f s) := by
  unfold fetchArrived
  iterate 30 (all_goals try first
    | with_reducible exact Keep.refl _ _
    | with_reducible assumption
    | (extract_lets +onlyGivenNames zz; refine Keep.cut zz ?_ (fun _ => ?_); (rotate_left; (try clear_value zz); rotate_right; subst zz))
    | (extract_lets +onlyGivenNames zz; subst zz)
    | with_reducible refine (fetchFailed_keep ..).after ?_ (by decide)
    | with_reducible refine (fetchDone_keep ..).after ?_ (by decide)
    | with_reducible refine (dropFetch_keep ..).after ?_ (by decide)
    | with_reducible refine (objectCorrupt_keep ..).after ?_ (by decide)
    | with_reducible refine (tagErrors_keep ..).after ?_ (by decide)
    | with_reducible refine (poisonRead_keep ..).after ?_ (by decide)
    | with_reducible refine Keep.foldl (fun _ _ => ?_) ?_ _
    | with_reducible refine Keep.foldlFst (fun _ _ => ?_) ?_ _
    | with_reducible refine Keep.foldlSnd (fun _ _ => ?_) ?_ _
    | with_reducible refine Keep.ite (fun _ => ?_) (fun _ => ?_)
    | split)

theorem transferDone_keep (t : Transfer) (s : State) : Keep 1049309182 s (transferDone t s) := by
  unfold transferDone
  iterate 30 (all_goals try first
    | with_reducible exact Keep.refl _ _
    | with_reducible assumption
    | with_reducible refine (fetchArrived_keep ..).after ?_ (by decide)
    | with_reducible refine (pageMoved_keep ..).after ?_ (by decide)
    | with_reducible refine (beginAccess_keep (by assumption)).after ?_ (by decide)
    | with_reducible refine Keep.ite (fun _ => ?_) (fun _ => ?_)
    | split)

theorem fetchLate_keep (f : Fetch) (s : State) : Keep 1049309182 s (fetchLate f s) := by
  unfold fetchLate
  iterate 30 (all_goals try first
    | with_reducible exact Keep.refl _ _
    | with_reducible assumption
    | (extract_lets +onlyGivenNames zz; refine Keep.cut zz ?_ (fun _ => ?_); (rotate_left; (try clear_value zz); rotate_right; subst zz))
    | (extract_lets +onlyGivenNames zz; subst zz)
    | with_reducible refine (fetchEnds_keep ..).after ?_ (by decide)
    | with_reducible refine (shareAnew_keep ..).after ?_ (by decide)
    | with_reducible refine Keep.foldl (fun _ _ => ?_) ?_ _
    | with_reducible refine Keep.foldlFst (fun _ _ => ?_) ?_ _
    | with_reducible refine Keep.foldlSnd (fun _ _ => ?_) ?_ _
    | with_reducible refine Keep.ite (fun _ => ?_) (fun _ => ?_)
    | split)

theorem readFailed_keep (t : Transfer) (how : ReadFail) (s : State) : Keep 1049309182 s (readFailed t how s) := by
  unfold readFailed
  iterate 30 (all_goals try first
    | with_reducible exact Keep.refl _ _
    | with_reducible assumption
    | with_reducible refine (fetchFailed_keep ..).after ?_ (by decide)
    | with_reducible refine (directFailed_keep ..).after ?_ (by decide)
    | with_reducible refine (countFetchFail_keep ..).after ?_ (by decide)
    | with_reducible refine (pageFailed_keep ..).after ?_ (by decide)
    | with_reducible refine Keep.ite (fun _ => ?_) (fun _ => ?_)
    | split)

theorem appendsLate_keep (w layer : Nat) (s : State) : Keep 1049309182 s (appendsLate w layer s) := by
  unfold appendsLate
  iterate 30 (all_goals try first
    | with_reducible exact Keep.refl _ _
    | with_reducible assumption
    | (extract_lets +onlyGivenNames zz; refine Keep.cut zz ?_ (fun _ => ?_); (rotate_left; (try clear_value zz); rotate_right; subst zz))
    | (extract_lets +onlyGivenNames zz; subst zz)
    | with_reducible refine (endTurns_keep ..).after ?_ (by decide)
    | with_reducible refine (tierError_keep ..).after ?_ (by decide)
    | with_reducible refine (bump_keep ..).after ?_ (by decide)
    | with_reducible refine Keep.ite (fun _ => ?_) (fun _ => ?_)
    | split)

theorem pageLate_keep (w layer h : Nat) (s : State) : Keep 1049309182 s (pageLate w layer h s) := by
  unfold pageLate
  iterate 30 (all_goals try first
    | with_reducible exact Keep.refl _ _
    | with_reducible assumption
    | (extract_lets +onlyGivenNames zz; refine Keep.cut zz ?_ (fun _ => ?_); (rotate_left; (try clear_value zz); rotate_right; subst zz))
    | (extract_lets +onlyGivenNames zz; subst zz)
    | with_reducible refine (endTurns_keep ..).after ?_ (by decide)
    | with_reducible refine (tierError_keep ..).after ?_ (by decide)
    | with_reducible refine (startRecovery_keep ..).after ?_ (by decide)
    | with_reducible refine (setTmg_keep ..).after ?_ (by decide)
    | with_reducible refine (bump_keep ..).after ?_ (by decide)
    | with_reducible refine Keep.ite (fun _ => ?_) (fun _ => ?_)
    | split)

theorem nvcTimeout_keep (drive : Nat) (retried : Bool) (what : Option Transfer) (s : State) : Keep 1049309182 s (nvcTimeout drive retried what s) := by
  unfold nvcTimeout
  iterate 30 (all_goals try first
    | with_reducible exact Keep.refl _ _
    | with_reducible assumption
    | (extract_lets +onlyGivenNames zz; refine Keep.cut zz ?_ (fun _ => ?_); (rotate_left; (try clear_value zz); rotate_right; subst zz))
    | (extract_lets +onlyGivenNames zz; subst zz)
    | with_reducible refine (readFailed_keep ..).after ?_ (by decide)
    | with_reducible refine (driveOut_keep ..).after ?_ (by decide)
    | with_reducible refine (setTmg_keep ..).after ?_ (by decide)
    | with_reducible refine (logEv_keep ..).after ?_ (by decide)
    | with_reducible refine (emit_keep ..).after ?_ (by decide)
    | with_reducible refine (bump_keep ..).after ?_ (by decide)
    | with_reducible refine Keep.ite (fun _ => ?_) (fun _ => ?_)
    | split)

theorem spillRelief_keep (n k : Nat) (columns : List Nat) (s : State) : Keep 369233902 s (spillRelief n k columns s) := by
  unfold spillRelief
  iterate 30 (all_goals try first
    | with_reducible exact Keep.refl _ _
    | with_reducible assumption
    | (extract_lets +onlyGivenNames zz; refine Keep.cut zz ?_ (fun _ => ?_); (rotate_left; (try clear_value zz); rotate_right; subst zz))
    | (extract_lets +onlyGivenNames zz; subst zz)
    | with_reducible refine (afterMoves_keep ..).after ?_ (by decide)
    | with_reducible refine (foldColumn_keep ..).after ?_ (by decide)
    | with_reducible refine (relieve_keep ..).after ?_ (by decide)
    | with_reducible refine Keep.foldl (fun _ _ => ?_) ?_ _
    | with_reducible refine Keep.foldlFst (fun _ _ => ?_) ?_ _
    | with_reducible refine Keep.foldlSnd (fun _ _ => ?_) ?_ _
    | with_reducible refine Keep.ite (fun _ => ?_) (fun _ => ?_)
    | split)

theorem cleanAhead_keep (n : Nat) (s : State) : Keep 67112428 s (cleanAhead n s) := by
  unfold cleanAhead
  iterate 30 (all_goals try first
    | with_reducible exact Keep.refl _ _
    | with_reducible assumption
    | with_reducible refine (startMove_keep (by assumption)).after ?_ (by decide)
    | with_reducible refine Keep.getD (fun _ _ => ?_) ?_
    | with_reducible refine Keep.ite (fun _ => ?_) (fun _ => ?_)
    | split)

theorem heatPromotion_keep (h : Nat) (s : State) : Keep 369233902 s (heatPromotion h s) := by
  unfold heatPromotion
  iterate 30 (all_goals try first
    | with_reducible exact Keep.refl _ _
    | with_reducible assumption
    | with_reducible refine columnFolded_keep _ _ _ _ (by decide) (fun _ _ => ?_)
    | with_reducible refine sessionFolded_keep _ _ _ _ (by decide) (fun _ _ => ?_)
    | (extract_lets +onlyGivenNames zz; refine Keep.cut zz ?_ (fun _ => ?_); (rotate_left; (try clear_value zz); rotate_right; subst zz))
    | (extract_lets +onlyGivenNames zz; subst zz)
    | with_reducible refine (foldedPromote_keep (by assumption)).after ?_ (by decide)
    | with_reducible refine (foldedPromote_keepP ..).after ?_ (by decide)
    | with_reducible refine (startMove_keep (by assumption)).after ?_ (by decide)
    | with_reducible refine Keep.getD (fun _ _ => ?_) ?_
    | with_reducible refine Keep.ite (fun _ => ?_) (fun _ => ?_)
    | split)

theorem everyRec_keep (f : PageRec → PageRec) (s : State) : Keep 335675392 s (everyRec f s) := by
  unfold everyRec
  iterate 30 (all_goals try first
    | with_reducible exact Keep.refl _ _
    | with_reducible assumption
    | (extract_lets +onlyGivenNames zz; refine Keep.cut zz ?_ (fun _ => ?_); (rotate_left; (try clear_value zz); rotate_right; subst zz))
    | (extract_lets +onlyGivenNames zz; subst zz)
    | with_reducible refine (setTmg_keep ..).after ?_ (by decide)
    | with_reducible refine Keep.ite (fun _ => ?_) (fun _ => ?_)
    | split
    | with_reducible refine (Keep.of_sessions _ _).after ?_ (by decide)
    | with_reducible refine (Keep.of_pme _ _).after ?_ (by decide))

theorem addHeat_keep (unit n : Nat) (s : State) : Keep 335675392 s (addHeat unit n s) := by
  unfold addHeat
  iterate 30 (all_goals try first
    | with_reducible exact Keep.refl _ _
    | with_reducible assumption
    | (extract_lets +onlyGivenNames zz; refine Keep.cut zz ?_ (fun _ => ?_); (rotate_left; (try clear_value zz); rotate_right; subst zz))
    | (extract_lets +onlyGivenNames zz; subst zz)
    | with_reducible refine (everyRec_keep ..).after ?_ (by decide)
    | with_reducible refine Keep.ite (fun _ => ?_) (fun _ => ?_)
    | split)

theorem trayHeat_keep (port : Nat) (e : Nat × Nat) (s : State) : Keep 335675396 s (trayHeat port e s) := by
  unfold trayHeat
  iterate 30 (all_goals try first
    | with_reducible exact Keep.refl _ _
    | with_reducible assumption
    | with_reducible refine (addHeat_keep ..).after ?_ (by decide)
    | with_reducible refine (bump_keep ..).after ?_ (by decide)
    | with_reducible refine Keep.ite (fun _ => ?_) (fun _ => ?_)
    | split)

theorem heatSweep_keep (hot : List (Nat × List (Nat × Nat))) (s : State) : Keep 335740932 s (heatSweep hot s) := by
  unfold heatSweep
  iterate 30 (all_goals try first
    | with_reducible exact Keep.refl _ _
    | with_reducible assumption
    | (extract_lets +onlyGivenNames zz; refine Keep.cut zz ?_ (fun _ => ?_); (rotate_left; (try clear_value zz); rotate_right; subst zz))
    | (extract_lets +onlyGivenNames zz; subst zz)
    | with_reducible refine (trayHeat_keep ..).after ?_ (by decide)
    | with_reducible refine (everyRec_keep ..).after ?_ (by decide)
    | with_reducible refine (setTmg_keep ..).after ?_ (by decide)
    | with_reducible refine (bump_keep ..).after ?_ (by decide)
    | with_reducible refine Keep.foldl (fun _ _ => ?_) ?_ _
    | with_reducible refine Keep.foldlFst (fun _ _ => ?_) ?_ _
    | with_reducible refine Keep.foldlSnd (fun _ _ => ?_) ?_ _
    | with_reducible refine Keep.ite (fun _ => ?_) (fun _ => ?_)
    | split
    | with_reducible refine (Keep.of_cwp _ _).after ?_ (by decide))

theorem endLost_keep (s : State) : Keep 1049309182 s (endLost s) := by
  unfold endLost
  iterate 30 (all_goals try first
    | with_reducible exact Keep.refl _ _
    | with_reducible assumption
    | with_reducible refine (endTurns_keep ..).after ?_ (by decide)
    | with_reducible refine Keep.getD (fun _ _ => ?_) ?_
    | with_reducible refine Keep.ite (fun _ => ?_) (fun _ => ?_)
    | split)

theorem reviveAll_keep (n : Nat) (s : State) : Keep 201330670 s (reviveAll n s) := by
  unfold reviveAll
  iterate 30 (all_goals try first
    | with_reducible exact Keep.refl _ _
    | with_reducible assumption
    | with_reducible refine (reviveStart_keep ..).after ?_ (by decide)
    | with_reducible refine Keep.foldl (fun _ _ => ?_) ?_ _
    | with_reducible refine Keep.foldlFst (fun _ _ => ?_) ?_ _
    | with_reducible refine Keep.foldlSnd (fun _ _ => ?_) ?_ _
    | with_reducible refine Keep.ite (fun _ => ?_) (fun _ => ?_)
    | split)

theorem recoveryDone_keep (h : Nat) (failed : Bool) (r : PageRec) (s : State) : Keep 1049309182 s (recoveryDone h failed r s) := by
  unfold recoveryDone
  iterate 30 (all_goals try first
    | with_reducible exact Keep.refl _ _
    | with_reducible assumption
    | with_reducible refine (reviveAll_keep ..).after ?_ (by decide)
    | with_reducible refine (endLost_keep ..).after ?_ (by decide)
    | with_reducible refine (afterMoves_keep ..).after ?_ (by decide)
    | with_reducible refine (recoveryRead_keep ..).after ?_ (by decide)
    | with_reducible refine Keep.ite (fun _ => ?_) (fun _ => ?_)
    | split)

theorem recovered_keep (h : Nat) (failed : Bool) (s : State) : Keep 2123051006 s (recovered h failed s) := by
  unfold recovered
  iterate 30 (all_goals try first
    | with_reducible exact Keep.refl _ _
    | with_reducible assumption
    | (extract_lets +onlyGivenNames zz; refine Keep.cut zz ?_ (fun _ => ?_); (rotate_left; (try clear_value zz); rotate_right; subst zz))
    | (extract_lets +onlyGivenNames zz; subst zz)
    | with_reducible refine (recoveryDone_keep ..).after ?_ (by decide)
    | with_reducible refine (takeExpander_keep (by assumption)).after ?_ (by decide)
    | with_reducible refine (takeExpander_keepP ..).after ?_ (by decide)
    | with_reducible refine Keep.ite (fun _ => ?_) (fun _ => ?_)
    | split)

theorem pageOp_keep {k : Nat} (op from_ h : Nat) (act : PageRec → State → State) (s : State) (hk : 2 ||| k = k)
    (ha : ∀ r s, Keep k s (act r s)) : Keep k s (pageOp op from_ h act s) := by
  unfold pageOp
  split
  · exact Keep.refl _ _
  · have h1 : Keep k s ((s.setF Reg.tmgPageOpHandle h).setF Reg.tmgPageOpOp op) := (setF_keep ..).after ((setF_keep ..).mono hk) hk
    dsimp only
    split
    · exact (setF_keep ..).after h1 hk
    · split
      · exact (setF_keep ..).after h1 hk
      · exact (ha _ _).after ((setF_keep ..).after h1 hk) (Nat.or_self k)

theorem readMap_keep (from_ session layer page : Nat) (s : State) : Keep 2 s (readMap from_ session layer page s) := by
  unfold readMap
  iterate 30 (all_goals try first
    | with_reducible exact Keep.refl _ _
    | with_reducible assumption
    | (extract_lets +onlyGivenNames zz; refine Keep.cut zz ?_ (fun _ => ?_); (rotate_left; (try clear_value zz); rotate_right; subst zz))
    | (extract_lets +onlyGivenNames zz; subst zz)
    | with_reducible refine (setF_keep ..).after ?_ (by decide)
    | with_reducible refine Keep.ite (fun _ => ?_) (fun _ => ?_)
    | split)

end Sys2Proof.Machine
end

