-- ==== Sys2Proof/Laws/KeepPrefixRows.lean ====
section
/-!
SUPPORT. Laws/KeepPrefixRows.lean: what each operation of Machine/PrefixRows.lean can change (Laws/Keep.lean).
-/
set_option Elab.async false
set_option linter.all false
namespace Sys2Proof.Machine

open Sys2Proof

theorem takeSlot_keep {q : Slot} {s : State} {x0 : Nat} {t0 : State} (h : (takeSlot q s) = some (x0, t0)) : Keep 268435456 s t0 := by
  unfold takeSlot at h
  split at h
  · exact absurd h (by simp only [reduceCtorEq, not_false_eq_true])
  · obtain ⟨n, -, h⟩ := Option.map_eq_some_iff.mp h
    obtain ⟨-, rfl⟩ := Prod.mk.inj h
    exact (modPme_keep ..).mono (by decide)

theorem putPending_keep (p : Pending) (s : State) : Keep 268435456 s (putPending p s) := by
  unfold putPending
  iterate 30 (all_goals try first
    | with_reducible exact Keep.refl _ _
    | with_reducible assumption
    | with_reducible refine (modPme_keep ..).after ?_ (by decide)
    | with_reducible refine Keep.ite (fun _ => ?_) (fun _ => ?_)
    | split)

theorem dropPending_keep (id : Nat) (s : State) : Keep 268435456 s (dropPending id s) := by
  unfold dropPending
  iterate 30 (all_goals try first
    | with_reducible exact Keep.refl _ _
    | with_reducible assumption
    | with_reducible refine (modPme_keep ..).after ?_ (by decide)
    | with_reducible refine Keep.ite (fun _ => ?_) (fun _ => ?_)
    | split)

theorem answerLookup_keep (p : Pending) (fwd : Nat) (s : State) : Keep 805380684 s (answerLookup p fwd s) := by
  unfold answerLookup
  iterate 30 (all_goals try first
    | with_reducible exact Keep.refl _ _
    | with_reducible assumption
    | (extract_lets +onlyGivenNames zz; refine Keep.cut zz ?_ (fun _ => ?_); (rotate_left; (try clear_value zz); rotate_right; subst zz))
    | (extract_lets +onlyGivenNames zz; subst zz)
    | with_reducible refine (dropPending_keep ..).after ?_ (by decide)
    | with_reducible refine (countHit_keep ..).after ?_ (by decide)
    | with_reducible refine (modPme_keep ..).after ?_ (by decide)
    | with_reducible refine (sendOwn_keep ..).after ?_ (by decide)
    | with_reducible refine (complete_keep ..).after ?_ (by decide)
    | with_reducible refine Keep.ite (fun _ => ?_) (fun _ => ?_)
    | split)

theorem settleLookup_keep (p : Pending) (s : State) : Keep 805380684 s (settleLookup p s) := by
  unfold settleLookup
  iterate 30 (all_goals try first
    | with_reducible exact Keep.refl _ _
    | with_reducible assumption
    | (extract_lets +onlyGivenNames zz; refine Keep.cut zz ?_ (fun _ => ?_); (rotate_left; (try clear_value zz); rotate_right; subst zz))
    | (extract_lets +onlyGivenNames zz; subst zz)
    | with_reducible refine (answerLookup_keep ..).after ?_ (by decide)
    | with_reducible refine (putPending_keep ..).after ?_ (by decide)
    | with_reducible refine (modPme_keep ..).after ?_ (by decide)
    | with_reducible refine (sendOwn_keep ..).after ?_ (by decide)
    | with_reducible refine (bump_keep ..).after ?_ (by decide)
    | with_reducible refine Keep.ite (fun _ => ?_) (fun _ => ?_)
    | split)

theorem localNext_keep {p : Pending} {s : State} {x0 : Pending} {t0 : State} (h : localNext p s = (x0, t0)) : Keep 369102846 s t0 := by
  unfold localNext at h
  try dsimp only at h
  repeat' (first | split at h)
  all_goals try (exact absurd h (by simp only [reduceCtorEq, not_false_eq_true]))
  all_goals try (with_reducible obtain ⟨rfl, rfl⟩ := Prod.mk.inj h)
  iterate 30 (all_goals try first
    | with_reducible exact Keep.refl _ _
    | with_reducible assumption
    | (extract_lets +onlyGivenNames zz; refine Keep.cut zz ?_ (fun _ => ?_); (rotate_left; (try clear_value zz); rotate_right; subst zz))
    | (extract_lets +onlyGivenNames zz; subst zz)
    | with_reducible refine (runCands_keep (by assumption)).after ?_ (by decide)
    | with_reducible refine (runCands_keepP ..).after ?_ (by decide)
    | with_reducible refine Keep.pairIte (by assumption) (fun _ => ?_)
    | with_reducible refine Keep.pairIteElse (by assumption) (fun _ => ?_)
    | with_reducible refine Keep.ite (fun _ => ?_) (fun _ => ?_)
    | split)
theorem localNext_keepP (p : Pending) (s : State) : Keep 369102846 s (localNext p s).2 := localNext_keep (p := p) (s := s) rfl

theorem localLookup_keep (p : Pending) (s : State) : Keep 906047486 s (localLookup p s) := by
  unfold localLookup
  iterate 30 (all_goals try first
    | with_reducible exact Keep.refl _ _
    | with_reducible assumption
    | (extract_lets +onlyGivenNames zz; refine Keep.cut zz ?_ (fun _ => ?_); (rotate_left; (try clear_value zz); rotate_right; subst zz))
    | (extract_lets +onlyGivenNames zz; subst zz)
    | with_reducible refine (localNext_keep (by assumption)).after ?_ (by decide)
    | with_reducible refine (localNext_keepP ..).after ?_ (by decide)
    | with_reducible refine (settleLookup_keep ..).after ?_ (by decide)
    | with_reducible refine (allCands_keep (by assumption)).after ?_ (by decide)
    | with_reducible refine (allCands_keepP ..).after ?_ (by decide)
    | with_reducible refine Keep.ite (fun _ => ?_) (fun _ => ?_)
    | split)

theorem memberCompare_keep (origin id seg : Nat) (q : Slot) (s : State) : Keep 369102830 s (memberCompare origin id seg q s) := by
  unfold memberCompare
  iterate 30 (all_goals try first
    | with_reducible exact Keep.refl _ _
    | with_reducible assumption
    | (extract_lets +onlyGivenNames zz; refine Keep.cut zz ?_ (fun _ => ?_); (rotate_left; (try clear_value zz); rotate_right; subst zz))
    | (extract_lets +onlyGivenNames zz; subst zz)
    | with_reducible refine (chipCands_keep (by assumption)).after ?_ (by decide)
    | with_reducible refine (chipCands_keepP ..).after ?_ (by decide)
    | with_reducible refine (dropOrphans_keep ..).after ?_ (by decide)
    | with_reducible refine (modPme_keep ..).after ?_ (by decide)
    | with_reducible refine (emit_keep ..).after ?_ (by decide)
    | with_reducible refine Keep.ite (fun _ => ?_) (fun _ => ?_)
    | split)

theorem sledLookup_keep (p : Pending) (s : State) : Keep 369102830 s (sledLookup p s) := by
  unfold sledLookup
  iterate 30 (all_goals try first
    | with_reducible exact Keep.refl _ _
    | with_reducible assumption
    | (extract_lets +onlyGivenNames zz; refine Keep.cut zz ?_ (fun _ => ?_); (rotate_left; (try clear_value zz); rotate_right; subst zz))
    | (extract_lets +onlyGivenNames zz; subst zz)
    | with_reducible refine (memberCompare_keep ..).after ?_ (by decide)
    | with_reducible refine (putPending_keep ..).after ?_ (by decide)
    | with_reducible refine (coldCands_keep (by assumption)).after ?_ (by decide)
    | with_reducible refine (coldCands_keepP ..).after ?_ (by decide)
    | with_reducible refine (emit_keep ..).after ?_ (by decide)
    | with_reducible refine Keep.foldl (fun _ _ => ?_) ?_ _
    | with_reducible refine Keep.foldlFst (fun _ _ => ?_) ?_ _
    | with_reducible refine Keep.foldlSnd (fun _ _ => ?_) ?_ _
    | with_reducible refine Keep.ite (fun _ => ?_) (fun _ => ?_)
    | split)

theorem sledResult_keep (id seg : Nat) (hit : Option PrefixHit) (multi : Bool) (s : State) : Keep 906047486 s (sledResult id seg hit multi s) := by
  unfold sledResult
  iterate 30 (all_goals try first
    | with_reducible exact Keep.refl _ _
    | with_reducible assumption
    | (extract_lets +onlyGivenNames zz; refine Keep.cut zz ?_ (fun _ => ?_); (rotate_left; (try clear_value zz); rotate_right; subst zz))
    | (extract_lets +onlyGivenNames zz; subst zz)
    | with_reducible refine (settleLookup_keep ..).after ?_ (by decide)
    | with_reducible refine (putPending_keep ..).after ?_ (by decide)
    | with_reducible refine (runCands_keep (by assumption)).after ?_ (by decide)
    | with_reducible refine (runCands_keepP ..).after ?_ (by decide)
    | with_reducible refine (emit_keep ..).after ?_ (by decide)
    | with_reducible refine Keep.ite (fun _ => ?_) (fun _ => ?_)
    | split)

theorem startLookup_keep (p : Pending) (s : State) : Keep 906047486 s (startLookup p s) := by
  unfold startLookup
  iterate 30 (all_goals try first
    | with_reducible exact Keep.refl _ _
    | with_reducible assumption
    | with_reducible refine (sledLookup_keep ..).after ?_ (by decide)
    | with_reducible refine (localLookup_keep ..).after ?_ (by decide)
    | with_reducible refine Keep.ite (fun _ => ?_) (fun _ => ?_)
    | split)

theorem runLookup_keepD {c : Cmd} {q : Slot} {s : State} {t0 : State} {r0 : Reply} (h : runLookup c q s = .done t0 r0) : Keep 906047486 s t0 := by
  unfold runLookup at h
  try dsimp only at h
  repeat' (first | split at h)
  all_goals try (exact absurd h (by simp only [Res.fail, reduceCtorEq, not_false_eq_true]))
  all_goals try (with_reducible obtain ⟨rfl, rfl⟩ := Res.done.inj h)
  iterate 30 (all_goals try first
    | with_reducible exact Keep.refl _ _
    | with_reducible assumption
    | with_reducible refine (startLookup_keep ..).after ?_ (by decide)
    | with_reducible refine (takeSlot_keep (by assumption)).after ?_ (by decide)
    | with_reducible refine (bump_keep ..).after ?_ (by decide)
    | with_reducible refine Keep.ite (fun _ => ?_) (fun _ => ?_)
    | split)
theorem runLookup_keepW {c : Cmd} {q : Slot} {s : State} {t0 : State} (h : runLookup c q s = .wait t0) : Keep 906047486 s t0 := by
  unfold runLookup at h
  try dsimp only at h
  repeat' (first | split at h)
  all_goals try (exact absurd h (by simp only [Res.fail, reduceCtorEq, not_false_eq_true]))
  all_goals try (with_reducible obtain rfl := Res.wait.inj h)
  iterate 30 (all_goals try first
    | with_reducible exact Keep.refl _ _
    | with_reducible assumption
    | with_reducible refine (startLookup_keep ..).after ?_ (by decide)
    | with_reducible refine (takeSlot_keep (by assumption)).after ?_ (by decide)
    | with_reducible refine (bump_keep ..).after ?_ (by decide)
    | with_reducible refine Keep.ite (fun _ => ?_) (fun _ => ?_)
    | split)

theorem prefixLookup_keepD {c : Cmd} {s : State} {t0 : State} {r0 : Reply} (h : prefixLookup c s = .done t0 r0) : Keep 1049309182 s t0 := by
  unfold prefixLookup at h
  try dsimp only at h
  repeat' (first | (with_reducible refine (runLookup_keepD h).after ?_ (by decide); clear h) | (with_reducible rw [need_done] at h; replace h := h.2) | (with_reducible rw [objectsRead_done] at h) | split at h)
  all_goals try (exact absurd h (by simp only [Res.fail, reduceCtorEq, not_false_eq_true]))
  all_goals try (with_reducible obtain ⟨rfl, rfl⟩ := Res.done.inj h)
  iterate 30 (all_goals try first
    | with_reducible exact Keep.refl _ _
    | with_reducible assumption
    | (extract_lets +onlyGivenNames zz; refine Keep.cut zz ?_ (fun _ => ?_); (rotate_left; (try clear_value zz); rotate_right; subst zz))
    | (extract_lets +onlyGivenNames zz; subst zz)
    | with_reducible refine (runLookup_keepD (by assumption)).after ?_ (by decide)
    | with_reducible refine (runLookup_keepW (by assumption)).after ?_ (by decide)
    | with_reducible refine (objectCorrupt_keep ..).after ?_ (by decide)
    | with_reducible refine (capCommand_keep ..).after ?_ (by decide)
    | with_reducible refine Keep.ite (fun _ => ?_) (fun _ => ?_)
    | split)
theorem prefixLookup_keepW {c : Cmd} {s : State} {t0 : State} (h : prefixLookup c s = .wait t0) : Keep 1049309182 s t0 := by
  unfold prefixLookup at h
  try dsimp only at h
  repeat' (first | (with_reducible refine (runLookup_keepW h).after ?_ (by decide); clear h) | (with_reducible rw [need_wait] at h; replace h := h.2) | (with_reducible rw [objectsRead_wait] at h) | split at h)
  all_goals try (exact absurd h (by simp only [Res.fail, reduceCtorEq, not_false_eq_true]))
  all_goals try (with_reducible obtain rfl := Res.wait.inj h)
  iterate 30 (all_goals try first
    | with_reducible exact Keep.refl _ _
    | with_reducible assumption
    | (extract_lets +onlyGivenNames zz; refine Keep.cut zz ?_ (fun _ => ?_); (rotate_left; (try clear_value zz); rotate_right; subst zz))
    | (extract_lets +onlyGivenNames zz; subst zz)
    | with_reducible refine (runLookup_keepD (by assumption)).after ?_ (by decide)
    | with_reducible refine (runLookup_keepW (by assumption)).after ?_ (by decide)
    | with_reducible refine (objectCorrupt_keep ..).after ?_ (by decide)
    | with_reducible refine (capCommand_keep ..).after ?_ (by decide)
    | with_reducible refine Keep.ite (fun _ => ?_) (fun _ => ?_)
    | split)

theorem nextMatch_keepD {c : Cmd} {s : State} {t0 : State} {r0 : Reply} (h : nextMatch c s = .done t0 r0) : Keep 906047486 s t0 := by
  unfold nextMatch at h
  try dsimp only at h
  repeat' (first | (with_reducible rw [need_done] at h; replace h := h.2) | split at h)
  all_goals try (exact absurd h (by simp only [Res.fail, reduceCtorEq, not_false_eq_true]))
  all_goals try (with_reducible obtain ⟨rfl, rfl⟩ := Res.done.inj h)
  iterate 30 (all_goals try first
    | with_reducible exact Keep.refl _ _
    | with_reducible assumption
    | (extract_lets +onlyGivenNames zz; refine Keep.cut zz ?_ (fun _ => ?_); (rotate_left; (try clear_value zz); rotate_right; subst zz))
    | (extract_lets +onlyGivenNames zz; subst zz)
    | with_reducible refine (sledResult_keep ..).after ?_ (by decide)
    | with_reducible refine (localNext_keep (by assumption)).after ?_ (by decide)
    | with_reducible refine (localNext_keepP ..).after ?_ (by decide)
    | with_reducible refine (settleLookup_keep ..).after ?_ (by decide)
    | with_reducible refine (putPending_keep ..).after ?_ (by decide)
    | with_reducible refine (emit_keep ..).after ?_ (by decide)
    | with_reducible refine Keep.ite (fun _ => ?_) (fun _ => ?_)
    | split)
theorem nextMatch_keepW {c : Cmd} {s : State} {t0 : State} (h : nextMatch c s = .wait t0) : Keep 906047486 s t0 := by
  unfold nextMatch at h
  try dsimp only at h
  repeat' (first | (with_reducible rw [need_wait] at h; replace h := h.2) | split at h)
  all_goals try (exact absurd h (by simp only [Res.fail, reduceCtorEq, not_false_eq_true]))
  all_goals try (with_reducible obtain rfl := Res.wait.inj h)
  iterate 30 (all_goals try first
    | with_reducible exact Keep.refl _ _
    | with_reducible assumption
    | (extract_lets +onlyGivenNames zz; refine Keep.cut zz ?_ (fun _ => ?_); (rotate_left; (try clear_value zz); rotate_right; subst zz))
    | (extract_lets +onlyGivenNames zz; subst zz)
    | with_reducible refine (sledResult_keep ..).after ?_ (by decide)
    | with_reducible refine (localNext_keep (by assumption)).after ?_ (by decide)
    | with_reducible refine (localNext_keepP ..).after ?_ (by decide)
    | with_reducible refine (settleLookup_keep ..).after ?_ (by decide)
    | with_reducible refine (putPending_keep ..).after ?_ (by decide)
    | with_reducible refine (emit_keep ..).after ?_ (by decide)
    | with_reducible refine Keep.ite (fun _ => ?_) (fun _ => ?_)
    | split)

theorem prefixRelease_keepD {c : Cmd} {s : State} {t0 : State} {r0 : Reply} (h : prefixRelease c s = .done t0 r0) : Keep 268435456 s t0 := by
  unfold prefixRelease at h
  try dsimp only at h
  repeat' (first | (with_reducible rw [need_done] at h; replace h := h.2) | split at h)
  all_goals try (exact absurd h (by simp only [Res.fail, reduceCtorEq, not_false_eq_true]))
  all_goals try (with_reducible obtain ⟨rfl, rfl⟩ := Res.done.inj h)
  iterate 30 (all_goals try first
    | with_reducible exact Keep.refl _ _
    | with_reducible assumption
    | with_reducible refine (modPme_keep ..).after ?_ (by decide)
    | with_reducible refine Keep.ite (fun _ => ?_) (fun _ => ?_)
    | split)
theorem prefixRelease_keepW {c : Cmd} {s : State} {t0 : State} (h : prefixRelease c s = .wait t0) : Keep 268435456 s t0 := by
  unfold prefixRelease at h
  try dsimp only at h
  repeat' (first | (with_reducible rw [need_wait] at h; replace h := h.2) | split at h)
  all_goals try (exact absurd h (by simp only [Res.fail, reduceCtorEq, not_false_eq_true]))
  all_goals try (with_reducible obtain rfl := Res.wait.inj h)
  iterate 30 (all_goals try first
    | with_reducible exact Keep.refl _ _
    | with_reducible assumption
    | with_reducible refine (modPme_keep ..).after ?_ (by decide)
    | with_reducible refine Keep.ite (fun _ => ?_) (fun _ => ?_)
    | split)

theorem publishedFinal_keep {c : Column} {s : State} {x0 : List Byte} {t0 : State} (h : publishedFinal c s = (x0, t0)) : Keep 16 s t0 := by
  unfold publishedFinal at h
  try dsimp only at h
  repeat' (first | split at h)
  all_goals try (exact absurd h (by simp only [reduceCtorEq, not_false_eq_true]))
  all_goals try (with_reducible obtain ⟨rfl, rfl⟩ := Prod.mk.inj h)
  iterate 30 (all_goals try first
    | with_reducible exact Keep.refl _ _
    | with_reducible assumption
    | with_reducible refine (freshBytes_keep (by assumption)).after ?_ (by decide)
    | with_reducible refine (freshBytes_keepP ..).after ?_ (by decide)
    | with_reducible refine Keep.pairIte (by assumption) (fun _ => ?_)
    | with_reducible refine Keep.pairIteElse (by assumption) (fun _ => ?_)
    | with_reducible refine Keep.ite (fun _ => ?_) (fun _ => ?_)
    | split)
theorem publishedFinal_keepP (c : Column) (s : State) : Keep 16 s (publishedFinal c s).2 := publishedFinal_keep (c := c) (s := s) rfl

theorem attachPages_keep (i op : Nat) (c : Cmd) (tokens : List Nat) (pages : List (Nat × Nat)) (publisher : Nat) (final : List Byte) (contents : List Nat) (s : State) : Keep 369233902 s (attachPages i op c tokens pages publisher final contents s) := by
  unfold attachPages
  iterate 30 (all_goals try first
    | with_reducible exact Keep.refl _ _
    | with_reducible assumption
    | (extract_lets +onlyGivenNames zz; refine Keep.cut zz ?_ (fun _ => ?_); (rotate_left; (try clear_value zz); rotate_right; subst zz))
    | (extract_lets +onlyGivenNames zz; subst zz)
    | with_reducible refine (commitEvent_keep ..).after ?_ (by decide)
    | with_reducible refine (placeMap_keep ..).after ?_ (by decide)
    | with_reducible refine (modSession_keep ..).after ?_ (by decide)
    | with_reducible refine (capCommand_keep ..).after ?_ (by decide)
    | with_reducible refine (capRecord_keep ..).after ?_ (by decide)
    | with_reducible refine (bump_keep ..).after ?_ (by decide)
    | with_reducible refine Keep.foldl (fun _ _ => ?_) ?_ _
    | with_reducible refine Keep.foldlFst (fun _ _ => ?_) ?_ _
    | with_reducible refine Keep.foldlSnd (fun _ _ => ?_) ?_ _
    | with_reducible refine Keep.ite (fun _ => ?_) (fun _ => ?_)
    | split)

theorem warmEntry_keep (q : Slot) (s : State) : Keep 369102846 s (warmEntry q s) := by
  unfold warmEntry
  iterate 30 (all_goals try first
    | with_reducible exact Keep.refl _ _
    | with_reducible assumption
    | (extract_lets +onlyGivenNames zz; refine Keep.cut zz ?_ (fun _ => ?_); (rotate_left; (try clear_value zz); rotate_right; subst zz))
    | (extract_lets +onlyGivenNames zz; subst zz)
    | with_reducible refine (insertEntry_keep (by assumption)).after ?_ (by decide)
    | with_reducible refine (insertEntry_keepP ..).after ?_ (by decide)
    | with_reducible refine (removeAt_keep ..).after ?_ (by decide)
    | with_reducible refine Keep.ite (fun _ => ?_) (fun _ => ?_)
    | split)

theorem attachLocal_keepD {c : Cmd} {n : Nat} {q : Slot} {h : PrefixHit} {i : Nat} {s : State} {t0 : State} {r0 : Reply} (h0 : (attachLocal c n q h i s) = .done t0 r0) : Keep 369233918 s t0 := by
  unfold attachLocal at h0
  dsimp only at h0
  split at h0
  · exact absurd h0 (by simp only [Res.fail, reduceCtorEq, not_false_eq_true])
  · split at h0
    · exact absurd h0 (by simp only [Res.fail, reduceCtorEq, not_false_eq_true])
    · split at h0
      · have e := (Res.done.inj h0).1
        subst e
        exact (dropColumnsEntries_keep ..).mono (by decide)
      · split at h0
        · exact absurd h0 (by simp only [Res.fail, reduceCtorEq, not_false_eq_true])
        · split at h0
          · exact absurd h0 (by simp only [Res.fail, reduceCtorEq, not_false_eq_true])
          · rename_i u ids hr
            have h1 : Keep 369233918 s u := by
              refine Keep.foldlBind (fun (y : State × List Nat) (k : Nat × Column) => (unfoldColumn k.1 y.1).map fun z => (z.2, y.2 ++ [z.1])) ?_ _ (s, []) (u, ids) hr
              intro a x b hb
              obtain ⟨⟨n, u⟩, hu, rfl⟩ := Option.map_eq_some_iff.mp hb
              exact (unfoldColumn_keep hu).mono (by decide)
            split at h0
            · exact absurd h0 (by simp only [Res.fail, reduceCtorEq, not_false_eq_true])
            · rename_i v ha
              have h2 := fun q => (warmEntry_keep q _).after ((addRefs_keep ha).after h1 (by decide)) (by decide)
              have h3 := fun q c => (publishedFinal_keepP c _).after (h2 q) (by decide)
              have h4 := fun q c f => (modPme_keep f _).after (h3 q c) (by decide)
              exact (doneAt_keepD h0).after ((attachPages_keep ..).after (h4 _ _ _) (by decide)) (by decide)

theorem attachLocal_keepW {c : Cmd} {n : Nat} {q : Slot} {h : PrefixHit} {i : Nat} {s : State} {t0 : State} (h0 : (attachLocal c n q h i s) = .wait t0) : Keep 369233918 s t0 := by
  unfold attachLocal at h0
  dsimp only at h0
  split at h0
  · exact absurd h0 (by simp only [Res.fail, reduceCtorEq, not_false_eq_true])
  · split at h0
    · exact absurd h0 (by simp only [Res.fail, reduceCtorEq, not_false_eq_true])
    · split at h0
      · exact absurd h0 (by simp only [reduceCtorEq, not_false_eq_true])
      · split at h0
        · exact absurd h0 (by simp only [Res.fail, reduceCtorEq, not_false_eq_true])
        · split at h0
          · exact absurd h0 (by simp only [Res.fail, reduceCtorEq, not_false_eq_true])
          · rename_i u ids hr
            have h1 : Keep 369233918 s u := by
              refine Keep.foldlBind (fun (y : State × List Nat) (k : Nat × Column) => (unfoldColumn k.1 y.1).map fun z => (z.2, y.2 ++ [z.1])) ?_ _ (s, []) (u, ids) hr
              intro a x b hb
              obtain ⟨⟨n, u⟩, hu, rfl⟩ := Option.map_eq_some_iff.mp hb
              exact (unfoldColumn_keep hu).mono (by decide)
            split at h0
            · exact absurd h0 (by simp only [Res.fail, reduceCtorEq, not_false_eq_true])
            · rename_i v ha
              have h2 := fun q => (warmEntry_keep q _).after ((addRefs_keep ha).after h1 (by decide)) (by decide)
              have h3 := fun q c => (publishedFinal_keepP c _).after (h2 q) (by decide)
              have h4 := fun q c f => (modPme_keep f _).after (h3 q c) (by decide)
              exact (doneAt_keepW h0).after ((attachPages_keep ..).after (h4 _ _ _) (by decide)) (by decide)

theorem attachImport_keepD {c : Cmd} {n : Nat} {q : Slot} {h : PrefixHit} {x : Session} {s : State} {t0 : State} {r0 : Reply} (h0 : attachImport c n q h x s = .done t0 r0) : Keep 805306384 s t0 := by
  unfold attachImport at h0
  try dsimp only at h0
  repeat' (first | split at h0)
  all_goals try (exact absurd h0 (by simp only [Res.fail, reduceCtorEq, not_false_eq_true]))
  all_goals try (with_reducible obtain ⟨rfl, rfl⟩ := Res.done.inj h0)
  iterate 30 (all_goals try first
    | with_reducible exact Keep.refl _ _
    | with_reducible assumption
    | (extract_lets +onlyGivenNames zz; refine Keep.cut zz ?_ (fun _ => ?_); (rotate_left; (try clear_value zz); rotate_right; subst zz))
    | (extract_lets +onlyGivenNames zz; subst zz)
    | with_reducible refine (modPme_keep ..).after ?_ (by decide)
    | with_reducible refine (systemRegion_keep (by assumption)).after ?_ (by decide)
    | with_reducible refine (sendOwn_keep ..).after ?_ (by decide)
    | with_reducible refine Keep.ite (fun _ => ?_) (fun _ => ?_)
    | split)
theorem attachImport_keepW {c : Cmd} {n : Nat} {q : Slot} {h : PrefixHit} {x : Session} {s : State} {t0 : State} (h0 : attachImport c n q h x s = .wait t0) : Keep 805306384 s t0 := by
  unfold attachImport at h0
  try dsimp only at h0
  repeat' (first | split at h0)
  all_goals try (exact absurd h0 (by simp only [Res.fail, reduceCtorEq, not_false_eq_true]))
  all_goals try (with_reducible obtain rfl := Res.wait.inj h0)
  iterate 30 (all_goals try first
    | with_reducible exact Keep.refl _ _
    | with_reducible assumption
    | (extract_lets +onlyGivenNames zz; refine Keep.cut zz ?_ (fun _ => ?_); (rotate_left; (try clear_value zz); rotate_right; subst zz))
    | (extract_lets +onlyGivenNames zz; subst zz)
    | with_reducible refine (modPme_keep ..).after ?_ (by decide)
    | with_reducible refine (systemRegion_keep (by assumption)).after ?_ (by decide)
    | with_reducible refine (sendOwn_keep ..).after ?_ (by decide)
    | with_reducible refine Keep.ite (fun _ => ?_) (fun _ => ?_)
    | split)

theorem prefixAttach_keepD {c : Cmd} {s : State} {t0 : State} {r0 : Reply} (h : prefixAttach c s = .done t0 r0) : Keep 1049309182 s t0 := by
  unfold prefixAttach at h
  try dsimp only at h
  repeat' (first | (with_reducible refine (attachImport_keepD h).after ?_ (by decide); clear h) | (with_reducible refine (attachLocal_keepD h).after ?_ (by decide); clear h) | (with_reducible rw [need_done] at h; replace h := h.2) | (with_reducible rw [onSession_done] at h; obtain ⟨_, _, _, h⟩ := h) | (with_reducible rw [objectsRead_done] at h) | split at h)
  all_goals try (exact absurd h (by simp only [Res.fail, reduceCtorEq, not_false_eq_true]))
  all_goals try (with_reducible obtain ⟨rfl, rfl⟩ := Res.done.inj h)
  iterate 30 (all_goals try first
    | with_reducible exact Keep.refl _ _
    | with_reducible assumption
    | with_reducible refine (attachImport_keepD (by assumption)).after ?_ (by decide)
    | with_reducible refine (attachImport_keepW (by assumption)).after ?_ (by decide)
    | with_reducible refine (attachLocal_keepD (by assumption)).after ?_ (by decide)
    | with_reducible refine (attachLocal_keepW (by assumption)).after ?_ (by decide)
    | with_reducible refine (objectCorrupt_keep ..).after ?_ (by decide)
    | with_reducible refine Keep.ite (fun _ => ?_) (fun _ => ?_)
    | split)
theorem prefixAttach_keepW {c : Cmd} {s : State} {t0 : State} (h : prefixAttach c s = .wait t0) : Keep 1049309182 s t0 := by
  unfold prefixAttach at h
  try dsimp only at h
  repeat' (first | (with_reducible refine (attachImport_keepW h).after ?_ (by decide); clear h) | (with_reducible refine (attachLocal_keepW h).after ?_ (by decide); clear h) | (with_reducible rw [need_wait] at h; replace h := h.2) | (with_reducible rw [onSession_wait] at h; obtain ⟨_, _, _, h⟩ := h) | (with_reducible rw [objectsRead_wait] at h) | split at h)
  all_goals try (exact absurd h (by simp only [Res.fail, reduceCtorEq, not_false_eq_true]))
  all_goals try (with_reducible obtain rfl := Res.wait.inj h)
  iterate 30 (all_goals try first
    | with_reducible exact Keep.refl _ _
    | with_reducible assumption
    | with_reducible refine (attachImport_keepD (by assumption)).after ?_ (by decide)
    | with_reducible refine (attachImport_keepW (by assumption)).after ?_ (by decide)
    | with_reducible refine (attachLocal_keepD (by assumption)).after ?_ (by decide)
    | with_reducible refine (attachLocal_keepW (by assumption)).after ?_ (by decide)
    | with_reducible refine (objectCorrupt_keep ..).after ?_ (by decide)
    | with_reducible refine Keep.ite (fun _ => ?_) (fun _ => ?_)
    | split)

theorem importPage_keep {i layer page cls : Nat} {g : Geom} {part : Nat} {b : List Byte} {s : State} {x0 : Nat} {t0 : State} (h : (importPage i layer page cls g part b s) = some (x0, t0)) : Keep 67111394 s t0 := by
  unfold importPage at h
  split at h
  · exact absurd h (by simp only [reduceCtorEq, not_false_eq_true])
  · obtain ⟨⟨k, a⟩, -, h⟩ := Option.map_eq_some_iff.mp h
    obtain ⟨-, rfl⟩ := Prod.mk.inj h
    exact (writeSlot_keep ..).after ((addRec_keepP ..).after ((takeGen_keepP ..).mono (by decide)) (by decide)) (by decide)

theorem importPages_keep {i layers : Nat} {profile : List (Nat × Nat)} {g : Geom} {part : Nat} {l : List (List Byte)} {s : State} {t0 : State} {x1 : List (Nat × Nat)} (h : (importPages i layers profile g part l s) = some (t0, x1)) : Keep 67111394 s t0 := by
  unfold importPages at h
  refine Keep.foldlBind (fun (y : State × List (Nat × Nat)) (p : List Byte × Nat) => (importPage i (p.2 % layers) (p.2 / layers) (profileClass profile (p.2 / layers)) g part p.1 y.1).map fun z =>
      (z.2, y.2 ++ [(mapKey (p.2 % layers) (p.2 / layers), z.1)])) ?_ l.zipIdx (s, []) (t0, x1) h
  intro a x b hb
  obtain ⟨⟨n, u⟩, hu, rfl⟩ := Option.map_eq_some_iff.mp hb
  exact importPage_keep hu

theorem dropNamed_keep (n : Nat) (s : State) : Keep 369102830 s (dropNamed n s) := by
  unfold dropNamed
  iterate 30 (all_goals try first
    | with_reducible exact Keep.refl _ _
    | with_reducible assumption
    | (extract_lets +onlyGivenNames zz; refine Keep.cut zz ?_ (fun _ => ?_); (rotate_left; (try clear_value zz); rotate_right; subst zz))
    | (extract_lets +onlyGivenNames zz; subst zz)
    | with_reducible refine (dropWhere_keep ..).after ?_ (by decide)
    | with_reducible refine (emit_keep ..).after ?_ (by decide)
    | with_reducible refine Keep.ite (fun _ => ?_) (fun _ => ?_)
    | split)

theorem importDone_keep (id : Nat) (what : Option ImportData) (s : State) : Keep 906178542 s (importDone id what s) := by
  unfold importDone
  split
  · exact Keep.refl _ _
  · rename_i m _
    have g : Keep 906178542 s (endSystem m.region (modPme (fun p => { p with imports := tdel p.imports id }) s)) :=
      (endSystem_keep ..).after ((modPme_keep ..).mono (by decide)) (by decide)
    dsimp only
    repeat' split
    all_goals first
      | exact (complete_keep ..).after ((dropNamed_keep ..).after g (by decide)) (by decide)
      | exact (complete_keep ..).after g (by decide)
      | exact (complete_keep ..).after ((bump_keep ..).after ((attachPages_keep ..).after ((modPme_keep ..).after ((importPages_keep (by assumption)).after g (by decide))
          (by decide)) (by decide)) (by decide)) (by decide)
      | exact (complete_keep ..).after ((bump_keep ..).after ((attachPages_keep ..).after ((importPages_keep (by assumption)).after g (by decide))
          (by decide)) (by decide)) (by decide)

theorem prefixPublish_keepD {c : Cmd} {s : State} {t0 : State} {r0 : Reply} (h : prefixPublish c s = .done t0 r0) : Keep 1049309182 s t0 := by
  unfold prefixPublish at h
  try dsimp only at h
  repeat' (first | (with_reducible rw [need_done] at h; replace h := h.2) | (with_reducible rw [onSession_done] at h; obtain ⟨_, _, _, h⟩ := h) | (with_reducible rw [objectsRead_done] at h) | split at h)
  all_goals try (exact absurd h (by simp only [Res.fail, reduceCtorEq, not_false_eq_true]))
  all_goals try (with_reducible obtain ⟨rfl, rfl⟩ := Res.done.inj h)
  iterate 30 (all_goals try first
    | with_reducible exact Keep.refl _ _
    | with_reducible assumption
    | with_reducible refine (objectCorrupt_keep ..).after ?_ (by decide)
    | with_reducible refine (publishSession_keep (by assumption)).after ?_ (by decide)
    | with_reducible refine (publishSession_keepP ..).after ?_ (by decide)
    | with_reducible refine (capCommand_keep ..).after ?_ (by decide)
    | with_reducible refine Keep.ite (fun _ => ?_) (fun _ => ?_)
    | split)
theorem prefixPublish_keepW {c : Cmd} {s : State} {t0 : State} (h : prefixPublish c s = .wait t0) : Keep 1049309182 s t0 := by
  unfold prefixPublish at h
  try dsimp only at h
  repeat' (first | (with_reducible rw [need_wait] at h; replace h := h.2) | (with_reducible rw [onSession_wait] at h; obtain ⟨_, _, _, h⟩ := h) | (with_reducible rw [objectsRead_wait] at h) | split at h)
  all_goals try (exact absurd h (by simp only [Res.fail, reduceCtorEq, not_false_eq_true]))
  all_goals try (with_reducible obtain rfl := Res.wait.inj h)
  iterate 30 (all_goals try first
    | with_reducible exact Keep.refl _ _
    | with_reducible assumption
    | with_reducible refine (objectCorrupt_keep ..).after ?_ (by decide)
    | with_reducible refine (publishSession_keep (by assumption)).after ?_ (by decide)
    | with_reducible refine (publishSession_keepP ..).after ?_ (by decide)
    | with_reducible refine (capCommand_keep ..).after ?_ (by decide)
    | with_reducible refine Keep.ite (fun _ => ?_) (fun _ => ?_)
    | split)

theorem prefixRevoke_keepD {c : Cmd} {s : State} {t0 : State} {r0 : Reply} (h : prefixRevoke c s = .done t0 r0) : Keep 369102830 s t0 := by
  unfold prefixRevoke at h
  try dsimp only at h
  repeat' (first | (with_reducible rw [need_done] at h; replace h := h.2) | split at h)
  all_goals try (exact absurd h (by simp only [Res.fail, reduceCtorEq, not_false_eq_true]))
  all_goals try (with_reducible obtain ⟨rfl, rfl⟩ := Res.done.inj h)
  iterate 30 (all_goals try first
    | with_reducible exact Keep.refl _ _
    | with_reducible assumption
    | (extract_lets +onlyGivenNames zz; refine Keep.cut zz ?_ (fun _ => ?_); (rotate_left; (try clear_value zz); rotate_right; subst zz))
    | (extract_lets +onlyGivenNames zz; subst zz)
    | with_reducible refine (killColumns_keep ..).after ?_ (by decide)
    | with_reducible refine Keep.ite (fun _ => ?_) (fun _ => ?_)
    | split)
theorem prefixRevoke_keepW {c : Cmd} {s : State} {t0 : State} (h : prefixRevoke c s = .wait t0) : Keep 369102830 s t0 := by
  unfold prefixRevoke at h
  try dsimp only at h
  repeat' (first | (with_reducible rw [need_wait] at h; replace h := h.2) | split at h)
  all_goals try (exact absurd h (by simp only [Res.fail, reduceCtorEq, not_false_eq_true]))
  all_goals try (with_reducible obtain rfl := Res.wait.inj h)
  iterate 30 (all_goals try first
    | with_reducible exact Keep.refl _ _
    | with_reducible assumption
    | (extract_lets +onlyGivenNames zz; refine Keep.cut zz ?_ (fun _ => ?_); (rotate_left; (try clear_value zz); rotate_right; subst zz))
    | (extract_lets +onlyGivenNames zz; subst zz)
    | with_reducible refine (killColumns_keep ..).after ?_ (by decide)
    | with_reducible refine Keep.ite (fun _ => ?_) (fun _ => ?_)
    | split)

theorem prefixPublication_keep (session : Nat) (s : State) : Keep 369233918 s (prefixPublication session s) := by
  unfold prefixPublication
  iterate 30 (all_goals try first
    | with_reducible exact Keep.refl _ _
    | with_reducible assumption
    | with_reducible refine (publishSession_keep (by assumption)).after ?_ (by decide)
    | with_reducible refine (publishSession_keepP ..).after ?_ (by decide)
    | with_reducible refine (modPme_keep ..).after ?_ (by decide)
    | with_reducible refine Keep.ite (fun _ => ?_) (fun _ => ?_)
    | split)

theorem hitsAgeing_keep (bank : Nat) (s : State) : Keep 268435456 s (hitsAgeing bank s) := by
  unfold hitsAgeing
  iterate 30 (all_goals try first
    | with_reducible exact Keep.refl _ _
    | with_reducible assumption
    | (extract_lets +onlyGivenNames zz; refine Keep.cut zz ?_ (fun _ => ?_); (rotate_left; (try clear_value zz); rotate_right; subst zz))
    | (extract_lets +onlyGivenNames zz; subst zz)
    | with_reducible refine (modPme_keep ..).after ?_ (by decide)
    | with_reducible refine Keep.ite (fun _ => ?_) (fun _ => ?_)
    | split)

theorem sweepDue_keep (part : Nat) (s : State) : Keep 369102830 s (sweepDue part s) := by
  unfold sweepDue
  iterate 30 (all_goals try first
    | with_reducible exact Keep.refl _ _
    | with_reducible assumption
    | (extract_lets +onlyGivenNames zz; refine Keep.cut zz ?_ (fun _ => ?_); (rotate_left; (try clear_value zz); rotate_right; subst zz))
    | (extract_lets +onlyGivenNames zz; subst zz)
    | with_reducible refine (columnSweep_keep ..).after ?_ (by decide)
    | with_reducible refine (modPme_keep ..).after ?_ (by decide)
    | with_reducible refine (setF_keep ..).after ?_ (by decide)
    | with_reducible refine Keep.ite (fun _ => ?_) (fun _ => ?_)
    | split)

theorem isolate_keep (s : State) : Keep 906047486 s (isolate s) := by
  unfold isolate
  iterate 30 (all_goals try first
    | with_reducible exact Keep.refl _ _
    | with_reducible assumption
    | (extract_lets +onlyGivenNames zz; refine Keep.cut zz ?_ (fun _ => ?_); (rotate_left; (try clear_value zz); rotate_right; subst zz))
    | (extract_lets +onlyGivenNames zz; subst zz)
    | with_reducible refine (localLookup_keep ..).after ?_ (by decide)
    | with_reducible refine (dropPending_keep ..).after ?_ (by decide)
    | with_reducible refine (modPme_keep ..).after ?_ (by decide)
    | with_reducible refine (logEv_keep ..).after ?_ (by decide)
    | with_reducible refine (setF_keep ..).after ?_ (by decide)
    | with_reducible refine Keep.foldl (fun _ _ => ?_) ?_ _
    | with_reducible refine Keep.foldlFst (fun _ _ => ?_) ?_ _
    | with_reducible refine Keep.foldlSnd (fun _ _ => ?_) ?_ _
    | with_reducible refine Keep.ite (fun _ => ?_) (fun _ => ?_)
    | split)

theorem cascadeLookup_keep (origin id segment part session : Nat) (hashes wides tokens : List Nat) (s : State) : Keep 369102830 s (cascadeLookup origin id segment part session hashes wides tokens s) := by
  unfold cascadeLookup
  iterate 30 (all_goals try first
    | with_reducible exact Keep.refl _ _
    | with_reducible assumption
    | (extract_lets +onlyGivenNames zz; refine Keep.cut zz ?_ (fun _ => ?_); (rotate_left; (try clear_value zz); rotate_right; subst zz))
    | (extract_lets +onlyGivenNames zz; subst zz)
    | with_reducible refine (memberCompare_keep ..).after ?_ (by decide)
    | with_reducible refine (putPending_keep ..).after ?_ (by decide)
    | with_reducible refine (emit_keep ..).after ?_ (by decide)
    | with_reducible refine Keep.ite (fun _ => ?_) (fun _ => ?_)
    | split)

theorem resolveRow_keep (origin id segment : Nat) (s : State) : Keep 268435464 s (resolveRow origin id segment s) := by
  unfold resolveRow
  iterate 30 (all_goals try first
    | with_reducible exact Keep.refl _ _
    | with_reducible assumption
    | (extract_lets +onlyGivenNames zz; refine Keep.cut zz ?_ (fun _ => ?_); (rotate_left; (try clear_value zz); rotate_right; subst zz))
    | (extract_lets +onlyGivenNames zz; subst zz)
    | with_reducible refine (modPme_keep ..).after ?_ (by decide)
    | with_reducible refine (emit_keep ..).after ?_ (by decide)
    | with_reducible refine Keep.ite (fun _ => ?_) (fun _ => ?_)
    | split)

theorem verifySled_keep {q : Slot} {c : Cand} {column : Option RemoteColumn} {s : State} {t0 : State} {x1 : Option PrefixHit} (h : verifySled q c column s = (t0, x1)) : Keep 369102846 s t0 := by
  unfold verifySled at h
  try dsimp only at h
  repeat' (first | split at h)
  all_goals try (exact absurd h (by simp only [reduceCtorEq, not_false_eq_true]))
  all_goals try (with_reducible obtain ⟨rfl, rfl⟩ := Prod.mk.inj h)
  iterate 30 (all_goals try first
    | with_reducible exact Keep.refl _ _
    | with_reducible assumption
    | with_reducible refine (verifyCand_keep (by assumption)).after ?_ (by decide)
    | with_reducible refine (verifyCand_keepP ..).after ?_ (by decide)
    | with_reducible refine (verifyRemote_keep (by assumption)).after ?_ (by decide)
    | with_reducible refine (verifyRemote_keepP ..).after ?_ (by decide)
    | with_reducible refine Keep.pairIte (by assumption) (fun _ => ?_)
    | with_reducible refine Keep.pairIteElse (by assumption) (fun _ => ?_)
    | with_reducible refine Keep.ite (fun _ => ?_) (fun _ => ?_)
    | split)
theorem verifySled_keepP (q : Slot) (c : Cand) (column : Option RemoteColumn) (s : State) : Keep 369102846 s (verifySled q c column s).1 := verifySled_keep (q := q) (c := c) (column := column) (s := s) rfl

theorem sledAnswer_keep (origin id segment : Nat) (hit : Option PrefixHit) (multi : Bool) (s : State) : Keep 906047486 s (sledAnswer origin id segment hit multi s) := by
  unfold sledAnswer
  iterate 30 (all_goals try first
    | with_reducible exact Keep.refl _ _
    | with_reducible assumption
    | with_reducible refine (sledResult_keep ..).after ?_ (by decide)
    | with_reducible refine (emit_keep ..).after ?_ (by decide)
    | with_reducible refine Keep.ite (fun _ => ?_) (fun _ => ?_)
    | split)

theorem sledReject_keep (origin id segment : Nat) (s : State) : Keep 8 s (sledReject origin id segment s) := by
  unfold sledReject
  iterate 30 (all_goals try first
    | with_reducible exact Keep.refl _ _
    | with_reducible assumption
    | with_reducible refine (emit_keep ..).after ?_ (by decide)
    | with_reducible refine Keep.ite (fun _ => ?_) (fun _ => ?_)
    | split)

theorem matchFrame_keep (origin id segment : Nat) (hitIn : Bool) (column : Option RemoteColumn) (s : State) : Keep 906047486 s (matchFrame origin id segment hitIn column s) := by
  unfold matchFrame
  iterate 30 (all_goals try first
    | with_reducible exact Keep.refl _ _
    | with_reducible assumption
    | (extract_lets +onlyGivenNames zz; refine Keep.cut zz ?_ (fun _ => ?_); (rotate_left; (try clear_value zz); rotate_right; subst zz))
    | (extract_lets +onlyGivenNames zz; subst zz)
    | with_reducible refine (sledReject_keep ..).after ?_ (by decide)
    | with_reducible refine (sledAnswer_keep ..).after ?_ (by decide)
    | with_reducible refine (verifySled_keep (by assumption)).after ?_ (by decide)
    | with_reducible refine (verifySled_keepP ..).after ?_ (by decide)
    | with_reducible refine (countHit_keep ..).after ?_ (by decide)
    | with_reducible refine (modPme_keep ..).after ?_ (by decide)
    | with_reducible refine (emit_keep ..).after ?_ (by decide)
    | with_reducible refine (bump_keep ..).after ?_ (by decide)
    | with_reducible refine Keep.ite (fun _ => ?_) (fun _ => ?_)
    | split)

theorem cascadeReject_keep (id segment : Nat) (s : State) : Keep 8 s (cascadeReject id segment s) := by
  unfold cascadeReject
  iterate 30 (all_goals try first
    | with_reducible exact Keep.refl _ _
    | with_reducible assumption
    | with_reducible refine (emit_keep ..).after ?_ (by decide)
    | with_reducible refine Keep.ite (fun _ => ?_) (fun _ => ?_)
    | split)

theorem cascadeMove_keep (set : Nat) (what : EntryMove) (s : State) : Keep 369102846 s (cascadeMove set what s) := by
  unfold cascadeMove
  iterate 30 (all_goals try first
    | with_reducible exact Keep.refl _ _
    | with_reducible assumption
    | (extract_lets +onlyGivenNames zz; refine Keep.cut zz ?_ (fun _ => ?_); (rotate_left; (try clear_value zz); rotate_right; subst zz))
    | (extract_lets +onlyGivenNames zz; subst zz)
    | with_reducible refine (dropWhere_keep ..).after ?_ (by decide)
    | with_reducible refine (chipInsert_keep ..).after ?_ (by decide)
    | with_reducible refine (toCold_keep (by assumption)).after ?_ (by decide)
    | with_reducible refine (toCold_keepP ..).after ?_ (by decide)
    | with_reducible refine (markAway_keep ..).after ?_ (by decide)
    | with_reducible refine (unhold_keep ..).after ?_ (by decide)
    | with_reducible refine (modPme_keep ..).after ?_ (by decide)
    | with_reducible refine Keep.getD (fun _ _ => ?_) ?_
    | with_reducible refine Keep.ite (fun _ => ?_) (fun _ => ?_)
    | split)

theorem maskMatchIn_keep (s : State) : Keep 3598 s (maskMatchIn s) := by
  unfold maskMatchIn
  iterate 30 (all_goals try first
    | with_reducible exact Keep.refl _ _
    | with_reducible assumption
    | with_reducible refine (logEv_keep ..).after ?_ (by decide)
    | with_reducible refine (setF_keep ..).after ?_ (by decide)
    | with_reducible refine Keep.ite (fun _ => ?_) (fun _ => ?_)
    | split)

theorem matchInStuck_keep (s : State) : Keep 906047486 s (matchInStuck s) := by
  unfold matchInStuck
  iterate 30 (all_goals try first
    | with_reducible exact Keep.refl _ _
    | with_reducible assumption
    | with_reducible refine (maskMatchIn_keep ..).after ?_ (by decide)
    | with_reducible refine (isolate_keep ..).after ?_ (by decide)
    | with_reducible refine (satAdd_keep ..).after ?_ (by decide)
    | with_reducible refine Keep.ite (fun _ => ?_) (fun _ => ?_)
    | split)

theorem matchInViolation_keep (recent : Nat) (s : State) : Keep 906047486 s (matchInViolation recent s) := by
  unfold matchInViolation
  iterate 30 (all_goals try first
    | with_reducible exact Keep.refl _ _
    | with_reducible assumption
    | (extract_lets +onlyGivenNames zz; refine Keep.cut zz ?_ (fun _ => ?_); (rotate_left; (try clear_value zz); rotate_right; subst zz))
    | (extract_lets +onlyGivenNames zz; subst zz)
    | with_reducible refine (maskMatchIn_keep ..).after ?_ (by decide)
    | with_reducible refine (isolate_keep ..).after ?_ (by decide)
    | with_reducible refine (satAdd_keep ..).after ?_ (by decide)
    | with_reducible refine Keep.ite (fun _ => ?_) (fun _ => ?_)
    | split)

theorem assigned_keep {k : Nat} (f : State → State) (s : State) (hk : 4 ||| k = k) (h : ∀ s, Keep k s (f s)) : Keep k s (assigned f s) := by
  unfold assigned; split
  · exact h s
  · exact (bump_keep ..).mono hk

theorem fwdRefused_keep (node id part : Nat) (s : State) : Keep 536874510 s (fwdRefused node id part s) := by
  unfold fwdRefused
  iterate 30 (all_goals try first
    | with_reducible exact Keep.refl _ _
    | with_reducible assumption
    | (extract_lets +onlyGivenNames zz; refine Keep.cut zz ?_ (fun _ => ?_); (rotate_left; (try clear_value zz); rotate_right; subst zz))
    | (extract_lets +onlyGivenNames zz; subst zz)
    | with_reducible refine (sendCtlTo_keep ..).after ?_ (by decide)
    | with_reducible refine (logFull_keep ..).after ?_ (by decide)
    | with_reducible refine (bump_keep ..).after ?_ (by decide)
    | with_reducible refine Keep.ite (fun _ => ?_) (fun _ => ?_)
    | split)

theorem fwdLookup_keep (node id part hops : Nat) (hashes wides tokens : List Nat) (s : State) : Keep 906047486 s (fwdLookup node id part hops hashes wides tokens s) := by
  unfold fwdLookup
  iterate 30 (all_goals try first
    | with_reducible exact Keep.refl _ _
    | with_reducible assumption
    | (extract_lets +onlyGivenNames zz; refine Keep.cut zz ?_ (fun _ => ?_); (rotate_left; (try clear_value zz); rotate_right; subst zz))
    | (extract_lets +onlyGivenNames zz; subst zz)
    | with_reducible refine (fwdRefused_keep ..).after ?_ (by decide)
    | with_reducible refine (startLookup_keep ..).after ?_ (by decide)
    | with_reducible refine (modPme_keep ..).after ?_ (by decide)
    | with_reducible refine (bump_keep ..).after ?_ (by decide)
    | with_reducible refine Keep.ite (fun _ => ?_) (fun _ => ?_)
    | split)

theorem fwdAnswer_keep (id : Nat) (hit : Option PrefixHit) (s : State) : Keep 805380684 s (fwdAnswer id hit s) := by
  unfold fwdAnswer
  iterate 30 (all_goals try first
    | with_reducible exact Keep.refl _ _
    | with_reducible assumption
    | (extract_lets +onlyGivenNames zz; refine Keep.cut zz ?_ (fun _ => ?_); (rotate_left; (try clear_value zz); rotate_right; subst zz))
    | (extract_lets +onlyGivenNames zz; subst zz)
    | with_reducible refine (answerLookup_keep ..).after ?_ (by decide)
    | with_reducible refine Keep.ite (fun _ => ?_) (fun _ => ?_)
    | split)

theorem fwdTimeout_keep (id : Nat) (s : State) : Keep 805383758 s (fwdTimeout id s) := by
  unfold fwdTimeout
  iterate 30 (all_goals try first
    | with_reducible exact Keep.refl _ _
    | with_reducible assumption
    | with_reducible refine (answerLookup_keep ..).after ?_ (by decide)
    | with_reducible refine (logEv_keep ..).after ?_ (by decide)
    | with_reducible refine (bump_keep ..).after ?_ (by decide)
    | with_reducible refine Keep.ite (fun _ => ?_) (fun _ => ?_)
    | split)

theorem setOp_keep {k : Nat} (op set way part : Nat) (act : State → State) (s : State) (hk : 2 ||| k = k)
    (ha : ∀ s, Keep k s (act s)) : Keep k s (setOp op set way part act s) := by
  unfold setOp
  split
  · exact Keep.refl _ _
  · exact (ha _).after ((setF_keep ..).after ((setF_keep ..).after ((setF_keep ..).after ((setF_keep ..).mono hk) hk) hk) hk) (Nat.or_self k)

theorem wayOp_keep {k : Nat} (op from_ set way : Nat) (act : PmeEntry → State → State) (s : State) (hk : 2 ||| k = k)
    (ha : ∀ e s, Keep k s (act e s)) : Keep k s (wayOp op from_ set way act s) := by
  unfold wayOp
  split
  · exact Keep.refl _ _
  · refine setOp_keep _ _ _ _ _ _ hk fun s => ?_
    split
    · exact (setF_keep ..).mono hk
    · split
      · exact (setF_keep ..).mono hk
      · split
        · exact (setF_keep ..).mono hk
        · exact (ha _ _).after ((setF_keep ..).mono hk) (Nat.or_self k)

theorem mapOutBank_keep (bank : Nat) (s : State) : Keep 369102830 s (mapOutBank bank s) := by
  unfold mapOutBank
  iterate 30 (all_goals try first
    | with_reducible exact Keep.refl _ _
    | with_reducible assumption
    | (extract_lets +onlyGivenNames zz; refine Keep.cut zz ?_ (fun _ => ?_); (rotate_left; (try clear_value zz); rotate_right; subst zz))
    | (extract_lets +onlyGivenNames zz; subst zz)
    | with_reducible refine (mateDrop_keep ..).after ?_ (by decide)
    | with_reducible refine (entryGone_keep ..).after ?_ (by decide)
    | with_reducible refine (modPme_keep ..).after ?_ (by decide)
    | with_reducible refine (logEv_keep ..).after ?_ (by decide)
    | with_reducible refine (setF_keep ..).after ?_ (by decide)
    | with_reducible refine Keep.foldl (fun _ _ => ?_) ?_ _
    | with_reducible refine Keep.foldlFst (fun _ _ => ?_) ?_ _
    | with_reducible refine Keep.foldlSnd (fun _ _ => ?_) ?_ _
    | with_reducible refine Keep.ite (fun _ => ?_) (fun _ => ?_)
    | split)

theorem bankOp_keep {k : Nat} (op from_ set : Nat) (act : Nat → State → State) (s : State) (hk : 2 ||| k = k)
    (ha : ∀ e s, Keep k s (act e s)) : Keep k s (bankOp op from_ set act s) := by
  unfold bankOp
  split
  · exact Keep.refl _ _
  · refine setOp_keep _ _ _ _ _ _ hk fun s => ?_
    split
    · exact (setF_keep ..).mono hk
    · exact (ha _ _).after ((setF_keep ..).mono hk) (Nat.or_self k)

end Sys2Proof.Machine
end

