-- ==== Sys2Proof/Laws/KeepRegMap.lean ====
section
/-!
SUPPORT. Laws/KeepRegMap.lean: what each operation of Machine/RegMap.lean can change (Laws/Keep.lean).
-/
set_option Elab.async false
set_option linter.all false
namespace Sys2Proof.Machine

open Sys2Proof

theorem writeField_keep (from_ : Nat) (r : RegRow) (f : Fld) (v : Nat) (s : State) : Keep 2 s (writeField from_ r f v s) := by
  unfold writeField
  iterate 30 (all_goals try first
    | with_reducible exact Keep.refl _ _
    | with_reducible assumption
    | (extract_lets +onlyGivenNames zz; refine Keep.cut zz ?_ (fun _ => ?_); (rotate_left; (try clear_value zz); rotate_right; subst zz))
    | (extract_lets +onlyGivenNames zz; subst zz)
    | with_reducible refine (w1c_keep ..).after ?_ (by decide)
    | with_reducible refine (setF_keep ..).after ?_ (by decide)
    | with_reducible refine Keep.ite (fun _ => ?_) (fun _ => ?_)
    | split)

theorem writeWord_keep (from_ w lo size v : Nat) (take : Fld → Bool) (s : State) : Keep 2 s (writeWord from_ w lo size v take s) := by
  unfold writeWord
  iterate 30 (all_goals try first
    | with_reducible exact Keep.refl _ _
    | with_reducible assumption
    | with_reducible refine (writeField_keep ..).after ?_ (by decide)
    | with_reducible refine Keep.foldl (fun _ _ => ?_) ?_ _
    | with_reducible refine Keep.foldlFst (fun _ _ => ?_) ?_ _
    | with_reducible refine Keep.foldlSnd (fun _ _ => ?_) ?_ _
    | with_reducible refine Keep.ite (fun _ => ?_) (fun _ => ?_)
    | split)

theorem barWrite_keep (from_ o size v : Nat) (s : State) : Keep 2 s (barWrite from_ o size v s) := by
  unfold barWrite
  iterate 30 (all_goals try first
    | with_reducible exact Keep.refl _ _
    | with_reducible assumption
    | (extract_lets +onlyGivenNames zz; refine Keep.cut zz ?_ (fun _ => ?_); (rotate_left; (try clear_value zz); rotate_right; subst zz))
    | (extract_lets +onlyGivenNames zz; subst zz)
    | with_reducible refine (writeWord_keep ..).after ?_ (by decide)
    | with_reducible refine Keep.ite (fun _ => ?_) (fun _ => ?_)
    | split)

theorem regWrite_keep (from_ o size v : Nat) (s : State) : Keep 526 s (regWrite from_ o size v s) := by
  unfold regWrite
  iterate 30 (all_goals try first
    | with_reducible exact Keep.refl _ _
    | with_reducible assumption
    | (extract_lets +onlyGivenNames zz; refine Keep.cut zz ?_ (fun _ => ?_); (rotate_left; (try clear_value zz); rotate_right; subst zz))
    | (extract_lets +onlyGivenNames zz; subst zz)
    | with_reducible refine (barWrite_keep ..).after ?_ (by decide)
    | with_reducible refine (componentWrite_keep ..).after ?_ (by decide)
    | with_reducible refine (bar4Write_keep ..).after ?_ (by decide)
    | with_reducible refine Keep.ite (fun _ => ?_) (fun _ => ?_)
    | split)

theorem resetBanks_keep (n : Nat) (s : State) : Keep 2 s (resetBanks n s) := by
  unfold resetBanks
  iterate 30 (all_goals try first
    | with_reducible exact Keep.refl _ _
    | with_reducible assumption
    | with_reducible refine Keep.ite (fun _ => ?_) (fun _ => ?_)
    | split
    | with_reducible refine (Keep.of_regs _ _).after ?_ (by decide))

end Sys2Proof.Machine
end

