-- ==== Sys2Proof/Laws/KeepPartitions.lean ====
section
/-!
SUPPORT. Laws/KeepPartitions.lean: what each operation of Machine/Partitions.lean can change (Laws/Keep.lean).
-/
set_option Elab.async false
set_option linter.all false
namespace Sys2Proof.Machine

open Sys2Proof

theorem onPartition_done {c : Cmd} {l : List Nat} {k : Nat → State → Res} {s t : State} {r : Reply}
    (h : onPartition c l k s = .done t r) : k (c.arg 0 1) s = .done t r := by
  unfold onPartition at h
  dsimp only at h
  rw [need_done, need_done] at h
  exact h.2.2

theorem onPartition_wait {c : Cmd} {l : List Nat} {k : Nat → State → Res} {s t : State}
    (h : onPartition c l k s = .wait t) : k (c.arg 0 1) s = .wait t := by
  unfold onPartition at h
  dsimp only at h
  rw [need_wait, need_wait] at h
  exact h.2.2

theorem clearPartition_keep (n : Nat) (s : State) : Keep 3598 s (clearPartition n s) := by
  unfold clearPartition
  iterate 30 (all_goals try first
    | with_reducible exact Keep.refl _ _
    | with_reducible assumption
    | (extract_lets +onlyGivenNames zz; refine Keep.cut zz ?_ (fun _ => ?_); (rotate_left; (try clear_value zz); rotate_right; subst zz))
    | (extract_lets +onlyGivenNames zz; subst zz)
    | with_reducible refine (resetBanks_keep ..).after ?_ (by decide)
    | with_reducible refine (logEv_keep ..).after ?_ (by decide)
    | with_reducible refine (setF_keep ..).after ?_ (by decide)
    | with_reducible refine Keep.foldl (fun _ _ => ?_) ?_ _
    | with_reducible refine Keep.foldlFst (fun _ _ => ?_) ?_ _
    | with_reducible refine Keep.foldlSnd (fun _ _ => ?_) ?_ _
    | with_reducible refine Keep.ite (fun _ => ?_) (fun _ => ?_)
    | split)

theorem reportResources_keep (n : Nat) (s : State) : Keep 2 s (reportResources n s) := by
  unfold reportResources
  iterate 30 (all_goals try first
    | with_reducible exact Keep.refl _ _
    | with_reducible assumption
    | (extract_lets +onlyGivenNames zz; refine Keep.cut zz ?_ (fun _ => ?_); (rotate_left; (try clear_value zz); rotate_right; subst zz))
    | (extract_lets +onlyGivenNames zz; subst zz)
    | with_reducible refine (setF_keep ..).after ?_ (by decide)
    | with_reducible refine Keep.foldl (fun _ _ => ?_) ?_ _
    | with_reducible refine Keep.foldlFst (fun _ _ => ?_) ?_ _
    | with_reducible refine Keep.foldlSnd (fun _ _ => ?_) ?_ _
    | with_reducible refine Keep.ite (fun _ => ?_) (fun _ => ?_)
    | split)

theorem partitionLock_keepD {c : Cmd} {s : State} {t0 : State} {r0 : Reply} (h : partitionLock c s = .done t0 r0) : Keep 3614 s t0 := by
  unfold partitionLock at h
  try dsimp only at h
  repeat' (first | (with_reducible replace h := onPartition_done h) | split at h)
  all_goals try (exact absurd h (by simp only [Res.fail, reduceCtorEq, not_false_eq_true]))
  all_goals try (with_reducible obtain ⟨rfl, rfl⟩ := Res.done.inj h)
  iterate 30 (all_goals try first
    | with_reducible exact Keep.refl _ _
    | with_reducible assumption
    | (extract_lets +onlyGivenNames zz; refine Keep.cut zz ?_ (fun _ => ?_); (rotate_left; (try clear_value zz); rotate_right; subst zz))
    | (extract_lets +onlyGivenNames zz; subst zz)
    | with_reducible refine (reportResources_keep ..).after ?_ (by decide)
    | with_reducible refine (showBytes_keep ..).after ?_ (by decide)
    | with_reducible refine (setPstate_keep ..).after ?_ (by decide)
    | with_reducible refine (freshBytes_keep (by assumption)).after ?_ (by decide)
    | with_reducible refine (freshBytes_keepP ..).after ?_ (by decide)
    | with_reducible refine Keep.ite (fun _ => ?_) (fun _ => ?_)
    | split
    | with_reducible refine (Keep.of_sec _ _ (by rfl)).after ?_ (by decide))
theorem partitionLock_keepW {c : Cmd} {s : State} {t0 : State} (h : partitionLock c s = .wait t0) : Keep 3614 s t0 := by
  unfold partitionLock at h
  try dsimp only at h
  repeat' (first | (with_reducible replace h := onPartition_wait h) | split at h)
  all_goals try (exact absurd h (by simp only [Res.fail, reduceCtorEq, not_false_eq_true]))
  all_goals try (with_reducible obtain rfl := Res.wait.inj h)
  iterate 30 (all_goals try first
    | with_reducible exact Keep.refl _ _
    | with_reducible assumption
    | (extract_lets +onlyGivenNames zz; refine Keep.cut zz ?_ (fun _ => ?_); (rotate_left; (try clear_value zz); rotate_right; subst zz))
    | (extract_lets +onlyGivenNames zz; subst zz)
    | with_reducible refine (reportResources_keep ..).after ?_ (by decide)
    | with_reducible refine (showBytes_keep ..).after ?_ (by decide)
    | with_reducible refine (setPstate_keep ..).after ?_ (by decide)
    | with_reducible refine (freshBytes_keep (by assumption)).after ?_ (by decide)
    | with_reducible refine (freshBytes_keepP ..).after ?_ (by decide)
    | with_reducible refine Keep.ite (fun _ => ?_) (fun _ => ?_)
    | split
    | with_reducible refine (Keep.of_sec _ _ (by rfl)).after ?_ (by decide))

theorem partitionStart_keepD {c : Cmd} {s : State} {t0 : State} {r0 : Reply} (h : partitionStart c s = .done t0 r0) : Keep 3598 s t0 := by
  unfold partitionStart at h
  try dsimp only at h
  repeat' (first | (with_reducible rw [need_done] at h; replace h := h.2) | (with_reducible replace h := onPartition_done h) | split at h)
  all_goals try (exact absurd h (by simp only [Res.fail, reduceCtorEq, not_false_eq_true]))
  all_goals try (with_reducible obtain ⟨rfl, rfl⟩ := Res.done.inj h)
  iterate 30 (all_goals try first
    | with_reducible exact Keep.refl _ _
    | with_reducible assumption
    | with_reducible refine (setPstate_keep ..).after ?_ (by decide)
    | with_reducible refine Keep.ite (fun _ => ?_) (fun _ => ?_)
    | split)
theorem partitionStart_keepW {c : Cmd} {s : State} {t0 : State} (h : partitionStart c s = .wait t0) : Keep 3598 s t0 := by
  unfold partitionStart at h
  try dsimp only at h
  repeat' (first | (with_reducible rw [need_wait] at h; replace h := h.2) | (with_reducible replace h := onPartition_wait h) | split at h)
  all_goals try (exact absurd h (by simp only [Res.fail, reduceCtorEq, not_false_eq_true]))
  all_goals try (with_reducible obtain rfl := Res.wait.inj h)
  iterate 30 (all_goals try first
    | with_reducible exact Keep.refl _ _
    | with_reducible assumption
    | with_reducible refine (setPstate_keep ..).after ?_ (by decide)
    | with_reducible refine Keep.ite (fun _ => ?_) (fun _ => ?_)
    | split)

theorem replayBegin_keepD {c : Cmd} {s : State} {t0 : State} {r0 : Reply} (h : replayBegin c s = .done t0 r0) : Keep 3598 s t0 := by
  unfold replayBegin at h
  try dsimp only at h
  repeat' (first | (with_reducible rw [need_done] at h; replace h := h.2) | (with_reducible replace h := onPartition_done h) | split at h)
  all_goals try (exact absurd h (by simp only [Res.fail, reduceCtorEq, not_false_eq_true]))
  all_goals try (with_reducible obtain ⟨rfl, rfl⟩ := Res.done.inj h)
  iterate 30 (all_goals try first
    | with_reducible exact Keep.refl _ _
    | with_reducible assumption
    | with_reducible refine (setPstate_keep ..).after ?_ (by decide)
    | with_reducible refine Keep.ite (fun _ => ?_) (fun _ => ?_)
    | split)
theorem replayBegin_keepW {c : Cmd} {s : State} {t0 : State} (h : replayBegin c s = .wait t0) : Keep 3598 s t0 := by
  unfold replayBegin at h
  try dsimp only at h
  repeat' (first | (with_reducible rw [need_wait] at h; replace h := h.2) | (with_reducible replace h := onPartition_wait h) | split at h)
  all_goals try (exact absurd h (by simp only [Res.fail, reduceCtorEq, not_false_eq_true]))
  all_goals try (with_reducible obtain rfl := Res.wait.inj h)
  iterate 30 (all_goals try first
    | with_reducible exact Keep.refl _ _
    | with_reducible assumption
    | with_reducible refine (setPstate_keep ..).after ?_ (by decide)
    | with_reducible refine Keep.ite (fun _ => ?_) (fun _ => ?_)
    | split)

theorem drainTurns_keep (n : Nat) (s : State) : Keep 1049309182 s (drainTurns n s) := by
  unfold drainTurns
  iterate 30 (all_goals try first
    | with_reducible exact Keep.refl _ _
    | with_reducible assumption
    | (extract_lets +onlyGivenNames zz; refine Keep.cut zz ?_ (fun _ => ?_); (rotate_left; (try clear_value zz); rotate_right; subst zz))
    | (extract_lets +onlyGivenNames zz; subst zz)
    | with_reducible refine (endTurns_keep ..).after ?_ (by decide)
    | with_reducible refine (modTurn_keep ..).after ?_ (by decide)
    | with_reducible refine Keep.foldl (fun _ _ => ?_) ?_ _
    | with_reducible refine Keep.foldlFst (fun _ _ => ?_) ?_ _
    | with_reducible refine Keep.foldlSnd (fun _ _ => ?_) ?_ _
    | with_reducible refine Keep.ite (fun _ => ?_) (fun _ => ?_)
    | split)

theorem partitionDrain_keepD {c : Cmd} {s : State} {t0 : State} {r0 : Reply} (h : partitionDrain c s = .done t0 r0) : Keep 1049309182 s t0 := by
  unfold partitionDrain at h
  try dsimp only at h
  repeat' (first | (with_reducible replace h := onPartition_done h) | split at h)
  all_goals try (exact absurd h (by simp only [Res.fail, reduceCtorEq, not_false_eq_true]))
  all_goals try (with_reducible obtain ⟨rfl, rfl⟩ := Res.done.inj h)
  iterate 30 (all_goals try first
    | with_reducible exact Keep.refl _ _
    | with_reducible assumption
    | (extract_lets +onlyGivenNames zz; refine Keep.cut zz ?_ (fun _ => ?_); (rotate_left; (try clear_value zz); rotate_right; subst zz))
    | (extract_lets +onlyGivenNames zz; subst zz)
    | with_reducible refine (drainTurns_keep ..).after ?_ (by decide)
    | with_reducible refine (settleDrain_keep ..).after ?_ (by decide)
    | with_reducible refine (setPstate_keep ..).after ?_ (by decide)
    | with_reducible refine Keep.ite (fun _ => ?_) (fun _ => ?_)
    | split
    | with_reducible refine (Keep.of_mgc _ _ (by rfl) (by rfl)).after ?_ (by decide))
theorem partitionDrain_keepW {c : Cmd} {s : State} {t0 : State} (h : partitionDrain c s = .wait t0) : Keep 1049309182 s t0 := by
  unfold partitionDrain at h
  try dsimp only at h
  repeat' (first | (with_reducible replace h := onPartition_wait h) | split at h)
  all_goals try (exact absurd h (by simp only [Res.fail, reduceCtorEq, not_false_eq_true]))
  all_goals try (with_reducible obtain rfl := Res.wait.inj h)
  iterate 30 (all_goals try first
    | with_reducible exact Keep.refl _ _
    | with_reducible assumption
    | (extract_lets +onlyGivenNames zz; refine Keep.cut zz ?_ (fun _ => ?_); (rotate_left; (try clear_value zz); rotate_right; subst zz))
    | (extract_lets +onlyGivenNames zz; subst zz)
    | with_reducible refine (drainTurns_keep ..).after ?_ (by decide)
    | with_reducible refine (settleDrain_keep ..).after ?_ (by decide)
    | with_reducible refine (setPstate_keep ..).after ?_ (by decide)
    | with_reducible refine Keep.ite (fun _ => ?_) (fun _ => ?_)
    | split
    | with_reducible refine (Keep.of_mgc _ _ (by rfl) (by rfl)).after ?_ (by decide))

theorem partitionError_keep (n : Nat) (s : State) : Keep 1049309182 s (partitionError n s) := by
  unfold partitionError
  iterate 30 (all_goals try first
    | with_reducible exact Keep.refl _ _
    | with_reducible assumption
    | (extract_lets +onlyGivenNames zz; refine Keep.cut zz ?_ (fun _ => ?_); (rotate_left; (try clear_value zz); rotate_right; subst zz))
    | (extract_lets +onlyGivenNames zz; subst zz)
    | with_reducible refine (endTurns_keep ..).after ?_ (by decide)
    | with_reducible refine (settleDrain_keep ..).after ?_ (by decide)
    | with_reducible refine (setPstate_keep ..).after ?_ (by decide)
    | with_reducible refine Keep.ite (fun _ => ?_) (fun _ => ?_)
    | split)

theorem wipeConn_keep (id : Nat) (s : State) : Keep 536948350 s (wipeConn id s) := by
  unfold wipeConn
  iterate 30 (all_goals try first
    | with_reducible exact Keep.refl _ _
    | with_reducible assumption
    | (extract_lets +onlyGivenNames zz; refine Keep.cut zz ?_ (fun _ => ?_); (rotate_left; (try clear_value zz); rotate_right; subst zz))
    | (extract_lets +onlyGivenNames zz; subst zz)
    | with_reducible refine (failConn_keep ..).after ?_ (by decide)
    | with_reducible refine (putConn_keep ..).after ?_ (by decide)
    | with_reducible refine (complete_keep ..).after ?_ (by decide)
    | with_reducible refine Keep.ite (fun _ => ?_) (fun _ => ?_)
    | split)

theorem wipeRegion_keep (i : Nat) (s : State) : Keep 536945230 s (wipeRegion i s) := by
  unfold wipeRegion
  iterate 30 (all_goals try first
    | with_reducible exact Keep.refl _ _
    | with_reducible assumption
    | with_reducible refine (revokeStep_keep ..).after ?_ (by decide)
    | with_reducible refine (modRegion_keep ..).after ?_ (by decide)
    | with_reducible refine Keep.ite (fun _ => ?_) (fun _ => ?_)
    | split)

theorem wipeExtent_keep (e : Nat) (s : State) : Keep 74318 s (wipeExtent e s) := by
  unfold wipeExtent
  iterate 30 (all_goals try first
    | with_reducible exact Keep.refl _ _
    | with_reducible assumption
    | (extract_lets +onlyGivenNames zz; refine Keep.cut zz ?_ (fun _ => ?_); (rotate_left; (try clear_value zz); rotate_right; subst zz))
    | (extract_lets +onlyGivenNames zz; subst zz)
    | with_reducible refine (removalFinish_keep ..).after ?_ (by decide)
    | with_reducible refine (sendRecall_keep ..).after ?_ (by decide)
    | with_reducible refine (setF_keep ..).after ?_ (by decide)
    | with_reducible refine Keep.foldl (fun _ _ => ?_) ?_ _
    | with_reducible refine Keep.foldlFst (fun _ _ => ?_) ?_ _
    | with_reducible refine Keep.foldlSnd (fun _ _ => ?_) ?_ _
    | with_reducible refine Keep.ite (fun _ => ?_) (fun _ => ?_)
    | split
    | with_reducible refine (Keep.of_cwp _ _).after ?_ (by decide))

theorem wipeSession_keep (i : Nat) (s : State) : Keep 370020334 s (wipeSession i s) := by
  unfold wipeSession
  iterate 30 (all_goals try first
    | with_reducible exact Keep.refl _ _
    | with_reducible assumption
    | (extract_lets +onlyGivenNames zz; refine Keep.cut zz ?_ (fun _ => ?_); (rotate_left; (try clear_value zz); rotate_right; subst zz))
    | (extract_lets +onlyGivenNames zz; subst zz)
    | with_reducible refine (modPme_keep ..).after ?_ (by decide)
    | with_reducible refine (releaseKv_keep ..).after ?_ (by decide)
    | with_reducible refine (setFrc_keep ..).after ?_ (by decide)
    | with_reducible refine Keep.ite (fun _ => ?_) (fun _ => ?_)
    | split
    | with_reducible refine (Keep.of_wipe _ _ _ _ _ (by rfl)).after ?_ (by decide))

theorem wipeTables_keep (n : Nat) (s : State) : Keep 208666624 s (wipeTables n s) := by
  unfold wipeTables
  iterate 30 (all_goals try first
    | with_reducible exact Keep.refl _ _
    | with_reducible assumption
    | (extract_lets +onlyGivenNames zz; refine Keep.cut zz ?_ (fun _ => ?_); (rotate_left; (try clear_value zz); rotate_right; subst zz))
    | (extract_lets +onlyGivenNames zz; subst zz)
    | with_reducible refine (setHrc_keep ..).after ?_ (by decide)
    | with_reducible refine (setTmg_keep ..).after ?_ (by decide)
    | with_reducible refine Keep.ite (fun _ => ?_) (fun _ => ?_)
    | split
    | with_reducible refine (Keep.of_tables _ _ _ _).after ?_ (by decide))

theorem wipeObjects_keep (n : Nat) (s : State) : Keep 1056911358 s (wipeObjects n s) := by
  unfold wipeObjects
  iterate 30 (all_goals try first
    | with_reducible exact Keep.refl _ _
    | with_reducible assumption
    | (extract_lets +onlyGivenNames zz; refine Keep.cut zz ?_ (fun _ => ?_); (rotate_left; (try clear_value zz); rotate_right; subst zz))
    | (extract_lets +onlyGivenNames zz; subst zz)
    | with_reducible refine (wipeTables_keep ..).after ?_ (by decide)
    | with_reducible refine (wipeSession_keep ..).after ?_ (by decide)
    | with_reducible refine (wipeExtent_keep ..).after ?_ (by decide)
    | with_reducible refine (wipeRegion_keep ..).after ?_ (by decide)
    | with_reducible refine (wipeConn_keep ..).after ?_ (by decide)
    | with_reducible refine (dropWheel_keep ..).after ?_ (by decide)
    | with_reducible refine (pmeDropPartition_keep ..).after ?_ (by decide)
    | with_reducible refine (complete_keep ..).after ?_ (by decide)
    | with_reducible refine Keep.foldl (fun _ _ => ?_) ?_ _
    | with_reducible refine Keep.foldlFst (fun _ _ => ?_) ?_ _
    | with_reducible refine Keep.foldlSnd (fun _ _ => ?_) ?_ _
    | with_reducible refine Keep.ite (fun _ => ?_) (fun _ => ?_)
    | split)

theorem partitionWipe_keepD {c : Cmd} {s : State} {t0 : State} {r0 : Reply} (h : partitionWipe c s = .done t0 r0) : Keep 1056911358 s t0 := by
  unfold partitionWipe at h
  try dsimp only at h
  repeat' (first | (with_reducible replace h := onPartition_done h) | split at h)
  all_goals try (exact absurd h (by simp only [Res.fail, reduceCtorEq, not_false_eq_true]))
  all_goals try (with_reducible obtain ⟨rfl, rfl⟩ := Res.done.inj h)
  iterate 30 (all_goals try first
    | with_reducible exact Keep.refl _ _
    | with_reducible assumption
    | (extract_lets +onlyGivenNames zz; refine Keep.cut zz ?_ (fun _ => ?_); (rotate_left; (try clear_value zz); rotate_right; subst zz))
    | (extract_lets +onlyGivenNames zz; subst zz)
    | with_reducible refine (wipeObjects_keep ..).after ?_ (by decide)
    | with_reducible refine (endTurns_keep ..).after ?_ (by decide)
    | with_reducible refine (settleDrain_keep ..).after ?_ (by decide)
    | with_reducible refine (completeOne_keep ..).after ?_ (by decide)
    | with_reducible refine (setPstate_keep ..).after ?_ (by decide)
    | with_reducible refine (setF_keep ..).after ?_ (by decide)
    | with_reducible refine Keep.ite (fun _ => ?_) (fun _ => ?_)
    | split
    | with_reducible refine (Keep.of_mgc _ _ (by rfl) (by rfl)).after ?_ (by decide)
    | with_reducible refine (Keep.of_sec _ _ (by rfl)).after ?_ (by decide))
theorem partitionWipe_keepW {c : Cmd} {s : State} {t0 : State} (h : partitionWipe c s = .wait t0) : Keep 1056911358 s t0 := by
  unfold partitionWipe at h
  try dsimp only at h
  repeat' (first | (with_reducible replace h := onPartition_wait h) | split at h)
  all_goals try (exact absurd h (by simp only [Res.fail, reduceCtorEq, not_false_eq_true]))
  all_goals try (with_reducible obtain rfl := Res.wait.inj h)
  iterate 30 (all_goals try first
    | with_reducible exact Keep.refl _ _
    | with_reducible assumption
    | (extract_lets +onlyGivenNames zz; refine Keep.cut zz ?_ (fun _ => ?_); (rotate_left; (try clear_value zz); rotate_right; subst zz))
    | (extract_lets +onlyGivenNames zz; subst zz)
    | with_reducible refine (wipeObjects_keep ..).after ?_ (by decide)
    | with_reducible refine (endTurns_keep ..).after ?_ (by decide)
    | with_reducible refine (settleDrain_keep ..).after ?_ (by decide)
    | with_reducible refine (completeOne_keep ..).after ?_ (by decide)
    | with_reducible refine (setPstate_keep ..).after ?_ (by decide)
    | with_reducible refine (setF_keep ..).after ?_ (by decide)
    | with_reducible refine Keep.ite (fun _ => ?_) (fun _ => ?_)
    | split
    | with_reducible refine (Keep.of_mgc _ _ (by rfl) (by rfl)).after ?_ (by decide)
    | with_reducible refine (Keep.of_sec _ _ (by rfl)).after ?_ (by decide))

theorem zeroRange_keep (k a len : Nat) (s : State) : Keep 68064 s (zeroRange k a len s) := by
  unfold zeroRange
  dsimp only
  refine (Keep.of_cwp_sec (s.setTier k (memZero (s.tier k) a len)) _ _ ?_).after ((setTier_keep _ _ _ (fun h => memZero_wf _ _ h)).mono (by decide)) (by decide)
  unfold State.setTier; split <;> rfl

theorem deallocT3_keep (base units : Nat) (s : State) : Keep 12 s (deallocT3 base units s) := by
  unfold deallocT3
  iterate 30 (all_goals try first
    | with_reducible exact Keep.refl _ _
    | with_reducible assumption
    | (extract_lets +onlyGivenNames zz; refine Keep.cut zz ?_ (fun _ => ?_); (rotate_left; (try clear_value zz); rotate_right; subst zz))
    | (extract_lets +onlyGivenNames zz; subst zz)
    | with_reducible refine (emit_keep ..).after ?_ (by decide)
    | with_reducible refine (bumpBy_keep ..).after ?_ (by decide)
    | with_reducible refine Keep.foldl (fun _ _ => ?_) ?_ _
    | with_reducible refine Keep.foldlFst (fun _ _ => ?_) ?_ _
    | with_reducible refine Keep.foldlSnd (fun _ _ => ?_) ?_ _
    | with_reducible refine Keep.ite (fun _ => ?_) (fun _ => ?_)
    | split)

theorem wipeMemory_keep (n : Nat) (s : State) : Keep 2147551724 s (wipeMemory n s) := by
  unfold wipeMemory
  iterate 30 (all_goals try first
    | with_reducible exact Keep.refl _ _
    | with_reducible assumption
    | (extract_lets +onlyGivenNames zz; refine Keep.cut zz ?_ (fun _ => ?_); (rotate_left; (try clear_value zz); rotate_right; subst zz))
    | (extract_lets +onlyGivenNames zz; subst zz)
    | with_reducible refine (deallocT3_keep ..).after ?_ (by decide)
    | with_reducible refine (zeroRange_keep ..).after ?_ (by decide)
    | with_reducible refine Keep.foldl (fun _ _ => ?_) ?_ _
    | with_reducible refine Keep.foldlFst (fun _ _ => ?_) ?_ _
    | with_reducible refine Keep.foldlSnd (fun _ _ => ?_) ?_ _
    | with_reducible refine Keep.ite (fun _ => ?_) (fun _ => ?_)
    | split
    | with_reducible refine (Keep.of_sec_mxg _ _ _ (by rfl)).after ?_ (by decide))

theorem wipeFabric_keep (n : Nat) (s : State) : Keep 536870912 s (wipeFabric n s) := by
  unfold wipeFabric
  iterate 30 (all_goals try first
    | with_reducible exact Keep.refl _ _
    | with_reducible assumption
    | (extract_lets +onlyGivenNames zz; refine Keep.cut zz ?_ (fun _ => ?_); (rotate_left; (try clear_value zz); rotate_right; subst zz))
    | (extract_lets +onlyGivenNames zz; subst zz)
    | with_reducible refine (freeConn_keep ..).after ?_ (by decide)
    | with_reducible refine Keep.foldl (fun _ _ => ?_) ?_ _
    | with_reducible refine Keep.foldlFst (fun _ _ => ?_) ?_ _
    | with_reducible refine Keep.foldlSnd (fun _ _ => ?_) ?_ _
    | with_reducible refine Keep.ite (fun _ => ?_) (fun _ => ?_)
    | split
    | with_reducible refine (Keep.of_xfe _ _).after ?_ (by decide))

theorem partitionWipeDone_keep (n : Nat) (s : State) : Keep 2684432366 s (partitionWipeDone n s) := by
  unfold partitionWipeDone
  iterate 30 (all_goals try first
    | with_reducible exact Keep.refl _ _
    | with_reducible assumption
    | (extract_lets +onlyGivenNames zz; refine Keep.cut zz ?_ (fun _ => ?_); (rotate_left; (try clear_value zz); rotate_right; subst zz))
    | (extract_lets +onlyGivenNames zz; subst zz)
    | with_reducible refine (wipeFabric_keep ..).after ?_ (by decide)
    | with_reducible refine (wipeMemory_keep ..).after ?_ (by decide)
    | with_reducible refine (clearPartition_keep ..).after ?_ (by decide)
    | with_reducible refine (loseQueues_keep ..).after ?_ (by decide)
    | with_reducible refine (complete_keep ..).after ?_ (by decide)
    | with_reducible refine (setPstate_keep ..).after ?_ (by decide)
    | with_reducible refine (bump_keep ..).after ?_ (by decide)
    | with_reducible refine (setF_keep ..).after ?_ (by decide)
    | with_reducible refine Keep.foldl (fun _ _ => ?_) ?_ _
    | with_reducible refine Keep.foldlFst (fun _ _ => ?_) ?_ _
    | with_reducible refine Keep.foldlSnd (fun _ _ => ?_) ?_ _
    | with_reducible refine Keep.ite (fun _ => ?_) (fun _ => ?_)
    | split
    | with_reducible refine (Keep.of_hif_frc _ _ _).after ?_ (by decide)
    | with_reducible refine (Keep.of_mgc _ _ (by rfl) (by rfl)).after ?_ (by decide))

end Sys2Proof.Machine
end

