-- ==== Sys2Proof/Laws/KeepSecurity.lean ====
section
/-!
SUPPORT. Laws/KeepSecurity.lean: what each operation of Machine/Security.lean can change (Laws/Keep.lean).
-/
set_option Elab.async false
set_option linter.all false
namespace Sys2Proof.Machine

open Sys2Proof

theorem of_fuses (s : State) (f : Fuses) (h : FuseLe s.sec.fuses f) : Keep 4096 s { s with sec := { s.sec with fuses := f } } := by
  constructor <;> first | (intro _; rfl) | (intro h; exact absurd h (by decide)) | exact id | exact h

theorem spdmAnswer_keep (t : Nat) (kind : String) (b : List Byte) (s : State) : Keep 8 s (spdmAnswer t kind b s) := by
  unfold spdmAnswer
  iterate 30 (all_goals try first
    | with_reducible exact Keep.refl _ _
    | with_reducible assumption
    | with_reducible refine (emit_keep ..).after ?_ (by decide)
    | with_reducible refine Keep.ite (fun _ => ?_) (fun _ => ?_)
    | split)

theorem spdmChain_keep (t : Nat) (kind : String) (b : List Byte) (s : State) : Keep 8 s (spdmChain t kind b s) := by
  unfold spdmChain
  iterate 30 (all_goals try first
    | with_reducible exact Keep.refl _ _
    | with_reducible assumption
    | with_reducible refine (spdmAnswer_keep ..).after ?_ (by decide)
    | with_reducible refine Keep.ite (fun _ => ?_) (fun _ => ?_)
    | split)

theorem spdmStatus_keep (t : Nat) (st : Status) (s : State) : Keep 8 s (spdmStatus t st s) := by
  unfold spdmStatus
  iterate 30 (all_goals try first
    | with_reducible exact Keep.refl _ _
    | with_reducible assumption
    | with_reducible refine (spdmAnswer_keep ..).after ?_ (by decide)
    | with_reducible refine Keep.ite (fun _ => ?_) (fun _ => ?_)
    | split)

theorem onTransport_keep {k : Nat} (t part : Nat) (f : State → State) (s : State) (hk : 8 ||| k = k)
    (h : ∀ s, Keep k s (f s)) : Keep k s (onTransport t part f s) := by
  unfold onTransport
  split
  · exact Keep.refl _ _
  · refine Keep.ite (fun _ => (spdmStatus_keep ..).mono hk) (fun _ => ?_)
    exact Keep.ite (fun _ => (spdmStatus_keep ..).mono hk) (fun _ => h s)

theorem attestationReport_keep (t part : Nat) (nonce : List Byte) (s : State) : Keep 12 s (attestationReport t part nonce s) := by
  unfold attestationReport
  iterate 30 (all_goals try first
    | with_reducible exact Keep.refl _ _
    | with_reducible assumption
    | with_reducible refine onTransport_keep _ _ _ _ (by decide) (fun _ => ?_)
    | with_reducible refine (spdmStatus_keep ..).after ?_ (by decide)
    | with_reducible refine (spdmAnswer_keep ..).after ?_ (by decide)
    | with_reducible refine (bump_keep ..).after ?_ (by decide)
    | with_reducible refine Keep.ite (fun _ => ?_) (fun _ => ?_)
    | split)

theorem endExchange_keep (n : Nat) (s : State) : Keep 2050 s (endExchange n s) := by
  unfold endExchange
  iterate 30 (all_goals try first
    | with_reducible exact Keep.refl _ _
    | with_reducible assumption
    | (extract_lets +onlyGivenNames zz; refine Keep.cut zz ?_ (fun _ => ?_); (rotate_left; (try clear_value zz); rotate_right; subst zz))
    | (extract_lets +onlyGivenNames zz; subst zz)
    | with_reducible refine (setF_keep ..).after ?_ (by decide)
    | with_reducible refine Keep.ite (fun _ => ?_) (fun _ => ?_)
    | split
    | with_reducible refine (Keep.of_sec _ _ (by rfl)).after ?_ (by decide))

theorem failExchange_keep (t n : Nat) (st : Status) (s : State) : Keep 3598 s (failExchange t n st s) := by
  unfold failExchange
  iterate 30 (all_goals try first
    | with_reducible exact Keep.refl _ _
    | with_reducible assumption
    | (extract_lets +onlyGivenNames zz; refine Keep.cut zz ?_ (fun _ => ?_); (rotate_left; (try clear_value zz); rotate_right; subst zz))
    | (extract_lets +onlyGivenNames zz; subst zz)
    | with_reducible refine (endExchange_keep ..).after ?_ (by decide)
    | with_reducible refine (spdmStatus_keep ..).after ?_ (by decide)
    | with_reducible refine (logEv_keep ..).after ?_ (by decide)
    | with_reducible refine (bump_keep ..).after ?_ (by decide)
    | with_reducible refine Keep.ite (fun _ => ?_) (fun _ => ?_)
    | split)

theorem keyInit_keep (t part : Nat) (nonce : List Byte) (s : State) : Keep 2078 s (keyInit t part nonce s) := by
  unfold keyInit
  iterate 30 (all_goals try first
    | with_reducible exact Keep.refl _ _
    | with_reducible assumption
    | with_reducible refine onTransport_keep _ _ _ _ (by decide) (fun _ => ?_)
    | (extract_lets +onlyGivenNames zz; refine Keep.cut zz ?_ (fun _ => ?_); (rotate_left; (try clear_value zz); rotate_right; subst zz))
    | (extract_lets +onlyGivenNames zz; subst zz)
    | with_reducible refine (spdmStatus_keep ..).after ?_ (by decide)
    | with_reducible refine (spdmAnswer_keep ..).after ?_ (by decide)
    | with_reducible refine (bump_keep ..).after ?_ (by decide)
    | with_reducible refine (setF_keep ..).after ?_ (by decide)
    | with_reducible refine Keep.ite (fun _ => ?_) (fun _ => ?_)
    | split
    | with_reducible refine (Keep.of_free _ _).after ?_ (by decide)
    | with_reducible refine (Keep.of_sec _ _ (by rfl)).after ?_ (by decide))

theorem keyExch_keep (t part : Nat) (c pk sig : List Byte) (s : State) : Keep 3598 s (keyExch t part c pk sig s) := by
  unfold keyExch
  iterate 30 (all_goals try first
    | with_reducible exact Keep.refl _ _
    | with_reducible assumption
    | with_reducible refine onTransport_keep _ _ _ _ (by decide) (fun _ => ?_)
    | (extract_lets +onlyGivenNames zz; refine Keep.cut zz ?_ (fun _ => ?_); (rotate_left; (try clear_value zz); rotate_right; subst zz))
    | (extract_lets +onlyGivenNames zz; subst zz)
    | with_reducible refine (failExchange_keep ..).after ?_ (by decide)
    | with_reducible refine (spdmStatus_keep ..).after ?_ (by decide)
    | with_reducible refine (spdmAnswer_keep ..).after ?_ (by decide)
    | with_reducible refine Keep.ite (fun _ => ?_) (fun _ => ?_)
    | split
    | with_reducible refine (Keep.of_sec _ _ (by rfl)).after ?_ (by decide))

theorem keyDeliver_keep (t part slot : Nat) (w tag : List Byte) (s : State) : Keep 3598 s (keyDeliver t part slot w tag s) := by
  unfold keyDeliver
  iterate 30 (all_goals try first
    | with_reducible exact Keep.refl _ _
    | with_reducible assumption
    | with_reducible refine onTransport_keep _ _ _ _ (by decide) (fun _ => ?_)
    | (extract_lets +onlyGivenNames zz; refine Keep.cut zz ?_ (fun _ => ?_); (rotate_left; (try clear_value zz); rotate_right; subst zz))
    | (extract_lets +onlyGivenNames zz; subst zz)
    | with_reducible refine (failExchange_keep ..).after ?_ (by decide)
    | with_reducible refine (endExchange_keep ..).after ?_ (by decide)
    | with_reducible refine (spdmStatus_keep ..).after ?_ (by decide)
    | with_reducible refine (spdmAnswer_keep ..).after ?_ (by decide)
    | with_reducible refine (logEv_keep ..).after ?_ (by decide)
    | with_reducible refine (setF_keep ..).after ?_ (by decide)
    | with_reducible refine Keep.ite (fun _ => ?_) (fun _ => ?_)
    | split
    | with_reducible refine (Keep.of_sec _ _ (by rfl)).after ?_ (by decide))

theorem fwCommitSvn_keepD {c : Cmd} {s : State} {t0 : State} {r0 : Reply} (h : (fwCommitSvn c s) = .done t0 r0) : Keep 4098 s t0 := by
  unfold fwCommitSvn at h
  rw [need_done, need_done] at h
  obtain ⟨rfl, -⟩ := Res.done.inj h.2.2
  refine (setF_keep ..).after ((of_fuses s _ ?_).mono (by decide)) (by decide)
  exact fun g => ⟨Nat.le_refl _, Nat.le_max_left .., g⟩

theorem fwCommitSvn_keepW {c : Cmd} {s : State} {t0 : State} (h : (fwCommitSvn c s) = .wait t0) : Keep 4098 s t0 := by
  unfold fwCommitSvn at h
  rw [need_wait, need_wait] at h
  exact absurd h.2.2 (by simp only [reduceCtorEq, not_false_eq_true])

theorem lifecycleTo_keepD {c : Cmd} {from_ : List Nat} {next : Nat} {s : State} {t0 : State} {r0 : Reply} (hl : ∀ l ∈ from_, l ≤ next)
    (h : (lifecycleTo c from_ next s) = .done t0 r0) : Keep 4096 s t0 := by
  unfold lifecycleTo at h
  rw [need_done, need_done] at h
  obtain ⟨rfl, -⟩ := Res.done.inj h.2.2
  have hm : s.sec.fuses.lifecycle ≤ next := by
    have := h.2.1
    simp only [Bool.and_eq_true, List.contains_eq_mem, decide_eq_true_eq] at this
    exact hl _ this.1
  refine of_fuses s _ ?_
  intro _
  refine ⟨Nat.le_refl _, Nat.le_refl _, ?_⟩
  exact Nat.le_trans hm (Nat.le_max_left ..)

theorem lifecycleTo_keepW {c : Cmd} {from_ : List Nat} {next : Nat} {s : State} {t0 : State} (h : (lifecycleTo c from_ next s) = .wait t0) : Keep 4096 s t0 := by
  unfold lifecycleTo at h
  rw [need_wait, need_wait] at h
  exact absurd h.2.2 (by simp only [reduceCtorEq, not_false_eq_true])

theorem debugEvent_keep (facility what addr len : Nat) (s : State) : Keep 3598 s (debugEvent facility what addr len s) := by
  unfold debugEvent
  iterate 30 (all_goals try first
    | with_reducible exact Keep.refl _ _
    | with_reducible assumption
    | with_reducible refine (logEv_keep ..).after ?_ (by decide)
    | with_reducible refine (setF_keep ..).after ?_ (by decide)
    | with_reducible refine Keep.ite (fun _ => ?_) (fun _ => ?_)
    | split)

theorem debugHalt_keep (core : Nat) (s : State) : Keep 11790 s (debugHalt core s) := by
  unfold debugHalt
  iterate 30 (all_goals try first
    | with_reducible exact Keep.refl _ _
    | with_reducible assumption
    | (extract_lets +onlyGivenNames zz; refine Keep.cut zz ?_ (fun _ => ?_); (rotate_left; (try clear_value zz); rotate_right; subst zz))
    | (extract_lets +onlyGivenNames zz; subst zz)
    | with_reducible refine (debugEvent_keep ..).after ?_ (by decide)
    | with_reducible refine (bump_keep ..).after ?_ (by decide)
    | with_reducible refine Keep.ite (fun _ => ?_) (fun _ => ?_)
    | split
    | with_reducible refine (Keep.of_mgc _ _ (by rfl) (by rfl)).after ?_ (by decide))

theorem coreFreed_keep (s : State) : Keep 780275694 s (coreFreed s) := by
  unfold coreFreed
  iterate 30 (all_goals try first
    | with_reducible exact Keep.refl _ _
    | with_reducible assumption
    | with_reducible refine (finishTail_keep ..).after ?_ (by decide)
    | with_reducible refine (settleParts_keep ..).after ?_ (by decide)
    | with_reducible refine Keep.foldl (fun _ _ => ?_) ?_ _
    | with_reducible refine Keep.foldlFst (fun _ _ => ?_) ?_ _
    | with_reducible refine Keep.foldlSnd (fun _ _ => ?_) ?_ _
    | with_reducible refine Keep.ite (fun _ => ?_) (fun _ => ?_)
    | split)

theorem debugResume_keep (core : Nat) (s : State) : Keep 780283886 s (debugResume core s) := by
  unfold debugResume
  iterate 30 (all_goals try first
    | with_reducible exact Keep.refl _ _
    | with_reducible assumption
    | (extract_lets +onlyGivenNames zz; refine Keep.cut zz ?_ (fun _ => ?_); (rotate_left; (try clear_value zz); rotate_right; subst zz))
    | (extract_lets +onlyGivenNames zz; subst zz)
    | with_reducible refine (coreFreed_keep ..).after ?_ (by decide)
    | with_reducible refine (debugEvent_keep ..).after ?_ (by decide)
    | with_reducible refine Keep.ite (fun _ => ?_) (fun _ => ?_)
    | split
    | with_reducible refine (Keep.of_mgc _ _ (by rfl) (by rfl)).after ?_ (by decide))

theorem mapAperture_keep (core : Nat) (a : Aperture) (s : State) : Keep 8192 s (mapAperture core a s) := by
  unfold mapAperture
  iterate 30 (all_goals try first
    | with_reducible exact Keep.refl _ _
    | with_reducible assumption
    | (extract_lets +onlyGivenNames zz; refine Keep.cut zz ?_ (fun _ => ?_); (rotate_left; (try clear_value zz); rotate_right; subst zz))
    | (extract_lets +onlyGivenNames zz; subst zz)
    | with_reducible refine (putCore_keep ..).after ?_ (by decide)
    | with_reducible refine Keep.ite (fun _ => ?_) (fun _ => ?_)
    | split)

theorem coreLoad_keep (core t len rd addr size : Nat) (signed : Bool) (s : State) : Keep 536882718 s (coreLoad core t len rd addr size signed s) := by
  unfold coreLoad
  iterate 30 (all_goals try first
    | with_reducible exact Keep.refl _ _
    | with_reducible assumption
    | (extract_lets +onlyGivenNames zz; refine Keep.cut zz ?_ (fun _ => ?_); (rotate_left; (try clear_value zz); rotate_right; subst zz))
    | (extract_lets +onlyGivenNames zz; subst zz)
    | with_reducible refine (newRequest_keep (by assumption)).after ?_ (by decide)
    | with_reducible refine (newRequest_keepP ..).after ?_ (by decide)
    | with_reducible refine (senderRefusal_keep ..).after ?_ (by decide)
    | with_reducible refine (sendMsg_keep ..).after ?_ (by decide)
    | with_reducible refine (hartEnds_keep ..).after ?_ (by decide)
    | with_reducible refine (putHart_keep ..).after ?_ (by decide)
    | with_reducible refine (bump_keep ..).after ?_ (by decide)
    | with_reducible refine Keep.ite (fun _ => ?_) (fun _ => ?_)
    | split)

theorem coreStore_keep (core t addr size value : Nat) (s : State) : Keep 536882702 s (coreStore core t addr size value s) := by
  unfold coreStore
  iterate 30 (all_goals try first
    | with_reducible exact Keep.refl _ _
    | with_reducible assumption
    | (extract_lets +onlyGivenNames zz; refine Keep.cut zz ?_ (fun _ => ?_); (rotate_left; (try clear_value zz); rotate_right; subst zz))
    | (extract_lets +onlyGivenNames zz; subst zz)
    | with_reducible refine (senderRefusal_keep ..).after ?_ (by decide)
    | with_reducible refine (sendMsg_keep ..).after ?_ (by decide)
    | with_reducible refine (putHart_keep ..).after ?_ (by decide)
    | with_reducible refine Keep.ite (fun _ => ?_) (fun _ => ?_)
    | split)

theorem coreFence_keep (core t len : Nat) (s : State) : Keep 536879116 s (coreFence core t len s) := by
  unfold coreFence
  iterate 30 (all_goals try first
    | with_reducible exact Keep.refl _ _
    | with_reducible assumption
    | (extract_lets +onlyGivenNames zz; refine Keep.cut zz ?_ (fun _ => ?_); (rotate_left; (try clear_value zz); rotate_right; subst zz))
    | (extract_lets +onlyGivenNames zz; subst zz)
    | with_reducible refine (ownFlush_keep ..).after ?_ (by decide)
    | with_reducible refine (putHart_keep ..).after ?_ (by decide)
    | with_reducible refine Keep.foldl (fun _ _ => ?_) ?_ _
    | with_reducible refine Keep.foldlFst (fun _ _ => ?_) ?_ _
    | with_reducible refine Keep.foldlSnd (fun _ _ => ?_) ?_ _
    | with_reducible refine Keep.ite (fun _ => ?_) (fun _ => ?_)
    | split)

theorem coreStep_keep (core len : Nat) (act : CoreAct) (s : State) : Keep 536882718 s (coreStep core len act s) := by
  unfold coreStep
  iterate 30 (all_goals try first
    | with_reducible exact Keep.refl _ _
    | with_reducible assumption
    | (extract_lets +onlyGivenNames zz; refine Keep.cut zz ?_ (fun _ => ?_); (rotate_left; (try clear_value zz); rotate_right; subst zz))
    | (extract_lets +onlyGivenNames zz; subst zz)
    | with_reducible refine (coreFence_keep ..).after ?_ (by decide)
    | with_reducible refine (coreStore_keep ..).after ?_ (by decide)
    | with_reducible refine (coreLoad_keep ..).after ?_ (by decide)
    | with_reducible refine (mapAperture_keep ..).after ?_ (by decide)
    | with_reducible refine (putHart_keep ..).after ?_ (by decide)
    | with_reducible refine (putCore_keep ..).after ?_ (by decide)
    | with_reducible refine Keep.ite (fun _ => ?_) (fun _ => ?_)
    | split)

theorem traceStep_keep (core : Nat) (s : State) : Keep 2064 s (traceStep core s) := by
  unfold traceStep
  iterate 30 (all_goals try first
    | with_reducible exact Keep.refl _ _
    | with_reducible assumption
    | with_reducible refine (traceRecord_keep ..).after ?_ (by decide)
    | with_reducible refine (freshBytes_keep (by assumption)).after ?_ (by decide)
    | with_reducible refine (freshBytes_keepP ..).after ?_ (by decide)
    | with_reducible refine Keep.getD (fun _ _ => ?_) ?_
    | with_reducible refine Keep.ite (fun _ => ?_) (fun _ => ?_)
    | split)

theorem storedUnit_keep {k u : Nat} {s : State} {x0 : List Byte} {t0 : State} (h : storedUnit k u s = (x0, t0)) : Keep 16 s t0 := by
  unfold storedUnit at h
  try dsimp only at h
  repeat' (first | split at h)
  all_goals try (exact absurd h (by simp only [reduceCtorEq, not_false_eq_true]))
  all_goals try (with_reducible obtain ⟨rfl, rfl⟩ := Prod.mk.inj h)
  iterate 30 (all_goals try first
    | with_reducible exact Keep.refl _ _
    | with_reducible assumption
    | (extract_lets +onlyGivenNames zz; refine Keep.cut zz ?_ (fun _ => ?_); (rotate_left; (try clear_value zz); rotate_right; subst zz))
    | (extract_lets +onlyGivenNames zz; subst zz)
    | with_reducible refine (freshBytes_keep (by assumption)).after ?_ (by decide)
    | with_reducible refine (freshBytes_keepP ..).after ?_ (by decide)
    | with_reducible refine Keep.foldl (fun _ _ => ?_) ?_ _
    | with_reducible refine Keep.foldlFst (fun _ _ => ?_) ?_ _
    | with_reducible refine Keep.foldlSnd (fun _ _ => ?_) ?_ _
    | with_reducible refine Keep.pairIte (by assumption) (fun _ => ?_)
    | with_reducible refine Keep.pairIteElse (by assumption) (fun _ => ?_)
    | with_reducible refine Keep.ite (fun _ => ?_) (fun _ => ?_)
    | split)
theorem storedUnit_keepP (k u : Nat) (s : State) : Keep 16 s (storedUnit k u s).2 := storedUnit_keep (k := k) (u := u) (s := s) rfl

theorem clearUnit_keep {u : Nat} {s : State} {x0 : List Byte} {t0 : State} (h : clearUnit u s = (x0, t0)) : Keep 16 s t0 := by
  unfold clearUnit at h
  try dsimp only at h
  repeat' (first | split at h)
  all_goals try (exact absurd h (by simp only [reduceCtorEq, not_false_eq_true]))
  all_goals try (with_reducible obtain ⟨rfl, rfl⟩ := Prod.mk.inj h)
  iterate 30 (all_goals try first
    | with_reducible exact Keep.refl _ _
    | with_reducible assumption
    | (extract_lets +onlyGivenNames zz; refine Keep.cut zz ?_ (fun _ => ?_); (rotate_left; (try clear_value zz); rotate_right; subst zz))
    | (extract_lets +onlyGivenNames zz; subst zz)
    | with_reducible refine (freshBytes_keep (by assumption)).after ?_ (by decide)
    | with_reducible refine (freshBytes_keepP ..).after ?_ (by decide)
    | with_reducible refine Keep.pairIte (by assumption) (fun _ => ?_)
    | with_reducible refine Keep.pairIteElse (by assumption) (fun _ => ?_)
    | with_reducible refine Keep.ite (fun _ => ?_) (fun _ => ?_)
    | split)
theorem clearUnit_keepP (u : Nat) (s : State) : Keep 16 s (clearUnit u s).2 := clearUnit_keep (u := u) (s := s) rfl

theorem debugBytes_keep {k addr len : Nat} {s : State} {x0 : List Byte} {t0 : State} (h : debugBytes k addr len s = (x0, t0)) : Keep 16 s t0 := by
  unfold debugBytes at h
  try dsimp only at h
  repeat' (first | split at h)
  all_goals try (exact absurd h (by simp only [reduceCtorEq, not_false_eq_true]))
  all_goals try (with_reducible obtain ⟨rfl, rfl⟩ := Prod.mk.inj h)
  iterate 30 (all_goals try first
    | with_reducible exact Keep.refl _ _
    | with_reducible assumption
    | (extract_lets +onlyGivenNames zz; refine Keep.cut zz ?_ (fun _ => ?_); (rotate_left; (try clear_value zz); rotate_right; subst zz))
    | (extract_lets +onlyGivenNames zz; subst zz)
    | with_reducible refine (clearUnit_keep (by assumption)).after ?_ (by decide)
    | with_reducible refine (clearUnit_keepP ..).after ?_ (by decide)
    | with_reducible refine (storedUnit_keep (by assumption)).after ?_ (by decide)
    | with_reducible refine (storedUnit_keepP ..).after ?_ (by decide)
    | with_reducible refine (freshBytes_keep (by assumption)).after ?_ (by decide)
    | with_reducible refine (freshBytes_keepP ..).after ?_ (by decide)
    | with_reducible refine Keep.foldl (fun _ _ => ?_) ?_ _
    | with_reducible refine Keep.foldlFst (fun _ _ => ?_) ?_ _
    | with_reducible refine Keep.foldlSnd (fun _ _ => ?_) ?_ _
    | with_reducible refine Keep.pairIte (by assumption) (fun _ => ?_)
    | with_reducible refine Keep.pairIteElse (by assumption) (fun _ => ?_)
    | with_reducible refine Keep.ite (fun _ => ?_) (fun _ => ?_)
    | split)
theorem debugBytes_keepP (k addr len : Nat) (s : State) : Keep 16 s (debugBytes k addr len s).2 := debugBytes_keep (k := k) (addr := addr) (len := len) (s := s) rfl

theorem inspectCore_keep (addr : Nat) (s : State) : Keep 8 s (inspectCore addr s) := by
  unfold inspectCore
  iterate 30 (all_goals try first
    | with_reducible exact Keep.refl _ _
    | with_reducible assumption
    | (extract_lets +onlyGivenNames zz; refine Keep.cut zz ?_ (fun _ => ?_); (rotate_left; (try clear_value zz); rotate_right; subst zz))
    | (extract_lets +onlyGivenNames zz; subst zz)
    | with_reducible refine (emit_keep ..).after ?_ (by decide)
    | with_reducible refine Keep.ite (fun _ => ?_) (fun _ => ?_)
    | split)

theorem debugMemoryRead_keep (space addr len : Nat) (s : State) : Keep 3614 s (debugMemoryRead space addr len s) := by
  unfold debugMemoryRead
  iterate 30 (all_goals try first
    | with_reducible exact Keep.refl _ _
    | with_reducible assumption
    | with_reducible refine (inspectCore_keep ..).after ?_ (by decide)
    | with_reducible refine (debugBytes_keep (by assumption)).after ?_ (by decide)
    | with_reducible refine (debugBytes_keepP ..).after ?_ (by decide)
    | with_reducible refine (debugEvent_keep ..).after ?_ (by decide)
    | with_reducible refine (emit_keep ..).after ?_ (by decide)
    | with_reducible refine (bump_keep ..).after ?_ (by decide)
    | with_reducible refine Keep.ite (fun _ => ?_) (fun _ => ?_)
    | split)

end Sys2Proof.Machine
end

