-- ==== Sys2Proof/Laws/KeepFaultRows.lean ====
section
/-!
SUPPORT. Laws/KeepFaultRows.lean: what each operation of Machine/FaultRows.lean can change (Laws/Keep.lean).
-/
set_option Elab.async false
set_option linter.all false
namespace Sys2Proof.Machine

open Sys2Proof

theorem residueError_keep (w stamp item : Nat) (s : State) : Keep 1049309182 s (residueError w stamp item s) := by
  unfold residueError
  iterate 30 (all_goals try first
    | with_reducible exact Keep.refl _ _
    | with_reducible assumption
    | (extract_lets +onlyGivenNames zz; refine Keep.cut zz ?_ (fun _ => ?_); (rotate_left; (try clear_value zz); rotate_right; subst zz))
    | (extract_lets +onlyGivenNames zz; subst zz)
    | with_reducible refine (markDone_keep ..).after ?_ (by decide)
    | with_reducible refine (modPart_keep ..).after ?_ (by decide)
    | with_reducible refine (endTurns_keep ..).after ?_ (by decide)
    | with_reducible refine (finishTail_keep ..).after ?_ (by decide)
    | with_reducible refine (settleParts_keep ..).after ?_ (by decide)
    | with_reducible refine (settleWhere_keep ..).after ?_ (by decide)
    | with_reducible refine (raiseErr_keep ..).after ?_ (by decide)
    | with_reducible refine (setFrc_keep ..).after ?_ (by decide)
    | with_reducible refine Keep.ite (fun _ => ?_) (fun _ => ?_)
    | split)

theorem coreError_keep (c : Nat) (wheels : List Nat) (s : State) : Keep 1049309182 s (coreError c wheels s) := by
  unfold coreError
  iterate 30 (all_goals try first
    | with_reducible exact Keep.refl _ _
    | with_reducible assumption
    | (extract_lets +onlyGivenNames zz; refine Keep.cut zz ?_ (fun _ => ?_); (rotate_left; (try clear_value zz); rotate_right; subst zz))
    | (extract_lets +onlyGivenNames zz; subst zz)
    | with_reducible refine (refuseExchange_keep ..).after ?_ (by decide)
    | with_reducible refine (raiseErr_keep ..).after ?_ (by decide)
    | with_reducible refine Keep.getD (fun _ _ => ?_) ?_
    | with_reducible refine Keep.foldl (fun _ _ => ?_) ?_ _
    | with_reducible refine Keep.foldlFst (fun _ _ => ?_) ?_ _
    | with_reducible refine Keep.foldlSnd (fun _ _ => ?_) ?_ _
    | with_reducible refine Keep.ite (fun _ => ?_) (fun _ => ?_)
    | split
    | with_reducible refine (Keep.of_mgc _ _ (by rfl) (by rfl)).after ?_ (by decide))

theorem pageReadError_keep (h : Nat) (gang : Option (Nat × Nat × Nat)) (s : State) : Keep 1049309182 s (pageReadError h gang s) := by
  unfold pageReadError
  iterate 30 (all_goals try first
    | with_reducible exact Keep.refl _ _
    | with_reducible assumption
    | (extract_lets +onlyGivenNames zz; refine Keep.cut zz ?_ (fun _ => ?_); (rotate_left; (try clear_value zz); rotate_right; subst zz))
    | (extract_lets +onlyGivenNames zz; subst zz)
    | with_reducible refine (modPart_keep ..).after ?_ (by decide)
    | with_reducible refine (endTurns_keep ..).after ?_ (by decide)
    | with_reducible refine (startRecovery_keep ..).after ?_ (by decide)
    | with_reducible refine (raiseErr_keep ..).after ?_ (by decide)
    | with_reducible refine (bump_keep ..).after ?_ (by decide)
    | with_reducible refine Keep.getD (fun _ _ => ?_) ?_
    | with_reducible refine Keep.findSome (by assumption) (fun _ _ => ?_)
    | with_reducible refine Keep.ite (fun _ => ?_) (fun _ => ?_)
    | split)

theorem prefixSweep_keep (n : Nat) (s : State) : Keep 268435456 s (prefixSweep n s) := by
  unfold prefixSweep
  iterate 30 (all_goals try first
    | with_reducible exact Keep.refl _ _
    | with_reducible assumption
    | with_reducible refine (modPme_keep ..).after ?_ (by decide)
    | with_reducible refine Keep.ite (fun _ => ?_) (fun _ => ?_)
    | split)

theorem prefixError_keep (part resource : Nat) (unit : Option Resource) (s : State) : Keep 268439054 s (prefixError part resource unit s) := by
  unfold prefixError
  iterate 30 (all_goals try first
    | with_reducible exact Keep.refl _ _
    | with_reducible assumption
    | with_reducible refine (prefixSweep_keep ..).after ?_ (by decide)
    | with_reducible refine (raiseErr_keep ..).after ?_ (by decide)
    | with_reducible refine Keep.ite (fun _ => ?_) (fun _ => ?_)
    | split)

theorem bucketError_keep (part home chain : Nat) (s : State) : Keep 268439054 s (bucketError part home chain s) := by
  unfold bucketError
  iterate 30 (all_goals try first
    | with_reducible exact Keep.refl _ _
    | with_reducible assumption
    | (extract_lets +onlyGivenNames zz; refine Keep.cut zz ?_ (fun _ => ?_); (rotate_left; (try clear_value zz); rotate_right; subst zz))
    | (extract_lets +onlyGivenNames zz; subst zz)
    | with_reducible refine (coldWalk_keep (by assumption)).after ?_ (by decide)
    | with_reducible refine (coldWalk_keepP ..).after ?_ (by decide)
    | with_reducible refine (modPme_keep ..).after ?_ (by decide)
    | with_reducible refine Keep.ite (fun _ => ?_) (fun _ => ?_)
    | split)

theorem partitionFault_keep (ev : Ev) (slot y2 part resource : Nat) (unit : Option Resource) (s : State) : Keep 1049309182 s (partitionFault ev slot y2 part resource unit s) := by
  unfold partitionFault
  iterate 30 (all_goals try first
    | with_reducible exact Keep.refl _ _
    | with_reducible assumption
    | with_reducible refine (partitionError_keep ..).after ?_ (by decide)
    | with_reducible refine (raiseErr_keep ..).after ?_ (by decide)
    | with_reducible refine Keep.ite (fun _ => ?_) (fun _ => ?_)
    | split)

theorem countCorrected_keep (slot y1 : Nat) (s : State) : Keep 4 s (countCorrected slot y1 s) := by
  unfold countCorrected
  iterate 30 (all_goals try first
    | with_reducible exact Keep.refl _ _
    | with_reducible assumption
    | with_reducible refine (bump_keep ..).after ?_ (by decide)
    | with_reducible refine Keep.ite (fun _ => ?_) (fun _ => ?_)
    | split)

theorem detectError_keep (slot y1 : Nat) (source : ErrSource) (s : State) : Keep 1049325566 s (detectError slot y1 source s) := by
  unfold detectError
  iterate 30 (all_goals try first
    | with_reducible exact Keep.refl _ _
    | with_reducible assumption
    | (extract_lets +onlyGivenNames zz; refine Keep.cut zz ?_ (fun _ => ?_); (rotate_left; (try clear_value zz); rotate_right; subst zz))
    | (extract_lets +onlyGivenNames zz; subst zz)
    | with_reducible refine (countCorrected_keep ..).after ?_ (by decide)
    | with_reducible refine (partitionFault_keep ..).after ?_ (by decide)
    | with_reducible refine (bucketError_keep ..).after ?_ (by decide)
    | with_reducible refine (prefixError_keep ..).after ?_ (by decide)
    | with_reducible refine (pageReadError_keep ..).after ?_ (by decide)
    | with_reducible refine (coreError_keep ..).after ?_ (by decide)
    | with_reducible refine (residueError_keep ..).after ?_ (by decide)
    | with_reducible refine (descriptorError_keep ..).after ?_ (by decide)
    | with_reducible refine (dropColumnsEntries_keep ..).after ?_ (by decide)
    | with_reducible refine (dropAt_keep ..).after ?_ (by decide)
    | with_reducible refine (modPme_keep ..).after ?_ (by decide)
    | with_reducible refine (fenceBlock_keep ..).after ?_ (by decide)
    | with_reducible refine (raiseErr_keep ..).after ?_ (by decide)
    | with_reducible refine (goFatal_keep ..).after ?_ (by decide)
    | with_reducible refine (setFrc_keep ..).after ?_ (by decide)
    | with_reducible refine (logFull_keep ..).after ?_ (by decide)
    | with_reducible refine Keep.ite (fun _ => ?_) (fun _ => ?_)
    | split
    | with_reducible refine (Keep.of_sec _ _ (by rfl)).after ?_ (by decide))

theorem withdrawLower_keep {tier index : Nat} {r : PageRec} {s : State} {t0 : State} {x1 : PageRec} (h : withdrawLower tier index r s = (t0, x1)) : Keep 2540 s t0 := by
  unfold withdrawLower at h
  try dsimp only at h
  repeat' (first | split at h)
  all_goals try (exact absurd h (by simp only [reduceCtorEq, not_false_eq_true]))
  all_goals try (with_reducible obtain ⟨rfl, rfl⟩ := Prod.mk.inj h)
  iterate 30 (all_goals try first
    | with_reducible exact Keep.refl _ _
    | with_reducible assumption
    | with_reducible refine (copySlot_keep ..).after ?_ (by decide)
    | with_reducible refine (releaseSlot_keep ..).after ?_ (by decide)
    | with_reducible refine Keep.pairIte (by assumption) (fun _ => ?_)
    | with_reducible refine Keep.pairIteElse (by assumption) (fun _ => ?_)
    | with_reducible refine Keep.ite (fun _ => ?_) (fun _ => ?_)
    | split)
theorem withdrawLower_keepP (tier index : Nat) (r : PageRec) (s : State) : Keep 2540 s (withdrawLower tier index r s).1 := withdrawLower_keep (tier := tier) (index := index) (r := r) (s := s) rfl

theorem withdrawMoves_keep (tier unit : Nat) (s : State) : Keep 67112942 s (withdrawMoves tier unit s) := by
  unfold withdrawMoves
  iterate 30 (all_goals try first
    | with_reducible exact Keep.refl _ _
    | with_reducible assumption
    | (extract_lets +onlyGivenNames zz; refine Keep.cut zz ?_ (fun _ => ?_); (rotate_left; (try clear_value zz); rotate_right; subst zz))
    | (extract_lets +onlyGivenNames zz; subst zz)
    | with_reducible refine (withdrawLower_keep (by assumption)).after ?_ (by decide)
    | with_reducible refine (withdrawLower_keepP ..).after ?_ (by decide)
    | with_reducible refine (spillMove_keep ..).after ?_ (by decide)
    | with_reducible refine (putRec_keep ..).after ?_ (by decide)
    | with_reducible refine Keep.foldl (fun _ _ => ?_) ?_ _
    | with_reducible refine Keep.foldlFst (fun _ _ => ?_) ?_ _
    | with_reducible refine Keep.foldlSnd (fun _ _ => ?_) ?_ _
    | with_reducible refine Keep.ite (fun _ => ?_) (fun _ => ?_)
    | split)

theorem withdrawFolded_keepP (tier unit index : Nat) (r : PageRec) (s : State) : Keep 67112942 s (withdrawFolded tier unit index r s).1 := by
  unfold withdrawFolded
  dsimp only
  have g : Keep 67112942 s (if (r.lowerValid && r.lowerTier == tier && (decide (r.lowerBase ≤ unit) && decide (unit < r.lowerBase + r.slot4k))) = true
      then withdrawLower tier index r s else (s, r)).1 := by
    split
    · exact (withdrawLower_keepP ..).mono (by decide)
    · exact Keep.refl _ _
  generalize (if (r.lowerValid && r.lowerTier == tier && (decide (r.lowerBase ≤ unit) && decide (unit < r.lowerBase + r.slot4k))) = true then withdrawLower tier index r s else (s, r)) = p at g ⊢
  obtain ⟨t, r⟩ := p
  dsimp only at g ⊢
  split
  · exact (foldedPlace_keepP ..).after g (by decide)
  · exact g

theorem withdrawFolded_keep {tier unit index : Nat} {r x : PageRec} {s t : State} (h : withdrawFolded tier unit index r s = (t, x)) : Keep 67112942 s t := by
  have g := withdrawFolded_keepP tier unit index r s
  rw [h] at g
  exact g

theorem withdrawSession_keep (tier unit i : Nat) (s : State) : Keep 67244014 s (withdrawSession tier unit i s) := by
  unfold withdrawSession
  iterate 30 (all_goals try first
    | with_reducible exact Keep.refl _ _
    | with_reducible assumption
    | (extract_lets +onlyGivenNames zz; refine Keep.cut zz ?_ (fun _ => ?_); (rotate_left; (try clear_value zz); rotate_right; subst zz))
    | (extract_lets +onlyGivenNames zz; subst zz)
    | with_reducible refine (withdrawFolded_keep (by assumption)).after ?_ (by decide)
    | with_reducible refine (withdrawFolded_keepP ..).after ?_ (by decide)
    | with_reducible refine (placeMap_keep ..).after ?_ (by decide)
    | with_reducible refine (modSession_keep ..).after ?_ (by decide)
    | with_reducible refine Keep.getD (fun _ _ => ?_) ?_
    | with_reducible refine Keep.foldl (fun _ _ => ?_) ?_ _
    | with_reducible refine Keep.foldlFst (fun _ _ => ?_) ?_ _
    | with_reducible refine Keep.foldlSnd (fun _ _ => ?_) ?_ _
    | with_reducible refine Keep.ite (fun _ => ?_) (fun _ => ?_)
    | split)

theorem withdrawColumn_keep (tier unit i : Nat) (s : State) : Keep 335548398 s (withdrawColumn tier unit i s) := by
  unfold withdrawColumn
  split
  · exact Keep.refl _ _
  · refine (Keep.of_pme _ _).after ?_ (by decide)
    refine Keep.foldlFst (fun _ _ => ?_) ?_ _
    · exact (withdrawFolded_keepP ..).mono (by decide)
    · exact Keep.refl _ _

theorem withdrawUnit_keep (slot tier unit : Nat) (s : State) : Keep 335679470 s (withdrawUnit slot tier unit s) := by
  unfold withdrawUnit
  iterate 30 (all_goals try first
    | with_reducible exact Keep.refl _ _
    | with_reducible assumption
    | (extract_lets +onlyGivenNames zz; refine Keep.cut zz ?_ (fun _ => ?_); (rotate_left; (try clear_value zz); rotate_right; subst zz))
    | (extract_lets +onlyGivenNames zz; subst zz)
    | with_reducible refine (withdrawColumn_keep ..).after ?_ (by decide)
    | with_reducible refine (withdrawSession_keep ..).after ?_ (by decide)
    | with_reducible refine (withdrawMoves_keep ..).after ?_ (by decide)
    | with_reducible refine (setFrc_keep ..).after ?_ (by decide)
    | with_reducible refine (logEv_keep ..).after ?_ (by decide)
    | with_reducible refine (bump_keep ..).after ?_ (by decide)
    | with_reducible refine (setF_keep ..).after ?_ (by decide)
    | with_reducible refine Keep.getD (fun _ _ => ?_) ?_
    | with_reducible refine Keep.foldl (fun _ _ => ?_) ?_ _
    | with_reducible refine Keep.foldlFst (fun _ _ => ?_) ?_ _
    | with_reducible refine Keep.foldlSnd (fun _ _ => ?_) ?_ _
    | with_reducible refine Keep.ite (fun _ => ?_) (fun _ => ?_)
    | split)

theorem cutGangs_keep (n : Nat) (s : State) : Keep 8388608 s (cutGangs n s) := by
  unfold cutGangs
  iterate 30 (all_goals try first
    | with_reducible exact Keep.refl _ _
    | with_reducible assumption
    | (extract_lets +onlyGivenNames zz; refine Keep.cut zz ?_ (fun _ => ?_); (rotate_left; (try clear_value zz); rotate_right; subst zz))
    | (extract_lets +onlyGivenNames zz; subst zz)
    | with_reducible refine (modWheel_keep ..).after ?_ (by decide)
    | with_reducible refine Keep.foldl (fun _ _ => ?_) ?_ _
    | with_reducible refine Keep.foldlFst (fun _ _ => ?_) ?_ _
    | with_reducible refine Keep.foldlSnd (fun _ _ => ?_) ?_ _
    | with_reducible refine Keep.ite (fun _ => ?_) (fun _ => ?_)
    | split)

theorem fenceArray_keep (a : Nat) (s : State) : Keep 1049309182 s (fenceArray a s) := by
  unfold fenceArray
  iterate 30 (all_goals try first
    | with_reducible exact Keep.refl _ _
    | with_reducible assumption
    | (extract_lets +onlyGivenNames zz; refine Keep.cut zz ?_ (fun _ => ?_); (rotate_left; (try clear_value zz); rotate_right; subst zz))
    | (extract_lets +onlyGivenNames zz; subst zz)
    | with_reducible refine (cutGangs_keep ..).after ?_ (by decide)
    | with_reducible refine (partitionFault_keep ..).after ?_ (by decide)
    | with_reducible refine (setF_keep ..).after ?_ (by decide)
    | with_reducible refine Keep.foldl (fun _ _ => ?_) ?_ _
    | with_reducible refine Keep.foldlFst (fun _ _ => ?_) ?_ _
    | with_reducible refine Keep.foldlSnd (fun _ _ => ?_) ?_ _
    | with_reducible refine Keep.ite (fun _ => ?_) (fun _ => ?_)
    | split)

theorem retireUnit_keep (u : Resource) (units : List Nat) (s : State) : Keep 1049325566 s (retireUnit u units s) := by
  unfold retireUnit
  iterate 30 (all_goals try first
    | with_reducible exact Keep.refl _ _
    | with_reducible assumption
    | (extract_lets +onlyGivenNames zz; refine Keep.cut zz ?_ (fun _ => ?_); (rotate_left; (try clear_value zz); rotate_right; subst zz))
    | (extract_lets +onlyGivenNames zz; subst zz)
    | with_reducible refine (fenceArray_keep ..).after ?_ (by decide)
    | with_reducible refine (withdrawUnit_keep ..).after ?_ (by decide)
    | with_reducible refine (mapOutBank_keep ..).after ?_ (by decide)
    | with_reducible refine (portOut_keep ..).after ?_ (by decide)
    | with_reducible refine (driveOut_keep ..).after ?_ (by decide)
    | with_reducible refine (raiseErr_keep ..).after ?_ (by decide)
    | with_reducible refine (goFatal_keep ..).after ?_ (by decide)
    | with_reducible refine (setFrc_keep ..).after ?_ (by decide)
    | with_reducible refine (logFull_keep ..).after ?_ (by decide)
    | with_reducible refine (setF_keep ..).after ?_ (by decide)
    | with_reducible refine Keep.foldl (fun _ _ => ?_) ?_ _
    | with_reducible refine Keep.foldlFst (fun _ _ => ?_) ?_ _
    | with_reducible refine Keep.foldlSnd (fun _ _ => ?_) ?_ _
    | with_reducible refine Keep.ite (fun _ => ?_) (fun _ => ?_)
    | split
    | with_reducible refine (Keep.of_mgc _ _ (by rfl) (by rfl)).after ?_ (by decide))

theorem returnUnit_keep (u : Resource) (s : State) : Keep 8194 s (returnUnit u s) := by
  unfold returnUnit
  iterate 30 (all_goals try first
    | with_reducible exact Keep.refl _ _
    | with_reducible assumption
    | (extract_lets +onlyGivenNames zz; refine Keep.cut zz ?_ (fun _ => ?_); (rotate_left; (try clear_value zz); rotate_right; subst zz))
    | (extract_lets +onlyGivenNames zz; subst zz)
    | with_reducible refine (setF_keep ..).after ?_ (by decide)
    | with_reducible refine Keep.ite (fun _ => ?_) (fun _ => ?_)
    | split
    | with_reducible refine (Keep.of_mgc _ _ (by rfl) (by rfl)).after ?_ (by decide))

theorem addTransient_keep (u : Resource) (s : State) : Keep 1024 s (addTransient u s) := by
  unfold addTransient
  iterate 30 (all_goals try first
    | with_reducible exact Keep.refl _ _
    | with_reducible assumption
    | (extract_lets +onlyGivenNames zz; refine Keep.cut zz ?_ (fun _ => ?_); (rotate_left; (try clear_value zz); rotate_right; subst zz))
    | (extract_lets +onlyGivenNames zz; subst zz)
    | with_reducible refine (setFrc_keep ..).after ?_ (by decide)
    | with_reducible refine Keep.ite (fun _ => ?_) (fun _ => ?_)
    | split)

theorem testEntry_keep (slot y1 resource result : Nat) (retired : Bool) (s : State) : Keep 3598 s (testEntry slot y1 resource result retired s) := by
  unfold testEntry
  iterate 30 (all_goals try first
    | with_reducible exact Keep.refl _ _
    | with_reducible assumption
    | (extract_lets +onlyGivenNames zz; refine Keep.cut zz ?_ (fun _ => ?_); (rotate_left; (try clear_value zz); rotate_right; subst zz))
    | (extract_lets +onlyGivenNames zz; subst zz)
    | with_reducible refine (finishEntry_keep ..).after ?_ (by decide)
    | with_reducible refine (setElog_keep ..).after ?_ (by decide)
    | with_reducible refine (satAdd_keep ..).after ?_ (by decide)
    | with_reducible refine (setF_keep ..).after ?_ (by decide)
    | with_reducible refine Keep.ite (fun _ => ?_) (fun _ => ?_)
    | split)

theorem reportTest_keep (t : SelfTest) (result : Nat) (s : State) : Keep 3598 s (reportTest t result s) := by
  unfold reportTest
  iterate 30 (all_goals try first
    | with_reducible exact Keep.refl _ _
    | with_reducible assumption
    | (extract_lets +onlyGivenNames zz; refine Keep.cut zz ?_ (fun _ => ?_); (rotate_left; (try clear_value zz); rotate_right; subst zz))
    | (extract_lets +onlyGivenNames zz; subst zz)
    | with_reducible refine (testEntry_keep ..).after ?_ (by decide)
    | with_reducible refine (nextHandler_keep ..).after ?_ (by decide)
    | with_reducible refine (finishEntry_keep ..).after ?_ (by decide)
    | with_reducible refine (modEntry_keep ..).after ?_ (by decide)
    | with_reducible refine (setF_keep ..).after ?_ (by decide)
    | with_reducible refine Keep.ite (fun _ => ?_) (fun _ => ?_)
    | split)

theorem testDone_keep (u : Resource) (passed : Bool) (units : List Nat) (s : State) : Keep 1049325566 s (testDone u passed units s) := by
  unfold testDone
  iterate 30 (all_goals try first
    | with_reducible exact Keep.refl _ _
    | with_reducible assumption
    | (extract_lets +onlyGivenNames zz; refine Keep.cut zz ?_ (fun _ => ?_); (rotate_left; (try clear_value zz); rotate_right; subst zz))
    | (extract_lets +onlyGivenNames zz; subst zz)
    | with_reducible refine (reportTest_keep ..).after ?_ (by decide)
    | with_reducible refine (addTransient_keep ..).after ?_ (by decide)
    | with_reducible refine (returnUnit_keep ..).after ?_ (by decide)
    | with_reducible refine (retireUnit_keep ..).after ?_ (by decide)
    | with_reducible refine (setFrc_keep ..).after ?_ (by decide)
    | with_reducible refine (bump_keep ..).after ?_ (by decide)
    | with_reducible refine Keep.ite (fun _ => ?_) (fun _ => ?_)
    | split)

theorem operatorTest_keep (slot resource kind : Nat) (s : State) : Keep 536874510 s (operatorTest slot resource kind s) := by
  unfold operatorTest
  iterate 30 (all_goals try first
    | with_reducible exact Keep.refl _ _
    | with_reducible assumption
    | (extract_lets +onlyGivenNames zz; refine Keep.cut zz ?_ (fun _ => ?_); (rotate_left; (try clear_value zz); rotate_right; subst zz))
    | (extract_lets +onlyGivenNames zz; subst zz)
    | with_reducible refine (testEntry_keep ..).after ?_ (by decide)
    | with_reducible refine (announceAll_keep ..).after ?_ (by decide)
    | with_reducible refine (dropPort_keep ..).after ?_ (by decide)
    | with_reducible refine (setFrc_keep ..).after ?_ (by decide)
    | with_reducible refine (bump_keep ..).after ?_ (by decide)
    | with_reducible refine (setF_keep ..).after ?_ (by decide)
    | with_reducible refine Keep.ite (fun _ => ?_) (fun _ => ?_)
    | split)

end Sys2Proof.Machine
end

