-- ==== Sys2Proof/Laws/KeepWindowRows.lean ====
section
/-!
SUPPORT. Laws/KeepWindowRows.lean: what each operation of Machine/WindowRows.lean can change (Laws/Keep.lean).
-/
set_option Elab.async false
set_option linter.all false
namespace Sys2Proof.Machine

open Sys2Proof

theorem bodyOf_keepD {op : Nat} {c : Cmd} {b : Nat} {s : State} {t0 : State} {r0 : Reply} (h : bodyOf op c b s = .done t0 r0) : Keep 1056649214 s t0 := by
  unfold bodyOf at h
  split at h
  all_goals first
    | with_reducible exact (sessionOpen_keepD h).mono (by decide)
    | with_reducible exact (sessionSet_keepD h).mono (by decide)
    | with_reducible exact (sessionRead_keepD h).mono (by decide)
    | with_reducible exact (historyRead_keepD h).mono (by decide)
    | with_reducible exact (turnSubmit_keepD h).mono (by decide)
    | with_reducible exact (shard_keepD h).mono (by decide)
    | with_reducible exact (modelBind_keepD h).mono (by decide)
    | with_reducible exact (tailBind_keepD h).mono (by decide)
    | with_reducible exact (adapterLoad_keepD h).mono (by decide)
    | with_reducible exact (wheelAttach_keepD h).mono (by decide)
    | with_reducible exact (prefixLookup_keepD h).mono (by decide)
    | with_reducible exact (nextMatch_keepD h).mono (by decide)
    | with_reducible exact (tierRead_keepD h).mono (by decide)
    | with_reducible exact (tierWrite_keepD h).mono (by decide)
    | with_reducible exact (tierCopy_keepD h).mono (by decide)
    | with_reducible exact (windowPublish_keepD h).mono (by decide)
    | with_reducible exact (groupSet_keepD h).mono (by decide)
    | with_reducible exact (wrSubmit_keepD h).mono (by decide)
    | with_reducible exact (wrPost_keepD h).mono (by decide)
    | with_reducible exact (capsuleRead_keepD h).mono (by decide)
    | with_reducible exact (replayRun_keepD h).mono (by decide)
    | exact absurd h (by simp only [Res.fail, reduceCtorEq, not_false_eq_true])

theorem bodyOf_keepW {op : Nat} {c : Cmd} {b : Nat} {s : State} {t0 : State} (h : bodyOf op c b s = .wait t0) : Keep 1056649214 s t0 := by
  unfold bodyOf at h
  split at h
  all_goals first
    | with_reducible exact (sessionOpen_keepW h).mono (by decide)
    | with_reducible exact (sessionSet_keepW h).mono (by decide)
    | with_reducible exact (sessionRead_keepW h).mono (by decide)
    | with_reducible exact (historyRead_keepW h).mono (by decide)
    | with_reducible exact (turnSubmit_keepW h).mono (by decide)
    | with_reducible exact (shard_keepW h).mono (by decide)
    | with_reducible exact (modelBind_keepW h).mono (by decide)
    | with_reducible exact (tailBind_keepW h).mono (by decide)
    | with_reducible exact (adapterLoad_keepW h).mono (by decide)
    | with_reducible exact (wheelAttach_keepW h).mono (by decide)
    | with_reducible exact (prefixLookup_keepW h).mono (by decide)
    | with_reducible exact (nextMatch_keepW h).mono (by decide)
    | with_reducible exact (tierRead_keepW h).mono (by decide)
    | with_reducible exact (tierWrite_keepW h).mono (by decide)
    | with_reducible exact (tierCopy_keepW h).mono (by decide)
    | with_reducible exact (windowPublish_keepW h).mono (by decide)
    | with_reducible exact (groupSet_keepW h).mono (by decide)
    | with_reducible exact (wrSubmit_keepW h).mono (by decide)
    | with_reducible exact (wrPost_keepW h).mono (by decide)
    | with_reducible exact (capsuleRead_keepW h).mono (by decide)
    | with_reducible exact (replayRun_keepW h).mono (by decide)
    | exact absurd h (by simp only [Res.fail, reduceCtorEq, not_false_eq_true])

theorem runWait_keep (w : WinWait) (s : State) : Keep 1056649214 s (runWait w s) := by
  unfold runWait
  split
  · exact (hostReadGo_keep ..).mono (by decide)
  · exact (hostWriteGo_keep ..).mono (by decide)
  · split
    · exact startBody_keep (by decide) (fun h => (bodyOf_keepD h).mono (by decide)) (fun h => (bodyOf_keepW h).mono (by decide))
    · exact runBody_keep (by decide) (fun h => (bodyOf_keepD h).mono (by decide)) (fun h => (bodyOf_keepW h).mono (by decide))
  · exact (placePacket_keep ..).mono (by decide)
  · exact (resumeWork_keep ..).mono (by decide)
  · exact (transferDone_keep ..).mono (by decide)
  · exact (complete_keep ..).mono (by decide)

theorem settleLoop_keep (y0 : Nat) (y1 : State) : Keep 1056649214 y1 (settleLoop y0 y1) := by
  induction y0 generalizing y1 with
  | zero => exact Keep.refl _ _
  | succ n ih =>
    unfold settleLoop
    iterate 30 (all_goals try first
      | with_reducible exact Keep.refl _ _
      | with_reducible assumption
      | (extract_lets +onlyGivenNames zz; refine Keep.cut zz ?_ (fun _ => ?_); (rotate_left; (try clear_value zz); rotate_right; subst zz))
      | (extract_lets +onlyGivenNames zz; subst zz)
      | with_reducible refine (ih ..).after ?_ (by decide)
      | with_reducible refine (runWait_keep ..).after ?_ (by decide)
      | with_reducible refine Keep.ite (fun _ => ?_) (fun _ => ?_)
      | split
      | with_reducible refine (Keep.of_cwp _ _).after ?_ (by decide))

theorem settleWaits_keep (s : State) : Keep 1056649214 s (settleWaits s) := by
  unfold settleWaits
  iterate 30 (all_goals try first
    | with_reducible exact Keep.refl _ _
    | with_reducible assumption
    | with_reducible refine (settleLoop_keep ..).after ?_ (by decide)
    | with_reducible refine (trimSupplies_keep ..).after ?_ (by decide)
    | with_reducible refine Keep.ite (fun _ => ?_) (fun _ => ?_)
    | split)

theorem hostMemRead_keep (ld line : Nat) (grant : LineGrant) (s : State) : Keep 1056649214 s (hostMemRead ld line grant s) := by
  unfold hostMemRead
  iterate 30 (all_goals try first
    | with_reducible exact Keep.refl _ _
    | with_reducible assumption
    | with_reducible refine (settleWaits_keep ..).after ?_ (by decide)
    | with_reducible refine (hostPartner_keep ..).after ?_ (by decide)
    | with_reducible refine (hostRead_keep ..).after ?_ (by decide)
    | with_reducible refine (emit_keep ..).after ?_ (by decide)
    | with_reducible refine Keep.ite (fun _ => ?_) (fun _ => ?_)
    | split)

theorem hostMemWrite_keep (ld line mask : Nat) (bytes : List Byte) (s : State) : Keep 1056649214 s (hostMemWrite ld line mask bytes s) := by
  unfold hostMemWrite
  iterate 30 (all_goals try first
    | with_reducible exact Keep.refl _ _
    | with_reducible assumption
    | with_reducible refine (settleWaits_keep ..).after ?_ (by decide)
    | with_reducible refine (hostPartner_keep ..).after ?_ (by decide)
    | with_reducible refine (hostWrite_keep ..).after ?_ (by decide)
    | with_reducible refine (emit_keep ..).after ?_ (by decide)
    | with_reducible refine Keep.ite (fun _ => ?_) (fun _ => ?_)
    | split)

theorem hostIoRequest_keep (ld : Nat) (req : IoRequest) (s : State) : Keep 1056649214 s (hostIoRequest ld req s) := by
  unfold hostIoRequest
  iterate 30 (all_goals try first
    | with_reducible exact Keep.refl _ _
    | with_reducible assumption
    | (extract_lets +onlyGivenNames zz; refine Keep.cut zz ?_ (fun _ => ?_); (rotate_left; (try clear_value zz); rotate_right; subst zz))
    | (extract_lets +onlyGivenNames zz; subst zz)
    | with_reducible refine (settleWaits_keep ..).after ?_ (by decide)
    | with_reducible refine (hostPartner_keep ..).after ?_ (by decide)
    | with_reducible refine (logEv_keep ..).after ?_ (by decide)
    | with_reducible refine (emit_keep ..).after ?_ (by decide)
    | with_reducible refine Keep.ite (fun _ => ?_) (fun _ => ?_)
    | split)

theorem bisnpResponse_keep (host line : Nat) (data : Option (List Byte)) (s : State) : Keep 1056649214 s (bisnpResponse host line data s) := by
  unfold bisnpResponse
  iterate 30 (all_goals try first
    | with_reducible exact Keep.refl _ _
    | with_reducible assumption
    | (extract_lets +onlyGivenNames zz; refine Keep.cut zz ?_ (fun _ => ?_); (rotate_left; (try clear_value zz); rotate_right; subst zz))
    | (extract_lets +onlyGivenNames zz; subst zz)
    | with_reducible refine (settleWaits_keep ..).after ?_ (by decide)
    | with_reducible refine (shareHolder_keep ..).after ?_ (by decide)
    | with_reducible refine (dropHolder_keep ..).after ?_ (by decide)
    | with_reducible refine (removalRecall_keep ..).after ?_ (by decide)
    | with_reducible refine (t1Write_keep ..).after ?_ (by decide)
    | with_reducible refine Keep.ite (fun _ => ?_) (fun _ => ?_)
    | split
    | with_reducible refine (Keep.of_cwp _ _).after ?_ (by decide))

theorem recallTimeout_keep (host line : Nat) (s : State) : Keep 1056649214 s (recallTimeout host line s) := by
  unfold recallTimeout
  iterate 30 (all_goals try first
    | with_reducible exact Keep.refl _ _
    | with_reducible assumption
    | with_reducible refine (settleWaits_keep ..).after ?_ (by decide)
    | with_reducible refine (hostDead_keep ..).after ?_ (by decide)
    | with_reducible refine (logEv_keep ..).after ?_ (by decide)
    | with_reducible refine (bump_keep ..).after ?_ (by decide)
    | with_reducible refine Keep.ite (fun _ => ?_) (fun _ => ?_)
    | split)

theorem extentWipeDone_keep (e : Nat) (s : State) : Keep 1056649214 s (extentWipeDone e s) := by
  unfold extentWipeDone
  iterate 30 (all_goals try first
    | with_reducible exact Keep.refl _ _
    | with_reducible assumption
    | (extract_lets +onlyGivenNames zz; refine Keep.cut zz ?_ (fun _ => ?_); (rotate_left; (try clear_value zz); rotate_right; subst zz))
    | (extract_lets +onlyGivenNames zz; subst zz)
    | with_reducible refine (settleWaits_keep ..).after ?_ (by decide)
    | with_reducible refine (zeroRange_keep ..).after ?_ (by decide)
    | with_reducible refine (complete_keep ..).after ?_ (by decide)
    | with_reducible refine (bump_keep ..).after ?_ (by decide)
    | with_reducible refine (setF_keep ..).after ?_ (by decide)
    | with_reducible refine Keep.ite (fun _ => ?_) (fun _ => ?_)
    | split
    | with_reducible refine (Keep.of_cwp _ _).after ?_ (by decide))

theorem showPresent_keep (s : State) : Keep 2 s (showPresent s) := by
  unfold showPresent
  iterate 30 (all_goals try first
    | with_reducible exact Keep.refl _ _
    | with_reducible assumption
    | with_reducible refine (setFlag_keep ..).after ?_ (by decide)
    | with_reducible refine Keep.foldl (fun _ _ => ?_) ?_ _
    | with_reducible refine Keep.foldlFst (fun _ _ => ?_) ?_ _
    | with_reducible refine Keep.foldlSnd (fun _ _ => ?_) ?_ _
    | with_reducible refine Keep.ite (fun _ => ?_) (fun _ => ?_)
    | split)

theorem bindLd_keep (ld : Nat) (s : State) : Keep 514 s (bindLd ld s) := by
  unfold bindLd
  iterate 30 (all_goals try first
    | with_reducible exact Keep.refl _ _
    | with_reducible assumption
    | (extract_lets +onlyGivenNames zz; refine Keep.cut zz ?_ (fun _ => ?_); (rotate_left; (try clear_value zz); rotate_right; subst zz))
    | (extract_lets +onlyGivenNames zz; subst zz)
    | with_reducible refine (showPresent_keep ..).after ?_ (by decide)
    | with_reducible refine (setF_keep ..).after ?_ (by decide)
    | with_reducible refine Keep.ite (fun _ => ?_) (fun _ => ?_)
    | split
    | with_reducible refine (Keep.of_hif _ _).after ?_ (by decide))

theorem ldBind_keep (ld : Nat) (s : State) : Keep 514 s (ldBind ld s) := by
  unfold ldBind
  iterate 30 (all_goals try first
    | with_reducible exact Keep.refl _ _
    | with_reducible assumption
    | with_reducible refine (bindLd_keep ..).after ?_ (by decide)
    | with_reducible refine Keep.ite (fun _ => ?_) (fun _ => ?_)
    | split)

theorem unbindLd_keep (ld : Nat) (s : State) : Keep 514 s (unbindLd ld s) := by
  unfold unbindLd
  iterate 30 (all_goals try first
    | with_reducible exact Keep.refl _ _
    | with_reducible assumption
    | (extract_lets +onlyGivenNames zz; refine Keep.cut zz ?_ (fun _ => ?_); (rotate_left; (try clear_value zz); rotate_right; subst zz))
    | (extract_lets +onlyGivenNames zz; subst zz)
    | with_reducible refine (showPresent_keep ..).after ?_ (by decide)
    | with_reducible refine (functionLevelReset_keep ..).after ?_ (by decide)
    | with_reducible refine (setF_keep ..).after ?_ (by decide)
    | with_reducible refine Keep.foldl (fun _ _ => ?_) ?_ _
    | with_reducible refine Keep.foldlFst (fun _ _ => ?_) ?_ _
    | with_reducible refine Keep.foldlSnd (fun _ _ => ?_) ?_ _
    | with_reducible refine Keep.ite (fun _ => ?_) (fun _ => ?_)
    | split
    | with_reducible refine (Keep.of_hif _ _).after ?_ (by decide))

theorem ldReset_keep (ld : Nat) (s : State) : Keep 1056649214 s (ldReset ld s) := by
  unfold ldReset
  iterate 30 (all_goals try first
    | with_reducible exact Keep.refl _ _
    | with_reducible assumption
    | (extract_lets +onlyGivenNames zz; refine Keep.cut zz ?_ (fun _ => ?_); (rotate_left; (try clear_value zz); rotate_right; subst zz))
    | (extract_lets +onlyGivenNames zz; subst zz)
    | with_reducible refine (unbindLd_keep ..).after ?_ (by decide)
    | with_reducible refine (settleWaits_keep ..).after ?_ (by decide)
    | with_reducible refine (hostDead_keep ..).after ?_ (by decide)
    | with_reducible refine (bump_keep ..).after ?_ (by decide)
    | with_reducible refine Keep.ite (fun _ => ?_) (fun _ => ?_)
    | split)

theorem linkLost_keep (s : State) : Keep 1056649214 s (linkLost s) := by
  unfold linkLost
  iterate 30 (all_goals try first
    | with_reducible exact Keep.refl _ _
    | with_reducible assumption
    | (extract_lets +onlyGivenNames zz; refine Keep.cut zz ?_ (fun _ => ?_); (rotate_left; (try clear_value zz); rotate_right; subst zz))
    | (extract_lets +onlyGivenNames zz; subst zz)
    | with_reducible refine (unbindLd_keep ..).after ?_ (by decide)
    | with_reducible refine (settleWaits_keep ..).after ?_ (by decide)
    | with_reducible refine (hostDead_keep ..).after ?_ (by decide)
    | with_reducible refine (loseQueues_keep ..).after ?_ (by decide)
    | with_reducible refine (bump_keep ..).after ?_ (by decide)
    | with_reducible refine (setF_keep ..).after ?_ (by decide)
    | with_reducible refine Keep.foldl (fun _ _ => ?_) ?_ _
    | with_reducible refine Keep.foldlFst (fun _ _ => ?_) ?_ _
    | with_reducible refine Keep.foldlSnd (fun _ _ => ?_) ?_ _
    | with_reducible refine Keep.ite (fun _ => ?_) (fun _ => ?_)
    | split)

end Sys2Proof.Machine
end

