-- ==== Sys2Proof/Laws/KeepPower.lean ====
section
/-!
SUPPORT. Laws/KeepPower.lean: what each operation of Machine/Power.lean can change (Laws/Keep.lean).
-/
set_option Elab.async false
set_option linter.all false
namespace Sys2Proof.Machine

open Sys2Proof

/-- A state that takes T0, T1 and their poison from another. -/
theorem keep_takeTiers {k : Nat} {s t : State} (c : Cwp) (h : Keep k s t) (hk : 65632 ||| k = k) : Keep (k ||| 64) s { t with t0 := s.t0, t1 := s.t1, cwp := c } := by
  have b : ∀ i, (k ||| 64).testBit i = false → k.testBit i = false := by
    intro i hi; simp only [Nat.testBit_or, Bool.or_eq_false_iff] at hi; exact hi.1
  constructor
  case t0 => intro _; rfl
  case t1 => intro _; rfl
  case cwp =>
    intro hi
    have := b _ hi
    rw [← hk, Nat.testBit_or] at this
    have z : Nat.testBit 65632 16 = true := by decide
    rw [z] at this; exact absurd this (by simp)
  case mem => exact fun m => ⟨m.1, m.2.1, (h.mem m).2.2.1, (h.mem m).2.2.2⟩
  all_goals first
    | exact fun hi => h.pending (b _ hi) | exact fun hi => h.regs (b _ hi) | exact fun hi => h.ctrs (b _ hi) | exact fun hi => h.out (b _ hi)
    | exact fun hi => h.free (b _ hi) | exact fun hi => h.t2 (b _ hi) | exact fun hi => h.t3 (b _ hi) | exact fun hi => h.hif (b _ hi)
    | exact fun hi => h.frc (b _ hi) | exact fun hi => h.secRest (b _ hi) | exact fun hi => h.fuses (b _ hi) | exact fun hi => h.mgcRest (b _ hi)
    | exact fun hi => h.fatal (b _ hi) | exact fun hi => h.off (b _ hi) | exact fun hi => h.sessions (b _ hi) | exact fun hi => h.incarn (b _ hi)
    | exact fun hi => h.corrupt (b _ hi) | exact fun hi => h.models (b _ hi) | exact fun hi => h.tails (b _ hi) | exact fun hi => h.adapters (b _ hi)
    | exact fun hi => h.wheels (b _ hi) | exact fun hi => h.partSeq (b _ hi) | exact fun hi => h.turns (b _ hi) | exact fun hi => h.tmg (b _ hi)
    | exact fun hi => h.hrc (b _ hi) | exact fun hi => h.pme (b _ hi) | exact fun hi => h.xfe (b _ hi) | exact fun hi => h.slu (b _ hi) | exact fun hi => h.mxg (b _ hi) | exact h.fuse

theorem setMgc_keep (s : State) (m : Mgc) : Keep 57344 s (s.setMgc m) := by
  constructor <;> first | (intro _; rfl) | (intro h; exact absurd h (by decide)) | exact id | exact FuseLe.rfl

theorem survivors_keep (s : State) : Keep 4294967270 s (survivors s) := by
  constructor <;> first | (intro _; rfl) | (intro h; exact absurd h (by decide)) | exact id | exact FuseLe.rfl | exact fun _ => ⟨rfl, rfl, rfl, rfl⟩

theorem reborn_keep (s : State) : Keep 4294967270 s (reborn s) := by
  constructor <;> first | (intro _; rfl) | (intro h; exact absurd h (by decide)) | exact id | exact fun _ => ⟨rfl, rfl, rfl, rfl⟩ | exact fun h => ⟨h, Nat.le_refl _, Nat.le_refl _⟩

/-- A state that takes T0, T1 and their poison from another. -/

theorem keepF_keep (old : State) (f : Fld) (s : State) : Keep 2 s (keepF old f s) := by
  unfold keepF
  iterate 30 (all_goals try first
    | with_reducible exact Keep.refl _ _
    | with_reducible assumption
    | with_reducible refine (setF_keep ..).after ?_ (by decide)
    | with_reducible refine Keep.ite (fun _ => ?_) (fun _ => ?_)
    | split)

theorem warmReset_keep (cause : Nat) (s : State) : Keep 4294967278 s (warmReset cause s) := by
  unfold warmReset
  have g : Keep 4294967278 s (((List.range 16).filter fun n => decide (psLocked ≤ s.pstate n)).foldl
      (fun s n => deallocT3 (extentSpan s n 3).1 (extentSpan s n 3).2 s) s) :=
    Keep.foldl (fun _ _ => (deallocT3_keep ..).mono (by decide)) (Keep.refl _ _) _
  generalize ((List.range 16).filter fun n => decide (psLocked ≤ s.pstate n)).foldl
      (fun s n => deallocT3 (extentSpan s n 3).1 (extentSpan s n 3).2 s) s = u at g
  dsimp only
  refine Keep.foldl (fun _ _ => ?_) ?_ _
  · exact (keepF_keep ..).mono (by decide)
  · refine (setF_keep ..).after (k := 4294967278) ?_ (by decide)
    unfold State.setMgc
    refine (Keep.of_mgc _ { perstHeld := u.mgc.perstHeld } rfl rfl).after (k := 4294967278) ?_ (by decide)
    refine Keep.after (k := 4294967278) (l := 4294967278) ?_ g (by decide)
    exact (keep_takeTiers _ (reborn_keep _) (by decide)).mono (by decide)

theorem powerOn_keep (pos scope sa : Nat) (s : State) : Keep 4294967270 s (powerOn pos scope sa s) := by
  unfold powerOn
  iterate 30 (all_goals try first
    | with_reducible exact Keep.refl _ _
    | with_reducible assumption
    | with_reducible refine (reborn_keep ..).after ?_ (by decide)
    | with_reducible refine (setF_keep ..).after ?_ (by decide)
    | with_reducible refine Keep.ite (fun _ => ?_) (fun _ => ?_)
    | split)

theorem resetCtrl_keep (from_ key warm : Nat) (s : State) : Keep 4294967278 s (resetCtrl from_ key warm s) := by
  unfold resetCtrl
  iterate 30 (all_goals try first
    | with_reducible exact Keep.refl _ _
    | with_reducible assumption
    | with_reducible refine (warmReset_keep ..).after ?_ (by decide)
    | with_reducible refine Keep.ite (fun _ => ?_) (fun _ => ?_)
    | split)

theorem vinExcursion_keep (mv : Nat) (s : State) : Keep 60942 s (vinExcursion mv s) := by
  unfold vinExcursion
  iterate 30 (all_goals try first
    | with_reducible exact Keep.refl _ _
    | with_reducible assumption
    | (extract_lets +onlyGivenNames zz; refine Keep.cut zz ?_ (fun _ => ?_); (rotate_left; (try clear_value zz); rotate_right; subst zz))
    | (extract_lets +onlyGivenNames zz; subst zz)
    | with_reducible refine (setMgc_keep ..).after ?_ (by decide)
    | with_reducible refine (logEv_keep ..).after ?_ (by decide)
    | with_reducible refine (bump_keep ..).after ?_ (by decide)
    | with_reducible refine (setF_keep ..).after ?_ (by decide)
    | with_reducible refine Keep.ite (fun _ => ?_) (fun _ => ?_)
    | split)

theorem showStep_keep (s : State) : Keep 2 s (showStep s) := by
  unfold showStep
  iterate 30 (all_goals try first
    | with_reducible exact Keep.refl _ _
    | with_reducible assumption
    | (extract_lets +onlyGivenNames zz; refine Keep.cut zz ?_ (fun _ => ?_); (rotate_left; (try clear_value zz); rotate_right; subst zz))
    | (extract_lets +onlyGivenNames zz; subst zz)
    | with_reducible refine (setFlag_keep ..).after ?_ (by decide)
    | with_reducible refine (setF_keep ..).after ?_ (by decide)
    | with_reducible refine Keep.ite (fun _ => ?_) (fun _ => ?_)
    | split)

theorem countPeriod_keep (s : State) : Keep 57346 s (countPeriod s) := by
  unfold countPeriod
  iterate 30 (all_goals try first
    | with_reducible exact Keep.refl _ _
    | with_reducible assumption
    | (extract_lets +onlyGivenNames zz; refine Keep.cut zz ?_ (fun _ => ?_); (rotate_left; (try clear_value zz); rotate_right; subst zz))
    | (extract_lets +onlyGivenNames zz; subst zz)
    | with_reducible refine (setMgc_keep ..).after ?_ (by decide)
    | with_reducible refine (satAdd_keep ..).after ?_ (by decide)
    | with_reducible refine Keep.ite (fun _ => ?_) (fun _ => ?_)
    | split)

theorem powerPeriod_keep (vinMv iinMa pinMw : Nat) (s : State) : Keep 57350 s (powerPeriod vinMv iinMa pinMw s) := by
  unfold powerPeriod
  iterate 30 (all_goals try first
    | with_reducible exact Keep.refl _ _
    | with_reducible assumption
    | (extract_lets +onlyGivenNames zz; refine Keep.cut zz ?_ (fun _ => ?_); (rotate_left; (try clear_value zz); rotate_right; subst zz))
    | (extract_lets +onlyGivenNames zz; subst zz)
    | with_reducible refine (countPeriod_keep ..).after ?_ (by decide)
    | with_reducible refine (showStep_keep ..).after ?_ (by decide)
    | with_reducible refine (setMgc_keep ..).after ?_ (by decide)
    | with_reducible refine (bump_keep ..).after ?_ (by decide)
    | with_reducible refine (bumpBy_keep ..).after ?_ (by decide)
    | with_reducible refine (setFlag_keep ..).after ?_ (by decide)
    | with_reducible refine (setF_keep ..).after ?_ (by decide)
    | with_reducible refine Keep.ite (fun _ => ?_) (fun _ => ?_)
    | split)

theorem thermalSample_keep (temps : List (Option Nat)) (s : State) : Keep 60942 s (thermalSample temps s) := by
  unfold thermalSample
  iterate 30 (all_goals try first
    | with_reducible exact Keep.refl _ _
    | with_reducible assumption
    | (extract_lets +onlyGivenNames zz; refine Keep.cut zz ?_ (fun _ => ?_); (rotate_left; (try clear_value zz); rotate_right; subst zz))
    | (extract_lets +onlyGivenNames zz; subst zz)
    | with_reducible refine (showStep_keep ..).after ?_ (by decide)
    | with_reducible refine (setMgc_keep ..).after ?_ (by decide)
    | with_reducible refine (logEv_keep ..).after ?_ (by decide)
    | with_reducible refine (bump_keep ..).after ?_ (by decide)
    | with_reducible refine (setF_keep ..).after ?_ (by decide)
    | with_reducible refine Keep.getD (fun _ _ => ?_) ?_
    | with_reducible refine Keep.foldl (fun _ _ => ?_) ?_ _
    | with_reducible refine Keep.foldlFst (fun _ _ => ?_) ?_ _
    | with_reducible refine Keep.foldlSnd (fun _ _ => ?_) ?_ _
    | with_reducible refine Keep.ite (fun _ => ?_) (fun _ => ?_)
    | split)

theorem setPwr_keep (p : Nat) (s : State) : Keep 6 s (setPwr p s) := by
  unfold setPwr
  iterate 30 (all_goals try first
    | with_reducible exact Keep.refl _ _
    | with_reducible assumption
    | with_reducible refine (bump_keep ..).after ?_ (by decide)
    | with_reducible refine (setF_keep ..).after ?_ (by decide)
    | with_reducible refine Keep.ite (fun _ => ?_) (fun _ => ?_)
    | split)

theorem dropT0_keep (s : State) : Keep 2684420142 s (dropT0 s) := by
  unfold dropT0
  dsimp only
  refine (Keep.of_t0_cwp_mxg _ _ _ _ (fun _ => rfl)).after (k := 2684420142) ?_ (by decide)
  refine Keep.foldl (fun _ _ => (setF_keep ..).mono (by decide)) ?_ _
  exact Keep.foldl (fun _ _ => (dropPort_keep ..).mono (by decide)) (Keep.refl _ _) _

theorem pwrCtrl_keep (from_ target : Nat) (s : State) : Keep 57346 s (pwrCtrl from_ target s) := by
  unfold pwrCtrl
  iterate 30 (all_goals try first
    | with_reducible exact Keep.refl _ _
    | with_reducible assumption
    | (extract_lets +onlyGivenNames zz; refine Keep.cut zz ?_ (fun _ => ?_); (rotate_left; (try clear_value zz); rotate_right; subst zz))
    | (extract_lets +onlyGivenNames zz; subst zz)
    | with_reducible refine (setMgc_keep ..).after ?_ (by decide)
    | with_reducible refine (setF_keep ..).after ?_ (by decide)
    | with_reducible refine Keep.ite (fun _ => ?_) (fun _ => ?_)
    | split)

theorem endPwrRequest_keep (st : Nat) (s : State) : Keep 57346 s (endPwrRequest st s) := by
  unfold endPwrRequest
  iterate 30 (all_goals try first
    | with_reducible exact Keep.refl _ _
    | with_reducible assumption
    | (extract_lets +onlyGivenNames zz; refine Keep.cut zz ?_ (fun _ => ?_); (rotate_left; (try clear_value zz); rotate_right; subst zz))
    | (extract_lets +onlyGivenNames zz; subst zz)
    | with_reducible refine (setMgc_keep ..).after ?_ (by decide)
    | with_reducible refine (setF_keep ..).after ?_ (by decide)
    | with_reducible refine Keep.ite (fun _ => ?_) (fun _ => ?_)
    | split)

theorem transitionDone_keep (s : State) : Keep 2684477486 s (transitionDone s) := by
  unfold transitionDone
  iterate 30 (all_goals try first
    | with_reducible exact Keep.refl _ _
    | with_reducible assumption
    | with_reducible refine (endPwrRequest_keep ..).after ?_ (by decide)
    | with_reducible refine (dropT0_keep ..).after ?_ (by decide)
    | with_reducible refine (setPwr_keep ..).after ?_ (by decide)
    | with_reducible refine Keep.ite (fun _ => ?_) (fun _ => ?_)
    | split)

theorem thermalTrip_keep (sensor reading : Nat) (s : State) : Keep 2684481070 s (thermalTrip sensor reading s) := by
  unfold thermalTrip
  iterate 30 (all_goals try first
    | with_reducible exact Keep.refl _ _
    | with_reducible assumption
    | (extract_lets +onlyGivenNames zz; refine Keep.cut zz ?_ (fun _ => ?_); (rotate_left; (try clear_value zz); rotate_right; subst zz))
    | (extract_lets +onlyGivenNames zz; subst zz)
    | with_reducible refine (endPwrRequest_keep ..).after ?_ (by decide)
    | with_reducible refine (dropT0_keep ..).after ?_ (by decide)
    | with_reducible refine (setPwr_keep ..).after ?_ (by decide)
    | with_reducible refine (setMgc_keep ..).after ?_ (by decide)
    | with_reducible refine (logFull_keep ..).after ?_ (by decide)
    | with_reducible refine Keep.ite (fun _ => ?_) (fun _ => ?_)
    | split)

theorem startPorts_keep (s : State) : Keep 2 s (startPorts s) := by
  unfold startPorts
  iterate 30 (all_goals try first
    | with_reducible exact Keep.refl _ _
    | with_reducible assumption
    | with_reducible refine (setF_keep ..).after ?_ (by decide)
    | with_reducible refine Keep.foldl (fun _ _ => ?_) ?_ _
    | with_reducible refine Keep.foldlFst (fun _ _ => ?_) ?_ _
    | with_reducible refine Keep.foldlSnd (fun _ _ => ?_) ?_ _
    | with_reducible refine Keep.ite (fun _ => ?_) (fun _ => ?_)
    | split)

theorem leaveRom_keep (s : State) : Keep 2 s (leaveRom s) := by
  unfold leaveRom
  iterate 30 (all_goals try first
    | with_reducible exact Keep.refl _ _
    | with_reducible assumption
    | with_reducible refine (startPorts_keep ..).after ?_ (by decide)
    | with_reducible refine (setF_keep ..).after ?_ (by decide)
    | with_reducible refine Keep.ite (fun _ => ?_) (fun _ => ?_)
    | split)

theorem hbmTrained_keep (s : State) : Keep 2 s (hbmTrained s) := by
  unfold hbmTrained
  iterate 30 (all_goals try first
    | with_reducible exact Keep.refl _ _
    | with_reducible assumption
    | (extract_lets +onlyGivenNames zz; refine Keep.cut zz ?_ (fun _ => ?_); (rotate_left; (try clear_value zz); rotate_right; subst zz))
    | (extract_lets +onlyGivenNames zz; subst zz)
    | with_reducible refine (leaveRom_keep ..).after ?_ (by decide)
    | with_reducible refine (setF_keep ..).after ?_ (by decide)
    | with_reducible refine Keep.ite (fun _ => ?_) (fun _ => ?_)
    | split)

theorem showReady_keep (slots : List Nat) (s : State) : Keep 2 s (showReady slots s) := by
  unfold showReady
  iterate 30 (all_goals try first
    | with_reducible exact Keep.refl _ _
    | with_reducible assumption
    | with_reducible refine (setF_keep ..).after ?_ (by decide)
    | with_reducible refine Keep.foldl (fun _ _ => ?_) ?_ _
    | with_reducible refine Keep.foldlFst (fun _ _ => ?_) ?_ _
    | with_reducible refine Keep.foldlSnd (fun _ _ => ?_) ?_ _
    | with_reducible refine Keep.ite (fun _ => ?_) (fun _ => ?_)
    | split)

theorem dimmTrained_keep (modules : List (Option Nat)) (s : State) : Keep 28174 s (dimmTrained modules s) := by
  unfold dimmTrained
  iterate 30 (all_goals try first
    | with_reducible exact Keep.refl _ _
    | with_reducible assumption
    | (extract_lets +onlyGivenNames zz; refine Keep.cut zz ?_ (fun _ => ?_); (rotate_left; (try clear_value zz); rotate_right; subst zz))
    | (extract_lets +onlyGivenNames zz; subst zz)
    | with_reducible refine (showReady_keep ..).after ?_ (by decide)
    | with_reducible refine (leaveRom_keep ..).after ?_ (by decide)
    | with_reducible refine (raiseErr_keep ..).after ?_ (by decide)
    | with_reducible refine (goFatal_keep ..).after ?_ (by decide)
    | with_reducible refine (setF_keep ..).after ?_ (by decide)
    | with_reducible refine Keep.getD (fun _ _ => ?_) ?_
    | with_reducible refine Keep.foldl (fun _ _ => ?_) ?_ _
    | with_reducible refine Keep.foldlFst (fun _ _ => ?_) ?_ _
    | with_reducible refine Keep.foldlSnd (fun _ _ => ?_) ?_ _
    | with_reducible refine Keep.ite (fun _ => ?_) (fun _ => ?_)
    | split)

theorem tryReady_keep (s : State) : Keep 60942 s (tryReady s) := by
  unfold tryReady
  iterate 30 (all_goals try first
    | with_reducible exact Keep.refl _ _
    | with_reducible assumption
    | (extract_lets +onlyGivenNames zz; refine Keep.cut zz ?_ (fun _ => ?_); (rotate_left; (try clear_value zz); rotate_right; subst zz))
    | (extract_lets +onlyGivenNames zz; subst zz)
    | with_reducible refine (startPorts_keep ..).after ?_ (by decide)
    | with_reducible refine (endPwrRequest_keep ..).after ?_ (by decide)
    | with_reducible refine (setPwr_keep ..).after ?_ (by decide)
    | with_reducible refine (logEv_keep ..).after ?_ (by decide)
    | with_reducible refine (setF_keep ..).after ?_ (by decide)
    | with_reducible refine Keep.ite (fun _ => ?_) (fun _ => ?_)
    | split)

theorem wipeTier_keep (k : Nat) (s : State) : Keep 68064 s (wipeTier k s) := by
  unfold wipeTier
  refine (Keep.of_cwp_sec (s.setTier k []) _ _ ?_).after ((setTier_keep _ _ _ (fun _ => rfl)).mono (by decide)) (by decide)
  unfold State.setTier; split <;> rfl

theorem t0WipeDone_keep (s : State) : Keep 126958 s (t0WipeDone s) := by
  unfold t0WipeDone
  iterate 30 (all_goals try first
    | with_reducible exact Keep.refl _ _
    | with_reducible assumption
    | (extract_lets +onlyGivenNames zz; refine Keep.cut zz ?_ (fun _ => ?_); (rotate_left; (try clear_value zz); rotate_right; subst zz))
    | (extract_lets +onlyGivenNames zz; subst zz)
    | with_reducible refine (wipeTier_keep ..).after ?_ (by decide)
    | with_reducible refine (tryReady_keep ..).after ?_ (by decide)
    | with_reducible refine (setF_keep ..).after ?_ (by decide)
    | with_reducible refine Keep.ite (fun _ => ?_) (fun _ => ?_)
    | split)

theorem t1WipeDone_keep (s : State) : Keep 126958 s (t1WipeDone s) := by
  unfold t1WipeDone
  iterate 30 (all_goals try first
    | with_reducible exact Keep.refl _ _
    | with_reducible assumption
    | with_reducible refine (wipeTier_keep ..).after ?_ (by decide)
    | with_reducible refine (tryReady_keep ..).after ?_ (by decide)
    | with_reducible refine (setF_keep ..).after ?_ (by decide)
    | with_reducible refine Keep.ite (fun _ => ?_) (fun _ => ?_)
    | split)

theorem fwLoad_keep (from_ len4k : Nat) (image : Option (List Byte)) (s : State) : Keep 10 s (fwLoad from_ len4k image s) := by
  unfold fwLoad
  iterate 30 (all_goals try first
    | with_reducible exact Keep.refl _ _
    | with_reducible assumption
    | (extract_lets +onlyGivenNames zz; refine Keep.cut zz ?_ (fun _ => ?_); (rotate_left; (try clear_value zz); rotate_right; subst zz))
    | (extract_lets +onlyGivenNames zz; subst zz)
    | with_reducible refine (leaveRom_keep ..).after ?_ (by decide)
    | with_reducible refine (showBytes_keep ..).after ?_ (by decide)
    | with_reducible refine (emit_keep ..).after ?_ (by decide)
    | with_reducible refine (setF_keep ..).after ?_ (by decide)
    | with_reducible refine Keep.getD (fun _ _ => ?_) ?_
    | with_reducible refine Keep.ite (fun _ => ?_) (fun _ => ?_)
    | split)

theorem showTray_keep (t : Nat × Nat × Bool) (s : State) : Keep 2 s (showTray t s) := by
  unfold showTray
  iterate 30 (all_goals try first
    | with_reducible exact Keep.refl _ _
    | with_reducible assumption
    | with_reducible refine (setFlag_keep ..).after ?_ (by decide)
    | with_reducible refine (setF_keep ..).after ?_ (by decide)
    | with_reducible refine Keep.ite (fun _ => ?_) (fun _ => ?_)
    | split)

theorem showDrive_keep (d : DriveFound) (s : State) : Keep 3598 s (showDrive d s) := by
  unfold showDrive
  iterate 30 (all_goals try first
    | with_reducible exact Keep.refl _ _
    | with_reducible assumption
    | (extract_lets +onlyGivenNames zz; refine Keep.cut zz ?_ (fun _ => ?_); (rotate_left; (try clear_value zz); rotate_right; subst zz))
    | (extract_lets +onlyGivenNames zz; subst zz)
    | with_reducible refine (logEv_keep ..).after ?_ (by decide)
    | with_reducible refine (setF_keep ..).after ?_ (by decide)
    | with_reducible refine Keep.ite (fun _ => ?_) (fun _ => ?_)
    | split)

theorem fwValues_keep (v : FwValues) (s : State) : Keep 67112462 s (fwValues v s) := by
  unfold fwValues
  iterate 30 (all_goals try first
    | with_reducible exact Keep.refl _ _
    | with_reducible assumption
    | (extract_lets +onlyGivenNames zz; refine Keep.cut zz ?_ (fun _ => ?_); (rotate_left; (try clear_value zz); rotate_right; subst zz))
    | (extract_lets +onlyGivenNames zz; subst zz)
    | with_reducible refine (showDrive_keep ..).after ?_ (by decide)
    | with_reducible refine (showTray_keep ..).after ?_ (by decide)
    | with_reducible refine (showReady_keep ..).after ?_ (by decide)
    | with_reducible refine (areaAtBoot_keep ..).after ?_ (by decide)
    | with_reducible refine (t3Capacity_keep ..).after ?_ (by decide)
    | with_reducible refine (setTmg_keep ..).after ?_ (by decide)
    | with_reducible refine (setFlag_keep ..).after ?_ (by decide)
    | with_reducible refine (setF_keep ..).after ?_ (by decide)
    | with_reducible refine Keep.foldl (fun _ _ => ?_) ?_ _
    | with_reducible refine Keep.foldlFst (fun _ _ => ?_) ?_ _
    | with_reducible refine Keep.foldlSnd (fun _ _ => ?_) ?_ _
    | with_reducible refine Keep.ite (fun _ => ?_) (fun _ => ?_)
    | split)

theorem fwInitDone_keep (v : FwValues) (s : State) : Keep 67169806 s (fwInitDone v s) := by
  unfold fwInitDone
  iterate 30 (all_goals try first
    | with_reducible exact Keep.refl _ _
    | with_reducible assumption
    | with_reducible refine (fwValues_keep ..).after ?_ (by decide)
    | with_reducible refine (tryReady_keep ..).after ?_ (by decide)
    | with_reducible refine (setF_keep ..).after ?_ (by decide)
    | with_reducible refine Keep.ite (fun _ => ?_) (fun _ => ?_)
    | split)

theorem perst_keep (soon : Bool) (s : State) : Keep 4294967294 s (perst soon s) := by
  unfold perst
  iterate 30 (all_goals try first
    | with_reducible exact Keep.refl _ _
    | with_reducible assumption
    | (extract_lets +onlyGivenNames zz; refine Keep.cut zz ?_ (fun _ => ?_); (rotate_left; (try clear_value zz); rotate_right; subst zz))
    | (extract_lets +onlyGivenNames zz; subst zz)
    | with_reducible refine (warmReset_keep ..).after ?_ (by decide)
    | with_reducible refine (setMgc_keep ..).after ?_ (by decide)
    | with_reducible refine (linkLost_keep ..).after ?_ (by decide)
    | with_reducible refine (setF_keep ..).after ?_ (by decide)
    | with_reducible refine Keep.ite (fun _ => ?_) (fun _ => ?_)
    | split)

theorem hostLinkUp_keep (width : Nat) (mld : Bool) (s : State) : Keep 514 s (hostLinkUp width mld s) := by
  unfold hostLinkUp
  iterate 30 (all_goals try first
    | with_reducible exact Keep.refl _ _
    | with_reducible assumption
    | (extract_lets +onlyGivenNames zz; refine Keep.cut zz ?_ (fun _ => ?_); (rotate_left; (try clear_value zz); rotate_right; subst zz))
    | (extract_lets +onlyGivenNames zz; subst zz)
    | with_reducible refine (bindLd_keep ..).after ?_ (by decide)
    | with_reducible refine (setFlag_keep ..).after ?_ (by decide)
    | with_reducible refine (setF_keep ..).after ?_ (by decide)
    | with_reducible refine Keep.ite (fun _ => ?_) (fun _ => ?_)
    | split)

theorem pinGlitch_keep (pin : Nat) (dropped quiet : Bool) (s : State) : Keep 3598 s (pinGlitch pin dropped quiet s) := by
  unfold pinGlitch
  iterate 30 (all_goals try first
    | with_reducible exact Keep.refl _ _
    | with_reducible assumption
    | (extract_lets +onlyGivenNames zz; refine Keep.cut zz ?_ (fun _ => ?_); (rotate_left; (try clear_value zz); rotate_right; subst zz))
    | (extract_lets +onlyGivenNames zz; subst zz)
    | with_reducible refine (logEv_keep ..).after ?_ (by decide)
    | with_reducible refine (bump_keep ..).after ?_ (by decide)
    | with_reducible refine (satAdd_keep ..).after ?_ (by decide)
    | with_reducible refine Keep.ite (fun _ => ?_) (fun _ => ?_)
    | split)

theorem pinStuck_keep (pin : Nat) (s : State) : Keep 8392206 s (pinStuck pin s) := by
  unfold pinStuck
  iterate 30 (all_goals try first
    | with_reducible exact Keep.refl _ _
    | with_reducible assumption
    | (extract_lets +onlyGivenNames zz; refine Keep.cut zz ?_ (fun _ => ?_); (rotate_left; (try clear_value zz); rotate_right; subst zz))
    | (extract_lets +onlyGivenNames zz; subst zz)
    | with_reducible refine (modWheel_keep ..).after ?_ (by decide)
    | with_reducible refine (logEv_keep ..).after ?_ (by decide)
    | with_reducible refine (satAdd_keep ..).after ?_ (by decide)
    | with_reducible refine (setF_keep ..).after ?_ (by decide)
    | with_reducible refine Keep.foldl (fun _ _ => ?_) ?_ _
    | with_reducible refine Keep.foldlFst (fun _ _ => ?_) ?_ _
    | with_reducible refine Keep.foldlSnd (fun _ _ => ?_) ?_ _
    | with_reducible refine Keep.ite (fun _ => ?_) (fun _ => ?_)
    | split)

theorem pinUnmask_keep (pin : Nat) (s : State) : Keep 3598 s (pinUnmask pin s) := by
  unfold pinUnmask
  iterate 30 (all_goals try first
    | with_reducible exact Keep.refl _ _
    | with_reducible assumption
    | with_reducible refine (logEv_keep ..).after ?_ (by decide)
    | with_reducible refine (setF_keep ..).after ?_ (by decide)
    | with_reducible refine Keep.ite (fun _ => ?_) (fun _ => ?_)
    | split)

end Sys2Proof.Machine
end

