-- ==== Sys2Proof/Laws/KeepStep.lean ====
section
/-!
SUPPORT. Laws/KeepStep.lean: what each command, and a step, can change (Laws/Keep.lean).
-/
set_option Elab.async false
set_option linter.all false
namespace Sys2Proof.Machine

open Sys2Proof

theorem execQueueCreate_keep {c : Cmd} {s : State} {t0 : State} (h : execQueueCreate c s = .next t0) : Keep 77390 s t0 := by
  unfold execQueueCreate at h
  try dsimp only at h
  repeat' (first | split at h)
  all_goals try (exact absurd h (by simp only [reduceCtorEq, not_false_eq_true]))
  all_goals try (with_reducible obtain rfl := Host.Outcome.next.inj h)
  iterate 30 (all_goals try first
    | with_reducible exact Keep.refl _ _
    | with_reducible assumption
    | with_reducible refine hostCmd_keep (by decide) (fun _ => ?_) (fun _ => ?_)
    | with_reducible refine (queueCreate_keepD (by assumption)).after ?_ (by decide)
    | with_reducible refine (queueCreate_keepW (by assumption)).after ?_ (by decide)
    | with_reducible refine Keep.ite (fun _ => ?_) (fun _ => ?_)
    | split)

theorem execQueueDelete_keep {c : Cmd} {s : State} {t0 : State} (h : execQueueDelete c s = .next t0) : Keep 77390 s t0 := by
  unfold execQueueDelete at h
  try dsimp only at h
  repeat' (first | split at h)
  all_goals try (exact absurd h (by simp only [reduceCtorEq, not_false_eq_true]))
  all_goals try (with_reducible obtain rfl := Host.Outcome.next.inj h)
  iterate 30 (all_goals try first
    | with_reducible exact Keep.refl _ _
    | with_reducible assumption
    | with_reducible refine hostCmd_keep (by decide) (fun _ => ?_) (fun _ => ?_)
    | with_reducible refine (queueDelete_keepD (by assumption)).after ?_ (by decide)
    | with_reducible refine (queueDelete_keepW (by assumption)).after ?_ (by decide)
    | with_reducible refine Keep.ite (fun _ => ?_) (fun _ => ?_)
    | split)

theorem execAqCtrlWrite_keep {from_ fn sqSize cqSize en : Nat} {s : State} {t0 : State} (h : execAqCtrlWrite from_ fn sqSize cqSize en s = .next t0) : Keep 1538 s t0 := by
  unfold execAqCtrlWrite at h
  try dsimp only at h
  repeat' (first | split at h)
  all_goals try (exact absurd h (by simp only [reduceCtorEq, not_false_eq_true]))
  all_goals try (with_reducible obtain rfl := Host.Outcome.next.inj h)
  iterate 30 (all_goals try first
    | with_reducible exact Keep.refl _ _
    | with_reducible assumption
    | with_reducible refine powered_keep _ _ (fun _ => ?_)
    | with_reducible refine (aqCtrlWrite_keep ..).after ?_ (by decide)
    | with_reducible refine (countIo_keep ..).after ?_ (by decide)
    | with_reducible refine Keep.ite (fun _ => ?_) (fun _ => ?_)
    | split)

theorem execSqTailDoorbell_keep {fn q value : Nat} {s : State} {t0 : State} (h : execSqTailDoorbell fn q value s = .next t0) : Keep 3598 s t0 := by
  unfold execSqTailDoorbell at h
  try dsimp only at h
  repeat' (first | split at h)
  all_goals try (exact absurd h (by simp only [reduceCtorEq, not_false_eq_true]))
  all_goals try (with_reducible obtain rfl := Host.Outcome.next.inj h)
  iterate 30 (all_goals try first
    | with_reducible exact Keep.refl _ _
    | with_reducible assumption
    | with_reducible refine powered_keep _ _ (fun _ => ?_)
    | with_reducible refine (sqDoorbell_keep ..).after ?_ (by decide)
    | with_reducible refine (countIo_keep ..).after ?_ (by decide)
    | with_reducible refine Keep.ite (fun _ => ?_) (fun _ => ?_)
    | split)

theorem execCqHeadDoorbell_keep {fn q value : Nat} {s : State} {t0 : State} (h : execCqHeadDoorbell fn q value s = .next t0) : Keep 3598 s t0 := by
  unfold execCqHeadDoorbell at h
  try dsimp only at h
  repeat' (first | split at h)
  all_goals try (exact absurd h (by simp only [reduceCtorEq, not_false_eq_true]))
  all_goals try (with_reducible obtain rfl := Host.Outcome.next.inj h)
  iterate 30 (all_goals try first
    | with_reducible exact Keep.refl _ _
    | with_reducible assumption
    | with_reducible refine powered_keep _ _ (fun _ => ?_)
    | with_reducible refine (cqDoorbell_keep ..).after ?_ (by decide)
    | with_reducible refine (countIo_keep ..).after ?_ (by decide)
    | with_reducible refine Keep.ite (fun _ => ?_) (fun _ => ?_)
    | split)

theorem execCommandFetch_keep {fn q : Nat} {entry : List Byte} {s : State} {t0 : State} (h : execCommandFetch fn q entry s = .next t0) : Keep 74316 s t0 := by
  unfold execCommandFetch at h
  try dsimp only at h
  repeat' (first | split at h)
  all_goals try (exact absurd h (by simp only [reduceCtorEq, not_false_eq_true]))
  all_goals try (with_reducible obtain rfl := Host.Outcome.next.inj h)
  iterate 30 (all_goals try first
    | with_reducible exact Keep.refl _ _
    | with_reducible assumption
    | with_reducible refine powered_keep _ _ (fun _ => ?_)
    | with_reducible refine (commandFetch_keep ..).after ?_ (by decide)
    | with_reducible refine Keep.ite (fun _ => ?_) (fun _ => ?_)
    | split)

theorem execCqDelayExpiry_keep {fn q : Nat} {s : State} {t0 : State} (h : execCqDelayExpiry fn q s = .next t0) : Keep 524 s t0 := by
  unfold execCqDelayExpiry at h
  try dsimp only at h
  repeat' (first | split at h)
  all_goals try (exact absurd h (by simp only [reduceCtorEq, not_false_eq_true]))
  all_goals try (with_reducible obtain rfl := Host.Outcome.next.inj h)
  iterate 30 (all_goals try first
    | with_reducible exact Keep.refl _ _
    | with_reducible assumption
    | with_reducible refine powered_keep _ _ (fun _ => ?_)
    | with_reducible refine (cqDelayExpiry_keep ..).after ?_ (by decide)
    | with_reducible refine Keep.ite (fun _ => ?_) (fun _ => ?_)
    | split)

theorem execFunctionLevelReset_keep {fn : Nat} {s : State} {t0 : State} (h : execFunctionLevelReset fn s = .next t0) : Keep 1538 s t0 := by
  unfold execFunctionLevelReset at h
  try dsimp only at h
  repeat' (first | split at h)
  all_goals try (exact absurd h (by simp only [reduceCtorEq, not_false_eq_true]))
  all_goals try (with_reducible obtain rfl := Host.Outcome.next.inj h)
  iterate 30 (all_goals try first
    | with_reducible exact Keep.refl _ _
    | with_reducible assumption
    | with_reducible refine powered_keep _ _ (fun _ => ?_)
    | with_reducible refine (functionLevelReset_keep ..).after ?_ (by decide)
    | with_reducible refine (countIo_keep ..).after ?_ (by decide)
    | with_reducible refine Keep.ite (fun _ => ?_) (fun _ => ?_)
    | split)

theorem execExtentAssign_keep {c : Cmd} {s : State} {t0 : State} (h : execExtentAssign c s = .next t0) : Keep 77390 s t0 := by
  unfold execExtentAssign at h
  try dsimp only at h
  repeat' (first | split at h)
  all_goals try (exact absurd h (by simp only [reduceCtorEq, not_false_eq_true]))
  all_goals try (with_reducible obtain rfl := Host.Outcome.next.inj h)
  iterate 30 (all_goals try first
    | with_reducible exact Keep.refl _ _
    | with_reducible assumption
    | with_reducible refine hostCmd_keep (by decide) (fun _ => ?_) (fun _ => ?_)
    | with_reducible refine (extentAssign_keepD (by assumption)).after ?_ (by decide)
    | with_reducible refine (extentAssign_keepW (by assumption)).after ?_ (by decide)
    | with_reducible refine Keep.ite (fun _ => ?_) (fun _ => ?_)
    | split)

theorem execExtentAddHosts_keep {c : Cmd} {s : State} {t0 : State} (h : execExtentAddHosts c s = .next t0) : Keep 77390 s t0 := by
  unfold execExtentAddHosts at h
  try dsimp only at h
  repeat' (first | split at h)
  all_goals try (exact absurd h (by simp only [reduceCtorEq, not_false_eq_true]))
  all_goals try (with_reducible obtain rfl := Host.Outcome.next.inj h)
  iterate 30 (all_goals try first
    | with_reducible exact Keep.refl _ _
    | with_reducible assumption
    | with_reducible refine hostCmd_keep (by decide) (fun _ => ?_) (fun _ => ?_)
    | with_reducible refine (extentAddHosts_keepD (by assumption)).after ?_ (by decide)
    | with_reducible refine (extentAddHosts_keepW (by assumption)).after ?_ (by decide)
    | with_reducible refine Keep.ite (fun _ => ?_) (fun _ => ?_)
    | split)

theorem execExtentRemove_keep {c : Cmd} {s : State} {t0 : State} (h : execExtentRemove c s = .next t0) : Keep 77390 s t0 := by
  unfold execExtentRemove at h
  try dsimp only at h
  repeat' (first | split at h)
  all_goals try (exact absurd h (by simp only [reduceCtorEq, not_false_eq_true]))
  all_goals try (with_reducible obtain rfl := Host.Outcome.next.inj h)
  iterate 30 (all_goals try first
    | with_reducible exact Keep.refl _ _
    | with_reducible assumption
    | with_reducible refine hostCmd_keep (by decide) (fun _ => ?_) (fun _ => ?_)
    | with_reducible refine (extentRemove_keepD (by assumption)).after ?_ (by decide)
    | with_reducible refine (extentRemove_keepW (by assumption)).after ?_ (by decide)
    | with_reducible refine Keep.ite (fun _ => ?_) (fun _ => ?_)
    | split)

theorem execTierRead_keep {c : Cmd} {s : State} {t0 : State} (h : execTierRead c s = .next t0) : Keep 67186254 s t0 := by
  unfold execTierRead at h
  try dsimp only at h
  repeat' (first | split at h)
  all_goals try (exact absurd h (by simp only [reduceCtorEq, not_false_eq_true]))
  all_goals try (with_reducible obtain rfl := Host.Outcome.next.inj h)
  iterate 30 (all_goals try first
    | with_reducible exact Keep.refl _ _
    | with_reducible assumption
    | with_reducible refine hostCmd_keep (by decide) (fun _ => ?_) (fun _ => ?_)
    | with_reducible refine (tierRead_keepD (by assumption)).after ?_ (by decide)
    | with_reducible refine (tierRead_keepW (by assumption)).after ?_ (by decide)
    | with_reducible refine Keep.ite (fun _ => ?_) (fun _ => ?_)
    | split)

theorem execTierWrite_keep {c : Cmd} {s : State} {t0 : State} (h : execTierWrite c s = .next t0) : Keep 67186686 s t0 := by
  unfold execTierWrite at h
  try dsimp only at h
  repeat' (first | split at h)
  all_goals try (exact absurd h (by simp only [reduceCtorEq, not_false_eq_true]))
  all_goals try (with_reducible obtain rfl := Host.Outcome.next.inj h)
  iterate 30 (all_goals try first
    | with_reducible exact Keep.refl _ _
    | with_reducible assumption
    | with_reducible refine hostCmd_keep (by decide) (fun _ => ?_) (fun _ => ?_)
    | with_reducible refine (tierWrite_keepD (by assumption)).after ?_ (by decide)
    | with_reducible refine (tierWrite_keepW (by assumption)).after ?_ (by decide)
    | with_reducible refine Keep.ite (fun _ => ?_) (fun _ => ?_)
    | split)

theorem execTierCopy_keep {c : Cmd} {s : State} {t0 : State} (h : execTierCopy c s = .next t0) : Keep 67186686 s t0 := by
  unfold execTierCopy at h
  try dsimp only at h
  repeat' (first | split at h)
  all_goals try (exact absurd h (by simp only [reduceCtorEq, not_false_eq_true]))
  all_goals try (with_reducible obtain rfl := Host.Outcome.next.inj h)
  iterate 30 (all_goals try first
    | with_reducible exact Keep.refl _ _
    | with_reducible assumption
    | with_reducible refine hostCmd_keep (by decide) (fun _ => ?_) (fun _ => ?_)
    | with_reducible refine (tierCopy_keepD (by assumption)).after ?_ (by decide)
    | with_reducible refine (tierCopy_keepW (by assumption)).after ?_ (by decide)
    | with_reducible refine Keep.ite (fun _ => ?_) (fun _ => ?_)
    | split)

theorem execWindowPublish_keep {c : Cmd} {s : State} {t0 : State} (h : execWindowPublish c s = .next t0) : Keep 77390 s t0 := by
  unfold execWindowPublish at h
  try dsimp only at h
  repeat' (first | split at h)
  all_goals try (exact absurd h (by simp only [reduceCtorEq, not_false_eq_true]))
  all_goals try (with_reducible obtain rfl := Host.Outcome.next.inj h)
  iterate 30 (all_goals try first
    | with_reducible exact Keep.refl _ _
    | with_reducible assumption
    | with_reducible refine hostCmd_keep (by decide) (fun _ => ?_) (fun _ => ?_)
    | with_reducible refine (windowPublish_keepD (by assumption)).after ?_ (by decide)
    | with_reducible refine (windowPublish_keepW (by assumption)).after ?_ (by decide)
    | with_reducible refine Keep.ite (fun _ => ?_) (fun _ => ?_)
    | split)

theorem execSluiceHogCutoff_keep {y0 addr : Nat} {s : State} {t0 : State} (h : execSluiceHogCutoff y0 addr s = .next t0) : Keep 1610616334 s t0 := by
  unfold execSluiceHogCutoff at h
  try dsimp only at h
  repeat' (first | split at h)
  all_goals try (exact absurd h (by simp only [reduceCtorEq, not_false_eq_true]))
  all_goals try (with_reducible obtain rfl := Host.Outcome.next.inj h)
  iterate 30 (all_goals try first
    | with_reducible exact Keep.refl _ _
    | with_reducible assumption
    | with_reducible refine powered_keep _ _ (fun _ => ?_)
    | with_reducible refine (sluHog_keep ..).after ?_ (by decide)
    | with_reducible refine Keep.ite (fun _ => ?_) (fun _ => ?_)
    | split)

theorem execSluiceWindowBoundary_keep {y0 : Nat} {s : State} {t0 : State} (h : execSluiceWindowBoundary y0 s = .next t0) : Keep 1073741826 s t0 := by
  unfold execSluiceWindowBoundary at h
  try dsimp only at h
  repeat' (first | split at h)
  all_goals try (exact absurd h (by simp only [reduceCtorEq, not_false_eq_true]))
  all_goals try (with_reducible obtain rfl := Host.Outcome.next.inj h)
  iterate 30 (all_goals try first
    | with_reducible exact Keep.refl _ _
    | with_reducible assumption
    | with_reducible refine powered_keep _ _ (fun _ => ?_)
    | with_reducible refine (sluWindow_keep ..).after ?_ (by decide)
    | with_reducible refine Keep.ite (fun _ => ?_) (fun _ => ?_)
    | split)

theorem execSessionOpen_keep {c : Cmd} {s : State} {t0 : State} (h : execSessionOpen c s = .next t0) : Keep 1049309182 s t0 := by
  unfold execSessionOpen at h
  try dsimp only at h
  repeat' (first | split at h)
  all_goals try (exact absurd h (by simp only [reduceCtorEq, not_false_eq_true]))
  all_goals try (with_reducible obtain rfl := Host.Outcome.next.inj h)
  iterate 30 (all_goals try first
    | with_reducible exact Keep.refl _ _
    | with_reducible assumption
    | with_reducible refine hostCmd_keep (by decide) (fun _ => ?_) (fun _ => ?_)
    | with_reducible refine (sessionOpen_keepD (by assumption)).after ?_ (by decide)
    | with_reducible refine (sessionOpen_keepW (by assumption)).after ?_ (by decide)
    | with_reducible refine Keep.ite (fun _ => ?_) (fun _ => ?_)
    | split)

theorem execSessionClose_keep {c : Cmd} {s : State} {t0 : State} (h : execSessionClose c s = .next t0) : Keep 1053765630 s t0 := by
  unfold execSessionClose at h
  try dsimp only at h
  repeat' (first | split at h)
  all_goals try (exact absurd h (by simp only [reduceCtorEq, not_false_eq_true]))
  all_goals try (with_reducible obtain rfl := Host.Outcome.next.inj h)
  iterate 30 (all_goals try first
    | with_reducible exact Keep.refl _ _
    | with_reducible assumption
    | with_reducible refine hostCmd_keep (by decide) (fun _ => ?_) (fun _ => ?_)
    | with_reducible refine (sessionClose_keepD (by assumption)).after ?_ (by decide)
    | with_reducible refine (sessionClose_keepW (by assumption)).after ?_ (by decide)
    | with_reducible refine Keep.ite (fun _ => ?_) (fun _ => ?_)
    | split)

theorem execSessionPark_keep {c : Cmd} {s : State} {t0 : State} (h : execSessionPark c s = .next t0) : Keep 1049309182 s t0 := by
  unfold execSessionPark at h
  try dsimp only at h
  repeat' (first | split at h)
  all_goals try (exact absurd h (by simp only [reduceCtorEq, not_false_eq_true]))
  all_goals try (with_reducible obtain rfl := Host.Outcome.next.inj h)
  iterate 30 (all_goals try first
    | with_reducible exact Keep.refl _ _
    | with_reducible assumption
    | with_reducible refine hostCmd_keep (by decide) (fun _ => ?_) (fun _ => ?_)
    | with_reducible refine (sessionPark_keepD (by assumption)).after ?_ (by decide)
    | with_reducible refine (sessionPark_keepW (by assumption)).after ?_ (by decide)
    | with_reducible refine Keep.ite (fun _ => ?_) (fun _ => ?_)
    | split)

theorem execSessionRebind_keep {c : Cmd} {s : State} {t0 : State} (h : execSessionRebind c s = .next t0) : Keep 1053503486 s t0 := by
  unfold execSessionRebind at h
  try dsimp only at h
  repeat' (first | split at h)
  all_goals try (exact absurd h (by simp only [reduceCtorEq, not_false_eq_true]))
  all_goals try (with_reducible obtain rfl := Host.Outcome.next.inj h)
  iterate 30 (all_goals try first
    | with_reducible exact Keep.refl _ _
    | with_reducible assumption
    | with_reducible refine hostCmd_keep (by decide) (fun _ => ?_) (fun _ => ?_)
    | with_reducible refine (sessionRebind_keepD (by assumption)).after ?_ (by decide)
    | with_reducible refine (sessionRebind_keepW (by assumption)).after ?_ (by decide)
    | with_reducible refine Keep.ite (fun _ => ?_) (fun _ => ?_)
    | split)

theorem execSessionSet_keep {c : Cmd} {s : State} {t0 : State} (h : execSessionSet c s = .next t0) : Keep 1049309182 s t0 := by
  unfold execSessionSet at h
  try dsimp only at h
  repeat' (first | split at h)
  all_goals try (exact absurd h (by simp only [reduceCtorEq, not_false_eq_true]))
  all_goals try (with_reducible obtain rfl := Host.Outcome.next.inj h)
  iterate 30 (all_goals try first
    | with_reducible exact Keep.refl _ _
    | with_reducible assumption
    | with_reducible refine hostCmd_keep (by decide) (fun _ => ?_) (fun _ => ?_)
    | with_reducible refine (sessionSet_keepD (by assumption)).after ?_ (by decide)
    | with_reducible refine (sessionSet_keepW (by assumption)).after ?_ (by decide)
    | with_reducible refine Keep.ite (fun _ => ?_) (fun _ => ?_)
    | split)

theorem execSessionRead_keep {c : Cmd} {s : State} {t0 : State} (h : execSessionRead c s = .next t0) : Keep 1049309182 s t0 := by
  unfold execSessionRead at h
  try dsimp only at h
  repeat' (first | split at h)
  all_goals try (exact absurd h (by simp only [reduceCtorEq, not_false_eq_true]))
  all_goals try (with_reducible obtain rfl := Host.Outcome.next.inj h)
  iterate 30 (all_goals try first
    | with_reducible exact Keep.refl _ _
    | with_reducible assumption
    | with_reducible refine hostCmd_keep (by decide) (fun _ => ?_) (fun _ => ?_)
    | with_reducible refine (sessionRead_keepD (by assumption)).after ?_ (by decide)
    | with_reducible refine (sessionRead_keepW (by assumption)).after ?_ (by decide)
    | with_reducible refine Keep.ite (fun _ => ?_) (fun _ => ?_)
    | split)

theorem execHistoryRead_keep {c : Cmd} {s : State} {t0 : State} (h : execHistoryRead c s = .next t0) : Keep 1049309182 s t0 := by
  unfold execHistoryRead at h
  try dsimp only at h
  repeat' (first | split at h)
  all_goals try (exact absurd h (by simp only [reduceCtorEq, not_false_eq_true]))
  all_goals try (with_reducible obtain rfl := Host.Outcome.next.inj h)
  iterate 30 (all_goals try first
    | with_reducible exact Keep.refl _ _
    | with_reducible assumption
    | with_reducible refine hostCmd_keep (by decide) (fun _ => ?_) (fun _ => ?_)
    | with_reducible refine (historyRead_keepD (by assumption)).after ?_ (by decide)
    | with_reducible refine (historyRead_keepW (by assumption)).after ?_ (by decide)
    | with_reducible refine Keep.ite (fun _ => ?_) (fun _ => ?_)
    | split)

theorem execTurnSubmit_keep {c : Cmd} {s : State} {t0 : State} (h : execTurnSubmit c s = .next t0) : Keep 1049309182 s t0 := by
  unfold execTurnSubmit at h
  try dsimp only at h
  repeat' (first | split at h)
  all_goals try (exact absurd h (by simp only [reduceCtorEq, not_false_eq_true]))
  all_goals try (with_reducible obtain rfl := Host.Outcome.next.inj h)
  iterate 30 (all_goals try first
    | with_reducible exact Keep.refl _ _
    | with_reducible assumption
    | with_reducible refine hostCmd_keep (by decide) (fun _ => ?_) (fun _ => ?_)
    | with_reducible refine (turnSubmit_keepD (by assumption)).after ?_ (by decide)
    | with_reducible refine (turnSubmit_keepW (by assumption)).after ?_ (by decide)
    | with_reducible refine Keep.ite (fun _ => ?_) (fun _ => ?_)
    | split)

theorem execTurnCancel_keep {c : Cmd} {s : State} {t0 : State} (h : execTurnCancel c s = .next t0) : Keep 1049309182 s t0 := by
  unfold execTurnCancel at h
  try dsimp only at h
  repeat' (first | split at h)
  all_goals try (exact absurd h (by simp only [reduceCtorEq, not_false_eq_true]))
  all_goals try (with_reducible obtain rfl := Host.Outcome.next.inj h)
  iterate 30 (all_goals try first
    | with_reducible exact Keep.refl _ _
    | with_reducible assumption
    | with_reducible refine hostCmd_keep (by decide) (fun _ => ?_) (fun _ => ?_)
    | with_reducible refine (turnCancel_keepD (by assumption)).after ?_ (by decide)
    | with_reducible refine (turnCancel_keepW (by assumption)).after ?_ (by decide)
    | with_reducible refine Keep.ite (fun _ => ?_) (fun _ => ?_)
    | split)

theorem execSessionShard_keep {c : Cmd} {s : State} {t0 : State} (h : execSessionShard c s = .next t0) : Keep 1049309182 s t0 := by
  unfold execSessionShard at h
  try dsimp only at h
  repeat' (first | split at h)
  all_goals try (exact absurd h (by simp only [reduceCtorEq, not_false_eq_true]))
  all_goals try (with_reducible obtain rfl := Host.Outcome.next.inj h)
  iterate 30 (all_goals try first
    | with_reducible exact Keep.refl _ _
    | with_reducible assumption
    | with_reducible refine hostCmd_keep (by decide) (fun _ => ?_) (fun _ => ?_)
    | with_reducible refine (shard_keepD (by assumption)).after ?_ (by decide)
    | with_reducible refine (shard_keepW (by assumption)).after ?_ (by decide)
    | with_reducible refine Keep.ite (fun _ => ?_) (fun _ => ?_)
    | split)

theorem execChainExtend_keep {c : Cmd} {s : State} {t0 : State} (h : execChainExtend c s = .next t0) : Keep 1049309182 s t0 := by
  unfold execChainExtend at h
  try dsimp only at h
  repeat' (first | split at h)
  all_goals try (exact absurd h (by simp only [reduceCtorEq, not_false_eq_true]))
  all_goals try (with_reducible obtain rfl := Host.Outcome.next.inj h)
  iterate 30 (all_goals try first
    | with_reducible exact Keep.refl _ _
    | with_reducible assumption
    | with_reducible refine hostCmd_keep (by decide) (fun _ => ?_) (fun _ => ?_)
    | with_reducible refine (shard_keepD (by assumption)).after ?_ (by decide)
    | with_reducible refine (shard_keepW (by assumption)).after ?_ (by decide)
    | with_reducible refine Keep.ite (fun _ => ?_) (fun _ => ?_)
    | split)

theorem execTickWrite_keep {from_ value : Nat} {s : State} {t0 : State} (h : execTickWrite from_ value s = .next t0) : Keep 3598 s t0 := by
  unfold execTickWrite at h
  try dsimp only at h
  repeat' (first | split at h)
  all_goals try (exact absurd h (by simp only [reduceCtorEq, not_false_eq_true]))
  all_goals try (with_reducible obtain rfl := Host.Outcome.next.inj h)
  iterate 30 (all_goals try first
    | with_reducible exact Keep.refl _ _
    | with_reducible assumption
    | with_reducible refine (tickWrite_keep ..).after ?_ (by decide)
    | with_reducible refine (countIo_keep ..).after ?_ (by decide)
    | with_reducible refine Keep.ite (fun _ => ?_) (fun _ => ?_)
    | split)

theorem execLadderMove_keep {session : Nat} {s : State} {t0 : State} (h : execLadderMove session s = .next t0) : Keep 369233902 s t0 := by
  unfold execLadderMove at h
  try dsimp only at h
  repeat' (first | split at h)
  all_goals try (exact absurd h (by simp only [reduceCtorEq, not_false_eq_true]))
  all_goals try (with_reducible obtain rfl := Host.Outcome.next.inj h)
  iterate 30 (all_goals try first
    | with_reducible exact Keep.refl _ _
    | with_reducible assumption
    | with_reducible refine whenDue_keep _ _ _ _ (fun _ => ?_)
    | with_reducible refine live_keep _ _ (fun _ => ?_)
    | (extract_lets +onlyGivenNames zz; refine Keep.cut zz ?_ (fun _ => ?_); (rotate_left; (try clear_value zz); rotate_right; subst zz))
    | (extract_lets +onlyGivenNames zz; subst zz)
    | with_reducible refine (enterRung_keep ..).after ?_ (by decide)
    | with_reducible refine (commitEvent_keep ..).after ?_ (by decide)
    | with_reducible refine Keep.ite (fun _ => ?_) (fun _ => ?_)
    | split)

theorem execSessionExpiry_keep {session : Nat} {s : State} {t0 : State} (h : execSessionExpiry session s = .next t0) : Keep 369233902 s t0 := by
  unfold execSessionExpiry at h
  try dsimp only at h
  repeat' (first | split at h)
  all_goals try (exact absurd h (by simp only [reduceCtorEq, not_false_eq_true]))
  all_goals try (with_reducible obtain rfl := Host.Outcome.next.inj h)
  iterate 30 (all_goals try first
    | with_reducible exact Keep.refl _ _
    | with_reducible assumption
    | with_reducible refine whenDue_keep _ _ _ _ (fun _ => ?_)
    | with_reducible refine live_keep _ _ (fun _ => ?_)
    | (extract_lets +onlyGivenNames zz; refine Keep.cut zz ?_ (fun _ => ?_); (rotate_left; (try clear_value zz); rotate_right; subst zz))
    | (extract_lets +onlyGivenNames zz; subst zz)
    | with_reducible refine (commitEvent_keep ..).after ?_ (by decide)
    | with_reducible refine (dropKv_keep ..).after ?_ (by decide)
    | with_reducible refine (bump_keep ..).after ?_ (by decide)
    | with_reducible refine Keep.getD (fun _ _ => ?_) ?_
    | with_reducible refine Keep.ite (fun _ => ?_) (fun _ => ?_)
    | split)

theorem execSessionRetirement_keep {session : Nat} {s : State} {t0 : State} (h : execSessionRetirement session s = .next t0) : Keep 1053765630 s t0 := by
  unfold execSessionRetirement at h
  try dsimp only at h
  repeat' (first | split at h)
  all_goals try (exact absurd h (by simp only [reduceCtorEq, not_false_eq_true]))
  all_goals try (with_reducible obtain rfl := Host.Outcome.next.inj h)
  iterate 30 (all_goals try first
    | with_reducible exact Keep.refl _ _
    | with_reducible assumption
    | with_reducible refine whenDue_keep _ _ _ _ (fun _ => ?_)
    | with_reducible refine live_keep _ _ (fun _ => ?_)
    | with_reducible refine (closeSession_keep ..).after ?_ (by decide)
    | with_reducible refine (logFull_keep ..).after ?_ (by decide)
    | with_reducible refine (bump_keep ..).after ?_ (by decide)
    | with_reducible refine Keep.ite (fun _ => ?_) (fun _ => ?_)
    | split)

theorem execConnOpen_keep {c : Cmd} {s : State} {t0 : State} (h : execConnOpen c s = .next t0) : Keep 536948302 s t0 := by
  unfold execConnOpen at h
  try dsimp only at h
  repeat' (first | split at h)
  all_goals try (exact absurd h (by simp only [reduceCtorEq, not_false_eq_true]))
  all_goals try (with_reducible obtain rfl := Host.Outcome.next.inj h)
  iterate 30 (all_goals try first
    | with_reducible exact Keep.refl _ _
    | with_reducible assumption
    | with_reducible refine hostCmd_keep (by decide) (fun _ => ?_) (fun _ => ?_)
    | with_reducible refine (connOpenCmd_keepD (by assumption)).after ?_ (by decide)
    | with_reducible refine (connOpenCmd_keepW (by assumption)).after ?_ (by decide)
    | with_reducible refine Keep.ite (fun _ => ?_) (fun _ => ?_)
    | split)

theorem execConnClose_keep {c : Cmd} {s : State} {t0 : State} (h : execConnClose c s = .next t0) : Keep 536948302 s t0 := by
  unfold execConnClose at h
  try dsimp only at h
  repeat' (first | split at h)
  all_goals try (exact absurd h (by simp only [reduceCtorEq, not_false_eq_true]))
  all_goals try (with_reducible obtain rfl := Host.Outcome.next.inj h)
  iterate 30 (all_goals try first
    | with_reducible exact Keep.refl _ _
    | with_reducible assumption
    | with_reducible refine hostCmd_keep (by decide) (fun _ => ?_) (fun _ => ?_)
    | with_reducible refine (connCloseCmd_keepD (by assumption)).after ?_ (by decide)
    | with_reducible refine (connCloseCmd_keepW (by assumption)).after ?_ (by decide)
    | with_reducible refine Keep.ite (fun _ => ?_) (fun _ => ?_)
    | split)

theorem execRegionRegister_keep {c : Cmd} {s : State} {t0 : State} (h : execRegionRegister c s = .next t0) : Keep 536948318 s t0 := by
  unfold execRegionRegister at h
  try dsimp only at h
  repeat' (first | split at h)
  all_goals try (exact absurd h (by simp only [reduceCtorEq, not_false_eq_true]))
  all_goals try (with_reducible obtain rfl := Host.Outcome.next.inj h)
  iterate 30 (all_goals try first
    | with_reducible exact Keep.refl _ _
    | with_reducible assumption
    | with_reducible refine hostCmd_keep (by decide) (fun _ => ?_) (fun _ => ?_)
    | with_reducible refine (regionRegister_keepD (by assumption)).after ?_ (by decide)
    | with_reducible refine (regionRegister_keepW (by assumption)).after ?_ (by decide)
    | with_reducible refine Keep.ite (fun _ => ?_) (fun _ => ?_)
    | split)

theorem execRegionRevoke_keep {c : Cmd} {s : State} {t0 : State} (h : execRegionRevoke c s = .next t0) : Keep 536948302 s t0 := by
  unfold execRegionRevoke at h
  try dsimp only at h
  repeat' (first | split at h)
  all_goals try (exact absurd h (by simp only [reduceCtorEq, not_false_eq_true]))
  all_goals try (with_reducible obtain rfl := Host.Outcome.next.inj h)
  iterate 30 (all_goals try first
    | with_reducible exact Keep.refl _ _
    | with_reducible assumption
    | with_reducible refine hostCmd_keep (by decide) (fun _ => ?_) (fun _ => ?_)
    | with_reducible refine (regionRevoke_keepD (by assumption)).after ?_ (by decide)
    | with_reducible refine (regionRevoke_keepW (by assumption)).after ?_ (by decide)
    | with_reducible refine Keep.ite (fun _ => ?_) (fun _ => ?_)
    | split)

theorem execGroupSet_keep {c : Cmd} {s : State} {t0 : State} (h : execGroupSet c s = .next t0) : Keep 536948302 s t0 := by
  unfold execGroupSet at h
  try dsimp only at h
  repeat' (first | split at h)
  all_goals try (exact absurd h (by simp only [reduceCtorEq, not_false_eq_true]))
  all_goals try (with_reducible obtain rfl := Host.Outcome.next.inj h)
  iterate 30 (all_goals try first
    | with_reducible exact Keep.refl _ _
    | with_reducible assumption
    | with_reducible refine hostCmd_keep (by decide) (fun _ => ?_) (fun _ => ?_)
    | with_reducible refine (groupSet_keepD (by assumption)).after ?_ (by decide)
    | with_reducible refine (groupSet_keepW (by assumption)).after ?_ (by decide)
    | with_reducible refine Keep.ite (fun _ => ?_) (fun _ => ?_)
    | split)

theorem execWrSubmit_keep {c : Cmd} {s : State} {t0 : State} (h : execWrSubmit c s = .next t0) : Keep 604057198 s t0 := by
  unfold execWrSubmit at h
  try dsimp only at h
  repeat' (first | split at h)
  all_goals try (exact absurd h (by simp only [reduceCtorEq, not_false_eq_true]))
  all_goals try (with_reducible obtain rfl := Host.Outcome.next.inj h)
  iterate 30 (all_goals try first
    | with_reducible exact Keep.refl _ _
    | with_reducible assumption
    | with_reducible refine hostCmd_keep (by decide) (fun _ => ?_) (fun _ => ?_)
    | with_reducible refine (wrSubmit_keepD (by assumption)).after ?_ (by decide)
    | with_reducible refine (wrSubmit_keepW (by assumption)).after ?_ (by decide)
    | with_reducible refine Keep.ite (fun _ => ?_) (fun _ => ?_)
    | split)

theorem execWrPost_keep {c : Cmd} {s : State} {t0 : State} (h : execWrPost c s = .next t0) : Keep 536948302 s t0 := by
  unfold execWrPost at h
  try dsimp only at h
  repeat' (first | split at h)
  all_goals try (exact absurd h (by simp only [reduceCtorEq, not_false_eq_true]))
  all_goals try (with_reducible obtain rfl := Host.Outcome.next.inj h)
  iterate 30 (all_goals try first
    | with_reducible exact Keep.refl _ _
    | with_reducible assumption
    | with_reducible refine hostCmd_keep (by decide) (fun _ => ?_) (fun _ => ?_)
    | with_reducible refine (wrPost_keepD (by assumption)).after ?_ (by decide)
    | with_reducible refine (wrPost_keepW (by assumption)).after ?_ (by decide)
    | with_reducible refine Keep.ite (fun _ => ?_) (fun _ => ?_)
    | split)

theorem execMessageLeftPort_keep {conn seq : Nat} {s : State} {t0 : State} (h : execMessageLeftPort conn seq s = .next t0) : Keep 536948334 s t0 := by
  unfold execMessageLeftPort at h
  try dsimp only at h
  repeat' (first | split at h)
  all_goals try (exact absurd h (by simp only [reduceCtorEq, not_false_eq_true]))
  all_goals try (with_reducible obtain rfl := Host.Outcome.next.inj h)
  iterate 30 (all_goals try first
    | with_reducible exact Keep.refl _ _
    | with_reducible assumption
    | with_reducible refine live_keep _ _ (fun _ => ?_)
    | with_reducible refine (messageLeft_keep ..).after ?_ (by decide)
    | with_reducible refine Keep.ite (fun _ => ?_) (fun _ => ?_)
    | split)

theorem execAckDelayExpiry_keep {conn seq : Nat} {s : State} {t0 : State} (h : execAckDelayExpiry conn seq s = .next t0) : Keep 536870924 s t0 := by
  unfold execAckDelayExpiry at h
  try dsimp only at h
  repeat' (first | split at h)
  all_goals try (exact absurd h (by simp only [reduceCtorEq, not_false_eq_true]))
  all_goals try (with_reducible obtain rfl := Host.Outcome.next.inj h)
  iterate 30 (all_goals try first
    | with_reducible exact Keep.refl _ _
    | with_reducible assumption
    | with_reducible refine live_keep _ _ (fun _ => ?_)
    | with_reducible refine (sendAck_keep ..).after ?_ (by decide)
    | with_reducible refine Keep.ite (fun _ => ?_) (fun _ => ?_)
    | split)

theorem execRetransmitTimeout_keep {conn seq index : Nat} {s : State} {t0 : State} (h : execRetransmitTimeout conn seq index s = .next t0) : Keep 536870924 s t0 := by
  unfold execRetransmitTimeout at h
  try dsimp only at h
  repeat' (first | split at h)
  all_goals try (exact absurd h (by simp only [reduceCtorEq, not_false_eq_true]))
  all_goals try (with_reducible obtain rfl := Host.Outcome.next.inj h)
  iterate 30 (all_goals try first
    | with_reducible exact Keep.refl _ _
    | with_reducible assumption
    | with_reducible refine live_keep _ _ (fun _ => ?_)
    | with_reducible refine (retransmit_keep ..).after ?_ (by decide)
    | with_reducible refine Keep.ite (fun _ => ?_) (fun _ => ?_)
    | split)

theorem execConnectionDeadTimeout_keep {conn : Nat} {s : State} {t0 : State} (h : execConnectionDeadTimeout conn s = .next t0) : Keep 536948350 s t0 := by
  unfold execConnectionDeadTimeout at h
  try dsimp only at h
  repeat' (first | split at h)
  all_goals try (exact absurd h (by simp only [reduceCtorEq, not_false_eq_true]))
  all_goals try (with_reducible obtain rfl := Host.Outcome.next.inj h)
  iterate 30 (all_goals try first
    | with_reducible exact Keep.refl _ _
    | with_reducible assumption
    | with_reducible refine live_keep _ _ (fun _ => ?_)
    | with_reducible refine (failConn_keep ..).after ?_ (by decide)
    | with_reducible refine (fetchWaiting_keep ..).after ?_ (by decide)
    | with_reducible refine Keep.ite (fun _ => ?_) (fun _ => ?_)
    | split)

theorem execConnectTimeout_keep {conn : Nat} {s : State} {t0 : State} (h : execConnectTimeout conn s = .next t0) : Keep 536945228 s t0 := by
  unfold execConnectTimeout at h
  try dsimp only at h
  repeat' (first | split at h)
  all_goals try (exact absurd h (by simp only [reduceCtorEq, not_false_eq_true]))
  all_goals try (with_reducible obtain rfl := Host.Outcome.next.inj h)
  iterate 30 (all_goals try first
    | with_reducible exact Keep.refl _ _
    | with_reducible assumption
    | with_reducible refine live_keep _ _ (fun _ => ?_)
    | with_reducible refine (connCmd_keep ..).after ?_ (by decide)
    | with_reducible refine (fetchWaiting_keep ..).after ?_ (by decide)
    | with_reducible refine (freeConn_keep ..).after ?_ (by decide)
    | with_reducible refine Keep.ite (fun _ => ?_) (fun _ => ?_)
    | split)

theorem execCloseTimeout_keep {conn : Nat} {s : State} {t0 : State} (h : execCloseTimeout conn s = .next t0) : Keep 536948350 s t0 := by
  unfold execCloseTimeout at h
  try dsimp only at h
  repeat' (first | split at h)
  all_goals try (exact absurd h (by simp only [reduceCtorEq, not_false_eq_true]))
  all_goals try (with_reducible obtain rfl := Host.Outcome.next.inj h)
  iterate 30 (all_goals try first
    | with_reducible exact Keep.refl _ _
    | with_reducible assumption
    | with_reducible refine live_keep _ _ (fun _ => ?_)
    | with_reducible refine (connCmd_keep ..).after ?_ (by decide)
    | with_reducible refine (endConn_keep ..).after ?_ (by decide)
    | with_reducible refine (fetchWaiting_keep ..).after ?_ (by decide)
    | with_reducible refine Keep.ite (fun _ => ?_) (fun _ => ?_)
    | split)

theorem execDeadTarget_keep {req : Nat} {s : State} {t0 : State} (h : execDeadTarget req s = .next t0) : Keep 536948718 s t0 := by
  unfold execDeadTarget at h
  try dsimp only at h
  repeat' (first | split at h)
  all_goals try (exact absurd h (by simp only [reduceCtorEq, not_false_eq_true]))
  all_goals try (with_reducible obtain rfl := Host.Outcome.next.inj h)
  iterate 30 (all_goals try first
    | with_reducible exact Keep.refl _ _
    | with_reducible assumption
    | with_reducible refine live_keep _ _ (fun _ => ?_)
    | with_reducible refine (deadTarget_keep ..).after ?_ (by decide)
    | with_reducible refine Keep.ite (fun _ => ?_) (fun _ => ?_)
    | split)

theorem execSpillFetchDone_keep {conn : Nat} {record : Option (List Byte)} {s : State} {t0 : State} (h : execSpillFetchDone conn record s = .next t0) : Keep 612446206 s t0 := by
  unfold execSpillFetchDone at h
  try dsimp only at h
  repeat' (first | split at h)
  all_goals try (exact absurd h (by simp only [reduceCtorEq, not_false_eq_true]))
  all_goals try (with_reducible obtain rfl := Host.Outcome.next.inj h)
  iterate 30 (all_goals try first
    | with_reducible exact Keep.refl _ _
    | with_reducible assumption
    | with_reducible refine live_keep _ _ (fun _ => ?_)
    | with_reducible refine (spillFetched_keep ..).after ?_ (by decide)
    | with_reducible refine Keep.ite (fun _ => ?_) (fun _ => ?_)
    | split)

theorem execRevokeDrained_keep {index : Nat} {s : State} {t0 : State} (h : execRevokeDrained index s = .next t0) : Keep 536945230 s t0 := by
  unfold execRevokeDrained at h
  try dsimp only at h
  repeat' (first | split at h)
  all_goals try (exact absurd h (by simp only [reduceCtorEq, not_false_eq_true]))
  all_goals try (with_reducible obtain rfl := Host.Outcome.next.inj h)
  iterate 30 (all_goals try first
    | with_reducible exact Keep.refl _ _
    | with_reducible assumption
    | with_reducible refine live_keep _ _ (fun _ => ?_)
    | with_reducible refine (revokeDone_keep ..).after ?_ (by decide)
    | with_reducible refine Keep.ite (fun _ => ?_) (fun _ => ?_)
    | split)

theorem execRegionRetireExpiry_keep {index : Nat} {s : State} {t0 : State} (h : execRegionRetireExpiry index s = .next t0) : Keep 536870912 s t0 := by
  unfold execRegionRetireExpiry at h
  try dsimp only at h
  repeat' (first | split at h)
  all_goals try (exact absurd h (by simp only [reduceCtorEq, not_false_eq_true]))
  all_goals try (with_reducible obtain rfl := Host.Outcome.next.inj h)
  iterate 30 (all_goals try first
    | with_reducible exact Keep.refl _ _
    | with_reducible assumption
    | with_reducible refine live_keep _ _ (fun _ => ?_)
    | (extract_lets +onlyGivenNames zz; refine Keep.cut zz ?_ (fun _ => ?_); (rotate_left; (try clear_value zz); rotate_right; subst zz))
    | (extract_lets +onlyGivenNames zz; subst zz)
    | with_reducible refine Keep.ite (fun _ => ?_) (fun _ => ?_)
    | split
    | with_reducible refine (Keep.of_xfe _ _).after ?_ (by decide))

theorem execWrite_keep {port : Nat} {raw : List Byte} {fill : Nat} {s : State} {t0 : State} (h : execWrite port raw fill s = .next t0) : Keep 612446206 s t0 := by
  unfold execWrite at h
  try dsimp only at h
  repeat' (first | split at h)
  all_goals try (exact absurd h (by simp only [reduceCtorEq, not_false_eq_true]))
  all_goals try (with_reducible obtain rfl := Host.Outcome.next.inj h)
  iterate 30 (all_goals try first
    | with_reducible exact Keep.refl _ _
    | with_reducible assumption
    | with_reducible refine (receiveOp_keep ..).after ?_ (by decide)
    | with_reducible refine Keep.ite (fun _ => ?_) (fun _ => ?_)
    | split)

theorem execReadReq_keep {port : Nat} {raw : List Byte} {fill : Nat} {s : State} {t0 : State} (h : execReadReq port raw fill s = .next t0) : Keep 612446206 s t0 := by
  unfold execReadReq at h
  try dsimp only at h
  repeat' (first | split at h)
  all_goals try (exact absurd h (by simp only [reduceCtorEq, not_false_eq_true]))
  all_goals try (with_reducible obtain rfl := Host.Outcome.next.inj h)
  iterate 30 (all_goals try first
    | with_reducible exact Keep.refl _ _
    | with_reducible assumption
    | with_reducible refine (receiveOp_keep ..).after ?_ (by decide)
    | with_reducible refine Keep.ite (fun _ => ?_) (fun _ => ?_)
    | split)

theorem execReadResp_keep {port : Nat} {raw : List Byte} {fill : Nat} {s : State} {t0 : State} (h : execReadResp port raw fill s = .next t0) : Keep 612446206 s t0 := by
  unfold execReadResp at h
  try dsimp only at h
  repeat' (first | split at h)
  all_goals try (exact absurd h (by simp only [reduceCtorEq, not_false_eq_true]))
  all_goals try (with_reducible obtain rfl := Host.Outcome.next.inj h)
  iterate 30 (all_goals try first
    | with_reducible exact Keep.refl _ _
    | with_reducible assumption
    | with_reducible refine (receiveOp_keep ..).after ?_ (by decide)
    | with_reducible refine Keep.ite (fun _ => ?_) (fun _ => ?_)
    | split)

theorem execAtomic_keep {port : Nat} {raw : List Byte} {fill : Nat} {s : State} {t0 : State} (h : execAtomic port raw fill s = .next t0) : Keep 612446206 s t0 := by
  unfold execAtomic at h
  try dsimp only at h
  repeat' (first | split at h)
  all_goals try (exact absurd h (by simp only [reduceCtorEq, not_false_eq_true]))
  all_goals try (with_reducible obtain rfl := Host.Outcome.next.inj h)
  iterate 30 (all_goals try first
    | with_reducible exact Keep.refl _ _
    | with_reducible assumption
    | with_reducible refine (receiveOp_keep ..).after ?_ (by decide)
    | with_reducible refine Keep.ite (fun _ => ?_) (fun _ => ?_)
    | split)

theorem execAtomicResp_keep {port : Nat} {raw : List Byte} {fill : Nat} {s : State} {t0 : State} (h : execAtomicResp port raw fill s = .next t0) : Keep 612446206 s t0 := by
  unfold execAtomicResp at h
  try dsimp only at h
  repeat' (first | split at h)
  all_goals try (exact absurd h (by simp only [reduceCtorEq, not_false_eq_true]))
  all_goals try (with_reducible obtain rfl := Host.Outcome.next.inj h)
  iterate 30 (all_goals try first
    | with_reducible exact Keep.refl _ _
    | with_reducible assumption
    | with_reducible refine (receiveOp_keep ..).after ?_ (by decide)
    | with_reducible refine Keep.ite (fun _ => ?_) (fun _ => ?_)
    | split)

theorem execCas_keep {port : Nat} {raw : List Byte} {fill : Nat} {s : State} {t0 : State} (h : execCas port raw fill s = .next t0) : Keep 612446206 s t0 := by
  unfold execCas at h
  try dsimp only at h
  repeat' (first | split at h)
  all_goals try (exact absurd h (by simp only [reduceCtorEq, not_false_eq_true]))
  all_goals try (with_reducible obtain rfl := Host.Outcome.next.inj h)
  iterate 30 (all_goals try first
    | with_reducible exact Keep.refl _ _
    | with_reducible assumption
    | with_reducible refine (receiveOp_keep ..).after ?_ (by decide)
    | with_reducible refine Keep.ite (fun _ => ?_) (fun _ => ?_)
    | split)

theorem execCasResp_keep {port : Nat} {raw : List Byte} {fill : Nat} {s : State} {t0 : State} (h : execCasResp port raw fill s = .next t0) : Keep 612446206 s t0 := by
  unfold execCasResp at h
  try dsimp only at h
  repeat' (first | split at h)
  all_goals try (exact absurd h (by simp only [reduceCtorEq, not_false_eq_true]))
  all_goals try (with_reducible obtain rfl := Host.Outcome.next.inj h)
  iterate 30 (all_goals try first
    | with_reducible exact Keep.refl _ _
    | with_reducible assumption
    | with_reducible refine (receiveOp_keep ..).after ?_ (by decide)
    | with_reducible refine Keep.ite (fun _ => ?_) (fun _ => ?_)
    | split)

theorem execMcastWrite_keep {port : Nat} {raw : List Byte} {fill : Nat} {s : State} {t0 : State} (h : execMcastWrite port raw fill s = .next t0) : Keep 612446206 s t0 := by
  unfold execMcastWrite at h
  try dsimp only at h
  repeat' (first | split at h)
  all_goals try (exact absurd h (by simp only [reduceCtorEq, not_false_eq_true]))
  all_goals try (with_reducible obtain rfl := Host.Outcome.next.inj h)
  iterate 30 (all_goals try first
    | with_reducible exact Keep.refl _ _
    | with_reducible assumption
    | with_reducible refine (receiveOp_keep ..).after ?_ (by decide)
    | with_reducible refine Keep.ite (fun _ => ?_) (fun _ => ?_)
    | split)

theorem execReduce_keep {port : Nat} {raw : List Byte} {fill : Nat} {s : State} {t0 : State} (h : execReduce port raw fill s = .next t0) : Keep 612446206 s t0 := by
  unfold execReduce at h
  try dsimp only at h
  repeat' (first | split at h)
  all_goals try (exact absurd h (by simp only [reduceCtorEq, not_false_eq_true]))
  all_goals try (with_reducible obtain rfl := Host.Outcome.next.inj h)
  iterate 30 (all_goals try first
    | with_reducible exact Keep.refl _ _
    | with_reducible assumption
    | with_reducible refine (receiveOp_keep ..).after ?_ (by decide)
    | with_reducible refine Keep.ite (fun _ => ?_) (fun _ => ?_)
    | split)

theorem execFlush_keep {port : Nat} {raw : List Byte} {fill : Nat} {s : State} {t0 : State} (h : execFlush port raw fill s = .next t0) : Keep 612446206 s t0 := by
  unfold execFlush at h
  try dsimp only at h
  repeat' (first | split at h)
  all_goals try (exact absurd h (by simp only [reduceCtorEq, not_false_eq_true]))
  all_goals try (with_reducible obtain rfl := Host.Outcome.next.inj h)
  iterate 30 (all_goals try first
    | with_reducible exact Keep.refl _ _
    | with_reducible assumption
    | with_reducible refine (receiveOp_keep ..).after ?_ (by decide)
    | with_reducible refine Keep.ite (fun _ => ?_) (fun _ => ?_)
    | split)

theorem execFlushResp_keep {port : Nat} {raw : List Byte} {fill : Nat} {s : State} {t0 : State} (h : execFlushResp port raw fill s = .next t0) : Keep 612446206 s t0 := by
  unfold execFlushResp at h
  try dsimp only at h
  repeat' (first | split at h)
  all_goals try (exact absurd h (by simp only [reduceCtorEq, not_false_eq_true]))
  all_goals try (with_reducible obtain rfl := Host.Outcome.next.inj h)
  iterate 30 (all_goals try first
    | with_reducible exact Keep.refl _ _
    | with_reducible assumption
    | with_reducible refine (receiveOp_keep ..).after ?_ (by decide)
    | with_reducible refine Keep.ite (fun _ => ?_) (fun _ => ?_)
    | split)

theorem execTrigger_keep {port : Nat} {raw : List Byte} {fill : Nat} {s : State} {t0 : State} (h : execTrigger port raw fill s = .next t0) : Keep 612446206 s t0 := by
  unfold execTrigger at h
  try dsimp only at h
  repeat' (first | split at h)
  all_goals try (exact absurd h (by simp only [reduceCtorEq, not_false_eq_true]))
  all_goals try (with_reducible obtain rfl := Host.Outcome.next.inj h)
  iterate 30 (all_goals try first
    | with_reducible exact Keep.refl _ _
    | with_reducible assumption
    | with_reducible refine (receiveOp_keep ..).after ?_ (by decide)
    | with_reducible refine Keep.ite (fun _ => ?_) (fun _ => ?_)
    | split)

theorem execAck_keep {port : Nat} {raw : List Byte} {fill : Nat} {s : State} {t0 : State} (h : execAck port raw fill s = .next t0) : Keep 612446206 s t0 := by
  unfold execAck at h
  try dsimp only at h
  repeat' (first | split at h)
  all_goals try (exact absurd h (by simp only [reduceCtorEq, not_false_eq_true]))
  all_goals try (with_reducible obtain rfl := Host.Outcome.next.inj h)
  iterate 30 (all_goals try first
    | with_reducible exact Keep.refl _ _
    | with_reducible assumption
    | with_reducible refine (receiveOp_keep ..).after ?_ (by decide)
    | with_reducible refine Keep.ite (fun _ => ?_) (fun _ => ?_)
    | split)

theorem execNak_keep {port : Nat} {raw : List Byte} {fill : Nat} {s : State} {t0 : State} (h : execNak port raw fill s = .next t0) : Keep 612446206 s t0 := by
  unfold execNak at h
  try dsimp only at h
  repeat' (first | split at h)
  all_goals try (exact absurd h (by simp only [reduceCtorEq, not_false_eq_true]))
  all_goals try (with_reducible obtain rfl := Host.Outcome.next.inj h)
  iterate 30 (all_goals try first
    | with_reducible exact Keep.refl _ _
    | with_reducible assumption
    | with_reducible refine (receiveOp_keep ..).after ?_ (by decide)
    | with_reducible refine Keep.ite (fun _ => ?_) (fun _ => ?_)
    | split)

theorem execConnect_keep {port : Nat} {raw : List Byte} {fill : Nat} {s : State} {t0 : State} (h : execConnect port raw fill s = .next t0) : Keep 612446206 s t0 := by
  unfold execConnect at h
  try dsimp only at h
  repeat' (first | split at h)
  all_goals try (exact absurd h (by simp only [reduceCtorEq, not_false_eq_true]))
  all_goals try (with_reducible obtain rfl := Host.Outcome.next.inj h)
  iterate 30 (all_goals try first
    | with_reducible exact Keep.refl _ _
    | with_reducible assumption
    | with_reducible refine (receiveOp_keep ..).after ?_ (by decide)
    | with_reducible refine Keep.ite (fun _ => ?_) (fun _ => ?_)
    | split)

theorem execAccept_keep {port : Nat} {raw : List Byte} {fill : Nat} {s : State} {t0 : State} (h : execAccept port raw fill s = .next t0) : Keep 612446206 s t0 := by
  unfold execAccept at h
  try dsimp only at h
  repeat' (first | split at h)
  all_goals try (exact absurd h (by simp only [reduceCtorEq, not_false_eq_true]))
  all_goals try (with_reducible obtain rfl := Host.Outcome.next.inj h)
  iterate 30 (all_goals try first
    | with_reducible exact Keep.refl _ _
    | with_reducible assumption
    | with_reducible refine (receiveOp_keep ..).after ?_ (by decide)
    | with_reducible refine Keep.ite (fun _ => ?_) (fun _ => ?_)
    | split)

theorem execClose_keep {port : Nat} {raw : List Byte} {fill : Nat} {s : State} {t0 : State} (h : execClose port raw fill s = .next t0) : Keep 612446206 s t0 := by
  unfold execClose at h
  try dsimp only at h
  repeat' (first | split at h)
  all_goals try (exact absurd h (by simp only [reduceCtorEq, not_false_eq_true]))
  all_goals try (with_reducible obtain rfl := Host.Outcome.next.inj h)
  iterate 30 (all_goals try first
    | with_reducible exact Keep.refl _ _
    | with_reducible assumption
    | with_reducible refine (receiveOp_keep ..).after ?_ (by decide)
    | with_reducible refine Keep.ite (fun _ => ?_) (fun _ => ?_)
    | split)

theorem execCloseAck_keep {port : Nat} {raw : List Byte} {fill : Nat} {s : State} {t0 : State} (h : execCloseAck port raw fill s = .next t0) : Keep 612446206 s t0 := by
  unfold execCloseAck at h
  try dsimp only at h
  repeat' (first | split at h)
  all_goals try (exact absurd h (by simp only [reduceCtorEq, not_false_eq_true]))
  all_goals try (with_reducible obtain rfl := Host.Outcome.next.inj h)
  iterate 30 (all_goals try first
    | with_reducible exact Keep.refl _ _
    | with_reducible assumption
    | with_reducible refine (receiveOp_keep ..).after ?_ (by decide)
    | with_reducible refine Keep.ite (fun _ => ?_) (fun _ => ?_)
    | split)

theorem execLinkDetect_keep {port lanes : Nat} {s : State} {t0 : State} (h : execLinkDetect port lanes s = .next t0) : Keep 536870914 s t0 := by
  unfold execLinkDetect at h
  try dsimp only at h
  repeat' (first | split at h)
  all_goals try (exact absurd h (by simp only [reduceCtorEq, not_false_eq_true]))
  all_goals try (with_reducible obtain rfl := Host.Outcome.next.inj h)
  iterate 30 (all_goals try first
    | with_reducible exact Keep.refl _ _
    | with_reducible assumption
    | with_reducible refine live_keep _ _ (fun _ => ?_)
    | (extract_lets +onlyGivenNames zz; refine Keep.cut zz ?_ (fun _ => ?_); (rotate_left; (try clear_value zz); rotate_right; subst zz))
    | (extract_lets +onlyGivenNames zz; subst zz)
    | with_reducible refine (setF_keep ..).after ?_ (by decide)
    | with_reducible refine Keep.ite (fun _ => ?_) (fun _ => ?_)
    | split
    | with_reducible refine (Keep.of_xfe _ _).after ?_ (by decide))

theorem execLinkTrained_keep {port : Nat} {s : State} {t0 : State} (h : execLinkTrained port s = .next t0) : Keep 10 s t0 := by
  unfold execLinkTrained at h
  try dsimp only at h
  repeat' (first | split at h)
  all_goals try (exact absurd h (by simp only [reduceCtorEq, not_false_eq_true]))
  all_goals try (with_reducible obtain rfl := Host.Outcome.next.inj h)
  iterate 30 (all_goals try first
    | with_reducible exact Keep.refl _ _
    | with_reducible assumption
    | with_reducible refine live_keep _ _ (fun _ => ?_)
    | with_reducible refine (emit_keep ..).after ?_ (by decide)
    | with_reducible refine (setF_keep ..).after ?_ (by decide)
    | with_reducible refine Keep.ite (fun _ => ?_) (fun _ => ?_)
    | split)

theorem execLinkTrainTimeout_keep {port : Nat} {s : State} {t0 : State} (h : execLinkTrainTimeout port s = .next t0) : Keep 536874510 s t0 := by
  unfold execLinkTrainTimeout at h
  try dsimp only at h
  repeat' (first | split at h)
  all_goals try (exact absurd h (by simp only [reduceCtorEq, not_false_eq_true]))
  all_goals try (with_reducible obtain rfl := Host.Outcome.next.inj h)
  iterate 30 (all_goals try first
    | with_reducible exact Keep.refl _ _
    | with_reducible assumption
    | with_reducible refine live_keep _ _ (fun _ => ?_)
    | (extract_lets +onlyGivenNames zz; refine Keep.cut zz ?_ (fun _ => ?_); (rotate_left; (try clear_value zz); rotate_right; subst zz))
    | (extract_lets +onlyGivenNames zz; subst zz)
    | with_reducible refine (logEv_keep ..).after ?_ (by decide)
    | with_reducible refine (satAdd_keep ..).after ?_ (by decide)
    | with_reducible refine (setF_keep ..).after ?_ (by decide)
    | with_reducible refine Keep.ite (fun _ => ?_) (fun _ => ?_)
    | split
    | with_reducible refine (Keep.of_xfe _ _).after ?_ (by decide))

theorem execLinkCap_keep {port : Nat} {peer : LinkPeer} {s : State} {t0 : State} (h : execLinkCap port peer s = .next t0) : Keep 536870926 s t0 := by
  unfold execLinkCap at h
  try dsimp only at h
  repeat' (first | split at h)
  all_goals try (exact absurd h (by simp only [reduceCtorEq, not_false_eq_true]))
  all_goals try (with_reducible obtain rfl := Host.Outcome.next.inj h)
  iterate 30 (all_goals try first
    | with_reducible exact Keep.refl _ _
    | with_reducible assumption
    | with_reducible refine live_keep _ _ (fun _ => ?_)
    | (extract_lets +onlyGivenNames zz; refine Keep.cut zz ?_ (fun _ => ?_); (rotate_left; (try clear_value zz); rotate_right; subst zz))
    | (extract_lets +onlyGivenNames zz; subst zz)
    | with_reducible refine (announceAll_keep ..).after ?_ (by decide)
    | with_reducible refine (clearPort_keep ..).after ?_ (by decide)
    | with_reducible refine (pumpAll_keep ..).after ?_ (by decide)
    | with_reducible refine (grantCredits_keep ..).after ?_ (by decide)
    | with_reducible refine (setF_keep ..).after ?_ (by decide)
    | with_reducible refine Keep.foldl (fun _ _ => ?_) ?_ _
    | with_reducible refine Keep.foldlFst (fun _ _ => ?_) ?_ _
    | with_reducible refine Keep.foldlSnd (fun _ _ => ?_) ?_ _
    | with_reducible refine Keep.ite (fun _ => ?_) (fun _ => ?_)
    | split
    | with_reducible refine (Keep.of_xfe _ _).after ?_ (by decide))

theorem execLinkDown_keep {port fec : Nat} {s : State} {t0 : State} (h : execLinkDown port fec s = .next t0) : Keep 536874510 s t0 := by
  unfold execLinkDown at h
  try dsimp only at h
  repeat' (first | split at h)
  all_goals try (exact absurd h (by simp only [reduceCtorEq, not_false_eq_true]))
  all_goals try (with_reducible obtain rfl := Host.Outcome.next.inj h)
  iterate 30 (all_goals try first
    | with_reducible exact Keep.refl _ _
    | with_reducible assumption
    | with_reducible refine live_keep _ _ (fun _ => ?_)
    | (extract_lets +onlyGivenNames zz; refine Keep.cut zz ?_ (fun _ => ?_); (rotate_left; (try clear_value zz); rotate_right; subst zz))
    | (extract_lets +onlyGivenNames zz; subst zz)
    | with_reducible refine (announceAll_keep ..).after ?_ (by decide)
    | with_reducible refine (dropPort_keep ..).after ?_ (by decide)
    | with_reducible refine (logEv_keep ..).after ?_ (by decide)
    | with_reducible refine (bumpBy_keep ..).after ?_ (by decide)
    | with_reducible refine Keep.ite (fun _ => ?_) (fun _ => ?_)
    | split)

theorem execPortEnWrite_keep {from_ port en : Nat} {s : State} {t0 : State} (h : execPortEnWrite from_ port en s = .next t0) : Keep 536871950 s t0 := by
  unfold execPortEnWrite at h
  try dsimp only at h
  repeat' (first | split at h)
  all_goals try (exact absurd h (by simp only [reduceCtorEq, not_false_eq_true]))
  all_goals try (with_reducible obtain rfl := Host.Outcome.next.inj h)
  iterate 30 (all_goals try first
    | with_reducible exact Keep.refl _ _
    | with_reducible assumption
    | (extract_lets +onlyGivenNames zz; refine Keep.cut zz ?_ (fun _ => ?_); (rotate_left; (try clear_value zz); rotate_right; subst zz))
    | (extract_lets +onlyGivenNames zz; subst zz)
    | with_reducible refine (announceAll_keep ..).after ?_ (by decide)
    | with_reducible refine (dropPort_keep ..).after ?_ (by decide)
    | with_reducible refine (countIo_keep ..).after ?_ (by decide)
    | with_reducible refine (setF_keep ..).after ?_ (by decide)
    | with_reducible refine Keep.ite (fun _ => ?_) (fun _ => ?_)
    | split)

theorem execAssign_keep {port node fmNode epoch : Nat} {s : State} {t0 : State} (h : execAssign port node fmNode epoch s = .next t0) : Keep 536948350 s t0 := by
  unfold execAssign at h
  try dsimp only at h
  repeat' (first | split at h)
  all_goals try (exact absurd h (by simp only [reduceCtorEq, not_false_eq_true]))
  all_goals try (with_reducible obtain rfl := Host.Outcome.next.inj h)
  iterate 30 (all_goals try first
    | with_reducible exact Keep.refl _ _
    | with_reducible assumption
    | with_reducible refine (assign_keep ..).after ?_ (by decide)
    | with_reducible refine Keep.ite (fun _ => ?_) (fun _ => ?_)
    | split)

theorem execDepart_keep {port node uid : Nat} {s : State} {t0 : State} (h : execDepart port node uid s = .next t0) : Keep 536948350 s t0 := by
  unfold execDepart at h
  try dsimp only at h
  repeat' (first | split at h)
  all_goals try (exact absurd h (by simp only [reduceCtorEq, not_false_eq_true]))
  all_goals try (with_reducible obtain rfl := Host.Outcome.next.inj h)
  iterate 30 (all_goals try first
    | with_reducible exact Keep.refl _ _
    | with_reducible assumption
    | (extract_lets +onlyGivenNames zz; refine Keep.cut zz ?_ (fun _ => ?_); (rotate_left; (try clear_value zz); rotate_right; subst zz))
    | (extract_lets +onlyGivenNames zz; subst zz)
    | with_reducible refine (failConn_keep ..).after ?_ (by decide)
    | with_reducible refine (logEv_keep ..).after ?_ (by decide)
    | with_reducible refine Keep.foldl (fun _ _ => ?_) ?_ _
    | with_reducible refine Keep.foldlFst (fun _ _ => ?_) ?_ _
    | with_reducible refine Keep.foldlSnd (fun _ _ => ?_) ?_ _
    | with_reducible refine Keep.ite (fun _ => ?_) (fun _ => ?_)
    | split)

theorem execJoin_keep {port node uid : Nat} {s : State} {t0 : State} (h : execJoin port node uid s = .next t0) : Keep 3598 s t0 := by
  unfold execJoin at h
  try dsimp only at h
  repeat' (first | split at h)
  all_goals try (exact absurd h (by simp only [reduceCtorEq, not_false_eq_true]))
  all_goals try (with_reducible obtain rfl := Host.Outcome.next.inj h)
  iterate 30 (all_goals try first
    | with_reducible exact Keep.refl _ _
    | with_reducible assumption
    | with_reducible refine (logEv_keep ..).after ?_ (by decide)
    | with_reducible refine Keep.ite (fun _ => ?_) (fun _ => ?_)
    | split)

theorem execRoute_keep {port first last mask epoch : Nat} {s : State} {t0 : State} (h : execRoute port first last mask epoch s = .next t0) : Keep 536870912 s t0 := by
  unfold execRoute at h
  try dsimp only at h
  repeat' (first | split at h)
  all_goals try (exact absurd h (by simp only [reduceCtorEq, not_false_eq_true]))
  all_goals try (with_reducible obtain rfl := Host.Outcome.next.inj h)
  iterate 30 (all_goals try first
    | with_reducible exact Keep.refl _ _
    | with_reducible assumption
    | with_reducible refine (setRoutes_keep ..).after ?_ (by decide)
    | with_reducible refine Keep.ite (fun _ => ?_) (fun _ => ?_)
    | split)

theorem execNodeStaticWrite_keep {from_ static_ staticNode : Nat} {s : State} {t0 : State} (h : execNodeStaticWrite from_ static_ staticNode s = .next t0) : Keep 536948350 s t0 := by
  unfold execNodeStaticWrite at h
  try dsimp only at h
  repeat' (first | split at h)
  all_goals try (exact absurd h (by simp only [reduceCtorEq, not_false_eq_true]))
  all_goals try (with_reducible obtain rfl := Host.Outcome.next.inj h)
  iterate 30 (all_goals try first
    | with_reducible exact Keep.refl _ _
    | with_reducible assumption
    | (extract_lets +onlyGivenNames zz; refine Keep.cut zz ?_ (fun _ => ?_); (rotate_left; (try clear_value zz); rotate_right; subst zz))
    | (extract_lets +onlyGivenNames zz; subst zz)
    | with_reducible refine (takeNode_keep ..).after ?_ (by decide)
    | with_reducible refine (announceAll_keep ..).after ?_ (by decide)
    | with_reducible refine (countIo_keep ..).after ?_ (by decide)
    | with_reducible refine (setF_keep ..).after ?_ (by decide)
    | with_reducible refine Keep.ite (fun _ => ?_) (fun _ => ?_)
    | split)

theorem execRouteRead_keep {from_ first : Nat} {s : State} {t0 : State} (h : execRouteRead from_ first s = .next t0) : Keep 1026 s t0 := by
  unfold execRouteRead at h
  try dsimp only at h
  repeat' (first | split at h)
  all_goals try (exact absurd h (by simp only [reduceCtorEq, not_false_eq_true]))
  all_goals try (with_reducible obtain rfl := Host.Outcome.next.inj h)
  iterate 30 (all_goals try first
    | with_reducible exact Keep.refl _ _
    | with_reducible assumption
    | with_reducible refine (countIo_keep ..).after ?_ (by decide)
    | with_reducible refine (setF_keep ..).after ?_ (by decide)
    | with_reducible refine Keep.ite (fun _ => ?_) (fun _ => ?_)
    | split)

theorem execRouteWrite_keep {from_ first last mask : Nat} {s : State} {t0 : State} (h : execRouteWrite from_ first last mask s = .next t0) : Keep 536871938 s t0 := by
  unfold execRouteWrite at h
  try dsimp only at h
  repeat' (first | split at h)
  all_goals try (exact absurd h (by simp only [reduceCtorEq, not_false_eq_true]))
  all_goals try (with_reducible obtain rfl := Host.Outcome.next.inj h)
  iterate 30 (all_goals try first
    | with_reducible exact Keep.refl _ _
    | with_reducible assumption
    | with_reducible refine (setRoutes_keep ..).after ?_ (by decide)
    | with_reducible refine (countIo_keep ..).after ?_ (by decide)
    | with_reducible refine (setF_keep ..).after ?_ (by decide)
    | with_reducible refine Keep.ite (fun _ => ?_) (fun _ => ?_)
    | split)

theorem execConnReadRecord_keep {from_ conn : Nat} {s : State} {t0 : State} (h : execConnReadRecord from_ conn s = .next t0) : Keep 1026 s t0 := by
  unfold execConnReadRecord at h
  try dsimp only at h
  repeat' (first | split at h)
  all_goals try (exact absurd h (by simp only [reduceCtorEq, not_false_eq_true]))
  all_goals try (with_reducible obtain rfl := Host.Outcome.next.inj h)
  iterate 30 (all_goals try first
    | with_reducible exact Keep.refl _ _
    | with_reducible assumption
    | (extract_lets +onlyGivenNames zz; refine Keep.cut zz ?_ (fun _ => ?_); (rotate_left; (try clear_value zz); rotate_right; subst zz))
    | (extract_lets +onlyGivenNames zz; subst zz)
    | with_reducible refine (showBytes_keep ..).after ?_ (by decide)
    | with_reducible refine (countIo_keep ..).after ?_ (by decide)
    | with_reducible refine (setF_keep ..).after ?_ (by decide)
    | with_reducible refine Keep.ite (fun _ => ?_) (fun _ => ?_)
    | split)

theorem execConnFail_keep {from_ conn : Nat} {s : State} {t0 : State} (h : execConnFail from_ conn s = .next t0) : Keep 536948350 s t0 := by
  unfold execConnFail at h
  try dsimp only at h
  repeat' (first | split at h)
  all_goals try (exact absurd h (by simp only [reduceCtorEq, not_false_eq_true]))
  all_goals try (with_reducible obtain rfl := Host.Outcome.next.inj h)
  iterate 30 (all_goals try first
    | with_reducible exact Keep.refl _ _
    | with_reducible assumption
    | with_reducible refine (failConn_keep ..).after ?_ (by decide)
    | with_reducible refine (countIo_keep ..).after ?_ (by decide)
    | with_reducible refine (setF_keep ..).after ?_ (by decide)
    | with_reducible refine Keep.ite (fun _ => ?_) (fun _ => ?_)
    | split)

theorem execRegionOpReadEntry_keep {from_ index : Nat} {s : State} {t0 : State} (h : execRegionOpReadEntry from_ index s = .next t0) : Keep 1026 s t0 := by
  unfold execRegionOpReadEntry at h
  try dsimp only at h
  repeat' (first | split at h)
  all_goals try (exact absurd h (by simp only [reduceCtorEq, not_false_eq_true]))
  all_goals try (with_reducible obtain rfl := Host.Outcome.next.inj h)
  iterate 30 (all_goals try first
    | with_reducible exact Keep.refl _ _
    | with_reducible assumption
    | with_reducible refine regionOp_keep _ _ _ _ _ (by decide) (fun _ _ => ?_)
    | with_reducible refine (showBytes_keep ..).after ?_ (by decide)
    | with_reducible refine (countIo_keep ..).after ?_ (by decide)
    | with_reducible refine Keep.ite (fun _ => ?_) (fun _ => ?_)
    | split)

theorem execRegionOpRevoke_keep {from_ index : Nat} {s : State} {t0 : State} (h : execRegionOpRevoke from_ index s = .next t0) : Keep 536946254 s t0 := by
  unfold execRegionOpRevoke at h
  try dsimp only at h
  repeat' (first | split at h)
  all_goals try (exact absurd h (by simp only [reduceCtorEq, not_false_eq_true]))
  all_goals try (with_reducible obtain rfl := Host.Outcome.next.inj h)
  iterate 30 (all_goals try first
    | with_reducible exact Keep.refl _ _
    | with_reducible assumption
    | with_reducible refine (regionOpRevoke_keep ..).after ?_ (by decide)
    | with_reducible refine (countIo_keep ..).after ?_ (by decide)
    | with_reducible refine Keep.ite (fun _ => ?_) (fun _ => ?_)
    | split)

theorem execRevokeAndFree_keep {from_ index : Nat} {s : State} {t0 : State} (h : execRevokeAndFree from_ index s = .next t0) : Keep 536946254 s t0 := by
  unfold execRevokeAndFree at h
  try dsimp only at h
  repeat' (first | split at h)
  all_goals try (exact absurd h (by simp only [reduceCtorEq, not_false_eq_true]))
  all_goals try (with_reducible obtain rfl := Host.Outcome.next.inj h)
  iterate 30 (all_goals try first
    | with_reducible exact Keep.refl _ _
    | with_reducible assumption
    | with_reducible refine (regionOpRevoke_keep ..).after ?_ (by decide)
    | with_reducible refine (countIo_keep ..).after ?_ (by decide)
    | with_reducible refine Keep.ite (fun _ => ?_) (fun _ => ?_)
    | split)

theorem execSluiceDecide_keep {y0 : Nat} {arrivals : List Arrival} {credits : List Nat} {s : State} {t0 : State} (h : execSluiceDecide y0 arrivals credits s = .next t0) : Keep 1610612748 s t0 := by
  unfold execSluiceDecide at h
  try dsimp only at h
  repeat' (first | split at h)
  all_goals try (exact absurd h (by simp only [reduceCtorEq, not_false_eq_true]))
  all_goals try (with_reducible obtain rfl := Host.Outcome.next.inj h)
  iterate 30 (all_goals try first
    | with_reducible exact Keep.refl _ _
    | with_reducible assumption
    | with_reducible refine live_keep _ _ (fun _ => ?_)
    | with_reducible refine (sluNext_keep ..).after ?_ (by decide)
    | with_reducible refine Keep.ite (fun _ => ?_) (fun _ => ?_)
    | split)

theorem execSluicePreempt_keep {y0 : Nat} {arrivals : List Arrival} {credits : List Nat} {s : State} {t0 : State} (h : execSluicePreempt y0 arrivals credits s = .next t0) : Keep 1610612748 s t0 := by
  unfold execSluicePreempt at h
  try dsimp only at h
  repeat' (first | split at h)
  all_goals try (exact absurd h (by simp only [reduceCtorEq, not_false_eq_true]))
  all_goals try (with_reducible obtain rfl := Host.Outcome.next.inj h)
  iterate 30 (all_goals try first
    | with_reducible exact Keep.refl _ _
    | with_reducible assumption
    | with_reducible refine live_keep _ _ (fun _ => ?_)
    | with_reducible refine (sluReturn_keep ..).after ?_ (by decide)
    | with_reducible refine (sluPreempt_keep ..).after ?_ (by decide)
    | with_reducible refine (sluArrive_keep ..).after ?_ (by decide)
    | with_reducible refine Keep.ite (fun _ => ?_) (fun _ => ?_)
    | split)

theorem execModelBind_keep {c : Cmd} {s : State} {t0 : State} (h : execModelBind c s = .next t0) : Keep 68234830 s t0 := by
  unfold execModelBind at h
  try dsimp only at h
  repeat' (first | split at h)
  all_goals try (exact absurd h (by simp only [reduceCtorEq, not_false_eq_true]))
  all_goals try (with_reducible obtain rfl := Host.Outcome.next.inj h)
  iterate 30 (all_goals try first
    | with_reducible exact Keep.refl _ _
    | with_reducible assumption
    | with_reducible refine hostCmd_keep (by decide) (fun _ => ?_) (fun _ => ?_)
    | with_reducible refine (modelBind_keepD (by assumption)).after ?_ (by decide)
    | with_reducible refine (modelBind_keepW (by assumption)).after ?_ (by decide)
    | with_reducible refine Keep.ite (fun _ => ?_) (fun _ => ?_)
    | split)

theorem execModelUnbind_keep {c : Cmd} {s : State} {t0 : State} (h : execModelUnbind c s = .next t0) : Keep 370225134 s t0 := by
  unfold execModelUnbind at h
  try dsimp only at h
  repeat' (first | split at h)
  all_goals try (exact absurd h (by simp only [reduceCtorEq, not_false_eq_true]))
  all_goals try (with_reducible obtain rfl := Host.Outcome.next.inj h)
  iterate 30 (all_goals try first
    | with_reducible exact Keep.refl _ _
    | with_reducible assumption
    | with_reducible refine hostCmd_keep (by decide) (fun _ => ?_) (fun _ => ?_)
    | with_reducible refine (modelUnbind_keepD (by assumption)).after ?_ (by decide)
    | with_reducible refine (modelUnbind_keepW (by assumption)).after ?_ (by decide)
    | with_reducible refine Keep.ite (fun _ => ?_) (fun _ => ?_)
    | split)

theorem execTailBind_keep {c : Cmd} {s : State} {t0 : State} (h : execTailBind c s = .next t0) : Keep 69283406 s t0 := by
  unfold execTailBind at h
  try dsimp only at h
  repeat' (first | split at h)
  all_goals try (exact absurd h (by simp only [reduceCtorEq, not_false_eq_true]))
  all_goals try (with_reducible obtain rfl := Host.Outcome.next.inj h)
  iterate 30 (all_goals try first
    | with_reducible exact Keep.refl _ _
    | with_reducible assumption
    | with_reducible refine hostCmd_keep (by decide) (fun _ => ?_) (fun _ => ?_)
    | with_reducible refine (tailBind_keepD (by assumption)).after ?_ (by decide)
    | with_reducible refine (tailBind_keepW (by assumption)).after ?_ (by decide)
    | with_reducible refine Keep.ite (fun _ => ?_) (fun _ => ?_)
    | split)

theorem execTailUnbind_keep {c : Cmd} {s : State} {t0 : State} (h : execTailUnbind c s = .next t0) : Keep 2174542 s t0 := by
  unfold execTailUnbind at h
  try dsimp only at h
  repeat' (first | split at h)
  all_goals try (exact absurd h (by simp only [reduceCtorEq, not_false_eq_true]))
  all_goals try (with_reducible obtain rfl := Host.Outcome.next.inj h)
  iterate 30 (all_goals try first
    | with_reducible exact Keep.refl _ _
    | with_reducible assumption
    | with_reducible refine hostCmd_keep (by decide) (fun _ => ?_) (fun _ => ?_)
    | with_reducible refine (tailUnbind_keepD (by assumption)).after ?_ (by decide)
    | with_reducible refine (tailUnbind_keepW (by assumption)).after ?_ (by decide)
    | with_reducible refine Keep.ite (fun _ => ?_) (fun _ => ?_)
    | split)

theorem execAdapterLoad_keep {c : Cmd} {s : State} {t0 : State} (h : execAdapterLoad c s = .next t0) : Keep 4271694 s t0 := by
  unfold execAdapterLoad at h
  try dsimp only at h
  repeat' (first | split at h)
  all_goals try (exact absurd h (by simp only [reduceCtorEq, not_false_eq_true]))
  all_goals try (with_reducible obtain rfl := Host.Outcome.next.inj h)
  iterate 30 (all_goals try first
    | with_reducible exact Keep.refl _ _
    | with_reducible assumption
    | with_reducible refine hostCmd_keep (by decide) (fun _ => ?_) (fun _ => ?_)
    | with_reducible refine (adapterLoad_keepD (by assumption)).after ?_ (by decide)
    | with_reducible refine (adapterLoad_keepW (by assumption)).after ?_ (by decide)
    | with_reducible refine Keep.ite (fun _ => ?_) (fun _ => ?_)
    | split)

theorem execAdapterRetire_keep {c : Cmd} {s : State} {t0 : State} (h : execAdapterRetire c s = .next t0) : Keep 373370862 s t0 := by
  unfold execAdapterRetire at h
  try dsimp only at h
  repeat' (first | split at h)
  all_goals try (exact absurd h (by simp only [reduceCtorEq, not_false_eq_true]))
  all_goals try (with_reducible obtain rfl := Host.Outcome.next.inj h)
  iterate 30 (all_goals try first
    | with_reducible exact Keep.refl _ _
    | with_reducible assumption
    | with_reducible refine hostCmd_keep (by decide) (fun _ => ?_) (fun _ => ?_)
    | with_reducible refine (adapterRetire_keepD (by assumption)).after ?_ (by decide)
    | with_reducible refine (adapterRetire_keepW (by assumption)).after ?_ (by decide)
    | with_reducible refine Keep.ite (fun _ => ?_) (fun _ => ?_)
    | split)

theorem execWheelAttach_keep {c : Cmd} {s : State} {t0 : State} (h : execWheelAttach c s = .next t0) : Keep 612445790 s t0 := by
  unfold execWheelAttach at h
  try dsimp only at h
  repeat' (first | split at h)
  all_goals try (exact absurd h (by simp only [reduceCtorEq, not_false_eq_true]))
  all_goals try (with_reducible obtain rfl := Host.Outcome.next.inj h)
  iterate 30 (all_goals try first
    | with_reducible exact Keep.refl _ _
    | with_reducible assumption
    | with_reducible refine hostCmd_keep (by decide) (fun _ => ?_) (fun _ => ?_)
    | with_reducible refine (wheelAttach_keepD (by assumption)).after ?_ (by decide)
    | with_reducible refine (wheelAttach_keepW (by assumption)).after ?_ (by decide)
    | with_reducible refine Keep.ite (fun _ => ?_) (fun _ => ?_)
    | split)

theorem execWheelDetach_keep {c : Cmd} {s : State} {t0 : State} (h : execWheelDetach c s = .next t0) : Keep 780349422 s t0 := by
  unfold execWheelDetach at h
  try dsimp only at h
  repeat' (first | split at h)
  all_goals try (exact absurd h (by simp only [reduceCtorEq, not_false_eq_true]))
  all_goals try (with_reducible obtain rfl := Host.Outcome.next.inj h)
  iterate 30 (all_goals try first
    | with_reducible exact Keep.refl _ _
    | with_reducible assumption
    | with_reducible refine hostCmd_keep (by decide) (fun _ => ?_) (fun _ => ?_)
    | with_reducible refine (wheelDetach_keepD (by assumption)).after ?_ (by decide)
    | with_reducible refine (wheelDetach_keepW (by assumption)).after ?_ (by decide)
    | with_reducible refine Keep.ite (fun _ => ?_) (fun _ => ?_)
    | split)

theorem execBeatIn_keep {s : State} {t0 : State} (h : execBeatIn s = .next t0) : Keep 209719278 s t0 := by
  unfold execBeatIn at h
  try dsimp only at h
  repeat' (first | split at h)
  all_goals try (exact absurd h (by simp only [reduceCtorEq, not_false_eq_true]))
  all_goals try (with_reducible obtain rfl := Host.Outcome.next.inj h)
  iterate 30 (all_goals try first
    | with_reducible exact Keep.refl _ _
    | with_reducible assumption
    | with_reducible refine live_keep _ _ (fun _ => ?_)
    | with_reducible refine (beatWheel_keep ..).after ?_ (by decide)
    | with_reducible refine Keep.foldl (fun _ _ => ?_) ?_ _
    | with_reducible refine Keep.foldlFst (fun _ _ => ?_) ?_ _
    | with_reducible refine Keep.foldlSnd (fun _ _ => ?_) ?_ _
    | with_reducible refine Keep.ite (fun _ => ?_) (fun _ => ?_)
    | split)

theorem execWheelExpertWrite_keep {from_ wheel reg value : Nat} {s : State} {t0 : State} (h : execWheelExpertWrite from_ wheel reg value s = .next t0) : Keep 8389634 s t0 := by
  unfold execWheelExpertWrite at h
  try dsimp only at h
  repeat' (first | split at h)
  all_goals try (exact absurd h (by simp only [reduceCtorEq, not_false_eq_true]))
  all_goals try (with_reducible obtain rfl := Host.Outcome.next.inj h)
  iterate 30 (all_goals try first
    | with_reducible exact Keep.refl _ _
    | with_reducible assumption
    | with_reducible refine (wheelExpert_keep ..).after ?_ (by decide)
    | with_reducible refine (countIo_keep ..).after ?_ (by decide)
    | with_reducible refine Keep.ite (fun _ => ?_) (fun _ => ?_)
    | split)

theorem execWheelStall_keep {wheel : Nat} {s : State} {t0 : State} (h : execWheelStall wheel s = .next t0) : Keep 1049309182 s t0 := by
  unfold execWheelStall at h
  try dsimp only at h
  repeat' (first | split at h)
  all_goals try (exact absurd h (by simp only [reduceCtorEq, not_false_eq_true]))
  all_goals try (with_reducible obtain rfl := Host.Outcome.next.inj h)
  iterate 30 (all_goals try first
    | with_reducible exact Keep.refl _ _
    | with_reducible assumption
    | with_reducible refine live_keep _ _ (fun _ => ?_)
    | with_reducible refine (wheelStall_keep ..).after ?_ (by decide)
    | with_reducible refine Keep.ite (fun _ => ?_) (fun _ => ?_)
    | split)

theorem execTriggerConsume_keep {region elapsedNs : Nat} {s : State} {t0 : State} (h : execTriggerConsume region elapsedNs s = .next t0) : Keep 1066086398 s t0 := by
  unfold execTriggerConsume at h
  try dsimp only at h
  repeat' (first | split at h)
  all_goals try (exact absurd h (by simp only [reduceCtorEq, not_false_eq_true]))
  all_goals try (with_reducible obtain rfl := Host.Outcome.next.inj h)
  iterate 30 (all_goals try first
    | with_reducible exact Keep.refl _ _
    | with_reducible assumption
    | with_reducible refine live_keep _ _ (fun _ => ?_)
    | with_reducible refine (onTrigger_keep ..).after ?_ (by decide)
    | with_reducible refine (consumeTrigger_keep (by assumption)).after ?_ (by decide)
    | with_reducible refine (consumeTrigger_keepP ..).after ?_ (by decide)
    | with_reducible refine Keep.ite (fun _ => ?_) (fun _ => ?_)
    | split)

theorem execGangDeal_keep {part : Nat} {s : State} {t0 : State} (h : execGangDeal part s = .next t0) : Keep 3196792830 s t0 := by
  unfold execGangDeal at h
  try dsimp only at h
  repeat' (first | split at h)
  all_goals try (exact absurd h (by simp only [reduceCtorEq, not_false_eq_true]))
  all_goals try (with_reducible obtain rfl := Host.Outcome.next.inj h)
  iterate 30 (all_goals try first
    | with_reducible exact Keep.refl _ _
    | with_reducible assumption
    | with_reducible refine clocked_keep _ _ (fun _ => ?_)
    | with_reducible refine (gangDeal_keep ..).after ?_ (by decide)
    | with_reducible refine Keep.ite (fun _ => ?_) (fun _ => ?_)
    | split)

theorem execExpanderDecode_keep {wheel stamp gang : Nat} {s : State} {t0 : State} (h : execExpanderDecode wheel stamp gang s = .next t0) : Keep 4270534654 s t0 := by
  unfold execExpanderDecode at h
  try dsimp only at h
  repeat' (first | split at h)
  all_goals try (exact absurd h (by simp only [reduceCtorEq, not_false_eq_true]))
  all_goals try (with_reducible obtain rfl := Host.Outcome.next.inj h)
  iterate 30 (all_goals try first
    | with_reducible exact Keep.refl _ _
    | with_reducible assumption
    | with_reducible refine clocked_keep _ _ (fun _ => ?_)
    | with_reducible refine (expanderDecode_keep ..).after ?_ (by decide)
    | with_reducible refine Keep.ite (fun _ => ?_) (fun _ => ?_)
    | split)

theorem execItemDone_keep {wheel stamp item : Nat} {nodes : List NodeVal} {s : State} {t0 : State} (h : execItemDone wheel stamp item nodes s = .next t0) : Keep 3196792830 s t0 := by
  unfold execItemDone at h
  try dsimp only at h
  repeat' (first | split at h)
  all_goals try (exact absurd h (by simp only [reduceCtorEq, not_false_eq_true]))
  all_goals try (with_reducible obtain rfl := Host.Outcome.next.inj h)
  iterate 30 (all_goals try first
    | with_reducible exact Keep.refl _ _
    | with_reducible assumption
    | with_reducible refine clocked_keep _ _ (fun _ => ?_)
    | with_reducible refine (itemDone_keep ..).after ?_ (by decide)
    | with_reducible refine Keep.ite (fun _ => ?_) (fun _ => ?_)
    | split)

theorem execStepCommit_keep {session : Nat} {late : Bool} {s : State} {t0 : State} (h : execStepCommit session late s = .next t0) : Keep 1049309182 s t0 := by
  unfold execStepCommit at h
  try dsimp only at h
  repeat' (first | split at h)
  all_goals try (exact absurd h (by simp only [reduceCtorEq, not_false_eq_true]))
  all_goals try (with_reducible obtain rfl := Host.Outcome.next.inj h)
  iterate 30 (all_goals try first
    | with_reducible exact Keep.refl _ _
    | with_reducible assumption
    | with_reducible refine live_keep _ _ (fun _ => ?_)
    | with_reducible refine (stepCommit_keep ..).after ?_ (by decide)
    | with_reducible refine Keep.ite (fun _ => ?_) (fun _ => ?_)
    | split)

theorem execCommitReserveTimeout_keep {session : Nat} {s : State} {t0 : State} (h : execCommitReserveTimeout session s = .next t0) : Keep 1049309182 s t0 := by
  unfold execCommitReserveTimeout at h
  try dsimp only at h
  repeat' (first | split at h)
  all_goals try (exact absurd h (by simp only [reduceCtorEq, not_false_eq_true]))
  all_goals try (with_reducible obtain rfl := Host.Outcome.next.inj h)
  iterate 30 (all_goals try first
    | with_reducible exact Keep.refl _ _
    | with_reducible assumption
    | with_reducible refine live_keep _ _ (fun _ => ?_)
    | with_reducible refine (commitTimeout_keep ..).after ?_ (by decide)
    | with_reducible refine Keep.ite (fun _ => ?_) (fun _ => ?_)
    | split)

theorem execChainTimeout_keep {wheel member : Nat} {s : State} {t0 : State} (h : execChainTimeout wheel member s = .next t0) : Keep 1049309182 s t0 := by
  unfold execChainTimeout at h
  try dsimp only at h
  repeat' (first | split at h)
  all_goals try (exact absurd h (by simp only [reduceCtorEq, not_false_eq_true]))
  all_goals try (with_reducible obtain rfl := Host.Outcome.next.inj h)
  iterate 30 (all_goals try first
    | with_reducible exact Keep.refl _ _
    | with_reducible assumption
    | with_reducible refine live_keep _ _ (fun _ => ?_)
    | with_reducible refine (chainTimeout_keep ..).after ?_ (by decide)
    | with_reducible refine Keep.ite (fun _ => ?_) (fun _ => ?_)
    | split)

theorem execRosterWrite_keep {wheel : Nat} {s : State} {t0 : State} (h : execRosterWrite wheel s = .next t0) : Keep 1049309182 s t0 := by
  unfold execRosterWrite at h
  try dsimp only at h
  repeat' (first | split at h)
  all_goals try (exact absurd h (by simp only [reduceCtorEq, not_false_eq_true]))
  all_goals try (with_reducible obtain rfl := Host.Outcome.next.inj h)
  iterate 30 (all_goals try first
    | with_reducible exact Keep.refl _ _
    | with_reducible assumption
    | with_reducible refine live_keep _ _ (fun _ => ?_)
    | with_reducible refine (rosterWrite_keep ..).after ?_ (by decide)
    | with_reducible refine Keep.ite (fun _ => ?_) (fun _ => ?_)
    | split)

theorem execReviveLayerResident_keep {session : Nat} {s : State} {t0 : State} (h : execReviveLayerResident session s = .next t0) : Keep 1049309182 s t0 := by
  unfold execReviveLayerResident at h
  try dsimp only at h
  repeat' (first | split at h)
  all_goals try (exact absurd h (by simp only [reduceCtorEq, not_false_eq_true]))
  all_goals try (with_reducible obtain rfl := Host.Outcome.next.inj h)
  iterate 30 (all_goals try first
    | with_reducible exact Keep.refl _ _
    | with_reducible assumption
    | with_reducible refine live_keep _ _ (fun _ => ?_)
    | with_reducible refine (reviveLayer_keep ..).after ?_ (by decide)
    | with_reducible refine Keep.ite (fun _ => ?_) (fun _ => ?_)
    | split)

theorem execCxdPortDown_keep {port : Nat} {s : State} {t0 : State} (h : execCxdPortDown port s = .next t0) : Keep 3598 s t0 := by
  unfold execCxdPortDown at h
  try dsimp only at h
  repeat' (first | split at h)
  all_goals try (exact absurd h (by simp only [reduceCtorEq, not_false_eq_true]))
  all_goals try (with_reducible obtain rfl := Host.Outcome.next.inj h)
  iterate 30 (all_goals try first
    | with_reducible exact Keep.refl _ _
    | with_reducible assumption
    | with_reducible refine live_keep _ _ (fun _ => ?_)
    | with_reducible refine (portOut_keep ..).after ?_ (by decide)
    | with_reducible refine Keep.ite (fun _ => ?_) (fun _ => ?_)
    | split)

theorem execCxdPortReturn_keep {port lanes : Nat} {s : State} {t0 : State} (h : execCxdPortReturn port lanes s = .next t0) : Keep 2 s t0 := by
  unfold execCxdPortReturn at h
  try dsimp only at h
  repeat' (first | split at h)
  all_goals try (exact absurd h (by simp only [reduceCtorEq, not_false_eq_true]))
  all_goals try (with_reducible obtain rfl := Host.Outcome.next.inj h)
  iterate 30 (all_goals try first
    | with_reducible exact Keep.refl _ _
    | with_reducible assumption
    | with_reducible refine live_keep _ _ (fun _ => ?_)
    | (extract_lets +onlyGivenNames zz; refine Keep.cut zz ?_ (fun _ => ?_); (rotate_left; (try clear_value zz); rotate_right; subst zz))
    | (extract_lets +onlyGivenNames zz; subst zz)
    | with_reducible refine (setF_keep ..).after ?_ (by decide)
    | with_reducible refine Keep.ite (fun _ => ?_) (fun _ => ?_)
    | split)

theorem execNvcDriveFatal_keep {drive : Nat} {s : State} {t0 : State} (h : execNvcDriveFatal drive s = .next t0) : Keep 3598 s t0 := by
  unfold execNvcDriveFatal at h
  try dsimp only at h
  repeat' (first | split at h)
  all_goals try (exact absurd h (by simp only [reduceCtorEq, not_false_eq_true]))
  all_goals try (with_reducible obtain rfl := Host.Outcome.next.inj h)
  iterate 30 (all_goals try first
    | with_reducible exact Keep.refl _ _
    | with_reducible assumption
    | with_reducible refine live_keep _ _ (fun _ => ?_)
    | with_reducible refine (driveOut_keep ..).after ?_ (by decide)
    | with_reducible refine Keep.ite (fun _ => ?_) (fun _ => ?_)
    | split)

theorem execNvcPrsntChange_keep {drive : Nat} {present : Bool} {s : State} {t0 : State} (h : execNvcPrsntChange drive present s = .next t0) : Keep 3598 s t0 := by
  unfold execNvcPrsntChange at h
  try dsimp only at h
  repeat' (first | split at h)
  all_goals try (exact absurd h (by simp only [reduceCtorEq, not_false_eq_true]))
  all_goals try (with_reducible obtain rfl := Host.Outcome.next.inj h)
  iterate 30 (all_goals try first
    | with_reducible exact Keep.refl _ _
    | with_reducible assumption
    | with_reducible refine live_keep _ _ (fun _ => ?_)
    | with_reducible refine (prsntChange_keep ..).after ?_ (by decide)
    | with_reducible refine Keep.ite (fun _ => ?_) (fun _ => ?_)
    | split)

theorem execDriveProtocolViolation_keep {drive : Nat} {header : List Byte} {s : State} {t0 : State} (h : execDriveProtocolViolation drive header s = .next t0) : Keep 3598 s t0 := by
  unfold execDriveProtocolViolation at h
  try dsimp only at h
  repeat' (first | split at h)
  all_goals try (exact absurd h (by simp only [reduceCtorEq, not_false_eq_true]))
  all_goals try (with_reducible obtain rfl := Host.Outcome.next.inj h)
  iterate 30 (all_goals try first
    | with_reducible exact Keep.refl _ _
    | with_reducible assumption
    | with_reducible refine live_keep _ _ (fun _ => ?_)
    | with_reducible refine (driveViolation_keep ..).after ?_ (by decide)
    | with_reducible refine Keep.ite (fun _ => ?_) (fun _ => ?_)
    | split)

theorem execTrayEventPoll_keep {port : Nat} {errors : List (List Nat)} {s : State} {t0 : State} (h : execTrayEventPoll port errors s = .next t0) : Keep 3598 s t0 := by
  unfold execTrayEventPoll at h
  try dsimp only at h
  repeat' (first | split at h)
  all_goals try (exact absurd h (by simp only [reduceCtorEq, not_false_eq_true]))
  all_goals try (with_reducible obtain rfl := Host.Outcome.next.inj h)
  iterate 30 (all_goals try first
    | with_reducible exact Keep.refl _ _
    | with_reducible assumption
    | with_reducible refine live_keep _ _ (fun _ => ?_)
    | with_reducible refine (logEv_keep ..).after ?_ (by decide)
    | with_reducible refine Keep.foldl (fun _ _ => ?_) ?_ _
    | with_reducible refine Keep.foldlFst (fun _ _ => ?_) ?_ _
    | with_reducible refine Keep.foldlSnd (fun _ _ => ?_) ?_ _
    | with_reducible refine Keep.ite (fun _ => ?_) (fun _ => ?_)
    | split)

theorem execTierTransferDone_keep {what : Transfer} {s : State} {t0 : State} (h : execTierTransferDone what s = .next t0) : Keep 1049309182 s t0 := by
  unfold execTierTransferDone at h
  try dsimp only at h
  repeat' (first | split at h)
  all_goals try (exact absurd h (by simp only [reduceCtorEq, not_false_eq_true]))
  all_goals try (with_reducible obtain rfl := Host.Outcome.next.inj h)
  iterate 30 (all_goals try first
    | with_reducible exact Keep.refl _ _
    | with_reducible assumption
    | with_reducible refine live_keep _ _ (fun _ => ?_)
    | with_reducible refine (transferDone_keep ..).after ?_ (by decide)
    | with_reducible refine Keep.ite (fun _ => ?_) (fun _ => ?_)
    | split)

theorem execTierReadFailed_keep {what : Transfer} {how : ReadFail} {s : State} {t0 : State} (h : execTierReadFailed what how s = .next t0) : Keep 1049309182 s t0 := by
  unfold execTierReadFailed at h
  try dsimp only at h
  repeat' (first | split at h)
  all_goals try (exact absurd h (by simp only [reduceCtorEq, not_false_eq_true]))
  all_goals try (with_reducible obtain rfl := Host.Outcome.next.inj h)
  iterate 30 (all_goals try first
    | with_reducible exact Keep.refl _ _
    | with_reducible assumption
    | with_reducible refine live_keep _ _ (fun _ => ?_)
    | with_reducible refine (readFailed_keep ..).after ?_ (by decide)
    | with_reducible refine Keep.ite (fun _ => ?_) (fun _ => ?_)
    | split)

theorem execPageLate_keep {wheel layer : Nat} {what : Transfer} {s : State} {t0 : State} (h : execPageLate wheel layer what s = .next t0) : Keep 1049309182 s t0 := by
  unfold execPageLate at h
  try dsimp only at h
  repeat' (first | split at h)
  all_goals try (exact absurd h (by simp only [reduceCtorEq, not_false_eq_true]))
  all_goals try (with_reducible obtain rfl := Host.Outcome.next.inj h)
  iterate 30 (all_goals try first
    | with_reducible exact Keep.refl _ _
    | with_reducible assumption
    | with_reducible refine live_keep _ _ (fun _ => ?_)
    | with_reducible refine (pageLate_keep ..).after ?_ (by decide)
    | with_reducible refine (appendsLate_keep ..).after ?_ (by decide)
    | with_reducible refine (fetchLate_keep ..).after ?_ (by decide)
    | with_reducible refine Keep.ite (fun _ => ?_) (fun _ => ?_)
    | split)

theorem execNvcCommandTimeout_keep {drive : Nat} {retried : Bool} {what : Option Transfer} {s : State} {t0 : State} (h : execNvcCommandTimeout drive retried what s = .next t0) : Keep 1049309182 s t0 := by
  unfold execNvcCommandTimeout at h
  try dsimp only at h
  repeat' (first | split at h)
  all_goals try (exact absurd h (by simp only [reduceCtorEq, not_false_eq_true]))
  all_goals try (with_reducible obtain rfl := Host.Outcome.next.inj h)
  iterate 30 (all_goals try first
    | with_reducible exact Keep.refl _ _
    | with_reducible assumption
    | with_reducible refine live_keep _ _ (fun _ => ?_)
    | with_reducible refine (nvcTimeout_keep ..).after ?_ (by decide)
    | with_reducible refine Keep.ite (fun _ => ?_) (fun _ => ?_)
    | split)

theorem execSpillwayRelief_keep {part tier : Nat} {columns : List Nat} {s : State} {t0 : State} (h : execSpillwayRelief part tier columns s = .next t0) : Keep 369233902 s t0 := by
  unfold execSpillwayRelief at h
  try dsimp only at h
  repeat' (first | split at h)
  all_goals try (exact absurd h (by simp only [reduceCtorEq, not_false_eq_true]))
  all_goals try (with_reducible obtain rfl := Host.Outcome.next.inj h)
  iterate 30 (all_goals try first
    | with_reducible exact Keep.refl _ _
    | with_reducible assumption
    | with_reducible refine live_keep _ _ (fun _ => ?_)
    | with_reducible refine (spillRelief_keep ..).after ?_ (by decide)
    | with_reducible refine Keep.ite (fun _ => ?_) (fun _ => ?_)
    | split)

theorem execCleanAhead_keep {part : Nat} {s : State} {t0 : State} (h : execCleanAhead part s = .next t0) : Keep 67112428 s t0 := by
  unfold execCleanAhead at h
  try dsimp only at h
  repeat' (first | split at h)
  all_goals try (exact absurd h (by simp only [reduceCtorEq, not_false_eq_true]))
  all_goals try (with_reducible obtain rfl := Host.Outcome.next.inj h)
  iterate 30 (all_goals try first
    | with_reducible exact Keep.refl _ _
    | with_reducible assumption
    | with_reducible refine live_keep _ _ (fun _ => ?_)
    | with_reducible refine (cleanAhead_keep ..).after ?_ (by decide)
    | with_reducible refine Keep.ite (fun _ => ?_) (fun _ => ?_)
    | split)

theorem execHeatPromotion_keep {handle : Nat} {s : State} {t0 : State} (h : execHeatPromotion handle s = .next t0) : Keep 369233902 s t0 := by
  unfold execHeatPromotion at h
  try dsimp only at h
  repeat' (first | split at h)
  all_goals try (exact absurd h (by simp only [reduceCtorEq, not_false_eq_true]))
  all_goals try (with_reducible obtain rfl := Host.Outcome.next.inj h)
  iterate 30 (all_goals try first
    | with_reducible exact Keep.refl _ _
    | with_reducible assumption
    | with_reducible refine live_keep _ _ (fun _ => ?_)
    | with_reducible refine (heatPromotion_keep ..).after ?_ (by decide)
    | with_reducible refine Keep.ite (fun _ => ?_) (fun _ => ?_)
    | split)

theorem execHeatSweep_keep {hot : List (Nat × List (Nat × Nat))} {s : State} {t0 : State} (h : execHeatSweep hot s = .next t0) : Keep 335740932 s t0 := by
  unfold execHeatSweep at h
  try dsimp only at h
  repeat' (first | split at h)
  all_goals try (exact absurd h (by simp only [reduceCtorEq, not_false_eq_true]))
  all_goals try (with_reducible obtain rfl := Host.Outcome.next.inj h)
  iterate 30 (all_goals try first
    | with_reducible exact Keep.refl _ _
    | with_reducible assumption
    | with_reducible refine live_keep _ _ (fun _ => ?_)
    | with_reducible refine (heatSweep_keep ..).after ?_ (by decide)
    | with_reducible refine Keep.ite (fun _ => ?_) (fun _ => ?_)
    | split)

theorem execRecoveryReadDone_keep {handle : Nat} {failed : Bool} {s : State} {t0 : State} (h : execRecoveryReadDone handle failed s = .next t0) : Keep 2123051006 s t0 := by
  unfold execRecoveryReadDone at h
  try dsimp only at h
  repeat' (first | split at h)
  all_goals try (exact absurd h (by simp only [reduceCtorEq, not_false_eq_true]))
  all_goals try (with_reducible obtain rfl := Host.Outcome.next.inj h)
  iterate 30 (all_goals try first
    | with_reducible exact Keep.refl _ _
    | with_reducible assumption
    | with_reducible refine live_keep _ _ (fun _ => ?_)
    | with_reducible refine (recovered_keep ..).after ?_ (by decide)
    | with_reducible refine Keep.ite (fun _ => ?_) (fun _ => ?_)
    | split)

theorem execTmgReadRecord_keep {from_ handle : Nat} {s : State} {t0 : State} (h : execTmgReadRecord from_ handle s = .next t0) : Keep 1026 s t0 := by
  unfold execTmgReadRecord at h
  try dsimp only at h
  repeat' (first | split at h)
  all_goals try (exact absurd h (by simp only [reduceCtorEq, not_false_eq_true]))
  all_goals try (with_reducible obtain rfl := Host.Outcome.next.inj h)
  iterate 30 (all_goals try first
    | with_reducible exact Keep.refl _ _
    | with_reducible assumption
    | with_reducible refine pageOp_keep _ _ _ _ _ (by decide) (fun _ _ => ?_)
    | with_reducible refine (showBytes_keep ..).after ?_ (by decide)
    | with_reducible refine (countIo_keep ..).after ?_ (by decide)
    | with_reducible refine Keep.ite (fun _ => ?_) (fun _ => ?_)
    | split)

theorem execTmgReadHeader_keep {from_ handle : Nat} {s : State} {t0 : State} (h : execTmgReadHeader from_ handle s = .next t0) : Keep 369233902 s t0 := by
  unfold execTmgReadHeader at h
  try dsimp only at h
  repeat' (first | split at h)
  all_goals try (exact absurd h (by simp only [reduceCtorEq, not_false_eq_true]))
  all_goals try (with_reducible obtain rfl := Host.Outcome.next.inj h)
  iterate 30 (all_goals try first
    | with_reducible exact Keep.refl _ _
    | with_reducible assumption
    | with_reducible refine pageOp_keep _ _ _ _ _ (by decide) (fun _ _ => ?_)
    | with_reducible refine (startRecovery_keep ..).after ?_ (by decide)
    | with_reducible refine (showBytes_keep ..).after ?_ (by decide)
    | with_reducible refine (countIo_keep ..).after ?_ (by decide)
    | with_reducible refine Keep.ite (fun _ => ?_) (fun _ => ?_)
    | split)

theorem execMarkRecovery_keep {from_ handle : Nat} {s : State} {t0 : State} (h : execMarkRecovery from_ handle s = .next t0) : Keep 369233902 s t0 := by
  unfold execMarkRecovery at h
  try dsimp only at h
  repeat' (first | split at h)
  all_goals try (exact absurd h (by simp only [reduceCtorEq, not_false_eq_true]))
  all_goals try (with_reducible obtain rfl := Host.Outcome.next.inj h)
  iterate 30 (all_goals try first
    | with_reducible exact Keep.refl _ _
    | with_reducible assumption
    | with_reducible refine pageOp_keep _ _ _ _ _ (by decide) (fun _ _ => ?_)
    | with_reducible refine live_keep _ _ (fun _ => ?_)
    | with_reducible refine (startRecovery_keep ..).after ?_ (by decide)
    | with_reducible refine (countIo_keep ..).after ?_ (by decide)
    | with_reducible refine Keep.ite (fun _ => ?_) (fun _ => ?_)
    | split)

theorem execReadMap_keep {from_ session layer page : Nat} {s : State} {t0 : State} (h : execReadMap from_ session layer page s = .next t0) : Keep 1026 s t0 := by
  unfold execReadMap at h
  try dsimp only at h
  repeat' (first | split at h)
  all_goals try (exact absurd h (by simp only [reduceCtorEq, not_false_eq_true]))
  all_goals try (with_reducible obtain rfl := Host.Outcome.next.inj h)
  iterate 30 (all_goals try first
    | with_reducible exact Keep.refl _ _
    | with_reducible assumption
    | with_reducible refine (readMap_keep ..).after ?_ (by decide)
    | with_reducible refine (countIo_keep ..).after ?_ (by decide)
    | with_reducible refine Keep.ite (fun _ => ?_) (fun _ => ?_)
    | split)

theorem execPrefixLookup_keep {c : Cmd} {s : State} {t0 : State} (h : execPrefixLookup c s = .next t0) : Keep 1049309182 s t0 := by
  unfold execPrefixLookup at h
  try dsimp only at h
  repeat' (first | split at h)
  all_goals try (exact absurd h (by simp only [reduceCtorEq, not_false_eq_true]))
  all_goals try (with_reducible obtain rfl := Host.Outcome.next.inj h)
  iterate 30 (all_goals try first
    | with_reducible exact Keep.refl _ _
    | with_reducible assumption
    | with_reducible refine hostCmd_keep (by decide) (fun _ => ?_) (fun _ => ?_)
    | with_reducible refine (prefixLookup_keepD (by assumption)).after ?_ (by decide)
    | with_reducible refine (prefixLookup_keepW (by assumption)).after ?_ (by decide)
    | with_reducible refine Keep.ite (fun _ => ?_) (fun _ => ?_)
    | split)

theorem execNextMatch_keep {c : Cmd} {s : State} {t0 : State} (h : execNextMatch c s = .next t0) : Keep 906047486 s t0 := by
  unfold execNextMatch at h
  try dsimp only at h
  repeat' (first | split at h)
  all_goals try (exact absurd h (by simp only [reduceCtorEq, not_false_eq_true]))
  all_goals try (with_reducible obtain rfl := Host.Outcome.next.inj h)
  iterate 30 (all_goals try first
    | with_reducible exact Keep.refl _ _
    | with_reducible assumption
    | with_reducible refine hostCmd_keep (by decide) (fun _ => ?_) (fun _ => ?_)
    | with_reducible refine (nextMatch_keepD (by assumption)).after ?_ (by decide)
    | with_reducible refine (nextMatch_keepW (by assumption)).after ?_ (by decide)
    | with_reducible refine Keep.ite (fun _ => ?_) (fun _ => ?_)
    | split)

theorem execPrefixRelease_keep {c : Cmd} {s : State} {t0 : State} (h : execPrefixRelease c s = .next t0) : Keep 268512846 s t0 := by
  unfold execPrefixRelease at h
  try dsimp only at h
  repeat' (first | split at h)
  all_goals try (exact absurd h (by simp only [reduceCtorEq, not_false_eq_true]))
  all_goals try (with_reducible obtain rfl := Host.Outcome.next.inj h)
  iterate 30 (all_goals try first
    | with_reducible exact Keep.refl _ _
    | with_reducible assumption
    | with_reducible refine hostCmd_keep (by decide) (fun _ => ?_) (fun _ => ?_)
    | with_reducible refine (prefixRelease_keepD (by assumption)).after ?_ (by decide)
    | with_reducible refine (prefixRelease_keepW (by assumption)).after ?_ (by decide)
    | with_reducible refine Keep.ite (fun _ => ?_) (fun _ => ?_)
    | split)

theorem execLookupSlotTimeout_keep {slot : Nat} {s : State} {t0 : State} (h : execLookupSlotTimeout slot s = .next t0) : Keep 268435456 s t0 := by
  unfold execLookupSlotTimeout at h
  try dsimp only at h
  repeat' (first | split at h)
  all_goals try (exact absurd h (by simp only [reduceCtorEq, not_false_eq_true]))
  all_goals try (with_reducible obtain rfl := Host.Outcome.next.inj h)
  iterate 30 (all_goals try first
    | with_reducible exact Keep.refl _ _
    | with_reducible assumption
    | with_reducible refine live_keep _ _ (fun _ => ?_)
    | with_reducible refine (modPme_keep ..).after ?_ (by decide)
    | with_reducible refine Keep.ite (fun _ => ?_) (fun _ => ?_)
    | split)

theorem execPrefixAttach_keep {c : Cmd} {s : State} {t0 : State} (h : execPrefixAttach c s = .next t0) : Keep 1049309182 s t0 := by
  unfold execPrefixAttach at h
  try dsimp only at h
  repeat' (first | split at h)
  all_goals try (exact absurd h (by simp only [reduceCtorEq, not_false_eq_true]))
  all_goals try (with_reducible obtain rfl := Host.Outcome.next.inj h)
  iterate 30 (all_goals try first
    | with_reducible exact Keep.refl _ _
    | with_reducible assumption
    | with_reducible refine hostCmd_keep (by decide) (fun _ => ?_) (fun _ => ?_)
    | with_reducible refine (prefixAttach_keepD (by assumption)).after ?_ (by decide)
    | with_reducible refine (prefixAttach_keepW (by assumption)).after ?_ (by decide)
    | with_reducible refine Keep.ite (fun _ => ?_) (fun _ => ?_)
    | split)

theorem execImportDone_keep {id : Nat} {what : Option ImportData} {s : State} {t0 : State} (h : execImportDone id what s = .next t0) : Keep 906178542 s t0 := by
  unfold execImportDone at h
  try dsimp only at h
  repeat' (first | split at h)
  all_goals try (exact absurd h (by simp only [reduceCtorEq, not_false_eq_true]))
  all_goals try (with_reducible obtain rfl := Host.Outcome.next.inj h)
  iterate 30 (all_goals try first
    | with_reducible exact Keep.refl _ _
    | with_reducible assumption
    | with_reducible refine live_keep _ _ (fun _ => ?_)
    | with_reducible refine (importDone_keep ..).after ?_ (by decide)
    | with_reducible refine Keep.ite (fun _ => ?_) (fun _ => ?_)
    | split)

theorem execPrefixPublish_keep {c : Cmd} {s : State} {t0 : State} (h : execPrefixPublish c s = .next t0) : Keep 1049309182 s t0 := by
  unfold execPrefixPublish at h
  try dsimp only at h
  repeat' (first | split at h)
  all_goals try (exact absurd h (by simp only [reduceCtorEq, not_false_eq_true]))
  all_goals try (with_reducible obtain rfl := Host.Outcome.next.inj h)
  iterate 30 (all_goals try first
    | with_reducible exact Keep.refl _ _
    | with_reducible assumption
    | with_reducible refine hostCmd_keep (by decide) (fun _ => ?_) (fun _ => ?_)
    | with_reducible refine (prefixPublish_keepD (by assumption)).after ?_ (by decide)
    | with_reducible refine (prefixPublish_keepW (by assumption)).after ?_ (by decide)
    | with_reducible refine Keep.ite (fun _ => ?_) (fun _ => ?_)
    | split)

theorem execPrefixRevoke_keep {c : Cmd} {s : State} {t0 : State} (h : execPrefixRevoke c s = .next t0) : Keep 369176558 s t0 := by
  unfold execPrefixRevoke at h
  try dsimp only at h
  repeat' (first | split at h)
  all_goals try (exact absurd h (by simp only [reduceCtorEq, not_false_eq_true]))
  all_goals try (with_reducible obtain rfl := Host.Outcome.next.inj h)
  iterate 30 (all_goals try first
    | with_reducible exact Keep.refl _ _
    | with_reducible assumption
    | with_reducible refine hostCmd_keep (by decide) (fun _ => ?_) (fun _ => ?_)
    | with_reducible refine (prefixRevoke_keepD (by assumption)).after ?_ (by decide)
    | with_reducible refine (prefixRevoke_keepW (by assumption)).after ?_ (by decide)
    | with_reducible refine Keep.ite (fun _ => ?_) (fun _ => ?_)
    | split)

theorem execPrefixPublication_keep {session : Nat} {s : State} {t0 : State} (h : execPrefixPublication session s = .next t0) : Keep 369233918 s t0 := by
  unfold execPrefixPublication at h
  try dsimp only at h
  repeat' (first | split at h)
  all_goals try (exact absurd h (by simp only [reduceCtorEq, not_false_eq_true]))
  all_goals try (with_reducible obtain rfl := Host.Outcome.next.inj h)
  iterate 30 (all_goals try first
    | with_reducible exact Keep.refl _ _
    | with_reducible assumption
    | with_reducible refine live_keep _ _ (fun _ => ?_)
    | with_reducible refine (prefixPublication_keep ..).after ?_ (by decide)
    | with_reducible refine Keep.ite (fun _ => ?_) (fun _ => ?_)
    | split)

theorem execHoleMaintenance_keep {set : Nat} {s : State} {t0 : State} (h : execHoleMaintenance set s = .next t0) : Keep 268435484 s t0 := by
  unfold execHoleMaintenance at h
  try dsimp only at h
  repeat' (first | split at h)
  all_goals try (exact absurd h (by simp only [reduceCtorEq, not_false_eq_true]))
  all_goals try (with_reducible obtain rfl := Host.Outcome.next.inj h)
  iterate 30 (all_goals try first
    | with_reducible exact Keep.refl _ _
    | with_reducible assumption
    | with_reducible refine live_keep _ _ (fun _ => ?_)
    | with_reducible refine (maintainSet_keep ..).after ?_ (by decide)
    | with_reducible refine Keep.ite (fun _ => ?_) (fun _ => ?_)
    | split)

theorem execHitsAgeing_keep {bank : Nat} {s : State} {t0 : State} (h : execHitsAgeing bank s = .next t0) : Keep 268435456 s t0 := by
  unfold execHitsAgeing at h
  try dsimp only at h
  repeat' (first | split at h)
  all_goals try (exact absurd h (by simp only [reduceCtorEq, not_false_eq_true]))
  all_goals try (with_reducible obtain rfl := Host.Outcome.next.inj h)
  iterate 30 (all_goals try first
    | with_reducible exact Keep.refl _ _
    | with_reducible assumption
    | with_reducible refine live_keep _ _ (fun _ => ?_)
    | with_reducible refine (hitsAgeing_keep ..).after ?_ (by decide)
    | with_reducible refine Keep.ite (fun _ => ?_) (fun _ => ?_)
    | split)

theorem execColumnSweep_keep {part : Nat} {s : State} {t0 : State} (h : execColumnSweep part s = .next t0) : Keep 369102830 s t0 := by
  unfold execColumnSweep at h
  try dsimp only at h
  repeat' (first | split at h)
  all_goals try (exact absurd h (by simp only [reduceCtorEq, not_false_eq_true]))
  all_goals try (with_reducible obtain rfl := Host.Outcome.next.inj h)
  iterate 30 (all_goals try first
    | with_reducible exact Keep.refl _ _
    | with_reducible assumption
    | with_reducible refine live_keep _ _ (fun _ => ?_)
    | with_reducible refine (sweepDue_keep ..).after ?_ (by decide)
    | with_reducible refine Keep.ite (fun _ => ?_) (fun _ => ?_)
    | split)

theorem execCascadeLookup_keep {origin id segment part session : Nat} {hashes wides tokens : List Nat} {s : State} {t0 : State} (h : execCascadeLookup origin id segment part session hashes wides tokens s = .next t0) : Keep 369102830 s t0 := by
  unfold execCascadeLookup at h
  try dsimp only at h
  repeat' (first | split at h)
  all_goals try (exact absurd h (by simp only [reduceCtorEq, not_false_eq_true]))
  all_goals try (with_reducible obtain rfl := Host.Outcome.next.inj h)
  iterate 30 (all_goals try first
    | with_reducible exact Keep.refl _ _
    | with_reducible assumption
    | with_reducible refine live_keep _ _ (fun _ => ?_)
    | with_reducible refine (cascadeLookup_keep ..).after ?_ (by decide)
    | with_reducible refine Keep.ite (fun _ => ?_) (fun _ => ?_)
    | split)

theorem execResolve_keep {origin id segment : Nat} {s : State} {t0 : State} (h : execResolve origin id segment s = .next t0) : Keep 268435464 s t0 := by
  unfold execResolve at h
  try dsimp only at h
  repeat' (first | split at h)
  all_goals try (exact absurd h (by simp only [reduceCtorEq, not_false_eq_true]))
  all_goals try (with_reducible obtain rfl := Host.Outcome.next.inj h)
  iterate 30 (all_goals try first
    | with_reducible exact Keep.refl _ _
    | with_reducible assumption
    | with_reducible refine live_keep _ _ (fun _ => ?_)
    | with_reducible refine (resolveRow_keep ..).after ?_ (by decide)
    | with_reducible refine Keep.ite (fun _ => ?_) (fun _ => ?_)
    | split)

theorem execMatchFrame_keep {origin id segment : Nat} {hitIn : Bool} {column : Option RemoteColumn} {s : State} {t0 : State} (h : execMatchFrame origin id segment hitIn column s = .next t0) : Keep 906047486 s t0 := by
  unfold execMatchFrame at h
  try dsimp only at h
  repeat' (first | split at h)
  all_goals try (exact absurd h (by simp only [reduceCtorEq, not_false_eq_true]))
  all_goals try (with_reducible obtain rfl := Host.Outcome.next.inj h)
  iterate 30 (all_goals try first
    | with_reducible exact Keep.refl _ _
    | with_reducible assumption
    | with_reducible refine live_keep _ _ (fun _ => ?_)
    | with_reducible refine (matchFrame_keep ..).after ?_ (by decide)
    | with_reducible refine Keep.ite (fun _ => ?_) (fun _ => ?_)
    | split)

theorem execCascadeResult_keep {id segment : Nat} {hit : Option PrefixHit} {multi : Bool} {s : State} {t0 : State} (h : execCascadeResult id segment hit multi s = .next t0) : Keep 906047486 s t0 := by
  unfold execCascadeResult at h
  try dsimp only at h
  repeat' (first | split at h)
  all_goals try (exact absurd h (by simp only [reduceCtorEq, not_false_eq_true]))
  all_goals try (with_reducible obtain rfl := Host.Outcome.next.inj h)
  iterate 30 (all_goals try first
    | with_reducible exact Keep.refl _ _
    | with_reducible assumption
    | with_reducible refine live_keep _ _ (fun _ => ?_)
    | with_reducible refine (sledResult_keep ..).after ?_ (by decide)
    | with_reducible refine Keep.ite (fun _ => ?_) (fun _ => ?_)
    | split)

theorem execCascadeReject_keep {id segment : Nat} {s : State} {t0 : State} (h : execCascadeReject id segment s = .next t0) : Keep 8 s t0 := by
  unfold execCascadeReject at h
  try dsimp only at h
  repeat' (first | split at h)
  all_goals try (exact absurd h (by simp only [reduceCtorEq, not_false_eq_true]))
  all_goals try (with_reducible obtain rfl := Host.Outcome.next.inj h)
  iterate 30 (all_goals try first
    | with_reducible exact Keep.refl _ _
    | with_reducible assumption
    | with_reducible refine live_keep _ _ (fun _ => ?_)
    | with_reducible refine (cascadeReject_keep ..).after ?_ (by decide)
    | with_reducible refine Keep.ite (fun _ => ?_) (fun _ => ?_)
    | split)

theorem execCascadeMove_keep {set : Nat} {what : EntryMove} {s : State} {t0 : State} (h : execCascadeMove set what s = .next t0) : Keep 369102846 s t0 := by
  unfold execCascadeMove at h
  try dsimp only at h
  repeat' (first | split at h)
  all_goals try (exact absurd h (by simp only [reduceCtorEq, not_false_eq_true]))
  all_goals try (with_reducible obtain rfl := Host.Outcome.next.inj h)
  iterate 30 (all_goals try first
    | with_reducible exact Keep.refl _ _
    | with_reducible assumption
    | with_reducible refine live_keep _ _ (fun _ => ?_)
    | with_reducible refine (cascadeMove_keep ..).after ?_ (by decide)
    | with_reducible refine Keep.ite (fun _ => ?_) (fun _ => ?_)
    | split)

theorem execMatchInStuck_keep {s : State} {t0 : State} (h : execMatchInStuck s = .next t0) : Keep 906047486 s t0 := by
  unfold execMatchInStuck at h
  try dsimp only at h
  repeat' (first | split at h)
  all_goals try (exact absurd h (by simp only [reduceCtorEq, not_false_eq_true]))
  all_goals try (with_reducible obtain rfl := Host.Outcome.next.inj h)
  iterate 30 (all_goals try first
    | with_reducible exact Keep.refl _ _
    | with_reducible assumption
    | with_reducible refine live_keep _ _ (fun _ => ?_)
    | with_reducible refine (matchInStuck_keep ..).after ?_ (by decide)
    | with_reducible refine Keep.ite (fun _ => ?_) (fun _ => ?_)
    | split)

theorem execMatchInViolation_keep {recent : Nat} {s : State} {t0 : State} (h : execMatchInViolation recent s = .next t0) : Keep 906047486 s t0 := by
  unfold execMatchInViolation at h
  try dsimp only at h
  repeat' (first | split at h)
  all_goals try (exact absurd h (by simp only [reduceCtorEq, not_false_eq_true]))
  all_goals try (with_reducible obtain rfl := Host.Outcome.next.inj h)
  iterate 30 (all_goals try first
    | with_reducible exact Keep.refl _ _
    | with_reducible assumption
    | with_reducible refine live_keep _ _ (fun _ => ?_)
    | with_reducible refine (matchInViolation_keep ..).after ?_ (by decide)
    | with_reducible refine Keep.ite (fun _ => ?_) (fun _ => ?_)
    | split)

theorem execCascadeNeighbourLinkFail_keep {s : State} {t0 : State} (h : execCascadeNeighbourLinkFail s = .next t0) : Keep 906047486 s t0 := by
  unfold execCascadeNeighbourLinkFail at h
  try dsimp only at h
  repeat' (first | split at h)
  all_goals try (exact absurd h (by simp only [reduceCtorEq, not_false_eq_true]))
  all_goals try (with_reducible obtain rfl := Host.Outcome.next.inj h)
  iterate 30 (all_goals try first
    | with_reducible exact Keep.refl _ _
    | with_reducible assumption
    | with_reducible refine live_keep _ _ (fun _ => ?_)
    | with_reducible refine (isolate_keep ..).after ?_ (by decide)
    | with_reducible refine Keep.ite (fun _ => ?_) (fun _ => ?_)
    | split)

theorem execCascadeLockTimeout_keep {s : State} {t0 : State} (h : execCascadeLockTimeout s = .next t0) : Keep 906047486 s t0 := by
  unfold execCascadeLockTimeout at h
  try dsimp only at h
  repeat' (first | split at h)
  all_goals try (exact absurd h (by simp only [reduceCtorEq, not_false_eq_true]))
  all_goals try (with_reducible obtain rfl := Host.Outcome.next.inj h)
  iterate 30 (all_goals try first
    | with_reducible exact Keep.refl _ _
    | with_reducible assumption
    | with_reducible refine live_keep _ _ (fun _ => ?_)
    | with_reducible refine (isolate_keep ..).after ?_ (by decide)
    | with_reducible refine Keep.ite (fun _ => ?_) (fun _ => ?_)
    | split)

theorem execFwdLookup_keep {node id part hops _depth : Nat} {hashes wides tokens : List Nat} {s : State} {t0 : State} (h : execFwdLookup node id part hops _depth hashes wides tokens s = .next t0) : Keep 906047486 s t0 := by
  unfold execFwdLookup at h
  try dsimp only at h
  repeat' (first | split at h)
  all_goals try (exact absurd h (by simp only [reduceCtorEq, not_false_eq_true]))
  all_goals try (with_reducible obtain rfl := Host.Outcome.next.inj h)
  iterate 30 (all_goals try first
    | with_reducible exact Keep.refl _ _
    | with_reducible assumption
    | with_reducible refine assigned_keep _ _ (by decide) (fun _ => ?_)
    | with_reducible refine live_keep _ _ (fun _ => ?_)
    | with_reducible refine (fwdLookup_keep ..).after ?_ (by decide)
    | with_reducible refine Keep.ite (fun _ => ?_) (fun _ => ?_)
    | split)

theorem execFwdAnswer_keep {id : Nat} {hit : Option PrefixHit} {s : State} {t0 : State} (h : execFwdAnswer id hit s = .next t0) : Keep 805380684 s t0 := by
  unfold execFwdAnswer at h
  try dsimp only at h
  repeat' (first | split at h)
  all_goals try (exact absurd h (by simp only [reduceCtorEq, not_false_eq_true]))
  all_goals try (with_reducible obtain rfl := Host.Outcome.next.inj h)
  iterate 30 (all_goals try first
    | with_reducible exact Keep.refl _ _
    | with_reducible assumption
    | with_reducible refine assigned_keep _ _ (by decide) (fun _ => ?_)
    | with_reducible refine live_keep _ _ (fun _ => ?_)
    | with_reducible refine (fwdAnswer_keep ..).after ?_ (by decide)
    | with_reducible refine Keep.ite (fun _ => ?_) (fun _ => ?_)
    | split)

theorem execFwdTimeout_keep {id : Nat} {s : State} {t0 : State} (h : execFwdTimeout id s = .next t0) : Keep 805383758 s t0 := by
  unfold execFwdTimeout at h
  try dsimp only at h
  repeat' (first | split at h)
  all_goals try (exact absurd h (by simp only [reduceCtorEq, not_false_eq_true]))
  all_goals try (with_reducible obtain rfl := Host.Outcome.next.inj h)
  iterate 30 (all_goals try first
    | with_reducible exact Keep.refl _ _
    | with_reducible assumption
    | with_reducible refine live_keep _ _ (fun _ => ?_)
    | with_reducible refine (fwdTimeout_keep ..).after ?_ (by decide)
    | with_reducible refine Keep.ite (fun _ => ?_) (fun _ => ?_)
    | split)

theorem execPmeReadEntry_keep {from_ set way : Nat} {s : State} {t0 : State} (h : execPmeReadEntry from_ set way s = .next t0) : Keep 1026 s t0 := by
  unfold execPmeReadEntry at h
  try dsimp only at h
  repeat' (first | split at h)
  all_goals try (exact absurd h (by simp only [reduceCtorEq, not_false_eq_true]))
  all_goals try (with_reducible obtain rfl := Host.Outcome.next.inj h)
  iterate 30 (all_goals try first
    | with_reducible exact Keep.refl _ _
    | with_reducible assumption
    | with_reducible refine wayOp_keep _ _ _ _ _ _ (by decide) (fun _ _ => ?_)
    | (extract_lets +onlyGivenNames zz; refine Keep.cut zz ?_ (fun _ => ?_); (rotate_left; (try clear_value zz); rotate_right; subst zz))
    | (extract_lets +onlyGivenNames zz; subst zz)
    | with_reducible refine (countIo_keep ..).after ?_ (by decide)
    | with_reducible refine (setF_keep ..).after ?_ (by decide)
    | with_reducible refine Keep.ite (fun _ => ?_) (fun _ => ?_)
    | split)

theorem execDropEntry_keep {from_ set way : Nat} {s : State} {t0 : State} (h : execDropEntry from_ set way s = .next t0) : Keep 369102830 s t0 := by
  unfold execDropEntry at h
  try dsimp only at h
  repeat' (first | split at h)
  all_goals try (exact absurd h (by simp only [reduceCtorEq, not_false_eq_true]))
  all_goals try (with_reducible obtain rfl := Host.Outcome.next.inj h)
  iterate 30 (all_goals try first
    | with_reducible exact Keep.refl _ _
    | with_reducible assumption
    | with_reducible refine wayOp_keep _ _ _ _ _ _ (by decide) (fun _ _ => ?_)
    | with_reducible refine live_keep _ _ (fun _ => ?_)
    | with_reducible refine (dropAt_keep ..).after ?_ (by decide)
    | with_reducible refine (countIo_keep ..).after ?_ (by decide)
    | with_reducible refine Keep.ite (fun _ => ?_) (fun _ => ?_)
    | split)

theorem execBankTest_keep {from_ set : Nat} {s : State} {t0 : State} (h : execBankTest from_ set s = .next t0) : Keep 1030 s t0 := by
  unfold execBankTest at h
  try dsimp only at h
  repeat' (first | split at h)
  all_goals try (exact absurd h (by simp only [reduceCtorEq, not_false_eq_true]))
  all_goals try (with_reducible obtain rfl := Host.Outcome.next.inj h)
  iterate 30 (all_goals try first
    | with_reducible exact Keep.refl _ _
    | with_reducible assumption
    | with_reducible refine bankOp_keep _ _ _ _ _ (by decide) (fun _ _ => ?_)
    | with_reducible refine live_keep _ _ (fun _ => ?_)
    | (extract_lets +onlyGivenNames zz; refine Keep.cut zz ?_ (fun _ => ?_); (rotate_left; (try clear_value zz); rotate_right; subst zz))
    | (extract_lets +onlyGivenNames zz; subst zz)
    | with_reducible refine (countIo_keep ..).after ?_ (by decide)
    | with_reducible refine (setFrc_keep ..).after ?_ (by decide)
    | with_reducible refine (bump_keep ..).after ?_ (by decide)
    | with_reducible refine (setF_keep ..).after ?_ (by decide)
    | with_reducible refine Keep.ite (fun _ => ?_) (fun _ => ?_)
    | split)

theorem execMapOutBank_keep {from_ set : Nat} {s : State} {t0 : State} (h : execMapOutBank from_ set s = .next t0) : Keep 369102830 s t0 := by
  unfold execMapOutBank at h
  try dsimp only at h
  repeat' (first | split at h)
  all_goals try (exact absurd h (by simp only [reduceCtorEq, not_false_eq_true]))
  all_goals try (with_reducible obtain rfl := Host.Outcome.next.inj h)
  iterate 30 (all_goals try first
    | with_reducible exact Keep.refl _ _
    | with_reducible assumption
    | with_reducible refine bankOp_keep _ _ _ _ _ (by decide) (fun _ _ => ?_)
    | with_reducible refine live_keep _ _ (fun _ => ?_)
    | with_reducible refine (mapOutBank_keep ..).after ?_ (by decide)
    | with_reducible refine (countIo_keep ..).after ?_ (by decide)
    | with_reducible refine Keep.ite (fun _ => ?_) (fun _ => ?_)
    | split)

theorem execSweepColumns_keep {from_ part : Nat} {s : State} {t0 : State} (h : execSweepColumns from_ part s = .next t0) : Keep 268436482 s t0 := by
  unfold execSweepColumns at h
  try dsimp only at h
  repeat' (first | split at h)
  all_goals try (exact absurd h (by simp only [reduceCtorEq, not_false_eq_true]))
  all_goals try (with_reducible obtain rfl := Host.Outcome.next.inj h)
  iterate 30 (all_goals try first
    | with_reducible exact Keep.refl _ _
    | with_reducible assumption
    | with_reducible refine setOp_keep _ _ _ _ _ _ (by decide) (fun _ => ?_)
    | with_reducible refine live_keep _ _ (fun _ => ?_)
    | with_reducible refine (modPme_keep ..).after ?_ (by decide)
    | with_reducible refine (countIo_keep ..).after ?_ (by decide)
    | with_reducible refine (setF_keep ..).after ?_ (by decide)
    | with_reducible refine Keep.ite (fun _ => ?_) (fun _ => ?_)
    | split)

theorem execRegisterWrite_keep {from_ offset size value : Nat} {s : State} {t0 : State} (h : execRegisterWrite from_ offset size value s = .next t0) : Keep 1550 s t0 := by
  unfold execRegisterWrite at h
  try dsimp only at h
  repeat' (first | split at h)
  all_goals try (exact absurd h (by simp only [reduceCtorEq, not_false_eq_true]))
  all_goals try (with_reducible obtain rfl := Host.Outcome.next.inj h)
  iterate 30 (all_goals try first
    | with_reducible exact Keep.refl _ _
    | with_reducible assumption
    | with_reducible refine (regWrite_keep ..).after ?_ (by decide)
    | with_reducible refine (countIo_keep ..).after ?_ (by decide)
    | with_reducible refine Keep.ite (fun _ => ?_) (fun _ => ?_)
    | split)

theorem execPartitionConfigure_keep {c : Cmd} {s : State} {t0 : State} (h : execPartitionConfigure c s = .next t0) : Keep 77390 s t0 := by
  unfold execPartitionConfigure at h
  obtain rfl := Host.Outcome.next.inj h
  refine hostCmd_keep (by decide) (fun g => ?_) (fun g => ?_)
  · replace g := onPartition_done g
    obtain ⟨rfl, -⟩ := Res.done.inj g
    exact (setPstate_keep ..).mono (by decide)
  · exact absurd (onPartition_wait g) (by simp only [reduceCtorEq, not_false_eq_true])

theorem execPartitionRelease_keep {c : Cmd} {s : State} {t0 : State} (h : execPartitionRelease c s = .next t0) : Keep 77390 s t0 := by
  unfold execPartitionRelease at h
  obtain rfl := Host.Outcome.next.inj h
  refine hostCmd_keep (by decide) (fun g => ?_) (fun g => ?_)
  · replace g := onPartition_done g
    obtain ⟨rfl, -⟩ := Res.done.inj g
    exact (clearPartition_keep ..).after ((setPstate_keep ..).mono (by decide)) (by decide)
  · exact absurd (onPartition_wait g) (by simp only [reduceCtorEq, not_false_eq_true])

theorem execPartitionLock_keep {c : Cmd} {s : State} {t0 : State} (h : execPartitionLock c s = .next t0) : Keep 77406 s t0 := by
  unfold execPartitionLock at h
  try dsimp only at h
  repeat' (first | split at h)
  all_goals try (exact absurd h (by simp only [reduceCtorEq, not_false_eq_true]))
  all_goals try (with_reducible obtain rfl := Host.Outcome.next.inj h)
  iterate 30 (all_goals try first
    | with_reducible exact Keep.refl _ _
    | with_reducible assumption
    | with_reducible refine hostCmd_keep (by decide) (fun _ => ?_) (fun _ => ?_)
    | with_reducible refine (partitionLock_keepD (by assumption)).after ?_ (by decide)
    | with_reducible refine (partitionLock_keepW (by assumption)).after ?_ (by decide)
    | with_reducible refine Keep.ite (fun _ => ?_) (fun _ => ?_)
    | split)

theorem execPartitionStart_keep {c : Cmd} {s : State} {t0 : State} (h : execPartitionStart c s = .next t0) : Keep 77390 s t0 := by
  unfold execPartitionStart at h
  try dsimp only at h
  repeat' (first | split at h)
  all_goals try (exact absurd h (by simp only [reduceCtorEq, not_false_eq_true]))
  all_goals try (with_reducible obtain rfl := Host.Outcome.next.inj h)
  iterate 30 (all_goals try first
    | with_reducible exact Keep.refl _ _
    | with_reducible assumption
    | with_reducible refine hostCmd_keep (by decide) (fun _ => ?_) (fun _ => ?_)
    | with_reducible refine (partitionStart_keepD (by assumption)).after ?_ (by decide)
    | with_reducible refine (partitionStart_keepW (by assumption)).after ?_ (by decide)
    | with_reducible refine Keep.ite (fun _ => ?_) (fun _ => ?_)
    | split)

theorem execReplayBegin_keep {c : Cmd} {s : State} {t0 : State} (h : execReplayBegin c s = .next t0) : Keep 77390 s t0 := by
  unfold execReplayBegin at h
  try dsimp only at h
  repeat' (first | split at h)
  all_goals try (exact absurd h (by simp only [reduceCtorEq, not_false_eq_true]))
  all_goals try (with_reducible obtain rfl := Host.Outcome.next.inj h)
  iterate 30 (all_goals try first
    | with_reducible exact Keep.refl _ _
    | with_reducible assumption
    | with_reducible refine hostCmd_keep (by decide) (fun _ => ?_) (fun _ => ?_)
    | with_reducible refine (replayBegin_keepD (by assumption)).after ?_ (by decide)
    | with_reducible refine (replayBegin_keepW (by assumption)).after ?_ (by decide)
    | with_reducible refine Keep.ite (fun _ => ?_) (fun _ => ?_)
    | split)

theorem execPartitionDrain_keep {c : Cmd} {s : State} {t0 : State} (h : execPartitionDrain c s = .next t0) : Keep 1049309182 s t0 := by
  unfold execPartitionDrain at h
  try dsimp only at h
  repeat' (first | split at h)
  all_goals try (exact absurd h (by simp only [reduceCtorEq, not_false_eq_true]))
  all_goals try (with_reducible obtain rfl := Host.Outcome.next.inj h)
  iterate 30 (all_goals try first
    | with_reducible exact Keep.refl _ _
    | with_reducible assumption
    | with_reducible refine hostCmd_keep (by decide) (fun _ => ?_) (fun _ => ?_)
    | with_reducible refine (partitionDrain_keepD (by assumption)).after ?_ (by decide)
    | with_reducible refine (partitionDrain_keepW (by assumption)).after ?_ (by decide)
    | with_reducible refine Keep.ite (fun _ => ?_) (fun _ => ?_)
    | split)

theorem execPartitionWipe_keep {c : Cmd} {s : State} {t0 : State} (h : execPartitionWipe c s = .next t0) : Keep 1056911358 s t0 := by
  unfold execPartitionWipe at h
  try dsimp only at h
  repeat' (first | split at h)
  all_goals try (exact absurd h (by simp only [reduceCtorEq, not_false_eq_true]))
  all_goals try (with_reducible obtain rfl := Host.Outcome.next.inj h)
  iterate 30 (all_goals try first
    | with_reducible exact Keep.refl _ _
    | with_reducible assumption
    | with_reducible refine hostCmd_keep (by decide) (fun _ => ?_) (fun _ => ?_)
    | with_reducible refine (partitionWipe_keepD (by assumption)).after ?_ (by decide)
    | with_reducible refine (partitionWipe_keepW (by assumption)).after ?_ (by decide)
    | with_reducible refine Keep.ite (fun _ => ?_) (fun _ => ?_)
    | split)

theorem execPartitionWipeDone_keep {part : Nat} {s : State} {t0 : State} (h : execPartitionWipeDone part s = .next t0) : Keep 2684432366 s t0 := by
  unfold execPartitionWipeDone at h
  try dsimp only at h
  repeat' (first | split at h)
  all_goals try (exact absurd h (by simp only [reduceCtorEq, not_false_eq_true]))
  all_goals try (with_reducible obtain rfl := Host.Outcome.next.inj h)
  iterate 30 (all_goals try first
    | with_reducible exact Keep.refl _ _
    | with_reducible assumption
    | with_reducible refine live_keep _ _ (fun _ => ?_)
    | with_reducible refine (partitionWipeDone_keep ..).after ?_ (by decide)
    | with_reducible refine Keep.ite (fun _ => ?_) (fun _ => ?_)
    | split)

theorem execSpdmGetVersion_keep {transport : Nat} {s : State} {t0 : State} (h : execSpdmGetVersion transport s = .next t0) : Keep 8 s t0 := by
  unfold execSpdmGetVersion at h
  try dsimp only at h
  repeat' (first | split at h)
  all_goals try (exact absurd h (by simp only [reduceCtorEq, not_false_eq_true]))
  all_goals try (with_reducible obtain rfl := Host.Outcome.next.inj h)
  iterate 30 (all_goals try first
    | with_reducible exact Keep.refl _ _
    | with_reducible assumption
    | with_reducible refine (spdmAnswer_keep ..).after ?_ (by decide)
    | with_reducible refine Keep.ite (fun _ => ?_) (fun _ => ?_)
    | split)

theorem execSpdmGetCapabilities_keep {transport : Nat} {s : State} {t0 : State} (h : execSpdmGetCapabilities transport s = .next t0) : Keep 24 s t0 := by
  unfold execSpdmGetCapabilities at h
  try dsimp only at h
  repeat' (first | split at h)
  all_goals try (exact absurd h (by simp only [reduceCtorEq, not_false_eq_true]))
  all_goals try (with_reducible obtain rfl := Host.Outcome.next.inj h)
  iterate 30 (all_goals try first
    | with_reducible exact Keep.refl _ _
    | with_reducible assumption
    | with_reducible refine (spdmAnswer_keep ..).after ?_ (by decide)
    | with_reducible refine (freshBytes_keep (by assumption)).after ?_ (by decide)
    | with_reducible refine (freshBytes_keepP ..).after ?_ (by decide)
    | with_reducible refine Keep.ite (fun _ => ?_) (fun _ => ?_)
    | split)

theorem execSpdmNegotiateAlgorithms_keep {transport offered : Nat} {s : State} {t0 : State} (h : execSpdmNegotiateAlgorithms transport offered s = .next t0) : Keep 2056 s t0 := by
  unfold execSpdmNegotiateAlgorithms at h
  try dsimp only at h
  repeat' (first | split at h)
  all_goals try (exact absurd h (by simp only [reduceCtorEq, not_false_eq_true]))
  all_goals try (with_reducible obtain rfl := Host.Outcome.next.inj h)
  iterate 30 (all_goals try first
    | with_reducible exact Keep.refl _ _
    | with_reducible assumption
    | (extract_lets +onlyGivenNames zz; refine Keep.cut zz ?_ (fun _ => ?_); (rotate_left; (try clear_value zz); rotate_right; subst zz))
    | (extract_lets +onlyGivenNames zz; subst zz)
    | with_reducible refine (spdmAnswer_keep ..).after ?_ (by decide)
    | with_reducible refine Keep.ite (fun _ => ?_) (fun _ => ?_)
    | split
    | with_reducible refine (Keep.of_sec _ _ (by rfl)).after ?_ (by decide))

theorem execSpdmGetDigests_keep {transport : Nat} {s : State} {t0 : State} (h : execSpdmGetDigests transport s = .next t0) : Keep 8 s t0 := by
  unfold execSpdmGetDigests at h
  try dsimp only at h
  repeat' (first | split at h)
  all_goals try (exact absurd h (by simp only [reduceCtorEq, not_false_eq_true]))
  all_goals try (with_reducible obtain rfl := Host.Outcome.next.inj h)
  iterate 30 (all_goals try first
    | with_reducible exact Keep.refl _ _
    | with_reducible assumption
    | with_reducible refine (spdmChain_keep ..).after ?_ (by decide)
    | with_reducible refine Keep.ite (fun _ => ?_) (fun _ => ?_)
    | split)

theorem execSpdmGetCertificate_keep {transport slot offset length : Nat} {s : State} {t0 : State} (h : execSpdmGetCertificate transport slot offset length s = .next t0) : Keep 8 s t0 := by
  unfold execSpdmGetCertificate at h
  try dsimp only at h
  repeat' (first | split at h)
  all_goals try (exact absurd h (by simp only [reduceCtorEq, not_false_eq_true]))
  all_goals try (with_reducible obtain rfl := Host.Outcome.next.inj h)
  iterate 30 (all_goals try first
    | with_reducible exact Keep.refl _ _
    | with_reducible assumption
    | with_reducible refine (spdmChain_keep ..).after ?_ (by decide)
    | with_reducible refine (spdmAnswer_keep ..).after ?_ (by decide)
    | with_reducible refine Keep.ite (fun _ => ?_) (fun _ => ?_)
    | split)

theorem execSpdmUnsupportedRequest_keep {transport : Nat} {s : State} {t0 : State} (h : execSpdmUnsupportedRequest transport s = .next t0) : Keep 8 s t0 := by
  unfold execSpdmUnsupportedRequest at h
  try dsimp only at h
  repeat' (first | split at h)
  all_goals try (exact absurd h (by simp only [reduceCtorEq, not_false_eq_true]))
  all_goals try (with_reducible obtain rfl := Host.Outcome.next.inj h)
  iterate 30 (all_goals try first
    | with_reducible exact Keep.refl _ _
    | with_reducible assumption
    | with_reducible refine (spdmAnswer_keep ..).after ?_ (by decide)
    | with_reducible refine Keep.ite (fun _ => ?_) (fun _ => ?_)
    | split)

theorem execAttestationReport_keep {transport part : Nat} {nonce : List Byte} {s : State} {t0 : State} (h : execAttestationReport transport part nonce s = .next t0) : Keep 12 s t0 := by
  unfold execAttestationReport at h
  try dsimp only at h
  repeat' (first | split at h)
  all_goals try (exact absurd h (by simp only [reduceCtorEq, not_false_eq_true]))
  all_goals try (with_reducible obtain rfl := Host.Outcome.next.inj h)
  iterate 30 (all_goals try first
    | with_reducible exact Keep.refl _ _
    | with_reducible assumption
    | with_reducible refine (attestationReport_keep ..).after ?_ (by decide)
    | with_reducible refine Keep.ite (fun _ => ?_) (fun _ => ?_)
    | split)

theorem execKeyInit_keep {transport part : Nat} {nonce : List Byte} {s : State} {t0 : State} (h : execKeyInit transport part nonce s = .next t0) : Keep 2078 s t0 := by
  unfold execKeyInit at h
  try dsimp only at h
  repeat' (first | split at h)
  all_goals try (exact absurd h (by simp only [reduceCtorEq, not_false_eq_true]))
  all_goals try (with_reducible obtain rfl := Host.Outcome.next.inj h)
  iterate 30 (all_goals try first
    | with_reducible exact Keep.refl _ _
    | with_reducible assumption
    | with_reducible refine (keyInit_keep ..).after ?_ (by decide)
    | with_reducible refine Keep.ite (fun _ => ?_) (fun _ => ?_)
    | split)

theorem execKeyExch_keep {transport part : Nat} {ct pk sig : List Byte} {s : State} {t0 : State} (h : execKeyExch transport part ct pk sig s = .next t0) : Keep 3598 s t0 := by
  unfold execKeyExch at h
  try dsimp only at h
  repeat' (first | split at h)
  all_goals try (exact absurd h (by simp only [reduceCtorEq, not_false_eq_true]))
  all_goals try (with_reducible obtain rfl := Host.Outcome.next.inj h)
  iterate 30 (all_goals try first
    | with_reducible exact Keep.refl _ _
    | with_reducible assumption
    | with_reducible refine (keyExch_keep ..).after ?_ (by decide)
    | with_reducible refine Keep.ite (fun _ => ?_) (fun _ => ?_)
    | split)

theorem execKeyDeliver_keep {transport part slot : Nat} {wrapped tag : List Byte} {s : State} {t0 : State} (h : execKeyDeliver transport part slot wrapped tag s = .next t0) : Keep 3598 s t0 := by
  unfold execKeyDeliver at h
  try dsimp only at h
  repeat' (first | split at h)
  all_goals try (exact absurd h (by simp only [reduceCtorEq, not_false_eq_true]))
  all_goals try (with_reducible obtain rfl := Host.Outcome.next.inj h)
  iterate 30 (all_goals try first
    | with_reducible exact Keep.refl _ _
    | with_reducible assumption
    | with_reducible refine (keyDeliver_keep ..).after ?_ (by decide)
    | with_reducible refine Keep.ite (fun _ => ?_) (fun _ => ?_)
    | split)

theorem execKeyExchangeTimeout_keep {part : Nat} {s : State} {t0 : State} (h : execKeyExchangeTimeout part s = .next t0) : Keep 3598 s t0 := by
  unfold execKeyExchangeTimeout at h
  try dsimp only at h
  repeat' (first | split at h)
  all_goals try (exact absurd h (by simp only [reduceCtorEq, not_false_eq_true]))
  all_goals try (with_reducible obtain rfl := Host.Outcome.next.inj h)
  iterate 30 (all_goals try first
    | with_reducible exact Keep.refl _ _
    | with_reducible assumption
    | with_reducible refine (failExchange_keep ..).after ?_ (by decide)
    | with_reducible refine Keep.ite (fun _ => ?_) (fun _ => ?_)
    | split)

theorem execFwCommitSvn_keep {c : Cmd} {s : State} {t0 : State} (h : execFwCommitSvn c s = .next t0) : Keep 81486 s t0 := by
  unfold execFwCommitSvn at h
  try dsimp only at h
  repeat' (first | split at h)
  all_goals try (exact absurd h (by simp only [reduceCtorEq, not_false_eq_true]))
  all_goals try (with_reducible obtain rfl := Host.Outcome.next.inj h)
  iterate 30 (all_goals try first
    | with_reducible exact Keep.refl _ _
    | with_reducible assumption
    | with_reducible refine hostCmd_keep (by decide) (fun _ => ?_) (fun _ => ?_)
    | with_reducible refine (fwCommitSvn_keepD (by assumption)).after ?_ (by decide)
    | with_reducible refine (fwCommitSvn_keepW (by assumption)).after ?_ (by decide)
    | with_reducible refine Keep.ite (fun _ => ?_) (fun _ => ?_)
    | split)

theorem execLifecycleAdvance_keep {c : Cmd} {s : State} {t0 : State} (h : execLifecycleAdvance c s = .next t0) : Keep 81486 s t0 := by
  unfold execLifecycleAdvance at h
  obtain rfl := Host.Outcome.next.inj h
  exact hostCmd_keep (by decide) (fun g => (lifecycleTo_keepD (by decide) g).mono (by decide)) (fun g => (lifecycleTo_keepW g).mono (by decide))

theorem execLifecycleDecommission_keep {c : Cmd} {s : State} {t0 : State} (h : execLifecycleDecommission c s = .next t0) : Keep 81486 s t0 := by
  unfold execLifecycleDecommission at h
  obtain rfl := Host.Outcome.next.inj h
  exact hostCmd_keep (by decide) (fun g => (lifecycleTo_keepD (by decide) g).mono (by decide)) (fun g => (lifecycleTo_keepW g).mono (by decide))

theorem execDebugHalt_keep {core : Nat} {s : State} {t0 : State} (h : execDebugHalt core s = .next t0) : Keep 11790 s t0 := by
  unfold execDebugHalt at h
  try dsimp only at h
  repeat' (first | split at h)
  all_goals try (exact absurd h (by simp only [reduceCtorEq, not_false_eq_true]))
  all_goals try (with_reducible obtain rfl := Host.Outcome.next.inj h)
  iterate 30 (all_goals try first
    | with_reducible exact Keep.refl _ _
    | with_reducible assumption
    | with_reducible refine (debugHalt_keep ..).after ?_ (by decide)
    | with_reducible refine Keep.ite (fun _ => ?_) (fun _ => ?_)
    | split)

theorem execDebugResume_keep {core : Nat} {s : State} {t0 : State} (h : execDebugResume core s = .next t0) : Keep 780283886 s t0 := by
  unfold execDebugResume at h
  try dsimp only at h
  repeat' (first | split at h)
  all_goals try (exact absurd h (by simp only [reduceCtorEq, not_false_eq_true]))
  all_goals try (with_reducible obtain rfl := Host.Outcome.next.inj h)
  iterate 30 (all_goals try first
    | with_reducible exact Keep.refl _ _
    | with_reducible assumption
    | with_reducible refine (debugResume_keep ..).after ?_ (by decide)
    | with_reducible refine Keep.ite (fun _ => ?_) (fun _ => ?_)
    | split)

theorem execDebugStep_keep {step : CoreStep} {s : State} {t0 : State} (h : execDebugStep step s = .next t0) : Keep 536882718 s t0 := by
  unfold execDebugStep at h
  try dsimp only at h
  repeat' (first | split at h)
  all_goals try (exact absurd h (by simp only [reduceCtorEq, not_false_eq_true]))
  all_goals try (with_reducible obtain rfl := Host.Outcome.next.inj h)
  iterate 30 (all_goals try first
    | with_reducible exact Keep.refl _ _
    | with_reducible assumption
    | with_reducible refine (traceStep_keep ..).after ?_ (by decide)
    | with_reducible refine (coreStep_keep ..).after ?_ (by decide)
    | with_reducible refine Keep.ite (fun _ => ?_) (fun _ => ?_)
    | split)

theorem execDebugMemoryRead_keep {space addr len : Nat} {s : State} {t0 : State} (h : execDebugMemoryRead space addr len s = .next t0) : Keep 3614 s t0 := by
  unfold execDebugMemoryRead at h
  try dsimp only at h
  repeat' (first | split at h)
  all_goals try (exact absurd h (by simp only [reduceCtorEq, not_false_eq_true]))
  all_goals try (with_reducible obtain rfl := Host.Outcome.next.inj h)
  iterate 30 (all_goals try first
    | with_reducible exact Keep.refl _ _
    | with_reducible assumption
    | with_reducible refine (debugMemoryRead_keep ..).after ?_ (by decide)
    | with_reducible refine Keep.ite (fun _ => ?_) (fun _ => ?_)
    | split)

theorem execErrorDetected_keep {slot y1 : Nat} {source : ErrSource} {s : State} {t0 : State} (h : execErrorDetected slot y1 source s = .next t0) : Keep 1049325566 s t0 := by
  unfold execErrorDetected at h
  try dsimp only at h
  repeat' (first | split at h)
  all_goals try (exact absurd h (by simp only [reduceCtorEq, not_false_eq_true]))
  all_goals try (with_reducible obtain rfl := Host.Outcome.next.inj h)
  iterate 30 (all_goals try first
    | with_reducible exact Keep.refl _ _
    | with_reducible assumption
    | with_reducible refine powered_keep _ _ (fun _ => ?_)
    | with_reducible refine (detectError_keep ..).after ?_ (by decide)
    | with_reducible refine Keep.ite (fun _ => ?_) (fun _ => ?_)
    | split)

theorem execSelftestDone_keep {slot kind num : Nat} {passed : Bool} {units : List Nat} {s : State} {t0 : State} (h : execSelftestDone slot kind num passed units s = .next t0) : Keep 1049325566 s t0 := by
  unfold execSelftestDone at h
  try dsimp only at h
  repeat' (first | split at h)
  all_goals try (exact absurd h (by simp only [reduceCtorEq, not_false_eq_true]))
  all_goals try (with_reducible obtain rfl := Host.Outcome.next.inj h)
  iterate 30 (all_goals try first
    | with_reducible exact Keep.refl _ _
    | with_reducible assumption
    | with_reducible refine powered_keep _ _ (fun _ => ?_)
    | with_reducible refine (testDone_keep ..).after ?_ (by decide)
    | with_reducible refine Keep.ite (fun _ => ?_) (fun _ => ?_)
    | split)

theorem execBlkSelftestGo_keep {from_ slot resource kind : Nat} {s : State} {t0 : State} (h : execBlkSelftestGo from_ slot resource kind s = .next t0) : Keep 536874510 s t0 := by
  unfold execBlkSelftestGo at h
  try dsimp only at h
  repeat' (first | split at h)
  all_goals try (exact absurd h (by simp only [reduceCtorEq, not_false_eq_true]))
  all_goals try (with_reducible obtain rfl := Host.Outcome.next.inj h)
  iterate 30 (all_goals try first
    | with_reducible exact Keep.refl _ _
    | with_reducible assumption
    | with_reducible refine live_keep _ _ (fun _ => ?_)
    | with_reducible refine (operatorTest_keep ..).after ?_ (by decide)
    | with_reducible refine (countIo_keep ..).after ?_ (by decide)
    | with_reducible refine Keep.ite (fun _ => ?_) (fun _ => ?_)
    | split)

theorem execBlkInject_keep {from_ slot value : Nat} {s : State} {t0 : State} (h : execBlkInject from_ slot value s = .next t0) : Keep 3598 s t0 := by
  unfold execBlkInject at h
  try dsimp only at h
  repeat' (first | split at h)
  all_goals try (exact absurd h (by simp only [reduceCtorEq, not_false_eq_true]))
  all_goals try (with_reducible obtain rfl := Host.Outcome.next.inj h)
  iterate 30 (all_goals try first
    | with_reducible exact Keep.refl _ _
    | with_reducible assumption
    | with_reducible refine live_keep _ _ (fun _ => ?_)
    | (extract_lets +onlyGivenNames zz; refine Keep.cut zz ?_ (fun _ => ?_); (rotate_left; (try clear_value zz); rotate_right; subst zz))
    | (extract_lets +onlyGivenNames zz; subst zz)
    | with_reducible refine (countIo_keep ..).after ?_ (by decide)
    | with_reducible refine (setFrc_keep ..).after ?_ (by decide)
    | with_reducible refine (logFull_keep ..).after ?_ (by decide)
    | with_reducible refine Keep.ite (fun _ => ?_) (fun _ => ?_)
    | split)

theorem execBlkExpertUnlockWrite_keep {from_ slot maskPart maskOper key : Nat} {s : State} {t0 : State} (h : execBlkExpertUnlockWrite from_ slot maskPart maskOper key s = .next t0) : Keep 3598 s t0 := by
  unfold execBlkExpertUnlockWrite at h
  try dsimp only at h
  repeat' (first | split at h)
  all_goals try (exact absurd h (by simp only [reduceCtorEq, not_false_eq_true]))
  all_goals try (with_reducible obtain rfl := Host.Outcome.next.inj h)
  iterate 30 (all_goals try first
    | with_reducible exact Keep.refl _ _
    | with_reducible assumption
    | with_reducible refine (countIo_keep ..).after ?_ (by decide)
    | with_reducible refine (logEv_keep ..).after ?_ (by decide)
    | with_reducible refine (setF_keep ..).after ?_ (by decide)
    | with_reducible refine Keep.ite (fun _ => ?_) (fun _ => ?_)
    | split)

theorem execCapsuleAreaWrite_keep {from_ units : Nat} {s : State} {t0 : State} (h : execCapsuleAreaWrite from_ units s = .next t0) : Keep 1038 s t0 := by
  unfold execCapsuleAreaWrite at h
  try dsimp only at h
  repeat' (first | split at h)
  all_goals try (exact absurd h (by simp only [reduceCtorEq, not_false_eq_true]))
  all_goals try (with_reducible obtain rfl := Host.Outcome.next.inj h)
  iterate 30 (all_goals try first
    | with_reducible exact Keep.refl _ _
    | with_reducible assumption
    | with_reducible refine live_keep _ _ (fun _ => ?_)
    | with_reducible refine (areaWrite_keep ..).after ?_ (by decide)
    | with_reducible refine (countIo_keep ..).after ?_ (by decide)
    | with_reducible refine Keep.ite (fun _ => ?_) (fun _ => ?_)
    | split)

theorem execCapsuleWrite_keep {s : State} {t0 : State} (h : execCapsuleWrite s = .next t0) : Keep 1036 s t0 := by
  unfold execCapsuleWrite at h
  try dsimp only at h
  repeat' (first | split at h)
  all_goals try (exact absurd h (by simp only [reduceCtorEq, not_false_eq_true]))
  all_goals try (with_reducible obtain rfl := Host.Outcome.next.inj h)
  iterate 30 (all_goals try first
    | with_reducible exact Keep.refl _ _
    | with_reducible assumption
    | with_reducible refine live_keep _ _ (fun _ => ?_)
    | with_reducible refine (capsuleWrite_keep ..).after ?_ (by decide)
    | with_reducible refine Keep.ite (fun _ => ?_) (fun _ => ?_)
    | split)

theorem execCapsuleRead_keep {c : Cmd} {s : State} {t0 : State} (h : execCapsuleRead c s = .next t0) : Keep 77390 s t0 := by
  unfold execCapsuleRead at h
  try dsimp only at h
  repeat' (first | split at h)
  all_goals try (exact absurd h (by simp only [reduceCtorEq, not_false_eq_true]))
  all_goals try (with_reducible obtain rfl := Host.Outcome.next.inj h)
  iterate 30 (all_goals try first
    | with_reducible exact Keep.refl _ _
    | with_reducible assumption
    | with_reducible refine hostCmd_keep (by decide) (fun _ => ?_) (fun _ => ?_)
    | with_reducible refine (capsuleRead_keepD (by assumption)).after ?_ (by decide)
    | with_reducible refine (capsuleRead_keepW (by assumption)).after ?_ (by decide)
    | with_reducible refine Keep.ite (fun _ => ?_) (fun _ => ?_)
    | split)

theorem execReplayRun_keep {c : Cmd} {supply : List (List Byte)} {s : State} {t0 : State} (h : execReplayRun c supply s = .next t0) : Keep 77390 s t0 := by
  unfold execReplayRun at h
  obtain rfl := Host.Outcome.next.inj h
  refine powered_keep _ _ (fun s => ?_)
  refine (trimSupplies_keep _).after ?_ (by decide)
  exact (hostCmd_keep (k := 77390) (by decide) (fun g => (replayRun_keepD g).mono (by decide)) (fun g => (replayRun_keepW g).mono (by decide))).after ((setFrc_keep ..).mono (by decide)) (by decide)

theorem execHostMemRead_keep {ld line : Nat} {grant : LineGrant} {s : State} {t0 : State} (h : execHostMemRead ld line grant s = .next t0) : Keep 1056649214 s t0 := by
  unfold execHostMemRead at h
  try dsimp only at h
  repeat' (first | split at h)
  all_goals try (exact absurd h (by simp only [reduceCtorEq, not_false_eq_true]))
  all_goals try (with_reducible obtain rfl := Host.Outcome.next.inj h)
  iterate 30 (all_goals try first
    | with_reducible exact Keep.refl _ _
    | with_reducible assumption
    | with_reducible refine (hostMemRead_keep ..).after ?_ (by decide)
    | with_reducible refine Keep.ite (fun _ => ?_) (fun _ => ?_)
    | split)

theorem execHostMemWrite_keep {ld line mask : Nat} {bytes : List Byte} {s : State} {t0 : State} (h : execHostMemWrite ld line mask bytes s = .next t0) : Keep 1056649214 s t0 := by
  unfold execHostMemWrite at h
  try dsimp only at h
  repeat' (first | split at h)
  all_goals try (exact absurd h (by simp only [reduceCtorEq, not_false_eq_true]))
  all_goals try (with_reducible obtain rfl := Host.Outcome.next.inj h)
  iterate 30 (all_goals try first
    | with_reducible exact Keep.refl _ _
    | with_reducible assumption
    | with_reducible refine (hostMemWrite_keep ..).after ?_ (by decide)
    | with_reducible refine Keep.ite (fun _ => ?_) (fun _ => ?_)
    | split)

theorem execHostIoRequest_keep {ld : Nat} {req : IoRequest} {s : State} {t0 : State} (h : execHostIoRequest ld req s = .next t0) : Keep 1056649214 s t0 := by
  unfold execHostIoRequest at h
  try dsimp only at h
  repeat' (first | split at h)
  all_goals try (exact absurd h (by simp only [reduceCtorEq, not_false_eq_true]))
  all_goals try (with_reducible obtain rfl := Host.Outcome.next.inj h)
  iterate 30 (all_goals try first
    | with_reducible exact Keep.refl _ _
    | with_reducible assumption
    | with_reducible refine (hostIoRequest_keep ..).after ?_ (by decide)
    | with_reducible refine Keep.ite (fun _ => ?_) (fun _ => ?_)
    | split)

theorem execBisnpResponse_keep {host line : Nat} {data : Option (List Byte)} {s : State} {t0 : State} (h : execBisnpResponse host line data s = .next t0) : Keep 1056649214 s t0 := by
  unfold execBisnpResponse at h
  try dsimp only at h
  repeat' (first | split at h)
  all_goals try (exact absurd h (by simp only [reduceCtorEq, not_false_eq_true]))
  all_goals try (with_reducible obtain rfl := Host.Outcome.next.inj h)
  iterate 30 (all_goals try first
    | with_reducible exact Keep.refl _ _
    | with_reducible assumption
    | with_reducible refine powered_keep _ _ (fun _ => ?_)
    | with_reducible refine (bisnpResponse_keep ..).after ?_ (by decide)
    | with_reducible refine Keep.ite (fun _ => ?_) (fun _ => ?_)
    | split)

theorem execRecallTimeout_keep {host line : Nat} {s : State} {t0 : State} (h : execRecallTimeout host line s = .next t0) : Keep 1056649214 s t0 := by
  unfold execRecallTimeout at h
  try dsimp only at h
  repeat' (first | split at h)
  all_goals try (exact absurd h (by simp only [reduceCtorEq, not_false_eq_true]))
  all_goals try (with_reducible obtain rfl := Host.Outcome.next.inj h)
  iterate 30 (all_goals try first
    | with_reducible exact Keep.refl _ _
    | with_reducible assumption
    | with_reducible refine powered_keep _ _ (fun _ => ?_)
    | with_reducible refine (recallTimeout_keep ..).after ?_ (by decide)
    | with_reducible refine Keep.ite (fun _ => ?_) (fun _ => ?_)
    | split)

theorem execExtentDrainBound_keep {extent : Nat} {s : State} {t0 : State} (h : execExtentDrainBound extent s = .next t0) : Keep 1056649214 s t0 := by
  unfold execExtentDrainBound at h
  try dsimp only at h
  repeat' (first | split at h)
  all_goals try (exact absurd h (by simp only [reduceCtorEq, not_false_eq_true]))
  all_goals try (with_reducible obtain rfl := Host.Outcome.next.inj h)
  iterate 30 (all_goals try first
    | with_reducible exact Keep.refl _ _
    | with_reducible assumption
    | with_reducible refine powered_keep _ _ (fun _ => ?_)
    | with_reducible refine (settleWaits_keep ..).after ?_ (by decide)
    | with_reducible refine (removalFinish_keep ..).after ?_ (by decide)
    | with_reducible refine Keep.ite (fun _ => ?_) (fun _ => ?_)
    | split)

theorem execExtentWipeDone_keep {extent : Nat} {s : State} {t0 : State} (h : execExtentWipeDone extent s = .next t0) : Keep 1056649214 s t0 := by
  unfold execExtentWipeDone at h
  try dsimp only at h
  repeat' (first | split at h)
  all_goals try (exact absurd h (by simp only [reduceCtorEq, not_false_eq_true]))
  all_goals try (with_reducible obtain rfl := Host.Outcome.next.inj h)
  iterate 30 (all_goals try first
    | with_reducible exact Keep.refl _ _
    | with_reducible assumption
    | with_reducible refine powered_keep _ _ (fun _ => ?_)
    | with_reducible refine (extentWipeDone_keep ..).after ?_ (by decide)
    | with_reducible refine Keep.ite (fun _ => ?_) (fun _ => ?_)
    | split)

theorem execLdBind_keep {ld : Nat} {s : State} {t0 : State} (h : execLdBind ld s = .next t0) : Keep 514 s t0 := by
  unfold execLdBind at h
  try dsimp only at h
  repeat' (first | split at h)
  all_goals try (exact absurd h (by simp only [reduceCtorEq, not_false_eq_true]))
  all_goals try (with_reducible obtain rfl := Host.Outcome.next.inj h)
  iterate 30 (all_goals try first
    | with_reducible exact Keep.refl _ _
    | with_reducible assumption
    | with_reducible refine (ldBind_keep ..).after ?_ (by decide)
    | with_reducible refine Keep.ite (fun _ => ?_) (fun _ => ?_)
    | split)

theorem execLdReset_keep {ld : Nat} {s : State} {t0 : State} (h : execLdReset ld s = .next t0) : Keep 1056649214 s t0 := by
  unfold execLdReset at h
  try dsimp only at h
  repeat' (first | split at h)
  all_goals try (exact absurd h (by simp only [reduceCtorEq, not_false_eq_true]))
  all_goals try (with_reducible obtain rfl := Host.Outcome.next.inj h)
  iterate 30 (all_goals try first
    | with_reducible exact Keep.refl _ _
    | with_reducible assumption
    | with_reducible refine (ldReset_keep ..).after ?_ (by decide)
    | with_reducible refine Keep.ite (fun _ => ?_) (fun _ => ?_)
    | split)

theorem execHostLinkDown_keep {s : State} {t0 : State} (h : execHostLinkDown s = .next t0) : Keep 1056649214 s t0 := by
  unfold execHostLinkDown at h
  try dsimp only at h
  repeat' (first | split at h)
  all_goals try (exact absurd h (by simp only [reduceCtorEq, not_false_eq_true]))
  all_goals try (with_reducible obtain rfl := Host.Outcome.next.inj h)
  iterate 30 (all_goals try first
    | with_reducible exact Keep.refl _ _
    | with_reducible assumption
    | with_reducible refine powered_keep _ _ (fun _ => ?_)
    | with_reducible refine (linkLost_keep ..).after ?_ (by decide)
    | with_reducible refine Keep.ite (fun _ => ?_) (fun _ => ?_)
    | split)

theorem execPowerOnReset_keep {pos perstScope i3cSa : Nat} {s : State} {t0 : State} (h : execPowerOnReset pos perstScope i3cSa s = .next t0) : Keep 4294967270 s t0 := by
  unfold execPowerOnReset at h
  try dsimp only at h
  repeat' (first | split at h)
  all_goals try (exact absurd h (by simp only [reduceCtorEq, not_false_eq_true]))
  all_goals try (with_reducible obtain rfl := Host.Outcome.next.inj h)
  iterate 30 (all_goals try first
    | with_reducible exact Keep.refl _ _
    | with_reducible assumption
    | with_reducible refine (powerOn_keep ..).after ?_ (by decide)
    | with_reducible refine Keep.ite (fun _ => ?_) (fun _ => ?_)
    | split)

theorem execPowerRemoval_keep {s : State} {t0 : State} (h : execPowerRemoval s = .next t0) : Keep 4294967270 s t0 := by
  unfold execPowerRemoval at h
  try dsimp only at h
  repeat' (first | split at h)
  all_goals try (exact absurd h (by simp only [reduceCtorEq, not_false_eq_true]))
  all_goals try (with_reducible obtain rfl := Host.Outcome.next.inj h)
  iterate 30 (all_goals try first
    | with_reducible exact Keep.refl _ _
    | with_reducible assumption
    | with_reducible refine (survivors_keep ..).after ?_ (by decide)
    | with_reducible refine (setMgc_keep ..).after ?_ (by decide)
    | with_reducible refine Keep.ite (fun _ => ?_) (fun _ => ?_)
    | split)

theorem execResetCtrlWrite_keep {from_ key warm : Nat} {s : State} {t0 : State} (h : execResetCtrlWrite from_ key warm s = .next t0) : Keep 4294967278 s t0 := by
  unfold execResetCtrlWrite at h
  try dsimp only at h
  repeat' (first | split at h)
  all_goals try (exact absurd h (by simp only [reduceCtorEq, not_false_eq_true]))
  all_goals try (with_reducible obtain rfl := Host.Outcome.next.inj h)
  iterate 30 (all_goals try first
    | with_reducible exact Keep.refl _ _
    | with_reducible assumption
    | with_reducible refine (resetCtrl_keep ..).after ?_ (by decide)
    | with_reducible refine (countIo_keep ..).after ?_ (by decide)
    | with_reducible refine Keep.ite (fun _ => ?_) (fun _ => ?_)
    | split)

theorem execVinExcursion_keep {vinMv : Nat} {s : State} {t0 : State} (h : execVinExcursion vinMv s = .next t0) : Keep 60942 s t0 := by
  unfold execVinExcursion at h
  try dsimp only at h
  repeat' (first | split at h)
  all_goals try (exact absurd h (by simp only [reduceCtorEq, not_false_eq_true]))
  all_goals try (with_reducible obtain rfl := Host.Outcome.next.inj h)
  iterate 30 (all_goals try first
    | with_reducible exact Keep.refl _ _
    | with_reducible assumption
    | with_reducible refine (vinExcursion_keep ..).after ?_ (by decide)
    | with_reducible refine Keep.ite (fun _ => ?_) (fun _ => ?_)
    | split)

theorem execPowerPeriod_keep {vinMv iinMa pinMw : Nat} {s : State} {t0 : State} (h : execPowerPeriod vinMv iinMa pinMw s = .next t0) : Keep 57350 s t0 := by
  unfold execPowerPeriod at h
  try dsimp only at h
  repeat' (first | split at h)
  all_goals try (exact absurd h (by simp only [reduceCtorEq, not_false_eq_true]))
  all_goals try (with_reducible obtain rfl := Host.Outcome.next.inj h)
  iterate 30 (all_goals try first
    | with_reducible exact Keep.refl _ _
    | with_reducible assumption
    | with_reducible refine (powerPeriod_keep ..).after ?_ (by decide)
    | with_reducible refine Keep.ite (fun _ => ?_) (fun _ => ?_)
    | split)

theorem execThermalSample_keep {temps : List (Option Nat)} {s : State} {t0 : State} (h : execThermalSample temps s = .next t0) : Keep 60942 s t0 := by
  unfold execThermalSample at h
  try dsimp only at h
  repeat' (first | split at h)
  all_goals try (exact absurd h (by simp only [reduceCtorEq, not_false_eq_true]))
  all_goals try (with_reducible obtain rfl := Host.Outcome.next.inj h)
  iterate 30 (all_goals try first
    | with_reducible exact Keep.refl _ _
    | with_reducible assumption
    | with_reducible refine (thermalSample_keep ..).after ?_ (by decide)
    | with_reducible refine Keep.ite (fun _ => ?_) (fun _ => ?_)
    | split)

theorem execPwrCtrlGo_keep {from_ target : Nat} {s : State} {t0 : State} (h : execPwrCtrlGo from_ target s = .next t0) : Keep 58370 s t0 := by
  unfold execPwrCtrlGo at h
  try dsimp only at h
  repeat' (first | split at h)
  all_goals try (exact absurd h (by simp only [reduceCtorEq, not_false_eq_true]))
  all_goals try (with_reducible obtain rfl := Host.Outcome.next.inj h)
  iterate 30 (all_goals try first
    | with_reducible exact Keep.refl _ _
    | with_reducible assumption
    | with_reducible refine (pwrCtrl_keep ..).after ?_ (by decide)
    | with_reducible refine (countIo_keep ..).after ?_ (by decide)
    | with_reducible refine Keep.ite (fun _ => ?_) (fun _ => ?_)
    | split)

theorem execPowerTransitionDone_keep {s : State} {t0 : State} (h : execPowerTransitionDone s = .next t0) : Keep 2684477486 s t0 := by
  unfold execPowerTransitionDone at h
  try dsimp only at h
  repeat' (first | split at h)
  all_goals try (exact absurd h (by simp only [reduceCtorEq, not_false_eq_true]))
  all_goals try (with_reducible obtain rfl := Host.Outcome.next.inj h)
  iterate 30 (all_goals try first
    | with_reducible exact Keep.refl _ _
    | with_reducible assumption
    | with_reducible refine (transitionDone_keep ..).after ?_ (by decide)
    | with_reducible refine Keep.ite (fun _ => ?_) (fun _ => ?_)
    | split)

theorem execThermalTrip_keep {sensor reading : Nat} {s : State} {t0 : State} (h : execThermalTrip sensor reading s = .next t0) : Keep 2684481070 s t0 := by
  unfold execThermalTrip at h
  try dsimp only at h
  repeat' (first | split at h)
  all_goals try (exact absurd h (by simp only [reduceCtorEq, not_false_eq_true]))
  all_goals try (with_reducible obtain rfl := Host.Outcome.next.inj h)
  iterate 30 (all_goals try first
    | with_reducible exact Keep.refl _ _
    | with_reducible assumption
    | with_reducible refine (thermalTrip_keep ..).after ?_ (by decide)
    | with_reducible refine Keep.ite (fun _ => ?_) (fun _ => ?_)
    | split)

theorem execHbmTrained_keep {s : State} {t0 : State} (h : execHbmTrained s = .next t0) : Keep 2 s t0 := by
  unfold execHbmTrained at h
  try dsimp only at h
  repeat' (first | split at h)
  all_goals try (exact absurd h (by simp only [reduceCtorEq, not_false_eq_true]))
  all_goals try (with_reducible obtain rfl := Host.Outcome.next.inj h)
  iterate 30 (all_goals try first
    | with_reducible exact Keep.refl _ _
    | with_reducible assumption
    | with_reducible refine (hbmTrained_keep ..).after ?_ (by decide)
    | with_reducible refine Keep.ite (fun _ => ?_) (fun _ => ?_)
    | split)

theorem execDimmTrained_keep {modules : List (Option Nat)} {s : State} {t0 : State} (h : execDimmTrained modules s = .next t0) : Keep 28174 s t0 := by
  unfold execDimmTrained at h
  try dsimp only at h
  repeat' (first | split at h)
  all_goals try (exact absurd h (by simp only [reduceCtorEq, not_false_eq_true]))
  all_goals try (with_reducible obtain rfl := Host.Outcome.next.inj h)
  iterate 30 (all_goals try first
    | with_reducible exact Keep.refl _ _
    | with_reducible assumption
    | with_reducible refine (dimmTrained_keep ..).after ?_ (by decide)
    | with_reducible refine Keep.ite (fun _ => ?_) (fun _ => ?_)
    | split)

theorem execT0WipeDone_keep {s : State} {t0 : State} (h : execT0WipeDone s = .next t0) : Keep 126958 s t0 := by
  unfold execT0WipeDone at h
  try dsimp only at h
  repeat' (first | split at h)
  all_goals try (exact absurd h (by simp only [reduceCtorEq, not_false_eq_true]))
  all_goals try (with_reducible obtain rfl := Host.Outcome.next.inj h)
  iterate 30 (all_goals try first
    | with_reducible exact Keep.refl _ _
    | with_reducible assumption
    | with_reducible refine (t0WipeDone_keep ..).after ?_ (by decide)
    | with_reducible refine Keep.ite (fun _ => ?_) (fun _ => ?_)
    | split)

theorem execT1WipeDone_keep {s : State} {t0 : State} (h : execT1WipeDone s = .next t0) : Keep 126958 s t0 := by
  unfold execT1WipeDone at h
  try dsimp only at h
  repeat' (first | split at h)
  all_goals try (exact absurd h (by simp only [reduceCtorEq, not_false_eq_true]))
  all_goals try (with_reducible obtain rfl := Host.Outcome.next.inj h)
  iterate 30 (all_goals try first
    | with_reducible exact Keep.refl _ _
    | with_reducible assumption
    | with_reducible refine (t1WipeDone_keep ..).after ?_ (by decide)
    | with_reducible refine Keep.ite (fun _ => ?_) (fun _ => ?_)
    | split)

theorem execFwLoadGo_keep {from_ len4k : Nat} {image : Option (List Byte)} {s : State} {t0 : State} (h : execFwLoadGo from_ len4k image s = .next t0) : Keep 1034 s t0 := by
  unfold execFwLoadGo at h
  try dsimp only at h
  repeat' (first | split at h)
  all_goals try (exact absurd h (by simp only [reduceCtorEq, not_false_eq_true]))
  all_goals try (with_reducible obtain rfl := Host.Outcome.next.inj h)
  iterate 30 (all_goals try first
    | with_reducible exact Keep.refl _ _
    | with_reducible assumption
    | with_reducible refine (fwLoad_keep ..).after ?_ (by decide)
    | with_reducible refine (countIo_keep ..).after ?_ (by decide)
    | with_reducible refine Keep.ite (fun _ => ?_) (fun _ => ?_)
    | split)

theorem execFwInitDone_keep {fw : FwValues} {s : State} {t0 : State} (h : execFwInitDone fw s = .next t0) : Keep 67169806 s t0 := by
  unfold execFwInitDone at h
  try dsimp only at h
  repeat' (first | split at h)
  all_goals try (exact absurd h (by simp only [reduceCtorEq, not_false_eq_true]))
  all_goals try (with_reducible obtain rfl := Host.Outcome.next.inj h)
  iterate 30 (all_goals try first
    | with_reducible exact Keep.refl _ _
    | with_reducible assumption
    | with_reducible refine (fwInitDone_keep ..).after ?_ (by decide)
    | with_reducible refine Keep.ite (fun _ => ?_) (fun _ => ?_)
    | split)

theorem execPerstN_keep {soon : Bool} {s : State} {t0 : State} (h : execPerstN soon s = .next t0) : Keep 4294967294 s t0 := by
  unfold execPerstN at h
  try dsimp only at h
  repeat' (first | split at h)
  all_goals try (exact absurd h (by simp only [reduceCtorEq, not_false_eq_true]))
  all_goals try (with_reducible obtain rfl := Host.Outcome.next.inj h)
  iterate 30 (all_goals try first
    | with_reducible exact Keep.refl _ _
    | with_reducible assumption
    | with_reducible refine (perst_keep ..).after ?_ (by decide)
    | with_reducible refine Keep.ite (fun _ => ?_) (fun _ => ?_)
    | split)

theorem execPerstNDeasserted_keep {s : State} {t0 : State} (h : execPerstNDeasserted s = .next t0) : Keep 57346 s t0 := by
  unfold execPerstNDeasserted at h
  try dsimp only at h
  repeat' (first | split at h)
  all_goals try (exact absurd h (by simp only [reduceCtorEq, not_false_eq_true]))
  all_goals try (with_reducible obtain rfl := Host.Outcome.next.inj h)
  iterate 30 (all_goals try first
    | with_reducible exact Keep.refl _ _
    | with_reducible assumption
    | (extract_lets +onlyGivenNames zz; refine Keep.cut zz ?_ (fun _ => ?_); (rotate_left; (try clear_value zz); rotate_right; subst zz))
    | (extract_lets +onlyGivenNames zz; subst zz)
    | with_reducible refine (setMgc_keep ..).after ?_ (by decide)
    | with_reducible refine (setF_keep ..).after ?_ (by decide)
    | with_reducible refine Keep.ite (fun _ => ?_) (fun _ => ?_)
    | split)

theorem execHostLinkUp_keep {width : Nat} {mld : Bool} {s : State} {t0 : State} (h : execHostLinkUp width mld s = .next t0) : Keep 514 s t0 := by
  unfold execHostLinkUp at h
  try dsimp only at h
  repeat' (first | split at h)
  all_goals try (exact absurd h (by simp only [reduceCtorEq, not_false_eq_true]))
  all_goals try (with_reducible obtain rfl := Host.Outcome.next.inj h)
  iterate 30 (all_goals try first
    | with_reducible exact Keep.refl _ _
    | with_reducible assumption
    | with_reducible refine (hostLinkUp_keep ..).after ?_ (by decide)
    | with_reducible refine Keep.ite (fun _ => ?_) (fun _ => ?_)
    | split)

theorem execPinGlitch_keep {pin : Nat} {dropped quiet : Bool} {s : State} {t0 : State} (h : execPinGlitch pin dropped quiet s = .next t0) : Keep 3598 s t0 := by
  unfold execPinGlitch at h
  try dsimp only at h
  repeat' (first | split at h)
  all_goals try (exact absurd h (by simp only [reduceCtorEq, not_false_eq_true]))
  all_goals try (with_reducible obtain rfl := Host.Outcome.next.inj h)
  iterate 30 (all_goals try first
    | with_reducible exact Keep.refl _ _
    | with_reducible assumption
    | with_reducible refine (pinGlitch_keep ..).after ?_ (by decide)
    | with_reducible refine Keep.ite (fun _ => ?_) (fun _ => ?_)
    | split)

theorem execPinStuckTimeout_keep {pin : Nat} {s : State} {t0 : State} (h : execPinStuckTimeout pin s = .next t0) : Keep 8392206 s t0 := by
  unfold execPinStuckTimeout at h
  try dsimp only at h
  repeat' (first | split at h)
  all_goals try (exact absurd h (by simp only [reduceCtorEq, not_false_eq_true]))
  all_goals try (with_reducible obtain rfl := Host.Outcome.next.inj h)
  iterate 30 (all_goals try first
    | with_reducible exact Keep.refl _ _
    | with_reducible assumption
    | with_reducible refine (pinStuck_keep ..).after ?_ (by decide)
    | with_reducible refine Keep.ite (fun _ => ?_) (fun _ => ?_)
    | split)

theorem execPinUnmask_keep {pin : Nat} {s : State} {t0 : State} (h : execPinUnmask pin s = .next t0) : Keep 3598 s t0 := by
  unfold execPinUnmask at h
  try dsimp only at h
  repeat' (first | split at h)
  all_goals try (exact absurd h (by simp only [reduceCtorEq, not_false_eq_true]))
  all_goals try (with_reducible obtain rfl := Host.Outcome.next.inj h)
  iterate 30 (all_goals try first
    | with_reducible exact Keep.refl _ _
    | with_reducible assumption
    | with_reducible refine (pinUnmask_keep ..).after ?_ (by decide)
    | with_reducible refine Keep.ite (fun _ => ?_) (fun _ => ?_)
    | split)

theorem exec_keep {c : Instr} {s t : State} (h : exec c s = .next t) : Keep 4294967294 s t := by
  cases c <;> simp only [exec] at h
  · exact (execQueueCreate_keep (h := h)).mono (by decide)
  · exact (execQueueDelete_keep (h := h)).mono (by decide)
  · exact (execSessionOpen_keep (h := h)).mono (by decide)
  · exact (execSessionClose_keep (h := h)).mono (by decide)
  · exact (execSessionPark_keep (h := h)).mono (by decide)
  · exact (execSessionRebind_keep (h := h)).mono (by decide)
  · exact (execSessionSet_keep (h := h)).mono (by decide)
  · exact (execSessionRead_keep (h := h)).mono (by decide)
  · exact (execHistoryRead_keep (h := h)).mono (by decide)
  · exact (execTurnSubmit_keep (h := h)).mono (by decide)
  · exact (execTurnCancel_keep (h := h)).mono (by decide)
  · exact (execSessionShard_keep (h := h)).mono (by decide)
  · exact (execChainExtend_keep (h := h)).mono (by decide)
  · exact (execModelBind_keep (h := h)).mono (by decide)
  · exact (execModelUnbind_keep (h := h)).mono (by decide)
  · exact (execTailBind_keep (h := h)).mono (by decide)
  · exact (execTailUnbind_keep (h := h)).mono (by decide)
  · exact (execAdapterLoad_keep (h := h)).mono (by decide)
  · exact (execAdapterRetire_keep (h := h)).mono (by decide)
  · exact (execWheelAttach_keep (h := h)).mono (by decide)
  · exact (execWheelDetach_keep (h := h)).mono (by decide)
  · exact (execPrefixLookup_keep (h := h)).mono (by decide)
  · exact (execNextMatch_keep (h := h)).mono (by decide)
  · exact (execPrefixAttach_keep (h := h)).mono (by decide)
  · exact (execPrefixRelease_keep (h := h)).mono (by decide)
  · exact (execPrefixPublish_keep (h := h)).mono (by decide)
  · exact (execPrefixRevoke_keep (h := h)).mono (by decide)
  · exact (execTierRead_keep (h := h)).mono (by decide)
  · exact (execTierWrite_keep (h := h)).mono (by decide)
  · exact (execTierCopy_keep (h := h)).mono (by decide)
  · exact (execWindowPublish_keep (h := h)).mono (by decide)
  · exact (execConnOpen_keep (h := h)).mono (by decide)
  · exact (execConnClose_keep (h := h)).mono (by decide)
  · exact (execRegionRegister_keep (h := h)).mono (by decide)
  · exact (execRegionRevoke_keep (h := h)).mono (by decide)
  · exact (execGroupSet_keep (h := h)).mono (by decide)
  · exact (execWrSubmit_keep (h := h)).mono (by decide)
  · exact (execWrPost_keep (h := h)).mono (by decide)
  · exact (execExtentAssign_keep (h := h)).mono (by decide)
  · exact (execExtentAddHosts_keep (h := h)).mono (by decide)
  · exact (execExtentRemove_keep (h := h)).mono (by decide)
  · exact (execPartitionConfigure_keep (h := h)).mono (by decide)
  · exact (execPartitionRelease_keep (h := h)).mono (by decide)
  · exact (execPartitionLock_keep (h := h)).mono (by decide)
  · exact (execPartitionStart_keep (h := h)).mono (by decide)
  · exact (execPartitionDrain_keep (h := h)).mono (by decide)
  · exact (execPartitionWipe_keep (h := h)).mono (by decide)
  · exact (execReplayBegin_keep (h := h)).mono (by decide)
  · exact (execCapsuleRead_keep (h := h)).mono (by decide)
  · exact (execReplayRun_keep (h := h)).mono (by decide)
  · exact (execFwCommitSvn_keep (h := h)).mono (by decide)
  · exact (execLifecycleAdvance_keep (h := h)).mono (by decide)
  · exact (execLifecycleDecommission_keep (h := h)).mono (by decide)
  · exact (execSpdmGetVersion_keep (h := h)).mono (by decide)
  · exact (execSpdmGetCapabilities_keep (h := h)).mono (by decide)
  · exact (execSpdmNegotiateAlgorithms_keep (h := h)).mono (by decide)
  · exact (execSpdmGetDigests_keep (h := h)).mono (by decide)
  · exact (execSpdmGetCertificate_keep (h := h)).mono (by decide)
  · exact (execSpdmUnsupportedRequest_keep (h := h)).mono (by decide)
  · exact (execAttestationReport_keep (h := h)).mono (by decide)
  · exact (execKeyInit_keep (h := h)).mono (by decide)
  · exact (execKeyExch_keep (h := h)).mono (by decide)
  · exact (execKeyDeliver_keep (h := h)).mono (by decide)
  · exact (execKeyExchangeTimeout_keep (h := h)).mono (by decide)
  · exact (execDebugHalt_keep (h := h)).mono (by decide)
  · exact (execDebugResume_keep (h := h)).mono (by decide)
  · exact (execDebugStep_keep (h := h)).mono (by decide)
  · exact (execDebugMemoryRead_keep (h := h)).mono (by decide)
  · exact (execAqCtrlWrite_keep (h := h)).mono (by decide)
  · exact (execSqTailDoorbell_keep (h := h)).mono (by decide)
  · exact (execCqHeadDoorbell_keep (h := h)).mono (by decide)
  · exact (execCommandFetch_keep (h := h)).mono (by decide)
  · exact (execCqDelayExpiry_keep (h := h)).mono (by decide)
  · exact (execTickWrite_keep (h := h)).mono (by decide)
  · exact (execLadderMove_keep (h := h)).mono (by decide)
  · exact (execSessionExpiry_keep (h := h)).mono (by decide)
  · exact (execSessionRetirement_keep (h := h)).mono (by decide)
  · exact (execWheelExpertWrite_keep (h := h)).mono (by decide)
  · exact (execTmgReadRecord_keep (h := h)).mono (by decide)
  · exact (execTmgReadHeader_keep (h := h)).mono (by decide)
  · exact (execMarkRecovery_keep (h := h)).mono (by decide)
  · exact (execReadMap_keep (h := h)).mono (by decide)
  · exact (execPmeReadEntry_keep (h := h)).mono (by decide)
  · exact (execDropEntry_keep (h := h)).mono (by decide)
  · exact (execBankTest_keep (h := h)).mono (by decide)
  · exact (execMapOutBank_keep (h := h)).mono (by decide)
  · exact (execSweepColumns_keep (h := h)).mono (by decide)
  · exact (execRouteRead_keep (h := h)).mono (by decide)
  · exact (execRouteWrite_keep (h := h)).mono (by decide)
  · exact (execConnReadRecord_keep (h := h)).mono (by decide)
  · exact (execConnFail_keep (h := h)).mono (by decide)
  · exact (execRegionOpReadEntry_keep (h := h)).mono (by decide)
  · exact (execRegionOpRevoke_keep (h := h)).mono (by decide)
  · exact (execRevokeAndFree_keep (h := h)).mono (by decide)
  · exact (execNodeStaticWrite_keep (h := h)).mono (by decide)
  · exact (execPortEnWrite_keep (h := h)).mono (by decide)
  · exact (execCapsuleAreaWrite_keep (h := h)).mono (by decide)
  · exact (execFwLoadGo_keep (h := h)).mono (by decide)
  · exact (execPwrCtrlGo_keep (h := h)).mono (by decide)
  · exact (execPowerTransitionDone_keep (h := h)).mono (by decide)
  · exact (execResetCtrlWrite_keep (h := h)).mono (by decide)
  · exact (execBlkExpertUnlockWrite_keep (h := h)).mono (by decide)
  · exact (execBlkInject_keep (h := h)).mono (by decide)
  · exact (execBlkSelftestGo_keep (h := h)).mono (by decide)
  · exact (execRegisterWrite_keep (h := h)).mono (by decide)
  · exact (execErrorDetected_keep (h := h)).mono (by decide)
  · exact (execSelftestDone_keep (h := h)).mono (by decide)
  · exact (execTrigger_keep (h := h)).mono (by decide)
  · exact (execTriggerConsume_keep (h := h)).mono (by decide)
  · exact (execBeatIn_keep (h := h)).mono (by decide)
  · exact (execGangDeal_keep (h := h)).mono (by decide)
  · exact (execExpanderDecode_keep (h := h)).mono (by decide)
  · exact (execRecoveryReadDone_keep (h := h)).mono (by decide)
  · exact (execItemDone_keep (h := h)).mono (by decide)
  · exact (execStepCommit_keep (h := h)).mono (by decide)
  · exact (execCommitReserveTimeout_keep (h := h)).mono (by decide)
  · exact (execRosterWrite_keep (h := h)).mono (by decide)
  · exact (execReviveLayerResident_keep (h := h)).mono (by decide)
  · exact (execTierTransferDone_keep (h := h)).mono (by decide)
  · exact (execTierReadFailed_keep (h := h)).mono (by decide)
  · exact (execPageLate_keep (h := h)).mono (by decide)
  · exact (execWheelStall_keep (h := h)).mono (by decide)
  · exact (execChainTimeout_keep (h := h)).mono (by decide)
  · exact (execSpillwayRelief_keep (h := h)).mono (by decide)
  · exact (execCleanAhead_keep (h := h)).mono (by decide)
  · exact (execHeatPromotion_keep (h := h)).mono (by decide)
  · exact (execHeatSweep_keep (h := h)).mono (by decide)
  · exact (execHitsAgeing_keep (h := h)).mono (by decide)
  · exact (execPrefixPublication_keep (h := h)).mono (by decide)
  · exact (execHoleMaintenance_keep (h := h)).mono (by decide)
  · exact (execColumnSweep_keep (h := h)).mono (by decide)
  · exact (execLookupSlotTimeout_keep (h := h)).mono (by decide)
  · exact (execImportDone_keep (h := h)).mono (by decide)
  · exact (execCascadeLookup_keep (h := h)).mono (by decide)
  · exact (execResolve_keep (h := h)).mono (by decide)
  · exact (execMatchFrame_keep (h := h)).mono (by decide)
  · exact (execCascadeResult_keep (h := h)).mono (by decide)
  · exact (execCascadeReject_keep (h := h)).mono (by decide)
  · exact (execCascadeMove_keep (h := h)).mono (by decide)
  · exact (execMatchInStuck_keep (h := h)).mono (by decide)
  · exact (execCascadeLockTimeout_keep (h := h)).mono (by decide)
  · exact (execFwdLookup_keep (h := h)).mono (by decide)
  · exact (execFwdAnswer_keep (h := h)).mono (by decide)
  · exact (execFwdTimeout_keep (h := h)).mono (by decide)
  · exact (execSluiceDecide_keep (h := h)).mono (by decide)
  · exact (execSluicePreempt_keep (h := h)).mono (by decide)
  · exact (execSluiceHogCutoff_keep (h := h)).mono (by decide)
  · exact (execSluiceWindowBoundary_keep (h := h)).mono (by decide)
  · exact (execLinkDetect_keep (h := h)).mono (by decide)
  · exact (execLinkTrained_keep (h := h)).mono (by decide)
  · exact (execLinkTrainTimeout_keep (h := h)).mono (by decide)
  · exact (execLinkCap_keep (h := h)).mono (by decide)
  · exact (execLinkDown_keep (h := h)).mono (by decide)
  · exact (execAssign_keep (h := h)).mono (by decide)
  · exact (execDepart_keep (h := h)).mono (by decide)
  · exact (execJoin_keep (h := h)).mono (by decide)
  · exact (execRoute_keep (h := h)).mono (by decide)
  · exact (execConnect_keep (h := h)).mono (by decide)
  · exact (execAccept_keep (h := h)).mono (by decide)
  · exact (execClose_keep (h := h)).mono (by decide)
  · exact (execCloseAck_keep (h := h)).mono (by decide)
  · exact (execConnectTimeout_keep (h := h)).mono (by decide)
  · exact (execCloseTimeout_keep (h := h)).mono (by decide)
  · exact (execWrite_keep (h := h)).mono (by decide)
  · exact (execMcastWrite_keep (h := h)).mono (by decide)
  · exact (execReduce_keep (h := h)).mono (by decide)
  · exact (execReadReq_keep (h := h)).mono (by decide)
  · exact (execReadResp_keep (h := h)).mono (by decide)
  · exact (execAtomic_keep (h := h)).mono (by decide)
  · exact (execAtomicResp_keep (h := h)).mono (by decide)
  · exact (execCas_keep (h := h)).mono (by decide)
  · exact (execCasResp_keep (h := h)).mono (by decide)
  · exact (execFlush_keep (h := h)).mono (by decide)
  · exact (execFlushResp_keep (h := h)).mono (by decide)
  · exact (execAck_keep (h := h)).mono (by decide)
  · exact (execNak_keep (h := h)).mono (by decide)
  · exact (execAckDelayExpiry_keep (h := h)).mono (by decide)
  · exact (execRetransmitTimeout_keep (h := h)).mono (by decide)
  · exact (execConnectionDeadTimeout_keep (h := h)).mono (by decide)
  · exact (execDeadTarget_keep (h := h)).mono (by decide)
  · exact (execSpillFetchDone_keep (h := h)).mono (by decide)
  · exact (execRevokeDrained_keep (h := h)).mono (by decide)
  · exact (execRegionRetireExpiry_keep (h := h)).mono (by decide)
  · exact (execHostMemRead_keep (h := h)).mono (by decide)
  · exact (execHostMemWrite_keep (h := h)).mono (by decide)
  · exact (execBisnpResponse_keep (h := h)).mono (by decide)
  · exact (execRecallTimeout_keep (h := h)).mono (by decide)
  · exact (execExtentDrainBound_keep (h := h)).mono (by decide)
  · exact (execExtentWipeDone_keep (h := h)).mono (by decide)
  · exact (execHostIoRequest_keep (h := h)).mono (by decide)
  · exact (execFunctionLevelReset_keep (h := h)).mono (by decide)
  · exact (execLdReset_keep (h := h)).mono (by decide)
  · exact (execLdBind_keep (h := h)).mono (by decide)
  · exact (execHostLinkDown_keep (h := h)).mono (by decide)
  · exact (execCxdPortDown_keep (h := h)).mono (by decide)
  · exact (execCxdPortReturn_keep (h := h)).mono (by decide)
  · exact (execNvcCommandTimeout_keep (h := h)).mono (by decide)
  · exact (execNvcDriveFatal_keep (h := h)).mono (by decide)
  · exact (execNvcPrsntChange_keep (h := h)).mono (by decide)
  · exact (execCapsuleWrite_keep (h := h)).mono (by decide)
  · exact (execPerstN_keep (h := h)).mono (by decide)
  · exact (execPinStuckTimeout_keep (h := h)).mono (by decide)
  · exact (execPinUnmask_keep (h := h)).mono (by decide)
  · exact (execPowerOnReset_keep (h := h)).mono (by decide)
  · exact (execPowerRemoval_keep (h := h)).mono (by decide)
  · exact (execVinExcursion_keep (h := h)).mono (by decide)
  · exact (execPowerPeriod_keep (h := h)).mono (by decide)
  · exact (execThermalSample_keep (h := h)).mono (by decide)
  · exact (execThermalTrip_keep (h := h)).mono (by decide)
  · exact (execHbmTrained_keep (h := h)).mono (by decide)
  · exact (execDimmTrained_keep (h := h)).mono (by decide)
  · exact (execT0WipeDone_keep (h := h)).mono (by decide)
  · exact (execT1WipeDone_keep (h := h)).mono (by decide)
  · exact (execFwInitDone_keep (h := h)).mono (by decide)
  · exact (execPartitionWipeDone_keep (h := h)).mono (by decide)
  · exact (execPerstNDeasserted_keep (h := h)).mono (by decide)
  · exact (execHostLinkUp_keep (h := h)).mono (by decide)
  · exact (execMessageLeftPort_keep (h := h)).mono (by decide)
  · exact (execMatchInViolation_keep (h := h)).mono (by decide)
  · exact (execCascadeNeighbourLinkFail_keep (h := h)).mono (by decide)
  · exact (execPinGlitch_keep (h := h)).mono (by decide)
  · exact (execDriveProtocolViolation_keep (h := h)).mono (by decide)
  · exact (execTrayEventPoll_keep (h := h)).mono (by decide)

end Sys2Proof.Machine
end

