-- ==== Sys2Proof/Laws/State.lean ====
section
/-!
SUPPORT. Laws/State.lean: what each record update of State leaves, one lemma a field, and the laws of register fields and counters.
-/
namespace Sys2Proof.Machine

open Sys2Proof

variable (s : State)

-- State.setF
@[simp] theorem State.setF_pending (f : Fld) (v : Nat) : (s.setF f v).pending = s.pending := rfl
@[simp] theorem State.setF_ctrs (f : Fld) (v : Nat) : (s.setF f v).ctrs = s.ctrs := rfl
@[simp] theorem State.setF_out (f : Fld) (v : Nat) : (s.setF f v).out = s.out := rfl
@[simp] theorem State.setF_free (f : Fld) (v : Nat) : (s.setF f v).free = s.free := rfl
@[simp] theorem State.setF_t0 (f : Fld) (v : Nat) : (s.setF f v).t0 = s.t0 := rfl
@[simp] theorem State.setF_t1 (f : Fld) (v : Nat) : (s.setF f v).t1 = s.t1 := rfl
@[simp] theorem State.setF_t2 (f : Fld) (v : Nat) : (s.setF f v).t2 = s.t2 := rfl
@[simp] theorem State.setF_t3 (f : Fld) (v : Nat) : (s.setF f v).t3 = s.t3 := rfl
@[simp] theorem State.setF_hif (f : Fld) (v : Nat) : (s.setF f v).hif = s.hif := rfl
@[simp] theorem State.setF_frc (f : Fld) (v : Nat) : (s.setF f v).frc = s.frc := rfl
@[simp] theorem State.setF_sec (f : Fld) (v : Nat) : (s.setF f v).sec = s.sec := rfl
@[simp] theorem State.setF_mgc (f : Fld) (v : Nat) : (s.setF f v).mgc = s.mgc := rfl
@[simp] theorem State.setF_cwp (f : Fld) (v : Nat) : (s.setF f v).cwp = s.cwp := rfl
@[simp] theorem State.setF_ssq (f : Fld) (v : Nat) : (s.setF f v).ssq = s.ssq := rfl
@[simp] theorem State.setF_tmg (f : Fld) (v : Nat) : (s.setF f v).tmg = s.tmg := rfl
@[simp] theorem State.setF_hrc (f : Fld) (v : Nat) : (s.setF f v).hrc = s.hrc := rfl
@[simp] theorem State.setF_pme (f : Fld) (v : Nat) : (s.setF f v).pme = s.pme := rfl
@[simp] theorem State.setF_xfe (f : Fld) (v : Nat) : (s.setF f v).xfe = s.xfe := rfl
@[simp] theorem State.setF_slu (f : Fld) (v : Nat) : (s.setF f v).slu = s.slu := rfl
@[simp] theorem State.setF_mxg (f : Fld) (v : Nat) : (s.setF f v).mxg = s.mxg := rfl

-- State.setFlag
@[simp] theorem State.setFlag_pending (f : Fld) (b : Bool) : (s.setFlag f b).pending = s.pending := rfl
@[simp] theorem State.setFlag_ctrs (f : Fld) (b : Bool) : (s.setFlag f b).ctrs = s.ctrs := rfl
@[simp] theorem State.setFlag_out (f : Fld) (b : Bool) : (s.setFlag f b).out = s.out := rfl
@[simp] theorem State.setFlag_free (f : Fld) (b : Bool) : (s.setFlag f b).free = s.free := rfl
@[simp] theorem State.setFlag_t0 (f : Fld) (b : Bool) : (s.setFlag f b).t0 = s.t0 := rfl
@[simp] theorem State.setFlag_t1 (f : Fld) (b : Bool) : (s.setFlag f b).t1 = s.t1 := rfl
@[simp] theorem State.setFlag_t2 (f : Fld) (b : Bool) : (s.setFlag f b).t2 = s.t2 := rfl
@[simp] theorem State.setFlag_t3 (f : Fld) (b : Bool) : (s.setFlag f b).t3 = s.t3 := rfl
@[simp] theorem State.setFlag_hif (f : Fld) (b : Bool) : (s.setFlag f b).hif = s.hif := rfl
@[simp] theorem State.setFlag_frc (f : Fld) (b : Bool) : (s.setFlag f b).frc = s.frc := rfl
@[simp] theorem State.setFlag_sec (f : Fld) (b : Bool) : (s.setFlag f b).sec = s.sec := rfl
@[simp] theorem State.setFlag_mgc (f : Fld) (b : Bool) : (s.setFlag f b).mgc = s.mgc := rfl
@[simp] theorem State.setFlag_cwp (f : Fld) (b : Bool) : (s.setFlag f b).cwp = s.cwp := rfl
@[simp] theorem State.setFlag_ssq (f : Fld) (b : Bool) : (s.setFlag f b).ssq = s.ssq := rfl
@[simp] theorem State.setFlag_tmg (f : Fld) (b : Bool) : (s.setFlag f b).tmg = s.tmg := rfl
@[simp] theorem State.setFlag_hrc (f : Fld) (b : Bool) : (s.setFlag f b).hrc = s.hrc := rfl
@[simp] theorem State.setFlag_pme (f : Fld) (b : Bool) : (s.setFlag f b).pme = s.pme := rfl
@[simp] theorem State.setFlag_xfe (f : Fld) (b : Bool) : (s.setFlag f b).xfe = s.xfe := rfl
@[simp] theorem State.setFlag_slu (f : Fld) (b : Bool) : (s.setFlag f b).slu = s.slu := rfl
@[simp] theorem State.setFlag_mxg (f : Fld) (b : Bool) : (s.setFlag f b).mxg = s.mxg := rfl

-- State.satAdd
@[simp] theorem State.satAdd_pending (f : Fld) (n : Nat) : (s.satAdd f n).pending = s.pending := rfl
@[simp] theorem State.satAdd_ctrs (f : Fld) (n : Nat) : (s.satAdd f n).ctrs = s.ctrs := rfl
@[simp] theorem State.satAdd_out (f : Fld) (n : Nat) : (s.satAdd f n).out = s.out := rfl
@[simp] theorem State.satAdd_free (f : Fld) (n : Nat) : (s.satAdd f n).free = s.free := rfl
@[simp] theorem State.satAdd_t0 (f : Fld) (n : Nat) : (s.satAdd f n).t0 = s.t0 := rfl
@[simp] theorem State.satAdd_t1 (f : Fld) (n : Nat) : (s.satAdd f n).t1 = s.t1 := rfl
@[simp] theorem State.satAdd_t2 (f : Fld) (n : Nat) : (s.satAdd f n).t2 = s.t2 := rfl
@[simp] theorem State.satAdd_t3 (f : Fld) (n : Nat) : (s.satAdd f n).t3 = s.t3 := rfl
@[simp] theorem State.satAdd_hif (f : Fld) (n : Nat) : (s.satAdd f n).hif = s.hif := rfl
@[simp] theorem State.satAdd_frc (f : Fld) (n : Nat) : (s.satAdd f n).frc = s.frc := rfl
@[simp] theorem State.satAdd_sec (f : Fld) (n : Nat) : (s.satAdd f n).sec = s.sec := rfl
@[simp] theorem State.satAdd_mgc (f : Fld) (n : Nat) : (s.satAdd f n).mgc = s.mgc := rfl
@[simp] theorem State.satAdd_cwp (f : Fld) (n : Nat) : (s.satAdd f n).cwp = s.cwp := rfl
@[simp] theorem State.satAdd_ssq (f : Fld) (n : Nat) : (s.satAdd f n).ssq = s.ssq := rfl
@[simp] theorem State.satAdd_tmg (f : Fld) (n : Nat) : (s.satAdd f n).tmg = s.tmg := rfl
@[simp] theorem State.satAdd_hrc (f : Fld) (n : Nat) : (s.satAdd f n).hrc = s.hrc := rfl
@[simp] theorem State.satAdd_pme (f : Fld) (n : Nat) : (s.satAdd f n).pme = s.pme := rfl
@[simp] theorem State.satAdd_xfe (f : Fld) (n : Nat) : (s.satAdd f n).xfe = s.xfe := rfl
@[simp] theorem State.satAdd_slu (f : Fld) (n : Nat) : (s.satAdd f n).slu = s.slu := rfl
@[simp] theorem State.satAdd_mxg (f : Fld) (n : Nat) : (s.satAdd f n).mxg = s.mxg := rfl

-- State.w1c
@[simp] theorem State.w1c_pending (f : Fld) (v : Nat) : (s.w1c f v).pending = s.pending := rfl
@[simp] theorem State.w1c_ctrs (f : Fld) (v : Nat) : (s.w1c f v).ctrs = s.ctrs := rfl
@[simp] theorem State.w1c_out (f : Fld) (v : Nat) : (s.w1c f v).out = s.out := rfl
@[simp] theorem State.w1c_free (f : Fld) (v : Nat) : (s.w1c f v).free = s.free := rfl
@[simp] theorem State.w1c_t0 (f : Fld) (v : Nat) : (s.w1c f v).t0 = s.t0 := rfl
@[simp] theorem State.w1c_t1 (f : Fld) (v : Nat) : (s.w1c f v).t1 = s.t1 := rfl
@[simp] theorem State.w1c_t2 (f : Fld) (v : Nat) : (s.w1c f v).t2 = s.t2 := rfl
@[simp] theorem State.w1c_t3 (f : Fld) (v : Nat) : (s.w1c f v).t3 = s.t3 := rfl
@[simp] theorem State.w1c_hif (f : Fld) (v : Nat) : (s.w1c f v).hif = s.hif := rfl
@[simp] theorem State.w1c_frc (f : Fld) (v : Nat) : (s.w1c f v).frc = s.frc := rfl
@[simp] theorem State.w1c_sec (f : Fld) (v : Nat) : (s.w1c f v).sec = s.sec := rfl
@[simp] theorem State.w1c_mgc (f : Fld) (v : Nat) : (s.w1c f v).mgc = s.mgc := rfl
@[simp] theorem State.w1c_cwp (f : Fld) (v : Nat) : (s.w1c f v).cwp = s.cwp := rfl
@[simp] theorem State.w1c_ssq (f : Fld) (v : Nat) : (s.w1c f v).ssq = s.ssq := rfl
@[simp] theorem State.w1c_tmg (f : Fld) (v : Nat) : (s.w1c f v).tmg = s.tmg := rfl
@[simp] theorem State.w1c_hrc (f : Fld) (v : Nat) : (s.w1c f v).hrc = s.hrc := rfl
@[simp] theorem State.w1c_pme (f : Fld) (v : Nat) : (s.w1c f v).pme = s.pme := rfl
@[simp] theorem State.w1c_xfe (f : Fld) (v : Nat) : (s.w1c f v).xfe = s.xfe := rfl
@[simp] theorem State.w1c_slu (f : Fld) (v : Nat) : (s.w1c f v).slu = s.slu := rfl
@[simp] theorem State.w1c_mxg (f : Fld) (v : Nat) : (s.w1c f v).mxg = s.mxg := rfl

-- State.bumpBy
@[simp] theorem State.bumpBy_pending (o n : Nat) : (s.bumpBy o n).pending = s.pending := rfl
@[simp] theorem State.bumpBy_regs (o n : Nat) : (s.bumpBy o n).regs = s.regs := rfl
@[simp] theorem State.bumpBy_out (o n : Nat) : (s.bumpBy o n).out = s.out := rfl
@[simp] theorem State.bumpBy_free (o n : Nat) : (s.bumpBy o n).free = s.free := rfl
@[simp] theorem State.bumpBy_t0 (o n : Nat) : (s.bumpBy o n).t0 = s.t0 := rfl
@[simp] theorem State.bumpBy_t1 (o n : Nat) : (s.bumpBy o n).t1 = s.t1 := rfl
@[simp] theorem State.bumpBy_t2 (o n : Nat) : (s.bumpBy o n).t2 = s.t2 := rfl
@[simp] theorem State.bumpBy_t3 (o n : Nat) : (s.bumpBy o n).t3 = s.t3 := rfl
@[simp] theorem State.bumpBy_hif (o n : Nat) : (s.bumpBy o n).hif = s.hif := rfl
@[simp] theorem State.bumpBy_frc (o n : Nat) : (s.bumpBy o n).frc = s.frc := rfl
@[simp] theorem State.bumpBy_sec (o n : Nat) : (s.bumpBy o n).sec = s.sec := rfl
@[simp] theorem State.bumpBy_mgc (o n : Nat) : (s.bumpBy o n).mgc = s.mgc := rfl
@[simp] theorem State.bumpBy_cwp (o n : Nat) : (s.bumpBy o n).cwp = s.cwp := rfl
@[simp] theorem State.bumpBy_ssq (o n : Nat) : (s.bumpBy o n).ssq = s.ssq := rfl
@[simp] theorem State.bumpBy_tmg (o n : Nat) : (s.bumpBy o n).tmg = s.tmg := rfl
@[simp] theorem State.bumpBy_hrc (o n : Nat) : (s.bumpBy o n).hrc = s.hrc := rfl
@[simp] theorem State.bumpBy_pme (o n : Nat) : (s.bumpBy o n).pme = s.pme := rfl
@[simp] theorem State.bumpBy_xfe (o n : Nat) : (s.bumpBy o n).xfe = s.xfe := rfl
@[simp] theorem State.bumpBy_slu (o n : Nat) : (s.bumpBy o n).slu = s.slu := rfl
@[simp] theorem State.bumpBy_mxg (o n : Nat) : (s.bumpBy o n).mxg = s.mxg := rfl

-- State.bump
@[simp] theorem State.bump_pending (o : Nat) : (s.bump o).pending = s.pending := rfl
@[simp] theorem State.bump_regs (o : Nat) : (s.bump o).regs = s.regs := rfl
@[simp] theorem State.bump_out (o : Nat) : (s.bump o).out = s.out := rfl
@[simp] theorem State.bump_free (o : Nat) : (s.bump o).free = s.free := rfl
@[simp] theorem State.bump_t0 (o : Nat) : (s.bump o).t0 = s.t0 := rfl
@[simp] theorem State.bump_t1 (o : Nat) : (s.bump o).t1 = s.t1 := rfl
@[simp] theorem State.bump_t2 (o : Nat) : (s.bump o).t2 = s.t2 := rfl
@[simp] theorem State.bump_t3 (o : Nat) : (s.bump o).t3 = s.t3 := rfl
@[simp] theorem State.bump_hif (o : Nat) : (s.bump o).hif = s.hif := rfl
@[simp] theorem State.bump_frc (o : Nat) : (s.bump o).frc = s.frc := rfl
@[simp] theorem State.bump_sec (o : Nat) : (s.bump o).sec = s.sec := rfl
@[simp] theorem State.bump_mgc (o : Nat) : (s.bump o).mgc = s.mgc := rfl
@[simp] theorem State.bump_cwp (o : Nat) : (s.bump o).cwp = s.cwp := rfl
@[simp] theorem State.bump_ssq (o : Nat) : (s.bump o).ssq = s.ssq := rfl
@[simp] theorem State.bump_tmg (o : Nat) : (s.bump o).tmg = s.tmg := rfl
@[simp] theorem State.bump_hrc (o : Nat) : (s.bump o).hrc = s.hrc := rfl
@[simp] theorem State.bump_pme (o : Nat) : (s.bump o).pme = s.pme := rfl
@[simp] theorem State.bump_xfe (o : Nat) : (s.bump o).xfe = s.xfe := rfl
@[simp] theorem State.bump_slu (o : Nat) : (s.bump o).slu = s.slu := rfl
@[simp] theorem State.bump_mxg (o : Nat) : (s.bump o).mxg = s.mxg := rfl

-- State.emit
@[simp] theorem State.emit_pending (o : Out) : (s.emit o).pending = s.pending := rfl
@[simp] theorem State.emit_regs (o : Out) : (s.emit o).regs = s.regs := rfl
@[simp] theorem State.emit_ctrs (o : Out) : (s.emit o).ctrs = s.ctrs := rfl
@[simp] theorem State.emit_free (o : Out) : (s.emit o).free = s.free := rfl
@[simp] theorem State.emit_t0 (o : Out) : (s.emit o).t0 = s.t0 := rfl
@[simp] theorem State.emit_t1 (o : Out) : (s.emit o).t1 = s.t1 := rfl
@[simp] theorem State.emit_t2 (o : Out) : (s.emit o).t2 = s.t2 := rfl
@[simp] theorem State.emit_t3 (o : Out) : (s.emit o).t3 = s.t3 := rfl
@[simp] theorem State.emit_hif (o : Out) : (s.emit o).hif = s.hif := rfl
@[simp] theorem State.emit_frc (o : Out) : (s.emit o).frc = s.frc := rfl
@[simp] theorem State.emit_sec (o : Out) : (s.emit o).sec = s.sec := rfl
@[simp] theorem State.emit_mgc (o : Out) : (s.emit o).mgc = s.mgc := rfl
@[simp] theorem State.emit_cwp (o : Out) : (s.emit o).cwp = s.cwp := rfl
@[simp] theorem State.emit_ssq (o : Out) : (s.emit o).ssq = s.ssq := rfl
@[simp] theorem State.emit_tmg (o : Out) : (s.emit o).tmg = s.tmg := rfl
@[simp] theorem State.emit_hrc (o : Out) : (s.emit o).hrc = s.hrc := rfl
@[simp] theorem State.emit_pme (o : Out) : (s.emit o).pme = s.pme := rfl
@[simp] theorem State.emit_xfe (o : Out) : (s.emit o).xfe = s.xfe := rfl
@[simp] theorem State.emit_slu (o : Out) : (s.emit o).slu = s.slu := rfl
@[simp] theorem State.emit_mxg (o : Out) : (s.emit o).mxg = s.mxg := rfl

-- State.emits
@[simp] theorem State.emits_pending (l : List Out) : (s.emits l).pending = s.pending := rfl
@[simp] theorem State.emits_regs (l : List Out) : (s.emits l).regs = s.regs := rfl
@[simp] theorem State.emits_ctrs (l : List Out) : (s.emits l).ctrs = s.ctrs := rfl
@[simp] theorem State.emits_free (l : List Out) : (s.emits l).free = s.free := rfl
@[simp] theorem State.emits_t0 (l : List Out) : (s.emits l).t0 = s.t0 := rfl
@[simp] theorem State.emits_t1 (l : List Out) : (s.emits l).t1 = s.t1 := rfl
@[simp] theorem State.emits_t2 (l : List Out) : (s.emits l).t2 = s.t2 := rfl
@[simp] theorem State.emits_t3 (l : List Out) : (s.emits l).t3 = s.t3 := rfl
@[simp] theorem State.emits_hif (l : List Out) : (s.emits l).hif = s.hif := rfl
@[simp] theorem State.emits_frc (l : List Out) : (s.emits l).frc = s.frc := rfl
@[simp] theorem State.emits_sec (l : List Out) : (s.emits l).sec = s.sec := rfl
@[simp] theorem State.emits_mgc (l : List Out) : (s.emits l).mgc = s.mgc := rfl
@[simp] theorem State.emits_cwp (l : List Out) : (s.emits l).cwp = s.cwp := rfl
@[simp] theorem State.emits_ssq (l : List Out) : (s.emits l).ssq = s.ssq := rfl
@[simp] theorem State.emits_tmg (l : List Out) : (s.emits l).tmg = s.tmg := rfl
@[simp] theorem State.emits_hrc (l : List Out) : (s.emits l).hrc = s.hrc := rfl
@[simp] theorem State.emits_pme (l : List Out) : (s.emits l).pme = s.pme := rfl
@[simp] theorem State.emits_xfe (l : List Out) : (s.emits l).xfe = s.xfe := rfl
@[simp] theorem State.emits_slu (l : List Out) : (s.emits l).slu = s.slu := rfl
@[simp] theorem State.emits_mxg (l : List Out) : (s.emits l).mxg = s.mxg := rfl

-- State.signal
@[simp] theorem State.signal_pending (fn v : Nat) : (s.signal fn v).pending = s.pending := by unfold State.signal; dsimp only; split <;> rfl
@[simp] theorem State.signal_regs (fn v : Nat) : (s.signal fn v).regs = s.regs := by unfold State.signal; dsimp only; split <;> rfl
@[simp] theorem State.signal_free (fn v : Nat) : (s.signal fn v).free = s.free := by unfold State.signal; dsimp only; split <;> rfl
@[simp] theorem State.signal_t0 (fn v : Nat) : (s.signal fn v).t0 = s.t0 := by unfold State.signal; dsimp only; split <;> rfl
@[simp] theorem State.signal_t1 (fn v : Nat) : (s.signal fn v).t1 = s.t1 := by unfold State.signal; dsimp only; split <;> rfl
@[simp] theorem State.signal_t2 (fn v : Nat) : (s.signal fn v).t2 = s.t2 := by unfold State.signal; dsimp only; split <;> rfl
@[simp] theorem State.signal_t3 (fn v : Nat) : (s.signal fn v).t3 = s.t3 := by unfold State.signal; dsimp only; split <;> rfl
@[simp] theorem State.signal_frc (fn v : Nat) : (s.signal fn v).frc = s.frc := by unfold State.signal; dsimp only; split <;> rfl
@[simp] theorem State.signal_sec (fn v : Nat) : (s.signal fn v).sec = s.sec := by unfold State.signal; dsimp only; split <;> rfl
@[simp] theorem State.signal_mgc (fn v : Nat) : (s.signal fn v).mgc = s.mgc := by unfold State.signal; dsimp only; split <;> rfl
@[simp] theorem State.signal_cwp (fn v : Nat) : (s.signal fn v).cwp = s.cwp := by unfold State.signal; dsimp only; split <;> rfl
@[simp] theorem State.signal_ssq (fn v : Nat) : (s.signal fn v).ssq = s.ssq := by unfold State.signal; dsimp only; split <;> rfl
@[simp] theorem State.signal_tmg (fn v : Nat) : (s.signal fn v).tmg = s.tmg := by unfold State.signal; dsimp only; split <;> rfl
@[simp] theorem State.signal_hrc (fn v : Nat) : (s.signal fn v).hrc = s.hrc := by unfold State.signal; dsimp only; split <;> rfl
@[simp] theorem State.signal_pme (fn v : Nat) : (s.signal fn v).pme = s.pme := by unfold State.signal; dsimp only; split <;> rfl
@[simp] theorem State.signal_xfe (fn v : Nat) : (s.signal fn v).xfe = s.xfe := by unfold State.signal; dsimp only; split <;> rfl
@[simp] theorem State.signal_slu (fn v : Nat) : (s.signal fn v).slu = s.slu := by unfold State.signal; dsimp only; split <;> rfl
@[simp] theorem State.signal_mxg (fn v : Nat) : (s.signal fn v).mxg = s.mxg := by unfold State.signal; dsimp only; split <;> rfl

-- State.setHif
@[simp] theorem State.setHif_pending (h : Hif) : (s.setHif h).pending = s.pending := rfl
@[simp] theorem State.setHif_regs (h : Hif) : (s.setHif h).regs = s.regs := rfl
@[simp] theorem State.setHif_ctrs (h : Hif) : (s.setHif h).ctrs = s.ctrs := rfl
@[simp] theorem State.setHif_out (h : Hif) : (s.setHif h).out = s.out := rfl
@[simp] theorem State.setHif_free (h : Hif) : (s.setHif h).free = s.free := rfl
@[simp] theorem State.setHif_t0 (h : Hif) : (s.setHif h).t0 = s.t0 := rfl
@[simp] theorem State.setHif_t1 (h : Hif) : (s.setHif h).t1 = s.t1 := rfl
@[simp] theorem State.setHif_t2 (h : Hif) : (s.setHif h).t2 = s.t2 := rfl
@[simp] theorem State.setHif_t3 (h : Hif) : (s.setHif h).t3 = s.t3 := rfl
@[simp] theorem State.setHif_frc (h : Hif) : (s.setHif h).frc = s.frc := rfl
@[simp] theorem State.setHif_sec (h : Hif) : (s.setHif h).sec = s.sec := rfl
@[simp] theorem State.setHif_mgc (h : Hif) : (s.setHif h).mgc = s.mgc := rfl
@[simp] theorem State.setHif_cwp (h : Hif) : (s.setHif h).cwp = s.cwp := rfl
@[simp] theorem State.setHif_ssq (h : Hif) : (s.setHif h).ssq = s.ssq := rfl
@[simp] theorem State.setHif_tmg (h : Hif) : (s.setHif h).tmg = s.tmg := rfl
@[simp] theorem State.setHif_hrc (h : Hif) : (s.setHif h).hrc = s.hrc := rfl
@[simp] theorem State.setHif_pme (h : Hif) : (s.setHif h).pme = s.pme := rfl
@[simp] theorem State.setHif_xfe (h : Hif) : (s.setHif h).xfe = s.xfe := rfl
@[simp] theorem State.setHif_slu (h : Hif) : (s.setHif h).slu = s.slu := rfl
@[simp] theorem State.setHif_mxg (h : Hif) : (s.setHif h).mxg = s.mxg := rfl

-- State.setFrc
@[simp] theorem State.setFrc_pending (h : Frc) : (s.setFrc h).pending = s.pending := rfl
@[simp] theorem State.setFrc_regs (h : Frc) : (s.setFrc h).regs = s.regs := rfl
@[simp] theorem State.setFrc_ctrs (h : Frc) : (s.setFrc h).ctrs = s.ctrs := rfl
@[simp] theorem State.setFrc_out (h : Frc) : (s.setFrc h).out = s.out := rfl
@[simp] theorem State.setFrc_free (h : Frc) : (s.setFrc h).free = s.free := rfl
@[simp] theorem State.setFrc_t0 (h : Frc) : (s.setFrc h).t0 = s.t0 := rfl
@[simp] theorem State.setFrc_t1 (h : Frc) : (s.setFrc h).t1 = s.t1 := rfl
@[simp] theorem State.setFrc_t2 (h : Frc) : (s.setFrc h).t2 = s.t2 := rfl
@[simp] theorem State.setFrc_t3 (h : Frc) : (s.setFrc h).t3 = s.t3 := rfl
@[simp] theorem State.setFrc_hif (h : Frc) : (s.setFrc h).hif = s.hif := rfl
@[simp] theorem State.setFrc_sec (h : Frc) : (s.setFrc h).sec = s.sec := rfl
@[simp] theorem State.setFrc_mgc (h : Frc) : (s.setFrc h).mgc = s.mgc := rfl
@[simp] theorem State.setFrc_cwp (h : Frc) : (s.setFrc h).cwp = s.cwp := rfl
@[simp] theorem State.setFrc_ssq (h : Frc) : (s.setFrc h).ssq = s.ssq := rfl
@[simp] theorem State.setFrc_tmg (h : Frc) : (s.setFrc h).tmg = s.tmg := rfl
@[simp] theorem State.setFrc_hrc (h : Frc) : (s.setFrc h).hrc = s.hrc := rfl
@[simp] theorem State.setFrc_pme (h : Frc) : (s.setFrc h).pme = s.pme := rfl
@[simp] theorem State.setFrc_xfe (h : Frc) : (s.setFrc h).xfe = s.xfe := rfl
@[simp] theorem State.setFrc_slu (h : Frc) : (s.setFrc h).slu = s.slu := rfl
@[simp] theorem State.setFrc_mxg (h : Frc) : (s.setFrc h).mxg = s.mxg := rfl

-- State.setMgc
@[simp] theorem State.setMgc_pending (h : Mgc) : (s.setMgc h).pending = s.pending := rfl
@[simp] theorem State.setMgc_regs (h : Mgc) : (s.setMgc h).regs = s.regs := rfl
@[simp] theorem State.setMgc_ctrs (h : Mgc) : (s.setMgc h).ctrs = s.ctrs := rfl
@[simp] theorem State.setMgc_out (h : Mgc) : (s.setMgc h).out = s.out := rfl
@[simp] theorem State.setMgc_free (h : Mgc) : (s.setMgc h).free = s.free := rfl
@[simp] theorem State.setMgc_t0 (h : Mgc) : (s.setMgc h).t0 = s.t0 := rfl
@[simp] theorem State.setMgc_t1 (h : Mgc) : (s.setMgc h).t1 = s.t1 := rfl
@[simp] theorem State.setMgc_t2 (h : Mgc) : (s.setMgc h).t2 = s.t2 := rfl
@[simp] theorem State.setMgc_t3 (h : Mgc) : (s.setMgc h).t3 = s.t3 := rfl
@[simp] theorem State.setMgc_hif (h : Mgc) : (s.setMgc h).hif = s.hif := rfl
@[simp] theorem State.setMgc_frc (h : Mgc) : (s.setMgc h).frc = s.frc := rfl
@[simp] theorem State.setMgc_sec (h : Mgc) : (s.setMgc h).sec = s.sec := rfl
@[simp] theorem State.setMgc_cwp (h : Mgc) : (s.setMgc h).cwp = s.cwp := rfl
@[simp] theorem State.setMgc_ssq (h : Mgc) : (s.setMgc h).ssq = s.ssq := rfl
@[simp] theorem State.setMgc_tmg (h : Mgc) : (s.setMgc h).tmg = s.tmg := rfl
@[simp] theorem State.setMgc_hrc (h : Mgc) : (s.setMgc h).hrc = s.hrc := rfl
@[simp] theorem State.setMgc_pme (h : Mgc) : (s.setMgc h).pme = s.pme := rfl
@[simp] theorem State.setMgc_xfe (h : Mgc) : (s.setMgc h).xfe = s.xfe := rfl
@[simp] theorem State.setMgc_slu (h : Mgc) : (s.setMgc h).slu = s.slu := rfl
@[simp] theorem State.setMgc_mxg (h : Mgc) : (s.setMgc h).mxg = s.mxg := rfl

-- State.setCwp
@[simp] theorem State.setCwp_pending (h : Cwp) : (s.setCwp h).pending = s.pending := rfl
@[simp] theorem State.setCwp_regs (h : Cwp) : (s.setCwp h).regs = s.regs := rfl
@[simp] theorem State.setCwp_ctrs (h : Cwp) : (s.setCwp h).ctrs = s.ctrs := rfl
@[simp] theorem State.setCwp_out (h : Cwp) : (s.setCwp h).out = s.out := rfl
@[simp] theorem State.setCwp_free (h : Cwp) : (s.setCwp h).free = s.free := rfl
@[simp] theorem State.setCwp_t0 (h : Cwp) : (s.setCwp h).t0 = s.t0 := rfl
@[simp] theorem State.setCwp_t1 (h : Cwp) : (s.setCwp h).t1 = s.t1 := rfl
@[simp] theorem State.setCwp_t2 (h : Cwp) : (s.setCwp h).t2 = s.t2 := rfl
@[simp] theorem State.setCwp_t3 (h : Cwp) : (s.setCwp h).t3 = s.t3 := rfl
@[simp] theorem State.setCwp_hif (h : Cwp) : (s.setCwp h).hif = s.hif := rfl
@[simp] theorem State.setCwp_frc (h : Cwp) : (s.setCwp h).frc = s.frc := rfl
@[simp] theorem State.setCwp_sec (h : Cwp) : (s.setCwp h).sec = s.sec := rfl
@[simp] theorem State.setCwp_mgc (h : Cwp) : (s.setCwp h).mgc = s.mgc := rfl
@[simp] theorem State.setCwp_ssq (h : Cwp) : (s.setCwp h).ssq = s.ssq := rfl
@[simp] theorem State.setCwp_tmg (h : Cwp) : (s.setCwp h).tmg = s.tmg := rfl
@[simp] theorem State.setCwp_hrc (h : Cwp) : (s.setCwp h).hrc = s.hrc := rfl
@[simp] theorem State.setCwp_pme (h : Cwp) : (s.setCwp h).pme = s.pme := rfl
@[simp] theorem State.setCwp_xfe (h : Cwp) : (s.setCwp h).xfe = s.xfe := rfl
@[simp] theorem State.setCwp_slu (h : Cwp) : (s.setCwp h).slu = s.slu := rfl
@[simp] theorem State.setCwp_mxg (h : Cwp) : (s.setCwp h).mxg = s.mxg := rfl

-- State.setTmg
@[simp] theorem State.setTmg_pending (h : Tmg) : (s.setTmg h).pending = s.pending := rfl
@[simp] theorem State.setTmg_regs (h : Tmg) : (s.setTmg h).regs = s.regs := rfl
@[simp] theorem State.setTmg_ctrs (h : Tmg) : (s.setTmg h).ctrs = s.ctrs := rfl
@[simp] theorem State.setTmg_out (h : Tmg) : (s.setTmg h).out = s.out := rfl
@[simp] theorem State.setTmg_free (h : Tmg) : (s.setTmg h).free = s.free := rfl
@[simp] theorem State.setTmg_t0 (h : Tmg) : (s.setTmg h).t0 = s.t0 := rfl
@[simp] theorem State.setTmg_t1 (h : Tmg) : (s.setTmg h).t1 = s.t1 := rfl
@[simp] theorem State.setTmg_t2 (h : Tmg) : (s.setTmg h).t2 = s.t2 := rfl
@[simp] theorem State.setTmg_t3 (h : Tmg) : (s.setTmg h).t3 = s.t3 := rfl
@[simp] theorem State.setTmg_hif (h : Tmg) : (s.setTmg h).hif = s.hif := rfl
@[simp] theorem State.setTmg_frc (h : Tmg) : (s.setTmg h).frc = s.frc := rfl
@[simp] theorem State.setTmg_sec (h : Tmg) : (s.setTmg h).sec = s.sec := rfl
@[simp] theorem State.setTmg_mgc (h : Tmg) : (s.setTmg h).mgc = s.mgc := rfl
@[simp] theorem State.setTmg_cwp (h : Tmg) : (s.setTmg h).cwp = s.cwp := rfl
@[simp] theorem State.setTmg_ssq (h : Tmg) : (s.setTmg h).ssq = s.ssq := rfl
@[simp] theorem State.setTmg_hrc (h : Tmg) : (s.setTmg h).hrc = s.hrc := rfl
@[simp] theorem State.setTmg_pme (h : Tmg) : (s.setTmg h).pme = s.pme := rfl
@[simp] theorem State.setTmg_xfe (h : Tmg) : (s.setTmg h).xfe = s.xfe := rfl
@[simp] theorem State.setTmg_slu (h : Tmg) : (s.setTmg h).slu = s.slu := rfl
@[simp] theorem State.setTmg_mxg (h : Tmg) : (s.setTmg h).mxg = s.mxg := rfl

-- State.setHrc
@[simp] theorem State.setHrc_pending (h : Hrc) : (s.setHrc h).pending = s.pending := rfl
@[simp] theorem State.setHrc_regs (h : Hrc) : (s.setHrc h).regs = s.regs := rfl
@[simp] theorem State.setHrc_ctrs (h : Hrc) : (s.setHrc h).ctrs = s.ctrs := rfl
@[simp] theorem State.setHrc_out (h : Hrc) : (s.setHrc h).out = s.out := rfl
@[simp] theorem State.setHrc_free (h : Hrc) : (s.setHrc h).free = s.free := rfl
@[simp] theorem State.setHrc_t0 (h : Hrc) : (s.setHrc h).t0 = s.t0 := rfl
@[simp] theorem State.setHrc_t1 (h : Hrc) : (s.setHrc h).t1 = s.t1 := rfl
@[simp] theorem State.setHrc_t2 (h : Hrc) : (s.setHrc h).t2 = s.t2 := rfl
@[simp] theorem State.setHrc_t3 (h : Hrc) : (s.setHrc h).t3 = s.t3 := rfl
@[simp] theorem State.setHrc_hif (h : Hrc) : (s.setHrc h).hif = s.hif := rfl
@[simp] theorem State.setHrc_frc (h : Hrc) : (s.setHrc h).frc = s.frc := rfl
@[simp] theorem State.setHrc_sec (h : Hrc) : (s.setHrc h).sec = s.sec := rfl
@[simp] theorem State.setHrc_mgc (h : Hrc) : (s.setHrc h).mgc = s.mgc := rfl
@[simp] theorem State.setHrc_cwp (h : Hrc) : (s.setHrc h).cwp = s.cwp := rfl
@[simp] theorem State.setHrc_ssq (h : Hrc) : (s.setHrc h).ssq = s.ssq := rfl
@[simp] theorem State.setHrc_tmg (h : Hrc) : (s.setHrc h).tmg = s.tmg := rfl
@[simp] theorem State.setHrc_pme (h : Hrc) : (s.setHrc h).pme = s.pme := rfl
@[simp] theorem State.setHrc_xfe (h : Hrc) : (s.setHrc h).xfe = s.xfe := rfl
@[simp] theorem State.setHrc_slu (h : Hrc) : (s.setHrc h).slu = s.slu := rfl
@[simp] theorem State.setHrc_mxg (h : Hrc) : (s.setHrc h).mxg = s.mxg := rfl

-- State.setXfe
@[simp] theorem State.setXfe_pending (h : Xfe) : (s.setXfe h).pending = s.pending := rfl
@[simp] theorem State.setXfe_regs (h : Xfe) : (s.setXfe h).regs = s.regs := rfl
@[simp] theorem State.setXfe_ctrs (h : Xfe) : (s.setXfe h).ctrs = s.ctrs := rfl
@[simp] theorem State.setXfe_out (h : Xfe) : (s.setXfe h).out = s.out := rfl
@[simp] theorem State.setXfe_free (h : Xfe) : (s.setXfe h).free = s.free := rfl
@[simp] theorem State.setXfe_t0 (h : Xfe) : (s.setXfe h).t0 = s.t0 := rfl
@[simp] theorem State.setXfe_t1 (h : Xfe) : (s.setXfe h).t1 = s.t1 := rfl
@[simp] theorem State.setXfe_t2 (h : Xfe) : (s.setXfe h).t2 = s.t2 := rfl
@[simp] theorem State.setXfe_t3 (h : Xfe) : (s.setXfe h).t3 = s.t3 := rfl
@[simp] theorem State.setXfe_hif (h : Xfe) : (s.setXfe h).hif = s.hif := rfl
@[simp] theorem State.setXfe_frc (h : Xfe) : (s.setXfe h).frc = s.frc := rfl
@[simp] theorem State.setXfe_sec (h : Xfe) : (s.setXfe h).sec = s.sec := rfl
@[simp] theorem State.setXfe_mgc (h : Xfe) : (s.setXfe h).mgc = s.mgc := rfl
@[simp] theorem State.setXfe_cwp (h : Xfe) : (s.setXfe h).cwp = s.cwp := rfl
@[simp] theorem State.setXfe_ssq (h : Xfe) : (s.setXfe h).ssq = s.ssq := rfl
@[simp] theorem State.setXfe_tmg (h : Xfe) : (s.setXfe h).tmg = s.tmg := rfl
@[simp] theorem State.setXfe_hrc (h : Xfe) : (s.setXfe h).hrc = s.hrc := rfl
@[simp] theorem State.setXfe_pme (h : Xfe) : (s.setXfe h).pme = s.pme := rfl
@[simp] theorem State.setXfe_slu (h : Xfe) : (s.setXfe h).slu = s.slu := rfl
@[simp] theorem State.setXfe_mxg (h : Xfe) : (s.setXfe h).mxg = s.mxg := rfl

-- modPme
@[simp] theorem modPme_pending (g : Pme → Pme) : (modPme g s).pending = s.pending := rfl
@[simp] theorem modPme_regs (g : Pme → Pme) : (modPme g s).regs = s.regs := rfl
@[simp] theorem modPme_ctrs (g : Pme → Pme) : (modPme g s).ctrs = s.ctrs := rfl
@[simp] theorem modPme_out (g : Pme → Pme) : (modPme g s).out = s.out := rfl
@[simp] theorem modPme_free (g : Pme → Pme) : (modPme g s).free = s.free := rfl
@[simp] theorem modPme_t0 (g : Pme → Pme) : (modPme g s).t0 = s.t0 := rfl
@[simp] theorem modPme_t1 (g : Pme → Pme) : (modPme g s).t1 = s.t1 := rfl
@[simp] theorem modPme_t2 (g : Pme → Pme) : (modPme g s).t2 = s.t2 := rfl
@[simp] theorem modPme_t3 (g : Pme → Pme) : (modPme g s).t3 = s.t3 := rfl
@[simp] theorem modPme_hif (g : Pme → Pme) : (modPme g s).hif = s.hif := rfl
@[simp] theorem modPme_frc (g : Pme → Pme) : (modPme g s).frc = s.frc := rfl
@[simp] theorem modPme_sec (g : Pme → Pme) : (modPme g s).sec = s.sec := rfl
@[simp] theorem modPme_mgc (g : Pme → Pme) : (modPme g s).mgc = s.mgc := rfl
@[simp] theorem modPme_cwp (g : Pme → Pme) : (modPme g s).cwp = s.cwp := rfl
@[simp] theorem modPme_ssq (g : Pme → Pme) : (modPme g s).ssq = s.ssq := rfl
@[simp] theorem modPme_tmg (g : Pme → Pme) : (modPme g s).tmg = s.tmg := rfl
@[simp] theorem modPme_hrc (g : Pme → Pme) : (modPme g s).hrc = s.hrc := rfl
@[simp] theorem modPme_xfe (g : Pme → Pme) : (modPme g s).xfe = s.xfe := rfl
@[simp] theorem modPme_slu (g : Pme → Pme) : (modPme g s).slu = s.slu := rfl
@[simp] theorem modPme_mxg (g : Pme → Pme) : (modPme g s).mxg = s.mxg := rfl

-- putSession
@[simp] theorem putSession_pending (i : Nat) (x : Session) : (putSession i x s).pending = s.pending := rfl
@[simp] theorem putSession_regs (i : Nat) (x : Session) : (putSession i x s).regs = s.regs := rfl
@[simp] theorem putSession_ctrs (i : Nat) (x : Session) : (putSession i x s).ctrs = s.ctrs := rfl
@[simp] theorem putSession_out (i : Nat) (x : Session) : (putSession i x s).out = s.out := rfl
@[simp] theorem putSession_free (i : Nat) (x : Session) : (putSession i x s).free = s.free := rfl
@[simp] theorem putSession_t0 (i : Nat) (x : Session) : (putSession i x s).t0 = s.t0 := rfl
@[simp] theorem putSession_t1 (i : Nat) (x : Session) : (putSession i x s).t1 = s.t1 := rfl
@[simp] theorem putSession_t2 (i : Nat) (x : Session) : (putSession i x s).t2 = s.t2 := rfl
@[simp] theorem putSession_t3 (i : Nat) (x : Session) : (putSession i x s).t3 = s.t3 := rfl
@[simp] theorem putSession_hif (i : Nat) (x : Session) : (putSession i x s).hif = s.hif := rfl
@[simp] theorem putSession_frc (i : Nat) (x : Session) : (putSession i x s).frc = s.frc := rfl
@[simp] theorem putSession_sec (i : Nat) (x : Session) : (putSession i x s).sec = s.sec := rfl
@[simp] theorem putSession_mgc (i : Nat) (x : Session) : (putSession i x s).mgc = s.mgc := rfl
@[simp] theorem putSession_cwp (i : Nat) (x : Session) : (putSession i x s).cwp = s.cwp := rfl
@[simp] theorem putSession_tmg (i : Nat) (x : Session) : (putSession i x s).tmg = s.tmg := rfl
@[simp] theorem putSession_hrc (i : Nat) (x : Session) : (putSession i x s).hrc = s.hrc := rfl
@[simp] theorem putSession_pme (i : Nat) (x : Session) : (putSession i x s).pme = s.pme := rfl
@[simp] theorem putSession_xfe (i : Nat) (x : Session) : (putSession i x s).xfe = s.xfe := rfl
@[simp] theorem putSession_slu (i : Nat) (x : Session) : (putSession i x s).slu = s.slu := rfl
@[simp] theorem putSession_mxg (i : Nat) (x : Session) : (putSession i x s).mxg = s.mxg := rfl

-- modSession
@[simp] theorem modSession_pending (i : Nat) (g : Session → Session) : (modSession i g s).pending = s.pending := rfl
@[simp] theorem modSession_regs (i : Nat) (g : Session → Session) : (modSession i g s).regs = s.regs := rfl
@[simp] theorem modSession_ctrs (i : Nat) (g : Session → Session) : (modSession i g s).ctrs = s.ctrs := rfl
@[simp] theorem modSession_out (i : Nat) (g : Session → Session) : (modSession i g s).out = s.out := rfl
@[simp] theorem modSession_free (i : Nat) (g : Session → Session) : (modSession i g s).free = s.free := rfl
@[simp] theorem modSession_t0 (i : Nat) (g : Session → Session) : (modSession i g s).t0 = s.t0 := rfl
@[simp] theorem modSession_t1 (i : Nat) (g : Session → Session) : (modSession i g s).t1 = s.t1 := rfl
@[simp] theorem modSession_t2 (i : Nat) (g : Session → Session) : (modSession i g s).t2 = s.t2 := rfl
@[simp] theorem modSession_t3 (i : Nat) (g : Session → Session) : (modSession i g s).t3 = s.t3 := rfl
@[simp] theorem modSession_hif (i : Nat) (g : Session → Session) : (modSession i g s).hif = s.hif := rfl
@[simp] theorem modSession_frc (i : Nat) (g : Session → Session) : (modSession i g s).frc = s.frc := rfl
@[simp] theorem modSession_sec (i : Nat) (g : Session → Session) : (modSession i g s).sec = s.sec := rfl
@[simp] theorem modSession_mgc (i : Nat) (g : Session → Session) : (modSession i g s).mgc = s.mgc := rfl
@[simp] theorem modSession_cwp (i : Nat) (g : Session → Session) : (modSession i g s).cwp = s.cwp := rfl
@[simp] theorem modSession_tmg (i : Nat) (g : Session → Session) : (modSession i g s).tmg = s.tmg := rfl
@[simp] theorem modSession_hrc (i : Nat) (g : Session → Session) : (modSession i g s).hrc = s.hrc := rfl
@[simp] theorem modSession_pme (i : Nat) (g : Session → Session) : (modSession i g s).pme = s.pme := rfl
@[simp] theorem modSession_xfe (i : Nat) (g : Session → Session) : (modSession i g s).xfe = s.xfe := rfl
@[simp] theorem modSession_slu (i : Nat) (g : Session → Session) : (modSession i g s).slu = s.slu := rfl
@[simp] theorem modSession_mxg (i : Nat) (g : Session → Session) : (modSession i g s).mxg = s.mxg := rfl

-- putWheel
@[simp] theorem putWheel_pending (i : Nat) (x : Wheel) : (putWheel i x s).pending = s.pending := rfl
@[simp] theorem putWheel_regs (i : Nat) (x : Wheel) : (putWheel i x s).regs = s.regs := rfl
@[simp] theorem putWheel_ctrs (i : Nat) (x : Wheel) : (putWheel i x s).ctrs = s.ctrs := rfl
@[simp] theorem putWheel_out (i : Nat) (x : Wheel) : (putWheel i x s).out = s.out := rfl
@[simp] theorem putWheel_free (i : Nat) (x : Wheel) : (putWheel i x s).free = s.free := rfl
@[simp] theorem putWheel_t0 (i : Nat) (x : Wheel) : (putWheel i x s).t0 = s.t0 := rfl
@[simp] theorem putWheel_t1 (i : Nat) (x : Wheel) : (putWheel i x s).t1 = s.t1 := rfl
@[simp] theorem putWheel_t2 (i : Nat) (x : Wheel) : (putWheel i x s).t2 = s.t2 := rfl
@[simp] theorem putWheel_t3 (i : Nat) (x : Wheel) : (putWheel i x s).t3 = s.t3 := rfl
@[simp] theorem putWheel_hif (i : Nat) (x : Wheel) : (putWheel i x s).hif = s.hif := rfl
@[simp] theorem putWheel_frc (i : Nat) (x : Wheel) : (putWheel i x s).frc = s.frc := rfl
@[simp] theorem putWheel_sec (i : Nat) (x : Wheel) : (putWheel i x s).sec = s.sec := rfl
@[simp] theorem putWheel_mgc (i : Nat) (x : Wheel) : (putWheel i x s).mgc = s.mgc := rfl
@[simp] theorem putWheel_cwp (i : Nat) (x : Wheel) : (putWheel i x s).cwp = s.cwp := rfl
@[simp] theorem putWheel_tmg (i : Nat) (x : Wheel) : (putWheel i x s).tmg = s.tmg := rfl
@[simp] theorem putWheel_hrc (i : Nat) (x : Wheel) : (putWheel i x s).hrc = s.hrc := rfl
@[simp] theorem putWheel_pme (i : Nat) (x : Wheel) : (putWheel i x s).pme = s.pme := rfl
@[simp] theorem putWheel_xfe (i : Nat) (x : Wheel) : (putWheel i x s).xfe = s.xfe := rfl
@[simp] theorem putWheel_slu (i : Nat) (x : Wheel) : (putWheel i x s).slu = s.slu := rfl
@[simp] theorem putWheel_mxg (i : Nat) (x : Wheel) : (putWheel i x s).mxg = s.mxg := rfl

-- modWheel
@[simp] theorem modWheel_pending (i : Nat) (g : Wheel → Wheel) : (modWheel i g s).pending = s.pending := rfl
@[simp] theorem modWheel_regs (i : Nat) (g : Wheel → Wheel) : (modWheel i g s).regs = s.regs := rfl
@[simp] theorem modWheel_ctrs (i : Nat) (g : Wheel → Wheel) : (modWheel i g s).ctrs = s.ctrs := rfl
@[simp] theorem modWheel_out (i : Nat) (g : Wheel → Wheel) : (modWheel i g s).out = s.out := rfl
@[simp] theorem modWheel_free (i : Nat) (g : Wheel → Wheel) : (modWheel i g s).free = s.free := rfl
@[simp] theorem modWheel_t0 (i : Nat) (g : Wheel → Wheel) : (modWheel i g s).t0 = s.t0 := rfl
@[simp] theorem modWheel_t1 (i : Nat) (g : Wheel → Wheel) : (modWheel i g s).t1 = s.t1 := rfl
@[simp] theorem modWheel_t2 (i : Nat) (g : Wheel → Wheel) : (modWheel i g s).t2 = s.t2 := rfl
@[simp] theorem modWheel_t3 (i : Nat) (g : Wheel → Wheel) : (modWheel i g s).t3 = s.t3 := rfl
@[simp] theorem modWheel_hif (i : Nat) (g : Wheel → Wheel) : (modWheel i g s).hif = s.hif := rfl
@[simp] theorem modWheel_frc (i : Nat) (g : Wheel → Wheel) : (modWheel i g s).frc = s.frc := rfl
@[simp] theorem modWheel_sec (i : Nat) (g : Wheel → Wheel) : (modWheel i g s).sec = s.sec := rfl
@[simp] theorem modWheel_mgc (i : Nat) (g : Wheel → Wheel) : (modWheel i g s).mgc = s.mgc := rfl
@[simp] theorem modWheel_cwp (i : Nat) (g : Wheel → Wheel) : (modWheel i g s).cwp = s.cwp := rfl
@[simp] theorem modWheel_tmg (i : Nat) (g : Wheel → Wheel) : (modWheel i g s).tmg = s.tmg := rfl
@[simp] theorem modWheel_hrc (i : Nat) (g : Wheel → Wheel) : (modWheel i g s).hrc = s.hrc := rfl
@[simp] theorem modWheel_pme (i : Nat) (g : Wheel → Wheel) : (modWheel i g s).pme = s.pme := rfl
@[simp] theorem modWheel_xfe (i : Nat) (g : Wheel → Wheel) : (modWheel i g s).xfe = s.xfe := rfl
@[simp] theorem modWheel_slu (i : Nat) (g : Wheel → Wheel) : (modWheel i g s).slu = s.slu := rfl
@[simp] theorem modWheel_mxg (i : Nat) (g : Wheel → Wheel) : (modWheel i g s).mxg = s.mxg := rfl

-- putRec
@[simp] theorem putRec_pending (i : Nat) (x : PageRec) : (putRec i x s).pending = s.pending := rfl
@[simp] theorem putRec_regs (i : Nat) (x : PageRec) : (putRec i x s).regs = s.regs := rfl
@[simp] theorem putRec_ctrs (i : Nat) (x : PageRec) : (putRec i x s).ctrs = s.ctrs := rfl
@[simp] theorem putRec_out (i : Nat) (x : PageRec) : (putRec i x s).out = s.out := rfl
@[simp] theorem putRec_free (i : Nat) (x : PageRec) : (putRec i x s).free = s.free := rfl
@[simp] theorem putRec_t0 (i : Nat) (x : PageRec) : (putRec i x s).t0 = s.t0 := rfl
@[simp] theorem putRec_t1 (i : Nat) (x : PageRec) : (putRec i x s).t1 = s.t1 := rfl
@[simp] theorem putRec_t2 (i : Nat) (x : PageRec) : (putRec i x s).t2 = s.t2 := rfl
@[simp] theorem putRec_t3 (i : Nat) (x : PageRec) : (putRec i x s).t3 = s.t3 := rfl
@[simp] theorem putRec_hif (i : Nat) (x : PageRec) : (putRec i x s).hif = s.hif := rfl
@[simp] theorem putRec_frc (i : Nat) (x : PageRec) : (putRec i x s).frc = s.frc := rfl
@[simp] theorem putRec_sec (i : Nat) (x : PageRec) : (putRec i x s).sec = s.sec := rfl
@[simp] theorem putRec_mgc (i : Nat) (x : PageRec) : (putRec i x s).mgc = s.mgc := rfl
@[simp] theorem putRec_cwp (i : Nat) (x : PageRec) : (putRec i x s).cwp = s.cwp := rfl
@[simp] theorem putRec_ssq (i : Nat) (x : PageRec) : (putRec i x s).ssq = s.ssq := rfl
@[simp] theorem putRec_hrc (i : Nat) (x : PageRec) : (putRec i x s).hrc = s.hrc := rfl
@[simp] theorem putRec_pme (i : Nat) (x : PageRec) : (putRec i x s).pme = s.pme := rfl
@[simp] theorem putRec_xfe (i : Nat) (x : PageRec) : (putRec i x s).xfe = s.xfe := rfl
@[simp] theorem putRec_slu (i : Nat) (x : PageRec) : (putRec i x s).slu = s.slu := rfl
@[simp] theorem putRec_mxg (i : Nat) (x : PageRec) : (putRec i x s).mxg = s.mxg := rfl

-- modRec
@[simp] theorem modRec_pending (i : Nat) (g : PageRec → PageRec) : (modRec i g s).pending = s.pending := rfl
@[simp] theorem modRec_regs (i : Nat) (g : PageRec → PageRec) : (modRec i g s).regs = s.regs := rfl
@[simp] theorem modRec_ctrs (i : Nat) (g : PageRec → PageRec) : (modRec i g s).ctrs = s.ctrs := rfl
@[simp] theorem modRec_out (i : Nat) (g : PageRec → PageRec) : (modRec i g s).out = s.out := rfl
@[simp] theorem modRec_free (i : Nat) (g : PageRec → PageRec) : (modRec i g s).free = s.free := rfl
@[simp] theorem modRec_t0 (i : Nat) (g : PageRec → PageRec) : (modRec i g s).t0 = s.t0 := rfl
@[simp] theorem modRec_t1 (i : Nat) (g : PageRec → PageRec) : (modRec i g s).t1 = s.t1 := rfl
@[simp] theorem modRec_t2 (i : Nat) (g : PageRec → PageRec) : (modRec i g s).t2 = s.t2 := rfl
@[simp] theorem modRec_t3 (i : Nat) (g : PageRec → PageRec) : (modRec i g s).t3 = s.t3 := rfl
@[simp] theorem modRec_hif (i : Nat) (g : PageRec → PageRec) : (modRec i g s).hif = s.hif := rfl
@[simp] theorem modRec_frc (i : Nat) (g : PageRec → PageRec) : (modRec i g s).frc = s.frc := rfl
@[simp] theorem modRec_sec (i : Nat) (g : PageRec → PageRec) : (modRec i g s).sec = s.sec := rfl
@[simp] theorem modRec_mgc (i : Nat) (g : PageRec → PageRec) : (modRec i g s).mgc = s.mgc := rfl
@[simp] theorem modRec_cwp (i : Nat) (g : PageRec → PageRec) : (modRec i g s).cwp = s.cwp := rfl
@[simp] theorem modRec_ssq (i : Nat) (g : PageRec → PageRec) : (modRec i g s).ssq = s.ssq := rfl
@[simp] theorem modRec_hrc (i : Nat) (g : PageRec → PageRec) : (modRec i g s).hrc = s.hrc := rfl
@[simp] theorem modRec_pme (i : Nat) (g : PageRec → PageRec) : (modRec i g s).pme = s.pme := rfl
@[simp] theorem modRec_xfe (i : Nat) (g : PageRec → PageRec) : (modRec i g s).xfe = s.xfe := rfl
@[simp] theorem modRec_slu (i : Nat) (g : PageRec → PageRec) : (modRec i g s).slu = s.slu := rfl
@[simp] theorem modRec_mxg (i : Nat) (g : PageRec → PageRec) : (modRec i g s).mxg = s.mxg := rfl

-- putConn
@[simp] theorem putConn_pending (i : Nat) (x : Conn) : (putConn i x s).pending = s.pending := rfl
@[simp] theorem putConn_regs (i : Nat) (x : Conn) : (putConn i x s).regs = s.regs := rfl
@[simp] theorem putConn_ctrs (i : Nat) (x : Conn) : (putConn i x s).ctrs = s.ctrs := rfl
@[simp] theorem putConn_out (i : Nat) (x : Conn) : (putConn i x s).out = s.out := rfl
@[simp] theorem putConn_free (i : Nat) (x : Conn) : (putConn i x s).free = s.free := rfl
@[simp] theorem putConn_t0 (i : Nat) (x : Conn) : (putConn i x s).t0 = s.t0 := rfl
@[simp] theorem putConn_t1 (i : Nat) (x : Conn) : (putConn i x s).t1 = s.t1 := rfl
@[simp] theorem putConn_t2 (i : Nat) (x : Conn) : (putConn i x s).t2 = s.t2 := rfl
@[simp] theorem putConn_t3 (i : Nat) (x : Conn) : (putConn i x s).t3 = s.t3 := rfl
@[simp] theorem putConn_hif (i : Nat) (x : Conn) : (putConn i x s).hif = s.hif := rfl
@[simp] theorem putConn_frc (i : Nat) (x : Conn) : (putConn i x s).frc = s.frc := rfl
@[simp] theorem putConn_sec (i : Nat) (x : Conn) : (putConn i x s).sec = s.sec := rfl
@[simp] theorem putConn_mgc (i : Nat) (x : Conn) : (putConn i x s).mgc = s.mgc := rfl
@[simp] theorem putConn_cwp (i : Nat) (x : Conn) : (putConn i x s).cwp = s.cwp := rfl
@[simp] theorem putConn_ssq (i : Nat) (x : Conn) : (putConn i x s).ssq = s.ssq := rfl
@[simp] theorem putConn_tmg (i : Nat) (x : Conn) : (putConn i x s).tmg = s.tmg := rfl
@[simp] theorem putConn_hrc (i : Nat) (x : Conn) : (putConn i x s).hrc = s.hrc := rfl
@[simp] theorem putConn_pme (i : Nat) (x : Conn) : (putConn i x s).pme = s.pme := rfl
@[simp] theorem putConn_slu (i : Nat) (x : Conn) : (putConn i x s).slu = s.slu := rfl
@[simp] theorem putConn_mxg (i : Nat) (x : Conn) : (putConn i x s).mxg = s.mxg := rfl

-- putRegion
@[simp] theorem putRegion_pending (i : Nat) (x : Region) : (putRegion i x s).pending = s.pending := rfl
@[simp] theorem putRegion_regs (i : Nat) (x : Region) : (putRegion i x s).regs = s.regs := rfl
@[simp] theorem putRegion_ctrs (i : Nat) (x : Region) : (putRegion i x s).ctrs = s.ctrs := rfl
@[simp] theorem putRegion_out (i : Nat) (x : Region) : (putRegion i x s).out = s.out := rfl
@[simp] theorem putRegion_free (i : Nat) (x : Region) : (putRegion i x s).free = s.free := rfl
@[simp] theorem putRegion_t0 (i : Nat) (x : Region) : (putRegion i x s).t0 = s.t0 := rfl
@[simp] theorem putRegion_t1 (i : Nat) (x : Region) : (putRegion i x s).t1 = s.t1 := rfl
@[simp] theorem putRegion_t2 (i : Nat) (x : Region) : (putRegion i x s).t2 = s.t2 := rfl
@[simp] theorem putRegion_t3 (i : Nat) (x : Region) : (putRegion i x s).t3 = s.t3 := rfl
@[simp] theorem putRegion_hif (i : Nat) (x : Region) : (putRegion i x s).hif = s.hif := rfl
@[simp] theorem putRegion_frc (i : Nat) (x : Region) : (putRegion i x s).frc = s.frc := rfl
@[simp] theorem putRegion_sec (i : Nat) (x : Region) : (putRegion i x s).sec = s.sec := rfl
@[simp] theorem putRegion_mgc (i : Nat) (x : Region) : (putRegion i x s).mgc = s.mgc := rfl
@[simp] theorem putRegion_cwp (i : Nat) (x : Region) : (putRegion i x s).cwp = s.cwp := rfl
@[simp] theorem putRegion_ssq (i : Nat) (x : Region) : (putRegion i x s).ssq = s.ssq := rfl
@[simp] theorem putRegion_tmg (i : Nat) (x : Region) : (putRegion i x s).tmg = s.tmg := rfl
@[simp] theorem putRegion_hrc (i : Nat) (x : Region) : (putRegion i x s).hrc = s.hrc := rfl
@[simp] theorem putRegion_pme (i : Nat) (x : Region) : (putRegion i x s).pme = s.pme := rfl
@[simp] theorem putRegion_slu (i : Nat) (x : Region) : (putRegion i x s).slu = s.slu := rfl
@[simp] theorem putRegion_mxg (i : Nat) (x : Region) : (putRegion i x s).mxg = s.mxg := rfl

-- putWork
@[simp] theorem putWork_pending (i : Nat) (x : Work) : (putWork i x s).pending = s.pending := rfl
@[simp] theorem putWork_regs (i : Nat) (x : Work) : (putWork i x s).regs = s.regs := rfl
@[simp] theorem putWork_ctrs (i : Nat) (x : Work) : (putWork i x s).ctrs = s.ctrs := rfl
@[simp] theorem putWork_out (i : Nat) (x : Work) : (putWork i x s).out = s.out := rfl
@[simp] theorem putWork_free (i : Nat) (x : Work) : (putWork i x s).free = s.free := rfl
@[simp] theorem putWork_t0 (i : Nat) (x : Work) : (putWork i x s).t0 = s.t0 := rfl
@[simp] theorem putWork_t1 (i : Nat) (x : Work) : (putWork i x s).t1 = s.t1 := rfl
@[simp] theorem putWork_t2 (i : Nat) (x : Work) : (putWork i x s).t2 = s.t2 := rfl
@[simp] theorem putWork_t3 (i : Nat) (x : Work) : (putWork i x s).t3 = s.t3 := rfl
@[simp] theorem putWork_hif (i : Nat) (x : Work) : (putWork i x s).hif = s.hif := rfl
@[simp] theorem putWork_frc (i : Nat) (x : Work) : (putWork i x s).frc = s.frc := rfl
@[simp] theorem putWork_sec (i : Nat) (x : Work) : (putWork i x s).sec = s.sec := rfl
@[simp] theorem putWork_mgc (i : Nat) (x : Work) : (putWork i x s).mgc = s.mgc := rfl
@[simp] theorem putWork_cwp (i : Nat) (x : Work) : (putWork i x s).cwp = s.cwp := rfl
@[simp] theorem putWork_ssq (i : Nat) (x : Work) : (putWork i x s).ssq = s.ssq := rfl
@[simp] theorem putWork_tmg (i : Nat) (x : Work) : (putWork i x s).tmg = s.tmg := rfl
@[simp] theorem putWork_hrc (i : Nat) (x : Work) : (putWork i x s).hrc = s.hrc := rfl
@[simp] theorem putWork_pme (i : Nat) (x : Work) : (putWork i x s).pme = s.pme := rfl
@[simp] theorem putWork_slu (i : Nat) (x : Work) : (putWork i x s).slu = s.slu := rfl
@[simp] theorem putWork_mxg (i : Nat) (x : Work) : (putWork i x s).mxg = s.mxg := rfl

-- What the updates write

@[simp] theorem State.setHif_hif (h : Hif) : (s.setHif h).hif = h := rfl
@[simp] theorem State.setFrc_frc (h : Frc) : (s.setFrc h).frc = h := rfl
@[simp] theorem State.setMgc_mgc (h : Mgc) : (s.setMgc h).mgc = h := rfl
@[simp] theorem State.setCwp_cwp (h : Cwp) : (s.setCwp h).cwp = h := rfl
@[simp] theorem State.setTmg_tmg (h : Tmg) : (s.setTmg h).tmg = h := rfl
@[simp] theorem State.setHrc_hrc (h : Hrc) : (s.setHrc h).hrc = h := rfl
@[simp] theorem State.setXfe_xfe (h : Xfe) : (s.setXfe h).xfe = h := rfl
@[simp] theorem modPme_pme (g : Pme → Pme) : (modPme g s).pme = g s.pme := rfl
@[simp] theorem State.emit_out (o : Out) : (s.emit o).out = o :: s.out := rfl
@[simp] theorem putSession_sessions (i : Nat) (x : Session) : (putSession i x s).ssq.sessions = tset s.ssq.sessions i x := rfl
@[simp] theorem modSession_sessions (i : Nat) (g : Session → Session) : (modSession i g s).ssq.sessions = tmod s.ssq.sessions i g := rfl
@[simp] theorem modSession_turns (i : Nat) (g : Session → Session) : (modSession i g s).ssq.turns = s.ssq.turns := rfl
@[simp] theorem putConn_conns (i : Nat) (x : Conn) : (putConn i x s).xfe.conns = tset s.xfe.conns i x := rfl
@[simp] theorem putRegion_regions (i : Nat) (x : Region) : (putRegion i x s).xfe.regions = tset s.xfe.regions i x := rfl

-- Sparse tables

theorem tget_tdel_ne {α : Type} (t : Table α) {i j : Nat} (h : j ≠ i) : tget (tdel t i) j = tget t j := by
  induction t with
  | nil => rfl
  | cons x t ih =>
    obtain ⟨k, u⟩ := x
    simp only [tdel]
    split
    · rename_i e; subst e; simp [tget, Ne.symm h]
    · simp only [tget]; split
      · rfl
      · exact ih

/-- A table in its canonical form has its keys strictly rising. -/
theorem Table.wf_iff {α : Type} (t : Table α) : Table.wf t = true ↔ t.Pairwise (fun a b => a.1 < b.1) := by
  induction t with
  | nil => simp [Table.wf]
  | cons x t ih =>
    cases t with
    | nil => simp [Table.wf]
    | cons y t =>
      obtain ⟨k, u⟩ := x
      obtain ⟨l, v⟩ := y
      simp only [Table.wf, Bool.and_eq_true, decide_eq_true_eq, ih, List.pairwise_cons, List.mem_cons, forall_eq_or_imp]
      constructor
      · rintro ⟨h, h1, h2⟩; exact ⟨⟨h, fun a ha => Nat.lt_trans h (h1 a ha)⟩, h1, h2⟩
      · rintro ⟨⟨h, -⟩, h1, h2⟩; exact ⟨h, h1, h2⟩

theorem tget_of_lt {α : Type} {t : Table α} {i : Nat} (h : ∀ c ∈ t, i < c.1) : tget t i = none := by
  induction t with
  | nil => rfl
  | cons x t ih =>
    have := h x (by simp)
    rw [tget, if_neg (by omega)]
    exact ih fun c hc => h c (by simp [hc])

theorem tget_tdel_self {α : Type} (t : Table α) (i : Nat) (hw : Table.wf t = true) : tget (tdel t i) i = none := by
  rw [Table.wf_iff] at hw
  induction t with
  | nil => rfl
  | cons x t ih =>
    obtain ⟨k, u⟩ := x
    rw [List.pairwise_cons] at hw
    simp only [tdel]
    split
    · rename_i e; subst e; exact tget_of_lt fun c hc => hw.1 c hc
    · rename_i e; rw [tget, if_neg e]; exact ih hw.2

theorem tdel_sublist {α : Type} (t : Table α) (i : Nat) : (tdel t i).Sublist t := by
  induction t with
  | nil => exact .slnil
  | cons x t ih =>
    obtain ⟨k, u⟩ := x
    simp only [tdel]
    split
    · exact .cons _ (List.Sublist.refl _)
    · exact .cons₂ _ ih

theorem tdel_wf {α : Type} {t : Table α} (i : Nat) (h : Table.wf t = true) : Table.wf (tdel t i) = true := by
  rw [Table.wf_iff] at h ⊢
  exact h.sublist (tdel_sublist t i)

theorem tset_mem {α : Type} {t : Table α} {i : Nat} {v : α} {c : Nat × α} (h : c ∈ tset t i v) : c = (i, v) ∨ c ∈ t := by
  induction t with
  | nil => simpa [tset] using h
  | cons x t ih =>
    obtain ⟨k, u⟩ := x
    simp only [tset] at h
    split at h
    · simpa using h
    · split at h
      · rcases List.mem_cons.1 h with h | h
        · exact .inl h
        · exact .inr (by simp [h])
      · rcases List.mem_cons.1 h with h | h
        · exact .inr (by simp [h])
        · rcases ih h with h | h
          · exact .inl h
          · exact .inr (by simp [h])

theorem tset_wf {α : Type} {t : Table α} (i : Nat) (v : α) (h : Table.wf t = true) : Table.wf (tset t i v) = true := by
  rw [Table.wf_iff] at h ⊢
  induction t with
  | nil => simp [tset]
  | cons x t ih =>
    obtain ⟨k, u⟩ := x
    rw [List.pairwise_cons] at h
    simp only [tset]
    split
    · rename_i hik
      refine List.pairwise_cons.2 ⟨fun c hc => ?_, List.pairwise_cons.2 h⟩
      rcases List.mem_cons.1 hc with rfl | hc
      · exact hik
      · exact Nat.lt_trans hik (h.1 c hc)
    · split
      · rename_i e; subst e; exact List.pairwise_cons.2 h
      · refine List.pairwise_cons.2 ⟨fun c hc => ?_, ih h.2⟩
        rcases tset_mem hc with rfl | hc
        · simp only; omega
        · exact h.1 c hc

-- Register fields

/-- Writing a field keeps the register store canonical. -/
theorem State.setF_wf (f : Fld) (v : Nat) (h : Table.wf s.regs = true) : Table.wf (s.setF f v).regs = true := by
  unfold State.setF
  dsimp only
  split
  · exact tdel_wf _ h
  · exact tset_wf _ _ h

/-- A field whose registers are the same reads the same. -/
theorem State.getF_regs {s t : State} (h : t.regs = s.regs) (f : Fld) : t.getF f = s.getF f := by simp only [State.getF, h]

/-- Two fields at different bit addresses do not touch each other. -/
theorem State.getF_setF_other (f g : Fld) (v : Nat) (h : f.key ≠ g.key) : (s.setF f v).getF g = s.getF g := by
  unfold State.setF State.getF
  dsimp only
  split
  · rw [tget_tdel_ne _ (Ne.symm h)]
  · rw [tget_tset_ne _ _ (Ne.symm h)]

/-- A field reads back what was written, modulo its width. -/
theorem State.getF_setF_self (f : Fld) (v : Nat) (hw : Table.wf s.regs = true) : (s.setF f v).getF f = v % 2 ^ f.width := by
  unfold State.setF State.getF
  dsimp only
  split
  · rename_i h; rw [tget_tdel_self _ _ hw]; exact h.symm
  · rw [tget_tset]; rfl

-- putMsix
@[simp] theorem putMsix_pending (fn v : Nat) (x : MsixVec) : (putMsix fn v x s).pending = s.pending := rfl
@[simp] theorem putMsix_regs (fn v : Nat) (x : MsixVec) : (putMsix fn v x s).regs = s.regs := rfl
@[simp] theorem putMsix_ctrs (fn v : Nat) (x : MsixVec) : (putMsix fn v x s).ctrs = s.ctrs := rfl
@[simp] theorem putMsix_out (fn v : Nat) (x : MsixVec) : (putMsix fn v x s).out = s.out := rfl
@[simp] theorem putMsix_free (fn v : Nat) (x : MsixVec) : (putMsix fn v x s).free = s.free := rfl
@[simp] theorem putMsix_t0 (fn v : Nat) (x : MsixVec) : (putMsix fn v x s).t0 = s.t0 := rfl
@[simp] theorem putMsix_t1 (fn v : Nat) (x : MsixVec) : (putMsix fn v x s).t1 = s.t1 := rfl
@[simp] theorem putMsix_t2 (fn v : Nat) (x : MsixVec) : (putMsix fn v x s).t2 = s.t2 := rfl
@[simp] theorem putMsix_t3 (fn v : Nat) (x : MsixVec) : (putMsix fn v x s).t3 = s.t3 := rfl
@[simp] theorem putMsix_frc (fn v : Nat) (x : MsixVec) : (putMsix fn v x s).frc = s.frc := rfl
@[simp] theorem putMsix_sec (fn v : Nat) (x : MsixVec) : (putMsix fn v x s).sec = s.sec := rfl
@[simp] theorem putMsix_mgc (fn v : Nat) (x : MsixVec) : (putMsix fn v x s).mgc = s.mgc := rfl
@[simp] theorem putMsix_cwp (fn v : Nat) (x : MsixVec) : (putMsix fn v x s).cwp = s.cwp := rfl
@[simp] theorem putMsix_ssq (fn v : Nat) (x : MsixVec) : (putMsix fn v x s).ssq = s.ssq := rfl
@[simp] theorem putMsix_tmg (fn v : Nat) (x : MsixVec) : (putMsix fn v x s).tmg = s.tmg := rfl
@[simp] theorem putMsix_hrc (fn v : Nat) (x : MsixVec) : (putMsix fn v x s).hrc = s.hrc := rfl
@[simp] theorem putMsix_pme (fn v : Nat) (x : MsixVec) : (putMsix fn v x s).pme = s.pme := rfl
@[simp] theorem putMsix_xfe (fn v : Nat) (x : MsixVec) : (putMsix fn v x s).xfe = s.xfe := rfl
@[simp] theorem putMsix_slu (fn v : Nat) (x : MsixVec) : (putMsix fn v x s).slu = s.slu := rfl
@[simp] theorem putMsix_mxg (fn v : Nat) (x : MsixVec) : (putMsix fn v x s).mxg = s.mxg := rfl

-- modRegion
@[simp] theorem modRegion_pending (i : Nat) (f : Region → Region) : (modRegion i f s).pending = s.pending := rfl
@[simp] theorem modRegion_regs (i : Nat) (f : Region → Region) : (modRegion i f s).regs = s.regs := rfl
@[simp] theorem modRegion_ctrs (i : Nat) (f : Region → Region) : (modRegion i f s).ctrs = s.ctrs := rfl
@[simp] theorem modRegion_out (i : Nat) (f : Region → Region) : (modRegion i f s).out = s.out := rfl
@[simp] theorem modRegion_free (i : Nat) (f : Region → Region) : (modRegion i f s).free = s.free := rfl
@[simp] theorem modRegion_t0 (i : Nat) (f : Region → Region) : (modRegion i f s).t0 = s.t0 := rfl
@[simp] theorem modRegion_t1 (i : Nat) (f : Region → Region) : (modRegion i f s).t1 = s.t1 := rfl
@[simp] theorem modRegion_t2 (i : Nat) (f : Region → Region) : (modRegion i f s).t2 = s.t2 := rfl
@[simp] theorem modRegion_t3 (i : Nat) (f : Region → Region) : (modRegion i f s).t3 = s.t3 := rfl
@[simp] theorem modRegion_hif (i : Nat) (f : Region → Region) : (modRegion i f s).hif = s.hif := rfl
@[simp] theorem modRegion_frc (i : Nat) (f : Region → Region) : (modRegion i f s).frc = s.frc := rfl
@[simp] theorem modRegion_sec (i : Nat) (f : Region → Region) : (modRegion i f s).sec = s.sec := rfl
@[simp] theorem modRegion_mgc (i : Nat) (f : Region → Region) : (modRegion i f s).mgc = s.mgc := rfl
@[simp] theorem modRegion_cwp (i : Nat) (f : Region → Region) : (modRegion i f s).cwp = s.cwp := rfl
@[simp] theorem modRegion_ssq (i : Nat) (f : Region → Region) : (modRegion i f s).ssq = s.ssq := rfl
@[simp] theorem modRegion_tmg (i : Nat) (f : Region → Region) : (modRegion i f s).tmg = s.tmg := rfl
@[simp] theorem modRegion_hrc (i : Nat) (f : Region → Region) : (modRegion i f s).hrc = s.hrc := rfl
@[simp] theorem modRegion_pme (i : Nat) (f : Region → Region) : (modRegion i f s).pme = s.pme := rfl
@[simp] theorem modRegion_slu (i : Nat) (f : Region → Region) : (modRegion i f s).slu = s.slu := rfl
@[simp] theorem modRegion_mxg (i : Nat) (f : Region → Region) : (modRegion i f s).mxg = s.mxg := rfl

-- putRequest
@[simp] theorem putRequest_pending (i : Nat) (q : Request) : (putRequest i q s).pending = s.pending := rfl
@[simp] theorem putRequest_regs (i : Nat) (q : Request) : (putRequest i q s).regs = s.regs := rfl
@[simp] theorem putRequest_ctrs (i : Nat) (q : Request) : (putRequest i q s).ctrs = s.ctrs := rfl
@[simp] theorem putRequest_out (i : Nat) (q : Request) : (putRequest i q s).out = s.out := rfl
@[simp] theorem putRequest_free (i : Nat) (q : Request) : (putRequest i q s).free = s.free := rfl
@[simp] theorem putRequest_t0 (i : Nat) (q : Request) : (putRequest i q s).t0 = s.t0 := rfl
@[simp] theorem putRequest_t1 (i : Nat) (q : Request) : (putRequest i q s).t1 = s.t1 := rfl
@[simp] theorem putRequest_t2 (i : Nat) (q : Request) : (putRequest i q s).t2 = s.t2 := rfl
@[simp] theorem putRequest_t3 (i : Nat) (q : Request) : (putRequest i q s).t3 = s.t3 := rfl
@[simp] theorem putRequest_hif (i : Nat) (q : Request) : (putRequest i q s).hif = s.hif := rfl
@[simp] theorem putRequest_frc (i : Nat) (q : Request) : (putRequest i q s).frc = s.frc := rfl
@[simp] theorem putRequest_sec (i : Nat) (q : Request) : (putRequest i q s).sec = s.sec := rfl
@[simp] theorem putRequest_mgc (i : Nat) (q : Request) : (putRequest i q s).mgc = s.mgc := rfl
@[simp] theorem putRequest_cwp (i : Nat) (q : Request) : (putRequest i q s).cwp = s.cwp := rfl
@[simp] theorem putRequest_ssq (i : Nat) (q : Request) : (putRequest i q s).ssq = s.ssq := rfl
@[simp] theorem putRequest_tmg (i : Nat) (q : Request) : (putRequest i q s).tmg = s.tmg := rfl
@[simp] theorem putRequest_hrc (i : Nat) (q : Request) : (putRequest i q s).hrc = s.hrc := rfl
@[simp] theorem putRequest_pme (i : Nat) (q : Request) : (putRequest i q s).pme = s.pme := rfl
@[simp] theorem putRequest_slu (i : Nat) (q : Request) : (putRequest i q s).slu = s.slu := rfl
@[simp] theorem putRequest_mxg (i : Nat) (q : Request) : (putRequest i q s).mxg = s.mxg := rfl

-- putCore
@[simp] theorem putCore_pending (c : Nat) (k : Core) : (putCore c k s).pending = s.pending := rfl
@[simp] theorem putCore_regs (c : Nat) (k : Core) : (putCore c k s).regs = s.regs := rfl
@[simp] theorem putCore_ctrs (c : Nat) (k : Core) : (putCore c k s).ctrs = s.ctrs := rfl
@[simp] theorem putCore_out (c : Nat) (k : Core) : (putCore c k s).out = s.out := rfl
@[simp] theorem putCore_free (c : Nat) (k : Core) : (putCore c k s).free = s.free := rfl
@[simp] theorem putCore_t0 (c : Nat) (k : Core) : (putCore c k s).t0 = s.t0 := rfl
@[simp] theorem putCore_t1 (c : Nat) (k : Core) : (putCore c k s).t1 = s.t1 := rfl
@[simp] theorem putCore_t2 (c : Nat) (k : Core) : (putCore c k s).t2 = s.t2 := rfl
@[simp] theorem putCore_t3 (c : Nat) (k : Core) : (putCore c k s).t3 = s.t3 := rfl
@[simp] theorem putCore_hif (c : Nat) (k : Core) : (putCore c k s).hif = s.hif := rfl
@[simp] theorem putCore_frc (c : Nat) (k : Core) : (putCore c k s).frc = s.frc := rfl
@[simp] theorem putCore_sec (c : Nat) (k : Core) : (putCore c k s).sec = s.sec := rfl
@[simp] theorem putCore_cwp (c : Nat) (k : Core) : (putCore c k s).cwp = s.cwp := rfl
@[simp] theorem putCore_ssq (c : Nat) (k : Core) : (putCore c k s).ssq = s.ssq := rfl
@[simp] theorem putCore_tmg (c : Nat) (k : Core) : (putCore c k s).tmg = s.tmg := rfl
@[simp] theorem putCore_hrc (c : Nat) (k : Core) : (putCore c k s).hrc = s.hrc := rfl
@[simp] theorem putCore_pme (c : Nat) (k : Core) : (putCore c k s).pme = s.pme := rfl
@[simp] theorem putCore_xfe (c : Nat) (k : Core) : (putCore c k s).xfe = s.xfe := rfl
@[simp] theorem putCore_slu (c : Nat) (k : Core) : (putCore c k s).slu = s.slu := rfl
@[simp] theorem putCore_mxg (c : Nat) (k : Core) : (putCore c k s).mxg = s.mxg := rfl

-- putHart
@[simp] theorem putHart_pending (c h : Nat) (k : Hart) : (putHart c h k s).pending = s.pending := rfl
@[simp] theorem putHart_regs (c h : Nat) (k : Hart) : (putHart c h k s).regs = s.regs := rfl
@[simp] theorem putHart_ctrs (c h : Nat) (k : Hart) : (putHart c h k s).ctrs = s.ctrs := rfl
@[simp] theorem putHart_out (c h : Nat) (k : Hart) : (putHart c h k s).out = s.out := rfl
@[simp] theorem putHart_free (c h : Nat) (k : Hart) : (putHart c h k s).free = s.free := rfl
@[simp] theorem putHart_t0 (c h : Nat) (k : Hart) : (putHart c h k s).t0 = s.t0 := rfl
@[simp] theorem putHart_t1 (c h : Nat) (k : Hart) : (putHart c h k s).t1 = s.t1 := rfl
@[simp] theorem putHart_t2 (c h : Nat) (k : Hart) : (putHart c h k s).t2 = s.t2 := rfl
@[simp] theorem putHart_t3 (c h : Nat) (k : Hart) : (putHart c h k s).t3 = s.t3 := rfl
@[simp] theorem putHart_hif (c h : Nat) (k : Hart) : (putHart c h k s).hif = s.hif := rfl
@[simp] theorem putHart_frc (c h : Nat) (k : Hart) : (putHart c h k s).frc = s.frc := rfl
@[simp] theorem putHart_sec (c h : Nat) (k : Hart) : (putHart c h k s).sec = s.sec := rfl
@[simp] theorem putHart_cwp (c h : Nat) (k : Hart) : (putHart c h k s).cwp = s.cwp := rfl
@[simp] theorem putHart_ssq (c h : Nat) (k : Hart) : (putHart c h k s).ssq = s.ssq := rfl
@[simp] theorem putHart_tmg (c h : Nat) (k : Hart) : (putHart c h k s).tmg = s.tmg := rfl
@[simp] theorem putHart_hrc (c h : Nat) (k : Hart) : (putHart c h k s).hrc = s.hrc := rfl
@[simp] theorem putHart_pme (c h : Nat) (k : Hart) : (putHart c h k s).pme = s.pme := rfl
@[simp] theorem putHart_xfe (c h : Nat) (k : Hart) : (putHart c h k s).xfe = s.xfe := rfl
@[simp] theorem putHart_slu (c h : Nat) (k : Hart) : (putHart c h k s).slu = s.slu := rfl
@[simp] theorem putHart_mxg (c h : Nat) (k : Hart) : (putHart c h k s).mxg = s.mxg := rfl

-- Host commands

/-- A host command that passes the common checks runs its body (01 R35, 12 R385, 13 R415, 15 R500, 16 R523). -/
theorem admitted_run {op : Nat} {c : Cmd} {body : State → Res} {s : State} (h : Admitted op c s) : hostCmd op c body s = runBody c body s := by
  obtain ⟨h, g⟩ := h
  simp only [hostCmd, h, startBody, Option.isNone_iff_eq_none.mp g, ite_self]

end Sys2Proof.Machine
end

