-- ==== Sys2Proof/Laws/Windows.lean ====
section
/-!
SUPPORT. Laws/Windows.lean: what a write of a tier's range leaves, byte by byte, and what the direct windows' reads answer after it.
-/
namespace Sys2Proof.Machine

open Sys2Proof

/-- A mask without the parts of SSQ leaves it whole. -/
theorem Keep.ssq {k : Nat} {s t : State} (h : Keep k s t) (h1 : k.testBit 17 = false) (h2 : k.testBit 18 = false) (h3 : k.testBit 19 = false)
    (h4 : k.testBit 20 = false) (h5 : k.testBit 21 = false) (h6 : k.testBit 22 = false) (h7 : k.testBit 23 = false) (h8 : k.testBit 24 = false)
    (h9 : k.testBit 25 = false) : t.ssq = s.ssq := by
  have e : ∀ x y : Ssq, x.sessions = y.sessions → x.incarn = y.incarn → x.corrupt = y.corrupt → x.models = y.models → x.tails = y.tails →
      x.adapters = y.adapters → x.wheels = y.wheels → x.partSeq = y.partSeq → x.turns = y.turns → x = y := by
    intro x y; cases x; cases y; simp_all
  exact e _ _ (h.sessions h1) (h.incarn h2) (h.corrupt h3) (h.models h4) (h.tails h5) (h.adapters h6) (h.wheels h7) (h.partSeq h8) (h.turns h9)

/-- A mask without the parts of MGC leaves it whole. -/
theorem Keep.mgc {k : Nat} {s t : State} (h : Keep k s t) (h1 : k.testBit 13 = false) (h2 : k.testBit 14 = false) (h3 : k.testBit 15 = false) :
    t.mgc = s.mgc := by
  rw [← h.mgcRest h1, ← h.fatal h2, ← h.off h3]

/-- A mask without the parts of SEC leaves it whole. -/
theorem Keep.sec {k : Nat} {s t : State} (h : Keep k s t) (h1 : k.testBit 11 = false) (h2 : k.testBit 12 = false) : t.sec = s.sec := by
  rw [← h.secRest h1, ← h.fuses h2]

/-- A run of conditional byte writes leaves an address that none of them names. -/
theorem memFold_other {m : List Host.Cell} (h : memWf m = true) (l : List Nat) (p : Nat → Bool) (at_ : Nat → Nat) (v : Nat → Byte) (a : Nat)
    (ha : ∀ i ∈ l, a ≠ at_ i) : memGet (l.foldl (fun m i => if p i then memSet m (at_ i) (v i) else m) m) a = memGet m a := by
  induction l generalizing m with
  | nil => rfl
  | cons i l ih =>
    have hi := ha i (by simp)
    simp only [List.foldl_cons]
    split
    · rw [ih (memSet_wf _ _ h) fun j hj => ha j (by simp [hj]), memGet_memSet h, if_neg hi]
    · exact ih h fun j hj => ha j (by simp [hj])

/-- A run of byte writes to distinct addresses leaves each address with its byte. -/
theorem memFold_get {m : List Host.Cell} (h : memWf m = true) (l : List Nat) (p : Nat → Bool) (at_ : Nat → Nat) (v : Nat → Byte)
    (hd : l.Nodup) (hinj : ∀ i ∈ l, ∀ j ∈ l, at_ i = at_ j → i = j) (hp : ∀ i ∈ l, p i = true) (i : Nat) (hi : i ∈ l) :
    memGet (l.foldl (fun m i => if p i then memSet m (at_ i) (v i) else m) m) (at_ i) = v i := by
  induction l generalizing m with
  | nil => simp at hi
  | cons j l ih =>
    have hj : j ∉ l := (List.nodup_cons.1 hd).1
    simp only [List.foldl_cons, hp j (by simp), if_true]
    by_cases hij : i = j
    · subst hij
      rw [memFold_other (memSet_wf _ _ h) l p at_ v _ fun k hk e => ?_, memGet_memSet h, if_pos rfl]
      have := hinj i (by simp) k (by simp [hk]) e
      exact hj (this ▸ hk)
    · exact ih (memSet_wf _ _ h) (List.nodup_cons.1 hd).2 (fun a ha b hb => hinj a (by simp [ha]) b (by simp [hb])) (fun a ha => hp a (by simp [ha]))
        (by simpa [hij] using hi)

theorem tier_wf {s : State} (h : memsOk s) (k : Nat) : memWf (s.tier k) = true := by
  unfold State.tier
  split
  · exact h.1
  · exact h.2.1
  · exact h.2.2.1
  · exact h.2.2.2

theorem tier_setTier (s : State) (k j : Nat) (m : List Host.Cell) (hk : k < 4) (hj : j < 4) : (s.setTier k m).tier j = if j = k then m else s.tier j := by
  rcases k with _ | _ | _ | _ | k <;> rcases j with _ | _ | _ | _ | j <;> first | rfl | omega

/-- A write of a tier changes no other tier. -/
theorem writeAt_tier (s : State) (k : Nat) (at_ : Nat → Nat) (b : List Byte) (j : Nat) (hk : k < 4) (hj : j < 4) (h : j ≠ k) :
    (s.writeAt k at_ b).tier j = s.tier j := by
  have : ∀ (t : State) (c : Cwp), ({ t with cwp := c } : State).tier j = t.tier j := by intro t c; unfold State.tier; split <;> rfl
  unfold State.writeAt
  rw [this, tier_setTier _ _ _ _ hk hj, if_neg h]

/-- A write leaves each byte of the range, if no line of it is poisoned. -/
theorem writeAt_get {s : State} (hs : memsOk s) (k : Nat) (hk : k < 4) (at_ : Nat → Nat) (b : List Byte)
    (hinj : ∀ i, i < b.length → ∀ j, j < b.length → at_ i = at_ j → i = j) (hp : ∀ i, i < b.length → s.poisonedIn k (at_ i / 64) = false) (i : Nat)
    (hi : i < b.length) : memGet ((s.writeAt k at_ b).tier k) (at_ i) = b.getD i 0 := by
  have : ∀ (t : State) (c : Cwp), ({ t with cwp := c } : State).tier k = t.tier k := by intro t c; unfold State.tier; split <;> rfl
  unfold State.writeAt
  rw [this, tier_setTier _ _ _ _ hk hk, if_pos rfl]
  exact memFold_get (tier_wf hs k) (List.range b.length) _ at_ (fun i => b.getD i 0) List.nodup_range
    (fun i hi j hj => hinj i (by simpa using hi) j (by simpa using hj)) (fun i hi => by simp [hp i (by simpa using hi)]) i (by simpa using hi)

/-- A write leaves every address outside its range. -/
theorem writeAt_other {s : State} (hs : memsOk s) (k : Nat) (hk : k < 4) (at_ : Nat → Nat) (b : List Byte) (a : Nat) (ha : ∀ i, i < b.length → a ≠ at_ i) :
    memGet ((s.writeAt k at_ b).tier k) a = memGet (s.tier k) a := by
  have : ∀ (t : State) (c : Cwp), ({ t with cwp := c } : State).tier k = t.tier k := by intro t c; unfold State.tier; split <;> rfl
  unfold State.writeAt
  rw [this, tier_setTier _ _ _ _ hk hk, if_pos rfl]
  exact memFold_other (tier_wf hs k) (List.range b.length) _ at_ (fun i => b.getD i 0) a (fun i hi => ha i (by simpa using hi))

/-- Addresses of a direct window are distinct, if an eighth of a T0 window fits a stack. -/
theorem directAddr_inj (s : State) (n k a len : Nat) (hw : s.inDirect n k a len = true)
    (h0 : k = 0 → s.getF (Reg.mgcPbExtentDirect4k n 0) * 4096 ≤ 48 * gib) (i j : Nat) (hi : i < len) (hj : j < len)
    (h : s.directAddr n k (a + i) = s.directAddr n k (a + j)) : i = j := by
  unfold State.directAddr at h
  split at h
  · rename_i hk
    subst hk
    have h0 := h0 rfl
    simp only [State.inDirect, State.directSize, if_true, decide_eq_true_eq] at hw
    simp only [gib] at h h0
    have hx : ∀ x, x < s.getF (Reg.mgcPbExtentDirect4k n 0) * 4096 * 8 → x / 4096 / 8 * 4096 + x % 4096 < 48 * 2 ^ 30 := by intro x hx; omega
    have := hx (a + i) (by omega)
    have := hx (a + j) (by omega)
    omega
  · omega

/-- A direct range without a poisoned line has no poisoned byte. -/
theorem directPoisoned_nil {s : State} {n k a len : Nat} (h : s.directPoisoned n k a len = []) (i : Nat) (hi : i < len) :
    s.poisonedIn k (s.directAddr n k (a + i) / 64) = false := by
  unfold State.directPoisoned at h
  rw [List.filter_eq_nil_iff] at h
  have key : ∀ j, j < len → (j = 0 ∨ s.directAddr n k (a + j) % 64 = 0) → s.poisonedIn k (s.directAddr n k (a + j) / 64) = false := by
    intro j hj hz
    have := h (s.directAddr n k (a + j) / 64) (by
      simp only [List.mem_map, List.mem_filter, List.mem_range]
      exact ⟨j, ⟨hj, by simpa using hz⟩, rfl⟩)
    simpa using this
  have hdiv : ∀ x y, x / 4096 = y / 4096 → y ≤ x → s.directAddr n k x = s.directAddr n k y + (x - y) := by
    intro x y hxy hle
    unfold State.directAddr
    split
    · simp only [hxy]; omega
    · omega
  have hmod : ∀ x, s.directAddr n k x % 64 = (if k = 0 then x % 64 else (s.directBase n k + x) % 64) := by
    intro x
    unfold State.directAddr
    split
    · simp only [gib, State.directBase]; omega
    · rfl
  by_cases hk : k = 0
  · have hm : ∀ x, s.directAddr n k x % 64 = x % 64 := fun x => by rw [hmod, if_pos hk]
    by_cases hr : (a + i) % 64 ≤ i
    · have := key (i - (a + i) % 64) (by omega) (.inr (by rw [hm]; omega))
      have e := hdiv (a + i) (a + (i - (a + i) % 64)) (by omega) (by omega)
      rw [e]
      have h1 := hm (a + (i - (a + i) % 64))
      rwa [show (s.directAddr n k (a + (i - (a + i) % 64)) + (a + i - (a + (i - (a + i) % 64)))) / 64 = s.directAddr n k (a + (i - (a + i) % 64)) / 64 by omega]
    · have := key 0 (by omega) (.inl rfl)
      have e := hdiv (a + i) (a + 0) (by omega) (by omega)
      rw [e]
      have h1 := hm (a + 0)
      rwa [show (s.directAddr n k (a + 0) + (a + i - (a + 0))) / 64 = s.directAddr n k (a + 0) / 64 by omega]
  · have hd : ∀ x, s.directAddr n k x = s.directBase n k + x := fun x => by unfold State.directAddr; rw [if_neg hk]
    by_cases hr : (s.directBase n k + (a + i)) % 64 ≤ i
    · have := key (i - (s.directBase n k + (a + i)) % 64) (by omega) (.inr (by rw [hd]; omega))
      rw [hd] at this ⊢
      rwa [show (s.directBase n k + (a + i)) / 64 = (s.directBase n k + (a + (i - (s.directBase n k + (a + i)) % 64))) / 64 by omega]
    · have := key 0 (by omega) (.inl rfl)
      rw [hd] at this ⊢
      rwa [show (s.directBase n k + (a + i)) / 64 = (s.directBase n k + (a + 0)) / 64 by omega]

/-- The direct window's address map is that of the registers. -/
theorem directAddr_regs {s t : State} (h : t.regs = s.regs) (n k a : Nat) : t.directAddr n k a = s.directAddr n k a := by
  simp only [State.directAddr, State.directBase, State.getF, h]

/-- A store to a direct window, read back: its bytes, and every other byte as before. -/
theorem directStore_spec {s : State} (hs : memsOk s) (n k a : Nat) (hk : k < 4) (b : List Byte) (hw : s.inDirect n k a b.length = true)
    (h0 : k = 0 → s.getF (Reg.mgcPbExtentDirect4k n 0) * 4096 ≤ 48 * gib) (hp : s.directPoisoned n k a b.length = []) :
    (directStore n k a b s).directRead n k a b.length = b ∧
    (∀ x, (∀ i < b.length, x ≠ s.directAddr n k (a + i)) → memGet ((directStore n k a b s).tier k) x = memGet (s.tier k) x) ∧
    (∀ j, j < 4 → j ≠ k → (directStore n k a b s).tier j = s.tier j) ∧ (directStore n k a b s).regs = s.regs := by
  have ht : ∀ j, (directStore n k a b s).tier j = (s.directWrite n k a b).tier j := by
    intro j
    have hc : ∀ t : State, (countUnits k (unitsOf (s.directAddr n k a) b.length).1 (unitsOf (s.directAddr n k a) b.length).2 true t).tier j = t.tier j := by
      intro t
      have K := countUnits_keep k (unitsOf (s.directAddr n k a) b.length).1 (unitsOf (s.directAddr n k a) b.length).2 true t
      unfold State.tier
      rw [K.t0 rfl, K.t1 rfl, K.t2 rfl, K.t3 rfl]
    unfold directStore
    dsimp only
    split
    · exact hc _
    · have : ∀ (t : State) (c : Sec), ({ t with sec := c } : State).tier j = t.tier j := by intro t c; unfold State.tier; split <;> rfl
      rw [this]; exact hc _
  have hr : (directStore n k a b s).regs = s.regs := (directStore_keep n k a b s).regs rfl
  refine ⟨?_, fun x hx => ?_, fun j hj hjk => ?_, hr⟩
  · unfold State.directRead
    apply List.ext_getElem (by simp)
    intro i h1 h2
    simp only [List.getElem_map, List.getElem_range]
    rw [directAddr_regs hr, ht]
    have := writeAt_get hs k hk (fun i => s.directAddr n k (a + i)) b (fun i hi j hj e => directAddr_inj s n k a _ hw h0 i j hi hj e)
      (fun i hi => directPoisoned_nil hp i hi) i h2
    rw [State.directWrite, this]
    simp [List.getD, h2]
  · rw [ht]; exact writeAt_other hs k hk _ b x hx
  · rw [ht]; exact writeAt_tier s k _ b j hk hj hjk

/-- A direct read of a range whose tier is in service and whose access does not fail (08 R282), that no poison or bad tag touches,
answers its bytes. -/
theorem directFetch_ok {s : State} {n k a len : Nat} (ht : s.tierUp k = true)
    (hf : accessFails k (unitsOf (s.directAddr n k a) len).1 (unitsOf (s.directAddr n k a) len).2 false s = false)
    (hp : s.directPoisoned n k a len = []) (hb : s.sec.badUnits = []) :
    directFetch n k a len s = (countUnits k (unitsOf (s.directAddr n k a) len).1 (unitsOf (s.directAddr n k a) len).2 false
      (tierAnswers k (unitsOf (s.directAddr n k a) len).1 (unitsOf (s.directAddr n k a) len).2 s), .inr (s.directRead n k a len)) := by
  have A := tierAnswers_keep k (unitsOf (s.directAddr n k a) len).1 (unitsOf (s.directAddr n k a) len).2 s
  unfold directFetch
  dsimp only
  rw [hf]
  simp only [ht, Bool.not_true, Bool.false_eq_true, if_false]
  generalize tierAnswers k (unitsOf (s.directAddr n k a) len).1 (unitsOf (s.directAddr n k a) len).2 s = v at A ⊢
  have ha : v.directAddr n k a = s.directAddr n k a := directAddr_regs (A.regs rfl) n k a
  rw [ha]
  have K := (countUnits_keep k (unitsOf (s.directAddr n k a) len).1 (unitsOf (s.directAddr n k a) len).2 false v).after
    (k := 67109892) (A.mono (by decide)) (by decide)
  generalize countUnits k (unitsOf (s.directAddr n k a) len).1 (unitsOf (s.directAddr n k a) len).2 false v = t at K ⊢
  have h1 : t.badUnits n k a len = [] := by
    have : t.sec.badUnits = [] := by rw [← hb, ← K.secRest rfl]
    unfold State.badUnits; split <;> simp [this]
  have h2 : t.directPoisoned n k a len = s.directPoisoned n k a len := by
    have : t.poisonedIn k = s.poisonedIn k := by funext l; simp only [State.poisonedIn, K.cwp rfl]
    simp only [State.directPoisoned, this, directAddr_regs (K.regs rfl)]
  have h3 : t.directRead n k a len = s.directRead n k a len := by
    have : t.tier k = s.tier k := by unfold State.tier; rw [K.t0 rfl, K.t1 rfl, K.t2 rfl, K.t3 rfl]
    simp only [State.directRead, this, directAddr_regs (K.regs rfl)]
  simp [h1, h2, h3, hp]

/-- A direct write of a range whose tier is in service and whose access does not fail stores its bytes. -/
theorem directPut_ok {s : State} {n k a : Nat} {b : List Byte} (ht : s.tierUp k = true)
    (hf : accessFails k (unitsOf (s.directAddr n k a) b.length).1 (unitsOf (s.directAddr n k a) b.length).2 true s = false) :
    directPut n k a b s =
      (directStore n k a b (tierAnswers k (unitsOf (s.directAddr n k a) b.length).1 (unitsOf (s.directAddr n k a) b.length).2 s), none) := by
  unfold directPut
  dsimp only
  rw [hf]
  simp only [ht, Bool.not_true, Bool.false_eq_true, if_false]

end Sys2Proof.Machine
end

