-- ==== Sys2Proof/Machine/Observe.lean ====
section
/-!
DEFINITION. Machine/Observe.lean: what a read of the register map returns (16 R511-R518, 12 R381): stored fields as they stand, and
the read-only fields that count or show what the blocks hold, computed from it. No command reads a register by itself; this is the
view of the state that software has.
-/
set_option cleanup.letToHave false
namespace Sys2Proof.Machine

open Sys2Proof

/-- A truth value as a bit. -/
def b2n (b : Bool) : Nat := if b then 1 else 0

/-- A set of numbers as a mask. -/
def maskOf (l : List Nat) : Nat := l.eraseDups.foldl setBit 0

-- The common header (16 R515)

def ErrState.rank : ErrState → Nat
  | .normal => 0
  | .handling => 1
  | .fenced => 2

/-- The most severe state over the instances of a page, and the lowest instance in it. -/
def pageErr (s : State) (p : Nat) : Nat × Nat :=
  let l := (List.range 256).map fun i => ((s.mach (machKey p i)).state.rank, i)
  l.foldl (fun (a b : Nat × Nat) => if a.1 < b.1 then b else a) (0, 0)

/-- Header fields that are not stored: EXPERT_OPEN to the reading function, the error log's indices, the error machine. -/
def viewHeader (s : State) (fn p o lo : Nat) : Option Nat :=
  match o, lo with
  | 0x20, 2 => some (b2n (s.expertOpen p fn))
  | 0x30, 0 => some (nextIndex (s.elog p))
  | 0x38, 0 => some (elogTail s p)
  | 0x40, 0 => some (pageErr s p).1
  | 0x40, 8 => some (pageErr s p).2
  | 0x40, 32 => some (s.elog p).busy.length
  | _, _ => none

-- The blocks

def viewHif (s : State) (n b lo : Nat) : Option Nat :=
  let fn := n + 1
  match b, lo with
  | 0x20, 0 => some (maskOf ((tkeys s.hif.sqs ++ tkeys s.hif.cqs).filterMap fun k => if k / 64 = fn then some (k % 64) else none))
  | 0x28, 0 => some (maskOf (s.hif.qErr.filterMap fun k => if k / 64 = fn then some (k % 64) else none))
  | 0x30, 0 => some (inflightOf s fn)
  | 0x30, 32 => some (s.hif.inflight.filter fun i => i.fn == fn && i.held).length
  | _, _ => none

/-- SSQ.WHEEL[w]: what the wheel's exchanges have come to (02 R50-R55). -/
def viewWheel (s : State) (w o lo : Nat) : Option Nat :=
  match s.wheel? w with
  | none => none
  | some x => match o, lo with
    | 8, 0 => some x.lastStep
    | 8, 32 => some x.lastLayer
    | 8, 40 => some (b2n x.spValid)
    | 0x10, 0 => some x.antLayer
    | 0x18, 0 => some x.committed
    | 0x18, 32 => some (runningOn s w).length
    | _, _ => none

def viewSsq (s : State) (n b lo : Nat) : Option Nat :=
  match b, lo with
  | 0x20, 0 => some (queuedOf s n).length
  | 0x20, 16 => some (admittedOf s n).length
  | _, _ => none

/-- HRC.LEAD_STAT[w] (08 R270). -/
def viewLead (s : State) (w lo : Nat) : Option Nat :=
  let m := tgetD s.hrc.lead w {}
  match lo with
  | 0 => some (leadNeed s m m.last)
  | 8 => some m.layerNs
  | _ => none

def viewHrc (s : State) (n b lo : Nat) : Option Nat :=
  let areas := (s.tmg.areas.filter fun a => a.part == n && (match a.owner with
    | .window _ => true
    | .resident _ => true
    | .tailImage _ => false
    | .excess _ _ _ => false)).map (·.units)
  let stream := fun k => (s.hrc.revive.filter fun r => r.1 == n && r.2.1 == k).length
  match b, lo with
  | 0x000, 32 => some (cdiv (areas.sum * 4096) (2 ^ 20))
  | 0x008, 0 => some (stream 1)
  | 0x008, 16 => some (stream 2)
  | 0x008, 32 => some (stream 3)
  | _, _ => none

def viewTmg (s : State) (n b lo : Nat) : Option Nat :=
  if b = 8 ∧ lo = 0 then some (dirUsed s n)
  else if 0x10 ≤ b ∧ b < 0x30 ∧ b % 8 = 0 ∧ lo = 32 then some (usedSlots s n ((b - 0x10) / 8))
  else none

def viewPme (s : State) (n b lo : Nat) : Option Nat :=
  match b, lo with
  | 0x10, 0 => some (usedEntries s n)
  | 0x10, 32 => some (usedCold s n)
  | _, _ => none

def viewXfe (s : State) (n b lo : Nat) : Option Nat :=
  match b, lo with
  | 0x08, 0 => some (s.xfe.conns.filter fun c => c.2.part == n).length
  | 0x20, 16 => some (wrUsed s n)
  | 0x20, 32 => some (s.xfe.regions.filter fun r => r.2.part == n).length
  | _, _ => none

def viewCwp (s : State) (n b lo : Nat) : Option Nat :=
  let mine := (List.range 64).filter fun e => s.extState e != extFree && s.getF (Reg.cwpExtentPartition e) == n
  match b, lo with
  | 0, 0 => some (mine.map fun e => s.getF (Reg.cwpExtentSize e)).sum
  | 8, 0 => some ((tkeys s.cwp.poison).filter fun d => mine.any fun e => decide (s.extDevice e ≤ d) && decide (d < s.extDevice e + s.extLines e)).length
  | _, _ => none

/-- MXGk.ARRAY[i]: what an array runs (05). -/
def viewArray (s : State) (a lo : Nat) : Option Nat :=
  let runs := (s.ssq.wheels.flatMap fun w => w.2.parts.flatMap fun p => (p.items.filter fun i => i.array == some a && !i.done).map fun i => (w.1, p, i))
  match runs.head?, lo with
  | none, 6 => some 0
  | none, 7 => some 0
  | some _, 6 => some 1
  | some x, 7 => some (b2n (decide (1 < (x.2.1.items.filter fun j => j.gang == x.2.2.gang).length)))
  | some x, 8 => some x.1
  | _, _ => none

/-- MXG0.PB[n].TAIL_STAT (06). -/
def viewTailStat (s : State) (n lo : Nat) : Option Nat :=
  match lo with
  | 0 => some (s.ssq.tails.filter fun t => t.part == n).length
  | 16 => some (cdiv (((s.tmg.areas.filter fun a => a.part == n && (match a.owner with
      | .tailImage _ => true
      | .window _ => false
      | .resident _ => false
      | .excess _ _ _ => false)).map (·.units)).sum * 4096) (2 ^ 20))
  | 48 => some ((s.ssq.turns.filter fun t => t.part == n && t.state == .running).filter fun t =>
      !t.spill.isEmpty).length
  | _ => none

/-- Basic and expert registers of the device as a whole. -/
def viewDevice (s : State) (o lo : Nat) : Option Nat :=
  match o, lo with
  | 0x30108, 32 => some (dirFree s)
  | 0x40120, 32 => some (s.getF Reg.pmeColumnPoolCap - (s.pme.columns.filter fun c => decide (c.1 < 2 ^ 31)).length)
  | 0x50188, 16 => some (s.xfe.conns.filter fun c => !c.2.spilled).length
  | 0x50188, 32 => some (s.xfe.conns.filter fun c => s.isProtected c.2.part).length
  | 0x60108, 32 => some s.cwp.dir.length
  | 0x60120, 0 => some (maskOf ((tvals s.cwp.dir).flatMap (·.holders)))
  | 0x140108, 0 => some (ringRoom s)
  | 0x140110, 16 => some (cdiv (stagingBytes s) (2 ^ 20))
  | 0x150108, 0 => some (maskOf ((List.range 61).filter fun i => s.getF (Reg.sluInstStatHog i) != 0))
  | _, _ => none

/-- A read-only field that is computed from what the blocks hold; none for a stored one. -/
def viewField (s : State) (fn o lo : Nat) : Option Nat :=
  let p := o / 0x10000
  let r := o % 0x10000
  let n := bankOf o
  let b := (r - 0xC000) % 0x400
  if r < 0x100 then viewHeader s fn p r lo
  else if n < 16 then
    match p with
    | 0 => viewHif s n b lo
    | 1 => viewSsq s n b lo
    | 2 => viewHrc s n b lo
    | 3 => viewTmg s n b lo
    | 4 => viewPme s n b lo
    | 5 => viewXfe s n b lo
    | 6 => viewCwp s n b lo
    | 19 => if b = 0 ∧ lo = 4 then some (b2n (drainedNow s n)) else none
    | 20 => if b = 0x18 ∧ lo = 0 then some (s.frc.staging.filter fun c => c.part == n && !c.header.isEmpty).length else none
    | 24 => if b = 8 then viewTailStat s n lo else none
    | _ => none
  else if p = 1 ∧ 0x1000 ≤ r ∧ r < 0x3000 then viewWheel s ((r - 0x1000) / 32) (r % 32) lo
  else if p = 2 ∧ 0x1000 ≤ r ∧ r < 0x1800 then viewLead s ((r - 0x1000) / 8) lo
  else if 24 ≤ p ∧ p < 28 ∧ 0x100 ≤ r ∧ r < 0x1A0 then viewArray s ((p - 24) * 20 + (r - 0x100) / 8) lo
  else viewDevice s o lo

/-- A field as a function reads it. -/
def State.view (s : State) (fn : Nat) (f : Fld) : Nat := (viewField s fn f.off f.lo).getD (s.getF f) % 2 ^ f.width

/-- The 8 bytes of a word as a function reads them: another partition's bank, a closed expert window and, through a partition function,
the counters read zero (12 R381, 16 R516, R518); the error log is always readable (14 R452). -/
def regWordRead (s : State) (fn o : Nat) : Nat :=
  let p := o / 0x10000
  let r := o % 0x10000
  if (page? p).isNone ∨ !s.fnLive fn then 0
  else if 0x7000 ≤ r ∧ r < 0x8000 then
    fieldAt (((tget (s.elog p).entries ((r - 0x7000) / 64)).map errBytes).getD []) (r % 64) 8
  else if 0x8000 ≤ r ∧ r < 0xC000 then (if fn = 0 then s.ctr o else 0)
  else if bankOf o < 16 ∧ fn ≠ 0 ∧ bankOf o + 1 ≠ fn then 0
  else if 0x1000 ≤ r ∧ r < 0x7000 ∧ !s.expertOpen p fn then 0
  else (wordFields o).foldl (fun v x => v + s.view fn x.2 * 2 ^ x.2.lo) 0

/-- A 32-bit word of the component and device registers of an LD, as `componentWrite` places them (12 R378, log 65). -/
def componentRead (s : State) (ld off : Nat) : Nat :=
  let r := tgetD s.hif.ldRegs ld {}
  let d := tgetD r.decoders ((off - 0x10) / 0x20) {}
  if devRegsAt ≤ off then devRegRead s r (off - devRegsAt)
  else if off = 0 then r.hdmCtrl
  else if off < 0x10 then 0
  else if off < 0x90 then
    match (off - 0x10) % 0x20 with
    | 0x00 => d.base % 2 ^ 32
    | 0x04 => d.base / 2 ^ 32
    | 0x08 => d.size % 2 ^ 32
    | 0x0C => d.size / 2 ^ 32
    | 0x10 => d.ctrl
    | _ => 0
  else if 0x100 ≤ off then tgetD r.ras (off - 0x100) 0
  else 0

/-- A word of 32 bits behind BAR0 (12 R378, R380): BAR4 of the reading function, and the component registers of a bound LD. -/
def farRead (s : State) (fn o : Nat) : Nat :=
  if !s.fnLive fn then 0
  else if bar4Base ≤ o ∧ o < bar4Base + 0x4000 then bar4Read s fn (o - bar4Base)
  else if fn = 0 ∧ componentBase ≤ o ∧ o < componentBase + 16 * 0x10000 ∧ bit (s.getF Reg.hifLinkBound) ((o - componentBase) / 0x10000) then
    componentRead s ((o - componentBase) / 0x10000) (o % 0x10000)
  else 0

/-- A read of 4 or 8 bytes, naturally aligned; any other size reads zero (16 R512). -/
def regRead (s : State) (fn o size : Nat) : Nat :=
  if (size ≠ 4 ∧ size ≠ 8) ∨ o % size ≠ 0 then 0
  else if bar4Base ≤ o then farRead s fn o + (if size = 8 then farRead s fn (o + 4) * 2 ^ 32 else 0)
  else bits (regWordRead s fn (o - o % 8)) (8 * (o % 8)) (8 * size)

end Sys2Proof.Machine
end

