-- ==== Sys2Proof/Tests/Slice0.lean ====
section
/-!
SUPPORT. Tests/Slice0.lean: for every statement with hypotheses, concrete states and operands that meet them (wit_<statement>_<clause>);
ill-formed commands that WellFormed refuses; small tests of one step each.
-/
set_option Elab.async false
set_option linter.unusedVariables false
namespace Sys2Proof.Tests

open Sys2Proof Sys2Proof.Machine

/-- ARGS with the listed (offset, size, value) fields and zeros elsewhere. -/
def wArgs (l : List (Nat × Nat × Nat)) : List Byte := l.foldl (fun b f => patch b f.1 (leBytes f.2.1 f.2.2)) (zeros 32)

/-- A command of a function's SQ 0 with these ARGS, data buffer length and data. -/
def wCmd (fn : Nat) (l : List (Nat × Nat × Nat)) (dlen : Nat := 0) (data : List Byte := []) : Cmd :=
  { origin := .queue fn 0 0, args := wArgs l, dlen := dlen, data := data }

/-- A device whose data plane is ready. -/
def wReady : State := State.reset.setF Reg.mgcBootDataReady 1

/-- One whose partition 0 is ACTIVE. -/
def wUp : State := wReady.setF (Reg.mgcPbCtrlState 0) psActive

/-- Partition 0's function with its admin pair. -/
def wAq : State := { wUp with hif := { sqs := [(64, { size := 16, base := 4096, cqid := 0 })], cqs := [(64, { size := 16, base := 8192, vector := 1 })] } }

/-- The same on an LD that presents it. -/
def wShown : State := { wAq with hif := { wAq.hif with presented := [(0, 1)] } }

/-- The same with a pair more: SQ 1 into CQ 1, in which an entry is posted, and CQ 2 with three entries unsignalled. -/
def wPair : State := { wAq with hif := {
  presented := [(0, 1)]
  sqs := [(64, { size := 16, base := 4096, cqid := 0 }), (65, { size := 16, base := 0, cqid := 1 })]
  cqs := [(64, { size := 16, base := 8192, vector := 1 }), (65, { size := 16, base := 0, vector := 1, tail := 1 }),
          (66, { size := 16, base := 0, vector := 2, thresh := 4, sinceSignal := 3 })] } }

/-- The same with an entry waiting at the last slot of SQ 1. -/
def wFull : State := { wPair with hif := { wPair.hif with sqs := [(65, { size := 16, base := 0, cqid := 1, head := 15 })] } }

/-- The same with entries in SQ 1 and SQ 2, the round past SQ 1; and with MSI-X vector 1 unmasked. -/
def wRound : State := { wPair with hif := { wPair.hif with
  sqs := [(65, { size := 16, base := 0, cqid := 1, head := 15 }), (66, { size := 16, base := 0, cqid := 2, head := 15 })], rounds := [(1, 2)] } }
def wSignals : State := putMsix 1 1 { wAq.msixVec 1 1 with masked := false } { wAq with hif := { wAq.hif with msixCtl := [(1, 2 ^ 15)] } }

/-- A model binding, 7, with one layer. -/
def wModel : Model := {
  part := 0, slot := 0, id := 7, contract := 1, layers := 1, geom := { heads := 1, dim := 64, latent := false }, group := 1, hidden := 64, strict := false, rotHalf := false
  bias := false, keyFormat := 0, weightFmt := 0, qrows := 1, latV := 0, rankMax := 8, alpha := 1, vocab := 64, weightBase := 0, tailId := 3, profile := [], profileId := 5
  cfg := [{ window := 0, keepFirst := 0, sink := false, wOff := 0, biasOff := 0 }], rot := [], sinks := [] }

/-- Valid tail parameters: one node, one token, every scale 1. -/
def wTail : List Byte := [(0, 4, 0x3F800000), (0x14, 4, 0x3F800000), (0x1C, 1, 1), (0x20, 4, 1)].foldl (fun b f => patch b f.1 (leBytes f.2.1 f.2.2)) (zeros 96)

/-- The session at index 0 of partition 0, OPEN. -/
def wX : Session := { handle := 2 ^ 26, part := 0, state := .opened, model := 7, profileId := 5, contract := 1, seed := zeros 32, tailParams := wTail, hostCtx := zeros 128 }

/-- The same WAITING after two tokens, one of them computed; with a turn RUNNING; and as member 0 of a chain of one. -/
def wWait : Session := { wX with state := .waiting, history := [3, 4], kvLen := 1, turn := 1 }
def wActive : Session := { wWait with state := .active }
def wChain : Session := { wX with chain := some { members := [(0, 0)], own := 0 } }

/-- The partition with four descriptors, the binding and a session. -/
def wHas (x : Session) : State := { wAq with ssq := { sessions := [(0, x)], models := [wModel] } }.setF (Reg.mgcPbSessionsCount 0) 4
def wIn : State := wHas wX

/-- A command that names the session. -/
def wNamed (l : List (Nat × Nat × Nat)) (dlen : Nat := 0) (data : List Byte := []) : Cmd := wCmd 1 ((0, 8, 2 ^ 26) :: l) dlen data

/-- SESSION_OPEN of the binding, alone and as a fork of a session that does not exist. -/
def wOpen : Cmd := wCmd 1 [(0, 8, 7)] 512 (zeros 32 ++ wTail)
def wFork : Cmd := wCmd 1 [(0, 8, 7), (0x18, 8, 1)] 512 (zeros 32 ++ wTail)

/-- A wheel of the partition that runs the binding, and the partition with it. -/
def wWheel : Wheel := {
  part := 0, model := 7, accels := [0], stepBase := 0, inletBase := 0, inletSlots := 4, outletSlots := 4, node := 1, outletKey := 0, outletAddr := 0, rosterAddr := 0
  rosterSlots := 16, triggerTag := 0, outletCtr := 0, rosterCtr := 1, lastStep := 0, lastLayer := 0, committed := 0 }
def wRun : State := { wIn with ssq := { wIn.ssq with wheels := [(0, wWheel)] } }.setF (Reg.ssqPbWeirQueueDepth 0) 4

/-- TURN_SUBMIT of one token, parameters kept. -/
def wSubmit : Cmd := wNamed [(0x0C, 4, 1)] 100 (zeros 96 ++ leBytes 4 9)
def wTurn : Turn := { session := 0, part := 0, wheel := 0, state := .running, cmd := wSubmit, submitSeq := 1, extent := 3 }

/-- SESSION_SHARD onto nodes 0 and 1, and the partition with a connection to node 1. -/
def wShard : Cmd := wNamed [(8, 1, 2)] 16 ([0, 0, 1, 64].map (leBytes 4)).flatten
def wConn : Conn := { part := 0, node := 1, rpart := 0, state := .opened }
def wFab : State := { wIn with xfe := { wIn.xfe with conns := [(0, wConn)] } }

/-- The session PARKED for a ladder move that falls due at tick 4. -/
def wLadder : Session := { wWait with retainTick := 9, expiryTick := 9, rungTick := 1 }
def wDue : State := (((wHas wLadder).setF (Reg.ssqPbLadderDwell 0 0) 3).setF (Reg.ssqPbLadderValid 0 1) 1).setF Reg.ssqTickValue 5

/-- A tail binding, 3, and an adapter version. -/
def wTailB : Tail := { part := 0, slot := 0, id := 3, contract := 1, vocab := 64, hidden := 64, outFmt := 0, heads := 0, width := 0, tree := [(0, 0)], draft := [], eos := 0, weightBase := 0 }
def wAdapter : Adapter := { part := 0, id := 1, ver := 1, state := .live, binding := 7, rank := 1, image := [] }

/-- A partition with extents, the two bindings and region slots, and WHEEL_ATTACH of one accelerator. -/
def wBare : State := [(Reg.mgcPbExtentDirect4k 0 0, 2), (Reg.mgcPbExtentPage4k 0 0, 100000), (Reg.tmgPbPage4k 0 0, 100000), (Reg.mgcPbExtentDirect4k 0 1, 100),
  (Reg.mgcPbRegionCount 0, 4), (Reg.ssqPbWeirT0Pages 0, 1)].foldl (fun s f => s.setF f.1 f.2) { wUp with ssq := { models := [wModel], tails := [wTailB] } }
def wAttach : Cmd := wCmd 1 [(0, 8, 7), (9, 1, 1)] 132 ([(0x10, 4, 1), (0x14, 4, 64), (0x18, 4, 1), (0x30, 4, 16)].foldl (fun b f => patch b f.1 (leBytes f.2.1 f.2.2)) (zeros 132))

/-- The partition with extent 1, one window unit assigned to the partition and to host 0, and WINDOW_PUBLISH of its first line. -/
def wWindow : State := [(Reg.cwpWindowSize, 4), (Reg.cwpExtentWbase 1, 0), (Reg.cwpExtentSize 1, 1), (Reg.cwpExtentHosts 1, 1), (Reg.cwpExtentState 1, 1),
  (Reg.mgcPbExtentDirect4k 0 1, 65536), (Reg.hifPbFuncBindLd 0, 0)].foldl (fun s f => s.setF f.1 f.2) wUp
def wPublish (expect : Nat) : Cmd := wCmd 1 [(8, 4, 128), (0x10, 8, expect), (0x18, 8, 9)]

/-- The partition with a page record, a column of one page, and a lookup slot whose hit it was. -/
def wRec : PageRec := { base := 0, tier := 0, cls := 1, sealed := true, slot4k := 2, ref := 1, part := 0, gen := 1, layer := 0, page := 0, geom := wModel.geom }
def wColumn : Column := { tag := 1, parentTag := 0, content := 2, gen := 5, page := 0, part := 0, shadow := List.replicate 32 0, handles := [1], binding := 7 }
def wSlot : Slot := { part := 0, ident := wX.ident, tokens := List.replicate 32 0, hashes := [1], wides := [2], cands := []
                      hit := some { depth := 1, column := 1, gen := 5, home := 0, node := 0, tier := 0 } }
def wLook : State := { wIn with
  tmg := { records := [(1, wRec)] }
  pme := { columns := [(1, wColumn)], slots := [(0, wSlot)], uses := [(0, 1)] } }

/-- An entry of the session's turn, the wheel in a step with it, and states with the turn RUNNING on a wheel. -/
def wEnt : RosterEntry := { slot := 0, kind := 0, cand := 0, parent := 255, depth := 0, pos := 1, prov := 1, token := 4, session := 0 }
def wStepWheel : Wheel := { wWheel with roster := some [wEnt], rosterStep := 1 }
def wStepIs (x : Wheel) : State := { wRun with ssq := { wRun.ssq with sessions := [(0, { wActive with map := [(0, 77)] })], tails := [wTailB], wheels := [(0, x)], turns := [wTurn] } }
def wTurns : State := { wStepIs wWheel with ssq := { (wStepIs wWheel).ssq with sessions := [(0, wActive)] } }
def wStep : State := wStepIs wStepWheel

/-- A part of one record with one item; the item on array 3, its pages read; with a page still to read; and a wheel and a device with it. -/
def wPartOf (k : ItemKind) : LayerPart := { layer := 0, part := 0, first := 0, count := 1, slot := 0, last := true, stamp := 1, items := [{ kind := k, gang := 0 }], gangs := [{}] }
def wProject : LayerPart := wPartOf (.project 0 1 0 2)
def wAttend : LayerPart := wPartOf (.attend 0 0 0 0)
def wHeld (p : LayerPart) : LayerPart := { p with items := p.items.map fun i => { i with array := some 3 }, gangs := [{ dealt := true }] }
def wReading : LayerPart := { wAttend with gangs := [{ toRead := [77], dealt := true }] }
def wStepIn (p : LayerPart) : Wheel := { wStepWheel with parts := [p] }
def wDeal (p : LayerPart) : State := { wStepIs (wStepIn p) with hrc := { filled := [{ wheel := 0, step := 1, layer := 0, kind := .weights, tier := 1, bytes := 0 }] } }.setF (Reg.mgcPbArrays0 0) 8

/-- The turn with its parameters, and the wheel at its tail with these logits. -/
def wParams : Turn := { wTurn with params := wTail }
def wLogits (l : List Fp) : Wheel := { wStepWheel with tailDone := true, parts := [{ layer := 1, tail := true, part := 0, first := 0, count := 1, slot := 0, last := true, logits := [(0, l)] }] }
def wTailWheel : Wheel := wLogits [Fp.zero]
def wCommitOf (x : Wheel) : State := { wTurns with ssq := { wTurns.ssq with wheels := [(0, x)], turns := [wParams] } }
def wCommit : State := wCommitOf wTailWheel
def wOver : Wheel := { wStepWheel with lastStep := 1, lastLayer := 0 }
def wFirst : Session := { wActive with chain := some { members := [(0, 0), (1, 64)], own := 0 } }

/-- A part whose record waits for the nodes of member 0, at member 1 of a chain of two whose session runs; and the device with it. -/
def wAwaiting : LayerPart := { wAttend with items := [] }
def wChainWheel : Wheel := { wStepWheel with parts := [wAwaiting] }
def wChained : State := { wStepIs wChainWheel with ssq := { (wStepIs wChainWheel).ssq with
  sessions := [(0, { wActive with kvLen := 2080, chain := some { members := [(0, 0), (1, 64)], own := 1 } })] } }

/-- A gang that reads page 77 for no turn, and the device with that page as a fresh tail page. -/
def wRead : LayerPart := { wProject with gangs := [{ toRead := [77], dealt := true }] }
def wPageRec : PageRec := { wRec with sealed := false, slot4k := 1, geom := { heads := 1, dim := 16, latent := false } }
def wPage : State := { wDeal wRead with tmg := { records := [(77, wPageRec)] }, t0 := [(0, 86), (1, 83), (2, 1), (3, 1), (4, 1), (10, 16), (24, 1), (28, 39), (29, 159), (30, 38), (31, 70)] }

/-- A move of page 1 to T1; a fetch of a wheel's step; a T0 page to copy ahead, and T1 and T2 pages hot enough to promote. -/
def wMoving (why : MoveWhy) : State := { wLook with tmg := { wLook.tmg with moves := [{ handle := 1, tier := 1, base := 0, slot4k := 2, why := why }] } }
def wFetch (k : FetchKind) : Fetch := { wheel := 0, step := 1, layer := 0, kind := k, tier := 1, bytes := 64 }
def wFetching (k : FetchKind) : State := { wTurns with hrc := { fetches := [wFetch k] } }
/-- The fetch with the wheel in its step's layer 0. -/
def wLayerWheel : Wheel := { wStepWheel with lastStep := 1, layerDone := false, parts := [wProject] }
def wLateFetch : State := { wStepIs wLayerWheel with hrc := { fetches := [wFetch .weights] } }
def wTiers (r : PageRec) : State := [(Reg.tmgPbPage4k 0 0, 1000), (Reg.tmgPbPage4k 0 1, 1000), (Reg.mgcPbExtentPage4k 0 0, 1000), (Reg.mgcPbExtentPage4k 0 1, 1000), (Reg.tmgMigrateHiWater, 90), (Reg.tmgMigrateCleanAhead, 1),
  (Reg.tmgMigratePromoteT0, 8), (Reg.tmgMigratePromoteT1, 8)].foldl (fun s f => s.setF f.1 f.2) { wLook with tmg := { records := [(1, r)] } }
def wCool : State := wTiers wRec
def wHot : State := wTiers { wRec with tier := 1, heat := 200 }
def wLow : State := wTiers { wRec with tier := 2, heat := 200 }

/-- HBM stack 0's Sluice with a bulk transfer waiting; with an urgent one beside it; with a preemptible grant in progress. -/
def wQueue : State := ({ wReady with slu := [(0, { queues := [(20, [{ bytes := 512 }])] })] }).setF (Reg.sluPbWeightWaitB 4 0) 64
def wRivals : State := { wReady with slu := [(0, { queues := [(3, [{ bytes := 256 }]), (20, [{ bytes := 512 }])] })] }
def wGrant : Grant := { requester := 20, req := { bytes := 512 }, preemptible := true }
def wGranted : State := { wReady with slu := [(0, { queues := [(3, [{ bytes := 256 }])], current := some wGrant })] }

/-- Expander 19 decoding the page that a gang waits for. -/
def wDecoding : State := { wPage with slu := [(19, { current := some { requester := 0, req := { bytes := 4096, page := some (0, 1, 0) }, preemptible := false } })] }

/-- An access entry that lets partition 0 reach partition 0 of node 1 with every right, and the partition with it. -/
def wEntry : Nat := 1 + 2 ^ 17 + 2 ^ 38 + 31 * 2 ^ 40 + 2 ^ 63
def wAccess : State := ((wUp.setF (Reg.mgcPbPeer 0 0) wEntry).setF (Reg.mgcPbConnCount 0) 4)

/-- A data region of the partition under key 65536, a trigger region under 131073, and the partition with them. -/
def wRegion : Region := { tag := 1, part := 0, kind := 0, rights := 3, base := 0, tier := 0, length := 4096, source := 2 ^ 31 }
def wTrigger : Region := { wRegion with tag := 2, kind := 2, rights := 16, inflight := 1, queue := [{ conn := 0, inc := 3, payload := [] }] }
def wRegions : State := { wUp with xfe := { wUp.xfe with regions := [(0, wRegion), (1, { wRegion with tag := 2, kind := 2, rights := 16 })] } }.setF (Reg.mgcPbWrQuota 0) 4

/-- A state whose page's expert window is open to function 0 and its objects of every partition unlocked. -/
def wExpert (slot : Nat) (s : State) : State := (s.setF (Reg.blkExpertUnlockMaskOper slot) 1).setF (Reg.blkExpertUnlockMaskPart slot) 0xFFFF

/-- The connection in a state of its own; one with a message of one packet that has left and is not acknowledged. -/
def wConnIn (k : Conn) : State := { wFab with xfe := { wFab.xfe with conns := [(0, k)] } }
def wMsg : TxMsg := { seq := 0, op := 1, cls := 0, data := [7], pkts := [{ index := 0, path := 0, port := 0, queued := false, left := true }] }
def wSending : Conn := { wConn with tx := [wMsg], txNext := 1 }
def wTracker : Tracker := { pktsM1 := 0, sinceAck := 1 }

/-- Port 2 in a state. -/
def wPort (st : Nat) : State := wUp.setF (Reg.xfePortState 2) st

/-- A packet of a header and a payload, and the CONNECT payload of node 1. -/
def wPkt (h : PktHdr) (p : List Byte) : List Byte := buildPacket State.reset none h p
def wHello : List Byte := leBytes 8 7 ++ zeros 6 ++ [2, 0, 4] ++ leBytes 2 256 ++ zeros 45

/-- A connection to node 1 that may do everything, and node 0 with it, its regions and port 2 UP. -/
def wPeer : Conn := { wConn with rights := 31, window := 8, ceil := 256, rtoUs := 100 }
def wNet : State := [(Reg.xfeNodeValid, 1), (Reg.xfePortState 2, 4), (Reg.mgcPbExtentDirect4k 0 0, 2)].foldl (fun s f => s.setF f.1 f.2)
  { wRegions with xfe := { wRegions.xfe with conns := [(0, wPeer)], regions := [(0, { wRegion with rights := 31 }), (1, { wRegion with tag := 2, kind := 2, rights := 16 })] } }

/-- The connection with the message, at that port. -/
def wSendingPeer : Conn := { wPeer with tx := [wMsg], txNext := 1 }
def wSendingNet : State := { wNet with xfe := { wNet.xfe with conns := [(0, wSendingPeer)] } }

/-- A secured device whose partition 3 is CONFIGURED with an array, and LOCKED. -/
def wConfigured : State := [(Reg.mgcPbCtrlState 3, 1), (Reg.mgcPbArrays0 3, 1), (Reg.tmgTierCapSize4k 0, 2 ^ 27)].foldl (fun s f => s.setF f.1 f.2) { wReady with sec := { fuses := { lifecycle := 2 } } }
def wLocked : State := wConfigured.setF (Reg.mgcPbCtrlState 3) 2

/-- A sealed capsule of the session, in staging; a drive in service. -/
def wCapsule : Capsule := { part := 0, session := 2 ^ 26, turn := 1, sealed := true, bytes := [1, 2] }
def wStaged : State := { wUp with frc := { staging := [wCapsule] } }
def wDrives : State := wReady.setF (Reg.nvcDriveReady 2) 1

/-- A capsule label. -/
def wLabel : CapLabel := { members := 1, position := 0, units := 1, euis := [] }

/-- Partition 3 LOCKED and protected, and with a key exchange on function 0. -/
def wProtected : State := wLocked.setF (Reg.mgcPbCtrlProtected 3) 1
def wExchange : Exchange := { transport := 1, kem := 0, report := [] }
def wExchanging : State := { wProtected with sec := { wProtected.sec with exchanges := [(3, wExchange)] } }

/-- An entry of a set; a set with its entries in one group and none on the other side; a member of a sled of four; a lookup that resolves
its segment 0; an import that waits. -/
def wWay : PmeEntry := { tag := 1, column := 1, page := 0, part := 0 }
def wGroup : Table PmeEntry := (List.range 8).map fun k => (k, { wWay with page := 20 - k })
def wMember (pos : Nat) : State := [(Reg.pmeCascadeMode, 1), (Reg.pmeCascadePosition, pos), (Reg.pmeCascadeMembers, 4)].foldl (fun s f => s.setF f.1 f.2) wIn
def wPending : Pending := { id := 0, q := { wSlot with cands := [] }, segments := [0] }
def wAsking : State := { wMember 1 with pme := { pendings := [wPending] } }
def wImport : Import := { cmd := wCmd 1 [], slot := 0, session := 2 ^ 26, tokens := [], node := 1, region := 0, ident := wX.ident }
def wTrust : Nat := 1 + 2 ^ 17 + 2 ^ 38 + 2 ^ 63

/-- Firmware values of a device with nothing attached. -/
def wFw : FwValues := { dirBase := 0, dirRecords := 0, coldBase := 0, coldBuckets := 0, coldFree := 0, columnPool := 0, credits := 0, stagingMib := 0, windowSize := 0,
                        t2Units := 0, trays := [], drives := [] }

/-- The move into T0 of a T1 page of a protected partition, one of whose units fails its tag. -/
def wBadMove : Move := { handle := 1, tier := 0, base := 0, slot4k := 2, why := .promote }
def wBadPage : State := { wLook with
  tmg := { records := [(1, { wRec with tier := 1 })], moves := [wBadMove] }, sec := { wLook.sec with badUnits := [(1, 3)] } }.setF (Reg.mgcPbCtrlProtected 0) 1

/-- The spans of a layer's weights of the wheel. -/
def wSpans : List (Nat × Nat) := ((weightSpans (wFetching .weights) wWheel 0).map (·.2)).getD []

/-- The data region in T1, whose first line is poisoned; a CAS of a word of four bytes. -/
def wPoisonRegion : Region := { wRegion with rights := 31, tier := 1 }
def wPoisonNet : State := { wNet with cwp := { wNet.cwp with poison := [(0, false)] }, xfe := { wNet.xfe with regions := [(0, wPoisonRegion)] } }
def wCasHdr : PktHdr := { op := 6, dst := 0, src := 1, rkey := 65536, arg := zeros 12 ++ [4] }

/-- The connection OPENING for a command; a connection in compatibility mode, and node 0 with it. -/
def wOpening : Conn := { wPeer with state := .opening, cmd := some (wCmd 1 []) }
def wCompat : Conn := { wPeer with native := false }
def wCompatNet : State := { wNet with xfe := { wNet.xfe with conns := [(0, wCompat)] } }

/-- A CLOSE that has left on PSN 0 and is not covered. -/
def wUncovered : CtlPkt := { conn := some 0, hdr := { op := 0x74, flags := 1, dst := 1, src := 0 }, psn := some 0 }
def wClosing : Conn := { wCompat with state := .closing, ctlSent := [wUncovered] }

/-- What WHEEL_ATTACH copies into T0 for the binding, and the device with a poisoned line in it. -/
def wImages : List (Nat × Nat) := attachImages wBare wModel 2
def wPoisoned : State := { wBare with cwp := { wBare.cwp with poison := [(0, false)] } }

theorem wit_StepTakesFront_idle : ∃ (s : State),
    s.pending = [] :=
  ⟨State.reset, by decide +kernel⟩

theorem wit_QueuesComeAndGo_createSq : ∃ (c : Cmd) (s : State),
    Admitted 1 c s ∧
    onAdmin c = true ∧
    queueArgsOk c true = true ∧
    c.arg 0 1 = 0 ∧
    2 ≤ c.arg 2 2 ∧ c.arg 2 2 ≤ 4096 ∧
    c.arg 0x10 8 % 4096 = 0 ∧
    tget s.hif.sqs (qKey c.fn (c.arg 1 1)) = none ∧
    (tget s.hif.cqs (qKey c.fn (c.arg 4 1))).isSome = true ∧ c.arg 4 1 < queuesOf c.fn :=
  ⟨wCmd 1 [(1, 1, 63), (2, 2, 4096), (0x10, 8, 8192)], wAq, by decide +kernel⟩

theorem wit_QueuesComeAndGo_createCq : ∃ (c : Cmd) (s : State),
    Admitted 1 c s ∧
    onAdmin c = true ∧
    queueArgsOk c true = true ∧
    c.arg 0 1 = 1 ∧
    2 ≤ c.arg 2 2 ∧ c.arg 2 2 ≤ 4096 ∧
    c.arg 0x10 8 % 4096 = 0 ∧
    tget s.hif.cqs (qKey c.fn (c.arg 1 1)) = none ∧
    1 ≤ c.arg 5 1 ∧ c.arg 5 1 < vectorsOf c.fn :=
  ⟨wCmd 1 [(0, 1, 1), (1, 1, 1), (2, 2, 2), (5, 1, 64), (6, 1, 1)], wAq, by decide +kernel⟩

theorem wit_QueuesComeAndGo_deleteSq : ∃ (c : Cmd) (s : State),
    Admitted 2 c s ∧
    onAdmin c = true ∧
    queueArgsOk c false = true ∧
    c.arg 0 1 = 0 ∧
    (tget s.hif.sqs (qKey c.fn (c.arg 1 1))).isSome = true :=
  ⟨wCmd 1 [(1, 1, 1)], wPair, by decide +kernel⟩

theorem wit_QueuesComeAndGo_deleteCq : ∃ (c : Cmd) (s : State),
    Admitted 2 c s ∧
    onAdmin c = true ∧
    queueArgsOk c false = true ∧
    c.arg 0 1 = 1 ∧
    (tget s.hif.cqs (qKey c.fn (c.arg 1 1))).isSome = true ∧
    cqNamed s c.fn (c.arg 1 1) = false :=
  ⟨wCmd 1 [(0, 1, 1), (1, 1, 2)], wPair, by decide +kernel⟩

theorem wit_QueuesComeAndGo_inUse : ∃ (c : Cmd) (s : State),
    Admitted 2 c s ∧
    onAdmin c = true ∧
    queueArgsOk c false = true ∧
    c.arg 0 1 = 1 ∧
    cqNamed s c.fn (c.arg 1 1) = true :=
  ⟨wCmd 1 [(0, 1, 1), (1, 1, 1)], wPair, by decide +kernel⟩

theorem wit_QueuesComeAndGo_enable : ∃ (fn sq cq : Nat) (s : State),
    s.fnLive fn = true ∧
    s.flag (aqEn fn) = false ∧
    2 ≤ sq ∧ sq ≤ 4096 ∧
    2 ≤ cq ∧ cq ≤ 4096 :=
  ⟨1, 2, 4096, wShown, by decide +kernel⟩

theorem wit_QueuesComeAndGo_disable : ∃ (fn sq cq : Nat) (s : State),
    s.fnLive fn = true ∧
    sq < 2 ∧ cq < 2 :=
  ⟨1, 0, 1, wShown, by decide +kernel⟩

theorem wit_QueuesComeAndGo_refused : ∃ (via fn sq cq : Nat) (s : State),
    (via ≠ fn ∨ s.fnLive fn = false ∨ sq < 2 ∨ 4096 < sq ∨ cq < 2 ∨ 4096 < cq) :=
  ⟨1, 2, 16, 16, State.reset, by decide +kernel⟩

theorem wit_DoorbellsMoveTailAndHead_tail : ∃ (fn q v : Nat) (r : Sq) (s : State),
    s.mgc.off = false ∧
    s.fnShown fn = true ∧
    q < queuesOf fn ∧
    tget s.hif.sqs (qKey fn q) = some r ∧
    v < r.size ∧
    (r.tail + r.size - r.head) % r.size + (v + r.size - r.tail) % r.size ≤ r.size - 1 :=
  ⟨1, 1, 15, { size := 16, base := 0, cqid := 1 }, wPair, by decide +kernel⟩

theorem wit_DoorbellsMoveTailAndHead_tailPast : ∃ (fn q v : Nat) (r : Sq) (s : State),
    s.mgc.off = false ∧
    s.fnShown fn = true ∧
    q < queuesOf fn ∧
    tget s.hif.sqs (qKey fn q) = some r ∧
    (r.size ≤ v ∨ r.size - 1 < (r.tail + r.size - r.head) % r.size + (v + r.size - r.tail) % r.size) :=
  ⟨1, 1, 16, { size := 16, base := 0, cqid := 1 }, wPair, by decide +kernel⟩

theorem wit_DoorbellsMoveTailAndHead_head : ∃ (fn q v : Nat) (r : Cq) (s : State),
    s.mgc.off = false ∧
    s.fnShown fn = true ∧
    q < queuesOf fn ∧
    tget s.hif.cqs (qKey fn q) = some r ∧
    v < r.size ∧
    (v + r.size - r.head) % r.size ≤ r.used :=
  ⟨1, 1, 1, { size := 16, base := 0, vector := 1, tail := 1 }, wPair, by decide +kernel⟩

theorem wit_DoorbellsMoveTailAndHead_headPast : ∃ (fn q v : Nat) (r : Cq) (s : State),
    s.mgc.off = false ∧
    s.fnShown fn = true ∧
    q < queuesOf fn ∧
    tget s.hif.cqs (qKey fn q) = some r ∧
    (r.size ≤ v ∨ r.used < (v + r.size - r.head) % r.size) :=
  ⟨1, 1, 2, { size := 16, base := 0, vector := 1, tail := 1 }, wPair, by decide +kernel⟩

theorem wit_DoorbellsMoveTailAndHead_none : ∃ (fn q v : Nat) (s : State),
    s.mgc.off = false ∧
    s.fnShown fn = true ∧
    q < queuesOf fn ∧
    tget s.hif.sqs (qKey fn q) = none ∧ tget s.hif.cqs (qKey fn q) = none :=
  ⟨1, 5, 0, wPair, by decide +kernel⟩

theorem wit_DoorbellsMoveTailAndHead_absent : ∃ (fn q : Nat) (s : State),
    (s.fnShown fn = false ∨ queuesOf fn ≤ q) :=
  ⟨1, 1, wAq, by decide +kernel⟩

theorem wit_FetchAndSignal_fetch : ∃ (fn q : Nat) (e : List Byte) (r : Sq) (cq : Cq) (s : State),
    s.mgc.off = false ∧
    isFenced s pHif 0 = false ∧
    tget s.hif.sqs (qKey fn q) = some r ∧
    tget s.hif.cqs (qKey fn r.cqid) = some cq ∧
    roundNext s fn = some q ∧
    mayFetch fn q e r cq s = true :=
  ⟨1, 1, leBytes 64 0x0106, { size := 16, base := 0, cqid := 1, head := 15 }, { size := 16, base := 0, vector := 1, tail := 1 }, wFull, by decide +kernel⟩

theorem wit_FetchAndSignal_wait : ∃ (fn q : Nat) (e : List Byte) (r : Sq) (cq : Cq) (s : State),
    tget s.hif.sqs (qKey fn q) = some r ∧
    s.mgc.off = false ∧
    isFenced s pHif 0 = false ∧
    tget s.hif.cqs (qKey fn r.cqid) = some cq ∧
    roundNext s fn = some q ∧
    mayFetch fn q e r cq s = false :=
  ⟨1, 1, leBytes 2 0x0106 ++ leBytes 62 1, { size := 16, base := 0, cqid := 1, head := 15 }, { size := 16, base := 0, vector := 1, tail := 1 }, { wFull with hif := { wFull.hif with inflight := [{ fn := 1, sq := 1, cid := 0, cq := 1, sqHead := 15 }] } }, by decide +kernel⟩

theorem wit_FetchAndSignal_delay : ∃ (fn q : Nat) (r : Cq) (s : State),
    s.mgc.off = false ∧
    tget s.hif.cqs (qKey fn q) = some r ∧
    r.sinceSignal ≠ 0 :=
  ⟨1, 2, { size := 16, base := 0, vector := 2, thresh := 4, sinceSignal := 3 }, wPair, by decide +kernel⟩

theorem wit_FetchAndSignal_quiet : ∃ (fn q : Nat) (r : Cq) (s : State),
    tget s.hif.cqs (qKey fn q) = some r ∧
    r.sinceSignal = 0 :=
  ⟨1, 1, { size := 16, base := 0, vector := 1, tail := 1 }, wPair, by decide +kernel⟩

theorem wit_FetchAndSignal_flr : ∃ (fn : Nat) (s : State),
    s.mgc.off = false ∧
    s.fnShown fn = true :=
  ⟨1, wPair, by decide +kernel⟩

theorem wit_FetchAndSignal_notNext : ∃ (fn q : Nat) (e : List Byte) (s : State),
    (roundNext s fn ≠ some q ∨ isFenced s pHif 0 = true) :=
  ⟨1, 0, [], wFull, by decide +kernel⟩

theorem wit_FetchAndSignal_order : ∃ (fn q k : Nat) (s : State),
    roundNext s fn = some q ∧
    k < q ∧
    k < queuesOf fn ∧
    sqWaits s fn k = true :=
  ⟨1, 2, 1, wRound, by decide +kernel⟩

theorem wit_FetchAndSignal_masked : ∃ (fn v : Nat) (s : State),
    (s.msixVec fn v).masked = true ∨ s.msixOn fn = false :=
  ⟨1, 1, wAq, by decide +kernel⟩

theorem wit_FetchAndSignal_unmasked : ∃ (fn v : Nat) (s : State),
    (s.msixVec fn v).masked = false ∧
    s.msixOn fn = true :=
  ⟨1, 1, wSignals, by decide +kernel⟩

theorem wit_SessionOpenWritesDescriptor_opens : ∃ (c : Cmd) (m : Model) (ver i : Nat) (src : Option Session) (s s₁ : State),
    Admitted 0x0101 c s ∧
    openOk c (c.buffer s) = true ∧
    s.model? c.part (c.arg 0 8) = some m ∧
    tpNodes (slice (c.buffer s) 0x20 96) ≤ treeLimit s m ∧
    adapterFor s c.part (c.arg 0 8) (c.arg 8 4) (c.arg 0x0C 4) = .inr ver ∧
    (c.arg 8 4 = 0 ∨ adapterRank s c.part (c.arg 8 4) ver ≤ m.rankMax) ∧
    forkSource c.part (c.arg 0x18 8) (c.arg 0 8) (c.arg 8 4) ver s = .inr src ∧
    (src.map fun y => objectsBad s 1 [descObject s (c.arg 0x18 8 % 2 ^ 22) y] ++ historyBad s (c.arg 0x18 8 % 2 ^ 22) y 0 y.history.length).getD [] = [] ∧
    freeIndex s c.part = some i ∧
    addRefs ((src.map (·.handles)).getD []) s = some s₁ :=
  ⟨wOpen, wModel, 0, 1, none, wIn, wIn, by decide +kernel⟩

theorem wit_SessionOpenWritesDescriptor_noBinding : ∃ (c : Cmd) (s : State),
    Admitted 0x0101 c s ∧
    openOk c (c.buffer s) = true ∧
    s.model? c.part (c.arg 0 8) = none :=
  ⟨wOpen, wUp, by decide +kernel⟩

theorem wit_SessionOpenWritesDescriptor_forkRefused : ∃ (c : Cmd) (m : Model) (ver : Nat) (st : Status) (s : State),
    Admitted 0x0101 c s ∧
    openOk c (c.buffer s) = true ∧
    s.model? c.part (c.arg 0 8) = some m ∧
    tpNodes (slice (c.buffer s) 0x20 96) ≤ treeLimit s m ∧
    adapterFor s c.part (c.arg 0 8) (c.arg 8 4) (c.arg 0x0C 4) = .inr ver ∧
    (c.arg 8 4 = 0 ∨ adapterRank s c.part (c.arg 8 4) ver ≤ m.rankMax) ∧
    forkSource c.part (c.arg 0x18 8) (c.arg 0 8) (c.arg 8 4) ver s = .inl st :=
  ⟨wFork, wModel, 0, .staleHandle, wIn, by decide +kernel⟩

theorem wit_SessionOpenWritesDescriptor_full : ∃ (c : Cmd) (m : Model) (ver : Nat) (src : Option Session) (s : State),
    Admitted 0x0101 c s ∧
    openOk c (c.buffer s) = true ∧
    s.model? c.part (c.arg 0 8) = some m ∧
    tpNodes (slice (c.buffer s) 0x20 96) ≤ treeLimit s m ∧
    adapterFor s c.part (c.arg 0 8) (c.arg 8 4) (c.arg 0x0C 4) = .inr ver ∧
    (c.arg 8 4 = 0 ∨ adapterRank s c.part (c.arg 8 4) ver ≤ m.rankMax) ∧
    forkSource c.part (c.arg 0x18 8) (c.arg 0 8) (c.arg 8 4) ver s = .inr src ∧
    (src.map fun y => objectsBad s 1 [descObject s (c.arg 0x18 8 % 2 ^ 22) y] ++ historyBad s (c.arg 0x18 8 % 2 ^ 22) y 0 y.history.length).getD [] = [] ∧
    freeIndex s c.part = none :=
  ⟨wOpen, wModel, 0, none, wIn.setF (Reg.mgcPbSessionsCount 0) 1, by decide +kernel⟩

theorem wit_SessionCloseParkRebind_close : ∃ (c : Cmd) (i : Nat) (x : Session) (s : State),
    Admitted 0x0102 c s ∧
    c.argsOk [(0, 8)] = true ∧
    c.dlen = 0 ∧
    Names c s i x :=
  ⟨wNamed [], 0, wX, wIn, by decide +kernel⟩

theorem wit_SessionCloseParkRebind_closeStale : ∃ (c : Cmd) (st : Status) (s : State),
    Admitted 0x0102 c s ∧
    c.argsOk [(0, 8)] = true ∧
    c.dlen = 0 ∧
    namedSession c.part (c.arg 0 8) s = .inl st :=
  ⟨wCmd 1 [], .staleHandle, wIn, by decide +kernel⟩

theorem wit_SessionCloseParkRebind_park : ∃ (c : Cmd) (i : Nat) (x : Session) (s : State),
    Admitted 0x0103 c s ∧
    c.argsOk [(0, 8), (8, 1)] = true ∧
    c.dlen = 0 ∧
    Names c s i x ∧
    x.healed.idle = true ∧
    x.healed.state.parks = true ∧
    c.arg 8 1 ≤ 3 ∧
    s.flag (Reg.ssqPbLadderValid x.part (c.arg 8 1)) = true ∧
    x.healed.rung < c.arg 8 1 :=
  ⟨wNamed [(8, 1, 3)], 0, wWait, (wHas wWait).setF (Reg.ssqPbLadderValid 0 3) 1, by decide +kernel⟩

theorem wit_SessionCloseParkRebind_parkBack : ∃ (c : Cmd) (i : Nat) (x : Session) (s : State),
    Admitted 0x0103 c s ∧
    c.argsOk [(0, 8), (8, 1)] = true ∧
    c.dlen = 0 ∧
    Names c s i x ∧
    x.healed.idle = true ∧
    x.healed.state.parks = true ∧
    c.arg 8 1 ≤ 3 ∧
    s.flag (Reg.ssqPbLadderValid x.part (c.arg 8 1)) = true ∧
    c.arg 8 1 ≤ x.healed.rung :=
  ⟨wNamed [], 0, wWait, (wHas wWait).setF (Reg.ssqPbLadderValid 0 0) 1, by decide +kernel⟩

theorem wit_SessionCloseParkRebind_busy : ∃ (c : Cmd) (i : Nat) (x : Session) (s : State),
    Admitted 0x0103 c s ∧
    Admitted 0x0104 c s ∧
    c.argsOk [(0, 8), (8, 1)] = true ∧
    c.dlen = 0 ∧
    Names c s i x ∧
    x.healed.idle = false ∧
    x.idle = false ∧
    c.arg 8 1 ≤ 3 :=
  ⟨wNamed [(8, 1, 1)], 0, wActive, wHas wActive, by decide +kernel⟩

theorem wit_SessionCloseParkRebind_rebind : ∃ (c : Cmd) (i ver : Nat) (x : Session) (m : Model) (s : State),
    Admitted 0x0104 c s ∧
    c.argsOk [(0, 8), (8, 8), (0x10, 4), (0x14, 4)] = true ∧
    c.dlen = 0 ∧
    Names c s i x ∧
    x.idle = true ∧
    s.model? c.part (c.arg 8 8) = some m ∧
    adapterFor s c.part (c.arg 8 8) (c.arg 0x10 4) (c.arg 0x14 4) = .inr ver ∧
    (c.arg 0x10 4 = 0 ∨ adapterRank s c.part (c.arg 0x10 4) ver ≤ m.rankMax) :=
  ⟨wNamed [(8, 8, 7)], 0, 0, wX, wModel, wIn, by decide +kernel⟩

theorem wit_SessionSetAndReads_set : ∃ (c : Cmd) (i : Nat) (x : Session) (s : State),
    Admitted 0x0105 c s ∧
    c.argsOk [(0, 8), (8, 1), (9, 1), (0x0C, 4), (0x10, 4)] = true ∧
    c.dlen = 224 ∧
    c.arg 8 1 < 16 ∧
    c.arg 9 1 ≤ 1 ∧
    Names c s i x ∧
    (bit (c.arg 8 1) 0 = false ∨ tailParamsOk (((s.model? x.part x.model).map (treeLimit s)).getD 32) (slice (c.buffer s) 0 96) = true) :=
  ⟨wNamed [(8, 1, 14), (9, 1, 1)] 224, 0, wX, wIn, by decide +kernel⟩

theorem wit_SessionSetAndReads_read : ∃ (c : Cmd) (i : Nat) (x : Session) (s : State),
    Admitted 0x0106 c s ∧
    c.argsOk [(0, 8)] = true ∧
    512 ≤ c.dlen ∧
    Names c s i x :=
  ⟨wNamed [] 512, 0, wX, wIn, by decide +kernel⟩

theorem wit_SessionSetAndReads_readIsQuiet : ∃ (c : Cmd) (i : Nat) (x : Session) (s : State),
    Admitted 0x0106 c s ∧
    c.argsOk [(0, 8)] = true ∧
    512 ≤ c.dlen ∧
    Names c s i x ∧
    openCapsule s x.handle = none :=
  ⟨wNamed [] 512, 0, wX, wIn, by decide +kernel⟩

theorem wit_SessionSetAndReads_history : ∃ (c : Cmd) (i : Nat) (x : Session) (s : State),
    Admitted 0x0107 c s ∧
    c.argsOk [(0, 8), (8, 8), (0x10, 4)] = true ∧
    0 < c.arg 0x10 4 ∧
    4 * c.arg 0x10 4 ≤ c.dlen ∧
    Names c s i x ∧
    c.arg 8 8 + c.arg 0x10 4 ≤ x.history.length ∧
    historyBad s i x (c.arg 8 8) (c.arg 0x10 4) = [] :=
  ⟨wNamed [(8, 8, 1), (0x10, 4, 1)] 4, 0, wWait, wHas wWait, by decide +kernel⟩

theorem wit_SessionSetAndReads_historyBeyond : ∃ (c : Cmd) (i : Nat) (x : Session) (s : State),
    Admitted 0x0107 c s ∧
    c.argsOk [(0, 8), (8, 8), (0x10, 4)] = true ∧
    4 * c.arg 0x10 4 ≤ c.dlen ∧
    Names c s i x ∧
    x.history.length < c.arg 8 8 + c.arg 0x10 4 :=
  ⟨wNamed [(8, 8, 1), (0x10, 4, 2)] 8, 0, wWait, wHas wWait, by decide +kernel⟩

theorem wit_TurnsAndChains_submit : ∃ (c : Cmd) (i : Nat) (x : Session) (s : State),
    Admitted 0x0108 c s ∧
    c.argsOk [(0, 8), (8, 2), (0x0A, 1), (0x0C, 4)] = true ∧
    c.dlen = 96 + 4 * c.arg 0x0C 4 ∧
    c.arg 0x0A 1 ≤ 1 ∧
    slice (c.buffer s) 0 96 = zeros 96 ∧
    Names c s i x ∧
    submitCheck c s x.healed x.tailParams (x.history.length + c.arg 0x0C 4) (c.arg 0x0A 1 == 1) = none ∧
    (let p := putSession i { x with history := x.history ++ (List.range (c.arg 0x0C 4)).map fun k => fieldAt (c.buffer s) (96 + 4 * k) 4 } s
   weirTest (p.setHrc { p.hrc with revive := [] }) [] []
    { session := i, part := c.part, wheel := c.arg 8 2, state := .queued, cmd := c, maxNew := tpMaxNew x.tailParams, nodes := tpNodes x.tailParams } = none) ∧
    (queuedOf s c.part).length < s.getF (Reg.ssqPbWeirQueueDepth c.part) :=
  ⟨wSubmit, 0, wX, wRun, by decide +kernel⟩

theorem wit_TurnsAndChains_busy : ∃ (c : Cmd) (i : Nat) (x : Session) (s : State),
    Admitted 0x0108 c s ∧
    c.argsOk [(0, 8), (8, 2), (0x0A, 1), (0x0C, 4)] = true ∧
    c.dlen = 96 + 4 * c.arg 0x0C 4 ∧
    c.arg 0x0A 1 ≤ 1 ∧
    slice (c.buffer s) 0 96 = zeros 96 ∧
    Names c s i x ∧
    x.healed.idle = false :=
  ⟨wSubmit, 0, wActive, wHas wActive, by decide +kernel⟩

theorem wit_TurnsAndChains_full : ∃ (c : Cmd) (i : Nat) (x : Session) (s : State),
    Admitted 0x0108 c s ∧
    c.argsOk [(0, 8), (8, 2), (0x0A, 1), (0x0C, 4)] = true ∧
    c.dlen = 96 + 4 * c.arg 0x0C 4 ∧
    c.arg 0x0A 1 ≤ 1 ∧
    slice (c.buffer s) 0 96 = zeros 96 ∧
    Names c s i x ∧
    submitCheck c s x.healed x.tailParams (x.history.length + c.arg 0x0C 4) (c.arg 0x0A 1 == 1) = none ∧
    (let p := putSession i { x with history := x.history ++ (List.range (c.arg 0x0C 4)).map fun k => fieldAt (c.buffer s) (96 + 4 * k) 4 } s
   weirTest (p.setHrc { p.hrc with revive := [] }) [] []
    { session := i, part := c.part, wheel := c.arg 8 2, state := .queued, cmd := c, maxNew := tpMaxNew x.tailParams, nodes := tpNodes x.tailParams } = none) ∧
    queuedOf s c.part ≠ [] ∧
    s.getF (Reg.ssqPbWeirQueueDepth c.part) ≤ (queuedOf s c.part).length :=
  ⟨wSubmit, 0, wX, { wRun with ssq := { wRun.ssq with turns := [{ wTurn with session := 1, state := .queued }] } }.setF (Reg.ssqPbWeirQueueDepth 0) 1, by decide +kernel⟩

theorem wit_TurnsAndChains_cancel : ∃ (c : Cmd) (i : Nat) (x : Session) (t : Turn) (s : State),
    Admitted 0x0109 c s ∧
    c.argsOk [(0, 8)] = true ∧
    c.dlen = 0 ∧
    Names c s i x ∧
    turnOf s i = some t :=
  ⟨wNamed [], 0, wActive, wTurn, { wHas wActive with ssq := { (wHas wActive).ssq with turns := [wTurn] } }, by decide +kernel⟩

theorem wit_TurnsAndChains_ended : ∃ (c : Cmd) (i : Nat) (x : Session) (s : State),
    Admitted 0x0109 c s ∧
    c.argsOk [(0, 8)] = true ∧
    c.dlen = 0 ∧
    Names c s i x ∧
    turnOf s i = none :=
  ⟨wNamed [], 0, wX, wIn, by decide +kernel⟩

theorem wit_TurnsAndChains_shard : ∃ (c : Cmd) (i : Nat) (x : Session) (region : Option Nat) (s s₁ : State),
    Admitted 0x010A c s ∧
    c.argsOk [(0, 8), (8, 1), (9, 1)] = true ∧
    c.dlen = 8 * c.arg 8 1 ∧
    2 ≤ c.arg 8 1 ∧ c.arg 8 1 ≤ 64 ∧
    Names c s i x ∧
    x.state = .opened ∧
    x.history = [] ∧
    ((chainMembers (c.buffer s) (c.arg 8 1)).head?).map (·.2) = some 0 ∧
    ascends ((chainMembers (c.buffer s) (c.arg 8 1)).map (·.2)) = true ∧
    c.arg 9 1 < c.arg 8 1 ∧
    ((chainMembers (c.buffer s) (c.arg 8 1))[c.arg 9 1]?).map (·.1) = some s.node ∧
    ((if c.arg 9 1 = 0 then [] else [c.arg 9 1 - 1]) ++ (if c.arg 9 1 + 1 < c.arg 8 1 then [c.arg 9 1 + 1] else [])).all
     (fun k => openTo s c.part ((chainMembers (c.buffer s) (c.arg 8 1)).getD k (0, 0)).1) = true ∧
    chainRegion x (c.arg 9 1) s = some (region, s₁) :=
  ⟨wShard, 0, wX, none, wFab, wFab, by decide +kernel⟩

theorem wit_TurnsAndChains_extend : ∃ (c : Cmd) (i : Nat) (x : Session) (k : Chain) (region : Option Nat) (s s₁ : State),
    Admitted 0x010B c s ∧
    c.argsOk [(0, 8), (8, 1), (9, 1)] = true ∧
    c.dlen = 8 * c.arg 8 1 ∧
    2 ≤ c.arg 8 1 ∧ c.arg 8 1 ≤ 64 ∧
    Names c s i x ∧
    x.state = .opened ∧
    x.history = [] ∧
    x.chain = some k ∧
    k.members = (chainMembers (c.buffer s) (c.arg 8 1)).take (c.arg 8 1 - 1) ∧
    k.own = c.arg 9 1 ∧
    ((chainMembers (c.buffer s) (c.arg 8 1)).head?).map (·.2) = some 0 ∧
    ascends ((chainMembers (c.buffer s) (c.arg 8 1)).map (·.2)) = true ∧
    c.arg 9 1 < c.arg 8 1 ∧
    ((chainMembers (c.buffer s) (c.arg 8 1))[c.arg 9 1]?).map (·.1) = some s.node ∧
    ((if c.arg 9 1 = 0 then [] else [c.arg 9 1 - 1]) ++ (if c.arg 9 1 + 1 < c.arg 8 1 then [c.arg 9 1 + 1] else [])).all
     (fun k => openTo s c.part ((chainMembers (c.buffer s) (c.arg 8 1)).getD k (0, 0)).1) = true ∧
    chainRegion x (c.arg 9 1) s = some (region, s₁) :=
  ⟨wShard, 0, wChain, .mk [(0, 0)] 0 none, none, { wFab with ssq := (wHas wChain).ssq }, { wFab with ssq := (wHas wChain).ssq }, by decide +kernel⟩

theorem wit_TurnsAndChains_alone : ∃ (c : Cmd) (i : Nat) (x : Session) (s : State),
    Admitted 0x010A c s ∧
    c.argsOk [(0, 8), (8, 1), (9, 1)] = true ∧
    c.dlen = 8 * c.arg 8 1 ∧
    2 ≤ c.arg 8 1 ∧ c.arg 8 1 ≤ 64 ∧
    Names c s i x ∧
    x.state = .opened ∧
    x.history = [] ∧
    ((chainMembers (c.buffer s) (c.arg 8 1)).head?).map (·.2) = some 0 ∧
    ascends ((chainMembers (c.buffer s) (c.arg 8 1)).map (·.2)) = true ∧
    c.arg 9 1 < c.arg 8 1 ∧
    ((chainMembers (c.buffer s) (c.arg 8 1))[c.arg 9 1]?).map (·.1) = some s.node ∧
    s.xfe.conns = [] :=
  ⟨wShard, 0, wX, wIn, by decide +kernel⟩

theorem wit_WhatFallsDue_ladder : ∃ (i due : Nat) (x : Session) (s : State),
    Live s ∧
    nextDue s = some (due, i, 2) ∧
    tget (commitEvent i .ladder .ok s).ssq.sessions i = some x ∧
    x.state.parks = true :=
  ⟨0, 4, { wLadder with commitSeq := 1 }, wDue, by decide +kernel⟩

theorem wit_WhatFallsDue_expiry : ∃ (i due : Nat) (x : Session) (s : State),
    Live s ∧
    nextDue s = some (due, i, 1) ∧
    tget s.ssq.sessions i = some x ∧
    x.lostPage = false :=
  ⟨0, 2, { wWait with expiryTick := 2, retainTick := 9 }, (wHas { wWait with expiryTick := 2, retainTick := 9 }).setF Reg.ssqTickValue 5, by decide +kernel⟩

theorem wit_WhatFallsDue_retirement : ∃ (i due : Nat) (x : Session) (s : State),
    Live s ∧
    nextDue s = some (due, i, 0) ∧
    tget s.ssq.sessions i = some x :=
  ⟨0, 0, wWait, wHas wWait, by decide +kernel⟩

theorem wit_BindingsAndAdapters_bindAgain : ∃ (c : Cmd) (m : Model) (s : State),
    Admitted 0x0201 c s ∧
    c.argsOk [] = true ∧
    s.model? c.part (leNat (shake256 (c.buffer s) 8)) = some m :=
  ⟨wCmd 1 [], { wModel with id := leNat (shake256 [] 8) }, { wUp with ssq := { wUp.ssq with models := [{ wModel with id := leNat (shake256 [] 8) }] } }, by decide +kernel⟩

theorem wit_BindingsAndAdapters_bindFails : ∃ (c : Cmd) (st : Status) (s s₁ : State),
    Admitted 0x0201 c s ∧
    c.argsOk [] = true ∧
    s.model? c.part (leNat (shake256 (c.buffer s) 8)) = none ∧
    beginAccess (.command 0x0201 c) (modelLines (c.buffer s) c.part (leNat (shake256 (c.buffer s) 8)) s) false s = none ∧
    modelCheck c (c.buffer s) (leNat (shake256 (c.buffer s) 8)) s = (s₁, .inl st) :=
  ⟨wCmd 1 [], .contractVersion, wUp, wUp, by decide +kernel⟩

theorem wit_BindingsAndAdapters_unbind : ∃ (c : Cmd) (s : State),
    Admitted 0x0202 c s ∧
    c.argsOk [(0, 8)] = true ∧
    c.dlen = 0 ∧
    (s.model? c.part (c.arg 0 8)).isSome = true ∧
    s.ssq.sessions.any (fun x => x.2.part == c.part && x.2.model == c.arg 0 8) = false ∧
    s.ssq.wheels.any (fun w => w.2.part == c.part && w.2.model == c.arg 0 8) = false :=
  ⟨wCmd 1 [(0, 8, 7)], { wUp with ssq := { models := [wModel] } }, by decide +kernel⟩

theorem wit_BindingsAndAdapters_unbindUsed : ∃ (c : Cmd) (s : State),
    Admitted 0x0202 c s ∧
    c.argsOk [(0, 8)] = true ∧
    c.dlen = 0 ∧
    (s.model? c.part (c.arg 0 8)).isSome = true ∧
    (s.ssq.sessions.any (fun x => x.2.part == c.part && x.2.model == c.arg 0 8) = true ∨ s.ssq.wheels.any (fun w => w.2.part == c.part && w.2.model == c.arg 0 8) = true) :=
  ⟨wCmd 1 [(0, 8, 7)], wIn, by decide +kernel⟩

theorem wit_BindingsAndAdapters_tailFails : ∃ (c : Cmd) (st : Status) (s s₁ : State),
    Admitted 0x0203 c s ∧
    c.argsOk [] = true ∧
    s.tail? c.part (leNat (shake256 (c.buffer s) 8)) = none ∧
    beginAccess (.command 0x0203 c) (tailLines (c.buffer s) c.part (leNat (shake256 (c.buffer s) 8)) s) false s = none ∧
    tailCheck c (c.buffer s) (leNat (shake256 (c.buffer s) 8)) s = (s₁, .inl st) :=
  ⟨wCmd 1 [], .contractVersion, wUp, wUp, by decide +kernel⟩

theorem wit_BindingsAndAdapters_tailUnbind : ∃ (c : Cmd) (s : State),
    Admitted 0x0204 c s ∧
    c.argsOk [(0, 8)] = true ∧
    c.dlen = 0 ∧
    (s.tail? c.part (c.arg 0 8)).isSome = true ∧
    wheelsOnTail s c.part (c.arg 0 8) = [] :=
  ⟨wCmd 1 [(0, 8, 3)], { wUp with ssq := { tails := [wTailB] } }, by decide +kernel⟩

theorem wit_BindingsAndAdapters_unknown : ∃ (c : Cmd) (s : State),
    Admitted 0x0202 c s ∧
    Admitted 0x0204 c s ∧
    c.argsOk [(0, 8)] = true ∧
    c.dlen = 0 ∧
    s.model? c.part (c.arg 0 8) = none ∧
    s.tail? c.part (c.arg 0 8) = none :=
  ⟨wCmd 1 [], wUp, by decide +kernel⟩

theorem wit_BindingsAndAdapters_load : ∃ (c : Cmd) (m : Model) (r : Nat) (s : State),
    Admitted 0x0205 c s ∧
    c.argsOk [(0, 8), (8, 4), (0x0C, 4)] = true ∧
    c.arg 8 4 ≠ 0 ∧
    s.model? c.part (c.arg 0 8) = some m ∧
    c.arg 0x0C 4 ≠ 0 ∧
    (if s.pstate c.part = psReplay then (versionsOf s c.part (c.arg 8 4)).all (fun a => a.ver != c.arg 0x0C 4)
      else (versionsOf s c.part (c.arg 8 4)).all (fun a => decide (a.ver < c.arg 0x0C 4))) = true ∧
    (s.ssq.adapters.filter fun a => a.part == c.part && a.state != .freed).length < 1024 ∧
    1 ≤ r ∧ r ≤ 256 ∧
    0 < m.layers * m.adapterBytes 1 ∧
    c.dlen = r * (m.layers * m.adapterBytes 1) :=
  ⟨wCmd 1 [(0, 8, 7), (8, 4, 1), (0x0C, 4, 1)] 384, wModel, 1, wIn, by decide +kernel⟩

theorem wit_BindingsAndAdapters_old : ∃ (c : Cmd) (m : Model) (s : State),
    Admitted 0x0205 c s ∧
    c.argsOk [(0, 8), (8, 4), (0x0C, 4)] = true ∧
    c.arg 8 4 ≠ 0 ∧
    s.model? c.part (c.arg 0 8) = some m ∧
    (c.arg 0x0C 4 = 0 ∨ (if s.pstate c.part = psReplay then (versionsOf s c.part (c.arg 8 4)).all (fun a => a.ver != c.arg 0x0C 4)
      else (versionsOf s c.part (c.arg 8 4)).all (fun a => decide (a.ver < c.arg 0x0C 4))) = false) :=
  ⟨wCmd 1 [(0, 8, 7), (8, 4, 1)], wModel, wIn, by decide +kernel⟩

theorem wit_BindingsAndAdapters_retire : ∃ (c : Cmd) (s : State),
    Admitted 0x0206 c s ∧
    c.argsOk [(8, 4), (0x0C, 4)] = true ∧
    c.dlen = 0 ∧
    (versionsOf s c.part (c.arg 8 4)).any (fun a => a.ver == c.arg 0x0C 4 && a.state == .live) = true :=
  ⟨wCmd 1 [(8, 4, 1), (0x0C, 4, 1)], { wUp with ssq := { adapters := [wAdapter] } }, by decide +kernel⟩

theorem wit_BindingsAndAdapters_freed : ∃ (n id ver : Nat) (s : State),
    (s.ssq.adapters.find? fun a => a.part == n && a.id == id && a.ver == ver && a.state == .retired).isSome = true ∧
    s.ssq.sessions.any (fun x => x.2.part == n && x.2.adapter == id && x.2.adapterVer == ver) = false :=
  ⟨0, 1, 1, { wUp with ssq := { adapters := [{ wAdapter with state := .retired }] } }, by decide +kernel⟩

theorem wit_WheelAttachAndDetach_attach : ∃ (c : Cmd) (m : Model) (w ri rt : Nat) (tb : Tail) (s u : State),
    Admitted 0x0207 c s ∧
    attachOk c (c.buffer s) = true ∧
    s.model? c.part (c.arg 0 8) = some m ∧
    attachCheck s (c.buffer s) m (if bit (c.arg 8 1) 7 then bits (c.arg 8 1) 0 4 else 2) = none ∧
    beginAccess (.command 0x0207 c) ((attachImages s m (if bit (c.arg 8 1) 7 then bits (c.arg 8 1) 0 4 else 2)).map fun i => s.directLines c.part 1 i.1 i.2).flatten false s = none ∧
    readImages c.part (attachImages s m (if bit (c.arg 8 1) 7 then bits (c.arg 8 1) 0 4 else 2)) s = (u, none) ∧
    freeWheel u = some w ∧
    u.tail? c.part m.tailId = some tb ∧
    twoRegions u c.part = some (ri, rt) :=
  ⟨wAttach, wModel, 0, 0, 1, wTailB, wBare, (readImages 0 wImages wBare).1, by decide +kernel⟩

theorem wit_WheelAttachAndDetach_attachFails : ∃ (c : Cmd) (m : Model) (st : Status) (s : State),
    Admitted 0x0207 c s ∧
    attachOk c (c.buffer s) = true ∧
    s.model? c.part (c.arg 0 8) = some m ∧
    attachCheck s (c.buffer s) m (if bit (c.arg 8 1) 7 then bits (c.arg 8 1) 0 4 else 2) = some st :=
  ⟨wAttach, wModel, .windowRange, wIn, by decide +kernel⟩

theorem wit_WheelAttachAndDetach_detach : ∃ (c : Cmd) (x : Wheel) (s : State),
    Admitted 0x0208 c s ∧
    c.argsOk [(0, 2)] = true ∧
    c.dlen = 0 ∧
    s.wheel? (c.arg 0 2) = some x ∧
    x.part = c.part ∧
    s.ssq.turns.any (fun t => t.wheel == c.arg 0 2) = false :=
  ⟨wCmd 1 [], wWheel, wRun, by decide +kernel⟩

theorem wit_WheelAttachAndDetach_detachBusy : ∃ (c : Cmd) (x : Wheel) (s : State),
    Admitted 0x0208 c s ∧
    c.argsOk [(0, 2)] = true ∧
    c.dlen = 0 ∧
    s.wheel? (c.arg 0 2) = some x ∧
    x.part = c.part ∧
    s.ssq.turns.any (fun t => t.wheel == c.arg 0 2) = true :=
  ⟨wCmd 1 [], wWheel, { wRun with ssq := { wRun.ssq with turns := [wTurn] } }, by decide +kernel⟩

theorem wit_WheelAttachAndDetach_noWheel : ∃ (c : Cmd) (s : State),
    Admitted 0x0208 c s ∧
    c.argsOk [(0, 2)] = true ∧
    c.dlen = 0 ∧
    s.wheel? (c.arg 0 2) = none :=
  ⟨wCmd 1 [(0, 2, 3)], wRun, by decide +kernel⟩

theorem wit_WheelAttachAndDetach_attachReadFails : ∃ (c : Cmd) (m : Model) (st : Status) (s u : State),
    Admitted 0x0207 c s ∧
    attachOk c (c.buffer s) = true ∧
    s.model? c.part (c.arg 0 8) = some m ∧
    attachCheck s (c.buffer s) m (if bit (c.arg 8 1) 7 then bits (c.arg 8 1) 0 4 else 2) = none ∧
    beginAccess (.command 0x0207 c) ((attachImages s m (if bit (c.arg 8 1) 7 then bits (c.arg 8 1) 0 4 else 2)).map fun i => s.directLines c.part 1 i.1 i.2).flatten false s = none ∧
    readImages c.part (attachImages s m (if bit (c.arg 8 1) 7 then bits (c.arg 8 1) 0 4 else 2)) s = (u, some st) :=
  ⟨wAttach, wModel, .windowPoison, wPoisoned, (readImages 0 wImages wPoisoned).1, by decide +kernel⟩

theorem wit_TierWriteReadCopy_write : ∃ (c : Cmd) (s : State),
    memsOk s ∧
    Admitted 0x0402 c s ∧
    c.argsOk [(0, 1), (8, 8)] = true ∧
    c.arg 0 1 < 4 ∧
    s.inDirect c.part (c.arg 0 1) (c.arg 8 8) c.dlen = true ∧
    s.tierUp (c.arg 0 1) = true ∧
    (let r := unitsOf (s.directAddr c.part (c.arg 0 1) (c.arg 8 8)) c.dlen
   accessFails (c.arg 0 1) r.1 r.2 true s = false) ∧
    beginAccess (.command 0x0402 c) (s.directLines c.part (c.arg 0 1) (c.arg 8 8) c.dlen) true s = none ∧
    s.directPoisoned c.part (c.arg 0 1) (c.arg 8 8) c.dlen = [] ∧
    c.arg 0 1 = 0 → s.getF (Reg.mgcPbExtentDirect4k c.part 0) * 4096 ≤ 48 * gib :=
  ⟨wCmd 1 [(0, 1, 1)] 4 [1, 2, 3, 4], wBare, by decide +kernel⟩

theorem wit_TierWriteReadCopy_read : ∃ (c : Cmd) (s : State),
    Admitted 0x0401 c s ∧
    c.argsOk [(0, 1), (8, 8)] = true ∧
    c.arg 0 1 < 4 ∧
    s.inDirect c.part (c.arg 0 1) (c.arg 8 8) c.dlen = true ∧
    s.tierUp (c.arg 0 1) = true ∧
    (let r := unitsOf (s.directAddr c.part (c.arg 0 1) (c.arg 8 8)) c.dlen
   accessFails (c.arg 0 1) r.1 r.2 false s = false) ∧
    beginAccess (.command 0x0401 c) (s.directLines c.part (c.arg 0 1) (c.arg 8 8) c.dlen) false s = none ∧
    s.directPoisoned c.part (c.arg 0 1) (c.arg 8 8) c.dlen = [] ∧
    s.sec.badUnits = [] :=
  ⟨wCmd 1 [(0, 1, 1)] 4, wBare, by decide +kernel⟩

theorem wit_TierWriteReadCopy_copy : ∃ (c : Cmd) (s : State),
    memsOk s ∧
    Admitted 0x0403 c s ∧
    c.argsOk [(0, 2), (8, 24)] = true ∧
    c.arg 0 1 < 4 ∧
    c.arg 1 1 < 4 ∧
    c.dlen = 0 ∧
    s.inDirect c.part (c.arg 0 1) (c.arg 8 8) (c.arg 0x18 8) = true ∧
    s.inDirect c.part (c.arg 1 1) (c.arg 0x10 8) (c.arg 0x18 8) = true ∧
    s.tierUp (c.arg 0 1) = true ∧
    s.tierUp (c.arg 1 1) = true ∧
    s.tmg.badAccess = [] ∧
    beginAccess (.command 0x0403 c) (s.directLines c.part (c.arg 0 1) (c.arg 8 8) (c.arg 0x18 8)) false s = none ∧
    beginAccess (.command 0x0403 c) (s.directLines c.part (c.arg 1 1) (c.arg 0x10 8) (c.arg 0x18 8)) true s = none ∧
    s.directPoisoned c.part (c.arg 0 1) (c.arg 8 8) (c.arg 0x18 8) = [] ∧
    s.directPoisoned c.part (c.arg 1 1) (c.arg 0x10 8) (c.arg 0x18 8) = [] ∧
    s.sec.badUnits = [] ∧
    c.arg 1 1 = 0 → s.getF (Reg.mgcPbExtentDirect4k c.part 0) * 4096 ≤ 48 * gib :=
  ⟨wCmd 1 [(1, 1, 1), (0x10, 8, 64), (0x18, 8, 16)], wBare, by decide +kernel⟩

theorem wit_TierWriteReadCopy_outside : ∃ (c : Cmd) (s : State),
    Admitted 0x0401 c s ∧
    c.argsOk [(0, 1), (8, 8)] = true ∧
    c.arg 0 1 < 4 ∧
    s.inDirect c.part (c.arg 0 1) (c.arg 8 8) c.dlen = false :=
  ⟨wCmd 1 [(0, 1, 2)] 4, wBare, by decide +kernel⟩

theorem wit_TierWriteReadCopy_outsideWrite : ∃ (c : Cmd) (s : State),
    gate 0x0402 c s = .fail .windowRange :=
  ⟨wCmd 1 [(0, 1, 2)] 4, wBare, by decide +kernel⟩

theorem wit_TierWriteReadCopy_gateOutside : ∃ (c : Cmd) (s : State),
    Live s ∧
    (isFenced s pHif 0 = false ∨ c.origin = .i3c) ∧
    startsInTurn s c.origin = true ∧
    opAllowed 0x0402 c.origin = true ∧
    descOk 0x0402 c = true ∧
    bufferCheck c s = none ∧
    s.flag Reg.mgcBootDataReady = true ∧
    opInState 0x0402 (s.pstate c.part) = true ∧
    s.inDirect c.part (c.arg 0 1) (c.arg 8 8) c.dlen = false :=
  ⟨wCmd 1 [(0, 1, 2)] 4, wBare, by decide +kernel⟩

theorem wit_WindowPublishSwapsTheVersion_swap : ∃ (c : Cmd) (e : Nat) (s : State),
    memsOk s ∧
    Admitted 0x0404 c s ∧
    c.argsOk [(0, 12), (0x10, 16)] = true ∧
    c.arg 0 8 % 64 = 0 ∧
    c.arg 8 4 % 64 = 0 ∧
    64 ≤ c.arg 8 4 ∧ c.arg 8 4 ≤ 16 * 2 ^ 20 ∧
    c.dlen = 0 ∧
    s.extentOf (c.arg 0 8 / 64) = some e ∧
    ((List.range (c.arg 8 4 / 64)).map (c.arg 0 8 / 64 + ·)).all (s.inExtent e) = true ∧
    s.getF (Reg.cwpExtentPartition e) = c.part ∧
    s.extState e = extActive ∧
    bit (s.getF (Reg.cwpExtentHosts e)) (s.getF (Reg.hifPbFuncBindLd c.part)) = true ∧
    OpenLines s (c.arg 0 8 / 64) (c.arg 8 4 / 64) ∧
    s.cwp.dir = [] ∧ s.cwp.recalls = [] ∧
    s.cwp.poison = [] ∧
    leNat (memRead s.t1 (s.devLine e (c.arg 0 8 / 64) * 64) 8) = c.arg 0x10 8 :=
  ⟨wPublish 0, 1, wWindow, by decide +kernel⟩

theorem wit_WindowPublishSwapsTheVersion_conflict : ∃ (c : Cmd) (e : Nat) (s : State),
    Admitted 0x0404 c s ∧
    c.argsOk [(0, 12), (0x10, 16)] = true ∧
    c.arg 0 8 % 64 = 0 ∧
    c.arg 8 4 % 64 = 0 ∧
    64 ≤ c.arg 8 4 ∧ c.arg 8 4 ≤ 16 * 2 ^ 20 ∧
    c.dlen = 0 ∧
    s.extentOf (c.arg 0 8 / 64) = some e ∧
    ((List.range (c.arg 8 4 / 64)).map (c.arg 0 8 / 64 + ·)).all (s.inExtent e) = true ∧
    s.getF (Reg.cwpExtentPartition e) = c.part ∧
    s.extState e = extActive ∧
    bit (s.getF (Reg.cwpExtentHosts e)) (s.getF (Reg.hifPbFuncBindLd c.part)) = true ∧
    OpenLines s (c.arg 0 8 / 64) (c.arg 8 4 / 64) ∧
    s.poisoned (s.devLine e (c.arg 0 8 / 64)) = false ∧
    leNat (memRead s.t1 (s.devLine e (c.arg 0 8 / 64) * 64) 8) ≠ c.arg 0x10 8 :=
  ⟨wPublish 7, 1, wWindow, by decide +kernel⟩

theorem wit_WindowPublishSwapsTheVersion_poison : ∃ (c : Cmd) (e : Nat) (s : State),
    Admitted 0x0404 c s ∧
    c.argsOk [(0, 12), (0x10, 16)] = true ∧
    c.arg 0 8 % 64 = 0 ∧
    c.arg 8 4 % 64 = 0 ∧
    64 ≤ c.arg 8 4 ∧ c.arg 8 4 ≤ 16 * 2 ^ 20 ∧
    c.dlen = 0 ∧
    s.extentOf (c.arg 0 8 / 64) = some e ∧
    ((List.range (c.arg 8 4 / 64)).map (c.arg 0 8 / 64 + ·)).all (s.inExtent e) = true ∧
    s.getF (Reg.cwpExtentPartition e) = c.part ∧
    s.extState e = extActive ∧
    bit (s.getF (Reg.cwpExtentHosts e)) (s.getF (Reg.hifPbFuncBindLd c.part)) = true ∧
    OpenLines s (c.arg 0 8 / 64) (c.arg 8 4 / 64) ∧
    s.poisoned (s.devLine e (c.arg 0 8 / 64)) = true :=
  ⟨wPublish 0, 1, { wWindow with cwp := { wWindow.cwp with poison := [(wWindow.devLine 1 0, false)] } }, by decide +kernel⟩

theorem wit_PrefixCommands_lookupShort : ∃ (c : Cmd) (m : Model) (ver : Nat) (s : State),
    Admitted 0x0301 c s ∧
    c.argsOk [(0, 1), (8, 8), (0x10, 4), (0x14, 4)] = true ∧
    c.arg 0 1 = 0 ∧
    36 ≤ c.dlen ∧
    c.dlen % 4 = 0 ∧
    c.dlen < 32 + 128 ∧
    s.model? c.part (c.arg 8 8) = some m ∧
    adapterFor s c.part m.id (c.arg 0x10 4) (c.arg 0x14 4) = .inr ver :=
  ⟨wCmd 1 [(8, 8, 7)] 64, wModel, 0, wIn, by decide +kernel⟩

theorem wit_PrefixCommands_lookup : ∃ (c : Cmd) (m : Model) (ver n : Nat) (s : State),
    Admitted 0x0301 c s ∧
    c.argsOk [(0, 1), (8, 8), (0x10, 4), (0x14, 4)] = true ∧
    c.arg 0 1 = 0 ∧
    c.dlen % 4 = 0 ∧
    32 + 128 ≤ c.dlen ∧
    c.dlen ≤ 4 * 2097152 + 32 ∧
    s.model? c.part (c.arg 8 8) = some m ∧
    adapterFor s c.part m.id (c.arg 0x10 4) (c.arg 0x14 4) = .inr ver ∧
    s.pme.slots.length < 1024 ∧ (s.pme.slots.filter fun x => x.2.part == c.part).length < 64 ∧
    (n < 1024 ∧ tget s.pme.slots n = none ∧ ∀ k < n, (tget s.pme.slots k).isSome = true) :=
  ⟨wCmd 1 [(8, 8, 7)] 160, wModel, 0, 1, wLook, by decide +kernel⟩

theorem wit_PrefixCommands_next : ∃ (c : Cmd) (n : Nat) (q : Slot) (s : State),
    Admitted 0x0302 c s ∧
    c.argsOk [(0, 4)] = true ∧
    c.dlen = 32 ∧
    cursorSlot s c.part (c.arg 0 4) = some (n, q) ∧
    s.pme.pendings.any (·.id == n) = false ∧
    inSled s = false :=
  ⟨wCmd 1 [(0, 4, 1024)] 32, 0, wSlot, wLook, by decide +kernel⟩

theorem wit_PrefixCommands_attach : ∃ (c : Cmd) (i n : Nat) (x : Session) (q : Slot) (h : PrefixHit) (top : Nat × Column) (cols : List (Nat × Column)) (ids : List Nat) (s s₁ s₂ : State),
    Admitted 0x0303 c s ∧
    c.argsOk [(0, 8), (8, 4)] = true ∧
    c.dlen = 0 ∧
    Names c s i x ∧
    cursorSlot s c.part (c.arg 8 4) = some (n, q) ∧
    q.hit = some h ∧
    mayAttach x = true ∧
    x.ident = q.ident ∧
    h.node = s.node ∧
    columnWalk s h.depth h.column = top :: cols ∧
    top.2.gen = h.gen ∧ top.2.page + 1 = h.depth ∧
    cols.length + 1 = h.depth ∧
    (top :: cols).any (fun k => k.2.dead || k.2.bad) = false ∧
    (top :: cols).reverse.foldl (fun (a : Option (State × List Nat)) (k : Nat × Column) =>
     a.bind fun (s, l) => (unfoldColumn k.1 s).map fun (j, s) => (s, l ++ [j])) (some (s, [])) = some (s₁, ids) ∧
    addRefs (((ids.filterMap fun j => tget s₁.pme.columns j).map fun k => k.handles.zipIdx.map fun (e : Nat × Nat) => (mapKey e.2 k.page, e.1)).flatten.map (·.2)) s₁ = some s₂ :=
  ⟨wNamed [(8, 4, 1024)], 0, 0, wX, wSlot, { depth := 1, column := 1, gen := 5, home := 0, node := 0, tier := 0 }, (1, wColumn), [], [1], wLook, wLook, (addRefs [1] wLook).getD wLook, by decide +kernel⟩

theorem wit_PrefixCommands_release : ∃ (c : Cmd) (n : Nat) (q : Slot) (s : State),
    Admitted 0x0304 c s ∧
    c.argsOk [(0, 4)] = true ∧
    c.dlen = 0 ∧
    cursorSlot s c.part (c.arg 0 4) = some (n, q) :=
  ⟨wCmd 1 [(0, 4, 1024)], 0, wSlot, wLook, by decide +kernel⟩

theorem wit_PrefixCommands_publish : ∃ (c : Cmd) (i : Nat) (x : Session) (s : State),
    Admitted 0x0305 c s ∧
    c.argsOk [(0, 8), (8, 4)] = true ∧
    c.dlen = 0 ∧
    Names c s i x ∧
    x.relaxed = false :=
  ⟨wNamed [], 0, wX, wIn, by decide +kernel⟩

theorem wit_PrefixCommands_revoke : ∃ (c : Cmd) (k : Column) (s : State),
    Admitted 0x0306 c s ∧
    c.argsOk [(0, 4)] = true ∧
    c.dlen = 0 ∧
    tget s.pme.columns (c.arg 0 4) = some k ∧
    k.part = c.part :=
  ⟨wCmd 1 [(0, 4, 1)], wColumn, wLook, by decide +kernel⟩

theorem wit_PrefixCommands_stale : ∃ (c : Cmd) (s : State),
    Admitted 0x0302 c s ∧
    Admitted 0x0304 c s ∧
    c.argsOk [(0, 4)] = true ∧
    (c.dlen = 32 ∨ c.dlen = 0) ∧
    cursorSlot s c.part (c.arg 0 4) = none :=
  ⟨wCmd 1 [] 32, wIn, by decide +kernel⟩

theorem wit_ConnectionCommands_open : ∃ (c : Cmd) (v id : Nat) (s : State),
    Admitted 0x0501 c s ∧
    c.argsOk [(0, 5)] = true ∧
    c.dlen = 0 ∧
    c.arg 0 4 < 2 ^ 17 ∧
    c.arg 4 1 < 16 ∧
    governing s c.part (c.arg 0 4) (c.arg 4 1) = some v ∧
    findPair s c.part (c.arg 0 4) (c.arg 4 1) = none ∧
    freeConnId s c.part = some id :=
  ⟨wCmd 1 [(0, 4, 1)], wEntry, 0, wAccess, by decide +kernel⟩

theorem wit_ConnectionCommands_again : ∃ (c : Cmd) (v id : Nat) (k : Conn) (s : State),
    Admitted 0x0501 c s ∧
    c.argsOk [(0, 5)] = true ∧
    c.dlen = 0 ∧
    c.arg 0 4 < 2 ^ 17 ∧
    c.arg 4 1 < 16 ∧
    governing s c.part (c.arg 0 4) (c.arg 4 1) = some v ∧
    findPair s c.part (c.arg 0 4) (c.arg 4 1) = some (id, k) ∧
    k.state = .opened :=
  ⟨wCmd 1 [(0, 4, 1)], wEntry, 0, wConn, { wAccess with xfe := wFab.xfe }, by decide +kernel⟩

theorem wit_ConnectionCommands_refused : ∃ (c : Cmd) (s : State),
    Admitted 0x0501 c s ∧
    c.argsOk [(0, 5)] = true ∧
    c.dlen = 0 ∧
    c.arg 0 4 < 2 ^ 17 ∧
    c.arg 4 1 < 16 ∧
    governing s c.part (c.arg 0 4) (c.arg 4 1) = none :=
  ⟨wCmd 1 [(0, 4, 1)], wUp, by decide +kernel⟩

theorem wit_ConnectionCommands_close : ∃ (c : Cmd) (k : Conn) (s : State),
    Admitted 0x0502 c s ∧
    c.argsOk [(0, 4)] = true ∧
    c.dlen = 0 ∧
    c.arg 0 4 < 2 ^ 20 ∧
    tget s.xfe.conns (c.arg 0 4) = some k ∧
    k.part = c.part ∧
    k.state = .opened :=
  ⟨wCmd 1 [], wConn, wFab, by decide +kernel⟩

theorem wit_ConnectionCommands_closeFailed : ∃ (c : Cmd) (k : Conn) (s : State),
    Admitted 0x0502 c s ∧
    c.argsOk [(0, 4)] = true ∧
    c.dlen = 0 ∧
    c.arg 0 4 < 2 ^ 20 ∧
    tget s.xfe.conns (c.arg 0 4) = some k ∧
    k.part = c.part ∧
    k.state = .failed :=
  ⟨wCmd 1 [], { wConn with state := .failed }, { wFab with xfe := { wFab.xfe with conns := [(0, { wConn with state := .failed })] } }, by decide +kernel⟩

theorem wit_ConnectionCommands_closeNone : ∃ (c : Cmd) (s : State),
    Admitted 0x0502 c s ∧
    c.argsOk [(0, 4)] = true ∧
    c.dlen = 0 ∧
    c.arg 0 4 < 2 ^ 20 ∧
    tget s.xfe.conns (c.arg 0 4) = none :=
  ⟨wCmd 1 [(0, 4, 5)], wFab, by decide +kernel⟩

theorem wit_RegionGroupAndWorkCommands_register : ∃ (c : Cmd) (i : Nat) (s : State),
    Admitted 0x0503 c s ∧
    c.argsOk [(0, 3), (4, 4), (8, 8), (0x10, 8)] = true ∧
    c.dlen = 0 ∧
    c.arg 0 1 = 0 ∧
    c.arg 1 1 < 32 ∧
    c.arg 2 1 = 0 ∧
    c.arg 4 4 % 2 ^ 31 < 2 ^ 17 ∧
    c.arg 8 8 < 2 ^ 54 ∧
    c.arg 0x10 8 < 2 ^ 47 ∧
    bits (c.arg 8 8) 52 2 ≤ 1 ∧
    s.inDirect c.part (bits (c.arg 8 8) 52 2) (c.arg 8 8 % 2 ^ 52) (c.arg 0x10 8) = true ∧
    freeRegion s c.part = some i :=
  ⟨wCmd 1 [(1, 1, 3), (0x10, 8, 4096)], 0, wBare, by decide +kernel⟩

theorem wit_RegionGroupAndWorkCommands_revoke : ∃ (c : Cmd) (r : Region) (s : State),
    Admitted 0x0504 c s ∧
    c.argsOk [(0, 5)] = true ∧
    c.dlen = 0 ∧
    c.arg 4 1 ≤ 1 ∧
    ownRegion s c.part (c.arg 0 4) = some r :=
  ⟨wCmd 1 [(0, 4, 65536)], wRegion, wRegions, by decide +kernel⟩

theorem wit_RegionGroupAndWorkCommands_revokeNone : ∃ (c : Cmd) (s : State),
    Admitted 0x0504 c s ∧
    c.argsOk [(0, 5)] = true ∧
    c.dlen = 0 ∧
    c.arg 4 1 ≤ 1 ∧
    ownRegion s c.part (c.arg 0 4) = none :=
  ⟨wCmd 1 [(0, 4, 9)], wRegions, by decide +kernel⟩

theorem wit_RegionGroupAndWorkCommands_group : ∃ (c : Cmd) (s : State),
    Admitted 0x0505 c s ∧
    c.argsOk [(0, 3)] = true ∧
    c.arg 2 1 ≤ 64 ∧
    c.dlen = 16 * c.arg 2 1 ∧
    s.getF (Reg.mgcPbGroupBase c.part) ≤ c.arg 0 2 ∧ c.arg 0 2 < s.getF (Reg.mgcPbGroupBase c.part) + s.getF (Reg.mgcPbGroupCount c.part) ∧
    ((List.range (c.arg 2 1)).map fun i => slice (c.buffer s) (16 * i) 16).all memberOk = true :=
  ⟨wCmd 1 [(2, 1, 1)] 16, wUp.setF (Reg.mgcPbGroupCount 0) 2, by decide +kernel⟩

theorem wit_RegionGroupAndWorkCommands_submit : ∃ (c : Cmd) (id : Nat) (s : State),
    Admitted 0x0506 c s ∧
    c.argsOk [] = true ∧
    c.dlen = 64 ∧
    wreqOk (c.buffer s) = true ∧
    wreqRange s c.part (Wreq.parse (c.buffer s)) = true ∧
    freeWr s c.part = some id :=
  ⟨wCmd 1 [] 64 (10 :: zeros 63), 0, wRegions, by decide +kernel⟩

theorem wit_RegionGroupAndWorkCommands_submitNone : ∃ (c : Cmd) (s : State),
    Admitted 0x0506 c s ∧
    c.argsOk [] = true ∧
    c.dlen = 64 ∧
    wreqOk (c.buffer s) = true ∧
    wreqRange s c.part (Wreq.parse (c.buffer s)) = true ∧
    freeWr s c.part = none :=
  ⟨wCmd 1 [] 64 (10 :: zeros 63), wUp, by decide +kernel⟩

theorem wit_RegionGroupAndWorkCommands_post : ∃ (c : Cmd) (r : Region) (id : Nat) (s : State),
    Admitted 0x0507 c s ∧
    c.argsOk [(0, 4)] = true ∧
    c.dlen = 64 ∧
    wreqOk (c.buffer s) = true ∧
    wreqRange s c.part (Wreq.parse (c.buffer s)) = true ∧
    ownRegion s c.part (c.arg 0 4) = some r ∧
    r.kind = 2 ∧
    freeWr s c.part = some id :=
  ⟨wCmd 1 [(0, 4, 131073)] 64 (10 :: zeros 63), { wRegion with tag := 2, kind := 2, rights := 16 }, 0, wRegions, by decide +kernel⟩

theorem wit_RegionRevocation_step : ∃ (i : Nat) (free expert : Bool) (cmd : Option Cmd) (r : Region) (s : State),
    tget s.xfe.regions i = some r ∧
    r.inflight ≠ 0 :=
  ⟨0, false, false, none, { wRegion with inflight := 1 }, { wUp with xfe := { wUp.xfe with regions := [(0, { wRegion with inflight := 1 })] } }, by decide +kernel⟩

theorem wit_RegionRevocation_stepAtOnce : ∃ (i : Nat) (free expert : Bool) (cmd : Option Cmd) (r : Region) (s : State),
    tget s.xfe.regions i = some r ∧
    r.inflight = 0 :=
  ⟨0, false, false, none, wRegion, wRegions, by decide +kernel⟩

theorem wit_RegionRevocation_drained : ∃ (i : Nat) (r : Region) (s : State),
    Live s ∧
    tget s.xfe.regions i = some r ∧
    r.state = .draining ∧
    r.inflight = 0 ∧
    r.revoke = none ∧
    r.expert = false :=
  ⟨0, { wRegion with state := .draining }, { wUp with xfe := { wUp.xfe with regions := [(0, { wRegion with state := .draining })] } }, by decide +kernel⟩

theorem wit_RegionRevocation_retired : ∃ (i : Nat) (r : Region) (s : State),
    Live s ∧
    tget s.xfe.regions i = some r ∧
    r.state = .retiring :=
  ⟨0, { wRegion with state := .retiring }, { wUp with xfe := { wUp.xfe with regions := [(0, { wRegion with state := .retiring })] } }, by decide +kernel⟩

theorem wit_RegionRevocation_expert : ∃ (via i : Nat) (r : Region) (s : State),
    s.expertOpen pXfe via = true ∧
    s.flag Reg.xfeRegionStatBusy = false ∧
    i < 65536 ∧
    tget s.xfe.regions i = some r ∧
    s.expertObject pXfe via r.part = true ∧
    r.state = .valid ∧
    r.system = false :=
  ⟨0, 0, wRegion, wExpert pXfe wRegions, by decide +kernel⟩

theorem wit_RegionRevocation_expertFree : ∃ (via i : Nat) (s : State),
    s.expertOpen pXfe via = true ∧
    s.flag Reg.xfeRegionStatBusy = false ∧
    i < 65536 ∧
    tget s.xfe.regions i = none :=
  ⟨0, 9, wExpert pXfe wRegions, by decide +kernel⟩

theorem wit_TransportTimers_connectTimeout : ∃ (id : Nat) (k : Conn) (s : State),
    Live s ∧
    tget s.xfe.conns id = some k ∧
    k.state = .opening :=
  ⟨0, { wConn with state := .opening }, wConnIn { wConn with state := .opening }, by decide +kernel⟩

theorem wit_TransportTimers_closeTimeout : ∃ (id : Nat) (k : Conn) (s : State),
    Live s ∧
    tget s.xfe.conns id = some k ∧
    k.state = .closing ∧
    k.closeSent = true :=
  ⟨0, { wConn with state := .closing, closeSent := true }, wConnIn { wConn with state := .closing, closeSent := true }, by decide +kernel⟩

theorem wit_TransportTimers_dead : ∃ (id : Nat) (k : Conn) (s : State),
    Live s ∧
    tget s.xfe.conns id = some k ∧
    k.unacked ≠ 0 :=
  ⟨0, wSending, wConnIn wSending, by decide +kernel⟩

theorem wit_TransportTimers_fails : ∃ (id : Nat) (k : Conn) (s : State),
    tget s.xfe.conns id = some k ∧
    k.state = .opened ∧
    k.tx = [] ∧
    k.cmd = none ∧
    k.spilled = false :=
  ⟨0, wConn, wFab, by decide +kernel⟩

theorem wit_TransportTimers_again : ∃ (id seq index : Nat) (k : Conn) (s : State),
    Live s ∧
    tget s.xfe.conns id = some k ∧
    k.state = .opening :=
  ⟨0, 0, 0, { wConn with state := .opening }, wConnIn { wConn with state := .opening }, by decide +kernel⟩

theorem wit_TransportTimers_packetAgain : ∃ (id seq index : Nat) (k : Conn) (s : State),
    Live s ∧
    tget s.xfe.conns id = some k ∧
    k.state ≠ .opening ∧
    k.sends s = true ∧
    k.tx.any (fun m => m.seq == seq && !m.acked && !(msgPorts s k m).isEmpty && m.pkts.any fun p => p.index == index && p.left && !p.queued && !p.acked) = true :=
  ⟨0, 0, 0, wSendingPeer, wSendingNet, by decide +kernel⟩

theorem wit_TransportTimers_ackDelay : ∃ (id seq : Nat) (k : Conn) (t : Tracker) (s : State),
    Live s ∧
    tget s.xfe.conns id = some k ∧
    tget k.trackers seq = some t ∧
    t.sinceAck ≠ 0 :=
  ⟨0, 0, { wConn with trackers := [(0, wTracker)] }, wTracker, (wConnIn { wConn with trackers := [(0, wTracker)] }).setF (Reg.xfePortState 2) 4, by decide +kernel⟩

theorem wit_TransportTimers_deadTarget : ∃ (req w : Nat) (q : Request) (s : State),
    Live s ∧
    tget s.xfe.requests req = some q ∧
    q.what = .tailFlush w :=
  ⟨4, 0, { conn := 0, op := 10, what := .tailFlush 0 }, { wFab with xfe := { wFab.xfe with requests := [(4, { conn := 0, op := 10, what := .tailFlush 0 })] } }, by decide +kernel⟩

theorem wit_TransportTimers_spillLost : ∃ (id : Nat) (k : Conn) (s : State),
    Live s ∧
    tget s.xfe.conns id = some k ∧
    s.xfe.fetching.contains id = true ∧
    k.spilled = true ∧
    k.state ≠ .failed :=
  ⟨0, { wConn with spilled := true }, { wConnIn { wConn with spilled := true } with xfe := { (wConnIn { wConn with spilled := true }).xfe with fetching := [0] } }, by decide +kernel⟩

theorem wit_TransportTimers_spillBack : ∃ (id : Nat) (k : Conn) (b : List Byte) (s : State),
    Live s ∧
    tget s.xfe.conns id = some k ∧
    s.xfe.fetching.contains id = true ∧
    k.spilled = true ∧
    k.state ≠ .failed ∧
    b.length = 64 ∧
    slice b 0x3C 4 = shake256 (b.take 0x3C) 4 :=
  ⟨0, { wConn with spilled := true }, zeros 0x3C ++ shake256 (zeros 0x3C) 4, { wConnIn { wConn with spilled := true } with xfe := { (wConnIn { wConn with spilled := true }).xfe with fetching := [0] } }, by decide +kernel⟩

theorem wit_TransportTimers_left : ∃ (id seq : Nat) (k : Conn) (m : TxMsg) (s : State),
    Live s ∧
    tget s.xfe.conns id = some k ∧
    k.tx.find? (·.seq == seq) = some m ∧
    m.completed = false ∧
    m.count ≤ m.pkts.length ∧
    m.pkts.all (fun p => p.left || p.acked) = true ∧
    opLeaves m.op = true ∧
    m.work = none :=
  ⟨0, 0, wSending, wMsg, wConnIn wSending, by decide +kernel⟩

theorem wit_TransportTimers_trigger : ∃ (i ns : Nat) (r : Region) (t : Trig) (l : List Trig) (s : State),
    Live s ∧
    tget s.xfe.regions i = some r ∧
    r.queue = t :: l ∧
    r.wheel = none :=
  ⟨1, 0, wTrigger, { conn := 0, inc := 3, payload := [] }, [], { wFab with xfe := { wFab.xfe with regions := [(1, wTrigger)] } }, by decide +kernel⟩

theorem wit_TransportTimers_connectAgain : ∃ (id seq index : Nat) (k : Conn) (s : State),
    Live s ∧
    tget s.xfe.conns id = some k ∧
    k.state = .opening :=
  ⟨0, 0, 0, { wConn with state := .opening }, wConnIn { wConn with state := .opening }, by decide +kernel⟩

theorem wit_TransportTimers_noPort : ∃ (id seq index : Nat) (k : Conn) (s : State),
    Live s ∧
    tget s.xfe.conns id = some k ∧
    k.state ≠ .opening ∧
    (k.sends s = false ∨ (k.tx.all (fun m => m.seq != seq || m.acked || (msgPorts s k m).isEmpty) = true ∧ k.ctlSent.find? (·.psn == some seq) = none)) :=
  ⟨0, 0, 0, wSending, wConnIn wSending, by decide +kernel⟩

theorem wit_TransportTimers_controlAgain : ∃ (id seq index : Nat) (k : Conn) (q : CtlPkt) (s : State),
    Live s ∧
    tget s.xfe.conns id = some k ∧
    k.state ≠ .opening ∧
    k.tx.all (fun m => m.seq != seq || m.acked) = true ∧
    k.ctlSent.find? (·.psn == some seq) = some q ∧
    k.sends s = true ∧
    (s.upPorts k.node).isEmpty = false ∧
    ((tkeys s.xfe.ctl).any fun p => (tgetD s.xfe.ctl p []).any fun w => w.conn == q.conn && w.psn == q.psn) = false :=
  ⟨0, 0, 0, wClosing, wUncovered, { wNet with xfe := { wNet.xfe with conns := [(0, wClosing)] } }, by decide +kernel⟩

theorem wit_LinkBringUp_detect : ∃ (port lanes : Nat) (s : State),
    Live s ∧
    port < 8 ∧
    s.getF (Reg.xfePortState port) = portDetect ∧
    ((lanes = 8 ∧ halfPort s port = false) ∨ lanes = 4) :=
  ⟨2, 8, wPort 1, by decide +kernel⟩

theorem wit_LinkBringUp_trained : ∃ (port : Nat) (s : State),
    Live s ∧
    port < 8 ∧
    s.getF (Reg.xfePortState port) = portTrain :=
  ⟨2, wPort 2, by decide +kernel⟩

theorem wit_LinkBringUp_timeout : ∃ (port : Nat) (s : State),
    Live s ∧
    port < 8 ∧
    s.getF (Reg.xfePortState port) = portTrain :=
  ⟨2, wPort 2, by decide +kernel⟩

theorem wit_LinkBringUp_up : ∃ (port gen : Nat) (s : State),
    Live s ∧
    port < 8 ∧
    s.getF (Reg.xfePortState port) = portConfig ∧
    (gen = 1 ∨ gen = 2) :=
  ⟨2, 1, wPort 3, by decide +kernel⟩

theorem wit_LinkBringUp_down : ∃ (port fec : Nat) (s : State),
    Live s ∧
    port < 8 ∧
    s.upPort port = true :=
  ⟨2, 3, wPort 4, by decide +kernel⟩

theorem wit_LinkBringUp_enable : ∃ (port : Nat) (s : State),
    s.fnShown 0 = true ∧
    s.mgc.off = false ∧
    port < 8 ∧
    (s.setF (Reg.xfePortEn port) 1).getF (Reg.xfePortState port) = 0 ∧
    1 ≤ (s.setF (Reg.xfePortEn port) 1).getF Reg.mgcBootStage ∧
    (s.setF (Reg.xfePortEn port) 1).running = true :=
  ⟨2, (wPort 0).setF Reg.mgcBootStage 2, by decide +kernel⟩

theorem wit_LinkBringUp_disable : ∃ (port : Nat) (s : State),
    s.fnShown 0 = true ∧
    s.mgc.off = false ∧
    port < 8 :=
  ⟨2, wPort 4, by decide +kernel⟩

theorem wit_NodeNumbersAndRoutes_assign : ∃ (port node fm epoch : Nat) (s : State),
    fmHeard s port = true ∧
    node < 2 ^ 17 ∧
    epoch < 2 ^ 32 ∧
    s.getF Reg.xfeFmEpoch < epoch :=
  ⟨2, 5, 1, 9, wPort 4, by decide +kernel⟩

theorem wit_NodeNumbersAndRoutes_conflict : ∃ (port node fm epoch : Nat) (s : State),
    fmHeard s port = true ∧
    node < 2 ^ 17 ∧
    epoch < 2 ^ 32 ∧
    s.getF Reg.xfeFmEpoch = epoch ∧
    node ≠ s.node :=
  ⟨2, 5, 1, 0, wPort 4, by decide +kernel⟩

theorem wit_NodeNumbersAndRoutes_stale : ∃ (port node fm epoch : Nat) (s : State),
    (epoch < s.getF Reg.xfeFmEpoch ∨ fmHeard s port = false) :=
  ⟨2, 5, 1, 0, wUp, by decide +kernel⟩

theorem wit_NodeNumbersAndRoutes_join : ∃ (port node uid : Nat) (s : State),
    fmHeard s port = true :=
  ⟨2, 5, 77, wPort 4, by decide +kernel⟩

theorem wit_NodeNumbersAndRoutes_depart : ∃ (port node uid : Nat) (s : State),
    fmHeard s port = true :=
  ⟨2, 5, 77, wPort 4, by decide +kernel⟩

theorem wit_NodeNumbersAndRoutes_route : ∃ (port first last mask epoch : Nat) (s : State),
    fmHeard s port = true ∧
    epoch = s.getF Reg.xfeFmEpoch ∧
    first ≤ last ∧
    last < 2 ^ 17 ∧
    mask < 256 :=
  ⟨2, 3, 9, 15, 0, wPort 4, by decide +kernel⟩

theorem wit_NodeNumbersAndRoutes_static : ∃ (node : Nat) (s : State),
    s.fnShown 0 = true ∧
    s.mgc.off = false ∧
    s.nodeValid = false ∧
    node < 2 ^ 17 :=
  ⟨6, wUp, by decide +kernel⟩

theorem wit_NodeNumbersAndRoutes_staticLate : ∃ (via st node : Nat) (s : State),
    (via ≠ 0 ∨ s.nodeValid = true) :=
  ⟨0, 1, 6, wUp.setF Reg.xfeNodeValid 1, by decide +kernel⟩

theorem wit_NodeNumbersAndRoutes_routeRead : ∃ (first : Nat) (s : State),
    s.expertDevice pXfe 0 = true ∧
    s.flag Reg.xfeRouteStatBusy = false ∧
    first < 2 ^ 17 :=
  ⟨4, wExpert pXfe wUp, by decide +kernel⟩

theorem wit_NodeNumbersAndRoutes_routeWrite : ∃ (first last mask : Nat) (s : State),
    s.fnShown 0 = true ∧
    s.expertDevice pXfe 0 = true ∧
    s.flag Reg.xfeRouteStatBusy = false ∧
    first ≤ last ∧
    last < 2 ^ 17 ∧
    mask < 256 :=
  ⟨3, 9, 15, wExpert pXfe wUp, by decide +kernel⟩

theorem wit_NodeNumbersAndRoutes_record : ∃ (via id : Nat) (s : State),
    connExpert s via id = true :=
  ⟨0, 3, wExpert pXfe wUp, by decide +kernel⟩

theorem wit_NodeNumbersAndRoutes_fail : ∃ (via id : Nat) (s : State),
    connExpert s via id = true :=
  ⟨0, 0, wExpert pXfe wFab, by decide +kernel⟩

theorem wit_DataPacketsPassTheChecks_write : ∃ (port : Nat) (fill : Nat) (raw p : List Byte) (c₁ c : Conn) (s : State),
    Arrives 1 port raw s ∧
    OnConn port raw fill c₁ s ∧
    Passes raw p c (touched port raw s) ∧
    (let v := taken raw c (touched port raw s)
   let c' := tgetD v.xfe.conns (PktHdr.parse raw).conn c
   beginAccess (.fabric port raw) (placeLines v c' (PktHdr.parse raw)).1 (placeLines v c' (PktHdr.parse raw)).2 v = none ∧
   openPayload v c'.part (PktHdr.parse raw) raw = some p) :=
  ⟨2, 0, (wPkt { op := 1, flags := 1, dst := 0, src := 1, conn := 0, rkey := 65536, rgen := 1 } ([1, 2, 3, 4])), [1, 2, 3, 4], wPeer, { wPeer with used := 0 }, wNet, by decide +kernel⟩

theorem wit_DataPacketsPassTheChecks_readReq : ∃ (port : Nat) (fill : Nat) (raw p : List Byte) (c₁ c : Conn) (s : State),
    Arrives 2 port raw s ∧
    OnConn port raw fill c₁ s ∧
    Passes raw p c (touched port raw s) ∧
    (let v := taken raw c (touched port raw s)
   let c' := tgetD v.xfe.conns (PktHdr.parse raw).conn c
   beginAccess (.fabric port raw) (placeLines v c' (PktHdr.parse raw)).1 (placeLines v c' (PktHdr.parse raw)).2 v = none ∧
   openPayload v c'.part (PktHdr.parse raw) raw = some p) :=
  ⟨2, 0, (wPkt { op := 2, flags := 1, dst := 0, src := 1, conn := 0, rkey := 65536, rgen := 1, arg := leBytes 8 0 ++ leBytes 4 4 } []), [], wPeer, { wPeer with used := 0 }, wNet, by decide +kernel⟩

theorem wit_DataPacketsPassTheChecks_readResp : ∃ (port : Nat) (fill : Nat) (raw p : List Byte) (c₁ c : Conn) (s : State),
    Arrives 3 port raw s ∧
    OnConn port raw fill c₁ s ∧
    Passes raw p c (touched port raw s) ∧
    (let v := taken raw c (touched port raw s)
   let c' := tgetD v.xfe.conns (PktHdr.parse raw).conn c
   beginAccess (.fabric port raw) (placeLines v c' (PktHdr.parse raw)).1 (placeLines v c' (PktHdr.parse raw)).2 v = none ∧
   openPayload v c'.part (PktHdr.parse raw) raw = some p) :=
  ⟨2, 0, (wPkt { op := 3, flags := 1, dst := 0, src := 1, conn := 0 } ([1, 2, 3, 4])), [1, 2, 3, 4], wPeer, { wPeer with used := 0 }, wNet, by decide +kernel⟩

theorem wit_DataPacketsPassTheChecks_atomic : ∃ (port : Nat) (fill : Nat) (raw p : List Byte) (c₁ c : Conn) (s : State),
    Arrives 4 port raw s ∧
    OnConn port raw fill c₁ s ∧
    Passes raw p c (touched port raw s) ∧
    (let v := taken raw c (touched port raw s)
   let c' := tgetD v.xfe.conns (PktHdr.parse raw).conn c
   beginAccess (.fabric port raw) (placeLines v c' (PktHdr.parse raw)).1 (placeLines v c' (PktHdr.parse raw)).2 v = none ∧
   openPayload v c'.part (PktHdr.parse raw) raw = some p) :=
  ⟨2, 0, (wPkt { op := 4, flags := 1, dst := 0, src := 1, conn := 0, rkey := 65536, rgen := 1, arg := leBytes 1 1 } (leBytes 8 5)), leBytes 8 5, wPeer, { wPeer with used := 0 }, wNet, by decide +kernel⟩

theorem wit_DataPacketsPassTheChecks_atomicResp : ∃ (port : Nat) (fill : Nat) (raw p : List Byte) (c₁ c : Conn) (s : State),
    Arrives 5 port raw s ∧
    OnConn port raw fill c₁ s ∧
    Passes raw p c (touched port raw s) ∧
    (let v := taken raw c (touched port raw s)
   let c' := tgetD v.xfe.conns (PktHdr.parse raw).conn c
   beginAccess (.fabric port raw) (placeLines v c' (PktHdr.parse raw)).1 (placeLines v c' (PktHdr.parse raw)).2 v = none ∧
   openPayload v c'.part (PktHdr.parse raw) raw = some p) :=
  ⟨2, 0, (wPkt { op := 5, flags := 1, dst := 0, src := 1, conn := 0 } []), [], wPeer, { wPeer with used := 0 }, wNet, by decide +kernel⟩

theorem wit_DataPacketsPassTheChecks_cas : ∃ (port : Nat) (fill : Nat) (raw p : List Byte) (c₁ c : Conn) (s : State),
    Arrives 6 port raw s ∧
    OnConn port raw fill c₁ s ∧
    Passes raw p c (touched port raw s) ∧
    (let v := taken raw c (touched port raw s)
   let c' := tgetD v.xfe.conns (PktHdr.parse raw).conn c
   beginAccess (.fabric port raw) (placeLines v c' (PktHdr.parse raw)).1 (placeLines v c' (PktHdr.parse raw)).2 v = none ∧
   openPayload v c'.part (PktHdr.parse raw) raw = some p) :=
  ⟨2, 0, (wPkt { op := 6, flags := 1, dst := 0, src := 1, conn := 0, rkey := 65536, rgen := 1, arg := zeros 12 ++ leBytes 1 8 } (leBytes 8 5)), leBytes 8 5, wPeer, { wPeer with used := 0 }, wNet, by decide +kernel⟩

theorem wit_DataPacketsPassTheChecks_casResp : ∃ (port : Nat) (fill : Nat) (raw p : List Byte) (c₁ c : Conn) (s : State),
    Arrives 7 port raw s ∧
    OnConn port raw fill c₁ s ∧
    Passes raw p c (touched port raw s) ∧
    (let v := taken raw c (touched port raw s)
   let c' := tgetD v.xfe.conns (PktHdr.parse raw).conn c
   beginAccess (.fabric port raw) (placeLines v c' (PktHdr.parse raw)).1 (placeLines v c' (PktHdr.parse raw)).2 v = none ∧
   openPayload v c'.part (PktHdr.parse raw) raw = some p) :=
  ⟨2, 0, (wPkt { op := 7, flags := 1, dst := 0, src := 1, conn := 0 } []), [], wPeer, { wPeer with used := 0 }, wNet, by decide +kernel⟩

theorem wit_DataPacketsPassTheChecks_mcastWrite : ∃ (port : Nat) (fill : Nat) (raw p : List Byte) (c₁ c : Conn) (s : State),
    Arrives 8 port raw s ∧
    OnConn port raw fill c₁ s ∧
    Passes raw p c (touched port raw s) ∧
    (let v := taken raw c (touched port raw s)
   let c' := tgetD v.xfe.conns (PktHdr.parse raw).conn c
   beginAccess (.fabric port raw) (placeLines v c' (PktHdr.parse raw)).1 (placeLines v c' (PktHdr.parse raw)).2 v = none ∧
   openPayload v c'.part (PktHdr.parse raw) raw = some p) :=
  ⟨2, 0, (wPkt { op := 8, flags := 1, dst := 0, src := 1, conn := 0, rkey := 65536, rgen := 1 } ([1, 2, 3, 4])), [1, 2, 3, 4], wPeer, { wPeer with used := 0 }, wNet, by decide +kernel⟩

theorem wit_DataPacketsPassTheChecks_reduce : ∃ (port : Nat) (fill : Nat) (raw p : List Byte) (c₁ c : Conn) (s : State),
    Arrives 9 port raw s ∧
    OnConn port raw fill c₁ s ∧
    Passes raw p c (touched port raw s) ∧
    (let v := taken raw c (touched port raw s)
   let c' := tgetD v.xfe.conns (PktHdr.parse raw).conn c
   beginAccess (.fabric port raw) (placeLines v c' (PktHdr.parse raw)).1 (placeLines v c' (PktHdr.parse raw)).2 v = none ∧
   openPayload v c'.part (PktHdr.parse raw) raw = some p) :=
  ⟨2, 0, (wPkt { op := 9, flags := 1, dst := 0, src := 1, conn := 0, rkey := 65536, rgen := 1, arg := zeros 12 ++ leBytes 1 1 } (leBytes 4 5)), leBytes 4 5, wPeer, { wPeer with used := 0 }, wNet, by decide +kernel⟩

theorem wit_DataPacketsPassTheChecks_flush : ∃ (port : Nat) (fill : Nat) (raw p : List Byte) (c₁ c : Conn) (s : State),
    Arrives 10 port raw s ∧
    OnConn port raw fill c₁ s ∧
    Passes raw p c (touched port raw s) ∧
    (let v := taken raw c (touched port raw s)
   let c' := tgetD v.xfe.conns (PktHdr.parse raw).conn c
   beginAccess (.fabric port raw) (placeLines v c' (PktHdr.parse raw)).1 (placeLines v c' (PktHdr.parse raw)).2 v = none ∧
   openPayload v c'.part (PktHdr.parse raw) raw = some p) :=
  ⟨2, 0, (wPkt { op := 10, flags := 1, dst := 0, src := 1, conn := 0 } []), [], wPeer, { wPeer with used := 0 }, wNet, by decide +kernel⟩

theorem wit_DataPacketsPassTheChecks_flushResp : ∃ (port : Nat) (fill : Nat) (raw p : List Byte) (c₁ c : Conn) (s : State),
    Arrives 11 port raw s ∧
    OnConn port raw fill c₁ s ∧
    Passes raw p c (touched port raw s) ∧
    (let v := taken raw c (touched port raw s)
   let c' := tgetD v.xfe.conns (PktHdr.parse raw).conn c
   beginAccess (.fabric port raw) (placeLines v c' (PktHdr.parse raw)).1 (placeLines v c' (PktHdr.parse raw)).2 v = none ∧
   openPayload v c'.part (PktHdr.parse raw) raw = some p) :=
  ⟨2, 0, (wPkt { op := 11, flags := 1, dst := 0, src := 1, conn := 0 } []), [], wPeer, { wPeer with used := 0 }, wNet, by decide +kernel⟩

theorem wit_DataPacketsPassTheChecks_trigger : ∃ (port : Nat) (fill : Nat) (raw p : List Byte) (c₁ c : Conn) (s : State),
    Arrives 12 port raw s ∧
    OnConn port raw fill c₁ s ∧
    Passes raw p c (touched port raw s) ∧
    (let v := taken raw c (touched port raw s)
   let c' := tgetD v.xfe.conns (PktHdr.parse raw).conn c
   beginAccess (.fabric port raw) (placeLines v c' (PktHdr.parse raw)).1 (placeLines v c' (PktHdr.parse raw)).2 v = none ∧
   openPayload v c'.part (PktHdr.parse raw) raw = some p) :=
  ⟨2, 0, (wPkt { op := 12, flags := 1, dst := 0, src := 1, conn := 0, rkey := 131073, rgen := 1, arg := zeros 4 ++ leBytes 4 1 } []), [], wPeer, { wPeer with used := 0 }, wNet, by decide +kernel⟩

theorem wit_PacketEffects_write : ∃ (id port : Nat) (c : Conn) (h : PktHdr) (p : List Byte) (r : Region) (s : State),
    memsOk s ∧
    (h.op = 1 ∨ h.op = 8) ∧
    tget s.xfe.regions (keyIndex h.rkey) = some r ∧
    r.kind = 0 ∧
    r.tier < 2 ∧
    s.inDirect r.part r.tier (r.base + h.addr) p.length = true ∧
    (r.tier = 0 → s.getF (Reg.mgcPbExtentDirect4k r.part 0) * 4096 ≤ 48 * gib) ∧
    s.directPoisoned r.part r.tier (r.base + h.addr) p.length = [] :=
  ⟨0, 2, wPeer, { op := 1, dst := 0, src := 1, rkey := 65536 }, [1, 2, 3, 4], { wRegion with rights := 31 }, wNet, by decide +kernel⟩

theorem wit_PacketEffects_read : ∃ (id port : Nat) (c : Conn) (h : PktHdr) (p : List Byte) (r : Region) (s : State),
    h.op = 2 ∧
    tget s.xfe.regions (keyIndex h.rkey) = some r :=
  ⟨0, 2, wPeer, { op := 2, dst := 0, src := 1, rkey := 65536 }, [], { wRegion with rights := 31 }, wNet, by decide +kernel⟩

theorem wit_PacketEffects_atomic : ∃ (id port : Nat) (c : Conn) (h : PktHdr) (p : List Byte) (r : Region) (s : State),
    h.op = 4 ∧
    tget s.xfe.regions (keyIndex h.rkey) = some r ∧
    wordBad r (typeSize (h.argAt 0 1)) s (r.base + h.addr) = false :=
  ⟨0, 2, wPeer, { op := 4, dst := 0, src := 1, rkey := 65536 }, [], { wRegion with rights := 31 }, wNet, by decide +kernel⟩

theorem wit_PacketEffects_cas : ∃ (id port : Nat) (c : Conn) (h : PktHdr) (p : List Byte) (r : Region) (s : State),
    h.op = 6 ∧
    tget s.xfe.regions (keyIndex h.rkey) = some r ∧
    wordBad r (h.argAt 12 1) s (r.base + h.addr) = false :=
  ⟨0, 2, wPeer, wCasHdr, [], { wRegion with rights := 31 }, wNet, by decide +kernel⟩

theorem wit_PacketEffects_held : ∃ (id port : Nat) (c k : Conn) (h : PktHdr) (p : List Byte) (s : State),
    (h.op = 10 ∨ h.op = 12) ∧
    tget s.xfe.conns id = some k :=
  ⟨0, 2, wPeer, wPeer, { op := 10, dst := 0, src := 1 }, [], wNet, by decide +kernel⟩

theorem wit_PacketEffects_resp : ∃ (id port : Nat) (c : Conn) (h : PktHdr) (p : List Byte) (q : Request) (s : State),
    h.op = 3 ∧
    tget s.xfe.requests (h.argAt 0 4) = some q ∧
    q.conn = id ∧
    q.op = 2 ∧
    q.ofLoad = false ∧
    h.addr + h.len ≤ q.len ∧
    bit h.flags flPoison = false :=
  ⟨0, 2, wPeer, { op := 3, dst := 0, src := 1 }, [], { conn := 0, op := 2, what := .work 0, len := 8 }, { wNet with xfe := { wNet.xfe with requests := [(0, { conn := 0, op := 2, what := .work 0, len := 8 })] } }, by decide +kernel⟩

theorem wit_PacketEffects_nothing : ∃ (id port : Nat) (c : Conn) (h : PktHdr) (p : List Byte) (s : State),
    (h.op = 5 ∨ h.op = 7 ∨ h.op = 11) :=
  ⟨0, 2, wPeer, { op := 5, dst := 0, src := 1 }, [], wNet, by decide +kernel⟩

theorem wit_PacketEffects_loadResp : ∃ (id port : Nat) (c : Conn) (h : PktHdr) (p : List Byte) (q : Request) (s : State),
    h.op = 3 ∧
    tget s.xfe.requests (h.argAt 0 4) = some q ∧
    q.conn = id ∧
    q.op = 2 ∧
    q.ofLoad = true ∧
    h.addr + h.len ≤ q.len ∧
    bit h.flags flPoison = false :=
  ⟨0, 2, wPeer, { op := 3, dst := 0, src := 1 }, [], { conn := 0, op := 2, what := .remoteLoad 0 0, len := 8 }, { wNet with xfe := { wNet.xfe with requests := [(0, { conn := 0, op := 2, what := .remoteLoad 0 0, len := 8 })] } }, by decide +kernel⟩

theorem wit_PacketEffects_atomicBad : ∃ (id port : Nat) (c : Conn) (h : PktHdr) (p : List Byte) (r : Region) (s : State),
    h.op = 4 ∧
    tget s.xfe.regions (keyIndex h.rkey) = some r ∧
    wordBad r (typeSize (h.argAt 0 1)) s (r.base + h.addr) = true :=
  ⟨0, 2, wPeer, { op := 4, dst := 0, src := 1, rkey := 65536 }, [], wPoisonRegion, wPoisonNet, by decide +kernel⟩

theorem wit_PacketEffects_casBad : ∃ (id port : Nat) (c : Conn) (h : PktHdr) (p : List Byte) (r : Region) (s : State),
    h.op = 6 ∧
    tget s.xfe.regions (keyIndex h.rkey) = some r ∧
    wordBad r (h.argAt 12 1) s (r.base + h.addr) = true :=
  ⟨0, 2, wPeer, wCasHdr, [], wPoisonRegion, wPoisonNet, by decide +kernel⟩

theorem wit_ConnectionsAndRefusals_connect : ∃ (port id v : Nat) (raw p : List Byte) (fill : Nat) (s : State),
    Arrives 0x72 port raw s ∧
    fieldsOk { PktHdr.parse raw with psn := 0 } true true = true ∧
    (PktHdr.parse raw).len = 64 ∧
    (PktHdr.parse raw).isSealed = false ∧
    crcOk (PktHdr.parse raw) raw = true ∧
    p = pktBody (PktHdr.parse raw) raw ∧
    connPayloadOk p = true ∧
    (heard port s).isProtected (fieldAt p 0xF 1 / 16) = false ∧
    (let u := uidChange (PktHdr.parse raw).src (fieldAt p 0 8) (heard port s)
   findPair u (fieldAt p 0xF 1 / 16) (PktHdr.parse raw).src (fieldAt p 0xF 1 % 16) = none ∧ governing u (fieldAt p 0xF 1 / 16) (PktHdr.parse raw).src (fieldAt p 0xF 1 % 16) = some v ∧
   freeConnId u (fieldAt p 0xF 1 / 16) = some id ∧ (makeRoom u).pstate (fieldAt p 0xF 1 / 16) = psActive ∧ (makeRoom u).resident < onChip) :=
  ⟨2, 0, wEntry, (wPkt { op := 0x72, flags := 1, dst := 0, src := 1 } wHello), wHello, 0, (wPort 4).setF Reg.xfeNodeValid 1 |>.setF (Reg.mgcPbPeer 0 0) wEntry |>.setF (Reg.mgcPbConnCount 0) 4, by decide +kernel⟩

theorem wit_ConnectionsAndRefusals_accept : ∃ (port : Nat) (raw p : List Byte) (fill : Nat) (c : Conn) (k : Cmd) (s : State),
    Arrives 0x73 port raw s ∧
    tget (heard port s).xfe.conns (PktHdr.parse raw).conn = some c ∧
    c.node = (PktHdr.parse raw).src ∧
    c.state = .opening ∧
    c.spilled = false ∧
    (heard port s).cgenOf (PktHdr.parse raw).conn = (PktHdr.parse raw).cgen ∧
    fill ≤ (heard port s).getF Reg.xfeCcMarkThresh ∧
    bit (PktHdr.parse raw).flags flCm = false ∧
    fieldsOk (PktHdr.parse raw) false ((PktHdr.parse raw).version == 2) = true ∧
    (heard port s).isProtected c.part = false ∧
    crcOk (PktHdr.parse raw) raw = true ∧
    openPayload (heard port s) c.part (PktHdr.parse raw) raw = some p ∧
    connPayloadOk p = true ∧
    (PktHdr.parse raw).version = (if fieldAt p 0xE 1 = 2 then 2 else 1) ∧
    c.cmd = some k :=
  ⟨2, (wPkt { op := 0x73, flags := 1, dst := 0, src := 1 } wHello), wHello, 0, wOpening, wCmd 1 [], { wNet with xfe := { wNet.xfe with conns := [(0, wOpening)] } }, by decide +kernel⟩

theorem wit_ConnectionsAndRefusals_close : ∃ (port q : Nat) (raw p : List Byte) (fill : Nat) (c₁ c : Conn) (s : State),
    Arrives 0x74 port raw s ∧
    OnConn port raw fill c₁ s ∧
    c.state = .opened ∧
    CtlPasses raw p c (touched port raw s) ∧
    answerPort (ctlTaken raw c (touched port raw s)) port c.node = some q :=
  ⟨2, 2, (wPkt { op := 0x74, flags := 1, dst := 0, src := 1 } []), [], 0, wPeer, { wPeer with used := 0 }, wNet, by decide +kernel⟩

theorem wit_ConnectionsAndRefusals_closeAck : ∃ (port : Nat) (raw p : List Byte) (fill : Nat) (c₁ c : Conn) (s : State),
    Arrives 0x75 port raw s ∧
    OnConn port raw fill c₁ s ∧
    c.state = .closing ∧
    c.closeSent = true ∧
    CtlPasses raw p c (touched port raw s) :=
  ⟨2, (wPkt { op := 0x75, flags := 1, dst := 0, src := 1 } []), [], 0, { wPeer with state := .closing, closeSent := true }, { wPeer with state := .closing, closeSent := true }, { wNet with xfe := { wNet.xfe with conns := [(0, { wPeer with state := .closing, closeSent := true })] } }, by decide +kernel⟩

theorem wit_ConnectionsAndRefusals_ack : ∃ (port : Nat) (raw p : List Byte) (fill : Nat) (c₁ c : Conn) (s : State),
    Arrives 0x70 port raw s ∧
    OnConn port raw fill c₁ s ∧
    CtlPasses raw p c (touched port raw s) :=
  ⟨2, (wPkt { op := 0x70, flags := 1, dst := 0, src := 1 } (zeros 40)), zeros 40, 0, wPeer, { wPeer with used := 0 }, wNet, by decide +kernel⟩

theorem wit_ConnectionsAndRefusals_nak : ∃ (port : Nat) (raw p : List Byte) (fill : Nat) (c : Conn) (s : State),
    Arrives 0x71 port raw s ∧
    fieldsOk (PktHdr.parse raw) true ((PktHdr.parse raw).version == 2) = true ∧
    (PktHdr.parse raw).isSealed = false ∧
    crcOk (PktHdr.parse raw) raw = true ∧
    tget (heard port s).xfe.conns (PktHdr.parse raw).conn = some c ∧
    c.node = (PktHdr.parse raw).src ∧
    c.state = .opening ∧
    c.spilled = false ∧
    (heard port s).cgenOf (PktHdr.parse raw).conn = (PktHdr.parse raw).cgen ∧
    p = pktBody (PktHdr.parse raw) raw ∧
    fieldAt p 0 1 = 8 :=
  ⟨2, (wPkt { op := 0x71, flags := 1, dst := 0, src := 1 } (8 :: zeros 71)), (8 :: zeros 71), 0, { wPeer with state := .opening }, { wNet with xfe := { wNet.xfe with conns := [(0, { wPeer with state := .opening })] } }, by decide +kernel⟩

theorem wit_ConnectionsAndRefusals_header : ∃ (port : Nat) (raw : List Byte) (fill : Nat) (s : State),
    s.running = true ∧
    s.upPort port = true ∧
    (raw.length < 64 ∨ fieldAt raw 0x3C 4 ≠ crc32c (raw.take 60)) :=
  ⟨2, [1], 0, wNet, by decide +kernel⟩

theorem wit_ConnectionsAndRefusals_elsewhere : ∃ (port : Nat) (raw : List Byte) (fill : Nat) (s : State),
    s.running = true ∧
    s.upPort port = true ∧
    64 ≤ raw.length ∧
    fieldAt raw 0x3C 4 = crc32c (raw.take 60) ∧
    (PktHdr.parse raw).op = 1 ∧
    bit (PktHdr.parse raw).flags flLocal = false ∧
    s.nodeValid = true ∧
    (PktHdr.parse raw).dst % 2 ^ 17 ≠ s.node :=
  ⟨2, (wPkt { op := 1, flags := 1, dst := 9, src := 1 } []), 0, wNet, by decide +kernel⟩

theorem wit_ConnectionsAndRefusals_noNode : ∃ (port : Nat) (raw : List Byte) (fill : Nat) (s : State),
    s.running = true ∧
    s.upPort port = true ∧
    64 ≤ raw.length ∧
    fieldAt raw 0x3C 4 = crc32c (raw.take 60) ∧
    (PktHdr.parse raw).op = 1 ∧
    bit (PktHdr.parse raw).flags flLocal = false ∧
    s.nodeValid = false :=
  ⟨2, (wPkt { op := 1, flags := 1, dst := 9, src := 1 } []), 0, wPort 4, by decide +kernel⟩

theorem wit_ConnectionsAndRefusals_unknown : ∃ (port : Nat) (raw : List Byte) (fill : Nat) (s : State),
    Arrives 1 port raw s ∧
    tget (heard port s).xfe.conns ((PktHdr.parse raw).conn % 2 ^ 20) = none :=
  ⟨2, (wPkt { op := 1, flags := 1, dst := 0, src := 1, conn := 5 } []), 0, wNet, by decide +kernel⟩

theorem wit_ConnectionsAndRefusals_stale : ∃ (port : Nat) (raw : List Byte) (fill : Nat) (c : Conn) (s : State),
    Arrives 1 port raw s ∧
    tget (heard port s).xfe.conns ((PktHdr.parse raw).conn % 2 ^ 20) = some c ∧
    c.node = (PktHdr.parse raw).src % 2 ^ 17 ∧
    c.state = .opened ∧
    c.spilled = false ∧
    (heard port s).cgenOf ((PktHdr.parse raw).conn % 2 ^ 20) ≠ (PktHdr.parse raw).cgen :=
  ⟨2, (wPkt { op := 1, flags := 1, dst := 0, src := 1, cgen := 3 } []), 0, wPeer, wNet, by decide +kernel⟩

theorem wit_ConnectionsAndRefusals_down : ∃ (port : Nat) (raw : List Byte) (fill : Nat) (s : State),
    s.upPort port = false :=
  ⟨3, [], 0, wNet, by decide +kernel⟩

theorem wit_ConnectionsAndRefusals_outside : ∃ (port : Nat) (raw : List Byte) (fill : Nat) (c₁ c : Conn) (s : State),
    Arrives 0x70 port raw s ∧
    OnConn port raw fill c₁ s ∧
    tget (touched port raw s).xfe.conns (PktHdr.parse raw).conn = some c ∧
    fieldsOk (PktHdr.parse raw) ((touched port raw s).isProtected c.part) c.native = true ∧
    (PktHdr.parse raw).isSealed = (touched port raw s).isProtected c.part ∧
    ctlWindow c (PktHdr.parse raw) = .outside :=
  ⟨2, (wPkt { version := 1, op := 0x70, flags := 1, dst := 0, src := 1, psn := 256 } (zeros 40)), 0, wCompat, { wCompat with used := 0 }, wCompatNet, by decide +kernel⟩

theorem wit_ExtentCommands_assign : ∃ (c : Cmd) (s : State),
    Admitted 0x0601 c s ∧
    c.argsOk [(0, 16)] = true ∧
    c.dlen = 0 ∧
    c.arg 0 1 < 64 ∧ c.arg 1 1 < 16 ∧
    1 ≤ c.arg 8 4 ∧
    s.extState (c.arg 0 1) = extFree ∧
    c.arg 4 4 + c.arg 8 4 ≤ s.getF Reg.cwpWindowSize ∧
    (c.arg 0xC 4 + c.arg 8 4) * 2 ^ 28 ≤ s.directSize (c.arg 1 1) 1 ∧
    (List.range 64).any (fun x => s.extState x != extFree && overlaps (c.arg 4 4) (c.arg 8 4) (s.getF (Reg.cwpExtentWbase x)) (s.getF (Reg.cwpExtentSize x))) = false :=
  ⟨wCmd 0 [(0, 1, 2), (2, 2, 3), (4, 4, 3), (8, 4, 1)], wWindow, by decide +kernel⟩

theorem wit_ExtentCommands_notFree : ∃ (c : Cmd) (s : State),
    Admitted 0x0601 c s ∧
    c.argsOk [(0, 16)] = true ∧
    c.dlen = 0 ∧
    c.arg 0 1 < 64 ∧ c.arg 1 1 < 16 ∧
    1 ≤ c.arg 8 4 ∧
    s.extState (c.arg 0 1) ≠ extFree :=
  ⟨wCmd 0 [(0, 1, 1), (8, 4, 1)], wWindow, by decide +kernel⟩

theorem wit_ExtentCommands_addHosts : ∃ (c : Cmd) (s : State),
    Admitted 0x0602 c s ∧
    c.argsOk [(0, 1), (2, 2)] = true ∧
    c.dlen = 0 ∧
    c.arg 0 1 < 64 ∧
    s.extState (c.arg 0 1) = extActive :=
  ⟨wCmd 0 [(0, 1, 1), (2, 2, 6)], wWindow, by decide +kernel⟩

theorem wit_ExtentCommands_remove : ∃ (c : Cmd) (s : State),
    Admitted 0x0603 c s ∧
    c.argsOk [(0, 1), (2, 2)] = true ∧
    c.dlen = 0 ∧
    c.arg 0 1 < 64 ∧
    (s.extState (c.arg 0 1) = extActive ∨ s.extState (c.arg 0 1) = extOrphaned) ∧
    (maskBits 16 (c.arg 2 2)).all (fun b => bit (s.getF (Reg.cwpExtentHosts (c.arg 0 1))) b || bit (s.getF (Reg.cwpExtentOrphans (c.arg 0 1))) b) = true ∧
    (maskBits 16 (c.arg 2 2)).any (bit (s.getF (Reg.cwpExtentHosts (c.arg 0 1)))) = true :=
  ⟨wCmd 0 [(0, 1, 1), (2, 2, 1)], { wWindow with cwp := { dir := [(0, { way := 0, owner := some 0 })] } }, by decide +kernel⟩

theorem wit_ExtentCommands_notHost : ∃ (c : Cmd) (s : State),
    Admitted 0x0603 c s ∧
    c.argsOk [(0, 1), (2, 2)] = true ∧
    c.dlen = 0 ∧
    c.arg 0 1 < 64 ∧
    ((s.extState (c.arg 0 1) ≠ extActive ∧ s.extState (c.arg 0 1) ≠ extOrphaned) ∨ (maskBits 16 (c.arg 2 2)).all (fun b => bit (s.getF (Reg.cwpExtentHosts (c.arg 0 1))) b || bit (s.getF (Reg.cwpExtentOrphans (c.arg 0 1))) b) = false) :=
  ⟨wCmd 0 [(0, 1, 1), (2, 2, 4)], wWindow, by decide +kernel⟩

theorem wit_ExtentCommands_drained : ∃ (e : Nat) (r : Removal) (c : Cmd) (s : State),
    s.mgc.off = false ∧
    tget s.cwp.removals e = some r ∧
    r.wiping = false ∧
    r.cmd = some c ∧
    s.cwp.dir = [] ∧
    s.cwp.recalls = [] ∧
    s.cwp.waiting = [] ∧
    e < 64 ∧
    s.getF (Reg.cwpExtentHosts e) < 2 ^ 16 ∧ s.getF (Reg.cwpExtentOrphans e) < 2 ^ 16 ∧
    (maskBits 16 r.mask).foldl clrBit (s.getF (Reg.cwpExtentHosts e)) ≠ 0 :=
  ⟨1, { mask := 2, cmd := some (wCmd 0 []) }, wCmd 0 [], { wWindow.setF (Reg.cwpExtentHosts 1) 3 with cwp := { removals := [(1, { mask := 2, cmd := some (wCmd 0 []) })] } }, by decide +kernel⟩

theorem wit_ExtentCommands_wiped : ∃ (e : Nat) (s : State),
    s.mgc.off = false ∧
    e < 64 ∧
    s.extState e = extWiping ∧
    s.cwp.waiting = [] :=
  ⟨1, (wWindow.setF (Reg.cwpExtentState 1) 4), by decide +kernel⟩

theorem wit_ExtentCommands_wipedZero : ∃ (k a n : Nat) (s : State),
    memsOk s ∧
    k < 4 :=
  ⟨1, 0, 64, wWindow, by decide +kernel⟩

theorem wit_HostReadsAndWrites_invalid : ∃ (ld line e : Nat) (s : State),
    s.mgc.off = false ∧
    isFenced s pCwp 0 = false ∧
    ld < 16 ∧
    s.hostAllowed ld line = true ∧
    s.extentOf line = some e ∧
    s.cwp.waiting = [] ∧
    s.recalled line = false ∧
    tget s.cwp.dir line = none ∧
    s.poisoned (s.devLine e line) = false ∧
    (s.isProtected (s.getF (Reg.cwpExtentPartition e)) = false ∨ s.sec.badUnits.contains (1, s.devLine e line / 8) = false) :=
  ⟨0, 5, 1, wWindow, by decide +kernel⟩

theorem wit_HostReadsAndWrites_recall : ∃ (ld line e o : Nat) (d : DirEntry) (s : State),
    s.mgc.off = false ∧
    isFenced s pCwp 0 = false ∧
    ld < 16 ∧
    s.hostAllowed ld line = true ∧
    s.extentOf line = some e ∧
    s.cwp.waiting = [] ∧
    s.recalled line = false ∧
    tget s.cwp.dir line = some d ∧
    d.owner = some o ∧
    o ≠ ld :=
  ⟨0, 5, 1, 3, { way := 0, owner := some 3 }, { wWindow with cwp := { dir := [(5, { way := 0, owner := some 3 })] } }, by decide +kernel⟩

theorem wit_HostReadsAndWrites_write : ∃ (ld line e : Nat) (b : List Byte) (s : State),
    memsOk s ∧
    Table.wf s.cwp.poison = true ∧
    s.mgc.off = false ∧
    isFenced s pCwp 0 = false ∧
    ld < 16 ∧
    s.hostAllowed ld line = true ∧
    s.extentOf line = some e ∧
    s.cwp.waiting = [] ∧
    s.recalled line = false ∧
    tget s.cwp.dir line = none ∧
    b.length = 64 :=
  ⟨0, 5, 1, List.replicate 64 7, wWindow, by decide +kernel⟩

theorem wit_HostReadsAndWrites_poisoned : ∃ (ld line e mask : Nat) (b : List Byte) (s : State),
    s.mgc.off = false ∧
    isFenced s pCwp 0 = false ∧
    ld < 16 ∧
    s.hostAllowed ld line = true ∧
    s.extentOf line = some e ∧
    s.cwp.waiting = [] ∧
    s.recalled line = false ∧
    tget s.cwp.dir line = none ∧
    mask % 2 ^ 64 ≠ 2 ^ 64 - 1 ∧
    s.poisoned (s.devLine e line) = true :=
  ⟨0, 0, 1, 1, [5], { wWindow with cwp := { poison := [(0, false)] } }, by decide +kernel⟩

theorem wit_HostReadsAndWrites_denied : ∃ (ld line mask : Nat) (grant : LineGrant) (b : List Byte) (s : State),
    s.mgc.off = false ∧
    isFenced s pCwp 0 = false ∧
    ld < 16 ∧
    s.hostAllowed ld line = false ∧
    s.cwp.waiting = [] ∧
    (s.getF Reg.frcPartnerHostLimit = 0 ∨ (tgetD s.frc.hosts ld {}).bad + 1 < s.getF Reg.frcPartnerHostLimit) ∧
    tgetD s.cwp.denials ld 0 ≠ 0 :=
  ⟨1, 5, 1, .shared, [5], { wWindow with cwp := { denials := [(1, 3)] } }, by decide +kernel⟩

theorem wit_HostReadsAndWrites_read : ∃ (ld line e w : Nat) (grant : LineGrant) (s : State),
    s.mgc.off = false ∧
    isFenced s pCwp 0 = false ∧
    ld < 16 ∧
    grant ≠ .invalid ∧
    s.hostAllowed ld line = true ∧
    s.extentOf line = some e ∧
    s.extState e ≠ extRemoving ∧
    s.cwp.waiting = [] ∧
    s.recalled line = false ∧
    tget s.cwp.dir line = none ∧
    s.freeWay line = some w ∧
    s.poisoned (s.devLine e line) = false ∧
    (s.isProtected (s.getF (Reg.cwpExtentPartition e)) = false ∨ s.sec.badUnits.contains (1, s.devLine e line / 8) = false) :=
  ⟨0, 5, 1, 0, .shared, wWindow, by decide +kernel⟩

theorem wit_HostReadsAndWrites_fenced : ∃ (ld line mask : Nat) (grant : LineGrant) (b : List Byte) (s : State),
    s.mgc.off = false ∧
    isFenced s pCwp 0 = true ∧
    ld < 16 :=
  ⟨0, 5, 1, .shared, [], setMach (machKey pCwp 0) { state := .fenced } wWindow, by decide +kernel⟩

theorem wit_RecallsAndDeadHosts_answer : ∃ (host line : Nat) (r : Recall) (s : State),
    s.mgc.off = false ∧
    (s.cwp.recalls.find? fun r => r.line == line && r.host == host) = some r ∧
    r.inv = true :=
  ⟨3, 5, { line := 5, host := 3, inv := true }, { wWindow with cwp := { recalls := [{ line := 5, host := 3, inv := true }] } }, by decide +kernel⟩

theorem wit_RecallsAndDeadHosts_writeBack : ∃ (host line e : Nat) (b : List Byte) (r : Recall) (s : State),
    s.mgc.off = false ∧
    (s.cwp.recalls.find? fun r => r.line == line && r.host == host) = some r ∧
    r.inv = false ∧
    s.ownedBy line host = true ∧
    s.extentOf line = some e :=
  ⟨3, 5, 1, [1], { line := 5, host := 3, inv := false }, { wWindow with cwp := { recalls := [{ line := 5, host := 3, inv := false }], dir := [(5, { way := 0, owner := some 3 })] } }, by decide +kernel⟩

theorem wit_RecallsAndDeadHosts_stray : ∃ (host line : Nat) (data : Option (List Byte)) (s : State),
    (s.cwp.recalls.find? fun r => r.line == line && r.host == host) = none :=
  ⟨3, 5, none, wWindow, by decide +kernel⟩

theorem wit_RecallsAndDeadHosts_timeout : ∃ (host line : Nat) (s : State),
    s.mgc.off = false ∧
    s.cwp.recalls.any (fun r => r.line == line && r.host == host) = true :=
  ⟨3, 5, { wWindow with cwp := { recalls := [{ line := 5, host := 3, inv := false }] } }, by decide +kernel⟩

theorem wit_RecallsAndDeadHosts_dead : ∃ (ld cause : Nat) (s : State),
    s.cwp.dir = [] ∧
    s.cwp.recalls = [] ∧
    s.cwp.waiting = [] ∧
    s.functionsOf ld = [] ∧
    (List.range 64).all (fun e => s.extState e == extFree || !bit (s.getF (Reg.cwpExtentHosts e)) ld) = true :=
  ⟨3, 1, wWindow, by decide +kernel⟩

theorem wit_RecallsAndDeadHosts_ioRequest : ∃ (ld : Nat) (_ : IoRequest) (s : State),
    s.mgc.off = false ∧
    ld < 16 :=
  ⟨1, { header := [0x60], abort := true }, wWindow, by decide +kernel⟩

theorem wit_RecallsAndDeadHosts_noRemoval : ∃ (line _host e : Nat) (s : State),
    s.extentOf line = some e ∧
    s.extState e ≠ extRemoving :=
  ⟨5, 3, 1, wWindow, by decide +kernel⟩

theorem wit_RecallsAndDeadHosts_counted : ∃ (ld fn : Nat) (s : State),
    (s.hif.presented.find? fun p => p.2 == fn && !s.hif.isolated.contains p.1) = some (ld, fn) ∧
    (tgetD s.frc.hosts ld {}).seen + 1 < 2 ^ 20 :=
  ⟨2, 1, { wWindow with hif := { wWindow.hif with presented := [(2, 1)] }, frc := { wWindow.frc with hosts := [(2, { bad := 0, seen := 2 ^ 20 - 2 })] } }, by decide +kernel⟩

theorem wit_RecallsAndDeadHosts_notCounted : ∃ (fn : Nat) (s : State),
    s.hif.presented.all (fun p => p.2 != fn || s.hif.isolated.contains p.1) = true :=
  ⟨1, { wWindow with hif := { wWindow.hif with presented := [(2, 1)], isolated := [2] } }, by decide +kernel⟩

theorem wit_RecallsAndDeadHosts_partner : ∃ (ld : Nat) (bad : Bool) (s : State),
    tgetD s.frc.hosts ld {} = {} ∧
    (bad = false ∨ 1 < s.getF Reg.frcPartnerHostLimit) :=
  ⟨1, false, wWindow, by decide +kernel⟩

theorem wit_RecallsAndDeadHosts_bind : ∃ (ld : Nat) (s : State),
    s.mgc.off = false ∧
    ld < 16 ∧
    s.flag Reg.hifLinkUp = true ∧
    s.flag Reg.hifLinkMld = true ∧
    bit (s.getF Reg.hifLinkBound) ld = false :=
  ⟨2, [(Reg.hifLinkUp, 1), (Reg.hifLinkMld, 1)].foldl (fun s f => s.setF f.1 f.2) wUp, by decide +kernel⟩

theorem wit_RecallsAndDeadHosts_bound : ∃ (ld : Nat) (s : State),
    ld < 16 ∧
    s.hif.presented = [] ∧
    s.functionsFor ld = [] :=
  ⟨2, wUp.setF Reg.hifMgmtLd 5, by decide +kernel⟩

theorem wit_RecallsAndDeadHosts_ldReset : ∃ (ld : Nat) (s : State),
    s.mgc.off = false ∧
    ld < 16 ∧
    bit (s.getF Reg.hifLinkBound) ld = true :=
  ⟨2, [(Reg.hifLinkUp, 1), (Reg.hifLinkMld, 1), (Reg.hifLinkBound, 4)].foldl (fun s f => s.setF f.1 f.2) wUp, by decide +kernel⟩

theorem wit_RecallsAndDeadHosts_linkUp : ∃ (width : Nat) (mld : Bool) (s : State),
    s.mgc.off = false ∧
    s.mgc.perstHeld = false ∧
    s.flag Reg.hifLinkUp = false :=
  ⟨16, true, wUp, by decide +kernel⟩

theorem wit_RecallsAndDeadHosts_linkDown : ∃ (s : State),
    s.mgc.off = false ∧
    s.flag Reg.hifLinkUp = true ∧
    s.getF Reg.hifLinkBound = 0 :=
  ⟨wUp.setF Reg.hifLinkUp 1, by decide +kernel⟩

theorem wit_RecallsAndDeadHosts_linkAgain : ∃ (s : State),
    s.flag Reg.hifLinkUp = false :=
  ⟨wUp, by decide +kernel⟩

theorem wit_RecallsAndDeadHosts_stays : ∃ (line host e : Nat) (s : State),
    s.extentOf line = some e ∧
    s.extState e ≠ extRemoving :=
  ⟨5, 0, 1, wWindow, by decide +kernel⟩

theorem wit_PartitionLifecycle_configure : ∃ (c : Cmd) (s : State),
    Admitted 0x0701 c s ∧
    c.argsOk [(0, 1)] = true ∧
    c.dlen = 0 ∧
    c.arg 0 1 < 16 ∧
    s.pstate (c.arg 0 1) = psUnconfigured :=
  ⟨wCmd 0 [(0, 1, 3)], wReady, by decide +kernel⟩

theorem wit_PartitionLifecycle_release : ∃ (c : Cmd) (s : State),
    Admitted 0x0702 c s ∧
    c.argsOk [(0, 1)] = true ∧
    c.dlen = 0 ∧
    c.arg 0 1 < 16 ∧
    s.pstate (c.arg 0 1) = psConfigured :=
  ⟨wCmd 0 [(0, 1, 3)], wConfigured, by decide +kernel⟩

theorem wit_PartitionLifecycle_lock : ∃ (c : Cmd) (s : State),
    Admitted 0x0703 c s ∧
    c.argsOk [(0, 1)] = true ∧
    c.dlen = 0 ∧
    c.arg 0 1 < 16 ∧
    s.pstate (c.arg 0 1) = psConfigured ∧
    lockCheck s (c.arg 0 1) = none ∧
    s.isProtected (c.arg 0 1) = false ∧
    (reportResources (c.arg 0 1) s).isProtected (c.arg 0 1) = false :=
  ⟨wCmd 0 [(0, 1, 3)], wConfigured, by decide +kernel⟩

theorem wit_PartitionLifecycle_lockFails : ∃ (c : Cmd) (st : Status) (s : State),
    Admitted 0x0703 c s ∧
    c.argsOk [(0, 1)] = true ∧
    c.dlen = 0 ∧
    c.arg 0 1 < 16 ∧
    s.pstate (c.arg 0 1) = psConfigured ∧
    lockCheck s (c.arg 0 1) = some st :=
  ⟨wCmd 0 [(0, 1, 3)], .lifecycle, { wConfigured with sec := {} }, by decide +kernel⟩

theorem wit_PartitionLifecycle_start : ∃ (c : Cmd) (s : State),
    Admitted 0x0704 c s ∧
    c.argsOk [(0, 1)] = true ∧
    c.dlen = 0 ∧
    c.arg 0 1 < 16 ∧
    s.pstate (c.arg 0 1) = psLocked ∧
    keysReady s (c.arg 0 1) = true :=
  ⟨wCmd 0 [(0, 1, 3)], wLocked, by decide +kernel⟩

theorem wit_PartitionLifecycle_replay : ∃ (c : Cmd) (s : State),
    Admitted 0x0707 c s ∧
    c.argsOk [(0, 1)] = true ∧
    c.dlen = 0 ∧
    c.arg 0 1 < 16 ∧
    s.pstate (c.arg 0 1) = psLocked ∧
    keysReady s (c.arg 0 1) = true :=
  ⟨wCmd 0 [(0, 1, 3)], wLocked, by decide +kernel⟩

theorem wit_PartitionLifecycle_keyless : ∃ (c : Cmd) (s : State),
    Admitted 0x0704 c s ∧
    Admitted 0x0707 c s ∧
    c.argsOk [(0, 1)] = true ∧
    c.dlen = 0 ∧
    c.arg 0 1 < 16 ∧
    s.pstate (c.arg 0 1) = psLocked ∧
    keysReady s (c.arg 0 1) = false :=
  ⟨wCmd 0 [(0, 1, 3)], wLocked.setF (Reg.mgcPbCtrlProtected 3) 1, by decide +kernel⟩

theorem wit_PartitionLifecycle_drain : ∃ (c : Cmd) (s : State),
    Admitted 0x0705 c s ∧
    c.argsOk [(0, 1)] = true ∧
    c.dlen = 0 ∧
    c.arg 0 1 < 16 ∧
    s.pstate (c.arg 0 1) = psActive :=
  ⟨wCmd 0 [], wUp, by decide +kernel⟩

theorem wit_PartitionLifecycle_drained : ∃ (c : Cmd) (n : Nat) (s : State),
    tget s.mgc.drains n = some c ∧
    drainedNow s n = true :=
  ⟨wCmd 0 [], 0, { wUp.setF (Reg.mgcPbCtrlState 0) 4 with mgc := { drains := [(0, wCmd 0 [])] } }, by decide +kernel⟩

theorem wit_PartitionLifecycle_elsewhere : ∃ (c : Cmd) (s : State),
    Admitted 0x0701 c s ∧
    Admitted 0x0702 c s ∧
    Admitted 0x0703 c s ∧
    Admitted 0x0704 c s ∧
    Admitted 0x0705 c s ∧
    Admitted 0x0706 c s ∧
    Admitted 0x0707 c s ∧
    c.argsOk [(0, 1)] = true ∧
    c.dlen = 0 ∧
    c.arg 0 1 < 16 ∧
    s.pstate (c.arg 0 1) = psWiping :=
  ⟨wCmd 0 [(0, 1, 3)], wReady.setF (Reg.mgcPbCtrlState 3) 5, by decide +kernel⟩

theorem wit_PartitionWipe_starts : ∃ (c : Cmd) (s : State),
    Admitted 0x0706 c s ∧
    c.argsOk [(0, 1)] = true ∧
    c.dlen = 0 ∧
    c.arg 0 1 < 16 ∧
    (s.pstate (c.arg 0 1) = psLocked ∨ s.pstate (c.arg 0 1) = psDraining ∨ s.pstate (c.arg 0 1) = psReplay) ∧
    s.ssq.turns.filter (fun t => t.part == c.arg 0 1) = [] ∧
    tget s.mgc.drains (c.arg 0 1) = none :=
  ⟨wCmd 0 [(0, 1, 3)], wLocked, by decide +kernel⟩

theorem wit_PartitionWipe_memory : ∃ (n k : Nat) (s : State),
    memsOk s ∧
    1 ≤ k ∧ k < 4 :=
  ⟨3, 1, wLocked, by decide +kernel⟩

theorem wit_PartitionWipe_memoryT0 : ∃ (n : Nat) (s : State),
    memsOk s :=
  ⟨3, wLocked, by decide +kernel⟩

theorem wit_PartitionWipe_ends : ∃ (n : Nat) (s : State),
    Live s ∧
    n < 16 ∧
    s.pstate n = psWiping ∧
    (List.range 64).any (fun e => s.getF (Reg.cwpExtentPartition e) == n && s.extState e != extFree) = false ∧
    s.xfe.regions.any (fun r => r.2.part == n && r.2.state == .draining) = false ∧
    Table.wf s.regs = true :=
  ⟨3, wReady.setF (Reg.mgcPbCtrlState 3) 5, by decide +kernel⟩

theorem wit_PartitionWipe_waits : ∃ (n : Nat) (s : State),
    n < 16 ∧
    (s.pstate n ≠ psWiping ∨ s.xfe.regions.any (fun r => r.2.part == n && r.2.state == .draining) = true ∨ (List.range 64).any (fun e => s.getF (Reg.cwpExtentPartition e) == n && s.extState e != extFree) = true) :=
  ⟨3, wReady, by decide +kernel⟩

theorem wit_CapsulesAndReplay_read : ∃ (c : Cmd) (s : State),
    Admitted 0x0801 c s ∧
    c.argsOk [(0, 8), (8, 4), (0x0C, 4), (0x10, 1)] = true ∧
    c.arg 0x10 1 = 0 ∧
    ((readable s).filter fun k => (c.fn == 0 || k.part == c.part) && k.session == c.arg 0 8 && decide (c.arg 8 4 ≤ k.turn)) ≠ [] :=
  ⟨wCmd 1 [(0, 8, 2 ^ 26), (0x0C, 4, 1)] 4096, wStaged, by decide +kernel⟩

theorem wit_CapsulesAndReplay_badPosition : ∃ (c : Cmd) (s : State),
    Admitted 0x0801 c s ∧
    c.argsOk [(0, 8), (8, 4), (0x0C, 4), (0x10, 1)] = true ∧
    c.arg 0x10 1 = 1 ∧
    ((readable s)[c.arg 0 8]?).isNone = true :=
  ⟨wCmd 1 [(0, 8, 7), (0x10, 1, 1)] 4096, wStaged, by decide +kernel⟩

theorem wit_CapsulesAndReplay_write : ∃ (k : Capsule) (s : State),
    Live s ∧
    (s.frc.staging.find? (·.sealed)) = some k ∧
    s.flag Reg.frcCapsuleStatArea = true ∧
    k.bytes.length / 4096 ≤ ringRoom s ∧
    (s.frc.ring4k.map fun c => c.bytes.length / 4096).sum + k.bytes.length / 4096 ≤ s.getF Reg.frcCapsuleUnits4k :=
  ⟨wCapsule, [(Reg.frcCapsuleStatArea, 1), (Reg.frcCapsuleUnits4k, 8)].foldl (fun s f => s.setF f.1 f.2) wStaged, by decide +kernel⟩

theorem wit_CapsulesAndReplay_noRoom : ∃ (k : Capsule) (s : State),
    (s.frc.staging.find? (·.sealed)) = some k ∧
    (s.flag Reg.frcCapsuleStatArea = false ∨ ringRoom s < k.bytes.length / 4096) :=
  ⟨wCapsule, wStaged, by decide +kernel⟩

theorem wit_CapsulesAndReplay_area : ∃ (units : Nat) (s : State),
    s.fnShown 0 = true ∧
    Live s ∧
    s.allUnconfigured = true ∧
    0 < units ∧ units < 2 ^ 40 ∧
    drives s ≠ [] :=
  ⟨8, wDrives, by decide +kernel⟩

theorem wit_CapsulesAndReplay_noArea : ∃ (s : State),
    s.fnShown 0 = true ∧
    Live s ∧
    s.allUnconfigured = true ∧
    Table.wf s.regs = true :=
  ⟨wDrives, by decide +kernel⟩

theorem wit_CapsulesAndReplay_areaInUse : ∃ (via units : Nat) (s : State),
    (via ≠ 0 ∨ s.allUnconfigured = false) :=
  ⟨0, 8, wUp, by decide +kernel⟩

theorem wit_CapsulesAndReplay_run : ∃ (c : Cmd) (supply : List (List Byte)) (s : State),
    s.mgc.off = false ∧
    Admitted 0x0802 c (s.setFrc { s.frc with supplies := s.frc.supplies ++ [(c, supply)] }) ∧
    c.argsOk [(0, 2)] = true :=
  ⟨wCmd 1 [], [], wUp.setF (Reg.mgcPbCtrlState 0) 6, by decide +kernel⟩

theorem wit_CapsulesAndReplay_elsewhere : ∃ (c : Cmd) (supply : List (List Byte)) (s : State),
    s.mgc.off = false ∧
    gate 0x0802 c (s.setFrc { s.frc with supplies := s.frc.supplies ++ [(c, supply)] }) = .fail .partitionState :=
  ⟨wCmd 1 [], [], wUp, by decide +kernel⟩

theorem wit_FusesAndLifecycle_svn : ∃ (c : Cmd) (s : State),
    Admitted 0x0901 c s ∧
    c.argsOk [] = true ∧
    c.dlen = 0 ∧
    s.sec.fuses.lifecycle = 2 :=
  ⟨wCmd 0 [], wConfigured, by decide +kernel⟩

theorem wit_FusesAndLifecycle_svnEarly : ∃ (c : Cmd) (s : State),
    Admitted 0x0901 c s ∧
    c.argsOk [] = true ∧
    c.dlen = 0 ∧
    s.sec.fuses.lifecycle ≠ 2 :=
  ⟨wCmd 0 [], wReady, by decide +kernel⟩

theorem wit_SpdmAnswers_version : ∃ (t : Nat) (s : State),
    spdmLive s t = true :=
  ⟨1, wUp, by decide +kernel⟩

theorem wit_SpdmAnswers_capabilities : ∃ (t : Nat) (s : State),
    spdmLive s t = true :=
  ⟨1, wUp, by decide +kernel⟩

theorem wit_SpdmAnswers_algorithms : ∃ (t offered : Nat) (s : State),
    spdmLive s t = true ∧
    offered % 2 = 1 :=
  ⟨1, 3, wUp, by decide +kernel⟩

theorem wit_SpdmAnswers_chain : ∃ (t off len : Nat) (s : State),
    spdmLive s t = true ∧
    hasIdentity s = true :=
  ⟨1, 0, 8, wUp, by decide +kernel⟩

theorem wit_SpdmAnswers_unsupported : ∃ (t slot off len : Nat) (s : State),
    spdmLive s t = true ∧
    slot ≠ 0 :=
  ⟨1, 2, 0, 8, wUp, by decide +kernel⟩

theorem wit_SpdmAnswers_report : ∃ (t part : Nat) (nonce : List Byte) (s : State),
    spdmLive s t = true ∧
    (transportPart t = none ∨ transportPart t = some part) ∧
    hasIdentity s = true ∧
    (part < 16 ∨ part = 0xFF) :=
  ⟨1, 255, [], wUp, by decide +kernel⟩

theorem wit_SpdmAnswers_foreign : ∃ (t part n : Nat) (nonce : List Byte) (s : State),
    spdmLive s t = true ∧
    transportPart t = some n ∧
    n ≠ part :=
  ⟨2, 1, 0, [], wShown, by decide +kernel⟩

theorem wit_SpdmAnswers_dead : ∃ (t off part : Nat) (nonce : List Byte) (s : State),
    spdmLive s t = false :=
  ⟨3, 0, 0, [], wUp, by decide +kernel⟩

theorem wit_SpdmAnswers_noAlgorithm : ∃ (t offered : Nat) (s : State),
    spdmLive s t = true ∧
    offered % 2 = 0 :=
  ⟨1, 2, wUp, by decide +kernel⟩

theorem wit_KeyDelivery_init : ∃ (t part : Nat) (nonce : List Byte) (s : State),
    spdmLive s t = true ∧
    (transportPart t = none ∨ transportPart t = some part) ∧
    hasIdentity s = true ∧
    part < 16 ∧
    s.pstate part = psLocked ∧
    s.isProtected part = true ∧
    (slotLoaded s part 1 = false ∨ slotLoaded s part 2 = false) ∧
    tget s.sec.exchanges part = none ∧
    s.sec.fuses.lifecycle = 2 :=
  ⟨1, 3, [], wProtected, by decide +kernel⟩

theorem wit_KeyDelivery_exch : ∃ (t part : Nat) (ct pk sig : List Byte) (x : Exchange) (s : State),
    spdmLive s t = true ∧
    (transportPart t = none ∨ transportPart t = some part) ∧
    hasIdentity s = true ∧
    exchangeOf s t part = some x ∧
    x.kMac = [] :=
  ⟨1, 3, [], [], [], wExchange, wExchanging, by decide +kernel⟩

theorem wit_KeyDelivery_deliver : ∃ (t part slot : Nat) (w tag : List Byte) (x : Exchange) (s : State),
    spdmLive s t = true ∧
    (transportPart t = none ∨ transportPart t = some part) ∧
    hasIdentity s = true ∧
    exchangeOf s t part = some x ∧
    x.kMac ≠ [] ∧
    (slot = 1 ∨ slot = 2) ∧
    slotLoaded s part slot = false :=
  ⟨1, 3, 1, [], [], { wExchange with kEnc := [1], kMac := [2] }, { wExchanging with sec := { wExchanging.sec with exchanges := [(3, { wExchange with kEnc := [1], kMac := [2] })] } }, by decide +kernel⟩

theorem wit_KeyDelivery_none : ∃ (t part slot : Nat) (w tag : List Byte) (s : State),
    spdmLive s t = true ∧
    (transportPart t = none ∨ transportPart t = some part) ∧
    hasIdentity s = true ∧
    exchangeOf s t part = none :=
  ⟨1, 3, 1, [], [], wProtected, by decide +kernel⟩

theorem wit_KeyDelivery_timeout : ∃ (part : Nat) (x : Exchange) (s : State),
    s.mgc.off = false ∧
    tget s.sec.exchanges part = some x :=
  ⟨3, wExchange, wExchanging, by decide +kernel⟩

theorem wit_DebugSurface_halt : ∃ (core : Nat) (s : State),
    debugLive s = true ∧
    core < 72 ∧
    s.mgc.coresHalted.contains core = false :=
  ⟨5, wUp, by decide +kernel⟩

theorem wit_DebugSurface_resume : ∃ (core : Nat) (s : State),
    debugLive s = true ∧
    s.mgc.coresHalted.contains core = true :=
  ⟨5, { wUp with mgc := { coresHalted := [5] } }, by decide +kernel⟩

theorem wit_DebugSurface_step : ∃ (core len : Nat) (act : CoreAct) (s : State),
    debugLive s = true ∧
    s.mgc.coresHalted.contains core = true ∧
    (s.pwr ≠ pwrQuiesce ∧ s.pwr ≠ pwrMgmt) :=
  ⟨5, 4, .inner [] [] [] [] 0, { wUp with mgc := { coresHalted := [5] } }, by decide +kernel⟩

theorem wit_DebugSurface_readT0 : ∃ (a n : Nat) (s : State),
    debugLive s = true ∧
    a + n ≤ 47 * gib ∧
    a + n ≤ s.getF (Reg.tmgTierCapSize4k 0) * 4096 ∧
    s.ssq.sessions = [] ∧
    s.tmg.areas = [] ∧
    s.frc.withdrawn = [] ∧
    s.getF Reg.tmgDirBaseAddr = 0 ∧
    objectsIn s 0 = [] :=
  ⟨0, 4, { wConfigured with t0 := [(1, 9)] }, by decide +kernel⟩

theorem wit_DebugSurface_nothing : ∃ (core space a n : Nat) (s : State),
    debugLive s = false :=
  ⟨5, 0, 0, 4, { wUp with sec := { fuses := { lifecycle := 0 } } }, by decide +kernel⟩

theorem wit_DebugSurface_stepRunning : ∃ (core len : Nat) (act : CoreAct) (s : State),
    s.mgc.coresHalted.contains core = false :=
  ⟨5, 4, .fence, wConfigured, by decide +kernel⟩

theorem wit_DebugSurface_inner : ∃ (core t len pc rd v : Nat) (s : State),
    (s.core core).ready = some t ∧
    rd ≠ 0 :=
  ⟨5, 0, 4, 64, 1, 7, wConfigured, by decide +kernel⟩

theorem wit_DebugSurface_noneReady : ∃ (core len : Nat) (act : CoreAct) (s : State),
    (s.core core).ready = none :=
  ⟨5, 4, .fence, { wConfigured with mgc := { cores := [(5, { harts := [(0, { wait := .fence 1 4 }), (1, { wait := .fence 1 4 }), (2, { wait := .fence 1 4 }), (3, { wait := .fence 1 4 })] })] } }, by decide +kernel⟩

theorem wit_DebugSurface_deadLoad : ∃ (core t rd addr size len : Nat) (signed : Bool) (s : State),
    ((s.core core).hart t).wait = .load rd addr size signed len ∧
    rd ≠ 0 :=
  ⟨5, 0, 1, 4096, 8, 4, false, { wConfigured with mgc := { cores := [(5, { harts := [(0, { wait := .load 1 4096 8 false 4 })] })] } }, by decide +kernel⟩

theorem wit_DebugSurface_readArray : ∃ (space a n : Nat) (s : State),
    debugLive s = true ∧
    ((space = 4 ∧ a + n ≤ 160 * 2 ^ 20) ∨ (space = 5 ∧ a + n ≤ 40 * 2 ^ 20)) :=
  ⟨5, 0, 40 * 2 ^ 20, wConfigured, by decide +kernel⟩

theorem wit_DebugSurface_readPast : ∃ (space a n : Nat) (s : State),
    ((space = 4 ∧ 160 * 2 ^ 20 < a + n) ∨ (space = 5 ∧ 40 * 2 ^ 20 < a + n)) :=
  ⟨4, 160 * 2 ^ 20, 1, wConfigured, by decide +kernel⟩

theorem wit_ExpertPageOperations_readRecord : ∃ (via h : Nat) (r : PageRec) (s : State),
    s.expertOpen pTmg via = true ∧
    s.rec? h = some r ∧
    (((s.setF Reg.tmgPageOpHandle h).setF Reg.tmgPageOpOp 1).expertObject pTmg via r.part) = true :=
  ⟨0, 1, wRec, wExpert pTmg wLook, by decide +kernel⟩

theorem wit_ExpertPageOperations_readHeader : ∃ (via h : Nat) (r : PageRec) (s : State),
    s.expertOpen pTmg via = true ∧
    s.rec? h = some r ∧
    (((s.setF Reg.tmgPageOpHandle h).setF Reg.tmgPageOpOp 2).expertObject pTmg via r.part) = true :=
  ⟨0, 1, wRec, wExpert pTmg wLook, by decide +kernel⟩

theorem wit_ExpertPageOperations_markRecovery : ∃ (via h : Nat) (r : PageRec) (s : State),
    Live s ∧
    s.expertOpen pTmg via = true ∧
    s.rec? h = some r ∧
    (((s.setF Reg.tmgPageOpHandle h).setF Reg.tmgPageOpOp 3).expertObject pTmg via r.part) = true :=
  ⟨0, 1, wRec, wExpert pTmg wLook, by decide +kernel⟩

theorem wit_ExpertPageOperations_noPage : ∃ (via h : Nat) (s : State),
    Live s ∧
    s.expertOpen pTmg via = true ∧
    s.rec? h = none :=
  ⟨0, 9, wExpert pTmg wLook, by decide +kernel⟩

theorem wit_ExpertPageOperations_readMap : ∃ (via i layer page h : Nat) (x : Session) (s : State),
    s.expertOpen pTmg via = true ∧
    tget s.ssq.sessions i = some x ∧
    x.page layer page = some h ∧
    ((((s.setF Reg.tmgMapArgSession i).setF Reg.tmgMapArgLayer layer).setF Reg.tmgMapArgPage page).setF Reg.tmgPageOpOp 4).expertObject pTmg via x.part = true :=
  ⟨0, 0, 0, 0, 5, { wX with map := [(mapKey 0 0, 5)] }, wExpert pTmg (wHas { wX with map := [(mapKey 0 0, 5)] }), by decide +kernel⟩

theorem wit_ExpertPageOperations_noMap : ∃ (via i layer page : Nat) (s : State),
    s.expertOpen pTmg via = true ∧
    tget s.ssq.sessions i = none :=
  ⟨0, 9, 0, 0, wExpert pTmg wLook, by decide +kernel⟩

theorem wit_ExpertPageOperations_closed : ∃ (via h i layer page : Nat) (s : State),
    s.expertOpen pTmg via = false :=
  ⟨0, 1, 0, 0, 0, wLook, by decide +kernel⟩

theorem wit_ExpertPageOperations_recoveryFails : ∃ (h : Nat) (r : PageRec) (s : State),
    Live s ∧
    s.rec? h = some r ∧
    r.recovery = true :=
  ⟨1, { wRec with recovery := true }, { wLook with tmg := { records := [(1, { wRec with recovery := true })] } }, by decide +kernel⟩

theorem wit_ExpertPageOperations_notInRecovery : ∃ (h : Nat) (failed : Bool) (r : PageRec) (s : State),
    s.rec? h = some r ∧
    r.recovery = false :=
  ⟨1, true, wRec, wLook, by decide +kernel⟩

theorem wit_ExpertPrefixOperations_read : ∃ (via set way : Nat) (e : PmeEntry) (s : State),
    s.expertOpen pPme via = true ∧
    way < 128 ∧
    s.flag Reg.pmeSetOpStatBusy = false ∧
    set < 16384 ∧
    bankOk s set = true ∧
    tget s.pme.entries (set * 128 + way) = some e ∧
    ((((s.setF Reg.pmeSetOpSet (set)).setF Reg.pmeSetOpWay (way)).setF Reg.pmeSetOpPartition (s.getF Reg.pmeSetOpPartition)).setF Reg.pmeSetOpOp 1).expertObject pPme via e.part = true :=
  ⟨0, 0, 1, wWay, [(Reg.pmeGeomBanksOk, 0xFFFF)].foldl (fun s f => s.setF f.1 f.2) (wExpert pPme { wLook with pme := { wLook.pme with entries := [(1, wWay)] } }), by decide +kernel⟩

theorem wit_ExpertPrefixOperations_drop : ∃ (via set way : Nat) (e : PmeEntry) (s : State),
    Live s ∧
    s.expertOpen pPme via = true ∧
    way < 128 ∧
    s.flag Reg.pmeSetOpStatBusy = false ∧
    set < 16384 ∧
    bankOk s set = true ∧
    tget s.pme.entries (set * 128 + way) = some e ∧
    ((((s.setF Reg.pmeSetOpSet (set)).setF Reg.pmeSetOpWay (way)).setF Reg.pmeSetOpPartition (s.getF Reg.pmeSetOpPartition)).setF Reg.pmeSetOpOp 2).expertObject pPme via e.part = true :=
  ⟨0, 0, 1, wWay, [(Reg.pmeGeomBanksOk, 0xFFFF)].foldl (fun s f => s.setF f.1 f.2) (wExpert pPme { wLook with pme := { wLook.pme with entries := [(1, wWay)] } }), by decide +kernel⟩

theorem wit_ExpertPrefixOperations_empty : ∃ (via set way : Nat) (s : State),
    Live s ∧
    s.expertOpen pPme via = true ∧
    way < 128 ∧
    s.flag Reg.pmeSetOpStatBusy = false ∧
    set < 16384 ∧
    bankOk s set = true ∧
    tget s.pme.entries (set * 128 + way) = none :=
  ⟨0, 0, 9, [(Reg.pmeGeomBanksOk, 0xFFFF)].foldl (fun s f => s.setF f.1 f.2) (wExpert pPme { wLook with pme := { wLook.pme with entries := [(1, wWay)] } }), by decide +kernel⟩

theorem wit_ExpertPrefixOperations_test : ∃ (via set : Nat) (s : State),
    Live s ∧
    s.expertDevice pPme via = true ∧
    s.flag Reg.pmeSetOpStatBusy = false ∧
    set < 16384 ∧
    bankOk s set = true ∧
    underTest s (bankUnit (bankOfSet set)) = false :=
  ⟨0, 0, [(Reg.pmeGeomBanksOk, 0xFFFF)].foldl (fun s f => s.setF f.1 f.2) (wExpert pPme { wLook with pme := { wLook.pme with entries := [(1, wWay)] } }), by decide +kernel⟩

theorem wit_ExpertPrefixOperations_mapOut : ∃ (via set : Nat) (s : State),
    Live s ∧
    s.expertDevice pPme via = true ∧
    s.flag Reg.pmeSetOpStatBusy = false ∧
    set < 16384 ∧
    bankOk s set = true :=
  ⟨0, 0, [(Reg.pmeGeomBanksOk, 0xFFFF)].foldl (fun s f => s.setF f.1 f.2) (wExpert pPme { wLook with pme := { wLook.pme with entries := [(1, wWay)] } }), by decide +kernel⟩

theorem wit_ExpertPrefixOperations_mappedOut : ∃ (bank : Nat) (s : State),
    (s.pme.entries.filter fun e => bankOfSet (e.1 / 128) == bank) = [] :=
  ⟨3, wLook, by decide +kernel⟩

theorem wit_ExpertPrefixOperations_outOfService : ∃ (via set way : Nat) (s : State),
    Live s ∧
    s.expertDevice pPme via = true ∧
    way < 128 ∧
    s.flag Reg.pmeSetOpStatBusy = false ∧
    set < 16384 ∧
    bankOk s set = false :=
  ⟨0, 0, 1, wExpert pPme wLook, by decide +kernel⟩

theorem wit_ExpertPrefixOperations_sweep : ∃ (via part : Nat) (s : State),
    Live s ∧
    s.expertOpen pPme via = true ∧
    part < 16 ∧
    s.flag Reg.pmeSetOpStatBusy = false ∧
    ((((s.setF Reg.pmeSetOpSet (s.getF Reg.pmeSetOpSet)).setF Reg.pmeSetOpWay (s.getF Reg.pmeSetOpWay)).setF Reg.pmeSetOpPartition (part)).setF Reg.pmeSetOpOp 5).expertObject pPme via part = true ∧
    s.pme.sweeps.contains part = false :=
  ⟨0, 0, [(Reg.pmeGeomBanksOk, 0xFFFF)].foldl (fun s f => s.setF f.1 f.2) (wExpert pPme { wLook with pme := { wLook.pme with entries := [(1, wWay)] } }), by decide +kernel⟩

theorem wit_ExpertPrefixOperations_busy : ∃ (via set : Nat) (s : State),
    s.flag Reg.pmeSetOpStatBusy = true :=
  ⟨0, 0, ([(Reg.pmeGeomBanksOk, 0xFFFF)].foldl (fun s f => s.setF f.1 f.2) (wExpert pPme { wLook with pme := { wLook.pme with entries := [(1, wWay)] } })).setF Reg.pmeSetOpStatBusy 1, by decide +kernel⟩

theorem wit_PrefixUpkeep_publication : ∃ (i last : Nat) (x : Session) (s : State),
    Live s ∧
    tget s.ssq.sessions i = some x ∧
    (s.pme.toPublish.find? fun r => r.1 == x.handle) = some (x.handle, last) :=
  ⟨0, 0, wX, { wIn with pme := { toPublish := [(2 ^ 26, 0)] } }, by decide +kernel⟩

theorem wit_PrefixUpkeep_noPublication : ∃ (i : Nat) (s : State),
    s.pme.toPublish = [] :=
  ⟨0, wIn, by decide +kernel⟩

theorem wit_PrefixUpkeep_holes : ∃ (set : Nat) (s : State),
    Live s ∧
    set < 16384 ∧
    (holeMaintain 16 (readSet s set)).2 ≠ 0 ∧
    (inSled s = false ∨ s.getF Reg.pmeCascadeMode ≠ 1) :=
  ⟨0, { wLook with pme := { entries := wGroup } }, by decide +kernel⟩

theorem wit_PrefixUpkeep_even : ∃ (set : Nat) (s : State),
    set < 16384 ∧
    (holeMaintain 16 (readSet s set)).2 = 0 :=
  ⟨0, wLook, by decide +kernel⟩

theorem wit_PrefixUpkeep_ageing : ∃ (bank : Nat) (s : State),
    Live s ∧
    s.getF Reg.pmeAgeLookups ≤ tgetD s.pme.probes bank 0 :=
  ⟨0, { wLook with pme := { probes := [(0, 2 ^ 40)] } }, by decide +kernel⟩

theorem wit_PrefixUpkeep_young : ∃ (bank : Nat) (s : State),
    tgetD s.pme.probes bank 0 < s.getF Reg.pmeAgeLookups :=
  ⟨0, wLook, by decide +kernel⟩

theorem wit_PrefixUpkeep_sweep : ∃ (part : Nat) (s : State),
    Live s ∧
    s.pme.sweeps.contains part = true :=
  ⟨0, { wLook with pme := { sweeps := [0] } }, by decide +kernel⟩

theorem wit_PrefixUpkeep_noSweep : ∃ (part : Nat) (s : State),
    s.pme.sweeps.contains part = false :=
  ⟨0, wLook, by decide +kernel⟩

theorem wit_PrefixUpkeep_timeout : ∃ (n : Nat) (s : State),
    Live s ∧
    s.pme.pendings.any (·.id == n) = false :=
  ⟨0, wLook, by decide +kernel⟩

theorem wit_PrefixUpkeep_underWay : ∃ (n : Nat) (s : State),
    s.pme.pendings.any (·.id == n) = true :=
  ⟨0, { wLook with pme := { pendings := [{ id := 0, q := wSlot }] } }, by decide +kernel⟩

theorem wit_PrefixUpkeep_importFails : ∃ (id i : Nat) (m : Import) (x : Session) (s : State),
    Live s ∧
    tget s.pme.imports id = some m ∧
    namedSession m.cmd.part m.session (endSystem m.region (modPme (fun p => { p with imports := tdel p.imports id }) s)) = .inr (i, x) :=
  ⟨0, 0, wImport, wX, { wIn with pme := { imports := [(0, wImport)] } }, by decide +kernel⟩

theorem wit_PrefixUpkeep_noImport : ∃ (id : Nat) (what : Option ImportData) (s : State),
    tget s.pme.imports id = none :=
  ⟨3, none, wIn, by decide +kernel⟩

theorem wit_SledMessages_lookup : ∃ (origin id seg part session : Nat) (hs ws ts : List Nat) (s : State),
    Live s ∧
    inSled s = true ∧
    inCascade s = true ∧
    origin ≠ ownPosition s ∧
    inSled (s.emit (lookupFlit origin id seg (queryFrom part session hs ws ts))) = true :=
  ⟨3, 0, 0, 0, 0, [], [], [], wMember 1, by decide +kernel⟩

theorem wit_SledMessages_comeBack : ∃ (id seg part session : Nat) (hs ws ts : List Nat) (p : Pending) (s : State),
    Live s ∧
    inCascade s = true ∧
    (s.pme.pendings.find? fun p => p.id == id && !p.returned.contains seg) = some p ∧
    p.segments.head? = some seg ∧
    p.forwarded = false ∧
    p.next = false :=
  ⟨0, 0, 0, 0, [], [], [], wPending, wAsking, by decide +kernel⟩

theorem wit_SledMessages_resolve : ∃ (origin id seg : Nat) (s : State),
    Live s ∧
    inSled s = true ∧
    inCascade s = true ∧
    origin ≠ ownPosition s ∧
    ownPosition s ≠ 0 :=
  ⟨3, 0, 0, wMember 1, by decide +kernel⟩

theorem wit_SledMessages_resolve0 : ∃ (id seg : Nat) (s : State),
    Live s ∧
    inSled s = true ∧
    inCascade s = true ∧
    ownPosition s = 0 :=
  ⟨0, 0, wMember 0, by decide +kernel⟩

theorem wit_SledMessages_framePasses : ∃ (origin id seg : Nat) (hitIn : Bool) (k : Option RemoteColumn) (s : State),
    Live s ∧
    inSled s = true ∧
    inCascade s = true ∧
    ownPosition s ≠ 0 ∧
    s.pme.sled = [] ∧
    (hitIn = true ∨ ownPosition s + 1 ≠ s.getF Reg.pmeCascadeMembers) :=
  ⟨0, 0, 0, true, none, wMember 1, by decide +kernel⟩

theorem wit_SledMessages_notInSled : ∃ (origin id seg : Nat) (hitIn : Bool) (k : Option RemoteColumn) (s : State),
    Live s ∧
    inCascade s = true ∧
    inSled s = false :=
  ⟨0, 0, 0, true, none, (wMember 1).setF Reg.pmeCascadeIsolated 1, by decide +kernel⟩

theorem wit_SledMessages_result : ∃ (id seg : Nat) (hit : Option PrefixHit) (multi : Bool) (s : State),
    Live s ∧
    inSled s = true :=
  ⟨0, 0, none, false, wAsking, by decide +kernel⟩

theorem wit_SledMessages_resultEnds : ∃ (id seg : Nat) (h : PrefixHit) (multi : Bool) (p : Pending) (s : State),
    (s.pme.pendings.find? fun p => p.id == id && !p.forwarded && p.segments.head? == some seg) = some p ∧
    p.q.cands = [] :=
  ⟨0, 0, { depth := 1, column := 1, gen := 5, home := 0, node := 0, tier := 0 }, false, wPending, wAsking, by decide +kernel⟩

theorem wit_SledMessages_reject : ∃ (id seg : Nat) (s : State),
    Live s ∧
    inSled s = true ∧
    s.pme.pendings.any (fun p => p.id == id && !p.forwarded && p.segments.head? == some seg) = true :=
  ⟨0, 0, wAsking, by decide +kernel⟩

theorem wit_SledMessages_move : ∃ (set home column : Nat) (e : PmeEntry) (mirror : Bool) (s : State),
    Live s ∧
    inSled s = true ∧
    set < 16384 ∧
    bankOk s set = true :=
  ⟨0, 1, 1, wWay, false, (wMember 1).setF Reg.pmeGeomBanksOk 0xFFFF, by decide +kernel⟩

theorem wit_SledMessages_isolates : ∃ (s : State),
    Live s ∧
    inSled s = true ∧
    inCascade s = true ∧
    s.flag Reg.pmeCascadeIsolated = false ∧
    s.pme.pendings = [] :=
  ⟨wMember 1, by decide +kernel⟩

theorem wit_SledMessages_stuck : ∃ (s : State),
    Live s ∧
    inSled s = true ∧
    ownPosition s ≠ 0 :=
  ⟨wMember 1, by decide +kernel⟩

theorem wit_SledMessages_violation : ∃ (recent : Nat) (s : State),
    Live s ∧
    inSled s = true ∧
    ownPosition s ≠ 0 :=
  ⟨3, wMember 1, by decide +kernel⟩

theorem wit_SledMessages_alone : ∃ (a b n : Nat) (s : State),
    inCascade s = false :=
  ⟨0, 0, 0, wUp, by decide +kernel⟩

theorem wit_SledMessages_moves : ∃ (set n column home origin id seg : Nat) (ways : BitVec 128) (e : PmeEntry) (c : Column) (s : State),
    Live s ∧
    inSled s = true ∧
    set < 16384 :=
  ⟨0, 0, 1, 1, 0, 0, 0, 0, wWay, wColumn, (wMember 1).setF Reg.pmeGeomBanksOk 0xFFFF, by decide +kernel⟩

theorem wit_ForwardedLookups_lookup : ∃ (node id part hops depth v : Nat) (hs ws ts : List Nat) (s : State),
    Live s ∧
    s.nodeValid = true ∧
    governing s part node part = some v ∧
    entryKind v = 1 :=
  ⟨1, 0, 0, 0, 0, wTrust, [], [], [], (wUp.setF (Reg.mgcPbPeer 0 0) wTrust).setF Reg.xfeNodeValid 1, by decide +kernel⟩

theorem wit_ForwardedLookups_untrusted : ∃ (node id part hops depth : Nat) (hs ws ts : List Nat) (s : State),
    Live s ∧
    s.nodeValid = true ∧
    governing s part node part = none :=
  ⟨1, 0, 0, 0, 0, [], [], [], wUp.setF Reg.xfeNodeValid 1, by decide +kernel⟩

theorem wit_ForwardedLookups_better : ∃ (id : Nat) (h : PrefixHit) (p : Pending) (s : State),
    Live s ∧
    s.nodeValid = true ∧
    (s.pme.pendings.find? fun p => p.fwdId == id && p.forwarded) = some p ∧
    p.q.named = none ∧
    depthOf p.best + s.getF Reg.pmeFwdMinGain ≤ h.depth :=
  ⟨0, { depth := 9, column := 1, gen := 5, home := 0, node := 0, tier := 0 }, { wPending with forwarded := true }, ({ wLook with pme := { pendings := [{ wPending with forwarded := true }] } }).setF Reg.xfeNodeValid 1, by decide +kernel⟩

theorem wit_ForwardedLookups_noBetter : ∃ (id : Nat) (hit : Option PrefixHit) (p : Pending) (s : State),
    Live s ∧
    s.nodeValid = true ∧
    (s.pme.pendings.find? fun p => p.fwdId == id && p.forwarded) = some p ∧
    (hit = none ∨ depthOf hit < depthOf p.best + s.getF Reg.pmeFwdMinGain) :=
  ⟨0, none, { wPending with forwarded := true }, ({ wLook with pme := { pendings := [{ wPending with forwarded := true }] } }).setF Reg.xfeNodeValid 1, by decide +kernel⟩

theorem wit_ForwardedLookups_timeout : ∃ (id : Nat) (p : Pending) (s : State),
    Live s ∧
    (s.pme.pendings.find? fun p => p.fwdId == id && p.forwarded) = some p :=
  ⟨0, { wPending with forwarded := true }, { wLook with pme := { pendings := [{ wPending with forwarded := true }] } }, by decide +kernel⟩

theorem wit_ForwardedLookups_stray : ∃ (id : Nat) (hit : Option PrefixHit) (s : State),
    s.nodeValid = true ∧
    (s.pme.pendings.find? fun p => p.fwdId == id && p.forwarded) = none :=
  ⟨0, none, wLook.setF Reg.xfeNodeValid 1, by decide +kernel⟩

theorem wit_ForwardedLookups_answered : ∃ (p : Pending) (fwd : Nat) (c : Cmd) (s : State),
    p.from_ = none ∧
    p.cmd = some c ∧
    p.next = false ∧
    p.best = none :=
  ⟨{ wPending with cmd := some (wCmd 1 []) }, 0, wCmd 1 [], wLook, by decide +kernel⟩

theorem wit_ForwardedLookups_notAssigned : ∃ (node id part hops depth : Nat) (hs ws ts : List Nat) (hit : Option PrefixHit) (s : State),
    Live s ∧
    s.nodeValid = false :=
  ⟨1, 0, 0, 0, 0, [], [], [], none, wUp, by decide +kernel⟩

theorem wit_RegisterWrites_rw : ∃ (via o v : Nat) (r : RegRow) (f : Fld) (s : State),
    s.fnLive via = true ∧
    via ≠ fromI3c ∧
    o < bar4Base ∧
    o % 8 = 0 ∧
    wordFields o = [(r, f)] ∧
    f.off = o ∧
    r.lo + r.width ≤ 64 ∧
    s.mayWrite via o r.wr = true ∧
    r.w1c = false ∧
    o / 0x10000 ≠ pSsq :=
  ⟨0, pHrc * 0x10000 + 0x48, 5, ⟨0x48, 0, 64, 0, 1, 0, 1, 0, false, false, false, .fn0, .any⟩, ⟨pHrc * 0x10000 + 0x48, 0, 64, 0⟩, wUp, by decide +kernel⟩

theorem wit_RegisterWrites_w1c : ∃ (via o v : Nat) (r : RegRow) (f : Fld) (s : State),
    s.fnLive via = true ∧
    via ≠ fromI3c ∧
    o < bar4Base ∧
    o % 8 = 0 ∧
    wordFields o = [(r, f)] ∧
    f.off = o ∧
    r.lo + r.width ≤ 64 ∧
    s.mayWrite via o r.wr = true ∧
    r.w1c = true ∧
    f ≠ Reg.blkErrstateSecondary (o / 0x10000) ∧
    o / 0x10000 ≠ pSsq :=
  ⟨0, pHrc * 0x10000 + 0x50, 5, ⟨0x50, 0, 64, 0, 1, 0, 1, 0, false, false, true, .fn0, .any⟩, ⟨pHrc * 0x10000 + 0x50, 0, 64, 0⟩, wUp, by decide +kernel⟩

theorem wit_RegisterWrites_mayNot : ∃ (via o v : Nat) (s : State),
    via ≠ fromI3c ∧
    o < bar4Base ∧
    o % 8 = 0 ∧
    o / 0x10000 ≠ pSsq ∧
    (wordFields o).all (fun x => !s.mayWrite via x.2.off x.1.wr) = true :=
  ⟨1, pHrc * 0x10000 + 0x48, 5, wUp, by decide +kernel⟩

theorem wit_RegisterWrites_size : ∃ (via o size v : Nat) (s : State),
    ((size ≠ 4 ∧ size ≠ 8) ∨ o % size ≠ 0) :=
  ⟨0, 4, 8, 1, wUp, by decide +kernel⟩

theorem wit_RegisterWrites_unlock : ∃ (slot mp mo : Nat) (s : State),
    s.fnShown 0 = true ∧
    s.mgc.off = false ∧
    (page? slot).isSome = true ∧
    mp < 2 ^ 16 ∧ mo ≤ 1 ∧
    (s.getF (Reg.blkExpertUnlockMaskPart slot) ≠ mp ∨ s.getF (Reg.blkExpertUnlockMaskOper slot) ≠ mo) :=
  ⟨pTmg, 3, 1, wUp, by decide +kernel⟩

theorem wit_RegisterWrites_noKey : ∃ (via slot mp mo key : Nat) (s : State),
    (via ≠ 0 ∨ key ≠ 0xE4E4 ∨ (page? slot).isNone = true) :=
  ⟨0, pTmg, 3, 1, 7, wUp, by decide +kernel⟩

theorem wit_RegisterWrites_inject : ∃ (slot v : Nat) (s : State),
    s.fnShown 0 = true ∧
    Live s ∧
    (page? slot).isSome = true ∧
    (v = 1 ∨ v = 2) ∧
    s.flag (Reg.blkExpertUnlockMaskOper slot) = true ∧
    tget s.frc.injected slot = none :=
  ⟨pTmg, 1, wExpert pTmg wUp, by decide +kernel⟩

theorem wit_RegisterWrites_noInject : ∃ (via slot v : Nat) (s : State),
    (via ≠ 0 ∨ s.flag (Reg.blkExpertUnlockMaskOper slot) = false) :=
  ⟨0, pTmg, 1, wUp, by decide +kernel⟩

theorem wit_RegisterWrites_selftest : ∃ (slot res kind : Nat) (u : Resource) (s : State),
    s.fnShown 0 = true ∧
    Live s ∧
    (page? slot).isSome = true ∧
    s.flag (Reg.blkSelftestBusy slot) = false ∧
    namedUnit s slot kind res = some u ∧
    kind ≠ 6 ∧
    isRetired s u = false ∧ underTest s u = false :=
  ⟨pMxg, 3, 2, ⟨pMxg, 2, 3⟩, wUp, by decide +kernel⟩

theorem wit_RegisterWrites_noUnit : ∃ (via slot res kind : Nat) (s : State),
    (via ≠ 0 ∨ (kindListed slot kind = true ∧ namedUnit s slot kind res = none) ∨ s.flag (Reg.blkSelftestBusy slot) = true) :=
  ⟨0, pMxg, 99, 2, wUp, by decide +kernel⟩

theorem wit_RegisterWrites_wheel : ∃ (via w v : Nat) (s : State),
    w < 256 ∧
    s.expertOpen pSsq via = true ∧
    s.expertObject pSsq via (wheelPart s w) = true ∧
    s.wheel? w = none :=
  ⟨0, 3, 0x113, wExpert pSsq wUp, by decide +kernel⟩

theorem wit_RegisterWrites_wheelClosed : ∃ (via w reg v : Nat) (s : State),
    s.expertOpen pSsq via = false :=
  ⟨0, 3, 0, 5, wUp, by decide +kernel⟩

theorem wit_RegisterWrites_noKind : ∃ (slot res kind : Nat) (s : State),
    kindListed slot kind = false :=
  ⟨pMxg, 0, 77, wUp, by decide +kernel⟩

theorem wit_RegisterWrites_migrate : ∃ (via size v : Nat) (s : State),
    via ≠ fromI3c ∧
    migrateOk (writeWord via Reg.tmgMigrateHiWater.off 0 size v (fun _ => true) s) = false :=
  ⟨0, 8, 0, wUp, by decide +kernel⟩

theorem wit_ErrorsAndSelfTests_corrected : ∃ (slot inst : Nat) (s : State),
    Live s ∧
    (page? slot).isSome = true ∧
    isFenced s slot inst = false :=
  ⟨pTmg, 0, wUp, by decide +kernel⟩

theorem wit_ErrorsAndSelfTests_entered : ∃ (x : ErrIn) (s : State),
    (s.mach (machKey x.slot x.inst)).state = .normal ∧
    x.unit = none ∧
    x.cls = .corrected ∧
    (s.elog x.slot).busy.length < 64 :=
  ⟨{ slot := pTmg, ev := .corrected 4, cls := .corrected }, wUp, by decide +kernel⟩

theorem wit_ErrorsAndSelfTests_tag : ∃ (slot inst tier unit : Nat) (s : State),
    Live s ∧
    (page? slot).isSome = true ∧
    isFenced s slot inst = false ∧
    s.sec.badUnits.contains (tier, unit) = false :=
  ⟨pSec, 0, 1, 8, wUp, by decide +kernel⟩

theorem wit_ErrorsAndSelfTests_hub : ∃ (slot inst : Nat) (s : State),
    Live s ∧
    (page? slot).isSome = true ∧
    isFenced s slot inst = false :=
  ⟨pSec, 0, wUp, by decide +kernel⟩

theorem wit_ErrorsAndSelfTests_fatal : ∃ (s : State),
    (s.getF Reg.mgcPwrStatState = 1 ∨ s.getF Reg.mgcPwrStatState = 2) :=
  ⟨wUp.setF Reg.mgcPwrStatState 1, by decide +kernel⟩

theorem wit_ErrorsAndSelfTests_logPath : ∃ (slot inst : Nat) (s : State),
    Live s ∧
    (page? slot).isSome = true ∧
    isFenced s slot inst = false :=
  ⟨pSec, 0, wUp, by decide +kernel⟩

theorem wit_ErrorsAndSelfTests_partition : ∃ (slot inst n : Nat) (s : State),
    Live s ∧
    (page? slot).isSome = true ∧
    isFenced s slot inst = false ∧
    n < 16 :=
  ⟨pTmg, 0, 0, wUp, by decide +kernel⟩

theorem wit_ErrorsAndSelfTests_drains : ∃ (n : Nat) (s : State),
    s.pstate n = psActive ∧
    s.ssq.turns.filter (fun t => t.part == n) = [] :=
  ⟨0, wUp, by decide +kernel⟩

theorem wit_ErrorsAndSelfTests_fenced : ∃ (slot inst : Nat) (e : ErrSource) (s : State),
    isFenced s slot inst = true :=
  ⟨pSec, 0, .hub, { wUp with frc := { machines := [(machKey pSec 0, { state := .fenced })] } }, by decide +kernel⟩

theorem wit_ErrorsAndSelfTests_passes : ∃ (slot kind num : Nat) (units : List Nat) (t : SelfTest) (s : State),
    Live s ∧
    s.frc.tests.find? (·.unit == ⟨slot, kind, num⟩) = some t ∧
    t.failed = false :=
  ⟨pMxg, 2, 3, [], { unit := ⟨pMxg, 2, 3⟩ }, { wUp with frc := { tests := [{ unit := ⟨pMxg, 2, 3⟩ }] } }, by decide +kernel⟩

theorem wit_ErrorsAndSelfTests_fails : ∃ (slot kind num : Nat) (units : List Nat) (t : SelfTest) (s : State),
    Live s ∧
    s.frc.tests.find? (·.unit == ⟨slot, kind, num⟩) = some t :=
  ⟨pMxg, 2, 3, [], { unit := ⟨pMxg, 2, 3⟩ }, { wUp with frc := { tests := [{ unit := ⟨pMxg, 2, 3⟩ }] } }, by decide +kernel⟩

theorem wit_ErrorsAndSelfTests_noTest : ∃ (slot kind num : Nat) (p : Bool) (units : List Nat) (s : State),
    s.frc.tests = [] :=
  ⟨pMxg, 2, 3, true, [], wUp, by decide +kernel⟩

theorem wit_FirmwareAndPowerRequests_load : ∃ (len4k : Nat) (image : Option (List Byte)) (s : State),
    s.fnShown 0 = true ∧
    s.booting = true ∧
    s.sec.fuses.lifecycle ≠ 3 ∧
    s.getF Reg.mgcBootStage = 1 :=
  ⟨1, none, State.reset.setF Reg.mgcBootStage 1, by decide +kernel⟩

theorem wit_FirmwareAndPowerRequests_elsewhere : ∃ (via len4k : Nat) (image : Option (List Byte)) (s : State),
    (via ≠ 0 ∨ s.booting = false ∨ s.sec.fuses.lifecycle = 3 ∨ 2 ≤ s.getF Reg.mgcBootStage) :=
  ⟨0, 1, none, wUp.setF Reg.mgcBootStage 4, by decide +kernel⟩

theorem wit_FirmwareAndPowerRequests_request : ∃ (via t : Nat) (s : State),
    Table.wf s.regs = true ∧
    s.mgc.off = false ∧
    ((via = 0 ∧ s.fnShown 0 = true) ∨ via = fromI3c) ∧
    s.getF Reg.mgcPwrCtrlStatus ≠ 3 ∧
    1 ≤ t ∧ t ≤ 3 ∧
    s.pwr = pwrRun ∧
    (t = 2 ∨ t = 3) ∧
    noneBusy s = true :=
  ⟨0, 2, wReady.setF Reg.mgcPwrStatState 1, by decide +kernel⟩

theorem wit_FirmwareAndPowerRequests_refused : ∃ (via t : Nat) (s : State),
    s.mgc.off = false ∧
    ((via = 0 ∧ s.fnShown 0 = true) ∨ via = fromI3c) ∧
    s.getF Reg.mgcPwrCtrlStatus ≠ 3 ∧
    1 ≤ t ∧ t ≤ 3 ∧
    s.pwr = pwrRun ∧
    noneBusy s = false :=
  ⟨0, 2, wUp.setF Reg.mgcPwrStatState 1, by decide +kernel⟩

theorem wit_FirmwareAndPowerRequests_halted : ∃ (via t : Nat) (s : State),
    s.mgc.off = false ∧
    ((via = 0 ∧ s.fnShown 0 = true) ∨ via = fromI3c) ∧
    s.getF Reg.mgcPwrCtrlStatus ≠ 3 ∧
    1 ≤ t ∧ t ≤ 3 ∧
    s.pwr = pwrHalted :=
  ⟨0, 2, wUp.setF Reg.mgcPwrStatState 4, by decide +kernel⟩

theorem wit_FirmwareAndPowerRequests_quiesce : ∃ (s : State),
    Live s ∧
    s.mgc.target = some pwrQuiesce ∧
    s.pwr = pwrRun :=
  ⟨{ wUp.setF Reg.mgcPwrStatState 1 with mgc := { target := some 2 } }, by decide +kernel⟩

theorem wit_FirmwareAndPowerRequests_mgmt : ∃ (s : State),
    Table.wf s.regs = true ∧
    Live s ∧
    s.mgc.target = some pwrMgmt ∧
    (s.pwr = pwrRun ∨ s.pwr = pwrQuiesce) :=
  ⟨{ wUp.setF Reg.mgcPwrStatState 1 with mgc := { target := some 3 } }, by decide +kernel⟩

theorem wit_FirmwareAndPowerRequests_noRequest : ∃ (s : State),
    s.mgc.target = none :=
  ⟨wUp, by decide +kernel⟩

theorem wit_FirmwareAndPowerRequests_warm : ∃ (via : Nat) (s : State),
    s.mgc.off = false ∧
    ((via = 0 ∧ s.fnShown 0 = true) ∨ via = fromI3c) :=
  ⟨fromI3c, wUp, by decide +kernel⟩

theorem wit_FirmwareAndPowerRequests_cold : ∃ (via key warm : Nat) (s : State),
    ((via ≠ 0 ∧ via ≠ fromI3c) ∨ key ≠ 0xB007 ∨ warm ≠ 1) :=
  ⟨0, 5, 1, wUp, by decide +kernel⟩

theorem wit_FirmwareAndPowerRequests_warmState : ∃ (cause : Nat) (s : State),
    cause < 4 :=
  ⟨2, wUp, by decide +kernel⟩

theorem wit_SupplyAndHeat_removal : ∃ (s : State),
    s.mgc.off = false :=
  ⟨wUp, by decide +kernel⟩

theorem wit_SupplyAndHeat_poweron : ∃ (pos scope sa : Nat) (s : State),
    s.mgc.off = true :=
  ⟨1, 0, 3, { wUp with mgc := { off := true } }, by decide +kernel⟩

theorem wit_SupplyAndHeat_already : ∃ (pos scope sa : Nat) (s : State),
    s.mgc.off = false :=
  ⟨1, 0, 3, wUp, by decide +kernel⟩

theorem wit_SupplyAndHeat_excursion : ∃ (mv : Nat) (s : State),
    s.mgc.off = false ∧
    (mv < 40000 ∨ 60000 < mv) ∧
    s.flag Reg.mgcPwrStatVinExcursion = false :=
  ⟨39000, wUp, by decide +kernel⟩

theorem wit_SupplyAndHeat_backInRange : ∃ (mv : Nat) (s : State),
    s.mgc.off = false ∧
    40000 ≤ mv ∧ mv ≤ 60000 :=
  ⟨48000, wUp, by decide +kernel⟩

theorem wit_SupplyAndHeat_capRises : ∃ (mv ma mw : Nat) (s : State),
    Table.wf s.regs = true ∧
    s.mgc.off = false ∧
    powerLimit (s.getF Reg.mgcPwrCapWatts) mv < mw * 10 ∧
    s.mgc.sCap < 8 :=
  ⟨48000, 20000, 2000000, wUp, by decide +kernel⟩

theorem wit_SupplyAndHeat_capFalls : ∃ (mv ma mw : Nat) (s : State),
    s.mgc.off = false ∧
    mw * 1000 < powerLimit (s.getF Reg.mgcPwrCapWatts) mv * 95 ∧
    9 ≤ s.mgc.lowPeriods :=
  ⟨48000, 20000, 100, { wUp with mgc := { sCap := 3, lowPeriods := 9 } }, by decide +kernel⟩

theorem wit_SupplyAndHeat_hot : ∃ (temps : List (Option Nat)) (s : State),
    s.mgc.off = false ∧
    s.mgc.hotSamples = 9 ∧
    s.mgc.sTherm < 8 ∧
    (temps[0]?).join = some 2047 ∧
    throttleC s 0 ≤ 255 :=
  ⟨[some 2047], { wUp with mgc := { hotSamples := 9 } }, by decide +kernel⟩

theorem wit_SupplyAndHeat_cool : ∃ (s : State),
    Table.wf s.regs = true ∧
    s.mgc.off = false ∧
    s.mgc.coolSamples = 99 :=
  ⟨{ wUp with mgc := { coolSamples := 99, sTherm := 2 } }, by decide +kernel⟩

theorem wit_SupplyAndHeat_trip : ∃ (sensor reading : Nat) (s : State),
    s.mgc.off = false ∧
    sensor < 13 ∧
    s.pwr = pwrRun ∧
    s.mgc.target = none ∧
    s.mgc.tripped = false ∧
    ((tripC sensor * 8 : Nat) : Int) ≤ sext 16 (reading % 2 ^ 16) :=
  ⟨3, 930, wUp.setF Reg.mgcPwrStatState 1, by decide +kernel⟩

theorem wit_BootSequence_hbm : ∃ (s : State),
    s.booting = true ∧
    s.getF Reg.mgcBootStage = 1 ∧
    s.pwr = pwrBoot ∧
    s.flag Reg.mgcBootHbmTrained = false :=
  ⟨State.reset.setF Reg.mgcBootStage 1, by decide +kernel⟩

theorem wit_BootSequence_rom : ∃ (s : State),
    s.booting = true ∧
    s.getF Reg.mgcBootStage = 0 ∧
    s.flag (Reg.mgcTempValid 4) = true ∧
    coolBy s 10 = true ∧
    s.pwr = pwrBoot ∧
    s.flag Reg.mgcBootHbmTrained = false :=
  ⟨State.reset.setF (Reg.mgcTempValid 4) 1, by decide +kernel⟩

theorem wit_BootSequence_dimm : ∃ (g : Nat) (s : State),
    s.booting = true ∧
    s.getF Reg.mgcBootStage = 1 ∧
    s.pwr = pwrBoot ∧
    s.flag Reg.mgcBootDimmTrained = false ∧
    (g = 64 ∨ g = 128 ∨ g = 256) :=
  ⟨64, State.reset.setF Reg.mgcBootStage 1, by decide +kernel⟩

theorem wit_BootSequence_population : ∃ (l : List (Option Nat)) (s : State),
    s.booting = true ∧
    s.getF Reg.mgcBootStage = 1 ∧
    s.pwr = pwrBoot ∧
    s.flag Reg.mgcBootDimmTrained = false ∧
    populationOk l = false :=
  ⟨[some 64], State.reset.setF Reg.mgcBootStage 1, by decide +kernel⟩

theorem wit_BootSequence_wipe0 : ∃ (s : State),
    s.booting = true ∧
    s.flag Reg.mgcBootHbmTrained = true ∧
    s.flag Reg.mgcBootT0Wiped = false :=
  ⟨State.reset.setF Reg.mgcBootHbmTrained 1, by decide +kernel⟩

theorem wit_BootSequence_wipe1 : ∃ (s : State),
    s.booting = true ∧
    s.flag Reg.mgcBootDimmTrained = true ∧
    s.flag Reg.mgcBootT1Wiped = false :=
  ⟨State.reset.setF Reg.mgcBootDimmTrained 1, by decide +kernel⟩

theorem wit_BootSequence_wiped : ∃ (k : Nat) (s : State),
    k < 4 :=
  ⟨0, wUp, by decide +kernel⟩

theorem wit_BootSequence_fwInit : ∃ (v : FwValues) (s : State),
    s.booting = true ∧
    s.getF Reg.mgcBootStage = 2 ∧
    s.pwr = pwrBoot :=
  ⟨wFw, State.reset.setF Reg.mgcBootStage 2, by decide +kernel⟩

theorem wit_BootSequence_fwAgain : ∃ (v : FwValues) (s : State),
    s.booting = true ∧
    s.getF Reg.mgcBootStage = 2 ∧
    s.pwr = pwrMgmt :=
  ⟨wFw, (State.reset.setF Reg.mgcBootStage 2).setF Reg.mgcPwrStatState 3, by decide +kernel⟩

theorem wit_BootSequence_ready : ∃ (s : State),
    s.getF Reg.mgcBootStage = 3 ∧
    s.flag Reg.mgcBootT0Wiped = true ∧
    s.flag Reg.mgcBootT1Wiped = true ∧
    s.pwr = pwrBoot ∧
    s.mgc.target = none :=
  ⟨((State.reset.setF Reg.mgcBootStage 3).setF Reg.mgcBootT0Wiped 1).setF Reg.mgcBootT1Wiped 1, by decide +kernel⟩

theorem wit_BootSequence_notYet : ∃ (s : State),
    (s.getF Reg.mgcBootStage ≠ 3 ∨ s.flag Reg.mgcBootT0Wiped = false ∨ s.flag Reg.mgcBootT1Wiped = false) :=
  ⟨State.reset, by decide +kernel⟩

theorem wit_BootSequence_notBooting : ∃ (v : FwValues) (l : List (Option Nat)) (s : State),
    s.booting = false :=
  ⟨wFw, [], { State.reset with mgc := { fatal := true } }, by decide +kernel⟩

theorem wit_DiscretePins_perst : ∃ (s : State),
    s.mgc.off = false ∧
    s.mgc.perstHeld = false ∧
    s.flag Reg.mgcStrapPerstScope = false :=
  ⟨wUp, by decide +kernel⟩

theorem wit_DiscretePins_perstLink : ∃ (soon : Bool) (s : State),
    s.mgc.off = false ∧
    s.mgc.perstHeld = false ∧
    s.flag Reg.mgcStrapPerstScope = true ∧
    s.getF Reg.mgcBootStage ≠ 0 :=
  ⟨false, (wUp.setF Reg.mgcStrapPerstScope 1).setF Reg.mgcBootStage 4, by decide +kernel⟩

theorem wit_DiscretePins_perstRom : ∃ (soon : Bool) (s : State),
    s.flag Reg.mgcStrapPerstScope = true ∧
    s.getF Reg.mgcBootStage = 0 :=
  ⟨false, State.reset.setF Reg.mgcStrapPerstScope 1, by decide +kernel⟩

theorem wit_DiscretePins_release : ∃ (s : State),
    s.mgc.off = false ∧
    s.mgc.perstHeld = true :=
  ⟨{ wUp with mgc := { perstHeld := true } }, by decide +kernel⟩

theorem wit_DiscretePins_held : ∃ (soon : Bool) (s : State),
    s.mgc.perstHeld = true :=
  ⟨false, { wUp with mgc := { perstHeld := true } }, by decide +kernel⟩

theorem wit_DiscretePins_glitch : ∃ (pin : Nat) (s : State),
    s.mgc.off = false ∧
    filtered pin = true :=
  ⟨3, wUp, by decide +kernel⟩

theorem wit_DiscretePins_unfiltered : ∃ (pin : Nat) (d q : Bool) (s : State),
    filtered pin = false :=
  ⟨2, true, true, wUp, by decide +kernel⟩

theorem wit_DiscretePins_stuck : ∃ (s : State),
    s.mgc.off = false ∧
    s.flag (Reg.mgcPinMasked 1) = false :=
  ⟨wRun, by decide +kernel⟩

theorem wit_DiscretePins_unmask : ∃ (s : State),
    s.mgc.off = false ∧
    s.flag (Reg.mgcPinMasked 1) = true :=
  ⟨wUp.setF (Reg.mgcPinMasked 1) 1, by decide +kernel⟩

theorem wit_DiscretePins_otherPin : ∃ (pin : Nat) (s : State),
    pin ≠ 1 :=
  ⟨3, wUp, by decide +kernel⟩

theorem wit_BeatAndStall_masked : ∃ (s : State),
    s.flag (Reg.mgcPinMasked 1) = true :=
  ⟨wRun.setF (Reg.mgcPinMasked 1) 1, by decide +kernel⟩

theorem wit_BeatAndStall_deaf : ∃ (s : State),
    (∀ w ∈ s.ssq.wheels, s.flag (Reg.ssqWheelBeatEn w.1) = false) :=
  ⟨wRun, by decide +kernel⟩

theorem wit_BeatAndStall_beat : ∃ (w : Nat) (x : Wheel) (m : Model) (s : State),
    Live s ∧
    s.flag (Reg.mgcPinMasked 1) = false ∧
    s.ssq.wheels = [(w, x)] ∧
    s.flag (Reg.ssqWheelBeatEn w) = true ∧
    s.model? x.part x.model = some m ∧
    (let y : Wheel := if x.antLayer + 1 < m.layers then { x with antLayer := x.antLayer + 1 } else { x with antStep := (x.antStep + 1) % 2 ^ 32, antLayer := 0 }
   beatAhead m.layers y ≤ 1) :=
  ⟨0, wWheel, wModel, wRun.setF (Reg.ssqWheelBeatEn 0) 1, by decide +kernel⟩

theorem wit_BeatAndStall_resync : ∃ (w : Nat) (x : Wheel) (m : Model) (s : State),
    Live s ∧
    s.flag (Reg.mgcPinMasked 1) = false ∧
    s.ssq.wheels = [(w, x)] ∧
    s.flag (Reg.ssqWheelBeatEn w) = true ∧
    s.model? x.part x.model = some m ∧
    (let y : Wheel := if x.antLayer + 1 < m.layers then { x with antLayer := x.antLayer + 1 } else { x with antStep := (x.antStep + 1) % 2 ^ 32, antLayer := 0 }
   1 < beatAhead m.layers y) :=
  ⟨0, { wWheel with antLayer := 2 }, { wModel with layers := 6 }, { wRun with ssq := { wRun.ssq with models := [{ wModel with layers := 6 }], wheels := [(0, { wWheel with antLayer := 2 })] } }.setF (Reg.ssqWheelBeatEn 0) 1, by decide +kernel⟩

theorem wit_BeatAndStall_stall : ∃ (w : Nat) (x : Wheel) (s : State),
    Live s ∧
    s.wheel? w = some x ∧
    (runningOn s w).isEmpty = false :=
  ⟨0, wWheel, wTurns, by decide +kernel⟩

theorem wit_BeatAndStall_rollback : ∃ (w : Nat) (x : Wheel) (m : Model) (s : State),
    s.wheel? w = some x ∧
    s.model? x.part x.model = some m :=
  ⟨0, wWheel, wModel, wRun, by decide +kernel⟩

theorem wit_BeatAndStall_idle : ∃ (w : Nat) (s : State),
    (runningOn s w).isEmpty = true :=
  ⟨0, wRun, by decide +kernel⟩

theorem wit_BeatAndStall_ahead : ∃ (n : Nat) (x : Wheel),
    x.antStep < 2 ^ 32 ∧ x.lastStep < 2 ^ 32 ∧
    x.antLayer < n ∧ x.lastLayer < n :=
  ⟨4, { wWheel with antStep := 1, antLayer := 0, lastLayer := 3 }, by decide +kernel⟩

theorem wit_StepBoundary_busy : ∃ (w : Nat) (x : Wheel) (s : State),
    s.wheel? w = some x ∧
    (x.flushing = true ∨ (x.roster.isSome = true ∧ x.blockWritten = false)) :=
  ⟨0, wStepWheel, wStep, by decide +kernel⟩

theorem wit_StepBoundary_noWheel : ∃ (w : Nat) (s : State),
    s.wheel? w = none :=
  ⟨5, wRun, by decide +kernel⟩

theorem wit_StepBoundary_first : ∃ (w : Nat) (x : Wheel) (s : State),
    Live s ∧
    s.wheel? w = some x ∧
    x.flushing = false ∧
    x.roster = none :=
  ⟨0, wWheel, wTurns, by decide +kernel⟩

theorem wit_StepBoundary_next : ∃ (w : Nat) (x : Wheel) (es : List RosterEntry) (s : State),
    Live s ∧
    s.wheel? w = some x ∧
    x.flushing = false ∧
    x.roster = some es ∧
    x.blockWritten = true :=
  ⟨0, { wStepWheel with blockWritten := true }, [wEnt], wStepIs { wStepWheel with blockWritten := true }, by decide +kernel⟩

theorem wit_StepBoundary_closed : ∃ (w : Nat) (x : Wheel) (s : State),
    s.wheel? w = some x :=
  ⟨0, wStepWheel, wStep, by decide +kernel⟩

theorem wit_StepBoundary_nobody : ∃ (w : Nat) (s : State),
    runningOn s w = [] :=
  ⟨0, wRun, by decide +kernel⟩

theorem wit_StepBoundary_writes : ∃ (w : Nat) (x : Wheel) (t : Turn) (s : State),
    s.wheel? w = some x ∧
    runningOn s w = [t] ∧
    turnOf s t.session = some t ∧
    (rosterOf s x t).isEmpty = false :=
  ⟨0, wWheel, wTurn, wTurns, by decide +kernel⟩

theorem wit_StepBoundary_nodes : ∃ (tb : Tail) (t : Turn) (i g : Nat) (y : Session),
    1 ≤ tb.tree.length :=
  ⟨wTailB, wTurn, 0, 3, wActive, by decide +kernel⟩

theorem wit_StepBoundary_revive : ∃ (i n : Nat) (t : Turn) (y : Session) (s : State),
    Live s ∧
    turnOf s i = some t ∧
    tget s.ssq.sessions i = some y ∧
    t.state = .reviving ∧
    residentLayers s y (layersOf s y) = n ∧
    t.resident < n :=
  ⟨0, 1, { wTurn with state := .reviving }, wActive, { wTurns with ssq := { wTurns.ssq with turns := [{ wTurn with state := .reviving }, { wTurn with session := 1 }] } }, by decide +kernel⟩

theorem wit_StepBoundary_nothingNew : ∃ (i : Nat) (t : Turn) (y : Session) (s : State),
    turnOf s i = some t ∧
    tget s.ssq.sessions i = some y ∧
    residentLayers s y (layersOf s y) ≤ t.resident :=
  ⟨0, { wTurn with resident := 1 }, wActive, { wTurns with ssq := { wTurns.ssq with turns := [{ wTurn with resident := 1 }] } }, by decide +kernel⟩

theorem wit_StepBoundary_commits : ∃ (i : Nat) (late : Bool) (t : Turn) (y : Session) (x : Wheel) (m : Model) (tb : Tail) (e : RosterEntry) (k : Walk) (s : State),
    Live s ∧
    turnOf s i = some t ∧
    tget s.ssq.sessions i = some y ∧
    s.wheel? t.wheel = some x ∧
    (x.entriesOf t.slot).head? = some e ∧
    s.model? x.part x.model = some m ∧
    s.tail? x.part m.tailId = some tb ∧
    t.state = .running ∧
    x.blockWritten = false ∧
    x.resolved t.slot = false ∧
    tailReady s x t = true ∧
    lastMember y = true ∧ recorderStalls s y = false ∧ turnWalk x t y tb = some k ∧
    (commitPages i y m.layers (if e.kind = 1 then y.history.length else y.kvLen + k.toks.length) k.kept k.toks s).isSome = true :=
  ⟨0, false, wParams, wActive, wTailWheel, wModel, wTailB, wEnt, { kept := [wEnt], toks := [0], reason := 2 }, wCommit, by decide +kernel⟩

theorem wit_StepBoundary_member : ∃ (i : Nat) (late : Bool) (t : Turn) (y : Session) (x : Wheel) (m : Model) (tb : Tail) (e : RosterEntry) (s : State),
    Live s ∧
    turnOf s i = some t ∧
    tget s.ssq.sessions i = some y ∧
    s.wheel? t.wheel = some x ∧
    (x.entriesOf t.slot).head? = some e ∧
    s.model? x.part x.model = some m ∧
    s.tail? x.part m.tailId = some tb ∧
    t.state = .running ∧
    x.blockWritten = false ∧
    x.resolved t.slot = false ∧
    tailReady s x t = true ∧
    lastMember y = false ∧ t.drain = false :=
  ⟨0, false, wParams, wFirst, wOver, wModel, wTailB, wEnt, { wCommitOf wOver with ssq := { (wCommitOf wOver).ssq with sessions := [(0, wFirst)] } }, by decide +kernel⟩

theorem wit_ItemsAndPages_noGang : ∃ (n : Nat) (s : State),
    pickGang (dealList s n) = none :=
  ⟨0, wRun, by decide +kernel⟩

theorem wit_ItemsAndPages_deal : ∃ (n : Nat) (d : DealRef) (x : Wheel) (m : Model) (p : LayerPart) (s : State),
    Clocked s ∧
    pickGang (dealList s n) = some (d, []) ∧
    s.wheel? d.wheel = some x ∧
    x.parts.find? (·.stamp == d.stamp) = some p ∧
    s.model? x.part x.model = some m ∧
    ((gangPages s x m p d.gang).filter fun h => !x.pins.contains h).find? (fun h => (addPin h s).isNone) = none :=
  ⟨0, { wheel := 0, stamp := 1, gang := 0, size := 1, passed := 0, arrays := [3] }, wStepIn wProject, wModel, wProject, wDeal wProject, by decide +kernel⟩

theorem wit_ItemsAndPages_denied : ∃ (n h : Nat) (d : DealRef) (x : Wheel) (m : Model) (p : LayerPart) (s : State),
    Clocked s ∧
    pickGang (dealList s n) = some (d, []) ∧
    s.wheel? d.wheel = some x ∧
    x.parts.find? (·.stamp == d.stamp) = some p ∧
    s.model? x.part x.model = some m ∧
    ((gangPages s x m p d.gang).filter fun h => !x.pins.contains h).find? (fun h => (addPin h s).isNone) = some h ∧
    ((s.rec? h).map fun r => !r.recovery && !r.lost).getD false = false :=
  ⟨0, 77, { wheel := 0, stamp := 1, gang := 0, size := 1, passed := 0, arrays := [3] }, wStepIn wAttend, wModel, wAttend, wDeal wAttend, by decide +kernel⟩

theorem wit_ItemsAndPages_corrupt : ∃ (w st g h : Nat) (rest : List Nat) (x : Wheel) (m : Model) (p : LayerPart) (r : PageRec) (s : State),
    s.wheel? w = some x ∧
    x.parts.find? (·.stamp == st) = some p ∧
    s.model? x.part x.model = some m ∧
    (p.gangs[g]?).map (·.toRead) = some (h :: rest) ∧
    s.rec? h = some r ∧
    r.recovery = false ∧ r.lost = false ∧
    expanderCheck r.geom r.facts (slotBytes s r.tier r.base r.slot4k) ≠ none :=
  ⟨0, 1, 0, 77, [], wStepIn wReading, wModel, wReading, { wRec with slot4k := 1 }, { wDeal wReading with tmg := { records := [(77, { wRec with slot4k := 1 })] } }, by decide +kernel⟩

theorem wit_ItemsAndPages_gone : ∃ (w st g h : Nat) (rest : List Nat) (x : Wheel) (m : Model) (p : LayerPart) (s : State),
    Clocked s ∧
    s.wheel? w = some x ∧
    x.parts.find? (·.stamp == st) = some p ∧
    s.model? x.part x.model = some m ∧
    (p.gangs[g]?).map (·.toRead) = some (h :: rest) ∧
    s.rec? h = none :=
  ⟨0, 1, 0, 77, [], wStepIn wReading, wModel, wReading, wDeal wReading, by decide +kernel⟩

theorem wit_ItemsAndPages_read : ∃ (w st g h : Nat) (rest : List Nat) (x : Wheel) (m : Model) (p : LayerPart) (r : PageRec) (s : State),
    Live s ∧
    s.wheel? w = some x ∧
    x.parts.find? (·.stamp == st) = some p ∧
    s.model? x.part x.model = some m ∧
    (p.gangs[g]?).map (·.toRead) = some (h :: rest) ∧
    s.rec? h = some r ∧
    namersOf s x m p g h = [] ∧
    m.geom.latent = false ∧
    r.tier = 0 ∧
    r.recovery = false ∧ r.lost = false ∧
    expanderCheck r.geom r.facts (slotBytes s 0 r.base r.slot4k) = none :=
  ⟨0, 1, 0, 77, [], wStepIn wRead, wModel, wRead, wPageRec, wPage, by decide +kernel⟩

theorem wit_ItemsAndPages_read0 : ∃ (w st g : Nat) (x : Wheel) (p : LayerPart) (s : State),
    s.wheel? w = some x ∧
    x.parts.find? (·.stamp == st) = some p ∧
    ((p.gangs[g]?).map (·.toRead) = some [] ∨ p.gangs[g]? = none) :=
  ⟨0, 1, 0, wStepIn wProject, wProject, wDeal wProject, by decide +kernel⟩

theorem wit_ItemsAndPages_notDealt : ∃ (w st k : Nat) (x : Wheel) (m : Model) (p : LayerPart) (i : Item) (nodes : List NodeVal) (s : State),
    Clocked s ∧
    (modPart w st (fun p => { p with nodes := p.nodes ++ nodes.map fun v => { v.node with after := p.partials.length } }) s).wheel? w = some x ∧
    x.parts.find? (·.stamp == st) = some p ∧
    s.model? x.part x.model = some m ∧
    p.items[k]? = some i ∧
    (i.array = none ∨ i.done = true) :=
  ⟨0, 1, 0, wStepIn wProject, wModel, wProject, { kind := .project 0 1 0 2, gang := 0 }, [], wDeal wProject, by decide +kernel⟩

theorem wit_ItemsAndPages_attend : ∃ (w st k a t hg sc q : Nat) (x : Wheel) (m : Model) (p : LayerPart) (i : Item) (s : State),
    Clocked s ∧
    (modPart w st (fun p => { p with nodes := p.nodes ++ [] }) s).wheel? w = some x ∧
    x.parts.find? (·.stamp == st) = some p ∧
    s.model? x.part x.model = some m ∧
    p.items[k]? = some i ∧
    i.array = some a ∧
    i.done = false ∧
    i.failedOn = none ∧
    (p.gangs[i.gang]?).map (·.toRead) = some [] ∧
    i.kind = .attend t hg sc q :=
  ⟨0, 1, 0, 3, 0, 0, 0, 0, wStepIn (wHeld wAttend), wModel, wHeld wAttend, { kind := .attend 0 0 0 0, gang := 0, array := some 3 }, wDeal (wHeld wAttend), by decide +kernel⟩

theorem wit_ItemsAndPages_heads : ∃ (w st k a t : Nat) (x : Wheel) (m : Model) (p : LayerPart) (i : Item) (s : State),
    Clocked s ∧
    (modPart w st (fun p => { p with nodes := p.nodes ++ [] }) s).wheel? w = some x ∧
    x.parts.find? (·.stamp == st) = some p ∧
    s.model? x.part x.model = some m ∧
    p.items[k]? = some i ∧
    i.array = some a ∧
    i.done = false ∧
    i.failedOn = none ∧
    (p.gangs[i.gang]?).map (·.toRead) = some [] ∧
    i.kind = .heads t :=
  ⟨0, 1, 0, 3, 0, wStepIn (wHeld (wPartOf (.heads 0))), wModel, wHeld (wPartOf (.heads 0)), { kind := .heads 0, gang := 0, array := some 3 }, wDeal (wHeld (wPartOf (.heads 0))), by decide +kernel⟩

theorem wit_ItemsAndPages_logits : ∃ (w st k a f c : Nat) (x : Wheel) (m : Model) (tb : Tail) (p : LayerPart) (i : Item) (s : State),
    Clocked s ∧
    (modPart w st (fun p => { p with nodes := p.nodes ++ [] }) s).wheel? w = some x ∧
    x.parts.find? (·.stamp == st) = some p ∧
    s.model? x.part x.model = some m ∧
    s.tail? m.part m.tailId = some tb ∧
    p.items[k]? = some i ∧
    i.array = some a ∧
    i.done = false ∧
    i.failedOn = none ∧
    (p.gangs[i.gang]?).map (·.toRead) = some [] ∧
    i.kind = .logits f c :=
  ⟨0, 1, 0, 3, 0, 1, wStepIn (wHeld (wPartOf (.logits 0 1))), wModel, wTailB, wHeld (wPartOf (.logits 0 1)), { kind := .logits 0 1, gang := 0, array := some 3 }, wDeal (wHeld (wPartOf (.logits 0 1))), by decide +kernel⟩

theorem wit_ItemsAndPages_presents : ∃ (w st g h : Nat) (x : Wheel) (p : LayerPart) (r : PageRec) (s u : State),
    Clocked s ∧
    s.wheel? w = some x ∧
    x.parts.find? (·.stamp == st) = some p ∧
    (p.gangs[g]?).map (·.toRead.head?) = some (some h) ∧
    s.rec? h = some r ∧
    underTest s (expanderUnit s r.tier r.base) = false :=
  ⟨0, 1, 0, 77, wStepIn wRead, wRead, wPageRec, wPage, wPage, by decide +kernel⟩

theorem wit_ItemsAndPages_expanderTested : ∃ (w st g h : Nat) (x : Wheel) (p : LayerPart) (r : PageRec) (s : State),
    s.wheel? w = some x ∧
    x.parts.find? (·.stamp == st) = some p ∧
    (p.gangs[g]?).map (·.toRead.head?) = some (some h) ∧
    s.rec? h = some r ∧
    underTest s (expanderUnit s r.tier r.base) = true :=
  ⟨0, 1, 0, 77, wStepIn wRead, wRead, wPageRec,
    { wPage with frc := { wPage.frc with tests := [{ unit := expanderUnit wPage wPageRec.tier wPageRec.base }] } }, by decide +kernel⟩

theorem wit_ItemsAndPages_granted : ∃ (i bytes part : Nat) (k : Nat × Nat × Nat) (s : State),
    i < 53 ∧
    part < 16 ∧
    (s.slu? i).queues = [] ∧
    (s.slu? i).quar = [] ∧
    (s.slu? i).current = none ∧
    (sluCtrl s i).2.2.2.1 = 0 ∧
    (s.slu? i).wait part < sluLimit s i part :=
  ⟨19, 4096, 0, (0, 1, 0), wPage.setF (Reg.sluPbWeightWaitU 0 19) 4, by decide +kernel⟩

theorem wit_ItemsAndPages_inRecovery : ∃ (w st g h : Nat) (rest : List Nat) (x : Wheel) (m : Model) (p : LayerPart) (r : PageRec) (s : State),
    s.wheel? w = some x ∧
    x.parts.find? (·.stamp == st) = some p ∧
    s.model? x.part x.model = some m ∧
    (p.gangs[g]?).map (·.toRead) = some (h :: rest) ∧
    s.rec? h = some r ∧
    (r.recovery = true ∨ r.lost = true) :=
  ⟨0, 1, 0, 77, [], wStepIn wRead, wModel, wRead, { wPageRec with recovery := true }, { wPage with tmg := { records := [(77, { wPageRec with recovery := true })] } }, by decide +kernel⟩

theorem wit_StepsCommit_noTurn : ∃ (i : Nat) (late : Bool) (s : State),
    turnOf s i = none :=
  ⟨0, false, wRun, by decide +kernel⟩

theorem wit_StepsCommit_notReady : ∃ (i : Nat) (late : Bool) (t : Turn) (x : Wheel) (s : State),
    turnOf s i = some t ∧
    s.wheel? t.wheel = some x ∧
    (t.state ≠ .running ∨ x.blockWritten = true ∨ x.resolved t.slot = true ∨ tailReady s x t = false) :=
  ⟨0, false, wTurn, wStepWheel, wStep, by decide +kernel⟩

theorem wit_StepsCommit_walks : ∃ (i : Nat) (late : Bool) (t : Turn) (y : Session) (x : Wheel) (m : Model) (tb : Tail) (e : RosterEntry) (k : Walk) (s : State),
    Live s ∧
    turnOf s i = some t ∧
    tget s.ssq.sessions i = some y ∧
    s.wheel? t.wheel = some x ∧
    (x.entriesOf t.slot).head? = some e ∧
    s.model? x.part x.model = some m ∧
    s.tail? x.part m.tailId = some tb ∧
    t.state = .running ∧
    x.blockWritten = false ∧
    x.resolved t.slot = false ∧
    tailReady s x t = true ∧
    lastMember y = true ∧
    recorderStalls s y = false ∧
    turnWalk x t y tb = some k :=
  ⟨0, false, wParams, wActive, wTailWheel, wModel, wTailB, wEnt, { kept := [wEnt], toks := [0], reason := 2 }, wCommit, by decide +kernel⟩

theorem wit_StepsCommit_length : ∃ (t : Turn) (y : Session) (x : Wheel) (tb : Tail) (k : Walk),
    turnWalk x t y tb = some k :=
  ⟨wParams, wActive, wTailWheel, wTailB, { kept := [wEnt], toks := [0], reason := 2 }, by decide +kernel⟩

theorem wit_StepsCommit_nonfinite : ∃ (i : Nat) (late : Bool) (t : Turn) (y : Session) (x : Wheel) (m : Model) (tb : Tail) (e : RosterEntry) (s : State),
    Live s ∧
    turnOf s i = some t ∧
    tget s.ssq.sessions i = some y ∧
    s.wheel? t.wheel = some x ∧
    (x.entriesOf t.slot).head? = some e ∧
    s.model? x.part x.model = some m ∧
    s.tail? x.part m.tailId = some tb ∧
    t.state = .running ∧
    x.blockWritten = false ∧
    x.resolved t.slot = false ∧
    tailReady s x t = true ∧
    lastMember y = true ∧
    recorderStalls s y = false ∧
    turnWalk x t y tb = none :=
  ⟨0, false, wParams, wActive, wLogits [], wModel, wTailB, wEnt, wCommitOf (wLogits []), by decide +kernel⟩

theorem wit_StepsCommit_member : ∃ (i : Nat) (late : Bool) (t : Turn) (y : Session) (x : Wheel) (m : Model) (tb : Tail) (e : RosterEntry) (s : State),
    Live s ∧
    turnOf s i = some t ∧
    tget s.ssq.sessions i = some y ∧
    s.wheel? t.wheel = some x ∧
    (x.entriesOf t.slot).head? = some e ∧
    s.model? x.part x.model = some m ∧
    s.tail? x.part m.tailId = some tb ∧
    t.state = .running ∧
    x.blockWritten = false ∧
    x.resolved t.slot = false ∧
    tailReady s x t = true ∧
    lastMember y = false ∧
    t.drain = false :=
  ⟨0, false, wParams, wFirst, wOver, wModel, wTailB, wEnt, { wCommitOf wOver with ssq := { (wCommitOf wOver).ssq with sessions := [(0, wFirst)] } }, by decide +kernel⟩

theorem wit_StepsCommit_recorder : ∃ (i : Nat) (late : Bool) (t : Turn) (y : Session) (x : Wheel) (m : Model) (tb : Tail) (e : RosterEntry) (s : State),
    Live s ∧
    turnOf s i = some t ∧
    tget s.ssq.sessions i = some y ∧
    s.wheel? t.wheel = some x ∧
    (x.entriesOf t.slot).head? = some e ∧
    s.model? x.part x.model = some m ∧
    s.tail? x.part m.tailId = some tb ∧
    t.state = .running ∧
    x.blockWritten = false ∧
    x.resolved t.slot = false ∧
    tailReady s x t = true ∧
    lastMember y = true ∧
    recorderStalls s y = true :=
  ⟨0, false, wParams, wActive, wTailWheel, wModel, wTailB, wEnt, { wCommit with frc := { staging := [{ wCapsule with sealed := false }, wCapsule] } }.setF Reg.frcCapsuleStatArea 1, by decide +kernel⟩

theorem wit_StepsCommit_waits : ∃ (i : Nat) (late : Bool) (t : Turn) (x : Wheel) (m : Model) (tb : Tail) (y : Session) (e : RosterEntry) (k : Walk) (s : State),
    e.kind = 0 ∧
    t.commitWaits = false ∧
    commitPages i y m.layers (y.kvLen + k.toks.length) k.kept k.toks s = none :=
  ⟨0, false, wTurn, wWheel, wModel, wTailB, { wActive with kvLen := 31, history := List.replicate 32 0, map := [(0, 1)] }, { slot := 0, kind := 0, cand := 0, parent := 255, depth := 0, pos := 31, prov := 31, token := 0, session := 0 }, { kept := [{ slot := 0, kind := 0, cand := 0, parent := 255, depth := 0, pos := 31, prov := 31, token := 0, session := 0 }], toks := [5] }, wTurns, by decide +kernel⟩

theorem wit_StepsCommit_timeout : ∃ (i : Nat) (t : Turn) (s : State),
    Live s ∧
    turnOf s i = some t ∧
    t.commitWaits = true :=
  ⟨0, { wTurn with commitWaits := true }, { wTurns with ssq := { wTurns.ssq with turns := [{ wTurn with commitWaits := true }] } }, by decide +kernel⟩

theorem wit_StepsCommit_inTime : ∃ (i : Nat) (s : State),
    ((turnOf s i).map (·.commitWaits)).getD false = false :=
  ⟨0, wTurns, by decide +kernel⟩

theorem wit_StepsCommit_chain : ∃ (w member : Nat) (x : Wheel) (t : Turn) (p : LayerPart) (c : Chain) (s : State),
    Live s ∧
    s.wheel? w = some x ∧
    t ∈ runningOn s w ∧
    p ∈ x.parts ∧ p.tail = false ∧ p.written = false ∧
    (partRecords x p t.slot).any (recordAwaits s x p) = true ∧
    (tget s.ssq.sessions t.session).bind (·.chain) = some c ∧
    member + 1 = c.own ∧
    (∀ u ∈ runningOn s w, ∀ d, (tget s.ssq.sessions u.session).bind (·.chain) = some d → d.own = c.own → d.members = c.members) :=
  ⟨0, 0, wChainWheel, wTurn, wAwaiting, { members := [(0, 0), (1, 64)], own := 1 }, wChained, by decide +kernel⟩

theorem wit_StepsCommit_noChain : ∃ (w member : Nat) (s : State),
    (∀ t ∈ runningOn s w, ((tget s.ssq.sessions t.session).bind (·.chain)) = none) :=
  ⟨0, 0, wTurns, by decide +kernel⟩

theorem wit_StepsCommit_chainNothing : ∃ (w member : Nat) (x : Wheel) (s : State),
    s.wheel? w = some x ∧
    (∀ t ∈ runningOn s w, ∀ p ∈ x.parts, p.tail = false → p.written = false → (partRecords x p t.slot).any (recordAwaits s x p) = false) :=
  ⟨0, 0, wWheel, wTurns, by decide +kernel⟩

theorem wit_TransfersEnd_page : ∃ (h : Nat) (m : Move) (r : PageRec) (s : State),
    Live s ∧
    moveOf s h = some m ∧
    s.rec? h = some r ∧
    m.done = false ∧
    s.tierUp r.tier = true ∧
    s.tierUp m.tier = true ∧
    (m.tier ≠ 0 ∨ m.onto = true ∨ slotBad s r.part r.tier r.base r.slot4k = []) :=
  ⟨1, { handle := 1, tier := 1, base := 0, slot4k := 2, why := .promote }, wRec, wMoving .promote, by decide +kernel⟩

theorem wit_TransfersEnd_down : ∃ (h : Nat) (m : Move) (r : PageRec) (s : State),
    moveOf s h = some m ∧
    s.rec? h = some r ∧
    (m.done = true ∨ s.tierUp r.tier = false ∨ s.tierUp m.tier = false) :=
  ⟨1, { handle := 1, tier := 1, base := 0, slot4k := 2, why := .promote, done := true }, wRec, { wLook with tmg := { wLook.tmg with moves := [{ handle := 1, tier := 1, base := 0, slot4k := 2, why := .promote, done := true }] } }, by decide +kernel⟩

theorem wit_TransfersEnd_still : ∃ (h : Nat) (s : State),
    (moveOf s h = none ∨ s.rec? h = none) :=
  ⟨1, wLook, by decide +kernel⟩

theorem wit_TransfersEnd_weights : ∃ (w st l n : Nat) (spans : List (Nat × Nat)) (f : Fetch) (x : Wheel) (s : State),
    Live s ∧
    fetchOf s (.weights w st l) = some f ∧
    s.wheel? f.wheel = some x ∧
    f.kind = .weights ∧
    weightSpans s x f.layer = some (n, spans) ∧
    beginAccess (.transfer (.weights w st l)) (spans.flatMap fun a => s.directLines n 1 a.1 a.2) false s = none ∧
    spans.flatMap (fun a => s.badUnits n 1 a.1 a.2) = [] ∧
    spans.flatMap (fun a => s.directPoisoned n 1 a.1 a.2) = [] :=
  ⟨0, 1, 0, 0, wSpans, wFetch .weights, wWheel, wFetching .weights, by decide +kernel, by decide +kernel, by decide +kernel, by decide +kernel, by decide +kernel,
    by decide +kernel, by decide +kernel, by decide +kernel⟩

theorem wit_TransfersEnd_adapter : ∃ (w st l i v : Nat) (f : Fetch) (x : Wheel) (s : State),
    Live s ∧
    fetchOf s (.adapter w st l i v) = some f ∧
    s.wheel? f.wheel = some x ∧
    f.kind = .adapter i v ∧
    excessBytes s x f.wheel f.step f.layer = 0 :=
  ⟨0, 1, 0, 1, 1, wFetch (.adapter 1 1), wWheel, wFetching (.adapter 1 1), by decide +kernel⟩

theorem wit_TransfersEnd_overflow : ∃ (w st i : Nat) (f : Fetch) (x : Wheel) (s : State),
    Live s ∧
    fetchOf s (.overflow w st i) = some f ∧
    s.wheel? f.wheel = some x ∧
    f.kind = .overflow i ∧
    tableBad s f = [] :=
  ⟨0, 1, 0, wFetch (.overflow 0), wWheel, wFetching (.overflow 0), by decide +kernel⟩

theorem wit_TransfersEnd_noFetch : ∃ (w st l i v : Nat) (s : State),
    s.hrc.fetches = [] :=
  ⟨0, 1, 0, 1, 1, wRun, by decide +kernel⟩

theorem wit_TransfersEnd_writeFails : ∃ (h : Nat) (m : Move) (r : PageRec) (s : State),
    Live s ∧
    moveOf s h = some m ∧
    s.rec? h = some r ∧
    m.done = false :=
  ⟨1, { handle := 1, tier := 1, base := 0, slot4k := 2, why := .promote }, wRec, wMoving .promote, by decide +kernel⟩

theorem wit_TransfersEnd_readFails : ∃ (h : Nat) (how : ReadFail) (m : Move) (r : PageRec) (s : State),
    Live s ∧
    moveOf s h = some m ∧
    s.rec? h = some r ∧
    m.done = false ∧
    how ≠ .write ∧
    m.why ≠ .fetch ∧
    m.why ≠ .revive :=
  ⟨1, .error, { handle := 1, tier := 1, base := 0, slot4k := 2, why := .promote }, wRec, wMoving .promote, by decide +kernel⟩

theorem wit_TransfersEnd_fetchFails : ∃ (h : Nat) (how : ReadFail) (m : Move) (r : PageRec) (s : State),
    Live s ∧
    moveOf s h = some m ∧
    s.rec? h = some r ∧
    m.done = false ∧
    how ≠ .write ∧
    m.why = .revive ∧
    s.ssq.turns = [] :=
  ⟨1, .poison, { handle := 1, tier := 1, base := 0, slot4k := 2, why := .revive }, wRec, wMoving .revive, by decide +kernel⟩

theorem wit_TransfersEnd_weightsFail : ∃ (w st l : Nat) (f : Fetch) (x : Wheel) (s : State),
    Live s ∧
    fetchOf s (.weights w st l) = some f ∧
    s.wheel? f.wheel = some x ∧
    f.kind = .weights :=
  ⟨0, 1, 0, wFetch .weights, wWheel, wFetching .weights, by decide +kernel⟩

theorem wit_TransfersEnd_weightsLate : ∃ (w st l : Nat) (f : Fetch) (x : Wheel) (s : State),
    Live s ∧
    fetchOf s (.weights w st l) = some f ∧
    s.wheel? f.wheel = some x ∧
    f.kind = .weights ∧
    f.wheel = w ∧
    f.layer = l ∧
    x.rosterStep = f.step ∧
    x.inLayer l = true :=
  ⟨0, 1, 0, wFetch .weights, wLayerWheel, wLateFetch, by decide +kernel⟩

theorem wit_TransfersEnd_pageLate : ∃ (w l h : Nat) (x : Wheel) (r : PageRec) (s : State),
    Live s ∧
    s.wheel? w = some x ∧
    s.rec? h = some r ∧
    h ≠ 0 ∧
    x.inLayer l = true ∧
    r.layer = l ∧
    r.tier ≠ 0 ∧
    ((stepReaders s h r).filter fun i => ((turnOf s i).map (·.wheel)) == some w) ≠ [] :=
  ⟨0, 0, 77, wStepIn wAttend, { wRec with tier := 1 }, { wStepIs (wStepIn wAttend) with tmg := { records := [(77, { wRec with tier := 1 })] } }, by decide +kernel⟩

theorem wit_TransfersEnd_appendLate : ∃ (w l : Nat) (x : Wheel) (m : Model) (s : State),
    Live s ∧
    s.wheel? w = some x ∧
    s.model? x.part x.model = some m ∧
    x.inLayer l = true ∧
    appendsWaiting s x m l ≠ [] :=
  ⟨0, 0, wStepIn (wHeld wProject), wModel, { wTurns with ssq := { wTurns.ssq with wheels := [(0, wStepIn (wHeld wProject))] } }.setF Reg.tmgDirCapRecords 10, by decide +kernel⟩

theorem wit_TransfersEnd_notLate : ∃ (w l h : Nat) (r : PageRec) (s : State),
    s.rec? h = some r ∧
    h ≠ 0 ∧
    (r.tier = 0 ∨ r.layer ≠ l) :=
  ⟨0, 0, 1, wRec, wLook, by decide +kernel⟩

theorem wit_TransfersEnd_timeout : ∃ (d : Nat) (s : State),
    Live s ∧
    d < 8 :=
  ⟨2, wDrives, by decide +kernel⟩

theorem wit_TransfersEnd_timeouts : ∃ (d : Nat) (s : State),
    Live s ∧
    d < 8 ∧
    tgetD s.tmg.timeouts d 0 = 2 :=
  ⟨2, { wDrives with tmg := { timeouts := [(2, 2)] } }, by decide +kernel⟩

theorem wit_TransfersEnd_second : ∃ (d : Nat) (what : Transfer) (s : State),
    Live s ∧
    d < 8 ∧
    tgetD s.tmg.timeouts d 0 = 0 :=
  ⟨2, .page 1, wDrives, by decide +kernel⟩

theorem wit_TransfersEnd_weightsNotDue : ∃ (w st l : Nat) (f : Fetch) (x : Wheel) (s : State),
    fetchOf s (.weights w st l) = some f ∧
    s.wheel? f.wheel = some x ∧
    f.kind = .weights ∧
    (x.rosterStep ≠ f.step ∨ x.inLayer f.layer = false) :=
  ⟨0, 1, 0, wFetch .weights, wWheel, wFetching .weights, by decide +kernel⟩

theorem wit_TransfersEnd_pageBad : ∃ (h : Nat) (m : Move) (r : PageRec) (s : State),
    Live s ∧
    moveOf s h = some m ∧
    s.rec? h = some r ∧
    m.done = false ∧
    s.tierUp r.tier = true ∧
    s.tierUp m.tier = true ∧
    m.tier = 0 ∧
    m.onto = false ∧
    slotBad s r.part r.tier r.base r.slot4k ≠ [] :=
  ⟨1, wBadMove, { wRec with tier := 1 }, wBadPage, by decide +kernel⟩

theorem wit_ReliefAndHeat_relief : ∃ (n k : Nat) (s : State),
    Live s ∧
    k < 3 ∧
    occupied s n k (hiWater s) 0 0 = true ∧
    k ≠ 0 :=
  ⟨0, 1, (({ wLook with tmg := { records := [(1, { wRec with tier := 1 })] } }.setF (Reg.tmgPbQuotaTk 0 1) 1).setF Reg.tmgMigrateHiWater 90).setF (Reg.tmgPbPage4k 0 1) 100, by decide +kernel⟩

theorem wit_ReliefAndHeat_enough : ∃ (n k : Nat) (cols : List Nat) (s : State),
    (3 ≤ k ∨ (occupied s n k (hiWater s) 0 0 = false ∧ (k ≠ 0 ∨ (s.tmg.allocWaits = [] ∧ s.ssq.turns = [] ∧ s.ssq.wheels = [])))) :=
  ⟨0, 3, [], wLook, by decide +kernel⟩

theorem wit_ReliefAndHeat_cleanOff : ∃ (n : Nat) (s : State),
    (s.flag Reg.tmgMigrateCleanAhead = false ∨ belowWater s n 1 = false) :=
  ⟨0, wLook.setF Reg.tmgMigrateCleanAhead 0, by decide +kernel⟩

theorem wit_ReliefAndHeat_clean : ∃ (n h : Nat) (r : PageRec) (s t : State),
    Live s ∧
    s.flag Reg.tmgMigrateCleanAhead = true ∧
    belowWater s n 1 = true ∧
    s.tmg.records.find? (fun e => e.2.part == n && e.2.tier == 0 && e.2.sealed && !e.2.lowerValid && !e.2.recovery && !e.2.lost && (moveOf s e.1).isNone) = some (h, r) ∧
    startMove h 1 .cleanAhead s = some t :=
  ⟨0, 1, wRec, wCool, (startMove 1 1 .cleanAhead wCool).getD wCool, by decide +kernel⟩

theorem wit_ReliefAndHeat_promotes : ∃ (h : Nat) (r : PageRec) (s t : State),
    Live s ∧
    s.rec? h = some r ∧
    h < 2 ^ 32 ∧
    r.tier = 1 ∧
    s.getF Reg.tmgMigratePromoteT0 ≤ r.heat ∧
    moveOf s h = none ∧
    s.tmg.allocWaits.any (·.1 == h) = false ∧
    belowWater s r.part 0 = true ∧
    startMove h 0 .promote s = some t :=
  ⟨1, { wRec with tier := 1, heat := 200 }, wHot, (startMove 1 0 .promote wHot).getD wHot, by decide +kernel⟩

theorem wit_ReliefAndHeat_promotesLow : ∃ (h : Nat) (r : PageRec) (s t : State),
    Live s ∧
    s.rec? h = some r ∧
    h < 2 ^ 32 ∧
    2 ≤ r.tier ∧
    s.getF Reg.tmgMigratePromoteT1 ≤ r.heat ∧
    moveOf s h = none ∧
    s.tmg.allocWaits.any (·.1 == h) = false ∧
    belowWater s r.part 1 = true ∧
    startMove h 1 .promote s = some t :=
  ⟨1, { wRec with tier := 2, heat := 200 }, wLow, (startMove 1 1 .promote wLow).getD wLow, by decide +kernel⟩

theorem wit_ReliefAndHeat_stays : ∃ (h : Nat) (r : PageRec) (s : State),
    s.rec? h = some r ∧
    h < 2 ^ 32 ∧
    (r.tier = 0 ∨ (moveOf s h).isSome = true ∨ s.tmg.allocWaits.any (·.1 == h) = true ∨ (r.tier = 1 ∧ r.heat < s.getF Reg.tmgMigratePromoteT0) ∨ (r.tier = 1 ∧ belowWater s r.part 0 = false) ∨ (r.tier ≠ 1 ∧ r.heat < s.getF Reg.tmgMigratePromoteT1) ∨ (r.tier ≠ 1 ∧ belowWater s r.part 1 = false)) :=
  ⟨1, wRec, wLook, by decide +kernel⟩

theorem wit_ReliefAndHeat_soon : ∃ (hot : List (Nat × Nat × Nat)) (s : State),
    s.tmg.pinCount < s.getF Reg.tmgHeatCtrlPeriod :=
  ⟨[], wLook.setF Reg.tmgHeatCtrlPeriod 5, by decide +kernel⟩

theorem wit_ReliefAndHeat_sweep : ∃ (s : State),
    Live s ∧
    s.getF Reg.tmgHeatCtrlPeriod ≤ s.tmg.pinCount :=
  ⟨{ wLook with tmg := { wLook.tmg with pinCount := 9 } }.setF Reg.tmgHeatCtrlPeriod 5, by decide +kernel⟩

theorem wit_ReliefAndHeat_reports : ∃ (port addr n h : Nat) (r : PageRec) (s : State),
    Live s ∧
    s.getF Reg.tmgHeatCtrlPeriod ≤ s.tmg.pinCount ∧
    port < 2 ∧
    s.flag (Reg.cxdPortTrayHeat port) = true ∧
    s.tmg.records = [(h, r)] ∧
    r.tier = 2 ∧
    r.base ≤ 2 * (addr / 4096) + port ∧
    2 * (addr / 4096) + port < r.base + r.slot4k :=
  ⟨0, 0, 7, 1, { wRec with tier := 2, heat := 8 }, (({ wLook with tmg := { records := [(1, { wRec with tier := 2, heat := 8 })], pinCount := 9 } }.setF (Reg.cxdPortTrayHeat 0) 1).setF (Reg.cxdPortSingle 0) 1).setF Reg.tmgHeatCtrlPeriod 5, by decide +kernel⟩

theorem wit_ReliefAndHeat_folded : ∃ (i j dest : Nat) (x : Session) (r : PageRec) (s : State),
    Live s ∧
    i < 2 ^ 22 ∧
    j < 2 ^ 32 ∧
    tget s.ssq.sessions i = some x ∧
    x.folded[j]? = some r ∧
    r.tier ≠ 0 ∧
    dest = (if r.tier = 1 then 0 else 1) ∧
    (if r.tier = 1 then s.getF Reg.tmgMigratePromoteT0 else s.getF Reg.tmgMigratePromoteT1) ≤ r.heat ∧
    belowWater s r.part dest = true :=
  ⟨0, 0, 1, { wX with folded := [{ wRec with tier := 2, heat := 200 }] }, { wRec with tier := 2, heat := 200 },
    { wCool with ssq := { wCool.ssq with sessions := [(0, { wX with folded := [{ wRec with tier := 2, heat := 200 }] })] } }, by decide +kernel⟩

theorem wit_TraysAndDrives_down : ∃ (p : Nat) (s : State),
    Live s ∧
    p < 2 ∧
    s.flag (Reg.cxdPortLinkUp p) = true ∧
    s.flag (Reg.cxdPortLinkUp (1 - p)) = true :=
  ⟨1, (wReady.setF (Reg.cxdPortLinkUp 0) 1).setF (Reg.cxdPortLinkUp 1) 1, by decide +kernel⟩

theorem wit_TraysAndDrives_alreadyDown : ∃ (p : Nat) (s : State),
    (2 ≤ p ∨ s.flag (Reg.cxdPortLinkUp p) = false) :=
  ⟨0, wReady, by decide +kernel⟩

theorem wit_TraysAndDrives_returns : ∃ (p lanes : Nat) (s : State),
    Live s ∧
    p < 2 ∧
    s.flag (Reg.cxdPortLinkUp p) = false ∧
    s.flag (Reg.cxdPortLinkUp (1 - p)) = true ∧
    (tvals s.ssq.wheels).all (·.atBoundary) = true :=
  ⟨1, 8, wReady.setF (Reg.cxdPortLinkUp 0) 1, by decide +kernel⟩

theorem wit_TraysAndDrives_notYet : ∃ (p lanes : Nat) (s : State),
    (tvals s.ssq.wheels).all (·.atBoundary) = false :=
  ⟨1, 8, wStep, by decide +kernel⟩

theorem wit_TraysAndDrives_fatal : ∃ (d : Nat) (s : State),
    Live s ∧
    s.flag (Reg.nvcDriveReady d) = true ∧
    tget s.frc.labels d = none :=
  ⟨2, wDrives, by decide +kernel⟩

theorem wit_TraysAndDrives_out : ∃ (d : Nat) (s : State),
    s.flag (Reg.nvcDriveReady d) = false :=
  ⟨2, wReady, by decide +kernel⟩

theorem wit_TraysAndDrives_gone : ∃ (d : Nat) (s : State),
    Live s ∧
    d < 8 :=
  ⟨2, wDrives, by decide +kernel⟩

theorem wit_TraysAndDrives_area : ∃ (d : Nat) (s : State),
    (tget s.frc.labels d).isSome = true ∧
    s.flag Reg.frcCapsuleStatArea = true :=
  ⟨2, { wDrives with frc := { labels := [(2, wLabel)] } }.setF Reg.frcCapsuleStatArea 1, by decide +kernel⟩

theorem wit_TraysAndDrives_violation : ∃ (d : Nat) (hdr : List Byte) (s : State),
    Live s ∧
    d < 8 ∧
    s.getF Reg.frcPartnerDriveLimit = 0 :=
  ⟨2, zeros 16, wDrives.setF Reg.frcPartnerDriveLimit 0, by decide +kernel⟩

theorem wit_TraysAndDrives_cutoff : ∃ (d : Nat) (hdr : List Byte) (s : State),
    Live s ∧
    d < 8 ∧
    s.getF Reg.frcPartnerDriveLimit = 1 ∧
    s.flag (Reg.nvcDriveReady d) = true :=
  ⟨2, zeros 16, wDrives.setF Reg.frcPartnerDriveLimit 1, by decide +kernel⟩

theorem wit_TraysAndDrives_polled : ∃ (p : Nat) (e : List Nat) (s : State),
    Live s ∧
    p < 2 :=
  ⟨0, [1], wReady, by decide +kernel⟩

theorem wit_SluiceArbitration_decide : ∃ (i : Nat) (arr : List Arrival) (cr : List Nat) (s : State),
    Live s ∧
    i < 53 ∧
    sluDecoding i (sluArrive i arr s) = false :=
  ⟨0, [{ part := 3, traffic := .stepRead, bytes := 70000 }], [], wReady, by decide +kernel⟩

theorem wit_SluiceArbitration_preempt : ∃ (i : Nat) (arr : List Arrival) (cr : List Nat) (s : State),
    Live s ∧
    i < 61 :=
  ⟨0, [], [], wReady, by decide +kernel⟩

theorem wit_SluiceArbitration_beyond : ∃ (i addr : Nat) (arr : List Arrival) (cr : List Nat) (s : State),
    61 ≤ i :=
  ⟨61, 0, [], [], wReady, by decide +kernel⟩

theorem wit_SluiceArbitration_nobody : ∃ (i : Nat) (s : State),
    (∀ r < 33, sluHead s i r = none ∨ (tget (s.slu? i).quar r).isSome = true) :=
  ⟨0, wReady, by decide +kernel⟩

theorem wit_SluiceArbitration_one : ∃ (i r : Nat) (q : SluReq) (s : State),
    i < 53 ∧
    r < 33 ∧
    (∀ k < 33, k ≠ r → sluHead s i k = none) ∧
    sluHead s i r = some q ∧
    tget (s.slu? i).quar r = none ∧
    (sluCtrl s i).2.2.2.1 = 0 ∧
    (s.slu? i).wait r < sluLimit s i r :=
  ⟨0, 20, { bytes := 512 }, wQueue, by decide +kernel⟩

theorem wit_SluiceArbitration_urgentFirst : ∃ (i a b : Nat) (g : Grant) (s : State),
    a < 16 ∧
    16 ≤ b ∧
    (sluHead s i a).isSome = true ∧
    (tget (s.slu? i).quar a) = none ∧
    (sluCtrl s i).2.2.2.1 = 0 ∧
    (s.slu? i).current = none ∧
    ((sluDecide i s).slu? i).current = some g :=
  ⟨0, 3, 20, { requester := 3, req := { bytes := 256 }, preemptible := false }, wRivals, by decide +kernel⟩

theorem wit_SluiceArbitration_arrive : ∃ (i : Nat) (a : Arrival) (s : State),
    i < 19 :=
  ⟨0, { part := 3, traffic := .movement, bytes := 70000 }, wReady, by decide +kernel⟩

theorem wit_SluiceArbitration_abort : ∃ (i : Nat) (g : Grant) (s : State),
    i < 53 ∧
    (s.slu? i).current = some g ∧
    g.preemptible = true ∧
    (List.range 16).any (fun r => (sluHead s i r).isSome && (tget (s.slu? i).quar r).isNone) = true :=
  ⟨0, wGrant, wGranted, by decide +kernel⟩

theorem wit_SluiceArbitration_hog : ∃ (i addr : Nat) (g : Grant) (s : State),
    s.mgc.off = false ∧
    i < 53 ∧
    (s.slu? i).current = some g ∧
    (sluCtrl s i).2.2.1 = 4 :=
  ⟨0, 9, wGrant, wGranted, by decide +kernel⟩

theorem wit_SluiceArbitration_noHog : ∃ (i addr : Nat) (s : State),
    (s.slu? i).current = none :=
  ⟨0, 9, wReady, by decide +kernel⟩

theorem wit_SluiceArbitration_window : ∃ (i : Nat) (s : State),
    s.mgc.off = false ∧
    i < 61 :=
  ⟨0, wRivals, by decide +kernel⟩

theorem wit_SluiceArbitration_egress : ∃ (i : Nat) (arr : List Arrival) (cr : List Nat) (s : State),
    Live s ∧
    53 ≤ i ∧ i < 61 ∧
    sluDecoding i s = false :=
  ⟨53, [], [1, 1, 1], wReady, by decide +kernel⟩

theorem wit_SluiceArbitration_decoding : ∃ (i : Nat) (arr : List Arrival) (cr : List Nat) (s : State),
    Live s ∧
    i < 61 ∧
    sluDecoding i (sluArrive i arr s) = true :=
  ⟨19, [], [], wDecoding, by decide +kernel⟩

theorem wit_SluiceArbitration_page : ∃ (i : Nat) (a : Arrival) (s : State),
    19 ≤ i ∧ i < 53 :=
  ⟨52, { part := 3, traffic := .stepRead, bytes := 70000 }, wReady, by decide +kernel⟩

theorem wit_SluiceArbitration_requester : ∃ (n : Nat) (a : Arrival),
    n < 16 ∧
    a.part = n :=
  ⟨15, { part := 15, traffic := .movement, bytes := 1 }, by decide +kernel⟩

theorem wit_TickWrites_backward : ∃ (value : Nat) (s : State),
    s.fnShown 0 = true ∧
    s.mgc.off = false ∧
    value < s.tick ∧
    value < 2 ^ 64 :=
  ⟨5, wUp.setF Reg.ssqTickValue 6, by decide +kernel⟩

theorem wit_TickWrites_equal : ∃ (s : State),
    s.fnShown 0 = true ∧
    s.tick < 2 ^ 64 ∧
    Table.wf s.regs = true :=
  ⟨wUp.setF Reg.ssqTickValue 6, by decide +kernel⟩

theorem wit_TickWrites_jump : ∃ (value : Nat) (s : State),
    s.fnShown 0 = true ∧
    s.mgc.off = false ∧
    s.tick ≤ value ∧
    value < 2 ^ 64 ∧
    s.getF Reg.ssqTickCtrlMaxJump < value - s.tick ∧
    Table.wf s.regs = true :=
  ⟨2 ^ 63, wUp, by decide +kernel⟩

theorem wit_TickWrites_forward : ∃ (value : Nat) (s : State),
    s.fnShown 0 = true ∧
    s.mgc.off = false ∧
    s.tick ≤ value ∧
    value < 2 ^ 64 ∧
    value - s.tick ≤ s.getF Reg.ssqTickCtrlMaxJump ∧
    Table.wf s.regs = true :=
  ⟨1, wUp, by decide +kernel⟩

theorem wit_TickWrites_foreign : ∃ (via value : Nat) (s : State),
    via ≠ 0 :=
  ⟨1, 5, wUp, by decide +kernel⟩

theorem wit_TokenDraw_draw : ∃ (ws : List (Nat × Nat)) (u : Nat),
    u < 2 ^ 64 ∧
    0 < (ws.map (·.2)).sum :=
  ⟨[(3, 5)], 7, by decide +kernel⟩

theorem wit_TokenDraw_always : ∃ (tau topP z : Fp) (topK u t : Nat) (zs : List Fp),
    tau.isZero = false ∧
    u < 2 ^ 64 ∧
    ((zs.map (overTemp tau)).any fun z => z.isNan || z == .inf false) = false ∧
    (rankAll ((List.range (zs.map (overTemp tau)).length).zip (zs.map (overTemp tau)))).head? = some (t, z) ∧
    z ≠ .inf true :=
  ⟨Fp.one, Fp.one, overTemp Fp.one Fp.one, 0, 0, 0, [Fp.one], by decide +kernel⟩

theorem wit_PartialsMerge_max : ∃ (x y : Partial),
    x.m.isNan = false ∧
    y.m.isNan = false :=
  ⟨⟨Fp.one, Fp.one, []⟩, ⟨Fp.zero, Fp.one, []⟩, by decide +kernel⟩

theorem wit_PartialsMerge_empty : ∃ (x y : Partial),
    x.m = .inf true ∧
    y.m = .inf true :=
  ⟨⟨.inf true, Fp.zero, []⟩, ⟨.inf true, Fp.zero, []⟩, by decide +kernel⟩

theorem wit_PartialsMerge_sums : ∃ (x y : Partial) (m : Fp),
    x.m.isNan = false ∧
    y.m.isNan = false ∧
    Fp.max2 x.m y.m = m ∧
    m ≠ .inf true ∧
    x.a.length = y.a.length :=
  ⟨⟨Fp.one, Fp.one, []⟩, ⟨Fp.zero, Fp.one, []⟩, Fp.one, by decide +kernel⟩

theorem wit_PartialsMerge_order : ∃ (x y : Fp),
    x.isNan = false ∧
    y.isNan = false :=
  ⟨Fp.one, Fp.zero, by decide +kernel⟩

theorem wit_ResetState_partitions : ∃ (n : Nat),
    n < 16 :=
  ⟨3, by decide +kernel⟩

theorem wit_ResetState_sluice : ∃ (i : Nat),
    i < 61 :=
  ⟨53, by decide +kernel⟩

theorem wit_MemoriesStayCanonical_step : ∃ (s t : State),
    memsOk s ∧
    step s = .next t :=
  ⟨State.reset, State.reset, ⟨by decide +kernel, rfl⟩⟩

theorem wit_MemoriesStayCanonical_run : ∃ (cs : List Instr) (s : State),
    memsOk s :=
  ⟨[], State.reset, by decide +kernel⟩

theorem wit_FusesOnlyRise_rise : ∃ (s t : State),
    FuseOk s.sec.fuses ∧
    step s = .next t :=
  ⟨State.reset, State.reset, ⟨by decide +kernel, rfl⟩⟩

theorem wit_FusesOnlyRise_run : ∃ (cs : List Instr) (s t : State),
    FuseOk s.sec.fuses ∧
    cs.foldl (fun (o : Option State) c => o.bind fun u => match exec c u with | .next v => some v | _ => none) (some s) = some t :=
  ⟨[], State.reset, State.reset, ⟨by decide +kernel, rfl⟩⟩

theorem wit_WithoutPower_nothing : ∃ (c : Instr) (s : State),
    s.mgc.off = true ∧
    (∀ pos scope sa, c ≠ .powerOnReset pos scope sa) :=
  ⟨.beatIn, { State.reset with mgc := { off := true } }, ⟨rfl, fun _ _ _ h => by cases h⟩⟩

theorem wit_WithoutPower_step : ∃ (c : Instr) (rest : List Instr) (s : State),
    s.mgc.off = true ∧
    s.pending = c :: rest ∧
    (∀ pos scope sa, c ≠ .powerOnReset pos scope sa) :=
  ⟨.beatIn, [], { State.reset with pending := [.beatIn], mgc := { off := true } }, ⟨rfl, rfl, fun _ _ _ h => by cases h⟩⟩

theorem wit_WithoutPower_on : ∃ (pos scope sa : Nat) (s : State),
    s.mgc.off = true :=
  ⟨5, 0, 2, { State.reset with mgc := { off := true } }, by decide +kernel⟩

theorem wit_WithoutPower_already : ∃ (pos scope sa : Nat) (s : State),
    s.mgc.off = false :=
  ⟨5, 0, 2, State.reset, by decide +kernel⟩

theorem wit_WithoutPower_off : ∃ (s : State),
    s.mgc.off = false :=
  ⟨wRun, by decide +kernel⟩

theorem wit_QueuesAndWipesComplete_createSq : ∃ (c : Cmd) (s : State),
    Admitted 1 c s ∧
    onAdmin c = true ∧
    queueArgsOk c true = true ∧
    c.arg 0 1 = 0 ∧
    2 ≤ c.arg 2 2 ∧ c.arg 2 2 ≤ 4096 ∧
    c.arg 0x10 8 % 4096 = 0 ∧
    tget s.hif.sqs (qKey c.fn (c.arg 1 1)) = none ∧
    (tget s.hif.cqs (qKey c.fn (c.arg 4 1))).isSome = true ∧ c.arg 4 1 < queuesOf c.fn :=
  ⟨wCmd 1 [(1, 1, 63), (2, 2, 4096), (0x10, 8, 8192)], wAq, by decide +kernel⟩

theorem wit_QueuesAndWipesComplete_createCq : ∃ (c : Cmd) (s : State),
    Admitted 1 c s ∧
    onAdmin c = true ∧
    queueArgsOk c true = true ∧
    c.arg 0 1 = 1 ∧
    2 ≤ c.arg 2 2 ∧ c.arg 2 2 ≤ 4096 ∧
    c.arg 0x10 8 % 4096 = 0 ∧
    tget s.hif.cqs (qKey c.fn (c.arg 1 1)) = none ∧
    1 ≤ c.arg 5 1 ∧ c.arg 5 1 < vectorsOf c.fn :=
  ⟨wCmd 1 [(0, 1, 1), (1, 1, 1), (2, 2, 2), (5, 1, 64), (6, 1, 1)], wAq, by decide +kernel⟩

theorem wit_QueuesAndWipesComplete_deleteSq : ∃ (c : Cmd) (s : State),
    Admitted 2 c s ∧
    onAdmin c = true ∧
    queueArgsOk c false = true ∧
    c.arg 0 1 = 0 ∧
    (tget s.hif.sqs (qKey c.fn (c.arg 1 1))).isSome = true :=
  ⟨wCmd 1 [(1, 1, 1)], wPair, by decide +kernel⟩

theorem wit_QueuesAndWipesComplete_deleteCq : ∃ (c : Cmd) (s : State),
    Admitted 2 c s ∧
    onAdmin c = true ∧
    queueArgsOk c false = true ∧
    c.arg 0 1 = 1 ∧
    (tget s.hif.cqs (qKey c.fn (c.arg 1 1))).isSome = true ∧
    cqNamed s c.fn (c.arg 1 1) = false :=
  ⟨wCmd 1 [(0, 1, 1), (1, 1, 2)], wPair, by decide +kernel⟩

theorem wit_QueuesAndWipesComplete_enable : ∃ (fn sq cq : Nat) (s : State),
    s.fnLive fn = true ∧
    s.flag (aqEn fn) = false ∧
    2 ≤ sq ∧ sq ≤ 4096 ∧
    2 ≤ cq ∧ cq ≤ 4096 ∧
    Table.wf s.regs = true :=
  ⟨1, 2, 4096, wShown, by decide +kernel⟩

theorem wit_QueuesAndWipesComplete_enabled : ∃ (fn sq cq : Nat) (s : State),
    s.fnLive fn = true ∧
    s.flag (aqEn fn) = true :=
  ⟨1, 2, 4096, wShown.setF (aqEn 1) 1, by decide +kernel⟩

theorem wit_QueuesAndWipesComplete_disable : ∃ (fn sq cq : Nat) (s : State),
    s.fnLive fn = true ∧
    Table.wf s.regs = true :=
  ⟨1, 16, 16, wShown.setF (aqEn 1) 1, by decide +kernel⟩

theorem wit_QueuesAndWipesComplete_wipe : ∃ (c : Cmd) (s : State),
    Admitted 0x0706 c s ∧
    c.argsOk [(0, 1)] = true ∧
    c.dlen = 0 ∧
    c.arg 0 1 < 16 ∧
    (s.pstate (c.arg 0 1) = psLocked ∨ s.pstate (c.arg 0 1) = psDraining ∨ s.pstate (c.arg 0 1) = psReplay) :=
  ⟨wCmd 0 [(0, 1, 3)], wLocked, by decide +kernel⟩

theorem wit_QueuesAndWipesComplete_wipeRefused : ∃ (c : Cmd) (s : State),
    Admitted 0x0706 c s ∧
    c.argsOk [(0, 1)] = true ∧
    c.dlen = 0 ∧
    c.arg 0 1 < 16 ∧
    (s.pstate (c.arg 0 1) = psUnconfigured ∨ s.pstate (c.arg 0 1) = psConfigured ∨ s.pstate (c.arg 0 1) = psWiping) :=
  ⟨wCmd 0 [(0, 1, 3)], wConfigured, by decide +kernel⟩

theorem wit_QueuesAndWipesComplete_wipeDone : ∃ (n : Nat) (s : State),
    Live s ∧
    n < 16 ∧
    s.pstate n = psWiping ∧
    (List.range 64).any (fun e => s.getF (Reg.cwpExtentPartition e) == n && s.extState e != extFree) = false ∧
    s.xfe.regions.any (fun r => r.2.part == n && r.2.state == .draining) = false :=
  ⟨3, wLocked.setF (Reg.mgcPbCtrlState 3) psWiping, by decide +kernel⟩


theorem wit_WhatFallsDue_notDue : ∃ (i : Nat) (s : State), ∀ d, nextDue s = some d → d.2.1 ≠ i :=
  ⟨0, State.reset, fun d h => by
    have e : nextDue State.reset = none := by decide +kernel
    rw [e] at h; cases h⟩

theorem wit_WhatFallsDue_commitReserve : ∃ (i : Nat) (t : Turn) (s : State),
    Live s ∧
    turnOf s i = some t ∧
    t.commitWaits = true :=
  ⟨0, { wTurn with commitWaits := true }, { wTurns with ssq := { wTurns.ssq with turns := [{ wTurn with commitWaits := true }] } }, by decide +kernel⟩

theorem wit_WhatFallsDue_chain : ∃ (w member : Nat) (x : Wheel) (t : Turn) (p : LayerPart) (c : Chain) (s : State),
    Live s ∧
    s.wheel? w = some x ∧
    runningOn s w = [t] ∧
    (p ∈ x.parts ∧ p.tail = false ∧ p.written = false) ∧
    (partRecords x p t.slot).any (recordAwaits s x p) = true ∧
    (tget s.ssq.sessions t.session).bind (·.chain) = some c ∧
    member + 1 = c.own :=
  ⟨0, 0, wChainWheel, wTurn, wAwaiting, { members := [(0, 0), (1, 64)], own := 1 }, wChained, by decide +kernel⟩

theorem wit_SluiceArbitration_firm : ∃ (i cr : Nat) (s : State), ∀ g, (s.slu? i).current = some g → g.preemptible = false :=
  ⟨0, 0, wReady, fun g h => by
    have e : (wReady.slu? 0).current = none := by decide +kernel
    rw [e] at h; cases h⟩

/-- ARGS that hold a UID. -/
def wUidArgs (n : Nat) : List Byte := leBytes 8 n ++ zeros 24

theorem wUid_arg (n : Nat) (h : n < 2 ^ 64) : fieldAt (wUidArgs n) 0 8 = n := by
  simp only [wUidArgs, fieldAt, slice, leBytes, zeros, List.drop_zero, List.cons_append, List.nil_append, List.take_succ_cons, List.take_zero,
    List.length_cons, List.length_nil, Nat.sub_self, List.replicate_zero, leNat, BitVec.toNat_ofNat, List.append_nil]
  omega

theorem wUid_zero (n i : Nat) (h : 8 ≤ i) (g : i < 32) : fieldAt (wUidArgs n) i 1 = 0 := by
  have e : slice (wUidArgs n) i 1 = slice (zeros 24) (i - 8) 1 := by
    simp only [slice, wUidArgs]
    rw [List.drop_append, List.drop_eq_nil_of_le (by simp [leBytes]; omega)]
    simp [leBytes]
  rw [fieldAt, e]
  have k : ∀ j < 24, leNat (slice (zeros 24) j 1) = 0 := by decide
  exact k _ (by omega)

theorem wLeNat_lt (l : List Byte) : leNat l < 256 ^ l.length := by
  induction l with
  | nil => simp [leNat]
  | cons b l ih => simp only [leNat, List.length_cons, Nat.pow_succ]; have := b.isLt; omega

theorem wUid_lt : deviceUid < 2 ^ 64 :=
  Nat.lt_of_lt_of_le (wLeNat_lt _) (show 256 ^ _ ≤ 256 ^ 8 from Nat.pow_le_pow_right (by decide) (List.length_take_le _ _))

theorem wUid_ok (o : Origin) (n : Nat) : ({ origin := o, args := wUidArgs n } : Cmd).argsOk [(0, 8)] = true := by
  simp only [Cmd.argsOk, List.all_eq_true, List.mem_range, List.any_cons, List.any_nil, Bool.or_false, Nat.zero_add]
  intro i hi
  by_cases h : 8 ≤ i
  · simp [wUid_zero n i h hi]
  · simp; omega

theorem wNoBuffer (op : Nat) (c : Cmd) (s : State) (h : c.dwin = false) : bufferAccess op c s = none := by
  simp only [bufferAccess, h, Bool.not_false, Bool.true_or, if_true]

/-- A lifecycle command over I3C that names a UID. -/
def wLife (n : Nat) : Cmd := { origin := .i3c, args := wUidArgs n }

theorem wLife_admitted (op n : Nat) (s : State) (hop : op = 0x0902 ∨ op = 0x0903) (h : gate op { origin := .i3c, args := zeros 32 } s = .pass) :
    Admitted op (wLife n) s := by
  have g : (wLife n).dwin = false := rfl
  refine ⟨?_, by rw [wNoBuffer _ _ s g]; rfl⟩
  rw [← h]
  have a : (wLife n).argsOk [(0, 8)] = true := wUid_ok .i3c n
  have d : descOk op (wLife n) = true := by
    have z : (wLife n).rsv = 0 := rfl
    rcases hop with rfl | rfl <;> simp [descOk, opFields, opEncodings, a, z]
  have e : descOk op { origin := .i3c, args := zeros 32 } = true := by rcases hop with rfl | rfl <;> decide +kernel
  have r (c : Cmd) : tierRangeOk op c s = true := by rcases hop with rfl | rfl <;> simp [tierRangeOk]
  have f (x : List Byte) : ({ origin := .i3c, args := x } : Cmd).fn = 0 := rfl
  have b (x : List Byte) : bufferCheck { origin := .i3c, args := x } s = none := by simp [bufferCheck]
  simp only [gate, wLife, r, f, b, e]
  simp only [wLife] at d
  rw [d]
  simp

theorem wit_FusesAndLifecycle_advance : ∃ (c : Cmd) (s : State), Admitted 0x0902 c s ∧ c.argsOk [(0, 8)] = true ∧ c.dlen = 0 ∧ c.arg 0 8 = deviceUid ∧
    s.sec.fuses.lifecycle = 1 ∧ s.allUnconfigured = true :=
  ⟨wLife deviceUid, { wReady with sec := { fuses := { lifecycle := 1 } } }, wLife_admitted _ _ _ (by decide) (by decide +kernel), wUid_ok _ _, rfl,
    wUid_arg _ wUid_lt, rfl, by decide +kernel⟩

theorem wit_FusesAndLifecycle_decommission : ∃ (c : Cmd) (s : State), Admitted 0x0903 c s ∧ c.argsOk [(0, 8)] = true ∧ c.dlen = 0 ∧ c.arg 0 8 = deviceUid ∧
    (s.sec.fuses.lifecycle = 1 ∨ s.sec.fuses.lifecycle = 2) ∧ s.allUnconfigured = true :=
  ⟨wLife deviceUid, { wReady with sec := { fuses := { lifecycle := 2 } } }, wLife_admitted _ _ _ (by decide) (by decide +kernel), wUid_ok _ _, rfl,
    wUid_arg _ wUid_lt, .inr rfl, by decide +kernel⟩

theorem wit_FusesAndLifecycle_busy : ∃ (c : Cmd) (s : State), Admitted 0x0902 c s ∧ Admitted 0x0903 c s ∧ c.argsOk [(0, 8)] = true ∧ c.dlen = 0 ∧
    c.arg 0 8 = deviceUid ∧ s.allUnconfigured = false :=
  ⟨wLife deviceUid, wUp, wLife_admitted _ _ _ (by decide) (by decide +kernel), wLife_admitted _ _ _ (by decide) (by decide +kernel),
    wUid_ok _ _, rfl, wUid_arg _ wUid_lt, by decide +kernel⟩

theorem wit_FusesAndLifecycle_otherUid : ∃ (c : Cmd) (s : State), Admitted 0x0902 c s ∧ Admitted 0x0903 c s ∧ c.arg 0 8 ≠ deviceUid :=
  ⟨wLife ((deviceUid + 1) % 2 ^ 64), wReady, wLife_admitted _ _ _ (by decide) (by decide +kernel), wLife_admitted _ _ _ (by decide) (by decide +kernel),
    fun h => by
      have e := wUid_arg ((deviceUid + 1) % 2 ^ 64) (Nat.mod_lt _ (by decide))
      rw [← show (wLife ((deviceUid + 1) % 2 ^ 64)).arg 0 8 = fieldAt (wUidArgs ((deviceUid + 1) % 2 ^ 64)) 0 8 from rfl, h] at e
      have := wUid_lt
      generalize deviceUid = d at *
      omega⟩


/-- Page 77 in recovery, with a good lower copy in T1. -/
def wLost : PageRec := { wPageRec with recovery := true, base := 5, lowerValid := true, lowerTier := 1, lowerBase := 0 }
def wRecover : State := { wTiers wRec with tmg := { records := [(77, wLost)] }, t1 := wPage.t0 }

theorem wPair_eq {α β : Type} (p : α × β) {b : β} (h : p.2 = b) : p = (p.1, b) := by cases p; cases h; rfl
def wTaken : State := (takeExpander (expanderInst wRecover 1 0) (wLost.slot4k * 4096) (recoveryRequester wRecover 77 wLost) (recoveryKey 77) wRecover).1
theorem wTaken_ok : (takeExpander (expanderInst wRecover 1 0) (wLost.slot4k * 4096) (recoveryRequester wRecover 77 wLost) (recoveryKey 77) wRecover).2 = true := by decide +kernel
def wRecoverRead : State := (expanderRead {} 77 wLost wLost.lowerTier wLost.lowerBase wTaken).1
theorem wRecoverRead_ok : (expanderRead {} 77 wLost wLost.lowerTier wLost.lowerBase wTaken).2 = true := by decide +kernel
theorem wRecoverRead_slot : (allocSlot wRecoverRead wLost.part wLost.tier wLost.slot4k ((wLost.layer + wLost.page + stackIndex wRecoverRead 77) % 8)).isSome = true := by
  decide +kernel
theorem wRecover_rec : wRecover.rec? 77 = some wLost := by decide +kernel

theorem wit_ExpertPageOperations_recovered : ∃ (h a : Nat) (r : PageRec) (s v u : State), Live s ∧ s.rec? h = some r ∧ r.recovery = true ∧ r.lowerValid = true ∧
    s.tierUp r.lowerTier = true ∧ underTest s (expanderUnit s r.lowerTier r.lowerBase) = false ∧
    takeExpander (expanderInst s r.lowerTier r.lowerBase) (r.slot4k * 4096) (recoveryRequester s h r) (recoveryKey h) s = (v, true) ∧
    v.rec? h = some r ∧ v.tierUp r.lowerTier = true ∧ expanderRead {} h r r.lowerTier r.lowerBase v = (u, true) ∧
    allocSlot u r.part r.tier r.slot4k ((r.layer + r.page + stackIndex u h) % 8) = some a := by
  obtain ⟨a, h⟩ := Option.isSome_iff_exists.mp wRecoverRead_slot
  exact ⟨77, a, wLost, wRecover, wTaken, wRecoverRead, by decide +kernel, wRecover_rec, by decide +kernel, by decide +kernel, by decide +kernel, by decide +kernel,
    wPair_eq _ wTaken_ok, by decide +kernel, by decide +kernel, wPair_eq _ wRecoverRead_ok, h⟩

/-- An import of no pages that ends. -/
def wEmptyImport : ImportData := { contents := [], publisher := 0, final := [], pages := [] }
def wImporting : State := { wIn with pme := { imports := [(0, wImport)], slots := [(0, wSlot)] } }

theorem wit_PrefixUpkeep_imported : ∃ (id i n : Nat) (m : Import) (x : Session) (y : Model) (d : ImportData) (q : Slot) (pages : List (Nat × Nat)) (s u : State),
    Live s ∧ tget s.pme.imports id = some m ∧
    (let t := endSystem m.region (modPme (fun p => { p with imports := tdel p.imports id }) s)
    namedSession m.cmd.part m.session t = .inr (i, x) ∧ t.model? x.part x.model = some y ∧ mayAttach x = true ∧
    x.ident = m.ident ∧ d.dead = false ∧ d.contents.length = m.tokens.length / 32 ∧ d.pages.length = m.tokens.length / 32 * y.layers ∧
    d.pages.all (fun b => b.length == 4096 * y.geom.slot4k (fieldAt b 3 1)) = true ∧
    importPages i y.layers y.profile y.geom x.part d.pages t = some (u, pages) ∧
    cursorSlot u m.cmd.part (m.cmd.arg 8 4) = some (n, q)) :=
  ⟨0, 0, 0, wImport, wX, wModel, wEmptyImport, wSlot, [], wImporting, endSystem 0 (modPme (fun p => { p with imports := tdel p.imports 0 }) wImporting),
    by decide +kernel, by decide +kernel, by decide +kernel, by decide +kernel, by decide +kernel, rfl, rfl, rfl, rfl, rfl, rfl, by decide +kernel⟩

theorem wit_PrefixUpkeep_cross : ∃ (set d : Nat) (s u : State),
    Live s ∧
    set < 16384 ∧
    (holeMaintain 16 (readSet s set)).2 ≠ 0 ∧
    beyondHoles s = (d, u) :=
  ⟨0, (beyondHoles { wMember 1 with pme := { entries := wGroup } }).1, { wMember 1 with pme := { entries := wGroup } },
    (beyondHoles { wMember 1 with pme := { entries := wGroup } }).2, by decide +kernel, by decide, by decide +kernel, rfl⟩

/-- A sled query at member 1 whose candidate another device's column backs. -/
def wSledWay : PmeEntry := { wWay with home := 3 }
def wSledQuery : SledQuery := { origin := 0, id := 0, segment := 0, q := { wSlot with cands := [{ place := .way 0 0, entry := wSledWay }] } }
def wSledColumn : RemoteColumn := { tag := 1, parentTag := 0, gen := 5, page := 0, part := 0, shadow := List.replicate 32 0, node := 2, tier := 0 }
def wSled : State := { wMember 1 with pme := { sled := [wSledQuery], entries := [(0, wSledWay)] } }
def wSledAt : State := modPme (fun m => { m with sled := m.sled.map fun y => if y = wSledQuery then { wSledQuery with q := { wSledQuery.q with cands := [] } } else y })
  ((wSled.bump Ctr.pmeCascadeFrames).emit (.matchOut [1, 1]))
def wSledHit : PrefixHit := { depth := 1, column := 1, gen := 5, home := 3, node := 2, tier := 0 }
theorem wSled_won : (verifySled wSledQuery.q { place := .way 0 0, entry := wSledWay } (some wSledColumn) wSledAt).2 = some wSledHit := by decide +kernel

theorem wit_SledMessages_frameWon : ∃ (origin id seg : Nat) (k : Option RemoteColumn) (x : SledQuery) (c : Cand) (l : List Cand) (h : PrefixHit) (s u : State),
    Live s ∧ inSled s = true ∧ inCascade s = true ∧ ownPosition s ≠ 0 ∧
    (s.pme.sled.find? fun x => x.origin == origin && x.id == id && x.segment == seg) = some x ∧ x.q.cands = c :: l ∧
    verifySled x.q c k (modPme (fun m => { m with sled := m.sled.map fun y => if y = x then { x with q := { x.q with cands := l } } else y })
      ((s.bump Ctr.pmeCascadeFrames).emit (.matchOut [1, 1]))) = (u, some h) :=
  ⟨0, 0, 0, some wSledColumn, wSledQuery, { place := .way 0 0, entry := wSledWay }, [], wSledHit, wSled,
    (verifySled wSledQuery.q { place := .way 0 0, entry := wSledWay } (some wSledColumn) wSledAt).1,
    by decide +kernel, by decide +kernel, by decide +kernel, by decide +kernel, by decide +kernel, rfl, wPair_eq _ wSled_won⟩

def wProjectAt : State := modPart 0 1 (fun p => { p with nodes := p.nodes ++ [] }) (wDeal (wHeld wProject))
theorem wProject_done : (projectDone 0 (wStepIn (wHeld wProject)) wModel (wHeld wProject) 0 1 0 2 wProjectAt).2 = true := by decide +kernel

theorem wit_ItemsAndPages_project : ∃ (w st k a f c v0 vn : Nat) (x : Wheel) (m : Model) (p : LayerPart) (i : Item) (s v : State),
    Clocked s ∧
    (modPart w st (fun p => { p with nodes := p.nodes ++ [] }) s).wheel? w = some x ∧
    x.parts.find? (·.stamp == st) = some p ∧
    s.model? x.part x.model = some m ∧
    p.items[k]? = some i ∧
    i.array = some a ∧
    i.done = false ∧
    i.failedOn = none ∧
    (p.gangs[i.gang]?).map (·.toRead) = some [] ∧
    i.kind = .project f c v0 vn ∧
    projectDone w x m p f c v0 vn (modPart w st (fun p => { p with nodes := p.nodes ++ [] }) s) = (v, true) :=
  ⟨0, 1, 0, 3, 0, 1, 0, 2, wStepIn (wHeld wProject), wModel, wHeld wProject, { kind := .project 0 1 0 2, gang := 0, array := some 3 }, wDeal (wHeld wProject),
    (projectDone 0 (wStepIn (wHeld wProject)) wModel (wHeld wProject) 0 1 0 2 wProjectAt).1,
    by decide +kernel, by decide +kernel, by decide +kernel, by decide +kernel, by decide +kernel, by decide +kernel, rfl, rfl, by decide +kernel, rfl,
    wPair_eq _ wProject_done⟩

theorem wSets_length {β : Type} (f : β → Nat) (g : β → Nat) (l : List β) (b : List Nat) : (l.foldl (fun b e => b.set (f e) (g e)) b).length = b.length := by
  induction l generalizing b with
  | nil => rfl
  | cons e l ih => exact (ih _).trans List.length_set

theorem wRound_length (s : List Nat × Nat) : (Keccak.round s).1.length = s.1.length := by
  have h : ∀ a, (Keccak.rhoPi a).length = a.length := fun a => by
    unfold Keccak.rhoPi
    generalize (Keccak.walk 24 (1, 0)).zipIdx = l
    exact wSets_length (fun e => e.1.2 + 5 * ((2 * e.1.1 + 3 * e.1.2) % 5)) (fun e => Keccak.turn (Keccak.lane a (e.1.1 + 5 * e.1.2)) ((e.2 + 1) * (e.2 + 2) / 2)) l a
  unfold Keccak.round
  generalize Keccak.iota s.2 = q
  simp only [List.length_modifyHead, Keccak.chi, List.length_map, List.length_zipIdx, h, Keccak.theta]

theorem wFold_length {β : Type} (f : List Nat × Nat → β → List Nat × Nat) (hf : ∀ s e, (f s e).1.length = s.1.length) (l : List β) (s : List Nat × Nat) :
    (l.foldl f s).1.length = s.1.length := by
  induction l generalizing s with
  | nil => rfl
  | cons e l ih => rw [List.foldl_cons, ih, hf]

theorem wPerm_length (a : List Nat) : (Keccak.perm a).length = a.length := wFold_length _ (fun s _ => wRound_length s) (List.range 24) (a, 1)

theorem wAbsorb_length (rate n : Nat) (a : List Nat) (l : List Byte) (h : a.length = 25) : (Keccak.absorb rate n a l).length = 25 := by
  induction n generalizing a l with
  | zero => exact h
  | succ n ih => exact ih _ _ ((wPerm_length _).trans (by simp [Keccak.absorbBlock]))

theorem wFlat_length (l : List Nat) : (l.map (leBytes 8)).flatten.length = 8 * l.length := by
  induction l with
  | nil => rfl
  | cons x l ih => rw [List.map_cons, List.flatten_cons, List.length_append, ih]; simp [leBytes]; omega

theorem wSqueeze_length (a : List Nat) (h : a.length = 25) : (List.take 32 (Keccak.squeeze 136 1 a)).length = 32 := by
  have := wFlat_length a
  rw [List.length_take, Keccak.squeeze, Keccak.squeeze, List.append_nil, List.length_take, this, h]
  rfl

theorem wHash_length (m : List Byte) : (shake256 m 32).length = 32 := wSqueeze_length _ (wAbsorb_length _ _ _ _ (by simp))

theorem wBytes32 (l : List Byte) (h : l.length = 32) : ∃ f : Nat → Byte, l = [f 0, f 1, f 2, f 3, f 4, f 5, f 6, f 7, f 8, f 9, f 10, f 11, f 12, f 13, f 14, f 15,
    f 16, f 17, f 18, f 19, f 20, f 21, f 22, f 23, f 24, f 25, f 26, f 27, f 28, f 29, f 30, f 31] := by
  refine ⟨fun i => l.getD i 0, ?_⟩
  apply List.ext_getElem
  · exact h
  · intro i hi _
    rw [h] at hi
    interval_cases i <;> simp [List.getD_eq_getElem?_getD, h]

/-- A device whose partition 0 has two direct units of T1. -/
def wDirect1 : State := wUp.setF (Reg.mgcPbExtentDirect4k 0 1) 4

/-- A binding record of one layer, one head of 64 elements and fp8 weights at window offset 0, with this hash of its image. -/
def wRecord (h : List Byte) : List Byte :=
  [(0, 2, 0x4D42), (2, 2, 1), (4, 2, 1), (8, 2, 64), (0x0A, 2, 64), (0x0D, 1, 1), (0x0F, 1, 1), (0x1C, 4, 64)].foldl (fun b f => patch b f.1 (leBytes f.2.1 f.2.2)) (zeros 32) ++
    h ++ [(0x10, 8, 2 ^ 63 + 2 ^ 16)].foldl (fun b f => patch b f.1 (leBytes f.2.1 f.2.2)) (zeros 228)

def wFetched (len : Nat) : State × (Status ⊕ List Byte) := directFetch 0 1 0 len wDirect1
def wImage (len : Nat) : List Byte := match (wFetched len).2 with | .inr w => w | .inl _ => []
theorem wFetched_ok (len : Nat) (h : (wFetched len).2.isRight = true) : wFetched len = ((wFetched len).1, .inr (wImage len)) := by
  unfold wImage
  generalize wFetched len = p at h ⊢
  obtain ⟨s, e⟩ := p
  cases e with
  | inl e => cases h
  | inr e => rfl
theorem wFetched_model : (wFetched 8448).2.isRight = true := by decide +kernel

def wBindCmd : Cmd := wCmd 1 [] 292 (wRecord (shake256 (wImage 8448) 32))

theorem wSlice_all (l : List Byte) (n : Nat) (h : l.length = n) : slice l 0 n = l := by
  subst h
  simp [slice, zeros]

theorem wRecord_length (h : List Byte) (hl : h.length = 32) : (wRecord h).length = 292 := by
  rw [wRecord, List.length_append, List.length_append, hl]
  decide +kernel

theorem wRecord_slice (h : List Byte) (hl : h.length = 32) (o n : Nat) (k : o + n ≤ 32 ∨ 64 ≤ o) : slice (wRecord h) o n = slice (wRecord (zeros 32)) o n := by
  have hp : ([(0, 2, 0x4D42), (2, 2, 1), (4, 2, 1), (8, 2, 64), (0x0A, 2, 64), (0x0D, 1, 1), (0x0F, 1, 1), (0x1C, 4, 64)].foldl
      (fun b f => patch b f.1 (leBytes f.2.1 f.2.2)) (zeros 32)).length = 32 := by decide +kernel
  unfold wRecord slice
  generalize [(0, 2, 0x4D42), (2, 2, 1), (4, 2, 1), (8, 2, 64), (0x0A, 2, 64), (0x0D, 1, 1), (0x0F, 1, 1), (0x1C, 4, 64)].foldl
      (fun b f => patch b f.1 (leBytes f.2.1 f.2.2)) (zeros 32) = p at hp ⊢
  generalize [(0x10, 8, 2 ^ 63 + 2 ^ 16)].foldl (fun b f => patch b f.1 (leBytes f.2.1 f.2.2)) (zeros 228) = q
  have e : ((p ++ h ++ q).drop o).take n = ((p ++ zeros 32 ++ q).drop o).take n := by
    rcases k with k | k
    · rw [List.append_assoc, List.append_assoc, List.drop_append_of_le_length (by omega), List.drop_append_of_le_length (by omega),
        List.take_append_of_le_length (by simp; omega), List.take_append_of_le_length (by simp; omega)]
    · have d : ∀ x : List Byte, x.length = 32 → (p ++ x ++ q).drop o = q.drop (o - 64) := fun x hx => by
        rw [List.drop_append, List.drop_eq_nil_of_le (by rw [List.length_append]; omega), List.nil_append, List.length_append, hp, hx]
      rw [d h hl, d (zeros 32) (by decide)]
  simp only [e]

theorem wRecord_fieldAt (h : List Byte) (hl : h.length = 32) (o n : Nat) (k : o + n ≤ 32 ∨ 64 ≤ o) : fieldAt (wRecord h) o n = fieldAt (wRecord (zeros 32)) o n := by
  rw [fieldAt, wRecord_slice h hl o n k, fieldAt]

theorem wRecord_parse (h : List Byte) (hl : h.length = 32) (id : Nat) : parseModel (wRecord h) 0 0 id = parseModel (wRecord (zeros 32)) 0 0 id := by
  simp (disch := omega) only [parseModel, wRecord_slice h hl, wRecord_fieldAt h hl]

theorem wRecord_ok (h : List Byte) (hl : h.length = 32) (m : Model) : modelRecordOk (wRecord h) m = modelRecordOk (wRecord (zeros 32)) m := by
  simp (disch := omega) only [modelRecordOk, wRecord_slice h hl, wRecord_fieldAt h hl, wRecord_length h hl, wRecord_length (zeros 32) rfl]

theorem wRecord_hash (h : List Byte) (hl : h.length = 32) : slice (wRecord h) 0x20 32 = h := by
  have hp : ([(0, 2, 0x4D42), (2, 2, 1), (4, 2, 1), (8, 2, 64), (0x0A, 2, 64), (0x0D, 1, 1), (0x0F, 1, 1), (0x1C, 4, 64)].foldl
      (fun b f => patch b f.1 (leBytes f.2.1 f.2.2)) (zeros 32)).length = 32 := by decide +kernel
  unfold wRecord slice
  generalize [(0, 2, 0x4D42), (2, 2, 1), (4, 2, 1), (8, 2, 64), (0x0A, 2, 64), (0x0D, 1, 1), (0x0F, 1, 1), (0x1C, 4, 64)].foldl
      (fun b f => patch b f.1 (leBytes f.2.1 f.2.2)) (zeros 32) = p at hp ⊢
  rw [List.append_assoc, List.drop_append, List.drop_eq_nil_of_le (by omega)]
  simp [hp, hl, zeros]

theorem wRecord_zeros : fieldAt (wRecord (zeros 32)) 2 2 = 1 ∧ modelRecordOk (wRecord (zeros 32)) (parseModel (wRecord (zeros 32)) 0 0 0) = true ∧
    (profileOf (slice (wRecord (zeros 32)) 0x50 64)).isNone = false ∧ (parseModel (wRecord (zeros 32)) 0 0 0).strict = false ∧
    (parseModel (wRecord (zeros 32)) 0 0 0).weightBase = 0 ∧ (parseModel (wRecord (zeros 32)) 0 0 0).imageLen = 8448 := by decide +kernel

theorem wRecord_checks (h : List Byte) (hl : h.length = 32) (id : Nat) : fieldAt (wRecord h) 2 2 = 1 ∧
    modelRecordOk (wRecord h) (parseModel (wRecord h) 0 0 id) = true ∧ (profileOf (slice (wRecord h) 0x50 64)).isNone = false ∧
    (parseModel (wRecord h) 0 0 id).strict = false ∧ (parseModel (wRecord h) 0 0 id).weightBase = 0 ∧
    (parseModel (wRecord h) 0 0 id).imageLen = 8448 ∧ slice (wRecord h) 0x20 32 = h ∧ slice (wRecord h) 0 292 = wRecord h := by
  obtain ⟨h1, h2, h3, h4, h5, h6⟩ := wRecord_zeros
  rw [wRecord_parse h hl, wRecord_ok h hl, wRecord_slice h hl _ _ (.inr (by decide)), wRecord_fieldAt h hl _ _ (.inl (by decide))]
  exact ⟨h1, h2, h3, h4, h5, h6, wRecord_hash h hl, wSlice_all _ 292 (wRecord_length _ hl)⟩

theorem wBindFields (i : Nat) : modelFields (wRecord (shake256 (wImage 8448) 32)) 0 i wDirect1 = .inr (parseModel (wRecord (shake256 (wImage 8448) 32)) 0 0 i) := by
  obtain ⟨h1, h2, h3, h4, h5, h6, _⟩ := wRecord_checks _ (wHash_length (wImage 8448)) i
  have hs : (freeSlot16 ((wDirect1.ssq.models.filter fun m => m.part == 0).map (·.slot))).getD 16 = 0 := by decide +kernel
  have hd : wDirect1.inDirect 0 1 0 8448 = true := by decide +kernel
  have hq : wDirect1.isProtected 0 = false := by decide +kernel
  have hc : (parseModel (wRecord (shake256 (wImage 8448) 32)) 0 0 i).contract = 1 := h1
  have hl : (parseModel (wRecord (shake256 (wImage 8448) 32)) 0 0 i).slot = 0 := rfl
  simp only [modelFields, hs, hc, hl, h2, h3, h4, h5, h6, hd, hq]
  simp

/-- No host holds a line of the images. -/
theorem wNoWait (op : WinOp) (n : Nat) (h : (wDirect1.directLines 0 1 0 n).all (wDirect1.lineReady false) && !wDirect1.lineQueued (wDirect1.directLines 0 1 0 n) = true) :
    beginAccess op (wDirect1.directLines 0 1 0 n) false wDirect1 = none := if_pos h

theorem wBindRecord (i : Nat) : modelCheck wBindCmd (wRecord (shake256 (wImage 8448) 32)) i wDirect1 =
    ((wFetched 8448).1, .inr (parseModel (wRecord (shake256 (wImage 8448) 32)) 0 0 i)) := by
  obtain ⟨h1, h2, h3, h4, h5, h6, h7, h8⟩ := wRecord_checks _ (wHash_length (wImage 8448)) i
  have hp : wBindCmd.part = 0 := by decide +kernel
  have hf : directFetch 0 1 0 8448 wDirect1 = _ := wFetched_ok 8448 wFetched_model
  simp only [modelCheck, wBindFields, hp, h5, h6, h7, hf]
  simp

theorem wNoModel {s : State} (h : s.ssq.models = []) (n i : Nat) : s.model? n i = none := by
  unfold State.model?
  rw [h]
  rfl

theorem wit_BindingsAndAdapters_bind : ∃ (c : Cmd) (m : Model) (s s₁ : State), Admitted 0x0201 c s ∧ c.argsOk [] = true ∧
    s.model? c.part (leNat (shake256 (c.buffer s) 8)) = none ∧
    beginAccess (.command 0x0201 c) (modelLines (c.buffer s) c.part (leNat (shake256 (c.buffer s) 8)) s) false s = none ∧
    modelCheck c (c.buffer s) (leNat (shake256 (c.buffer s) 8)) s = (s₁, .inr m) := by
  have wPart : wBindCmd.part = 0 := by decide +kernel
  have hd : wBindCmd.dwin = false := rfl
  have hn : wBindCmd.dlen = 292 := rfl
  have ha : wBindCmd.data = wRecord (shake256 (wImage 8448) 32) := rfl
  have hb : wBindCmd.buffer wDirect1 = wRecord (shake256 (wImage 8448) 32) := by
    rw [Cmd.buffer, hd, hn, ha, if_neg (by decide)]
    exact (wRecord_checks _ (wHash_length (wImage 8448)) 0).2.2.2.2.2.2.2
  refine ⟨wBindCmd, parseModel (wRecord (shake256 (wImage 8448) 32)) 0 0 (leNat (shake256 (wRecord (shake256 (wImage 8448) 32)) 8)), wDirect1, (wFetched 8448).1, by decide +kernel, by decide +kernel, ?_, ?_, ?_⟩
  · have hm : wDirect1.ssq.models = [] := by decide +kernel
    exact wNoModel hm _ _
  · rw [hb, wPart, modelLines, wBindFields]
    obtain ⟨_, _, _, _, h5, h6, _⟩ := wRecord_checks _ (wHash_length (wImage 8448)) (leNat (shake256 (wRecord (shake256 (wImage 8448) 32)) 8))
    simp only [h5, h6]
    exact wNoWait _ _ (by decide +kernel)
  · rw [hb]
    exact wBindRecord _

/-- A tail record of one token, hidden width 64 and fp8 rows, with the hash of its image, which is 66 zero bytes. -/
def wTailRecord : List Byte :=
  [(0, 2, 0x5442), (2, 2, 1), (4, 4, 1), (8, 2, 64), (0x0E, 1, 1)].foldl (fun b f => patch b f.1 (leBytes f.2.1 f.2.2)) (zeros 32) ++ shake256 (zeros 66) 32 ++ zeros 64
def wTailCmd : Cmd := wCmd 1 [] 128 wTailRecord
def wTailId : Nat := leNat (shake256 (wTailCmd.buffer wDirect1) 8)
def wTailChecked (i : Nat) : State × (Status ⊕ Tail) := tailCheck wTailCmd (wTailCmd.buffer wDirect1) i wDirect1
theorem wTailChecked_ok (i : Nat) (h : (wTailChecked i).2.isRight = true) : ∃ s t, wTailChecked i = (s, .inr t) := by
  generalize wTailChecked i = p at h ⊢
  obtain ⟨s, e⟩ := p
  cases e with
  | inl e => cases h
  | inr e => exact ⟨s, e, rfl⟩

theorem wit_BindingsAndAdapters_tail : ∃ (c : Cmd) (t : Tail) (s s₁ : State), Admitted 0x0203 c s ∧ c.argsOk [] = true ∧
    s.tail? c.part (leNat (shake256 (c.buffer s) 8)) = none ∧
    beginAccess (.command 0x0203 c) (tailLines (c.buffer s) c.part (leNat (shake256 (c.buffer s) 8)) s) false s = none ∧
    tailCheck c (c.buffer s) (leNat (shake256 (c.buffer s) 8)) s = (s₁, .inr t) := by
  obtain ⟨s, t, h⟩ := wTailChecked_ok wTailId (by decide +kernel)
  exact ⟨wTailCmd, t, wDirect1, s, by decide +kernel, by decide +kernel, by decide +kernel, by decide +kernel, h⟩

/-- The session's partition protected, with a unit of the session's descriptor whose tag fails. -/
def wBadDesc : State := { wIn with sec := { wIn.sec with badUnits := [(1, Config.objectUnit 0 0)] } }.setF (Reg.mgcPbCtrlProtected 0) 1

theorem wit_SessionCloseParkRebind_corrupt : ∃ (c : Cmd) (i : Nat) (x : Session) (s : State), Admitted 0x0102 c s ∧ c.argsOk [(0, 8)] = true ∧ c.dlen = 0 ∧
    namedSession c.part (c.arg 0 8) s = .inr (i, x) ∧ objectsBad s 1 [descObject s i x] ≠ [] := by
  refine ⟨wNamed [], 0, wX, wBadDesc, by decide +kernel, by decide +kernel, by decide +kernel, by decide +kernel, ?_⟩
  have p : wBadDesc.isProtected 0 = true := by decide +kernel
  have l : 0 < cdiv (descBytes wX).length 512 := by decide +kernel
  have b : wBadDesc.sec.badUnits = [(1, Config.objectUnit 0 0)] := rfl
  have o : descObject wBadDesc 0 wX = { part := 0, unit := Config.objectUnit 0 0, kind := 3, gen := (sessionGens wBadDesc 0).2, bytes := descBytes wX } := rfl
  simp only [objectsBad, List.map_cons, List.map_nil, o, p, b, if_true]
  simp [Stored.has, l]

-- An ill-formed command for each check of WellFormed.lean
theorem test_wf_queueFunction : Instr.wf (.queueCreate { wCmd 1 [] with origin := .queue 17 0 0 }) = false := by decide
theorem test_wf_queueNumber : Instr.wf (.queueCreate { wCmd 1 [] with origin := .queue 0 4 0 }) = false := by decide
theorem test_wf_queueId : Instr.wf (.queueCreate { wCmd 1 [] with origin := .queue 1 0 65536 }) = false := by decide
theorem test_wf_args : Instr.wf (.queueCreate { wCmd 1 [] with args := zeros 31 }) = false := by decide
theorem test_wf_dptr : Instr.wf (.queueCreate { wCmd 1 [] with dptr := 2 ^ 64 }) = false := by decide
theorem test_wf_dlen : Instr.wf (.queueCreate { wCmd 1 [] with dlen := 2 ^ 64 }) = false := by decide
theorem test_wf_data : Instr.wf (.queueCreate (wCmd 1 [] 1 [0, 0])) = false := by decide
theorem test_wf_sender : Instr.wf (.regionOpRevoke 18 0) = false := by decide
theorem test_wf_fn : Instr.wf (.functionLevelReset 17) = false := by decide
theorem test_wf_queue : Instr.wf (.cqDelayExpiry 1 64) = false := by decide
theorem test_wf_port : Instr.wf (.linkTrained 8) = false := by decide
theorem test_wf_tray : Instr.wf (.cxdPortDown 2) = false := by decide
theorem test_wf_drive : Instr.wf (.nvcDriveFatal 8) = false := by decide
theorem test_wf_wheel : Instr.wf (.rosterWrite 256) = false := by decide
theorem test_wf_conn : Instr.wf (.connectTimeout 1048576) = false := by decide
theorem test_wf_region : Instr.wf (.revokeDrained 65536) = false := by decide
theorem test_wf_handleZero : Instr.wf (.heatPromotion 0) = false := by decide
theorem test_wf_handle : Instr.wf (.heatPromotion (2 ^ 31)) = false := by decide
theorem test_wf_session : Instr.wf (.sessionExpiry (2 ^ 22)) = false := by decide
theorem test_wf_part : Instr.wf (.cleanAhead 16) = false := by decide
theorem test_wf_tier : Instr.wf (.spillwayRelief 0 4 []) = false := by decide
theorem test_wf_bank : Instr.wf (.hitsAgeing 16) = false := by decide
theorem test_wf_set : Instr.wf (.holeMaintenance 16384) = false := by decide
theorem test_wf_way : Instr.wf (.dropEntry 0 0 128) = false := by decide
theorem test_wf_core : Instr.wf (.debugHalt 72) = false := by decide
theorem test_wf_pageGap : Instr.wf (.blkInject 0 22 0) = false := by decide
theorem test_wf_pageEnd : Instr.wf (.blkInject 0 40 0) = false := by decide
theorem test_wf_sluice : Instr.wf (.sluiceWindowBoundary 61) = false := by decide
theorem test_wf_extent : Instr.wf (.extentWipeDone 64) = false := by decide
theorem test_wf_ld : Instr.wf (.ldReset 16) = false := by decide
theorem test_wf_line : Instr.wf (.hostMemRead 0 (2 ^ 32) .shared) = false := by decide
theorem test_wf_pin : Instr.wf (.pinUnmask 11) = false := by decide
theorem test_wf_sensor : Instr.wf (.thermalTrip 13 0) = false := by decide
theorem test_wf_transport : Instr.wf (.spdmGetDigests 18) = false := by decide
theorem test_wf_word64 : Instr.wf (.tickWrite 0 (2 ^ 64)) = false := by decide
theorem test_wf_word32 : Instr.wf (.sqTailDoorbell 1 0 (2 ^ 32)) = false := by decide
theorem test_wf_word16 : Instr.wf (.resetCtrlWrite 0 65536 0) = false := by decide
theorem test_wf_bit : Instr.wf (.resetCtrlWrite 0 0 2) = false := by decide
theorem test_wf_bar : Instr.wf (.registerWrite 0 (2 ^ 26) 8 0) = false := by decide
theorem test_wf_pos : Instr.wf (.powerOnReset 8 0 0) = false := by decide
theorem test_wf_sa : Instr.wf (.powerOnReset 0 0 4) = false := by decide
theorem test_wf_wheelReg : Instr.wf (.wheelExpertWrite 0 0 3 0) = false := by decide
theorem test_wf_lineBytes : Instr.wf (.hostMemWrite 0 0 0 (zeros 63)) = false := by decide
theorem test_wf_entry : Instr.wf (.commandFetch 1 0 (zeros 63)) = false := by decide
theorem test_wf_packet : Instr.wf (.nak 0 (zeros 31) 0) = false := by decide
theorem test_wf_modules : Instr.wf (.dimmTrained []) = false := by decide
theorem test_wf_temps : Instr.wf (.thermalSample []) = false := by decide
theorem test_wf_accepts : (Instr.wf (.queueCreate (wCmd 1 [])) && Instr.wf (.blkInject 17 24 0) && Instr.wf (.heatPromotion 1) && Instr.wf (.nak 7 (zeros 32) 0)) = true := by decide

end Sys2Proof.Tests
end

/-!
Register writes. What a register write, the expert windows, injection, the operator's self-test and the expert words of SSQ.WHEEL do (16 R512-R519).
-/
namespace Sys2Proof.Machine

open Sys2Proof

section OneField

variable {from_ v : Nat} {r : RegRow} {f : Fld} {s : State}

/-- 16 R513: a field that the sender may not write is left. -/
theorem writeField_of_not_mayWrite (h : s.mayWrite from_ f.off r.wr = false) : writeField from_ r f v s = s := by
  simp [writeField, h]

/-- 00 R13: an RW field takes a listed value and keeps its own otherwise. -/
theorem writeField_rw (hm : s.mayWrite from_ f.off r.wr = true) (hw : r.w1c = false) :
    writeField from_ r f v s = if s.listed f.off r.chk v then s.setF f v else s := by
  simp [writeField, hm, hw]

/-- 00 R11: a W1C field loses the bits written 1; only SECONDARY does more (R515). -/
theorem writeField_w1c (hm : s.mayWrite from_ f.off r.wr = true) (hw : r.w1c = true)
    (hf : f ≠ Reg.blkErrstateSecondary (f.off / 0x10000)) : writeField from_ r f v s = s.w1c f v := by
  simp [writeField, hm, hw, hf]

end OneField

section OneWord

variable {from_ w lo size v : Nat} {take : Fld → Bool} {s : State}

/-- A word none of whose fields the sender may write is left. -/
theorem writeWord_of_not_mayWrite (h : (wordFields w).all (fun x => !s.mayWrite from_ x.2.off x.1.wr) = true) :
    writeWord from_ w lo size v take s = s := by
  refine List.foldlRecOn (motive := (· = s)) _ _ rfl fun t ht x hx => ?_
  subst ht
  have hx' : t.mayWrite from_ x.2.off x.1.wr = false := by simpa using List.all_eq_true.1 h x hx
  split
  · exact writeField_of_not_mayWrite hx'
  · rfl

/-- A write of a whole word with one field writes that field from its place in the value. -/
theorem writeWord_single {r : RegRow} {f : Fld} (h : wordFields w = [(r, f)]) (hr : r.lo + r.width ≤ 64) :
    writeWord from_ w 0 8 v (fun _ => true) s = writeField from_ r f (bits v r.lo r.width) s := by
  simp [writeWord, h, hr]

/-- Outside the SSQ page and MIGRATE's word, a write of an aligned word writes its fields and nothing else. -/
theorem barWrite_aligned {o : Nat} (ho : o % 8 = 0) (hp : o / 0x10000 ≠ pSsq) (hm : o ≠ Reg.tmgMigrateHiWater.off) :
    barWrite from_ o size v s = writeWord from_ o 0 size v (fun _ => true) s := by
  simp [barWrite, ho, hp, hm]

/-- A write of an aligned word outside the SSQ page whose fields the sender may not write changes nothing, MIGRATE's among them. -/
theorem barWrite_of_not_mayWrite {o : Nat} (ho : o % 8 = 0) (hp : o / 0x10000 ≠ pSsq)
    (h : (wordFields o).all (fun x => !s.mayWrite from_ x.2.off x.1.wr) = true) : barWrite from_ o size v s = s := by
  simp [barWrite, ho, hp, writeWord_of_not_mayWrite h]

/-- 08: a write that would make MIGRATE illegal is discarded whole. -/
theorem barWrite_migrate_illegal
    (h : migrateOk (writeWord from_ Reg.tmgMigrateHiWater.off 0 size v (fun _ => true) s) = false) :
    barWrite from_ Reg.tmgMigrateHiWater.off size v s = s := by
  have hword : Reg.tmgMigrateHiWater.off % 8 = 0 := by decide
  have hpage : Reg.tmgMigrateHiWater.off / 0x10000 ≠ pSsq := by decide
  simp [barWrite, hword, hpage, h]

/-- MIGRATE's word has several fields. -/
theorem wordFields_migrate_ne_singleton (x : RegRow × Fld) : wordFields Reg.tmgMigrateHiWater.off ≠ [x] := by
  have hlen : (wordFields Reg.tmgMigrateHiWater.off).length ≠ 1 := by decide +kernel
  intro h
  exact hlen (by rw [h]; rfl)

/-- 16 R512: an access of a size other than 4 or 8, or not aligned to its size, changes nothing. -/
theorem regWrite_bad_size {o : Nat} (h : (size ≠ 4 ∧ size ≠ 8) ∨ o % size ≠ 0) : regWrite from_ o size v s = s := by
  have hbad : ((size != 4 && size != 8) || o % size != 0) = true := by simpa using h
  simp only [regWrite, Bool.or_assoc, hbad, Bool.or_true, if_true]

/-- A write of an aligned word of BAR0 through a function that answers reaches the registers. -/
theorem regWrite_word {o : Nat} (hl : s.fnLive from_ = true) (hi : from_ ≠ fromI3c) (hb : o < bar4Base) (ho : o % 8 = 0) :
    regWrite from_ o 8 v s = barWrite from_ o 8 v s := by
  simp [regWrite, hl, hi, hb, ho]

/-- A write of BAR0 that the registers discard changes nothing, whether or not the sender answers. -/
theorem regWrite_of_barWrite_eq {o : Nat} (hb : o < bar4Base) (h : barWrite from_ o size v s = s) : regWrite from_ o size v s = s := by
  simp only [regWrite, hb, if_true, h, ite_self]

/-- The next state of a whole-word write of a word with one field. -/
theorem regWrite_single {o : Nat} {r : RegRow} {f : Fld} (hl : s.fnLive from_ = true) (hi : from_ ≠ fromI3c) (hb : o < bar4Base)
    (ho : o % 8 = 0) (hf : wordFields o = [(r, f)]) (hr : r.lo + r.width ≤ 64) (hp : o / 0x10000 ≠ pSsq) :
    regWrite from_ o 8 v s = writeField from_ r f (bits v r.lo r.width) s := by
  have hm : o ≠ Reg.tmgMigrateHiWater.off := by
    rintro rfl
    exact wordFields_migrate_ne_singleton _ hf
  rw [regWrite_word hl hi hb ho, barWrite_aligned ho hp hm, writeWord_single hf hr]

end OneWord

theorem exec_registerWrite (from_ o size v : Nat) (s : State) :
    exec (.registerWrite from_ o size v) s = .next (countIo from_ (regWrite from_ o size v s)) := rfl

-- Expert windows, injection and the operator's self-test

/-- Function 0 is the only operator. -/
theorem not_operator_of_ne {via : Nat} (h : via ≠ 0) (s : State) : s.operator via = false := by
  simp [State.operator, h]

theorem operator_zero {s : State} (h : s.fnShown 0 = true) : s.operator 0 = true := by
  simp [State.operator, h]

theorem live_of_running {s : State} (h : Live s) (g : State → State) : live g s = g s := if_pos h

/-- What leaves the state while the device runs leaves it always. -/
theorem live_of_eq {s : State} {g : State → State} (h : g s = s) : live g s = s := by
  simp [live, h]

/-- 16 R516: the key alone changes the masks, and each change is logged. -/
theorem exec_expertUnlock {slot mp mo : Nat} {s : State} (hs : s.fnShown 0 = true) (hoff : s.mgc.off = false)
    (hp : (page? slot).isSome = true) (hmp : mp < 2 ^ 16) (hmo : mo ≤ 1)
    (hne : s.getF (Reg.blkExpertUnlockMaskPart slot) ≠ mp ∨ s.getF (Reg.blkExpertUnlockMaskOper slot) ≠ mo) :
    exec (.blkExpertUnlockWrite 0 slot mp mo 0xE4E4) s = .next (countIo 0 (logEv .mgcExpertUnlock pMgc 0xFF [slot, mp, mo]
      ((s.setF (Reg.blkExpertUnlockMaskPart slot) mp).setF (Reg.blkExpertUnlockMaskOper slot) mo))) := by
  change execBlkExpertUnlockWrite 0 slot mp mo 0xE4E4 s = _
  have hchg : ¬(s.getF (Reg.blkExpertUnlockMaskPart slot) = mp ∧ s.getF (Reg.blkExpertUnlockMaskOper slot) = mo) := not_and_or.2 hne
  have htaken : ¬(s.operator 0 = false ∨ (page? slot).isNone = true ∨ s.mgc.off = true ∨ (0xE4E4 : Nat) ≠ 0xE4E4 ∨ 2 ^ 16 ≤ mp ∨ 1 < mo) := by
    simpa [operator_zero hs, Option.isNone_eq_false_iff.2 hp, hoff] using And.intro hmp hmo
  rw [execBlkExpertUnlockWrite, if_neg htaken, if_neg hchg]

/-- Another function, another key or a reserved page leaves the masks. -/
theorem exec_expertUnlock_refused {via slot mp mo key : Nat} (s : State) (h : via ≠ 0 ∨ key ≠ 0xE4E4 ∨ (page? slot).isNone = true) :
    exec (.blkExpertUnlockWrite via slot mp mo key) s = .next (countIo via s) := by
  change execBlkExpertUnlockWrite via slot mp mo key s = _
  rw [execBlkExpertUnlockWrite, if_pos]
  rcases h with hvia | hkey | hpage
  · exact .inl (not_operator_of_ne hvia s)
  · exact .inr (.inr (.inr (.inl hkey)))
  · exact .inr (.inl hpage)

/-- 16 R519: INJECT arms an error on a page whose window the operator has open and that has none armed. -/
theorem exec_inject {slot v : Nat} {s : State} (hs : s.fnShown 0 = true) (hl : Live s) (hp : (page? slot).isSome = true) (hv : v = 1 ∨ v = 2)
    (hopen : s.flag (Reg.blkExpertUnlockMaskOper slot) = true) (hfree : tget s.frc.injected slot = none) :
    exec (.blkInject 0 slot v) s = .next (countIo 0 (logFull (.injected (pageType slot)) slot (pageInst slot) 0xFF 0 0 [v]
      (s.setFrc { s.frc with injected := tset s.frc.injected slot v }))) := by
  change execBlkInject 0 slot v s = _
  rw [execBlkInject, live_of_running hl, if_neg]
  rw [operator_zero hs, Option.isNone_eq_false_iff.2 hp, hopen, hfree]
  rcases hv with rfl | rfl <;> simp

/-- Another function, or a window that is not open, injects nothing. -/
theorem exec_inject_refused {via slot v : Nat} {s : State} (h : via ≠ 0 ∨ s.flag (Reg.blkExpertUnlockMaskOper slot) = false) :
    exec (.blkInject via slot v) s = .next (countIo via s) := by
  change execBlkInject via slot v s = _
  rw [execBlkInject, live_of_eq]
  refine if_pos ?_
  rcases h with hvia | hshut
  · exact .inl (not_operator_of_ne hvia s)
  · exact .inr (.inr (.inr (.inl (by simp [hshut]))))

/-- Retirement and tests stand in no register. -/
@[simp] theorem isRetired_setF (s : State) (f : Fld) (v : Nat) (u : Resource) : isRetired (s.setF f v) u = isRetired s u := rfl
@[simp] theorem underTest_setF (s : State) (f : Fld) (v : Nat) (u : Resource) : underTest (s.setF f v) u = underTest s u := rfl

/-- Only a listed kind names a unit (R515). -/
theorem kindListed_of_namedUnit {s : State} {slot kind res : Nat} {u : Resource} (h : namedUnit s slot kind res = some u) :
    kindListed slot kind = true := by
  by_contra hk
  simp [namedUnit, hk] at h

/-- KIND keeps its value for a kind that is not listed (00 R13). -/
theorem operatorTest_unlisted {s : State} {slot res kind : Nat} (h : kindListed slot kind = false) :
    operatorTest slot res kind s = operatorTest slot res (s.getF (Reg.blkSelftestKind slot)) s := by
  simp [operatorTest, h]

/-- A listed kind that names no unit starts nothing. -/
theorem operatorTest_no_unit {s : State} {slot res kind : Nat} (hk : kindListed slot kind = true) (hu : namedUnit s slot kind res = none) :
    operatorTest slot res kind s = s := by
  simp [operatorTest, hk, hu]

/-- 14 R455: the test of a unit in service that is no lane. -/
theorem operatorTest_in_service {s : State} {slot res kind : Nat} {u : Resource} (hu : namedUnit s slot kind res = some u) (hk : kind ≠ 6)
    (hr : isRetired s u = false) (ht : underTest s u = false) :
    let v := ((s.setF (Reg.blkSelftestResource slot) res).setF (Reg.blkSelftestKind slot) kind).setF (Reg.blkSelftestResult slot) 0
    operatorTest slot res kind s = ((v.setF (Reg.blkSelftestBusy slot) 1).setFrc
      { s.frc with tests := s.frc.tests ++ [{ unit := u, log := slot, inst := unitInst u }] }).bump Ctr.frcSelftestsRun := by
  simp [operatorTest, kindListed_of_namedUnit hu, hu, hk, hr, ht]

/-- A write of GO that is taken is the operator's test. -/
theorem exec_selftestGo {slot res kind : Nat} {s : State} (hs : s.fnShown 0 = true) (hl : Live s) (hp : (page? slot).isSome = true)
    (hb : s.flag (Reg.blkSelftestBusy slot) = false) :
    exec (.blkSelftestGo 0 slot res kind) s = .next (countIo 0 (operatorTest slot res kind s)) := by
  change execBlkSelftestGo 0 slot res kind s = _
  rw [execBlkSelftestGo, live_of_running hl, if_neg]
  rw [operator_zero hs, Option.isNone_eq_false_iff.2 hp, hb]
  simp

/-- GO of another function, of a kind and resource that name no unit, or during a test changes nothing. -/
theorem exec_selftestGo_refused {via slot res kind : Nat} {s : State}
    (h : via ≠ 0 ∨ (kindListed slot kind = true ∧ namedUnit s slot kind res = none) ∨ s.flag (Reg.blkSelftestBusy slot) = true) :
    exec (.blkSelftestGo via slot res kind) s = .next (countIo via s) := by
  change execBlkSelftestGo via slot res kind s = _
  rw [execBlkSelftestGo]
  rcases h with hvia | ⟨hk, hu⟩ | hbusy
  · rw [if_pos (.inl (not_operator_of_ne hvia s))]
  · rw [live_of_eq (operatorTest_no_unit hk hu), ite_self]
  · rw [if_pos (.inr (.inr hbusy))]

/-- GO with a kind that is not listed is GO with the kind that stands in KIND. -/
theorem exec_selftestGo_unlisted {slot res kind : Nat} {s : State} (h : kindListed slot kind = false) :
    exec (.blkSelftestGo 0 slot res kind) s = exec (.blkSelftestGo 0 slot res (s.getF (Reg.blkSelftestKind slot))) s := by
  change execBlkSelftestGo 0 slot res kind s = execBlkSelftestGo 0 slot res (s.getF (Reg.blkSelftestKind slot)) s
  simp only [execBlkSelftestGo, live, operatorTest_unlisted h]

-- SSQ.WHEEL (02 R53, 16 R517)

@[simp] theorem wheel?_setF (s : State) (f : Fld) (v w : Nat) : (s.setF f v).wheel? w = s.wheel? w := rfl

section Wheel

variable {via w v : Nat} {s : State}

/-- An expert write that SSQ's open window lets through to a wheel of the sender's. -/
theorem wheelExpert_admitted (hw : w < 256) (ho : s.expertOpen pSsq via = true) (hobj : s.expertObject pSsq via (wheelPart s w) = true) :
    ¬(256 ≤ w ∨ (!s.expertOpen pSsq via) = true ∨ (!s.expertObject pSsq via (wheelPart s w)) = true) := by
  rw [ho, hobj]
  simp [hw]

/-- The first word of SSQ.WHEEL[w] while no wheel is attached: LEAD takes its value at once. -/
theorem wheelExpert_word_unattached (hw : w < 256) (ho : s.expertOpen pSsq via = true)
    (hobj : s.expertObject pSsq via (wheelPart s w) = true) (hn : s.wheel? w = none) :
    wheelExpert via w 0 v s = ([(Reg.ssqWheelPartition w, bits v 0 4), (Reg.ssqWheelValid w, bits v 4 1), (Reg.ssqWheelLayersM1 w, bits v 16 8),
      (Reg.ssqWheelBinding w, bits v 24 4)].foldl (fun s f => s.setF f.1 f.2) s).setF (Reg.ssqWheelLead w) (bits v 8 4) := by
  rw [wheelExpert, if_neg (wheelExpert_admitted hw ho hobj)]
  simp [hn]

/-- The BEAT word of SSQ.WHEEL[w]. -/
theorem wheelExpert_beat (hw : w < 256) (ho : s.expertOpen pSsq via = true) (hobj : s.expertObject pSsq via (wheelPart s w) = true) :
    wheelExpert via w 2 v s = s.setF (Reg.ssqWheelBeatEn w) (bits v 8 1) := by
  rw [wheelExpert, if_neg (wheelExpert_admitted hw ho hobj)]
  rfl

/-- A closed window lets nothing through. -/
theorem wheelExpert_closed {reg : Nat} (h : s.expertOpen pSsq via = false) : wheelExpert via w reg v s = s :=
  if_pos (.inr (.inl (by rw [h]; rfl)))

end Wheel

theorem exec_wheelExpertWrite (via w reg v : Nat) (s : State) :
    exec (.wheelExpertWrite via w reg v) s = .next (countIo via (wheelExpert via w reg v s)) := rfl

/-- Settles O39: a whole-word write is `writeField` of the word's field (`regWrite_single`), and each register with a command of its own has its
taken and its refused case above. -/
theorem registerWrites : Obligations.RegisterWrites := by
  unfold Obligations.RegisterWrites
  refine ⟨?rw, ?w1c, ?mayNot, ?size, ?unlock, ?noKey, ?inject, ?noInject, ?selftest, ?noUnit, ?noKind, ?migrate, ?wheel, ?wheelClosed⟩
  case rw =>
    intro via o v r f s hl hi hb ho hf hoff hr hm hw hp
    subst hoff
    rw [exec_registerWrite, regWrite_single hl hi hb ho hf hr hp, writeField_rw hm hw]
  case w1c =>
    intro via o v r f s hl hi hb ho hf hoff hr hm hw hne hp
    subst hoff
    rw [exec_registerWrite, regWrite_single hl hi hb ho hf hr hp, writeField_w1c hm hw hne]
    rfl
  case mayNot =>
    intro via o v s _ hb ho hp h
    rw [exec_registerWrite, regWrite_of_barWrite_eq hb (barWrite_of_not_mayWrite ho hp h)]
  case size =>
    intro via o size v s h
    rw [exec_registerWrite, regWrite_bad_size h]
  case unlock =>
    intro slot mp mo s hs hoff hp ⟨hmp, hmo⟩ hne
    exact exec_expertUnlock hs hoff hp hmp hmo hne
  case noKey =>
    intro via slot mp mo key s h
    exact exec_expertUnlock_refused s h
  case inject =>
    intro slot v s hs hl hp hv hopen hfree
    exact exec_inject hs hl hp hv hopen hfree
  case noInject =>
    intro via slot v s h
    exact exec_inject_refused h
  case selftest =>
    intro slot res kind u s hs hl hp hb hu hk ⟨hr, ht⟩
    rw [exec_selftestGo hs hl hp hb, operatorTest_in_service hu hk hr ht]
  case noUnit =>
    intro via slot res kind s h
    exact exec_selftestGo_refused h
  case noKind =>
    intro slot res kind s h
    exact exec_selftestGo_unlisted h
  case migrate =>
    intro via size v s _ h
    rw [exec_registerWrite, regWrite_of_barWrite_eq (by decide) (barWrite_migrate_illegal h)]
  case wheel =>
    intro via w v s hw ho hobj hn
    rw [exec_wheelExpertWrite, exec_wheelExpertWrite, wheelExpert_word_unattached hw ho hobj hn, wheelExpert_beat hw ho hobj]
    exact ⟨rfl, rfl⟩
  case wheelClosed =>
    intro via w reg v s h
    rw [exec_wheelExpertWrite, wheelExpert_closed h]

end Sys2Proof.Machine

/-!
The commands of a host on sessions. What a body of a host command answers, and how a command finds its session (02 R40, 13 R431).
-/
namespace Sys2Proof.Machine

open Sys2Proof

-- Bodies of host commands

@[simp] theorem need_true (st : Status) (k : Res) : need true st k = k := rfl
@[simp] theorem need_false (st : Status) (k : Res) : need false st k = .fail st := rfl

section Admitted

variable {op : Nat} {c : Cmd} {body : State → Res} {s t : State} {st : Status} {r : Reply}

/-- An admitted command whose body refuses it completes with the status and changes nothing else. -/
theorem hostCmd_fail (h : Admitted op c s) (hb : body s = .fail st) : hostCmd op c body s = complete c { status := st } s := by
  rw [admitted_run h, runBody, hb]

/-- An admitted command whose body ends completes with its reply. -/
theorem hostCmd_done (h : Admitted op c s) (hb : body s = .done t r) : hostCmd op c body s = complete c r t := by
  rw [admitted_run h, runBody, hb]

/-- An admitted command whose body goes on is in flight (12 R387). -/
theorem hostCmd_wait (h : Admitted op c s) (hb : body s = .wait t) : hostCmd op c body s = markStarted c t := by
  rw [admitted_run h, runBody, hb]

end Admitted

/-- ARGS that hold nothing outside some fields hold nothing outside wider ones. -/
theorem argsOk_mono {c : Cmd} {l m : List (Nat × Nat)} (h : c.argsOk l = true)
    (hlm : ∀ i, (l.any fun f => decide (f.1 ≤ i) && decide (i < f.1 + f.2)) = true → (m.any fun f => decide (f.1 ≤ i) && decide (i < f.1 + f.2)) = true) :
    c.argsOk m = true := by
  simp only [Cmd.argsOk, List.all_eq_true, Bool.or_eq_true] at h ⊢
  exact fun i hi => (h i hi).imp_left (hlm i)

/-- An adapter of a rank that the binding takes passes its check (02 R74). -/
theorem rank_fits {id rank top : Nat} (h : id = 0 ∨ rank ≤ top) : (id == 0 || decide (rank ≤ top)) = true := by simpa using h

-- The session that a command names

section Named

variable {c : Cmd} {s : State} {i : Nat} {x : Session} {k : Nat → Session → Res}

theorem objectsRead_intact {bad : List (Nat × Nat)} (h : bad = []) (s : State) (k : Res) : objectsRead i bad s k = k := by
  simp [objectsRead, h]

/-- A command that names an intact session runs on it. -/
theorem onSession_named (h : Names c s i x) : onSession c s k = k i x := by
  obtain ⟨hn, hok⟩ := h
  simp only [onSession, hn, objectsRead_intact hok]

/-- A handle that names no session gives the status of 02 R40. -/
theorem onSession_unnamed {st : Status} (h : namedSession c.part (c.arg 0 8) s = .inl st) : onSession c s k = .fail st := by
  simp only [onSession, h]

/-- A descriptor that fails its tag ends the command with ST_SESSION_CORRUPT (13 R431). -/
theorem onSession_corrupt (hn : namedSession c.part (c.arg 0 8) s = .inr (i, x)) (hbad : objectsBad s 1 [descObject s i x] ≠ []) :
    onSession c s k = .done (objectCorrupt i ((objectsBad s 1 [descObject s i x]).map fun u => (1, u)) s) { status := .sessionCorrupt } := by
  simp only [onSession, hn, objectsRead, List.isEmpty_iff, hbad, if_false]

end Named

-- The bodies of the session commands

theorem exec_sessionClose (c : Cmd) (s : State) : exec (.sessionClose c) s = .next (hostCmd 0x0102 c (sessionClose c) s) := rfl
theorem exec_sessionPark (c : Cmd) (s : State) : exec (.sessionPark c) s = .next (hostCmd 0x0103 c (sessionPark c) s) := rfl
theorem exec_sessionRebind (c : Cmd) (s : State) : exec (.sessionRebind c) s = .next (hostCmd 0x0104 c (sessionRebind c) s) := rfl

section CloseParkRebind

variable {c : Cmd} {s : State} {i : Nat} {x : Session}

/-- A well formed SESSION_CLOSE runs on the session that it names. -/
theorem sessionClose_wf (hargs : c.argsOk [(0, 8)] = true) (hlen : c.dlen = 0) :
    sessionClose c s = onSession c s fun i x =>
      let s := capCommand x.handle 0x0102 c s
      let s := if (turnOf s i).isSome then cancelTurn i s else s
      .done (closeSession i .closed s) { seq := seqOf s i + 1 } := by
  simp [sessionClose, hargs, hlen]

/-- What parking asks of the session once the command is well formed and names it. -/
theorem sessionPark_named (hargs : c.argsOk [(0, 8), (8, 1)] = true) (hlen : c.dlen = 0) (hrung : c.arg 8 1 ≤ 3) (hn : Names c s i x) :
    sessionPark c s = need x.healed.idle .sessionBusy (need x.healed.state.parks .sessionState
      (need (s.flag (Reg.ssqPbLadderValid x.healed.part (c.arg 8 1))) .invalidField (need (decide (x.healed.rung < c.arg 8 1)) .sessionState
        (doneAt i (enterRung i (c.arg 8 1) (commitEvent i .parked .ok (capCommand x.healed.handle 0x0103 c s))) {})))) := by
  simp [sessionPark, hargs, hlen, hrung, onSession_named hn]

/-- The transition for a lost page (04 R142) leaves a session's name and partition. -/
@[simp] theorem healed_part (x : Session) : x.healed.part = x.part := by unfold Session.healed; split <;> rfl
@[simp] theorem healed_handle (x : Session) : x.healed.handle = x.handle := by unfold Session.healed; split <;> rfl

/-- A busy session is not rebound. -/
theorem sessionRebind_busy (hargs : c.argsOk [(0, 8), (8, 8), (0x10, 4), (0x14, 4)] = true) (hlen : c.dlen = 0) (hn : Names c s i x)
    (hidle : x.idle = false) : sessionRebind c s = .fail .sessionBusy := by
  simp [sessionRebind, hargs, hlen, onSession_named hn, hidle]

end CloseParkRebind

/-- Settles O6: each body runs on the session that the command names (`onSession_named`), and refuses where its `need` fails. -/
theorem sessionCloseParkRebind : Obligations.SessionCloseParkRebind := by
  unfold Obligations.SessionCloseParkRebind
  refine ⟨?close, ?unnamed, ?corrupt, ?park, ?notDeeper, ?busy, ?rebind⟩
  case close =>
    intro c i x s ha hargs hlen hn u v
    rw [exec_sessionClose, hostCmd_done ha ((sessionClose_wf hargs hlen).trans (onSession_named hn))]
  case unnamed =>
    intro c st s ha hargs hlen hn
    rw [exec_sessionClose, hostCmd_fail ha ((sessionClose_wf hargs hlen).trans (onSession_unnamed hn))]
  case corrupt =>
    intro c i x s ha hargs hlen hn hbad
    rw [exec_sessionClose, hostCmd_done ha ((sessionClose_wf hargs hlen).trans (onSession_corrupt hn hbad))]
  case park =>
    intro c i x s ha hargs hlen hn hidle hparks hrung hvalid hdeeper u
    rw [exec_sessionPark, hostCmd_done ha (r := { seq := seqOf u i }) (t := u)]
    simp [sessionPark_named hargs hlen hrung hn, hidle, hparks, hvalid, hdeeper, doneAt, u]
  case notDeeper =>
    intro c i x s ha hargs hlen hn hidle hparks hrung hvalid hdeeper
    rw [exec_sessionPark, hostCmd_fail ha]
    simp [sessionPark_named hargs hlen hrung hn, hidle, hparks, hvalid, Nat.not_lt.2 hdeeper]
  case busy =>
    intro c i x s hp hr hargs hlen hn hhealed hidle hrung
    have hargs' : c.argsOk [(0, 8), (8, 8), (0x10, 4), (0x14, 4)] = true := argsOk_mono hargs (by simp; omega)
    rw [exec_sessionPark, exec_sessionRebind, hostCmd_fail hr (sessionRebind_busy hargs' hlen hn hidle), hostCmd_fail hp (st := .sessionBusy)]
    · exact ⟨rfl, rfl⟩
    · simp [sessionPark_named hargs hlen hrung hn, hhealed]
  case rebind =>
    intro c i ver x m s ha hargs hlen hn hidle hm hver hrank u v
    rw [exec_sessionRebind, hostCmd_done ha (r := { seq := seqOf v i }) (t := v)]
    simp [sessionRebind, hargs, hlen, onSession_named hn, hidle, hm, hver, rank_fits hrank, doneAt, u, v]

end Sys2Proof.Machine

/-!
SESSION_SET, SESSION_READ and HISTORY_READ (02 R42, 16 R525, R529).
-/
namespace Sys2Proof.Machine

open Sys2Proof

theorem exec_sessionSet (c : Cmd) (s : State) : exec (.sessionSet c) s = .next (hostCmd 0x0105 c (sessionSet c) s) := rfl
theorem exec_sessionRead (c : Cmd) (s : State) : exec (.sessionRead c) s = .next (hostCmd 0x0106 c (sessionRead c) s) := rfl
theorem exec_historyRead (c : Cmd) (s : State) : exec (.historyRead c) s = .next (hostCmd 0x0107 c (historyRead c) s) := rfl

/-- A command of a session without an open capsule leaves no record (14 R461). -/
theorem capCommand_of_no_capsule {h op : Nat} {c : Cmd} {s : State} (hno : openCapsule s h = none) : capCommand h op c s = s := by
  simp only [capCommand, hno]

section Reads

variable {c : Cmd} {s : State} {i : Nat} {x : Session}

/-- SESSION_READ of a named session answers its descriptor. -/
theorem sessionRead_named (hargs : c.argsOk [(0, 8)] = true) (hlen : 512 ≤ c.dlen) (hn : Names c s i x) :
    sessionRead c s = .done (capCommand x.handle 0x0106 c s) { result0 := x.history.length, result1 := x.kvLen, data := some (0, descBytes x) } := by
  simp [sessionRead, hargs, hlen, onSession_named hn]

/-- HISTORY_READ of a named session: the range first, then the tags of what it reads. -/
theorem historyRead_named (hargs : c.argsOk [(0, 8), (8, 8), (0x10, 4)] = true) (hlen : 4 * c.arg 0x10 4 ≤ c.dlen) (hn : Names c s i x) :
    historyRead c s = need (decide (c.arg 8 8 + c.arg 0x10 4 ≤ x.history.length)) .invalidField
      (objectsRead i (historyBad s i x (c.arg 8 8) (c.arg 0x10 4)) s (.done (capCommand x.handle 0x0107 c s)
        { result0 := x.history.length
          data := if c.arg 0x10 4 = 0 then none else some (0, (((x.history.drop (c.arg 8 8)).take (c.arg 0x10 4)).map (leBytes 4)).flatten) })) := by
  simp [historyRead, hargs, hlen, onSession_named hn]

end Reads

/-- Settles O7: the bodies of the three commands on a named session. -/
theorem sessionSetAndReads : Obligations.SessionSetAndReads := by
  unfold Obligations.SessionSetAndReads
  refine ⟨?set, ?read, ?readNoCapsule, ?history, ?beyond⟩
  case set =>
    intro c i x s ha hargs hlen hmask hrec hn hparams b mask u v w
    have htree : (!bit (c.arg 8 1) 0 || tailParamsOk (((s.model? x.part x.model).map (treeLimit s)).getD 32) (slice (c.buffer s) 0 96)) = true := by
      rcases hparams with h | h <;> simp [h]
    rw [exec_sessionSet, hostCmd_done ha (r := { seq := seqOf w i }) (t := w)]
    simp [sessionSet, hargs, hlen, hmask, hrec, onSession_named hn, htree, doneAt, w, v, u, mask, b]
  case read =>
    intro c i x s ha hargs hlen hn
    rw [exec_sessionRead, hostCmd_done ha (sessionRead_named hargs hlen hn)]
  case readNoCapsule =>
    intro c i x s ha hargs hlen hn hno
    rw [exec_sessionRead, hostCmd_done ha (sessionRead_named hargs hlen hn), capCommand_of_no_capsule hno]
  case history =>
    intro c i x s ha hargs hpos hlen hn hrange htags
    have hsome : c.arg 0x10 4 ≠ 0 := Nat.pos_iff_ne_zero.1 hpos
    rw [exec_historyRead, hostCmd_done ha]
    rw [historyRead_named hargs hlen hn, decide_eq_true hrange, need_true, objectsRead_intact htags, if_neg hsome]
  case beyond =>
    intro c i x s ha hargs hlen hn hrange
    rw [exec_historyRead, hostCmd_fail ha]
    rw [historyRead_named hargs hlen hn, decide_eq_false (Nat.not_le.2 hrange), need_false]

end Sys2Proof.Machine

/-!
Model and tail bindings and adapters: how they register and leave (02 R71-R74, 05 R144-R149, 06 R181-R184).
-/
namespace Sys2Proof.Machine

open Sys2Proof

theorem exec_modelBind (c : Cmd) (s : State) : exec (.modelBind c) s = .next (hostCmd 0x0201 c (modelBind c) s) := rfl
theorem exec_modelUnbind (c : Cmd) (s : State) : exec (.modelUnbind c) s = .next (hostCmd 0x0202 c (modelUnbind c) s) := rfl
theorem exec_tailBind (c : Cmd) (s : State) : exec (.tailBind c) s = .next (hostCmd 0x0203 c (tailBind c) s) := rfl
theorem exec_tailUnbind (c : Cmd) (s : State) : exec (.tailUnbind c) s = .next (hostCmd 0x0204 c (tailUnbind c) s) := rfl
theorem exec_adapterLoad (c : Cmd) (s : State) : exec (.adapterLoad c) s = .next (hostCmd 0x0205 c (adapterLoad c) s) := rfl
theorem exec_adapterRetire (c : Cmd) (s : State) : exec (.adapterRetire c) s = .next (hostCmd 0x0206 c (adapterRetire c) s) := rfl

section Unbind

variable {c : Cmd} {s : State}

/-- MODEL_UNBIND of a binding that is not registered. -/
theorem modelUnbind_unknown (hargs : c.argsOk [(0, 8)] = true) (hlen : c.dlen = 0) (hno : s.model? c.part (c.arg 0 8) = none) :
    modelUnbind c s = .fail .noBinding := by
  simp [modelUnbind, hargs, hlen, hno]

/-- MODEL_UNBIND of a registered binding removes it unless a session or a wheel uses it (02 R71). -/
theorem modelUnbind_known (hargs : c.argsOk [(0, 8)] = true) (hlen : c.dlen = 0) (hm : (s.model? c.part (c.arg 0 8)).isSome = true) :
    modelUnbind c s = need (!(s.ssq.sessions.any fun x => x.2.part == c.part && x.2.model == c.arg 0 8) &&
        !(s.ssq.wheels.any fun w => w.2.part == c.part && w.2.model == c.arg 0 8)) .bindingInUse
      (.done (pmeDropBinding c.part (c.arg 0 8)
        { s with ssq := { s.ssq with models := s.ssq.models.filter fun m => !(m.part == c.part && m.id == c.arg 0 8) } }) {}) := by
  simp only [modelUnbind, hargs, hlen, hm, beq_self_eq_true, Bool.and_true, need_true]

/-- TAIL_UNBIND of a binding that is not registered. -/
theorem tailUnbind_unknown (hargs : c.argsOk [(0, 8)] = true) (hlen : c.dlen = 0) (hno : s.tail? c.part (c.arg 0 8) = none) :
    tailUnbind c s = .fail .noBinding := by
  simp [tailUnbind, hargs, hlen, hno]

end Unbind

section Load

variable {c : Cmd} {s : State} {m : Model}

/-- The version that ADAPTER_LOAD brings may be added: it is not 0, and above every other of its id, or in REPLAY not yet loaded (02 R73). -/
abbrev versionNew (c : Cmd) (s : State) : Bool :=
  c.arg 0x0C 4 != 0 && (if s.pstate c.part = psReplay then (versionsOf s c.part (c.arg 8 4)).all (fun a => a.ver != c.arg 0x0C 4)
    else (versionsOf s c.part (c.arg 8 4)).all (fun a => decide (a.ver < c.arg 0x0C 4)))

/-- The version that ADAPTER_LOAD adds, of a rank. -/
abbrev loadedVersion (c : Cmd) (rank : Nat) (s : State) : Adapter :=
  { part := c.part, id := c.arg 8 4, ver := c.arg 0x0C 4, state := .live, binding := c.arg 0 8, rank := rank, image := c.buffer s }

/-- ADAPTER_LOAD for a registered binding: its version first, then a free slot, then a whole number of ranks. -/
theorem adapterLoad_bound (hargs : c.argsOk [(0, 8), (8, 4), (0x0C, 4)] = true) (hid : c.arg 8 4 ≠ 0) (hm : s.model? c.part (c.arg 0 8) = some m) :
    adapterLoad c s = need (versionNew c s) .adapterVersion
      (need (decide ((s.ssq.adapters.filter fun a => a.part == c.part && a.state != .freed).length < 1024)) .noAdapterSlot
      (need (c.dlen == c.dlen / max 1 (m.layers * m.adapterBytes 1) * (m.layers * m.adapterBytes 1) &&
          decide (1 ≤ c.dlen / max 1 (m.layers * m.adapterBytes 1) ∧ c.dlen / max 1 (m.layers * m.adapterBytes 1) ≤ 256)) .invalidField
      (.done { s with ssq := { s.ssq with adapters := s.ssq.adapters ++ [loadedVersion c (c.dlen / max 1 (m.layers * m.adapterBytes 1)) s] } }
        { result0 := c.dlen / max 1 (m.layers * m.adapterBytes 1) }))) := by
  have hid' : (c.arg 8 4 != 0) = true := by simpa using hid
  simp only [adapterLoad, hargs, hid', Bool.and_true, need_true, hm, versionNew]
  split <;> rfl

end Load

/-- Settles O10: each command's body at the case, its checks in the rules' order. -/
theorem bindingsAndAdapters : Obligations.BindingsAndAdapters := by
  unfold Obligations.BindingsAndAdapters
  refine ⟨?again, ?model, ?modelFails, ?unbind, ?inUse, ?tail, ?tailFails, ?tailUnbind, ?unknown, ?load, ?oldVersion, ?retire, ?freed⟩
  case again =>
    intro c m s ha hargs hm
    rw [exec_modelBind, hostCmd_done ha]
    simp [modelBind, hargs, hm]
  case model =>
    intro c m s s₁ ha hargs hnew hready hok
    rw [exec_modelBind, hostCmd_done ha]
    simp [modelBind, hargs, hnew, hready, hok]
  case modelFails =>
    intro c st s s₁ ha hargs hnew hready hbad
    rw [exec_modelBind, hostCmd_done ha]
    simp [modelBind, hargs, hnew, hready, hbad]
  case unbind =>
    intro c s ha hargs hlen hm hsess hwheel
    rw [exec_modelUnbind, hostCmd_done ha]
    simp only [modelUnbind_known hargs hlen hm, hsess, hwheel, Bool.not_false, Bool.and_true, need_true]
  case inUse =>
    intro c s ha hargs hlen hm huse
    rw [exec_modelUnbind, hostCmd_fail ha]
    rw [modelUnbind_known hargs hlen hm]
    rcases huse with h | h <;> simp [h]
  case tail =>
    intro c t s s₁ ha hargs hnew hready hok
    rw [exec_tailBind, hostCmd_done ha]
    simp [tailBind, hargs, hnew, hready, hok]
  case tailFails =>
    intro c st s s₁ ha hargs hnew hready hbad
    rw [exec_tailBind, hostCmd_done ha]
    simp [tailBind, hargs, hnew, hready, hbad]
  case tailUnbind =>
    intro c s ha hargs hlen ht hfree
    rw [exec_tailUnbind, hostCmd_done ha]
    simp [tailUnbind, hargs, hlen, ht, hfree]
  case unknown =>
    intro c s hm ht hargs hlen hmodel htail
    rw [exec_modelUnbind, exec_tailUnbind, hostCmd_fail hm (modelUnbind_unknown hargs hlen hmodel), hostCmd_fail ht (tailUnbind_unknown hargs hlen htail)]
    exact ⟨rfl, rfl⟩
  case load =>
    intro c m r s ha hargs hid hm hver hnew hroom hr hpos hlen
    have hrank : c.dlen / max 1 (m.layers * m.adapterBytes 1) = r := by
      rw [hlen, max_eq_right hpos, Nat.mul_div_cancel _ hpos]
    have hv : versionNew c s = true := by simp only [versionNew, hnew, bne_iff_ne.2 hver, Bool.and_true]
    rw [exec_adapterLoad, hostCmd_done ha]
    rw [adapterLoad_bound hargs hid hm, hv, hrank, decide_eq_true hroom, decide_eq_true hr, ← hlen, beq_self_eq_true]
    rfl
  case oldVersion =>
    intro c m s ha hargs hid hm hold
    have hv : versionNew c s = false := by
      rcases hold with h | h
      · simp [versionNew, h]
      · simp only [versionNew, h, Bool.and_false]
    rw [exec_adapterLoad, hostCmd_fail ha]
    rw [adapterLoad_bound hargs hid hm, hv, need_false]
  case retire =>
    intro c s ha hargs hlen hlive
    rw [exec_adapterRetire, hostCmd_done ha]
    simp only [adapterRetire, hargs, hlen, beq_self_eq_true, Bool.and_true, need_true, hlive, if_true]
  case freed =>
    intro n id ver s hret hunused
    obtain ⟨a, hfind⟩ := Option.isSome_iff_exists.1 hret
    simp only [settleAdapter, hfind, hunused, Bool.false_eq_true, if_false]

end Sys2Proof.Machine

/-!
SESSION_OPEN (02 R40-R44, 16 R526): the descriptor that it writes, and what refuses it.
-/
namespace Sys2Proof.Machine

open Sys2Proof

theorem exec_sessionOpen (c : Cmd) (s : State) : exec (.sessionOpen c) s = .next (hostCmd 0x0101 c (sessionOpen c) s) := rfl

/-- The seed of a new session and the state in which it is written: the block's seed, or 32 free bytes for zeros (log 4). -/
abbrev openSeed (b : List Byte) (s : State) : List Byte × State :=
  if slice b 0 32 = zeros 32 then s.freshBytes 32 else (slice b 0 32, s)

/-- The times of a new session: those of the command, or the partition's defaults. -/
abbrev openTtl (c : Cmd) (s : State) : Nat := if c.arg 0x10 4 = 0 then s.getF (Reg.ssqPbTtlDefault c.part) else c.arg 0x10 4
abbrev openRetain (c : Cmd) (s : State) : Nat := if c.arg 0x14 4 = 0 then s.getF (Reg.ssqPbRetainDefault c.part) else c.arg 0x14 4

/-- The handle of a new session: its INDEX, its partition and the INCARNATION of its descriptor (02 R40). -/
abbrev openHandle (c : Cmd) (i : Nat) (s : State) : Nat := i + c.part * 2 ^ 22 + tgetD s.ssq.incarn i 1 * 2 ^ 26

/-- The session that SESSION_OPEN writes at descriptor `i`: the block `b` and its binding, and what it takes from the session that it forks. -/
def openedSession (c : Cmd) (b : List Byte) (m : Model) (ver i : Nat) (src : Option Session) (seed : List Byte) (s : State) : Session where
  handle := openHandle c i s
  part := c.part
  state := .opened
  record := bit (fieldAt b 0x100 1) 0
  relaxed := bit (fieldAt b 0x100 1) 1
  model := c.arg 0 8
  adapter := c.arg 8 4
  adapterVer := ver
  profileId := m.profileId
  contract := m.contract
  historyPtr := Config.sessionPtr (openHandle c i s) 0 * 512 % 2 ^ 64
  penaltyPtr := Config.sessionPtr (openHandle c i s) 2 * 512 % 2 ^ 64
  seed := seed
  expiryTick := s.tick + openTtl c s
  retainTick := s.tick + openRetain c s
  ttlTicks := openTtl c s
  retainTicks := openRetain c s
  tailParams := slice b 0x20 96
  hostCtx := slice b 0x80 128
  history := (src.map (·.history)).getD []
  kvLen := (src.map (·.kvLen)).getD 0
  drawCount := (src.map (·.drawCount)).getD 0
  prefillRequired := (src.map (·.prefillRequired)).getD false
  lostPage := (src.map (·.lostPage)).getD false
  map := (src.map fun y => y.map.filter fun e => !foldedRef e.2).getD []

/-- The device once a new session stands at descriptor `i`: its map placed, its capsule staged, its first event passed. -/
abbrev sessionOpened (c : Cmd) (i : Nat) (x : Session) (s : State) : State :=
  commitEvent i .opened .ok (capCommand x.handle 0x0101 c (stageCapsule x.handle c.part
    (placeMap i (putSession i x { s with sec := { s.sec with gens := tdel s.sec.gens i } }))))

/-- What a fork reads of the session that it names, and which of that fails its tag (13 R431). -/
abbrev forkBad (c : Cmd) (src : Option Session) (s : State) : List (Nat × Nat) :=
  (src.map fun y => objectsBad s 1 [descObject s (c.arg 0x18 8 % 2 ^ 22) y] ++
    historyBad s (c.arg 0x18 8 % 2 ^ 22) y 0 y.history.length).getD []

section Open

variable {c : Cmd} {m : Model} {ver : Nat} {src : Option Session} {s : State}
  (hblock : openOk c (c.buffer s) = true) (hm : s.model? c.part (c.arg 0 8) = some m)
  (htree : tpNodes (slice (c.buffer s) 0x20 96) ≤ treeLimit s m)
  (hver : adapterFor s c.part (c.arg 0 8) (c.arg 8 4) (c.arg 0x0C 4) = .inr ver)
  (hrank : c.arg 8 4 = 0 ∨ adapterRank s c.part (c.arg 8 4) ver ≤ m.rankMax)

include hblock in
/-- SESSION_OPEN for a binding that is not registered. -/
theorem sessionOpen_unbound (hno : s.model? c.part (c.arg 0 8) = none) : sessionOpen c s = .fail .noBinding := by
  simp [sessionOpen, hblock, hno]

include hblock hm htree hver hrank

/-- A fork that is refused refuses the opening. -/
theorem sessionOpen_fork_refused {st : Status} (hfork : forkSource c.part (c.arg 0x18 8) (c.arg 0 8) (c.arg 8 4) ver s = .inl st) :
    sessionOpen c s = .fail st := by
  simp [sessionOpen, hblock, hm, htree, hver, rank_fits hrank, hfork]

variable (hfork : forkSource c.part (c.arg 0x18 8) (c.arg 0 8) (c.arg 8 4) ver s = .inr src) (htags : forkBad c src s = [])

include hfork htags

/-- No descriptor of the partition is free. -/
theorem sessionOpen_full (hfull : freeIndex s c.part = none) : sessionOpen c s = .fail .noDescriptor := by
  simp only [sessionOpen, hblock, hm, decide_eq_true htree, hver, rank_fits hrank, hfork, objectsRead_intact htags, hfull, need_true]

/-- SESSION_OPEN at a free descriptor, with a reference on each page that it shares with the session that it forks. -/
theorem sessionOpen_free {i : Nat} {s₁ s₂ : State} {seed : List Byte} (hfree : freeIndex s c.part = some i)
    (hrefs : addRefs ((src.map (·.handles)).getD []) s = some s₁) (hseed : openSeed (c.buffer s) s₁ = (seed, s₂)) :
    sessionOpen c s = doneAt i (sessionOpened c i (openedSession c (c.buffer s) m ver i src seed s₂) s₂)
      { result0 := openHandle c i s₂, data := some (0, seed) } := by
  simp only [sessionOpen, hblock, hm, decide_eq_true htree, hver, rank_fits hrank, hfork, objectsRead_intact htags, hfree, hrefs, need_true, hseed]
  cases src <;> rfl

end Open

/-- Settles O5: the body answers the session of `openedSession`, whose fields are those of the block, the binding and the fork. -/
theorem sessionOpenWritesDescriptor : Obligations.SessionOpenWritesDescriptor := by
  unfold Obligations.SessionOpenWritesDescriptor
  refine ⟨?opens, ?unbound, ?forkRefused, ?full⟩
  case opens =>
    intro c m ver i src s s₁ ha hblock hm htree hver hrank hfork htags hfree hrefs
    rcases hseed : openSeed (c.buffer s) s₁ with ⟨seed, s₂⟩
    refine ⟨seed, s₂, openedSession c (c.buffer s) m ver i src seed s₂, hseed.symm, rfl, rfl, rfl, rfl, rfl, rfl, rfl, rfl, rfl, rfl, rfl, rfl, rfl,
      rfl, rfl, rfl, rfl, rfl, rfl, rfl, rfl, rfl, rfl, rfl, ?_⟩
    rw [exec_sessionOpen, hostCmd_done ha (sessionOpen_free hblock hm htree hver hrank hfork htags hfree hrefs hseed)]
    rfl
  case unbound =>
    intro c s ha hblock hno
    rw [exec_sessionOpen, hostCmd_fail ha (sessionOpen_unbound hblock hno)]
  case forkRefused =>
    intro c m ver st s ha hblock hm htree hver hrank hfork
    rw [exec_sessionOpen, hostCmd_fail ha (sessionOpen_fork_refused hblock hm htree hver hrank hfork)]
  case full =>
    intro c m ver src s ha hblock hm htree hver hrank hfork htags hfull
    rw [exec_sessionOpen, hostCmd_fail ha (sessionOpen_full hblock hm htree hver hrank hfork htags hfull)]

end Sys2Proof.Machine

/-!
The tail parameters that a session holds: a commit-point event and what goes with it (02 R59, 04 R142, 07 R234) leave them.
-/
namespace Sys2Proof.Machine

open Sys2Proof

theorem tget_tmod {α : Type} (t : Table α) (i : Nat) (f : α → α) : tget (tmod t i f) i = (tget t i).map f := by
  unfold tmod
  cases h : tget t i with
  | none => exact h
  | some v => exact tget_tset t i (f v)

theorem tget_tmod_ne {α : Type} (t : Table α) {i j : Nat} (f : α → α) (h : j ≠ i) : tget (tmod t i f) j = tget t j := by
  unfold tmod
  cases tget t i with
  | none => rfl
  | some v => exact tget_tset_ne t (f v) h

/-- Two changes of a session that agree on the session that stands there are one. -/
theorem modSession_congr {i : Nat} {f g : Session → Session} {s : State} (h : ∀ y, tget s.ssq.sessions i = some y → f y = g y) :
    modSession i f s = modSession i g s := by
  unfold modSession tmod
  cases hy : tget s.ssq.sessions i with
  | none => rfl
  | some y => simp only [h y hy]

/-- TAIL_PARAMS of the session at a descriptor. -/
abbrev paramsAt (s : State) (i : Nat) : Option (List Byte) := (tget s.ssq.sessions i).map (·.tailParams)

section ParamsAt

variable {s t : State} {i j : Nat}

theorem paramsAt_of_sessions (h : t.ssq.sessions = s.ssq.sessions) (i : Nat) : paramsAt t i = paramsAt s i := by
  rw [paramsAt, h]

/-- A frame that names no session keeps TAIL_PARAMS. -/
theorem Keep.paramsAt {k : Nat} (h : Keep k s t) (hk : k.testBit 17 = false) (i : Nat) : paramsAt t i = paramsAt s i :=
  paramsAt_of_sessions (h.sessions hk) i

theorem paramsAt_modSession {f : Session → Session} (hf : ∀ y, (f y).tailParams = y.tailParams) : paramsAt (modSession j f s) i = paramsAt s i := by
  by_cases hij : i = j
  · subst hij
    simp only [paramsAt, modSession_sessions, tget_tmod, Option.map_map]
    exact congrArg (fun g => Option.map g _) (funext hf)
  · simp only [paramsAt, modSession_sessions, tget_tmod_ne _ _ hij]

theorem paramsAt_putSession {z : Session} (h : paramsAt s j = some z.tailParams) : paramsAt (putSession j z s) i = paramsAt s i := by
  by_cases hij : i = j
  · subst hij
    rw [h]
    simp only [paramsAt, putSession_sessions, tget_tset, Option.map_some]
  · simp only [paramsAt, putSession_sessions, tget_tset_ne _ _ hij]

theorem paramsAt_ite {p : Prop} [Decidable p] {u v : State} (hu : paramsAt u i = paramsAt s i) (hv : paramsAt v i = paramsAt s i) :
    paramsAt (if p then u else v) i = paramsAt s i := by
  split
  · exact hu
  · exact hv

theorem paramsAt_foldl {α : Type} {f : State → α → State} (hf : ∀ u a, paramsAt (f u a) i = paramsAt u i) (l : List α) (s : State) :
    paramsAt (l.foldl f s) i = paramsAt s i :=
  List.foldlRecOn (motive := fun u => paramsAt u i = paramsAt s i) l f rfl fun u hu a _ => (hf u a).trans hu

theorem paramsAt_dropRefs (l : List Nat) (s : State) (i : Nat) : paramsAt (l.foldl (fun s h => dropRef h s) s) i = paramsAt s i :=
  paramsAt_foldl (fun u h => (dropRef_keep h u).paramsAt rfl i) l s

theorem paramsAt_addRefs (l : List Nat) (s : State) (i : Nat) : paramsAt (l.foldl (fun s h => (addRef h s).getD s) s) i = paramsAt s i := by
  refine paramsAt_foldl (fun u h => ?_) l s
  cases ha : addRef h u with
  | none => rfl
  | some v => exact (addRef_keep ha).paramsAt rfl i

theorem paramsAt_placeMap (s : State) (i j : Nat) : paramsAt (placeMap j s) i = paramsAt s i := by
  unfold placeMap
  split
  · rfl
  · rename_i x hx
    split
    · rfl
    · refine (paramsAt_foldl (fun u p => ?_) _ _).trans (paramsAt_putSession (by simp [paramsAt, hx]))
      split
      · exact paramsAt_modSession fun y => rfl
      · rfl

/-- Releasing a session's KV leaves its parameters (02 R44). -/
theorem paramsAt_releaseKv (s : State) (i j : Nat) : paramsAt (releaseKv j s) i = paramsAt s i := by
  unfold releaseKv
  split
  · rfl
  · rename_i x hx
    have hcold : ∀ k, paramsAt (if x.foldTier = 0 then s else releaseSlot x.foldTier x.coldAt.1 x.coldAt.2 s) k = paramsAt s k :=
      fun k => paramsAt_ite rfl ((releaseSlot_keep ..).paramsAt rfl k)
    refine ((retryRecovery_keep _ _).paramsAt rfl i).trans ((paramsAt_dropRefs _ _ i).trans ((paramsAt_foldl (fun u r => ?_) _ _).trans ?_))
    · have hslot := (releaseSlot_keep r.tier r.base r.slot4k u).paramsAt rfl i
      exact paramsAt_ite (((releaseSlot_keep ..).paramsAt rfl i).trans hslot) hslot
    · exact (paramsAt_putSession ((hcold j).trans (by simp [paramsAt, hx]))).trans (hcold i)

theorem paramsAt_dropKv (s : State) (i j : Nat) : paramsAt (dropKv j s) i = paramsAt s i := by
  rw [dropKv, paramsAt_modSession (by intro y; rfl), paramsAt_releaseKv]

/-- The repoints of the PME change a session's map only (07 R234). -/
theorem paramsAt_applyRepoints (s : State) (i j : Nat) : paramsAt (applyRepoints j s) i = paramsAt s i := by
  unfold applyRepoints
  split
  · rfl
  · refine (paramsAt_foldl (fun u r => ?_) _ _).trans ((modPme_keep _ _).paramsAt rfl i)
    split
    · rename_i c v x hcol hx
      have hv : ∀ k, paramsAt v k = paramsAt u k := (repointColumn_keep hcol).paramsAt rfl
      dsimp only
      split
      · refine (paramsAt_dropRefs _ _ i).trans ((paramsAt_placeMap _ i j).trans (((bump_keep _ _).paramsAt rfl i).trans ?_))
        refine (paramsAt_putSession ?_).trans ((paramsAt_addRefs _ _ i).trans (hv i))
        rw [paramsAt_addRefs, hv, paramsAt, hx]
        rfl
      · exact hv i
    · rfl

/-- A commit-point event leaves TAIL_PARAMS (02 R59). -/
theorem paramsAt_commitEvent (s : State) (i j : Nat) (k : Evt) (st : Status) : paramsAt (commitEvent j k st s) i = paramsAt s i := by
  unfold commitEvent
  split
  · rfl
  · rename_i x hx
    have hkv : paramsAt (if x.lostPage && x.idle then dropKv j s else s) i = paramsAt s i := paramsAt_ite (paramsAt_dropKv s i j) rfl
    have hseq : ∀ u, paramsAt (modSession j (fun (y : Session) => { y with commitSeq := y.commitSeq + 1 }) u) i = paramsAt u i :=
      fun _ => paramsAt_modSession fun _ => rfl
    refine ((capEvent_keep ..).paramsAt rfl i).trans (Eq.trans ?_ ((hseq _).trans ((paramsAt_applyRepoints _ i j).trans hkv)))
    exact paramsAt_ite ((takeGen_keepP _).paramsAt rfl i) rfl

end ParamsAt

end Sys2Proof.Machine

/-!
Turns and chains: TURN_SUBMIT and TURN_CANCEL (02 R46, R60, R63, 16 R527), SESSION_SHARD and CHAIN_EXTEND (05 R177, 16 R531).
-/
namespace Sys2Proof.Machine

open Sys2Proof

theorem exec_turnSubmit (c : Cmd) (s : State) : exec (.turnSubmit c) s = .next (hostCmd 0x0108 c (turnSubmit c) s) := rfl
theorem exec_turnCancel (c : Cmd) (s : State) : exec (.turnCancel c) s = .next (hostCmd 0x0109 c (turnCancel c) s) := rfl
theorem exec_sessionShard (c : Cmd) (s : State) : exec (.sessionShard c) s = .next (hostCmd 0x010A c (shard false 0x010A c) s) := rfl
theorem exec_chainExtend (c : Cmd) (s : State) : exec (.chainExtend c) s = .next (hostCmd 0x010B c (shard true 0x010B c) s) := rfl

/-- The session that a handle names stands at its descriptor. -/
theorem session_of_named {n h i : Nat} {x : Session} {s : State} (hn : namedSession n h s = .inr (i, x)) : tget s.ssq.sessions i = some x := by
  unfold namedSession at hn
  dsimp only at hn
  split at hn
  · cases hn
  · split at hn
    · cases hn
    · split at hn
      · rename_i y hy
        split at hn
        · cases hn; exact hy
        · cases hn
      · cases hn

-- TURN_SUBMIT

/-- The tokens that TURN_SUBMIT brings. -/
abbrev submitToks (c : Cmd) (s : State) : List Nat := (List.range (c.arg 0x0C 4)).map fun k => fieldAt (c.buffer s) (96 + 4 * k) 4

/-- The turn that TURN_SUBMIT queues with the parameters of the session. -/
abbrev submitTurn (c : Cmd) (i : Nat) (x : Session) : Turn :=
  { session := i, part := c.part, wheel := c.arg 8 2, state := .queued, cmd := c, maxNew := tpMaxNew x.tailParams, nodes := tpNodes x.tailParams }

/-- The state in which the Weir tests a submission: its tokens in the history, and no revive before it (02 R63). -/
abbrev submitProbe (c : Cmd) (i : Nat) (x : Session) (s : State) : State :=
  let p := putSession i { x with history := x.history ++ submitToks c s } s
  p.setHrc { p.hrc with revive := [] }

/-- The session once a submission has passed its commit point: its history grown, its turn pending. -/
abbrev submittedSession (c : Cmd) (i : Nat) (x : Session) (s : State) : State :=
  modSession i (fun (x : Session) => { x with history := x.history ++ submitToks c s, tailParams := x.tailParams, turnPending := true, foldDue := 0 })
    (commitEvent i .submitted .ok (capCommand x.handle 0x0108 c s))

/-- A turn enters at the end of the queue. -/
def enqueueTurn (t : Turn) (s : State) : State :=
  { s with ssq := { s.ssq with turns := s.ssq.turns.filter (·.state == .queued) ++ [t] ++ s.ssq.turns.filter (·.state != .queued) } }

/-- The device with a submission queued, before the Weir looks at it. -/
abbrev submitted (c : Cmd) (i : Nat) (x : Session) (s : State) : State :=
  holdCommand c (enqueueTurn { submitTurn c i x with submitSeq := seqOf (submittedSession c i x s) i } (submittedSession c i x s))

/-- The device once the Weir has looked at a submission to an empty queue (02 R64). -/
abbrev submitEvaluated (c : Cmd) (i : Nat) (x : Session) (s : State) : State :=
  if (queuedOf s c.part).isEmpty then weirEvaluate c.part (submitted c i x s) else submitted c i x s

/-- A session whose turn enters the queue has a queued turn. -/
theorem turnOf_enqueueTurn {t : Turn} (ht : t.state = .queued) (s : State) : (turnOf (enqueueTurn t s) t.session).map (·.state) = some .queued := by
  rw [turnOf, enqueueTurn, List.append_assoc, List.find?_append]
  cases hfind : (s.ssq.turns.filter (·.state == .queued)).find? (·.session == t.session) with
  | some a =>
    have hqueued : a.state = .queued := by simpa using (List.mem_filter.1 (List.mem_of_find?_eq_some hfind)).2
    simp [hqueued]
  | none => simp [ht]

theorem turnOf_of_turns {s t : State} (h : t.ssq.turns = s.ssq.turns) (i : Nat) : turnOf t i = turnOf s i := by rw [turnOf, h, turnOf]

section Submit

variable {c : Cmd} {i : Nat} {x : Session} {s : State}

theorem turnOf_submitted : (turnOf (submitted c i x s) i).map (·.state) = some .queued := by
  rw [turnOf_of_turns ((holdCommand_keep c _).turns rfl)]
  exact turnOf_enqueueTurn (t := { submitTurn c i x with submitSeq := seqOf (submittedSession c i x s) i }) rfl _

/-- The parameters that a submission with a block of zeros keeps are those that stand when its event has passed. -/
theorem submit_keeps_params (hx : tget s.ssq.sessions i = some x) :
    modSession i (fun (y : Session) => { y with history := y.history ++ submitToks c s, tailParams := x.tailParams, turnPending := true, foldDue := 0 })
      (commitEvent i .submitted .ok (capCommand x.handle 0x0108 c s)) = submittedSession c i x s := by
  refine modSession_congr fun y hy => ?_
  have hparams : some y.tailParams = some x.tailParams := by
    have h := (paramsAt_commitEvent (capCommand x.handle 0x0108 c s) i i .submitted .ok).trans ((capCommand_keep x.handle 0x0108 c s).paramsAt rfl i)
    simpa only [paramsAt, hy, hx, Option.map_some] using h
  rw [Option.some.inj hparams]

variable (hargs : c.argsOk [(0, 8), (8, 2), (0x0A, 1), (0x0C, 4)] = true) (hlen : c.dlen = 96 + 4 * c.arg 0x0C 4) (hflag : c.arg 0x0A 1 ≤ 1)
  (hkeep : slice (c.buffer s) 0 96 = zeros 96) (hn : Names c s i x)

include hargs hlen hflag hkeep hn

/-- A submission that a check refuses. -/
theorem turnSubmit_refused {st : Status}
    (hcheck : submitCheck c s x.healed x.tailParams (x.history.length + c.arg 0x0C 4) (c.arg 0x0A 1 == 1) = some st) : turnSubmit c s = .fail st := by
  simp [turnSubmit, hargs, hlen, hflag, hkeep, onSession_named hn, hcheck]

/-- A submission that passes its checks and the Weir's tests: it runs on, or is queued where the queue has room (02 R63, R64). -/
theorem turnSubmit_taken
    (hcheck : submitCheck c s x.healed x.tailParams (x.history.length + c.arg 0x0C 4) (c.arg 0x0A 1 == 1) = none)
    (hweir : weirTest (submitProbe c i x s) [] [] (submitTurn c i x) = none) :
    turnSubmit c s =
      if (turnOf (submitEvaluated c i x s) i).map (·.state) ≠ some .queued then .wait (submitEvaluated c i x s)
      else if s.getF (Reg.ssqPbWeirQueueDepth c.part) ≤ (queuedOf s c.part).length then .done (s.bump Ctr.ssqTurnsRefused) { status := .weirQueueFull }
      else .wait ((submitEvaluated c i x s).bump Ctr.ssqTurnsQueued) := by
  have hsame : (fieldAt x.tailParams 0x18 4 != fieldAt x.tailParams 0x18 4) = false := by simp
  simp only [turnSubmit, hargs, decide_eq_true hflag, hlen, beq_self_eq_true, decide_true, Bool.true_or, Bool.and_true, need_true, onSession_named hn,
    hkeep, if_true, hcheck, hweir, hsame, Bool.false_eq_true, if_false, submit_keeps_params (c := c) (session_of_named hn.1)]
  rfl

end Submit

-- Chains

/-- The neighbours of a member of a chain, by their positions (05 R177). -/
abbrev chainNear (c : Cmd) : List Nat :=
  (if c.arg 9 1 = 0 then [] else [c.arg 9 1 - 1]) ++ (if c.arg 9 1 + 1 < c.arg 8 1 then [c.arg 9 1 + 1] else [])

/-- A connection to each neighbour is OPEN. -/
abbrev nearOpen (c : Cmd) (s : State) : Bool :=
  (chainNear c).all fun k => openTo s c.part ((chainMembers (c.buffer s) (c.arg 8 1)).getD k (0, 0)).1

/-- The chain that a command's block configures, with its SYSTEM region. -/
abbrev blockChain (c : Cmd) (region : Option Nat) (s : State) : Chain :=
  { members := chainMembers (c.buffer s) (c.arg 8 1), own := c.arg 9 1, region := region }

/-- A chain of two or more members gives each of them a neighbour. -/
theorem chainNear_ne_nil {c : Cmd} (h : 2 ≤ c.arg 8 1) : chainNear c ≠ [] := by
  by_cases hown : c.arg 9 1 = 0
  · have hnext : c.arg 9 1 + 1 < c.arg 8 1 := by omega
    simp [chainNear, hnext]
  · simp [chainNear, hown]

section Shard

variable {c : Cmd} {i op : Nat} {x : Session} {s : State}
  (hargs : c.argsOk [(0, 8), (8, 1), (9, 1)] = true) (hlen : c.dlen = 8 * c.arg 8 1) (hm : 2 ≤ c.arg 8 1 ∧ c.arg 8 1 ≤ 64) (hn : Names c s i x)
  (hopen : x.state = .opened) (hhist : x.history = []) (hfirst : ((chainMembers (c.buffer s) (c.arg 8 1)).head?).map (·.2) = some 0)
  (hasc : ascends ((chainMembers (c.buffer s) (c.arg 8 1)).map (·.2)) = true) (hown : c.arg 9 1 < c.arg 8 1)
  (hnode : ((chainMembers (c.buffer s) (c.arg 8 1))[c.arg 9 1]?).map (·.1) = some s.node)

include hargs hlen hm hn hopen hhist hfirst hasc hown hnode

/-- SESSION_SHARD without an OPEN connection to a neighbour. -/
theorem shard_unconnected (hnear : nearOpen c s = false) : shard false op c s = .fail .noConnection := by
  simp only [shard, hargs, decide_eq_true hm, hlen, beq_self_eq_true, Bool.and_true, need_true, onSession_named hn, hopen, hhist, List.isEmpty_nil,
    hfirst, hasc, decide_eq_true hown, hnode, Bool.not_false, Bool.true_or, hnear, need_false]

variable (hnear : nearOpen c s = true) {region : Option Nat} {s₁ : State} (hregion : chainRegion x (c.arg 9 1) s = some (region, s₁))

include hnear hregion

/-- SESSION_SHARD sets the chain; a member that is not the last keeps no capsule (14 R461). -/
theorem shard_configures : shard false op c s = doneAt i (modSession i (fun (x : Session) => { x with chain := some (blockChain c region s) })
    (if c.arg 9 1 + 1 < c.arg 8 1 then dropCapsule x.handle (commitEvent i .sharded .ok (capCommand x.handle op c s₁))
      else commitEvent i .sharded .ok (capCommand x.handle op c s₁))) {} := by
  simp only [shard, hargs, decide_eq_true hm, hlen, beq_self_eq_true, Bool.and_true, need_true, onSession_named hn, hopen, hhist, List.isEmpty_nil,
    hfirst, hasc, decide_eq_true hown, hnode, Bool.not_false, Bool.true_or, hnear, hregion, Bool.true_and, decide_eq_true_eq, Bool.false_eq_true, if_false]

/-- CHAIN_EXTEND of a chain whose members the block begins with sets the chain of the next turn. -/
theorem shard_extends {k : Chain} (hk : x.chain = some k) (hmembers : k.members = (chainMembers (c.buffer s) (c.arg 8 1)).take (c.arg 8 1 - 1))
    (hpos : k.own = c.arg 9 1) : shard true op c s =
      doneAt i (modSession i (fun (x : Session) => { x with chainNext := some (blockChain c region s) })
        (commitEvent i .extended .ok (capCommand x.handle op c s₁))) {} := by
  simp only [shard, hargs, decide_eq_true hm, hlen, beq_self_eq_true, Bool.and_true, need_true, onSession_named hn, hopen, hhist, List.isEmpty_nil,
    hfirst, hasc, decide_eq_true hown, hnode, Bool.not_true, Bool.false_or, hk, hmembers, hpos, hnear, hregion, Bool.false_and, Bool.false_eq_true,
    if_false, if_true]

end Shard

/-- A chain of two or more members is not connected where the device has no connection. -/
theorem nearOpen_of_no_conns {c : Cmd} {s : State} (hm : 2 ≤ c.arg 8 1) (hno : s.xfe.conns = []) : nearOpen c s = false := by
  obtain ⟨k, hk⟩ := List.exists_mem_of_ne_nil _ (chainNear_ne_nil hm)
  exact List.all_eq_false.2 ⟨k, hk, by simp [openTo, hno]⟩

/-- Settles O8: the bodies of the commands; a submission to a queue that holds turns is queued behind them (`turnOf_submitted`), and is refused
where the queue is full. -/
theorem turnsAndChains : Obligations.TurnsAndChains := by
  unfold Obligations.TurnsAndChains
  refine ⟨?submit, ?busy, ?full, ?cancel, ?noTurn, ?shard, ?extend, ?unconnected⟩
  case submit =>
    intro c i x s ha hargs hlen hflag hkeep hn hcheck hweir hroom toks u t w v
    have htaken := turnSubmit_taken hargs hlen hflag hkeep hn hcheck hweir
    have hv : submitEvaluated c i x s = v := rfl
    rw [hv, if_neg (Nat.not_le.2 hroom)] at htaken
    rw [exec_turnSubmit]
    by_cases hqueued : (turnOf v i).map (·.state) = some .queued
    · rw [if_pos hqueued, hostCmd_wait ha (htaken.trans (if_neg (not_not.2 hqueued)))]
    · rw [if_neg hqueued, hostCmd_wait ha (htaken.trans (if_pos hqueued))]
  case busy =>
    intro c i x s ha hargs hlen hflag hkeep hn hbusy
    rw [exec_turnSubmit, hostCmd_fail ha (turnSubmit_refused hargs hlen hflag hkeep hn (st := .sessionBusy) (by simp [submitCheck, hbusy]))]
  case full =>
    intro c i x s ha hargs hlen hflag hkeep hn hcheck hweir hsome hfull
    have hbehind : submitEvaluated c i x s = submitted c i x s := by simp [submitEvaluated, hsome]
    have htaken := turnSubmit_taken hargs hlen hflag hkeep hn hcheck hweir
    rw [hbehind, if_neg (not_not.2 turnOf_submitted), if_pos hfull] at htaken
    rw [exec_turnSubmit, hostCmd_done ha htaken]
  case cancel =>
    intro c i x t s ha hargs hlen hn ht u
    rw [exec_turnCancel, hostCmd_done ha (r := { seq := seqOf u i }) (t := u)]
    simp [turnCancel, hargs, hlen, onSession_named hn, ht, doneAt, u]
  case noTurn =>
    intro c i x s ha hargs hlen hn hno
    rw [exec_turnCancel, hostCmd_fail ha]
    simp [turnCancel, hargs, hlen, onSession_named hn, hno]
  case shard =>
    intro c i x region s s₁ ha hargs hlen hm hn hopen hhist hfirst hasc hown hnode hnear hregion v u
    rw [exec_sessionShard, hostCmd_done ha (shard_configures hargs hlen hm hn hopen hhist hfirst hasc hown hnode hnear hregion)]
  case extend =>
    intro c i x k region s s₁ ha hargs hlen hm hn hopen hhist hk hmembers hpos hfirst hasc hown hnode hnear hregion u
    rw [exec_chainExtend, hostCmd_done ha (shard_extends hargs hlen hm hn hopen hhist hfirst hasc hown hnode hnear hregion hk hmembers hpos)]
  case unconnected =>
    intro c i x s ha hargs hlen hm hn hopen hhist hfirst hasc hown hnode hno
    rw [exec_sessionShard, hostCmd_fail ha (shard_unconnected hargs hlen hm hn hopen hhist hfirst hasc hown hnode (nearOpen_of_no_conns hm.1 hno))]

end Sys2Proof.Machine

/-!
The tick (02 R56, R57) and what a reset leaves (13 R413, 15 R495, R496, R499).
-/
namespace Sys2Proof.Machine

open Sys2Proof

-- The registers that an event leaves

/-- A host ring moves its head and its count of dropped records, and no other field. -/
theorem getF_hostRing {r : EvRec} {part : Nat} {f : Fld} (hpart : r.part = part) (hhead : (ringHead part).key ≠ f.key)
    (hdrop : (ringDropped part).key ≠ f.key) (s : State) : (hostRing r s).getF f = s.getF f := by
  subst hpart
  unfold hostRing
  dsimp only
  split
  · rfl
  · split
    · exact State.getF_setF_other s _ f _ hdrop
    · exact (State.getF_regs ((signal_keep _ _ _).regs rfl) f).trans (State.getF_setF_other s _ f _ hhead)

/-- An event moves its ring and the pending bits of its page, and no other field (14 R456, R457). -/
theorem getF_logFull {e : Ev} {slot inst part sev cseq : Nat} {detail : List Nat} {f : Fld} (hhead : (ringHead part).key ≠ f.key)
    (hdrop : (ringDropped part).key ≠ f.key) (hpend : (Reg.blkEvPendPend slot).key ≠ f.key) (s : State) :
    (logFull e slot inst part sev cseq detail s).getF f = s.getF f := by
  unfold logFull
  extract_lets r frc s₁ s₂ s₃
  have htrace : s₃.regs = s.regs := by
    unfold s₃
    split
    · exact (traceRecord_keep _ _).regs rfl
    · rfl
  clear_value s₃
  split
  · exact (State.getF_setF_other s₃ _ f _ hpend).trans (State.getF_regs htrace f)
  · exact (getF_hostRing (part := part) rfl hhead hdrop s₃).trans (State.getF_regs htrace f)

/-- A device-level event of the SSQ leaves the tick. -/
theorem tick_logEv_ssq (e : Ev) (detail : List Nat) (s : State) : (logEv e pSsq 0xFF detail s).tick = s.tick :=
  getF_logFull (by decide) (by decide) (by decide) s

-- TICK_WRITE

theorem exec_tickWrite (via value : Nat) (s : State) : exec (.tickWrite via value) s = .next (countIo via (tickWrite via value s)) := rfl

section Tick

variable {s : State} {value : Nat}

/-- A write of function 0 that takes effect: back, or forward with or without the event of a jump. -/
theorem tickWrite_operator (hs : s.fnShown 0 = true) (hoff : s.mgc.off = false) (hv : value < 2 ^ 64) :
    tickWrite 0 value s = if value < s.tick then logEv .ssqTickBackward pSsq 0xFF [s.tick, value] s
      else if s.getF Reg.ssqTickCtrlMaxJump < value - s.tick then
        logEv .ssqTickJump pSsq 0xFF [s.tick, value] (s.setF Reg.ssqTickValue value)
      else s.setF Reg.ssqTickValue value := by
  simp only [tickWrite, operator_zero hs, hoff, Nat.not_le.2 hv, Bool.true_eq_false, Bool.false_eq_true, or_self, if_false]

/-- A write of another function, or without power, is discarded. -/
theorem tickWrite_discarded {via : Nat} (h : via ≠ 0 ∨ s.mgc.off = true) : tickWrite via value s = s :=
  if_pos (h.elim (fun hvia => .inl (not_operator_of_ne hvia s)) fun hoff => .inr (.inl hoff))

/-- The tick reads back what was written. -/
theorem tick_setF (hw : Table.wf s.regs = true) (hv : value < 2 ^ 64) : (s.setF Reg.ssqTickValue value).tick = value :=
  (State.getF_setF_self s Reg.ssqTickValue value hw).trans (Nat.mod_eq_of_lt hv)

end Tick

/-- Settles O53: the four cases of `tickWrite_operator`; an event leaves the tick (`tick_logEv_ssq`). -/
theorem tickWrites : Obligations.TickWrites := by
  unfold Obligations.TickWrites
  refine ⟨?back, ?equal, ?jump, ?forward, ?other⟩
  case back =>
    intro value s hs hoff hback hv
    rw [exec_tickWrite, tickWrite_operator hs hoff hv, if_pos hback]
    exact ⟨rfl, tick_logEv_ssq ..⟩
  case equal =>
    intro s hs hv hw
    cases hoff : s.mgc.off with
    | true => exact ⟨s, by rw [exec_tickWrite, tickWrite_discarded (.inr hoff)], rfl, fun _ _ => rfl, rfl⟩
    | false =>
      refine ⟨s.setF Reg.ssqTickValue s.tick, ?_, tick_setF hw hv, fun f hf => State.getF_setF_other s _ f _ (Ne.symm hf), rfl⟩
      rw [exec_tickWrite, tickWrite_operator hs hoff hv, if_neg (Nat.lt_irrefl _), if_neg (by simp)]
  case jump =>
    intro value s hs hoff hle hv hjump hw
    refine ⟨s.setF Reg.ssqTickValue value, ?_, tick_setF hw hv, rfl, (tick_logEv_ssq ..).trans (tick_setF hw hv)⟩
    rw [exec_tickWrite, tickWrite_operator hs hoff hv, if_neg (Nat.not_lt.2 hle), if_pos hjump]
  case forward =>
    intro value s hs hoff hle hv hjump hw
    refine ⟨s.setF Reg.ssqTickValue value, ?_, tick_setF hw hv, rfl⟩
    rw [exec_tickWrite, tickWrite_operator hs hoff hv, if_neg (Nat.not_lt.2 hle), if_neg (Nat.not_lt.2 hjump)]
  case other =>
    intro via value s hvia
    rw [exec_tickWrite, tickWrite_discarded (.inl hvia)]

-- Reset

/-- After a reset every field reads its reset value. -/
theorem reset_getF (f : Fld) : State.reset.getF f = f.rst := rfl

/-- After a reset every byte of every tier reads 0 (log 1). -/
theorem reset_memGet (k a : Nat) : memGet (State.reset.tier k) a = 0 := by
  unfold State.tier
  split <;> rfl

/-- Settles O56: State.reset lists nothing, so that each table is empty and each field reads its reset value. -/
theorem resetState : Obligations.ResetState := by
  unfold Obligations.ResetState
  refine ⟨⟨rfl, rfl, rfl, ⟨rfl, rfl, rfl, rfl⟩, Nat.le_refl _⟩, ⟨rfl, rfl, rfl, rfl, rfl, rfl, rfl, rfl⟩, ?parts,
    ⟨rfl, rfl, rfl, rfl, rfl, rfl, rfl, rfl, rfl, rfl⟩, reset_memGet, fun _ => rfl, ?slu⟩
  case parts =>
    intro n _
    exact ⟨rfl, rfl, rfl⟩
  case slu =>
    intro i _
    exact ⟨rfl, rfl⟩

end Sys2Proof.Machine

/-!
The wheels: what a wheel's record holds after a change, the pulses of BEAT_IN (02 R54), and the stall that goes back to the committed
step (02 R51, R55).
-/
namespace Sys2Proof.Machine

open Sys2Proof

-- A wheel's record

theorem wheel?_modWheel (w : Nat) (f : Wheel → Wheel) (s : State) : (modWheel w f s).wheel? w = (s.wheel? w).map f := tget_tmod ..

/-- A frame that names no wheel keeps a wheel's record. -/
theorem Keep.wheel? {k : Nat} {s t : State} (h : Keep k s t) (hk : k.testBit 23 = false) (w : Nat) : t.wheel? w = s.wheel? w :=
  congrArg (tget · w) (h.wheels hk)

theorem layers_of_model {s : State} {part id : Nat} {m : Model} (h : s.model? part id = some m) : ((s.model? part id).map (·.layers)).getD 1 = m.layers := by
  rw [h]
  rfl

-- BEAT_IN

/-- The anticipated SP a layer further, in the next step after the last layer (02 R50). -/
def Wheel.nextBeat (n : Nat) (x : Wheel) : Wheel :=
  if x.antLayer + 1 < n then { x with antLayer := x.antLayer + 1 } else { x with antStep := (x.antStep + 1) % 2 ^ 32, antLayer := 0 }

theorem beatWheel_eq {w : Nat} {x : Wheel} {m : Model} {s : State} (hm : s.model? x.part x.model = some m) :
    beatWheel w x s =
      if 1 < beatAhead m.layers (x.nextBeat m.layers) then
        beatResync w (x.nextBeat m.layers) (modWheel w (fun z => { z with antStep := (x.nextBeat m.layers).antStep, antLayer := (x.nextBeat m.layers).antLayer }) s)
      else issueAhead w (x.nextBeat m.layers).antStep (x.nextBeat m.layers).antLayer
        (modWheel w (fun z => { z with antStep := (x.nextBeat m.layers).antStep, antLayer := (x.nextBeat m.layers).antLayer }) s) := by
  unfold beatWheel
  rw [layers_of_model hm]
  rfl

section BeatIn

variable {w : Nat} {x : Wheel} {s : State}

/-- What BEAT_IN does on a device that runs. -/
def heardBeat (s : State) : State :=
  if s.flag (Reg.mgcPinMasked 1) then s
  else s.ssq.wheels.foldl (fun s w => if s.flag (Reg.ssqWheelBeatEn w.1) then beatWheel w.1 w.2 s else s) s

theorem exec_beatIn (s : State) : exec .beatIn s = .next (live heardBeat s) := rfl

theorem heardBeat_masked (h : s.flag (Reg.mgcPinMasked 1) = true) : heardBeat s = s := if_pos h

theorem heardBeat_unheeded (h : ∀ w ∈ s.ssq.wheels, s.flag (Reg.ssqWheelBeatEn w.1) = false) : heardBeat s = s := by
  unfold heardBeat
  split
  · rfl
  · refine List.foldlRecOn (motive := (· = s)) _ _ rfl fun u hu e he => ?_
    rw [hu, h e he]
    rfl

theorem heardBeat_single (hmask : s.flag (Reg.mgcPinMasked 1) = false) (hws : s.ssq.wheels = [(w, x)]) (hen : s.flag (Reg.ssqWheelBeatEn w) = true) :
    heardBeat s = beatWheel w x s := by
  simp only [heardBeat, hmask, hws, hen, Bool.false_eq_true, if_false, if_true, List.foldl_cons, List.foldl_nil]

end BeatIn

/-- A resynchronisation touches the anticipated SP alone, beside the counter and the event (02 R54). -/
theorem beatResync_wheel? (w : Nat) (x : Wheel) (s : State) : (beatResync w x s).wheel? w = (s.wheel? w).map Wheel.followSp := by
  unfold beatResync
  rw [(logEv_keep ..).wheel? rfl, wheel?_modWheel, (bump_keep ..).wheel? rfl]

-- How far the anticipated SP is ahead

/-- The distance is the residue d of the difference of the positions, read as a number with sign. -/
theorem beatAhead_of_residue {n d c : Nat} {x : Wheel} (hlast : x.lastStep * n + x.lastLayer < 2 ^ 32 * n) (hd : d < 2 ^ 32 * n)
    (h : x.antStep * n + x.antLayer + 2 ^ 32 * n - (x.lastStep * n + x.lastLayer) = d + c * (2 ^ 32 * n)) :
    beatAhead n x = if d < 2 ^ 31 * n then (d : Int) else (d : Int) - 2 ^ 32 * n := by
  unfold beatAhead
  rw [Nat.mod_eq_of_lt hlast, h, Nat.add_mul_mod_self_right, Nat.mod_eq_of_lt hd]

section BeatAhead

variable {n : Nat} {x : Wheel}

/-- A position lies before the end of its step. -/
theorem position_lt {step layer : Nat} (hs : step < 2 ^ 32) (hl : layer < n) : step * n + n ≤ 2 ^ 32 * n ∧ step * n + layer < 2 ^ 32 * n := by
  have hstep : (step + 1) * n ≤ 2 ^ 32 * n := Nat.mul_le_mul_right n hs
  rw [Nat.succ_mul] at hstep
  exact ⟨hstep, by omega⟩

theorem beatAhead_same_step (hs : x.lastStep < 2 ^ 32) (ha : x.antLayer < n) (hl : x.lastLayer < n) (h : x.antStep = x.lastStep) :
    beatAhead n x = (x.antLayer : Int) - x.lastLayer := by
  obtain ⟨_, hlast⟩ := position_lt hs hl
  rcases Nat.lt_or_ge x.antLayer x.lastLayer with hlt | hge
  · rw [beatAhead_of_residue (d := 2 ^ 32 * n - (x.lastLayer - x.antLayer)) (c := 0) hlast (by omega) (by rw [h]; omega), if_neg (by omega)]
    omega
  · rw [beatAhead_of_residue (d := x.antLayer - x.lastLayer) (c := 1) hlast (by omega) (by rw [h]; omega), if_pos (by omega)]
    omega

theorem beatAhead_next_step (hs : x.lastStep < 2 ^ 32) (ha : x.antLayer < n) (hl : x.lastLayer < n) (h : x.antStep = (x.lastStep + 1) % 2 ^ 32) :
    beatAhead n x = (n : Int) + x.antLayer - x.lastLayer := by
  obtain ⟨_, hlast⟩ := position_lt hs hl
  have hresidue : ∃ c, x.antStep * n + x.antLayer + 2 ^ 32 * n - (x.lastStep * n + x.lastLayer) = n + x.antLayer - x.lastLayer + c * (2 ^ 32 * n) := by
    rcases Nat.lt_or_ge (x.lastStep + 1) (2 ^ 32) with hlt | hge
    · exact ⟨1, by rw [h, Nat.mod_eq_of_lt hlt, Nat.succ_mul]; omega⟩
    · have hlastStep : x.lastStep = 2 ^ 32 - 1 := by omega
      exact ⟨0, by rw [h, hlastStep]; omega⟩
  obtain ⟨c, hc⟩ := hresidue
  rw [beatAhead_of_residue hlast (by omega) hc, if_pos (by omega)]
  omega

end BeatAhead

-- WHEEL_STALL and the rollback

theorem exec_wheelStall (w : Nat) (s : State) : exec (.wheelStall w) s = .next (live (wheelStall w) s) := rfl

section Stall

variable {w : Nat} {x : Wheel} {s : State}

theorem wheelStall_idle (h : (runningOn s w).isEmpty = true) : wheelStall w s = s := by
  unfold wheelStall
  split
  · rfl
  · exact if_pos h

theorem wheelStall_running (hw : s.wheel? w = some x) (h : (runningOn s w).isEmpty = false) :
    wheelStall w s = logEv .ssqWheelStall pSsq x.part [w, x.lastStep, x.lastLayer]
      (endTurns (((rollbackWheel w (s.bump Ctr.ssqWheelStalls)).ssq.turns.filter fun t => t.wheel == w && t.state != .queued).map (·.session)) .wheelTimeout
        (rollbackWheel w (s.bump Ctr.ssqWheelStalls))) := by
  simp only [wheelStall, hw, h, Bool.false_eq_true, if_false]

/-- The rollback of the turns' page effects and of the pins leaves the wheels; the step's own state is set back on them (02 R51). -/
theorem rollbackWheel_wheel? {m : Model} (hw : s.wheel? w = some x) (hm : s.model? x.part x.model = some m) :
    (rollbackWheel w s).wheel? w =
      some { x with parts := [], nextPart := 0, nextRec := 0, layerDone := true, tailDone := false, tailBegun := false, pins := [],
                    lastStep := x.committed, lastLayer := m.layers - 1, rolledBack := x.roster.isSome } := by
  have hturns (u : State) : (x.rosterSlots'.foldl (fun s slot => rollbackTurn w slot s) u).wheel? w = u.wheel? w :=
    (Keep.foldl (fun u slot => rollbackTurn_keep w slot u) (Keep.refl _ u) _).wheel? rfl w
  have hpins (u : State) : (x.pins.foldl (fun s h => dropPin h s) u).wheel? w = u.wheel? w :=
    (Keep.foldl (fun u h => dropPin_keep h u) (Keep.refl _ u) _).wheel? rfl w
  simp only [rollbackWheel, hw, hm, Option.map_some, Option.getD_some]
  rw [(settleGone_keep ..).wheel? rfl, wheel?_modWheel, (foldReady_keep _).wheel? rfl, hpins, hturns, hw]
  rfl

end Stall

/-- Settles O45: a pulse by the cases of `heardBeat` and of `beatWheel_eq`, the distance as a residue, the stall by `rollbackWheel`. -/
theorem beatAndStall : Obligations.BeatAndStall := by
  unfold Obligations.BeatAndStall
  refine ⟨?masked, ?unheeded, ?advances, ?resync, ?distance, ?stall, ?rollback, ?idle⟩
  case masked =>
    intro s h
    rw [exec_beatIn, live_of_eq (heardBeat_masked h)]
  case unheeded =>
    intro s h
    rw [exec_beatIn, live_of_eq (heardBeat_unheeded h)]
  case advances =>
    intro w x m s hlive hmask hws hen hm hahead
    have hahead : ¬ 1 < beatAhead m.layers (x.nextBeat m.layers) := Int.not_lt.2 hahead
    rw [exec_beatIn, live_of_running hlive, heardBeat_single hmask hws hen, beatWheel_eq hm, if_neg hahead]
    rfl
  case resync =>
    intro w x m s hlive hmask hws hen hm hahead
    have hahead : 1 < beatAhead m.layers (x.nextBeat m.layers) := hahead
    have hw : s.wheel? w = some x := by simp only [State.wheel?, hws, tget, if_true]
    refine ⟨_, by rw [exec_beatIn, live_of_running hlive, heardBeat_single hmask hws hen, beatWheel_eq hm, if_pos hahead], ?_, ?_⟩
    · rw [beatResync_wheel?, wheel?_modWheel, hw]
      rfl
    · exact ⟨(beatResync_keep ..).tmg rfl, (beatResync_keep ..).hrc rfl, (beatResync_keep ..).xfe rfl⟩
  case distance =>
    intro n x ⟨_, hlast⟩ ⟨hant, hlayer⟩
    exact ⟨beatAhead_same_step hlast hant hlayer, beatAhead_next_step hlast hant hlayer⟩
  case stall =>
    intro w x s hlive hw hrun
    rw [exec_wheelStall, live_of_running hlive, wheelStall_running hw hrun]
  case rollback =>
    intro w x m s hw hm
    exact rollbackWheel_wheel? hw hm
  case idle =>
    intro w s h
    rw [exec_wheelStall, live_of_eq (wheelStall_idle h)]

end Sys2Proof.Machine

/-!
The step boundary of a wheel and its roster (05 R151-R153, 06 R192, R193), and what STEP_COMMIT does with a turn whose tail is ready
(02 R49, 05 R177, 06 R194).
-/
namespace Sys2Proof.Machine

open Sys2Proof

-- ROSTER_WRITE

theorem exec_rosterWrite (w : Nat) (s : State) : exec (.rosterWrite w) s = .next (live (rosterWrite w) s) := rfl

section RosterWrite

variable {w : Nat} {x : Wheel} {s : State}

theorem rosterWrite_absent (hw : s.wheel? w = none) : rosterWrite w s = s := by
  simp only [rosterWrite, hw]

/-- Neither a wheel that flushes nor one whose tail block is still to be written is at a boundary (R152). -/
theorem rosterWrite_inStep (hw : s.wheel? w = some x) (h : x.flushing = true ∨ (x.roster.isSome = true ∧ x.blockWritten = false)) :
    rosterWrite w s = s := by
  simp only [rosterWrite, hw]
  exact if_pos (h.imp_right fun ⟨hroster, hblock⟩ => ⟨hroster, by simp [hblock]⟩)

theorem rosterWrite_idle (hw : s.wheel? w = some x) (hflush : x.flushing = false) (hroster : x.roster = none) :
    rosterWrite w s = writeRoster w (joinChains w (joinTurns w s)) := by
  simp only [rosterWrite, hw, hflush, hroster, Option.isSome_none, Bool.false_eq_true, false_and, or_self, if_false]

theorem rosterWrite_boundary {es : List RosterEntry} (hw : s.wheel? w = some x) (hflush : x.flushing = false) (hroster : x.roster = some es)
    (hblock : x.blockWritten = true) :
    rosterWrite w s = writeRoster w (joinChains w (joinTurns w (weirEvaluate x.part (closeStep w s)))) := by
  simp only [rosterWrite, hw, hflush, hroster, hblock, Option.isSome_some, Bool.not_true, Bool.false_eq_true, and_false, or_self, if_false, if_true]

end RosterWrite

-- The end of a step

/-- A wheel after its step has closed: nothing of the step is left. -/
def Wheel.stepClosed (x : Wheel) : Wheel :=
  { x with roster := none, rolledBack := false, parts := [], nextPart := 0, nextRec := 0, layerDone := true, tailDone := false,
           tailBegun := false, blockWritten := false, results := [] }

/-- The lead that an expert wrote takes effect or is dropped; the rest of the wheel stands (02 R53). -/
theorem applyLead_wheel? {w : Nat} {x : Wheel} {s : State} (hw : s.wheel? w = some x) :
    ∃ p l, (applyLead w s).wheel? w = some { x with pendingLead := p, lead := l } := by
  unfold applyLead
  rw [hw]
  split
  · next => contradiction
  · next z hz =>
    obtain rfl : x = z := Option.some.inj hz
    split
    · next l m hl hm =>
      extract_lets u units owner areas v areas' v'
      have hu : u.wheel? w = some { x with pendingLead := none } := by rw [wheel?_modWheel, hw]; rfl
      have hv : v.wheel? w = u.wheel? w := rfl
      have hv' : v'.wheel? w = v.wheel? w := by
        unfold v'
        split <;> rfl
      clear_value v' v u
      split
      · exact ⟨none, l, by rw [wheel?_modWheel, hv', hv, hu]; rfl⟩
      · exact ⟨none, x.lead, by rw [(logEv_keep ..).wheel? rfl, (bump_keep ..).wheel? rfl, hu]⟩
    · exact ⟨x.pendingLead, x.lead, hw⟩

theorem closeStep_wheel? {w : Nat} {x : Wheel} {s : State} (hw : s.wheel? w = some x) :
    ∃ p l, (closeStep w s).wheel? w = some { x.stepClosed with pendingLead := p, lead := l } := by
  have hshort (n : Nat) : (if x.lead < n then logEv .hrcLeadShort pHrc x.part [w, n] (s.bump Ctr.hrcLeadShortEvents) else s).wheel? w = some x := by
    split
    · rw [(logEv_keep ..).wheel? rfl, (bump_keep ..).wheel? rfl, hw]
    · exact hw
  simp only [closeStep, hw]
  refine applyLead_wheel? ?_
  rw [(settleGone_keep ..).wheel? rfl, wheel?_modWheel]
  exact congrArg (Option.map Wheel.stepClosed) (hshort _)

-- The roster

section Roster

variable {w : Nat} {x : Wheel} {t : Turn} {s : State}

theorem writeRoster_unused (h : runningOn s w = []) : writeRoster w s = s := by
  unfold writeRoster
  split
  · rfl
  · simp only [h, List.foldl_nil, List.filter_nil, List.map_nil, List.flatten_nil, List.isEmpty_nil, if_true]

/-- The roster of a single running turn is its entries (R151). -/
theorem writeRoster_single (hw : s.wheel? w = some x) (hrun : runningOn s w = [t]) (hturn : (turnOf s t.session).isSome = true)
    (hes : (rosterOf s x t).isEmpty = false) :
    (writeRoster w s).wheel? w =
      some { x with roster := some (rosterOf s x t), rosterStep := (x.committed + 1) % 2 ^ 32, rosterSeq := (x.rosterSeq + 1) % 2 ^ 32,
                    rosterCount := x.rosterCount + 1, blockWritten := false, rolledBack := false, results := [] } := by
  simp only [writeRoster, hw, hrun, List.foldl_cons, List.foldl_nil, slotOrder, List.filter_cons, List.filter_nil, hes, hturn, Bool.not_false,
    Bool.and_self, Bool.false_eq_true, if_true, if_false, List.map_cons, List.map_nil, List.flatten_cons, List.flatten_nil, List.append_nil]
  rw [(wheelWrite_keep ..).wheel? rfl, wheel?_modWheel, (bumpBy_keep ..).wheel? rfl]
  exact congrArg (Option.map _) hw

end Roster

/-- No more template nodes than the template has (R192). -/
theorem rosterNodes_length {tb : Tail} (h : 1 ≤ tb.tree.length) (t : Turn) (i g : Nat) (y : Session) :
    (rosterNodes tb t i y g).length ≤ tb.tree.length := by
  refine (List.takeWhile_prefix _).length_le.trans ?_
  rw [List.length_map, List.length_range]
  split <;> omega

/-- The entry of a template node stands at the position and depth of its candidate, and passes the tests of R153 and R193. -/
theorem rosterNodes_mem {tb : Tail} {t : Turn} {i g : Nat} {y : Session} {e : RosterEntry} (he : e ∈ rosterNodes tb t i y g) :
    e.slot = t.slot ∧ e.kind = 0 ∧ e.session = i ∧ e.prov = y.kvLen + e.cand ∧ e.pos = y.kvLen + e.depth ∧ e.prov ≤ 2097151 ∧ e.depth + t.committed < g := by
  have hfits := List.mem_takeWhile_imp he
  obtain ⟨c, _, rfl⟩ := List.mem_map.1 ((List.takeWhile_prefix _).subset he)
  simp only [Bool.and_eq_true, decide_eq_true_eq] at hfits
  exact ⟨rfl, rfl, rfl, rfl, rfl, hfits⟩

theorem rosterPrefill_length (t : Turn) (i : Nat) (y : Session) : (rosterPrefill t i y).length = y.history.length - y.kvLen := by
  rw [rosterPrefill, List.length_map, List.length_range]

/-- The entries of a prefill step stand at the positions between KV_LEN and the end of the history. -/
theorem rosterPrefill_mem {t : Turn} {i : Nat} {y : Session} {e : RosterEntry} (he : e ∈ rosterPrefill t i y) :
    e.kind = 1 ∧ y.kvLen ≤ e.pos ∧ e.pos < y.history.length ∧ e.prov = e.pos ∧ e.slot = t.slot := by
  obtain ⟨k, hk, rfl⟩ := List.mem_map.1 he
  have hk := List.mem_range.1 hk
  exact ⟨rfl, Nat.le_add_right _ _, by dsimp only; omega, rfl, rfl⟩

-- REVIVE_LAYER_RESIDENT

theorem exec_reviveLayerResident (i : Nat) (s : State) : exec (.reviveLayerResident i) s = .next (live (reviveLayer i) s) := rfl

section Revive

variable {i : Nat} {t : Turn} {y : Session} {s : State}

theorem reviveLayer_further (hturn : turnOf s i = some t) (hy : tget s.ssq.sessions i = some y) (hstate : t.state = .reviving)
    (hmore : t.resident < residentLayers s y (layersOf s y)) :
    reviveLayer i s =
      if (runningOn (reviveStart (s.hrc.revive.length + 1) t.part t.reviveTier (modTurn i (fun t => { t with resident := residentLayers s y (layersOf s y) }) s))
          t.wheel).isEmpty then
        rosterWrite t.wheel (reviveStart (s.hrc.revive.length + 1) t.part t.reviveTier (modTurn i (fun t => { t with resident := residentLayers s y (layersOf s y) }) s))
      else reviveStart (s.hrc.revive.length + 1) t.part t.reviveTier (modTurn i (fun t => { t with resident := residentLayers s y (layersOf s y) }) s) := by
  simp only [reviveLayer, hturn, hy, hstate, Option.map_some, Option.getD_some, ne_eq, not_true_eq_false, false_and, false_or, Nat.not_le.2 hmore, if_false]

theorem reviveLayer_known (hturn : turnOf s i = some t) (hy : tget s.ssq.sessions i = some y) (hno : residentLayers s y (layersOf s y) ≤ t.resident) :
    reviveLayer i s = s := by
  simp only [reviveLayer, hturn, hy, Option.map_some, Option.getD_some, hno, or_true, if_true]

end Revive

-- STEP_COMMIT

theorem exec_stepCommit (i : Nat) (late : Bool) (s : State) : exec (.stepCommit i late) s = .next (live (stepCommit i late) s) := rfl

/-- A turn runs on a wheel with a roster of it, whose bindings stand and whose step it has not resolved, and its tail is ready. -/
structure CommitReady (i : Nat) (t : Turn) (y : Session) (x : Wheel) (m : Model) (tb : Tail) (e : RosterEntry) (s : State) : Prop where
  turn : turnOf s i = some t
  session : tget s.ssq.sessions i = some y
  wheel : s.wheel? t.wheel = some x
  entry : (x.entriesOf t.slot).head? = some e
  model : s.model? x.part x.model = some m
  tail : s.tail? x.part m.tailId = some tb
  running : t.state = .running
  block : x.blockWritten = false
  unresolved : x.resolved t.slot = false
  ready : tailReady s x t = true

/-- The entry with which a member resolves a turn that is not its to commit (05 R177, log 31). -/
def memberEntry (i : Nat) (t : Turn) (y : Session) : TailEntry :=
  { slot := t.slot, session := i, status := .ok, ended := false, firstPos := y.history.length, step := t.steps }

section StepCommit

variable {i : Nat} {late : Bool} {t : Turn} {y : Session} {x : Wheel} {m : Model} {tb : Tail} {e : RosterEntry} {s : State}

/-- What a ready step does: by the place in the chain, the recorder and the walk. -/
theorem CommitReady.stepCommit (h : CommitReady i t y x m tb e s) :
    stepCommit i late s =
      if !lastMember y then
        let u := modTurn i (fun t => { t with steps := t.steps + 1 }) (modWheel t.wheel (fun x => { x with results := x.results ++ [memberEntry i t y] }) s)
        if t.drain then endTurns [i] .partitionDrain u else finishTail t.wheel u
      else if recorderStalls s y then s.bump Ctr.frcRecorderWaits
      else (turnWalk x t y tb).elim (endTurns [i] .nonfinite s) fun k => commitWalk i late t x m tb y e k s := by
  obtain ⟨hturn, hy, hw, he, hm, htb, hrun, hblock, hres, hready⟩ := h
  simp only [Machine.stepCommit, hturn, hy, hw, he, hm, htb, hrun, hblock, hres, hready, ne_eq, not_true_eq_false, Bool.not_true, Bool.false_eq_true, or_self, if_false]
  cases turnWalk x t y tb <;> rfl

theorem CommitReady.stepCommit_member (h : CommitReady i t y x m tb e s) (hlast : lastMember y = false) (hdrain : t.drain = false) :
    Machine.stepCommit i late s = finishTail t.wheel (modTurn i (fun t => { t with steps := t.steps + 1 })
      (modWheel t.wheel (fun x => { x with results := x.results ++ [memberEntry i t y] }) s)) := by
  rw [h.stepCommit, hlast]
  simp only [Bool.not_false, hdrain, Bool.false_eq_true, if_true, if_false]

theorem CommitReady.stepCommit_stalls (h : CommitReady i t y x m tb e s) (hlast : lastMember y = true) (hstall : recorderStalls s y = true) :
    Machine.stepCommit i late s = s.bump Ctr.frcRecorderWaits := by
  rw [h.stepCommit, hlast, hstall]
  rfl

theorem CommitReady.stepCommit_nonfinite (h : CommitReady i t y x m tb e s) (hlast : lastMember y = true) (hrec : recorderStalls s y = false)
    (hwalk : turnWalk x t y tb = none) : Machine.stepCommit i late s = endTurns [i] .nonfinite s := by
  rw [h.stepCommit, hlast, hrec, hwalk]
  rfl

theorem CommitReady.stepCommit_walk {k : Walk} (h : CommitReady i t y x m tb e s) (hlast : lastMember y = true) (hrec : recorderStalls s y = false)
    (hwalk : turnWalk x t y tb = some k) : Machine.stepCommit i late s = commitWalk i late t x m tb y e k s := by
  rw [h.stepCommit, hlast, hrec, hwalk]
  rfl

end StepCommit

/-- Settles O46: the boundary by the cases of `rosterWrite`, the close of a step by what each part of it leaves of the wheel, the entries of a
roster by membership, and a ready step by `CommitReady.stepCommit`. -/
theorem stepBoundary : Obligations.StepBoundary := by
  unfold Obligations.StepBoundary
  refine ⟨?inStep, ?absent, ?idle, ?boundary, ?close, ?unused, ?single, ?nodes, ?prefill, ?further, ?known, ?commit⟩
  case inStep =>
    intro w x s hw h
    rw [exec_rosterWrite, live_of_eq (rosterWrite_inStep hw h)]
  case absent =>
    intro w s hw
    rw [exec_rosterWrite, live_of_eq (rosterWrite_absent hw)]
  case idle =>
    intro w x s hlive hw hflush hroster
    rw [exec_rosterWrite, live_of_running hlive, rosterWrite_idle hw hflush hroster]
  case boundary =>
    intro w x es s hlive hw hflush hroster hblock
    rw [exec_rosterWrite, live_of_running hlive, rosterWrite_boundary hw hflush hroster hblock]
  case close =>
    intro w x s hw
    obtain ⟨p, l, h⟩ := closeStep_wheel? hw
    exact ⟨_, h, rfl, rfl, rfl, rfl, rfl, rfl, rfl, rfl⟩
  case unused =>
    intro w s h
    exact writeRoster_unused h
  case single =>
    intro w x t s hw hrun hturn hes
    exact ⟨_, writeRoster_single hw hrun (by rw [hturn]; rfl) hes, rfl, rfl, rfl, rfl, rfl, rfl⟩
  case nodes =>
    intro tb t i g y h
    exact ⟨rosterNodes_length h t i g y, fun e he => rosterNodes_mem he⟩
  case prefill =>
    intro t i y
    exact ⟨rosterPrefill_length t i y, fun e he => rosterPrefill_mem he⟩
  case further =>
    intro i n t y s hlive hturn hy hstate hn hmore
    subst hn
    rw [exec_reviveLayerResident, live_of_running hlive, reviveLayer_further hturn hy hstate hmore]
  case known =>
    intro i t y s hturn hy hno
    rw [exec_reviveLayerResident, live_of_eq (reviveLayer_known hturn hy hno)]
  case commit =>
    intro i late t y x m tb e k s hlive hturn hy hw he hm htb hrun hblock hres hready
    have h : CommitReady i t y x m tb e s := ⟨hturn, hy, hw, he, hm, htb, hrun, hblock, hres, hready⟩
    rw [exec_stepCommit, live_of_running hlive]
    exact ⟨fun hlast hrec hwalk _ => ⟨_, congrArg _ (h.stepCommit_walk hlast hrec hwalk), rfl⟩,
      fun hlast hdrain => ⟨_, congrArg _ (h.stepCommit_member hlast hdrain), rfl⟩⟩

end Sys2Proof.Machine

/-!
The walk and the waits of a commit (06 R194, 04 R119), the late member of a chain (05 R179), and what falls due of a session (02 R58).
-/
namespace Sys2Proof.Machine

open Sys2Proof

-- Steps that do not commit

section StepCommit

variable {i : Nat} {late : Bool} {s : State}

theorem stepCommit_absent (h : turnOf s i = none) : stepCommit i late s = s := by
  simp only [stepCommit, h]

/-- A turn that does not run, or whose tail is not ready or whose step is resolved, commits nothing. -/
theorem stepCommit_notReady {t : Turn} {x : Wheel} (hturn : turnOf s i = some t) (hw : s.wheel? t.wheel = some x)
    (h : t.state ≠ .running ∨ x.blockWritten = true ∨ x.resolved t.slot = true ∨ tailReady s x t = false) : stepCommit i late s = s := by
  have hwait : t.state ≠ .running ∨ x.blockWritten = true ∨ x.resolved t.slot = true ∨ (!tailReady s x t) = true := by
    simpa only [Bool.not_eq_true'] using h
  simp only [stepCommit, hturn]
  cases tget s.ssq.sessions i with
  | none => rfl
  | some y =>
    simp only [hw]
    cases (x.entriesOf t.slot).head? with
    | none => rfl
    | some e =>
      cases s.model? x.part x.model with
      | none => rfl
      | some m =>
        dsimp only
        cases s.tail? x.part m.tailId with
        | none => rfl
        | some tb => exact if_pos hwait

end StepCommit

-- The walk

/-- A walk keeps one token a node, and goes on by at most `n` nodes from where it stands, by one at least (06 R194). -/
theorem walkTree_length {select : List Nat → RosterEntry → Option Nat} {ends : Nat → Nat → Nat} {es : List RosterEntry} {n : Nat} {path : List Nat}
    {e : RosterEntry} {w k : Walk} (h : walkTree select ends es n path e w = some k) (hw : w.kept.length = w.toks.length) :
    k.kept.length = k.toks.length ∧ w.toks.length + min 1 n ≤ k.toks.length ∧ k.toks.length ≤ w.toks.length + n := by
  induction n generalizing path e w with
  | zero =>
    obtain rfl : w = k := Option.some.inj h
    exact ⟨hw, by omega, by omega⟩
  | succ n ih =>
    simp only [walkTree] at h
    split at h
    · contradiction
    · next tok _ =>
      have hone : (w.toks ++ [tok]).length = w.toks.length + 1 := List.length_append
      have hkept : (w.kept ++ [e]).length = (w.toks ++ [tok]).length := by simp only [List.length_append, hw, List.length_cons, List.length_nil]
      split at h
      · obtain rfl := Option.some.inj h
        exact ⟨hkept, by dsimp only; omega, by dsimp only; omega⟩
      · split at h
        · obtain ⟨hlen, hlow, hhigh⟩ := ih h hkept
          dsimp only at hlow hhigh
          exact ⟨hlen, by omega, by omega⟩
        · obtain rfl := Option.some.inj h
          exact ⟨hkept, by dsimp only; omega, by dsimp only; omega⟩

theorem turnWalk_length {t : Turn} {y : Session} {x : Wheel} {tb : Tail} {k : Walk} (h : turnWalk x t y tb = some k) :
    k.kept.length = k.toks.length ∧ 1 ≤ k.toks.length ∧ k.toks.length ≤ 33 := by
  unfold turnWalk at h
  split at h
  · contradiction
  · obtain ⟨hlen, hlow, hhigh⟩ := walkTree_length h rfl
    exact ⟨hlen, Nat.le_trans (by decide) hlow, Nat.le_trans hhigh (by decide)⟩

-- A commit that waits

/-- A decode commit whose seals find no slot waits, and says so once (04 R119). -/
theorem commitWalk_waits {i : Nat} {late : Bool} {t : Turn} {x : Wheel} {m : Model} {tb : Tail} {y : Session} {e : RosterEntry} {k : Walk} {s : State}
    (hkind : e.kind = 0) (hfirst : t.commitWaits = false) (h : commitPages i y m.layers (y.kvLen + k.toks.length) k.kept k.toks s = none) :
    commitWalk i late t x m tb y e k s =
      logEv .tmgAllocWait pTmg y.part [i, 0] ((modTurn i (fun t => { t with commitWaits := true }) s).bump Ctr.tmgAllocWaits) := by
  simp only [commitWalk, hkind, Nat.zero_ne_one, if_false, h, hfirst, Bool.false_eq_true]

theorem exec_commitReserveTimeout (i : Nat) (s : State) : exec (.commitReserveTimeout i) s = .next (live (commitTimeout i) s) := rfl

theorem commitTimeout_waiting {i : Nat} {t : Turn} {s : State} (hturn : turnOf s i = some t) (h : t.commitWaits = true) :
    commitTimeout i s = endTurns [i] .tierLate s := by
  simp only [commitTimeout, hturn, h, if_true]

theorem commitTimeout_idle {i : Nat} {s : State} (h : ((turnOf s i).map (·.commitWaits)).getD false = false) : commitTimeout i s = s := by
  unfold commitTimeout
  split
  · next t hturn =>
    rw [hturn] at h
    exact if_neg (Bool.eq_false_iff.1 h)
  · rfl

-- CHAIN_TIMEOUT

theorem exec_chainTimeout (w member : Nat) (s : State) : exec (.chainTimeout w member) s = .next (live (chainTimeout w member) s) := rfl

/-- The chain that a turn's session is sharded on. -/
abbrev chainAt (s : State) (t : Turn) : Option Chain := (tget s.ssq.sessions t.session).bind (·.chain)

/-- An accepted part of a layer in progress waits for node values of a turn's records. -/
def turnAwaits (s : State) (x : Wheel) (t : Turn) : Bool :=
  x.parts.any fun p => !p.tail && !p.written && (partRecords x p t.slot).any fun r => recordAwaits s x p r

/-- The chains on which a member owes node values to this device, the next of them (05 R179). -/
def owedChains (s : State) (x : Wheel) (w member : Nat) : List Chain :=
  ((runningOn s w).filter (turnAwaits s x)).filterMap fun t => (chainAt s t).filter fun c => member + 1 == c.own

/-- The running turns of the chains on which a member owes node values. -/
def turnsOwed (s : State) (x : Wheel) (w member : Nat) : List Turn :=
  (runningOn s w).filter fun t => (chainAt s t).any fun c => (owedChains s x w member).any fun d => d.members == c.members && d.own == c.own

section ChainTimeout

variable {w member : Nat} {x : Wheel} {t : Turn} {p : LayerPart} {c : Chain} {s : State}

theorem chainTimeout_eq (hw : s.wheel? w = some x) :
    chainTimeout w member s = if (turnsOwed s x w member).isEmpty then s
      else endTurns ((turnsOwed s x w member).map (·.session)) .chainPeer
        (logEv .mxgChainTimeout pMxg x.part [w, member] (s.bump (Ctr.mxgChainTimeouts 0))) := by
  simp only [chainTimeout, hw]
  rfl

theorem turnAwaits_of_part (hp : p ∈ x.parts ∧ p.tail = false ∧ p.written = false) (h : (partRecords x p t.slot).any (recordAwaits s x p) = true) :
    turnAwaits s x t = true := by
  obtain ⟨hmem, htail, hwritten⟩ := hp
  exact List.any_eq_true.2 ⟨p, hmem, by rw [htail, hwritten, h]; rfl⟩

theorem turnAwaits_eq_false (h : ∀ p ∈ x.parts, p.tail = false → p.written = false → (partRecords x p t.slot).any (recordAwaits s x p) = false) :
    turnAwaits s x t = false := by
  refine List.any_eq_false.2 fun p hp => ?_
  cases htail : p.tail with
  | true => exact Bool.false_ne_true
  | false =>
    cases hwritten : p.written with
    | true => exact Bool.false_ne_true
    | false =>
      rw [h p hp htail hwritten]
      decide

theorem mem_owedChains : c ∈ owedChains s x w member ↔ ∃ t ∈ runningOn s w, turnAwaits s x t = true ∧ chainAt s t = some c ∧ member + 1 = c.own := by
  simp only [owedChains, List.mem_filterMap, List.mem_filter, Option.filter_eq_some_iff, beq_iff_eq, and_assoc]

/-- Where the turns at one place of a chain agree on its members, what a member owes on it is owed to every turn of it. -/
theorem turnsOwed_of_chain (ht : t ∈ runningOn s w) (hawaits : turnAwaits s x t = true) (hchain : chainAt s t = some c) (hown : member + 1 = c.own)
    (hone : ∀ u ∈ runningOn s w, ∀ d, chainAt s u = some d → d.own = c.own → d.members = c.members) :
    turnsOwed s x w member = (runningOn s w).filter fun u => (chainAt s u).any fun d => d.members == c.members && d.own == c.own := by
  have hc : c ∈ owedChains s x w member := mem_owedChains.2 ⟨t, ht, hawaits, hchain, hown⟩
  have hsame (d : Chain) : ((owedChains s x w member).any fun e => e.members == d.members && e.own == d.own) = (d.members == c.members && d.own == c.own) := by
    rw [Bool.eq_iff_iff, List.any_eq_true]
    simp only [Bool.and_eq_true, beq_iff_eq]
    constructor
    · rintro ⟨e, he, hmembers, heown⟩
      obtain ⟨u, hu, _, huchain, heown'⟩ := mem_owedChains.1 he
      have hec : e.own = c.own := heown'.symm.trans hown
      exact ⟨hmembers.symm.trans (hone u hu e huchain hec), heown.symm.trans hec⟩
    · rintro ⟨hmembers, hdown⟩
      exact ⟨c, hc, hmembers.symm, hdown.symm⟩
  simp only [turnsOwed, hsame]

/-- The turns of the chain on which the member is late end, as one (05 R179). -/
theorem chainTimeout_late (hw : s.wheel? w = some x) (ht : t ∈ runningOn s w) (hawaits : turnAwaits s x t = true) (hchain : chainAt s t = some c)
    (hown : member + 1 = c.own) (hone : ∀ u ∈ runningOn s w, ∀ d, chainAt s u = some d → d.own = c.own → d.members = c.members) :
    chainTimeout w member s =
      endTurns (((runningOn s w).filter fun u => (chainAt s u).any fun d => d.members == c.members && d.own == c.own).map (·.session)) .chainPeer
        (logEv .mxgChainTimeout pMxg x.part [w, member] (s.bump (Ctr.mxgChainTimeouts 0))) := by
  have hmem : t ∈ (runningOn s w).filter fun u => (chainAt s u).any fun d => d.members == c.members && d.own == c.own :=
    List.mem_filter.2 ⟨ht, by simp only [hchain, Option.any_some, beq_self_eq_true, Bool.and_self]⟩
  rw [chainTimeout_eq hw, turnsOwed_of_chain ht hawaits hchain hown hone, if_neg]
  exact fun hnil => List.not_mem_nil (List.isEmpty_iff.1 hnil ▸ hmem)

theorem chainTimeout_unchained (h : ∀ t ∈ runningOn s w, chainAt s t = none) : chainTimeout w member s = s := by
  cases hw : s.wheel? w with
  | none => simp only [chainTimeout, hw]
  | some x =>
    have hnil : turnsOwed s x w member = [] := List.filter_eq_nil_iff.2 fun t ht => by rw [h t ht]; exact Bool.false_ne_true
    rw [chainTimeout_eq hw, hnil]
    rfl

theorem chainTimeout_unawaited (hw : s.wheel? w = some x) (h : ∀ t ∈ runningOn s w, turnAwaits s x t = false) : chainTimeout w member s = s := by
  have howed : owedChains s x w member = [] := by
    rw [owedChains, List.filter_eq_nil_iff.2 fun t ht => by rw [h t ht]; decide]
    rfl
  have hnil : turnsOwed s x w member = [] := List.filter_eq_nil_iff.2 fun t _ => by
    rw [howed]
    cases chainAt s t <;> exact Bool.false_ne_true
  rw [chainTimeout_eq hw, hnil]
  rfl

end ChainTimeout

/-- Settles O48: a ready step by `CommitReady.stepCommit`, the walk by induction on its bound, and CHAIN_TIMEOUT by the chains on which the
member owes node values. -/
theorem stepsCommit : Obligations.StepsCommit := by
  unfold Obligations.StepsCommit
  refine ⟨?absent, ?notReady, ?walks, ?walk, ?nonfinite, ?member, ?stalls, ?waits, ?expires, ?idle, ?late, ?unchained, ?unawaited⟩
  case absent =>
    intro i late s h
    rw [exec_stepCommit, live_of_eq (stepCommit_absent h)]
  case notReady =>
    intro i late t x s hturn hw h
    rw [exec_stepCommit, live_of_eq (stepCommit_notReady hturn hw h)]
  case walks =>
    intro i late t y x m tb e k s hlive hturn hy hw he hm htb hrun hblock hres hready hlast hrec hwalk
    have h : CommitReady i t y x m tb e s := ⟨hturn, hy, hw, he, hm, htb, hrun, hblock, hres, hready⟩
    rw [exec_stepCommit, live_of_running hlive, h.stepCommit_walk hlast hrec hwalk]
  case walk =>
    intro t y x tb k h
    exact turnWalk_length h
  case nonfinite =>
    intro i late t y x m tb e s hlive hturn hy hw he hm htb hrun hblock hres hready hlast hrec hwalk
    have h : CommitReady i t y x m tb e s := ⟨hturn, hy, hw, he, hm, htb, hrun, hblock, hres, hready⟩
    rw [exec_stepCommit, live_of_running hlive, h.stepCommit_nonfinite hlast hrec hwalk]
  case member =>
    intro i late t y x m tb e s hlive hturn hy hw he hm htb hrun hblock hres hready hlast hdrain
    have h : CommitReady i t y x m tb e s := ⟨hturn, hy, hw, he, hm, htb, hrun, hblock, hres, hready⟩
    rw [exec_stepCommit, live_of_running hlive, h.stepCommit_member hlast hdrain]
    rfl
  case stalls =>
    intro i late t y x m tb e s hlive hturn hy hw he hm htb hrun hblock hres hready hlast hstall
    have h : CommitReady i t y x m tb e s := ⟨hturn, hy, hw, he, hm, htb, hrun, hblock, hres, hready⟩
    rw [exec_stepCommit, live_of_running hlive, h.stepCommit_stalls hlast hstall]
  case waits =>
    intro i late t x m tb y e k s hkind hfirst h
    exact commitWalk_waits hkind hfirst h
  case expires =>
    intro i t s hlive hturn h
    rw [exec_commitReserveTimeout, live_of_running hlive, commitTimeout_waiting hturn h]
  case idle =>
    intro i s h
    rw [exec_commitReserveTimeout, live_of_eq (commitTimeout_idle h)]
  case late =>
    intro w member x t p c s hlive hw ht hp hawaits hchain hown hone
    rw [exec_chainTimeout, live_of_running hlive, chainTimeout_late hw ht (turnAwaits_of_part hp hawaits) hchain hown hone]
  case unchained =>
    intro w member s h
    rw [exec_chainTimeout, live_of_eq (chainTimeout_unchained h)]
  case unawaited =>
    intro w member x s hw h
    rw [exec_chainTimeout, live_of_eq (chainTimeout_unawaited hw fun t ht => turnAwaits_eq_false (h t ht))]

-- What falls due

section Due

variable {i kind : Nat} {f : State → State} {s : State}

theorem whenDue_next {due : Nat} (h : nextDue s = some (due, i, kind)) : whenDue i kind f s = f s := by
  simp only [whenDue, h, and_self, if_true]

theorem whenDue_other (h : ∀ d, nextDue s = some d → d.2.1 ≠ i) : whenDue i kind f s = s := by
  unfold whenDue
  split
  · next d hd => exact if_neg fun heq => h d hd heq.1
  · rfl

end Due

/-- What LADDER_MOVE does when it falls due. -/
def ladderDue (i : Nat) (s : State) : State :=
  let s := commitEvent i .ladder .ok s
  match tget s.ssq.sessions i with
  | some x => if x.state.parks then enterRung i (x.rung + 1) s else s
  | none => s

/-- What SESSION_EXPIRY does when it falls due: an idle session with a lost page has expired before, and its event closes that (02 R58). -/
def expiryDue (i : Nat) (s : State) : State :=
  let lapse := ((tget s.ssq.sessions i).map fun x => x.lostPage && x.idle).getD false
  let s := commitEvent i .expired .ok s
  if lapse then s else dropKv i (s.bump Ctr.ssqSessionsExpired)

/-- What SESSION_RETIREMENT does when it falls due. -/
def retirementDue (i : Nat) (s : State) : State :=
  match tget s.ssq.sessions i with
  | none => s
  | some x => logFull .ssqSessionRetired pSsq 0 x.part 0 (x.commitSeq + 1) [x.handle] (closeSession i .retired (s.bump Ctr.ssqSessionsRetired))

theorem exec_ladderMove (i : Nat) (s : State) : exec (.ladderMove i) s = .next (live (whenDue i 2 (ladderDue i)) s) := rfl

theorem exec_sessionExpiry (i : Nat) (s : State) : exec (.sessionExpiry i) s = .next (live (whenDue i 1 (expiryDue i)) s) := rfl

theorem exec_sessionRetirement (i : Nat) (s : State) : exec (.sessionRetirement i) s = .next (live (whenDue i 0 (retirementDue i)) s) := rfl

section Due

variable {i : Nat} {x : Session} {s : State}

theorem ladderDue_parks (hx : tget (commitEvent i .ladder .ok s).ssq.sessions i = some x) (h : x.state.parks = true) :
    ladderDue i s = enterRung i (x.rung + 1) (commitEvent i .ladder .ok s) := by
  simp only [ladderDue, hx, h, if_true]

theorem expiryDue_whole (hx : tget s.ssq.sessions i = some x) (h : x.lostPage = false) :
    expiryDue i s = dropKv i ((commitEvent i .expired .ok s).bump Ctr.ssqSessionsExpired) := by
  simp only [expiryDue, hx, h, Option.map_some, Option.getD_some, Bool.false_and, Bool.false_eq_true, if_false]

theorem retirementDue_present (hx : tget s.ssq.sessions i = some x) :
    retirementDue i s =
      logFull .ssqSessionRetired pSsq 0 x.part 0 (x.commitSeq + 1) [x.handle] (closeSession i .retired (s.bump Ctr.ssqSessionsRetired)) := by
  simp only [retirementDue, hx]

end Due

/-- Settles O9: each event of a session through `whenDue`, a commit that waits by `commitTimeout`, and the only turn of a chain as a case of
`chainTimeout_late`. -/
theorem whatFallsDue : Obligations.WhatFallsDue := by
  unfold Obligations.WhatFallsDue
  refine ⟨?ladder, ?expiry, ?retirement, ?other, ?commit, ?chain⟩
  case ladder =>
    intro i due x s hlive hdue hx hparks
    rw [exec_ladderMove, live_of_running hlive, whenDue_next hdue, ladderDue_parks hx hparks]
  case expiry =>
    intro i due x s hlive hdue hx hwhole
    rw [exec_sessionExpiry, live_of_running hlive, whenDue_next hdue, expiryDue_whole hx hwhole]
  case retirement =>
    intro i due x s hlive hdue hx
    rw [exec_sessionRetirement, live_of_running hlive, whenDue_next hdue, retirementDue_present hx]
  case other =>
    intro i s h
    rw [exec_ladderMove, exec_sessionExpiry, exec_sessionRetirement]
    exact ⟨congrArg _ (live_of_eq (whenDue_other h)), congrArg _ (live_of_eq (whenDue_other h)), congrArg _ (live_of_eq (whenDue_other h))⟩
  case commit =>
    intro i t s hlive hturn hwaits
    exact ⟨_, by rw [exec_commitReserveTimeout, live_of_running hlive, commitTimeout_waiting hturn hwaits], rfl⟩
  case chain =>
    intro w member x t p c s hlive hw hrun hp hawaits hchain hown
    have honly (u : Turn) (hu : u ∈ runningOn s w) : u = t := List.mem_singleton.1 (hrun ▸ hu)
    have hone : ∀ u ∈ runningOn s w, ∀ d, chainAt s u = some d → d.own = c.own → d.members = c.members := by
      intro u hu d hd _
      rw [honly u hu, chainAt, hchain] at hd
      rw [Option.some.inj hd]
    have ht : t ∈ runningOn s w := hrun ▸ List.mem_singleton_self t
    refine ⟨_, rfl, ?_⟩
    rw [live_of_running hlive, chainTimeout_late hw ht (turnAwaits_of_part hp hawaits) hchain hown hone, hrun]
    simp only [List.filter_cons, List.filter_nil, chainAt, hchain, Option.any_some, beq_self_eq_true, Bool.and_self, if_true, List.map_cons, List.map_nil]

end Sys2Proof.Machine

/-!
The merge of two attention partials (03 R94), and the order of their maxima.
-/
namespace Sys2Proof.Machine

open Sys2Proof Fp

-- The order of numbers

theorem Fp.lt_asymm : ∀ {a b : Fp}, lt a b = true → lt b a = false
  | .inf _, .inf _, h => by
    simp only [lt, Bool.and_eq_true, Bool.not_eq_true'] at h ⊢
    obtain ⟨ha, hb⟩ := h
    rw [hb, Bool.false_and]
  | .inf _, .fin _ _, h => congrArg not h
  | .fin _ _, .inf _, h => (Bool.not_eq_true' _).mp h
  | .fin _ e, .fin _ f, h => by
    simp only [lt, decide_eq_true_eq, decide_eq_false_iff_not, min_comm f e] at h ⊢
    exact not_lt.2 h.le

theorem Fp.max2_of_lt {a b : Fp} (h : lt a b = true) : max2 a b = b := if_pos h

theorem Fp.max2_of_not_lt {a b : Fp} (h : lt a b = false) : max2 a b = a := if_neg (by simp only [h, Bool.false_eq_true, not_false_eq_true])

theorem Fp.le_of_not_lt {a b : Fp} (ha : a.isNan = false) (hb : b.isNan = false) (h : lt b a = false) : le a b = true := by
  simp only [le, ha, hb, h, Bool.not_false, Bool.and_self]

-- The merge of two partials

section Merge

variable {x y : Partial} {m : Fp}

theorem mergePartial_infinite (hx : x.m.isNan = false) (hy : y.m.isNan = false) (hm : max2 x.m y.m = .inf true) :
    mergePartial x y = emptyPartial x.a.length := by
  simp only [mergePartial, hx, hy, hm, Bool.or_self, Bool.false_eq_true, if_false, if_true]

theorem mergePartial_sums (hx : x.m.isNan = false) (hy : y.m.isNan = false) (hm : max2 x.m y.m = m) (hne : m ≠ .inf true) :
    mergePartial x y =
      { m := m
        l := rnd32 (add (mul (exp2 (rnd32 (sub x.m m))) x.l) (mul (exp2 (rnd32 (sub y.m m))) y.l))
        a := (x.a.zip y.a).map fun (p, q) => rnd32 (add (mul (exp2 (rnd32 (sub x.m m))) p) (mul (exp2 (rnd32 (sub y.m m))) q)) } := by
  simp only [mergePartial, hx, hy, hm, hne, Bool.or_self, Bool.false_eq_true, if_false]

theorem mergePartial_m (hx : x.m.isNan = false) (hy : y.m.isNan = false) : (mergePartial x y).m = max2 x.m y.m := by
  by_cases hm : max2 x.m y.m = .inf true
  · rw [mergePartial_infinite hx hy hm, hm, emptyPartial]
  · rw [mergePartial_sums hx hy rfl hm]

end Merge

/-- Settles O55: the two cases of the merge by its maximum, and the order of the maxima by the asymmetry of `lt`. -/
theorem partialsMerge : Obligations.PartialsMerge := by
  unfold Obligations.PartialsMerge
  refine ⟨fun x y hx hy => mergePartial_m hx hy, ?infinite, ?sums, ?order⟩
  case infinite =>
    intro x y hx hy
    rw [mergePartial_infinite (by rw [hx]; rfl) (by rw [hy]; rfl) (by rw [hx, hy]; rfl), emptyPartial]
  case sums =>
    intro x y m hx hy hm hne hlen
    rw [mergePartial_sums hx hy hm hne]
    refine ⟨rfl, by rw [List.length_map, List.length_zip, hlen, Nat.min_self], fun k p q hp hq => ?_⟩
    rw [List.getElem?_map, List.getElem?_zip_eq_some (z := (p, q)).2 ⟨hp, hq⟩, Option.map_some]
  case order =>
    intro x y hx hy
    cases h : lt x y with
    | false => exact .inl ⟨Fp.max2_of_not_lt h, Fp.le_of_not_lt hy hx h⟩
    | true => exact .inr ⟨Fp.max2_of_lt h, Fp.le_of_not_lt hx hy (Fp.lt_asymm h)⟩

end Sys2Proof.Machine

/-!
The selection of a token (03 R105, R106): ranking permutes the tokens, rank 0 weighs 2^149, and the draw stops at the smallest rank whose cumulative
weight exceeds the variate.
-/
namespace Sys2Proof.Machine

open Sys2Proof Fp

-- Ranks and kept weights

theorem rankInsert_perm (x : Nat × Fp) (l : List (Nat × Fp)) : (rankInsert x l).Perm (x :: l) := by
  induction l with
  | nil => exact .refl _
  | cons y l ih =>
    rw [rankInsert]
    split
    · exact .refl _
    · exact (ih.cons y).trans (.swap x y l)

theorem foldl_rankInsert_perm (l acc : List (Nat × Fp)) : (l.foldl (fun acc x => rankInsert x acc) acc).Perm (l ++ acc) := by
  induction l generalizing acc with
  | nil => exact .refl _
  | cons x l ih => exact (ih _).trans (((rankInsert_perm x acc).append_left l).trans List.perm_middle)

theorem rankAll_perm (l : List (Nat × Fp)) : (rankAll l).Perm l := by
  simpa only [rankAll, List.append_nil] using foldl_rankInsert_perm l []

/-- What stands at rank 0 is one of the logits. -/
theorem mem_of_rankAll_head {zs : List Fp} {t : Nat} {z : Fp} (h : (rankAll ((List.range zs.length).zip zs)).head? = some (t, z)) : z ∈ zs :=
  (List.of_mem_zip ((rankAll_perm _).mem_iff.1 (List.mem_of_head? h))).2

/-- The prefix of top-p keeps rank 0. -/
theorem topPrefix_head? (p : Fp) (total acc : Nat) (ws : List (Nat × Nat)) : (topPrefix p total acc ws).head? = ws.head? := by
  cases ws with
  | nil => rfl
  | cons e l =>
    rw [topPrefix]
    split <;> rfl

theorem sub_self_fin (m e : Int) : sub (.fin m e) (.fin m e) = zero := by
  simp only [sub, neg, add, addFin, neg_mul, add_neg_cancel, if_true]

/-- EXP2(0) = 1 (R90), as an integer weight. -/
theorem weight149_exp2_zero : weight149 (exp2 zero) = 2 ^ 149 := by decide +kernel

/-- Rank 0 has the weight 1 (R106). -/
theorem weight149_rank_zero (m e : Int) : weight149 (exp2 (rnd32 (mul (rnd32 (sub (.fin m e) (.fin m e))) log2e))) = 2 ^ 149 := by
  have hzero : rnd32 (mul (rnd32 zero) log2e) = zero := by decide +kernel
  rw [sub_self_fin, hzero, weight149_exp2_zero]

-- The draw

/-- A draw that has passed the weight `acc` below the variate and has not reached the whole stops at the first rank that exceeds it. -/
theorem drawToken_smallest {us acc : Nat} {ws : List (Nat × Nat)} (hlow : 2 ^ 64 * acc ≤ us) (hhigh : us < 2 ^ 64 * (acc + (ws.map (·.2)).sum)) :
    ∃ r e, ws[r]? = some e ∧ drawToken us acc ws = some e.1 ∧ us < 2 ^ 64 * (acc + ((ws.take (r + 1)).map (·.2)).sum) ∧
      ∀ q, q < r → 2 ^ 64 * (acc + ((ws.take (q + 1)).map (·.2)).sum) ≤ us := by
  induction ws generalizing acc with
  | nil => exact absurd hhigh (Nat.not_lt.2 hlow)
  | cons e l ih =>
    by_cases hstop : us < 2 ^ 64 * (acc + e.2)
    · exact ⟨0, e, rfl, if_pos hstop, by simpa using hstop, fun q hq => absurd hq q.not_lt_zero⟩
    · obtain ⟨r, f, hget, hdraw, hover, hunder⟩ := ih (Nat.not_lt.1 hstop) (by simpa [Nat.add_assoc] using hhigh)
      refine ⟨r + 1, f, hget, (if_neg hstop).trans hdraw, by simpa [Nat.add_assoc] using hover, fun q hq => ?_⟩
      cases q with
      | zero => simpa using hstop
      | succ q => simpa [Nat.add_assoc] using hunder q (Nat.lt_of_succ_lt_succ hq)

/-- A variate of 64 bits reaches below the whole weight, so the draw from the start stops. -/
theorem drawToken_variate {u : Nat} {ws : List (Nat × Nat)} (hu : u < 2 ^ 64) (hpos : 0 < (ws.map (·.2)).sum) :
    ∃ r e, ws[r]? = some e ∧ drawToken (u * (ws.map (·.2)).sum) 0 ws = some e.1 ∧
      u * (ws.map (·.2)).sum < 2 ^ 64 * ((ws.take (r + 1)).map (·.2)).sum ∧
      ∀ q, q < r → 2 ^ 64 * ((ws.take (q + 1)).map (·.2)).sum ≤ u * (ws.map (·.2)).sum := by
  have h := drawToken_smallest (us := u * (ws.map (·.2)).sum) (acc := 0) (ws := ws) (Nat.zero_le _)
    (by rw [Nat.zero_add]; exact Nat.mul_lt_mul_of_pos_right hu hpos)
  simpa only [Nat.zero_add] using h

/-- A selection with a temperature draws from kept weights of which rank 0 has the first (R105, R106). -/
theorem chooseToken_draws {tau topP m : Fp} {topK u t : Nat} {zs : List Fp} (htau : tau.isZero = false)
    (hfinite : ((zs.map (overTemp tau)).any fun z => z.isNan || z == .inf false) = false)
    (hrank : (rankAll ((List.range (zs.map (overTemp tau)).length).zip (zs.map (overTemp tau)))).head? = some (t, m)) (hm : m ≠ .inf true) :
    ∃ ws : List (Nat × Nat), ws.head? = some (t, weight149 (exp2 (rnd32 (mul (rnd32 (sub m m)) log2e)))) ∧
      chooseToken tau topP topK u zs = drawToken (u * (ws.map (·.2)).sum) 0 ws := by
  obtain ⟨l, hl⟩ := List.head?_eq_some_iff.1 hrank
  simp only [chooseToken, htau, hfinite, hl, hm, Bool.false_eq_true, if_false, ← List.sum_eq_foldl_nat]
  refine ⟨_, ?_, rfl⟩
  have htake : (if topK = 0 then (t, m) :: l else ((t, m) :: l).take topK).head? = some (t, m) := by
    split
    · rfl
    · next h => rw [List.head?_take, if_neg h, List.head?_cons]
  split
  · rw [List.head?_map, htake, Option.map_some]
  · rw [topPrefix_head?, List.head?_map, htake, Option.map_some]

/-- Settles O54: the draw by `drawToken_variate`; a selection reaches it with rank 0's weight of 2^149 among the kept ones. -/
theorem tokenDraw : Obligations.TokenDraw := by
  unfold Obligations.TokenDraw
  refine ⟨fun ws u hu hpos => drawToken_variate hu hpos, weight149_rank_zero, ?always⟩
  intro tau topP z topK u t zs htau hu hfinite hrank hz
  obtain ⟨ws, hhead, hchoose⟩ := chooseToken_draws (topP := topP) (topK := topK) (u := u) htau hfinite hrank hz
  have hnot : ¬ (z.isNan || z == .inf false) = true := List.any_eq_false.1 hfinite z (mem_of_rankAll_head hrank)
  obtain ⟨m, e, rfl⟩ : ∃ m e, z = .fin m e := by
    cases z with
    | nan => exact absurd rfl hnot
    | inf neg => cases neg <;> contradiction
    | fin m e => exact ⟨m, e, rfl⟩
  rw [weight149_rank_zero] at hhead
  obtain ⟨l, rfl⟩ := List.head?_eq_some_iff.1 hhead
  have hpos : 0 < (((t, 2 ^ 149) :: l).map (·.2)).sum := by
    rw [List.map_cons, List.sum_cons]
    exact Nat.add_pos_left (Nat.two_pow_pos 149) _
  obtain ⟨r, e, _, hdraw, _⟩ := drawToken_variate hu hpos
  rw [hchoose, hdraw, Option.isSome_some]

end Sys2Proof.Machine

/-!
The page directory's expert operations (04 R143, 16 R517) by the three outcomes of `pageOp` and those of `readMap`, and the end of a recovery
read (04 R142): what the read makes of the page, then what the grant of its expander lets it do.
-/
namespace Sys2Proof.Machine

open Sys2Proof

/-- The page directory stands in no register. -/
@[simp] theorem rec?_setF (s : State) (f : Fld) (v h : Nat) : (s.setF f v).rec? h = s.rec? h := rfl

-- Operations on a page handle

theorem exec_tmgReadRecord (via h : Nat) (s : State) :
    exec (.tmgReadRecord via h) s = .next (countIo via (pageOp 1 via h (fun r => showBytes Reg.tmgPageRecData 4 (recBytes r)) s)) := rfl

theorem exec_tmgReadHeader (via h : Nat) (s : State) : exec (.tmgReadHeader via h) s = execTmgReadHeader via h s := rfl

theorem exec_markRecovery (via h : Nat) (s : State) :
    exec (.markRecovery via h) s = .next (countIo via (live (pageOp 3 via h fun _ => startRecovery h) s)) := rfl

section PageOp

variable {op via h : Nat} {act : PageRec → State → State} {s : State}

theorem pageOp_closed (hopen : s.expertOpen pTmg via = false) : pageOp op via h act s = s :=
  if_pos (by rw [hopen]; rfl)

theorem pageOp_noPage (hopen : s.expertOpen pTmg via = true) (hrec : s.rec? h = none) :
    pageOp op via h act s = ((s.setF Reg.tmgPageOpHandle h).setF Reg.tmgPageOpOp op).setF Reg.tmgPageOpStatStatus 1 := by
  simp [pageOp, hopen, hrec]

theorem pageOp_page {r : PageRec} (hopen : s.expertOpen pTmg via = true) (hrec : s.rec? h = some r)
    (hobj : ((s.setF Reg.tmgPageOpHandle h).setF Reg.tmgPageOpOp op).expertObject pTmg via r.part = true) :
    pageOp op via h act s = act r (((s.setF Reg.tmgPageOpHandle h).setF Reg.tmgPageOpOp op).setF Reg.tmgPageOpStatStatus 0) := by
  simp [pageOp, hopen, hrec, hobj]

end PageOp

-- READ_MAP

theorem exec_readMap (via i layer page : Nat) (s : State) : exec (.readMap via i layer page) s = .next (countIo via (readMap via i layer page s)) := rfl

section ReadMap

variable {via i layer page : Nat} {s : State}

theorem readMap_closed (hopen : s.expertOpen pTmg via = false) : readMap via i layer page s = s :=
  if_pos (by rw [hopen]; rfl)

theorem readMap_noSession (hopen : s.expertOpen pTmg via = true) (hx : tget s.ssq.sessions i = none) :
    readMap via i layer page s =
      ((((s.setF Reg.tmgMapArgSession i).setF Reg.tmgMapArgLayer layer).setF Reg.tmgMapArgPage page).setF Reg.tmgPageOpOp 4).setF
        Reg.tmgPageOpStatStatus 3 := by
  simp [readMap, hopen, hx]

theorem readMap_mapped {x : Session} {h : Nat} (hopen : s.expertOpen pTmg via = true) (hx : tget s.ssq.sessions i = some x)
    (hpage : x.page layer page = some h)
    (hobj : ((((s.setF Reg.tmgMapArgSession i).setF Reg.tmgMapArgLayer layer).setF Reg.tmgMapArgPage page).setF
      Reg.tmgPageOpOp 4).expertObject pTmg via x.part = true) :
    readMap via i layer page s =
      (((((s.setF Reg.tmgMapArgSession i).setF Reg.tmgMapArgLayer layer).setF Reg.tmgMapArgPage page).setF Reg.tmgPageOpOp 4).setF
        Reg.tmgPageOpHandle h).setF Reg.tmgPageOpStatStatus 0 := by
  simp [readMap, hopen, hx, hpage, hobj]

end ReadMap

-- The end of a recovery read

theorem exec_recoveryReadDone (h : Nat) (failed : Bool) (s : State) :
    exec (.recoveryReadDone h failed) s = .next (live (recovered h failed) s) := rfl

section RecoveryRead

variable {h : Nat} {r : PageRec} {s : State}

theorem recoveryRead_failed (hr : s.rec? h = some r) (hrecovery : r.recovery = true) : recoveryRead h true s = markLost h s := by
  simp [recoveryRead, hr, hrecovery]

/-- A lower copy that reads well goes into the slot that is found on the page's own tier. -/
theorem recoveryRead_lowerCopy {a : Nat} {u : State} (hr : s.rec? h = some r) (hrecovery : r.recovery = true) (hlower : r.lowerValid = true)
    (hup : s.tierUp r.lowerTier = true) (hread : expanderRead {} h r r.lowerTier r.lowerBase s = (u, true))
    (hslot : allocSlot u r.part r.tier r.slot4k ((r.layer + r.page + stackIndex u h) % 8) = some a) :
    recoveryRead h false s = retryRecovery r.part (recoverInto h r (slotBytes u r.lowerTier r.lowerBase r.slot4k) r.tier a u) := by
  simp [recoveryRead, hr, hrecovery, hlower, hup, hread, hslot]

theorem recovered_notInRecovery {failed : Bool} (hr : s.rec? h = some r) (hrecovery : r.recovery = false) : recovered h failed s = s := by
  simp [recovered, hr, hrecovery]

/-- A failed read needs no expander. -/
theorem recovered_failed (hr : s.rec? h = some r) (hrecovery : r.recovery = true) : recovered h true s = recoveryDone h true r s := by
  simp [recovered, hr, hrecovery]

/-- 09 R290: the read of a lower copy is done once its expander is granted. -/
theorem recovered_granted {v : State} (hr : s.rec? h = some r) (hrecovery : r.recovery = true) (hlower : r.lowerValid = true)
    (hup : s.tierUp r.lowerTier = true) (htest : underTest s (expanderUnit s r.lowerTier r.lowerBase) = false)
    (htake : takeExpander (expanderInst s r.lowerTier r.lowerBase) (r.slot4k * 4096) (recoveryRequester s h r) (recoveryKey h) s = (v, true)) :
    recovered h false s = recoveryDone h false r v := by
  simp [recovered, hr, hrecovery, hlower, hup, htest, htake]

end RecoveryRead

/-- Settles O34: each operation by its outcome of `pageOp` or `readMap`, and RECOVERY_READ_DONE by `recovered` and the read that it lets through. -/
theorem expertPageOperations : Obligations.ExpertPageOperations := by
  unfold Obligations.ExpertPageOperations
  refine ⟨?record, ?header, ?mark, ?noPage, ?map, ?noMap, ?closed, ?failed, ?passed, ?notInRecovery⟩
  case record =>
    intro via h r s hopen hrec hobj
    rw [exec_tmgReadRecord, pageOp_page hopen hrec hobj]
  case header =>
    intro via h r s hopen hrec hobj
    rw [exec_tmgReadHeader, execTmgReadHeader, pageOp_page hopen hrec hobj]
    constructor <;> intro hup <;> simp only [hup, if_true, Bool.false_eq_true, if_false]
  case mark =>
    intro via h r s hlive hopen hrec hobj
    rw [exec_markRecovery, live_of_running hlive, pageOp_page hopen hrec hobj]
  case noPage =>
    intro via h s hlive hopen hrec
    rw [exec_tmgReadRecord, exec_tmgReadHeader, execTmgReadHeader, exec_markRecovery, live_of_running hlive]
    simp only [pageOp_noPage hopen hrec, and_self]
  case map =>
    intro via i layer page h x s hopen hx hpage hobj
    rw [exec_readMap, readMap_mapped hopen hx hpage hobj]
  case noMap =>
    intro via i layer page s hopen hx
    rw [exec_readMap, readMap_noSession hopen hx]
  case closed =>
    intro via h i layer page s hopen
    rw [exec_tmgReadRecord, exec_tmgReadHeader, execTmgReadHeader, exec_markRecovery, exec_readMap, live_of_eq (pageOp_closed hopen)]
    simp only [pageOp_closed hopen, readMap_closed hopen, and_self]
  case failed =>
    intro h r s hlive hr hrecovery
    rw [exec_recoveryReadDone, live_of_running hlive, recovered_failed hr hrecovery, recoveryDone, recoveryRead_failed hr hrecovery]
  case passed =>
    intro h a r s v u hlive hr hrecovery hlower hup htest htake hrv hupv hread hslot
    rw [exec_recoveryReadDone, live_of_running hlive, recovered_granted hr hrecovery hlower hup htest htake, recoveryDone,
      recoveryRead_lowerCopy hrv hrecovery hlower hupv hread hslot]
  case notInRecovery =>
    intro h failed r s hr hrecovery
    rw [exec_recoveryReadDone, live_of_eq (recovered_notInRecovery hr hrecovery)]

end Sys2Proof.Machine

/-!
The attaching and detaching of wheels (05 R150, 06 R185, 08 R271, R272, 11 R364, 16 R530): what the checks refuse, what the read of the images ends,
and what an attachment leaves.
-/
namespace Sys2Proof.Machine

open Sys2Proof

theorem exec_wheelAttach (c : Cmd) (s : State) : exec (.wheelAttach c) s = .next (hostCmd 0x0207 c (wheelAttach c) s) := rfl
theorem exec_wheelDetach (c : Cmd) (s : State) : exec (.wheelDetach c) s = .next (hostCmd 0x0208 c (wheelDetach c) s) := rfl

-- WHEEL_ATTACH

/-- The lead that a WHEEL_ATTACH asks for: the one in its ARGS, or 2 (05 R150). -/
def attachLead (c : Cmd) : Nat := if bit (c.arg 8 1) 7 then bits (c.arg 8 1) 0 4 else 2

/-- The window lines that the images of an attachment stand in (12 R398). -/
def attachLines (c : Cmd) (m : Model) (s : State) : List Nat :=
  ((attachImages s m (attachLead c)).map fun i => s.directLines c.part 1 i.1 i.2).flatten

/-- The SYSTEM region of a wheel's inlet ring (11 R364). -/
def inletRegion (n : Nat) (b : List Byte) (m : Model) : Region :=
  { tag := 0, part := n, system := true, kind := 0, rights := 2, base := fieldAt b 8 8, tier := 0, length := fieldAt b 0x10 4 * m.inletStride, source := 2 ^ 31 }

/-- The SYSTEM region of a wheel's trigger (11 R364). -/
def triggerRegion (n w : Nat) (b : List Byte) : Region :=
  { tag := 0, part := n, system := true, kind := 2, rights := 16, base := fieldAt b 0x34 4, source := 2 ^ 31, wheel := some w }

/-- A wheel as its exchange descriptor gives it, with the keys of its regions, at the position before STEP_BASE (02 R50, 05 R150, log 67). -/
def attachedWheel (c : Cmd) (b : List Byte) (m : Model) (inletKey triggerKey : Nat) : Wheel :=
  let base := (fieldAt b 4 4 + 2 ^ 32 - 1) % 2 ^ 32
  { part := c.part, model := m.id, accels := (List.range (c.arg 9 1)).map fun i => fieldAt b (128 + 4 * i) 4, lead := attachLead c,
    stepBase := fieldAt b 4 4, inletBase := fieldAt b 8 8, inletSlots := fieldAt b 0x10 4, outletSlots := fieldAt b 0x14 4, node := fieldAt b 0x18 4,
    outletKey := fieldAt b 0x1C 4, outletAddr := fieldAt b 0x20 8, rosterAddr := fieldAt b 0x28 8, rosterSlots := fieldAt b 0x30 4,
    triggerTag := fieldAt b 0x34 4, outletCtr := fieldAt b 0x38 8, rosterCtr := fieldAt b 0x40 8, triggerKey := triggerKey, inletKey := inletKey,
    lastStep := base, lastLayer := m.layers - 1, antStep := base, antLayer := m.layers - 1, committed := base }

section Attach

variable {c : Cmd} {m : Model} {s u : State} {st : Status}

theorem wheelAttach_refused (hok : attachOk c (c.buffer s) = true) (hm : s.model? c.part (c.arg 0 8) = some m)
    (hcheck : attachCheck s (c.buffer s) m (attachLead c) = some st) : wheelAttach c s = .fail st := by
  unfold attachLead at hcheck
  simp only [wheelAttach, hok, need_true, hm, hcheck]

/-- A well formed WHEEL_ATTACH of a binding passes its checks, and the window lines of its images are ready. -/
structure AttachReady (c : Cmd) (m : Model) (s : State) : Prop where
  ok : attachOk c (c.buffer s) = true
  model : s.model? c.part (c.arg 0 8) = some m
  check : attachCheck s (c.buffer s) m (attachLead c) = none
  lines : beginAccess (.command 0x0207 c) (attachLines c m s) false s = none

/-- An image that fails to read ends the command, with what its read reported (13 R431, log 36). -/
theorem AttachReady.unreadable (h : AttachReady c m s) (hread : readImages c.part (attachImages s m (attachLead c)) s = (u, some st)) :
    wheelAttach c s = .done u { status := st } := by
  obtain ⟨hok, hm, hcheck, hlines⟩ := h
  unfold attachLines at hlines
  unfold attachLead at hread hcheck hlines
  simp only [wheelAttach, hok, need_true, hm, hcheck, hlines, hread]

/-- An attachment registers the two regions, keeps the wheel and places its areas. -/
theorem AttachReady.attaches {w ri rt : Nat} {tb : Tail} (h : AttachReady c m s)
    (hread : readImages c.part (attachImages s m (attachLead c)) s = (u, none)) (hfree : freeWheel u = some w)
    (htail : u.tail? c.part m.tailId = some tb) (hregions : twoRegions u c.part = some (ri, rt)) :
    let s₁ := addRegion ri (inletRegion c.part (c.buffer s) m) u
    let s₂ := addRegion rt (triggerRegion c.part w (c.buffer s)) s₁.1
    wheelAttach c s = .done
      (clearWheelRegs w (putWheel w (attachedWheel c (c.buffer s) m s₁.2 s₂.2)
        (s₂.1.setTmg { s₂.1.tmg with areas := s₂.1.tmg.areas ++ newAreas s₂.1 m tb w (attachLead c) })))
      { result0 := s₂.2 + s₁.2 * 2 ^ 32, result1 := w } := by
  obtain ⟨hok, hm, hcheck, hlines⟩ := h
  unfold attachLines at hlines
  unfold attachLead at hread hcheck hlines
  simp only [wheelAttach, hok, need_true, hm, hcheck, hlines, hread, hfree, htail, hregions]
  rfl

end Attach

-- WHEEL_DETACH

section Detach

variable {c : Cmd} {x : Wheel} {s : State}

theorem wheelDetach_absent (hargs : c.argsOk [(0, 2)] = true) (hlen : c.dlen = 0) (hw : s.wheel? (c.arg 0 2) = none) :
    wheelDetach c s = .fail .noWheel := by
  simp [wheelDetach, hargs, hlen, hw]

/-- A wheel of the command's partition goes unless a turn names it (02 R72). -/
theorem wheelDetach_own (hargs : c.argsOk [(0, 2)] = true) (hlen : c.dlen = 0) (hw : s.wheel? (c.arg 0 2) = some x) (hpart : x.part = c.part) :
    wheelDetach c s = need (!(s.ssq.turns.any fun t => t.wheel == c.arg 0 2)) .sessionBusy (.done (dropWheel (c.arg 0 2) s) {}) := by
  simp [wheelDetach, hargs, hlen, hw, hpart]

end Detach

/-- Settles O11: WHEEL_ATTACH by its check and the read of its images (`AttachReady`), WHEEL_DETACH by the wheel that it names. -/
theorem wheelAttachAndDetach : Obligations.WheelAttachAndDetach := by
  unfold Obligations.WheelAttachAndDetach
  refine ⟨?attach, ?unreadable, ?refused, ?detach, ?busy, ?absent⟩
  case attach =>
    intro c m w ri rt tb s u ha hok hm hcheck hlines hread hfree htail hregions
    have h : AttachReady c m s := ⟨hok, hm, hcheck, hlines⟩
    exact (exec_wheelAttach c s).trans (congrArg _ (hostCmd_done ha (h.attaches hread hfree htail hregions)))
  case unreadable =>
    intro c m st s u ha hok hm hcheck hlines hread
    have h : AttachReady c m s := ⟨hok, hm, hcheck, hlines⟩
    exact (exec_wheelAttach c s).trans (congrArg _ (hostCmd_done ha (h.unreadable hread)))
  case refused =>
    intro c m st s ha hok hm hcheck
    exact (exec_wheelAttach c s).trans (congrArg _ (hostCmd_fail ha (wheelAttach_refused hok hm hcheck)))
  case detach =>
    intro c x s ha hargs hlen hw hpart hidle
    rw [exec_wheelDetach, hostCmd_done ha]
    rw [wheelDetach_own hargs hlen hw hpart, hidle, Bool.not_false, need_true]
  case busy =>
    intro c x s ha hargs hlen hw hpart hturn
    rw [exec_wheelDetach, hostCmd_fail ha]
    rw [wheelDetach_own hargs hlen hw hpart, hturn, Bool.not_true, need_false]
  case absent =>
    intro c s ha hargs hlen hw
    rw [exec_wheelDetach, hostCmd_fail ha (wheelDetach_absent hargs hlen hw)]

end Sys2Proof.Machine

/-!
A page at its expander: the grant that an idle arbiter gives to the only transfer presented (09 R290, R294), and the expander's verdict on a
page (04 R124, R125, 13 R431).
-/
namespace Sys2Proof.Machine

open Sys2Proof

-- The clocks of the arrays

theorem clocked_of_running {s : State} (h : Clocked s) (f : State → State) : clocked f s = f s := by
  rw [clocked, live_of_running h.1, if_neg h.2]

/-- What leaves the state while the clocks run leaves it always. -/
theorem clocked_of_eq {s : State} {f : State → State} (h : f s = s) : clocked f s = s :=
  live_of_eq (by rw [h, ite_self])

-- A Sluice arbiter's record

@[simp] theorem slu?_setSlu (s : State) (i : Nat) (v : SluInst) : (s.setSlu i v).slu? i = v := by
  rw [State.slu?, tgetD, State.setSlu, tget_tset]
  rfl

@[simp] theorem slu?_bump (s : State) (o i : Nat) : (s.bump o).slu? i = s.slu? i := rfl

section Idle

variable {i : Nat} {s : State}

/-- An arbiter that holds nothing has nothing to purge. -/
theorem slu?_sluPurge_idle (hqueues : (s.slu? i).queues = []) (hcur : (s.slu? i).current = none) : (sluPurge i s).slu? i = s.slu? i := by
  rw [sluPurge, slu?_setSlu, hqueues, hcur, List.map_nil, List.filter_nil, Option.filter_none, ← hqueues, ← hcur]

theorem slu?_sluQueue_idle {r : Nat} {l : List SluReq} (hqueues : (s.slu? i).queues = []) :
    (sluQueue i r l s).slu? i = { s.slu? i with queues := [(r, l)] } := by
  rw [sluQueue, slu?_setSlu, hqueues]
  rfl

end Idle

-- The decision between one requester and none

/-- An arbiter of the memory paths or expanders, in service for all requesters, at which one urgent requester waits, with one transfer and
short of its wait limit. -/
structure SoleUrgent (i r : Nat) (q : SluReq) (s : State) : Prop where
  path : i < 53
  urgent : r < 16
  queues : (s.slu? i).queues = [(r, [q])]
  quar : (s.slu? i).quar = []
  every : (sluCtrl s i).2.2.2.1 = 0
  short : (s.slu? i).wait r < sluLimit s i r

section SoleUrgent

variable {i r : Nat} {q : SluReq} {s : State}

theorem SoleUrgent.head (h : SoleUrgent i r q s) (n : Nat) : sluHead s i n = if n = r then some q else none := by
  rw [sluHead, if_pos (show i < firstEgress from h.path), h.queues, tgetD, tget, tget]
  by_cases hn : n = r
  · rw [if_pos hn, if_pos hn.symm]
    rfl
  · rw [if_neg hn, if_neg (Ne.symm hn)]
    rfl

/-- Among all requesters the urgent one alone is live. -/
theorem SoleUrgent.live (h : SoleUrgent i r q s) :
    ((List.range sluRequesters).filter fun n => (sluHead s i n).isSome && (tget (s.slu? i).quar n).isNone) = [r] := by
  have hrange : ∀ r < 16, (List.range sluRequesters).filter (fun n => decide (n = r)) = [r] := by decide
  rw [← hrange r h.urgent]
  refine List.filter_congr fun n _ => ?_
  rw [h.head, h.quar]
  by_cases hn : n = r <;> simp [hn, tget]

/-- The decision grants the transfer and charges its requester (09 R293, R294). -/
theorem SoleUrgent.decides (h : SoleUrgent i r q s) :
    ((sluDecide i s).slu? i).current = some ⟨r, q, false⟩ ∧
      ((sluDecide i s).slu? i).credit r = max ((s.slu? i).credit r - sluUnits q.bytes) (-2 ^ 31) := by
  have hlow : [r].filter (fun n => decide (n < 16)) = [r] := by simp [h.urgent]
  have hhigh : [r].filter (fun n => decide (16 ≤ n)) = [] := by simp [h.urgent]
  have hpop : (sluPop i r s).slu? i = { s.slu? i with queues := [(r, [])] } := by
    rw [sluPop, if_pos (show i < firstEgress from h.path), slu?_setSlu, h.queues]
    simp [tset, tgetD, tget]
  simp only [sluDecide, h.live, h.every, hlow, hhigh, argMax]
  simp [h.head, hpop, h.short, h.urgent, SluInst.credit, tgetD, tget_tset]

end SoleUrgent

/-- A page presented at an idle expander is granted at once, charged, and given back as finished (09 R290, R294). -/
theorem takeExpander_idle {i bytes part : Nat} {k : Nat × Nat × Nat} {s : State} (hi : i < 53) (hpart : part < 16)
    (hqueues : (s.slu? i).queues = []) (hquar : (s.slu? i).quar = []) (hcur : (s.slu? i).current = none) (hevery : (sluCtrl s i).2.2.2.1 = 0)
    (hshort : (s.slu? i).wait part < sluLimit s i part) :
    (takeExpander i bytes part k s).2 = true ∧ ((takeExpander i bytes part k s).1.slu? i).current = none ∧
      ((takeExpander i bytes part k s).1.slu? i).credit part = max ((s.slu? i).credit part - sluUnits bytes) (-2 ^ 31) := by
  have hpurge := slu?_sluPurge_idle hqueues hcur
  have hqueue := slu?_sluQueue_idle (r := part) (l := [{ bytes := bytes, page := some k }]) (s := sluPurge i s) (by rw [hpurge, hqueues])
  rw [hpurge] at hqueue
  have hsole : SoleUrgent i part { bytes := bytes, page := some k } (sluQueue i part [{ bytes := bytes, page := some k }] (sluPurge i s)) := by
    refine ⟨hi, hpart, by rw [hqueue], by rw [hqueue]; exact hquar, ?_, by rw [hqueue]; exact hshort⟩
    rw [sluCtrl, hqueue]
    exact hevery
  obtain ⟨hgrant, hcredit⟩ := hsole.decides
  rw [hqueue] at hcredit
  have htake : takeExpander i bytes part k s =
      ((sluDecide i (sluQueue i part [{ bytes := bytes, page := some k }] (sluPurge i s))).setSlu i
        { (sluDecide i (sluQueue i part [{ bytes := bytes, page := some k }] (sluPurge i s))).slu? i with current := none }, true) := by
    simp [takeExpander, hpurge, hqueues, hcur, hqueue, hgrant]
  rw [htake, slu?_setSlu]
  exact ⟨rfl, rfl, hcredit⟩

-- The verdict of a read

/-- An expander passes a page whose units' tags hold and which its checks find whole. -/
theorem expanderRead_snd (who : Met) (h : Nat) (r : PageRec) (tier base : Nat) (s : State) :
    (expanderRead who h r tier base s).2 =
      ((slotBad s r.part tier base r.slot4k).isEmpty && (expanderCheck r.geom r.facts (slotBytes s tier base r.slot4k)).isNone) := by
  unfold expanderRead
  cases hbad : (slotBad s r.part tier base r.slot4k).isEmpty with
  | false => simp [hbad]
  | true =>
    cases hcheck : expanderCheck r.geom r.facts (slotBytes s tier base r.slot4k) with
    | none => simp [hbad, hcheck]
    | some e => simp [hbad, hcheck]

/-- A frame that names no tier's memory keeps the bytes of every slot. -/
theorem Keep.slotBytes {k : Nat} {s t : State} (h : Keep k s t) (h0 : k.testBit 5 = false) (h1 : k.testBit 6 = false) (h2 : k.testBit 7 = false)
    (h3 : k.testBit 8 = false) (tier base units : Nat) : slotBytes t tier base units = slotBytes s tier base units := by
  have htier : t.tier tier = s.tier tier := by
    unfold State.tier
    rw [h.t0 h0, h.t1 h1, h.t2 h2, h.t3 h3]
  rw [Machine.slotBytes, htier, Machine.slotBytes]

end Sys2Proof.Machine

/-!
The dealing of gangs (05 R166, R169), the delivery of their pages (04 R124-R126, 05 R168), and the items that leave their arrays (05 R158,
R161-R167, 06 R190, R191). A logits item works for each part of its order of acceptance with that part's own hidden states, which O47's last clause
does not say.
-/
namespace Sys2Proof.Machine

open Sys2Proof

-- GANG_DEAL

theorem exec_gangDeal (n : Nat) (s : State) : exec (.gangDeal n) s = .next (clocked (gangDeal n) s) := rfl

theorem exec_gangDeal_nothing {n : Nat} {s : State} (h : pickGang (dealList s n) = none) : exec (.gangDeal n) s = .next s := by
  rw [exec_gangDeal, clocked_of_eq (by simp only [gangDeal, h])]

/-- The arrays run, and the gang that is dealt next stands in a part of an attached wheel whose model is bound, with none before it in the deal
list passed over. -/
structure Dealt (n : Nat) (d : DealRef) (x : Wheel) (m : Model) (p : LayerPart) (s : State) : Prop where
  clocked : Clocked s
  pick : pickGang (dealList s n) = some (d, [])
  wheel : s.wheel? d.wheel = some x
  part : x.parts.find? (·.stamp == d.stamp) = some p
  model : s.model? x.part x.model = some m

/-- Pages of a gang that its wheel has not pinned yet (04 R133). -/
def newPins (s : State) (x : Wheel) (m : Model) (p : LayerPart) (g : Nat) : List Nat :=
  (gangPages s x m p g).filter fun h => !x.pins.contains h

/-- A part with a gang dealt: its pages to read, twice in latent mode (05 R167), and its items with arrays. -/
def dealtPart (d : DealRef) (m : Model) (pages : List Nat) (p : LayerPart) : LayerPart :=
  { modGang d.gang (fun g => { g with dealt := true, toRead := if m.geom.latent then pages ++ pages else pages }) p with
    items := giveArrays d.gang d.arrays p.items }

section Deal

variable {n : Nat} {d : DealRef} {x : Wheel} {m : Model} {p : LayerPart} {s : State}

/-- A gang whose pages all grant their pin is dealt. -/
theorem Dealt.pins (h : Dealt n d x m p s) (hpins : (newPins s x m p d.gang).find? (fun h => (addPin h s).isNone) = none) :
    exec (.gangDeal n) s = .next ((loadArrays x m { p with items := giveArrays d.gang d.arrays p.items } d.gang
      (modPart d.wheel d.stamp (dealtPart d m (gangPages s x m p d.gang))
        (modWheel d.wheel (fun z => { z with pins := z.pins ++ newPins s x m p d.gang })
          ((newPins s x m p d.gang).foldl (fun s h => (addPin h s).getD s) s)))).bump (Ctr.mxgGangsDealt ((d.arrays.head?.getD 0) / 20))) := by
  obtain ⟨hc, hpick, hw, hp, hm⟩ := h
  unfold newPins at hpins
  rw [exec_gangDeal, clocked_of_running hc]
  simp only [gangDeal, hpick, List.foldl_nil, hw, hp, hm, hpins]
  rfl

/-- A page in recovery or lost, or gone, grants no pin, and the turns that name it end (04 R135, R142). -/
theorem Dealt.denied {h : Nat} (hd : Dealt n d x m p s) (hpins : (newPins s x m p d.gang).find? (fun h => (addPin h s).isNone) = some h)
    (hbad : ((s.rec? h).map fun r => !r.recovery && !r.lost).getD false = false) :
    exec (.gangDeal n) s = .next (endTurns (sessionsOf s (namersOf s x m p d.gang h)) .pageCorrupt s) := by
  obtain ⟨hc, hpick, hw, hp, hm⟩ := hd
  unfold newPins at hpins
  rw [exec_gangDeal, clocked_of_running hc]
  simp only [gangDeal, hpick, List.foldl_nil, hw, hp, hm, hpins, hbad, Bool.false_eq_true, if_false]

end Deal

-- EXPANDER_DECODE

theorem exec_expanderDecode (w st g : Nat) (s : State) : exec (.expanderDecode w st g) s = .next (clocked (expanderDecode w st g) s) := rfl

section Decode

variable {w st g h : Nat} {x : Wheel} {m : Model} {p : LayerPart} {r : PageRec} {s u : State}

theorem exec_expanderDecode_nothing (hw : s.wheel? w = some x) (hp : x.parts.find? (·.stamp == st) = some p)
    (hread : (p.gangs[g]?).map (·.toRead) = some [] ∨ p.gangs[g]? = none) : exec (.expanderDecode w st g) s = .next s := by
  have hhead : (p.gangs[g]?).bind (·.toRead.head?) = none := by
    rcases hread with hempty | hnone
    · obtain ⟨k, hk, hk0⟩ := Option.map_eq_some_iff.1 hempty
      rw [hk, Option.bind_some, hk0, List.head?_nil]
    · rw [hnone, Option.bind_none]
  rw [exec_expanderDecode, clocked_of_eq (by simp only [expanderDecode, hw, Option.map_some, hp, Option.bind_some, hhead])]

/-- What a gang presents next, as EXPANDER_DECODE finds it. -/
theorem stream_head (hw : s.wheel? w = some x) (hp : x.parts.find? (·.stamp == st) = some p)
    (hhead : (p.gangs[g]?).map (·.toRead.head?) = some (some h)) :
    (s.wheel? w).map (fun x => (x.part, ((x.parts.find? (·.stamp == st)).bind fun p => p.gangs[g]?).bind (·.toRead.head?))) = some (x.part, some h) := by
  obtain ⟨k, hk, hk0⟩ := Option.map_eq_some_iff.1 hhead
  rw [hw, Option.map_some, hp, Option.bind_some, hk, Option.bind_some, hk0]

/-- While an expander is under test its reads wait (14 R453). -/
theorem exec_expanderDecode_underTest (hw : s.wheel? w = some x) (hp : x.parts.find? (·.stamp == st) = some p)
    (hhead : (p.gangs[g]?).map (·.toRead.head?) = some (some h)) (hr : s.rec? h = some r)
    (htest : underTest s (expanderUnit s r.tier r.base) = true) : exec (.expanderDecode w st g) s = .next s := by
  rw [exec_expanderDecode, clocked_of_eq (by simp only [expanderDecode, stream_head hw hp hhead, hr, htest, if_true])]

/-- A page that the Sluice grants is decoded; one that it does not grant waits (09 R290). -/
theorem exec_expanderDecode_presents {granted : Bool} (hc : Clocked s) (hw : s.wheel? w = some x) (hp : x.parts.find? (·.stamp == st) = some p)
    (hhead : (p.gangs[g]?).map (·.toRead.head?) = some (some h)) (hr : s.rec? h = some r)
    (htest : underTest s (expanderUnit s r.tier r.base) = false)
    (htake : takeExpander (expanderInst s r.tier r.base) (r.slot4k * 4096) x.part (w, st, g) s = (u, granted)) :
    exec (.expanderDecode w st g) s = .next (if granted then decodePage w st g u else u) := by
  rw [exec_expanderDecode, clocked_of_running hc]
  simp only [expanderDecode, stream_head hw hp hhead, hr, htest, Bool.false_eq_true, if_false, htake]
  cases granted <;> rfl

/-- Page `h` is next in the stream of a gang of a part, on a wheel whose model is bound. -/
structure NextPage (w st g h : Nat) (rest : List Nat) (x : Wheel) (m : Model) (p : LayerPart) (s : State) : Prop where
  wheel : s.wheel? w = some x
  part : x.parts.find? (·.stamp == st) = some p
  model : s.model? x.part x.model = some m
  stream : (p.gangs[g]?).map (·.toRead) = some (h :: rest)

/-- The state with the pages `rest` left in a gang's stream. -/
def streamLeft (w st g : Nat) (rest : List Nat) (s : State) : State := modPart w st (modGang g fun k => { k with toRead := rest }) s

/-- The state in which an expander reads a page: the page is off the stream, its takers hold credits (05 R168), and the steps that name it note
the page and its expander (14 R465). -/
def beforeRead (w st g h : Nat) (rest : List Nat) (p : LayerPart) (turns : List Nat) (r : PageRec) (s : State) : State :=
  let u := awaitCredits r.geom ((takers p g turns).map (·.1)) (streamLeft w st g rest s)
  noteUsed (sessionsOf u turns) [(0, h), (4, (expanderOf u r.tier r.base).1 * 16 + (expanderOf u r.tier r.base).2.2.2)] u

/-- What happens before the read leaves the memories. -/
theorem slotBytes_beforeRead (rest turns : List Nat) (tier base units : Nat) :
    slotBytes (beforeRead w st g h rest p turns r s) tier base units = slotBytes s tier base units := by
  rw [beforeRead, (noteUsed_keep ..).slotBytes rfl rfl rfl rfl, (awaitCredits_keep ..).slotBytes rfl rfl rfl rfl]
  exact (modPart_keep ..).slotBytes rfl rfl rfl rfl tier base units

variable {rest : List Nat}

theorem NextPage.head (hn : NextPage w st g h rest x m p s) : (p.gangs[g]?).map (·.toRead.head?) = some (some h) := by
  obtain ⟨k, hk, hk0⟩ := Option.map_eq_some_iff.1 hn.stream
  rw [hk, Option.map_some, hk0, List.head?_cons]

/-- A page without a record is not presented, and leaves the stream. -/
theorem NextPage.noRecord (hn : NextPage w st g h rest x m p s) (hc : Clocked s) (hr : s.rec? h = none) :
    exec (.expanderDecode w st g) s = .next (streamLeft w st g rest s) := by
  have hdecode : expanderDecode w st g s = decodePage w st g s := by
    simp only [expanderDecode, stream_head hn.wheel hn.part hn.head, hr]
  obtain ⟨hw, hp, hm, hstream⟩ := hn
  rw [exec_expanderDecode, clocked_of_running hc, hdecode]
  simp only [decodePage, hw, hp, hm, hstream, hr]
  rfl

/-- A page in recovery or lost is not read, and the turns that name it end (04 R142). -/
theorem NextPage.unread (hn : NextPage w st g h rest x m p s) (hr : s.rec? h = some r) (hbad : r.recovery = true ∨ r.lost = true) :
    decodePage w st g s = endTurns (sessionsOf (streamLeft w st g rest s) (namersOf s x m p g h)) .pageCorrupt (streamLeft w st g rest s) := by
  obtain ⟨hw, hp, hm, hstream⟩ := hn
  simp only [decodePage, hw, hp, hm, hstream, hr, hbad, if_true]
  rfl

/-- The read of the next page. -/
def nextRead (w st g h : Nat) (rest : List Nat) (x : Wheel) (m : Model) (p : LayerPart) (r : PageRec) (s : State) : State × Bool :=
  let z := beforeRead w st g h rest p (namersOf s x m p g h) r s
  expanderRead (metBy (sessionsOf z (namersOf s x m p g h)) w) h r r.tier r.base z

/-- A page that fails its read goes to recovery, and the turns that name it end (04 R126). -/
theorem NextPage.fails (hn : NextPage w st g h rest x m p s) (hr : s.rec? h = some r) (hrest : r.recovery = false ∧ r.lost = false)
    (hread : nextRead w st g h rest x m p r s = (u, false)) :
    decodePage w st g s = startRecovery h (endTurns (sessionsOf u (namersOf s x m p g h)) .pageCorrupt u) := by
  obtain ⟨hw, hp, hm, hstream⟩ := hn
  simp only [nextRead, beforeRead, streamLeft] at hread
  simp only [decodePage, hw, hp, hm, hstream, hr, hrest, Bool.false_eq_true, or_self, if_false, hread]

theorem takers_none (p : LayerPart) (g : Nat) : takers p g [] = [] := by
  rw [takers, List.filterMap_eq_nil_iff]
  intro i _
  cases i.array <;> cases i.kind <;> rfl

/-- A page that no turn names is read for none, and no array waits for it. -/
theorem nextRead_unnamed (hnone : namersOf s x m p g h = []) :
    nextRead w st g h rest x m p r s = expanderRead (metBy [] w) h r r.tier r.base (streamLeft w st g rest s) := by
  simp only [nextRead, beforeRead, hnone, takers_none]
  rfl

/-- A page that passes its read for no turn leaves what the read leaves, outside latent mode. -/
theorem NextPage.unnamed (hn : NextPage w st g h rest x m p s) (hr : s.rec? h = some r) (hrest : r.recovery = false ∧ r.lost = false)
    (hnone : namersOf s x m p g h = []) (hlatent : m.geom.latent = false) (hread : nextRead w st g h rest x m p r s = (u, true)) :
    decodePage w st g s = u := by
  obtain ⟨hw, hp, hm, hstream⟩ := hn
  simp only [nextRead, beforeRead, streamLeft, hnone] at hread
  simp only [decodePage, hw, hp, hm, hstream, hr, hrest, hnone, Bool.false_eq_true, or_self, if_false, hread]
  simp [takers_none, hlatent]

end Decode

-- ITEM_DONE

/-- Changes that agree on a wheel's record are one change. -/
theorem modWheel_congr {w : Nat} {f g : Wheel → Wheel} {s : State} (h : ∀ y, s.wheel? w = some y → f y = g y) : modWheel w f s = modWheel w g s := by
  have htable : tmod s.ssq.wheels w f = tmod s.ssq.wheels w g := by
    unfold tmod
    cases hy : tget s.ssq.wheels w with
    | none => rfl
    | some y => simp only [h y hy]
  rw [modWheel, htable, modWheel]

theorem exec_itemDone (w st k : Nat) (nodes : List NodeVal) (s : State) : exec (.itemDone w st k nodes) s = .next (clocked (itemDone w st k nodes) s) := rfl

/-- The state with the node values of an ITEM_DONE in its part (05 R178). -/
def takeNodes (w st : Nat) (nodes : List NodeVal) (s : State) : State :=
  modPart w st (fun p => { p with nodes := p.nodes ++ nodes.map fun v => { v.node with after := p.partials.length } }) s

section Items

variable {w st k a : Nat} {x : Wheel} {m : Model} {p : LayerPart} {i : Item} {nodes : List NodeVal} {s : State}

/-- ITEM_DONE of an item of a part runs it. -/
theorem exec_itemDone_item (hc : Clocked s) (hw : (takeNodes w st nodes s).wheel? w = some x) (hp : x.parts.find? (·.stamp == st) = some p)
    (hm : s.model? x.part x.model = some m) (hi : p.items[k]? = some i) :
    exec (.itemDone w st k nodes) s = .next (refillWindow w (runItem w x m p k i (takeNodes w st nodes s))) := by
  have hm' : (takeNodes w st nodes s).model? x.part x.model = some m := hm
  unfold takeNodes at hw hm'
  rw [exec_itemDone, clocked_of_running hc]
  simp only [itemDone, hw, hp, hm', hi]
  rfl

/-- Changes that agree on the parts of an order of acceptance are one change. -/
theorem modPart_congr {f g : LayerPart → LayerPart} (hw : s.wheel? w = some x) (h : ∀ q ∈ x.parts, q.stamp = st → f q = g q) :
    modPart w st f s = modPart w st g s := by
  have hparts : (x.parts.map fun q => if q.stamp = st then f q else q) = x.parts.map fun q => if q.stamp = st then g q else q :=
    List.map_congr_left fun q hq => ite_congr rfl (h q hq) fun _ => rfl
  exact modWheel_congr fun y hy => by rw [Option.some.inj (hy.symm.trans hw), hparts]

/-- An item without an array, or one that is done, leaves nothing. -/
theorem runItem_idle (h : i.array = none ∨ i.done = true) : runItem w x m p k i s = s := by
  cases ha : i.array with
  | none => simp only [runItem, ha]
  | some a =>
    have hdone : i.done = true := h.resolve_left (by simp [ha])
    simp only [runItem, ha, hdone, Bool.true_or, if_true]

/-- An item holds array `a`, which has not failed it, and the pages of its gang are read. -/
structure ItemReady (p : LayerPart) (i : Item) (a : Nat) : Prop where
  array : i.array = some a
  undone : i.done = false
  unfailed : i.failedOn = none
  read : (p.gangs[i.gang]?).map (·.toRead) = some []

/-- An item of some turns leaves its array: it is done and noted, and its part and the tail go on. -/
def leaveArray (w k a : Nat) (p : LayerPart) (turns : List Nat) (s : State) : State :=
  finishTail w (settleParts w (noteUsed (sessionsOf s turns) [(2, a), (3, Config.tendingCore p.stamp % 64)]
    ((markDone w p.stamp k s).bump (Ctr.mxgItemsRun (a / 20)))))

theorem ItemReady.pages (h : ItemReady p i a) : ((p.gangs[i.gang]?).map (·.toRead.isEmpty)).getD true = true := by
  obtain ⟨g, hg, hempty⟩ := Option.map_eq_some_iff.1 h.read
  rw [hg, Option.map_some, hempty]
  rfl

/-- A projection item whose appends all found their slots (05 R158). -/
theorem ItemReady.project {f c v0 vn : Nat} {u : State} (h : ItemReady p i a) (hkind : i.kind = .project f c v0 vn)
    (hdone : projectDone w x m p f c v0 vn s = (u, true)) :
    runItem w x m p k i s = leaveArray w k a p (itemTurns x (.project f c v0 vn)) (u.bump (Ctr.mxgProjectionItemsRun (a / 20))) := by
  simp [runItem, leaveArray, h.array, h.undone, h.unfailed, h.pages, hkind, hdone]

/-- An attention item leaves the partials of its queries, and its array their scores (05 R161, R167). -/
theorem ItemReady.attend {t hg sc q : Nat} (h : ItemReady p i a) (hkind : i.kind = .attend t hg sc q) :
    runItem w x m p k i s =
      leaveArray w k a p [t] (modPart w p.stamp (fun y => { y with partials := y.partials ++ attendDone x m p t hg sc q s })
        (closeArray a ((itemDots x m p t hg sc q s).map fun d => dotsScores m d.2.2.2).flatten (attendDone x m p t hg sc q s) s)) := by
  simp [runItem, leaveArray, h.array, h.undone, h.unfailed, h.pages, hkind, itemTurns]

/-- A heads item leaves the drafts of its turn (06 R191). -/
theorem ItemReady.heads {t : Nat} (h : ItemReady p i a) (hkind : i.kind = .heads t) :
    runItem w x m p k i s = leaveArray w k a p [t] (headsDone x m t s) := by
  simp [runItem, leaveArray, h.array, h.undone, h.unfailed, h.pages, hkind, itemTurns]

/-- Records of a logits item whose turns have not ended the step (06 R190). -/
def logitRecords (x : Wheel) (f c : Nat) : List Nat :=
  ((List.range c).map (f + ·)).filter fun r => ((x.tailRecords[r]?).map fun e => !x.resolved e.slot).getD false

/-- A logits item leaves, in each part of its order of acceptance, logits of that part's own hidden states (06 R190). -/
theorem ItemReady.logits {f c : Nat} {tb : Tail} (h : ItemReady p i a) (hkind : i.kind = .logits f c) (htb : s.tail? m.part m.tailId = some tb) :
    runItem w x m p k i s =
      leaveArray w k a p (itemTurns x (.logits f c)) ((modPart w p.stamp (fun y => { y with
        logits := y.logits ++ (logitRecords x f c).map fun r => (r, logitsOf s tb (hiddenOf s x m y r 0)) }) s).bumpBy Ctr.mxgLogitRecords
          (logitRecords x f c).length) := by
  simp [runItem, leaveArray, h.array, h.undone, h.unfailed, h.pages, hkind, htb, logitRecords]

/-- Where one part alone bears the order of acceptance, the hidden states are that part's. -/
theorem ItemReady.logits_sole {f c : Nat} {tb : Tail} (h : ItemReady p i a) (hkind : i.kind = .logits f c) (htb : s.tail? m.part m.tailId = some tb)
    (hw : s.wheel? w = some x) (hsole : ∀ q ∈ x.parts, q.stamp = p.stamp → q = p) :
    runItem w x m p k i s =
      leaveArray w k a p (itemTurns x (.logits f c)) ((modPart w p.stamp (fun y => { y with
        logits := y.logits ++ (logitRecords x f c).map fun r => (r, logitsOf s tb (hiddenOf s x m p r 0)) }) s).bumpBy Ctr.mxgLogitRecords
          (logitRecords x f c).length) := by
  have hown : modPart w p.stamp (fun y => { y with
        logits := y.logits ++ (logitRecords x f c).map fun r => (r, logitsOf s tb (hiddenOf s x m y r 0)) }) s =
      modPart w p.stamp (fun y => { y with
        logits := y.logits ++ (logitRecords x f c).map fun r => (r, logitsOf s tb (hiddenOf s x m p r 0)) }) s :=
    modPart_congr hw fun q hq hstamp => by rw [hsole q hq hstamp]
  rw [h.logits hkind htb, hown]

end Items

-- What O47 says beside these laws

/-- The clause of O47 about a logits item: the hidden states are those of the first part of the item's order of acceptance, in each part that bears
it. `ItemReady.logits` takes each part's own. -/
def LogitsOfFirstPart : Prop :=
  ∀ (w st k a f c : Nat) (x : Wheel) (m : Model) (tb : Tail) (p : LayerPart) (i : Item) (s : State),
    Clocked s → (takeNodes w st [] s).wheel? w = some x → x.parts.find? (·.stamp == st) = some p → s.model? x.part x.model = some m →
    s.tail? m.part m.tailId = some tb → p.items[k]? = some i → ItemReady p i a → i.kind = .logits f c →
    exec (.itemDone w st k []) s = .next (refillWindow w (leaveArray w k a p (itemTurns x (.logits f c))
      ((modPart w p.stamp (fun y => { y with
        logits := y.logits ++ (logitRecords x f c).map fun r => (r, logitsOf (takeNodes w st [] s) tb (hiddenOf (takeNodes w st [] s) x m p r 0)) })
        (takeNodes w st [] s)).bumpBy Ctr.mxgLogitRecords (logitRecords x f c).length)))

/-- The other clauses of O47 hold: a dealing by what the deal list gives (`Dealt`), a delivery by the grant and by the read of the next page
(`NextPage`), and an item by its kind (`ItemReady`). -/
theorem itemsAndPages_iff : Obligations.ItemsAndPages ↔ LogitsOfFirstPart := by
  unfold Obligations.ItemsAndPages
  constructor
  · rintro ⟨-, -, -, -, -, -, -, -, -, -, -, -, -, -, -, hlogits⟩ w st k a f c x m tb p i s hc hw hp hm htb hi ⟨harray, hundone, hunfailed, hread⟩ hkind
    exact hlogits w st k a f c x m tb p i s hc hw hp hm htb hi harray hundone hunfailed hread hkind
  · intro hlogits
    refine ⟨?nothing, ?deal, ?denied, ?presents, ?underTest, ?granted, ?unread, ?corrupt, ?noRecord, ?whole, ?streamEmpty, ?notDealt, ?project, ?attend,
      ?heads, ?logits⟩
    case nothing =>
      intro n s hpick
      exact exec_gangDeal_nothing hpick
    case deal =>
      intro n d x m p s hc hpick hw hp hm hpins
      have h : Dealt n d x m p s := ⟨hc, hpick, hw, hp, hm⟩
      exact h.pins hpins
    case denied =>
      intro n h d x m p s hc hpick hw hp hm hpins hbad
      have hd : Dealt n d x m p s := ⟨hc, hpick, hw, hp, hm⟩
      exact hd.denied hpins hbad
    case presents =>
      intro w st g h x p r s u hc hw hp hhead hr htest
      exact ⟨fun htake => exec_expanderDecode_presents hc hw hp hhead hr htest htake,
        fun htake => exec_expanderDecode_presents hc hw hp hhead hr htest htake⟩
    case underTest =>
      intro w st g h x p r s hw hp hhead hr htest
      exact exec_expanderDecode_underTest hw hp hhead hr htest
    case granted =>
      intro i bytes part k s hi hpart hqueues hquar hcur hevery hshort
      exact takeExpander_idle hi hpart hqueues hquar hcur hevery hshort
    case unread =>
      intro w st g h rest x m p r s hw hp hm hstream hr hbad
      have hn : NextPage w st g h rest x m p s := ⟨hw, hp, hm, hstream⟩
      exact hn.unread hr hbad
    case corrupt =>
      intro w st g h rest x m p r s hw hp hm hstream hr hrest hcheck
      have hn : NextPage w st g h rest x m p s := ⟨hw, hp, hm, hstream⟩
      have hfalse : (nextRead w st g h rest x m p r s).2 = false := by
        rw [nextRead, expanderRead_snd, slotBytes_beforeRead, Option.isNone_eq_false_iff.2 (Option.isSome_iff_ne_none.2 hcheck), Bool.and_false]
      exact ⟨hfalse, hn.fails hr hrest (Prod.ext rfl hfalse)⟩
    case noRecord =>
      intro w st g h rest x m p s hc hw hp hm hstream hr
      have hn : NextPage w st g h rest x m p s := ⟨hw, hp, hm, hstream⟩
      exact hn.noRecord hc hr
    case whole =>
      intro w st g h rest x m p r s _ hw hp hm hstream hr hnone hlatent htier hrest hcheck
      have hn : NextPage w st g h rest x m p s := ⟨hw, hp, hm, hstream⟩
      have htrue : (nextRead w st g h rest x m p r s).2 = true := by
        rw [nextRead, expanderRead_snd, slotBytes_beforeRead, htier, hcheck]
        rfl
      have hread := nextRead_unnamed (w := w) (st := st) (rest := rest) (r := r) hnone
      rw [hread, htier] at htrue
      rw [htier] at hread
      exact ⟨hn.unnamed hr hrest hnone hlatent (hread.trans (Prod.ext rfl htrue)), htrue⟩
    case streamEmpty =>
      intro w st g x p s hw hp hread
      exact exec_expanderDecode_nothing hw hp hread
    case notDealt =>
      intro w st k x m p i nodes s hc hw hp hm hi hidle
      rw [exec_itemDone_item hc hw hp hm hi, runItem_idle hidle]
      rfl
    case project =>
      intro w st k a f c v0 vn x m p i s v hc hw hp hm hi harray hundone hunfailed hread hkind hdone
      have h : ItemReady p i a := ⟨harray, hundone, hunfailed, hread⟩
      rw [exec_itemDone_item hc (nodes := []) hw hp hm hi]
      exact congrArg _ (congrArg _ (h.project hkind hdone))
    case attend =>
      intro w st k a t hg sc q x m p i s hc hw hp hm hi harray hundone hunfailed hread hkind
      have h : ItemReady p i a := ⟨harray, hundone, hunfailed, hread⟩
      rw [exec_itemDone_item hc (nodes := []) hw hp hm hi, h.attend hkind]
      rfl
    case heads =>
      intro w st k a t x m p i s hc hw hp hm hi harray hundone hunfailed hread hkind
      have h : ItemReady p i a := ⟨harray, hundone, hunfailed, hread⟩
      rw [exec_itemDone_item hc (nodes := []) hw hp hm hi, h.heads hkind]
      rfl
    case logits =>
      intro w st k a f c x m tb p i s hc hw hp hm htb hi harray hundone hunfailed hread hkind
      exact hlogits w st k a f c x m tb p i s hc hw hp hm htb hi ⟨harray, hundone, hunfailed, hread⟩ hkind

-- Two parts of one order of acceptance

/-- A tail part of one record, the hidden state of which is 0, with its logits item on array 3. -/
def twinPart : LayerPart :=
  { layer := 0, tail := true, part := 0, first := 0, count := 1, slot := 0, last := true, stamp := 1,
    items := [{ kind := .logits 0 1, gang := 0, array := some 3 }], gangs := [{ dealt := true }] }

/-- A binding of one hidden element a record. -/
def twinModel : Model :=
  { part := 0, slot := 0, id := 7, contract := 1, layers := 1, geom := { heads := 0, dim := 0, latent := false }, group := 0, hidden := 1, strict := false,
    rotHalf := false, bias := false, keyFormat := 0, weightFmt := 0, qrows := 1, latV := 0, rankMax := 0, alpha := 0, vocab := 1, weightBase := 0,
    tailId := 3, profile := [], profileId := 0, cfg := [], rot := [], sinks := [] }

/-- Its tail binding, of one token. -/
def twinTail : Tail :=
  { part := 0, slot := 0, id := 3, contract := 1, vocab := 1, hidden := 1, outFmt := 2, heads := 0, width := 0, tree := [(0, 0)], draft := [], eos := 0,
    weightBase := 0 }

/-- A wheel in a step of one record, with the part and, of the same order of acceptance, a second whose hidden state is NaN. -/
def twinWheel : Wheel :=
  { part := 0, model := 7, accels := [], lead := 0, stepBase := 0, inletBase := 0, inletSlots := 1, outletSlots := 0, node := 0, outletKey := 0,
    outletAddr := 0, rosterAddr := 0, rosterSlots := 1, triggerTag := 0, outletCtr := 0, rosterCtr := 0, lastStep := 0, lastLayer := 0, committed := 0,
    roster := some [{ slot := 0, kind := 0, cand := 0, parent := 0xFF, depth := 0, pos := 0, prov := 0, token := 0, session := 0 }],
    parts := [twinPart, { twinPart with inlet := [[0xC0, 0x7F]] }] }

def twinState : State := { State.reset with ssq := { models := [twinModel], tails := [twinTail], wheels := [(0, twinWheel)] } }

/-- The logits in the parts of wheel 0. -/
def wheelLogits : Host.Outcome State Fault Refusal → List (List (Nat × List Fp))
  | .next s => (s.wheel? 0).elim [] fun x => x.parts.map (·.logits)
  | _ => []

/-- The model gives each of the two parts the logits of its own hidden state. -/
theorem wheelLogits_twinState : wheelLogits (exec (.itemDone 0 1 0 []) twinState) = [[(0, [Fp.zero])], [(0, [.nan])]] := by decide +kernel

/-- Refutes O47, whose other clauses hold (`itemsAndPages_iff`): of two parts of a wheel that bear one order of acceptance, a logits item gives each
the logits of its own hidden state, and the statement gives the second those of the first. Where no two parts share one, the clause holds
(`ItemReady.logits_sole`). -/
theorem not_itemsAndPages : ¬ Obligations.ItemsAndPages := by
  rw [itemsAndPages_iff]
  intro h
  have hclaim := h 0 1 0 3 0 1 twinWheel twinModel twinTail twinPart { kind := .logits 0 1, gang := 0, array := some 3 } twinState
    (by decide +kernel) (by decide +kernel) rfl (by decide +kernel) (by decide +kernel) rfl ⟨rfl, rfl, rfl, rfl⟩ rfl
  have hlogits := congrArg wheelLogits hclaim
  rw [wheelLogits_twinState] at hlogits
  exact absurd hlogits (by decide +kernel)

end Sys2Proof.Machine

/-!
The commands of PME: lookups and their slots, the attach of a local hit, publication and revocation (07 R222-R235).
-/
namespace Sys2Proof.Machine

open Sys2Proof

theorem exec_prefixLookup (c : Cmd) (s : State) : exec (.prefixLookup c) s = .next (hostCmd 0x0301 c (prefixLookup c) s) := rfl
theorem exec_nextMatch (c : Cmd) (s : State) : exec (.nextMatch c) s = .next (hostCmd 0x0302 c (nextMatch c) s) := rfl
theorem exec_prefixAttach (c : Cmd) (s : State) : exec (.prefixAttach c) s = .next (hostCmd 0x0303 c (prefixAttach c) s) := rfl
theorem exec_prefixRelease (c : Cmd) (s : State) : exec (.prefixRelease c) s = .next (hostCmd 0x0304 c (prefixRelease c) s) := rfl
theorem exec_prefixPublish (c : Cmd) (s : State) : exec (.prefixPublish c) s = .next (hostCmd 0x0305 c (prefixPublish c) s) := rfl
theorem exec_prefixRevoke (c : Cmd) (s : State) : exec (.prefixRevoke c) s = .next (hostCmd 0x0306 c (prefixRevoke c) s) := rfl

section Lookup

variable {c : Cmd} {m : Model} {ver n : Nat} {q : Slot} {s t : State}

/-- The query of a lookup by tokens: those that the data buffer holds before the result, under the identity that ARGS names (07 R222). -/
abbrev tokenQuery (c : Cmd) (m : Model) (ver : Nat) (s : State) : Slot :=
  let toks := (List.range ((c.dlen - 32) / 4)).map fun k => fieldAt (c.buffer s) (4 * k) 4
  let d : PrefixId := { binding := m.id, adapter := c.arg 0x10 4, adapterVer := ver, profile := m.profileId, contract := m.contract }
  let h := hashesOf s c.part d toks
  { part := c.part, ident := d, tokens := toks, hashes := h.map (·.1), wides := h.map (·.2), cands := [] }

/-- A well formed lookup by tokens runs its query. -/
theorem prefixLookup_tokens (hargs : c.argsOk [(0, 1), (8, 8), (0x10, 4), (0x14, 4)] = true) (hown : c.arg 0 1 = 0)
    (hlen : 36 ≤ c.dlen ∧ c.dlen % 4 = 0 ∧ c.dlen ≤ 4 * 2097152 + 32) (hm : s.model? c.part (c.arg 8 8) = some m)
    (hver : adapterFor s c.part m.id (c.arg 0x10 4) (c.arg 0x14 4) = .inr ver) : prefixLookup c s = runLookup c (tokenQuery c m ver s) s := by
  obtain ⟨hlo, hmul, hhi⟩ := hlen
  simp [prefixLookup, hargs, hown, hlo, hmul, hhi, hm, hver]

theorem tokenQuery_pages : (tokenQuery c m ver s).pages = (c.dlen - 32) / 4 / 32 := by simp [Slot.pages]

/-- The state with slot `n` taken for a query, its use count one higher and never 0. -/
abbrev slotTaken (n : Nat) (q : Slot) (s : State) : State :=
  let u := (tgetD s.pme.uses n 0 + 1) % 2 ^ 22
  modPme (fun p => { p with slots := tset p.slots n q, uses := tset p.uses n (if u = 0 then 1 else u) }) s

/-- 07 R226: while the store and the partition's share have room, a query takes the lowest free slot. -/
theorem takeSlot_lowest (hroom : s.pme.slots.length < 1024 ∧ (s.pme.slots.filter fun x => x.2.part == q.part).length < 64)
    (hn : n < 1024 ∧ tget s.pme.slots n = none ∧ ∀ k < n, (tget s.pme.slots k).isSome = true) : takeSlot q s = some (n, slotTaken n q s) := by
  obtain ⟨hall, hpart⟩ := hroom
  obtain ⟨hlt, hfree, hlow⟩ := hn
  have hfind : (List.range 1024).find? (fun k => (tget s.pme.slots k).isNone) = some n := by
    rw [List.find?_range_eq_some]
    exact ⟨by simp [hfree], by simpa using hlt, fun k hk => by simp [Option.isNone_eq_false_iff.2 (hlow k hk)]⟩
  rw [takeSlot, if_neg (by omega), hfind]
  rfl

theorem runLookup_short (h : q.pages = 0) :
    runLookup c q s = .done (s.bump Ctr.pmeLookups) { data := some (c.dlen - 32, resultBytes none false 0 0) } := if_pos h

theorem runLookup_slot (hpages : q.pages ≠ 0) (hslot : takeSlot q s = some (n, t)) :
    runLookup c q s = .wait (startLookup { id := n, cmd := some c, q := q } (t.bump Ctr.pmeLookups)) := by
  rw [runLookup, if_neg hpages, hslot]

end Lookup

section Cursor

variable {c : Cmd} {n : Nat} {q : Slot} {s : State}

/-- Outside a sled NEXT_MATCH runs the next of the slot's own candidates. -/
theorem nextMatch_local (hargs : c.argsOk [(0, 4)] = true) (hlen : c.dlen = 32) (hcur : cursorSlot s c.part (c.arg 0 4) = some (n, q))
    (hidle : s.pme.pendings.any (·.id == n) = false) (hsled : inSled s = false) :
    let r := localNext { id := n, cmd := some c, q := { q with named := none, spare := none }, next := true } s
    nextMatch c s = .wait (settleLookup r.1 r.2) := by
  simp [nextMatch, hargs, hlen, hcur, hidle, hsled]

theorem nextMatch_stale (hargs : c.argsOk [(0, 4)] = true) (hlen : c.dlen = 32) (hcur : cursorSlot s c.part (c.arg 0 4) = none) :
    nextMatch c s = .fail .prefixStale := by
  simp [nextMatch, hargs, hlen, hcur]

theorem prefixRelease_slot (hargs : c.argsOk [(0, 4)] = true) (hlen : c.dlen = 0) (hcur : cursorSlot s c.part (c.arg 0 4) = some (n, q)) :
    prefixRelease c s = .done (modPme (fun m => { m with slots := tdel m.slots n }) s) {} := by
  simp [prefixRelease, hargs, hlen, hcur]

theorem prefixRelease_stale (hargs : c.argsOk [(0, 4)] = true) (hlen : c.dlen = 0) (hcur : cursorSlot s c.part (c.arg 0 4) = none) :
    prefixRelease c s = .fail .prefixStale := by
  simp [prefixRelease, hargs, hlen, hcur]

end Cursor

section Attach

variable {c : Cmd} {i n : Nat} {x : Session} {q : Slot} {h : PrefixHit} {s : State}

/-- A fresh session that names a slot with a hit of this device, and of its own identity, attaches it here (07 R229). -/
theorem prefixAttach_local (hargs : c.argsOk [(0, 8), (8, 4)] = true) (hlen : c.dlen = 0) (hn : Names c s i x)
    (hcur : cursorSlot s c.part (c.arg 8 4) = some (n, q)) (hhit : q.hit = some h) (hmay : mayAttach x = true) (hident : x.ident = q.ident)
    (hnode : h.node = s.node) : prefixAttach c s = attachLocal c n q h i s := by
  simp [prefixAttach, hargs, hlen, onSession_named hn, hcur, hhit, hmay, hident, hnode]

/-- The columns of a hit, from the first on, unfolded: the state and their indices. -/
abbrev unfoldWalk (cols : List (Nat × Column)) (s : State) : Option (State × List Nat) :=
  cols.reverse.foldl (fun (a : Option (State × List Nat)) (k : Nat × Column) =>
    a.bind fun (s, l) => (unfoldColumn k.1 s).map fun (j, s) => (s, l ++ [j])) (some (s, []))

/-- The map keys and handles of the pages of columns. -/
abbrev columnPages (cs : List Column) : List (Nat × Nat) :=
  (cs.map fun k => k.handles.zipIdx.map fun (e : Nat × Nat) => (mapKey e.2 k.page, e.1)).flatten

/-- 07 R229: a local hit whose columns stand is attached, its slot released. -/
theorem attachLocal_stands {top : Nat × Column} {cols : List (Nat × Column)} {ids : List Nat} {s₁ s₂ : State}
    (hwalk : columnWalk s h.depth h.column = top :: cols) (htop : top.2.gen = h.gen ∧ top.2.page + 1 = h.depth) (hlen : cols.length + 1 = h.depth)
    (hstand : (top :: cols).any (fun k => k.2.dead || k.2.bad) = false) (hunfold : unfoldWalk (top :: cols) s = some (s₁, ids))
    (hrefs : addRefs ((columnPages (ids.filterMap fun j => tget s₁.pme.columns j)).map (·.2)) s₁ = some s₂) :
    let cs := ids.filterMap fun j => tget s₁.pme.columns j
    let f := publishedFinal top.2
      (warmEntry { q with named := q.named.map fun d => { d with entry := { d.entry with column := ids.getLast?.getD h.column } } } s₂)
    attachLocal c n q h i s = doneAt i (attachPages i 0x0303 c q.tokens (columnPages cs) top.2.publisher f.1 (cs.map (·.content))
      (modPme (fun m => { m with slots := tdel m.slots n }) f.2)) { result0 := h.depth } := by
  obtain ⟨hgen, hdepth⟩ := htop
  have hall : ∀ k ∈ top :: cols, k.2.dead = false ∧ k.2.bad = false := by
    simpa only [List.any_eq_false, Bool.or_eq_true, not_or, Bool.not_eq_true] using hstand
  have hdead : (top :: cols).any (fun k => k.2.dead) = false := List.any_eq_false.2 fun k hk => by simp [hall k hk]
  have hbad : (top :: cols).any (fun k => k.2.bad) = false := List.any_eq_false.2 fun k hk => by simp [hall k hk]
  have hnamed : ¬(top.2.gen ≠ h.gen ∨ top.2.page + 1 ≠ h.depth) := by simp [hgen, hdepth]
  have hwhole : ¬((top :: cols).length ≠ h.depth ∨ (top :: cols).any (fun k => k.2.bad) = true) := by simp [hlen, hbad]
  simp only [attachLocal, hwalk, List.head?_cons, if_neg hnamed, hdead, Bool.false_eq_true, if_false, if_neg hwhole, hunfold, hrefs]

end Attach

section PublishRevoke

variable {c : Cmd} {i : Nat} {x : Session} {k : Column} {s : State}

/-- 07 R233: PREFIX_PUBLISH of a session that is not relaxed publishes up to the index that it names. -/
theorem prefixPublish_named (hargs : c.argsOk [(0, 8), (8, 4)] = true) (hlen : c.dlen = 0) (hn : Names c s i x) (hexact : x.relaxed = false) :
    let r := publishSession i (c.arg 8 4) (capCommand x.handle 0x0305 c s)
    prefixPublish c s = .done r.1 { result0 := r.2 } := by
  simp [prefixPublish, hargs, hlen, onSession_named hn, hexact]

/-- 07 R235: PREFIX_REVOKE of a column of the partition kills it with its descendants, once. -/
theorem prefixRevoke_own (hargs : c.argsOk [(0, 4)] = true) (hlen : c.dlen = 0) (hk : tget s.pme.columns (c.arg 0 4) = some k) (hpart : k.part = c.part) :
    prefixRevoke c s = .done (if k.dead then s else killColumns (withDescendants s s.pme.columns.length [c.arg 0 4]) s) {} := by
  cases hdead : k.dead <;> simp [prefixRevoke, hargs, hlen, hk, hpart, hdead]

end PublishRevoke

/-- Settles O14: each body on a well formed command, by the case of its slot, its session or its column. -/
theorem prefixCommands : Obligations.PrefixCommands := by
  unfold Obligations.PrefixCommands
  refine ⟨?short, ?lookup, ?next, ?attach, ?release, ?publish, ?revoke, ?stale⟩
  case short =>
    intro c m ver s ha hargs hown hlo hmul hhi hm hver
    have hpages : (tokenQuery c m ver s).pages = 0 := by rw [tokenQuery_pages]; omega
    rw [exec_prefixLookup, hostCmd_done ha ((prefixLookup_tokens hargs hown ⟨hlo, hmul, by omega⟩ hm hver).trans (runLookup_short hpages))]
  case lookup =>
    intro c m ver n s ha hargs hown hmul hlo hhi hm hver hroom hn toks d h q u
    have hpages : (tokenQuery c m ver s).pages ≠ 0 := by rw [tokenQuery_pages]; omega
    rw [exec_prefixLookup, hostCmd_wait ha ((prefixLookup_tokens hargs hown ⟨by omega, hmul, hhi⟩ hm hver).trans
      (runLookup_slot hpages (takeSlot_lowest hroom hn)))]
  case next =>
    intro c n q s ha hargs hlen hcur hidle hsled r
    rw [exec_nextMatch, hostCmd_wait ha (nextMatch_local hargs hlen hcur hidle hsled)]
  case attach =>
    intro c i n x q h top cols ids s s₁ s₂ ha hargs hlen hn hcur hhit hmay hident hnode hwalk htop hdepth hstand hunfold hrefs cs pages f u
    have hdone := (prefixAttach_local hargs hlen hn hcur hhit hmay hident hnode).trans
      (attachLocal_stands hwalk htop hdepth hstand hunfold hrefs)
    rw [exec_prefixAttach, hostCmd_done ha hdone]
  case release =>
    intro c n q s ha hargs hlen hcur
    rw [exec_prefixRelease, hostCmd_done ha (prefixRelease_slot hargs hlen hcur)]
  case publish =>
    intro c i x s ha hargs hlen hn hexact r
    rw [exec_prefixPublish, hostCmd_done ha (prefixPublish_named hargs hlen hn hexact)]
  case revoke =>
    intro c k s ha hargs hlen hk hpart
    rw [exec_prefixRevoke, hostCmd_done ha (prefixRevoke_own hargs hlen hk hpart)]
  case stale =>
    intro c s hnext hrelease hargs _ hcur
    exact ⟨fun hlen => by rw [exec_nextMatch, hostCmd_fail hnext (nextMatch_stale hargs hlen hcur)],
      fun hlen => by rw [exec_prefixRelease, hostCmd_fail hrelease (prefixRelease_stale hargs hlen hcur)]⟩

end Sys2Proof.Machine

/-!
The expert operations of PME through SET_OP (16 R517): on a way, on the bank of a set, and on a partition's columns.
-/
namespace Sys2Proof.Machine

open Sys2Proof

theorem exec_pmeReadEntry (via set way : Nat) (s : State) :
    exec (.pmeReadEntry via set way) s = .next (countIo via (wayOp 1 via set way (fun e s =>
      let odd := s.getF Reg.pmeCascadeMode == 2 && ownPosition s % 2 == 1
      (s.setF (Reg.pmeEntryData 0) (entryWord odd e 0)).setF (Reg.pmeEntryData 1) (entryWord odd e 1)) s)) := rfl

theorem exec_dropEntry (via set way : Nat) (s : State) :
    exec (.dropEntry via set way) s = .next (countIo via (live (wayOp 2 via set way fun _ s => dropAt (.way set way) s) s)) := rfl

/-- The start of a bank's self-test, unless the bank is under one (14 R455). -/
def startBankTest (bank : Nat) (s : State) : State :=
  if underTest s (bankUnit bank) then s
  else ((s.setFrc { s.frc with tests := s.frc.tests ++ [{ unit := bankUnit bank }] }).setF Reg.pmeSetOpStatBusy 1).bump Ctr.frcSelftestsRun

theorem exec_bankTest (via set : Nat) (s : State) : exec (.bankTest via set) s = .next (countIo via (live (bankOp 3 via set startBankTest) s)) := rfl

theorem exec_mapOutBank (via set : Nat) (s : State) : exec (.mapOutBank via set) s = .next (countIo via (live (bankOp 4 via set mapOutBank) s)) := rfl

/-- SWEEP_COLUMNS through a function: a sweep of the partition's columns is due (07 R239). -/
def startSweep (via part : Nat) (s : State) : State :=
  if !s.expertOpen pPme via ∨ 16 ≤ part then s
  else setOp 5 (s.getF Reg.pmeSetOpSet) (s.getF Reg.pmeSetOpWay) part (fun s =>
    if !s.expertObject pPme via part then s.setF Reg.pmeSetOpStatStatus 2
    else modPme (fun p => { p with sweeps := if p.sweeps.contains part then p.sweeps else p.sweeps ++ [part] })
      ((s.setF Reg.pmeSetOpStatStatus 0).setF Reg.pmeSetOpStatBusy 1)) s

theorem exec_sweepColumns (via part : Nat) (s : State) : exec (.sweepColumns via part) s = .next (countIo via (live (startSweep via part) s)) := rfl

section SetOp

variable {op via set way part : Nat} {act : State → State} {f : Fld} {s : State}

/-- The state in which an operation started through SET_OP acts. -/
abbrev setOpStarted (op set way part : Nat) (s : State) : State :=
  (((s.setF Reg.pmeSetOpSet set).setF Reg.pmeSetOpWay way).setF Reg.pmeSetOpPartition part).setF Reg.pmeSetOpOp op

theorem setOp_idle (h : s.flag Reg.pmeSetOpStatBusy = false) : setOp op set way part act s = act (setOpStarted op set way part s) := by
  simp [setOp, h]

/-- While an operation is in progress no other starts. -/
theorem setOp_busy (h : s.flag Reg.pmeSetOpStatBusy = true) : setOp op set way part act s = s := if_pos h

/-- The start of an operation writes the fields of SET_OP, and no other. -/
theorem getF_setOpStarted (h : ∀ g ∈ [Reg.pmeSetOpSet, Reg.pmeSetOpWay, Reg.pmeSetOpPartition, Reg.pmeSetOpOp], g.key ≠ f.key) :
    (setOpStarted op set way part s).getF f = s.getF f := by
  simp only [List.mem_cons, List.not_mem_nil, or_false, forall_eq_or_imp, forall_eq] at h
  obtain ⟨hset, hway, hpart, hop⟩ := h
  simp only [setOpStarted, State.getF_setF_other _ _ _ _ hop, State.getF_setF_other _ _ _ _ hpart, State.getF_setF_other _ _ _ _ hway,
    State.getF_setF_other _ _ _ _ hset]

theorem bankOk_setOpStarted (b : Nat) : bankOk (setOpStarted op set way part s) b = bankOk s b := by
  rw [bankOk, getF_setOpStarted (by decide), bankOk]

end SetOp

section WayOp

variable {op via set way : Nat} {e : PmeEntry} {act : PmeEntry → State → State} {s : State}

/-- The state in which an operation on a way acts: the PARTITION field keeps its value. -/
abbrev wayOpStarted (op set way : Nat) (s : State) : State := setOpStarted op set way (s.getF Reg.pmeSetOpPartition) s

theorem wayOp_busy (h : s.flag Reg.pmeSetOpStatBusy = true) : wayOp op via set way act s = s := by
  rw [wayOp, setOp_busy h, ite_self]

/-- An operation on a way, through a function with PME's window open, while no other is in progress. -/
theorem wayOp_started (hopen : s.expertOpen pPme via = true) (hway : way < 128) (hidle : s.flag Reg.pmeSetOpStatBusy = false) (hset : set < 16384) :
    wayOp op via set way act s =
      if !bankOk s set then (wayOpStarted op set way s).setF Reg.pmeSetOpStatStatus 3
      else
        match tget s.pme.entries (set * 128 + way) with
        | none => (wayOpStarted op set way s).setF Reg.pmeSetOpStatStatus 1
        | some e =>
          if !(wayOpStarted op set way s).expertObject pPme via e.part then (wayOpStarted op set way s).setF Reg.pmeSetOpStatStatus 2
          else act e ((wayOpStarted op set way s).setF Reg.pmeSetOpStatStatus 0) := by
  have hbad : ¬((!s.expertOpen pPme via) = true ∨ 16384 ≤ set ∨ 128 ≤ way) := by simp [hopen, hset, hway]
  rw [wayOp, if_neg hbad, setOp_idle hidle, bankOk_setOpStarted]
  rfl

/-- STATUS 3: the bank is out of service. -/
theorem wayOp_outOfService (hopen : s.expertOpen pPme via = true) (hway : way < 128) (hidle : s.flag Reg.pmeSetOpStatBusy = false) (hset : set < 16384)
    (hbank : bankOk s set = false) : wayOp op via set way act s = (wayOpStarted op set way s).setF Reg.pmeSetOpStatStatus 3 := by
  simp [wayOp_started hopen hway hidle hset, hbank]

/-- STATUS 1: the way is empty. -/
theorem wayOp_empty (hopen : s.expertOpen pPme via = true) (hway : way < 128) (hidle : s.flag Reg.pmeSetOpStatBusy = false) (hset : set < 16384)
    (hbank : bankOk s set = true) (hnone : tget s.pme.entries (set * 128 + way) = none) :
    wayOp op via set way act s = (wayOpStarted op set way s).setF Reg.pmeSetOpStatStatus 1 := by
  simp [wayOp_started hopen hway hidle hset, hbank, hnone]

/-- An entry of a partition on which the function may act. -/
theorem wayOp_entry (hopen : s.expertOpen pPme via = true) (hway : way < 128) (hidle : s.flag Reg.pmeSetOpStatBusy = false) (hset : set < 16384)
    (hbank : bankOk s set = true) (he : tget s.pme.entries (set * 128 + way) = some e)
    (hobj : (wayOpStarted op set way s).expertObject pPme via e.part = true) :
    wayOp op via set way act s = act e ((wayOpStarted op set way s).setF Reg.pmeSetOpStatStatus 0) := by
  simp [wayOp_started hopen hway hidle hset, hbank, he, hobj]

/-- Which member of a width pair the device is stands in no field of SET_OP. -/
theorem oddMember_wayOpStarted (v : Nat) :
    let t := (wayOpStarted op set way s).setF Reg.pmeSetOpStatStatus v
    (t.getF Reg.pmeCascadeMode == 2 && ownPosition t % 2 == 1) = (s.getF Reg.pmeCascadeMode == 2 && ownPosition s % 2 == 1) := by
  dsimp only [ownPosition]
  rw [State.getF_setF_other _ _ _ _ (by decide), getF_setOpStarted (by decide), State.getF_setF_other _ _ _ _ (by decide), getF_setOpStarted (by decide)]

end WayOp

section BankOp

variable {op via set : Nat} {act : Nat → State → State} {s : State}

/-- The state in which an operation on a bank acts: WAY and PARTITION keep their values. -/
abbrev bankOpStarted (op set : Nat) (s : State) : State := setOpStarted op set (s.getF Reg.pmeSetOpWay) (s.getF Reg.pmeSetOpPartition) s

theorem bankOp_busy (h : s.flag Reg.pmeSetOpStatBusy = true) : bankOp op via set act s = s := by
  rw [bankOp, setOp_busy h, ite_self]

/-- An operation on a bank, through function 0 with PME's window open, while no other is in progress. -/
theorem bankOp_started (hdev : s.expertDevice pPme via = true) (hidle : s.flag Reg.pmeSetOpStatBusy = false) (hset : set < 16384) :
    bankOp op via set act s =
      if !bankOk s set then (bankOpStarted op set s).setF Reg.pmeSetOpStatStatus 3
      else act (bankOfSet set) ((bankOpStarted op set s).setF Reg.pmeSetOpStatStatus 0) := by
  have hbad : ¬((!s.expertDevice pPme via) = true ∨ 16384 ≤ set) := by simp [hdev, hset]
  rw [bankOp, if_neg hbad, setOp_idle hidle, bankOk_setOpStarted]

theorem bankOp_inService (hdev : s.expertDevice pPme via = true) (hidle : s.flag Reg.pmeSetOpStatBusy = false) (hset : set < 16384)
    (hbank : bankOk s set = true) : bankOp op via set act s = act (bankOfSet set) ((bankOpStarted op set s).setF Reg.pmeSetOpStatStatus 0) := by
  simp [bankOp_started hdev hidle hset, hbank]

/-- STATUS 3: the bank is out of service already. -/
theorem bankOp_outOfService (hdev : s.expertDevice pPme via = true) (hidle : s.flag Reg.pmeSetOpStatBusy = false) (hset : set < 16384)
    (hbank : bankOk s set = false) : bankOp op via set act s = (bankOpStarted op set s).setF Reg.pmeSetOpStatStatus 3 := by
  simp [bankOp_started hdev hidle hset, hbank]

theorem startBankTest_free {bank : Nat} (h : underTest s (bankUnit bank) = false) :
    startBankTest bank s =
      ((s.setFrc { s.frc with tests := s.frc.tests ++ [{ unit := bankUnit bank }] }).setF Reg.pmeSetOpStatBusy 1).bump Ctr.frcSelftestsRun := by
  simp [startBankTest, h]

/-- 07 R225: a bank without entries goes out of service. -/
theorem mapOutBank_empty {bank : Nat} (h : (s.pme.entries.filter fun e => bankOfSet (e.1 / 128) == bank) = []) :
    mapOutBank bank s = logEv .pmeBankMappedOut pPme 0xFF [bank]
      (modPme (fun p => { p with entries := p.entries.filter fun e => bankOfSet (e.1 / 128) != bank })
        (s.setF Reg.pmeGeomBanksOk (clrBit (s.getF Reg.pmeGeomBanksOk) bank))) := by
  simp only [mapOutBank, State.setF_pme, h, List.map_nil, List.foldl_nil]

/-- Function 0 with the window open is a function with the window open. -/
theorem expertOpen_of_expertDevice {slot : Nat} (h : s.expertDevice slot via = true) : s.expertOpen slot via = true := by
  simp only [State.expertDevice, Bool.and_eq_true, beq_iff_eq] at h
  obtain ⟨rfl, hopen⟩ := h
  exact hopen

end BankOp

section Sweep

variable {via part : Nat} {s : State}

/-- The state in which SWEEP_COLUMNS acts: SET and WAY keep their values. -/
abbrev sweepStarted (part : Nat) (s : State) : State := setOpStarted 5 (s.getF Reg.pmeSetOpSet) (s.getF Reg.pmeSetOpWay) part s

theorem startSweep_busy (h : s.flag Reg.pmeSetOpStatBusy = true) : startSweep via part s = s := by
  rw [startSweep, setOp_busy h, ite_self]

/-- A sweep that was not due becomes due, and the operation is busy until it ends. -/
theorem startSweep_due (hopen : s.expertOpen pPme via = true) (hpart : part < 16) (hidle : s.flag Reg.pmeSetOpStatBusy = false)
    (hobj : (sweepStarted part s).expertObject pPme via part = true) (hnew : s.pme.sweeps.contains part = false) :
    startSweep via part s = modPme (fun p => { p with sweeps := s.pme.sweeps ++ [part] })
      (((sweepStarted part s).setF Reg.pmeSetOpStatStatus 0).setF Reg.pmeSetOpStatBusy 1) := by
  have hbad : ¬((!s.expertOpen pPme via) = true ∨ 16 ≤ part) := by simp [hopen, hpart]
  have hnot : part ∉ s.pme.sweeps := by simpa using hnew
  rw [startSweep, if_neg hbad, setOp_idle hidle, hobj]
  simp [modPme, hnot]

end Sweep

/-- Settles O35: an operation on a way, a bank or a partition by the STATUS that it ends with, and none while another is in progress. -/
theorem expertPrefixOperations : Obligations.ExpertPrefixOperations := by
  unfold Obligations.ExpertPrefixOperations
  refine ⟨?read, ?drop, ?empty, ?test, ?mapOut, ?mappedOut, ?outOfService, ?sweep, ?busy⟩
  case read =>
    intro via set way e s hopen hway hidle hset hbank he hobj odd
    rw [exec_pmeReadEntry, wayOp_entry hopen hway hidle hset hbank he hobj]
    dsimp only
    rw [oddMember_wayOpStarted]
  case drop =>
    intro via set way e s hl hopen hway hidle hset hbank he hobj
    rw [exec_dropEntry, live_of_running hl, wayOp_entry hopen hway hidle hset hbank he hobj]
  case empty =>
    intro via set way s hl hopen hway hidle hset hbank hnone
    rw [exec_pmeReadEntry, exec_dropEntry, live_of_running hl, wayOp_empty hopen hway hidle hset hbank hnone,
      wayOp_empty hopen hway hidle hset hbank hnone]
    exact ⟨rfl, rfl⟩
  case test =>
    intro via set s hl hdev hidle hset hbank hfree u
    have hfree' : underTest u (bankUnit (bankOfSet set)) = false := hfree
    rw [exec_bankTest, live_of_running hl, bankOp_inService hdev hidle hset hbank, startBankTest_free hfree']
    rfl
  case mapOut =>
    intro via set s hl hdev hidle hset hbank
    rw [exec_mapOutBank, live_of_running hl, bankOp_inService hdev hidle hset hbank]
  case mappedOut =>
    intro bank s h
    exact mapOutBank_empty h
  case outOfService =>
    intro via set way s hl hdev hway hidle hset hbank
    rw [exec_pmeReadEntry, exec_bankTest, exec_mapOutBank, live_of_running hl, live_of_running hl,
      wayOp_outOfService (expertOpen_of_expertDevice hdev) hway hidle hset hbank, bankOp_outOfService hdev hidle hset hbank,
      bankOp_outOfService hdev hidle hset hbank]
    exact ⟨rfl, rfl, rfl⟩
  case sweep =>
    intro via part s hl hopen hpart hidle hobj hnew
    rw [exec_sweepColumns, live_of_running hl, startSweep_due hopen hpart hidle hobj hnew]
  case busy =>
    intro via set s hbusy
    rw [exec_bankTest, exec_mapOutBank, exec_sweepColumns, exec_dropEntry, live_of_eq (bankOp_busy hbusy), live_of_eq (bankOp_busy hbusy),
      live_of_eq (startSweep_busy hbusy), live_of_eq (wayOp_busy hbusy)]
    exact ⟨rfl, rfl, rfl, rfl⟩

end Sys2Proof.Machine

/-!
Upkeep of PME: publication at a commit, hole maintenance, ageing, sweeps, a slot's timeout and imports (07 R217, R219, R226, R231, R233,
R239, R240).
-/
namespace Sys2Proof.Machine

open Sys2Proof

theorem exec_prefixPublication (i : Nat) (s : State) : exec (.prefixPublication i) s = .next (live (prefixPublication i) s) := rfl
theorem exec_hitsAgeing (bank : Nat) (s : State) : exec (.hitsAgeing bank) s = .next (live (hitsAgeing bank) s) := rfl
theorem exec_columnSweep (part : Nat) (s : State) : exec (.columnSweep part) s = .next (live (sweepDue part) s) := rfl
theorem exec_importDone (id : Nat) (what : Option ImportData) (s : State) : exec (.importDone id what) s = .next (live (importDone id what) s) := rfl

theorem exec_holeMaintenance (set : Nat) (s : State) :
    exec (.holeMaintenance set) s = .next (live (fun s => if set < 16384 then maintainSet set s else s) s) := rfl

/-- The release of a lookup slot with no command under way (07 R226). -/
def releaseIdleSlot (n : Nat) (s : State) : State :=
  if s.pme.pendings.any (·.id == n) then s else modPme (fun m => { m with slots := tdel m.slots n }) s

theorem exec_lookupSlotTimeout (n : Nat) (s : State) : exec (.lookupSlotTimeout n) s = .next (live (releaseIdleSlot n) s) := rfl

section Publication

variable {i : Nat} {x : Session} {r : Nat × Nat} {s : State}

/-- 07 R233: the oldest run that a commit left for the session publishes, and leaves the list; a run behind it stays. -/
theorem prefixPublication_oldest (hx : tget s.ssq.sessions i = some x) (hr : (s.pme.toPublish.find? fun r => r.1 == x.handle) = some r) :
    prefixPublication i s = (publishSession i r.2 (modPme (fun p => { p with toPublish := p.toPublish.erase r }) s)).1 := by
  simp only [prefixPublication, hx, hr]

theorem prefixPublication_none (h : s.pme.toPublish = []) : prefixPublication i s = s := by
  unfold prefixPublication
  cases tget s.ssq.sessions i <;> simp [h]

/-- The only entry of a key leaves a list as all entries of the key do. -/
theorem erase_eq_filter_of_sole {l : List (Nat × Nat)} (h : (l.filter fun q => q.1 == r.1) = [r]) : l.erase r = l.filter fun q => q.1 != r.1 := by
  induction l with
  | nil => rfl
  | cons a l ih =>
    by_cases ha : a.1 = r.1
    · rw [List.filter_cons_of_pos (by simpa using ha), List.cons.injEq] at h
      obtain ⟨rfl, hrest⟩ := h
      have hkeep : (l.filter fun q => q.1 != a.1) = l := List.filter_eq_self.2 fun q hq => by
        simpa using List.filter_eq_nil_iff.1 hrest q hq
      simp [hkeep]
    · have hne : a ≠ r := fun e => ha (congrArg Prod.fst e)
      rw [List.filter_cons_of_neg (by simpa using ha)] at h
      rw [List.erase_cons_tail (by simpa using hne), ih h, List.filter_cons_of_pos (by simpa using ha)]

/-- Where one run alone waits for the session, none is left. -/
theorem prefixPublication_sole {last : Nat} (hx : tget s.ssq.sessions i = some x)
    (hsole : (s.pme.toPublish.filter fun q => q.1 == x.handle) = [(x.handle, last)]) :
    prefixPublication i s =
      (publishSession i last (modPme (fun p => { p with toPublish := p.toPublish.filter fun q => q.1 != x.handle }) s)).1 := by
  have hfirst : (s.pme.toPublish.find? fun q => q.1 == x.handle) = some (x.handle, last) := by rw [← List.head?_filter, hsole]; rfl
  have herase := erase_eq_filter_of_sole (r := (x.handle, last)) hsole
  rw [prefixPublication_oldest hx hfirst]
  simp only [modPme, herase]

end Publication

section Holes

variable {set d : Nat} {s u : State}

theorem maintainSet_even (h : (holeMaintain 16 (readSet s set)).2 = 0) : maintainSet set s = s := by
  simp [maintainSet, h]

/-- 07 R217: where the holes of the own set alone count, the set is rewritten and what moved is counted. -/
theorem maintainSet_own (h : (holeMaintain 16 (readSet s set)).2 ≠ 0) (hd : beyondHoles s = (d, u)) (hcross : crossFrom d (readSet s set) = none) :
    maintainSet set s = (writeSet set (holeMaintain 16 (readSet s set)).1 u).bumpBy Ctr.pmeHoleMoves (holeMaintain 16 (readSet s set)).2 := by
  simp [maintainSet, h, hd, hcross]

/-- 07 R240: where the nearest holes lie beyond the own set, its last entry crosses to the next member. -/
theorem maintainSet_cross {g n : Nat} {e : PmeEntry} {l : List (Option PmeEntry)} (h : (holeMaintain 16 (readSet s set)).2 ≠ 0)
    (hd : beyondHoles s = (d, u)) (hcross : crossFrom d (readSet s set) = some g) (hmoves : crossMoves (16 - g) g none (readSet s set) = (l, some e, n)) :
    maintainSet set s = (markAway e true ((writeSet set l u).bumpBy Ctr.pmeHoleMoves n)).emit (.flit "MOVE" (entryWords set e.part e) []) := by
  simp [maintainSet, h, hd, hcross, hmoves]

/-- Outside a depth-mode sled no hole counts but the own set's. -/
theorem beyondHoles_alone (h : inSled s = false ∨ s.getF Reg.pmeCascadeMode ≠ 1) : beyondHoles s = (0, s) := by
  have hno : (inSled s && s.getF Reg.pmeCascadeMode == 1 && decide ((sledPart s).1 + 1 < (sledPart s).2)) = false := by
    rcases h with h | h <;> simp [h]
  simp only [beyondHoles, hno, Bool.false_eq_true, if_false]

theorem crossFrom_zero (l : List (Option PmeEntry)) : crossFrom 0 l = none := by
  simp [crossFrom]

end Holes

section AgeAndSweep

variable {bank part n : Nat} {s : State}

theorem hitsAgeing_young (h : tgetD s.pme.probes bank 0 < s.getF Reg.pmeAgeLookups) : hitsAgeing bank s = s := if_pos h

/-- 07 R219: a bank that has had its lookups halves the HITS of its entries. -/
theorem hitsAgeing_old (h : s.getF Reg.pmeAgeLookups ≤ tgetD s.pme.probes bank 0) :
    hitsAgeing bank s = modPme (fun p => { p with
      probes := tdel p.probes bank
      entries := p.entries.map fun e => if bankOfSet (e.1 / 128) = bank then (e.1, { e.2 with hits := e.2.hits / 2 }) else e }) s :=
  if_neg (Nat.not_lt.2 h)

theorem sweepDue_none (h : s.pme.sweeps.contains part = false) : sweepDue part s = s := if_pos (by rw [h]; rfl)

/-- 07 R239: a sweep that is due runs, and ends the SWEEP_COLUMNS of its partition. -/
theorem sweepDue_runs (h : s.pme.sweeps.contains part = true) :
    let u := columnSweep part (modPme (fun p => { p with sweeps := p.sweeps.filter (· != part) }) s)
    sweepDue part s = if u.getF Reg.pmeSetOpOp = 5 ∧ u.getF Reg.pmeSetOpPartition = part then u.setF Reg.pmeSetOpStatBusy 0 else u :=
  if_neg (by rw [h]; simp)

theorem releaseIdleSlot_idle (h : s.pme.pendings.any (·.id == n) = false) :
    releaseIdleSlot n s = modPme (fun m => { m with slots := tdel m.slots n }) s := by
  simp only [releaseIdleSlot, h, Bool.false_eq_true, if_false]

theorem releaseIdleSlot_underWay (h : s.pme.pendings.any (·.id == n) = true) : releaseIdleSlot n s = s := if_pos h

end AgeAndSweep

section Imports

variable {id i n : Nat} {m : Import} {x : Session} {y : Model} {d : ImportData} {q : Slot} {pages : List (Nat × Nat)} {s u : State}

/-- The state once an import has ended: its record and the SYSTEM region over its buffer are gone (07 R231, 11 R364). -/
abbrev importEnded (id : Nat) (m : Import) (s : State) : State := endSystem m.region (modPme (fun p => { p with imports := tdel p.imports id }) s)

theorem importDone_none {what : Option ImportData} (h : tget s.pme.imports id = none) : importDone id what s = s := by
  simp only [importDone, h]

/-- An import that failed ends its PREFIX_ATTACH. -/
theorem importDone_failed (hm : tget s.pme.imports id = some m) (hn : namedSession m.cmd.part m.session (importEnded id m s) = .inr (i, x)) :
    importDone id none s = complete m.cmd { status := .prefixStale } (importEnded id m s) := by
  simp only [importDone, hm, hn]

/-- What the device that sent an import gave is whole: one content hash a page index, and a page of its own size for each layer (07 R230). -/
abbrev ImportWhole (m : Import) (y : Model) (d : ImportData) : Prop :=
  d.dead = false ∧ d.contents.length = m.tokens.length / 32 ∧ d.pages.length = m.tokens.length / 32 * y.layers ∧
  d.pages.all (fun b => b.length == 4096 * y.geom.slot4k (fieldAt b 3 1)) = true

/-- 07 R231: a whole import for a session that is still fresh and of its identity is attached, its slot released. -/
theorem importDone_attached (hm : tget s.pme.imports id = some m) (hn : namedSession m.cmd.part m.session (importEnded id m s) = .inr (i, x))
    (hy : (importEnded id m s).model? x.part x.model = some y) (hmay : mayAttach x = true) (hident : x.ident = m.ident) (hwhole : ImportWhole m y d)
    (hpages : importPages i y.layers y.profile y.geom x.part d.pages (importEnded id m s) = some (u, pages))
    (hcur : cursorSlot u m.cmd.part (m.cmd.arg 8 4) = some (n, q)) :
    let v := (attachPages i 0x0303 m.cmd m.tokens pages d.publisher d.final d.contents
      (modPme (fun p => { p with slots := tdel p.slots n }) u)).bump Ctr.pmeImports
    importDone id (some d) s = complete m.cmd { result0 := m.tokens.length / 32, seq := seqOf v i } v := by
  obtain ⟨hdead, hcontents, hcount, hsizes⟩ := hwhole
  have hok : ¬(d.contents.length ≠ m.tokens.length / 32 ∨ d.pages.length ≠ m.tokens.length / 32 * y.layers ∨
      (!d.pages.all fun b => b.length == 4096 * y.geom.slot4k (fieldAt b 3 1)) = true) := by
    rw [hsizes]
    simp [hcontents, hcount]
  simp only [importDone, hm, hn, hy, hmay, Bool.not_true, Bool.false_eq_true, if_false, hident, ne_eq, not_true_eq_false, hdead, if_neg hok, hpages, hcur]

end Imports

-- What O36 says beside these laws

/-- The clause of O36 about a publication: every run that commits left for the session leaves the list with the oldest. -/
def PublicationTakesEveryRun : Prop :=
  ∀ (i last : Nat) (x : Session) (s : State), Live s → tget s.ssq.sessions i = some x →
    (s.pme.toPublish.find? fun r => r.1 == x.handle) = some (x.handle, last) →
    exec (.prefixPublication i) s =
      .next (publishSession i last (modPme (fun p => { p with toPublish := p.toPublish.filter fun q => q.1 != x.handle }) s)).1

/-- The other clauses of O36 hold. -/
theorem prefixUpkeep_iff : Obligations.PrefixUpkeep ↔ PublicationTakesEveryRun := by
  unfold Obligations.PrefixUpkeep
  constructor
  · rintro ⟨hpublication, -⟩
    exact hpublication
  · intro hpublication
    refine ⟨hpublication, ?noPublication, ?holes, ?beyond, ?even, ?ageing, ?young, ?sweep, ?noSweep, ?timeout, ?underWay, ?importFails, ?imported,
      ?noImport⟩
    case noPublication =>
      intro i s h
      rw [exec_prefixPublication, live_of_eq (prefixPublication_none h)]
    case holes =>
      intro set s hl hset h halone
      rw [exec_holeMaintenance, live_of_running hl, if_pos hset, maintainSet_own h (beyondHoles_alone halone) (crossFrom_zero _)]
    case beyond =>
      intro set d s u hl hset h hd
      rw [exec_holeMaintenance, live_of_running hl, if_pos hset]
      exact ⟨fun hcross => by rw [maintainSet_own h hd hcross], fun g n e l hcross hmoves => by rw [maintainSet_cross h hd hcross hmoves]⟩
    case even =>
      intro set s hset h
      rw [exec_holeMaintenance, live_of_eq]
      rw [if_pos hset, maintainSet_even h]
    case ageing =>
      intro bank s hl h
      rw [exec_hitsAgeing, live_of_running hl, hitsAgeing_old h]
    case young =>
      intro bank s h
      rw [exec_hitsAgeing, live_of_eq (hitsAgeing_young h)]
    case sweep =>
      intro part s hl h u
      rw [exec_columnSweep, live_of_running hl, sweepDue_runs h]
    case noSweep =>
      intro part s h
      rw [exec_columnSweep, live_of_eq (sweepDue_none h)]
    case timeout =>
      intro n s hl h
      rw [exec_lookupSlotTimeout, live_of_running hl, releaseIdleSlot_idle h]
    case underWay =>
      intro n s h
      rw [exec_lookupSlotTimeout, live_of_eq (releaseIdleSlot_underWay h)]
    case importFails =>
      intro id i m x s hl hm hn
      rw [exec_importDone, live_of_running hl, importDone_failed hm hn]
    case imported =>
      intro id i n m x y d q pages s u hl hm t hn hy hmay hident hdead hcontents hcount hsizes hpages hcur v
      rw [exec_importDone, live_of_running hl, importDone_attached hm hn hy hmay hident ⟨hdead, hcontents, hcount, hsizes⟩ hpages hcur]
    case noImport =>
      intro id what s h
      rw [exec_importDone, live_of_eq (importDone_none h)]

-- Two runs of one session

/-- A session of two full pages. -/
def twoPageSession : Session :=
  { handle := 2 ^ 26, part := 0, state := .opened, model := 7, profileId := 0, contract := 1, history := List.replicate 64 3, kvLen := 64,
    seed := zeros 32, tailParams := zeros 96, hostCtx := zeros 128 }

/-- Two commits each left a run for it: to page index 0, and to page index 1. -/
def twoRunsState : State :=
  { State.reset with ssq := { sessions := [(0, twoPageSession)], models := [twinModel] }, pme := { toPublish := [(2 ^ 26, 0), (2 ^ 26, 1)] } }

/-- The runs that wait in the state that a command leaves. -/
def waitingRuns : Host.Outcome State Fault Refusal → List (Nat × Nat)
  | .next s => s.pme.toPublish
  | _ => []

/-- The model publishes the first run and leaves the second. -/
theorem waitingRuns_twoRunsState : waitingRuns (exec (.prefixPublication 0) twoRunsState) = [(2 ^ 26, 1)] := by decide +kernel

/-- Refutes O36, whose other clauses hold (`prefixUpkeep_iff`): where two commits each left a run for one session, the publication takes the first
and leaves the second, and the statement takes both from the list. Where one run alone waits, the clause holds (`prefixPublication_sole`). -/
theorem not_prefixUpkeep : ¬ Obligations.PrefixUpkeep := by
  rw [prefixUpkeep_iff]
  intro h
  have hclaim := h 0 0 twoPageSession twoRunsState (by decide +kernel) rfl rfl
  have hruns := congrArg waitingRuns hclaim
  rw [waitingRuns_twoRunsState] at hruns
  exact absurd hruns (by decide +kernel)

end Sys2Proof.Machine

/-!
The sled of cascaded devices: its messages and frames, the moves of a member's set, and what isolates a member (07 R240-R243, 15 R494, R508).
-/
namespace Sys2Proof.Machine

open Sys2Proof

theorem exec_cascadeLookup (origin id seg part session : Nat) (hs ws ts : List Nat) (s : State) :
    exec (.cascadeLookup origin id seg part session hs ws ts) s = .next (live (cascadeLookup origin id seg part session hs ws ts) s) := rfl

theorem exec_resolve (origin id seg : Nat) (s : State) : exec (.resolve origin id seg) s = .next (live (resolveRow origin id seg) s) := rfl

theorem exec_matchFrame (origin id seg : Nat) (hitIn : Bool) (k : Option RemoteColumn) (s : State) :
    exec (.matchFrame origin id seg hitIn k) s = .next (live (matchFrame origin id seg hitIn k) s) := rfl

theorem exec_cascadeResult (id seg : Nat) (hit : Option PrefixHit) (multi : Bool) (s : State) :
    exec (.cascadeResult id seg hit multi) s = .next (live (fun s => if inSled s then sledResult id seg hit multi s else s) s) := rfl

theorem exec_cascadeReject (id seg : Nat) (s : State) : exec (.cascadeReject id seg) s = .next (live (cascadeReject id seg) s) := rfl
theorem exec_cascadeMove (set : Nat) (what : EntryMove) (s : State) : exec (.cascadeMove set what) s = .next (live (cascadeMove set what) s) := rfl
theorem exec_cascadeNeighbourLinkFail (s : State) : exec .cascadeNeighbourLinkFail s = .next (live isolate s) := rfl
theorem exec_cascadeLockTimeout (s : State) : exec .cascadeLockTimeout s = .next (live isolate s) := rfl
theorem exec_matchInStuck (s : State) : exec .matchInStuck s = .next (live matchInStuck s) := rfl
theorem exec_matchInViolation (recent : Nat) (s : State) : exec (.matchInViolation recent) s = .next (live (matchInViolation recent) s) := rfl

-- What a sled reads of the registers

/-- 07 R242: a member is in its sled while it is in the cascade and not isolated. -/
theorem inSled_eq (s : State) : inSled s = (inCascade s && !s.flag Reg.pmeCascadeIsolated) := rfl

theorem inSled_of_not_inCascade {s : State} (h : inCascade s = false) : inSled s = false := by rw [inSled_eq, h, Bool.false_and]

@[simp] theorem inSled_emit (s : State) (o : Out) : inSled (s.emit o) = inSled s := rfl
@[simp] theorem ownPosition_emit (s : State) (o : Out) : ownPosition (s.emit o) = ownPosition s := rfl
@[simp] theorem ownPosition_bump (s : State) (o : Nat) : ownPosition (s.bump o) = ownPosition s := rfl
@[simp] theorem getF_emit (s : State) (o : Out) (f : Fld) : (s.emit o).getF f = s.getF f := rfl
@[simp] theorem getF_bump (s : State) (o : Nat) (f : Fld) : (s.bump o).getF f = s.getF f := rfl

/-- A mark on a column leaves the registers. -/
theorem bankOk_markAway (e : PmeEntry) (out : Bool) (s : State) (set : Nat) : bankOk (markAway e out s) set = bankOk s set := by
  unfold markAway
  split <;> rfl

section Lookups

variable {origin id seg part session : Nat} {hs ws ts : List Nat} {s : State}

/-- 07 R241: a message of another origin goes on round the ring, and its segment is compared in this member's set. -/
theorem cascadeLookup_other (hcascade : inCascade s = true) (hsled : inSled s = true) (ho : origin ≠ ownPosition s) :
    cascadeLookup origin id seg part session hs ws ts s =
      memberCompare origin id seg (queryFrom part session hs ws ts) (s.emit (lookupFlit origin id seg (queryFrom part session hs ws ts))) := by
  simp [cascadeLookup, hcascade, hsled, ho]

/-- A message that comes back to its origin draws a RESOLVE if its segment is the one to resolve. -/
theorem cascadeLookup_comeBack {p : Pending} (hcascade : inCascade s = true)
    (hp : (s.pme.pendings.find? fun p => p.id == id && !p.returned.contains seg) = some p) (hhead : p.segments.head? = some seg)
    (hfwd : p.forwarded = false) (hnext : p.next = false) :
    cascadeLookup (ownPosition s) id seg part session hs ws ts s =
      (putPending { p with returned := p.returned ++ [seg] } s).emit (resolveFlit (ownPosition s) id seg) := by
  simp only [cascadeLookup, hcascade, hp, hhead, hfwd, hnext, Bool.not_true, Bool.not_false, Bool.false_eq_true, if_false, if_true, and_self]

/-- A RESOLVE of another origin goes on past every member but the first. -/
theorem resolveRow_passes (hcascade : inCascade s = true) (ho : origin ≠ ownPosition s) (hown : ownPosition s ≠ 0) :
    resolveRow origin id seg s = s.emit (resolveFlit origin id seg) := by
  simp [resolveRow, hcascade, ho, hown]

/-- Member 0 queues the frame of its own RESOLVE, which has been round the ring. -/
theorem resolveRow_zero (hcascade : inCascade s = true) (hsled : inSled s = true) (hown : ownPosition s = 0) :
    resolveRow 0 id seg s = modPme (fun m => { m with frames := m.frames ++ [(0, id, seg)] }) s := by
  simp [resolveRow, hcascade, hsled, hown]

theorem resolveRow_outside (h : inCascade s = false) : resolveRow origin id seg s = s := if_pos (by rw [h]; rfl)

end Lookups

section Frames

variable {origin id seg : Nat} {hitIn : Bool} {k : Option RemoteColumn} {s : State}

/-- 07 R242: an isolated member sends no match. -/
theorem matchFrame_isolated (hcascade : inCascade s = true) (hsled : inSled s = false) :
    matchFrame origin id seg hitIn k s = s.emit (.matchOut [0, 0]) := by
  simp [matchFrame, hcascade, hsled]

/-- A frame without a candidate of this member passes with the match it brought; only the last member answers for one that nobody won. -/
theorem matchFrame_passes (hcascade : inCascade s = true) (hsled : inSled s = true) (hown : ownPosition s ≠ 0) (hnone : s.pme.sled = [])
    (hlast : hitIn = true ∨ ownPosition s + 1 ≠ s.getF Reg.pmeCascadeMembers) :
    matchFrame origin id seg hitIn k s = (s.bump Ctr.pmeCascadeFrames).emit (.matchOut [1, if hitIn then 1 else 0]) := by
  rcases hlast with rfl | hlast
  · simp [matchFrame, hcascade, hsled, hown, hnone]
  · simp [matchFrame, hcascade, hsled, hown, hnone, hlast]

/-- The state in which a member verifies its candidate for a frame: it has claimed the frame, and `l` remain of the segment's candidates. -/
abbrev frameClaimed (x : SledQuery) (l : List Cand) (s : State) : State :=
  modPme (fun m => { m with sled := m.sled.map fun y => if y = x then { x with q := { x.q with cands := l } } else y })
    ((s.bump Ctr.pmeCascadeFrames).emit (.matchOut [1, 1]))

/-- A member whose candidate wins the frame and verifies answers it. -/
theorem matchFrame_wins {x : SledQuery} {c : Cand} {l : List Cand} {h : PrefixHit} {u : State} (hcascade : inCascade s = true)
    (hsled : inSled s = true) (hown : ownPosition s ≠ 0)
    (hx : (s.pme.sled.find? fun x => x.origin == origin && x.id == id && x.segment == seg) = some x) (hc : x.q.cands = c :: l)
    (hv : verifySled x.q c k (frameClaimed x l s) = (u, some h)) :
    matchFrame origin id seg false k s = sledAnswer origin id seg (some h) (l.any fun d => d.entry.page + 1 == h.depth) (countHit c u) := by
  simp [matchFrame, hcascade, hsled, hown, hx, hc, hv]

end Frames

section Results

variable {id seg : Nat} {s : State}

/-- The sled's hit ends a lookup that has no cold candidate of its own. -/
theorem sledResult_hit {h : PrefixHit} {multi : Bool} {p : Pending}
    (hp : (s.pme.pendings.find? fun p => p.id == id && !p.forwarded && p.segments.head? == some seg) = some p) (hc : p.q.cands = []) :
    sledResult id seg (some h) multi s =
      settleLookup { p with q := { p.q with cands := [], named := none, spare := none }, best := some h, multi := multi } s := by
  simp [sledResult, hp, hc, runCands]

theorem cascadeReject_resolves (hsled : inSled s = true)
    (h : s.pme.pendings.any (fun p => p.id == id && !p.forwarded && p.segments.head? == some seg) = true) :
    cascadeReject id seg s = s.emit (resolveFlit (ownPosition s) id seg) := by
  rw [cascadeReject, hsled, h]
  rfl

theorem cascadeReject_outside (h : inCascade s = false) : cascadeReject id seg s = s := by
  simp [cascadeReject, inSled_of_not_inCascade h]

end Results

section Moves

variable {set column home by_ : Nat} {e : PmeEntry} {c : Column} {s : State}

theorem cascadeMove_outside {what : EntryMove} (h : inCascade s = false) : cascadeMove set what s = s :=
  if_pos (.inl (by rw [inSled_of_not_inCascade h]; rfl))

/-- A member of a sled takes the moves of its sets. -/
theorem moveTaken (hsled : inSled s = true) (hset : set < 16384) : ¬((!inSled s) = true ∨ 16384 ≤ set) := by
  simp [hsled, hset]

theorem cascadeMove_put {mirror : Bool} (hsled : inSled s = true) (hset : set < 16384) (hbank : bankOk s set = true) :
    cascadeMove set (.put e mirror by_) s = chipInsert by_ set e mirror (markAway e false s) := by
  rw [cascadeMove, if_neg (moveTaken hsled hset)]
  simp [bankOk_markAway, hbank]

/-- An entry for a bank out of service goes to the cold index. -/
theorem cascadeMove_putCold (hsled : inSled s = true) (hset : set < 16384) (hbank : bankOk s set = false) :
    cascadeMove set (.put e false by_) s = (toCold e (markAway e false s)).1 := by
  rw [cascadeMove, if_neg (moveTaken hsled hset)]
  simp [bankOk_markAway, hbank]

theorem cascadeMove_drop (hsled : inSled s = true) (hset : set < 16384) :
    cascadeMove set (.drop home column) s = dropWhere (fun e => e.home == home && e.column == column) s := if_neg (moveTaken hsled hset)

theorem cascadeMove_mateDrop (hsled : inSled s = true) (hset : set < 16384) :
    cascadeMove set (.mateDrop home column) s =
      modPme (fun p => { p with entries := p.entries.filter fun x => !(x.2.home == home && x.2.column == column) }) s := if_neg (moveTaken hsled hset)

theorem cascadeMove_mateHit (hsled : inSled s = true) (hset : set < 16384) :
    cascadeMove set (.mateHit home column) s = modPme (fun p => { p with entries := p.entries.map fun x =>
      if x.2.home = home ∧ x.2.column = column then (x.1, { x.2 with hits := min 15 (x.2.hits + 1) }) else x }) s := if_neg (moveTaken hsled hset)

/-- The way matches of a segment that this member did not compare change nothing. -/
theorem cascadeMove_wayMatch_stray {origin id seg : Nat} {ways : BitVec 128} (hsled : inSled s = true) (hset : set < 16384)
    (hnone : s.pme.sled.any (fun q => q.origin == origin && q.id == id && q.segment == seg) = false) :
    cascadeMove set (.wayMatch origin id seg ways) s = s := by
  have hother : ∀ x ∈ s.pme.sled, ¬(x.origin = origin ∧ x.id = id ∧ x.segment = seg) := by simpa [and_assoc] using hnone
  rw [cascadeMove, if_neg (moveTaken hsled hset)]
  dsimp only [modPme]
  rw [List.map_congr_left fun x hx => if_neg (hother x hx), List.map_id']

/-- A column that no entry of the sled names any more loses the count that its entry held. -/
theorem cascadeMove_gone (hsled : inSled s = true) (hset : set < 16384) (hc : tget s.pme.columns column = some c) (haway : c.away = true) :
    cascadeMove set (.gone column) s =
      unhold column (modPme (fun p => { p with columns := tmod p.columns column fun c => { c with away := false } }) s) := by
  rw [cascadeMove, if_neg (moveTaken hsled hset)]
  simp [hc, haway, markAway]

theorem cascadeMove_gone_here (hsled : inSled s = true) (hset : set < 16384) (hc : tget s.pme.columns column = some c) (haway : c.away = false) :
    cascadeMove set (.gone column) s = s := by
  rw [cascadeMove, if_neg (moveTaken hsled hset)]
  simp [hc, haway]

/-- A column whose entry another member lost is left to a sweep of its partition. -/
theorem cascadeMove_lost (hsled : inSled s = true) (hset : set < 16384) (hc : tget s.pme.columns column = some c) (haway : c.away = true)
    (hnew : s.pme.sweeps.contains c.part = false) :
    cascadeMove set (.lost column) s =
      modPme (fun p => { p with columns := tset p.columns column { c with away := false }, sweeps := p.sweeps ++ [c.part] }) s := by
  have hnot : c.part ∉ s.pme.sweeps := by simpa using hnew
  rw [cascadeMove, if_neg (moveTaken hsled hset)]
  simp [hc, haway, modPme, hnot]

end Moves

section Isolation

variable {s : State}

theorem isolate_outside (h : inCascade s = false) : isolate s = s := if_pos (by rw [h]; rfl)

/-- 07 R242: a member without lookups in the sled leaves it at once; its frames and what it compared are gone. -/
theorem isolate_idle (hcascade : inCascade s = true) (hmember : s.flag Reg.pmeCascadeIsolated = false) (hidle : s.pme.pendings = []) :
    isolate s = modPme (fun m => { m with frames := [], sled := [] })
      (logEv .pmeCascadeIsolated pPme 0xFF [ownPosition s] (s.setF Reg.pmeCascadeIsolated 1)) := by
  have hopen : (logEv .pmeCascadeIsolated pPme 0xFF [ownPosition s] (s.setF Reg.pmeCascadeIsolated 1)).pme.pendings = [] := by
    rw [(logEv_keep ..).pme rfl, State.setF_pme, hidle]
  simp only [isolate, hcascade, hmember, Bool.not_true, Bool.or_self, Bool.false_eq_true, if_false, hopen, List.filter_nil, List.foldl_nil]

theorem matchInStuck_outside (h : inCascade s = false) : matchInStuck s = s := if_pos (by rw [inSled_of_not_inCascade h]; rfl)

/-- 15 R508: MATCH_IN that stays asserted is masked, and isolates a member other than the first. -/
theorem matchInStuck_member (hsled : inSled s = true) (hown : ownPosition s ≠ 0) :
    matchInStuck s = isolate (maskMatchIn (s.satAdd (Reg.mgcPinStuck 2) 1)) := if_neg (by simp [hsled, hown])

/-- 15 R508: each violation is counted; the sixteenth of 2^20 cycles masks MATCH_IN and isolates the member. -/
theorem matchInViolation_member {recent : Nat} (hsled : inSled s = true) (hown : ownPosition s ≠ 0) :
    matchInViolation recent s =
      if 16 ≤ recent then isolate (maskMatchIn (s.satAdd (Reg.mgcPinDropped 2) 1)) else s.satAdd (Reg.mgcPinDropped 2) 1 :=
  if_neg (by simp [hsled, hown])

end Isolation

/-- Settles O37: each message, frame and move on a member of the sled, and nothing outside a cascade. -/
theorem sledMessages : Obligations.SledMessages := by
  unfold Obligations.SledMessages
  refine ⟨?lookup, ?comeBack, ?resolve, ?resolveZero, ?framePasses, ?frameWon, ?isolatedFrame, ?result, ?resultEnds, ?reject, ?move, ?moves,
    ?isolates, ?stuck, ?violation, ?outside⟩
  case lookup =>
    intro origin id seg part session hs ws ts s hl hsled hcascade ho _ q
    rw [exec_cascadeLookup, live_of_running hl, cascadeLookup_other hcascade hsled ho]
  case comeBack =>
    intro id seg part session hs ws ts p s hl hcascade hp hhead hfwd hnext
    rw [exec_cascadeLookup, live_of_running hl, cascadeLookup_comeBack hcascade hp hhead hfwd hnext]
  case resolve =>
    intro origin id seg s hl _ hcascade ho hown
    rw [exec_resolve, live_of_running hl, resolveRow_passes hcascade ho hown]
  case resolveZero =>
    intro id seg s hl hsled hcascade hown
    rw [exec_resolve, live_of_running hl, resolveRow_zero hcascade hsled hown]
  case framePasses =>
    intro origin id seg hitIn k s hl hsled hcascade hown hnone hlast
    rw [exec_matchFrame, live_of_running hl, matchFrame_passes hcascade hsled hown hnone hlast]
  case frameWon =>
    intro origin id seg k x c l h s u hl hsled hcascade hown hx hc hv
    rw [exec_matchFrame, live_of_running hl, matchFrame_wins hcascade hsled hown hx hc hv]
  case isolatedFrame =>
    intro origin id seg hitIn k s hl hcascade hsled
    rw [exec_matchFrame, live_of_running hl, matchFrame_isolated hcascade hsled]
  case result =>
    intro id seg hit multi s hl hsled
    rw [exec_cascadeResult, live_of_running hl, if_pos hsled]
  case resultEnds =>
    intro id seg h multi p s hp hc
    exact sledResult_hit hp hc
  case reject =>
    intro id seg s hl hsled h
    rw [exec_cascadeReject, live_of_running hl, cascadeReject_resolves hsled h]
  case move =>
    intro set home column by_ e mirror s hl hsled hset hbank
    simp only [exec_cascadeMove, live_of_running hl]
    exact ⟨by rw [cascadeMove_put hsled hset hbank], by rw [cascadeMove_drop hsled hset], by rw [cascadeMove_mateDrop hsled hset]⟩
  case moves =>
    intro set n column home origin id seg ways e c s hl hsled hset
    simp only [exec_cascadeMove, live_of_running hl]
    exact ⟨fun hc haway => by rw [cascadeMove_gone hsled hset hc haway], fun hc haway => by rw [cascadeMove_gone_here hsled hset hc haway],
      fun hc haway hnew => by rw [cascadeMove_lost hsled hset hc haway hnew], fun hbank => by rw [cascadeMove_putCold hsled hset hbank],
      by rw [cascadeMove_mateHit hsled hset], fun hnone => by rw [cascadeMove_wayMatch_stray hsled hset hnone]⟩
  case isolates =>
    intro s hl _ hcascade hmember hidle u
    rw [exec_cascadeNeighbourLinkFail, exec_cascadeLockTimeout, live_of_running hl, isolate_idle hcascade hmember hidle]
    exact ⟨rfl, rfl⟩
  case stuck =>
    intro s hl hsled hown
    rw [exec_matchInStuck, live_of_running hl, matchInStuck_member hsled hown]
    rfl
  case violation =>
    intro recent s hl hsled hown
    rw [exec_matchInViolation, live_of_running hl, matchInViolation_member hsled hown]
    rfl
  case outside =>
    intro a b n s h
    rw [exec_resolve, exec_cascadeReject, exec_matchInStuck, exec_cascadeLockTimeout, exec_cascadeMove, live_of_eq (resolveRow_outside h),
      live_of_eq (cascadeReject_outside h), live_of_eq (matchInStuck_outside h), live_of_eq (isolate_outside h), live_of_eq (cascadeMove_outside h)]
    exact ⟨rfl, rfl, rfl, rfl, rfl⟩

end Sys2Proof.Machine

/-!
Forwarded lookups: one that another device forwards to this one, and the answer to one that this device forwarded (07 R244, R245).
-/
namespace Sys2Proof.Machine

open Sys2Proof

theorem exec_fwdLookup (node id part hops depth : Nat) (hs ws ts : List Nat) (s : State) :
    exec (.fwdLookup node id part hops depth hs ws ts) s = .next (live (assigned (fwdLookup node id part hops hs ws ts)) s) := rfl

theorem exec_fwdAnswer (id : Nat) (hit : Option PrefixHit) (s : State) : exec (.fwdAnswer id hit) s = .next (live (assigned (fwdAnswer id hit)) s) := rfl
theorem exec_fwdTimeout (id : Nat) (s : State) : exec (.fwdTimeout id) s = .next (live (fwdTimeout id) s) := rfl

section Assigned

variable {f : State → State} {s : State}

theorem assigned_valid (h : s.nodeValid = true) : assigned f s = f s := if_pos h

/-- 10 R315: without a node number what the fabric brings is only counted. -/
theorem assigned_none (h : s.nodeValid = false) : assigned f s = s.bump Ctr.xfeNotAssigned := if_neg (by simp [h])

end Assigned

section Asked

variable {node id part hops : Nat} {hs ws ts : List Nat} {s : State}

/-- 07 R244: a lookup of a node whose access entry trusts it starts under a number of its own. -/
theorem fwdLookup_trusted {v : Nat} (hv : governing s part node part = some v) (htrust : entryKind v = 1) :
    fwdLookup node id part hops hs ws ts s =
      startLookup { id := s.pme.nextId, from_ := some { node := node, id := id }, q := queryFrom part 0 hs ws ts, hops := hops }
        (modPme (fun p => { p with nextId := s.pme.nextId + 1 }) (s.bump Ctr.pmeLookups)) := by
  simp [fwdLookup, hv, htrust]

/-- The event rings stand behind the device's node number in the register map. -/
theorem nodeAssigned_before_ringHead (n : Nat) : Reg.xfeNodeAssigned.key < (ringHead n).key := by
  unfold ringHead
  split <;> simp only [Fld.key, Reg.xfeNodeAssigned, Reg.frcPbEvringHead, Reg.frcDevEvringHead] <;> omega

theorem nodeAssigned_before_ringDropped (n : Nat) : Reg.xfeNodeAssigned.key < (ringDropped n).key := by
  unfold ringDropped
  split <;> simp only [Fld.key, Reg.xfeNodeAssigned, Reg.frcPbDropped, Reg.frcDevDropped] <;> omega

/-- An event of the XFE leaves the device's node number. -/
theorem node_logFull_xfe (e : Ev) (inst sev cseq : Nat) (detail : List Nat) (s : State) :
    (logFull e pXfe inst part sev cseq detail s).node = s.node :=
  getF_logFull (nodeAssigned_before_ringHead part).ne' (nodeAssigned_before_ringDropped part).ne' (by decide) s

/-- A lookup of a node that no access entry governs is logged and draws a NAK of reason 6 with subreason 5 (11 R369), from this device's number. -/
theorem fwdLookup_ungoverned (hv : governing s part node part = none) :
    fwdLookup node id part hops hs ws ts s =
      sendCtlTo node none none { op := 0x71, dst := node, src := s.node, seq := id } (leBytes 1 6 ++ leBytes 1 5 ++ zeros 70)
        ((logFull .xfeAccessViolation pXfe 0 part 2 0 [node, id, part, 5] (s.bump Ctr.xfeAccessNaksSent)).bump Ctr.xfeNaksSent) := by
  have hnode : (s.bump Ctr.xfeAccessNaksSent).node = s.node := rfl
  rw [fwdLookup, if_pos (by simp [hv]), fwdRefused, node_logFull_xfe, hnode]

end Asked

section Answered

variable {id : Nat} {p : Pending} {s : State}

theorem fwdAnswer_stray {hit : Option PrefixHit} (hp : (s.pme.pendings.find? fun p => p.fwdId == id && p.forwarded) = none) :
    fwdAnswer id hit s = s := by
  simp only [fwdAnswer, hp]

/-- 07 R245: an answer that gains MIN_GAIN pages replaces a local result that names no candidate of this device. -/
theorem fwdAnswer_better {h : PrefixHit} (hp : (s.pme.pendings.find? fun p => p.fwdId == id && p.forwarded) = some p) (hnamed : p.q.named = none)
    (hgain : depthOf p.best + s.getF Reg.pmeFwdMinGain ≤ h.depth) :
    fwdAnswer id (some h) s =
      answerLookup
        { p with q := { p.q with cands := p.q.cands, named := none, spare := p.best }, best := some { h with fwd := 1 }, multi := false } 1 s := by
  simp [fwdAnswer, hp, hgain, hnamed]

/-- Any other answer returns the local result. -/
theorem fwdAnswer_noBetter {hit : Option PrefixHit} (hp : (s.pme.pendings.find? fun p => p.fwdId == id && p.forwarded) = some p)
    (h : hit = none ∨ depthOf hit < depthOf p.best + s.getF Reg.pmeFwdMinGain) : fwdAnswer id hit s = answerLookup p 0 s := by
  cases hit with
  | none => simp only [fwdAnswer, hp]
  | some g =>
    have hless : g.depth < depthOf p.best + s.getF Reg.pmeFwdMinGain := by simpa [depthOf] using h
    simp only [fwdAnswer, hp, if_neg (Nat.not_le.2 hless)]

theorem fwdTimeout_stray (hp : (s.pme.pendings.find? fun p => p.fwdId == id && p.forwarded) = none) : fwdTimeout id s = s := by
  simp only [fwdTimeout, hp]

/-- A timeout is logged, and returns the local result. -/
theorem fwdTimeout_waiting (hp : (s.pme.pendings.find? fun p => p.fwdId == id && p.forwarded) = some p) :
    fwdTimeout id s =
      answerLookup p 2 (logEv .pmeFwdTimeout pPme p.q.part [s.getF Reg.pmeFwdParentNode, depthOf p.best] (s.bump Ctr.pmeFwdTimeouts)) := by
  simp only [fwdTimeout, hp]

/-- 07 R226: a lookup of this device without a hit completes its command with depth 0 and the slot's cursor. -/
theorem answerLookup_noHit {fwd : Nat} {c : Cmd} (hown : p.from_ = none) (hc : p.cmd = some c) (hnext : p.next = false) (hbest : p.best = none) :
    let u := modPme (fun m => { m with slots := tmod m.slots p.id fun _ => p.q }) (dropPending p.id s)
    answerLookup p fwd s = complete c
      { result0 := 0, result1 := cursorOf u p.id, data := some (c.dlen - 32, resultBytes none p.multi fwd (cursorOf u p.id)) } u := by
  cases hnamed : p.q.named <;> simp [answerLookup, hown, hc, hnext, hbest, hnamed, depthOf]

end Answered

/-- Settles O38: a lookup from another node by its access entry, and an answer or a timeout by the forward that waits for it. -/
theorem forwardedLookups : Obligations.ForwardedLookups := by
  unfold Obligations.ForwardedLookups
  refine ⟨?trusted, ?ungoverned, ?notAssigned, ?better, ?noBetter, ?timeout, ?stray, ?noHit⟩
  case trusted =>
    intro node id part hops depth v hs ws ts s hl hnode hv htrust u
    rw [exec_fwdLookup, live_of_running hl, assigned_valid hnode, fwdLookup_trusted hv htrust]
  case ungoverned =>
    intro node id part hops depth hs ws ts s hl hnode hv
    rw [exec_fwdLookup, live_of_running hl, assigned_valid hnode, fwdLookup_ungoverned hv]
  case notAssigned =>
    intro node id part hops depth hs ws ts hit s hl hnode
    rw [exec_fwdLookup, exec_fwdAnswer, live_of_running hl, live_of_running hl, assigned_none hnode, assigned_none hnode]
    exact ⟨rfl, rfl⟩
  case better =>
    intro id h p s hl hnode hp hnamed hgain
    rw [exec_fwdAnswer, live_of_running hl, assigned_valid hnode, fwdAnswer_better hp hnamed hgain]
  case noBetter =>
    intro id hit p s hl hnode hp h
    rw [exec_fwdAnswer, live_of_running hl, assigned_valid hnode, fwdAnswer_noBetter hp h]
  case timeout =>
    intro id p s hl hp
    rw [exec_fwdTimeout, live_of_running hl, fwdTimeout_waiting hp]
  case stray =>
    intro id hit s hnode hp
    rw [exec_fwdAnswer, exec_fwdTimeout, live_of_eq ((assigned_valid hnode).trans (fwdAnswer_stray hp)), live_of_eq (fwdTimeout_stray hp)]
    exact ⟨rfl, rfl⟩
  case noHit =>
    intro p fwd c s hown hc hnext hbest u
    exact answerLookup_noHit hown hc hnext hbest

end Sys2Proof.Machine

/-!
The canonical form of the memories (log 1): every command answers a next state (SPEC.md, Stops), and each keeps the form.
-/
namespace Sys2Proof.Machine

open Sys2Proof

/-- Each arm of `exec` answers a next state: no command ends in a fault or a refusal. -/
theorem exec_runs (c : Instr) (s : State) : Runs c s := by
  cases c <;> exact ⟨_, rfl⟩

section Canonical

variable {c : Instr} {s t : State}

theorem exec_memsOk (hs : memsOk s) (h : exec c s = .next t) : memsOk t := (exec_keep h).mem hs

/-- A command leaves the queue behind it. -/
theorem exec_pending (h : exec c s = .next t) : t.pending = s.pending := (exec_keep h).pending rfl

/-- An empty queue leaves the state; else the command at its front runs on the same memories. -/
theorem step_memsOk (hs : memsOk s) (h : step s = .next t) : memsOk t := by
  cases hq : s.pending with
  | nil =>
    simp only [step, hq] at h
    cases h
    exact hs
  | cons c rest =>
    simp only [step, hq] at h
    exact exec_memsOk (s := { s with pending := rest }) hs h

end Canonical

/-- Settles O57: a step by `step_memsOk`, and a list of commands by induction, each running (`exec_runs`) on what the one before it left. -/
theorem memoriesStayCanonical : Obligations.MemoriesStayCanonical := by
  unfold Obligations.MemoriesStayCanonical
  refine ⟨fun s t => step_memsOk, fun cs => ?run⟩
  case run =>
    induction cs with
    | nil => exact fun s hs => ⟨s, rfl, hs, rfl⟩
    | cons c cs ih =>
      intro s hs
      obtain ⟨u, hu⟩ := exec_runs c s
      obtain ⟨t, ht, hmem, hpending⟩ := ih u (exec_memsOk hs hu)
      refine ⟨t, ?_, hmem, hpending.trans (exec_pending hu)⟩
      simpa only [List.foldl_cons, Option.bind_some, hu] using ht

end Sys2Proof.Machine

/-!
The direct windows (08 R250-R255, R282, 12 R401, 13 R431): what an access leaves besides the bytes, and TIER_READ, TIER_WRITE and TIER_COPY.
-/
namespace Sys2Proof.Machine

open Sys2Proof

-- What counting an access and its answers leaves

/-- A mask that names no tier's memory keeps every tier. -/
theorem Keep.tier {k : Nat} {s t : State} (h : Keep k s t) (h0 : k.testBit 5 = false) (h1 : k.testBit 6 = false) (h2 : k.testBit 7 = false)
    (h3 : k.testBit 8 = false) (j : Nat) : t.tier j = s.tier j := by
  simp only [State.tier, h.t0 h0, h.t1 h1, h.t2 h2, h.t3 h3]

/-- `t` holds what `s` holds, as far as an access to a direct window sees it: bytes, poison, registers, the units withdrawn and the accesses
that fail. -/
structure SameStore (s t : State) : Prop where
  mem : memsOk s → memsOk t
  tier : ∀ j, t.tier j = s.tier j
  regs : t.regs = s.regs
  cwp : t.cwp = s.cwp
  hif : t.hif = s.hif
  ssq : t.ssq = s.ssq
  withdrawn : t.frc.withdrawn = s.frc.withdrawn
  badAccess : t.tmg.badAccess = s.tmg.badAccess

theorem SameStore.refl (s : State) : SameStore s s := ⟨id, fun _ => rfl, rfl, rfl, rfl, rfl, rfl, rfl⟩

theorem SameStore.trans {s t u : State} (h : SameStore s t) (g : SameStore t u) : SameStore s u :=
  ⟨g.mem ∘ h.mem, fun j => (g.tier j).trans (h.tier j), g.regs.trans h.regs, g.cwp.trans h.cwp, g.hif.trans h.hif, g.ssq.trans h.ssq,
    g.withdrawn.trans h.withdrawn, g.badAccess.trans h.badAccess⟩

/-- The answers of trays and drives move their windows and end a run of timeouts (14 R459, 08 R288). -/
theorem tierAnswers_withdrawn_badAccess (k u n : Nat) (s : State) :
    (tierAnswers k u n s).frc.withdrawn = s.frc.withdrawn ∧ (tierAnswers k u n s).tmg.badAccess = s.tmg.badAccess := by
  unfold tierAnswers
  split
  · exact List.foldlRecOn (motive := fun (t : State) => t.frc.withdrawn = s.frc.withdrawn ∧ t.tmg.badAccess = s.tmg.badAccess) _ _ ⟨rfl, rfl⟩
      fun t ht _ _ => ht
  · split
    · exact List.foldlRecOn (motive := fun (t : State) => t.frc.withdrawn = s.frc.withdrawn ∧ t.tmg.badAccess = s.tmg.badAccess) _ _ ⟨rfl, rfl⟩
        fun t ht _ _ => ht
    · exact ⟨rfl, rfl⟩

theorem sameStore_tierAnswers (k u n : Nat) (s : State) : SameStore s (tierAnswers k u n s) :=
  have hkeep := tierAnswers_keep k u n s
  have hfail := tierAnswers_withdrawn_badAccess k u n s
  ⟨hkeep.mem, hkeep.tier rfl rfl rfl rfl, hkeep.regs rfl, hkeep.cwp rfl, hkeep.hif rfl, hkeep.ssq rfl rfl rfl rfl rfl rfl rfl rfl rfl, hfail.1, hfail.2⟩

theorem sameStore_countUnits (k u n : Nat) (write : Bool) (s : State) : SameStore s (countUnits k u n write s) :=
  have hkeep := countUnits_keep k u n write s
  ⟨hkeep.mem, hkeep.tier rfl rfl rfl rfl, hkeep.regs rfl, hkeep.cwp rfl, hkeep.hif rfl, hkeep.ssq rfl rfl rfl rfl rfl rfl rfl rfl rfl,
    congrArg _ (hkeep.frc rfl), congrArg _ (hkeep.tmg rfl)⟩

section SameStore

variable {s t : State} (h : SameStore s t)

include h

theorem SameStore.tierUp (k : Nat) : t.tierUp k = s.tierUp k := by
  simp only [State.tierUp, State.flag, State.getF_regs h.regs]

theorem SameStore.accessFails (k u n : Nat) (write : Bool) : accessFails k u n write t = accessFails k u n write s := by
  simp only [Machine.accessFails, failedUnits, h.badAccess]

theorem SameStore.directAddr (n k a : Nat) : t.directAddr n k a = s.directAddr n k a := directAddr_regs h.regs n k a

theorem SameStore.inDirect (n k a len : Nat) : t.inDirect n k a len = s.inDirect n k a len := by
  simp only [State.inDirect, State.directSize, withdrawnOf, inPart, h.withdrawn, State.getF_regs h.regs]

theorem SameStore.directPoisoned (n k a len : Nat) : t.directPoisoned n k a len = s.directPoisoned n k a len := by
  have hpoison : t.poisonedIn k = s.poisonedIn k := by
    funext l
    rw [State.poisonedIn, h.cwp, State.poisonedIn]
  simp only [State.directPoisoned, h.directAddr, hpoison]

end SameStore

-- A direct range written

/-- `u` holds `b` at a direct range, and what `s` holds everywhere else. -/
structure WindowStored (n k a : Nat) (b : List Byte) (s u : State) : Prop where
  read : u.directRead n k a b.length = b
  elsewhere : ∀ x, (∀ i < b.length, x ≠ s.directAddr n k (a + i)) → memGet (u.tier k) x = memGet (s.tier k) x
  tier : ∀ j, j < 4 → j ≠ k → u.tier j = s.tier j
  regs : u.regs = s.regs
  hif : u.hif = s.hif
  ssq : u.ssq = s.ssq

/-- A write of a direct range whose tier is up, none of whose units fails and none of whose lines is poisoned, stores its bytes, whatever the
accesses before it have counted. -/
theorem directPut_stored {n k a : Nat} {b : List Byte} {s t : State} (h : SameStore s t) (hs : memsOk s) (hk : k < 4)
    (hw : s.inDirect n k a b.length = true) (hup : s.tierUp k = true)
    (hfails : accessFails k (unitsOf (s.directAddr n k a) b.length).1 (unitsOf (s.directAddr n k a) b.length).2 true s = false)
    (hpoison : s.directPoisoned n k a b.length = []) (h0 : k = 0 → s.getF (Reg.mgcPbExtentDirect4k n 0) * 4096 ≤ 48 * gib) :
    ∃ u, directPut n k a b t = (u, none) ∧ WindowStored n k a b s u := by
  have hput := directPut_ok (s := t) (n := n) (k := k) (a := a) (b := b) (by rw [h.tierUp, hup]) (by rw [h.directAddr, h.accessFails, hfails])
  have hv := h.trans (sameStore_tierAnswers k (unitsOf (t.directAddr n k a) b.length).1 (unitsOf (t.directAddr n k a) b.length).2 t)
  generalize tierAnswers k (unitsOf (t.directAddr n k a) b.length).1 (unitsOf (t.directAddr n k a) b.length).2 t = v at hput hv
  have hkeep := directStore_keep n k a b v
  obtain ⟨hread, helse, hother, hregs⟩ := directStore_spec (hv.mem hs) n k a hk b (by rw [hv.inDirect, hw])
    (fun hz => by rw [State.getF_regs hv.regs]; exact h0 hz) (by rw [hv.directPoisoned, hpoison])
  refine ⟨_, hput, hread, fun x hx => ?_, fun j hj hjk => (hother j hj hjk).trans (hv.tier j), hregs.trans hv.regs, (hkeep.hif rfl).trans hv.hif,
    (hkeep.ssq rfl rfl rfl rfl rfl rfl rfl rfl rfl).trans hv.ssq⟩
  rw [helse x fun i hi => by rw [hv.directAddr]; exact hx i hi]
  rw [hv.tier]

/-- A read of a direct range without poison, bad tags or a failing unit answers its bytes and only counts. -/
theorem directFetch_bytes {n k a len : Nat} {s : State} (hup : s.tierUp k = true)
    (hfails : accessFails k (unitsOf (s.directAddr n k a) len).1 (unitsOf (s.directAddr n k a) len).2 false s = false)
    (hpoison : s.directPoisoned n k a len = []) (hbad : s.sec.badUnits = []) :
    ∃ u, directFetch n k a len s = (u, .inr (s.directRead n k a len)) ∧ SameStore s u :=
  ⟨_, directFetch_ok hup hfails hpoison hbad, (sameStore_tierAnswers ..).trans (sameStore_countUnits ..)⟩

theorem directRead_length (s : State) (n k a len : Nat) : (s.directRead n k a len).length = len := by
  simp [State.directRead]

/-- A command's data buffer has the length that its entry gives. -/
theorem buffer_length (c : Cmd) (s : State) : (c.buffer s).length = c.dlen := by
  unfold Cmd.buffer
  split
  · exact directRead_length ..
  · simp [slice, zeros]

/-- Where no access fails none of a range does. -/
theorem accessFails_of_badAccess {s : State} (h : s.tmg.badAccess = []) (k u n : Nat) (write : Bool) : accessFails k u n write s = false := by
  simp [accessFails, failedUnits, h]

-- The commands

theorem exec_tierRead (c : Cmd) (s : State) : exec (.tierRead c) s = .next (hostCmd 0x0401 c (tierRead c) s) := rfl
theorem exec_tierWrite (c : Cmd) (s : State) : exec (.tierWrite c) s = .next (hostCmd 0x0402 c (tierWrite c) s) := rfl
theorem exec_tierCopy (c : Cmd) (s : State) : exec (.tierCopy c) s = .next (hostCmd 0x0403 c (tierCopy c) s) := rfl

section Commands

variable {c : Cmd} {s u : State}

/-- TIER_READ of a range whose lines are ready, and that answers its bytes. -/
theorem tierRead_bytes {b : List Byte} (hargs : c.argsOk [(0, 1), (8, 8)] = true) (hk : c.arg 0 1 < 4)
    (hw : s.inDirect c.part (c.arg 0 1) (c.arg 8 8) c.dlen = true)
    (hlines : beginAccess (.command 0x0401 c) (s.directLines c.part (c.arg 0 1) (c.arg 8 8) c.dlen) false s = none)
    (hfetch : directFetch c.part (c.arg 0 1) (c.arg 8 8) c.dlen s = (u, .inr b)) : tierRead c s = .done u { data := some (0, b) } := by
  simp only [tierRead, hargs, decide_eq_true hk, Bool.and_true, need_true, hw, hlines, hfetch]

theorem tierRead_outside (hargs : c.argsOk [(0, 1), (8, 8)] = true) (hk : c.arg 0 1 < 4)
    (hw : s.inDirect c.part (c.arg 0 1) (c.arg 8 8) c.dlen = false) : tierRead c s = .fail .windowRange := by
  simp only [tierRead, hargs, decide_eq_true hk, Bool.and_true, need_true, hw, need_false]

/-- TIER_WRITE of a range whose lines are ready, and that takes the buffer. -/
theorem tierWrite_stores (hargs : c.argsOk [(0, 1), (8, 8)] = true) (hk : c.arg 0 1 < 4)
    (hw : s.inDirect c.part (c.arg 0 1) (c.arg 8 8) c.dlen = true)
    (hlines : beginAccess (.command 0x0402 c) (s.directLines c.part (c.arg 0 1) (c.arg 8 8) c.dlen) true s = none)
    (hput : directPut c.part (c.arg 0 1) (c.arg 8 8) (c.buffer s) s = (u, none)) : tierWrite c s = .done u {} := by
  simp only [tierWrite, hargs, decide_eq_true hk, Bool.and_true, need_true, hw, hlines, hput]

/-- TIER_COPY of ranges whose lines are ready: what the source answers is what the destination takes. -/
theorem tierCopy_stores {t : State} {b : List Byte} (hargs : c.argsOk [(0, 2), (8, 24)] = true) (hk : c.arg 0 1 < 4) (hj : c.arg 1 1 < 4)
    (hlen : c.dlen = 0) (hsource : s.inDirect c.part (c.arg 0 1) (c.arg 8 8) (c.arg 0x18 8) = true)
    (hdest : s.inDirect c.part (c.arg 1 1) (c.arg 0x10 8) (c.arg 0x18 8) = true)
    (hread : beginAccess (.command 0x0403 c) (s.directLines c.part (c.arg 0 1) (c.arg 8 8) (c.arg 0x18 8)) false s = none)
    (hwrite : beginAccess (.command 0x0403 c) (s.directLines c.part (c.arg 1 1) (c.arg 0x10 8) (c.arg 0x18 8)) true s = none)
    (hfetch : directFetch c.part (c.arg 0 1) (c.arg 8 8) (c.arg 0x18 8) s = (t, .inr b))
    (hput : directPut c.part (c.arg 1 1) (c.arg 0x10 8) b t = (u, none)) : tierCopy c s = .done u {} := by
  simp only [tierCopy, hargs, decide_eq_true hk, decide_eq_true hj, decide_eq_true hlen, Bool.and_true, need_true, hsource, hdest, hread, hwrite,
    hfetch, hput]

/-- A host command that the common checks refuse completes with their status. -/
theorem hostCmd_refused {op : Nat} {body : State → Res} {st : Status} (h : gate op c s = .fail st) :
    hostCmd op c body s = complete c { status := st } s := by
  rw [hostCmd, h]

/-- The common checks of TIER_WRITE end with the range that it names (08 R252). -/
theorem gate_tierWrite_outside (hl : Live s) (hfence : isFenced s pHif 0 = false ∨ c.origin = .i3c) (hturn : startsInTurn s c.origin = true)
    (hop : opAllowed 0x0402 c.origin = true) (hdesc : descOk 0x0402 c = true) (hbuf : bufferCheck c s = none)
    (hready : s.flag Reg.mgcBootDataReady = true) (hstate : opInState 0x0402 (s.pstate c.part) = true)
    (hw : s.inDirect c.part (c.arg 0 1) (c.arg 8 8) c.dlen = false) : gate 0x0402 c s = .fail .windowRange := by
  have hfenced : (isFenced s pHif 0 && c.origin != .i3c) = false := by
    rcases hfence with h | h <;> simp [h]
  obtain ⟨⟨hoff, hfatal⟩, -⟩ : (s.mgc.off = false ∧ s.mgc.fatal = false) ∧ s.pwr ≠ pwrMgmt := by simpa [Live, State.running] using hl
  simp [gate, hoff, hfatal, hfenced, hturn, hop, hdesc, hbuf, hready, hstate, tierRangeOk, hw]

end Commands

/-- Settles O12: the read and the write of a direct range by `directFetch_bytes` and `directPut_stored`, of which a copy is both. -/
theorem tierWriteReadCopy : Obligations.TierWriteReadCopy := by
  unfold Obligations.TierWriteReadCopy
  refine ⟨?write, ?read, ?copy, ?outside, ?refused, ?gate⟩
  case write =>
    intro c s hs ha hargs hk hw hup hfails hlines hpoison h0
    have hlen := buffer_length c s
    obtain ⟨u, hput, hu⟩ := directPut_stored (b := c.buffer s) (.refl s) hs hk (by rw [hlen, hw]) hup (by rw [hlen]; exact hfails)
      (by rw [hlen, hpoison]) h0
    obtain ⟨hread, helse, hother, hregs, hhif, hssq⟩ := hu
    rw [hlen] at hread helse
    refine ⟨u, ?_, hread, helse, hother, hregs, hhif, hssq⟩
    rw [exec_tierWrite, hostCmd_done ha (tierWrite_stores hargs hk hw hlines hput)]
  case read =>
    intro c s ha hargs hk hw hup hfails hlines hpoison hbad
    obtain ⟨u, hfetch, hu⟩ := directFetch_bytes hup hfails hpoison hbad
    refine ⟨u, ?_, hu.tier, hu.regs, hu.hif, hu.ssq, hu.cwp⟩
    rw [exec_tierRead, hostCmd_done ha (tierRead_bytes hargs hk hw hlines hfetch)]
  case copy =>
    intro c s hs ha hargs hk hj hlen hsource hdest hup hup' hfails hread hwrite hpoison hpoison' hbad h0
    have hb := directRead_length s c.part (c.arg 0 1) (c.arg 8 8) (c.arg 0x18 8)
    obtain ⟨t, hfetch, ht⟩ := directFetch_bytes hup (accessFails_of_badAccess hfails _ _ _ _) hpoison hbad
    obtain ⟨u, hput, hu⟩ := directPut_stored (b := s.directRead c.part (c.arg 0 1) (c.arg 8 8) (c.arg 0x18 8)) ht hs hj (by rw [hb, hdest]) hup'
      (accessFails_of_badAccess hfails _ _ _ _) (by rw [hb, hpoison']) h0
    obtain ⟨hcopied, helse, hother, hregs, hhif, hssq⟩ := hu
    rw [hb] at hcopied helse
    refine ⟨u, ?_, hcopied, helse, hother, hregs, hhif, hssq⟩
    rw [exec_tierCopy, hostCmd_done ha (tierCopy_stores hargs hk hj hlen hsource hdest hread hwrite hfetch hput)]
  case outside =>
    intro c s ha hargs hk hw
    rw [exec_tierRead, hostCmd_fail ha (tierRead_outside hargs hk hw)]
  case refused =>
    intro c s h
    rw [exec_tierWrite, hostCmd_refused h]
  case gate =>
    intro c s hl hfence hturn hop hdesc hbuf hready hstate hw
    exact gate_tierWrite_outside hl hfence hturn hop hdesc hbuf hready hstate hw

end Sys2Proof.Machine

/-!
Trays and drives (08 R283, R284, R288, 14 R459, R467): ports and drives that leave service and return, and what of them is logged and counted.
-/
namespace Sys2Proof.Machine

open Sys2Proof

-- What an event leaves

theorem frc_hostRing (r : EvRec) (s : State) : ∃ rings, (hostRing r s).frc = { s.frc with rings := rings } := by
  unfold hostRing
  dsimp only
  split
  · exact ⟨_, rfl⟩
  · split
    · exact ⟨_, rfl⟩
    · exact ⟨_, State.signal_frc ..⟩

/-- An event moves the log's number and its rings (14 R456, R457), and nothing else of the FRC. -/
theorem frc_logFull (e : Ev) (slot inst part sev cseq : Nat) (detail : List Nat) (s : State) :
    ∃ seq ring rings, (logFull e slot inst part sev cseq detail s).frc = { s.frc with seq := seq, ring := ring, rings := rings } := by
  unfold logFull
  extract_lets r frc s₁ s₂ s₃
  have htrace : s₃.frc = s₂.frc := by
    unfold s₃
    split
    · exact (traceRecord_keep _ _).frc rfl
    · rfl
  split
  · exact ⟨_, _, _, htrace⟩
  · obtain ⟨rings, h⟩ := frc_hostRing r s₃
    exact ⟨_, _, rings, by rw [h, htrace]; rfl⟩

section Event

variable (e : Ev) (slot part : Nat) (detail : List Nat) (s : State)

theorem labels_logEv : (logEv e slot part detail s).frc.labels = s.frc.labels := by
  obtain ⟨_, _, _, h⟩ := frc_logFull e slot 0 part 0 0 detail s
  rw [logEv, h]

theorem drives_logEv : (logEv e slot part detail s).frc.drives = s.frc.drives := by
  obtain ⟨_, _, _, h⟩ := frc_logFull e slot 0 part 0 0 detail s
  rw [logEv, h]

theorem ssq_logEv : (logEv e slot part detail s).ssq = s.ssq := (logEv_keep e slot part detail s).ssq rfl rfl rfl rfl rfl rfl rfl rfl rfl

theorem tmg_logEv : (logEv e slot part detail s).tmg = s.tmg := (logEv_keep e slot part detail s).tmg rfl

end Event

theorem flag_setF_other {f g : Fld} (h : f.key ≠ g.key) (v : Nat) (s : State) : (s.setF f v).flag g = s.flag g := by
  rw [State.flag, State.getF_setF_other s f g v h, State.flag]

-- Ports

theorem exec_cxdPortDown (p : Nat) (s : State) : exec (.cxdPortDown p) s = .next (live (fun s => if p < 2 then portOut p s else s) s) := rfl

/-- A trained port, at a step boundary of all wheels (08 R284). -/
def portReturn (p lanes : Nat) (s : State) : State :=
  if 2 ≤ p ∨ s.flag (Reg.cxdPortLinkUp p) ∨ !((tvals s.ssq.wheels).all (·.atBoundary)) then s
  else
    let u := (s.setF (Reg.cxdPortLinkUp p) 1).setF (Reg.cxdPortWidth p) lanes
    if u.flag (Reg.cxdPortLinkUp (1 - p)) then (u.setF (Reg.cxdPortSingle (1 - p)) 0).setF (Reg.tmgTierCapDegraded 2) 0
    else u.setF (Reg.cxdPortSingle p) 1

theorem exec_cxdPortReturn (p lanes : Nat) (s : State) : exec (.cxdPortReturn p lanes) s = .next (live (portReturn p lanes) s) := rfl

section Ports

variable {p lanes : Nat} {s : State}

/-- What a port's own register takes leaves the link of the other. -/
theorem linkUp_beside (hp : p < 2) (f : Fld) (hf : f = Reg.cxdPortLinkUp p ∨ f = Reg.cxdPortWidth p ∨ f = Reg.cxdPortSingle p) (v : Nat) (s : State) :
    (s.setF f v).flag (Reg.cxdPortLinkUp (1 - p)) = s.flag (Reg.cxdPortLinkUp (1 - p)) := by
  refine flag_setF_other ?_ v s
  rcases hf with rfl | rfl | rfl <;> simp only [Fld.key, Reg.cxdPortLinkUp, Reg.cxdPortWidth, Reg.cxdPortSingle] <;> omega

theorem portOut_down (h : s.flag (Reg.cxdPortLinkUp p) = false) : portOut p s = s := by
  simp [portOut, h]

/-- A port that goes down leaves both halves to the other, if that is up. -/
theorem portOut_up (hp : p < 2) (hup : s.flag (Reg.cxdPortLinkUp p) = true) (hother : s.flag (Reg.cxdPortLinkUp (1 - p)) = true) :
    portOut p s = logEv .cxdPortDown (pCxd + p) 0xFF [p] ((((((s.setF (Reg.cxdPortLinkUp p) 0).setF (Reg.cxdPortWidth p) 0).setF
      (Reg.cxdPortSingle p) 0).setF (Reg.cxdPortSingle (1 - p)) 1).setF (Reg.tmgTierCapDegraded 2) 1).bump (Ctr.cxdLinkDowns p)) := by
  have hstill : (((s.setF (Reg.cxdPortLinkUp p) 0).setF (Reg.cxdPortWidth p) 0).setF (Reg.cxdPortSingle p) 0).flag (Reg.cxdPortLinkUp (1 - p)) = true := by
    rw [linkUp_beside hp _ (.inr (.inr rfl)), linkUp_beside hp _ (.inr (.inl rfl)), linkUp_beside hp _ (.inl rfl), hother]
  simp only [portOut, hup, Bool.not_true, Bool.false_eq_true, if_false, hstill, if_true]

theorem portReturn_waits (h : (tvals s.ssq.wheels).all (·.atBoundary) = false) : portReturn p lanes s = s := if_pos (.inr (.inr (by rw [h]; rfl)))

/-- A port that returns beside one that is up takes back its half. -/
theorem portReturn_beside (hp : p < 2) (hdown : s.flag (Reg.cxdPortLinkUp p) = false) (hother : s.flag (Reg.cxdPortLinkUp (1 - p)) = true)
    (hbound : (tvals s.ssq.wheels).all (·.atBoundary) = true) :
    portReturn p lanes s = (((s.setF (Reg.cxdPortLinkUp p) 1).setF (Reg.cxdPortWidth p) lanes).setF (Reg.cxdPortSingle (1 - p)) 0).setF
      (Reg.tmgTierCapDegraded 2) 0 := by
  have hstill : ((s.setF (Reg.cxdPortLinkUp p) 1).setF (Reg.cxdPortWidth p) lanes).flag (Reg.cxdPortLinkUp (1 - p)) = true := by
    rw [linkUp_beside hp _ (.inr (.inl rfl)), linkUp_beside hp _ (.inl rfl), hother]
  have htaken : ¬(2 ≤ p ∨ s.flag (Reg.cxdPortLinkUp p) ∨ !((tvals s.ssq.wheels).all (·.atBoundary))) := by
    simp only [hdown, hbound]
    simpa using hp
  rw [portReturn, if_neg htaken]
  exact if_pos hstill

end Ports

-- Drives

theorem exec_nvcDriveFatal (d : Nat) (s : State) : exec (.nvcDriveFatal d) s = .next (live (driveOut d) s) := rfl

theorem exec_nvcPrsntChange (d : Nat) (present : Bool) (s : State) :
    exec (.nvcPrsntChange d present) s = .next (live (fun s => if d < 8 then prsntChange d present s else s) s) := rfl

theorem exec_driveProtocolViolation (d : Nat) (hdr : List Byte) (s : State) :
    exec (.driveProtocolViolation d hdr) s = .next (live (fun s => if d < 8 then driveViolation d hdr s else s) s) := rfl

theorem exec_trayEventPoll (p : Nat) (errors : List (List Nat)) (s : State) : exec (.trayEventPoll p errors) s =
    .next (live (fun s => if p < 2 then errors.foldl (fun s e => logEv .cxdMedia (pCxd + p) 0xFF (p :: e) s) s else s) s) := rfl

section Drives

variable {d : Nat} {s : State}

theorem dropMember_member (hlabel : (tget s.frc.labels d).isSome = true) (harea : s.flag Reg.frcCapsuleStatArea = true) :
    dropMember d s = logEv .frcAreaLost pFrc 0xFF [d] (s.setF Reg.frcCapsuleStatArea 0) := if_pos (by rw [hlabel, harea]; rfl)

/-- A drive that is no member of the capsule set leaves the area (14 R467). -/
theorem dropMember_other (hlabel : tget s.frc.labels d = none) : dropMember d s = s := if_neg (by simp [hlabel])

theorem driveOut_unready (h : s.flag (Reg.nvcDriveReady d) = false) : driveOut d s = s := by
  simp [driveOut, h]

/-- A drive in service that is no member of the capsule set goes out (08 R288). -/
theorem driveOut_ready (h : s.flag (Reg.nvcDriveReady d) = true) (hlabel : tget s.frc.labels d = none) :
    driveOut d s = (logEv .nvcDriveFailed (pNvc + d) 0xFF [d] ((s.setF (Reg.nvcDriveReady d) 0).setF (Reg.nvcDriveFailed d) 1)).setF
      (Reg.tmgTierCapDegraded 3) 1 := by
  simp only [driveOut, h, Bool.not_true, Bool.false_eq_true, if_false]
  exact dropMember_other (by rw [State.setF_frc, labels_logEv]; exact hlabel)

/-- A completion that breaks NVMe, logged and counted in its drive's window (14 R459). -/
def violationCounted (d : Nat) (hdr : List Byte) (s : State) : State :=
  let u := logEv .nvcProtocol (pNvc + d) 0xFF [d, fieldAt hdr 0 8, fieldAt hdr 8 8, fieldAt hdr 16 8] s
  u.setFrc { u.frc with drives := tset u.frc.drives d ((tgetD u.frc.drives d {}).count 1 true).1 }

/-- The event of a violation leaves the fields that neither the drive's page nor the device's own ring moves. -/
theorem getF_violationCounted {f : Fld} (hhead : Reg.frcDevEvringHead.key ≠ f.key) (hdrop : Reg.frcDevDropped.key ≠ f.key)
    (hpend : (Reg.blkEvPendPend (pNvc + d)).key ≠ f.key) (hdr : List Byte) (s : State) : (violationCounted d hdr s).getF f = s.getF f :=
  getF_logFull (part := 0xFF) hhead hdrop hpend s

theorem driveLimit_violationCounted (d : Nat) (hdr : List Byte) (s : State) :
    (violationCounted d hdr s).getF Reg.frcPartnerDriveLimit = s.getF Reg.frcPartnerDriveLimit := by
  refine getF_violationCounted (by decide) (by decide) ?_ hdr s
  simp only [Fld.key, Reg.blkEvPendPend, Reg.frcPartnerDriveLimit]
  omega

theorem driveReady_violationCounted (d : Nat) (hdr : List Byte) (s : State) :
    (violationCounted d hdr s).flag (Reg.nvcDriveReady d) = s.flag (Reg.nvcDriveReady d) := by
  refine congrArg (· == 1) (getF_violationCounted ?_ ?_ ?_ hdr s) <;>
    simp only [Fld.key, Reg.frcDevEvringHead, Reg.frcDevDropped, Reg.blkEvPendPend, Reg.nvcDriveReady] <;> omega

/-- A violation is counted, and takes the drive out at the limit. -/
theorem driveViolation_eq (d : Nat) (hdr : List Byte) (s : State) :
    driveViolation d hdr s = if s.getF Reg.frcPartnerDriveLimit ≠ 0 ∧ s.getF Reg.frcPartnerDriveLimit ≤ (tgetD s.frc.drives d {}).bad + 1 ∧
      s.flag (Reg.nvcDriveReady d) then driveOut d ((violationCounted d hdr s).bump Ctr.frcPartnerCutoffs) else violationCounted d hdr s := by
  rw [← driveLimit_violationCounted d hdr s, ← driveReady_violationCounted d hdr s,
    ← drives_logEv .nvcProtocol (pNvc + d) 0xFF [d, fieldAt hdr 0 8, fieldAt hdr 8 8, fieldAt hdr 16 8] s]
  rfl

end Drives

/-- Settles O51: each row by the case of its port or drive, and a violation by what it counts (`driveViolation_eq`). -/
theorem traysAndDrives : Obligations.TraysAndDrives := by
  unfold Obligations.TraysAndDrives
  refine ⟨?down, ?alreadyDown, ?back, ?notYet, ?fatal, ?out, ?present, ?area, ?counted, ?cutoff, ?polled⟩
  case down =>
    intro p s hl hp hup hother
    rw [exec_cxdPortDown, live_of_running hl, if_pos hp, portOut_up hp hup hother]
  case alreadyDown =>
    intro p s h
    rw [exec_cxdPortDown, live_of_eq]
    rcases h with hp | hdown
    · exact if_neg (Nat.not_lt.2 hp)
    · rw [portOut_down hdown, ite_self]
  case back =>
    intro p lanes s hl hp hdown hother hbound
    rw [exec_cxdPortReturn, live_of_running hl, portReturn_beside hp hdown hother hbound]
  case notYet =>
    intro p lanes s h
    rw [exec_cxdPortReturn, live_of_eq (portReturn_waits h)]
  case fatal =>
    intro d s hl hready hlabel
    have hexec : exec (.nvcDriveFatal d) s = .next ((logEv .nvcDriveFailed (pNvc + d) 0xFF [d]
        ((s.setF (Reg.nvcDriveReady d) 0).setF (Reg.nvcDriveFailed d) 1)).setF (Reg.tmgTierCapDegraded 3) 1) := by
      rw [exec_nvcDriveFatal, live_of_running hl, driveOut_ready hready hlabel]
    exact ⟨_, hexec, hexec, ssq_logEv .., tmg_logEv .., labels_logEv ..⟩
  case out =>
    intro d s h
    rw [exec_nvcDriveFatal, live_of_eq (driveOut_unready h)]
  case present =>
    intro d s hl hd
    simp only [exec_nvcPrsntChange, live_of_running hl, if_pos hd]
    exact ⟨rfl, rfl⟩
  case area =>
    intro d s hlabel harea
    exact dropMember_member hlabel harea
  case counted =>
    intro d hdr s hl hd hlimit
    refine ⟨violationCounted d hdr s, ?_, ?_, labels_logEv .., ssq_logEv .., tmg_logEv ..⟩
    · rw [exec_driveProtocolViolation, live_of_running hl, if_pos hd, driveViolation_eq, if_neg fun h => h.1 hlimit]
    · simp only [violationCounted, State.setFrc, drives_logEv]
  case cutoff =>
    intro d hdr s hl hd hlimit hready u
    rw [exec_driveProtocolViolation, live_of_running hl, if_pos hd, driveViolation_eq, if_pos ⟨by simp [hlimit], by simp [hlimit], hready⟩]
    rfl
  case polled =>
    intro p e s hl hp
    simp only [exec_trayEventPoll, live_of_running hl, if_pos hp]
    exact ⟨rfl, rfl⟩

end Sys2Proof.Machine

/-!
Relief, clean-ahead copies, promotion by heat and the heat sweep (08 R257, R259, R263, R265-R267, R286, 12 R400).
-/
namespace Sys2Proof.Machine

open Sys2Proof

-- SPILLWAY_RELIEF

theorem exec_spillwayRelief (n k : Nat) (cols : List Nat) (s : State) :
    exec (.spillwayRelief n k cols) s = .next (live (spillRelief n k cols) s) := rfl

section Relief

variable {n k : Nat} {s : State}

/-- Below T0 only the occupancy asks for relief. -/
theorem spillRelief_belowT0 (hk : k ≠ 0) (cols : List Nat) :
    spillRelief n k cols s = if 3 ≤ k ∨ occupied s n k (hiWater s) 0 0 = false then s
      else afterMoves (relieve n k false (cols.foldl (fun s i => foldColumn n i s) s)) := by
  have hnot : (k == 0) = false := by simpa using hk
  simp [spillRelief, hnot]

/-- T3 has no tier below it. -/
theorem spillRelief_T3 (hk : 3 ≤ k) (cols : List Nat) : spillRelief n k cols s = s := if_pos (.inl hk)

/-- T0 below HI_WATER that nothing waits for: no read, no commit and no append. -/
theorem spillRelief_unneeded (hwater : occupied s n 0 (hiWater s) 0 0 = false) (hwaits : s.tmg.allocWaits = []) (hturns : s.ssq.turns = [])
    (hwheels : s.ssq.wheels = []) (cols : List Nat) : spillRelief n 0 cols s = s := by
  simp [spillRelief, hwater, hwaits, hturns, hwheels]

end Relief

-- CLEAN_AHEAD

theorem exec_cleanAhead (n : Nat) (s : State) : exec (.cleanAhead n) s = .next (live (cleanAhead n) s) := rfl

section CleanAhead

variable {n : Nat} {s : State}

theorem cleanAhead_off (h : s.flag Reg.tmgMigrateCleanAhead = false ∨ belowWater s n 1 = false) : cleanAhead n s = s := if_pos (by simpa using h)

/-- The first sealed T0 page without a lower copy is copied to T1. -/
theorem cleanAhead_page {h : Nat} {r : PageRec} {t : State} (hon : s.flag Reg.tmgMigrateCleanAhead = true) (hroom : belowWater s n 1 = true)
    (hpage : s.tmg.records.find? (fun e => e.2.part == n && e.2.tier == 0 && e.2.sealed && !e.2.lowerValid && !e.2.recovery && !e.2.lost &&
      (moveOf s e.1).isNone) = some (h, r)) (hmove : startMove h 1 .cleanAhead s = some t) : cleanAhead n s = t := by
  simp only [cleanAhead, hon, hroom, Bool.not_true, Bool.false_eq_true, or_self, if_false, hpage, hmove, Option.getD_some]

end CleanAhead

-- HEAT_PROMOTION

theorem exec_heatPromotion (h : Nat) (s : State) : exec (.heatPromotion h) s = .next (live (heatPromotion h) s) := rfl

/-- The tier to which a page below T0 is promoted: T0 from T1, T1 from below (08 R267). -/
def promoteTier (r : PageRec) : Nat := if r.tier = 1 then 0 else 1

/-- The HEAT at which a page is promoted. -/
def promoteHeat (s : State) (r : PageRec) : Nat := if r.tier = 1 then s.getF Reg.tmgMigratePromoteT0 else s.getF Reg.tmgMigratePromoteT1

/-- A page below T0 is hot enough to be promoted, and there is room for it. -/
def promotable (s : State) (r : PageRec) : Bool := r.tier != 0 && decide (promoteHeat s r ≤ r.heat) && belowWater s r.part (promoteTier r)

section Promotion

variable {h : Nat} {r : PageRec} {s : State}

theorem promoteTier_T1 (ht : r.tier = 1) : promoteTier r = 0 := if_pos ht
theorem promoteTier_below (ht : r.tier ≠ 1) : promoteTier r = 1 := if_neg ht
theorem promoteHeat_T1 (ht : r.tier = 1) : promoteHeat s r = s.getF Reg.tmgMigratePromoteT0 := if_pos ht
theorem promoteHeat_below (ht : r.tier ≠ 1) : promoteHeat s r = s.getF Reg.tmgMigratePromoteT1 := if_neg ht

theorem promotable_iff : promotable s r = true ↔ r.tier ≠ 0 ∧ promoteHeat s r ≤ r.heat ∧ belowWater s r.part (promoteTier r) = true := by
  simp only [promotable, Bool.and_eq_true, bne_iff_ne, decide_eq_true_eq, and_assoc]

/-- The tests that a promotion makes of a page. -/
theorem promotable_eq_false_iff :
    promotable s r = false ↔ r.tier = 0 ∨ r.heat < promoteHeat s r ∨ (!belowWater s r.part (promoteTier r)) = true := by
  simp only [promotable, Bool.and_eq_false_iff, bne_eq_false_iff_eq, decide_eq_false_iff_not, Nat.not_le, Bool.not_eq_true', or_assoc]

/-- A page with a handle starts its move if it is promotable, does not move and no fetch of it waits (08 R267, R268). -/
theorem heatPromotion_record (hr : s.rec? h = some r) (hh : h < 2 ^ 32) :
    heatPromotion h s = if promotable s r = false then s
      else if (moveOf s h).isSome = true ∨ s.tmg.allocWaits.any (·.1 == h) = true then s
      else (startMove h (promoteTier r) .promote s).getD s := by
  have hfolded : ¬2 ^ 32 ≤ h := Nat.not_le.2 hh
  have hcolumn : ¬2 ^ 64 ≤ h := by omega
  simp only [promotable_eq_false_iff, heatPromotion, if_neg hfolded, if_neg hcolumn, hr]
  rfl

/-- A folded page of a session, by the number that relief gives it (log 34). -/
theorem heatPromotion_folded {key i j : Nat} {x : Session} (hkey : key = (i + 1) * 2 ^ 32 + j) (hi : i < 2 ^ 22) (hj : j < 2 ^ 32)
    (hx : tget s.ssq.sessions i = some x) (hr : x.folded[j]? = some r) (hp : promotable s r = true) :
    heatPromotion key s = sessionFolded (fun q s => foldedPromote q (promoteTier r) i s) i j s := by
  have hfolded : 2 ^ 32 ≤ key := by omega
  have hcolumn : ¬2 ^ 64 ≤ key := by omega
  have hsession : key / 2 ^ 32 - 1 = i := by omega
  have hplace : key % 2 ^ 32 = j := by omega
  have hpage : foldedKey s key = some r := by
    rw [foldedKey, if_neg hcolumn, hsession, hplace, hx, Option.bind_some, hr]
  have hnot := promotable_eq_false_iff.not.1 (by rw [hp]; decide)
  unfold promoteHeat promoteTier at hnot
  simp only [heatPromotion, if_pos hfolded, if_neg hcolumn, hpage, if_neg hnot, hsession, hplace, promoteTier]

end Promotion

-- HEAT_SWEEP

theorem exec_heatSweep (hot : List (Nat × List (Nat × Nat))) (s : State) : exec (.heatSweep hot) s = .next (live (heatSweep hot) s) := rfl

/-- A record whose HEAT a sweep has halved. -/
def halved (r : PageRec) : PageRec := { r with heat := r.heat / 2 }

/-- The device once a sweep has begun: the pin count starts again, and each HEAT and page count is halved (08 R266, 12 R400). -/
def sweepBegun (s : State) : State :=
  let u := everyRec halved (s.setTmg { s.tmg with pinCount := 0 })
  { u with cwp := { u.cwp with pageCounts := (u.cwp.pageCounts.map fun (e : Nat × Nat) => (e.1, e.2 / 2)).filter fun e => e.2 != 0 } }.bump Ctr.tmgHeatSweeps

/-- A change of each folded page of a session's map. -/
def Session.mapFolded (f : PageRec → PageRec) (x : Session) : Session := { x with folded := x.folded.map f }

theorem Session.mapFolded_mapFolded (f g : PageRec → PageRec) (x : Session) : (x.mapFolded g).mapFolded f = x.mapFolded (f ∘ g) := by
  rw [mapFolded, mapFolded, mapFolded, List.map_map]

theorem sessions_everyRec (f : PageRec → PageRec) (s : State) : (everyRec f s).ssq.sessions = s.ssq.sessions.map fun y => (y.1, y.2.mapFolded f) := rfl

section Sweep

variable {s : State}

theorem heatSweep_early (h : s.tmg.pinCount < s.getF Reg.tmgHeatCtrlPeriod) (hot : List (Nat × List (Nat × Nat))) : heatSweep hot s = s := if_pos h

/-- A sweep that is due halves every HEAT, then adds what the trays report. -/
theorem heatSweep_due (h : s.getF Reg.tmgHeatCtrlPeriod ≤ s.tmg.pinCount) (hot : List (Nat × List (Nat × Nat))) :
    heatSweep hot s = (hot.filter fun t => decide (t.1 < 2)).foldl (fun s t => (t.2.take 256).foldl (fun s e => trayHeat t.1 e s) s) (sweepBegun s) :=
  if_neg (Nat.not_lt.2 h)

/-- A record whose slot in T2 holds a unit, once `n` accesses of the unit are added to its HEAT (08 R286). -/
def warmed (unit n : Nat) (r : PageRec) : PageRec :=
  if r.tier = 2 ∧ r.base ≤ unit ∧ unit < r.base + r.slot4k then { r with heat := min 255 (r.heat + min 255 n) } else r

theorem addHeat_eq (unit n : Nat) (s : State) : addHeat unit n s = everyRec (warmed unit n) s :=
  congrArg (everyRec · s) (funext fun _ => if_congr (by simp) rfl rfl)

/-- The only report of the only tray. -/
theorem heatSweep_report {port addr n : Nat} (h : s.getF Reg.tmgHeatCtrlPeriod ≤ s.tmg.pinCount) (hp : port < 2)
    (hheat : s.flag (Reg.cxdPortTrayHeat port) = true) :
    heatSweep [(port, [(addr, n)])] s = everyRec (warmed (2 * (addr / 4096) + port) n) ((sweepBegun s).bump (Ctr.cxdHotlistRecords port)) := by
  have hflag : (sweepBegun s).flag (Reg.cxdPortTrayHeat port) = true := hheat
  rw [heatSweep_due h, List.filter_cons_of_pos (by simpa using hp)]
  exact (if_neg (by simp [hflag])).trans (addHeat_eq ..)

end Sweep

/-- Settles O50: relief and clean-ahead copies by what asks for them, a promotion by `promotable`, and a sweep by `sweepBegun` and the report that
follows it. -/
theorem reliefAndHeat : Obligations.ReliefAndHeat := by
  unfold Obligations.ReliefAndHeat
  refine ⟨?relief, ?enough, ?cleanOff, ?clean, ?fromT1, ?fromBelow, ?stays, ?folded, ?early, ?sweep, ?report⟩
  case relief =>
    intro n k s hl hk hwater hk0
    rw [exec_spillwayRelief, live_of_running hl, spillRelief_belowT0 hk0, if_neg (by simp [hwater, hk])]
    rfl
  case enough =>
    intro n k cols s h
    rw [exec_spillwayRelief, live_of_eq]
    rcases h with hk | ⟨hwater, hk | ⟨hwaits, hturns, hwheels⟩⟩
    · exact spillRelief_T3 hk cols
    · rw [spillRelief_belowT0 hk, if_pos (.inr hwater)]
    · by_cases hk : k = 0
      · subst hk
        exact spillRelief_unneeded hwater hwaits hturns hwheels cols
      · rw [spillRelief_belowT0 hk, if_pos (.inr hwater)]
  case cleanOff =>
    intro n s h
    rw [exec_cleanAhead, live_of_eq (cleanAhead_off h)]
  case clean =>
    intro n h r s t hl hon hroom hpage hmove
    rw [exec_cleanAhead, live_of_running hl, cleanAhead_page hon hroom hpage hmove]
  case fromT1 =>
    intro h r s t hl hr hh htier hheat hstill hwait hroom hmove
    have hp : promotable s r = true := promotable_iff.2 ⟨by omega, by rwa [promoteHeat_T1 htier], by rwa [promoteTier_T1 htier]⟩
    rw [exec_heatPromotion, live_of_running hl, heatPromotion_record hr hh, promoteTier_T1 htier, hmove]
    simp [hp, hstill, hwait]
  case fromBelow =>
    intro h r s t hl hr hh htier hheat hstill hwait hroom hmove
    have hbelow : r.tier ≠ 1 := by omega
    have hp : promotable s r = true := promotable_iff.2 ⟨by omega, by rwa [promoteHeat_below hbelow], by rwa [promoteTier_below hbelow]⟩
    rw [exec_heatPromotion, live_of_running hl, heatPromotion_record hr hh, promoteTier_below hbelow, hmove]
    simp [hp, hstill, hwait]
  case stays =>
    intro h r s hr hh hno
    rw [exec_heatPromotion, live_of_eq]
    rw [heatPromotion_record hr hh]
    rcases hno with h0 | hmoves | hwaits | ⟨ht, hcold⟩ | ⟨ht, hfull⟩ | ⟨ht, hcold⟩ | ⟨ht, hfull⟩
    · exact if_pos (promotable_eq_false_iff.2 (.inl h0))
    · simp only [hmoves, true_or, if_true, ite_self]
    · simp only [hwaits, or_true, if_true, ite_self]
    · exact if_pos (promotable_eq_false_iff.2 (.inr (.inl (by rwa [promoteHeat_T1 ht]))))
    · exact if_pos (promotable_eq_false_iff.2 (.inr (.inr (by rw [promoteTier_T1 ht, hfull]; rfl))))
    · exact if_pos (promotable_eq_false_iff.2 (.inr (.inl (by rwa [promoteHeat_below ht]))))
    · exact if_pos (promotable_eq_false_iff.2 (.inr (.inr (by rw [promoteTier_below ht, hfull]; rfl))))
  case folded =>
    intro i j dest x r s hl hi hj hx hr htier hdest hheat hroom
    subst hdest
    rw [exec_heatPromotion, live_of_running hl, heatPromotion_folded rfl hi hj hx hr (promotable_iff.2 ⟨htier, hheat, hroom⟩)]
    rfl
  case early =>
    intro hot s h
    rw [exec_heatSweep, live_of_eq (heatSweep_early h hot)]
  case sweep =>
    intro s hl h
    refine ⟨sweepBegun s, ?_, rfl, rfl, rfl, rfl, rfl, rfl, rfl⟩
    rw [exec_heatSweep, live_of_running hl, heatSweep_due h]
    rfl
  case report =>
    intro port addr n h r s hl hdue hp hheat hrecs htier hlow hhigh
    refine ⟨everyRec (warmed (2 * (addr / 4096) + port) n) ((sweepBegun s).bump (Ctr.cxdHotlistRecords port)), ?_, ?_, ?_, ?_, ?_⟩
    · rw [exec_heatSweep, live_of_running hl, heatSweep_report hdue hp hheat]
    · change (s.tmg.records.map fun e => (e.1, halved e.2)).map (fun e => (e.1, warmed _ n e.2)) = _
      rw [hrecs, List.map_singleton, List.map_singleton]
      exact congrArg (fun q => [(h, q)]) (if_pos ⟨htier, hlow, hhigh⟩)
    · rfl
    · rfl
    · have hbegun : (sweepBegun s).ssq.sessions = s.ssq.sessions.map fun y => (y.1, y.2.mapFolded halved) := rfl
      simp only [sessions_everyRec, State.bump_ssq, hbegun, List.map_map, Function.comp_def, Session.mapFolded_mapFolded]
      rfl

end Sys2Proof.Machine

/-!
Transfers between tiers (08 R259, R261, R271, R279-R282, R288, 14 R448): pages that move, fetches of the shaft-due sets, and what ends without
its bytes.
-/
namespace Sys2Proof.Machine

open Sys2Proof

theorem exec_tierTransferDone (what : Transfer) (s : State) : exec (.tierTransferDone what) s = .next (live (transferDone what) s) := rfl

theorem exec_tierReadFailed (what : Transfer) (how : ReadFail) (s : State) :
    exec (.tierReadFailed what how) s = .next (live (readFailed what how) s) := rfl

/-- What a layer still lacks at its deadline (08 R279). -/
def lateWork (w l : Nat) (what : Transfer) (s : State) : State :=
  match what with
  | .page h => if h = 0 then appendsLate w l s else pageLate w l h s
  | t => match fetchOf s t with
    | some f => if f.wheel = w ∧ f.layer = l ∧ fetchDue f s then fetchLate f s else s
    | none => s

theorem exec_pageLate (w l : Nat) (what : Transfer) (s : State) : exec (.pageLate w l what) s = .next (live (lateWork w l what) s) := rfl

theorem exec_nvcCommandTimeout (d : Nat) (retried : Bool) (what : Option Transfer) (s : State) :
    exec (.nvcCommandTimeout d retried what) s = .next (live (fun s => if d < 8 then nvcTimeout d retried what s else s) s) := rfl

-- A page that moves

section Page

variable {h : Nat} {m : Move} {r : PageRec} {s : State}

theorem pageMoved_absent (hno : moveOf s h = none ∨ s.rec? h = none) : pageMoved h s = s := by
  rcases hno with hm | hr
  · simp only [pageMoved, hm]
  · simp only [pageMoved, hr]
    cases moveOf s h <;> rfl

theorem pageFailed_absent (hno : moveOf s h = none ∨ s.rec? h = none) (how : ReadFail) : pageFailed h how s = s := by
  rcases hno with hm | hr
  · simp only [pageFailed, hm]
  · simp only [pageFailed, hr]
    cases moveOf s h <;> rfl

variable (hm : moveOf s h = some m) (hr : s.rec? h = some r)

include hm hr

/-- A move that is done, or whose tier is down, brings nothing. -/
theorem pageMoved_still (hstill : m.done = true ∨ s.tierUp r.tier = false ∨ s.tierUp m.tier = false) : pageMoved h s = s := by
  simp only [pageMoved, hm, hr]
  exact if_pos (by simpa using hstill)

section Arrives

variable (hdone : m.done = false) (hsource : s.tierUp r.tier = true) (hdest : s.tierUp m.tier = true)

include hdone hsource hdest

/-- A page whose units keep their tags, or that is not read into T0, has arrived (08 R261). -/
theorem pageMoved_arrives (hgood : m.tier ≠ 0 ∨ m.onto = true ∨ slotBad s r.part r.tier r.base r.slot4k = []) :
    pageMoved h s = afterMoves (runDeferred h (moveDone h (countMove m r s))) := by
  have hbad : (if m.tier = 0 ∧ !m.onto then slotBad s r.part r.tier r.base r.slot4k else []) = [] := by
    rcases hgood with ht | ho | hb <;> simp [*]
  simp only [pageMoved, hm, hr, hdone, hsource, hdest, hbad, Bool.not_true, Bool.false_eq_true, or_self, if_false, List.isEmpty_nil, if_true]

/-- A unit that fails its tag as the page comes into T0 fails the page (13 R431). -/
theorem pageMoved_arrivesBad (ht : m.tier = 0) (ho : m.onto = false) (hbad : slotBad s r.part r.tier r.base r.slot4k ≠ []) :
    pageMoved h s = afterMoves (runDeferred h (arrivesBad m r (slotBad s r.part r.tier r.base r.slot4k) (countMove m r s))) := by
  have hup : s.tierUp 0 = true := by rw [← ht, hdest]
  simp [pageMoved, hm, hr, hdone, hsource, ht, hup, ho, hbad]

end Arrives

/-- A write that fails starts the move again elsewhere, its slot to the self-test (08 R282). -/
theorem pageFailed_write (hdone : m.done = false) : pageFailed h .write s = moveAgain m (handToTest m.tier m.base (abandonMove h s)) := by
  simp [pageFailed, hm, hr, hdone]

/-- A read that fails sends the page to recovery; of a move that no turn waits for that is all (08 R280). -/
theorem pageFailed_move {how : ReadFail} (hdone : m.done = false) (hread : how ≠ .write) (hfetch : m.why ≠ .fetch) (hrevive : m.why ≠ .revive) :
    pageFailed h how s = startRecovery h (tierError .tmgMoveFailed pTmg r.part r.tier (dimmRow r.tier r.base) h {} r.layer
      ((countFail how r.tier r.base s).bump Ctr.tmgMoveFailures)) := by
  simp only [pageFailed, hm, hr, hdone, hread, Bool.false_eq_true, if_false]

/-- A read of a revive that fails while there is no turn. -/
theorem pageFailed_revive {how : ReadFail} (hdone : m.done = false) (hread : how ≠ .write) (hwhy : m.why = .revive) (hturns : s.ssq.turns = []) :
    pageFailed h how s = startRecovery h (tierError .hrcReadFailed pHrc r.part r.tier (dimmRow r.tier r.base) h (metBy [] 0xFFFF) r.layer
      ((countFail how r.tier r.base s).bump Ctr.hrcFailedReads)) := by
  have hnone : (countFail how r.tier r.base s).ssq.turns = [] := by rw [(countFail_keep how r.tier r.base s).turns rfl, hturns]
  simp only [pageFailed, hm, hr, hdone, hread, hwhy, Bool.false_eq_true, if_false, stepReaders, reviveReaders, hnone]
  rfl

end Page

-- Fetches that arrive

/-- A page is no fetch. -/
theorem fetchOf_page (s : State) (h : Nat) : fetchOf s (.page h) = none := List.find?_eq_none.2 (by simp)

theorem fetchOf_direct (s : State) (k u : Nat) : fetchOf s (.direct k u) = none := List.find?_eq_none.2 (by simp)

section Fetch

variable {t : Transfer} {f : Fetch} {x : Wheel} {s : State}

theorem fetchOf_nil (h : s.hrc.fetches = []) : fetchOf s t = none := by
  rw [fetchOf, h, List.find?_nil]

/-- A fetch whose lines are ready has read its bytes. -/
theorem transferDone_fetch {n : Nat} {spans : List (Nat × Nat)} (hf : fetchOf s t = some f) (hspans : fetchSpans s f = (n, spans))
    (hlines : beginAccess (.transfer t) (spans.flatMap fun a => s.directLines n 1 a.1 a.2) false s = none) : transferDone t s = fetchArrived f s := by
  cases t with
  | page h => rw [fetchOf_page] at hf; cases hf
  | direct k u => rw [fetchOf_direct] at hf; cases hf
  | weights w st l => simp only [transferDone, hf, hspans, hlines]
  | adapter w st l i v => simp only [transferDone, hf, hspans, hlines]
  | overflow w st i => simp only [transferDone, hf, hspans, hlines]

/-- An access to no line begins at once. -/
theorem beginAccess_nil (op : WinOp) (write : Bool) (s : State) : beginAccess op [] write s = none := by
  simp [beginAccess, State.lineQueued]

/-- A fetch whose units and lines are sound is done. -/
theorem fetchArrived_sound {n : Nat} {spans : List (Nat × Nat)} (hspans : fetchSpans s f = (n, spans)) (htable : tableBad s f = [])
    (hunits : spans.flatMap (fun a => s.badUnits n 1 a.1 a.2) = []) (hpoison : spans.flatMap (fun a => s.directPoisoned n 1 a.1 a.2) = []) :
    fetchArrived f s = fetchDone f s := by
  simp only [fetchArrived, hspans, htable, hunits, hpoison]
  cases f.kind <;> rfl

/-- A fetch of no weights reads no range of a direct window. -/
theorem fetchSpans_other (hkind : f.kind ≠ .weights) : fetchSpans s f = (0, []) := by
  unfold fetchSpans
  split
  · exact absurd ‹_› hkind
  · rfl

/-- Only the fetch of weights has others that share its slot (08 R271). -/
theorem sharers_other (hkind : f.kind ≠ .weights) : sharers s f = [] := by
  simp [sharers, hkind]

/-- A fetch that is over leaves the list. -/
theorem dropFetches_eq (l : List Fetch) (s : State) :
    l.foldl (fun s g => dropFetch g s) s = s.setHrc { s.hrc with fetches := s.hrc.fetches.filter fun g => !l.contains g } := by
  induction l generalizing s with
  | nil =>
    simp
    rfl
  | cons f l ih =>
    have hleft (g : Fetch) : (!l.contains g && g != f) = !(f :: l).contains g := by
      rw [List.contains_cons, Bool.not_or, bne, Bool.and_comm]
    rw [List.foldl_cons, ih]
    simp only [dropFetch, State.setHrc, List.filter_filter, hleft]

/-- The weights of a layer fill a slot of their wheel, and of those that share it. -/
theorem fetchDone_weights (hx : s.wheel? f.wheel = some x) (hkind : f.kind = .weights) :
    fetchDone f s = (s.setHrc { s.hrc with
      fetches := s.hrc.fetches.filter (fun g => g != f && !(sharers s f).contains g)
      filled := s.hrc.filled ++ (f :: sharers s f).map fun g => { g with sharing := none, data := layerFromT1 s x f.layer } } |>.bumpBy
        Ctr.hrcUrgentBytes f.bytes).bumpBy Ctr.hrcWeightBytes f.bytes := by
  have hdrop := dropFetches_eq (f :: sharers s f) s
  rw [List.foldl_cons] at hdrop
  have hleft (g : Fetch) : (!(f :: sharers s f).contains g) = (g != f && !(sharers s f).contains g) := by
    rw [List.contains_cons, Bool.not_or, bne]
  simp only [fetchDone, hx, hkind, hdrop, hleft]
  rfl

/-- An adapter's fetch that needs no place beyond its wheel's area fills a slot (08 R273). -/
theorem fetchDone_adapter {i v : Nat} (hx : s.wheel? f.wheel = some x) (hkind : f.kind = .adapter i v)
    (hexcess : excessBytes s x f.wheel f.step f.layer = 0) :
    fetchDone f s = (s.setHrc { s.hrc with fetches := s.hrc.fetches.filter (· != f), filled := s.hrc.filled ++ [f] }).bumpBy
      Ctr.hrcUrgentBytes f.bytes := by
  have hplace : placeExcess f.wheel f.step f.layer s = s := by
    simp [placeExcess, hx, hexcess, cdiv]
  have hplaced : excessPlaced s x f.wheel f.step f.layer = true := by
    simp [excessPlaced, hexcess, cdiv]
  have hshare : sharers s f = [] := sharers_other (by simp [hkind])
  simp only [fetchDone, hx, hkind, hplace, hplaced, hshare, Bool.not_true, Bool.and_false, Bool.false_eq_true, if_false, List.foldl_nil]
  rfl

/-- The overflow of a session's history is over once it is read. -/
theorem fetchDone_overflow {i : Nat} (hx : s.wheel? f.wheel = some x) (hkind : f.kind = .overflow i) :
    fetchDone f s = (dropFetch f s).bumpBy Ctr.hrcUrgentBytes f.bytes := by
  have hshare : sharers s f = [] := sharers_other (by simp [hkind])
  simp only [fetchDone, hx, hkind, hshare, Bool.false_eq_true, if_false, List.foldl_nil]

/-- A fetch that fails ends with its sharers, unless it was no read (08 R280). -/
theorem readFailed_fetch {how : ReadFail} (hf : fetchOf s t = some f) :
    readFailed t how s = if how = .write then s else fetchFailed f (countFetchFail how f s) := by
  cases t with
  | page h => rw [fetchOf_page] at hf; cases hf
  | direct k u => rw [fetchOf_direct] at hf; cases hf
  | weights w st l => simp only [readFailed, hf]
  | adapter w st l i v => simp only [readFailed, hf]
  | overflow w st i => simp only [readFailed, hf]

/-- Weights that fail end the turns that their layer serves. -/
theorem fetchEnds_failed (hx : s.wheel? f.wheel = some x) (hkind : f.kind = .weights) :
    fetchEnds f false s = endTurns (fetchReaders s f) .tierFailed (tierError .hrcReadFailed pHrc x.part f.tier (fetchRow (dropFetch f s) x f) 0
      (metBy (fetchReaders s f) f.wheel) f.layer ((dropFetch f s).bump Ctr.hrcFailedReads)) := by
  simp only [fetchEnds, hx, hkind, Bool.false_eq_true, if_false]

theorem fetchEnds_late (hx : s.wheel? f.wheel = some x) (hkind : f.kind = .weights) :
    fetchEnds f true s = endTurns (fetchReaders s f) .tierLate (tierError .hrcLate pHrc x.part f.tier (fetchRow (dropFetch f s) x f) 0
      (metBy (fetchReaders s f) f.wheel) f.layer (dropFetch f s)) := by
  simp only [fetchEnds, hx, hkind, if_true]

/-- Weights are due in their step, from when their layer is in progress (08 R279). -/
theorem fetchDue_weights (hx : s.wheel? f.wheel = some x) (hkind : f.kind = .weights) :
    fetchDue f s = (x.rosterStep == f.step && x.inLayer f.layer) := by
  simp only [fetchDue, hx, hkind]

theorem lateWork_weights {w st l : Nat} (hf : fetchOf s (.weights w st l) = some f) :
    lateWork w l (.weights w st l) s = if f.wheel = w ∧ f.layer = l ∧ fetchDue f s then fetchLate f s else s := by
  simp only [lateWork, hf]

end Fetch

-- Pages that are late

section Late

variable {w l h : Nat} {x : Wheel} {r : PageRec} {m : Model} {s : State}

/-- A page that the layer in progress lacks (08 R279): its wait for a slot is given up, its turns end, the page recovers. -/
theorem pageLate_due (hx : s.wheel? w = some x) (hr : s.rec? h = some r) (hdue : x.inLayer l = true) (hlayer : r.layer = l) (htier : r.tier ≠ 0)
    {readers : List Nat} (hreaders : ((stepReaders s h r).filter fun i => ((turnOf s i).map (·.wheel)) == some w) = readers) (hsome : readers ≠ []) :
    pageLate w l h s = startRecovery h (endTurns readers .tierLate (tierError .hrcLate pHrc r.part r.tier (dimmRow r.tier r.base) h (metBy readers w) l
      ((s.setTmg { s.tmg with allocWaits := s.tmg.allocWaits.filter (·.1 != h) }).bump Ctr.hrcLatePages))) := by
  simp [pageLate, hx, hr, hdue, hlayer, htier, hreaders, hsome]

/-- A page in T0, or of another layer, is not late. -/
theorem pageLate_other (hr : s.rec? h = some r) (hother : r.tier = 0 ∨ r.layer ≠ l) : pageLate w l h s = s := by
  simp only [pageLate, hr]
  cases s.wheel? w with
  | none => rfl
  | some x => exact if_pos (by tauto)

/-- Appends of the layer in progress that wait for a slot end their turns (08 R259, R279). -/
theorem appendsLate_due (hx : s.wheel? w = some x) (hm : s.model? x.part x.model = some m) (hdue : x.inLayer l = true)
    (hlate : appendsWaiting s x m l ≠ []) :
    appendsLate w l s = endTurns (appendsWaiting s x m l) .tierLate (tierError .hrcLate pHrc x.part 0 none 0 (metBy (appendsWaiting s x m l) w) l
      (s.bump Ctr.hrcLatePages)) := by
  simp [appendsLate, hx, hm, hdue, hlate]

end Late

-- A drive's command that times out

/-- The state in which a drive's timed-out command is aborted (08 R288). -/
def aborted (d : Nat) (s : State) : State := (s.bump (Ctr.nvcTimeouts d)).emit (.deviceOp (pNvc + d) "ABORT" [])

/-- The state in which a drive's command has failed for good, its n-th in a row. -/
def commandFailed (d n : Nat) (s : State) : State :=
  logEv .nvcTimeout (pNvc + d) 0xFF [d] ((aborted d s).setTmg { s.tmg with timeouts := tset s.tmg.timeouts d n })

/-- A drive whose command has failed for good: with the third in a row it leaves service. -/
def afterCommand (d : Nat) (s : State) : State :=
  let n := tgetD s.tmg.timeouts d 0 + 1
  if 3 ≤ n then driveOut d (commandFailed d n s) else commandFailed d n s

section Drive

variable {d : Nat} {s : State}

theorem nvcTimeout_first (what : Option Transfer) : nvcTimeout d false what s = aborted d s := rfl

theorem nvcTimeout_retried_alone : nvcTimeout d true none s = afterCommand d s := rfl

theorem nvcTimeout_retried_transfer {t : Transfer} :
    nvcTimeout d true (some t) s = readFailed t (timedOut t (afterCommand d s)) (afterCommand d s) := rfl

theorem afterCommand_third (hcount : tgetD s.tmg.timeouts d 0 = 2) : afterCommand d s = driveOut d (commandFailed d 3 s) := by
  simp only [afterCommand, hcount]
  rfl

theorem afterCommand_one (hcount : tgetD s.tmg.timeouts d 0 = 0) : afterCommand d s = commandFailed d 1 s := by
  simp only [afterCommand, hcount]
  rfl

theorem moves_commandFailed (d n : Nat) (s : State) : (commandFailed d n s).tmg.moves = s.tmg.moves := by
  rw [commandFailed, tmg_logEv]
  rfl

/-- The kind of a failure rests on the moves alone. -/
theorem timedOut_of_moves {t : Transfer} {u : State} (hmoves : u.tmg.moves = s.tmg.moves) : timedOut t u = timedOut t s := by
  have hmove (h : Nat) : moveOf u h = moveOf s h := by rw [moveOf, moveOf, hmoves]
  cases t <;> simp only [timedOut, hmove]

/-- A failure that is the first fails the transfer that the command was part of. -/
theorem nvcTimeout_transfer {t : Transfer} (hcount : tgetD s.tmg.timeouts d 0 = 0) :
    nvcTimeout d true (some t) s = readFailed t (timedOut t s) (commandFailed d 1 s) := by
  rw [nvcTimeout_retried_transfer, afterCommand_one hcount, timedOut_of_moves (moves_commandFailed d 1 s)]

end Drive

/-- Settles O49: each transfer's end by the rule of what it was, a page, a fetch or a drive's command. -/
theorem transfersEnd : Obligations.TransfersEnd := by
  unfold Obligations.TransfersEnd
  refine ⟨?arrives, ?arrivesBad, ?still, ?absent, ?weights, ?adapter, ?overflow, ?noFetch, ?writeFails, ?readFails, ?reviveFails,
    ?weightsFail, ?weightsLate, ?weightsNotDue, ?pageLate, ?appendsLate, ?pageNotLate, ?aborted, ?driveLost, ?transferLost⟩
  case arrives =>
    intro h m r s hl hm hr hdone hsource hdest hgood
    rw [exec_tierTransferDone, live_of_running hl, transferDone, pageMoved_arrives hm hr hdone hsource hdest hgood]
  case arrivesBad =>
    intro h m r s hl hm hr hdone hsource hdest ht ho hbad
    rw [exec_tierTransferDone, live_of_running hl, transferDone, pageMoved_arrivesBad hm hr hdone hsource hdest ht ho hbad]
  case still =>
    intro h m r s hm hr hstill
    rw [exec_tierTransferDone, live_of_eq (g := transferDone (.page h)) (pageMoved_still hm hr hstill)]
  case absent =>
    intro h s hno
    refine ⟨?_, fun how => ?_⟩
    · rw [exec_tierTransferDone, live_of_eq (g := transferDone (.page h)) (pageMoved_absent hno)]
    · rw [exec_tierReadFailed, live_of_eq (g := readFailed (.page h) how) (pageFailed_absent hno how)]
  case weights =>
    intro w st l n spans f x s hl hf hx hkind hweights hlines hunits hpoison
    have hspans : fetchSpans s f = (n, spans) := by
      simp [fetchSpans, hkind, hx, hweights]
    have htable : tableBad s f = [] := by
      simp [tableBad, hkind]
    rw [exec_tierTransferDone, live_of_running hl, transferDone_fetch hf hspans hlines, fetchArrived_sound hspans htable hunits hpoison,
      fetchDone_weights hx hkind]
    exact ⟨_, rfl, rfl, rfl, rfl, rfl, rfl, rfl, rfl⟩
  case adapter =>
    intro w st l i v f x s hl hf hx hkind hexcess
    have hspans := fetchSpans_other (s := s) (f := f) (by simp [hkind])
    have htable : tableBad s f = [] := by
      simp [tableBad, hkind]
    rw [exec_tierTransferDone, live_of_running hl, transferDone_fetch hf hspans (beginAccess_nil ..), fetchArrived_sound hspans htable rfl rfl,
      fetchDone_adapter hx hkind hexcess]
    exact ⟨_, rfl, rfl, rfl, rfl, rfl, rfl⟩
  case overflow =>
    intro w st i f x s hl hf hx hkind htable
    have hspans := fetchSpans_other (s := s) (f := f) (by simp [hkind])
    rw [exec_tierTransferDone, live_of_running hl, transferDone_fetch hf hspans (beginAccess_nil ..), fetchArrived_sound hspans htable rfl rfl,
      fetchDone_overflow hx hkind]
    exact ⟨_, rfl, rfl, rfl, rfl⟩
  case noFetch =>
    intro w st l i v s hnone
    refine ⟨?_, ?_, ?_, fun how => ?_⟩
    · rw [exec_tierTransferDone, live_of_eq (by simp only [transferDone, fetchOf_nil hnone])]
    · rw [exec_tierTransferDone, live_of_eq (by simp only [transferDone, fetchOf_nil hnone])]
    · rw [exec_tierTransferDone, live_of_eq (by simp only [transferDone, fetchOf_nil hnone])]
    · rw [exec_tierReadFailed, live_of_eq (by simp only [readFailed, fetchOf_nil hnone])]
  case writeFails =>
    intro h m r s hl hm hr hdone
    rw [exec_tierReadFailed, live_of_running hl, readFailed, pageFailed_write hm hr hdone]
  case readFails =>
    intro h how m r s hl hm hr hdone hread hfetch hrevive
    rw [exec_tierReadFailed, live_of_running hl, readFailed, pageFailed_move hm hr hdone hread hfetch hrevive]
  case reviveFails =>
    intro h how m r s hl hm hr hdone hread hwhy hturns
    rw [exec_tierReadFailed, live_of_running hl, readFailed, pageFailed_revive hm hr hdone hread hwhy hturns]
  case weightsFail =>
    intro w st l f x s hl hf hx hkind
    refine ⟨fetchEnds_failed hx hkind, ?_, ?_⟩
    · rw [exec_tierReadFailed, live_of_running hl, readFailed_fetch hf, if_neg nofun, fetchFailed]
    · rw [exec_tierReadFailed, live_of_running hl, readFailed_fetch hf, if_pos rfl]
  case weightsLate =>
    intro w st l f x s hl hf hx hkind hw hlayer hstep hin
    have hdue : fetchDue f s = true := by
      simp [fetchDue_weights hx hkind, hstep, hlayer, hin]
    refine ⟨fetchEnds_late hx hkind, ?_⟩
    rw [exec_pageLate, live_of_running hl, lateWork_weights hf, if_pos ⟨hw, hlayer, hdue⟩, fetchLate]
  case weightsNotDue =>
    intro w st l f x s hf hx hkind hnot
    have hdue : fetchDue f s = false := by
      rw [fetchDue_weights hx hkind]
      rcases hnot with hstep | hin <;> simp [*]
    have hnone : lateWork w l (.weights w st l) s = s := by
      rw [lateWork_weights hf, if_neg (by simp [hdue])]
    rw [exec_pageLate, live_of_eq hnone]
  case pageLate =>
    intro w l h x r s hl hx hr hh hdue hlayer htier hsome
    rw [exec_pageLate, live_of_running hl, lateWork, if_neg hh, pageLate_due hx hr hdue hlayer htier rfl hsome]
  case appendsLate =>
    intro w l x m s hl hx hm hdue hlate
    rw [exec_pageLate, live_of_running hl, lateWork, if_pos rfl, appendsLate_due hx hm hdue hlate]
  case pageNotLate =>
    intro w l h r s hr hh hother
    have hnone : lateWork w l (.page h) s = s := by
      rw [lateWork, if_neg hh, pageLate_other hr hother]
    rw [exec_pageLate, live_of_eq hnone]
  case aborted =>
    intro d s hl hd what
    rw [exec_nvcCommandTimeout, live_of_running hl, if_pos hd, nvcTimeout_first, aborted]
  case driveLost =>
    intro d s hl hd hcount
    rw [exec_nvcCommandTimeout, live_of_running hl, if_pos hd, nvcTimeout_retried_alone, afterCommand_third hcount, commandFailed, aborted]
  case transferLost =>
    intro d what s hl hd hcount
    rw [exec_nvcCommandTimeout, live_of_running hl, if_pos hd, nvcTimeout_transfer hcount, commandFailed, aborted]

end Sys2Proof.Machine

/-!
The Sluice: who takes part in a decision and who wins it, what an aborted grant leaves, and what the end of a window changes (09 R289-R301).
-/
namespace Sys2Proof.Machine

open Sys2Proof

-- Sparse tables

theorem tgetD_tset {α : Type} (t : Table α) (i : Nat) (v d : α) : tgetD (tset t i v) i d = v := by
  rw [tgetD, tget_tset, Option.getD_some]

/-- A table filled over a list of keys holds the new value at those keys and the old one elsewhere. -/
theorem tget_foldl_tset {α : Type} (f : Nat → α) (k : Nat) (l : List Nat) (t : Table α) :
    tget (l.foldl (fun t r => tset t r (f r)) t) k = if k ∈ l then some (f k) else tget t k := by
  induction l generalizing t with
  | nil => simp
  | cons r l ih =>
    rw [List.foldl_cons, ih]
    by_cases hk : k = r
    · simp [hk, tget_tset]
    · simp [hk, tget_tset_ne]

-- An arbiter's record

theorem slu?_setSlu_ne {s : State} {i k : Nat} (h : k ≠ i) (v : SluInst) : (s.setSlu i v).slu? k = s.slu? k := by
  rw [State.slu?, tgetD, State.setSlu, tget_tset_ne _ _ h]
  rfl

/-- An operation whose frame leaves the Sluice out keeps every arbiter's record. -/
theorem Keep.slu? {m : Nat} {s t : State} (h : Keep m s t) (hm : m.testBit 30 = false) (k : Nat) : t.slu? k = s.slu? k := by
  rw [State.slu?, h.slu hm, State.slu?]

theorem slu?_sluShowQuar (i : Nat) (s : State) (k : Nat) : (sluShowQuar i s).slu? k = s.slu? k :=
  (sluShowQuar_keep i s).slu? rfl k

section Path

variable {i : Nat} (hi : i < 53) (r : Nat) (s : State)
include hi

theorem sluPop_path :
    sluPop i r s = s.setSlu i { s.slu? i with queues := tset (s.slu? i).queues r ((tgetD (s.slu? i).queues r []).drop 1) } :=
  if_pos hi

theorem sluPush_path (q : SluReq) :
    sluPush i r q s = s.setSlu i { s.slu? i with queues := tset (s.slu? i).queues r (q :: tgetD (s.slu? i).queues r []) } :=
  if_pos hi

end Path

/-- At an egress port a pop takes the packet off the port's queue, not off the arbiter's record. -/
theorem slu?_sluPop_egress {i : Nat} (hi : 53 ≤ i) (r : Nat) (s : State) (k : Nat) : (sluPop i r s).slu? k = s.slu? k := by
  rw [sluPop, if_neg (show ¬ i < firstEgress from Nat.not_lt.2 hi)]
  rfl

theorem slu?_sluPop_ne {i k : Nat} (h : k ≠ i) (r : Nat) (s : State) : (sluPop i r s).slu? k = s.slu? k := by
  by_cases hi : i < 53
  · rw [sluPop_path hi, slu?_setSlu_ne h]
  · exact slu?_sluPop_egress (Nat.not_lt.1 hi) r s k

-- What arrives

/-- What one operation brings joins the queue of its requester. -/
theorem queues_sluArrive_one {i : Nat} (hi : i < 53) (a : Arrival) (s : State) :
    ((sluArrive i [a] s).slu? i).queues =
      tset (s.slu? i).queues (arrivalRequester a) (tgetD (s.slu? i).queues (arrivalRequester a) [] ++ sluTransfers i a.bytes) := by
  rw [sluArrive, if_neg (show ¬ firstEgress ≤ i from Nat.not_le.2 hi), List.foldl_cons, List.foldl_nil, sluQueue, slu?_setSlu]

theorem sluTransfers_path {i : Nat} (hi : i < 19) (n : Nat) :
    sluTransfers i n =
      List.replicate (n / 69632) { bytes := 69632 } ++ (if n % 69632 = 0 then [] else [{ bytes := n % 69632 }]) :=
  if_neg (Nat.not_le.2 hi)

theorem sluTransfers_expander {i : Nat} (hi : 19 ≤ i) (n : Nat) : sluTransfers i n = [{ bytes := n }] := if_pos hi

-- Who takes part in a decision, and who wins it

section Decision

variable (i : Nat) (s : State)

/-- The requesters that take part: a transfer at the head, and not quarantined (R294, R300). -/
def contenders : List Nat := (List.range sluRequesters).filter fun r => (sluHead s i r).isSome && (tget (s.slu? i).quar r).isNone

def urgentContenders : List Nat := (contenders i s).filter fun r => decide (r < 16)
def bulkContenders : List Nat := (contenders i s).filter fun r => decide (16 ≤ r)

/-- BULK_EVERY reserves the grant for the bulk class (R294). -/
def bulkReserved : Bool :=
  decide (0 < (sluCtrl s i).2.2.2.1 ∧ (sluCtrl s i).2.2.2.1 ≤ (s.slu? i).run) && !(bulkContenders i s).isEmpty

/-- The class that the decision serves (R294). -/
def servedClass : List Nat :=
  if bulkReserved i s then bulkContenders i s else if !(urgentContenders i s).isEmpty then urgentContenders i s else bulkContenders i s

/-- Those of the class whose wait counter has reached its limit (R294). -/
def overdue : List Nat := (servedClass i s).filter fun r => decide (sluLimit s i r ≤ (s.slu? i).wait r)

/-- The requester that wins the decision (R294). -/
def winner : Option Nat :=
  if (overdue i s).isEmpty then argMax (s.slu? i).credit (servedClass i s)
  else argMax (fun r => ((s.slu? i).wait r : Int)) (overdue i s)

/-- The grant of transfer `q` to `w`, and what it charges (R293, R294). -/
def granted (w : Nat) (q : SluReq) (v : SluInst) : SluInst :=
  { v with
    waits := (servedClass i s).foldl (fun t r => tset t r (if r = w then 0 else min (v.wait r + 1) 65535)) v.waits
    credits := tset v.credits w (max (v.credit w - sluUnits q.bytes) (-2 ^ 31))
    run := if decide (w < 16) && !(bulkContenders i s).isEmpty then v.run + 1 else 0
    current := some { requester := w, req := q, preemptible := !decide (w < 16) && !bulkReserved i s } }

end Decision

section Decision

variable {i w : Nat} {q : SluReq} {s : State}

theorem mem_contenders {r : Nat} : r ∈ contenders i s ↔ r < 33 ∧ (sluHead s i r).isSome = true ∧ tget (s.slu? i).quar r = none := by
  simp [contenders, sluRequesters]

theorem mem_urgentContenders {r : Nat} : r ∈ urgentContenders i s ↔ r ∈ contenders i s ∧ r < 16 := by
  simp [urgentContenders]

theorem sluDecide_none (h : winner i s = none) : sluDecide i s = s := by
  unfold sluDecide
  dsimp only
  split
  next => rfl
  next w hw => cases h.symm.trans hw

/-- The decision takes the winner's head off its queue and grants it; the other arbiters keep their records. -/
theorem slu?_sluDecide (hw : winner i s = some w) (hq : sluHead s i w = some q) (k : Nat) :
    (sluDecide i s).slu? k = ((sluPop i w s).setSlu i (granted i s w q ((sluPop i w s).slu? i))).slu? k := by
  unfold sluDecide
  dsimp only
  split
  next h => cases hw.symm.trans h
  next w' h =>
    cases hw.symm.trans h
    rw [hq]
    simp only [apply_ite (State.slu? · k), slu?_bump, ite_self]
    rfl

/-- The measure's largest is one of the list. -/
theorem argMax_mem {f : Nat → Int} {l : List Nat} (h : argMax f l = some w) : w ∈ l := by
  cases l with
  | nil => cases h
  | cons r l =>
    cases h
    exact List.foldlRecOn (motive := (· ∈ r :: l)) l _ List.mem_cons_self fun m hm x hx => by
      split
      · exact List.mem_cons_of_mem _ hx
      · exact hm

theorem winner_mem (h : winner i s = some w) : w ∈ servedClass i s := by
  unfold winner at h
  split at h
  · exact argMax_mem h
  · exact List.mem_of_mem_filter (argMax_mem h)

/-- With nobody to take part nobody wins. -/
theorem winner_none (h : contenders i s = []) : winner i s = none := by
  simp [winner, overdue, servedClass, urgentContenders, bulkContenders, h, argMax]

/-- A sole requester short of its limit wins. -/
theorem winner_sole (hclass : servedClass i s = [w]) (hshort : (s.slu? i).wait w < sluLimit s i w) : winner i s = some w := by
  simp [winner, overdue, hclass, hshort, argMax]

theorem bulkReserved_off (h : (sluCtrl s i).2.2.2.1 = 0) : bulkReserved i s = false := by
  simp [bulkReserved, h]

/-- Without a reservation an urgent requester shuts the bulk class out (R294). -/
theorem servedClass_urgent (hres : bulkReserved i s = false) {a : Nat} (ha : a ∈ urgentContenders i s) :
    servedClass i s = urgentContenders i s := by
  have hne : urgentContenders i s ≠ [] := List.ne_nil_of_mem ha
  simp [servedClass, hres, hne]

end Decision

section Sole

variable {i r : Nat} {q : SluReq} {s : State}

/-- The only requester with a head transfer, not quarantined, is the only contender. -/
theorem contenders_sole (hr : r < 33) (honly : ∀ k < 33, k ≠ r → sluHead s i k = none) (hq : sluHead s i r = some q)
    (hquar : tget (s.slu? i).quar r = none) : contenders i s = [r] := by
  have hfilter : contenders i s = (List.range 33).filter (· == r) := by
    unfold contenders
    refine List.filter_congr fun k hk => ?_
    by_cases h : k = r
    · simp [h, hq, hquar]
    · simp [h, honly k (List.mem_range.1 hk) h]
  rw [hfilter, List.filter_beq, List.count_eq_one_of_mem List.nodup_range (List.mem_range.2 hr), List.replicate_one]

theorem servedClass_sole (hsole : contenders i s = [r]) (hres : bulkReserved i s = false) : servedClass i s = [r] := by
  by_cases hr : r < 16
  · simp [servedClass, hres, urgentContenders, hsole, hr]
  · simp [servedClass, hres, urgentContenders, bulkContenders, hsole, hr, Nat.not_lt.1 hr]

theorem wait_granted_sole (hclass : servedClass i s = [r]) (v : SluInst) : (granted i s r q v).wait r = 0 := by
  simp [granted, hclass, SluInst.wait, tgetD_tset]

theorem credit_granted (v : SluInst) : (granted i s r q v).credit r = max (v.credit r - sluUnits q.bytes) (-2 ^ 31) :=
  tgetD_tset ..

/-- Where nothing is reserved, the grant is preemptible if its requester is bulk (R294, R297). -/
theorem current_granted (hres : bulkReserved i s = false) (v : SluInst) :
    (granted i s r q v).current = some { requester := r, req := q, preemptible := decide (16 ≤ r) } := by
  simp only [granted, hres, Bool.not_false, Bool.and_true, ← decide_not, Nat.not_lt]

end Sole

-- The commands

section Commands

variable {i : Nat} {s : State} (arr : List Arrival) (cr : List Nat) (addr : Nat)

theorem powered_of_on (h : s.mgc.off = false) (f : State → State) : powered f s = f s := if_neg (by simp [h])

/-- What leaves the state while the device has power leaves it always. -/
theorem powered_of_eq {f : State → State} (h : f s = s) : powered f s = s := by
  rw [powered, h, ite_self]

theorem live_arbiter (hl : Live s) (hi : i < 61) (f : State → State) : live (fun s => if i < sluInsts then f s else s) s = f s :=
  (live_of_running hl _).trans (if_pos hi)

theorem powered_arbiter (hoff : s.mgc.off = false) (hi : i < 61) (f : State → State) :
    powered (fun s => if i < sluInsts then f s else s) s = f s :=
  (powered_of_on hoff _).trans (if_pos hi)

theorem exec_sluiceDecide (hl : Live s) (hi : i < 61) : exec (.sluiceDecide i arr cr) s = .next (sluNext i arr cr s) :=
  congrArg _ (live_arbiter hl hi _)

theorem exec_sluicePreempt (hl : Live s) (hi : i < 61) :
    exec (.sluicePreempt i arr cr) s = .next (sluPreempt i (sluReturn i cr (sluArrive i arr s))) :=
  congrArg _ (live_arbiter hl hi fun s => sluPreempt i (sluReturn i cr (sluArrive i arr s)))

theorem exec_sluiceHogCutoff (hoff : s.mgc.off = false) (hi : i < 61) : exec (.sluiceHogCutoff i addr) s = .next (sluHog i addr s) :=
  congrArg _ (powered_arbiter hoff hi _)

theorem exec_sluiceWindowBoundary (hoff : s.mgc.off = false) (hi : i < 61) : exec (.sluiceWindowBoundary i) s = .next (sluWindow i s) :=
  congrArg _ (powered_arbiter hoff hi _)

/-- There are 61 arbiters (R289). -/
theorem exec_sluice_beyond (hi : 61 ≤ i) :
    exec (.sluiceDecide i arr cr) s = .next s ∧ exec (.sluicePreempt i arr cr) s = .next s ∧
      exec (.sluiceHogCutoff i addr) s = .next s ∧ exec (.sluiceWindowBoundary i) s = .next s := by
  have hnot : ¬ i < sluInsts := Nat.not_lt.2 hi
  have hlive (f : State → State) : live (fun s => if i < sluInsts then f s else s) s = s := live_of_eq (if_neg hnot)
  have hpow (f : State → State) : powered (fun s => if i < sluInsts then f s else s) s = s := powered_of_eq (if_neg hnot)
  exact ⟨congrArg _ (hlive _), congrArg _ (hlive _), congrArg _ (hpow _), congrArg _ (hpow _)⟩

theorem sluNext_path (hi : i < 53) (h : sluDecoding i (sluArrive i arr s) = false) :
    sluNext i arr cr s = sluDecide i (sluFinish sendGranted i (sluPurge i (sluArrive i arr s))) := by
  rw [sluNext, if_neg (by simp [h]), if_pos (show i < firstEgress from hi)]

theorem sluArrive_egress (hi : 53 ≤ i) : sluArrive i arr s = s := if_pos hi

theorem sluReturn_egress (hi : 53 ≤ i) : sluReturn i cr s = announceIdle (i - 53) (grantCredits (i - 53) cr s) := if_neg (Nat.not_lt.2 hi)

theorem sluNext_egress (hi : 53 ≤ i) (h : sluDecoding i s = false) :
    sluNext i arr cr s =
      ctlIdle (i - 53) (sluDecide i (sluFinish sendGranted i (announceIdle (i - 53) (grantCredits (i - 53) cr s)))) := by
  rw [sluNext, sluArrive_egress arr hi, if_neg (by simp [h]), if_neg (show ¬ i < firstEgress from Nat.not_lt.2 hi), sluReturn_egress cr hi]
  rfl

theorem sluNext_decoding (h : sluDecoding i (sluArrive i arr s) = true) : sluNext i arr cr s = sluArrive i arr s := if_pos h

end Commands

-- Aborted grants

/-- An arbiter whose grant `g` was aborted: the transfer is back at its queue's head, the charge refunded, the wait at its limit (R297). -/
def withoutGrant (i : Nat) (s : State) (g : Grant) : SluInst :=
  { s.slu? i with
    current := none
    credits := tset (s.slu? i).credits g.requester ((s.slu? i).credit g.requester + sluUnits g.req.bytes)
    waits := tset (s.slu? i).waits g.requester (sluLimit s i g.requester)
    queues := tset (s.slu? i).queues g.requester (g.req :: tgetD (s.slu? i).queues g.requester []) }

section Abort

variable {i : Nat} {g : Grant} {s : State}

theorem wait_withoutGrant : (withoutGrant i s g).wait g.requester = sluLimit s i g.requester := tgetD_tset ..

theorem credit_withoutGrant : (withoutGrant i s g).credit g.requester = (s.slu? i).credit g.requester + sluUnits g.req.bytes :=
  tgetD_tset ..

theorem queue_withoutGrant : tgetD (withoutGrant i s g).queues g.requester [] = g.req :: tgetD (s.slu? i).queues g.requester [] :=
  tgetD_tset ..

/-- Off the egress ports an abort changes the arbiter's record, and nothing of the links. -/
theorem sluAbort_path (hi : i < 53) (hg : (s.slu? i).current = some g) :
    (sluAbort i s).slu? i = withoutGrant i s g ∧ (sluAbort i s).xfe = s.xfe := by
  unfold sluAbort
  simp only [hg]
  rw [sluPush_path hi, slu?_setSlu, slu?_setSlu]
  exact ⟨rfl, rfl⟩

theorem sluPreempt_aborts (hg : (s.slu? i).current = some g) (hp : g.preemptible = true)
    (hu : (List.range 16).any (fun r => (sluHead s i r).isSome && (tget (s.slu? i).quar r).isNone) = true) :
    sluPreempt i s = sluDecide i ((sluAbort i s).bump (Ctr.sluPreemptions i)) := by
  simp [sluPreempt, hg, hp, hu]

theorem sluPreempt_firm (h : ∀ g, (s.slu? i).current = some g → g.preemptible = false) : sluPreempt i s = s := by
  unfold sluPreempt
  dsimp only
  split
  next g hg => simp [h g hg]
  next => rfl

theorem bump_ctrs_congr {s t : State} (h : t.ctrs = s.ctrs) (o : Nat) : (t.bump o).ctrs = (s.bump o).ctrs := by
  simp only [State.bump, State.bumpBy, State.ctr, h]

theorem sluHog_none (h : (s.slu? i).current = none) (addr : Nat) : sluHog i addr s = s := by
  simp only [sluHog, h]

/-- What a cut-off records: the requester's HOG bit, the counter and the event (R299). -/
def hogRecorded (i addr r : Nat) (s : State) : State :=
  logFull .sluHog pSlu i (if r < 32 then r % 16 else 0xFF) 0 0 [i, r, addr]
    ((s.setF (Reg.sluInstStatHog i) (setBit (s.getF (Reg.sluInstStatHog i)) r)).bump (Ctr.sluHogCutoffs i))

theorem hogRecorded_keep (i addr r : Nat) (s : State) : Keep 3598 s (hogRecorded i addr r s) :=
  (logFull_keep ..).after ((bump_keep ..).after ((setF_keep ..).mono (by decide)) (by decide)) (by decide)

theorem sluHog_quarantines {n : Nat} (hg : (s.slu? i).current = some g) {u : State} {addr : Nat}
    (hu : hogRecorded i addr g.requester (sluAbort i s) = u) (hn : (sluCtrl u i).2.2.1 = n) (hpos : n ≠ 0) :
    sluHog i addr s = sluShowQuar i (u.setSlu i { u.slu? i with quar := tset (u.slu? i).quar g.requester n }) := by
  subst hu hn
  unfold sluHog
  simp only [hg]
  exact if_neg hpos

/-- A cut-off aborts the grant and quarantines its requester for QUARANTINE windows (R299, R300). -/
theorem sluHog_path {n : Nat} (hi : i < 53) (hg : (s.slu? i).current = some g) (hn : (sluCtrl s i).2.2.1 = n) (hpos : n ≠ 0) (addr : Nat) :
    (sluHog i addr s).slu? i = { withoutGrant i s g with quar := tset (s.slu? i).quar g.requester n } ∧
      (sluHog i addr s).ssq = s.ssq ∧ (sluHog i addr s).xfe = s.xfe := by
  obtain ⟨habort, hxfe⟩ := sluAbort_path hi hg
  have hkeep := hogRecorded_keep i addr g.requester (sluAbort i s)
  have hslu : (hogRecorded i addr g.requester (sluAbort i s)).slu? i = withoutGrant i s g := (hkeep.slu? rfl i).trans habort
  have hctrl : (sluCtrl (hogRecorded i addr g.requester (sluAbort i s)) i).2.2.1 = n := by
    rw [sluCtrl, hslu]
    exact hn
  rw [sluHog_quarantines hg rfl hctrl hpos]
  refine ⟨?_, ?_, ?_⟩
  · rw [slu?_sluShowQuar, slu?_setSlu, hslu]
    rfl
  · exact (hkeep.ssq rfl rfl rfl rfl rfl rfl rfl rfl rfl).trans ((sluAbort_keep i s).ssq rfl rfl rfl rfl rfl rfl rfl rfl rfl)
  · exact (hkeep.xfe rfl).trans hxfe

end Abort

-- The end of a window

section Window

variable (i : Nat) (s : State)

/-- The state once the arbiter has taken CTRL (R301). -/
def ctrlTaken : State := s.setSlu i { s.slu? i with ctrl := some (sluCtrlReg s i) }

/-- A requester's credit after the refill: its weight more, at most twice the weight (R293). -/
def refilled (r : Nat) : Int :=
  min ((s.slu? i).credit r + (sluWeight (ctrlTaken i s) i r : Nat)) (2 * (sluWeight (ctrlTaken i s) i r : Nat))

/-- The end of a window takes CTRL, refills the credits and shortens the quarantines (R293, R300, R301). -/
theorem slu?_sluWindow :
    (sluWindow i s).slu? i =
      { s.slu? i with
        ctrl := some (sluCtrlReg s i)
        credits := (List.range sluRequesters).foldl (fun t r => tset t r (refilled i s r)) (s.slu? i).credits
        quar := ((s.slu? i).quar.map fun q => (q.1, q.2 - 1)).filter (·.2 != 0) } := by
  unfold sluWindow
  dsimp only
  rw [slu?_sluShowQuar, slu?_setSlu, slu?_setSlu]
  rfl

theorem credit_sluWindow {r : Nat} (hr : r < 33) : ((sluWindow i s).slu? i).credit r = refilled i s r := by
  rw [slu?_sluWindow, SluInst.credit, tgetD, tget_foldl_tset, if_pos (List.mem_range.2 (show r < sluRequesters from hr)), Option.getD_some]

/-- The partitions' weights are registers, which the taking of CTRL leaves (R293). -/
theorem sluWeight_ctrlTaken {r : Nat} (hr : r < 32) : sluWeight (ctrlTaken i s) i r = sluWeight s i r := by
  simp only [sluWeight, if_pos hr]
  rfl

/-- The system requester's weight is CTRL's as taken (R301). -/
theorem sluWeight_ctrlTaken_system : sluWeight (ctrlTaken i s) i 32 = s.getF (Reg.sluInstCtrlSysWeight i) := by
  simp only [sluWeight, sluCtrl, ctrlTaken, slu?_setSlu]
  rfl

theorem slu?_sluWindow_ne {k : Nat} (h : k ≠ i) : (sluWindow i s).slu? k = s.slu? k := by
  unfold sluWindow
  dsimp only
  rw [slu?_sluShowQuar, slu?_setSlu_ne h, slu?_setSlu_ne h]

end Window

/-- Settles O52: each command's meaning by the shape of the decision, of an aborted grant, and of a window's end. -/
theorem sluiceArbitration : Obligations.SluiceArbitration := by
  unfold Obligations.SluiceArbitration
  refine ⟨?path, ?egress, ?decoding, ?preempt, ?beyond, ?nobody, ?sole, ?urgentFirst, ?arrives, ?page, ?requester, ?aborts, ?firm, ?hog,
    ?noHog, ?window⟩
  case path =>
    intro i arr cr s hl hi hfree
    rw [exec_sluiceDecide arr cr hl (by omega), sluNext_path arr cr hi hfree]
  case egress =>
    intro i arr cr s hl ⟨hlo, hhi⟩ hfree
    rw [exec_sluiceDecide arr cr hl hhi, sluNext_egress arr cr hlo hfree]
  case decoding =>
    intro i arr cr s hl hi hdec
    rw [exec_sluiceDecide arr cr hl hi, sluNext_decoding arr cr hdec]
  case preempt =>
    intro i arr cr s hl hi
    exact exec_sluicePreempt arr cr hl hi
  case beyond =>
    intro i addr arr cr s hi
    exact exec_sluice_beyond arr cr addr hi
  case nobody =>
    intro i s hno
    have hempty : contenders i s = [] := List.eq_nil_iff_forall_not_mem.2 fun r hr => by
      obtain ⟨hlt, hhead, hquar⟩ := mem_contenders.1 hr
      rcases hno r hlt with h | h
      · simp [h] at hhead
      · simp [hquar] at h
    exact sluDecide_none (winner_none hempty)
  case sole =>
    intro i r q s hi hr honly hq hquar hevery hshort
    have hres := bulkReserved_off hevery
    have hclass := servedClass_sole (contenders_sole hr honly hq hquar) hres
    have hslu := slu?_sluDecide (winner_sole hclass hshort) hq
    have hself := hslu i
    rw [sluPop_path hi, slu?_setSlu, slu?_setSlu] at hself
    refine ⟨_, rfl, ?_, ?_, ?_, ?_, fun k hk => ?_, (sluDecide_keep i s).regs rfl⟩
    · rw [hself, current_granted hres]
    · rw [hself, credit_granted]
      rfl
    · rw [hself, wait_granted_sole hclass]
    · rw [hself]
      exact tgetD_tset ..
    · rw [hslu, slu?_setSlu_ne hk, slu?_sluPop_ne hk]
  case urgentFirst =>
    intro i a b g s ha _ hhead hquar hevery hnone hg
    have hres := bulkReserved_off hevery
    have hclass := servedClass_urgent hres (mem_urgentContenders.2 ⟨mem_contenders.2 ⟨by omega, hhead, hquar⟩, ha⟩)
    cases hw : winner i s with
    | none =>
      rw [sluDecide_none hw, hnone] at hg
      cases hg
    | some w =>
      have hmem := winner_mem hw
      rw [hclass] at hmem
      obtain ⟨hin, hlt⟩ := mem_urgentContenders.1 hmem
      obtain ⟨-, hsome, -⟩ := mem_contenders.1 hin
      obtain ⟨q, hq⟩ := Option.isSome_iff_exists.1 hsome
      rw [slu?_sluDecide hw hq, slu?_setSlu, current_granted hres] at hg
      cases hg
      exact ⟨hlt, decide_eq_false (Nat.not_le.2 hlt)⟩
  case arrives =>
    intro i a s hi
    rw [queues_sluArrive_one (by omega), sluTransfers_path hi]
  case page =>
    intro i a s ⟨hlo, hhi⟩
    rw [queues_sluArrive_one hhi, sluTransfers_expander hlo]
  case requester =>
    intro n a hn hpart
    cases htraffic : a.traffic <;> simp [arrivalRequester, htraffic, hpart, Nat.mod_eq_of_lt hn]
  case aborts =>
    intro i g s hi hg hp hu
    obtain ⟨habort, -⟩ := sluAbort_path hi hg
    refine ⟨_, sluPreempt_aborts hg hp hu, ?_⟩
    rw [slu?_bump, habort]
    exact ⟨rfl, credit_withoutGrant, wait_withoutGrant, queue_withoutGrant, bump_ctrs_congr ((sluAbort_keep i s).ctrs rfl) _⟩
  case firm =>
    intro i s hfirm
    exact sluPreempt_firm hfirm
  case hog =>
    intro i addr g s hoff hi hg hn
    obtain ⟨hslu, hssq, hxfe⟩ := sluHog_path hi hg hn (by decide) addr
    refine ⟨_, exec_sluiceHogCutoff addr hoff (by omega), ?_⟩
    rw [hslu]
    exact ⟨rfl, tget_tset .., wait_withoutGrant, queue_withoutGrant, hssq, hxfe⟩
  case noHog =>
    intro i addr s hnone
    exact congrArg _ (powered_of_eq (by rw [sluHog_none hnone, ite_self]))
  case window =>
    intro i s hoff hi
    have hrec := slu?_sluWindow i s
    refine ⟨_, exec_sluiceWindowBoundary hoff hi, fun r hr => ?_, ?_, ?_, ?_, ?_, ?_, fun k hk => slu?_sluWindow_ne i s hk,
      (sluWindow_keep i s).ssq rfl rfl rfl rfl rfl rfl rfl rfl rfl, (sluWindow_keep i s).xfe rfl⟩
    · rw [credit_sluWindow i s (by omega), refilled, sluWeight_ctrlTaken i s hr]
    · rw [credit_sluWindow i s (by omega), refilled, sluWeight_ctrlTaken_system]
    all_goals rw [hrec]

end Sys2Proof.Machine

/-!
Connections of the host: what CONN_OPEN and CONN_CLOSE answer (10 R321, R322, R325, 11 R366).
-/
namespace Sys2Proof.Machine

open Sys2Proof

theorem exec_connOpen (c : Cmd) (s : State) : exec (.connOpen c) s = .next (hostCmd 0x0501 c (connOpenCmd c) s) := rfl
theorem exec_connClose (c : Cmd) (s : State) : exec (.connClose c) s = .next (hostCmd 0x0502 c (connCloseCmd c) s) := rfl

section Commands

variable {c : Cmd} {s : State} {k : Conn} {v id : Nat}

section Open

variable (hargs : c.argsOk [(0, 5)] = true) (hlen : c.dlen = 0) (hnode : c.arg 0 4 < 2 ^ 17) (hrpart : c.arg 4 1 < 16)
include hargs hlen hnode hrpart

theorem connOpenCmd_ungoverned (hv : governing s c.part (c.arg 0 4) (c.arg 4 1) = none) : connOpenCmd c s = .fail .fabricRefused := by
  simp only [connOpenCmd, hargs, hlen, hnode, hrpart, hv, decide_true, Bool.and_self, need_true]

theorem connOpenCmd_opened (hv : governing s c.part (c.arg 0 4) (c.arg 4 1) = some v)
    (hpair : findPair s c.part (c.arg 0 4) (c.arg 4 1) = some (id, k)) (hk : k.state = .opened) :
    connOpenCmd c s = .done s { result0 := id } := by
  simp only [connOpenCmd, hargs, hlen, hnode, hrpart, hv, hpair, hk, decide_true, Bool.and_self, need_true, if_true]

theorem connOpenCmd_new (hv : governing s c.part (c.arg 0 4) (c.arg 4 1) = some v)
    (hpair : findPair s c.part (c.arg 0 4) (c.arg 4 1) = none) (hid : freeConnId s c.part = some id) :
    connOpenCmd c s = need (decide ((makeRoom s).resident < onChip)) .noConnection (.wait (sendConnect id (putConn id
      { newConn (makeRoom s) c.part (c.arg 0 4) (c.arg 4 1) v .opening with cmd := some c } (makeRoom s)))) := by
  simp only [connOpenCmd, hargs, hlen, hnode, hrpart, hv, hpair, hid, decide_true, Bool.and_self, need_true]

end Open

section Close

variable (hargs : c.argsOk [(0, 4)] = true) (hlen : c.dlen = 0) (hid : c.arg 0 4 < 2 ^ 20)
include hargs hlen hid

theorem connCloseCmd_none (hk : tget s.xfe.conns (c.arg 0 4) = none) : connCloseCmd c s = .fail .noConnection := by
  simp only [connCloseCmd, hargs, hlen, hid, hk, decide_true, Bool.and_self, need_true]

theorem connCloseCmd_failed (hk : tget s.xfe.conns (c.arg 0 4) = some k) (hpart : k.part = c.part) (hst : k.state = .failed) :
    connCloseCmd c s = .done (fetchWaiting (freeConn (c.arg 0 4) s)) {} := by
  simp only [connCloseCmd, hargs, hlen, hid, hk, decide_true, Bool.and_self, need_true]
  rw [if_neg (not_not.2 hpart), if_pos hst]

theorem connCloseCmd_opened (hk : tget s.xfe.conns (c.arg 0 4) = some k) (hpart : k.part = c.part) (hst : k.state = .opened) :
    let u := putConn (c.arg 0 4) { k with state := .closing, cmd := some c } s
    connCloseCmd c s = .wait (if k.spilled then fetchRecord (c.arg 0 4) u else tryClose (c.arg 0 4) u) := by
  simp only [connCloseCmd, hargs, hlen, hid, hk, decide_true, Bool.and_self, need_true]
  rw [if_neg (not_not.2 hpart), if_neg (by simp [hst]), if_neg (not_not.2 hst)]

end Close

end Commands

/-- Settles O15: each clause is one branch of its command, run past the common checks. -/
theorem connectionCommands : Obligations.ConnectionCommands := by
  unfold Obligations.ConnectionCommands
  refine ⟨?new, ?opened, ?ungoverned, ?close, ?failed, ?none⟩
  case new =>
    intro c v id s hadm hargs hlen hnode hrpart hv hpair hid
    have hbody := connOpenCmd_new hargs hlen hnode hrpart hv hpair hid
    rw [exec_connOpen]
    split
    case isTrue hroom =>
      rw [decide_eq_true hroom] at hbody
      rw [hostCmd_wait hadm hbody]
    case isFalse hfull =>
      rw [decide_eq_false hfull] at hbody
      rw [hostCmd_fail hadm hbody]
  case opened =>
    intro c v id k s hadm hargs hlen hnode hrpart hv hpair hk
    rw [exec_connOpen, hostCmd_done hadm (connOpenCmd_opened hargs hlen hnode hrpart hv hpair hk)]
  case ungoverned =>
    intro c s hadm hargs hlen hnode hrpart hv
    rw [exec_connOpen, hostCmd_fail hadm (connOpenCmd_ungoverned hargs hlen hnode hrpart hv)]
  case close =>
    intro c k s hadm hargs hlen hid hk hpart hst
    rw [exec_connClose, hostCmd_wait hadm (connCloseCmd_opened hargs hlen hid hk hpart hst)]
  case failed =>
    intro c k s hadm hargs hlen hid hk hpart hst
    rw [exec_connClose, hostCmd_done hadm (connCloseCmd_failed hargs hlen hid hk hpart hst)]
  case none =>
    intro c s hadm hargs hlen hid hk
    rw [exec_connClose, hostCmd_fail hadm (connCloseCmd_none hargs hlen hid hk)]

end Sys2Proof.Machine

/-!
The timers and events of the Xebrilink transport (10 R325-R349, 11 R361, R362, R372).
-/
namespace Sys2Proof.Machine

open Sys2Proof

theorem exec_connectTimeout (id : Nat) (s : State) : exec (.connectTimeout id) s = execConnectTimeout id s := rfl
theorem exec_closeTimeout (id : Nat) (s : State) : exec (.closeTimeout id) s = execCloseTimeout id s := rfl
theorem exec_connectionDeadTimeout (id : Nat) (s : State) : exec (.connectionDeadTimeout id) s = execConnectionDeadTimeout id s := rfl
theorem exec_ackDelayExpiry (id seq : Nat) (s : State) : exec (.ackDelayExpiry id seq) s = execAckDelayExpiry id seq s := rfl
theorem exec_triggerConsume (i ns : Nat) (s : State) : exec (.triggerConsume i ns) s = execTriggerConsume i ns s := rfl
theorem exec_retransmitTimeout (id seq index : Nat) (s : State) :
    exec (.retransmitTimeout id seq index) s = .next (live (retransmit id seq index) s) := rfl
theorem exec_deadTarget (req : Nat) (s : State) : exec (.deadTarget req) s = .next (live (deadTarget req) s) := rfl
theorem exec_spillFetchDone (id : Nat) (record : Option (List Byte)) (s : State) :
    exec (.spillFetchDone id record) s = .next (live (spillFetched id record) s) := rfl
theorem exec_messageLeftPort (id seq : Nat) (s : State) : exec (.messageLeftPort id seq) s = .next (live (messageLeft id seq) s) := rfl

section Timers

variable {s : State} {id seq index : Nat} {k : Conn}

/-- A connection whose messages are all acknowledged has no unacknowledged packet. -/
theorem unacked_of_all_acked (h : k.tx.all (·.acked) = true) : k.unacked = 0 := by
  rw [List.all_eq_true] at h
  refine List.sum_eq_zero fun n hn => ?_
  obtain ⟨m, hm, rfl⟩ := List.mem_map.1 hn
  exact if_pos (h m hm)

/-- A connection that holds nothing fails (R325): no message and no command ends with it. -/
theorem failConn_holding_nothing (hk : tget s.xfe.conns id = some k) (hst : k.state = .opened) (htx : k.tx = []) (hcmd : k.cmd = none)
    (hsp : k.spilled = false) :
    failConn id s = logEv .xfeConnFailed pXfe k.part [id, k.node, k.rpart]
      ((loseHolding id (releaseHeld k (putConn id { k with state := .failed, ctlSent := [], trackers := [], held := [] } s))).bump
        Ctr.xfeConnFailed) := by
  rw [failConn, hk]
  simp only [hst, htx, hcmd, hsp, ne_eq, not_true, false_and, if_false, Bool.false_and, List.filter_nil, List.foldl_nil]
  rfl

section Retransmit

/-- The connection after a retransmission timeout: the RTO is doubled up to RTO_MAX (R333). -/
def slower (s : State) (k : Conn) : Conn := { k with rtoUs := min (2 * k.rtoUs) (s.getF Reg.xfeRtoMaxUs) }

/-- Packet `index` of message `seq` has left, is not acknowledged and waits at no port, and its message has a port to leave by (R333). -/
def Conn.overdue (k : Conn) (s : State) (seq index : Nat) : Bool :=
  k.tx.any fun m => m.seq == seq && !m.acked && !(msgPorts s k m).isEmpty &&
    m.pkts.any fun p => p.index == index && p.left && !p.queued && !p.acked

theorem not_overdue (h : k.tx.all (fun m => m.seq != seq || m.acked || (msgPorts s k m).isEmpty) = true) : k.overdue s seq index = false := by
  rw [List.all_eq_true] at h
  rw [Conn.overdue, List.any_eq_false]
  intro m hm
  have hno := h m hm
  simp only [Bool.or_eq_true, bne_iff_ne] at hno
  rcases hno with (hseq | hacked) | hports
  · simp [hseq]
  · simp [hacked]
  · simp [hports]

/-- The test of a retransmission timeout for a packet to send again. -/
theorem sends_and_overdue :
    (k.tx.any fun m => m.seq == seq && !m.acked && !(msgPorts s k m).isEmpty && k.sends s &&
      m.pkts.any fun p => p.index == index && p.left && !p.queued && !p.acked) = (k.sends s && k.overdue s seq index) := by
  cases hsends : k.sends s
  · simp
  · simp only [Bool.and_true, Bool.true_and, Conn.overdue]

variable (hk : tget s.xfe.conns id = some k)
include hk

theorem retransmit_opening (hst : k.state = .opening) :
    retransmit id seq index s = if s.nodeValid && !(s.upPorts k.node).isEmpty then sendConnect id (putConn id (slower s k) s) else s := by
  rw [retransmit, hk]
  exact if_pos hst

variable (hst : k.state ≠ .opening)
include hst

theorem retransmit_overdue (hsends : k.sends s = true) (hdue : k.overdue s seq index = true) :
    retransmit id seq index s = resendPkt id seq index (putConn id (slower s k) s) := by
  rw [retransmit, hk]
  dsimp only
  rw [if_neg hst, sends_and_overdue, hsends, hdue]
  rfl

/-- With no packet to send again, the control packet that the PSN names goes again (R343). -/
theorem retransmit_control {q : CtlPkt} (hdue : k.overdue s seq index = false) (hq : k.ctlSent.find? (·.psn == some seq) = some q)
    (hsends : k.sends s = true) (hports : (s.upPorts k.node).isEmpty = false)
    (hwaits : ((tkeys s.xfe.ctl).any fun p => (tgetD s.xfe.ctl p []).any fun w => w.conn == q.conn && w.psn == q.psn) = false) :
    retransmit id seq index s = resendCtl q (putConn id (slower s k) s) := by
  rw [retransmit, hk]
  dsimp only
  rw [if_neg hst, sends_and_overdue, hsends, hdue, hq]
  dsimp only
  rw [hports, hwaits]
  rfl

theorem retransmit_idle (h : k.sends s = false ∨ (k.overdue s seq index = false ∧ k.ctlSent.find? (·.psn == some seq) = none)) :
    retransmit id seq index s = s := by
  rw [retransmit, hk]
  dsimp only
  rw [if_neg hst, sends_and_overdue]
  rcases h with hsends | ⟨hdue, hq⟩
  · rw [hsends]
    cases k.ctlSent.find? (·.psn == some seq) <;> rfl
  · rw [hdue, hq, Bool.and_false]
    rfl

end Retransmit

theorem deadTarget_tailFlush {req w : Nat} {q : Request} (hq : tget s.xfe.requests req = some q) (hwhat : q.what = .tailFlush w) :
    deadTarget req s = logEv .xfeDeadTarget pXfe (((tget s.xfe.conns q.conn).map (·.part)).getD 0xFF) [q.conn, q.op, req]
      ((dropSender q.conn req { s with xfe := { s.xfe with requests := tdel s.xfe.requests req } }).bump Ctr.xfeDeadTargetOps) := by
  rw [deadTarget, hq]
  simp only [hwhat]

section Fetched

/-- A record is no longer awaited. -/
def unfetched (id : Nat) (s : State) : State := { s with xfe := { s.xfe with fetching := s.xfe.fetching.filter (· != id) } }

variable (hf : s.xfe.fetching.contains id = true) (hk : tget s.xfe.conns id = some k) (hsp : k.spilled = true) (hst : k.state ≠ .failed)
include hf hk hsp hst

/-- Poison, or a host link that is down: the connection fails (R344). -/
theorem spillFetched_none :
    spillFetched id none s =
      afterFetch id (logEv .xfeSpillFailed pXfe k.part [id] (failConn id (putConn id { k with spilled := false } (unfetched id s)))) := by
  simp only [spillFetched, hf, hk, hsp, hst, Bool.not_true, Bool.false_eq_true, if_false, Option.filter_some, if_true]
  rfl

/-- A record whose check holds comes back (R344, R345). -/
theorem spillFetched_good {b : List Byte} (hlen : b.length = 64) (hsum : slice b 0x3C 4 = shake256 (b.take 0x3C) 4) :
    spillFetched id (some b) s = afterFetch id (putConn id { connOfRecord k b with state := k.state } (unfetched id s)) := by
  simp only [spillFetched, hf, hk, hsp, hst, hlen, hsum, Bool.not_true, Bool.false_eq_true, if_false, Option.filter_some, if_true, and_self]
  rfl

end Fetched

/-- A message all of whose packets have left, of an operation that ends there, is complete at the sender (R349). -/
theorem messageLeft_all_left {m : TxMsg} (hk : tget s.xfe.conns id = some k) (hm : k.tx.find? (·.seq == seq) = some m)
    (hopen : m.completed = false) (hcount : m.count ≤ m.pkts.length) (hleft : m.pkts.all (fun p => p.left || p.acked) = true)
    (hop : opLeaves m.op = true) (hwork : m.work = none) :
    messageLeft id seq s = tryClose id (pruneTx id (modTx id seq (fun m => { m with completed := true }) s)) := by
  rw [messageLeft, hk]
  dsimp only
  rw [hm]
  simp only [hopen, decide_eq_false (Nat.not_lt.2 hcount), hleft, hop, hwork, Bool.or_self, Bool.not_true, Bool.false_eq_true, if_false]

/-- The oldest trigger of a region that serves no wheel starts what waits for the count (11 R361, R362). -/
theorem consumeTrigger_posted {i : Nat} {r : Region} {t : Trig} {l : List Trig} (hr : tget s.xfe.regions i = some r) (hq : r.queue = t :: l)
    (hw : r.wheel = none) :
    consumeTrigger i s = (firePosted i (r.posted.length + 1)
      ((putRegion i { r with queue := l, count := (r.count + t.inc) % 2 ^ 32, inflight := r.inflight - 1 } s).bump Ctr.xfeTriggersConsumed),
      none) := by
  rw [consumeTrigger, hr]
  dsimp only
  rw [hq]
  dsimp only
  rw [hw]

end Timers

/-- Settles O18: each clause is its event, due in the state that the clause names; a retransmission timeout by what it finds overdue. -/
theorem transportTimers : Obligations.TransportTimers := by
  unfold Obligations.TransportTimers
  refine ⟨?connect, ?close, ?dead, ?fail, ?opening, ?overdue, ?idle, ?control, ?ack, ?target, ?noRecord, ?record, ?left, ?trigger⟩
  case connect =>
    intro id k s hl hk hst
    simp only [exec_connectTimeout, execConnectTimeout, live_of_running hl, hk, hst, if_true]
  case close =>
    intro id k s hl hk hst hsent
    simp only [exec_closeTimeout, execCloseTimeout, live_of_running hl, hk, hst, hsent, and_self, if_true]
  case dead =>
    intro id k s hl hk hun
    have hall : ¬ k.tx.all (·.acked) = true := fun h => hun (unacked_of_all_acked h)
    rw [exec_connectionDeadTimeout, execConnectionDeadTimeout, live_of_running hl, hk]
    exact congrArg _ (if_neg hall)
  case fail =>
    intro id k s hk hst htx hcmd hsp
    exact failConn_holding_nothing hk hst htx hcmd hsp
  case opening =>
    intro id seq index k s hl hk hst
    rw [exec_retransmitTimeout, live_of_running hl, retransmit_opening hk hst, slower]
  case overdue =>
    intro id seq index k s hl hk hst hsends hdue
    rw [exec_retransmitTimeout, live_of_running hl, retransmit_overdue hk hst hsends hdue, slower]
  case idle =>
    intro id seq index k s hl hk hst h
    rw [exec_retransmitTimeout, live_of_running hl, retransmit_idle hk hst (h.imp_right (And.imp_left not_overdue))]
  case control =>
    intro id seq index k q s hl hk hst hall hq hsends hports hwaits
    have hdue : k.overdue s seq index = false := by
      refine not_overdue (List.all_eq_true.2 fun m hm => ?_)
      rw [List.all_eq_true.1 hall m hm, Bool.true_or]
    rw [exec_retransmitTimeout, live_of_running hl, retransmit_control hk hst hdue hq hsends hports hwaits, slower]
  case ack =>
    intro id seq k t s hl hk ht hsince
    simp only [exec_ackDelayExpiry, execAckDelayExpiry, live_of_running hl, hk, ht, hsince, Option.bind_some, Option.map_some, if_false]
  case target =>
    intro req w q s hl hq hwhat
    rw [exec_deadTarget, live_of_running hl, deadTarget_tailFlush hq hwhat]
  case noRecord =>
    intro id k s hl hk hf hsp hst
    rw [exec_spillFetchDone, live_of_running hl, spillFetched_none hf hk hsp hst, unfetched]
  case record =>
    intro id k b s hl hk hf hsp hst hlen hsum
    rw [exec_spillFetchDone, live_of_running hl, spillFetched_good hf hk hsp hst hlen hsum, unfetched]
  case left =>
    intro id seq k m s hl hk hm hopen hcount hleft hop hwork
    rw [exec_messageLeftPort, live_of_running hl, messageLeft_all_left hk hm hopen hcount hleft hop hwork]
  case trigger =>
    intro i ns r t l s hl hr hq hw
    rw [exec_triggerConsume, execTriggerConsume, live_of_running hl, consumeTrigger_posted hr hq hw]

end Sys2Proof.Machine

/-!
Link bring-up: the states of a port (10 R308, R309, R312).
-/
namespace Sys2Proof.Machine

open Sys2Proof

theorem exec_linkDetect (port lanes : Nat) (s : State) : exec (.linkDetect port lanes) s = execLinkDetect port lanes s := rfl
theorem exec_linkTrained (port : Nat) (s : State) : exec (.linkTrained port) s = execLinkTrained port s := rfl
theorem exec_linkTrainTimeout (port : Nat) (s : State) : exec (.linkTrainTimeout port) s = execLinkTrainTimeout port s := rfl
theorem exec_linkCap (port : Nat) (peer : LinkPeer) (s : State) : exec (.linkCap port peer) s = execLinkCap port peer s := rfl
theorem exec_linkDown (port fec : Nat) (s : State) : exec (.linkDown port fec) s = execLinkDown port fec s := rfl
theorem exec_portEnWrite (via port en : Nat) (s : State) : exec (.portEnWrite via port en) s = execPortEnWrite via port en s := rfl

section PortEn

variable {s : State} {port : Nat} (hs : s.fnShown 0 = true) (hoff : s.mgc.off = false) (hport : port < 8)
include hs hoff hport

/-- The operator's write of PORT_EN.EN is taken (16 R513). -/
theorem portEn_taken {en : Nat} (hen : en ≤ 1) : ¬(s.operator 0 = false ∨ 8 ≤ port ∨ 1 < en ∨ s.mgc.off = true) := by
  simp only [operator_zero hs, hoff, Bool.true_eq_false, Bool.false_eq_true, false_or, or_false]
  omega

theorem exec_portEnWrite_zero :
    exec (.portEnWrite 0 port 0) s = .next (countIo 0 (if (s.setF (Reg.xfePortEn port) 0).upPort port
      then announceAll (dropPort port 0 (s.setF (Reg.xfePortEn port) 0)) else dropPort port 0 (s.setF (Reg.xfePortEn port) 0))) := by
  rw [exec_portEnWrite, execPortEnWrite, if_neg (portEn_taken hs hoff hport (Nat.zero_le 1))]
  rfl

/-- EN = 1 starts detection from DISABLED, once stage 0 of the boot is over (R308, 15 R500). -/
theorem exec_portEnWrite_one (hstate : (s.setF (Reg.xfePortEn port) 1).getF (Reg.xfePortState port) = 0)
    (hboot : 1 ≤ (s.setF (Reg.xfePortEn port) 1).getF Reg.mgcBootStage) (hrun : (s.setF (Reg.xfePortEn port) 1).running = true) :
    exec (.portEnWrite 0 port 1) s =
      .next (countIo 0 ((s.setF (Reg.xfePortEn port) 1).setF (Reg.xfePortState port) portDetect)) := by
  rw [exec_portEnWrite, execPortEnWrite, if_neg (portEn_taken hs hoff hport le_rfl)]
  dsimp only
  rw [if_neg Nat.one_ne_zero, if_pos ⟨hstate, hboot, hrun⟩]

end PortEn

/-- Settles O19: each row's event is due in the state of its port that the clause names. -/
theorem linkBringUp : Obligations.LinkBringUp := by
  unfold Obligations.LinkBringUp
  refine ⟨?detect, ?trained, ?timeout, ?cap, ?down, ?enable, ?disable⟩
  case detect =>
    intro port lanes s hl hport hstate hlanes
    rw [exec_linkDetect, execLinkDetect, live_of_running hl, if_pos ⟨hport, hstate, hlanes⟩]
    rfl
  case trained =>
    intro port s hl hport hstate
    rw [exec_linkTrained, execLinkTrained, live_of_running hl, if_pos ⟨hport, hstate⟩]
  case timeout =>
    intro port s hl hport hstate
    rw [exec_linkTrainTimeout, execLinkTrainTimeout, live_of_running hl, if_pos ⟨hport, hstate⟩]
    rfl
  case cap =>
    intro port gen credits s hl hport hstate hgen
    rw [exec_linkCap, execLinkCap, live_of_running hl, if_pos ⟨hport, hstate, hgen⟩]
  case down =>
    intro port fec s hl hport hup
    rw [exec_linkDown, execLinkDown, live_of_running hl, if_pos ⟨hport, hup⟩]
  case enable =>
    intro port s hs hoff hport hstate hboot hrun
    exact exec_portEnWrite_one hs hoff hport hstate hboot hrun
  case disable =>
    intro port s hs hoff hport
    exact exec_portEnWrite_zero hs hoff hport

end Sys2Proof.Machine

/-!
Node numbers, peers and routes (10 R313-R317), and the expert operations on routes and connections (10 R325, R345, 16 R517).
-/
namespace Sys2Proof.Machine

open Sys2Proof

theorem exec_assign (port node fm epoch : Nat) (s : State) : exec (.assign port node fm epoch) s = .next (assign port node fm epoch s) := rfl
theorem exec_join (port node uid : Nat) (s : State) : exec (.join port node uid) s = execJoin port node uid s := rfl
theorem exec_depart (port node uid : Nat) (s : State) : exec (.depart port node uid) s = execDepart port node uid s := rfl
theorem exec_route (port first last mask epoch : Nat) (s : State) :
    exec (.route port first last mask epoch) s = execRoute port first last mask epoch s := rfl
theorem exec_nodeStaticWrite (via st node : Nat) (s : State) : exec (.nodeStaticWrite via st node) s = execNodeStaticWrite via st node s := rfl
theorem exec_routeRead (via first : Nat) (s : State) : exec (.routeRead via first) s = execRouteRead via first s := rfl
theorem exec_routeWrite (via first last mask : Nat) (s : State) :
    exec (.routeWrite via first last mask) s = execRouteWrite via first last mask s := rfl
theorem exec_connReadRecord (via id : Nat) (s : State) : exec (.connReadRecord via id) s = execConnReadRecord via id s := rfl
theorem exec_connFail (via id : Nat) (s : State) : exec (.connFail via id) s = execConnFail via id s := rfl

section Assign

variable {s : State} {port node fm epoch : Nat}

/-- What the device does with an ASSIGN that it hears: the epochs decide (R313). -/
theorem assign_heard (hf : fmHeard s port = true) (hn : node < 2 ^ 17) (he : epoch < 2 ^ 32) :
    assign port node fm epoch s =
      if s.getF Reg.xfeFmEpoch < epoch then
        logEv .xfeNodeAssigned pXfe 0xFF [node, fm, epoch] (takeNode node ((s.setF Reg.xfeFmEpoch epoch).setF Reg.xfeFmFmNode fm))
      else if epoch = s.getF Reg.xfeFmEpoch ∧ node ≠ s.node then logEv .xfeNodeConflict pXfe 0xFF [node, fm, epoch] s
      else s := by
  rw [assign, if_neg]
  simp only [hf, decide_eq_false (Nat.not_le.2 hn), decide_eq_false (Nat.not_le.2 he)]
  decide

theorem assign_older (h : epoch < s.getF Reg.xfeFmEpoch ∨ fmHeard s port = false) : assign port node fm epoch s = s := by
  rw [assign]
  split
  case isTrue => rfl
  case isFalse hheard =>
    have hepoch : epoch < s.getF Reg.xfeFmEpoch := h.resolve_right fun hf => hheard (by simp [hf])
    dsimp only
    rw [if_neg (Nat.not_lt.2 hepoch.le), if_neg fun h => hepoch.ne h.1]

end Assign

-- Routes (R317)

section Tables

variable {α : Type}

theorem tget_append (t u : Table α) (i : Nat) : tget (t ++ u) i = (tget t i).or (tget u i) := by
  induction t with
  | nil => rfl
  | cons x t ih =>
    obtain ⟨k, v⟩ := x
    rw [List.cons_append, tget, tget, ih]
    split <;> rfl

/-- A filter by key keeps the entries of the keys that pass, and no other. -/
theorem tget_filter_key (p : Nat → Bool) (t : Table α) (i : Nat) : tget (t.filter fun e => p e.1) i = if p i then tget t i else none := by
  induction t with
  | nil => exact (ite_self _).symm
  | cons x t ih =>
    obtain ⟨k, v⟩ := x
    by_cases hk : k = i
    · subst hk
      cases hp : p k <;> simp [hp, tget, ih]
    · cases hp : p k <;> simp [hp, tget, ih, hk]

/-- Entries of one value for a run of keys. -/
theorem tget_run (v : α) (first n i : Nat) :
    tget ((List.range n).map fun j => (first + j, v)) i = if first ≤ i ∧ i < first + n then some v else none := by
  induction n with
  | zero => rw [if_neg (by omega)]; rfl
  | succ n ih =>
    rw [List.range_succ, List.map_append, tget_append, ih]
    by_cases hi : first ≤ i ∧ i < first + n
    · rw [if_pos hi, if_pos (by omega)]; rfl
    · rw [if_neg hi, Option.none_or, List.map_singleton, tget]
      by_cases hlast : first + n = i
      · rw [if_pos hlast, if_pos (by omega)]
      · rw [if_neg hlast, if_neg (by omega)]; rfl

end Tables

theorem setRoutes_frame (first last mask : Nat) (s : State) :
    setRoutes first last mask s = { s with xfe := { s.xfe with routes := (setRoutes first last mask s).xfe.routes } } := rfl

/-- The entries that a range of nodes takes; a mask of 0xFF is not listed. -/
theorem tget_rangeRoutes {first last : Nat} (hrange : first ≤ last) (mask n : Nat) :
    tget (if mask = 0xFF then [] else (List.range (last + 1 - first)).map fun i => (first + i, mask)) n =
      if first ≤ n ∧ n ≤ last ∧ mask ≠ 0xFF then some mask else none := by
  by_cases hmask : mask = 0xFF
  · rw [if_pos hmask, if_neg fun h => h.2.2 hmask]; rfl
  · rw [if_neg hmask, tget_run]
    exact if_congr (by omega) rfl rfl

/-- The masks after a range of nodes is set. -/
theorem routeMask_setRoutes {first last : Nat} (hrange : first ≤ last) (mask : Nat) (s : State) (n : Nat) :
    (setRoutes first last mask s).routeMask n = if first ≤ n ∧ n ≤ last then mask else s.routeMask n := by
  simp only [State.routeMask, tgetD, setRoutes, tget_append, tget_rangeRoutes hrange, tget_filter_key (fun k => decide (k < first)),
    tget_filter_key (fun k => decide (last < k)), tget_filter_key (fun k => decide (k < first) || decide (last < k))]
  by_cases hbelow : n < first
  · simp [hbelow, Nat.not_le.2 hbelow, Nat.not_lt.2 (hbelow.le.trans hrange)]
  · by_cases habove : last < n
    · simp [habove, hbelow, Nat.not_le.2 habove]
    · by_cases hmask : mask = 0xFF <;> simp [habove, hbelow, hmask, Nat.not_lt.1 habove, Nat.not_lt.1 hbelow]

section Operator

variable {s : State}

theorem exec_nodeStaticWrite_taken {node : Nat} (hs : s.fnShown 0 = true) (hoff : s.mgc.off = false) (hvalid : s.nodeValid = false)
    (hn : node < 2 ^ 17) :
    exec (.nodeStaticWrite 0 1 node) s =
      .next (countIo 0 (announceAll (takeNode node ((s.setF Reg.xfeNodeStatic 1).setF Reg.xfeNodeStaticNode node)))) := by
  have htaken : ¬(s.operator 0 = false ∨ s.mgc.off = true ∨ s.nodeValid = true ∨ 1 < 1 ∨ 2 ^ 17 ≤ node) := by
    simp only [operator_zero hs, hoff, hvalid, Bool.true_eq_false, Bool.false_eq_true, false_or]
    omega
  rw [exec_nodeStaticWrite, execNodeStaticWrite, if_neg htaken]
  rfl

/-- NODE_STATIC is function 0's, and fixed once a node number is valid (R314). -/
theorem exec_nodeStaticWrite_discarded {via : Nat} (st node : Nat) (h : via ≠ 0 ∨ s.nodeValid = true) :
    exec (.nodeStaticWrite via st node) s = .next (countIo via s) := by
  rw [exec_nodeStaticWrite, execNodeStaticWrite, if_pos]
  rcases h with hvia | hvalid
  · exact .inl (not_operator_of_ne hvia s)
  · exact .inr (.inr (.inl hvalid))

theorem exec_routeRead_open {first : Nat} (hdev : s.expertDevice pXfe 0 = true) (hidle : s.flag Reg.xfeRouteStatBusy = false)
    (hfirst : first < 2 ^ 17) :
    exec (.routeRead 0 first) s = .next (countIo 0
      (((s.setF Reg.xfeRouteOpFirst first).setF Reg.xfeRouteOpOp 1).setF Reg.xfeRouteStatMask (s.routeMask first))) := by
  rw [exec_routeRead, execRouteRead, if_neg]
  simpa [hdev, hidle] using hfirst

theorem exec_routeWrite_open {first last mask : Nat} (hdev : s.expertDevice pXfe 0 = true) (hidle : s.flag Reg.xfeRouteStatBusy = false)
    (hrange : first ≤ last) (hlast : last < 2 ^ 17) (hmask : mask < 256) :
    exec (.routeWrite 0 first last mask) s = .next (countIo 0 (setRoutes first last mask
      ((((s.setF Reg.xfeRouteOpFirst first).setF Reg.xfeRouteOpLast last).setF Reg.xfeRouteOpMask mask).setF Reg.xfeRouteOpOp 2))) := by
  rw [exec_routeWrite, execRouteWrite, if_neg]
  simp only [hdev, hidle, decide_eq_false (Nat.not_lt.2 hrange), decide_eq_false (Nat.not_le.2 hlast), decide_eq_false (Nat.not_le.2 hmask)]
  decide

end Operator

/-- Settles O20: the message that an FM port hears, or the operation that the open window lets through, is taken; a range of routes by
`routeMask_setRoutes`. -/
theorem nodeNumbersAndRoutes : Obligations.NodeNumbersAndRoutes := by
  unfold Obligations.NodeNumbersAndRoutes
  refine ⟨?newer, ?conflict, ?older, ?join, ?depart, ?route, ?static, ?fixed, ?read, ?write, ?record, ?fail⟩
  case newer =>
    intro port node fm epoch s hf hn he hnew
    rw [exec_assign, assign_heard hf hn he, if_pos hnew]
  case conflict =>
    intro port node fm epoch s hf hn he hsame hother
    rw [exec_assign, assign_heard hf hn he, if_neg hsame.not_lt, if_pos ⟨hsame.symm, hother⟩]
  case older =>
    intro port node fm epoch s h
    rw [exec_assign, assign_older h]
  case join =>
    intro port node uid s hf
    rw [exec_join, execJoin, hf]
    rfl
  case depart =>
    intro port node uid s hf
    rw [exec_depart, execDepart, hf]
    rfl
  case route =>
    intro port first last mask epoch s hf hepoch hrange hlast hmask
    refine ⟨setRoutes first last mask s, ?_, setRoutes_frame .., routeMask_setRoutes hrange mask s⟩
    rw [exec_route, execRoute, if_neg]
    simp only [hf, decide_eq_false (not_not.2 hepoch), decide_eq_false (Nat.not_lt.2 hrange), decide_eq_false (Nat.not_le.2 hlast),
      decide_eq_false (Nat.not_le.2 hmask)]
    decide
  case static =>
    intro node s hs hoff hvalid hn
    exact exec_nodeStaticWrite_taken hs hoff hvalid hn
  case fixed =>
    intro via st node s h
    exact exec_nodeStaticWrite_discarded st node h
  case read =>
    intro first s hdev hidle hfirst
    exact exec_routeRead_open hdev hidle hfirst
  case write =>
    intro first last mask s _ hdev hidle hrange hlast hmask
    exact ⟨_, exec_routeWrite_open hdev hidle hrange hlast hmask, rfl, routeMask_setRoutes hrange mask _⟩
  case record =>
    intro via id s hopen
    rw [exec_connReadRecord, execConnReadRecord, hopen]
    rfl
  case fail =>
    intro via id s hopen
    rw [exec_connFail, execConnFail, hopen]
    rfl

end Sys2Proof.Machine

/-!
Reception: the checks on a packet, in their order (10 R346).
-/
namespace Sys2Proof.Machine

open Sys2Proof

-- The rows, one an opcode

section Rows

variable (port : Nat) (raw : List Byte) (fill : Nat) (s : State)

theorem exec_write : exec (.write port raw fill) s = .next (receiveOp 0x01 port raw fill s) := rfl
theorem exec_readReq : exec (.readReq port raw fill) s = .next (receiveOp 0x02 port raw fill s) := rfl
theorem exec_readResp : exec (.readResp port raw fill) s = .next (receiveOp 0x03 port raw fill s) := rfl
theorem exec_atomic : exec (.atomic port raw fill) s = .next (receiveOp 0x04 port raw fill s) := rfl
theorem exec_atomicResp : exec (.atomicResp port raw fill) s = .next (receiveOp 0x05 port raw fill s) := rfl
theorem exec_cas : exec (.cas port raw fill) s = .next (receiveOp 0x06 port raw fill s) := rfl
theorem exec_casResp : exec (.casResp port raw fill) s = .next (receiveOp 0x07 port raw fill s) := rfl
theorem exec_mcastWrite : exec (.mcastWrite port raw fill) s = .next (receiveOp 0x08 port raw fill s) := rfl
theorem exec_reduce : exec (.reduce port raw fill) s = .next (receiveOp 0x09 port raw fill s) := rfl
theorem exec_flush : exec (.flush port raw fill) s = .next (receiveOp 0x0A port raw fill s) := rfl
theorem exec_flushResp : exec (.flushResp port raw fill) s = .next (receiveOp 0x0B port raw fill s) := rfl
theorem exec_trigger : exec (.trigger port raw fill) s = .next (receiveOp 0x0C port raw fill s) := rfl
theorem exec_ack : exec (.ack port raw fill) s = .next (receiveOp 0x70 port raw fill s) := rfl
theorem exec_nak : exec (.nak port raw fill) s = .next (receiveOp 0x71 port raw fill s) := rfl
theorem exec_connect : exec (.connect port raw fill) s = .next (receiveOp 0x72 port raw fill s) := rfl
theorem exec_accept : exec (.accept port raw fill) s = .next (receiveOp 0x73 port raw fill s) := rfl
theorem exec_close : exec (.close port raw fill) s = .next (receiveOp 0x74 port raw fill s) := rfl
theorem exec_closeAck : exec (.closeAck port raw fill) s = .next (receiveOp 0x75 port raw fill s) := rfl

end Rows

-- Checks 1 and 2 (R346)

section Arrival

variable {op port fill : Nat} {raw : List Byte} {s : State}

/-- The device marks a packet whose CM flag is set, or that finds the ingress buffer above MARK_THRESH (R336). -/
def isMarked (port : Nat) (raw : List Byte) (fill : Nat) (s : State) : Bool :=
  bit (PktHdr.parse raw).flags flCm || decide ((heard port s).getF Reg.xfeCcMarkThresh < fill)

/-- The header of a packet is cut short, or its CRC fails (check 1). -/
abbrev HeaderBad (raw : List Byte) : Prop := raw.length < 64 ∨ fieldAt raw 0x3C 4 ≠ crc32c (raw.take 60)

theorem receive_down (hup : s.upPort port = false) : receive port raw fill s = s := by
  rw [receive, hup, Bool.not_false, Bool.or_true]
  exact if_pos rfl

/-- Checks 1 and 2, at an UP port of a running device. -/
theorem receive_up (hrun : s.running = true) (hup : s.upPort port = true) :
    receive port raw fill s =
      if HeaderBad raw then (heard port s).bump Ctr.xfeHeaderCheck
      else if !bit (PktHdr.parse raw).flags flLocal && !s.nodeValid then (heard port s).bump Ctr.xfeNotAssigned
      else if !bit (PktHdr.parse raw).flags flLocal && (PktHdr.parse raw).dst % 2 ^ 17 != s.node then (heard port s).bump Ctr.xfeMisrouted
      else fetchWaiting (receiveChecked port (PktHdr.parse raw) raw (isMarked port raw fill s) (heard port s)) := by
  rw [receive, hrun, hup]
  rfl

theorem receiveOp_down (hup : s.upPort port = false) : receiveOp op port raw fill s = s := by
  rw [receiveOp, receive_down hup]
  exact ite_self _

theorem receiveOp_headerBad (hrun : s.running = true) (hup : s.upPort port = true) (h : HeaderBad raw) :
    receiveOp op port raw fill s = (heard port s).bump Ctr.xfeHeaderCheck := by
  rw [receiveOp, receive_up hrun hup, if_pos h]
  exact if_pos (.inr (.inr h))

theorem not_headerBad (hlen : 64 ≤ raw.length) (hcrc : fieldAt raw 0x3C 4 = crc32c (raw.take 60)) : ¬ HeaderBad raw := by
  rintro (h | h)
  · exact absurd hlen (Nat.not_le.2 h)
  · exact h hcrc

/-- A packet of its row's opcode is received. -/
theorem receiveOp_own (hop : (PktHdr.parse raw).op = op) : receiveOp op port raw fill s = receive port raw fill s := if_pos (.inl hop)

/-- A packet that arrives whole goes on to check 3. -/
theorem receiveOp_arrives (ha : Arrives op port raw s) :
    receiveOp op port raw fill s =
      fetchWaiting (receiveChecked port (PktHdr.parse raw) raw (isMarked port raw fill s) (heard port s)) := by
  obtain ⟨hrun, hup, hlen, hcrc, hop, hlocal, hvalid, hdst⟩ := ha
  rw [receiveOp_own hop, receive_up hrun hup, if_neg (not_headerBad hlen hcrc), hvalid, hdst, hlocal]
  simp

end Arrival

section Checks

variable {port : Nat} {raw : List Byte} {h : PktHdr} {marked : Bool} {s : State} {c : Conn}

/-- Check 3: a listed opcode that is neither of a CONNECT, an ACCEPT nor a NAK is an established connection's, unless it is link-local. -/
theorem receiveChecked_conn (hlisted : opListed h.op = true) (h71 : h.op ≠ 0x71) (h72 : h.op ≠ 0x72) (h73 : h.op ≠ 0x73) (h78 : h.op < 0x78) :
    receiveChecked port h raw marked s = receiveConn port h raw marked s := by
  rw [receiveChecked, if_neg (by simp [hlisted]), if_neg h72, if_neg h73, if_neg h71, if_neg fun hl => absurd hl.1 (Nat.not_le.2 h78)]

theorem receiveChecked_connect (hop : h.op = 0x72) : receiveChecked port h raw marked s = portCutoff port (takeConnect port h raw s) := by
  rw [receiveChecked, hop]
  rfl

theorem receiveChecked_accept (hop : h.op = 0x73) : receiveChecked port h raw marked s = receiveAccept port h raw marked s := by
  rw [receiveChecked, hop]
  rfl

theorem receiveChecked_nak (hop : h.op = 0x71) : receiveChecked port h raw marked s = receiveNak port h raw marked s := by
  rw [receiveChecked, hop]
  rfl

/-- Check 4 finds the connection that CONN names, of the sender and in a state asked for. -/
theorem namedConn_found {ok : CState → Bool} (hc : tget s.xfe.conns (h.conn % 2 ^ 20) = some c) (hnode : c.node = h.src % 2 ^ 17)
    (hok : ok c.state = true) : namedConn s h ok = some (h.conn % 2 ^ 20, c) := by
  rw [namedConn, hc]
  exact if_pos ⟨hnode, hok⟩

theorem namedConn_in_range {ok : CState → Bool} (hc : tget s.xfe.conns h.conn = some c) (hnode : c.node = h.src) (hid : h.conn < 2 ^ 20)
    (hsrc : h.src < 2 ^ 17) (hok : ok c.state = true) : namedConn s h ok = some (h.conn, c) := by
  have hmod := Nat.mod_eq_of_lt hid
  have hfound := namedConn_found (h := h) (hmod.symm ▸ hc) (hnode.trans (Nat.mod_eq_of_lt hsrc).symm) hok
  rwa [hmod] at hfound

theorem namedConn_none {ok : CState → Bool} (hc : tget s.xfe.conns (h.conn % 2 ^ 20) = none) : namedConn s h ok = none := by
  rw [namedConn, hc]

/-- Check 7 bounds CONN and SRC (R318). -/
theorem ranges_of_fieldsOk {sealAllowed native : Bool} (hf : fieldsOk h sealAllowed native = true) : h.conn < 2 ^ 20 ∧ h.src < 2 ^ 17 := by
  simp only [fieldsOk, Bool.and_eq_true, decide_eq_true_eq] at hf
  obtain ⟨⟨⟨⟨-, -, -, hsrc, hconn, -⟩, -⟩, -⟩, -⟩ := hf
  exact ⟨hconn, hsrc⟩

@[simp] theorem noteMark_unmarked (id : Nat) (s : State) : noteMark id false s = s := by
  rw [noteMark]
  split <;> rfl

theorem tget_touchConn {id : Nat} (hc : tget s.xfe.conns id = some c) :
    tget (touchConn id s).xfe.conns id = some { c with used := s.xfe.stamp } := by
  rw [touchConn, hc]
  exact tget_tset ..

theorem cgenOf_touchConn (id i : Nat) (s : State) : (touchConn id s).cgenOf i = s.cgenOf i := by
  rw [touchConn]
  split <;> rfl

end Checks

section OnConn

variable {op port fill : Nat} {raw p : List Byte} {c₁ c : Conn} {s : State}

theorem not_marked (hfill : fill ≤ (heard port s).getF Reg.xfeCcMarkThresh) (hcm : bit (PktHdr.parse raw).flags flCm = false) :
    isMarked port raw fill s = false := by
  rw [isMarked, hcm, decide_eq_false (Nat.not_lt.2 hfill), Bool.or_self]

/-- Use leaves a connection its state, its mode and its CLOSE. -/
theorem touched_conn (ho : OnConn port raw fill c₁ s) (hc : tget (touched port raw s).xfe.conns (PktHdr.parse raw).conn = some c) :
    c = { c₁ with used := (heard port s).xfe.stamp } :=
  Option.some.inj (hc.symm.trans (tget_touchConn ho.1))

/-- Checks 4 to 6 pass (R346). -/
theorem receiveConn_onConn (ho : OnConn port raw fill c₁ s) (hc : tget (touched port raw s).xfe.conns (PktHdr.parse raw).conn = some c) :
    receiveConn port (PktHdr.parse raw) raw false (heard port s) =
      if (PktHdr.parse raw).op == 0x70 || (PktHdr.parse raw).op == 0x74 || (PktHdr.parse raw).op == 0x75
      then receiveCtl (PktHdr.parse raw).conn port c (PktHdr.parse raw) raw false (touched port raw s)
      else receiveData (PktHdr.parse raw).conn port (PktHdr.parse raw) raw (touched port raw s) := by
  have hused := touched_conn ho hc
  obtain ⟨hc₁, hnode, hst, hsp, hgen, -, -, hver, hid, hsrc⟩ := ho
  have hlive : c₁.state.live = true := by rcases hst with h | h <;> rw [h] <;> rfl
  have hversion : (PktHdr.parse raw).version = c.version := by rw [hver, hused]; rfl
  rw [receiveConn, namedConn_in_range hc₁ hnode hid hsrc hlive]
  dsimp only
  rw [hsp, if_neg Bool.false_ne_true, if_neg (not_not.2 hgen), noteMark_unmarked, hc, Option.getD_some, if_neg (not_not.2 hversion)]

/-- A packet of an opcode of established connections that passes checks 1 to 6. -/
theorem receiveOp_onConn (hlisted : opListed op = true) (h71 : op ≠ 0x71) (h72 : op ≠ 0x72) (h73 : op ≠ 0x73) (h78 : op < 0x78)
    (ha : Arrives op port raw s) (ho : OnConn port raw fill c₁ s)
    (hc : tget (touched port raw s).xfe.conns (PktHdr.parse raw).conn = some c) :
    receiveOp op port raw fill s = fetchWaiting (
      if op == 0x70 || op == 0x74 || op == 0x75
      then receiveCtl (PktHdr.parse raw).conn port c (PktHdr.parse raw) raw false (touched port raw s)
      else receiveData (PktHdr.parse raw).conn port (PktHdr.parse raw) raw (touched port raw s)) := by
  have ⟨_, _, _, _, hop, _, _, _⟩ := ha
  have ⟨_, _, _, _, _, hfill, hcm, _, _, _⟩ := ho
  subst hop
  rw [receiveOp_arrives ha, not_marked hfill hcm, receiveChecked_conn hlisted h71 h72 h73 h78, receiveConn_onConn ho hc]

end OnConn

end Sys2Proof.Machine

/-!
Data packets: one that passes every check is taken, placed and finished (10 R329, R330, R346, 11 R365).
-/
namespace Sys2Proof.Machine

open Sys2Proof

section Data

variable {op port fill : Nat} {raw p : List Byte} {c₁ c : Conn} {s u : State}

/-- Taking a PSN leaves a connection its state. -/
theorem takePsn_state (psn : Nat) (c : Conn) : (takePsn psn c).state = c.state := by
  rw [takePsn]
  split
  · rfl
  · refine List.foldlRecOn (motive := fun d : Conn => d.state = c.state) _ _ rfl fun d hd _ _ => ?_
    split
    · exact hd
    · exact hd

/-- The connection of a packet that has been taken: its tracker has the packet's bit, and its PSN counts as received (R329, R342). -/
def tookPacket (raw : List Byte) (c : Conn) : Conn :=
  let h := PktHdr.parse raw
  let t := tgetD c.trackers h.seq { pktsM1 := h.pktsM1 }
  takePsn h.psn { c with trackers := tset c.trackers h.seq { t with got := setBit t.got h.index } }

theorem tookPacket_state (raw : List Byte) (c : Conn) : (tookPacket raw c).state = c.state := takePsn_state ..

theorem tget_taken (raw : List Byte) (c : Conn) (u : State) :
    tget (taken raw c u).xfe.conns (PktHdr.parse raw).conn = some (tookPacket raw c) := by
  rw [taken]
  split <;> exact tget_tset ..

theorem cgenOf_taken (raw : List Byte) (c : Conn) (u : State) (i : Nat) : (taken raw c u).cgenOf i = u.cgenOf i := by
  rw [taken]
  split <;> rfl

/-- Checks 7 to 10 and those of the region pass, and a tracker is free: the packet is taken (R330, R346, 11 R365). -/
theorem receiveData_passes (hp : Passes raw p c u) :
    receiveData (PktHdr.parse raw).conn port (PktHdr.parse raw) raw u = placePacket port raw (taken raw c u) := by
  obtain ⟨hc, hfields, hseal, htracker, hwindow, hcrc, hopen, hfree, hregion⟩ := hp
  have htr : ((tget c.trackers (PktHdr.parse raw).seq).map fun t => t.pktsM1 == (PktHdr.parse raw).pktsM1).getD true = true := by
    cases ht : tget c.trackers (PktHdr.parse raw).seq with
    | none => rfl
    | some t => simpa [tgetD, ht] using htracker
  have hreg : (if opOnRegion (PktHdr.parse raw).op = true then regionCheck u c (PktHdr.parse raw) else none) = none := by
    split
    · exact hregion ‹_›
    · rfl
  have hroom : ¬((tget c.trackers (PktHdr.parse raw).seq).isNone = true ∧ 32768 ≤ trackersUsed u) := fun h => absurd h.2 (Nat.not_le.2 hfree)
  rw [receiveData, hc]
  simp only [hfields, hseal, htr, hwindow, hcrc, hopen, hreg, bne_self_eq_false, Bool.not_true, Bool.or_self, Bool.false_eq_true, if_false]
  rw [if_neg hroom]

/-- A packet whose window lines are ready is placed and finished (R329, 12 R398). -/
theorem placePacket_ready {v : State} (hc : tget v.xfe.conns (PktHdr.parse raw).conn = some c)
    (hgen : v.cgenOf (PktHdr.parse raw).conn = (PktHdr.parse raw).cgen) (hst : c.state = .opened ∨ c.state = .closing)
    (hready : beginAccess (.fabric port raw) (placeLines v c (PktHdr.parse raw)).1 (placeLines v c (PktHdr.parse raw)).2 v = none)
    (hopen : openPayload v c.part (PktHdr.parse raw) raw = some p) :
    placePacket port raw v = finishPacket (PktHdr.parse raw).conn port (PktHdr.parse raw)
      (applyPacket (PktHdr.parse raw).conn c port (PktHdr.parse raw) p v) := by
  have hestablished : ¬(v.cgenOf (PktHdr.parse raw).conn ≠ (PktHdr.parse raw).cgen ∨ (c.state ≠ .opened ∧ c.state ≠ .closing)) := by
    rintro (hother | ⟨ho, hcl⟩)
    · exact hother hgen
    · exact hst.elim ho hcl
  rw [placePacket]
  dsimp only
  rw [hc]
  dsimp only
  rw [if_neg hestablished, hready]
  dsimp only
  rw [hopen, Option.getD_some]

/-- A row of a data opcode: a packet that passes every check is taken, placed and finished (R346, 11 R365). -/
theorem dataRow_places {row : Nat → List Byte → Nat → Instr} (hdata : 1 ≤ op ∧ op ≤ 0x0C)
    (hrow : ∀ port raw fill s, exec (row port raw fill) s = .next (receiveOp op port raw fill s))
    (port fill : Nat) (raw p : List Byte) (c₁ c : Conn) (s : State)
    (ha : Arrives op port raw s) (ho : OnConn port raw fill c₁ s) (hp : Passes raw p c (touched port raw s))
    (hready : let v := taken raw c (touched port raw s)
      let c' := tgetD v.xfe.conns (PktHdr.parse raw).conn c
      beginAccess (.fabric port raw) (placeLines v c' (PktHdr.parse raw)).1 (placeLines v c' (PktHdr.parse raw)).2 v = none ∧
      openPayload v c'.part (PktHdr.parse raw) raw = some p) :
    let h := PktHdr.parse raw
    let v := taken raw c (touched port raw s)
    exec (row port raw fill) s =
      .next (fetchWaiting (finishPacket h.conn port h (applyPacket h.conn (tgetD v.xfe.conns h.conn c) port h p v))) := by
  have ⟨hc, _⟩ := hp
  have hlisted : opListed op = true := by simp [opListed, hdata]
  have hctl : ¬(op == 0x70 || op == 0x74 || op == 0x75) = true := by simp; omega
  have htook := tget_taken raw c (touched port raw s)
  have hnow : tgetD (taken raw c (touched port raw s)).xfe.conns (PktHdr.parse raw).conn c = tookPacket raw c := by
    rw [tgetD, htook, Option.getD_some]
  have hused := touched_conn ho hc
  obtain ⟨-, -, hst, -, hgen, -⟩ := id ho
  have hstate : (tookPacket raw c).state = .opened ∨ (tookPacket raw c).state = .closing := by
    rw [tookPacket_state, hused]
    exact hst
  have hgenNow : (taken raw c (touched port raw s)).cgenOf (PktHdr.parse raw).conn = (PktHdr.parse raw).cgen := by
    rw [cgenOf_taken, cgenOf_touchConn, hgen]
  dsimp only at hready ⊢
  rw [hnow] at hready ⊢
  rw [hrow, receiveOp_onConn hlisted (by omega) (by omega) (by omega) (by omega) ha ho hc, if_neg hctl, receiveData_passes hp,
    placePacket_ready htook hgenNow hstate hready.1 hready.2]

end Data

/-- Settles O21: the rows of the data opcodes differ in their opcode alone. -/
theorem dataPacketsPassTheChecks : Obligations.DataPacketsPassTheChecks := by
  unfold Obligations.DataPacketsPassTheChecks
  exact ⟨dataRow_places (by decide) exec_write, dataRow_places (by decide) exec_readReq, dataRow_places (by decide) exec_readResp,
    dataRow_places (by decide) exec_atomic, dataRow_places (by decide) exec_atomicResp, dataRow_places (by decide) exec_cas,
    dataRow_places (by decide) exec_casResp, dataRow_places (by decide) exec_mcastWrite, dataRow_places (by decide) exec_reduce,
    dataRow_places (by decide) exec_flush, dataRow_places (by decide) exec_flushResp, dataRow_places (by decide) exec_trigger⟩

end Sys2Proof.Machine

/-!
The packets that open and close connections or acknowledge, and those that are turned away (10 R323-R326, R331, R342, R346).
-/
namespace Sys2Proof.Machine

open Sys2Proof

-- Connection packets (R323-R326, R331)

section Connection

variable {port fill id : Nat} {raw p : List Byte} {h : PktHdr} {c₁ c : Conn} {s u : State}

theorem openPayload_plain (hs : h.isSealed = false) (n : Nat) (s : State) : openPayload s n h raw = some (pktBody h raw) := by
  rw [openPayload, hs]
  rfl

theorem openConnect_plain (hs : h.isSealed = false) : openConnect s h raw = some (pktBody h raw) := by
  rw [openConnect, hs, openPayload_plain hs]
  rfl

/-- A well-formed CONNECT of a pair without a record enters an OPEN one and is accepted (R324, R326). -/
theorem takeConnect_new {v : Nat} (hfields : fieldsOk { h with psn := 0 } true true = true) (hlen : h.len = 64) (hsealed : h.isSealed = false)
    (hcrc : crcOk h raw = true) (hp : p = pktBody h raw) (hok : connPayloadOk p = true) (hplain : s.isProtected (fieldAt p 0xF 1 / 16) = false)
    (hu : u = uidChange h.src (fieldAt p 0 8) s) (hpair : findPair u (fieldAt p 0xF 1 / 16) h.src (fieldAt p 0xF 1 % 16) = none)
    (hv : governing u (fieldAt p 0xF 1 / 16) h.src (fieldAt p 0xF 1 % 16) = some v)
    (hid : freeConnId u (fieldAt p 0xF 1 / 16) = some id) (hactive : (makeRoom u).pstate (fieldAt p 0xF 1 / 16) = psActive)
    (hroom : (makeRoom u).resident < onChip) :
    takeConnect port h raw s = sendAccept id port (putConn id
      (peerTaken (makeRoom u) (newConn (makeRoom u) (fieldAt p 0xF 1 / 16) h.src (fieldAt p 0xF 1 % 16) v .opened) p) (makeRoom u)) := by
  subst hp hu
  have hready : ¬((makeRoom (uidChange h.src (fieldAt (pktBody h raw) 0 8) s)).pstate (fieldAt (pktBody h raw) 0xF 1 / 16) ≠ psActive ∨
      onChip ≤ (makeRoom (uidChange h.src (fieldAt (pktBody h raw) 0 8) s)).resident) := by
    rintro (hstate | hfull)
    · exact hstate hactive
    · exact absurd hroom (Nat.not_lt.2 hfull)
  rw [takeConnect, hfields, hlen, hcrc, openConnect_plain hsealed]
  simp only [hok, hplain, hpair, hv, hid, Bool.not_true, Bool.false_and, Bool.or_self, ne_eq, not_true, decide_false, Bool.false_eq_true,
    if_false]
  exact if_neg hready

/-- A well-formed ACCEPT opens the connection and completes the command that waits for it (R325). -/
theorem takeAccept_opens {k : Cmd} (hfields : fieldsOk h false (h.version == 2) = true) (hplain : s.isProtected c.part = false)
    (hcrc : crcOk h raw = true) (hopen : openPayload s c.part h raw = some p) (hok : connPayloadOk p = true)
    (hver : h.version = if fieldAt p 0xE 1 = 2 then 2 else 1) (hcmd : c.cmd = some k) :
    takeAccept id port c h raw s = complete k { result0 := id } (putConn id
      (takePsn h.psn (peerTaken (uidChange h.src (fieldAt p 0 8) s) { c with cmd := none } p)) (uidChange h.src (fieldAt p 0 8) s)) := by
  rw [takeAccept]
  dsimp only
  rw [hplain, hfields, hcrc, hopen]
  dsimp only
  rw [hok, if_neg (not_not.2 hver), hcmd]
  rfl

/-- An ACCEPT for a connection that opens (R325). -/
theorem receiveAccept_opening (hc : tget s.xfe.conns h.conn = some c) (hnode : c.node = h.src) (hid : h.conn < 2 ^ 20) (hsrc : h.src < 2 ^ 17)
    (hst : c.state = .opening) (hsp : c.spilled = false) (hgen : s.cgenOf h.conn = h.cgen) :
    receiveAccept port h raw false s = portCutoff port (takeAccept h.conn port c h raw s) := by
  rw [receiveAccept, namedConn_in_range hc hnode hid hsrc (by rw [hst]; rfl)]
  dsimp only
  rw [hsp, if_neg Bool.false_ne_true, if_neg (not_not.2 hgen), noteMark_unmarked, hc, Option.getD_some, if_pos hst]

/-- A NAK for a connection that opens stands outside the checks of an established one (R346). -/
theorem receiveNak_opening {marked : Bool} (hc : tget s.xfe.conns h.conn = some c) (hnode : c.node = h.src) (hid : h.conn < 2 ^ 20)
    (hsrc : h.src < 2 ^ 17) (hst : c.state = .opening) (hsp : c.spilled = false) (hgen : s.cgenOf h.conn = h.cgen) :
    receiveNak port h raw marked s = nakOffConn port h raw s := by
  rw [receiveNak, namedConn_in_range hc hnode hid hsrc (by rw [hst]; rfl)]
  dsimp only
  rw [hsp, if_neg Bool.false_ne_true, if_neg (not_not.2 hgen), hst]
  rfl

theorem nakOffConn_intact (hfields : fieldsOk h true (h.version == 2) = true) (hsealed : h.isSealed = false) (hcrc : crcOk h raw = true) :
    nakOffConn port h raw s = takeNak port h (pktBody h raw) s := by
  rw [nakOffConn, hfields, hcrc, hsealed]
  rfl

/-- NAK REFUSED of a CONNECT frees the id (R325). -/
theorem takeNak_refused (hreason : fieldAt p 0 1 = 8) (hc : tget s.xfe.conns h.conn = some c) (hnode : c.node = h.src)
    (hgen : s.cgenOf h.conn = h.cgen) (hst : c.state = .opening) :
    takeNak port h p s = connCmd c .fabricRefused (freeConn h.conn (s.bump Ctr.xfeNaksReceived)) := by
  have hopening : c.node = h.src ∧ (s.bump Ctr.xfeNaksReceived).cgenOf h.conn = h.cgen := ⟨hnode, hgen⟩
  have hconn : tget (s.bump Ctr.xfeNaksReceived).xfe.conns h.conn = some c := hc
  rw [takeNak]
  rw [hconn]
  dsimp only
  rw [if_pos hreason, if_pos hopening]
  exact if_pos hst

end Connection

-- Control packets of an established connection

section Control

variable {port fill : Nat} {raw p : List Byte} {c₁ c : Conn} {s u : State} {marked : Bool}

theorem checkedCtl_passes (hp : CtlPasses raw p c u) :
    checkedCtl (PktHdr.parse raw).conn port c (PktHdr.parse raw) raw u = (ctlTaken raw c u, some p) := by
  obtain ⟨-, hfields, hseal, hwindow, hcrc, hopen⟩ := hp
  rw [checkedCtl]
  simp only [hfields, hseal, hwindow, hcrc, hopen, bne_self_eq_false, Bool.not_true, Bool.or_self, Bool.false_eq_true, if_false, reduceCtorEq]

/-- Check 8 of compatibility mode: a PSN outside the window draws NAK 1 (R342, R346). -/
theorem checkedCtl_outside {id : Nat} {h : PktHdr} (hfields : fieldsOk h (u.isProtected c.part) c.native = true)
    (hseal : h.isSealed = u.isProtected c.part) (hwindow : ctlWindow c h = .outside) :
    checkedCtl id port c h raw u = (rejectCtl id port c.part h raw 1 u, none) := by
  rw [checkedCtl]
  simp only [hfields, hseal, bne_self_eq_false, Bool.not_true, Bool.or_self, Bool.false_eq_true, if_false]
  exact if_pos hwindow

theorem receiveCtl_ack (hop : (PktHdr.parse raw).op = 0x70) (hp : CtlPasses raw p c u) :
    receiveCtl (PktHdr.parse raw).conn port c (PktHdr.parse raw) raw marked u =
      takeAck (PktHdr.parse raw).conn (PktHdr.parse raw) p marked (ctlTaken raw c u) := by
  rw [receiveCtl, checkedCtl_passes hp]
  exact if_pos hop

/-- CLOSE of an OPEN connection is answered, and frees the id (R325). -/
theorem receiveCtl_close {q : Nat} (hop : (PktHdr.parse raw).op = 0x74) (hst : c.state = .opened) (hp : CtlPasses raw p c u)
    (hq : answerPort (ctlTaken raw c u) port c.node = some q) :
    receiveCtl (PktHdr.parse raw).conn port c (PktHdr.parse raw) raw marked u = endConn (PktHdr.parse raw).conn
      (sendCtl q (some (PktHdr.parse raw).conn) (sealOf (ctlTaken raw c u) c.part) (connHdr (ctlTaken raw c u) c 0x75) [] (ctlTaken raw c u)) := by
  rw [receiveCtl, checkedCtl_passes hp]
  dsimp only
  rw [hop, hq, if_neg (by decide), if_pos rfl, if_pos hst]

/-- CLOSE_ACK ends a connection that has sent CLOSE (R325). -/
theorem receiveCtl_closeAck (hop : (PktHdr.parse raw).op = 0x75) (hst : c.state = .closing) (hsent : c.closeSent = true)
    (hp : CtlPasses raw p c u) :
    receiveCtl (PktHdr.parse raw).conn port c (PktHdr.parse raw) raw marked u =
      connCmd c .ok (endConn (PktHdr.parse raw).conn (ctlTaken raw c u)) := by
  rw [receiveCtl, checkedCtl_passes hp]
  dsimp only
  rw [hop, if_neg (by decide), if_neg (by decide), if_pos ⟨hst, hsent⟩]

theorem receiveCtl_outside {id : Nat} {h : PktHdr} (hfields : fieldsOk h (u.isProtected c.part) c.native = true)
    (hseal : h.isSealed = u.isProtected c.part) (hwindow : ctlWindow c h = .outside) :
    receiveCtl id port c h raw marked u = rejectCtl id port c.part h raw 1 u := by
  rw [receiveCtl, checkedCtl_outside hfields hseal hwindow]

/-- A row of a control opcode: a packet that passes checks 1 to 6 goes on to its own (R346). -/
theorem controlRow_checks {op : Nat} (hop : op = 0x70 ∨ op = 0x74 ∨ op = 0x75) (ha : Arrives op port raw s) (ho : OnConn port raw fill c₁ s)
    (hc : tget (touched port raw s).xfe.conns (PktHdr.parse raw).conn = some c) :
    receiveOp op port raw fill s =
      fetchWaiting (receiveCtl (PktHdr.parse raw).conn port c (PktHdr.parse raw) raw false (touched port raw s)) := by
  have hlisted : opListed op = true := by rcases hop with rfl | rfl | rfl <;> rfl
  have hctl : (op == 0x70 || op == 0x74 || op == 0x75) = true := by simpa [or_assoc] using hop
  rw [receiveOp_onConn hlisted (by omega) (by omega) (by omega) (by omega) ha ho hc, if_pos hctl]

end Control

/-- Settles O23: each packet is followed through the checks of R346 to the first that it fails, or to its effect. -/
theorem connectionsAndRefusals : Obligations.ConnectionsAndRefusals := by
  unfold Obligations.ConnectionsAndRefusals
  refine ⟨?connect, ?accept, ?close, ?closeAck, ?ack, ?nak, ?outside, ?header, ?misrouted, ?unassigned, ?nameless, ?stale, ?down⟩
  case connect =>
    intro port id v raw p fill s ha hfields hlen hsealed hcrc hp hok hplain ⟨hpair, hv, hid, hactive, hroom⟩
    have ⟨_, _, _, _, hop, _, _, _⟩ := ha
    dsimp only
    rw [exec_connect, receiveOp_arrives ha, receiveChecked_connect hop,
      takeConnect_new hfields hlen hsealed hcrc hp hok hplain rfl hpair hv hid hactive hroom]
  case accept =>
    intro port raw p fill c k s ha hc hnode hst hsp hgen hfill hcm hfields hplain hcrc hopen hok hver hcmd
    have ⟨_, _, _, _, hop, _, _, _⟩ := ha
    obtain ⟨hid, hsrc⟩ := ranges_of_fieldsOk hfields
    dsimp only
    rw [exec_accept, receiveOp_arrives ha, not_marked hfill hcm, receiveChecked_accept hop,
      receiveAccept_opening hc hnode hid hsrc hst hsp hgen, takeAccept_opens hfields hplain hcrc hopen hok hver hcmd]
  case close =>
    intro port q raw p fill c₁ c s ha ho hst hp hq
    have ⟨_, _, _, _, hop, _, _, _⟩ := ha
    dsimp only
    rw [exec_close, controlRow_checks (by decide) ha ho hp.1, receiveCtl_close hop hst hp hq]
  case closeAck =>
    intro port raw p fill c₁ c s ha ho hst hsent hp
    have ⟨_, _, _, _, hop, _, _, _⟩ := ha
    rw [exec_closeAck, controlRow_checks (by decide) ha ho hp.1, receiveCtl_closeAck hop hst hsent hp]
  case ack =>
    intro port raw p fill c₁ c s ha ho hp
    have ⟨_, _, _, _, hop, _, _, _⟩ := ha
    rw [exec_ack, controlRow_checks (by decide) ha ho hp.1, receiveCtl_ack hop hp]
  case nak =>
    intro port raw p fill c s ha hfields hsealed hcrc hc hnode hst hsp hgen hp hreason
    have ⟨_, _, _, _, hop, _, _, _⟩ := ha
    obtain ⟨hid, hsrc⟩ := ranges_of_fieldsOk hfields
    subst hp
    rw [exec_nak, receiveOp_arrives ha, receiveChecked_nak hop, receiveNak_opening hc hnode hid hsrc hst hsp hgen,
      nakOffConn_intact hfields hsealed hcrc, takeNak_refused hreason hc hnode hgen hst]
  case outside =>
    intro port raw fill c₁ c s ha ho hc hfields hseal hwindow
    rw [exec_ack, controlRow_checks (by decide) ha ho hc, receiveCtl_outside hfields hseal hwindow]
  case header =>
    intro port raw fill s hrun hup hbad
    rw [exec_write, exec_ack, receiveOp_headerBad hrun hup hbad, receiveOp_headerBad hrun hup hbad]
    exact ⟨rfl, rfl⟩
  case misrouted =>
    intro port raw fill s hrun hup hlen hcrc hop hlocal hvalid hdst
    rw [exec_write, receiveOp_own hop, receive_up hrun hup, if_neg (not_headerBad hlen hcrc), hlocal, hvalid, bne_iff_ne.2 hdst]
    rfl
  case unassigned =>
    intro port raw fill s hrun hup hlen hcrc hop hlocal hvalid
    rw [exec_write, receiveOp_own hop, receive_up hrun hup, if_neg (not_headerBad hlen hcrc), hlocal, hvalid]
    rfl
  case nameless =>
    intro port raw fill s ha hnone
    have ⟨_, _, _, _, hop, _, _, _⟩ := ha
    rw [exec_write, receiveOp_arrives ha, receiveChecked_conn (by rw [hop]; rfl) (by omega) (by omega) (by omega) (by omega), receiveConn,
      namedConn_none hnone]
  case stale =>
    intro port raw fill c s ha hc hnode hst hsp hgen
    have ⟨_, _, _, _, hop, _, _, _⟩ := ha
    rw [exec_write, receiveOp_arrives ha, receiveChecked_conn (by rw [hop]; rfl) (by omega) (by omega) (by omega) (by omega), receiveConn,
      namedConn_found hc hnode (by rw [hst]; rfl)]
    dsimp only
    rw [hsp, if_neg Bool.false_ne_true, if_pos hgen]
  case down =>
    intro port raw fill s hup
    rw [exec_write, exec_trigger, exec_connect, receiveOp_down hup, receiveOp_down hup, receiveOp_down hup]
    exact ⟨rfl, rfl, rfl⟩

end Sys2Proof.Machine

/-!
Regions, groups and work requests: the commands of the host (11 R356, R359, R362-R364, R370).
-/
namespace Sys2Proof.Machine

open Sys2Proof

theorem exec_regionRegister (c : Cmd) (s : State) : exec (.regionRegister c) s = .next (hostCmd 0x0503 c (regionRegister c) s) := rfl
theorem exec_regionRevoke (c : Cmd) (s : State) : exec (.regionRevoke c) s = .next (hostCmd 0x0504 c (regionRevoke c) s) := rfl
theorem exec_groupSet (c : Cmd) (s : State) : exec (.groupSet c) s = .next (hostCmd 0x0505 c (groupSet c) s) := rfl
theorem exec_wrSubmit (c : Cmd) (s : State) : exec (.wrSubmit c) s = .next (hostCmd 0x0506 c (wrSubmit c) s) := rfl
theorem exec_wrPost (c : Cmd) (s : State) : exec (.wrPost c) s = .next (hostCmd 0x0507 c (wrPost c) s) := rfl

section Commands

variable {c : Cmd} {s : State} {r : Region} {i id : Nat}

/-- The data region that a REGION_REGISTER asks for (R364). -/
abbrev askedRegion (c : Cmd) : Region :=
  { tag := 0, part := c.part, kind := 0, rights := c.arg 1 1, base := c.arg 8 8 % 2 ^ 52, tier := bits (c.arg 8 8) 52 2,
    length := c.arg 0x10 8, source := c.arg 4 4 }

/-- A well formed REGION_REGISTER of a data region within the direct window enters it at the free index (R359, R364). -/
theorem regionRegister_data (hargs : c.argsOk [(0, 3), (4, 4), (8, 8), (0x10, 8)] = true) (hlen : c.dlen = 0) (hkind : c.arg 0 1 = 0)
    (hrights : c.arg 1 1 < 32) (hetype : c.arg 2 1 = 0) (hsource : c.arg 4 4 % 2 ^ 31 < 2 ^ 17) (hbase : c.arg 8 8 < 2 ^ 54)
    (hlength : c.arg 0x10 8 < 2 ^ 47) (htier : bits (c.arg 8 8) 52 2 ≤ 1)
    (hw : s.inDirect c.part (bits (c.arg 8 8) 52 2) (c.arg 8 8 % 2 ^ 52) (c.arg 0x10 8) = true) (hfree : freeRegion s c.part = some i) :
    regionRegister c s = .done (addRegion i (askedRegion c) s).1 { result0 := (addRegion i (askedRegion c) s).2 + 2 ^ 32 } := by
  rw [regionRegister]
  simp only [hargs, hlen, hkind, hetype, decide_eq_true hrights, decide_eq_true hsource, decide_eq_true hbase, decide_eq_true hlength,
    decide_eq_true htier, hw, hfree]
  rfl

/-- The TAG that a free value gives an index, by the index's previous TAG (R364). -/
def nextTag (v : Nat) : Option Nat → Nat
  | some p => if p ≤ v % 65535 then v % 65535 + 1 else v % 65535
  | none => v % 65536

theorem nextTag_lt (v : Nat) (last : Option Nat) : nextTag v last < 65536 := by
  cases last with
  | none => exact Nat.mod_lt v (by decide)
  | some p =>
    rw [nextTag]
    split <;> omega

theorem nextTag_ne (v p : Nat) : nextTag v (some p) ≠ p := by
  rw [nextTag]
  split <;> omega

/-- A region is entered VALID with GEN 1 under a TAG other than its index's previous one (R364). -/
theorem addRegion_fresh (i : Nat) (r : Region) (s : State) :
    ∃ tag, addRegion i r s = ({ s with free := s.free + 1, xfe := { s.xfe with
        regions := tset s.xfe.regions i { r with tag := tag, gen := 1, state := .valid }, tags := tset s.xfe.tags i tag } }, i + tag * 65536) ∧
      tag < 65536 ∧ ∀ p, tget s.xfe.tags i = some p → tag ≠ p :=
  ⟨nextTag (Config.freeNat s.free) (tget s.xfe.tags i), rfl, nextTag_lt .., fun p hp => hp ▸ nextTag_ne _ p⟩

section Revoke

variable (hargs : c.argsOk [(0, 5)] = true) (hlen : c.dlen = 0) (hfree : c.arg 4 1 ≤ 1)
include hargs hlen hfree

theorem regionRevoke_own (hr : ownRegion s c.part (c.arg 0 4) = some r) :
    regionRevoke c s = .wait (revokeStep (keyIndex (c.arg 0 4)) (c.arg 4 1 == 1) false (some c) s) := by
  simp only [regionRevoke, hargs, hlen, decide_eq_true hfree, hr, decide_true, Bool.and_self, need_true]

theorem regionRevoke_none (hr : ownRegion s c.part (c.arg 0 4) = none) : regionRevoke c s = .fail .noRegion := by
  simp only [regionRevoke, hargs, hlen, decide_eq_true hfree, hr, decide_true, Bool.and_self, need_true]

end Revoke

/-- The members that a GROUP_SET brings (R356). -/
abbrev broughtMembers (c : Cmd) (s : State) : List (List Byte) := (List.range (c.arg 2 1)).map fun i => slice (c.buffer s) (16 * i) 16

theorem groupSet_members (hargs : c.argsOk [(0, 3)] = true) (hcount : c.arg 2 1 ≤ 64) (hlen : c.dlen = 16 * c.arg 2 1)
    (hrange : s.getF (Reg.mgcPbGroupBase c.part) ≤ c.arg 0 2 ∧
      c.arg 0 2 < s.getF (Reg.mgcPbGroupBase c.part) + s.getF (Reg.mgcPbGroupCount c.part))
    (hmembers : (broughtMembers c s).all memberOk = true) :
    groupSet c s = .done { s with xfe := { s.xfe with groups := tset s.xfe.groups (c.arg 0 2) (broughtMembers c s) } } {} := by
  simp only [groupSet, hargs, hlen, decide_eq_true hcount, decide_eq_true hrange, hmembers, decide_true, Bool.and_self, need_true]

section Work

variable (hlen : c.dlen = 64) (hform : wreqOk (c.buffer s) = true) (hrange : wreqRange s c.part (Wreq.parse (c.buffer s)) = true)
include hlen hform hrange

theorem wrSubmit_free (hargs : c.argsOk [] = true) (hid : freeWr s c.part = some id) :
    wrSubmit c s = .wait (startWork id (putWork id { wr := Wreq.parse (c.buffer s), part := c.part, cmd := some c } s)) := by
  simp only [wrSubmit, hargs, hlen, hform, hrange, hid, decide_true, Bool.and_self, need_true]

theorem wrSubmit_full (hargs : c.argsOk [] = true) (hid : freeWr s c.part = none) : wrSubmit c s = .fail .noWr := by
  simp only [wrSubmit, hargs, hlen, hform, hrange, hid, decide_true, Bool.and_self, need_true]

/-- A work request is posted to a trigger region of the partition (R362). -/
theorem wrPost_posts (hargs : c.argsOk [(0, 4)] = true) (hr : ownRegion s c.part (c.arg 0 4) = some r) (hkind : r.kind = 2)
    (hid : freeWr s c.part = some id) :
    wrPost c s = .done (putRegion (keyIndex (c.arg 0 4)) { r with posted := r.posted ++ [(id, Wreq.parse (c.buffer s))] } s)
      { result0 := id } := by
  simp only [wrPost, hargs, hlen, hform, hrange, hr, hkind, hid, decide_true, beq_self_eq_true, Bool.and_self, need_true]

end Work

end Commands

/-- Settles O16: each command past its checks (`regionRegister_data`, `regionRevoke_own`, `groupSet_members`, `wrSubmit_free`,
`wrPost_posts`), or at the one that it fails; the key by `addRegion_fresh`. -/
theorem regionGroupAndWorkCommands : Obligations.RegionGroupAndWorkCommands := by
  unfold Obligations.RegionGroupAndWorkCommands
  refine ⟨?register, ?enter, ?revoke, ?revokeNone, ?group, ?submit, ?submitFull, ?post⟩
  case register =>
    intro c i s hadm hargs hlen hkind hrights hetype hsource hbase hlength htier hw hfree
    dsimp only
    rw [exec_regionRegister,
      hostCmd_done hadm (regionRegister_data hargs hlen hkind hrights hetype hsource hbase hlength htier hw hfree)]
  case enter => exact addRegion_fresh
  case revoke =>
    intro c r s hadm hargs hlen hfree hr
    rw [exec_regionRevoke, hostCmd_wait hadm (regionRevoke_own hargs hlen hfree hr)]
  case revokeNone =>
    intro c s hadm hargs hlen hfree hr
    rw [exec_regionRevoke, hostCmd_fail hadm (regionRevoke_none hargs hlen hfree hr)]
  case group =>
    intro c s hadm hargs hcount hlen hrange hmembers
    rw [exec_groupSet, hostCmd_done hadm (groupSet_members hargs hcount hlen hrange hmembers)]
  case submit =>
    intro c id s hadm hargs hlen hform hrange hid
    rw [exec_wrSubmit, hostCmd_wait hadm (wrSubmit_free hlen hform hrange hargs hid)]
  case submitFull =>
    intro c s hadm hargs hlen hform hrange hid
    rw [exec_wrSubmit, hostCmd_fail hadm (wrSubmit_full hlen hform hrange hargs hid)]
  case post =>
    intro c r id s hadm hargs hlen hform hrange hr hkind hid
    rw [exec_wrPost, hostCmd_done hadm (wrPost_posts hlen hform hrange hargs hr hkind hid)]

end Sys2Proof.Machine

/-!
The revocation of a region: its step at the entry, its drain, its retirement, and the region operations of the expert window (11 R370, R371, 16 R517).
-/
namespace Sys2Proof.Machine

open Sys2Proof

theorem exec_revokeDrained (i : Nat) (s : State) : exec (.revokeDrained i) s = execRevokeDrained i s := rfl
theorem exec_regionRetireExpiry (i : Nat) (s : State) : exec (.regionRetireExpiry i) s = execRegionRetireExpiry i s := rfl
theorem exec_regionOpRevoke (via i : Nat) (s : State) :
    exec (.regionOpRevoke via i) s = .next (countIo via (regionOpRevoke 2 via i false s)) := rfl
theorem exec_revokeAndFree (via i : Nat) (s : State) :
    exec (.revokeAndFree via i) s = .next (countIo via (regionOpRevoke 3 via i true s)) := rfl
theorem exec_regionOpReadEntry (via i : Nat) (s : State) :
    exec (.regionOpReadEntry via i) s =
      .next (countIo via (regionOp 1 via i (fun _ s => showBytes Reg.xfeRegionRecData 4 (regionBytes s i) s) s)) := rfl

section Revocation

variable {i : Nat} {r : Region} {s : State} (hr : tget s.xfe.regions i = some r)
include hr

/-- The step at the entry: GEN rises, the region drains, and it is done at once with nothing in flight (R370). -/
theorem revokeStep_drains (free expert : Bool) (cmd : Option Cmd) :
    let u := (putRegion i { r with gen := (r.gen + 1) % 256, state := .draining, free := free, expert := expert, revoke := cmd } s).bump
      Ctr.xfeRevocations
    revokeStep i free expert cmd s = if r.inflight = 0 then revokeDone i u else u := by
  simp only [revokeStep, hr]

/-- A drained region for which nobody waits is VALID again, or RETIRING when it is freed or its GEN wrapped (R370, R371). -/
theorem revokeDone_unwaited (hcmd : r.revoke = none) (hexpert : r.expert = false) :
    revokeDone i s = putRegion i { r with state := if r.free || decide (r.gen = 0) then .retiring else .valid, free := false } s := by
  simp only [revokeDone, hr, hcmd, hexpert, Bool.false_eq_true, if_false]

theorem exec_revokeDrained_draining (hl : Live s) (hst : r.state = .draining) (hidle : r.inflight = 0) :
    exec (.revokeDrained i) s = .next (revokeDone i s) := by
  rw [exec_revokeDrained, execRevokeDrained, live_of_running hl, hr]
  dsimp only
  rw [if_pos ⟨hst, hidle⟩]

theorem exec_regionRetireExpiry_retiring (hl : Live s) (hst : r.state = .retiring) :
    exec (.regionRetireExpiry i) s = .next { s with xfe := { s.xfe with regions := tdel s.xfe.regions i } } := by
  rw [exec_regionRetireExpiry, execRegionRetireExpiry, live_of_running hl, hr]
  dsimp only
  rw [if_pos hst]

end Revocation

/-- A field other than the masks of a page leaves what the page's expert window reaches (R517). -/
theorem expertObject_setF {f : Fld} {slot : Nat} (h : f.key ≠ (Reg.blkExpertUnlockMaskPart slot).key) (v fn part : Nat) (s : State) :
    (s.setF f v).expertObject slot fn part = s.expertObject slot fn part := by
  rw [State.expertObject, State.getF_setF_other _ _ _ _ h, State.expertObject]

/-- The state in which an operation on a region acts: REGION_OP names it. -/
abbrev regionOpStarted (op i : Nat) (s : State) : State := (s.setF Reg.xfeRegionOpIndex i).setF Reg.xfeRegionOpOp op

section RegionOp

variable {op via i : Nat} {act : Region → State → State} {s : State}
variable (hopen : s.expertOpen pXfe via = true) (hidle : s.flag Reg.xfeRegionStatBusy = false) (hi : i < 65536)
include hopen hidle hi

theorem regionOp_taken : ¬(!s.expertOpen pXfe via || s.flag Reg.xfeRegionStatBusy || decide (65536 ≤ i)) = true := by
  simpa [hopen, hidle] using hi

theorem regionOp_free (hr : tget s.xfe.regions i = none) : regionOp op via i act s = (regionOpStarted op i s).setF Reg.xfeRegionStatStatus 1 := by
  rw [regionOp, if_neg (regionOp_taken hopen hidle hi)]
  simp only [State.setF_xfe, hr]

theorem regionOp_region {r : Region} (hr : tget s.xfe.regions i = some r) (hobj : s.expertObject pXfe via r.part = true)
    (hst : r.state ≠ .retiring) : regionOp op via i act s = act r ((regionOpStarted op i s).setF Reg.xfeRegionStatStatus 0) := by
  have hobj' : (regionOpStarted op i s).expertObject pXfe via r.part = true := by
    rw [expertObject_setF (by decide), expertObject_setF (by decide), hobj]
  rw [regionOp, if_neg (regionOp_taken hopen hidle hi)]
  simp only [State.setF_xfe, hr, hobj', hst, Bool.not_true, Bool.false_eq_true, if_false]

/-- The expert window revokes a VALID region that is not SYSTEM, and is busy until it has drained (R370, R517). -/
theorem regionOpRevoke_valid {r : Region} (free : Bool) (hr : tget s.xfe.regions i = some r) (hobj : s.expertObject pXfe via r.part = true)
    (hst : r.state = .valid) (hsys : r.system = false) :
    regionOpRevoke op via i free s =
      revokeStep i free true none (((regionOpStarted op i s).setF Reg.xfeRegionStatStatus 0).setF Reg.xfeRegionStatBusy 1) := by
  rw [regionOpRevoke, regionOp_region hopen hidle hi hr hobj (by simp [hst])]
  simp only [hsys, hst, ne_eq, not_true_eq_false, Bool.false_eq_true, if_false]

end RegionOp

/-- Settles O17: the step and the end of a revocation (`revokeStep_drains`, `revokeDone_unwaited`), and the expert operations by
`regionOp_region`. -/
theorem regionRevocation : Obligations.RegionRevocation := by
  unfold Obligations.RegionRevocation
  refine ⟨?step, ?stepAtOnce, ?drained, ?retired, ?expert, ?expertFree⟩
  case step =>
    intro i free expert cmd r s hr hbusy
    exact (revokeStep_drains hr free expert cmd).trans (if_neg hbusy)
  case stepAtOnce =>
    intro i free expert cmd r s hr hidle
    exact (revokeStep_drains hr free expert cmd).trans (if_pos hidle)
  case drained =>
    intro i r s hl hr hst hidle hcmd hexpert
    rw [exec_revokeDrained_draining hr hl hst hidle, revokeDone_unwaited hr hcmd hexpert]
  case retired =>
    intro i r s hl hr hst
    exact exec_regionRetireExpiry_retiring hr hl hst
  case expert =>
    intro via i r s hopen hidle hi hr hobj hst hsys
    refine ⟨⟨_, ?_, rfl⟩, ⟨_, ?_, rfl⟩, ⟨_, ?_, rfl⟩⟩
    · rw [exec_regionOpRevoke, regionOpRevoke_valid hopen hidle hi false hr hobj hst hsys]
    · rw [exec_revokeAndFree, regionOpRevoke_valid hopen hidle hi true hr hobj hst hsys]
    · rw [exec_regionOpReadEntry, regionOp_region hopen hidle hi hr hobj (by simp [hst])]
  case expertFree =>
    intro via i s hopen hidle hi hr
    rw [exec_regionOpReadEntry, regionOp_free hopen hidle hi hr]

end Sys2Proof.Machine

/-!
What a placed packet does to its region or its request, by opcode (11 R351-R361, 13 R431).
-/
namespace Sys2Proof.Machine

open Sys2Proof

section Store

variable {n k a : Nat} {b : List Byte} {s : State}

/-- A store into a direct range none of whose lines is poisoned holds its bytes there and leaves all else. -/
theorem directStore_stored (hs : memsOk s) (hk : k < 4) (hw : s.inDirect n k a b.length = true)
    (h0 : k = 0 → s.getF (Reg.mgcPbExtentDirect4k n 0) * 4096 ≤ 48 * gib) (hpoison : s.directPoisoned n k a b.length = []) :
    WindowStored n k a b s (directStore n k a b s) := by
  have hkeep := directStore_keep n k a b s
  obtain ⟨hread, helse, hother, hregs⟩ := directStore_spec hs n k a hk b hw h0 hpoison
  exact ⟨hread, helse, hother, hregs, hkeep.hif rfl, hkeep.ssq rfl rfl rfl rfl rfl rfl rfl rfl rfl⟩

theorem xfe_directStore (n k a : Nat) (b : List Byte) (s : State) : (directStore n k a b s).xfe = s.xfe :=
  (directStore_keep n k a b s).xfe rfl

end Store

-- The meaning of each opcode

section Apply

variable {id port : Nat} {c : Conn} {h : PktHdr} {p : List Byte} {s : State}

section OnRegion

variable {r : Region} (hr : tget s.xfe.regions (keyIndex h.rkey) = some r)
include hr

/-- A WRITE or MCAST_WRITE into a byte region stores its payload (R351, R357). -/
theorem applyPacket_write (hop : h.op = 1 ∨ h.op = 8) (hkind : r.kind = 0) :
    applyPacket id c port h p s = directStore r.part r.tier (r.base + h.addr) p s := by
  rcases hop with hop | hop <;> simp [applyPacket, hop, hr, hkind]

/-- A READ_REQ reports what it meets, and sends what it reads (R352). -/
theorem applyPacket_readReq (hop : h.op = 2) :
    let b := regionRead r h.addr (h.argAt 8 4) s
    applyPacket id c port h p s =
      sendMsg id { seq := 0, op := 3, cls := 1, arg := leBytes 4 (h.argAt 0 4), data := b.1, poison := b.2 }
        (readMeets r h.addr (h.argAt 8 4) (s.bump Ctr.xfeReadsServed)) := by
  simp [applyPacket, hop, hr]

/-- An ATOMIC adds to an element that can be read, and refuses one that cannot (R353, 13 R431). -/
theorem applyPacket_atomic (hop : h.op = 4) :
    let z := typeSize (h.argAt 0 1)
    let old := leNat (s.directRead r.part r.tier (r.base + h.addr) z)
    applyPacket id c port h p s =
      if wordBad r z s (r.base + h.addr) then wordRefused id 5 (h.argAt 8 4) r h.addr z (s.bump Ctr.xfeAtomics)
      else sendMsg id { seq := 0, op := 5, cls := 1, arg := leBytes 8 (if h.argAt 1 1 = 1 then old else 0) ++ leBytes 4 (h.argAt 8 4) }
        (directStore r.part r.tier (r.base + h.addr) (leBytes z (typeAdd (h.argAt 0 1) old (fieldAt p 0 z))) (s.bump Ctr.xfeAtomics)) := by
  simp [applyPacket, hop, hr]

/-- A CAS on an element that cannot be read is refused (13 R431). -/
theorem applyPacket_cas_refused (hop : h.op = 6) (hbad : wordBad r (h.argAt 12 1) s (r.base + h.addr) = true) :
    applyPacket id c port h p s = wordRefused id 7 (h.argAt 8 4) r h.addr (h.argAt 12 1) s := by
  simp [applyPacket, hop, hr, hbad]

/-- A CAS on an element that equals its compare value swaps it (R354). -/
theorem applyPacket_cas_swaps (hop : h.op = 6) (hgood : wordBad r (h.argAt 12 1) s (r.base + h.addr) = false) {old : Nat}
    (hold : leNat (s.directRead r.part r.tier (r.base + h.addr) (h.argAt 12 1)) = old) (heq : old = h.argAt 0 8 % 2 ^ (8 * h.argAt 12 1)) :
    applyPacket id c port h p s =
      sendMsg id { seq := 0, op := 7, cls := 1, arg := leBytes 8 old ++ leBytes 4 (h.argAt 8 4) ++ leBytes 1 1 }
        (directStore r.part r.tier (r.base + h.addr) (slice p 0 (h.argAt 12 1)) s) := by
  simp [applyPacket, hop, hr, hgood, hold, ← heq]

/-- A CAS on another element counts, and stores nothing (R354). -/
theorem applyPacket_cas_differs (hop : h.op = 6) (hgood : wordBad r (h.argAt 12 1) s (r.base + h.addr) = false) {old : Nat}
    (hold : leNat (s.directRead r.part r.tier (r.base + h.addr) (h.argAt 12 1)) = old) (hne : old ≠ h.argAt 0 8 % 2 ^ (8 * h.argAt 12 1)) :
    applyPacket id c port h p s =
      sendMsg id { seq := 0, op := 7, cls := 1, arg := leBytes 8 old ++ leBytes 4 (h.argAt 8 4) ++ leBytes 1 0 } (s.bump Ctr.xfeCasNotSwapped) := by
  simp [applyPacket, hop, hr, hgood, hold, hne]

end OnRegion

/-- A FLUSH or TRIGGER is held until its predecessors are retired (R355, R361). -/
theorem applyPacket_held {k : Conn} (hop : h.op = 10 ∨ h.op = 12) (hk : tget s.xfe.conns id = some k) :
    applyPacket id c port h p s =
      putConn id { k with held := k.held ++ [{ seq := h.seq, op := h.op, header := h.bytes, payload := p, port := port }] } s := by
  have hnot : h.op ≠ 3 := by omega
  rw [applyPacket, if_neg hnot, if_pos hop, hk]

/-- A READ_RESP without POISON within its request: a load's value goes to the request, other data to the place that the request names (R352, R373). -/
theorem applyPacket_readResp {q : Request} (hop : h.op = 3) (hq : tget s.xfe.requests (h.argAt 0 4) = some q) (hconn : q.conn = id)
    (hread : q.op = 2) (hfit : h.addr + h.len ≤ q.len) (hclean : bit h.flags flPoison = false) :
    applyPacket id c port h p s =
      if q.ofLoad then putRequest (h.argAt 0 4) { q with value := leNat (p.take q.len), poison := false } s
      else directStore c.part q.tier (q.addr + h.addr) p s := by
  rw [applyPacket, if_pos hop, hq]
  dsimp only
  rw [if_pos ⟨hconn, hread, hfit⟩, hclean]
  rfl

/-- The responses without data of their own are placed nowhere (R353-R355). -/
theorem applyPacket_response (hop : h.op = 5 ∨ h.op = 7 ∨ h.op = 11) : applyPacket id c port h p s = s := by
  cases hr : tget s.xfe.regions (keyIndex h.rkey) with
  | none => rcases hop with hop | hop | hop <;> simp [applyPacket, hop, hr]
  | some r => rcases hop with hop | hop | hop <;> simp [applyPacket, hop, hr]

end Apply

/-- Settles O22: each clause is its opcode's branch of `applyPacket`; a WRITE's bytes by `directStore_stored`. -/
theorem packetEffects : Obligations.PacketEffects := by
  unfold Obligations.PacketEffects
  refine ⟨?write, ?read, ?atomic, ?atomicBad, ?casBad, ?cas, ?held, ?resp, ?loadResp, ?nothing⟩
  case write =>
    intro id port c h p r s hs hop hr hkind htier hw h0 hpoison
    have hstored := directStore_stored hs (by omega) hw h0 hpoison
    dsimp only
    rw [applyPacket_write hr hop hkind]
    exact ⟨hstored.read, hstored.elsewhere, hstored.tier, hstored.regs, hstored.hif, hstored.ssq, xfe_directStore ..⟩
  case read =>
    intro id port c h p r s hop hr
    exact applyPacket_readReq hr hop
  case atomic =>
    intro id port c h p r s hop hr hgood
    exact (applyPacket_atomic hr hop).trans (if_neg (Bool.eq_false_iff.1 hgood))
  case atomicBad =>
    intro id port c h p r s hop hr hbad
    exact (applyPacket_atomic hr hop).trans (if_pos hbad)
  case casBad =>
    intro id port c h p r s hop hr hbad
    exact applyPacket_cas_refused hr hop hbad
  case cas =>
    intro id port c h p r s hop hr hgood z old
    split
    case isTrue heq => exact applyPacket_cas_swaps hr hop hgood rfl heq
    case isFalse hne => exact applyPacket_cas_differs hr hop hgood rfl hne
  case held =>
    intro id port c k h p s hop hk
    exact applyPacket_held hop hk
  case resp =>
    intro id port c h p q s hop hq hconn hread hload hfit hclean
    rw [applyPacket_readResp hop hq hconn hread hfit hclean, hload, if_neg Bool.false_ne_true]
  case loadResp =>
    intro id port c h p q s hop hq hconn hread hload hfit hclean
    rw [applyPacket_readResp hop hq hconn hread hfit hclean, hload, if_pos rfl]
  case nothing =>
    intro id port c h p s hop
    exact applyPacket_response hop

end Sys2Proof.Machine

/-!
Command queues: what a completion and an event leave of them (12 R386, R389, R391, 14 R456).
-/
namespace Sys2Proof.Machine

open Sys2Proof

section Signal

variable (s : State)

/-- A vector's message or its pending bit touches nothing of the queues (12 R391). -/
theorem hif_signal (fn v : Nat) : ∃ msix, (s.signal fn v).hif = { s.hif with msix := msix } := by
  unfold State.signal
  dsimp only
  split
  · exact ⟨_, rfl⟩
  · exact ⟨_, rfl⟩

theorem hif_hostRing (r : EvRec) : ∃ msix, (hostRing r s).hif = { s.hif with msix := msix } := by
  unfold hostRing
  dsimp only
  split
  · exact ⟨_, rfl⟩
  · split
    · exact ⟨_, rfl⟩
    · exact hif_signal _ _ _

theorem hif_logFull (e : Ev) (slot inst part sev cseq : Nat) (detail : List Nat) :
    ∃ msix, (logFull e slot inst part sev cseq detail s).hif = { s.hif with msix := msix } := by
  unfold logFull
  extract_lets r frc s₁ s₂ s₃
  have htrace : s₃.hif = s.hif := by
    unfold s₃
    split
    · exact (traceRecord_keep _ _).hif rfl
    · rfl
  split
  · exact ⟨_, htrace⟩
  · obtain ⟨msix, h⟩ := hif_hostRing s₃ r
    exact ⟨msix, by rw [h, htrace]⟩

end Signal

/-- What a CQ was created with (12 R384). -/
def Cq.shape (q : Cq) : Nat × Nat × Nat × Nat × Nat := (q.size, q.base, q.vector, q.thresh, q.delayUs)

/-- `b` holds the queues of `a`: the same SQs, CQs created alike, the same pairs in ERROR, the functions presented alike, and no command in
flight that was not in flight before. -/
structure SameQueues (a b : Hif) : Prop where
  sqs : b.sqs = a.sqs
  cqs : ∀ k, (tget b.cqs k).map Cq.shape = (tget a.cqs k).map Cq.shape
  qErr : b.qErr = a.qErr
  presented : b.presented = a.presented
  inflight : ∀ i ∈ b.inflight, i ∈ a.inflight

namespace SameQueues

variable {a b c : Hif}

theorem refl (a : Hif) : SameQueues a a := ⟨rfl, fun _ => rfl, rfl, rfl, fun _ => id⟩

theorem of_eq (h : b = a) : SameQueues a b := h ▸ refl a

theorem of_msix (h : ∃ msix, b = { a with msix := msix }) : SameQueues a b := by
  obtain ⟨msix, rfl⟩ := h
  exact ⟨rfl, fun _ => rfl, rfl, rfl, fun _ => id⟩

theorem trans (h : SameQueues a b) (g : SameQueues b c) : SameQueues a c :=
  ⟨g.sqs.trans h.sqs, fun k => (g.cqs k).trans (h.cqs k), g.qErr.trans h.qErr, g.presented.trans h.presented,
    fun i hi => h.inflight i (g.inflight i hi)⟩

theorem isSome_cq (h : SameQueues a b) (k : Nat) : (tget b.cqs k).isSome = (tget a.cqs k).isSome := by
  simpa using congrArg Option.isSome (h.cqs k)

theorem no_cq (h : SameQueues a b) {k : Nat} (hk : tget a.cqs k = none) : tget b.cqs k = none := by
  simpa [hk] using h.cqs k

theorem cq_shape (h : SameQueues a b) {k : Nat} {q : Cq} (hk : tget a.cqs k = some q) : ∃ r, tget b.cqs k = some r ∧ r.shape = q.shape := by
  simpa [hk] using h.cqs k

end SameQueues

/-- A CQ written again with the shape that it had. -/
theorem sameQueues_putCq {a : Hif} {k : Nat} {q r : Cq} (hq : tget a.cqs k = some q) (hr : r.shape = q.shape) :
    SameQueues a { a with cqs := tset a.cqs k r } := by
  refine ⟨rfl, fun j => ?_, rfl, rfl, fun _ => id⟩
  by_cases hj : j = k
  · subst hj
    simp [tget_tset, hq, hr]
  · rw [tget_tset_ne _ _ hj]

theorem sameQueues_postCq (fn cq : Nat) (e : Completion) (s : State) : SameQueues s.hif (postCq fn cq e s).hif := by
  unfold postCq
  split
  · exact .refl s.hif
  · rename_i q hq
    split
    · exact .refl s.hif
    · extract_lets e wrap fire r t u
      have hput : SameQueues s.hif u.hif := sameQueues_putCq hq rfl
      split
      · exact hput.trans (.of_msix (hif_signal ..))
      · exact hput

theorem mem_of_mem_dropInflight {i j : Inflight} {l : List Inflight} (h : j ∈ dropInflight i l) : j ∈ l := by
  induction l with
  | nil => exact h
  | cons k l ih =>
    rw [dropInflight] at h
    split at h
    · exact List.mem_cons_of_mem _ h
    · exact (List.mem_cons.1 h).elim (fun e => e ▸ List.mem_cons_self) fun e => List.mem_cons_of_mem _ (ih e)

theorem hif_writeBuffer (c : Cmd) (off : Nat) (b : List Byte) (s : State) : (writeBuffer c off b s).hif = s.hif := by
  unfold writeBuffer
  split
  · rfl
  · split
    · exact (directWrite1_keep ..).hif rfl
    · rfl

/-- A command's completion removes its record and writes at most its entry (12 R386, R393). -/
theorem sameQueues_completeNow (c : Cmd) (r : Reply) (s : State) : SameQueues s.hif (completeNow c r s).hif := by
  unfold completeNow
  extract_lets e put
  have hput : ∀ u, (put u).hif = u.hif := fun u => by
    unfold put
    split
    · exact hif_writeBuffer ..
    · rfl
  split
  · exact .of_eq (hput s)
  · split
    · exact .of_eq (hput s)
    · rename_i i _
      extract_lets t
      have hdrop : SameQueues s.hif t.hif := ⟨rfl, fun _ => rfl, rfl, rfl, fun _ => mem_of_mem_dropInflight⟩
      split
      · exact (hput t ▸ hdrop).trans (sameQueues_postCq ..)
      · split
        · exact hdrop.trans (.of_eq (hput t))
        · exact hdrop

theorem sameQueues_completeOne (c : Cmd) (r : Reply) (s : State) : SameQueues s.hif (completeOne c r s).hif := by
  unfold completeOne
  cases h : replyWaits c r s with
  | none => exact sameQueues_completeNow c r s
  | some t => exact .of_eq ((replyWaits_keep h).hif rfl)

theorem sameQueues_settleDrain (n : Nat) (s : State) : SameQueues s.hif (settleDrain n s).hif := by
  unfold settleDrain
  split
  · exact .refl _
  · split
    · exact sameQueues_completeOne _ _ { s with mgc := { s.mgc with drains := tdel s.mgc.drains n } }
    · exact .refl _

theorem sameQueues_complete (c : Cmd) (r : Reply) (s : State) : SameQueues s.hif (complete c r s).hif :=
  (sameQueues_completeOne c r s).trans (sameQueues_settleDrain ..)

end Sys2Proof.Machine

/-!
QUEUE_CREATE, QUEUE_DELETE and AQ_CTRL (12 R383, R384, R393).
-/
namespace Sys2Proof.Machine

open Sys2Proof

theorem exec_queueCreate (c : Cmd) (s : State) : exec (.queueCreate c) s = .next (hostCmd 1 c (queueCreate c) s) := rfl
theorem exec_queueDelete (c : Cmd) (s : State) : exec (.queueDelete c) s = .next (hostCmd 2 c (queueDelete c) s) := rfl

section Commands

variable {c : Cmd} {s : State}

/-- The state with the SQ that a QUEUE_CREATE asks for (R384). -/
abbrev sqCreated (c : Cmd) (s : State) : State :=
  { s with hif := { s.hif with sqs := tset s.hif.sqs (qKey c.fn (c.arg 1 1)) { size := c.arg 2 2, base := c.arg 0x10 8, cqid := c.arg 4 1 } } }

/-- The CQ that a QUEUE_CREATE asks for. -/
abbrev askedCq (c : Cmd) : Cq :=
  { size := c.arg 2 2, base := c.arg 0x10 8, vector := c.arg 5 1, thresh := c.arg 6 1, delayUs := c.arg 8 2 }

abbrev cqCreated (c : Cmd) (s : State) : State :=
  { s with hif := { s.hif with cqs := tset s.hif.cqs (qKey c.fn (c.arg 1 1)) (askedCq c) } }

/-- The state without the SQ that a QUEUE_DELETE names, its pair out of ERROR (R384, R388). -/
abbrev sqDeleted (c : Cmd) (s : State) : State :=
  { s with hif := { s.hif with
      sqs := tdel s.hif.sqs (qKey c.fn (c.arg 1 1)), qErr := s.hif.qErr.filter (· != qKey c.fn (c.arg 1 1)) } }

/-- The state without the CQ that a QUEUE_DELETE names: commands in flight into it lose their entry (R393). -/
abbrev cqDeleted (c : Cmd) (s : State) : State :=
  { s with hif := { s.hif with
      cqs := tdel s.hif.cqs (qKey c.fn (c.arg 1 1)), qErr := s.hif.qErr.filter (· != qKey c.fn (c.arg 1 1)),
      inflight := s.hif.inflight.map fun (i : Inflight) => if i.fn = c.fn ∧ i.cq = c.arg 1 1 then { i with live := false } else i } }

theorem queueCreate_sq (hadmin : onAdmin c = true) (hargs : queueArgsOk c true = true) (hkind : c.arg 0 1 = 0)
    (hsize : 2 ≤ c.arg 2 2 ∧ c.arg 2 2 ≤ 4096) (hbase : c.arg 0x10 8 % 4096 = 0) (hfree : tget s.hif.sqs (qKey c.fn (c.arg 1 1)) = none)
    (hcq : (tget s.hif.cqs (qKey c.fn (c.arg 4 1))).isSome = true ∧ c.arg 4 1 < queuesOf c.fn) :
    queueCreate c s = .done (sqCreated c s) {} := by
  simp [queueCreate, hadmin, hargs, hkind, hsize, hbase, hfree, hcq]

theorem queueCreate_cq (hadmin : onAdmin c = true) (hargs : queueArgsOk c true = true) (hkind : c.arg 0 1 = 1)
    (hsize : 2 ≤ c.arg 2 2 ∧ c.arg 2 2 ≤ 4096) (hbase : c.arg 0x10 8 % 4096 = 0) (hfree : tget s.hif.cqs (qKey c.fn (c.arg 1 1)) = none)
    (hvec : c.arg 5 1 < vectorsOf c.fn) : queueCreate c s = .done (cqCreated c s) {} := by
  simp [queueCreate, hadmin, hargs, hkind, hsize, hbase, hfree, hvec]

theorem queueDelete_sq (hadmin : onAdmin c = true) (hargs : queueArgsOk c false = true) (hkind : c.arg 0 1 = 0)
    (hsq : (tget s.hif.sqs (qKey c.fn (c.arg 1 1))).isSome = true) : queueDelete c s = .done (sqDeleted c s) {} := by
  simp [queueDelete, hadmin, hargs, hkind, hsq, clearErr]

theorem queueDelete_cq (hadmin : onAdmin c = true) (hargs : queueArgsOk c false = true) (hkind : c.arg 0 1 = 1)
    (hcq : (tget s.hif.cqs (qKey c.fn (c.arg 1 1))).isSome = true) (hnamed : cqNamed s c.fn (c.arg 1 1) = false) :
    queueDelete c s = .done (cqDeleted c s) {} := by
  simp [queueDelete, hadmin, hargs, hkind, hcq, hnamed, clearErr]

/-- A CQ that an SQ names is not deleted (R384). -/
theorem queueDelete_named (hadmin : onAdmin c = true) (hargs : queueArgsOk c false = true) (hkind : c.arg 0 1 = 1)
    (hnamed : cqNamed s c.fn (c.arg 1 1) = true) : queueDelete c s = .fail .queueInvalid := by
  simp [queueDelete, hadmin, hargs, hkind, hnamed]

end Commands

-- AQ_CTRL (R383)

section AqCtrl

variable {via fn sq cq : Nat} {s : State}

theorem exec_aqCtrlWrite (via fn sq cq en : Nat) (s : State) :
    exec (.aqCtrlWrite via fn sq cq en) s = .next (countIo via (powered (aqCtrlWrite via fn sq cq en) s)) := rfl

/-- A function that answers has power. -/
theorem off_of_fnLive (h : s.fnLive fn = true) : s.mgc.off = false := by
  simp only [State.fnLive, Bool.and_eq_true, Bool.not_eq_true'] at h
  exact h.1.1

/-- The sizes and EN as a write of EN = 1 sets them. -/
abbrev aqEnabled (fn sq cq : Nat) (s : State) : State := ((s.setF (aqSqSize fn) sq).setF (aqCqSize fn) cq).setF (aqEn fn) 1

/-- The state with a function's admin pair, with vector 1, at the registered bases (R383). -/
abbrev adminPair (fn sq cq : Nat) (s : State) : State :=
  let s' := aqEnabled fn sq cq s
  { s' with hif := { s.hif with
      sqs := tset s.hif.sqs (qKey fn 0) { size := sq, base := s'.getF (aqSqBase fn) * 4096, cqid := 0 }
      cqs := tset s.hif.cqs (qKey fn 0) { size := cq, base := s'.getF (aqCqBase fn) * 4096, vector := 1 } } }

theorem aqCtrlWrite_enables (hl : s.fnLive fn = true) (hen : s.flag (aqEn fn) = false) (hsq : 2 ≤ sq ∧ sq ≤ 4096) (hcq : 2 ≤ cq ∧ cq ≤ 4096) :
    aqCtrlWrite fn fn sq cq 1 s = adminPair fn sq cq s := by
  have hsizes : 2 ≤ sq ∧ sq ≤ 4096 ∧ 2 ≤ cq ∧ cq ≤ 4096 := ⟨hsq.1, hsq.2, hcq⟩
  simp [aqCtrlWrite, hl, hen, hsizes]

theorem aqCtrlWrite_enabled (hen : s.flag (aqEn fn) = true) : aqCtrlWrite fn fn sq cq 1 s = s := by
  simp [aqCtrlWrite, hen]

/-- EN = 1 through another function, of one that does not answer, or with a size that is not valid. -/
theorem aqCtrlWrite_refused (h : via ≠ fn ∨ s.fnLive fn = false ∨ sq < 2 ∨ 4096 < sq ∨ cq < 2 ∨ 4096 < cq) : aqCtrlWrite via fn sq cq 1 s = s := by
  by_cases hsender : via ≠ fn ∨ s.fnLive fn = false
  · exact if_pos (hsender.imp_right .inl)
  · have hsizes : ¬(2 ≤ sq ∧ sq ≤ 4096 ∧ 2 ≤ cq ∧ cq ≤ 4096) := by
      rw [← or_assoc] at h
      have := h.resolve_left hsender
      omega
    simp [aqCtrlWrite, hsizes]

/-- The sizes as a write of EN = 0 sets them: each that is valid. -/
def aqSizes (fn sq cq : Nat) (s : State) : State :=
  let t := if 2 ≤ sq ∧ sq ≤ 4096 then s.setF (aqSqSize fn) sq else s
  if 2 ≤ cq ∧ cq ≤ 4096 then t.setF (aqCqSize fn) cq else t

theorem aqSizes_of_invalid (hsq : sq < 2) (hcq : cq < 2) : aqSizes fn sq cq s = s := by
  simp [aqSizes, Nat.not_le.2 hsq, Nat.not_le.2 hcq]

theorem aqSizes_wf (h : Table.wf s.regs = true) : Table.wf (aqSizes fn sq cq s).regs = true := by
  have ht : Table.wf (if 2 ≤ sq ∧ sq ≤ 4096 then s.setF (aqSqSize fn) sq else s).regs = true := by
    split
    · exact s.setF_wf _ _ h
    · exact h
  unfold aqSizes
  dsimp only
  split
  · exact State.setF_wf _ _ _ ht
  · exact ht

theorem aqCtrlWrite_disables (hl : s.fnLive fn = true) : aqCtrlWrite fn fn sq cq 0 s = loseQueues fn (aqSizes fn sq cq s) := by
  simp [aqCtrlWrite, hl, aqSizes]

end AqCtrl

/-- Settles O2: the bodies of the commands, and the three cases of the register. -/
theorem queuesComeAndGo : Obligations.QueuesComeAndGo := by
  unfold Obligations.QueuesComeAndGo
  refine ⟨?createSq, ?createCq, ?deleteSq, ?deleteCq, ?named, ?enable, ?disable, ?refused⟩
  case createSq =>
    intro c s ha hadmin hargs hkind hsize hbase hfree hcq
    rw [exec_queueCreate, hostCmd_done ha (queueCreate_sq hadmin hargs hkind hsize hbase hfree hcq)]
  case createCq =>
    intro c s ha hadmin hargs hkind hsize hbase hfree hvec
    rw [exec_queueCreate, hostCmd_done ha (queueCreate_cq hadmin hargs hkind hsize hbase hfree hvec.2)]
  case deleteSq =>
    intro c s ha hadmin hargs hkind hsq
    rw [exec_queueDelete, hostCmd_done ha (queueDelete_sq hadmin hargs hkind hsq)]
  case deleteCq =>
    intro c s ha hadmin hargs hkind hcq hnamed
    rw [exec_queueDelete, hostCmd_done ha (queueDelete_cq hadmin hargs hkind hcq hnamed)]
  case named =>
    intro c s ha hadmin hargs hkind hnamed
    rw [exec_queueDelete, hostCmd_fail ha (queueDelete_named hadmin hargs hkind hnamed)]
  case enable =>
    intro fn sq cq s hl hen hsq hcq
    rw [exec_aqCtrlWrite, powered_of_on (off_of_fnLive hl), aqCtrlWrite_enables hl hen hsq hcq]
  case disable =>
    intro fn sq cq s hl ⟨hsq, hcq⟩
    rw [exec_aqCtrlWrite, powered_of_on (off_of_fnLive hl), aqCtrlWrite_disables hl, aqSizes_of_invalid hsq hcq]
    rfl
  case refused =>
    intro via fn sq cq s h
    rw [exec_aqCtrlWrite, powered_of_eq (aqCtrlWrite_refused h)]

end Sys2Proof.Machine

/-!
What stands once a queue command, AQ_CTRL or a partition's wipe has completed (12 R383, R384, R393, 13 R415, R445).
-/
namespace Sys2Proof.Machine

open Sys2Proof

-- The queues of a function that has lost them

section LoseQueues

variable (fn : Nat) (s : State)

theorem loseQueues_none {q : Nat} (hq : q < 64) :
    tget (loseQueues fn s).hif.sqs (qKey fn q) = none ∧ tget (loseQueues fn s).hif.cqs (qKey fn q) = none := by
  have hkey : (qKey fn q / 64 != fn) = false := by
    rw [bne_eq_false_iff_eq, qKey]
    omega
  exact ⟨(tget_filter_key (· / 64 != fn) _ _).trans (by simp [hkey]), (tget_filter_key (· / 64 != fn) _ _).trans (by simp [hkey])⟩

/-- Commands of the function in flight run on without an entry (R393). -/
theorem loseQueues_inflight {i : Inflight} (hi : i ∈ (loseQueues fn s).hif.inflight) (hfn : i.fn = fn) : i.live = false := by
  obtain ⟨j, -, rfl⟩ := List.mem_map.1 (show i ∈ s.hif.inflight.map fun j => if j.fn = fn then { j with live := false } else j from hi)
  split
  · rfl
  · rename_i hne
    rw [if_neg hne] at hfn
    exact absurd hfn hne

end LoseQueues

theorem aqEn_width (fn : Nat) : (aqEn fn).width = 1 := by
  unfold aqEn
  split <;> rfl

/-- A flag of one bit reads back what was written. -/
theorem flag_setF_self {s : State} {f : Fld} (hw : Table.wf s.regs = true) (hf : f.width = 1) (v : Nat) : (s.setF f v).flag f = (v % 2 == 1) := by
  rw [State.flag, State.getF_setF_self s f v hw, hf, pow_one]

/-- A field reads back a value other than its reset value, which is always listed. -/
theorem getF_setF_listed {f : Fld} {v : Nat} (hv : v < 2 ^ f.width) (hne : v ≠ f.rst) (s : State) : (s.setF f v).getF f = v := by
  rw [State.setF, Nat.mod_eq_of_lt hv, if_neg hne, State.getF, tget_tset]
  rfl

theorem not_mem_filter_bne (k : Nat) (l : List Nat) : k ∉ l.filter (· != k) := by
  simp

-- PARTITION_WIPE and its end (13 R415, R445)

section Wipe

variable {c : Cmd} {n : Nat} {s : State}

theorem exec_partitionWipe (c : Cmd) (s : State) : exec (.partitionWipe c) s = .next (hostCmd 0x0706 c (partitionWipe c) s) := rfl
theorem exec_partitionWipeDone (n : Nat) (s : State) : exec (.partitionWipeDone n) s = .next (live (partitionWipeDone n) s) := rfl

/-- A state written to CTRL.STATE is the partition's, whatever the event of its change does. -/
theorem pstate_setPstate {st : Nat} (hst : 0 < st ∧ st < 2 ^ 3) (hn : n < 16) (s : State) : (setPstate n st s).pstate n = st := by
  have hring : ringHead n = Reg.frcPbEvringHead n ∧ ringDropped n = Reg.frcPbDropped n := ⟨if_pos hn, if_pos hn⟩
  have hset : (s.setF (Reg.mgcPbCtrlState n) st).getF (Reg.mgcPbCtrlState n) = st := getF_setF_listed (f := Reg.mgcPbCtrlState n) hst.2 hst.1.ne' s
  refine (getF_logFull (part := n) ?_ ?_ ?_ _).trans hset
  · rw [hring.1]; simp only [Fld.key, Reg.frcPbEvringHead, Reg.mgcPbCtrlState]; omega
  · rw [hring.2]; simp only [Fld.key, Reg.frcPbDropped, Reg.mgcPbCtrlState]; omega
  · simp only [Fld.key, Reg.blkEvPendPend, Reg.mgcPbCtrlState, pMgc]; omega

/-- The state in which a wipe removes the partition's objects, from the one its turns and its drain have left (R415, R445). -/
def wipeEntered (n : Nat) (c : Cmd) (s : State) : State :=
  let s := settleDrain n (endTurns ((s.ssq.turns.filter (·.part == n)).map (·.session)) .partitionDrain s)
  let s := match tget s.mgc.drains n with
    | some d => completeOne d { status := .partitionState } { s with mgc := { s.mgc with drains := tdel s.mgc.drains n } }
    | none => s
  let s := setPstate n psWiping s
  let s := ({ s with sec := { s.sec with exchanges := tdel s.sec.exchanges n } }).setF (Reg.secPbKeysExchange n) 0
  { s with mgc := { s.mgc with wipes := tset s.mgc.wipes n c } }

theorem partitionWipe_of_state (hargs : c.argsOk [(0, 1)] = true) (hlen : c.dlen = 0) (hn : c.arg 0 1 < 16)
    (hstate : s.pstate (c.arg 0 1) = psLocked ∨ s.pstate (c.arg 0 1) = psDraining ∨ s.pstate (c.arg 0 1) = psReplay) :
    partitionWipe c s = .wait (wipeObjects (c.arg 0 1) (wipeEntered (c.arg 0 1) c s)) := by
  have hfrom : [psLocked, psDraining, psReplay].contains (s.pstate (c.arg 0 1)) = true := by
    rcases hstate with h | h | h <;> rw [h] <;> rfl
  simp only [partitionWipe, onPartition, hargs, hlen, hn, hfrom, decide_true, Bool.and_true, need_true]
  rfl

theorem partitionWipe_other_state (hargs : c.argsOk [(0, 1)] = true) (hlen : c.dlen = 0) (hn : c.arg 0 1 < 16)
    (hstate : [psLocked, psDraining, psReplay].contains (s.pstate (c.arg 0 1)) = false) : partitionWipe c s = .fail .partitionState := by
  simp only [partitionWipe, onPartition, hargs, hlen, hn, hstate, decide_true, Bool.and_true, need_true, need_false]

theorem pstate_wipeEntered (hn : n < 16) (c : Cmd) (s : State) : (wipeEntered n c s).pstate n = psWiping := by
  refine (State.getF_setF_other _ (Reg.secPbKeysExchange n) (Reg.mgcPbCtrlState n) 0 ?_).trans (pstate_setPstate (by decide) hn _)
  simp only [Fld.key, Reg.secPbKeysExchange, Reg.mgcPbCtrlState]
  omega

theorem wipes_wipeEntered (n : Nat) (c : Cmd) (s : State) : tget (wipeEntered n c s).mgc.wipes n = some c := tget_tset ..

/-- Clearing a partition's banks and masks leaves the queues (R415). -/
theorem sameQueues_clearPartition (n : Nat) (s : State) : SameQueues s.hif (clearPartition n s).hif := by
  unfold clearPartition
  refine List.foldlRecOn (motive := fun (t : State) => SameQueues s.hif t.hif) _ _ (.refl _) fun t ht p _ => ?_
  dsimp only
  split
  · exact ht.trans (.of_msix (hif_logFull _ _ _ _ _ _ _ _))
  · exact ht

/-- The state with the arrays of a partition given up, its function's queues gone and its presentation ended, as the wipe's end does it (log 42). -/
def functionGone (n : Nat) (s : State) : State :=
  let s := (List.range 80).foldl (fun s i =>
    if ownsArray s n i then (s.setF (Reg.mxgArrayPartition (i / 20) (i % 20)) 0).setF (Reg.mxgArrayOwned (i / 20) (i % 20)) 0 else s) s
  let s := loseQueues (n + 1) s
  { s with hif := { s.hif with presented := s.hif.presented.filter fun p => p.2 != n + 1 },
           frc := { s.frc with rings := tdel s.frc.rings (n + 1) } }

/-- The end of the PARTITION_WIPE that waits for the wipe of its partition. -/
def wipeAnswered (n : Nat) (s : State) : State :=
  match tget s.mgc.wipes n with
  | some c => complete c {} { s with mgc := { s.mgc with wipes := tdel s.mgc.wipes n } }
  | none => s

theorem sameQueues_wipeAnswered (n : Nat) (s : State) : SameQueues s.hif (wipeAnswered n s).hif := by
  unfold wipeAnswered
  split
  · exact sameQueues_complete _ {} { s with mgc := { s.mgc with wipes := tdel s.mgc.wipes n } }
  · exact .refl _

theorem functionGone_queues (n : Nat) (s : State) : ∃ u, (functionGone n s).hif =
    { (loseQueues (n + 1) u).hif with presented := (loseQueues (n + 1) u).hif.presented.filter fun p => p.2 != n + 1 } := ⟨_, rfl⟩

theorem partitionWipeDone_of_wiping (hn : n < 16) (hstate : s.pstate n = psWiping)
    (hext : ((List.range 64).any fun e => s.getF (Reg.cwpExtentPartition e) == n && s.extState e != extFree) = false)
    (hreg : (s.xfe.regions.any fun r => r.2.part == n && r.2.state == .draining) = false) :
    partitionWipeDone n s = wipeAnswered n (clearPartition n (setPstate n psUnconfigured
      ((functionGone n (wipeFabric n (wipeMemory n s))).bump Ctr.secPartitionWipes))) := by
  have hstart : ¬(n ≥ 16 ∨ s.pstate n ≠ psWiping) := by
    rintro (h | h)
    · omega
    · exact h hstate
  rw [partitionWipeDone, if_neg hstart, hext, hreg]
  rfl

/-- What the end of a wipe leaves of the queues is what the end of the function leaves. -/
theorem sameQueues_wipeEnd (n : Nat) (s : State) :
    SameQueues (functionGone n s).hif (wipeAnswered n (clearPartition n (setPstate n psUnconfigured ((functionGone n s).bump Ctr.secPartitionWipes)))).hif :=
  have hevent : SameQueues (functionGone n s).hif (setPstate n psUnconfigured ((functionGone n s).bump Ctr.secPartitionWipes)).hif :=
    .of_msix (hif_logFull ..)
  (hevent.trans (sameQueues_clearPartition ..)).trans (sameQueues_wipeAnswered ..)

end Wipe

/-- Settles O60: what a completion leaves of the queues (`sameQueues_complete`), what the loss of a function's queues leaves, and what a wipe
enters and ends with. -/
theorem queuesAndWipesComplete : Obligations.QueuesAndWipesComplete := by
  unfold Obligations.QueuesAndWipesComplete
  refine ⟨?createSq, ?createCq, ?deleteSq, ?deleteCq, ?enable, ?enabled, ?disable, ?wipe, ?noWipe, ?wipeDone⟩
  case createSq =>
    intro c s ha hadmin hargs hkind hsize hbase hfree hcq
    have hq := sameQueues_complete c {} (sqCreated c s)
    have hkeep := complete_keep c {} (sqCreated c s)
    refine ⟨_, by rw [exec_queueCreate, hostCmd_done ha (queueCreate_sq hadmin hargs hkind hsize hbase hfree hcq)], ?_, fun k hk => ?_, hkeep.regs rfl,
      hkeep.ssq rfl rfl rfl rfl rfl rfl rfl rfl rfl, hkeep.tmg rfl, hkeep.pme rfl, hkeep.xfe rfl, hkeep.sec rfl rfl⟩
    · rw [hq.sqs]
      exact tget_tset ..
    · rw [hq.sqs]
      exact tget_tset_ne _ _ hk
  case createCq =>
    intro c s ha hadmin hargs hkind hsize hbase hfree hvec
    have hq := sameQueues_complete c {} (cqCreated c s)
    have hkeep := complete_keep c {} (cqCreated c s)
    obtain ⟨q, hcq, hshape⟩ := hq.cq_shape (tget_tset _ _ (askedCq c))
    simp only [Cq.shape, Prod.mk.injEq] at hshape
    obtain ⟨hsz, hbs, hv, hthresh, hdelay⟩ := hshape
    exact ⟨_, q, by rw [exec_queueCreate, hostCmd_done ha (queueCreate_cq hadmin hargs hkind hsize hbase hfree hvec.2)], hcq, hsz, hbs, hv, hthresh,
      hdelay, hq.sqs, hkeep.regs rfl, hkeep.ssq rfl rfl rfl rfl rfl rfl rfl rfl rfl, hkeep.tmg rfl, hkeep.pme rfl, hkeep.xfe rfl, hkeep.sec rfl rfl⟩
  case deleteSq =>
    intro c s ha hadmin hargs hkind hsq
    have hq := sameQueues_complete c {} (sqDeleted c s)
    have hkeep := complete_keep c {} (sqDeleted c s)
    exact ⟨_, by rw [exec_queueDelete, hostCmd_done ha (queueDelete_sq hadmin hargs hkind hsq)], hq.sqs, hq.qErr ▸ not_mem_filter_bne _ _,
      hkeep.regs rfl, hkeep.ssq rfl rfl rfl rfl rfl rfl rfl rfl rfl, hkeep.tmg rfl, hkeep.xfe rfl⟩
  case deleteCq =>
    intro c s ha hadmin hargs hkind hcq hnamed
    have hq := sameQueues_complete c {} (cqDeleted c s)
    have hkeep := complete_keep c {} (cqDeleted c s)
    refine ⟨_, by rw [exec_queueDelete, hostCmd_done ha (queueDelete_cq hadmin hargs hkind hcq hnamed)], fun k hk => ?_, fun i hi hfn hicq => ?_,
      hq.sqs, hq.qErr ▸ not_mem_filter_bne _ _, hkeep.regs rfl, hkeep.ssq rfl rfl rfl rfl rfl rfl rfl rfl rfl, hkeep.tmg rfl, hkeep.xfe rfl⟩
    · rw [hq.isSome_cq k]
      exact congrArg Option.isSome (tget_tdel_ne _ hk)
    · obtain ⟨j, -, rfl⟩ := List.mem_map.1 (hq.inflight i hi)
      by_cases hj : j.fn = c.fn ∧ j.cq = c.arg 1 1
      · rw [if_pos hj]
      · rw [if_neg hj] at hfn hicq
        exact absurd ⟨hfn, hicq⟩ hj
  case enable =>
    intro fn sq cq s hl hen hsq hcq hw
    have hregs : Table.wf ((s.setF (aqSqSize fn) sq).setF (aqCqSize fn) cq).regs = true := State.setF_wf _ _ _ (State.setF_wf _ _ _ hw)
    refine ⟨adminPair fn sq cq s, ?_, flag_setF_self hregs (aqEn_width fn) 1, ?_, ?_, fun k hk => ?_, rfl, rfl, rfl⟩
    · rw [exec_aqCtrlWrite, powered_of_on (off_of_fnLive hl), aqCtrlWrite_enables hl hen hsq hcq]
    · rw [adminPair]
      exact congrArg (Option.map _) (tget_tset ..)
    · rw [adminPair]
      exact congrArg (Option.map _) (tget_tset ..)
    · exact ⟨tget_tset_ne _ _ hk, tget_tset_ne _ _ hk⟩
  case enabled =>
    intro fn sq cq s hl hen
    rw [exec_aqCtrlWrite, powered_of_eq (aqCtrlWrite_enabled hen)]
  case disable =>
    intro fn sq cq s hl hw
    have hkeep := aqCtrlWrite_disables hl ▸ aqCtrlWrite_keep fn fn sq cq 0 s
    refine ⟨loseQueues fn (aqSizes fn sq cq s), ?_, flag_setF_self (aqSizes_wf hw) (aqEn_width fn) 0, fun q hq => loseQueues_none fn _ hq,
      fun i hi hfn => loseQueues_inflight fn _ hi hfn, hkeep.ssq rfl rfl rfl rfl rfl rfl rfl rfl rfl, hkeep.tmg rfl, hkeep.xfe rfl⟩
    rw [exec_aqCtrlWrite, powered_of_on (off_of_fnLive hl), aqCtrlWrite_disables hl]
  case wipe =>
    intro c s ha hargs hlen hn hstate
    have hexec : exec (.partitionWipe c) s = .next (markStarted c (wipeObjects (c.arg 0 1) (wipeEntered (c.arg 0 1) c s))) := by
      rw [exec_partitionWipe, hostCmd_wait ha (partitionWipe_of_state hargs hlen hn hstate)]
    have hkeep := execPartitionWipe_keep hexec
    exact ⟨_, _, hexec, rfl, pstate_wipeEntered hn c s, wipes_wipeEntered .., hkeep.pending rfl, hkeep.slu rfl, hkeep.mxg rfl, hkeep.fuses rfl⟩
  case noWipe =>
    intro c s ha hargs hlen hn hstate
    have hfrom : [psLocked, psDraining, psReplay].contains (s.pstate (c.arg 0 1)) = false := by
      rcases hstate with h | h | h <;> rw [h] <;> rfl
    rw [exec_partitionWipe, hostCmd_fail ha (partitionWipe_other_state hargs hlen hn hfrom)]
  case wipeDone =>
    intro n s hl hn hstate hext hreg
    have hdone := partitionWipeDone_of_wiping hn hstate hext hreg
    have hkeep := hdone ▸ partitionWipeDone_keep n s
    rw [exec_partitionWipeDone, live_of_running hl, hdone]
    have hq := sameQueues_wipeEnd n (wipeFabric n (wipeMemory n s))
    obtain ⟨u, hu⟩ := functionGone_queues n (wipeFabric n (wipeMemory n s))
    rw [hu] at hq
    refine ⟨_, rfl, fun q hq64 => ?_, ?_, fun i hi hfn => loseQueues_inflight (n + 1) u (hq.inflight i hi) hfn,
      hkeep.ssq rfl rfl rfl rfl rfl rfl rfl rfl rfl, hkeep.pme rfl, hkeep.slu rfl, hkeep.fuses rfl⟩
    · obtain ⟨hsq, hcq⟩ := loseQueues_none (n + 1) u hq64
      exact ⟨(congrArg (tget · _) hq.sqs).trans hsq, hq.no_cq hcq⟩
    · rw [hq.presented]
      simp

end Sys2Proof.Machine

/-!
Doorbells (12 R388): the tail and the head that a valid write moves, and the error of an invalid one.
-/
namespace Sys2Proof.Machine

open Sys2Proof

theorem exec_sqTailDoorbell (fn q v : Nat) (s : State) :
    exec (.sqTailDoorbell fn q v) s = .next (countIo fn (powered (sqDoorbell fn q v) s)) := rfl
theorem exec_cqHeadDoorbell (fn q v : Nat) (s : State) :
    exec (.cqHeadDoorbell fn q v) s = .next (countIo fn (powered (cqDoorbell fn q v) s)) := rfl

/-- An event is the next record of the device ring (14 R456). -/
theorem logEv_record (e : Ev) (slot part : Nat) (detail : List Nat) (s : State) :
    (logEv e slot part detail s).frc.seq = s.frc.seq + 1 ∧
      ((logEv e slot part detail s).frc.ring.head?.map fun r => (r.code, r.detail)) = some (e.code, detail) := by
  unfold logEv logFull
  extract_lets r frc s₁ s₂ s₃
  have htrace : s₃.frc = s₁.frc := by
    unfold s₃
    split
    · exact (traceRecord_keep _ _).frc rfl
    · rfl
  split
  · rw [State.setF_frc, htrace]
    exact ⟨rfl, rfl⟩
  · obtain ⟨rings, h⟩ := frc_hostRing r s₃
    rw [h, htrace]
    exact ⟨rfl, rfl⟩

section Doorbells

variable {fn q v : Nat} {s : State}

/-- A doorbell on a page that BAR2 has, of a function that the host reaches. -/
theorem doorbell_reaches (hs : s.fnShown fn = true) (hq : q < queuesOf fn) : ¬(s.fnShown fn = false ∨ queuesOf fn ≤ q) := by
  rw [hs]
  simpa using hq

theorem exec_sqTailDoorbell_reaching (hoff : s.mgc.off = false) (hs : s.fnShown fn = true) (hq : q < queuesOf fn) (v : Nat) :
    exec (.sqTailDoorbell fn q v) s = .next (countIo fn (sqTail fn q v s)) := by
  rw [exec_sqTailDoorbell, powered_of_on hoff, sqDoorbell, if_neg (doorbell_reaches hs hq)]

theorem exec_cqHeadDoorbell_reaching (hoff : s.mgc.off = false) (hs : s.fnShown fn = true) (hq : q < queuesOf fn) (v : Nat) :
    exec (.cqHeadDoorbell fn q v) s = .next (countIo fn (cqHead fn q v s)) := by
  rw [exec_cqHeadDoorbell, powered_of_on hoff, cqDoorbell, if_neg (doorbell_reaches hs hq)]

theorem sqDoorbell_nowhere (h : s.fnShown fn = false ∨ queuesOf fn ≤ q) : sqDoorbell fn q v s = s := if_pos h
theorem cqDoorbell_nowhere (h : s.fnShown fn = false ∨ queuesOf fn ≤ q) : cqDoorbell fn q v s = s := if_pos h

theorem sqTail_none (h : tget s.hif.sqs (qKey fn q) = none) : sqTail fn q v s = doorbellError fn q v s := by
  rw [sqTail, h]

theorem cqHead_none (h : tget s.hif.cqs (qKey fn q) = none) : cqHead fn q v s = doorbellError fn q v s := by
  rw [cqHead, h]

/-- A tail beyond the ring, or telling more entries than the ring holds, is an error; any other is taken. -/
theorem sqTail_some {r : Sq} (h : tget s.hif.sqs (qKey fn q) = some r) :
    sqTail fn q v s =
      if r.size ≤ v ∨ r.size - 1 < (r.tail + r.size - r.head) % r.size + (v + r.size - r.tail) % r.size then doorbellError fn q v s
      else { s with hif := { s.hif with sqs := tset s.hif.sqs (qKey fn q) { r with tail := v } } } := by
  rw [sqTail, h]

/-- A head beyond the ring, or past the last posted entry, is an error; any other is taken. -/
theorem cqHead_some {r : Cq} (h : tget s.hif.cqs (qKey fn q) = some r) :
    cqHead fn q v s =
      if r.size ≤ v ∨ r.used < (v + r.size - r.head) % r.size then doorbellError fn q v s
      else { s with hif := { s.hif with cqs := tset s.hif.cqs (qKey fn q) { r with head := v } } } := by
  rw [cqHead, h]

/-- An invalid doorbell puts the pair in ERROR, leaves the queues and is the next event. -/
theorem doorbellError_effect (fn q v : Nat) (s : State) :
    qKey fn q ∈ (doorbellError fn q v s).hif.qErr ∧ (doorbellError fn q v s).hif.sqs = s.hif.sqs ∧ (doorbellError fn q v s).hif.cqs = s.hif.cqs ∧
      (doorbellError fn q v s).frc.seq = s.frc.seq + 1 ∧
      ((doorbellError fn q v s).frc.ring.head?.map fun r => (r.code, r.detail)) = some (Ev.hifQueueError.code, [fn, q, v]) := by
  unfold doorbellError
  extract_lets k hif t
  have hmem : k ∈ t.hif.qErr := by
    show k ∈ if s.hif.qErr.contains k then s.hif.qErr else k :: s.hif.qErr
    split
    · rename_i hin
      exact List.contains_iff_mem.1 hin
    · exact List.mem_cons_self
  obtain ⟨msix, hhif⟩ := hif_logFull (t.bump Ctr.hifDoorbellErrors) .hifQueueError pHif 0 (if fn = 0 then 0xFF else fn - 1) 0 0 [fn, q, v]
  obtain ⟨hseq, hring⟩ := logEv_record .hifQueueError pHif (if fn = 0 then 0xFF else fn - 1) [fn, q, v] (t.bump Ctr.hifDoorbellErrors)
  rw [logEv, hhif]
  exact ⟨hmem, rfl, rfl, hseq, hring⟩

end Doorbells

/-- Settles O3: a doorbell that reaches its queue by the branches of `sqTail_some` and `cqHead_some`. -/
theorem doorbellsMoveTailAndHead : Obligations.DoorbellsMoveTailAndHead := by
  unfold Obligations.DoorbellsMoveTailAndHead
  refine ⟨?tail, ?tailError, ?head, ?headError, ?none, ?effect, ?nowhere⟩
  case tail =>
    intro fn q v r s hoff hs hq hr hv hroom
    rw [exec_sqTailDoorbell_reaching hoff hs hq, sqTail_some hr, if_neg (not_or.2 ⟨Nat.not_le.2 hv, Nat.not_lt.2 hroom⟩)]
  case tailError =>
    intro fn q v r s hoff hs hq hr hbad
    rw [exec_sqTailDoorbell_reaching hoff hs hq, sqTail_some hr, if_pos hbad]
  case head =>
    intro fn q v r s hoff hs hq hr hv hposted
    rw [exec_cqHeadDoorbell_reaching hoff hs hq, cqHead_some hr, if_neg (not_or.2 ⟨Nat.not_le.2 hv, Nat.not_lt.2 hposted⟩)]
  case headError =>
    intro fn q v r s hoff hs hq hr hbad
    rw [exec_cqHeadDoorbell_reaching hoff hs hq, cqHead_some hr, if_pos hbad]
  case none =>
    intro fn q v s hoff hs hq ⟨hsq, hcq⟩
    rw [exec_sqTailDoorbell_reaching hoff hs hq, exec_cqHeadDoorbell_reaching hoff hs hq, sqTail_none hsq, cqHead_none hcq]
    exact ⟨rfl, rfl⟩
  case effect =>
    intro fn q v s
    exact doorbellError_effect fn q v s
  case nowhere =>
    intro fn q v s h
    rw [exec_sqTailDoorbell, exec_cqHeadDoorbell, powered_of_eq (sqDoorbell_nowhere h), powered_of_eq (cqDoorbell_nowhere h)]
    exact ⟨rfl, rfl⟩

end Sys2Proof.Machine

/-!
Fetch, coalescing and function-level reset (12 R387, R389, R391, R393).
-/
namespace Sys2Proof.Machine

open Sys2Proof

theorem exec_commandFetch (fn q : Nat) (e : List Byte) (s : State) :
    exec (.commandFetch fn q e) s = .next (powered (fun s => if isFenced s pHif 0 then s else commandFetch fn q e s) s) := rfl
theorem exec_cqDelayExpiry (fn q : Nat) (s : State) : exec (.cqDelayExpiry fn q) s = .next (powered (cqDelayExpiry fn q) s) := rfl
theorem exec_functionLevelReset (fn : Nat) (s : State) :
    exec (.functionLevelReset fn) s = .next (countIo fn (powered (fun s => if s.fnShown fn then functionLevelReset fn s else s) s)) := rfl

section Fetch

variable {fn q : Nat} {e : List Byte} {r : Sq} {cq : Cq} {s : State}

theorem exec_commandFetch_unfenced (hoff : s.mgc.off = false) (hf : isFenced s pHif 0 = false) :
    exec (.commandFetch fn q e) s = .next (commandFetch fn q e s) := by
  rw [exec_commandFetch, powered_of_on hoff, hf, if_neg Bool.false_ne_true]

/-- The state with the entry at the head of an SQ fetched: its head advances, an entry of its CQ is reserved, and the command is in flight (R387,
R389). -/
abbrev fetched (fn q : Nat) (e : List Byte) (r : Sq) (cq : Cq) (s : State) : State :=
  (roundPast fn q { s with hif := { s.hif with
    sqs := tset s.hif.sqs (qKey fn q) { r with head := (r.head + 1) % r.size }
    cqs := tset s.hif.cqs (qKey fn r.cqid) { cq with reserved := cq.reserved + 1 }
    inflight := s.hif.inflight ++ [{ fn := fn, sq := q, cid := fieldAt e 4 2, cq := r.cqid, sqHead := (r.head + 1) % r.size }] } }).bump
    Ctr.hifCommandsFetched

/-- A fetch where the round stands: of an entry that may be fetched, or the end of its turn. -/
theorem commandFetch_round (hr : tget s.hif.sqs (qKey fn q) = some r) (hcq : tget s.hif.cqs (qKey fn r.cqid) = some cq)
    (hround : roundNext s fn = some q) :
    commandFetch fn q e s =
      if mayFetch fn q e r cq s then
        if entryOk fn e then fetched fn q e r cq s else complete (cmdOfEntry fn q e []) { status := .invalidField } (fetched fn q e r cq s)
      else roundPast fn q s := by
  rw [commandFetch, hr]
  dsimp only
  rw [hcq]
  dsimp only
  rw [if_neg (not_not.2 hround)]
  cases mayFetch fn q e r cq s <;> rfl

/-- Elsewhere the round stands still. -/
theorem commandFetch_other (hround : roundNext s fn ≠ some q) : commandFetch fn q e s = s := by
  unfold commandFetch
  split
  · rfl
  · split
    · rfl
    · exact if_pos hround

/-- The round passes over no SQ with entries to fetch (R387): one of a lower id lies before where the round began. -/
theorem lt_round_of_roundNext {k : Nat} (hround : roundNext s fn = some q) (hkq : k < q) (hk : k < queuesOf fn) (hw : sqWaits s fn k = true) :
    k < tgetD s.hif.rounds fn 0 := by
  have hmem : k ∈ (List.range (queuesOf fn)).filter (sqWaits s fn) := List.mem_filter.2 ⟨List.mem_range.2 hk, hw⟩
  have hsorted : ((List.range (queuesOf fn)).filter (sqWaits s fn)).Pairwise (· < ·) := List.pairwise_lt_range.filter _
  by_contra hle
  have hpass : decide (tgetD s.hif.rounds fn 0 ≤ k) = true := decide_eq_true (Nat.not_lt.1 hle)
  have hfound : (((List.range (queuesOf fn)).filter (sqWaits s fn)).find? fun q => decide (tgetD s.hif.rounds fn 0 ≤ q)).isSome = true :=
    List.find?_isSome.2 ⟨k, hmem, hpass⟩
  obtain ⟨j, hj⟩ := Option.isSome_iff_exists.1 hfound
  have hjq : j = q := by
    simpa [roundNext, hj] using hround
  subst hjq
  obtain ⟨-, l₁, l₂, hl, hbefore⟩ := List.find?_eq_some_iff_append.1 hj
  rw [hl] at hmem hsorted
  rcases List.mem_append.1 hmem with h | h
  · exact absurd hpass (by simpa using hbefore k h)
  · rcases List.mem_cons.1 h with h | h
    · omega
    · have := List.rel_of_pairwise_cons (List.pairwise_append.1 hsorted).2.1 h
      omega

end Fetch

section Signal

variable {fn q v : Nat} {s : State}

theorem cqDelayExpiry_some {r : Cq} (hr : tget s.hif.cqs (qKey fn q) = some r) :
    cqDelayExpiry fn q s = if r.sinceSignal = 0 then s
      else ({ s with hif := { s.hif with cqs := tset s.hif.cqs (qKey fn q) { r with sinceSignal := 0 } } }).signal fn r.vector := by
  rw [cqDelayExpiry, hr]

theorem signal_pending (h : (s.msixVec fn v).masked = true ∨ s.msixOn fn = false) :
    s.signal fn v = putMsix fn v { s.msixVec fn v with pending := true } s := by
  have hheld : ((s.msixVec fn v).masked || !s.msixOn fn) = true := by simpa using h
  rw [State.signal]
  exact if_pos hheld

theorem signal_sent (hmask : (s.msixVec fn v).masked = false) (hon : s.msixOn fn = true) :
    s.signal fn v = (s.emit (.msix fn v)).bump Ctr.hifMsixSent := by
  simp [State.signal, hmask, hon]

end Signal

/-- Settles O4: a fetch by `commandFetch_round`, the round by `lt_round_of_roundNext`, and a signal by whether its vector sends. -/
theorem fetchAndSignal : Obligations.FetchAndSignal := by
  unfold Obligations.FetchAndSignal
  refine ⟨?fetch, ?passed, ?still, ?order, ?signals, ?quiet, ?reset, ?pending, ?sent⟩
  case fetch =>
    intro fn q e r cq s hoff hf hr hcq hround hmay t
    rw [exec_commandFetch_unfenced hoff hf, commandFetch_round hr hcq hround, if_pos hmay]
  case passed =>
    intro fn q e r cq s hr hoff hf hcq hround hmay
    rw [exec_commandFetch_unfenced hoff hf, commandFetch_round hr hcq hround, hmay, if_neg Bool.false_ne_true]
  case still =>
    intro fn q e s h
    rw [exec_commandFetch, powered_of_eq]
    rcases h with hround | hf
    · rw [commandFetch_other hround, ite_self]
    · exact if_pos hf
  case order =>
    intro fn q k s hround hkq hk hw
    exact lt_round_of_roundNext hround hkq hk hw
  case signals =>
    intro fn q r s hoff hr hwait
    rw [exec_cqDelayExpiry, powered_of_on hoff, cqDelayExpiry_some hr, if_neg hwait]
  case quiet =>
    intro fn q r s hr hnone
    rw [exec_cqDelayExpiry, powered_of_eq]
    rw [cqDelayExpiry_some hr, if_pos hnone]
  case reset =>
    intro fn s hoff hs
    rw [exec_functionLevelReset, powered_of_on hoff, if_pos hs]
    rfl
  case pending =>
    intro fn v s h
    exact signal_pending h
  case sent =>
    intro fn v s hmask hon
    exact signal_sent hmask hon

end Sys2Proof.Machine

/-!
The state window: what a write of T1 leaves, what ends a wait, and what a host's requests count (12 R398-R401, 14 R459).
-/
namespace Sys2Proof.Machine

open Sys2Proof

-- Numbers as bytes (00 R6)

theorem leNat_leBytes (n v : Nat) : leNat (leBytes n v) = v % 256 ^ n := by
  induction n generalizing v with
  | zero => simp [leBytes, leNat, Nat.mod_one]
  | succ n ih =>
    rw [leBytes, leNat, ih, BitVec.toNat_ofNat, pow_succ' 256, show (2 : Nat) ^ 8 = 256 from rfl, Nat.mod_mul]

@[simp] theorem leBytes_length (n v : Nat) : (leBytes n v).length = n := by
  induction n generalizing v with
  | zero => rfl
  | succ n ih => rw [leBytes, List.length_cons, ih]

theorem leNat_lt (l : List Byte) : leNat l < 256 ^ l.length := by
  induction l with
  | nil => exact Nat.one_pos
  | cons b l ih =>
    have hb := b.isLt
    rw [leNat, List.length_cons, pow_succ]
    omega

@[simp] theorem slice_length (m : List Byte) (off n : Nat) : (slice m off n).length = n := by
  simp [slice, zeros]

theorem slice_self {b : List Byte} {n : Nat} (h : b.length = n) : slice b 0 n = b := by
  subst h
  simp [slice, zeros]

/-- A field of ARGS holds a number of its bytes. -/
theorem arg_lt (c : Cmd) (off n : Nat) : c.arg off n < 256 ^ n := by
  simpa [Cmd.arg, fieldAt] using leNat_lt (slice c.args off n)

-- A write of T1 (12 R401)

section T1

variable {s : State}

/-- Bytes written where no line is poisoned are read back. -/
theorem memRead_t1Write (hs : memsOk s) (hp : s.cwp.poison = []) (a : Nat) (b : List Byte) : memRead (s.t1Write a b).t1 a b.length = b := by
  refine List.ext_getElem (by simp [memRead]) fun i _ hi => ?_
  have hget := writeAt_get hs 1 (by decide) (a + ·) b (fun i _ j _ h => Nat.add_left_cancel h) (fun i _ => by simp [State.poisonedIn, hp, tget]) i hi
  rw [List.getD_eq_getElem _ _ hi] at hget
  simp only [memRead, List.getElem_map, List.getElem_range]
  exact hget

/-- Of the bytes of a line, the first begins it. -/
theorem lineStarts (dev : Nat) :
    (((List.range 64).filter fun i => (dev * 64 + i) % 64 == 0).filter fun i => decide (i + 64 ≤ 64)).map (fun i => (dev * 64 + i) / 64) = [dev] := by
  have hstart : ((List.range 64).filter fun i => (dev * 64 + i) % 64 == 0) = [0] := by
    simp only [Nat.mul_add_mod_self_right]
    rfl
  rw [hstart]
  simp

/-- A whole line written takes its bytes and loses its poison; no other byte changes. -/
theorem t1Write_line (hs : memsOk s) {b : List Byte} (hb : b.length = 64) (dev : Nat) :
    (∀ i, i < 64 → memGet (s.t1Write (dev * 64) b).t1 (dev * 64 + i) = b.getD i 0) ∧
    (∀ a, a / 64 ≠ dev → memGet (s.t1Write (dev * 64) b).t1 a = memGet s.t1 a) ∧ (s.t1Write (dev * 64) b).cwp.poison = tdel s.cwp.poison dev := by
  refine ⟨fun i hi => ?_, fun a ha => ?_, ?_⟩
  · refine memFold_get hs.2.1 (List.range b.length) _ (dev * 64 + ·) (fun i => b.getD i 0) List.nodup_range (fun i _ j _ h => Nat.add_left_cancel h)
      (fun j hj => ?_) i (by rw [hb]; exact List.mem_range.2 hi)
    have hj64 : j < 64 := hb ▸ List.mem_range.1 hj
    have hline : (dev * 64 + j) / 64 = dev := by omega
    simp only [hb, lineStarts, hline, List.contains_cons, beq_self_eq_true, Bool.true_or, Bool.or_true]
  · exact writeAt_other hs 1 (by decide) (dev * 64 + ·) b a fun i hi => by
      rw [hb] at hi
      rintro rfl
      exact ha (by omega)
  · unfold State.t1Write State.writeAt
    simp only [hb, lineStarts, List.foldl_cons, List.foldl_nil, poisonKey, if_true]

theorem t1Write_recalls (s : State) (a : Nat) (b : List Byte) : (s.t1Write a b).cwp.recalls = s.cwp.recalls := rfl

/-- A partial line written clears no poison. -/
theorem t1Write_poison_nil (hp : s.cwp.poison = []) (a : Nat) (b : List Byte) : (s.t1Write a b).cwp.poison = [] := by
  unfold State.t1Write State.writeAt
  dsimp only
  rw [hp]
  exact List.foldlRecOn (motive := (· = [])) _ _ rfl fun t ht l _ => by rw [ht]; rfl

end T1

-- What ends a wait (12 R398, R399)

section Waits

variable {s : State}

/-- Where nothing that waits may go on, only the supplies of runs are looked through. -/
theorem settleWaits_blocked (h : firstReady s [] s.cwp.waiting = none) : settleWaits s = trimSupplies s := by
  have hloop : ∀ n, settleLoop n s = s := fun n => by
    cases n with
    | zero => rfl
    | succ n => rw [settleLoop, h]
  rw [settleWaits, hloop]

/-- The state with a request of an LD counted in its window (14 R459). -/
abbrev partnerCounted (ld : Nat) (bad : Bool) (s : State) : State :=
  { s with frc := { s.frc with hosts := tset s.frc.hosts ld ((tgetD s.frc.hosts ld {}).count 1 bad).1 } }

/-- A request that does not bring its LD to the limit is counted. -/
theorem hostPartner_within {ld : Nat} {bad : Bool}
    (h : bad = false ∨ s.getF Reg.frcPartnerHostLimit = 0 ∨ (tgetD s.frc.hosts ld {}).bad + 1 < s.getF Reg.frcPartnerHostLimit) :
    hostPartner ld bad s = partnerCounted ld bad s := by
  refine if_neg ?_
  rintro ⟨hbad, hlimit, hreach, -⟩
  rcases h with h | h | h
  · exact absurd hbad (by simp [h])
  · exact hlimit h
  · rw [hbad] at hreach
    exact absurd hreach (Nat.not_le.2 h)

/-- A request whose LD stays below the limit, and after which nothing may go on, moves the FRC alone beyond what it does itself. -/
theorem answered_keep {ld : Nat} {bad : Bool}
    (h : bad = false ∨ s.getF Reg.frcPartnerHostLimit = 0 ∨ (tgetD s.frc.hosts ld {}).bad + 1 < s.getF Reg.frcPartnerHostLimit)
    (hblocked : firstReady s [] s.cwp.waiting = none) : Keep 1024 s (settleWaits (hostPartner ld bad s)) := by
  have hready : ∀ l before, firstReady (partnerCounted ld bad s) before l = firstReady s before l := fun l => by
    induction l with
    | nil => exact fun _ => rfl
    | cons w l ih =>
      intro before
      rw [firstReady, firstReady, ih]
      rfl
  rw [hostPartner_within h, settleWaits_blocked ((hready ..).trans hblocked)]
  exact (trimSupplies_keep _).after (Keep.of_frc s _) rfl

end Waits

end Sys2Proof.Machine

/-!
WINDOW_PUBLISH (12 R410, R412).
-/
namespace Sys2Proof.Machine

open Sys2Proof

theorem exec_windowPublish (c : Cmd) (s : State) : exec (.windowPublish c) s = .next (hostCmd 0x0404 c (windowPublish 0 c) s) := rfl

section Publish

/-- The window lines of the range that a WINDOW_PUBLISH names. -/
abbrev publishLines (c : Cmd) : List Nat := (List.range (c.arg 8 4 / 64)).map (c.arg 0 8 / 64 + ·)

/-- A well formed WINDOW_PUBLISH of a range of an ACTIVE extent of the partition, assigned to the function's own host, none of whose lines is
awaited, in recall or wiped, and whose version line no host holds (R410). -/
structure PublishReady (c : Cmd) (e : Nat) (s : State) : Prop where
  args : c.argsOk [(0, 12), (0x10, 16)] = true
  aligned : c.arg 0 8 % 64 = 0 ∧ c.arg 8 4 % 64 = 0
  length : 64 ≤ c.arg 8 4 ∧ c.arg 8 4 ≤ 16 * 2 ^ 20
  noData : c.dlen = 0
  extent : s.extentOf (c.arg 0 8 / 64) = some e
  inside : (publishLines c).all (s.inExtent e) = true
  part : s.getF (Reg.cwpExtentPartition e) = c.part
  active : s.extState e = extActive
  assigned : bit (s.getF (Reg.cwpExtentHosts e)) (s.getF (Reg.hifPbFuncBindLd c.part)) = true
  lines : OpenLines s (c.arg 0 8 / 64) (c.arg 8 4 / 64)

variable {c : Cmd} {e : Nat} {s : State}

theorem publishGo_open {own : Nat} {lines : List Nat}
    (h : ¬(s.needsRecall true (c.arg 0 8 / 64) || lines.any fun l => s.recalled l || s.wiping l) = true) :
    publishGo c e own lines s =
      if s.poisoned (s.devLine e (c.arg 0 8 / 64)) then .done (poisonRead c.part (s.devLine e (c.arg 0 8 / 64)) s) { status := .windowPoison }
      else if leNat (memRead s.t1 (s.devLine e (c.arg 0 8 / 64) * 64) 8) ≠ c.arg 0x10 8 then
        .done (s.bump Ctr.cwpPublishConflicts)
          { status := .publishConflict, result0 := leNat (memRead s.t1 (s.devLine e (c.arg 0 8 / 64) * 64) 8) }
      else publishRest c own lines (lines.map (s.devLine e)) (s.t1Write (s.devLine e (c.arg 0 8 / 64) * 64) (leBytes 8 (c.arg 0x18 8))) := by
  rw [publishGo]
  exact if_neg h

/-- Such a publish comes to its version word at once. -/
theorem PublishReady.windowPublish (h : PublishReady c e s) :
    windowPublish 0 c s = publishGo c e (s.getF (Reg.hifPbFuncBindLd c.part)) (publishLines c) s := by
  obtain ⟨hargs, ⟨haddr, hmul⟩, hlen, hdlen, hext, hin, hpart, hact, hown, hqueued, -, -⟩ := h
  have hqueued' : s.lineQueued (publishLines c) = false := hqueued
  simp only [Machine.windowPublish, hargs, haddr, hmul, hlen, hdlen, hext, hin, hpart, hact, hown, hqueued', decide_true, Bool.and_true, and_self,
    beq_self_eq_true, need_true, bne_self_eq_false, Bool.false_or, Bool.and_false, Bool.false_eq_true, if_false, OfNat.zero_ne_ofNat]

theorem PublishReady.open (h : PublishReady c e s) :
    ¬(s.needsRecall true (c.arg 0 8 / 64) || (publishLines c).any fun l => s.recalled l || s.wiping l) = true := by
  obtain ⟨-, hfirst, hany⟩ := h.lines
  have hany' : ((publishLines c).any fun l => s.recalled l || s.wiping l) = false := hany
  rw [hfirst, hany']
  decide

/-- At its version word the publish finds poison (R412), another version than the expected one, or what it replaces. -/
theorem PublishReady.version (h : PublishReady c e s) :
    Machine.windowPublish 0 c s =
      if s.poisoned (s.devLine e (c.arg 0 8 / 64)) then .done (poisonRead c.part (s.devLine e (c.arg 0 8 / 64)) s) { status := .windowPoison }
      else if leNat (memRead s.t1 (s.devLine e (c.arg 0 8 / 64) * 64) 8) ≠ c.arg 0x10 8 then
        .done (s.bump Ctr.cwpPublishConflicts)
          { status := .publishConflict, result0 := leNat (memRead s.t1 (s.devLine e (c.arg 0 8 / 64) * 64) 8) }
      else publishRest c (s.getF (Reg.hifPbFuncBindLd c.part)) (publishLines c) ((publishLines c).map (s.devLine e))
        (s.t1Write (s.devLine e (c.arg 0 8 / 64) * 64) (leBytes 8 (c.arg 0x18 8))) := by
  rw [h.windowPublish, publishGo_open h.open]

/-- A publish waits for nothing, and ends well, where no host holds a line, none is in recall and none is poisoned. -/
theorem publishRest_free (hheld : s.cwp.dir = [] ∧ s.cwp.recalls = []) (hp : s.cwp.poison = []) (own : Nat) (lines devs : List Nat) :
    publishRest c own lines devs s = .done (s.bump Ctr.cwpPublishes) { result0 := c.arg 0x18 8 } := by
  have hfree : ∀ l, (publishNeeds own l s || s.recalled l) = false := fun l => by
    simp [publishNeeds, State.recalled, hheld, tget]
  have hclean : ∀ l, s.poisoned l = false := fun l => by
    simp [State.poisoned, State.poisonedIn, hp, tget]
  simp [publishRest, hfree, publishEnd, hclean]

/-- The version word written changes nothing of that. -/
theorem publishRest_t1Write (hheld : s.cwp.dir = [] ∧ s.cwp.recalls = []) (hp : s.cwp.poison = []) (own : Nat) (lines devs : List Nat) (a : Nat)
    (b : List Byte) : publishRest c own lines devs (s.t1Write a b) = .done ((s.t1Write a b).bump Ctr.cwpPublishes) { result0 := c.arg 0x18 8 } :=
  publishRest_free (s := s.t1Write a b) hheld (t1Write_poison_nil hp a b) own lines devs

/-- There the expected version is replaced at once. -/
theorem PublishReady.publishes (h : PublishReady c e s) (hheld : s.cwp.dir = [] ∧ s.cwp.recalls = []) (hp : s.cwp.poison = [])
    (hv : leNat (memRead s.t1 (s.devLine e (c.arg 0 8 / 64) * 64) 8) = c.arg 0x10 8) :
    Machine.windowPublish 0 c s = .done ((s.t1Write (s.devLine e (c.arg 0 8 / 64) * 64) (leBytes 8 (c.arg 0x18 8))).bump Ctr.cwpPublishes)
      { result0 := c.arg 0x18 8 } := by
  have hclean : ¬s.poisoned (s.devLine e (c.arg 0 8 / 64)) = true := by simp [State.poisoned, State.poisonedIn, hp, tget]
  rw [h.version, if_neg hclean, if_neg (not_not.2 hv)]
  exact publishRest_t1Write hheld hp ..

end Publish

/-- Settles O13: the version word found poisoned, as expected, or another (`PublishReady`), and a version written is read back. -/
theorem windowPublishSwapsTheVersion : Obligations.WindowPublishSwapsTheVersion := by
  unfold Obligations.WindowPublishSwapsTheVersion
  refine ⟨?swap, ?conflict, ?poison⟩
  case swap =>
    intro c e s hs ha hargs haddr hmul hlen hdlen hext hin hpart hact hown hopen hheld hp hv
    have h : PublishReady c e s := ⟨hargs, ⟨haddr, hmul⟩, hlen, hdlen, hext, hin, hpart, hact, hown, hopen⟩
    refine ⟨by rw [exec_windowPublish, hostCmd_done ha (h.publishes hheld hp hv)], ?_⟩
    have hback := memRead_t1Write hs hp (s.devLine e (c.arg 0 8 / 64) * 64) (leBytes 8 (c.arg 0x18 8))
    rw [leBytes_length] at hback
    rw [hback, leNat_leBytes, Nat.mod_eq_of_lt (arg_lt c 0x18 8)]
  case conflict =>
    intro c e s ha hargs haddr hmul hlen hdlen hext hin hpart hact hown hopen hp hv
    have h : PublishReady c e s := ⟨hargs, ⟨haddr, hmul⟩, hlen, hdlen, hext, hin, hpart, hact, hown, hopen⟩
    rw [exec_windowPublish, hostCmd_done ha (h.version.trans ((if_neg (by rw [hp]; decide)).trans (if_pos hv)))]
  case poison =>
    intro c e s ha hargs haddr hmul hlen hdlen hext hin hpart hact hown hopen hp
    have h : PublishReady c e s := ⟨hargs, ⟨haddr, hmul⟩, hlen, hdlen, hext, hin, hpart, hact, hown, hopen⟩
    rw [exec_windowPublish, hostCmd_done ha (h.version.trans (if_pos hp))]

end Sys2Proof.Machine

/-!
A host's reads and writes of window lines (12 R395-R398, R401, 14 R451, R459).
-/
namespace Sys2Proof.Machine

open Sys2Proof

theorem exec_hostMemRead (ld line : Nat) (grant : LineGrant) (s : State) : exec (.hostMemRead ld line grant) s = .next (hostMemRead ld line grant s) := rfl
theorem exec_hostMemWrite (ld line mask : Nat) (b : List Byte) (s : State) :
    exec (.hostMemWrite ld line mask b) s = .next (hostMemWrite ld line mask b s) := rfl

section Requests

variable {ld line e mask : Nat} {grant : LineGrant} {b : List Byte} {s : State}

/-- A FENCED CWP answers a read with poison and discards a write (14 R451, log 14). -/
theorem hostMemRead_fenced (hoff : s.mgc.off = false) (hld : ld < 16) (hf : isFenced s pCwp 0 = true) :
    hostMemRead ld line grant s = s.emit (.memPoison ld line) := by
  simp [hostMemRead, hoff, hf, hld]

theorem hostMemWrite_fenced (hoff : s.mgc.off = false) (hld : ld < 16) (hf : isFenced s pCwp 0 = true) :
    hostMemWrite ld line mask b s = s.emit (.memDone ld line) := by
  simp [hostMemWrite, hoff, hf, hld]

/-- Else a request is served, or denied, and counts for its LD; then what waits may go on. -/
theorem hostMemRead_served (hoff : s.mgc.off = false) (hld : ld < 16) (hf : isFenced s pCwp 0 = false) :
    hostMemRead ld line grant s = settleWaits (hostPartner ld (!s.hostAllowed ld line) (hostRead ld line grant s)) := by
  simp [hostMemRead, hoff, hf, hld]

theorem hostMemWrite_served (hoff : s.mgc.off = false) (hld : ld < 16) (hf : isFenced s pCwp 0 = false) :
    hostMemWrite ld line mask b s = settleWaits (hostPartner ld (!s.hostAllowed ld line) (hostWrite ld line mask b s)) := by
  simp [hostMemWrite, hoff, hf, hld]

/-- Nothing that waits is a reason to wait where nothing waits. -/
theorem lineQueued_of_waiting (hw : s.cwp.waiting = []) (lines : List Nat) : s.lineQueued lines = false := by
  simp [State.lineQueued, hw]

-- Accepted requests (R395, R399)

theorem hostRead_accepted (hallow : s.hostAllowed ld line = true) (hw : s.cwp.waiting = []) :
    hostRead ld line grant s = hostReadGo ld line grant (s.bump Ctr.cwpHostReads) := by
  have hqueued : (s.bump Ctr.cwpHostReads).lineQueued [line] = false := lineQueued_of_waiting hw _
  simp [hostRead, hallow, hqueued]

theorem hostWrite_accepted (hallow : s.hostAllowed ld line = true) (hw : s.cwp.waiting = []) :
    hostWrite ld line mask b s = hostWriteGo ld line mask b (s.bump Ctr.cwpHostWrites) := by
  have hqueued : (s.bump Ctr.cwpHostWrites).lineQueued [line] = false := lineQueued_of_waiting hw _
  simp [hostWrite, hallow, hqueued]

theorem hostRead_denied (hallow : s.hostAllowed ld line = false) : hostRead ld line grant s = (deny ld line s).emit (.memPoison ld line) := by
  simp [hostRead, hallow]

theorem hostWrite_denied (hallow : s.hostAllowed ld line = false) : hostWrite ld line mask b s = (deny ld line s).emit (.memDone ld line) := by
  simp [hostWrite, hallow]

/-- A denial that is not the first of 1,024 is counted and no event (R395). -/
theorem deny_again (h : tgetD s.cwp.denials ld 0 ≠ 0) :
    deny ld line s = ({ s with cwp := { s.cwp with denials := tset s.cwp.denials ld ((tgetD s.cwp.denials ld 0 + 1) % 1024) } }).bump Ctr.cwpAccessDenied :=
  if_neg h

-- Reads (R396, R397)

/-- A line that no host holds and none is recalled from is served at once, if its set has a way for the copy. -/
theorem hostReadNeeds_unheld (hrec : s.recalled line = false) (hdir : tget s.cwp.dir line = none)
    (hway : grant = .invalid ∨ (s.freeWay line).isSome = true) : hostReadNeeds ld line grant s = none := by
  rw [hostReadNeeds, hrec, if_neg Bool.false_ne_true, hdir]
  dsimp only
  split
  · rfl
  · rename_i hnone
    rcases hway with h | h
    · simp [h] at hnone
    · split at hnone
      · exact absurd hnone (by simp)
      · simp [hnone] at h

/-- A read for a Shared copy of a line that another host holds Exclusive waits for that host's answer to BISnpData (R398). -/
theorem hostReadNeeds_shared {o : Nat} {d : DirEntry} (hrec : s.recalled line = false) (hdir : tget s.cwp.dir line = some d) (ho : d.owner = some o)
    (hne : o ≠ ld) : hostReadNeeds ld line .shared s = some (sendRecall line o false s, [line]) := by
  simp [hostReadNeeds, hrec, hdir, ho, hne]

/-- A recall of a line that is not in recall is sent. -/
theorem sendRecall_new (hrec : s.recalled line = false) (host : Nat) (inv : Bool) :
    sendRecall line host inv s = (({ s with cwp := { s.cwp with recalls := s.cwp.recalls ++ [({ line := line, host := host, inv := inv } : Recall)] } }).bump
      (if inv then Ctr.cwpRecallsInv else Ctr.cwpRecallsData)).emit (.bisnp host line inv) := by
  have hnone : (s.cwp.recalls.any fun r => r.line == line && r.host == host) = false := by
    simp only [State.recalled, List.any_eq_false] at hrec
    simp only [List.any_eq_false, Bool.and_eq_true, not_and]
    exact fun r hr hl => absurd hl (hrec r hr)
  rw [sendRecall, hnone]
  rfl

/-- No recall is due outside a removal. -/
theorem removalRecall_kept (hext : s.extentOf line = some e) (hstate : s.extState e ≠ extRemoving) (host : Nat) : removalRecall line host s = s := by
  simp [removalRecall, hext, hstate]

/-- No recall is due of a line that no host holds. -/
theorem removalRecall_unheld (hdir : tget s.cwp.dir line = none) (host : Nat) : removalRecall line host s = s := by
  unfold removalRecall
  split
  · simp [State.heldBy, hdir]
  · rfl

/-- A line that is neither poisoned nor of a unit whose tag fails answers its bytes; a host that takes a copy of it then holds it. -/
theorem hostReadServe_unheld (hp : s.poisoned (s.devLine e line) = false)
    (htag : s.isProtected (s.getF (Reg.cwpExtentPartition e)) = false ∨ s.sec.badUnits.contains (1, s.devLine e line / 8) = false)
    (hdir : tget s.cwp.dir line = none) :
    hostReadServe ld line grant e s = removalRecall line ld ((if grant = .invalid then s else
      let t := grantLine ld line grant { way := (s.freeWay line).getD 0 } s
      { t with cwp := { t.cwp with pageCounts := tset t.cwp.pageCounts (line / 64) (min (tgetD t.cwp.pageCounts (line / 64) 0 + 1) 255) } }).emit
        (.memData ld line (memRead s.t1 (s.devLine e line * 64) 64) grant)) := by
  have hgood : (s.isProtected (s.getF (Reg.cwpExtentPartition e)) && s.sec.badUnits.contains (1, s.devLine e line / 8)) = false := by
    rcases htag with h | h
    · rw [h, Bool.false_and]
    · rw [h, Bool.and_false]
  unfold hostReadServe
  dsimp only
  rw [hp, if_neg Bool.false_ne_true, hgood, if_neg Bool.false_ne_true, hdir]

theorem maskBits_two_pow (hld : ld < 16) : maskBits 16 (2 ^ ld) = [ld] := by
  interval_cases ld <;> rfl

/-- What a host that takes the first copy of a line holds of it. -/
def firstHold (ld way : Nat) (grant : LineGrant) : DirEntry :=
  if grant = .exclusive then { way := way, owner := some ld } else { way := way, sharers := 2 ^ ld }

/-- The state with a first copy of a line taken, its page's accesses counted (R397). -/
def lineTaken (ld line way : Nat) (grant : LineGrant) (s : State) : State :=
  { s with cwp := { s.cwp with
    dir := tset s.cwp.dir line (firstHold ld way grant)
    pageCounts := tset s.cwp.pageCounts (line / 64) (min (tgetD s.cwp.pageCounts (line / 64) 0 + 1) 255) } }

theorem grantLine_first (hld : ld < 16) (hgrant : grant ≠ .invalid) (way : Nat) :
    grantLine ld line grant { way := way } s = { s with cwp := { s.cwp with dir := tset s.cwp.dir line (firstHold ld way grant) } } := by
  have hset : setBit 0 ld = 2 ^ ld := by simp [setBit, bit]
  cases grant with
  | invalid => exact absurd rfl hgrant
  | shared => simp [grantLine, putEntry, DirEntry.holders, hset, maskBits_two_pow hld, firstHold]
  | exclusive => simp [grantLine, putEntry, DirEntry.holders, firstHold]

-- Writes (R396, R401)

/-- A write to a line that no host holds and none is recalled from is applied at once: whole, or by its mask where the line is not poisoned. -/
theorem hostWriteGo_unheld (hext : s.extentOf line = some e) (hrec : s.recalled line = false) (hdir : tget s.cwp.dir line = none) :
    hostWriteGo ld line mask b s =
      (if mask % 2 ^ 64 = 2 ^ 64 - 1 then s.t1Write (s.devLine e line * 64) (slice b 0 64)
        else if s.poisoned (s.devLine e line) then s
        else { s with t1 := (maskBits 64 mask).foldl (fun m i => memSet m (s.devLine e line * 64 + i) (b.getD i 0)) s.t1 }).emit (.memDone ld line) := by
  simp only [hostWriteGo, hext, hrec, hdir, Bool.or_self, Bool.false_eq_true, if_false]

/-- The line of a recall just noted is in recall. -/
theorem recalled_append {l : List Recall} {r : Recall} (h : s.cwp.recalls = l ++ [r]) : s.recalled r.line = true := by
  simp [State.recalled, h]

/-- A read for a Shared copy of a line that another host holds Exclusive sends BISnpData and waits. -/
theorem hostRead_recalls {o : Nat} {d : DirEntry} (hallow : s.hostAllowed ld line = true) (hwait : s.cwp.waiting = [])
    (hext : s.extentOf line = some e) (hrec : s.recalled line = false) (hdir : tget s.cwp.dir line = some d) (ho : d.owner = some o) (hne : o ≠ ld) :
    hostRead ld line .shared s = enqueueWait { op := .hostRead ld line .shared, lines := [line] }
      ((({ s.bump Ctr.cwpHostReads with cwp := { s.cwp with recalls := s.cwp.recalls ++ [({ line := line, host := o, inv := false } : Recall)] } }).bump
        Ctr.cwpRecallsData).emit (.bisnp o line false)) := by
  have hext' : (s.bump Ctr.cwpHostReads).extentOf line = some e := hext
  have hneeds := hostReadNeeds_shared (s := s.bump Ctr.cwpHostReads) hrec hdir ho hne
  rw [sendRecall_new (s := s.bump Ctr.cwpHostReads) hrec] at hneeds
  rw [hostRead_accepted hallow hwait, hostReadGo, hext']
  dsimp only
  rw [hneeds]
  rfl

-- What a request leaves of the state

/-- A read that its LD's limit lets through, and after which nothing may go on, moves the FRC alone beyond what the read does. -/
theorem exec_hostMemRead_answered (hoff : s.mgc.off = false) (hld : ld < 16) (hf : isFenced s pCwp 0 = false)
    (hlimit : s.hostAllowed ld line = true ∨ (hostRead ld line grant s).getF Reg.frcPartnerHostLimit = 0 ∨
      (tgetD (hostRead ld line grant s).frc.hosts ld {}).bad + 1 < (hostRead ld line grant s).getF Reg.frcPartnerHostLimit)
    (hblocked : firstReady (hostRead ld line grant s) [] (hostRead ld line grant s).cwp.waiting = none) :
    ∃ t, exec (.hostMemRead ld line grant) s = .next t ∧ Keep 1024 (hostRead ld line grant s) t :=
  ⟨_, by rw [exec_hostMemRead, hostMemRead_served hoff hld hf], answered_keep (hlimit.imp_left fun h => by rw [h]; rfl) hblocked⟩

theorem exec_hostMemWrite_answered (hoff : s.mgc.off = false) (hld : ld < 16) (hf : isFenced s pCwp 0 = false)
    (hlimit : s.hostAllowed ld line = true ∨ (hostWrite ld line mask b s).getF Reg.frcPartnerHostLimit = 0 ∨
      (tgetD (hostWrite ld line mask b s).frc.hosts ld {}).bad + 1 < (hostWrite ld line mask b s).getF Reg.frcPartnerHostLimit)
    (hblocked : firstReady (hostWrite ld line mask b s) [] (hostWrite ld line mask b s).cwp.waiting = none) :
    ∃ t, exec (.hostMemWrite ld line mask b) s = .next t ∧ Keep 1024 (hostWrite ld line mask b s) t :=
  ⟨_, by rw [exec_hostMemWrite, hostMemWrite_served hoff hld hf], answered_keep (hlimit.imp_left fun h => by rw [h]; rfl) hblocked⟩

theorem firstReady_of_waiting (h : s.cwp.waiting = []) : firstReady s [] s.cwp.waiting = none := by
  rw [h]
  rfl

/-- An operation that waits alone waits on while its line is in recall (R398). -/
theorem firstReady_recalled {op : WinOp} (hwait : s.cwp.waiting = [{ op := op, lines := [line] }]) (hrec : s.recalled line = true) :
    firstReady s [] s.cwp.waiting = none := by
  simp [hwait, firstReady, waitReady, hrec]

section Unheld

variable (hallow : s.hostAllowed ld line = true) (hwait : s.cwp.waiting = []) (hext : s.extentOf line = some e) (hrec : s.recalled line = false)
  (hdir : tget s.cwp.dir line = none)

include hallow hwait hext hrec hdir

/-- A read of a line that no host holds, for which its set has a way, is served. -/
theorem hostRead_unheld (hway : grant = .invalid ∨ (s.freeWay line).isSome = true) :
    hostRead ld line grant s = hostReadServe ld line grant e (s.bump Ctr.cwpHostReads) := by
  have hext' : (s.bump Ctr.cwpHostReads).extentOf line = some e := hext
  have hneeds : hostReadNeeds ld line grant (s.bump Ctr.cwpHostReads) = none := hostReadNeeds_unheld hrec hdir hway
  rw [hostRead_accepted hallow hwait, hostReadGo, hext']
  dsimp only
  rw [hneeds]

section Good

variable (hp : s.poisoned (s.devLine e line) = false)
  (htag : s.isProtected (s.getF (Reg.cwpExtentPartition e)) = false ∨ s.sec.badUnits.contains (1, s.devLine e line / 8) = false)

include hp htag

/-- A read for the data alone answers it and grants nothing. -/
theorem hostRead_data :
    hostRead ld line .invalid s = (s.bump Ctr.cwpHostReads).emit (.memData ld line (memRead s.t1 (s.devLine e line * 64) 64) .invalid) := by
  rw [hostRead_unheld hallow hwait hext hrec hdir (.inl rfl), hostReadServe_unheld (s := s.bump Ctr.cwpHostReads) hp htag hdir, if_pos rfl]
  exact removalRecall_unheld (s := (s.bump Ctr.cwpHostReads).emit _) hdir ld

/-- A read for a copy answers the line and records the hold, outside a removal. -/
theorem hostRead_hold {w : Nat} (hld : ld < 16) (hgrant : grant ≠ .invalid) (hstate : s.extState e ≠ extRemoving) (hway : s.freeWay line = some w) :
    hostRead ld line grant s =
      (lineTaken ld line w grant (s.bump Ctr.cwpHostReads)).emit (.memData ld line (memRead s.t1 (s.devLine e line * 64) 64) grant) := by
  have hway' : (s.bump Ctr.cwpHostReads).freeWay line = some w := hway
  rw [hostRead_unheld hallow hwait hext hrec hdir (.inr (by rw [hway]; rfl)), hostReadServe_unheld (s := s.bump Ctr.cwpHostReads) hp htag hdir,
    if_neg hgrant, hway', Option.getD_some, grantLine_first hld hgrant]
  exact removalRecall_kept (s := (lineTaken ld line w grant (s.bump Ctr.cwpHostReads)).emit _) hext hstate ld

end Good

/-- A write to such a line is applied. -/
theorem hostWrite_unheld :
    hostWrite ld line mask b s =
      let u := s.bump Ctr.cwpHostWrites
      (if mask % 2 ^ 64 = 2 ^ 64 - 1 then u.t1Write (s.devLine e line * 64) (slice b 0 64)
        else if s.poisoned (s.devLine e line) then u
        else { u with t1 := (maskBits 64 mask).foldl (fun m i => memSet m (s.devLine e line * 64 + i) (b.getD i 0)) s.t1 }).emit (.memDone ld line) := by
  rw [hostWrite_accepted hallow hwait]
  exact hostWriteGo_unheld (s := s.bump Ctr.cwpHostWrites) hext hrec hdir

end Unheld

end Requests

/-- Settles O25: each request is served as it comes, the counting of its LD moving the FRC alone (`answered_keep`). -/
theorem hostReadsAndWrites : Obligations.HostReadsAndWrites := by
  unfold Obligations.HostReadsAndWrites
  refine ⟨?hold, ?data, ?recalled, ?write, ?partialWrite, ?fenced, ?denied⟩
  case hold =>
    intro ld line e w grant s hoff hf hld hgrant hallow hext hstate hwait hrec hdir hway hp htag
    have hread := hostRead_hold hallow hwait hext hrec hdir hp htag hld hgrant hstate hway
    obtain ⟨t, hexec, hkeep⟩ := exec_hostMemRead_answered hoff hld hf (.inl hallow) (firstReady_of_waiting (by rw [hread]; exact hwait))
    rw [hread] at hkeep
    have hcwp := hkeep.cwp rfl
    refine ⟨t, hexec, hkeep.out rfl, ?_, fun l hl => ?_, hkeep.ctrs rfl, hkeep.t0 rfl, hkeep.t1 rfl, hkeep.t2 rfl, hkeep.t3 rfl, hkeep.regs rfl,
      hkeep.ssq rfl rfl rfl rfl rfl rfl rfl rfl rfl, hkeep.hif rfl, by rw [hcwp]; rfl⟩
    · rw [hcwp]
      exact tget_tset ..
    · rw [hcwp]
      exact tget_tset_ne _ _ hl
  case data =>
    intro ld line e s hoff hf hld hallow hext hwait hrec hdir hp htag
    have hread := hostRead_data hallow hwait hext hrec hdir hp htag
    obtain ⟨t, hexec, hkeep⟩ := exec_hostMemRead_answered hoff hld hf (.inl hallow) (firstReady_of_waiting (by rw [hread]; exact hwait))
    rw [hread] at hkeep
    exact ⟨t, hexec, hkeep.out rfl, hkeep.cwp rfl, hkeep.ctrs rfl, hkeep.t0 rfl, hkeep.t1 rfl, hkeep.t2 rfl, hkeep.t3 rfl, hkeep.regs rfl,
      hkeep.ssq rfl rfl rfl rfl rfl rfl rfl rfl rfl, hkeep.hif rfl⟩
  case recalled =>
    intro ld line e o d s hoff hf hld hallow hext hwait hrec hdir ho hne
    have hread := hostRead_recalls hallow hwait hext hrec hdir ho hne
    obtain ⟨t, hexec, hkeep⟩ := exec_hostMemRead_answered hoff hld hf (.inl hallow)
      (firstReady_recalled (line := line) (by rw [hread]; exact congrArg (· ++ _) hwait) (by rw [hread]; exact recalled_append (r := { line := line, host := o, inv := false }) rfl))
    rw [hread] at hkeep
    have hcwp := hkeep.cwp rfl
    exact ⟨t, hexec, hkeep.out rfl, by rw [hcwp]; rfl, by rw [hcwp]; exact congrArg (· ++ _) hwait, by rw [hcwp]; rfl, hkeep.t1 rfl, hkeep.regs rfl⟩
  case write =>
    intro ld line e b s hs hpw hoff hf hld hallow hext hwait hrec hdir hb
    have hwrite := hostWrite_unheld (mask := 2 ^ 64 - 1) (b := b) hallow hwait hext hrec hdir
    dsimp only at hwrite
    rw [if_pos (by decide), slice_self hb] at hwrite
    obtain ⟨t, hexec, hkeep⟩ := exec_hostMemWrite_answered hoff hld hf (.inl hallow) (firstReady_of_waiting (by rw [hwrite]; exact hwait))
    rw [hwrite] at hkeep
    obtain ⟨hline, helse, hpoison⟩ := t1Write_line (s := s.bump Ctr.cwpHostWrites) hs hb (s.devLine e line)
    have ht1 := hkeep.t1 rfl
    refine ⟨t, hexec, hkeep.out rfl, fun i hi => ?_, fun a ha => ?_, ?_⟩
    · rw [ht1]
      exact hline i hi
    · rw [ht1]
      exact helse a ha
    · rw [hkeep.cwp rfl]
      exact (congrArg (tget · _) hpoison).trans (tget_tdel_self _ _ hpw)
  case partialWrite =>
    intro ld line e mask b s hoff hf hld hallow hext hwait hrec hdir hmask hp
    have hwrite := hostWrite_unheld (mask := mask) (b := b) hallow hwait hext hrec hdir
    dsimp only at hwrite
    rw [if_neg hmask, if_pos hp] at hwrite
    obtain ⟨t, hexec, hkeep⟩ := exec_hostMemWrite_answered hoff hld hf (.inl hallow) (firstReady_of_waiting (by rw [hwrite]; exact hwait))
    rw [hwrite] at hkeep
    exact ⟨t, hexec, hkeep.out rfl, hkeep.t0 rfl, hkeep.t1 rfl, hkeep.t2 rfl, hkeep.t3 rfl, by rw [hkeep.cwp rfl]; rfl, hkeep.regs rfl⟩
  case fenced =>
    intro ld line mask grant b s hoff hf hld
    rw [exec_hostMemRead, exec_hostMemWrite, hostMemRead_fenced hoff hld hf, hostMemWrite_fenced hoff hld hf]
    exact ⟨rfl, rfl⟩
  case denied =>
    intro ld line mask grant b s hoff hf hld hallow hwait hlimit hdeny
    have hread := (hostRead_denied (grant := grant) hallow).trans (by rw [deny_again hdeny])
    have hwrite := (hostWrite_denied (mask := mask) (b := b) hallow).trans (by rw [deny_again hdeny])
    obtain ⟨t, hexec, hkeep⟩ := exec_hostMemRead_answered (grant := grant) hoff hld hf (.inr (by rw [hread]; exact hlimit))
      (firstReady_of_waiting (by rw [hread]; exact hwait))
    obtain ⟨u, hexec', hkeep'⟩ := exec_hostMemWrite_answered (mask := mask) (b := b) hoff hld hf (.inr (by rw [hwrite]; exact hlimit))
      (firstReady_of_waiting (by rw [hwrite]; exact hwait))
    rw [hread] at hkeep
    rw [hwrite] at hkeep'
    exact ⟨t, u, hexec, hexec', hkeep.out rfl, hkeep'.out rfl, hkeep.ctrs rfl, hkeep'.ctrs rfl, hkeep.t1 rfl, hkeep'.t1 rfl,
      by rw [hkeep.cwp rfl]; rfl, by rw [hkeep'.cwp rfl]; rfl, hkeep.regs rfl, hkeep'.regs rfl⟩

end Sys2Proof.Machine

/-!
The extents of the state window: their commands, the end of a removal and the end of a wipe (12 R403, R405, R406).
-/
namespace Sys2Proof.Machine

open Sys2Proof

theorem exec_extentAssign (c : Cmd) (s : State) : exec (.extentAssign c) s = .next (hostCmd 0x0601 c (extentAssign c) s) := rfl
theorem exec_extentAddHosts (c : Cmd) (s : State) : exec (.extentAddHosts c) s = .next (hostCmd 0x0602 c (extentAddHosts c) s) := rfl
theorem exec_extentRemove (c : Cmd) (s : State) : exec (.extentRemove c) s = .next (hostCmd 0x0603 c (extentRemove c) s) := rfl
theorem exec_extentDrainBound (e : Nat) (s : State) :
    exec (.extentDrainBound e) s = .next (powered (fun s => settleWaits (removalFinish e s)) s) := rfl
theorem exec_extentWipeDone (e : Nat) (s : State) : exec (.extentWipeDone e) s = .next (powered (extentWipeDone e) s) := rfl

section Commands

variable {c : Cmd} {s : State}

/-- EXTENT_ASSIGN, once well formed, asks for a FREE extent and for free ranges (R403). -/
theorem extentAssign_wf (hargs : c.argsOk [(0, 16)] = true) (hlen : c.dlen = 0) (hrange : c.arg 0 1 < 64 ∧ c.arg 1 1 < 16) (hsize : 1 ≤ c.arg 8 4) :
    extentAssign c s = need (s.extState (c.arg 0 1) == extFree) .extentState
      (need (decide (c.arg 4 4 + c.arg 8 4 ≤ s.getF Reg.cwpWindowSize) &&
          decide ((c.arg 0xC 4 + c.arg 8 4) * 2 ^ 28 ≤ s.directSize (c.arg 1 1) 1) &&
          !(List.range 64).any fun x => s.extState x != extFree && overlaps (c.arg 4 4) (c.arg 8 4) (s.getF (Reg.cwpExtentWbase x)) (s.getF (Reg.cwpExtentSize x)))
        .windowRange
        (.done ([(Reg.cwpExtentWbase (c.arg 0 1), c.arg 4 4), (Reg.cwpExtentSize (c.arg 0 1), c.arg 8 4),
          (Reg.cwpExtentPartition (c.arg 0 1), c.arg 1 1), (Reg.cwpExtentHosts (c.arg 0 1), c.arg 2 2), (Reg.cwpExtentOrphans (c.arg 0 1), 0),
          (Reg.cwpExtentTbase (c.arg 0 1), c.arg 0xC 4), (Reg.cwpExtentState (c.arg 0 1), extActive)].foldl (fun s f => s.setF f.1 f.2) s) {})) := by
  simp only [extentAssign, hargs, hlen, hrange, hsize, decide_true, Bool.and_true, need_true]
  rfl

theorem extentAddHosts_active (hargs : c.argsOk [(0, 1), (2, 2)] = true) (hlen : c.dlen = 0) (hrange : c.arg 0 1 < 64)
    (hstate : s.extState (c.arg 0 1) = extActive) :
    extentAddHosts c s = .done (s.setF (Reg.cwpExtentHosts (c.arg 0 1)) ((maskBits 16 (c.arg 2 2)).foldl
      (fun h b => if bit (s.getF (Reg.cwpExtentOrphans (c.arg 0 1))) b then h else setBit h b) (s.getF (Reg.cwpExtentHosts (c.arg 0 1))))) {} := by
  simp only [extentAddHosts, hargs, hlen, hrange, hstate, decide_true, Bool.and_true, need_true, beq_self_eq_true]

/-- EXTENT_REMOVE, once well formed, asks for an ACTIVE or ORPHANED extent that lists every host of the mask. -/
theorem extentRemove_refused (hargs : c.argsOk [(0, 1), (2, 2)] = true) (hlen : c.dlen = 0) (hrange : c.arg 0 1 < 64)
    (h : (s.extState (c.arg 0 1) ≠ extActive ∧ s.extState (c.arg 0 1) ≠ extOrphaned) ∨
      (maskBits 16 (c.arg 2 2)).all (fun b => bit (s.getF (Reg.cwpExtentHosts (c.arg 0 1))) b || bit (s.getF (Reg.cwpExtentOrphans (c.arg 0 1))) b) = false) :
    extentRemove c s = .fail .extentState := by
  simp only [extentRemove, hargs, hlen, hrange, decide_true, Bool.and_true, need_true]
  rcases h with ⟨hact, horph⟩ | hmask
  · rw [beq_eq_false_iff_ne.2 hact, beq_eq_false_iff_ne.2 horph]
    rfl
  · rw [hmask]
    cases s.extState (c.arg 0 1) == extActive || s.extState (c.arg 0 1) == extOrphaned <;> rfl

/-- The state in which a removal has begun (R405, step 1). -/
abbrev removalBegun (c : Cmd) (s : State) : State :=
  ({ s with cwp := { s.cwp with removals := tset s.cwp.removals (c.arg 0 1) { mask := c.arg 2 2, cmd := some c } } }).setF
    (Reg.cwpExtentState (c.arg 0 1)) extRemoving

/-- With a live host in the mask it recalls what the hosts hold, and waits (R405, step 3). -/
theorem extentRemove_live (hargs : c.argsOk [(0, 1), (2, 2)] = true) (hlen : c.dlen = 0) (hrange : c.arg 0 1 < 64)
    (hstate : s.extState (c.arg 0 1) = extActive ∨ s.extState (c.arg 0 1) = extOrphaned)
    (hmask : (maskBits 16 (c.arg 2 2)).all (fun b => bit (s.getF (Reg.cwpExtentHosts (c.arg 0 1))) b || bit (s.getF (Reg.cwpExtentOrphans (c.arg 0 1))) b) = true)
    (hlive : (maskBits 16 (c.arg 2 2)).any (bit (s.getF (Reg.cwpExtentHosts (c.arg 0 1)))) = true) :
    extentRemove c s = .wait ((maskBits 16 (c.arg 2 2)).foldl
      (fun s host => (s.extLinesHeld (c.arg 0 1) host).foldl (fun s l => sendRecall l host true s) s) (removalBegun c s)) := by
  have hfrom : (s.extState (c.arg 0 1) == extActive || s.extState (c.arg 0 1) == extOrphaned) = true := by simpa using hstate
  simp only [extentRemove, hargs, hlen, hrange, decide_true, Bool.and_true, need_true, hfrom, hmask]
  exact if_pos hlive

end Commands

-- The end of a removal at its bound (R405)

section RemovalFinish

variable {e : Nat} {s : State}

theorem exclusiveOf_nil (hdir : s.cwp.dir = []) (ld : Nat) : s.exclusiveOf ld = [] := by
  simp [State.exclusiveOf, hdir]

/-- A host that holds nothing loses nothing. -/
theorem poisonExclusive_nil (hdir : s.cwp.dir = []) (ld cause : Nat) (within : Nat → Bool) : poisonExclusive ld cause within s = s := by
  simp [poisonExclusive, exclusiveOf_nil hdir]

theorem forgetHost_nil (hdir : s.cwp.dir = []) (hrec : s.cwp.recalls = []) (ld : Nat) (within : Nat → Bool) : forgetHost ld within s = s := by
  have hkeys : tkeys s.cwp.dir = [] := by rw [hdir]; rfl
  simp only [forgetHost, hkeys, List.foldl_nil, hrec, List.filter_nil]
  rw [← hrec]

/-- Hosts that hold nothing leave nothing. -/
theorem forgetHosts_nil (hdir : s.cwp.dir = []) (hrec : s.cwp.recalls = []) (within : Nat → Bool) (hosts : List Nat) (cause : Nat) :
    hosts.foldl (fun s h => forgetHost h within (poisonExclusive h cause within s)) s = s :=
  List.foldlRecOn (motive := (· = s)) _ _ rfl fun t ht h _ => by
    rw [ht, poisonExclusive_nil hdir, forgetHost_nil hdir hrec]

theorem poisonedCount_nil (hdir : s.cwp.dir = []) (within : Nat → Bool) (hosts : List Nat) :
    (hosts.map fun h => ((s.exclusiveOf h).filter within).length).sum = 0 := by
  simp [exclusiveOf_nil hdir]

theorem clrBit_le (v i : Nat) : clrBit v i ≤ v := by
  unfold clrBit
  split
  · exact Nat.sub_le ..
  · exact Nat.le_refl v

theorem foldl_clrBit_le (l : List Nat) (v : Nat) : l.foldl clrBit v ≤ v :=
  List.foldlRecOn (motive := (· ≤ v)) _ _ (Nat.le_refl v) fun _ h i _ => (clrBit_le _ i).trans h

theorem extState_setF {v : Nat} (hv : v < 2 ^ 3) (hne : v ≠ 0) (s : State) : (s.setF (Reg.cwpExtentState e) v).extState e = v :=
  getF_setF_listed hv hne s

/-- The hosts that are left stand in HOSTS, whatever is written beside it. -/
theorem hosts_hostsRemoved {mask v : Nat} (hwidth : s.getF (Reg.cwpExtentHosts e) < 2 ^ 16)
    (hleft : (maskBits 16 mask).foldl clrBit (s.getF (Reg.cwpExtentHosts e)) ≠ 0) :
    ((s.setF (Reg.cwpExtentHosts e) ((maskBits 16 mask).foldl clrBit (s.getF (Reg.cwpExtentHosts e)))).setF (Reg.cwpExtentOrphans e) v).getF
      (Reg.cwpExtentHosts e) ≠ 0 := by
  rw [State.getF_setF_other _ _ _ _ (by simp only [Fld.key, Reg.cwpExtentHosts, Reg.cwpExtentOrphans]; omega),
    getF_setF_listed ((foldl_clrBit_le _ _).trans_lt hwidth) hleft]
  exact hleft

theorem removalNext_hosts (hhosts : s.getF (Reg.cwpExtentHosts e) ≠ 0) : removalNext e s = s.setF (Reg.cwpExtentState e) extActive := by
  rw [removalNext, if_pos hhosts]

/-- The state once the hosts of a mask have left an extent that keeps others (R404). -/
abbrev hostsRemoved (e mask : Nat) (s : State) : State :=
  ((s.setF (Reg.cwpExtentHosts e) ((maskBits 16 mask).foldl clrBit (s.getF (Reg.cwpExtentHosts e)))).setF (Reg.cwpExtentOrphans e)
    ((maskBits 16 mask).foldl clrBit (s.getF (Reg.cwpExtentOrphans e)))).setF (Reg.cwpExtentState e) extActive

/-- At its bound a removal of hosts that hold nothing, from an extent that keeps others, ends with nothing poisoned. -/
theorem removalFinish_unheld {r : Removal} {c : Cmd} (hr : tget s.cwp.removals e = some r) (hwip : r.wiping = false) (hcmd : r.cmd = some c)
    (hdir : s.cwp.dir = []) (hrec : s.cwp.recalls = []) (hwait : s.cwp.waiting = []) (hwidth : s.getF (Reg.cwpExtentHosts e) < 2 ^ 16)
    (hleft : (maskBits 16 r.mask).foldl clrBit (s.getF (Reg.cwpExtentHosts e)) ≠ 0) :
    removalFinish e s = complete c { result0 := 0 }
      { hostsRemoved e r.mask s with cwp := { s.cwp with removals := tdel s.cwp.removals e } } := by
  unfold removalFinish
  simp -zeta only [hr, hwip, Bool.false_eq_true, if_false]
  extract_lets within discard ends gone cwp s1 s2 hosts n s3 s4 s5
  have hs1 : s1 = s := by
    unfold s1
    rw [hwait, List.filter_nil, ← hwait]
  have hs2 : s2 = s := by
    unfold s2 gone
    rw [hwait, List.filter_nil, List.foldl_nil, hs1]
  have hn : n = 0 := poisonedCount_nil (by rw [hs2]; exact hdir) within hosts
  have hs3 : s3 = s := by
    unfold s3
    rw [hs2]
    exact forgetHosts_nil hdir hrec within hosts 2
  have hs5 : s5 = hostsRemoved e r.mask s := by
    unfold s5 s4 hosts
    rw [hs3]
    exact removalNext_hosts (hosts_hostsRemoved hwidth hleft)
  clear_value n s5
  subst hs5 hn
  have hactive : (hostsRemoved e r.mask s).extState e ≠ extWiping := by
    rw [extState_setF (by decide) (by decide)]
    decide
  rw [if_neg hactive, hcmd]
  rfl

end RemovalFinish

-- The end of a wipe (R406)

/-- A filter by address keeps the bytes of the addresses that pass. -/
theorem memGet_filter (p : Nat → Bool) (m : List Host.Cell) (i : Nat) : memGet (m.filter fun c => p c.1) i = if p i then memGet m i else 0 := by
  induction m with
  | nil => exact (ite_self _).symm
  | cons c m ih =>
    obtain ⟨a, b⟩ := c
    by_cases ha : a = i
    · subst ha
      cases hp : p a <;> simp [hp, memGet, ih]
    · cases hp : p a <;> simp [hp, memGet, ih, ha]

theorem memGet_memZero (m : List Host.Cell) (a n i : Nat) : memGet (memZero m a n) i = if a ≤ i ∧ i < a + n then 0 else memGet m i := by
  rw [memZero, memGet_filter fun x => decide (x < a) || decide (a + n ≤ x)]
  by_cases h : a ≤ i ∧ i < a + n
  · rw [if_pos h, if_neg]
    simpa using h
  · rw [if_neg h, if_pos]
    simp only [Bool.or_eq_true, decide_eq_true_eq]
    omega

/-- A range overwritten with zeros reads 0, and its tier alone changes. -/
theorem zeroRange_tier (k a n : Nat) (s : State) {j : Nat} (hk : k < 4) (hj : j < 4) :
    (zeroRange k a n s).tier j = if j = k then memZero (s.tier k) a n else s.tier j :=
  tier_setTier s k j _ hk hj

/-- The state with an extent's lines zeroed, the extent FREE and its removal over. -/
def extentFreed (e : Nat) (s : State) : State :=
  let u := ((zeroRange 1 (s.extDevice e * 64) (s.extLines e * 64) s).setF (Reg.cwpExtentState e) extFree).bump Ctr.cwpExtentsWiped
  { u with cwp := { u.cwp with removals := tdel u.cwp.removals e } }

/-- The end of the command that a removal completes, if it has one. -/
def removalAnswered (r : Removal) (s : State) : State :=
  match r.cmd with
  | some c => complete c { result0 := r.poisoned } s
  | none => s

theorem extentWipeDone_wiping {e : Nat} {s : State} (he : e < 64) (hstate : s.extState e = extWiping) :
    extentWipeDone e s = settleWaits (removalAnswered (tgetD s.cwp.removals e { mask := 0, cmd := none }) (extentFreed e s)) :=
  if_neg (not_or.2 ⟨Nat.not_le.2 he, not_not.2 hstate⟩)

/-- Settles O24: each command past its checks, a removal that finds nothing held (`removalFinish_unheld`), and the wipe's end. -/
theorem extentCommands : Obligations.ExtentCommands := by
  unfold Obligations.ExtentCommands
  refine ⟨?assign, ?notFree, ?add, ?remove, ?notRemoved, ?bound, ?wipeDone, ?zero⟩
  case assign =>
    intro c s ha hargs hlen hrange hsize hfree hwindow hdirect hmeet
    rw [exec_extentAssign, hostCmd_done ha]
    rw [extentAssign_wf hargs hlen hrange hsize, hfree, beq_self_eq_true, need_true, decide_eq_true hwindow, decide_eq_true hdirect, hmeet]
    rfl
  case notFree =>
    intro c s ha hargs hlen hrange hsize hstate
    rw [exec_extentAssign, hostCmd_fail ha]
    rw [extentAssign_wf hargs hlen hrange hsize, beq_eq_false_iff_ne.2 hstate, need_false]
  case add =>
    intro c s ha hargs hlen hrange hstate
    rw [exec_extentAddHosts, hostCmd_done ha (extentAddHosts_active hargs hlen hrange hstate)]
  case remove =>
    intro c s ha hargs hlen hrange hstate hmask hlive
    rw [exec_extentRemove, hostCmd_wait ha (extentRemove_live hargs hlen hrange hstate hmask hlive)]
  case notRemoved =>
    intro c s ha hargs hlen hrange h
    rw [exec_extentRemove, hostCmd_fail ha (extentRemove_refused hargs hlen hrange h)]
  case bound =>
    intro e r c s hoff hr hwip hcmd hdir hrec hwait _ ⟨hwidth, _⟩ hleft
    rw [exec_extentDrainBound, powered_of_on hoff, removalFinish_unheld hr hwip hcmd hdir hrec hwait hwidth hleft]
  case wipeDone =>
    intro e s hoff he hstate _
    rw [exec_extentWipeDone, powered_of_on hoff, extentWipeDone_wiping he hstate]
    rfl
  case zero =>
    intro k a n s _ hk
    have hkeep := zeroRange_keep k a n s
    refine ⟨fun x => ?_, fun j hj hjk => ?_, hkeep.regs rfl, hkeep.ssq rfl rfl rfl rfl rfl rfl rfl rfl rfl⟩
    · rw [zeroRange_tier k a n s hk hk, if_pos rfl, memGet_memZero]
    · rw [zeroRange_tier k a n s hk hj, if_neg hjk]

end Sys2Proof.Machine

/-!
Recalls, dead hosts, logical devices and the host link (12 R377-R379, R393, R398, R407, R408, 14 R459, R460).
-/
namespace Sys2Proof.Machine

open Sys2Proof

theorem exec_bisnpResponse (host line : Nat) (data : Option (List Byte)) (s : State) :
    exec (.bisnpResponse host line data) s = .next (powered (bisnpResponse host line data) s) := rfl
theorem exec_recallTimeout (host line : Nat) (s : State) : exec (.recallTimeout host line) s = .next (powered (recallTimeout host line) s) := rfl
theorem exec_hostIoRequest (ld : Nat) (req : IoRequest) (s : State) : exec (.hostIoRequest ld req) s = .next (hostIoRequest ld req s) := rfl
theorem exec_ldBind (ld : Nat) (s : State) : exec (.ldBind ld) s = .next (ldBind ld s) := rfl
theorem exec_ldReset (ld : Nat) (s : State) : exec (.ldReset ld) s = .next (ldReset ld s) := rfl
theorem exec_hostLinkUp (width : Nat) (mld : Bool) (s : State) : exec (.hostLinkUp width mld) s = .next (hostLinkUp width mld s) := rfl
theorem exec_hostLinkDown (s : State) : exec .hostLinkDown s = .next (powered linkLost s) := rfl

-- Recalls (R398, R407)

section Recalls

variable {host line e : Nat} {r : Recall} {s : State}

/-- A response without data takes the recall away, and the host's hold with it if the recall was BISnpInv. -/
theorem bisnpResponse_clean (hr : (s.cwp.recalls.find? fun r => r.line == line && r.host == host) = some r) (hinv : r.inv = true) :
    bisnpResponse host line none s = settleWaits (removalRecall line host (dropHolder line host
      { s with cwp := { s.cwp with recalls := s.cwp.recalls.filter (· != r) } })) := by
  unfold bisnpResponse
  rw [hr]
  simp only [hinv, if_true]

/-- A response with data to BISnpData writes the owner's line back and leaves it a Shared copy. -/
theorem bisnpResponse_dirty {b : List Byte} (hr : (s.cwp.recalls.find? fun r => r.line == line && r.host == host) = some r) (hinv : r.inv = false)
    (howned : s.ownedBy line host = true) (hext : s.extentOf line = some e) :
    bisnpResponse host line (some b) s =
      let u := s.t1Write (s.devLine e line * 64) (slice b 0 64)
      settleWaits (removalRecall line host (shareHolder line host { u with cwp := { u.cwp with recalls := s.cwp.recalls.filter (· != r) } })) := by
  unfold bisnpResponse
  rw [hr]
  simp only [hinv, hext, howned, if_true, Bool.false_eq_true, if_false, t1Write_recalls]

theorem bisnpResponse_none (hr : (s.cwp.recalls.find? fun r => r.line == line && r.host == host) = none) (data : Option (List Byte)) :
    bisnpResponse host line data s = s := by
  unfold bisnpResponse
  simp only [hr]

theorem recallTimeout_none (hr : (s.cwp.recalls.find? fun r => r.line == line && r.host == host) = none) : recallTimeout host line s = s := by
  have hany : (s.cwp.recalls.any fun r => r.line == line && r.host == host) = false := by
    rw [List.any_eq_false]
    exact List.find?_eq_none.1 hr
  rw [recallTimeout, hany, if_neg Bool.false_ne_true]

end Recalls

-- Dead hosts (R408)

section Dead

variable {ld : Nat} {s : State}

/-- An extent that does not list a host is left as it is. -/
theorem orphanHost_unlisted {e : Nat} (h : s.extState e = extFree ∨ bit (s.getF (Reg.cwpExtentHosts e)) ld = false) : orphanHost ld e s = s :=
  if_pos h

theorem orphanHosts_unlisted
    (h : (List.range 64).all (fun e => s.extState e == extFree || !bit (s.getF (Reg.cwpExtentHosts e)) ld) = true) :
    (List.range 64).foldl (fun s e => orphanHost ld e s) s = s :=
  List.foldlRecOn (motive := (· = s)) _ _ rfl fun t ht e he => by
    rw [ht]
    exact orphanHost_unlisted (by simpa using List.all_eq_true.1 h e he)

/-- A host that holds nothing, that no extent lists and whose LD presents no function is only noted dead. -/
theorem hostDead_holding_nothing {cause : Nat} (hdir : s.cwp.dir = []) (hrec : s.cwp.recalls = []) (hwait : s.cwp.waiting = [])
    (hfn : s.functionsOf ld = [])
    (hext : (List.range 64).all (fun e => s.extState e == extFree || !bit (s.getF (Reg.cwpExtentHosts e)) ld) = true) :
    hostDead ld cause s = logEv .cwpHostDead pCwp 0xFF [ld, cause, 0]
      ((s.setF Reg.cwpHostsDead (setBit (s.getF Reg.cwpHostsDead) ld)).bump Ctr.cwpHostsDead) := by
  unfold hostDead
  extract_lets n s1 s2 cwp s3 s4 s5 s6
  have hs2 : s2 = s := by
    unfold s2 s1
    rw [poisonExclusive_nil hdir, forgetHost_nil hdir hrec]
  have hs3 : s3 = s := by
    unfold s3 cwp
    rw [hs2, hwait, List.filter_nil, ← hwait]
  have hs4 : s4 = s := by
    unfold s4
    rw [hs3]
    exact orphanHosts_unlisted hext
  have hn : n = 0 := by
    unfold n
    rw [exclusiveOf_nil hdir]
    rfl
  have hs6 : s6 = logEv .cwpHostDead pCwp 0xFF [ld, cause, 0]
      ((s.setF Reg.cwpHostsDead (setBit (s.getF Reg.cwpHostsDead) ld)).bump Ctr.cwpHostsDead) := by
    unfold s6 s5
    rw [hs4, hn]
  have hfns : s6.functionsOf ld = [] := by
    obtain ⟨msix, hhif⟩ := hif_logFull ((s.setF Reg.cwpHostsDead (setBit (s.getF Reg.cwpHostsDead) ld)).bump Ctr.cwpHostsDead) .cwpHostDead pCwp 0 0xFF 0 0
      [ld, cause, 0]
    rw [hs6, State.functionsOf, logEv, hhif]
    exact hfn
  rw [hfns]
  exact hs6

end Dead

-- What a request counts (14 R459, R460)

section Count

variable {ld fn : Nat} {s : State}

theorem hostIoRequest_served {req : IoRequest} (hoff : s.mgc.off = false) (hld : ld < 16) :
    hostIoRequest ld req s = settleWaits (hostPartner ld true (logEv .hifProtocol pHif 0xFF [ld, fieldAt req.header 0 8, fieldAt req.header 8 8]
      (s.emit (.ioError ld (req.abort && !s.hif.isolated.contains ld))))) := by
  simp [hostIoRequest, hoff, hld]

/-- The first request of an LD's window is the one seen. -/
theorem hostPartner_first {bad : Bool} (hnew : tgetD s.frc.hosts ld {} = {}) (h : bad = false ∨ 1 < s.getF Reg.frcPartnerHostLimit) :
    hostPartner ld bad s = { s with frc := { s.frc with hosts := tset s.frc.hosts ld { bad := if bad then 1 else 0, seen := 1 } } } := by
  rw [hostPartner_within (h.imp_right fun h => .inr (by rw [hnew]; exact h)), partnerCounted, hnew]
  cases bad <;> rfl

theorem countIo_presented (hp : (s.hif.presented.find? fun p => p.2 == fn && !s.hif.isolated.contains p.1) = some (ld, fn))
    (hseen : (tgetD s.frc.hosts ld {}).seen + 1 < 2 ^ 20) :
    countIo fn s = { s with frc := { s.frc with hosts := tset s.frc.hosts ld { bad := (tgetD s.frc.hosts ld {}).bad, seen := (tgetD s.frc.hosts ld {}).seen + 1 } } } := by
  have hcount : ((tgetD s.frc.hosts ld {}).count 1 false).1 = { bad := (tgetD s.frc.hosts ld {}).bad, seen := (tgetD s.frc.hosts ld {}).seen + 1 } :=
    if_neg (Nat.not_le.2 hseen)
  rw [countIo, hp, Option.map_some]
  dsimp only
  rw [hcount]
  rfl

theorem countIo_unpresented (hp : s.hif.presented.all (fun p => p.2 != fn || s.hif.isolated.contains p.1) = true) : countIo fn s = s := by
  have hnone : (s.hif.presented.find? fun p => p.2 == fn && !s.hif.isolated.contains p.1) = none := by
    rw [List.find?_eq_none]
    intro p hmem hserves
    have hgone := List.all_eq_true.1 hp p hmem
    simp only [Bool.and_eq_true, Bool.not_eq_true', beq_iff_eq] at hserves
    rw [hserves.1, hserves.2] at hgone
    simp at hgone
  rw [countIo, hnone]
  rfl

end Count

-- Logical devices and the link (R377-R379, R393)

section Link

variable {ld : Nat} {s : State}

theorem ldBind_binds (hoff : s.mgc.off = false) (hld : ld < 16) (hup : s.flag Reg.hifLinkUp = true) (hmld : s.flag Reg.hifLinkMld = true)
    (hfree : bit (s.getF Reg.hifLinkBound) ld = false) : ldBind ld s = bindLd ld s := by
  simp [ldBind, hoff, hld, hup, hmld, hfree]

/-- Which functions an LD is to present stands outside LINK.BOUND. -/
theorem functionsFor_setBound (v : Nat) (s : State) (ld : Nat) : (s.setF Reg.hifLinkBound v).functionsFor ld = s.functionsFor ld := by
  have hmgmt : (s.setF Reg.hifLinkBound v).getF Reg.hifMgmtLd = s.getF Reg.hifMgmtLd := State.getF_setF_other _ _ _ _ (by decide)
  have hbind : ∀ n, (s.setF Reg.hifLinkBound v).getF (Reg.hifPbFuncBindLd n) = s.getF (Reg.hifPbFuncBindLd n) := fun n =>
    State.getF_setF_other _ _ _ _ (by simp only [Fld.key, Reg.hifLinkBound, Reg.hifPbFuncBindLd]; omega)
  have hstate : ∀ n, (s.setF Reg.hifLinkBound v).pstate n = s.pstate n := fun n =>
    State.getF_setF_other _ _ _ _ (by simp only [Fld.key, Reg.hifLinkBound, Reg.mgcPbCtrlState]; omega)
  simp only [State.functionsFor, hmgmt, hbind, hstate]

/-- An LD without functions to present is bound, and its isolation ends. -/
theorem bindLd_without_functions (hfns : s.functionsFor ld = []) :
    bindLd ld s = showPresent { s.setF Reg.hifLinkBound (setBit (s.getF Reg.hifLinkBound) ld) with
      hif := { s.hif with isolated := s.hif.isolated.filter (· != ld) } } := by
  rw [bindLd, functionsFor_setBound, hfns]
  simp only [List.filter_nil, List.map_nil, List.append_nil, State.setF_hif]

theorem ldReset_bound (hoff : s.mgc.off = false) (hld : ld < 16) (hbound : bit (s.getF Reg.hifLinkBound) ld = true) :
    ldReset ld s = settleWaits (unbindLd ld (if s.inHosts ld then hostDead ld 1 (s.bump Ctr.hifLdResets) else s.bump Ctr.hifLdResets)) :=
  if_neg (by simp [hoff, hld, hbound])

theorem hostLinkUp_down {width : Nat} {mld : Bool} (hoff : s.mgc.off = false) (hperst : s.mgc.perstHeld = false) (hdown : s.flag Reg.hifLinkUp = false) :
    hostLinkUp width mld s =
      let u := ((s.setF Reg.hifLinkUp 1).setF Reg.hifLinkWidth width).setFlag Reg.hifLinkMld mld
      if mld then u else bindLd 0 u :=
  if_neg (by simp [hoff, hperst, hdown])

/-- The loss of a link without a bound LD deletes the queues of every function. -/
theorem linkLost_unbound (hup : s.flag Reg.hifLinkUp = true) (hbound : s.getF Reg.hifLinkBound = 0) :
    linkLost s = settleWaits ((List.range 17).foldl (fun s fn => loseQueues fn s)
      (((s.setF Reg.hifLinkUp 0).setF Reg.hifLinkWidth 0).bump Ctr.hifLinkDowns)) := by
  have hnone : (((s.setF Reg.hifLinkUp 0).setF Reg.hifLinkWidth 0).bump Ctr.hifLinkDowns).getF Reg.hifLinkBound = 0 := by
    rw [getF_bump, State.getF_setF_other _ _ _ _ (by decide), State.getF_setF_other _ _ _ _ (by decide), hbound]
  have hhosts : maskBits 16 0 = [] := by decide
  rw [linkLost, hup, if_neg (by decide)]
  dsimp only
  rw [hnone, hhosts, List.foldl_nil]

theorem linkLost_down (hdown : s.flag Reg.hifLinkUp = false) : linkLost s = s := by
  rw [linkLost, hdown]
  rfl

end Link

/-- Settles O26: the answer to a recall by what it recalled, a host that holds nothing (`hostDead_holding_nothing`), the window of an LD's requests,
and each row of the link by its guard. -/
theorem recallsAndDeadHosts : Obligations.RecallsAndDeadHosts := by
  unfold Obligations.RecallsAndDeadHosts
  refine ⟨?clean, ?dirty, ?kept, ?norecall, ?timeout, ?dead, ?io, ?partner, ?count, ?uncounted, ?bind, ?bound, ?reset, ?linkUp, ?linkDown, ?isDown⟩
  case clean =>
    intro host line r s hoff hr hinv
    rw [exec_bisnpResponse, powered_of_on hoff, bisnpResponse_clean hr hinv]
  case dirty =>
    intro host line e b r s hoff hr hinv howned hext u
    rw [exec_bisnpResponse, powered_of_on hoff, bisnpResponse_dirty hr hinv howned hext]
  case kept =>
    intro line host e s hext hstate
    exact removalRecall_kept hext hstate host
  case norecall =>
    intro host line data s hr
    rw [exec_bisnpResponse, exec_recallTimeout, powered_of_eq (bisnpResponse_none hr data), powered_of_eq (recallTimeout_none hr)]
    exact ⟨rfl, rfl⟩
  case timeout =>
    intro host line s hoff hany
    rw [exec_recallTimeout, powered_of_on hoff, recallTimeout, if_pos hany]
  case dead =>
    intro ld cause s hdir hrec hwait hfn hext
    exact hostDead_holding_nothing hdir hrec hwait hfn hext
  case io =>
    intro ld req s hoff hld
    rw [exec_hostIoRequest, hostIoRequest_served hoff hld]
  case partner =>
    intro ld bad s hnew h
    exact hostPartner_first hnew h
  case count =>
    intro ld fn s hp hseen
    exact countIo_presented hp hseen
  case uncounted =>
    intro fn s hp
    exact countIo_unpresented hp
  case bind =>
    intro ld s hoff hld hup hmld hfree
    rw [exec_ldBind, ldBind_binds hoff hld hup hmld hfree]
  case bound =>
    intro ld s _ _ hfns
    exact bindLd_without_functions hfns
  case reset =>
    intro ld s hoff hld hbound
    rw [exec_ldReset, ldReset_bound hoff hld hbound]
  case linkUp =>
    intro width mld s hoff hperst hdown u
    rw [exec_hostLinkUp, hostLinkUp_down hoff hperst hdown]
  case linkDown =>
    intro s hoff hup hbound
    rw [exec_hostLinkDown, powered_of_on hoff, linkLost_unbound hup hbound]
  case isDown =>
    intro s hdown
    rw [exec_hostLinkDown, powered_of_eq (linkLost_down hdown)]

end Sys2Proof.Machine

/-!
A step and the fuses: a step runs the command at the front of the queue (95), and no command lowers a fuse (13 R438, R442, R446).
-/
namespace Sys2Proof.Machine

open Sys2Proof

/-- Settles O1: the first clause is the definition of `step`; `exec_runs` and `exec_pending` say the last. -/
theorem stepTakesFront : Obligations.StepTakesFront := by
  unfold Obligations.StepTakesFront
  refine ⟨fun c rest s => rfl, ?empty, ?runs⟩
  case empty =>
    intro s hempty
    simp [step, hempty]
  case runs =>
    intro c s
    obtain ⟨t, ht⟩ := exec_runs c s
    exact ⟨t, ht, exec_pending ht⟩

section Fuses

variable {c : Instr} {s t : State}

/-- A step takes the fuses no lower: the command at the front of the queue runs on the same fuses. -/
theorem step_fuses (h : step s = .next t) : FuseLe s.sec.fuses t.sec.fuses := by
  cases hq : s.pending with
  | nil =>
    simp only [step, hq] at h
    cases h
    exact FuseLe.rfl
  | cons c rest =>
    simp only [step, hq] at h
    exact (exec_keep h).fuse

end Fuses

/-- Settles O58: each command takes the fuses no lower (`exec_keep`), so a run of them does not either, by induction on the commands. -/
theorem fusesOnlyRise : Obligations.FusesOnlyRise := by
  unfold Obligations.FusesOnlyRise
  refine ⟨?step, fun cs => ?run⟩
  case step =>
    intro s t hok h
    obtain ⟨hlife, hsvn, hok'⟩ := step_fuses h hok
    exact ⟨hok', hlife, hsvn⟩
  case run =>
    induction cs with
    | nil =>
      intro s t _ h
      cases h
      exact ⟨Nat.le_refl _, Nat.le_refl _⟩
    | cons c cs ih =>
      intro s t hok h
      obtain ⟨u, hu⟩ := exec_runs c s
      obtain ⟨hlife, hsvn, hok'⟩ := (exec_keep hu).fuse hok
      simp only [List.foldl_cons, Option.bind_some, hu] at h
      obtain ⟨hlife', hsvn'⟩ := ih u t hok' h
      exact ⟨hlife.trans hlife', hsvn.trans hsvn'⟩

end Sys2Proof.Machine

/-!
Without power (14 R459, 15 R480): a device without power still counts the requests of a host's function that it presents.
-/
namespace Sys2Proof.Machine

open Sys2Proof

/-- A device without power that presents function 1 to LD 0. POWER_REMOVAL leaves no function presented, but O59's first clause does not ask for that. -/
def unpoweredPresented : State := { hif := { presented := [(0, 1)] }, mgc := { off := true } }

/-- Without power a function-level reset does nothing but be counted. -/
theorem exec_functionLevelReset_unpowered {fn : Nat} {s : State} (hoff : s.mgc.off = true) :
    exec (.functionLevelReset fn) s = .next (countIo fn s) := by
  rw [exec_functionLevelReset, powered, if_pos hoff]

/-- `countIo` enters the request at LD 0, which had none. -/
theorem hosts_countIo_unpoweredPresented : (countIo 1 unpoweredPresented).frc.hosts ≠ unpoweredPresented.frc.hosts := by
  decide

/-- Refutes O59: in `unpoweredPresented` a function-level reset through function 1 is not without effect, for the request is counted at its LD
(14 R459), and O59's first clause says that it leaves the state. -/
theorem not_withoutPower : ¬ Obligations.WithoutPower := by
  unfold Obligations.WithoutPower
  rintro ⟨hidle, -⟩
  have hsame := hidle (.functionLevelReset 1) unpoweredPresented rfl nofun
  rw [exec_functionLevelReset_unpowered rfl] at hsame
  exact hosts_countIo_unpoweredPresented (congrArg (·.frc.hosts) (Host.Outcome.next.inj hsame))

end Sys2Proof.Machine

/-!
Partitions, fuses and the lifecycle (13 R413-R419, R434, R438, R442): what the commands of a partition and of the fuses answer.
-/
namespace Sys2Proof.Machine

open Sys2Proof

-- The partition that a command names

section OnPartition

variable {c : Cmd} {from_ : List Nat} {k : Nat → State → Res} {s : State}

/-- A well formed partition command runs from a state that it starts from, and else ends with ST_PARTITION_STATE (13 R415). -/
theorem onPartition_wf (hargs : c.argsOk [(0, 1)] = true) (hlen : c.dlen = 0) (hn : c.arg 0 1 < 16) :
    onPartition c from_ k s = need (from_.contains (s.pstate (c.arg 0 1))) .partitionState (k (c.arg 0 1) s) := by
  simp only [onPartition, hargs, hlen, hn, decide_true, Bool.and_true, need_true]

theorem onPartition_starts {st : Nat} (hargs : c.argsOk [(0, 1)] = true) (hlen : c.dlen = 0) (hn : c.arg 0 1 < 16) (hstate : s.pstate (c.arg 0 1) = st) :
    onPartition c [st] k s = k (c.arg 0 1) s := by
  rw [onPartition_wf hargs hlen hn, hstate, show [st].contains st = true by simp, need_true]

/-- No partition command starts from WIPING (13 R415). -/
theorem onPartition_wiping (hargs : c.argsOk [(0, 1)] = true) (hlen : c.dlen = 0) (hn : c.arg 0 1 < 16) (hstate : s.pstate (c.arg 0 1) = psWiping)
    (hfrom : from_.contains psWiping = false) : onPartition c from_ k s = .fail .partitionState := by
  rw [onPartition_wf hargs hlen hn, hstate, hfrom, need_false]

end OnPartition

-- The partition commands

theorem exec_partitionConfigure (c : Cmd) (s : State) : exec (.partitionConfigure c) s =
    .next (hostCmd 0x0701 c (onPartition c [psUnconfigured] fun n s => .done (setPstate n psConfigured s) {}) s) := rfl
theorem exec_partitionRelease (c : Cmd) (s : State) : exec (.partitionRelease c) s =
    .next (hostCmd 0x0702 c (onPartition c [psConfigured] fun n s => .done (clearPartition n (setPstate n psUnconfigured s)) {}) s) := rfl
theorem exec_partitionLock (c : Cmd) (s : State) : exec (.partitionLock c) s = .next (hostCmd 0x0703 c (partitionLock c) s) := rfl
theorem exec_partitionStart (c : Cmd) (s : State) : exec (.partitionStart c) s = .next (hostCmd 0x0704 c (partitionStart c) s) := rfl
theorem exec_partitionDrain (c : Cmd) (s : State) : exec (.partitionDrain c) s = .next (hostCmd 0x0705 c (partitionDrain c) s) := rfl
theorem exec_replayBegin (c : Cmd) (s : State) : exec (.replayBegin c) s = .next (hostCmd 0x0707 c (replayBegin c) s) := rfl

/-- CTRL.STATE of a partition set and the change logged (13 R415). -/
theorem setPstate_logs {n old : Nat} {s : State} (st : Nat) (hold : s.pstate n = old) :
    setPstate n st s = logEv .mgcPartitionState pMgc n [old, st] (s.setF (Reg.mgcPbCtrlState n) st) := by
  rw [setPstate, hold]

/-- CONFIG_MEAS shown beside the resources that other blocks report (13 R413, R419). -/
abbrev lockMeasured (n : Nat) (s : State) : State :=
  showBytes (Reg.secPbConfigMeas n) 8 (configMeas (reportResources n s) n) (reportResources n s)

/-- A media key for a partition that is not protected (13 R434). -/
def mediaKeyed (n : Nat) (s : State) : State :=
  if s.isProtected n then s
  else
    let (k, s) := s.freshBytes 64
    { s with sec := { s.sec with mediaKeys := tset s.sec.mediaKeys n k } }

theorem mediaKeyed_eq (n : Nat) (s : State) : mediaKeyed n s =
    if s.isProtected n then s else { (s.freshBytes 64).2 with sec := { s.sec with mediaKeys := tset s.sec.mediaKeys n (s.freshBytes 64).1 } } := rfl

section Lock

variable {c : Cmd} {s : State} (hargs : c.argsOk [(0, 1)] = true) (hlen : c.dlen = 0) (hn : c.arg 0 1 < 16)
include hargs hlen hn

theorem partitionLock_passes (hstate : s.pstate (c.arg 0 1) = psConfigured) (hcheck : lockCheck s (c.arg 0 1) = none) :
    partitionLock c s = .done (setPstate (c.arg 0 1) psLocked (mediaKeyed (c.arg 0 1) (lockMeasured (c.arg 0 1) s))) {} := by
  rw [partitionLock, onPartition_starts hargs hlen hn hstate, hcheck]
  rfl

theorem partitionLock_fails {st : Status} (hstate : s.pstate (c.arg 0 1) = psConfigured) (hcheck : lockCheck s (c.arg 0 1) = some st) :
    partitionLock c s = .fail st := by
  rw [partitionLock, onPartition_starts hargs hlen hn hstate, hcheck]

/-- Both keys of a protected partition must be loaded before it starts (13 R430). -/
theorem partitionStart_locked (hstate : s.pstate (c.arg 0 1) = psLocked) :
    partitionStart c s = need (keysReady s (c.arg 0 1)) .keyState (.done (setPstate (c.arg 0 1) psActive s) {}) := by
  rw [partitionStart, onPartition_starts hargs hlen hn hstate]

theorem replayBegin_locked (hstate : s.pstate (c.arg 0 1) = psLocked) :
    replayBegin c s = need (keysReady s (c.arg 0 1)) .keyState (.done (setPstate (c.arg 0 1) psReplay s) {}) := by
  rw [replayBegin, onPartition_starts hargs hlen hn hstate]

end Lock

/-- A drain completes once the partition has drained (13 R416). -/
theorem settleDrain_drained {n : Nat} {c : Cmd} {s : State} (hc : tget s.mgc.drains n = some c) (hdrained : drainedNow s n = true) :
    settleDrain n s = completeOne c {} { s with mgc := { s.mgc with drains := tdel s.mgc.drains n } } := by
  rw [settleDrain, hc]
  exact if_pos hdrained

/-- Settles O27: each command starts from its own state (`onPartition_starts`) and from no WIPING one (`onPartition_wiping`). -/
theorem partitionLifecycle : Obligations.PartitionLifecycle := by
  unfold Obligations.PartitionLifecycle
  refine ⟨?configure, ?release, ?lock, ?lockFails, ?start, ?replay, ?keys, ?drain, fun c n s => settleDrain_drained, ?wiping⟩
  case configure =>
    intro c s ha hargs hlen hn hstate
    rw [exec_partitionConfigure, hostCmd_done ha (onPartition_starts hargs hlen hn hstate), setPstate_logs _ hstate]
    rfl
  case release =>
    intro c s ha hargs hlen hn hstate
    rw [exec_partitionRelease, hostCmd_done ha (onPartition_starts hargs hlen hn hstate), setPstate_logs _ hstate]
    rfl
  case lock =>
    intro c s ha hargs hlen hn hstate hcheck _ _ u
    rw [exec_partitionLock, hostCmd_done ha (partitionLock_passes hargs hlen hn hstate hcheck), mediaKeyed_eq]
  case lockFails =>
    intro c st s ha hargs hlen hn hstate hcheck
    rw [exec_partitionLock, hostCmd_fail ha (partitionLock_fails hargs hlen hn hstate hcheck)]
  case start =>
    intro c s ha hargs hlen hn hstate hkeys
    rw [exec_partitionStart, hostCmd_done ha]
    rw [partitionStart_locked hargs hlen hn hstate, hkeys, need_true]
  case replay =>
    intro c s ha hargs hlen hn hstate hkeys
    rw [exec_replayBegin, hostCmd_done ha]
    rw [replayBegin_locked hargs hlen hn hstate, hkeys, need_true]
  case keys =>
    intro c s hs hr hargs hlen hn hstate hkeys
    have hstart : partitionStart c s = .fail .keyState := by rw [partitionStart_locked hargs hlen hn hstate, hkeys, need_false]
    have hreplay : replayBegin c s = .fail .keyState := by rw [replayBegin_locked hargs hlen hn hstate, hkeys, need_false]
    rw [exec_partitionStart, exec_replayBegin, hostCmd_fail hs hstart, hostCmd_fail hr hreplay]
    exact ⟨rfl, rfl⟩
  case drain =>
    intro c s ha hargs hlen hn hstate u
    rw [exec_partitionDrain, hostCmd_wait ha (onPartition_starts hargs hlen hn hstate)]
  case wiping =>
    intro c s hconf hrel hlock hstart hdrain hwipe hreplay hargs hlen hn hstate
    have hfail {from_ : List Nat} {k : Nat → State → Res} (hfrom : from_.contains psWiping = false) :
        onPartition c from_ k s = .fail .partitionState := onPartition_wiping hargs hlen hn hstate hfrom
    rw [exec_partitionConfigure, exec_partitionRelease, exec_partitionLock, exec_partitionStart, exec_partitionDrain, exec_partitionWipe, exec_replayBegin,
      hostCmd_fail hconf (hfail rfl), hostCmd_fail hrel (hfail rfl), hostCmd_fail hlock (body := partitionLock c) (hfail rfl),
      hostCmd_fail hstart (body := partitionStart c) (hfail rfl), hostCmd_fail hdrain (body := partitionDrain c) (hfail rfl),
      hostCmd_fail hwipe (body := partitionWipe c) (hfail rfl), hostCmd_fail hreplay (body := replayBegin c) (hfail rfl)]
    exact ⟨rfl, rfl, rfl, rfl, rfl, rfl, rfl⟩

-- Fuses and the lifecycle (13 R438, R442)

theorem exec_fwCommitSvn (c : Cmd) (s : State) : exec (.fwCommitSvn c) s = .next (hostCmd 0x0901 c (fwCommitSvn c) s) := rfl
theorem exec_lifecycleAdvance (c : Cmd) (s : State) : exec (.lifecycleAdvance c) s = .next (hostCmd 0x0902 c (lifecycleTo c [1] 2) s) := rfl
theorem exec_lifecycleDecommission (c : Cmd) (s : State) : exec (.lifecycleDecommission c) s = .next (hostCmd 0x0903 c (lifecycleTo c [1, 2] 3) s) := rfl

section Lifecycle

variable {c : Cmd} {s : State} {from_ : List Nat} {next : Nat}

/-- The minimum SVN is fused of a SECURED device alone (13 R438). -/
theorem fwCommitSvn_wf (hargs : c.argsOk [] = true) (hlen : c.dlen = 0) :
    fwCommitSvn c s = need (s.sec.fuses.lifecycle == 2) .lifecycle
      (.done (({ s with sec := { s.sec with fuses := { s.sec.fuses with svnMin := max s.sec.fuses.svnMin (s.getF Reg.secFwSvn) } } }).setF
        Reg.secFwMinSvnMin (max s.sec.fuses.svnMin (s.getF Reg.secFwSvn))) {}) := by
  simp only [fwCommitSvn, hargs, hlen, decide_true, Bool.and_true, need_true]

/-- A lifecycle command that names the device asks for a state that it starts from and for every partition UNCONFIGURED (13 R442). -/
theorem lifecycleTo_named (hargs : c.argsOk [(0, 8)] = true) (hlen : c.dlen = 0) (huid : c.arg 0 8 = deviceUid) :
    lifecycleTo c from_ next s = need (from_.contains s.sec.fuses.lifecycle && s.allUnconfigured) .lifecycle
      (.done { s with sec := { s.sec with fuses := { s.sec.fuses with next := some (max next (s.sec.fuses.next.getD 0)) } } } {}) := by
  have hnamed : (c.argsOk [(0, 8)] && decide (c.dlen = 0) && c.arg 0 8 == deviceUid) = true := by
    rw [hargs, decide_eq_true hlen, huid, beq_self_eq_true]
    rfl
  rw [lifecycleTo, hnamed, need_true]

theorem lifecycleTo_configured (hargs : c.argsOk [(0, 8)] = true) (hlen : c.dlen = 0) (huid : c.arg 0 8 = deviceUid) (hall : s.allUnconfigured = false) :
    lifecycleTo c from_ next s = .fail .lifecycle := by
  rw [lifecycleTo_named hargs hlen huid, hall, Bool.and_false, need_false]

theorem lifecycleTo_unnamed (huid : c.arg 0 8 ≠ deviceUid) : lifecycleTo c from_ next s = .fail .invalidField := by
  rw [lifecycleTo, beq_false_of_ne huid, Bool.and_false, need_false]

end Lifecycle

/-- Settles O30: each body past the checks of its form (`fwCommitSvn_wf`, `lifecycleTo_named`). -/
theorem fusesAndLifecycle : Obligations.FusesAndLifecycle := by
  unfold Obligations.FusesAndLifecycle
  refine ⟨?commit, ?unsecured, ?advance, ?decommission, ?configured, ?unnamed⟩
  case commit =>
    intro c s ha hargs hlen hlife
    rw [exec_fwCommitSvn, hostCmd_done ha]
    rw [fwCommitSvn_wf hargs hlen, hlife, beq_self_eq_true, need_true]
  case unsecured =>
    intro c s ha hargs hlen hlife
    rw [exec_fwCommitSvn, hostCmd_fail ha]
    rw [fwCommitSvn_wf hargs hlen, beq_false_of_ne hlife, need_false]
  case advance =>
    intro c s ha hargs hlen huid hlife hall
    rw [exec_lifecycleAdvance, hostCmd_done ha]
    rw [lifecycleTo_named hargs hlen huid, hlife, hall]
    rfl
  case decommission =>
    intro c s ha hargs hlen huid hlife hall
    have hfrom : [1, 2].contains s.sec.fuses.lifecycle = true := by
      rcases hlife with h | h <;> rw [h] <;> rfl
    rw [exec_lifecycleDecommission, hostCmd_done ha]
    rw [lifecycleTo_named hargs hlen huid, hfrom, hall]
    rfl
  case configured =>
    intro c s ha hd hargs hlen huid hall
    rw [exec_lifecycleAdvance, exec_lifecycleDecommission, hostCmd_fail ha (lifecycleTo_configured hargs hlen huid hall),
      hostCmd_fail hd (lifecycleTo_configured hargs hlen huid hall)]
    exact ⟨rfl, rfl⟩
  case unnamed =>
    intro c s ha hd huid
    rw [exec_lifecycleAdvance, exec_lifecycleDecommission, hostCmd_fail ha (lifecycleTo_unnamed huid), hostCmd_fail hd (lifecycleTo_unnamed huid)]
    exact ⟨rfl, rfl⟩

end Sys2Proof.Machine

/-!
SPDM and the delivery of keys (13 R420-R427): what a transport that is answered, or not, draws.
-/
namespace Sys2Proof.Machine

open Sys2Proof

-- A transport and its answers

section Transport

variable {t part : Nat} {kind : String} {b : List Byte} {k : State → State} {s u : State}

/-- Whether a transport is answered rests on power, FATAL and what the hosts reach. -/
theorem spdmLive_congr (hmgc : u.mgc = s.mgc) (hhif : u.hif = s.hif) (t : Nat) : spdmLive u t = spdmLive s t := by
  simp only [spdmLive, State.fnLive, State.fnShown, hmgc, hhif]

theorem spdmAnswer_live (h : spdmLive s t = true) : spdmAnswer t kind b s = s.emit (.spdm t kind b) := if_pos h

/-- A state that power, FATAL and the hosts' reach leave alike is answered alike. -/
theorem spdmAnswer_kept (hmgc : u.mgc = s.mgc) (hhif : u.hif = s.hif) (h : spdmLive s t = true) : spdmAnswer t kind b u = u.emit (.spdm t kind b) :=
  spdmAnswer_live ((spdmLive_congr hmgc hhif t).trans h)

theorem spdmAnswer_dead (h : spdmLive s t = false) : spdmAnswer t kind b s = s := if_neg (by simp [h])

theorem spdmChain_live (h : spdmLive s t = true) (hid : hasIdentity s = true) : spdmChain t kind b s = s.emit (.spdm t kind b) :=
  (if_pos hid).trans (spdmAnswer_live h)

theorem spdmChain_dead (h : spdmLive s t = false) : spdmChain t kind b s = s := by
  rw [spdmChain, spdmAnswer_dead h, spdmAnswer_dead h, ite_self]

theorem spdmStatus_live {st : Status} (h : spdmLive s t = true) : spdmStatus t st s = s.emit (.spdm t "STATUS" (leBytes 2 st.code)) := spdmAnswer_live h

/-- A request through I3C, function 0 or the partition's own function runs once the device has an identity (13 R422). -/
theorem onTransport_own (h : spdmLive s t = true) (ht : transportPart t = none ∨ transportPart t = some part) (hid : hasIdentity s = true) :
    onTransport t part k s = k s := by
  rcases ht with ht | ht <;> simp [onTransport, h, ht, hid]

/-- A partition's function names its own partition (13 R422). -/
theorem onTransport_other {n : Nat} (h : spdmLive s t = true) (ht : transportPart t = some n) (hn : n ≠ part) :
    onTransport t part k s = s.emit (.spdm t "STATUS" (leBytes 2 3)) := by
  simp [onTransport, h, ht, hn, spdmStatus_live h, Status.code]

theorem onTransport_dead (h : spdmLive s t = false) : onTransport t part k s = s := by
  simp [onTransport, h]

end Transport

-- Requests of the standard, and reports (13 R420-R423)

theorem exec_spdmGetVersion (t : Nat) (s : State) : exec (.spdmGetVersion t) s = .next (spdmAnswer t "VERSION" (leBytes 2 0x1200) s) := rfl
theorem exec_spdmGetCapabilities (t : Nat) (s : State) : exec (.spdmGetCapabilities t) s =
    .next (if spdmLive s t then spdmAnswer t "CAPABILITIES" (s.freshBytes 4).1 (s.freshBytes 4).2 else s) := rfl
theorem exec_spdmNegotiateAlgorithms (t offered : Nat) (s : State) : exec (.spdmNegotiateAlgorithms t offered) s =
    .next (if !spdmLive s t then s
      else if offered % 2 = 0 then spdmAnswer t "ERROR UnsupportedRequest" [] s
      else spdmAnswer t "ALGORITHMS" (leBytes 8 (offered % 2)) { s with sec := { s.sec with spdm := tset s.sec.spdm t (offered % 2) } }) := rfl
theorem exec_spdmGetDigests (t : Nat) (s : State) : exec (.spdmGetDigests t) s = .next (spdmChain t "DIGESTS" (shake256 Config.certChain 64) s) := rfl
theorem exec_spdmGetCertificate (t slot off len : Nat) (s : State) : exec (.spdmGetCertificate t slot off len) s =
    .next (if slot = 0 then spdmChain t "CERTIFICATE" ((Config.certChain.drop off).take len) s
      else spdmAnswer t "ERROR UnsupportedRequest" [] s) := rfl
theorem exec_spdmUnsupportedRequest (t : Nat) (s : State) : exec (.spdmUnsupportedRequest t) s = .next (spdmAnswer t "ERROR UnsupportedRequest" [] s) := rfl
theorem exec_attestationReport (t part : Nat) (nonce : List Byte) (s : State) :
    exec (.attestationReport t part nonce) s = .next (attestationReport t part nonce s) := rfl
theorem exec_keyInit (t part : Nat) (nonce : List Byte) (s : State) : exec (.keyInit t part nonce) s = .next (keyInit t part nonce s) := rfl

/-- Settles O31: what each request draws on a live transport (`spdmAnswer_live`, `onTransport_own`) and on a dead one. -/
theorem spdmAnswers : Obligations.SpdmAnswers := by
  unfold Obligations.SpdmAnswers
  refine ⟨?version, ?capabilities, ?listed, ?unlisted, ?chain, ?unsupported, ?report, ?other, ?dead⟩
  case version =>
    intro t s h
    rw [exec_spdmGetVersion, spdmAnswer_live h]
  case capabilities =>
    intro t s h
    rw [exec_spdmGetCapabilities, if_pos h]
    exact congrArg _ (spdmAnswer_kept rfl rfl h)
  case listed =>
    intro t offered s h hodd
    rw [exec_spdmNegotiateAlgorithms, hodd, if_neg (by simp [h]), if_neg Nat.one_ne_zero]
    exact congrArg _ (spdmAnswer_kept rfl rfl h)
  case unlisted =>
    intro t offered s h heven
    rw [exec_spdmNegotiateAlgorithms, if_neg (by simp [h]), if_pos heven, spdmAnswer_live h]
  case chain =>
    intro t off len s h hid
    rw [exec_spdmGetDigests, exec_spdmGetCertificate, if_pos rfl, spdmChain_live h hid, spdmChain_live h hid]
    exact ⟨rfl, rfl⟩
  case unsupported =>
    intro t slot off len s h hslot
    rw [exec_spdmUnsupportedRequest, exec_spdmGetCertificate, if_neg hslot, spdmAnswer_live h]
    exact ⟨rfl, rfl⟩
  case report =>
    intro t part nonce s h ht hid hpart
    rw [exec_attestationReport, attestationReport, onTransport_own h ht hid, if_pos hpart]
    exact congrArg _ (spdmAnswer_kept rfl rfl h)
  case other =>
    intro t part n nonce s h ht hn
    rw [exec_attestationReport, exec_keyInit, attestationReport, keyInit, onTransport_other h ht hn, onTransport_other h ht hn]
    exact ⟨rfl, rfl⟩
  case dead =>
    intro t off part nonce s h
    rw [exec_spdmGetVersion, exec_spdmGetCapabilities, exec_spdmNegotiateAlgorithms, exec_spdmGetDigests, exec_spdmUnsupportedRequest,
      exec_attestationReport, exec_keyInit, attestationReport, keyInit, onTransport_dead h, onTransport_dead h, spdmChain_dead h, spdmAnswer_dead h,
      spdmAnswer_dead h, h]
    exact ⟨rfl, rfl, rfl, rfl, rfl, rfl, rfl⟩

-- The exchange (13 R425, R426)

theorem exec_keyExch (t part : Nat) (ct pk sig : List Byte) (s : State) : exec (.keyExch t part ct pk sig) s = .next (keyExch t part ct pk sig s) := rfl
theorem exec_keyDeliver (t part slot : Nat) (w tag : List Byte) (s : State) :
    exec (.keyDeliver t part slot w tag) s = .next (keyDeliver t part slot w tag s) := rfl

section Exchange

variable {t part slot : Nat} {nonce ct pk sig w tag : List Byte} {x : Exchange} {s : State}

/-- An exchange opens for a LOCKED protected partition of a SECURED device with an empty slot and no exchange in progress (13 R425). -/
abbrev exchangeOpened (t part : Nat) (nonce : List Byte) (s : State) : State :=
  let u := { s with free := s.free + 1 }
  let r := report u part nonce (shake256 (Config.mlKemPublic s.free) 32)
  ((({ u with sec := { s.sec with exchanges := tset s.sec.exchanges part { transport := t, kem := s.free, report := r } } }).setF
    (Reg.secPbKeysExchange part) 1).bump Ctr.secReportsSigned).bump Ctr.secKeyExchanges

theorem keyInit_opens (h : spdmLive s t = true) (ht : transportPart t = none ∨ transportPart t = some part) (hid : hasIdentity s = true)
    (hpart : part < 16) (hstate : s.pstate part = psLocked) (hprot : s.isProtected part = true)
    (hslot : slotLoaded s part 1 = false ∨ slotLoaded s part 2 = false) (hidle : tget s.sec.exchanges part = none) (hlife : s.sec.fuses.lifecycle = 2) :
    keyInit t part nonce s = (exchangeOpened t part nonce s).emit (.spdm t "KEY_OFFER"
      (report { s with free := s.free + 1 } part nonce (shake256 (Config.mlKemPublic s.free) 32) ++ Config.mlKemPublic s.free)) := by
  have hopen : ¬(s.pstate part ≠ psLocked ∨ (!s.isProtected part) = true ∨
      (s.flag (Reg.secPbKeysMemory part) = true ∧ s.flag (Reg.secPbKeysFabric part) = true) ∨ (tget s.sec.exchanges part).isSome = true) := by
    rintro (hne | hne | ⟨hmem, hfab⟩ | hne)
    · exact hne hstate
    · simp [hprot] at hne
    · rcases hslot with hl | hl
      · exact absurd (hmem.symm.trans hl) (by decide)
      · exact absurd (hfab.symm.trans hl) (by decide)
    · simp [hidle] at hne
  rw [keyInit, onTransport_own h ht hid, if_neg (Nat.not_le.2 hpart), if_neg hopen, if_neg (not_not_intro hlife)]
  exact spdmAnswer_kept rfl rfl h

/-- The timeout of an exchange fails it with ST_KEY_STATE (13 R426). -/
theorem exec_keyExchangeTimeout_running (hoff : s.mgc.off = false) (hx : tget s.sec.exchanges part = some x) :
    exec (.keyExchangeTimeout part) s = .next (failExchange x.transport part .keyState s) := by
  simp only [exec, execKeyExchangeTimeout, hx, hoff, Bool.false_eq_true, if_false]

/-- Without an exchange on the transport the later messages end ST_KEY_STATE. -/
theorem keyExch_none (h : spdmLive s t = true) (ht : transportPart t = none ∨ transportPart t = some part) (hid : hasIdentity s = true)
    (hx : exchangeOf s t part = none) : keyExch t part ct pk sig s = s.emit (.spdm t "STATUS" (leBytes 2 0x0702)) := by
  rw [keyExch, onTransport_own h ht hid, hx]
  exact spdmStatus_live h

theorem keyDeliver_none (h : spdmLive s t = true) (ht : transportPart t = none ∨ transportPart t = some part) (hid : hasIdentity s = true)
    (hx : exchangeOf s t part = none) : keyDeliver t part slot w tag s = s.emit (.spdm t "STATUS" (leBytes 2 0x0702)) := by
  rw [keyDeliver, onTransport_own h ht hid, hx]
  exact spdmStatus_live h

end Exchange

/-- Settles O32: each message runs on its transport's exchange (`onTransport_own`); the order of its checks is the model's. -/
theorem keyDelivery : Obligations.KeyDelivery := by
  unfold Obligations.KeyDelivery
  refine ⟨?init, ?exch, ?deliver, ?none, ?timeout, ?fail⟩
  case init =>
    intro t part nonce s h ht hid hpart hstate hprot hslot hidle hlife u r
    rw [exec_keyInit, keyInit_opens h ht hid hpart hstate hprot hslot hidle hlife]
  case exch =>
    intro t part ct pk sig x s h ht hid hx hmac hash
    rw [exec_keyExch, keyExch, onTransport_own h ht hid, hx]
    exact congrArg Host.Outcome.next (if_neg (by simp [hmac]))
  case deliver =>
    intro t part slot w tag x s h ht hid hx hmac hslot hempty key
    have hrefused : ((slot ≠ 1 ∧ slot ≠ 2) ∨ slotLoaded s part slot = true ∨ key.take 32 = slice key 32 32) ↔ key.take 32 = slice key 32 32 := by
      simp only [hempty, Bool.false_eq_true, false_or, or_iff_right_iff_imp]
      omega
    rw [exec_keyDeliver, keyDeliver, onTransport_own h ht hid, hx]
    dsimp only
    rw [if_neg (by simpa using hmac)]
    simp only [hrefused, key]
    rfl
  case none =>
    intro t part slot w tag s h ht hid hx
    rw [exec_keyExch, exec_keyDeliver, keyExch_none h ht hid hx, keyDeliver_none h ht hid hx]
    exact ⟨rfl, rfl⟩
  case timeout =>
    intro part x s hoff hx
    rw [exec_keyExchangeTimeout_running hoff hx]
    rfl
  case fail =>
    intro t n s
    rfl

end Sys2Proof.Machine

/-!
Errors and self-tests (14 R447-R455): what an error does at once, and how a targeted self-test ends.
-/
namespace Sys2Proof.Machine

open Sys2Proof

theorem off_of_running {s : State} (h : Live s) : s.mgc.off = false := by
  simp only [Live, State.running, Bool.and_eq_true, Bool.not_eq_true'] at h
  exact h.1.1

-- Errors (14 R448, R449)

section Detected

variable {slot inst : Nat} {s : State}

/-- An error of a page that stands, whose instance is not fenced, has its immediate action. -/
theorem exec_errorDetected (hl : Live s) (hpage : (page? slot).isSome = true) (hfence : isFenced s slot inst = false) (e : ErrSource) :
    exec (.errorDetected slot inst e) s = .next (detectError slot inst e s) := by
  have hheard : ¬((page? slot).isNone = true ∨ isFenced s slot inst = true) := by
    rintro (h | h)
    · rw [Option.isNone_iff_eq_none] at h
      simp [h] at hpage
    · exact absurd (h.symm.trans hfence) (by decide)
  rw [exec, execErrorDetected, if_neg hheard, powered_of_on (off_of_running hl)]

/-- A fenced instance hears nothing (14 R451). -/
theorem exec_errorDetected_fenced (hfence : isFenced s slot inst = true) (e : ErrSource) : exec (.errorDetected slot inst e) s = .next s := by
  rw [exec, execErrorDetected, if_pos (Or.inr hfence)]

/-- A unit whose tag fails is marked once (13 R431). -/
theorem detectError_tampered {tier unit : Nat} (hnew : s.sec.badUnits.contains (tier, unit) = false) :
    detectError slot inst (.tampered tier unit) s =
      { s with frc := { s.frc with injected := tdel s.frc.injected slot }, sec := { s.sec with badUnits := s.sec.badUnits ++ [(tier, unit)] } } := by
  simp only [detectError, State.setFrc, hnew, Bool.false_eq_true, if_false]

theorem detectError_partitionRecord {n : Nat} (hn : n < 16) :
    detectError slot inst (.partitionRecord n none) s =
      partitionError n (raiseErr { slot := slot, inst := inst, ev := .uncorrected (pageType slot), cls := .partition, part := n, resource := 0 }
        (s.setFrc { s.frc with injected := tdel s.frc.injected slot })) :=
  if_pos hn

end Detected

/-- The log entry of an error without a unit, met by an instance in NORMAL (14 R452). -/
def entryOf (x : ErrIn) (s : State) : ErrEntry :=
  { ev := x.ev, cls := x.cls, nested := false, part := x.part, inst := x.inst, resource := x.resource, session := x.session, wheel := x.wheel,
    layer := x.layer, tick := s.tick, detail := x.detail, step := turnStep s x.session, rerun := x.rerun, alone := x.alone, against := x.against }

/-- A page's error log with one entry more. -/
abbrev logTaken (l : ErrLog) (e : ErrEntry) : ErrLog :=
  { entries := tset l.entries (nextIndex l) e, busy := l.busy ++ [nextIndex l], head := (nextIndex l + 1) % 64 }

/-- A corrected error without a unit takes the next entry of its page's log, and its instance's handler starts (14 R449). -/
theorem raiseErr_corrected {x : ErrIn} {s : State} (hstate : (s.mach (machKey x.slot x.inst)).state = .normal) (hunit : x.unit = none)
    (hcls : x.cls = .corrected) (hroom : (s.elog x.slot).busy.length < 64) :
    raiseErr x s = startHandler 65 x.slot x.inst (nextIndex (s.elog x.slot)) (setMach (machKey x.slot x.inst)
      { s.mach (machKey x.slot x.inst) with state := .handling, current := some (nextIndex (s.elog x.slot)) }
      (setElog x.slot (logTaken (s.elog x.slot) (entryOf x s)) s)) := by
  unfold raiseErr
  simp only [hstate, hunit, hcls, Nat.not_le.2 hroom, reduceCtorEq, if_false, if_true, Bool.false_eq_true, show (ErrState.normal == ErrState.handling) = false from rfl]
  rw [← hcls]
  rfl

theorem goFatal_awake {s : State} (h : s.getF Reg.mgcPwrStatState = 1 ∨ s.getF Reg.mgcPwrStatState = 2) :
    goFatal s = (({ s with mgc := { s.mgc with fatal := true, faultN := true } }).setF Reg.mgcPwrStatState 4).bump Ctr.mgcPowerStateChanges :=
  if_pos h

/-- An ACTIVE partition without turns drains at its error (13 R415). -/
theorem partitionError_idle {n : Nat} {s : State} (hstate : s.pstate n = psActive) (hturns : s.ssq.turns.filter (fun t => t.part == n) = []) :
    partitionError n s = settleDrain n (logEv .mgcPartitionState pMgc n [3, 4] (s.setF (Reg.mgcPbCtrlState n) psDraining)) := by
  have hdrain : setPstate n psDraining s = logEv .mgcPartitionState pMgc n [3, 4] (s.setF (Reg.mgcPbCtrlState n) psDraining) := setPstate_logs _ hstate
  simp only [partitionError, hstate, hdrain, ssq_logEv, State.setF_ssq, hturns, List.map_nil, endTurns, List.foldl_nil, if_true, ne_eq,
    not_true_eq_false, false_and, if_false]

-- Self-tests (14 R453, R455)

section SelfTest

variable {slot kind num : Nat} {passed : Bool} {units : List Nat} {t : SelfTest} {s : State}

theorem exec_selftestDone (hl : s.mgc.off = false) :
    exec (.selftestDone slot kind num passed units) s = .next (testDone ⟨slot, kind, num⟩ passed units s) :=
  congrArg _ (powered_of_on hl _)

/-- The state in which a test is over and its unit is held no more. -/
abbrev testOver (u : Resource) (s : State) : State :=
  s.setFrc { s.frc with tests := s.frc.tests.filter (·.unit != u), held := if u.kind = 2 then s.frc.held.filter (· != u.num) else s.frc.held }

theorem testDone_passed {u : Resource} (ht : s.frc.tests.find? (·.unit == u) = some t) (hsound : t.failed = false) :
    testDone u true units s = reportTest t 1 (returnUnit u (addTransient u ((testOver u s).bump Ctr.frcSelftestTransient))) := by
  rw [testDone, ht]
  exact if_pos (by rw [hsound]; rfl)

theorem testDone_failed {u : Resource} (ht : s.frc.tests.find? (·.unit == u) = some t) :
    testDone u false units s = reportTest t 2 (retireUnit u units ((testOver u s).bump Ctr.frcSelftestLasting)) := by
  rw [testDone, ht]
  rfl

theorem testDone_none {u : Resource} (ht : s.frc.tests = []) : testDone u passed units s = s := by
  rw [testDone, ht]
  rfl

end SelfTest

/-- Settles O40: the immediate action of each source (`exec_errorDetected`), the entry that `raiseErr` makes, and the two ends of a test. -/
theorem errorsAndSelfTests : Obligations.ErrorsAndSelfTests := by
  unfold Obligations.ErrorsAndSelfTests
  refine ⟨?corrected, fun x s => raiseErr_corrected, ?tampered, ?hub, fun s => goFatal_awake, ?logPath, ?partition, fun n s => partitionError_idle,
    ?fenced, ?passed, ?failed, ?none⟩
  case corrected =>
    intro slot inst s hl hpage hfence
    rw [exec_errorDetected hl hpage hfence]
    rfl
  case tampered =>
    intro slot inst tier unit s hl hpage hfence hnew
    rw [exec_errorDetected hl hpage hfence, detectError_tampered hnew]
  case hub =>
    intro slot inst s hl hpage hfence
    rw [exec_errorDetected hl hpage hfence]
    rfl
  case logPath =>
    intro slot inst s hl hpage hfence u
    rw [exec_errorDetected hl hpage hfence]
    rfl
  case partition =>
    intro slot inst n s hl hpage hfence hn
    rw [exec_errorDetected hl hpage hfence, detectError_partitionRecord hn]
  case fenced =>
    intro slot inst e s hfence
    exact exec_errorDetected_fenced hfence e
  case passed =>
    intro slot kind num units t s hl ht hsound u
    rw [exec_selftestDone (off_of_running hl), testDone_passed ht hsound]
  case failed =>
    intro slot kind num units t s hl ht u
    rw [exec_selftestDone (off_of_running hl), testDone_failed ht]
  case none =>
    intro slot kind num p units s ht
    exact congrArg _ (powered_of_eq (testDone_none ht))

end Sys2Proof.Machine

/-!
The supply, the power limit and the temperature (15 R479, R480, R485, R488-R490).
-/
namespace Sys2Proof.Machine

open Sys2Proof

-- The commands

theorem exec_powerRemoval (s : State) : exec .powerRemoval s = .next (if s.mgc.off then s else (survivors s).setMgc { off := true }) := rfl
theorem exec_powerOnReset (pos scope sa : Nat) (s : State) : exec (.powerOnReset pos scope sa) s = .next (powerOn pos scope sa s) := rfl
theorem exec_vinExcursion (mv : Nat) (s : State) : exec (.vinExcursion mv) s = .next (vinExcursion mv s) := rfl
theorem exec_powerPeriod (mv ma mw : Nat) (s : State) : exec (.powerPeriod mv ma mw) s = .next (powerPeriod mv ma mw s) := rfl
theorem exec_thermalSample (temps : List (Option Nat)) (s : State) : exec (.thermalSample temps) s = .next (thermalSample temps s) := rfl
theorem exec_thermalTrip (sensor reading : Nat) (s : State) : exec (.thermalTrip sensor reading) s = .next (thermalTrip sensor reading s) := rfl

section Supply

variable {s : State} {pos scope sa mv : Nat}

theorem powerOn_off (h : s.mgc.off = true) :
    powerOn pos scope sa s = (((reborn s).setF Reg.mgcStrapPos pos).setF Reg.mgcStrapPerstScope scope).setF Reg.mgcStrapI3cSa sa :=
  if_neg (by simp [h])

theorem powerOn_on (h : s.mgc.off = false) : powerOn pos scope sa s = s := if_pos (by simp [h])

/-- An excursion between the operating and the lockout limits is counted and logged once (15 R479). -/
theorem vinExcursion_begins (hoff : s.mgc.off = false) (hmv : mv < 40000 ∨ 60000 < mv) (hfirst : s.flag Reg.mgcPwrStatVinExcursion = false) :
    vinExcursion mv s = logEv .mgcVinRange pMgc 0xFF [mv]
      (((s.setMgc { s.mgc with vinLowN := decide (mv < 40000) }).setF Reg.mgcPwrStatVinExcursion 1).bump Ctr.mgcVinExcursions) := by
  have hout : ¬(40000 ≤ mv ∧ mv ≤ 60000) := by omega
  have hnew : ¬(s.setMgc { s.mgc with vinLowN := decide (mv < 40000) }).flag Reg.mgcPwrStatVinExcursion = true := fun h =>
    absurd (h.symm.trans hfirst) (by decide)
  rw [vinExcursion, if_neg (by simp [hoff]), if_neg hout, if_neg hnew]

theorem vinExcursion_ends (hoff : s.mgc.off = false) (hmv : 40000 ≤ mv ∧ mv ≤ 60000) :
    vinExcursion mv s = (s.setMgc { s.mgc with vinLowN := false }).setF Reg.mgcPwrStatVinExcursion 0 := by
  rw [vinExcursion, if_neg (by simp [hoff]), if_pos hmv, decide_eq_false (Nat.not_lt.2 hmv.1)]

end Supply

-- The step of ACLK (15 R485)

@[simp] theorem showStep_mgc (s : State) : (showStep s).mgc = s.mgc := rfl

/-- PWR_STAT shows the larger of the two steps. -/
theorem getF_showStep_step {s : State} (hw : Table.wf s.regs = true) :
    (showStep s).getF Reg.mgcPwrStatStep = max s.mgc.sCap s.mgc.sTherm % 2 ^ Reg.mgcPwrStatStep.width := by
  simp only [showStep, State.setFlag]
  rw [State.getF_setF_other _ _ _ _ (by decide), State.getF_setF_other _ _ _ _ (by decide), State.getF_setF_other _ _ _ _ (by decide),
    State.getF_setF_self _ _ _ hw]

theorem countPeriod_steps (s : State) :
    (countPeriod s).mgc.sCap = s.mgc.sCap ∧ (countPeriod s).mgc.sTherm = s.mgc.sTherm ∧ (countPeriod s).mgc.lowPeriods = s.mgc.lowPeriods := by
  unfold countPeriod
  split <;> exact ⟨rfl, rfl, rfl⟩

theorem getF_countPeriod {f : Fld} (hf : Reg.mgcBootMsSinceReset.key ≠ f.key) (s : State) : (countPeriod s).getF f = s.getF f := by
  unfold countPeriod
  split
  · rfl
  · exact State.getF_setF_other _ _ _ _ hf

-- The power limit (15 R485)

/-- Periods in a row below 0.95 of the limit, ten at most, at the end of one of mean power `mw`. -/
def lowNext (mv mw : Nat) (s : State) : Nat :=
  if mw * 1000 < powerLimit (s.getF Reg.mgcPwrCapWatts) mv * 95 then min 10 (s.mgc.lowPeriods + 1) else 0

/-- The cap step at the end of a period. -/
def capNext (mv mw : Nat) (s : State) : Nat :=
  if decide (powerLimit (s.getF Reg.mgcPwrCapWatts) mv < mw * 10) then min 8 (s.mgc.sCap + 1)
  else if lowNext mv mw s = 10 then s.mgc.sCap - 1 else s.mgc.sCap

section Period

variable {mv mw : Nat} {s : State}

theorem lowNext_above (h : powerLimit (s.getF Reg.mgcPwrCapWatts) mv < mw * 10) : lowNext mv mw s = 0 := if_neg (by omega)

theorem capNext_above (h : powerLimit (s.getF Reg.mgcPwrCapWatts) mv < mw * 10) (hcap : s.mgc.sCap < 8) : capNext mv mw s = s.mgc.sCap + 1 := by
  rw [capNext, decide_eq_true h, if_pos rfl]
  omega

theorem lowNext_tenth (h : mw * 1000 < powerLimit (s.getF Reg.mgcPwrCapWatts) mv * 95) (hlow : 9 ≤ s.mgc.lowPeriods) : lowNext mv mw s = 10 := by
  rw [lowNext, if_pos h]
  omega

theorem capNext_tenth (h : mw * 1000 < powerLimit (s.getF Reg.mgcPwrCapWatts) mv * 95) (hlow : 9 ≤ s.mgc.lowPeriods) :
    capNext mv mw s = s.mgc.sCap - 1 := by
  rw [capNext, if_neg (by rw [decide_eq_true_eq]; omega), if_pos (lowNext_tenth h hlow)]

/-- A period ends by showing the step that its means give. -/
theorem powerPeriod_shows (hoff : s.mgc.off = false) (mv ma mw : Nat) :
    ∃ u, powerPeriod mv ma mw s = countPeriod (showStep u) ∧
      u.mgc = { s.mgc with sCap := capNext mv mw s, lowPeriods := lowNext mv mw s, energy := (s.mgc.energy + mw) % 10000 } ∧
      (Table.wf s.regs = true → Table.wf u.regs = true) := by
  rw [powerPeriod, if_neg (by simp [hoff])]
  refine ⟨_, rfl, ?_, fun hw => ?_⟩
  · by_cases hstep : 0 < max s.mgc.sCap s.mgc.sTherm
    · rw [if_pos hstep]; rfl
    · rw [if_neg hstep]; rfl
  · by_cases hstep : 0 < max s.mgc.sCap s.mgc.sTherm
    · rw [if_pos hstep]; exact State.setF_wf _ _ _ (State.setF_wf _ _ _ (State.setF_wf _ _ _ (State.setF_wf _ _ _ hw)))
    · rw [if_neg hstep]; exact State.setF_wf _ _ _ (State.setF_wf _ _ _ (State.setF_wf _ _ _ (State.setF_wf _ _ _ hw)))

end Period

-- The sensors (15 R488, R489)

/-- One sensor of a sample: its reading, or that it has no power. -/
def readSensor (temps : List (Option Nat)) (s : State) (i : Nat) : State :=
  match (temps[i]?).join with
  | some v => (s.setF (Reg.mgcTempCelsiusX8 i) v).setF (Reg.mgcTempValid i) 1
  | none => s.setF (Reg.mgcTempValid i) 0

/-- The state in which the thirteen readings of a sample are shown. -/
def sampled (temps : List (Option Nat)) (s : State) : State := (List.range 13).foldl (readSensor temps) s

section Sensors

variable {temps : List (Option Nat)} {s : State} {f : Fld} {i : Nat}

theorem getF_readSensor_other (hx8 : (Reg.mgcTempCelsiusX8 i).key ≠ f.key) (hvalid : (Reg.mgcTempValid i).key ≠ f.key) :
    (readSensor temps s i).getF f = s.getF f := by
  unfold readSensor
  split
  · rw [State.getF_setF_other _ _ _ _ hvalid, State.getF_setF_other _ _ _ _ hx8]
  · exact State.getF_setF_other _ _ _ _ hvalid

theorem readSensor_wf (i : Nat) (hw : Table.wf s.regs = true) : Table.wf (readSensor temps s i).regs = true := by
  unfold readSensor
  split
  · exact State.setF_wf _ _ _ (State.setF_wf _ _ _ hw)
  · exact State.setF_wf _ _ _ hw

theorem readSensor_mgc (i : Nat) : (readSensor temps s i).mgc = s.mgc := by
  unfold readSensor
  split <;> rfl

theorem foldl_readSensor_wf (l : List Nat) (hw : Table.wf s.regs = true) : Table.wf (l.foldl (readSensor temps) s).regs = true :=
  List.foldlRecOn (motive := fun (u : State) => Table.wf u.regs = true) l _ hw fun _ hu i _ => readSensor_wf i hu

theorem getF_foldl_readSensor (l : List Nat) (hl : ∀ i ∈ l, (Reg.mgcTempCelsiusX8 i).key ≠ f.key ∧ (Reg.mgcTempValid i).key ≠ f.key) :
    (l.foldl (readSensor temps) s).getF f = s.getF f :=
  List.foldlRecOn (motive := fun (u : State) => u.getF f = s.getF f) l _ rfl fun _ hu i hi =>
    (getF_readSensor_other (hl i hi).1 (hl i hi).2).trans hu

theorem sampled_mgc (temps : List (Option Nat)) (s : State) : (sampled temps s).mgc = s.mgc :=
  List.foldlRecOn (motive := fun (u : State) => u.mgc = s.mgc) _ _ rfl fun _ hu i _ => (readSensor_mgc i).trans hu

theorem throttleC_sampled (temps : List (Option Nat)) (s : State) (i : Nat) : throttleC (sampled temps s) i = throttleC s i := by
  have hkeep : ∀ f, (∀ i, (Reg.mgcTempCelsiusX8 i).key ≠ f.key ∧ (Reg.mgcTempValid i).key ≠ f.key) → (sampled temps s).getF f = s.getF f :=
    fun f hf => getF_foldl_readSensor _ fun i _ => hf i
  unfold throttleC
  rw [hkeep Reg.mgcThermDieThrottleC, hkeep Reg.mgcThermHbmThrottleC]
  all_goals
    intro i
    simp only [Fld.key, Reg.mgcTempCelsiusX8, Reg.mgcTempValid, Reg.mgcThermDieThrottleC, Reg.mgcThermHbmThrottleC]
    omega

/-- What a sample shows of a sensor is what the sensor's own reading wrote. -/
theorem sampled_sensor (hi : i < 13) (temps : List (Option Nat)) (s : State) :
    ∃ u, (Table.wf s.regs = true → Table.wf u.regs = true) ∧ (sampled temps s).getF (Reg.mgcTempCelsiusX8 i) = (readSensor temps u i).getF (Reg.mgcTempCelsiusX8 i) ∧
      (sampled temps s).flag (Reg.mgcTempValid i) = (readSensor temps u i).flag (Reg.mgcTempValid i) := by
  obtain ⟨before, after, hsplit⟩ := List.append_of_mem (List.mem_range.2 hi)
  have hafter : ∀ j ∈ after, j ≠ i := by
    have hnodup : (before ++ i :: after).Nodup := hsplit ▸ List.nodup_range
    rintro j hj rfl
    exact (List.nodup_cons.1 (List.nodup_append.1 hnodup).2.1).1 hj
  refine ⟨before.foldl (readSensor temps) s, foldl_readSensor_wf before, ?_, ?_⟩
  all_goals
    simp only [State.flag, sampled, hsplit, List.foldl_append, List.foldl_cons]
    rw [getF_foldl_readSensor]
    intro j hj
    have hne := hafter j hj
    simp only [Fld.key, Reg.mgcTempCelsiusX8, Reg.mgcTempValid]
    omega

/-- A sample that reads a sensor at its throttle threshold or above is hot. -/
theorem tooHot_sampled {v : Nat} (hi : i < 13) (hread : (temps[i]?).join = some v) (hv : v < 2 ^ 16) (hne : v ≠ 0)
    (hhot : (throttleC s i * 8 : Nat) ≤ sext 16 v) : tooHot (sampled temps s) = true := by
  obtain ⟨u, -, hx8, hvalid⟩ := sampled_sensor hi temps s
  have hshown : (readSensor temps u i).getF (Reg.mgcTempCelsiusX8 i) = v := by
    rw [readSensor, hread]
    refine (State.getF_setF_other _ _ _ _ ?_).trans (getF_setF_listed (f := Reg.mgcTempCelsiusX8 i) hv hne u)
    simp only [Fld.key, Reg.mgcTempCelsiusX8, Reg.mgcTempValid]
    omega
  have hpowered : (readSensor temps u i).flag (Reg.mgcTempValid i) = true := by
    rw [readSensor, hread]
    exact beq_iff_eq.2 (getF_setF_listed (f := Reg.mgcTempValid i) Nat.one_lt_two Nat.one_ne_zero _)
  refine List.any_eq_true.2 ⟨i, List.mem_range.2 hi, ?_⟩
  rw [hvalid, hpowered, hx8, hshown, throttleC_sampled, Bool.true_and, decide_eq_true hhot]

/-- A sample without a reading leaves no sensor valid. -/
theorem valid_sampled_nil (hw : Table.wf s.regs = true) (hi : i < 13) : (sampled [] s).flag (Reg.mgcTempValid i) = false := by
  obtain ⟨u, hu, -, hvalid⟩ := sampled_sensor hi [] s
  exact hvalid.trans (flag_setF_self (f := Reg.mgcTempValid i) (hu hw) rfl 0)

theorem tooHot_sampled_nil (hw : Table.wf s.regs = true) : tooHot (sampled [] s) = false :=
  List.any_eq_false.2 fun i hi => by simp [valid_sampled_nil hw (List.mem_range.1 hi)]

theorem coolBy_sampled_nil (hw : Table.wf s.regs = true) (margin : Nat) : coolBy (sampled [] s) margin = true :=
  List.all_eq_true.2 fun i hi => by simp [valid_sampled_nil hw (List.mem_range.1 hi)]

end Sensors

-- The thermal step (15 R489)

/-- The tenth hot sample in a row: the thermal step rises. -/
def stepHotter (temps : List (Option Nat)) (s : State) : State :=
  let m := s.mgc
  let s := if m.hot ∨ 8 ≤ m.sTherm then s else logEv .mgcThermalThrottle pMgc 0xFF (packDetail 2 (temps.map (·.getD 0))) s
  let s := if m.sTherm < 8 then s.bump Ctr.mgcThermalStepRises else s
  showStep (s.setMgc { s.mgc with sTherm := min 8 (m.sTherm + 1), hot := m.hot || decide (m.sTherm < 8), hotSamples := 0, coolSamples := 0 })

/-- The hundredth cool sample in a row: the thermal step falls. -/
def stepCooler (s : State) : State :=
  showStep (s.setMgc { s.mgc with sTherm := s.mgc.sTherm - 1, hot := false, hotSamples := 0, coolSamples := 0 })

section Thermal

variable {temps : List (Option Nat)} {s : State}

theorem thermalSample_hot (hoff : s.mgc.off = false) (hhot : tooHot (sampled temps s) = true) (hten : s.mgc.hotSamples = 9) :
    thermalSample temps s = stepHotter temps (sampled temps s) := by
  have hnow : ¬(sampled temps s).mgc.hotSamples < 9 := by rw [sampled_mgc, hten]; decide
  rw [thermalSample, if_neg (by simp [hoff])]
  exact (if_pos hhot).trans (if_neg hnow)

theorem thermalSample_cool (hoff : s.mgc.off = false) (hhot : tooHot (sampled temps s) = false) (hcool : coolBy (sampled temps s) 3 = true)
    (hhundred : s.mgc.coolSamples = 99) : thermalSample temps s = stepCooler (sampled temps s) := by
  have hnow : ¬(sampled temps s).mgc.coolSamples < 99 := by rw [sampled_mgc, hhundred]; decide
  rw [thermalSample, if_neg (by simp [hoff])]
  exact (if_neg (Bool.eq_false_iff.1 hhot)).trans ((if_pos hcool).trans (if_neg hnow))

theorem stepHotter_mgc (hstep : s.mgc.sTherm < 8) :
    (stepHotter temps s).mgc = { s.mgc with sTherm := s.mgc.sTherm + 1, hot := true, hotSamples := 0, coolSamples := 0 } := by
  have hmin : min 8 (s.mgc.sTherm + 1) = s.mgc.sTherm + 1 := by omega
  have hlog : ∀ d, (logEv .mgcThermalThrottle pMgc 0xFF d s).mgc = s.mgc := fun d => (logEv_keep ..).mgc rfl rfl rfl
  simp only [stepHotter, showStep_mgc, State.setMgc_mgc, hstep, if_true, State.bump_mgc, apply_ite State.mgc, hlog, ite_self, hmin, decide_true,
    Bool.or_true]

/-- A reading at or above the trip threshold of its sensor, once until a reset (15 R490). -/
theorem thermalTrip_trips {sensor reading : Nat} (hoff : s.mgc.off = false) (hsensor : sensor < 13) (htarget : s.mgc.target = none)
    (hfirst : s.mgc.tripped = false) (hhot : ((tripC sensor * 8 : Nat) : Int) ≤ sext 16 (reading % 2 ^ 16)) :
    thermalTrip sensor reading s = logFull .mgcThermalTrip pMgc 0 0xFF 4 0 [sensor, reading] (setPwr pwrMgmt (dropT0
      (s.setMgc { s.mgc with fatal := true, faultN := true, tripped := true, thermtripN := true }))) := by
  have htrips : ¬(s.mgc.off = true ∨ 13 ≤ sensor ∨ s.mgc.tripped = true ∨ sext 16 (reading % 2 ^ 16) < (tripC sensor * 8 : Nat)) := by
    rw [hoff, hfirst]
    simp only [Bool.false_eq_true, false_or, not_or, not_lt]
    exact ⟨Nat.not_le.2 hsensor, hhot⟩
  rw [thermalTrip, if_neg htrips, if_neg (by rw [htarget]; decide)]

end Thermal

/-- Settles O42: what a period and a sample step (`powerPeriod_shows`, `thermalSample_hot`, `thermalSample_cool`), and what is left without power. -/
theorem supplyAndHeat : Obligations.SupplyAndHeat := by
  unfold Obligations.SupplyAndHeat
  refine ⟨?removal, ?powerOn, ?already, ?excursion, ?inRange, ?above, ?below, ?hot, ?cool, ?trip⟩
  case removal =>
    intro s hoff
    rw [exec_powerRemoval, if_neg (by simp [hoff])]
    rfl
  case powerOn =>
    intro pos scope sa s hoff u
    rw [exec_powerOnReset, powerOn_off hoff]
    rfl
  case already =>
    intro pos scope sa s hoff
    rw [exec_powerOnReset, powerOn_on hoff]
  case excursion =>
    intro mv s hoff hmv hfirst
    rw [exec_vinExcursion, vinExcursion_begins hoff hmv hfirst]
  case inRange =>
    intro mv s hoff hmv
    rw [exec_vinExcursion, vinExcursion_ends hoff hmv]
  case above =>
    intro mv ma mw s hw hoff habove hcap
    obtain ⟨u, hu, hmgc, hwf⟩ := powerPeriod_shows hoff mv ma mw
    obtain ⟨hsCap, hsTherm, hlow⟩ := countPeriod_steps (showStep u)
    have hkeep := powerPeriod_keep mv ma mw s
    refine ⟨_, exec_powerPeriod .., ?_, ?_, ?_, ?_, hkeep.t0 rfl, hkeep.t1 rfl, hkeep.ssq rfl rfl rfl rfl rfl rfl rfl rfl rfl, hkeep.hif rfl⟩
    · rw [hu, hsCap, showStep_mgc, hmgc]
      exact capNext_above habove hcap
    · rw [hu, hsTherm, showStep_mgc, hmgc]
    · rw [hu, getF_countPeriod (by decide), getF_showStep_step (hwf hw), hmgc, capNext_above habove hcap]
    · rw [hu, hlow, showStep_mgc, hmgc]
      exact lowNext_above habove
  case below =>
    intro mv ma mw s hoff hbelow hten
    obtain ⟨u, hu, hmgc, -⟩ := powerPeriod_shows hoff mv ma mw
    obtain ⟨hsCap, -, hlow⟩ := countPeriod_steps (showStep u)
    have hkeep := powerPeriod_keep mv ma mw s
    refine ⟨_, exec_powerPeriod .., ?_, ?_, hkeep.t0 rfl, hkeep.ssq rfl rfl rfl rfl rfl rfl rfl rfl rfl⟩
    · rw [hu, hsCap, showStep_mgc, hmgc]
      exact capNext_tenth hbelow hten
    · rw [hu, hlow, showStep_mgc, hmgc]
      exact lowNext_tenth hbelow hten
  case hot =>
    intro temps s hoff hten hstep hread hthrottle
    have hhot : tooHot (sampled temps s) = true := by
      refine tooHot_sampled (i := 0) (by decide) hread (by decide) (by decide) ?_
      rw [show sext 16 2047 = 2047 by decide]
      omega
    have hkeep := thermalSample_keep temps s
    have hmgc : (thermalSample temps s).mgc = { s.mgc with sTherm := s.mgc.sTherm + 1, hot := true, hotSamples := 0, coolSamples := 0 } := by
      rw [thermalSample_hot hoff hhot hten, stepHotter_mgc (by rw [sampled_mgc]; exact hstep), sampled_mgc]
    refine ⟨_, exec_thermalSample .., ?_, ?_, ?_, ?_, hkeep.ssq rfl rfl rfl rfl rfl rfl rfl rfl rfl, hkeep.t0 rfl⟩ <;> rw [hmgc]
  case cool =>
    intro s hw hoff hhundred
    have hkeep := thermalSample_keep [] s
    have hmgc : (thermalSample [] s).mgc = { s.mgc with sTherm := s.mgc.sTherm - 1, hot := false, hotSamples := 0, coolSamples := 0 } := by
      rw [thermalSample_cool hoff (tooHot_sampled_nil hw) (coolBy_sampled_nil hw 3) hhundred, stepCooler, showStep_mgc, State.setMgc_mgc, sampled_mgc]
    refine ⟨_, exec_thermalSample .., ?_, ?_, ?_, hkeep.ssq rfl rfl rfl rfl rfl rfl rfl rfl rfl⟩ <;> rw [hmgc]
  case trip =>
    intro sensor reading s hoff hsensor _ htarget hfirst hhot
    rw [exec_thermalTrip, thermalTrip_trips hoff hsensor htarget hfirst hhot]

end Sys2Proof.Machine

/-!
The boot (13 R444, 15 R499, R500, 08 R249): training, the wipes, the firmware's values, and READY.
-/
namespace Sys2Proof.Machine

open Sys2Proof

theorem exec_hbmTrained (s : State) : exec .hbmTrained s = .next (hbmTrained s) := rfl
theorem exec_dimmTrained (l : List (Option Nat)) (s : State) : exec (.dimmTrained l) s = .next (dimmTrained l s) := rfl
theorem exec_t0WipeDone (s : State) : exec .t0WipeDone s = .next (t0WipeDone s) := rfl
theorem exec_t1WipeDone (s : State) : exec .t1WipeDone s = .next (t1WipeDone s) := rfl
theorem exec_fwInitDone (v : FwValues) (s : State) : exec (.fwInitDone v) s = .next (fwInitDone v s) := rfl

/-- A flag reads as a field's value does. -/
theorem flag_of_getF {s t : State} {f g : Fld} (h : s.getF f = t.getF g) : s.flag f = t.flag g := by rw [State.flag, State.flag, h]

-- Stage ROM and training (15 R499)

section Training

variable {s : State} {f : Fld}

theorem leaveRom_past (h : s.getF Reg.mgcBootStage ≠ 0) : leaveRom s = s := if_neg fun hrom => h hrom.1

/-- Stage ROM ends once the hub's sensor is read and the device is cool. -/
theorem leaveRom_cool (hstage : s.getF Reg.mgcBootStage = 0) (hread : s.flag (Reg.mgcTempValid 4) = true) (hcool : coolBy s 10 = true) :
    leaveRom s = startPorts (s.setF Reg.mgcBootStage 1) := if_pos ⟨hstage, hread, hcool⟩

/-- Only the states of the ports change where they start. -/
theorem getF_startPorts (hf : ∀ p, (Reg.xfePortState p).key ≠ f.key) (s : State) : (startPorts s).getF f = s.getF f := by
  unfold startPorts
  refine List.foldlRecOn (motive := fun (u : State) => u.getF f = s.getF f) _ _ rfl fun u hu p _ => ?_
  split
  · exact (State.getF_setF_other _ _ _ _ (hf p)).trans hu
  · exact hu

theorem portState_key_ne {f : Fld} (hf : f.key % 64 ≠ 1) (p : Nat) : (Reg.xfePortState p).key ≠ f.key := by
  have hport : (Reg.xfePortState p).key % 64 = 1 := by
    simp only [Fld.key, Reg.xfePortState]
    omega
  exact fun h => hf (h ▸ hport)

theorem mayTrain_booting (hstage : s.getF Reg.mgcBootStage = 1) (hpwr : s.pwr = pwrBoot) : s.mayTrain = true := by
  simp [State.mayTrain, hstage, hpwr]

theorem hbmTrained_trains (hboot : s.booting = true) (htrain : (leaveRom s).mayTrain = true) (hfirst : (leaveRom s).flag Reg.mgcBootHbmTrained = false) :
    hbmTrained s = (leaveRom s).setF Reg.mgcBootHbmTrained 1 :=
  (if_neg (by simp [hboot])).trans (if_pos ⟨htrain, hfirst⟩)

theorem hbmTrained_held (h : s.booting = false) : hbmTrained s = s := if_pos (by simp [h])

end Training

-- The population of T1 (08 R249)

/-- One channel of DDC: its module, where it has one that trained. -/
def readChannel (modules : List (Option Nat)) (s : State) (i : Nat) : State :=
  match (modules[i]?).join with
  | some g => ((s.setF (Reg.ddcChanModuleGib i) g).setF (Reg.ddcChanTrained i) 1).setF (Reg.ddcChanSpeedMts i) 8800
  | none => s

/-- The state in which the sixteen channels show their modules. -/
def populated (modules : List (Option Nat)) (s : State) : State := (List.range 16).foldl (readChannel modules) s

/-- The state with T1 trained, of sixteen modules of `g` GiB. -/
abbrev t1Trained (g : Nat) (s : State) : State :=
  ((s.setF Reg.mgcBootDimmTrained 1).setF (Reg.tmgTierCapSize4k 1) (16 * g * 2 ^ 18)).setF (Reg.tmgTierCapPresent 1) 1

/-- FATAL of a population that 08 R249 does not list. -/
abbrev badPopulation (modules : List (Option Nat)) (s : State) : State :=
  goFatal ((raiseErr { slot := pDdc, ev := .ddcPopulation, cls := .fatal, resource := channelMap modules } s).setF Reg.mgcBootStage 5)

section Population

variable {modules : List (Option Nat)} {g : Nat} {s : State}

theorem getF_readChannel {f : Fld} (i : Nat) (hf : f.key < 0x70100 * 8 ∨ 0x130000 * 8 ≤ f.key) (hi : i < 16) : (readChannel modules s i).getF f = s.getF f := by
  unfold readChannel
  split
  · rw [State.getF_setF_other, State.getF_setF_other, State.getF_setF_other]
    all_goals
      simp only [Fld.key, Reg.ddcChanModuleGib, Reg.ddcChanTrained, Reg.ddcChanSpeedMts] at hf ⊢
      omega
  · rfl

theorem getF_populated {f : Fld} (hf : f.key < 0x70100 * 8 ∨ 0x130000 * 8 ≤ f.key) : (populated modules s).getF f = s.getF f :=
  List.foldlRecOn (motive := fun (u : State) => u.getF f = s.getF f) _ _ rfl fun _ hu i hi => (getF_readChannel i hf (List.mem_range.1 hi)).trans hu

theorem populated_mgc (modules : List (Option Nat)) (s : State) : (populated modules s).mgc = s.mgc :=
  List.foldlRecOn (motive := fun (u : State) => u.mgc = s.mgc) _ _ rfl fun u hu i _ => by
    refine Eq.trans ?_ hu
    unfold readChannel
    split <;> rfl

theorem dimmTrained_populates (hboot : s.booting = true) (hstage : s.getF Reg.mgcBootStage = 1) (hpwr : s.pwr = pwrBoot)
    (hfirst : s.flag Reg.mgcBootDimmTrained = false) :
    dimmTrained modules s = if populationOk modules then
        (if (t1Trained (((modules[0]?).join).getD 0) (populated modules s)).getF Reg.mgcBootStage = 3 then
          showReady [pDdc, pTmg] (t1Trained (((modules[0]?).join).getD 0) (populated modules s))
        else t1Trained (((modules[0]?).join).getD 0) (populated modules s))
      else badPopulation modules (populated modules s) := by
  have hstay : ¬((!s.mayTrain) = true ∨ s.flag Reg.mgcBootDimmTrained = true) := by
    rw [mayTrain_booting hstage hpwr, hfirst]
    decide
  rw [dimmTrained, if_neg (by simp [hboot]), leaveRom_past (by rw [hstage]; decide)]
  exact if_neg hstay

/-- The boot stage reads through what a legal population sets. -/
theorem stage_t1Trained : (t1Trained g s).getF Reg.mgcBootStage = s.getF Reg.mgcBootStage := by
  rw [State.getF_setF_other _ _ _ _ (by decide), State.getF_setF_other _ _ _ _ (by decide), State.getF_setF_other _ _ _ _ (by decide)]

theorem mgc_t1Trained : (t1Trained g s).mgc = s.mgc := by
  rw [t1Trained, State.setF_mgc, State.setF_mgc, State.setF_mgc]

theorem trained_t1Trained : (t1Trained g s).flag Reg.mgcBootDimmTrained = true := by
  rw [flag_setF_other (by decide), flag_setF_other (by decide)]
  exact beq_iff_eq.2 (getF_setF_listed (f := Reg.mgcBootDimmTrained) Nat.one_lt_two Nat.one_ne_zero s)

theorem size_t1Trained (hg : g = 64 ∨ g = 128 ∨ g = 256) : (t1Trained g s).getF (Reg.tmgTierCapSize4k 1) = 16 * g * 2 ^ 18 := by
  rw [State.getF_setF_other _ _ _ _ (by decide)]
  rcases hg with rfl | rfl | rfl
  all_goals exact getF_setF_listed (f := Reg.tmgTierCapSize4k 1) (by decide) (by decide) _

theorem present_t1Trained : (t1Trained g s).flag (Reg.tmgTierCapPresent 1) = true :=
  beq_iff_eq.2 (getF_setF_listed (f := Reg.tmgTierCapPresent 1) Nat.one_lt_two Nat.one_ne_zero _)

theorem dimmTrained_legal (hboot : s.booting = true) (hstage : s.getF Reg.mgcBootStage = 1) (hpwr : s.pwr = pwrBoot)
    (hfirst : s.flag Reg.mgcBootDimmTrained = false) (hg : g = 64 ∨ g = 128 ∨ g = 256) :
    dimmTrained (List.replicate 16 (some g)) s = t1Trained g (populated (List.replicate 16 (some g)) s) := by
  have hok : populationOk (List.replicate 16 (some g)) = true := by
    rcases hg with rfl | rfl | rfl <;> decide
  have hboot1 : (t1Trained g (populated (List.replicate 16 (some g)) s)).getF Reg.mgcBootStage ≠ 3 := by
    rw [stage_t1Trained, getF_populated (by decide), hstage]
    decide
  rw [dimmTrained_populates hboot hstage hpwr hfirst, if_pos hok]
  exact if_neg hboot1

theorem dimmTrained_illegal (hboot : s.booting = true) (hstage : s.getF Reg.mgcBootStage = 1) (hpwr : s.pwr = pwrBoot)
    (hfirst : s.flag Reg.mgcBootDimmTrained = false) (hbad : populationOk modules = false) :
    dimmTrained modules s = badPopulation modules (populated modules s) := by
  rw [dimmTrained_populates hboot hstage hpwr hfirst, hbad]
  exact if_neg Bool.false_ne_true

theorem dimmTrained_held (h : s.booting = false) : dimmTrained modules s = s := if_pos (by simp [h])

/-- FATAL is raised and FAULT_N asserted, whatever the power state (01 R35, 15 R505). -/
theorem goFatal_mgc (s : State) : (goFatal s).mgc = { s.mgc with fatal := true, faultN := true } := by
  unfold goFatal
  dsimp only
  split <;> rfl

theorem getF_goFatal {f : Fld} (hf : Reg.mgcPwrStatState.key ≠ f.key) (s : State) : (goFatal s).getF f = s.getF f := by
  unfold goFatal
  dsimp only
  split
  · exact (getF_bump ..).trans (State.getF_setF_other _ _ _ _ hf)
  · rfl

end Population

-- The wipes and READY (13 R443, R444)

section Wipes

variable {s : State}

theorem wipeTier_tier {k j : Nat} (hk : k < 4) (hj : j < 4) (s : State) : (wipeTier k s).tier j = if j = k then [] else s.tier j :=
  tier_setTier s k j [] hk hj

/-- The data plane is not ready before the firmware has initialised and both wipes have ended. -/
theorem tryReady_waits (h : s.getF Reg.mgcBootStage ≠ 3 ∨ s.flag Reg.mgcBootT0Wiped = false ∨ s.flag Reg.mgcBootT1Wiped = false) : tryReady s = s := by
  refine if_neg ?_
  rintro ⟨hstage, h0, h1⟩
  rcases h with h | h | h
  · exact h hstage
  · exact absurd (h0.symm.trans h) (by decide)
  · exact absurd (h1.symm.trans h) (by decide)

theorem setPwr_enters {p : Nat} (h : s.pwr ≠ p) : setPwr p s = (s.setF Reg.mgcPwrStatState p).bump Ctr.mgcPowerStateChanges := if_neg h

/-- At a boot the data plane is ready with the second of its wipes (13 R444). -/
theorem tryReady_boots (hstage : s.getF Reg.mgcBootStage = 3) (h0 : s.flag Reg.mgcBootT0Wiped = true) (h1 : s.flag Reg.mgcBootT1Wiped = true)
    (hpwr : s.pwr = pwrBoot) (htarget : s.mgc.target = none) :
    tryReady s = logEv .mgcReady pMgc 0xFF [] ((((s.setF Reg.mgcBootStage 4).setF Reg.mgcBootDataReady 1).setF Reg.mgcPwrStatState pwrRun).bump
      Ctr.mgcPowerStateChanges) := by
  have hboot : ((s.setF Reg.mgcBootStage 4).setF Reg.mgcBootDataReady 1).pwr = pwrBoot := by
    rw [State.pwr, State.getF_setF_other _ _ _ _ (by decide), State.getF_setF_other _ _ _ _ (by decide)]
    exact hpwr
  rw [tryReady, if_pos ⟨hstage, h0, h1⟩]
  dsimp only
  rw [hboot, if_neg (show ¬pwrBoot = pwrMgmt by decide), setPwr_enters (by rw [hboot]; decide)]
  exact congrArg _ (if_neg (by simp [htarget]))

theorem t0WipeDone_wipes (hboot : s.booting = true) (htrained : s.flag Reg.mgcBootHbmTrained = true) (hfirst : s.flag Reg.mgcBootT0Wiped = false) :
    t0WipeDone s = if s.returning then ((wipeTier 0 s).setF Reg.mgcBootT0Wiped 1).setF Reg.mgcBootStage 1
      else tryReady ((wipeTier 0 s).setF Reg.mgcBootT0Wiped 1) :=
  if_neg (by simp [hboot, htrained, hfirst])

theorem t1WipeDone_wipes (hboot : s.booting = true) (htrained : s.flag Reg.mgcBootDimmTrained = true) (hfirst : s.flag Reg.mgcBootT1Wiped = false) :
    t1WipeDone s = tryReady ((wipeTier 1 s).setF Reg.mgcBootT1Wiped 1) :=
  if_neg (by simp [hboot, htrained, hfirst])

theorem t0WipeDone_held (h : s.booting = false) : t0WipeDone s = s := if_pos (by simp [h])
theorem t1WipeDone_held (h : s.booting = false) : t1WipeDone s = s := if_pos (by simp [h])

theorem fwInitDone_initialises (v : FwValues) (hboot : s.booting = true) (hstage : s.getF Reg.mgcBootStage = 2) :
    fwInitDone v s = tryReady ((if s.pwr = pwrBoot then fwValues v s else s).setF Reg.mgcBootStage 3) :=
  if_neg (by simp [hboot, hstage])

theorem fwInitDone_held (v : FwValues) (h : s.booting = false) : fwInitDone v s = s := if_pos (by simp [h])

end Wipes

/-- Settles O43: training past stage ROM (`hbmTrained_trains`, `dimmTrained_populates`), the wipes, and what makes the data plane ready (`tryReady_boots`). -/
theorem bootSequence : Obligations.BootSequence := by
  unfold Obligations.BootSequence
  refine ⟨?hbm, ?rom, ?legal, ?illegal, ?t0, ?t1, ?wipe, ?firmware, ?returned, fun s => tryReady_boots, fun s => tryReady_waits, ?held⟩
  case hbm =>
    intro s hboot hstage hpwr hfirst
    have hrom : leaveRom s = s := leaveRom_past (by rw [hstage]; decide)
    rw [exec_hbmTrained, hbmTrained_trains hboot (by rw [hrom]; exact mayTrain_booting hstage hpwr) (by rw [hrom]; exact hfirst), hrom]
  case rom =>
    intro s hboot hstage hread hcool hpwr hfirst
    have hrom := leaveRom_cool hstage hread hcool
    have hstage1 : (leaveRom s).getF Reg.mgcBootStage = 1 := by
      rw [hrom, getF_startPorts (portState_key_ne (by decide))]
      exact getF_setF_listed (f := Reg.mgcBootStage) (by decide) (by decide) s
    have hpwr1 : (leaveRom s).pwr = pwrBoot := by
      rw [hrom, State.pwr, getF_startPorts (portState_key_ne (by decide)), State.getF_setF_other _ _ _ _ (by decide)]
      exact hpwr
    have hfirst1 : (leaveRom s).flag Reg.mgcBootHbmTrained = false := by
      rw [hrom, State.flag, getF_startPorts (portState_key_ne (by decide)), State.getF_setF_other _ _ _ _ (by decide)]
      exact hfirst
    rw [exec_hbmTrained, hbmTrained_trains hboot (mayTrain_booting hstage1 hpwr1) hfirst1, hrom]
    rfl
  case legal =>
    intro g s hboot hstage hpwr hfirst hg
    rw [exec_dimmTrained, dimmTrained_legal hboot hstage hpwr hfirst hg]
    refine ⟨_, rfl, trained_t1Trained, size_t1Trained hg, present_t1Trained, mgc_t1Trained.trans (populated_mgc ..), ?_⟩
    exact (congrArg State.t1 (dimmTrained_legal hboot hstage hpwr hfirst hg)).symm.trans ((dimmTrained_keep _ s).t1 rfl)
  case illegal =>
    intro l s hboot hstage hpwr hfirst hbad
    have hfatal := goFatal_mgc ((raiseErr { slot := pDdc, ev := .ddcPopulation, cls := .fatal, resource := channelMap l } (populated l s)).setF Reg.mgcBootStage 5)
    refine ⟨_, by rw [exec_dimmTrained, dimmTrained_illegal hboot hstage hpwr hfirst hbad], ?_, ?_, ?_, ?_⟩
    · rw [hfatal]
    · rw [hfatal]
    · rw [getF_goFatal (by decide)]
      exact getF_setF_listed (f := Reg.mgcBootStage) (by decide) (by decide) _
    · exact (congrArg State.t1 (dimmTrained_illegal hboot hstage hpwr hfirst hbad)).symm.trans ((dimmTrained_keep l s).t1 rfl)
  case t0 =>
    intro s hboot htrained hfirst
    rw [exec_t0WipeDone, t0WipeDone_wipes hboot htrained hfirst]
    exact ⟨fun h => by rw [h]; rfl, fun h => by rw [h]; rfl⟩
  case t1 =>
    intro s hboot htrained hfirst
    rw [exec_t1WipeDone, t1WipeDone_wipes hboot htrained hfirst]
  case wipe =>
    intro k s hk
    have hkeep := wipeTier_keep k s
    refine ⟨?_, fun j hj hne => ?_, hkeep.regs rfl, hkeep.ssq rfl rfl rfl rfl rfl rfl rfl rfl rfl⟩
    · rw [wipeTier_tier hk hk, if_pos rfl]
    · rw [wipeTier_tier hk hj, if_neg hne]
  case firmware =>
    intro v s hboot hstage hpwr
    rw [exec_fwInitDone, fwInitDone_initialises v hboot hstage, if_pos hpwr]
  case returned =>
    intro v s hboot hstage hpwr
    rw [exec_fwInitDone, fwInitDone_initialises v hboot hstage, if_neg (by rw [hpwr]; decide)]
  case held =>
    intro v l s h
    rw [exec_hbmTrained, exec_dimmTrained, exec_t0WipeDone, exec_t1WipeDone, exec_fwInitDone, hbmTrained_held h, dimmTrained_held h, t0WipeDone_held h,
      t1WipeDone_held h, fwInitDone_held v h]
    exact ⟨rfl, rfl, rfl, rfl, rfl⟩

end Sys2Proof.Machine

/-!
The discrete pins (15 R495, R497, R506, R507): PERST_N by its scope, and the input filter.
-/
namespace Sys2Proof.Machine

open Sys2Proof

theorem exec_perstN (soon : Bool) (s : State) : exec (.perstN soon) s = .next (perst soon s) := rfl
theorem exec_perstNDeasserted (s : State) : exec .perstNDeasserted s =
    .next (if s.mgc.off ∨ s.mgc.perstHeld = false then s else (s.setMgc { s.mgc with perstHeld := false }).setF (Reg.mgcPinLevel 0) 0) := rfl
theorem exec_pinGlitch (pin : Nat) (dropped quiet : Bool) (s : State) : exec (.pinGlitch pin dropped quiet) s = .next (pinGlitch pin dropped quiet s) := rfl
theorem exec_pinStuckTimeout (pin : Nat) (s : State) : exec (.pinStuckTimeout pin) s = .next (pinStuck pin s) := rfl
theorem exec_pinUnmask (pin : Nat) (s : State) : exec (.pinUnmask pin) s = .next (pinUnmask pin s) := rfl

section Perst

variable {soon : Bool} {s : State}

/-- PERST_N is held from its assertion on. -/
abbrev perstTaken (s : State) : State := s.setMgc { s.mgc with perstHeld := true }

theorem perst_accepted (hoff : s.mgc.off = false) (hheld : s.mgc.perstHeld = false) :
    perst soon s = if s.flag Reg.mgcStrapPerstScope then
        (if s.getF Reg.mgcBootStage = 0 then s else (perstTaken (linkLost s)).setF (Reg.mgcPinLevel 0) 1)
      else perstTaken (if soon then s else warmReset 1 s) :=
  if_neg (by simp [hoff, hheld])

theorem perst_held (h : s.mgc.perstHeld = true) : perst soon s = s := if_pos (Or.inr h)

/-- With scope 1 stage ROM does not hear PERST_N (15 R497). -/
theorem perst_rom (hscope : s.flag Reg.mgcStrapPerstScope = true) (hstage : s.getF Reg.mgcBootStage = 0) : perst soon s = s := by
  unfold perst
  rw [if_pos hscope, if_pos hstage, ite_self]

end Perst

section Filter

variable {pin : Nat} {s : State}

theorem pinGlitch_filtered (hoff : s.mgc.off = false) (hpin : filtered pin = true) (dropped quiet : Bool) :
    pinGlitch pin dropped quiet s =
      let u := if dropped then s.satAdd (Reg.mgcPinDropped pin) 1 else (s.satAdd (Reg.mgcPinGlitches pin) 1).bump Ctr.mgcPinGlitches
      if quiet then u else logEv .mgcPinGlitch pMgc 0xFF [pin] u :=
  if_neg (by simp [hoff, hpin])

theorem pinGlitch_unfiltered (hpin : filtered pin = false) (dropped quiet : Bool) : pinGlitch pin dropped quiet s = s := if_pos (by simp [hpin])

/-- BEAT_IN stuck is masked, and every wheel takes the fabric's SP (15 R506). -/
theorem pinStuck_beatIn (hoff : s.mgc.off = false) (hmasked : s.flag (Reg.mgcPinMasked 1) = false) :
    let u := ((s.setF (Reg.mgcPinMasked 1) 1).setF (Reg.mgcPinLevel 1) 1).satAdd (Reg.mgcPinStuck 1) 1
    pinStuck 1 s = logEv .mgcPinMasked pMgc 0xFF [1] ((tkeys s.ssq.wheels).foldl (fun s w => modWheel w Wheel.followSp s) u) :=
  if_neg (by simp [hoff, hmasked])

theorem pinUnmask_beatIn (hoff : s.mgc.off = false) (hmasked : s.flag (Reg.mgcPinMasked 1) = true) :
    pinUnmask 1 s = logEv .mgcPinUnmasked pMgc 0xFF [1] ((s.setF (Reg.mgcPinMasked 1) 0).setF (Reg.mgcPinLevel 1) 0) :=
  if_neg (by simp [hoff, hmasked])

/-- No other input has a timeout. -/
theorem pinStuck_other (hpin : pin ≠ 1) : pinStuck pin s = s := if_pos (Or.inr (Or.inl hpin))
theorem pinUnmask_other (hpin : pin ≠ 1) : pinUnmask pin s = s := if_pos (Or.inr (Or.inl hpin))

end Filter

/-- Settles O44: PERST_N by its scope (`perst_accepted`), and each input by its filter. -/
theorem discretePins : Obligations.DiscretePins := by
  unfold Obligations.DiscretePins
  refine ⟨?warm, ?link, ?rom, ?release, ?held, ?glitch, ?unfiltered, ?stuck, ?unmask, ?other⟩
  case warm =>
    intro s hoff hheld hscope
    rw [exec_perstN, exec_perstN, perst_accepted hoff hheld, perst_accepted hoff hheld, hscope]
    exact ⟨rfl, rfl⟩
  case link =>
    intro soon s hoff hheld hscope hstage
    rw [exec_perstN, perst_accepted hoff hheld, if_pos hscope, if_neg hstage]
  case rom =>
    intro soon s hscope hstage
    rw [exec_perstN, perst_rom hscope hstage]
  case release =>
    intro s hoff hheld
    rw [exec_perstNDeasserted, if_neg (by simp [hoff, hheld])]
  case held =>
    intro soon s hheld
    rw [exec_perstN, perst_held hheld]
  case glitch =>
    intro pin s hoff hpin
    rw [exec_pinGlitch, exec_pinGlitch, exec_pinGlitch, pinGlitch_filtered hoff hpin, pinGlitch_filtered hoff hpin, pinGlitch_filtered hoff hpin]
    exact ⟨rfl, rfl, rfl⟩
  case unfiltered =>
    intro pin d q s hpin
    rw [exec_pinGlitch, pinGlitch_unfiltered hpin]
  case stuck =>
    intro s hoff hmasked u
    rw [exec_pinStuckTimeout, pinStuck_beatIn hoff hmasked]
    rfl
  case unmask =>
    intro s hoff hmasked
    rw [exec_pinUnmask, pinUnmask_beatIn hoff hmasked]
  case other =>
    intro pin s hpin
    rw [exec_pinStuckTimeout, exec_pinUnmask, pinStuck_other hpin, pinUnmask_other hpin]
    exact ⟨rfl, rfl⟩

end Sys2Proof.Machine

/-!
Firmware images, requests of a power state, and the warm reset (13 R436, 15 R482-R484, R495, R496).
-/
namespace Sys2Proof.Machine

open Sys2Proof

theorem exec_fwLoadGo (via len4k : Nat) (image : Option (List Byte)) (s : State) :
    exec (.fwLoadGo via len4k image) s = .next (countIo via (fwLoad via len4k image s)) := rfl
theorem exec_pwrCtrlGo (via t : Nat) (s : State) : exec (.pwrCtrlGo via t) s = .next (countIo via (pwrCtrl via t s)) := rfl
theorem exec_powerTransitionDone (s : State) : exec .powerTransitionDone s = .next (transitionDone s) := rfl
theorem exec_resetCtrlWrite (via key warm : Nat) (s : State) : exec (.resetCtrlWrite via key warm) s = .next (countIo via (resetCtrl via key warm s)) := rfl

-- The firmware image (13 R436)

section Firmware

variable {via len4k : Nat} {image : Option (List Byte)} {s : State}

/-- The state in which the image has been fetched. -/
abbrev imageFetched (len4k : Nat) (s : State) : State :=
  (s.setF Reg.secFwLoadCtrlLen4k len4k).emit (.hostFetch 0 (s.getF Reg.secFwLoadBase * 4096) (len4k * 4096))

/-- What runs of an image whose checks all pass. -/
abbrev imageRuns (b : List Byte) (s : State) : State :=
  ((((showBytes Reg.secFwMeasData 8 (slice b 0x20 64) s).setF Reg.secFwVersion (fieldAt b 8 4)).setF Reg.secFwSvn (fieldAt b 0xC 4)).setF
    Reg.mgcBootFwRunning 1).setF Reg.mgcBootStage 2

/-- In FW_WAIT the image is fetched and its first failing check shown (13 R436). -/
theorem fwLoad_waiting (hshown : s.fnShown 0 = true) (hboot : s.booting = true) (hlife : s.sec.fuses.lifecycle ≠ 3) (hstage : s.getF Reg.mgcBootStage = 1) :
    fwLoad 0 len4k image s =
      let u := imageFetched len4k s
      let im := image.map fun b => slice b 0 (len4k * 4096)
      let v := u.setF Reg.secFwStatResult (fwResult u im)
      if fwResult u im ≠ 0 then v else imageRuns (im.getD []) v := by
  have hgo : ¬(s.operator 0 = false ∨ (!s.booting) = true ∨ s.sec.fuses.lifecycle = 3) := by
    rw [operator_zero hshown, hboot]
    simpa using hlife
  rw [fwLoad, if_neg hgo, leaveRom_past (by rw [hstage]; decide)]
  exact if_neg (not_not_intro hstage)

theorem fwLoad_refused (h : via ≠ 0 ∨ s.booting = false ∨ s.sec.fuses.lifecycle = 3 ∨ 2 ≤ s.getF Reg.mgcBootStage) : fwLoad via len4k image s = s := by
  rcases h with hvia | hboot | hlife | hstage
  · exact if_pos (Or.inl (not_operator_of_ne hvia s))
  · exact if_pos (Or.inr (Or.inl (by simp [hboot])))
  · exact if_pos (Or.inr (Or.inr hlife))
  · have hpast : leaveRom s = s := leaveRom_past (by omega)
    unfold fwLoad
    rw [hpast]
    split
    · rfl
    · exact if_pos (by omega)

end Firmware

-- Requests of a power state (15 R483)

section Request

variable {via t : Nat} {s : State}

/-- Function 0, where the host reaches it, and I3C are the senders of MGC's requests (16 R513). -/
theorem sender_of {via : Nat} (h : (via = 0 ∧ s.fnShown 0 = true) ∨ via = fromI3c) : ¬(s.operator via = false ∧ via ≠ fromI3c) := by
  rintro ⟨hop, hne⟩
  rcases h with ⟨rfl, hshown⟩ | h
  · exact absurd ((operator_zero hshown).symm.trans hop) (by decide)
  · exact hne h

/-- The state in which TARGET holds a listed state that has been asked for. -/
abbrev targetAsked (t : Nat) (s : State) : State := s.setF Reg.mgcPwrCtrlTarget t

theorem getF_targetAsked (ht : 1 ≤ t ∧ t ≤ 3) : (targetAsked t s).getF Reg.mgcPwrCtrlTarget = t :=
  getF_setF_listed (f := Reg.mgcPwrCtrlTarget) (by change t < 8; omega) (by change t ≠ 0; omega) s

theorem pwr_targetAsked : (targetAsked t s).pwr = s.pwr := State.getF_setF_other _ _ _ _ (by decide)

theorem noneBusy_targetAsked : noneBusy (targetAsked t s) = noneBusy s := by
  have hstate : ∀ n, (targetAsked t s).pstate n = s.pstate n := fun n => by
    refine State.getF_setF_other _ _ _ _ ?_
    simp only [Fld.key, Reg.mgcPwrCtrlTarget, Reg.mgcPbCtrlState]
    omega
  simp only [noneBusy, hstate]

/-- A listed target is entered in TARGET, and refused or begun. -/
theorem pwrCtrl_asked (hoff : s.mgc.off = false) (hvia : (via = 0 ∧ s.fnShown 0 = true) ∨ via = fromI3c) (hidle : s.getF Reg.mgcPwrCtrlStatus ≠ 3)
    (ht : 1 ≤ t ∧ t ≤ 3) :
    pwrCtrl via t s =
      if s.pwr = pwrHalted ∨ (s.pwr = pwrMgmt ∧ s.mgc.tripped) then (targetAsked t s).setF Reg.mgcPwrCtrlStatus 2
      else if !mayGo (targetAsked t s) t then (targetAsked t s).setF Reg.mgcPwrCtrlStatus 1
      else ((targetAsked t s).setF Reg.mgcPwrCtrlStatus 3).setMgc { s.mgc with target := some t } := by
  have hgo : ¬(s.mgc.off = true ∨ (s.operator via = false ∧ via ≠ fromI3c) ∨ s.getF Reg.mgcPwrCtrlStatus = 3) := by
    rintro (h | h | h)
    · exact absurd (h.symm.trans hoff) (by decide)
    · exact sender_of hvia h
    · exact hidle h
  rw [pwrCtrl, if_neg hgo, if_pos ht]
  dsimp only
  rw [getF_targetAsked ht, pwr_targetAsked]
  rfl

theorem mayGo_run_busy (hpwr : s.pwr = pwrRun) (hbusy : noneBusy s = false) : mayGo s t = false := by
  simp [mayGo, hpwr, hbusy, pwrRun, pwrQuiesce, pwrMgmt]

theorem mayGo_run_idle (hpwr : s.pwr = pwrRun) (hidle : noneBusy s = true) (ht : t = 2 ∨ t = 3) : mayGo s t = true := by
  rcases ht with rfl | rfl <;> simp [mayGo, hpwr, hidle, pwrRun, pwrQuiesce, pwrMgmt]

end Request

-- The end of a change (15 R482, R484)

section Transition

variable {s : State}

theorem transitionDone_none (h : s.mgc.target = none) : transitionDone s = s := by
  rw [transitionDone, h]
  exact ite_self s

theorem fatal_of_running (h : Live s) : s.mgc.fatal = false := by
  simp only [Live, State.running, Bool.and_eq_true, Bool.not_eq_true'] at h
  exact h.1.2

theorem transitionDone_quiesce (hl : Live s) (htarget : s.mgc.target = some pwrQuiesce) :
    transitionDone s = endPwrRequest 0 (setPwr pwrQuiesce s) := by
  rw [transitionDone, off_of_running hl, htarget, fatal_of_running hl]
  rfl

theorem transitionDone_mgmt (hl : Live s) (htarget : s.mgc.target = some pwrMgmt) :
    transitionDone s = endPwrRequest 0 (setPwr pwrMgmt (dropT0 s)) := by
  rw [transitionDone, off_of_running hl, htarget, fatal_of_running hl]
  rfl

/-- Of the registers a port that leaves changes its own alone (10 R308). -/
theorem regs_dropPort (port state : Nat) (s : State) : (dropPort port state s).regs =
    (((s.setF (Reg.xfePortState port) state).setF (Reg.xfePortWidth port) 0).setF (Reg.xfePortGen port) 0).regs := by
  unfold dropPort
  dsimp only
  split
  · exact ((portLeft_keep ..).regs rfl).trans ((clearPort_keep ..).regs rfl)
  · rfl

theorem dropPort_wf (port state : Nat) (hw : Table.wf s.regs = true) : Table.wf (dropPort port state s).regs = true := by
  rw [regs_dropPort]
  exact State.setF_wf _ _ _ (State.setF_wf _ _ _ (State.setF_wf _ _ _ hw))

/-- The state in which the eight ports have left and the boot's flags are clear. -/
def bootCleared (s : State) : State :=
  [Reg.mgcBootHbmTrained, Reg.mgcBootT0Wiped, Reg.mgcBootFwRunning, Reg.mgcBootDataReady].foldl (fun s f => s.setF f 0)
    ((List.range 8).foldl (fun s p => dropPort p 0 s) s)

theorem regs_dropT0 (s : State) : (dropT0 s).regs = (bootCleared s).regs := by
  simp only [dropT0, bootCleared]

theorem bootCleared_wf (hw : Table.wf s.regs = true) : Table.wf (bootCleared s).regs = true :=
  have hports : Table.wf ((List.range 8).foldl (fun s p => dropPort p 0 s) s).regs = true :=
    List.foldlRecOn (motive := fun (u : State) => Table.wf u.regs = true) _ _ hw fun _ hu p _ => dropPort_wf p 0 hu
  State.setF_wf _ _ _ (State.setF_wf _ _ _ (State.setF_wf _ _ _ (State.setF_wf _ _ _ hports)))

/-- HBM_TRAINED and FW_RUNNING are clear without T0 (15 R484). -/
theorem bootFlags_dropT0 (hw : Table.wf s.regs = true) :
    (dropT0 s).flag Reg.mgcBootHbmTrained = false ∧ (dropT0 s).flag Reg.mgcBootFwRunning = false := by
  have hports : Table.wf ((List.range 8).foldl (fun s p => dropPort p 0 s) s).regs = true :=
    List.foldlRecOn (motive := fun (u : State) => Table.wf u.regs = true) _ _ hw fun _ hu p _ => dropPort_wf p 0 hu
  simp only [State.flag, State.getF_regs (regs_dropT0 s), bootCleared, List.foldl_cons, List.foldl_nil]
  constructor
  · rw [State.getF_setF_other _ _ _ _ (by decide), State.getF_setF_other _ _ _ _ (by decide), State.getF_setF_other _ _ _ _ (by decide),
      State.getF_setF_self _ _ _ hports]
    rfl
  · rw [State.getF_setF_other _ _ _ _ (by decide), State.getF_setF_self _ _ _ (State.setF_wf _ _ _ (State.setF_wf _ _ _ hports))]
    rfl

theorem t0_dropT0 (s : State) : (dropT0 s).t0 = [] := by
  simp only [dropT0]

theorem target_endPwrRequest (st : Nat) (s : State) : (endPwrRequest st s).mgc.target = none := rfl

/-- A state other than the reset's is entered, whether it was in force or not. -/
theorem pwr_setPwr {p : Nat} (hp : p < 8) (hne : p ≠ 0) (s : State) : (setPwr p s).pwr = p := by
  unfold setPwr
  split
  · assumption
  · exact (getF_bump ..).trans (getF_setF_listed (f := Reg.mgcPwrStatState) hp hne s)

theorem getF_setPwr {f : Fld} (p : Nat) (hf : Reg.mgcPwrStatState.key ≠ f.key) (s : State) : (setPwr p s).getF f = s.getF f := by
  unfold setPwr
  split
  · rfl
  · exact (getF_bump ..).trans (State.getF_setF_other _ _ _ _ hf)

theorem getF_endPwrRequest {f : Fld} (st : Nat) (hf : Reg.mgcPwrCtrlStatus.key ≠ f.key) (s : State) : (endPwrRequest st s).getF f = s.getF f :=
  State.getF_setF_other _ _ _ _ hf

end Transition

-- The warm reset (15 R495, R496)

/-- The state in which NVC has deallocated the T3 extents of the partitions (13 R443). -/
def t3Deallocated (s : State) : State :=
  ((List.range 16).filter fun n => decide (psLocked ≤ s.pstate n)).foldl (fun s n => deallocT3 (extentSpan s n 3).1 (extentSpan s n 3).2 s) s

theorem t3Deallocated_keep (s : State) : Keep 12 s (t3Deallocated s) := Keep.foldl (fun _ _ => deallocT3_keep ..) (.refl _ _) _

/-- What a warm reset makes of every field but the registers. -/
def warmBase (s : State) : State :=
  ({ reborn s with t0 := s.t0, t1 := s.t1, cwp := { poison := s.cwp.poison } } : State).setMgc { perstHeld := s.mgc.perstHeld }

theorem warmReset_eq (cause : Nat) (s : State) :
    warmReset cause s = [Reg.mgcStrapPos, Reg.mgcStrapPerstScope, Reg.mgcStrapI3cSa].foldl (fun b f => keepF (t3Deallocated s) f b)
      ((warmBase (t3Deallocated s)).setF Reg.mgcResetCtrlLastCause cause) := rfl

section WarmReset

variable {cause : Nat} {s : State}

/-- Beside its registers the state after a warm reset is `warmBase`. -/
theorem warmReset_fields (cause : Nat) (s : State) : ∃ r, warmReset cause s = { warmBase (t3Deallocated s) with regs := r } := ⟨_, rfl⟩

theorem lastCause_warmReset (hcause : cause < 4) : (warmReset cause s).getF Reg.mgcResetCtrlLastCause = cause := by
  rw [warmReset_eq, List.foldl_cons, List.foldl_cons, List.foldl_cons, List.foldl_nil, keepF, keepF, keepF, State.getF_setF_other _ _ _ _ (by decide),
    State.getF_setF_other _ _ _ _ (by decide), State.getF_setF_other _ _ _ _ (by decide), State.getF_setF_self _ _ _ rfl]
  exact Nat.mod_eq_of_lt hcause

theorem pos_warmReset : (warmReset cause s).getF Reg.mgcStrapPos = s.getF Reg.mgcStrapPos % 2 ^ Reg.mgcStrapPos.width := by
  rw [warmReset_eq, List.foldl_cons, List.foldl_cons, List.foldl_cons, List.foldl_nil, keepF, keepF, keepF, State.getF_setF_other _ _ _ _ (by decide),
    State.getF_setF_other _ _ _ _ (by decide), State.getF_setF_self _ _ _ (State.setF_wf _ _ _ rfl), State.getF_regs ((t3Deallocated_keep s).regs rfl)]

theorem resetCtrl_warm {via : Nat} (hoff : s.mgc.off = false) (hvia : (via = 0 ∧ s.fnShown 0 = true) ∨ via = fromI3c) :
    resetCtrl via 0xB007 1 s = warmReset (if via = 0 then 2 else 3) s := by
  refine if_neg ?_
  rintro (h | h | h | h)
  · exact absurd (h.symm.trans hoff) (by decide)
  · exact sender_of hvia h
  · exact h rfl
  · exact h rfl

theorem resetCtrl_refused {via key warm : Nat} (h : (via ≠ 0 ∧ via ≠ fromI3c) ∨ key ≠ 0xB007 ∨ warm ≠ 1) : resetCtrl via key warm s = s := by
  rcases h with ⟨hne, hi3c⟩ | h | h
  · exact if_pos (Or.inr (Or.inl ⟨not_operator_of_ne hne s, hi3c⟩))
  · exact if_pos (Or.inr (Or.inr (Or.inl h)))
  · exact if_pos (Or.inr (Or.inr (Or.inr h)))

end WarmReset

/-- Settles O41: the image in FW_WAIT (`fwLoad_waiting`), a request of a power state (`pwrCtrl_asked`) and its end, and what a warm reset leaves
(`warmReset_fields`). -/
theorem firmwareAndPowerRequests : Obligations.FirmwareAndPowerRequests := by
  unfold Obligations.FirmwareAndPowerRequests
  refine ⟨?load, ?refused, ?begun, ?busy, ?halted, ?quiesce, ?mgmt, ?idle, ?warm, ?noReset, ?reset⟩
  case load =>
    intro len4k image s hshown hboot hlife hstage u im v
    rw [exec_fwLoadGo, fwLoad_waiting hshown hboot hlife hstage]
  case refused =>
    intro via len4k image s h
    rw [exec_fwLoadGo, fwLoad_refused h]
  case begun =>
    intro via t s _ hoff hvia hstatus ht hpwr hrun hidle u
    have hgo : mayGo (targetAsked t s) t = true := mayGo_run_idle (pwr_targetAsked.trans hpwr) (noneBusy_targetAsked.trans hidle) hrun
    rw [exec_pwrCtrlGo, pwrCtrl_asked hoff hvia hstatus ht, hpwr, hgo]
    rfl
  case busy =>
    intro via t s hoff hvia hstatus ht hpwr hbusy
    have hgo : mayGo (targetAsked t s) t = false := mayGo_run_busy (pwr_targetAsked.trans hpwr) (noneBusy_targetAsked.trans hbusy)
    rw [exec_pwrCtrlGo, pwrCtrl_asked hoff hvia hstatus ht, hpwr, hgo]
    rfl
  case halted =>
    intro via t s hoff hvia hstatus ht hpwr
    rw [exec_pwrCtrlGo, pwrCtrl_asked hoff hvia hstatus ht, if_pos (Or.inl hpwr)]
  case quiesce =>
    intro s hl htarget hpwr
    rw [exec_powerTransitionDone, transitionDone_quiesce hl htarget, setPwr_enters (by rw [hpwr]; decide)]
    rfl
  case mgmt =>
    intro s hw hl htarget _
    obtain ⟨hhbm, hfw⟩ := bootFlags_dropT0 hw
    have hkeep := transitionDone_keep s
    have hdone := transitionDone_mgmt hl htarget
    refine ⟨_, exec_powerTransitionDone s, ?_, ?_, ?_, ?_, ?_, hkeep.t1 rfl, hkeep.ssq rfl rfl rfl rfl rfl rfl rfl rfl rfl⟩
    · rw [hdone, State.pwr, getF_endPwrRequest 0 (by decide)]
      exact pwr_setPwr (by decide) (by decide) _
    · rw [hdone, (endPwrRequest_keep ..).t0 rfl, (setPwr_keep ..).t0 rfl, t0_dropT0]
    · rw [hdone, State.flag, getF_endPwrRequest 0 (by decide), getF_setPwr _ (by decide)]
      exact hhbm
    · rw [hdone, State.flag, getF_endPwrRequest 0 (by decide), getF_setPwr _ (by decide)]
      exact hfw
    · rw [hdone, target_endPwrRequest]
  case idle =>
    intro s htarget
    rw [exec_powerTransitionDone, transitionDone_none htarget]
  case warm =>
    intro via s hoff hvia
    rw [exec_resetCtrlWrite, resetCtrl_warm hoff hvia]
  case noReset =>
    intro via key warm s h
    rw [exec_resetCtrlWrite, resetCtrl_refused h]
  case reset =>
    intro cause s hcause
    have hkeep := t3Deallocated_keep s
    have hmgc := hkeep.mgc rfl rfl rfl
    have hsec := hkeep.sec rfl rfl
    obtain ⟨r, hr⟩ := warmReset_fields cause s
    refine ⟨_, rfl, lastCause_warmReset hcause, pos_warmReset, ?_⟩
    rw [hr]
    refine ⟨hkeep.t0 rfl, hkeep.t1 rfl, rfl, rfl, rfl, rfl, rfl, rfl, rfl, ?_, rfl, rfl, ?_, ?_, ?_, hkeep.pending rfl⟩
    · exact congrArg (fun m : Mgc => ({ perstHeld := m.perstHeld } : Mgc)) hmgc
    · exact congrArg (fun x : Sec => x.fuses.atReset) hsec
    · exact (congrArg Frc.ring4k (hkeep.frc rfl) :)
    · exact (congrArg Cwp.poison (hkeep.cwp rfl) :)

end Sys2Proof.Machine

/-!
The debug surface (13 R439-R441): what it does to a core, and what it reads of the memories.
-/
namespace Sys2Proof.Machine

open Sys2Proof

theorem exec_debugHalt (core : Nat) (s : State) : exec (.debugHalt core) s = .next (debugHalt core s) := rfl
theorem exec_debugResume (core : Nat) (s : State) : exec (.debugResume core) s = .next (debugResume core s) := rfl
theorem exec_debugStep (core len : Nat) (act : CoreAct) (s : State) : exec (.debugStep { core := core, len := len, act := act }) s =
    .next (if !debugLive s || !s.mgc.coresHalted.contains core || s.pwr == pwrQuiesce || s.pwr == pwrMgmt then s
      else coreStep core len act (traceStep core s)) := rfl
theorem exec_debugMemoryRead (space a n : Nat) (s : State) : exec (.debugMemoryRead space a n) s = .next (debugMemoryRead space a n s) := rfl

-- Cores and their threads

section Harts

variable (c t : Nat) (s : State)

theorem core_putCore_self (k : Core) : (putCore c k s).core c = k := tgetD_tset ..

theorem core_putCore_ne {c d : Nat} (h : d ≠ c) (k : Core) (s : State) : (putCore c k s).core d = s.core d := by
  simp only [State.core, tgetD, putCore, tget_tset_ne _ _ h]

theorem current_putHart (h : Hart) : ((putHart c t h s).core c).current = (s.core c).current := by
  rw [putHart, core_putCore_self]

theorem hart_putHart_self (h : Hart) : ((putHart c t h s).core c).hart t = h := by
  rw [putHart, core_putCore_self]
  exact tgetD_tset ..

theorem hart_putHart_ne {t k : Nat} (hk : k ≠ t) (c : Nat) (h : Hart) (s : State) : ((putHart c t h s).core c).hart k = (s.core c).hart k := by
  rw [putHart, core_putCore_self]
  simp only [Core.hart, tgetD, tget_tset_ne _ _ hk]

theorem core_putHart_ne {c d : Nat} (hd : d ≠ c) (t : Nat) (h : Hart) (s : State) : (putHart c t h s).core d = s.core d :=
  core_putCore_ne hd _ s

end Harts

-- A step of a core (11 R373)

/-- The thread that a core's next instruction is of. -/
abbrev scheduled (core t : Nat) (s : State) : State := putCore core { s.core core with current := t } s

theorem hart_scheduled (core t k : Nat) (s : State) : ((scheduled core t s).core core).hart k = (s.core core).hart k := by
  rw [core_putCore_self]
  rfl

section Step

variable {core t len : Nat} {s : State}

/-- An instruction that stays in its thread writes that thread's registers and pc. -/
theorem coreStep_inner (hr : (s.core core).ready = some t) (x f : List (Nat × Nat)) (v : List (Nat × List Byte)) (csr : List (Nat × Nat)) (pc : Nat) :
    coreStep core len (.inner x f v csr pc) s =
      putHart core t { (s.core core).hart t with x := tputs (x.filter fun e => e.1 != 0) ((s.core core).hart t).x, f := tputs f ((s.core core).hart t).f,
                                                 v := tputs v ((s.core core).hart t).v, csr := tputs csr ((s.core core).hart t).csr, pc := pc }
        (scheduled core t s) := by
  simp only [coreStep, hr, hart_scheduled]

theorem coreStep_noThread (hr : (s.core core).ready = none) (act : CoreAct) : coreStep core len act s = s := by
  simp only [coreStep, hr]

/-- Writes of an integer register and of x0, which stays zero. -/
theorem tputs_x {rd v : Nat} (hrd : rd ≠ 0) (x : Table Nat) : tputs ([(rd, v), (0, v)].filter fun e => e.1 != 0) x = tset x rd v := by
  simp [tputs, hrd]

theorem loadDead_load {rd addr size : Nat} {signed : Bool} (hw : ((s.core core).hart t).wait = .load rd addr size signed len) :
    loadDead core t s = putHart core t ((((s.core core).hart t).setX rd (2 ^ 64 - 1)).loadFault addr) s := by
  simp only [loadDead, hw]

end Step

section Fault

variable (rd v addr : Nat) (h : Hart)

@[simp] theorem setX_csr : (h.setX rd v).csr = h.csr := by
  unfold Hart.setX
  split <;> rfl

@[simp] theorem setX_pc : (h.setX rd v).pc = h.pc := by
  unfold Hart.setX
  split <;> rfl

theorem setX_x {rd v : Nat} (hrd : rd ≠ 0) (hv : v < 2 ^ 64) (h : Hart) : tgetD (h.setX rd v).x rd 0 = v := by
  rw [Hart.setX, if_neg hrd, tgetD_tset, Nat.mod_eq_of_lt hv]

theorem tgetD_tset_ne {α : Type} (t : Table α) {i j : Nat} (v d : α) (hij : j ≠ i) : tgetD (tset t i v) j d = tgetD t j d := by
  rw [tgetD, tget_tset_ne _ _ hij, tgetD]

/-- A load access fault shows where it was taken, its cause and the address. -/
theorem loadFault_csr : tgetD (h.loadFault addr).csr 0x341 0 = h.pc ∧ tgetD (h.loadFault addr).csr 0x342 0 = 5 ∧
    tgetD (h.loadFault addr).csr 0x343 0 = addr := by
  simp [Hart.loadFault, tgetD_tset, tgetD_tset_ne]

end Fault

-- Tier memory read in pieces

section Pieces

variable (m : List Host.Cell)

@[simp] theorem memRead_zero (a : Nat) : memRead m a 0 = [] := rfl

theorem memRead_append (a n k : Nat) : memRead m a n ++ memRead m (a + n) k = memRead m a (n + k) := by
  simp [memRead, List.range_add, Nat.add_assoc, Function.comp_def]

theorem drop_take_memRead {d n k : Nat} (a : Nat) (h : d + n ≤ k) : ((memRead m a k).drop d).take n = memRead m (a + d) n := by
  obtain ⟨r, rfl⟩ := Nat.exists_eq_add_of_le h
  have hlen : ∀ a n, (memRead m a n).length = n := fun a n => by simp [memRead]
  rw [← memRead_append, ← memRead_append, List.append_assoc, List.drop_left' (hlen ..), List.take_left' (hlen ..)]

end Pieces

-- T0 where nothing of the device stands (13 R440)

/-- No object, page record table, map or page part of the device is in T0, and no row of it is withdrawn. -/
def ClearT0 (s : State) : Prop :=
  s.ssq.sessions = [] ∧ s.tmg.areas = [] ∧ s.frc.withdrawn = [] ∧ s.getF Reg.tmgDirBaseAddr = 0 ∧ objectsIn s 0 = []

section Clear

variable {s : State} (hs : ClearT0 s)
include hs

theorem ClearT0.objectAt (u : Nat) : objectAt s 0 u = none := by
  obtain ⟨-, -, -, -, hobj⟩ := hs
  rw [Machine.objectAt, hobj, List.find?_nil]

theorem ClearT0.plainUnit (u : Nat) : plainUnit s 0 u = memRead s.t0 (u * 512) 512 := by
  obtain ⟨hsess, -⟩ := id hs
  simp only [Machine.plainUnit, hs.objectAt, hsess, tvals, List.map_nil, List.findSome?_nil, ne_eq, not_true_eq_false, if_false, Option.map_none,
    Option.none_or, zero_ne_one, not_false_eq_true, if_true, Option.getD_none]
  exact memRead_append s.t0 (u * 512) 256 256

theorem ClearT0.clearUnit {u : Nat} (hu : u * 512 < 47 * gib) : clearUnit u s = (memRead s.t0 (u * 512) 512, s) := by
  obtain ⟨-, hareas, -, hdir, -⟩ := id hs
  have hfixed : ¬ 47 * gib ≤ u * 512 % (48 * gib) := fun h => absurd (Nat.le_trans h (Nat.mod_le _ _)) (Nat.not_le.mpr hu)
  have hnone : ∀ n, allAreas s n = 0 := fun n => by rw [allAreas, hareas]; rfl
  simp only [Machine.clearUnit, hdir, hs.objectAt, Nat.zero_div, ne_eq, not_true_eq_false, false_and, if_false, Option.isSome_none, Bool.false_eq_true,
    hfixed, hnone, decide_false, Bool.and_false, Bool.false_and, List.any_eq_true, and_false, exists_false, hs.plainUnit]

theorem ClearT0.dataUnit (u : Nat) : dataUnit s 0 u = some u := by
  obtain ⟨-, -, hwith, -, -⟩ := hs
  rw [Machine.dataUnit, hwith]
  rfl

end Clear

/-- A fold that reads pieces without changing the state. -/
theorem foldl_pieces {σ α : Type} {f : Nat → σ → List α × σ} {g : Nat → List α} {s : σ} (l : List Nat) (h : ∀ i ∈ l, f i s = (g i, s)) (b : List α) :
    l.foldl (fun (r : List α × σ) i => (r.1 ++ (f i r.2).1, (f i r.2).2)) (b, s) = (b ++ (l.map g).flatten, s) := by
  induction l generalizing b with
  | nil => simp
  | cons i l ih =>
    rw [List.foldl_cons, h i List.mem_cons_self, ih fun j hj => h j (List.mem_cons_of_mem _ hj)]
    simp

theorem flatten_memRead (m : List Host.Cell) (a n : Nat) :
    ((List.range n).map fun i => memRead m ((a + i) * 512) 512).flatten = memRead m (a * 512) (n * 512) := by
  induction n with
  | zero => rfl
  | succ n ih =>
    rw [List.range_succ, List.map_append, List.flatten_append, ih, Nat.succ_mul, ← memRead_append, ← Nat.add_mul]
    simp

/-- T0 is read in clear where no object of the device stands. -/
theorem debugBytes_clear {s : State} (hs : ClearT0 s) {a n : Nat} (hend : a + n ≤ 47 * gib) : debugBytes 0 a n s = (memRead s.t0 a n, s) := by
  have hpieces := foldl_pieces (f := fun i s => match dataUnit s 0 (a / 512 + i) with
      | none => s.freshBytes 512
      | some v => if 0 ≠ 0 then storedUnit 0 v s else clearUnit v s) (s := s) (b := [])
    (g := fun i => memRead s.t0 ((a / 512 + i) * 512) 512) (List.range (if n = 0 then 0 else (a + n - 1) / 512 + 1 - a / 512)) fun i hi => by
      have hlt : (a / 512 + i) * 512 < 47 * gib := by
        rw [List.mem_range] at hi
        split at hi <;> omega
      simp only [hs.dataUnit, hs.clearUnit hlt, ne_eq, not_true_eq_false, if_false]
  rw [flatten_memRead, List.nil_append] at hpieces
  simp only [debugBytes]
  refine Prod.ext ((congrArg (fun r : List Byte × State => (r.1.drop (a % 512)).take n) hpieces :).trans ?_) (congrArg Prod.snd hpieces :)
  by_cases hn : n = 0
  · simp [hn]
  · rw [if_neg hn, drop_take_memRead _ _ (by omega), Nat.div_add_mod' a 512]

-- The debug surface

section Surface

variable {s : State}

theorem debugHalt_running {core : Nat} (hlive : debugLive s = true) (hcore : core < 72) (hrun : s.mgc.coresHalted.contains core = false) :
    debugHalt core s = debugEvent 0 core 0 0 (({ s with mgc := { s.mgc with coresHalted := s.mgc.coresHalted ++ [core] } }).bump Ctr.secDebugHalts) :=
  if_neg (by simp [-List.contains_eq_mem, hlive, hrun, hcore])

theorem debugResume_halted {core : Nat} (hlive : debugLive s = true) (hhalted : s.mgc.coresHalted.contains core = true) :
    debugResume core s = coreFreed (debugEvent 1 core 0 0 { s with mgc := { s.mgc with coresHalted := s.mgc.coresHalted.filter (· != core) } }) :=
  if_neg (by simp [-List.contains_eq_mem, hlive, hhalted])

theorem debugStep_halted {core len : Nat} {act : CoreAct} (hlive : debugLive s = true) (hhalted : s.mgc.coresHalted.contains core = true)
    (hp : s.pwr ≠ pwrQuiesce ∧ s.pwr ≠ pwrMgmt) :
    exec (.debugStep { core := core, len := len, act := act }) s = .next (coreStep core len act (traceStep core s)) := by
  rw [exec_debugStep, if_neg (by simp [-List.contains_eq_mem, hlive, hhalted, hp])]

theorem debugStep_running {core len : Nat} {act : CoreAct} (hrun : s.mgc.coresHalted.contains core = false) :
    exec (.debugStep { core := core, len := len, act := act }) s = .next s := by
  rw [exec_debugStep, if_pos (by simp [-List.contains_eq_mem, hrun])]

theorem traceStep_off {core : Nat} (h : s.flag (Reg.blkCtrlTraceEn (corePage core)) = false) : traceStep core s = s := by
  simp only [traceStep, h, Bool.false_eq_true, if_false]

/-- Reading within a memory reports the use and answers the bytes. -/
theorem debugMemoryRead_within {space a n : Nat} (hlive : debugLive s = true) (hspace : space < 6) (hfit : a + n ≤ debugSpan s space)
    (hmem : space = 0 → a + n ≤ 0x5FC0000000) :
    debugMemoryRead space a n s =
      (debugEvent 2 space a n ((if space < 4 then debugBytes space a n s else (arrayBytes s space a n, s)).2.bump Ctr.secDebugReads)).emit
        (.debugData (if space < 4 then debugBytes space a n s else (arrayBytes s space a n, s)).1) := by
  have h7 : (!debugLive s || decide (7 ≤ space)) = false := by simp [hlive]; omega
  have hin : ¬ (debugSpan s space < a + n ∨ (space = 0 ∧ 0x5FC0000000 < a + n)) := by omega
  simp only [debugMemoryRead, h7, Bool.false_eq_true, if_false, Nat.ne_of_lt hspace, hin]

theorem debugMemoryRead_clear {a n : Nat} (hlive : debugLive s = true) (hend : a + n ≤ 47 * gib)
    (hcap : a + n ≤ s.getF (Reg.tmgTierCapSize4k 0) * 4096) (hs : ClearT0 s) :
    debugMemoryRead 0 a n s = (debugEvent 2 0 a n (s.bump Ctr.secDebugReads)).emit (.debugData (memRead s.t0 a n)) := by
  have hmem : 47 * gib ≤ 0x5FC0000000 := by decide
  rw [debugMemoryRead_within hlive (by decide) (by simpa [debugSpan] using hcap) fun _ => Nat.le_trans hend hmem, if_pos (by decide), debugBytes_clear hs hend]

theorem debugMemoryRead_array {space a n : Nat} (hlive : debugLive s = true)
    (h : (space = 4 ∧ a + n ≤ 160 * 2 ^ 20) ∨ (space = 5 ∧ a + n ≤ 40 * 2 ^ 20)) :
    debugMemoryRead space a n s = (debugEvent 2 space a n (s.bump Ctr.secDebugReads)).emit (.debugData (arrayBytes s space a n)) := by
  rcases h with ⟨rfl, h⟩ | ⟨rfl, h⟩ <;>
    rw [debugMemoryRead_within hlive (by decide) (by simpa [debugSpan] using h) (by simp), if_neg (by decide)]

theorem debugMemoryRead_beyond {space a n : Nat} (h : (space = 4 ∧ 160 * 2 ^ 20 < a + n) ∨ (space = 5 ∧ 40 * 2 ^ 20 < a + n)) :
    debugMemoryRead space a n s = s := by
  have hout : debugSpan s space < a + n := by rcases h with ⟨rfl, h⟩ | ⟨rfl, h⟩ <;> simpa [debugSpan] using h
  have h6 : space ≠ 6 := by omega
  simp only [debugMemoryRead, h6, hout, true_or, if_true, if_false, ite_self]

end Surface

/-- Settles O33: the uses of a live surface (`debugHalt_running`, `debugMemoryRead_within`), the one thread that a step touches
(`coreStep_inner`), the load access fault (`loadFault_csr`), and T0 read unit by unit (`debugBytes_clear`). -/
theorem debugSurface : Obligations.DebugSurface := by
  unfold Obligations.DebugSurface
  refine ⟨?halt, ?resume, fun core len act s hlive hhalted hp => ⟨debugStep_halted hlive hhalted hp, traceStep_off⟩,
    fun core len act s hrun => debugStep_running hrun, ?inner, fun core len act s hr => coreStep_noThread hr act, ?fault, ?clear, ?array, ?beyond, ?dead⟩
  case halt =>
    intro core s hlive hcore hrun
    rw [exec_debugHalt, debugHalt_running hlive hcore hrun]
    rfl
  case resume =>
    intro core s hlive hhalted
    rw [exec_debugResume, debugResume_halted hlive hhalted]
    rfl
  case inner =>
    intro core t len pc rd v s hr hrd
    simp only [coreStep_inner hr, tputs_x hrd]
    refine ⟨?_, ?_, ?_, fun r hne => ?_, fun k hk => ?_, fun k hk => ?_, rfl⟩
    · rw [current_putHart, core_putCore_self]
    · rw [hart_putHart_self]
    · rw [hart_putHart_self]
      exact tgetD_tset ..
    · rw [hart_putHart_self]
      exact tgetD_tset_ne _ _ _ hne
    · rw [hart_putHart_ne hk, hart_scheduled]
    · rw [core_putHart_ne hk, core_putCore_ne hk]
  case fault =>
    intro core t rd addr size len signed s hw hrd
    simp only [loadDead_load hw, hart_putHart_self]
    obtain ⟨hepc, hcause, htval⟩ := loadFault_csr addr (((s.core core).hart t).setX rd (2 ^ 64 - 1))
    refine ⟨setX_x hrd (by decide) _, rfl, ?_, hcause, htval, ?_, rfl⟩
    · rw [hepc, setX_pc]
    · simp only [Hart.loadFault, setX_csr]
  case clear =>
    intro a n s hlive hend hcap hsess hareas hwith hdir hobj
    rw [exec_debugMemoryRead, debugMemoryRead_clear hlive hend hcap ⟨hsess, hareas, hwith, hdir, hobj⟩]
  case array =>
    intro space a n s hlive hfit
    rw [exec_debugMemoryRead, debugMemoryRead_array hlive hfit]
  case beyond =>
    intro space a n s hout
    rw [exec_debugMemoryRead, debugMemoryRead_beyond hout]
  case dead =>
    intro core len act space a n s hdead
    have hdead : (!debugLive s) = true := by simp [hdead]
    simp only [exec_debugHalt, exec_debugResume, exec_debugStep, exec_debugMemoryRead, debugHalt, debugResume, debugMemoryRead, hdead, Bool.true_or, if_true,
      and_self]

end Sys2Proof.Machine

/-!
Capsules and replay (14 R466-R475): what CAPSULE_READ copies, where CAPSULE_WRITE moves a sealed capsule, the capsule area, and the outcomes of
REPLAY_RUN.
-/
namespace Sys2Proof.Machine

open Sys2Proof

theorem exec_capsuleRead (c : Cmd) (s : State) : exec (.capsuleRead c) s = .next (hostCmd 0x0801 c (capsuleRead c) s) := rfl
theorem exec_capsuleWrite (s : State) : exec .capsuleWrite s = .next (live capsuleWrite s) := rfl
theorem exec_capsuleAreaWrite (via units : Nat) (s : State) :
    exec (.capsuleAreaWrite via units) s = .next (countIo via (if s.operator via = false then s else live (areaWrite units) s)) := rfl
theorem exec_replayRun (c : Cmd) (supply : List (List Byte)) (s : State) : exec (.replayRun c supply) s =
    .next (powered (fun s => trimSupplies (hostCmd 0x0802 c (replayRun c) (s.setFrc { s.frc with supplies := s.frc.supplies ++ [(c, supply)] }))) s) := rfl

-- CAPSULE_READ (R470)

section Read

variable {c : Cmd} {s : State} (hargs : c.argsOk [(0, 8), (8, 4), (0x0C, 4), (0x10, 1)] = true)
include hargs

theorem capsuleRead_session (h0 : c.arg 0x10 1 = 0) :
    capsuleRead c s =
      let out := fitCapsules c.dlen (((readable s).filter fun k => (c.fn == 0 || k.part == c.part) && k.session == c.arg 0 8 &&
        decide (c.arg 8 4 ≤ k.turn)).take (c.arg 0x0C 4))
      let bytes := (out.map (·.bytes)).flatten
      .done s { result0 := out.length, result1 := bytes.length, data := if bytes.isEmpty then none else some (0, bytes) } := by
  have hpos : ((0 : Nat) == 1) = false := rfl
  simp only [capsuleRead, hargs, h0, Nat.zero_le, decide_true, Bool.and_self, need_true, hpos, Bool.not_false, Bool.true_or, Bool.false_eq_true, if_false]

theorem capsuleRead_noPosition (h1 : c.arg 0x10 1 = 1) (hpos : ((readable s)[c.arg 0 8]?).isNone = true) :
    capsuleRead c s = .fail .invalidField := by
  simp only [capsuleRead, hargs, h1, Nat.le_refl, decide_true, Bool.and_self, need_true, BEq.rfl, Bool.not_true, Bool.false_or,
    Option.isNone_iff_eq_none.1 hpos, Option.map_none, Option.getD_none, need_false]

end Read

-- CAPSULE_WRITE (R466, R468)

section Write

variable {k : Capsule} {s : State} (hk : s.frc.staging.find? (·.sealed) = some k)
include hk

/-- The ring with a sealed capsule of staging added. -/
abbrev ringTaken (k : Capsule) (s : State) : Frc :=
  { s.frc with staging := s.frc.staging.erase k, ring4k := s.frc.ring4k ++ [k],
               areaNext := (s.frc.areaNext + k.bytes.length / 4096) % max 1 (s.getF Reg.frcCapsuleUnits4k) }

/-- With units left in the ring nothing is overwritten: the capsule moves there, and its units go to the drives. -/
theorem capsuleWrite_moves (harea : s.flag Reg.frcCapsuleStatArea = true) (hroom : k.bytes.length / 4096 ≤ ringRoom s)
    (hfree : (s.frc.ring4k.map fun c => c.bytes.length / 4096).sum + k.bytes.length / 4096 ≤ s.getF Reg.frcCapsuleUnits4k) :
    Keep 12 (s.setFrc (ringTaken k s)) (capsuleWrite s) := by
  have hover : overwrite (s.frc.ring4k.length + 1) (k.bytes.length / 4096) s = s := if_pos hfree
  simp only [capsuleWrite, hk, harea, Bool.not_true, Bool.false_eq_true, false_or, Nat.not_lt.2 hroom, if_false, hover]
  exact Keep.foldl (fun u _ => (emit_keep u _).then (bump_keep _ _) rfl) (.refl _ _) _

theorem capsuleWrite_noRoom (h : s.flag Reg.frcCapsuleStatArea = false ∨ ringRoom s < k.bytes.length / 4096) : capsuleWrite s = s := by
  simp only [capsuleWrite, hk]
  exact if_pos (h.imp (by simp [·]) id)

end Write

-- The capsule area (R466, R467, 08 R254)

section Keys

/-- An entry above every key of a table goes to its end. -/
theorem tkeys_tset_above {α : Type} (t : Table α) {i : Nat} (v : α) (h : ∀ k ∈ tkeys t, k < i) : tkeys (tset t i v) = tkeys t ++ [i] := by
  induction t with
  | nil => rfl
  | cons e t ih =>
    have hk : e.1 < i := h e.1 List.mem_cons_self
    have ht := ih fun k hm => h k (List.mem_cons_of_mem _ hm)
    simp only [tset, Nat.not_lt.2 hk.le, hk.ne', if_false]
    exact congrArg (e.1 :: ·) ht

/-- Entries written in rising order of their keys stand in that order. -/
theorem tkeys_foldl_tset {α β : Type} (f : β → Nat) (g : β → α) (l : List β) (t : Table α) (h : (tkeys t ++ l.map f).Pairwise (· < ·)) :
    tkeys (l.foldl (fun t b => tset t (f b) (g b)) t) = tkeys t ++ l.map f := by
  induction l generalizing t with
  | nil => simp
  | cons b l ih =>
    have hlast : ∀ k ∈ tkeys t, k < f b := fun k hk => (List.pairwise_append.1 h).2.2 k hk _ List.mem_cons_self
    have hsplit : tkeys (tset t (f b) (g b)) ++ l.map f = tkeys t ++ (b :: l).map f := by simp [tkeys_tset_above t _ hlast]
    rw [List.foldl_cons, ih _ (hsplit ▸ h), hsplit]

theorem drives_pairwise (s : State) : (drives s).Pairwise (· < ·) := List.pairwise_lt_range.filter _

end Keys

theorem getF_t3Capacity {f : Fld} (h1 : (Reg.tmgTierCapSize4k 3).key ≠ f.key) (h2 : (Reg.tmgTierCapPresent 3).key ≠ f.key) (s : State) :
    (t3Capacity s).getF f = s.getF f := by
  rw [t3Capacity, State.setFlag, State.getF_setF_other _ _ _ _ h2, State.getF_setF_other _ _ _ _ h1]

theorem getF_units_t3Capacity (s : State) : (t3Capacity s).getF Reg.frcCapsuleUnits4k = s.getF Reg.frcCapsuleUnits4k :=
  getF_t3Capacity (by decide) (by decide) s

theorem flag_area_t3Capacity (s : State) : (t3Capacity s).flag Reg.frcCapsuleStatArea = s.flag Reg.frcCapsuleStatArea := by
  rw [State.flag, getF_t3Capacity (by decide) (by decide), State.flag]

/-- The label of the member at a position of a new area. -/
def areaLabel (s : State) (units k : Nat) : CapLabel :=
  { members := (drives s).length, position := k, units := units, euis := (List.range 8).map fun k => ((drives s)[k]?.map Config.driveEui).getD 0 }

/-- The labels of a new area, one for each drive in service. -/
def areaLabels (s : State) (units : Nat) : Table CapLabel :=
  (drives s).zipIdx.foldl (fun t d => tset t d.1 (areaLabel s units d.2)) []

/-- No area: no labels, an empty ring. -/
abbrev areaCleared (s : State) : State := s.setFrc { s.frc with labels := [], ring4k := [], areaNext := 0 }

/-- The labels written to the drives. -/
def labelsWritten (s : State) (units : Nat) : State :=
  (drives s).zipIdx.foldl (fun u d => (u.emit (.driveWrite d.1 0 (areaLabel s units d.2).bytes)).bump (Ctr.nvcWriteUnits d.1)) (areaCleared s)

/-- The units of an area given back to its drives. -/
def labelsDropped (s : State) : State :=
  (drives s).foldl (fun u d => (u.emit (.driveDealloc d 0 1)).bump (Ctr.nvcDeallocatedUnits d))
    (((areaCleared s).setF Reg.frcCapsuleUnits4k 0).setF Reg.frcCapsuleStatArea 0)

theorem tkeys_areaLabels (s : State) (units : Nat) : tkeys (areaLabels s units) = drives s := by
  have hkeys : (drives s).zipIdx.map Prod.fst = drives s := List.zipIdx_map_fst 0 _
  have hrising : (tkeys ([] : Table CapLabel) ++ (drives s).zipIdx.map Prod.fst).Pairwise (· < ·) := by
    rw [hkeys]
    exact drives_pairwise s
  exact (tkeys_foldl_tset _ (fun d => areaLabel s units d.2) _ [] hrising).trans hkeys

theorem labelsWritten_keep (s : State) (units : Nat) : Keep 12 (areaCleared s) (labelsWritten s units) :=
  Keep.foldl (fun u _ => (emit_keep u _).then (bump_keep _ _) rfl) (.refl _ _) _

theorem labelsDropped_keep (s : State) :
    Keep 12 (((areaCleared s).setF Reg.frcCapsuleUnits4k 0).setF Reg.frcCapsuleStatArea 0) (labelsDropped s) :=
  Keep.foldl (fun u _ => (emit_keep u _).then (bump_keep _ _) rfl) (.refl _ _) _

section Area

variable {s : State}

theorem exec_capsuleAreaWrite_operator (hfn : s.fnShown 0 = true) (hrun : s.running = true) (units : Nat) :
    exec (.capsuleAreaWrite 0 units) s = .next (countIo 0 (areaWrite units s)) := by
  rw [exec_capsuleAreaWrite, if_neg (by simp [operator_zero hfn]), live_of_running hrun]

theorem areaWrite_refused (hun : s.allUnconfigured = false) (units : Nat) : areaWrite units s = s := if_pos (Or.inl (by simp [hun]))

theorem areaWrite_lays {units : Nat} (hun : s.allUnconfigured = true) (hunits : 0 < units) (hmax : units < 2 ^ 40) (hset : drives s ≠ []) :
    areaWrite units s = t3Capacity ((((labelsWritten s units).setFrc { (labelsWritten s units).frc with labels := areaLabels s units }).setF
      Reg.frcCapsuleUnits4k units).setF Reg.frcCapsuleStatArea 1) := by
  rw [areaWrite, if_neg (by simp [hun]; omega), if_neg (Nat.ne_of_gt hunits), if_neg (by simpa using hset)]
  rfl

theorem areaWrite_removes (hun : s.allUnconfigured = true) : areaWrite 0 s = t3Capacity (labelsDropped s) := by
  rw [areaWrite, if_neg (by simp [hun]), if_pos rfl]
  rfl

/-- A new area is empty, with the units given and a label on every drive in service. -/
theorem areaWrite_laid {units : Nat} (hun : s.allUnconfigured = true) (hunits : 0 < units) (hmax : units < 2 ^ 40) (hset : drives s ≠ []) :
    (areaWrite units s).getF Reg.frcCapsuleUnits4k = units ∧ (areaWrite units s).flag Reg.frcCapsuleStatArea = true ∧
      (areaWrite units s).frc = { s.frc with labels := areaLabels s units, ring4k := [], areaNext := 0 } := by
  rw [areaWrite_lays hun hunits hmax hset]
  refine ⟨?_, ?_, ?_⟩
  · rw [getF_units_t3Capacity, State.getF_setF_other _ _ _ _ (by decide), getF_setF_listed hmax (Nat.ne_of_gt hunits)]
  · rw [flag_area_t3Capacity, State.flag, getF_setF_listed (by decide) (by decide)]
    rfl
  · rw [(t3Capacity_keep _).frc rfl, State.setF_frc, State.setF_frc]
    simp only [State.setFrc, (labelsWritten_keep s units).frc rfl]

/-- A removed area is out of service, without labels and without a ring. -/
theorem areaWrite_removed (hun : s.allUnconfigured = true) (hw : Table.wf s.regs = true) :
    (areaWrite 0 s).flag Reg.frcCapsuleStatArea = false ∧ (areaWrite 0 s).frc = { s.frc with labels := [], ring4k := [], areaNext := 0 } := by
  rw [areaWrite_removes hun]
  refine ⟨?_, ?_⟩
  · rw [flag_area_t3Capacity, State.flag, State.getF_regs ((labelsDropped_keep s).regs rfl), ← State.flag]
    exact flag_setF_self (State.setF_wf _ _ _ hw) rfl 0
  · rw [(t3Capacity_keep _).frc rfl, (labelsDropped_keep s).frc rfl, State.setF_frc, State.setF_frc]
    rfl

end Area

-- REPLAY_RUN (R472-R475)

/-- What the buffer of a REPLAY_RUN holds: the UID of a certificate chain that leads to the root, and the capsules behind it. -/
def replayInput (c : Cmd) (s : State) : Option (Nat × List CapIn) :=
  let b := c.buffer s
  let cert := derRun (b.length + 1) b
  (Config.certCheck (b.take cert)).bind fun k =>
    (parseCapsules ((tgetD s.sec.memKeys c.part []).take 64) k.2 (b.length / 4096 + 2) (b.drop cert)).map fun l => (k.1, l)

/-- The chains of a run, replayed on a machine set aside, and how many capsules were replayed whole. -/
abbrev replayed (c : Cmd) (s : State) (l : List CapIn) : Rp × Nat :=
  Rp.chain l 0 { m := replayMachine s c.part (fieldAt ((l.head?).map (·.header) |>.getD []) 0x1C 1), supply := supplyOf s c }

/-- The flag of RESULT1: a capsule replayed whole has one of the marks of R475. -/
abbrev replayMark (q : Rp × Nat) (l : List CapIn) : Nat := if (l.take q.2).any fun c => bit c.flags 1 || bit c.flags 2 then 1 else 0

section Replay

variable {c : Cmd} {s : State} (hargs : c.argsOk [(0, 2)] = true)
include hargs

theorem replayRun_unread (h : replayInput c s = none) : replayRun c s = .fail .replayCapsule := by
  simp only [replayRun, hargs, need_true]
  simp only [replayInput, Option.bind_eq_none_iff, Option.map_eq_none_iff] at h
  split
  · rfl
  · next uid pk hcert => simp only [h _ hcert]

/-- A buffer that can be read is checked, and replayed if every check passes. -/
theorem replayRun_read {uid : Nat} {l : List CapIn} (h : replayInput c s = some (uid, l)) :
    replayRun c s = match replayCheck s c.part (c.arg 0 2) uid l with
      | some st => .fail st
      | none =>
        match (replayed c s l).1.bad with
        | some d => .done (logEv .frcDivergence pFrc c.part [d.session, d.turn + d.step * 2 ^ 32, d.layer + d.op * 2 ^ 16 + d.index * 2 ^ 32, d.capsule]
              ((s.bump Ctr.frcReplaysRun).bump Ctr.frcReplayDivergences))
            { status := .replayDiverged, result0 := (replayed c s l).2, result1 := replayMark (replayed c s l) l, data := some (0, d.bytes) }
        | none => .done (s.bump Ctr.frcReplaysRun)
            { status := if (replayed c s l).1.stuck then .replayCapsule else .ok, result0 := (replayed c s l).2,
              result1 := replayMark (replayed c s l) l } := by
  obtain ⟨⟨_, pk⟩, hcert, h⟩ := Option.bind_eq_some_iff.1 h
  obtain ⟨_, hparse, hpair⟩ := Option.map_eq_some_iff.1 h
  obtain ⟨rfl, rfl⟩ := Prod.mk.inj hpair
  simp only [replayRun, hargs, need_true, hcert, hparse]
  cases hcheck : replayCheck s c.part (c.arg 0 2) _ _ with
  | some st => rfl
  | none =>
    cases hbad : (replayed c s _).1.bad with
    | some d => rfl
    | none =>
      cases (replayed c s _).1.stuck with
      | false => simp only [Bool.false_eq_true, if_false]
      | true => simp only [if_true]

end Replay

/-- Settles O29: the bodies past the checks of their form (`capsuleRead_session`, `replayRun_read`), and what a capsule moved (`capsuleWrite_moves`)
and an area written (`areaWrite_laid`, `areaWrite_removed`) leave. -/
theorem capsulesAndReplay : Obligations.CapsulesAndReplay := by
  unfold Obligations.CapsulesAndReplay
  refine ⟨?session, ?position, ?moved, ?noRoom, ?laid, ?removed, ?refused, ?replay, ?state⟩
  case session =>
    intro c s hadm hargs h0 _
    rw [exec_capsuleRead, hostCmd_done hadm (capsuleRead_session hargs h0)]
  case position =>
    intro c s hadm hargs h1 hpos
    rw [exec_capsuleRead, hostCmd_fail hadm (capsuleRead_noPosition hargs h1 hpos)]
  case moved =>
    intro k s hrun hk harea hroom hfree
    have hmoved := capsuleWrite_moves hk harea hroom hfree
    refine ⟨capsuleWrite s, ?_, hmoved.frc rfl, hmoved.regs rfl, hmoved.ssq rfl rfl rfl rfl rfl rfl rfl rfl rfl, hmoved.t3 rfl⟩
    rw [exec_capsuleWrite, live_of_running hrun]
  case noRoom =>
    intro k s hk h
    rw [exec_capsuleWrite, live_of_eq (capsuleWrite_noRoom hk h)]
  case laid =>
    intro units s hfn hrun hun hunits hset
    obtain ⟨hpos, hmax⟩ := hunits
    obtain ⟨hu, hflag, hfrc⟩ := areaWrite_laid hun hpos hmax hset
    have hkeep := areaWrite_keep units s
    refine ⟨areaWrite units s, exec_capsuleAreaWrite_operator hfn hrun units, hu, hflag, ?_, ?_, ?_, hkeep.ssq rfl rfl rfl rfl rfl rfl rfl rfl rfl, hkeep.hif rfl⟩
    · rw [hfrc]
    · rw [hfrc]
    · rw [hfrc]
      exact tkeys_areaLabels s units
  case removed =>
    intro s hfn hrun hun hw
    obtain ⟨hflag, hfrc⟩ := areaWrite_removed hun hw
    refine ⟨areaWrite 0 s, exec_capsuleAreaWrite_operator hfn hrun 0, hflag, ?_, ?_⟩
    · rw [hfrc]
    · rw [hfrc]
  case refused =>
    intro via units s h
    rw [exec_capsuleAreaWrite]
    rcases h with hvia | hun
    · rw [if_pos (not_operator_of_ne hvia s)]
    · rw [live_of_eq (areaWrite_refused hun units), ite_self]
  case replay =>
    intro c supply s hon hadm hargs u b cert
    rw [exec_replayRun, powered_of_on hon]
    refine congrArg (fun t => Host.Outcome.next (trimSupplies t)) ?_
    split
    · next h => exact hostCmd_fail hadm (replayRun_unread hargs h)
    · next uid l h =>
      have hread := replayRun_read hargs h
      split
      · next st hst => exact hostCmd_fail hadm (hread.trans (by rw [hst]))
      · next hst =>
        rw [hst] at hread
        dsimp only
        split
        · next d hd => exact hostCmd_done hadm (hread.trans (by rw [hd]))
        · next hd => exact hostCmd_done hadm (hread.trans (by rw [hd]))
  case state =>
    intro c supply s hon hgate
    rw [exec_replayRun, powered_of_on hon, hostCmd_refused hgate]

end Sys2Proof.Machine
